-- ==== Sys2Proof/Word.lean ====
section
/-!
DEFINITION. The word types of the SKL-4880 and their plainest arithmetic.
-/

namespace Sys2Proof

/-- A register word (R6). -/
abbrev W32 := BitVec 32

/-- A Torvulo register, a data-memory word and a 64-bit access (R49, R53, R61). -/
abbrev W64 := BitVec 64

/-- One byte of a packet, a bundle or a message. -/
abbrev Byte := BitVec 8

end Sys2Proof
end

