-- ==== Sys2Proof/Machine/RegMap.lean ====
section
/-!
DEFINITION. The register map of the SKL-4880: every register of the chapters' register tables, its address (R94, R148, R179, R215, R259, R298,
R332, R352, R379, R399, R416, R431, R444, R461, R479, R502, R514, R532, R554, Table 21-1) and its fields with access code and reset value.
An array of words inside one block (a staging buffer, a result list) is one register with an inner index: instance = outer * inner count + index.
-/

namespace Sys2Proof.Machine

/-- Every register named by the register tables (Table 21-2). -/
inductive Reg where
  | SYS_DEVICE_ID
  | SYS_REVISION
  | SYS_ACCESS_MODE
  | STK_CTL
  | STK_STATUS
  | STK_PC
  | STK_FAULT
  | STK_FAULT_PC
  | STK_TAGS
  | STK_NEXT_LO
  | STK_NEXT_HI
  | STK_SLEEP
  | STK_MBX_STATUS
  | STK_MBX_POST
  | STK_MBX_POP
  | STK_MBX_STAGE
  | STK_MBX_RSP
  | STK_ENGINES
  | LANE_STATE
  | LANE_RX_CFG
  | LANE_RX_CTLE
  | LANE_RX_GAIN
  | LANE_RX_CDR
  | LANE_RX_ADAPT
  | LANE_RX_MU
  | LANE_SEASON_CMD
  | LANE_SEASON_STATUS
  | LANE_RX_STATUS
  | LANE_RX_FOM
  | LANE_RX_OVR
  | LANE_RX_FREQ
  | LANE_RX_LOWMARGIN
  | LANE_RX_FOM_THR
  | LANE_RX_EVENT
  | LANE_RX_EVENT_EN
  | LANE_RX_COEF_ADDR
  | LANE_RX_COEF_DATA
  | LANE_TX_CFG
  | LANE_TX_DRV
  | LANE_TX_DAC
  | LANE_TX_SMOKE
  | LANE_TX_STATUS
  | LANE_TX_EVENT
  | LANE_TX_EVENT_EN
  | LANE_TX_SAT
  | LANE_TX_COMMIT
  | LANE_TX_COEF_ADDR
  | LANE_TX_COEF_DATA
  | BAY_CFG
  | BAY_ROLE
  | PORT_LANE_STATE
  | PORT_CFG
  | PORT_TAG_TX
  | PORT_TAG_EXP
  | PORT_TAG_RX
  | PORT_STATUS
  | PORT_LANE_MAP
  | PORT_POL
  | PORT_SKEW
  | PORT_FEC_THR
  | PORT_EVENT
  | PORT_EVENT_EN
  | PORT_FEC_CW_LO
  | PORT_FEC_CW_HI
  | PORT_FEC_CORR
  | PORT_FEC_UNCOR
  | PORT_FEC_SYM
  | PORT_FEC_INNER_C1
  | PORT_FEC_INNER_C2
  | PORT_FEC_INNER_DUE
  | TUN_CFG
  | TUN_LIMITS
  | TUN_STATUS
  | TUN_TX_SEQ_LO
  | TUN_TX_SEQ_HI
  | TUN_RX_DEL_LO
  | TUN_RX_DEL_HI
  | TUN_RX_HIGH_LO
  | TUN_RX_HIGH_HI
  | TUN_RX_WIN
  | TUN_ROLL
  | TUN_ROLL_CFG
  | TUN_ROLL_STATUS
  | TUN_TX_USE
  | TUN_EVENT
  | TUN_EVENT_EN
  | TUN_CNT_FRAMES_IN
  | TUN_CNT_FRAMES_OUT
  | TUN_CNT_BUNDLES_TX
  | TUN_CNT_BUNDLES_RX
  | TUN_CNT_DROP_BLOCKED
  | TUN_CNT_DROP_OVERSIZE
  | TUN_CNT_BAD_FCS
  | TUN_CNT_AUTH_FAIL_A
  | TUN_CNT_AUTH_FAIL_B
  | TUN_CNT_FALLBACK_OK
  | TUN_CNT_ERRORED_A
  | TUN_CNT_ERRORED_B
  | TUN_CNT_REPLAY
  | TUN_CNT_GAP_BUNDLES
  | TUN_CNT_LOST_FRAMES
  | TUN_CNT_FORMAT_ERR
  | TUN_CNT_CTRL_AUTH_FAIL
  | KEY_STAGE
  | KEY_LOAD
  | KEY_ZEROISE
  | KEY_STATUS
  | KEY_LIMIT
  | CRY_ETHERTYPE
  | CRY_MAC_LOCAL_LO
  | CRY_MAC_LOCAL_HI
  | CRY_MAC_PEER_LO
  | CRY_MAC_PEER_HI
  | CRY_PEER_EPOCH
  | CRY_PEER_STATUS
  | CRY_PIPE_TX
  | CRY_PIPE_RX
  | CRY_PIPE_FAIL_TX
  | CRY_PIPE_FAIL_RX
  | CRY_NO_TUNNEL
  | CRY_FOREIGN
  | CRY_STRAY
  | KEY_DESC
  | HOLD_CTL
  | HOLD_CFG
  | HOLD_STATUS
  | HOLD_BUDGET
  | HOLD_NEED
  | HOLD_CORDS_USABLE
  | HOLD_CORDS_FILLED
  | HOLD_OCC_RETX
  | HOLD_OCC_ALIGN
  | HOLD_OCC_RIDE
  | HOLD_SCRUB_CTL
  | HOLD_SCRUB_STATUS
  | HOLD_BUCKET_CFG
  | HOLD_PPR_ROW
  | HOLD_PPR_CMD
  | HOLD_PPR_STATUS
  | HOLD_ERR_LOG_LO
  | HOLD_ERR_LOG_HI
  | HOLD_EVENT
  | HOLD_EVENT_EN
  | HOLD_CNT_CLINKERS
  | HOLD_CNT_CLINKER_UNUSED
  | HOLD_CNT_LOST_UNUSED
  | HOLD_CNT_CAND_DROPPED
  | HOLD_CH_STATUS
  | HOLD_CH_DIMM
  | HOLD_CH_CNT_CORRECTED
  | HOLD_CH_CNT_UNCORRECTABLE
  | HOLD_CH_CNT_SOFT_REPAIRS
  | HOLD_CH_CNT_RETRIES
  | PROT_CFG
  | PROT_SWITCH_CTL
  | PROT_STATUS
  | PROT_CTL
  | PROT_LL_CFG
  | PROT_RESEND_WAIT
  | PROT_MERGE_CFG
  | PROT_DELAY_FIX
  | PROT_DRAIN
  | PROT_EVENT
  | PROT_EVENT_EN
  | PROT_TUN_CFG
  | PROT_TUN_SKEW
  | PROT_TUN_DELAY
  | PROT_TUN_STATE
  | PROT_TUN_BACKLOG
  | PROT_TUN_UNACKED
  | PROT_TUN_GAP_LO
  | PROT_TUN_GAP_HI
  | PROT_TUN_GAP_INFO
  | PROT_TUN_CNT_RESEND_TX
  | PROT_TUN_CNT_RESEND_RX
  | PROT_TUN_CNT_RESENT
  | PROT_TUN_CNT_DEADLINE
  | PROT_TUN_CNT_LATE_COPY
  | PROT_TUN_CNT_STALE
  | PROT_TUN_CNT_HOLDBACK_DROP
  | PROT_TUN_SINGLE
  | LANE_DEC_CFG
  | LANE_DEC_NCO
  | LANE_DEC_STATUS
  | LANE_DEC_SWITCH
  | LANE_DEC_COEF_ADDR
  | LANE_DEC_COEF_DATA
  | LANE_DEC_DELAY
  | LANE_DEC_CAP_CTL
  | LANE_DEC_CAP_STATUS
  | LANE_DEC_CAP_TS_LO
  | LANE_DEC_CAP_TS_HI
  | LANE_DEC_CAP_ADDR
  | LANE_DEC_CAP_DATA_LO
  | LANE_DEC_CAP_DATA_HI
  | LANE_MON_CTL
  | LANE_MON_STATUS
  | LANE_MON_HIST_ADDR
  | LANE_MON_HIST_DATA
  | LANE_MON_HIST_TOTAL
  | LANE_MON_HIST_OVR
  | LANE_MON_SQ_CFG
  | LANE_MON_SQ_LEVEL0
  | LANE_MON_SQ_LEVEL1
  | LANE_MON_SQ_LEVEL2
  | LANE_MON_SQ_LEVEL3
  | LANE_MON_SQ_RLM
  | SMOKE_CFG
  | SMOKE_CTL
  | SMOKE_STATUS
  | SMOKE_EVENT
  | SMOKE_EVENT_EN
  | SMOKE_TX_POST
  | SMOKE_RX_INFO
  | SMOKE_RX_POP
  | SMOKE_PEER_EPOCH
  | SMOKE_PEER_DEVICE
  | SMOKE_PEER_TAG
  | SMOKE_PEER_INFO
  | SMOKE_LINK
  | SMOKE_TX_BUF
  | SMOKE_RX_BUF
  | SMOKE_CNT_FRAMES_TX
  | SMOKE_CNT_FRAMES_RX
  | SMOKE_CNT_DETECTS
  | SMOKE_CNT_HDR_FAIL
  | SMOKE_CNT_PAY_FAIL
  | SMOKE_CNT_CAPTURED
  | SMOKE_CNT_BAD_MSG
  | SMOKE_CNT_DROPPED
  | TINDER_CTL
  | TINDER_STATUS
  | TINDER_EQ
  | TINDER_ERR
  | TINDER_SESSION
  | TINDER_SESSION_ADDR
  | TINDER_AUTH
  | SVC_SPI_STATUS
  | IRQ_COMPLETE
  | IRQ_SW_SET
  | IRQ_HOST_ID
  | IRQ_STATUS
  | IRQ_MASK
  | IRQ_PENDING
  | IRQ_ACTIVE
  | IRQ_SRC
  | MEMP_CTL
  | MEMP_STATUS
  | MEMP_LOG_LO
  | MEMP_LOG_HI
  | MEMP_LOG_POP
  | MEMP_INJECT_ADDR
  | MEMP_INJECT_DATA_LO
  | MEMP_INJECT_DATA_HI
  | MEMP_INJECT_CTL
  | MEMP_RAW_LO
  | MEMP_RAW_HI
  | MEMP_RAW_CHECK
  | MEMP_REG_CNT
  | MEMP_REG_STATUS
  | CHAR_STATUS_LO
  | CHAR_STATUS_HI
  | FAULT_BUSY_LO
  | FAULT_BUSY_HI
  | FAULT_ALIVE
  | FAULT_LAST_RESET
  | FAULT_SW_SET
  | FAULT_NMT
  | FAULT_REACT
  | FAULT_DETAIL
  | KILN_CTL
  | KILN_CFG
  | KILN_STATUS
  | KILN_LAST_LO
  | KILN_LAST_HI
  | KILN_FAIL_LO
  | KILN_FAIL_HI
  | KILN_EVENT
  | KILN_EVENT_EN
  | KILN_REG
  | MCV_IN
  | MCV_SIM_TRIG
  | MCV_CAP_CTL
  | MCV_CAP_STATUS
  | MCV_CAP_TS_LO
  | MCV_CAP_TS_HI
  | MCV_CAP_ADDR
  | MCV_CAP_DATA
  | MCV_CTL
  | MCV_PERIOD
  | MCV_STATUS
  | MCV_URGENT
  | MCV_SEQ
  | MCV_RESULT
  | MCV_URG_RESULT
  | PWR_CLK_CTL
  | PWR_CLK_STATUS
  | PWR_TIME_LO
  | PWR_TIME_HI
  | PWR_CFG
  | PWR_BLOCK
  | THERM_CFG
  | THERM_DAMPER
  | THERM_CTL
  | THERM_STATUS
  | THERM_EVENT
  | THERM_EVENT_EN
  | THERM_SENSOR
  | PERF_CTL
  | PERF_DUMP_CFG
  | PERF_DUMP
  | PERF_STATUS
  | PERF_RING
  | PERF_MIRROR
  | PERF_OVF
  | PERF_SEL
  | PERF_CNT_LO
  | PERF_CNT_HI
  | SYS_RESET_CTL
  | SYS_RESET_CAUSE
  | SYS_BOOT_STATUS
  | SYS_IMAGE_VERSION
  | SYS_EPOCH
  | SYS_IMAGE_PTR_LO
  | SYS_IMAGE_PTR_HI
  | SYS_AUTH_NONCE_LO
  | SYS_AUTH_NONCE_HI
  | SYS_AUTH_RESP
  | SYS_AUTH_REQ
  | PEAT_ADDR
  | PEAT_DATA
  | PEAT_CMD
  | PEAT_STATUS
  | IO_SLEW_CTL
  | IO_BAY_PINS
  | IO_BAY_I2C_CTL
  | IO_BAY_I2C_STATUS
  | IO_BAY_I2C_DATA
  deriving DecidableEq, Repr

/-- The units of Table 21-1. -/
inductive Unit' where
  | system | tinder | stoker | lane | bay | tunnel | key | hold | prot | irq | memp | fault | kiln | mcv | power | perf | flue | peat | io
  deriving DecidableEq, Repr

/-- Access codes of Table 0-5 (R8). -/
inductive Acc where
  | rw | ro | w1c | w1s | rc | wo | tv
  deriving DecidableEq, Repr

/-- One field of a register: its lowest bit, its width, its access code and the reset value its table gives (R10). -/
structure Fld where
  reg : Reg
  lo : Nat
  w : Nat
  acc : Acc
  rst : Nat
  deriving DecidableEq, Repr

/-- How the blocks of a register are laid out: one linear stride, or the ports of Table 21-1 (port b.i at bay base + (i + 1) * 0x1000). -/
inductive Layout where
  | linear (stride : Nat)
  | port
  deriving DecidableEq, Repr

/-- Where a register lies: address of instance 0, layout and count of its blocks, stride and count of the words inside a block; its unit and
the privilege code its chapter asks for writing (Table 2-10; 1 where the chapter states none, R81). -/
structure RegInfo where
  base : Nat
  layout : Layout
  count : Nat
  innerStride : Nat
  innerCount : Nat
  unit : Unit'
  wpriv : Nat
  deriving DecidableEq, Repr

/-- The table of register places. -/
def Reg.info : Reg → RegInfo
  | .SYS_DEVICE_ID => ⟨0x0, .linear 0x0, 1, 0x0, 1, .system, 1⟩
  | .SYS_REVISION => ⟨0x4, .linear 0x0, 1, 0x0, 1, .system, 1⟩
  | .SYS_ACCESS_MODE => ⟨0x8, .linear 0x0, 1, 0x0, 1, .system, 2⟩
  | .STK_CTL => ⟨0x100000, .linear 0x1000, 8, 0x0, 1, .stoker, 1⟩
  | .STK_STATUS => ⟨0x100004, .linear 0x1000, 8, 0x0, 1, .stoker, 1⟩
  | .STK_PC => ⟨0x100008, .linear 0x1000, 8, 0x0, 1, .stoker, 1⟩
  | .STK_FAULT => ⟨0x10000C, .linear 0x1000, 8, 0x0, 1, .stoker, 1⟩
  | .STK_FAULT_PC => ⟨0x100010, .linear 0x1000, 8, 0x0, 1, .stoker, 1⟩
  | .STK_TAGS => ⟨0x100014, .linear 0x1000, 8, 0x0, 1, .stoker, 1⟩
  | .STK_NEXT_LO => ⟨0x100018, .linear 0x1000, 8, 0x0, 1, .stoker, 1⟩
  | .STK_NEXT_HI => ⟨0x10001C, .linear 0x1000, 8, 0x0, 1, .stoker, 1⟩
  | .STK_SLEEP => ⟨0x100020, .linear 0x1000, 8, 0x0, 1, .stoker, 1⟩
  | .STK_MBX_STATUS => ⟨0x100024, .linear 0x1000, 8, 0x0, 1, .stoker, 0⟩
  | .STK_MBX_POST => ⟨0x100028, .linear 0x1000, 8, 0x0, 1, .stoker, 0⟩
  | .STK_MBX_POP => ⟨0x10002C, .linear 0x1000, 8, 0x0, 1, .stoker, 0⟩
  | .STK_MBX_STAGE => ⟨0x100100, .linear 0x1000, 8, 0x4, 16, .stoker, 0⟩
  | .STK_MBX_RSP => ⟨0x100180, .linear 0x1000, 8, 0x4, 16, .stoker, 0⟩
  | .STK_ENGINES => ⟨0x108000, .linear 0x0, 1, 0x0, 1, .stoker, 1⟩
  | .LANE_STATE => ⟨0x2000000, .linear 0x1000, 48, 0x0, 1, .lane, 1⟩
  | .LANE_RX_CFG => ⟨0x2000004, .linear 0x1000, 48, 0x0, 1, .lane, 1⟩
  | .LANE_RX_CTLE => ⟨0x2000008, .linear 0x1000, 48, 0x0, 1, .lane, 1⟩
  | .LANE_RX_GAIN => ⟨0x200000C, .linear 0x1000, 48, 0x0, 1, .lane, 1⟩
  | .LANE_RX_CDR => ⟨0x2000010, .linear 0x1000, 48, 0x0, 1, .lane, 1⟩
  | .LANE_RX_ADAPT => ⟨0x2000014, .linear 0x1000, 48, 0x0, 1, .lane, 1⟩
  | .LANE_RX_MU => ⟨0x2000018, .linear 0x1000, 48, 0x0, 1, .lane, 1⟩
  | .LANE_SEASON_CMD => ⟨0x2000020, .linear 0x1000, 48, 0x0, 1, .lane, 1⟩
  | .LANE_SEASON_STATUS => ⟨0x2000024, .linear 0x1000, 48, 0x0, 1, .lane, 1⟩
  | .LANE_RX_STATUS => ⟨0x2000030, .linear 0x1000, 48, 0x0, 1, .lane, 1⟩
  | .LANE_RX_FOM => ⟨0x2000034, .linear 0x1000, 48, 0x0, 1, .lane, 1⟩
  | .LANE_RX_OVR => ⟨0x2000038, .linear 0x1000, 48, 0x0, 1, .lane, 1⟩
  | .LANE_RX_FREQ => ⟨0x200003C, .linear 0x1000, 48, 0x0, 1, .lane, 1⟩
  | .LANE_RX_LOWMARGIN => ⟨0x2000040, .linear 0x1000, 48, 0x0, 1, .lane, 1⟩
  | .LANE_RX_FOM_THR => ⟨0x2000044, .linear 0x1000, 48, 0x0, 1, .lane, 1⟩
  | .LANE_RX_EVENT => ⟨0x2000048, .linear 0x1000, 48, 0x0, 1, .lane, 1⟩
  | .LANE_RX_EVENT_EN => ⟨0x200004C, .linear 0x1000, 48, 0x0, 1, .lane, 1⟩
  | .LANE_RX_COEF_ADDR => ⟨0x2000080, .linear 0x1000, 48, 0x0, 1, .lane, 1⟩
  | .LANE_RX_COEF_DATA => ⟨0x2000084, .linear 0x1000, 48, 0x0, 1, .lane, 1⟩
  | .LANE_TX_CFG => ⟨0x2000100, .linear 0x1000, 48, 0x0, 1, .lane, 1⟩
  | .LANE_TX_DRV => ⟨0x2000104, .linear 0x1000, 48, 0x0, 1, .lane, 1⟩
  | .LANE_TX_DAC => ⟨0x2000108, .linear 0x1000, 48, 0x0, 1, .lane, 1⟩
  | .LANE_TX_SMOKE => ⟨0x200010C, .linear 0x1000, 48, 0x0, 1, .lane, 1⟩
  | .LANE_TX_STATUS => ⟨0x2000110, .linear 0x1000, 48, 0x0, 1, .lane, 1⟩
  | .LANE_TX_EVENT => ⟨0x2000114, .linear 0x1000, 48, 0x0, 1, .lane, 1⟩
  | .LANE_TX_EVENT_EN => ⟨0x2000118, .linear 0x1000, 48, 0x0, 1, .lane, 1⟩
  | .LANE_TX_SAT => ⟨0x200011C, .linear 0x1000, 48, 0x0, 1, .lane, 1⟩
  | .LANE_TX_COMMIT => ⟨0x2000120, .linear 0x1000, 48, 0x0, 1, .lane, 1⟩
  | .LANE_TX_COEF_ADDR => ⟨0x2000180, .linear 0x1000, 48, 0x0, 1, .lane, 1⟩
  | .LANE_TX_COEF_DATA => ⟨0x2000184, .linear 0x1000, 48, 0x0, 1, .lane, 1⟩
  | .BAY_CFG => ⟨0x3000000, .linear 0x10000, 6, 0x0, 1, .bay, 2⟩
  | .BAY_ROLE => ⟨0x3000004, .linear 0x10000, 6, 0x0, 1, .bay, 2⟩
  | .PORT_LANE_STATE => ⟨0x3000000, .port, 48, 0x0, 1, .bay, 1⟩
  | .PORT_CFG => ⟨0x3000004, .port, 48, 0x0, 1, .bay, 1⟩
  | .PORT_TAG_TX => ⟨0x3000008, .port, 48, 0x0, 1, .bay, 1⟩
  | .PORT_TAG_EXP => ⟨0x300000C, .port, 48, 0x0, 1, .bay, 1⟩
  | .PORT_TAG_RX => ⟨0x3000010, .port, 48, 0x0, 1, .bay, 1⟩
  | .PORT_STATUS => ⟨0x3000014, .port, 48, 0x0, 1, .bay, 1⟩
  | .PORT_LANE_MAP => ⟨0x3000018, .port, 48, 0x0, 1, .bay, 1⟩
  | .PORT_POL => ⟨0x300001C, .port, 48, 0x0, 1, .bay, 1⟩
  | .PORT_SKEW => ⟨0x3000020, .port, 48, 0x0, 1, .bay, 1⟩
  | .PORT_FEC_THR => ⟨0x3000024, .port, 48, 0x0, 1, .bay, 1⟩
  | .PORT_EVENT => ⟨0x3000028, .port, 48, 0x0, 1, .bay, 1⟩
  | .PORT_EVENT_EN => ⟨0x300002C, .port, 48, 0x0, 1, .bay, 1⟩
  | .PORT_FEC_CW_LO => ⟨0x3000100, .port, 48, 0x20, 8, .bay, 1⟩
  | .PORT_FEC_CW_HI => ⟨0x3000104, .port, 48, 0x20, 8, .bay, 1⟩
  | .PORT_FEC_CORR => ⟨0x3000108, .port, 48, 0x20, 8, .bay, 1⟩
  | .PORT_FEC_UNCOR => ⟨0x300010C, .port, 48, 0x20, 8, .bay, 1⟩
  | .PORT_FEC_SYM => ⟨0x3000110, .port, 48, 0x20, 8, .bay, 1⟩
  | .PORT_FEC_INNER_C1 => ⟨0x3000114, .port, 48, 0x20, 8, .bay, 1⟩
  | .PORT_FEC_INNER_C2 => ⟨0x3000118, .port, 48, 0x20, 8, .bay, 1⟩
  | .PORT_FEC_INNER_DUE => ⟨0x300011C, .port, 48, 0x20, 8, .bay, 1⟩
  | .TUN_CFG => ⟨0x4000000, .linear 0x200, 24, 0x0, 1, .tunnel, 1⟩
  | .TUN_LIMITS => ⟨0x4000004, .linear 0x200, 24, 0x0, 1, .tunnel, 1⟩
  | .TUN_STATUS => ⟨0x4000008, .linear 0x200, 24, 0x0, 1, .tunnel, 1⟩
  | .TUN_TX_SEQ_LO => ⟨0x4000010, .linear 0x200, 24, 0x0, 1, .tunnel, 1⟩
  | .TUN_TX_SEQ_HI => ⟨0x4000014, .linear 0x200, 24, 0x0, 1, .tunnel, 1⟩
  | .TUN_RX_DEL_LO => ⟨0x4000018, .linear 0x200, 24, 0x0, 1, .tunnel, 1⟩
  | .TUN_RX_DEL_HI => ⟨0x400001C, .linear 0x200, 24, 0x0, 1, .tunnel, 1⟩
  | .TUN_RX_HIGH_LO => ⟨0x4000020, .linear 0x200, 24, 0x0, 1, .tunnel, 1⟩
  | .TUN_RX_HIGH_HI => ⟨0x4000024, .linear 0x200, 24, 0x0, 1, .tunnel, 1⟩
  | .TUN_RX_WIN => ⟨0x4000028, .linear 0x200, 24, 0x0, 1, .tunnel, 1⟩
  | .TUN_ROLL => ⟨0x4000030, .linear 0x200, 24, 0x0, 1, .tunnel, 1⟩
  | .TUN_ROLL_CFG => ⟨0x4000034, .linear 0x200, 24, 0x0, 1, .tunnel, 1⟩
  | .TUN_ROLL_STATUS => ⟨0x4000038, .linear 0x200, 24, 0x0, 1, .tunnel, 1⟩
  | .TUN_TX_USE => ⟨0x400003C, .linear 0x200, 24, 0x0, 1, .tunnel, 1⟩
  | .TUN_EVENT => ⟨0x4000040, .linear 0x200, 24, 0x0, 1, .tunnel, 1⟩
  | .TUN_EVENT_EN => ⟨0x4000044, .linear 0x200, 24, 0x0, 1, .tunnel, 1⟩
  | .TUN_CNT_FRAMES_IN => ⟨0x4000080, .linear 0x200, 24, 0x0, 1, .tunnel, 1⟩
  | .TUN_CNT_FRAMES_OUT => ⟨0x4000084, .linear 0x200, 24, 0x0, 1, .tunnel, 1⟩
  | .TUN_CNT_BUNDLES_TX => ⟨0x4000088, .linear 0x200, 24, 0x0, 1, .tunnel, 1⟩
  | .TUN_CNT_BUNDLES_RX => ⟨0x400008C, .linear 0x200, 24, 0x0, 1, .tunnel, 1⟩
  | .TUN_CNT_DROP_BLOCKED => ⟨0x4000090, .linear 0x200, 24, 0x0, 1, .tunnel, 1⟩
  | .TUN_CNT_DROP_OVERSIZE => ⟨0x4000094, .linear 0x200, 24, 0x0, 1, .tunnel, 1⟩
  | .TUN_CNT_BAD_FCS => ⟨0x4000098, .linear 0x200, 24, 0x0, 1, .tunnel, 1⟩
  | .TUN_CNT_AUTH_FAIL_A => ⟨0x400009C, .linear 0x200, 24, 0x0, 1, .tunnel, 1⟩
  | .TUN_CNT_AUTH_FAIL_B => ⟨0x40000A0, .linear 0x200, 24, 0x0, 1, .tunnel, 1⟩
  | .TUN_CNT_FALLBACK_OK => ⟨0x40000A4, .linear 0x200, 24, 0x0, 1, .tunnel, 1⟩
  | .TUN_CNT_ERRORED_A => ⟨0x40000A8, .linear 0x200, 24, 0x0, 1, .tunnel, 1⟩
  | .TUN_CNT_ERRORED_B => ⟨0x40000AC, .linear 0x200, 24, 0x0, 1, .tunnel, 1⟩
  | .TUN_CNT_REPLAY => ⟨0x40000B0, .linear 0x200, 24, 0x0, 1, .tunnel, 1⟩
  | .TUN_CNT_GAP_BUNDLES => ⟨0x40000B4, .linear 0x200, 24, 0x0, 1, .tunnel, 1⟩
  | .TUN_CNT_LOST_FRAMES => ⟨0x40000B8, .linear 0x200, 24, 0x0, 1, .tunnel, 1⟩
  | .TUN_CNT_FORMAT_ERR => ⟨0x40000BC, .linear 0x200, 24, 0x0, 1, .tunnel, 1⟩
  | .TUN_CNT_CTRL_AUTH_FAIL => ⟨0x40000C0, .linear 0x200, 24, 0x0, 1, .tunnel, 1⟩
  | .KEY_STAGE => ⟨0x4100000, .linear 0x0, 1, 0x4, 12, .key, 2⟩
  | .KEY_LOAD => ⟨0x4100030, .linear 0x0, 1, 0x0, 1, .key, 2⟩
  | .KEY_ZEROISE => ⟨0x4100034, .linear 0x0, 1, 0x0, 1, .key, 2⟩
  | .KEY_STATUS => ⟨0x4100038, .linear 0x0, 1, 0x0, 1, .key, 2⟩
  | .KEY_LIMIT => ⟨0x410003C, .linear 0x0, 1, 0x0, 1, .key, 2⟩
  | .CRY_ETHERTYPE => ⟨0x4100040, .linear 0x0, 1, 0x0, 1, .key, 1⟩
  | .CRY_MAC_LOCAL_LO => ⟨0x4100048, .linear 0x0, 1, 0x0, 1, .key, 1⟩
  | .CRY_MAC_LOCAL_HI => ⟨0x410004C, .linear 0x0, 1, 0x0, 1, .key, 1⟩
  | .CRY_MAC_PEER_LO => ⟨0x4100050, .linear 0x0, 1, 0x0, 1, .key, 1⟩
  | .CRY_MAC_PEER_HI => ⟨0x4100054, .linear 0x0, 1, 0x0, 1, .key, 1⟩
  | .CRY_PEER_EPOCH => ⟨0x4100058, .linear 0x0, 1, 0x0, 1, .key, 1⟩
  | .CRY_PEER_STATUS => ⟨0x410005C, .linear 0x0, 1, 0x0, 1, .key, 1⟩
  | .CRY_PIPE_TX => ⟨0x4100060, .linear 0x0, 1, 0x0, 1, .key, 1⟩
  | .CRY_PIPE_RX => ⟨0x4100064, .linear 0x0, 1, 0x0, 1, .key, 1⟩
  | .CRY_PIPE_FAIL_TX => ⟨0x4100068, .linear 0x0, 1, 0x0, 1, .key, 1⟩
  | .CRY_PIPE_FAIL_RX => ⟨0x410006C, .linear 0x0, 1, 0x0, 1, .key, 1⟩
  | .CRY_NO_TUNNEL => ⟨0x4100070, .linear 0x0, 1, 0x0, 1, .key, 1⟩
  | .CRY_FOREIGN => ⟨0x4100074, .linear 0x0, 1, 0x0, 1, .key, 1⟩
  | .CRY_STRAY => ⟨0x4100078, .linear 0x0, 1, 0x0, 1, .key, 1⟩
  | .KEY_DESC => ⟨0x4100400, .linear 0x4, 128, 0x0, 1, .key, 2⟩
  | .HOLD_CTL => ⟨0x5000000, .linear 0x0, 1, 0x0, 1, .hold, 1⟩
  | .HOLD_CFG => ⟨0x5000004, .linear 0x0, 1, 0x0, 1, .hold, 1⟩
  | .HOLD_STATUS => ⟨0x5000008, .linear 0x0, 1, 0x0, 1, .hold, 1⟩
  | .HOLD_BUDGET => ⟨0x500000C, .linear 0x0, 1, 0x0, 1, .hold, 1⟩
  | .HOLD_NEED => ⟨0x5000010, .linear 0x0, 1, 0x0, 1, .hold, 1⟩
  | .HOLD_CORDS_USABLE => ⟨0x5000014, .linear 0x0, 1, 0x0, 1, .hold, 1⟩
  | .HOLD_CORDS_FILLED => ⟨0x5000018, .linear 0x0, 1, 0x0, 1, .hold, 1⟩
  | .HOLD_OCC_RETX => ⟨0x5000020, .linear 0x0, 1, 0x0, 1, .hold, 1⟩
  | .HOLD_OCC_ALIGN => ⟨0x5000024, .linear 0x0, 1, 0x0, 1, .hold, 1⟩
  | .HOLD_OCC_RIDE => ⟨0x5000028, .linear 0x0, 1, 0x0, 1, .hold, 1⟩
  | .HOLD_SCRUB_CTL => ⟨0x5000030, .linear 0x0, 1, 0x0, 1, .hold, 1⟩
  | .HOLD_SCRUB_STATUS => ⟨0x5000034, .linear 0x0, 1, 0x0, 1, .hold, 1⟩
  | .HOLD_BUCKET_CFG => ⟨0x5000038, .linear 0x0, 1, 0x0, 1, .hold, 1⟩
  | .HOLD_PPR_ROW => ⟨0x5000040, .linear 0x0, 1, 0x0, 1, .hold, 1⟩
  | .HOLD_PPR_CMD => ⟨0x5000044, .linear 0x0, 1, 0x0, 1, .hold, 1⟩
  | .HOLD_PPR_STATUS => ⟨0x5000048, .linear 0x0, 1, 0x0, 1, .hold, 1⟩
  | .HOLD_ERR_LOG_LO => ⟨0x5000050, .linear 0x0, 1, 0x0, 1, .hold, 1⟩
  | .HOLD_ERR_LOG_HI => ⟨0x5000054, .linear 0x0, 1, 0x0, 1, .hold, 1⟩
  | .HOLD_EVENT => ⟨0x5000058, .linear 0x0, 1, 0x0, 1, .hold, 1⟩
  | .HOLD_EVENT_EN => ⟨0x500005C, .linear 0x0, 1, 0x0, 1, .hold, 1⟩
  | .HOLD_CNT_CLINKERS => ⟨0x5000060, .linear 0x0, 1, 0x0, 1, .hold, 1⟩
  | .HOLD_CNT_CLINKER_UNUSED => ⟨0x5000064, .linear 0x0, 1, 0x0, 1, .hold, 1⟩
  | .HOLD_CNT_LOST_UNUSED => ⟨0x5000068, .linear 0x0, 1, 0x0, 1, .hold, 1⟩
  | .HOLD_CNT_CAND_DROPPED => ⟨0x500006C, .linear 0x0, 1, 0x0, 1, .hold, 1⟩
  | .HOLD_CH_STATUS => ⟨0x5010000, .linear 0x100, 24, 0x0, 1, .hold, 1⟩
  | .HOLD_CH_DIMM => ⟨0x5010004, .linear 0x100, 24, 0x0, 1, .hold, 1⟩
  | .HOLD_CH_CNT_CORRECTED => ⟨0x5010010, .linear 0x100, 24, 0x0, 1, .hold, 1⟩
  | .HOLD_CH_CNT_UNCORRECTABLE => ⟨0x5010014, .linear 0x100, 24, 0x0, 1, .hold, 1⟩
  | .HOLD_CH_CNT_SOFT_REPAIRS => ⟨0x5010018, .linear 0x100, 24, 0x0, 1, .hold, 1⟩
  | .HOLD_CH_CNT_RETRIES => ⟨0x501001C, .linear 0x100, 24, 0x0, 1, .hold, 1⟩
  | .PROT_CFG => ⟨0x6000000, .linear 0x0, 1, 0x0, 1, .prot, 1⟩
  | .PROT_SWITCH_CTL => ⟨0x6000004, .linear 0x0, 1, 0x0, 1, .prot, 1⟩
  | .PROT_STATUS => ⟨0x6000008, .linear 0x0, 1, 0x0, 1, .prot, 1⟩
  | .PROT_CTL => ⟨0x600000C, .linear 0x0, 1, 0x0, 1, .prot, 1⟩
  | .PROT_LL_CFG => ⟨0x6000010, .linear 0x0, 1, 0x0, 1, .prot, 1⟩
  | .PROT_RESEND_WAIT => ⟨0x6000014, .linear 0x0, 1, 0x0, 1, .prot, 1⟩
  | .PROT_MERGE_CFG => ⟨0x6000018, .linear 0x0, 1, 0x0, 1, .prot, 1⟩
  | .PROT_DELAY_FIX => ⟨0x600001C, .linear 0x0, 1, 0x0, 1, .prot, 1⟩
  | .PROT_DRAIN => ⟨0x6000020, .linear 0x0, 1, 0x0, 1, .prot, 1⟩
  | .PROT_EVENT => ⟨0x6000024, .linear 0x0, 1, 0x0, 1, .prot, 1⟩
  | .PROT_EVENT_EN => ⟨0x6000028, .linear 0x0, 1, 0x0, 1, .prot, 1⟩
  | .PROT_TUN_CFG => ⟨0x6001000, .linear 0x100, 24, 0x0, 1, .prot, 1⟩
  | .PROT_TUN_SKEW => ⟨0x6001004, .linear 0x100, 24, 0x0, 1, .prot, 1⟩
  | .PROT_TUN_DELAY => ⟨0x6001008, .linear 0x100, 24, 0x0, 1, .prot, 1⟩
  | .PROT_TUN_STATE => ⟨0x600100C, .linear 0x100, 24, 0x0, 1, .prot, 1⟩
  | .PROT_TUN_BACKLOG => ⟨0x6001010, .linear 0x100, 24, 0x0, 1, .prot, 1⟩
  | .PROT_TUN_UNACKED => ⟨0x6001014, .linear 0x100, 24, 0x0, 1, .prot, 1⟩
  | .PROT_TUN_GAP_LO => ⟨0x6001018, .linear 0x100, 24, 0x0, 1, .prot, 1⟩
  | .PROT_TUN_GAP_HI => ⟨0x600101C, .linear 0x100, 24, 0x0, 1, .prot, 1⟩
  | .PROT_TUN_GAP_INFO => ⟨0x6001020, .linear 0x100, 24, 0x0, 1, .prot, 1⟩
  | .PROT_TUN_CNT_RESEND_TX => ⟨0x6001040, .linear 0x100, 24, 0x0, 1, .prot, 1⟩
  | .PROT_TUN_CNT_RESEND_RX => ⟨0x6001044, .linear 0x100, 24, 0x0, 1, .prot, 1⟩
  | .PROT_TUN_CNT_RESENT => ⟨0x6001048, .linear 0x100, 24, 0x0, 1, .prot, 1⟩
  | .PROT_TUN_CNT_DEADLINE => ⟨0x600104C, .linear 0x100, 24, 0x0, 1, .prot, 1⟩
  | .PROT_TUN_CNT_LATE_COPY => ⟨0x6001050, .linear 0x100, 24, 0x0, 1, .prot, 1⟩
  | .PROT_TUN_CNT_STALE => ⟨0x6001054, .linear 0x100, 24, 0x0, 1, .prot, 1⟩
  | .PROT_TUN_CNT_HOLDBACK_DROP => ⟨0x6001058, .linear 0x100, 24, 0x0, 1, .prot, 1⟩
  | .PROT_TUN_SINGLE => ⟨0x600105C, .linear 0x100, 24, 0x0, 1, .prot, 1⟩
  | .LANE_DEC_CFG => ⟨0x2000200, .linear 0x1000, 48, 0x0, 1, .lane, 1⟩
  | .LANE_DEC_NCO => ⟨0x2000204, .linear 0x1000, 48, 0x0, 1, .lane, 1⟩
  | .LANE_DEC_STATUS => ⟨0x2000208, .linear 0x1000, 48, 0x0, 1, .lane, 1⟩
  | .LANE_DEC_SWITCH => ⟨0x200020C, .linear 0x1000, 48, 0x0, 1, .lane, 1⟩
  | .LANE_DEC_COEF_ADDR => ⟨0x2000210, .linear 0x1000, 48, 0x0, 1, .lane, 1⟩
  | .LANE_DEC_COEF_DATA => ⟨0x2000214, .linear 0x1000, 48, 0x0, 1, .lane, 1⟩
  | .LANE_DEC_DELAY => ⟨0x2000218, .linear 0x1000, 48, 0x0, 1, .lane, 1⟩
  | .LANE_DEC_CAP_CTL => ⟨0x2000220, .linear 0x1000, 48, 0x0, 1, .lane, 1⟩
  | .LANE_DEC_CAP_STATUS => ⟨0x2000224, .linear 0x1000, 48, 0x0, 1, .lane, 1⟩
  | .LANE_DEC_CAP_TS_LO => ⟨0x2000228, .linear 0x1000, 48, 0x0, 1, .lane, 1⟩
  | .LANE_DEC_CAP_TS_HI => ⟨0x200022C, .linear 0x1000, 48, 0x0, 1, .lane, 1⟩
  | .LANE_DEC_CAP_ADDR => ⟨0x2000230, .linear 0x1000, 48, 0x0, 1, .lane, 1⟩
  | .LANE_DEC_CAP_DATA_LO => ⟨0x2000234, .linear 0x1000, 48, 0x0, 1, .lane, 1⟩
  | .LANE_DEC_CAP_DATA_HI => ⟨0x2000238, .linear 0x1000, 48, 0x0, 1, .lane, 1⟩
  | .LANE_MON_CTL => ⟨0x2000300, .linear 0x1000, 48, 0x0, 1, .lane, 1⟩
  | .LANE_MON_STATUS => ⟨0x2000304, .linear 0x1000, 48, 0x0, 1, .lane, 1⟩
  | .LANE_MON_HIST_ADDR => ⟨0x2000308, .linear 0x1000, 48, 0x0, 1, .lane, 1⟩
  | .LANE_MON_HIST_DATA => ⟨0x200030C, .linear 0x1000, 48, 0x0, 1, .lane, 1⟩
  | .LANE_MON_HIST_TOTAL => ⟨0x2000310, .linear 0x1000, 48, 0x0, 1, .lane, 1⟩
  | .LANE_MON_HIST_OVR => ⟨0x2000314, .linear 0x1000, 48, 0x0, 1, .lane, 1⟩
  | .LANE_MON_SQ_CFG => ⟨0x2000320, .linear 0x1000, 48, 0x0, 1, .lane, 1⟩
  | .LANE_MON_SQ_LEVEL0 => ⟨0x2000324, .linear 0x1000, 48, 0x0, 1, .lane, 1⟩
  | .LANE_MON_SQ_LEVEL1 => ⟨0x2000328, .linear 0x1000, 48, 0x0, 1, .lane, 1⟩
  | .LANE_MON_SQ_LEVEL2 => ⟨0x200032C, .linear 0x1000, 48, 0x0, 1, .lane, 1⟩
  | .LANE_MON_SQ_LEVEL3 => ⟨0x2000330, .linear 0x1000, 48, 0x0, 1, .lane, 1⟩
  | .LANE_MON_SQ_RLM => ⟨0x2000334, .linear 0x1000, 48, 0x0, 1, .lane, 1⟩
  | .SMOKE_CFG => ⟨0x2000400, .linear 0x1000, 48, 0x0, 1, .lane, 1⟩
  | .SMOKE_CTL => ⟨0x2000404, .linear 0x1000, 48, 0x0, 1, .lane, 1⟩
  | .SMOKE_STATUS => ⟨0x2000408, .linear 0x1000, 48, 0x0, 1, .lane, 1⟩
  | .SMOKE_EVENT => ⟨0x200040C, .linear 0x1000, 48, 0x0, 1, .lane, 1⟩
  | .SMOKE_EVENT_EN => ⟨0x2000410, .linear 0x1000, 48, 0x0, 1, .lane, 1⟩
  | .SMOKE_TX_POST => ⟨0x2000414, .linear 0x1000, 48, 0x0, 1, .lane, 1⟩
  | .SMOKE_RX_INFO => ⟨0x2000418, .linear 0x1000, 48, 0x0, 1, .lane, 1⟩
  | .SMOKE_RX_POP => ⟨0x200041C, .linear 0x1000, 48, 0x0, 1, .lane, 1⟩
  | .SMOKE_PEER_EPOCH => ⟨0x2000420, .linear 0x1000, 48, 0x0, 1, .lane, 1⟩
  | .SMOKE_PEER_DEVICE => ⟨0x2000424, .linear 0x1000, 48, 0x0, 1, .lane, 1⟩
  | .SMOKE_PEER_TAG => ⟨0x2000428, .linear 0x1000, 48, 0x0, 1, .lane, 1⟩
  | .SMOKE_PEER_INFO => ⟨0x200042C, .linear 0x1000, 48, 0x0, 1, .lane, 1⟩
  | .SMOKE_LINK => ⟨0x2000430, .linear 0x1000, 48, 0x0, 1, .lane, 1⟩
  | .SMOKE_TX_BUF => ⟨0x2000440, .linear 0x1000, 48, 0x4, 16, .lane, 1⟩
  | .SMOKE_RX_BUF => ⟨0x2000480, .linear 0x1000, 48, 0x4, 16, .lane, 1⟩
  | .SMOKE_CNT_FRAMES_TX => ⟨0x20004C0, .linear 0x1000, 48, 0x0, 1, .lane, 1⟩
  | .SMOKE_CNT_FRAMES_RX => ⟨0x20004C4, .linear 0x1000, 48, 0x0, 1, .lane, 1⟩
  | .SMOKE_CNT_DETECTS => ⟨0x20004C8, .linear 0x1000, 48, 0x0, 1, .lane, 1⟩
  | .SMOKE_CNT_HDR_FAIL => ⟨0x20004CC, .linear 0x1000, 48, 0x0, 1, .lane, 1⟩
  | .SMOKE_CNT_PAY_FAIL => ⟨0x20004D0, .linear 0x1000, 48, 0x0, 1, .lane, 1⟩
  | .SMOKE_CNT_CAPTURED => ⟨0x20004D4, .linear 0x1000, 48, 0x0, 1, .lane, 1⟩
  | .SMOKE_CNT_BAD_MSG => ⟨0x20004D8, .linear 0x1000, 48, 0x0, 1, .lane, 1⟩
  | .SMOKE_CNT_DROPPED => ⟨0x20004DC, .linear 0x1000, 48, 0x0, 1, .lane, 1⟩
  | .TINDER_CTL => ⟨0x10000, .linear 0x0, 1, 0x0, 1, .tinder, 1⟩
  | .TINDER_STATUS => ⟨0x10004, .linear 0x0, 1, 0x0, 1, .tinder, 1⟩
  | .TINDER_EQ => ⟨0x10008, .linear 0x0, 1, 0x0, 1, .tinder, 1⟩
  | .TINDER_ERR => ⟨0x1000C, .linear 0x0, 1, 0x0, 1, .tinder, 1⟩
  | .TINDER_SESSION => ⟨0x10010, .linear 0x0, 1, 0x0, 1, .tinder, 1⟩
  | .TINDER_SESSION_ADDR => ⟨0x10014, .linear 0x0, 1, 0x0, 1, .tinder, 1⟩
  | .TINDER_AUTH => ⟨0x10018, .linear 0x0, 1, 0x0, 1, .tinder, 1⟩
  | .SVC_SPI_STATUS => ⟨0x1001C, .linear 0x0, 1, 0x0, 1, .tinder, 1⟩
  | .IRQ_COMPLETE => ⟨0x7000004, .linear 0x0, 1, 0x0, 1, .irq, 0⟩
  | .IRQ_SW_SET => ⟨0x7000008, .linear 0x0, 1, 0x0, 1, .irq, 0⟩
  | .IRQ_HOST_ID => ⟨0x700000C, .linear 0x0, 1, 0x0, 1, .irq, 1⟩
  | .IRQ_STATUS => ⟨0x7000010, .linear 0x0, 1, 0x0, 1, .irq, 1⟩
  | .IRQ_MASK => ⟨0x7000100, .linear 0x4, 16, 0x0, 1, .irq, 1⟩
  | .IRQ_PENDING => ⟨0x7000180, .linear 0x4, 16, 0x0, 1, .irq, 1⟩
  | .IRQ_ACTIVE => ⟨0x7000200, .linear 0x4, 16, 0x0, 1, .irq, 1⟩
  | .IRQ_SRC => ⟨0x7001000, .linear 0x4, 512, 0x0, 1, .irq, 1⟩
  | .MEMP_CTL => ⟨0x8000000, .linear 0x0, 1, 0x0, 1, .memp, 1⟩
  | .MEMP_STATUS => ⟨0x8000004, .linear 0x0, 1, 0x0, 1, .memp, 1⟩
  | .MEMP_LOG_LO => ⟨0x8000008, .linear 0x0, 1, 0x0, 1, .memp, 1⟩
  | .MEMP_LOG_HI => ⟨0x800000C, .linear 0x0, 1, 0x0, 1, .memp, 1⟩
  | .MEMP_LOG_POP => ⟨0x8000010, .linear 0x0, 1, 0x0, 1, .memp, 1⟩
  | .MEMP_INJECT_ADDR => ⟨0x8000020, .linear 0x0, 1, 0x0, 1, .memp, 1⟩
  | .MEMP_INJECT_DATA_LO => ⟨0x8000024, .linear 0x0, 1, 0x0, 1, .memp, 1⟩
  | .MEMP_INJECT_DATA_HI => ⟨0x8000028, .linear 0x0, 1, 0x0, 1, .memp, 1⟩
  | .MEMP_INJECT_CTL => ⟨0x800002C, .linear 0x0, 1, 0x0, 1, .memp, 1⟩
  | .MEMP_RAW_LO => ⟨0x8000030, .linear 0x0, 1, 0x0, 1, .memp, 1⟩
  | .MEMP_RAW_HI => ⟨0x8000034, .linear 0x0, 1, 0x0, 1, .memp, 1⟩
  | .MEMP_RAW_CHECK => ⟨0x8000038, .linear 0x0, 1, 0x0, 1, .memp, 1⟩
  | .MEMP_REG_CNT => ⟨0x8000100, .linear 0x8, 11, 0x0, 1, .memp, 1⟩
  | .MEMP_REG_STATUS => ⟨0x8000104, .linear 0x8, 11, 0x0, 1, .memp, 1⟩
  | .CHAR_STATUS_LO => ⟨0x9000000, .linear 0x0, 1, 0x0, 1, .fault, 1⟩
  | .CHAR_STATUS_HI => ⟨0x9000004, .linear 0x0, 1, 0x0, 1, .fault, 1⟩
  | .FAULT_BUSY_LO => ⟨0x9000008, .linear 0x0, 1, 0x0, 1, .fault, 1⟩
  | .FAULT_BUSY_HI => ⟨0x900000C, .linear 0x0, 1, 0x0, 1, .fault, 1⟩
  | .FAULT_ALIVE => ⟨0x9000010, .linear 0x0, 1, 0x0, 1, .fault, 2⟩
  | .FAULT_LAST_RESET => ⟨0x9000014, .linear 0x0, 1, 0x0, 1, .fault, 1⟩
  | .FAULT_SW_SET => ⟨0x9000018, .linear 0x0, 1, 0x0, 1, .fault, 3⟩
  | .FAULT_NMT => ⟨0x9000040, .linear 0x4, 8, 0x0, 1, .fault, 1⟩
  | .FAULT_REACT => ⟨0x9000100, .linear 0x4, 64, 0x0, 1, .fault, 2⟩
  | .FAULT_DETAIL => ⟨0x9000200, .linear 0x4, 64, 0x0, 1, .fault, 1⟩
  | .KILN_CTL => ⟨0xA000000, .linear 0x0, 1, 0x0, 1, .kiln, 3⟩
  | .KILN_CFG => ⟨0xA000004, .linear 0x0, 1, 0x0, 1, .kiln, 3⟩
  | .KILN_STATUS => ⟨0xA000008, .linear 0x0, 1, 0x0, 1, .kiln, 1⟩
  | .KILN_LAST_LO => ⟨0xA00000C, .linear 0x0, 1, 0x0, 1, .kiln, 1⟩
  | .KILN_LAST_HI => ⟨0xA000010, .linear 0x0, 1, 0x0, 1, .kiln, 1⟩
  | .KILN_FAIL_LO => ⟨0xA000014, .linear 0x0, 1, 0x0, 1, .kiln, 1⟩
  | .KILN_FAIL_HI => ⟨0xA000018, .linear 0x0, 1, 0x0, 1, .kiln, 1⟩
  | .KILN_EVENT => ⟨0xA00001C, .linear 0x0, 1, 0x0, 1, .kiln, 1⟩
  | .KILN_EVENT_EN => ⟨0xA000020, .linear 0x0, 1, 0x0, 1, .kiln, 1⟩
  | .KILN_REG => ⟨0xA000100, .linear 0x4, 139, 0x0, 1, .kiln, 1⟩
  | .MCV_IN => ⟨0xB000400, .linear 0x4, 96, 0x0, 1, .mcv, 1⟩
  | .MCV_SIM_TRIG => ⟨0xB000000, .linear 0x0, 1, 0x0, 1, .mcv, 1⟩
  | .MCV_CAP_CTL => ⟨0xB000100, .linear 0x20, 4, 0x0, 1, .mcv, 1⟩
  | .MCV_CAP_STATUS => ⟨0xB000104, .linear 0x20, 4, 0x0, 1, .mcv, 1⟩
  | .MCV_CAP_TS_LO => ⟨0xB000108, .linear 0x20, 4, 0x0, 1, .mcv, 1⟩
  | .MCV_CAP_TS_HI => ⟨0xB00010C, .linear 0x20, 4, 0x0, 1, .mcv, 1⟩
  | .MCV_CAP_ADDR => ⟨0xB000110, .linear 0x20, 4, 0x0, 1, .mcv, 1⟩
  | .MCV_CAP_DATA => ⟨0xB000114, .linear 0x20, 4, 0x0, 1, .mcv, 1⟩
  | .MCV_CTL => ⟨0xB001000, .linear 0x100, 8, 0x0, 1, .mcv, 1⟩
  | .MCV_PERIOD => ⟨0xB001004, .linear 0x100, 8, 0x0, 1, .mcv, 1⟩
  | .MCV_STATUS => ⟨0xB001008, .linear 0x100, 8, 0x0, 1, .mcv, 1⟩
  | .MCV_URGENT => ⟨0xB00100C, .linear 0x100, 8, 0x0, 1, .mcv, 1⟩
  | .MCV_SEQ => ⟨0xB001040, .linear 0x100, 8, 0x4, 16, .mcv, 1⟩
  | .MCV_RESULT => ⟨0xB001080, .linear 0x100, 8, 0x4, 16, .mcv, 1⟩
  | .MCV_URG_RESULT => ⟨0xB001010, .linear 0x100, 8, 0x0, 1, .mcv, 1⟩
  | .PWR_CLK_CTL => ⟨0xC000000, .linear 0x0, 1, 0x0, 1, .power, 2⟩
  | .PWR_CLK_STATUS => ⟨0xC000004, .linear 0x0, 1, 0x0, 1, .power, 1⟩
  | .PWR_TIME_LO => ⟨0xC000008, .linear 0x0, 1, 0x0, 1, .power, 1⟩
  | .PWR_TIME_HI => ⟨0xC00000C, .linear 0x0, 1, 0x0, 1, .power, 1⟩
  | .PWR_CFG => ⟨0xC000010, .linear 0x0, 1, 0x0, 1, .power, 2⟩
  | .PWR_BLOCK => ⟨0xC000100, .linear 0x4, 26, 0x0, 1, .power, 1⟩
  | .THERM_CFG => ⟨0xC000200, .linear 0x0, 1, 0x0, 1, .power, 1⟩
  | .THERM_DAMPER => ⟨0xC000204, .linear 0x0, 1, 0x0, 1, .power, 1⟩
  | .THERM_CTL => ⟨0xC000208, .linear 0x0, 1, 0x0, 1, .power, 2⟩
  | .THERM_STATUS => ⟨0xC00020C, .linear 0x0, 1, 0x0, 1, .power, 1⟩
  | .THERM_EVENT => ⟨0xC000210, .linear 0x0, 1, 0x0, 1, .power, 1⟩
  | .THERM_EVENT_EN => ⟨0xC000214, .linear 0x0, 1, 0x0, 1, .power, 1⟩
  | .THERM_SENSOR => ⟨0xC000240, .linear 0x4, 16, 0x0, 1, .power, 1⟩
  | .PERF_CTL => ⟨0xD000000, .linear 0x0, 1, 0x0, 1, .perf, 1⟩
  | .PERF_DUMP_CFG => ⟨0xD000004, .linear 0x0, 1, 0x0, 1, .perf, 1⟩
  | .PERF_DUMP => ⟨0xD000008, .linear 0x0, 1, 0x0, 1, .perf, 1⟩
  | .PERF_STATUS => ⟨0xD00000C, .linear 0x0, 1, 0x0, 1, .perf, 1⟩
  | .PERF_RING => ⟨0xD000010, .linear 0x0, 1, 0x0, 1, .perf, 1⟩
  | .PERF_MIRROR => ⟨0xD000014, .linear 0x0, 1, 0x0, 1, .perf, 1⟩
  | .PERF_OVF => ⟨0xD000040, .linear 0x4, 8, 0x0, 1, .perf, 1⟩
  | .PERF_SEL => ⟨0xD001000, .linear 0x4, 256, 0x0, 1, .perf, 1⟩
  | .PERF_CNT_LO => ⟨0xD002000, .linear 0x8, 256, 0x0, 1, .perf, 1⟩
  | .PERF_CNT_HI => ⟨0xD002004, .linear 0x8, 256, 0x0, 1, .perf, 1⟩
  | .SYS_RESET_CTL => ⟨0xC, .linear 0x0, 1, 0x0, 1, .system, 2⟩
  | .SYS_RESET_CAUSE => ⟨0x10, .linear 0x0, 1, 0x0, 1, .system, 1⟩
  | .SYS_BOOT_STATUS => ⟨0x14, .linear 0x0, 1, 0x0, 1, .system, 1⟩
  | .SYS_IMAGE_VERSION => ⟨0x1C, .linear 0x0, 1, 0x0, 1, .system, 1⟩
  | .SYS_EPOCH => ⟨0x18, .linear 0x0, 1, 0x0, 1, .system, 1⟩
  | .SYS_IMAGE_PTR_LO => ⟨0x20, .linear 0x0, 1, 0x0, 1, .system, 1⟩
  | .SYS_IMAGE_PTR_HI => ⟨0x24, .linear 0x0, 1, 0x0, 1, .system, 1⟩
  | .SYS_AUTH_NONCE_LO => ⟨0x40, .linear 0x0, 1, 0x0, 1, .system, 1⟩
  | .SYS_AUTH_NONCE_HI => ⟨0x44, .linear 0x0, 1, 0x0, 1, .system, 1⟩
  | .SYS_AUTH_RESP => ⟨0x48, .linear 0x0, 1, 0x4, 4, .system, 1⟩
  | .SYS_AUTH_REQ => ⟨0x58, .linear 0x0, 1, 0x0, 1, .system, 1⟩
  | .PEAT_ADDR => ⟨0xE000000, .linear 0x0, 1, 0x0, 1, .peat, 1⟩
  | .PEAT_DATA => ⟨0xE000004, .linear 0x0, 1, 0x0, 1, .peat, 1⟩
  | .PEAT_CMD => ⟨0xE000008, .linear 0x0, 1, 0x0, 1, .peat, 2⟩
  | .PEAT_STATUS => ⟨0xE00000C, .linear 0x0, 1, 0x0, 1, .peat, 1⟩
  | .IO_SLEW_CTL => ⟨0xF000000, .linear 0x0, 1, 0x0, 1, .io, 1⟩
  | .IO_BAY_PINS => ⟨0xF000100, .linear 0x40, 6, 0x0, 1, .io, 1⟩
  | .IO_BAY_I2C_CTL => ⟨0xF000104, .linear 0x40, 6, 0x0, 1, .io, 1⟩
  | .IO_BAY_I2C_STATUS => ⟨0xF000108, .linear 0x40, 6, 0x0, 1, .io, 1⟩
  | .IO_BAY_I2C_DATA => ⟨0xF000120, .linear 0x40, 6, 0x4, 8, .io, 1⟩

abbrev F.SYS_DEVICE_ID_VENDOR : Fld := ⟨.SYS_DEVICE_ID, 16, 16, .ro, 0x5C0B⟩
abbrev F.SYS_DEVICE_ID_PART : Fld := ⟨.SYS_DEVICE_ID, 0, 16, .ro, 0x4880⟩
abbrev F.SYS_REVISION_MAJOR : Fld := ⟨.SYS_REVISION, 4, 4, .ro, 0⟩
abbrev F.SYS_REVISION_MINOR : Fld := ⟨.SYS_REVISION, 0, 4, .ro, 0⟩
abbrev F.SYS_ACCESS_MODE_ENTRY_COUNT : Fld := ⟨.SYS_ACCESS_MODE, 8, 8, .ro, 0⟩
abbrev F.SYS_ACCESS_MODE_TRANSITION : Fld := ⟨.SYS_ACCESS_MODE, 2, 1, .ro, 0⟩
abbrev F.SYS_ACCESS_MODE_ENTER_SERVICE : Fld := ⟨.SYS_ACCESS_MODE, 1, 1, .wo, 0⟩
abbrev F.SYS_ACCESS_MODE_MODE : Fld := ⟨.SYS_ACCESS_MODE, 0, 1, .ro, 0⟩
abbrev F.STK_CTL_RUN_LIMIT : Fld := ⟨.STK_CTL, 24, 4, .rw, 6⟩
abbrev F.STK_CTL_CMD_TIMEOUT : Fld := ⟨.STK_CTL, 8, 16, .rw, 0x64⟩
abbrev F.STK_CTL_ADOPTER : Fld := ⟨.STK_CTL, 4, 3, .rw, 0⟩
abbrev F.STK_CTL_ADOPT_EN : Fld := ⟨.STK_CTL, 1, 1, .rw, 1⟩
abbrev F.STK_CTL_RUN : Fld := ⟨.STK_CTL, 0, 1, .rw, 0⟩
abbrev F.STK_STATUS_PRIV : Fld := ⟨.STK_STATUS, 24, 2, .ro, 0⟩
abbrev F.STK_STATUS_HOSTED : Fld := ⟨.STK_STATUS, 16, 8, .ro, 0⟩
abbrev F.STK_STATUS_HOST : Fld := ⟨.STK_STATUS, 8, 3, .ro, 0⟩
abbrev F.STK_STATUS_STATE : Fld := ⟨.STK_STATUS, 0, 3, .ro, 0⟩
abbrev F.STK_PC_PC : Fld := ⟨.STK_PC, 0, 18, .ro, 0⟩
abbrev F.STK_FAULT_VALID : Fld := ⟨.STK_FAULT, 31, 1, .w1c, 0⟩
abbrev F.STK_FAULT_COUNT : Fld := ⟨.STK_FAULT, 8, 8, .ro, 0⟩
abbrev F.STK_FAULT_CODE : Fld := ⟨.STK_FAULT, 0, 8, .ro, 0⟩
abbrev F.STK_FAULT_PC_PC : Fld := ⟨.STK_FAULT_PC, 0, 18, .ro, 0⟩
abbrev F.STK_TAGS_LATE : Fld := ⟨.STK_TAGS, 25, 7, .rc, 0⟩
abbrev F.STK_TAGS_QUARANTINED : Fld := ⟨.STK_TAGS, 16, 9, .ro, 0⟩
abbrev F.STK_TAGS_OUTSTANDING : Fld := ⟨.STK_TAGS, 0, 9, .ro, 0⟩
abbrev F.STK_NEXT_LO_TIME : Fld := ⟨.STK_NEXT_LO, 0, 32, .ro, 0⟩
abbrev F.STK_NEXT_HI_TIME : Fld := ⟨.STK_NEXT_HI, 0, 32, .ro, 0⟩
abbrev F.STK_SLEEP_REFUSALS : Fld := ⟨.STK_SLEEP, 16, 16, .rc, 0⟩
abbrev F.STK_SLEEP_FLOOR : Fld := ⟨.STK_SLEEP, 1, 2, .ro, 0⟩
abbrev F.STK_SLEEP_REFUSED : Fld := ⟨.STK_SLEEP, 0, 1, .w1c, 0⟩
abbrev F.STK_MBX_STATUS_RSP_DROPPED : Fld := ⟨.STK_MBX_STATUS, 24, 8, .rc, 0⟩
abbrev F.STK_MBX_STATUS_POST_FULL : Fld := ⟨.STK_MBX_STATUS, 16, 1, .w1c, 0⟩
abbrev F.STK_MBX_STATUS_RSP_COUNT : Fld := ⟨.STK_MBX_STATUS, 8, 5, .ro, 0⟩
abbrev F.STK_MBX_STATUS_REQ_FREE : Fld := ⟨.STK_MBX_STATUS, 0, 5, .ro, 0x10⟩
abbrev F.STK_MBX_POST_POST : Fld := ⟨.STK_MBX_POST, 0, 32, .wo, 0⟩
abbrev F.STK_MBX_POP_POP : Fld := ⟨.STK_MBX_POP, 0, 32, .wo, 0⟩
abbrev F.STK_MBX_STAGE_DATA : Fld := ⟨.STK_MBX_STAGE, 0, 32, .wo, 0⟩
abbrev F.STK_MBX_RSP_DATA : Fld := ⟨.STK_MBX_RSP, 0, 32, .ro, 0⟩
abbrev F.STK_ENGINES_FAILED : Fld := ⟨.STK_ENGINES, 8, 8, .ro, 0⟩
abbrev F.STK_ENGINES_PRESENT : Fld := ⟨.STK_ENGINES, 0, 8, .ro, 0xFF⟩
abbrev F.LANE_STATE_FORCE_CAUSE : Fld := ⟨.LANE_STATE, 20, 3, .ro, 0⟩
abbrev F.LANE_STATE_FORCED : Fld := ⟨.LANE_STATE, 18, 1, .ro, 0⟩
abbrev F.LANE_STATE_REFUSED : Fld := ⟨.LANE_STATE, 17, 1, .w1c, 0⟩
abbrev F.LANE_STATE_CHANGING : Fld := ⟨.LANE_STATE, 16, 1, .ro, 0⟩
abbrev F.LANE_STATE_CUR : Fld := ⟨.LANE_STATE, 8, 2, .ro, 0⟩
abbrev F.LANE_STATE_REQ : Fld := ⟨.LANE_STATE, 0, 2, .rw, 0⟩
abbrev F.LANE_RX_CFG_POL_INV : Fld := ⟨.LANE_RX_CFG, 7, 1, .rw, 0⟩
abbrev F.LANE_RX_CFG_POL_FORCE : Fld := ⟨.LANE_RX_CFG, 6, 1, .rw, 0⟩
abbrev F.LANE_RX_CFG_AC_COUPLED : Fld := ⟨.LANE_RX_CFG, 5, 1, .rw, 0⟩
abbrev F.LANE_RX_CFG_LP_ADC : Fld := ⟨.LANE_RX_CFG, 4, 1, .rw, 1⟩
abbrev F.LANE_RX_CFG_RATE : Fld := ⟨.LANE_RX_CFG, 0, 2, .rw, 1⟩
abbrev F.LANE_RX_CTLE_ADAPT_EN : Fld := ⟨.LANE_RX_CTLE, 8, 1, .rw, 1⟩
abbrev F.LANE_RX_CTLE_POLE : Fld := ⟨.LANE_RX_CTLE, 5, 2, .rw, 1⟩
abbrev F.LANE_RX_CTLE_PEAK : Fld := ⟨.LANE_RX_CTLE, 0, 5, .rw, 0⟩
abbrev F.LANE_RX_GAIN_TARGET : Fld := ⟨.LANE_RX_GAIN, 16, 8, .rw, 0x30⟩
abbrev F.LANE_RX_GAIN_AGC_EN : Fld := ⟨.LANE_RX_GAIN, 15, 1, .rw, 1⟩
abbrev F.LANE_RX_GAIN_ATTEN : Fld := ⟨.LANE_RX_GAIN, 8, 3, .rw, 0⟩
abbrev F.LANE_RX_GAIN_FINE : Fld := ⟨.LANE_RX_GAIN, 0, 6, .rw, 0x20⟩
abbrev F.LANE_RX_CDR_FREEZE : Fld := ⟨.LANE_RX_CDR, 8, 1, .rw, 0⟩
abbrev F.LANE_RX_CDR_BW : Fld := ⟨.LANE_RX_CDR, 0, 2, .rw, 1⟩
abbrev F.LANE_RX_ADAPT_MAIN_POS : Fld := ⟨.LANE_RX_ADAPT, 18, 6, .rw, 0x10⟩
abbrev F.LANE_RX_ADAPT_MLSE : Fld := ⟨.LANE_RX_ADAPT, 16, 2, .rw, 1⟩
abbrev F.LANE_RX_ADAPT_SEED : Fld := ⟨.LANE_RX_ADAPT, 8, 1, .rw, 0⟩
abbrev F.LANE_RX_ADAPT_FREEZE_ALL : Fld := ⟨.LANE_RX_ADAPT, 7, 1, .rw, 0⟩
abbrev F.LANE_RX_ADAPT_DC_EN : Fld := ⟨.LANE_RX_ADAPT, 3, 1, .rw, 1⟩
abbrev F.LANE_RX_ADAPT_TBL_EN : Fld := ⟨.LANE_RX_ADAPT, 2, 1, .rw, 1⟩
abbrev F.LANE_RX_ADAPT_NLE_EN : Fld := ⟨.LANE_RX_ADAPT, 1, 1, .rw, 1⟩
abbrev F.LANE_RX_ADAPT_FFE_EN : Fld := ⟨.LANE_RX_ADAPT, 0, 1, .rw, 1⟩
abbrev F.LANE_RX_MU_DC_TRK : Fld := ⟨.LANE_RX_MU, 28, 4, .rw, 8⟩
abbrev F.LANE_RX_MU_DC_ACQ : Fld := ⟨.LANE_RX_MU, 24, 4, .rw, 6⟩
abbrev F.LANE_RX_MU_TBL_TRK : Fld := ⟨.LANE_RX_MU, 20, 4, .rw, 8⟩
abbrev F.LANE_RX_MU_TBL_ACQ : Fld := ⟨.LANE_RX_MU, 16, 4, .rw, 2⟩
abbrev F.LANE_RX_MU_NLE_TRK : Fld := ⟨.LANE_RX_MU, 12, 4, .rw, 8⟩
abbrev F.LANE_RX_MU_NLE_ACQ : Fld := ⟨.LANE_RX_MU, 8, 4, .rw, 2⟩
abbrev F.LANE_RX_MU_FFE_TRK : Fld := ⟨.LANE_RX_MU, 4, 4, .rw, 8⟩
abbrev F.LANE_RX_MU_FFE_ACQ : Fld := ⟨.LANE_RX_MU, 0, 4, .rw, 2⟩
abbrev F.LANE_SEASON_CMD_START : Fld := ⟨.LANE_SEASON_CMD, 0, 1, .wo, 0⟩
abbrev F.LANE_SEASON_STATUS_PASSES : Fld := ⟨.LANE_SEASON_STATUS, 24, 8, .ro, 0⟩
abbrev F.LANE_SEASON_STATUS_SPARE_POS : Fld := ⟨.LANE_SEASON_STATUS, 17, 7, .ro, 0x50⟩
abbrev F.LANE_SEASON_STATUS_FAIL_SLICE : Fld := ⟨.LANE_SEASON_STATUS, 10, 7, .ro, 0x7F⟩
abbrev F.LANE_SEASON_STATUS_NO_SPARE : Fld := ⟨.LANE_SEASON_STATUS, 4, 1, .ro, 0⟩
abbrev F.LANE_SEASON_STATUS_TRIM_LIMIT : Fld := ⟨.LANE_SEASON_STATUS, 3, 1, .w1c, 0⟩
abbrev F.LANE_SEASON_STATUS_ABANDONED : Fld := ⟨.LANE_SEASON_STATUS, 2, 1, .w1c, 0⟩
abbrev F.LANE_SEASON_STATUS_BUSY : Fld := ⟨.LANE_SEASON_STATUS, 0, 1, .ro, 0⟩
abbrev F.LANE_RX_STATUS_FREEZE_CAUSE : Fld := ⟨.LANE_RX_STATUS, 16, 3, .ro, 4⟩
abbrev F.LANE_RX_STATUS_ACQ_STEP : Fld := ⟨.LANE_RX_STATUS, 12, 4, .ro, 0⟩
abbrev F.LANE_RX_STATUS_WARM_STALE : Fld := ⟨.LANE_RX_STATUS, 11, 1, .ro, 0⟩
abbrev F.LANE_RX_STATUS_POL_INV : Fld := ⟨.LANE_RX_STATUS, 10, 1, .ro, 0⟩
abbrev F.LANE_RX_STATUS_DIVERGED : Fld := ⟨.LANE_RX_STATUS, 9, 1, .ro, 0⟩
abbrev F.LANE_RX_STATUS_RECONVERGING : Fld := ⟨.LANE_RX_STATUS, 8, 1, .ro, 0⟩
abbrev F.LANE_RX_STATUS_FROZEN : Fld := ⟨.LANE_RX_STATUS, 7, 1, .ro, 1⟩
abbrev F.LANE_RX_STATUS_CONVERGED : Fld := ⟨.LANE_RX_STATUS, 6, 1, .ro, 0⟩
abbrev F.LANE_RX_STATUS_CDR_LOCK : Fld := ⟨.LANE_RX_STATUS, 5, 1, .ro, 0⟩
abbrev F.LANE_RX_STATUS_OPEN_N : Fld := ⟨.LANE_RX_STATUS, 2, 1, .ro, 0⟩
abbrev F.LANE_RX_STATUS_OPEN_P : Fld := ⟨.LANE_RX_STATUS, 1, 1, .ro, 0⟩
abbrev F.LANE_RX_STATUS_SIGNAL : Fld := ⟨.LANE_RX_STATUS, 0, 1, .ro, 0⟩
abbrev F.LANE_RX_FOM_MARGIN : Fld := ⟨.LANE_RX_FOM, 24, 8, .ro, 0⟩
abbrev F.LANE_RX_FOM_SNR : Fld := ⟨.LANE_RX_FOM, 0, 9, .ro, 0⟩
abbrev F.LANE_RX_OVR_COUNT : Fld := ⟨.LANE_RX_OVR, 0, 32, .rc, 0⟩
abbrev F.LANE_RX_FREQ_OFFSET : Fld := ⟨.LANE_RX_FREQ, 0, 32, .ro, 0⟩
abbrev F.LANE_RX_LOWMARGIN_COUNT : Fld := ⟨.LANE_RX_LOWMARGIN, 0, 32, .rc, 0⟩
abbrev F.LANE_RX_FOM_THR_MARGIN : Fld := ⟨.LANE_RX_FOM_THR, 24, 8, .rw, 0x10⟩
abbrev F.LANE_RX_FOM_THR_LOW_SNR : Fld := ⟨.LANE_RX_FOM_THR, 0, 9, .rw, 0xB4⟩
abbrev F.LANE_RX_EVENT_WARM_STALE : Fld := ⟨.LANE_RX_EVENT, 11, 1, .w1c, 0⟩
abbrev F.LANE_RX_EVENT_DIVERGED : Fld := ⟨.LANE_RX_EVENT, 10, 1, .w1c, 0⟩
abbrev F.LANE_RX_EVENT_RECONV_SLOW : Fld := ⟨.LANE_RX_EVENT, 9, 1, .w1c, 0⟩
abbrev F.LANE_RX_EVENT_GAIN_CHANGE : Fld := ⟨.LANE_RX_EVENT, 8, 1, .w1c, 0⟩
abbrev F.LANE_RX_EVENT_POL : Fld := ⟨.LANE_RX_EVENT, 7, 1, .w1c, 0⟩
abbrev F.LANE_RX_EVENT_ACQ_TIMEOUT : Fld := ⟨.LANE_RX_EVENT, 6, 1, .w1c, 0⟩
abbrev F.LANE_RX_EVENT_SEASON_FAIL : Fld := ⟨.LANE_RX_EVENT, 5, 1, .w1c, 0⟩
abbrev F.LANE_RX_EVENT_SEASON_DONE : Fld := ⟨.LANE_RX_EVENT, 4, 1, .w1c, 0⟩
abbrev F.LANE_RX_EVENT_CONVERGED : Fld := ⟨.LANE_RX_EVENT, 3, 1, .w1c, 0⟩
abbrev F.LANE_RX_EVENT_CDR : Fld := ⟨.LANE_RX_EVENT, 2, 1, .w1c, 0⟩
abbrev F.LANE_RX_EVENT_OPEN : Fld := ⟨.LANE_RX_EVENT, 1, 1, .w1c, 0⟩
abbrev F.LANE_RX_EVENT_LOS : Fld := ⟨.LANE_RX_EVENT, 0, 1, .w1c, 0⟩
abbrev F.LANE_RX_EVENT_EN_EN : Fld := ⟨.LANE_RX_EVENT_EN, 0, 12, .rw, 0xE7⟩
abbrev F.LANE_RX_COEF_ADDR_INDEX : Fld := ⟨.LANE_RX_COEF_ADDR, 0, 10, .rw, 0⟩
abbrev F.LANE_RX_COEF_DATA_VALUE : Fld := ⟨.LANE_RX_COEF_DATA, 0, 32, .rw, 0⟩
abbrev F.LANE_TX_CFG_PATTERN : Fld := ⟨.LANE_TX_CFG, 4, 3, .rw, 0⟩
abbrev F.LANE_TX_CFG_WARM_TX : Fld := ⟨.LANE_TX_CFG, 2, 1, .rw, 0⟩
abbrev F.LANE_TX_CFG_POL_INV : Fld := ⟨.LANE_TX_CFG, 1, 1, .rw, 0⟩
abbrev F.LANE_TX_CFG_TX_EN : Fld := ⟨.LANE_TX_CFG, 0, 1, .rw, 1⟩
abbrev F.LANE_TX_DRV_SLEW : Fld := ⟨.LANE_TX_DRV, 8, 2, .rw, 0⟩
abbrev F.LANE_TX_DRV_SWING : Fld := ⟨.LANE_TX_DRV, 0, 6, .rw, 0x20⟩
abbrev F.LANE_TX_DAC_MTH_WIDTH : Fld := ⟨.LANE_TX_DAC, 8, 3, .rw, 2⟩
abbrev F.LANE_TX_DAC_MTH_EN : Fld := ⟨.LANE_TX_DAC, 4, 1, .rw, 1⟩
abbrev F.LANE_TX_DAC_REF_GAIN : Fld := ⟨.LANE_TX_DAC, 0, 1, .rw, 0⟩
abbrev F.LANE_TX_SMOKE_DEPTH_PENDING : Fld := ⟨.LANE_TX_SMOKE, 16, 1, .ro, 0⟩
abbrev F.LANE_TX_SMOKE_DEPTH : Fld := ⟨.LANE_TX_SMOKE, 8, 6, .rw, 8⟩
abbrev F.LANE_TX_SMOKE_RIPPLE_EN : Fld := ⟨.LANE_TX_SMOKE, 0, 1, .rw, 0⟩
abbrev F.LANE_TX_STATUS_CAL_FAIL : Fld := ⟨.LANE_TX_STATUS, 13, 1, .ro, 0⟩
abbrev F.LANE_TX_STATUS_DAC_CAL : Fld := ⟨.LANE_TX_STATUS, 12, 1, .ro, 0⟩
abbrev F.LANE_TX_STATUS_LIMIT : Fld := ⟨.LANE_TX_STATUS, 11, 1, .ro, 0⟩
abbrev F.LANE_TX_STATUS_SHORT_PN : Fld := ⟨.LANE_TX_STATUS, 10, 1, .ro, 0⟩
abbrev F.LANE_TX_STATUS_SHORT_N : Fld := ⟨.LANE_TX_STATUS, 9, 1, .ro, 0⟩
abbrev F.LANE_TX_STATUS_SHORT_P : Fld := ⟨.LANE_TX_STATUS, 8, 1, .ro, 0⟩
abbrev F.LANE_TX_STATUS_RIPPLE : Fld := ⟨.LANE_TX_STATUS, 5, 1, .ro, 0⟩
abbrev F.LANE_TX_STATUS_DRIVING : Fld := ⟨.LANE_TX_STATUS, 4, 1, .ro, 0⟩
abbrev F.LANE_TX_STATUS_SOURCE : Fld := ⟨.LANE_TX_STATUS, 0, 3, .ro, 0⟩
abbrev F.LANE_TX_EVENT_CAL_FAIL : Fld := ⟨.LANE_TX_EVENT, 4, 1, .w1c, 0⟩
abbrev F.LANE_TX_EVENT_SOURCE : Fld := ⟨.LANE_TX_EVENT, 3, 1, .w1c, 0⟩
abbrev F.LANE_TX_EVENT_UNDERFLOW : Fld := ⟨.LANE_TX_EVENT, 2, 1, .w1c, 0⟩
abbrev F.LANE_TX_EVENT_SAT : Fld := ⟨.LANE_TX_EVENT, 1, 1, .w1c, 0⟩
abbrev F.LANE_TX_EVENT_SHORT : Fld := ⟨.LANE_TX_EVENT, 0, 1, .w1c, 0⟩
abbrev F.LANE_TX_EVENT_EN_EN : Fld := ⟨.LANE_TX_EVENT_EN, 0, 5, .rw, 0x15⟩
abbrev F.LANE_TX_SAT_COUNT : Fld := ⟨.LANE_TX_SAT, 0, 32, .rc, 0⟩
abbrev F.LANE_TX_COMMIT_COMMIT : Fld := ⟨.LANE_TX_COMMIT, 0, 1, .wo, 0⟩
abbrev F.LANE_TX_COEF_ADDR_SHADOW : Fld := ⟨.LANE_TX_COEF_ADDR, 10, 1, .rw, 1⟩
abbrev F.LANE_TX_COEF_ADDR_INDEX : Fld := ⟨.LANE_TX_COEF_ADDR, 0, 7, .rw, 0⟩
abbrev F.LANE_TX_COEF_DATA_VALUE : Fld := ⟨.LANE_TX_COEF_DATA, 0, 32, .rw, 0⟩
abbrev F.BAY_CFG_SPLIT : Fld := ⟨.BAY_CFG, 0, 2, .rw, 0⟩
abbrev F.BAY_ROLE_ROLE_0 : Fld := ⟨.BAY_ROLE, 0, 2, .tv, 0⟩
abbrev F.BAY_ROLE_ROLE_1 : Fld := ⟨.BAY_ROLE, 2, 2, .tv, 0⟩
abbrev F.BAY_ROLE_ROLE_2 : Fld := ⟨.BAY_ROLE, 4, 2, .tv, 0⟩
abbrev F.BAY_ROLE_ROLE_3 : Fld := ⟨.BAY_ROLE, 6, 2, .tv, 0⟩
abbrev F.BAY_ROLE_ROLE_4 : Fld := ⟨.BAY_ROLE, 8, 2, .tv, 0⟩
abbrev F.BAY_ROLE_ROLE_5 : Fld := ⟨.BAY_ROLE, 10, 2, .tv, 0⟩
abbrev F.BAY_ROLE_ROLE_6 : Fld := ⟨.BAY_ROLE, 12, 2, .tv, 0⟩
abbrev F.BAY_ROLE_ROLE_7 : Fld := ⟨.BAY_ROLE, 14, 2, .tv, 0⟩
abbrev F.PORT_LANE_STATE_REFUSED : Fld := ⟨.PORT_LANE_STATE, 17, 1, .w1c, 0⟩
abbrev F.PORT_LANE_STATE_CHANGING : Fld := ⟨.PORT_LANE_STATE, 16, 1, .ro, 0⟩
abbrev F.PORT_LANE_STATE_CUR_MIN : Fld := ⟨.PORT_LANE_STATE, 8, 2, .ro, 0⟩
abbrev F.PORT_LANE_STATE_REQ : Fld := ⟨.PORT_LANE_STATE, 0, 2, .rw, 0⟩
abbrev F.PORT_CFG_SEND_RF : Fld := ⟨.PORT_CFG, 7, 1, .rw, 0⟩
abbrev F.PORT_CFG_PRECODE_RX : Fld := ⟨.PORT_CFG, 6, 1, .rw, 0⟩
abbrev F.PORT_CFG_PRECODE_TX : Fld := ⟨.PORT_CFG, 5, 1, .rw, 0⟩
abbrev F.PORT_CFG_TX_EN : Fld := ⟨.PORT_CFG, 4, 1, .rw, 1⟩
abbrev F.PORT_CFG_FORMAT : Fld := ⟨.PORT_CFG, 0, 3, .rw, 0⟩
abbrev F.PORT_TAG_TX_TAG : Fld := ⟨.PORT_TAG_TX, 0, 32, .rw, 0⟩
abbrev F.PORT_TAG_EXP_TAG : Fld := ⟨.PORT_TAG_EXP, 0, 32, .rw, 0⟩
abbrev F.PORT_TAG_RX_TAG : Fld := ⟨.PORT_TAG_RX, 0, 32, .ro, 0⟩
abbrev F.PORT_STATUS_AM_MISS : Fld := ⟨.PORT_STATUS, 24, 8, .rc, 0⟩
abbrev F.PORT_STATUS_MISMATCH_CAUSE : Fld := ⟨.PORT_STATUS, 17, 3, .ro, 0⟩
abbrev F.PORT_STATUS_MISMATCH : Fld := ⟨.PORT_STATUS, 16, 1, .ro, 0⟩
abbrev F.PORT_STATUS_LOCKED : Fld := ⟨.PORT_STATUS, 8, 8, .ro, 0⟩
abbrev F.PORT_STATUS_REMOTE_FAULT : Fld := ⟨.PORT_STATUS, 7, 1, .ro, 0⟩
abbrev F.PORT_STATUS_LOCAL_FAULT : Fld := ⟨.PORT_STATUS, 6, 1, .ro, 0⟩
abbrev F.PORT_STATUS_DEGRADED : Fld := ⟨.PORT_STATUS, 5, 1, .ro, 0⟩
abbrev F.PORT_STATUS_FEC_FAIL : Fld := ⟨.PORT_STATUS, 4, 1, .ro, 0⟩
abbrev F.PORT_STATUS_SKEW_FAIL : Fld := ⟨.PORT_STATUS, 3, 1, .ro, 0⟩
abbrev F.PORT_STATUS_MAP_FAIL : Fld := ⟨.PORT_STATUS, 2, 1, .ro, 0⟩
abbrev F.PORT_STATUS_TX_READY : Fld := ⟨.PORT_STATUS, 1, 1, .ro, 0⟩
abbrev F.PORT_STATUS_RX_READY : Fld := ⟨.PORT_STATUS, 0, 1, .ro, 0⟩
abbrev F.PORT_LANE_MAP_REVERSED : Fld := ⟨.PORT_LANE_MAP, 31, 1, .ro, 0⟩
abbrev F.PORT_LANE_MAP_LOGICAL_0 : Fld := ⟨.PORT_LANE_MAP, 0, 3, .ro, 0⟩
abbrev F.PORT_LANE_MAP_LOGICAL_1 : Fld := ⟨.PORT_LANE_MAP, 3, 3, .ro, 0⟩
abbrev F.PORT_LANE_MAP_LOGICAL_2 : Fld := ⟨.PORT_LANE_MAP, 6, 3, .ro, 0⟩
abbrev F.PORT_LANE_MAP_LOGICAL_3 : Fld := ⟨.PORT_LANE_MAP, 9, 3, .ro, 0⟩
abbrev F.PORT_LANE_MAP_LOGICAL_4 : Fld := ⟨.PORT_LANE_MAP, 12, 3, .ro, 0⟩
abbrev F.PORT_LANE_MAP_LOGICAL_5 : Fld := ⟨.PORT_LANE_MAP, 15, 3, .ro, 0⟩
abbrev F.PORT_LANE_MAP_LOGICAL_6 : Fld := ⟨.PORT_LANE_MAP, 18, 3, .ro, 0⟩
abbrev F.PORT_LANE_MAP_LOGICAL_7 : Fld := ⟨.PORT_LANE_MAP, 21, 3, .ro, 0⟩
abbrev F.PORT_POL_INV : Fld := ⟨.PORT_POL, 0, 8, .ro, 0⟩
abbrev F.PORT_SKEW_SKEW : Fld := ⟨.PORT_SKEW, 0, 12, .ro, 0⟩
abbrev F.PORT_FEC_THR_DEG_THR : Fld := ⟨.PORT_FEC_THR, 16, 16, .rw, 0x100⟩
abbrev F.PORT_FEC_THR_UNCOR_THR : Fld := ⟨.PORT_FEC_THR, 0, 7, .rw, 8⟩
abbrev F.PORT_EVENT_FAULT : Fld := ⟨.PORT_EVENT, 7, 1, .w1c, 0⟩
abbrev F.PORT_EVENT_POL : Fld := ⟨.PORT_EVENT, 6, 1, .w1c, 0⟩
abbrev F.PORT_EVENT_MAP : Fld := ⟨.PORT_EVENT, 5, 1, .w1c, 0⟩
abbrev F.PORT_EVENT_MISMATCH : Fld := ⟨.PORT_EVENT, 4, 1, .w1c, 0⟩
abbrev F.PORT_EVENT_DEGRADED : Fld := ⟨.PORT_EVENT, 3, 1, .w1c, 0⟩
abbrev F.PORT_EVENT_FEC_FAIL : Fld := ⟨.PORT_EVENT, 2, 1, .w1c, 0⟩
abbrev F.PORT_EVENT_TX : Fld := ⟨.PORT_EVENT, 1, 1, .w1c, 0⟩
abbrev F.PORT_EVENT_RX : Fld := ⟨.PORT_EVENT, 0, 1, .w1c, 0⟩
abbrev F.PORT_EVENT_EN_EN : Fld := ⟨.PORT_EVENT_EN, 0, 8, .rw, 0x97⟩
abbrev F.PORT_FEC_CW_LO_V : Fld := ⟨.PORT_FEC_CW_LO, 0, 32, .ro, 0⟩
abbrev F.PORT_FEC_CW_HI_V : Fld := ⟨.PORT_FEC_CW_HI, 0, 32, .ro, 0⟩
abbrev F.PORT_FEC_CORR_V : Fld := ⟨.PORT_FEC_CORR, 0, 32, .rc, 0⟩
abbrev F.PORT_FEC_UNCOR_V : Fld := ⟨.PORT_FEC_UNCOR, 0, 32, .rc, 0⟩
abbrev F.PORT_FEC_SYM_V : Fld := ⟨.PORT_FEC_SYM, 0, 32, .rc, 0⟩
abbrev F.PORT_FEC_INNER_C1_V : Fld := ⟨.PORT_FEC_INNER_C1, 0, 32, .rc, 0⟩
abbrev F.PORT_FEC_INNER_C2_V : Fld := ⟨.PORT_FEC_INNER_C2, 0, 32, .rc, 0⟩
abbrev F.PORT_FEC_INNER_DUE_V : Fld := ⟨.PORT_FEC_INNER_DUE, 0, 32, .rc, 0⟩
abbrev F.TUN_CFG_FLUSH : Fld := ⟨.TUN_CFG, 16, 8, .rw, 0xA⟩
abbrev F.TUN_CFG_PORT : Fld := ⟨.TUN_CFG, 8, 6, .rw, 0⟩
abbrev F.TUN_CFG_PAUSE_EN : Fld := ⟨.TUN_CFG, 3, 1, .rw, 1⟩
abbrev F.TUN_CFG_BAD_FCS : Fld := ⟨.TUN_CFG, 2, 1, .rw, 0⟩
abbrev F.TUN_CFG_RX_EN : Fld := ⟨.TUN_CFG, 1, 1, .rw, 0⟩
abbrev F.TUN_CFG_TX_EN : Fld := ⟨.TUN_CFG, 0, 1, .rw, 0⟩
abbrev F.TUN_LIMITS_MAX_FRAME : Fld := ⟨.TUN_LIMITS, 16, 14, .rw, 0x2400⟩
abbrev F.TUN_LIMITS_RATE : Fld := ⟨.TUN_LIMITS, 0, 11, .rw, 0⟩
abbrev F.TUN_STATUS_ROLL_RX : Fld := ⟨.TUN_STATUS, 20, 4, .ro, 0⟩
abbrev F.TUN_STATUS_ROLL_TX : Fld := ⟨.TUN_STATUS, 16, 4, .ro, 0⟩
abbrev F.TUN_STATUS_RESYNC : Fld := ⟨.TUN_STATUS, 10, 1, .ro, 0⟩
abbrev F.TUN_STATUS_RX_PHASE : Fld := ⟨.TUN_STATUS, 9, 1, .ro, 0⟩
abbrev F.TUN_STATUS_TX_PHASE : Fld := ⟨.TUN_STATUS, 8, 1, .ro, 0⟩
abbrev F.TUN_STATUS_RX_STATE : Fld := ⟨.TUN_STATUS, 4, 2, .ro, 0⟩
abbrev F.TUN_STATUS_TX_STATE : Fld := ⟨.TUN_STATUS, 0, 2, .ro, 0⟩
abbrev F.TUN_TX_SEQ_LO_SEQ : Fld := ⟨.TUN_TX_SEQ_LO, 0, 32, .tv, 1⟩
abbrev F.TUN_TX_SEQ_HI_SEQ : Fld := ⟨.TUN_TX_SEQ_HI, 0, 32, .tv, 0⟩
abbrev F.TUN_RX_DEL_LO_D : Fld := ⟨.TUN_RX_DEL_LO, 0, 32, .tv, 0⟩
abbrev F.TUN_RX_DEL_HI_D : Fld := ⟨.TUN_RX_DEL_HI, 0, 32, .tv, 0⟩
abbrev F.TUN_RX_HIGH_LO_H : Fld := ⟨.TUN_RX_HIGH_LO, 0, 32, .tv, 0⟩
abbrev F.TUN_RX_HIGH_HI_H : Fld := ⟨.TUN_RX_HIGH_HI, 0, 32, .tv, 0⟩
abbrev F.TUN_RX_WIN_LOG2 : Fld := ⟨.TUN_RX_WIN, 0, 5, .rw, 0x10⟩
abbrev F.TUN_ROLL_ABORT : Fld := ⟨.TUN_ROLL, 1, 1, .wo, 0⟩
abbrev F.TUN_ROLL_START : Fld := ⟨.TUN_ROLL, 0, 1, .wo, 0⟩
abbrev F.TUN_ROLL_CFG_TIMEOUT : Fld := ⟨.TUN_ROLL_CFG, 24, 8, .rw, 0x64⟩
abbrev F.TUN_ROLL_CFG_LEAD : Fld := ⟨.TUN_ROLL_CFG, 0, 24, .rw, 0x4000⟩
abbrev F.TUN_ROLL_STATUS_ID : Fld := ⟨.TUN_ROLL_STATUS, 16, 16, .ro, 0⟩
abbrev F.TUN_ROLL_STATUS_RESULT : Fld := ⟨.TUN_ROLL_STATUS, 0, 4, .ro, 0⟩
abbrev F.TUN_TX_USE_USE : Fld := ⟨.TUN_TX_USE, 0, 32, .ro, 0⟩
abbrev F.TUN_EVENT_RATE_EXCEEDED : Fld := ⟨.TUN_EVENT, 8, 1, .w1c, 0⟩
abbrev F.TUN_EVENT_EPOCH : Fld := ⟨.TUN_EVENT, 7, 1, .w1c, 0⟩
abbrev F.TUN_EVENT_KEY_NEAR : Fld := ⟨.TUN_EVENT, 6, 1, .w1c, 0⟩
abbrev F.TUN_EVENT_ROLL : Fld := ⟨.TUN_EVENT, 5, 1, .w1c, 0⟩
abbrev F.TUN_EVENT_GAP : Fld := ⟨.TUN_EVENT, 4, 1, .w1c, 0⟩
abbrev F.TUN_EVENT_AUTH : Fld := ⟨.TUN_EVENT, 3, 1, .w1c, 0⟩
abbrev F.TUN_EVENT_RESYNC : Fld := ⟨.TUN_EVENT, 2, 1, .w1c, 0⟩
abbrev F.TUN_EVENT_RX_STATE : Fld := ⟨.TUN_EVENT, 1, 1, .w1c, 0⟩
abbrev F.TUN_EVENT_TX_STATE : Fld := ⟨.TUN_EVENT, 0, 1, .w1c, 0⟩
abbrev F.TUN_EVENT_EN_EN : Fld := ⟨.TUN_EVENT_EN, 0, 9, .rw, 0x1F7⟩
abbrev F.TUN_CNT_FRAMES_IN_V : Fld := ⟨.TUN_CNT_FRAMES_IN, 0, 32, .rc, 0⟩
abbrev F.TUN_CNT_FRAMES_OUT_V : Fld := ⟨.TUN_CNT_FRAMES_OUT, 0, 32, .rc, 0⟩
abbrev F.TUN_CNT_BUNDLES_TX_V : Fld := ⟨.TUN_CNT_BUNDLES_TX, 0, 32, .rc, 0⟩
abbrev F.TUN_CNT_BUNDLES_RX_V : Fld := ⟨.TUN_CNT_BUNDLES_RX, 0, 32, .rc, 0⟩
abbrev F.TUN_CNT_DROP_BLOCKED_V : Fld := ⟨.TUN_CNT_DROP_BLOCKED, 0, 32, .rc, 0⟩
abbrev F.TUN_CNT_DROP_OVERSIZE_V : Fld := ⟨.TUN_CNT_DROP_OVERSIZE, 0, 32, .rc, 0⟩
abbrev F.TUN_CNT_BAD_FCS_V : Fld := ⟨.TUN_CNT_BAD_FCS, 0, 32, .rc, 0⟩
abbrev F.TUN_CNT_AUTH_FAIL_A_V : Fld := ⟨.TUN_CNT_AUTH_FAIL_A, 0, 32, .rc, 0⟩
abbrev F.TUN_CNT_AUTH_FAIL_B_V : Fld := ⟨.TUN_CNT_AUTH_FAIL_B, 0, 32, .rc, 0⟩
abbrev F.TUN_CNT_FALLBACK_OK_V : Fld := ⟨.TUN_CNT_FALLBACK_OK, 0, 32, .rc, 0⟩
abbrev F.TUN_CNT_ERRORED_A_V : Fld := ⟨.TUN_CNT_ERRORED_A, 0, 32, .rc, 0⟩
abbrev F.TUN_CNT_ERRORED_B_V : Fld := ⟨.TUN_CNT_ERRORED_B, 0, 32, .rc, 0⟩
abbrev F.TUN_CNT_REPLAY_V : Fld := ⟨.TUN_CNT_REPLAY, 0, 32, .rc, 0⟩
abbrev F.TUN_CNT_GAP_BUNDLES_V : Fld := ⟨.TUN_CNT_GAP_BUNDLES, 0, 32, .rc, 0⟩
abbrev F.TUN_CNT_LOST_FRAMES_V : Fld := ⟨.TUN_CNT_LOST_FRAMES, 0, 32, .rc, 0⟩
abbrev F.TUN_CNT_FORMAT_ERR_V : Fld := ⟨.TUN_CNT_FORMAT_ERR, 0, 32, .rc, 0⟩
abbrev F.TUN_CNT_CTRL_AUTH_FAIL_V : Fld := ⟨.TUN_CNT_CTRL_AUTH_FAIL, 0, 32, .rc, 0⟩
abbrev F.KEY_STAGE_DATA : Fld := ⟨.KEY_STAGE, 0, 32, .wo, 0⟩
abbrev F.KEY_LOAD_MODE : Fld := ⟨.KEY_LOAD, 16, 2, .wo, 0⟩
abbrev F.KEY_LOAD_KEK : Fld := ⟨.KEY_LOAD, 8, 7, .wo, 0⟩
abbrev F.KEY_LOAD_SLOT : Fld := ⟨.KEY_LOAD, 0, 7, .wo, 0⟩
abbrev F.KEY_ZEROISE_ALL : Fld := ⟨.KEY_ZEROISE, 8, 1, .wo, 0⟩
abbrev F.KEY_ZEROISE_SLOT : Fld := ⟨.KEY_ZEROISE, 0, 7, .wo, 0⟩
abbrev F.KEY_STATUS_LAST : Fld := ⟨.KEY_STATUS, 8, 8, .ro, 0⟩
abbrev F.KEY_STATUS_ALL_ZERO : Fld := ⟨.KEY_STATUS, 1, 1, .w1c, 0⟩
abbrev F.KEY_STATUS_TAMPER : Fld := ⟨.KEY_STATUS, 0, 1, .w1c, 0⟩
abbrev F.KEY_LIMIT_LOG2 : Fld := ⟨.KEY_LIMIT, 0, 6, .rw, 0x28⟩
abbrev F.CRY_ETHERTYPE_TYPE : Fld := ⟨.CRY_ETHERTYPE, 0, 16, .rw, 0x88B5⟩
abbrev F.CRY_MAC_LOCAL_LO_ADDR : Fld := ⟨.CRY_MAC_LOCAL_LO, 0, 32, .rw, 0⟩
abbrev F.CRY_MAC_LOCAL_HI_ADDR : Fld := ⟨.CRY_MAC_LOCAL_HI, 0, 16, .rw, 0⟩
abbrev F.CRY_MAC_PEER_LO_ADDR : Fld := ⟨.CRY_MAC_PEER_LO, 0, 32, .rw, 0⟩
abbrev F.CRY_MAC_PEER_HI_ADDR : Fld := ⟨.CRY_MAC_PEER_HI, 0, 16, .rw, 0⟩
abbrev F.CRY_PEER_EPOCH_EPOCH : Fld := ⟨.CRY_PEER_EPOCH, 0, 32, .ro, 0⟩
abbrev F.CRY_PEER_STATUS_CHANGED : Fld := ⟨.CRY_PEER_STATUS, 1, 1, .w1c, 0⟩
abbrev F.CRY_PEER_STATUS_VALID : Fld := ⟨.CRY_PEER_STATUS, 0, 1, .ro, 0⟩
abbrev F.CRY_PIPE_TX_MAP : Fld := ⟨.CRY_PIPE_TX, 0, 32, .ro, 0⟩
abbrev F.CRY_PIPE_RX_MAP : Fld := ⟨.CRY_PIPE_RX, 0, 32, .ro, 0⟩
abbrev F.CRY_PIPE_FAIL_TX_MAP : Fld := ⟨.CRY_PIPE_FAIL_TX, 0, 32, .ro, 0⟩
abbrev F.CRY_PIPE_FAIL_RX_MAP : Fld := ⟨.CRY_PIPE_FAIL_RX, 0, 32, .ro, 0⟩
abbrev F.CRY_NO_TUNNEL_COUNT : Fld := ⟨.CRY_NO_TUNNEL, 0, 32, .rc, 0⟩
abbrev F.CRY_FOREIGN_COUNT : Fld := ⟨.CRY_FOREIGN, 0, 32, .rc, 0⟩
abbrev F.CRY_STRAY_COUNT : Fld := ⟨.CRY_STRAY, 0, 32, .rc, 0⟩
abbrev F.KEY_DESC_TUNNEL : Fld := ⟨.KEY_DESC, 16, 5, .tv, 0⟩
abbrev F.KEY_DESC_DIR : Fld := ⟨.KEY_DESC, 13, 1, .tv, 0⟩
abbrev F.KEY_DESC_PHASE : Fld := ⟨.KEY_DESC, 12, 1, .tv, 0⟩
abbrev F.KEY_DESC_STATE : Fld := ⟨.KEY_DESC, 0, 3, .tv, 0⟩
abbrev F.HOLD_CTL_STOP : Fld := ⟨.HOLD_CTL, 1, 1, .wo, 0⟩
abbrev F.HOLD_CTL_START : Fld := ⟨.HOLD_CTL, 0, 1, .wo, 0⟩
abbrev F.HOLD_CFG_SSC : Fld := ⟨.HOLD_CFG, 8, 1, .rw, 0⟩
abbrev F.HOLD_CFG_CHANNELS : Fld := ⟨.HOLD_CFG, 4, 1, .rw, 1⟩
abbrev F.HOLD_CFG_RATE : Fld := ⟨.HOLD_CFG, 0, 3, .rw, 0⟩
abbrev F.HOLD_STATUS_LIVE : Fld := ⟨.HOLD_STATUS, 16, 5, .ro, 0⟩
abbrev F.HOLD_STATUS_OVER_BUDGET : Fld := ⟨.HOLD_STATUS, 5, 1, .ro, 0⟩
abbrev F.HOLD_STATUS_SHORT : Fld := ⟨.HOLD_STATUS, 4, 1, .ro, 0⟩
abbrev F.HOLD_STATUS_READY : Fld := ⟨.HOLD_STATUS, 3, 1, .ro, 0⟩
abbrev F.HOLD_STATUS_POLICY : Fld := ⟨.HOLD_STATUS, 2, 1, .ro, 0⟩
abbrev F.HOLD_STATUS_STATE : Fld := ⟨.HOLD_STATUS, 0, 2, .ro, 0⟩
abbrev F.HOLD_BUDGET_CHARGED : Fld := ⟨.HOLD_BUDGET, 16, 16, .ro, 0⟩
abbrev F.HOLD_BUDGET_B : Fld := ⟨.HOLD_BUDGET, 0, 16, .ro, 0x221⟩
abbrev F.HOLD_NEED_GB : Fld := ⟨.HOLD_NEED, 0, 32, .rw, 0⟩
abbrev F.HOLD_CORDS_USABLE_CORDS : Fld := ⟨.HOLD_CORDS_USABLE, 0, 32, .ro, 0⟩
abbrev F.HOLD_CORDS_FILLED_CORDS : Fld := ⟨.HOLD_CORDS_FILLED, 0, 32, .ro, 0⟩
abbrev F.HOLD_OCC_RETX_MIB : Fld := ⟨.HOLD_OCC_RETX, 0, 32, .ro, 0⟩
abbrev F.HOLD_OCC_ALIGN_MIB : Fld := ⟨.HOLD_OCC_ALIGN, 0, 32, .ro, 0⟩
abbrev F.HOLD_OCC_RIDE_MIB : Fld := ⟨.HOLD_OCC_RIDE, 0, 32, .ro, 0⟩
abbrev F.HOLD_SCRUB_CTL_RATE : Fld := ⟨.HOLD_SCRUB_CTL, 1, 3, .rw, 4⟩
abbrev F.HOLD_SCRUB_CTL_EN : Fld := ⟨.HOLD_SCRUB_CTL, 0, 1, .rw, 1⟩
abbrev F.HOLD_SCRUB_STATUS_PASSES : Fld := ⟨.HOLD_SCRUB_STATUS, 16, 16, .ro, 0⟩
abbrev F.HOLD_SCRUB_STATUS_PROGRESS : Fld := ⟨.HOLD_SCRUB_STATUS, 0, 10, .ro, 0⟩
abbrev F.HOLD_BUCKET_CFG_RANK_DEPTH : Fld := ⟨.HOLD_BUCKET_CFG, 24, 8, .rw, 0x20⟩
abbrev F.HOLD_BUCKET_CFG_RANK_LEAK : Fld := ⟨.HOLD_BUCKET_CFG, 16, 8, .rw, 0xA⟩
abbrev F.HOLD_BUCKET_CFG_ROW_DEPTH : Fld := ⟨.HOLD_BUCKET_CFG, 8, 4, .rw, 4⟩
abbrev F.HOLD_BUCKET_CFG_ROW_LEAK : Fld := ⟨.HOLD_BUCKET_CFG, 0, 8, .rw, 0xA⟩
abbrev F.HOLD_PPR_ROW_RANK : Fld := ⟨.HOLD_PPR_ROW, 30, 2, .rw, 0⟩
abbrev F.HOLD_PPR_ROW_LRANK : Fld := ⟨.HOLD_PPR_ROW, 28, 2, .rw, 0⟩
abbrev F.HOLD_PPR_ROW_BG : Fld := ⟨.HOLD_PPR_ROW, 25, 3, .rw, 0⟩
abbrev F.HOLD_PPR_ROW_BANK : Fld := ⟨.HOLD_PPR_ROW, 23, 2, .rw, 0⟩
abbrev F.HOLD_PPR_ROW_ROW : Fld := ⟨.HOLD_PPR_ROW, 0, 18, .rw, 0⟩
abbrev F.HOLD_PPR_CMD_FROM_QUEUE : Fld := ⟨.HOLD_PPR_CMD, 9, 1, .wo, 0⟩
abbrev F.HOLD_PPR_CMD_HARD : Fld := ⟨.HOLD_PPR_CMD, 8, 1, .wo, 0⟩
abbrev F.HOLD_PPR_CMD_CHANNEL : Fld := ⟨.HOLD_PPR_CMD, 0, 5, .wo, 0⟩
abbrev F.HOLD_PPR_STATUS_RESULT : Fld := ⟨.HOLD_PPR_STATUS, 1, 3, .ro, 0⟩
abbrev F.HOLD_PPR_STATUS_BUSY : Fld := ⟨.HOLD_PPR_STATUS, 0, 1, .ro, 0⟩
abbrev F.HOLD_ERR_LOG_LO_BILLET : Fld := ⟨.HOLD_ERR_LOG_LO, 0, 32, .ro, 0⟩
abbrev F.HOLD_ERR_LOG_HI_BURST : Fld := ⟨.HOLD_ERR_LOG_HI, 16, 8, .ro, 0⟩
abbrev F.HOLD_ERR_LOG_HI_CHANNEL : Fld := ⟨.HOLD_ERR_LOG_HI, 8, 8, .ro, 0⟩
abbrev F.HOLD_ERR_LOG_HI_KIND : Fld := ⟨.HOLD_ERR_LOG_HI, 0, 8, .ro, 0⟩
abbrev F.HOLD_EVENT_OVER_BUDGET : Fld := ⟨.HOLD_EVENT, 7, 1, .w1c, 0⟩
abbrev F.HOLD_EVENT_PPR_DONE : Fld := ⟨.HOLD_EVENT, 6, 1, .w1c, 0⟩
abbrev F.HOLD_EVENT_CANDIDATE : Fld := ⟨.HOLD_EVENT, 5, 1, .w1c, 0⟩
abbrev F.HOLD_EVENT_ROW_OVF : Fld := ⟨.HOLD_EVENT, 4, 1, .w1c, 0⟩
abbrev F.HOLD_EVENT_RANK_OVF : Fld := ⟨.HOLD_EVENT, 3, 1, .w1c, 0⟩
abbrev F.HOLD_EVENT_CLINKER : Fld := ⟨.HOLD_EVENT, 2, 1, .w1c, 0⟩
abbrev F.HOLD_EVENT_CH_FAIL : Fld := ⟨.HOLD_EVENT, 1, 1, .w1c, 0⟩
abbrev F.HOLD_EVENT_READY : Fld := ⟨.HOLD_EVENT, 0, 1, .w1c, 0⟩
abbrev F.HOLD_EVENT_EN_EN : Fld := ⟨.HOLD_EVENT_EN, 0, 8, .rw, 0xFF⟩
abbrev F.HOLD_CNT_CLINKERS_V : Fld := ⟨.HOLD_CNT_CLINKERS, 0, 32, .rc, 0⟩
abbrev F.HOLD_CNT_CLINKER_UNUSED_V : Fld := ⟨.HOLD_CNT_CLINKER_UNUSED, 0, 32, .rc, 0⟩
abbrev F.HOLD_CNT_LOST_UNUSED_V : Fld := ⟨.HOLD_CNT_LOST_UNUSED, 0, 32, .rc, 0⟩
abbrev F.HOLD_CNT_CAND_DROPPED_V : Fld := ⟨.HOLD_CNT_CAND_DROPPED, 0, 32, .rc, 0⟩
abbrev F.HOLD_CH_STATUS_TEMP : Fld := ⟨.HOLD_CH_STATUS, 24, 8, .ro, 0⟩
abbrev F.HOLD_CH_STATUS_CAUSE : Fld := ⟨.HOLD_CH_STATUS, 8, 4, .ro, 0⟩
abbrev F.HOLD_CH_STATUS_STATE : Fld := ⟨.HOLD_CH_STATUS, 0, 3, .ro, 0⟩
abbrev F.HOLD_CH_DIMM_EXCESS : Fld := ⟨.HOLD_CH_DIMM, 24, 8, .ro, 0⟩
abbrev F.HOLD_CH_DIMM_SIZE : Fld := ⟨.HOLD_CH_DIMM, 16, 8, .ro, 0⟩
abbrev F.HOLD_CH_DIMM_STACK : Fld := ⟨.HOLD_CH_DIMM, 8, 2, .ro, 0⟩
abbrev F.HOLD_CH_DIMM_RANKS : Fld := ⟨.HOLD_CH_DIMM, 4, 2, .ro, 0⟩
abbrev F.HOLD_CH_DIMM_WIDTH : Fld := ⟨.HOLD_CH_DIMM, 0, 1, .ro, 0⟩
abbrev F.HOLD_CH_CNT_CORRECTED_V : Fld := ⟨.HOLD_CH_CNT_CORRECTED, 0, 32, .rc, 0⟩
abbrev F.HOLD_CH_CNT_UNCORRECTABLE_V : Fld := ⟨.HOLD_CH_CNT_UNCORRECTABLE, 0, 32, .rc, 0⟩
abbrev F.HOLD_CH_CNT_SOFT_REPAIRS_V : Fld := ⟨.HOLD_CH_CNT_SOFT_REPAIRS, 0, 32, .rc, 0⟩
abbrev F.HOLD_CH_CNT_RETRIES_V : Fld := ⟨.HOLD_CH_CNT_RETRIES, 0, 32, .rc, 0⟩
abbrev F.PROT_CFG_PREFER : Fld := ⟨.PROT_CFG, 8, 2, .rw, 2⟩
abbrev F.PROT_CFG_MODE : Fld := ⟨.PROT_CFG, 0, 2, .rw, 1⟩
abbrev F.PROT_SWITCH_CTL_WHEN_READY : Fld := ⟨.PROT_SWITCH_CTL, 8, 1, .rw, 1⟩
abbrev F.PROT_SWITCH_CTL_ACTIVE : Fld := ⟨.PROT_SWITCH_CTL, 0, 1, .rw, 0⟩
abbrev F.PROT_STATUS_DRAIN : Fld := ⟨.PROT_STATUS, 11, 1, .ro, 0⟩
abbrev F.PROT_STATUS_RIDE : Fld := ⟨.PROT_STATUS, 10, 1, .ro, 0⟩
abbrev F.PROT_STATUS_SWITCH_PENDING : Fld := ⟨.PROT_STATUS, 9, 1, .ro, 0⟩
abbrev F.PROT_STATUS_ACTIVE : Fld := ⟨.PROT_STATUS, 8, 1, .ro, 0⟩
abbrev F.PROT_STATUS_PATH_B_RX : Fld := ⟨.PROT_STATUS, 6, 2, .ro, 0⟩
abbrev F.PROT_STATUS_PATH_A_RX : Fld := ⟨.PROT_STATUS, 4, 2, .ro, 0⟩
abbrev F.PROT_STATUS_PATH_B_TX : Fld := ⟨.PROT_STATUS, 2, 2, .ro, 0⟩
abbrev F.PROT_STATUS_PATH_A_TX : Fld := ⟨.PROT_STATUS, 0, 2, .ro, 0⟩
abbrev F.PROT_CTL_END_RIDE : Fld := ⟨.PROT_CTL, 1, 1, .wo, 0⟩
abbrev F.PROT_CTL_RIDE : Fld := ⟨.PROT_CTL, 0, 1, .wo, 0⟩
abbrev F.PROT_LL_CFG_TRIES : Fld := ⟨.PROT_LL_CFG, 28, 4, .rw, 3⟩
abbrev F.PROT_LL_CFG_ACK_INT : Fld := ⟨.PROT_LL_CFG, 16, 12, .rw, 0x14⟩
abbrev F.PROT_LL_CFG_REPLAY_WIN : Fld := ⟨.PROT_LL_CFG, 0, 16, .rw, 0x28⟩
abbrev F.PROT_RESEND_WAIT_WAIT : Fld := ⟨.PROT_RESEND_WAIT, 0, 24, .rw, 0x3E8⟩
abbrev F.PROT_MERGE_CFG_FIXED : Fld := ⟨.PROT_MERGE_CFG, 31, 1, .rw, 0⟩
abbrev F.PROT_MERGE_CFG_GUARD : Fld := ⟨.PROT_MERGE_CFG, 0, 8, .rw, 0x14⟩
abbrev F.PROT_DELAY_FIX_DELAY : Fld := ⟨.PROT_DELAY_FIX, 0, 20, .rw, 0⟩
abbrev F.PROT_DRAIN_RATE : Fld := ⟨.PROT_DRAIN, 0, 16, .rw, 0x3C0⟩
abbrev F.PROT_EVENT_HOLDBACK_DROP : Fld := ⟨.PROT_EVENT, 8, 1, .w1c, 0⟩
abbrev F.PROT_EVENT_LATE_COPY : Fld := ⟨.PROT_EVENT, 7, 1, .w1c, 0⟩
abbrev F.PROT_EVENT_RESEND_EXHAUSTED : Fld := ⟨.PROT_EVENT, 6, 1, .w1c, 0⟩
abbrev F.PROT_EVENT_GAP : Fld := ⟨.PROT_EVENT, 5, 1, .w1c, 0⟩
abbrev F.PROT_EVENT_DRAIN_STALL : Fld := ⟨.PROT_EVENT, 4, 1, .w1c, 0⟩
abbrev F.PROT_EVENT_RIDE : Fld := ⟨.PROT_EVENT, 3, 1, .w1c, 0⟩
abbrev F.PROT_EVENT_SWITCH : Fld := ⟨.PROT_EVENT, 2, 1, .w1c, 0⟩
abbrev F.PROT_EVENT_PATH_B : Fld := ⟨.PROT_EVENT, 1, 1, .w1c, 0⟩
abbrev F.PROT_EVENT_PATH_A : Fld := ⟨.PROT_EVENT, 0, 1, .w1c, 0⟩
abbrev F.PROT_EVENT_EN_EN : Fld := ⟨.PROT_EVENT_EN, 0, 9, .rw, 0x7F⟩
abbrev F.PROT_TUN_CFG_RIDE_EN : Fld := ⟨.PROT_TUN_CFG, 2, 1, .rw, 1⟩
abbrev F.PROT_TUN_CFG_LOSSLESS : Fld := ⟨.PROT_TUN_CFG, 1, 1, .rw, 0⟩
abbrev F.PROT_TUN_CFG_MERGE : Fld := ⟨.PROT_TUN_CFG, 0, 1, .rw, 0⟩
abbrev F.PROT_TUN_SKEW_SKEW : Fld := ⟨.PROT_TUN_SKEW, 0, 32, .ro, 0⟩
abbrev F.PROT_TUN_DELAY_DELAY : Fld := ⟨.PROT_TUN_DELAY, 0, 21, .ro, 0⟩
abbrev F.PROT_TUN_STATE_RUNS : Fld := ⟨.PROT_TUN_STATE, 16, 5, .ro, 0⟩
abbrev F.PROT_TUN_STATE_HOLDBACK : Fld := ⟨.PROT_TUN_STATE, 2, 1, .ro, 0⟩
abbrev F.PROT_TUN_STATE_DRAIN : Fld := ⟨.PROT_TUN_STATE, 1, 1, .ro, 0⟩
abbrev F.PROT_TUN_STATE_RIDE : Fld := ⟨.PROT_TUN_STATE, 0, 1, .ro, 0⟩
abbrev F.PROT_TUN_BACKLOG_COUNT : Fld := ⟨.PROT_TUN_BACKLOG, 0, 32, .ro, 0⟩
abbrev F.PROT_TUN_UNACKED_COUNT : Fld := ⟨.PROT_TUN_UNACKED, 0, 32, .ro, 0⟩
abbrev F.PROT_TUN_GAP_LO_FIRST : Fld := ⟨.PROT_TUN_GAP_LO, 0, 32, .ro, 0⟩
abbrev F.PROT_TUN_GAP_HI_FIRST : Fld := ⟨.PROT_TUN_GAP_HI, 0, 32, .ro, 0⟩
abbrev F.PROT_TUN_GAP_INFO_CAUSE : Fld := ⟨.PROT_TUN_GAP_INFO, 28, 4, .ro, 0⟩
abbrev F.PROT_TUN_GAP_INFO_COUNT : Fld := ⟨.PROT_TUN_GAP_INFO, 0, 28, .ro, 0⟩
abbrev F.PROT_TUN_CNT_RESEND_TX_V : Fld := ⟨.PROT_TUN_CNT_RESEND_TX, 0, 32, .rc, 0⟩
abbrev F.PROT_TUN_CNT_RESEND_RX_V : Fld := ⟨.PROT_TUN_CNT_RESEND_RX, 0, 32, .rc, 0⟩
abbrev F.PROT_TUN_CNT_RESENT_V : Fld := ⟨.PROT_TUN_CNT_RESENT, 0, 32, .rc, 0⟩
abbrev F.PROT_TUN_CNT_DEADLINE_V : Fld := ⟨.PROT_TUN_CNT_DEADLINE, 0, 32, .rc, 0⟩
abbrev F.PROT_TUN_CNT_LATE_COPY_V : Fld := ⟨.PROT_TUN_CNT_LATE_COPY, 0, 32, .rc, 0⟩
abbrev F.PROT_TUN_CNT_STALE_V : Fld := ⟨.PROT_TUN_CNT_STALE, 0, 32, .rc, 0⟩
abbrev F.PROT_TUN_CNT_HOLDBACK_DROP_V : Fld := ⟨.PROT_TUN_CNT_HOLDBACK_DROP, 0, 32, .rc, 0⟩
abbrev F.PROT_TUN_SINGLE_COUNT : Fld := ⟨.PROT_TUN_SINGLE, 0, 32, .rc, 0⟩
abbrev F.LANE_DEC_CFG_SMOKE_OWNED : Fld := ⟨.LANE_DEC_CFG, 8, 1, .ro, 0⟩
abbrev F.LANE_DEC_CFG_MIX_EN : Fld := ⟨.LANE_DEC_CFG, 4, 1, .rw, 0⟩
abbrev F.LANE_DEC_CFG_PROFILE : Fld := ⟨.LANE_DEC_CFG, 1, 2, .rw, 2⟩
abbrev F.LANE_DEC_CFG_EN : Fld := ⟨.LANE_DEC_CFG, 0, 1, .rw, 1⟩
abbrev F.LANE_DEC_NCO_INC : Fld := ⟨.LANE_DEC_NCO, 0, 32, .rw, 0⟩
abbrev F.LANE_DEC_STATUS_UNSETTLED_LEFT : Fld := ⟨.LANE_DEC_STATUS, 16, 8, .ro, 0⟩
abbrev F.LANE_DEC_STATUS_TRANSITION_LEFT : Fld := ⟨.LANE_DEC_STATUS, 8, 7, .ro, 0⟩
abbrev F.LANE_DEC_STATUS_INPUT : Fld := ⟨.LANE_DEC_STATUS, 4, 2, .ro, 0⟩
abbrev F.LANE_DEC_STATUS_ACTIVE_BANK : Fld := ⟨.LANE_DEC_STATUS, 2, 1, .ro, 0⟩
abbrev F.LANE_DEC_STATUS_XFADE_BUSY : Fld := ⟨.LANE_DEC_STATUS, 1, 1, .ro, 0⟩
abbrev F.LANE_DEC_STATUS_RUNNING : Fld := ⟨.LANE_DEC_STATUS, 0, 1, .ro, 0⟩
abbrev F.LANE_DEC_SWITCH_SWITCH : Fld := ⟨.LANE_DEC_SWITCH, 0, 1, .wo, 0⟩
abbrev F.LANE_DEC_COEF_ADDR_INDEX : Fld := ⟨.LANE_DEC_COEF_ADDR, 0, 9, .rw, 0⟩
abbrev F.LANE_DEC_COEF_DATA_VALUE : Fld := ⟨.LANE_DEC_COEF_DATA, 0, 32, .rw, 0⟩
abbrev F.LANE_DEC_DELAY_G : Fld := ⟨.LANE_DEC_DELAY, 0, 20, .ro, 0x2D9⟩
abbrev F.LANE_DEC_CAP_CTL_LEN : Fld := ⟨.LANE_DEC_CAP_CTL, 16, 11, .rw, 0x400⟩
abbrev F.LANE_DEC_CAP_CTL_WAIT_SETTLED : Fld := ⟨.LANE_DEC_CAP_CTL, 4, 1, .rw, 0⟩
abbrev F.LANE_DEC_CAP_CTL_STOP : Fld := ⟨.LANE_DEC_CAP_CTL, 1, 1, .wo, 0⟩
abbrev F.LANE_DEC_CAP_CTL_START : Fld := ⟨.LANE_DEC_CAP_CTL, 0, 1, .wo, 0⟩
abbrev F.LANE_DEC_CAP_STATUS_COUNT : Fld := ⟨.LANE_DEC_CAP_STATUS, 16, 11, .ro, 0⟩
abbrev F.LANE_DEC_CAP_STATUS_FLAGS_SEEN : Fld := ⟨.LANE_DEC_CAP_STATUS, 8, 5, .ro, 0⟩
abbrev F.LANE_DEC_CAP_STATUS_ABANDONED : Fld := ⟨.LANE_DEC_CAP_STATUS, 2, 1, .ro, 0⟩
abbrev F.LANE_DEC_CAP_STATUS_DONE : Fld := ⟨.LANE_DEC_CAP_STATUS, 1, 1, .ro, 0⟩
abbrev F.LANE_DEC_CAP_STATUS_BUSY : Fld := ⟨.LANE_DEC_CAP_STATUS, 0, 1, .ro, 0⟩
abbrev F.LANE_DEC_CAP_TS_LO_TIME : Fld := ⟨.LANE_DEC_CAP_TS_LO, 0, 32, .ro, 0⟩
abbrev F.LANE_DEC_CAP_TS_HI_TIME : Fld := ⟨.LANE_DEC_CAP_TS_HI, 0, 32, .ro, 0⟩
abbrev F.LANE_DEC_CAP_ADDR_INDEX : Fld := ⟨.LANE_DEC_CAP_ADDR, 0, 10, .rw, 0⟩
abbrev F.LANE_DEC_CAP_DATA_LO_Q : Fld := ⟨.LANE_DEC_CAP_DATA_LO, 16, 16, .ro, 0⟩
abbrev F.LANE_DEC_CAP_DATA_LO_I : Fld := ⟨.LANE_DEC_CAP_DATA_LO, 0, 16, .ro, 0⟩
abbrev F.LANE_DEC_CAP_DATA_HI_FLAGS : Fld := ⟨.LANE_DEC_CAP_DATA_HI, 0, 5, .ro, 0⟩
abbrev F.LANE_MON_CTL_LOG2 : Fld := ⟨.LANE_MON_CTL, 24, 5, .rw, 0x14⟩
abbrev F.LANE_MON_CTL_PHASE : Fld := ⟨.LANE_MON_CTL, 16, 6, .rw, 0⟩
abbrev F.LANE_MON_CTL_LEVEL : Fld := ⟨.LANE_MON_CTL, 8, 2, .rw, 0⟩
abbrev F.LANE_MON_CTL_LEVEL_EN : Fld := ⟨.LANE_MON_CTL, 6, 1, .rw, 0⟩
abbrev F.LANE_MON_CTL_MODE : Fld := ⟨.LANE_MON_CTL, 4, 2, .rw, 0⟩
abbrev F.LANE_MON_CTL_STOP : Fld := ⟨.LANE_MON_CTL, 1, 1, .wo, 0⟩
abbrev F.LANE_MON_CTL_START : Fld := ⟨.LANE_MON_CTL, 0, 1, .wo, 0⟩
abbrev F.LANE_MON_STATUS_ABANDONED : Fld := ⟨.LANE_MON_STATUS, 3, 1, .ro, 0⟩
abbrev F.LANE_MON_STATUS_PAUSED : Fld := ⟨.LANE_MON_STATUS, 2, 1, .ro, 0⟩
abbrev F.LANE_MON_STATUS_DONE : Fld := ⟨.LANE_MON_STATUS, 1, 1, .ro, 0⟩
abbrev F.LANE_MON_STATUS_BUSY : Fld := ⟨.LANE_MON_STATUS, 0, 1, .ro, 0⟩
abbrev F.LANE_MON_HIST_ADDR_BIN : Fld := ⟨.LANE_MON_HIST_ADDR, 0, 8, .rw, 0⟩
abbrev F.LANE_MON_HIST_DATA_COUNT : Fld := ⟨.LANE_MON_HIST_DATA, 0, 32, .ro, 0⟩
abbrev F.LANE_MON_HIST_TOTAL_COUNT : Fld := ⟨.LANE_MON_HIST_TOTAL, 0, 32, .ro, 0⟩
abbrev F.LANE_MON_HIST_OVR_COUNT : Fld := ⟨.LANE_MON_HIST_OVR, 0, 32, .ro, 0⟩
abbrev F.LANE_MON_SQ_CFG_LOG2 : Fld := ⟨.LANE_MON_SQ_CFG, 0, 5, .rw, 0x10⟩
abbrev F.LANE_MON_SQ_LEVEL0_MEAN : Fld := ⟨.LANE_MON_SQ_LEVEL0, 16, 16, .ro, 0⟩
abbrev F.LANE_MON_SQ_LEVEL0_SIGMA : Fld := ⟨.LANE_MON_SQ_LEVEL0, 0, 16, .ro, 0⟩
abbrev F.LANE_MON_SQ_LEVEL1_MEAN : Fld := ⟨.LANE_MON_SQ_LEVEL1, 16, 16, .ro, 0⟩
abbrev F.LANE_MON_SQ_LEVEL1_SIGMA : Fld := ⟨.LANE_MON_SQ_LEVEL1, 0, 16, .ro, 0⟩
abbrev F.LANE_MON_SQ_LEVEL2_MEAN : Fld := ⟨.LANE_MON_SQ_LEVEL2, 16, 16, .ro, 0⟩
abbrev F.LANE_MON_SQ_LEVEL2_SIGMA : Fld := ⟨.LANE_MON_SQ_LEVEL2, 0, 16, .ro, 0⟩
abbrev F.LANE_MON_SQ_LEVEL3_MEAN : Fld := ⟨.LANE_MON_SQ_LEVEL3, 16, 16, .ro, 0⟩
abbrev F.LANE_MON_SQ_LEVEL3_SIGMA : Fld := ⟨.LANE_MON_SQ_LEVEL3, 0, 16, .ro, 0⟩
abbrev F.LANE_MON_SQ_RLM_VALID : Fld := ⟨.LANE_MON_SQ_RLM, 16, 1, .ro, 0⟩
abbrev F.LANE_MON_SQ_RLM_RLM : Fld := ⟨.LANE_MON_SQ_RLM, 0, 10, .ro, 0⟩
abbrev F.SMOKE_CFG_DET_THR : Fld := ⟨.SMOKE_CFG, 24, 4, .rw, 8⟩
abbrev F.SMOKE_CFG_CAP_MARGIN : Fld := ⟨.SMOKE_CFG, 20, 4, .rw, 6⟩
abbrev F.SMOKE_CFG_SYNC : Fld := ⟨.SMOKE_CFG, 8, 12, .rw, 0x5A3⟩
abbrev F.SMOKE_CFG_CR : Fld := ⟨.SMOKE_CFG, 6, 2, .rw, 3⟩
abbrev F.SMOKE_CFG_BW : Fld := ⟨.SMOKE_CFG, 4, 2, .rw, 2⟩
abbrev F.SMOKE_CFG_SF : Fld := ⟨.SMOKE_CFG, 0, 4, .rw, 9⟩
abbrev F.SMOKE_CTL_BEACON_INT : Fld := ⟨.SMOKE_CTL, 8, 8, .rw, 5⟩
abbrev F.SMOKE_CTL_CTRL_EN : Fld := ⟨.SMOKE_CTL, 3, 1, .rw, 0⟩
abbrev F.SMOKE_CTL_BEACON_EN : Fld := ⟨.SMOKE_CTL, 2, 1, .rw, 1⟩
abbrev F.SMOKE_CTL_TX_EN : Fld := ⟨.SMOKE_CTL, 1, 1, .rw, 0⟩
abbrev F.SMOKE_CTL_RX_EN : Fld := ⟨.SMOKE_CTL, 0, 1, .rw, 0⟩
abbrev F.SMOKE_STATUS_LAST_RX : Fld := ⟨.SMOKE_STATUS, 16, 3, .ro, 0⟩
abbrev F.SMOKE_STATUS_RX_QUEUE : Fld := ⟨.SMOKE_STATUS, 10, 3, .ro, 0⟩
abbrev F.SMOKE_STATUS_TX_QUEUE : Fld := ⟨.SMOKE_STATUS, 7, 3, .ro, 0⟩
abbrev F.SMOKE_STATUS_SENDING : Fld := ⟨.SMOKE_STATUS, 6, 1, .ro, 0⟩
abbrev F.SMOKE_STATUS_RX_STATE : Fld := ⟨.SMOKE_STATUS, 0, 3, .ro, 0⟩
abbrev F.SMOKE_EVENT_DROPPED : Fld := ⟨.SMOKE_EVENT, 5, 1, .w1c, 0⟩
abbrev F.SMOKE_EVENT_MISMATCH : Fld := ⟨.SMOKE_EVENT, 4, 1, .w1c, 0⟩
abbrev F.SMOKE_EVENT_EPOCH : Fld := ⟨.SMOKE_EVENT, 3, 1, .w1c, 0⟩
abbrev F.SMOKE_EVENT_CAPTURED : Fld := ⟨.SMOKE_EVENT, 2, 1, .w1c, 0⟩
abbrev F.SMOKE_EVENT_TX_DONE : Fld := ⟨.SMOKE_EVENT, 1, 1, .w1c, 0⟩
abbrev F.SMOKE_EVENT_RX : Fld := ⟨.SMOKE_EVENT, 0, 1, .w1c, 0⟩
abbrev F.SMOKE_EVENT_EN_EN : Fld := ⟨.SMOKE_EVENT_EN, 0, 6, .rw, 0x39⟩
abbrev F.SMOKE_TX_POST_LEN : Fld := ⟨.SMOKE_TX_POST, 8, 8, .wo, 0⟩
abbrev F.SMOKE_TX_POST_MSG : Fld := ⟨.SMOKE_TX_POST, 0, 8, .wo, 0⟩
abbrev F.SMOKE_RX_INFO_VALID : Fld := ⟨.SMOKE_RX_INFO, 31, 1, .ro, 0⟩
abbrev F.SMOKE_RX_INFO_MSG : Fld := ⟨.SMOKE_RX_INFO, 16, 8, .ro, 0⟩
abbrev F.SMOKE_RX_INFO_LEN : Fld := ⟨.SMOKE_RX_INFO, 8, 8, .ro, 0⟩
abbrev F.SMOKE_RX_INFO_FSEQ : Fld := ⟨.SMOKE_RX_INFO, 0, 8, .ro, 0⟩
abbrev F.SMOKE_RX_POP_POP : Fld := ⟨.SMOKE_RX_POP, 0, 32, .wo, 0⟩
abbrev F.SMOKE_PEER_EPOCH_VALUE : Fld := ⟨.SMOKE_PEER_EPOCH, 0, 32, .ro, 0⟩
abbrev F.SMOKE_PEER_DEVICE_VALUE : Fld := ⟨.SMOKE_PEER_DEVICE, 0, 32, .ro, 0⟩
abbrev F.SMOKE_PEER_TAG_VALUE : Fld := ⟨.SMOKE_PEER_TAG, 0, 32, .ro, 0⟩
abbrev F.SMOKE_PEER_INFO_RX_SNR : Fld := ⟨.SMOKE_PEER_INFO, 24, 8, .ro, 0⟩
abbrev F.SMOKE_PEER_INFO_MISMATCH_CAUSE : Fld := ⟨.SMOKE_PEER_INFO, 18, 3, .ro, 0⟩
abbrev F.SMOKE_PEER_INFO_MISMATCH : Fld := ⟨.SMOKE_PEER_INFO, 17, 1, .ro, 0⟩
abbrev F.SMOKE_PEER_INFO_VALID : Fld := ⟨.SMOKE_PEER_INFO, 16, 1, .ro, 0⟩
abbrev F.SMOKE_PEER_INFO_FLAGS : Fld := ⟨.SMOKE_PEER_INFO, 8, 8, .ro, 0⟩
abbrev F.SMOKE_PEER_INFO_REVISION : Fld := ⟨.SMOKE_PEER_INFO, 0, 8, .ro, 0⟩
abbrev F.SMOKE_LINK_FREQ : Fld := ⟨.SMOKE_LINK, 16, 16, .ro, 0⟩
abbrev F.SMOKE_LINK_PEAK : Fld := ⟨.SMOKE_LINK, 8, 8, .ro, 0⟩
abbrev F.SMOKE_LINK_SNR : Fld := ⟨.SMOKE_LINK, 0, 8, .ro, 0⟩
abbrev F.SMOKE_TX_BUF_DATA : Fld := ⟨.SMOKE_TX_BUF, 0, 32, .wo, 0⟩
abbrev F.SMOKE_RX_BUF_DATA : Fld := ⟨.SMOKE_RX_BUF, 0, 32, .ro, 0⟩
abbrev F.SMOKE_CNT_FRAMES_TX_V : Fld := ⟨.SMOKE_CNT_FRAMES_TX, 0, 32, .rc, 0⟩
abbrev F.SMOKE_CNT_FRAMES_RX_V : Fld := ⟨.SMOKE_CNT_FRAMES_RX, 0, 32, .rc, 0⟩
abbrev F.SMOKE_CNT_DETECTS_V : Fld := ⟨.SMOKE_CNT_DETECTS, 0, 32, .rc, 0⟩
abbrev F.SMOKE_CNT_HDR_FAIL_V : Fld := ⟨.SMOKE_CNT_HDR_FAIL, 0, 32, .rc, 0⟩
abbrev F.SMOKE_CNT_PAY_FAIL_V : Fld := ⟨.SMOKE_CNT_PAY_FAIL, 0, 32, .rc, 0⟩
abbrev F.SMOKE_CNT_CAPTURED_V : Fld := ⟨.SMOKE_CNT_CAPTURED, 0, 32, .rc, 0⟩
abbrev F.SMOKE_CNT_BAD_MSG_V : Fld := ⟨.SMOKE_CNT_BAD_MSG, 0, 32, .rc, 0⟩
abbrev F.SMOKE_CNT_DROPPED_TX : Fld := ⟨.SMOKE_CNT_DROPPED, 16, 16, .rc, 0⟩
abbrev F.SMOKE_CNT_DROPPED_RX : Fld := ⟨.SMOKE_CNT_DROPPED, 0, 16, .rc, 0⟩
abbrev F.TINDER_CTL_RETRAIN : Fld := ⟨.TINDER_CTL, 3, 1, .wo, 0⟩
abbrev F.TINDER_CTL_SSC_EN : Fld := ⟨.TINDER_CTL, 2, 1, .rw, 1⟩
abbrev F.TINDER_CTL_EQ_ADAPT : Fld := ⟨.TINDER_CTL, 1, 1, .rw, 1⟩
abbrev F.TINDER_CTL_FALLBACK_EN : Fld := ⟨.TINDER_CTL, 0, 1, .rw, 1⟩
abbrev F.TINDER_STATUS_RETRAINS : Fld := ⟨.TINDER_STATUS, 24, 8, .ro, 0⟩
abbrev F.TINDER_STATUS_WIDTH : Fld := ⟨.TINDER_STATUS, 16, 1, .ro, 0⟩
abbrev F.TINDER_STATUS_MAP : Fld := ⟨.TINDER_STATUS, 8, 8, .ro, 0⟩
abbrev F.TINDER_STATUS_POL : Fld := ⟨.TINDER_STATUS, 4, 4, .ro, 0⟩
abbrev F.TINDER_STATUS_STATE : Fld := ⟨.TINDER_STATUS, 0, 3, .ro, 0⟩
abbrev F.TINDER_EQ_PEAK_0 : Fld := ⟨.TINDER_EQ, 0, 4, .rw, 7⟩
abbrev F.TINDER_EQ_PEAK_1 : Fld := ⟨.TINDER_EQ, 4, 4, .rw, 7⟩
abbrev F.TINDER_EQ_PEAK_2 : Fld := ⟨.TINDER_EQ, 8, 4, .rw, 7⟩
abbrev F.TINDER_EQ_PEAK_3 : Fld := ⟨.TINDER_EQ, 12, 4, .rw, 7⟩
abbrev F.TINDER_ERR_CODE : Fld := ⟨.TINDER_ERR, 16, 16, .rc, 0⟩
abbrev F.TINDER_ERR_PACKET : Fld := ⟨.TINDER_ERR, 8, 8, .rc, 0⟩
abbrev F.TINDER_ERR_REPLAY : Fld := ⟨.TINDER_ERR, 0, 8, .rc, 0⟩
abbrev F.TINDER_SESSION_POSTED_ERR : Fld := ⟨.TINDER_SESSION, 16, 1, .w1c, 0⟩
abbrev F.TINDER_SESSION_OUTSTANDING : Fld := ⟨.TINDER_SESSION, 8, 8, .ro, 0⟩
abbrev F.TINDER_SESSION_PRIV : Fld := ⟨.TINDER_SESSION, 6, 2, .ro, 0⟩
abbrev F.TINDER_SESSION_ID : Fld := ⟨.TINDER_SESSION, 0, 4, .ro, 0⟩
abbrev F.TINDER_SESSION_ADDR_ADDR : Fld := ⟨.TINDER_SESSION_ADDR, 0, 32, .ro, 0⟩
abbrev F.TINDER_AUTH_LOCKOUT : Fld := ⟨.TINDER_AUTH, 8, 1, .ro, 0⟩
abbrev F.TINDER_AUTH_FAILURES : Fld := ⟨.TINDER_AUTH, 0, 8, .rc, 0⟩
abbrev F.SVC_SPI_STATUS_PRIV : Fld := ⟨.SVC_SPI_STATUS, 8, 2, .ro, 0⟩
abbrev F.SVC_SPI_STATUS_LAST : Fld := ⟨.SVC_SPI_STATUS, 0, 8, .ro, 0⟩
abbrev F.IRQ_COMPLETE_N : Fld := ⟨.IRQ_COMPLETE, 12, 4, .wo, 0⟩
abbrev F.IRQ_COMPLETE_SOURCE : Fld := ⟨.IRQ_COMPLETE, 0, 9, .wo, 0⟩
abbrev F.IRQ_SW_SET_SOURCE : Fld := ⟨.IRQ_SW_SET, 0, 9, .wo, 0⟩
abbrev F.IRQ_HOST_ID_VALID : Fld := ⟨.IRQ_HOST_ID, 31, 1, .ro, 0⟩
abbrev F.IRQ_HOST_ID_SOURCE : Fld := ⟨.IRQ_HOST_ID, 0, 9, .ro, 0⟩
abbrev F.IRQ_STATUS_SATURATED : Fld := ⟨.IRQ_STATUS, 16, 16, .rc, 0⟩
abbrev F.IRQ_STATUS_HOST_ACTIVE : Fld := ⟨.IRQ_STATUS, 8, 5, .ro, 0⟩
abbrev F.IRQ_STATUS_SPURIOUS : Fld := ⟨.IRQ_STATUS, 0, 8, .rc, 0⟩
abbrev F.IRQ_MASK_MASK : Fld := ⟨.IRQ_MASK, 0, 32, .rw, 0xFFFFFFFF⟩
abbrev F.IRQ_PENDING_PENDING : Fld := ⟨.IRQ_PENDING, 0, 32, .rw, 0⟩
abbrev F.IRQ_ACTIVE_ACTIVE : Fld := ⟨.IRQ_ACTIVE, 0, 32, .ro, 0⟩
abbrev F.IRQ_SRC_ACTIVE : Fld := ⟨.IRQ_SRC, 31, 1, .ro, 0⟩
abbrev F.IRQ_SRC_PENDING : Fld := ⟨.IRQ_SRC, 30, 1, .ro, 0⟩
abbrev F.IRQ_SRC_COUNT : Fld := ⟨.IRQ_SRC, 24, 4, .ro, 0⟩
abbrev F.IRQ_SRC_MASK : Fld := ⟨.IRQ_SRC, 20, 1, .rw, 1⟩
abbrev F.IRQ_SRC_MNT_TARGET : Fld := ⟨.IRQ_SRC, 16, 4, .rw, 8⟩
abbrev F.IRQ_SRC_SVC_TARGET : Fld := ⟨.IRQ_SRC, 8, 4, .rw, 0xF⟩
abbrev F.IRQ_SRC_LEVEL : Fld := ⟨.IRQ_SRC, 4, 1, .rw, 0⟩
abbrev F.IRQ_SRC_CUR_TARGET : Fld := ⟨.IRQ_SRC, 0, 4, .ro, 0⟩
abbrev F.MEMP_CTL_PERIOD : Fld := ⟨.MEMP_CTL, 8, 8, .rw, 0xA⟩
abbrev F.MEMP_CTL_REPAIR_EN : Fld := ⟨.MEMP_CTL, 1, 1, .rw, 1⟩
abbrev F.MEMP_CTL_SCRUB_EN : Fld := ⟨.MEMP_CTL, 0, 1, .rw, 1⟩
abbrev F.MEMP_STATUS_LOG_LOST : Fld := ⟨.MEMP_STATUS, 24, 8, .rc, 0⟩
abbrev F.MEMP_STATUS_LOG_COUNT : Fld := ⟨.MEMP_STATUS, 8, 5, .ro, 0⟩
abbrev F.MEMP_STATUS_SCRUB_LATE : Fld := ⟨.MEMP_STATUS, 1, 1, .w1c, 0⟩
abbrev F.MEMP_STATUS_ARMED : Fld := ⟨.MEMP_STATUS, 0, 1, .ro, 0⟩
abbrev F.MEMP_LOG_LO_WORD : Fld := ⟨.MEMP_LOG_LO, 0, 24, .ro, 0⟩
abbrev F.MEMP_LOG_HI_KIND : Fld := ⟨.MEMP_LOG_HI, 28, 4, .ro, 0⟩
abbrev F.MEMP_LOG_HI_REGION : Fld := ⟨.MEMP_LOG_HI, 24, 4, .ro, 0⟩
abbrev F.MEMP_LOG_HI_BIT : Fld := ⟨.MEMP_LOG_HI, 16, 8, .ro, 0⟩
abbrev F.MEMP_LOG_HI_COPY : Fld := ⟨.MEMP_LOG_HI, 14, 2, .ro, 0⟩
abbrev F.MEMP_LOG_POP_POP : Fld := ⟨.MEMP_LOG_POP, 0, 32, .wo, 0⟩
abbrev F.MEMP_INJECT_ADDR_WORD : Fld := ⟨.MEMP_INJECT_ADDR, 0, 24, .rw, 0⟩
abbrev F.MEMP_INJECT_DATA_LO_XOR : Fld := ⟨.MEMP_INJECT_DATA_LO, 0, 32, .rw, 0⟩
abbrev F.MEMP_INJECT_DATA_HI_XOR : Fld := ⟨.MEMP_INJECT_DATA_HI, 0, 32, .rw, 0⟩
abbrev F.MEMP_INJECT_CTL_CHECK_XOR : Fld := ⟨.MEMP_INJECT_CTL, 24, 8, .rw, 0⟩
abbrev F.MEMP_INJECT_CTL_COPY : Fld := ⟨.MEMP_INJECT_CTL, 16, 2, .rw, 0⟩
abbrev F.MEMP_INJECT_CTL_REGION : Fld := ⟨.MEMP_INJECT_CTL, 8, 4, .rw, 0⟩
abbrev F.MEMP_INJECT_CTL_ARM : Fld := ⟨.MEMP_INJECT_CTL, 0, 1, .rw, 0⟩
abbrev F.MEMP_RAW_LO_DATA : Fld := ⟨.MEMP_RAW_LO, 0, 32, .ro, 0⟩
abbrev F.MEMP_RAW_HI_DATA : Fld := ⟨.MEMP_RAW_HI, 0, 32, .ro, 0⟩
abbrev F.MEMP_RAW_CHECK_DATA : Fld := ⟨.MEMP_RAW_CHECK, 0, 8, .ro, 0⟩
abbrev F.MEMP_REG_CNT_CORRECTED : Fld := ⟨.MEMP_REG_CNT, 16, 16, .rc, 0⟩
abbrev F.MEMP_REG_CNT_UNCORRECTABLE : Fld := ⟨.MEMP_REG_CNT, 8, 8, .rc, 0⟩
abbrev F.MEMP_REG_CNT_HARD : Fld := ⟨.MEMP_REG_CNT, 0, 8, .rc, 0⟩
abbrev F.MEMP_REG_STATUS_PASSES : Fld := ⟨.MEMP_REG_STATUS, 16, 16, .ro, 0⟩
abbrev F.MEMP_REG_STATUS_SPARES_LEFT : Fld := ⟨.MEMP_REG_STATUS, 0, 8, .ro, 0⟩
abbrev F.CHAR_STATUS_LO_LATCHED : Fld := ⟨.CHAR_STATUS_LO, 0, 32, .w1c, 0⟩
abbrev F.CHAR_STATUS_HI_LATCHED : Fld := ⟨.CHAR_STATUS_HI, 0, 32, .w1c, 0⟩
abbrev F.FAULT_BUSY_LO_BUSY : Fld := ⟨.FAULT_BUSY_LO, 0, 32, .ro, 0⟩
abbrev F.FAULT_BUSY_HI_BUSY : Fld := ⟨.FAULT_BUSY_HI, 0, 32, .ro, 0⟩
abbrev F.FAULT_ALIVE_CAUSE : Fld := ⟨.FAULT_ALIVE, 16, 8, .ro, 0xFF⟩
abbrev F.FAULT_ALIVE_RESUME : Fld := ⟨.FAULT_ALIVE, 9, 1, .wo, 0⟩
abbrev F.FAULT_ALIVE_STOP : Fld := ⟨.FAULT_ALIVE, 8, 1, .wo, 0⟩
abbrev F.FAULT_ALIVE_RUNNING : Fld := ⟨.FAULT_ALIVE, 0, 1, .ro, 1⟩
abbrev F.FAULT_LAST_RESET_VALID : Fld := ⟨.FAULT_LAST_RESET, 31, 1, .w1c, 0⟩
abbrev F.FAULT_LAST_RESET_COUNT : Fld := ⟨.FAULT_LAST_RESET, 8, 8, .ro, 0⟩
abbrev F.FAULT_LAST_RESET_SOURCE : Fld := ⟨.FAULT_LAST_RESET, 0, 6, .ro, 0⟩
abbrev F.FAULT_SW_SET_RAISE : Fld := ⟨.FAULT_SW_SET, 0, 1, .wo, 0⟩
abbrev F.FAULT_NMT_VALID : Fld := ⟨.FAULT_NMT, 31, 1, .ro, 0⟩
abbrev F.FAULT_NMT_QUEUED : Fld := ⟨.FAULT_NMT, 8, 6, .ro, 0⟩
abbrev F.FAULT_NMT_SOURCE : Fld := ⟨.FAULT_NMT, 0, 6, .ro, 0⟩
abbrev F.FAULT_REACT_NMT_BANK : Fld := ⟨.FAULT_REACT, 8, 3, .tv, 0⟩
abbrev F.FAULT_REACT_CHIP_RESET : Fld := ⟨.FAULT_REACT, 4, 1, .tv, 0⟩
abbrev F.FAULT_REACT_ALIVE_STOP : Fld := ⟨.FAULT_REACT, 3, 1, .tv, 0⟩
abbrev F.FAULT_REACT_BLOCK_RESET : Fld := ⟨.FAULT_REACT, 2, 1, .tv, 0⟩
abbrev F.FAULT_REACT_NMT : Fld := ⟨.FAULT_REACT, 1, 1, .tv, 0⟩
abbrev F.FAULT_REACT_IRQ : Fld := ⟨.FAULT_REACT, 0, 1, .tv, 0⟩
abbrev F.FAULT_DETAIL_TIME : Fld := ⟨.FAULT_DETAIL, 16, 16, .ro, 0⟩
abbrev F.FAULT_DETAIL_CAUSE : Fld := ⟨.FAULT_DETAIL, 8, 8, .ro, 0⟩
abbrev F.FAULT_DETAIL_INSTANCE : Fld := ⟨.FAULT_DETAIL, 0, 8, .ro, 0⟩
abbrev F.KILN_CTL_STOP : Fld := ⟨.KILN_CTL, 1, 1, .wo, 0⟩
abbrev F.KILN_CTL_RUN_EN : Fld := ⟨.KILN_CTL, 0, 1, .rw, 1⟩
abbrev F.KILN_CFG_PERIOD : Fld := ⟨.KILN_CFG, 24, 8, .rw, 0x3C⟩
abbrev F.KILN_CFG_RETRY : Fld := ⟨.KILN_CFG, 8, 8, .rw, 5⟩
abbrev F.KILN_CFG_GATE : Fld := ⟨.KILN_CFG, 0, 8, .rw, 0xA⟩
abbrev F.KILN_STATUS_FAILED_COUNT : Fld := ⟨.KILN_STATUS, 24, 8, .ro, 0⟩
abbrev F.KILN_STATUS_UNTESTABLE_COUNT : Fld := ⟨.KILN_STATUS, 16, 8, .ro, 0⟩
abbrev F.KILN_STATUS_CURRENT : Fld := ⟨.KILN_STATUS, 8, 8, .ro, 0⟩
abbrev F.KILN_STATUS_FATAL : Fld := ⟨.KILN_STATUS, 3, 1, .ro, 0⟩
abbrev F.KILN_STATUS_STARTUP_FAIL : Fld := ⟨.KILN_STATUS, 2, 1, .ro, 0⟩
abbrev F.KILN_STATUS_STARTUP_DONE : Fld := ⟨.KILN_STATUS, 1, 1, .ro, 0⟩
abbrev F.KILN_STATUS_BUSY : Fld := ⟨.KILN_STATUS, 0, 1, .ro, 0⟩
abbrev F.KILN_LAST_LO_EXPECTED : Fld := ⟨.KILN_LAST_LO, 16, 16, .ro, 0⟩
abbrev F.KILN_LAST_LO_STEPS : Fld := ⟨.KILN_LAST_LO, 0, 16, .ro, 0⟩
abbrev F.KILN_LAST_HI_REGION : Fld := ⟨.KILN_LAST_HI, 8, 8, .ro, 0⟩
abbrev F.KILN_LAST_HI_DONE : Fld := ⟨.KILN_LAST_HI, 7, 1, .ro, 0⟩
abbrev F.KILN_LAST_HI_RESULT : Fld := ⟨.KILN_LAST_HI, 0, 3, .ro, 0⟩
abbrev F.KILN_FAIL_LO_WORD : Fld := ⟨.KILN_FAIL_LO, 0, 24, .ro, 0⟩
abbrev F.KILN_FAIL_HI_REGION : Fld := ⟨.KILN_FAIL_HI, 24, 8, .ro, 0⟩
abbrev F.KILN_FAIL_HI_BIT : Fld := ⟨.KILN_FAIL_HI, 16, 8, .ro, 0⟩
abbrev F.KILN_FAIL_HI_KIND : Fld := ⟨.KILN_FAIL_HI, 8, 8, .ro, 0⟩
abbrev F.KILN_FAIL_HI_VALID : Fld := ⟨.KILN_FAIL_HI, 0, 1, .w1c, 0⟩
abbrev F.KILN_EVENT_REPAIRED : Fld := ⟨.KILN_EVENT, 3, 1, .w1c, 0⟩
abbrev F.KILN_EVENT_UNTESTABLE : Fld := ⟨.KILN_EVENT, 2, 1, .w1c, 0⟩
abbrev F.KILN_EVENT_FAIL : Fld := ⟨.KILN_EVENT, 1, 1, .w1c, 0⟩
abbrev F.KILN_EVENT_STARTUP_DONE : Fld := ⟨.KILN_EVENT, 0, 1, .w1c, 0⟩
abbrev F.KILN_EVENT_EN_EN : Fld := ⟨.KILN_EVENT_EN, 0, 4, .rw, 7⟩
abbrev F.KILN_REG_PASSES : Fld := ⟨.KILN_REG, 24, 8, .ro, 0⟩
abbrev F.KILN_REG_ABORTS : Fld := ⟨.KILN_REG, 16, 4, .ro, 0⟩
abbrev F.KILN_REG_REPAIRED : Fld := ⟨.KILN_REG, 9, 1, .ro, 0⟩
abbrev F.KILN_REG_UNTESTABLE : Fld := ⟨.KILN_REG, 8, 1, .ro, 0⟩
abbrev F.KILN_REG_STATE : Fld := ⟨.KILN_REG, 0, 3, .ro, 0⟩
abbrev F.MCV_IN_SETTLE : Fld := ⟨.MCV_IN, 0, 4, .rw, 4⟩
abbrev F.MCV_SIM_TRIG_GO : Fld := ⟨.MCV_SIM_TRIG, 0, 8, .wo, 0⟩
abbrev F.MCV_CAP_CTL_LEN : Fld := ⟨.MCV_CAP_CTL, 24, 8, .rw, 0xFF⟩
abbrev F.MCV_CAP_CTL_ACQ : Fld := ⟨.MCV_CAP_CTL, 20, 4, .rw, 4⟩
abbrev F.MCV_CAP_CTL_INPUT : Fld := ⟨.MCV_CAP_CTL, 12, 5, .rw, 0⟩
abbrev F.MCV_CAP_CTL_IRQ : Fld := ⟨.MCV_CAP_CTL, 3, 1, .rw, 1⟩
abbrev F.MCV_CAP_CTL_STOP : Fld := ⟨.MCV_CAP_CTL, 1, 1, .wo, 0⟩
abbrev F.MCV_CAP_CTL_START : Fld := ⟨.MCV_CAP_CTL, 0, 1, .wo, 0⟩
abbrev F.MCV_CAP_STATUS_COUNT : Fld := ⟨.MCV_CAP_STATUS, 8, 9, .ro, 0⟩
abbrev F.MCV_CAP_STATUS_ABANDONED : Fld := ⟨.MCV_CAP_STATUS, 2, 1, .ro, 0⟩
abbrev F.MCV_CAP_STATUS_DONE : Fld := ⟨.MCV_CAP_STATUS, 1, 1, .ro, 0⟩
abbrev F.MCV_CAP_STATUS_BUSY : Fld := ⟨.MCV_CAP_STATUS, 0, 1, .ro, 0⟩
abbrev F.MCV_CAP_TS_LO_TIME : Fld := ⟨.MCV_CAP_TS_LO, 0, 32, .ro, 0⟩
abbrev F.MCV_CAP_TS_HI_TIME : Fld := ⟨.MCV_CAP_TS_HI, 0, 32, .ro, 0⟩
abbrev F.MCV_CAP_ADDR_ENTRY : Fld := ⟨.MCV_CAP_ADDR, 0, 8, .rw, 0⟩
abbrev F.MCV_CAP_DATA_MISSED : Fld := ⟨.MCV_CAP_DATA, 15, 1, .ro, 0⟩
abbrev F.MCV_CAP_DATA_SHORT_ACQ : Fld := ⟨.MCV_CAP_DATA, 14, 1, .ro, 0⟩
abbrev F.MCV_CAP_DATA_DATA : Fld := ⟨.MCV_CAP_DATA, 0, 12, .ro, 0⟩
abbrev F.MCV_CTL_LEN : Fld := ⟨.MCV_CTL, 8, 4, .rw, 0⟩
abbrev F.MCV_CTL_IRQ_URG : Fld := ⟨.MCV_CTL, 7, 1, .rw, 1⟩
abbrev F.MCV_CTL_IRQ_SEQ : Fld := ⟨.MCV_CTL, 6, 1, .rw, 1⟩
abbrev F.MCV_CTL_TRIG : Fld := ⟨.MCV_CTL, 4, 2, .rw, 0⟩
abbrev F.MCV_CTL_LP : Fld := ⟨.MCV_CTL, 3, 1, .rw, 0⟩
abbrev F.MCV_CTL_STOP : Fld := ⟨.MCV_CTL, 1, 1, .wo, 0⟩
abbrev F.MCV_CTL_GO : Fld := ⟨.MCV_CTL, 0, 1, .wo, 0⟩
abbrev F.MCV_PERIOD_PERIOD : Fld := ⟨.MCV_PERIOD, 0, 24, .rw, 0x3E8⟩
abbrev F.MCV_STATUS_UNREAD : Fld := ⟨.MCV_STATUS, 24, 8, .rc, 0⟩
abbrev F.MCV_STATUS_OVERRUNS : Fld := ⟨.MCV_STATUS, 16, 8, .rc, 0⟩
abbrev F.MCV_STATUS_ENTRY : Fld := ⟨.MCV_STATUS, 12, 4, .ro, 0⟩
abbrev F.MCV_STATUS_URG_QUEUED : Fld := ⟨.MCV_STATUS, 4, 2, .ro, 0⟩
abbrev F.MCV_STATUS_CAL : Fld := ⟨.MCV_STATUS, 3, 1, .ro, 0⟩
abbrev F.MCV_STATUS_REF_ON : Fld := ⟨.MCV_STATUS, 2, 1, .ro, 0⟩
abbrev F.MCV_STATUS_CAPTURE : Fld := ⟨.MCV_STATUS, 1, 1, .ro, 0⟩
abbrev F.MCV_STATUS_BUSY : Fld := ⟨.MCV_STATUS, 0, 1, .ro, 0⟩
abbrev F.MCV_URGENT_ACQ : Fld := ⟨.MCV_URGENT, 8, 4, .wo, 0⟩
abbrev F.MCV_URGENT_INPUT : Fld := ⟨.MCV_URGENT, 0, 7, .wo, 0⟩
abbrev F.MCV_SEQ_ACQ : Fld := ⟨.MCV_SEQ, 8, 4, .rw, 4⟩
abbrev F.MCV_SEQ_INPUT : Fld := ⟨.MCV_SEQ, 0, 7, .rw, 0⟩
abbrev F.MCV_RESULT_READY : Fld := ⟨.MCV_RESULT, 31, 1, .ro, 0⟩
abbrev F.MCV_RESULT_FRESH : Fld := ⟨.MCV_RESULT, 30, 1, .rc, 0⟩
abbrev F.MCV_RESULT_SHORT_ACQ : Fld := ⟨.MCV_RESULT, 29, 1, .ro, 0⟩
abbrev F.MCV_RESULT_SEQNUM : Fld := ⟨.MCV_RESULT, 16, 8, .ro, 0⟩
abbrev F.MCV_RESULT_DATA : Fld := ⟨.MCV_RESULT, 0, 12, .ro, 0⟩
abbrev F.MCV_URG_RESULT_READY : Fld := ⟨.MCV_URG_RESULT, 31, 1, .ro, 0⟩
abbrev F.MCV_URG_RESULT_FRESH : Fld := ⟨.MCV_URG_RESULT, 30, 1, .rc, 0⟩
abbrev F.MCV_URG_RESULT_SHORT_ACQ : Fld := ⟨.MCV_URG_RESULT, 29, 1, .ro, 0⟩
abbrev F.MCV_URG_RESULT_SEQNUM : Fld := ⟨.MCV_URG_RESULT, 16, 8, .ro, 0⟩
abbrev F.MCV_URG_RESULT_DATA : Fld := ⟨.MCV_URG_RESULT, 0, 12, .ro, 0⟩
abbrev F.PWR_CLK_CTL_CORE_SSC : Fld := ⟨.PWR_CLK_CTL, 2, 1, .rw, 1⟩
abbrev F.PWR_CLK_CTL_AUTO : Fld := ⟨.PWR_CLK_CTL, 1, 1, .rw, 1⟩
abbrev F.PWR_CLK_CTL_REF_SEL : Fld := ⟨.PWR_CLK_CTL, 0, 1, .rw, 0⟩
abbrev F.PWR_CLK_STATUS_SWITCHES : Fld := ⟨.PWR_CLK_STATUS, 8, 8, .rc, 0⟩
abbrev F.PWR_CLK_STATUS_CORE_LOCK : Fld := ⟨.PWR_CLK_STATUS, 5, 1, .ro, 0⟩
abbrev F.PWR_CLK_STATUS_DISAGREE : Fld := ⟨.PWR_CLK_STATUS, 4, 1, .ro, 0⟩
abbrev F.PWR_CLK_STATUS_HOLDOVER : Fld := ⟨.PWR_CLK_STATUS, 3, 1, .ro, 0⟩
abbrev F.PWR_CLK_STATUS_IN_USE : Fld := ⟨.PWR_CLK_STATUS, 2, 1, .ro, 0⟩
abbrev F.PWR_CLK_STATUS_REF_B_OK : Fld := ⟨.PWR_CLK_STATUS, 1, 1, .ro, 0⟩
abbrev F.PWR_CLK_STATUS_REF_A_OK : Fld := ⟨.PWR_CLK_STATUS, 0, 1, .ro, 0⟩
abbrev F.PWR_TIME_LO_TIME : Fld := ⟨.PWR_TIME_LO, 0, 32, .ro, 0⟩
abbrev F.PWR_TIME_HI_TIME : Fld := ⟨.PWR_TIME_HI, 0, 32, .ro, 0⟩
abbrev F.PWR_CFG_PM_EN : Fld := ⟨.PWR_CFG, 8, 1, .rw, 1⟩
abbrev F.PWR_CFG_MARGIN : Fld := ⟨.PWR_CFG, 0, 8, .rw, 2⟩
abbrev F.PWR_BLOCK_REFUSALS : Fld := ⟨.PWR_BLOCK, 16, 16, .rc, 0⟩
abbrev F.PWR_BLOCK_REFUSED : Fld := ⟨.PWR_BLOCK, 15, 1, .w1c, 0⟩
abbrev F.PWR_BLOCK_WAKE_FAIL : Fld := ⟨.PWR_BLOCK, 14, 1, .w1c, 0⟩
abbrev F.PWR_BLOCK_LIMIT : Fld := ⟨.PWR_BLOCK, 10, 2, .rw, 3⟩
abbrev F.PWR_BLOCK_HW_LIMIT : Fld := ⟨.PWR_BLOCK, 8, 2, .ro, 0⟩
abbrev F.PWR_BLOCK_CUR : Fld := ⟨.PWR_BLOCK, 0, 2, .ro, 0⟩
abbrev F.THERM_CFG_GRACE : Fld := ⟨.THERM_CFG, 24, 8, .rw, 0xA⟩
abbrev F.THERM_CFG_WARN : Fld := ⟨.THERM_CFG, 0, 8, .rw, 0x64⟩
abbrev F.THERM_DAMPER_DDR_CAP : Fld := ⟨.THERM_DAMPER, 9, 1, .rw, 1⟩
abbrev F.THERM_DAMPER_PFC : Fld := ⟨.THERM_DAMPER, 8, 1, .rw, 0⟩
abbrev F.THERM_DAMPER_SHAPE : Fld := ⟨.THERM_DAMPER, 0, 5, .rw, 0xC⟩
abbrev F.THERM_CTL_RESTART : Fld := ⟨.THERM_CTL, 1, 1, .wo, 0⟩
abbrev F.THERM_CTL_STOP : Fld := ⟨.THERM_CTL, 0, 1, .wo, 0⟩
abbrev F.THERM_STATUS_RESTART_OK : Fld := ⟨.THERM_STATUS, 27, 1, .ro, 0⟩
abbrev F.THERM_STATUS_STATE : Fld := ⟨.THERM_STATUS, 24, 3, .ro, 0⟩
abbrev F.THERM_STATUS_BROKEN : Fld := ⟨.THERM_STATUS, 16, 5, .ro, 0⟩
abbrev F.THERM_STATUS_HOT_SENSOR : Fld := ⟨.THERM_STATUS, 12, 4, .ro, 0⟩
abbrev F.THERM_STATUS_H : Fld := ⟨.THERM_STATUS, 0, 12, .ro, 0⟩
abbrev F.THERM_EVENT_RESTART_OK : Fld := ⟨.THERM_EVENT, 5, 1, .w1c, 0⟩
abbrev F.THERM_EVENT_BROKEN : Fld := ⟨.THERM_EVENT, 4, 1, .w1c, 0⟩
abbrev F.THERM_EVENT_STOP : Fld := ⟨.THERM_EVENT, 3, 1, .w1c, 0⟩
abbrev F.THERM_EVENT_RELEASE : Fld := ⟨.THERM_EVENT, 2, 1, .w1c, 0⟩
abbrev F.THERM_EVENT_ENFORCE : Fld := ⟨.THERM_EVENT, 1, 1, .w1c, 0⟩
abbrev F.THERM_EVENT_WARN : Fld := ⟨.THERM_EVENT, 0, 1, .w1c, 0⟩
abbrev F.THERM_EVENT_EN_EN : Fld := ⟨.THERM_EVENT_EN, 0, 6, .rw, 0x3F⟩
abbrev F.THERM_SENSOR_BROKEN : Fld := ⟨.THERM_SENSOR, 31, 1, .ro, 0⟩
abbrev F.THERM_SENSOR_CAUSE : Fld := ⟨.THERM_SENSOR, 28, 3, .ro, 0⟩
abbrev F.THERM_SENSOR_CODE : Fld := ⟨.THERM_SENSOR, 0, 12, .ro, 0⟩
abbrev F.PERF_CTL_GLOBAL_EN : Fld := ⟨.PERF_CTL, 0, 1, .rw, 1⟩
abbrev F.PERF_DUMP_CFG_PERIODIC : Fld := ⟨.PERF_DUMP_CFG, 31, 1, .rw, 0⟩
abbrev F.PERF_DUMP_CFG_PERIOD : Fld := ⟨.PERF_DUMP_CFG, 0, 24, .rw, 0x2710⟩
abbrev F.PERF_DUMP_NOW_CLEAR : Fld := ⟨.PERF_DUMP, 1, 1, .wo, 0⟩
abbrev F.PERF_DUMP_NOW : Fld := ⟨.PERF_DUMP, 0, 1, .wo, 0⟩
abbrev F.PERF_STATUS_MIRROR_SKIP : Fld := ⟨.PERF_STATUS, 24, 8, .rc, 0⟩
abbrev F.PERF_STATUS_OVERWRITTEN : Fld := ⟨.PERF_STATUS, 16, 8, .rc, 0⟩
abbrev F.PERF_STATUS_MISSED : Fld := ⟨.PERF_STATUS, 8, 8, .rc, 0⟩
abbrev F.PERF_STATUS_WRITING : Fld := ⟨.PERF_STATUS, 0, 1, .ro, 0⟩
abbrev F.PERF_RING_OVERWRITE : Fld := ⟨.PERF_RING, 16, 1, .rw, 1⟩
abbrev F.PERF_RING_HEAD : Fld := ⟨.PERF_RING, 8, 5, .ro, 1⟩
abbrev F.PERF_RING_TAIL : Fld := ⟨.PERF_RING, 0, 5, .rw, 1⟩
abbrev F.PERF_MIRROR_NEXT : Fld := ⟨.PERF_MIRROR, 24, 8, .ro, 0⟩
abbrev F.PERF_MIRROR_OCCUPIED : Fld := ⟨.PERF_MIRROR, 16, 8, .ro, 0⟩
abbrev F.PERF_MIRROR_CHANNEL : Fld := ⟨.PERF_MIRROR, 8, 5, .rw, 0⟩
abbrev F.PERF_MIRROR_EN : Fld := ⟨.PERF_MIRROR, 0, 1, .rw, 0⟩
abbrev F.PERF_OVF_OVF : Fld := ⟨.PERF_OVF, 0, 32, .w1c, 0⟩
abbrev F.PERF_SEL_EN : Fld := ⟨.PERF_SEL, 31, 1, .rw, 0⟩
abbrev F.PERF_SEL_SAMPLE : Fld := ⟨.PERF_SEL, 24, 6, .rw, 0⟩
abbrev F.PERF_SEL_BANK : Fld := ⟨.PERF_SEL, 16, 4, .ro, 0⟩
abbrev F.PERF_SEL_EVENT : Fld := ⟨.PERF_SEL, 0, 12, .rw, 0⟩
abbrev F.PERF_CNT_LO_VALUE : Fld := ⟨.PERF_CNT_LO, 0, 32, .rw, 0⟩
abbrev F.PERF_CNT_HI_VALUE : Fld := ⟨.PERF_CNT_HI, 0, 32, .rw, 0⟩
abbrev F.SYS_RESET_CTL_SOURCE : Fld := ⟨.SYS_RESET_CTL, 24, 6, .wo, 0⟩
abbrev F.SYS_RESET_CTL_INSTANCE : Fld := ⟨.SYS_RESET_CTL, 16, 8, .wo, 0⟩
abbrev F.SYS_RESET_CTL_BLOCK : Fld := ⟨.SYS_RESET_CTL, 1, 1, .wo, 0⟩
abbrev F.SYS_RESET_CTL_CHIP : Fld := ⟨.SYS_RESET_CTL, 0, 1, .wo, 0⟩
abbrev F.SYS_RESET_CAUSE_COUNT : Fld := ⟨.SYS_RESET_CAUSE, 24, 8, .ro, 0⟩
abbrev F.SYS_RESET_CAUSE_CAUSE : Fld := ⟨.SYS_RESET_CAUSE, 0, 4, .ro, 0⟩
abbrev F.SYS_BOOT_STATUS_RECOVERY : Fld := ⟨.SYS_BOOT_STATUS, 31, 1, .ro, 0⟩
abbrev F.SYS_BOOT_STATUS_FORCED : Fld := ⟨.SYS_BOOT_STATUS, 30, 1, .ro, 0⟩
abbrev F.SYS_BOOT_STATUS_STAGE : Fld := ⟨.SYS_BOOT_STATUS, 24, 3, .ro, 0⟩
abbrev F.SYS_BOOT_STATUS_BANK : Fld := ⟨.SYS_BOOT_STATUS, 20, 1, .ro, 0⟩
abbrev F.SYS_BOOT_STATUS_BANK1_RESULT : Fld := ⟨.SYS_BOOT_STATUS, 16, 4, .ro, 0⟩
abbrev F.SYS_BOOT_STATUS_BANK0_RESULT : Fld := ⟨.SYS_BOOT_STATUS, 12, 4, .ro, 0⟩
abbrev F.SYS_BOOT_STATUS_WRITE_FAILS : Fld := ⟨.SYS_BOOT_STATUS, 0, 8, .ro, 0⟩
abbrev F.SYS_IMAGE_VERSION_VALUE : Fld := ⟨.SYS_IMAGE_VERSION, 0, 32, .ro, 0⟩
abbrev F.SYS_EPOCH_VALUE : Fld := ⟨.SYS_EPOCH, 0, 32, .ro, 0⟩
abbrev F.SYS_IMAGE_PTR_LO_BANK : Fld := ⟨.SYS_IMAGE_PTR_LO, 0, 1, .tv, 0⟩
abbrev F.SYS_IMAGE_PTR_HI_GEN : Fld := ⟨.SYS_IMAGE_PTR_HI, 0, 32, .tv, 0⟩
abbrev F.SYS_AUTH_NONCE_LO_NONCE : Fld := ⟨.SYS_AUTH_NONCE_LO, 0, 32, .ro, 0⟩
abbrev F.SYS_AUTH_NONCE_HI_NONCE : Fld := ⟨.SYS_AUTH_NONCE_HI, 0, 32, .ro, 0⟩
abbrev F.SYS_AUTH_RESP_MAC : Fld := ⟨.SYS_AUTH_RESP, 0, 32, .wo, 0⟩
abbrev F.SYS_AUTH_REQ_PRIV : Fld := ⟨.SYS_AUTH_REQ, 0, 2, .wo, 0⟩
abbrev F.PEAT_ADDR_ADDR : Fld := ⟨.PEAT_ADDR, 2, 23, .rw, 0⟩
abbrev F.PEAT_DATA_DATA : Fld := ⟨.PEAT_DATA, 0, 32, .rw, 0⟩
abbrev F.PEAT_CMD_BANK : Fld := ⟨.PEAT_CMD, 4, 1, .wo, 0⟩
abbrev F.PEAT_CMD_OP : Fld := ⟨.PEAT_CMD, 0, 2, .wo, 0⟩
abbrev F.PEAT_STATUS_UE_COUNT : Fld := ⟨.PEAT_STATUS, 16, 16, .rc, 0⟩
abbrev F.PEAT_STATUS_RESULT : Fld := ⟨.PEAT_STATUS, 4, 4, .ro, 0⟩
abbrev F.PEAT_STATUS_BUSY : Fld := ⟨.PEAT_STATUS, 0, 1, .ro, 0⟩
abbrev F.IO_SLEW_CTL_BAY_SLEW : Fld := ⟨.IO_SLEW_CTL, 6, 2, .rw, 3⟩
abbrev F.IO_SLEW_CTL_CTRL_SLEW : Fld := ⟨.IO_SLEW_CTL, 4, 2, .rw, 3⟩
abbrev F.IO_SLEW_CTL_JTAG_SLEW : Fld := ⟨.IO_SLEW_CTL, 2, 2, .rw, 1⟩
abbrev F.IO_SLEW_CTL_SPI_SLEW : Fld := ⟨.IO_SLEW_CTL, 0, 2, .rw, 1⟩
abbrev F.IO_BAY_PINS_LPMODE : Fld := ⟨.IO_BAY_PINS, 9, 1, .rw, 1⟩
abbrev F.IO_BAY_PINS_RESET : Fld := ⟨.IO_BAY_PINS, 8, 1, .rw, 1⟩
abbrev F.IO_BAY_PINS_INT_SEEN : Fld := ⟨.IO_BAY_PINS, 3, 1, .w1c, 0⟩
abbrev F.IO_BAY_PINS_PRS_CHG : Fld := ⟨.IO_BAY_PINS, 2, 1, .w1c, 0⟩
abbrev F.IO_BAY_PINS_INT : Fld := ⟨.IO_BAY_PINS, 1, 1, .ro, 0⟩
abbrev F.IO_BAY_PINS_PRESENT : Fld := ⟨.IO_BAY_PINS, 0, 1, .ro, 0⟩
abbrev F.IO_BAY_I2C_CTL_DEV : Fld := ⟨.IO_BAY_I2C_CTL, 24, 7, .rw, 0x50⟩
abbrev F.IO_BAY_I2C_CTL_REG : Fld := ⟨.IO_BAY_I2C_CTL, 16, 8, .rw, 0⟩
abbrev F.IO_BAY_I2C_CTL_LEN : Fld := ⟨.IO_BAY_I2C_CTL, 8, 6, .rw, 1⟩
abbrev F.IO_BAY_I2C_CTL_SPEED : Fld := ⟨.IO_BAY_I2C_CTL, 4, 2, .rw, 1⟩
abbrev F.IO_BAY_I2C_CTL_READ : Fld := ⟨.IO_BAY_I2C_CTL, 1, 1, .rw, 1⟩
abbrev F.IO_BAY_I2C_CTL_GO : Fld := ⟨.IO_BAY_I2C_CTL, 0, 1, .wo, 0⟩
abbrev F.IO_BAY_I2C_STATUS_COUNT : Fld := ⟨.IO_BAY_I2C_STATUS, 16, 6, .ro, 0⟩
abbrev F.IO_BAY_I2C_STATUS_BUSY : Fld := ⟨.IO_BAY_I2C_STATUS, 8, 1, .ro, 0⟩
abbrev F.IO_BAY_I2C_STATUS_RESULT : Fld := ⟨.IO_BAY_I2C_STATUS, 0, 3, .ro, 0⟩
abbrev F.IO_BAY_I2C_DATA_DATA : Fld := ⟨.IO_BAY_I2C_DATA, 0, 32, .rw, 0⟩

/-- The fields of each register, as its table lists them; reserved bits have no field (R9). -/
def Reg.fields : Reg → List Fld
  | .SYS_DEVICE_ID => [F.SYS_DEVICE_ID_VENDOR, F.SYS_DEVICE_ID_PART]
  | .SYS_REVISION => [F.SYS_REVISION_MAJOR, F.SYS_REVISION_MINOR]
  | .SYS_ACCESS_MODE => [F.SYS_ACCESS_MODE_ENTRY_COUNT, F.SYS_ACCESS_MODE_TRANSITION, F.SYS_ACCESS_MODE_ENTER_SERVICE, F.SYS_ACCESS_MODE_MODE]
  | .STK_CTL => [F.STK_CTL_RUN_LIMIT, F.STK_CTL_CMD_TIMEOUT, F.STK_CTL_ADOPTER, F.STK_CTL_ADOPT_EN, F.STK_CTL_RUN]
  | .STK_STATUS => [F.STK_STATUS_PRIV, F.STK_STATUS_HOSTED, F.STK_STATUS_HOST, F.STK_STATUS_STATE]
  | .STK_PC => [F.STK_PC_PC]
  | .STK_FAULT => [F.STK_FAULT_VALID, F.STK_FAULT_COUNT, F.STK_FAULT_CODE]
  | .STK_FAULT_PC => [F.STK_FAULT_PC_PC]
  | .STK_TAGS => [F.STK_TAGS_LATE, F.STK_TAGS_QUARANTINED, F.STK_TAGS_OUTSTANDING]
  | .STK_NEXT_LO => [F.STK_NEXT_LO_TIME]
  | .STK_NEXT_HI => [F.STK_NEXT_HI_TIME]
  | .STK_SLEEP => [F.STK_SLEEP_REFUSALS, F.STK_SLEEP_FLOOR, F.STK_SLEEP_REFUSED]
  | .STK_MBX_STATUS => [F.STK_MBX_STATUS_RSP_DROPPED, F.STK_MBX_STATUS_POST_FULL, F.STK_MBX_STATUS_RSP_COUNT, F.STK_MBX_STATUS_REQ_FREE]
  | .STK_MBX_POST => [F.STK_MBX_POST_POST]
  | .STK_MBX_POP => [F.STK_MBX_POP_POP]
  | .STK_MBX_STAGE => [F.STK_MBX_STAGE_DATA]
  | .STK_MBX_RSP => [F.STK_MBX_RSP_DATA]
  | .STK_ENGINES => [F.STK_ENGINES_FAILED, F.STK_ENGINES_PRESENT]
  | .LANE_STATE => [F.LANE_STATE_FORCE_CAUSE, F.LANE_STATE_FORCED, F.LANE_STATE_REFUSED, F.LANE_STATE_CHANGING, F.LANE_STATE_CUR, F.LANE_STATE_REQ]
  | .LANE_RX_CFG => [F.LANE_RX_CFG_POL_INV, F.LANE_RX_CFG_POL_FORCE, F.LANE_RX_CFG_AC_COUPLED, F.LANE_RX_CFG_LP_ADC, F.LANE_RX_CFG_RATE]
  | .LANE_RX_CTLE => [F.LANE_RX_CTLE_ADAPT_EN, F.LANE_RX_CTLE_POLE, F.LANE_RX_CTLE_PEAK]
  | .LANE_RX_GAIN => [F.LANE_RX_GAIN_TARGET, F.LANE_RX_GAIN_AGC_EN, F.LANE_RX_GAIN_ATTEN, F.LANE_RX_GAIN_FINE]
  | .LANE_RX_CDR => [F.LANE_RX_CDR_FREEZE, F.LANE_RX_CDR_BW]
  | .LANE_RX_ADAPT => [F.LANE_RX_ADAPT_MAIN_POS, F.LANE_RX_ADAPT_MLSE, F.LANE_RX_ADAPT_SEED, F.LANE_RX_ADAPT_FREEZE_ALL, F.LANE_RX_ADAPT_DC_EN, F.LANE_RX_ADAPT_TBL_EN, F.LANE_RX_ADAPT_NLE_EN, F.LANE_RX_ADAPT_FFE_EN]
  | .LANE_RX_MU => [F.LANE_RX_MU_DC_TRK, F.LANE_RX_MU_DC_ACQ, F.LANE_RX_MU_TBL_TRK, F.LANE_RX_MU_TBL_ACQ, F.LANE_RX_MU_NLE_TRK, F.LANE_RX_MU_NLE_ACQ, F.LANE_RX_MU_FFE_TRK, F.LANE_RX_MU_FFE_ACQ]
  | .LANE_SEASON_CMD => [F.LANE_SEASON_CMD_START]
  | .LANE_SEASON_STATUS => [F.LANE_SEASON_STATUS_PASSES, F.LANE_SEASON_STATUS_SPARE_POS, F.LANE_SEASON_STATUS_FAIL_SLICE, F.LANE_SEASON_STATUS_NO_SPARE, F.LANE_SEASON_STATUS_TRIM_LIMIT, F.LANE_SEASON_STATUS_ABANDONED, F.LANE_SEASON_STATUS_BUSY]
  | .LANE_RX_STATUS => [F.LANE_RX_STATUS_FREEZE_CAUSE, F.LANE_RX_STATUS_ACQ_STEP, F.LANE_RX_STATUS_WARM_STALE, F.LANE_RX_STATUS_POL_INV, F.LANE_RX_STATUS_DIVERGED, F.LANE_RX_STATUS_RECONVERGING, F.LANE_RX_STATUS_FROZEN, F.LANE_RX_STATUS_CONVERGED, F.LANE_RX_STATUS_CDR_LOCK, F.LANE_RX_STATUS_OPEN_N, F.LANE_RX_STATUS_OPEN_P, F.LANE_RX_STATUS_SIGNAL]
  | .LANE_RX_FOM => [F.LANE_RX_FOM_MARGIN, F.LANE_RX_FOM_SNR]
  | .LANE_RX_OVR => [F.LANE_RX_OVR_COUNT]
  | .LANE_RX_FREQ => [F.LANE_RX_FREQ_OFFSET]
  | .LANE_RX_LOWMARGIN => [F.LANE_RX_LOWMARGIN_COUNT]
  | .LANE_RX_FOM_THR => [F.LANE_RX_FOM_THR_MARGIN, F.LANE_RX_FOM_THR_LOW_SNR]
  | .LANE_RX_EVENT => [F.LANE_RX_EVENT_WARM_STALE, F.LANE_RX_EVENT_DIVERGED, F.LANE_RX_EVENT_RECONV_SLOW, F.LANE_RX_EVENT_GAIN_CHANGE, F.LANE_RX_EVENT_POL, F.LANE_RX_EVENT_ACQ_TIMEOUT, F.LANE_RX_EVENT_SEASON_FAIL, F.LANE_RX_EVENT_SEASON_DONE, F.LANE_RX_EVENT_CONVERGED, F.LANE_RX_EVENT_CDR, F.LANE_RX_EVENT_OPEN, F.LANE_RX_EVENT_LOS]
  | .LANE_RX_EVENT_EN => [F.LANE_RX_EVENT_EN_EN]
  | .LANE_RX_COEF_ADDR => [F.LANE_RX_COEF_ADDR_INDEX]
  | .LANE_RX_COEF_DATA => [F.LANE_RX_COEF_DATA_VALUE]
  | .LANE_TX_CFG => [F.LANE_TX_CFG_PATTERN, F.LANE_TX_CFG_WARM_TX, F.LANE_TX_CFG_POL_INV, F.LANE_TX_CFG_TX_EN]
  | .LANE_TX_DRV => [F.LANE_TX_DRV_SLEW, F.LANE_TX_DRV_SWING]
  | .LANE_TX_DAC => [F.LANE_TX_DAC_MTH_WIDTH, F.LANE_TX_DAC_MTH_EN, F.LANE_TX_DAC_REF_GAIN]
  | .LANE_TX_SMOKE => [F.LANE_TX_SMOKE_DEPTH_PENDING, F.LANE_TX_SMOKE_DEPTH, F.LANE_TX_SMOKE_RIPPLE_EN]
  | .LANE_TX_STATUS => [F.LANE_TX_STATUS_CAL_FAIL, F.LANE_TX_STATUS_DAC_CAL, F.LANE_TX_STATUS_LIMIT, F.LANE_TX_STATUS_SHORT_PN, F.LANE_TX_STATUS_SHORT_N, F.LANE_TX_STATUS_SHORT_P, F.LANE_TX_STATUS_RIPPLE, F.LANE_TX_STATUS_DRIVING, F.LANE_TX_STATUS_SOURCE]
  | .LANE_TX_EVENT => [F.LANE_TX_EVENT_CAL_FAIL, F.LANE_TX_EVENT_SOURCE, F.LANE_TX_EVENT_UNDERFLOW, F.LANE_TX_EVENT_SAT, F.LANE_TX_EVENT_SHORT]
  | .LANE_TX_EVENT_EN => [F.LANE_TX_EVENT_EN_EN]
  | .LANE_TX_SAT => [F.LANE_TX_SAT_COUNT]
  | .LANE_TX_COMMIT => [F.LANE_TX_COMMIT_COMMIT]
  | .LANE_TX_COEF_ADDR => [F.LANE_TX_COEF_ADDR_SHADOW, F.LANE_TX_COEF_ADDR_INDEX]
  | .LANE_TX_COEF_DATA => [F.LANE_TX_COEF_DATA_VALUE]
  | .BAY_CFG => [F.BAY_CFG_SPLIT]
  | .BAY_ROLE => [F.BAY_ROLE_ROLE_0, F.BAY_ROLE_ROLE_1, F.BAY_ROLE_ROLE_2, F.BAY_ROLE_ROLE_3, F.BAY_ROLE_ROLE_4, F.BAY_ROLE_ROLE_5, F.BAY_ROLE_ROLE_6, F.BAY_ROLE_ROLE_7]
  | .PORT_LANE_STATE => [F.PORT_LANE_STATE_REFUSED, F.PORT_LANE_STATE_CHANGING, F.PORT_LANE_STATE_CUR_MIN, F.PORT_LANE_STATE_REQ]
  | .PORT_CFG => [F.PORT_CFG_SEND_RF, F.PORT_CFG_PRECODE_RX, F.PORT_CFG_PRECODE_TX, F.PORT_CFG_TX_EN, F.PORT_CFG_FORMAT]
  | .PORT_TAG_TX => [F.PORT_TAG_TX_TAG]
  | .PORT_TAG_EXP => [F.PORT_TAG_EXP_TAG]
  | .PORT_TAG_RX => [F.PORT_TAG_RX_TAG]
  | .PORT_STATUS => [F.PORT_STATUS_AM_MISS, F.PORT_STATUS_MISMATCH_CAUSE, F.PORT_STATUS_MISMATCH, F.PORT_STATUS_LOCKED, F.PORT_STATUS_REMOTE_FAULT, F.PORT_STATUS_LOCAL_FAULT, F.PORT_STATUS_DEGRADED, F.PORT_STATUS_FEC_FAIL, F.PORT_STATUS_SKEW_FAIL, F.PORT_STATUS_MAP_FAIL, F.PORT_STATUS_TX_READY, F.PORT_STATUS_RX_READY]
  | .PORT_LANE_MAP => [F.PORT_LANE_MAP_REVERSED, F.PORT_LANE_MAP_LOGICAL_0, F.PORT_LANE_MAP_LOGICAL_1, F.PORT_LANE_MAP_LOGICAL_2, F.PORT_LANE_MAP_LOGICAL_3, F.PORT_LANE_MAP_LOGICAL_4, F.PORT_LANE_MAP_LOGICAL_5, F.PORT_LANE_MAP_LOGICAL_6, F.PORT_LANE_MAP_LOGICAL_7]
  | .PORT_POL => [F.PORT_POL_INV]
  | .PORT_SKEW => [F.PORT_SKEW_SKEW]
  | .PORT_FEC_THR => [F.PORT_FEC_THR_DEG_THR, F.PORT_FEC_THR_UNCOR_THR]
  | .PORT_EVENT => [F.PORT_EVENT_FAULT, F.PORT_EVENT_POL, F.PORT_EVENT_MAP, F.PORT_EVENT_MISMATCH, F.PORT_EVENT_DEGRADED, F.PORT_EVENT_FEC_FAIL, F.PORT_EVENT_TX, F.PORT_EVENT_RX]
  | .PORT_EVENT_EN => [F.PORT_EVENT_EN_EN]
  | .PORT_FEC_CW_LO => [F.PORT_FEC_CW_LO_V]
  | .PORT_FEC_CW_HI => [F.PORT_FEC_CW_HI_V]
  | .PORT_FEC_CORR => [F.PORT_FEC_CORR_V]
  | .PORT_FEC_UNCOR => [F.PORT_FEC_UNCOR_V]
  | .PORT_FEC_SYM => [F.PORT_FEC_SYM_V]
  | .PORT_FEC_INNER_C1 => [F.PORT_FEC_INNER_C1_V]
  | .PORT_FEC_INNER_C2 => [F.PORT_FEC_INNER_C2_V]
  | .PORT_FEC_INNER_DUE => [F.PORT_FEC_INNER_DUE_V]
  | .TUN_CFG => [F.TUN_CFG_FLUSH, F.TUN_CFG_PORT, F.TUN_CFG_PAUSE_EN, F.TUN_CFG_BAD_FCS, F.TUN_CFG_RX_EN, F.TUN_CFG_TX_EN]
  | .TUN_LIMITS => [F.TUN_LIMITS_MAX_FRAME, F.TUN_LIMITS_RATE]
  | .TUN_STATUS => [F.TUN_STATUS_ROLL_RX, F.TUN_STATUS_ROLL_TX, F.TUN_STATUS_RESYNC, F.TUN_STATUS_RX_PHASE, F.TUN_STATUS_TX_PHASE, F.TUN_STATUS_RX_STATE, F.TUN_STATUS_TX_STATE]
  | .TUN_TX_SEQ_LO => [F.TUN_TX_SEQ_LO_SEQ]
  | .TUN_TX_SEQ_HI => [F.TUN_TX_SEQ_HI_SEQ]
  | .TUN_RX_DEL_LO => [F.TUN_RX_DEL_LO_D]
  | .TUN_RX_DEL_HI => [F.TUN_RX_DEL_HI_D]
  | .TUN_RX_HIGH_LO => [F.TUN_RX_HIGH_LO_H]
  | .TUN_RX_HIGH_HI => [F.TUN_RX_HIGH_HI_H]
  | .TUN_RX_WIN => [F.TUN_RX_WIN_LOG2]
  | .TUN_ROLL => [F.TUN_ROLL_ABORT, F.TUN_ROLL_START]
  | .TUN_ROLL_CFG => [F.TUN_ROLL_CFG_TIMEOUT, F.TUN_ROLL_CFG_LEAD]
  | .TUN_ROLL_STATUS => [F.TUN_ROLL_STATUS_ID, F.TUN_ROLL_STATUS_RESULT]
  | .TUN_TX_USE => [F.TUN_TX_USE_USE]
  | .TUN_EVENT => [F.TUN_EVENT_RATE_EXCEEDED, F.TUN_EVENT_EPOCH, F.TUN_EVENT_KEY_NEAR, F.TUN_EVENT_ROLL, F.TUN_EVENT_GAP, F.TUN_EVENT_AUTH, F.TUN_EVENT_RESYNC, F.TUN_EVENT_RX_STATE, F.TUN_EVENT_TX_STATE]
  | .TUN_EVENT_EN => [F.TUN_EVENT_EN_EN]
  | .TUN_CNT_FRAMES_IN => [F.TUN_CNT_FRAMES_IN_V]
  | .TUN_CNT_FRAMES_OUT => [F.TUN_CNT_FRAMES_OUT_V]
  | .TUN_CNT_BUNDLES_TX => [F.TUN_CNT_BUNDLES_TX_V]
  | .TUN_CNT_BUNDLES_RX => [F.TUN_CNT_BUNDLES_RX_V]
  | .TUN_CNT_DROP_BLOCKED => [F.TUN_CNT_DROP_BLOCKED_V]
  | .TUN_CNT_DROP_OVERSIZE => [F.TUN_CNT_DROP_OVERSIZE_V]
  | .TUN_CNT_BAD_FCS => [F.TUN_CNT_BAD_FCS_V]
  | .TUN_CNT_AUTH_FAIL_A => [F.TUN_CNT_AUTH_FAIL_A_V]
  | .TUN_CNT_AUTH_FAIL_B => [F.TUN_CNT_AUTH_FAIL_B_V]
  | .TUN_CNT_FALLBACK_OK => [F.TUN_CNT_FALLBACK_OK_V]
  | .TUN_CNT_ERRORED_A => [F.TUN_CNT_ERRORED_A_V]
  | .TUN_CNT_ERRORED_B => [F.TUN_CNT_ERRORED_B_V]
  | .TUN_CNT_REPLAY => [F.TUN_CNT_REPLAY_V]
  | .TUN_CNT_GAP_BUNDLES => [F.TUN_CNT_GAP_BUNDLES_V]
  | .TUN_CNT_LOST_FRAMES => [F.TUN_CNT_LOST_FRAMES_V]
  | .TUN_CNT_FORMAT_ERR => [F.TUN_CNT_FORMAT_ERR_V]
  | .TUN_CNT_CTRL_AUTH_FAIL => [F.TUN_CNT_CTRL_AUTH_FAIL_V]
  | .KEY_STAGE => [F.KEY_STAGE_DATA]
  | .KEY_LOAD => [F.KEY_LOAD_MODE, F.KEY_LOAD_KEK, F.KEY_LOAD_SLOT]
  | .KEY_ZEROISE => [F.KEY_ZEROISE_ALL, F.KEY_ZEROISE_SLOT]
  | .KEY_STATUS => [F.KEY_STATUS_LAST, F.KEY_STATUS_ALL_ZERO, F.KEY_STATUS_TAMPER]
  | .KEY_LIMIT => [F.KEY_LIMIT_LOG2]
  | .CRY_ETHERTYPE => [F.CRY_ETHERTYPE_TYPE]
  | .CRY_MAC_LOCAL_LO => [F.CRY_MAC_LOCAL_LO_ADDR]
  | .CRY_MAC_LOCAL_HI => [F.CRY_MAC_LOCAL_HI_ADDR]
  | .CRY_MAC_PEER_LO => [F.CRY_MAC_PEER_LO_ADDR]
  | .CRY_MAC_PEER_HI => [F.CRY_MAC_PEER_HI_ADDR]
  | .CRY_PEER_EPOCH => [F.CRY_PEER_EPOCH_EPOCH]
  | .CRY_PEER_STATUS => [F.CRY_PEER_STATUS_CHANGED, F.CRY_PEER_STATUS_VALID]
  | .CRY_PIPE_TX => [F.CRY_PIPE_TX_MAP]
  | .CRY_PIPE_RX => [F.CRY_PIPE_RX_MAP]
  | .CRY_PIPE_FAIL_TX => [F.CRY_PIPE_FAIL_TX_MAP]
  | .CRY_PIPE_FAIL_RX => [F.CRY_PIPE_FAIL_RX_MAP]
  | .CRY_NO_TUNNEL => [F.CRY_NO_TUNNEL_COUNT]
  | .CRY_FOREIGN => [F.CRY_FOREIGN_COUNT]
  | .CRY_STRAY => [F.CRY_STRAY_COUNT]
  | .KEY_DESC => [F.KEY_DESC_TUNNEL, F.KEY_DESC_DIR, F.KEY_DESC_PHASE, F.KEY_DESC_STATE]
  | .HOLD_CTL => [F.HOLD_CTL_STOP, F.HOLD_CTL_START]
  | .HOLD_CFG => [F.HOLD_CFG_SSC, F.HOLD_CFG_CHANNELS, F.HOLD_CFG_RATE]
  | .HOLD_STATUS => [F.HOLD_STATUS_LIVE, F.HOLD_STATUS_OVER_BUDGET, F.HOLD_STATUS_SHORT, F.HOLD_STATUS_READY, F.HOLD_STATUS_POLICY, F.HOLD_STATUS_STATE]
  | .HOLD_BUDGET => [F.HOLD_BUDGET_CHARGED, F.HOLD_BUDGET_B]
  | .HOLD_NEED => [F.HOLD_NEED_GB]
  | .HOLD_CORDS_USABLE => [F.HOLD_CORDS_USABLE_CORDS]
  | .HOLD_CORDS_FILLED => [F.HOLD_CORDS_FILLED_CORDS]
  | .HOLD_OCC_RETX => [F.HOLD_OCC_RETX_MIB]
  | .HOLD_OCC_ALIGN => [F.HOLD_OCC_ALIGN_MIB]
  | .HOLD_OCC_RIDE => [F.HOLD_OCC_RIDE_MIB]
  | .HOLD_SCRUB_CTL => [F.HOLD_SCRUB_CTL_RATE, F.HOLD_SCRUB_CTL_EN]
  | .HOLD_SCRUB_STATUS => [F.HOLD_SCRUB_STATUS_PASSES, F.HOLD_SCRUB_STATUS_PROGRESS]
  | .HOLD_BUCKET_CFG => [F.HOLD_BUCKET_CFG_RANK_DEPTH, F.HOLD_BUCKET_CFG_RANK_LEAK, F.HOLD_BUCKET_CFG_ROW_DEPTH, F.HOLD_BUCKET_CFG_ROW_LEAK]
  | .HOLD_PPR_ROW => [F.HOLD_PPR_ROW_RANK, F.HOLD_PPR_ROW_LRANK, F.HOLD_PPR_ROW_BG, F.HOLD_PPR_ROW_BANK, F.HOLD_PPR_ROW_ROW]
  | .HOLD_PPR_CMD => [F.HOLD_PPR_CMD_FROM_QUEUE, F.HOLD_PPR_CMD_HARD, F.HOLD_PPR_CMD_CHANNEL]
  | .HOLD_PPR_STATUS => [F.HOLD_PPR_STATUS_RESULT, F.HOLD_PPR_STATUS_BUSY]
  | .HOLD_ERR_LOG_LO => [F.HOLD_ERR_LOG_LO_BILLET]
  | .HOLD_ERR_LOG_HI => [F.HOLD_ERR_LOG_HI_BURST, F.HOLD_ERR_LOG_HI_CHANNEL, F.HOLD_ERR_LOG_HI_KIND]
  | .HOLD_EVENT => [F.HOLD_EVENT_OVER_BUDGET, F.HOLD_EVENT_PPR_DONE, F.HOLD_EVENT_CANDIDATE, F.HOLD_EVENT_ROW_OVF, F.HOLD_EVENT_RANK_OVF, F.HOLD_EVENT_CLINKER, F.HOLD_EVENT_CH_FAIL, F.HOLD_EVENT_READY]
  | .HOLD_EVENT_EN => [F.HOLD_EVENT_EN_EN]
  | .HOLD_CNT_CLINKERS => [F.HOLD_CNT_CLINKERS_V]
  | .HOLD_CNT_CLINKER_UNUSED => [F.HOLD_CNT_CLINKER_UNUSED_V]
  | .HOLD_CNT_LOST_UNUSED => [F.HOLD_CNT_LOST_UNUSED_V]
  | .HOLD_CNT_CAND_DROPPED => [F.HOLD_CNT_CAND_DROPPED_V]
  | .HOLD_CH_STATUS => [F.HOLD_CH_STATUS_TEMP, F.HOLD_CH_STATUS_CAUSE, F.HOLD_CH_STATUS_STATE]
  | .HOLD_CH_DIMM => [F.HOLD_CH_DIMM_EXCESS, F.HOLD_CH_DIMM_SIZE, F.HOLD_CH_DIMM_STACK, F.HOLD_CH_DIMM_RANKS, F.HOLD_CH_DIMM_WIDTH]
  | .HOLD_CH_CNT_CORRECTED => [F.HOLD_CH_CNT_CORRECTED_V]
  | .HOLD_CH_CNT_UNCORRECTABLE => [F.HOLD_CH_CNT_UNCORRECTABLE_V]
  | .HOLD_CH_CNT_SOFT_REPAIRS => [F.HOLD_CH_CNT_SOFT_REPAIRS_V]
  | .HOLD_CH_CNT_RETRIES => [F.HOLD_CH_CNT_RETRIES_V]
  | .PROT_CFG => [F.PROT_CFG_PREFER, F.PROT_CFG_MODE]
  | .PROT_SWITCH_CTL => [F.PROT_SWITCH_CTL_WHEN_READY, F.PROT_SWITCH_CTL_ACTIVE]
  | .PROT_STATUS => [F.PROT_STATUS_DRAIN, F.PROT_STATUS_RIDE, F.PROT_STATUS_SWITCH_PENDING, F.PROT_STATUS_ACTIVE, F.PROT_STATUS_PATH_B_RX, F.PROT_STATUS_PATH_A_RX, F.PROT_STATUS_PATH_B_TX, F.PROT_STATUS_PATH_A_TX]
  | .PROT_CTL => [F.PROT_CTL_END_RIDE, F.PROT_CTL_RIDE]
  | .PROT_LL_CFG => [F.PROT_LL_CFG_TRIES, F.PROT_LL_CFG_ACK_INT, F.PROT_LL_CFG_REPLAY_WIN]
  | .PROT_RESEND_WAIT => [F.PROT_RESEND_WAIT_WAIT]
  | .PROT_MERGE_CFG => [F.PROT_MERGE_CFG_FIXED, F.PROT_MERGE_CFG_GUARD]
  | .PROT_DELAY_FIX => [F.PROT_DELAY_FIX_DELAY]
  | .PROT_DRAIN => [F.PROT_DRAIN_RATE]
  | .PROT_EVENT => [F.PROT_EVENT_HOLDBACK_DROP, F.PROT_EVENT_LATE_COPY, F.PROT_EVENT_RESEND_EXHAUSTED, F.PROT_EVENT_GAP, F.PROT_EVENT_DRAIN_STALL, F.PROT_EVENT_RIDE, F.PROT_EVENT_SWITCH, F.PROT_EVENT_PATH_B, F.PROT_EVENT_PATH_A]
  | .PROT_EVENT_EN => [F.PROT_EVENT_EN_EN]
  | .PROT_TUN_CFG => [F.PROT_TUN_CFG_RIDE_EN, F.PROT_TUN_CFG_LOSSLESS, F.PROT_TUN_CFG_MERGE]
  | .PROT_TUN_SKEW => [F.PROT_TUN_SKEW_SKEW]
  | .PROT_TUN_DELAY => [F.PROT_TUN_DELAY_DELAY]
  | .PROT_TUN_STATE => [F.PROT_TUN_STATE_RUNS, F.PROT_TUN_STATE_HOLDBACK, F.PROT_TUN_STATE_DRAIN, F.PROT_TUN_STATE_RIDE]
  | .PROT_TUN_BACKLOG => [F.PROT_TUN_BACKLOG_COUNT]
  | .PROT_TUN_UNACKED => [F.PROT_TUN_UNACKED_COUNT]
  | .PROT_TUN_GAP_LO => [F.PROT_TUN_GAP_LO_FIRST]
  | .PROT_TUN_GAP_HI => [F.PROT_TUN_GAP_HI_FIRST]
  | .PROT_TUN_GAP_INFO => [F.PROT_TUN_GAP_INFO_CAUSE, F.PROT_TUN_GAP_INFO_COUNT]
  | .PROT_TUN_CNT_RESEND_TX => [F.PROT_TUN_CNT_RESEND_TX_V]
  | .PROT_TUN_CNT_RESEND_RX => [F.PROT_TUN_CNT_RESEND_RX_V]
  | .PROT_TUN_CNT_RESENT => [F.PROT_TUN_CNT_RESENT_V]
  | .PROT_TUN_CNT_DEADLINE => [F.PROT_TUN_CNT_DEADLINE_V]
  | .PROT_TUN_CNT_LATE_COPY => [F.PROT_TUN_CNT_LATE_COPY_V]
  | .PROT_TUN_CNT_STALE => [F.PROT_TUN_CNT_STALE_V]
  | .PROT_TUN_CNT_HOLDBACK_DROP => [F.PROT_TUN_CNT_HOLDBACK_DROP_V]
  | .PROT_TUN_SINGLE => [F.PROT_TUN_SINGLE_COUNT]
  | .LANE_DEC_CFG => [F.LANE_DEC_CFG_SMOKE_OWNED, F.LANE_DEC_CFG_MIX_EN, F.LANE_DEC_CFG_PROFILE, F.LANE_DEC_CFG_EN]
  | .LANE_DEC_NCO => [F.LANE_DEC_NCO_INC]
  | .LANE_DEC_STATUS => [F.LANE_DEC_STATUS_UNSETTLED_LEFT, F.LANE_DEC_STATUS_TRANSITION_LEFT, F.LANE_DEC_STATUS_INPUT, F.LANE_DEC_STATUS_ACTIVE_BANK, F.LANE_DEC_STATUS_XFADE_BUSY, F.LANE_DEC_STATUS_RUNNING]
  | .LANE_DEC_SWITCH => [F.LANE_DEC_SWITCH_SWITCH]
  | .LANE_DEC_COEF_ADDR => [F.LANE_DEC_COEF_ADDR_INDEX]
  | .LANE_DEC_COEF_DATA => [F.LANE_DEC_COEF_DATA_VALUE]
  | .LANE_DEC_DELAY => [F.LANE_DEC_DELAY_G]
  | .LANE_DEC_CAP_CTL => [F.LANE_DEC_CAP_CTL_LEN, F.LANE_DEC_CAP_CTL_WAIT_SETTLED, F.LANE_DEC_CAP_CTL_STOP, F.LANE_DEC_CAP_CTL_START]
  | .LANE_DEC_CAP_STATUS => [F.LANE_DEC_CAP_STATUS_COUNT, F.LANE_DEC_CAP_STATUS_FLAGS_SEEN, F.LANE_DEC_CAP_STATUS_ABANDONED, F.LANE_DEC_CAP_STATUS_DONE, F.LANE_DEC_CAP_STATUS_BUSY]
  | .LANE_DEC_CAP_TS_LO => [F.LANE_DEC_CAP_TS_LO_TIME]
  | .LANE_DEC_CAP_TS_HI => [F.LANE_DEC_CAP_TS_HI_TIME]
  | .LANE_DEC_CAP_ADDR => [F.LANE_DEC_CAP_ADDR_INDEX]
  | .LANE_DEC_CAP_DATA_LO => [F.LANE_DEC_CAP_DATA_LO_Q, F.LANE_DEC_CAP_DATA_LO_I]
  | .LANE_DEC_CAP_DATA_HI => [F.LANE_DEC_CAP_DATA_HI_FLAGS]
  | .LANE_MON_CTL => [F.LANE_MON_CTL_LOG2, F.LANE_MON_CTL_PHASE, F.LANE_MON_CTL_LEVEL, F.LANE_MON_CTL_LEVEL_EN, F.LANE_MON_CTL_MODE, F.LANE_MON_CTL_STOP, F.LANE_MON_CTL_START]
  | .LANE_MON_STATUS => [F.LANE_MON_STATUS_ABANDONED, F.LANE_MON_STATUS_PAUSED, F.LANE_MON_STATUS_DONE, F.LANE_MON_STATUS_BUSY]
  | .LANE_MON_HIST_ADDR => [F.LANE_MON_HIST_ADDR_BIN]
  | .LANE_MON_HIST_DATA => [F.LANE_MON_HIST_DATA_COUNT]
  | .LANE_MON_HIST_TOTAL => [F.LANE_MON_HIST_TOTAL_COUNT]
  | .LANE_MON_HIST_OVR => [F.LANE_MON_HIST_OVR_COUNT]
  | .LANE_MON_SQ_CFG => [F.LANE_MON_SQ_CFG_LOG2]
  | .LANE_MON_SQ_LEVEL0 => [F.LANE_MON_SQ_LEVEL0_MEAN, F.LANE_MON_SQ_LEVEL0_SIGMA]
  | .LANE_MON_SQ_LEVEL1 => [F.LANE_MON_SQ_LEVEL1_MEAN, F.LANE_MON_SQ_LEVEL1_SIGMA]
  | .LANE_MON_SQ_LEVEL2 => [F.LANE_MON_SQ_LEVEL2_MEAN, F.LANE_MON_SQ_LEVEL2_SIGMA]
  | .LANE_MON_SQ_LEVEL3 => [F.LANE_MON_SQ_LEVEL3_MEAN, F.LANE_MON_SQ_LEVEL3_SIGMA]
  | .LANE_MON_SQ_RLM => [F.LANE_MON_SQ_RLM_VALID, F.LANE_MON_SQ_RLM_RLM]
  | .SMOKE_CFG => [F.SMOKE_CFG_DET_THR, F.SMOKE_CFG_CAP_MARGIN, F.SMOKE_CFG_SYNC, F.SMOKE_CFG_CR, F.SMOKE_CFG_BW, F.SMOKE_CFG_SF]
  | .SMOKE_CTL => [F.SMOKE_CTL_BEACON_INT, F.SMOKE_CTL_CTRL_EN, F.SMOKE_CTL_BEACON_EN, F.SMOKE_CTL_TX_EN, F.SMOKE_CTL_RX_EN]
  | .SMOKE_STATUS => [F.SMOKE_STATUS_LAST_RX, F.SMOKE_STATUS_RX_QUEUE, F.SMOKE_STATUS_TX_QUEUE, F.SMOKE_STATUS_SENDING, F.SMOKE_STATUS_RX_STATE]
  | .SMOKE_EVENT => [F.SMOKE_EVENT_DROPPED, F.SMOKE_EVENT_MISMATCH, F.SMOKE_EVENT_EPOCH, F.SMOKE_EVENT_CAPTURED, F.SMOKE_EVENT_TX_DONE, F.SMOKE_EVENT_RX]
  | .SMOKE_EVENT_EN => [F.SMOKE_EVENT_EN_EN]
  | .SMOKE_TX_POST => [F.SMOKE_TX_POST_LEN, F.SMOKE_TX_POST_MSG]
  | .SMOKE_RX_INFO => [F.SMOKE_RX_INFO_VALID, F.SMOKE_RX_INFO_MSG, F.SMOKE_RX_INFO_LEN, F.SMOKE_RX_INFO_FSEQ]
  | .SMOKE_RX_POP => [F.SMOKE_RX_POP_POP]
  | .SMOKE_PEER_EPOCH => [F.SMOKE_PEER_EPOCH_VALUE]
  | .SMOKE_PEER_DEVICE => [F.SMOKE_PEER_DEVICE_VALUE]
  | .SMOKE_PEER_TAG => [F.SMOKE_PEER_TAG_VALUE]
  | .SMOKE_PEER_INFO => [F.SMOKE_PEER_INFO_RX_SNR, F.SMOKE_PEER_INFO_MISMATCH_CAUSE, F.SMOKE_PEER_INFO_MISMATCH, F.SMOKE_PEER_INFO_VALID, F.SMOKE_PEER_INFO_FLAGS, F.SMOKE_PEER_INFO_REVISION]
  | .SMOKE_LINK => [F.SMOKE_LINK_FREQ, F.SMOKE_LINK_PEAK, F.SMOKE_LINK_SNR]
  | .SMOKE_TX_BUF => [F.SMOKE_TX_BUF_DATA]
  | .SMOKE_RX_BUF => [F.SMOKE_RX_BUF_DATA]
  | .SMOKE_CNT_FRAMES_TX => [F.SMOKE_CNT_FRAMES_TX_V]
  | .SMOKE_CNT_FRAMES_RX => [F.SMOKE_CNT_FRAMES_RX_V]
  | .SMOKE_CNT_DETECTS => [F.SMOKE_CNT_DETECTS_V]
  | .SMOKE_CNT_HDR_FAIL => [F.SMOKE_CNT_HDR_FAIL_V]
  | .SMOKE_CNT_PAY_FAIL => [F.SMOKE_CNT_PAY_FAIL_V]
  | .SMOKE_CNT_CAPTURED => [F.SMOKE_CNT_CAPTURED_V]
  | .SMOKE_CNT_BAD_MSG => [F.SMOKE_CNT_BAD_MSG_V]
  | .SMOKE_CNT_DROPPED => [F.SMOKE_CNT_DROPPED_TX, F.SMOKE_CNT_DROPPED_RX]
  | .TINDER_CTL => [F.TINDER_CTL_RETRAIN, F.TINDER_CTL_SSC_EN, F.TINDER_CTL_EQ_ADAPT, F.TINDER_CTL_FALLBACK_EN]
  | .TINDER_STATUS => [F.TINDER_STATUS_RETRAINS, F.TINDER_STATUS_WIDTH, F.TINDER_STATUS_MAP, F.TINDER_STATUS_POL, F.TINDER_STATUS_STATE]
  | .TINDER_EQ => [F.TINDER_EQ_PEAK_0, F.TINDER_EQ_PEAK_1, F.TINDER_EQ_PEAK_2, F.TINDER_EQ_PEAK_3]
  | .TINDER_ERR => [F.TINDER_ERR_CODE, F.TINDER_ERR_PACKET, F.TINDER_ERR_REPLAY]
  | .TINDER_SESSION => [F.TINDER_SESSION_POSTED_ERR, F.TINDER_SESSION_OUTSTANDING, F.TINDER_SESSION_PRIV, F.TINDER_SESSION_ID]
  | .TINDER_SESSION_ADDR => [F.TINDER_SESSION_ADDR_ADDR]
  | .TINDER_AUTH => [F.TINDER_AUTH_LOCKOUT, F.TINDER_AUTH_FAILURES]
  | .SVC_SPI_STATUS => [F.SVC_SPI_STATUS_PRIV, F.SVC_SPI_STATUS_LAST]
  | .IRQ_COMPLETE => [F.IRQ_COMPLETE_N, F.IRQ_COMPLETE_SOURCE]
  | .IRQ_SW_SET => [F.IRQ_SW_SET_SOURCE]
  | .IRQ_HOST_ID => [F.IRQ_HOST_ID_VALID, F.IRQ_HOST_ID_SOURCE]
  | .IRQ_STATUS => [F.IRQ_STATUS_SATURATED, F.IRQ_STATUS_HOST_ACTIVE, F.IRQ_STATUS_SPURIOUS]
  | .IRQ_MASK => [F.IRQ_MASK_MASK]
  | .IRQ_PENDING => [F.IRQ_PENDING_PENDING]
  | .IRQ_ACTIVE => [F.IRQ_ACTIVE_ACTIVE]
  | .IRQ_SRC => [F.IRQ_SRC_ACTIVE, F.IRQ_SRC_PENDING, F.IRQ_SRC_COUNT, F.IRQ_SRC_MASK, F.IRQ_SRC_MNT_TARGET, F.IRQ_SRC_SVC_TARGET, F.IRQ_SRC_LEVEL, F.IRQ_SRC_CUR_TARGET]
  | .MEMP_CTL => [F.MEMP_CTL_PERIOD, F.MEMP_CTL_REPAIR_EN, F.MEMP_CTL_SCRUB_EN]
  | .MEMP_STATUS => [F.MEMP_STATUS_LOG_LOST, F.MEMP_STATUS_LOG_COUNT, F.MEMP_STATUS_SCRUB_LATE, F.MEMP_STATUS_ARMED]
  | .MEMP_LOG_LO => [F.MEMP_LOG_LO_WORD]
  | .MEMP_LOG_HI => [F.MEMP_LOG_HI_KIND, F.MEMP_LOG_HI_REGION, F.MEMP_LOG_HI_BIT, F.MEMP_LOG_HI_COPY]
  | .MEMP_LOG_POP => [F.MEMP_LOG_POP_POP]
  | .MEMP_INJECT_ADDR => [F.MEMP_INJECT_ADDR_WORD]
  | .MEMP_INJECT_DATA_LO => [F.MEMP_INJECT_DATA_LO_XOR]
  | .MEMP_INJECT_DATA_HI => [F.MEMP_INJECT_DATA_HI_XOR]
  | .MEMP_INJECT_CTL => [F.MEMP_INJECT_CTL_CHECK_XOR, F.MEMP_INJECT_CTL_COPY, F.MEMP_INJECT_CTL_REGION, F.MEMP_INJECT_CTL_ARM]
  | .MEMP_RAW_LO => [F.MEMP_RAW_LO_DATA]
  | .MEMP_RAW_HI => [F.MEMP_RAW_HI_DATA]
  | .MEMP_RAW_CHECK => [F.MEMP_RAW_CHECK_DATA]
  | .MEMP_REG_CNT => [F.MEMP_REG_CNT_CORRECTED, F.MEMP_REG_CNT_UNCORRECTABLE, F.MEMP_REG_CNT_HARD]
  | .MEMP_REG_STATUS => [F.MEMP_REG_STATUS_PASSES, F.MEMP_REG_STATUS_SPARES_LEFT]
  | .CHAR_STATUS_LO => [F.CHAR_STATUS_LO_LATCHED]
  | .CHAR_STATUS_HI => [F.CHAR_STATUS_HI_LATCHED]
  | .FAULT_BUSY_LO => [F.FAULT_BUSY_LO_BUSY]
  | .FAULT_BUSY_HI => [F.FAULT_BUSY_HI_BUSY]
  | .FAULT_ALIVE => [F.FAULT_ALIVE_CAUSE, F.FAULT_ALIVE_RESUME, F.FAULT_ALIVE_STOP, F.FAULT_ALIVE_RUNNING]
  | .FAULT_LAST_RESET => [F.FAULT_LAST_RESET_VALID, F.FAULT_LAST_RESET_COUNT, F.FAULT_LAST_RESET_SOURCE]
  | .FAULT_SW_SET => [F.FAULT_SW_SET_RAISE]
  | .FAULT_NMT => [F.FAULT_NMT_VALID, F.FAULT_NMT_QUEUED, F.FAULT_NMT_SOURCE]
  | .FAULT_REACT => [F.FAULT_REACT_NMT_BANK, F.FAULT_REACT_CHIP_RESET, F.FAULT_REACT_ALIVE_STOP, F.FAULT_REACT_BLOCK_RESET, F.FAULT_REACT_NMT, F.FAULT_REACT_IRQ]
  | .FAULT_DETAIL => [F.FAULT_DETAIL_TIME, F.FAULT_DETAIL_CAUSE, F.FAULT_DETAIL_INSTANCE]
  | .KILN_CTL => [F.KILN_CTL_STOP, F.KILN_CTL_RUN_EN]
  | .KILN_CFG => [F.KILN_CFG_PERIOD, F.KILN_CFG_RETRY, F.KILN_CFG_GATE]
  | .KILN_STATUS => [F.KILN_STATUS_FAILED_COUNT, F.KILN_STATUS_UNTESTABLE_COUNT, F.KILN_STATUS_CURRENT, F.KILN_STATUS_FATAL, F.KILN_STATUS_STARTUP_FAIL, F.KILN_STATUS_STARTUP_DONE, F.KILN_STATUS_BUSY]
  | .KILN_LAST_LO => [F.KILN_LAST_LO_EXPECTED, F.KILN_LAST_LO_STEPS]
  | .KILN_LAST_HI => [F.KILN_LAST_HI_REGION, F.KILN_LAST_HI_DONE, F.KILN_LAST_HI_RESULT]
  | .KILN_FAIL_LO => [F.KILN_FAIL_LO_WORD]
  | .KILN_FAIL_HI => [F.KILN_FAIL_HI_REGION, F.KILN_FAIL_HI_BIT, F.KILN_FAIL_HI_KIND, F.KILN_FAIL_HI_VALID]
  | .KILN_EVENT => [F.KILN_EVENT_REPAIRED, F.KILN_EVENT_UNTESTABLE, F.KILN_EVENT_FAIL, F.KILN_EVENT_STARTUP_DONE]
  | .KILN_EVENT_EN => [F.KILN_EVENT_EN_EN]
  | .KILN_REG => [F.KILN_REG_PASSES, F.KILN_REG_ABORTS, F.KILN_REG_REPAIRED, F.KILN_REG_UNTESTABLE, F.KILN_REG_STATE]
  | .MCV_IN => [F.MCV_IN_SETTLE]
  | .MCV_SIM_TRIG => [F.MCV_SIM_TRIG_GO]
  | .MCV_CAP_CTL => [F.MCV_CAP_CTL_LEN, F.MCV_CAP_CTL_ACQ, F.MCV_CAP_CTL_INPUT, F.MCV_CAP_CTL_IRQ, F.MCV_CAP_CTL_STOP, F.MCV_CAP_CTL_START]
  | .MCV_CAP_STATUS => [F.MCV_CAP_STATUS_COUNT, F.MCV_CAP_STATUS_ABANDONED, F.MCV_CAP_STATUS_DONE, F.MCV_CAP_STATUS_BUSY]
  | .MCV_CAP_TS_LO => [F.MCV_CAP_TS_LO_TIME]
  | .MCV_CAP_TS_HI => [F.MCV_CAP_TS_HI_TIME]
  | .MCV_CAP_ADDR => [F.MCV_CAP_ADDR_ENTRY]
  | .MCV_CAP_DATA => [F.MCV_CAP_DATA_MISSED, F.MCV_CAP_DATA_SHORT_ACQ, F.MCV_CAP_DATA_DATA]
  | .MCV_CTL => [F.MCV_CTL_LEN, F.MCV_CTL_IRQ_URG, F.MCV_CTL_IRQ_SEQ, F.MCV_CTL_TRIG, F.MCV_CTL_LP, F.MCV_CTL_STOP, F.MCV_CTL_GO]
  | .MCV_PERIOD => [F.MCV_PERIOD_PERIOD]
  | .MCV_STATUS => [F.MCV_STATUS_UNREAD, F.MCV_STATUS_OVERRUNS, F.MCV_STATUS_ENTRY, F.MCV_STATUS_URG_QUEUED, F.MCV_STATUS_CAL, F.MCV_STATUS_REF_ON, F.MCV_STATUS_CAPTURE, F.MCV_STATUS_BUSY]
  | .MCV_URGENT => [F.MCV_URGENT_ACQ, F.MCV_URGENT_INPUT]
  | .MCV_SEQ => [F.MCV_SEQ_ACQ, F.MCV_SEQ_INPUT]
  | .MCV_RESULT => [F.MCV_RESULT_READY, F.MCV_RESULT_FRESH, F.MCV_RESULT_SHORT_ACQ, F.MCV_RESULT_SEQNUM, F.MCV_RESULT_DATA]
  | .MCV_URG_RESULT => [F.MCV_URG_RESULT_READY, F.MCV_URG_RESULT_FRESH, F.MCV_URG_RESULT_SHORT_ACQ, F.MCV_URG_RESULT_SEQNUM, F.MCV_URG_RESULT_DATA]
  | .PWR_CLK_CTL => [F.PWR_CLK_CTL_CORE_SSC, F.PWR_CLK_CTL_AUTO, F.PWR_CLK_CTL_REF_SEL]
  | .PWR_CLK_STATUS => [F.PWR_CLK_STATUS_SWITCHES, F.PWR_CLK_STATUS_CORE_LOCK, F.PWR_CLK_STATUS_DISAGREE, F.PWR_CLK_STATUS_HOLDOVER, F.PWR_CLK_STATUS_IN_USE, F.PWR_CLK_STATUS_REF_B_OK, F.PWR_CLK_STATUS_REF_A_OK]
  | .PWR_TIME_LO => [F.PWR_TIME_LO_TIME]
  | .PWR_TIME_HI => [F.PWR_TIME_HI_TIME]
  | .PWR_CFG => [F.PWR_CFG_PM_EN, F.PWR_CFG_MARGIN]
  | .PWR_BLOCK => [F.PWR_BLOCK_REFUSALS, F.PWR_BLOCK_REFUSED, F.PWR_BLOCK_WAKE_FAIL, F.PWR_BLOCK_LIMIT, F.PWR_BLOCK_HW_LIMIT, F.PWR_BLOCK_CUR]
  | .THERM_CFG => [F.THERM_CFG_GRACE, F.THERM_CFG_WARN]
  | .THERM_DAMPER => [F.THERM_DAMPER_DDR_CAP, F.THERM_DAMPER_PFC, F.THERM_DAMPER_SHAPE]
  | .THERM_CTL => [F.THERM_CTL_RESTART, F.THERM_CTL_STOP]
  | .THERM_STATUS => [F.THERM_STATUS_RESTART_OK, F.THERM_STATUS_STATE, F.THERM_STATUS_BROKEN, F.THERM_STATUS_HOT_SENSOR, F.THERM_STATUS_H]
  | .THERM_EVENT => [F.THERM_EVENT_RESTART_OK, F.THERM_EVENT_BROKEN, F.THERM_EVENT_STOP, F.THERM_EVENT_RELEASE, F.THERM_EVENT_ENFORCE, F.THERM_EVENT_WARN]
  | .THERM_EVENT_EN => [F.THERM_EVENT_EN_EN]
  | .THERM_SENSOR => [F.THERM_SENSOR_BROKEN, F.THERM_SENSOR_CAUSE, F.THERM_SENSOR_CODE]
  | .PERF_CTL => [F.PERF_CTL_GLOBAL_EN]
  | .PERF_DUMP_CFG => [F.PERF_DUMP_CFG_PERIODIC, F.PERF_DUMP_CFG_PERIOD]
  | .PERF_DUMP => [F.PERF_DUMP_NOW_CLEAR, F.PERF_DUMP_NOW]
  | .PERF_STATUS => [F.PERF_STATUS_MIRROR_SKIP, F.PERF_STATUS_OVERWRITTEN, F.PERF_STATUS_MISSED, F.PERF_STATUS_WRITING]
  | .PERF_RING => [F.PERF_RING_OVERWRITE, F.PERF_RING_HEAD, F.PERF_RING_TAIL]
  | .PERF_MIRROR => [F.PERF_MIRROR_NEXT, F.PERF_MIRROR_OCCUPIED, F.PERF_MIRROR_CHANNEL, F.PERF_MIRROR_EN]
  | .PERF_OVF => [F.PERF_OVF_OVF]
  | .PERF_SEL => [F.PERF_SEL_EN, F.PERF_SEL_SAMPLE, F.PERF_SEL_BANK, F.PERF_SEL_EVENT]
  | .PERF_CNT_LO => [F.PERF_CNT_LO_VALUE]
  | .PERF_CNT_HI => [F.PERF_CNT_HI_VALUE]
  | .SYS_RESET_CTL => [F.SYS_RESET_CTL_SOURCE, F.SYS_RESET_CTL_INSTANCE, F.SYS_RESET_CTL_BLOCK, F.SYS_RESET_CTL_CHIP]
  | .SYS_RESET_CAUSE => [F.SYS_RESET_CAUSE_COUNT, F.SYS_RESET_CAUSE_CAUSE]
  | .SYS_BOOT_STATUS => [F.SYS_BOOT_STATUS_RECOVERY, F.SYS_BOOT_STATUS_FORCED, F.SYS_BOOT_STATUS_STAGE, F.SYS_BOOT_STATUS_BANK, F.SYS_BOOT_STATUS_BANK1_RESULT, F.SYS_BOOT_STATUS_BANK0_RESULT, F.SYS_BOOT_STATUS_WRITE_FAILS]
  | .SYS_IMAGE_VERSION => [F.SYS_IMAGE_VERSION_VALUE]
  | .SYS_EPOCH => [F.SYS_EPOCH_VALUE]
  | .SYS_IMAGE_PTR_LO => [F.SYS_IMAGE_PTR_LO_BANK]
  | .SYS_IMAGE_PTR_HI => [F.SYS_IMAGE_PTR_HI_GEN]
  | .SYS_AUTH_NONCE_LO => [F.SYS_AUTH_NONCE_LO_NONCE]
  | .SYS_AUTH_NONCE_HI => [F.SYS_AUTH_NONCE_HI_NONCE]
  | .SYS_AUTH_RESP => [F.SYS_AUTH_RESP_MAC]
  | .SYS_AUTH_REQ => [F.SYS_AUTH_REQ_PRIV]
  | .PEAT_ADDR => [F.PEAT_ADDR_ADDR]
  | .PEAT_DATA => [F.PEAT_DATA_DATA]
  | .PEAT_CMD => [F.PEAT_CMD_BANK, F.PEAT_CMD_OP]
  | .PEAT_STATUS => [F.PEAT_STATUS_UE_COUNT, F.PEAT_STATUS_RESULT, F.PEAT_STATUS_BUSY]
  | .IO_SLEW_CTL => [F.IO_SLEW_CTL_BAY_SLEW, F.IO_SLEW_CTL_CTRL_SLEW, F.IO_SLEW_CTL_JTAG_SLEW, F.IO_SLEW_CTL_SPI_SLEW]
  | .IO_BAY_PINS => [F.IO_BAY_PINS_LPMODE, F.IO_BAY_PINS_RESET, F.IO_BAY_PINS_INT_SEEN, F.IO_BAY_PINS_PRS_CHG, F.IO_BAY_PINS_INT, F.IO_BAY_PINS_PRESENT]
  | .IO_BAY_I2C_CTL => [F.IO_BAY_I2C_CTL_DEV, F.IO_BAY_I2C_CTL_REG, F.IO_BAY_I2C_CTL_LEN, F.IO_BAY_I2C_CTL_SPEED, F.IO_BAY_I2C_CTL_READ, F.IO_BAY_I2C_CTL_GO]
  | .IO_BAY_I2C_STATUS => [F.IO_BAY_I2C_STATUS_COUNT, F.IO_BAY_I2C_STATUS_BUSY, F.IO_BAY_I2C_STATUS_RESULT]
  | .IO_BAY_I2C_DATA => [F.IO_BAY_I2C_DATA_DATA]

/-- The registers of unit system. -/
def Reg.ofSystem : List Reg :=
  [.SYS_DEVICE_ID, .SYS_REVISION, .SYS_ACCESS_MODE, .SYS_RESET_CTL, .SYS_RESET_CAUSE, .SYS_BOOT_STATUS, .SYS_IMAGE_VERSION, .SYS_EPOCH, .SYS_IMAGE_PTR_LO, .SYS_IMAGE_PTR_HI, .SYS_AUTH_NONCE_LO, .SYS_AUTH_NONCE_HI] ++
  [.SYS_AUTH_RESP, .SYS_AUTH_REQ]

/-- The registers of unit stoker. -/
def Reg.ofStoker : List Reg :=
  [.STK_CTL, .STK_STATUS, .STK_PC, .STK_FAULT, .STK_FAULT_PC, .STK_TAGS, .STK_NEXT_LO, .STK_NEXT_HI, .STK_SLEEP, .STK_MBX_STATUS, .STK_MBX_POST, .STK_MBX_POP] ++
  [.STK_MBX_STAGE, .STK_MBX_RSP, .STK_ENGINES]

/-- The registers of unit lane. -/
def Reg.ofLane : List Reg :=
  [.LANE_STATE, .LANE_RX_CFG, .LANE_RX_CTLE, .LANE_RX_GAIN, .LANE_RX_CDR, .LANE_RX_ADAPT, .LANE_RX_MU, .LANE_SEASON_CMD, .LANE_SEASON_STATUS, .LANE_RX_STATUS, .LANE_RX_FOM, .LANE_RX_OVR] ++
  [.LANE_RX_FREQ, .LANE_RX_LOWMARGIN, .LANE_RX_FOM_THR, .LANE_RX_EVENT, .LANE_RX_EVENT_EN, .LANE_RX_COEF_ADDR, .LANE_RX_COEF_DATA, .LANE_TX_CFG, .LANE_TX_DRV, .LANE_TX_DAC, .LANE_TX_SMOKE, .LANE_TX_STATUS] ++
  [.LANE_TX_EVENT, .LANE_TX_EVENT_EN, .LANE_TX_SAT, .LANE_TX_COMMIT, .LANE_TX_COEF_ADDR, .LANE_TX_COEF_DATA, .LANE_DEC_CFG, .LANE_DEC_NCO, .LANE_DEC_STATUS, .LANE_DEC_SWITCH, .LANE_DEC_COEF_ADDR, .LANE_DEC_COEF_DATA] ++
  [.LANE_DEC_DELAY, .LANE_DEC_CAP_CTL, .LANE_DEC_CAP_STATUS, .LANE_DEC_CAP_TS_LO, .LANE_DEC_CAP_TS_HI, .LANE_DEC_CAP_ADDR, .LANE_DEC_CAP_DATA_LO, .LANE_DEC_CAP_DATA_HI, .LANE_MON_CTL, .LANE_MON_STATUS, .LANE_MON_HIST_ADDR, .LANE_MON_HIST_DATA] ++
  [.LANE_MON_HIST_TOTAL, .LANE_MON_HIST_OVR, .LANE_MON_SQ_CFG, .LANE_MON_SQ_LEVEL0, .LANE_MON_SQ_LEVEL1, .LANE_MON_SQ_LEVEL2, .LANE_MON_SQ_LEVEL3, .LANE_MON_SQ_RLM, .SMOKE_CFG, .SMOKE_CTL, .SMOKE_STATUS, .SMOKE_EVENT] ++
  [.SMOKE_EVENT_EN, .SMOKE_TX_POST, .SMOKE_RX_INFO, .SMOKE_RX_POP, .SMOKE_PEER_EPOCH, .SMOKE_PEER_DEVICE, .SMOKE_PEER_TAG, .SMOKE_PEER_INFO, .SMOKE_LINK, .SMOKE_TX_BUF, .SMOKE_RX_BUF, .SMOKE_CNT_FRAMES_TX] ++
  [.SMOKE_CNT_FRAMES_RX, .SMOKE_CNT_DETECTS, .SMOKE_CNT_HDR_FAIL, .SMOKE_CNT_PAY_FAIL, .SMOKE_CNT_CAPTURED, .SMOKE_CNT_BAD_MSG, .SMOKE_CNT_DROPPED]

/-- The registers of unit bay. -/
def Reg.ofBay : List Reg :=
  [.BAY_CFG, .BAY_ROLE, .PORT_LANE_STATE, .PORT_CFG, .PORT_TAG_TX, .PORT_TAG_EXP, .PORT_TAG_RX, .PORT_STATUS, .PORT_LANE_MAP, .PORT_POL, .PORT_SKEW, .PORT_FEC_THR] ++
  [.PORT_EVENT, .PORT_EVENT_EN, .PORT_FEC_CW_LO, .PORT_FEC_CW_HI, .PORT_FEC_CORR, .PORT_FEC_UNCOR, .PORT_FEC_SYM, .PORT_FEC_INNER_C1, .PORT_FEC_INNER_C2, .PORT_FEC_INNER_DUE]

/-- The registers of unit tunnel. -/
def Reg.ofTunnel : List Reg :=
  [.TUN_CFG, .TUN_LIMITS, .TUN_STATUS, .TUN_TX_SEQ_LO, .TUN_TX_SEQ_HI, .TUN_RX_DEL_LO, .TUN_RX_DEL_HI, .TUN_RX_HIGH_LO, .TUN_RX_HIGH_HI, .TUN_RX_WIN, .TUN_ROLL, .TUN_ROLL_CFG] ++
  [.TUN_ROLL_STATUS, .TUN_TX_USE, .TUN_EVENT, .TUN_EVENT_EN, .TUN_CNT_FRAMES_IN, .TUN_CNT_FRAMES_OUT, .TUN_CNT_BUNDLES_TX, .TUN_CNT_BUNDLES_RX, .TUN_CNT_DROP_BLOCKED, .TUN_CNT_DROP_OVERSIZE, .TUN_CNT_BAD_FCS, .TUN_CNT_AUTH_FAIL_A] ++
  [.TUN_CNT_AUTH_FAIL_B, .TUN_CNT_FALLBACK_OK, .TUN_CNT_ERRORED_A, .TUN_CNT_ERRORED_B, .TUN_CNT_REPLAY, .TUN_CNT_GAP_BUNDLES, .TUN_CNT_LOST_FRAMES, .TUN_CNT_FORMAT_ERR, .TUN_CNT_CTRL_AUTH_FAIL]

/-- The registers of unit key. -/
def Reg.ofKey : List Reg :=
  [.KEY_STAGE, .KEY_LOAD, .KEY_ZEROISE, .KEY_STATUS, .KEY_LIMIT, .CRY_ETHERTYPE, .CRY_MAC_LOCAL_LO, .CRY_MAC_LOCAL_HI, .CRY_MAC_PEER_LO, .CRY_MAC_PEER_HI, .CRY_PEER_EPOCH, .CRY_PEER_STATUS] ++
  [.CRY_PIPE_TX, .CRY_PIPE_RX, .CRY_PIPE_FAIL_TX, .CRY_PIPE_FAIL_RX, .CRY_NO_TUNNEL, .CRY_FOREIGN, .CRY_STRAY, .KEY_DESC]

/-- The registers of unit hold. -/
def Reg.ofHold : List Reg :=
  [.HOLD_CTL, .HOLD_CFG, .HOLD_STATUS, .HOLD_BUDGET, .HOLD_NEED, .HOLD_CORDS_USABLE, .HOLD_CORDS_FILLED, .HOLD_OCC_RETX, .HOLD_OCC_ALIGN, .HOLD_OCC_RIDE, .HOLD_SCRUB_CTL, .HOLD_SCRUB_STATUS] ++
  [.HOLD_BUCKET_CFG, .HOLD_PPR_ROW, .HOLD_PPR_CMD, .HOLD_PPR_STATUS, .HOLD_ERR_LOG_LO, .HOLD_ERR_LOG_HI, .HOLD_EVENT, .HOLD_EVENT_EN, .HOLD_CNT_CLINKERS, .HOLD_CNT_CLINKER_UNUSED, .HOLD_CNT_LOST_UNUSED, .HOLD_CNT_CAND_DROPPED] ++
  [.HOLD_CH_STATUS, .HOLD_CH_DIMM, .HOLD_CH_CNT_CORRECTED, .HOLD_CH_CNT_UNCORRECTABLE, .HOLD_CH_CNT_SOFT_REPAIRS, .HOLD_CH_CNT_RETRIES]

/-- The registers of unit prot. -/
def Reg.ofProt : List Reg :=
  [.PROT_CFG, .PROT_SWITCH_CTL, .PROT_STATUS, .PROT_CTL, .PROT_LL_CFG, .PROT_RESEND_WAIT, .PROT_MERGE_CFG, .PROT_DELAY_FIX, .PROT_DRAIN, .PROT_EVENT, .PROT_EVENT_EN, .PROT_TUN_CFG] ++
  [.PROT_TUN_SKEW, .PROT_TUN_DELAY, .PROT_TUN_STATE, .PROT_TUN_BACKLOG, .PROT_TUN_UNACKED, .PROT_TUN_GAP_LO, .PROT_TUN_GAP_HI, .PROT_TUN_GAP_INFO, .PROT_TUN_CNT_RESEND_TX, .PROT_TUN_CNT_RESEND_RX, .PROT_TUN_CNT_RESENT, .PROT_TUN_CNT_DEADLINE] ++
  [.PROT_TUN_CNT_LATE_COPY, .PROT_TUN_CNT_STALE, .PROT_TUN_CNT_HOLDBACK_DROP, .PROT_TUN_SINGLE]

/-- The registers of unit tinder. -/
def Reg.ofTinder : List Reg :=
  [.TINDER_CTL, .TINDER_STATUS, .TINDER_EQ, .TINDER_ERR, .TINDER_SESSION, .TINDER_SESSION_ADDR, .TINDER_AUTH, .SVC_SPI_STATUS]

/-- The registers of unit irq. -/
def Reg.ofIrq : List Reg :=
  [.IRQ_COMPLETE, .IRQ_SW_SET, .IRQ_HOST_ID, .IRQ_STATUS, .IRQ_MASK, .IRQ_PENDING, .IRQ_ACTIVE, .IRQ_SRC]

/-- The registers of unit memp. -/
def Reg.ofMemp : List Reg :=
  [.MEMP_CTL, .MEMP_STATUS, .MEMP_LOG_LO, .MEMP_LOG_HI, .MEMP_LOG_POP, .MEMP_INJECT_ADDR, .MEMP_INJECT_DATA_LO, .MEMP_INJECT_DATA_HI, .MEMP_INJECT_CTL, .MEMP_RAW_LO, .MEMP_RAW_HI, .MEMP_RAW_CHECK] ++
  [.MEMP_REG_CNT, .MEMP_REG_STATUS]

/-- The registers of unit fault. -/
def Reg.ofFault : List Reg :=
  [.CHAR_STATUS_LO, .CHAR_STATUS_HI, .FAULT_BUSY_LO, .FAULT_BUSY_HI, .FAULT_ALIVE, .FAULT_LAST_RESET, .FAULT_SW_SET, .FAULT_NMT, .FAULT_REACT, .FAULT_DETAIL]

/-- The registers of unit kiln. -/
def Reg.ofKiln : List Reg :=
  [.KILN_CTL, .KILN_CFG, .KILN_STATUS, .KILN_LAST_LO, .KILN_LAST_HI, .KILN_FAIL_LO, .KILN_FAIL_HI, .KILN_EVENT, .KILN_EVENT_EN, .KILN_REG]

/-- The registers of unit mcv. -/
def Reg.ofMcv : List Reg :=
  [.MCV_IN, .MCV_SIM_TRIG, .MCV_CAP_CTL, .MCV_CAP_STATUS, .MCV_CAP_TS_LO, .MCV_CAP_TS_HI, .MCV_CAP_ADDR, .MCV_CAP_DATA, .MCV_CTL, .MCV_PERIOD, .MCV_STATUS, .MCV_URGENT] ++
  [.MCV_SEQ, .MCV_RESULT, .MCV_URG_RESULT]

/-- The registers of unit power. -/
def Reg.ofPower : List Reg :=
  [.PWR_CLK_CTL, .PWR_CLK_STATUS, .PWR_TIME_LO, .PWR_TIME_HI, .PWR_CFG, .PWR_BLOCK, .THERM_CFG, .THERM_DAMPER, .THERM_CTL, .THERM_STATUS, .THERM_EVENT, .THERM_EVENT_EN] ++
  [.THERM_SENSOR]

/-- The registers of unit perf. -/
def Reg.ofPerf : List Reg :=
  [.PERF_CTL, .PERF_DUMP_CFG, .PERF_DUMP, .PERF_STATUS, .PERF_RING, .PERF_MIRROR, .PERF_OVF, .PERF_SEL, .PERF_CNT_LO, .PERF_CNT_HI]

/-- The registers of unit peat. -/
def Reg.ofPeat : List Reg :=
  [.PEAT_ADDR, .PEAT_DATA, .PEAT_CMD, .PEAT_STATUS]

/-- The registers of unit io. -/
def Reg.ofIo : List Reg :=
  [.IO_SLEW_CTL, .IO_BAY_PINS, .IO_BAY_I2C_CTL, .IO_BAY_I2C_STATUS, .IO_BAY_I2C_DATA]

/-- The registers of one unit. -/
def Reg.ofUnit : Unit' → List Reg
  | .system => Reg.ofSystem
  | .stoker => Reg.ofStoker
  | .lane => Reg.ofLane
  | .bay => Reg.ofBay
  | .tunnel => Reg.ofTunnel
  | .key => Reg.ofKey
  | .hold => Reg.ofHold
  | .prot => Reg.ofProt
  | .tinder => Reg.ofTinder
  | .irq => Reg.ofIrq
  | .memp => Reg.ofMemp
  | .fault => Reg.ofFault
  | .kiln => Reg.ofKiln
  | .mcv => Reg.ofMcv
  | .power => Reg.ofPower
  | .perf => Reg.ofPerf
  | .peat => Reg.ofPeat
  | .io => Reg.ofIo
  | .flue => []

/-- The number of instances of a register. -/
def Reg.instances (r : Reg) : Nat := r.info.count * r.info.innerCount

/-- The address of instance `i` of register `r` (R94 and the corresponding rule of each chapter). -/
def Reg.addr (r : Reg) (i : Nat) : Nat :=
  let inf := r.info
  let o := i / inf.innerCount
  let j := i % inf.innerCount
  inf.base + j * inf.innerStride +
    (match inf.layout with
     | .linear s => o * s
     | .port => (o / 8) * 0x10000 + (o % 8 + 1) * 0x1000)

/-- The instance of `r` that lies at address `a`, when one does. -/
def Reg.instAt (r : Reg) (a : Nat) : Option Nat :=
  let inf := r.info
  if a < inf.base then none else
  let d := a - inf.base
  let (o, rem) :=
    match inf.layout with
    | .linear s => if s = 0 then (0, d) else (d / s, d % s)
    | .port => ((d / 0x10000) * 8 + (d % 0x10000) / 0x1000 - 1, d % 0x1000)
  let j := if inf.innerStride = 0 then 0 else rem / inf.innerStride
  let i := o * inf.innerCount + j
  if o < inf.count && j < inf.innerCount && r.addr i = a then some i else none

/-- The unit windows of Table 21-1 (R555). -/
def Unit'.ofAddr (a : Nat) : Option Unit' :=
  if a ≤ 0xFFFF then some .system
  else if a ≤ 0x1FFFF then some .tinder
  else if 0x100000 ≤ a ∧ a ≤ 0x10FFFF then some .stoker
  else if 0x2000000 ≤ a ∧ a ≤ 0x202FFFF then some .lane
  else if 0x3000000 ≤ a ∧ a ≤ 0x305FFFF then some .bay
  else if 0x4000000 ≤ a ∧ a ≤ 0x4002FFF then some .tunnel
  else if 0x4100000 ≤ a ∧ a ≤ 0x4100FFF then some .key
  else if 0x5000000 ≤ a ∧ a ≤ 0x50117FF then some .hold
  else if 0x6000000 ≤ a ∧ a ≤ 0x60027FF then some .prot
  else if 0x7000000 ≤ a ∧ a ≤ 0x7001FFF then some .irq
  else if 0x8000000 ≤ a ∧ a ≤ 0x8000FFF then some .memp
  else if 0x9000000 ≤ a ∧ a ≤ 0x9000FFF then some .fault
  else if 0xA000000 ≤ a ∧ a ≤ 0xA000FFF then some .kiln
  else if 0xB000000 ≤ a ∧ a ≤ 0xB001FFF then some .mcv
  else if 0xC000000 ≤ a ∧ a ≤ 0xC000FFF then some .power
  else if 0xD000000 ≤ a ∧ a ≤ 0xD00FFFF then some .perf
  else if 0xD010000 ≤ a ∧ a ≤ 0xD01FFFF then some .flue
  else if 0xE000000 ≤ a ∧ a ≤ 0xE000FFF then some .peat
  else if 0xF000000 ≤ a ∧ a ≤ 0xF000FFF then some .io
  else none

/-- The first register of a list that holds address `a`. -/
def Reg.search (a : Nat) : List Reg → Option (Reg × Nat)
  | [] => none
  | r :: rs =>
    match r.instAt a with
    | some i => some (r, i)
    | none => Reg.search a rs

/-- The register at an address, when the address map has one there. -/
def Reg.atAddr (a : Nat) : Option (Reg × Nat) :=
  match Unit'.ofAddr a with
  | none => none
  | some u => Reg.search a (Reg.ofUnit u)

/-- The _HI half of a pair whose _LO half a register is (R6, R61). -/
def Reg.hi : Reg → Option Reg
  | .STK_NEXT_LO => some .STK_NEXT_HI
  | .PORT_FEC_CW_LO => some .PORT_FEC_CW_HI
  | .TUN_TX_SEQ_LO => some .TUN_TX_SEQ_HI
  | .TUN_RX_DEL_LO => some .TUN_RX_DEL_HI
  | .TUN_RX_HIGH_LO => some .TUN_RX_HIGH_HI
  | .CRY_MAC_LOCAL_LO => some .CRY_MAC_LOCAL_HI
  | .CRY_MAC_PEER_LO => some .CRY_MAC_PEER_HI
  | .HOLD_ERR_LOG_LO => some .HOLD_ERR_LOG_HI
  | .PROT_TUN_GAP_LO => some .PROT_TUN_GAP_HI
  | .LANE_DEC_CAP_TS_LO => some .LANE_DEC_CAP_TS_HI
  | .LANE_DEC_CAP_DATA_LO => some .LANE_DEC_CAP_DATA_HI
  | .MEMP_LOG_LO => some .MEMP_LOG_HI
  | .MEMP_INJECT_DATA_LO => some .MEMP_INJECT_DATA_HI
  | .MEMP_RAW_LO => some .MEMP_RAW_HI
  | .CHAR_STATUS_LO => some .CHAR_STATUS_HI
  | .FAULT_BUSY_LO => some .FAULT_BUSY_HI
  | .KILN_LAST_LO => some .KILN_LAST_HI
  | .KILN_FAIL_LO => some .KILN_FAIL_HI
  | .MCV_CAP_TS_LO => some .MCV_CAP_TS_HI
  | .PWR_TIME_LO => some .PWR_TIME_HI
  | .PERF_CNT_LO => some .PERF_CNT_HI
  | .SYS_IMAGE_PTR_LO => some .SYS_IMAGE_PTR_HI
  | .SYS_AUTH_NONCE_LO => some .SYS_AUTH_NONCE_HI
  | _ => none

/-- The registers a read of a capturing register takes into the reader's capture (R558 and the register descriptions). -/
def Reg.captureSet : Reg → List Reg
  | .STK_NEXT_LO => [.STK_NEXT_HI]
  | .PORT_FEC_CW_LO => [.PORT_FEC_CW_HI]
  | .TUN_TX_SEQ_LO => [.TUN_TX_SEQ_HI]
  | .TUN_RX_DEL_LO => [.TUN_RX_DEL_HI]
  | .TUN_RX_HIGH_LO => [.TUN_RX_HIGH_HI]
  | .HOLD_ERR_LOG_LO => [.HOLD_ERR_LOG_HI]
  | .PROT_TUN_GAP_LO => [.PROT_TUN_GAP_HI, .PROT_TUN_GAP_INFO]
  | .LANE_DEC_CAP_TS_LO => [.LANE_DEC_CAP_TS_HI]
  | .LANE_DEC_CAP_DATA_LO => [.LANE_DEC_CAP_DATA_HI]
  | .MEMP_LOG_LO => [.MEMP_LOG_HI]
  | .MEMP_RAW_LO => [.MEMP_RAW_HI, .MEMP_RAW_CHECK]
  | .CHAR_STATUS_LO => [.CHAR_STATUS_HI]
  | .FAULT_BUSY_LO => [.FAULT_BUSY_HI]
  | .KILN_LAST_LO => [.KILN_LAST_HI]
  | .KILN_FAIL_LO => [.KILN_FAIL_HI]
  | .MCV_CAP_TS_LO => [.MCV_CAP_TS_HI]
  | .PWR_TIME_LO => [.PWR_TIME_HI]
  | .PERF_CNT_LO => [.PERF_CNT_HI]
  | .SYS_IMAGE_PTR_LO => [.SYS_IMAGE_PTR_HI]
  | .LANE_MON_SQ_LEVEL0 => [.LANE_MON_SQ_LEVEL1, .LANE_MON_SQ_LEVEL2, .LANE_MON_SQ_LEVEL3, .LANE_MON_SQ_RLM]
  | .SMOKE_PEER_EPOCH => [.SMOKE_PEER_DEVICE, .SMOKE_PEER_TAG, .SMOKE_PEER_INFO]
  | _ => []

/-- Table 14-1, column "Reaction after chip reset", as FAULT_REACT bits. -/
def faultReactReset (n : Nat) : Nat :=
  if n = 26 ∨ n = 44 then 9
  else if n = 34 then 8
  else if n = 38 then 16
  else if n ≤ 45 then 1
  else 0

/-- Table 12-1, column "Kind after reset": 1 for a level source. -/
def irqLevelReset (n : Nat) : Nat :=
  if n < 256 ∨ n = 474 ∨ (477 ≤ n ∧ n ≤ 484) ∨ n = 486 ∨ n = 488 ∨ 489 ≤ n then 0 else 1

/-- Table 13-1, column "Spare rows", summed over the region's instances. -/
def sparesReset (n : Nat) : Nat :=
  match n with
  | 0 => 16 | 1 => 40 | 2 => 32 | 3 => 48 | 4 => 8 | 5 => 4 | 6 => 48 | 7 => 2 | 9 => 64 | _ => 0

/-- Table 17-3, column "Deepest state"; the hold store is listed with its limit outside OFF, pair 3 with Glow. -/
def hwLimitReset (n : Nat) : Nat :=
  if n ≤ 8 ∨ n = 10 ∨ n = 11 ∨ n = 23 then 2
  else if n = 22 then 1
  else 3

/-- The value of a field after chip reset (R10), with the values that depend on the instance. -/
def Fld.reset (f : Fld) (i : Nat) : Nat :=
  match f.reg with
  | .STK_CTL => if f.lo = 4 then (i + 1) % 8 else f.rst
  | .IRQ_SRC =>
    if f.lo = 4 then irqLevelReset i
    else if (f.lo = 8 ∨ f.lo = 16) ∧ i < 256 then i / 32
    else f.rst
  | .FAULT_REACT => if f.w = 1 then (faultReactReset i / 2 ^ f.lo) % 2 else f.rst
  | .MEMP_REG_STATUS => if f.lo = 0 then sparesReset i else f.rst
  | .MCV_SEQ => if f.lo = 0 then 24 * (i / 32) else f.rst
  | .PWR_BLOCK => if f.lo = 8 then hwLimitReset i else f.rst
  | _ => f.rst

end Sys2Proof.Machine
end

