-- ==== Sys2Proof/Syntax.lean ====
section
/-!
DEFINITION. The commands of the SKL-4880 model: one constructor of `Instr` per row of spec/opcode_table.json, with the row's operands. A command is what the
block is told from outside: an instruction a context executes, a register access by a named sender, a packet, or an event of the device's surroundings
with the facts the surroundings determine (sensor codes, decoder outcomes, arrival times) as operands.
-/

namespace Sys2Proof.Machine

/-- The sender of a register access: a host session (0 the service SPI port, 1 to 8 Tinder sessions, R391), the table of a bank (R81), or the boot
controller performing the register write list at Vendor privilege (R523). -/
inductive Agent where
  | host (session : Fin 9)
  | table (bank : Fin 8)
  | boot
  deriving DecidableEq, Repr

/-- The fields of a Torvulo instruction word other than OP (Table 2-4). -/
structure IW where
  d : Fin 16
  a : Fin 16
  b : Fin 16
  cond : Fin 16
  x : BitVec 8
  imm : W32
  deriving DecidableEq, Repr

/-- Upset bits a read meets in a stored word: the copy of a critical word (0 otherwise), the inverted data bits and the inverted check bits (R419). -/
structure Upset where
  copy : Fin 4
  dx : W64
  cx : BitVec 8
  deriving DecidableEq, Repr

/-- A training set as a lane receives it: ID, LANE, MASK, FLAGS, VERSION and the ten fill characters (Table 11-1). -/
structure TsSet where
  id : Byte
  lane : Byte
  mask : Byte
  flags : Byte
  version : Byte
  fill : List Byte
  deriving DecidableEq, Repr

/-- The hold functions whose copies the store keeps (R275, R316). -/
inductive HeldKind where
  | retx | ride | align | holdback
  deriving DecidableEq, Repr

/-- What boot reads from the entry table of an image (R521): context descriptors (eight words each), mailbox privilege maps, the ownership map (objects
of the map and their banks), access keys by level, RUN_MASK, SERVICE and the register write list. The section gives the order of these items and not
their byte layout, so the command carries them read. -/
structure EntryTable where
  descriptors : List (List W64)
  maps : List (List Byte)
  owners : List (BitVec 12 × BitVec 4)
  keys : List (Fin 4 × BitVec 256)
  runMask : BitVec 8
  service : Bool
  writes : List (W32 × W32)
  deriving DecidableEq, Repr

end Sys2Proof.Machine

namespace Sys2Proof

open Machine

/-- The input of a converter slice at its sampling instant, and of the comparator pair beside it, both in units of 10 µV, signed (R111). -/
structure AdcIn where
  conv : BitVec 16
  cmp : BitVec 16
  deriving DecidableEq, Repr
/-- The commands: one constructor per row of the table of operations and events. -/
inductive Instr where
  /-- ADD (R59): Torvulo add instruction: d = a + b or a + IMM, setting Z, N, C and V. -/
  | addOp (b : Fin 8) (w : IW)
  /-- SUB (R59): Torvulo subtract instruction: d = a - b, setting the flags. -/
  | subOp (b : Fin 8) (w : IW)
  /-- AND (R59): Torvulo bitwise AND instruction; logic operations clear C and V. -/
  | andOp (b : Fin 8) (w : IW)
  /-- OR (R59): Torvulo bitwise OR instruction. -/
  | orOp (b : Fin 8) (w : IW)
  /-- XOR (R59): Torvulo bitwise exclusive-OR instruction. -/
  | xorOp (b : Fin 8) (w : IW)
  /-- SHL (R59): Torvulo shift left by b[5:0]; C takes the last bit shifted out. -/
  | shl (b : Fin 8) (w : IW)
  /-- SHR (R59): Torvulo logical shift right by b[5:0]. -/
  | shr (b : Fin 8) (w : IW)
  /-- SAR (R59): Torvulo arithmetic shift right by b[5:0]. -/
  | sar (b : Fin 8) (w : IW)
  /-- MUL (R59): Torvulo multiply giving the low 64 bits, in 3 cycles. -/
  | mul (b : Fin 8) (w : IW)
  /-- CMP (R59): Torvulo compare: sets the flags of a - b and writes no register. -/
  | cmp (b : Fin 8) (w : IW)
  /-- TST (R59): Torvulo test: sets the flags of a AND b. -/
  | tst (b : Fin 8) (w : IW)
  /-- LI (R59): Torvulo load immediate: d = sign-extended IMM. -/
  | li (b : Fin 8) (w : IW)
  /-- LIH (R59): Torvulo load immediate high: d[63:32] = IMM, d[31:0] kept. -/
  | lih (b : Fin 8) (w : IW)
  /-- MOV (R59): Torvulo register move. -/
  | mov (b : Fin 8) (w : IW)
  /-- MFL (R50): Torvulo move from flags: reads the flags register. -/
  | mfl (b : Fin 8) (w : IW)
  /-- MTAG (R51): Torvulo move from TAG: reads the tag of the last issued command. -/
  | mtag (b : Fin 8) (w : IW)
  /-- LD (R53): Torvulo 64-bit load from private or shared data memory, with bounds, alignment and poison checks. -/
  | load (b : Fin 8) (w : IW) (upsets : List Upset)
  /-- ST (R55): Torvulo 64-bit store, with bounds, alignment and state-area privilege checks. -/
  | store (b : Fin 8) (w : IW)
  /-- CAS (R53): Torvulo atomic compare-and-swap on shared memory only. -/
  | casOp (b : Fin 8) (w : IW) (upsets : List Upset)
  /-- B (R58): Torvulo conditional relative branch. -/
  | branch (b : Fin 8) (w : IW)
  /-- BL (R59): Torvulo branch and link: pushes the return address on the 32-entry return stack. -/
  | branchLink (b : Fin 8) (w : IW)
  /-- BR (R59): Torvulo branch to the address held in a register. -/
  | branchReg (b : Fin 8) (w : IW)
  /-- RET (R59): Torvulo return: pops the return stack; ends an NMT when executed from NMT_ENTRY. -/
  | ret (b : Fin 8) (w : IW)
  /-- TRAP (R59): Torvulo trap: fault entry with code TRAP and the trap code in the fault word. -/
  | trap (b : Fin 8) (w : IW)
  /-- HALT (R59): Torvulo halt: stops the context (Vendor tables only). -/
  | halt (b : Fin 8) (w : IW)
  /-- CMD (R60): Torvulo command: issues a tagged write to a device register; stalls for tags, queue room or a Kiln slice. -/
  | issueCmd (b : Fin 8) (w : IW)
  /-- QRY (R61): Torvulo query: issues a tagged read of a device register. -/
  | issueQry (b : Fin 8) (w : IW)
  /-- GET (R61): Torvulo get: issues a read and waits for its completion value. -/
  | issueGet (b : Fin 8) (w : IW)
  /-- WTAG (R75): Torvulo wait for tag: waits for one completion, or returns NOTAG at once. -/
  | wtag (b : Fin 8) (w : IW)
  /-- CPOP (R66): Torvulo completion pop: takes the earliest-arrived completed tag of the bank without waiting. -/
  | cpop (b : Fin 8) (w : IW)
  /-- FENCE (R76): Torvulo fence: waits for every outstanding tag of the bank and reports the first non-OK status. -/
  | fence (b : Fin 8) (w : IW)
  /-- WFE (R66): Torvulo wait for event: returns the highest-priority pending event, or sleeps and writes a checkpoint. -/
  | wfe (b : Fin 8) (w : IW) (race : Bool)
  /-- TSET (R68): Torvulo timer set: arms a timer for a device time, replacing any earlier setting and its event. -/
  | tset (b : Fin 8) (w : IW)
  /-- TCLR (R68): Torvulo timer clear: disarms a timer and discards its pending event. -/
  | tclr (b : Fin 8) (w : IW)
  /-- TIME (R59): Torvulo read of device time. -/
  | readTime (b : Fin 8) (w : IW)
  /-- NEXT (R77): Torvulo next: declares the bank's next known event time and deepest acceptable floor. -/
  | declareNext (b : Fin 8) (w : IW)
  /-- CKPT (R90): Torvulo checkpoint: writes the checkpoint and clears the replay log. -/
  | ckpt (b : Fin 8) (w : IW)
  /-- MRECV (R66): Torvulo mailbox receive: takes the oldest request of the bank into data memory. -/
  | mrecv (b : Fin 8) (w : IW)
  /-- MSEND (R88): Torvulo mailbox send: queues a 64-byte response; stalls while the response queue is full. -/
  | msend (b : Fin 8) (w : IW)
  /-- SIG (R66): Torvulo signal: raises a signal event with a payload on another engine. -/
  | sig (b : Fin 8) (w : IW)
  /-- RUNAWAY (R62): The count of retired instructions reaches RUN_LIMIT since the last wfe or fault entry. -/
  | runaway (b : Fin 8)
  /-- COMMAND_COMPLETION (R72): A unit returns a command completion with a status and any read value to the bank's tag. -/
  | commandCompletion (b : Fin 8) (tag : Fin 256)
  /-- COMMAND_TIMEOUT (R74): A command not completed within CMD_TIMEOUT completes TIMEOUT and its tag is quarantined. -/
  | commandTimeout (b : Fin 8) (tag : Fin 256)
  /-- COMMAND_TAKES_EFFECT (R70): A unit applies the commands of one bank in issue order. -/
  | commandTakesEffect (b : Fin 8) (unit : Machine.Unit')
  /-- TIMER_FIRE (R68): Device time reaches a timer's setting and the timer event becomes pending. -/
  | timerFire (b : Fin 8) (timer : Fin 4)
  /-- WFE_WAKE (R66): An event becomes pending for a context sleeping in wfe, which wakes and returns it. -/
  | wfeWake (b : Fin 8)
  /-- LOCKSTEP_MISMATCH (R45): The two lockstep copies of an engine disagree, and the engine is declared failed. -/
  | lockstepMismatch (e : Fin 8)
  /-- LIVENESS_WATCHDOG (R65): A context not sleeping retires no instruction for 4 us, and the engine is declared failed. -/
  | livenessWatchdog (e : Fin 8)
  /-- ADOPTION (R89): A failed engine's bank starts as a hosted context on a qualifying engine from its last checkpoint. -/
  | adoption (b : Fin 8)
  /-- NMT_TAKEN (R64): A held or new non-maskable trap preempts the bank's context and enters NMT_ENTRY. -/
  | nmtTaken (b : Fin 8)
  /-- STK_CTL_RUN_START (R89): A write of STK_CTL.RUN = 1 starts a stopped, halted or failed unadopted bank at ROOT_ENTRY. -/
  | stkCtlRunStart (ag : Agent) (b : Fin 8)
  /-- STK_CTL_RUN_STOP (R95): A write of STK_CTL.RUN = 0 stops the bank's context after its current instruction. -/
  | stkCtlRunStop (ag : Agent) (b : Fin 8)
  /-- MAILBOX_POST (R86): A write of STK_MBX_POST checks the staged request against the entry map and queues or answers it. -/
  | mailboxPost (ag : Agent) (b : Fin 8)
  /-- MAILBOX_POP (R88): A write of STK_MBX_POP removes the session's oldest response. -/
  | mailboxPop (ag : Agent) (b : Fin 8)
  /-- RESPONSE_EXPIRY (R88): A response not popped within 10 ms is discarded and counted in RSP_DROPPED. -/
  | responseExpiry (b : Fin 8) (k : Fin 16)
  /-- ENTER_SERVICE (R40): A write of SYS_ACCESS_MODE.ENTER_SERVICE = 1 in Maintenance mode requests Service mode. -/
  | enterService (ag : Agent)
  /-- SERVICE_ENTRY_COMPLETE (R40): The mode transition completes once no earlier command is outstanding, and MODE becomes 1. -/
  | serviceEntryComplete
  /-- LEAVE_SERVICE (R41): An Officer mailbox request carried out by a table leaves Service mode after blocking tunnels and zeroising keys. -/
  | leaveService (b : Fin 8) (priv : Fin 4)
  /-- REGISTER_WRITE (R8): A write to a register with no row of its own, checked for address, privilege, ownership and mode. -/
  | registerWrite (ag : Agent) (addr : W32) (v : W32)
  /-- CAPTURE_READ (R558): A read of a capturing LO half stores the HI half and named registers in the reader's capture. -/
  | captureRead (ag : Agent) (addr : W32)
  /-- READ_CLEAR (R8): A read of an RC register returns its value and then clears it. -/
  | readClear (ag : Agent) (addr : W32)
  /-- LANE_STATE_REQUEST (R137): A write of LANE_STATE.REQ requests Lit, Warm, Banked or Cold for a lane. -/
  | laneStateRequest (ag : Agent) (n : Fin 48) (v : W32)
  /-- LANE_TRANSITION_END (R140): A lane state transition ends and CUR takes the requested state. -/
  | laneTransitionEnd (n : Fin 48)
  /-- LANE_RX_CFG_WRITE (R98): A write of LANE_RX_CFG is accepted only while Cold, judged on RATE and LP_ADC together. -/
  | laneRxCfgWrite (ag : Agent) (n : Fin 48) (v : W32)
  /-- ELASTIC_QUEUE_OVERFLOW (R99): A lane's receive elastic queue overflows; the lane raises its error line and drops to Cold. -/
  | elasticQueueOverflow (n : Fin 48)
  /-- SIGNAL_LOSS (R100): The rms stays below the signal-detect threshold for 0.5 us; SIGNAL clears and LOS is set. -/
  | signalLoss (n : Fin 48)
  /-- SIGNAL_RETURN (R100): The rms stays above the threshold plus hysteresis for 10 us; SIGNAL sets and LOS is set. -/
  | signalReturn (n : Fin 48)
  /-- OPEN_INPUT_CHECK (R101): The periodic 1 ms check of each leg's DC voltage reports open inputs. -/
  | openInputCheck (n : Fin 48) (pMv : BitVec 12) (nMv : BitVec 12)
  /-- GAIN_LOOP_UPDATE (R107): Every 10 us the gain loop moves FINE by at most one step, and ATTEN at the ends of its range. -/
  | gainLoopUpdate (n : Fin 48)
  /-- RECONV_SLOW (R110): RECONVERGING has not cleared 5 ms after a gain change; RECONV_SLOW is set. -/
  | reconvSlow (n : Fin 48)
  /-- FOM_WINDOW_END (R146): The end of a 100 us window updates the figures of merit and may clear RECONVERGING. -/
  | fomWindowEnd (n : Fin 48)
  /-- SEASON_START (R118): A write of LANE_SEASON_CMD.START starts one seasoning pass. -/
  | seasonStart (ag : Agent) (n : Fin 48) (v : W32)
  /-- SEASONING_STEP (R114): A 40 us seasoning step ends: the spare replaces a slot's slice, or the step repeats or fails. -/
  | seasoningStep (n : Fin 48) (withinHalfLsb : Bool) (trim : W32) (saturated : Bool)
  /-- CDR_LOCK_CHANGE (R123): CDR_LOCK sets after 20 us of steady phase and frequency, or clears after 2 us of failure. -/
  | cdrLockChange (n : Fin 48) (lock : Bool)
  /-- CDR_REACQUIRE (R124): CDR_LOCK has not set within 500 us of SIGNAL returning; a fresh frequency acquisition starts. -/
  | cdrReacquire (n : Fin 48)
  /-- ADAPTATION_UPDATE (R132): Every 16 blocks each unfrozen adaptation loop updates from its gradient. -/
  | adaptationUpdate (n : Fin 48) (samples : List AdcIn) (spare : List (List AdcIn))
  /-- FREEZE_RELEASE (R134): A loop freeze is released 10 us after its last condition clears. -/
  | freezeRelease (n : Fin 48) (gain : Bool)
  /-- COEF_SNAPSHOT (R135): Every 10 ms a Lit, unfrozen lane with good SNR snapshots its coefficients. -/
  | coefSnapshot (n : Fin 48)
  /-- DIVERGED (R135): SNR below LOW_SNR for 1 ms restores the last snapshot and returns the loops to acquisition gear. -/
  | laneDiverged (n : Fin 48)
  /-- LANE_RX_COEF_DATA (R136): An access of LANE_RX_COEF_DATA reads or replaces a coefficient and advances INDEX. -/
  | laneRxCoefData (ag : Agent) (n : Fin 48) (write : Option W32)
  /-- WARM_STALE (R141): SIGNAL has been 0 for more than 1 ms while Warm; WARM_STALE is set. -/
  | warmStale (n : Fin 48)
  /-- WAKE_WINDOW_END (R143): A 2.6 us wake window ends; three consecutive passing windows set CONVERGED. -/
  | wakeWindowEnd (n : Fin 48)
  /-- CONVERGED (R143): Acquisition from Cold completes and CONVERGED sets. -/
  | laneConverged (n : Fin 48)
  /-- ACQ_TIMEOUT (R144): CONVERGED has not set 80 ms after SIGNAL first set; acquisition restarts from the CTLE step. -/
  | acqTimeout (n : Fin 48)
  /-- WAKE_FALLBACK (R145): Convergence is not reached 1 ms beyond the wake time; the lane falls back to full acquisition. -/
  | wakeFallback (n : Fin 48)
  /-- POLARITY_CHANGE (R131): A change of POL_INV takes effect at a block boundary and sets POL. -/
  | polarityChange (n : Fin 48)
  /-- TX_BLOCK_BOUNDARY (R151): At each 160-symbol block boundary the transmitter selects the block's source from Table 4-2. -/
  | txBlockBoundary (n : Fin 48) (pairs : List (Fin 4))
  /-- TX_COMMIT (R160): A write of LANE_TX_COMMIT.COMMIT copies the shadow bank to the active bank at the next block boundary. -/
  | txCommit (ag : Agent) (n : Fin 48) (v : W32)
  /-- LANE_TX_COEF_DATA (R160): An access of LANE_TX_COEF_DATA reads a bank or writes the shadow bank and advances INDEX. -/
  | laneTxCoefData (ag : Agent) (n : Fin 48) (write : Option W32)
  /-- LANE_TX_SMOKE_WRITE (R161): A write of LANE_TX_SMOKE enables the ripple only on line lanes at 212.5 or 226.875 GBd, and defers DEPTH. -/
  | laneTxSmokeWrite (ag : Agent) (n : Fin 48) (v : W32)
  /-- SATURATION_WINDOW (R157): The end of a 100 us window sets SAT when more than 1 in 10^6 samples saturated. -/
  | saturationWindow (n : Fin 48)
  /-- SAMPLE_QUEUE_UNDERFLOW (R167): The DAC finds the sample queue empty; the lane sets UNDERFLOW, raises its error line and drops to Cold. -/
  | sampleQueueUnderflow (n : Fin 48)
  /-- DAC_CALIBRATION_END (R170): The DAC current-source calibration at a wake ends, possibly setting CAL_FAIL. -/
  | dacCalibrationEnd (n : Fin 48) (failed : Bool)
  /-- SHORT_DETECT (R177): A short condition holds for 1 us and sets a short bit and SHORT. -/
  | shortDetect (n : Fin 48) (kind : Fin 3) (atLimit : Bool)
  /-- SHORT_CLEAR (R177): A short condition has been absent for 100 us and its bit clears. -/
  | shortClear (n : Fin 48) (kind : Fin 3)
  /-- BAY_CFG_WRITE (R181): A write of BAY_CFG.SPLIT, accepted only with all lanes Cold, resets the bay's port blocks. -/
  | bayCfgWrite (ag : Agent) (b : Fin 6) (v : W32)
  /-- BAY_ROLE_WRITE (R182): An Officer write of the bay's role map, refused for changed ports whose lanes are not Cold. -/
  | bayRoleWrite (ag : Agent) (b : Fin 6) (v : W32)
  /-- PORT_LANE_STATE (R137): A write of PORT_LANE_STATE.REQ requests a state for every lane of the port as one command. -/
  | portLaneState (ag : Agent) (p : Fin 48) (v : W32)
  /-- PORT_CFG_WRITE (R185): A write of PORT_CFG; a FORMAT change is accepted only with the port's lanes Cold or Banked. -/
  | portCfgWrite (ag : Agent) (p : Fin 48) (v : W32)
  /-- ALIGNMENT_MARKER (R196): A lane receives a block at a marker position and validates it as a marker. -/
  | alignmentMarker (n : Fin 48) (body : List Byte) (complemented expected errored : Bool) (ns : W32)
  /-- FOREIGN_FORMAT_SEARCH (R209): After 10 ms in SEARCH the port looks for a foreign format and sets MISMATCH with cause FOREIGN. -/
  | foreignFormatSearch (p : Fin 48) (found : Bool)
  /-- CODEWORD_DECODE (R210): A lane decodes one RS codeword, and with FORMAT 3 its inner codewords, and counts the result. -/
  | codewordDecode (n : Fin 48) (corrected : Fin 16) (uncorrectable : Bool)
  /-- DEGRADED_WINDOW (R211): The end of a 100 us window sets or clears DEGRADED by corrected symbols. -/
  | degradedWindow (p : Fin 48)
  /-- BLOCK_RX (R192): A port receives a non-marker block, discards idles and passes the rest to the tunnel unit. -/
  | blockRx (p : Fin 48) (flag : Bool) (body : List Byte) (errored : Bool)
  /-- EPOCH_NOTICE_SEND (R237): Every 64th marker period, and after restarts and zeroisations, a line port sends an epoch notice. -/
  | epochNoticeSend (p : Fin 48)
  /-- EPOCH_NOTICE_RX (R238): A received epoch notice is checked and, on two agreeing notices, recorded or acted on as a new epoch. -/
  | epochNoticeRx (p : Fin 48) (body : List Byte)
  /-- CLIENT_FRAME_RX (R222): A client frame enters the tunnel's stream as a frame entry, or is discarded and counted. -/
  | clientFrameRx (p : Fin 48) (frame : List Byte) (upset : Bool)
  /-- BUNDLE_FLUSH (R225): FLUSH time passes since a bundle's first byte and the bundle closes. -/
  | bundleFlush (t : Fin 24)
  /-- BUNDLE_RELEASE (R221): A closed bundle waiting for tokens is released for encryption when the bucket allows. -/
  | bundleRelease (t : Fin 24)
  /-- ENCRYPT_DONE (R241): A crypto pipeline finishes encrypting a bundle, which is released in SEQ order. -/
  | encryptDone (p : Fin 32) (slotUpset : Bool)
  /-- PIPELINE_PARITY_FAIL (R243): A pipeline parity mismatch fails the pipeline, reruns its bundle and brings in a spare. -/
  | pipelineParityFail (tx : Bool) (p : Fin 32)
  /-- RATE_WINDOW (R221): Receive traffic over a 1 ms window is compared with RATE and may set RATE_EXCEEDED. -/
  | rateWindow (t : Fin 24)
  /-- FRAME_TO_CLIENT (R228): The receiver sends an unpacked frame with preamble and gap to its client. -/
  | frameToClient (t : Fin 24) (upset : Bool)
  /-- BUNDLE_COPY_RX (R234): A bundle copy arrives from a line port, is checked as intact and offered to the merge. -/
  | bundleCopyRx (p : Fin 48) (copy : List Byte) (errored : Bool)
  /-- DECRYPT_DONE (R245): A decryption finishes; the copy is accepted under anti-replay, or fails and the other copy is tried. -/
  | decryptDone (t : Fin 24) (slotUpset : Bool)
  /-- ACK (R319): A received ACK control message frees retransmission copies up to CUM. -/
  | ackMsg (t : Fin 24) (cum map : W64)
  /-- RESEND (R321): A received RESEND is answered member by member with resends or GAPs. -/
  | resendMsg (t : Fin 24) (first : W64) (count : W32)
  /-- GAP (R323): A received GAP declares its SEQs with its cause when the stream reaches them. -/
  | gapMsg (t : Fin 24) (first : W64) (count : W32) (cause : BitVec 8)
  /-- ROLL_OFFER (R255): A received ROLL_OFFER is checked against the next slot's KCV; C is armed and ROLL_ACCEPT sent. -/
  | rollOffer (t : Fin 24) (id : W32) (c : W64) (kcv : W32)
  /-- ROLL_ACCEPT (R254): A received ROLL_ACCEPT with matching ID and C moves the sender to SWITCH. -/
  | rollAccept (t : Fin 24) (id : W32) (c : W64)
  /-- ROLL_COMMIT (R254): A received ROLL_COMMIT retires the old receive slot once every SEQ below C is done, and ROLL_DONE is sent. -/
  | rollCommit (t : Fin 24) (id : W32) (c : W64)
  /-- ROLL_DONE (R254): A received ROLL_DONE returns the sender to idle. -/
  | rollDone (t : Fin 24) (id : W32)
  /-- ROLL_ABORT (R255): A received ROLL_ABORT returns the sender to PREPARE with its next slot kept. -/
  | rollAbort (t : Fin 24) (ref : Bool) (id : W32) (reason : BitVec 8)
  /-- CONTROL_BUNDLE_RX (R236): A control bundle is accepted once per control sequence and its message is dispatched. -/
  | controlBundleRx (p : Fin 48) (copy : List Byte) (errored : Bool)
  /-- ROLL_START (R257): A write of TUN_ROLL.START picks C and starts the OFFER phase. -/
  | rollStart (ag : Agent) (t : Fin 24)
  /-- ROLL_ABORT_CMD (R257): A write of TUN_ROLL.ABORT ends a rollover in phase 2 or 3 with reason 5. -/
  | rollAbortCmd (ag : Agent) (t : Fin 24)
  /-- ROLL_MESSAGE_REPEAT (R257): Every 100 ms the sender repeats ROLL_OFFER in OFFER or ROLL_COMMIT in COMMIT. -/
  | rollMessageRepeat (t : Fin 24)
  /-- ROLL_COMMIT_POINT (R256): Once every SEQ below C is acknowledged or released, the sender commits and the next slot becomes CURRENT. -/
  | rollCommitPoint (t : Fin 24)
  /-- ROLL_TIMEOUT (R257): TIMEOUT after START, or after arming C, aborts, forces a commit or retires the rollover. -/
  | rollTimeout (t : Fin 24) (rx : Bool)
  /-- KEY_LOAD (R250): A write of KEY_LOAD unwraps or loads a key into a slot and clears KEY_STAGE. -/
  | keyLoad (ag : Agent) (mode : BitVec 2) (kek slot : BitVec 7)
  /-- KEY_ZEROISE_SLOT (R252): A write of KEY_ZEROISE with ALL = 0 overwrites one slot and sets it EMPTY. -/
  | keyZeroiseSlot (ag : Agent) (slot : BitVec 7)
  /-- KEY_ZEROISE_ALL (R252): A write of KEY_ZEROISE.ALL zeroises every slot and KEY_STAGE and takes a new epoch. -/
  | keyZeroiseAll (ag : Agent)
  /-- TAMPER (R253): A filtered low on a TAMPER_N input zeroises all slots within 1 us and sets TAMPER. -/
  | tamperInput (lows : BitVec 4)
  /-- HOLD_START (R267): A write of HOLD_CTL.START in state OFF trains every declared channel. -/
  | holdStart (ag : Agent)
  /-- CHANNEL_TRAINED (R267): A channel's training ends; it becomes LIVE and cord fill starts, or it fails with a cause. -/
  | channelTrained (c : Fin 24) (cause : Fin 5) (size : BitVec 8) (x8 : Bool) (ranks stack : Fin 3)
  /-- HOLD_STOP (R269): A write of HOLD_CTL.STOP parks every channel, unfills every cord and moves the store to OFF. -/
  | holdStop (ag : Agent)
  /-- ZQ_CALIBRATION (R268): Every 128 ms a LIVE channel runs ZQ calibration. -/
  | zqCalibration (c : Fin 24)
  /-- DQS_OSCILLATOR_READ (R268): Every 1 ms the controller reads the DQS interval oscillators and adjusts write timing. -/
  | dqsOscillatorRead (c : Fin 24) (code : BitVec 16)
  /-- MODULE_TEMP_READ (R268): Every 32 ms the controller reads each module's temperature into HOLD_CH_STATUS.TEMP. -/
  | moduleTempRead (c : Fin 24) (temp : BitVec 8)
  /-- REFRESH (R268): The controller issues same-bank refresh at the interval the module's temperature requires. -/
  | holdRefresh (c : Fin 24) (commands : BitVec 8)
  /-- CORD_FILLED (R276): The last fill write of a cord completes and its validity bit is set. -/
  | cordFilled (c : Fin 24)
  /-- HOLD_READ_COMPLETE (R288): A demand read of a billet completes, with correction, clinker status or data. -/
  | holdReadComplete (c : Fin 24) (l : W32) (errs : List (Fin 64 × List (Fin 80))) (retries : Fin 9)
  /-- SCRUB_BILLET (R282): The scrubber reads one billet, writes back corrections or marks clinkers. -/
  | scrubBillet (c : Fin 24) (errs : List (Fin 64 × List (Fin 80)))
  /-- RANK_BUCKET_LEAK (R286): Each RANK_LEAK interval a rank bucket leaks by 1. -/
  | rankBucketLeak (c : Fin 24) (rank : Fin 4)
  /-- ROW_BUCKET_LEAK (R286): Each ROW_LEAK interval a row bucket leaks by 1. -/
  | rowBucketLeak (c : Fin 24) (entry : Fin 32)
  /-- ROW_SCRUB (R286): An overflowed row is scrubbed within 1 ms ahead of the scrub pass. -/
  | rowScrub (c : Fin 24) (errs : List (Fin 4 × Fin 64 × List (Fin 80)))
  /-- CLINKER_RETEST (R289): A freed marked billet is written with zeros and read back, and clears or stays marked. -/
  | clinkerRetest (c : Fin 24) (clean : Bool)
  /-- SOFT_REPAIR_REQUEST (R290): A write of HOLD_PPR_CMD with HARD = 0 queues a soft repair of a row or the oldest candidate. -/
  | softRepairRequest (ag : Agent) (channel : BitVec 5) (fromQueue : Bool)
  /-- REPAIR_WINDOW (R291): A repair window opens on the channel and the soft repair is performed and checked. -/
  | repairWindow (result : Fin 3) (errs : List (Fin 4 × Fin 64 × List (Fin 80)))
  /-- REPAIR_NO_WINDOW (R291): No window opens within 100 ms and the repair completes NO_WINDOW. -/
  | repairNoWindow
  /-- HARD_REPAIR (R293): A write of HOLD_PPR_CMD with HARD = 1 starts a permanent repair in Maintenance mode. -/
  | hardRepair (ag : Agent) (channel : BitVec 5) (fromQueue : Bool)
  /-- HARD_REPAIR_DONE (R293): A hard repair ends after up to 2.5 s and the channel serves accesses again. -/
  | hardRepairDone (result : Fin 3)
  /-- CHANNEL_FAIL (R294): A LIVE channel fails on a detection condition; it is skipped and its copies are lost. -/
  | channelFail (c : Fin 24) (cause : Fin 6)
  /-- HELD_COPY_TIMEOUT (R297): Over budget, a held copy not written within 50 us is discarded as a lost billet. -/
  | heldCopyTimeout (kind : HeldKind) (t : Fin 24) (seq : W64) (path : Fin 2)
  /-- PROT_MODE_WRITE (R300): A write of PROT_CFG.MODE is a budget commit applied per tunnel at its next SEQ boundary. -/
  | protModeWrite (ag : Agent) (v : W32)
  /-- BUNDLE_PLACE (R301): A bundle is placed on line port queues of the paths under Twin, Standby or unprotected rules. -/
  | bundlePlace (t : Fin 24)
  /-- SWITCH_REQUEST (R304): A write of PROT_SWITCH_CTL requests a Standby switch to the named path. -/
  | switchRequest (ag : Agent) (v : W32)
  /-- SWITCH_EFFECTIVE (R305): A pending switch takes effect at a SEQ boundary, with replays under Lossless. -/
  | switchEffective
  /-- SWITCH_READY_TIMEOUT (R304): 1 ms after a WHEN_READY switch, it takes effect once at least one port of the new path is ready. -/
  | switchReadyTimeout
  /-- MERGE_DEADLINE (R314): The deadline of a SEQ passes with no authentic copy: a resend or a declared gap follows. -/
  | mergeDeadline (t : Fin 24) (seq : W64)
  /-- ALIGNMENT_SPILL (R315): A first copy unreleased 20 us after arrival is written to the hold store. -/
  | alignmentSpill (t : Fin 24) (seq : W64) (path : Fin 2)
  /-- ALIGNMENT_READBACK (R315): An alignment copy is read back into the merge buffer before its deadline. -/
  | alignmentReadback (t : Fin 24) (seq : W64) (path : Fin 2)
  /-- ACK_TIMER (R319): Every ACK_INT the receiver sends ACK if CUM or MAP changed, or at least every 64 intervals. -/
  | ackTimer (t : Fin 24)
  /-- RESEND_WAIT_EXPIRY (R320): After RESEND_WAIT a run is sent again, or after TRIES its members become a gap of cause 7. -/
  | resendWaitExpiry (t : Fin 24) (first : W64)
  /-- RIDE (R325): A write of PROT_CTL.RIDE enters ride-through for every tunnel with RIDE_EN. -/
  | rideCmd (ag : Agent)
  /-- END_RIDE (R327): A write of PROT_CTL.END_RIDE starts drain for every tunnel in ride-through. -/
  | endRide (ag : Agent)
  /-- DRAIN_START (R327): At the first SEQ boundary after a port is ready the backlog starts to drain. -/
  | drainStart (t : Fin 24)
  /-- DRAIN_STALL (R327): The backlog has not fallen for 100 ms and DRAIN_STALL is set. -/
  | drainStall (t : Fin 24)
  /-- LANE_DEC_CFG_WRITE (R338): A write of LANE_DEC_CFG; a PROFILE write reloads the stage-4 banks and abandons a cross-fade. -/
  | laneDecCfgWrite (ag : Agent) (n : Fin 48) (v : W32)
  /-- LANE_DEC_COEF_DATA (R340): An access of LANE_DEC_COEF_DATA reads or writes a chain coefficient and advances INDEX. -/
  | laneDecCoefData (ag : Agent) (n : Fin 48) (write : Option W32)
  /-- DEC_SWITCH (R341): A write of LANE_DEC_SWITCH.SWITCH starts a 64-output cross-fade to the inactive bank. -/
  | decSwitch (ag : Agent) (n : Fin 48) (v : W32)
  /-- DEC_OUTPUT (R342): The decimation chain delivers one output with its flags and time-stamp. -/
  | decOutput (n : Fin 48) (samples : List AdcIn)
  /-- DEC_CAPTURE_START (R346): A write of LANE_DEC_CAP_CTL.START clears the buffer and arms a capture of LEN outputs. -/
  | decCaptureStart (ag : Agent) (n : Fin 48) (v : W32)
  /-- DEC_CAPTURE_STOP (R346): A write of LANE_DEC_CAP_CTL.STOP ends recording with DONE. -/
  | decCaptureStop (ag : Agent) (n : Fin 48) (v : W32)
  /-- LANE_DEC_CAP_DATA (R346): A read of LANE_DEC_CAP_DATA_LO returns an entry and advances the capture index. -/
  | laneDecCapData (ag : Agent) (n : Fin 48)
  /-- MON_START (R348): A write of LANE_MON_CTL.START clears the histogram and starts a run. -/
  | monStart (ag : Agent) (n : Fin 48) (v : W32)
  /-- MON_STOP (R348): A write of LANE_MON_CTL.STOP ends the run with DONE. -/
  | monStop (ag : Agent) (n : Fin 48) (v : W32)
  /-- MON_RUN_END (R348): TOTAL reaches 2^LOG2 and the monitor run ends. -/
  | monRunEnd (n : Fin 48)
  /-- LANE_MON_HIST_DATA (R347): A read of LANE_MON_HIST_DATA returns a bin and advances the bin address. -/
  | laneMonHistData (ag : Agent) (n : Fin 48)
  /-- SQ_WINDOW_END (R350): A signal-quality window ends and all five level registers update together. -/
  | sqWindowEnd (n : Fin 48)
  /-- SMOKE_FRAME_SEND (R356): A lane's Smoke transmitter starts the next frame by the order of R372 at a block boundary. -/
  | smokeFrameSend (n : Fin 48)
  /-- SMOKE_FRAME_END (R356): A Smoke frame finishes sending, counting FRAMES_TX and setting TX_DONE. -/
  | smokeFrameEnd (n : Fin 48)
  /-- BEACON_DUE (R372): BEACON_INT seconds after the last beacon ended, a beacon becomes due. -/
  | beaconDue (n : Fin 48)
  /-- PREAMBLE_DETECT (R362): Five consecutive windows peak in one bin; the receiver enters SYNC and freezes its gain. -/
  | preambleDetect (n : Fin 48)
  /-- SMOKE_SYNC_CHECK (R362): The sync chirps are checked and frequency and timing estimated; failure returns to SEARCH. -/
  | smokeSyncCheck (n : Fin 48) (start : BitVec 16) (late : Byte) (freq : BitVec 16)
  /-- SMOKE_HEADER (R365): A Smoke header is decoded and judged valid or counted in HDR_FAIL. -/
  | smokeHeader (n : Fin 48) (snr : Byte) (secondOpen : Bool)
  /-- SMOKE_CAPTURE (R367): The second correlator's stronger detection takes over the reception with status CAPTURED. -/
  | smokeCapture (n : Fin 48)
  /-- SMOKE_FRAME_RX (R364): A Smoke payload ends; the frame is delivered when its CRC checks, or counted in PAY_FAIL. -/
  | smokeFrameRx (n : Fin 48)
  /-- BEACON (R373): A received beacon is recorded as an epoch notice and compared for path identity. -/
  | smokeBeacon (n : Fin 48) (payload : List Byte)
  /-- CONTROL (R375): A received CONTROL payload is handed to the tunnel unit as a copy from the lane's path. -/
  | smokeControl (n : Fin 48) (payload : List Byte)
  /-- FAULT (R378): A received FAULT frame enters the receive queue. -/
  | smokeFault (n : Fin 48) (fseq : Byte) (payload : List Byte)
  /-- GOING_DOWN (R376): A received GOING_DOWN frame enters the receive queue. -/
  | smokeGoingDown (n : Fin 48) (fseq : Byte) (payload : List Byte)
  /-- USER (R378): A received USER frame enters the receive queue. -/
  | smokeUser (n : Fin 48) (fseq : Byte) (payload : List Byte)
  /-- SMOKE_TX_POST (R377): A write of SMOKE_TX_POST queues a FAULT, GOING_DOWN or USER frame for sending. -/
  | smokeTxPost (ag : Agent) (n : Fin 48) (v : W32)
  /-- SMOKE_RX_POP (R378): A write of SMOKE_RX_POP removes the oldest received frame. -/
  | smokeRxPop (ag : Agent) (n : Fin 48) (v : W32)
  /-- SMOKE_CFG_WRITE (R354): A write of SMOKE_CFG sets channel parameters and abandons a running reception. -/
  | smokeCfgWrite (ag : Agent) (n : Fin 48) (v : W32)
  /-- SMOKE_CTL_WRITE (R377): A write of SMOKE_CTL; TX_EN = 0 discards the queue and RX_EN = 0 ends reception. -/
  | smokeCtlWrite (ag : Agent) (n : Fin 48) (v : W32)
  /-- EQ_ADAPT_DONE (R383): The Tinder receive equaliser setting is chosen and the link enters ALIGN. -/
  | eqAdaptDone (eyes : List (List (BitVec 16)))
  /-- TS_RX (R385): A TS1 or TS2 ordered set arrives and advances alignment, configuration or retrain. -/
  | tsRx (l : Fin 4) (ts : TsSet) (skew : Byte)
  /-- ALIGN_TIMEOUT (R384): In ALIGN, 2 ms leads to fallback width or 10 ms returns to RESET. -/
  | alignTimeout (ms10 : Bool)
  /-- CONFIG_TIMEOUT (R384): CONFIG has not completed after 2 ms and the link returns to RESET. -/
  | configTimeout
  /-- ALIGN_RX (R384): An ALIGN ordered set arrives; two misplaced ALIGN sets in a row cause a retrain. -/
  | alignRx (misplaced : Bool)
  /-- CODE_ERROR_BURST (R384): More than 8 code or disparity errors within 1 us cause a retrain. -/
  | codeErrorBurst (errors : BitVec 16)
  /-- RETRAIN (R384): A write of TINDER_CTL.RETRAIN moves the link to RESET after its response. -/
  | tinderRetrain (ag : Agent) (v : W32)
  /-- READ (R394): A Tinder READ packet reads LEN / 4 consecutive registers and answers READ_RSP. -/
  | tinderRead (session : Byte) (lseq : BitVec 12) (tag : BitVec 16) (addr : W32) (len : BitVec 16)
  /-- WRITE (R394): A Tinder WRITE packet writes consecutive registers and answers WRITE_RSP. -/
  | tinderWrite (session : Byte) (lseq : BitVec 12) (tag : BitVec 16) (addr : W32) (words : List W32)
  /-- WRITE_POSTED (R395): A Tinder WRITE_POSTED packet writes registers with no response, recording failures. -/
  | tinderWritePosted (session : Byte) (lseq : BitVec 12) (tag : BitVec 16) (addr : W32) (words : List W32)
  /-- OPEN (R392): A Tinder OPEN packet opens an Observer session or issues a CHALLENGE. -/
  | tinderOpen (session : Byte) (lseq : BitVec 12) (tag : BitVec 16) (code : Byte)
  /-- AUTH (R393): A Tinder AUTH packet checks the AES-CMAC and opens the session at the requested level. -/
  | tinderAuth (session : Byte) (lseq : BitVec 12) (tag : BitVec 16) (mac : BitVec 128)
  /-- CLOSE (R392): A Tinder CLOSE packet closes the session and discards its mailbox responses. -/
  | tinderClose (session : Byte) (lseq : BitVec 12) (tag : BitVec 16)
  /-- TINDER_ACK (R388): A received link ACK frees acknowledged packets from the replay buffer. -/
  | tinderAck (lseq : BitVec 12)
  /-- NAK (R388): A received NAK makes the sender replay from the packet after the named LSEQ. -/
  | tinderNak (lseq : BitVec 12)
  /-- BAD_PACKET (R387): A packet with an unknown TYPE, bad LEN or CRC error is discarded, counted and answered NAK. -/
  | badPacket (bytes : List Byte)
  /-- LINK_ACK_SEND (R388): At least every 1 us while packets arrive, the receiver sends ACK. -/
  | linkAckSend
  /-- SESSION_TIMEOUT (R390): A link not ACTIVE again 10 ms after leaving it closes every session. -/
  | sessionTimeout
  /-- LOCKOUT_END (R393): A 1 s authentication lockout ends and LOCKOUT clears. -/
  | lockoutEnd
  /-- SPI_READ (R397): SPI command 0x0B reads registers from the address upward while the chip select is held. -/
  | spiRead (addr : W32) (count : BitVec 16)
  /-- SPI_WRITE (R397): SPI command 0x02 writes each register word when its fourth byte arrives. -/
  | spiWrite (addr : W32) (words : List W32)
  /-- SPI_STATUS (R397): SPI command 0x05 returns the status of the last access. -/
  | spiStatus
  /-- SPI_OPEN (R397): SPI command 0x06 issues a nonce to open session 0 with challenge and response. -/
  | spiOpen
  /-- SYS_AUTH_REQ (R393): A write of SYS_AUTH_REQ checks the SPI session's MAC for the requested level. -/
  | sysAuthReq (ag : Agent) (v : W32)
  /-- IRQ_SOURCE_EVENT (R401): A unit event or level reaches a source, adding to COUNT or latching PENDING. -/
  | irqSourceEvent (src : Fin 512)
  /-- IRQ_COMMIT (R408): The controller commits the lowest deliverable source to each target and marks it ACTIVE. -/
  | irqCommit
  /-- IRQ_COMPLETE (R410): A write of IRQ_COMPLETE completes an active source or consumes N counted events. -/
  | irqComplete (ag : Agent) (v : W32)
  /-- IRQ_SW_SET (R409): A write of IRQ_SW_SET adds one event to a software source. -/
  | irqSwSet (ag : Agent) (v : W32)
  /-- IRQ_PENDING_WRITE (R415): A write of an IRQ_PENDING word sets or clears pending bits with their counts. -/
  | irqPendingWrite (ag : Agent) (w : Fin 16) (v : W32)
  /-- IRQ_SRC_WRITE (R401): A write of IRQ_SRC sets MASK, targets or LEVEL, refused where the source is pending or active. -/
  | irqSrcWrite (ag : Agent) (n : Fin 512) (v : W32)
  /-- IRQ_MASK_WRITE (R414): A write of an IRQ_MASK word, completing after its 8-cycle window. -/
  | irqMaskWrite (ag : Agent) (w : Fin 16) (v : W32)
  /-- MEMP_SCRUB (R426): The on-chip scrubber reads one valid word, writing back corrections or poisoning it. -/
  | mempScrub (region : Fin 11) (word : BitVec 24) (upsets : List Upset) (passEnds : Bool)
  /-- SCRUB_LATE (R426): A scrub pass not complete within twice PERIOD sets SCRUB_LATE. -/
  | scrubLate
  /-- INJECT_ARM (R430): A write of MEMP_INJECT_CTL with ARM = 1 arms an error injection, or ARM = 0 disarms it. -/
  | injectArm (ag : Agent) (v : W32)
  /-- MEMP_LOG_POP (R432): A write of MEMP_LOG_POP removes the oldest log entry. -/
  | mempLogPop (ag : Agent)
  /-- ERROR_LINE (R434): A rising error line latches its CHAR_STATUS bit unless busy and starts its reactions. -/
  | errorLine (lines : List (Fin 64 × Byte × Byte))
  /-- BLOCK_RESET (R519): A block reset returns one instance's registers to reset values and aborts its commands. -/
  | blockReset (src : Fin 64) (inst : BitVec 8)
  /-- CHAR_STATUS_ACK (R434): A write of 1 to CHAR_STATUS bits acknowledges latched sources. -/
  | charStatusAck (ag : Agent) (hi : Bool) (v : W32) (lines : List (Fin 64 × Byte × Byte))
  /-- FAULT_REACT_WRITE (R439): A write of FAULT_REACT_n sets a source's reactions, refusing BLOCK_RESET where none exists. -/
  | faultReactWrite (ag : Agent) (n : Fin 64) (v : W32)
  /-- ALIVE_STOP (R442): A write of FAULT_ALIVE.STOP, or a stop condition, holds EMBER_ALIVE low. -/
  | aliveStop (ag : Agent)
  /-- RESUME (R443): A write of FAULT_ALIVE.RESUME restarts EMBER_ALIVE unless a stop condition still holds. -/
  | aliveResume (ag : Agent)
  /-- ALIVE_HALF_PERIOD (R442): Every 2,000 ember clock periods EMBER_ALIVE toggles while running. -/
  | aliveHalfPeriod
  /-- EMBER_OSCILLATOR_LOSS (R442): Loss of the ember oscillator stops EMBER_ALIVE until power is cycled. -/
  | emberOscillatorLoss
  /-- FAULT_SW_SET (R444): A write of FAULT_SW_SET.RAISE drives the error line of source 45 for one cycle. -/
  | faultSwSet (ag : Agent) (v : W32)
  /-- KILN_REGION_DONE (R447): A region's start-up test ends and the region is released, repaired, excluded or fatal. -/
  | kilnRegionDone (n : Fin 139) (logic : Option (BitVec 24)) (rows : List (BitVec 24 × Fin 72))
  /-- KILN_SLICE_START (R451): A scheduled in-service slice starts on an idle region after GATE, saving its state. -/
  | kilnSliceStart (n : Fin 139) (row : Option (BitVec 16))
  /-- KILN_SLICE_END (R452): A slice completes, restores the region and compares its signature. -/
  | kilnSliceEnd (fail : Option (BitVec 24 × Fin 72)) (passEnds : Bool)
  /-- KILN_SLICE_ABORT (R454): A data-path request to a region under test aborts the slice and restores it within 40 ns. -/
  | kilnSliceAbort (steps : BitVec 16)
  /-- KILN_START_TIMEOUT (R455): A slice not started within 10 us of its scheduled time counts as an abort. -/
  | kilnStartTimeout (n : Fin 139) (row : Option (BitVec 16))
  /-- KILN_RETRY (R456): RETRY after an abort the region's next attempt comes due. -/
  | kilnRetry (n : Fin 139)
  /-- KILN_STOP (R457): A write of KILN_CTL.STOP ends a running slice as INCOMPLETE. -/
  | kilnStop (ag : Agent) (v : W32)
  /-- MCV_GO (R466): A write of MCV_CTL.GO starts the converter's sequence at entry 0. -/
  | mcvGo (ag : Agent) (c : Fin 8) (v : W32)
  /-- MCV_STOP (R466): A write of MCV_CTL.STOP ends the sequence after the conversion in progress. -/
  | mcvStop (ag : Agent) (c : Fin 8) (v : W32)
  /-- MCV_PERIODIC_TRIGGER (R466): Every MCV_PERIOD the armed periodic trigger starts a sequence or counts an overrun. -/
  | mcvPeriodicTrigger (c : Fin 8)
  /-- MCV_CONVERSION_DONE (R468): A conversion completes and writes its result register with a new SEQNUM. -/
  | mcvConversionDone (c : Fin 8) (data : BitVec 12)
  /-- MCV_URGENT (R472): A write of MCV_URGENT queues one conversion that aborts a sequence conversion. -/
  | mcvUrgent (ag : Agent) (c : Fin 8) (v : W32)
  /-- MCV_RESULT_READ (R469): A read of a result register returns it and clears FRESH. -/
  | mcvResultRead (ag : Agent) (c : Fin 8) (k : Fin 17)
  /-- MCV_CAPTURE_START (R474): A write of MCV_CAP_CTL.START starts an interleaved capture on a pair. -/
  | mcvCaptureStart (ag : Agent) (p : Fin 4) (v : W32)
  /-- MCV_CAPTURE_STOP (R475): A write of MCV_CAP_CTL.STOP ends the capture with ABANDONED. -/
  | mcvCaptureStop (ag : Agent) (p : Fin 4) (v : W32)
  /-- MCV_CAP_DATA (R475): A read of MCV_CAP_DATA returns an entry and advances the entry address. -/
  | mcvCapData (ag : Agent) (p : Fin 4)
  /-- MCV_SIM_TRIG (R476): A write of MCV_SIM_TRIG fires the common trigger for the named converters. -/
  | mcvSimTrig (ag : Agent) (v : W32)
  /-- REFERENCE_WAKE (R477): A pair's reference finishes its 5 us wake and waiting conversions start. -/
  | referenceWake (p : Fin 4)
  /-- CONVERTER_CALIBRATION_END (R464): The 50 us converter calibration after a wake ends and conversions may start. -/
  | converterCalibrationEnd (c : Fin 8) (failed : Bool)
  /-- REF_SEL_WRITE (R481): A write of PWR_CLK_CTL selects the reference and spread settings. -/
  | refSelWrite (ag : Agent) (v : W32)
  /-- REFERENCE_LOSS (R482): A reference shows no edge for 1 us; PLLs hold over and switch over when allowed. -/
  | referenceLoss (r : Fin 2)
  /-- HOLDOVER_END (R482): 100 us of holdover pass without switchover and the core PLL loses lock. -/
  | holdoverEnd
  /-- BLOCK_STATE_ENTRY (R489): The power manager places an idle block in the deepest state that fits before its next event. -/
  | blockStateEntry (n : Fin 26) (work race : Bool)
  /-- BLOCK_WAKE (R490): A command, a holding condition or a due event wakes a block to Blaze. -/
  | blockWake (n : Fin 26)
  /-- SCHEDULED_WAKE (R489): At E minus wake time minus MARGIN the power manager starts waking a block. -/
  | scheduledWake (n : Fin 26)
  /-- WAKE_FAIL (R492): A block not ready after twice its wake time is woken again, then marked WAKE_FAIL. -/
  | wakeFail (n : Fin 26)
  /-- SENSOR_READ (R494): Every 10 us the thermal unit reads one die sensor and, per sweep, updates H and the Damper. -/
  | sensorRead (code : BitVec 12) (convFault : Bool)
  /-- GRACE_EXPIRY (R497): The grace time ends in REQUEST and the Damper enters ENFORCE. -/
  | graceExpiry
  /-- DAMPER_RELEASE (R496): H stays below W - 3 C for 1 s or 10 s and the Damper returns to NORMAL. -/
  | damperRelease
  /-- THERM_STOP (R496): A write of THERM_CTL.STOP enters the orderly stop. -/
  | thermStop (ag : Agent)
  /-- ORDERLY_STOP_COMPLETE (R499): The orderly stop's steps complete and the Damper enters STOPPED. -/
  | orderlyStopComplete
  /-- RESTART_OK (R500): H stays below 95 C for 10 s in STOPPED and RESTART_OK sets. -/
  | restartOk
  /-- THERM_RESTART (R500): A write of THERM_CTL.RESTART with RESTART_OK performs a chip reset. -/
  | thermRestart (ag : Agent)
  /-- HARD_CUT_TRIP (R501): The ember comparator trips at 125 C and holds every block in reset. -/
  | hardCutTrip
  /-- HARD_CUT_RELEASE (R501): The comparator releases below 105 C. -/
  | hardCutRelease
  /-- PERF_CNT_WRITE (R506): A write of PERF_CNT_n sets the counter, adding events of the same cycle. -/
  | perfCntWrite (ag : Agent) (n : BitVec 8) (half : Fin 3) (v : W64)
  /-- PERF_SEL_WRITE (R504): A write of PERF_SEL_n selects an event, refusing reserved numbers. -/
  | perfSelWrite (ag : Agent) (n : BitVec 8) (v : W32)
  /-- COUNTER_OVERFLOW (R507): A counter carries past its maximum, sets PERF_OVF, raises source 32b+18 and reloads. -/
  | counterOverflow (n : BitVec 8) (amount : BitVec 16)
  /-- NOW (R510): A write of PERF_DUMP.NOW takes a snapshot of all counters. -/
  | perfNow (ag : Agent)
  /-- NOW_CLEAR (R510): A write of PERF_DUMP.NOW_CLEAR takes a snapshot and clears enabled counters. -/
  | perfNowClear (ag : Agent)
  /-- PERIODIC_SNAPSHOT (R510): Every PERF_DUMP_CFG.PERIOD a snapshot is taken. -/
  | periodicSnapshot
  /-- SNAPSHOT_WRITTEN (R512): A snapshot finishes writing to the ring, header last, and is mirrored where enabled. -/
  | snapshotWritten
  /-- PERF_RING_TAIL_WRITE (R512): A write of PERF_RING.TAIL frees read slots of the Flue ring. -/
  | perfRingTailWrite (ag : Agent) (v : W32)
  /-- POWER_ON (R518): VDD_EMBER is applied; the ember domain clears and a chip reset follows. -/
  | powerOn
  /-- RESET_N (R516): A low pulse of at least 10 us on RESET_N causes a chip reset. -/
  | resetPin
  /-- CHIP_RESET (R518): A chip reset clears keys and sessions, takes a new epoch and starts Kiln and boot. -/
  | chipReset (cause : Fin 7)
  /-- SYS_RESET_CHIP (R518): A write of SYS_RESET_CTL.CHIP performs a chip reset after the response is sent. -/
  | sysResetChip (ag : Agent)
  /-- SYS_RESET_BLOCK (R519): A write of SYS_RESET_CTL.BLOCK resets one instance of a source. -/
  | sysResetBlock (ag : Agent) (src : Fin 64) (inst : BitVec 8)
  /-- SUPPLY_LOW (R517): A rail falls below its operating minimum and latches CHAR_STATUS bit 39. -/
  | supplyLow (rail : Fin 16)
  /-- SUPPLY_RESET (R517): A rail below its minimum for more than 10 us forces a chip reset. -/
  | supplyReset
  /-- BOOT (R523): From reset release the boot controller votes the pointer and checks the image banks. -/
  | bootCheck
  /-- BOOT_LOAD (R523): Once Kiln releases regions 131, 132 and 138, boot loads tables, writes the list and starts engines. -/
  | bootLoad (entry : EntryTable)
  /-- PEAT_DATA (R527): An access of PEAT_DATA reads or merges a write at PEAT_ADDR and advances the address. -/
  | peatData (ag : Agent) (write : Option W32)
  /-- PEAT_WORD_PROGRAM (R527): A merged Peat word is programmed when the address leaves it or 1 us after the last write. -/
  | peatWordProgram
  /-- VERIFY (R528): A write of PEAT_CMD with OP VERIFY checks a bank. -/
  | peatVerify (ag : Agent) (bank : Fin 2)
  /-- VERIFY_DONE (R528): A bank check completes, reporting its result and raising source 489. -/
  | peatVerifyDone
  /-- ACTIVATE (R528): A write of PEAT_CMD with OP ACTIVATE points the image pointer at a verified bank. -/
  | peatActivate (ag : Agent) (bank : Fin 2)
  /-- OWNER_DIGEST_WRITE (R522): A one-time write of the owner key digest in the recovery condition. -/
  | ownerDigestWrite (ag : Agent) (d : BitVec 384)
  /-- IO_BAY_PINS_WRITE (R551): A write of IO_BAY_PINS drives a bay's module reset and low-power pins. -/
  | ioBayPinsWrite (ag : Agent) (b : Fin 6) (v : W32)
  /-- I2C_GO (R552): A write of IO_BAY_I2C_CTL.GO starts a management-bus transfer. -/
  | i2cGo (ag : Agent) (b : Fin 6) (v : W32)
  /-- I2C_TRANSFER_END (R552): A management transfer ends with STOP and a RESULT. -/
  | i2cTransferEnd (b : Fin 6) (result : Fin 7) (count : Fin 33) (data : List Byte)
  /-- I2C_TIMEOUT (R552): A clock stretched for more than 25 ms ends the transfer with TIMEOUT. -/
  | i2cTimeout (b : Fin 6) (count : Fin 33) (data : List Byte)
  /-- MODULE_PRESENCE (R551): A change on BAY_b_PRS_N updates PRESENT and sets PRS_CHG. -/
  | modulePresence (b : Fin 6) (present : Bool)
  /-- MODULE_INT (R551): A low on BAY_b_INT_N sets INT and INT_SEEN. -/
  | moduleInt (b : Fin 6) (low : Bool)
  /-- TEST_EN (R534): TEST_EN high holds every non-ember block in reset. -/
  | testEnable (high : Bool)
  /-- JTAG_INSTRUCTION (R550): Loading a test instruction; pin-controlling instructions zeroise every key first. -/
  | jtagInstruction (opcode : Byte)
  /-- TEST_LOGIC_RESET (R550): Test-logic reset returns pins to functional control and selects IDCODE. -/
  | testLogicReset
  /-- WARM_STALE_CLEAR (R141): A Warm lane that has tracked the signal again for 1 ms clears WARM_STALE. -/
  | warmStaleClear (n : Fin 48)
  /-- REFERENCE_RETURN (R482): A lost reference shows edges again; its OK bit sets and comparison of the two references resumes. -/
  | referenceReturn (r : Fin 2) (disagree : Bool)
  /-- SUPPLY_RECOVERY (R517): A rail that was below its operating minimum recovers and the supply monitors release the reset they held. -/
  | supplyRecovery (rail : Fin 16)
  /-- BLOCK_RESET_END (R519): A block reset completes within 10 us; the source's reaction ends and, for the protection unit, resend runs are sent again. -/
  | blockResetEnd (src : Fin 64) (inst : BitVec 8)
  /-- BLOCK_TRANSITION_END (R487): A managed block's entry to Glow, Bank or Smoulder, or its wake to Blaze with ready time, ends and CUR takes the new state. -/
  | blockTransitionEnd (n : Fin 26)
  /-- BAY_RESET_HOLD_END (R551): When RESET was written 0 before 10 us had passed, BAY_b_RST_N is released at the end of its 10 us minimum low time. -/
  | bayResetHoldEnd (b : Fin 6)
  /-- HOST_ACCESS_TIMEOUT (R395): A host register access whose unit has not completed within 100 us completes TIMEOUT and ends its burst. -/
  | hostAccessTimeout (session : Fin 9)
  deriving DecidableEq, Repr

end Sys2Proof
end

