-- ==== Sys2Proof/Decode.lean ====
section
/-!
DEFINITION. The commands that words spell by the bits of the opcode table, and the decoder of Torvulo instruction words (R56, Tables 2-4 and 2-6).
-/

namespace Sys2Proof

/-- The command a word of `nbits` bits spells. Every row of the table of operations and events comes without bits, so no word spells a command. -/
def decodeTableWord (_nbits _w : Nat) : Option Instr := none

/-- The operand fields of a Torvulo instruction word (Table 2-4). -/
def torvuloFields (w : Nat) : Machine.IW :=
  { d := Fin.ofNat 16 (w / 2 ^ 52)
    a := Fin.ofNat 16 (w / 2 ^ 48)
    b := Fin.ofNat 16 (w / 2 ^ 44)
    cond := Fin.ofNat 16 (w / 2 ^ 40)
    x := BitVec.ofNat 8 (w / 2 ^ 32)
    imm := BitVec.ofNat 32 w }

/-- The opcode of a Torvulo instruction word (Table 2-4). -/
def torvuloOp (w : Nat) : Nat := w / 2 ^ 56 % 256

/-- The instruction of bank `b` that a word of table memory encodes; none for an opcode Table 2-6 does not define, 0x00 among them (R52). -/
def torvuloDecode (b : Fin 8) (w : Nat) : Option Instr :=
  let f := torvuloFields w
  match torvuloOp w with
  | 0x01 => some (.addOp b f)
  | 0x02 => some (.subOp b f)
  | 0x03 => some (.andOp b f)
  | 0x04 => some (.orOp b f)
  | 0x05 => some (.xorOp b f)
  | 0x06 => some (.shl b f)
  | 0x07 => some (.shr b f)
  | 0x08 => some (.sar b f)
  | 0x09 => some (.mul b f)
  | 0x0A => some (.cmp b f)
  | 0x0B => some (.tst b f)
  | 0x10 => some (.li b f)
  | 0x11 => some (.lih b f)
  | 0x12 => some (.mov b f)
  | 0x13 => some (.mfl b f)
  | 0x14 => some (.mtag b f)
  | 0x20 => some (.load b f [])
  | 0x21 => some (.store b f)
  | 0x22 => some (.casOp b f [])
  | 0x30 => some (.branch b f)
  | 0x31 => some (.branchLink b f)
  | 0x32 => some (.branchReg b f)
  | 0x33 => some (.ret b f)
  | 0x34 => some (.trap b f)
  | 0x35 => some (.halt b f)
  | 0x40 => some (.issueCmd b f)
  | 0x41 => some (.issueQry b f)
  | 0x42 => some (.issueGet b f)
  | 0x43 => some (.wtag b f)
  | 0x44 => some (.cpop b f)
  | 0x45 => some (.fence b f)
  | 0x50 => some (.wfe b f false)
  | 0x51 => some (.tset b f)
  | 0x52 => some (.tclr b f)
  | 0x53 => some (.readTime b f)
  | 0x54 => some (.declareNext b f)
  | 0x55 => some (.ckpt b f)
  | 0x60 => some (.mrecv b f)
  | 0x61 => some (.msend b f)
  | 0x70 => some (.sig b f)
  | _ => none

end Sys2Proof
end

