-- ==== Sys2Proof/Config.lean ====
section
/-!
DEFINITION. What the specification leaves open, as constants without a body: a proof about the model holds whatever their values are.
-/

namespace Sys2Proof.Config

/-- A fresh free value: the machine applies it to a counter of the state and advances the counter (log entry 1). -/
opaque freeNat : Nat → Nat

/-- How many commands beyond the first the command queue of a unit holds, by the unit's window: not given (R60; log entry 12). -/
opaque queueExtra : Nat → Nat

/-- How a codeword with three or more inverted bits of a SEC-DED word decodes, as a function of the inverted data and check bits: the column set of the
code is not given (R419). The answer is used modulo 3: 0 a miscorrection, 1 uncorrectable, 2 undetected (log entry 8). -/
opaque secdedMany : Nat → Nat → Nat

/-- The value a miscorrected word reads as, from the stored value and the inverted data and check bits (R419; log entry 8). -/
opaque miscorrected : Nat → Nat → Nat → Nat

/-- The fraction, below a coefficient's least bit, that an adaptation loop's update carries, from the magnitude of the summed gradient and the divisor: not
given (R132; log entry 9). -/
opaque loopFrac : Nat → Nat → Nat

/-- How the equaliser output is rounded to its units, from the magnitude of the exact sum: not given (R126; log entry 9). -/
opaque eqFrac : Nat → Nat

/-- The error of the constant-modulus criterion, from the equaliser output + 2,048: not given (Table 3-7; log entry 9). -/
opaque blindError : Nat → Int

/-- The phase detector of the clock recovery, from the equaliser output + 2,048 and the tentative decision: not given (R121; log entry 9). -/
opaque phaseError : Nat → Nat → Int

/-- The step of the integral path for a bandwidth setting and a phase error, in 0.01 ppm: not given (R122; log entry 9). -/
opaque cdrIntegral : Nat → Int → Int

/-- The proportional step for a bandwidth setting and a phase error, in 1/64 UI: not given (R122; log entry 9). -/
opaque cdrProportional : Nat → Int → Int

/-- The phase a symbol period adds at a frequency offset in 0.01 ppm, in 1/64 UI: what the loop carries below 1/64 is not given (R121; log entry 9). -/
opaque cdrDrift : Int → Int

/-- The reduced clock recovery of Warm: the phase after a spare sample, from the phase and the sample's code (Table 3-6; log entry 9). -/
opaque cdrReduced : Nat → Nat → Nat

/-- Symbol `k` of SSPRQ, a pattern of another standard that the specification only names (Table 4-3; log entry 53). -/
opaque ssprq : Nat → Nat

/-- Where the merge buffer holds the copy of a SEQ of a tunnel that came on a path: its first word; not given (region 2 of Table 13-1; log entry 8). -/
opaque mergeWord : Nat → Nat → Nat → Nat

/-- Where a queue of a tunnel holds its frame number `n`, by direction (0 ingress, 1 egress), tunnel and number: its first word; not given (region 3; log entry
8). -/
opaque queueWord : Nat → Nat → Nat → Nat

/-- Where the protection indices hold the entry of a SEQ, by kind (0 retransmission, 1 alignment, 2 hold-back), tunnel, SEQ and path: not given (region 4; log
entry 8). -/
opaque indexWord : Nat → Nat → Nat → Nat → Nat

/-- The check bits of a stored word, from its data: the column set of the code is not given (R419; log entry 8). -/
opaque checkBits : Nat → Nat

/-- The error of the mixer's cosine at a phase, 0, 1 or 2 standing for -1, 0 and 1 of its least bit, which keeps its spurs below -90 dBc: not given (R337;
log entry 37). -/
opaque ncoError : Nat → Nat

/-- A sample of the spare slice, in 1/256 ADC LSB from mid-scale, gain-matched to the Lit mean, by the trims of the spare: how is not given (Table 9-1; log
entry 37). -/
opaque gainMatch : Nat → Int → Int

/-- The fixed processing latency of the chain of a lane in 0.4 ns, with the phase of the spare in Warm: not given (R344; log entry 37). -/
opaque chainLatency : Nat → Bool → Nat

/-- How a statistic of the signal-quality monitor is rounded, from its numerator and denominator: not given (R350; log entry 37). -/
opaque statFrac : Nat → Nat → Nat

/-- Tap k, 0 to 15, of the decimation chain's own low-pass of stage 3, which is symmetric: of the others only its pass and stop bands are given (R338; log
entry 9). -/
opaque stageThree : Nat → Nat

/-- The fixed rms level at which a Smoke modem's gain loop keeps the chain output: not given (R366; log entry 49). -/
opaque smokeLevel : Nat

/-- By how much a Smoke receiver's timing tracking changes the spacing of the chips after a symbol, from the symbol's chips: not given (R362; log entry 49). -/
opaque chipRate : List (Int × Int) → Nat

/-- The Smoke receiver's own chain coefficients, by chirp bandwidth and index: not given (R345; log entry 9). -/
opaque smokeTap : Nat → Nat → Nat

/-- How the uniform PAM4 levels m T/√5, m = 1 or 3, of a target rms code T are rounded: 1 up, 0 down, from m and T: not given (R143; log entry 9). -/
opaque pam4Round : Nat → Nat → Nat

/-- The slicer at a midpoint, by the number of the lower level: 1 the upper level, 0 the lower one: not given (R128; log entry 9). -/
opaque sliceTie : Nat → Nat

/-- The metric difference of a decision with MLSE OFF, from the equaliser output + 2,048: without path metrics none is given (Table 3-10; log entry 9). -/
opaque sliceMargin : Nat → Nat

end Sys2Proof.Config
end

