-- ==== Sys2Proof/Machine/Store.lean ====
section
/-!
DEFINITION. Sparse tables in one canonical form: keys strictly rising, no entry equal to what an unlisted key reads as. Registers, memories and the
per-object records of the machine are all held in such tables, so equal contents are equal data.
-/

namespace Sys2Proof.Machine

/-- The value listed at a key. -/
def Amap.find {κ α : Type} [DecidableEq κ] : List (κ × α) → κ → Option α
  | [], _ => none
  | (k', v) :: m, k => if k' = k then some v else Amap.find m k

/-- The value a key reads as: the listed one, else the default `d`. -/
def Amap.get {κ α : Type} [DecidableEq κ] (d : α) (m : List (κ × α)) (k : κ) : α :=
  (Amap.find m k).getD d

/-- The table without a key. -/
def Amap.erase {κ α : Type} [DecidableEq κ] (m : List (κ × α)) (k : κ) : List (κ × α) :=
  m.filter fun e => e.1 ≠ k

/-- An entry placed before the first greater key. -/
def Amap.ins {κ α : Type} (lt : κ → κ → Bool) : List (κ × α) → κ → α → List (κ × α)
  | [], k, v => [(k, v)]
  | e :: m, k, v => if lt k e.1 then (k, v) :: e :: m else e :: Amap.ins lt m k v

/-- Write: the entry is replaced, or removed when the value is what an unlisted key reads as. -/
def Amap.put {κ α : Type} [DecidableEq κ] [DecidableEq α] (lt : κ → κ → Bool) (d : α) (m : List (κ × α)) (k : κ) (v : α) : List (κ × α) :=
  if v = d then Amap.erase m k else Amap.ins lt (Amap.erase m k) k v

/-- Keys strictly rising. -/
def Amap.sorted {κ α : Type} (lt : κ → κ → Bool) : List (κ × α) → Bool
  | [] => true
  | [_] => true
  | a :: b :: m => lt a.1 b.1 && Amap.sorted lt (b :: m)

/-- The order of plain numbers as keys. -/
def natLt (a b : Nat) : Bool := decide (a < b)

/-- The key of a register field: register, instance, lowest bit. -/
structure FKey where
  reg : Reg
  inst : Nat
  lo : Nat
  deriving DecidableEq, Repr

/-- The order of field keys: register, then instance, then lowest bit. -/
def FKey.lt (a b : FKey) : Bool :=
  decide (a.reg.ctorIdx < b.reg.ctorIdx) ||
    (decide (a.reg.ctorIdx = b.reg.ctorIdx) && (decide (a.inst < b.inst) || (decide (a.inst = b.inst) && decide (a.lo < b.lo))))

/-- The register store: every field of every register instance, unlisted ones at their reset value. -/
abbrev RegStore := List (FKey × Nat)

/-- The key of field `f` of instance `i`. -/
def Fld.key (f : Fld) (i : Nat) : FKey := ⟨f.reg, i, f.lo⟩

/-- The value of a field of one instance. -/
def RegStore.get (m : RegStore) (f : Fld) (i : Nat) : Nat := Amap.get (f.reset i) m (f.key i)

/-- Write a field of one instance; bits above the field's width are dropped. -/
def RegStore.set (m : RegStore) (f : Fld) (i v : Nat) : RegStore :=
  Amap.put FKey.lt (f.reset i) m (f.key i) (v % 2 ^ f.w)

/-- The field whose key is `k`, when the register tables list one. -/
def FKey.fld (k : FKey) : Option Fld := k.reg.fields.find? fun f => f.lo = k.lo

/-- An entry of the store is canonical: it names a listed field and holds a value of the field's width other than the reset value. -/
def RegStore.entryOk (e : FKey × Nat) : Bool :=
  match e.1.fld with
  | none => false
  | some f => decide (e.2 < 2 ^ f.w) && decide (e.2 ≠ f.reset e.1.inst)

/-- The canonical form of the register store. -/
def RegStore.wf (m : RegStore) : Bool := Amap.sorted FKey.lt m && m.all RegStore.entryOk

/-- The memories of the device that are addressed by words (and small tables of words the units keep). -/
inductive Space where
  | table          -- table memory, 64-bit instruction words (R52)
  | priv           -- private data memory: bank * 0x2000 + word (R53, R54)
  | shared         -- state areas and general shared data memory, word = byte address / 8 (R53, R55)
  | mbxStage       -- staging buffers: (bank * 32 + session) * 16 + word (R84, R560)
  | mbxFull        -- STK_MBX_STATUS.POST_FULL: bank * 32 + session
  | mbxDropped     -- STK_MBX_STATUS.RSP_DROPPED: bank * 32 + session
  | owner          -- ownership map (R71): object index
  | rxCoef         -- lane receive coefficients: lane * 0x10000 + bank * 0x400 + index (R136)
  | rxSnap         -- coefficient snapshot of a lane, same index (R135)
  | txActive       -- lane transmit coefficients in use: lane * 0x100 + index (R158)
  | txShadow       -- lane transmit shadow bank (R160)
  | decCoef        -- decimation coefficients: lane * 0x1000 + bank * 0x100 + index (R340)
  | capBuf         -- decimation capture buffer: lane * 1024 + entry (R346)
  | hist           -- monitor histogram: lane * 256 + bin (R347)
  | keySlot        -- key slot contents: slot * 16 + 32-bit word (8 key words, 1 salt word) (R248)
  | mcvCap         -- converter capture buffer: pair * 256 + entry (R474)
  | ring           -- Flue ring: slot * 512 + word (R512)
  | mirror         -- mirror of the ring in the hold store: (channel * 256 + entry) * 528 + word (R513)
  | peat           -- Peat store: 32-bit words, word = byte address / 4 (R520)
  | irqParty       -- the party that received an active source: 0 to 7 a bank, 8 the host (R411)
  | latchWord      -- the FAULT_REACT word in force at the latch of a source (R443)
  | valid          -- valid bits (R421): region * 2^24 + word
  deriving DecidableEq, Repr

/-- The width of a word of each memory. -/
def Space.width : Space → Nat
  | .table => 64 | .priv => 64 | .shared => 64 | .mbxStage => 32 | .mbxFull => 1 | .mbxDropped => 8
  | .owner => 4 | .rxCoef => 32 | .rxSnap => 32 | .txActive => 32 | .txShadow => 32 | .decCoef => 32
  | .capBuf => 64 | .hist => 32 | .keySlot => 32 | .mcvCap => 16 | .ring => 32 | .mirror => 32 | .peat => 32 | .irqParty => 4 | .latchWord => 11 | .valid => 1

/-- The key of a memory word. -/
structure MKey where
  space : Space
  idx : Nat
  deriving DecidableEq, Repr

/-- The order of memory keys. -/
def MKey.lt (a b : MKey) : Bool :=
  decide (a.space.ctorIdx < b.space.ctorIdx) || (decide (a.space.ctorIdx = b.space.ctorIdx) && decide (a.idx < b.idx))

end Sys2Proof.Machine
end

