-- ==== Sys2Proof/Machine/State.lean ====
section
/-!
DEFINITION. The state of the device as plain data: the register store, the memories, the per-object records the registers do not hold, and the queue of
waiting commands; the machine right after reset.
-/

namespace Sys2Proof.Machine

/-- The only way the block stops. -/
inductive Fault where
  /-- Raised by no command: the specification gives every command of the table an effect, also where the device refuses it (safe). -/
  | outsideTheTable
  deriving DecidableEq, Repr

/-- The refusals of the model. -/
inductive Refusal where
  /-- Raised by the dispatcher for a command whose meaning is not written; the argument is its mnemonic (safe). -/
  | notModelled (mnemonic : String)
  deriving DecidableEq, Repr

/-- Completion and response status (Table 2-8, Table 11-5). `waiting` is the model's own: the access has not completed yet. -/
inductive Status where
  | ok | aborted | refusedBudget | refusedPriv | notOwner | badAddress | timeout | unitError | refusedState | refusedMode | poisoned | noTag
  | noSession | waiting
  deriving DecidableEq, Repr

/-- The code of a status (Table 2-8; NO_SESSION of Table 11-5 is 0x0B). -/
def Status.code : Status → Nat
  | .ok => 0 | .aborted => 1 | .refusedBudget => 2 | .refusedPriv => 3 | .notOwner => 4 | .badAddress => 5 | .timeout => 6
  | .unitError => 7 | .refusedState => 8 | .refusedMode => 9 | .poisoned => 0xA | .noSession => 0xB | .noTag => 0xF | .waiting => 0

/-! ### Stoker banks (R44 to R93) -/

/-- What a bank's context does (STK_STATUS.STATE without FAILED and ADOPTED). -/
inductive Ctx where
  | stopped | running | sleeping | inFaultEntry | halted
  deriving DecidableEq, Repr

/-- Where the unit is with a command: received, applied (R73) with its status and value, or done with it. -/
inductive Phase where
  | issued
  | applied (st : Status) (v : Nat)
  | gone
  deriving DecidableEq, Repr

/-- A command of a bank: its tag, its number in the order of issue over all banks, its address, direction, width, value, the unit's phase, the completion the bank holds (status, value, arrival
number), and whether the tag is quarantined (R69 to R75). -/
structure Cmd where
  tag : Nat
  serial : Nat
  addr : Nat
  write : Bool
  wide : Bool
  value : Nat
  phase : Phase
  answer : Option (Status × Nat × Nat)
  timedOut : Bool
  quarantined : Bool
  waited : Nat   -- device time waited that counts towards CMD_TIMEOUT (R74)
  deriving DecidableEq, Repr

/-- An entry of the replay log (R90): the logged result of an instruction, or a `get` that has issued its read and still waits. -/
inductive LogEntry where
  | result (d : Option Nat) (tag : Option Nat) (stat : Option Nat) (z : Option Bool)
  | getIssued (tag : Nat)
  deriving DecidableEq, Repr

/-- The wait a context's current instruction is in (R60, R65). -/
inductive Stall where
  | none
  | cmd | qry | getFree | getWait (tag : Nat) | wtag | msend
  | fence (tags : List Nat)
  deriving DecidableEq, Repr

/-- A timer of a bank (R68): its setting while armed, and whether its event is pending. -/
structure Timer where
  setting : Option Nat
  fired : Bool
  deriving DecidableEq, Repr

/-- A bank and its context (R46): everything that follows the bank from engine to engine. -/
structure Bank where
  g : List (Nat × W64)            -- g1 to g15, sparse, default 0 (R49)
  fz : Bool
  fn : Bool
  fc : Bool
  fv : Bool
  fe : Bool
  fst : Nat                       -- flags ST (R50)
  tag : Nat                       -- TAG (R51)
  pc : Nat
  rstack : List Nat               -- return stack, newest first (R59)
  ctx : Ctx
  host : Option (Fin 8)           -- the engine that hosts the bank, none: its own
  failed : Bool                   -- STATE FAILED: no adopter (R89)
  lost : Bool                     -- posts are answered BANK_LOST (R89)
  frozenPc : Option Nat           -- STK_PC as the own engine's failure froze it (R94)
  wantAdopt : Bool                -- adoption is called for and has not started yet (R89)
  adoptLive : Bool                -- the adoption starts live at ROOT_ENTRY (R48, R89)
  haltedOn : List Nat             -- engines on which the bank halted since chip reset (R63, R89)
  retired : Nat                   -- instructions retired since the last wfe or fault entry (R62)
  stall : Stall
  sleepD : Nat                    -- destination register of the `wfe` the context sleeps in
  nmt : Option Nat                -- return-stack depth below the trap in progress (R64)
  nmtOuter : List (Nat × Nat)     -- traps that a trap taken at a `wfe` in NMT_ENTRY suspends: source and return-stack depth, newest first (R64, R440)
  nmtToWfe : List Nat             -- sources of held traps that wait for the next `wfe` (R64)
  adoptions : List Nat            -- adoption events (R66)
  irqs : List Nat                 -- interrupt events, oldest first (R66, R408)
  timers : List (Nat × Timer)     -- four timers, default disarmed (R68)
  completion : Bool               -- completion-available flag (R66)
  signals : List (Nat × Nat)      -- signal events: sender and payload (R66)
  mailbox : Bool                  -- mailbox-request flag (R66)
  cmds : List Cmd                 -- every tag that is not free, in issue order (R69)
  lastTag : Nat                   -- tag last allocated (R69)
  arrivals : Nat                  -- completions arrived so far (their order, R59 cpop)
  log : List LogEntry             -- replay log (R90)
  replay : Option (List LogEntry) -- the entries still to replay (R91)
  nextTime : Option (Nat × Nat)   -- declared next event and floor (R77)
  requests : List (List Nat)      -- mailbox request queue, 16 words each (R87)
  responses : List (Nat × List Nat) -- response queue: session and 16 words (R88)
  deriving DecidableEq, Repr

/-- A bank after chip reset (R90: the initial checkpoint's contents; nothing pending). The last tag allocated is taken as 255, so the first one is 0
(log entry 6). -/
def Bank.init : Bank :=
  { g := [], fz := false, fn := false, fc := false, fv := false, fe := false, fst := 0, tag := 0, pc := 0, rstack := [], ctx := .stopped,
    host := none, failed := false, lost := false, frozenPc := none, wantAdopt := false, adoptLive := false, haltedOn := [], retired := 0, stall := .none, sleepD := 0, nmt := none, nmtOuter := [], nmtToWfe := [],
    adoptions := [], irqs := [], timers := [], completion := false, signals := [], mailbox := false, cmds := [], lastTag := 255, arrivals := 0,
    log := [], replay := none, nextTime := none, requests := [], responses := [] }

/-! ### Lanes (chapters 03, 04, 09, 10) -/

/-- How a lane came into its present acquisition (R143): not at all, from Cold (or by fallback), from Banked or from Warm. -/
inductive Wake where
  | none | full | fromBanked | fromWarm
  deriving DecidableEq, Repr

/-- A lane's decimation chain: the outputs of stages 1 and 2 that the next stage still needs, oldest first, in 1/256 ADC LSB, the phase of the mixer
(R334, R336, R337), the delay line of stage 4, newest first (R341), and the capture as START found it: LEN, WAIT_SETTLED, whether recording has begun
(R346). -/
structure DecS where
  means : List Int
  combs : List Int
  phase : Nat
  line : List (Int × Int)
  capLen : Nat
  capWait : Bool
  capOn : Bool
  deriving DecidableEq, Repr

/-- A Smoke frame: message type, payload, whether a table posted it (TX_DONE). -/
structure SmokeFrame where
  msg : Nat
  payload : List Nat
  posted : Bool
  deriving DecidableEq, Repr

/-- The correlators of a Smoke receiver (R362): the last five scaled chain outputs, newest first, with whether each stands or was replaced; the outputs
since the last chip in thousandths of their count per chip; what tracking adds to the spacing of the chips. Of the chips, newest first: those of the
detectors' window in progress, those in SYNC since the detection, those since the second correlator's detection, those of the frame's symbol in progress.
The peaks of the last five windows, newest first: bin, magnitude, sum of magnitudes; the frequency offset in hertz; the symbols decided since the header;
the peak of the detection that the second correlator holds, at the chain output and over the mean (R367, R369). -/
structure SmokeRx where
  taps : List (Int × Int × Bool)
  phase : Nat
  rate : Int
  win : List (Int × Int)
  last : List (Nat × Nat × Nat)
  held : List (Int × Int)
  behind : List (Int × Int)
  freq : Int
  sym : List (Int × Int)
  syms : List Nat
  second : Option (Nat × Nat)
  deriving DecidableEq, Repr

def SmokeRx.init : SmokeRx :=
  { taps := [], phase := 0, rate := 0, win := [], last := [], held := [], behind := [], freq := 0, sym := [], syms := [], second := none }

/-- A lane's Smoke modem: the transmit and receive queues (receive: MSG, FSEQ, payload), the frame being sent with its chirps, SF and BW, the blocks sent
of it and its phase at the start (in 2^-16 cycles, R355), FSEQ, the beacons and the GOING_DOWN reason that are due (R372, R376), the header of the
reception (LEN, CR, MSG, FSEQ), the mean square of the chain outputs that the gain loop holds, in 2^-16, and the outputs after which it freezes (none: it runs, R366),
when the last beacon ended (R372), the receiver's correlators, the detection peak at the chain output and over the mean bin magnitude in 0.25 dB, the epoch of the last beacon (R373), the
cause the last beacon showed and how many showed it in a row (R374). -/
structure SmokeS where
  txq : List SmokeFrame
  rxq : List (Nat × Nat × List Nat)
  sending : Option SmokeFrame
  chirps : List (Option Nat)
  sf : Nat
  bw : Nat
  blocks : Nat
  phase0 : Nat
  fseq : Nat
  firstDue : Bool
  going : Option Nat
  due : Bool
  hdr : Option (Nat × Nat × Nat × Nat)
  power : Nat
  gainLeft : Option Nat
  beaconAt : Option Nat
  rx : SmokeRx
  peak : Nat
  ratio : Nat
  notice : Option Nat
  mmCause : Nat
  mmRun : Nat
  deriving DecidableEq, Repr

/-- The decided symbols of a measuring window: how many count, the sum of their squared level-table entries and of their squared errors (Table 3-10). -/
structure SnrSum where
  count : Nat
  levels : Nat
  errors : Nat
  deriving DecidableEq, Repr

/-- Nothing measured. -/
def SnrSum.init : SnrSum := { count := 0, levels := 0, errors := 0 }

/-- The decisions of a signal-quality window with one level: how many, the sum of their equaliser outputs and of the squares (R350). -/
structure SqSum where
  count : Nat
  sum : Int
  squares : Nat
  deriving DecidableEq, Repr

/-- Nothing measured. -/
def SqSum.init : SqSum := { count := 0, sum := 0, squares := 0 }

/-- A lane's receive path (R99, R121 to R130): the elastic queue (code and over-range flag, oldest first); the samples, equaliser outputs and decisions
(physical levels) gone by, newest first; the path metrics and survivors of the estimator (newest symbol first); the phase of the clock interpolator in
1/64 UI and the frequency of the integral path in 0.01 ppm; the running windows of the SNR estimate and of the wake check; the metric differences of the
window (difference and how often) and its over-range samples; how many samples have been processed and decided since the path started, and the spare samples
of an eye scan whose coincident decision, by its number, is still to come (R347); the samples of the running 10 µs interval, their squared codes and how many are
over-range; the SNR estimates of the last windows, newest first; the signal-quality window by level (R350). -/
structure RxS where
  queue : List (Nat × Bool)
  line : List (Nat × Bool)
  ys : List Int
  decided : List Nat
  metrics : List Nat
  surv : List (List Nat)
  phase : Nat
  freq : Int
  fom : SnrSum
  wake : SnrSum
  margins : List (Nat × Nat)
  overs : Nat
  processed : Nat
  decidedNr : Nat
  eye : List (Nat × Nat × Bool)
  tenCount : Nat
  tenSquares : Nat
  tenOvers : Nat
  snrs : List Nat
  sq : List (Nat × SqSum)
  deriving DecidableEq, Repr

/-- A receive path with nothing in it. -/
def RxS.init : RxS :=
  { queue := [], line := [], ys := [], decided := [], metrics := [], surv := [], phase := 0, freq := 0, fom := SnrSum.init, wake := SnrSum.init, margins := [],
    overs := 0, processed := 0, decidedNr := 0, eye := [], tenCount := 0, tenSquares := 0, tenOvers := 0, snrs := [], sq := [] }

/-- The keep-alive and test generators of a lane (R152): the PRBS13 and PRBS31 shift registers and the position in the patterns of fixed length. -/
structure GenS where
  prbs13 : Nat
  prbs31 : Nat
  pos : Nat
  deriving DecidableEq, Repr

/-- The generators after reset: both registers hold ones (log entry 53). -/
def GenS.init : GenS := { prbs13 := 2 ^ 13 - 1, prbs31 := 2 ^ 31 - 1, pos := 0 }

/-- What a lane's receiver and transmitter remember beside their registers. -/
structure LaneS where
  forcedDrop : Bool       -- a forced transition to Cold is in progress (R139)
  wake : Wake
  windows : Nat           -- consecutive wake windows passed (R143)
  keptSnr : Nat           -- last SNR estimate before the lane left Lit (R143)
  recordSnr : Nat         -- SNR of the window before the gain change (R109)
  steadyWindows : Nat     -- consecutive windows within 0.5 dB of the record (R110)
  acqGear : Bool          -- the acquisition gear is in force (R133)
  snapshot : Bool         -- a coefficient snapshot exists (R135)
  coefKept : Bool         -- coefficients of an earlier Lit period are kept (Table 3-6)
  slices : List (Nat × Nat) -- physical slice serving a slot, where it is not the slot's own number (R114)
  seasonSlot : Nat        -- slot of the seasoning step in progress
  seasonLeft : Nat        -- steps left in the pass
  seasonTries : Nat       -- failed tries of the step (R115)
  seasonLast : Nat        -- slot of the spare's last position (R114)
  seasonAcq : Bool        -- the pass is the foreground pass of acquisition (Table 3-7)
  ovrFreeze : Bool        -- over-range freeze condition (Table 3-5)
  polWanted : Bool        -- polarity the port unit obtained (R131)
  gainFrozen : Bool       -- a freeze holds the gain loop (R134)
  trainHeld : Bool        -- a freeze other than FEC holds the data-driven loops, or has within 10 µs (R134)
  fomWhole : Bool         -- the lane has been Lit and unfrozen since the 100 µs window began (R146)
  trainWhole : Bool       -- no freeze other than FEC has held since it began
  asBanked : Bool         -- the wake in progress proceeds as one from Banked (R141)
  seasonGone : Bool      -- the lane left Lit during the pass in progress (R120)
  rx : RxS
  swept : Nat             -- PEAK settings measured by the CTLE sweep (R105)
  best : Nat × Nat        -- best SNR of the sweep and its PEAK
  acqWindows : Nat        -- 100 µs windows since blind training began (Table 3-7)
  -- transmitter
  lastSyms : List Nat     -- the last nine symbols, oldest first (R155, R156)
  codes : List (List (Nat × Nat)) -- the sample queue: blocks of DAC codes, oldest first, each code with its hold in 1/32 symbol (R165, R166, R171)
  driven : List (Nat × Nat) -- the block the DAC reads
  gen : GenS
  ripple : Bool           -- the ripple is applied (R164)
  depth : Nat             -- ripple depth in force, in 0.25 % (R162, R164)
  swing : Nat             -- swing in force, in 1/64 of FS (R172)
  satCount : Nat          -- samples counted under R157 in the running window
  shorts : List Nat       -- short bits whose condition holds: 0 P, 1 N, 2 PN (R177)
  dec : DecS
  smoke : SmokeS
  deriving DecidableEq, Repr

/-- A lane after chip reset. -/
def LaneS.init : LaneS :=
  { forcedDrop := false, wake := .none, windows := 0, keptSnr := 0, recordSnr := 0, steadyWindows := 0, acqGear := true, snapshot := false,
    coefKept := false, slices := [], seasonSlot := 0, seasonLeft := 0, seasonTries := 0, seasonLast := 79, seasonAcq := false, ovrFreeze := false,
    polWanted := false, gainFrozen := false, trainHeld := false, fomWhole := false, trainWhole := false, asBanked := false, seasonGone := false, rx := RxS.init, swept := 0, best := (0, 0), acqWindows := 0, lastSyms := [], codes := [], driven := []
    gen := GenS.init, ripple := false, depth := 8, swing := 64, satCount := 0,
    shorts := []
    dec := { means := [], combs := [], phase := 0, line := [], capLen := 1024, capWait := false, capOn := false }
    smoke := { txq := [], rxq := [], sending := none, chirps := [], sf := 9, bw := 2, blocks := 0, phase0 := 0, fseq := 0, firstDue := true,
               going := none, due := false, hdr := none, power := 0, gainLeft := none, beaconAt := none, rx := SmokeRx.init, peak := 0, ratio := 0, notice := none, mmCause := 0, mmRun := 0 } }


/-! ### Bundles (Table 6-2) -/

/-- A bundle: its header and what follows it: the plaintext before encryption, ciphertext and tag after it. -/
structure Bundle where
  ctrl : Bool
  tunnel : Nat
  phase : Nat
  seq : Nat
  first : Nat
  body : List Nat
  resent : Bool
  deriving DecidableEq, Repr

/-! ### Ports (chapter 05) -/

/-- The lock machine of a lane (Table 5-7). -/
inductive Lock where
  | idle | search | locked
  deriving DecidableEq, Repr

/-- A block received on a lane (R191): its number since the marker the lane locked on, flag, body, whether its codeword was uncorrectable (R214), and whether
it came as a valid marker outside the marker positions (R205). -/
structure RxBlock where
  nr : Nat
  flag : Bool
  body : List Nat
  bad : Bool
  stray : Bool
  deriving DecidableEq, Repr

/-- A lane's part of the line framing (R191 to R204): received bits not decoded yet, oldest first; whether the lane's legs were found swapped; the number of
the next block; the number of block 0 on the port's common count; the blocks waiting for the deskew; the state of the descrambler and of the scrambler
(bit i: the bit sent i + 1 earlier); the coded bits waiting to be sent; the symbol received last (R187). -/
structure PcsS where
  bits : List Bool
  swapped : Bool
  next : Nat
  base : Nat
  blocks : List RxBlock
  dscr : Nat
  scr : Nat
  txBits : List Bool
  before : Nat
  deriving DecidableEq, Repr

/-- The framing of a lane after reset (log entry 52). -/
def PcsS.init : PcsS := { bits := [], swapped := false, next := 0, base := 0, blocks := [], dscr := 0, scr := 0, txBits := [], before := 0 }

/-- What a port unit remembers of one of its lanes: lock state, missed markers in a row, logical number, AM_COUNT and arrival (ns) of the last valid
marker, the last codewords (newest first, true: uncorrectable), clean codewords in a row, symbols corrected in the running 100 µs window,
the cause the last marker showed and how many in a row showed it (R208), whether the last codeword was uncorrectable, and whether one was since the last frame
(R190), its part of the framing. -/
structure LockS where
  lock : Lock
  misses : Nat
  logical : Nat
  count : Option Nat
  arrival : Nat
  recent : List Bool
  clean : Nat
  symbols : Nat
  mmCause : Nat
  mmRun : Nat
  bad : Bool
  badSince : Bool
  pcs : PcsS
  deriving DecidableEq, Repr

/-- A lane of a port after reset. -/
def LockS.init : LockS :=
  { lock := .idle, misses := 0, logical := 0, count := none, arrival := 0, recent := [], clean := 0, symbols := 0, mmCause := 0, mmRun := 0, bad := false
    badSince := false, pcs := PcsS.init }

/-- What a port remembers beside its registers: whether its lanes are deskewed with equal AM_COUNT (R206), the bundle in reception and
whether it is errored (R232, R234), the epoch of the last notice (R238), the blocks in its transmit queue (flag and body, R301), the Ethernet work in it and
when it was measured, the codeword of the marker period it sends next and the count of its next marker (R195), the block of the common count and the
logical lane it passes on next (R193, R204). -/
structure PortS where
  deskewed : Bool
  rx : Option (List Nat × Bool)
  notice : Option Nat
  txBlocks : List (Bool × List Nat)
  txWork : Nat
  txAt : Nat
  codeword : Nat
  amCount : Nat
  turn : Option (Nat × Nat)
  deriving DecidableEq, Repr

/-- A port after reset. -/
def PortS.init : PortS := { deskewed := false, rx := none, notice := none, txBlocks := [], txWork := 0, txAt := 0, codeword := 0, amCount := 0, turn := none }

/-! ### Tunnels (chapter 06) -/

/-- A closed bundle: FIRST, plaintext, and how many client frames end in it (R219, R225). -/
structure Closed where
  first : Nat
  plain : List Nat
  ends : Nat
  deriving DecidableEq, Repr

/-- The transmit direction of a tunnel: ingress queue (frame, BAD), PAUSE sent and whether as priority flow control (R498), the open bundle's plaintext, its FIRST, how many client frames end in it
and when its first byte entered, closed bundles waiting for tokens, the token bucket in twentieths of a byte and when it was measured, bundles in encryption with
their pipeline and the client frames that end in them, encrypted bundles not yet released, the next SEQ to release, the next control sequence, the last rollover ID, the commit point C, the
time of START, whether this rollover committed at TIMEOUT, whether a gap of cause 5 follows the next rekey, the packed bytes short of a 64-byte
unit, and the frames that have left the ingress queue (R221 to R242, R254 to R257, Table 18-2). -/
structure TunTx where
  ingress : List (List Nat × Bool)
  paused : Bool
  pfc : Bool
  plain : List Nat
  first : Option Nat
  openedAt : Nat
  ends : Nat
  closed : List Closed
  tokens : Nat
  tokAt : Nat
  crypto : List (Bundle × Nat × Nat)
  done : List Bundle
  nextOut : Nat
  ctrlSeq : Nat
  rollId : Nat
  rollC : Option Nat
  rollAt : Nat
  forced : Bool
  tallyLost : Bool
  packed : Nat
  taken : Nat
  deriving DecidableEq, Repr

/-- A transmit direction after reset; the bucket starts full (log entry 31). -/
def TunTx.init : TunTx :=
  { ingress := [], paused := false, pfc := false, plain := [], first := none, openedAt := 0, ends := 0, closed := [], tokens := 368640, tokAt := 0, crypto := [], done := [],
    nextOut := 1, ctrlSeq := 1, rollId := 0, rollC := none, rollAt := 0, forced := false, tallyLost := false, packed := 0, taken := 0 }

/-- The receive direction of a tunnel: control sequences (highest accepted, those seen), copies of control bundles that failed (sequence, path), the
anti-replay window, the stream bytes of the entry in progress, whether it resumes at the next FIRST and the frame discarded there is counted, the egress
queue (frame, BAD), the rollover ID
answered last, C while armed and when it was armed, the bundles counted in the last 1 ms with their times and bytes, the frames that have left the egress queue (R221, R227,
R228, R236, R246, R247, R257). -/
structure TunRx where
  ctrlHigh : Nat
  ctrlSeen : List Nat
  ctrlFailed : List (Nat × Nat)
  window : List Nat
  stream : List Nat
  skip : Bool
  counted : Bool
  egress : List (List Nat × Bool)
  rollId : Option Nat
  rollC : Option Nat
  rollAt : Nat
  recent : List (Nat × Nat)
  taken : Nat
  deriving DecidableEq, Repr

/-- A receive direction after reset. -/
def TunRx.init : TunRx :=
  { ctrlHigh := 0, ctrlSeen := [], ctrlFailed := [], window := [], stream := [], skip := false, counted := false, egress := [], rollId := none, rollC := none,
    rollAt := 0, recent := [], taken := 0 }

/-! ### The hold store (chapter 07) -/

/-- A held copy: function, tunnel, SEQ, the path it came on (received copies), the bundle, its billets (channel, L), whether a ride-through copy serves
as retransmission copy too (R326), the gap cause of a copy that is lost (0: none), the paths it was placed on and when (path, time; R306), when it was written
(R297), and, of a copy lost with the whole store, the billets it held, each with a number of the loss (R269, R296). -/
structure Held where
  kind : HeldKind
  tunnel : Nat
  seq : Nat
  path : Nat
  bundle : Bundle
  billets : List (Nat × Nat)
  retxToo : Bool
  lost : Nat
  placed : List (Nat × Nat)
  storedAt : Nat
  gone : List (Nat × Nat × Nat)
  deriving DecidableEq, Repr

/-- A read of a held copy: its billets still to be read and the cause that lost it (0: none). -/
structure HeldRead where
  kind : HeldKind
  tunnel : Nat
  seq : Nat
  path : Nat
  left : List (Nat × Nat)
  lost : Nat
  deriving DecidableEq, Repr

/-- The open billet of a hold function of a tunnel: channel, L, bytes written, the last SEQ in it (R275). -/
structure HeldOpen where
  kind : HeldKind
  tunnel : Nat
  ch : Nat
  l : Nat
  used : Nat
  last : Nat
  deriving DecidableEq, Repr

/-- A row of a module: rank, logical rank, bank group, bank, row (Table 7-3). -/
structure DRow where
  rank : Nat
  lrank : Nat
  bg : Nat
  bank : Nat
  row : Nat
  deriving DecidableEq, Repr

/-- A row bucket (Table 7-5): the row, its count, whether it is SCRUBBED; older entries stand first. -/
structure RowBucket where
  row : DRow
  count : Nat
  scrubbed : Bool
  leakAt : Nat   -- device time from which its leak interval runs
  deriving DecidableEq, Repr

/-- What a channel has beside its registers: cords filled, cords used, clinker marks, freed marked billets to be tested, billets retired, rank buckets,
row buckets, rows to scrub at once, repair candidates, the next billet of the scrub pass, the time of the last ZQ calibration, the last reading of the
DQS interval oscillators (R268), whether it has trained since START (R264), the uncorrectable errors of the last 10 µs (time, billet; R294), the marked or lost
billets that a read or a resend request needed (R289, R296), the filled cords withdrawn from allocation (Table 13-1, region 5). -/
structure HCh where
  filled : Nat
  cords : Nat
  clinkers : List Nat
  retest : List Nat
  retired : List Nat
  rankCnt : List (Nat × Nat)
  rankAt : List (Nat × Nat)   -- device time from which a rank's leak interval runs
  rows : List RowBucket
  rowScrub : List DRow
  cands : List DRow
  scrubAt : Nat
  zqAt : Nat
  dqs : Nat
  trained : Bool
  ueAt : List (Nat × Nat)
  needed : List Nat
  withdrawn : List Nat
  deriving DecidableEq, Repr

/-- A channel after reset. -/
def HCh.init : HCh :=
  { filled := 0, cords := 0, clinkers := [], retest := [], retired := [], rankCnt := [], rankAt := [], rows := [], rowScrub := [], cands := [], scrubAt := 0, zqAt := 0,
    dqs := 0, trained := false, ueAt := [], needed := [], withdrawn := [] }

/-- A repair waiting or running: channel, row, hard (R290 to R293). -/
structure Repair where
  ch : Nat
  row : DRow
  hard : Bool
  deriving DecidableEq, Repr

/-! ### Protection (chapter 08) -/

/-- Where a received copy lies. -/
inductive CopyPlace where
  | buffer | stored | reading
  deriving DecidableEq, Repr

/-- A received copy: SEQ, path, bundle, arrival, place (R308, R309, R315). -/
structure Copy where
  seq : Nat
  path : Nat
  bundle : Bundle
  arrival : Nat
  place : CopyPlace
  deriving DecidableEq, Repr

/-- A resend run: first SEQ, count, sendings so far, time of the last (R320). -/
structure ResendRun where
  first : Nat
  count : Nat
  tries : Nat
  sentAt : Nat
  deriving DecidableEq, Repr

/-- A gap to be declared when the stream reaches it: first SEQ, count, cause (R323). -/
structure PendGap where
  first : Nat
  count : Nat
  cause : Nat
  deriving DecidableEq, Repr

/-- The protection state of a tunnel. Transmit: bundles waiting for placement (new, control, resent), the last CUM and MAP accepted, the SEQs of the
ride-through backlog, bundles a full store could not take, whether it took no further copy. Receive: copies, first arrivals (SEQ, path, time) of data
and of control bundles, SEQs whose deadline has passed, copies that
failed authentication (SEQ, path), the copy in decryption, gaps to declare, resend runs, skews (time, magnitude sign apart), Δ in units and when it was
measured, the CUM and MAP of the last ACK, the intervals since and the end of the last interval, when the backlog last fell, and the SEQ counted last as released
or declared at its deadline (R300 to R332). A first arrival whose twin has arrived too is listed with path 2. -/
structure ProtT where
  sendQ : List Bundle
  ctrlQ : List Bundle
  resendQ : List Bundle
  acked : Nat
  ackMap : Nat
  backlog : List Nat
  overflow : List Bundle
  storeFull : Bool
  copies : List Copy
  arrivals : List (Nat × Nat × Nat)
  ctrlArr : List (Nat × Nat × Nat)
  smokeSeq : List Nat
  expired : List Nat
  failed : List (Nat × Nat)
  decrypting : Option (Nat × Nat)
  gaps : List PendGap
  runs : List ResendRun
  skews : List (Nat × Int)
  delta : Option (Nat × Nat)
  lastAck : Option (Nat × Nat)
  ackAge : Nat
  ackAt : Nat
  fellAt : Nat
  late : Option Nat
  deriving DecidableEq, Repr

/-- A tunnel's protection state after reset. -/
def ProtT.init : ProtT :=
  { sendQ := [], ctrlQ := [], resendQ := [], acked := 0, ackMap := 0, backlog := [], overflow := [], storeFull := false, copies := [], arrivals := [], ctrlArr := [], smokeSeq := [], expired := [],
    failed := [], decrypting := none, gaps := [], runs := [], skews := [], delta := none, lastAck := none, ackAge := 0,
    ackAt := 0, fellAt := 0, late := none }

/-- Bytes counted over windows of 10 µs: the start of the running window, its bytes, those of the window before (R327). -/
structure RateWin where
  start : Nat
  bytes : Nat
  last : Nat
  deriving DecidableEq, Repr

/-- Nothing counted. -/
def RateWin.init : RateWin := { start := 0, bytes := 0, last := 0 }

/-- A switch requested and not yet in force (R304): the path, whether it waits for every port, when it was written. -/
structure SwitchReq where
  path : Nat
  whenReady : Bool
  since : Nat
  deriving DecidableEq, Repr

/-! ### Monitor converters (chapter 16) -/

/-- What a converter has beside its registers: the sequence entry it converts, whether it stops after it, the urgent request in progress and those
waiting (input, ACQ), the input sampled last, the next periodic trigger, a trigger held during a capture, the members of a common trigger that has not started its
sequence yet, the inputs of thermal requests that take its next capture slots (R466 to R477). -/
structure Conv where
  running : Option Nat
  stopping : Bool
  urgNow : Option (Nat × Nat)
  urgWait : List (Nat × Nat)
  last : Option Nat
  nextAt : Option Nat
  held : Bool
  simWith : List Nat
  missed : List Nat
  deriving DecidableEq, Repr

/-- A converter after reset. -/
def Conv.init : Conv :=
  { running := none, stopping := false, urgNow := none, urgWait := [], last := none, nextAt := none, held := false, simWith := [], missed := [] }

/-- A capture of a pair (R474): the converters whose conversion it waits for, and whether it records. -/
structure CapS where
  waitFor : List Nat
  recording : Bool
  deriving DecidableEq, Repr

/-- No capture. -/
def CapS.init : CapS := { waitFor := [], recording := false }

/-! ### Performance counters (chapter 18) -/

/-- A snapshot being written: T, on demand, clearing, the counting counters, the values of the counters (R510). -/
structure Snap where
  time : Nat
  demand : Bool
  cleared : Bool
  enabled : List Nat
  values : List Nat
  deriving DecidableEq, Repr

/-! ### Bay management pins (chapter 20) -/

/-- A management transfer (R552): what it sends and how many bytes, and whether it has been told to end. -/
structure I2c where
  dev : Nat
  reg : Nat
  len : Nat
  read : Bool
  abort : Bool
  deriving DecidableEq, Repr

/-- The reset pin of a bay's module: driven low, and since when (R551). -/
structure RstPin where
  low : Bool
  since : Nat
  deriving DecidableEq, Repr

/-- After reset every module is held in reset. -/
def RstPin.init : RstPin := { low := true, since := 0 }

/-! ### Host access -/

/-- A host session (R390 to R395). -/
structure Sess where
  isOpen : Bool
  priv : Nat
  nonce : Option (Nat × Nat)     -- outstanding challenge: nonce and requested level
  postedErr : Bool
  postedAddr : Nat
  deriving DecidableEq, Repr

/-- A closed session. -/
def Sess.init : Sess := { isOpen := false, priv := 0, nonce := none, postedErr := false, postedAddr := 0 }

/-- The kinds of host requests: bursts of register accesses, and the session requests with the requested privilege or the MAC (R389, R392, R393). -/
inductive ReqKind where
  | read | write | posted | spiRead | spiWrite
  | openAt (code : Nat) | auth (mac : Nat) | close
  deriving DecidableEq, Repr

/-- A host request accepted and not yet performed to its end: session, tag, kind, next address, words still to write (or count still to read), words
read so far; its session as it stood, once the session has been closed over it (R389, R390, R394). -/
structure HostReq where
  session : Nat
  tag : Nat
  kind : ReqKind
  addr : Nat
  words : List Nat
  left : Nat
  got : List Nat
  orphan : Option Sess
  waited : Nat   -- device time its current access has waited (R395)
  deriving DecidableEq, Repr

/-- A character of the Tinder link inside a packet (Table 11-1). -/
inductive LinkChar where
  | sop
  | byte (b : Nat)
  | eop
  | pad
  deriving DecidableEq, Repr

/-- What the lanes of the Tinder link carry where no packet and no ALIGN set is sent (Table 11-1, Table 11-2): nothing; training sets on the logical lanes
`lanes`, each with its own LANE, with this ID, MASK and FLAGS; IDLE on the lanes in use. -/
inductive LinkFill where
  | quiet
  | train (lanes : List Nat) (ts2 : Bool) (mask flags : Nat)
  | idle (lanes : List Nat)
  deriving DecidableEq, Repr

/-- A packet or event the device gives to its surroundings. -/
inductive Out where
  | tinder (lanes : List (Nat × List LinkChar))         -- a Tinder packet on the logical lanes of the link in use, the others at zero (R386, R387)
  | linkFill (f : LinkFill)                             -- what the link's lanes carry from now on beside packets and ALIGN (R384, R386, R387)
  | linkAlign (lanes : List Nat)                        -- an ALIGN group on the lanes in use (Table 11-1)
  | spi (bytes : List Nat)
  | bundle (port path : Nat) (bytes : List Nat)         -- a bundle on a line port (R231 to R233)
  | notice (port : Nat) (body : List Nat)               -- an epoch notice (R237)
  | frame (port : Nat) (bytes : List Nat) (gap : Nat)   -- a frame to a client, with the gap before it (R228)
  | pause (port : Nat) (on : Bool)                      -- PAUSE to a client (R230)
  | pfc (port : Nat) (on : Bool)                        -- priority flow control to a client, all eight priorities (R498)
  | remoteFault (port : Nat) (on : Bool)                -- a FORMAT 1 port begins or ends sending remote fault (R187)
  | i2c (bay dev reg : Nat) (read : Bool) (sent : List Nat)   -- a management transfer on a bay's bus: address, register byte, bytes written (R552)
  | smoke (lane : Nat) (chirps : List (Option Nat))    -- the chirps of a Smoke frame: an up-chirp's value, none for a down-chirp (R356)
  deriving DecidableEq, Repr

/-! ### Memory protection, faults, Kiln, power -/

/-- Inverted bits present in a stored word: region of Table 13-1, word, copy (critical words), data and check bits (R419, R429); `base` holds the
data bits that stood inverted when the word was poisoned, which poisoning keeps (R425). -/
structure Mark where
  region : Nat
  word : Nat
  copy : Nat
  dx : Nat
  cx : Nat
  base : Nat
  deriving DecidableEq, Repr

/-- A tracked corrected address: region, word, reads of the word since (R423). -/
structure Tracked where
  region : Nat
  word : Nat
  reads : Nat
  time : Nat
  deriving DecidableEq, Repr

/-- One entry of the protection log (R432). -/
structure LogRec where
  word : Nat
  kind : Nat
  region : Nat
  bit : Nat
  copy : Nat
  deriving DecidableEq, Repr

/-- Rows withheld by Kiln: region of Table 13-1, first word, number of words (R448). -/
structure Withheld where
  region : Nat
  first : Nat
  count : Nat
  deriving DecidableEq, Repr

/-- A run of words of a region: its first word and their number. -/
structure WordRun where
  region : Nat
  first : Nat
  count : Nat
  deriving DecidableEq, Repr

/-- A transition of a managed block (R487, R490): the state it came from, the state it moves to, wake attempts begun. -/
structure BlockMove where
  from_ : Nat
  target : Nat
  attempts : Nat
  depth : Nat   -- the state whose wake time a wake takes: the one it was in or was entering
  since : Nat   -- device time at which it, or its last wake attempt, began
  deriving DecidableEq, Repr

/-- The capture of one reader of registers (R558): register, instance and value held. -/
structure Capture where
  reader : Nat
  items : List (Reg × Nat × Nat)
  deriving DecidableEq, Repr

/-- The device. -/
structure State where
  pending : List Instr                    -- the command queue (the model's own)
  resetAfter : Bool                       -- a chip reset follows the response in preparation (SYS_RESET_CTL.CHIP)
  retrainAfter : Bool                     -- a retrain follows the response in preparation (TINDER_CTL.RETRAIN)
  regs : RegStore
  mem : List (MKey × Nat)
  time : Nat                              -- device time, units of 0.4 ns (R485)
  freeCtr : Nat                           -- free values drawn so far (the model's own)
  lastStatus : Status                     -- the completion the last register command got (the model's own)
  lastValue : Nat
  out : List Out                          -- what the device has given to its surroundings, newest last (the model's own)
  banks : List (Nat × Bank)
  captures : List Capture
  cmdSerial : Nat                         -- commands issued so far by all banks (the model's own)
  entryWait : Nat                         -- an entry into Service mode waits for the commands numbered below this (R40)
  rrLast : List (Nat × Nat)               -- the bank whose instruction an engine issued last, by engine (R47)
  -- lanes
  lanes : List (Nat × LaneS)
  -- ports
  locks : List (Nat × LockS)              -- by lane
  ports : List (Nat × PortS)              -- by port
  -- tunnels and keys
  tunTx : List (Nat × TunTx)
  tunRx : List (Nat × TunRx)
  slotUse : List (Nat × Nat)              -- bundles encrypted under a key slot (R242)
  -- hold store
  hch : List (Nat × HCh)
  held : List Held
  heldReads : List HeldRead
  heldOpen : List HeldOpen
  rotor : Nat                             -- channel the allocator takes next (R274)
  repair : Option Repair
  -- protection
  prot : List (Nat × ProtT)
  switchReq : Option SwitchReq
  switchWait : Bool                       -- bundles wait in the queues of the path a switch went to (R304)
  rideWin : RateWin                       -- client writes of ride-through and drain (R327)
  holdWin : RateWin                       -- hold-back writes (R316)
  drainWin : RateWin                      -- drain reads and resend reads (R322, R327)
  -- performance counters
  snap : Option Snap
  perfPipe : List (Nat × Nat × Nat)       -- events on their way to the counters: device time, event number, amount (R505)
  perfNext : Option Nat                   -- device time of the next periodic snapshot (R510)
  snapSeq : Nat                           -- SNAP_SEQ of the last snapshot written
  -- monitor converters
  thermalWait : Bool                      -- the thermal unit waits for converter 7 (R473, R477)
  convs : List (Nat × Conv)
  caps : List (Nat × CapS)
  -- bay management
  i2c : List (Nat × I2c)                  -- management transfers in progress (R552)
  rstPins : List (Nat × RstPin)           -- BAY_b_RST_N (R551)
  -- host access
  sessions : List (Nat × Sess)
  hostWait : List HostReq
  lseqTx : Nat                            -- next LSEQ to send (R388)
  lseqRx : Nat                            -- next LSEQ expected (R388)
  replayBuf : List (Nat × List Nat × Nat) -- packets not acknowledged: LSEQ, bytes of Table 11-3, how often it has been sent (R388)
  fresh : Bool                            -- FRESH is sent (R390)
  lanesAligned : List (Nat × Nat)         -- physical lanes aligned, with the logical number received (R384, R385)
  tsSeen : List (Nat × Nat)               -- consecutive valid TS per physical lane (R384)
  peerSeen : List (Nat × Nat)             -- TS with PEER_SEEN received in CONFIG, per physical lane (Table 11-2)
  ts2Seen : List (Nat × Nat)              -- TS2 received in CONFIG, per physical lane
  peerMask : Nat
  misplacedAlign : Nat
  narrow : Bool                           -- CONFIG was entered at fallback width (Table 11-2)
  linkFill : LinkFill                     -- what the lanes carry between packets
  ts2At : Nat                             -- device time at which TS2 began to be sent
  alignAt : Nat                           -- device time of the next ALIGN group (Table 11-1)
  linkAt : Nat                            -- device time of the link's last change of state (Table 11-2)
  downAt : Nat                            -- device time at which it last left ACTIVE (R390)
  lockAt : Nat                            -- device time at which the last lockout began (R393)
  authFailures : Nat                      -- the failure count of R393
  ackDue : Bool                           -- packets accepted since the last ACK (R388)
  -- memory protection
  marks : List Mark
  trackers : List Tracked
  log : List LogRec
  withheld : List Withheld
  written : List WordRun                  -- the words of regions 2 to 4 whose valid bits are set (R421)
  scrubFrom : Nat                         -- device time at which scrubbing was last enabled (R426)
  scrubAt : List (Nat × Nat)              -- device time at which the last scrub pass of a region ended (R426)
  sparesUsed : List (Nat × Nat)           -- spare rows used, by 256 * region + instance (R424)
  -- fault collector
  nmtHeld : List (Nat × Nat)              -- held traps: bank and source (R440)
  blockResets : List (Nat × Nat)          -- block resets in progress: source and instance (R519)
  reactResets : List (Nat × Nat)          -- those that a reaction of their source began (R435)
  oscLost : Bool                          -- EMBER_ALIVE stopped by loss of the oscillator (R443)
  alivePhase : Bool                       -- the level of EMBER_ALIVE
  resets : Nat                            -- chip resets so far (the model's own)
  resetCause : Option Nat                 -- the cause of the chip reset whose release is awaited (R516 to R518)
  inReset : Bool                          -- every block outside the ember domain is held in reset (R501, R516, R534)
  -- Kiln
  sliceRegion : Option Nat                -- region under a slice (R451)
  sliceMem : Bool                         -- it is a memory slice
  sliceRedirect : List Nat                -- regions whose row is redirected to the save buffer (R454)
  kilnWait : List (Nat × Nat)             -- regions aborted whose RETRY has not passed yet, with the time of the abort (R456)
  trafficAt : List (Nat × Nat)            -- device time of the last data-path request to a region (R455)
  kilnHeldFail : List (Nat × Nat)         -- failures found at start-up, reported when Kiln ends (R450): region and cause
  -- power, clocks, thermal
  moves : List (Nat × BlockMove)          -- block transitions in progress (R487)
  holdAt : Nat                            -- device time at which holdover began (R482)
  railsLow : List Nat                     -- rails below their operating minimum (R516, R517)
  thermAt : Nat                           -- device time at which the Damper entered its state (R497, R499, R500)
  coolAt : Option Nat                     -- device time since which H has been below W - 3 C (R496)
  coldAt : Option Nat                     -- device time since which H has been below 95 C (R500)
  stopDue : Option Nat                    -- steps 2 to 4 of the orderly stop are not over: the reason of its GOING_DOWN (R376, R499)
  warnSweeps : Nat                        -- consecutive sweeps with H at or above W (R496)
  stopSweeps : Nat                        -- consecutive sweeps with H at or above 115 C (R496)
  sensorSeen : List (Nat × Nat)           -- previous code of a sensor (R495)
  cleanSweeps : List (Nat × Nat)          -- clean sweeps of a broken sensor (R495)
  nextSensor : Nat                        -- sensor read next (R494)
  cutTripped : Bool                       -- the hard-cut comparator is tripped (R501)
  cutArmed : Bool                         -- the comparator has released and waits for RESET_N (R501)
  -- start-up
  digestDone : Bool                       -- the owner digest has been written (R522)
  bankVerified : List Nat                 -- banks whose last VERIFY gave OK with no write since (R528)
  ptrBank : Nat                           -- image pointer in the Peat store (R520)
  ptrGen : Nat
  epochCount : Nat                        -- epoch counter of the Peat store (R531)
  journal : List (List Nat)               -- event journal, newest last (R520)
  peatWord : Option (Nat × List (Nat × Nat))  -- 256-bit word being merged: its index and the 32-bit words written (R527)
  verifyBank : Option Nat                 -- VERIFY in progress (R528)
  accessKeys : List (Nat × Nat)           -- access table of the running image: level and key (R393, R521)
  runMask : Nat
  serviceFlag : Bool
  writeList : List (Nat × Nat)            -- register write list (R523)
  -- pins
  bootStrap : Bool                        -- BOOT_RCV_N is low (R525)
  tamperLow : List Nat                    -- TAMPER_N inputs found low (R253)
  testEn : Bool
  jtag : Nat                              -- instruction of the test access port (R550)
  deriving DecidableEq, Repr

/-- The machine right after reset: every register at its reset value, no command waiting, memory with nothing listed. -/
def State.reset : State :=
  { pending := [], resetAfter := false, retrainAfter := false, regs := [], mem := [], time := 0, freeCtr := 0, lastStatus := .ok, lastValue := 0, out := [], banks := [], captures := [], cmdSerial := 0, entryWait := 0, rrLast := [],
    lanes := [],
    locks := [], ports := [],
    tunTx := [], tunRx := [], slotUse := [], hch := [], held := [], heldReads := [], heldOpen := [], rotor := 0, repair := none, prot := [],
    switchReq := none, switchWait := false, rideWin := RateWin.init, holdWin := RateWin.init, drainWin := RateWin.init, snap := none, perfPipe := [], perfNext := none, snapSeq := 0,
    thermalWait := false, convs := [], caps := [],
    i2c := [], rstPins := [],
    sessions := [(0, { Sess.init with isOpen := true })], hostWait := [], lseqTx := 0, lseqRx := 0, replayBuf := [], fresh := true,
    lanesAligned := [], tsSeen := [], peerSeen := [], ts2Seen := [], peerMask := 0, misplacedAlign := 0, narrow := false, linkFill := .quiet, ts2At := 0, alignAt := 0, linkAt := 0, downAt := 0, lockAt := 0, authFailures := 0,
    ackDue := false, marks := [], trackers := [], log := [], withheld := [], written := [], scrubFrom := 0, scrubAt := [], sparesUsed := [], nmtHeld := [], blockResets := [], reactResets := [], resets := 0, resetCause := none, oscLost := false,
    alivePhase := true, inReset := false, sliceRegion := none, sliceMem := false, sliceRedirect := [], kilnWait := [], trafficAt := [], kilnHeldFail := [], moves := [], holdAt := 0, railsLow := [],
    thermAt := 0, coolAt := none, coldAt := none, stopDue := none, warnSweeps := 0, stopSweeps := 0, sensorSeen := [], cleanSweeps := [], nextSensor := 0, cutTripped := false,
    cutArmed := false, digestDone := false, bankVerified := [], ptrBank := 0, ptrGen := 0, epochCount := 0, journal := [], peatWord := none,
    verifyBank := none, accessKeys := [], runMask := 0, serviceFlag := false, writeList := [], bootStrap := false, tamperLow := [], testEn := false,
    jtag := 1
  }

end Sys2Proof.Machine
end

