-- ==== Sys2Proof/Machine/Ops.lean ====
section
/-!
DEFINITION. The named operations every unit uses: registers, memories, counters of events, interrupt sources, free values.
-/

namespace Sys2Proof.Machine

/-! ### Registers and memories -/

/-- The value of field `f` of instance `i`. -/
def State.rd (s : State) (f : Fld) (i : Nat) : Nat := s.regs.get f i

/-- The state with field `f` of instance `i` holding `v` (bits above the field's width are dropped). -/
def State.wr (s : State) (f : Fld) (i v : Nat) : State := { s with regs := s.regs.set f i v }

/-- A one-bit field read as a truth value. -/
def State.on (s : State) (f : Fld) (i : Nat) : Bool := s.rd f i ≠ 0

/-- A one-bit field written from a truth value. -/
def State.put (s : State) (f : Fld) (i : Nat) (b : Bool) : State := s.wr f i (if b then 1 else 0)

/-- A counter field raised by `k`, saturating at its width. -/
def State.bump (s : State) (f : Fld) (i k : Nat) : State := s.wr f i (min (s.rd f i + k) (2 ^ f.w - 1))

/-- A counter field raised by `k`, wrapping at its width. -/
def State.bumpWrap (s : State) (f : Fld) (i k : Nat) : State := s.wr f i (s.rd f i + k)

/-- Write `v` when `c` holds. -/
def State.wrIf (s : State) (c : Bool) (f : Fld) (i v : Nat) : State := if c then s.wr f i v else s

/-- Read field `f` from the 32-bit value `v` of its register. -/
def Fld.of (f : Fld) (v : Nat) : Nat := v / 2 ^ f.lo % 2 ^ f.w

/-- A 32-bit value sign-extended from `w` bits. -/
def sext32 (w v : Nat) : Nat := let x := v % 2 ^ w; if x < 2 ^ (w - 1) then x else 2 ^ 32 - 2 ^ w + x

/-- What an unlisted word of a memory reads as: 0, except the mailbox privilege maps (R86) the transmit coefficients (R158) and
the decimation coefficients (R338). The ownership map reads 0 before an image writes it: every object then belongs to bank 0 (R71, log entry 5). -/
def Space.dflt (sp : Space) (i : Nat) : Nat :=
  match sp with
  | .shared =>
    -- word index = byte address / 8; state area of bank b begins at word 0x20000 + b * 0x800, its map at word 0xC0 of the area
    if 0x20000 ≤ i ∧ i < 0x24000 ∧ 0xC0 ≤ (i - 0x20000) % 0x800 ∧ (i - 0x20000) % 0x800 < 0xE0 then 2 ^ 64 - 1 else 0
  | .txActive | .txShadow =>
    let k := i % 0x100
    if k = 2 then 256
    else if 0x40 ≤ k ∧ k < 0x80 then
      match (k - 0x40) / 4 % 4 with
      | 0 => 2 ^ 32 - 1536 | 1 => 2 ^ 32 - 512 | 2 => 512 | _ => 1536
    else 0
  | .decCoef =>
    -- profile 2 is in force after chip reset (R338)
    let k := i % 0x1000
    if 0x100 ≤ k ∧ k < 0x120 then sext32 16 (Config.stageThree (min (k - 0x100) (0x11F - k)))
    else if k < 0x100 ∧ k % 0x80 < 32 then 512
    else 0
  | _ => 0

/-- The word `i` of memory `sp`. -/
def State.ld (s : State) (sp : Space) (i : Nat) : Nat := Amap.get (sp.dflt i) s.mem ⟨sp, i⟩

/-- The place of a word's valid bit, in the memories addressed by words whose region has valid bits (R421, Table 13-1). -/
def Space.validIdx (sp : Space) (i : Nat) : Option Nat :=
  match sp with
  | .table => some i
  | .priv => some (2 ^ 24 + i)
  | .shared => some (2 ^ 24 + 0x10000 + (i - 0x20000))
  | .ring => some (7 * 2 ^ 24 + i / 2)
  | _ => none

/-- The state with word `i` of memory `sp` holding `v`; a write sets the word's valid bit (R421). -/
def State.st (s : State) (sp : Space) (i v : Nat) : State :=
  let m := Amap.put MKey.lt (sp.dflt i) s.mem ⟨sp, i⟩ (v % 2 ^ sp.width)
  { s with mem := match sp.validIdx i with | some k => Amap.put MKey.lt 0 m ⟨.valid, k⟩ 1 | none => m }

/-- A run of words written from `i` upward. -/
def State.stRun (s : State) (sp : Space) (i : Nat) : List Nat → State
  | [] => s
  | v :: vs => (s.st sp i v).stRun sp (i + 1) vs

/-- A run of `n` words read from `i` upward. -/
def State.ldRun (s : State) (sp : Space) (i n : Nat) : List Nat := (List.range n).map fun k => s.ld sp (i + k)

/-- The state with every word of memory `sp` that satisfies `p` back at what an unlisted word reads as. -/
def State.clearMem (s : State) (sp : Space) (p : Nat → Bool) : State :=
  { s with mem := s.mem.filter fun e => !(e.1.space = sp && p e.1.idx) }

/-- Bank `b`. -/
def State.bank (s : State) (b : Nat) : Bank := Amap.get Bank.init s.banks b

/-- The state with bank `b` replaced. -/
def State.setBank (s : State) (b : Nat) (k : Bank) : State := { s with banks := Amap.put natLt Bank.init s.banks b k }

/-- Lane `n`'s record. -/
def State.lane (s : State) (n : Nat) : LaneS := Amap.get LaneS.init s.lanes n

/-- The state with lane `n`'s record replaced. -/
def State.setLane (s : State) (n : Nat) (l : LaneS) : State := { s with lanes := Amap.put natLt LaneS.init s.lanes n l }

/-- Session `k`. -/
def State.sess (s : State) (k : Nat) : Sess := Amap.get Sess.init s.sessions k

/-- The state with session `k` replaced. -/
def State.setSess (s : State) (k : Nat) (x : Sess) : State := { s with sessions := Amap.put natLt Sess.init s.sessions k x }

/-- A fresh free value (log entry 1). -/
def State.freeVal (s : State) : Nat := Config.freeNat s.freeCtr

/-- The state after a free value has been drawn. -/
def State.drawn (s : State) : State := { s with freeCtr := s.freeCtr + 1 }

/-- Give something to the surroundings. -/
def State.emit (s : State) (o : Out) : State := { s with out := s.out ++ [o] }

/-- The completion the last register command got. -/
def State.answer (s : State) (st : Status) (v : Nat) : State := { s with lastStatus := st, lastValue := v }

/-! ### Interrupt sources (R400 to R403) -/

/-- A reserved source never becomes pending (R400, Table 12-1). -/
def irqReserved (n : Nat) : Bool := decide (n < 256 ∧ 20 ≤ n % 32) || decide (490 ≤ n)

/-- One event of interrupt source `n` reaches the controller (R401 to R403). -/
def State.irqTake (s : State) (n : Nat) : State :=
  if irqReserved n then s
  else if s.on F.IRQ_SRC_LEVEL n then
    if s.on F.IRQ_SRC_ACTIVE n then s else s.put F.IRQ_SRC_PENDING n true
  else if s.rd F.IRQ_SRC_COUNT n = 15 then s.bump F.IRQ_STATUS_SATURATED 0 1
  else (s.wr F.IRQ_SRC_COUNT n (s.rd F.IRQ_SRC_COUNT n + 1)).put F.IRQ_SRC_PENDING n true

/-! ### Objects and their owners (R71, R508, R521) -/

/-- The unit objects the ownership map assigns to banks. -/
inductive Obj where
  | lane (n : Nat) | port (p : Nat) | bay (b : Nat) | tunnel (t : Nat) | keySlot (k : Nat) | keyUnit | holdUnit | holdCh (c : Nat) | protUnit
  | monIn (n : Nat) | conv (c : Nat) | pair (p : Nat) | counter (n : Nat) | thermal
  deriving DecidableEq, Repr

/-- The place of an object in the ownership map. -/
def Obj.idx : Obj → Nat
  | .lane n => n | .port p => 0x100 + p | .bay b => 0x200 + b | .tunnel t => 0x300 + t | .keySlot k => 0x400 + k | .keyUnit => 0x500
  | .holdUnit => 0x501 | .protUnit => 0x502 | .thermal => 0x503 | .holdCh c => 0x600 + c | .monIn n => 0x700 + n | .conv c => 0x800 + c
  | .pair p => 0x810 + p | .counter n => 0x900 + n

/-- The bank that owns an object; a value above 7 names none. No register of the specification changes the map, so the image alone does (R71, log
entry 26). -/
def State.owner (s : State) (o : Obj) : Nat := s.ld .owner o.idx

/-! ### Performance counters (R504, R507) -/

/-- The counters that count event `ev`. PERF_SEL.EN rests at 0, so exactly the enabled counters have an entry at its key. -/
def State.perfWatch (s : State) (ev : Nat) : List Nat :=
  if s.on F.PERF_CTL_GLOBAL_EN 0 then
    s.regs.filterMap fun e =>
      if e.1.reg = .PERF_SEL && e.1.lo = 31 && s.rd F.PERF_SEL_EVENT e.1.inst = ev then some e.1.inst else none
  else []

/-- The 64-bit value of counter `n`. -/
def State.perfValue (s : State) (n : Nat) : Nat := s.rd F.PERF_CNT_HI_VALUE n * 2 ^ 32 + s.rd F.PERF_CNT_LO_VALUE n

/-- Set counter `n`. -/
def State.perfSet (s : State) (n v : Nat) : State := (s.wr F.PERF_CNT_LO_VALUE n v).wr F.PERF_CNT_HI_VALUE n (v / 2 ^ 32)

/-- Counter `n` passes its maximum by `ovr` (R507): its overflow bit and its reload. -/
def State.perfOver (s : State) (n ovr : Nat) : State :=
  let smp := s.rd F.PERF_SEL_SAMPLE n
  (s.wr F.PERF_OVF_OVF (n / 32) (Nat.lor (s.rd F.PERF_OVF_OVF (n / 32)) (2 ^ (n % 32)))).perfSet n ((if smp = 0 then 0 else 2 ^ 64 - 2 ^ smp) + ovr)

/-- Event `ev` occurs with amount `k`: it is on its way to the counters. An amount gathered over many cycles has no limit (R504, R505). -/
def State.perfSpread (s : State) (ev k : Nat) : State := if k = 0 then s else { s with perfPipe := s.perfPipe ++ [(s.time, ev, k)] }

/-- Event `ev` occurs in one cycle with amount `k`, of which at most 65,535 count (R504). -/
def State.perf (s : State) (ev k : Nat) : State := s.perfSpread ev (min k 65535)

/-- Lane event kind `k` of lane `n` (Table 18-2). -/
def State.perfLane (s : State) (k n amount : Nat) : State := s.perf (0x800 + 64 * k + n) amount
/-- Tunnel event kind `k` of tunnel `t`. -/
def State.perfTun (s : State) (k t amount : Nat) : State := s.perf (0xC00 + 32 * k + t) amount
/-- Hold store channel event kind `k` of channel `c`. -/
def State.perfCh (s : State) (k c amount : Nat) : State := s.perf (0xE00 + 32 * k + c) amount
/-- Stoker bank event kind `k` of bank `b`. -/
def State.perfBank (s : State) (k b amount : Nat) : State := s.perf (0xF00 + 8 * k + b) amount

/-- An event of interrupt source `n`: counted raw (event 0x400 + n) and taken by the controller. -/
def State.irq (s : State) (n : Nat) : State := (s.perf (0x400 + n) 1).irqTake n

/-- Add `k` to counter `n`; an overflow raises source 32b + 18 of its owner (R507). -/
def State.perfAdd (s : State) (k n : Nat) : State :=
  let v := s.perfValue n + k
  let b := s.owner (.counter n)
  if v < 2 ^ 64 then s.perfSet n v
  else if b < 8 then (s.perfOver n (v - 2 ^ 64)).irq (32 * b + 18)
  else s.perfOver n (v - 2 ^ 64)

/-- An event reaches the counters that count it. -/
def State.perfArrive (s : State) (e : Nat × Nat × Nat) : State := (s.perfWatch e.2.1).foldl (fun t n => t.perfAdd e.2.2 n) s

/-- The events that occurred 24 control cycles ago or earlier reach the counters (R505). -/
def State.perfDrain (s : State) : State :=
  let late := s.perfPipe.takeWhile fun e => e.1 + 160 ≤ s.time
  late.foldl State.perfArrive { s with perfPipe := s.perfPipe.drop late.length }

/-- Every event that has occurred has reached the counters: what they hold 24 control cycles from now (R505). -/
def State.perfFlush (s : State) : State := s.perfPipe.foldl State.perfArrive { s with perfPipe := [] }

/-! ### Agents and their privilege (R81, R391, R398, R523) -/

/-- The first word of bank `b`'s state area, as an index of shared memory (Table 2-2). -/
def stateArea (b : Nat) : Nat := 0x20000 + b * 0x800

/-- The privilege of bank `b`'s table: PRIV of its context descriptor (Table 2-3). -/
def State.bankPriv (s : State) (b : Nat) : Nat := s.ld .shared (stateArea b + 3) % 4

/-- Session 0 holds Vendor in the recovery condition (R398, R525). -/
def State.spiPriv (s : State) : Nat :=
  if s.on F.SYS_BOOT_STATUS_RECOVERY 0 && !s.on F.SYS_ACCESS_MODE_MODE 0 then 3 else (s.sess 0).priv

/-- The privilege of a sender. -/
def State.priv (s : State) : Agent → Nat
  | .host k => if k = 0 then s.spiPriv else (s.sess k).priv
  | .table b => s.bankPriv b
  | .boot => 3

/-- The number of a reader of registers (R558): sessions 0 to 8, then banks. -/
def Agent.reader : Agent → Nat
  | .host k => k
  | .table b => 16 + b
  | .boot => 15

/-- An entry of the event journal: sequence number, device time, kind and detail (R520). Kinds: 1 chip reset, 2 soft repair, 3 Kiln failure,
4 image activation, 5 Peat error, 6 boot write failure, 7 interruption (R32). The ring keeps the last 63,488 entries. -/
def State.journalAdd (s : State) (kind : Nat) (detail : List Nat) : State :=
  let n := (s.journal.getLast?.bind List.head?).getD 0
  let j := s.journal ++ [((n + 1) % 2 ^ 32) :: s.time :: kind :: detail]
  { s with journal := j.drop (j.length - 63488) }

/-- Service mode. -/
def State.service (s : State) : Bool := s.on F.SYS_ACCESS_MODE_MODE 0

/-! ### Numbers -/

/-- The integer a `w`-bit two's complement field stands for. -/
def sval (w v : Nat) : Int := let x := v % 2 ^ w; if x < 2 ^ (w - 1) then (x : Int) else (x : Int) - (2 : Int) ^ w

/-- The `w`-bit two's complement field of an integer. -/
def sfield (w : Nat) (z : Int) : Nat := (z % (2 : Int) ^ w).toNat

/-- An integer limited to lo..hi. -/
def clampInt (lo hi z : Int) : Int := if z < lo then lo else if hi < z then hi else z

/-- A number limited to lo..hi. -/
def clampNat (lo hi n : Nat) : Nat := if n < lo then lo else if hi < n then hi else n

end Sys2Proof.Machine
end

