-- ==== Sys2Proof/Machine/Crc.lean ====
section
/-!
DEFINITION. The cyclic redundancy checks of the device and the order of bytes in words (R387, R511, Table 18-3, chapters 06, 10 and 11).
-/

namespace Sys2Proof.Machine

/-- One bit step of the reflected CRC-32 of IEEE 802.3. -/
def crc32Step (c : Nat) : Nat := if c % 2 = 1 then Nat.xor (c / 2) 0xEDB88320 else c / 2

/-- One byte of the reflected CRC-32. -/
def crc32Byte (c b : Nat) : Nat :=
  crc32Step (crc32Step (crc32Step (crc32Step (crc32Step (crc32Step (crc32Step (crc32Step (Nat.xor c (b % 256)))))))))

/-- The CRC-32 of IEEE 802.3 of a run of bytes. -/
def crc32 (bytes : List Nat) : Nat := Nat.xor (bytes.foldl crc32Byte 0xFFFFFFFF) 0xFFFFFFFF

/-- One bit step of the CRC-16 of Table 5-4, polynomial 0x1021, bit 7 of a byte first. -/
def crc16Step (c : Nat) : Nat := if 0x8000 ≤ c then Nat.xor (c * 2 % 0x10000) 0x1021 else c * 2

/-- One byte of the CRC-16. -/
def crc16Byte (c b : Nat) : Nat :=
  crc16Step (crc16Step (crc16Step (crc16Step (crc16Step (crc16Step (crc16Step (crc16Step (Nat.xor c (b % 256 * 256)))))))))

/-- The CRC-16 of a run of bytes (Table 5-4). -/
def crc16 (bytes : List Nat) : Nat := bytes.foldl crc16Byte 0xFFFF

/-- The `n` bytes of a number, least significant first. -/
def bytesLe : Nat → Nat → List Nat
  | 0, _ => []
  | n + 1, v => v % 256 :: bytesLe n (v / 256)

/-- The `n` bytes of a number, most significant first. -/
def bytesBe (n v : Nat) : List Nat := (bytesLe n v).reverse

/-- The number a run of bytes stands for, least significant first. -/
def numLe : List Nat → Nat
  | [] => 0
  | b :: bs => b % 256 + 256 * numLe bs

/-- The number a run of bytes stands for, most significant first. -/
def numBe (bs : List Nat) : Nat := numLe bs.reverse

end Sys2Proof.Machine
end

