-- ==== Sys2Proof/Machine/Fec.lean ====
section
/-!
DEFINITION. The codes of the line framing: GF(2^m), the outer code RS(544,514) (R197) and the inner code (363,340) (R198, R199). What R197 takes from
IEEE 802.3 Clause 91 (field polynomial, generator roots, bit 0 of a symbol first, first symbol the highest coefficient) is PRESUMED (log entry 52).
-/

namespace Sys2Proof.Machine

/-! ### Binary fields -/

/-- A field GF(2^deg), by its primitive polynomial. -/
structure Gf where
  deg : Nat
  poly : Nat

/-- GF(2^10) of the outer code: x^10 + x^3 + 1. -/
def gf10 : Gf := ⟨10, 0x409⟩

/-- GF(2^11) of the inner code: x^11 + x^2 + 1 (R198). -/
def gf11 : Gf := ⟨11, 0x805⟩

/-- An element times α. -/
def Gf.shift (f : Gf) (a : Nat) : Nat := if 2 * a < 2 ^ f.deg then 2 * a else Nat.xor (2 * a) f.poly

/-- The product of two elements. -/
def Gf.mul (f : Gf) (a b : Nat) : Nat :=
  (List.range f.deg).foldl (fun r i => let d := f.shift r; if b.testBit (f.deg - 1 - i) then Nat.xor d a else d) 0

/-- The inverse of a non-zero element: its power 2^deg - 2. -/
def Gf.inv (f : Gf) (a : Nat) : Nat :=
  ((List.range (f.deg - 1)).foldl (fun (x : Nat × Nat) _ => let q := f.mul x.1 x.1; (q, f.mul x.2 q)) (a, 1)).2

/-- The first `n` powers of an element, from the power 0 on. -/
def Gf.powers (f : Gf) (a : Nat) : Nat → Nat → List Nat
  | 0, _ => []
  | n + 1, p => p :: Gf.powers f a n (f.mul p a)

/-- A polynomial, lowest coefficient first, at a point. -/
def Gf.eval (f : Gf) (p : List Nat) (x : Nat) : Nat := p.foldr (fun c r => Nat.xor c (f.mul r x)) 0

/-- The sum of two polynomials. -/
def polyAdd : List Nat → List Nat → List Nat
  | [], q => q
  | p, [] => p
  | a :: p, b :: q => Nat.xor a b :: polyAdd p q

/-- A polynomial times a constant. -/
def Gf.scale (f : Gf) (c : Nat) (p : List Nat) : List Nat := p.map (f.mul c)

/-- The product of two polynomials. -/
def Gf.polyMul (f : Gf) (p q : List Nat) : List Nat := p.foldr (fun c r => polyAdd (f.scale c q) (0 :: r)) []

/-! ### Outer code (R197) -/

/-- The roots of the generator polynomial: α^0 to α^29. -/
def rsRoots : List Nat := gf10.powers 2 30 1

/-- The generator polynomial, lowest coefficient first. -/
def rsGenerator : List Nat := rsRoots.foldl (fun p r => gf10.polyMul p [r, 1]) [1]

/-- The 30 parity symbols of a message, both with the highest coefficient first. -/
def rsParity (m : List Nat) : List Nat :=
  let g := (rsGenerator.take 30).reverse
  m.foldl (fun p c => let fb := Nat.xor c (p.headD 0); List.zipWith Nat.xor (p.drop 1 ++ [0]) (gf10.scale fb g)) (List.replicate 30 0)

/-- The syndromes of a received word, highest coefficient first. -/
def rsSyndromes (r : List Nat) : List Nat := rsRoots.map fun x => r.foldl (fun a c => Nat.xor (gf10.mul a x) c) 0

/-- The state of the search for the error locator: locator, the one before its last change of length, length, steps since, discrepancy then. -/
structure RsSearch where
  loc : List Nat
  old : List Nat
  len : Nat
  since : Nat
  disc : Nat

/-- One syndrome more (Berlekamp and Massey). -/
def rsSearchStep (syn : List Nat) (x : RsSearch) (n : Nat) : RsSearch :=
  let d := (List.range (x.len + 1)).foldl (fun a i => Nat.xor a (gf10.mul (x.loc.getD i 0) (syn.getD (n - i) 0))) 0
  if d = 0 then { x with since := x.since + 1 }
  else
    let next := polyAdd x.loc (List.replicate x.since 0 ++ gf10.scale (gf10.mul d (gf10.inv x.disc)) x.old)
    if 2 * x.len ≤ n then { loc := next, old := x.loc, len := n + 1 - x.len, since := 1, disc := d }
    else { x with loc := next, since := x.since + 1 }

/-- The error locator of 30 syndromes and its length. -/
def rsLocator (syn : List Nat) : List Nat × Nat :=
  let x := (List.range 30).foldl (rsSearchStep syn) { loc := [1], old := [1], len := 0, since := 1, disc := 1 }
  (x.loc, x.len)

/-- The coefficients of odd degree. -/
def oddCoefs : List Nat → List Nat
  | _ :: b :: l => b :: oddCoefs l
  | _ => []

/-- The value to add to the symbol with locator `x`, whose inverse is `y` (Forney): the derivative of the locator has its odd coefficients. -/
def rsValue (loc omega : List Nat) (x y : Nat) : Nat :=
  gf10.mul (gf10.mul x (gf10.eval omega y)) (gf10.inv (gf10.eval (oddCoefs loc) (gf10.mul y y)))

/-- A received word decoded: the codeword within 15 symbols of it and how many it differs in; none where there is none. -/
def rsDecode (r : List Nat) : Option (List Nat × Nat) :=
  let syn := rsSyndromes r
  if syn.all fun c => c = 0 then some (r, 0)
  else
    let loc := rsLocator syn
    let omega := (gf10.polyMul syn loc.1).take 30
    let xs := (gf10.powers 2 r.length 1).reverse
    let fixed := List.zipWith (fun c x => let y := gf10.inv x; if gf10.eval loc.1 y = 0 then (Nat.xor c (rsValue loc.1 omega x y), 1) else (c, 0)) r xs
    let out := fixed.map Prod.fst
    let n := (fixed.map Prod.snd).foldl (· + ·) 0
    if loc.2 ≤ 15 ∧ n = loc.2 ∧ (rsSyndromes out).all fun c => c = 0 then some (out, n) else none

/-! ### Bits and symbols -/

/-- A number from bits, bit 0 first. -/
def bitsLow : List Bool → Nat
  | [] => 0
  | b :: l => b.toNat + 2 * bitsLow l

/-- The `n` low bits of a number, bit 0 first. -/
def lowBits (n v : Nat) : List Bool := (List.range n).map v.testBit

/-- Bits taken in bitGroups of `n`. -/
def bitGroups (n : Nat) : Nat → List Bool → List (List Bool)
  | 0, _ => []
  | k + 1, l => l.take n :: bitGroups n k (l.drop n)

/-- The 5,440 bits of the codeword of 5,140 message bits, in transmission order. -/
def rsEncodeBits (m : List Bool) : List Bool :=
  let syms := (bitGroups 10 514 m).map bitsLow
  m ++ (rsParity syms).flatMap (lowBits 10)

/-- 5,440 received bits decoded: the message bits, corrected where a codeword is near enough, and the number of symbols corrected; none with an
uncorrectable codeword, whose bits stay as received. -/
def rsDecodeBits (r : List Bool) : List Bool × Option Nat :=
  match rsDecode ((bitGroups 10 544 r).map bitsLow) with
  | some x => ((x.1.take 514).flatMap (lowBits 10), some x.2)
  | none => (r.take 5140, none)

/-! ### Inner code (R198, R199) -/

/-- The minimal polynomial of α over GF(2), bit i its coefficient of x^i. -/
def bchMin1 : Nat := 0x805

/-- The minimal polynomial of α^3 over GF(2). -/
def bchMin3 : Nat := 0x925

/-- The generator polynomial g(x), of degree 22: the product of the two minimal polynomials. -/
def bchGenerator : Nat := (List.range 12).foldl (fun a i => if bchMin3.testBit i then Nat.xor a (bchMin1 * 2 ^ i) else a) 0

/-- r(x) = x^22 d(x) mod g(x): bit i is the coefficient of x^i. -/
def bchParity (d : List Bool) : Nat :=
  d.foldl (fun r b =>
    let fb := (r.testBit 21) != b
    let t := 2 * r % 2 ^ 22
    if fb then Nat.xor t (bchGenerator % 2 ^ 22) else t) 0

/-- The exclusive OR of bits. -/
def parity (l : List Bool) : Bool := l.foldl (fun a b => a != b) false

/-- The 23 parity bits of 340 data bits: r_0 to r_21 and e. -/
def bchCheck (d : List Bool) : List Bool :=
  let r := bchParity d
  let rs := (List.range 22).map fun q => r.testBit (21 - q)
  rs ++ [parity (d ++ rs)]

/-- A bit of a word complemented. -/
def flipAt (l : List Bool) (i : Nat) : List Bool := l.mapIdx fun j b => if j = i then !b else b

/-- The powers of α from 361 down to 0, those of the bits d_0 to d_339, r_0 to r_21. -/
def bchPowers : List Nat := (gf11.powers 2 362 1).reverse

/-- An inner codeword of 363 bits decoded: its bits, and how many were corrected; none with a pattern that is detected and uncorrectable, which passes
as it is. -/
def bchDecode (c : List Bool) : List Bool × Option Nat :=
  let cube (a : Nat) : Nat := gf11.mul a (gf11.mul a a)
  let ones := (List.zip bchPowers (c.take 362)).filterMap fun x => if x.2 then some x.1 else none
  let s1 := ones.foldl Nat.xor 0
  let s3 := ones.foldl (fun a x => Nat.xor a (cube x)) 0
  let odd := parity c
  let single := if s3 = cube s1 then bchPowers.idxOf? s1 else none
  if s1 = 0 ∧ s3 = 0 then (if odd then (flipAt c 362, some 1) else (c, some 0))
  else match odd, single with
    | true, some i => (flipAt c i, some 1)
    | false, some i => (flipAt (flipAt c i) 362, some 2)
    | true, none => (c, none)
    | false, none =>
      let hits := (List.range 362).filter fun i =>
        let y := bchPowers.getD i 0
        let z := Nat.xor s1 y
        decide (z ≠ y) && bchPowers.contains z && decide (Nat.xor (cube y) (cube z) = s3)
      match hits with
      | [i, j] => (flipAt (flipAt c i) j, some 2)
      | _ => (c, none)

/-- The bits of inner codeword `w` among a group's 5,440 codeword bits: bit j = 16 k + w is its data bit k. -/
def innerData (w : Nat) (bits : List Bool) : List Bool := (bits.mapIdx fun j b => (j, b)).filterMap fun x => if x.1 % 16 = w then some x.2 else none

/-- A group: the codeword bits and the trailer of 23 rounds, each with one parity bit of every inner codeword (R198). -/
def groupEncode (bits : List Bool) : List Bool :=
  let checks := (List.range 16).map fun w => bchCheck (innerData w bits)
  bits ++ (List.range 23).flatMap fun p => checks.map fun c => c.getD p false

/-- A group of 5,808 bits decoded: the codeword bits, and the outcome of each inner codeword (R199). -/
def groupDecode (g : List Bool) : List Bool × List (Option Nat) :=
  let bits := g.take 5440
  let trailer := g.drop 5440
  let words := (List.range 16).map fun w => bchDecode (innerData w bits ++ innerData w trailer)
  ((List.range 340).flatMap fun k => words.map fun x => x.1.getD k false, words.map Prod.snd)

end Sys2Proof.Machine
end

