-- ==== Sys2Proof/Machine/Pcs.lean ====
section
/-!
DEFINITION. The line framing of a lane (R191 to R200): blocks as bits, the scrambler, alignment markers, symbols; the patterns of Table 4-3.
-/

namespace Sys2Proof.Machine

/-! ### Blocks (R191) -/

/-- The 257 bits of a block: the flag, then each body byte with its bit 7 first. -/
def blockBits (flag : Bool) (body : List Nat) : List Bool := flag :: body.flatMap fun b => (lowBits 8 b).reverse

/-- The bytes of bits, bit 7 first. -/
def bitBytes (bits : List Bool) : List Nat := (bitGroups 8 32 bits).map fun g => bitsLow g.reverse

/-- The idle block: body byte 0 is 0x00 (R192); the model sends zeros in the rest (log entry 52). -/
def idleBlock : Bool × List Nat := (true, List.replicate 32 0)

/-! ### Scrambler (R194) -/

/-- The bit the polynomial x^58 + x^39 + 1 takes from the 58 bits before. -/
def scrTap (st : Nat) : Bool := st.testBit 57 != st.testBit 38

/-- The 58 bits before the next one. -/
def scrNext (st : Nat) (sent : Bool) : Nat := (2 * st + sent.toNat) % 2 ^ 58

/-- Bits scrambled: the state after them, and what is sent. -/
def scramble (st : Nat) : List Bool → Nat × List Bool
  | [] => (st, [])
  | b :: l => let o := b != scrTap st; let r := scramble (scrNext st o) l; (r.1, o :: r.2)

/-- Bits descrambled: the state is that of the bits received. -/
def descramble (st : Nat) : List Bool → Nat × List Bool
  | [] => (st, [])
  | b :: l => let r := descramble (scrNext st b) l; (r.1, (b != scrTap st) :: r.2)

/-- A block as sent: flag bits and marker blocks are never scrambled. -/
def sendBlock (st : Nat) (marker : Bool) (b : Bool × List Nat) : Nat × List Bool :=
  if marker then (st, blockBits b.1 b.2)
  else match blockBits b.1 b.2 with
    | [] => (st, [])
    | f :: body => let r := scramble st body; (r.1, f :: r.2)

/-! ### Alignment markers (R195, R196, R202) -/

/-- PATTERN of Table 5-4. -/
def markerPattern : List Nat := [0xC6, 0x29, 0x5B, 0x0E, 0x93, 0xD4, 0x7A, 0x35]

/-- The body of a marker (Table 5-4). -/
def markerBody (logical width sender kind tag count : Nat) : List Nat :=
  let b := markerPattern ++ [logical % 8, width, sender, kind] ++ bytesBe 4 tag ++ bytesBe 4 count ++ List.replicate 10 0
  b ++ bytesBe 2 (crc16 b)

/-- A body that makes a block with flag 1 a valid marker (R196). -/
def markerValid (m : List Nat) : Bool :=
  decide (m.length = 32 ∧ m.take 8 = markerPattern) && decide (numBe (m.drop 30) = crc16 (m.take 30)) && ((m.drop 20).take 10).all (fun b => b = 0)

/-- The 20 blocks of 5,140 message bits: number of the first, descrambler state. Markers are never scrambled: the blocks at marker positions pass as they are, and
so does a valid marker at any other position (R194, R205). -/
def takeBlocks (bad : Bool) : Nat → Nat → Nat → List Bool → Nat × List RxBlock
  | 0, _, st, _ => (st, [])
  | k + 1, nr, st, bits =>
    let b := bits.take 257
    let stray := decide (nr % 5120 ≠ 0) && !bad && b.headD false && markerValid (bitBytes (b.drop 1))
    let x := if nr % 5120 = 0 ∨ stray then (st, b.drop 1) else descramble st (b.drop 1)
    let r := takeBlocks bad k (nr + 1) x.1 (bits.drop 257)
    (r.1, ⟨nr, b.headD false, bitBytes x.2, bad, stray⟩ :: r.2)

/-- The more significant bit of every pair complemented; `first` tells whether the first bit is one. -/
def complementMsb : Bool → List Bool → List Bool
  | _, [] => []
  | first, b :: l => (if first then !b else b) :: complementMsb (!first) l

/-- The marker, if any, in the first 257 bits. -/
def markerAt (bits : List Bool) : Option (List Nat) :=
  let m := bitBytes ((bits.take 257).drop 1)
  if bits.headD false && decide (257 ≤ bits.length) && markerValid m then some m else none

/-- The search of every bit position in both readings (R202): the marker found first, whether in the complemented reading, and the bits from it on in that
reading. `first` tells whether the first bit is the first of a pair. -/
def searchMarker : Bool → List Bool → Option (List Nat × Bool × List Bool)
  | _, [] => none
  | first, b :: l =>
    match markerAt (b :: l), markerAt (complementMsb first (b :: l)) with
    | some m, _ => some (m, false, b :: l)
    | none, some m => some (m, true, complementMsb first (b :: l))
    | none, none => searchMarker (!first) l

/-! ### Symbols (R200) -/

/-- The level of a pair of bits, the first the more significant: 00 → 0, 01 → 1, 11 → 2, 10 → 3. -/
def grayLevel (hi lo : Bool) : Nat := match hi, lo with | false, false => 0 | false, true => 1 | true, true => 2 | true, false => 3

/-- The pair of bits of a level. -/
def grayBits (s : Nat) : List Bool := match s with | 0 => [false, false] | 1 => [false, true] | 2 => [true, true] | _ => [true, false]

/-- Bits as symbols. -/
def bitSymbols : List Bool → List Nat
  | a :: b :: l => grayLevel a b :: bitSymbols l
  | _ => []

/-- 1/(1+D) precoding of a run of symbols after the one sent before (PRECODE_TX, R187). -/
def precode (before : Nat) : List Nat → List Nat
  | [] => []
  | s :: l => let o := (s + 4 - before % 4) % 4; o :: precode o l

/-- The precoding of a run of received symbols undone, after the one received before (PRECODE_RX, R187). -/
def unprecode (before : Nat) : List Nat → List Nat
  | [] => []
  | s :: l => (s + before) % 4 :: unprecode s l

/-! ### Patterns (Table 4-3). What the table takes from IEEE 802.3 Clause 120 is PRESUMED; SSPRQ stays open (log entry 53) -/

/-- The next bit of PRBS13, 1 + x + x^2 + x^12 + x^13, and the register after it. -/
def prbs13Next (r : Nat) : Nat × Bool :=
  let b := ((r.testBit 0 != r.testBit 1) != r.testBit 11) != r.testBit 12
  ((2 * r + b.toNat) % 2 ^ 13, b)

/-- The next bit of PRBS31, 1 + x^28 + x^31 inverted, and the register after it. -/
def prbs31Next (r : Nat) : Nat × Bool :=
  let b := r.testBit 27 != r.testBit 30
  ((2 * r + b.toNat) % 2 ^ 31, !b)

/-- `n` symbols of a bit generator: the register after them and the symbols. -/
def genSymbols (next : Nat → Nat × Bool) : Nat → Nat → Nat × List Nat
  | 0, r => (r, [])
  | n + 1, r =>
    let a := next r
    let b := next a.1
    let rest := genSymbols next n b.1
    (rest.1, grayLevel a.2 b.2 :: rest.2)

/-- The generators run on by `n` symbols (R152). -/
def GenS.run (g : GenS) (n : Nat) : GenS :=
  { prbs13 := (genSymbols prbs13Next n g.prbs13).1, prbs31 := (genSymbols prbs31Next n g.prbs31).1, pos := (g.pos + n) % (65535 * 64) }

/-- The next `n` symbols of a pattern of Table 4-3. -/
def GenS.symbols (g : GenS) (pattern n : Nat) : List Nat :=
  match pattern with
  | 2 => (genSymbols prbs31Next n g.prbs31).2
  | 3 => (List.range n).map fun i => Config.ssprq ((g.pos + i) % 65535) % 4
  | 4 => (List.range n).map fun i => if (g.pos + i) % 64 < 32 then 3 else 0
  | _ => (genSymbols prbs13Next n g.prbs13).2

end Sys2Proof.Machine
end

