-- ==== Sys2Proof/Machine/Level.lean ====
section
/-!
DEFINITION. The levels units drive into the interrupt controller, and the events that raise them (R147, R403, R438, Table 12-1).
-/

namespace Sys2Proof.Machine

/-! ### Latches of the fault collector (R434 to R436) -/

/-- The CHAR_STATUS field that holds source `n`. -/
def charFld (n : Nat) : Fld := if n < 32 then F.CHAR_STATUS_LO_LATCHED else F.CHAR_STATUS_HI_LATCHED

/-- Source `n` is latched. -/
def State.latched (s : State) (n : Nat) : Bool := (s.rd (charFld n) 0).testBit (n % 32)

/-- The level of source 475: the OR of the latched bits whose words have IRQ = 1 (Table 14-2). -/
def State.collectorLevel (s : State) : Bool := (List.range 46).any fun n => s.latched n && (s.ld .latchWord n).testBit 0

/-! ### Levels of the units (R147, R179, R216, R260, R299, R333, R379, R438, R462, R503, Table 12-1) -/

/-- The value of a whole register, from its stored fields. -/
def State.word (s : State) (r : Reg) (i : Nat) : Nat := r.fields.foldl (fun a f => a + s.rd f i * 2 ^ f.lo) 0

/-- The event register, the enable register and the instance behind a level source. -/
def levelRegs (n : Nat) : Option (Reg × Reg × Nat) :=
  if n < 256 then none
  else if n < 304 then some (.LANE_RX_EVENT, .LANE_RX_EVENT_EN, n - 256)
  else if n < 352 then some (.LANE_TX_EVENT, .LANE_TX_EVENT_EN, n - 304)
  else if n < 400 then some (.SMOKE_EVENT, .SMOKE_EVENT_EN, n - 352)
  else if n < 448 then some (.PORT_EVENT, .PORT_EVENT_EN, n - 400)
  else if n < 472 then some (.TUN_EVENT, .TUN_EVENT_EN, n - 448)
  else if n = 472 then some (.PROT_EVENT, .PROT_EVENT_EN, 0)
  else if n = 473 then some (.HOLD_EVENT, .HOLD_EVENT_EN, 0)
  else if n = 476 then some (.THERM_EVENT, .THERM_EVENT_EN, 0)
  else if n = 485 then some (.KILN_EVENT, .KILN_EVENT_EN, 0)
  else none

/-- The level a unit drives into source `n`. -/
def State.unitLevel (s : State) (n : Nat) : Bool :=
  if n = 475 then s.collectorLevel
  else if n = 487 then s.on F.KEY_STATUS_TAMPER 0 || s.on F.KEY_STATUS_ALL_ZERO 0
  else match levelRegs n with
    | some (e, en, i) => decide (Nat.land (s.word e i) (s.word en i) ≠ 0)
    | none => false

/-- The source whose level a register feeds. -/
def sourceOf (r : Reg) (i : Nat) : Option Nat :=
  match r with
  | .LANE_RX_EVENT | .LANE_RX_EVENT_EN => some (256 + i)
  | .LANE_TX_EVENT | .LANE_TX_EVENT_EN => some (304 + i)
  | .SMOKE_EVENT | .SMOKE_EVENT_EN => some (352 + i)
  | .PORT_EVENT | .PORT_EVENT_EN => some (400 + i)
  | .TUN_EVENT | .TUN_EVENT_EN => some (448 + i)
  | .PROT_EVENT | .PROT_EVENT_EN => some 472
  | .HOLD_EVENT | .HOLD_EVENT_EN => some 473
  | .CHAR_STATUS_LO | .CHAR_STATUS_HI => some 475
  | .THERM_EVENT | .THERM_EVENT_EN => some 476
  | .KILN_EVENT | .KILN_EVENT_EN => some 485
  | .KEY_STATUS => some 487
  | _ => none

/-- After a register has changed: a level that rose since `old` reaches the controller (R401, R403). -/
def State.levelEdge (s old : State) (r : Reg) (i : Nat) : State :=
  match sourceOf r i with
  | some n => if s.unitLevel n && !old.unitLevel n then s.irq n else s
  | none => s

/-- An event bit is set by the device; its unit's level follows. -/
def State.event (s : State) (f : Fld) (i : Nat) : State := (s.put f i true).levelEdge s f.reg i

/-- The same when `c` holds. -/
def State.eventIf (s : State) (c : Bool) (f : Fld) (i : Nat) : State := if c then s.event f i else s

end Sys2Proof.Machine
end

