-- ==== Sys2Proof/Machine/Ready.lean ====
section
/-!
DEFINITION. Ports and paths as far as other units depend on them: layout of a bay, roles, receive and transmit readiness, the paths' status, entry into
ride-through (R12, R180 to R183, R206, R207, R311, R325).
-/

namespace Sys2Proof.Machine

/-! ### Layout (R12, R180, R181) -/

/-- Ports of bay `b`: 1, 2, 4 or 8 by BAY_CFG.SPLIT (R181). -/
def State.portsOf (s : State) (b : Nat) : Nat := 2 ^ s.rd F.BAY_CFG_SPLIT b

/-- Lanes of each port of bay `b`. -/
def State.lanesPerPort (s : State) (b : Nat) : Nat := 8 / s.portsOf b

/-- Port `p` = 8b + i exists under its bay's split (R181). -/
def State.portExists (s : State) (p : Nat) : Bool := decide (p < 48 ∧ p % 8 < s.portsOf (p / 8))

/-- The lanes of port `p` (R12). -/
def State.portLanes (s : State) (p : Nat) : List Nat :=
  let k := s.lanesPerPort (p / 8)
  (List.range k).map fun j => 8 * (p / 8) + p % 8 * k + j

/-- The port that lane `n` belongs to (R12). -/
def State.portOfLane (s : State) (n : Nat) : Nat := 8 * (n / 8) + n % 8 / s.lanesPerPort (n / 8)

/-- The lock state of lane `n`. -/
def State.lockOf (s : State) (n : Nat) : LockS := Amap.get LockS.init s.locks n

/-- The state with the lock state of lane `n` replaced. -/
def State.setLock (s : State) (n : Nat) (x : LockS) : State := { s with locks := Amap.put natLt LockS.init s.locks n x }

/-- Port `p`. -/
def State.port (s : State) (p : Nat) : PortS := Amap.get PortS.init s.ports p

/-- The state with port `p` replaced. -/
def State.setPort (s : State) (p : Nat) (x : PortS) : State := { s with ports := Amap.put natLt PortS.init s.ports p x }

/-- A tunnel's protection state. -/
def State.protT (s : State) (t : Nat) : ProtT := Amap.get ProtT.init s.prot t

/-- The state with a tunnel's protection state replaced. -/
def State.setProt (s : State) (t : Nat) (x : ProtT) : State := { s with prot := Amap.put natLt ProtT.init s.prot t x }

/-- A tunnel's transmit direction. -/
def State.ttx (s : State) (t : Nat) : TunTx := Amap.get TunTx.init s.tunTx t

/-- The state with a transmit direction replaced. -/
def State.setTtx (s : State) (t : Nat) (x : TunTx) : State := { s with tunTx := Amap.put natLt TunTx.init s.tunTx t x }

/-- A tunnel's receive direction. -/
def State.trx (s : State) (t : Nat) : TunRx := Amap.get TunRx.init s.tunRx t

/-- The state with a receive direction replaced. -/
def State.setTrx (s : State) (t : Nat) (x : TunRx) : State := { s with tunRx := Amap.put natLt TunRx.init s.tunRx t x }

/-! ### Channels of the hold store -/

/-- Channel `c` is LIVE. -/
def State.chLive (s : State) (c : Nat) : Bool := s.rd F.HOLD_CH_STATUS_STATE c = 2

/-- A hard repair runs on channel `c`, which serves no other access (R293). -/
def State.chHardRepair (s : State) (c : Nat) : Bool := match s.repair with | some r => r.hard && r.ch = c | none => false

/-- Channel `c` serves accesses. -/
def State.chServes (s : State) (c : Nat) : Bool := s.chLive c && !s.chHardRepair c

/-! ### Roles (R182, R183) -/

/-- ROLE_i of BAY_ROLE. -/
def roleFld (i : Nat) : Fld := ⟨.BAY_ROLE, 2 * i, 2, .tv, 0⟩

/-- The role of port `p`: 0 none, 1 client, 2 line path A, 3 line path B; none for a port that does not exist. -/
def State.role (s : State) (p : Nat) : Nat := if s.portExists p then s.rd (roleFld (p % 8)) (p / 8) else 0

/-- Port `p` is a line port that bundles may use: its role names a path and its format is not off (R183). -/
def State.isLine (s : State) (p : Nat) : Bool := decide (2 ≤ s.role p) && decide (1 ≤ s.rd F.PORT_CFG_FORMAT p ∧ s.rd F.PORT_CFG_FORMAT p ≤ 3)

/-- The line ports of path `x`: 0 A, 1 B. -/
def State.pathPorts (s : State) (x : Nat) : List Nat := (List.range 48).filter fun p => s.isLine p && decide (s.role p = x + 2)

/-- The format of port `p`. -/
def State.fmt (s : State) (p : Nat) : Nat := s.rd F.PORT_CFG_FORMAT p

/-- The PHY a FORMAT 1 port runs, by its width and RATE: Gb/s and the clause of its PCS (Table 5-2). -/
def ethernetPhy : Nat → Nat → Option (Nat × Nat)
  | 1, 0 => some (100, 82)
  | 1, 1 => some (200, 119)
  | 2, 0 => some (200, 119)
  | 2, 1 => some (400, 119)
  | 4, 0 => some (400, 119)
  | 4, 1 => some (800, 172)
  | 8, 0 => some (800, 172)
  | 8, 1 => some (1600, 175)
  | _, _ => none

/-- The PHY of port `p` (R186). -/
def State.phy (s : State) (p : Nat) : Option (Nat × Nat) :=
  ethernetPhy (s.lanesPerPort (p / 8)) (s.rd F.LANE_RX_CFG_RATE ((s.portLanes p).headD 0))

/-- The work a port does on its queue per unit of device time. A block of a line format is 40,960 units of work: a lane sends 5,119 non-marker blocks
in 8,192 units of time (Table 5-5). In Ethernet a unit of work is a bit (Table 5-2). -/
def State.portSpeed (s : State) (p : Nat) : Nat :=
  if s.fmt p = 1 then ((s.phy p).map Prod.fst).getD 0 * 2 / 5 else 25595 * s.lanesPerPort (p / 8)

/-- The block capacity of port `p` in Mb/s (Table 5-2, Table 5-5). -/
def State.portMbps (s : State) (p : Nat) : Nat := if s.fmt p = 1 then s.portSpeed p * 2500 else s.portSpeed p * 15625 / 1000

/-- The work left in the transmit queue of port `p`: the blocks that wait, or, in Ethernet, what the time since has not sent while the port is ready
(log entry 36). -/
def State.workLeft (s : State) (p : Nat) : Nat :=
  if s.fmt p = 1 then (s.port p).txWork - (if s.on F.PORT_STATUS_TX_READY p then s.portSpeed p * (s.time - (s.port p).txAt) else 0)
  else (s.port p).txBlocks.length * 40960

/-! ### Readiness (R206, R207, R212) -/

/-- Lane `n` is Lit and not on its way out of it. -/
def State.laneLit (s : State) (n : Nat) : Bool :=
  decide (s.rd F.LANE_STATE_CUR n = 2) && (!s.on F.LANE_STATE_CHANGING n || decide (s.rd F.LANE_STATE_REQ n = 2))

/-- The Damper applies its measures (R498). -/
def State.enforcing (s : State) : Bool := decide (s.rd F.THERM_STATUS_STATE 0 = 2)

/-- The lanes have no bias: no lane delivers or sends symbols in STOPPED (R499). -/
def State.lanesOff (s : State) : Bool := decide (s.rd F.THERM_STATUS_STATE 0 = 4)

/-- The orderly stop runs or has ended (R499). -/
def State.stopping (s : State) : Bool := decide (s.rd F.THERM_STATUS_STATE 0 = 3) || s.lanesOff

/-- The condition of TX_READY (R207; none in STOPPED, log entry 41). -/
def State.txReadyNow (s : State) (p : Nat) : Bool :=
  !s.lanesOff && s.portExists p && s.on F.PORT_CFG_TX_EN p && decide (s.rd F.PORT_CFG_FORMAT p ≠ 0) && (s.portLanes p).all fun n => s.laneLit n

/-- The condition of RX_READY (R206, R212; none in STOPPED, log entry 41). -/
def State.rxReadyNow (s : State) (p : Nat) : Bool :=
  !s.lanesOff && s.portExists p && ((s.portLanes p).all fun n => (s.lockOf n).lock = .locked && s.on F.LANE_RX_STATUS_SIGNAL n && s.on F.LANE_RX_STATUS_CDR_LOCK n) &&
    (s.port p).deskewed && !s.on F.PORT_STATUS_MAP_FAIL p && !s.on F.PORT_STATUS_SKEW_FAIL p && !s.on F.PORT_STATUS_FEC_FAIL p &&
    !s.on F.PORT_STATUS_MISMATCH p

/-- A one-bit status field takes a value; a change sets its event. -/
def State.track (s : State) (f ev : Fld) (i : Nat) (b : Bool) : State := if s.on f i = b then s else (s.put f i b).event ev i

/-- The readiness of port `p` is judged again; an Ethernet port's queue stands still while it is not ready to send. -/
def State.portReady (s0 : State) (p : Nat) : State :=
  let s := if s0.fmt p = 1 ∧ s0.on F.PORT_STATUS_TX_READY p ≠ s0.txReadyNow p then s0.setPort p { s0.port p with txWork := s0.workLeft p, txAt := s0.time } else s0
  (s.track F.PORT_STATUS_TX_READY F.PORT_EVENT_TX p (s.txReadyNow p)).track F.PORT_STATUS_RX_READY F.PORT_EVENT_RX p (s.rxReadyNow p)

/-- The ready ports of path `x`. -/
def State.readyPorts (s : State) (x : Nat) : List Nat := (s.pathPorts x).filter fun p => s.on F.PORT_STATUS_TX_READY p

/-! ### Paths (R311, R325) -/

/-- The ports of a path with a readiness flag: 0 none, 1 some, 2 all. -/
def State.pathCode (s : State) (x : Nat) (f : Fld) : Nat :=
  let ps := s.pathPorts x
  if !ps.any (fun p => s.on f p) then 0 else if ps.all (fun p => s.on f p) then 2 else 1

/-- The status of one path; a change sets its event. -/
def State.pathTrack (s : State) (x : Nat) (rx tx ev : Fld) : State :=
  let a := s.pathCode x F.PORT_STATUS_RX_READY
  let b := s.pathCode x F.PORT_STATUS_TX_READY
  if s.rd rx 0 = a ∧ s.rd tx 0 = b then s else ((s.wr rx 0 a).wr tx 0 b).event ev 0

/-- A line port of either path has TX_READY = 1. -/
def State.anyTx (s : State) : Bool := decide (s.rd F.PROT_STATUS_PATH_A_TX 0 ≠ 0) || decide (s.rd F.PROT_STATUS_PATH_B_TX 0 ≠ 0)

/-- Path `x` is absent for the merge (R311). -/
def State.pathAbsent (s : State) (x : Nat) : Bool := s.pathCode x F.PORT_STATUS_RX_READY = 0

/-- PROT_STATUS.RIDE and DRAIN follow the tunnels. -/
def State.rideStatus (s : State) : State :=
  (s.put F.PROT_STATUS_RIDE 0 ((List.range 24).any fun t => s.on F.PROT_TUN_STATE_RIDE t)).put F.PROT_STATUS_DRAIN 0
    ((List.range 24).any fun t => s.on F.PROT_TUN_STATE_DRAIN t)

/-- Tunnel `t` enters ride-through (R325). -/
def State.rideEnter (s : State) (t : Nat) : State :=
  if s.on F.PROT_TUN_STATE_RIDE t then s
  else (((s.put F.PROT_TUN_STATE_RIDE t true).put F.PROT_TUN_STATE_DRAIN t false).rideStatus).event F.PROT_EVENT_RIDE 0

/-- With no line port ready, every enabled tunnel with RIDE_EN enters ride-through (R325). -/
def State.rideCheck (s : State) : State :=
  if s.anyTx then s
  else (List.range 24).foldl (fun u t => if u.on F.PROT_TUN_CFG_RIDE_EN t && u.on F.TUN_CFG_TX_EN t then u.rideEnter t else u) s

/-- The status of both paths. -/
def State.pathsTrack (s : State) : State :=
  (s.pathTrack 0 F.PROT_STATUS_PATH_A_RX F.PROT_STATUS_PATH_A_TX F.PROT_EVENT_PATH_A).pathTrack 1 F.PROT_STATUS_PATH_B_RX F.PROT_STATUS_PATH_B_TX
    F.PROT_EVENT_PATH_B

/-- Path `x` delivers in both directions. -/
def State.pathUp (s : State) (x : Nat) : Bool :=
  if x = 0 then decide (s.rd F.PROT_STATUS_PATH_A_RX 0 ≠ 0 ∧ s.rd F.PROT_STATUS_PATH_A_TX 0 ≠ 0)
  else decide (s.rd F.PROT_STATUS_PATH_B_RX 0 ≠ 0 ∧ s.rd F.PROT_STATUS_PATH_B_TX 0 ≠ 0)

/-- The lanes of path `x` are Warm or Lit with the far end transmitting on them (R32, R141). -/
def State.pathWarm (s : State) (x : Nat) : Bool :=
  !(s.pathPorts x).isEmpty && (s.pathPorts x).all fun p => (s.portLanes p).all fun n =>
    decide (2 ≤ s.rd F.LANE_STATE_CUR n) && !s.on F.LANE_RX_STATUS_WARM_STALE n

/-- Some tunnel is enabled, so that a fault can interrupt its delivery. -/
def State.delivers (s : State) : Bool := (List.range 24).any fun k => s.on F.TUN_CFG_TX_EN k || s.on F.TUN_CFG_RX_EN k

/-- One of the first three conditions of R32 fails in the state before a fault, so that the bound of R31 does not hold for it. -/
def State.boundBroken (s : State) : Bool :=
  s.on F.HOLD_STATUS_OVER_BUDGET 0 ||
  match s.rd F.PROT_CFG_MODE 0 with
  | 1 => !(s.pathUp 0 && s.pathUp 1)
  | 2 => let x := s.rd F.PROT_STATUS_ACTIVE 0; !(s.pathUp x && s.pathWarm (1 - x))
  | _ => false

/-- A fault met the device in state `s` outside the bound of R31: where tunnels deliver, the journal records the interruption (R32). -/
def State.faultNote (u s : State) (detail : List Nat) : State := if s.delivers && s.boundBroken then u.journalAdd 7 detail else u

/-- The loss of path `x`, or of a port of it, can interrupt delivery: in Standby only the active path carries it (R302). -/
def State.pathCounts (s : State) (x : Nat) : Bool :=
  match s.rd F.PROT_CFG_MODE 0 with
  | 0 => false
  | 2 => decide (s.rd F.PROT_STATUS_ACTIVE 0 = x)
  | _ => true

/-- The paths that `u` has lost since `s` (R32). -/
def State.lossNote (u s : State) : State :=
  [0, 1].foldl (fun t x => if s.pathUp x && !u.pathUp x && s.pathCounts x then t.faultNote s [2, x] else t) u

/-- Bundles wait in the queues of the path a switch went to until one of its ports is ready (R304). -/
def State.switchArrive (s : State) : State :=
  if s.switchWait && !(s.readyPorts (s.rd F.PROT_STATUS_ACTIVE 0)).isEmpty then { s with switchWait := false } else s

/-- The protection unit takes notice of the ports' readiness (R212). -/
def State.protUpdate (s : State) : State := ((s.pathsTrack.lossNote s).switchArrive).rideCheck

/-- A port is ready in both directions. -/
def State.portUp (s : State) (p : Nat) : Bool := s.on F.PORT_STATUS_TX_READY p && s.on F.PORT_STATUS_RX_READY p

/-- Line port `p` has been lost since `s`, with its path still up (R32): a lane, a port or a bay module fails so. -/
def State.portNote (u s : State) (p : Nat) : State :=
  let x := s.role p - 2
  if s.isLine p && s.portUp p && !u.portUp p && u.pathUp x && s.pathCounts x then u.faultNote s [4, p] else u

/-- The readiness of port `p` and what follows from it. -/
def State.portUpdate (s : State) (p : Nat) : State := (s.portReady p).protUpdate.portNote s p

/-! ### Block resets of these units (R331, R421, R519) -/

/-- The tunnel unit: queues, bundles in work and windows are lost; SEQ, D and H are critical words and stay, and no control sequence is used again
under a key (log entry 32). -/
def State.tunReset (s : State) : State :=
  (List.range 24).foldl (fun u t =>
    let seq := u.rd F.TUN_TX_SEQ_LO_SEQ t + u.rd F.TUN_TX_SEQ_HI_SEQ t * 2 ^ 32
    let x := u.ttx t
    let y := u.trx t
    (u.setTtx t { TunTx.init with nextOut := seq, ctrlSeq := x.ctrlSeq, rollId := x.rollId, tallyLost := x.tallyLost, tokAt := u.time }).setTrx t
      { TunRx.init with ctrlHigh := y.ctrlHigh, ctrlSeen := y.ctrlSeen }) s

/-- RUNS and HOLDBACK follow the merge. -/
def State.mergeStatus (s : State) (t : Nat) : State :=
  (s.wr F.PROT_TUN_STATE_RUNS t (s.protT t).runs.length).put F.PROT_TUN_STATE_HOLDBACK t (s.held.any fun h => h.tunnel = t && h.kind = .holdback)

/-- The protection unit: transfers to and from the store are abandoned, the merge buffer is cleared, the retransmission, alignment and hold-back indices stay
(R331). No ride-through index is kept: ride-through and drain end, and a ride-through copy stays only as the retransmission copy it serves as; the others are
released when the reset ends (log entry 46). -/
def State.protReset (s : State) : State :=
  let s0 : State := { s with
    heldReads := [], switchReq := none, switchWait := false
    held := s.held.map fun h => if h.kind = .ride ∧ h.retxToo = true then { h with kind := .retx } else h }
  let s1 := (List.range 24).foldl (fun u t =>
    (u.setProt t { u.protT t with
      copies := (u.protT t).copies.filter fun c => c.place = .stored
      backlog := [], overflow := [], storeFull := false }).mergeStatus t) s0
  s1.protUpdate

/-- The lanes and ports of a reset port. -/
def State.portReset (s : State) (p : Nat) : State :=
  (((s.portLanes p).foldl (fun t n => t.setLock n LockS.init) s).setPort p PortS.init).protUpdate

end Sys2Proof.Machine
end

