-- ==== Sys2Proof/Machine/Lock.lean ====
section
/-!
DEFINITION. The lock of a lane as other units end it (Table 5-7, R203, R205), and what a block reset leaves of a lane (R115, R139, R519).
-/

namespace Sys2Proof.Machine

/-! ### Lock machine: leaving LOCKED (Table 5-7, R203, R205) -/

/-- The number of lane `n` within its port. -/
def State.laneIndex (s : State) (n : Nat) : Nat := n % 8 % s.lanesPerPort (n / 8)

/-- LOGICAL_l of PORT_LANE_MAP. -/
def logicalFld (l : Nat) : Fld := ⟨.PORT_LANE_MAP, 3 * l, 3, .ro, 0⟩

/-- One bit of a field takes a value. -/
def State.setBit (s : State) (f : Fld) (i k : Nat) (b : Bool) : State :=
  if (s.rd f i).testBit k = b then s else s.wr f i (Nat.xor (s.rd f i) (2 ^ k))

/-- Every lane of port `p` is LOCKED. -/
def State.allLocked (s : State) (p : Nat) : Bool := s.portExists p && (s.portLanes p).all fun n => (s.lockOf n).lock = .locked

/-- The map, REVERSED and MAP_FAIL of port `p` follow its lanes (R203); a changed map, or MAP_FAIL set, sets MAP. -/
def State.mapJudge (s : State) (p : Nat) : State :=
  let ls := s.portLanes p
  let k := ls.length
  let old := s.word .PORT_LANE_MAP p
  let locked := ls.filter fun n => (s.lockOf n).lock = .locked
  let nums := locked.map fun n => (s.lockOf n).logical
  let s1 := ls.foldl (fun t n => t.wr (logicalFld (t.laneIndex n)) p (if (t.lockOf n).lock = .locked then (t.lockOf n).logical else 0)) s
  let rev := s.allLocked p && decide (2 ≤ k) && ls.all fun n => (s.lockOf n).logical + s.laneIndex n + 1 = k
  let s2 := s1.put F.PORT_LANE_MAP_REVERSED p rev
  let fail := nums.any (fun a => k ≤ a) || nums.any fun a => 2 ≤ (nums.filter fun b => b = a).length
  let s3 := s2.put F.PORT_STATUS_MAP_FAIL p fail
  s3.eventIf (decide (s3.word .PORT_LANE_MAP p ≠ old) || (fail && !s.on F.PORT_STATUS_MAP_FAIL p)) F.PORT_EVENT_MAP p

/-- Lane `n` takes a lock state other than LOCKED: what it found is lost, its blocks are dropped and its port is deskewed anew (R205). -/
def State.lockLeave (s : State) (n : Nat) (lk : Lock) : State :=
  let p := s.portOfLane n
  let l := s.laneIndex n
  let x := s.lockOf n
  let was := x.lock = .locked
  let s1 := s.setLock n { x with lock := lk, misses := 0, logical := 0, count := none
                                 pcs := { x.pcs with bits := [], swapped := false, next := 0, base := 0, blocks := [] } }
  if was then
    let s2 := (s1.setBit F.PORT_STATUS_LOCKED p l false).setPort p { s1.port p with deskewed := false, turn := none }
    let pol := (s2.rd F.PORT_POL_INV p).testBit l
    let s3 := (s2.setBit F.PORT_POL_INV p l false).eventIf pol F.PORT_EVENT_POL p
    (s3.setLane n { s3.lane n with polWanted := false }).mapJudge p
  else s1

/-! ### Block reset of a lane (R115, R139, R519) -/

/-- A lane after a block reset: its registers are at their reset values; it keeps CUR and powers down from there to Cold, as on a written request, and its
lock is lost. The slices that serve its slots stay, and with a failed one FAIL_SLICE and NO_SPARE, until chip reset (R115); only a chip
reset or a zeroisation flags a first beacon (R372). -/
def State.laneReset (s old : State) (n : Nat) : State :=
  let cur := old.rd F.LANE_STATE_CUR n
  let l := old.lane n
  let s1 := s.setLane n { LaneS.init with
    slices := l.slices, seasonLast := l.seasonLast, coefKept := l.coefKept, shorts := l.shorts
    smoke := { LaneS.init.smoke with firstDue := l.smoke.firstDue, beaconAt := l.smoke.beaconAt } }
  let s2 := ((s1.wr F.LANE_SEASON_STATUS_SPARE_POS n (old.rd F.LANE_SEASON_STATUS_SPARE_POS n)).wr F.LANE_SEASON_STATUS_FAIL_SLICE n
    (old.rd F.LANE_SEASON_STATUS_FAIL_SLICE n)).put F.LANE_SEASON_STATUS_NO_SPARE n (old.on F.LANE_SEASON_STATUS_NO_SPARE n)
  (((s2.wr F.LANE_STATE_CUR n cur).put F.LANE_STATE_CHANGING n (cur ≠ 0)).lockLeave n .idle).portUpdate (s.portOfLane n)

end Sys2Proof.Machine
end

