-- ==== Sys2Proof/Machine/McvBase.lean ====
section
/-!
DEFINITION. The monitor converters' state (chapter 16), as far as a block reset and the power manager need it: results, references, triggers, the end of a
capture.
-/

namespace Sys2Proof.Machine

/-- Converter `c`. -/
def State.conv (s : State) (c : Nat) : Conv := Amap.get Conv.init s.convs c

/-- The state with converter `c` replaced. -/
def State.setConv (s : State) (c : Nat) (x : Conv) : State := { s with convs := Amap.put natLt Conv.init s.convs c x }

/-- The capture of pair `p`. -/
def State.cap (s : State) (p : Nat) : CapS := Amap.get CapS.init s.caps p

/-- The state with the capture of pair `p` replaced. -/
def State.setCap (s : State) (p : Nat) (x : CapS) : State := { s with caps := Amap.put natLt CapS.init s.caps p x }

/-- A sequence, an urgent request, the thermal unit's among them, or a capture runs on converter `c` (R467). -/
def State.convBusy (s : State) (c : Nat) : Bool :=
  (decide (c = 7) && s.thermalWait) || (s.conv c).running.isSome || (s.conv c).urgNow.isSome || s.on F.MCV_CAP_STATUS_BUSY (c / 2)

/-! ### Results (R468 to R471) -/

/-- A field of result register `k` of converter `c`: 0 to 15 MCV_RESULT_k, 16 MCV_URG_RESULT. -/
def resFld (f g : Fld) (c k : Nat) : Fld × Nat := if k < 16 then (f, 16 * c + k) else (g, c)

/-- READY of a result. -/
def resReady (c k : Nat) : Fld × Nat := resFld F.MCV_RESULT_READY F.MCV_URG_RESULT_READY c k
/-- FRESH of a result. -/
def resFresh (c k : Nat) : Fld × Nat := resFld F.MCV_RESULT_FRESH F.MCV_URG_RESULT_FRESH c k
/-- SHORT_ACQ of a result. -/
def resShort (c k : Nat) : Fld × Nat := resFld F.MCV_RESULT_SHORT_ACQ F.MCV_URG_RESULT_SHORT_ACQ c k
/-- SEQNUM of a result. -/
def resSeq (c k : Nat) : Fld × Nat := resFld F.MCV_RESULT_SEQNUM F.MCV_URG_RESULT_SEQNUM c k
/-- DATA of a result. -/
def resData (c k : Nat) : Fld × Nat := resFld F.MCV_RESULT_DATA F.MCV_URG_RESULT_DATA c k

/-- Write a field of a result. -/
def State.wrRes (s : State) (p : Fld × Nat) (v : Nat) : State := s.wr p.1 p.2 v

/-- Read a field of a result. -/
def State.rdRes (s : State) (p : Fld × Nat) : Nat := s.rd p.1 p.2

/-- A conversion for a result becomes due: READY clears (R468). -/
def State.resultDue (s : State) (c k : Nat) : State := s.wrRes (resReady c k) 0

/-- A conversion for a result completes (R468, R470). -/
def State.resultDone (s : State) (c k data short : Nat) : State :=
  let s1 := if s.rdRes (resFresh c k) = 1 then s.bump F.MCV_STATUS_UNREAD c 1 else s
  let q := s1.rdRes (resSeq c k)
  ((((s1.wrRes (resData c k) data).wrRes (resShort c k) short).wrRes (resSeq c k) (if q = 255 then 1 else q + 1)).wrRes (resReady c k) 1).wrRes
    (resFresh c k) 1

/-- An entry that will not be converted: its READY returns where it holds a result (R466). -/
def State.resultBack (s : State) (c k : Nat) : State := if s.rdRes (resSeq c k) = 0 then s else s.wrRes (resReady c k) 1

/-! ### References (R477) -/

/-- Some converter of the pair has LP = 0 or is busy. -/
def State.refWanted (s : State) (p : Nat) : Bool :=
  [2 * p, 2 * p + 1].any fun c => !s.on F.MCV_CTL_LP c || s.convBusy c

/-- The reference of a pair is on. -/
def State.refOn (s : State) (p : Nat) : Bool := s.on F.MCV_STATUS_REF_ON (2 * p)

/-- Set REF_ON of both converters of a pair. -/
def State.setRef (s : State) (p : Nat) (b : Bool) : State := (s.put F.MCV_STATUS_REF_ON (2 * p) b).put F.MCV_STATUS_REF_ON (2 * p + 1) b

/-- The reference is powered down when nothing wants it. -/
def State.refSettle (s : State) (p : Nat) : State := if s.refWanted p then s else s.setRef p false

/-! ### Sequences (R466, R467) -/

/-- The sequence of converter `c` starts at entry 0: every entry becomes due. With a `group` its first conversion waits for those members (R476). -/
def State.seqStart (s : State) (c : Nat) (group : List Nat) : State :=
  let s1 := (List.range (s.rd F.MCV_CTL_LEN c + 1)).foldl (fun t k => t.resultDue c k) (s.wr F.MCV_STATUS_ENTRY c 0)
  s1.setConv c { s1.conv c with running := some 0, stopping := false, simWith := group }

/-- A trigger reaches converter `c`: it starts the sequence, is held during a capture, or counts an overrun (R467, R474). -/
def State.convTrigger (s : State) (c : Nat) : State :=
  let x := s.conv c
  if s.on F.MCV_CAP_STATUS_BUSY (c / 2) && !x.held then s.setConv c { x with held := true }
  else if s.on F.MCV_CAP_STATUS_BUSY (c / 2) || x.running.isSome then s.bump F.MCV_STATUS_OVERRUNS c 1
  else s.seqStart c []

/-- After a capture a thermal request that found no slot left is converted, the trigger held on converter `c` is taken, and a sequence resumes with its remaining
entries (R473 to R475). -/
def State.capResume (s : State) (c : Nat) : State :=
  let x := s.conv c
  let s1 := s.setConv c { x with held := false, missed := [], last := x.missed.getLast?.or x.last }
  if x.held then s1.convTrigger c else s1

/-- The capture of pair `p` ends, complete or abandoned; the entries recorded so far are kept. -/
def State.capEnd (s : State) (p : Nat) (abandoned : Bool) : State :=
  let s1 := ((s.put F.MCV_CAP_STATUS_BUSY p false).put F.MCV_CAP_STATUS_ABANDONED p abandoned).put F.MCV_CAP_STATUS_DONE p (!abandoned)
  let s2 := ((s1.setCap p CapS.init).capResume (2 * p)).capResume (2 * p + 1)
  (if s2.on F.MCV_CAP_CTL_IRQ p then s2.irq (477 + 2 * p) else s2).refSettle p

/-- A running capture of pair `p` is abandoned (R475). -/
def State.capAbandon (s : State) (p : Nat) : State := if s.on F.MCV_CAP_STATUS_BUSY p then s.capEnd p true else s

end Sys2Proof.Machine
end

