-- ==== Sys2Proof/Machine/Protect.lean ====
section
/-!
DEFINITION. Error-protected words (chapter 13): how they decode, poison, the log, corrections, hard errors and spare rows, reads and writes of words, the votes
of the critical words. What raises an error line answers it as a line, for its caller to raise.
-/

namespace Sys2Proof.Machine

/-! ### Inverted bits and decoding (R419) -/

/-- The number of one bits of a number below 2^64. -/
def ones (n : Nat) : Nat := ((List.range 64).filter fun i => n.testBit i).length

/-- How one stored word decodes (R419); of three or more inverted bits the code may also miscorrect, or find nothing. -/
inductive Dec where
  | clean | corrected | uncorrectable | poison | miscorrected | undetected
  deriving DecidableEq, Repr

/-- An error line that rises: source, instance, cause. -/
abbrev Line := Nat × Nat × Nat

/-- The poison syndrome of a region: 0xFF, or 0x7F for the (39,32) code of region 6 (R419). -/
def poisonOf (region : Nat) : Nat := if region = 6 then 0x7F else 0xFF

/-- The decoding of a word whose data bits `dx` and check bits `cx` are inverted (R419); the code of the Peat store, region 9, corrects four (R418). -/
def decodeWord (region dx cx : Nat) : Dec :=
  let n := ones dx + ones cx
  if n = 0 then .clean
  else if ones dx + ones (Nat.xor cx (poisonOf region)) ≤ 1 then .poison
  else if n = 1 then .corrected
  else if region = 9 then (if n ≤ 4 then .corrected else .uncorrectable)
  else if n = 2 then .uncorrectable
  else match Config.secdedMany dx cx % 3 with
    | 0 => .miscorrected
    | 1 => .uncorrectable
    | _ => .undetected

/-- The inverted bits present in a copy of a word; (0, 0) when none. -/
def State.markOf (s : State) (region word copy : Nat) : Nat × Nat :=
  match s.marks.find? fun m => m.region = region && m.word = word && m.copy = copy with
  | some m => (m.dx, m.cx)
  | none => (0, 0)

/-- The data bits that stand inverted under the check bits of a word: those inverted when it was poisoned, or as a miscorrection left it. -/
def State.baseOf (s : State) (region word copy : Nat) : Nat :=
  match s.marks.find? fun m => m.region = region && m.word = word && m.copy = copy with
  | some m => m.base
  | none => 0

/-- A copy of a word with inverted bits `dx`, `cx` over a base (none when all are 0). -/
def State.setMarkOn (s : State) (region word copy dx cx base : Nat) : State :=
  let rest := s.marks.filter fun m => !(m.region = region && m.word = word && m.copy = copy)
  { s with marks := if dx = 0 ∧ cx = 0 ∧ base = 0 then rest else rest ++ [⟨region, word, copy, dx, cx, base⟩] }

/-- A copy of a word with inverted bits `dx`, `cx`. -/
def State.setMark (s : State) (region word copy dx cx : Nat) : State := s.setMarkOn region word copy dx cx 0

/-- A word is poisoned: its check bits take the poison syndrome, its data bits stay (R425). -/
def State.setPoison (s : State) (region word copy : Nat) : State :=
  s.setMarkOn region word copy 0 (poisonOf region) (Nat.xor (s.baseOf region word copy) (s.markOf region word copy).1)

/-- The bit position a single-bit correction reports: data bits 0 to 63, check bits from 64, 0xFF when not a single bit (MEMP_LOG.BIT). -/
def bitOf (dx cx : Nat) : Nat :=
  if ones dx + ones cx ≠ 1 then 0xFF
  else match (List.range 64).find? fun i => dx.testBit i with
  | some i => i
  | none => match (List.range 8).find? fun i => cx.testBit i with
    | some i => 64 + i
    | none => 0xFF

/-- An entry of the protection log, or one more lost entry (R432). -/
def State.memLog (s : State) (e : LogRec) : State :=
  if s.log.length < 16 then { s with log := s.log ++ [e] } else s.bump F.MEMP_STATUS_LOG_LOST 0 1

/-! ### Rows, spares, words never written (R421, R424, R448) -/

/-- The row that holds a word: its first word and its length: 64 words in table memory; the length of other rows is not given, so the word alone is one (R448,
log entry 20). -/
def kilnRow (region word : Nat) : Nat × Nat := if region = 0 then (word / 64 * 64, 64) else (word, 1)

/-- The instance of a region's memories that a word lies in, and its spare rows (Table 13-1): of region 1 a bank's private memory with its state area, or the
shared memory; of region 3 a tunnel's queues; of region 6 a lane (the numbering of words: log entry 8). -/
def spareRows (region word : Nat) : Nat × Nat :=
  match region with
  | 0 => (0, 16)
  | 1 => if word < 0x10000 then (word / 0x2000, 4) else if word < 0x14000 then ((word - 0x10000) / 0x800, 4) else (8, 8)
  | 2 => (0, 32)
  | 3 => (word / 0x10000, 2)
  | 4 => (0, 8)
  | 5 => (0, 4)
  | 6 => (word / 0x800, 1)
  | 7 => (0, 2)
  | 9 => (0, 64)
  | _ => (0, 0)

/-- A spare row is left for the row of a word. -/
def State.spareLeft (s : State) (region word : Nat) : Bool :=
  let x := spareRows region word
  decide (Amap.get 0 s.sparesUsed (256 * region + x.1) < x.2)

/-- A spare row takes the place of the row of a word: the row is copied, corrected, and the copy serves from now on (R424). -/
def State.takeSpare (s : State) (region word : Nat) : State :=
  let k := 256 * region + (spareRows region word).1
  let r := kilnRow region word
  { s.wr F.MEMP_REG_STATUS_SPARES_LEFT region (s.rd F.MEMP_REG_STATUS_SPARES_LEFT region - 1) with
    sparesUsed := Amap.put natLt 0 s.sparesUsed k (Amap.get 0 s.sparesUsed k + 1)
    marks := s.marks.filter fun m =>
      !(m.region = region && decide (r.1 ≤ m.word ∧ m.word < r.1 + r.2) && decodeWord region m.dx m.cx = .corrected && m.base = 0) }

/-- Word `word` of region `region` lies in a withheld row (R448). -/
def State.isWithheld (s : State) (region word : Nat) : Bool :=
  s.withheld.any fun w => w.region = region && decide (w.first ≤ word ∧ word < w.first + w.count)

/-- A word of the mailbox maps of the state areas, which hold 0xFF from chip reset on (R86), numbered within region 1. -/
def mapWord (word : Nat) : Bool := decide (0x10000 ≤ word) && decide (Space.shared.dflt (word - 0x10000 + 0x20000) ≠ 0)

/-- A word of a region with valid bits that nothing has written (R421). -/
def State.invalidWord (s : State) (region word : Nat) : Bool :=
  if region = 0 ∨ region = 7 ∨ (region = 1 ∧ mapWord word = false) then decide (s.ld .valid (region * 2 ^ 24 + word) = 0)
  else if 2 ≤ region ∧ region ≤ 4 then !(s.written.any fun w => w.region = region && decide (w.first ≤ word ∧ word < w.first + w.count))
  else false

/-- Words of regions 2 to 4 are written, and with them their valid bits (R421). -/
def State.wrote (s : State) (region first count : Nat) : State :=
  if s.written.any fun w => w.region = region && decide (w.first ≤ first ∧ first + count ≤ w.first + w.count) then s
  else
    { s with written := (s.written.filter fun w => !(w.region = region && decide (first ≤ w.first ∧ w.first + w.count ≤ first + count))) ++
        [⟨region, first, count⟩] }

/-- The valid bits of a region of regions 2 to 4 clear (R421). -/
def State.unwrite (s : State) (region : Nat) : State := { s with written := s.written.filter fun w => w.region ≠ region }

/-! ### Corrections and hard errors (R422 to R424) -/

/-- A hard error is declared: counted, logged, its row repaired from a spare when enabled and one is left, and reported (R424). -/
def State.hardError (s : State) (region word copy bit : Nat) : State × List Line :=
  let s1 := (s.bump F.MEMP_REG_CNT_HARD region 1).memLog ⟨word, 2, region, bit, copy⟩
  (if s1.on F.MEMP_CTL_REPAIR_EN 0 && s1.spareLeft region word then (s1.takeSpare region word).memLog ⟨word, 3, region, bit, copy⟩
   else s1.memLog ⟨word, 4, region, bit, copy⟩, [(27, region, 0)])

/-- One read of a word passes: its tracker counts it (R423). -/
def State.trackRead (s : State) (region word : Nat) : State :=
  { s with trackers := s.trackers.map fun t => if t.region = region && t.word = word then { t with reads := t.reads + 1 } else t }

/-- 1 ms in units of device time. -/
def msUnits : Nat := 2500000

/-- A tracked entry is still open: not both of its windows have closed (R423). -/
def State.trackOpen (s : State) (t : Tracked) : Bool := decide (t.reads < 16) || decide (s.time < t.time + msUnits)

/-- A correction, after which the word reads with the bits of `base` inverted (0: as it was written): written back, counted, logged, and judged against the
region's tracker of 8 addresses (R422 to R424). A critical word's is counted where its copies disagree (R428). -/
def State.correction (s : State) (region word copy bit base : Nat) : State × List Line :=
  let s0 := (s.setMarkOn region word copy 0 0 base).memLog ⟨word, 1, region, bit, copy⟩
  let s1 := if region = 10 then s0 else (s0.bump F.MEMP_REG_CNT_CORRECTED region 1).perf (0x240 + region) 1
  -- the read that finds the error is itself one of the 16 of this word's window
  let live := s1.trackers.filter fun t => s1.trackOpen t || (decide (t.region = region ∧ t.word = word ∧ t.reads = 16))
  let mine := live.filter fun t => t.region = region
  if mine.any fun t => t.word = word then State.hardError { s1 with trackers := live } region word copy bit
  else
    let kept :=
      if mine.length < 8 then live
      else match mine.head? with
        | some o => live.filter fun t => !(t.region = o.region && t.word = o.word)
        | none => live
    ({ s1 with trackers := kept ++ [⟨region, word, 0, s1.time⟩] }, [])

/-- A miscorrection is a correction to the code, at a bit that is not given (R419; log entry 8). -/
def State.miscorrection (s : State) (region word copy v x : Nat) : State × List Line :=
  s.drawn.correction region word copy (s.freeVal % 72) (Nat.xor v x)

/-! ### Reads and writes of words (R418 to R425, R429) -/

/-- What a read of a protected word gives (R418 to R425). -/
inductive ReadRes where
  | good (v : Nat)
  | bad            -- uncorrectable, poisoned or withheld: status POISONED and the region's consumer action
  deriving DecidableEq, Repr

/-- The value a read gives, if any. -/
def ReadRes.value : ReadRes → Option Nat
  | .good v => some v
  | .bad => none

/-- MEMP_RAW captures the undecoded word of a read of MEMP_INJECT_ADDR (R429). -/
def State.rawCapture (s : State) (region word copy v dx cx : Nat) : State :=
  if s.rd F.MEMP_INJECT_CTL_REGION 0 = region ∧ s.rd F.MEMP_INJECT_ADDR_WORD 0 = word then
    let w := Nat.xor v (s.baseOf region word copy)
    let d := Nat.xor w dx
    ((s.wr F.MEMP_RAW_LO_DATA 0 d).wr F.MEMP_RAW_HI_DATA 0 (d / 2 ^ 32)).wr F.MEMP_RAW_CHECK_DATA 0 (Nat.xor (Config.checkBits w % 256) cx)
  else s

/-- The value a miscorrected word of a region reads as. -/
def wrongValue (region v dx cx : Nat) : Nat := Config.miscorrected v dx cx % (if region = 6 then 2 ^ 32 else 2 ^ 64)

/-- An uncorrectable word met by a read: poisoned, counted, logged with `kind` and reported (R425, R426). -/
def State.uncorrectable (s : State) (region word kind : Nat) : State × List Line :=
  ((((s.setPoison region word 0).bump F.MEMP_REG_CNT_UNCORRECTABLE region 1).memLog ⟨word, kind, region, 0xFF, 0⟩).perf (0x250 + region) 1, [(28, region, 0)])

/-- A read of a protected word whose stored value is `v`, with the lines it raises (R418 to R425). -/
def State.memReadL (s : State) (region word v : Nat) : State × ReadRes × List Line :=
  if s.isWithheld region word then (s, .bad, [])
  else if s.invalidWord region word then (s, .good 0, [])
  else
    let m := s.markOf region word 0
    let b := s.baseOf region word 0
    let u := Nat.xor v b
    let s1 := (s.trackRead region word).rawCapture region word 0 v m.1 m.2
    match decodeWord region m.1 m.2 with
    | .clean => (s1, .good u, [])
    | .corrected => let x := s1.correction region word 0 (bitOf m.1 m.2) b; (x.1, .good u, x.2)
    | .uncorrectable => let x := s1.uncorrectable region word 5; (x.1, .bad, x.2)
    | .poison => ((s1.memLog ⟨word, 7, region, 0xFF, 0⟩).perf (0x250 + region) 1, .bad, [])
    | .miscorrected => let w := wrongValue region u m.1 m.2; let x := s1.miscorrection region word 0 v w; (x.1, .good w, x.2)
    | .undetected => (s1, .good (Nat.xor u m.1), [])

/-- The inverted bits a full-word write leaves: those of an armed injection at this word, else none (R420, R429). -/
def State.writeMark (s : State) (region word : Nat) : State :=
  if s.on F.MEMP_STATUS_ARMED 0 && s.rd F.MEMP_INJECT_CTL_REGION 0 = region && s.rd F.MEMP_INJECT_ADDR_WORD 0 = word then
    let dx := s.rd F.MEMP_INJECT_DATA_HI_XOR 0 * 2 ^ 32 + s.rd F.MEMP_INJECT_DATA_LO_XOR 0
    let copy := if region = 10 then max 1 (s.rd F.MEMP_INJECT_CTL_COPY 0) else 0
    let cx := Nat.land (s.rd F.MEMP_INJECT_CTL_CHECK_XOR 0) (poisonOf region)
    let s1 := if cx = poisonOf region then s.setMarkOn region word copy 0 cx dx else s.setMark region word copy dx cx
    (s1.put F.MEMP_STATUS_ARMED 0 false).put F.MEMP_INJECT_CTL_ARM 0 false
  else s.setMark region word 0 0 0

/-- A full-word write to memory `sp` at index `i`, word `word` of region `region`; a withheld row discards it (R420, R448). -/
def State.memWrite (s : State) (region word : Nat) (sp : Space) (i v : Nat) : State :=
  if s.isWithheld region word then s else (s.st sp i v).writeMark region word

/-! ### Runs of words of the regions without an address of their own (regions 2 to 5 and 8) -/

/-- The words of a run that a read or a write of it changes anything for: those with inverted bits or a tracker, and the one MEMP_INJECT_ADDR names. -/
def State.spanWords (s : State) (region first count : Nat) : List Nat :=
  let inSpan (w : Nat) : Bool := decide (first ≤ w ∧ w < first + count)
  let a := (s.marks.filter fun m => m.region = region && inSpan m.word).map fun m => m.word
  let b := (s.trackers.filter fun t => t.region = region && inSpan t.word).map fun t => t.word
  let c := if s.rd F.MEMP_INJECT_CTL_REGION 0 = region ∧ inSpan (s.rd F.MEMP_INJECT_ADDR_WORD 0) = true then [s.rd F.MEMP_INJECT_ADDR_WORD 0] else []
  (a ++ b ++ c).eraseDups

/-- A word of a run lies in a withheld row. -/
def State.spanWithheld (s : State) (region first count : Nat) : Bool :=
  s.withheld.any fun w => w.region = region && decide (w.first < first + count ∧ first < w.first + w.count)

/-- One word of a run is read; where its value is not given a form, MEMP_RAW shows a free one (log entry 8). -/
def State.spanWord (s : State) (region word : Nat) (value : Option Nat) : State × ReadRes × List Line :=
  match value with
  | some v => s.memReadL region word v
  | none => s.drawn.memReadL region word (s.freeVal % 2 ^ 64)

/-- A consumer reads a run of words, which hold what `value` says where it is known; the answer says whether a word of it is lost. -/
def State.spanRead (s : State) (region first count : Nat) (value : Nat → Option Nat) : State × Bool × List Line :=
  let x := (s.spanWords region first count).foldl (fun (a : State × Bool × List Line) w =>
    let r := a.1.spanWord region w (value w)
    (r.1, a.2.1 || r.2.1 = .bad, a.2.2 ++ r.2.2)) (s, false, [])
  (x.1, x.2.1 || s.spanWithheld region first count, x.2.2)

/-- A 256-bit word of the Peat store is read; a lost one is counted, journalled and reported (R418, R520, PEAT_STATUS). Its content is not given here: MEMP_RAW
shows a free value (log entry 8). -/
def State.peatTakeWord (s : State) (word : Nat) : State × Bool × List Line :=
  let r := s.spanWord 9 word none
  if r.2.1 = .bad then ((r.1.bump F.PEAT_STATUS_UE_COUNT 0 1).journalAdd 5 [word], true, r.2.2 ++ [(40, 0, 0)]) else (r.1, false, r.2.2)

/-- A run of words of the Peat store is read; the answer says whether one is lost. -/
def State.peatTake (s : State) (first count : Nat) : State × Bool × List Line :=
  (s.spanWords 9 first count).foldl (fun (a : State × Bool × List Line) w =>
    let r := a.1.peatTakeWord w
    (r.1, a.2.1 || r.2.1, a.2.2 ++ r.2.2)) (s, false, [])

/-- A run of full words is written (R420, R421). -/
def State.spanWrite (s : State) (region first count : Nat) : State :=
  (s.spanWords region first count).foldl (fun t w => if t.isWithheld region w then t else t.writeMark region w)
    (if 2 ≤ region ∧ region ≤ 4 then s.wrote region first count else s)

/-! ### Critical words (R428, Table 13-2) -/

/-- Critical words are numbered in the order of Table 13-2 (the example of R428). -/
def tvTx (t : Nat) : Nat := t
def tvRxDel (t : Nat) : Nat := 24 + 2 * t
def tvRxHigh (t : Nat) : Nat := 25 + 2 * t
def tvKey (k : Nat) : Nat := 72 + k
def tvRole (b : Nat) : Nat := 200 + b
def tvReact (n : Nat) : Nat := 206 + n
def tvPtr : Nat := 270

/-- The stored value of a critical word (Table 13-2). -/
def State.tvValue (s : State) (word : Nat) : Nat :=
  if word < 24 then s.word .TUN_TX_SEQ_LO word + s.word .TUN_TX_SEQ_HI word * 2 ^ 32
  else if word < 72 then
    let t := (word - 24) / 2
    if word % 2 = 0 then s.word .TUN_RX_DEL_LO t + s.word .TUN_RX_DEL_HI t * 2 ^ 32 else s.word .TUN_RX_HIGH_LO t + s.word .TUN_RX_HIGH_HI t * 2 ^ 32
  else if word < 200 then s.word .KEY_DESC (word - 72)
  else if word < 206 then s.word .BAY_ROLE (word - 200)
  else if word < 270 then s.word .FAULT_REACT (word - 206)
  else s.ptrBank + s.ptrGen * 2 ^ 32

/-- A register's fields take the bits of a word. -/
def State.putWord (s : State) (r : Reg) (i v : Nat) : State := r.fields.foldl (fun t f => t.wr f i (f.of v)) s

/-- A critical word takes a value. -/
def State.tvStore (s : State) (word v : Nat) : State :=
  if word < 24 then (s.putWord .TUN_TX_SEQ_LO word v).putWord .TUN_TX_SEQ_HI word (v / 2 ^ 32)
  else if word < 72 then
    let t := (word - 24) / 2
    if word % 2 = 0 then (s.putWord .TUN_RX_DEL_LO t v).putWord .TUN_RX_DEL_HI t (v / 2 ^ 32)
    else (s.putWord .TUN_RX_HIGH_LO t v).putWord .TUN_RX_HIGH_HI t (v / 2 ^ 32)
  else if word < 200 then s.putWord .KEY_DESC (word - 72) v
  else if word < 206 then s.putWord .BAY_ROLE (word - 200) v
  else if word < 270 then s.putWord .FAULT_REACT (word - 206) v
  else (({ s with ptrBank := v % 2, ptrGen := v / 2 ^ 32 }.wr F.SYS_IMAGE_PTR_LO_BANK 0 v)).wr F.SYS_IMAGE_PTR_HI_GEN 0 (v / 2 ^ 32)

/-- How copy `c` (1 to 3) of a critical word decodes. -/
def State.tvDec (s : State) (word c : Nat) : Dec :=
  let m := s.markOf 10 word c
  decodeWord 10 m.1 m.2

/-- What copy `c` of a critical word decodes to; a copy with an uncorrectable or poisoned result takes no part (R428). -/
def State.tvCopyValue (s : State) (word c : Nat) : Option Nat :=
  let m := s.markOf 10 word c
  let u := Nat.xor (s.tvValue word) (s.baseOf 10 word c)
  match s.tvDec word c with
  | .clean => some u
  | .corrected => some u
  | .miscorrected => some (wrongValue 10 u m.1 m.2)
  | .undetected => some (Nat.xor u m.1)
  | .uncorrectable => none
  | .poison => none

/-- The value two or three decoded copies of a critical word agree on (R428). -/
def State.tvVoted (s : State) (word : Nat) : Option Nat :=
  let a := s.tvCopyValue word 1
  let b := s.tvCopyValue word 2
  let c := s.tvCopyValue word 3
  if a.isSome && (a = b || a = c) then a else if b.isSome && b = c then b else none

/-- A critical word can be voted. -/
def State.tvOk (s : State) (word : Nat) : Bool := (s.tvVoted word).isSome

/-- Copy `c` of a critical word after a vote for value `w` in state `s0`: one that disagrees or does not decode is rewritten, one that the code corrected is
written back (R422, R428). -/
def State.tvCopy (s s0 : State) (word c w : Nat) : State × List Line :=
  let m := s0.markOf 10 word c
  if s0.tvCopyValue word c = some w then
    match s0.tvDec word c with
    | .corrected => s.correction 10 word c (bitOf m.1 m.2) 0
    | .miscorrected => s.miscorrection 10 word c 0 0
    | d => (if d = .clean ∧ s0.baseOf 10 word c = 0 then s else s.setMark 10 word c 0 0, [])
  else ((((s.setMark 10 word c 0 0).bump F.MEMP_REG_CNT_CORRECTED 10 1).memLog ⟨word, 8, 10, 0xFF, c⟩).perf 0x24A 1, [])

/-- MEMP_RAW captures the copy named by COPY of a critical word at MEMP_INJECT_ADDR (R429). -/
def State.tvRaw (s : State) (word : Nat) : State :=
  let c := max 1 (s.rd F.MEMP_INJECT_CTL_COPY 0)
  s.rawCapture 10 word c (s.tvValue word) (s.markOf 10 word c).1 (s.markOf 10 word c).2

/-- The vote of a critical word, with the lines it raises (R428); `safe` applies the class safe value of Table 13-3. -/
def State.tvVoteL (s : State) (word : Nat) (safe : State → State) : State × List Line :=
  let s0 := (s.tvRaw word).trackRead 10 word
  match s0.tvVoted word with
  | some w =>
    [1, 2, 3].foldl (fun (a : State × List Line) c => let x := a.1.tvCopy s0 word c w; (x.1, a.2 ++ x.2))
      (if w = s0.tvValue word then s0 else s0.tvStore word w, [])
  | none => (safe (((s0.bump F.MEMP_REG_CNT_UNCORRECTABLE 10 1).memLog ⟨word, 9, 10, 0xFF, 0⟩).perf 0x25A 1), [(28, 10, 0)])

/-- A write stores all three copies of a critical word (R428), with an armed injection in the copy it names (R429). -/
def State.tvWrite (s : State) (word : Nat) : State :=
  let clean := ((s.setMark 10 word 1 0 0).setMark 10 word 2 0 0).setMark 10 word 3 0 0
  clean.writeMark 10 word

/-- The environment upsets a word before it is read: bits invert on top of those already inverted. -/
def State.upset (s : State) (region word : Nat) (u : Upset) : State :=
  let c := if region = 10 then max 1 u.copy.val else 0
  let m := s.markOf region word c
  s.setMarkOn region word c (Nat.xor m.1 u.dx.toNat) (Nat.land (Nat.xor m.2 u.cx.toNat) (poisonOf region)) (s.baseOf region word c)

/-- Several upsets. -/
def State.upsets (s : State) (region word : Nat) (us : List Upset) : State := us.foldl (fun t u => t.upset region word u) s

end Sys2Proof.Machine
end

