-- ==== Sys2Proof/Machine/Reset.lean ====
section
/-!
DEFINITION. What several units share: completions of commands, error lines and their reactions (chapter 14), block resets and the chip reset
(chapter 19), the restart epoch, error-protected words (chapter 13), a failed engine (R89).
-/

namespace Sys2Proof.Machine

/-! ### Completions (R72 to R74) -/

/-- Replace the command with tag `tag` in a list. -/
def Cmd.update (f : Cmd → Cmd) (tag : Nat) (l : List Cmd) : List Cmd := l.map fun c => if c.tag = tag then f c else c

/-- A completion for tag `tag` of bank `b` arrives from its unit (R72, R74). -/
def State.deliver (s : State) (b tag : Nat) (st : Status) (v : Nat) : State :=
  let k := s.bank b
  match k.cmds.find? fun c => c.tag = tag with
  | none => s
  | some c =>
    if c.timedOut then
      let s1 :=
        if st = .aborted then s else (s.bump F.STK_TAGS_LATE b 1).irq (32 * b + 17)
      let k1 := s1.bank b
      if c.quarantined then s1.setBank b { k1 with cmds := k1.cmds.filter fun d => d.tag ≠ tag }
      else s1.setBank b { k1 with cmds := Cmd.update (fun d => { d with phase := .gone }) tag k1.cmds }
    else
      let s1 := if st = .ok then s else s.perfBank 2 b 1
      let k1 := s1.bank b
      s1.setBank b { k1 with
        cmds := Cmd.update (fun d => { d with phase := .gone, answer := some (st, v, k1.arrivals) }) tag k1.cmds
        arrivals := k1.arrivals + 1
        completion := true }

/-- Every command of bank `b` whose address satisfies `p` completes at a reset of its unit: with its real status when it had taken effect,
ABORTED otherwise, in issue order (R73). -/
def State.abortBank (s : State) (p : Nat → Bool) (b : Nat) : State :=
  (s.bank b).cmds.foldl (fun t c =>
    if p c.addr then
      match c.phase with
      | .issued => t.deliver b c.tag .aborted 0
      | .applied st v => t.deliver b c.tag st v
      | .gone => t
    else t) s

/-- The same for every bank (R73). -/
def State.abortCmds (s : State) (p : Nat → Bool) : State := (List.range 8).foldl (fun t b => t.abortBank p b) s

/-! ### EMBER_ALIVE (R442) -/

/-- EMBER_ALIVE stops, held low, with a cause (R442). -/
def State.aliveStop (s : State) (cause : Nat) : State :=
  if s.on F.FAULT_ALIVE_RUNNING 0 then
    { (s.put F.FAULT_ALIVE_RUNNING 0 false).wr F.FAULT_ALIVE_CAUSE 0 cause with alivePhase := false }
  else s

/-! ### Latches of the fault collector (R434 to R436) -/

/-- A trap of source `n` is held for or in progress on some bank. -/
def State.nmtOpen (s : State) (n : Nat) : Bool :=
  (s.nmtHeld.any fun e => e.2 = n) ||
    (List.range 8).any fun b => (s.on F.FAULT_NMT_VALID b && s.rd F.FAULT_NMT_SOURCE b = n) || (s.bank b).nmtOuter.any fun e => e.1 = n

/-- Source `n` is busy: latched, or a reaction of it has not ended (R435). -/
def State.busy (s : State) (n : Nat) : Bool := s.latched n || s.nmtOpen n || s.reactResets.any fun e => e.1 = n

/-- The reaction word in force for source `n`: bits of FAULT_REACT_n, or EMBER_ALIVE stop alone when its copies cannot be voted (Table 13-3). -/
def State.reactWord (s : State) (n : Nat) : Nat :=
  if s.tvOk (tvReact n) then
    s.rd F.FAULT_REACT_IRQ n + 2 * s.rd F.FAULT_REACT_NMT n + 4 * s.rd F.FAULT_REACT_BLOCK_RESET n + 8 * s.rd F.FAULT_REACT_ALIVE_STOP n +
      16 * s.rd F.FAULT_REACT_CHIP_RESET n + 256 * s.rd F.FAULT_REACT_NMT_BANK n
  else 8

/-- The safe value of a word of the reaction table: EMBER_ALIVE stop, in all three copies (Table 13-3). -/
def State.reactSafe (s : State) (n : Nat) : State :=
  let s1 := (((s.put F.FAULT_REACT_IRQ n false).put F.FAULT_REACT_NMT n false).put F.FAULT_REACT_BLOCK_RESET n false).put F.FAULT_REACT_ALIVE_STOP n true
  [1, 2, 3].foldl (fun t c => t.setMark 10 (tvReact n) c 0 0) ((s1.put F.FAULT_REACT_CHIP_RESET n false).wr F.FAULT_REACT_NMT_BANK n 0)

/-- Source `n` latches with an instance and a cause (R434, R436). -/
def State.latch (s : State) (n inst cause : Nat) : State :=
  let s1 := s.wr (charFld n) 0 (Nat.lor (s.rd (charFld n) 0) (2 ^ (n % 32)))
  let s2 := ((s1.wr F.FAULT_DETAIL_TIME n (s.time / 65536)).wr F.FAULT_DETAIL_CAUSE n cause).wr F.FAULT_DETAIL_INSTANCE n inst
  s2.st .latchWord n (s.reactWord n)

/-! ### The restart epoch (R531) -/

/-- The word of the Peat store that holds the epoch counter (Table 19-3). -/
def peatEpochWord : Nat := 0x1FF0040 / 4

/-- The epoch after the present one (R531): the counter plus 1, 0xFFFF_FFFF followed by 1. -/
def nextEpoch (n : Nat) : Nat := if n + 1 < 2 ^ 32 then n + 1 else 1

/-- A new epoch is taken; when the counter's word is lost, a non-zero value of the random source, and bit 40 has cause 3 (R531). The answer is the lines this
raises. -/
def State.takeEpoch (s : State) : State × List Line :=
  let x := s.peatTake (peatEpochWord / 8) 1
  if x.2.1 then ((x.1.drawn).wr F.SYS_EPOCH_VALUE 0 (x.1.freeVal % (2 ^ 32 - 1) + 1), x.2.2.map fun e => if e.1 = 40 then (40, 0, 3) else e)
  else ({ x.1 with epochCount := nextEpoch x.1.epochCount }.wr F.SYS_EPOCH_VALUE 0 (nextEpoch x.1.epochCount), x.2.2)

/-! ### Chip reset (R518, R441, Table 19-2) -/

/-- The fields a chip reset keeps: those whose reset value reads "kept" (R441, R518). -/
def keptField (k : FKey) : Bool :=
  match k.reg with
  | .CHAR_STATUS_LO | .CHAR_STATUS_HI | .FAULT_DETAIL | .FAULT_LAST_RESET => true
  | .FAULT_ALIVE => true
  | .SYS_RESET_CAUSE => k.lo = 24
  | .IO_BAY_PINS => k.lo < 2   -- the levels of the pins PRS_N and INT_N, which no reset changes (log entry 38)
  | _ => false

/-- The memories a chip reset keeps: the Peat store, and the reaction words in force at the latches of the ember domain (R441, R443). -/
def keptSpace : Space → Bool
  | .peat | .latchWord => true
  | _ => false

/-- Every block outside the ember domain in reset (R501, R516, R518, R534): what Table 19-2 keeps stays, the rest is at its reset value. -/
def State.cleared (s : State) : State :=
  { State.reset with
    pending := s.pending
    regs := s.regs.filter fun e => keptField e.1
    mem := s.mem.filter fun e => keptSpace e.1.space
    freeCtr := s.freeCtr
    lastStatus := s.lastStatus
    lastValue := s.lastValue
    out := s.out
    marks := s.marks.filter fun m => m.region = 9 || (m.region = 10 && m.word = tvPtr)
    resets := s.resets
    authFailures := s.authFailures   -- restarts at a success and nothing else (R393)
    oscLost := s.oscLost
    alivePhase := s.alivePhase
    railsLow := s.railsLow
    cutTripped := s.cutTripped
    cutArmed := s.cutArmed
    digestDone := s.digestDone
    ptrBank := s.ptrBank
    ptrGen := s.ptrGen
    epochCount := s.epochCount
    journal := s.journal
    bootStrap := s.bootStrap
    tamperLow := s.tamperLow
    testEn := s.testEn
    jtag := s.jtag
    }

/-- Held in reset until a release. -/
def State.hold (s : State) : State := { s.cleared with inReset := true }

/-- The release of a chip reset with a cause: the cause and its count, the image pointer, a new epoch, the journal (R518, R520, R531). CAUSE 0
(power-on) is not counted; source 475 is driven again by the latches that are kept (R438, R441). -/
def State.released (s : State) (cause : Nat) : State :=
  let s1 := s.wr F.SYS_RESET_CAUSE_CAUSE 0 cause
  let s2 := if cause = 0 then s1 else s1.bump F.SYS_RESET_CAUSE_COUNT 0 1
  let s3 := if cause = 5 then s2.wr F.THERM_STATUS_STATE 0 5 else s2
  let s4 := (s3.wr F.SYS_IMAGE_PTR_LO_BANK 0 s.ptrBank).wr F.SYS_IMAGE_PTR_HI_GEN 0 s.ptrGen
  let s5 := s4.takeEpoch
  -- the reactions are those after chip reset: the lines of the counter's word latch and interrupt
  let s6 := s5.2.foldl (fun t (e : Line) => if t.busy e.1 then t else t.latch e.1 e.2.1 e.2.2) s5.1
  let s7 := if s6.collectorLevel then s6.irq 475 else s6
  s7.journalAdd 1 [cause, s7.rd F.SYS_EPOCH_VALUE 0]

/-- A chip reset with a cause (R518). -/
def State.chipReset (s : State) (cause : Nat) : State := { s.cleared with cutArmed := false, resets := s.resets + 1 }.released cause

/-- No rail is low and the test pin is low: a reset may be released (R516, R534). -/
def State.mayRelease (s : State) : Bool := s.railsLow.isEmpty && !s.testEn

/-- A chip reset that the device itself asks for: released at once, or held while a rail is low, TEST_EN is high or a hard cut has not been followed by RESET_N
(R501, R516, R517, R534). -/
def State.resetFor (s : State) (cause : Nat) : State :=
  if s.mayRelease && !s.cutTripped && !s.cutArmed then s.chipReset cause else { s.hold with resetCause := some cause, resets := s.resets + 1 }

/-- The reset that holds the blocks is released once nothing holds it any more (R516, R517, R534); no rule states the cause of the one that TEST_EN held: a free
value. After a hard cut RESET_N alone releases it (R501). -/
def State.resetRelease (s : State) : State :=
  if s.inReset && s.mayRelease && !s.cutTripped && !s.cutArmed then
    match s.resetCause with
    | some c => s.chipReset c
    | none => ((s.chipReset 1).wr F.SYS_RESET_CAUSE_CAUSE 0 s.freeVal).drawn
  else s

/-- Blocks outside the ember domain are held in reset: by a chip reset that is not released, or, apart from what R449 keeps reachable, by Kiln. -/
def State.blocksHeld (s : State) : Bool := s.inReset || s.on F.KILN_STATUS_FATAL 0

/-- What a command does after a part of it that led from `s` to `t`: nothing once a chip reset has come in between (R441, R518). -/
def State.unlessReset (s t : State) (f : State → State) : State := if t.resets = s.resets then f t else t

/-! ### Block resets (R439, R519) -/

/-- Table 14-1, column "Block reset". -/
def hasBlockReset (src : Nat) : Bool := decide (src ≤ 12 ∨ src = 16 ∨ src = 33 ∨ src = 42 ∨ src = 43)

/-- The critical words, which a block reset leaves untouched (R519, Table 13-2). -/
def critical : Reg → Bool
  | .TUN_TX_SEQ_LO | .TUN_TX_SEQ_HI | .TUN_RX_DEL_LO | .TUN_RX_DEL_HI | .TUN_RX_HIGH_LO | .TUN_RX_HIGH_HI | .KEY_DESC | .BAY_ROLE
  | .FAULT_REACT | .SYS_IMAGE_PTR_LO | .SYS_IMAGE_PTR_HI => true
  | _ => false

/-- Register instance (r, i) belongs to the instance that a block reset of source `src`, instance `inst` resets (R439, R519). -/
def inBlock (src inst : Nat) (r : Reg) (i : Nat) : Bool :=
  let inf := r.info
  let o := i / inf.innerCount
  if src ≤ 5 then inf.unit = .lane && o = 8 * src + inst
  else if src ≤ 11 then inf.unit = .bay && r ≠ .BAY_CFG && r ≠ .BAY_ROLE && o = 8 * (src - 6) + inst
  else if src = 12 then inf.unit = .tunnel
  else if src = 16 then inf.unit = .prot
  else if src = 33 then inf.unit = .tinder
  else if src = 42 then
    match r with
    | .MCV_CTL | .MCV_PERIOD | .MCV_STATUS | .MCV_URGENT | .MCV_URG_RESULT | .MCV_SEQ | .MCV_RESULT => o = inst
    | _ => false
  else if src = 43 then inf.unit = .perf
  else false

/-- An address belongs to that instance. -/
def addrInBlock (src inst a : Nat) : Bool :=
  match Reg.atAddr a with
  | some (r, i) => inBlock src inst r i
  | none => decide (src = 43 ∧ a % 4 = 0 ∧ Unit'.ofAddr a = some .flue)

/-- The registers of an instance return to their reset values, critical words apart (R519). -/
def State.resetRegs (s : State) (p : Reg → Nat → Bool) : State :=
  { s with regs := s.regs.filter fun e => !(p e.1.reg e.1.inst && !critical e.1.reg) }

/-- What a block reset does to the unit's own state; `old` is the state before the reset (R439, R519). A lane keeps its CUR and powers down. -/
def State.blockUnit (s old : State) (src inst : Nat) : State :=
  if src ≤ 5 then
    s.laneReset old (8 * src + inst)
  else if src ≤ 11 then s.portReset (8 * (src - 6) + inst)
  else if src = 12 then s.tunReset.unwrite 3
  else if src = 16 then (s.protReset.unwrite 2).unwrite 4
  else if src = 33 then
    -- the link trains again; its sessions survive (R390)
    let s1 := { s with lanesAligned := [], tsSeen := [], peerSeen := [], ts2Seen := [], peerMask := 0, misplacedAlign := 0, narrow := false,
                            linkAt := s.time, downAt := if old.rd F.TINDER_STATUS_STATE 0 = 4 then s.time else s.downAt }
    if old.rd F.TINDER_STATUS_STATE 0 = 0 then s1 else s1.irq 486
  else if src = 42 then
    -- REF_ON shows the pair's reference, which the reset leaves as it is (R477)
    ((s.setConv inst Conv.init).put F.MCV_STATUS_REF_ON inst (old.refOn (inst / 2))).capAbandon (inst / 2)
  else if src = 43 then
    -- the valid bits of region 7 clear, and with them every header's VALID bit (R421, R509)
    { (s.clearMem .ring fun _ => true).clearMem .valid (fun k => k / 2 ^ 24 = 7) with snap := none, perfNext := none }
  else s

/-- A Kiln slice ends without a counted result: 3 by abort, 4 otherwise (R457, R458). -/
def State.sliceIncomplete (s : State) (result steps : Nat) : State :=
  (((({ s with sliceRegion := none }).put F.KILN_STATUS_BUSY 0 false).wr F.KILN_LAST_HI_RESULT 0 result).put F.KILN_LAST_HI_DONE 0 false).wr
    F.KILN_LAST_LO_STEPS 0 steps

/-- The Kiln regions of a block-reset instance (Table 15-1). -/
def resetRegions (src inst : Nat) : List Nat :=
  if src ≤ 5 then [8 * src + inst]
  else if src ≤ 11 then [48 + (src - 6)]
  else if src = 12 then [118]
  else if src = 16 then [120, 121]
  else if src = 33 then [134]
  else if src = 42 then [136]
  else [135]

/-- A slice on one of some regions ends early, as by a block reset, a change of power state or STOP (R457): how many of its steps it has performed is not given, a
free value below EXPECTED (log entry 20). -/
def State.sliceStopped (s : State) (regions : List Nat) : State :=
  match s.sliceRegion with
  | some n => if regions.contains n then s.drawn.sliceIncomplete 4 (s.freeVal % max 1 (s.rd F.KILN_LAST_LO_EXPECTED 0)) else s
  | none => s

/-- A block reset of one instance of a source (R519): registers, the unit's own state, commands in flight under R73. It ends with BLOCK_RESET_END. -/
def State.blockReset (s : State) (src inst : Nat) : State :=
  let s1 := (s.sliceStopped (resetRegions src inst)).abortCmds (addrInBlock src inst)
  let s2 := (s1.resetRegs (inBlock src inst)).blockUnit s src inst
  { s2 with blockResets := s2.blockResets ++ [(src, inst)] }

/-- The instance of a block-reset source that a number names: eight lanes or ports of a bay, eight converters, or the one unit. -/
def blockInstance (src inst : Nat) : Option Nat :=
  if hasBlockReset src then
    if src ≤ 11 ∨ src = 42 then (if inst < 8 then some inst else none) else some 0
  else none

/-- A block reset of the instance a number names; where it names none, nothing is reset. -/
def State.resetInstance (s : State) (src inst : Nat) : State :=
  match blockInstance src inst with
  | some i => s.blockReset src i
  | none => s

/-! ### Reactions (R438 to R441) -/

/-- A trap of source `src` arrives for bank `b` and is held until it can be taken; where the context is in its fault entry or in NMT_ENTRY it waits for
the next `wfe` (R64, R440). -/
def State.nmtArrive (s : State) (b src : Nat) : State :=
  let s1 := { s with nmtHeld := s.nmtHeld ++ [(b, src)] }
  let k := s1.bank b
  if k.ctx = .inFaultEntry || k.nmt.isSome then s1.setBank b { k with nmtToWfe := k.nmtToWfe ++ [src] } else s1

/-- The IRQ and NMT reactions of a latch, which start together (R438): the level of source 475 rises unless it was `up` before; an NMT to a
FAILED bank becomes ALIVE_STOP (R440). -/
def State.reactFirst (s : State) (up : Bool) (src word : Nat) : State :=
  let s1 := if word.testBit 0 && !up then s.irq 475 else s
  if word.testBit 1 then
    let b := word / 256 % 8
    if (s1.bank b).failed then s1.aliveStop src else s1.nmtArrive b src
  else s1

/-- The reaction word of source `n` is read: its copies are voted (R428, R438). -/
def State.reactVote (s : State) (n : Nat) : State × List Line := s.tvVoteL (tvReact n) fun t => t.reactSafe n

/-- A reaction resets instance `i` of source `src`; the source is busy until it ends (R435). -/
def State.reactReset (s : State) (src i : Nat) : State :=
  match blockInstance src i with
  | some k => let t := s.blockReset src k; { t with reactResets := t.reactResets ++ [(src, k)] }
  | none => s

/-- The error lines of instances `insts` of source `src` rise; `inst` and `cause` are what its block reports. Every reaction but the chip reset, which the
answer asks for (R433 to R440), and the lines that reading the reaction word raises. `won` says that an acknowledging write met the error, which wins (R434). -/
def State.sourceRise (s : State) (won : Bool) (src : Nat) (insts : List Nat) (inst cause : Nat) : State × Bool × List Line :=
  let s0 := s.perf (0x200 + src) insts.length
  if 46 ≤ src || (s0.busy src && !won) then (s0, false, [])
  else
    let v := s0.reactVote src
    let word := v.1.reactWord src
    let s1 := (v.1.latch src inst cause).reactFirst s0.collectorLevel src word
    let s2 := if word.testBit 2 then insts.foldl (fun t i => t.reactReset src i) s1 else s1
    (if word.testBit 3 then s2.aliveStop src else s2, word.testBit 4, v.2)

/-- The chip reset that source `src` asked for (R441). -/
def State.faultReset (s : State) (src : Nat) : State :=
  ((s.resetFor 2).put F.FAULT_LAST_RESET_VALID 0 true |>.bump F.FAULT_LAST_RESET_COUNT 0 1).wr F.FAULT_LAST_RESET_SOURCE 0 src

/-- The lower of a source and one that asked before, if any. -/
def lowerOf (a : Option Nat) (n : Nat) : Option Nat := match a with | some m => some (min m n) | none => some n

/-- Error lines rise in one cycle, the lowest source first; `asked` is the lowest source so far that asks for a chip reset. Each round takes one source, with the
instance listed first of it. -/
def State.raiseAll : Nat → State → List Nat → Option Nat → List Line → State × Option Nat
  | 0, s, _, asked, _ => (s, asked)
  | fuel + 1, s, won, asked, lines =>
    match (lines.map fun e => e.1).min? with
    | none => (s, asked)
    | some src =>
      match lines.filter fun e => e.1 = src with
      | [] => (s, asked)
      | e :: more =>
        let r := s.sourceRise (won.contains src) src ((e :: more).map fun d => d.2.1) e.2.1 e.2.2
        State.raiseAll fuel r.1 (won.filter fun n => n ≠ src) (if r.2.1 then lowerOf asked src else asked) ((lines.filter fun d => d.1 ≠ src) ++ r.2.2)

/-- Error lines that rise in one cycle, of which the sources `won` meet an acknowledging write: every source latches, lowest first; one chip reset is performed,
for the lowest source that asks for one (R434, R435, R439, R441). Reading a source's reaction word may add the lines 27 and 28. -/
def State.errorLinesWon (s : State) (won : List Nat) (lines : List Line) : State :=
  let x := State.raiseAll (3 * lines.length + 9) s won none lines
  match x.2 with
  | some src => x.1.faultReset src
  | none => x.1

/-- Error lines that rise in one cycle, each with source, instance and cause. -/
def State.errorLines (s : State) (lines : List Line) : State := s.errorLinesWon [] lines

/-- A rising error line of source `src`, with the instance and cause its block reports (R433 to R441). -/
def State.errorLine (s : State) (src inst cause : Nat) : State := s.errorLines [(src, inst, cause)]

/-- A new epoch outside a chip reset (R531). -/
def State.newEpoch (s : State) : State :=
  let x := s.takeEpoch
  x.1.errorLines x.2

/-! ### Mailbox responses and failed engines (R88, R89) -/

/-- A response of bank `b`'s mailbox is discarded and counted for its session; a SESSION byte that names no session is counted nowhere (R88). -/
def State.mbxDrop (s : State) (b session : Nat) : State :=
  if session < 32 then s.st .mbxDropped (b * 32 + session) (min 255 (s.ld .mbxDropped (b * 32 + session) + 1)) else s

/-- A response for a session of bank `b`'s mailbox; a full queue discards it and counts it for the session (R88). One for a session that is not open takes its
place too, and the next session of that number finds it within its 10 ms (the model's choice, log entry 29). -/
def State.respond (s : State) (b session : Nat) (words : List Nat) : State :=
  let k := s.bank b
  if k.responses.length < 16 then s.setBank b { k with responses := k.responses ++ [(session, words)] }
  else s.mbxDrop b session

/-- The device's own answer to a request (Table 2-11, Table 2-12): REQ_ID, STATUS, LEN 0, SESSION. -/
def deviceAnswer (request : List Nat) (session status : Nat) : List Nat :=
  [request.getD 0 0 / 65536 * 65536 + status * 256, session * 2 ^ 24] ++ List.replicate 14 0

/-- The banks an engine hosts. -/
def State.hostedBy (s : State) (e : Nat) : List Nat := (List.range 8).filter fun b => (s.bank b).host.map Fin.val = some e

/-- Engine `e` has failed or was excluded (STK_ENGINES.FAILED). -/
def State.engineDown (s : State) (e : Nat) : Bool := (s.rd F.STK_ENGINES_FAILED 0).testBit e

/-- Engine `e` qualifies as adopter of bank `b` (R89). -/
def State.qualifies (s : State) (b e : Nat) : Bool :=
  !s.engineDown e && decide ((s.hostedBy e).length < 2) && !(s.bank b).haltedOn.contains e

/-- The engines in the order R89 tries them for bank `b`: the one STK_CTL.ADOPTER names, then ascending modulo 8. -/
def State.adoptOrder (s : State) (b : Nat) : List Nat := (List.range 8).map fun k => (s.rd F.STK_CTL_ADOPTER b + k) % 8

/-- The adopter of bank `b`, when an engine qualifies. -/
def State.adopter (s : State) (b : Nat) : Option Nat := (s.adoptOrder b).find? fun e => s.qualifies b e

/-- Bank `b` has no adopter (R89), an interruption that the journal records (R32): STATE FAILED, queued requests answered BANK_LOST, the traps pending for it,
taken and not taken, replaced by ALIVE_STOP (R440). -/
def State.bankLost (s : State) (b : Nat) : State :=
  let k := s.bank b
  let s1 := s.setBank b { k with failed := true, lost := true, host := none, wantAdopt := false, requests := [], mailbox := false }
  let s2 := k.requests.foldl (fun t r => t.respond b (r.getD 1 0 / 2 ^ 24) (deviceAnswer r (r.getD 1 0 / 2 ^ 24) 6)) s1
  let named := if s2.on F.FAULT_NMT_VALID b then s2.rd F.FAULT_NMT_SOURCE b :: k.nmtOuter.map Prod.fst else []
  let held := (s2.nmtHeld.filter fun e => e.1 = b).map Prod.snd
  let s3 := { s2.setBank b { s2.bank b with nmt := none, nmtOuter := [], nmtToWfe := [] } with nmtHeld := s2.nmtHeld.filter fun e => e.1 ≠ b }
  ((named ++ held).foldl (fun t n => t.aliveStop n) ((s3.put F.FAULT_NMT_VALID b false).wr F.FAULT_NMT_SOURCE b 0)).journalAdd 7 [1, b]

/-- Adoption is called for: bank `b` is marked for adoption (an interruption that the journal records where another condition of R32 fails), or, with no engine
qualifying, the bank is lost and bit 26 rises (R89). -/
def State.adoptionLines (s : State) (b : Nat) : State × List Line :=
  match s.adopter b with
  | some _ => let k := s.bank b; ((s.setBank b { k with wantAdopt := true, host := none }).faultNote s [1, b], [])
  | none => (s.bankLost b, [(26, b, 1)])

/-- Adoption is called for and its line raised. -/
def State.callAdoption (s : State) (b : Nat) : State := let x := s.adoptionLines b; x.1.errorLines x.2

/-- The own bank of a failed engine (R89). -/
def State.failOwnBank (s : State) (e : Nat) : State × List Line :=
  let k := s.bank e
  if k.host.isSome then (s, [])
  else
    match k.ctx with
    | .stopped => (s, [])
    | .halted => (s, [])
    | _ => if s.on F.STK_CTL_ADOPT_EN e then s.adoptionLines e else (s.bankLost e, [])

/-- Engine `e` is declared failed with the cause of Table 14-4 (R45, R63, R65, R89): its own bank and every bank it hosts are placed anew. The answer is the lines
this raises. -/
def State.engineLines (s : State) (e cause : Nat) : State × List Line :=
  if s.engineDown e then (s, [])
  else
    let s0 := s.setBank e { s.bank e with frozenPc := some (s.bank e).pc }
    let s1 := (s0.wr F.STK_ENGINES_FAILED 0 (Nat.lor (s0.rd F.STK_ENGINES_FAILED 0) (2 ^ e))).wr F.STK_ENGINES_PRESENT 0
      (Nat.land (s0.rd F.STK_ENGINES_PRESENT 0) (255 - 2 ^ e))
    let own := s1.failOwnBank e
    (s1.hostedBy e).foldl (fun a b => let x := a.1.adoptionLines b; (x.1, a.2 ++ x.2)) (own.1, (18 + e, e, cause) :: own.2)

/-- An engine fails and its lines rise together. -/
def State.engineFail (s : State) (e cause : Nat) : State := let x := s.engineLines e cause; x.1.errorLines x.2

end Sys2Proof.Machine
end

