-- ==== Sys2Proof/Machine/Slice.lean ====
section
/-!
DEFINITION. Kiln's regions and what ends an in-service slice: data-path requests and changes of power state (R445, R454 to R457, Table 15-1).
-/

namespace Sys2Proof.Machine

/-! ### Regions (Table 15-1) -/

/-- Column "Kind": the region holds logic. -/
def kilnLogic (n : Nat) : Bool := !(n = 121 || n = 131 || n = 132 || n = 138)

/-- Column "Kind": the region holds memory. -/
def kilnHasMem (n : Nat) : Bool :=
  decide (n < 48) || n = 118 || n = 119 || n = 120 || n = 121 || n = 122 || n = 131 || n = 132 || n = 135 || n = 138

/-- The managed blocks a Kiln region lies in; lanes, memories and the unmanaged units lie in none (Table 17-3). -/
def kilnBlocks (n : Nat) : List Nat :=
  if 48 ≤ n ∧ n ≤ 53 then [13 + (n - 48)]
  else if 54 ≤ n ∧ n ≤ 117 then [9]
  else if n = 118 then [8]
  else if n = 119 then [10]
  else if n = 120 ∨ n = 121 then [11]
  else if n = 122 then [12]
  else if 123 ≤ n ∧ n ≤ 130 then [n - 123]
  else if n = 135 then [23]
  else if n = 136 then [19, 20, 21, 22]
  else []

/-- The Kiln regions inside a managed block. -/
def blockRegions (n : Nat) : List Nat := (List.range 139).filter fun r => (kilnBlocks r).contains n

/-- The banks that own a region's objects (R456, R71). -/
def State.regionBanks (s : State) (n : Nat) : List Nat :=
  let objs : List Obj :=
    if n < 48 then [.lane n]
    else if n < 54 then .bay (n - 48) :: (List.range 8).map fun k => .port (8 * (n - 48) + k)
    else if n < 118 ∨ n = 119 then [.keyUnit]
    else if n = 118 then (List.range 24).map .tunnel
    else if n = 120 ∨ n = 121 then [.protUnit]
    else if n = 122 then .holdUnit :: (List.range 24).map .holdCh
    else if n = 135 then (List.range 256).map .counter
    else if n = 136 then (List.range 8).map .conv ++ (List.range 4).map .pair ++ (List.range 96).map .monIn
    else []
  (List.range 8).filter fun b => objs.any fun o => s.owner o = b

/-! ### Aborts (R454, R456) -/

/-- An abort of region `n` is counted; eight in a row set UNTESTABLE (R456). -/
def State.kilnAborted (s : State) (n : Nat) : State :=
  let k := min 8 (s.rd F.KILN_REG_ABORTS n + 1)
  let s1 := { s.wr F.KILN_REG_ABORTS n k with kilnWait := (s.kilnWait.filter fun e => e.1 ≠ n) ++ [(n, s.time)] }
  if k = 8 ∧ s.on F.KILN_REG_UNTESTABLE n = false then
    let s2 := (s1.put F.KILN_REG_UNTESTABLE n true).bump F.KILN_STATUS_UNTESTABLE_COUNT 0 1
    (s.regionBanks n).foldl (fun t b => t.irq (32 * b + 19)) (s2.event F.KILN_EVENT_UNTESTABLE 0)
  else s1

/-- The running slice on region `n` is aborted after `steps` steps; a memory slice leaves its row redirected to the saved copy (R454). -/
def State.sliceAbort (s : State) (n steps : Nat) : State :=
  let s1 := s.sliceIncomplete 3 steps
  { s1 with sliceRedirect := if s.sliceMem then s1.sliceRedirect ++ [n] else s1.sliceRedirect }.kilnAborted n

/-- A data-path request reaches region `n` (R454, R455): a slice on it is aborted, after a number of steps below EXPECTED that is not given (log entry 20). -/
def State.dataPath (s : State) (n : Nat) : State :=
  let s1 := { s with trafficAt := Amap.ins natLt (Amap.erase s.trafficAt n) n s.time }
  if s.sliceRegion = some n then s1.drawn.sliceAbort n (s.freeVal % max 1 (s.rd F.KILN_LAST_LO_EXPECTED 0)) else s1

/-- Data-path requests reach several regions. -/
def State.dataPaths (s : State) (ns : List Nat) : State := ns.foldl State.dataPath s

end Sys2Proof.Machine
end

