-- ==== Sys2Proof/Machine/Memp.lean ====
section
/-!
DEFINITION. Error protection of stored data (chapter 13): reads and writes of protected words, the injection and log registers.
-/

namespace Sys2Proof.Machine

/-- A read of a protected word whose stored value is `v` (R418 to R425). -/
def State.memRead (s : State) (region word v : Nat) : State × ReadRes :=
  let x := s.memReadL region word v
  (x.1.errorLines x.2.2, x.2.1)

/-- The same for what a unit does with a word: its value, or what the unit does where the word is lost. A chip reset that a line brings ends it. -/
def State.memUse (s : State) (region word v : Nat) (good : Nat → State → State) (lost : State → State) : State :=
  let x := s.memRead region word v
  s.unlessReset x.1 (match x.2 with | .good u => good u | .bad => lost)

/-- A consumer reads a run of words; the answer says whether a word of it is lost. -/
def State.spanTake (s : State) (region first count : Nat) : State × Bool :=
  let x := s.spanRead region first count fun _ => none
  (x.1.errorLines x.2.2, x.2.1)

/-- The vote of a critical word (R428); `safe` applies the class safe value of Table 13-3. -/
def State.tvVote (s : State) (word : Nat) (safe : State → State) : State :=
  let x := s.tvVoteL word safe
  x.1.errorLines x.2

/-- Twice MEMP_CTL.PERIOD in units of device time; PERIOD counts 0.1 s, 0 acting as 1 (R426). -/
def State.scrubLimit (s : State) : Nat := 2 * max 1 (s.rd F.MEMP_CTL_PERIOD 0) * 250000000

/-- The current pass of region `r` has lasted longer than twice PERIOD: it began when the last one ended, or when scrubbing was enabled. -/
def State.scrubOver (s : State) (r : Nat) : Bool := decide (max s.scrubFrom (Amap.get 0 s.scrubAt r) + s.scrubLimit < s.time)

/-- A pass of a region from 0 to 8 that cannot complete within twice PERIOD (R426). -/
def execScrubLate (s : State) : Host.Outcome State Fault Refusal :=
  .next (if s.on F.MEMP_CTL_SCRUB_EN 0 && (List.range 9).any s.scrubOver then s.put F.MEMP_STATUS_SCRUB_LATE 0 true else s)

/-- Removing the oldest log entry; no effect when the log is empty (R432, MEMP_LOG_POP). -/
def State.logPop (s : State) : State := { s with log := s.log.drop 1 }

/-- Every tunnel has TX_EN = 0 and RX_EN = 0 (R430). -/
def State.tunnelsIdle (s : State) : Bool :=
  (List.range 24).all fun t => !s.on F.TUN_CFG_TX_EN t && !s.on F.TUN_CFG_RX_EN t

/-- A write of MEMP_INJECT_CTL, judged in the order privilege, mode, state; the privilege check stands before (R430). -/
def State.injectWrite (s : State) (v : Nat) : State × Status :=
  let arm := F.MEMP_INJECT_CTL_ARM.of v
  let region := F.MEMP_INJECT_CTL_REGION.of v
  let store (t : State) : State :=
    (((t.wr F.MEMP_INJECT_CTL_CHECK_XOR 0 (F.MEMP_INJECT_CTL_CHECK_XOR.of v)).wr F.MEMP_INJECT_CTL_COPY 0 (F.MEMP_INJECT_CTL_COPY.of v)).wr
      F.MEMP_INJECT_CTL_REGION 0 region).wr F.MEMP_INJECT_CTL_ARM 0 arm
  if arm = 1 then
    if s.service then (s, .refusedMode)
    else if !s.tunnelsIdle || region = 8 || region = 9 || 11 ≤ region then (s, .refusedState)
    else ((store s).put F.MEMP_STATUS_ARMED 0 true, .ok)
  else if 11 ≤ region then (s, .refusedState)
  else ((store s).put F.MEMP_STATUS_ARMED 0 false, .ok)

end Sys2Proof.Machine
end

