-- ==== Sys2Proof/Machine/Link.lean ====
section
/-!
DEFINITION. What the device sends over the Tinder link (R387, R388): numbering, the replay buffer, the packets of Table 11-4.
-/

namespace Sys2Proof.Machine

/-- The packet layer runs (Table 11-2). -/
def State.linkActive (s : State) : Bool := s.rd F.TINDER_STATUS_STATE 0 = 4

/-- The bytes of a packet the device sends, between SOP and EOP (Table 11-3). -/
def linkPacket (type session lseq tag status : Nat) (payload : List Nat) : List Nat :=
  let m := [type, session] ++ bytesBe 2 lseq ++ bytesBe 2 tag ++ bytesBe 2 payload.length ++ [status, 0, 0, 0] ++ payload
  m ++ bytesBe 4 (crc32 m)

/-- The physical lanes whose LANE names a logical lane that no other carries (R385). -/
def State.goodLanes (s : State) : List (Nat × Nat) :=
  s.lanesAligned.filter fun e => decide (e.2 < 4) && decide ((s.lanesAligned.filter fun d => d.2 = e.2).length = 1)

/-- The lowest logical lane aligned at both ends, with the physical lane it arrives on (R386). -/
def State.commonLane (s : State) : Option (Nat × Nat) :=
  (s.goodLanes.filter fun e => s.peerMask.testBit e.2).foldl (fun (a : Option (Nat × Nat)) e =>
    match a with | some x => if e.2 < x.2 then some e else a | none => some e) none

/-- Both ends report all four logical lanes aligned, and CONFIG was not entered at fallback width (R386, Table 11-2). -/
def State.fullWidth (s : State) : Bool := !s.narrow && decide (s.goodLanes.length = 4 ∧ s.peerMask = 15)

/-- The physical lanes R386 chooses from the lanes aligned here and those the received MASK shows. -/
def State.chosenLanes (s : State) : List Nat :=
  if s.fullWidth then [0, 1, 2, 3] else match s.commonLane with | some e => [e.1] | none => []

/-- The logical lanes in use at the width in force. -/
def State.lanesUsed (s : State) : List Nat :=
  if s.on F.TINDER_STATUS_WIDTH 0 then [0, 1, 2, 3] else match s.commonLane with | some e => [e.2] | none => [0]

/-- What a link of `w` lanes carries on each logical lane for a packet: SOP on lane 0 of a group, the bytes in turn, EOP, then PAD up to the end of the
group (R387). -/
def linkStripe (w : Nat) (m : List Nat) : List (List LinkChar) :=
  let c := .sop :: m.map .byte ++ [.eop]
  let full := c ++ List.replicate ((w - c.length % w) % w) .pad
  (List.range w).map fun k => (full.zipIdx.filter fun e => decide (e.2 % w = k)).map fun e => e.1

/-- A packet goes out at the width in use. -/
def State.linkEmit (s : State) (m : List Nat) : State := s.emit (.tinder (s.lanesUsed.zip (linkStripe s.lanesUsed.length m)))

/-- A packet is numbered, kept for replay (the last 64) and sent; while the link is not ACTIVE it waits in the replay buffer (R388, R390). -/
def State.send (s : State) (type session tag status : Nat) (payload : List Nat) : State :=
  let p := linkPacket type session s.lseqTx tag status payload
  let buf := s.replayBuf ++ [(s.lseqTx, p, if s.linkActive then 1 else 0)]
  let s1 := { s with lseqTx := (s.lseqTx + 1) % 4096, replayBuf := buf.drop (buf.length - 64) }
  if s.linkActive then s1.linkEmit p else s1

/-- An ACK or NAK that names a packet: not numbered, not kept. -/
def State.linkAnswer (s : State) (type lseq : Nat) : State := s.linkEmit (linkPacket type 0 lseq 0 0 [])

/-- The link enters another state of Table 11-2; source 486 reports the change. -/
def State.linkState (s : State) (st : Nat) : State :=
  if s.rd F.TINDER_STATUS_STATE 0 = st then s
  else State.irq { s.wr F.TINDER_STATUS_STATE 0 st with linkAt := s.time, downAt := if s.linkActive then s.time else s.downAt } 486

/-- The link enters RESET and trains again (R384); an entry from ACTIVE is counted. -/
def State.linkReset (s : State) : State :=
  let s1 := if s.linkActive then s.bump F.TINDER_STATUS_RETRAINS 0 1 else s
  { s1.linkState 0 with
    lanesAligned := [], tsSeen := [], peerSeen := [], ts2Seen := [], peerMask := 0, misplacedAlign := 0, narrow := false,
    replayBuf := s1.replayBuf.map fun e => (e.1, e.2.1, min 1 e.2.2) }

/-- What follows once the response of an access has been prepared: the chip reset of SYS_RESET_CTL.CHIP, the retrain of TINDER_CTL.RETRAIN. -/
def State.settle (s : State) : State :=
  let s1 := if s.retrainAfter then { s with retrainAfter := false }.linkReset else s
  if s1.resetAfter then { s1 with resetAfter := false }.resetFor 3 else s1

/-- The packet types of Table 11-4 the device sends. -/
def tyReadRsp : Nat := 0x81
def tyWriteRsp : Nat := 0x82
def tyChallenge : Nat := 0x90
def tyOpenRsp : Nat := 0x91
def tyInt : Nat := 0xA0
def tyAck : Nat := 0xF0
def tyNak : Nat := 0xF1

end Sys2Proof.Machine
end

