-- ==== Sys2Proof/Machine/Operands.lean ====
section
/-!
DEFINITION. Operands of Torvulo instructions: general registers, immediates, data addresses (R49, R53 to R56).
-/

namespace Sys2Proof.Machine

/-- General register `i`; g0 always reads 0 (R49). -/
def Bank.reg (k : Bank) (i : Fin 16) : W64 := if i = 0 then 0 else Amap.get 0#64 k.g i.val

/-- Write general register `i`; writes to g0 are discarded (R49). -/
def Bank.setReg (k : Bank) (i : Fin 16) (v : W64) : Bank := if i = 0 then k else { k with g := Amap.put natLt 0#64 k.g i.val v }

/-- IMM sign-extended to 64 bits (Table 2-4). -/
def IW.imm64 (w : IW) : W64 := w.imm.signExtend 64

/-- X[0] = 1: the immediate stands in place of register B (Table 2-4). -/
def IW.immForm (w : IW) : Bool := w.x.getLsbD 0

/-- The second ALU operand (Table 2-4). -/
def Bank.opB (k : Bank) (w : IW) : W64 := if w.immForm then w.imm64 else k.reg w.b

/-- The address a + IMM (Table 2-6). -/
def Bank.addr (k : Bank) (w : IW) : W64 := k.reg w.a + w.imm64

/-- Fields an instruction does not use are reserved and must be 0; of X only the bits in `xmask` are defined (R56, log entry 10). -/
def IW.only (w : IW) (d a b imm : Bool) (xmask : Nat) : Bool :=
  (d || w.d = 0) && (a || w.a = 0) && (b || w.b = 0) && (imm || w.imm = 0) && decide (Nat.land w.x.toNat (255 - xmask) = 0)

/-- The legal field values of a three-operand ALU instruction; `d` false for `cmp` and `tst`. -/
def IW.legalAlu (w : IW) (d : Bool) : Bool := if w.immForm then w.only d true false true 1 else w.only d true true false 1

/-- Where a data address lies (Table 2-2). -/
inductive DataPlace where
  | priv (i : Nat)           -- word of the bank's private data memory
  | shared (i : Nat)         -- word of shared memory (word = address / 8)
  | bounds
  | align
  deriving DecidableEq, Repr

/-- The place of a data address of bank `b`: BOUNDS outside Table 2-2, ALIGN when not a multiple of 8 (R53). Outside the map
BOUNDS goes first, also for a misaligned address (log entry 22). -/
def dataPlace (b : Nat) (a : Nat) : DataPlace :=
  if a < 0x10000 then (if a % 8 = 0 then .priv (b * 0x2000 + a / 8) else .align)
  else if 0x100000 ≤ a ∧ a < 0x200000 then (if a % 8 = 0 then .shared (a / 8) else .align)
  else .bounds

/-- A word of shared memory lies in bytes 0x000 to 0x6FF of a state area (R55). -/
def stateProtected (i : Nat) : Bool := decide (0x20000 ≤ i ∧ i < 0x24000 ∧ (i - 0x20000) % 0x800 < 0xE0)

/-- The memory and the index of a place. -/
def DataPlace.home : DataPlace → Option (Space × Nat)
  | .priv i => some (.priv, i)
  | .shared i => some (.shared, i)
  | _ => none

/-- The number of a data-memory word within region 1: private memories first, then shared memory (log entry 8). -/
def DataPlace.regionWord : DataPlace → Nat
  | .priv i => i
  | .shared i => i - 0x20000 + 0x10000
  | _ => 0

/-- The fault a place raises, as its code of Table 2-7. -/
def DataPlace.fault : DataPlace → Option Nat
  | .bounds => some 3
  | .align => some 4
  | _ => none

/-- Read a data word; the place must be in memory. -/
def State.dataRead (s : State) (p : DataPlace) : State × ReadRes :=
  match p.home with
  | some (sp, i) => s.memRead 1 p.regionWord (s.ld sp i)
  | none => (s, .bad)

/-- Write a data word. -/
def State.dataWrite (s : State) (p : DataPlace) (v : Nat) : State :=
  match p.home with
  | some (sp, i) => s.memWrite 1 p.regionWord sp i v
  | none => s

end Sys2Proof.Machine
end

