-- ==== Sys2Proof/Machine/Flags.lean ====
section
/-!
DEFINITION. The flags register of a context and every flag computation (Table 2-1, R50, R57).
-/

namespace Sys2Proof.Machine

/-- Z and N from a result (Table 2-1). -/
def Bank.flagsZN (k : Bank) (r : W64) : Bank := { k with fz := r = 0, fn := r.msb }

/-- The flags of an addition: carry out and signed overflow. -/
def Bank.flagsAdd (k : Bank) (a b : W64) : Bank :=
  { k.flagsZN (a + b) with fc := decide (2 ^ 64 ≤ a.toNat + b.toNat), fv := BitVec.saddOverflow a b }

/-- The flags of a subtraction: C is unsigned A < B. -/
def Bank.flagsSub (k : Bank) (a b : W64) : Bank :=
  { k.flagsZN (a - b) with fc := a.ult b, fv := BitVec.ssubOverflow a b }

/-- The flags of a logic operation or `mul`: C and V cleared. -/
def Bank.flagsLogic (k : Bank) (r : W64) : Bank := { k.flagsZN r with fc := false, fv := false }

/-- The flags of a shift by `n`: C takes the last bit shifted out; a shift by 0 leaves it. Z and N follow the result and
V stays: Table 2-1 counts shifts with arithmetic for Z and N alone (log entry 23). -/
def Bank.flagsShift (k : Bank) (r : W64) (n : Nat) (last : Bool) : Bank :=
  { k.flagsZN r with fc := if n = 0 then k.fc else last }

/-- E and ST from a completion status (Table 2-1). -/
def Bank.flagsStatus (k : Bank) (st : Nat) : Bank := { k with fe := decide (st ≠ 0), fst := st }

/-- An adoption event waits for the context; it goes to the own context of an engine, never to a hosted one (R66). -/
def Bank.adoptionDue (k : Bank) : Bool := k.host.isNone && !k.adoptions.isEmpty

/-- Bank `k` holds a completed tag not yet taken. -/
def Bank.hasDone (k : Bank) : Bool := k.cmds.any fun c => c.answer.isSome && !c.quarantined

/-- A timer of the bank. -/
def Bank.timer (k : Bank) (t : Nat) : Timer := Amap.get ⟨none, false⟩ k.timers t

/-- Replace a timer. -/
def Bank.setTimer (k : Bank) (t : Nat) (x : Timer) : Bank := { k with timers := Amap.put natLt ⟨none, false⟩ k.timers t x }

/-- An event is pending for the context: flag P (R50, R66). -/
def Bank.hasEvent (k : Bank) : Bool :=
  k.adoptionDue || !k.irqs.isEmpty || (List.range 4).any (fun t => (k.timer t).fired) || (k.completion && k.hasDone) ||
    !k.signals.isEmpty || (k.mailbox && !k.requests.isEmpty)

/-- One bit as a number. -/
def bit (b : Bool) : Nat := if b then 1 else 0

/-- The flags register as `mfl` reads it (Table 2-1). -/
def Bank.flagsWord (k : Bank) : Nat :=
  bit k.fz + 2 * bit k.fn + 4 * bit k.fc + 8 * bit k.fv + 16 * bit k.fe + 32 * bit k.hasEvent + 256 * (k.fst % 16)

/-- The flags restored from a checkpoint word (P is hardware's). -/
def Bank.setFlagsWord (k : Bank) (f : Nat) : Bank :=
  { k with fz := f.testBit 0, fn := f.testBit 1, fc := f.testBit 2, fv := f.testBit 3, fe := f.testBit 4, fst := f / 256 % 16 }

/-- COND is defined (Table 2-5). -/
def IW.condDefined (w : IW) : Bool := decide (w.cond.val ≤ 9)

/-- The condition of Table 2-5. -/
def Bank.condHolds (k : Bank) (w : IW) : Bool :=
  match w.cond.val with
  | 0 => true
  | 1 => k.fz
  | 2 => !k.fz
  | 3 => k.fn != k.fv
  | 4 => k.fn == k.fv
  | 5 => k.fc
  | 6 => !k.fc
  | 7 => k.fe
  | 8 => !k.fe
  | 9 => k.hasEvent
  | _ => false

end Sys2Proof.Machine
end

