-- ==== Sys2Proof/Machine/Stoker.lean ====
section
/-!
DEFINITION. Contexts of the Stoker engines: fault entry, non-maskable traps, checkpoints and the replay log, tags, events (R44 to R93).
-/

namespace Sys2Proof.Machine

/-- The engine that executes bank `b`. -/
def State.engineOf (s : State) (b : Nat) : Nat := ((s.bank b).host.map Fin.val).getD b

/-- Bank `b` runs (R407 counts SLEEPING as running too; this is a context that can issue). -/
def Bank.canIssue (k : Bank) : Bool := (k.ctx = .running || k.ctx = .inFaultEntry) && !k.failed && !k.wantAdopt

/-- STK_STATUS.STATE of a bank; one whose adoption is called for and has not started yet is failed and unadopted (log entry 27). -/
def Bank.stateCode (k : Bank) : Nat :=
  if k.failed || k.wantAdopt then 5
  else if k.host.isSome then 6
  else match k.ctx with
    | .stopped => 0 | .running => 1 | .sleeping => 2 | .inFaultEntry => 3 | .halted => 4

/-- A delivery to a bank commits only while the bank runs: RUNNING, SLEEPING, IN_FAULT_ENTRY or ADOPTED (R407, R440). -/
def Bank.live (k : Bank) : Bool :=
  !k.failed && !k.wantAdopt && (k.ctx = .running || k.ctx = .sleeping || k.ctx = .inFaultEntry)

/-- Hardware reads word `i` of a bank's state area (R418, R422). Of a word that is lost no value is given: a free one (log entry 8). -/
def State.areaRead (s : State) (b i : Nat) : State × Nat :=
  let a := stateArea b + i
  let x := s.memRead 1 (a - 0x20000 + 0x10000) (s.ld .shared a)
  match x.2 with
  | .good v => (x.1, v)
  | .bad => (x.1.drawn, x.1.freeVal)

/-- Hardware reads `n` words of a bank's state area from `i` on. -/
def State.areaRun (s : State) (b i : Nat) : Nat → State × List Nat
  | 0 => (s, [])
  | n + 1 => let x := s.areaRead b i; let y := x.1.areaRun b (i + 1) n; (y.1, x.2 :: y.2)

/-- Hardware writes words of a bank's state area from `i` on. -/
def State.areaWrite (s : State) (b i : Nat) : List Nat → State
  | [] => s
  | v :: vs => (s.memWrite 1 (stateArea b + i - 0x20000 + 0x10000) .shared (stateArea b + i) v).areaWrite b (i + 1) vs

/-- ROOT_ENTRY, FAULT_ENTRY and NMT_ENTRY of the context descriptor are its words 0, 1 and 2 (Table 2-3). -/
def State.entryRead (s : State) (b i : Nat) : State × Nat := let x := s.areaRead b i; (x.1, x.2 % 2 ^ 18)

/-! ### Checkpoint and replay log (R90, Table 2-3) -/

/-- The 51 words of a checkpoint: g1 to g15, flags, TAG, PC, return-stack depth, 32 return-stack words (oldest first). -/
def Bank.checkpoint (k : Bank) (pc : Nat) : List Nat :=
  ((List.range 15).map fun i => (Amap.get 0#64 k.g (i + 1)).toNat) ++ [k.flagsWord, k.tag, pc, k.rstack.length] ++
    (List.range 32).map fun i => k.rstack.reverse.getD i 0

/-- Hardware writes bank `b`'s checkpoint with PC `pc` and clears its replay log (R90). -/
def State.writeCheckpoint (s : State) (b pc : Nat) : State :=
  let k := s.bank b
  (s.areaWrite b 8 (k.checkpoint pc)).setBank b { k with log := [] }

/-- The initial checkpoint (R90); a bank that starts so has executed no `next` yet (R78). -/
def State.initialCheckpoint (s0 : State) (b : Nat) : State :=
  let e := s0.entryRead b 0
  s0.unlessReset e.1 fun s =>
  let k := s.bank b
  let k0 := { k with g := [], fz := false, fn := false, fc := false, fv := false, fe := false, fst := 0, tag := 0, rstack := [], log := [],
                     replay := none, retired := 0, stall := .none, nmt := none, nmtOuter := [], nmtToWfe := [],
                     nextTime := none, pc := e.2 }
  (s.areaWrite b 8 (List.replicate 17 0 ++ [e.2] ++ List.replicate 33 0)).setBank b k0

/-- The context restored from the words of its checkpoint (R91). -/
def Bank.restored (k : Bank) (ws : List Nat) : Bank :=
  let wd (i : Nat) : Nat := ws.getD i 0
  let g := (List.range 15).foldl (fun m i => Amap.put natLt 0#64 m (i + 1) (BitVec.ofNat 64 (wd i))) []
  let depth := min 32 (wd 18)
  { k.setFlagsWord (wd 15) with
    g := g, tag := wd 16, pc := wd 17 % 2 ^ 18, rstack := ((List.range depth).map fun i => wd (19 + i)).reverse, stall := .none, nmt := none, nmtOuter := [], nmtToWfe := [],
    replay := some k.log }

/-- One entry appended to the replay log; its 16 bytes in the state area hold words the specification gives no form to (log entry 2). -/
def State.logAdd (s : State) (b : Nat) (e : LogEntry) : State :=
  let k := s.bank b
  let i := 0x40 + 2 * k.log.length
  let s1 := (s.areaWrite b i [s.freeVal % 2 ^ 64]).drawn
  let s2 := (s1.areaWrite b (i + 1) [s1.freeVal % 2 ^ 64]).drawn
  s2.setBank b { k with log := k.log ++ [e] }

/-- A logged instruction that would find the log full writes a checkpoint first (R90). -/
def State.logRoom (s : State) (b : Nat) : State := if (s.bank b).log.length < 64 then s else s.writeCheckpoint b (s.bank b).pc

/-! ### Traps (R64, R440) -/

/-- The traps held for bank `b`. -/
def State.nmtOf (s : State) (b : Nat) : List Nat := (s.nmtHeld.filter fun e => e.1 = b).map Prod.snd

/-- The held trap of bank `b` that is taken next: one FAULT_NMT names and that is not in progress yet, else the lowest source. -/
def State.nmtNext (s : State) (b : Nat) : Option Nat :=
  if s.on F.FAULT_NMT_VALID b && (s.bank b).nmt.isNone then some (s.rd F.FAULT_NMT_SOURCE b)
  else (s.nmtOf b).min?

/-- A trap can be taken now by bank `b`, at a `wfe` (`atWfe`) or at another instruction boundary: a return-stack entry free, not replaying, and the trap
not one that waits for a `wfe` (R64). A `wfe` takes a trap also inside NMT_ENTRY, whose trap is suspended meanwhile (R440, log entry 22). -/
def State.nmtReady (s : State) (b : Nat) (atWfe : Bool) : Bool :=
  let k := s.bank b
  decide (k.rstack.length < 32) && k.replay.isNone &&
    (match s.nmtNext b with | some src => atWfe || !k.nmtToWfe.contains src | none => false)

/-- Trap `src` is in progress for bank `b`. -/
def State.nmtName (s : State) (b src : Nat) : State :=
  ({ s with nmtHeld := s.nmtHeld.erase (b, src) }.put F.FAULT_NMT_VALID b true).wr F.FAULT_NMT_SOURCE b src

/-- The trap in progress of a bank, if any, and those it suspends, when another is taken. -/
def State.nmtSuspended (s : State) (b : Nat) : List (Nat × Nat) :=
  let k := s.bank b
  match k.nmt with
  | some d => (s.rd F.FAULT_NMT_SOURCE b, d) :: k.nmtOuter
  | none => k.nmtOuter

/-- Bank `b` enters NMT_ENTRY: the return address is pushed and execution continues there; the traps still held wait for the next `wfe` (R64). -/
def State.nmtEnter (s : State) (b : Nat) : State :=
  match s.nmtNext b with
  | none => s
  | some src =>
    let e := s.entryRead b 2
    s.unlessReset e.1 fun s0 =>
      let s1 := s0.nmtName b src
      let k := s1.bank b
      s1.setBank b { k with nmt := some k.rstack.length, nmtOuter := s0.nmtSuspended b, rstack := k.pc :: k.rstack, pc := e.2, stall := .none,
                            ctx := if k.ctx = .sleeping then .running else k.ctx, nmtToWfe := s1.nmtOf b }

/-- The last trap in progress of bank `b` ends; FAULT_NMT names the next queued trap, if any (R64). -/
def State.nmtEnd (s : State) (b : Nat) : State :=
  let k := s.bank b
  let s1 := (s.setBank b { k with nmt := none }).put F.FAULT_NMT_VALID b false
  match s1.nmtNext b with
  | some src => s1.nmtName b src
  | none => s1.wr F.FAULT_NMT_SOURCE b 0

/-- The trap in progress of bank `b` ends at its `ret`: the one it suspended goes on. -/
def State.nmtReturn (s : State) (b : Nat) : State :=
  let k := s.bank b
  match k.nmtOuter with
  | (src, d) :: rest => (s.setBank b { k with nmt := some d, nmtOuter := rest }).wr F.FAULT_NMT_SOURCE b src
  | [] => s.nmtEnd b

/-- A fault in NMT_ENTRY ends every trap in progress there (R64). -/
def State.nmtFault (s : State) (b : Nat) : State := (s.setBank b { s.bank b with nmtOuter := [] }).nmtEnd b

/-! ### Faults (R62, R63) -/

/-- The record of a fault in the register block of its bank (R62, R94). -/
def State.faultRecord (s : State) (b code : Nat) : State :=
  (((s.put F.STK_FAULT_VALID b true).bump F.STK_FAULT_COUNT b 1).wr F.STK_FAULT_CODE b code).wr F.STK_FAULT_PC_PC b (s.bank b).pc
    |>.perfBank 3 b 1

/-- A fault inside the fault entry halts the context and fails the engine; a hosted context alone halts and passes to its next candidate (R63). -/
def State.doubleFault (s : State) (b : Nat) : State :=
  let k := s.bank b
  let e := s.engineOf b
  let s1 := s.setBank b { k with haltedOn := k.haltedOn ++ [e] }
  if k.host.isSome then s1.callAdoption b else s1.engineFail e 2

/-- The fault word: the code of Table 2-7 in [7:0], the PC in [25:8], the trap code in [39:32] (R62). -/
def faultWord (code pc trap : Nat) : W64 := BitVec.ofNat 64 (code + pc * 2 ^ 8 + trap * 2 ^ 32)

/-- A fault of bank `b` with a code of Table 2-7 and a trap code: the instruction has no effect and FAULT_ENTRY follows (R62). A replay goes
on through it (R91), and the traps held wait for the next `wfe` (R64). -/
def State.faultTo (s : State) (b code trap : Nat) : State :=
  if !(s.bank b).canIssue then s
  else
    let s1 := s.faultRecord b code
    if (s1.bank b).ctx = .inFaultEntry then s1.doubleFault b
    else
      let s2 := if (s1.bank b).nmt.isSome then s1.nmtFault b else s1
      let e := s2.entryRead b 1
      s2.unlessReset e.1 fun s3 =>
        let k := s3.bank b
        s3.setBank b { k.setReg 15 (faultWord code k.pc trap) with
          ctx := .inFaultEntry, pc := e.2, retired := 0, stall := .none, nmtToWfe := s3.nmtOf b }

/-! ### Issue (R56, R57, R62) -/

/-- An instruction of bank `b` retires and the PC becomes `pc`. -/
def State.retire (s : State) (b pc : Nat) : State :=
  let s1 := s.perfBank 0 b 1
  let k := s1.bank b
  s1.setBank b { k with pc := pc, retired := k.retired + 1, stall := .none }

/-- The instruction retires and the next word follows; after the last word of table memory the 18-bit program counter wraps to 0 (log entry 23). -/
def State.retireNext (s : State) (b : Nat) : State := s.retire b (((s.bank b).pc + 1) % 2 ^ 18)

/-- The RUNAWAY threshold of bank `b` (STK_CTL.RUN_LIMIT). -/
def State.runLimit (s : State) (b : Nat) : Nat := 2 ^ (10 + s.rd F.STK_CTL_RUN_LIMIT b)

/-- What meets an instruction before it executes. -/
inductive Gate where
  | idle                -- the context does not issue, or waits in another instruction: no effect
  | fault (code : Nat)
  | skip                -- the condition is false: retires with no effect (R57)
  | go
  deriving DecidableEq, Repr

/-- The fetch of the word of table memory at `pc` (R52, R418). -/
def State.fetch (s : State) (pc : Nat) : State × ReadRes := s.memRead 0 pc (s.ld .table pc)

/-- The table-memory word at the PC cannot be fetched: uncorrectable, poisoned or withheld (R62 FETCH_UE, R448). -/
def State.fetchBad (s : State) (pc : Nat) : Bool := (s.fetch pc).2 = .bad

/-- A hosted context of the same engine that replays has issue priority over bank `b` (R47). -/
def State.yields (s : State) (b : Nat) : Bool :=
  let first (c : Nat) : Bool := (s.bank c).host.isSome && (s.bank c).replay.isSome && (s.bank c).canIssue && (s.bank c).stall = .none
  !first b && (List.range 8).any fun c => s.engineOf c = s.engineOf b && first c

/-- The gate of an instruction that may resume from the waits `waits` accepts. Of several faults FETCH_UE goes first, ILLEGAL next, RUNAWAY last (log entry
22); an instruction whose condition is false raises none of them but FETCH_UE, where it has no condition that could be read, and ILLEGAL (R57). -/
def State.gate (s : State) (b : Nat) (w : IW) (legal : Bool) (waits : Stall → Bool) : Gate :=
  let k := s.bank b
  if !k.canIssue || s.yields b then .idle
  else if k.stall ≠ .none then (if waits k.stall then .go else .idle)
  else if s.fetchBad k.pc then .fault 7
  else if !(legal && w.condDefined) then .fault 1
  else if !k.condHolds w then .skip
  else if s.runLimit b ≤ k.retired then .fault 9
  else .go

/-- Replay ends at the first instruction with no log entry (R91). -/
def State.replayEnd (s : State) (b : Nat) : State :=
  let k := s.bank b
  if k.replay = some [] then s.setBank b { k with replay := none } else s

/-- The state after the fetch of an instruction; one that goes on after a wait is not fetched again. -/
def State.fetched (s : State) (b : Nat) : State := if (s.bank b).stall = .none then (s.fetch (s.bank b).pc).1 else s

/-- An instruction of bank `b`: the gate, its fetch, then its effect. -/
def State.issue (s : State) (b : Nat) (w : IW) (legal : Bool) (waits : Stall → Bool) (body : State → State) : State :=
  let s0 := s.replayEnd b
  match s0.gate b w legal waits with
  | .idle => s0
  | .fault c => s0.unlessReset (s0.fetched b) fun t => t.faultTo b c 0
  | .skip => s0.unlessReset (s0.fetched b) fun t => t.retireNext b
  | .go => s0.unlessReset (s0.fetched b) body

/-- No wait. -/
def noWait (_ : Stall) : Bool := false

/-- The effect of a logged result (R91): registers and flags as logged, nothing else. -/
def Bank.applyLog (k : Bank) (d : Fin 16) (e : LogEntry) : Bank :=
  match e with
  | .result dv tag st z =>
    let k1 := match dv with | some v => k.setReg d (BitVec.ofNat 64 v) | none => k
    let k2 := match tag with | some t => { k1 with tag := t } | none => k1
    let k3 := match st with | some x => k2.flagsStatus x | none => k2
    match z with | some x => { k3 with fz := x } | none => k3
  | .getIssued t => { k with tag := t, stall := .getWait (t % 256) }

/-- A logged instruction: in replay it is suppressed and returns its logged result; live, a full log is checkpointed first (R90, R91). -/
def State.logged (s : State) (b : Nat) (w : IW) (body : State → State) : State :=
  match (s.bank b).replay with
  | some (.getIssued t :: rest) =>
    let k := s.bank b
    (s.setBank b { k.applyLog w.d (.getIssued t) with replay := if rest = [] then none else some rest }).perfBank 6 b 1
  | some (e :: rest) =>
    let k := s.bank b
    ((s.setBank b { k.applyLog w.d e with replay := some rest }).perfBank 6 b 1).retireNext b
  | _ => body (s.logRoom b)

/-! ### Tags (R69, R74, R75) -/

/-- The tag R69 allocates next: the first free one after the last allocated. -/
def Bank.freeTag (k : Bank) : Option Nat :=
  ((List.range 256).map fun i => (k.lastTag + 1 + i) % 256).find? fun t => !(k.cmds.any fun c => c.tag = t)

/-- Tag `tag` is outstanding (R69, R75). -/
def Bank.outstanding (k : Bank) (tag : Nat) : Option Cmd := k.cmds.find? fun c => c.tag = tag && !c.quarantined

/-- The completion of tag `tag` is taken: the tag is freed, or quarantined after a TIMEOUT (R74). -/
def State.takeTag (s : State) (b tag : Nat) : State :=
  let k := s.bank b
  match k.outstanding tag with
  | none => s
  | some c =>
    let quar := c.timedOut && decide (c.phase ≠ .gone)
    let s1 := if quar then s.perfBank 9 b 1 else s
    let k1 := s1.bank b
    let l := if quar then Cmd.update (fun d => { d with quarantined := true, answer := none }) tag k1.cmds else k1.cmds.filter fun d => d.tag ≠ tag
    let k2 := { k1 with cmds := l }
    s1.setBank b { k2 with completion := k2.completion && k2.hasDone }

/-- The status code and value of a completion. -/
def Cmd.result (c : Cmd) : Nat × Nat :=
  match c.answer with
  | some (st, v, _) => (st.code, v)
  | none => (0, 0)

/-! ### Events (R66) -/

/-- The event word of Table 2-9. -/
def eventWord (cls sender detail : Nat) : Nat := cls * 2 ^ 56 + sender % 8 * 2 ^ 32 + detail % 2 ^ 32

/-- The highest-priority pending event: its word, the context without it, and the performance event it counts as, if any (R66). Within a class the oldest
goes first, of fired timers the lowest number (log entry 25). -/
def Bank.takeEvent (k : Bank) : Option (Nat × Bank × Option Nat) :=
  match if k.host.isNone then k.adoptions else [] with
  | a :: as => some (eventWord 7 0 a, { k with adoptions := as }, none)
  | [] =>
    match k.irqs with
    | i :: is => some (eventWord 1 0 i, { k with irqs := is }, some 8)
    | [] =>
      match (List.range 4).find? fun t => (k.timer t).fired with
      | some t => some (eventWord 3 0 t, k.setTimer t { k.timer t with fired := false }, some 7)
      | none =>
        if k.completion && k.hasDone then some (eventWord 4 0 0, { k with completion := false }, none)
        else match k.signals with
          | (sd, p) :: ss => some (eventWord 6 sd p, { k with signals := ss }, none)
          | [] => if k.mailbox && !k.requests.isEmpty then some (eventWord 2 0 0, { k with mailbox := false }, none) else none

/-- A `wfe` retires: the count of R62 restarts. -/
def State.wfeRetire (s : State) (b : Nat) : State :=
  let s1 := s.retireNext b
  s1.setBank b { s1.bank b with retired := 0 }

/-- `wfe` of bank `b` returns its event to register `d`: logged as it returns (R66, R90). -/
def State.wfeReturn (s : State) (b : Nat) (d : Fin 16) : State :=
  match (s.bank b).takeEvent with
  | none => s
  | some (word, k1, pe) =>
    let s0 := s.setBank b { k1 with ctx := .running }
    let s1 := match pe with | some x => s0.perfBank x b 1 | none => s0
    let s2 := s1.logAdd b (.result (some word) none none none)
    let k := s2.bank b
    (s2.setBank b (k.setReg d (BitVec.ofNat 64 word))).wfeRetire b

end Sys2Proof.Machine
end

