-- ==== Sys2Proof/Machine/Irq.lean ====
section
/-!
DEFINITION. The interrupt controller (chapter 12): the levels units drive, targets, delivery, completion, the mask and pending words.
-/

namespace Sys2Proof.Machine

/-! ### Targets (R404, R405) -/

/-- The target in force of source `n`: 0 to 7 a bank, 8 the host, 15 none. -/
def State.irqTarget (s : State) (n : Nat) : Nat :=
  if n < 256 then n / 32
  else
    let t := if s.service then s.rd F.IRQ_SRC_SVC_TARGET n else s.rd F.IRQ_SRC_MNT_TARGET n
    if t ≤ 8 then t else 15

/-- The sources that are active at the host, ascending. -/
def State.hostActive (s : State) : List Nat :=
  s.regs.filterMap fun e => if e.1.reg = .IRQ_SRC && e.1.lo = 31 && s.ld .irqParty e.1.inst = 8 then some e.1.inst else none

/-- INT_N is driven low while a source is active at the host (R412). -/
def State.intN (s : State) : Bool := s.hostActive.isEmpty

/-! ### Delivery (R407, R408, R413, R414) -/

/-- Target `t` can take a delivery now. -/
def State.targetReady (s : State) (t : Nat) : Bool :=
  if t < 8 then (s.bank t).live else if t = 8 then decide (s.hostActive.length < 16) else false

/-- The sources that are pending, ascending: PENDING rests at 0, so exactly these have an entry. -/
def State.pendingSources (s : State) : List Nat :=
  s.regs.filterMap fun e => if e.1.reg = .IRQ_SRC && e.1.lo = 30 then some e.1.inst else none

/-- The lowest-numbered deliverable source of target `t`. -/
def State.deliverable (s : State) (t : Nat) : Option Nat :=
  s.pendingSources.find? fun n => !s.on F.IRQ_SRC_MASK n && !s.on F.IRQ_SRC_ACTIVE n && decide (s.irqTarget n = t)

/-- The 4-byte payload of an INT packet (R413). -/
def State.intPayload (s : State) (n : Nat) : List Nat :=
  bytesBe 4 ((n + s.rd F.IRQ_SRC_LEVEL n * 2 ^ 15) * 2 ^ 16 + s.rd F.IRQ_SRC_COUNT n * 2 ^ 8)

/-- Source `n` becomes ACTIVE at party `t`: COUNT falls by 1 for a counted source; the latched PENDING of a level source is used up (R408). -/
def State.irqActivate (s : State) (n t : Nat) : State :=
  let s1 := (s.put F.IRQ_SRC_ACTIVE n true).st .irqParty n t
  if s.on F.IRQ_SRC_LEVEL n then s1.put F.IRQ_SRC_PENDING n false
  else
    let k := s.rd F.IRQ_SRC_COUNT n - 1
    (s1.wr F.IRQ_SRC_COUNT n k).put F.IRQ_SRC_PENDING n (decide (0 < k))

/-- Source `n` is delivered to target `t`. -/
def State.irqDeliver (s : State) (n t : Nat) : State :=
  let s1 := s.irqActivate n t
  if t < 8 then
    let k := s1.bank t
    s1.setBank t { k with irqs := k.irqs ++ [n] }
  else if s1.linkActive then s1.send tyInt 0 0 0 (s1.intPayload n)
  else s1

/-- One control cycle of target `t`. -/
def State.irqCycle (s : State) (t : Nat) : State :=
  if s.targetReady t then
    match s.deliverable t with
    | some n => s.irqDeliver n t
    | none => s
  else s

/-! ### Completion (R410, R411) -/

/-- A level source is sampled again (R403). -/
def State.resample (s : State) (n : Nat) : State :=
  if s.on F.IRQ_SRC_LEVEL n && s.unitLevel n && !s.on F.IRQ_SRC_ACTIVE n then s.put F.IRQ_SRC_PENDING n true else s

/-- COUNT of a counted source falls by at most `k`. -/
def State.irqLower (s : State) (n k : Nat) : State :=
  let c := s.rd F.IRQ_SRC_COUNT n - k
  (s.wr F.IRQ_SRC_COUNT n c).put F.IRQ_SRC_PENDING n (decide (0 < c))

/-- An accepted completion of source `n` with N. -/
def State.irqDone (s : State) (n k : Nat) : State :=
  if s.on F.IRQ_SRC_ACTIVE n then
    let s1 := s.put F.IRQ_SRC_ACTIVE n false
    if s.on F.IRQ_SRC_LEVEL n then s1.resample n else s1.irqLower n (k - 1)
  else if s.on F.IRQ_SRC_PENDING n then
    if s.on F.IRQ_SRC_LEVEL n then (s.put F.IRQ_SRC_PENDING n false).resample n else s.irqLower n k
  else s.bump F.IRQ_STATUS_SPURIOUS 0 1

/-- The party a sender of completions is: a bank, or any host session (R411). -/
def Agent.party : Agent → Nat
  | .table b => b
  | _ => 8

/-- A write of IRQ_COMPLETE (R410, R411). -/
def State.irqComplete (s : State) (ag : Agent) (v : Nat) : State × Status :=
  let n := F.IRQ_COMPLETE_SOURCE.of v
  let k := max 1 (F.IRQ_COMPLETE_N.of v)
  let holder := if s.on F.IRQ_SRC_ACTIVE n then s.ld .irqParty n else s.irqTarget n
  if ag.party = holder then (s.irqDone n k, .ok) else (s, .notOwner)

/-- A write of IRQ_SW_SET (R409). -/
def State.irqSwSet (s : State) (v : Nat) : State × Status :=
  let n := F.IRQ_SW_SET_SOURCE.of v
  if n < 256 && decide (n % 32 < 16) then (s.irq n, .ok) else (s, .refusedState)

/-! ### Mask and pending words, source registers (R401, R409, R415 to R417) -/

/-- The sender may write the bits of source `n`: a table only while the source targets its bank, a host in Service mode only while it targets the
host (R416, R417). -/
def State.mayWriteBit (s : State) (ag : Agent) (n : Nat) : Bool :=
  !irqReserved n &&
    match ag with
    | .table b => decide (s.irqTarget n = b.val)
    | .host _ => !s.service || decide (s.irqTarget n = 8)
    | .boot => true

/-- One bit of a mask word. -/
def State.maskBit (s : State) (n : Nat) (b : Bool) : State := s.put F.IRQ_SRC_MASK n b

/-- One bit of a pending word: 0 clears PENDING and COUNT, 1 sets one event where none is pending (R409, R415). -/
def State.pendingBit (s : State) (n : Nat) (b : Bool) : State :=
  if b then
    if s.on F.IRQ_SRC_PENDING n then s
    else if s.on F.IRQ_SRC_LEVEL n then s.put F.IRQ_SRC_PENDING n true
    else (s.wr F.IRQ_SRC_COUNT n 1).put F.IRQ_SRC_PENDING n true
  else ((s.wr F.IRQ_SRC_COUNT n 0).put F.IRQ_SRC_PENDING n false).resample n

/-- A write of word `w` applied bit by bit to the sources the sender may write. -/
def State.irqBits (s : State) (ag : Agent) (w v : Nat) (bit : State → Nat → Bool → State) : State :=
  (List.range 32).foldl (fun t i => if s.mayWriteBit ag (32 * w + i) then bit t (32 * w + i) (v.testBit i) else t) s

/-- The bits of word `w` of a one-bit field of IRQ_SRC. -/
def State.irqWord (s : State) (f : Fld) (w : Nat) : Nat :=
  (List.range 32).foldl (fun a i => a + (if s.on f (32 * w + i) then 2 ^ i else 0)) 0

/-- The value changes a target field of a shared source, or LEVEL (R416). -/
def State.srcNeedsOfficer (s : State) (n v : Nat) : Bool :=
  decide (F.IRQ_SRC_LEVEL.of v ≠ s.rd F.IRQ_SRC_LEVEL n) ||
    (decide (256 ≤ n) && (decide (F.IRQ_SRC_MNT_TARGET.of v ≠ s.rd F.IRQ_SRC_MNT_TARGET n) ||
      decide (F.IRQ_SRC_SVC_TARGET.of v ≠ s.rd F.IRQ_SRC_SVC_TARGET n)))

/-- In Service mode a host session may write IRQ_SRC only of a host-targeted source, and only MASK (R417). -/
def State.srcHostMode (s : State) (n v : Nat) : Bool := decide (s.irqTarget n = 8) && !s.srcNeedsOfficer n v

/-- A write of IRQ_SRC_n past the checks of privilege and mode (R400, R401, R404, R416). -/
def State.irqSrcWrite (s : State) (ag : Agent) (n v : Nat) : State × Status :=
  if irqReserved n then (s, .ok)
  else if (match ag with | .table b => decide (s.irqTarget n ≠ b.val) | _ => false) then (s, .notOwner)
  else
    let lv := F.IRQ_SRC_LEVEL.of v
    if lv ≠ s.rd F.IRQ_SRC_LEVEL n ∧ (s.on F.IRQ_SRC_PENDING n ∨ s.on F.IRQ_SRC_ACTIVE n) then (s, .refusedState)
    else
      let s1 := (s.wr F.IRQ_SRC_MASK n (F.IRQ_SRC_MASK.of v)).wr F.IRQ_SRC_LEVEL n lv
      let s2 := if n < 256 then s1
        else (s1.wr F.IRQ_SRC_MNT_TARGET n (F.IRQ_SRC_MNT_TARGET.of v)).wr F.IRQ_SRC_SVC_TARGET n (F.IRQ_SRC_SVC_TARGET.of v)
      (s2.resample n, .ok)

/-- Writes of the controller's registers. -/
def State.irqWrite (s : State) (ag : Agent) (r : Reg) (i v : Nat) : Option (State × Status) :=
  match r with
  | .IRQ_COMPLETE => some (s.irqComplete ag v)
  | .IRQ_SW_SET => some (s.irqSwSet v)
  | .IRQ_MASK => some (s.irqBits ag i v State.maskBit, .ok)
  | .IRQ_PENDING => some (s.irqBits ag i v State.pendingBit, .ok)
  | .IRQ_SRC => some (s.irqSrcWrite ag i v)
  | _ => none

/-- Reads of the controller's registers that are views of its sources. -/
def State.irqRead (s : State) (r : Reg) (i : Nat) : Option Nat :=
  match r with
  | .IRQ_MASK => some (s.irqWord F.IRQ_SRC_MASK i)
  | .IRQ_PENDING => some (s.irqWord F.IRQ_SRC_PENDING i)
  | .IRQ_ACTIVE => some (s.irqWord F.IRQ_SRC_ACTIVE i)
  | .IRQ_HOST_ID => some (match s.hostActive with | [] => 0 | n :: _ => 2 ^ 31 + n)
  | .IRQ_STATUS => some (s.word .IRQ_STATUS 0 + s.hostActive.length * 2 ^ 8)
  | .IRQ_SRC => some (s.word .IRQ_SRC i + s.irqTarget i)
  | _ => none

/-! ### Events of the controller -/

/-- An event of source `src` reaches the controller (R401 to R403). The level of a unit is sampled: its rising edges were taken as the unit's registers
changed, so a level that stays high latches PENDING only where the source is a level source. -/
def execIrqSourceEvent (src : Fin 512) (s : State) : Host.Outcome State Fault Refusal :=
  .next (if src.val = 475 ∨ src.val = 487 ∨ (levelRegs src).isSome then s.resample src else s.irq src)

/-- One control cycle of the controller: for each target the lowest deliverable source is committed (R408). -/
def execIrqCommit (s : State) : Host.Outcome State Fault Refusal := .next ((List.range 9).foldl State.irqCycle s)

end Sys2Proof.Machine
end

