-- ==== Sys2Proof/Machine/Torvulo.lean ====
section
/-!
DEFINITION. The Torvulo instructions (R49 to R61, Tables 2-1 to 2-6): what each instruction a context executes does. Command, completion, event and
mailbox instructions stand in Torvulo2.lean.
-/

namespace Sys2Proof.Machine

/-- A three-operand ALU instruction: `f` gives the new bank from the two operands (Table 2-6). -/
def State.alu (s : State) (b : Nat) (w : IW) (hasD : Bool) (f : Bank → W64 → W64 → Bank) : State :=
  s.issue b w (w.legalAlu hasD) noWait fun t =>
    let k := t.bank b
    (t.setBank b (f k (k.reg w.a) (k.opB w))).retireNext b

def execAddOp (b : Fin 8) (w : IW) (s : State) : Host.Outcome State Fault Refusal :=
  .next (s.alu b w true fun k x y => (k.flagsAdd x y).setReg w.d (x + y))

def execSubOp (b : Fin 8) (w : IW) (s : State) : Host.Outcome State Fault Refusal :=
  .next (s.alu b w true fun k x y => (k.flagsSub x y).setReg w.d (x - y))

def execAndOp (b : Fin 8) (w : IW) (s : State) : Host.Outcome State Fault Refusal :=
  .next (s.alu b w true fun k x y => (k.flagsLogic (x &&& y)).setReg w.d (x &&& y))

def execOrOp (b : Fin 8) (w : IW) (s : State) : Host.Outcome State Fault Refusal :=
  .next (s.alu b w true fun k x y => (k.flagsLogic (x ||| y)).setReg w.d (x ||| y))

def execXorOp (b : Fin 8) (w : IW) (s : State) : Host.Outcome State Fault Refusal :=
  .next (s.alu b w true fun k x y => (k.flagsLogic (x ^^^ y)).setReg w.d (x ^^^ y))

/-- The shift amount b[5:0]. -/
def shiftAmount (y : W64) : Nat := y.toNat % 64

def execShl (b : Fin 8) (w : IW) (s : State) : Host.Outcome State Fault Refusal :=
  .next (s.alu b w true fun k x y =>
    let n := shiftAmount y
    (k.flagsShift (x <<< n) n (x.getLsbD (64 - n))).setReg w.d (x <<< n))

def execShr (b : Fin 8) (w : IW) (s : State) : Host.Outcome State Fault Refusal :=
  .next (s.alu b w true fun k x y =>
    let n := shiftAmount y
    (k.flagsShift (x >>> n) n (x.getLsbD (n - 1))).setReg w.d (x >>> n))

def execSar (b : Fin 8) (w : IW) (s : State) : Host.Outcome State Fault Refusal :=
  .next (s.alu b w true fun k x y =>
    let n := shiftAmount y
    (k.flagsShift (x.sshiftRight n) n (x.getLsbD (n - 1))).setReg w.d (x.sshiftRight n))

def execMul (b : Fin 8) (w : IW) (s : State) : Host.Outcome State Fault Refusal :=
  .next (s.alu b w true fun k x y => (k.flagsLogic (x * y)).setReg w.d (x * y))

def execCmp (b : Fin 8) (w : IW) (s : State) : Host.Outcome State Fault Refusal :=
  .next (s.alu b w false fun k x y => k.flagsSub x y)

def execTst (b : Fin 8) (w : IW) (s : State) : Host.Outcome State Fault Refusal :=
  .next (s.alu b w false fun k x y => k.flagsLogic (x &&& y))

/-- An instruction that only writes register d. -/
def State.moveTo (s : State) (b : Nat) (w : IW) (legal : Bool) (v : State → Bank → W64) : State :=
  s.issue b w legal noWait fun t =>
    let k := t.bank b
    (t.setBank b (k.setReg w.d (v t k))).retireNext b

def execLi (b : Fin 8) (w : IW) (s : State) : Host.Outcome State Fault Refusal :=
  .next (s.moveTo b w (w.only true false false true 0) fun _ _ => w.imm64)

def execLih (b : Fin 8) (w : IW) (s : State) : Host.Outcome State Fault Refusal :=
  .next (s.moveTo b w (w.only true false false true 0) fun _ k => w.imm ++ (k.reg w.d).setWidth 32)

def execMov (b : Fin 8) (w : IW) (s : State) : Host.Outcome State Fault Refusal :=
  .next (s.moveTo b w (w.only true true false false 0) fun _ k => k.reg w.a)

def execMfl (b : Fin 8) (w : IW) (s : State) : Host.Outcome State Fault Refusal :=
  .next (s.moveTo b w (w.only true false false false 0) fun _ k => BitVec.ofNat 64 k.flagsWord)

def execMtag (b : Fin 8) (w : IW) (s : State) : Host.Outcome State Fault Refusal :=
  .next (s.moveTo b w (w.only true false false false 0) fun _ k => BitVec.ofNat 64 k.tag)

/-! ### Memory instructions -/

/-- The place of the address a + IMM for bank `b`. -/
def State.placeOf (s : State) (b : Nat) (w : IW) : DataPlace := dataPlace b ((s.bank b).addr w).toNat

/-- The environment's upsets at a data word. -/
def State.dataUpsets (s : State) (p : DataPlace) (us : List Upset) : State :=
  match p.home with
  | some _ => s.upsets 1 p.regionWord us
  | none => s

def execLoad (b : Fin 8) (w : IW) (upsets : List Upset) (s : State) : Host.Outcome State Fault Refusal :=
  .next (s.issue b w (w.only true true false true 0) noWait fun t =>
    let p := t.placeOf b w
    match p.fault with
    | some c => t.faultTo b c 0
    | none =>
      let r := (t.dataUpsets p upsets).dataRead p
      t.unlessReset r.1 fun t1 => match r.2 with
        | .good v => (t1.setBank b ((t1.bank b).setReg w.d (BitVec.ofNat 64 v))).retireNext b
        | .bad => t1.faultTo b 8 0)

/-- A store or swap to bytes 0x000 to 0x6FF of a state area needs a Vendor table (R55). -/
def State.stateDenied (s : State) (b : Nat) (p : DataPlace) : Bool :=
  match p with
  | .shared i => stateProtected i && decide (s.bankPriv b < 3)
  | _ => false

def execStore (b : Fin 8) (w : IW) (s : State) : Host.Outcome State Fault Refusal :=
  .next (s.issue b w (w.only false true true true 0) noWait fun t =>
    let p := t.placeOf b w
    match p.fault with
    | some c => t.faultTo b c 0
    | none =>
      if t.stateDenied b p then t.faultTo b 2 0
      else (t.dataWrite p ((t.bank b).reg w.b).toNat).retireNext b)

/-- The atomic compare-and-swap of a shared word, live (Table 2-6, R53). -/
def State.casLive (t : State) (b : Nat) (w : IW) (p : DataPlace) : State :=
  let r := t.dataRead p
  t.unlessReset r.1 fun t1 => match r.2 with
  | .bad => t1.faultTo b 8 0
  | .good v =>
    let k := t1.bank b
    let old := BitVec.ofNat 64 v
    let swap := old = k.reg w.d
    let t2 := if swap then t1.dataWrite p (k.reg w.b).toNat else t1
    let t3 := t2.setBank b { (t2.bank b).setReg w.d old with fz := swap }
    (t3.logAdd b (.result (some v) none none (some swap))).retireNext b

/-- A word that cannot be read (R425). -/
def State.dataBad (s : State) (p : DataPlace) : Bool := (s.dataRead p).2 = .bad

/-- Bank `b` has a replay log to go through whose next entry an instruction takes (R91). -/
def Bank.replays (k : Bank) : Bool := match k.replay with | some (_ :: _) => true | _ => false

/-- `cas`: a replayed one returns its logged result and reads no word (R91). The faults of the others come before the replay log, which records no faulting
instruction; PRIVILEGE goes before DATA_UE (log entry 22). -/
def execCasOp (b : Fin 8) (w : IW) (upsets : List Upset) (s : State) : Host.Outcome State Fault Refusal :=
  .next (s.issue b w (w.only true true true true 0) noWait fun t =>
    let p := t.placeOf b w
    match p with
    | .bounds => t.faultTo b 3 0
    | .align => t.faultTo b 4 0
    | .priv _ => t.faultTo b 3 0
    | .shared _ =>
      if t.stateDenied b p then t.faultTo b 2 0
      else if (t.bank b).replays then t.logged b w id
      else
        let t1 := t.dataUpsets p upsets
        if t1.dataBad p then t1.unlessReset (t1.dataRead p).1 (fun u => u.faultTo b 8 0) else t1.logged b w fun u => u.casLive b w p)

/-! ### Control flow -/

/-- The branch target PC + IMM, none outside table memory (R58). -/
def branchTarget (pc : Nat) (imm : W32) : Option Nat :=
  let t := (pc : Int) + imm.toInt
  if 0 ≤ t ∧ t < 2 ^ 18 then some t.toNat else none

def execBranch (b : Fin 8) (w : IW) (s : State) : Host.Outcome State Fault Refusal :=
  .next (s.issue b w (w.only false false false true 0) noWait fun t =>
    match branchTarget (t.bank b).pc w.imm with
    | some a => t.retire b a
    | none => t.faultTo b 3 0)

/-- `bl`: of a full return stack and a target outside table memory, STACK_OVER is raised (the model's order, log entry 22). -/
def execBranchLink (b : Fin 8) (w : IW) (s : State) : Host.Outcome State Fault Refusal :=
  .next (s.issue b w (w.only false false false true 0) noWait fun t =>
    let k := t.bank b
    if 32 ≤ k.rstack.length then t.faultTo b 5 0
    else match branchTarget k.pc w.imm with
      | some a => (t.setBank b { k with rstack := (k.pc + 1) % 2 ^ 18 :: k.rstack }).retire b a
      | none => t.faultTo b 3 0)

/-- `br`: PC = a[17:0]. Table 2-6 lists BOUNDS for it, so an a that sets bits above [17:0], a target outside table memory, raises it
(R58, log entry 23). -/
def execBranchReg (b : Fin 8) (w : IW) (s : State) : Host.Outcome State Fault Refusal :=
  .next (s.issue b w (w.only false true false false 0) noWait fun t =>
    let a := ((t.bank b).reg w.a).toNat
    if a < 2 ^ 18 then t.retire b a else t.faultTo b 3 0)

def execRet (b : Fin 8) (w : IW) (s : State) : Host.Outcome State Fault Refusal :=
  .next (s.issue b w (w.only false false false false 0) noWait fun t =>
    let k := t.bank b
    match k.rstack with
    | [] => t.faultTo b 6 0
    | a :: rest =>
      let t1 := t.setBank b { k with rstack := rest }
      let t2 := if k.nmt = some rest.length then t1.nmtReturn b else t1
      t2.retire b a)

def execTrap (b : Fin 8) (w : IW) (s : State) : Host.Outcome State Fault Refusal :=
  .next (s.issue b w (w.only false false false true 0) noWait fun t => t.faultTo b 0xA (w.imm.toNat % 256))

def execHalt (b : Fin 8) (w : IW) (s : State) : Host.Outcome State Fault Refusal :=
  .next (s.issue b w (w.only false false false false 0) noWait fun t =>
    if t.bankPriv b < 3 then t.faultTo b 2 0
    else
      let t1 := t.retireNext b
      t1.setBank b { t1.bank b with ctx := .halted, host := none })

end Sys2Proof.Machine
end

