-- ==== Sys2Proof/Machine/Address.lean ====
section
/-!
DEFINITION. Addresses of the register space: which hold a register now, which pairs take a 64-bit access, and the Kiln region and managed block behind
a register (R61, R181, R488, R526, R555, Table 15-1, Table 17-3).
-/

namespace Sys2Proof.Machine

/-- Register instance (r, i) exists now: port blocks beyond the split and lanes beyond the port's do not (R181, Table 21-1). -/
def State.regExists (s : State) (r : Reg) (i : Nat) : Bool :=
  match r with
  | .BAY_CFG | .BAY_ROLE => true
  | .PORT_FEC_CW_LO | .PORT_FEC_CW_HI | .PORT_FEC_CORR | .PORT_FEC_UNCOR | .PORT_FEC_SYM | .PORT_FEC_INNER_C1 | .PORT_FEC_INNER_C2
  | .PORT_FEC_INNER_DUE => s.portExists (i / 8)
  | r => if r.info.unit = .bay then s.portExists i else true

/-- The register an address holds now. -/
def State.regAt (s : State) (a : Nat) : Option (Reg × Nat) :=
  match Reg.atAddr a with
  | some (r, i) => if s.regExists r i then some (r, i) else none
  | none => none

/-- BAD_ADDRESS at issue (R61, R555, R557): a write to an address that holds no register, a read outside every window, a 64-bit access that does not
name the LO half of a pair. -/
def State.badAddress (s : State) (a : Nat) (write wide : Bool) : Bool :=
  if wide then
    match s.regAt a with
    | some (r, _) => r.hi.isNone
    | none => true
  else if write then (s.regAt a).isNone
  else (Unit'.ofAddr a).isNone

/-- The Kiln region behind a register, beside region 134 which lies behind every access (Table 15-1, Table 19-6). The registers of Stoker engines,
of the hold store, of the memory protection, of the fault collector, of Kiln, of the Peat store and of the pins stay reachable with an
excluded region (log entry 11). -/
def regionOf (r : Reg) (i : Nat) : Option Nat :=
  let inf := r.info
  let o := i / inf.innerCount
  match inf.unit with
  | .lane => some o
  | .bay => some (48 + (if r = .BAY_CFG ∨ r = .BAY_ROLE then o else o / 8))
  | .tunnel => some 118
  | .key => some 119
  | .prot => some 120
  | .irq => some 133
  | .perf | .flue => some 135
  | .mcv => some 136
  | .power => some 137
  | _ => none

/-- The managed block behind a register (Table 17-3). -/
def blockOf (r : Reg) (i : Nat) : Option Nat :=
  let inf := r.info
  let o := i / inf.innerCount
  match inf.unit with
  | .stoker => if r = .STK_ENGINES then none else some o
  | .bay => some (13 + (if r = .BAY_CFG ∨ r = .BAY_ROLE then o else o / 8))
  | .tunnel => some 8
  | .key =>
    match r with
    | .CRY_PIPE_TX | .CRY_PIPE_RX | .CRY_PIPE_FAIL_TX | .CRY_PIPE_FAIL_RX => some 9
    | _ => some 10
  | .prot => some 11
  | .hold => some 12
  | .mcv =>
    match r with
    | .MCV_SIM_TRIG | .MCV_IN => none
    | .MCV_CAP_CTL | .MCV_CAP_STATUS | .MCV_CAP_TS_LO | .MCV_CAP_TS_HI | .MCV_CAP_ADDR | .MCV_CAP_DATA => some (19 + o)
    | _ => some (19 + o / 2)
  | .perf | .flue => some 23
  | .kiln => some 24
  | .peat => some 25
  | _ => none

/-- The Kiln region of the unit behind a register (Table 15-1): beside `regionOf`, the engine of a Stoker register and the hold store's controller. -/
def sliceRegionOf (r : Reg) (i : Nat) : Option Nat :=
  match r.info.unit with
  | .stoker => if r = .STK_ENGINES then none else some (123 + i / r.info.innerCount)
  | .hold => some 122
  | _ => regionOf r i

/-- The Kiln regions whose release an access waits for (R526): that of its unit, and those of the lanes that a request for a port's lanes reaches. -/
def State.regionsReached (s : State) (r : Reg) (i : Nat) : List Nat :=
  (sliceRegionOf r i).toList ++ (if r = .PORT_LANE_STATE then s.portLanes i else [])

/-- Region `n` runs an in-service slice now. -/
def State.underSlice (s : State) (n : Nat) : Bool := s.sliceRegion = some n

/-- The unit behind a register, or the register fabric before all of them, runs a slice (R453). -/
def State.regUnderSlice (s : State) (r : Reg) (i : Nat) : Bool :=
  s.underSlice 134 || (match sliceRegionOf r i with | some n => s.underSlice n | none => false)

/-- An address of a word of the Flue ring (R511, R557). -/
def isRingAddr (a : Nat) : Bool := decide (a % 4 = 0 ∧ Unit'.ofAddr a = some .flue)

/-- The unit behind an address runs a slice (R60, R453). -/
def State.addrUnderSlice (s : State) (a : Nat) : Bool :=
  match s.regAt a with
  | some (r, i) => s.regUnderSlice r i
  | none => s.underSlice 134 || (isRingAddr a && s.underSlice 135)

/-- Managed block `n` is not in Blaze, or on its way out of it or back. -/
def State.blockAsleep (s : State) (n : Nat) : Bool := decide (s.rd F.PWR_BLOCK_CUR n ≠ 0) || (Amap.find s.moves n).isSome

/-- Kiln region `n` has no result yet (R526). -/
def State.regionUntested (s : State) (n : Nat) : Bool := decide (s.rd F.KILN_REG_STATE n = 0)

/-- A command to this address waits in a way that does not count towards STK_CTL.CMD_TIMEOUT: for a forced drop (R139), for a block's wake (R490), for a
region's release (R526). -/
def State.waitUncounted (s : State) (a : Nat) : Bool :=
  s.regionUntested 134 ||
  match s.regAt a with
  | none => isRingAddr a && (s.regionUntested 135 || s.blockAsleep 23)
  | some (r, i) =>
    (s.regionsReached r i).any s.regionUntested || (match blockOf r i with | some n => s.blockAsleep n | none => false) ||
      match r with
      | .LANE_STATE => (s.lane i).forcedDrop
      | .PORT_LANE_STATE => (s.portLanes i).any fun n => (s.lane n).forcedDrop
      | _ => false

end Sys2Proof.Machine
end

