-- ==== Sys2Proof/Machine/Torvulo2.lean ====
section
/-!
DEFINITION. The Torvulo instructions that issue commands, take completions, wait for events, and use the mailbox (R59 to R77, R84 to R90), and the
events of a context that are not instructions.
-/

namespace Sys2Proof.Machine

/-- The commands of every bank that wait in the queue of unit `u`. -/
def State.queued (s : State) (u : Unit') : Nat :=
  ((List.range 8).map fun b => ((s.bank b).cmds.filter fun c => c.phase = .issued && decide (Unit'.ofAddr c.addr = some u)).length).sum

/-- The command queue of the unit at an address is full; how many commands it holds is not given, but one at least (R60, log entry 12). -/
def State.queueFull (s : State) (a : Nat) : Bool :=
  match Unit'.ofAddr a with
  | some u => decide (s.queued u ≠ 0) && decide (Config.queueExtra u.ctorIdx < s.queued u)
  | none => false

/-- The waits of `cmd` and `qry`: no tag is free, the queue of the target unit is full, or the target runs a Kiln slice (R60). -/
def State.issueWaits (s : State) (b a : Nat) : Bool := (s.bank b).freeTag.isNone || s.queueFull a || s.addrUnderSlice a

/-- A command of bank `b` gets tag `tag` and reaches its unit; one that BAD_ADDRESS meets completes at issue (R69, R72). -/
def State.issueTag (s : State) (b tag : Nat) (c : Cmd) : State :=
  let s1 := { s.perfBank 1 b 1 with cmdSerial := s.cmdSerial + 1 }
  let k := s1.bank b
  let s2 := s1.setBank b { k with cmds := k.cmds ++ [{ c with serial := s.cmdSerial }], lastTag := tag, tag := b * 256 + tag }
  if 2 ^ 32 ≤ c.addr || s2.badAddress c.addr c.write c.wide then s2.deliver b tag .badAddress 0 else s2

/-- A fresh command record; `issueTag` numbers it. -/
def mkCmd (tag a : Nat) (write wide : Bool) (v : Nat) : Cmd := ⟨tag, 0, a, write, wide, v, .issued, none, false, false, 0⟩

/-- `cmd` and `qry`: stall or issue; d = TAG (R51, R59, R60). -/
def State.command (s : State) (b : Nat) (w : IW) (write : Bool) : State :=
  s.issue b w (w.only true true write true 1) (fun x => x = (if write then Stall.cmd else Stall.qry)) fun t =>
    t.logged b w fun u =>
      let k := u.bank b
      let a := (k.addr w).toNat
      match k.freeTag, u.issueWaits b a with
      | some tag, false =>
        let v := if write then (k.reg w.b).toNat else 0
        let u1 := u.issueTag b tag (mkCmd tag a write w.immForm v)
        let k1 := u1.bank b
        let u2 := u1.setBank b (k1.setReg w.d (BitVec.ofNat 64 k1.tag))
        (u2.logAdd b (.result (some k1.tag) (some k1.tag) none none)).retireNext b
      | _, _ => u.setBank b { k with stall := if write then .cmd else .qry }

def execIssueCmd (b : Fin 8) (w : IW) (s : State) : Host.Outcome State Fault Refusal := .next (s.command b w true)

def execIssueQry (b : Fin 8) (w : IW) (s : State) : Host.Outcome State Fault Refusal := .next (s.command b w false)

/-- The result of `get`: d = value read, E and ST, the tag freed (Table 2-6). -/
def State.getDone (s : State) (b : Nat) (w : IW) (c : Cmd) : State :=
  let r := c.result
  let s1 := s.takeTag b c.tag
  let k := s1.bank b
  let log := k.log.filter fun e => e ≠ .getIssued (b * 256 + c.tag)
  let s2 := s1.setBank b { (k.setReg w.d (BitVec.ofNat 64 r.2)).flagsStatus r.1 with log := log }
  (s2.logAdd b (.result (some r.2) (some (b * 256 + c.tag)) (some r.1) none)).retireNext b

/-- A `get` whose read is on its way: it ends when the completion is there. -/
def State.getPoll (s : State) (b : Nat) (w : IW) (tag : Nat) : State :=
  match (s.bank b).outstanding tag with
  | some c => if c.answer.isSome then s.getDone b w c else s
  | none => s.retireNext b

/-- `get` issues its read. -/
def State.getIssue (s : State) (b : Nat) (w : IW) : State :=
  s.logged b w fun u =>
    let k := u.bank b
    let a := (k.addr w).toNat
    match k.freeTag, u.issueWaits b a with
    | some tag, false =>
      let u1 := (u.issueTag b tag (mkCmd tag a false w.immForm 0)).logAdd b (.getIssued (b * 256 + tag))
      let u2 := u1.setBank b { u1.bank b with stall := .getWait tag }
      u2.getPoll b w tag
    | _, _ => u.setBank b { k with stall := .getFree }

def execIssueGet (b : Fin 8) (w : IW) (s : State) : Host.Outcome State Fault Refusal :=
  .next (s.issue b w (w.only true true false true 1) (fun x => match x with | .getFree => true | .getWait _ => true | _ => false) fun t =>
    match (t.bank b).stall with
    | .getWait tag => t.getPoll b w tag
    | _ => t.getIssue b w)

/-- `wtag`: of its operand bits [7:0] name the tag and [10:8] the bank, as TAG holds them; the bits above are not looked at (log entry 23). -/
def execWtag (b : Fin 8) (w : IW) (s : State) : Host.Outcome State Fault Refusal :=
  .next (s.issue b w (w.only true true false false 0) (fun x => x = .wtag) fun t =>
    t.logged b w fun u =>
      let k := u.bank b
      let v := (k.reg w.a).toNat
      let tag := v % 256
      let fin (u1 : State) (st val : Nat) : State :=
        let k1 := u1.bank b
        ((u1.setBank b ((k1.setReg w.d (BitVec.ofNat 64 val)).flagsStatus st)).logAdd b (.result (some val) none (some st) none)).retireNext b
      match (if v / 256 % 8 = b.val then k.outstanding tag else none) with
      | none => fin u 0xF 0
      | some c =>
        if c.answer.isSome then fin (u.takeTag b tag) c.result.1 c.result.2
        else u.setBank b { k with stall := .wtag })

/-- The completed tag not yet taken whose completion arrived first. -/
def Bank.firstDone (k : Bank) : Option Cmd :=
  (k.cmds.filter fun c => c.answer.isSome && !c.quarantined).foldl (fun best c =>
    match best, c.answer with
    | none, _ => some c
    | some d, some (_, _, n) => (match d.answer with | some (_, _, m) => if n < m then some c else some d | none => some c)
    | some d, none => some d) none

def execCpop (b : Fin 8) (w : IW) (s : State) : Host.Outcome State Fault Refusal :=
  .next (s.issue b w (w.only true false false false 0) noWait fun t =>
    t.logged b w fun u =>
      match (u.bank b).firstDone with
      | none =>
        ((u.setBank b { u.bank b with fz := true }).logAdd b (.result none none none (some true))).retireNext b
      | some c =>
        let r := c.result
        let u1 := u.takeTag b c.tag
        let k := u1.bank b
        let tw := b.val * 256 + c.tag
        let u2 := u1.setBank b { (k.setReg w.d (BitVec.ofNat 64 r.2)).flagsStatus r.1 with fz := false, tag := tw }
        (u2.logAdd b (.result (some r.2) (some tw) (some r.1) (some false))).retireNext b)

/-- The first non-OK status of the tags a fence waited for, in issue order. -/
def Bank.fenceStatus (k : Bank) (tags : List Nat) : Nat :=
  match (k.cmds.filter fun c => tags.contains c.tag && !c.quarantined).find? fun c => c.result.1 ≠ 0 with
  | some c => c.result.1
  | none => 0

/-- A fence over `tags`: ends when every one has completed; frees them (R76). -/
def State.fenceOver (s : State) (b : Nat) (tags : List Nat) : State :=
  let k := s.bank b
  if k.cmds.any fun c => tags.contains c.tag && !c.quarantined && c.answer.isNone then s.setBank b { k with stall := .fence tags }
  else
    let st := k.fenceStatus tags
    let s1 := tags.foldl (fun t g => t.takeTag b g) s
    ((s1.setBank b ((s1.bank b).flagsStatus st)).logAdd b (.result none none (some st) none)).retireNext b

def execFence (b : Fin 8) (w : IW) (s : State) : Host.Outcome State Fault Refusal :=
  .next (s.issue b w (w.only false false false false 0) (fun x => match x with | .fence _ => true | _ => false) fun t =>
    match (t.bank b).stall with
    | .fence tags => t.fenceOver b tags
    | _ => t.logged b w fun u => u.fenceOver b (((u.bank b).cmds.filter fun c => !c.quarantined).map fun c => c.tag))

/-- A sleep refused because an event arose in the same cycle (R80). -/
def State.sleepRefused (s : State) (b : Nat) : State :=
  let e := s.engineOf b
  ((s.put F.STK_SLEEP_REFUSED e true).bump F.STK_SLEEP_REFUSALS e 1).perf 0x003 1

/-- `wfe` live: the traps that waited for a `wfe` wait no longer, at most for a free entry of the return stack; a held trap first, then the pending event, else
sleep with a checkpoint (R63, R64, R66, R80, R90). -/
def State.wfeLive (s : State) (b : Nat) (w : IW) (race : Bool) : State :=
  let k0 := s.bank b
  let s0 := s.setBank b { k0 with ctx := .running, retired := 0, nmtToWfe := [] }
  if s0.nmtReady b true then s0.nmtEnter b
  else
    let k := s0.bank b
    if k.hasEvent then ((if race then s0.sleepRefused b else s0).logRoom b).wfeReturn b w.d
    else
      let s1 := (s0.writeCheckpoint b k.pc).perfBank 4 b 1
      s1.setBank b { s1.bank b with ctx := .sleeping, sleepD := w.d.val }

def execWfe (b : Fin 8) (w : IW) (race : Bool) (s : State) : Host.Outcome State Fault Refusal :=
  .next (s.issue b w (w.only true false false false 0) noWait fun t =>
    match (t.bank b).replay with
    | some (_ :: _) =>
      let k := t.bank b
      let u := (t.setBank b { k with ctx := .running }).logged b w fun u => u
      u.setBank b { u.bank b with retired := 0 }
    | _ => t.wfeLive b w race)

/-- A timer is set (R68): any earlier setting and its event go; a time already passed makes the event pending at once. -/
def Bank.armTimer (k : Bank) (t now setting : Nat) : Bank :=
  if setting ≤ now then k.setTimer t ⟨none, true⟩ else k.setTimer t ⟨some setting, false⟩

/-- IMM above `n` bits must be 0 (Table 2-6). -/
def IW.immBelow (w : IW) (n : Nat) : Bool := decide (w.imm.toNat < n)

def execTset (b : Fin 8) (w : IW) (s : State) : Host.Outcome State Fault Refusal :=
  .next (s.issue b w (w.only false true false true 0 && w.immBelow 4) noWait fun t =>
    let k := t.bank b
    (t.setBank b (k.armTimer w.imm.toNat t.time (k.reg w.a).toNat)).retireNext b)

def execTclr (b : Fin 8) (w : IW) (s : State) : Host.Outcome State Fault Refusal :=
  .next (s.issue b w (w.only false false false true 0 && w.immBelow 4) noWait fun t =>
    (t.setBank b ((t.bank b).setTimer w.imm.toNat ⟨none, false⟩)).retireNext b)

def execReadTime (b : Fin 8) (w : IW) (s : State) : Host.Outcome State Fault Refusal :=
  .next (s.issue b w (w.only true false false false 0) noWait fun t =>
    t.logged b w fun u =>
      ((u.setBank b ((u.bank b).setReg w.d (BitVec.ofNat 64 u.time))).logAdd b (.result (some u.time) none none none)).retireNext b)

def execDeclareNext (b : Fin 8) (w : IW) (s : State) : Host.Outcome State Fault Refusal :=
  .next (s.issue b w (w.only false true false true 0 && w.immBelow 4) noWait fun t =>
    let k := t.bank b
    (t.setBank b { k with nextTime := some ((k.reg w.a).toNat, w.imm.toNat) }).retireNext b)

/-- `ckpt`: the checkpoint records the word after it, so that a restored context does not write it again (the model's choice, log entry 27). -/
def execCkpt (b : Fin 8) (w : IW) (s : State) : Host.Outcome State Fault Refusal :=
  .next (s.issue b w (w.only false false false false 0) noWait fun t =>
    (t.writeCheckpoint b (((t.bank b).pc + 1) % 2 ^ 18)).retireNext b)

/-! ### Mailbox instructions -/

/-- The eight places of the 64 bytes at an address. -/
def State.places64 (s : State) (b : Nat) (w : IW) : List DataPlace :=
  (List.range 8).map fun i => dataPlace b (((s.bank b).addr w).toNat + 8 * i)

/-- The first fault among places, in address order (the model's order, log entry 22). -/
def placesFault (ps : List DataPlace) : Option Nat := ps.findSome? DataPlace.fault

/-- The eight 64-bit words of a message of sixteen 32-bit words, most significant byte first (R7, R85). -/
def pack64 (m : List Nat) : List Nat := (List.range 8).map fun i => m.getD (2 * i) 0 * 2 ^ 32 + m.getD (2 * i + 1) 0

/-- The sixteen 32-bit words of eight 64-bit words. -/
def unpack64 (d : List Nat) : List Nat := d.flatMap fun x => [x / 2 ^ 32 % 2 ^ 32, x % 2 ^ 32]

/-- `mrecv` live: the oldest request, if any, goes to the eight places. -/
def State.mrecvLive (u : State) (b : Nat) (w : IW) (ps : List DataPlace) : State :=
  let k := u.bank b
  match k.requests with
  | [] => ((u.setBank b { k with fz := true, mailbox := false }).logAdd b (.result none none none (some true))).retireNext b
  | m :: rest =>
    let d := pack64 m
    let u1 := (ps.zip d).foldl (fun t e => t.dataWrite e.1 e.2) ((u.setBank b { k with requests := rest }).perfBank 5 b 1)
    let k1 := u1.bank b
    let u2 := u1.setBank b { k1.setReg w.d (BitVec.ofNat 64 (d.getD 0 0)) with fz := false, mailbox := k1.mailbox && !k1.requests.isEmpty }
    (u2.logAdd b (.result (some (d.getD 0 0)) none none (some false))).retireNext b

/-- `mrecv`: BOUNDS and ALIGN of its places, PRIVILEGE where a place lies in bytes 0x000 to 0x6FF of a state area (R55, Table 2-7, log entry 22). -/
def execMrecv (b : Fin 8) (w : IW) (s : State) : Host.Outcome State Fault Refusal :=
  .next (s.issue b w (w.only true true false true 0) noWait fun t =>
    let ps := t.places64 b w
    match placesFault ps with
    | some c => t.faultTo b c 0
    | none =>
      if ps.any (t.stateDenied b) then t.faultTo b 2 0
      else t.logged b w fun u => u.mrecvLive b w ps)

/-- The 64 bytes at an address as sixteen words; words that read bad read 0. -/
def State.gather64 (s : State) (ps : List DataPlace) : State × List Nat :=
  ps.foldl (fun acc p =>
    match acc.1.dataRead p with
    | (t, .good v) => (t, acc.2 ++ [v])
    | (t, .bad) => (t, acc.2 ++ [0])) (s, [])

/-- `msend` live: stalls while the queue is full, else queues the 64 bytes as a response (R88). -/
def State.msendLive (u : State) (b : Nat) (ps : List DataPlace) : State :=
  if 16 ≤ (u.bank b).responses.length then u.setBank b { u.bank b with stall := .msend }
  else
    let r := u.gather64 ps
    let m := unpack64 r.2
    u.unlessReset r.1 fun v => ((v.respond b (m.getD 1 0 / 2 ^ 24) m).logAdd b (.result none none none none)).retireNext b

def execMsend (b : Fin 8) (w : IW) (s : State) : Host.Outcome State Fault Refusal :=
  .next (s.issue b w (w.only false true false true 0) (fun x => x = .msend) fun t =>
    let ps := t.places64 b w
    match placesFault ps with
    | some c => t.faultTo b c 0
    | none => t.logged b w fun u => u.msendLive b ps)

/-- `sig`: the event goes to the context of bank IMM[2:0], the own context of that engine's number, wherever that bank runs and also while it does not
run (log entry 24). -/
def execSig (b : Fin 8) (w : IW) (s : State) : Host.Outcome State Fault Refusal :=
  .next (s.issue b w (w.only false false true true 0 && w.immBelow 8) noWait fun t =>
    t.logged b w fun u =>
      let p := ((u.bank b).reg w.b).toNat % 2 ^ 32
      let e := w.imm.toNat
      let ke := u.bank e
      let u1 := u.setBank e { ke with signals := ke.signals ++ [(b.val, p)] }
      (u1.logAdd b (.result none none none none)).retireNext b)

/-! ### Events of a context -/

/-- RUNAWAY (R62): the threshold is reached. The instruction that comes next is not faulted where it can be read and its condition is false (R57). -/
def execRunaway (b : Fin 8) (s : State) : Host.Outcome State Fault Refusal :=
  .next (
    let k := s.bank b
    let w := torvuloFields (s.ld .table k.pc)
    let skips := k.stall = .none && !s.fetchBad k.pc && w.condDefined && !k.condHolds w
    if s.runLimit b ≤ k.retired && !skips then s.faultTo b 9 0 else s)

/-- A unit returns the completion of a command it has applied (R72, R74). -/
def execCommandCompletion (b : Fin 8) (tag : Fin 256) (s : State) : Host.Outcome State Fault Refusal :=
  .next (match (s.bank b).cmds.find? fun c => c.tag = tag.val with
    | some c => (match c.phase with | .applied st v => s.deliver b tag st v | _ => s)
    | none => s)

/-- STK_CTL.CMD_TIMEOUT of bank `b` in units of device time. -/
def State.cmdTime (s : State) (b : Nat) : Nat := max 1 (s.rd F.STK_CTL_CMD_TIMEOUT b) * 2500

/-- The commands in flight wait for `d` units of device time, as far as their waits count towards CMD_TIMEOUT (R74, R139, R490, R526). -/
def State.cmdsWait (s : State) (d : Nat) : State :=
  { s with banks := s.banks.map fun e =>
      (e.1, { e.2 with cmds := e.2.cmds.map fun c =>
        if c.answer.isSome || c.timedOut || s.waitUncounted c.addr then c else { c with waited := c.waited + d } }) }

/-- STK_CTL.CMD_TIMEOUT has passed without a completion (R74): the tag completes TIMEOUT; it is quarantined once that is taken. Waits that do not count
towards the time hold it off. -/
def execCommandTimeout (b : Fin 8) (tag : Fin 256) (s : State) : Host.Outcome State Fault Refusal :=
  .next (match (s.bank b).cmds.find? fun c => c.tag = tag.val with
    | none => s
    | some c =>
      if c.answer.isSome || c.timedOut || s.waitUncounted c.addr || decide (c.waited < s.cmdTime b) then s
      else
        let s1 := (s.perfBank 2 b 1).irq (32 * b.val + 16)
        let k := s1.bank b
        s1.setBank b { k with
          cmds := Cmd.update (fun d => { d with timedOut := true, answer := some (.timeout, 0, k.arrivals) }) tag.val k.cmds
          arrivals := k.arrivals + 1
          completion := true })

/-- Device time reaches a timer's setting (R68). -/
def execTimerFire (b : Fin 8) (timer : Fin 4) (s : State) : Host.Outcome State Fault Refusal :=
  .next (match ((s.bank b).timer timer).setting with
    | some t => if t ≤ s.time then s.setBank b ((s.bank b).setTimer timer ⟨none, true⟩) else s
    | none => s)

/-- Bank `b` sleeps in a `wfe` that can go on now: a trap to take or an event to return (R64, R66). -/
def State.wakeReady (s : State) (b : Nat) : Bool :=
  let k := s.bank b
  k.ctx = .sleeping && !k.failed && !k.wantAdopt && (s.nmtReady b true || k.hasEvent)

/-- A context sleeping in `wfe` wakes for its pending event and returns it (R66); a held trap is taken first (R64). -/
def execWfeWake (b : Fin 8) (s : State) : Host.Outcome State Fault Refusal :=
  .next (
    if !s.wakeReady b then s
    else if s.nmtReady b true then s.nmtEnter b
    else s.wfeReturn b (Fin.ofNat 16 (s.bank b).sleepD))

/-- A held or new non-maskable trap preempts the bank's context (R64, R440). -/
def execNmtTaken (b : Fin 8) (s : State) : Host.Outcome State Fault Refusal :=
  .next (
    let k := s.bank b
    if k.live && k.ctx ≠ .inFaultEntry && k.stall = .none && s.nmtReady b (k.ctx = .sleeping) then s.nmtEnter b else s)

/-- The lockstep copies of engine `e` disagree (R45, R89). -/
def execLockstepMismatch (e : Fin 8) (s : State) : Host.Outcome State Fault Refusal := .next (s.engineFail e 1)

/-- A context of engine `e` that is not sleeping and waits in no stall of R60 or wait of R65 has retired nothing for 4 µs. -/
def State.watchdogMay (s : State) (e : Nat) : Bool :=
  (List.range 8).any fun b => s.engineOf b = e && (s.bank b).canIssue && (s.bank b).stall = .none

def execLivenessWatchdog (e : Fin 8) (s : State) : Host.Outcome State Fault Refusal :=
  .next (if s.watchdogMay e then s.engineFail e 3 else s)

/-- The traps in progress of a bank, whose record is `k`, are held again. -/
def State.nmtHoldAgain (s : State) (k : Bank) (b : Nat) : State :=
  if s.on F.FAULT_NMT_VALID b then
    { s with nmtHeld := ((b, s.rd F.FAULT_NMT_SOURCE b) :: k.nmtOuter.map fun e : Nat × Nat => (b, e.1)) ++ s.nmtHeld }.put F.FAULT_NMT_VALID b false
  else s

/-- A bank called for adoption starts as a hosted context on its adopter (R89 to R92): restored from its checkpoint and replaying, or live at ROOT_ENTRY; the
adopter's own context gets an adoption event; a trap in progress is held again. It starts RUNNING, also when its checkpoint was written in its fault entry, and
its count of R62 starts at 0: the checkpoint holds neither (Table 2-3, log entry 27). -/
def State.adoptOn (s : State) (b : Nat) (e : Fin 8) : State :=
  let live := (s.bank b).adoptLive
  let x := s.areaRun b 8 51
  s.unlessReset (if live then s.initialCheckpoint b else x.1.setBank b ((x.1.bank b).restored x.2)) fun s0 =>
  let s1 := s0.setBank b { s0.bank b with host := some e, wantAdopt := false, adoptLive := false, failed := false, ctx := .running, retired := 0 }
  let s2 := s1.nmtHoldAgain (s.bank b) b
  let ke := s2.bank e
  s2.setBank e { ke with adoptions := ke.adoptions ++ [b] }

def execAdoption (b : Fin 8) (s : State) : Host.Outcome State Fault Refusal :=
  .next (if (s.bank b).wantAdopt then
    match s.adopter b with
    | some e => s.adoptOn b (Fin.ofNat 8 e)
    | none => (s.bankLost b).errorLine 26 b 1
  else s)

/-- A response not popped within 10 ms is discarded and counted for its session (R88). -/
def execResponseExpiry (b : Fin 8) (k : Fin 16) (s : State) : Host.Outcome State Fault Refusal :=
  .next (match (s.bank b).responses[k.val]? with
    | none => s
    | some (sess, _) =>
      (s.setBank b { s.bank b with responses := (s.bank b).responses.eraseIdx k.val }).mbxDrop b sess)

end Sys2Proof.Machine
end

