-- ==== Sys2Proof/Machine/Check.lean ====
section
/-!
DEFINITION. The checks every register access passes before its unit sees it (R38, R43, R71, R81, R394, R449, R453, R490, R519, R526, R555, R559).
-/

namespace Sys2Proof.Machine

/-! ### Owners -/

/-- The unit object a register belongs to (R71); the value names the slot of a key command, and the input of an urgent request (R479). -/
def objectOf (r : Reg) (i v : Nat) : Option Obj :=
  let inf := r.info
  let o := i / inf.innerCount
  match inf.unit with
  | .lane => some (.lane o)
  | .bay => some (if r = .BAY_CFG ∨ r = .BAY_ROLE then .bay o else .port o)
  | .tunnel => some (.tunnel o)
  | .key =>
    match r with
    | .KEY_LOAD => some (.keySlot (F.KEY_LOAD_SLOT.of v))
    | .KEY_ZEROISE => some (if F.KEY_ZEROISE_ALL.of v = 1 then .keyUnit else .keySlot (F.KEY_ZEROISE_SLOT.of v))
    | .KEY_DESC => some (.keySlot o)
    | _ => some .keyUnit
  | .hold => some (if inf.count = 24 then .holdCh o else .holdUnit)
  | .prot => some (if inf.count = 24 then .tunnel o else .protUnit)
  | .mcv =>
    match r with
    | .MCV_IN => some (.monIn o)
    | .MCV_SIM_TRIG => none
    | .MCV_URGENT => if F.MCV_URGENT_INPUT.of v < 96 then some (.monIn (F.MCV_URGENT_INPUT.of v)) else none
    | .MCV_CAP_CTL | .MCV_CAP_STATUS | .MCV_CAP_TS_LO | .MCV_CAP_TS_HI | .MCV_CAP_ADDR | .MCV_CAP_DATA => some (.pair o)
    | _ => some (.conv o)
  | .perf =>
    match r with
    | .PERF_SEL | .PERF_CNT_LO | .PERF_CNT_HI => some (.counter o)
    | _ => none
  | .power =>
    match r with
    | .THERM_CFG | .THERM_DAMPER | .THERM_CTL | .THERM_STATUS | .THERM_EVENT | .THERM_EVENT_EN | .THERM_SENSOR => some .thermal
    | _ => none
  | .io => if r = .IO_SLEW_CTL then none else some (.lane (8 * o))
  | _ => none

/-- A table of another bank does not own the object (R71); host writes are not bound by ownership (R394). -/
def State.ownerBad (s : State) (ag : Agent) (r : Reg) (i v : Nat) : Bool :=
  match ag with
  | .table b => (match objectOf r i v with | some o => decide (s.owner o ≠ b.val) | none => false)
  | _ => false

/-! ### Privilege (R81 and the rules of the chapters) -/

/-- Where PEAT_ADDR points in the Peat store (Table 19-3). -/
inductive PeatPlace where
  | image (bank : Nat) | calibration | journal | digest | epoch | pointer | none
  deriving DecidableEq, Repr

/-- The place of a byte address of the Peat store. -/
def peatPlace (a : Nat) : PeatPlace :=
  if a < 0x0E00000 then .image 0
  else if a < 0x1C00000 then .image 1
  else if a < 0x1E00000 then .calibration
  else if a < 0x1FF0000 then .journal
  else if a < 0x1FF0030 then .digest
  else if 0x1FF0040 ≤ a ∧ a < 0x1FF0044 then .epoch
  else if (0x1FF0080 ≤ a ∧ a < 0x1FF0088) ∨ (0x1FF00A0 ≤ a ∧ a < 0x1FF00A8) ∨ (0x1FF00C0 ≤ a ∧ a < 0x1FF00C8) then .pointer
  else .none

/-- The byte address PEAT_ADDR holds. -/
def State.peatAddr (s : State) : Nat := s.rd F.PEAT_ADDR_ADDR 0 * 4

/-- The privilege a write needs. Only the value decides where a chapter says so: STK_CTL (R95), LANE_STATE and PORT_LANE_STATE (R149, R216), TUN_CFG
(R259), IRQ_SRC (R416), MEMP_INJECT_CTL (R430), HOLD_PPR_CMD (R293), PEAT_DATA (Table 19-3, R522). -/
def State.writeLevel (s : State) (ag : Agent) (r : Reg) (i v : Nat) : Nat :=
  match r with
  | .STK_CTL =>
    if F.STK_CTL_RUN_LIMIT.of v ≠ s.rd F.STK_CTL_RUN_LIMIT i ∨ F.STK_CTL_CMD_TIMEOUT.of v ≠ s.rd F.STK_CTL_CMD_TIMEOUT i ∨
      F.STK_CTL_ADOPTER.of v ≠ s.rd F.STK_CTL_ADOPTER i ∨ F.STK_CTL_ADOPT_EN.of v ≠ s.rd F.STK_CTL_ADOPT_EN i then 3
    else match ag with | .host _ => 2 | _ => 3
  | .LANE_STATE => if F.LANE_STATE_REQ.of v = 0 then 2 else 1
  | .PORT_LANE_STATE => if F.PORT_LANE_STATE_REQ.of v = 0 then 2 else 1
  | .TUN_CFG => if F.TUN_CFG_TX_EN.of v ≠ s.rd F.TUN_CFG_TX_EN i ∨ F.TUN_CFG_RX_EN.of v ≠ s.rd F.TUN_CFG_RX_EN i then 2 else 1
  | .IRQ_SRC => if s.srcNeedsOfficer i v then 2 else 1
  | .MEMP_INJECT_CTL => if F.MEMP_INJECT_CTL_ARM.of v = 1 then 3 else 1
  | .HOLD_PPR_CMD => if F.HOLD_PPR_CMD_HARD.of v = 1 then (match ag with | .host _ => 2 | _ => 4) else 1
  | .PEAT_DATA =>
    match peatPlace s.peatAddr with
    | .image _ => 2
    | .calibration => 1
    | .digest => if ag = .host 0 then 3 else 4
    | _ => 1
  | .SYS_AUTH_RESP | .SYS_AUTH_REQ => 0
  | r => r.info.wpriv

/-- The privilege a read needs (R81, Table 19-3). -/
def State.readLevel (s : State) (r : Reg) : Nat :=
  match r with
  | .PEAT_DATA => (match peatPlace s.peatAddr with | .image _ => 3 | _ => 0)
  | _ => 0

/-! ### Access mode (R38, R43, R95, R417, R556) -/

/-- A register refuses host writes in Service mode. -/
def State.modeBad (s : State) (r : Reg) (i v : Nat) : Bool :=
  match r.info.unit with
  | .lane | .bay | .tunnel | .key | .prot | .mcv => true
  | .hold => !(r = .HOLD_PPR_CMD && decide (F.HOLD_PPR_CMD_HARD.of v = 1))
  | .io => decide (r ≠ .IO_SLEW_CTL)
  | .stoker => decide (r = .STK_CTL)
  | .irq =>
    match r with
    | .IRQ_COMPLETE | .IRQ_SW_SET | .IRQ_HOST_ID | .IRQ_STATUS | .IRQ_MASK | .IRQ_PENDING => false
    | .IRQ_SRC => !s.srcHostMode i v
    | _ => true
  | _ => false

/-- The mode check of a host write: REFUSED_MODE in Service mode, a wait during a transition (R38, R43). -/
def State.modeCheck (s : State) (ag : Agent) (r : Reg) (i v : Nat) : Option Status :=
  match ag with
  | .host _ =>
    if s.on F.SYS_ACCESS_MODE_TRANSITION 0 then some .waiting
    else if s.service && s.modeBad r i v then some .refusedMode
    else none
  | _ => none

/-! ### The unit behind a register -/

/-- A managed block starts its wake at once, reversing an entry in progress (R490); a Kiln slice on it ends (R457). -/
def State.wakeBlock (s : State) (n : Nat) : State :=
  match Amap.find s.moves n with
  | some m => if m.target = 0 then s else { s with moves := Amap.ins natLt (Amap.erase s.moves n) n { m with target := 0, attempts := 1, depth := m.target, since := s.time } }
  | none => if s.rd F.PWR_BLOCK_CUR n = 0 then s
    else
      let t := s.sliceStopped (blockRegions n)
      { t with moves := Amap.ins natLt t.moves n { from_ := s.rd F.PWR_BLOCK_CUR n, target := 0, attempts := 1, depth := s.rd F.PWR_BLOCK_CUR n, since := s.time } }

/-- Kiln region `n` is EXCLUDED (R449, R526). The counters and the monitor converters are unavailable after a failure in service too (Table 15-1, R459). -/
def State.regionExcluded (s : State) (n : Nat) : Bool :=
  decide (s.rd F.KILN_REG_STATE n = 2) || (decide (s.rd F.KILN_REG_STATE n = 3) && (n == 135 || n == 136))

/-- The write configures a port of a bay whose region failed in service (Table 15-1, R459). -/
def State.unconfigurable (s : State) (r : Reg) (i : Nat) : Bool :=
  match r with
  | .BAY_CFG | .BAY_ROLE => decide (s.rd F.KILN_REG_STATE (48 + i) = 3)
  | .PORT_CFG => decide (s.rd F.KILN_REG_STATE (48 + i / 8) = 3)
  | _ => false

/-- The registers that stay reachable while Kiln is FATAL (R449). -/
def reachableFatal (r : Reg) : Bool :=
  match r.info.unit with
  | .kiln | .system | .fault => true
  | _ => false

/-- An instance under a block reset that has not ended (R73, R519): its unit answers no access, of a critical word neither. -/
def State.blockInReset (s : State) (r : Reg) (i : Nat) : Bool := s.blockResets.any fun e => inBlock e.1 e.2 r i

/-- Units that are powered down in STOPPED (R499): lanes, the hold store, converters 0 to 5 and their pairs. -/
def poweredDown (r : Reg) (i : Nat) : Bool :=
  let o := i / r.info.innerCount
  match r.info.unit with
  | .lane | .hold => true
  | .mcv =>
    match r with
    | .MCV_IN | .MCV_SIM_TRIG => false
    | .MCV_CAP_CTL | .MCV_CAP_STATUS | .MCV_CAP_TS_LO | .MCV_CAP_TS_HI | .MCV_CAP_ADDR | .MCV_CAP_DATA => decide (o < 3)
    | _ => decide (o < 6)
  | _ => false

/-- What an access meets at the unit behind a register before the unit's own checks: a status that ends it, a wait, or nothing. A request for a lane's state,
also one for all lanes of a port, reaches a lane that Kiln excludes, which refuses it or not by R138 (log entry 35). -/
def State.unitCheck (s : State) (r : Reg) (i : Nat) (write : Bool) : Option Status :=
  if s.inReset then some .waiting
  else if s.on F.KILN_STATUS_FATAL 0 && !reachableFatal r then some .unitError
  else if s.regionUntested 134 && !s.on F.KILN_STATUS_FATAL 0 then some .waiting
  else if (s.regionsReached r i).any s.regionUntested && !reachableFatal r then some .waiting
  else if (match regionOf r i with | some n => s.regionExcluded n && decide (n ≠ 135) | none => false) && !(write && (r = .LANE_STATE || r = .PORT_LANE_STATE)) then some .unitError
  else if write && s.unconfigurable r i then some .unitError
  else if s.regUnderSlice r i then some .waiting
  else if s.blockInReset r i then some .aborted
  else if (match blockOf r i with | some n => s.blockAsleep n | none => false) then some .waiting
  else if write && decide (s.rd F.THERM_STATUS_STATE 0 = 4) && poweredDown r i then some .refusedState
  else none

/-- The state after the unit was reached: a managed block behind the register is woken (R490). -/
def State.touched (s : State) (r : Reg) (i : Nat) : State :=
  match blockOf r i with
  | some n => if s.blockAsleep n then s.wakeBlock n else s
  | none => s

/-- A host's session that is not open; session 0, the service port's, always is (R391, R397). -/
def State.sessionClosed (s : State) : Agent → Bool
  | .host k => decide (k ≠ 0) && !(s.sess k).isOpen
  | _ => false

/-- The checks of a write in the order of R394 and R559, with an open session before all of them (R391): existence, privilege, ownership, mode, then the unit
behind the register. -/
def State.writeCheck (s : State) (ag : Agent) (r : Reg) (i v : Nat) : Option Status :=
  if s.sessionClosed ag then some .noSession
  else if !s.regExists r i then some .badAddress
  else if s.priv ag < s.writeLevel ag r i v then some .refusedPriv
  else if s.ownerBad ag r i v then some .notOwner
  else match s.modeCheck ag r i v with
    | some st => some st
    | none => s.unitCheck r i true

/-- The access is a table's command, which a unit without bias refuses, reads too (R499, log entry 41). -/
def State.commandOff (s : State) (ag : Agent) (r : Reg) (i : Nat) : Bool :=
  (match ag with | .table _ => true | _ => false) && decide (s.rd F.THERM_STATUS_STATE 0 = 4) && poweredDown r i

/-- The checks of a read (R391, R394, R559). -/
def State.readCheck (s : State) (ag : Agent) (r : Reg) (i : Nat) : Option Status :=
  if s.sessionClosed ag then some .noSession
  else if s.priv ag < s.readLevel r then some .refusedPriv
  else match s.unitCheck r i false with
    | some st => some st
    | none => if s.commandOff ag r i then some .refusedState else none

/-- A write of register (r, i): the checks, then the unit's handler; the completion is recorded. -/
def State.writing (s : State) (ag : Agent) (r : Reg) (i v : Nat) (handler : State → State × Status) : State :=
  match s.writeCheck ag r i v with
  | some st => (if st = .waiting then s.touched r i else s).answer st 0
  | none =>
    let res := handler s
    (res.1.answer res.2 0).settle

/-- A read of register (r, i): the checks, then the unit's handler with the value; the completion is recorded. -/
def State.reading (s : State) (ag : Agent) (r : Reg) (i : Nat) (handler : State → State × Nat) : State :=
  match s.readCheck ag r i with
  | some st => (if st = .waiting then s.touched r i else s).answer st 0
  | none =>
    let res := handler s
    res.1.answer .ok res.2

end Sys2Proof.Machine
end

