-- ==== Sys2Proof/Machine/LaneBase.lean ====
section
/-!
DEFINITION. What other units do to a lane's decimation chain and Smoke modem (R334, R343, R345, R353, R364, R372, R375, R376).
-/

namespace Sys2Proof.Machine

/-- Words of region 6: 0x800 for each lane: receive coefficients, chain coefficients from 0x400, transmit banks from 0x600 (log entry 8). -/
def laneWord (n k : Nat) : Nat := n * 0x800 + k

/-- A coefficient of the chain of lane `n` is stored (Table 9-3). -/
def State.decStore (s : State) (n k v : Nat) : State := s.memWrite 6 (laneWord n (0x400 + k)) .decCoef (n * 0x1000 + k) v

/-- The lane's remembered state changed by a function. -/
def State.laneMod (s : State) (n : Nat) (f : LaneS → LaneS) : State := s.setLane n (f (s.lane n))

/-- A lane's Smoke modem. -/
def State.smk (s : State) (n : Nat) : SmokeS := (s.lane n).smoke

/-- The state with a lane's Smoke modem replaced. -/
def State.setSmk (s : State) (n : Nat) (x : SmokeS) : State := s.setLane n { s.lane n with smoke := x }

/-- A lane's decimation chain. -/
def State.decOf (s : State) (n : Nat) : DecS := (s.lane n).dec

/-- The state with a lane's decimation chain replaced. -/
def State.setDec (s : State) (n : Nat) (x : DecS) : State := s.setLane n { s.lane n with dec := x }

/-- The short bit of a kind: 0 P, 1 N, 2 both legs together. -/
def shortFld (k : Nat) : Fld := match k with | 0 => F.LANE_TX_STATUS_SHORT_P | 1 => F.LANE_TX_STATUS_SHORT_N | _ => F.LANE_TX_STATUS_SHORT_PN

/-- The source becomes IDLE: no symbols, no ripple, nothing in the sample queue (R151, R175). -/
def State.txIdle (s : State) (n : Nat) : State :=
  let s1 := if s.rd F.LANE_TX_STATUS_SOURCE n = 0 then s else (s.wr F.LANE_TX_STATUS_SOURCE n 0).event F.LANE_TX_EVENT_SOURCE n
  ((s1.put F.LANE_TX_STATUS_DRIVING n false).put F.LANE_TX_STATUS_RIPPLE n false).laneMod n fun l => { l with lastSyms := [], codes := [], driven := [] }

/-! ### Decimation chain (R334 to R345) -/

/-- R2 of a profile (Table 9-2). -/
def decR2 (p : Nat) : Nat := match p with | 0 => 32 | 1 => 64 | 2 => 16 | _ => 64

/-- T4 of a profile. -/
def decT4 (p : Nat) : Nat := match p with | 0 => 64 | 1 => 128 | 2 => 32 | _ => 128

/-- D4 of a profile. -/
def decD4 (p : Nat) : Nat := match p with | 0 => 8 | 1 => 8 | 2 => 1 | _ => 16

/-- The unsettled count N of a profile: 1 + 4 + 16 + T4 ÷ D4 (R335). -/
def decN (p : Nat) : Nat := 21 + decT4 p / decD4 p

/-- An event of R343: UNSETTLED_LEFT takes the N of the profile in force. -/
def State.unsettle (s : State) (n : Nat) : State := s.wr F.LANE_DEC_STATUS_UNSETTLED_LEFT n (decN (s.rd F.LANE_DEC_CFG_PROFILE n))

/-- f1 : the rate per slice of Table 3-2, half of it with LP_ADC = 0 at RATE 0 and 1 (R334). In hertz. -/
def State.decF1 (s : State) (n : Nat) : Nat :=
  let full := match s.rd F.LANE_RX_CFG_RATE n with | 0 => 1328125000 | 1 => 2656250000 | 2 => 2656250000 | _ => 2835937500
  if s.rd F.LANE_RX_CFG_RATE n ≤ 1 ∧ !s.on F.LANE_RX_CFG_LP_ADC n then full / 2 else full

/-- Twice G in stage-1 samples (R335): 1 + 4 (R2 − 1) + 31 R2 + 2 (T4 − 1) R2. -/
def decTwiceG (p : Nat) : Nat := 1 + 4 * (decR2 p - 1) + 31 * decR2 p + 2 * (decT4 p - 1) * decR2 p

/-- G in units of 0.4 ns, rounded to nearest (LANE_DEC_DELAY). -/
def State.decDelay (s : State) (n : Nat) : Nat :=
  let f := s.decF1 n
  (decTwiceG (s.rd F.LANE_DEC_CFG_PROFILE n) * 2500000000 + f) / (2 * f)

/-- A moving average over the taps of a profile in both stage-4 banks (R338). -/
def State.decAverage (s : State) (n p : Nat) : State :=
  (List.range 256).foldl (fun t k => t.decStore n k (if k % 128 < decT4 p then 16384 / decT4 p else 0)) s

/-- A cross-fade is abandoned: the incoming bank is active at once (R341). -/
def State.xfadeEnd (s : State) (n : Nat) : State :=
  if s.on F.LANE_DEC_STATUS_XFADE_BUSY n then
    ((s.put F.LANE_DEC_STATUS_XFADE_BUSY n false).wr F.LANE_DEC_STATUS_TRANSITION_LEFT n 0).wr F.LANE_DEC_STATUS_ACTIVE_BANK n
      (1 - s.rd F.LANE_DEC_STATUS_ACTIVE_BANK n)
  else s

/-- PROFILE takes a value: both banks are loaded, a cross-fade ends, outputs are unsettled (R338, R341, R343). -/
def State.decProfile (s : State) (n p : Nat) : State := (((s.wr F.LANE_DEC_CFG_PROFILE n p).decAverage n p).xfadeEnd n).unsettle n

/-- What stage 1 takes: 0 nothing, 1 full samples, 2 spare samples (R334); nothing in STOPPED (R499). -/
def State.decInput (s : State) (n : Nat) : Nat :=
  if !s.on F.LANE_DEC_CFG_EN n || s.lanesOff then 0 else match s.rd F.LANE_STATE_CUR n with | 2 => 1 | 3 => 2 | _ => 0

/-- The chain follows the lane's state and EN; a stopped chain ends a capture (R334, R343, R346). -/
def State.decTrack (s : State) (n : Nat) : State :=
  let new := s.decInput n
  if new = s.rd F.LANE_DEC_STATUS_INPUT n then s
  else
    let s1 := (s.wr F.LANE_DEC_STATUS_INPUT n new).put F.LANE_DEC_STATUS_RUNNING n (new ≠ 0)
    if new ≠ 0 then s1.unsettle n
    else if s1.on F.LANE_DEC_CAP_STATUS_BUSY n then
      ((s1.put F.LANE_DEC_CAP_STATUS_BUSY n false).put F.LANE_DEC_CAP_STATUS_DONE n true).put F.LANE_DEC_CAP_STATUS_ABANDONED n true
    else s1

/-! ### Smoke receiver (R345, R353, Table 10-3) -/

/-- The reception in progress ends with a status; the receiver goes to a state, its gain loop runs again (Table 10-3). -/
def State.smokeRxEnd (s : State) (n last state : Nat) : State :=
  ((if 2 ≤ s.rd F.SMOKE_STATUS_RX_STATE n then s.wr F.SMOKE_STATUS_LAST_RX n last else s).wr F.SMOKE_STATUS_RX_STATE n state).setSmk n
    { s.smk n with hdr := none, peak := 0, ratio := 0, gainLeft := none
                   rx := if state = 0 then SmokeRx.init else { (s.smk n).rx with held := [], behind := [], sym := [], syms := [], rate := 0, second := none } }

/-- The receiver owns the chain: its profile by BW, the mixer at 2.0 MHz, its own coefficients (R345, R337). -/
def State.smokeOwn (s : State) (n : Nat) : State :=
  let p := if 2 ≤ s.rd F.SMOKE_CFG_BW n then 0 else 1
  let f := s.decF1 n
  let inc := (2 * 2000000 * 2 ^ 32 * 2 * decR2 p + f) / (2 * f)
  let s1 := ((s.put F.LANE_DEC_CFG_SMOKE_OWNED n true).put F.LANE_DEC_CFG_MIX_EN n true).wr F.LANE_DEC_NCO_INC n inc
  let s2 := (s1.wr F.LANE_DEC_CFG_PROFILE n p).xfadeEnd n
  ((List.range 0x120).foldl (fun t k => t.decStore n k (sext32 16 (Config.smokeTap (s.rd F.SMOKE_CFG_BW n) k))) s2).unsettle n

/-- The receiver runs while RX_EN = 1 and the lane is Lit or Warm (R142, R353), and has its bias (R499). -/
def State.smokeRuns (s : State) (n : Nat) : Bool := s.on F.SMOKE_CTL_RX_EN n && decide (2 ≤ s.rd F.LANE_STATE_CUR n) && !s.lanesOff

/-- The receiver follows its conditions (Table 10-3, states OFF and SEARCH). -/
def State.smokeTrack (s : State) (n : Nat) : State :=
  if s.smokeRuns n then
    if s.rd F.SMOKE_STATUS_RX_STATE n = 0 then (s.wr F.SMOKE_STATUS_RX_STATE n 1).smokeOwn n else s
  else if s.rd F.SMOKE_STATUS_RX_STATE n = 0 then s
  else (s.smokeRxEnd n 5 0).put F.LANE_DEC_CFG_SMOKE_OWNED n false

/-! ### Smoke transmitter (R164, R372 to R377) -/

/-- The depth in force becomes that of the register: 1 % to 8 % (R162, R164). -/
def State.depthNow (s : State) (n : Nat) : State :=
  (s.put F.LANE_TX_SMOKE_DEPTH_PENDING n false).laneMod n fun l => { l with depth := clampNat 4 32 (s.rd F.LANE_TX_SMOKE_DEPTH n) }

/-- A frame in progress is aborted: the ripple stops (R164, R377). -/
def State.smokeAbort (s : State) (n : Nat) : State :=
  if (s.smk n).sending.isSome then (s.setSmk n { s.smk n with sending := none, chirps := [], blocks := 0 }).depthNow n else s

/-- RIPPLE_EN is cleared; the ripple stops at the next block boundary (R161, R164). -/
def State.rippleOff (s : State) (n : Nat) : State := s.put F.LANE_TX_SMOKE_RIPPLE_EN n false

/-- The condition of RIPPLE_EN: a line lane at RATE 2 or 3 (R161). -/
def State.rippleOk (s : State) (n : Nat) : Bool := decide (2 ≤ s.role (s.portOfLane n)) && decide (2 ≤ s.rd F.LANE_RX_CFG_RATE n)

/-- A change of role or rate is judged again (R161). -/
def State.rippleCheck (s : State) (n : Nat) : State := if s.rippleOk n then s else s.rippleOff n

/-- The path of a lane's port: 0 A, 1 B, none when it has no line role. -/
def State.lanePath (s : State) (n : Nat) : Option Nat := if 2 ≤ s.role (s.portOfLane n) then some (s.role (s.portOfLane n) - 2) else none

/-- A frame takes a place of the transmit queue, or finds it full (R377). -/
def State.smokePut (s : State) (n : Nat) (f : SmokeFrame) : Option State :=
  if (s.smk n).txq.length < 4 then some (s.setSmk n { s.smk n with txq := (s.smk n).txq ++ [f] }) else none

/-- A ROLL_ or GAP control bundle sent on path `x` is copied to the lowest-numbered lane of the path with CTRL_EN = 1; a full queue drops it (R375). -/
def State.smokeCopy (s : State) (x : Nat) (bytes : List Nat) : State :=
  match (List.range 48).find? fun n => s.lanePath n = some x && s.on F.SMOKE_CTL_CTRL_EN n with
  | none => s
  | some n =>
    match s.smokePut n { msg := 2, payload := bytes, posted := false } with
    | some t => t
    | none => (s.bump F.SMOKE_CNT_DROPPED_TX n 1).event F.SMOKE_EVENT_DROPPED n

/-- The orderly stop queues GOING_DOWN on a lane whose ripple runs (R376). -/
def State.queueGoingDown (s : State) (n reason : Nat) : State :=
  if s.on F.SMOKE_CTL_TX_EN n && s.on F.LANE_TX_SMOKE_RIPPLE_EN n then s.setSmk n { s.smk n with going := some reason } else s

/-- After a full zeroisation every lane's next frame is a beacon with FLAGS[0] (R372). -/
def State.flagBeacons (s : State) : State :=
  (List.range 48).foldl (fun t n => if (t.smk n).firstDue then t else t.setSmk n { t.smk n with firstDue := true }) s

end Sys2Proof.Machine
end

