-- ==== Sys2Proof/Machine/Sha.lean ====
section
/-!
DEFINITION. SHA-384 (FIPS 180-4) and the verification of ECDSA over P-384 (FIPS 186-5), by which an image bank is checked (R521, R522).
Bytes are numbers below 256, most significant byte first.
-/

namespace Sys2Proof.Machine

/-! ### SHA-384 -/

/-- The largest `r` with `r ^ k ≤ n`, found bit by bit from bit `fuel - 1` down. -/
def rootNat (k n : Nat) : Nat → Nat → Nat
  | 0, r => r
  | fuel + 1, r => rootNat k n fuel (if (r + 2 ^ fuel) ^ k ≤ n then r + 2 ^ fuel else r)

/-- The first 64 bits of the fraction of the `k`-th root of `p`. -/
def rootFraction (k p : Nat) : BitVec 64 := BitVec.ofNat 64 (rootNat k (p * 2 ^ (64 * k)) 69 0)

/-- The primes below 410: there are eighty. -/
def shaPrimes : List Nat := (List.range 410).filter fun p => decide (2 ≤ p) && (List.range 21).all fun d => decide (d < 2 ∨ p ≤ d) || p % d != 0

/-- The round constants: cube roots of the first eighty primes. -/
def shaK : List (BitVec 64) := shaPrimes.map (rootFraction 3)

/-- The initial hash value of SHA-384: square roots of the ninth to sixteenth primes. -/
def shaInit : List (BitVec 64) := ((shaPrimes.drop 8).take 8).map (rootFraction 2)

/-- The padded message: 0x80, zeros, the 128-bit length in bits. -/
def shaPad (m : List Nat) : List Nat := m ++ 0x80 :: List.replicate ((239 - m.length % 128) % 128) 0 ++ bytesBe 16 (8 * m.length)

/-- The list cut into blocks of `k`, at most `fuel` of them. -/
def blocksOf {α : Type} (k : Nat) : Nat → List α → List (List α)
  | 0, _ => []
  | _, [] => []
  | fuel + 1, l => l.take k :: blocksOf k fuel (l.drop k)

/-- Two rotations of a word and a third word added bit by bit. -/
def shaSpread (i j : Nat) (third x : BitVec 64) : BitVec 64 := third ^^^ (x.rotateRight i ^^^ x.rotateRight j)

/-- The word of the schedule that follows, from the words 2, 7, 15 and 16 places before it. -/
def shaNext (w2 w7 w15 w16 : BitVec 64) : BitVec 64 :=
  w16 + shaSpread 1 8 (w15 >>> 7) w15 + w7 + shaSpread 19 61 (w2 >>> 6) w2

/-- Each bit from `x` where `c` is 1, else from `y`. -/
def shaPick (c x y : BitVec 64) : BitVec 64 := y ^^^ (c &&& (x ^^^ y))

/-- Each bit as most of three words have it. -/
def shaMost (x y z : BitVec 64) : BitVec 64 := (x &&& y) ||| (z &&& (x ||| y))

/-- The message schedule, newest word first. -/
def shaSchedule (block : List Nat) : List (BitVec 64) :=
  let w0 := ((blocksOf 8 16 block).map fun b => BitVec.ofNat 64 (numBe b)).reverse
  (List.range 64).foldl (fun w _ => shaNext (w.getD 1 0) (w.getD 6 0) (w.getD 14 0) (w.getD 15 0) :: w) w0

/-- One round on the eight working words: the fourth takes an increment made of the last four, the new first one that and a function of the first three. -/
def shaRound (v : List (BitVec 64)) (kw : BitVec 64) : List (BitVec 64) :=
  let x (i : Nat) : BitVec 64 := v.getD i 0
  let inc := x 7 + kw + shaPick (x 4) (x 5) (x 6) + shaSpread 14 18 ((x 4).rotateRight 41) (x 4)
  let top := inc + shaMost (x 0) (x 1) (x 2) + shaSpread 28 34 ((x 0).rotateRight 39) (x 0)
  top :: v.take 3 ++ (x 3 + inc) :: (v.drop 4).take 3

/-- One block of 128 bytes. -/
def shaBlock (h : List (BitVec 64)) (block : List Nat) : List (BitVec 64) :=
  let w := (shaSchedule block).reverse
  let v := (shaK.zip w).foldl (fun v e => shaRound v (e.1 + e.2)) h
  (h.zip v).map fun e => e.1 + e.2

/-- SHA-384 of a message: 48 bytes. -/
def sha384 (m : List Nat) : List Nat :=
  let p := shaPad m
  (((blocksOf 128 p.length p).foldl shaBlock shaInit).take 6).flatMap fun x => bytesBe 8 x.toNat

/-! ### P-384 -/

/-- The prime of the field. -/
def p384 : Nat := 2 ^ 384 - 2 ^ 128 - 2 ^ 96 + 2 ^ 32 - 1

/-- The order of the base point. -/
def n384 : Nat := 0xffffffffffffffffffffffffffffffffffffffffffffffffc7634d81f4372ddf581a0db248b0a77aecec196accc52973

/-- The coefficient b. -/
def b384 : Nat := 0xb3312fa7e23ee7e4988e056be3f82d19181d9c6efe8141120314088f5013875ac656398d8a2ed19d2a85c8edd3ec2aef

/-- The base point. -/
def g384 : Nat × Nat :=
  (0xaa87ca22be8b05378eb1c71ef320ad746e1d3b628ba79b9859f741e082542a385502f25dbf55296c3a545e3872760ab7,
   0x3617de4a96262c6f5d9e98bf9292dc29f8f41dbd289a147ce9da3113b5f0b8c00a60b1ce1d7e819d7a431d7c90ea0e5f)

/-- Powers modulo `m`, over the 384 bits of the exponent. -/
def powMod (m a e : Nat) : Nat :=
  (List.range 384).foldl (fun r i => let r2 := r * r % m; if e.testBit (383 - i) then r2 * a % m else r2) 1

/-- The inverse modulo a prime. -/
def invMod (m a : Nat) : Nat := powMod m a (m - 2)

/-- Subtraction modulo `m` of numbers below `m`. -/
def subMod (m a b : Nat) : Nat := (a + m - b % m) % m

/-- The sum of two points; none is the point at infinity. -/
def addPoint : Option (Nat × Nat) → Option (Nat × Nat) → Option (Nat × Nat)
  | none, q => q
  | p, none => p
  | some (x1, y1), some (x2, y2) =>
    let m := p384
    let chord (l : Nat) : Option (Nat × Nat) :=
      let x3 := subMod m (subMod m (l * l % m) x1) x2
      some (x3, subMod m (l * subMod m x1 x3 % m) y1)
    if x1 = x2 then
      if (y1 + y2) % m = 0 then none
      else chord (subMod m (3 * x1 * x1 % m) 3 * invMod m (2 * y1 % m) % m)
    else chord (subMod m y2 y1 * invMod m (subMod m x2 x1) % m)

/-- A multiple of a point. -/
def mulPoint (k : Nat) (q : Option (Nat × Nat)) : Option (Nat × Nat) :=
  (List.range 384).foldl (fun r i => let r2 := addPoint r r; if k.testBit (383 - i) then addPoint r2 q else r2) none

/-- The point lies on the curve. -/
def onCurve (x y : Nat) : Bool :=
  decide (x < p384) && decide (y < p384) && decide (y * y % p384 = subMod p384 ((x * x % p384 * x + b384) % p384) (3 * x % p384))

/-- Verification of the signature (r, s) of a message whose SHA-384 is `hash` with the public key (x, y). -/
def ecdsaVerify (x y r s hash : Nat) : Bool :=
  if onCurve x y && decide (0 < r ∧ r < n384) && decide (0 < s ∧ s < n384) then
    let w := invMod n384 s
    match addPoint (mulPoint (hash * w % n384) (some g384)) (mulPoint (r * w % n384) (some (x, y))) with
    | some (px, _) => decide (px % n384 = r)
    | none => false
  else false

end Sys2Proof.Machine
end

