-- ==== Sys2Proof/Machine/Aes.lean ====
section
/-!
DEFINITION. AES-256 (FIPS 197), AES-GCM (NIST SP 800-38D), AES Key Wrap (SP 800-38F) and AES-CMAC (SP 800-38B), as R239 to R250 and R393 use them.
Bytes are numbers below 256; a state is a list of 16 bytes in the order of the standard.
-/

namespace Sys2Proof.Machine

def aesS0 : List Nat :=
  [
   0x63, 0x7c, 0x77, 0x7b, 0xf2, 0x6b, 0x6f, 0xc5, 0x30, 0x01, 0x67, 0x2b, 0xfe, 0xd7, 0xab, 0x76,
   0xca, 0x82, 0xc9, 0x7d, 0xfa, 0x59, 0x47, 0xf0, 0xad, 0xd4, 0xa2, 0xaf, 0x9c, 0xa4, 0x72, 0xc0,
   0xb7, 0xfd, 0x93, 0x26, 0x36, 0x3f, 0xf7, 0xcc, 0x34, 0xa5, 0xe5, 0xf1, 0x71, 0xd8, 0x31, 0x15,
   0x04, 0xc7, 0x23, 0xc3, 0x18, 0x96, 0x05, 0x9a, 0x07, 0x12, 0x80, 0xe2, 0xeb, 0x27, 0xb2, 0x75]

def aesS1 : List Nat :=
  [
   0x09, 0x83, 0x2c, 0x1a, 0x1b, 0x6e, 0x5a, 0xa0, 0x52, 0x3b, 0xd6, 0xb3, 0x29, 0xe3, 0x2f, 0x84,
   0x53, 0xd1, 0x00, 0xed, 0x20, 0xfc, 0xb1, 0x5b, 0x6a, 0xcb, 0xbe, 0x39, 0x4a, 0x4c, 0x58, 0xcf,
   0xd0, 0xef, 0xaa, 0xfb, 0x43, 0x4d, 0x33, 0x85, 0x45, 0xf9, 0x02, 0x7f, 0x50, 0x3c, 0x9f, 0xa8,
   0x51, 0xa3, 0x40, 0x8f, 0x92, 0x9d, 0x38, 0xf5, 0xbc, 0xb6, 0xda, 0x21, 0x10, 0xff, 0xf3, 0xd2]

def aesS2 : List Nat :=
  [
   0xcd, 0x0c, 0x13, 0xec, 0x5f, 0x97, 0x44, 0x17, 0xc4, 0xa7, 0x7e, 0x3d, 0x64, 0x5d, 0x19, 0x73,
   0x60, 0x81, 0x4f, 0xdc, 0x22, 0x2a, 0x90, 0x88, 0x46, 0xee, 0xb8, 0x14, 0xde, 0x5e, 0x0b, 0xdb,
   0xe0, 0x32, 0x3a, 0x0a, 0x49, 0x06, 0x24, 0x5c, 0xc2, 0xd3, 0xac, 0x62, 0x91, 0x95, 0xe4, 0x79,
   0xe7, 0xc8, 0x37, 0x6d, 0x8d, 0xd5, 0x4e, 0xa9, 0x6c, 0x56, 0xf4, 0xea, 0x65, 0x7a, 0xae, 0x08]

def aesS3 : List Nat :=
  [
   0xba, 0x78, 0x25, 0x2e, 0x1c, 0xa6, 0xb4, 0xc6, 0xe8, 0xdd, 0x74, 0x1f, 0x4b, 0xbd, 0x8b, 0x8a,
   0x70, 0x3e, 0xb5, 0x66, 0x48, 0x03, 0xf6, 0x0e, 0x61, 0x35, 0x57, 0xb9, 0x86, 0xc1, 0x1d, 0x9e,
   0xe1, 0xf8, 0x98, 0x11, 0x69, 0xd9, 0x8e, 0x94, 0x9b, 0x1e, 0x87, 0xe9, 0xce, 0x55, 0x28, 0xdf,
   0x8c, 0xa1, 0x89, 0x0d, 0xbf, 0xe6, 0x42, 0x68, 0x41, 0x99, 0x2d, 0x0f, 0xb0, 0x54, 0xbb, 0x16]

/-- The S-box. -/
def aesSbox : List Nat := aesS0 ++ aesS1 ++ aesS2 ++ aesS3

def aesI0 : List Nat :=
  [
   0x52, 0x09, 0x6a, 0xd5, 0x30, 0x36, 0xa5, 0x38, 0xbf, 0x40, 0xa3, 0x9e, 0x81, 0xf3, 0xd7, 0xfb,
   0x7c, 0xe3, 0x39, 0x82, 0x9b, 0x2f, 0xff, 0x87, 0x34, 0x8e, 0x43, 0x44, 0xc4, 0xde, 0xe9, 0xcb,
   0x54, 0x7b, 0x94, 0x32, 0xa6, 0xc2, 0x23, 0x3d, 0xee, 0x4c, 0x95, 0x0b, 0x42, 0xfa, 0xc3, 0x4e,
   0x08, 0x2e, 0xa1, 0x66, 0x28, 0xd9, 0x24, 0xb2, 0x76, 0x5b, 0xa2, 0x49, 0x6d, 0x8b, 0xd1, 0x25]

def aesI1 : List Nat :=
  [
   0x72, 0xf8, 0xf6, 0x64, 0x86, 0x68, 0x98, 0x16, 0xd4, 0xa4, 0x5c, 0xcc, 0x5d, 0x65, 0xb6, 0x92,
   0x6c, 0x70, 0x48, 0x50, 0xfd, 0xed, 0xb9, 0xda, 0x5e, 0x15, 0x46, 0x57, 0xa7, 0x8d, 0x9d, 0x84,
   0x90, 0xd8, 0xab, 0x00, 0x8c, 0xbc, 0xd3, 0x0a, 0xf7, 0xe4, 0x58, 0x05, 0xb8, 0xb3, 0x45, 0x06,
   0xd0, 0x2c, 0x1e, 0x8f, 0xca, 0x3f, 0x0f, 0x02, 0xc1, 0xaf, 0xbd, 0x03, 0x01, 0x13, 0x8a, 0x6b]

def aesI2 : List Nat :=
  [
   0x3a, 0x91, 0x11, 0x41, 0x4f, 0x67, 0xdc, 0xea, 0x97, 0xf2, 0xcf, 0xce, 0xf0, 0xb4, 0xe6, 0x73,
   0x96, 0xac, 0x74, 0x22, 0xe7, 0xad, 0x35, 0x85, 0xe2, 0xf9, 0x37, 0xe8, 0x1c, 0x75, 0xdf, 0x6e,
   0x47, 0xf1, 0x1a, 0x71, 0x1d, 0x29, 0xc5, 0x89, 0x6f, 0xb7, 0x62, 0x0e, 0xaa, 0x18, 0xbe, 0x1b,
   0xfc, 0x56, 0x3e, 0x4b, 0xc6, 0xd2, 0x79, 0x20, 0x9a, 0xdb, 0xc0, 0xfe, 0x78, 0xcd, 0x5a, 0xf4]

def aesI3 : List Nat :=
  [
   0x1f, 0xdd, 0xa8, 0x33, 0x88, 0x07, 0xc7, 0x31, 0xb1, 0x12, 0x10, 0x59, 0x27, 0x80, 0xec, 0x5f,
   0x60, 0x51, 0x7f, 0xa9, 0x19, 0xb5, 0x4a, 0x0d, 0x2d, 0xe5, 0x7a, 0x9f, 0x93, 0xc9, 0x9c, 0xef,
   0xa0, 0xe0, 0x3b, 0x4d, 0xae, 0x2a, 0xf5, 0xb0, 0xc8, 0xeb, 0xbb, 0x3c, 0x83, 0x53, 0x99, 0x61,
   0x17, 0x2b, 0x04, 0x7e, 0xba, 0x77, 0xd6, 0x26, 0xe1, 0x69, 0x14, 0x63, 0x55, 0x21, 0x0c, 0x7d]

/-- The inverse S-box. -/
def aesInvSbox : List Nat := aesI0 ++ aesI1 ++ aesI2 ++ aesI3

/-- The S-box applied to a byte. -/
def subByte (b : Nat) : Nat := aesSbox.getD b 0

/-- The bytewise exclusive or. -/
def xorBytes (a b : List Nat) : List Nat := List.zipWith Nat.xor a b

/-- Multiplication by x in GF(2^8). -/
def xtime (a : Nat) : Nat := if a < 128 then 2 * a else Nat.xor (2 * a - 256) 0x1B

/-- Multiplication in GF(2^8). -/
def gmul (a b : Nat) : Nat :=
  ((List.range 8).foldl (fun (acc : Nat × Nat) i => (if b.testBit i then Nat.xor acc.1 acc.2 else acc.1, xtime acc.2)) (0, a)).1

/-- The sixty words of four bytes of the key schedule of AES-256. -/
def aesSchedule (key : List Nat) : List (List Nat) :=
  (List.range 52).foldl (fun w k =>
    let i := k + 8
    let t := w.getD (i - 1) []
    let t' :=
      if i % 8 = 0 then
        let r := (t.drop 1 ++ t.take 1).map subByte
        xorBytes r [(List.range (i / 8 - 1)).foldl (fun a _ => xtime a) 1, 0, 0, 0]
      else if i % 8 = 4 then t.map subByte
      else t
    w ++ [xorBytes (w.getD (i - 8) []) t']) (blocksOf 4 8 key)

/-- Round key `r`. -/
def roundKey (w : List (List Nat)) (r : Nat) : List Nat := ((w.drop (4 * r)).take 4).flatten

/-- ShiftRows; a state lists its columns. -/
def shiftRows (s : List Nat) : List Nat := (List.range 16).map fun i => s.getD ((i + 4 * (i % 4)) % 16) 0

/-- InvShiftRows. -/
def invShiftRows (s : List Nat) : List Nat := (List.range 16).map fun i => s.getD ((i + 12 * (i % 4)) % 16) 0

/-- A circulant column product with coefficients `c`. -/
def mixWith (c : List Nat) (s : List Nat) : List Nat :=
  (List.range 16).map fun i =>
    (List.range 4).foldl (fun a k => Nat.xor a (gmul (s.getD (i / 4 * 4 + k) 0) (c.getD ((k + 4 - i % 4) % 4) 0))) 0

/-- AES-256 of one block. -/
def aesEncrypt (key block : List Nat) : List Nat :=
  let w := aesSchedule key
  let s0 := xorBytes block (roundKey w 0)
  let s1 := (List.range 13).foldl (fun s r => xorBytes (mixWith [2, 3, 1, 1] (shiftRows (s.map subByte))) (roundKey w (r + 1))) s0
  xorBytes (shiftRows (s1.map subByte)) (roundKey w 14)

/-- The inverse cipher. -/
def aesDecrypt (key block : List Nat) : List Nat :=
  let w := aesSchedule key
  let inv (s : List Nat) : List Nat := (invShiftRows s).map fun b => aesInvSbox.getD b 0
  let s0 := xorBytes block (roundKey w 14)
  let s1 := (List.range 13).foldl (fun s r => mixWith [14, 11, 13, 9] (xorBytes (inv s) (roundKey w (13 - r)))) s0
  xorBytes (inv s1) (roundKey w 0)

/-! ### Key wrap (SP 800-38F, KW) -/

/-- The unwrapping of a ciphertext of semiblocks; none when the integrity check value is wrong. -/
def kwUnwrap (kek cipher : List Nat) : Option (List Nat) :=
  let c := blocksOf 8 cipher.length cipher
  let n := c.length - 1
  let steps := (List.range (6 * n)).map fun k => 6 * n - k
  let r := steps.foldl (fun (acc : List Nat × List (List Nat)) t =>
    let i := (t - 1) % n
    let b := aesDecrypt kek (xorBytes acc.1 (bytesBe 8 t) ++ acc.2.getD i [])
    (b.take 8, acc.2.set i (b.drop 8))) (c.headD [], c.drop 1)
  if r.1 = List.replicate 8 0xA6 then some r.2.flatten else none

/-! ### CMAC (SP 800-38B) -/

/-- The doubling of a block in GF(2^128). -/
def cmacDouble (b : Nat) : Nat := if b < 2 ^ 127 then 2 * b else Nat.xor (2 * b - 2 ^ 128) 0x87

/-- AES-CMAC of a message of at least one byte. -/
def aesCmac (key m : List Nat) : List Nat :=
  let l := numBe (aesEncrypt key (List.replicate 16 0))
  let k1 := cmacDouble l
  let bs := blocksOf 16 m.length m
  let last := bs.getLastD []
  let mn := if last.length = 16 then xorBytes last (bytesBe 16 k1)
    else xorBytes (last ++ 0x80 :: List.replicate (15 - last.length) 0) (bytesBe 16 (cmacDouble k1))
  (bs.dropLast ++ [mn]).foldl (fun x b => aesEncrypt key (xorBytes x b)) (List.replicate 16 0)

/-! ### GCM (SP 800-38D) -/

/-- The product in GF(2^128) of GHASH; blocks are numbers whose most significant bit is bit 0 of the standard. -/
def ghashMul (x y : Nat) : Nat :=
  ((List.range 128).foldl (fun (acc : Nat × Nat) i =>
    let z := if x.testBit (127 - i) then Nat.xor acc.1 acc.2 else acc.1
    let v := if acc.2 % 2 = 1 then Nat.xor (acc.2 / 2) (0xE1 * 2 ^ 120) else acc.2 / 2
    (z, v)) (0, y)).1

/-- Bytes filled with zeros to whole blocks. -/
def padBlocks (m : List Nat) : List Nat := m ++ List.replicate ((16 - m.length % 16) % 16) 0

/-- GHASH over additional data and ciphertext. -/
def ghash (h : Nat) (aad c : List Nat) : Nat :=
  let data := padBlocks aad ++ padBlocks c ++ bytesBe 8 (8 * aad.length) ++ bytesBe 8 (8 * c.length)
  (blocksOf 16 data.length data).foldl (fun y b => ghashMul (Nat.xor y (numBe b)) h) 0

/-- Counter mode from the block after J0, for a 12-byte initialisation vector. -/
def gctr (key iv data : List Nat) : List Nat :=
  ((blocksOf 16 data.length data).zipIdx.map fun e => xorBytes e.1 (aesEncrypt key (iv ++ bytesBe 4 (e.2 + 2)))).flatten

/-- The 16-byte tag. -/
def gcmTag (key iv aad c : List Nat) : List Nat :=
  let h := numBe (aesEncrypt key (List.replicate 16 0))
  xorBytes (bytesBe 16 (ghash h aad c)) (aesEncrypt key (iv ++ [0, 0, 0, 1]))

/-- AES-GCM encryption: ciphertext and tag. -/
def gcmSeal (key iv aad plain : List Nat) : List Nat × List Nat :=
  let c := gctr key iv plain
  (c, gcmTag key iv aad c)

/-- AES-GCM decryption: the plaintext when the tag matches. -/
def gcmOpen (key iv aad c tag : List Nat) : Option (List Nat) :=
  if gcmTag key iv aad c = tag then some (gctr key iv c) else none

end Sys2Proof.Machine
end

