-- ==== Sys2Proof/Machine/Hold.lean ====
section
/-!
DEFINITION. The hold store (chapter 07): budget, training, fill, held copies and their billets, correction, clinker marks, repair.
-/

namespace Sys2Proof.Machine

/-! ### Channels -/

/-- What channel `c` has beside its registers. -/
def State.hcOf (s : State) (c : Nat) : HCh := Amap.get HCh.init s.hch c

/-- The state with channel `c` replaced. -/
def State.setHc (s : State) (c : Nat) (x : HCh) : State := { s with hch := Amap.put natLt HCh.init s.hch c x }

/-- Channel `c` has failed. -/
def State.chFailed (s : State) (c : Nat) : Bool := s.rd F.HOLD_CH_STATUS_STATE c = 4

/-- The channels that count as live: LIVE ones, and those the power manager has parked with their contents (R270). -/
def State.liveChs (s : State) : List Nat :=
  (List.range 24).filter fun c => s.chLive c || (decide (s.rd F.HOLD_CH_STATUS_STATE c = 3) && decide (s.rd F.HOLD_STATUS_STATE 0 = 3))

/-! ### Budget (R24 to R26, R220, R280, R297) -/

/-- The declared number of channels. -/
def holdN (channels : Nat) : Nat := if channels = 1 then 24 else 12

/-- The transfer rate in MT/s. -/
def holdRate (rate : Nat) : Nat := match rate with | 0 => 4800 | 1 => 5600 | 2 => 6400 | 3 => 7200 | 4 => 8000 | _ => 8800

/-- The rate limit of tunnel `t` in Gb/s. -/
def State.tunRate (s : State) (t : Nat) : Nat := min 1600 (s.rd F.TUN_LIMITS_RATE t)

/-- The steady charges in Gb/s (R25): retransmission copies, alignment copies, scrub while the store is in use. -/
def State.holdCharge (s : State) : Nat :=
  (List.range 24).foldl (fun a t =>
    a + (if s.on F.TUN_CFG_TX_EN t && s.on F.PROT_TUN_CFG_LOSSLESS t then s.tunRate t else 0) +
      (if s.on F.TUN_CFG_RX_EN t && s.rd F.PROT_CFG_MODE 0 = 1 && !s.on F.PROT_TUN_CFG_MERGE t then s.tunRate t else 0))
    (if s.rd F.HOLD_STATUS_STATE 0 = 0 then 0 else 100)

/-- The number of failed channels. -/
def State.failedChs (s : State) : Nat := ((List.range 24).filter fun c => s.chFailed c).length

/-- The budget as a fraction of Gb/s: numerator and denominator. From the second failed channel on it is B (N − f) ÷ (N − 1) (R297). -/
def State.budget (s : State) : Nat × Nat :=
  let n := holdN (s.rd F.HOLD_CFG_CHANNELS 0)
  let f := s.failedChs
  let num := 10000 * holdRate (s.rd F.HOLD_CFG_RATE 0) * n
  if f ≤ 1 then (num, 8800 * 24) else (num * (n - f), 8800 * 24 * (n - 1))

/-- The steady charges fit the budget (R26). -/
def State.budgetOk (s : State) : Bool := decide (s.holdCharge * s.budget.2 ≤ s.budget.1)

/-- The scrubber works: enabled, the store READY, the budget not exceeded (R282, R297). -/
def State.scrubOn (s : State) : Bool :=
  s.on F.HOLD_SCRUB_CTL_EN 0 && s.on F.HOLD_STATUS_READY 0 && !s.on F.HOLD_STATUS_OVER_BUDGET 0

/-- The Damper's cap on the store is in force: cord fill and repair windows stop (R498). -/
def State.ddrCapped (s : State) : Bool := s.enforcing && s.on F.THERM_DAMPER_DDR_CAP 0

/-- What the scrubber reads, in units of 0.025 Tb/s (R281): one under the Damper's cap (R498). -/
def State.scrubRate (s : State) : Nat := if s.ddrCapped then 1 else clampNat 1 4 (s.rd F.HOLD_SCRUB_CTL_RATE 0)

/-- The part of its share that the scrubber leaves to fill and repair windows, in Gb/s (R281). -/
def State.scrubLent (s : State) : Nat :=
  if s.rd F.HOLD_STATUS_STATE 0 = 0 then 0 else if s.scrubOn then 100 - 25 * s.scrubRate else 100

/-- Tunnel `t` writes its client's bundles to the store. -/
def State.riding (s : State) (t : Nat) : Bool := s.on F.PROT_TUN_STATE_RIDE t || s.on F.PROT_TUN_STATE_DRAIN t

/-- C of R30 in Gb/s: the charges other than drain reads and the writes of ride-through and drain, which are charged once at W. -/
def State.otherCharge (s : State) : Nat :=
  (List.range 24).foldl (fun a t => if s.riding t && s.on F.TUN_CFG_TX_EN t && s.on F.PROT_TUN_CFG_LOSSLESS t then a - s.tunRate t else a) s.holdCharge

/-- The windows of 10 µs up to now. -/
def RateWin.upTo (w : RateWin) (now : Nat) : RateWin :=
  if now < w.start + 25000 then w
  else if now < w.start + 50000 then { start := w.start + 25000, bytes := 0, last := w.bytes }
  else { start := now, bytes := 0, last := 0 }

/-- W in Mb/s: what the last whole window of 10 µs took (R30, R327). -/
def State.writeRate (s : State) : Nat := (s.rideWin.upTo s.time).last * 8 / 10

/-- D in Mb/s: the least of PROT_DRAIN.RATE, the block capacity of the ready ports and B - C - W (R327). -/
def State.drainRate (s : State) : Nat :=
  min (min (s.rd F.PROT_DRAIN_RATE 0 * 10000) ((s.readyPorts 0 ++ s.readyPorts 1).foldl (fun a p => a + s.portMbps p) 0))
    (s.budget.1 * 1000 / s.budget.2 - (s.otherCharge * 1000 + s.writeRate))

/-- Drain reads, resends among them, proceed: W + D + C ≤ B and D > W (R30, R322). -/
def State.drainRuns (s : State) : Bool := decide (s.writeRate < s.drainRate)

/-- A drain read or a resend read is under way. -/
def State.draining (s : State) : Bool := s.heldReads.any fun r => r.kind = .ride || r.kind = .retx

/-- What the drain reads and resend reads of the running window of 10 µs have taken lies below D (R322, R327). -/
def State.drainPace (s : State) : Bool := decide ((s.drainWin.upTo s.time).bytes * 8 / 10 < s.drainRate)

/-- The charges in force other than hold-back writes, in Mb/s: beside the steady ones the ride-through writes and the drain reads; the share the scrubber leaves
is lent (R25, R277, R281). -/
def State.chargeBeside (s : State) : Nat :=
  (s.otherCharge - s.scrubLent) * 1000 + s.writeRate + (if s.draining && s.drainRuns then s.drainRate else 0)

/-- What hold-back writes take, in Mb/s: the greater of the running window of 10 µs and the one before (R316). -/
def State.holdbackRate (s : State) : Nat :=
  let w := s.holdWin.upTo s.time
  max w.bytes w.last * 8 / 10

/-- The charges in force in Mb/s, by which the free budget of fill and repair windows is measured (R277, R291, R316). A repair window is one command of the
model, during which nothing is filled. -/
def State.chargeNow (s : State) : Nat :=
  s.chargeBeside + s.holdbackRate

/-- Free budget is left (R277). -/
def State.budgetFree (s : State) : Bool := decide (s.chargeNow * s.budget.2 < s.budget.1 * 1000)

/-- A hold-back write of `n` bytes keeps the hold-back writes of its window of 10 µs within the budget not otherwise charged (R316). -/
def State.holdbackFits (s : State) (n : Nat) : Bool :=
  decide ((s.chargeBeside + ((s.holdWin.upTo s.time).bytes + n) * 8 / 10) * s.budget.2 ≤ s.budget.1 * 1000)

/-- Bytes of a hold-back copy are counted (R316). -/
def State.holdbackCount (s : State) (n : Nat) : State :=
  let w := s.holdWin.upTo s.time
  { s with holdWin := { w with bytes := w.bytes + n } }

/-- Bytes of a drain read or a resend read are counted (R322, R327). -/
def State.drainCount (s : State) (n : Nat) : State :=
  let w := s.drainWin.upTo s.time
  { s with drainWin := { w with bytes := w.bytes + n } }

/-- A configuration that would be in force: committed when its charges fit or do not rise, else refused with a budget status and no change (R26). -/
def State.commit (s t : State) : State × Status :=
  if t.budgetOk || (decide (t.holdCharge ≤ s.holdCharge) && decide (t.budget = s.budget)) then (t, .ok) else (s, .refusedBudget)

/-! ### Status (R273, R277, R279, R297) -/

/-- The usable cords of channel `c` that are filled and not withdrawn. -/
def State.filledUsable (s : State) (c : Nat) : Nat := (s.hcOf c).filled - 16 - (s.hcOf c).withdrawn.length

/-- A one-bit status field takes a value; a change sets its event. -/
def State.trackHold (s : State) (f ev : Fld) (b : Bool) : State := if s.on f 0 = b then s else (s.put f 0 b).event ev 0

/-- LIVE, the cord totals, READY, SHORT and OVER_BUDGET follow the channels and the charges. -/
def State.holdUpdate (s : State) : State :=
  let live := s.liveChs
  let filled := live.foldl (fun a c => a + s.filledUsable c) 0
  let s1 := ((s.wr F.HOLD_STATUS_LIVE 0 live.length).wr F.HOLD_CORDS_USABLE_CORDS 0 (live.foldl (fun a c => a + ((s.hcOf c).cords - 16)) 0)).wr
    F.HOLD_CORDS_FILLED_CORDS 0 filled
  let ready := !live.isEmpty && live.all fun c => 17 ≤ (s.hcOf c).filled
  let short := decide (filled * 1048576 < s.rd F.HOLD_NEED_GB 0 * 10 ^ 9)
  ((s1.trackHold F.HOLD_STATUS_READY F.HOLD_EVENT_READY ready).trackHold F.HOLD_STATUS_SHORT F.HOLD_EVENT_READY short).trackHold
    F.HOLD_STATUS_OVER_BUDGET F.HOLD_EVENT_OVER_BUDGET (!s.budgetOk)

/-- The views of HOLD_BUDGET: CHARGED and B in 0.01 Tb/s (R280). -/
def State.budgetWord (s : State) : Nat :=
  s.holdCharge / 10 * 2 ^ 16 + 1000 * holdRate (s.rd F.HOLD_CFG_RATE 0) * holdN (s.rd F.HOLD_CFG_CHANNELS 0) / (8800 * 24)

/-! ### Training (R262 to R267) -/

/-- START: every declared channel trains, the others are UNUSED (R262, R267, R276). -/
def State.holdTrain (s : State) : State :=
  let n := holdN (s.rd F.HOLD_CFG_CHANNELS 0)
  let s1 := (List.range 24).foldl (fun t c =>
    (((t.setHc c HCh.init).wr F.HOLD_CH_STATUS_STATE c (if c < n then 1 else 5)).wr F.HOLD_CH_STATUS_CAUSE c 0).wr F.HOLD_CH_CNT_SOFT_REPAIRS_V c 0) s
  (((({ s1 with rotor := 0 }.wr F.HOLD_STATUS_STATE 0 1).put F.HOLD_STATUS_POLICY 0 false).wr F.HOLD_SCRUB_STATUS_PASSES 0 0).wr F.HOLD_SCRUB_STATUS_PROGRESS 0 0).holdUpdate

/-- A module capacity of Table 7-1, in GB. -/
def dimmSize (g : Nat) : Bool := g = 16 || g = 32 || g = 64 || g = 96 || g = 128

/-- The channels that trained since START, failed ones among them. -/
def State.trainedChs (s : State) : List Nat := (List.range 24).filter fun c => (s.hcOf c).trained

/-- The smallest capacity of the modules that trained. -/
def State.smallest (s : State) : Nat := (s.trainedChs.map fun c => s.rd F.HOLD_CH_DIMM_SIZE c).foldl min 255

/-- Every channel is used to the capacity of the smallest module that trained (R264). -/
def State.holdSizes (s : State) : State :=
  let g := s.smallest
  s.liveChs.foldl (fun t c =>
    (t.setHc c { t.hcOf c with cords := 1024 * g, filled := min (t.hcOf c).filled (1024 * g) }).wr F.HOLD_CH_DIMM_EXCESS c (t.rd F.HOLD_CH_DIMM_SIZE c - g)) s

/-- The store runs once no channel trains; the policy is fixed then: Compact up to 768 GB (R265, log entry 47). -/
def State.holdRuns (s : State) : State :=
  if (List.range 24).any fun c => s.rd F.HOLD_CH_STATUS_STATE c = 1 then s
  else (s.wr F.HOLD_STATUS_STATE 0 2).put F.HOLD_STATUS_POLICY 0
    (decide (768 < holdN (s.rd F.HOLD_CFG_CHANNELS 0) * s.smallest) && !s.trainedChs.isEmpty)

/-- A channel is failed with a cause (R262, R294, Table 14-4). -/
def State.chFail (s : State) (c cause : Nat) : State :=
  (((s.wr F.HOLD_CH_STATUS_STATE c 4).wr F.HOLD_CH_STATUS_CAUSE c cause).event F.HOLD_EVENT_CH_FAIL 0).errorLine 17 c cause

/-- The module organisation presence detect reports. -/
def State.dimmSet (s : State) (c size x8 ranks stack : Nat) : State :=
  (((s.wr F.HOLD_CH_DIMM_SIZE c size).wr F.HOLD_CH_DIMM_WIDTH c x8).wr F.HOLD_CH_DIMM_RANKS c ranks).wr F.HOLD_CH_DIMM_STACK c stack

/-- The training of a channel ends: cause 0, or 1 ABSENT, 2 SPD, 3 TRAIN, 4 MARGIN; a capacity outside Table 7-1 fails with SPD (R263, R267). -/
def execChannelTrained (c : Fin 24) (cause : Fin 5) (size : BitVec 8) (x8 : Bool) (ranks stack : Fin 3) (s : State) :
    Host.Outcome State Fault Refusal :=
  .next (if s.rd F.HOLD_CH_STATUS_STATE c = 1 then
    let k := if cause.val = 0 ∧ dimmSize size.toNat = false then 2 else cause.val
    let s1 := if k = 1 then s else s.dimmSet c size.toNat (bit x8) ranks stack
    let s2 := if k = 0 then ((s1.setHc c { s1.hcOf c with trained := true }).wr F.HOLD_CH_STATUS_STATE c 2).holdSizes else s1.chFail c k
    s.unlessReset s2 fun u => u.holdRuns.holdUpdate
  else s)

/-! ### Upkeep (R268) -/

def execZqCalibration (c : Fin 24) (s : State) : Host.Outcome State Fault Refusal :=
  .next (if s.chLive c then s.setHc c { s.hcOf c with zqAt := s.time } else s)

def execDqsOscillatorRead (c : Fin 24) (code : BitVec 16) (s : State) : Host.Outcome State Fault Refusal :=
  .next (if s.chLive c then s.setHc c { s.hcOf c with dqs := code.toNat } else s)

def execModuleTempRead (c : Fin 24) (temp : BitVec 8) (s : State) : Host.Outcome State Fault Refusal :=
  .next (if s.chLive c then s.wr F.HOLD_CH_STATUS_TEMP c temp.toNat else s)

def execHoldRefresh (c : Fin 24) (commands : BitVec 8) (s : State) : Host.Outcome State Fault Refusal :=
  .next (if s.chLive c then s.perfCh 6 c commands.toNat else s)

/-- The store is parked with its contents, by the power manager (R270) or the orderly stop, which parks a store in training too (R499). -/
def State.holdPark (s : State) : State :=
  if s.rd F.HOLD_STATUS_STATE 0 = 1 ∨ s.rd F.HOLD_STATUS_STATE 0 = 2 then
    ((List.range 24).filter fun c => s.chLive c).foldl (fun t c => (t.wr F.HOLD_CH_STATUS_STATE c 3).perfCh 7 c 1) (s.wr F.HOLD_STATUS_STATE 0 3)
  else s

/-- The store leaves self-refresh. -/
def State.holdUnpark (s : State) : State :=
  if s.rd F.HOLD_STATUS_STATE 0 = 3 then
    ((List.range 24).filter fun c => s.rd F.HOLD_CH_STATUS_STATE c = 3).foldl (fun t c => t.wr F.HOLD_CH_STATUS_STATE c 2) (s.wr F.HOLD_STATUS_STATE 0 2)
  else s

/-! ### Billets (R271 to R275, R288, R289, R296) -/

/-- The burst that holds byte `k` of a billet, and its subchannel (R272). -/
def burstOf (k : Nat) : Nat × Nat := (k / 128, k / 64 % 2)

/-- The number of a burst in HOLD_ERR_LOG: burst in [4:0], subchannel in [5]. -/
def burstCode (b : Nat × Nat) : Nat := b.1 + 32 * b.2

/-- The burst column of burst `j` of a billet in slot `k` of its row (R272). -/
def burstColumn (k j : Nat) : Nat := k * 32 + j

/-- The width in L of the slot field of channel `c`. -/
def State.slotBits (s : State) (c : Nat) : Nat := if s.on F.HOLD_CH_DIMM_WIDTH c then 1 else 2

/-- The DRAM row of billet `l` of channel `c` (Table 7-3). -/
def State.rowOf (s : State) (c l : Nat) : DRow :=
  let sl := s.slotBits c
  let rk := s.rd F.HOLD_CH_DIMM_RANKS c
  let st := s.rd F.HOLD_CH_DIMM_STACK c
  { bg := l % 8, bank := l / 8 % 4, rank := l / 2 ^ (5 + sl) % 2 ^ rk, lrank := l / 2 ^ (5 + sl + rk) % 2 ^ st, row := l / 2 ^ (5 + sl + rk + st) }

/-- The billet in slot `k` of a row of channel `c`. -/
def State.billetOf (s : State) (c : Nat) (r : DRow) (k : Nat) : Nat :=
  let sl := s.slotBits c
  let rk := s.rd F.HOLD_CH_DIMM_RANKS c
  let st := s.rd F.HOLD_CH_DIMM_STACK c
  r.bg + 8 * r.bank + 32 * (k % 2 ^ sl) + 2 ^ (5 + sl) * r.rank + 2 ^ (5 + sl + rk) * r.lrank + 2 ^ (5 + sl + rk + st) * r.row

/-- The billets of a row. -/
def State.rowBillets (s : State) (c : Nat) (r : DRow) : List Nat := (List.range (2 ^ s.slotBits c)).map fun k => s.billetOf c r k

/-- Billets of channel `c` that hold copies or are open for writing. -/
def State.inUse (s : State) (c : Nat) : List Nat :=
  ((s.held.flatMap fun h => h.billets) ++ (s.heldOpen.map fun o => (o.ch, o.l))).filterMap fun b => if b.1 = c then some b.2 else none

/-- Billets of channel `c` the allocator must not hand out. -/
def State.barred (s : State) (c : Nat) : List Nat := s.inUse c ++ (s.hcOf c).clinkers ++ (s.hcOf c).retest ++ (s.hcOf c).retired

/-- The lowest billet of `lo` to `hi - 1` not in `bad`. -/
def lowestFree (bad : List Nat) (lo hi : Nat) : Option Nat :=
  match (List.range (bad.length + 1)).find? fun k => !bad.contains (lo + k) with
  | some k => if lo + k < hi then some (lo + k) else none
  | none => none

/-- The lowest free billet of a filled usable cord of channel `c` that is not withdrawn (R274, R418). -/
def State.freeBillet (s : State) (c : Nat) : Option Nat :=
  let x := s.hcOf c
  if !s.chServes c then none
  else if x.withdrawn.isEmpty then lowestFree (s.barred c) 4096 (x.filled * 256)
  else (List.range x.filled).findSome? fun d => if d < 16 ∨ x.withdrawn.contains d = true then none else lowestFree (s.barred c) (256 * d) (256 * d + 256)

/-- The next billet in rotation over the LIVE channels (R274). -/
def State.nextBillet (s : State) : Option (Nat × Nat) :=
  (List.range 24).findSome? fun k =>
    let c := (s.rotor + k) % 24
    (s.freeBillet c).map fun l => (c, l)

/-! The maps of region 5 (Table 13-1): a word of the cord validity covers 64 cords of a channel, a word of the cached clinker map 64 billets (log entry 8). -/

/-- The word of the cord validity that covers a cord. -/
def cordWord (c d : Nat) : Nat := c * 2048 + d / 64

/-- The word of the clinker map cache that covers a billet. -/
def clinkerWord (c l : Nat) : Nat := 49152 + c * 524288 + l / 64

/-- The cached clinker map is consulted for billet (c, l); a word that is lost is loaded again from the map in the reserved cords. -/
def State.clinkerRead (s : State) (c l : Nat) : State :=
  let x := s.spanTake 5 (clinkerWord c l) 1
  if x.2 then x.1.spanWrite 5 (clinkerWord c l) 1 else x.1

/-- A mark of the clinker map changes, and with it less than a word of the cache: it is read first (R287, R420). -/
def State.cachePut (s : State) (c l : Nat) : State := (s.clinkerRead c l).spanWrite 5 (clinkerWord c l) 1

/-- The cord validity is consulted for the cord of billet (c, l); a word that is lost withdraws the filled cords it covers from allocation. -/
def State.cordRead (s : State) (c l : Nat) : State :=
  let d := l / 256
  let x := s.spanTake 5 (cordWord c d) 1
  if x.2 then
    s.unlessReset x.1 fun t =>
      let h := t.hcOf c
      let ds := ((List.range 64).map fun i => d / 64 * 64 + i).filter fun e => decide (16 ≤ e ∧ e < h.filled) && !h.withdrawn.contains e
      (t.setHc c { h with withdrawn := h.withdrawn ++ ds }).holdUpdate
  else x.1

/-- The allocator consults both maps for the billet a channel offers next, until it offers one whose cord stays (R274). -/
def State.mapsRead (s : State) (c : Nat) : Nat → State
  | 0 => s
  | fuel + 1 =>
    match s.freeBillet c with
    | none => s
    | some l =>
      let s1 := (s.clinkerRead c l).cordRead c l
      if (s1.hcOf c).withdrawn = (s.hcOf c).withdrawn then s1 else s1.mapsRead c fuel

/-- The allocator consults the maps on every channel. -/
def State.mapsScan (s : State) : State := (List.range 24).foldl (fun u c => u.mapsRead c 4) s

/-- The open billet of a function of a tunnel, when its channel serves accesses. -/
def State.openOf (s : State) (k : HeldKind) (t : Nat) : Option HeldOpen :=
  s.heldOpen.find? fun o => o.kind = k && o.tunnel = t && s.chServes o.ch

/-- The state with the open billet of a function replaced. -/
def State.setOpen (s : State) (o : HeldOpen) : State :=
  { s with heldOpen := (s.heldOpen.filter fun p => !(p.kind = o.kind && p.tunnel = o.tunnel)) ++ [o] }

/-- New billets for `n` bytes of SEQ `seq` of a function's stream; none when no billet is free. -/
def State.holdNew (s : State) (k : HeldKind) (t seq n : Nat) : Nat → List (Nat × Nat) → Option (State × List (Nat × Nat))
  | 0, _ => none
  | fuel + 1, got =>
    match s.nextBillet with
    | none => none
    | some (c, l) =>
      let m := min n 4096
      let s1 := ({ s with rotor := (c + 1) % 24 }.setOpen ⟨k, t, c, l, m, seq⟩).perfCh 0 c 1
      if n - m = 0 then some (s1, got ++ [(c, l)]) else s1.holdNew k t seq (n - m) fuel (got ++ [(c, l)])

/-- Billets for `n` bytes of SEQ `seq` of a function's stream: the rest of its open billet, when that keeps the SEQ order of the billet, then new ones
(R275); none when no billet is free. -/
def State.holdTake (s : State) (k : HeldKind) (t seq n : Nat) : Option (State × List (Nat × Nat)) :=
  match s.openOf k t with
  | some o =>
    if seq < o.last then s.holdNew k t seq n 8 []
    else
      let m := min n (4096 - o.used)
      let s1 := s.setOpen { o with used := o.used + m, last := if m = 0 then o.last else seq }
      if n - m = 0 then some (s1, [(o.ch, o.l)]) else s1.holdNew k t seq (n - m) 8 (if m = 0 then [] else [(o.ch, o.l)])
  | none => s.holdNew k t seq n 8 []

/-- Bytes of a bundle: header, ciphertext and tag. -/
def Bundle.size (b : Bundle) : Nat := 16 + b.body.length

/-- The index entry of a held copy (region 4 of Table 13-1): 0 retransmission, 1 alignment, 2 hold-back. -/
def indexOf (k : HeldKind) : Nat := match k with | .align => 1 | .holdback => 2 | _ => 0

/-- The word of the index entry of a held copy. -/
def entryWord (k : HeldKind) (t seq path : Nat) : Nat := Config.indexWord (indexOf k) t seq path % 2 ^ 24

/-- A copy is written to the store, and its index entry where its function has an index of region 4; none when no billet is available. -/
def State.holdStore (s : State) (k : HeldKind) (t seq path : Nat) (b : Bundle) (retxToo : Bool) : Option State :=
  match s.holdTake k t seq b.size with
  | none => none
  | some (s1, bs) =>
    let u := s1.dataPath 122
    let s2 := if k = .ride && !retxToo then u else u.spanWrite 4 (entryWord k t seq path) 1
    some { s2 with held := s2.held ++ [⟨k, t, seq, path, b, bs, retxToo, 0, [], s2.time, []⟩] }

/-- A held copy serves a function: a ride-through copy in Lossless serves as retransmission copy too (R326). -/
def Held.serves (h : Held) (k : HeldKind) : Bool := h.kind = k || (k = .retx && h.kind = .ride && h.retxToo)

/-- A number for the next loss of billets with the store, above those in use. -/
def State.lossNumber (s : State) : Nat := (s.held.flatMap fun h => h.gone).foldl (fun a g => max a g.1) 0 + 1

/-- Transmit functions: retransmission and ride-through. -/
def txKind (k : HeldKind) : Bool := k = .retx || k = .ride
/-- Receive functions: alignment and hold-back. -/
def rxKind (k : HeldKind) : Bool := k = .align || k = .holdback

/-- Reads of a tunnel's transmit or receive copies are abandoned. -/
def State.dropReads (s : State) (t : Nat) (p : HeldKind → Bool) : State :=
  { s with heldReads := s.heldReads.filter fun r => !(r.tunnel = t && p r.kind) }

/-- Why a held copy cannot be read: 0 when it can, otherwise the gap cause (R288, R296). -/
def State.copyLost (s : State) (h : Held) : Nat :=
  if h.lost ≠ 0 then h.lost
  else if h.billets.any fun b => s.chFailed b.1 then 2
  else if h.billets.any fun b => (s.hcOf b.1).clinkers.contains b.2 then 1
  else 0

/-- The billets a set of copies held that nothing holds any more. -/
def State.freedBy (s : State) (gone : List Held) : List (Nat × Nat) :=
  ((gone.flatMap fun h => h.billets).eraseDups).filter fun b => !s.held.any fun h => h.billets.contains b

/-- Billet `b` cannot be read: its channel has failed, or it is marked. -/
def State.billetBad (s : State) (b : Nat × Nat) : Bool := s.chFailed b.1 || (s.hcOf b.1).clinkers.contains b.2

/-- Lost copies are needed by a read or a resend request: their bad billets do not count as unused when they are freed (R289, R296). -/
def State.neededBy (s : State) (p : Held → Bool) : State :=
  let hs := s.held.filter p
  let lostOnes := hs.flatMap fun h => h.gone
  let s1 := { s with held := s.held.map fun h => { h with gone := h.gone.filter fun g => !lostOnes.contains g } }
  ((hs.flatMap fun h => h.billets).filter fun b => s.billetBad b).foldl (fun u b =>
    let x := u.hcOf b.1
    u.setHc b.1 { x with needed := x.needed.filter (fun l => l ≠ b.2) ++ [b.2] }) s1

/-- A billet is freed. A marked one is tested unless it is retired, and a retired one is marked (R289, R292). One that is marked or lies on a failed channel counts
as unused where its copies were released unread and nothing needed it (R289, R296). -/
def State.freeBilletOf (s : State) (unread : Bool) (b : Nat × Nat) : State :=
  let x := s.hcOf b.1
  let silent := unread && !x.needed.contains b.2
  let y := { x with needed := x.needed.filter fun l => l ≠ b.2 }
  let count (u : State) (f : Fld) : State := if silent then u.bump f 0 1 else u
  if s.chFailed b.1 then count (s.setHc b.1 y) F.HOLD_CNT_LOST_UNUSED_V
  else if x.clinkers.contains b.2 then
    count (s.setHc b.1 (if x.retired.contains b.2 then y else { y with retest := y.retest ++ [b.2] })) F.HOLD_CNT_CLINKER_UNUSED_V
  else if x.retired.contains b.2 then
    s.unlessReset (s.cachePut b.1 b.2) fun u =>
      ((u.setHc b.1 { y with clinkers := y.clinkers ++ [b.2] }).bump F.HOLD_CNT_CLINKERS_V 0 1).event F.HOLD_EVENT_CLINKER 0
  else s.setHc b.1 y

/-- The copies that satisfy `p` are released and their billets freed. -/
def State.holdRelease (s : State) (unread : Bool) (p : Held → Bool) : State :=
  let gone := s.held.filter p
  if gone.isEmpty then s
  else
    let s1 := { s with held := s.held.filter fun h => !p h }
    let s2 := { s1 with heldOpen := s1.heldOpen.filter fun o => s1.held.any fun h => h.billets.contains (o.ch, o.l) }
    let s3 := (s2.freedBy gone).foldl (fun t b => t.freeBilletOf unread b) s2
    let lostOnes := (gone.flatMap fun h => h.gone).eraseDups.filter fun g => !s1.held.any fun h => h.gone.contains g
    s2.unlessReset s3 fun u => if unread then u.bump F.HOLD_CNT_LOST_UNUSED_V 0 lostOnes.length else u

/-- The billets a function holds. -/
def State.billetsHeld (s : State) (p : HeldKind → Bool) : Nat := ((s.held.filter fun h => p h.kind).flatMap fun h => h.billets).eraseDups.length

/-! ### Correction (R282 to R287) -/

/-- HOLD_ERR_LOG takes an error: kind 1 corrected, 2 uncorrectable, 3 rank overflow, 4 row overflow. -/
def State.errLog (s : State) (c l burst kind : Nat) : State :=
  (((s.wr F.HOLD_ERR_LOG_LO_BILLET 0 l).wr F.HOLD_ERR_LOG_HI_BURST 0 burst).wr F.HOLD_ERR_LOG_HI_CHANNEL 0 c).wr F.HOLD_ERR_LOG_HI_KIND 0 kind

/-- A billet receives a clinker mark (R287). -/
def State.clinker (s0 : State) (c l : Nat) : State :=
  if (s0.hcOf c).clinkers.contains l then s0
  else s0.unlessReset (s0.cachePut c l) fun s =>
    let x := s.hcOf c
    let free := !(s.inUse c).contains l && decide (4096 ≤ l)
    ((s.setHc c { x with clinkers := x.clinkers ++ [l], retest := if free then x.retest ++ [l] else x.retest }).bump F.HOLD_CNT_CLINKERS_V 0 1).event
      F.HOLD_EVENT_CLINKER 0

/-- One more correction in a rank's bucket (Table 7-5). -/
def State.rankBucket (s : State) (c l burst : Nat) : State :=
  let x := s.hcOf c
  let r := (s.rowOf c l).rank
  let n := Amap.get 0 x.rankCnt r + 1
  let runs := if n = 1 then Amap.put natLt 0 x.rankAt r s.time else x.rankAt
  if max 1 (s.rd F.HOLD_BUCKET_CFG_RANK_DEPTH 0) < n then
    ((s.setHc c { x with rankCnt := Amap.put natLt 0 x.rankCnt r 0 }).errLog c l burst 3).event F.HOLD_EVENT_RANK_OVF 0
  else s.setHc c { x with rankCnt := Amap.put natLt 0 x.rankCnt r n, rankAt := runs }

/-- The row buckets without the entry that a new one replaces: the lowest count, the oldest on a tie. -/
def dropLowest (bs : List RowBucket) : List RowBucket :=
  match bs.foldl (fun a b => match a with | none => some b | some x => if b.count < x.count then some b else a) none with
  | some x => bs.filter fun b => b.row ≠ x.row
  | none => bs

/-- A row enters the candidate queue of its channel (Table 7-5). -/
def State.candidate (s : State) (c : Nat) (r : DRow) : State :=
  let x := s.hcOf c
  if 4 ≤ x.cands.length then s.bump F.HOLD_CNT_CAND_DROPPED_V 0 1
  else (s.setHc c { x with cands := x.cands ++ [r] }).event F.HOLD_EVENT_CANDIDATE 0

/-- One more correction in a row's bucket (Table 7-5, R286). -/
def State.rowBucket (s : State) (c l burst : Nat) : State :=
  let x := s.hcOf c
  let r := s.rowOf c l
  let full := s.on F.HOLD_STATUS_POLICY 0
  match x.rows.find? fun b => b.row = r with
  | none =>
    let kept := if x.rows.length < 32 then x.rows else dropLowest x.rows
    s.setHc c { x with rows := kept ++ [⟨r, 1, false, s.time⟩] }
  | some b =>
    let put (y : RowBucket) (rs : List DRow) : State :=
      s.setHc c { x with rows := x.rows.map (fun e => if e.row = r then y else e), rowScrub := x.rowScrub ++ rs }
    if max 1 (s.rd F.HOLD_BUCKET_CFG_ROW_DEPTH 0) < b.count + 1 then
      if full && !b.scrubbed then ((put { b with count := 0, scrubbed := true } [r]).errLog c l burst 4).event F.HOLD_EVENT_ROW_OVF 0
      else ((put { b with count := 0 } []).errLog c l burst 4).candidate c r
    else put { b with count := b.count + 1, leakAt := if b.count = 0 then s.time else b.leakAt } []

/-- A corrected burst: counted, in the buckets; under Compact it raises source 474 and is recorded (R284 to R286). -/
def State.corrected (s : State) (c l burst : Nat) : State :=
  let s1 := (s.bump F.HOLD_CH_CNT_CORRECTED_V c 1).perfCh 2 c 1
  let s2 := if s.on F.HOLD_STATUS_POLICY 0 then s1 else (s1.errLog c l burst 1).irq 474
  (s2.rankBucket c l burst).rowBucket c l burst

/-- An uncorrectable burst: counted, recorded, its billet marked (R287); it counts towards the failure of the channel (R294). -/
def State.uncorrected (s : State) (c l burst : Nat) : State :=
  let s1 := s.setHc c { s.hcOf c with ueAt := ((s.hcOf c).ueAt.filter fun e => decide (s.time ≤ e.1 + 25000)) ++ [(s.time, l)] }
  (((s1.bump F.HOLD_CH_CNT_UNCORRECTABLE_V c 1).perfCh 3 c 1).errLog c l burst 2).clinker c l

/-- Uncorrectable errors on four or more distinct billets of channel `c` within 10 µs (R294). -/
def State.ueMany (s : State) (c : Nat) : Bool :=
  decide (4 ≤ (((s.hcOf c).ueAt.filter fun e => decide (s.time ≤ e.1 + 25000)).map Prod.snd).eraseDups.length)

/-- The billets of filled cords of channel `c`. -/
def State.filledBillets (s : State) (c : Nat) : Nat := (s.hcOf c).filled * 256

/-- How an access to a billet completes (R278, R288, R295): with its data, with zeros, CLINKER, CHANNEL_LOST, NOT_FILLED. -/
inductive HoldDone where
  | good | zeros | clinker | channelLost | notFilled
  deriving DecidableEq, Repr

/-- The completion of a demand read of billet (c, l). -/
def State.readDone (s : State) (c l : Nat) : HoldDone :=
  if s.chFailed c then .channelLost
  else if s.filledBillets c ≤ l then .zeros
  else if (s.hcOf c).clinkers.contains l then .clinker
  else .good

/-- The completion of a write to billet (c, l) by the controller. -/
def State.writeDone (s : State) (c l : Nat) : HoldDone :=
  if s.chFailed c then .channelLost else if s.filledBillets c ≤ l then .notFilled else .good

/-- A burst read from DRAM: its number (subchannel in bit 5) and its erroneous symbols of 80 (R427). -/
abbrev BurstRead := Fin 64 × List (Fin 80)

/-- RS(80,64) corrects any 8 symbols of a burst; more are uncorrectable (R427; miscorrection, log entry 47). -/
def burstBad (syms : List (Fin 80)) : Bool := decide (8 < syms.eraseDups.length)

/-- The errors a read of a billet found. A read of a billet in an unfilled cord returns zeros with good status and does not access DRAM (R278). -/
def State.burstErrors (s : State) (c l : Nat) (errs : List BurstRead) : State :=
  if s.filledBillets c ≤ l then s
  else errs.foldl (fun t e => if e.2.isEmpty ∨ t.resets ≠ s.resets then t else if burstBad e.2 then t.uncorrected c l e.1 else t.corrected c l e.1) s

/-- Command, address or write CRC retries. -/
def State.retries (s : State) (c n : Nat) : State := (s.bump F.HOLD_CH_CNT_RETRIES_V c n).perfCh 4 c n

/-! ### Scrubbing (R282) -/

/-- PROGRESS and, when every live channel is done, the end of the pass. -/
def State.scrubPass (s : State) : State :=
  let live := s.liveChs
  if live.all fun c => decide ((s.hcOf c).scrubAt = 0) then s
  else if live.all fun c => s.filledBillets c ≤ (s.hcOf c).scrubAt then
    (live.foldl (fun t c => t.setHc c { t.hcOf c with scrubAt := 0 }) s).bumpWrap F.HOLD_SCRUB_STATUS_PASSES 0 1 |>.wr F.HOLD_SCRUB_STATUS_PROGRESS 0 0
  else
    let done := live.foldl (fun a c => a + min (s.filledBillets c) (s.hcOf c).scrubAt) 0
    let all := live.foldl (fun a c => a + s.filledBillets c) 0
    s.wr F.HOLD_SCRUB_STATUS_PROGRESS 0 (done * 1000 / max 1 all)

/-- The leak intervals of Table 7-5 in units of device time: RANK_LEAK in 0.1 s, ROW_LEAK in 1 s; 0 acts as 1. -/
def State.rankLeak (s : State) : Nat := max 1 (s.rd F.HOLD_BUCKET_CFG_RANK_LEAK 0) * 250000000
def State.rowLeak (s : State) : Nat := max 1 (s.rd F.HOLD_BUCKET_CFG_ROW_LEAK 0) * 2500000000

/-- A leak interval of a rank's bucket has passed; the intervals run from the bucket's first correction (log entry 47). -/
def execRankBucketLeak (c : Fin 24) (rank : Fin 4) (s : State) : Host.Outcome State Fault Refusal :=
  .next (
    let x := s.hcOf c
    let n := Amap.get 0 x.rankCnt rank.val
    let t := Amap.get 0 x.rankAt rank.val + s.rankLeak
    if n = 0 ∨ s.time < t then s
    else s.setHc c { x with rankCnt := Amap.put natLt 0 x.rankCnt rank.val (n - 1), rankAt := Amap.put natLt 0 x.rankAt rank.val t })

/-- The same for a row's bucket. -/
def execRowBucketLeak (c : Fin 24) (entry : Fin 32) (s : State) : Host.Outcome State Fault Refusal :=
  .next (
    let x := s.hcOf c
    match x.rows[entry.val]? with
    | none => s
    | some b =>
      if b.count = 0 ∨ s.time < b.leakAt + s.rowLeak then s
      else s.setHc c { x with rows := x.rows.set entry.val { b with count := b.count - 1, leakAt := b.leakAt + s.rowLeak } })

/-- The errors a read of a row of channel `c` found, by slot. -/
def State.rowErrors (s : State) (c : Nat) (r : DRow) (errs : List (Fin 4 × BurstRead)) : State :=
  errs.foldl (fun t e => if e.1.val < 2 ^ t.slotBits c then t.burstErrors c (t.billetOf c r e.1) [e.2] else t) s

/-- A freed marked billet is written with zeros and read back (R289). The write to a billet in an unfilled cord completes NOT_FILLED and is not performed
(R278). -/
def execClinkerRetest (c : Fin 24) (clean : Bool) (s : State) : Host.Outcome State Fault Refusal :=
  .next (
    let x := s.hcOf c
    match x.retest with
    | l :: rest =>
      if s.chServes c then
        if s.writeDone c l ≠ .good then s
        else if clean then s.unlessReset (s.cachePut c l) fun u => u.setHc c { x with retest := rest, clinkers := x.clinkers.filter fun k => k ≠ l }
        else s.setHc c { x with retest := rest, retired := x.retired ++ [l] }
      else s
    | [] => s)

/-! ### Repair (R290 to R293) -/

/-- The row HOLD_PPR_ROW names. -/
def State.pprRow (s : State) : DRow :=
  { rank := s.rd F.HOLD_PPR_ROW_RANK 0, lrank := s.rd F.HOLD_PPR_ROW_LRANK 0, bg := s.rd F.HOLD_PPR_ROW_BG 0, bank := s.rd F.HOLD_PPR_ROW_BANK 0,
    row := s.rd F.HOLD_PPR_ROW_ROW 0 }

/-- A write of HOLD_PPR_CMD (R290, R293). -/
def State.pprWrite (s : State) (v : Nat) : State × Status :=
  let c := F.HOLD_PPR_CMD_CHANNEL.of v
  let hard := F.HOLD_PPR_CMD_HARD.of v = 1
  let q := F.HOLD_PPR_CMD_FROM_QUEUE.of v = 1
  let x := s.hcOf c
  if s.on F.HOLD_PPR_STATUS_BUSY 0 || 24 ≤ c || !s.chLive c || (hard && s.service) || (q && x.cands.isEmpty) then (s, .refusedState)
  else
    let row := if q then x.cands.headD s.pprRow else s.pprRow
    let s1 := if q then s.setHc c { x with cands := x.cands.drop 1 } else s
    ({ s1 with repair := some ⟨c, row, hard⟩ }.put F.HOLD_PPR_STATUS_BUSY 0 true, .ok)

/-- The value a repair command writes. -/
def pprValue (channel : Nat) (fromQueue hard : Bool) : Nat := 512 * bit fromQueue + 256 * bit hard + channel

def execSoftRepairRequest (ag : Agent) (channel : BitVec 5) (fromQueue : Bool) (s : State) : Host.Outcome State Fault Refusal :=
  .next (s.writing ag .HOLD_PPR_CMD 0 (pprValue channel.toNat fromQueue false) fun t => t.pprWrite (pprValue channel.toNat fromQueue false))

def execHardRepair (ag : Agent) (channel : BitVec 5) (fromQueue : Bool) (s : State) : Host.Outcome State Fault Refusal :=
  .next (s.writing ag .HOLD_PPR_CMD 0 (pprValue channel.toNat fromQueue true) fun t => t.pprWrite (pprValue channel.toNat fromQueue true))

/-- A row that was not repaired: its billets are retired, marked now or when freed (R292). -/
def State.retireRow (s : State) (c : Nat) (r : DRow) : State :=
  (s.rowBillets c r).foldl (fun t l =>
    if t.resets ≠ s.resets then t else
    let x := t.hcOf c
    let t1 := t.setHc c { x with retired := x.retired ++ [l] }
    if (t.inUse c).contains l then t1 else t1.freeBilletOf false (c, l)) s

/-- A repair ends with a result: 1 OK, 2 NO_RESOURCE, 3 FAILED, 4 NO_WINDOW (R292). -/
def State.repairEnd (s : State) (r : Repair) (result : Nat) : State :=
  let s1 := ((({ s with repair := none }.put F.HOLD_PPR_STATUS_BUSY 0 false).wr F.HOLD_PPR_STATUS_RESULT 0 result).event F.HOLD_EVENT_PPR_DONE 0)
  if result = 1 then (if r.hard then s1 else (s1.bump F.HOLD_CH_CNT_SOFT_REPAIRS_V r.ch 1).perfCh 5 r.ch 1) else s1.retireRow r.ch r.row

/-- The same for a soft repair, which the event journal records (R292). -/
def State.softEnd (s : State) (r : Repair) (result : Nat) : State :=
  (s.repairEnd r result).journalAdd 2 [r.ch, r.row.rank, r.row.lrank, r.row.bg, r.row.bank, r.row.row, result]

/-- A repair window can open on channel `c`: its queues are empty and the free budget covers B ÷ N (R291). -/
def State.windowOpens (s : State) (c : Nat) : Bool :=
  !s.ddrCapped && s.chLive c && !(s.heldReads.any fun r => r.left.any fun b => b.1 = c) && !s.on F.HOLD_STATUS_OVER_BUDGET 0 &&
    let n := holdN (s.rd F.HOLD_CFG_CHANNELS 0)
    decide (s.chargeNow * s.budget.2 * n + 1000 * s.budget.1 ≤ 1000 * s.budget.1 * n)

/-- No window opened within 100 ms (R291). -/
def execRepairNoWindow (s : State) : Host.Outcome State Fault Refusal :=
  .next (match s.repair with
    | some r => if r.hard then s else s.softEnd r 4
    | none => s)

/-- A hard repair ends (R293). -/
def execHardRepairDone (result : Fin 3) (s : State) : Host.Outcome State Fault Refusal :=
  .next (match s.repair with
    | some r => if r.hard then s.repairEnd r (result.val + 1) else s
    | none => s)

/-! ### Registers (R298) -/

/-- A write of HOLD_CFG: a change only in state OFF, under the budget (R26, R269). -/
def State.holdCfgWrite (s : State) (v : Nat) : State × Status :=
  let t := ((s.wr F.HOLD_CFG_RATE 0 (F.HOLD_CFG_RATE.of v)).wr F.HOLD_CFG_CHANNELS 0 (F.HOLD_CFG_CHANNELS.of v)).wr F.HOLD_CFG_SSC 0 (F.HOLD_CFG_SSC.of v)
  if 6 ≤ F.HOLD_CFG_RATE.of v then (s, .refusedState)
  else if t.regs = s.regs then (s, .ok)
  else if s.rd F.HOLD_STATUS_STATE 0 ≠ 0 then (s, .refusedState)
  else
    let r := s.commit t
    (if r.2 = .ok then r.1.holdUpdate else r.1, r.2)

/-- A write of HOLD_NEED (R279). -/
def State.holdNeedWrite (s : State) (v : Nat) : State × Status := ((s.wr F.HOLD_NEED_GB 0 v).holdUpdate, .ok)

/-- Writes of the store's registers other than HOLD_CTL. -/
def State.holdWrite (s : State) (r : Reg) (v : Nat) : Option (State × Status) :=
  match r with
  | .HOLD_CFG => some (s.holdCfgWrite v)
  | .HOLD_NEED => some (s.holdNeedWrite v)
  | .HOLD_PPR_CMD => some (s.pprWrite v)
  | _ => none

/-- Reads of the store's registers that are views. -/
def State.holdRead (s : State) (r : Reg) : Option Nat :=
  match r with
  | .HOLD_BUDGET => some s.budgetWord
  | .HOLD_OCC_RETX => some (s.billetsHeld (fun k => k = .retx) / 256)
  | .HOLD_OCC_ALIGN => some (s.billetsHeld (fun k => k = .align || k = .holdback) / 256)
  | .HOLD_OCC_RIDE => some (s.billetsHeld (fun k => k = .ride) / 256)
  | _ => none

end Sys2Proof.Machine
end

