-- ==== Sys2Proof/Machine/Crypto.lean ====
section
/-!
DEFINITION. Keys and encryption (R231, R235, R239 to R253): bundle headers, key slots and their loading, pipelines, tunnel states, control bundles.
-/

namespace Sys2Proof.Machine

/-! ### 64-bit tallies (Table 13-2) -/

/-- The next transmit SEQ of tunnel `t`. -/
def State.txSeq (s : State) (t : Nat) : Nat := s.rd F.TUN_TX_SEQ_LO_SEQ t + s.rd F.TUN_TX_SEQ_HI_SEQ t * 2 ^ 32

/-- Set it, all three copies together (R428). -/
def State.setTxSeq (s : State) (t v : Nat) : State :=
  ((s.wr F.TUN_TX_SEQ_LO_SEQ t v).wr F.TUN_TX_SEQ_HI_SEQ t (v / 2 ^ 32)).tvWrite (tvTx t)

/-- D of tunnel `t`. -/
def State.rxD (s : State) (t : Nat) : Nat := s.rd F.TUN_RX_DEL_LO_D t + s.rd F.TUN_RX_DEL_HI_D t * 2 ^ 32

/-- Set D. -/
def State.setRxD (s : State) (t v : Nat) : State :=
  ((s.wr F.TUN_RX_DEL_LO_D t v).wr F.TUN_RX_DEL_HI_D t (v / 2 ^ 32)).tvWrite (tvRxDel t)

/-- H of tunnel `t`. -/
def State.rxH (s : State) (t : Nat) : Nat := s.rd F.TUN_RX_HIGH_LO_H t + s.rd F.TUN_RX_HIGH_HI_H t * 2 ^ 32

/-- Set H. -/
def State.setRxH (s : State) (t v : Nat) : State :=
  ((s.wr F.TUN_RX_HIGH_LO_H t v).wr F.TUN_RX_HIGH_HI_H t (v / 2 ^ 32)).tvWrite (tvRxHigh t)

/-! ### Key slots (R242, R247, R248, R252) -/

/-- The slot of a tunnel direction (0 transmit, 1 receive) in a state (2 CURRENT, 3 NEXT). -/
def State.slotOf (s : State) (t dir st : Nat) : Option Nat :=
  (List.range 128).find? fun k => s.rd F.KEY_DESC_STATE k = st && s.rd F.KEY_DESC_TUNNEL k = t && s.rd F.KEY_DESC_DIR k = dir

/-- The slot of a tunnel direction with a KEY_PHASE. -/
def State.slotPhase (s : State) (t dir phase : Nat) : Option Nat :=
  match s.slotOf t dir 2 with
  | some k => if s.rd F.KEY_DESC_PHASE k = phase then some k else s.slotOf t dir 3
  | none => none

/-- The key of a slot. -/
def State.slotKey (s : State) (k : Nat) : List Nat := (s.ldRun .keySlot (16 * k) 8).flatMap (bytesBe 4)

/-- The salt of a slot. -/
def State.slotSalt (s : State) (k : Nat) : Nat := s.ld .keySlot (16 * k + 8)

/-- The 64-bit word `j`, 0 to 4, of a slot: two words of its key, or its salt (log entry 8). -/
def State.slotWord (s : State) (k j : Nat) : Nat := s.ld .keySlot (16 * k + 2 * j) + s.ld .keySlot (16 * k + 2 * j + 1) * 2 ^ 32

/-- A slot's words are read (R418, R425): each as it decodes, which a miscorrection leaves stored, or a word is lost. -/
def State.slotRead (s : State) (k : Nat) : State × Bool × List Line :=
  let x := (s.spanWords 8 (8 * k) 5).foldl (fun (a : State × Bool × List Line) w =>
    let i := 2 * w
    let r := a.1.memReadL 8 w (a.1.slotWord k (w - 8 * k))
    (match r.2.1 with
      | .good v => ((r.1.st .keySlot i v).st .keySlot (i + 1) (v / 2 ^ 32)).setMarkOn 8 w 0 (r.1.markOf 8 w 0).1 (r.1.markOf 8 w 0).2 0
      | .bad => r.1, a.2.1 || r.2.1 = .bad, a.2.2 ++ r.2.2)) (s, false, [])
  (x.1, x.2.1 || s.spanWithheld 8 (8 * k) 5, x.2.2)

/-- All words of a slot are written (R420). -/
def State.slotWrote (s : State) (k : Nat) : State := s.spanWrite 8 (8 * k) 5

/-- Write a slot's descriptor, all three copies together. -/
def State.setDesc (s : State) (k tunnel dir phase st : Nat) : State :=
  ((((s.wr F.KEY_DESC_TUNNEL k tunnel).wr F.KEY_DESC_DIR k dir).wr F.KEY_DESC_PHASE k phase).wr F.KEY_DESC_STATE k st).tvWrite (tvKey k)

/-- A slot is overwritten and EMPTY. -/
def State.slotWipe (s : State) (k : Nat) : State :=
  { ((s.clearMem .keySlot fun i => i / 16 = k).slotWrote k).setDesc k 0 0 0 0 with slotUse := Amap.erase s.slotUse k }

/-! ### Tunnel states (R219) -/

/-- The state of the transmit direction: 0 OFF, 1 BLOCKED, 2 RUN. -/
def State.txStateNow (s : State) (t : Nat) : Nat :=
  if !s.on F.TUN_CFG_TX_EN t then 0 else if (s.slotOf t 0 2).isNone then 1 else 2

/-- The state of the receive direction. -/
def State.rxStateNow (s : State) (t : Nat) : Nat :=
  if !s.on F.TUN_CFG_RX_EN t then 0 else if (s.slotOf t 1 2).isNone || s.on F.TUN_STATUS_RESYNC t then 1 else 2

/-- A status field takes a value; a change sets its event. -/
def State.trackVal (s : State) (f ev : Fld) (i v : Nat) : State := if s.rd f i = v then s else (s.wr f i v).event ev i

/-- The KEY_PHASE of a direction's CURRENT slot; 0 with none. -/
def State.curPhase (s : State) (t dir : Nat) : Nat := match s.slotOf t dir 2 with | some k => s.rd F.KEY_DESC_PHASE k | none => 0

/-- The key use of the transmit CURRENT slot, in units of 65,536 (R242). -/
def State.txUse (s : State) (t : Nat) : Nat := match s.slotOf t 0 2 with | some k => Amap.get 0 s.slotUse k / 65536 | none => 0

/-- Bytes in a queue of frames. -/
def queueBytes (q : List (List Nat × Bool)) : Nat := q.foldl (fun a f => a + f.1.length) 0

/-- The client of tunnel `t` may send again. -/
def State.pauseEnd (s : State) (t : Nat) : State :=
  let p := s.rd F.TUN_CFG_PORT t
  (s.setTtx t { s.ttx t with paused := false, pfc := false }).emit (if (s.ttx t).pfc then .pfc p false else .pause p false)

/-- PAUSE to the client follows the ingress queue (R230); in ENFORCE whatever PAUSE_EN holds, and as priority flow control with PFC = 1 (R498). From the
orderly stop on it lasts (R499). -/
def State.pauseCheck (s : State) (t : Nat) : State :=
  let x := s.ttx t
  let n := queueBytes x.ingress
  let p := s.rd F.TUN_CFG_PORT t
  if !x.paused && decide (196608 < n) && (s.on F.TUN_CFG_PAUSE_EN t || s.enforcing) then
    let pfc := s.enforcing && s.on F.THERM_DAMPER_PFC 0
    (s.setTtx t { x with paused := true, pfc := pfc }).emit (if pfc then .pfc p true else .pause p true)
  else if x.paused && decide (n < 131072) && !s.stopping then s.pauseEnd t
  else s

/-- Client frames not wholly encrypted yet: those in the ingress queue and those that end in the stream or in a bundle in encryption. -/
def TunTx.frames (x : TunTx) : Nat := x.ingress.length + x.crypto.foldl (fun a e => a + e.2.2) (x.closed.foldl (fun a c => a + c.ends) x.ends)

/-- The transmit direction without what it has not encrypted yet. -/
def TunTx.emptied (x : TunTx) : TunTx := { x with ingress := [], plain := [], first := none, ends := 0, closed := [] }

/-- The client frames that a transmit direction leaving RUN still holds are discarded and counted (R219), those of bundles in encryption too when its key is
gone; the PAUSE they caused ends (R230). -/
def State.txBlock (s : State) (t : Nat) : State :=
  let keyed := (s.slotOf t 0 2).isSome
  let x := s.ttx t
  let gone := if keyed then { x with crypto := [] } else x
  let s1 := (s.setTtx t { x.emptied with crypto := if keyed then x.crypto else [] }).pauseCheck t
  if gone.frames = 0 then s1 else (s1.bump F.TUN_CNT_DROP_BLOCKED_V t gone.frames).perfTun 14 t gone.frames

/-- Data bundles that a BLOCKED receive direction discards are counted (R219). -/
def State.bundlesBlocked (s : State) (t n : Nat) : State := if n = 0 then s else (s.bump F.TUN_CNT_DROP_BLOCKED_V t n).perfTun 14 t n

/-- Copies that wait in the merge of a receive direction without a current key are discarded and counted (R219). -/
def State.rxBlock (s : State) (t : Nat) : State :=
  let p := s.protT t
  let s1 := s.setProt t { p with copies := [], decrypting := none }
  ((s1.dropReads t rxKind).holdRelease true fun h => h.tunnel = t && rxKind h.kind).bundlesBlocked t p.copies.length

/-- TUN_STATUS follows the enables, the slots and RESYNC. -/
def State.tunState (s : State) (t : Nat) : State :=
  let s1 := if s.txStateNow t ≠ 2 && s.rd F.TUN_STATUS_TX_STATE t = 2 then s.txBlock t else s
  let s2 := if (s1.slotOf t 1 2).isNone && !(s1.protT t).copies.isEmpty then s1.rxBlock t else s1
  (((((s2.wr F.TUN_STATUS_TX_PHASE t (s2.curPhase t 0)).wr F.TUN_STATUS_RX_PHASE t (s2.curPhase t 1)).wr F.TUN_TX_USE_USE t (s2.txUse t)).trackVal
    F.TUN_STATUS_TX_STATE F.TUN_EVENT_TX_STATE t (s2.txStateNow t)).trackVal F.TUN_STATUS_RX_STATE F.TUN_EVENT_RX_STATE t (s2.rxStateNow t))

/-- A slot is zeroised; only the direction that used it blocks (R252). -/
def State.slotZero (s : State) (k : Nat) : State :=
  let t := s.rd F.KEY_DESC_TUNNEL k
  let st := s.rd F.KEY_DESC_STATE k
  let s1 := s.slotWipe k
  if st = 2 ∨ st = 3 then s1.tunState t else s1

/-- A slot is about to serve: its words are read; with one lost the slot is zeroised and EMPTY, its direction blocks, and the key unit's line rises beside that of
the memory (Table 13-1, region 8). The answer says whether it serves. -/
def State.slotTake (s : State) (k : Nat) : State × Bool :=
  let x := s.slotRead k
  if x.2.1 then ((x.1.slotZero k).errorLines (x.2.2 ++ [(15, 0, 0)]), false) else (x.1.errorLines x.2.2, true)

/-- The same where the surroundings have upset a word of the slot first. -/
def State.slotTakeUpset (s : State) (k : Nat) (slotUpset : Bool) : State × Bool :=
  (if slotUpset then s.setMark 8 (8 * k) 0 3 0 else s).slotTake k

/-- The slots of a tunnel direction are zeroised. -/
def State.slotsZero (s : State) (t dir : Nat) : State :=
  ((List.range 128).filter fun k => (s.rd F.KEY_DESC_STATE k = 2 || s.rd F.KEY_DESC_STATE k = 3) && s.rd F.KEY_DESC_TUNNEL k = t &&
    s.rd F.KEY_DESC_DIR k = dir).foldl (fun u k => u.slotZero k) s

/-- A slot leaves NEXT and becomes CURRENT; the old one is zeroised (Table 6-6). -/
def State.keyPromote (s : State) (t dir : Nat) : State :=
  let s1 := match s.slotOf t dir 2 with | some k => s.slotWipe k | none => s
  let s2 := match s1.slotOf t dir 3 with
    | some k => s1.setDesc k t dir (s1.rd F.KEY_DESC_PHASE k) 2
    | none => s1
  s2.tunState t

/-- KEY_STAGE is cleared. -/
def State.stageClear (s : State) : State := (List.range 12).foldl (fun t i => t.wr F.KEY_STAGE_DATA i 0) s

/-- Every slot and KEY_STAGE are overwritten (R252, R253). -/
def State.keysZero (s : State) : State :=
  let s1 := ((List.range 128).foldl (fun t k => t.slotWipe k) s).stageClear
  (List.range 24).foldl (fun t k => t.tunState k) s1

/-! ### Critical words of the tunnels (Table 13-3, R254) -/

/-- The vote of a key descriptor: unvotable, the slot is EMPTY and overwritten. -/
def State.voteKey (s : State) (k : Nat) : State := s.tvVote (tvKey k) fun t => t.slotZero k

/-- The vote of a transmit tally: unvotable, both transmit slots are zeroised and a gap follows the rekey. -/
def State.voteTx (s : State) (t : Nat) : State :=
  s.tvVote (tvTx t) fun u => (u.slotsZero t 0).setTtx t { (u.slotsZero t 0).ttx t with tallyLost := true }

/-- The receive direction resynchronises (R254). -/
def State.resync (s : State) (t : Nat) : State := ((s.put F.TUN_STATUS_RESYNC t true).event F.TUN_EVENT_RESYNC t).tunState t

/-- The votes of the receive tallies. -/
def State.voteRx (s : State) (t : Nat) : State :=
  (s.tvVote (tvRxDel t) fun u => u.resync t).tvVote (tvRxHigh t) fun u => u.resync t

/-- The descriptors of a tunnel direction's slots are voted. -/
def State.voteSlots (s : State) (t dir : Nat) : State :=
  ((s.slotOf t dir 2).toList ++ (s.slotOf t dir 3).toList).foldl (fun u k => u.voteKey k) s

/-- The tallies and the descriptors of a tunnel are voted before it works with them. -/
def State.voteTun (s : State) (t : Nat) : State := ((((s.voteTx t).voteSlots t 0).voteRx t).voteSlots t 1)

/-! ### Bundles (R231, R234, R239, R240) -/

/-- Header bytes 0 to 2 and 4 to 15 of a bundle with `len` plaintext bytes, the additional data of R239. -/
def Bundle.aad (b : Bundle) (len : Nat) : List Nat :=
  [if b.ctrl then 0xB2 else 0xB1, 0x10 + b.phase, b.tunnel] ++ bytesBe 2 len ++ bytesBe 2 b.first ++ bytesBe 8 b.seq

/-- The initialisation vector (R240). -/
def Bundle.iv (b : Bundle) (salt : Nat) : List Nat := bytesBe 4 (if b.ctrl then Nat.xor salt 0x80000000 else salt) ++ bytesBe 8 b.seq

/-- The bundle encrypted under a slot: ciphertext and tag stand in place of the plaintext. -/
def State.seal (s : State) (k : Nat) (b : Bundle) : Bundle :=
  let x := gcmSeal (s.slotKey k) (b.iv (s.slotSalt k)) (b.aad b.body.length) b.body
  { b with body := x.1 ++ x.2 }

/-- The plaintext of an encrypted bundle, when its tag verifies under a slot. -/
def State.unseal (s : State) (k : Nat) (b : Bundle) : Option (List Nat) :=
  let n := b.body.length - 16
  gcmOpen (s.slotKey k) (b.iv (s.slotSalt k)) (b.aad n) (b.body.take n) (b.body.drop n)

/-- The bytes of an encrypted bundle as sent on path `x` (Table 6-2). -/
def Bundle.bytes (b : Bundle) (x : Nat) : List Nat :=
  [if b.ctrl then 0xB2 else 0xB1, 0x10 + b.phase, b.tunnel, x + 2 * bit b.resent] ++ bytesBe 2 (b.body.length - 16) ++ bytesBe 2 b.first ++ bytesBe 8 b.seq ++
    b.body

/-- One more bundle encrypted under slot `k`: KEY_NEAR, and at the limit the slot leaves CURRENT (R242). -/
def State.keyUse (s : State) (t k : Nat) : State :=
  let n := Amap.get 0 s.slotUse k + 1
  let lim := clampNat 32 48 (s.rd F.KEY_LIMIT_LOG2 0)
  let s1 := { s with slotUse := Amap.put natLt 0 s.slotUse k n }
  let s2 := s1.eventIf (n = 2 ^ (lim - 1)) F.TUN_EVENT_KEY_NEAR t
  if 2 ^ lim ≤ n then s2.slotZero k else s2.tunState t

/-- A write of KEY_LIMIT: a current transmit slot whose count the new limit meets is at that limit (R242). -/
def State.keyLimitWrite (s : State) (v : Nat) : State :=
  let old := clampNat 32 48 (s.rd F.KEY_LIMIT_LOG2 0)
  let new := clampNat 32 48 (F.KEY_LIMIT_LOG2.of v)
  (List.range 24).foldl (fun u t =>
    match u.slotOf t 0 2 with
    | none => u
    | some k =>
      let n := Amap.get 0 u.slotUse k
      let u1 := u.eventIf (decide (2 ^ (new - 1) ≤ n ∧ n < 2 ^ (old - 1))) F.TUN_EVENT_KEY_NEAR t
      if 2 ^ new ≤ n then u1.slotZero k else u1) (s.wr F.KEY_LIMIT_LOG2 0 (F.KEY_LIMIT_LOG2.of v))

/-- A control bundle with a message is encrypted at once under the current key and waits for its placement (R235, R301). -/
def State.sendCtrl (s0 : State) (t msg ref : Nat) (fields : List Nat) : State :=
  s0.unlessReset (s0.voteSlots t 0) fun s =>
  match s.slotOf t 0 2 with
  | none => s
  | some k =>
    let y := s.slotTake k
    if !s.on F.TUN_CFG_TX_EN t then s
    else if !y.2 || y.1.resets ≠ s.resets then y.1
    else
      let x := y.1.ttx t
      let b : Bundle :=
        { ctrl := true, tunnel := t, phase := s.rd F.KEY_DESC_PHASE k, seq := x.ctrlSeq, first := 0
          body := [msg, ref] ++ bytesBe 2 fields.length ++ fields, resent := false }
      let s1 := y.1.setTtx t { x with ctrlSeq := x.ctrlSeq + 1 }
      let p := s1.protT t
      let kept := p.smokeSeq.filter fun n => p.ctrlQ.any fun c => c.seq = n
      let marked := if msg = 3 ∨ 0x10 ≤ msg then kept ++ [x.ctrlSeq] else kept
      (s1.setProt t { p with ctrlQ := p.ctrlQ ++ [y.1.seal k b], smokeSeq := marked }).keyUse t k

/-- A GAP message is sent. -/
def State.sendGap (s : State) (t first count cause : Nat) : State :=
  s.sendCtrl t 0x03 0 (bytesBe 8 first ++ bytesBe 4 count ++ [cause, 0, 0, 0])

/-- A direction whose tally was lost declares the gap of cause 5 as soon as it can send after the rekey: SEQ 1 stands for the lost ones (R254). -/
def State.tallyGap (s : State) (t : Nat) : State :=
  let x := s.ttx t
  if x.tallyLost && decide (s.txStateNow t = 2) then (s.setTtx t { x with tallyLost := false }).sendGap t 1 1 5 else s

/-! ### Loading keys (R248 to R250) -/

/-- The staged bytes. -/
def State.staged (s : State) (words : Nat) : List Nat := ((List.range words).map fun i => s.rd F.KEY_STAGE_DATA i).flatMap (bytesBe 4)

/-- Key and salt are stored in a slot. -/
def State.keyStore (s : State) (k : Nat) (key : List Nat) (salt : Nat) : State :=
  ((s.stRun .keySlot (16 * k) ((List.range 8).map fun i => numBe ((key.drop (4 * i)).take 4))).st .keySlot (16 * k + 8) salt).slotWrote k

/-- A new current key restarts the sequences of its direction (R235, R241, R246). A transmit direction whose tally was lost goes on from SEQ 2 (R254). -/
def State.rekeyed (s : State) (t dir : Nat) : State :=
  let p := s.protT t
  if dir = 0 then
    let x := s.ttx t
    let s1 := s.setTtx t { x with nextOut := if x.tallyLost then 2 else 1, ctrlSeq := 1, crypto := [], done := [] }
    let s2 := s1.setProt t { p with sendQ := [], ctrlQ := [], resendQ := [], acked := 0, ackMap := 0, backlog := [], overflow := [], storeFull := false }
    (((s2.dropReads t txKind).holdRelease true fun h => h.tunnel = t && txKind h.kind).setTxSeq t (if x.tallyLost then 2 else 1)).tallyGap t
  else
    let y := s.trx t
    let s1 := s.setTrx t { y with ctrlHigh := 0, ctrlSeen := [], ctrlFailed := [], window := [] }
    let s2 := s1.setProt t
      { p with copies := [], arrivals := [], ctrlArr := [], expired := [], failed := [], decrypting := none, gaps := [], runs := [], lastAck := none, late := none }
    let s3 := (s2.dropReads t rxKind).holdRelease true fun h => h.tunnel = t && rxKind h.kind
    (((s3.put F.TUN_STATUS_RESYNC t false).setRxD t 0).setRxH t 0)

/-- A wrapped tunnel key (R248, R250): `m` is the unwrapped plaintext. -/
def State.loadTunnelKey (s0 : State) (k : Nat) (m : List Nat) : State × Status :=
  let t := m.getD 36 0
  let f := m.getD 37 0
  let dir := f % 2
  let next := f / 2 % 2
  let s := s0.voteSlots t dir
  if s.resets ≠ s0.resets then (s, .ok)
  else if 24 ≤ t ∨ 4 ≤ f ∨ m.getD 38 0 ≠ 0 ∨ m.getD 39 0 ≠ 0 then (s, .unitError)
  else if (s.slotOf t dir (2 + next)).isSome || (decide (next = 1) && (s.slotOf t dir 2).isNone) then (s, .refusedState)
  else
    let phase := if next = 1 then 1 - s.curPhase t dir else 0
    let s1 := (s.keyStore k (m.take 32) (numBe ((m.drop 32).take 4))).setDesc k t dir phase (2 + next)
    ((if next = 1 then s1 else s1.rekeyed t dir).tunState t, .ok)

/-- A wrapped KEK (R249, R250). -/
def State.loadKek (s : State) (k : Nat) (m : List Nat) : State × Status :=
  if (m.drop 32).any fun b => b ≠ 0 then (s, .unitError) else ((s.keyStore k (m.take 32) 0).setDesc k 0 0 0 4, .ok)

/-- The load of KEY_LOAD `v`; the descriptors it reads are voted first (R254). -/
def State.keyLoad (s0 : State) (v : Nat) : State × Status :=
  let k := F.KEY_LOAD_SLOT.of v
  let kek := F.KEY_LOAD_KEK.of v
  let mode := F.KEY_LOAD_MODE.of v
  let s := (s0.voteKey k).voteKey kek
  if s.resets ≠ s0.resets then (s, .ok)
  else if mode = 3 ∨ s.rd F.KEY_DESC_STATE k ≠ 0 then (s, .refusedState)
  else if mode = 2 then
    if s.service then (s, .refusedState) else ((s.keyStore k (s.staged 8) 0).setDesc k 0 0 0 4, .ok)
  else if s.rd F.KEY_DESC_STATE kek ≠ 4 then (s, .refusedState)
  else
    let x := s.slotTake kek
    if !x.2 || x.1.resets ≠ s.resets then (x.1, .refusedState)
    else match kwUnwrap (x.1.slotKey kek) (s.staged 12) with
      | none => (x.1, .unitError)
      | some m => if mode = 0 then x.1.loadTunnelKey k m else x.1.loadKek k m

/-- A write of KEY_LOAD: the load, its completion in LAST, KEY_STAGE cleared whatever the result (R250). -/
def State.keyLoadWrite (s : State) (v : Nat) : State × Status :=
  let x := s.keyLoad v
  (s.unlessReset x.1 fun t => t.stageClear.wr F.KEY_STATUS_LAST 0 x.2.code, x.2)

/-- The value a write of KEY_LOAD carries. -/
def keyLoadValue (mode : Nat) (kek slot : Nat) : Nat := mode * 2 ^ 16 + kek * 2 ^ 8 + slot

/-! ### Pipelines (R243, R244) -/

/-- The map of active pipelines of a direction. -/
def pipeMap (tx : Bool) : Fld := if tx then F.CRY_PIPE_TX_MAP else F.CRY_PIPE_RX_MAP
/-- The map of failed pipelines. -/
def pipeFailMap (tx : Bool) : Fld := if tx then F.CRY_PIPE_FAIL_TX_MAP else F.CRY_PIPE_FAIL_RX_MAP

/-- Pipeline `p` is in a map. -/
def State.inPipe (s : State) (f : Fld) (p : Nat) : Bool := (s.rd f 0).testBit p

/-- A pipeline passes its start-up test: it joins the active set while that has fewer than 30 (R243, log entry 14). -/
def State.pipePass (s : State) (tx : Bool) (p : Nat) : State :=
  let f := pipeMap tx
  if ((List.range 32).filter fun q => s.inPipe f q).length < 30 then s.wr f 0 (Nat.lor (s.rd f 0) (2 ^ p)) else s

/-- A pipeline left out at start-up, so that it is neither active nor a spare. -/
def State.pipeExclude (s : State) (tx : Bool) (p : Nat) : State :=
  s.wr (pipeFailMap tx) 0 (Nat.lor (s.rd (pipeFailMap tx) 0) (2 ^ p))

/-- The lowest spare: in neither map, and tested. -/
def State.spare (s : State) (tx : Bool) : Option Nat :=
  (List.range 32).find? fun q => !s.inPipe (pipeMap tx) q && !s.inPipe (pipeFailMap tx) q &&
    (s.rd F.KILN_REG_STATE ((if tx then 54 else 86) + q) = 1)

/-- The lowest active transmit pipeline that holds no bundle. -/
def State.freePipe (s : State) : Option Nat :=
  (List.range 32).find? fun q => s.inPipe F.CRY_PIPE_TX_MAP q &&
    !((List.range 24).any fun t => (s.ttx t).crypto.any fun e => e.2.1 = q)

/-- The pipeline a bundle is run on again: a free one, else the lowest active one. -/
def State.rerunPipe (s : State) : Option Nat := s.freePipe.or ((List.range 32).find? fun q => s.inPipe F.CRY_PIPE_TX_MAP q)

/-- The bundles in a failed transmit pipeline run again from their start on another one, under the same SEQ (R243). -/
def State.rerun (s : State) (p q : Nat) : State :=
  (List.range 24).foldl (fun u t =>
    let x := u.ttx t
    u.setTtx t { x with crypto := x.crypto.map fun e => if e.2.1 = p then (e.1, q, e.2.2) else e }) s

/-- A pipeline fails with a cause of Table 14-4: it leaves the active set, a spare joins, its bundle is run again, the error line and source 488 rise (R244,
R400); a Kiln slice on the spare is aborted (R454, Table 15-2). Without a spare, or with another condition of R32 not met, the journal records the interruption.
A spare fails only in a Kiln slice (R459). -/
def State.pipeLines (s : State) (tx : Bool) (p cause : Nat) : State × List Line :=
  let src := if tx then 13 else 14
  if s.inPipe (pipeMap tx) p then
    let m := s.rd (pipeMap tx) 0 - 2 ^ p
    let s1 := s.pipeExclude tx p
    let s2 := match s1.spare tx with
      | some q => (s1.wr (pipeMap tx) 0 (Nat.lor m (2 ^ q))).dataPath ((if tx then 54 else 86) + q)
      | none => s1.wr (pipeMap tx) 0 m
    let s3 := if tx then (match s2.rerunPipe with | some q => s2.rerun p q | none => s2) else s2
    let s4 := if (s1.spare tx).isNone then s3.journalAdd 7 [3, bit tx, p] else s3.faultNote s [3, bit tx, p]
    (s4.irq 488, [(src, p, cause)])
  else if s.inPipe (pipeFailMap tx) p then (s, [])
  else ((s.pipeExclude tx p).irq 488, [(src, p, cause)])

/-- A pipeline fails and its line rises. -/
def State.pipeFail (s : State) (tx : Bool) (p cause : Nat) : State := let x := s.pipeLines tx p cause; x.1.errorLines x.2

end Sys2Proof.Machine
end

