-- ==== Sys2Proof/Machine/Tunnel.lean ====
section
/-!
DEFINITION. The tunnel unit's byte streams (R217 to R230, R254): packing of client frames, metering, unpacking, delivery, declared gaps.
-/

namespace Sys2Proof.Machine

/-! ### Client frames (R222 to R226, R230) -/

/-- A frame's check sequence is right: the CRC-32 of the frame before it, least significant byte first. -/
def fcsOk (frame : List Nat) : Bool :=
  let n := frame.length - 4
  decide (frame.drop n = bytesLe 4 (crc32 (frame.take n)))

/-- The tunnel whose transmit direction takes frames of client port `p`. -/
def State.tunnelOfPort (s : State) (p : Nat) : Option Nat :=
  if s.role p = 1 then (List.range 24).find? fun t => s.on F.TUN_CFG_TX_EN t && s.rd F.TUN_CFG_PORT t = p else none

/-- The client port bound to tunnel `t` takes a command. -/
def State.frameDrop (s : State) (t : Nat) : State := (s.bump F.TUN_CNT_DROP_BLOCKED_V t 1).perfTun 14 t 1

/-- Whole bundles are cut from the stream (R225): 9,184 plaintext bytes each. The newest frame ends in a bundle that takes all that is left. -/
def TunTx.cut (x : TunTx) (now : Nat) : Nat → TunTx
  | 0 => x
  | fuel + 1 =>
    if x.plain.length < 9184 then x
    else
      let c : Closed := { first := x.first.getD 0xFFFF, plain := x.plain.take 9184, ends := x.ends + bit (x.plain.length = 9184) }
      TunTx.cut { x with closed := x.closed ++ [c], plain := x.plain.drop 9184, first := none, openedAt := now, ends := 0 } now fuel

/-- A frame entry enters the stream (R222, R226). -/
def TunTx.add (x : TunTx) (now : Nat) (frame : List Nat) (isBad : Bool) : TunTx :=
  let x1 := if x.plain.isEmpty then { x with openedAt := now } else x
  let x2 := if x1.first.isNone then { x1 with first := some x1.plain.length } else x1
  let y := TunTx.cut { x2 with plain := x2.plain ++ bytesBe 2 (bit isBad * 2 ^ 15 + frame.length) ++ frame } now 2
  if y.plain.isEmpty then y else { y with ends := y.ends + 1 }

/-- A frame is packed: counted, with its bytes in units of 64 (Table 18-2). -/
def State.packFrame (s : State) (t : Nat) (frame : List Nat) (isBad : Bool) : State :=
  let x := s.ttx t
  let n := x.packed + frame.length
  (((s.setTtx t { x.add s.time frame isBad with packed := n % 64 }).bump F.TUN_CNT_FRAMES_IN_V t 1).perfTun 0 t 1).perfTun 4 t (n / 64)

/-- The first word of frame number `k` of a queue of tunnel `t` (direction 0 ingress, 1 egress), and how many it takes: each queue of 256 KiB has its own words
(region 3 of Table 13-1, R228, log entry 8). -/
def queueSpan (dir t k len : Nat) : Nat × Nat := (t * 0x10000 + dir * 0x8000 + Config.queueWord dir t k % 0x8000, (len + 7) / 8)

/-- A frame enters a queue's memory. -/
def State.queuePut (s : State) (dir t k len : Nat) : State := (s.dataPath 118).spanWrite 3 (queueSpan dir t k len).1 (queueSpan dir t k len).2

/-- A frame is read from a queue's memory; the answer says whether a word of it is lost. -/
def State.queueTake (s : State) (dir t k len : Nat) : State × Bool := (s.dataPath 118).spanTake 3 (queueSpan dir t k len).1 (queueSpan dir t k len).2

/-- A frame read from the ingress queue is packed; one with a lost word is treated as having a bad frame check sequence (R224, Table 13-1). -/
def State.packQueued (s : State) (t : Nat) (f : List Nat × Bool) (lost : Bool) : State :=
  if lost && !s.on F.TUN_CFG_BAD_FCS t then s.bump F.TUN_CNT_BAD_FCS_V t 1 else s.packFrame t f.1 (f.2 || lost)

/-- Frames leave the ingress queue while no closed bundle waits (R221). -/
def State.drainIngress (s : State) (t : Nat) : Nat → State
  | 0 => s
  | fuel + 1 =>
    let x := s.ttx t
    match x.closed, x.ingress with
    | [], f :: rest =>
      let r := (s.setTtx t { x with ingress := rest, taken := x.taken + 1 }).queueTake 0 t x.taken f.1.length
      s.unlessReset r.1 fun u => (u.packQueued t f r.2).drainIngress t fuel
    | _, _ => s

/-- A frame that passed its checks waits in the ingress queue or is packed at once. -/
def State.ingressFrame (s : State) (t : Nat) (frame : List Nat) (isBad : Bool) : State :=
  let x := s.ttx t
  if x.closed.isEmpty && x.ingress.isEmpty then s.packFrame t frame isBad
  else if 262144 < queueBytes x.ingress + frame.length then s.frameDrop t
  else ((s.queuePut 0 t (x.taken + x.ingress.length) frame.length).setTtx t { x with ingress := x.ingress ++ [(frame, isBad)] }).pauseCheck t

/-- The largest frame tunnel `t` carries (R223). -/
def State.maxFrame (s : State) (t : Nat) : Nat := clampNat 64 9216 (s.rd F.TUN_LIMITS_MAX_FRAME t)

/-- The store took no further ride-through copy of tunnel `t`, which blocks and counts (R30, R297, R326). -/
def State.storeBlocked (s : State) (t : Nat) : Bool :=
  (s.protT t).storeFull && (!(s.protT t).overflow.isEmpty || s.on F.HOLD_STATUS_OVER_BUDGET 0)

/-- Tunnel `t` carries client data in its transmit direction: RUN, and no Maintenance mode (R39, R219). -/
def State.txCarries (s : State) (t : Nat) : Bool := decide (s.txStateNow t = 2) && s.service

/-- A frame for tunnel `t` (R39, R219, R223, R224, R326, R499). -/
def State.clientFrame (s : State) (t : Nat) (frame : List Nat) (upset : Bool) : State :=
  if !s.txCarries t || s.stopping || s.storeBlocked t then s.frameDrop t
  else if frame.length < 64 ∨ s.maxFrame t < frame.length then s.bump F.TUN_CNT_DROP_OVERSIZE_V t 1
  else
    let isBad := upset || !fcsOk frame
    if isBad && !s.on F.TUN_CFG_BAD_FCS t then s.bump F.TUN_CNT_BAD_FCS_V t 1 else s.ingressFrame t frame isBad

/-- A codeword since the last frame was uncorrectable on a lane of port `p`: the frame that ends now is spoilt (R190). -/
def State.spoilt (s : State) (p : Nat) : Bool := s.fmt p = 1 && (s.portLanes p).any fun n => (s.lockOf n).badSince

/-- Port `p` stands outside a frame; the last codeword of a lane may carry the next one's first bytes (R190). -/
def State.frameOver (s : State) (p : Nat) : State :=
  (s.portLanes p).foldl (fun t n => t.setLock n { t.lockOf n with badSince := (t.lockOf n).bad }) s

/-- A client frame arrives on a port; `upset` says that it arrived with 66-bit blocks marked as errors (R190, R214). -/
def execClientFrameRx (p : Fin 48) (frame : List Byte) (upset : Bool) (s : State) : Host.Outcome State Fault Refusal :=
  .next (match s.tunnelOfPort p with
    | some t => ((s.frameOver p).dataPath (48 + p / 8)).clientFrame t (frame.map fun b => b.toNat) (upset || s.spoilt p)
    | none => s.frameOver p)

/-- The open bundle of a tunnel closes. -/
def TunTx.close (x : TunTx) : TunTx :=
  if x.plain.isEmpty then x
  else { x with closed := x.closed ++ [{ first := x.first.getD 0xFFFF, plain := x.plain, ends := x.ends }], plain := [], first := none, ends := 0 }

/-- FLUSH × 0.1 µs have passed since the bundle's first byte (R225). -/
def execBundleFlush (t : Fin 24) (s : State) : Host.Outcome State Fault Refusal :=
  .next (if (s.ttx t).openedAt + max 1 (s.rd F.TUN_CFG_FLUSH t) * 250 ≤ s.time then s.setTtx t (s.ttx t).close else s)

/-! ### Metering (R221) -/

/-- The fill rate of the bucket in twentieths of a byte per unit of device time: RATE in Gb/s, shaped in ENFORCE (R498, log entry 34). -/
def State.fillRate (s : State) (t : Nat) : Nat :=
  if s.enforcing then s.tunRate t * clampNat 1 16 (s.rd F.THERM_DAMPER_SHAPE 0) / 16 else s.tunRate t

/-- The tokens in the bucket now. -/
def State.tokensNow (s : State) (t : Nat) : Nat :=
  min 368640 ((s.ttx t).tokens + s.fillRate t * (s.time - (s.ttx t).tokAt))

/-- The slot that encrypts a SEQ: the next one from C on once the far end has accepted it (Table 6-6). -/
def State.txSlotFor (s : State) (t seq : Nat) : Option Nat :=
  match (s.ttx t).rollC with
  | some c => if 4 ≤ s.rd F.TUN_STATUS_ROLL_TX t ∧ c ≤ seq then (s.slotOf t 0 3).or (s.slotOf t 0 2) else s.slotOf t 0 2
  | none => s.slotOf t 0 2

/-- The direction can release a bundle: to the store in ride-through and drain while that takes copies; to the paths while one is ready and no earlier
bundle waits for room on them, so that what the paths do not take waits in the ingress queue (R229, R322, R325). -/
def State.canRelease (s : State) (t : Nat) : Bool :=
  s.txCarries t && (if s.riding t then !s.storeBlocked t else (s.anyTx || s.switchWait) && (s.protT t).sendQ.isEmpty)

/-- The oldest closed bundle takes its tokens, its SEQ and a pipeline; the answer says whether it did (R221, R241). -/
def State.releaseBundle (s : State) (t : Nat) : State × Bool :=
  let x := s.ttx t
  match x.closed, s.freePipe, s.txSlotFor t (s.txSeq t) with
  | c :: rest, some q, some k =>
    let cost := (c.plain.length + 32) * 20
    let tok := s.tokensNow t
    if s.canRelease t && decide (cost ≤ tok) then
      let seq := s.txSeq t
      let b : Bundle :=
        { ctrl := false, tunnel := t, phase := s.rd F.KEY_DESC_PHASE k, seq := seq, first := c.first, body := c.plain, resent := false }
      let s1 := s.setTtx t { x with closed := rest, tokens := tok - cost, tokAt := s.time, crypto := x.crypto ++ [(b, q, c.ends)] }
      ((((s1.dataPath (54 + q)).setTxSeq t (seq + 1)).drainIngress t x.ingress.length).pauseCheck t, true)
    else (s, false)
  | _, _, _ => (s, false)

/-! ### Unpacking and delivery (R224, R227, R228, R330) -/

/-- A frame enters the egress queue, or is lost to a full one (R228). -/
def State.egressPut (s : State) (t : Nat) (frame : List Nat) (isBad : Bool) : State :=
  let y := s.trx t
  if 262144 < queueBytes y.egress + frame.length then s.bump F.TUN_CNT_LOST_FRAMES_V t 1
  else (s.queuePut 1 t (y.taken + y.egress.length) frame.length).setTrx t { y with egress := y.egress ++ [(frame, isBad)] }

/-- What the frame in progress still needs, when its LEN is known. -/
def TunRx.rest (y : TunRx) : Option Nat :=
  match y.stream with
  | h :: l :: got => some ((h * 256 + l) % 16384 - got.length)
  | _ => none

/-- The stream is broken by `n` missing bundles, or by a bad LEN with `n` = 0: the frame in progress is discarded and counted, and the next bundle
resumes at FIRST (R227). `counted` says of the bytes to come before FIRST that their frame is counted: it runs on past the missing bundles, each full where
it lies inside a frame (R225, log entry 48). -/
def State.streamBreak (s : State) (t n : Nat) : State :=
  let y := s.trx t
  if y.skip then s.setTrx t { y with counted := y.counted && decide (n = 0) }
  else
    let cut := decide (n = 0) || !y.stream.isEmpty
    let same := decide (n = 0) || (match y.rest with | some r => decide (9184 * n < r) | none => false)
    let s1 := s.setTrx t { y with stream := [], skip := true, counted := cut && same }
    if cut then s1.bump F.TUN_CNT_LOST_FRAMES_V t 1 else s1

/-- Whole entries are taken from the stream; a LEN outside 64 to 9,216 is treated as a gap (R227). -/
def State.entries (s : State) (t : Nat) : Nat → List Nat → State
  | 0, data => s.setTrx t { s.trx t with stream := data }
  | fuel + 1, data =>
    match data with
    | h :: l :: rest =>
      let n := (h * 256 + l) % 16384
      if n < 64 ∨ 9216 < n then (s.bump F.TUN_CNT_FORMAT_ERR_V t 1).streamBreak t 0
      else if rest.length < n then s.setTrx t { s.trx t with stream := data }
      else (s.egressPut t (rest.take n) (128 ≤ h)).entries t fuel (rest.drop n)
    | _ => s.setTrx t { s.trx t with stream := data }

/-- The plaintext of a delivered bundle enters the stream (R227). -/
def State.unpack (s : State) (t first : Nat) (plain : List Nat) : State :=
  let y := s.trx t
  if y.skip then
    let s1 := if !y.counted && decide (0 < first) then s.bump F.TUN_CNT_LOST_FRAMES_V t 1 else s
    if first = 0xFFFF then s1.setTrx t { y with counted := true }
    else (s1.setTrx t { y with skip := false, counted := false, stream := [] }).entries t 200 (plain.drop first)
  else s.entries t 200 (y.stream ++ plain)

/-- A gap of `n` SEQs from `lo` on is counted and recorded, and the stream is broken (R227, R330). -/
def State.gapNote (s : State) (t lo n cause : Nat) : State :=
  let s1 := (((s.bump F.TUN_CNT_GAP_BUNDLES_V t n).perfTun 9 t n).wr F.PROT_TUN_GAP_LO_FIRST t lo).wr F.PROT_TUN_GAP_HI_FIRST t (lo / 2 ^ 32)
  let s2 := (s1.wr F.PROT_TUN_GAP_INFO_CAUSE t cause).wr F.PROT_TUN_GAP_INFO_COUNT t (min n 0xFFFFFFF)
  ((s2.event F.TUN_EVENT_GAP t).event F.PROT_EVENT_GAP 0).streamBreak t n

/-- A declared gap: D advances in one step over what of it lies above D (R330). -/
def State.declareGap (s : State) (t first count cause : Nat) : State :=
  let last := first + count - 1
  let lo := max first (s.rxD t + 1)
  if count = 0 ∨ last ≤ s.rxD t then s else (s.setRxD t last).gapNote t lo (last + 1 - lo) cause

/-- A bundle is delivered: D, counts, its stream bytes (R227, R246). -/
def State.deliverBundle (s : State) (t seq first : Nat) (plain : List Nat) : State :=
  (((s.setRxD t seq).bump F.TUN_CNT_BUNDLES_RX_V t 1).perfTun 3 t 1).unpack t first plain

/-- The frame on its way to the client, its preamble and delimiter restored, the check sequence inverted when BAD (R224, R228). -/
def wireFrame (frame : List Nat) (isBad : Bool) : List Nat :=
  let n := frame.length - 4
  [0x55, 0x55, 0x55, 0x55, 0x55, 0x55, 0x55, 0xD5] ++ frame.take n ++ (frame.drop n).map fun b => if isBad then Nat.xor b 0xFF else b

/-- Frames leave through the port of tunnel `t`: a client port that is ready to send, and no Maintenance mode (R39, R183, R207). -/
def State.egressOpen (s : State) (t : Nat) : Bool :=
  let p := s.rd F.TUN_CFG_PORT t
  s.service && decide (s.role p = 1) && s.on F.PORT_STATUS_TX_READY p

/-- The oldest frame of the egress queue is read and sent; one with a lost word is discarded (R228, Table 13-1). `upset` says that the surroundings have upset a
word of it first. -/
def State.sendFrame (s : State) (t : Nat) (upset : Bool) : State :=
  let y := s.trx t
  match s.egressOpen t, y.egress with
  | false, _ => s
  | _, [] => s
  | true, (f, bad) :: rest =>
    let s0 := if upset then s.setMark 3 (queueSpan 1 t y.taken f.length).1 0 3 0 else s
    let r := (s0.setTrx t { y with egress := rest, taken := y.taken + 1 }).queueTake 1 t y.taken f.length
    s.unlessReset r.1 fun s1 =>
    if r.2 then s1.bump F.TUN_CNT_LOST_FRAMES_V t 1
    else
      let gap := if queueBytes y.egress < 65536 then 12 else 8
      let s2 := (s1.emit (.frame (s.rd F.TUN_CFG_PORT t) (wireFrame f bad) gap)).bump F.TUN_CNT_FRAMES_OUT_V t 1
      (if bad then s2.bump F.TUN_CNT_BAD_FCS_V t 1 else s2).perfTun 1 t 1

def execFrameToClient (t : Fin 24) (upset : Bool) (s : State) : Host.Outcome State Fault Refusal := .next (s.sendFrame t upset)

/-- The bundles counted in the last 1 ms, and whether their bytes exceed RATE by more than 1 % (R221). -/
def State.rateJudge (s : State) (t : Nat) (l : List (Nat × Nat)) : State :=
  let r := l.filter fun e => decide (s.time < e.1 + 2500000)
  (s.setTrx t { s.trx t with recent := r }).eventIf (decide (s.tunRate t * 10 ^ 6 * 101 < (r.foldl (fun a e => a + e.2) 0) * 8 * 100))
    F.TUN_EVENT_RATE_EXCEEDED t

/-- The last 1 ms of receive traffic is judged again (R221). -/
def execRateWindow (t : Fin 24) (s : State) : Host.Outcome State Fault Refusal := .next (s.rateJudge t (s.trx t).recent)

/-- What the tunnels still hold at the end of the orderly stop's drain is discarded (R499). -/
def State.dropInFlight (s : State) : State :=
  (List.range 24).foldl (fun u t =>
    let x := u.ttx t
    (u.setTtx t { x.emptied with crypto := [], done := [], nextOut := u.txSeq t }).setProt t
      { u.protT t with sendQ := [], ctrlQ := [], resendQ := [], overflow := [] }) s

/-- The orderly stop's first steps: PAUSE to every client port, open bundles close at once (R499). -/
def State.stopClients (s : State) : State :=
  let s1 := ((List.range 48).filter fun p => s.role p = 1).foldl (fun u p => u.emit (.pause p true)) s
  (List.range 24).foldl (fun u t => if u.on F.TUN_CFG_TX_EN t then u.setTtx t { (u.ttx t).close with paused := true, pfc := false } else u) s1

/-- The buckets are brought up to now, before the rate that fills them changes (R221, R498). -/
def State.tokensSettle (s : State) : State :=
  (List.range 24).foldl (fun u t => if u.on F.TUN_CFG_TX_EN t then u.setTtx t { u.ttx t with tokens := u.tokensNow t, tokAt := u.time } else u) s

/-- The Damper's measures begin: a queue above the threshold pauses its client whatever PAUSE_EN holds (R498). -/
def State.measuresBegin (s : State) : State := (List.range 24).foldl (fun u t => u.pauseCheck t) s

/-- The Damper's measures end: a client paused by them alone may send again (R498). -/
def State.measuresEnd (s : State) : State :=
  (List.range 24).foldl (fun u t =>
    (if (u.ttx t).paused && ((u.ttx t).pfc || !u.on F.TUN_CFG_PAUSE_EN t) then u.pauseEnd t else u).pauseCheck t) s

end Sys2Proof.Machine
end

