-- ==== Sys2Proof/Machine/Place.lean ====
section
/-!
DEFINITION. Placing bundles on the paths (R300 to R307, R325 to R327): port queues, Twin, Standby and unprotected placement, the Standby switch,
ride-through and drain.
-/

namespace Sys2Proof.Machine

/-! ### Port queues (R201, R301) -/

/-- The work of a bundle of `n` bytes on port `p`: whole blocks (R232), or the Ethernet frame with its overhead (R233). -/
def State.bundleWork (s : State) (p n : Nat) : Nat := if s.fmt p = 1 then (n + 38) * 8 else (n + 31) / 32 * 40960

/-- The queue of port `p` has room for a bundle of `n` bytes beside what it holds: 16 full bundles (R301). -/
def State.portRoom (s : State) (p n : Nat) : Bool := decide (s.workLeft p + s.bundleWork p n ≤ 16 * s.bundleWork p 9216)

/-- Of the ports with room, the one whose queue empties first; a tie goes to the lower index. -/
def State.bestPort (s : State) (ps : List Nat) (n : Nat) : Option Nat :=
  (ps.filter fun p => s.portRoom p n).foldl (fun a p =>
    match a with
    | none => some p
    | some q => if s.workLeft p * s.portSpeed q < s.workLeft q * s.portSpeed p then some p else some q) none

/-- The bytes of a bundle on a port: blocks padded with zeros (R232), or an Ethernet frame (R233). -/
def State.portBytes (s : State) (p : Nat) (payload : List Nat) : List Nat :=
  if s.fmt p = 1 then
    let f := bytesBe 2 (s.rd F.CRY_MAC_PEER_HI_ADDR 0) ++ bytesBe 4 (s.rd F.CRY_MAC_PEER_LO_ADDR 0) ++ bytesBe 2 (s.rd F.CRY_MAC_LOCAL_HI_ADDR 0) ++
      bytesBe 4 (s.rd F.CRY_MAC_LOCAL_LO_ADDR 0) ++ bytesBe 2 (s.rd F.CRY_ETHERTYPE_TYPE 0) ++ payload
    f ++ bytesLe 4 (crc32 f)
  else payload ++ List.replicate ((32 - payload.length % 32) % 32) 0

/-- Bytes in blocks of 32: a control block first, data blocks after it (R232). -/
def toBlocks : Nat → Bool → List Nat → List (Bool × List Nat)
  | 0, _, _ => []
  | k + 1, flag, m => if m.isEmpty then [] else (flag, m.take 32) :: toBlocks k false (m.drop 32)

/-- Bytes enter the transmit queue of port `p`. -/
def State.queueOn (s : State) (p : Nat) (m : List Nat) : State :=
  let s := s.dataPath (48 + p / 8)
  let x := s.port p
  if s.fmt p = 1 then s.setPort p { x with txWork := s.workLeft p + (m.length + 20) * 8, txAt := s.time }
  else s.setPort p { x with txBlocks := x.txBlocks ++ toBlocks m.length true m }

/-- A bundle goes to the queue of port `p`. -/
def State.putOn (s : State) (p : Nat) (b : Bundle) : State :=
  let x := s.role p - 2
  let s1 := s.queueOn p (s.portBytes p (b.bytes x))
  let s2 := if b.ctrl && (s.protT b.tunnel).smokeSeq.contains b.seq then s1.smokeCopy x (b.bytes x) else s1
  s2.emit (.bundle p x (s.portBytes p (b.bytes x)))

/-! ### Placement (R301 to R303, R327) -/

/-- Where a bundle goes: the ports, and whether it is sent single because the other path's ready queues are full (R301). -/
structure Placement where
  ports : List Nat
  single : Bool
  deriving DecidableEq, Repr

/-- The ports for the two copies of a bundle: never two of one bay (R21). The path A copy takes its best port and the path B copy the best one outside that
bay, or, when there is none, the other way round; a copy that finds none is not placed (log entry 46). -/
def State.portPair (s : State) (n : Nat) : Option Nat × Option Nat :=
  let apart (p q : Nat) : Bool := decide (p / 8 ≠ q / 8)
  match s.bestPort (s.readyPorts 0) n, s.bestPort (s.readyPorts 1) n with
  | some a, some b =>
    match s.bestPort ((s.readyPorts 1).filter (apart a)) n with
    | some b' => (some a, some b')
    | none =>
      match s.bestPort ((s.readyPorts 0).filter (apart b)) n with
      | some a' => (some a', some b)
      | none => (some a, none)
  | a, b => (a, b)

/-- Placement on every path with a ready port: Twin, and control bundles in Standby. Single for want of room only when every ready queue of the other path
is full. -/
def State.placeBoth (s : State) (n : Nat) : Placement :=
  let x := s.portPair n
  let full (y : Nat) : Bool := !(s.readyPorts y).isEmpty && (s.bestPort (s.readyPorts y) n).isNone
  { ports := x.1.toList ++ x.2.toList, single := (x.1.isSome && full 1) || (x.2.isSome && full 0) }

/-- Placement once, across both paths: unprotected operation and drain. -/
def State.placeOnce (s : State) (n : Nat) : Placement :=
  { ports := (s.bestPort ((List.range 48).filter fun p => (s.readyPorts 0).contains p || (s.readyPorts 1).contains p) n).toList, single := false }

/-- Where bundles for the active path go in Standby: its ready ports; with none ready the queues of all its ports, where they wait (R302, R304), unless no port of
either path is ready and no switch has just named the path (R325, log entry 46). -/
def State.activePorts (s : State) : List Nat :=
  let x := s.rd F.PROT_STATUS_ACTIVE 0
  if !(s.readyPorts x).isEmpty then s.readyPorts x else if s.anyTx || s.switchWait then s.pathPorts x else []

/-- Placement on the active path, or on a ready port of the standby path when every queue of the active one is full (R302). -/
def State.placeStandby (s : State) (n : Nat) : Placement :=
  let x := s.rd F.PROT_STATUS_ACTIVE 0
  { ports := ((s.bestPort s.activePorts n).or (s.bestPort (s.readyPorts (1 - x)) n)).toList, single := false }

/-- The placement of a bundle of tunnel `t` under the mode in force. -/
def State.placement (s : State) (t : Nat) (b : Bundle) : Placement :=
  let n := b.size
  if !b.ctrl && s.on F.PROT_TUN_STATE_DRAIN t then s.placeOnce n
  else match s.rd F.PROT_CFG_MODE 0 with
    | 0 => s.placeOnce n
    | 1 => s.placeBoth n
    | _ => if b.ctrl then s.placeBoth n else s.placeStandby n

/-- The retransmission copy of a placed bundle remembers, for each path, when it was placed there last (R306). -/
def State.notePlaced (s : State) (t seq : Nat) (paths : List Nat) : State :=
  { s with held := s.held.map fun h =>
      if h.tunnel = t && h.seq = seq && h.serves .retx then
        { h with placed := (h.placed.filter fun e => !paths.contains e.1) ++ paths.map fun x => (x, s.time) }
      else h }

/-- A bundle is placed; the answer says whether it was (R301). -/
def State.place (s : State) (t : Nat) (b : Bundle) : State × Bool :=
  let q := s.placement t b
  if q.ports.isEmpty then (s, false)
  else
    let s1 := q.ports.foldl (fun u p => u.putOn p b) s
    let s2 := if q.single then s1.bump F.PROT_TUN_SINGLE_COUNT t 1 else s1
    (if b.ctrl then s2 else s2.notePlaced t b.seq (q.ports.map fun p => s.role p - 2), true)

/-- Drain ends when the backlog is empty and everything read is placed (R327). -/
def State.drainEnd (s : State) (t : Nat) : State :=
  let p := s.protT t
  if s.on F.PROT_TUN_STATE_DRAIN t && p.backlog.isEmpty && p.overflow.isEmpty && p.sendQ.isEmpty then (s.put F.PROT_TUN_STATE_DRAIN t false).rideStatus
  else s

/-! ### What the tunnel unit hands over (R318, R326) -/

/-- A read of a held copy begins. -/
def State.readCopy (s : State) (h : Held) : State :=
  { s with heldReads := s.heldReads ++ [⟨h.kind, h.tunnel, h.seq, h.path, h.billets, 0⟩] }

/-- Contiguous runs of a rising list of numbers: first and count. -/
def groups : List Nat → List (Nat × Nat)
  | [] => []
  | n :: ns =>
    match groups ns with
    | (f, c) :: rest => if f = n + 1 then (n, c + 1) :: rest else (n, 1) :: (f, c) :: rest
    | [] => [(n, 1)]

/-- The loss of SEQs is declared to the far end, one GAP for each run (R288, R296). -/
def State.sendGaps (s : State) (t cause : Nat) (ns : List Nat) : State := (groups ns).foldl (fun u g => u.sendGap t g.1 g.2 cause) s

/-- SEQs leave the backlog, which falls (R327). -/
def State.backlogDrop (s : State) (t : Nat) (ns : List Nat) : State :=
  let p := s.protT t
  s.setProt t { p with backlog := p.backlog.filter (fun n => !ns.contains n), fellAt := s.time }

/-- Ride-through copies of SEQs that cannot be read any more: they leave the backlog and their loss is declared (R288, R296). -/
def State.rideLost (s : State) (t cause : Nat) (ns : List Nat) : State :=
  let mine (k : HeldKind) (u n : Nat) : Bool := k = .ride && decide (u = t) && ns.contains n
  let s0 := s.neededBy fun h => mine h.kind h.tunnel h.seq
  let s1 := { s0.backlogDrop t ns with
    heldReads := s0.heldReads.filter fun r => !mine r.kind r.tunnel r.seq }
  (s1.holdRelease false fun h => mine h.kind h.tunnel h.seq).sendGaps t cause ns

/-- The ride-through copy of a SEQ. -/
def State.rideCopy (s : State) (t n : Nat) : Option Held := s.held.find? fun h => h.kind = .ride && h.tunnel = t && h.seq = n

/-- The ride-through copy of a SEQ lies on a failed channel or was lost with the store. -/
def State.rideGone (s : State) (t n : Nat) : Bool := match s.rideCopy t n with | some h => s.copyLost h = 2 | none => false

/-- Drain goes on with the oldest SEQ of the backlog, one after another, when the one before is placed (R327): copies that are gone are declared, the next one
is read; with the backlog empty, what the store did not take follows, and drain ends when nothing is left. -/
def State.drainNext (s : State) (t : Nat) : State :=
  if !s.on F.PROT_TUN_STATE_DRAIN t || (s.heldReads.any fun r => r.kind = .ride && r.tunnel = t) || !(s.protT t).sendQ.isEmpty then s
  else
    let gone := (s.protT t).backlog.takeWhile fun n => s.rideGone t n
    let s1 := if gone.isEmpty then s else s.rideLost t 2 gone
    let p := s1.protT t
    match p.backlog with
    | n :: _ => (match s1.rideCopy t n with | some h => s1.readCopy h | none => s1)
    | [] => (s1.setProt t { p with sendQ := p.sendQ ++ p.overflow, overflow := [] }).drainEnd t

/-- Ride-through writes are served: over budget, after every read that waits (R297). -/
def State.rideWrites (s : State) : Bool := !s.on F.HOLD_STATUS_OVER_BUDGET 0 || s.heldReads.isEmpty

/-- The store is offered again what it could not take (R326). -/
def State.rideRetry (s : State) (t : Nat) : Nat → State
  | 0 => s
  | fuel + 1 =>
    match (s.protT t).overflow with
    | [] => s
    | b :: rest =>
      match if s.rideWrites then s.holdStore .ride t b.seq 0 b (s.on F.PROT_TUN_CFG_LOSSLESS t) else none with
      | some s1 => (s1.setProt t { s1.protT t with backlog := (s1.protT t).backlog ++ [b.seq], overflow := rest }).rideRetry t fuel
      | none => s

/-- Every tunnel's waiting bundles are offered to the store again. -/
def State.rideRetryAll (s : State) : State :=
  if (List.range 24).all fun t => (s.protT t).overflow.isEmpty then s
  else (List.range 24).foldl (fun u t => u.rideRetry t (u.protT t).overflow.length) s.mapsScan

/-- Data bundles of tunnel `t` may be placed: its direction carries data, and it is not in ride-through (R39, R219, R326). -/
def State.placesData (s : State) (t : Nat) : Bool := s.txCarries t && !s.on F.PROT_TUN_STATE_RIDE t

/-- The next bundle of a tunnel is placed: control bundles, then resent ones, then new ones (R306, R321). -/
def State.placeNext (s : State) (t : Nat) : State :=
  let p := s.protT t
  match p.ctrlQ, s.placesData t, p.resendQ, p.sendQ with
  | b :: rest, _, _, _ => let r := s.place t b; if r.2 then r.1.setProt t { r.1.protT t with ctrlQ := rest } else s
  | [], true, b :: rest, _ => let r := s.place t b; if r.2 then r.1.setProt t { r.1.protT t with resendQ := rest } else s
  | [], true, [], b :: rest => let r := s.place t b; if r.2 then (r.1.setProt t { r.1.protT t with sendQ := rest }).drainNext t else s
  | [], _, _, _ => s

def execBundlePlace (t : Fin 24) (s : State) : Host.Outcome State Fault Refusal := .next (s.placeNext t)

/-- A withdrawn cord of channel `c` whose billets are all free, which is filled again (Table 13-1, region 5). -/
def State.refillCord (s : State) (c : Nat) : Option Nat := (s.hcOf c).withdrawn.find? fun d => !(s.inUse c).any fun l => l / 256 = d

/-- The last fill write of a channel's next cord completes (R276, R277); withdrawn cords are filled again first. -/
def State.cordFilled (s : State) (c : Nat) : State :=
  let x := s.hcOf c
  match s.refillCord c with
  | some d => s.unlessReset (s.cordRead c (256 * d)) fun u =>
    (u.spanWrite 5 (cordWord c d) 1).setHc c { u.hcOf c with withdrawn := (u.hcOf c).withdrawn.filter fun e => e ≠ d }
  | none =>
    if x.filled < x.cords then
      s.unlessReset (s.cordRead c (256 * x.filled)) fun u => (u.spanWrite 5 (cordWord c x.filled) 1).setHc c { u.hcOf c with filled := x.filled + 1 }
    else s

def execCordFilled (c : Fin 24) (s : State) : Host.Outcome State Fault Refusal :=
  .next (if s.ddrCapped = false ∧ s.chServes c ∧ ((s.hcOf c).filled < (s.hcOf c).cords ∨ (s.refillCord c).isSome) ∧ s.on F.HOLD_STATUS_OVER_BUDGET 0 = false ∧
      s.budgetFree = true then
    ((s.cordFilled c).holdUpdate).rideRetryAll else s)

/-- Bytes of a client's bundle are counted in W (R327). -/
def State.rideCount (s : State) (n : Nat) : State :=
  let w := s.rideWin.upTo s.time
  { s with rideWin := { w with bytes := w.bytes + n } }

/-- An encrypted bundle in SEQ order: a retransmission copy in Lossless, a ride-through copy in ride-through and drain. -/
def State.protTake (s0 : State) (t : Nat) (b : Bundle) : State :=
  let u := s0.dataPath 120
  let s := if s0.riding t || s0.on F.PROT_TUN_CFG_LOSSLESS t then u.mapsScan else u
  let lossless := s.on F.PROT_TUN_CFG_LOSSLESS t
  let p := s.protT t
  if s.riding t then
    match p.overflow.isEmpty && s.rideWrites, s.holdStore .ride t b.seq 0 b lossless with
    | true, some s1 => ((s1.setProt t { s1.protT t with backlog := p.backlog ++ [b.seq] }).rideCount b.size).drainNext t
    | _, _ => s.setProt t { p with storeFull := true, overflow := p.overflow ++ [b] }
  else
    let s1 := if lossless then (s.holdStore .retx t b.seq 0 b false).getD s else s
    s1.setProt t { s1.protT t with sendQ := p.sendQ ++ [b] }

/-! ### The Standby switch (R304 to R306) -/

/-- A write of PROT_SWITCH_CTL. -/
def State.switchWrite (s : State) (v : Nat) : State × Status :=
  let x := F.PROT_SWITCH_CTL_ACTIVE.of v
  let w := F.PROT_SWITCH_CTL_WHEN_READY.of v
  if s.rd F.PROT_CFG_MODE 0 ≠ 2 then (s, .refusedState)
  else
    let s1 := (s.wr F.PROT_SWITCH_CTL_ACTIVE 0 x).wr F.PROT_SWITCH_CTL_WHEN_READY 0 w
    if s.switchReq.isNone && decide (s.rd F.PROT_STATUS_ACTIVE 0 = x) then (s1, .ok)
    else ({ s1 with switchReq := some ⟨x, decide (w = 1), s.time⟩ }.put F.PROT_STATUS_SWITCH_PENDING 0 true, .ok)

def execSwitchRequest (ag : Agent) (v : W32) (s : State) : Host.Outcome State Fault Refusal :=
  .next (s.writing ag .PROT_SWITCH_CTL 0 v.toNat fun t => t.switchWrite v.toNat)

/-- A retransmission copy is replayed on the new path (R306). -/
def State.replayed (s : State) (h : Held) (old : Nat) : Bool :=
  let p := s.protT h.tunnel
  h.serves .retx && decide (p.acked < h.seq) && decide (s.copyLost h = 0) &&
    (h.placed.any fun e => decide (e.1 = old) && decide (s.time ≤ e.2 + max 1 (s.rd F.PROT_LL_CFG_REPLAY_WIN 0) * 2500)) &&
    !(decide (p.acked + 2 ≤ h.seq) && p.ackMap.testBit (h.seq - p.acked - 2))

/-- The replays of tunnel `t`, in SEQ order, ahead of every other bundle. -/
def State.replay (s : State) (t old : Nat) : State :=
  if !s.on F.PROT_TUN_CFG_LOSSLESS t then s
  else
    let hs := (s.held.filter fun h => h.tunnel = t && s.replayed h old)
    let p := s.protT t
    let s1 := s.setProt t { p with resendQ := p.resendQ ++ hs.map fun h => { h.bundle with resent := true } }
    let s2 := hs.foldl (fun u h => h.billets.foldl (fun v b => v.perfCh 1 b.1 1) u) s1
    (s2.bump F.PROT_TUN_CNT_RESENT_V t hs.length).perfTun 11 t hs.length

/-- The switch takes effect (R304 to R306); with `wait` bundles wait in the new path's queues until one of its ports is ready (R304). -/
def State.switchNow (s : State) (x : Nat) (wait : Bool) : State :=
  let old := s.rd F.PROT_STATUS_ACTIVE 0
  let s1 := ({ s with switchReq := none, switchWait := wait && (s.readyPorts x).isEmpty }.put F.PROT_STATUS_SWITCH_PENDING 0 false).wr F.PROT_STATUS_ACTIVE 0 x
  ((List.range 24).foldl (fun u t => if old = x then u else u.replay t old) s1).event F.PROT_EVENT_SWITCH 0

/-- The pending switch may take effect at this boundary. -/
def State.switchDue (s : State) (q : SwitchReq) : Bool :=
  let c := if q.path = 0 then s.rd F.PROT_STATUS_PATH_A_TX 0 else s.rd F.PROT_STATUS_PATH_B_TX 0
  !q.whenReady || decide (c = 2) || (decide (q.since + 2500000 ≤ s.time) && decide (c = 1))

/-- The pending switch takes effect when it may. -/
def State.switchTry (s : State) : State :=
  match s.switchReq with
  | some q => if s.switchDue q then s.switchNow q.path (!q.whenReady) else s
  | none => s

def execSwitchEffective (s : State) : Host.Outcome State Fault Refusal := .next s.switchTry

/-- 1 ms after a WHEN_READY request: from then on one ready port of the new path is enough. -/
def execSwitchReadyTimeout (s : State) : Host.Outcome State Fault Refusal := .next s.switchTry

/-! ### Ride-through and drain (R325 to R327) -/

/-- Drain begins: the backlog is read in SEQ order. -/
def State.drainStart (s : State) (t : Nat) : State :=
  if s.on F.PROT_TUN_STATE_RIDE t then
    (((((s.setProt t { s.protT t with fellAt := s.time }).put F.PROT_TUN_STATE_RIDE t false).put F.PROT_TUN_STATE_DRAIN t true).rideStatus).event
      F.PROT_EVENT_RIDE 0).drainNext t
  else s

def execDrainStart (t : Fin 24) (s : State) : Host.Outcome State Fault Refusal := .next (if s.anyTx then s.drainStart t else s)

/-- A write of PROT_CTL (R325, R327). -/
def State.protCtlWrite (s : State) (v : Nat) : State × Status :=
  let ride := F.PROT_CTL_RIDE.of v = 1
  let endRide := F.PROT_CTL_END_RIDE.of v = 1
  if ride ∧ endRide then (s, .refusedState)
  else if ride then ((List.range 24).foldl (fun u t => if u.on F.PROT_TUN_CFG_RIDE_EN t then u.rideEnter t else u) s, .ok)
  else if endRide then ((List.range 24).foldl (fun u t => u.drainStart t) s, .ok)
  else (s, .ok)

def execRideCmd (ag : Agent) (s : State) : Host.Outcome State Fault Refusal :=
  .next (s.writing ag .PROT_CTL 0 1 fun t => t.protCtlWrite 1)

def execEndRide (ag : Agent) (s : State) : Host.Outcome State Fault Refusal :=
  .next (s.writing ag .PROT_CTL 0 2 fun t => t.protCtlWrite 2)

/-- The backlog has not fallen for 100 ms (R327; nothing has left it, log entry 46). -/
def execDrainStall (t : Fin 24) (s : State) : Host.Outcome State Fault Refusal :=
  .next (if s.on F.PROT_TUN_STATE_DRAIN t && !(s.protT t).backlog.isEmpty && decide ((s.protT t).fellAt + 250000000 ≤ s.time) then s.event F.PROT_EVENT_DRAIN_STALL 0 else s)

/-! ### Configuration (R300, R332) -/

/-- A write of PROT_CFG: a budget commit. A mode without a switch drops a pending one. -/
def State.protCfgWrite (s : State) (v : Nat) : State × Status :=
  let m := F.PROT_CFG_MODE.of v
  if m = 3 then (s, .refusedState)
  else
    let t := (s.wr F.PROT_CFG_PREFER 0 (F.PROT_CFG_PREFER.of v)).wr F.PROT_CFG_MODE 0 m
    let t1 := if m = 2 then t else { t with switchReq := none }.put F.PROT_STATUS_SWITCH_PENDING 0 false
    s.commit t1.holdUpdate

def execProtModeWrite (ag : Agent) (v : W32) (s : State) : Host.Outcome State Fault Refusal :=
  .next (s.writing ag .PROT_CFG 0 v.toNat fun t => t.protCfgWrite v.toNat)

/-- A write of PROT_TUN_CFG: a budget commit. With no path ready, RIDE_EN leads into ride-through (R325). -/
def State.protTunCfgWrite (s : State) (t v : Nat) : State × Status :=
  let u := ((s.wr F.PROT_TUN_CFG_RIDE_EN t (F.PROT_TUN_CFG_RIDE_EN.of v)).wr F.PROT_TUN_CFG_LOSSLESS t (F.PROT_TUN_CFG_LOSSLESS.of v)).wr
    F.PROT_TUN_CFG_MERGE t (F.PROT_TUN_CFG_MERGE.of v)
  let r := s.commit u.holdUpdate
  (if r.2 = .ok then r.1.rideCheck else r.1, r.2)

end Sys2Proof.Machine
end

