-- ==== Sys2Proof/Machine/Merge.lean ====
section
/-!
DEFINITION. The merge and Lossless delivery at the receiving end (R308 to R324, R330): copies, deadlines, release to the crypto, declared gaps, resend
runs, acknowledgement.
-/

namespace Sys2Proof.Machine

/-! ### Copies and times (R308 to R311) -/

/-- The copies of SEQ `n` of a tunnel. -/
def ProtT.copiesOf (p : ProtT) (n : Nat) : List Copy := p.copies.filter fun c => c.seq = n

/-- T(n): the arrival of the first copy of `n`, else of the first copy of a later SEQ (R309). -/
def ProtT.arrivalOf (p : ProtT) (n : Nat) : Option Nat :=
  match p.arrivals.find? fun a => a.1 = n with
  | some a => some a.2.2
  | none => ((p.arrivals.filter fun a => n < a.1).map fun a => a.2.2).min?

/-- The skews measured over the last `units` of device time. -/
def State.skewsOf (s : State) (t units : Nat) : List Int :=
  (s.protT t).skews.filterMap fun e => if s.time ≤ e.1 + units then some e.2 else none

/-- GUARD in µs. -/
def State.guardTime (s : State) : Nat := max 1 (s.rd F.PROT_MERGE_CFG_GUARD 0)

/-- Δ as the measurement gives it, in units of device time (R310). -/
def State.deltaTarget (s : State) (t : Nat) : Option Nat :=
  match (s.skewsOf t 250000000).map fun z => z.natAbs with
  | [] => none
  | z :: zs => some (zs.foldl max z + s.guardTime * 2500)

/-- Δ in force in units of 1/100,000 of device time: a rise counts at once, a fall is at most 10 µs a second, which is one such unit in one unit of time
(R310). -/
def State.deltaFine (s : State) (t : Nat) : Nat :=
  let fix := min 1000000 (s.rd F.PROT_DELAY_FIX_DELAY 0) * 2500
  if s.on F.PROT_MERGE_CFG_FIXED 0 then fix * 100000
  else match s.deltaTarget t with
    | none => (fix + s.guardTime * 2500) * 100000
    | some d => match (s.protT t).delta with
      | some (old, at_) => max (d * 100000) (old - (s.time - at_))
      | none => d * 100000

/-- Δ in force, in units of device time. -/
def State.deltaNow (s : State) (t : Nat) : Nat := (s.deltaFine t + 99999) / 100000

/-- PROT_TUN_DELAY: Δ in whole µs, rounded up. -/
def State.deltaUs (s : State) (t : Nat) : Nat := (s.deltaNow t + 2499) / 2500

/-- PROT_TUN_SKEW: the mean over the last 1 ms in 0.1 µs. -/
def State.skewMean (s : State) (t : Nat) : Nat :=
  match s.skewsOf t 2500000 with
  | [] => 0
  | z :: zs => sfield 32 ((zs.foldl (fun a b => a + b) z).tdiv ((zs.length + 1) * 250))

/-- Both copies of a SEQ have arrived: the skew is measured and Δ follows (R310). -/
def State.skewAdd (s : State) (t path first : Nat) : State :=
  let gap : Int := (s.time : Int) - (first : Int)
  let z := if path = 1 then gap else -gap
  let d := s.deltaFine t
  let p := s.protT t
  let s1 := s.setProt t { p with skews := (p.skews.filter fun e => s.time ≤ e.1 + 250000000) ++ [(s.time, z)] }
  match s1.deltaTarget t with
  | some e => s1.setProt t { s1.protT t with delta := some (max (e * 100000) (if p.skews.isEmpty then 0 else d), s.time) }
  | none => s1

/-- The first arrival of a SEQ is noted, or the skew measured from it, once for each SEQ; `l` lists first arrivals (SEQ, path, time), path 2 standing for
both. -/
def State.noteArrival (s : State) (t seq path : Nat) (l : List (Nat × Nat × Nat)) : State × List (Nat × Nat × Nat) :=
  match l.find? fun a => a.1 = seq with
  | some a =>
    if a.2.1 = path ∨ a.2.1 = 2 then (s, l)
    else (s.skewAdd t path a.2.2, l.map fun b => if b.1 = seq then (b.1, 2, b.2.2) else b)
  | none => (s, l ++ [(seq, path, s.time)])

/-- Aligned merge is in force for tunnel `t` (R27). -/
def State.aligned (s : State) (t : Nat) : Bool := s.rd F.PROT_CFG_MODE 0 = 1 && !s.on F.PROT_TUN_CFG_MERGE t

/-- Lossless at this end. -/
def State.lossless (s : State) (t : Nat) : Bool := s.on F.PROT_TUN_CFG_LOSSLESS t

/-! ### Resend runs (R320) -/

/-- A member of a run that is still missing: above D with no copy held. -/
def State.missing (s : State) (t n : Nat) : Bool := decide (s.rxD t < n) && ((s.protT t).copiesOf n).isEmpty

/-- The missing members of a run. -/
def State.runMissing (s : State) (t : Nat) (r : ResendRun) : List Nat :=
  let lo := max r.first (s.rxD t + 1)
  ((List.range (r.first + r.count - lo)).map fun k => lo + k).filter fun n => s.missing t n

/-- Runs with no member missing close. -/
def State.runPrune (s : State) (t : Nat) : State :=
  let p := s.protT t
  (s.setProt t { p with runs := p.runs.filter fun r => !(s.runMissing t r).isEmpty }).mergeStatus t

/-- A RESEND message for a run of SEQs is sent. -/
def State.sendResend (s : State) (t first count : Nat) : State :=
  ((s.sendCtrl t 0x02 1 (bytesBe 8 first ++ bytesBe 4 count)).bump F.PROT_TUN_CNT_RESEND_TX_V t 1).perfTun 10 t 1

/-- SEQ `n` is in an outstanding run. -/
def State.inRun (s : State) (t n : Nat) : Bool := (s.protT t).runs.any fun r => decide (r.first ≤ n ∧ n < r.first + r.count)

/-- The first SEQ present above `n`, which ends a run. -/
def State.runEnd (s : State) (t n : Nat) : Nat :=
  (((s.protT t).copies.filter fun c => n < c.seq).map fun c => c.seq).min?.getD (n + 1)

/-- A run from a missing SEQ up to the first SEQ present is requested. -/
def State.missRunStart (s : State) (t n : Nat) : State :=
  let c := min (s.runEnd t n - n) (2 ^ 20)
  let p := s.protT t
  (((s.setProt t { p with runs := p.runs ++ [⟨n, c, 1, s.time⟩] }).sendResend t n c).mergeStatus t)

/-! ### Release (R312 to R314, R323) -/

/-- Path `x` carried a copy of `n` that failed authentication. -/
def ProtT.hasFailed (p : ProtT) (n x : Nat) : Bool := p.failed.contains (n, x)

/-- The copy decrypted first in Aligned merge: the one on the preferred path, or the earlier arrival (R312). -/
def State.preferred (s : State) (cs : List Copy) : Option Copy :=
  match cs with
  | [a, b] =>
    let pr := s.rd F.PROT_CFG_PREFER 0
    if pr ≤ 1 then (if a.path = pr then some a else some b) else if b.arrival < a.arrival then some b else some a
  | a :: _ => some a
  | [] => none

/-- The copy of D + 1 that may be decrypted now. -/
def State.releasable (s : State) (t n : Nat) : Option Copy :=
  let p := s.protT t
  let cs := p.copiesOf n
  if s.aligned t then
    match cs with
    | [] => none
    | [a] => if p.expired.contains n || p.hasFailed n (1 - a.path) || s.pathAbsent (1 - a.path) then some a else none
    | _ => s.preferred cs
  else cs.head?

/-- RESULT of a rollover; a change sets ROLL (R257). -/
def State.rollResult (s : State) (t v : Nat) : State := s.trackVal F.TUN_ROLL_STATUS_RESULT F.TUN_EVENT_ROLL t v

/-- The receiver of a rollover in phase 6 retires once every SEQ below C is delivered or declared: the old slot is zeroised, the next becomes CURRENT,
ROLL_DONE is sent (Table 6-6). -/
def State.rollRetire (s : State) (t : Nat) : State :=
  let y := s.trx t
  match y.rollC with
  | some c =>
    if s.rd F.TUN_STATUS_ROLL_RX t = 6 ∧ c ≤ s.rxD t + 1 then
      let s1 := ((s.setTrx t { y with rollC := none }).wr F.TUN_STATUS_ROLL_RX t 0).keyPromote t 1
      (s1.rollResult t 1).sendCtrl t 0x13 1 (bytesBe 4 (y.rollId.getD 0))
    else s
  | none => s

/-- D has moved: what lay at or below it leaves the merge. -/
def State.advanced (s : State) (t : Nat) : State :=
  let d := s.rxD t
  let p := s.protT t
  let s1 := s.setProt t
    { p with
      copies := p.copies.filter fun c => d < c.seq
      expired := p.expired.filter fun n => d < n
      failed := p.failed.filter fun e => d < e.1
      gaps := p.gaps.filter fun g => d < g.first + g.count }
  ((s1.holdRelease true fun h => h.tunnel = t && rxKind h.kind && decide (h.seq ≤ d)).runPrune t).rollRetire t

/-- The pending gap that names SEQ `n`: its cause, and how many SEQs from `n` on it names before the first copy held. -/
def ProtT.gapAt (p : ProtT) (n : Nat) : Option (Nat × Nat) :=
  (p.gaps.find? fun g => decide (g.first ≤ n ∧ n < g.first + g.count)).map fun g =>
    (g.cause, ((p.copies.filter fun c => n < c.seq).map fun c => c.seq).foldl min (g.first + g.count) - n)

/-- A copy counts as missing: it leaves the merge, and its billets are freed (R314, Table 13-1). -/
def State.copyMissing (s : State) (t : Nat) (c : Copy) : State :=
  let p := s.protT t
  ((s.setProt t { p with copies := p.copies.filter fun d => !(d.seq = c.seq && d.path = c.path) }).holdRelease false fun h =>
    rxKind h.kind && h.tunnel = t && h.seq = c.seq && h.path = c.path).runPrune t

/-- The first word of a copy in the merge buffer, and how many it takes. -/
def Copy.span (c : Copy) (t : Nat) : Nat × Nat := (Config.mergeWord t c.seq c.path % 2 ^ 22, (c.bundle.size + 7) / 8)

/-- The words of a copy in the merge buffer are read; the answer says whether one is lost, with which the copy counts as missing (region 2). -/
def State.bufferTake (s : State) (t : Nat) (c : Copy) : State × Bool :=
  let x := (s.dataPath 121).spanTake 2 (c.span t).1 (c.span t).2
  (if x.2 then s.unlessReset x.1 fun u => u.copyMissing t c else x.1, x.2 || x.1.resets ≠ s.resets)

/-- A copy is written to the merge buffer. -/
def State.bufferPut (s : State) (t : Nat) (c : Copy) : State := (s.dataPath 121).spanWrite 2 (c.span t).1 (c.span t).2

/-- A stored copy is read back into the merge buffer, by its index entry; with that lost the copy counts as missing (region 4). The answer says so. -/
def State.readBack (s : State) (t : Nat) (c : Copy) : State × Bool :=
  match s.held.find? fun h => h.tunnel = t && h.seq = c.seq && h.path = c.path && rxKind h.kind with
  | none => (s, false)
  | some h =>
    let x := (s.dataPath 120).spanTake 4 (entryWord h.kind t c.seq c.path) 1
    if x.2 then (s.unlessReset x.1 fun u => u.copyMissing t c, x.1.resets = s.resets)
    else
      (s.unlessReset x.1 fun u =>
        let p := u.protT t
        (u.setProt t { p with copies := p.copies.map fun d => if d.seq = c.seq ∧ d.path = c.path then { d with place := .reading } else d }).readCopy h, false)

/-- SEQ `n` = D + 1 is released or declared at its deadline, which counts once (R332). -/
def State.lateCount (s : State) (t n : Nat) : State :=
  let p := s.protT t
  if p.late = some n then s else ((s.setProt t { p with late := some n }).bump F.PROT_TUN_CNT_DEADLINE_V t 1).perfTun 13 t 1

/-- A copy goes to the crypto, or is first read back from the store; `late` says that only the passed deadline releases it. The answer says that it counts as
missing instead. -/
def State.offer (s : State) (t : Nat) (c : Copy) (late : Bool) : State × Bool :=
  match c.place with
  | .buffer =>
    let x := s.bufferTake t c
    if x.2 then (x.1, x.1.resets = s.resets)
    else
      let s1 := x.1.setProt t { x.1.protT t with decrypting := some (c.seq, c.path) }
      (if late then s1.lateCount t c.seq else s1, false)
  | .stored => s.readBack t c
  | .reading => (s, false)

/-- What happens to D + 1 = `n` with no copy left: the gap a GAP named, or, at the deadline or with both paths absent, a gap of cause 6 or a resend run
(R314, R320, R323). The answer says whether D moved. -/
def State.noCopy (s : State) (t n : Nat) : State × Bool :=
  let p := s.protT t
  match p.gapAt n with
  | some (cause, k) => ((s.declareGap t n k cause).advanced t, true)
  | none =>
    let known := p.arrivals.any fun a => n ≤ a.1
    let both := s.pathAbsent 0 && s.pathAbsent 1
    if !known || !(p.expired.contains n || both) then (s, false)
    else if s.lossless t then
      (if s.inRun t n || 16 ≤ p.runs.length then s else s.missRunStart t n, false)
    else
      let s1 := if p.expired.contains n then s.lateCount t n else s
      ((s1.declareGap t n 1 6).advanced t, true)

/-- Only the passed deadline releases the copy of `n` (R312). -/
def State.byDeadline (s : State) (t n : Nat) (c : Copy) : Bool :=
  s.aligned t && ((s.protT t).copiesOf n).length = 1 && !(s.protT t).hasFailed n (1 - c.path) && !s.pathAbsent (1 - c.path)

/-- The merge moves on as far as it can (R312 to R314). While the direction resynchronises, copies go to the crypto in the order of their arrival (R254). -/
def State.mergeTry (s : State) (t : Nat) : Nat → State
  | 0 => s
  | fuel + 1 =>
    if (s.protT t).decrypting.isSome then s
    else if s.on F.TUN_STATUS_RESYNC t then
      (match (s.protT t).copies with
        | c :: _ => let r := s.offer t c false; if r.2 then r.1.mergeTry t fuel else r.1
        | [] => s)
    else
      let n := s.rxD t + 1
      match s.releasable t n with
      | some c => let r := s.offer t c (s.byDeadline t n c); if r.2 then r.1.mergeTry t fuel else r.1
      | none =>
        if !((s.protT t).copiesOf n).isEmpty then s
        else
          let r := s.noCopy t n
          if r.2 then r.1.mergeTry t fuel else r.1

/-- The number of steps a merge can take at once: the gaps it can declare, the copies it can find missing. -/
def State.mergeFuel (s : State) (t : Nat) : Nat :=
  let p := s.protT t
  p.copies.length + p.gaps.foldl (fun a g => a + (g.first + g.count - (s.rxD t + 1))) (2 + (p.arrivals.foldl (fun a e => max a e.1) 0 - s.rxD t))

/-- The merge of tunnel `t` is judged again. -/
def State.mergeGo (s : State) (t : Nat) : State := s.mergeTry t (s.mergeFuel t)

/-- The merges of every tunnel, after a change of the paths (R311). -/
def State.mergeAll (s : State) : State := (List.range 24).foldl (fun u t => u.mergeGo t) s

/-! ### Copies arrive (R308, R310, R315, R316) -/

/-- Bytes in the merge buffer. -/
def State.mergeBytes (s : State) : Nat :=
  s.prot.foldl (fun a e => e.2.copies.foldl (fun b c => if c.place = .stored then b else b + c.bundle.size) a) 0

/-- A copy kept in the merge. -/
def State.keepCopy (s : State) (t : Nat) (c : Copy) : State := s.setProt t { s.protT t with copies := (s.protT t).copies ++ [c] }

/-- A copy that finds neither buffer nor free budget (R316). -/
def State.holdbackDrop (s : State) (t n : Nat) : State :=
  let s1 := (s.bump F.PROT_TUN_CNT_HOLDBACK_DROP_V t 1).event F.PROT_EVENT_HOLDBACK_DROP 0
  if s1.lossless t && s1.missing t n && !s1.inRun t n && decide ((s1.protT t).runs.length < 16) then s1.missRunStart t n else s1

/-- A copy is stored: in the merge buffer, or with the buffer full in the hold store. -/
def State.storeCopy (s0 : State) (t : Nat) (c : Copy) : State :=
  let s := s0.mapsScan
  if s0.mergeBytes + c.bundle.size ≤ 33554432 then (s0.bufferPut t c).keepCopy t c
  else if s.aligned t then
    match s.holdStore .align t c.seq c.path c.bundle false with
    | some s1 => s1.keepCopy t { c with place := .stored }
    | none => s.holdbackDrop t c.seq
  else if s.holdbackFits c.bundle.size then
    match s.holdStore .holdback t c.seq c.path c.bundle false with
    | some s1 => (s1.holdbackCount c.bundle.size).keepCopy t { c with place := .stored }
    | none => s.holdbackDrop t c.seq
  else s.holdbackDrop t c.seq

/-- An intact data copy is offered to the merge (R308 to R314); within one path the first intact copy of a SEQ is kept and later ones are discarded unseen,
whatever their RESENT bit says (R231, R245), and counted while the direction resynchronises (R219). -/
def State.mergeOffer (s0 : State) (t path : Nat) (b : Bundle) : State :=
  let s := s0.dataPath 120
  let p := s.protT t
  let a := s.noteArrival t b.seq path p.arrivals
  let s1 := a.1.setProt t { a.1.protT t with arrivals := a.2 }
  let c : Copy := { seq := b.seq, path := path, bundle := b, arrival := s.time, place := .buffer }
  if !s1.on F.TUN_STATUS_RESYNC t && decide (b.seq ≤ s.rxD t) then
    (((s1.bump F.PROT_TUN_CNT_STALE_V t 1).bump F.PROT_TUN_CNT_LATE_COPY_V t 1).perfTun 12 t 1).event F.PROT_EVENT_LATE_COPY 0
  else if (p.copies.any fun d => d.seq = b.seq && d.path = path) || p.hasFailed b.seq path then
    s1.bundlesBlocked t (bit (s1.on F.TUN_STATUS_RESYNC t))
  else ((s1.storeCopy t c).runPrune t).mergeGo t

/-! ### Deadlines, spills (R314, R315, R320) -/

/-- The deadline of SEQ `n` passes. -/
def State.deadline (s : State) (t n : Nat) : State :=
  let p := s.protT t
  if n ≤ s.rxD t || p.expired.contains n then s
  else
    let gone := (p.copiesOf n).isEmpty && p.decrypting.map Prod.fst ≠ some n
    if gone && s.lossless t && !s.inRun t n && decide (16 ≤ p.runs.length) then s
    else
      let s1 := s.setProt t { p with expired := p.expired ++ [n] }
      let s2 := if gone && s1.lossless t && !s1.inRun t n && (p.gapAt n).isNone then s1.missRunStart t n else s1
      s2.mergeGo t

def execMergeDeadline (t : Fin 24) (seq : W64) (s : State) : Host.Outcome State Fault Refusal :=
  .next (match (s.protT t).arrivalOf seq.toNat with
    | some a => if a + s.deltaNow t ≤ s.time then s.unlessReset ((s.voteRx t).voteSlots t 1) fun u => u.deadline t seq.toNat else s
    | none => s)

/-- A first copy not released 20 µs after its arrival goes to the store (R315). -/
def execAlignmentSpill (t : Fin 24) (seq : W64) (path : Fin 2) (s : State) : Host.Outcome State Fault Refusal :=
  .next (
    let p := s.protT t
    match p.copies.find? fun c => c.seq = seq.toNat && c.path = path.val && c.place = .buffer with
    | none => s
    | some c =>
      if s.aligned t && decide (c.arrival + 50000 ≤ s.time) && decide (p.decrypting ≠ some (c.seq, c.path)) then
        let x := s.bufferTake t c
        if x.2 then x.1.mergeGo t
        else
          let m := x.1.mapsScan
          match m.holdStore .align t c.seq c.path c.bundle false with
          | some s1 =>
            let p := s1.protT t
            s1.setProt t { p with copies := p.copies.map fun d => if d.seq = c.seq ∧ d.path = c.path then { d with place := .stored } else d }
          | none => m
      else s)

/-- An alignment copy is read back ahead of its deadline (R315). -/
def execAlignmentReadback (t : Fin 24) (seq : W64) (path : Fin 2) (s : State) : Host.Outcome State Fault Refusal :=
  .next (match (s.protT t).copies.find? fun c => c.seq = seq.toNat && c.path = path.val && c.place = .stored with
    | none => s
    | some c => let r := s.readBack t c; if r.2 then r.1.mergeGo t else r.1)

/-- The wait of a run ends: it is sent again, or its members become a gap of cause 7 (R320). -/
def State.runAgain (s : State) (t : Nat) (r : ResendRun) : State :=
  let p := s.protT t
  let left := groups (s.runMissing t r)
  if max 1 (s.rd F.PROT_LL_CFG_TRIES 0) ≤ r.tries then
    let s1 := s.setProt t
      { p with runs := p.runs.filter fun q => q.first ≠ r.first, gaps := p.gaps ++ left.map fun g => ⟨g.1, g.2, 7⟩ }
    (((s1.event F.PROT_EVENT_RESEND_EXHAUSTED 0).mergeStatus t).mergeGo t)
  else
    let s1 := s.setProt t { p with runs := p.runs.map fun q => if q.first = r.first then { q with tries := q.tries + 1, sentAt := s.time } else q }
    left.foldl (fun u g => u.sendResend t g.1 g.2) s1

def execResendWaitExpiry (t : Fin 24) (first : W64) (s : State) : Host.Outcome State Fault Refusal :=
  .next (match (s.protT t).runs.find? fun r => r.first = first.toNat with
    | some r => if r.sentAt + max 1 (s.rd F.PROT_RESEND_WAIT_WAIT 0) * 2500 ≤ s.time then s.runAgain t r else s
    | none => s)

/-! ### Acknowledgement (R317, R319) -/

/-- MAP: bit i for SEQ CUM + 2 + i held. -/
def State.ackMapOf (s : State) (t : Nat) : Nat :=
  let d := s.rxD t
  (List.range 64).foldl (fun a i => if (s.protT t).copies.any fun c => c.seq = d + 2 + i then a + 2 ^ i else a) 0

/-- The ACK interval in units of device time: ACK_INT, at least 8 µs (R319). -/
def State.ackTime (s : State) : Nat := max 8 (s.rd F.PROT_LL_CFG_ACK_INT 0) * 2500

/-- The end of the ACK interval: nothing happens before ACK_INT has passed since the last one (R319). -/
def execAckTimer (t : Fin 24) (s : State) : Host.Outcome State Fault Refusal :=
  .next (
    let p := { s.protT t with ackAt := s.time }
    if !s.lossless t || s.rxStateNow t ≠ 2 || decide (s.time < (s.protT t).ackAt + s.ackTime) then s
    else
      let now := (s.rxD t, s.ackMapOf t)
      if p.lastAck ≠ some now ∨ 63 ≤ p.ackAge then
        (s.setProt t { p with lastAck := some now, ackAge := 0 }).sendCtrl t 0x01 1 (bytesBe 8 now.1 ++ bytesBe 8 now.2)
      else s.setProt t { p with ackAge := p.ackAge + 1 })

/-- A received ACK (R318, R319). -/
def State.ackTake (s0 : State) (t cum map : Nat) : State :=
  s0.unlessReset (s0.voteTx t) fun s =>
  let p := s.protT t
  if cum < p.acked then s
  else if s.txSeq t ≤ cum then s.bump F.TUN_CNT_FORMAT_ERR_V t 1
  else (s.setProt t { p with acked := cum, ackMap := map }).holdRelease true fun h => h.tunnel = t && h.kind = .retx && decide (h.seq ≤ cum)

/-- The sender's answer to one member of a RESEND: 0 ignored, 100 read and sent again, otherwise the cause of a GAP (R321). A member still in encryption is sent
in its turn (log entry 46). -/
def State.memberAnswer (s : State) (t n : Nat) : Nat :=
  if n ≤ (s.protT t).acked ∨ (s.ttx t).nextOut ≤ n then 0
  else match s.held.find? fun h => h.tunnel = t && h.seq = n && h.serves .retx with
    | none => 4
    | some h => if s.copyLost h = 0 then 100 else s.copyLost h

/-- The answer to one member, whose index entry is read: with that lost it is answered as never held (Table 13-1, region 4). -/
def State.memberRead (s : State) (t n : Nat) : State × Nat :=
  let a := s.memberAnswer t n
  if a = 0 || !(s.held.any fun h => h.tunnel = t && h.seq = n && h.serves .retx) then (s, a)
  else
    let x := (s.dataPath 120).spanTake 4 (entryWord .retx t n 0) 1
    (x.1, if x.2 then 4 else a)

/-- The answers to the members of a RESEND. -/
def State.membersRead (s : State) (t : Nat) (ns : List Nat) : State × List (Nat × Nat) :=
  let x := ns.foldl (fun (a : State × List (Nat × Nat)) n => let r := a.1.memberRead t n; (r.1, (n, r.2) :: a.2)) (s, [])
  (x.1, x.2.reverse)

/-- Runs of members with the same answer: answer, first, count. -/
def answerRuns : List (Nat × Nat) → List (Nat × Nat × Nat)
  | [] => []
  | (n, a) :: rest =>
    match answerRuns rest with
    | (b, f, c) :: more => if a = b ∧ f = n + 1 then (a, n, c + 1) :: more else (a, n, 1) :: (b, f, c) :: more
    | [] => [(a, n, 1)]

/-- Reads for held members begin. -/
def State.resendReads (s : State) (t first count : Nat) : State :=
  (s.held.filter fun h => h.tunnel = t && h.serves .retx && decide (first ≤ h.seq ∧ h.seq < first + count)).foldl
    (fun u h => u.readCopy { h with kind := .retx }) s

/-- Held members that are lost are needed, and their loss is declared (R288, R296). -/
def State.resendGap (s : State) (t first count cause : Nat) : State :=
  (s.neededBy fun h => h.tunnel = t && h.serves .retx && decide (first ≤ h.seq ∧ h.seq < first + count)).sendGap t first count cause

/-- A received RESEND (R317, R321). -/
def State.resendTake (s0 : State) (t first count : Nat) : State :=
  s0.unlessReset (s0.voteTx t) fun s =>
  let s1 := s.bump F.PROT_TUN_CNT_RESEND_RX_V t 1
  if !s.lossless t then s1
  else if s.txSeq t < first + count then s1.bump F.TUN_CNT_FORMAT_ERR_V t 1
  else
    let x := s1.membersRead t ((List.range count).map fun k => first + k)
    s1.unlessReset x.1 fun s2 =>
      (answerRuns x.2).foldl (fun u a => if a.1 = 0 then u else if a.1 = 100 then u.resendReads t a.2.1 a.2.2 else u.resendGap t a.2.1 a.2.2 a.1) s2

/-- A received GAP (R323). -/
def State.gapTake (s0 : State) (t first count cause : Nat) : State :=
  s0.unlessReset (s0.voteRx t) fun s =>
  if count = 0 ∨ first + count ≤ s.rxD t + 1 then s
  else
    let p := s.protT t
    (s.setProt t { p with gaps := p.gaps ++ [⟨first, count, cause⟩] }).mergeGo t

/-! ### Registers (R332) -/

/-- Writes of the protection unit's registers. -/
def State.protWrite (s : State) (r : Reg) (i v : Nat) : Option (State × Status) :=
  match r with
  | .PROT_CFG => some (s.protCfgWrite v)
  | .PROT_SWITCH_CTL => some (s.switchWrite v)
  | .PROT_CTL => some (s.protCtlWrite v)
  | .PROT_TUN_CFG => some (s.protTunCfgWrite i v)
  | _ => none

/-- Reads of these registers that are views. -/
def State.protRead (s : State) (r : Reg) (i : Nat) : Option Nat :=
  match r with
  | .PROT_TUN_SKEW => some (s.skewMean i)
  | .PROT_TUN_DELAY => some (s.deltaUs i)
  | .PROT_TUN_BACKLOG =>
    some (((s.held.filter fun h => h.tunnel = i && h.kind = .ride).flatMap fun h => h.billets).eraseDups.length / 256)
  | .PROT_TUN_UNACKED =>
    some (min (2 ^ 32 - 1) (s.held.filter fun h => h.tunnel = i && (h.kind = .retx || (h.kind = .ride && h.retxToo))).length)
  | _ => none

end Sys2Proof.Machine
end

