-- ==== Sys2Proof/Machine/Roll.lean ====
section
/-!
DEFINITION. Key rollover, key commands, new epochs and the tunnel unit's registers (R217, R220, R246 to R260).
-/

namespace Sys2Proof.Machine

/-! ### Messages (Table 6-3, Table 6-6, R255) -/

/-- KCV: bytes 0 to 3 of the encryption, under the key of a slot, of ID followed by twelve zero bytes. -/
def State.kcv (s : State) (k id : Nat) : Nat := numBe ((aesEncrypt (s.slotKey k) (bytesBe 4 id ++ List.replicate 12 0)).take 4)

/-- ROLL_OFFER is sent. -/
def State.sendOffer (s : State) (t : Nat) : State :=
  let x := s.ttx t
  match s.slotOf t 0 3 with
  | some k =>
    let y := s.slotTake k
    if y.2 then y.1.sendCtrl t 0x10 0 (bytesBe 4 x.rollId ++ bytesBe 8 (x.rollC.getD 0) ++ bytesBe 4 (y.1.kcv k x.rollId)) else y.1
  | none => s

/-- ROLL_COMMIT is sent. -/
def State.sendCommit (s : State) (t : Nat) : State :=
  let x := s.ttx t
  s.sendCtrl t 0x12 0 (bytesBe 4 x.rollId ++ bytesBe 8 (x.rollC.getD 0))

/-- ROLL_ABORT is sent. -/
def State.sendAbort (s : State) (t ref id reason : Nat) : State := s.sendCtrl t 0x14 ref (bytesBe 4 id ++ [reason, 0, 0, 0])

/-- The sender leaves the rollover with a result; the next slot is kept unless it has become CURRENT. -/
def State.rollEnd (s : State) (t result : Nat) : State :=
  ((s.setTtx t { s.ttx t with rollC := none }).wr F.TUN_STATUS_ROLL_TX t 0).rollResult t result

/-- The sender aborts with a reason and its result (R257). -/
def State.rollAbort (s : State) (t reason result : Nat) : State := (s.sendAbort t 0 (s.ttx t).rollId reason).rollEnd t result

/-- The result a reason stands for (TUN_ROLL_STATUS.RESULT). -/
def reasonResult (reason : Nat) : Nat := match reason with | 1 => 2 | 2 => 3 | 3 => 4 | 4 => 5 | _ => 6

/-- START: C and ID are picked from the voted tally and the offer is sent (Table 6-6, R254, R257). -/
def State.rollStart (s0 : State) (t : Nat) : State × Status :=
  let s := (s0.voteTx t).voteSlots t 0
  if s.rd F.TUN_STATUS_ROLL_TX t ≠ 0 || (s.slotOf t 0 3).isNone then (s, .refusedState)
  else
    let x := s.ttx t
    let id := (x.rollId + 1) % 2 ^ 32
    let c := s.txSeq t + max 1 (s.rd F.TUN_ROLL_CFG_LEAD t) * 256
    let s1 := s.setTtx t { x with rollId := id, rollC := some c, rollAt := s.time, forced := false }
    (((s1.wr F.TUN_STATUS_ROLL_TX t 2).wr F.TUN_ROLL_STATUS_ID t id).sendOffer t, .ok)

/-- A write of TUN_ROLL (R257). With both bits set ABORT is taken. -/
def State.rollWrite (s : State) (t v : Nat) : State × Status :=
  if F.TUN_ROLL_ABORT.of v = 1 then
    (if s.rd F.TUN_STATUS_ROLL_TX t = 2 ∨ s.rd F.TUN_STATUS_ROLL_TX t = 3 then s.rollAbort t 5 6 else s, .ok)
  else if F.TUN_ROLL_START.of v = 1 then s.rollStart t
  else (s, .ok)

def execRollStart (ag : Agent) (t : Fin 24) (s : State) : Host.Outcome State Fault Refusal :=
  .next (s.writing ag .TUN_ROLL t 1 fun u => u.rollWrite t 1)

def execRollAbortCmd (ag : Agent) (t : Fin 24) (s : State) : Host.Outcome State Fault Refusal :=
  .next (s.writing ag .TUN_ROLL t 2 fun u => u.rollWrite t 2)

/-- Every 100 ms the sender repeats its message. -/
def execRollMessageRepeat (t : Fin 24) (s : State) : Host.Outcome State Fault Refusal :=
  .next (match s.rd F.TUN_STATUS_ROLL_TX t with
    | 2 => s.sendOffer t
    | 5 => s.sendCommit t
    | _ => s)

/-- A received ROLL_OFFER (R255, R257). -/
def State.offerTake (s : State) (t id c kcv : Nat) : State :=
  let y := s.trx t
  let accept (u : State) : State := u.sendCtrl t 0x11 1 (bytesBe 4 id ++ bytesBe 8 c)
  if y.rollId = some id then accept s
  else match s.slotOf t 1 3 with
    | none => s.sendAbort t 1 id 2
    | some k =>
      let x := s.slotTake k
      if x.1.resets ≠ s.resets then x.1
      else if !x.2 then x.1.sendAbort t 1 id 2
      else if x.1.kcv k id ≠ kcv then x.1.sendAbort t 1 id 3
      else
        let s1 := x.1.setTrx t { y with rollId := some id, rollC := some c, rollAt := s.time }
        accept ((s1.wr F.TUN_STATUS_ROLL_RX t 3).wr F.TUN_ROLL_STATUS_ID t id)

def execRollOffer (t : Fin 24) (id : W32) (c : W64) (kcv : W32) (s : State) : Host.Outcome State Fault Refusal :=
  .next ((s.voteSlots t 1).offerTake t id.toNat c.toNat kcv.toNat)

/-- A received ROLL_ACCEPT (Table 6-6). -/
def State.acceptTake (s : State) (t id c : Nat) : State :=
  let x := s.ttx t
  if s.rd F.TUN_STATUS_ROLL_TX t = 2 ∧ x.rollId = id ∧ x.rollC = some c then s.wr F.TUN_STATUS_ROLL_TX t 4 else s

def execRollAccept (t : Fin 24) (id : W32) (c : W64) (s : State) : Host.Outcome State Fault Refusal :=
  .next (((s.voteTx t).voteSlots t 0).acceptTake t id.toNat c.toNat)

/-- A received ROLL_COMMIT: the receiver enters phase 6 and retires as soon as it may; a repeated one is answered again (R257). -/
def State.commitTake (s : State) (t id c : Nat) : State :=
  let y := s.trx t
  if y.rollId ≠ some id then s
  else match y.rollC with
    | none => s.sendCtrl t 0x13 1 (bytesBe 4 id)
    | some c' => if c' = c then (s.wr F.TUN_STATUS_ROLL_RX t 6).rollRetire t else s

def execRollCommit (t : Fin 24) (id : W32) (c : W64) (s : State) : Host.Outcome State Fault Refusal :=
  .next (((s.voteRx t).voteSlots t 1).commitTake t id.toNat c.toNat)

/-- A received ROLL_DONE: a forced commit keeps its result (R257). -/
def State.doneTake (s : State) (t id : Nat) : State :=
  let x := s.ttx t
  if s.rd F.TUN_STATUS_ROLL_TX t = 5 ∧ x.rollId = id then s.rollEnd t (if x.forced then 7 else 1) else s

def execRollDone (t : Fin 24) (id : W32) (s : State) : Host.Outcome State Fault Refusal :=
  .next (((s.voteTx t).voteSlots t 0).doneTake t id.toNat)

/-- A received ROLL_ABORT: `ref` 1 refers to this end's transmit direction, 0 to its receive direction (R235, R255, R257). -/
def State.abortTake (s : State) (t : Nat) (ref : Bool) (id reason : Nat) : State :=
  if ref then
    (if (s.rd F.TUN_STATUS_ROLL_TX t = 2 ∨ s.rd F.TUN_STATUS_ROLL_TX t = 3) ∧ (s.ttx t).rollId = id then s.rollEnd t (reasonResult reason) else s)
  else
    let y := s.trx t
    if s.rd F.TUN_STATUS_ROLL_RX t = 3 ∧ y.rollId = some id then
      ((s.setTrx t { y with rollC := none, rollId := none }).wr F.TUN_STATUS_ROLL_RX t 0).rollResult t (reasonResult reason)
    else s

def execRollAbort (t : Fin 24) (ref : Bool) (id : W32) (reason : BitVec 8) (s : State) : Host.Outcome State Fault Refusal :=
  .next (s.abortTake t ref id.toNat reason.toNat)

/-- Every SEQ below C is acknowledged or declared (Lossless), or released to the paths. -/
def State.belowDone (s : State) (t c : Nat) : Bool :=
  let p := s.protT t
  decide (c ≤ s.txSeq t) &&
    (if s.lossless t then decide (c ≤ p.acked + 1)
     else decide (c ≤ (s.ttx t).nextOut) && !((p.sendQ ++ p.overflow).any fun b => b.seq < c) && !(p.backlog.any fun n => n < c))

/-- The messages of control bundles that wait for their placement under the current transmit key. -/
def State.waitingMessages (s : State) (t : Nat) : List (List Nat) :=
  match s.slotOf t 0 2 with
  | some k => (s.protT t).ctrlQ.filterMap fun b => s.unseal k b
  | none => []

/-- A message is sent as a control bundle again. -/
def State.sendMessage (s : State) (t : Nat) (m : List Nat) : State := s.sendCtrl t (m.getD 0 0) (m.getD 1 0) (m.drop 4)

/-- Nothing of a transmit direction below C is sent any more: what still waits leaves the tunnel unit and the protection unit, and the copies held for
retransmission or ride-through are released (R35, R256). -/
def State.dropBelow (s : State) (t c : Nat) : State :=
  let x := s.ttx t
  let p := s.protT t
  let s1 := s.setTtx t { x with
    nextOut := max x.nextOut c
    crypto := x.crypto.filter fun e => c ≤ e.1.seq
    done := x.done.filter fun b => c ≤ b.seq }
  let s2 := s1.setProt t { p with
    resendQ := p.resendQ.filter fun b => c ≤ b.seq
    sendQ := p.sendQ.filter fun b => c ≤ b.seq
    overflow := p.overflow.filter fun b => c ≤ b.seq
    backlog := p.backlog.filter fun n => c ≤ n }
  { s2 with heldReads := s2.heldReads.filter fun r => !(r.tunnel = t && txKind r.kind && decide (r.seq < c)) }.holdRelease true fun h =>
    h.tunnel = t && txKind h.kind && decide (h.seq < c)

/-- The sender's entry to phase 5: the old slot is zeroised, nothing is sent under it any more, ROLL_COMMIT is sent. Messages that still wait are sealed anew
under the new key (R35, R256). -/
def State.rollCommit (s : State) (t c : Nat) : State :=
  let s0 := s.dropBelow t c
  let s1 := (s0.setProt t { s0.protT t with ctrlQ := [] }).wr F.TUN_STATUS_ROLL_TX t 5
  ((s.waitingMessages t).foldl (fun u m => u.sendMessage t m) (s1.keyPromote t 0)).sendCommit t

def execRollCommitPoint (t : Fin 24) (s : State) : Host.Outcome State Fault Refusal :=
  .next (
    let u := (s.voteTx t).voteSlots t 0
    match (u.ttx t).rollC with
    | some c => if u.rd F.TUN_STATUS_ROLL_TX t = 4 ∧ u.belowDone t c = true then u.rollCommit t c else u
    | none => u)

/-- TIMEOUT in units of device time. -/
def State.rollTime (s : State) (t : Nat) : Nat := clampNat 1 100 (s.rd F.TUN_ROLL_CFG_TIMEOUT t) * 250000000

/-- A gap is sent in as many messages as its 4-byte COUNT needs. -/
def State.sendGapFrom (s : State) (t first count cause : Nat) : State :=
  if count = 0 then s
  else if count < 2 ^ 32 then s.sendGap t first count cause
  else (s.sendGap t first (2 ^ 32 - 1) cause).sendGap t (first + (2 ^ 32 - 1)) (count - (2 ^ 32 - 1)) cause

/-- The lowest SEQ that is not acknowledged (Lossless), or not released to the paths. -/
def State.lowestOpen (s : State) (t : Nat) : Nat :=
  let p := s.protT t
  if s.lossless t then p.acked + 1
  else (((p.sendQ ++ p.overflow).map fun b => b.seq) ++ p.backlog).foldl min (s.ttx t).nextOut

/-- A sender in phase 4 at TIMEOUT: the unacknowledged SEQs below C become a gap of cause 3, and it commits; the next SEQ is C or later (R35, R257). -/
def State.rollForce (s : State) (t c : Nat) : State :=
  let first := s.lowestOpen t
  let s1 := s.sendGapFrom t first (c - first) 3
  let s2 := s1.setTtx t { s1.ttx t with forced := true, rollAt := s.time }
  let s3 := s2.setProt t { s2.protT t with acked := max (s2.protT t).acked (c - 1) }
  let s4 := if s3.txSeq t < c then s3.setTxSeq t c else s3
  (s4.rollCommit t c).rollResult t 7

/-- The sender's timeout (R257). -/
def State.txTimeout (s : State) (t : Nat) : State :=
  let x := s.ttx t
  match s.rd F.TUN_STATUS_ROLL_TX t with
  | 0 => s
  | 5 => s.rollEnd t 8
  | 4 => (match x.rollC with | some c => s.rollForce t c | none => s)
  | _ => s.rollAbort t 4 5

/-- A receiver still in phase 6 at TIMEOUT declares what it lacks below C a gap and retires: the copies it holds are released as if their deadlines had passed,
the others are declared where the stream reaches them (R257). -/
def State.rxTimeout (s : State) (t : Nat) : State :=
  match (s.trx t).rollC with
  | some c =>
    if s.rd F.TUN_STATUS_ROLL_RX t = 6 then
      let d := s.rxD t
      let p := s.protT t
      let here := ((p.copies.filter fun x => x.seq < c).map fun x => x.seq).eraseDups
      (s.setProt t { p with gaps := p.gaps ++ [⟨d + 1, c - 1 - d, 3⟩], expired := p.expired ++ here }).mergeGo t
    else s
  | none => s

def execRollTimeout (t : Fin 24) (rx : Bool) (s : State) : Host.Outcome State Fault Refusal :=
  .next (
    if rx then (if (s.trx t).rollAt + s.rollTime t ≤ s.time then (s.voteTun t).rxTimeout t else s)
    else if (s.ttx t).rollAt + s.rollTime t ≤ s.time then (s.voteTun t).txTimeout t else s)

/-! ### Key commands (R248 to R253) -/

def execKeyLoad (ag : Agent) (mode : BitVec 2) (kek slot : BitVec 7) (s : State) : Host.Outcome State Fault Refusal :=
  .next (s.writing ag .KEY_LOAD 0 (keyLoadValue mode.toNat kek.toNat slot.toNat) fun t =>
    t.keyLoadWrite (keyLoadValue mode.toNat kek.toNat slot.toNat))

/-- All slots and KEY_STAGE zeroised, with a new epoch (R252, R531). -/
def State.zeroiseAll (s : State) : State := s.unlessReset (s.keysZero.event F.KEY_STATUS_ALL_ZERO 0).newEpoch State.flagBeacons

/-- A write of KEY_ZEROISE (R252). -/
def State.zeroiseWrite (s : State) (v : Nat) : State × Status :=
  if F.KEY_ZEROISE_ALL.of v = 1 then (s.zeroiseAll, .ok) else (s.slotZero (F.KEY_ZEROISE_SLOT.of v), .ok)

def execKeyZeroiseSlot (ag : Agent) (slot : BitVec 7) (s : State) : Host.Outcome State Fault Refusal :=
  .next (s.writing ag .KEY_ZEROISE 0 slot.toNat fun t => t.zeroiseWrite slot.toNat)

def execKeyZeroiseAll (ag : Agent) (s : State) : Host.Outcome State Fault Refusal :=
  .next (s.writing ag .KEY_ZEROISE 0 256 fun t => t.zeroiseWrite 256)

/-- The lowest of the inputs that are low. -/
def lowest4 (m : Nat) : Nat := ((List.range 4).find? fun i => m.testBit i).getD 0

/-- Filtered lows on TAMPER_N inputs: everything is zeroised, bit 41 reports the lowest (R253, R535). -/
def execTamperInput (lows : BitVec 4) (s : State) : Host.Outcome State Fault Refusal :=
  .next (if lows = 0 then s
    else
      let s1 := { s with tamperLow := (List.range 4).filter fun i => lows.toNat.testBit i }
      (s1.unlessReset s1.zeroiseAll fun t => t.event F.KEY_STATUS_TAMPER 0).errorLine 41 (lowest4 lows.toNat) 0)

/-! ### New epochs (R237, R238, R258) -/

/-- What a new epoch does to one tunnel (R258). -/
def State.epochTunnel (s : State) (t : Nat) : State :=
  let rolling := s.rd F.TUN_STATUS_ROLL_TX t ≠ 0 ∨ s.rd F.TUN_STATUS_ROLL_RX t ≠ 0
  let s1 := if rolling then ((s.wr F.TUN_STATUS_ROLL_TX t 0).wr F.TUN_STATUS_ROLL_RX t 0).rollResult t 9 else s
  let d := s.rxD t
  let top := (s.protT t).copies.foldl (fun a c => max a c.seq) d
  let s2 := (s1.slotsZero t 0).slotsZero t 1
  let s3 := (s2.dropReads t fun _ => true).holdRelease true fun h => h.tunnel = t
  let s4 := s3.declareGap t (d + 1) (top - d) 8
  let x := s4.ttx t
  let y := s4.trx t
  let s5 := ((s4.setTtx t { TunTx.init with rollId := x.rollId, tokAt := s.time, paused := x.paused, pfc := x.pfc, tallyLost := x.tallyLost }).pauseCheck t).setTrx t
    { TunRx.init with egress := y.egress, skip := y.skip, counted := y.counted, recent := y.recent }
  ((((s5.setProt t ProtT.init).setTxSeq t 1).setRxD t 0).setRxH t 0).mergeStatus t |>.event F.TUN_EVENT_EPOCH t

/-- A new epoch is acted on (R258). -/
def State.epochAct (s : State) : State := ((List.range 24).foldl State.epochTunnel s).put F.CRY_PEER_STATUS_CHANGED 0 true

/-- A peer epoch is accepted: the first is recorded, a different later one acted on (R238). -/
def State.epochTake (s : State) (e : Nat) : State :=
  if !s.on F.CRY_PEER_STATUS_VALID 0 then (s.wr F.CRY_PEER_EPOCH_EPOCH 0 e).put F.CRY_PEER_STATUS_VALID 0 true
  else if s.rd F.CRY_PEER_EPOCH_EPOCH 0 = e then s
  else (s.wr F.CRY_PEER_EPOCH_EPOCH 0 e).epochAct

/-! ### Registers (R217, R220, R259) -/

/-- The anti-replay window of tunnel `t` in bits. -/
def State.winBits (s : State) (t : Nat) : Nat := 2 ^ clampNat 10 20 (s.rd F.TUN_RX_WIN_LOG2 t)

/-- The windows of the enabled tunnels exceed their memory (R246). -/
def State.windowsOver (s : State) : Bool :=
  decide (2 ^ 23 < (List.range 24).foldl (fun a t => if s.on F.TUN_CFG_RX_EN t then a + s.winBits t else a) 0)

/-- Tunnel `t` is enabled in a direction. -/
def State.tunOn (s : State) (t : Nat) : Bool := s.on F.TUN_CFG_TX_EN t || s.on F.TUN_CFG_RX_EN t

/-- A write of TUN_CFG (R217, R220). -/
def State.tunCfgWrite (s : State) (t v : Nat) : State × Status :=
  let u0 := (((s.wr F.TUN_CFG_FLUSH t (F.TUN_CFG_FLUSH.of v)).wr F.TUN_CFG_PORT t (F.TUN_CFG_PORT.of v)).wr F.TUN_CFG_PAUSE_EN t
    (F.TUN_CFG_PAUSE_EN.of v)).wr F.TUN_CFG_BAD_FCS t (F.TUN_CFG_BAD_FCS.of v)
  let u := (u0.wr F.TUN_CFG_RX_EN t (F.TUN_CFG_RX_EN.of v)).wr F.TUN_CFG_TX_EN t (F.TUN_CFG_TX_EN.of v)
  let port := F.TUN_CFG_PORT.of v
  let setting := (!s.on F.TUN_CFG_TX_EN t && u.on F.TUN_CFG_TX_EN t) || (!s.on F.TUN_CFG_RX_EN t && u.on F.TUN_CFG_RX_EN t)
  if s.tunOn t && decide (port ≠ s.rd F.TUN_CFG_PORT t) then (s, .refusedState)
  else if setting && (decide (s.role port ≠ 1) || ((List.range 24).any fun k => k ≠ t && s.tunOn k && s.rd F.TUN_CFG_PORT k = port) || u.windowsOver ||
      decide (s.rd F.TUN_LIMITS_RATE t = 0)) then (s, .refusedState)
  else
    let r := s.commit u
    if r.2 = .ok then ((((r.1.tunState t).tallyGap t).holdUpdate).rideCheck, .ok) else r

/-- A write of TUN_LIMITS (R220). -/
def State.tunLimitsWrite (s : State) (t v : Nat) : State × Status :=
  let rate := F.TUN_LIMITS_RATE.of v
  if rate = 0 && s.tunOn t then (s, .refusedState)
  else
    let x := s.ttx t
    let u := ((s.setTtx t { x with tokens := s.tokensNow t, tokAt := s.time }).wr F.TUN_LIMITS_MAX_FRAME t (F.TUN_LIMITS_MAX_FRAME.of v)).wr
      F.TUN_LIMITS_RATE t rate
    let r := s.commit u
    if r.2 = .ok then (r.1.holdUpdate, .ok) else r

/-- A write of TUN_RX_WIN (R246). -/
def State.tunWinWrite (s : State) (t v : Nat) : State × Status :=
  let u := s.wr F.TUN_RX_WIN_LOG2 t (F.TUN_RX_WIN_LOG2.of v)
  if s.on F.TUN_CFG_RX_EN t && u.windowsOver then (s, .refusedState) else (u, .ok)

/-- Writes of the tunnel and key registers. -/
def State.tunWrite (s : State) (r : Reg) (i v : Nat) : Option (State × Status) :=
  match r with
  | .TUN_CFG => some (s.tunCfgWrite i v)
  | .TUN_LIMITS => some (s.tunLimitsWrite i v)
  | .TUN_RX_WIN => some (s.tunWinWrite i v)
  | .TUN_ROLL => some (s.rollWrite i v)
  | .KEY_LOAD => some (s.keyLoadWrite v)
  | .KEY_LIMIT => some (s.keyLimitWrite v, .ok)
  | .KEY_ZEROISE => some (s.zeroiseWrite v)
  | _ => none

end Sys2Proof.Machine
end

