-- ==== Sys2Proof/Machine/Rx.lean ====
section
/-!
DEFINITION. The crypto at work (R218, R221, R233 to R247): encryption and release in SEQ order, copies from line ports, control bundles, decryption and
anti-replay; the ends of reads from the hold store.
-/

namespace Sys2Proof.Machine

/-! ### Encryption (R221, R241 to R243) -/

def execBundleRelease (t : Fin 24) (s : State) : Host.Outcome State Fault Refusal :=
  .next (
    let s1 := (s.voteTx t).voteSlots t 0
    let r := s1.releaseBundle t
    -- the next SEQ has reached C before ROLL_ACCEPT (R257)
    if r.2 && decide (r.1.rd F.TUN_STATUS_ROLL_TX t = 2) && decide ((r.1.ttx t).rollC = some (r.1.txSeq t)) then r.1.rollAbort t 1 2 else r.1)

/-- Encrypted bundles are handed over in SEQ order (R241). -/
def State.releaseDone (s : State) (t : Nat) : Nat → State
  | 0 => s
  | fuel + 1 =>
    let x := s.ttx t
    match x.done.find? fun b => b.seq = x.nextOut with
    | some b => ((s.setTtx t { x with done := x.done.filter fun c => c.seq ≠ b.seq, nextOut := x.nextOut + 1 }).protTake t b).releaseDone t fuel
    | none => s

/-- `n` frames of tunnel `t` are dropped with their bundle (R219). -/
def State.endsDropped (s : State) (t n : Nat) : State := if n = 0 then s else (s.bump F.TUN_CNT_DROP_BLOCKED_V t n).perfTun 14 t n

/-- The bundle in a pipeline is encrypted under the slot of its KEY_PHASE; without one it is dropped and the frames that end in it are counted (R219).
`slotUpset` says that the surroundings have upset the slot's memory (Table 13-1, region 8). -/
def State.encrypted (s : State) (t : Nat) (b : Bundle) (slotUpset : Bool) : State :=
  let x := s.ttx t
  let ends := (x.crypto.filter fun e => e.1.seq = b.seq).foldl (fun a e => a + e.2.2) 0
  let s1 := s.setTtx t { x with crypto := x.crypto.filter fun e => e.1.seq ≠ b.seq }
  match s1.slotPhase t 0 b.phase with
  | none => s1.endsDropped t ends
  | some k =>
    let y := s1.slotTakeUpset k slotUpset
    if y.1.resets ≠ s.resets then y.1
    else if !y.2 then y.1.endsDropped t ends
    else
      let s2 := y.1.setTtx t { y.1.ttx t with done := (y.1.ttx t).done ++ [y.1.seal k b] }
      let s3 := ((s2.bump F.TUN_CNT_BUNDLES_TX_V t 1).perfTun 2 t 1).releaseDone t ((s2.ttx t).done.length)
      s3.keyUse t k

/-- The tunnel and bundle in a transmit pipeline. -/
def State.inPipeline (s : State) (q : Nat) : Option (Nat × Bundle) :=
  (List.range 24).findSome? fun t => ((s.ttx t).crypto.find? fun e => e.2.1 = q).map fun e => (t, e.1)

def execEncryptDone (p : Fin 32) (slotUpset : Bool) (s : State) : Host.Outcome State Fault Refusal :=
  .next (match s.inPipeline p with
    | some (t, b) => ((s.voteTx t).voteSlots t 0).encrypted t b slotUpset
    | none => s)

def execPipelineParityFail (tx : Bool) (p : Fin 32) (s : State) : Host.Outcome State Fault Refusal :=
  .next (if s.inPipe (pipeMap tx) p then s.pipeFail tx p 1 else s)

/-! ### Control bundles (R235, R236) -/

/-- The message of an authentic control bundle is acted on; an unknown one, a wrong REF or a wrong N is ignored and counted. -/
def State.message (s : State) (t : Nat) (m : List Nat) : State :=
  let msg := m.getD 0 0
  let ref := m.getD 1 0
  let n := numBe ((m.drop 2).take 2)
  let f := m.drop 4
  let bad := s.bump F.TUN_CNT_FORMAT_ERR_V t 1
  let num (a k : Nat) : Nat := numBe ((f.drop a).take k)
  let shape (r k : Nat) : Bool := decide (ref = r ∧ n = k ∧ f.length = k)
  match msg with
  | 0x01 => if shape 1 16 then s.ackTake t (num 0 8) (num 8 8) else bad
  | 0x02 => if shape 1 12 then s.resendTake t (num 0 8) (num 8 4) else bad
  | 0x03 => if shape 0 16 then s.gapTake t (num 0 8) (num 8 4) (num 12 1) else bad
  | 0x10 => if shape 0 16 then (s.voteSlots t 1).offerTake t (num 0 4) (num 4 8) (num 12 4) else bad
  | 0x11 => if shape 1 12 then ((s.voteTx t).voteSlots t 0).acceptTake t (num 0 4) (num 4 8) else bad
  | 0x12 => if shape 0 12 then ((s.voteRx t).voteSlots t 1).commitTake t (num 0 4) (num 4 8) else bad
  | 0x13 => if shape 1 4 then ((s.voteTx t).voteSlots t 0).doneTake t (num 0 4) else bad
  | 0x14 => if (shape 0 8 || shape 1 8) then s.abortTake t (ref = 1) (num 0 4) (num 4 1) else bad
  | _ => bad

/-- A control bundle that fails authentication on both paths is counted (R236). -/
def State.ctrlFail (s : State) (t path seq : Nat) : State :=
  let y := s.trx t
  let s1 := s.setTrx t { y with ctrlFailed := (y.ctrlFailed.filter fun e => y.ctrlHigh < e.1 + 64) ++ [(seq, path)] }
  if y.ctrlFailed.contains (seq, 1 - path) && !y.ctrlFailed.contains (seq, path) then (s1.bump F.TUN_CNT_CTRL_AUTH_FAIL_V t 1).perfTun 15 t 1 else s1

/-- A control bundle: accepted once per control sequence, the first authentic copy, within 64 of the highest accepted (R236). -/
def State.ctrlTake (s0 : State) (t path : Nat) (b : Bundle) : State :=
  s0.unlessReset (s0.voteSlots t 1) fun s =>
  let p := s.protT t
  let a := s.noteArrival t b.seq path p.ctrlArr
  let s1 := a.1.setProt t { a.1.protT t with ctrlArr := a.2.drop (a.2.length - 128) }
  let y := s1.trx t
  if b.seq + 64 ≤ y.ctrlHigh || y.ctrlSeen.contains b.seq then s1
  else match s1.slotPhase t 1 b.phase with
    | none => s1.ctrlFail t path b.seq
    | some k =>
      let x := s1.slotTake k
      if !x.2 || x.1.resets ≠ s1.resets then x.1
      else match x.1.unseal k b with
        | none => x.1.ctrlFail t path b.seq
        | some m =>
          let high := max y.ctrlHigh b.seq
          (x.1.setTrx t { y with ctrlHigh := high, ctrlSeen := (y.ctrlSeen.filter fun n => high < n + 64) ++ [b.seq] }).message t m

/-! ### Copies from line ports (R218, R232 to R234) -/

/-- The header of a copy is in order but for its tunnel (R234). -/
def headerOk (h : List Nat) : Bool :=
  let len := numBe ((h.drop 4).take 2)
  let first := numBe ((h.drop 6).take 2)
  decide (h.getD 1 0 = 0x10 ∨ h.getD 1 0 = 0x11) && decide (h.getD 2 0 < 32) && decide (h.getD 3 0 < 4) &&
    (if h.getD 0 0 = 0xB1 then decide (1 ≤ len ∧ len ≤ 9184) && (decide (first < len) || decide (first = 0xFFFF))
     else decide (h.getD 0 0 = 0xB2) && decide (4 ≤ len ∧ len ≤ 64) && decide (first = 0))

/-- The bundle a copy carries. -/
def bundleOf (m : List Nat) : Bundle :=
  { ctrl := m.getD 0 0 = 0xB2, tunnel := m.getD 2 0 % 32, phase := m.getD 1 0 % 2, seq := numBe ((m.drop 8).take 8), first := numBe ((m.drop 6).take 2)
    body := (m.drop 16).take (numBe ((m.drop 4).take 2) + 16), resent := m.getD 3 0 / 2 % 2 = 1 }

/-- A copy that is not intact, by the path it came on (R234). -/
def State.erroredCopy (s : State) (t path : Nat) : State :=
  if path = 0 then s.bump F.TUN_CNT_ERRORED_A_V t 1 else s.bump F.TUN_CNT_ERRORED_B_V t 1

/-- An intact data copy for an enabled tunnel: discarded while the direction is BLOCKED without a current key and in Maintenance mode (R39, R219, R254). Each
bundle counts once towards RATE (R221). -/
def State.dataCopy (s0 : State) (t path : Nat) (b : Bundle) : State :=
  s0.unlessReset ((s0.voteRx t).voteSlots t 1) fun s =>
  if !s.service || (s.slotOf t 1 2).isNone then s.bundlesBlocked t 1
  else
    let seen := decide (b.seq ≤ s.rxD t) || (s.protT t).arrivals.any fun a => decide (a.1 = b.seq)
    (if seen then s else s.rateJudge t ((s.trx t).recent ++ [(s.time, b.size)])).mergeOffer t path b

/-- A copy arrives on path `path`; `whole` is the number of bytes it must have for LENGTH (R232, R233). One too short to name its tunnel counts as naming
none. -/
def State.copyTake (s : State) (path : Nat) (m : List Nat) (whole : Nat → Nat) (errored : Bool) : State :=
  let t := m.getD 2 31 % 32
  if 24 ≤ t then s.bump F.CRY_NO_TUNNEL_COUNT 0 1
  else if errored || decide (m.length < 16) then s.erroredCopy t path
  else if !s.on F.TUN_CFG_RX_EN t || !headerOk m then s.bump F.TUN_CNT_FORMAT_ERR_V t 1
  else if m.length ≠ whole (numBe ((m.drop 4).take 2) + 32) then s.erroredCopy t path
  else if (bundleOf m).ctrl then s.ctrlTake t path (bundleOf m)
  else s.dataCopy t path (bundleOf m)

/-- Bytes of whole blocks. -/
def wholeBlocks (n : Nat) : Nat := (n + 31) / 32 * 32

/-- A received notice: two in a row on one port with the same epoch are acted on (R238). -/
def State.noticeTake (s : State) (p : Nat) (m : List Nat) : State :=
  let e := numBe ((m.drop 1).take 4)
  if 32 ≤ m.length ∧ m.getD 0 0 = 0xB3 ∧ numBe ((m.drop 30).take 2) = crc16 (m.take 30) then
    let again := (s.port p).notice = some e
    let s1 := s.setPort p { s.port p with notice := some e }
    if again then s1.epochTake e else s1
  else s.setPort p { s.port p with notice := none }

/-- An Ethernet frame on carrier port `p`: its check sequence, destination and EtherType, then the copy or the epoch notice in it (R233, R237). -/
def State.carrierFrame (s : State) (p path : Nat) (f : List Nat) (errored : Bool) : State :=
  let dst := s.rd F.CRY_MAC_LOCAL_HI_ADDR 0 * 2 ^ 32 + s.rd F.CRY_MAC_LOCAL_LO_ADDR 0
  if f.length < 18 then s.bump F.CRY_FOREIGN_COUNT 0 1
  else if numBe (f.take 6) ≠ dst ∨ numBe ((f.drop 12).take 2) ≠ s.rd F.CRY_ETHERTYPE_TYPE 0 then s.bump F.CRY_FOREIGN_COUNT 0 1
  else
    let m := (f.drop 14).take (f.length - 18)
    let bad := errored || !fcsOk f
    if m.getD 0 0 = 0xB3 then (if bad then s else s.noticeTake p m) else s.copyTake path m id bad

/-- What a line port received as one copy: an Ethernet frame with FORMAT 1, whole blocks with FORMAT 2 and 3. -/
def State.portCopy (s : State) (p : Nat) (m : List Nat) (errored : Bool) : State :=
  if s.isLine p && s.on F.PORT_STATUS_RX_READY p then
    let path := s.role p - 2
    if s.fmt p = 1 then (s.frameOver p).carrierFrame p path m (errored || s.spoilt p) else s.copyTake path m wholeBlocks errored
  else s

def execBundleCopyRx (p : Fin 48) (copy : List Byte) (errored : Bool) (s : State) : Host.Outcome State Fault Refusal :=
  .next (s.portCopy p (copy.map fun b => b.toNat) errored)

def execControlBundleRx (p : Fin 48) (copy : List Byte) (errored : Bool) (s : State) : Host.Outcome State Fault Refusal :=
  .next (s.portCopy p (copy.map fun b => b.toNat) errored)

/-! ### Decryption (R245 to R247, R254) -/

/-- The slot of a data copy: by KEY_PHASE, or by SEQ once C is armed, when a disagreeing KEY_PHASE leaves none (R247). -/
def State.rxSlotFor (s : State) (t : Nat) (b : Bundle) : Option Nat :=
  match (s.trx t).rollC with
  | some c =>
    match s.slotOf t 1 (if b.seq < c then 2 else 3) with
    | some k => if s.rd F.KEY_DESC_PHASE k = b.phase then some k else none
    | none => none
  | none => s.slotPhase t 1 b.phase

/-- The copy in decryption leaves the merge. -/
def State.dropCopy (s : State) (t : Nat) (c : Copy) : State :=
  let p := s.protT t
  s.setProt t { p with copies := p.copies.filter fun d => !(d.seq = c.seq && d.path = c.path), decrypting := none }

/-- A copy fails authentication: counted by its path; the other copy serves when it comes (R245). -/
def State.authFail (s : State) (t : Nat) (c : Copy) : State :=
  let s1 := s.dropCopy t c
  let s2 := s1.setProt t { s1.protT t with failed := (s1.protT t).failed ++ [(c.seq, c.path)] }
  let s3 := if c.path = 0 then (s2.bump F.TUN_CNT_AUTH_FAIL_A_V t 1).perfTun 5 t 1 else (s2.bump F.TUN_CNT_AUTH_FAIL_B_V t 1).perfTun 6 t 1
  ((s3.event F.TUN_EVENT_AUTH t).runPrune t).mergeGo t

/-- SEQ is awaited: a RESEND or an alignment entry for it is open (R246). -/
def State.awaited (s : State) (t n : Nat) : Bool :=
  s.inRun t n || s.held.any fun h => h.tunnel = t && h.kind = .align && decide (h.seq = n)

/-- The anti-replay test (R246). -/
def State.replayOk (s : State) (t n : Nat) : Bool :=
  decide (s.rxD t < n) && ((decide (s.rxH t < n + s.winBits t) && !(s.trx t).window.contains n) || s.awaited t n)

/-- Acceptance sets the window bit and raises H (R246). -/
def State.windowSet (s : State) (t n : Nat) : State :=
  let h := max (s.rxH t) n
  let y := s.trx t
  let s1 := s.setTrx t { y with window := (y.window.filter fun m => h < m + s.winBits t) ++ [n] }
  if s.rxH t < n then s1.setRxH t n else s1

/-- The bundle with which a direction that lost its tallies resynchronises: the new D + 1, behind a gap of unknown length counted as 1 (R254). The copies below it,
and its own other copy, that came while the direction was BLOCKED are discarded and counted (R219). -/
def State.resyncTake (s : State) (t : Nat) (c : Copy) (m : List Nat) : State :=
  let below := ((s.dropCopy t c).protT t).copies.filter fun d => d.seq ≤ c.seq
  let s1 := (((s.dropCopy t c).bundlesBlocked t below.length).put F.TUN_STATUS_RESYNC t false).setTrx t { s.trx t with window := [c.seq] }
  let s2 := ((s1.setRxD t (c.seq - 1)).setRxH t c.seq).gapNote t (c.seq - 1) 1 5
  ((s2.deliverBundle t c.seq c.bundle.first m).tunState t).advanced t |>.mergeGo t

/-- An authentic bundle is delivered, or discarded as a replay (R246). -/
def State.accept (s : State) (t : Nat) (c : Copy) (m : List Nat) : State :=
  let s1 := s.dropCopy t c
  if s.replayOk t c.seq then
    let back := (s.protT t).hasFailed c.seq (1 - c.path)
    let s2 := if back then (s1.bump F.TUN_CNT_FALLBACK_OK_V t 1).perfTun 7 t 1 else s1
    ((((s2.windowSet t c.seq).deliverBundle t c.seq c.bundle.first m).advanced t).mergeGo t)
  else ((s1.bump F.TUN_CNT_REPLAY_V t 1).perfTun 8 t 1).mergeGo t

/-- The decryption of a copy finishes. -/
def State.decrypted (s : State) (t : Nat) (c : Copy) (slotUpset : Bool) : State :=
  match s.rxSlotFor t c.bundle with
  | none => s.authFail t c
  | some k =>
    let y := s.slotTakeUpset k slotUpset
    if y.1.resets ≠ s.resets then y.1
    else if !y.2 then y.1.dropCopy t c
    else match y.1.unseal k c.bundle with
      | none => y.1.authFail t c
      | some m => if s.on F.TUN_STATUS_RESYNC t then y.1.resyncTake t c m else y.1.accept t c m

def execDecryptDone (t : Fin 24) (slotUpset : Bool) (s : State) : Host.Outcome State Fault Refusal :=
  .next (
    let s1 := (s.voteRx t).voteSlots t 1
    match (s1.protT t).decrypting with
    | none => s1
    | some (n, x) =>
      match (s1.protT t).copies.find? fun c => c.seq = n && c.path = x with
      | some c => s1.decrypted t c slotUpset
      | none => (s1.setProt t { s1.protT t with decrypting := none }).mergeGo t)

/-! ### Reads from the hold store end (R287, R288, R295, R296, R321, R327) -/

/-- The held copy a read is for. -/
def State.heldOf (s : State) (r : HeldRead) : Option Held :=
  s.held.find? fun h => h.serves r.kind && h.tunnel = r.tunnel && h.seq = r.seq && h.path = r.path

/-- A held copy that could not be written is discarded, and treated as a lost billet of cause 2 (R297). -/
def State.discardHeld (s : State) (d : Held) : State :=
  { s with held := s.held.map fun h =>
      if h = d then { h with lost := 2, billets := [], gone := h.gone ++ (h.billets.take 1).map fun b => (s.lossNumber, b) } else h }

/-- A resend read ends: the bundle is sent again (R321). -/
def State.retxRead (s : State) (r : HeldRead) (b : Bundle) : State :=
  let t := r.tunnel
  let p := s.protT t
  ((s.setProt t { p with resendQ := p.resendQ ++ [{ b with resent := true }] }).bump F.PROT_TUN_CNT_RESENT_V t 1).perfTun 11 t 1

/-- Requested retransmission copies of SEQs that cannot be read: their reads end and their loss is declared (R288, R296). -/
def State.retxLost (s : State) (t cause : Nat) (ns : List Nat) : State :=
  let mine (h : Held) : Bool := h.serves .retx && decide (h.tunnel = t) && ns.contains h.seq
  let s1 := s.neededBy mine
  State.sendGaps { s1 with
    held := s1.held.map fun h => if mine h then { h with lost := cause } else h
    heldReads := s1.heldReads.filter fun r => !(r.kind = .retx && decide (r.tunnel = t) && ns.contains r.seq) } t cause ns

/-- A drain read ends: the bundle waits for its placement; in Lossless the copy stays as a retransmission copy (R326, R327). -/
def State.rideRead (s : State) (r : HeldRead) (b : Bundle) : State :=
  let t := r.tunnel
  let s0 := s.backlogDrop t [r.seq]
  let s1 := s0.setProt t { s0.protT t with sendQ := (s0.protT t).sendQ ++ [b] }
  let mine (h : Held) : Bool := h.kind = .ride && h.tunnel = t && decide (h.seq = r.seq)
  let s2 := if s.held.any fun h => mine h && h.retxToo then
      { s1 with held := s1.held.map fun h => if mine h then { h with kind := .retx } else h }
    else s1.holdRelease false mine
  s2.rideRetryAll

/-- A read into the merge buffer ends with its data: the copy is there (R315). -/
def State.mergeRead (s : State) (r : HeldRead) : State :=
  let t := r.tunnel
  let p := s.protT t
  let mine (c : Copy) : Bool := decide (c.seq = r.seq ∧ c.path = r.path)
  let s1 := (p.copies.filter mine).foldl (fun u c => u.bufferPut t c) s
  (s1.setProt t { p with copies := p.copies.map fun c => if mine c then { c with place := .buffer } else c }).mergeGo t

/-- Received copies in the store count as missing in the merge: their reads end and their billets are freed (R288, R296). -/
def State.mergeDrop (s : State) (p : Held → Bool) : State :=
  let gone := s.held.filter fun h => rxKind h.kind && p h
  let ofCopy (h : Held) (kind : HeldKind) (t n x : Nat) : Bool := decide (h.kind = kind ∧ h.tunnel = t ∧ h.seq = n ∧ h.path = x)
  let s1 := gone.foldl (fun u h =>
    let q := u.protT h.tunnel
    u.setProt h.tunnel { q with copies := q.copies.filter fun c => !(c.seq = h.seq && c.path = h.path && c.place ≠ .buffer) })
    { s with heldReads := s.heldReads.filter fun r => !gone.any fun h => ofCopy h r.kind r.tunnel r.seq r.path }
  let s2 := (gone.map fun h => h.tunnel).eraseDups.foldl (fun u t => u.runPrune t) s1
  (s2.holdRelease false fun h => gone.any fun g => ofCopy g h.kind h.tunnel h.seq h.path).mergeAll

/-- The loss of the copies that reads of one transmit function wait for: each tunnel's is declared in runs, and drain goes on. -/
def State.txReadsLost (s : State) (cause : Nat) (rs : List HeldRead) : State :=
  let seqs (k : HeldKind) (t : Nat) : List Nat := (rs.filter fun r => r.kind = k && r.tunnel = t).map fun r => r.seq
  (List.range 24).foldl (fun u t =>
    let u1 := if (seqs .retx t).isEmpty then u else u.retxLost t cause (seqs .retx t)
    if (seqs .ride t).isEmpty then u1 else (u1.rideLost t cause (seqs .ride t)).drainNext t) s

/-- The copies of a tunnel's transmit function with a byte in billet `b` that are read or wait to be read: those a RESEND asked for, or the whole backlog
(R288). -/
def State.readsIn (s : State) (k : HeldKind) (t : Nat) (b : Nat × Nat) : List HeldRead :=
  (s.held.filter fun h => h.serves k && h.tunnel = t && h.billets.contains b &&
      (k = .ride || s.heldReads.any fun r => r.kind = .retx && r.tunnel = t && decide (r.seq = h.seq))).map
    fun h => (⟨k, h.tunnel, h.seq, h.path, [], 0⟩ : HeldRead)

/-- A read is over: with its data, or lost with a cause at billet `b`, and with it every copy of its function that has a byte there (R288). -/
def State.readEnd (s : State) (r : HeldRead) (b : Nat × Nat) : State :=
  match s.heldOf r with
  | none => s
  | some h =>
    match r.kind, r.lost with
    | .retx, 0 => s.retxRead r h.bundle
    | .ride, 0 => s.rideRead r h.bundle
    | .retx, c => s.txReadsLost c ((⟨r.kind, r.tunnel, r.seq, r.path, [], 0⟩ : HeldRead) :: (s.readsIn .retx r.tunnel b).filter fun q => q.seq ≠ r.seq)
    | .ride, c => s.txReadsLost c (s.readsIn .ride r.tunnel b)
    | _, 0 => s.mergeRead r
    | _, _ => s.mergeDrop fun g => g.tunnel = r.tunnel && g.billets.contains b

/-- The first read waiting for billet (c, l). -/
def State.readAt (s : State) (c l : Nat) : Option HeldRead := s.heldReads.find? fun r => r.left.contains (c, l)

/-- A read is replaced, or over, billet `b` being the one read last. -/
def State.readStep (s : State) (r q : HeldRead) (b : Nat × Nat) : State :=
  if q.left.isEmpty || q.lost ≠ 0 then State.readEnd { s with heldReads := s.heldReads.erase r } q b
  else { s with heldReads := s.heldReads.map fun x => if x = r then q else x }

/-- A read of channel `c` waits that the over-budget order serves ahead of kind `k`: alignment reads, resend reads, drain reads (R297). -/
def State.readAhead (s : State) (c : Nat) (k : HeldKind) : Bool :=
  s.heldReads.any fun r => (r.left.any fun b => b.1 = c) && (rxKind r.kind || (k = .ride && r.kind = .retx))

/-- A read of channel `c` may proceed: drain reads and resend reads only while the budget of R30 lets drain progress, and at its rate (R322, R327); over budget
in the order of R297. -/
def State.readMay (s : State) (c : Nat) (r : HeldRead) : Bool :=
  rxKind r.kind || (if s.on F.HOLD_STATUS_OVER_BUDGET 0 then !s.readAhead c r.kind else s.drainRuns && s.drainPace)

/-- A demand read of billet (c, n) for read `r` completes: CLINKER for a marked billet, else corrections, or the mark an uncorrectable burst leaves (R284 to
R288). -/
def State.demandRead (s0 : State) (r : HeldRead) (c n : Nat) (errs : List BurstRead) (retries : Nat) : State :=
  s0.unlessReset (((s0.dataPath 122).clinkerRead c n).cordRead c n) fun s =>
  let q := { r with left := r.left.erase (c, n) }
  if s.readDone c n = .clinker then s.readStep r { q with lost := 1 } (c, n)
  else
    s.unlessReset ((s.retries c retries).burstErrors c n errs) fun u =>
      (u.perfCh 1 c 1).readStep r (if u.readDone c n = .clinker then { q with lost := 1 } else q) (c, n)

/-! ### Failure and stop of the store (R269, R294 to R297) -/

/-- Copies stored on a channel that is lost, or everywhere (`none`), count as missing in the merge (R288, R296). -/
def State.mergeLost (s : State) : State := s.mergeDrop fun h => s.copyLost h = 2

/-- Reads that meet a lost copy complete CHANNEL_LOST, in issue order (R295); the copies of the merge among them count as missing (R296). -/
def State.readsLost (s : State) (p : HeldRead → Bool) : State :=
  let gone := s.heldReads.filter p
  let s1 := State.txReadsLost { s with heldReads := s.heldReads.filter fun r => !p r } 2 gone
  s1.mergeDrop fun h => gone.any fun r => decide (r.kind = h.kind ∧ r.tunnel = h.tunnel ∧ r.seq = h.seq ∧ r.path = h.path)

/-- A LIVE channel fails: cause 0 to 5 stand for TIMEOUT, CA_PARITY, WRITE_CRC, UE_BURST, ALERT, PHY (R294 to R297). -/
def State.channelFail (s : State) (c cause : Nat) : State :=
  let s0 := if cause = 6 ∨ cause = 7 then s.retries c 8 else s
  s0.unlessReset (s0.chFail c cause) fun u =>
  let s1 := u.faultNote s [5, c]
  let s2 := match s1.repair with | some r => if r.ch = c then (if r.hard then s1.repairEnd r 3 else s1.softEnd r 3) else s1 | none => s1
  let s3 := { s2 with heldOpen := s2.heldOpen.filter fun o => o.ch ≠ c }
  (((s3.readsLost fun r => r.left.any fun b => b.1 = c).mergeLost).holdUpdate).scrubPass

def execChannelFail (c : Fin 24) (cause : Fin 6) (s : State) : Host.Outcome State Fault Refusal :=
  .next (if s.chLive c then s.channelFail c (cause.val + 5) else s)

/-- Uncorrectable errors on many billets fail their channel (R294). -/
def State.ueCheck (s : State) (c : Nat) : State := if s.chLive c && s.ueMany c then s.channelFail c 8 else s

/-- A demand read of a billet completes (R278, R284 to R288, R294). -/
def execHoldReadComplete (c : Fin 24) (l : W32) (errs : List BurstRead) (retries : Fin 9) (s : State) : Host.Outcome State Fault Refusal :=
  .next (match s.readAt c l.toNat with
    | none => s
    | some r =>
      if s.chServes c && s.readMay c r then (((if rxKind r.kind then s else s.drainCount 4096)).demandRead r c l.toNat errs retries).ueCheck c else s)

/-- The scrubber reads the next billet of a channel (R282), once its overflowed rows are scrubbed (Table 7-5). -/
def execScrubBillet (c : Fin 24) (errs : List BurstRead) (s : State) : Host.Outcome State Fault Refusal :=
  .next (
    let l := (s.hcOf c).scrubAt
    if s.scrubOn && s.chServes c && decide (l < s.filledBillets c) && (s.hcOf c).rowScrub.isEmpty then
      s.unlessReset (s.burstErrors c l errs) fun u => ((u.setHc c { u.hcOf c with scrubAt := l + 1 }).scrubPass).ueCheck c
    else s)

/-- The scrub of an overflowed row, ahead of the pass and whatever EN holds (Table 7-5); over budget it waits (R297). -/
def execRowScrub (c : Fin 24) (errs : List (Fin 4 × BurstRead)) (s : State) : Host.Outcome State Fault Refusal :=
  .next (
    let x := s.hcOf c
    match x.rowScrub with
    | r :: rest => if !s.on F.HOLD_STATUS_OVER_BUDGET 0 && s.chServes c then ((s.setHc c { x with rowScrub := rest }).rowErrors c r errs).ueCheck c else s
    | [] => s)

/-- The soft repair in its window: its result and what the reads of the row's billets found (R291, Table 7-6). -/
def execRepairWindow (result : Fin 3) (errs : List (Fin 4 × BurstRead)) (s : State) : Host.Outcome State Fault Refusal :=
  .next (match s.repair with
    | some r => if !r.hard && s.windowOpens r.ch then s.unlessReset (s.rowErrors r.ch r.row errs) fun u => (u.softEnd r (result.val + 1)).ueCheck r.ch else s
    | none => s)

/-- A held copy as loss number `k`, a STOP, leaves it: lost with cause 2, its billets gone (R269, R296). -/
def stopHeld (k : Nat) (h : Held) : Held :=
  { h with billets := [], lost := if h.lost = 0 then 2 else h.lost, gone := h.gone ++ h.billets.map fun b => (k, b) }

/-- STOP: a waiting repair ends; every LIVE channel in self-refresh, every cord unfilled, no clinker mark, the store OFF, all held copies lost with cause 2
(R269). -/
def State.holdStop (s : State) : State :=
  let s0 := match s.repair with | some r => if r.hard then s.repairEnd r 3 else s.softEnd r 3 | none => s
  let s1 := (List.range 24).foldl (fun u c =>
    match u.rd F.HOLD_CH_STATUS_STATE c with
    | 2 => (u.wr F.HOLD_CH_STATUS_STATE c 3).perfCh 7 c 1
    | 1 => u.wr F.HOLD_CH_STATUS_STATE c 0
    | _ => u) s0
  let s2 := (List.range 24).foldl (fun u c => u.setHc c { u.hcOf c with filled := 0, clinkers := [], retest := [], needed := [], withdrawn := [] }) s1
  let s3 := { s2 with held := s2.held.map (stopHeld s2.lossNumber), heldOpen := [] }
  let s4 := (s3.wr F.HOLD_STATUS_STATE 0 0).clearMem .mirror fun _ => true
  ((s4.readsLost fun _ => true).mergeLost).holdUpdate

/-- Kiln has excluded the store's controller, so that the store stays OFF (Table 15-1). -/
def State.holdExcluded (s : State) : Bool := decide (s.rd F.KILN_REG_STATE 122 = 2 ∨ s.rd F.KILN_REG_STATE 122 = 3)

/-- A write of HOLD_CTL (R267, R269). With both bits set the store stops, then starts. -/
def State.holdCtlWrite (s : State) (v : Nat) : State × Status :=
  let s1 := if F.HOLD_CTL_STOP.of v = 1 then s.holdStop else s
  if F.HOLD_CTL_START.of v = 1 then (if s1.rd F.HOLD_STATUS_STATE 0 = 0 && !s1.holdExcluded then (s1.holdTrain, .ok) else (s1, .refusedState)) else (s1, .ok)

def execHoldStart (ag : Agent) (s : State) : Host.Outcome State Fault Refusal :=
  .next (s.writing ag .HOLD_CTL 0 1 fun t => t.holdCtlWrite 1)

def execHoldStop (ag : Agent) (s : State) : Host.Outcome State Fault Refusal :=
  .next (s.writing ag .HOLD_CTL 0 2 fun t => t.holdCtlWrite 2)

/-- Over budget, a held copy not written within 50 µs is discarded as a lost billet; a ride-through write that cannot be served makes the tunnel block
(R297). -/
def execHeldCopyTimeout (kind : HeldKind) (t : Fin 24) (seq : W64) (path : Fin 2) (s : State) : Host.Outcome State Fault Refusal :=
  .next (if s.on F.HOLD_STATUS_OVER_BUDGET 0 = false then s
    else match s.held.find? fun h => h.kind = kind && h.tunnel = t.val && h.seq = seq.toNat && h.path = path.val with
      | none => s
      | some h =>
        if s.time < h.storedAt + 125000 then s
        else match kind with
          | .ride => s.setProt t { s.protT t with storeFull := true }
          | .retx => s.discardHeld h
          | _ => (s.discardHeld h).mergeLost)

end Sys2Proof.Machine
end

