-- ==== Sys2Proof/Machine/RxPath.lean ====
section
/-!
DEFINITION. The digital part of a lane's receiver, sample by sample: conversion (R111), equalisers (R126, R127), sequence estimator (R128 to R130), clock
recovery (R121, R122), gradients (R112, R132).
-/

namespace Sys2Proof.Machine

/-! ### Conversion (R111) -/

/-- The code of an input in units of 10 µV: 0 at -250 mV, 128 at 0, 255 at +250 mV. -/
def adcCode (v : Int) : Nat := (clampInt 0 255 (128 + (v * 128 + 12500) / 25000)).toNat

/-- The over-range flag: the input exceeds 1.06 times half of full scale, ±265 mV. -/
def adcOver (v : Int) : Bool := decide (26500 < v.natAbs)

/-- A converted sample: its code and its flag. -/
def AdcIn.convert (x : AdcIn) : Nat × Bool := (adcCode x.conv.toInt, adcOver x.cmp.toInt)

/-- A code about mid-scale. -/
def codeVal (x : Nat × Bool) : Int := (x.1 : Int) - 128

/-! ### What the path works with -/

/-- The settings a sample meets: coefficients of Table 3-9, MAIN_POS, MLSE, the bandwidth of the clock recovery and whether it is
held. -/
structure RxCfg where
  coef : Nat → Int
  main : Nat
  mlse : Nat
  bw : Nat
  hold : Bool

/-- States of the estimator; none with MLSE OFF (R128). -/
def RxCfg.states (c : RxCfg) : Nat := match c.mlse with | 0 => 0 | 1 => 16 | _ => 64

/-- Traceback in symbols. -/
def RxCfg.traceback (c : RxCfg) : Nat := match c.mlse with | 0 => 0 | 1 => 32 | _ => 48

/-- The level-table entry of a pattern. -/
def RxCfg.level (c : RxCfg) (p : Nat) : Int := c.coef (0x100 + p)

/-- The pattern index of decided symbols, newest first (R129, Table 3-9). -/
def RxCfg.pattern (c : RxCfg) (d : List Nat) : Nat :=
  let at_ (i : Nat) : Nat := d.getD i 0 % 4
  match c.mlse with
  | 0 => at_ 0
  | 1 => 16 * at_ 0 + 4 * at_ 1 + at_ 2
  | _ => 64 * at_ 0 + 16 * at_ 1 + 4 * at_ 2 + at_ 3

/-! ### Equalisers (R126, R127) -/

/-- The pairs (a, b) of the nonlinear terms in the order of Table 3-9: (-2,-2), (-2,-1) … (5,5). Offsets are counted from -2. -/
def nlePairs : List (Nat × Nat) := (List.range 8).flatMap fun a => ((List.range 8).filter fun b => a ≤ b).map fun b => (a, b)

/-- Sample `k` of a delay line, newest first. -/
def lineAt (line : List (Nat × Bool)) (k : Nat) : Int := codeVal (line.getD k (128, false))

/-- The equaliser output in units of 1/512: DC offset, 64 taps (1.0 = 512) and 36 products of samples about the main cursor (1.0 = 256). -/
def RxCfg.sum (c : RxCfg) (line : List (Nat × Bool)) : Int :=
  let ffe := (List.range 64).foldl (fun a k => a + c.coef k * lineAt line k) 0
  let nle := (List.zip nlePairs (List.range 36)).foldl (fun a x =>
    a + c.coef (0x40 + x.2) * lineAt line (c.main - 2 + x.1.1) * lineAt line (c.main - 2 + x.1.2)) 0
  512 * c.coef 0x64 + ffe + 2 * nle

/-- The equaliser output. How the fraction is rounded is not given, nor the width: it is limited to signed 12 bits, the range the bins of R347 take
(log entry 9). -/
def RxCfg.output (c : RxCfg) (line : List (Nat × Bool)) : Int :=
  let v := c.sum line
  clampInt (-2048) 2047 ((v + (Config.eqFrac v.natAbs % 512 : Nat)) / 512)

/-! ### Sequence estimator (R128, R129) -/

/-- A branch metric: the squared difference, at most 4,095. -/
def branchMetric (y level : Int) : Nat := min 4095 ((y - level) * (y - level)).toNat

/-- The best way into state `ns`: its metric and the state before. Of `S` states the four before it share its older symbols; of equal metrics the lowest
state wins, and when the estimator starts every path metric is 0 (the model's choices, log entry 9). -/
def RxCfg.enter (c : RxCfg) (r : RxS) (S : Nat) (y : Int) (ns : Nat) : Nat × Nat :=
  let cand (k : Nat) : Nat × Nat :=
    let q := ns % (S / 4) * 4 + k
    (min 65535 (r.metrics.getD q 0 + branchMetric y (c.level (ns * 4 + k))), q)
  (List.range 3).foldl (fun a k => let b := cand (k + 1); if b.1 < a.1 then b else a) (cand 0)

/-- The state with the lowest metric, and the two lowest metrics. -/
def bestState (m : List Nat) : Nat × Nat × Nat :=
  let b := (List.range m.length).foldl (fun (a : Nat × Nat) i => if m.getD i 0 < a.2 then (i, m.getD i 0) else a) (0, m.getD 0 0)
  let second := (List.range m.length).foldl (fun a i => if i = b.1 then a else match a with | none => some (m.getD i 0) | some v => some (min v (m.getD i 0)))
    (none : Option Nat)
  (b.1, b.2, second.getD b.2)

/-- Slicing at the midpoints of four levels (MLSE OFF); which way a midpoint itself goes is not given (log entry 9). -/
def RxCfg.slice (c : RxCfg) (y : Int) : Nat :=
  ((List.range 3).filter fun i => decide (c.level i + c.level (i + 1) + (if Config.sliceTie i % 2 = 1 then 0 else 1) ≤ 2 * y)).length

/-- What the estimator makes of an output: its new metrics and survivors, the tentative decision and how many symbols back it lies (8 of traceback), the symbol
decided after the full traceback with the difference of the two best metrics. -/
structure Decision where
  metrics : List Nat
  surv : List (List Nat)
  tentative : Nat
  back : Nat
  final : Option (Nat × Nat)

/-- One output through the estimator. With MLSE OFF there are no path metrics and no difference of two is given (log entry 9). -/
def RxCfg.decide_ (c : RxCfg) (r : RxS) (y : Int) : Decision :=
  if c.states = 0 then { metrics := [], surv := [], tentative := c.slice y, back := 0,
                               final := some (c.slice y, Config.sliceMargin (y + 2048).toNat % 256) }
  else
    let S := c.states
    let ways := (List.range S).map fun ns => c.enter r S y ns
    let metrics := ways.map Prod.fst
    let surv := (List.range S).map fun ns => (ns / (S / 4) :: r.surv.getD ((ways.getD ns (0, 0)).2) []).take (c.traceback + 1)
    let b := bestState metrics
    let path := surv.getD b.1 []
    let back := min 8 (path.length - 1)
    { metrics := metrics, surv := surv, tentative := path.getD back 0, back := back
      final := path[c.traceback]?.map fun s => (s, b.2.2 - b.2.1) }

/-! ### Clock recovery (R121, R122) -/

/-- The phase and the frequency after a tentative decision and the output it decides. The phase detector and the gains of a bandwidth are not given (log entry 9);
the phase runs modulo 1 UI in 1/64, the frequency stays within ±300 ppm. -/
def RxCfg.track (c : RxCfg) (r : RxS) (y : Int) (d : Nat) : Nat × Int :=
  if c.hold then (r.phase, r.freq)
  else
    let e := Config.phaseError (y + 2048).toNat d
    let f := clampInt (-30000) 30000 (r.freq + Config.cdrIntegral c.bw e)
    ((((r.phase : Int) + Config.cdrProportional c.bw e + Config.cdrDrift f) % 64).toNat, f)

/-! ### One sample -/

/-- How many samples, outputs and decisions the path keeps: one block, the traceback and the taps. -/
def keepLine : Nat := 272
def keepOutputs : Nat := 208
def keepDecided : Nat := 163

/-- A decided symbol enters the windows of the figures: flagged samples are left out (R112, Table 3-10). -/
def SnrSum.add (a : SnrSum) (level e : Int) : SnrSum :=
  { count := a.count + 1, levels := a.levels + (level * level).toNat, errors := a.errors + (e * e).toNat }

/-- The figures of a decided symbol: `d` the decisions with it, newest first. -/
def RxCfg.measure (c : RxCfg) (r : RxS) (d : List Nat) (diff : Nat) : RxS :=
  let k := c.traceback
  let level := c.level (c.pattern d)
  let e := r.ys.getD k 0 - level
  let r1 := { r with margins := Amap.put natLt 0 r.margins (min 255 diff) (Amap.get 0 r.margins (min 255 diff) + 1) }
  if (r.line.getD (k + c.main) (0, false)).2 then r1 else { r1 with fom := r1.fom.add level e, wake := r1.wake.add level e }

/-- One sample through the path: the path after it, and the symbol delivered as its physical level. -/
def RxCfg.sample (c : RxCfg) (r : RxS) (x : Nat × Bool) : RxS × Option Nat :=
  let line := (x :: r.line).take keepLine
  let y := c.output line
  let q := c.decide_ r y
  let t := c.track r ((y :: r.ys).getD q.back y) q.tentative
  let r1 := { r with processed := r.processed + 1, line := line, ys := (y :: r.ys).take keepOutputs, metrics := q.metrics, surv := q.surv, phase := t.1, freq := t.2
                     overs := r.overs + x.2.toNat }
  match q.final with
  | none => (r1, none)
  | some (s, diff) =>
    let d := (s :: r1.decided).take keepDecided
    (c.measure { r1 with decided := d, decidedNr := r1.decidedNr + 1 } d diff, some s)

/-- Samples through the path, oldest first: the path and the symbols delivered. -/
def RxCfg.samples (c : RxCfg) (r : RxS) : List (Nat × Bool) → RxS × List Nat
  | [] => (r, [])
  | x :: l => let a := c.sample r x; let b := c.samples a.1 l; (b.1, a.2.toList ++ b.2)

/-- The path metrics are renormalised every block: the lowest becomes 0. -/
def RxS.renormalise (r : RxS) : RxS := { r with metrics := r.metrics.map fun m => m - (bestState r.metrics).2.1 }

/-- The samples counted for the gain loop (R107). -/
def RxS.count (r : RxS) (l : List (Nat × Bool)) : RxS :=
  { r with tenCount := r.tenCount + l.length, tenSquares := r.tenSquares + l.foldl (fun a x => a + (codeVal x * codeVal x).toNat) 0
           tenOvers := r.tenOvers + (l.filter fun x => x.2).length }

/-! ### Gradients (R112, R132) -/

/-- A sample of the gradient block: the delay line from it on, its output and the decisions from it on. -/
structure GradSample where
  line : List (Nat × Bool)
  y : Int
  d : List Nat

/-- The gradient block: the last 160 decided samples whose main-cursor sample carries no flag, newest first. -/
def RxCfg.gradBlock (c : RxCfg) (r : RxS) : List GradSample :=
  ((List.range (min 160 r.decided.length)).map fun i => (⟨r.line.drop (c.traceback + i), r.ys.getD (c.traceback + i) 0, r.decided.drop i⟩ : GradSample)).filter
    fun g => !(g.line.getD c.main (0, false)).2

/-- The error of a sample: against the level of the decided pattern, or in blind training by the constant-modulus criterion (Table 3-4, Table 3-7). -/
def RxCfg.error (c : RxCfg) (blind : Bool) (g : GradSample) : Int :=
  if blind then Config.blindError (g.y + 2048).toNat else g.y - c.level (c.pattern g.d)

/-- A flagged sample is left out of the gradients (R112). -/
def gradAt (g : GradSample) (k : Nat) : Int := if (g.line.getD k (0, false)).2 then 0 else lineAt g.line k

/-- The summed gradient of coefficient `k` over the block, the scale of its least bit and the number of samples it is the mean of (Table 3-4). Table 3-4 says
mean for the DC offset; the model takes the mean for all of them (log entry 9). -/
def RxCfg.gradient (c : RxCfg) (blind : Bool) (b : List GradSample) (k : Nat) : Int × Nat × Nat :=
  let total (f : GradSample → Int) (l : List GradSample) : Int := l.foldl (fun a g => a + f g) 0
  if k < 0x40 then (total (fun g => c.error blind g * gradAt g k) b, 512, b.length)
  else if k < 0x64 then
    let p := nlePairs.getD (k - 0x40) (0, 0)
    (total (fun g => c.error blind g * gradAt g (c.main - 2 + p.1) * gradAt g (c.main - 2 + p.2)) b, 256, b.length)
  else if k = 0x64 then (total (c.error blind) b, 1, b.length)
  else
    let mine := b.filter fun g => c.pattern g.d = k - 0x100
    (total (fun g => c.level (k - 0x100) - g.y) mine, 1, mine.length)

/-- A coefficient after its loop's update with step 2^-k: what it loses is its scale times the mean gradient times the step; how the fraction below the
least bit is carried is not given (log entry 9). -/
def loopStep (coef : Int) (g : Int × Nat × Nat) (k : Nat) : Int :=
  let den := g.2.2 * 2 ^ k
  if den = 0 then coef else coef - (g.1 * g.2.1 + (Config.loopFrac (g.1 * g.2.1).natAbs den % den : Nat)) / den

/-! ### SNR (Table 3-10) -/

/-- 10 log10 of the mean squared level over the mean squared error, in 0.1 dB, 0 to 400: the greatest `t` with 10^(t/100) at most the quotient. -/
def SnrSum.snr (a : SnrSum) : Nat :=
  if a.errors = 0 then 400
  else ((List.range 400).filter fun t => decide (10 ^ (t + 1) * a.errors ^ 100 ≤ a.levels ^ 100)).length

/-- The median of the counted values, the lower one of two. -/
def medianOf (m : List (Nat × Nat)) : Nat :=
  let total := (m.map Prod.snd).foldl (· + ·) 0
  let r := m.foldl (fun (a : Nat × Option Nat) x => match a.2 with
    | some _ => a
    | none => if total ≤ 2 * (a.1 + x.2) then (a.1 + x.2, some x.1) else (a.1 + x.2, none)) (0, none)
  r.2.getD 0

end Sys2Proof.Machine
end

