-- ==== Sys2Proof/Machine/LaneRx.lean ====
section
/-!
DEFINITION. The lane receiver and the states of a lane (chapter 03).
-/

namespace Sys2Proof.Machine

/-! ### What follows from a change of a lane -/

/-- The port of lane `n` and the merges of every tunnel are judged again (R206, R207, R311). -/
def State.laneMoved (s : State) (n : Nat) : State := (s.portUpdate (s.portOfLane n)).mergeAll

/-- A change of a status bit sets an event of the lane. -/
def State.laneBit (s : State) (n : Nat) (f ev : Fld) (b : Bool) : State := s.track f ev n b

/-! ### Freezes (R134, Table 3-5) -/

/-- The port reports loss of FEC lock for a lane (R213). -/
def State.fecLost (s : State) (n : Nat) : Bool :=
  decide ((s.lockOf n).lock ≠ .locked) || s.on F.PORT_STATUS_FEC_FAIL (s.portOfLane n)

/-- The code of the freeze condition in force that Table 3-5 lists first; 0 for none. -/
def State.freezeCause (s : State) (n : Nat) : Nat :=
  if !s.laneLit n then 4
  else if !s.on F.LANE_RX_STATUS_SIGNAL n then 1
  else if (s.lane n).ovrFreeze then 2
  else if s.fecLost n then 3
  else if s.on F.LANE_RX_ADAPT_FREEZE_ALL n then 5
  else 0

/-- A freeze condition other than the loss of FEC lock is in force. -/
def State.trainFreeze (s : State) (n : Nat) : Bool :=
  !s.laneLit n || !s.on F.LANE_RX_STATUS_SIGNAL n || (s.lane n).ovrFreeze || s.on F.LANE_RX_ADAPT_FREEZE_ALL n

/-- A condition that freezes the gain loop holds (LOS, CMD; in Warm the loop runs on spare samples, Table 3-6). -/
def State.gainHeld (s : State) (n : Nat) : Bool := !s.on F.LANE_RX_STATUS_SIGNAL n || s.on F.LANE_RX_ADAPT_FREEZE_ALL n

/-- FROZEN and its cause, the freeze of the gain loop and that of the training follow the conditions; each release comes 10 µs after the last of its conditions
(FREEZE_RELEASE). A figures window that a freeze meets is no whole one (R146). -/
def State.freezeJudge (s : State) (n : Nat) : State :=
  let s1 := if s.gainHeld n && !(s.lane n).gainFrozen then s.laneMod n fun l => { l with gainFrozen := true } else s
  -- a signal-quality window interrupted by a freeze of cause LOS or STATE is discarded (R350)
  let s2 := if (s1.freezeCause n = 1 ∨ s1.freezeCause n = 4) ∧ (s1.lane n).rx.sq ≠ [] then s1.laneMod n fun l => { l with rx := { l.rx with sq := [] } } else s1
  let s3 := if s2.trainFreeze n && !((s2.lane n).trainHeld && !(s2.lane n).trainWhole) then
      s2.laneMod n fun l => { l with trainHeld := true, trainWhole := false } else s2
  if s3.freezeCause n = 0 then s3
  else
    let s4 := if (s3.lane n).fomWhole then s3.laneMod n fun l => { l with fomWhole := false } else s3
    (s4.put F.LANE_RX_STATUS_FROZEN n true).wr F.LANE_RX_STATUS_FREEZE_CAUSE n (s4.freezeCause n)

/-- 10 µs have passed since the last condition cleared, of the gain loop's (`gain`) or of every loop's (R134). -/
def execFreezeRelease (n : Fin 48) (gain : Bool) (s : State) : Host.Outcome State Fault Refusal :=
  .next (if gain then (if s.gainHeld n.val then s else s.laneMod n.val fun l => { l with gainFrozen := false })
    else
      let s1 := if s.trainFreeze n.val then s else s.laneMod n.val fun l => { l with trainHeld := false }
      if s.freezeCause n.val = 0 then (s1.put F.LANE_RX_STATUS_FROZEN n.val false).wr F.LANE_RX_STATUS_FREEZE_CAUSE n.val 0 else s1)

/-- The lane is Lit and no loop is frozen. -/
def State.laneActive (s : State) (n : Nat) : Bool := s.laneLit n && !s.on F.LANE_RX_STATUS_FROZEN n

/-- The data-driven loops run. The training of Table 3-7 is not held by the loss of FEC lock, which lasts until the lane has converged (log entry 35). -/
def State.loopsRun (s : State) (n : Nat) : Bool :=
  s.laneActive n || (!s.trainFreeze n && !(s.lane n).trainHeld &&
    decide (6 ≤ s.rd F.LANE_RX_STATUS_ACQ_STEP n ∧ s.rd F.LANE_RX_STATUS_ACQ_STEP n ≤ 8))

/-! ### CONVERGED (R143) -/

/-- CONVERGED clears; the lane's marker search ends (Table 5-7). -/
def State.convLost (s : State) (n : Nat) : State :=
  ((s.laneBit n F.LANE_RX_STATUS_CONVERGED F.LANE_RX_EVENT_CONVERGED false).lockLeave n .idle).freezeJudge n

/-- CONVERGED sets: the tracking gear follows, the marker search starts (R133, R143, R202). -/
def State.convGot (s : State) (n : Nat) : State :=
  let s1 := (s.laneBit n F.LANE_RX_STATUS_CONVERGED F.LANE_RX_EVENT_CONVERGED true).put F.LANE_RX_STATUS_DIVERGED n false
  let s2 := (s1.wr F.LANE_RX_STATUS_ACQ_STEP n 9).laneMod n fun l => { l with wake := .none, windows := 0, acqGear := false, coefKept := true }
  let s3 := if (s2.lockOf n).lock = .idle then s2.setLock n { s2.lockOf n with lock := .search } else s2
  (s3.freezeJudge n).laneMoved n

/-! ### Lane memories (R136, Table 3-9, region 6 of Table 13-1) -/

/-- The width of a receive coefficient; 0 for an unlisted index (Table 3-9). -/
def rxCoefWidth (k : Nat) : Nat :=
  if k < 0x40 then 12 else if k < 0x64 then 10 else if k = 0x64 then 10
  else if 0x100 ≤ k ∧ k < 0x200 then 12
  else if 0x200 ≤ k ∧ k ≤ 0x250 then 32 else 0

/-- A trim byte limited to ±125 (R116). -/
def trimByte (v : Nat) : Nat := sfield 8 (clampInt (-125) 125 (sval 8 v))

/-- A trim word with its ranges and its reserved byte (R116, Table 3-9). -/
def trimWord (v : Nat) : Nat := v / 2 ^ 24 % 256 * 2 ^ 24 + trimByte (v / 256) * 256 + trimByte v

/-- The value a receive coefficient takes from a write. -/
def rxCoefValue (k v : Nat) : Nat := if rxCoefWidth k = 32 then trimWord v else sext32 (rxCoefWidth k) v

/-- A receive coefficient is stored. -/
def State.rxStore (s : State) (n k v : Nat) : State := s.memWrite 6 (laneWord n k) .rxCoef (n * 0x10000 + k) v

/-- A coefficient of lane `n`. -/
def State.rxCoef (s : State) (n k : Nat) : Nat := s.ld .rxCoef (n * 0x10000 + k)

/-! ### Leaving and entering Lit -/

/-- Monitor run and signal-quality window of a lane that leaves Lit (R348, R350). -/
def State.monLeave (s : State) (n : Nat) : State :=
  if s.on F.LANE_MON_STATUS_BUSY n then
    ((s.put F.LANE_MON_STATUS_BUSY n false).put F.LANE_MON_STATUS_PAUSED n false).put F.LANE_MON_STATUS_ABANDONED n true
  else s

/-- The last SNR estimate of a lane. -/
def State.lastSnr (s : State) (n : Nat) : Nat := (s.lane n).rx.snrs.headD (s.rd F.LANE_RX_FOM_SNR n)

/-- The receive path stops: what it held is lost, the phase and the frequency estimate stay. -/
def RxS.stop (r : RxS) : RxS := { RxS.init with phase := r.phase, freq := r.freq }

/-- A lane leaves Lit: the SNR estimate is kept, CONVERGED clears, the monitor run ends, a seasoning pass will be abandoned (R120, R143, R348). -/
def State.leaveLit (s : State) (n : Nat) : State :=
  let s1 := s.laneMod n fun l => { l with keptSnr := s.lastSnr n, windows := 0, ovrFreeze := false, seasonGone := s.on F.LANE_SEASON_STATUS_BUSY n
                                          rx := l.rx.stop }
  ((s1.convLost n).monLeave n).put F.LANE_MON_SQ_RLM_VALID n false

/-! ### Acquisition (R143 to R145, Table 3-7) -/

/-- Slots of the ADC: 40 in low-power mode, 80 in full mode (R97). -/
def State.slots (s : State) (n : Nat) : Nat := if s.on F.LANE_RX_CFG_LP_ADC n then 40 else 80

/-- A MODE 2 monitor run pauses while a seasoning pass runs (R349). -/
def State.monPause (s : State) (n : Nat) : State :=
  s.put F.LANE_MON_STATUS_PAUSED n (s.on F.LANE_MON_STATUS_BUSY n && decide (s.rd F.LANE_MON_CTL_MODE n = 2) && s.on F.LANE_SEASON_STATUS_BUSY n)

/-- A seasoning pass starts from the slot after the spare's last position (R114). -/
def State.seasonGo (s : State) (n : Nat) (acq : Bool) : State :=
  ((s.put F.LANE_SEASON_STATUS_BUSY n true).laneMod n fun l =>
    { l with seasonSlot := (l.seasonLast + 1) % s.slots n, seasonLeft := s.slots n + 1, seasonTries := 0, seasonAcq := acq, seasonGone := false }).monPause n

/-- Clock-recovery frequency acquisition. -/
def State.acqFreq (s : State) (n : Nat) : State := (s.wr F.LANE_RX_STATUS_ACQ_STEP n 5).laneMod n fun l => { l with acqWindows := 0 }

/-- The clock is acquired: blind training follows. -/
def State.acqBlind (s : State) (n : Nat) : State := (s.wr F.LANE_RX_STATUS_ACQ_STEP n 6).laneMod n fun l => { l with acqWindows := 0 }

/-- The CTLE sweep, skipped when ADAPT_EN = 0 (R105). -/
def State.acqSweep (s : State) (n : Nat) : State :=
  if s.on F.LANE_RX_CTLE_ADAPT_EN n then
    ((s.wr F.LANE_RX_STATUS_ACQ_STEP n 4).wr F.LANE_RX_CTLE_PEAK n 0).laneMod n fun l => { l with swept := 0, best := (0, 0) }
  else s.acqFreq n

/-- The foreground seasoning pass; without a spare it is passed over. -/
def State.acqSeason (s : State) (n : Nat) : State :=
  if s.on F.LANE_SEASON_STATUS_NO_SPARE n || s.on F.LANE_SEASON_STATUS_BUSY n then s.acqSweep n
  else (s.wr F.LANE_RX_STATUS_ACQ_STEP n 3).seasonGo n true

/-- The uniform PAM4 level with rms `t` over the four: ±t/√5 and ±3 t/√5 (R143); how they are rounded is not given (log entry 9). -/
def pam4Level (t level : Nat) : Int :=
  let m := if level = 1 ∨ level = 2 then 1 else 3
  let down := ((List.range 130).filter fun u => decide (0 < u ∧ 5 * u * u ≤ m * m * t * t)).length
  let u : Nat := down + Config.pam4Round m t % 2
  if 2 ≤ level then (u : Int) else -(u : Int)

/-- The default a coefficient has at the start of acquisition: main tap 1.0, other taps and terms 0, a uniform PAM4 table (R143). -/
def State.acqDefault (s : State) (n k : Nat) : Nat :=
  if k < 0x40 then (if k = clampNat 4 32 (s.rd F.LANE_RX_ADAPT_MAIN_POS n) then 512 else 0)
  else if 0x100 ≤ k ∧ k < 0x200 then
    let j := k - 0x100
    let level := match s.rd F.LANE_RX_ADAPT_MLSE n with | 0 => j % 4 | 1 => j / 16 % 4 | _ => j / 64
    sfield 32 (pam4Level (clampNat 16 96 (s.rd F.LANE_RX_GAIN_TARGET n)) level)
  else 0

/-- Acquisition from Cold: coefficients from their defaults, or as stored with SEED = 1; it waits for SIGNAL (R136, R143, Table 3-7). -/
def State.acqBegin (s : State) (n : Nat) : State :=
  let s1 := if s.on F.LANE_RX_ADAPT_SEED n then s
    else (List.range 0x200).foldl (fun t k => if rxCoefWidth k = 0 then t else t.rxStore n k (s.acqDefault n k)) s
  if s1.on F.LANE_RX_STATUS_SIGNAL n then s1.acqSeason n else s1.wr F.LANE_RX_STATUS_ACQ_STEP n 2

/-! ### Requests (R137 to R139) -/

/-- The port of a lane does not allow Lit or Warm (R184). -/
def State.notConfigured (s : State) (n : Nat) : Bool :=
  let p := s.portOfLane n
  let f := s.rd F.PORT_CFG_FORMAT p
  let rate := s.rd F.LANE_RX_CFG_RATE n
  let roleOk := match f with | 1 => decide (1 ≤ s.role p) | 2 | 3 => decide (2 ≤ s.role p) | _ => false
  let rateOk := match f with | 1 => decide (rate ≤ 1) | 2 => decide (rate = 2) | 3 => decide (rate = 3) | _ => false
  !roleOk || !rateOk || (s.portLanes p).any fun m => s.rd F.LANE_RX_CFG_RATE m ≠ rate

/-- The lane's region or its bay's is excluded by Kiln, at start-up or by an in-service failure (R138, R459, Table 15-1). -/
def State.laneExcluded (s : State) (n : Nat) : Bool :=
  decide (2 ≤ s.rd F.KILN_REG_STATE n) || decide (2 ≤ s.rd F.KILN_REG_STATE (48 + n / 8))

/-- A request that R138 refuses. -/
def State.laneRefuses (s : State) (n req : Nat) : Bool :=
  decide (2 ≤ req) && (decide (s.role (s.portOfLane n) = 0) || s.laneExcluded n || s.notConfigured n)

/-- A wake to Lit that proceeds as one from Banked: from there, or from Warm with WARM_STALE set (R141). -/
def State.wakesAsBanked (s : State) (n cur : Nat) : Bool := decide (cur = 1) || (decide (cur = 3) && s.on F.LANE_RX_STATUS_WARM_STALE n)

/-- How a lane comes to Lit from where it stands (R141, R143). -/
def State.wakeKind (s : State) (n cur : Nat) : Wake :=
  if !(s.lane n).coefKept || decide (cur = 0) then .full
  else if s.wakesAsBanked n cur then .fromBanked
  else .fromWarm

/-- The lane starts toward the state in REQ (R137, R140, R170). A wake to Lit that is given up takes its CONVERGED with it; a wake from Warm or Banked aborts a Kiln
slice on the lane (R454). -/
def State.laneGo (s : State) (n : Nat) : State :=
  let cur := s.rd F.LANE_STATE_CUR n
  let req := s.rd F.LANE_STATE_REQ n
  let s0 := if (cur = 3 ∧ req = 2) ∨ (cur = 1 ∧ 2 ≤ req) then s.dataPath n else s
  let s1 := s0.put F.LANE_STATE_CHANGING n true
  let s2 := if cur = 2 ∧ req ≠ 2 then s1.leaveLit n
    else if req ≠ 2 && s1.on F.LANE_RX_STATUS_CONVERGED n then s1.convLost n
    else s1
  let w := if req = 2 then s2.wakeKind n cur else .none
  let banked := decide (req = 2) && s2.wakesAsBanked n cur
  let cal := (decide (2 ≤ req) && decide (cur ≤ 1)) || (decide (req = 1) && decide (cur = 0)) || banked
  let s3 := (s2.put F.LANE_TX_STATUS_DAC_CAL n cal).laneMod n fun l => { l with wake := w, windows := 0, asBanked := banked }
  let s4 := if req = 2 then (if cur = 0 then s3.wr F.LANE_RX_STATUS_ACQ_STEP n 1 else if 2 ≤ cur ∧ w = Wake.full ∧ banked = false then s3.acqBegin n else s3)
    else s3.wr F.LANE_RX_STATUS_ACQ_STEP n 0
  (s4.freezeJudge n).laneMoved n

/-- A request is judged and, when accepted, acted on; FORCED clears with an accepted request for Lit, Warm or Banked (R137 to R139). -/
def State.laneRequest (s : State) (n req : Nat) : State × Status :=
  if (s.lane n).forcedDrop then (s, .waiting)
  else if s.laneRefuses n req then (s.put F.LANE_STATE_REFUSED n true, .refusedState)
  else
    let s1 := s.wr F.LANE_STATE_REQ n req
    let s2 := if req ≠ 0 then (s1.put F.LANE_STATE_FORCED n false).wr F.LANE_STATE_FORCE_CAUSE n 0 else s1
    let busy := s.on F.LANE_STATE_CHANGING n
    if (busy && s.rd F.LANE_STATE_REQ n = req) || (!busy && s.rd F.LANE_STATE_CUR n = req) then (s2, .ok) else (s2.laneGo n, .ok)

/-- A write of LANE_STATE: REFUSED is cleared by 1, REQ is a request. -/
def State.laneStateWrite (s : State) (n v : Nat) : State × Status :=
  if (s.lane n).forcedDrop then (s, .waiting)
  else
    let s1 := if F.LANE_STATE_REFUSED.of v = 1 then s.put F.LANE_STATE_REFUSED n false else s
    s1.laneRequest n (F.LANE_STATE_REQ.of v)

def execLaneStateRequest (ag : Agent) (n : Fin 48) (v : W32) (s : State) : Host.Outcome State Fault Refusal :=
  .next (s.writing ag .LANE_STATE n.val v.toNat fun t => t.laneStateWrite n.val v.toNat)

/-- The device takes a lane to Cold with a cause (R139). -/
def State.laneForce (s : State) (n cause : Nat) : State :=
  let idle := decide (s.rd F.LANE_STATE_CUR n = 0) && !s.on F.LANE_STATE_CHANGING n
  let s1 := ((s.wr F.LANE_STATE_REQ n 0).put F.LANE_STATE_FORCED n true).wr F.LANE_STATE_FORCE_CAUSE n cause
  if idle then s1 else (s1.laneMod n fun l => { l with forcedDrop := true }).laneGo n

/-- An uncorrectable word of the lane's memories: the error line of its bay, beside those of the memory, and a forced drop (R139, Table 13-1). -/
def State.laneMemBad (s : State) (n : Nat) (lines : List Line) : State := (s.laneForce n 3).errorLines (lines ++ [(n / 8, n % 8, 3)])

/-- The lines of a read of the lane's memories rise; a lost word takes the lane along. -/
def State.laneLines (s : State) (n : Nat) (bad : Bool) (lines : List Line) : State := if bad then s.laneMemBad n lines else s.errorLines lines

/-- The stored value of word `word` of region 6 (log entry 8). -/
def State.laneStored (s : State) (word : Nat) : Nat :=
  let n := word / 0x800
  let k := word % 0x800
  if k < 0x400 then s.rxCoef n k else if k < 0x600 then s.ld .decCoef (n * 0x1000 + (k - 0x400))
  else if k < 0x680 then s.ld .txActive (n * 0x100 + (k - 0x600)) else s.ld .txShadow (n * 0x100 + (k - 0x680))

/-- The datapath of a lane at work reads its words from `lo` up to `hi` (R139, R418, R448); a Kiln slice on it is aborted (R454). -/
def State.laneScan (s : State) (n lo hi : Nat) : State :=
  let x := (s.dataPath n).spanRead 6 (laneWord n lo) (hi - lo) fun w => some (s.laneStored w)
  x.1.laneLines n x.2.1 x.2.2

/-- The elastic queue overflows (R99, R139). -/
def State.queueOver (s : State) (n : Nat) : State := (s.laneForce n 1).errorLine (n / 8) (n % 8) 1


/-! ### Transitions (R140) -/

/-- What ends at the end of a transition: upward ones, from Cold to Banked too, need their calibration, a wake from Warm its wake check; a Lit lane redirected
to Lit is there. -/
def State.transitionReady (s : State) (n : Nat) : Bool :=
  let cur := s.rd F.LANE_STATE_CUR n
  let req := s.rd F.LANE_STATE_REQ n
  if req = 0 ∨ (req = 1 ∧ cur ≠ 0) ∨ (req = 2 ∧ cur = 2) then true
  else if req = 2 ∧ 2 ≤ cur ∧ (s.lane n).asBanked = false then s.on F.LANE_RX_STATUS_CONVERGED n
  else !s.on F.LANE_TX_STATUS_DAC_CAL n

/-- The receiver's sensing stops in Banked and Cold (Table 3-1); WARM_STALE stays until the signal is tracked again (R141). -/
def State.sensingStops (s : State) (n : Nat) : State :=
  let s1 := (s.laneBit n F.LANE_RX_STATUS_SIGNAL F.LANE_RX_EVENT_LOS false).laneBit n F.LANE_RX_STATUS_CDR_LOCK F.LANE_RX_EVENT_CDR false
  (s1.laneBit n F.LANE_RX_STATUS_OPEN_P F.LANE_RX_EVENT_OPEN false).laneBit n F.LANE_RX_STATUS_OPEN_N F.LANE_RX_EVENT_OPEN false

/-- A short bit follows its condition; LIMIT follows the legs at their limit (R177). -/
def State.shortSet (s : State) (n k : Nat) (short atLimit : Bool) : State :=
  let s1 := s.laneMod n fun l => { l with shorts := if short && atLimit then l.shorts.erase k ++ [k] else l.shorts.erase k }
  (s1.put F.LANE_TX_STATUS_LIMIT n (decide ((s1.lane n).shorts ≠ []))).laneBit n (shortFld k) F.LANE_TX_EVENT_SHORT short

/-- The lane is in its new state. On the way down the source has become IDLE at the first block boundary after the request (R175); short detection ends
as Table 4-9 says. -/
def State.laneArrive (s : State) (n : Nat) : State :=
  let req := s.rd F.LANE_STATE_REQ n
  let cur := s.rd F.LANE_STATE_CUR n
  let s0 := if req ≤ 1 ∨ (req = 3 ∧ 2 ≤ cur) then s.txIdle n else s
  let s1 := ((s0.wr F.LANE_STATE_CUR n req).put F.LANE_STATE_CHANGING n false).laneMod n fun l => { l with forcedDrop := false }
  let s2 :=
    match req with
    | 0 =>
      let t := (s1.sensingStops n).laneMod n fun l => { l with coefKept := false, snapshot := false, acqGear := true, rx := RxS.init }
      let t1 := ((t.shortSet n 0 false false).shortSet n 1 false false).shortSet n 2 false false
      (t1.put F.LANE_RX_STATUS_DIVERGED n false).put F.LANE_RX_STATUS_RECONVERGING n false
    | 1 => (s1.sensingStops n).shortSet n 2 false false
    | 2 => if (s1.lane n).wake = Wake.full ∧ (cur ≤ 1 ∨ (s1.lane n).asBanked) then s1.acqBegin n else s1
    | _ => s1
  (((s2.freezeJudge n).decTrack n).smokeTrack n).laneMoved n

def execLaneTransitionEnd (n : Fin 48) (s : State) : Host.Outcome State Fault Refusal :=
  .next (if s.on F.LANE_STATE_CHANGING n.val && s.transitionReady n.val then s.laneArrive n.val else s)

/-! ### Configuration (R96 to R98, R131) -/

/-- The default estimator of a rate: OFF, REDUCED, FULL (Table 3-2). -/
def defaultMlse (rate : Nat) : Nat := match rate with | 0 => 0 | 1 => 1 | _ => 2

/-- The lane is Cold and stays so. -/
def State.laneCold (s : State) (n : Nat) : Bool := decide (s.rd F.LANE_STATE_CUR n = 0) && !s.on F.LANE_STATE_CHANGING n

/-- POL_FORCE and POL_INV take effect in every state; the rest only while Cold, and judged on the pair RATE and LP_ADC (R97, R98). -/
def State.rxCfgWrite (s : State) (n v : Nat) : State × Status :=
  let rate := F.LANE_RX_CFG_RATE.of v
  let lp := F.LANE_RX_CFG_LP_ADC.of v
  let ac := F.LANE_RX_CFG_AC_COUPLED.of v
  let pol (t : State) : State := (t.wr F.LANE_RX_CFG_POL_INV n (F.LANE_RX_CFG_POL_INV.of v)).wr F.LANE_RX_CFG_POL_FORCE n (F.LANE_RX_CFG_POL_FORCE.of v)
  let same := decide (rate = s.rd F.LANE_RX_CFG_RATE n ∧ lp = s.rd F.LANE_RX_CFG_LP_ADC n ∧ ac = s.rd F.LANE_RX_CFG_AC_COUPLED n)
  if !s.laneCold n then (pol s, if same then .ok else .refusedState)
  else if lp = 1 ∧ 2 ≤ rate then (s, .refusedState)
  else
    let s1 := (((pol s).wr F.LANE_RX_CFG_RATE n rate).wr F.LANE_RX_CFG_LP_ADC n lp).wr F.LANE_RX_CFG_AC_COUPLED n ac
    ((s1.wr F.LANE_RX_ADAPT_MLSE n (defaultMlse rate)).rippleCheck n, .ok)

def execLaneRxCfgWrite (ag : Agent) (n : Fin 48) (v : W32) (s : State) : Host.Outcome State Fault Refusal :=
  .next (s.writing ag .LANE_RX_CFG n.val v.toNat fun t => t.rxCfgWrite n.val v.toNat)

/-- The polarity the lane should apply: that of POL_FORCE, or what the port unit obtained (R131). -/
def State.polTarget (s : State) (n : Nat) : Bool :=
  if s.on F.LANE_RX_CFG_POL_FORCE n then s.on F.LANE_RX_CFG_POL_INV n else (s.lane n).polWanted

def execPolarityChange (n : Fin 48) (s : State) : Host.Outcome State Fault Refusal :=
  .next (s.laneBit n.val F.LANE_RX_STATUS_POL_INV F.LANE_RX_EVENT_POL (s.polTarget n.val))

/-! ### Sensing (R100 to R103, R141) -/

/-- The input is sensed: the lane is Lit or Warm, or on its way up to it (Table 3-1, Table 3-7). -/
def State.sensing (s : State) (n : Nat) : Bool :=
  decide (2 ≤ s.rd F.LANE_STATE_CUR n) || (s.on F.LANE_STATE_CHANGING n && decide (2 ≤ s.rd F.LANE_STATE_REQ n))

def execSignalLoss (n : Fin 48) (s : State) : Host.Outcome State Fault Refusal :=
  .next (if s.sensing n.val && s.on F.LANE_RX_STATUS_SIGNAL n.val then
      ((s.laneBit n.val F.LANE_RX_STATUS_SIGNAL F.LANE_RX_EVENT_LOS false).freezeJudge n.val).laneMoved n.val
    else s)

def execSignalReturn (n : Fin 48) (s : State) : Host.Outcome State Fault Refusal :=
  .next (if s.sensing n.val && !s.on F.LANE_RX_STATUS_SIGNAL n.val then
      let s1 := s.laneBit n.val F.LANE_RX_STATUS_SIGNAL F.LANE_RX_EVENT_LOS true
      let s2 := if s1.rd F.LANE_RX_STATUS_ACQ_STEP n.val = 2 then s1.acqSeason n.val else s1
      (s2.freezeJudge n.val).laneMoved n.val
    else s)

/-- A leg lies within 20 mV of the internal bias of 450 mV. -/
def nearBias (mv : Nat) : Bool := decide (430 ≤ mv ∧ mv ≤ 470)

/-- A leg differs from the bias by more than 60 mV. -/
def offBias (mv : Nat) : Bool := decide (mv < 390 ∨ 510 < mv)

/-- The open-input check with the legs' voltages in millivolts; none on an AC-coupled input (R101 to R103). -/
def State.openCheck (s : State) (n p m : Nat) : State :=
  let on := !s.on F.LANE_RX_CFG_AC_COUPLED n
  let both := nearBias p && nearBias m && !s.on F.LANE_RX_STATUS_SIGNAL n
  (s.laneBit n F.LANE_RX_STATUS_OPEN_P F.LANE_RX_EVENT_OPEN (on && (both || (nearBias p && offBias m)))).laneBit n F.LANE_RX_STATUS_OPEN_N
    F.LANE_RX_EVENT_OPEN (on && (both || (nearBias m && offBias p)))

def execOpenInputCheck (n : Fin 48) (pMv nMv : BitVec 12) (s : State) : Host.Outcome State Fault Refusal :=
  .next (if s.sensing n.val then s.openCheck n.val pMv.toNat nMv.toNat else s)

def execWarmStale (n : Fin 48) (s : State) : Host.Outcome State Fault Refusal :=
  .next (if s.rd F.LANE_STATE_CUR n.val = 3 ∧ !s.on F.LANE_RX_STATUS_SIGNAL n.val then
      (s.put F.LANE_RX_STATUS_WARM_STALE n.val true).event F.LANE_RX_EVENT_WARM_STALE n.val
    else s)

def execWarmStaleClear (n : Fin 48) (s : State) : Host.Outcome State Fault Refusal :=
  .next (if s.on F.LANE_RX_STATUS_SIGNAL n.val && s.on F.LANE_RX_STATUS_CDR_LOCK n.val then s.put F.LANE_RX_STATUS_WARM_STALE n.val false else s)

/-! ### Gain (R104 to R110) -/

/-- The analog settings in force (R104, R106): peaking in 0.5 dB, pole in GHz, attenuation in dB, gain in 0.125 dB. -/
def State.frontEnd (s : State) (n : Nat) : Nat × Nat × Nat × Nat :=
  (min 30 (s.rd F.LANE_RX_CTLE_PEAK n), [20, 30, 40, 55].getD (s.rd F.LANE_RX_CTLE_POLE n) 55, 3 * s.rd F.LANE_RX_GAIN_ATTEN n, s.rd F.LANE_RX_GAIN_FINE n)

/-- A gain change: RECONVERGING with the SNR estimate of the window before, the decimation chain unsettled (R109, R343). -/
def State.gainChange (s : State) (n : Nat) : State :=
  let s1 := ((s.event F.LANE_RX_EVENT_GAIN_CHANGE n).put F.LANE_RX_STATUS_RECONVERGING n true).perfLane 3 n 1
  (s1.laneMod n fun l => { l with recordSnr := s.lastSnr n, steadyWindows := 0 }).unsettle n

/-- A write of a gain register is a gain change while Lit, and in every state when it changes ATTEN, which was `att` before (R105, R109). -/
def State.gainWritten (s : State) (n att : Nat) : State :=
  if s.laneLit n || decide (s.rd F.LANE_RX_GAIN_ATTEN n ≠ att) then s.gainChange n else s

/-- The gain loop lowers the gain by one step, through ATTEN at the end of FINE (R107, R108). -/
def State.gainDown (s : State) (n : Nat) : State :=
  let fine := s.rd F.LANE_RX_GAIN_FINE n
  let att := s.rd F.LANE_RX_GAIN_ATTEN n
  if 0 < fine then s.wr F.LANE_RX_GAIN_FINE n (fine - 1)
  else if att < 7 then ((s.wr F.LANE_RX_GAIN_ATTEN n (att + 1)).wr F.LANE_RX_GAIN_FINE n (min 63 (fine + 24))).gainChange n
  else s

/-- The gain loop raises the gain by one step. -/
def State.gainUp (s : State) (n : Nat) : State :=
  let fine := s.rd F.LANE_RX_GAIN_FINE n
  let att := s.rd F.LANE_RX_GAIN_ATTEN n
  if fine < 63 then s.wr F.LANE_RX_GAIN_FINE n (fine + 1)
  else if 0 < att then ((s.wr F.LANE_RX_GAIN_ATTEN n (att - 1)).wr F.LANE_RX_GAIN_FINE n (fine - 24)).gainChange n
  else s

/-- The gain loop runs: AGC_EN, Lit or Warm, no freeze that applies to it (Table 3-5, Table 3-6; log entry 35). -/
def State.gainRuns (s : State) (n : Nat) : Bool :=
  s.on F.LANE_RX_GAIN_AGC_EN n && (s.laneLit n || decide (s.rd F.LANE_STATE_CUR n = 3)) && !s.gainHeld n && !(s.lane n).gainFrozen

/-- The step of the gain loop for the samples of the last interval: down when more than 1 in 10^5 are over-range or the rms code lies above the target, up
when it lies below (R107). -/
def State.gainStep (s : State) (n : Nat) : State :=
  let r := (s.lane n).rx
  let target := clampNat 16 96 (s.rd F.LANE_RX_GAIN_TARGET n)
  let want := target * target * r.tenCount
  if !s.gainRuns n || decide (r.tenCount = 0) then s
  else if r.tenCount < r.tenOvers * 100000 ∨ want < r.tenSquares then s.gainDown n
  else if r.tenSquares < want then s.gainUp n
  else s

/-- The 10 µs update: the gain loop, the frequency offset of an unfrozen Lit lane, and the over-range freeze (R107, R108, R125, R146, Table 3-5). -/
def execGainLoopUpdate (n : Fin 48) (s : State) : Host.Outcome State Fault Refusal :=
  .next (if 2 ≤ s.rd F.LANE_STATE_CUR n.val then
      let r := (s.lane n.val).rx
      let s1 := if s.laneActive n.val then s.wr F.LANE_RX_FREQ_OFFSET n.val (sfield 32 r.freq) else s
      let s2 := (s1.gainStep n.val).laneMod n.val fun l =>
        { l with ovrFreeze := decide (r.tenCount < r.tenOvers * 1000), rx := { l.rx with tenCount := 0, tenSquares := 0, tenOvers := 0 } }
      s2.freezeJudge n.val
    else s)

def execReconvSlow (n : Fin 48) (s : State) : Host.Outcome State Fault Refusal :=
  .next (s.eventIf (s.on F.LANE_RX_STATUS_RECONVERGING n.val) F.LANE_RX_EVENT_RECONV_SLOW n.val)

/-! ### Figures of merit (R110, R146) -/

/-- Two SNR values in 0.1 dB lie within 0.5 dB. -/
def snrNear (a b : Nat) : Bool := decide (a ≤ b + 5 ∧ b ≤ a + 5)

/-- A window counts toward the end of RECONVERGING (R110). -/
def State.reconverge (s : State) (n snr : Nat) : State :=
  if s.on F.LANE_RX_STATUS_RECONVERGING n then
    let k := if snrNear snr (s.lane n).recordSnr then (s.lane n).steadyWindows + 1 else 0
    let s1 := s.laneMod n fun l => { l with steadyWindows := k }
    if 3 ≤ k then s1.put F.LANE_RX_STATUS_RECONVERGING n false else s1
  else s

/-- One setting of the CTLE sweep is measured: the highest SNR wins, on a tie the lower PEAK (R105). -/
def State.sweepStep (s : State) (n snr : Nat) : State :=
  let l := s.lane n
  let best := if l.swept = 0 ∨ l.best.1 < snr then (snr, l.swept) else l.best
  if 30 ≤ l.swept then ((s.setLane n { l with best := best, swept := 31 }).wr F.LANE_RX_CTLE_PEAK n best.2).acqFreq n
  else (s.setLane n { l with best := best, swept := l.swept + 1 }).wr F.LANE_RX_CTLE_PEAK n (l.swept + 1)

/-- Training advances by the windows of Table 3-7: the clock acquired, 25 ms blind, 15 ms decision-directed, then the level table. -/
def State.trainStep (s : State) (n : Nat) : State :=
  if s.rd F.LANE_RX_STATUS_ACQ_STEP n = 5 then (if s.on F.LANE_RX_STATUS_CDR_LOCK n then s.acqBlind n else s)
  else
    let w := (s.lane n).acqWindows + 1
    (s.laneMod n fun l => { l with acqWindows := w }).wr F.LANE_RX_STATUS_ACQ_STEP n (if w < 250 then 6 else if w < 400 then 7 else 8)

/-- The SNR estimate of the running window; without a decided symbol the last one stands (log entry 9). -/
def State.windowSnr (s : State) (n : Nat) : Nat := if (s.lane n).rx.fom.count = 0 then s.lastSnr n else (s.lane n).rx.fom.snr

/-- Decisions of the running window whose metric difference is below LANE_RX_FOM_THR.MARGIN. -/
def State.windowLow (s : State) (n : Nat) : Nat :=
  ((s.lane n).rx.margins.filter fun e => e.1 < s.rd F.LANE_RX_FOM_THR_MARGIN n).foldl (fun a e => a + e.2) 0

/-- The figures of the running window are reported (R112, R146, Table 3-10). -/
def State.figures (s : State) (n : Nat) : State :=
  let r := (s.lane n).rx
  let s2 := (s.wr F.LANE_RX_FOM_SNR n (s.windowSnr n)).wr F.LANE_RX_FOM_MARGIN n (medianOf r.margins)
  let s3 := (s2.bump F.LANE_RX_LOWMARGIN_COUNT n (s.windowLow n)).bump F.LANE_RX_OVR_COUNT n r.overs
  ((s3.perfSpread (0x800 + n) r.overs).perfSpread (0x840 + n) (s.windowLow n)).reconverge n (s.windowSnr n)

/-- The running window was one in which the lane was Lit and unfrozen throughout (R146). -/
def State.windowWhole (s : State) (n : Nat) : Bool := s.laneActive n && (s.lane n).fomWhole

/-- The lane trains, and no freeze that holds its training has met the running window (Table 3-5, Table 3-7). -/
def State.windowTrains (s : State) (n : Nat) : Bool :=
  decide (1 ≤ s.rd F.LANE_RX_STATUS_ACQ_STEP n ∧ s.rd F.LANE_RX_STATUS_ACQ_STEP n ≤ 8) && !s.trainFreeze n && (s.lane n).trainWhole

/-- The next window begins; the estimates of the last eleven stay, the newest if one was made. -/
def State.windowNext (s : State) (n : Nat) (made : Option Nat) : State :=
  let whole := s.laneActive n
  let trains := !s.trainFreeze n && !(s.lane n).trainHeld
  s.laneMod n fun l => { l with fomWhole := whole, trainWhole := trains
                                rx := { l.rx with fom := SnrSum.init, margins := [], overs := 0, snrs := (made.toList ++ l.rx.snrs).take 11 } }

/-- The end of a 100 µs window (R146, Table 3-10), in acquisition also a step of Table 3-7. -/
def execFomWindowEnd (n : Fin 48) (s : State) : Host.Outcome State Fault Refusal :=
  .next (
    let snr := s.windowSnr n.val
    let step := s.rd F.LANE_RX_STATUS_ACQ_STEP n.val
    let trains := s.windowTrains n.val
    let s1 := if s.windowWhole n.val then s.figures n.val else s
    let s2 := if !trains then s1 else if step = 4 then s1.sweepStep n.val snr else if 5 ≤ step then s1.trainStep n.val else s1
    s2.windowNext n.val (if s.windowWhole n.val || trains then some snr else none))

/-! ### Seasoning (R114 to R120) -/

/-- A pass ends. -/
def State.seasonStop (s : State) (n : Nat) : State :=
  let acq := (s.lane n).seasonAcq
  let s1 := (((s.put F.LANE_SEASON_STATUS_BUSY n false).perfLane 2 n 1).laneMod n fun l => { l with seasonAcq := false }).monPause n
  if acq && s1.rd F.LANE_RX_STATUS_ACQ_STEP n = 3 then s1.acqSweep n else s1

/-- The slice that serves slot `k`. -/
def LaneS.slice (l : LaneS) (k : Nat) : Nat := match Amap.find l.slices k with | some p => p | none => k

/-- A trim that saturates sets TRIM_LIMIT (R116). -/
def State.trimNote (s : State) (n trim : Nat) (saturated : Bool) : State :=
  if saturated || decide (trimByte trim ≠ trim % 256) || decide (trimByte (trim / 256) ≠ trim / 256 % 256) then
    s.put F.LANE_SEASON_STATUS_TRIM_LIMIT n true else s

/-- The trims of the spare are solved; one that would leave its range saturates (R114, R116). -/
def State.trimSolve (s : State) (n trim : Nat) (saturated : Bool) : State :=
  (s.rxStore n (0x200 + s.rd F.LANE_SEASON_STATUS_SPARE_POS n) (trimWord trim)).trimNote n trim saturated

/-- The spare replaces the slice of the step's slot, which becomes the spare (R114). -/
def State.seasonSwap (s : State) (n : Nat) : State :=
  let l := s.lane n
  let k := l.seasonSlot
  let sp := s.rd F.LANE_SEASON_STATUS_SPARE_POS n
  (s.setLane n { l with slices := Amap.ins natLt (Amap.erase l.slices k) k sp, seasonLast := k, seasonSlot := (k + 1) % s.slots n,
                        seasonLeft := l.seasonLeft - 1, seasonTries := 0 }).wr F.LANE_SEASON_STATUS_SPARE_POS n (l.slice k)

/-- A step ends (R115, R118, R120). -/
def State.seasonStep (s : State) (n : Nat) (within : Bool) : State :=
  let s1 := if within then s.seasonSwap n else s.laneMod n fun l => { l with seasonTries := l.seasonTries + 1 }
  if !s.laneLit n || (s.lane n).seasonGone then (s1.put F.LANE_SEASON_STATUS_ABANDONED n true).seasonStop n
  else if within then
    (if (s1.lane n).seasonLeft = 0 then ((s1.bumpWrap F.LANE_SEASON_STATUS_PASSES n 1).event F.LANE_RX_EVENT_SEASON_DONE n).seasonStop n else s1)
  else if 4 ≤ (s1.lane n).seasonTries then
    (((s1.wr F.LANE_SEASON_STATUS_FAIL_SLICE n (s1.rd F.LANE_SEASON_STATUS_SPARE_POS n)).put F.LANE_SEASON_STATUS_NO_SPARE n true).event
      F.LANE_RX_EVENT_SEASON_FAIL n).seasonStop n
  else s1

/-- A step ends; while a Kiln slice tests the lane it waits (R120, R453). -/
def execSeasoningStep (n : Fin 48) (withinHalfLsb : Bool) (trim : W32) (saturated : Bool) (s : State) : Host.Outcome State Fault Refusal :=
  .next (if s.on F.LANE_SEASON_STATUS_BUSY n.val && !s.underSlice n.val then (s.trimSolve n.val trim.toNat saturated).seasonStep n.val withinHalfLsb else s)

/-- A write of LANE_SEASON_CMD (R115, R118). -/
def State.seasonWrite (s : State) (n v : Nat) : State × Status :=
  let step := s.rd F.LANE_RX_STATUS_ACQ_STEP n
  if F.LANE_SEASON_CMD_START.of v = 0 then (s, .ok)
  else if s.on F.LANE_SEASON_STATUS_NO_SPARE n then (s, .unitError)
  else if !s.laneLit n || decide (1 ≤ step ∧ step ≤ 8) || s.on F.LANE_SEASON_STATUS_BUSY n then (s, .refusedState)
  else (s.seasonGo n false, .ok)

def execSeasonStart (ag : Agent) (n : Fin 48) (v : W32) (s : State) : Host.Outcome State Fault Refusal :=
  .next (s.writing ag .LANE_SEASON_CMD n.val v.toNat fun t => t.seasonWrite n.val v.toNat)

/-! ### Clock recovery (R121 to R125) -/

def execCdrLockChange (n : Fin 48) (lock : Bool) (s : State) : Host.Outcome State Fault Refusal :=
  .next (if s.on F.LANE_RX_STATUS_CDR_LOCK n.val = lock then s
    else if lock then
      (if 2 ≤ s.rd F.LANE_STATE_CUR n.val ∧ s.on F.LANE_RX_STATUS_SIGNAL n.val then
        let s1 := s.laneBit n.val F.LANE_RX_STATUS_CDR_LOCK F.LANE_RX_EVENT_CDR true
        let s2 := if s1.rd F.LANE_RX_STATUS_ACQ_STEP n.val ≠ 5 then s1
          else if (s1.lane n.val).wake = Wake.full then s1.acqBlind n.val
          else s1.wr F.LANE_RX_STATUS_ACQ_STEP n.val 9
        s2.laneMoved n.val
      else s)
    else ((s.laneBit n.val F.LANE_RX_STATUS_CDR_LOCK F.LANE_RX_EVENT_CDR false).convLost n.val).laneMoved n.val)

/-- The fresh frequency acquisition of a Lit or Warm lane: the held estimate is given up, unless FREEZE holds it (R124). The loop of a Lit lane finds the new
one from its samples; what the reduced recovery of Warm finds is not given, a value within ±300 ppm (log entry 9). -/
def execCdrReacquire (n : Fin 48) (s : State) : Host.Outcome State Fault Refusal :=
  .next (if s.on F.LANE_RX_STATUS_SIGNAL n.val && !s.on F.LANE_RX_STATUS_CDR_LOCK n.val && decide (2 ≤ s.rd F.LANE_STATE_CUR n.val) && !s.on F.LANE_RX_CDR_FREEZE n.val then
      let lit := s.laneLit n.val
      let found : Int := if lit then 0 else (s.freeVal % 60001 : Nat) - 30000
      let s1 := (if lit then s else s.drawn).laneMod n.val fun l => { l with rx := { l.rx with freq := found } }
      if s.laneLit n.val && decide (s.rd F.LANE_RX_STATUS_ACQ_STEP n.val = 9) then s1.wr F.LANE_RX_STATUS_ACQ_STEP n.val 5 else s1
    else s)

/-! ### Adaptation (R132 to R136) -/

/-- The step exponent of the loop a coefficient belongs to, limited to the loop's range; none for a coefficient no loop adapts or a loop that is
disabled (R133, Table 3-4). -/
def State.loopK (s : State) (n k : Nat) : Option Nat :=
  let acq := (s.lane n).acqGear
  let pick (a t : Fld) : Nat := if acq then s.rd a n else s.rd t n
  if k < 0x40 then (if s.on F.LANE_RX_ADAPT_FFE_EN n then some (min 24 (10 + pick F.LANE_RX_MU_FFE_ACQ F.LANE_RX_MU_FFE_TRK)) else none)
  else if k < 0x64 then (if s.on F.LANE_RX_ADAPT_NLE_EN n then some (min 26 (12 + pick F.LANE_RX_MU_NLE_ACQ F.LANE_RX_MU_NLE_TRK)) else none)
  else if k = 0x64 then
    (if s.on F.LANE_RX_ADAPT_DC_EN n then some (clampNat 10 20 (6 + pick F.LANE_RX_MU_DC_ACQ F.LANE_RX_MU_DC_TRK)) else none)
  else if 0x100 ≤ k ∧ k < 0x200 then
    (if s.on F.LANE_RX_ADAPT_TBL_EN n then some (min 16 (4 + pick F.LANE_RX_MU_TBL_ACQ F.LANE_RX_MU_TBL_TRK)) else none)
  else none

/-- The settings the receive path of lane `n` works with. -/
def State.rxCfg (s : State) (n : Nat) : RxCfg :=
  { coef := fun k => sval 32 (s.rxCoef n k), main := clampNat 4 32 (s.rd F.LANE_RX_ADAPT_MAIN_POS n), mlse := s.rd F.LANE_RX_ADAPT_MLSE n
    bw := s.rd F.LANE_RX_CDR_BW n, hold := !s.on F.LANE_RX_STATUS_SIGNAL n || s.on F.LANE_RX_CDR_FREEZE n }

/-- The datapath runs: Lit, or on the way from Warm to Lit; during a downward transition the lane delivers no symbols (R140, Table 3-8). -/
def State.rxOn (s : State) (n : Nat) : Bool :=
  s.laneLit n || (decide (s.rd F.LANE_STATE_CUR n = 3 ∧ s.rd F.LANE_STATE_REQ n = 2) && s.on F.LANE_STATE_CHANGING n)

def execElasticQueueOverflow (n : Fin 48) (s : State) : Host.Outcome State Fault Refusal :=
  .next (if s.rxOn n.val then s.queueOver n.val else s)

/-- Symbols reach the port unit, inverted where POL_INV says so (R130). A line lane under search or lock keeps their bits; once it is locked, in the
reading its marker was found in (R202). A FORMAT 1 lane undoes the precoding where PRECODE_RX is 1 and keeps the bits of the last codeword's length, which its
clause works on (R187, log entry 36). -/
def State.laneDeliver (s : State) (n : Nat) (levels : List Nat) : State :=
  let pol := s.on F.LANE_RX_STATUS_POL_INV n
  let p := s.portOfLane n
  let x := s.lockOf n
  let symbols := levels.map fun a => if pol then 3 - a else a
  let bits := symbols.flatMap grayBits
  if s.rd F.PORT_CFG_FORMAT p = 0 ∨ x.lock = .idle then s
  else if s.rd F.PORT_CFG_FORMAT p = 1 then
    let plain := if s.on F.PORT_CFG_PRECODE_RX p then unprecode x.pcs.before symbols else symbols
    let kept := x.pcs.bits ++ plain.flatMap grayBits
    s.setLock n { x with pcs := { x.pcs with bits := kept.drop (kept.length - 5440), before := symbols.getLastD x.pcs.before } }
  else
    let read := if x.lock = .locked ∧ x.pcs.swapped ≠ pol then complementMsb true bits else bits
    s.setLock n { x with pcs := { x.pcs with bits := x.pcs.bits ++ read } }

/-- The spare's samples in Warm: the gain loop and the reduced clock recovery run on them (Table 3-6, R124). -/
def State.warmFeed (s : State) (n : Nat) (xs : List (Nat × Bool)) : State :=
  let hold := (s.rxCfg n).hold
  s.laneMod n fun l => { l with rx := { (l.rx.count xs) with phase := if hold then l.rx.phase else xs.foldl (fun p x => Config.cdrReduced p x.1 % 64) l.rx.phase } }

/-- Coefficient `k` is trained in the acquisition step: blind training moves the feed-forward taps, decision-directed training also the nonlinear terms,
the last step and the tracking all four loops (Table 3-7). -/
def stepTrains (step k : Nat) : Bool :=
  decide (step = 0 ∨ 8 ≤ step) || decide (k = 0x64 ∧ 6 ≤ step) || decide (k < 0x40 ∧ 6 ≤ step) || decide (k < 0x64 ∧ step = 7)

/-- One coefficient takes its loop's update from the gradient block (R132). -/
def State.adaptOne (s : State) (n : Nat) (c : RxCfg) (b : List GradSample) (k : Nat) : State :=
  let step := s.rd F.LANE_RX_STATUS_ACQ_STEP n
  match s.loopK n k with
  | none => s
  | some e =>
    let g := c.gradient (decide (step = 6)) b k
    if !stepTrains step k || decide (g.1 = 0) then s
    else
      let w := rxCoefWidth k
      s.rxStore n k (sfield 32 (clampInt (-(2 ^ (w - 1))) (2 ^ (w - 1) - 1) (loopStep (c.coef k) g e)))

/-- The indices of the four loops. -/
def loopRange : List Nat := List.range 0x65 ++ (List.range 0x100).map fun k => 0x100 + k

/-- The update once per 16 blocks (R132). -/
def State.adapt (s : State) (n : Nat) : State :=
  let c := s.rxCfg n
  let b := c.gradBlock (s.lane n).rx
  loopRange.foldl (fun t k => t.adaptOne n c b k) s

/-- A sample as the lane monitor sees it: ADC code, equaliser output, decided level, over-range flag (R347). -/
structure MonSample where
  adc : Nat
  eq : Int
  level : Nat
  ovr : Bool

/-- The samples of the block of R132, oldest first. -/
def State.monBlock (s : State) (n : Nat) : List MonSample :=
  let c := s.rxCfg n
  let r := (s.lane n).rx
  ((List.range (min 160 r.decided.length)).map fun i =>
    let x := r.line.getD (c.traceback + i + c.main) (128, false)
    (⟨x.1, r.ys.getD (c.traceback + i) 0, r.decided.getD i 0, x.2⟩ : MonSample)).reverse

/-- The bin a sample falls in (R347). -/
def binOf (mode : Nat) (x : MonSample) : Nat := if mode = 1 then (clampInt 0 255 ((x.eq + 2048) / 16)).toNat else x.adc

/-- One sample reaches the monitor (R347, R348). -/
def State.monSample (s : State) (n : Nat) (x : MonSample) : State :=
  let total := s.rd F.LANE_MON_HIST_TOTAL_COUNT n
  if !s.on F.LANE_MON_STATUS_BUSY n || s.on F.LANE_MON_STATUS_PAUSED n || decide (2 ^ clampNat 10 31 (s.rd F.LANE_MON_CTL_LOG2 n) ≤ total) then s
  else if x.ovr then s.bump F.LANE_MON_HIST_OVR_COUNT n 1
  else if s.on F.LANE_MON_CTL_LEVEL_EN n && decide (x.level ≠ s.rd F.LANE_MON_CTL_LEVEL n) then s
  else
    let a := n * 256 + binOf (s.rd F.LANE_MON_CTL_MODE n) x
    (s.st .hist a (min (2 ^ 32 - 1) (s.ld .hist a + 1))).bump F.LANE_MON_HIST_TOTAL_COUNT n 1

/-- The spare samples whose coincident decision has come reach the monitor of an eye scan (R347). -/
def State.eyeFeed (s : State) (n : Nat) : State :=
  let r := (s.lane n).rx
  if r.eye = [] then s
  else
    let s1 := s.laneMod n fun l => { l with rx := { l.rx with eye := r.eye.filter fun e => decide (r.decidedNr ≤ e.1) } }
    (r.eye.filter fun e => decide (e.1 < r.decidedNr)).foldl (fun t e => t.monSample n ⟨e.2.1, 0, r.decided.getD (r.decidedNr - 1 - e.1) 0, e.2.2⟩) s1

/-- One block of 160 samples leaves the elastic queue for the datapath (R99, R129). -/
def State.rxPass (s : State) (n : Nat) : State :=
  let r := (s.lane n).rx
  let x := (s.rxCfg n).samples { r with queue := r.queue.drop 160 } (r.queue.take 160)
  ((s.laneMod n fun l => { l with rx := x.1.renormalise }).eyeFeed n).laneDeliver n x.2

/-- A list in pieces of 160, at most `k` of them. -/
def blocks160 : Nat → List (Nat × Bool) → List (List (Nat × Bool))
  | 0, _ => []
  | k + 1, l => if l.isEmpty then [] else l.take 160 :: blocks160 k (l.drop 160)

/-- Converted samples, at most a block, enter the elastic queue, which holds 4 blocks; the datapath takes a block when there is one and idles below (R99). -/
def State.rxChunk (s : State) (n : Nat) (xs : List (Nat × Bool)) : State :=
  let q := (s.lane n).rx.queue ++ xs
  if 640 < q.length then s.queueOver n
  else
    let s1 := s.laneMod n fun l => { l with rx := { (l.rx.count xs) with queue := q } }
    if 160 ≤ q.length then s1.rxPass n else s1

/-- Converted samples pass the elastic queue block by block. -/
def State.rxFeed (s : State) (n : Nat) (xs : List (Nat × Bool)) : State := (blocks160 xs.length xs).foldl (fun t b => if t.rxOn n then t.rxChunk n b else t) s

/-- The block of R132 reaches the monitor in modes 0 and 1 (R347). -/
def State.monFeed (s : State) (n : Nat) : State :=
  if s.rd F.LANE_MON_CTL_MODE n = 2 then s else (s.monBlock n).foldl (fun t x => t.monSample n x) s

/-- The phase at which the spare samples, in 1/64 UI from the data sampling phase: PHASE in an eye scan (R347). -/
def State.eyePhase (s : State) (n : Nat) : Int :=
  if s.rd F.LANE_MON_CTL_MODE n = 2 && s.on F.LANE_MON_STATUS_BUSY n then sval 6 (s.rd F.LANE_MON_CTL_PHASE n) else 0

/-- The spare's conversion of its input, given at the phases from -32 to +31. -/
def State.spareSample (s : State) (n : Nat) (w : List AdcIn) : Nat × Bool := AdcIn.convert (w.getD (32 + s.eyePhase n).toNat ⟨0, 0⟩)

/-- The spare's samples of an update in an eye scan: one in `slots` sampling periods, each with the number of the decision at its instant, whose main cursor
is that sample (R347). -/
def State.eyeTake (s : State) (n : Nat) (ps : List (Nat × Bool)) : State :=
  if s.rd F.LANE_MON_CTL_MODE n ≠ 2 || !s.on F.LANE_MON_STATUS_BUSY n then s
  else
    let r := (s.lane n).rx
    let first := r.processed + r.queue.length + (s.rxCfg n).main
    s.laneMod n fun l => { l with rx := { l.rx with eye := l.rx.eye ++ ps.zipIdx.map fun e => (first + s.slots n * e.2, e.1) } }

/-- A freeze of cause LOS or STATE is in force: the signal-quality monitor stands still, its window has been discarded (R350). -/
def State.sqHeld (s : State) (n : Nat) : Bool :=
  s.on F.LANE_RX_STATUS_FROZEN n && decide (s.rd F.LANE_RX_STATUS_FREEZE_CAUSE n = 1 ∨ s.rd F.LANE_RX_STATUS_FREEZE_CAUSE n = 4)

/-- The decisions of an update in the signal-quality window, without over-range samples; a full window takes no more (R350). -/
def State.sqFeed (s : State) (n : Nat) : State :=
  if s.sqHeld n then s else
  let full := 2 ^ clampNat 10 24 (s.rd F.LANE_MON_SQ_CFG_LOG2 n)
  let add (q : List (Nat × SqSum)) (x : MonSample) : List (Nat × SqSum) :=
    let a := Amap.get SqSum.init q x.level
    if x.ovr || decide (full ≤ q.foldl (fun k e => k + e.2.count) 0) then q
    else Amap.put natLt SqSum.init q x.level { count := a.count + 1, sum := a.sum + x.eq, squares := a.squares + (x.eq * x.eq).toNat }
  s.laneMod n fun l => { l with rx := { l.rx with sq := (s.monBlock n).foldl add l.rx.sq } }

/-- The samples converted since the last update, in service and on the spare (each of the spare with its input about the data sampling phase), pass the
datapath; then each unfrozen loop updates from one block (R99, R132), and the block reaches the monitor (R347). -/
def execAdaptationUpdate (n : Fin 48) (samples : List AdcIn) (spare : List (List AdcIn)) (s : State) : Host.Outcome State Fault Refusal :=
  .next (if s.lanesOff then s else
    let xs := samples.map AdcIn.convert
    let ps := spare.map (s.spareSample n.val)
    let s1 := if s.rxOn n.val then ((s.laneScan n.val 0 0x400).eyeTake n.val ps).rxFeed n.val xs
      else if s.rd F.LANE_STATE_CUR n.val = 3 then s.warmFeed n.val ps
      else s
    let s2 := if s1.loopsRun n.val then s1.adapt n.val else s1
    if s2.laneLit n.val then (s2.monFeed n.val).sqFeed n.val else s2)

/-- The coefficients and table entries a snapshot holds (R135). -/
def snapRange : List Nat := loopRange

def execCoefSnapshot (n : Fin 48) (s : State) : Host.Outcome State Fault Refusal :=
  .next (if s.laneActive n.val && decide (s.rd F.LANE_RX_FOM_THR_LOW_SNR n.val ≤ s.rd F.LANE_RX_FOM_SNR n.val) then
      (snapRange.foldl (fun t k => t.st .rxSnap (n.val * 0x10000 + k) (t.rxCoef n.val k)) s).laneMod n.val fun l => { l with snapshot := true }
    else s)

/-- SNR below LOW_SNR for 1 ms with no freeze: the snapshot is restored in the acquisition gear, or acquisition starts again from clock recovery
(R133, R135, R143). -/
def execLaneDiverged (n : Fin 48) (s : State) : Host.Outcome State Fault Refusal :=
  .next (if s.laneActive n.val && decide (s.rd F.LANE_RX_FOM_SNR n.val < s.rd F.LANE_RX_FOM_THR_LOW_SNR n.val) then
      if (s.lane n.val).snapshot then
        let s1 := snapRange.foldl (fun t k => t.rxStore n.val k (t.ld .rxSnap (n.val * 0x10000 + k))) s
        let s2 := (s1.laneMod n.val fun l => { l with acqGear := true }).event F.LANE_RX_EVENT_DIVERGED n.val
        ((s2.put F.LANE_RX_STATUS_DIVERGED n.val true).convLost n.val).laneMoved n.val
      else ((s.laneMod n.val fun l => { l with wake := .full }).acqFreq n.val).laneMoved n.val
    else s)

/-- INDEX advances, wrapping from 0x3FF to 0. -/
def State.rxIndexNext (s : State) (n : Nat) : State := s.wr F.LANE_RX_COEF_ADDR_INDEX n (s.rd F.LANE_RX_COEF_ADDR_INDEX n + 1)

/-- A write of LANE_RX_COEF_DATA (R116, R136). -/
def State.rxDataWrite (s : State) (n v : Nat) : State × Status :=
  let k := s.rd F.LANE_RX_COEF_ADDR_INDEX n
  let s1 := if rxCoefWidth k = 0 then s else s.rxStore n k (rxCoefValue k v)
  ((if rxCoefWidth k = 32 then s1.trimNote n v false else s1).rxIndexNext n, .ok)

/-- A read of LANE_RX_COEF_DATA: an uncorrectable word takes the lane to Cold (R136, Table 13-1). -/
def State.rxDataRead (s : State) (n : Nat) : State × Option Nat :=
  let k := s.rd F.LANE_RX_COEF_ADDR_INDEX n
  if rxCoefWidth k = 0 then (s.rxIndexNext n, some 0)
  else
    let r := s.memReadL 6 (laneWord n k) (s.rxCoef n k)
    ((r.1.rxIndexNext n).laneLines n (r.2.1 = .bad) r.2.2, r.2.1.value)

/-- A read whose word may be lost: POISONED with value 0. -/
def State.readingMem (s : State) (ag : Agent) (r : Reg) (i : Nat) (handler : State → State × Option Nat) : State :=
  match s.readCheck ag r i with
  | some st => (if st = .waiting then s.touched r i else s).answer st 0
  | none =>
    let res := handler s
    match res.2 with
    | some v => res.1.answer .ok v
    | none => res.1.answer .poisoned 0

def execLaneRxCoefData (ag : Agent) (n : Fin 48) (write : Option W32) (s : State) : Host.Outcome State Fault Refusal :=
  match write with
  | some v => .next (s.writing ag .LANE_RX_COEF_DATA n.val v.toNat fun t => t.rxDataWrite n.val v.toNat)
  | none => .next (s.readingMem ag .LANE_RX_COEF_DATA n.val fun t => t.rxDataRead n.val)

/-! ### Convergence (R143 to R145) -/

/-- The wake check of R143 runs: after a wake from Banked once the lane is Lit, after one from Warm on the way there. -/
def State.wakeChecks (s : State) (n : Nat) : Bool :=
  !s.on F.LANE_RX_STATUS_CONVERGED n &&
    (match (s.lane n).wake with
      | .fromBanked => decide (s.rd F.LANE_STATE_CUR n = 2) && !s.on F.LANE_STATE_CHANGING n
      | .fromWarm => s.rxOn n
      | _ => false)

/-- The running wake window passes: CDR_LOCK, and an SNR over this window alone that reaches LOW_SNR and lies within 0.5 dB of the kept one. -/
def State.wakePass (s : State) (n : Nat) : Bool :=
  let l := s.lane n
  decide (0 < l.rx.wake.count) && s.on F.LANE_RX_STATUS_CDR_LOCK n && decide (s.rd F.LANE_RX_FOM_THR_LOW_SNR n ≤ l.rx.wake.snr) &&
    snrNear l.rx.wake.snr l.keptSnr

/-- A wake window ends (R143). -/
def execWakeWindowEnd (n : Fin 48) (s : State) : Host.Outcome State Fault Refusal :=
  .next (
    let k := if s.wakePass n.val then (s.lane n.val).windows + 1 else 0
    let s0 := s.laneMod n.val fun l => { l with rx := { l.rx with wake := SnrSum.init } }
    if s.wakeChecks n.val then
      let s1 := s0.laneMod n.val fun l => { l with windows := k }
      if 3 ≤ k then s1.convGot n.val else s1
    else s0)

/-- The SNR estimate is at least LOW_SNR and has changed by less than 0.2 dB over the last 1 ms: ten windows (R143). -/
def State.snrSteady (s : State) (n : Nat) : Bool :=
  let l := (s.lane n).rx.snrs
  decide (11 ≤ l.length) && decide (s.rd F.LANE_RX_FOM_THR_LOW_SNR n ≤ l.headD 0) &&
    (l.take 11).all fun a => decide (a < l.headD 0 + 2 ∧ l.headD 0 < a + 2)

/-- The condition of R143 after acquisition from Cold, a fallback, a restore or a lost clock. -/
def execLaneConverged (n : Fin 48) (s : State) : Host.Outcome State Fault Refusal :=
  .next (
    let w := (s.lane n.val).wake
    let here := s.rd F.LANE_STATE_REQ n.val = 2 ∧ (s.laneLit n.val ∨ (s.rd F.LANE_STATE_CUR n.val = 3 ∧ w = Wake.full))
    if here ∧ w ≠ Wake.fromBanked ∧ w ≠ Wake.fromWarm ∧ !s.on F.LANE_RX_STATUS_CONVERGED n.val ∧ s.on F.LANE_RX_STATUS_CDR_LOCK n.val ∧
      5 ≤ s.rd F.LANE_RX_STATUS_ACQ_STEP n.val ∧ s.snrSteady n.val then s.convGot n.val
    else s)

def execAcqTimeout (n : Fin 48) (s : State) : Host.Outcome State Fault Refusal :=
  .next (if (s.lane n.val).wake = Wake.full ∧ s.rd F.LANE_STATE_REQ n.val = 2 ∧ 2 ≤ s.rd F.LANE_STATE_CUR n.val ∧ !s.on F.LANE_RX_STATUS_CONVERGED n.val ∧
      3 ≤ s.rd F.LANE_RX_STATUS_ACQ_STEP n.val then
      (s.event F.LANE_RX_EVENT_ACQ_TIMEOUT n.val).acqSweep n.val
    else s)

def execWakeFallback (n : Fin 48) (s : State) : Host.Outcome State Fault Refusal :=
  .next (if ((s.lane n.val).wake = Wake.fromBanked ∨ (s.lane n.val).wake = Wake.fromWarm) ∧ !s.on F.LANE_RX_STATUS_CONVERGED n.val ∧
      2 ≤ s.rd F.LANE_STATE_CUR n.val then
      ((s.laneMod n.val fun l => { l with wake := .full, windows := 0 }).event F.LANE_RX_EVENT_ACQ_TIMEOUT n.val).acqFreq n.val
    else s)

/-! ### Registers (R104, R109, R134, R149) -/

/-- Writes of the receive registers that do more than store; the others store. -/
def State.laneRxWrite (s : State) (r : Reg) (n v : Nat) : Option (State × Status) :=
  match r with
  | .LANE_STATE => some (s.laneStateWrite n v)
  | .LANE_RX_CFG => some (s.rxCfgWrite n v)
  | .LANE_SEASON_CMD => some (s.seasonWrite n v)
  | .LANE_RX_COEF_DATA => some (s.rxDataWrite n v)
  | .LANE_RX_CTLE =>
    let s1 := (s.wr F.LANE_RX_CTLE_ADAPT_EN n (F.LANE_RX_CTLE_ADAPT_EN.of v)).wr F.LANE_RX_CTLE_POLE n (F.LANE_RX_CTLE_POLE.of v)
    some ((s1.wr F.LANE_RX_CTLE_PEAK n (F.LANE_RX_CTLE_PEAK.of v)).gainWritten n (s.rd F.LANE_RX_GAIN_ATTEN n), .ok)
  | .LANE_RX_GAIN =>
    let s1 := (s.wr F.LANE_RX_GAIN_TARGET n (F.LANE_RX_GAIN_TARGET.of v)).wr F.LANE_RX_GAIN_AGC_EN n (F.LANE_RX_GAIN_AGC_EN.of v)
    let s2 := (s1.wr F.LANE_RX_GAIN_ATTEN n (F.LANE_RX_GAIN_ATTEN.of v)).wr F.LANE_RX_GAIN_FINE n (F.LANE_RX_GAIN_FINE.of v)
    some (s2.gainWritten n (s.rd F.LANE_RX_GAIN_ATTEN n), .ok)
  | .LANE_RX_ADAPT =>
    let s1 := (Reg.fields .LANE_RX_ADAPT).foldl (fun t f => t.wr f n (f.of v)) s
    some (s1.freezeJudge n, .ok)
  | _ => none

end Sys2Proof.Machine
end

