-- ==== Sys2Proof/Machine/PortTx.lean ====
section
/-!
DEFINITION. The transmit side of a line port (R191 to R201, R207): its block stream on its lanes, markers, codewords, symbols.
-/

namespace Sys2Proof.Machine

/-- The marker logical lane `l` of port `p` sends (Table 5-4). -/
def State.txMarker (s : State) (p l : Nat) : List Nat :=
  let kind := (s.role p - 2) % 2 + (if s.fmt p = 3 then 2 else 0)
  markerBody l (s.lanesPerPort (p / 8)) (p / 8 * 16 + p % 8) kind (s.rd F.PORT_TAG_TX_TAG p) (s.port p).amCount

/-- The next block of the port stream: the first of the transmit queue, or an idle block (R192, R207). -/
def State.takeTx (s : State) (p : Nat) : State × (Bool × List Nat) :=
  match (s.port p).txBlocks with
  | [] => (s, idleBlock)
  | b :: rest => (s.setPort p { s.port p with txBlocks := rest }, b)

/-- One block for every lane of port `p`, each after the bits its codeword has so far: block i of the stream goes to logical lane i mod n, which is
physical lane l of the port (R193); a marker row takes none from the stream (R195). -/
def State.encodeRow (s : State) (p : Nat) (marker : Bool) (msgs : List (List Bool)) : State × List (List Bool) :=
  (List.zip (s.portLanes p) msgs).foldl (fun (a : State × List (List Bool)) x =>
    let b := if marker then (a.1, (true, a.1.txMarker p (a.1.laneIndex x.1))) else a.1.takeTx p
    let k := b.1.lockOf x.1
    let y := sendBlock k.pcs.scr marker b.2
    (b.1.setLock x.1 { k with pcs := { k.pcs with scr := y.1 } }, a.2 ++ [x.2 ++ y.2])) (s, [])

/-- One codeword more on every lane of port `p` (R195, R197, R198): every 256th begins with a marker. -/
def State.portEncode (s : State) (p : Nat) : State :=
  let first := decide ((s.port p).codeword = 0)
  let x0 := s.encodeRow p first (List.replicate (s.portLanes p).length [])
  let x := (List.range 19).foldl (fun (a : State × List (List Bool)) _ => a.1.encodeRow p false a.2) x0
  let s1 := (List.zip (x.1.portLanes p) x.2).foldl (fun t y =>
    let bits := rsEncodeBits y.2
    let k := t.lockOf y.1
    t.setLock y.1 { k with pcs := { k.pcs with txBits := k.pcs.txBits ++ (if s.fmt p = 3 then groupEncode bits else bits) } }) x.1
  s1.setPort p { s1.port p with codeword := ((s.port p).codeword + 1) % 256
                                amCount := if first then ((s.port p).amCount + 1) % 2 ^ 32 else (s.port p).amCount }

/-- The 160 port symbols of lane `n`'s next block (R200). With FORMAT 1 the bit pairs are those of the clause's own sublayers, given by the command; they
are Gray mapped, and precoded with PRECODE_TX = 1 (R187; log entry 36). `before` is the symbol sent last. -/
def State.portSymbols (s : State) (n before : Nat) (pairs : List Nat) : State × List Nat :=
  let p := s.portOfLane n
  if s.fmt p = 1 then
    let syms := pairs.map fun a => grayLevel (decide (2 ≤ a)) (decide (a % 2 = 1))
    (s, if s.on F.PORT_CFG_PRECODE_TX p then precode before syms else syms)
  else
    let s1 := if (s.lockOf n).pcs.txBits.length < 320 then s.portEncode p else s
    let k := s1.lockOf n
    (s1.setLock n { k with pcs := { k.pcs with txBits := k.pcs.txBits.drop 320 } }, bitSymbols (k.pcs.txBits.take 320))

end Sys2Proof.Machine
end

