-- ==== Sys2Proof/Machine/LaneTx.lean ====
section
/-!
DEFINITION. The lane transmitter (chapter 04): sources, shaping, Smoke ripple, code mapping, driver.
-/

namespace Sys2Proof.Machine

/-! ### Arithmetic (R156) -/

/-- A quotient rounded to the nearest integer, halves away from zero. -/
def roundDiv (a : Int) (b : Nat) : Int :=
  if 0 ≤ a then ((2 * a + b) / (2 * b)) else -((2 * -a + b) / (2 * b))

/-- The terms of the cosine series of an angle with square `x2` (in 2^-64), from term `k` on. -/
def cosSeries (x2 : Int) : Nat → Nat → Int → Int
  | 0, _, _ => 0
  | fuel + 1, k, term =>
    term + cosSeries x2 fuel (k + 1) (-(term * x2 / 2 ^ 64) / ((2 * k + 1) * (2 * k + 2) : Nat))

/-- 2π in units of 2^-64. -/
def twoPi : Int := 115904311329233965478

/-- cos of 2π times a fraction of a cycle in units of 2^-64, the fraction at most a quarter; the result in units of 2^-64. -/
def cosQuarter (q : Int) : Int :=
  let a := twoPi * q / 2 ^ 64
  cosSeries (a * a / 2 ^ 64) 16 0 (2 ^ 64)

/-- `m` times cos of 2π times a fraction of a cycle (in 2^-64), as the nearest integer. -/
def cosScaled (m : Int) (q : Nat) : Int :=
  let f : Nat := q % 2 ^ 64
  let h : Nat := if f ≤ 2 ^ 63 then f else 2 ^ 64 - f
  let g : Nat := 2 ^ 63 - h
  let c : Int := if h ≤ 2 ^ 62 then cosQuarter h else -cosQuarter g
  roundDiv (m * c) (2 ^ 64)

/-- 511 times cos of 2π times a fraction of a cycle (R355). -/
def ripple511 (q : Nat) : Int := cosScaled 511 q

/-! ### The ripple value of a block (R162, R355, R356) -/

/-- Blocks of 160 symbols per second at RATE 2 and 3. -/
def blockRate (rate : Nat) : Nat := if rate = 2 then 1328125000 else 1417968750

/-- The chirp a frame is in, and how far into it in 1/`den` chips: `x` is the time since the start in the same units, `n` the chips of a symbol. The
third down-chirp lasts a quarter of a symbol (Table 10-2). -/
def chirpAt (x n den : Nat) : Nat × Nat :=
  let sym := n * den
  if x < 12 * sym then (x / sym, x % sym)
  else if x < 12 * sym + sym / 4 then (12, x - 12 * sym)
  else (13 + (x - 12 * sym - sym / 4) / sym, (x - 12 * sym - sym / 4) % sym)

/-- The phase a chirp has run through after `c`/`den` of its chips, in 1/(2 n den²) cycles (R355). Every whole chirp, and the quarter chirp, runs through
whole cycles. -/
def chirpPhase (v : Option Nat) (c n den : Nat) : Int :=
  match v with
  | some v => 2 * (v * c * den : Nat) + (c * c : Nat) - (n * c * den : Nat) - 2 * (n * den * (c - (n - v) * den) : Nat)
  | none => (n * c * den : Nat) - (c * c : Nat)

/-- The phase of block `k` of a frame in units of 2^-64 cycles: its start, the centre frequency of 2.0 MHz and the chirp. -/
def framePhase (x : SmokeS) (rate k : Nat) : Option Nat :=
  let den := blockRate rate
  let n := 2 ^ x.sf
  let at_ := chirpAt (k * (125000 * 2 ^ x.bw)) n den
  match x.chirps[at_.1]? with
  | none => none
  | some v =>
    let d : Int := 2 * (n * den * den : Nat)
    let num : Int := chirpPhase v at_.2 n den + 2000000 * (k * 2 * n * den : Nat)
    some (((num * 2 ^ 64 / d) + x.phase0 * 2 ^ 48) % 2 ^ 64).toNat

/-- The ripple value the modem supplies for the next block: 0 when it sends no frame. -/
def State.rippleValue (s : State) (n : Nat) : Int :=
  let x := s.smk n
  if x.sending.isNone then 0
  else match framePhase x (s.rd F.LANE_RX_CFG_RATE n) x.blocks with
    | some q => ripple511 q
    | none => 0

/-! ### Source selection (R151, Table 4-2) -/

/-- The source of the next block: 0 IDLE, 1 PORT, 2 KEEPALIVE, 3 TEST. -/
def State.txSource (s : State) (n : Nat) : Nat :=
  let cur := s.rd F.LANE_STATE_CUR n
  let pattern := s.rd F.LANE_TX_CFG_PATTERN n
  if (s.lanesOff && (s.smk n).sending.isNone && (s.smk n).going.isNone) ∨ cur ≤ 1 ∨ s.on F.LANE_STATE_CHANGING n ∨ !s.on F.LANE_TX_CFG_TX_EN n ∨ s.on F.LANE_TX_STATUS_DAC_CAL n ∨
    (cur = 3 ∧ s.on F.LANE_TX_CFG_WARM_TX n) then 0
  else if 1 ≤ pattern ∧ pattern ≤ 4 then 3
  else if cur = 2 ∧ s.on F.PORT_STATUS_TX_READY (s.portOfLane n) then 1
  else 2

/-! ### Shaping (R154 to R157, R162 to R171) -/

/-- Coefficient `k` of the active bank. -/
def State.txCoef (s : State) (n k : Nat) : Int := sval 32 (s.ld .txActive (n * 0x100 + k))

/-- The pre-distortion level of a symbol between its neighbours (R155). -/
def State.txLevel (s : State) (n before here after : Nat) : Int := s.txCoef n (0x40 + 16 * before + 4 * here + after)

/-- The levels of every symbol of a run that has both neighbours. -/
def State.txLevels (s : State) (n : Nat) : List Nat → List Int
  | a :: b :: c :: rest => s.txLevel n a b c :: s.txLevels n (b :: c :: rest)
  | _ => []

/-- The sum of R156 over eight levels, newest last, before it is divided. -/
def State.txSum (s : State) (n : Nat) (p : List Int) : Int := ((List.range 8).map fun t => s.txCoef n t * p.getD (7 - t) 0).foldl (· + ·) 0

/-- The pre-emphasis outputs of a run of levels. -/
def State.txOutputs (s : State) (n : Nat) : Nat → List Int → List Int
  | 0, _ => []
  | fuel + 1, p => if p.length < 8 then [] else roundDiv (s.txSum n (p.take 8)) 256 :: s.txOutputs n fuel (p.drop 1)

/-- One output through the ripple and the code mapping: its code, and whether it counts under R157. -/
def shapeOne (ripple : Bool) (depth : Nat) (r y0 : Int) : Nat × Bool :=
  let y := clampInt (-2047) 2047 y0
  let v := if ripple then roundDiv (y * (400 - depth : Nat)) 400 + roundDiv (depth * 2047 * r) (400 * 511) else y
  let c := 128 + roundDiv v 16
  ((clampInt 0 255 c).toNat, decide (y ≠ y0) || decide (c < 0) || decide (255 < c))

/-- The hold of a code after the previous one, in 1/32 symbol (R171). -/
def State.holdOf (s : State) (n prev code : Nat) : Nat :=
  if s.on F.LANE_TX_DAC_MTH_EN n && decide (prev / 64 ≠ code / 64) then s.rd F.LANE_TX_DAC_MTH_WIDTH n else 0

/-- The holds along a run of codes; the first has none where no code came before. -/
def State.holdRun (s : State) (n : Nat) : Option Nat → List Nat → List (Nat × Nat)
  | _, [] => []
  | prev, c :: cs => (c, match prev with | some p => s.holdOf n p c | none => 0) :: s.holdRun n (some c) cs

/-- The nine symbols before the block: those sent last, or, after IDLE, symbols the section does not give. -/
def State.txHistory (s : State) (n : Nat) : State × List Nat :=
  let h := (s.lane n).lastSyms
  if h.length = 9 then (s, h) else (s.drawn, (List.range 9).map fun k => s.freeVal / 4 ^ k % 4)

/-- The code the DAC is given last: the last of the sample queue, or of the block it reads. -/
def LaneS.lastCode (l : LaneS) : Option Nat := ((l.driven ++ l.codes.flatten).getLast?).map Prod.fst

/-- A block of codes enters the sample queue. The queue runs half full, at two blocks of its four; beyond them the DAC has taken the oldest (R166; log
entry 53). -/
def LaneS.pushBlock (l : LaneS) (b : List (Nat × Nat)) : LaneS :=
  match l.codes with
  | a :: c :: rest => { l with codes := c :: rest ++ [b], driven := a }
  | _ => { l with codes := l.codes ++ [b] }

/-- A block leaves the shaping for the sample queue: the look-ahead of R155 and R156 delays a symbol by three. -/
def State.txShape (s : State) (n : Nat) (syms : List Nat) : State :=
  let h := s.txHistory n
  let pol := s.on F.LANE_TX_CFG_POL_INV n
  let run := h.2 ++ (syms.map fun a => if pol then 3 - a else a)
  let on := (s.lane n).ripple
  let r := s.rippleValue n
  let out := (s.txOutputs n run.length (s.txLevels n run)).map fun y => shapeOne on (s.lane n).depth r y
  let count := (out.filter fun o => o.2).length
  let codes := s.holdRun n (s.lane n).lastCode (out.map fun o => o.1)
  ((h.1.laneMod n fun l => { l.pushBlock codes with lastSyms := run.drop (run.length - 9), satCount := l.satCount + count }).bump
    F.LANE_TX_SAT_COUNT n count).perfLane 4 n count

/-- What the driver puts out for the codes the DAC reads (R165, R169, R172): (code / 255 - 0.5) FS times the swing, as numerators over 32,640 in mV. -/
def State.txOutput (s : State) (n : Nat) : List Int :=
  let fs : Nat := if s.on F.LANE_TX_DAC_REF_GAIN n then 1200 else 600
  (s.lane n).driven.map fun c => (2 * (c.1 : Int) - 255) * (fs * (s.lane n).swing : Nat)

/-- The symbols the selected source supplies for a block: test or keep-alive pattern at its current position, or port symbols (R151, R152). -/
def State.txSymbols (s : State) (n src : Nat) (pairs : List Nat) : State × List Nat :=
  let pol := s.on F.LANE_TX_CFG_POL_INV n
  match src with
  | 1 => s.portSymbols n (match (s.lane n).lastSyms.getLast? with | some a => if pol then 3 - a else a | none => 0) pairs
  | 2 => (s, (s.lane n).gen.symbols 1 160)
  | _ => (s, (s.lane n).gen.symbols (s.rd F.LANE_TX_CFG_PATTERN n) 160)

/-- RIPPLE_EN takes effect at the boundary; a ripple that stops ends the frame in progress (R164). -/
def State.rippleNow (s : State) (n : Nat) : State :=
  let on := s.on F.LANE_TX_SMOKE_RIPPLE_EN n
  let s1 := s.laneMod n fun l => { l with ripple := on }
  if on then s1 else s1.smokeAbort n

/-- The keep-alive and test generators run on while the lane is Lit or Warm (R152). -/
def State.genRun (s : State) (n : Nat) : State :=
  if 2 ≤ s.rd F.LANE_STATE_CUR n then s.laneMod n fun l => { l with gen := l.gen.run 160 } else s

/-- A block boundary: the source, the swing and depth in force, and the block's codes. -/
def State.txBoundary (s00 : State) (n : Nat) (pairs : List Nat) : State :=
  let s := s00.rippleNow n
  let src := s.txSource n
  let s0 := s.laneMod n fun l => { l with swing := 32 + min 32 (s.rd F.LANE_TX_DRV_SWING n) }
  let s1 := if s0.on F.LANE_TX_SMOKE_DEPTH_PENDING n && (s0.smk n).sending.isNone then s0.depthNow n else s0
  let s2 := if s1.rd F.LANE_TX_STATUS_SOURCE n = src then s1 else (s1.wr F.LANE_TX_STATUS_SOURCE n src).event F.LANE_TX_EVENT_SOURCE n
  let s3 := (s2.put F.LANE_TX_STATUS_DRIVING n (src ≠ 0)).put F.LANE_TX_STATUS_RIPPLE n (decide (src ≠ 0) && (s2.lane n).ripple)
  let x := s3.txSymbols n src pairs
  let s4 := if src = 0 then (s3.txIdle n).genRun n else (x.1.txShape n x.2).genRun n
  if (s4.smk n).sending.isSome then s4.setSmk n { s4.smk n with blocks := (s4.smk n).blocks + 1 } else s4

/-- `pairs` are the bit pairs that the sublayers of a FORMAT 1 port supply; every other source makes its symbols itself. -/
def execTxBlockBoundary (n : Fin 48) (pairs : List (Fin 4)) (s : State) : Host.Outcome State Fault Refusal :=
  .next ((if s.txSource n.val = 0 then s else s.laneScan n.val 0x600 0x680).txBoundary n.val (pairs.map fun a => a.val))

/-! ### Coefficient banks (R158, R160, Table 4-12) -/

/-- The width of a transmit coefficient; 0 for an unlisted index. -/
def txCoefWidth (k : Nat) : Nat := if k < 8 then 10 else if 0x40 ≤ k ∧ k < 0x80 then 12 else 0

/-- One word of the shadow bank copied into the active bank; the answer says whether it was uncorrectable, which leaves it uncopied. -/
def State.txCopyWord (s : State) (n k : Nat) : State × Bool × List Line :=
  if txCoefWidth k = 0 then (s, false, [])
  else
    let r := s.memReadL 6 (laneWord n (0x680 + k)) (s.ld .txShadow (n * 0x100 + k))
    match r.2.1 with
    | .good v => (r.1.memWrite 6 (laneWord n (0x600 + k)) .txActive (n * 0x100 + k) v, false, r.2.2)
    | .bad => (r.1, true, r.2.2)

/-- The shadow bank is copied into the active bank; an uncorrectable word takes the lane to Cold (R139, R160). -/
def State.txCopy (s : State) (n : Nat) : State :=
  let r := (List.range 0x80).foldl (fun (a : State × Bool × List Line) k => let x := a.1.txCopyWord n k; (x.1, a.2.1 || x.2.1, a.2.2 ++ x.2.2)) (s, false, [])
  r.1.laneLines n r.2.1 r.2.2

/-- A write of LANE_TX_COMMIT; the command completes after the copy. -/
def State.txCommit (s : State) (n v : Nat) : State × Status := (if F.LANE_TX_COMMIT_COMMIT.of v = 1 then s.txCopy n else s, .ok)

def execTxCommit (ag : Agent) (n : Fin 48) (v : W32) (s : State) : Host.Outcome State Fault Refusal :=
  .next (s.writing ag .LANE_TX_COMMIT n.val v.toNat fun t => t.txCommit n.val v.toNat)

/-- INDEX advances, wrapping from 0x7F to 0. -/
def State.txIndexNext (s : State) (n : Nat) : State := s.wr F.LANE_TX_COEF_ADDR_INDEX n (s.rd F.LANE_TX_COEF_ADDR_INDEX n + 1)

/-- A write of LANE_TX_COEF_DATA (R160). -/
def State.txDataWrite (s : State) (n v : Nat) : State × Status :=
  let k := s.rd F.LANE_TX_COEF_ADDR_INDEX n
  if !s.on F.LANE_TX_COEF_ADDR_SHADOW n then (s, .refusedState)
  else
    let s1 := if txCoefWidth k = 0 then s
      else s.memWrite 6 (laneWord n (0x680 + k)) .txShadow (n * 0x100 + k) (sext32 (txCoefWidth k) v)
    (s1.txIndexNext n, .ok)

/-- A read of LANE_TX_COEF_DATA. -/
def State.txDataRead (s : State) (n : Nat) : State × Option Nat :=
  let k := s.rd F.LANE_TX_COEF_ADDR_INDEX n
  let shadow := s.on F.LANE_TX_COEF_ADDR_SHADOW n
  if txCoefWidth k = 0 then (s.txIndexNext n, some 0)
  else
    let r := if shadow then s.memReadL 6 (laneWord n (0x680 + k)) (s.ld .txShadow (n * 0x100 + k))
      else s.memReadL 6 (laneWord n (0x600 + k)) (s.ld .txActive (n * 0x100 + k))
    ((r.1.txIndexNext n).laneLines n (r.2.1 = .bad) r.2.2, r.2.1.value)

def execLaneTxCoefData (ag : Agent) (n : Fin 48) (write : Option W32) (s : State) : Host.Outcome State Fault Refusal :=
  match write with
  | some v => .next (s.writing ag .LANE_TX_COEF_DATA n.val v.toNat fun t => t.txDataWrite n.val v.toNat)
  | none => .next (s.readingMem ag .LANE_TX_COEF_DATA n.val fun t => t.txDataRead n.val)

/-! ### Ripple control (R161, R164) -/

/-- A write of LANE_TX_SMOKE: the enable needs a line lane at RATE 2 or 3; the depth waits for the end of a frame or the next block boundary. -/
def State.txSmokeWrite (s : State) (n v : Nat) : State × Status :=
  let en := F.LANE_TX_SMOKE_RIPPLE_EN.of v
  if en = 1 ∧ !s.rippleOk n then (s, .refusedState)
  else
    let s1 := (s.wr F.LANE_TX_SMOKE_DEPTH n (F.LANE_TX_SMOKE_DEPTH.of v)).put F.LANE_TX_SMOKE_DEPTH_PENDING n true
    (if en = 1 then s1.put F.LANE_TX_SMOKE_RIPPLE_EN n true else s1.rippleOff n, .ok)

def execLaneTxSmokeWrite (ag : Agent) (n : Fin 48) (v : W32) (s : State) : Host.Outcome State Fault Refusal :=
  .next (s.writing ag .LANE_TX_SMOKE n.val v.toNat fun t => t.txSmokeWrite n.val v.toNat)

/-! ### Saturation, underflow, calibration, shorts (R157, R167, R170, R177) -/

/-- Samples of a 100 µs window at a rate. -/
def windowSamples (rate : Nat) : Nat := match rate with | 0 => 5312500 | 1 => 10625000 | 2 => 21250000 | _ => 22687500

def execSaturationWindow (n : Fin 48) (s : State) : Host.Outcome State Fault Refusal :=
  .next ((s.eventIf (decide (windowSamples (s.rd F.LANE_RX_CFG_RATE n.val) < (s.lane n.val).satCount * 1000000)) F.LANE_TX_EVENT_SAT n.val).laneMod n.val
    fun l => { l with satCount := 0 })

def execSampleQueueUnderflow (n : Fin 48) (s : State) : Host.Outcome State Fault Refusal :=
  .next (if 2 ≤ s.rd F.LANE_STATE_CUR n.val then
      let hold := match (s.lane n.val).lastCode with | some c => s.holdOf n.val c 128 | none => 0
      let s1 := (s.laneMod n.val fun l => { l with codes := [], driven := (128, hold) :: List.replicate 159 (128, 0) }).event F.LANE_TX_EVENT_UNDERFLOW n.val
      (s1.laneForce n.val 2).errorLine (n.val / 8) (n.val % 8) 2
    else s)

def execDacCalibrationEnd (n : Fin 48) (failed : Bool) (s : State) : Host.Outcome State Fault Refusal :=
  .next (if s.on F.LANE_TX_STATUS_DAC_CAL n.val then
      ((s.put F.LANE_TX_STATUS_DAC_CAL n.val false).put F.LANE_TX_STATUS_CAL_FAIL n.val failed).eventIf failed F.LANE_TX_EVENT_CAL_FAIL n.val
    else s)

/-- A kind of short is detected in the lane's state (Table 4-9, Table 4-10): none while Cold, no SHORT_PN while Banked or below 300 mV of swing. -/
def State.shortSeen (s : State) (n k : Nat) : Bool :=
  let cur := s.rd F.LANE_STATE_CUR n
  let fs := if s.on F.LANE_TX_DAC_REF_GAIN n then 1200 else 600
  if cur = 0 then false
  else if k < 2 then true
  else decide (2 ≤ cur) && s.on F.LANE_TX_STATUS_DRIVING n && decide (300 * 64 ≤ fs * (s.lane n).swing)

def execShortDetect (n : Fin 48) (kind : Fin 3) (atLimit : Bool) (s : State) : Host.Outcome State Fault Refusal :=
  .next (if s.shortSeen n.val kind.val then s.shortSet n.val kind.val true atLimit else s)

def execShortClear (n : Fin 48) (kind : Fin 3) (s : State) : Host.Outcome State Fault Refusal :=
  .next (s.shortSet n.val kind.val false false)

/-! ### Registers (R168, R179) -/

/-- Writes of the transmit registers that do more than store. REF_GAIN changes only while Banked or Cold. -/
def State.laneTxWrite (s : State) (r : Reg) (n v : Nat) : Option (State × Status) :=
  match r with
  | .LANE_TX_COMMIT => some (s.txCommit n v)
  | .LANE_TX_COEF_DATA => some (s.txDataWrite n v)
  | .LANE_TX_SMOKE => some (s.txSmokeWrite n v)
  | .LANE_TX_DAC =>
    if F.LANE_TX_DAC_REF_GAIN.of v ≠ s.rd F.LANE_TX_DAC_REF_GAIN n ∧ 2 ≤ s.rd F.LANE_STATE_CUR n then some (s, .refusedState) else none
  | _ => none

end Sys2Proof.Machine
end

