-- ==== Sys2Proof/Machine/Perf.lean ====
section
/-!
DEFINITION. Performance counters (chapter 18): selection, overflow, snapshots, the Flue ring and its mirror.
-/

namespace Sys2Proof.Machine

/-! ### Counters (R504 to R508) -/

/-- Event number `e` is one of Table 18-1. -/
def perfDefined (e : Nat) : Bool :=
  decide (e ≤ 3 ∨ (0x200 ≤ e ∧ e < 0x240) ∨ (0x240 ≤ e ∧ e ≤ 0x24A) ∨ (0x250 ≤ e ∧ e ≤ 0x25A) ∨ (0x400 ≤ e ∧ e < 0x600) ∨
    (0x800 ≤ e ∧ e < 0xC00 ∧ e % 64 < 48) ∨ (0xC00 ≤ e ∧ e < 0xE00 ∧ e % 32 < 24) ∨ (0xE00 ≤ e ∧ e < 0xF00 ∧ e % 32 < 24) ∨
    (0xF00 ≤ e ∧ e < 0xF50))

/-- A write of PERF_SEL_n: a reserved event number is refused (R504, R506). -/
def State.selWrite (s : State) (n v : Nat) : State × Status :=
  if s.regionExcluded 135 then (s, .unitError)
  else if !perfDefined (F.PERF_SEL_EVENT.of v) then (s, .refusedState)
  else (((s.wr F.PERF_SEL_EN n (F.PERF_SEL_EN.of v)).wr F.PERF_SEL_SAMPLE n (F.PERF_SEL_SAMPLE.of v)).wr F.PERF_SEL_EVENT n (F.PERF_SEL_EVENT.of v), .ok)

def execPerfSelWrite (ag : Agent) (n : BitVec 8) (v : W32) (s : State) : Host.Outcome State Fault Refusal :=
  .next (s.writing ag .PERF_SEL n.toNat v.toNat fun t => t.selWrite n.toNat v.toNat)

/-- A write of the LO half (0), the HI half (1) or both halves at one instant (2) of counter `n` (R506). -/
def State.cntWrite (s : State) (n half v : Nat) : State × Status :=
  if s.regionExcluded 135 then (s, .unitError)
  else match half with
    | 0 => (s.wr F.PERF_CNT_LO_VALUE n v, .ok)
    | 1 => (s.wr F.PERF_CNT_HI_VALUE n v, .ok)
    | _ => (s.perfSet n v, .ok)

def execPerfCntWrite (ag : Agent) (n : BitVec 8) (half : Fin 3) (v : W64) (s : State) : Host.Outcome State Fault Refusal :=
  .next (s.writing ag .PERF_CNT_LO n.toNat v.toNat fun t => t.cntWrite n.toNat half v.toNat)

/-- Counter `n` counts (R504). -/
def State.counting (s : State) (n : Nat) : Bool := s.on F.PERF_CTL_GLOBAL_EN 0 && s.on F.PERF_SEL_EN n

/-- An addition carries a counter past its maximum (R507). -/
def execCounterOverflow (n : BitVec 8) (amount : BitVec 16) (s : State) : Host.Outcome State Fault Refusal :=
  .next (if s.counting n.toNat ∧ s.rd F.PERF_SEL_EVENT n.toNat ≠ 0 ∧ 2 ^ 64 ≤ s.perfValue n.toNat + amount.toNat then
    s.perfAdd amount.toNat n.toNat else s)

/-! ### Snapshots (R510 to R513) -/

/-- Every counter that is enabled goes to 0 (NOW_CLEAR); the snapshot holds the events on their way to it. -/
def State.perfClear (s : State) : State :=
  (List.range 256).foldl (fun t n => if t.on F.PERF_SEL_EN n then t.perfSet n 0 else t) s.perfFlush

/-- Word 3 of the header of a ring slot. -/
def ringFlags (slot : Nat) : Nat := 16 * (slot - 1) + 3

/-- Two 32-bit words of the ring are written, one protected word of region 7; `i` is even. A withheld row discards it (R448). -/
def State.ringPair (s : State) (i a b : Nat) : State :=
  if s.isWithheld 7 (i / 2) then s else ((s.st .ring i a).st .ring (i + 1) b).writeMark 7 (i / 2)

/-- The protected word that holds the 32-bit word `i` of the ring is read. -/
def State.ringWord (s : State) (i : Nat) : State × ReadRes :=
  s.memRead 7 (i / 2) (s.ld .ring (i / 2 * 2) + s.ld .ring (i / 2 * 2 + 1) * 2 ^ 32)

/-- Word 3 of a slot's header changes: less than a protected word, so that it is read, merged and written; a word that cannot be read stays as it is (R420). -/
def State.ringFlag (s : State) (slot : Nat) (f : Nat → Nat) : State :=
  let h := ringFlags slot
  let r := s.ringWord h
  match r.2 with
  | .good v => s.unlessReset r.1 fun t => t.ringPair (h / 2 * 2) (v % 2 ^ 32) (f (v / 2 ^ 32))
  | .bad => r.1

/-- A snapshot is taken at this instant, with the events that have occurred so far (R505), or discarded and counted: one is being written, or the ring is full
and not to be overwritten. -/
def State.snapTake (s : State) (demand clear : Bool) : State :=
  if s.snap.isSome || (s.rd F.PERF_MIRROR_OCCUPIED 0 = 31 && !s.on F.PERF_RING_OVERWRITE 0) then s.bump F.PERF_STATUS_MISSED 0 1
  else
    let u := s.perfFlush
    let x : Snap :=
      { time := s.time, demand := demand, cleared := clear
        enabled := (List.range 256).filter fun n => s.counting n
        values := (List.range 256).map fun n => u.perfValue n }
    let s1 := ({ s with snap := some x }.put F.PERF_STATUS_WRITING 0 true).ringFlag (s.rd F.PERF_RING_HEAD 0) fun w => w / 2 * 2
    if clear then s.unlessReset s1 State.perfClear else s1

/-- A write of PERF_DUMP (R510). -/
def State.dumpWrite (s : State) (v : Nat) : State × Status :=
  if s.regionExcluded 135 then (s, .unitError)
  else if F.PERF_DUMP_NOW_CLEAR.of v = 1 then (s.snapTake true true, .ok)
  else if F.PERF_DUMP_NOW.of v = 1 then (s.snapTake true false, .ok)
  else (s, .ok)

def execPerfNow (ag : Agent) (s : State) : Host.Outcome State Fault Refusal :=
  .next (s.writing ag .PERF_DUMP 0 1 fun t => t.dumpWrite 1)

def execPerfNowClear (ag : Agent) (s : State) : Host.Outcome State Fault Refusal :=
  .next (s.writing ag .PERF_DUMP 0 2 fun t => t.dumpWrite 2)

/-- PERF_DUMP_CFG.PERIOD in units of device time: below 10 µs it acts as 10 µs. -/
def State.dumpPeriod (s : State) : Nat := max 10 (s.rd F.PERF_DUMP_CFG_PERIOD 0) * 2500

/-- A write of PERF_DUMP_CFG: one that sets PERIODIC starts the periods (R510). -/
def State.dumpCfgWrite (s : State) (v : Nat) : State × Status :=
  let s1 := (s.wr F.PERF_DUMP_CFG_PERIODIC 0 (F.PERF_DUMP_CFG_PERIODIC.of v)).wr F.PERF_DUMP_CFG_PERIOD 0 (F.PERF_DUMP_CFG_PERIOD.of v)
  ({ s1 with perfNext := if F.PERF_DUMP_CFG_PERIODIC.of v = 1 then some (s.time + s1.dumpPeriod) else none }, .ok)

/-- A period of the schedule has passed (R510). With the unit asleep its wake comes first (R489). -/
def execPeriodicSnapshot (s : State) : Host.Outcome State Fault Refusal :=
  .next (match s.perfNext with
    | none => s
    | some t =>
      if s.time < t ∨ s.regionExcluded 135 = true then s
      else if s.blockAsleep 23 then s.wakeBlock 23
      else { s with perfNext := some (t + s.dumpPeriod) }.snapTake false false)

/-- Word `j` of ENABLED: bit i for counter 32j + i. -/
def Snap.enabledWord (x : Snap) (j : Nat) : Nat := (x.enabled.filter fun n => n / 32 = j).foldl (fun a n => a + 2 ^ (n % 32)) 0

/-- Word 3 of a header. -/
def Snap.flags (x : Snap) (slot : Nat) (mirrored : Bool) : Nat :=
  1 + 2 * bit x.demand + 4 * bit x.cleared + 16 * bit mirrored + 256 * slot

/-- The 512 words of a snapshot's slot. -/
def Snap.words (x : Snap) : List Nat := x.values.flatMap fun v => [v % 2 ^ 32, v / 2 ^ 32]

/-- The header of Table 18-3. -/
def Snap.header (x : Snap) (slot seq : Nat) (mirrored : Bool) : List Nat :=
  let front (m : Bool) := [x.time % 2 ^ 32, x.time / 2 ^ 32 % 2 ^ 32, seq, x.flags slot m] ++ (List.range 8).map x.enabledWord ++ [0, 0, 0]
  front mirrored ++ [crc32 ((front false ++ x.words).flatMap (bytesLe 4))]

/-- Write a run of 32-bit words into the ring, two to a protected word of region 7; `i` is even. -/
def State.ringPut (s : State) (i : Nat) : List Nat → State
  | a :: b :: rest => ((s.dataPath 135).ringPair i a b).ringPut (i + 2) rest
  | _ => s

/-- The store and the channel can take a mirror entry (R513). -/
def State.mirrorOpen (s : State) : Bool :=
  s.on F.HOLD_STATUS_READY 0 && s.chServes (s.rd F.PERF_MIRROR_CHANNEL 0)

/-- The mirror takes its entry, or the entry is skipped (R513). -/
def State.mirrorPut (s : State) (hdr words : List Nat) : State :=
  if !s.on F.PERF_MIRROR_EN 0 then s
  else if !s.mirrorOpen then s.bump F.PERF_STATUS_MIRROR_SKIP 0 1
  else
    let c := s.rd F.PERF_MIRROR_CHANNEL 0
    let m := s.rd F.PERF_MIRROR_NEXT 0
    ((s.stRun .mirror ((c * 256 + m) * 528) (hdr ++ words)).bumpWrap F.PERF_MIRROR_NEXT 0 1).perfCh 0 c 1

/-- The slot after slot `k` of the ring. -/
def ringNext (k : Nat) : Nat := if k = 31 then 1 else k + 1

/-- HEAD advances; a full ring loses its oldest snapshot (R512). -/
def State.ringAdvance (s : State) : State :=
  let s1 := s.wr F.PERF_RING_HEAD 0 (ringNext (s.rd F.PERF_RING_HEAD 0))
  if s.rd F.PERF_MIRROR_OCCUPIED 0 = 31 then (s1.wr F.PERF_RING_TAIL 0 (ringNext (s.rd F.PERF_RING_TAIL 0))).bump F.PERF_STATUS_OVERWRITTEN 0 1
  else s1.wr F.PERF_MIRROR_OCCUPIED 0 (s.rd F.PERF_MIRROR_OCCUPIED 0 + 1)

/-- The snapshot in progress is complete in its slot (R511 to R513). -/
def execSnapshotWritten (s : State) : Host.Outcome State Fault Refusal :=
  .next (match s.snap with
    | none => s
    | some x =>
      let slot := s.rd F.PERF_RING_HEAD 0
      let seq := if s.snapSeq + 1 < 2 ^ 32 then s.snapSeq + 1 else 1
      let hdr := x.header slot seq (s.on F.PERF_MIRROR_EN 0 && s.mirrorOpen)
      let s1 := { s with snap := none, snapSeq := seq }.ringPut (512 * slot) x.words
      ((((s1.mirrorPut hdr x.words).ringPut (16 * (slot - 1)) hdr).ringAdvance)).put F.PERF_STATUS_WRITING 0 false)

/-- A write of PERF_RING: OVERWRITE, and TAIL within the occupied range (R512, log entry 33). -/
def State.ringWrite (s : State) (v : Nat) : State × Status :=
  let t := F.PERF_RING_TAIL.of v
  let d := (t + 31 - s.rd F.PERF_RING_TAIL 0) % 31
  if s.regionExcluded 135 then (s, .unitError)
  else if t = 0 ∨ s.rd F.PERF_MIRROR_OCCUPIED 0 < d then (s, .refusedState)
  else (((s.wr F.PERF_RING_OVERWRITE 0 (F.PERF_RING_OVERWRITE.of v)).wr F.PERF_RING_TAIL 0 t).wr F.PERF_MIRROR_OCCUPIED 0
    (s.rd F.PERF_MIRROR_OCCUPIED 0 - d), .ok)

def execPerfRingTailWrite (ag : Agent) (v : W32) (s : State) : Host.Outcome State Fault Refusal :=
  .next (s.writing ag .PERF_RING 0 v.toNat fun t => t.ringWrite v.toNat)

/-! ### Registers (R509, R514) -/

/-- A write of PERF_MIRROR. -/
def State.mirrorWrite (s : State) (v : Nat) : State × Status :=
  if 23 < F.PERF_MIRROR_CHANNEL.of v then (s, .refusedState)
  else ((s.wr F.PERF_MIRROR_CHANNEL 0 (F.PERF_MIRROR_CHANNEL.of v)).wr F.PERF_MIRROR_EN 0 (F.PERF_MIRROR_EN.of v), .ok)

/-- Writes of the counters' registers. -/
def State.perfWrite (s : State) (r : Reg) (i v : Nat) : Option (State × Status) :=
  if s.regionExcluded 135 then some (s, .unitError)
  else match r with
    | .PERF_SEL => some (s.selWrite i v)
    | .PERF_DUMP => some (s.dumpWrite v)
    | .PERF_DUMP_CFG => some (s.dumpCfgWrite v)
    | .PERF_RING => some (s.ringWrite v)
    | .PERF_MIRROR => some (s.mirrorWrite v)
    | _ => none

/-- Reads of the counters' registers that are views; all read 0 while region 135 is excluded (R509). -/
def State.perfRead (s : State) (r : Reg) (i : Nat) : Option Nat :=
  if s.regionExcluded 135 then some 0
  else match r with
    | .PERF_SEL => some (s.word .PERF_SEL i + (min 15 (if s.owner (.counter i) < 8 then s.owner (.counter i) else 15)) * 2 ^ 16)
    | _ => none

/-- An uncorrectable or poisoned word of the ring: the snapshot that holds it is marked invalid (Table 13-1, R511). -/
def State.ringSpoil (s : State) (word : Nat) : State :=
  s.ringFlag (if word < 256 then word / 8 + 1 else word / 256) fun w => Nat.lor (w / 2 * 2) 8

/-- The 32-bit word `i` of the ring as a reader sees it: its value, or none for a POISONED answer (R509, R511). -/
def State.ringRead (s : State) (i : Nat) : State × Option Nat :=
  if s.regionExcluded 135 then (s, some 0)
  else
    let r := s.ringWord i
    match r.2 with
    | .good v => (r.1, some (if i % 2 = 0 then v % 2 ^ 32 else v / 2 ^ 32))
    | .bad => (s.unlessReset r.1 fun t => t.ringSpoil (i / 2), none)

end Sys2Proof.Machine
end

