-- ==== Sys2Proof/Machine/Fault.lean ====
section
/-!
DEFINITION. The fault collector's registers and events (chapter 14): acknowledgement, reaction words, EMBER_ALIVE, software faults, block resets.
-/

namespace Sys2Proof.Machine

/-- Acknowledgement of latched sources by a write of a half of CHAR_STATUS (R434). -/
def State.charAck (s : State) (f : Fld) (v : Nat) : State := s.wr f 0 (Nat.land (s.rd f 0) (2 ^ 32 - 1 - v % 2 ^ 32))

/-- A write of FAULT_REACT_n past the checks of privilege: all three copies take the word; BLOCK_RESET where the source has none is refused
(R433, R439). -/
def State.reactWrite (s : State) (n v : Nat) : State × Status :=
  if 46 ≤ n then (s, .ok)
  else if F.FAULT_REACT_BLOCK_RESET.of v = 1 ∧ hasBlockReset n = false then (s, .refusedState)
  else
    let s1 := ((s.wr F.FAULT_REACT_IRQ n (F.FAULT_REACT_IRQ.of v)).wr F.FAULT_REACT_NMT n (F.FAULT_REACT_NMT.of v)).wr F.FAULT_REACT_BLOCK_RESET n
      (F.FAULT_REACT_BLOCK_RESET.of v)
    let s2 := ((s1.wr F.FAULT_REACT_ALIVE_STOP n (F.FAULT_REACT_ALIVE_STOP.of v)).wr F.FAULT_REACT_CHIP_RESET n
      (F.FAULT_REACT_CHIP_RESET.of v)).wr F.FAULT_REACT_NMT_BANK n (F.FAULT_REACT_NMT_BANK.of v)
    (s2.tvWrite (tvReact n), .ok)

/-- A condition of R443 refuses a RESUME: a latch whose word in force had ALIVE_STOP, Kiln FATAL, the comparator tripped, or the oscillator lost. -/
def State.resumeRefused (s : State) : Bool :=
  ((List.range 46).any fun n => s.latched n && (s.ld .latchWord n).testBit 3) || s.on F.KILN_STATUS_FATAL 0 || s.cutTripped || s.oscLost

/-- A write of FAULT_ALIVE (R442, R443). -/
def State.aliveWrite (s : State) (v : Nat) : State × Status :=
  let stop := F.FAULT_ALIVE_STOP.of v = 1
  let resume := F.FAULT_ALIVE_RESUME.of v = 1
  if stop ∧ resume then (s, .refusedState)
  else if stop then (s.aliveStop 0x40, .ok)
  else if resume then
    if s.resumeRefused then (s, .refusedState)
    else ({ s.put F.FAULT_ALIVE_RUNNING 0 true with alivePhase := true }, .ok)
  else (s, .ok)

/-- A write of FAULT_SW_SET (R444). -/
def State.swSet (s : State) (v : Nat) : State := if F.FAULT_SW_SET_RAISE.of v = 1 then s.errorLine 45 0 0 else s

/-- A bit word of 32 sources from `lo`. -/
def State.busyWord (s : State) (lo : Nat) : Nat :=
  (List.range 32).foldl (fun a i => a + (if lo + i < 46 && s.busy (lo + i) then 2 ^ i else 0)) 0

/-- Writes of the collector's registers. -/
def State.faultWrite (s : State) (r : Reg) (i v : Nat) : Option (State × Status) :=
  match r with
  | .CHAR_STATUS_LO => some (s.charAck F.CHAR_STATUS_LO_LATCHED v, .ok)
  | .CHAR_STATUS_HI => some (s.charAck F.CHAR_STATUS_HI_LATCHED v, .ok)
  | .FAULT_REACT => some (s.reactWrite i v)
  | .FAULT_ALIVE => some (s.aliveWrite v)
  | .FAULT_SW_SET => some (s.swSet v, .ok)
  | _ => none

/-- Reads of the collector's registers that are views. -/
def State.faultRead (s : State) (r : Reg) (i : Nat) : Option Nat :=
  match r with
  | .FAULT_BUSY_LO => some (s.busyWord 0)
  | .FAULT_BUSY_HI => some (s.busyWord 32)
  | .FAULT_NMT => some (s.word .FAULT_NMT i + (s.nmtHeld.filter fun e => e.1 = i).length * 2 ^ 8)
  | .FAULT_REACT => some (if i < 46 then s.reactWord i else 0)
  | _ => none

/-! ### Events -/

/-- Error lines as a row gives them. -/
def linesOf (lines : List (Fin 64 × Byte × Byte)) : List Line := lines.map fun e => (e.1.val, e.2.1.toNat, e.2.2.toNat)

/-- Error lines rise in one cycle (R434 to R441). -/
def execErrorLine (lines : List (Fin 64 × Byte × Byte)) (s : State) : Host.Outcome State Fault Refusal :=
  .next (s.errorLines (linesOf lines))

/-- A block reset of one instance (R519). -/
def execBlockReset (src : Fin 64) (inst : BitVec 8) (s : State) : Host.Outcome State Fault Refusal := .next (s.resetInstance src inst.toNat)

/-- Source `src`'s block reset of an instance ends (R435, R519). -/
def State.blockResetEnd (s : State) (src inst : Nat) : State :=
  { s with blockResets := s.blockResets.erase (src, inst), reactResets := s.reactResets.erase (src, inst) }

/-- The register of a half of CHAR_STATUS and its field. -/
def charReg (hi : Bool) : Reg := if hi then .CHAR_STATUS_HI else .CHAR_STATUS_LO
def charHalf (hi : Bool) : Fld := if hi then F.CHAR_STATUS_HI_LATCHED else F.CHAR_STATUS_LO_LATCHED

/-- The sources that a write of `v` to a half of CHAR_STATUS acknowledges. -/
def ackedBy (hi : Bool) (v : Nat) : List Nat := ((List.range 32).filter fun i => v.testBit i).map fun i => if hi then 32 + i else i

/-- A write of CHAR_STATUS that acknowledges, with the error lines `lines` that rise in the same control cycle: where they meet an acknowledged bit the error wins
(R434). A write that is turned away leaves the errors alone. -/
def execCharStatusAck (ag : Agent) (hi : Bool) (v : W32) (lines : List (Fin 64 × Byte × Byte)) (s : State) : Host.Outcome State Fault Refusal :=
  .next (if (s.writeCheck ag (charReg hi) 0 v.toNat).isSome then (s.writing ag (charReg hi) 0 v.toNat fun t => (t, .ok)).errorLines (linesOf lines)
    else s.writing ag (charReg hi) 0 v.toNat fun t => ((t.charAck (charHalf hi) v.toNat).errorLinesWon (ackedBy hi v.toNat) (linesOf lines), .ok))

def execFaultReactWrite (ag : Agent) (n : Fin 64) (v : W32) (s : State) : Host.Outcome State Fault Refusal :=
  .next (s.writing ag .FAULT_REACT n v.toNat fun t => t.reactWrite n v.toNat)

/-- A write of 1 to FAULT_ALIVE.STOP (R442). -/
def execAliveStop (ag : Agent) (s : State) : Host.Outcome State Fault Refusal :=
  .next (s.writing ag .FAULT_ALIVE 0 0x100 fun t => t.aliveWrite 0x100)

/-- A write of 1 to FAULT_ALIVE.RESUME (R443). -/
def execAliveResume (ag : Agent) (s : State) : Host.Outcome State Fault Refusal :=
  .next (s.writing ag .FAULT_ALIVE 0 0x200 fun t => t.aliveWrite 0x200)

/-- The wave toggles while it runs (R442). -/
def execAliveHalfPeriod (s : State) : Host.Outcome State Fault Refusal :=
  .next (if s.on F.FAULT_ALIVE_RUNNING 0 then { s with alivePhase := !s.alivePhase } else s)

/-- The ember oscillator is lost (R442, R443). -/
def execEmberOscillatorLoss (s : State) : Host.Outcome State Fault Refusal :=
  .next (if s.on F.FAULT_ALIVE_RUNNING 0 then { s.aliveStop 0x41 with oscLost := true } else s)

def execFaultSwSet (ag : Agent) (v : W32) (s : State) : Host.Outcome State Fault Refusal :=
  .next (s.writing ag .FAULT_SW_SET 0 v.toNat fun t => (t.swSet v.toNat, .ok))

end Sys2Proof.Machine
end

