-- ==== Sys2Proof/Machine/Sys.lean ====
section
/-!
DEFINITION. Starting and stopping contexts, mailboxes, the entry into Service mode (R40, R84 to R90, R95, R560).
-/

namespace Sys2Proof.Machine

/-! ### STK_CTL.RUN (R89, R90, R95) -/

/-- RUN = 1 for bank `b`: a stopped or halted bank starts at ROOT_ENTRY, on its own engine, or as a hosted context where that engine has failed; with no
engine qualifying nothing starts. -/
def State.runStart (s : State) (b : Nat) : State × Status :=
  let k := s.bank b
  if k.wantAdopt || (!k.failed && k.ctx ≠ .stopped && k.ctx ≠ .halted) then (s, .ok)
  else if s.engineDown b then
    match s.adopter b with
    | some e => ((s.setBank b { k with adoptLive := true }).adoptOn b (Fin.ofNat 8 e), .ok)
    | none => (s, .refusedState)
  else
    let s1 := (s.initialCheckpoint b).nmtHoldAgain k b
    (s1.setBank b { s1.bank b with ctx := .running }, .ok)

/-- RUN = 0 for bank `b`: its context stops after the current instruction, wherever it runs; its tags stay outstanding. -/
def State.runStop (s : State) (b : Nat) : State :=
  let k := s.bank b
  if k.failed || k.ctx = .stopped || k.ctx = .halted then s
  else s.setBank b { k with ctx := .stopped, host := none, wantAdopt := false, stall := .none }

/-- A write of STK_CTL (R95). -/
def State.stkCtlWrite (s : State) (b v : Nat) : State × Status :=
  let store (t : State) : State :=
    ((((t.wr F.STK_CTL_RUN_LIMIT b (F.STK_CTL_RUN_LIMIT.of v)).wr F.STK_CTL_CMD_TIMEOUT b (F.STK_CTL_CMD_TIMEOUT.of v)).wr F.STK_CTL_ADOPTER b
      (F.STK_CTL_ADOPTER.of v)).wr F.STK_CTL_ADOPT_EN b (F.STK_CTL_ADOPT_EN.of v)).wr F.STK_CTL_RUN b (F.STK_CTL_RUN.of v)
  if F.STK_CTL_RUN.of v = 1 then
    match (store s).runStart b with
    | (t, .ok) => (t, .ok)
    | (_, st) => (s, st)
  else ((store s).runStop b, .ok)

/-- The value of STK_CTL with RUN replaced. -/
def State.ctlWithRun (s : State) (b run : Nat) : Nat := s.word .STK_CTL b - s.rd F.STK_CTL_RUN b + run

def execStkCtlRunStart (ag : Agent) (b : Fin 8) (s : State) : Host.Outcome State Fault Refusal :=
  .next (s.writing ag .STK_CTL b (s.ctlWithRun b 1) fun t => t.stkCtlWrite b (s.ctlWithRun b 1))

def execStkCtlRunStop (ag : Agent) (b : Fin 8) (s : State) : Host.Outcome State Fault Refusal :=
  .next (s.writing ag .STK_CTL b (s.ctlWithRun b 0) fun t => t.stkCtlWrite b (s.ctlWithRun b 0))

/-! ### Mailboxes (R84 to R88, R560) -/

/-- The place of a word in the staging buffer of a reader at bank `b`. -/
def stageIdx (b rd w : Nat) : Nat := (b * 32 + rd) * 16 + w

/-- The map byte of an entry, most significant byte of a word first (R7, R86). -/
def State.mapByte (s : State) (b entry : Nat) : Nat := s.ld .shared (stateArea b + 0xC0 + entry / 8) / 2 ^ (56 - 8 * (entry % 8)) % 256

/-- The request a post copies: SESSION and PRIV are the device's (R85). -/
def State.postedRequest (s : State) (ag : Agent) (b : Nat) : List Nat :=
  let w := s.ldRun .mbxStage (stageIdx b ag.reader 0) 16
  w.set 1 (ag.reader * 2 ^ 24 + s.priv ag * 2 ^ 16 + w.getD 1 0 % 2 ^ 16)

/-- What the device answers a request at once, as a status of Table 2-12; none when the request may be queued (R86, R89). -/
def State.postRefused (s : State) (b : Nat) (request : List Nat) : Option Nat :=
  let entry := request.getD 0 0 / 256 % 256
  let m := s.mapByte b entry
  if s.on F.SYS_BOOT_STATUS_RECOVERY 0 || decide (4 ≤ m) then some 2
  else if request.getD 1 0 / 2 ^ 16 % 4 < m then some 1
  else if 56 < request.getD 0 0 % 256 then some 3
  else if (s.bank b).lost then some 6
  else none

/-- A post to bank `b` (R84 to R89). -/
def State.mailboxPost (s : State) (ag : Agent) (b : Nat) : State :=
  let req := s.postedRequest ag b
  match s.postRefused b req with
  | some st => s.respond b ag.reader (deviceAnswer req ag.reader st)
  | none =>
    let k := s.bank b
    if k.requests.length < 16 then s.setBank b { k with requests := k.requests ++ [req], mailbox := true }
    else s.st .mbxFull (b * 32 + ag.reader) 1

/-- The responses of a reader at bank `b`, oldest first. -/
def State.responsesFor (s : State) (b rd : Nat) : List (Nat × List Nat) := (s.bank b).responses.filter fun r => r.1 = rd

/-- Removing a reader's oldest response (R88). -/
def State.mailboxPop (s : State) (ag : Agent) (b : Nat) : State :=
  let k := s.bank b
  match (s.responsesFor b ag.reader).head? with
  | some r => s.setBank b { k with responses := k.responses.erase r }
  | none => s

def execMailboxPost (ag : Agent) (b : Fin 8) (s : State) : Host.Outcome State Fault Refusal :=
  .next (s.writing ag .STK_MBX_POST b 0 fun t => (t.mailboxPost ag b, .ok))

def execMailboxPop (ag : Agent) (b : Fin 8) (s : State) : Host.Outcome State Fault Refusal :=
  .next (s.writing ag .STK_MBX_POP b 0 fun t => (t.mailboxPop ag b, .ok))

/-- Writes of the Stoker registers. Instances of the staging buffer are bank * 16 + word. -/
def State.stkWrite (s : State) (ag : Agent) (r : Reg) (i v : Nat) : Option (State × Status) :=
  match r with
  | .STK_CTL => some (s.stkCtlWrite i v)
  | .STK_MBX_POST => some (s.mailboxPost ag i, .ok)
  | .STK_MBX_POP => some (s.mailboxPop ag i, .ok)
  | .STK_MBX_STAGE => some (s.st .mbxStage (stageIdx (i / 16) ag.reader (i % 16)) v, .ok)
  | .STK_MBX_STATUS => some (if v.testBit 16 then s.st .mbxFull (i * 32 + ag.reader) 0 else s, .ok)
  | .STK_FAULT => some (if v.testBit 31 then (s.put F.STK_FAULT_VALID i false).wr F.STK_FAULT_COUNT i 0 else s, .ok)
  | _ => none

/-- The floor in force of engine `e`: the shallowest of its contexts (R78). -/
def State.floorOf (s : State) (e : Nat) : Nat :=
  let on := (List.range 8).filter fun b => s.engineOf b = e && (s.bank b).ctx ≠ .stopped
  on.foldl (fun a b => min a (match (s.bank b).nextTime with | some (t, f) => if t ≤ s.time then 0 else f | none => 0)) (if on = [] then 0 else 3)

/-- Reads of the Stoker registers that are views. -/
def State.stkRead (s : State) (ag : Agent) (r : Reg) (i : Nat) : Option Nat :=
  let k := s.bank i
  match r with
  | .STK_STATUS => some (k.stateCode + (k.host.map Fin.val).getD 0 * 2 ^ 8 + (s.hostedBy i).foldl (fun a b => a + 2 ^ (16 + b)) 0 +
      s.bankPriv i * 2 ^ 24)
  | .STK_PC => some (k.frozenPc.getD k.pc)
  | .STK_TAGS => some ((k.cmds.filter fun c => !c.quarantined).length + (k.cmds.filter fun c => c.quarantined).length * 2 ^ 16 +
      s.rd F.STK_TAGS_LATE i * 2 ^ 25)
  | .STK_NEXT_LO => some ((k.nextTime.map Prod.fst).getD 0 % 2 ^ 32)
  | .STK_NEXT_HI => some ((k.nextTime.map Prod.fst).getD 0 / 2 ^ 32 % 2 ^ 32)
  | .STK_SLEEP => some (s.word .STK_SLEEP i + s.floorOf i * 2)
  | .STK_MBX_STATUS => some (16 - k.requests.length + (s.responsesFor i ag.reader).length * 2 ^ 8 + s.ld .mbxFull (i * 32 + ag.reader) * 2 ^ 16 +
      s.ld .mbxDropped (i * 32 + ag.reader) * 2 ^ 24)
  | .STK_MBX_RSP => some (match (s.responsesFor (i / 16) ag.reader).head? with | some (_, w) => w.getD (i % 16) 0 | none => 0)
  | _ => none

/-! ### Service mode (R40) -/

/-- A command numbered below `n` is outstanding: issued, and its completion not taken yet (R69). -/
def State.outstandingBelow (s : State) (n : Nat) : Bool :=
  (List.range 8).any fun b => (s.bank b).cmds.any fun c => !c.quarantined && decide (c.serial < n)

/-- A request for Service mode, which waits for the commands numbered below `n` (R40). -/
def State.serviceRequest (s : State) (n : Nat) : State :=
  if s.service || s.on F.SYS_ACCESS_MODE_TRANSITION 0 then s
  else { s with entryWait := n }.put F.SYS_ACCESS_MODE_TRANSITION 0 true

/-- The number of the command that carries a sender's write of SYS_ACCESS_MODE: a table's oldest write of it that has not taken effect; every command so
far has a lower number than a request from outside. -/
def State.requestSerial (s : State) (ag : Agent) : Nat :=
  match ag with
  | .table b => (((s.bank b).cmds.find? fun c => c.phase = .issued && c.write && c.addr = 8).map Cmd.serial).getD s.cmdSerial
  | _ => s.cmdSerial

/-- A write of SYS_ACCESS_MODE. -/
def State.modeWrite (s : State) (ag : Agent) (v : Nat) : State :=
  if F.SYS_ACCESS_MODE_ENTER_SERVICE.of v = 1 then s.serviceRequest (s.requestSerial ag) else s

def execEnterService (ag : Agent) (s : State) : Host.Outcome State Fault Refusal :=
  .next (s.writing ag .SYS_ACCESS_MODE 0 2 fun t => (t.modeWrite ag 2, .ok))

/-- The entry completes once no command issued before it is outstanding (R40). -/
def execServiceEntryComplete (s : State) : Host.Outcome State Fault Refusal :=
  .next (if s.on F.SYS_ACCESS_MODE_TRANSITION 0 && !s.service && !s.outstandingBelow s.entryWait then
    (({ s with entryWait := 0 }.put F.SYS_ACCESS_MODE_TRANSITION 0 false).put F.SYS_ACCESS_MODE_MODE 0 true).bump F.SYS_ACCESS_MODE_ENTRY_COUNT 0 1
  else s)

end Sys2Proof.Machine
end

