-- ==== Sys2Proof/Machine/Startup.lean ====
section
/-!
DEFINITION. Start-up and images (chapter 19): the Peat store, the check of an image bank, resets, supplies.
-/

namespace Sys2Proof.Machine

/-! ### The Peat store (R520, R527) -/

/-- The byte address of an image bank. -/
def bankBase (b : Nat) : Nat := b * 0x0E00000

/-- The 32-bit word `i` of the store, with the words of a merge in progress over it. -/
def State.peatWordAt (s : State) (i : Nat) : Nat :=
  match s.peatWord with
  | some (_, l) => (match l.find? fun e => e.1 = i with | some e => e.2 | none => s.ld .peat i)
  | none => s.ld .peat i

/-- The byte `a` of the store, most significant byte of a word first. -/
def State.peatByte (s : State) (a : Nat) : Nat := s.ld .peat (a / 4) / 256 ^ (3 - a % 4) % 256

/-- The bytes from `a` upward. -/
def State.peatBytes (s : State) (a n : Nat) : List Nat := (List.range n).map fun i => s.peatByte (a + i)

/-- A merged word is programmed (R527): a whole 256-bit word replaces what the store holds, a part of one is merged into it, which is not done when that word is
lost (R420). -/
def State.peatProgram (s : State) : State :=
  match s.peatWord with
  | none => s
  | some (w, l) =>
    let s0 := { s with peatWord := none }
    let store (t : State) : State := (l.foldl (fun u e => u.st .peat e.1 e.2) t).spanWrite 9 w 1
    if l.length = 8 then store s0
    else
      let x := s0.peatTake w 1
      (if x.2.1 then x.1 else store x.1).errorLines x.2.2

/-- The address goes to 32-bit word `i`; leaving a merged word programs it (R527). -/
def State.peatLeave (s : State) (i : Nat) : State :=
  match s.peatWord with
  | some (w, _) => if w ≠ i / 8 then s.peatProgram else s
  | none => s

/-- PEAT_ADDR takes a new word address. -/
def State.peatSeek (s : State) (i : Nat) : State := s.unlessReset (s.peatLeave i) fun t => t.wr F.PEAT_ADDR_ADDR 0 i

/-- ADDR advances by one word after an access. -/
def State.peatNext (s : State) : State := s.peatSeek ((s.rd F.PEAT_ADDR_ADDR 0 + 1) % 2 ^ 23)

/-- A word is merged into the 256-bit word it lies in (R527). -/
def State.peatMerge (s : State) (i v : Nat) : State :=
  s.unlessReset (s.peatLeave i) fun s1 =>
    let old := match s1.peatWord with | some (_, l) => l.filter fun e => e.1 ≠ i | none => []
    { s1 with peatWord := some (i / 8, old ++ [(i, v)]) }

/-- A word is merged at ADDR, which then advances. -/
def State.peatPut (s : State) (v : Nat) : State := s.unlessReset (s.peatMerge (s.rd F.PEAT_ADDR_ADDR 0) v) State.peatNext

/-- The safe value of the image pointer: bank 0, in all three copies (Table 13-3). -/
def State.ptrSafe (s : State) : State :=
  [1, 2, 3].foldl (fun t c => t.setMark 10 tvPtr c 0 0) ({ s with ptrBank := 0 }.wr F.SYS_IMAGE_PTR_LO_BANK 0 0)

/-- The vote of the image pointer. -/
def State.votePtr (s : State) : State := s.tvVote tvPtr State.ptrSafe

/-- A write into an image bank: refused for the bank that the voted pointer names (R527). -/
def State.imageWrite (s : State) (b v : Nat) : State × Status :=
  let s0 := s.votePtr
  if s0.resets ≠ s.resets then (s0, .ok)
  else if b = s0.ptrBank then (s0, .refusedState)
  else (s0.unlessReset (s0.peatPut v) fun t => { t with bankVerified := t.bankVerified.filter fun x => x ≠ b }, .ok)

/-- A write of PEAT_DATA at ADDR (R522, R527, Table 19-3). -/
def State.peatDataWrite (s : State) (v : Nat) : State × Status :=
  match peatPlace s.peatAddr with
  | .image b => s.imageWrite b v
  | .calibration => (s.peatPut v, .ok)
  | .digest =>
    if !s.on F.SYS_BOOT_STATUS_RECOVERY 0 || s.digestDone then (s, .refusedState)
    else (s.unlessReset (s.peatPut v) fun t => { t with digestDone := decide (s.peatAddr = 0x1FF002C) }, .ok)
  | _ => (s, .refusedState)

/-- What PEAT_DATA shows of ADDR's place. What the places that hold no plain words read as is not given: a free value (log entry 21). -/
def State.peatShown (s : State) : State × Nat :=
  match peatPlace s.peatAddr with
  | .epoch => (s, s.epochCount)
  | .journal => (s.drawn, s.freeVal % 2 ^ 32)
  | .none => (s.drawn, s.freeVal % 2 ^ 32)
  | _ => (s, s.peatWordAt (s.rd F.PEAT_ADDR_ADDR 0))

/-- A read of PEAT_DATA at ADDR: the 256-bit word is read, and a lost one answers POISONED (R425, R527). -/
def State.peatDataRead (s : State) : State × Status × Nat :=
  if peatPlace s.peatAddr = .pointer then (s, .refusedState, 0)
  else
    let x := s.peatTake (s.rd F.PEAT_ADDR_ADDR 0 / 8) 1
    let y := if x.2.1 then (x.1, 0) else x.1.peatShown
    (s.unlessReset (y.1.errorLines x.2.2) State.peatNext, if x.2.1 then .poisoned else .ok, y.2)

/-- An access of PEAT_DATA: a read, or a write with its value (R527). -/
def execPeatData (ag : Agent) (write : Option W32) (s : State) : Host.Outcome State Fault Refusal :=
  .next (match write with
    | some v => s.writing ag .PEAT_DATA 0 v.toNat fun t => t.peatDataWrite v.toNat
    | none =>
      match s.readCheck ag .PEAT_DATA 0 with
      | some st => (if st = .waiting then s.touched .PEAT_DATA 0 else s).answer st 0
      | none =>
        let r := s.peatDataRead
        r.1.answer r.2.1 r.2.2)

/-- 1 µs after the last write of a merged word it is programmed (R527). -/
def execPeatWordProgram (s : State) : Host.Outcome State Fault Refusal := .next s.peatProgram

/-- The owner key digest is written once, by session 0 at Vendor privilege in the recovery condition (R522). -/
def State.digestWrite (s : State) (ag : Agent) (d : BitVec 384) : State × Status :=
  if ag ≠ .host 0 ∨ s.priv ag < 3 then (s, .refusedPriv)
  else if !s.on F.SYS_BOOT_STATUS_RECOVERY 0 || s.digestDone then (s, .refusedState)
  else
    let s1 := (List.range 12).foldl (fun t i => s.unlessReset t fun u => u.peatMerge (0x1FF0000 / 4 + i) (d.toNat / 2 ^ (32 * (11 - i)) % 2 ^ 32)) s
    (s.unlessReset s1 fun t => { t.peatProgram with digestDone := true }, .ok)

def execOwnerDigestWrite (ag : Agent) (d : BitVec 384) (s : State) : Host.Outcome State Fault Refusal :=
  .next (let r := s.digestWrite ag d; r.1.answer r.2 0)

/-! ### The check of an image bank (R521 to R524) -/

/-- A word of the header of bank `b`. -/
def State.headWord (s : State) (b off : Nat) : Nat := s.ld .peat ((bankBase b + off) / 4)

/-- LENGTH of the image of bank `b`. -/
def State.imageLength (s : State) (b : Nat) : Nat := s.headWord b 8

/-- The bytes [a, a + n) of the store are read; the answer says whether a 256-bit word of them is lost. -/
def State.peatRange (s : State) (a n : Nat) : State × Bool × List Line := s.peatTake (a / 32) ((a + n + 31) / 32 - a / 32)

/-- MAGIC, FORMAT and LENGTH are right. -/
def State.formatOk (s : State) (b : Nat) : Bool :=
  let l := s.imageLength b
  decide (s.headWord b 0 = 0x5C0B4880) && decide (s.headWord b 4 / 2 ^ 16 = 1) && decide (l % 4 = 0 ∧ 256 ≤ l ∧ l ≤ 14680064 - 96) &&
    decide (1 ≤ s.headWord b 12 ∧ s.headWord b 12 ≤ 262144)

/-- The revision of the device lies in the image's range (R17). -/
def State.revisionOk (s : State) (b : Nat) : Bool :=
  let w := s.headWord b 4
  let rev := s.rd F.SYS_REVISION_MAJOR 0 * 16 + s.rd F.SYS_REVISION_MINOR 0
  decide (w / 256 % 256 ≤ rev ∧ rev ≤ w % 256)

/-- The 97 bytes of KEY. -/
def State.imageKey (s : State) (b : Nat) : List Nat := s.peatBytes (bankBase b + 64) 97

/-- The owner digest is set and equals the SHA-384 of KEY (R522). -/
def State.ownerOk (s : State) (b : Nat) : Bool :=
  let d := s.peatBytes 0x1FF0000 48
  d.any (fun x => x ≠ 0) && sha384 (s.imageKey b) = d

/-- The signature over bytes 0 to LENGTH − 1 verifies with KEY (R521). -/
def State.signatureOk (s : State) (b : Nat) : Bool :=
  let l := s.imageLength b
  let key := s.imageKey b
  let sig := s.peatBytes (bankBase b + l) 96
  key.headD 0 = 4 && ecdsaVerify (numBe ((key.drop 1).take 48)) (numBe (key.drop 49)) (numBe (sig.take 48)) (numBe (sig.drop 48))
    (numBe (sha384 (s.peatBytes (bankBase b) l)))

/-- The check of bank `b`: its result as a code of Table 19-5, and the lines that reading the store raises. The header is read first, then the owner digest, of
which a lost word counts as a different digest, then the rest of the image (log entry 43). -/
def State.bankCheck (s : State) (b : Nat) : State × Nat × List Line :=
  let h := s.peatRange (bankBase b) 256
  if h.2.1 then (h.1, 6, h.2.2)
  else if !s.formatOk b then (h.1, 2, h.2.2)
  else if !s.revisionOk b then (h.1, 3, h.2.2)
  else
    let d := h.1.peatRange 0x1FF0000 48
    if d.2.1 || !s.ownerOk b then (d.1, 4, h.2.2 ++ d.2.2)
    else
      let i := d.1.peatRange (bankBase b + 256) (s.imageLength b + 96 - 256)
      (i.1, if i.2.1 then 6 else if !s.signatureOk b then 5 else 1, h.2.2 ++ d.2.2 ++ i.2.2)

/-- The field that holds a bank's result. -/
def bankResult (b : Nat) : Fld := if b = 0 then F.SYS_BOOT_STATUS_BANK0_RESULT else F.SYS_BOOT_STATUS_BANK1_RESULT

/-- The recovery condition (R525). -/
def State.recovery (s : State) : State := (s.put F.SYS_BOOT_STATUS_RECOVERY 0 true).wr F.SYS_BOOT_STATUS_STAGE 0 6

/-- Boot waits for Kiln with bank `b` (R523). -/
def State.bootWith (s : State) (b : Nat) : State := (s.wr F.SYS_BOOT_STATUS_BANK 0 b).wr F.SYS_BOOT_STATUS_STAGE 0 2

/-- Bank `b` is checked and its result recorded; boot goes on with it when it is OK, else with `next`. -/
def State.tryBank (s : State) (b : Nat) (next : State → State) : State :=
  let x := s.bankCheck b
  s.unlessReset (x.1.errorLines x.2.2) fun t =>
    let s1 := t.wr (bankResult b) 0 x.2.1
    if x.2.1 = 1 then s1.bootWith b else next s1

/-- The boot controller votes the image pointer and checks the banks (R523 to R525). -/
def execBootCheck (s : State) : Host.Outcome State Fault Refusal :=
  .next (if s.blocksHeld || s.rd F.SYS_BOOT_STATUS_STAGE 0 ≠ 0 then s
    else if s.bootStrap then (s.put F.SYS_BOOT_STATUS_FORCED 0 true).recovery
    else s.unlessReset s.votePtr fun s1 => s1.tryBank s1.ptrBank fun t => t.tryBank (1 - s1.ptrBank) State.recovery)

/-! ### PEAT_CMD (R528) -/

/-- The store is busy: a VERIFY or the programming of a word is in progress. -/
def State.peatBusy (s : State) : Bool := s.verifyBank.isSome

/-- ACTIVATE: the pointer copies name the bank, GEN counts up, the journal and source 489 report it (R520, R528). -/
def State.activate (s : State) (b : Nat) : State :=
  let g := (s.ptrGen + 1) % 2 ^ 32
  let s1 := { s with ptrBank := b, ptrGen := g }
  let s2 := ((s1.wr F.SYS_IMAGE_PTR_LO_BANK 0 b).wr F.SYS_IMAGE_PTR_HI_GEN 0 g).tvWrite tvPtr
  (s2.journalAdd 4 [b, g]).irq 489

/-- A write of PEAT_CMD. -/
def State.peatCmd (s : State) (v : Nat) : State × Status :=
  let b := F.PEAT_CMD_BANK.of v
  let op := F.PEAT_CMD_OP.of v
  if s.peatBusy then (s, .refusedState)
  else if op = 1 then (s.unlessReset s.peatProgram fun t => { t with verifyBank := some b }, .ok)
  else if op = 2 then (if s.bankVerified.contains b then (s.activate b, .ok) else (s, .refusedState))
  else (s, .refusedState)

/-- A write of PEAT_CMD with OP VERIFY for a bank. -/
def execPeatVerify (ag : Agent) (bank : Fin 2) (s : State) : Host.Outcome State Fault Refusal :=
  .next (s.writing ag .PEAT_CMD 0 (bank * 16 + 1) fun t => t.peatCmd (bank * 16 + 1))

/-- A write of PEAT_CMD with OP ACTIVATE for a bank. -/
def execPeatActivate (ag : Agent) (bank : Fin 2) (s : State) : Host.Outcome State Fault Refusal :=
  .next (s.writing ag .PEAT_CMD 0 (bank * 16 + 2) fun t => t.peatCmd (bank * 16 + 2))

/-- A bank check completes; a word written meanwhile and not yet programmed has reached the bank after what was checked (R528). -/
def execPeatVerifyDone (s : State) : Host.Outcome State Fault Refusal :=
  .next (match s.verifyBank with
    | none => s
    | some b =>
      let x := s.bankCheck b
      s.unlessReset (x.1.errorLines x.2.2) fun t =>
        let rest := t.bankVerified.filter fun y => y ≠ b
        let whole := t.peatWord.all fun (w : Nat × List (Nat × Nat)) => w.1 / 0x70000 ≠ b
        ({ t with verifyBank := none, bankVerified := if x.2.1 = 1 ∧ whole then rest ++ [b] else rest }.wr F.PEAT_STATUS_RESULT 0 x.2.1).irq 489)

/-! ### SYS_RESET_CTL (R518, R519) -/

/-- A write of SYS_RESET_CTL; the chip reset follows the response. -/
def State.resetCtl (s : State) (v : Nat) : State × Status :=
  let chip := F.SYS_RESET_CTL_CHIP.of v = 1
  let block := F.SYS_RESET_CTL_BLOCK.of v = 1
  let src := F.SYS_RESET_CTL_SOURCE.of v
  if chip ∧ block then (s, .refusedState)
  else if chip then ({ s with resetAfter := true }, .ok)
  else if block then (if hasBlockReset src then (s.resetInstance src (F.SYS_RESET_CTL_INSTANCE.of v), .ok) else (s, .refusedState))
  else (s, .ok)

def execSysResetChip (ag : Agent) (s : State) : Host.Outcome State Fault Refusal :=
  .next (s.writing ag .SYS_RESET_CTL 0 1 fun t => t.resetCtl 1)

def execSysResetBlock (ag : Agent) (src : Fin 64) (inst : BitVec 8) (s : State) : Host.Outcome State Fault Refusal :=
  let v := src.val * 2 ^ 24 + inst.toNat * 2 ^ 16 + 2
  .next (s.writing ag .SYS_RESET_CTL 0 v fun t => t.resetCtl v)

/-! ### Resets from outside (R515 to R518) -/

/-- VDD_EMBER is applied: the ember domain clears and a chip reset with CAUSE 0 follows, which waits for every rail that is still low (R442, R516, R518). -/
def execPowerOn (s : State) : Host.Outcome State Fault Refusal :=
  .next ({ s with regs := [], mem := s.mem.filter (fun e => e.1.space = Space.peat), oscLost := false, alivePhase := true,
                  cutTripped := false, cutArmed := false, authFailures := 0 }.resetFor 0)

/-- A low pulse of at least 10 µs on RESET_N (R501, R516, R518). -/
def execResetPin (s : State) : Host.Outcome State Fault Refusal :=
  .next (if s.cutTripped || !s.mayRelease then s else s.chipReset (if s.cutArmed then 5 else 1))

/-- A chip reset with a cause of SYS_RESET_CAUSE (R518): by RESET_N, also the one after a hard cut, as RESET_PIN; every other cause holds the device until it may
be released. -/
def execChipReset (cause : Fin 7) (s : State) : Host.Outcome State Fault Refusal :=
  if cause.val = 1 ∨ cause.val = 5 then execResetPin s else .next (s.resetFor cause)

/-- A rail other than VDD_EMBER falls below its operating minimum; after reset release that latches bit 39 (R517). -/
def execSupplyLow (rail : Fin 16) (s : State) : Host.Outcome State Fault Refusal :=
  .next (if s.railsLow.contains rail.val then s
    else
      let s1 := { s with railsLow := s.railsLow ++ [rail.val] }
      if s.inReset then s1 else s1.errorLine 39 rail 0)

/-- A rail stays low for more than 10 µs: the device is held in a chip reset (R516, R517). -/
def execSupplyReset (s : State) : Host.Outcome State Fault Refusal := .next (if s.railsLow.isEmpty || s.inReset then s else s.resetFor 6)

/-- A rail recovers; with the last one the reset they held is released (R516, R517). -/
def execSupplyRecovery (rail : Fin 16) (s : State) : Host.Outcome State Fault Refusal :=
  .next (if s.railsLow.isEmpty then s else State.resetRelease { s with railsLow := s.railsLow.filter fun r => r ≠ rail.val })

/-- Writes of the start-up registers; SYS_IMAGE_PTR changes by ACTIVATE alone. -/
def State.sysWrite (s : State) (ag : Agent) (r : Reg) (v : Nat) : Option (State × Status) :=
  match r with
  | .SYS_ACCESS_MODE => some (s.modeWrite ag v, .ok)
  | .SYS_RESET_CTL => some (s.resetCtl v)
  | .SYS_IMAGE_PTR_LO | .SYS_IMAGE_PTR_HI => some (s, .ok)
  | .PEAT_ADDR => some (s.peatSeek (F.PEAT_ADDR_ADDR.of v), .ok)
  | .PEAT_DATA => some (s.peatDataWrite v)
  | .PEAT_CMD => some (s.peatCmd v)
  | _ => none

/-- Reads of these registers that are views. -/
def State.sysRead (s : State) (r : Reg) : Option Nat :=
  match r with
  | .PEAT_STATUS => some (s.word .PEAT_STATUS 0 + (if s.peatBusy then 1 else 0))
  | _ => none

end Sys2Proof.Machine
end

