-- ==== Sys2Proof/Machine/Pins.lean ====
section
/-!
DEFINITION. The bay management pins and bus, the test pins (chapter 20).
-/

namespace Sys2Proof.Machine

/-! ### Bay management pins (R551) -/

/-- The reset pin of bay `b`. -/
def State.rstPin (s : State) (b : Nat) : RstPin := Amap.get RstPin.init s.rstPins b

/-- Set it. -/
def State.setRstPin (s : State) (b : Nat) (p : RstPin) : State := { s with rstPins := Amap.put natLt RstPin.init s.rstPins b p }

/-- The running transfer of bay `b` is told to end after the byte in progress (R552). -/
def State.i2cAbort (s : State) (b : Nat) : State :=
  match Amap.find s.i2c b with
  | some x => { s with i2c := Amap.ins natLt (Amap.erase s.i2c b) b { x with abort := true } }
  | none => s

/-- The minimum low time of BAY_b_RST_N, 10 µs, in units of device time. -/
def rstMin : Nat := 25000

/-- A write of IO_BAY_PINS (R551): RST_N goes low at once, and high once it has been low for 10 µs. -/
def State.pinsWrite (s : State) (b v : Nat) : State :=
  let s1 := ((s.wr F.IO_BAY_PINS_LPMODE b (F.IO_BAY_PINS_LPMODE.of v)).wr F.IO_BAY_PINS_RESET b (F.IO_BAY_PINS_RESET.of v)).wr
    F.IO_BAY_PINS_INT_SEEN b (if F.IO_BAY_PINS_INT_SEEN.of v = 1 then 0 else s.rd F.IO_BAY_PINS_INT_SEEN b)
  let s2 := s1.wr F.IO_BAY_PINS_PRS_CHG b (if F.IO_BAY_PINS_PRS_CHG.of v = 1 then 0 else s.rd F.IO_BAY_PINS_PRS_CHG b)
  let p := s2.rstPin b
  if F.IO_BAY_PINS_RESET.of v = 1 then
    (if p.low then s2 else s2.setRstPin b { low := true, since := s2.time }).i2cAbort b
  else if p.low && decide (p.since + rstMin ≤ s2.time) then s2.setRstPin b { p with low := false }
  else s2

def execIoBayPinsWrite (ag : Agent) (b : Fin 6) (v : W32) (s : State) : Host.Outcome State Fault Refusal :=
  .next (s.writing ag .IO_BAY_PINS b.val v.toNat fun t => (t.pinsWrite b.val v.toNat, .ok))

/-- RST_N has been low for its 10 µs, and RESET has been written 0 meanwhile (R551). -/
def execBayResetHoldEnd (b : Fin 6) (s : State) : Host.Outcome State Fault Refusal :=
  .next (if (s.rstPin b).low && !s.on F.IO_BAY_PINS_RESET b && decide ((s.rstPin b).since + rstMin ≤ s.time) then s.setRstPin b { s.rstPin b with low := false } else s)

/-- BAY_b_PRS_N takes another level (R551); a lost module ends a transfer (R552). -/
def execModulePresence (b : Fin 6) (present : Bool) (s : State) : Host.Outcome State Fault Refusal :=
  .next (if s.on F.IO_BAY_PINS_PRESENT b = present then s
    else
      let s1 := (s.put F.IO_BAY_PINS_PRESENT b present).put F.IO_BAY_PINS_PRS_CHG b true
      if present then s1 else s1.i2cAbort b)

/-- BAY_b_INT_N takes a level (R551). -/
def execModuleInt (b : Fin 6) (low : Bool) (s : State) : Host.Outcome State Fault Refusal :=
  .next (
    let s1 := s.put F.IO_BAY_PINS_INT b low
    if low then s1.put F.IO_BAY_PINS_INT_SEEN b true else s1)

/-! ### Management transfers (R552) -/

/-- A write of IO_BAY_I2C_CTL. -/
def State.i2cWrite (s : State) (b v : Nat) : State × Status :=
  let go := F.IO_BAY_I2C_CTL_GO.of v = 1
  if go ∧ s.on F.IO_BAY_I2C_STATUS_BUSY b then (s, .refusedState)
  else
    let s1 := ((s.wr F.IO_BAY_I2C_CTL_DEV b (F.IO_BAY_I2C_CTL_DEV.of v)).wr F.IO_BAY_I2C_CTL_REG b (F.IO_BAY_I2C_CTL_REG.of v)).wr
      F.IO_BAY_I2C_CTL_LEN b (F.IO_BAY_I2C_CTL_LEN.of v)
    let s2 := (s1.wr F.IO_BAY_I2C_CTL_SPEED b (F.IO_BAY_I2C_CTL_SPEED.of v)).wr F.IO_BAY_I2C_CTL_READ b (F.IO_BAY_I2C_CTL_READ.of v)
    if go then
      let x : I2c :=
        { dev := s2.rd F.IO_BAY_I2C_CTL_DEV b, reg := s2.rd F.IO_BAY_I2C_CTL_REG b, len := clampNat 1 32 (s2.rd F.IO_BAY_I2C_CTL_LEN b)
          read := s2.on F.IO_BAY_I2C_CTL_READ b, abort := false }
      ({ s2 with i2c := Amap.ins natLt (Amap.erase s2.i2c b) b x }.put F.IO_BAY_I2C_STATUS_BUSY b true, .ok)
    else (s2, .ok)

def execI2cGo (ag : Agent) (b : Fin 6) (v : W32) (s : State) : Host.Outcome State Fault Refusal :=
  .next (s.writing ag .IO_BAY_I2C_CTL b.val v.toNat fun t => t.i2cWrite b.val v.toNat)

/-- Byte `k` of the transfer data is overwritten: it lies in word k / 4, the first byte in [31:24]. -/
def State.i2cByte (s : State) (b k v : Nat) : State :=
  let f := F.IO_BAY_I2C_DATA_DATA
  let i := b * 8 + k / 4
  let lo := 8 * (3 - k % 4)
  let w := s.rd f i
  s.wr f i (w - w / 2 ^ lo % 256 * 2 ^ lo + v % 256 * 2 ^ lo)

/-- The first `n` bytes of the transfer data. -/
def State.i2cBytes (s : State) (b n : Nat) : List Nat :=
  (List.range n).map fun k => s.rd F.IO_BAY_I2C_DATA_DATA (b * 8 + k / 4) / 2 ^ (8 * (3 - k % 4)) % 256

/-- A transfer ends with a result and the number of bytes that passed, which a write has sent and with which a read overwrites the data (R552). -/
def State.i2cEnd (s : State) (b result count : Nat) (x : I2c) (data : List Byte) : State :=
  let n := if result = 1 then x.len else if result = 2 ∨ result = 5 ∨ (result = 3 ∧ x.read) then 0 else min count x.len
  let bytes := ((data.map BitVec.toNat) ++ List.replicate n 0).take n
  let s1 := if x.read then (bytes.zipIdx).foldl (fun t e => t.i2cByte b e.2 e.1) s else s
  let s2 := s1.emit (.i2c b x.dev x.reg x.read (if x.read then [] else s.i2cBytes b n))
  (({ s2 with i2c := Amap.erase s2.i2c b }.put F.IO_BAY_I2C_STATUS_BUSY b false).wr F.IO_BAY_I2C_STATUS_COUNT b n).wr F.IO_BAY_I2C_STATUS_RESULT b result

/-- The result a transfer ends with: ABORTED once it has been told to end; NACK_DATA is a written byte's, in a read that of REG; TIMEOUT has a row of its
own. -/
def I2c.result (x : I2c) (result : Nat) : Option Nat :=
  if x.abort then some 6
  else if result = 1 ∨ result = 2 ∨ result = 3 ∨ result = 5 then some result
  else none

/-- A management transfer ends with STOP: `result` is what the bus gave (1, 2, 3 or 5 of Table 20-13), `data` the bytes a read gave. -/
def execI2cTransferEnd (b : Fin 6) (result : Fin 7) (count : Fin 33) (data : List Byte) (s : State) : Host.Outcome State Fault Refusal :=
  .next (match Amap.find s.i2c b.val with
    | none => s
    | some x => match x.result result with
      | some r => s.i2cEnd b r count x data
      | none => s)

/-- A clock stretched for more than 25 ms ends the transfer (R552). -/
def execI2cTimeout (b : Fin 6) (count : Fin 33) (data : List Byte) (s : State) : Host.Outcome State Fault Refusal :=
  .next (match Amap.find s.i2c b.val with
    | none => s
    | some x => s.i2cEnd b 4 count x data)

/-- Writes of the registers of chapter 20. -/
def State.ioWrite (s : State) (r : Reg) (i v : Nat) : Option (State × Status) :=
  match r with
  | .IO_BAY_PINS => some (s.pinsWrite i v, .ok)
  | .IO_BAY_I2C_CTL => some (s.i2cWrite i v)
  | .IO_BAY_I2C_DATA => if s.on F.IO_BAY_I2C_STATUS_BUSY (i / 8) then some (s, .refusedState) else none
  | _ => none

/-! ### Test pins (R534, R548 to R550) -/

/-- TEST_EN takes a level (R534): high holds every block outside the ember domain in reset; with it low again the blocks leave reset as after a chip
reset, whose CAUSE no rule states. -/
def execTestEnable (high : Bool) (s : State) : Host.Outcome State Fault Refusal :=
  .next (
    if high then { { s with testEn := true }.hold with resetCause := s.resetCause, resets := s.resets + 1 }
    else if s.testEn = false then s
    else State.resetRelease { s with testEn := false })

/-- The instruction an opcode selects: those of Table 20-12, every other one BYPASS (R548). -/
def jtagOf (op : Nat) : Nat := if op ≤ 2 ∨ op = 8 ∨ op = 9 ∨ op = 0xC ∨ op = 0xD then op else 0xFF

/-- The instructions that control pins (R550). -/
def jtagDrives (op : Nat) : Bool := op = 0 || op = 8 || op = 9 || op = 0xC || op = 0xD

/-- A test instruction is loaded: one that controls pins zeroises every key slot and KEY_STAGE first (R550). -/
def execJtagInstruction (opcode : Byte) (s : State) : Host.Outcome State Fault Refusal :=
  .next (
    let op := jtagOf opcode.toNat
    let s1 := if jtagDrives op then s.zeroiseAll else s
    { s1 with jtag := op })

/-- Test-logic reset: the pins return to functional control and IDCODE is selected (R548, R550); the keys stay zeroised. -/
def execTestLogicReset (s : State) : Host.Outcome State Fault Refusal := .next { s with jtag := 1 }

/-- What IDCODE reads (R549). -/
def State.idcode (s : State) : Nat := s.rd F.SYS_REVISION_MAJOR 0 * 2 ^ 28 + 0x4880 * 2 ^ 12 + 0x5E7 * 2 + 1

end Sys2Proof.Machine
end

