-- ==== Sys2Proof/Machine/Ports.lean ====
section
/-!
DEFINITION. Bays and ports (chapter 05): splitting, roles, formats, lock, deskew, identity, fault criteria, blocks received; epoch notices (R237, R238).
-/

namespace Sys2Proof.Machine

/-- The readiness of port `p`, the merges and the freezes of its lanes are judged again. -/
def State.portMoved (s : State) (p : Nat) : State :=
  (s.portLanes p).foldl (fun t n => t.freezeJudge n) ((s.portUpdate p).mergeAll)

/-! ### Alignment markers (R195, R196, R202 to R208) -/

/-- A body that makes a block with flag 1 a valid marker (R196). With FORMAT 1 the marker is that of the port's clause; its body is given as two bytes:
the logical lane it names and the number of its marker period (log entry 36). -/
def markerOk (fmt : Nat) (m : List Nat) : Bool := if fmt = 1 then decide (m.length = 2) else markerValid m

/-- The logical lane a marker names. -/
def markerLogical (fmt : Nat) (m : List Nat) : Nat := if fmt = 1 then m.getD 0 0 % 8 else m.getD 8 0 % 8

/-- The number of a marker's period: AM_COUNT, or the second byte with FORMAT 1. -/
def markerCount (fmt : Nat) (m : List Nat) : Nat := if fmt = 1 then m.getD 1 0 else numBe ((m.drop 16).take 4)

/-- Periods are counted modulo this. -/
def countRange (fmt : Nat) : Nat := if fmt = 1 then 256 else 2 ^ 32

/-- The first cause of a mismatch that a tag, a KIND byte and a width show on port `p`: 1 TAG, 2 PATH, 3 CODE, 4 WIDTH, 0 none (R208). -/
def State.identCause (s : State) (p tag kind width : Nat) : Nat :=
  if s.rd F.PORT_TAG_EXP_TAG p ≠ 0 ∧ tag ≠ s.rd F.PORT_TAG_EXP_TAG p then 1
  else if kind % 2 ≠ s.role p - 2 then 2
  else if kind / 2 % 2 ≠ s.rd F.PORT_CFG_FORMAT p - 2 then 3
  else if width ≠ s.lanesPerPort (p / 8) then 4
  else 0

/-- MISMATCH and its cause. -/
def State.mismatchSet (s : State) (p cause : Nat) : State :=
  (s.track F.PORT_STATUS_MISMATCH F.PORT_EVENT_MISMATCH p (cause ≠ 0)).wr F.PORT_STATUS_MISMATCH_CAUSE p cause

/-- The identity of a line port's marker: the second in a row of one lane with the same finding decides (R208; log entry 36). -/
def State.markerIdentity (s : State) (n p : Nat) (m : List Nat) : State :=
  if s.role p < 2 ∨ s.rd F.PORT_CFG_FORMAT p < 2 then s
  else
    let c := s.identCause p (numBe ((m.drop 12).take 4)) (m.getD 11 0) (m.getD 9 0)
    let x := s.lockOf n
    let run := if x.mmCause = c then x.mmRun + 1 else 1
    let s1 := s.setLock n { x with mmCause := c, mmRun := min run 2 }
    if run < 2 ∨ (c = 0 ∧ s1.rd F.PORT_STATUS_MISMATCH_CAUSE p = 5) then s1 else s1.mismatchSet p c

/-- Every lane of the port is LOCKED with the same AM_COUNT. -/
def State.countsAgree (s : State) (p : Nat) : Bool :=
  s.allLocked p && (s.portLanes p).all fun n => (s.portLanes p).all fun m => (s.lockOf m).count = (s.lockOf n).count

/-- The skew of a port's lanes in ns: arrivals compared with that of lane `n`, modulo 2^32. -/
def State.skewOf (s : State) (p n : Nat) : Nat :=
  let ds := (s.portLanes p).map fun m => ((s.lockOf m).arrival + 2 ^ 32 + 2 ^ 31 - (s.lockOf n).arrival) % 2 ^ 32
  ds.foldl max 0 - ds.foldl min (2 ^ 32)

/-- Deskew: once every lane is locked with the same AM_COUNT the skew is measured (R204, R206). A foreign finding ends with the lock (R209). -/
def State.deskew (s : State) (p n : Nat) : State :=
  if s.countsAgree p then
    let k := s.skewOf p n
    let fail := decide ((if s.rd F.PORT_CFG_FORMAT p = 1 then 250 else 2000) < k)
    let s1 := (s.wr F.PORT_SKEW_SKEW p (min 4095 k)).setPort p { s.port p with deskewed := true }
    let s2 := (s1.put F.PORT_STATUS_SKEW_FAIL p fail).eventIf (fail && !s.on F.PORT_STATUS_SKEW_FAIL p) F.PORT_EVENT_MAP p
    if s2.rd F.PORT_STATUS_MISMATCH_CAUSE p = 5 then s2.mismatchSet p 0 else s2
  else s

/-- What every valid marker shows: the tag of logical lane 0, and the identity (R208). -/
def State.markerShows (s : State) (n p : Nat) (m : List Nat) : State :=
  let fmt := s.rd F.PORT_CFG_FORMAT p
  let s1 := if fmt ≠ 1 ∧ markerLogical fmt m = 0 then s.wr F.PORT_TAG_RX_TAG p (numBe ((m.drop 12).take 4)) else s
  s1.markerIdentity n p m

/-- A marker accepted in its place: what it shows, and the deskew. -/
def State.markerTake (s : State) (n p : Nat) (m : List Nat) : State := (s.markerShows n p m).deskew p n

/-- The blocks of a lane are numbered from its marker `nr` on, whose period has number `c` (R204). -/
def PcsS.rebase (x : PcsS) (c nr : Nat) : PcsS := { x with base := (c * 5120 + 2 ^ 32 * 5120 - nr % (2 ^ 32 * 5120)) % (2 ^ 32 * 5120) }

/-- A lane in SEARCH finds a valid marker and is LOCKED; the reading it was found in gives the polarity (R202, R203). -/
def State.lockGet (s : State) (n p : Nat) (m : List Nat) (inv : Bool) (ns : Nat) : State :=
  let fmt := s.rd F.PORT_CFG_FORMAT p
  let l := s.laneIndex n
  let x := s.lockOf n
  let s1 := s.setLock n { x with lock := .locked, misses := 0, logical := markerLogical fmt m, count := some (markerCount fmt m), arrival := ns
                                 pcs := x.pcs.rebase (markerCount fmt m) 0 }
  let s2 := (s1.setBit F.PORT_STATUS_LOCKED p l true).laneMod n fun a => { a with polWanted := inv }
  let s3 := (s2.setBit F.PORT_POL_INV p l inv).eventIf ((s2.rd F.PORT_POL_INV p).testBit l != inv) F.PORT_EVENT_POL p
  (s3.mapJudge p).markerTake n p m

/-- A missed marker of a LOCKED lane: the third in a row ends the lock (R196, Table 5-7). -/
def State.markerMiss (s : State) (n p : Nat) : State :=
  let s1 := s.bump F.PORT_STATUS_AM_MISS p 1
  let x := s1.lockOf n
  if 2 ≤ x.misses then s1.lockLeave n .search else s1.setLock n { x with misses := x.misses + 1 }

/-- A valid marker at the expected position of a LOCKED lane, block `nr` of it (R205): its identity is compared whatever follows (R208). A break in
AM_COUNT undoes the deskew (R206). -/
def State.markerNext (s : State) (n p : Nat) (m : List Nat) (ns nr : Nat) : State :=
  let fmt := s.rd F.PORT_CFG_FORMAT p
  let x := s.lockOf n
  if markerLogical fmt m ≠ x.logical then (s.markerShows n p m).lockLeave n .search
  else
    let want := match x.count with | some c => (c + 1 + x.misses) % countRange fmt | none => 0
    let s1 := s.setLock n { x with misses := 0, count := some (markerCount fmt m), arrival := ns, pcs := x.pcs.rebase (markerCount fmt m) nr }
    let s2 := if markerCount fmt m = want then s1 else s1.setPort p { s1.port p with deskewed := false, turn := none }
    s2.markerTake n p m

/-- The search of a line lane (R202): a marker locks it, and its bits go on from there in the reading found; without one the bits that can still begin a
marker stay. -/
def State.searchLine (s : State) (n p ns : Nat) : State :=
  let x := s.lockOf n
  match searchMarker true x.pcs.bits with
  | some (m, inv, rest) =>
    let swapped := inv != s.on F.LANE_RX_STATUS_POL_INV n
    (s.setLock n { x with pcs := { x.pcs with bits := rest, swapped := swapped, next := 0, blocks := [], dscr := 0 } }).lockGet n p m swapped ns
  | none => s.setLock n { x with pcs := { x.pcs with bits := x.pcs.bits.drop ((x.pcs.bits.length - 256) / 2 * 2) } }

/-- The block at the next marker position of a LOCKED line lane: a valid marker, or a missed one (R196, R205, R214). -/
def State.markerLine (s : State) (n p ns : Nat) : State :=
  let x := s.lockOf n
  match x.pcs.blocks.find? fun b => b.nr % 5120 = 0 with
  | none => s
  | some b =>
    let s1 := s.setLock n { x with pcs := { x.pcs with blocks := x.pcs.blocks.erase b } }
    if b.flag && !b.bad && markerValid b.body then s1.markerNext n p b.body ns b.nr else s1.markerMiss n p

/-- The same on a lane of a FORMAT 1 port, whose clause finds and checks the marker: the command says what it found. -/
def State.markerEth (s : State) (n p : Nat) (m : List Nat) (inv expected errored : Bool) (ns : Nat) : State :=
  let ok := !errored && markerOk 1 m
  match (s.lockOf n).lock with
  | .idle => s
  | .search => if ok then s.lockGet n p m inv ns else s
  | .locked =>
    if expected then (if ok then s.markerNext n p m ns 0 else s.markerMiss n p)
    else if ok then s.bump F.PORT_STATUS_AM_MISS p 1
    else s

/-- Lane `n` searches for a marker, or takes the block at its next marker position; `ns` is the time of arrival. -/
def State.marker (s : State) (n : Nat) (m : List Nat) (inv expected errored : Bool) (ns : Nat) : State :=
  let p := s.portOfLane n
  match s.rd F.PORT_CFG_FORMAT p, (s.lockOf n).lock with
  | 0, _ => s
  | 1, _ => (s.markerEth n p m inv expected errored ns).portMoved p
  | _, .idle => s
  | _, .search => (s.searchLine n p ns).portMoved p
  | _, .locked => (s.markerLine n p ns).portMoved p

/-- In the line formats the lane's own bits and blocks are examined; the operands but the time are those of a FORMAT 1 port (log entry 36). -/
def execAlignmentMarker (n : Fin 48) (body : List Byte) (complemented expected errored : Bool) (ns : W32) (s : State) :
    Host.Outcome State Fault Refusal :=
  .next (if s.lanesOff then s else s.marker n.val (body.map fun b => b.toNat) complemented expected errored ns.toNat)

/-- A port that searches for 10 ms looks for a foreign format (R209). -/
def execForeignFormatSearch (p : Fin 48) (found : Bool) (s : State) : Host.Outcome State Fault Refusal :=
  .next (if found && decide (1 ≤ s.role p.val) && (s.portLanes p.val).any (fun n => (s.lockOf n).lock = .search) then
      (s.mismatchSet p.val 5).portMoved p.val
    else s)

/-! ### FEC statistics and criteria (R210 to R213) -/

/-- The lane's counters of one decoded codeword (R210). -/
def State.fecCount (s : State) (n corrected : Nat) (bad : Bool) (c1 c2 due : Nat) : State :=
  let p := s.portOfLane n
  let i := 8 * p + s.laneIndex n
  let cw := s.rd F.PORT_FEC_CW_HI_V i * 2 ^ 32 + s.rd F.PORT_FEC_CW_LO_V i + 1
  let s1 := ((s.wr F.PORT_FEC_CW_LO_V i cw).wr F.PORT_FEC_CW_HI_V i (cw / 2 ^ 32)).perfLane 5 n 1
  let s2 := if bad then (s1.bump F.PORT_FEC_UNCOR_V i 1).perfLane 7 n 1
    else if 0 < corrected then (((s1.bump F.PORT_FEC_CORR_V i 1).bump F.PORT_FEC_SYM_V i corrected).perfLane 6 n 1).perfLane 8 n corrected
    else s1
  if s.rd F.PORT_CFG_FORMAT p = 3 then
    ((((s2.bump F.PORT_FEC_INNER_C1_V i c1).bump F.PORT_FEC_INNER_C2_V i c2).bump F.PORT_FEC_INNER_DUE_V i due).perfLane 9 n c1).perfLane 10 n c2 |>.perfLane
      11 n due
  else s2

/-- FEC_FAIL of port `p` (R211). -/
def State.fecJudge (s : State) (p : Nat) : State :=
  let thr := clampNat 1 64 (s.rd F.PORT_FEC_THR_UNCOR_THR p)
  let set := (s.portLanes p).any fun n => thr ≤ ((s.lockOf n).recent.filter fun b => b).length
  let clear := (s.portLanes p).all fun n => 1024 ≤ (s.lockOf n).clean
  if set then s.track F.PORT_STATUS_FEC_FAIL F.PORT_EVENT_FEC_FAIL p true
  else if clear then s.track F.PORT_STATUS_FEC_FAIL F.PORT_EVENT_FEC_FAIL p false
  else s

/-- A LOCKED lane decodes a codeword with `corrected` symbols, or finds it uncorrectable; with FORMAT 3 its 16 inner codewords had these outcomes. -/
def State.codeword (s : State) (n corrected : Nat) (bad : Bool) (c1 c2 due : Nat) : State :=
  let p := s.portOfLane n
  let s1 := (s.dataPath (48 + n / 8)).fecCount n corrected bad c1 c2 due
  let x := s1.lockOf n
  let s2 := s1.setLock n { x with recent := (bad :: x.recent).take 64, clean := if bad then 0 else min 1024 (x.clean + 1), bad := bad
                                  badSince := x.badSince || bad
                                  symbols := x.symbols + (if bad then 0 else corrected) }
  (s2.fecJudge p).portMoved p

/-- The next codeword of a line lane, once its bits are there (R197 to R199, R214): inner and outer code decoded, the 20 blocks descrambled and queued for
the deskew, marked errored where the codeword is uncorrectable; valid markers out of their place are counted (R205). The marker the lane locked on has been
taken. -/
def State.lineDecode (s : State) (n : Nat) : State :=
  let x := s.lockOf n
  let long := decide (s.rd F.PORT_CFG_FORMAT (s.portOfLane n) = 3)
  let need := if long then 5808 else 5440
  if x.pcs.bits.length < need then s
  else
    let raw := x.pcs.bits.take need
    let inner := if long then groupDecode raw else (raw, [])
    let d := rsDecodeBits inner.1
    let t := takeBlocks d.2.isNone 20 x.pcs.next x.pcs.dscr d.1
    let blocks := x.pcs.blocks ++ t.2.filter fun b => b.nr ≠ 0
    let s0 := s.setLock n { x with pcs := { x.pcs with bits := x.pcs.bits.drop need, next := x.pcs.next + 20, dscr := t.1
                                                       blocks := blocks.drop (blocks.length - 5120) } }
    let s1 := s0.bump F.PORT_STATUS_AM_MISS (s.portOfLane n) (t.2.filter fun b => b.stray).length
    let count (o : Option Nat) : Nat := (inner.2.filter fun a => a = o).length
    s1.codeword n (d.2.getD 0) d.2.isNone (count (some 1)) (count (some 2)) (count none)

/-- In the line formats the lane's own bits are decoded; the operands are the outcome that a FORMAT 1 port's clause found (log entry 36). -/
def execCodewordDecode (n : Fin 48) (corrected : Fin 16) (uncorrectable : Bool) (s : State) : Host.Outcome State Fault Refusal :=
  .next (if (s.lockOf n.val).lock ≠ .locked ∨ s.lanesOff then s
    else if s.rd F.PORT_CFG_FORMAT (s.portOfLane n.val) = 1 then s.codeword n.val corrected.val uncorrectable 0 0 0
    else s.lineDecode n.val)

/-- The end of a 100 µs window (R211). -/
def State.degraded (s : State) (p : Nat) : State :=
  let thr := max 1 (s.rd F.PORT_FEC_THR_DEG_THR p) * 16
  let ovr := (s.portLanes p).any fun n => thr < (s.lockOf n).symbols
  let s1 := s.track F.PORT_STATUS_DEGRADED F.PORT_EVENT_DEGRADED p ovr
  (s.portLanes p).foldl (fun t n => t.setLock n { t.lockOf n with symbols := 0 }) s1

def execDegradedWindow (p : Fin 48) (s : State) : Host.Outcome State Fault Refusal :=
  .next (if s.portExists p.val && decide (s.rd F.PORT_CFG_FORMAT p.val ≠ 0) then s.degraded p.val else s)

/-! ### Epoch notices (R237, R238, Table 6-4) -/

/-- The body of Table 6-4. -/
def State.noticeBody (s : State) : List Nat :=
  let b := [0xB3] ++ bytesBe 4 (s.rd F.SYS_EPOCH_VALUE 0) ++ bytesBe 4 (s.word .SYS_DEVICE_ID 0) ++ [s.word .SYS_REVISION 0 % 256] ++ List.replicate 20 0
  b ++ bytesBe 2 (crc16 b)

def execEpochNoticeSend (p : Fin 48) (s : State) : Host.Outcome State Fault Refusal :=
  .next (if s.isLine p.val && s.on F.PORT_STATUS_TX_READY p.val then
      let m := if s.fmt p.val = 1 then s.portBytes p.val (s.noticeBody ++ List.replicate 14 0) else s.noticeBody
      (s.queueOn p.val m).emit (.notice p.val m)
    else s)

def execEpochNoticeRx (p : Fin 48) (body : List Byte) (s : State) : Host.Outcome State Fault Refusal :=
  .next (if s.isLine p.val && s.on F.PORT_STATUS_RX_READY p.val then s.noticeTake p.val (body.map fun b => b.toNat) else s)

/-! ### Blocks (R192, R214, R232, R234) -/

/-- The copy in reception ends and goes to the tunnel unit. -/
def State.copyEnd (s : State) (p : Nat) : State :=
  match (s.port p).rx with
  | none => s
  | some (m, e) => (s.setPort p { s.port p with rx := none }).portCopy p m e

/-- A copy is complete once it has the blocks LENGTH asks for; a LENGTH out of its range is judged at once. -/
def copyComplete (m : List Nat) : Bool :=
  let len := numBe ((m.drop 4).take 2)
  decide (9184 < len) || decide (wholeBlocks (len + 32) ≤ m.length)

/-- A copy in reception, judged complete or kept. -/
def State.copyKeep (s : State) (p : Nat) (m : List Nat) (e : Bool) : State :=
  let s1 := s.setPort p { s.port p with rx := some (m, e) }
  if copyComplete m then s1.copyEnd p else s1

/-- The link faults of Clause 81 that a FORMAT 1 port receives: sequence 1 local fault, 2 remote fault, any other block none (R187; log entry 36). -/
def State.linkFault (s : State) (p : Nat) (flag : Bool) (m : List Nat) : State :=
  let code := if flag ∧ m.take 2 = [0, 0] then m.getD 2 0 else 0
  (s.track F.PORT_STATUS_LOCAL_FAULT F.PORT_EVENT_FAULT p (code = 1)).track F.PORT_STATUS_REMOTE_FAULT F.PORT_EVENT_FAULT p (code = 2)

/-- A non-marker block of a ready port: with FORMAT 1 a control block stands outside every frame (R190) and may show a link fault; else idle blocks are
discarded, bundles gathered, notices taken; a data block outside any bundle is counted. -/
def State.blockRx (s0 : State) (p : Nat) (flag : Bool) (m : List Nat) (errored : Bool) : State :=
  let s := s0.dataPath (48 + p / 8)
  if s.fmt p = 1 then (if flag && !errored then s.frameOver p else s).linkFault p flag m
  else if flag && m.getD 0 0 = 0 then s
  else if flag then
    let s1 := s.copyEnd p
    match m.getD 0 0 with
    | 0xB1 => s1.copyKeep p m errored
    | 0xB2 => s1.copyKeep p m errored
    | 0xB3 => if errored then s1 else s1.noticeTake p m
    | _ => s1
  else
    match (s.port p).rx with
    | none => s.bump F.CRY_STRAY_COUNT 0 1
    | some (h, e) => s.copyKeep p (h ++ m) (e || errored)

/-- Counts of blocks run modulo this (R195, R204). -/
def blockRange : Nat := 2 ^ 32 * 5120

/-- Count `a` comes before count `b`. -/
def countBefore (a b : Nat) : Bool := decide (blockRange / 2 ≤ (a + blockRange - b) % blockRange)

/-- The place of a lane's block on the port's common count. -/
def PcsS.place (x : PcsS) (b : RxBlock) : Nat := (x.base + b.nr) % blockRange

/-- The place after (k, l) in a port stream of `w` lanes: the next lane of the same row, else the next row, marker rows passed over (R193, R195). -/
def turnNext (w : Nat) (q : Nat × Nat) : Nat × Nat :=
  if q.2 + 1 < w then (q.1, q.2 + 1)
  else
    let k := (q.1 + 1) % blockRange
    (if k % 5120 = 0 then (k + 1) % blockRange else k, 0)

/-- Where the port stream begins after the deskew: the row at which the lane whose first block comes last begins; none while a lane has no block. -/
def State.turnFirst (s : State) (p : Nat) : Option (Nat × Nat) :=
  let firsts := (s.portLanes p).map fun n => ((s.lockOf n).pcs.blocks.head?).map fun b => (s.lockOf n).pcs.place b
  if firsts.any fun a => a.isNone then none
  else
    let k := (firsts.filterMap id).foldl (fun a b => match a with | none => some b | some c => some (if countBefore c b then b else c)) (none : Option Nat)
    k.map fun c => (if c % 5120 = 0 then (c + 1) % blockRange else c, 0)

/-- The next block of a line port's stream, from the lane with the logical number whose turn it is (R193, R203, R204). Blocks before the common start are
dropped; a marker that has not been judged yet is waited for; where a lane has lost blocks the port aligns anew. A valid marker out of its place is
ignored (R205). -/
def State.streamNext (s : State) (p : Nat) : State :=
  match (s.port p).turn.or (s.turnFirst p) with
  | none => s
  | some q =>
    match (s.portLanes p).find? fun n => (s.lockOf n).logical = q.2 with
    | none => s
    | some n =>
      let x := s.lockOf n
      let bs := x.pcs.blocks.dropWhile fun b => countBefore (x.pcs.place b) q.1 && decide (b.nr % 5120 ≠ 0)
      let s1 := (s.setLock n { x with pcs := { x.pcs with blocks := bs } }).setPort p { s.port p with turn := some q }
      match bs with
      | [] => s1
      | b :: rest =>
        if b.nr % 5120 = 0 then s1
        else if x.pcs.place b ≠ q.1 then s1.setPort p { s1.port p with turn := none }
        else
          let s2 := (s1.setLock n { x with pcs := { x.pcs with blocks := rest } }).setPort p
            { s1.port p with turn := some (turnNext (s.portLanes p).length q) }
          if b.stray then s2 else s2.blockRx p b.flag b.body b.bad

/-- A line port passes on the next block of its stream; the operands are a block that a FORMAT 1 port's clause received (log entry 36). -/
def execBlockRx (p : Fin 48) (flag : Bool) (body : List Byte) (errored : Bool) (s : State) : Host.Outcome State Fault Refusal :=
  .next (if !(s.portExists p.val && s.on F.PORT_STATUS_RX_READY p.val) then s
    else if s.fmt p.val = 1 then s.blockRx p.val flag (body.map fun b => b.toNat) errored
    else s.streamNext p.val)

/-! ### Bay configuration and roles (R180 to R182) -/

/-- The lanes of bay `b`. -/
def bayLanes (b : Nat) : List Nat := (List.range 8).map fun k => 8 * b + k

/-- A write of BAY_CFG, accepted with all lanes of the bay Cold: every port block of the bay returns to its reset values (R181). -/
def State.bayCfgWrite (s : State) (b v : Nat) : State × Status :=
  if !(bayLanes b).all (fun n => s.laneCold n) then (s, .refusedState)
  else
    let s1 := s.resetRegs fun r i => decide (r.info.unit = .bay ∧ r ≠ .BAY_CFG ∧ r ≠ .BAY_ROLE ∧ i / r.info.innerCount / 8 = b)
    let s2 := (List.range 8).foldl (fun t k => (t.setPort (8 * b + k) PortS.init).setLock (8 * b + k) LockS.init) s1
    let s3 := s2.wr F.BAY_CFG_SPLIT b (F.BAY_CFG_SPLIT.of v)
    let s4 := (bayLanes b).foldl (fun t n => t.rippleCheck n) s3
    (s4.protUpdate.mergeAll, .ok)

def execBayCfgWrite (ag : Agent) (b : Fin 6) (v : W32) (s : State) : Host.Outcome State Fault Refusal :=
  .next (s.writing ag .BAY_CFG b.val v.toNat fun t => t.bayCfgWrite b.val v.toNat)

/-- A changed role needs every lane of its port Cold; entries of ports that do not exist are ignored (R182). -/
def State.bayRoleWrite (s : State) (b v : Nat) : State × Status :=
  let ports := (List.range 8).filter fun i => s.portExists (8 * b + i)
  if ports.any (fun i => (roleFld i).of v ≠ s.role (8 * b + i) && !(s.portLanes (8 * b + i)).all fun n => s.laneCold n) then (s, .refusedState)
  else
    let s1 := (ports.foldl (fun t i => t.wr (roleFld i) b ((roleFld i).of v)) s).tvWrite (tvRole b)
    let s2 := (bayLanes b).foldl (fun t n => t.rippleCheck n) s1
    ((ports.foldl (fun t i => t.portMoved (8 * b + i)) s2), .ok)

def execBayRoleWrite (ag : Agent) (b : Fin 6) (v : W32) (s : State) : Host.Outcome State Fault Refusal :=
  .next (s.writing ag .BAY_ROLE b.val v.toNat fun t => t.bayRoleWrite b.val v.toNat)

/-- The safe value of a bay's role map: no port has a role, its lanes go Cold (R182, Table 13-3). -/
def State.roleSafe (s : State) (b : Nat) : State :=
  let s1 := (List.range 8).foldl (fun t i => t.wr (roleFld i) b 0) s
  let s2 := ([1, 2, 3].foldl (fun t c => t.setMark 10 (tvRole b) c 0 0) s1)
  let s3 := (bayLanes b).foldl (fun t n => (t.rippleCheck n).laneForce n 4) s2
  s3.protUpdate.mergeAll

/-- The vote of a bay's role map (R428). -/
def State.voteRole (s : State) (b : Nat) : State := s.tvVote (tvRole b) fun t => t.roleSafe b

/-! ### Port registers (R137, R185, R207) -/

/-- A write of PORT_LANE_STATE: one request to every lane of the port; each is judged for itself (R137, R138). -/
def State.portStateWrite (s : State) (p v : Nat) : State × Status :=
  let ls := s.portLanes p
  let req := F.PORT_LANE_STATE_REQ.of v
  if ls.any fun n => (s.lane n).forcedDrop then (s, .waiting)
  else
    let s1 := if F.PORT_LANE_STATE_REFUSED.of v = 1 then s.put F.PORT_LANE_STATE_REFUSED p false else s
    let bad := ls.any fun n => s1.laneRefuses n req
    let s2 := ls.foldl (fun t n => (t.laneRequest n req).1) (s1.wr F.PORT_LANE_STATE_REQ p req)
    if bad then (s2.put F.PORT_LANE_STATE_REFUSED p true, .refusedState) else (s2, .ok)

def execPortLaneState (ag : Agent) (p : Fin 48) (v : W32) (s : State) : Host.Outcome State Fault Refusal :=
  .next (s.writing ag .PORT_LANE_STATE p.val v.toNat fun t => t.portStateWrite p.val v.toNat)

/-- The wakefulness of a state: Cold, Banked, Warm, Lit. -/
def wakeRank (c : Nat) : Nat := match c with | 0 => 0 | 1 => 1 | 3 => 2 | _ => 3

/-- The least awake CUR among the port's lanes (PORT_LANE_STATE.CUR_MIN). -/
def State.curMin (s : State) (p : Nat) : Nat :=
  (s.portLanes p).foldl (fun a n => if wakeRank (s.rd F.LANE_STATE_CUR n) < wakeRank a then s.rd F.LANE_STATE_CUR n else a) 2

/-- A write of PORT_CFG (R185). -/
def State.portCfgWrite (s : State) (p v : Nat) : State × Status :=
  let f := F.PORT_CFG_FORMAT.of v
  let change := decide (f ≠ s.rd F.PORT_CFG_FORMAT p)
  if 4 ≤ f then (s, .refusedState)
  else if change && !(s.portLanes p).all (fun n => decide (s.rd F.LANE_STATE_CUR n ≤ 1) && !s.on F.LANE_STATE_CHANGING n) then (s, .refusedState)
  else
    let s1 := (Reg.fields .PORT_CFG).foldl (fun t g => t.wr g p (g.of v)) s
    let s2 := if change then
        { s1.setPort p { s1.port p with rx := none } with
          regs := s1.regs.filter fun e => !(e.1.reg.info.unit = .bay && e.1.reg.info.innerCount = 8 && e.1.inst / 8 = p) }
      else s1
    -- a FORMAT 1 port sends remote fault while SEND_RF is 1 (R187)
    let rf (t : State) : Bool := decide (t.rd F.PORT_CFG_FORMAT p = 1) && t.on F.PORT_CFG_SEND_RF p
    let s3 := if rf s2 = rf s then s2 else s2.emit (.remoteFault p (rf s2))
    -- a transmit side being enabled aborts a Kiln slice on the bay's port units (R454)
    let s4 := if s.on F.PORT_CFG_TX_EN p = false ∧ s3.on F.PORT_CFG_TX_EN p = true then s3.dataPath (48 + p / 8) else s3
    (s4.portMoved p, .ok)

def execPortCfgWrite (ag : Agent) (p : Fin 48) (v : W32) (s : State) : Host.Outcome State Fault Refusal :=
  .next (s.writing ag .PORT_CFG p.val v.toNat fun t => t.portCfgWrite p.val v.toNat)

/-- Writes of bay and port registers that do more than store. -/
def State.portWrite (s : State) (r : Reg) (i v : Nat) : Option (State × Status) :=
  match r with
  | .BAY_CFG => some (s.bayCfgWrite i v)
  | .BAY_ROLE => some (s.bayRoleWrite i v)
  | .PORT_LANE_STATE => some (s.portStateWrite i v)
  | .PORT_CFG => some (s.portCfgWrite i v)
  | _ => none

/-- Registers of bays and ports that read as something else than their stored fields. -/
def State.portRead (s : State) (r : Reg) (i : Nat) : Option Nat :=
  match r with
  | .BAY_ROLE => some ((List.range 8).foldl (fun a k => a + s.role (8 * i + k) * 4 ^ k) 0)
  | .PORT_LANE_STATE =>
    let ch := (s.portLanes i).any fun n => s.on F.LANE_STATE_CHANGING n
    some (s.rd F.PORT_LANE_STATE_REFUSED i * 2 ^ 17 + bit ch * 2 ^ 16 + s.curMin i * 2 ^ 8 + s.rd F.PORT_LANE_STATE_REQ i)
  | _ => none

/-! ### Control messages taken by name (Table 6-3) -/

/-- An authentic ACK of tunnel `t`. -/
def execAckMsg (t : Fin 24) (cum map : W64) (s : State) : Host.Outcome State Fault Refusal :=
  .next (if s.on F.TUN_CFG_RX_EN t.val then s.ackTake t.val cum.toNat map.toNat else s)

/-- An authentic RESEND. -/
def execResendMsg (t : Fin 24) (first : W64) (count : W32) (s : State) : Host.Outcome State Fault Refusal :=
  .next (if s.on F.TUN_CFG_RX_EN t.val then s.resendTake t.val first.toNat count.toNat else s)

/-- An authentic GAP. -/
def execGapMsg (t : Fin 24) (first : W64) (count : W32) (cause : BitVec 8) (s : State) : Host.Outcome State Fault Refusal :=
  .next (if s.on F.TUN_CFG_RX_EN t.val then s.gapTake t.val first.toNat count.toNat cause.toNat else s)

end Sys2Proof.Machine
end

