-- ==== Sys2Proof/Machine/IrqRows.lean ====
section
/-!
DEFINITION. Writes of the interrupt controller's registers as commands (chapter 12).
-/

namespace Sys2Proof.Machine

def execIrqComplete (ag : Agent) (v : W32) (s : State) : Host.Outcome State Fault Refusal :=
  .next (s.writing ag .IRQ_COMPLETE 0 v.toNat fun t => t.irqComplete ag v.toNat)

def execIrqSwSet (ag : Agent) (v : W32) (s : State) : Host.Outcome State Fault Refusal :=
  .next (s.writing ag .IRQ_SW_SET 0 v.toNat fun t => t.irqSwSet v.toNat)

def execIrqPendingWrite (ag : Agent) (w : Fin 16) (v : W32) (s : State) : Host.Outcome State Fault Refusal :=
  .next (s.writing ag .IRQ_PENDING w v.toNat fun t => (t.irqBits ag w v.toNat State.pendingBit, .ok))

def execIrqSrcWrite (ag : Agent) (n : Fin 512) (v : W32) (s : State) : Host.Outcome State Fault Refusal :=
  .next (s.writing ag .IRQ_SRC n v.toNat fun t => t.irqSrcWrite ag n v.toNat)

def execIrqMaskWrite (ag : Agent) (w : Fin 16) (v : W32) (s : State) : Host.Outcome State Fault Refusal :=
  .next (s.writing ag .IRQ_MASK w v.toNat fun t => (t.irqBits ag w v.toNat State.maskBit, .ok))

end Sys2Proof.Machine
end

