-- ==== Sys2Proof/Machine/Kiln.lean ====
section
/-!
DEFINITION. Kiln self-test (chapter 15): start-up results, in-service slices, failures, exclusions.
-/

namespace Sys2Proof.Machine

/-- Regions whose start-up failure is fatal (Table 15-1). -/
def kilnFatal (n : Nat) : Bool := n = 119 || n = 120 || n = 133 || n = 134 || n = 137 || n = 138

/-- Regions never tested in service (Table 15-1). -/
def kilnStartupOnly (n : Nat) : Bool := n = 119 || n = 137 || n = 138

/-- The protected region of Table 13-1 whose memory a Kiln region holds. -/
def kilnMemory (n : Nat) : Nat :=
  if n < 48 then 6 else if n = 118 then 3 else if n = 119 then 8 else if n = 120 then 4 else if n = 121 then 2 else if n = 122 then 5
  else if n = 131 then 0 else if n = 132 then 1 else if n = 135 then 7 else 10

/-- KILN_FAIL records the oldest failure not acknowledged (R460). -/
def State.kilnRecord (s : State) (region word bit kind : Nat) : State :=
  if s.on F.KILN_FAIL_HI_VALID 0 then s
  else
    ((((s.wr F.KILN_FAIL_LO_WORD 0 word).wr F.KILN_FAIL_HI_REGION 0 region).wr F.KILN_FAIL_HI_BIT 0 bit).wr F.KILN_FAIL_HI_KIND 0 kind).put
      F.KILN_FAIL_HI_VALID 0 true

/-- One more region excluded or failed (KILN_STATUS.FAILED_COUNT). -/
def State.kilnCount (s : State) : State := s.bump F.KILN_STATUS_FAILED_COUNT 0 1

/-- A word of a Kiln region's memory, as its protected region numbers it: a lane's words follow those of the lanes before it. -/
def kilnWord (n word : Nat) : Nat := if n < 48 then laneWord n (word % 0x800) else word

/-- A failing row of region `n`: replaced by a spare of its instance, or withheld when none is left (R448). The answer says whether it was repaired. -/
def State.kilnRowFails (s : State) (n word bit : Nat) : State × Bool :=
  let m := kilnMemory n
  let w := kilnWord n word
  if s.spareLeft m w then
    let s1 := ((s.takeSpare m w).put F.KILN_REG_REPAIRED n true).kilnRecord n word bit 3
    (s1.event F.KILN_EVENT_REPAIRED 0, true)
  else
    let r := kilnRow m w
    (State.kilnRecord { s with withheld := s.withheld ++ [Withheld.mk m r.1 r.2] } n word bit 4, false)

/-- The registers that stay reachable while Kiln is FATAL keep their state (R449), beside what every reset keeps. -/
def fatalKeeps (k : FKey) : Bool := keptField k || reachableFatal k.reg

/-- Kiln is FATAL (R442, R449): every function block is held in reset, EMBER_ALIVE stops with cause 0x1D. Kiln, the system registers, the fault collector and the
service port go on, and device time with them. -/
def State.kilnFatalSet (s : State) : State :=
  let c := s.cleared
  ({ c with
      regs := s.regs.filter fun e => fatalKeeps e.1
      time := s.time
      sessions := s.sessions.filter fun e => e.1 = 0
      hostWait := s.hostWait.filter fun q => q.session = 0
      captures := s.captures.filter fun e => e.reader = 0
      accessKeys := s.accessKeys
      kilnHeldFail := s.kilnHeldFail
      withheld := s.withheld
      sparesUsed := s.sparesUsed }.put F.KILN_STATUS_FATAL 0 true).aliveStop 0x1D

/-- The exclusion of Table 15-1 that is an act of the device: a pipeline is left out or replaced, an engine fails (cause as of Table 14-4: `start`
at start-up, otherwise in service), a lane goes Cold in service, the hold store OFF. The refusals of Table 15-1 read the region's state. The answer is the lines
this raises. -/
def State.kilnExclude (s : State) (n : Nat) (start : Bool) : State × List Line :=
  if n < 48 then (if start then s else s.laneForce n 5, [])
  else if 54 ≤ n ∧ n ≤ 85 then (if start then (s.pipeExclude true (n - 54), []) else s.pipeLines true (n - 54) 2)
  else if 86 ≤ n ∧ n ≤ 117 then (if start then (s.pipeExclude false (n - 86), []) else s.pipeLines false (n - 86) 2)
  else if n = 122 then (if start then s else s.holdStop, [])
  else if 123 ≤ n ∧ n ≤ 130 then s.engineLines (n - 123) (if start then 4 else 5)
  else (s, [])

/-- Every region has a result (R446). -/
def State.kilnAllDone (s : State) : Bool := (List.range 139).all fun n => s.rd F.KILN_REG_STATE n ≠ 0

/-- The lowest failing region found at start-up and its cause (R450). -/
def State.kilnLowest (s : State) : Option (Nat × Nat) :=
  s.kilnHeldFail.foldl (fun a e => match a with | none => some e | some x => if e.1 < x.1 then some e else some x) none

/-- Kiln's start-up test ends (R446, R450). -/
def State.kilnEnds (s : State) : State :=
  let s1 := (s.put F.KILN_STATUS_STARTUP_DONE 0 true).event F.KILN_EVENT_STARTUP_DONE 0
  match s.kilnLowest with
  | none => s1
  | some (n, c) => ({ s1 with kilnHeldFail := [] }.event F.KILN_EVENT_FAIL 0).errorLine 29 n c

/-- The failing rows of a start-up test, one after another; the answer says whether one could not be repaired. -/
def State.kilnRows (s : State) (n : Nat) (rows : List (BitVec 24 × Fin 72)) : State × Bool :=
  rows.foldl (fun a r =>
    let x := a.1.kilnRowFails n r.1.toNat r.2
    (x.1, a.2 || !x.2)) (s, false)

/-- A region fails at start-up (R449): EXCLUDED, counted, journalled, fatal where Table 15-1 says so. -/
def State.kilnStartFail (s : State) (n word bit kind cause : Nat) : State :=
  let s1 := (((s.wr F.KILN_REG_STATE n 2).put F.KILN_STATUS_STARTUP_FAIL 0 true).kilnCount).kilnRecord n word bit kind
  let s2 := { s1 with kilnHeldFail := s1.kilnHeldFail ++ [(n, cause)] }.journalAdd 3 [n, cause]
  if kilnFatal n then s2.kilnFatalSet
  else if s2.on F.KILN_STATUS_FATAL 0 then s2
  else let x := s2.kilnExclude n true; x.1.errorLines x.2

/-- A region passes at start-up and is released (R447); the first 30 pipelines of each direction that pass are active (R243, log entry 14). -/
def State.kilnPass (s : State) (n : Nat) : State :=
  let s1 := s.wr F.KILN_REG_STATE n (if kilnStartupOnly n then 4 else 1)
  if s1.on F.KILN_STATUS_FATAL 0 then s1
  else if 54 ≤ n ∧ n ≤ 85 then s1.pipePass true (n - 54) else if 86 ≤ n ∧ n ≤ 117 then s1.pipePass false (n - 86) else s1

/-- The result of a region's start-up test, of the kinds that Table 15-1 gives the region: a failing pattern of its logic, or the failing rows of its memory. -/
def State.kilnResult (s : State) (n : Nat) (logic : Option (BitVec 24)) (rows : List (BitVec 24 × Fin 72)) : State :=
  let x := s.kilnRows n (if kilnHasMem n then rows else [])
  match (if kilnLogic n then logic else none) with
  | some p => x.1.kilnStartFail n p.toNat 0xFF 1 1
  | none =>
    if x.2 then
      if kilnFatal n then x.1.kilnStartFail n ((rows.head?.map (fun r => r.1.toNat)).getD 0) ((rows.head?.map (fun r => r.2.val)).getD 0) 2 2
      else { (x.1.kilnCount.journalAdd 3 [n, 2]) with kilnHeldFail := x.1.kilnHeldFail ++ [(n, 2)] }.put F.KILN_STATUS_STARTUP_FAIL 0 true |>.kilnPass n
    else x.1.kilnPass n

/-- A region's start-up test ends (R446 to R450). -/
def execKilnRegionDone (n : Fin 139) (logic : Option (BitVec 24)) (rows : List (BitVec 24 × Fin 72)) (s : State) :
    Host.Outcome State Fault Refusal :=
  .next (if s.inReset || !s.regionUntested n then s
    else s.unlessReset (s.kilnResult n logic rows) fun t => if t.kilnAllDone then t.kilnEnds else t)

/-! ### In-service slices (R451 to R459) -/

/-- The steps of a slice: 256 patterns of a logic slice, or those of the march of one row, whose number is not given; none where the region has no such slice
(R445, R451). -/
def sliceSteps (n : Nat) : Option (BitVec 16) → Option Nat
  | some k => if kilnHasMem n then some k.toNat else none
  | none => if kilnLogic n then some 256 else none

/-- RETRY has passed since the last abort of a region (R456). -/
def State.retryOver (s : State) (n : Nat) : Bool :=
  s.kilnWait.all fun e => decide (e.1 ≠ n) || decide (e.2 + max 1 (s.rd F.KILN_CFG_RETRY 0) * 25000 ≤ s.time)

/-- The region has received no data-path request for GATE (R455). -/
def State.gateOpen (s : State) (n : Nat) : Bool :=
  match Amap.find s.trafficAt n with
  | some t => decide (t + max 1 (s.rd F.KILN_CFG_GATE 0) * 250 ≤ s.time)
  | none => true

/-- A slice on a region is due to be tried: enabled, none running, the region tested in service and in use, its blocks not in Bank or Smoulder, its retry due. -/
def State.sliceDue (s : State) (n : Nat) : Bool :=
  s.on F.KILN_CTL_RUN_EN 0 && !s.on F.KILN_STATUS_BUSY 0 && !kilnStartupOnly n && s.rd F.KILN_REG_STATE n = 1 && s.retryOver n &&
    s.on F.KILN_STATUS_STARTUP_DONE 0 && !s.blocksHeld && (kilnBlocks n).all fun b => decide (s.rd F.PWR_BLOCK_CUR b < 2)

/-- KILN_LAST names a slice that has performed no step. -/
def State.sliceShown (s : State) (n expected result : Nat) : State :=
  ((((s.wr F.KILN_LAST_LO_EXPECTED 0 expected).wr F.KILN_LAST_LO_STEPS 0 0).wr F.KILN_LAST_HI_REGION 0 n).put F.KILN_LAST_HI_DONE 0 false).wr
    F.KILN_LAST_HI_RESULT 0 result

/-- A slice starts on an idle region: a logic slice, or with `row` a memory slice of one row of that many steps (R451, R452, R455). -/
def execKilnSliceStart (n : Fin 139) (row : Option (BitVec 16)) (s : State) : Host.Outcome State Fault Refusal :=
  .next (match sliceSteps n row with
    | none => s
    | some k =>
      if s.sliceDue n && s.gateOpen n then
        (({ s with sliceRegion := some n.val, sliceMem := row.isSome }.put F.KILN_STATUS_BUSY 0 true).wr F.KILN_STATUS_CURRENT 0 n).sliceShown n k 0
      else s)

/-- A data-path request aborts the running slice after `steps` steps; with the last step completed it aborts nothing (R454 to R456). -/
def execKilnSliceAbort (steps : BitVec 16) (s : State) : Host.Outcome State Fault Refusal :=
  .next (match s.sliceRegion with
    | none => s
    | some n => if steps.toNat < s.rd F.KILN_LAST_LO_EXPECTED 0 then s.sliceAbort n steps.toNat else s)

/-- A slice that could not start within 10 µs of its scheduled time, its region being busy, counts as an abort (R455, R458). -/
def execKilnStartTimeout (n : Fin 139) (row : Option (BitVec 16)) (s : State) : Host.Outcome State Fault Refusal :=
  .next (match sliceSteps n row with
    | none => s
    | some k => if s.sliceDue n && !s.gateOpen n then (s.sliceShown n k 3).kilnAborted n else s)

/-- RETRY after an abort the region's next attempt comes due (R456). -/
def execKilnRetry (n : Fin 139) (s : State) : Host.Outcome State Fault Refusal :=
  .next (if s.retryOver n then { s with kilnWait := s.kilnWait.filter fun e => e.1 ≠ n.val } else s)

/-- A counted result clears UNTESTABLE and the abort count (R456). -/
def State.kilnCounted (s : State) (n : Nat) : State :=
  let s1 := if s.on F.KILN_REG_UNTESTABLE n then s.wr F.KILN_STATUS_UNTESTABLE_COUNT 0 (s.rd F.KILN_STATUS_UNTESTABLE_COUNT 0 - 1) else s
  (s1.put F.KILN_REG_UNTESTABLE n false).wr F.KILN_REG_ABORTS n 0

/-- A failure in service (R459): the record, the journal, the row's repair or the region's exclusion, FATAL where the exclusion is fatal and for regions 133 and
134, and CHAR_STATUS bit 29. `word` is the failing word of a memory slice, or the failing pattern. -/
def State.kilnServiceFail (s : State) (n word bit : Nat) (mem : Bool) : State :=
  if mem then
    let x := s.kilnCount.kilnRowFails n word bit
    ((x.1.journalAdd 3 [n, 4]).event F.KILN_EVENT_FAIL 0).errorLine 29 n 4
  else
    let s1 := ((s.kilnCount.wr F.KILN_REG_STATE n 3).kilnRecord n word 0xFF 1).journalAdd 3 [n, 3]
    let x := if kilnFatal n then (s1.kilnFatalSet, []) else s1.kilnExclude n false
    (x.1.event F.KILN_EVENT_FAIL 0).errorLines (x.2 ++ [(29, n, 3)])

/-- What the comparison of a completed slice finds. -/
def State.sliceResult (s : State) (n : Nat) (mem : Bool) (fail : Option (BitVec 24 × Fin 72)) (passEnds : Bool) : State :=
  let s1 := (s.kilnCounted n).wr F.KILN_LAST_HI_RESULT 0 (if fail.isSome then 2 else 1)
  let s2 := if passEnds then s1.bumpWrap F.KILN_REG_PASSES n 1 else s1
  match fail with
  | none => s2
  | some (w, b) => s2.kilnServiceFail n w.toNat b mem

/-- A slice completes and its signature is compared (R452, R458, R459): `fail` holds the failing word and bit of a memory slice, or the failing pattern of a logic
slice; `passEnds` says that the region's pass is complete. -/
def execKilnSliceEnd (fail : Option (BitVec 24 × Fin 72)) (passEnds : Bool) (s : State) : Host.Outcome State Fault Refusal :=
  .next (match s.sliceRegion with
    | none => s
    | some n =>
      let s1 := (({ s with sliceRegion := none }.put F.KILN_STATUS_BUSY 0 false).put F.KILN_LAST_HI_DONE 0 true).wr F.KILN_LAST_LO_STEPS 0
        (s.rd F.KILN_LAST_LO_EXPECTED 0)
      s1.sliceResult n s.sliceMem fail passEnds)

/-- A write of KILN_CTL (R451, R457). -/
def State.kilnCtlWrite (s : State) (v : Nat) : State :=
  let s1 := s.wr F.KILN_CTL_RUN_EN 0 (F.KILN_CTL_RUN_EN.of v)
  if F.KILN_CTL_STOP.of v = 1 then s1.sliceStopped (List.range 139) else s1

/-- A write of KILN_CTL.STOP. -/
def execKilnStop (ag : Agent) (v : W32) (s : State) : Host.Outcome State Fault Refusal :=
  .next (s.writing ag .KILN_CTL 0 v.toNat fun t => (t.kilnCtlWrite v.toNat, .ok))

/-- Writes of Kiln's registers. -/
def State.kilnWrite (s : State) (r : Reg) (v : Nat) : Option (State × Status) :=
  match r with
  | .KILN_CTL => some (s.kilnCtlWrite v, .ok)
  | _ => none

end Sys2Proof.Machine
end

