-- ==== Sys2Proof/Machine/Mcv.lean ====
section
/-!
DEFINITION. The monitor converters (chapter 16): sequences, urgent requests, interleaved captures, the common trigger, references.
-/

namespace Sys2Proof.Machine

/-- ACQ values below 2 act as 2 (R464). -/
def acqOf (a : Nat) : Nat := max 2 a

/-- An input belongs to the pair of converter `c` (R463). -/
def inputOk (c input : Nat) : Bool := decide (input / 24 = c / 2)

/-- SHORT_ACQ of a conversion of `input` with `acq` on converter `c` (R471). -/
def State.shortAcq (s : State) (c input acq : Nat) : Nat :=
  match (s.conv c).last with
  | some l => bit (decide (l ≠ input) && decide (acqOf acq < s.rd F.MCV_IN_SETTLE input))
  | none => 0

/-- Converter `c` can convert: its region released and in use, its block in Blaze, its calibration ended, its reference on (R477, R478, Table 15-1); in STOPPED pairs
0 to 2 have no bias (R499). -/
def State.convReady (s : State) (c : Nat) : Bool :=
  !s.blocksHeld && !(s.lanesOff && decide (c < 6)) && !s.regionUntested 136 && !s.regionExcluded 136 && !s.blockAsleep (19 + c / 2) &&
    !s.on F.MCV_STATUS_CAL c && s.refOn (c / 2)

/-- The sequence of converter `c` is suspended: a capture of its pair records, or waits and has seen the end of its conversion (R474). -/
def State.suspended (s : State) (c : Nat) : Bool :=
  s.on F.MCV_CAP_STATUS_BUSY (c / 2) && ((s.cap (c / 2)).recording || !(s.cap (c / 2)).waitFor.contains c)

/-- An entry of the sequence of converter `c` is being converted. -/
def State.seqConverting (s : State) (c : Nat) : Bool :=
  (s.conv c).running.isSome && (s.conv c).urgNow.isNone && (s.conv c).simWith.isEmpty && s.convReady c && !s.suspended c

/-- The waiting members of a common trigger start once all of them can convert, so that their instant is common (R476). -/
def State.simGo (s : State) : State :=
  let waiting := (List.range 8).filter fun c => !(s.conv c).simWith.isEmpty
  let go := waiting.filter fun c => (s.conv c).simWith.all fun d => (s.conv d).simWith ≠ (s.conv c).simWith || s.convReady d
  go.foldl (fun t c => t.setConv c { t.conv c with simWith := [] }) s

/-- The entries of a sequence from `k` on will not be converted. -/
def State.seqDrop (s : State) (c k : Nat) : State :=
  (List.range (s.rd F.MCV_CTL_LEN c + 1)).foldl (fun t j => if k ≤ j then t.resultBack c j else t) s

/-- MCV_CTL.STOP: the sequence ends after the conversion in progress, at once when none of its conversions is; the periodic trigger is disarmed. -/
def State.convStop (s : State) (c : Nat) : State :=
  let x := s.conv c
  let s1 := s.setConv c { x with nextAt := none, held := false, stopping := x.running.isSome }
  match x.running with
  | none => s1
  | some k =>
    if s.seqConverting c then s1
    else (((s1.seqDrop c k).setConv c { s1.conv c with running := none, stopping := false, simWith := [] }).refSettle (c / 2)).simGo

/-- The period of converter `c` in units of 0.4 ns. -/
def State.convPeriod (s : State) (c : Nat) : Nat := max 1 (s.rd F.MCV_PERIOD_PERIOD c) * 2500

/-- MCV_CTL.GO: it arms the periodic trigger in mode 1, and starts a sequence in every mode. -/
def State.convGo (s : State) (c : Nat) : State :=
  let s1 := if s.rd F.MCV_CTL_TRIG c = 1 then s.setConv c { s.conv c with nextAt := some (s.time + s.convPeriod c) } else s
  s1.convTrigger c

/-- A write of MCV_CTL (R466, R467, R477). STOP acts before GO (log entry 30). -/
def State.mcvCtlWrite (s : State) (c v : Nat) : State × Status :=
  let changed := decide (F.MCV_CTL_LEN.of v ≠ s.rd F.MCV_CTL_LEN c) || decide (F.MCV_CTL_TRIG.of v ≠ s.rd F.MCV_CTL_TRIG c) ||
    decide (F.MCV_CTL_LP.of v ≠ s.rd F.MCV_CTL_LP c)
  if F.MCV_CTL_TRIG.of v = 3 then (s, .refusedState)
  else if s.convBusy c && changed then (s, .refusedState)
  else
    let s0 := if F.MCV_CTL_TRIG.of v = 1 then s else s.setConv c { s.conv c with nextAt := none }
    let s1 := ((((s0.wr F.MCV_CTL_LEN c (F.MCV_CTL_LEN.of v)).wr F.MCV_CTL_IRQ_URG c (F.MCV_CTL_IRQ_URG.of v)).wr F.MCV_CTL_IRQ_SEQ c
      (F.MCV_CTL_IRQ_SEQ.of v)).wr F.MCV_CTL_TRIG c (F.MCV_CTL_TRIG.of v)).wr F.MCV_CTL_LP c (F.MCV_CTL_LP.of v)
    let s2 := if F.MCV_CTL_STOP.of v = 1 then s1.convStop c else s1
    let s3 := if F.MCV_CTL_GO.of v = 1 then s2.convGo c else s2
    (s3.refSettle (c / 2), .ok)

def execMcvGo (ag : Agent) (c : Fin 8) (v : W32) (s : State) : Host.Outcome State Fault Refusal :=
  .next (s.writing ag .MCV_CTL c (v ||| 1#32).toNat fun t => t.mcvCtlWrite c (v ||| 1#32).toNat)

def execMcvStop (ag : Agent) (c : Fin 8) (v : W32) (s : State) : Host.Outcome State Fault Refusal :=
  .next (s.writing ag .MCV_CTL c (v ||| 2#32).toNat fun t => t.mcvCtlWrite c (v ||| 2#32).toNat)

/-- MCV_PERIOD has passed since the last trigger (R466): a sequence starts or an overrun counts; a pair outside Blaze is woken (R478). -/
def execMcvPeriodicTrigger (c : Fin 8) (s : State) : Host.Outcome State Fault Refusal :=
  .next (match (s.conv c).nextAt with
    | none => s
    | some t =>
      if s.time < t then s
      else
        let s1 := s.setConv c { s.conv c with nextAt := some (t + s.convPeriod c) }
        let n := 19 + c.val / 2
        (if s1.blockAsleep n then s1.wakeBlock n else s1).convTrigger c)

/-! ### Urgent requests (R472, R473) -/

/-- The next urgent request of converter `c` runs when none does. -/
def State.urgNext (s : State) (c : Nat) : State :=
  let x := s.conv c
  match x.urgNow, x.urgWait with
  | none, u :: us => (s.setConv c { x with urgNow := some u, urgWait := us }).resultDue c 16
  | _, _ => s

/-- A write of MCV_URGENT. -/
def State.urgentWrite (s : State) (c v : Nat) : State × Status :=
  let x := s.conv c
  let input := F.MCV_URGENT_INPUT.of v
  if !inputOk c input then (s, .refusedState)
  else if x.urgNow.isSome && decide (2 ≤ x.urgWait.length) then (s, .refusedState)
  else ((s.setConv c { x with urgWait := x.urgWait ++ [(input, F.MCV_URGENT_ACQ.of v)] }).urgNext c, .ok)

def execMcvUrgent (ag : Agent) (c : Fin 8) (v : W32) (s : State) : Host.Outcome State Fault Refusal :=
  .next (s.writing ag .MCV_URGENT c v.toNat fun t => t.urgentWrite c v.toNat)

/-- The thermal unit's reading of an input on converter 7: during a capture of pair 3 it takes the converter's next slot, and the input is then the one
sampled last (R471, R473, R475). -/
def State.thermalConv (s : State) (sensor : Nat) : State :=
  let x := s.conv 7
  let s1 := { s with thermalWait := false }.setConv 7
    (if (s.cap 3).recording then { x with missed := x.missed ++ [80 + sensor] } else { x with last := some (80 + sensor) })
  s1.refSettle 3

/-- Converter 7 cannot convert yet: the thermal unit's request waits for its reference and wakes its block (R473, R477, R478). -/
def State.thermalWaits (s : State) : State := { s with thermalWait := true }.wakeBlock 22

/-! ### Captures (R474, R475) -/

/-- A conversion is in progress on converter `c`. -/
def State.converting (s : State) (c : Nat) : Bool := s.seqConverting c || ((s.conv c).urgNow.isSome && s.convReady c)

/-- A member of an armed simultaneous trigger: TRIG is 2 (log entry 30). -/
def State.simArmed (s : State) (c : Nat) : Bool := s.rd F.MCV_CTL_TRIG c = 2

/-- START of a capture on pair `p`: it records once both converters have finished the conversion each has in progress. -/
def State.capStart (s : State) (p : Nat) : State :=
  let w := [2 * p, 2 * p + 1].filter fun c => s.converting c
  let s1 := ((s.put F.MCV_CAP_STATUS_BUSY p true).put F.MCV_CAP_STATUS_DONE p false).put F.MCV_CAP_STATUS_ABANDONED p false
  (s1.wr F.MCV_CAP_STATUS_COUNT p 0).setCap p { waitFor := w, recording := w.isEmpty }

/-- A write of MCV_CAP_CTL; a LEN that the running capture has already reached ends it (log entry 30). -/
def State.capCtlWrite (s : State) (p v : Nat) : State × Status :=
  let start := F.MCV_CAP_CTL_START.of v = 1
  let both := [2 * p, 2 * p + 1]
  if 24 ≤ F.MCV_CAP_CTL_INPUT.of v then (s, .refusedState)
  else if start ∧ (s.on F.MCV_CAP_STATUS_BUSY p ∨ both.any (fun c => s.on F.MCV_CTL_LP c) ∨ both.any fun c => s.simArmed c) then (s, .refusedState)
  else
    let s1 := (((s.wr F.MCV_CAP_CTL_LEN p (F.MCV_CAP_CTL_LEN.of v)).wr F.MCV_CAP_CTL_ACQ p (F.MCV_CAP_CTL_ACQ.of v)).wr F.MCV_CAP_CTL_INPUT p
      (F.MCV_CAP_CTL_INPUT.of v)).wr F.MCV_CAP_CTL_IRQ p (F.MCV_CAP_CTL_IRQ.of v)
    let s2 := if F.MCV_CAP_CTL_STOP.of v = 1 then s1.capAbandon p
      else if s1.on F.MCV_CAP_STATUS_BUSY p ∧ s1.rd F.MCV_CAP_CTL_LEN p < s1.rd F.MCV_CAP_STATUS_COUNT p then s1.capEnd p false else s1
    (if start then s2.capStart p else s2, .ok)

def execMcvCaptureStart (ag : Agent) (p : Fin 4) (v : W32) (s : State) : Host.Outcome State Fault Refusal :=
  .next (s.writing ag .MCV_CAP_CTL p (v ||| 1#32).toNat fun t => t.capCtlWrite p (v ||| 1#32).toNat)

def execMcvCaptureStop (ag : Agent) (p : Fin 4) (v : W32) (s : State) : Host.Outcome State Fault Refusal :=
  .next (s.writing ag .MCV_CAP_CTL p (v ||| 2#32).toNat fun t => t.capCtlWrite p (v ||| 2#32).toNat)

/-- An entry of the capture is recorded; the sampling instant of entry 0 lies 12 converter clocks before the end of its conversion (R464, R474). -/
def State.capRecord (s : State) (p w : Nat) : State :=
  let k := s.rd F.MCV_CAP_STATUS_COUNT p
  let t := s.time - 937
  let s0 := if k = 0 then (s.wr F.MCV_CAP_TS_LO_TIME p t).wr F.MCV_CAP_TS_HI_TIME p (t / 2 ^ 32) else s
  let s1 := (s0.st .mcvCap (256 * p + k) w).wr F.MCV_CAP_STATUS_COUNT p (k + 1)
  if s.rd F.MCV_CAP_CTL_LEN p ≤ k then s1.capEnd p false else s1

/-- The input a capture of pair `p` samples. -/
def State.capInput (s : State) (p : Nat) : Nat := 24 * p + s.rd F.MCV_CAP_CTL_INPUT p

/-! ### Conversions (R466, R468, R472 to R475) -/

/-- The urgent conversion of converter `c` completes. -/
def State.urgDone (s : State) (c data : Nat) (u : Nat × Nat) : State :=
  let s1 := s.resultDone c 16 data (s.shortAcq c u.1 u.2)
  let s2 := s1.setConv c { s1.conv c with urgNow := none, last := some u.1 }
  let s3 := if s2.on F.MCV_CTL_IRQ_URG c then s2.irq (477 + c) else s2
  s3.urgNext c

/-- The sequence conversion of entry `k` completes; the last entry, or a STOP, ends the sequence. -/
def State.seqDone (s : State) (c data k : Nat) : State :=
  let input := s.rd F.MCV_SEQ_INPUT (16 * c + k)
  let s1 := s.resultDone c k data (s.shortAcq c input (s.rd F.MCV_SEQ_ACQ (16 * c + k)))
  let x := { s1.conv c with last := some input }
  if s1.rd F.MCV_CTL_LEN c ≤ k then
    let s2 := s1.setConv c { x with running := none, stopping := false }
    if s2.on F.MCV_CTL_IRQ_SEQ c then s2.irq (477 + c) else s2
  else if x.stopping then (s1.seqDrop c (k + 1)).setConv c { x with running := none, stopping := false }
  else (s1.setConv c { x with running := some (k + 1) }).wr F.MCV_STATUS_ENTRY c (k + 1)

/-- The capture of the pair no longer waits for converter `c`. -/
def State.capSettle (s : State) (c : Nat) : State :=
  let x := s.cap (c / 2)
  if s.on F.MCV_CAP_STATUS_BUSY (c / 2) && !x.recording then
    let w := x.waitFor.filter fun d => d ≠ c
    s.setCap (c / 2) { waitFor := w, recording := w.isEmpty }
  else s

/-- A slot of the capture: a thermal or an urgent request takes it, else the entry is recorded. -/
def State.slotDone (s : State) (c data : Nat) : State :=
  let p := c / 2
  let x := s.conv c
  let input := s.capInput p
  match x.missed, x.urgNow with
  | m :: ms, _ => (s.setConv c { x with missed := ms, last := some m }).capRecord p 0x8000
  | [], some u => (s.urgDone c data u).capRecord p 0x8000
  | [], none =>
    let w := data + 0x4000 * s.shortAcq c input (s.rd F.MCV_CAP_CTL_ACQ p)
    (s.setConv c { x with last := some input }).capRecord p w

/-- A conversion of converter `c` completes with a code. -/
def State.convDone (s : State) (c data : Nat) : State :=
  let x := s.conv c
  if (s.cap (c / 2)).recording then
    if s.rd F.MCV_CAP_STATUS_COUNT (c / 2) % 2 = c % 2 then s.slotDone c data else s
  else match x.urgNow, x.running with
    | some u, _ => ((s.urgDone c data u).capSettle c).refSettle (c / 2)
    | none, some k =>
      if s.suspended c || !x.simWith.isEmpty then s else ((s.seqDone c data k).capSettle c).refSettle (c / 2)
    | none, none => s

def execMcvConversionDone (c : Fin 8) (data : BitVec 12) (s : State) : Host.Outcome State Fault Refusal :=
  .next (if s.convReady c then s.convDone c data.toNat else s)

/-! ### The common trigger (R476) -/

/-- The converters a write of MCV_SIM_TRIG names. -/
def simNamed (v : Nat) : List Nat := (List.range 8).filter fun c => v.testBit c

/-- Converter `c` takes part in the common trigger. -/
def State.simJoins (s : State) (c : Nat) : Bool := s.simArmed c && !s.convBusy c

/-- A write of MCV_SIM_TRIG. -/
def State.simTrig (s : State) (ag : Agent) (v : Nat) : State × Status :=
  let named := simNamed v
  if (match ag with | .table b => named.any (fun c => s.owner (.conv c) ≠ b.val) | _ => false) then (s, .notOwner)
  else
    let members := named.filter fun c => s.simJoins c
    let s1 := (members.foldl (fun t c => t.seqStart c members) s).simGo
    ((named.filter fun c => !s.simJoins c).foldl (fun t c => t.bump F.MCV_STATUS_OVERRUNS c 1) s1, .ok)

def execMcvSimTrig (ag : Agent) (v : W32) (s : State) : Host.Outcome State Fault Refusal :=
  .next (s.writing ag .MCV_SIM_TRIG 0 v.toNat fun t => t.simTrig ag v.toNat)

/-! ### References and calibration (R464, R477) -/

/-- The reference of a pair finishes its wake (R477). -/
def execReferenceWake (p : Fin 4) (s : State) : Host.Outcome State Fault Refusal :=
  .next (if s.refWanted p && !s.refOn p then (s.setRef p true).simGo else s)

/-- A pair woken from Bank or Smoulder calibrates both converters. -/
def State.convCal (s : State) (p : Nat) : State := (s.put F.MCV_STATUS_CAL (2 * p) true).put F.MCV_STATUS_CAL (2 * p + 1) true

/-- The calibration of a converter ends; a failed one drives error line 42 with cause 2. -/
def execConverterCalibrationEnd (c : Fin 8) (failed : Bool) (s : State) : Host.Outcome State Fault Refusal :=
  .next (if s.on F.MCV_STATUS_CAL c then
    let s1 := (s.put F.MCV_STATUS_CAL c false).simGo
    if failed then s1.errorLine 42 c 2 else s1
  else s)

/-! ### Registers (R479) -/

/-- A write of a sequence entry (R466, R467). -/
def State.seqWrite (s : State) (i v : Nat) : State × Status :=
  let c := i / 16
  if !inputOk c (F.MCV_SEQ_INPUT.of v) || s.convBusy c then (s, .refusedState)
  else ((s.wr F.MCV_SEQ_ACQ i (F.MCV_SEQ_ACQ.of v)).wr F.MCV_SEQ_INPUT i (F.MCV_SEQ_INPUT.of v), .ok)

/-- Writes of the converters' registers. -/
def State.mcvWrite (s : State) (ag : Agent) (r : Reg) (i v : Nat) : Option (State × Status) :=
  match r with
  | .MCV_SIM_TRIG => some (s.simTrig ag v)
  | .MCV_CAP_CTL => some (s.capCtlWrite i v)
  | .MCV_CTL => some (s.mcvCtlWrite i v)
  | .MCV_URGENT => some (s.urgentWrite i v)
  | .MCV_SEQ => some (s.seqWrite i v)
  | _ => none

/-- Reads of the converters' registers that are views. -/
def State.mcvRead (s : State) (r : Reg) (i : Nat) : Option Nat :=
  match r with
  | .MCV_STATUS => some (s.word .MCV_STATUS i + 16 * (s.conv i).urgWait.length + 2 * bit (s.on F.MCV_CAP_STATUS_BUSY (i / 2)) + bit (s.convBusy i))
  | .MCV_CAP_DATA => some (s.ld .mcvCap (256 * i + s.rd F.MCV_CAP_ADDR_ENTRY i))
  | _ => none

/-- A read of MCV_CAP_DATA advances the entry address (R475). -/
def State.capDataRead (s : State) (p : Nat) : State × Nat :=
  (s.bumpWrap F.MCV_CAP_ADDR_ENTRY p 1, s.ld .mcvCap (256 * p + s.rd F.MCV_CAP_ADDR_ENTRY p))

def execMcvCapData (ag : Agent) (p : Fin 4) (s : State) : Host.Outcome State Fault Refusal :=
  .next (s.reading ag .MCV_CAP_DATA p fun t => t.capDataRead p)

/-- A read of a result register returns it and clears FRESH (R469). -/
def State.resultRead (s : State) (c k : Nat) : State × Nat :=
  (s.wrRes (resFresh c k) 0, if k < 16 then s.word .MCV_RESULT (16 * c + k) else s.word .MCV_URG_RESULT c)

def execMcvResultRead (ag : Agent) (c : Fin 8) (k : Fin 17) (s : State) : Host.Outcome State Fault Refusal :=
  .next (if k.val < 16 then s.reading ag .MCV_RESULT (16 * c.val + k.val) fun t => t.resultRead c k
    else s.reading ag .MCV_URG_RESULT c fun t => t.resultRead c k)

end Sys2Proof.Machine
end

