-- ==== Sys2Proof/Machine/Chain.lean ====
section
/-!
DEFINITION. The first stages of a lane's decimation chain (R334 to R338): mean, CIC, anti-alias filter, mixer. Values are in units of 1/256 ADC LSB, lists
oldest first.
-/

namespace Sys2Proof.Machine

/-- Samples that stage 1 takes into one output: 80 or 40 in Lit, one in Warm (Table 9-1). -/
def State.decGroup (s : State) (n : Nat) : Nat := if s.rd F.LANE_DEC_STATUS_INPUT n = 2 then 1 else s.slots n

/-- Samples between two outputs of the chain: R2 of stage 2, 2 of stage 3, D4 of stage 4 (Table 9-2). -/
def State.decSamples (s : State) (n : Nat) : Nat :=
  let p := s.rd F.LANE_DEC_CFG_PROFILE n
  s.decGroup n * decR2 p * 2 * decD4 p

/-- Stage 1: the mean of each group of samples; in Warm each spare sample, gain-matched to that mean (Table 9-1). -/
def State.stageOne (s : State) (n : Nat) (xs : List (Nat × Bool)) : List Int :=
  if s.rd F.LANE_DEC_STATUS_INPUT n = 2 then
    xs.map fun x => Config.gainMatch (s.ld .rxCoef (n * 0x10000 + 0x200 + s.rd F.LANE_SEASON_STATUS_SPARE_POS n)) (256 * codeVal x)
  else (blocksOf (s.slots n) xs.length xs).map fun b => roundDiv (256 * b.foldl (fun a x => a + codeVal x) 0) (s.slots n)

/-- The sums of each run of `r` values in a row. -/
def runSums (r : Nat) (l : List Int) : List Int := (List.range (l.length + 1 - r)).map fun i => ((l.drop i).take r).foldl (· + ·) 0

/-- Every `d`-th value, the last of each group. -/
def everyNth (d : Nat) (l : List Int) : List Int := (l.zipIdx.filter fun e => decide (e.2 % d + 1 = d)).map fun e => e.1

/-- The last `k` values of a list that is as long as needed, with zeros before it. -/
def lastOf (k : Nat) (l : List Int) : List Int := (List.replicate k 0 ++ l).drop l.length

/-- Stage 2: a fourth-order CIC that keeps every `r`-th value, its gain for a constant normalised to 1. -/
def stageTwo (r : Nat) (hist new : List Int) : List Int :=
  (everyNth r (runSums r (runSums r (runSums r (runSums r (lastOf (4 * (r - 1)) hist ++ new)))))).map fun v => roundDiv v (r ^ 4)

/-- Stage 3: 32 taps on the values of stage 2, every second one kept. -/
def State.stageThree (s : State) (n : Nat) (hist new : List Int) : List Int :=
  let l := lastOf 31 hist ++ new
  everyNth 2 ((List.range new.length).map fun i =>
    roundDiv ((List.range 32).foldl (fun a k => a + sval 32 (s.ld .decCoef (n * 0x1000 + 0x100 + k)) * l.getD (31 + i - k) 0) 0) 16384)

/-- The oscillator's cosine at a phase, 16 bits wide, with spurs at or below -90 dBc: the exact value but for one least bit (R337, log entry 37). -/
def ncoCos (p : Nat) : Int := clampInt (-32767) 32767 (cosScaled 32767 (p % 2 ^ 32 * 2 ^ 32) + (Config.ncoError (p % 2 ^ 32) % 3 : Nat) - 1)

/-- Its sine, the cosine a quarter turn earlier. -/
def ncoSin (p : Nat) : Int := ncoCos (p + 3 * 2 ^ 30)

/-- The mixer: each value turned by -f_NCO, the phase advancing by INC; without MIX_EN the value itself (R336, R337). -/
def State.mix (s : State) (n phase : Nat) : List Int → List (Int × Int)
  | [] => []
  | x :: l =>
    let turned := (roundDiv (x * ncoCos phase) 32768, roundDiv (-(x * ncoSin phase)) 32768)
    (if s.on F.LANE_DEC_CFG_MIX_EN n then turned else (x, 0)) :: s.mix n ((phase + s.rd F.LANE_DEC_NCO_INC n) % 2 ^ 32) l

/-- The samples of one output through the stages before stage 4: what they leave behind and the new inputs of stage 4. -/
def State.decStages (s : State) (n : Nat) (xs : List (Nat × Bool)) : State × List (Int × Int) :=
  let d := s.decOf n
  let p := s.rd F.LANE_DEC_CFG_PROFILE n
  let a := s.stageOne n xs
  let b := stageTwo (decR2 p) d.means a
  let c := s.stageThree n d.combs b
  (s.setDec n { d with means := lastOf 252 (d.means ++ a), combs := lastOf 31 (d.combs ++ b)
                       phase := (d.phase + s.rd F.LANE_DEC_NCO_INC n * c.length) % 2 ^ 32 }, s.mix n d.phase c)

end Sys2Proof.Machine
end

