-- ==== Sys2Proof/Machine/Correlator.lean ====
section
/-!
DEFINITION. The Smoke receiver from the chain output to peaks and decided symbols (R362, R364, R366): gain loop, resampler, dechirp, transform. What R362
leaves open of it is log entry 49.
-/

namespace Sys2Proof.Machine

/-! ### Resampling to one sample per chip (R362, R364) -/

/-- The degree-four polynomial through five outputs, newest first, in a component, at `t` ÷ `d` outputs before the newest. -/
def interpolate (l : List Int) (t d : Nat) : Int :=
  let weight (i : Nat) : Int := [1, -4, 6, -4, 1].getD i 0 * ([0, 1, 2, 3, 4].filter (· ≠ i)).foldl (fun a j => a * ((t : Int) - j * d)) 1
  roundDiv ((List.range 5).foldl (fun a i => a + weight i * l.getD i 0) 0) (24 * d ^ 4)

/-- A sample of the resampled stream: zero where it draws on an output that was replaced (R362, R364). -/
def chipOf (taps : List (Int × Int × Bool)) (t d : Nat) : Int × Int :=
  if taps.all fun x => x.2.2 then (interpolate (taps.map fun x => x.1) t d, interpolate (taps.map fun x => x.2.1) t d) else (0, 0)

/-! ### Dechirp and transform (R355, R361, R362) -/

/-- The magnitude of a window of 2^SF chips, oldest first, against the up-chirp of value `k` with a frequency offset in hertz: the window is dechirped and
transformed at bin `k`. -/
def binMagnitude (sf hertz : Nat) (freq : Int) (window : List (Int × Int)) (k : Nat) : Nat :=
  let sum := window.zipIdx.foldl (fun (a : Int × Int) x =>
    if x.1 = (0, 0) then a
    else
      let m := x.2
      let angle := ((((m * m + 2 ^ sf * m + 2 * k * m) * 2 ^ (63 - sf) : Nat) : Int) + freq * m * 2 ^ 64 / hertz) % 2 ^ 64
      let c := cosScaled 32767 angle.toNat
      let d := cosScaled 32767 (angle.toNat + 3 * 2 ^ 62)
      (a.1 + x.1.1 * c + x.1.2 * d, a.2 + x.1.2 * c - x.1.1 * d)) (0, 0)
  rootNat 2 (sum.1 * sum.1 + sum.2 * sum.2).toNat 96 0

/-- The peak of a window: its bin (the lowest of equal ones), its magnitude, the sum of all bin magnitudes. -/
def windowPeak (sf hertz : Nat) (freq : Int) (window : List (Int × Int)) : Nat × Nat × Nat :=
  (List.range (2 ^ sf)).foldl (fun a k =>
    let v := binMagnitude sf hertz freq window k
    (if a.2.1 < v then k else a.1, max a.2.1 v, a.2.2 + v)) (0, 0, 0)

/-! ### The stream of chips -/

/-- The chirp bandwidth of a Smoke modem in hertz and its spreading factor (Table 10-1). -/
def State.smokeHertz (s : State) (n : Nat) : Nat := 125000 * 2 ^ min 2 (s.rd F.SMOKE_CFG_BW n)
def State.smokeSf (s : State) (n : Nat) : Nat := clampNat 6 12 (s.rd F.SMOKE_CFG_SF n)

/-- One chip at the detectors: their window fills, and its peak is kept with those of the four windows before (R362). -/
def SmokeRx.detectorChip (x : SmokeRx) (sf hertz : Nat) (z : Int × Int) : SmokeRx :=
  let win := z :: x.win
  let x1 := { x with behind := if x.second.isSome then z :: x.behind else [] }
  if 2 ^ sf ≤ win.length then { x1 with win := [], last := (windowPeak sf hertz 0 win.reverse :: x.last).take 5 } else { x1 with win := win }

/-- One chip of a frame's header or payload: its symbols are decided one by one, and the spacing of the chips follows the timing, by at most 0.1 % (R362, R363). -/
def SmokeRx.frameChip (x : SmokeRx) (sf hertz outputs : Nat) (z : Int × Int) : SmokeRx :=
  let sym := z :: x.sym
  if 2 ^ sf ≤ sym.length then
    { x with sym := [], syms := x.syms ++ [(windowPeak sf hertz x.freq sym.reverse).1]
             rate := ((Config.chipRate sym % (2 * outputs + 1) : Nat) : Int) - outputs }
  else { x with sym := sym }

/-- One chip in a state of Table 10-3: SYNC keeps it until the timing is estimated, HEADER and PAYLOAD decide symbols. -/
def SmokeRx.chip (x : SmokeRx) (state sf hertz outputs : Nat) (z : Int × Int) : SmokeRx :=
  let x1 := x.detectorChip sf hertz z
  match state with
  | 2 => { x1 with held := z :: x1.held }
  | 3 | 4 => x1.frameChip sf hertz outputs z
  | _ => x1

/-- One chain output, `clear` unless it was replaced. A chip spans `outputs` ÷ `per` outputs, changed by `rate` thousandths (at most 0.1 %, R363). -/
def SmokeRx.feed (x : SmokeRx) (state sf hertz outputs per : Nat) (o : Int × Int × Bool) : SmokeRx :=
  let x1 := { x with taps := (o :: x.taps).take 5, phase := x.phase + 1000 * per }
  let span := ((1000 * outputs : Nat) : Int) + x.rate
  if span ≤ x1.phase then
    let left := ((x1.phase : Int) - span).toNat
    { x1 with phase := left }.chip state sf hertz outputs (chipOf x1.taps (2000 * per + left) (1000 * per))
  else x1

/-! ### The gain loop (R366) -/

/-- Chain outputs in one Smoke symbol, rounded up. -/
def State.symbolOutputs (s : State) (n : Nat) : Nat :=
  let p := s.rd F.LANE_DEC_CFG_PROFILE n
  let den := s.smokeHertz n * 2 * decR2 p * decD4 p
  (2 ^ s.smokeSf n * s.decF1 n + den - 1) / den

/-- The mean square after one more output of square `x`: a first-order average with a time constant of Ts ÷ 4, a quarter of the outputs of a symbol (R366; its law is
the model's choice, log entry 49). -/
def meanSquare (p x outputs : Nat) : Nat := (p * (max 1 (outputs / 4) - 1) + x * 65536) / max 1 (outputs / 4)

/-- 256 times the rms that the gain loop holds. -/
def SmokeS.rms (x : SmokeS) : Nat := max 1 (rootNat 2 x.power 40 0)

/-- A component scaled so that the rms of the outputs becomes the fixed level (R366). -/
def SmokeS.scaled (x : SmokeS) (v : Int) : Int := v * 256 * (Config.smokeLevel : Int) / (x.rms : Int)

/-- An output reaches the Smoke receiver that owns the chain: the gain loop follows it until it is frozen, and an output with TRANSITION, UNSETTLED, OVR or
SAT is replaced by zero (R364, R366). -/
def State.smokeInput (s : State) (n : Nat) (i q : Int) (flags : Nat) : State :=
  if s.on F.LANE_DEC_CFG_SMOKE_OWNED n then
    let x := s.smk n
    let p := s.rd F.LANE_DEC_CFG_PROFILE n
    let clear := decide (flags % 16 = 0)
    let power := if x.gainLeft = some 0 then x.power else meanSquare x.power (if clear then (i * i + q * q).toNat else 0) (s.symbolOutputs n)
    let y := { x with power := power, gainLeft := x.gainLeft.map fun k => k - 1 }
    let out := if clear then (y.scaled i, y.scaled q, true) else (0, 0, false)
    s.setSmk n { y with rx := y.rx.feed (s.rd F.SMOKE_STATUS_RX_STATE n) (s.smokeSf n) (s.smokeHertz n) (s.decF1 n)
                          (s.smokeHertz n * 2 * decR2 p * decD4 p) out }
  else s

/-! ### Detection and timing (R362, R367) -/

/-- A decided bin within one of its value, modulo the bins of a symbol. -/
def binNear (sf a b : Nat) : Bool := decide ((a + 2 ^ sf + 1 - b % 2 ^ sf) % 2 ^ sf ≤ 2)

/-- A peak of magnitude `p` over the mean of 2^SF bin magnitudes that sum to `sum`, in 0.25 dB, at most 255. -/
def peakRatio (sf p sum : Nat) : Nat := (List.range 255).foldl (fun a q => if sum ^ 80 * 10 ^ (q + 1) ≤ (p * 2 ^ sf) ^ 80 then q + 1 else a) 0

/-- A magnitude referred to the chain output: what it would be without the gain. -/
def SmokeS.atInput (x : SmokeS) (magnitude : Nat) : Nat := magnitude * x.rms

/-- The detection rule: the last five windows of Ts peak in the same bin within one, each above its mean bin magnitude by DET_THR (R362). The answer is the
peak of the last window, at the chain output, and that peak over the mean. -/
def State.detects (s : State) (n : Nat) : Option (Nat × Nat) :=
  let x := s.smk n
  let sf := s.smokeSf n
  let thr := s.rd F.SMOKE_CFG_DET_THR n + 4
  match x.rx.last with
  | [a, b, c, d, e] =>
    let five := [a, b, c, d, e]
    let same := (List.range (2 ^ sf)).any fun r => five.all fun w => binNear sf w.1 r
    let high := five.all fun w => decide (w.2.2 ^ 20 * 10 ^ thr < (w.2.1 * 2 ^ sf) ^ 20)
    if high && same then some (x.atInput a.2.1, peakRatio sf a.2.1 a.2.2) else none
  | _ => none

/-- The timing estimate: the sync chirps begin at chip `start` since the detection and the stream is late by `late` ÷ 256 chip. None before the 4.25
symbols of sync chirps and down-chirps are in; else the decided sync chirps and the receiver at the header (R362, Table 10-2). -/
def SmokeRx.aligned (x : SmokeRx) (sf hertz start late : Nat) (freq : Int) (outputs : Nat) : Option (Nat × Nat × SmokeRx) :=
  let chips := x.held.reverse.drop start
  let decided (k : Nat) : Nat := (windowPeak sf hertz freq ((chips.drop (k * 2 ^ sf)).take (2 ^ sf))).1
  let used := 4 * 2 ^ sf + 2 ^ sf / 4
  if used ≤ chips.length then
    let x1 := { x with held := [], sym := [], syms := [], freq := freq, phase := x.phase + 1000 * outputs * late / 256 }
    some (decided 0, decided 1, (chips.drop used).foldl (fun y z => y.frameChip sf hertz outputs z) x1)
  else none

end Sys2Proof.Machine
end

