-- ==== Sys2Proof/Machine/DecMon.lean ====
section
/-!
DEFINITION. Decimation chain and lane monitors (chapter 09).
-/

namespace Sys2Proof.Machine

/-! ### Coefficients and cross-fade (R338 to R341) -/

/-- A stage-4 tap of a bank. -/
def State.decTap (s : State) (n bank k : Nat) : Int := sval 32 (s.ld .decCoef (n * 0x1000 + bank * 128 + k))

/-- A write of LANE_DEC_CFG (R338, R343, R345). -/
def State.decCfgWrite (s : State) (n v : Nat) : State × Status :=
  if s.on F.LANE_DEC_CFG_SMOKE_OWNED n then (s, .refusedState)
  else
    let s1 := (s.wr F.LANE_DEC_CFG_EN n (F.LANE_DEC_CFG_EN.of v)).wr F.LANE_DEC_CFG_MIX_EN n (F.LANE_DEC_CFG_MIX_EN.of v)
    ((s1.decProfile n (F.LANE_DEC_CFG_PROFILE.of v)).decTrack n, .ok)

def execLaneDecCfgWrite (ag : Agent) (n : Fin 48) (v : W32) (s : State) : Host.Outcome State Fault Refusal :=
  .next (s.writing ag .LANE_DEC_CFG n.val v.toNat fun t => t.decCfgWrite n.val v.toNat)

/-- INDEX advances, wrapping from 0x1FF to 0. -/
def State.decIndexNext (s : State) (n : Nat) : State := s.wr F.LANE_DEC_COEF_ADDR_INDEX n (s.rd F.LANE_DEC_COEF_ADDR_INDEX n + 1)

/-- A write of LANE_DEC_COEF_DATA: not to the active bank, nor to either during a cross-fade; one to stage 3 is a filter change (R340, R343). -/
def State.decDataWrite (s : State) (n v : Nat) : State × Status :=
  let k := s.rd F.LANE_DEC_COEF_ADDR_INDEX n
  let store (t : State) : State := t.decStore n k (sext32 16 v)
  if s.on F.LANE_DEC_CFG_SMOKE_OWNED n then (s, .refusedState)
  else if k < 0x100 then
    (if s.on F.LANE_DEC_STATUS_XFADE_BUSY n || decide (k / 128 = s.rd F.LANE_DEC_STATUS_ACTIVE_BANK n) then (s, .refusedState)
     else ((store s).decIndexNext n, .ok))
  else if k < 0x120 then (((store s).unsettle n).decIndexNext n, .ok)
  else (s.decIndexNext n, .ok)

/-- A read of LANE_DEC_COEF_DATA. -/
def State.decDataRead (s : State) (n : Nat) : State × Option Nat :=
  let k := s.rd F.LANE_DEC_COEF_ADDR_INDEX n
  if 0x120 ≤ k then (s.decIndexNext n, some 0)
  else
    let r := s.memReadL 6 (laneWord n (0x400 + k)) (s.ld .decCoef (n * 0x1000 + k))
    ((r.1.decIndexNext n).laneLines n (r.2.1 = .bad) r.2.2, r.2.1.value)

def execLaneDecCoefData (ag : Agent) (n : Fin 48) (write : Option W32) (s : State) : Host.Outcome State Fault Refusal :=
  match write with
  | some v => .next (s.writing ag .LANE_DEC_COEF_DATA n.val v.toNat fun t => t.decDataWrite n.val v.toNat)
  | none => .next (s.readingMem ag .LANE_DEC_COEF_DATA n.val fun t => t.decDataRead n.val)

/-- A write of LANE_DEC_SWITCH (R341). -/
def State.decSwitch (s : State) (n v : Nat) : State × Status :=
  if s.on F.LANE_DEC_CFG_SMOKE_OWNED n then (s, .refusedState)
  else if F.LANE_DEC_SWITCH_SWITCH.of v = 0 then (s, .ok)
  else if s.on F.LANE_DEC_STATUS_XFADE_BUSY n then (s, .refusedState)
  else if s.on F.LANE_DEC_STATUS_RUNNING n then
    ((s.put F.LANE_DEC_STATUS_XFADE_BUSY n true).wr F.LANE_DEC_STATUS_TRANSITION_LEFT n 64, .ok)
  else (s.wr F.LANE_DEC_STATUS_ACTIVE_BANK n (1 - s.rd F.LANE_DEC_STATUS_ACTIVE_BANK n), .ok)

def execDecSwitch (ag : Agent) (n : Fin 48) (v : W32) (s : State) : Host.Outcome State Fault Refusal :=
  .next (s.writing ag .LANE_DEC_SWITCH n.val v.toNat fun t => t.decSwitch n.val v.toNat)

/-! ### Outputs (R335, R336, R341 to R344) -/

/-- The sum of a bank's taps over the delay line, for the chosen component. -/
def State.decSum (s : State) (n bank taps : Nat) (line : List Int) : Int :=
  ((List.range taps).map fun k => s.decTap n bank k * line.getD k 0).foldl (· + ·) 0

/-- One component of an output before saturation: during a cross-fade output k is (1 − w) y_old + w y_new with w = (k + 1) ÷ 64. -/
def State.decValue (s : State) (n : Nat) (line : List Int) : Int :=
  let taps := decT4 (s.rd F.LANE_DEC_CFG_PROFILE n)
  let a := s.rd F.LANE_DEC_STATUS_ACTIVE_BANK n
  let left := s.rd F.LANE_DEC_STATUS_TRANSITION_LEFT n
  if left = 0 then roundDiv (s.decSum n a taps line) 16384
  else
    let w := 65 - left
    roundDiv ((64 - w : Nat) * s.decSum n a taps line + w * s.decSum n (1 - a) taps line) (64 * 16384)

/-- An output is recorded by the capture (R346). -/
def State.decCapRecord (s : State) (n i q flags ts : Nat) : State :=
  let d := s.decOf n
  let count := s.rd F.LANE_DEC_CAP_STATUS_COUNT n
  if !s.on F.LANE_DEC_CAP_STATUS_BUSY n || (!d.capOn && d.capWait && decide (flags % 4 ≠ 0)) then s
  else
    let s1 := (s.setDec n { d with capOn := true }).st .capBuf (n * 1024 + count) (i + q * 2 ^ 16 + flags * 2 ^ 32)
    let s2 := if count = 0 then (s1.wr F.LANE_DEC_CAP_TS_LO_TIME n ts).wr F.LANE_DEC_CAP_TS_HI_TIME n (ts / 2 ^ 32) else s1
    let s3 := (s2.wr F.LANE_DEC_CAP_STATUS_COUNT n (count + 1)).wr F.LANE_DEC_CAP_STATUS_FLAGS_SEEN n
      (Nat.lor (s2.rd F.LANE_DEC_CAP_STATUS_FLAGS_SEEN n) flags)
    if d.capLen ≤ count + 1 then (s3.put F.LANE_DEC_CAP_STATUS_BUSY n false).put F.LANE_DEC_CAP_STATUS_DONE n true else s3

/-- An output passes: the unsettled and transition counts fall; the last output of a cross-fade makes the new bank active. -/
def State.decCount (s : State) (n : Nat) : State :=
  let u := s.rd F.LANE_DEC_STATUS_UNSETTLED_LEFT n
  let left := s.rd F.LANE_DEC_STATUS_TRANSITION_LEFT n
  let s1 := s.wr F.LANE_DEC_STATUS_UNSETTLED_LEFT n (u - 1)
  if left = 1 then s1.xfadeEnd n else s1.wr F.LANE_DEC_STATUS_TRANSITION_LEFT n (left - 1)

/-- The chain delivers one output from new stage-4 inputs, oldest first, in units of 1/256 ADC LSB. -/
def State.decOutput (s : State) (n : Nat) (inputs : List (Int × Int)) (ovr : Bool) (ts : Nat) : State :=
  let d := s.decOf n
  let line := (inputs.reverse ++ d.line).take 128
  let i := s.decValue n (line.map fun x => x.1)
  let q := if s.on F.LANE_DEC_CFG_MIX_EN n then s.decValue n (line.map fun x => x.2) else 0
  let sat := decide (32767 < i ∨ i < -32767 ∨ 32767 < q ∨ q < -32767)
  let flags := bit (s.rd F.LANE_DEC_STATUS_TRANSITION_LEFT n ≠ 0) + 2 * bit (s.rd F.LANE_DEC_STATUS_UNSETTLED_LEFT n ≠ 0) + 4 * bit ovr + 8 * bit sat +
    16 * bit (s.rd F.LANE_DEC_STATUS_INPUT n = 2)
  let out (v : Int) : Int := clampInt (-32767) 32767 v
  let s1 := (s.setDec n { d with line := line }).decCapRecord n (sfield 16 (out i)) (sfield 16 (out q)) flags ts
  (s1.smokeInput n (out i) (out q) flags).decCount n

/-- The time-stamp of an output that leaves now: G and the processing latency earlier (R339, R344). -/
def State.decStamp (s : State) (n : Nat) : Nat :=
  (s.time + 2 ^ 64 - (s.decDelay n + Config.chainLatency n (decide (s.rd F.LANE_DEC_STATUS_INPUT n = 2)) % 2 ^ 32)) % 2 ^ 64

/-- The samples since the last output: full samples in Lit, the spare's in Warm (R334). Once all the samples of an output are in, it leaves the chain. -/
def execDecOutput (n : Fin 48) (samples : List AdcIn) (s : State) : Host.Outcome State Fault Refusal :=
  .next (
    let xs := (samples.map AdcIn.convert).take (s.decSamples n.val)
    if s.on F.LANE_DEC_STATUS_RUNNING n.val && decide (xs.length = s.decSamples n.val) then
      let s1 := s.laneScan n.val 0x400 0x520
      let x := s1.decStages n.val xs
      x.1.decOutput n.val x.2 (xs.any fun a => a.2) (s.decStamp n.val)
    else s)

/-! ### Capture buffer (R346) -/

/-- A write of LANE_DEC_CAP_CTL. -/
def State.decCapCtlWrite (s : State) (n v : Nat) : State × Status :=
  let busy := s.on F.LANE_DEC_CAP_STATUS_BUSY n
  let start := F.LANE_DEC_CAP_CTL_START.of v = 1
  if start ∧ busy then (s, .refusedState)
  else
    let s1 := (s.wr F.LANE_DEC_CAP_CTL_LEN n (F.LANE_DEC_CAP_CTL_LEN.of v)).wr F.LANE_DEC_CAP_CTL_WAIT_SETTLED n (F.LANE_DEC_CAP_CTL_WAIT_SETTLED.of v)
    if start then
      let s2 := (s1.clearMem .capBuf fun k => k / 1024 = n).setDec n { s1.decOf n with
        capLen := clampNat 1 1024 (F.LANE_DEC_CAP_CTL_LEN.of v), capWait := F.LANE_DEC_CAP_CTL_WAIT_SETTLED.of v = 1, capOn := false }
      let s3 := (s2.wr F.LANE_DEC_CAP_STATUS_COUNT n 0).wr F.LANE_DEC_CAP_STATUS_FLAGS_SEEN n 0
      (((s3.put F.LANE_DEC_CAP_STATUS_ABANDONED n false).put F.LANE_DEC_CAP_STATUS_DONE n false).put F.LANE_DEC_CAP_STATUS_BUSY n true, .ok)
    else if F.LANE_DEC_CAP_CTL_STOP.of v = 1 ∧ busy then
      ((s1.put F.LANE_DEC_CAP_STATUS_BUSY n false).put F.LANE_DEC_CAP_STATUS_DONE n true, .ok)
    else (s1, .ok)

def execDecCaptureStart (ag : Agent) (n : Fin 48) (v : W32) (s : State) : Host.Outcome State Fault Refusal :=
  .next (s.writing ag .LANE_DEC_CAP_CTL n.val v.toNat fun t => t.decCapCtlWrite n.val v.toNat)

def execDecCaptureStop (ag : Agent) (n : Fin 48) (v : W32) (s : State) : Host.Outcome State Fault Refusal :=
  .next (s.writing ag .LANE_DEC_CAP_CTL n.val v.toNat fun t => t.decCapCtlWrite n.val v.toNat)

/-- The entry that LANE_DEC_CAP_ADDR names. -/
def State.decCapEntry (s : State) (n : Nat) : Nat := s.ld .capBuf (n * 1024 + s.rd F.LANE_DEC_CAP_ADDR_INDEX n)

/-- A read of LANE_DEC_CAP_DATA_LO: the index advances, wrapping from 1,023 to 0. -/
def State.decCapDataRead (s : State) (n : Nat) : State × Nat :=
  (s.wr F.LANE_DEC_CAP_ADDR_INDEX n (s.rd F.LANE_DEC_CAP_ADDR_INDEX n + 1), s.decCapEntry n % 2 ^ 32)

/-! ### Monitors (R347 to R350) -/

/-- A write of LANE_MON_CTL (R348, R349). -/
def State.monCtlWrite (s : State) (n v : Nat) : State × Status :=
  let start := F.LANE_MON_CTL_START.of v = 1
  let fields := [F.LANE_MON_CTL_LOG2, F.LANE_MON_CTL_PHASE, F.LANE_MON_CTL_LEVEL, F.LANE_MON_CTL_LEVEL_EN, F.LANE_MON_CTL_MODE]
  if s.on F.LANE_MON_STATUS_BUSY n then
    if start ∨ fields.any (fun f => f.of v ≠ s.rd f n) then (s, .refusedState)
    else if F.LANE_MON_CTL_STOP.of v = 1 then
      (((s.put F.LANE_MON_STATUS_BUSY n false).put F.LANE_MON_STATUS_PAUSED n false).put F.LANE_MON_STATUS_DONE n true, .ok)
    else (s, .ok)
  else if start ∧ !s.laneLit n then (s, .refusedState)
  else
    let s1 := fields.foldl (fun t f => t.wr f n (f.of v)) s
    if start then
      let s2 := ((s1.clearMem .hist fun k => k / 256 = n).wr F.LANE_MON_HIST_TOTAL_COUNT n 0).wr F.LANE_MON_HIST_OVR_COUNT n 0
      let s3 := (s2.put F.LANE_MON_STATUS_DONE n false).put F.LANE_MON_STATUS_ABANDONED n false
      (((s3.put F.LANE_MON_STATUS_BUSY n true).monPause n).laneMod n fun l => { l with rx := { l.rx with eye := [] } }, .ok)
    else (s1, .ok)

def execMonStart (ag : Agent) (n : Fin 48) (v : W32) (s : State) : Host.Outcome State Fault Refusal :=
  .next (s.writing ag .LANE_MON_CTL n.val v.toNat fun t => t.monCtlWrite n.val v.toNat)

def execMonStop (ag : Agent) (n : Fin 48) (v : W32) (s : State) : Host.Outcome State Fault Refusal :=
  .next (s.writing ag .LANE_MON_CTL n.val v.toNat fun t => t.monCtlWrite n.val v.toNat)

def execMonRunEnd (n : Fin 48) (s : State) : Host.Outcome State Fault Refusal :=
  .next (if s.on F.LANE_MON_STATUS_BUSY n.val && decide (2 ^ clampNat 10 31 (s.rd F.LANE_MON_CTL_LOG2 n.val) ≤ s.rd F.LANE_MON_HIST_TOTAL_COUNT n.val) then
      ((s.put F.LANE_MON_STATUS_BUSY n.val false).put F.LANE_MON_STATUS_PAUSED n.val false).put F.LANE_MON_STATUS_DONE n.val true
    else s)

/-- A read of LANE_MON_HIST_DATA: the bin advances, wrapping from 255 to 0. -/
def State.histRead (s : State) (n : Nat) : State × Nat :=
  (s.wr F.LANE_MON_HIST_ADDR_BIN n (s.rd F.LANE_MON_HIST_ADDR_BIN n + 1), s.ld .hist (n * 256 + s.rd F.LANE_MON_HIST_ADDR_BIN n))

def execLaneMonHistData (ag : Agent) (n : Fin 48) (s : State) : Host.Outcome State Fault Refusal :=
  .next (s.reading ag .LANE_MON_HIST_DATA n.val fun t => t.histRead n.val)

/-- MEAN and SIGMA of a level. -/
def sqFlds (k : Nat) : Fld × Fld :=
  match k with
  | 0 => (F.LANE_MON_SQ_LEVEL0_MEAN, F.LANE_MON_SQ_LEVEL0_SIGMA)
  | 1 => (F.LANE_MON_SQ_LEVEL1_MEAN, F.LANE_MON_SQ_LEVEL1_SIGMA)
  | 2 => (F.LANE_MON_SQ_LEVEL2_MEAN, F.LANE_MON_SQ_LEVEL2_SIGMA)
  | _ => (F.LANE_MON_SQ_LEVEL3_MEAN, F.LANE_MON_SQ_LEVEL3_SIGMA)

/-- The mean of a level's equaliser outputs; which way it is rounded is not given (log entry 37). -/
def SqSum.mean (a : SqSum) : Int := (a.sum + (Config.statFrac a.sum.natAbs a.count % a.count : Nat)) / a.count

/-- The standard deviation of a level's equaliser outputs in 1/16 unit: 16 times the root of the mean square less the squared mean; which way it is rounded
is not given (log entry 37). -/
def SqSum.sigma (a : SqSum) : Nat :=
  let v := 256 * (a.count * a.squares - (a.sum * a.sum).toNat)
  let r := rootNat 2 v 40 0 / a.count
  if r * a.count * (r * a.count) = v then r else r + Config.statFrac v a.count % 2

/-- Ratio level mismatch × 1,000 of four means, as IEEE 802.3 Clause 120D forms it: the least of 3 ES1, 3 ES2, 2 − 3 ES1 and 2 − 3 ES2, limited to 0 to
1,000. None where the outer means agree. -/
def rlmOf (v0 v1 v2 v3 : Int) : Option Nat :=
  let d := v3 - v0
  let e1 := v0 + v3 - 2 * v1
  let e2 := 2 * v2 - v0 - v3
  if d = 0 then none
  else
    let num := [3 * e1, 3 * e2, 2 * d - 3 * e1, 2 * d - 3 * e2].map fun x => if d < 0 then -(1000 * x) else 1000 * x
    let least := num.foldl min (1000 * (d.natAbs : Int))
    some (((max 0 least) + (Config.statFrac least.natAbs d.natAbs % d.natAbs : Nat)) / d.natAbs).toNat

/-- MEAN and SIGMA of a level; a window without a decision of it states neither (log entry 37). -/
def State.sqLevel (s : State) (n k : Nat) : State :=
  let a := Amap.get SqSum.init (s.lane n).rx.sq k
  if a.count = 0 then ({ s with freeCtr := s.freeCtr + 1 }.wr (sqFlds k).1 n s.freeVal).wr (sqFlds k).2 n (s.freeVal / 2 ^ 16)
  else (s.wr (sqFlds k).1 n (sfield 16 a.mean)).wr (sqFlds k).2 n a.sigma

/-- The ratio level mismatch of the four means in the registers. -/
def State.sqRlm (s : State) (n : Nat) : State :=
  let m (k : Nat) : Int := sval 16 (s.rd (sqFlds k).1 n)
  match rlmOf (m 0) (m 1) (m 2) (m 3) with
  | some v => s.wr F.LANE_MON_SQ_RLM_RLM n v
  | none => { s with freeCtr := s.freeCtr + 1 }.wr F.LANE_MON_SQ_RLM_RLM n (s.freeVal % 1001)

/-- A signal-quality window that has its decisions ends: all five registers update together (R350). -/
def execSqWindowEnd (n : Fin 48) (s : State) : Host.Outcome State Fault Refusal :=
  .next (
    let seen := (s.lane n.val).rx.sq.foldl (fun k e => k + e.2.count) 0
    if s.laneLit n.val && !s.sqHeld n.val && decide (2 ^ clampNat 10 24 (s.rd F.LANE_MON_SQ_CFG_LOG2 n.val) ≤ seen) then
      let s1 := ((List.range 4).foldl (fun t k => t.sqLevel n.val k) s).sqRlm n.val
      (s1.put F.LANE_MON_SQ_RLM_VALID n.val true).laneMod n.val fun l => { l with rx := { l.rx with sq := [] } }
    else s)

/-! ### Registers (R345, R352) -/

/-- Writes of the chain and monitor registers that do more than store. -/
def State.decWrite (s : State) (r : Reg) (n v : Nat) : Option (State × Status) :=
  match r with
  | .LANE_DEC_CFG => some (s.decCfgWrite n v)
  | .LANE_DEC_NCO =>
    some (if s.on F.LANE_DEC_CFG_SMOKE_OWNED n then (s, .refusedState) else ((s.wr F.LANE_DEC_NCO_INC n v).unsettle n, .ok))
  | .LANE_DEC_SWITCH => some (s.decSwitch n v)
  | .LANE_DEC_COEF_DATA => some (s.decDataWrite n v)
  | .LANE_DEC_CAP_CTL => some (s.decCapCtlWrite n v)
  | .LANE_MON_CTL => some (s.monCtlWrite n v)
  | _ => none

/-- Registers of the chain and the monitors that read as something else than their stored fields. -/
def State.decRead (s : State) (r : Reg) (n : Nat) : Option Nat :=
  match r with
  | .LANE_DEC_DELAY => some (s.decDelay n)
  | .LANE_DEC_CAP_DATA_LO => some (s.decCapEntry n % 2 ^ 32)
  | .LANE_DEC_CAP_DATA_HI => some (s.decCapEntry n / 2 ^ 32)
  | .LANE_MON_HIST_DATA => some (s.ld .hist (n * 256 + s.rd F.LANE_MON_HIST_ADDR_BIN n))
  | _ => none

end Sys2Proof.Machine
end

