-- ==== Sys2Proof/Machine/Smoke.lean ====
section
/-!
DEFINITION. The Smoke channel (chapter 10): coding of frames, transmission, reception, messages, queues.
-/

namespace Sys2Proof.Machine

/-! ### Coding (R356 to R361) -/

/-- BW in force: 0 125 kHz, 1 250 kHz, 2 500 kHz. -/
def State.smokeBw (s : State) (n : Nat) : Nat := min 2 (s.rd F.SMOKE_CFG_BW n)

/-- `k` output bits of the whitening generator, with the state after them (R359). -/
def whitenBits : Nat → Nat → Nat × Nat
  | 0, g => (0, g)
  | k + 1, g =>
    let b := (g / 2 ^ 14 + g / 2 ^ 13) % 2
    let r := whitenBits k (g * 2 % 2 ^ 15 + b)
    (b * 2 ^ k + r.1, r.2)

/-- Bytes whitened from a state of the generator; whitening twice gives the bytes back. -/
def whitenFrom : Nat → List Nat → List Nat
  | _, [] => []
  | g, b :: bs =>
    let r := whitenBits 8 g
    Nat.xor b r.1 :: whitenFrom r.2 bs

/-- Bytes whitened with the FSEQ of their frame. -/
def whiten (fseq : Nat) (bs : List Nat) : List Nat := whitenFrom (Nat.xor 0x5A00 (fseq % 256)) bs

/-- The nibbles of bytes, high nibble first. -/
def nibbles (bs : List Nat) : List Nat := bs.flatMap fun b => [b / 16 % 16, b % 16]

/-- The 4/7 codeword of a nibble: p1, p2, d3, p4, d2, d1, d0 (R360). -/
def hamming7 (d : Nat) : List Bool :=
  let d3 := d.testBit 3
  let d2 := d.testBit 2
  let d1 := d.testBit 1
  let d0 := d.testBit 0
  [(d3 ^^ d2 ^^ d0), (d3 ^^ d1 ^^ d0), d3, (d2 ^^ d1 ^^ d0), d2, d1, d0]

/-- The codeword of a nibble at rate 4/(5 + cr), in the order its bits are sent (R360). -/
def codeNibble (cr d : Nat) : List Bool :=
  let d3 := d.testBit 3
  let d2 := d.testBit 2
  let d1 := d.testBit 1
  let d0 := d.testBit 0
  match cr with
  | 0 => [(d3 ^^ d2 ^^ d1 ^^ d0), d3, d2, d1, d0]
  | 1 => [(d3 ^^ d2 ^^ d0), (d3 ^^ d1 ^^ d0), d3, d2, d1, d0]
  | 2 => hamming7 d
  | _ => (hamming7 d).foldl (· ^^ ·) false :: hamming7 d

/-- The value of bits, the first the most significant. -/
def bitsVal (bs : List Bool) : Nat := bs.foldl (fun a b => 2 * a + bit b) 0

/-- The nibble of a 4/7 codeword, a single error corrected at the position the syndrome names (R360). -/
def decodeSeven (c : List Bool) : Nat :=
  let g (i : Nat) : Bool := c.getD (i - 1) false
  let s1 := g 1 ^^ g 3 ^^ g 5 ^^ g 7
  let s2 := g 2 ^^ g 3 ^^ g 6 ^^ g 7
  let s4 := g 4 ^^ g 5 ^^ g 6 ^^ g 7
  let pos := bit s1 + 2 * bit s2 + 4 * bit s4
  let h (i : Nat) : Bool := g i ^^ decide (i = pos)
  bitsVal [h 3, h 5, h 6, h 7]

/-- The nibble a received codeword gives at rate 4/(5 + cr). At 4/8 a double error is detected and not corrected. -/
def decodeNibble (cr : Nat) (c : List Bool) : Nat :=
  match cr with
  | 0 => bitsVal (c.drop 1)
  | 1 => bitsVal (c.drop 2)
  | 2 => decodeSeven c
  | _ =>
    let even := !c.foldl (· ^^ ·) false
    let r := c.drop 1
    if even then bitsVal [r.getD 2 false, r.getD 4 false, r.getD 5 false, r.getD 6 false] else decodeSeven r

/-- The chirp values of one block of SF codewords of `len` bits (R361). -/
def blockChirps (block : List (List Bool)) (len : Nat) : List Nat :=
  (List.range len).map fun j =>
    let u := block.foldr (fun c a => 2 * a + bit (c.getD j false)) 0
    Nat.xor u (u / 2)

/-- The chirp values of a run of nibbles in blocks of SF codewords, the last completed with nibble 0. -/
def chirpsOf (sf cr : Nat) : Nat → List Nat → List Nat
  | 0, _ => []
  | fuel + 1, ns =>
    match ns with
    | [] => []
    | _ =>
      let block := (ns.take sf ++ List.replicate (sf - (ns.take sf).length) 0).map (codeNibble cr)
      blockChirps block (5 + cr) ++ chirpsOf sf cr fuel (ns.drop sf)

/-- The inverse of the Gray mapping of R361. -/
def grayInv (v : Nat) : Nat := (List.range 12).foldl (fun a k => Nat.xor a (v / 2 ^ k)) 0

/-- The nibbles of decided chirp values. -/
def nibblesOf (sf cr : Nat) : Nat → List Nat → List Nat
  | 0, _ => []
  | fuel + 1, vs =>
    match vs with
    | [] => []
    | _ =>
      let us := (vs.take (5 + cr)).map grayInv
      ((List.range sf).map fun k => decodeNibble cr (us.map fun u => u.testBit k)) ++ nibblesOf sf cr fuel (vs.drop (5 + cr))

/-- Bytes of nibbles, high nibble first. -/
def bytesOfNibbles : List Nat → List Nat
  | a :: b :: rest => (a * 16 + b) :: bytesOfNibbles rest
  | _ => []

/-- The chirps of a frame (Table 10-2). -/
def frameChirps (sf sync cr : Nat) (header payload : List Nat) : List (Option Nat) :=
  let h := header ++ bytesBe 2 (crc16 header)
  let p := whiten (header.getD 3 0) (payload ++ bytesBe 2 (crc16 payload))
  let syncs := [2 ^ (sf - 6) * (sync / 64), 2 ^ (sf - 6) * (sync % 64)]
  List.replicate 8 (some (2 ^ (sf - 1))) ++ syncs.map some ++ [none, none, none] ++ (chirpsOf sf 3 12 (nibbles h)).map some ++
    (chirpsOf sf cr 132 (nibbles p)).map some

/-! ### Transmission (R353, R358, R372, R377) -/

/-- The payload of a beacon of lane `n` (Table 10-7). -/
def State.beaconPayload (s : State) (n : Nat) (first : Bool) : List Nat :=
  let p := s.portOfLane n
  let ready := (List.range 48).any fun q => decide (2 ≤ s.role q) && s.on F.PORT_STATUS_RX_READY q
  let flags := bit first + 2 * bit (!ready) + 4 * bit (s.rd F.LANE_STATE_CUR n = 3)
  let rxFlags := bit (s.on F.LANE_RX_STATUS_SIGNAL n) + 2 * bit (s.on F.LANE_RX_STATUS_CONVERGED n) + 4 * bit (s.on F.PORT_STATUS_RX_READY p)
  bytesBe 4 (s.rd F.SYS_EPOCH_VALUE 0) ++ bytesBe 4 (s.word .SYS_DEVICE_ID 0) ++
    [s.word .SYS_REVISION 0 % 256, flags, p / 8 * 16 + p % 8, s.role p % 2 + 2 * bit (s.rd F.PORT_CFG_FORMAT p = 3), s.lanesPerPort (p / 8),
      s.laneIndex n] ++ bytesBe 4 (s.rd F.PORT_TAG_TX_TAG p) ++ [min 255 (s.rd F.LANE_RX_FOM_SNR n / 2), rxFlags]

/-- The payload of GOING_DOWN with a reason (R371). -/
def State.goingPayload (s : State) (reason : Nat) : List Nat := bytesBe 4 (s.rd F.SYS_EPOCH_VALUE 0) ++ [reason, 0, 0, 0]

/-- The frame sent next and the modem without it: a flagged beacon, a GOING_DOWN, a due beacon, then the queue (R372). -/
def State.smokeNext (s : State) (n : Nat) : Option (SmokeFrame × SmokeS) :=
  let x := s.smk n
  let beacons := s.on F.SMOKE_CTL_BEACON_EN n
  if beacons && x.firstDue then some (⟨1, s.beaconPayload n true, false⟩, { x with firstDue := false, due := false })
  else match x.going with
    | some r => some (⟨4, s.goingPayload r, false⟩, { x with going := none })
    | none =>
      if beacons && x.due then some (⟨1, s.beaconPayload n false, false⟩, { x with due := false })
      else match x.txq with
        | f :: rest => some (f, { x with txq := rest })
        | [] => none

/-- A frame starts at a block boundary; the phase it starts with is not given (R355 to R358). -/
def State.smokeStart (s : State) (n : Nat) (f : SmokeFrame) (x : SmokeS) : State :=
  let sf := s.smokeSf n
  let bw := s.smokeBw n
  let cr := s.rd F.SMOKE_CFG_CR n
  let header := [f.payload.length, cr * 64 + bw * 16 + sf, f.msg, x.fseq]
  let chirps := frameChirps sf (s.rd F.SMOKE_CFG_SYNC n) cr header f.payload
  ((s.setSmk n { x with sending := some f, chirps := chirps, sf := sf, bw := bw, blocks := 0, phase0 := s.freeVal % 2 ^ 16
                        fseq := (x.fseq + 1) % 256 }).drawn).emit (.smoke n chirps)

/-- The modem may send: TX_EN and RIPPLE_EN (R353). -/
def State.smokeSends (s : State) (n : Nat) : Bool := s.on F.SMOKE_CTL_TX_EN n && s.on F.LANE_TX_SMOKE_RIPPLE_EN n

def execSmokeFrameSend (n : Fin 48) (s : State) : Host.Outcome State Fault Refusal :=
  .next (if s.smokeSends n.val && (s.smk n.val).sending.isNone then
      match s.smokeNext n.val with
      | some (f, x) => if s.lanesOff && (s.smk n.val).going.isNone then s else s.smokeStart n.val f x
      | none => s
    else s)

def execSmokeFrameEnd (n : Fin 48) (s : State) : Host.Outcome State Fault Refusal :=
  .next (match (s.smk n.val).sending with
    | none => s
    | some f =>
      let x := s.smk n.val
      let ended := if f.msg = 1 then some s.time else x.beaconAt
      let s1 := (s.setSmk n.val { x with sending := none, chirps := [], blocks := 0, beaconAt := ended }).bump F.SMOKE_CNT_FRAMES_TX_V n.val 1
      (s1.depthNow n.val).eventIf f.posted F.SMOKE_EVENT_TX_DONE n.val)

/-- BEACON_INT seconds have passed since the lane's last beacon ended (R372). -/
def State.beaconTime (s : State) (n : Nat) : Bool :=
  match (s.smk n).beaconAt with
  | some a => decide (a + max 1 (s.rd F.SMOKE_CTL_BEACON_INT n) * 2500000000 ≤ s.time)
  | none => false

def execBeaconDue (n : Fin 48) (s : State) : Host.Outcome State Fault Refusal :=
  .next (if s.on F.SMOKE_CTL_BEACON_EN n.val && s.beaconTime n.val then s.setSmk n.val { s.smk n.val with due := true } else s)

/-! ### Reception (R362 to R369, Table 10-3) -/

/-- A detection is counted (SMOKE_CNT.DETECTS, Table 18-2); its windows serve no other. -/
def State.smokeDetect (s : State) (n : Nat) : State :=
  ((s.setSmk n { s.smk n with rx := { (s.smk n).rx with last := [] } }).bump F.SMOKE_CNT_DETECTS_V n 1).perfLane 12 n 1

/-- The receiver enters SYNC for a frame with a detection peak, of whose chips `held` are in; the gain freezes after `left` more outputs (R366, R367). -/
def State.smokeSync (s : State) (n : Nat) (peak : Nat × Nat) (held : List (Int × Int)) (left : Nat) : State :=
  (s.wr F.SMOKE_STATUS_RX_STATE n 2).setSmk n { s.smk n with
    hdr := none, peak := peak.1, ratio := peak.2, gainLeft := some left
    rx := { (s.smk n).rx with held := held, behind := [], sym := [], syms := [], rate := 0, second := none } }

/-- The primary detector completes a detection (Table 10-3). -/
def execPreambleDetect (n : Fin 48) (s : State) : Host.Outcome State Fault Refusal :=
  .next (match s.detects n.val with
    | some peak => if s.rd F.SMOKE_STATUS_RX_STATE n.val = 1 then (s.smokeDetect n.val).smokeSync n.val peak [] 0 else s
    | none => s)

/-- A header failure: a detection of the second correlator whose down-chirps have not begun is taken, else the search goes on (R369). -/
def State.smokeHdrFail (s : State) (n : Nat) (secondOpen : Bool) : State :=
  let x := (s.smk n).rx
  let s1 := ((s.bump F.SMOKE_CNT_HDR_FAIL_V n 1).perfLane 14 n 1).smokeRxEnd n 2 1
  match x.second with
  | some p => if secondOpen then s1.smokeSync n p x.behind 0 else s1
  | none => s1

/-- The sync chirps and down-chirps are in, by the frequency and timing estimate: HEADER, or a failure (Table 10-3). -/
def execSmokeSyncCheck (n : Fin 48) (start : BitVec 16) (late : Byte) (freq : BitVec 16) (s : State) : Host.Outcome State Fault Refusal :=
  .next (if s.rd F.SMOKE_STATUS_RX_STATE n.val = 2 then
      let sf := s.smokeSf n.val
      let sync := s.rd F.SMOKE_CFG_SYNC n.val
      match (s.smk n.val).rx.aligned sf (s.smokeHertz n.val) start.toNat late.toNat freq.toInt (s.decF1 n.val) with
      | none => s
      | some (a, b, y) =>
        if binNear sf a (2 ^ (sf - 6) * (sync / 64)) && binNear sf b (2 ^ (sf - 6) * (sync % 64)) then
          (s.wr F.SMOKE_STATUS_RX_STATE n.val 3).setSmk n.val { s.smk n.val with rx := y }
        else s.smokeHdrFail n.val false
    else s)

/-- The bytes of decided chirps. -/
def chirpBytes (sf cr : Nat) (vs : List Nat) : List Nat := bytesOfNibbles (nibblesOf sf cr vs.length vs)

/-- The header of a reception: LEN, CR, MSG, FSEQ, when it is valid (R365). -/
def State.headerOf (s : State) (n : Nat) (vs : List Nat) : Option (Nat × Nat × Nat × Nat) :=
  let b := (chirpBytes (s.smokeSf n) 3 vs).take 6
  let len := b.getD 0 0
  let par := b.getD 1 0
  if b.length = 6 ∧ numBe (b.drop 4) = crc16 (b.take 4) ∧ 1 ≤ len ∧ len ≤ 64 ∧ par / 16 % 4 = s.smokeBw n ∧ par % 16 = s.smokeSf n then
    some (len, par / 64, b.getD 2 0, b.getD 3 0)
  else none

/-- The symbols of a header and those of a payload of `len` bytes at rate 4/(5 + cr) (Table 10-2). -/
def headerSymbols (sf : Nat) : Nat := 8 * ((12 + sf - 1) / sf)
def payloadSymbols (sf cr len : Nat) : Nat := (5 + cr) * ((2 * (len + 2) + sf - 1) / sf)

/-- The symbols of the current header are all decided, and it is not yet judged. -/
def State.headerIn (s : State) (n : Nat) : Bool :=
  s.rd F.SMOKE_STATUS_RX_STATE n = 3 && decide (headerSymbols (s.smokeSf n) ≤ (s.smk n).rx.syms.length)

/-- The second correlator's detection during a reception: before a valid header a higher peak takes over, after it one higher by CAP_MARGIN; the gain then
reacquires for 1 Ts. Another is discarded, but held while no header is valid (R367, R369). -/
def State.smokeCapture (s : State) (n : Nat) (peak : Nat × Nat) : State :=
  let x := s.smk n
  let s1 := s.smokeDetect n
  let margin := clampNat 3 12 (s.rd F.SMOKE_CFG_CAP_MARGIN n)
  let takes := if x.hdr.isNone then decide (x.peak < peak.1) else decide (x.peak ^ 20 * 10 ^ margin ≤ peak.1 ^ 20)
  if takes then
    ((((s1.smokeRxEnd n 4 1).smokeSync n peak [] (s.symbolOutputs n)).bump F.SMOKE_CNT_CAPTURED_V n 1).perfLane 15 n 1).event F.SMOKE_EVENT_CAPTURED n
  else if x.hdr.isNone then s1.setSmk n { s1.smk n with rx := { (s1.smk n).rx with second := some peak, behind := [] } }
  else s1

/-- The header is found valid or not (R362, R365, R369), with the in-band SNR of its frame. -/
def State.smokeHeaderEnd (s : State) (n snr : Nat) (secondOpen : Bool) : State :=
  let x := s.smk n
  let used := headerSymbols (s.smokeSf n)
  match s.headerOf n (x.rx.syms.take used) with
  | some h =>
    let s1 := (s.wr F.SMOKE_STATUS_RX_STATE n 4).setSmk n { x with hdr := some h, rx := { x.rx with syms := x.rx.syms.drop used, second := none, behind := [] } }
    ((s1.wr F.SMOKE_LINK_FREQ n (sfield 16 x.rx.freq)).wr F.SMOKE_LINK_PEAK n x.ratio).wr F.SMOKE_LINK_SNR n snr
  | none => s.smokeHdrFail n secondOpen

/-- The header's symbols are all decided. When the second correlator completes a detection in the same window, a valid header is taken as valid first and
the margin applies (R368); an invalid one leaves a detection that the receiver takes (R369). -/
def execSmokeHeader (n : Fin 48) (snr : Byte) (secondOpen : Bool) (s : State) : Host.Outcome State Fault Refusal :=
  .next (if s.headerIn n.val then
      let valid := (s.headerOf n.val ((s.smk n.val).rx.syms.take (headerSymbols (s.smokeSf n.val)))).isSome
      match s.detects n.val with
      | none => s.smokeHeaderEnd n.val snr.toNat secondOpen
      | some peak =>
        if valid then (s.smokeHeaderEnd n.val snr.toNat secondOpen).smokeCapture n.val peak
        else
          let s1 := s.smokeDetect n.val
          (s1.setSmk n.val { s1.smk n.val with rx := { (s1.smk n.val).rx with second := some peak, behind := [] } }).smokeHeaderEnd n.val snr.toNat true
    else s)

/-- The second correlator completes a detection; one in the window that completes a header waits for the header to be judged (R367, R368). -/
def execSmokeCapture (n : Fin 48) (s : State) : Host.Outcome State Fault Refusal :=
  .next (match s.detects n.val with
    | some peak => if decide (2 ≤ s.rd F.SMOKE_STATUS_RX_STATE n.val) && !s.headerIn n.val then s.smokeCapture n.val peak else s
    | none => s)

/-! ### Messages (R371 to R378, Table 10-4) -/

/-- A frame enters the receive queue, or finds it full (R378). -/
def State.smokeRxPut (s : State) (n msg fseq : Nat) (payload : List Nat) : State :=
  let x := s.smk n
  if x.rxq.length < 4 then (s.setSmk n { x with rxq := x.rxq ++ [(msg, fseq, payload)] }).event F.SMOKE_EVENT_RX n
  else (s.bump F.SMOKE_CNT_DROPPED_RX n 1).event F.SMOKE_EVENT_DROPPED n

/-- The identity a beacon gives (R374). -/
def State.beaconIdentity (s : State) (n : Nat) (m : List Nat) : State :=
  let x := s.smk n
  let c := s.identCause (s.portOfLane n) (numBe ((m.drop 14).take 4)) (m.getD 11 0) (m.getD 12 0)
  let run := if x.mmCause = c then x.mmRun + 1 else 1
  let s1 := s.setSmk n { x with mmCause := c, mmRun := min run 2 }
  if run < 2 then s1
  else (s1.track F.SMOKE_PEER_INFO_MISMATCH F.SMOKE_EVENT_MISMATCH n (c ≠ 0)).wr F.SMOKE_PEER_INFO_MISMATCH_CAUSE n c

/-- A beacon: recorded, compared, and an epoch notice of its lane (R373, R374, R238). -/
def State.beaconTake (s : State) (n : Nat) (m : List Nat) : State :=
  let e := numBe (m.take 4)
  let x := s.smk n
  let s1 := s.eventIf (x.notice.isSome && decide (x.notice ≠ some e)) F.SMOKE_EVENT_EPOCH n
  let s2 := (((s1.wr F.SMOKE_PEER_EPOCH_VALUE n e).wr F.SMOKE_PEER_DEVICE_VALUE n (numBe ((m.drop 4).take 4))).wr F.SMOKE_PEER_TAG_VALUE n
    (numBe ((m.drop 14).take 4))).put F.SMOKE_PEER_INFO_VALID n true
  let s3 := ((s2.wr F.SMOKE_PEER_INFO_REVISION n (m.getD 8 0)).wr F.SMOKE_PEER_INFO_RX_SNR n (m.getD 18 0)).wr F.SMOKE_PEER_INFO_FLAGS n
    (m.getD 9 0 % 8 * 32 + m.getD 19 0 % 8)
  let s4 := (s3.setSmk n { x with notice := some e }).beaconIdentity n m
  if x.notice = some e then s4.epochTake e else s4

/-- A CONTROL payload is a copy that arrives on the lane's path (R375). -/
def State.controlTake (s : State) (n : Nat) (m : List Nat) : State :=
  match s.lanePath n with
  | some x => s.copyTake x m id false
  | none => s

/-- A frame is delivered by its message; a wrong LEN or an unlisted MSG is counted in BAD_MSG (R371). -/
def State.smokeDeliver (s : State) (n msg fseq : Nat) (m : List Nat) : State :=
  let bad := s.bump F.SMOKE_CNT_BAD_MSG_V n 1
  match msg with
  | 1 => if m.length = 20 then s.beaconTake n m else bad
  | 2 => if 36 ≤ m.length ∧ m.length ≤ 64 then s.controlTake n m else bad
  | 3 => if m.length = 14 then s.smokeRxPut n msg fseq m else bad
  | 4 => if m.length = 8 then s.smokeRxPut n msg fseq m else bad
  | 5 => if 1 ≤ m.length ∧ m.length ≤ 64 then s.smokeRxPut n msg fseq m else bad
  | _ => bad

/-- The payload's symbols are all decided: the frame is delivered when its CRC checks (R362, R365). -/
def execSmokeFrameRx (n : Fin 48) (s : State) : Host.Outcome State Fault Refusal :=
  .next (match (s.smk n.val).hdr with
    | some (len, cr, msg, fseq) =>
      let sf := s.smokeSf n.val
      let vs := (s.smk n.val).rx.syms.take (payloadSymbols sf cr len)
      if s.rd F.SMOKE_STATUS_RX_STATE n.val = 4 && decide (vs.length = payloadSymbols sf cr len) then
        let b := whiten fseq ((chirpBytes sf cr vs).take (len + 2))
        if numBe (b.drop len) = crc16 (b.take len) then
          (((s.bump F.SMOKE_CNT_FRAMES_RX_V n.val 1).perfLane 13 n.val 1).smokeRxEnd n.val 1 1).smokeDeliver n.val msg fseq (b.take len)
        else (s.bump F.SMOKE_CNT_PAY_FAIL_V n.val 1).smokeRxEnd n.val 3 1
      else s
    | none => s)

/-- A message arrives at a running receiver. -/
def State.smokeArrive (s : State) (n msg fseq : Nat) (m : List Byte) : State :=
  if s.rd F.SMOKE_STATUS_RX_STATE n = 0 then s else s.smokeDeliver n msg fseq (m.map fun b => b.toNat)

def execSmokeBeacon (n : Fin 48) (payload : List Byte) (s : State) : Host.Outcome State Fault Refusal := .next (s.smokeArrive n.val 1 0 payload)

def execSmokeControl (n : Fin 48) (payload : List Byte) (s : State) : Host.Outcome State Fault Refusal := .next (s.smokeArrive n.val 2 0 payload)

def execSmokeFault (n : Fin 48) (fseq : Byte) (payload : List Byte) (s : State) : Host.Outcome State Fault Refusal :=
  .next (s.smokeArrive n.val 3 fseq.toNat payload)

def execSmokeGoingDown (n : Fin 48) (fseq : Byte) (payload : List Byte) (s : State) : Host.Outcome State Fault Refusal :=
  .next (s.smokeArrive n.val 4 fseq.toNat payload)

def execSmokeUser (n : Fin 48) (fseq : Byte) (payload : List Byte) (s : State) : Host.Outcome State Fault Refusal :=
  .next (s.smokeArrive n.val 5 fseq.toNat payload)

/-! ### Registers (R357, R364, R377, R378) -/

/-- A LEN that R371 allows for a message tables may post. -/
def postOk (msg len : Nat) : Bool :=
  match msg with
  | 3 => decide (len = 14)
  | 4 => decide (len = 8)
  | 5 => decide (1 ≤ len ∧ len ≤ 64)
  | _ => false

/-- A write of SMOKE_TX_POST (R377). -/
def State.smokePost (s : State) (n v : Nat) : State × Status :=
  let msg := F.SMOKE_TX_POST_MSG.of v
  let len := F.SMOKE_TX_POST_LEN.of v
  if postOk msg len then
    let bytes := ((List.range 16).flatMap fun k => bytesBe 4 (s.rd F.SMOKE_TX_BUF_DATA (16 * n + k))).take len
    match s.smokePut n ⟨msg, bytes, true⟩ with
    | some t => (t, .ok)
    | none => (s, .refusedState)
  else (s, .refusedState)

def execSmokeTxPost (ag : Agent) (n : Fin 48) (v : W32) (s : State) : Host.Outcome State Fault Refusal :=
  .next (s.writing ag .SMOKE_TX_POST n.val v.toNat fun t => t.smokePost n.val v.toNat)

/-- A write of SMOKE_RX_POP removes the oldest received frame (R378). -/
def State.smokePop (s : State) (n : Nat) : State := s.setSmk n { s.smk n with rxq := (s.smk n).rxq.drop 1 }

def execSmokeRxPop (ag : Agent) (n : Fin 48) (v : W32) (s : State) : Host.Outcome State Fault Refusal :=
  .next (s.writing ag .SMOKE_RX_POP n.val v.toNat fun t => (t.smokePop n.val, .ok))

/-- A half of SYNC that R357 excludes. -/
def syncBad (h : Nat) : Bool := decide (31 ≤ h ∧ h ≤ 33)

/-- A write of SMOKE_CFG: SYNC halves judged, the reception abandoned, a running receiver searches with the new parameters (R357, Table 10-3). -/
def State.smokeCfgWrite (s : State) (n v : Nat) : State × Status :=
  let sync := F.SMOKE_CFG_SYNC.of v
  if syncBad (sync / 64) || syncBad (sync % 64) then (s, .refusedState)
  else
    let bw := s.rd F.SMOKE_CFG_BW n
    let s1 := (Reg.fields .SMOKE_CFG).foldl (fun t f => t.wr f n (f.of v)) s
    if s1.rd F.SMOKE_STATUS_RX_STATE n = 0 then (s1, .ok)
    else
      let s2 := s1.smokeRxEnd n 6 1
      let s3 := s2.setSmk n { s2.smk n with rx := SmokeRx.init }
      (if s3.rd F.SMOKE_CFG_BW n = bw then s3 else s3.smokeOwn n, .ok)

def execSmokeCfgWrite (ag : Agent) (n : Fin 48) (v : W32) (s : State) : Host.Outcome State Fault Refusal :=
  .next (s.writing ag .SMOKE_CFG n.val v.toNat fun t => t.smokeCfgWrite n.val v.toNat)

/-- A write of SMOKE_CTL: TX_EN = 0 discards the queue and aborts, RX_EN starts or ends the receiver (R353, R377). -/
def State.smokeCtlWrite (s : State) (n v : Nat) : State × Status :=
  let rose := F.SMOKE_CTL_RX_EN.of v = 1 ∧ !s.on F.SMOKE_CTL_RX_EN n
  let s1 := (Reg.fields .SMOKE_CTL).foldl (fun t f => t.wr f n (f.of v)) s
  let s2 := if s1.on F.SMOKE_CTL_TX_EN n then s1 else (s1.setSmk n { s1.smk n with txq := [] }).smokeAbort n
  let s3 := if rose then s2.put F.SMOKE_PEER_INFO_VALID n false else s2
  (s3.smokeTrack n, .ok)

def execSmokeCtlWrite (ag : Agent) (n : Fin 48) (v : W32) (s : State) : Host.Outcome State Fault Refusal :=
  .next (s.writing ag .SMOKE_CTL n.val v.toNat fun t => t.smokeCtlWrite n.val v.toNat)

/-- Writes of the Smoke registers that do more than store. -/
def State.smokeWrite (s : State) (r : Reg) (i v : Nat) : Option (State × Status) :=
  match r with
  | .SMOKE_CFG => some (s.smokeCfgWrite i v)
  | .SMOKE_CTL => some (s.smokeCtlWrite i v)
  | .SMOKE_TX_POST => some (s.smokePost i v)
  | .SMOKE_RX_POP => some (s.smokePop i, .ok)
  | _ => none

/-- Registers of the modem that show its queues (SMOKE_STATUS, SMOKE_RX_INFO, SMOKE_RX_BUF). -/
def State.smokeRead (s : State) (r : Reg) (i : Nat) : Option Nat :=
  match r with
  | .SMOKE_STATUS =>
    let x := s.smk i
    some (s.rd F.SMOKE_STATUS_LAST_RX i * 2 ^ 16 + x.rxq.length * 2 ^ 10 + x.txq.length * 2 ^ 7 + bit x.sending.isSome * 2 ^ 6 +
      s.rd F.SMOKE_STATUS_RX_STATE i)
  | .SMOKE_RX_INFO =>
    match (s.smk i).rxq with
    | [] => some 0
    | (msg, fseq, m) :: _ => some (2 ^ 31 + msg * 2 ^ 16 + m.length * 2 ^ 8 + fseq)
  | .SMOKE_RX_BUF =>
    match (s.smk (i / 16)).rxq with
    | [] => some 0
    | (_, _, m) :: _ => some (numBe ((List.range 4).map fun k => m.getD (4 * (i % 16) + k) 0))
  | _ => none

end Sys2Proof.Machine
end

