-- ==== Sys2Proof/Machine/Power.lean ====
section
/-!
DEFINITION. References and clocks, block power states, temperature sensing and the Damper (chapter 17).
-/

namespace Sys2Proof.Machine

/-! ### References (R481 to R484) -/

/-- The OK bit of a reference: 0 A, 1 B. -/
def refOk (r : Nat) : Fld := if r = 0 then F.PWR_CLK_STATUS_REF_A_OK else F.PWR_CLK_STATUS_REF_B_OK

/-- A write of PWR_CLK_CTL (R481, R484). -/
def State.clkWrite (s : State) (v : Nat) : State × Status :=
  let sel := F.PWR_CLK_CTL_REF_SEL.of v
  if !s.on (refOk sel) 0 then (s, .refusedState)
  else
    let s1 := ((s.wr F.PWR_CLK_CTL_REF_SEL 0 sel).wr F.PWR_CLK_CTL_AUTO 0 (F.PWR_CLK_CTL_AUTO.of v)).wr F.PWR_CLK_CTL_CORE_SSC 0
      (F.PWR_CLK_CTL_CORE_SSC.of v)
    ((s1.wr F.PWR_CLK_STATUS_IN_USE 0 sel).put F.PWR_CLK_STATUS_HOLDOVER 0 false, .ok)

def execRefSelWrite (ag : Agent) (v : W32) (s : State) : Host.Outcome State Fault Refusal :=
  .next (s.writing ag .PWR_CLK_CTL 0 v.toNat fun t => t.clkWrite v.toNat)

/-- The reference in use is lost: holdover, and the switch to the other one when allowed (R482). -/
def State.refHoldover (s : State) (other : Nat) : State :=
  let s1 := { s.put F.PWR_CLK_STATUS_HOLDOVER 0 true with holdAt := if s.on F.PWR_CLK_STATUS_HOLDOVER 0 then s.holdAt else s.time }
  if s1.on F.PWR_CLK_CTL_AUTO 0 && s1.on (refOk other) 0 then
    ((s1.wr F.PWR_CLK_STATUS_IN_USE 0 other).bump F.PWR_CLK_STATUS_SWITCHES 0 1).put F.PWR_CLK_STATUS_HOLDOVER 0 false
  else s1

/-- A reference shows no edge for 1 µs (R482). -/
def execReferenceLoss (r : Fin 2) (s : State) : Host.Outcome State Fault Refusal :=
  .next (if s.on (refOk r) 0 then
    let s1 := (s.put (refOk r) 0 false).put F.PWR_CLK_STATUS_DISAGREE 0 false
    let s2 := if s1.rd F.PWR_CLK_STATUS_IN_USE 0 = r then s1.refHoldover (1 - r) else s1
    s2.errorLine (36 + r) 0 0
  else s)

/-- Holdover ends after 100 µs and the core PLL loses lock (R482). -/
def execHoldoverEnd (s : State) : Host.Outcome State Fault Refusal :=
  .next (if s.on F.PWR_CLK_STATUS_HOLDOVER 0 ∧ s.holdAt + 250000 ≤ s.time then
    ((s.put F.PWR_CLK_STATUS_HOLDOVER 0 false).put F.PWR_CLK_STATUS_CORE_LOCK 0 false).errorLine 38 0 0
  else s)

/-- A reference shows edges: its OK bit sets and, with both present, they are compared (R482, R483). -/
def execReferenceReturn (r : Fin 2) (disagree : Bool) (s : State) : Host.Outcome State Fault Refusal :=
  .next (
    let s1 := s.put (refOk r) 0 true
    let s2 := s1.put F.PWR_CLK_STATUS_DISAGREE 0 (disagree && s1.on (refOk (1 - r)) 0)
    if s2.rd F.PWR_CLK_STATUS_IN_USE 0 = r then (s2.put F.PWR_CLK_STATUS_HOLDOVER 0 false).put F.PWR_CLK_STATUS_CORE_LOCK 0 true
    else if s2.on F.PWR_CLK_STATUS_HOLDOVER 0 then s2.refHoldover r
    else s2)

/-! ### Managed blocks (R487 to R492) -/

/-- The entry time of a state of Table 17-2, in units of 0.4 ns. -/
def entryTime (d : Nat) : Nat := match d with | 0 => 0 | 1 => 7 | 2 => 12500 | _ => 125000

/-- The wake time of a state of Table 17-2. -/
def wakeTime (d : Nat) : Nat := match d with | 0 => 0 | 1 => 250 | 2 => 45000 | _ => 10000000

/-- The ready time of a block after a wake from state `d` (Table 17-3). -/
def readyTime (n d : Nat) : Nat := if n = 9 then 5000 else if 19 ≤ n ∧ n ≤ 22 ∧ 2 ≤ d then 125000 else 0

/-- The contexts on engine `e` (R46). -/
def State.contextsOn (s : State) (e : Nat) : List Nat :=
  (if (s.bank e).host.isNone && !(s.bank e).failed && !(s.bank e).wantAdopt && !s.engineDown e then [e] else []) ++ s.hostedBy e

/-- The objects of a managed block. -/
def blockObjects (n : Nat) : List Obj :=
  if n = 8 then (List.range 24).map .tunnel
  else if n = 9 then [.keyUnit]
  else if n = 10 then .keyUnit :: (List.range 128).map .keySlot
  else if n = 11 then [.protUnit]
  else if n = 12 then .holdUnit :: (List.range 24).map .holdCh
  else if 13 ≤ n ∧ n ≤ 18 then .bay (n - 13) :: (List.range 8).map fun i => .port (8 * (n - 13) + i)
  else if 19 ≤ n ∧ n ≤ 22 then [.pair (n - 19), .conv (2 * (n - 19)), .conv (2 * (n - 19) + 1)] ++ (List.range 24).map fun k => .monIn (24 * (n - 19) + k)
  else if n = 23 then (List.range 256).map .counter
  else []

/-- The banks whose declarations bind a block: the contexts of an engine, the owners of the objects of the others (R78, R489). -/
def State.blockBanks (s : State) (n : Nat) : List Nat :=
  if n < 8 then s.contextsOn n
  else (List.range 8).filter fun b => (blockObjects n).any fun o => s.owner o = b

/-- The declaration of a bank in force: its time and floor; none, or one already passed, counts as an event now with floor Blaze (R78). -/
def State.declared (s : State) (b : Nat) : Nat × Nat :=
  match (s.bank b).nextTime with
  | some (t, f) => if t ≤ s.time then (s.time, 0) else (t, f)
  | none => (s.time, 0)

/-- The floor of a block: the shallowest declared one, Smoulder with no owner (R489). -/
def State.blockFloor (s : State) (n : Nat) : Nat := (s.blockBanks n).foldl (fun a b => min a (s.declared b).2) 3

/-- The scheduled times of a block: the periodic triggers of a converter pair (R478), the periodic snapshot (R510). -/
def State.blockSchedule (s : State) (n : Nat) : List Nat :=
  if 19 ≤ n ∧ n ≤ 22 then [2 * (n - 19), 2 * (n - 19) + 1].filterMap fun c => (s.conv c).nextAt
  else if n = 23 then s.perfNext.toList
  else []

/-- The next event of a block: the earliest declared time and its own schedule; none when nothing is known (R489). -/
def State.blockNext (s : State) (n : Nat) : Option Nat := ((s.blockBanks n).map fun b => (s.declared b).1) ++ s.blockSchedule n |>.min?

/-- Fill, scrub or repair is pending in the store (Table 17-3): a channel in service has unfilled cords or a row to be scrubbed, or a row waits for its
repair. -/
def State.storeWork (s : State) : Bool :=
  (s.liveChs.any fun c => decide ((s.hcOf c).filled < (s.hcOf c).cords) || !(s.hcOf c).rowScrub.isEmpty) || s.repair.isSome

/-- A condition of Table 17-3 holds the block in Blaze; `work` says so of work in the block that the model does not hold: a load or zeroisation of the key
unit, which is one step, a scrub of the pass that is due, an erase (log entry 41). -/
def State.blockHeld (s : State) (n : Nat) (work : Bool) : Bool :=
  work ||
    if n < 8 then (s.contextsOn n).any fun b => decide ((s.bank b).ctx ≠ .sleeping) || s.wakeReady b
    else if n = 8 ∨ n = 9 ∨ n = 11 then !s.tunnelsIdle
    else if n = 12 then decide (s.rd F.HOLD_STATUS_STATE 0 = 1) || s.storeWork || !s.tunnelsIdle
    else if 13 ≤ n ∧ n ≤ 18 then (List.range 8).any fun i => s.rd F.LANE_STATE_CUR (8 * (n - 13) + i) ≠ 0
    else if 19 ≤ n ∧ n ≤ 22 then s.convBusy (2 * (n - 19)) || s.convBusy (2 * (n - 19) + 1)
    else if n = 23 then s.regs.any fun e => e.1.reg = .PERF_SEL && e.1.lo = 31
    else if n = 24 then s.on F.KILN_STATUS_BUSY 0 || !s.on F.KILN_STATUS_STARTUP_DONE 0
    else if n = 25 then s.verifyBank.isSome || s.peatWord.isSome
    else false

/-- The internal memories and queues of a block are empty (R487): no bundle in a crypto pipeline; the store in OFF; nothing in a bay's port units; no
capture held by a converter pair. -/
def State.blockEmpty (s : State) (n : Nat) : Bool :=
  if n = 9 then (List.range 24).all fun t => (s.ttx t).crypto.isEmpty && (s.protT t).decrypting.isNone
  else if n = 12 then decide (s.rd F.HOLD_STATUS_STATE 0 = 0)
  else if 13 ≤ n ∧ n ≤ 18 then (List.range 8).all fun i =>
    (s.port (8 * (n - 13) + i)).rx.isNone && (s.port (8 * (n - 13) + i)).txBlocks.isEmpty && (s.lockOf (8 * (n - 13) + i)).pcs.blocks.isEmpty
  else if 19 ≤ n ∧ n ≤ 22 then decide (s.rd F.MCV_CAP_STATUS_COUNT (n - 19) = 0)
  else if n = 25 then s.verifyBank.isNone && s.peatWord.isNone
  else true

/-- The deepest state a block may take whatever the time: floor, PWR_BLOCK_n.LIMIT and Table 17-3; Smoulder only when its memories are empty (R487). -/
def State.blockLimit (s : State) (n : Nat) : Nat :=
  let l := min (s.blockFloor n) (min (s.rd F.PWR_BLOCK_LIMIT n) (s.rd F.PWR_BLOCK_HW_LIMIT n))
  if l = 3 ∧ s.blockEmpty n = false then 2 else l

/-- The time from the start of a wake out of state `d` to the event it is for: the effective wake time and the margin (R489). -/
def State.wakeLead (s : State) (n d : Nat) : Nat := wakeTime d + readyTime n d + max 1 (s.rd F.PWR_CFG_MARGIN 0) * 2500

/-- State `d` fits before the next event `e` (R489). -/
def State.fits (s : State) (n d : Nat) (e : Option Nat) : Bool :=
  match e with
  | none => true
  | some t => decide (s.time + entryTime d + s.wakeLead n d ≤ t)

/-- The state R489 chooses. -/
def State.chooseState (s : State) (n : Nat) (e : Option Nat) : Nat :=
  (([3, 2, 1].filter fun d => d ≤ s.blockLimit n && s.fits n d e).head?).getD 0

/-- A wake source in the cycle of the decision wins (R80, R491). -/
def State.placeRefused (s : State) (n : Nat) : State :=
  (if n < 8 then (s.put F.STK_SLEEP_REFUSED n true).bump F.STK_SLEEP_REFUSALS n 1
   else (s.put F.PWR_BLOCK_REFUSED n true).bump F.PWR_BLOCK_REFUSALS n 1).perf 0x003 1

/-- What entering a state ends in the block: a Kiln slice (R457), a capture (R475); the store's channels go to self-refresh in Bank (R270). -/
def State.blockEnters (s : State) (n d : Nat) : State :=
  let s1 := s.sliceStopped (blockRegions n)
  let s2 := if 19 ≤ n ∧ n ≤ 22 then s1.capAbandon (n - 19) else s1
  if n = 12 ∧ d = 2 then s2.holdPark else s2

/-- Block `n` moves from the state it is in to the deeper state `d`. -/
def State.blockPlace (s : State) (n d : Nat) : State :=
  let s1 := s.blockEnters n d
  { s1 with moves := Amap.ins natLt (Amap.erase s1.moves n) n { from_ := s.rd F.PWR_BLOCK_CUR n, target := d, attempts := 0, depth := d, since := s.time } }

/-- The state out of Blaze that block `n` is in or moves to; 0 when it is in Blaze or waking. -/
def State.blockRests (s : State) (n : Nat) : Nat :=
  match Amap.find s.moves n with
  | some m => m.target
  | none => s.rd F.PWR_BLOCK_CUR n

/-- The wake of a block out of state `d` is due: its next event is no further off than the effective wake time and MARGIN (R489). -/
def State.wakeDue (s : State) (n d : Nat) : Bool :=
  match s.blockNext n with
  | some e => decide (e ≤ s.time + s.wakeLead n d)
  | none => false

/-- What wakes a block that rests in state `d` (R489, R490): power management is off, a condition of Table 17-3 has arisen, a floor or limit is now shallower,
or its next event is due. -/
def State.mustWake (s : State) (n d : Nat) : Bool :=
  !s.on F.PWR_CFG_PM_EN 0 || s.blockHeld n false || decide (min (s.blockFloor n) (s.rd F.PWR_BLOCK_LIMIT n) < d) || s.wakeDue n d

/-- The power manager evaluates a block out of Blaze again (R489): it wakes, or goes deeper where a new declaration allows it. -/
def State.powerReview (s : State) (n : Nat) : State :=
  let d := s.blockRests n
  if d = 0 then s
  else if s.mustWake n d then s.wakeBlock n
  else if (Amap.find s.moves n).isNone ∧ d < s.chooseState n (s.blockNext n) then s.blockPlace n (s.chooseState n (s.blockNext n))
  else s

/-- The blocks out of Blaze are evaluated in every idle step, so after every declaration and every condition that arises. -/
def State.powerTick (s : State) : State :=
  if s.blocksHeld then s else (List.range 26).foldl (fun u n => if u.blockAsleep n then u.powerReview n else u) s

/-- The power manager places an idle block in the deepest state that fits (R489), or evaluates one out of Blaze again. `race` says that a wake source arises
in the same cycle. -/
def execBlockStateEntry (n : Fin 26) (work race : Bool) (s : State) : Host.Outcome State Fault Refusal :=
  .next (
    if s.blocksHeld then s
    else if s.blockAsleep n then s.powerReview n
    else if s.on F.PWR_CFG_PM_EN 0 = false || s.blockHeld n work then s
    else
      let d := s.chooseState n (s.blockNext n)
      if d = 0 then s
      else if race then s.placeRefused n
      else s.blockPlace n d)

/-- A block wakes at once (R490). -/
def execBlockWake (n : Fin 26) (s : State) : Host.Outcome State Fault Refusal := .next (s.wakeBlock n)

/-- The wake starts at E minus the effective wake time minus MARGIN (R489). -/
def execScheduledWake (n : Fin 26) (s : State) : Host.Outcome State Fault Refusal :=
  .next (if s.blockRests n ≠ 0 ∧ s.wakeDue n (s.blockRests n) = true then s.wakeBlock n else s)

/-- A transition of a block ends: CUR takes the state it moved to (R487, R490). -/
def execBlockTransitionEnd (n : Fin 26) (s : State) : Host.Outcome State Fault Refusal :=
  .next (match Amap.find s.moves n.val with
    | none => s
    | some m =>
      let s1 := ({ s with moves := Amap.erase s.moves n.val }.sliceStopped (blockRegions n)).wr F.PWR_BLOCK_CUR n m.target
      let s2 := if 19 ≤ n.val ∧ n.val ≤ 22 ∧ m.target = 0 ∧ 2 ≤ m.from_ then s1.convCal (n - 19) else s1
      -- an entry reversed by a wake ends here too; an orderly stop keeps the store parked (R499)
      let s2 := s2.simGo
      if n.val = 12 ∧ m.target = 0 ∧ s.rd F.THERM_STATUS_STATE 0 ≠ 4 then s2.holdUnpark else s2)

/-! ### Sensors (R494, R495) -/

/-- The condition of R495 a reading meets, as THERM_SENSOR_n.CAUSE; 0 for none. -/
def State.sensorCause (s : State) (n code : Nat) (convFault : Bool) : Nat :=
  if code = 0 then 1
  else if code = 0xFFF then 2
  else if code < 144 ∨ 3424 < code then 3
  else if (match Amap.find s.sensorSeen n with | some p => decide (code + 480 < p ∨ p + 480 < code) | none => false) then 4
  else if convFault then 5
  else 0

/-- A reading of sensor `n`: its code, broken or clean; the answer is the cause when the sensor has become broken (R495). -/
def State.sensorTake (s : State) (n code : Nat) (convFault : Bool) : State × Option Nat :=
  let c := s.sensorCause n code convFault
  let was := s.on F.THERM_SENSOR_BROKEN n
  let s1 := { s with sensorSeen := Amap.put natLt 0xFFFF s.sensorSeen n code }.wr F.THERM_SENSOR_CODE n code
  if c ≠ 0 then
    let s2 := ({ s1 with cleanSweeps := Amap.put natLt 0 s1.cleanSweeps n 0 }.put F.THERM_SENSOR_BROKEN n true).wr F.THERM_SENSOR_CAUSE n c
    if was then (s2, none) else (s2.event F.THERM_EVENT_BROKEN 0, some c)
  else if was then
    let k := Amap.get 0 s1.cleanSweeps n + 1
    if 16 ≤ k then
      let s2 := ({ s1 with cleanSweeps := Amap.put natLt 0 s1.cleanSweeps n 0 }.put F.THERM_SENSOR_BROKEN n false).wr F.THERM_SENSOR_CAUSE n 0
      (s2.event F.THERM_EVENT_BROKEN 0, none)
    else ({ s1 with cleanSweeps := Amap.put natLt 0 s1.cleanSweeps n k }, none)
  else (s1, none)

/-- The value a sensor enters H with: 105 °C when broken. -/
def State.sensorValue (s : State) (n : Nat) : Nat := if s.on F.THERM_SENSOR_BROKEN n then 0xA90 else s.rd F.THERM_SENSOR_CODE n

/-- The hottest value of the sweep and the lowest sensor that gives it. -/
def State.hottest (s : State) : Nat × Nat :=
  (List.range 16).foldl (fun a n => if a.1 < s.sensorValue n then (s.sensorValue n, n) else a) (0, 0)

/-- The number of broken sensors. -/
def State.brokenCount (s : State) : Nat := ((List.range 16).filter fun n => s.on F.THERM_SENSOR_BROKEN n).length

/-! ### Damper (R496 to R501) -/

/-- W of THERM_CFG.WARN as a code. -/
def State.warnCode (s : State) : Nat := (clampNat 80 100 (s.rd F.THERM_CFG_WARN 0) + 64) * 16

/-- The orderly stop is entered with the cause of bit 31 and the reason of GOING_DOWN (R376, R496, R499). -/
def State.thermStop (s : State) (cause reason : Nat) : State :=
  let s1 := ((s.tokensSettle.wr F.THERM_STATUS_STATE 0 3).event F.THERM_EVENT_STOP 0).stopClients
  { s1 with thermAt := s.time, stopDue := some reason }.errorLine 31 0 cause

/-- Steps 2 to 4 of the orderly stop end (Table 17-8): what is in flight is discarded, then the lanes whose ripple runs get GOING_DOWN (R376), then the store is
parked. -/
def State.stopSteps (s : State) : State :=
  match s.stopDue with
  | none => s
  | some reason =>
    let s1 := { s.dropInFlight with stopDue := none }
    ((List.range 48).foldl (fun t n => t.queueGoingDown n reason) s1).holdPark

/-- The drain of an orderly stop lasts 150 µs at most. -/
def State.stopTick (s : State) : State :=
  if s.rd F.THERM_STATUS_STATE 0 = 3 ∧ s.thermAt + 375000 ≤ s.time then s.stopSteps else s

/-- The device time since which a condition has held, at a sweep that finds it so or not. -/
def since (was : Option Nat) (now : Nat) (holds : Bool) : Option Nat := if holds then some (was.getD now) else none

/-- The Damper's decisions at the end of a sweep (Table 17-7). -/
def State.damper (s : State) : State :=
  let st := s.rd F.THERM_STATUS_STATE 0
  let h := s.rd F.THERM_STATUS_H 0
  let heff := if 8 ≤ s.brokenCount then max h 2864 else h
  let w := if s.warnCode ≤ heff then s.warnSweeps + 1 else 0
  let k := if 2864 ≤ heff then s.stopSweeps + 1 else 0
  let s0 := { s with warnSweeps := w, stopSweeps := k, coolAt := since s.coolAt s.time (decide (h + 48 < s.warnCode)),
                     coldAt := since s.coldAt s.time (decide (h < 2544)) }
  let s1 := if 2544 ≤ h then s0.put F.THERM_STATUS_RESTART_OK 0 false else s0
  if st ≤ 2 ∧ 2 ≤ k then s1.thermStop 1 1
  else if st = 0 ∧ 2 ≤ w then (State.event { s1.wr F.THERM_STATUS_STATE 0 1 with thermAt := s.time } F.THERM_EVENT_WARN 0).errorLine 30 (s1.rd F.THERM_STATUS_HOT_SENSOR 0) 0
  else s1

/-- The end of a sweep: H, its sensor, the count of broken sensors, then the Damper. A state of CUT that was kept for reading ends here. -/
def State.sweepEnd (s : State) : State :=
  let x := s.hottest
  let s1 := ((s.wr F.THERM_STATUS_H 0 x.1).wr F.THERM_STATUS_HOT_SENSOR 0 x.2).wr F.THERM_STATUS_BROKEN 0 s.brokenCount
  let s2 := if s1.rd F.THERM_STATUS_STATE 0 = 5 then s1.wr F.THERM_STATUS_STATE 0 0 else s1
  s2.damper

/-- The thermal unit reads its next sensor, once converter 7 can convert (R473, R494, R495); with the converters' region failed every reading is a fault of the
converter (Table 15-1). -/
def execSensorRead (code : BitVec 12) (convFault : Bool) (s : State) : Host.Outcome State Fault Refusal :=
  .next (if s.blocksHeld || s.regionUntested 136 then s
    else if !s.convReady 7 && !s.regionExcluded 136 then s.thermalWaits
    else
      let n := s.nextSensor
      let x := s.sensorTake n code.toNat (convFault || s.regionExcluded 136)
      let s1 := { x.1 with nextSensor := (n + 1) % 16 }.thermalConv n
      let s2 := match x.2 with | some c => s1.errorLine 32 n c | none => s1
      if n = 15 then s.unlessReset s2 State.sweepEnd else s2)

/-- The grace time in units of device time: GRACE times 0.5 s, 1 to 120 (R497). -/
def State.graceTime (s : State) : Nat := clampNat 1 120 (s.rd F.THERM_CFG_GRACE 0) * 1250000000

/-- The grace time ends in REQUEST (R497, R498). -/
def execGraceExpiry (s : State) : Host.Outcome State Fault Refusal :=
  .next (if s.rd F.THERM_STATUS_STATE 0 = 1 ∧ s.thermAt + s.graceTime ≤ s.time then
    (State.event { s.tokensSettle.wr F.THERM_STATUS_STATE 0 2 with thermAt := s.time } F.THERM_EVENT_ENFORCE 0).measuresBegin
  else s)

/-- How long H must have stayed below W − 3 °C for the return to NORMAL: 1 s in REQUEST, 10 s in ENFORCE (Table 17-7). -/
def State.coolTime (s : State) : Option Nat :=
  match s.rd F.THERM_STATUS_STATE 0 with
  | 1 => some 2500000000
  | 2 => some 25000000000
  | _ => none

/-- A condition that has held since `was` has done so for `span`. -/
def lasted (was span : Option Nat) (now : Nat) : Bool :=
  match was, span with
  | some t, some d => decide (t + d ≤ now)
  | _, _ => false

/-- H has stayed below W − 3 °C for the time of Table 17-7. -/
def execDamperRelease (s : State) : Host.Outcome State Fault Refusal :=
  .next (if s.rd F.THERM_STATUS_H 0 + 48 < s.warnCode ∧ lasted s.coolAt s.coolTime s.time = true then
      (State.event { s.tokensSettle.wr F.THERM_STATUS_STATE 0 0 with thermAt := s.time } F.THERM_EVENT_RELEASE 0).measuresEnd
    else s)

/-- A write of THERM_CTL (R496, R500). -/
def State.thermCtlWrite (s : State) (v : Nat) : State × Status :=
  let st := s.rd F.THERM_STATUS_STATE 0
  let stop := F.THERM_CTL_STOP.of v = 1
  let restart := F.THERM_CTL_RESTART.of v = 1
  if stop ∧ restart then (s, .refusedState)
  else if stop then (if st ≤ 2 then (s.thermStop 3 2, .ok) else (s, .refusedState))
  else if restart then (if s.on F.THERM_STATUS_RESTART_OK 0 then (s.resetFor 4, .ok) else (s, .refusedState))
  else (s, .ok)

def execThermStop (ag : Agent) (s : State) : Host.Outcome State Fault Refusal :=
  .next (s.writing ag .THERM_CTL 0 1 fun t => t.thermCtlWrite 1)

def execThermRestart (ag : Agent) (s : State) : Host.Outcome State Fault Refusal :=
  .next (s.writing ag .THERM_CTL 0 2 fun t => t.thermCtlWrite 2)

/-- The lanes and ports take notice that the lanes have lost their bias (R499). -/
def State.lanesStop (s : State) : State :=
  (List.range 48).foldl (fun u p => u.portUpdate p) ((List.range 48).foldl (fun u n => (u.decTrack n).smokeTrack n) s)

/-- The orderly stop's steps complete: those not yet over, then lanes and converters are powered down (R499). -/
def execOrderlyStopComplete (s : State) : Host.Outcome State Fault Refusal :=
  .next (if s.rd F.THERM_STATUS_STATE 0 = 3 then State.lanesStop { s.stopSteps.wr F.THERM_STATUS_STATE 0 4 with thermAt := s.time } else s)

/-- H has stayed below 95 °C for 10 s in STOPPED (R500). -/
def execRestartOk (s : State) : Host.Outcome State Fault Refusal :=
  .next (if s.rd F.THERM_STATUS_STATE 0 = 4 ∧ s.rd F.THERM_STATUS_H 0 < 2544 ∧ lasted (s.coldAt.map (max s.thermAt)) (some 25000000000) s.time = true then
    (s.put F.THERM_STATUS_RESTART_OK 0 true).event F.THERM_EVENT_RESTART_OK 0 else s)

/-- The hard-cut comparator trips (R442, R501). -/
def execHardCutTrip (s : State) : Host.Outcome State Fault Refusal :=
  .next (
    let s1 := (State.errorLine { s with cutTripped := true, cutArmed := false } 31 0 2).aliveStop 0x1F
    { s1.hold with resets := s1.resets + 1 }.wr F.THERM_STATUS_STATE 0 5)

/-- The comparator releases (R501). -/
def execHardCutRelease (s : State) : Host.Outcome State Fault Refusal :=
  .next (if s.cutTripped then { s with cutTripped := false, cutArmed := true } else s)

/-- Writes of the clock, power and thermal registers. -/
def State.powerWrite (s : State) (r : Reg) (v : Nat) : Option (State × Status) :=
  match r with
  | .PWR_CLK_CTL => some (s.clkWrite v)
  | .THERM_CTL => some (s.thermCtlWrite v)
  | _ => none

/-- Reads of these registers that are views: device time (R485). -/
def State.powerRead (s : State) (r : Reg) : Option Nat :=
  match r with
  | .PWR_TIME_LO => some (s.time % 2 ^ 32)
  | .PWR_TIME_HI => some (s.time / 2 ^ 32 % 2 ^ 32)
  | _ => none

end Sys2Proof.Machine
end

