-- ==== Sys2Proof/Machine/Scrub.lean ====
section
/-!
DEFINITION. The on-chip scrubber (R426), the votes of the critical words (R428, Table 13-3), writes of the injection and log registers (R429 to R432).
-/

namespace Sys2Proof.Machine

/-- The vote of a word of the reaction table. -/
def State.voteReact (s : State) (n : Nat) : State := let x := s.reactVote n; x.1.errorLines x.2

/-- The vote of a critical word with the safe value of its class; a number beyond Table 13-2 names none. -/
def State.voteWord (s : State) (word : Nat) : State :=
  if word < 24 then s.voteTx word
  else if word < 72 then s.tvVote word fun u => u.resync ((word - 24) / 2)
  else if word < 200 then s.voteKey (word - 72)
  else if word < 206 then s.voteRole (word - 200)
  else if word < 270 then s.voteReact (word - 206)
  else if word = tvPtr then s.votePtr
  else s

/-- The stored value of a word of region 0 to 9, as far as the regions give their words a form (log entry 8). -/
def State.storedWord (s : State) (region word : Nat) : Option Nat :=
  match region with
  | 0 => some (s.ld .table word)
  | 1 => some (if word < 0x10000 then s.ld .priv word else s.ld .shared (word - 0x10000 + 0x20000))
  | 6 => some (s.laneStored word)
  | 7 => some (s.ld .ring (2 * word) + s.ld .ring (2 * word + 1) * 2 ^ 32)
  | 8 => some (s.slotWord (word / 8) (word % 8))
  | _ => none

/-- The scrubber's read of a word of regions 0 to 9 whose stored value is `v`: corrected words are written back, an uncorrectable one is poisoned, and no consumer
acts (R426). -/
def State.scrubRead (s : State) (region word v : Nat) : State :=
  let m := s.markOf region word 0
  let b := s.baseOf region word 0
  let s1 := (s.trackRead region word).rawCapture region word 0 v m.1 m.2
  let x := match decodeWord region m.1 m.2 with
    | .corrected => s1.correction region word 0 (bitOf m.1 m.2) b
    | .miscorrected => s1.miscorrection region word 0 v (wrongValue region (Nat.xor v b) m.1 m.2)
    | .uncorrectable => s1.uncorrectable region word 6
    | _ => (s1, [])
  x.1.errorLines x.2

/-- The scrubber skips withheld words and those that nothing has written (R421, R426, R448). -/
def State.scrubWord (s : State) (region word : Nat) : State :=
  if s.isWithheld region word || s.invalidWord region word then s
  else match s.storedWord region word with
    | some v => s.scrubRead region word v
    | none => s.drawn.scrubRead region word (s.freeVal % 2 ^ 64)

/-- What a scrub of one word does. -/
def State.scrub (s : State) (region word : Nat) : State := if region = 10 then s.voteWord word else s.scrubWord region word

/-- A critical word the table lists, or any word of another region. -/
def scrubPlace (region word : Nat) : Bool := decide (region ≠ 10 ∨ word ≤ tvPtr)

/-- The scrubber reads one word (R426). `upsets` are the bits its surroundings have inverted since the last access; `passEnds` says that the read
completes a pass of the region. -/
def execMempScrub (region : Fin 11) (word : BitVec 24) (upsets : List Upset) (passEnds : Bool) (s : State) : Host.Outcome State Fault Refusal :=
  .next (
    let s1 := s.upsets region word.toNat upsets
    if s.blocksHeld || s.on F.MEMP_CTL_SCRUB_EN 0 = false || !scrubPlace region word.toNat then s1
    else
      let s2 := s1.scrub region word.toNat
      if passEnds then { s2.bumpWrap F.MEMP_REG_STATUS_PASSES region 1 with scrubAt := Amap.put natLt 0 s2.scrubAt region.val s.time } else s2)

/-- A write of MEMP_INJECT_CTL. -/
def execInjectArm (ag : Agent) (v : W32) (s : State) : Host.Outcome State Fault Refusal :=
  .next (s.writing ag .MEMP_INJECT_CTL 0 v.toNat fun t => t.injectWrite v.toNat)

/-- A write of MEMP_LOG_POP. -/
def execMempLogPop (ag : Agent) (s : State) : Host.Outcome State Fault Refusal :=
  .next (s.writing ag .MEMP_LOG_POP 0 0 fun t => (t.logPop, .ok))

/-- A write of MEMP_CTL: the scrubber's passes begin when it is enabled. -/
def State.mempCtlWrite (s : State) (v : Nat) : State × Status :=
  let s1 := if F.MEMP_CTL_SCRUB_EN.of v = 1 ∧ s.on F.MEMP_CTL_SCRUB_EN 0 = false then { s with scrubFrom := s.time } else s
  (Reg.MEMP_CTL.fields.foldl (fun t f => t.wr f 0 (f.of v)) s1, .ok)

/-- Writes of the protection registers. -/
def State.mempWrite (s : State) (r : Reg) (v : Nat) : Option (State × Status) :=
  match r with
  | .MEMP_CTL => some (s.mempCtlWrite v)
  | .MEMP_INJECT_CTL => some (s.injectWrite v)
  | .MEMP_LOG_POP => some (s.logPop, .ok)
  | _ => none

/-- Reads of the protection registers that are views: the oldest log entry (R432). -/
def State.mempRead (s : State) (r : Reg) : Option Nat :=
  match r, s.log with
  | .MEMP_STATUS, l => some (s.word .MEMP_STATUS 0 + l.length * 2 ^ 8)
  | .MEMP_LOG_LO, e :: _ => some (e.word % 2 ^ 24)
  | .MEMP_LOG_HI, e :: _ => some (e.kind * 2 ^ 28 + e.region * 2 ^ 24 + e.bit * 2 ^ 16 + e.copy * 2 ^ 14)
  | _, _ => none

end Sys2Proof.Machine
end

