-- ==== Sys2Proof/Machine/Session.lean ====
section
/-!
DEFINITION. The Tinder link: bring-up, acknowledgement and replay, sessions and authentication (R383 to R393, R398).
-/

namespace Sys2Proof.Machine

/-! ### Bring-up (R383 to R386, Table 11-2) -/

/-- The link can train: Kiln region 134 has been released (R384). -/
def State.linkUp (s : State) : Bool := !s.blocksHeld && !s.regionUntested 134 && !s.regionExcluded 134

/-- The setting with the widest eye among 0 to 14 dB, the lower one on a tie (R383). -/
def widestEye (eyes : List (BitVec 16)) : Nat :=
  ((List.range 15).foldl (fun a k =>
    let e := (eyes.getD k 0).toNat
    if k = 0 ∨ a.1 < e then (e, k) else a) (0, 0)).2

/-- The PEAK field of a physical lane. -/
def peakFld (l : Nat) : Fld := { F.TINDER_EQ_PEAK_0 with lo := 4 * l }

/-- RESET is over: the receive clock is locked and the equaliser set; with EQ_ADAPT the eyes of the 15 settings of each lane decide (R383). -/
def execEqAdaptDone (eyes : List (List (BitVec 16))) (s : State) : Host.Outcome State Fault Refusal :=
  .next (if s.linkUp && decide (s.rd F.TINDER_STATUS_STATE 0 = 0) then
    let s1 := if s.on F.TINDER_CTL_EQ_ADAPT 0 then (List.range 4).foldl (fun t l => t.wr (peakFld l) 0 (widestEye (eyes.getD l []))) s else s
    s1.linkState 1
  else s)

/-- The fill characters of a set: ten D10.2, or ten D21.5 on an inverted lane (R385). -/
def TsSet.fills (t : TsSet) (c : Nat) : Bool := decide (t.fill.length = 10) && t.fill.all fun b => b.toNat = c

/-- A valid TS1 or TS2 (Table 11-1). -/
def TsSet.ok (t : TsSet) : Bool :=
  decide (t.id.toNat = 0x31 ∨ t.id.toNat = 0x32) && decide (t.version.toNat = 1) && decide (t.flags.toNat < 8) && decide (t.mask.toNat < 16) && t.fills 0x4A

/-- Eight sets with PEER_SEEN have arrived on each chosen lane, so the end sends TS2 and the choice of the width stands. -/
def State.widthFixed (s : State) (lanes : List Nat) : Bool := lanes ≠ [] && lanes.all fun l => decide (8 ≤ Amap.get 0 s.peerSeen l)

/-- The link enters CONFIG. -/
def State.configEnter (s : State) : State := { (s.linkState 2) with peerSeen := [], ts2Seen := [] }

/-- A request of session `k` outlives its session, which stood as `x`. -/
def HostReq.leave (k : Nat) (x : Sess) (q : HostReq) : HostReq := if q.session = k ∧ q.orphan = none then { q with orphan := some x } else q

/-- Session `k` closes: its responses and its capture are discarded (R88, R558). The words it has staged for a mailbox, POST_FULL and RSP_DROPPED stay
(log entry 29). -/
def State.closeSession (s : State) (k : Nat) : State :=
  let s1 := { s with captures := s.captures.filter fun c => c.reader ≠ k }
  let s2 := (List.range 8).foldl (fun t b =>
    t.setBank b { t.bank b with responses := (t.bank b).responses.filter fun r => r.1 ≠ k }) s1
  s2.setSess k Sess.init

/-- Session `k` is lost with the link: what it has asked is still done, without an answer (R390). -/
def State.loseSession (s : State) (k : Nat) : State :=
  ({ s with hostWait := s.hostWait.map (HostReq.leave k (s.sess k)) } : State).closeSession k

/-- Every Tinder session is lost (R390). -/
def State.closeTinder (s : State) : State := (List.range 8).foldl (fun t i => if (t.sess (i + 1)).isOpen then t.loseSession (i + 1) else t) s

/-- FRESH = 1 is received. -/
def State.freshRx (s : State) : State := { s with replayBuf := [], lseqTx := 0, lseqRx := 0 }.closeTinder

/-- The packets that wait in the replay buffer go out when the link is ACTIVE; those sent before are replays (R388, R390). -/
def State.resendAll (s : State) (l : List (Nat × List Nat × Nat)) : State :=
  l.foldl (fun t e => (if e.2.2 = 0 then t else t.bump F.TINDER_ERR_REPLAY 0 1).linkEmit e.2.1) s

/-- The packet layer becomes ACTIVE. -/
def State.linkGo (s : State) : State :=
  let s1 := (s.linkState 4).resendAll s.replayBuf
  { s1 with fresh := false, misplacedAlign := 0, alignAt := s.time + 8192, replayBuf := s1.replayBuf.map fun e => (e.1, e.2.1, e.2.2 + 1) }

/-- MAP shows the logical lane received on each aligned physical lane. -/
def State.mapShow (s : State) : State :=
  s.wr F.TINDER_STATUS_MAP 0 (s.lanesAligned.foldl (fun a e => a + e.2 % 4 * 4 ^ e.1) 0)

/-- A valid set in ALIGN: the eighth in a row aligns the lane; with all four lanes aligned and deskewed the link configures (R384, R385). -/
def State.alignTs (s : State) (l : Nat) (ts : TsSet) (skew : Nat) : State :=
  let n := Amap.get 0 s.tsSeen l + 1
  let s1 := { s with tsSeen := Amap.put natLt 0 s.tsSeen l n }
  let s2 := if n < 8 then s1
    else ({ s1 with lanesAligned := Amap.ins natLt (Amap.erase s1.lanesAligned l) l ts.lane.toNat }).mapShow
  if s2.goodLanes.length = 4 ∧ skew ≤ 64 then s2.configEnter else s2

/-- A valid set in CONFIG: the width follows R386 until it is fixed; a MASK that disagrees with a fixed width sends the link to RESET; the sets with
PEER_SEEN and the TS2 are counted (Table 11-2). -/
def State.configTs (s : State) (l : Nat) (ts : TsSet) (before : List Nat) : State :=
  let lanes := s.chosenLanes
  if s.widthFixed before ∧ lanes ≠ before then s.linkReset
  else
    let s1 := s.put F.TINDER_STATUS_WIDTH 0 (lanes.length = 4)
    if !lanes.contains l then s1
    else
      let s2 := if ts.flags.getLsbD 0 then { s1 with peerSeen := Amap.put natLt 0 s1.peerSeen l (Amap.get 0 s1.peerSeen l + 1) } else s1
      if ts.id.toNat = 0x32 then { s2 with ts2Seen := Amap.put natLt 0 s2.ts2Seen l (Amap.get 0 s2.ts2Seen l + 1) } else s2

/-! ### What the lanes carry (R384, R386, R387) -/

/-- The FLAGS of the sets sent: PEER_SEEN once a lane is aligned (log entry 45), FALLBACK in CONFIG at width one, FRESH (R386, R390). -/
def State.tsFlags (s : State) : Nat :=
  (if s.lanesAligned = [] then 0 else 1) + (if s.rd F.TINDER_STATUS_STATE 0 = 2 ∧ s.fullWidth = false then 2 else 0) + if s.fresh then 4 else 0

/-- MASK of the sets sent: the logical lanes aligned here; none in RESET. -/
def State.tsMask (s : State) : Nat := s.goodLanes.foldl (fun a e => Nat.lor a (2 ^ e.2)) 0

/-- What the lanes carry in the state in force (Table 11-2): nothing before region 134 is released; in CONFIG TS2 once the choice of the width stands, at
width one on the chosen lane only. -/
def State.fillNow (s : State) : LinkFill :=
  if !s.linkUp then .quiet
  else match s.rd F.TINDER_STATUS_STATE 0 with
    | 4 => .idle s.lanesUsed
    | 2 => .train (if s.fullWidth then [0, 1, 2, 3] else match s.commonLane with | some e => [e.2] | none => [0, 1, 2, 3]) (s.widthFixed s.chosenLanes)
        s.tsMask s.tsFlags
    | 1 => .train [0, 1, 2, 3] false s.tsMask s.tsFlags
    | _ => .train [0, 1, 2, 3] false 0 s.tsFlags

/-- TS2 is what the lanes carry. -/
def LinkFill.isTs2 : LinkFill → Bool
  | .train _ t _ _ => t
  | _ => false

/-- 16 TS2 have been sent: 204.8 ns have passed since the first began (Table 11-2, Table 11-7). -/
def State.ts2Sent (s : State) : Bool := s.linkFill.isTs2 && decide (s.ts2At + 512 ≤ s.time)

/-- CONFIG is complete: 8 sets with PEER_SEEN and 8 TS2 received on each chosen lane, 16 TS2 sent (Table 11-2). -/
def State.configDone (s : State) : Bool :=
  decide (s.rd F.TINDER_STATUS_STATE 0 = 2) && s.widthFixed s.chosenLanes && s.ts2Sent &&
    s.chosenLanes.all fun k => decide (8 ≤ Amap.get 0 s.ts2Seen k)

/-- The lanes carry what the state in force asks for. -/
def State.fillShow (s : State) : State :=
  let f := s.fillNow
  if f = s.linkFill then s
  else { s with linkFill := f, ts2At := if f.isTs2 && !s.linkFill.isTs2 then s.time else s.ts2At }.emit (.linkFill f)

/-- ALIGN goes out once every 4,096 groups of 0.8 ns while the packet layer runs (Table 11-1). -/
def State.alignSend (s : State) : State :=
  if s.linkActive && decide (s.alignAt ≤ s.time) then { s with alignAt := s.time + 8192 }.emit (.linkAlign s.lanesUsed) else s

/-- The link's transmitter as time goes on. -/
def State.linkTick (s : State) : State := (if s.configDone then s.linkGo else s).fillShow.alignSend

/-- A training set arrives on physical lane `l` (R384 to R386, R390). `skew` is the lane-to-lane skew in characters. -/
def execTsRx (l : Fin 4) (ts : TsSet) (skew : Byte) (s : State) : Host.Outcome State Fault Refusal :=
  .next (
    let st := s.rd F.TINDER_STATUS_STATE 0
    if !s.linkUp || st = 0 then s
    else if st = 4 then
      if ts.ok && decide (ts.id.toNat = 0x31) then (if ts.flags.getLsbD 2 then s.linkReset.freshRx else s.linkReset) else s
    else if ts.fills 0xB5 then
      { s.wr F.TINDER_STATUS_POL 0 (Nat.xor (s.rd F.TINDER_STATUS_POL 0) (2 ^ l.val)) with tsSeen := Amap.put natLt 0 s.tsSeen l.val 0 }
    else if !ts.ok then { s with tsSeen := Amap.put natLt 0 s.tsSeen l.val 0 }
    else
      let before := s.chosenLanes
      let s1 := if ts.flags.getLsbD 2 then s.freshRx else s
      let s2 := { s1 with peerMask := ts.mask.toNat }
      if st = 1 then s2.alignTs l ts skew.toNat else s2.configTs l ts before)

/-- In ALIGN 2 ms pass, or 10 ms (Table 11-2). Two lanes with one LANE, or a LANE above 3, keep the end in ALIGN (R385). -/
def execAlignTimeout (ms10 : Bool) (s : State) : Host.Outcome State Fault Refusal :=
  .next (if s.rd F.TINDER_STATUS_STATE 0 ≠ 1 ∨ s.time < s.linkAt + (if ms10 then 25000000 else 5000000) then s
    else if ms10 then s.linkReset
    else if s.on F.TINDER_CTL_FALLBACK_EN 0 && decide (s.lanesAligned ≠ []) && decide (s.goodLanes = s.lanesAligned) then
      { s.configEnter with narrow := true }.put F.TINDER_STATUS_WIDTH 0 false
    else s)

/-- In CONFIG 2 ms pass (Table 11-2). -/
def execConfigTimeout (s : State) : Host.Outcome State Fault Refusal := .next (if s.rd F.TINDER_STATUS_STATE 0 = 2 ∧ s.linkAt + 5000000 ≤ s.time then s.linkReset else s)

/-- An ALIGN set arrives while ACTIVE; the second misplaced one in a row sends the link to RESET (Table 11-2). -/
def execAlignRx (misplaced : Bool) (s : State) : Host.Outcome State Fault Refusal :=
  .next (if !s.linkActive then s
    else if !misplaced then { s with misplacedAlign := 0 }
    else if s.misplacedAlign = 0 then { s with misplacedAlign := 1 }
    else s.linkReset)

/-- Code and disparity errors within 1 µs: counted; more than 8 send an ACTIVE link to RESET (Table 11-2). -/
def execCodeErrorBurst (errors : BitVec 16) (s : State) : Host.Outcome State Fault Refusal :=
  .next (
    let s1 := s.bump F.TINDER_ERR_CODE 0 errors.toNat
    if s1.linkActive && decide (8 < errors.toNat) then s1.linkReset else s1)

/-- A write of TINDER_CTL: RETRAIN acts once the response has been sent. -/
def State.tinderCtlWrite (s : State) (v : Nat) : State :=
  let s1 := ((s.wr F.TINDER_CTL_SSC_EN 0 (F.TINDER_CTL_SSC_EN.of v)).wr F.TINDER_CTL_EQ_ADAPT 0 (F.TINDER_CTL_EQ_ADAPT.of v)).wr
    F.TINDER_CTL_FALLBACK_EN 0 (F.TINDER_CTL_FALLBACK_EN.of v)
  if F.TINDER_CTL_RETRAIN.of v = 1 then { s1 with retrainAfter := true } else s1

def execTinderRetrain (ag : Agent) (v : W32) (s : State) : Host.Outcome State Fault Refusal :=
  .next (s.writing ag .TINDER_CTL 0 v.toNat fun t => (t.tinderCtlWrite v.toNat, .ok))

/-! ### Acknowledgement and replay (R387, R388) -/

/-- `a` is at or before `b` in the numbering of packets. -/
def lseqLe (a b : Nat) : Bool := decide ((b + 4096 - a) % 4096 < 2048)

/-- Packets up to `lseq` are acknowledged and leave the replay buffer. -/
def State.acked (s : State) (lseq : Nat) : State := { s with replayBuf := s.replayBuf.filter fun e => !lseqLe e.1 lseq }

/-- A received ACK. -/
def execTinderAck (lseq : BitVec 12) (s : State) : Host.Outcome State Fault Refusal := .next (if s.linkActive then s.acked lseq.toNat else s)

/-- A NAK: the packets after the named one are replayed; one replayed 4 times already sends the link to RESET (R388). -/
def State.nakTake (s : State) (lseq : Nat) : State :=
  if !s.linkActive then s
  else
    let s1 := s.acked lseq
    if s1.replayBuf.any fun e => decide (5 ≤ e.2.2) then s1.linkReset
    else { s1.resendAll s1.replayBuf with replayBuf := s1.replayBuf.map fun e => (e.1, e.2.1, e.2.2 + 1) }

/-- A received NAK. -/
def execTinderNak (lseq : BitVec 12) (s : State) : Host.Outcome State Fault Refusal := .next (s.nakTake lseq.toNat)

/-- NAK naming the last good LSEQ. -/
def State.nakSend (s : State) : State := s.linkAnswer tyNak ((s.lseqRx + 4095) % 4096)

/-- A packet is discarded under R387, counted and answered with NAK. -/
def State.badPacket (s : State) : State := if s.linkActive then (s.bump F.TINDER_ERR_PACKET 0 1).nakSend else s

/-- The LEN a TYPE requires; none for a type the host may not send (Table 11-4, R387). -/
def lenFits (type len : Nat) : Bool :=
  if type = 1 ∨ type = 2 ∨ type = 3 then decide (4 ≤ len ∧ len ≤ 256 ∧ len % 4 = 0)
  else if type = 0x10 then decide (len = 4)
  else if type = 0x11 then decide (len = 16)
  else if type = 0x12 ∨ type = 0xF0 ∨ type = 0xF1 then decide (len = 0)
  else false

/-- The bytes between SOP and EOP are a packet the receiver discards (R387): LEN unfit, TYPE unknown, or CRC wrong. A READ carries no payload. -/
def packetBad (bytes : List Nat) : Bool :=
  let type := bytes.getD 0 0
  let len := bytes.getD 6 0 * 256 + bytes.getD 7 0
  let payload := if type = 1 then 0 else len
  !lenFits type len || decide (bytes.length ≠ 16 + payload) ||
    decide (bytes.drop (12 + payload) ≠ bytesBe 4 (crc32 (bytes.take (12 + payload))))

/-- A session has more requests outstanding than R390 allows. -/
def State.overRequested (s : State) : Bool :=
  (List.range 9).any fun k => decide (32 < (s.hostWait.filter fun q => q.session = k).length)

/-- The ACK for the packets accepted since the last one, withheld while a session exceeds its limit (R388, R390). -/
def execLinkAckSend (s : State) : Host.Outcome State Fault Refusal :=
  .next (if s.linkActive && s.ackDue && !s.overRequested then { s with ackDue := false }.linkAnswer tyAck ((s.lseqRx + 4095) % 4096) else s)

/-- A packet with a sound form arrives: taken when it is the next one, discarded when it is a duplicate, otherwise answered with NAK (R388). While the
link is not ACTIVE it is ignored (R390). -/
def State.tinderAccept (s : State) (lseq : Nat) (take : State → State) : State :=
  if !s.linkActive then s
  else if lseq = s.lseqRx then take { s with lseqRx := (s.lseqRx + 1) % 4096, ackDue := true }
  else if lseqLe lseq s.lseqRx then { s with ackDue := true }
  else s.nakSend

/-! ### Sessions (R390 to R393, R398) -/

/-- A link that left ACTIVE 10 ms ago and has not come back closes every session (R390). -/
def execSessionTimeout (s : State) : Host.Outcome State Fault Refusal := .next (if s.linkActive || decide (s.time < s.downAt + 25000000) then s else s.closeTinder)

/-- One more failure of authentication; from the fourth in a row each one starts a lockout (R393). -/
def State.authFailed (s : State) : State :=
  let s1 := { s with authFailures := s.authFailures + 1 }.bump F.TINDER_AUTH_FAILURES 0 1
  if 4 ≤ s1.authFailures then { s1.put F.TINDER_AUTH_LOCKOUT 0 true with lockAt := s.time } else s1

/-- A lockout is over after 1 s (R393). -/
def execLockoutEnd (s : State) : Host.Outcome State Fault Refusal := 
  .next (if s.lockAt + 2500000000 ≤ s.time then s.put F.TINDER_AUTH_LOCKOUT 0 false else s)

/-- The MAC of R393: over the nonce, the session and the privilege code, under the level's access key. -/
def authMac (key nonce session code : Nat) : Nat := numBe (aesCmac (bytesBe 32 key) (bytesBe 8 nonce ++ [session % 256, code % 256]))

/-- The answer to a response `mac` of session `k` for the level `code` under the nonce (R393). -/
def State.authTry (s : State) (k : Nat) (challenge : Option Nat) (code mac : Nat) : State × Status :=
  if s.on F.TINDER_AUTH_LOCKOUT 0 then (s, .refusedPriv)
  else
    match challenge, s.accessKeys.find? fun e => e.1 = code with
    | some n, some (_, key) =>
      if mac = authMac key n k code then
        (({ s with authFailures := 0 }).setSess k { s.sess k with isOpen := true, priv := code, nonce := none }, .ok)
      else (s.authFailed, .refusedPriv)
    | _, _ => (s.authFailed, .refusedPriv)

/-- A fresh nonce for session `k`, asking for level `code` (log entry 1). -/
def State.challenge (s : State) (k code : Nat) : State × Nat :=
  let n := s.freeVal % 2 ^ 64
  (s.drawn.setSess k { s.sess k with nonce := some (n, code) }, n)

/-- OPEN of session `k` (R392, R393): the state, the type, the status and the payload of the answer. In a lockout an OPEN above Observer is refused before all
else. -/
def State.openSession (s : State) (k code : Nat) : State × Nat × Status × List Nat :=
  if s.on F.TINDER_AUTH_LOCKOUT 0 ∧ 1 ≤ code ∧ code < 4 then (s, tyOpenRsp, .refusedPriv, [])
  else if (s.sess k).isOpen ∨ 4 ≤ code then (s, tyOpenRsp, .refusedState, [])
  else if code = 0 then (s.setSess k { Sess.init with isOpen := true }, tyOpenRsp, .ok, [])
  else
    let x := s.challenge k code
    (x.1, tyChallenge, .ok, bytesBe 8 x.2)

/-- AUTH of session `k`; the challenge is used up (R393). -/
def State.authSession (s : State) (k mac : Nat) : State × Nat × Status × List Nat :=
  let c := (s.sess k).nonce
  let s1 := s.setSess k { s.sess k with nonce := none }
  let r := s1.authTry k (c.map Prod.fst) ((c.map Prod.snd).getD 4) mac
  (r.1, tyOpenRsp, r.2, [])

/-- CLOSE of session `k`; what was asked after it finds the session closed (R392). -/
def State.closeRequest (s : State) (k : Nat) : State × Nat × Status × List Nat :=
  if (s.sess k).isOpen then (s.closeSession k, tyOpenRsp, .ok, []) else (s, tyOpenRsp, .noSession, [])

/-- The service port's 0x06 OPEN: a fresh nonce in SYS_AUTH_NONCE, none during a lockout (R393, R397). -/
def execSpiOpen (s : State) : Host.Outcome State Fault Refusal :=
  .next (if s.inReset then s
    else if s.on F.TINDER_AUTH_LOCKOUT 0 then s.wr F.SVC_SPI_STATUS_LAST 0 Status.refusedPriv.code
    else
      let x := s.challenge 0 0
      let b := bytesBe 8 x.2
      ((x.1.wr F.SYS_AUTH_NONCE_LO_NONCE 0 (numBe (b.take 4))).wr F.SYS_AUTH_NONCE_HI_NONCE 0 (numBe (b.drop 4))).wr F.SVC_SPI_STATUS_LAST 0 0)

/-- A write of SYS_AUTH_REQ: the MAC of SYS_AUTH_RESP is checked for that level of session 0; the result appears in SVC_SPI_STATUS. -/
def State.authReqWrite (s : State) (v : Nat) : State × Status :=
  let c := (s.sess 0).nonce
  let s1 := s.setSess 0 { s.sess 0 with nonce := none }
  let mac := (List.range 4).foldl (fun a i => a * 2 ^ 32 + s.rd F.SYS_AUTH_RESP_MAC i) 0
  let r := s1.authTry 0 (c.map Prod.fst) (F.SYS_AUTH_REQ_PRIV.of v) mac
  (r.1.wr F.SVC_SPI_STATUS_LAST 0 r.2.code, r.2)

def execSysAuthReq (ag : Agent) (v : W32) (s : State) : Host.Outcome State Fault Refusal :=
  .next (s.writing ag .SYS_AUTH_REQ 0 v.toNat fun t => t.authReqWrite v.toNat)

/-! ### Registers (R399) -/

/-- The reader's own session; none for a table (TINDER_SESSION). -/
def Agent.session : Agent → Option Nat
  | .host k => some k
  | _ => none

/-- The requests of session `k` accepted and not yet performed. -/
def State.outstandingOf (s : State) (k : Nat) : Nat := (s.hostWait.filter fun q => q.session = k).length

/-- Reads of the link's registers that are views. -/
def State.tinderRead (s : State) (ag : Agent) (r : Reg) : Option Nat :=
  match r with
  | .TINDER_SESSION =>
    some (match ag.session with
      | some k => (if (s.sess k).postedErr then 2 ^ 16 else 0) + min 255 (s.outstandingOf k) * 2 ^ 8 + s.priv ag * 2 ^ 6 + k
      | none => 0)
  | .TINDER_SESSION_ADDR => some (match ag.session with | some k => (s.sess k).postedAddr | none => 0)
  | .SVC_SPI_STATUS => some (s.rd F.SVC_SPI_STATUS_LAST 0 + s.spiPriv * 2 ^ 8)
  | _ => none

/-- Writes of the link's registers; a table's write of its session registers has no effect. -/
def State.tinderWrite (s : State) (ag : Agent) (r : Reg) (v : Nat) : Option (State × Status) :=
  match r with
  | .TINDER_CTL => some (s.tinderCtlWrite v, .ok)
  | .TINDER_SESSION =>
    some (match ag.session with
      | some k => (if F.TINDER_SESSION_POSTED_ERR.of v = 1 then s.setSess k { s.sess k with postedErr := false } else s, .ok)
      | none => (s, .ok))
  | _ => none

end Sys2Proof.Machine
end

