-- ==== Sys2Proof/Machine/Access.lean ====
section
/-!
DEFINITION. Register accesses by address: what a read returns and does, what a write does, captures, 64-bit accesses, commands reaching their units
(R6, R8, R9, R61, R70, R72, R394, R555 to R559).
-/

namespace Sys2Proof.Machine

/-! ### Reads -/

/-- The stored fields as a reader sees them: write-only fields read 0 (R8). -/
def State.plainRead (s : State) (r : Reg) (i : Nat) : Nat :=
  r.fields.foldl (fun a f => a + (if f.acc = .wo then 0 else s.rd f i * 2 ^ f.lo)) 0

/-- The views of a unit's registers. -/
def State.unitView (s : State) (ag : Agent) (r : Reg) (i : Nat) : Option Nat :=
  match r.info.unit with
  | .system | .peat => s.sysRead r
  | .tinder => s.tinderRead ag r
  | .stoker => s.stkRead ag r i
  | .lane => match s.decRead r i with | some v => some v | none => s.smokeRead r i
  | .bay => s.portRead r i
  | .prot => s.protRead r i
  | .hold => s.holdRead r
  | .irq => s.irqRead r i
  | .memp => s.mempRead r
  | .fault => s.faultRead r i
  | .power => s.powerRead r
  | .mcv => s.mcvRead r i
  | .perf => s.perfRead r i
  | _ => none

/-- The value register (r, i) shows a reader. -/
def State.view (s : State) (ag : Agent) (r : Reg) (i : Nat) : Nat := ((s.unitView ag r i).getD (s.plainRead r i)) % 2 ^ 32

/-- The critical word behind a register with access code TV (R428). -/
def tvOf (r : Reg) (i : Nat) : Option Nat :=
  match r with
  | .TUN_TX_SEQ_LO | .TUN_TX_SEQ_HI => some (tvTx i)
  | .TUN_RX_DEL_LO | .TUN_RX_DEL_HI => some (tvRxDel i)
  | .TUN_RX_HIGH_LO | .TUN_RX_HIGH_HI => some (tvRxHigh i)
  | .KEY_DESC => some (tvKey i)
  | .BAY_ROLE => some (tvRole i)
  | .FAULT_REACT => some (tvReact i)
  | .SYS_IMAGE_PTR_LO | .SYS_IMAGE_PTR_HI => some tvPtr
  | _ => none

/-- A read of a critical word votes it; of a tally that cannot be voted the specification states no value: a free value (Table 13-3, log entry 34). -/
def State.readVoted (s : State) (ag : Agent) (r : Reg) (i w : Nat) : State × Nat :=
  let s1 := s.voteWord w
  if w < 72 && !s.tvOk w then (s1.drawn, s1.freeVal % 2 ^ 32) else (s1, s1.view ag r i)

/-- A read clears the RC fields of the register; the count of discarded responses is the reader's own (R8, R88). -/
def State.readClear (s : State) (ag : Agent) (r : Reg) (i : Nat) : State :=
  let s1 := r.fields.foldl (fun t f => if f.acc = .rc then t.wr f i 0 else t) s
  if r = .STK_MBX_STATUS then s1.st .mbxDropped (i * 32 + ag.reader) 0 else s1

/-- An answer that may be POISONED. -/
def orPoisoned (x : State × Option Nat) : State × Status × Nat :=
  match x.2 with
  | some v => (x.1, .ok, v)
  | none => (x.1, .poisoned, 0)

/-- A read of a register past its checks, without captures: data ports advance, critical words are voted, RC fields clear. -/
def State.readLive (s : State) (ag : Agent) (r : Reg) (i : Nat) : State × Status × Nat :=
  match r with
  | .LANE_RX_COEF_DATA => orPoisoned (s.rxDataRead i)
  | .LANE_TX_COEF_DATA => orPoisoned (s.txDataRead i)
  | .LANE_DEC_COEF_DATA => orPoisoned (s.decDataRead i)
  | .LANE_MON_HIST_DATA => let x := s.histRead i; (x.1, .ok, x.2)
  | .LANE_DEC_CAP_DATA_LO => let x := s.decCapDataRead i; (x.1, .ok, x.2)
  | .MCV_CAP_DATA => let x := s.capDataRead i; (x.1, .ok, x.2)
  | .MCV_RESULT => let x := s.resultRead (i / 16) (i % 16); (x.1, .ok, x.2)
  | .MCV_URG_RESULT => let x := s.resultRead i 16; (x.1, .ok, x.2)
  | .PEAT_DATA => s.peatDataRead
  | r =>
    match tvOf r i with
    | some w => let x := s.readVoted ag r i w; (x.1, .ok, x.2)
    | none => (s.readClear ag r i, .ok, s.view ag r i)

/-! ### Captures (R6, R558) -/

/-- The value reader `k` has captured of a register. -/
def State.captured (s : State) (k : Nat) (r : Reg) (i : Nat) : Option Nat :=
  match s.captures.find? fun c => c.reader = k with
  | some c => (c.items.find? fun e => e.1 = r && e.2.1 = i).map fun e => e.2.2
  | none => none

/-- The capture of a reader replaced. -/
def State.setCapture (s : State) (k : Nat) (items : List (Reg × Nat × Nat)) : State :=
  let rest := s.captures.filter fun c => c.reader ≠ k
  { s with captures := if items = [] then rest else rest ++ [⟨k, items⟩] }

/-- A register leaves a reader's capture. -/
def State.releaseCapture (s : State) (k : Nat) (r : Reg) (i : Nat) : State :=
  match s.captures.find? fun c => c.reader = k with
  | some c => s.setCapture k (c.items.filter fun e => !(e.1 = r && e.2.1 = i))
  | none => s

/-- The instance of a register taken along by a capture: the level registers and RLM of a lane, otherwise the same number. -/
def State.captureItems (s : State) (ag : Agent) (r : Reg) (i : Nat) : List (Reg × Nat × Nat) :=
  r.captureSet.map fun h => (h, i, s.view ag h i)

/-- A read of a register past its checks (R558): from the reader's capture, or live, storing a capture where the register takes one. -/
def State.regRead (s : State) (ag : Agent) (r : Reg) (i : Nat) : State × Status × Nat :=
  match s.captured ag.reader r i with
  | some v => (s.releaseCapture ag.reader r i, .ok, v)
  | none =>
    let x := s.readLive ag r i
    if r.captureSet = [] then x else (x.1.setCapture ag.reader (s.captureItems ag r i), x.2)

/-- A 64-bit read: both halves at one instant, the captures untouched (R61, R558). -/
def State.pairRead (s : State) (ag : Agent) (r h : Reg) (i : Nat) : State × Status × Nat :=
  let x := s.readLive ag r i
  let hi := match tvOf h i with | some w => (s.readVoted ag h i w).2 | none => s.view ag h i
  (x.1, x.2.1, x.2.2 + hi * 2 ^ 32)

/-- A word of the Flue ring, read at its address (R511, R557). -/
def State.flueRead (s : State) (ag : Agent) (a : Nat) : State × Status × Nat :=
  match s.readCheck ag .PERF_STATUS 0 with
  | some st => (if st = .waiting then s.touched .PERF_STATUS 0 else s, st, 0)
  | none => orPoisoned (s.ringRead ((a - 0xD010000) / 4))

/-- A read at an address (R391, R394, R555, R559). -/
def State.accessRead (s : State) (ag : Agent) (a : Nat) (wide : Bool) : State × Status × Nat :=
  if s.sessionClosed ag then (s, .noSession, 0)
  else if s.badAddress a false wide then (s, .badAddress, 0)
  else match s.regAt a with
    | none => if isRingAddr a then s.flueRead ag a else (s, .ok, 0)
    | some (r, i) =>
      match s.readCheck ag r i with
      | some st => (if st = .waiting then s.touched r i else s, st, 0)
      | none => match wide, r.hi with
        | true, some h => s.pairRead ag r h i
        | _, _ => s.regRead ag r i

/-! ### Writes -/

/-- A write that only stores: RW fields take their bits, W1C bits clear, W1S bits set, write-only fields hold what was written for the unit (R8, R9). -/
def State.plainWrite (s : State) (r : Reg) (i v : Nat) : State :=
  r.fields.foldl (fun t f => match f.acc with
    | .rw | .wo => t.wr f i (f.of v)
    | .w1c => t.wr f i (Nat.land (t.rd f i) (2 ^ f.w - 1 - f.of v))
    | .w1s => t.wr f i (Nat.lor (t.rd f i) (f.of v))
    | _ => t) s

/-- The writes that do more than store, by unit. -/
def State.unitWrite (s : State) (ag : Agent) (r : Reg) (i v : Nat) : Option (State × Status) :=
  match r.info.unit with
  | .system => if r = .SYS_AUTH_REQ then some (s.authReqWrite v) else s.sysWrite ag r v
  | .peat => s.sysWrite ag r v
  | .tinder => s.tinderWrite ag r v
  | .stoker => s.stkWrite ag r i v
  | .lane =>
    match s.laneRxWrite r i v with
    | some x => some x
    | none => match s.laneTxWrite r i v with
      | some x => some x
      | none => match s.decWrite r i v with
        | some x => some x
        | none => s.smokeWrite r i v
  | .bay => s.portWrite r i v
  | .tunnel | .key => s.tunWrite r i v
  | .prot => s.protWrite r i v
  | .hold => if r = .HOLD_CTL then some (s.holdCtlWrite v) else s.holdWrite r v
  | .irq => s.irqWrite ag r i v
  | .memp => s.mempWrite r v
  | .fault => s.faultWrite r i v
  | .kiln => s.kilnWrite r v
  | .power => s.powerWrite r v
  | .mcv => s.mcvWrite ag r i v
  | .perf => s.perfWrite r i v
  | .io => s.ioWrite r i v
  | .flue => none

/-- A write of a register past its checks; the level of the unit's interrupt source follows what it stores. -/
def State.regWrite (s : State) (ag : Agent) (r : Reg) (i v : Nat) : State × Status :=
  match s.unitWrite ag r i v with
  | some x => x
  | none => ((s.plainWrite r i v).levelEdge s r i, .ok)

/-- A 64-bit write: both halves at one instant, the low half's status first (R61). -/
def State.pairWrite (s : State) (ag : Agent) (r h : Reg) (i v : Nat) : State × Status :=
  let x := s.regWrite ag r i (v % 2 ^ 32)
  if x.2 = .ok then x.1.regWrite ag h i (v / 2 ^ 32 % 2 ^ 32) else x

/-- A write at an address (R391, R394, R555, R559). -/
def State.accessWrite (s : State) (ag : Agent) (a v : Nat) (wide : Bool) : State × Status :=
  if s.sessionClosed ag then (s, .noSession)
  else if s.badAddress a true wide then (s, .badAddress)
  else match s.regAt a with
    | none => (s, .badAddress)
    | some (r, i) =>
      match s.writeCheck ag r i v with
      | some st => (if st = .waiting then s.touched r i else s, st)
      | none => match wide, r.hi with
        | true, some h => s.pairWrite ag r h i v
        | _, _ => s.regWrite ag r i (v % 2 ^ 32)

/-! ### Commands of banks reach their units (R70, R72) -/

/-- The oldest command of bank `b` to unit `u` that has not taken effect. -/
def State.nextCmd (s : State) (b : Nat) (u : Unit') : Option Cmd :=
  (s.bank b).cmds.find? fun c => c.phase = .issued && decide (Unit'.ofAddr c.addr = some u)

/-- The command with tag `tag` has been applied, with its status and value. -/
def State.cmdApplied (s : State) (b tag : Nat) (st : Status) (v : Nat) : State :=
  let k := s.bank b
  s.setBank b { k with cmds := Cmd.update (fun d => if d.phase = .issued then { d with phase := .applied st v } else d) tag k.cmds }

/-- The unit applies a command: a wait leaves it where it is. -/
def State.cmdApply (s : State) (b : Fin 8) (c : Cmd) : State :=
  let x : State × Status × Nat :=
    if c.write then (let y := s.accessWrite (.table b) c.addr c.value c.wide; (y.1, y.2, 0)) else s.accessRead (.table b) c.addr c.wide
  if x.2.1 = .waiting then x.1 else (x.1.cmdApplied b c.tag x.2.1 x.2.2).settle

/-- A unit takes the next command of a bank (R70): the commands of one bank take effect there in issue order. -/
def execCommandTakesEffect (b : Fin 8) (unit : Unit') (s : State) : Host.Outcome State Fault Refusal :=
  .next (match s.nextCmd b unit with
    | some c => s.cmdApply b c
    | none => s)

/-! ### Accesses named by their register -/

/-- A write at an address by a sender (R8): its status is the completion. -/
def execRegisterWrite (ag : Agent) (addr v : W32) (s : State) : Host.Outcome State Fault Refusal :=
  .next (
    let x := s.accessWrite ag addr.toNat v.toNat false
    (x.1.answer x.2 0).settle)

/-- A read at an address by a sender, with what it captures (R558). -/
def execCaptureRead (ag : Agent) (addr : W32) (s : State) : Host.Outcome State Fault Refusal :=
  .next (
    let x := s.accessRead ag addr.toNat false
    x.1.answer x.2.1 x.2.2)

/-- A read at an address by a sender, with the RC fields it clears (R8). -/
def execReadClear (ag : Agent) (addr : W32) (s : State) : Host.Outcome State Fault Refusal :=
  .next (
    let x := s.accessRead ag addr.toNat false
    x.1.answer x.2.1 x.2.2)

/-- A read of LANE_DEC_CAP_DATA_LO: the entry's samples, HI captured, the index advanced (R346). -/
def execLaneDecCapData (ag : Agent) (n : Fin 48) (s : State) : Host.Outcome State Fault Refusal :=
  .next (match s.readCheck ag .LANE_DEC_CAP_DATA_LO n.val with
    | some st => (if st = .waiting then s.touched .LANE_DEC_CAP_DATA_LO n.val else s).answer st 0
    | none =>
      let x := s.regRead ag .LANE_DEC_CAP_DATA_LO n.val
      x.1.answer x.2.1 x.2.2)

end Sys2Proof.Machine
end

