-- ==== Sys2Proof/Machine/HostReq.lean ====
section
/-!
DEFINITION. Host requests: bursts of the Tinder link and of the service SPI port, in the order of each session (R389 to R398).
-/

namespace Sys2Proof.Machine

/-- One access of a request; the answer is the state, the status and the word read. -/
def State.hostAccess (s : State) (q : HostReq) : State × Status × Nat :=
  let ag : Agent := .host (Fin.ofNat 9 q.session)
  match q.kind with
  | .read | .spiRead => s.accessRead ag q.addr false
  | _ => (let y := s.accessWrite ag q.addr (q.words.headD 0) false; (y.1, y.2, 0))

/-- The request after one register has been performed. -/
def HostReq.next (q : HostReq) (v : Nat) : HostReq :=
  match q.kind with
  | .read | .spiRead => { q with addr := (q.addr + 4) % 2 ^ 32, left := q.left - 1, got := q.got ++ [v], waited := 0 }
  | _ => { q with addr := (q.addr + 4) % 2 ^ 32, left := q.left - 1, words := q.words.drop 1, waited := 0 }

/-- SVC_SPI_STATUS.LAST is the status of the last access of the service port (R397, R399). -/
def State.spiLast (s : State) (q : HostReq) (st : Status) : State :=
  match q.kind with
  | .spiRead | .spiWrite => if st = .waiting then s else s.wr F.SVC_SPI_STATUS_LAST 0 st.code
  | _ => s

/-- The registers of a burst one after another, at most `n`: the request as it stands, and the status it ends with; `waiting` when it waits (R394). -/
def State.burst (s : State) (q : HostReq) : Nat → State × HostReq × Status
  | 0 => (s, q, .ok)
  | n + 1 =>
    let x := s.hostAccess q
    let t := x.1.spiLast q x.2.1
    if x.2.1 = .ok then t.burst (q.next x.2.2) n else (t, q, x.2.1)

/-- The words of a response as bytes, most significant first (R7). -/
def wordBytes (l : List Nat) : List Nat := l.flatMap (bytesBe 4)

/-- A posted write fails: POSTED_ERR and the failing address, in the session that posted it (R395). -/
def State.postedFail (s : State) (q : HostReq) : State :=
  if q.orphan.isSome then s else s.setSess q.session { s.sess q.session with postedErr := true, postedAddr := q.addr }

/-- The answer to a burst that has ended with a status (R394, R395, R397); a session that has closed gets none (R390). -/
def State.burstEnd (s : State) (q : HostReq) (st : Status) : State :=
  match q.kind with
  | .read => if q.orphan.isSome then s else s.send tyReadRsp q.session q.tag st.code (wordBytes q.got)
  | .write => if q.orphan.isSome then s else s.send tyWriteRsp q.session q.tag st.code []
  | .posted => if st = .ok then s else s.postedFail q
  | .spiRead => (s.wr F.SVC_SPI_STATUS_LAST 0 st.code).emit (.spi (wordBytes q.got))
  | .spiWrite => s.wr F.SVC_SPI_STATUS_LAST 0 st.code
  | _ => s

/-- The answer to a session request; one whose session has closed over it gets none (R390). -/
def HostReq.reply (q : HostReq) (x : State × Nat × Status × List Nat) : State :=
  if q.orphan.isSome then x.1 else x.1.send x.2.1 q.session q.tag x.2.2.1.code x.2.2.2

/-- A request runs as far as it can: the state and what is left of it. -/
def State.performReq (s : State) (q : HostReq) : State × Option HostReq :=
  match q.kind with
  | .openAt c => (q.reply (s.openSession q.session c), none)
  | .auth m => (q.reply (s.authSession q.session m), none)
  | .close => (if q.orphan.isSome then s.setSess q.session Sess.init else q.reply (s.closeRequest q.session), none)
  | _ =>
    if q.session ≠ 0 ∧ (s.sess q.session).isOpen = false then
      (if q.kind = .posted ∨ q.orphan.isSome then s
       else s.send (if q.kind = .read then tyReadRsp else tyWriteRsp) q.session q.tag Status.noSession.code [], none)
    else
      let x := s.burst q q.left
      if x.2.2 = .waiting then (x.1, some x.2.1) else ((x.1.burstEnd x.2.1 x.2.2).settle, none)

/-- The captures of reader `k` dropped. -/
def State.dropCapture (s : State) (k : Nat) : State := { s with captures := s.captures.filter fun c => c.reader ≠ k }

/-- The requests of session `k` that outlived it now find it as `x`. -/
def State.orphansFind (s : State) (k : Nat) (x : Sess) : State :=
  { s with hostWait := s.hostWait.map fun q => if q.session = k ∧ q.orphan.isSome then { q with orphan := some x } else q }

/-- A request whose session has closed over it is performed as in that session, and leaves it as the next such request finds it; the number's present session
stays as it is (R390). The capture that session had is lost, the one the present session holds is neither used nor disturbed (R558). -/
def State.performOrphan (s : State) (q : HostReq) : State × Option HostReq :=
  match q.orphan with
  | none => s.performReq q
  | some old =>
    let now := s.sess q.session
    let reader := (Agent.host (Fin.ofNat 9 q.session)).reader
    let x := ((s.dropCapture reader).setSess q.session old).performReq q
    let u := (x.1.orphansFind q.session (x.1.sess q.session)).setSess q.session now
    ({ u with captures := (u.captures.filter fun c => c.reader ≠ reader) ++ s.captures.filter fun c => c.reader = reader },
     x.2.map fun left => { left with orphan := some (x.1.sess q.session) })

/-- The requests of session `k`, oldest first, at most `n` of them, until one waits (R389). -/
def State.serve (s : State) (k : Nat) : Nat → State
  | 0 => s
  | n + 1 =>
    match s.hostWait.find? fun q => q.session = k with
    | none => s
    | some q =>
      let s1 := { s with hostWait := s.hostWait.eraseP fun d => d.session = k }
      let x := s1.performOrphan q
      match x.2 with
      | none => x.1.serve k n
      | some left => { x.1 with hostWait := left :: x.1.hostWait }

/-- Every waiting request that can go on does. -/
def State.serveAll (s : State) : State := (List.range 9).foldl (fun t k => t.serve k t.hostWait.length) s

/-- A request is accepted, behind those of its session. -/
def State.request (s : State) (q : HostReq) : State :=
  let s1 := { s with hostWait := s.hostWait ++ [q] }
  s1.serve q.session s1.hostWait.length

/-- A fresh request. -/
def mkReq (session tag : Nat) (kind : ReqKind) (addr : Nat) (words : List Nat) (left : Nat) : HostReq :=
  ⟨session, tag, kind, addr, words, left, [], none, 0⟩

/-- The response a request on session number 0 or above 8 gets on the link: NO_SESSION (R391); a posted write gets none. -/
def State.noSession (s : State) (session tag : Nat) (kind : ReqKind) : State :=
  match kind with
  | .posted => s
  | .read => s.send tyReadRsp session tag Status.noSession.code []
  | .write => s.send tyWriteRsp session tag Status.noSession.code []
  | _ => s.send tyOpenRsp session tag Status.noSession.code []

/-- A packet of the host that asks something arrives (R387 to R391). -/
def State.packet (s : State) (session lseq tag : Nat) (lenOk : Bool) (q : HostReq) : State :=
  if !lenOk then s.badPacket
  else s.tinderAccept lseq fun t => if 1 ≤ session ∧ session ≤ 8 then t.request q else t.noSession session tag q.kind

/-- READ (R394). -/
def execTinderRead (session : Byte) (lseq : BitVec 12) (tag : BitVec 16) (addr : W32) (len : BitVec 16) (s : State) :
    Host.Outcome State Fault Refusal :=
  .next (s.packet session.toNat lseq.toNat tag.toNat (lenFits 1 len.toNat) (mkReq session.toNat tag.toNat .read addr.toNat [] (len.toNat / 4)))

/-- WRITE (R394). -/
def execTinderWrite (session : Byte) (lseq : BitVec 12) (tag : BitVec 16) (addr : W32) (words : List W32) (s : State) :
    Host.Outcome State Fault Refusal :=
  .next (s.packet session.toNat lseq.toNat tag.toNat (lenFits 2 (4 * words.length))
    (mkReq session.toNat tag.toNat .write addr.toNat (words.map BitVec.toNat) words.length))

/-- WRITE_POSTED (R395). -/
def execTinderWritePosted (session : Byte) (lseq : BitVec 12) (tag : BitVec 16) (addr : W32) (words : List W32) (s : State) :
    Host.Outcome State Fault Refusal :=
  .next (s.packet session.toNat lseq.toNat tag.toNat (lenFits 3 (4 * words.length))
    (mkReq session.toNat tag.toNat .posted addr.toNat (words.map BitVec.toNat) words.length))

/-- OPEN (R392). -/
def execTinderOpen (session : Byte) (lseq : BitVec 12) (tag : BitVec 16) (code : Byte) (s : State) : Host.Outcome State Fault Refusal :=
  .next (s.packet session.toNat lseq.toNat tag.toNat true (mkReq session.toNat tag.toNat (.openAt code.toNat) 0 [] 0))

/-- AUTH (R393). -/
def execTinderAuth (session : Byte) (lseq : BitVec 12) (tag : BitVec 16) (mac : BitVec 128) (s : State) : Host.Outcome State Fault Refusal :=
  .next (s.packet session.toNat lseq.toNat tag.toNat true (mkReq session.toNat tag.toNat (.auth mac.toNat) 0 [] 0))

/-- CLOSE (R392). -/
def execTinderClose (session : Byte) (lseq : BitVec 12) (tag : BitVec 16) (s : State) : Host.Outcome State Fault Refusal :=
  .next (s.packet session.toNat lseq.toNat tag.toNat true (mkReq session.toNat tag.toNat .close 0 [] 0))

/-- The command of a packet that R387 does not discard, by its TYPE (Table 11-3, Table 11-4). -/
def State.packetIn (s : State) (bytes : List Nat) : State :=
  let at_ (i n : Nat) : List Nat := (bytes.drop i).take n
  let session := bytes.getD 1 0
  let lseq := numBe (at_ 2 2) % 4096
  let tag := numBe (at_ 4 2)
  let addr := numBe (at_ 8 4)
  let payload := at_ 12 (numBe (at_ 6 2))
  let words := (List.range (payload.length / 4)).map fun i => numBe (at_ (12 + 4 * i) 4)
  let ask (kind : ReqKind) (a : Nat) (ws : List Nat) (n : Nat) : State := s.packet session lseq tag true (mkReq session tag kind a ws n)
  match bytes.getD 0 0 with
  | 0x01 => ask .read addr [] (numBe (at_ 6 2) / 4)
  | 0x02 => ask .write addr words words.length
  | 0x03 => ask .posted addr words words.length
  | 0x10 => ask (.openAt (payload.headD 0)) 0 [] 0
  | 0x11 => ask (.auth (numBe payload)) 0 [] 0
  | 0x12 => ask .close 0 [] 0
  | 0xF0 => if s.linkActive then s.acked lseq else s
  | _ => s.nakTake lseq

/-- A packet arrives as its bytes: R387 discards it, or it is the command of its TYPE (log entry 29). -/
def execBadPacket (bytes : List Byte) (s : State) : Host.Outcome State Fault Refusal :=
  .next (let m := bytes.map BitVec.toNat; if packetBad m then s.badPacket else s.packetIn m)

/-! ### The service SPI port (R397) -/

/-- 0x0B READ of `count` registers. -/
def execSpiRead (addr : W32) (count : BitVec 16) (s : State) : Host.Outcome State Fault Refusal :=
  .next (if s.inReset then s else s.request (mkReq 0 0 .spiRead addr.toNat [] count.toNat))

/-- 0x02 WRITE of words. -/
def execSpiWrite (addr : W32) (words : List W32) (s : State) : Host.Outcome State Fault Refusal :=
  .next (if s.inReset then s else s.request (mkReq 0 0 .spiWrite addr.toNat (words.map BitVec.toNat) words.length))

/-- 0x05 STATUS: the status of the last access. -/
def execSpiStatus (s : State) : Host.Outcome State Fault Refusal :=
  .next (if s.inReset then s else s.emit (.spi [s.rd F.SVC_SPI_STATUS_LAST 0]))

/-! ### TIMEOUT (Table 11-5) -/

/-- The wait of an access counts towards its TIMEOUT: it is not for a Kiln release, a wake, a forced drop or a change of access mode (R43, R139, R490,
R526). -/
def State.waitCounts (s : State) (q : HostReq) : Bool :=
  (s.regAt q.addr).isSome && !s.inReset && !s.waitUncounted q.addr && !s.on F.SYS_ACCESS_MODE_TRANSITION 0

/-- The accesses that wait do so for `d` units of device time, as far as it counts towards their TIMEOUT. -/
def State.hostsWait (s : State) (d : Nat) : State :=
  { s with hostWait := s.hostWait.map fun q => if s.waitCounts q then { q with waited := q.waited + d } else q }

/-- The access that session waits for has not completed within 100 µs: it completes TIMEOUT and ends its burst. -/
def execHostAccessTimeout (session : Fin 9) (s : State) : Host.Outcome State Fault Refusal :=
  .next (match s.hostWait.find? fun q => q.session = session.val with
    | none => s
    | some q =>
      if s.waitCounts q ∧ 250000 ≤ q.waited then
        let s1 := { s with hostWait := s.hostWait.eraseP fun d => d.session = session.val }
        ((s1.burstEnd q .timeout).settle).serve session.val s1.hostWait.length
      else s)

end Sys2Proof.Machine
end

