-- ==== Sys2Proof/Machine/Boot.lean ====
section
/-!
DEFINITION. Boot's load, the way out of Service mode, failed wakes, the ends of block resets (R41, R331, R492, R519, R523, R524).
-/

namespace Sys2Proof.Machine

/-! ### BOOT_LOAD (R523 steps 4 to 7, R524) -/

/-- A word of shared data memory, as region 1 numbers it. -/
def State.sharedPut (s : State) (i v : Nat) : State := s.memWrite 1 (i - 0x20000 + 0x10000) .shared i v

/-- A run of words of shared data memory. -/
def State.sharedRun (s : State) (i : Nat) : List Nat → State
  | [] => s
  | v :: vs => (s.sharedPut i v).sharedRun (i + 1) vs

/-- TABLE_WORDS instruction words from the body of bank `b` go into table memory, from word `k` on; `n` are left. -/
def State.tableLoad (s : State) (b k : Nat) : Nat → State
  | 0 => s
  | n + 1 =>
    let w := (bankBase b + 256) / 4 + 2 * k
    (s.memWrite 0 k .table k (s.ld .peat w * 2 ^ 32 + s.ld .peat (w + 1))).tableLoad b (k + 1) n

/-- Eight bytes of a list to a word, most significant byte first. -/
def mapWords : List Nat → List Nat
  | a :: b :: c :: d :: e :: f :: g :: h :: rest => numBe [a, b, c, d, e, f, g, h] :: mapWords rest
  | _ => []

/-- The context descriptor and the mailbox map of bank `b` go to its state area (R521, Table 2-3). -/
def State.areaLoad (s : State) (e : EntryTable) (b : Nat) : State :=
  let s1 := match e.descriptors[b]? with | some d => s.sharedRun (stateArea b) ((d.map BitVec.toNat).take 8) | none => s
  match e.maps[b]? with
  | some m => s1.sharedRun (stateArea b + 0xC0) (mapWords ((m.map BitVec.toNat).take 256))
  | none => s1

/-- A withheld row of table memory holds a word the bank loads (R524). -/
def State.tableWithheld (s : State) (words : Nat) : Bool := s.withheld.any fun w => w.region = 0 && decide (w.first < words)

/-- The entry table goes to the state areas and the maps. -/
def State.entryLoad (s : State) (e : EntryTable) : State :=
  let s1 := (List.range 8).foldl (fun t b => t.areaLoad e b) s
  let s2 := e.owners.foldl (fun t o => t.st .owner o.1.toNat o.2.toNat) s1
  { s2 with accessKeys := e.keys.map fun k => (k.1.val, k.2.toNat), runMask := e.runMask.toNat, serviceFlag := e.service }

/-- The register write list, each entry in order at Vendor privilege; one that does not complete OK is counted and journalled; one that waits stands
first in what is left (R523). -/
def State.writesRun (s : State) : List (Nat × Nat) → State
  | [] => { s with writeList := [] }
  | (a, v) :: rest =>
    let x := s.accessWrite .boot a v false
    if x.1.resets ≠ s.resets then x.1
    else if x.2 = .waiting then { x.1 with writeList := (a, v) :: rest }
    else if x.2 = .ok then x.1.writesRun rest
    else ((x.1.bump F.SYS_BOOT_STATUS_WRITE_FAILS 0 1).journalAdd 6 [a, v]).writesRun rest

/-- Boot ends: RUN for every engine of RUN_MASK, then Service mode when asked for; STAGE is DONE (R523 steps 6 and 7). -/
def State.bootEnd (s : State) : State :=
  let s1 := (List.range 8).foldl (fun t b => if s.runMask.testBit b then ((t.put F.STK_CTL_RUN b true).runStart b).1 else t) s
  let s2 := if s.serviceFlag then s1.serviceRequest s1.cmdSerial else s1
  (s2.wr F.SYS_BOOT_STATUS_STAGE 0 5).settle

/-- Every engine that RUN_MASK names has its result from Kiln; the write of its RUN waits for it (R526). -/
def State.enginesTested (s : State) : Bool := (List.range 8).all fun b => !s.runMask.testBit b || !s.regionUntested (123 + b)

/-- Boot goes on with what is left of the write list; with none left it ends. -/
def State.bootGo (s : State) : State :=
  s.unlessReset (s.writesRun s.writeList) fun s1 => if s1.writeList = [] && s1.enginesTested then s1.bootEnd else s1

/-- The entry table of the loaded image is in place. -/
def State.bootEntry (s : State) (b : Nat) (e : EntryTable) : State :=
  let s1 := (s.tableLoad b 0 (s.headWord b 12)).entryLoad e
  let s2 := (s1.wr F.SYS_IMAGE_VERSION_VALUE 0 (s1.headWord b 16)).wr F.SYS_BOOT_STATUS_STAGE 0 4
  State.bootGo { s2 with writeList := e.writes.map (fun (w : W32 × W32) => (w.1.toNat, w.2.toNat)) }

/-- Kiln has released regions 131, 132 and 138 (R523). -/
def State.bootRegions (s : State) : Bool := !s.regionUntested 131 && !s.regionUntested 132 && !s.regionUntested 138

/-- A bank that cannot be loaded gives a result and the other bank is tried, once (R524). -/
def State.bootOther (s : State) (b result : Nat) : State :=
  let s1 := s.wr (bankResult b) 0 result
  let o := 1 - b
  if s1.rd (bankResult o) 0 = 0 then s1.tryBank o State.recovery else s1.recovery

/-- Bank `b` is read once more, word by word, and loaded; a word that has become uncorrectable since its check gives result 6, one of a withheld row 7 (R524). -/
def State.bootLoad (s : State) (b : Nat) (entry : EntryTable) : State :=
  if s.tableWithheld (s.headWord b 12) then s.bootOther b 7
  else
    let x := s.peatRange (bankBase b) (s.imageLength b)
    s.unlessReset (x.1.errorLines x.2.2) fun t => if x.2.1 then t.bootOther b 6 else t.bootEntry b entry

/-- The image is loaded and boot runs to its end, or to a write that waits; `entry` is its entry table. -/
def execBootLoad (entry : EntryTable) (s : State) : Host.Outcome State Fault Refusal :=
  .next (if s.blocksHeld || s.rd F.SYS_BOOT_STATUS_STAGE 0 ≠ 2 || !s.bootRegions then s
    else s.bootLoad (s.rd F.SYS_BOOT_STATUS_BANK 0) entry)

/-! ### LEAVE_SERVICE (R41) -/

/-- The device leaves Service mode on an Officer's request that bank `b` carries out: every key slot is zeroised and every tunnel blocks first. -/
def execLeaveService (b : Fin 8) (priv : Fin 4) (s : State) : Host.Outcome State Fault Refusal :=
  .next (if s.service && decide (2 ≤ priv.val) && (s.bank b).live then s.keysZero.put F.SYS_ACCESS_MODE_MODE 0 false else s)

/-! ### WAKE_FAIL (R492) -/

/-- The managed block behind an address. -/
def State.blockAt (s : State) (a : Nat) : Option Nat := match s.regAt a with | some (r, i) => blockOf r i | none => none

/-- The commands of banks and the host requests that wait for block `n` complete UNIT_ERROR. -/
def State.waitersFail (s : State) (n : Nat) : State :=
  let s1 := (List.range 8).foldl (fun t b =>
    (t.bank b).cmds.foldl (fun u c => if c.phase = .issued ∧ u.blockAt c.addr = some n then u.deliver b c.tag .unitError 0 else u) t) s
  let bad : List HostReq := (List.range 9).filterMap fun k => (s1.hostWait.find? fun d => d.session = k).filter (fun q => s1.blockAt q.addr = some n)
  let s2 := { s1 with hostWait := bad.foldl (fun l (q : HostReq) => l.eraseP fun d => d.session = q.session) s1.hostWait }
  (bad.foldl (fun (t : State) q => t.burstEnd q .unitError) s2).settle.serveAll

/-- Block `n` is not ready twice its effective wake time after a wake began: woken once more, then given up. -/
def execWakeFail (n : Fin 26) (s : State) : Host.Outcome State Fault Refusal :=
  .next (match Amap.find s.moves n.val with
    | none => s
    | some m =>
      if m.target ≠ 0 ∨ s.time < m.since + 2 * (wakeTime m.depth + readyTime n m.depth) then s
      else if m.attempts < 2 then { s with moves := Amap.ins natLt (Amap.erase s.moves n.val) n.val { m with attempts := 2, since := s.time } }
      else
        let s1 := { s with moves := Amap.erase s.moves n.val }.put F.PWR_BLOCK_WAKE_FAIL n true
        (s1.waitersFail n.val).errorLine 35 n.val 0)

/-! ### BLOCK_RESET_END (R331, R519) -/

/-- Resend runs outstanding at a reset of the protection unit are sent again once it is over (R331). -/
def State.runsAgain (s : State) : State :=
  (List.range 24).foldl (fun t k => (t.protT k).runs.foldl (fun u r => u.sendResend k r.first r.count) t) s

/-- Ride-through copies that the protection unit no longer indexes are released after its reset (R331, log entry 46). -/
def State.rideOrphans (s : State) : State := s.holdRelease true fun h => h.kind = .ride && !(s.protT h.tunnel).backlog.contains h.seq

/-- The block reset of an instance ends. -/
def execBlockResetEnd (src : Fin 64) (inst : BitVec 8) (s : State) : Host.Outcome State Fault Refusal :=
  .next (match blockInstance src inst.toNat with
    | none => s
    | some i =>
      if s.blockResets.contains (src.val, i) then
        let s1 := s.blockResetEnd src i
        if src.val = 16 then s1.rideOrphans.runsAgain else s1
      else s)

end Sys2Proof.Machine
end

