-- ==== Sys2Proof/Machine/Dispatch.lean ====
section
/-!
DEFINITION. The dispatcher: one arm per command, each one direct call of that command's meaning.
-/

namespace Sys2Proof.Machine

/-- The effect of a command on everything but the queue. -/
def exec (i : Instr) (s : State) : Host.Outcome State Fault Refusal :=
  match i with
  | .addOp b w => Sys2Proof.Machine.execAddOp b w s
  | .subOp b w => Sys2Proof.Machine.execSubOp b w s
  | .andOp b w => Sys2Proof.Machine.execAndOp b w s
  | .orOp b w => Sys2Proof.Machine.execOrOp b w s
  | .xorOp b w => Sys2Proof.Machine.execXorOp b w s
  | .shl b w => Sys2Proof.Machine.execShl b w s
  | .shr b w => Sys2Proof.Machine.execShr b w s
  | .sar b w => Sys2Proof.Machine.execSar b w s
  | .mul b w => Sys2Proof.Machine.execMul b w s
  | .cmp b w => Sys2Proof.Machine.execCmp b w s
  | .tst b w => Sys2Proof.Machine.execTst b w s
  | .li b w => Sys2Proof.Machine.execLi b w s
  | .lih b w => Sys2Proof.Machine.execLih b w s
  | .mov b w => Sys2Proof.Machine.execMov b w s
  | .mfl b w => Sys2Proof.Machine.execMfl b w s
  | .mtag b w => Sys2Proof.Machine.execMtag b w s
  | .load b w upsets => Sys2Proof.Machine.execLoad b w upsets s
  | .store b w => Sys2Proof.Machine.execStore b w s
  | .casOp b w upsets => Sys2Proof.Machine.execCasOp b w upsets s
  | .branch b w => Sys2Proof.Machine.execBranch b w s
  | .branchLink b w => Sys2Proof.Machine.execBranchLink b w s
  | .branchReg b w => Sys2Proof.Machine.execBranchReg b w s
  | .ret b w => Sys2Proof.Machine.execRet b w s
  | .trap b w => Sys2Proof.Machine.execTrap b w s
  | .halt b w => Sys2Proof.Machine.execHalt b w s
  | .issueCmd b w => Sys2Proof.Machine.execIssueCmd b w s
  | .issueQry b w => Sys2Proof.Machine.execIssueQry b w s
  | .issueGet b w => Sys2Proof.Machine.execIssueGet b w s
  | .wtag b w => Sys2Proof.Machine.execWtag b w s
  | .cpop b w => Sys2Proof.Machine.execCpop b w s
  | .fence b w => Sys2Proof.Machine.execFence b w s
  | .wfe b w race => Sys2Proof.Machine.execWfe b w race s
  | .tset b w => Sys2Proof.Machine.execTset b w s
  | .tclr b w => Sys2Proof.Machine.execTclr b w s
  | .readTime b w => Sys2Proof.Machine.execReadTime b w s
  | .declareNext b w => Sys2Proof.Machine.execDeclareNext b w s
  | .ckpt b w => Sys2Proof.Machine.execCkpt b w s
  | .mrecv b w => Sys2Proof.Machine.execMrecv b w s
  | .msend b w => Sys2Proof.Machine.execMsend b w s
  | .sig b w => Sys2Proof.Machine.execSig b w s
  | .runaway b => Sys2Proof.Machine.execRunaway b s
  | .commandCompletion b tag => Sys2Proof.Machine.execCommandCompletion b tag s
  | .commandTimeout b tag => Sys2Proof.Machine.execCommandTimeout b tag s
  | .commandTakesEffect b unit => Sys2Proof.Machine.execCommandTakesEffect b unit s
  | .timerFire b timer => Sys2Proof.Machine.execTimerFire b timer s
  | .wfeWake b => Sys2Proof.Machine.execWfeWake b s
  | .lockstepMismatch e => Sys2Proof.Machine.execLockstepMismatch e s
  | .livenessWatchdog e => Sys2Proof.Machine.execLivenessWatchdog e s
  | .adoption b => Sys2Proof.Machine.execAdoption b s
  | .nmtTaken b => Sys2Proof.Machine.execNmtTaken b s
  | .stkCtlRunStart ag b => Sys2Proof.Machine.execStkCtlRunStart ag b s
  | .stkCtlRunStop ag b => Sys2Proof.Machine.execStkCtlRunStop ag b s
  | .mailboxPost ag b => Sys2Proof.Machine.execMailboxPost ag b s
  | .mailboxPop ag b => Sys2Proof.Machine.execMailboxPop ag b s
  | .responseExpiry b k => Sys2Proof.Machine.execResponseExpiry b k s
  | .enterService ag => Sys2Proof.Machine.execEnterService ag s
  | .serviceEntryComplete => Sys2Proof.Machine.execServiceEntryComplete s
  | .leaveService b priv => Sys2Proof.Machine.execLeaveService b priv s
  | .registerWrite ag addr v => Sys2Proof.Machine.execRegisterWrite ag addr v s
  | .captureRead ag addr => Sys2Proof.Machine.execCaptureRead ag addr s
  | .readClear ag addr => Sys2Proof.Machine.execReadClear ag addr s
  | .laneStateRequest ag n v => Sys2Proof.Machine.execLaneStateRequest ag n v s
  | .laneTransitionEnd n => Sys2Proof.Machine.execLaneTransitionEnd n s
  | .laneRxCfgWrite ag n v => Sys2Proof.Machine.execLaneRxCfgWrite ag n v s
  | .elasticQueueOverflow n => Sys2Proof.Machine.execElasticQueueOverflow n s
  | .signalLoss n => Sys2Proof.Machine.execSignalLoss n s
  | .signalReturn n => Sys2Proof.Machine.execSignalReturn n s
  | .openInputCheck n pMv nMv => Sys2Proof.Machine.execOpenInputCheck n pMv nMv s
  | .gainLoopUpdate n => Sys2Proof.Machine.execGainLoopUpdate n s
  | .reconvSlow n => Sys2Proof.Machine.execReconvSlow n s
  | .fomWindowEnd n => Sys2Proof.Machine.execFomWindowEnd n s
  | .seasonStart ag n v => Sys2Proof.Machine.execSeasonStart ag n v s
  | .seasoningStep n withinHalfLsb trim saturated => Sys2Proof.Machine.execSeasoningStep n withinHalfLsb trim saturated s
  | .cdrLockChange n lock => Sys2Proof.Machine.execCdrLockChange n lock s
  | .cdrReacquire n => Sys2Proof.Machine.execCdrReacquire n s
  | .adaptationUpdate n samples spare => Sys2Proof.Machine.execAdaptationUpdate n samples spare s
  | .freezeRelease n gain => Sys2Proof.Machine.execFreezeRelease n gain s
  | .coefSnapshot n => Sys2Proof.Machine.execCoefSnapshot n s
  | .laneDiverged n => Sys2Proof.Machine.execLaneDiverged n s
  | .laneRxCoefData ag n write => Sys2Proof.Machine.execLaneRxCoefData ag n write s
  | .warmStale n => Sys2Proof.Machine.execWarmStale n s
  | .wakeWindowEnd n => Sys2Proof.Machine.execWakeWindowEnd n s
  | .laneConverged n => Sys2Proof.Machine.execLaneConverged n s
  | .acqTimeout n => Sys2Proof.Machine.execAcqTimeout n s
  | .wakeFallback n => Sys2Proof.Machine.execWakeFallback n s
  | .polarityChange n => Sys2Proof.Machine.execPolarityChange n s
  | .txBlockBoundary n pairs => Sys2Proof.Machine.execTxBlockBoundary n pairs s
  | .txCommit ag n v => Sys2Proof.Machine.execTxCommit ag n v s
  | .laneTxCoefData ag n write => Sys2Proof.Machine.execLaneTxCoefData ag n write s
  | .laneTxSmokeWrite ag n v => Sys2Proof.Machine.execLaneTxSmokeWrite ag n v s
  | .saturationWindow n => Sys2Proof.Machine.execSaturationWindow n s
  | .sampleQueueUnderflow n => Sys2Proof.Machine.execSampleQueueUnderflow n s
  | .dacCalibrationEnd n failed => Sys2Proof.Machine.execDacCalibrationEnd n failed s
  | .shortDetect n kind atLimit => Sys2Proof.Machine.execShortDetect n kind atLimit s
  | .shortClear n kind => Sys2Proof.Machine.execShortClear n kind s
  | .bayCfgWrite ag b v => Sys2Proof.Machine.execBayCfgWrite ag b v s
  | .bayRoleWrite ag b v => Sys2Proof.Machine.execBayRoleWrite ag b v s
  | .portLaneState ag p v => Sys2Proof.Machine.execPortLaneState ag p v s
  | .portCfgWrite ag p v => Sys2Proof.Machine.execPortCfgWrite ag p v s
  | .alignmentMarker n body complemented expected errored ns => Sys2Proof.Machine.execAlignmentMarker n body complemented expected errored ns s
  | .foreignFormatSearch p found => Sys2Proof.Machine.execForeignFormatSearch p found s
  | .codewordDecode n corrected uncorrectable => Sys2Proof.Machine.execCodewordDecode n corrected uncorrectable s
  | .degradedWindow p => Sys2Proof.Machine.execDegradedWindow p s
  | .blockRx p flag body errored => Sys2Proof.Machine.execBlockRx p flag body errored s
  | .epochNoticeSend p => Sys2Proof.Machine.execEpochNoticeSend p s
  | .epochNoticeRx p body => Sys2Proof.Machine.execEpochNoticeRx p body s
  | .clientFrameRx p frame upset => Sys2Proof.Machine.execClientFrameRx p frame upset s
  | .bundleFlush t => Sys2Proof.Machine.execBundleFlush t s
  | .bundleRelease t => Sys2Proof.Machine.execBundleRelease t s
  | .encryptDone p slotUpset => Sys2Proof.Machine.execEncryptDone p slotUpset s
  | .pipelineParityFail tx p => Sys2Proof.Machine.execPipelineParityFail tx p s
  | .rateWindow t => Sys2Proof.Machine.execRateWindow t s
  | .frameToClient t upset => Sys2Proof.Machine.execFrameToClient t upset s
  | .bundleCopyRx p copy errored => Sys2Proof.Machine.execBundleCopyRx p copy errored s
  | .decryptDone t slotUpset => Sys2Proof.Machine.execDecryptDone t slotUpset s
  | .ackMsg t cum map => Sys2Proof.Machine.execAckMsg t cum map s
  | .resendMsg t first count => Sys2Proof.Machine.execResendMsg t first count s
  | .gapMsg t first count cause => Sys2Proof.Machine.execGapMsg t first count cause s
  | .rollOffer t id c kcv => Sys2Proof.Machine.execRollOffer t id c kcv s
  | .rollAccept t id c => Sys2Proof.Machine.execRollAccept t id c s
  | .rollCommit t id c => Sys2Proof.Machine.execRollCommit t id c s
  | .rollDone t id => Sys2Proof.Machine.execRollDone t id s
  | .rollAbort t ref id reason => Sys2Proof.Machine.execRollAbort t ref id reason s
  | .controlBundleRx p copy errored => Sys2Proof.Machine.execControlBundleRx p copy errored s
  | .rollStart ag t => Sys2Proof.Machine.execRollStart ag t s
  | .rollAbortCmd ag t => Sys2Proof.Machine.execRollAbortCmd ag t s
  | .rollMessageRepeat t => Sys2Proof.Machine.execRollMessageRepeat t s
  | .rollCommitPoint t => Sys2Proof.Machine.execRollCommitPoint t s
  | .rollTimeout t rx => Sys2Proof.Machine.execRollTimeout t rx s
  | .keyLoad ag mode kek slot => Sys2Proof.Machine.execKeyLoad ag mode kek slot s
  | .keyZeroiseSlot ag slot => Sys2Proof.Machine.execKeyZeroiseSlot ag slot s
  | .keyZeroiseAll ag => Sys2Proof.Machine.execKeyZeroiseAll ag s
  | .tamperInput lows => Sys2Proof.Machine.execTamperInput lows s
  | .holdStart ag => Sys2Proof.Machine.execHoldStart ag s
  | .channelTrained c cause size x8 ranks stack => Sys2Proof.Machine.execChannelTrained c cause size x8 ranks stack s
  | .holdStop ag => Sys2Proof.Machine.execHoldStop ag s
  | .zqCalibration c => Sys2Proof.Machine.execZqCalibration c s
  | .dqsOscillatorRead c code => Sys2Proof.Machine.execDqsOscillatorRead c code s
  | .moduleTempRead c temp => Sys2Proof.Machine.execModuleTempRead c temp s
  | .holdRefresh c commands => Sys2Proof.Machine.execHoldRefresh c commands s
  | .cordFilled c => Sys2Proof.Machine.execCordFilled c s
  | .holdReadComplete c l errs retries => Sys2Proof.Machine.execHoldReadComplete c l errs retries s
  | .scrubBillet c errs => Sys2Proof.Machine.execScrubBillet c errs s
  | .rankBucketLeak c rank => Sys2Proof.Machine.execRankBucketLeak c rank s
  | .rowBucketLeak c entry => Sys2Proof.Machine.execRowBucketLeak c entry s
  | .rowScrub c errs => Sys2Proof.Machine.execRowScrub c errs s
  | .clinkerRetest c clean => Sys2Proof.Machine.execClinkerRetest c clean s
  | .softRepairRequest ag channel fromQueue => Sys2Proof.Machine.execSoftRepairRequest ag channel fromQueue s
  | .repairWindow result errs => Sys2Proof.Machine.execRepairWindow result errs s
  | .repairNoWindow => Sys2Proof.Machine.execRepairNoWindow s
  | .hardRepair ag channel fromQueue => Sys2Proof.Machine.execHardRepair ag channel fromQueue s
  | .hardRepairDone result => Sys2Proof.Machine.execHardRepairDone result s
  | .channelFail c cause => Sys2Proof.Machine.execChannelFail c cause s
  | .heldCopyTimeout kind t seq path => Sys2Proof.Machine.execHeldCopyTimeout kind t seq path s
  | .protModeWrite ag v => Sys2Proof.Machine.execProtModeWrite ag v s
  | .bundlePlace t => Sys2Proof.Machine.execBundlePlace t s
  | .switchRequest ag v => Sys2Proof.Machine.execSwitchRequest ag v s
  | .switchEffective => Sys2Proof.Machine.execSwitchEffective s
  | .switchReadyTimeout => Sys2Proof.Machine.execSwitchReadyTimeout s
  | .mergeDeadline t seq => Sys2Proof.Machine.execMergeDeadline t seq s
  | .alignmentSpill t seq path => Sys2Proof.Machine.execAlignmentSpill t seq path s
  | .alignmentReadback t seq path => Sys2Proof.Machine.execAlignmentReadback t seq path s
  | .ackTimer t => Sys2Proof.Machine.execAckTimer t s
  | .resendWaitExpiry t first => Sys2Proof.Machine.execResendWaitExpiry t first s
  | .rideCmd ag => Sys2Proof.Machine.execRideCmd ag s
  | .endRide ag => Sys2Proof.Machine.execEndRide ag s
  | .drainStart t => Sys2Proof.Machine.execDrainStart t s
  | .drainStall t => Sys2Proof.Machine.execDrainStall t s
  | .laneDecCfgWrite ag n v => Sys2Proof.Machine.execLaneDecCfgWrite ag n v s
  | .laneDecCoefData ag n write => Sys2Proof.Machine.execLaneDecCoefData ag n write s
  | .decSwitch ag n v => Sys2Proof.Machine.execDecSwitch ag n v s
  | .decOutput n samples => Sys2Proof.Machine.execDecOutput n samples s
  | .decCaptureStart ag n v => Sys2Proof.Machine.execDecCaptureStart ag n v s
  | .decCaptureStop ag n v => Sys2Proof.Machine.execDecCaptureStop ag n v s
  | .laneDecCapData ag n => Sys2Proof.Machine.execLaneDecCapData ag n s
  | .monStart ag n v => Sys2Proof.Machine.execMonStart ag n v s
  | .monStop ag n v => Sys2Proof.Machine.execMonStop ag n v s
  | .monRunEnd n => Sys2Proof.Machine.execMonRunEnd n s
  | .laneMonHistData ag n => Sys2Proof.Machine.execLaneMonHistData ag n s
  | .sqWindowEnd n => Sys2Proof.Machine.execSqWindowEnd n s
  | .smokeFrameSend n => Sys2Proof.Machine.execSmokeFrameSend n s
  | .smokeFrameEnd n => Sys2Proof.Machine.execSmokeFrameEnd n s
  | .beaconDue n => Sys2Proof.Machine.execBeaconDue n s
  | .preambleDetect n => Sys2Proof.Machine.execPreambleDetect n s
  | .smokeSyncCheck n start late freq => Sys2Proof.Machine.execSmokeSyncCheck n start late freq s
  | .smokeHeader n snr secondOpen => Sys2Proof.Machine.execSmokeHeader n snr secondOpen s
  | .smokeCapture n => Sys2Proof.Machine.execSmokeCapture n s
  | .smokeFrameRx n => Sys2Proof.Machine.execSmokeFrameRx n s
  | .smokeBeacon n payload => Sys2Proof.Machine.execSmokeBeacon n payload s
  | .smokeControl n payload => Sys2Proof.Machine.execSmokeControl n payload s
  | .smokeFault n fseq payload => Sys2Proof.Machine.execSmokeFault n fseq payload s
  | .smokeGoingDown n fseq payload => Sys2Proof.Machine.execSmokeGoingDown n fseq payload s
  | .smokeUser n fseq payload => Sys2Proof.Machine.execSmokeUser n fseq payload s
  | .smokeTxPost ag n v => Sys2Proof.Machine.execSmokeTxPost ag n v s
  | .smokeRxPop ag n v => Sys2Proof.Machine.execSmokeRxPop ag n v s
  | .smokeCfgWrite ag n v => Sys2Proof.Machine.execSmokeCfgWrite ag n v s
  | .smokeCtlWrite ag n v => Sys2Proof.Machine.execSmokeCtlWrite ag n v s
  | .eqAdaptDone eyes => Sys2Proof.Machine.execEqAdaptDone eyes s
  | .tsRx l ts skew => Sys2Proof.Machine.execTsRx l ts skew s
  | .alignTimeout ms10 => Sys2Proof.Machine.execAlignTimeout ms10 s
  | .configTimeout => Sys2Proof.Machine.execConfigTimeout s
  | .alignRx misplaced => Sys2Proof.Machine.execAlignRx misplaced s
  | .codeErrorBurst errors => Sys2Proof.Machine.execCodeErrorBurst errors s
  | .tinderRetrain ag v => Sys2Proof.Machine.execTinderRetrain ag v s
  | .tinderRead session lseq tag addr len => Sys2Proof.Machine.execTinderRead session lseq tag addr len s
  | .tinderWrite session lseq tag addr words => Sys2Proof.Machine.execTinderWrite session lseq tag addr words s
  | .tinderWritePosted session lseq tag addr words => Sys2Proof.Machine.execTinderWritePosted session lseq tag addr words s
  | .tinderOpen session lseq tag code => Sys2Proof.Machine.execTinderOpen session lseq tag code s
  | .tinderAuth session lseq tag mac => Sys2Proof.Machine.execTinderAuth session lseq tag mac s
  | .tinderClose session lseq tag => Sys2Proof.Machine.execTinderClose session lseq tag s
  | .tinderAck lseq => Sys2Proof.Machine.execTinderAck lseq s
  | .tinderNak lseq => Sys2Proof.Machine.execTinderNak lseq s
  | .badPacket bytes => Sys2Proof.Machine.execBadPacket bytes s
  | .linkAckSend => Sys2Proof.Machine.execLinkAckSend s
  | .sessionTimeout => Sys2Proof.Machine.execSessionTimeout s
  | .lockoutEnd => Sys2Proof.Machine.execLockoutEnd s
  | .spiRead addr count => Sys2Proof.Machine.execSpiRead addr count s
  | .spiWrite addr words => Sys2Proof.Machine.execSpiWrite addr words s
  | .spiStatus => Sys2Proof.Machine.execSpiStatus s
  | .spiOpen => Sys2Proof.Machine.execSpiOpen s
  | .sysAuthReq ag v => Sys2Proof.Machine.execSysAuthReq ag v s
  | .irqSourceEvent src => Sys2Proof.Machine.execIrqSourceEvent src s
  | .irqCommit => Sys2Proof.Machine.execIrqCommit s
  | .irqComplete ag v => Sys2Proof.Machine.execIrqComplete ag v s
  | .irqSwSet ag v => Sys2Proof.Machine.execIrqSwSet ag v s
  | .irqPendingWrite ag w v => Sys2Proof.Machine.execIrqPendingWrite ag w v s
  | .irqSrcWrite ag n v => Sys2Proof.Machine.execIrqSrcWrite ag n v s
  | .irqMaskWrite ag w v => Sys2Proof.Machine.execIrqMaskWrite ag w v s
  | .mempScrub region word upsets passEnds => Sys2Proof.Machine.execMempScrub region word upsets passEnds s
  | .scrubLate => Sys2Proof.Machine.execScrubLate s
  | .injectArm ag v => Sys2Proof.Machine.execInjectArm ag v s
  | .mempLogPop ag => Sys2Proof.Machine.execMempLogPop ag s
  | .errorLine lines => Sys2Proof.Machine.execErrorLine lines s
  | .blockReset src inst => Sys2Proof.Machine.execBlockReset src inst s
  | .charStatusAck ag hi v lines => Sys2Proof.Machine.execCharStatusAck ag hi v lines s
  | .faultReactWrite ag n v => Sys2Proof.Machine.execFaultReactWrite ag n v s
  | .aliveStop ag => Sys2Proof.Machine.execAliveStop ag s
  | .aliveResume ag => Sys2Proof.Machine.execAliveResume ag s
  | .aliveHalfPeriod => Sys2Proof.Machine.execAliveHalfPeriod s
  | .emberOscillatorLoss => Sys2Proof.Machine.execEmberOscillatorLoss s
  | .faultSwSet ag v => Sys2Proof.Machine.execFaultSwSet ag v s
  | .kilnRegionDone n logic rows => Sys2Proof.Machine.execKilnRegionDone n logic rows s
  | .kilnSliceStart n row => Sys2Proof.Machine.execKilnSliceStart n row s
  | .kilnSliceEnd fail passEnds => Sys2Proof.Machine.execKilnSliceEnd fail passEnds s
  | .kilnSliceAbort steps => Sys2Proof.Machine.execKilnSliceAbort steps s
  | .kilnStartTimeout n row => Sys2Proof.Machine.execKilnStartTimeout n row s
  | .kilnRetry n => Sys2Proof.Machine.execKilnRetry n s
  | .kilnStop ag v => Sys2Proof.Machine.execKilnStop ag v s
  | .mcvGo ag c v => Sys2Proof.Machine.execMcvGo ag c v s
  | .mcvStop ag c v => Sys2Proof.Machine.execMcvStop ag c v s
  | .mcvPeriodicTrigger c => Sys2Proof.Machine.execMcvPeriodicTrigger c s
  | .mcvConversionDone c data => Sys2Proof.Machine.execMcvConversionDone c data s
  | .mcvUrgent ag c v => Sys2Proof.Machine.execMcvUrgent ag c v s
  | .mcvResultRead ag c k => Sys2Proof.Machine.execMcvResultRead ag c k s
  | .mcvCaptureStart ag p v => Sys2Proof.Machine.execMcvCaptureStart ag p v s
  | .mcvCaptureStop ag p v => Sys2Proof.Machine.execMcvCaptureStop ag p v s
  | .mcvCapData ag p => Sys2Proof.Machine.execMcvCapData ag p s
  | .mcvSimTrig ag v => Sys2Proof.Machine.execMcvSimTrig ag v s
  | .referenceWake p => Sys2Proof.Machine.execReferenceWake p s
  | .converterCalibrationEnd c failed => Sys2Proof.Machine.execConverterCalibrationEnd c failed s
  | .refSelWrite ag v => Sys2Proof.Machine.execRefSelWrite ag v s
  | .referenceLoss r => Sys2Proof.Machine.execReferenceLoss r s
  | .holdoverEnd => Sys2Proof.Machine.execHoldoverEnd s
  | .blockStateEntry n work race => Sys2Proof.Machine.execBlockStateEntry n work race s
  | .blockWake n => Sys2Proof.Machine.execBlockWake n s
  | .scheduledWake n => Sys2Proof.Machine.execScheduledWake n s
  | .wakeFail n => Sys2Proof.Machine.execWakeFail n s
  | .sensorRead code convFault => Sys2Proof.Machine.execSensorRead code convFault s
  | .graceExpiry => Sys2Proof.Machine.execGraceExpiry s
  | .damperRelease => Sys2Proof.Machine.execDamperRelease s
  | .thermStop ag => Sys2Proof.Machine.execThermStop ag s
  | .orderlyStopComplete => Sys2Proof.Machine.execOrderlyStopComplete s
  | .restartOk => Sys2Proof.Machine.execRestartOk s
  | .thermRestart ag => Sys2Proof.Machine.execThermRestart ag s
  | .hardCutTrip => Sys2Proof.Machine.execHardCutTrip s
  | .hardCutRelease => Sys2Proof.Machine.execHardCutRelease s
  | .perfCntWrite ag n half v => Sys2Proof.Machine.execPerfCntWrite ag n half v s
  | .perfSelWrite ag n v => Sys2Proof.Machine.execPerfSelWrite ag n v s
  | .counterOverflow n amount => Sys2Proof.Machine.execCounterOverflow n amount s
  | .perfNow ag => Sys2Proof.Machine.execPerfNow ag s
  | .perfNowClear ag => Sys2Proof.Machine.execPerfNowClear ag s
  | .periodicSnapshot => Sys2Proof.Machine.execPeriodicSnapshot s
  | .snapshotWritten => Sys2Proof.Machine.execSnapshotWritten s
  | .perfRingTailWrite ag v => Sys2Proof.Machine.execPerfRingTailWrite ag v s
  | .powerOn => Sys2Proof.Machine.execPowerOn s
  | .resetPin => Sys2Proof.Machine.execResetPin s
  | .chipReset cause => Sys2Proof.Machine.execChipReset cause s
  | .sysResetChip ag => Sys2Proof.Machine.execSysResetChip ag s
  | .sysResetBlock ag src inst => Sys2Proof.Machine.execSysResetBlock ag src inst s
  | .supplyLow rail => Sys2Proof.Machine.execSupplyLow rail s
  | .supplyReset => Sys2Proof.Machine.execSupplyReset s
  | .bootCheck => Sys2Proof.Machine.execBootCheck s
  | .bootLoad entry => Sys2Proof.Machine.execBootLoad entry s
  | .peatData ag write => Sys2Proof.Machine.execPeatData ag write s
  | .peatWordProgram => Sys2Proof.Machine.execPeatWordProgram s
  | .peatVerify ag bank => Sys2Proof.Machine.execPeatVerify ag bank s
  | .peatVerifyDone => Sys2Proof.Machine.execPeatVerifyDone s
  | .peatActivate ag bank => Sys2Proof.Machine.execPeatActivate ag bank s
  | .ownerDigestWrite ag d => Sys2Proof.Machine.execOwnerDigestWrite ag d s
  | .ioBayPinsWrite ag b v => Sys2Proof.Machine.execIoBayPinsWrite ag b v s
  | .i2cGo ag b v => Sys2Proof.Machine.execI2cGo ag b v s
  | .i2cTransferEnd b result count data => Sys2Proof.Machine.execI2cTransferEnd b result count data s
  | .i2cTimeout b count data => Sys2Proof.Machine.execI2cTimeout b count data s
  | .modulePresence b present => Sys2Proof.Machine.execModulePresence b present s
  | .moduleInt b low => Sys2Proof.Machine.execModuleInt b low s
  | .testEnable high => Sys2Proof.Machine.execTestEnable high s
  | .jtagInstruction opcode => Sys2Proof.Machine.execJtagInstruction opcode s
  | .testLogicReset => Sys2Proof.Machine.execTestLogicReset s
  | .warmStaleClear n => Sys2Proof.Machine.execWarmStaleClear n s
  | .referenceReturn r disagree => Sys2Proof.Machine.execReferenceReturn r disagree s
  | .supplyRecovery rail => Sys2Proof.Machine.execSupplyRecovery rail s
  | .blockResetEnd src inst => Sys2Proof.Machine.execBlockResetEnd src inst s
  | .blockTransitionEnd n => Sys2Proof.Machine.execBlockTransitionEnd n s
  | .bayResetHoldEnd b => Sys2Proof.Machine.execBayResetHoldEnd b s
  | .hostAccessTimeout session => Sys2Proof.Machine.execHostAccessTimeout session s

end Sys2Proof.Machine
end

