-- ==== Sys2Proof/Machine/Engine.lean ====
section
/-!
DEFINITION. The engines run their tables: timers, wakes, traps, the choice of the context that issues, the fetch and the instruction it issues (R44, R46,
R47, R52, R56, R64, R66, R68).
-/

namespace Sys2Proof.Machine

/-- The state a step leaves; a fault or a refusal leaves the state as it was. -/
def State.after (s : State) (o : Host.Outcome State Fault Refusal) : State :=
  match o with
  | .next t => t
  | _ => s

/-- The raw word of table memory at the program counter of bank `b`. -/
def State.tableWord (s : State) (b : Nat) : Nat := s.ld .table (s.bank b).pc

/-- The wait of bank `b`'s current instruction is over (R60, R76, R88). -/
def State.waitOver (s : State) (b : Fin 8) : Bool :=
  let k := s.bank b
  let w := torvuloFields (s.tableWord b)
  match k.stall with
  | .none => true
  | .cmd | .qry | .getFree => !s.issueWaits b (k.addr w).toNat
  | .getWait tag => (match k.outstanding tag with | some c => c.answer.isSome | none => true)
  | .wtag => (match k.outstanding ((k.reg w.a).toNat % 256) with | some c => c.answer.isSome | none => true)
  | .msend => decide (k.responses.length < 16)
  | .fence tags => !k.cmds.any fun c => tags.contains c.tag && !c.quarantined && c.answer.isNone

/-- Bank `b` is ready to issue. -/
def State.readyToIssue (s : State) (b : Fin 8) : Bool := (s.bank b).canIssue && s.waitOver b

/-- The banks in the order in which engine `e` offers them its next issue: round-robin from the one after the last (R47). -/
def State.issueOrder (s : State) (e : Nat) : List (Fin 8) := (List.range 8).map fun i => Fin.ofNat 8 (Amap.get 7 s.rrLast e + 1 + i)

/-- The context that engine `e` issues from: a replaying hosted one before the others (R47). A `wfe` that wakes retires in the turn of its context (R44). -/
def State.issuer (s : State) (e : Nat) : Option (Fin 8) :=
  (s.issueOrder e).find? fun b => s.engineOf b = e && (s.readyToIssue b || s.wakeReady b) && !s.yields b

/-- Bank `b` issues its next instruction: a fetched word is decoded and carried out, an undefined opcode raises ILLEGAL, an uncorrectable word FETCH_UE; a
waiting instruction goes on, and so does a `wfe` the context sleeps in (R52, R56, R60, R66). -/
def State.issueOne (s : State) (b : Fin 8) : State :=
  if s.wakeReady b then s.after (execWfeWake b s)
  else if (s.bank b).stall = .none then
    match (s.fetch (s.bank b).pc).2 with
    | .good v =>
      match torvuloDecode b v with
      | some i => s.after (exec i s)
      | none => s.issue b (torvuloFields v) false noWait id
    | .bad => s.issue b (torvuloFields 0) true noWait id
  else match torvuloDecode b (s.tableWord b) with
    | some i => s.after (exec i s)
    | none => s

/-- One control cycle of engine `e`, which runs in Blaze only (R44, R78): traps are taken, then one instruction issues. -/
def State.engineCycle (s : State) (e : Nat) : State :=
  if s.engineDown e || s.blockAsleep e then s
  else
    let s1 := (List.range 8).foldl (fun t i =>
      let b : Fin 8 := Fin.ofNat 8 i
      if t.engineOf b = e then t.after (execNmtTaken b t) else t) s
    match s1.issuer e with
    | some b => { s1 with rrLast := Amap.put natLt 7 s1.rrLast e b.val }.issueOne b
    | none => s1

/-- One control cycle of every engine. -/
def State.enginesCycle (s : State) : State := (List.range 8).foldl State.engineCycle s

/-- Every timer whose setting device time has reached fires (R68). -/
def State.timersFire (s : State) : State :=
  (List.range 8).foldl (fun t b => (List.range 4).foldl (fun u k => u.after (execTimerFire (Fin.ofNat 8 b) (Fin.ofNat 4 k) u)) t) s

end Sys2Proof.Machine
end

