-- ==== Sys2Proof/Machine/Time.lean ====
section
/-!
DEFINITION. What happens while no command waits: device time runs, timers fire, the engines run their tables, waiting host requests and boot's write list
go on (R5, R44, R68, R485, log entry 1).
-/

namespace Sys2Proof.Machine

/-- Boot's write list goes on where a write had to wait (R523, R526). -/
def State.bootRetry (s : State) : State := if s.rd F.SYS_BOOT_STATUS_STAGE 0 = 4 then s.bootGo else s

/-- The merges go on, also where a block reset has made a path absent (R311). -/
def State.mergesGo (s : State) : State := s.prot.foldl (fun u e => u.mergeGo e.1) s

/-- One idle step; redirected rows are written back in the free access slots (R454). 20 units of device time, 8 ns: 3 control cycles, in each of which an engine
issues at most one instruction, and 12 core cycles (R5, R44). Nothing runs while the device is held in reset. -/
def State.tick (s : State) : State :=
  if s.inReset then s
  else
    let s1 := { s with time := (s.time + 20) % 2 ^ 64, sliceRedirect := [] }
    let s2 := (s1.perf 1 3).perf 2 12
    ((s2.perfDrain.cmdsWait 20).hostsWait 20).timersFire.enginesCycle.enginesCycle.enginesCycle.serveAll.bootRetry.linkTick.mergesGo.stopTick.powerTick

end Sys2Proof.Machine
end

