-- ==== Sys2Proof/WellFormed.lean ====
section
/-!
DEFINITION. What a command may carry beyond what its operand types say: the lengths of lists that the specification fixes.
The meanings are total; a statement that needs a bound takes it from here.
-/

namespace Sys2Proof

open Machine

/-- A Smoke payload has 1 to 64 bytes (R358). -/
def payloadFits (p : List Byte) : Bool := decide (1 ≤ p.length ∧ p.length ≤ 64)

/-- An entry table read from an image: eight descriptors of eight words and eight maps of 256 bytes, and at most one key for each level (R521). -/
def Machine.EntryTable.wellFormed (e : EntryTable) : Bool :=
  decide (e.descriptors.length = 8) && (e.descriptors.all fun d => d.length = 8) && decide (e.maps.length = 8) &&
    (e.maps.all fun m => m.length = 256) && decide ((e.keys.map fun k => k.1).Nodup)

/-- The command carries lists of the lengths the specification gives. -/
def Instr.wellFormed (i : Instr) : Bool :=
  match i with
  | .addOp _ _ => true
  | .subOp _ _ => true
  | .andOp _ _ => true
  | .orOp _ _ => true
  | .xorOp _ _ => true
  | .shl _ _ => true
  | .shr _ _ => true
  | .sar _ _ => true
  | .mul _ _ => true
  | .cmp _ _ => true
  | .tst _ _ => true
  | .li _ _ => true
  | .lih _ _ => true
  | .mov _ _ => true
  | .mfl _ _ => true
  | .mtag _ _ => true
  | .load _ _ _ => true
  | .store _ _ => true
  | .casOp _ _ _ => true
  | .branch _ _ => true
  | .branchLink _ _ => true
  | .branchReg _ _ => true
  | .ret _ _ => true
  | .trap _ _ => true
  | .halt _ _ => true
  | .issueCmd _ _ => true
  | .issueQry _ _ => true
  | .issueGet _ _ => true
  | .wtag _ _ => true
  | .cpop _ _ => true
  | .fence _ _ => true
  | .wfe _ _ _ => true
  | .tset _ _ => true
  | .tclr _ _ => true
  | .readTime _ _ => true
  | .declareNext _ _ => true
  | .ckpt _ _ => true
  | .mrecv _ _ => true
  | .msend _ _ => true
  | .sig _ _ => true
  | .runaway _ => true
  | .commandCompletion _ _ => true
  | .commandTimeout _ _ => true
  | .commandTakesEffect _ _ => true
  | .timerFire _ _ => true
  | .wfeWake _ => true
  | .lockstepMismatch _ => true
  | .livenessWatchdog _ => true
  | .adoption _ => true
  | .nmtTaken _ => true
  | .stkCtlRunStart _ _ => true
  | .stkCtlRunStop _ _ => true
  | .mailboxPost _ _ => true
  | .mailboxPop _ _ => true
  | .responseExpiry _ _ => true
  | .enterService _ => true
  | .serviceEntryComplete => true
  | .leaveService _ _ => true
  | .registerWrite _ _ _ => true
  | .captureRead _ _ => true
  | .readClear _ _ => true
  | .laneStateRequest _ _ _ => true
  | .laneTransitionEnd _ => true
  | .laneRxCfgWrite _ _ _ => true
  | .elasticQueueOverflow _ => true
  | .signalLoss _ => true
  | .signalReturn _ => true
  | .openInputCheck _ _ _ => true
  | .gainLoopUpdate _ => true
  | .reconvSlow _ => true
  | .fomWindowEnd _ => true
  | .seasonStart _ _ _ => true
  | .seasoningStep _ _ _ _ => true
  | .cdrLockChange _ _ => true
  | .cdrReacquire _ => true
  | .adaptationUpdate _ _ _ => true
  | .freezeRelease _ _ => true
  | .coefSnapshot _ => true
  | .laneDiverged _ => true
  | .laneRxCoefData _ _ _ => true
  | .warmStale _ => true
  | .wakeWindowEnd _ => true
  | .laneConverged _ => true
  | .acqTimeout _ => true
  | .wakeFallback _ => true
  | .polarityChange _ => true
  | .txBlockBoundary _ pairs => decide (pairs.length = 160)
  | .txCommit _ _ _ => true
  | .laneTxCoefData _ _ _ => true
  | .laneTxSmokeWrite _ _ _ => true
  | .saturationWindow _ => true
  | .sampleQueueUnderflow _ => true
  | .dacCalibrationEnd _ _ => true
  | .shortDetect _ _ _ => true
  | .shortClear _ _ => true
  | .bayCfgWrite _ _ _ => true
  | .bayRoleWrite _ _ _ => true
  | .portLaneState _ _ _ => true
  | .portCfgWrite _ _ _ => true
  | .alignmentMarker _ body _ _ _ _ => decide (body.length = 32 ∨ body.length = 2)
  | .foreignFormatSearch _ _ => true
  | .codewordDecode _ _ _ => true
  | .degradedWindow _ => true
  | .blockRx _ _ body _ => decide (body.length ≤ 32)
  | .epochNoticeSend _ => true
  | .epochNoticeRx _ body => decide (body.length = 32)
  | .clientFrameRx _ _ _ => true
  | .bundleFlush _ => true
  | .bundleRelease _ => true
  | .encryptDone _ _ => true
  | .pipelineParityFail _ _ => true
  | .rateWindow _ => true
  | .frameToClient _ _ => true
  | .bundleCopyRx _ _ _ => true
  | .decryptDone _ _ => true
  | .ackMsg _ _ _ => true
  | .resendMsg _ _ _ => true
  | .gapMsg _ _ _ _ => true
  | .rollOffer _ _ _ _ => true
  | .rollAccept _ _ _ => true
  | .rollCommit _ _ _ => true
  | .rollDone _ _ => true
  | .rollAbort _ _ _ _ => true
  | .controlBundleRx _ _ _ => true
  | .rollStart _ _ => true
  | .rollAbortCmd _ _ => true
  | .rollMessageRepeat _ => true
  | .rollCommitPoint _ => true
  | .rollTimeout _ _ => true
  | .keyLoad _ _ _ _ => true
  | .keyZeroiseSlot _ _ => true
  | .keyZeroiseAll _ => true
  | .tamperInput _ => true
  | .holdStart _ => true
  | .channelTrained _ _ _ _ _ _ => true
  | .holdStop _ => true
  | .zqCalibration _ => true
  | .dqsOscillatorRead _ _ => true
  | .moduleTempRead _ _ => true
  | .holdRefresh _ _ => true
  | .cordFilled _ => true
  | .holdReadComplete _ _ _ _ => true
  | .scrubBillet _ _ => true
  | .rankBucketLeak _ _ => true
  | .rowBucketLeak _ _ => true
  | .rowScrub _ errs => decide (errs.length ≤ 256)
  | .clinkerRetest _ _ => true
  | .softRepairRequest _ _ _ => true
  | .repairWindow _ errs => decide (errs.length ≤ 256)
  | .repairNoWindow => true
  | .hardRepair _ _ _ => true
  | .hardRepairDone _ => true
  | .channelFail _ _ => true
  | .heldCopyTimeout _ _ _ _ => true
  | .protModeWrite _ _ => true
  | .bundlePlace _ => true
  | .switchRequest _ _ => true
  | .switchEffective => true
  | .switchReadyTimeout => true
  | .mergeDeadline _ _ => true
  | .alignmentSpill _ _ _ => true
  | .alignmentReadback _ _ _ => true
  | .ackTimer _ => true
  | .resendWaitExpiry _ _ => true
  | .rideCmd _ => true
  | .endRide _ => true
  | .drainStart _ => true
  | .drainStall _ => true
  | .laneDecCfgWrite _ _ _ => true
  | .laneDecCoefData _ _ _ => true
  | .decSwitch _ _ _ => true
  | .decOutput _ _ => true
  | .decCaptureStart _ _ _ => true
  | .decCaptureStop _ _ _ => true
  | .laneDecCapData _ _ => true
  | .monStart _ _ _ => true
  | .monStop _ _ _ => true
  | .monRunEnd _ => true
  | .laneMonHistData _ _ => true
  | .sqWindowEnd _ => true
  | .smokeFrameSend _ => true
  | .smokeFrameEnd _ => true
  | .beaconDue _ => true
  | .preambleDetect _ => true
  | .smokeSyncCheck _ _ _ _ => true
  | .smokeHeader _ _ _ => true
  | .smokeCapture _ => true
  | .smokeFrameRx _ => true
  | .smokeBeacon _ payload => payloadFits payload
  | .smokeControl _ payload => payloadFits payload
  | .smokeFault _ _ payload => payloadFits payload
  | .smokeGoingDown _ _ payload => payloadFits payload
  | .smokeUser _ _ payload => payloadFits payload
  | .smokeTxPost _ _ _ => true
  | .smokeRxPop _ _ _ => true
  | .smokeCfgWrite _ _ _ => true
  | .smokeCtlWrite _ _ _ => true
  | .eqAdaptDone eyes => decide (eyes.length = 4) && eyes.all fun e => e.length = 15
  | .tsRx _ ts _ => decide (ts.fill.length = 10)
  | .alignTimeout _ => true
  | .configTimeout => true
  | .alignRx _ => true
  | .codeErrorBurst _ => true
  | .tinderRetrain _ _ => true
  | .tinderRead _ _ _ _ _ => true
  | .tinderWrite _ _ _ _ words => decide (1 ≤ words.length ∧ words.length ≤ 64)
  | .tinderWritePosted _ _ _ _ words => decide (1 ≤ words.length ∧ words.length ≤ 64)
  | .tinderOpen _ _ _ _ => true
  | .tinderAuth _ _ _ _ => true
  | .tinderClose _ _ _ => true
  | .tinderAck _ => true
  | .tinderNak _ => true
  | .badPacket _ => true
  | .linkAckSend => true
  | .sessionTimeout => true
  | .lockoutEnd => true
  | .spiRead _ count => decide (1 ≤ count.toNat)
  | .spiWrite _ words => decide (1 ≤ words.length)
  | .spiStatus => true
  | .spiOpen => true
  | .sysAuthReq _ _ => true
  | .irqSourceEvent _ => true
  | .irqCommit => true
  | .irqComplete _ _ => true
  | .irqSwSet _ _ => true
  | .irqPendingWrite _ _ _ => true
  | .irqSrcWrite _ _ _ => true
  | .irqMaskWrite _ _ _ => true
  | .mempScrub _ _ _ _ => true
  | .scrubLate => true
  | .injectArm _ _ => true
  | .mempLogPop _ => true
  | .errorLine lines => decide (lines ≠ [])
  | .blockReset _ _ => true
  | .charStatusAck _ _ _ _ => true
  | .faultReactWrite _ _ _ => true
  | .aliveStop _ => true
  | .aliveResume _ => true
  | .aliveHalfPeriod => true
  | .emberOscillatorLoss => true
  | .faultSwSet _ _ => true
  | .kilnRegionDone _ _ _ => true
  | .kilnSliceStart _ _ => true
  | .kilnSliceEnd _ _ => true
  | .kilnSliceAbort _ => true
  | .kilnStartTimeout _ _ => true
  | .kilnRetry _ => true
  | .kilnStop _ _ => true
  | .mcvGo _ _ _ => true
  | .mcvStop _ _ _ => true
  | .mcvPeriodicTrigger _ => true
  | .mcvConversionDone _ _ => true
  | .mcvUrgent _ _ _ => true
  | .mcvResultRead _ _ _ => true
  | .mcvCaptureStart _ _ _ => true
  | .mcvCaptureStop _ _ _ => true
  | .mcvCapData _ _ => true
  | .mcvSimTrig _ _ => true
  | .referenceWake _ => true
  | .converterCalibrationEnd _ _ => true
  | .refSelWrite _ _ => true
  | .referenceLoss _ => true
  | .holdoverEnd => true
  | .blockStateEntry _ _ _ => true
  | .blockWake _ => true
  | .scheduledWake _ => true
  | .wakeFail _ => true
  | .sensorRead _ _ => true
  | .graceExpiry => true
  | .damperRelease => true
  | .thermStop _ => true
  | .orderlyStopComplete => true
  | .restartOk => true
  | .thermRestart _ => true
  | .hardCutTrip => true
  | .hardCutRelease => true
  | .perfCntWrite _ _ _ _ => true
  | .perfSelWrite _ _ _ => true
  | .counterOverflow _ _ => true
  | .perfNow _ => true
  | .perfNowClear _ => true
  | .periodicSnapshot => true
  | .snapshotWritten => true
  | .perfRingTailWrite _ _ => true
  | .powerOn => true
  | .resetPin => true
  | .chipReset _ => true
  | .sysResetChip _ => true
  | .sysResetBlock _ _ _ => true
  | .supplyLow _ => true
  | .supplyReset => true
  | .bootCheck => true
  | .bootLoad entry => entry.wellFormed
  | .peatData _ _ => true
  | .peatWordProgram => true
  | .peatVerify _ _ => true
  | .peatVerifyDone => true
  | .peatActivate _ _ => true
  | .ownerDigestWrite _ _ => true
  | .ioBayPinsWrite _ _ _ => true
  | .i2cGo _ _ _ => true
  | .i2cTransferEnd _ _ _ data => decide (data.length ≤ 32)
  | .i2cTimeout _ _ data => decide (data.length ≤ 32)
  | .modulePresence _ _ => true
  | .moduleInt _ _ => true
  | .testEnable _ => true
  | .jtagInstruction _ => true
  | .testLogicReset => true
  | .warmStaleClear _ => true
  | .referenceReturn _ _ => true
  | .supplyRecovery _ => true
  | .blockResetEnd _ _ => true
  | .blockTransitionEnd _ => true
  | .bayResetHoldEnd _ => true
  | .hostAccessTimeout _ => true

end Sys2Proof
end

