-- ==== Sys2Proof/Safety.lean ====
section
/-!
DEFINITION. What a claim about the block speaks of: the canonical form its stores keep, and what it is for a command to complete.
-/

namespace Sys2Proof.Machine

/-- A field that the register tables list under its own register and lowest bit. -/
def Fld.listed (f : Fld) : Bool := decide (f.reg.fields.find? (fun g => g.lo = f.lo) = some f)

/-- An entry of a memory is canonical: a word of the memory's width other than what an unlisted word reads as. -/
def Memory.entryOk (e : MKey × Nat) : Bool := decide (e.2 < 2 ^ e.1.space.width) && decide (e.2 ≠ e.1.space.dflt e.1.idx)

/-- The canonical form of the memories: keys strictly rising, every entry canonical. -/
def Memory.wf (m : List (MKey × Nat)) : Bool := Amap.sorted MKey.lt m && m.all Memory.entryOk

/-- The stores of a state are canonical: no register field holds a value its width does not allow, no memory word one its memory does not hold, and equal
contents are equal data. -/
def State.Canonical (s : State) : Prop := s.regs.wf = true ∧ Memory.wf s.mem = true

/-- A command completes on a state, and the next state has a property. -/
def Does (c : Instr) (s : State) (P : State → Prop) : Prop := ∃ t, exec c s = .next t ∧ P t

/-- A command completes on a state: its own effect leaves a state with a property, and `f`, what follows from it in the units behind, is done on that. -/
def DoesThen (c : Instr) (s : State) (f : State → State) (P : State → Prop) : Prop := ∃ u, P u ∧ exec c s = .next (f u)

/-- The registers that raising an interrupt source may touch beside the unit's own: the controller's words for the source (R401). -/
def eventRegs (r : Reg) : Bool :=
  match r with
  | .IRQ_SRC | .IRQ_STATUS => true
  | _ => false

/-- What becomes of `s`: in `t` each listed field of a register instance reads the listed value, every other field of every register reads as before, and
nothing that is no register differs. With `ev` events were raised or counted on the way: the registers of `eventRegs` are left out of the comparison, and
counted events follow those already on their way to the counters (R505). Memory, the units' own state, the queue and everything given to the surroundings
are those of `s`. -/
def State.Becomes (s t : State) (l : List (Fld × Nat × Nat)) (ev : Bool) : Prop :=
  (∀ p ∈ l, t.rd p.1 p.2.1 = p.2.2) ∧
  (∀ g j, (∀ p ∈ l, g.key j ≠ p.1.key p.2.1) → (ev = true → eventRegs g.reg = false) → t.rd g j = s.rd g j) ∧
  ∃ more, t = { s with regs := t.regs, perfPipe := s.perfPipe ++ more } ∧ (ev = false → more = [])

/-! ### Register writes -/

/-- A write of register (r, i) reaches its unit: no check of R394 meets it, and no reset or retrain waits for a response. -/
def State.Accepts (s : State) (ag : Agent) (r : Reg) (i v : Nat) : Prop :=
  s.writeCheck ag r i v = none ∧ s.retrainAfter = false ∧ s.resetAfter = false

/-- The register write a command is, with its sender, register, instance and value; none for the commands that are no single register write. -/
def registerWrite (s : State) (c : Instr) : Option (Agent × Reg × Nat × Nat) :=
  match c with
  | .laneDecCfgWrite ag n v => some (ag, .LANE_DEC_CFG, n.val, v.toNat)
  | .laneDecCoefData ag n (some v) => some (ag, .LANE_DEC_COEF_DATA, n.val, v.toNat)
  | .decSwitch ag n v => some (ag, .LANE_DEC_SWITCH, n.val, v.toNat)
  | .decCaptureStart ag n v => some (ag, .LANE_DEC_CAP_CTL, n.val, v.toNat)
  | .decCaptureStop ag n v => some (ag, .LANE_DEC_CAP_CTL, n.val, v.toNat)
  | .monStart ag n v => some (ag, .LANE_MON_CTL, n.val, v.toNat)
  | .monStop ag n v => some (ag, .LANE_MON_CTL, n.val, v.toNat)
  | .charStatusAck ag hi v _ => some (ag, if hi then .CHAR_STATUS_HI else .CHAR_STATUS_LO, 0, v.toNat)
  | .faultReactWrite ag n v => some (ag, .FAULT_REACT, n.val, v.toNat)
  | .aliveStop ag => some (ag, .FAULT_ALIVE, 0, 0x100)
  | .aliveResume ag => some (ag, .FAULT_ALIVE, 0, 0x200)
  | .faultSwSet ag v => some (ag, .FAULT_SW_SET, 0, v.toNat)
  | .softRepairRequest ag channel fromQueue => some (ag, .HOLD_PPR_CMD, 0, (pprValue channel.toNat fromQueue false))
  | .hardRepair ag channel fromQueue => some (ag, .HOLD_PPR_CMD, 0, (pprValue channel.toNat fromQueue true))
  | .irqComplete ag v => some (ag, .IRQ_COMPLETE, 0, v.toNat)
  | .irqSwSet ag v => some (ag, .IRQ_SW_SET, 0, v.toNat)
  | .irqPendingWrite ag w v => some (ag, .IRQ_PENDING, w.val, v.toNat)
  | .irqSrcWrite ag n v => some (ag, .IRQ_SRC, n.val, v.toNat)
  | .irqMaskWrite ag w v => some (ag, .IRQ_MASK, w.val, v.toNat)
  | .kilnStop ag v => some (ag, .KILN_CTL, 0, v.toNat)
  | .laneStateRequest ag n v => some (ag, .LANE_STATE, n.val, v.toNat)
  | .laneRxCfgWrite ag n v => some (ag, .LANE_RX_CFG, n.val, v.toNat)
  | .seasonStart ag n v => some (ag, .LANE_SEASON_CMD, n.val, v.toNat)
  | .laneRxCoefData ag n (some v) => some (ag, .LANE_RX_COEF_DATA, n.val, v.toNat)
  | .txCommit ag n v => some (ag, .LANE_TX_COMMIT, n.val, v.toNat)
  | .laneTxCoefData ag n (some v) => some (ag, .LANE_TX_COEF_DATA, n.val, v.toNat)
  | .laneTxSmokeWrite ag n v => some (ag, .LANE_TX_SMOKE, n.val, v.toNat)
  | .mcvGo ag c v => some (ag, .MCV_CTL, c.val, (v ||| 1#32).toNat)
  | .mcvStop ag c v => some (ag, .MCV_CTL, c.val, (v ||| 2#32).toNat)
  | .mcvUrgent ag c v => some (ag, .MCV_URGENT, c.val, v.toNat)
  | .mcvCaptureStart ag p v => some (ag, .MCV_CAP_CTL, p.val, (v ||| 1#32).toNat)
  | .mcvCaptureStop ag p v => some (ag, .MCV_CAP_CTL, p.val, (v ||| 2#32).toNat)
  | .mcvSimTrig ag v => some (ag, .MCV_SIM_TRIG, 0, v.toNat)
  | .perfSelWrite ag n v => some (ag, .PERF_SEL, n.toNat, v.toNat)
  | .perfCntWrite ag n _ v => some (ag, .PERF_CNT_LO, n.toNat, v.toNat)
  | .perfNow ag => some (ag, .PERF_DUMP, 0, 1)
  | .perfNowClear ag => some (ag, .PERF_DUMP, 0, 2)
  | .perfRingTailWrite ag v => some (ag, .PERF_RING, 0, v.toNat)
  | .ioBayPinsWrite ag b v => some (ag, .IO_BAY_PINS, b.val, v.toNat)
  | .i2cGo ag b v => some (ag, .IO_BAY_I2C_CTL, b.val, v.toNat)
  | .switchRequest ag v => some (ag, .PROT_SWITCH_CTL, 0, v.toNat)
  | .rideCmd ag => some (ag, .PROT_CTL, 0, 1)
  | .endRide ag => some (ag, .PROT_CTL, 0, 2)
  | .protModeWrite ag v => some (ag, .PROT_CFG, 0, v.toNat)
  | .bayCfgWrite ag b v => some (ag, .BAY_CFG, b.val, v.toNat)
  | .bayRoleWrite ag b v => some (ag, .BAY_ROLE, b.val, v.toNat)
  | .portLaneState ag p v => some (ag, .PORT_LANE_STATE, p.val, v.toNat)
  | .portCfgWrite ag p v => some (ag, .PORT_CFG, p.val, v.toNat)
  | .refSelWrite ag v => some (ag, .PWR_CLK_CTL, 0, v.toNat)
  | .thermStop ag => some (ag, .THERM_CTL, 0, 1)
  | .thermRestart ag => some (ag, .THERM_CTL, 0, 2)
  | .rollStart ag t => some (ag, .TUN_ROLL, t.val, 1)
  | .rollAbortCmd ag t => some (ag, .TUN_ROLL, t.val, 2)
  | .keyLoad ag mode kek slot => some (ag, .KEY_LOAD, 0, (keyLoadValue mode.toNat kek.toNat slot.toNat))
  | .keyZeroiseSlot ag slot => some (ag, .KEY_ZEROISE, 0, slot.toNat)
  | .keyZeroiseAll ag => some (ag, .KEY_ZEROISE, 0, 256)
  | .holdStart ag => some (ag, .HOLD_CTL, 0, 1)
  | .holdStop ag => some (ag, .HOLD_CTL, 0, 2)
  | .injectArm ag v => some (ag, .MEMP_INJECT_CTL, 0, v.toNat)
  | .mempLogPop ag => some (ag, .MEMP_LOG_POP, 0, 0)
  | .tinderRetrain ag v => some (ag, .TINDER_CTL, 0, v.toNat)
  | .sysAuthReq ag v => some (ag, .SYS_AUTH_REQ, 0, v.toNat)
  | .smokeTxPost ag n v => some (ag, .SMOKE_TX_POST, n.val, v.toNat)
  | .smokeRxPop ag n v => some (ag, .SMOKE_RX_POP, n.val, v.toNat)
  | .smokeCfgWrite ag n v => some (ag, .SMOKE_CFG, n.val, v.toNat)
  | .smokeCtlWrite ag n v => some (ag, .SMOKE_CTL, n.val, v.toNat)
  | .peatData ag (some v) => some (ag, .PEAT_DATA, 0, v.toNat)
  | .peatVerify ag bank => some (ag, .PEAT_CMD, 0, (bank.val * 16 + 1))
  | .peatActivate ag bank => some (ag, .PEAT_CMD, 0, (bank.val * 16 + 2))
  | .sysResetChip ag => some (ag, .SYS_RESET_CTL, 0, 1)
  | .sysResetBlock ag src inst => some (ag, .SYS_RESET_CTL, 0, (src.val * 2 ^ 24 + inst.toNat * 2 ^ 16 + 2))
  | .stkCtlRunStart ag b => some (ag, .STK_CTL, b.val, (s.ctlWithRun b 1))
  | .stkCtlRunStop ag b => some (ag, .STK_CTL, b.val, (s.ctlWithRun b 0))
  | .mailboxPost ag b => some (ag, .STK_MBX_POST, b.val, 0)
  | .mailboxPop ag b => some (ag, .STK_MBX_POP, b.val, 0)
  | .enterService ag => some (ag, .SYS_ACCESS_MODE, 0, 2)
  | _ => none

/-! ### Torvulo -/

/-- Bank `b` is about to execute `w` and nothing stands in its way: its context issues and waits in nothing, no replaying context of its engine goes before
it, a replay of its log is not at its end, it has not run away, and its word was fetched (R47, R56, R62, R89, R91). -/
def State.AtIssue (s : State) (b : Fin 8) : Prop :=
  (s.bank b).canIssue = true ∧ s.yields b = false ∧ (s.bank b).stall = .none ∧ (s.bank b).replay ≠ some [] ∧ (s.bank b).retired < s.runLimit b ∧
    s.fetchBad (s.bank b).pc = false

/-- `u` is what the fetch of the word at the PC of bank `b` leaves: the state itself, but where the word's protection had something to correct, log or
capture (R418, R422); no chip reset came of it. -/
def State.Fetches (s : State) (b : Fin 8) (u : State) : Prop := u = s.fetched b ∧ u.resets = s.resets

/-- And the condition is a defined one and holds (R57); the instruction then acts on what the fetch leaves, `u`. -/
def State.Ready (s : State) (b : Fin 8) (w : IW) (u : State) : Prop :=
  s.AtIssue b ∧ w.condDefined = true ∧ (s.bank b).condHolds w = true ∧ s.Fetches b u

/-- And the context runs live, not in replay. -/
def State.Live (s : State) (b : Fin 8) (w : IW) (u : State) : Prop := s.Ready b w u ∧ (u.bank b).replay = none

/-- Bank `b` goes on in the wait `own` of an instruction it has begun, live: nothing is fetched again (R60, R65). -/
def State.Resumes (s : State) (b : Fin 8) (own : Stall) (u : State) : Prop :=
  (s.bank b).canIssue = true ∧ s.yields b = false ∧ (s.bank b).stall = own ∧ (s.bank b).replay = none ∧ u = s

/-- Bank `b` can take a fault at FAULT_ENTRY: it executes, in no fault entry and in no trap (R62 to R64). -/
def State.MayFault (s : State) (b : Nat) : Prop := (s.bank b).canIssue = true ∧ (s.bank b).ctx ≠ .inFaultEntry ∧ (s.bank b).nmt = none

/-- Bank `b` retires an instruction: its bank is `k` with the PC at `pc`, one more instruction retired and no wait; every other bank is as before, and
nothing else changes but that events are counted (R505). -/
def State.Retires (s t : State) (b : Nat) (k : Bank) (pc : Nat) : Prop :=
  t.bank b = { k with pc := pc, retired := k.retired + 1, stall := .none } ∧ (∀ c, c ≠ b → t.bank c = s.bank c) ∧
    ∃ more, t = { s with banks := t.banks, perfPipe := s.perfPipe ++ more }

/-- The next word of table memory. -/
def State.nextPc (s : State) (b : Nat) : Nat := ((s.bank b).pc + 1) % 2 ^ 18

/-- Bank `b` retires a logged instruction: it retires from the bank `k` with `e` at the end of its log; beside that, of data memory only the two words of the
log's new entry differ, and those only where their row is not withheld (R90). -/
def State.RetiresLogged (s t : State) (b : Nat) (k : Bank) (e : LogEntry) (pc : Nat) : Prop :=
  let a := (s.setBank b k).logAdd b e
  a.Retires t b { k with log := k.log ++ [e] } pc ∧ (∀ c, c ≠ b → t.bank c = s.bank c) ∧
    ∀ sp j, sp ≠ .valid → (sp = .shared → j ≠ stateArea b + 0x40 + 2 * k.log.length ∧ j ≠ stateArea b + 0x41 + 2 * k.log.length) → t.ld sp j = s.ld sp j

/-- The bank once the completion of its outstanding command `c` is taken: the tag is free, or quarantined where the completion was a TIMEOUT whose unit may
still answer; the completion event goes with the last completion (R66, R74). -/
def Bank.tagTaken (k : Bank) (c : Cmd) : Bank :=
  let cmds := if c.timedOut && decide (c.phase ≠ .gone) then
      k.cmds.map fun d => if d.tag = c.tag then { d with quarantined := true, answer := none } else d
    else k.cmds.filter fun d => d.tag ≠ c.tag
  { k with cmds := cmds, completion := k.completion && { k with cmds := cmds }.hasDone }

/-- Bank `b` goes on at FAULT_ENTRY, the low 18 bits of word 1 of its state area as its protection gives it, with a fault word in g15 and the count of retired
instructions at 0; every other bank and all else is as the read of that word left it (R62). A chip reset that came of that read ends it. -/
def State.EntersFault (s t : State) (b : Nat) (word : W64) : Prop :=
  let e := s.areaRead b 1
  (e.1.resets = s.resets → t = e.1.setBank b { (e.1.bank b).setReg 15 word with
    ctx := .inFaultEntry, pc := e.2 % 2 ^ 18, retired := 0, stall := .none, nmtToWfe := e.1.nmtOf b }) ∧
  (e.1.resets ≠ s.resets → t = e.1)

/-- Bank `b` takes a fault: the record stands in the registers of its bank, and it goes on at FAULT_ENTRY (R62). -/
def State.FaultTaken (s t : State) (b code trap : Nat) : Prop :=
  ∃ u : State, s.Becomes u
    [(F.STK_FAULT_VALID, b, 1), (F.STK_FAULT_COUNT, b, min (s.rd F.STK_FAULT_COUNT b + 1) (2 ^ F.STK_FAULT_COUNT.w - 1)),
      (F.STK_FAULT_CODE, b, code), (F.STK_FAULT_PC_PC, b, (s.bank b).pc % 2 ^ 18)] true ∧
    u.EntersFault t b (faultWord code (s.bank b).pc trap)

/-- The event journal with one more entry: its number is one above the last entry's, and the ring keeps the last 63,488 entries (R520). -/
def State.journalWith (s : State) (e : List Nat) : List (List Nat) :=
  let l := s.journal ++ [((((s.journal.getLast?.bind List.head?).getD 0) + 1) % 2 ^ 32) :: e]
  l.drop (l.length - 63488)

/-- The bank, the instruction word and whether its fields are ones the instruction defines (R56, Table 2-6), of a command that is an instruction. -/
def instructionWord (c : Instr) : Option (Fin 8 × IW × Bool) :=
  match c with
  | .addOp b w | .subOp b w | .andOp b w | .orOp b w | .xorOp b w | .shl b w | .shr b w | .sar b w | .mul b w => some (b, w, w.legalAlu true)
  | .cmp b w | .tst b w => some (b, w, w.legalAlu false)
  | .li b w | .lih b w => some (b, w, w.only true false false true 0)
  | .mov b w => some (b, w, w.only true true false false 0)
  | .mfl b w | .mtag b w | .cpop b w | .readTime b w => some (b, w, w.only true false false false 0)
  | .wfe b w _ => some (b, w, w.only true false false false 0)
  | .load b w _ => some (b, w, w.only true true false true 0)
  | .store b w => some (b, w, w.only false true true true 0)
  | .casOp b w _ => some (b, w, w.only true true true true 0)
  | .branch b w | .branchLink b w | .trap b w => some (b, w, w.only false false false true 0)
  | .branchReg b w => some (b, w, w.only false true false false 0)
  | .ret b w | .halt b w | .fence b w | .ckpt b w => some (b, w, w.only false false false false 0)
  | .issueCmd b w => some (b, w, w.only true true true true 1)
  | .issueQry b w | .issueGet b w => some (b, w, w.only true true false true 1)
  | .wtag b w => some (b, w, w.only true true false false 0)
  | .tset b w | .declareNext b w => some (b, w, w.only false true false true 0 && decide (w.imm.toNat < 4))
  | .tclr b w => some (b, w, w.only false false false true 0 && decide (w.imm.toNat < 4))
  | .mrecv b w => some (b, w, w.only true true false true 0)
  | .msend b w => some (b, w, w.only false true false true 0)
  | .sig b w => some (b, w, w.only false false true true 0 && decide (w.imm.toNat < 8))
  | _ => none

end Sys2Proof.Machine
end

