-- ==== Sys2Proof/Certificates/Slice0/Obligations.lean ====
section
/-!
DEFINITION. The statements for the provers. Each docstring says what is stated and by which rules; where a clause is the model's own choice, it names the log
entry.
-/

open Sys2Proof Sys2Proof.Machine

/-! ### The machine as a whole -/

/-- For every state and command: with the command at the front of the queue, a step is the command carried out on the state with the queue's rest. -/
def Obligations.StepTakesFront : Prop :=
  ∀ (s : State) (c : Instr) (rest : List Instr), step { s with pending := c :: rest } = exec c { s with pending := rest }

/-- The model's choice (log entries 1 and 15): with no command waiting and the device not held in reset, a step lets 20 units of device time pass, modulo 2^64: 3
control cycles and 12 core cycles are counted, events that occurred 24 control cycles ago reach the counters, commands and host requests in flight have waited so
much longer, the timers whose setting is reached fire, each engine issues in each of three control cycles, and waiting host requests, boot's write list, the host
link, merges, an orderly stop and the power manager go on. Held in reset, nothing changes. -/
def Obligations.IdleStepLetsTimePass : Prop :=
  ∀ s : State, s.pending = [] →
    (s.inReset = true → step s = .next s) ∧
    (s.inReset = false →
      let now := (s.time + 20) % 2 ^ 64
      let u : State := { s with time := now, sliceRedirect := [], perfPipe := s.perfPipe ++ [(now, 1, 3)] ++ [(now, 2, 12)] }
      let v := ((u.perfDrain.cmdsWait 20).hostsWait 20).timersFire.enginesCycle.enginesCycle.enginesCycle
      step s = .next v.serveAll.bootRetry.linkTick.mergesGo.stopTick.powerTick)

/-- From every state whose stores are canonical (no register field holds a value its width does not allow, no memory word one its memory does not hold, and
equal contents are equal data), whatever command is at the front of the queue, a step answers a next state whose stores are canonical. -/
def Obligations.StepKeepsCanonical : Prop := ∀ s : State, s.Canonical → ∃ t, step s = .next t ∧ t.Canonical

/-- From every state whose stores are canonical, a command leaves the queue as it stands: a step takes one command from the front, in order, and puts none
in. -/
def Obligations.CommandsWaitInOrder : Prop :=
  ∀ s : State, s.Canonical → (∀ c t, exec c s = .next t → t.pending = s.pending) ∧ ∀ t, step s = .next t → t.pending = s.pending.drop 1

/-- After power is applied and before anything runs, the stores are canonical, no command waits and no memory word differs from what an unlisted word
reads as. -/
def Obligations.ResetIsCanonical : Prop := State.reset.Canonical ∧ State.reset.pending = [] ∧ State.reset.mem = []

/-! ### Torvulo: what meets an instruction (chapter 2) -/

/-- For every Torvulo instruction (any row of Table 2-6) of bank b whose context issues, waits in nothing and yields to no replay, in no fault entry and no
trap, acting on what the fetch of its word leaves: its word not fetchable it faults FETCH_UE; a field value it does not define or a reserved condition faults
ILLEGAL; its condition false it retires with no effect; at the RUNAWAY threshold it faults RUNAWAY (the order of these is the model's, log entry 22). A fault
records VALID, COUNT, CODE and PC, writes the fault word to g15 and goes on at FAULT_ENTRY, all else as before. Where the fetch led to a chip reset,
nothing follows it. -/
def Obligations.InstructionsFaultOrSkip : Prop :=
  ∀ (s u : State) (c : Instr) (b : Fin 8) (w : IW) (ok : Bool), instructionWord c = some (b, w, ok) → (s.bank b).canIssue = true → s.yields b = false →
    (s.bank b).stall = .none → (s.bank b).replay ≠ some [] →
    (s.Fetches b u → u.MayFault b →
      (s.fetchBad (s.bank b).pc = true → Does c s (u.FaultTaken · b 7 0)) ∧
      (s.fetchBad (s.bank b).pc = false → (ok && w.condDefined) = false → Does c s (u.FaultTaken · b 1 0)) ∧
      (s.fetchBad (s.bank b).pc = false → (ok && w.condDefined) = true → (s.bank b).condHolds w = true → s.runLimit b ≤ (s.bank b).retired →
        Does c s (u.FaultTaken · b 9 0))) ∧
    (s.Fetches b u → s.fetchBad (s.bank b).pc = false → (ok && w.condDefined) = true → (s.bank b).condHolds w = false →
      Does c s (u.Retires · b (u.bank b) (u.nextPc b))) ∧
    (s.fetchBad (s.bank b).pc = true → (s.fetched b).resets ≠ s.resets → exec c s = .next (s.fetched b))

/-- The own effect of TRAP and of RUNAWAY is a fault, and so they complete: TRAP ready and with legal fields takes the fault TRAP with IMM[7:0] as the trap code,
whether or not a replay is on the way; RUNAWAY at the threshold takes the fault RUNAWAY; both where no trap is in progress and the context is in no fault
entry. A RUNAWAY below the threshold has no effect, nor has one whose next word can be read and has a false condition. In NMT_ENTRY the traps in progress
end first and the fault is taken on the state that leaves. In the fault entry the fault is recorded and the bank passes to its next candidate when it is
hosted, else its engine fails. -/
def Obligations.FaultEntry : Prop :=
  ∀ (s u : State) (b : Fin 8) (w : IW),
    let k := s.bank b
    let next := torvuloFields (s.ld .table k.pc)
    let skips := (k.stall = .none && !s.fetchBad k.pc && next.condDefined && !k.condHolds next) = true
    let record := fun v : State => s.Becomes v [(F.STK_FAULT_VALID, b, 1),
      (F.STK_FAULT_COUNT, b, min (s.rd F.STK_FAULT_COUNT b + 1) (2 ^ F.STK_FAULT_COUNT.w - 1)), (F.STK_FAULT_CODE, b, 9), (F.STK_FAULT_PC_PC, b, k.pc % 2 ^ 18)] true
    (s.Ready b w u → w.only false false false true 0 = true → u.MayFault b → Does (.trap b w) s (u.FaultTaken · b 0xA (w.imm.toNat % 256))) ∧
    (s.MayFault b → s.runLimit b ≤ k.retired → ¬ skips → Does (.runaway b) s (s.FaultTaken · b 9 0)) ∧
    (k.canIssue = true → s.runLimit b ≤ k.retired → ¬ skips → k.ctx ≠ .inFaultEntry → k.nmt.isSome = true →
      Does (.runaway b) s fun t => ∃ v : State, record v ∧ (v.nmtFault b).EntersFault t b (faultWord 9 k.pc 0)) ∧
    (k.canIssue = true → s.runLimit b ≤ k.retired → ¬ skips → k.ctx = .inFaultEntry →
      ∃ v : State, record v ∧ exec (.runaway b) s = .next (
        let v1 := v.setBank b { k with haltedOn := k.haltedOn ++ [s.engineOf b] }
        if k.host.isSome then v1.callAdoption b else v1.engineFail (s.engineOf b) 2)) ∧
    (k.retired < s.runLimit b ∨ skips → exec (.runaway b) s = .next s)

/-! ### Torvulo: arithmetic, logic and moves -/

/-- Ready and with legal fields, ADD and SUB write a + b or a - b (b the register or the sign-extended IMM) to d and set Z, N, C and V from it; CMP sets
the flags of a - b alone. C of ADD is the carry out, C of SUB and CMP is unsigned a < b, V says that the exact signed result does not fit. The bank
otherwise only retires one instruction; every other bank, register and memory word is as the fetch left it. -/
def Obligations.AddSubtractCompare : Prop :=
  ∀ (s0 s : State) (b : Fin 8) (w : IW), s0.Ready b w s →
    let k := s.bank b
    let x := k.reg w.a
    let y := k.opB w
    let sub := { k with fz := decide (x - y = 0), fn := (x - y).msb, fc := decide (x.toNat < y.toNat),
                        fv := decide ((x - y).toInt ≠ x.toInt - y.toInt) }
    (w.legalAlu true = true → Does (.addOp b w) s0 (s.Retires · b
      ({ k with fz := decide (x + y = 0), fn := (x + y).msb, fc := decide (2 ^ 64 ≤ x.toNat + y.toNat),
                fv := decide ((x + y).toInt ≠ x.toInt + y.toInt) }.setReg w.d (x + y)) (s.nextPc b))) ∧
    (w.legalAlu true = true → Does (.subOp b w) s0 (s.Retires · b (sub.setReg w.d (x - y)) (s.nextPc b))) ∧
    (w.legalAlu false = true → Does (.cmp b w) s0 (s.Retires · b sub (s.nextPc b)))

/-- Ready and with legal fields, AND, OR, XOR and MUL write the bitwise result or the low 64 bits of the product to d, TST writes none; each sets Z and N from
the result and clears C and V. SHL, SHR and SAR shift a by n = b[5:0] left, right with zeros, right with the sign, as numbers; Z and N follow the result,
C takes the last bit shifted out (n = 0 leaves it), V is left. The frame is that of an instruction that retires. -/
def Obligations.LogicMultiplyShift : Prop :=
  ∀ (s0 s : State) (b : Fin 8) (w : IW), s0.Ready b w s →
    let k := s.bank b
    let x := k.reg w.a
    let y := k.opB w
    let fl := fun r : W64 => { k with fz := decide (r = 0), fn := r.msb, fc := false, fv := false }
    let n := y.toNat % 64
    let res := fun (r : W64) (last : Bool) =>
      { k with fz := decide (r = 0), fn := r.msb, fc := if n = 0 then k.fc else last }.setReg w.d r
    (w.legalAlu true = true →
      Does (.andOp b w) s0 (s.Retires · b ((fl (x &&& y)).setReg w.d (x &&& y)) (s.nextPc b)) ∧
      Does (.orOp b w) s0 (s.Retires · b ((fl (x ||| y)).setReg w.d (x ||| y)) (s.nextPc b)) ∧
      Does (.xorOp b w) s0 (s.Retires · b ((fl (x ^^^ y)).setReg w.d (x ^^^ y)) (s.nextPc b)) ∧
      Does (.mul b w) s0 (s.Retires · b ((fl (BitVec.ofNat 64 (x.toNat * y.toNat))).setReg w.d (BitVec.ofNat 64 (x.toNat * y.toNat))) (s.nextPc b)) ∧
      Does (.shl b w) s0 (s.Retires · b (res (BitVec.ofNat 64 (x.toNat * 2 ^ n)) (x.getLsbD (64 - n))) (s.nextPc b)) ∧
      Does (.shr b w) s0 (s.Retires · b (res (BitVec.ofNat 64 (x.toNat / 2 ^ n)) (x.getLsbD (n - 1))) (s.nextPc b)) ∧
      Does (.sar b w) s0 (s.Retires · b (res (BitVec.ofInt 64 (x.toInt / 2 ^ n)) (x.getLsbD (n - 1))) (s.nextPc b))) ∧
    (w.legalAlu false = true → Does (.tst b w) s0 (s.Retires · b (fl (x &&& y)) (s.nextPc b)))

/-- Ready and with legal fields: LI writes the sign-extended IMM to d, LIH writes IMM to d[63:32] and keeps d[31:0], MOV copies a, MFL reads the flags
register of Table 2-1, MTAG reads TAG; no flag changes and the frame is that of an instruction that retires. -/
def Obligations.Moves : Prop :=
  ∀ (s0 s : State) (b : Fin 8) (w : IW), s0.Ready b w s →
    let k := s.bank b
    let one := fun x : Bool => if x then 1 else 0
    (w.only true false false true 0 = true →
      Does (.li b w) s0 (s.Retires · b (k.setReg w.d (BitVec.ofInt 64 w.imm.toInt)) (s.nextPc b)) ∧
      Does (.lih b w) s0 (s.Retires · b (k.setReg w.d (BitVec.ofNat 64 (w.imm.toNat * 2 ^ 32 + (k.reg w.d).toNat % 2 ^ 32))) (s.nextPc b))) ∧
    (w.only true true false false 0 = true → Does (.mov b w) s0 (s.Retires · b (k.setReg w.d (k.reg w.a)) (s.nextPc b))) ∧
    (w.only true false false false 0 = true →
      Does (.mfl b w) s0 (s.Retires · b (k.setReg w.d (BitVec.ofNat 64 (one k.fz + 2 * one k.fn + 4 * one k.fc + 8 * one k.fv + 16 * one k.fe +
        32 * one k.hasEvent + 256 * (k.fst % 16)))) (s.nextPc b)) ∧
      Does (.mtag b w) s0 (s.Retires · b (k.setReg w.d (BitVec.ofNat 64 k.tag)) (s.nextPc b)))

/-- Register 0 of every bank reads 0 and a write to it changes nothing; a write to any other register is read back there and leaves every other register as
before; entering the fault entry overwrites g15 with the fault word and leaves the others. There are sixteen registers of 64 bits: that is their type. -/
def Obligations.GeneralRegisters : Prop :=
  ∀ (k : Bank) (i j : Fin 16) (v : W64), k.reg 0 = 0 ∧ k.setReg 0 v = k ∧ (i ≠ 0 → (k.setReg i v).reg i = v) ∧
    (j ≠ i → (k.setReg i v).reg j = k.reg j) ∧
    ∀ (s t : State) (b : Nat), s.EntersFault t b v → (s.areaRead b 1).1.resets = s.resets →
      (j ≠ 15 → (t.bank b).reg j = ((s.areaRead b 1).1.bank b).reg j) ∧ (t.bank b).reg 15 = v

/-! ### Torvulo: data memory -/

/-- An address below 0x10000 is the bank's own private memory, an address of 0x100000 to 0x1FFFFF shared memory, both only where the address is a multiple of
8; every other address is out of bounds. Bytes 0x000 to 0x6FF of each state area are protected. -/
def Obligations.DataAddressMap : Prop :=
  ∀ b a : Nat,
    (a % 8 = 0 → a < 0x10000 → (dataPlace b a).home = some (.priv, b * 0x2000 + a / 8)) ∧
    (a % 8 = 0 → 0x100000 ≤ a → a < 0x200000 → (dataPlace b a).home = some (.shared, a / 8)) ∧
    (a % 8 ≠ 0 → a < 0x10000 ∨ (0x100000 ≤ a ∧ a < 0x200000) → (dataPlace b a).fault = some 4) ∧
    (0x10000 ≤ a → a < 0x100000 ∨ 0x200000 ≤ a → (dataPlace b a).fault = some 3) ∧
    (stateProtected (a / 8) = true ↔ 0x100000 ≤ a ∧ a < 0x120000 ∧ (a - 0x100000) % 0x4000 < 0x700)

/-- Ready and with legal fields, at an address that holds a word: LD reads it through its protection, with the environment's upsets, and writes the value to d,
or faults DATA_UE where the read is bad; ST writes b to the word, or faults PRIVILEGE where the word is protected and the table is below Vendor. A stored
word that is not withheld reads back as b and every other word of memory is as before; in a withheld row no word of memory changes. An address that holds no
word faults BOUNDS or ALIGN. Faults are stated out of the fault entry and out of a trap; where a read led to a chip reset, nothing follows it. -/
def Obligations.LoadStore : Prop :=
  ∀ (s0 s : State) (b : Fin 8) (w : IW) (us : List Upset), s0.Ready b w s →
    let k := s.bank b
    let p := dataPlace b (k.reg w.a + w.imm64).toNat
    (w.only true true false true 0 = true →
      (∀ c, p.fault = some c → s.MayFault b → Does (.load b w us) s0 (s.FaultTaken · b c 0)) ∧
      (p.fault = none →
        let r := (s.dataUpsets p us).dataRead p
        (r.1.resets ≠ s.resets → exec (.load b w us) s0 = .next r.1) ∧
        (∀ v, r.2 = .good v → r.1.resets = s.resets → Does (.load b w us) s0 (r.1.Retires · b ((r.1.bank b).setReg w.d (BitVec.ofNat 64 v)) (r.1.nextPc b))) ∧
        (r.2 = .bad → r.1.resets = s.resets → r.1.MayFault b →
          Does (.load b w us) s0 (r.1.FaultTaken · b 8 0)))) ∧
    (w.only false true true true 0 = true →
      (∀ c, p.fault = some c → s.MayFault b → Does (.store b w) s0 (s.FaultTaken · b c 0)) ∧
      (∀ i, p = .shared i → stateProtected i = true → s.bankPriv b < 3 → s.MayFault b →
        Does (.store b w) s0 (s.FaultTaken · b 2 0)) ∧
      (∀ sp i, p.home = some (sp, i) → (sp = .shared → stateProtected i = true → 3 ≤ s.bankPriv b) →
        Does (.store b w) s0 fun t => (s.dataWrite p (k.reg w.b).toNat).Retires t b k (s.nextPc b) ∧
          (s.isWithheld 1 p.regionWord = false →
            t.ld sp i = (k.reg w.b).toNat ∧ ∀ sq j, sq ≠ .valid → (sq ≠ sp ∨ j ≠ i) → t.ld sq j = s.ld sq j) ∧
          (s.isWithheld 1 p.regionWord = true → t.mem = s.mem)))

/-- Live, ready and with legal fields: an address in private memory or outside the map faults BOUNDS, a misaligned one ALIGN, a protected word PRIVILEGE below
Vendor (ahead of DATA_UE, log entry 22), a word that reads bad DATA_UE. After the log has room, at a word of shared memory that reads good with value v, CAS
stores b there when v = d and sets Z, else clears Z; d takes v; the result is logged. Faults are stated out of the fault entry and out of a trap. -/
def Obligations.CompareAndSwap : Prop :=
  ∀ (s0 s : State) (b : Fin 8) (w : IW) (us : List Upset), s0.Live b w s → w.only true true true true 0 = true →
    let k := s.bank b
    let p := dataPlace b (k.reg w.a + w.imm64).toNat
    (s.MayFault b →
      (p = .align → Does (.casOp b w us) s0 (s.FaultTaken · b 4 0)) ∧
      ((p = .bounds ∨ ∃ i, p = .priv i) → Does (.casOp b w us) s0 (s.FaultTaken · b 3 0)) ∧
      (∀ i, p = .shared i → stateProtected i = true → s.bankPriv b < 3 → Does (.casOp b w us) s0 (s.FaultTaken · b 2 0))) ∧
    (∀ i, p = .shared i → (stateProtected i = true → 3 ≤ s.bankPriv b) →
      let u0 := s.dataUpsets p us
      let r0 := u0.dataRead p
      (r0.2 = .bad → r0.1.resets = u0.resets → r0.1.MayFault b →
        Does (.casOp b w us) s0 (r0.1.FaultTaken · b 8 0)) ∧
      (r0.2 ≠ .bad →
      let r := (u0.logRoom b).dataRead p
      let kr := r.1.bank b
      (r.2 = .bad → r.1.resets = (u0.logRoom b).resets → r.1.MayFault b → Does (.casOp b w us) s0 (r.1.FaultTaken · b 8 0)) ∧
      (∀ v, r.2 = .good v → r.1.resets = (u0.logRoom b).resets → BitVec.ofNat 64 v = kr.reg w.d →
        let a := ((r.1.dataWrite p (kr.reg w.b).toNat).setBank b { kr.setReg w.d (BitVec.ofNat 64 v) with fz := true }).logAdd b (
          .result (some v) none none (some true))
        Does (.casOp b w us) s0 (a.Retires · b (a.bank b) (r.1.nextPc b))) ∧
      (∀ v, r.2 = .good v → r.1.resets = (u0.logRoom b).resets → BitVec.ofNat 64 v ≠ kr.reg w.d →
        let a := (r.1.setBank b { kr.setReg w.d (BitVec.ofNat 64 v) with fz := false }).logAdd b (.result (some v) none none (some false))
        Does (.casOp b w us) s0 (a.Retires · b (a.bank b) (r.1.nextPc b)))))

/-! ### Torvulo: control flow -/

/-- Ready and with legal fields: B goes to PC + IMM, BL also pushes PC + 1, BR goes to a, RET pops its target. A target outside table memory faults
BOUNDS at the branch, BL with 32 return addresses held faults STACK_OVER, RET with none faults STACK_UNDER (stated out of the fault entry and out of a trap).
BL with both faults STACK_OVER (the model's order, log entry 22). RET of the entry a trap pushed ends that trap. The frame is that of an instruction that retires. -/
def Obligations.Branches : Prop :=
  ∀ (s0 s : State) (b : Fin 8) (w : IW), s0.Ready b w s →
    let k := s.bank b
    let target : Int := (k.pc : Int) + w.imm.toInt
    let inside := 0 ≤ target ∧ target < 2 ^ 18
    let free := s.MayFault b
    (w.only false false false true 0 = true →
      (inside → Does (.branch b w) s0 (s.Retires · b k target.toNat)) ∧
      (¬ inside → free → Does (.branch b w) s0 (s.FaultTaken · b 3 0)) ∧
      (inside → k.rstack.length < 32 →
        Does (.branchLink b w) s0 (s.Retires · b { k with rstack := (k.pc + 1) % 2 ^ 18 :: k.rstack } target.toNat)) ∧
      (¬ inside → k.rstack.length < 32 → free → Does (.branchLink b w) s0 (s.FaultTaken · b 3 0)) ∧
      (32 ≤ k.rstack.length → free → Does (.branchLink b w) s0 (s.FaultTaken · b 5 0))) ∧
    (w.only false true false false 0 = true → 
      ((k.reg w.a).toNat < 2 ^ 18 → Does (.branchReg b w) s0 (s.Retires · b k (k.reg w.a).toNat)) ∧
      (2 ^ 18 ≤ (k.reg w.a).toNat → free → Does (.branchReg b w) s0 (s.FaultTaken · b 3 0))) ∧
    (w.only false false false false 0 = true →
      (k.rstack = [] → free → Does (.ret b w) s0 (s.FaultTaken · b 6 0)) ∧
      (∀ a rest, k.rstack = a :: rest → k.nmt ≠ some rest.length →
        Does (.ret b w) s0 (s.Retires · b { k with rstack := rest } a)) ∧
      (∀ a rest, k.rstack = a :: rest → k.nmt = some rest.length →
        let u := (s.setBank b { k with rstack := rest }).nmtReturn b
        Does (.ret b w) s0 (u.Retires · b (u.bank b) a)))

/-- Ready and with legal fields: HALT of a Vendor table retires and leaves the context HALTED and no longer hosted, of any other table it faults PRIVILEGE; TSET sets the
timer for device time a, in place of any earlier setting and event, and a time already passed fires at once; TCLR disarms it and discards its event; NEXT
declares a and the floor; CKPT writes the checkpoint with the next PC and empties the log. Live: TIME gives d the device time and SIG queues the signal b[31:0]
from bank b at bank IMM, both logged. -/
def Obligations.TimersCheckpointSignal : Prop :=
  ∀ (s0 s : State) (b : Fin 8) (w : IW), s0.Ready b w s →
    let k := s.bank b
    let x := (k.reg w.a).toNat
    (w.only false false false false 0 = true →
      (3 ≤ s.bankPriv b → Does (.halt b w) s0 fun t =>
        t.bank b = { k with pc := s.nextPc b, retired := k.retired + 1, ctx := .halted, host := none, stall := .none } ∧
        (∀ c, c ≠ b.val → t.bank c = s.bank c) ∧ ∃ more, t = { s with banks := t.banks, perfPipe := s.perfPipe ++ more }) ∧
      (s.bankPriv b < 3 → s.MayFault b → Does (.halt b w) s0 (s.FaultTaken · b 2 0)) ∧
      (let u := s.areaWrite b 8 (k.checkpoint (s.nextPc b));
        Does (.ckpt b w) s0 (u.Retires · b { k with log := [] } (s.nextPc b)))) ∧
    (w.only false true false true 0 = true → w.imm.toNat < 4 →
      (s.time < x → Does (.tset b w) s0 (s.Retires · b (k.setTimer w.imm.toNat ⟨some x, false⟩) (s.nextPc b))) ∧
      (x ≤ s.time → Does (.tset b w) s0 (s.Retires · b (k.setTimer w.imm.toNat ⟨none, true⟩) (s.nextPc b))) ∧
      Does (.declareNext b w) s0 (s.Retires · b { k with nextTime := some (x, w.imm.toNat) } (s.nextPc b))) ∧
    (w.only false false false true 0 = true → w.imm.toNat < 4 →
      Does (.tclr b w) s0 (s.Retires · b (k.setTimer w.imm.toNat ⟨none, false⟩) (s.nextPc b))) ∧
    (k.replay = none →
      let u := s.logRoom b
      (w.only true false false false 0 = true →
        let a := (u.setBank b ((u.bank b).setReg w.d (BitVec.ofNat 64 u.time))).logAdd b (.result (some u.time) none none none)
        Does (.readTime b w) s0 (a.Retires · b (a.bank b) (s.nextPc b))) ∧
      (w.only false false true true 0 = true → w.imm.toNat < 8 →
        let e := w.imm.toNat
        let a := (u.setBank e { u.bank e with signals := (u.bank e).signals ++ [(b.val, ((u.bank b).reg w.b).toNat % 2 ^ 32)] }).logAdd b (
          .result none none none none)
        Does (.sig b w) s0 (a.Retires · b (a.bank b) (s.nextPc b))))

/-! ### Torvulo: commands, completions, events and mailboxes (chapter 2) -/

/-- Live and ready with legal fields, or resuming from its own stall, and after the log has room: with a tag free, room in the unit's queue (log entry 12) and no
Kiln slice at the target, CMD issues a write of b, QRY a read, to address a + IMM; the command stands behind those outstanding, TAG and d take bank and tag,
the result is logged. An address that holds nothing completes BAD_ADDRESS at issue. With no tag free, a full queue or the target's slice running, the context
stalls. Only bank b, the count that numbers commands, the log entry's words and event counts change. -/
def Obligations.CommandIssue : Prop :=
  ∀ (s0 s : State) (b : Fin 8) (w : IW),
    let u := s.logRoom b
    let k := u.bank b
    let a := (k.reg w.a + w.imm64).toNat
    let bad := fun write : Bool => decide (2 ^ 32 ≤ a) || u.badAddress a write w.immForm
    let u' : State := { u with cmdSerial := u.cmdSerial + 1 }
    let cmd := fun (write : Bool) (tag : Nat) => { mkCmd tag a write w.immForm (if write then (k.reg w.b).toNat else 0) with serial := u.cmdSerial }
    let issued := fun (write : Bool) (tag : Nat) =>
      let kc := if bad write then { k with cmds := k.cmds ++ [{ cmd write tag with phase := .gone, answer := some (.badAddress, 0, k.arrivals) }]
                                           arrivals := k.arrivals + 1, completion := true }
        else { k with cmds := k.cmds ++ [cmd write tag] }
      { kc with lastTag := tag, tag := b.val * 256 + tag }.setReg w.d (BitVec.ofNat 64 (b.val * 256 + tag))
    let starts := fun (legal : Bool) (own : Stall) => (s0.Live b w s ∧ legal = true) ∨ s0.Resumes b own s
    let waits := u.queueFull a || u.addrUnderSlice a
    (starts (w.only true true true true 1) .cmd →
      (∀ tag, k.freeTag = some tag → waits = false → Does (.issueCmd b w) s0 (u'.RetiresLogged · b (issued true tag)
        (.result (some (b.val * 256 + tag)) (some (b.val * 256 + tag)) none none) (s.nextPc b))) ∧
      (k.freeTag = none ∨ waits = true → exec (.issueCmd b w) s0 = .next (u.setBank b { k with stall := .cmd }))) ∧
    (starts (w.only true true false true 1) .qry →
      (∀ tag, k.freeTag = some tag → waits = false → Does (.issueQry b w) s0 (u'.RetiresLogged · b (issued false tag)
        (.result (some (b.val * 256 + tag)) (some (b.val * 256 + tag)) none none) (s.nextPc b))) ∧
      (k.freeTag = none ∨ waits = true → exec (.issueQry b w) s0 = .next (u.setBank b { k with stall := .qry })))

/-- Live and ready with legal fields: with a tag free and no slice at a good address, GET issues the read and waits for its tag, which it logs as on its way.
Waiting for a tag whose completion is there, it writes the value to d, E and ST from the status, frees the tag and logs the result in place of the note;
whose completion is not there, it waits on with no effect. -/
def Obligations.GetReadsAndWaits : Prop :=
  ∀ (s0 s : State) (b : Fin 8) (w : IW),
    (s0.Live b w s → w.only true true false true 1 = true →
      let u := s.logRoom b
      let k := u.bank b
      let a := (k.reg w.a + w.imm64).toNat
      ∀ tag, k.freeTag = some tag → u.queueFull a = false → u.addrUnderSlice a = false → a < 2 ^ 32 → u.badAddress a false w.immForm = false →
        let k1 := { k with cmds := k.cmds ++ [{ mkCmd tag a false w.immForm 0 with serial := u.cmdSerial }], lastTag := tag, tag := b.val * 256 + tag }
        let v := (({ u with cmdSerial := u.cmdSerial + 1 } : State).setBank b k1).logAdd b (.getIssued (b.val * 256 + tag))
        Does (.issueGet b w) s0 fun t => t.bank b = { k1 with log := k.log ++ [.getIssued (b.val * 256 + tag)], stall := .getWait tag } ∧
          (∀ c, c ≠ b.val → t.bank c = u.bank c) ∧ ∃ more, t = { v with banks := t.banks, perfPipe := u.perfPipe ++ more }) ∧
    (∀ tag c, s0.Resumes b (.getWait tag) s → (s.bank b).outstanding tag = some c →
      (∀ st v n, c.answer = some (st, v, n) →
        let k := (s.bank b).tagTaken c
        Does (.issueGet b w) s0 (s.RetiresLogged · b
          { k.setReg w.d (BitVec.ofNat 64 v) with fe := decide (st.code ≠ 0), fst := st.code
                                                  log := k.log.filter fun e => e ≠ .getIssued (b.val * 256 + tag) }
          (.result (some v) (some (b.val * 256 + tag)) (some st.code) none) (s.nextPc b))) ∧
      (c.answer = none → exec (.issueGet b w) s = .next s))

/-- Live and ready with legal fields (or, for WTAG and FENCE, resuming from their own wait), after the log has room. WTAG of a tag that is free, quarantined or
of another bank returns d = 0, ST = NOTAG, E = 1; of a completed one its value and status, and takes it; else it waits. CPOP takes the completion that
arrived first, with TAG its tag and Z = 0, or sets Z. FENCE waits for every outstanding tag, then takes all, with E and ST of the first that is not OK in
issue order. Every result is logged. -/
def Obligations.TakingCompletions : Prop :=
  ∀ (s0 s : State) (b : Fin 8) (w : IW),
    let u := s.logRoom b
    let k := u.bank b
    let tag := (k.reg w.a).toNat % 256
    let mine := (k.reg w.a).toNat / 256 % 8 = b.val
    ((s0.Live b w s ∧ w.only true true false false 0 = true) ∨ s0.Resumes b .wtag s →
      ((¬ mine ∨ k.outstanding tag = none) → Does (.wtag b w) s0 (u.RetiresLogged · b { k.setReg w.d 0#64 with fe := true, fst := 0xF }
        (.result (some 0) none (some 0xF) none) (s.nextPc b))) ∧
      (∀ c, mine → k.outstanding tag = some c →
        (∀ st v n, c.answer = some (st, v, n) → Does (.wtag b w) s0 (u.RetiresLogged · b
          { (k.tagTaken c).setReg w.d (BitVec.ofNat 64 v) with fe := decide (st.code ≠ 0), fst := st.code }
          (.result (some v) none (some st.code) none) (s.nextPc b))) ∧
        (c.answer = none → exec (.wtag b w) s0 = .next (u.setBank b { k with stall := .wtag })))) ∧
    (s0.Live b w s → w.only true false false false 0 = true →
      ((∀ c ∈ k.cmds, c.quarantined = true ∨ c.answer = none) →
        Does (.cpop b w) s0 (u.RetiresLogged · b { k with fz := true } (.result none none none (some true)) (s.nextPc b))) ∧
      (∀ c st v n, k.outstanding c.tag = some c → c.answer = some (st, v, n) →
        (∀ d ∈ k.cmds, d.quarantined = false → ∀ st' v' n', d.answer = some (st', v', n') → d = c ∨ n < n') →
        Does (.cpop b w) s0 (u.RetiresLogged · b
          { (k.tagTaken c).setReg w.d (BitVec.ofNat 64 v) with fe := decide (st.code ≠ 0), fst := st.code, fz := false, tag := b.val * 256 + c.tag }
          (.result (some v) (some (b.val * 256 + c.tag)) (some st.code) (some false)) (s.nextPc b)))) ∧
    (s0.Live b w s → w.only false false false false 0 = true →
      let out := k.cmds.filter fun c => !c.quarantined
      (∀ c ∈ out, c.answer.isSome = true) →
        let a := (out.map Cmd.tag).foldl (fun t g => t.takeTag b g) u
        let st := match out.find? (fun c => c.result.1 ≠ 0) with | some c => c.result.1 | none => 0
        Does (.fence b w) s0 (a.RetiresLogged · b { a.bank b with fe := decide (st ≠ 0), fst := st } (.result none none (some st) none) (s.nextPc b))) ∧
    (s0.Live b w s → w.only false false false false 0 = true → (∃ c ∈ k.cmds, c.quarantined = false ∧ c.answer = none) →
      exec (.fence b w) s0 = .next (u.setBank b { k with stall := .fence ((k.cmds.filter fun c => !c.quarantined).map Cmd.tag) })) ∧
    (∀ tags, s0.Resumes b (.fence tags) s → (∃ c ∈ (s.bank b).cmds, c.tag ∈ tags ∧ c.quarantined = false ∧ c.answer = none) →
      exec (.fence b w) s0 = .next (s.setBank b { s.bank b with stall := .fence tags }))

/-- Live and ready with legal fields: WFE takes a held trap first; with none and an event pending it returns the event to d and logs it, leaves the fault entry and
starts the count of retired instructions again, and a sleep request refused by a race sets STK_SLEEP.REFUSED; with none the context writes its checkpoint, with
the PC of this WFE, and sleeps. A sleeping context wakes for an event and returns it to the register its WFE named. A trap pushes the PC and goes to NMT_ENTRY;
one in progress is suspended (log entry 22); one that waits for a WFE is not taken before it. A timer fires at its setting. Of several events the one returned is an adoption (never of a hosted context), else an interrupt, a fired timer (the lowest), a completion, a
signal, a mailbox request; its word carries the class in [63:56], the sender in [34:32], the detail in [31:0]; it goes, and every other field of the bank stays. -/
def Obligations.WaitingForEvents : Prop :=
  ∀ (s0 s : State) (b : Fin 8) (w : IW) (race : Bool),
    let k := s.bank b
    let k0 := { k with ctx := .running, retired := 0, nmtToWfe := [] }
    let u := s.setBank b k0
    let entered := fun (v t : State) (src : Nat) =>
      let e := v.areaRead b 2
      let n := ({ e.1 with nmtHeld := e.1.nmtHeld.erase (b.val, src) }.put F.FAULT_NMT_VALID b true).wr F.FAULT_NMT_SOURCE b src
      let ke := n.bank b
      (e.1.resets ≠ v.resets → t = e.1) ∧
      (e.1.resets = v.resets → t = n.setBank b { ke with
        nmt := some ke.rstack.length, rstack := ke.pc :: ke.rstack, pc := e.2 % 2 ^ 18, stall := .none,
        nmtOuter := (match ke.nmt with | some d => (e.1.rd F.FAULT_NMT_SOURCE b, d) :: ke.nmtOuter | none => ke.nmtOuter),
        ctx := (if ke.ctx = .sleeping then .running else ke.ctx), nmtToWfe := n.nmtOf b })
    (s0.Live b w s → w.only true false false false 0 = true →
      (∀ src, k.rstack.length < 32 → u.nmtNext b = some src → Does (.wfe b w race) s0 (entered u · src)) ∧
      (u.nmtReady b true = false →
        (k.hasEvent = false → Does (.wfe b w race) s0 fun t =>
          t.bank b = { k0 with log := [], ctx := .sleeping, sleepD := w.d.val } ∧ (∀ c, c ≠ b.val → t.bank c = s.bank c) ∧
          ∃ more, t = { s.areaWrite b 8 (k.checkpoint k.pc) with banks := t.banks, perfPipe := s.perfPipe ++ more }) ∧
        (k.hasEvent = true → race = false →
          let v := u.logRoom b
          ∀ word k1 pe, (v.bank b).takeEvent = some (word, k1, pe) →
            Does (.wfe b w race) s0 fun t => ∃ v1 : State, v.RetiresLogged v1 b ({ k1 with ctx := .running }.setReg w.d (BitVec.ofNat 64 word))
              (.result (some word) none none none) (s.nextPc b) ∧ t = v1.setBank b { v1.bank b with retired := 0 }) ∧
        (k.hasEvent = true → race = true → Does (.wfe b w race) s0 fun t => t.rd F.STK_SLEEP_REFUSED (s.engineOf b) = 1 ∧
          t.rd F.STK_SLEEP_REFUSALS (s.engineOf b) = min (s.rd F.STK_SLEEP_REFUSALS (s.engineOf b) + 1) (2 ^ F.STK_SLEEP_REFUSALS.w - 1)))) ∧
    (k.ctx = .sleeping → k.failed = false → k.wantAdopt = false → s.nmtReady b true = false →
      ∀ word k1 pe, k.hasEvent = true → k.takeEvent = some (word, k1, pe) →
        Does (.wfeWake b) s fun t => ∃ v : State, s.RetiresLogged v b ({ k1 with ctx := .running }.setReg (Fin.ofNat 16 k.sleepD) (BitVec.ofNat 64 word))
          (.result (some word) none none none) (s.nextPc b) ∧ t = v.setBank b { v.bank b with retired := 0 }) ∧
    (∀ src, k.live = true → k.ctx ≠ .inFaultEntry → k.stall = .none → k.rstack.length < 32 → k.replay = none →
      s.nmtNext b = some src → (k.ctx = .sleeping ∨ k.nmtToWfe.contains src = false) → Does (.nmtTaken b) s (entered s · src)) ∧
    (∀ (n : Fin 4) (at' : Nat), (k.timer n).setting = some at' → at' ≤ s.time →
      Does (.timerFire b n) s fun t => t = s.setBank b (k.setTimer n ⟨none, true⟩)) ∧
    (∀ k : Bank,
      let word := fun cls sender detail : Nat => cls * 2 ^ 56 + sender % 8 * 2 ^ 32 + detail % 2 ^ 32
      (∀ a as, k.host = none → k.adoptions = a :: as → k.takeEvent = some (word 7 0 a, { k with adoptions := as }, none)) ∧
      (k.adoptions = [] ∨ k.host.isSome = true →
        (∀ i is, k.irqs = i :: is → k.takeEvent = some (word 1 0 i, { k with irqs := is }, some 8)) ∧
        (k.irqs = [] →
          (∀ t : Fin 4, (k.timer t).fired = true → (∀ r : Fin 4, r < t → (k.timer r).fired = false) →
            k.takeEvent = some (word 3 0 t, k.setTimer t { k.timer t with fired := false }, some 7)) ∧
          ((∀ t : Fin 4, (k.timer t).fired = false) →
            ((k.completion && k.hasDone) = true → k.takeEvent = some (word 4 0 0, { k with completion := false }, none)) ∧
            ((k.completion && k.hasDone) = false →
              (∀ sd p ss, k.signals = (sd, p) :: ss → k.takeEvent = some (word 6 sd p, { k with signals := ss }, none)) ∧
              (k.signals = [] →
                (k.mailbox = true → k.requests ≠ [] → k.takeEvent = some (word 2 0 0, { k with mailbox := false }, none)) ∧
                (k.mailbox = false ∨ k.requests = [] → k.takeEvent = none ∧ k.hasEvent = false)))))))

/-- The completion of a command its unit has applied, not yet timed out, is there for the bank with its status and value, behind those that arrived before;
one that comes after a TIMEOUT is discarded, counted in LATE, raises source 32b + 17 and releases a quarantined tag. A command that has waited CMD_TIMEOUT
without a completion, in waits that count towards it, completes TIMEOUT and raises source 32b + 16. -/
def Obligations.CompletionsArrive : Prop :=
  ∀ (s : State) (b : Fin 8) (tag : Fin 256) (c : Cmd), (s.bank b).cmds.find? (fun c => c.tag = tag.val) = some c →
    let k := s.bank b
    let with' := fun f : Cmd → Cmd => k.cmds.map fun d => if d.tag = tag.val then f d else d
    (∀ st v, c.phase = .applied st v → c.timedOut = false → Does (.commandCompletion b tag) s fun t =>
      t.bank b = { k with cmds := with' fun d => { d with phase := .gone, answer := some (st, v, k.arrivals) }
                          arrivals := k.arrivals + 1, completion := true } ∧
      (∀ e, e ≠ b.val → t.bank e = s.bank e) ∧ ({ s with banks := t.banks } : State).Becomes t [] true) ∧
    (∀ st v, c.phase = .applied st v → c.timedOut = true → c.quarantined = true → st ≠ .aborted → Does (.commandCompletion b tag) s fun t =>
      t.bank b = { k with cmds := k.cmds.filter fun d => d.tag ≠ tag.val } ∧ (∀ e, e ≠ b.val → t.bank e = s.bank e) ∧
      ({ s with banks := t.banks } : State).Becomes t
        [(F.STK_TAGS_LATE, b, min (s.rd F.STK_TAGS_LATE b + 1) (2 ^ F.STK_TAGS_LATE.w - 1))] true) ∧
    (∀ st v, c.phase = .applied st v → c.timedOut = true → c.quarantined = false → st ≠ .aborted → Does (.commandCompletion b tag) s fun t =>
      t.bank b = { k with cmds := with' fun d => { d with phase := .gone } } ∧ (∀ e, e ≠ b.val → t.bank e = s.bank e) ∧
      ({ s with banks := t.banks } : State).Becomes t
        [(F.STK_TAGS_LATE, b, min (s.rd F.STK_TAGS_LATE b + 1) (2 ^ F.STK_TAGS_LATE.w - 1))] true) ∧
    (c.answer = none → c.timedOut = false → s.waitUncounted c.addr = false → s.cmdTime b ≤ c.waited → Does (.commandTimeout b tag) s fun t =>
      t.bank b = { k with cmds := with' fun d => { d with timedOut := true, answer := some (.timeout, 0, k.arrivals) }
                          arrivals := k.arrivals + 1, completion := true } ∧
      (∀ e, e ≠ b.val → t.bank e = s.bank e) ∧ ({ s with banks := t.banks } : State).Becomes t [] true)

/-- A post that reaches its unit is refused by the device with NO_ENTRY, REFUSED_PRIV or BAD_LENGTH, or joins the request queue with SESSION and PRIV of the
sender, or with 16 queued is discarded and marked POST_FULL; a pop removes the sender's oldest response; a response not popped goes and is counted for its
session, if it names one. Live, MRECV at words the table may write takes the oldest request to the 64 bytes, d its first word, Z = 0, or with none sets Z;
at one it may not write it faults PRIVILEGE; MSEND with room queues the 64 bytes as a response to the session they name, else stalls. -/
def Obligations.Mailboxes : Prop :=
  ∀ (s0 s : State) (ag : Agent) (b : Fin 8) (w : IW),
    let k := s.bank b
    let stage := s.ldRun .mbxStage (stageIdx b ag.reader 0) 16
    let req := stage.set 1 (ag.reader * 2 ^ 24 + s.priv ag * 2 ^ 16 + stage.getD 1 0 % 2 ^ 16)
    let map := s.mapByte b (req.getD 0 0 / 256 % 256)
    let priv := req.getD 1 0 / 2 ^ 16 % 4
    let refusal := fun n : Nat => (s.respond b ag.reader (deviceAnswer req ag.reader n)).answer .ok 0
    (s.Accepts ag .STK_MBX_POST b 0 → s.on F.SYS_BOOT_STATUS_RECOVERY 0 = false →
      (4 ≤ map → exec (.mailboxPost ag b) s = .next (refusal 2)) ∧
      (map < 4 → priv < map → exec (.mailboxPost ag b) s = .next (refusal 1)) ∧
      (map ≤ priv → 56 < req.getD 0 0 % 256 → exec (.mailboxPost ag b) s = .next (refusal 3)) ∧
      (map ≤ priv → req.getD 0 0 % 256 ≤ 56 → k.lost = true → exec (.mailboxPost ag b) s = .next (refusal 6)) ∧
      (map ≤ priv → req.getD 0 0 % 256 ≤ 56 → k.lost = false → k.requests.length < 16 →
        Does (.mailboxPost ag b) s fun t => t = (s.setBank b { k with requests := k.requests ++ [req], mailbox := true }).answer .ok 0) ∧
      (map ≤ priv → req.getD 0 0 % 256 ≤ 56 → k.lost = false → 16 ≤ k.requests.length →
        Does (.mailboxPost ag b) s fun t => t = (s.st .mbxFull (b.val * 32 + ag.reader) 1).answer .ok 0)) ∧
    (s.Accepts ag .STK_MBX_POP b 0 → ∀ r rest, k.responses.filter (fun r => r.1 = ag.reader) = r :: rest →
      Does (.mailboxPop ag b) s fun t => t = (s.setBank b { k with responses := k.responses.erase r }).answer .ok 0) ∧
    (∀ (i : Fin 16) (sess : Nat) (words : List Nat), k.responses[i.val]? = some (sess, words) →
      let u := s.setBank b { k with responses := k.responses.eraseIdx i.val }
      (sess < 32 → exec (.responseExpiry b i) s = .next (u.st .mbxDropped (b.val * 32 + sess) (min 255 (s.ld .mbxDropped (b.val * 32 + sess) + 1)))) ∧
      (32 ≤ sess → exec (.responseExpiry b i) s = .next u)) ∧
    (s0.Live b w s →
      let u := s.logRoom b
      let ku := u.bank b
      let ps := (List.range 8).map fun i => dataPlace b ((ku.reg w.a + w.imm64).toNat + 8 * i)
      (∀ p ∈ ps, p.fault = none) →
      (w.only true true false true 0 = true → (∃ i, DataPlace.shared i ∈ ps ∧ stateProtected i = true) → s.bankPriv b < 3 →
        s.MayFault b → Does (.mrecv b w) s0 (s.FaultTaken · b 2 0)) ∧
      (w.only true true false true 0 = true → (∀ i, DataPlace.shared i ∈ ps → stateProtected i = true → 3 ≤ s.bankPriv b) →
        (ku.requests = [] → Does (.mrecv b w) s0 (u.RetiresLogged · b { ku with fz := true, mailbox := false }
          (.result none none none (some true)) (s.nextPc b))) ∧
        (∀ m rest, ku.requests = m :: rest →
          let d := (List.range 8).map fun i => m.getD (2 * i) 0 * 2 ^ 32 + m.getD (2 * i + 1) 0
          let u1 := (ps.zip d).foldl (fun t e => t.dataWrite e.1 e.2) u
          Does (.mrecv b w) s0 fun t => t.bank b = { { ku with requests := rest }.setReg w.d (BitVec.ofNat 64 (d.getD 0 0)) with
              fz := false, mailbox := ku.mailbox && decide (rest ≠ []), log := ku.log ++ [.result (some (d.getD 0 0)) none none (some false)]
              pc := s.nextPc b, retired := ku.retired + 1, stall := .none } ∧
            (∀ c, c ≠ b.val → t.bank c = s.bank c) ∧
            (∀ sp j, sp ≠ .valid → (sp = .shared → j ≠ stateArea b + 0x40 + 2 * ku.log.length ∧ j ≠ stateArea b + 0x41 + 2 * ku.log.length) →
              t.ld sp j = u1.ld sp j))) ∧
      (w.only false true false true 0 = true →
        (16 ≤ ku.responses.length → exec (.msend b w) s0 = .next (u.setBank b { ku with stall := .msend })) ∧
        (ku.responses.length < 16 →
          let r := u.gather64 ps
          let m := r.2.flatMap fun x => [x / 2 ^ 32 % 2 ^ 32, x % 2 ^ 32]
          r.1.resets = u.resets → (r.1.bank b).responses.length < 16 →
          Does (.msend b w) s0 (r.1.RetiresLogged · b { r.1.bank b with responses := (r.1.bank b).responses ++ [(m.getD 1 0 / 2 ^ 24, m)] }
            (.result none none none none) (r.1.nextPc b)))))

/-- RUN = 1 that reaches its unit starts a stopped or halted bank on its own sound engine with the initial checkpoint at ROOT_ENTRY, as its protection gives it;
RUN = 0 stops a bank that runs. A lockstep mismatch, or the watchdog where it may, declares a sound engine failed: its PC freezes, it is marked, its own bank and
those it hosts are placed anew, and its source is raised with the lines those raise; a failed one again has no effect. A bank called for adoption starts replaying
its log from the words of its checkpoint on its adopter, which gets an adoption event. A logged result replaces a logged instruction in replay. -/
def Obligations.ContextsStartFailAndMove : Prop :=
  ∀ (s0 s : State) (ag : Agent) (b e : Fin 8) (w : IW),
    let k := s.bank b
    (s.Accepts ag .STK_CTL b (s.ctlWithRun b 1) → k.wantAdopt = false → (k.ctx = .stopped ∨ k.ctx = .halted) → s.engineDown b = false →
      s.on F.FAULT_NMT_VALID b = false →
      let r := s.areaRead b 0
      let root := r.2 % 2 ^ 18
      r.1.resets = s.resets → r.1.bank b = k →
      Does (.stkCtlRunStart ag b) s fun t => t.rd F.STK_CTL_RUN b = 1 ∧ t.lastStatus = .ok ∧
        t.bank b = { k with g := [], fz := false, fn := false, fc := false, fv := false, fe := false, fst := 0, tag := 0, rstack := [], log := [], replay := none
                            retired := 0, stall := .none, nmt := none, nmtOuter := [], nmtToWfe := [], nextTime := none, pc := root, ctx := .running } ∧
        (∀ i : Fin 51, s.isWithheld 1 (stateArea b + 8 + i - 0x10000) = false → t.ld .shared (stateArea b + 8 + i) = if i.val = 17 then root else 0)) ∧
    (s.Accepts ag .STK_CTL b (s.ctlWithRun b 0) → k.failed = false → k.ctx ≠ .stopped → k.ctx ≠ .halted →
      Does (.stkCtlRunStop ag b) s fun t => t.rd F.STK_CTL_RUN b = 0 ∧
        t.bank b = { k with ctx := .stopped, host := none, wantAdopt := false, stall := .none } ∧
        (∀ c, c ≠ b.val → t.bank c = s.bank c) ∧ t.lastStatus = .ok ∧ t.mem = s.mem ∧ ∀ g j, g.reg ≠ .STK_CTL → t.rd g j = s.rd g j) ∧
    (let failed := fun cause : Nat =>
        let u0 := s.setBank e { s.bank e with frozenPc := some (s.bank e).pc }
        let u1 := (u0.wr F.STK_ENGINES_FAILED 0 (Nat.lor (s.rd F.STK_ENGINES_FAILED 0) (2 ^ e.val))).wr F.STK_ENGINES_PRESENT 0
          (Nat.land (s.rd F.STK_ENGINES_PRESENT 0) (255 - 2 ^ e.val))
        let own := u1.failOwnBank e
        let all := (u1.hostedBy e).foldl (fun (x : State × List Line) c => let y := x.1.adoptionLines c; (y.1, x.2 ++ y.2)) own
        all.1.errorLines ((18 + e.val, e.val, cause) :: all.2);
      (s.engineDown e = false → exec (.lockstepMismatch e) s = .next (failed 1)) ∧
      (s.engineDown e = false → (∃ d : Fin 8, s.engineOf d = e.val ∧ (s.bank d).canIssue = true ∧ (s.bank d).stall = .none) →
        exec (.livenessWatchdog e) s = .next (failed 3)) ∧
      (s.engineDown e = true → exec (.lockstepMismatch e) s = .next s ∧ exec (.livenessWatchdog e) s = .next s)) ∧
    (k.wantAdopt = true → k.adoptLive = false → s.adopter b = some e.val → b ≠ e → s.on F.FAULT_NMT_VALID b = false →
      let x := s.areaRun b 8 51
      x.1.resets = s.resets → x.1.on F.FAULT_NMT_VALID b = false →
      Does (.adoption b) s fun t =>
        t.bank b = { (x.1.bank b).restored x.2 with host := some e, wantAdopt := false, adoptLive := false, failed := false, ctx := .running, retired := 0 } ∧
        t.bank e = { x.1.bank e with adoptions := (x.1.bank e).adoptions ++ [b.val] } ∧ (∀ c, c ≠ b.val → c ≠ e.val → t.bank c = x.1.bank c) ∧
        t = { x.1 with banks := t.banks }) ∧
    (∀ v tag st z rest, s0.Ready b w s → w.only true false false false 0 = true → k.replay = some (.result v tag st z :: rest) →
      Does (.readTime b w) s0 (s.Retires · b { k.applyLog w.d (.result v tag st z) with replay := some rest } (s.nextPc b)) ∧
      Does (.cpop b w) s0 (s.Retires · b { k.applyLog w.d (.result v tag st z) with replay := some rest } (s.nextPc b)))

/-! ### Registers, sessions and access modes (chapters 1, 2, 11, 19, 21) -/

/-- For every command that is one register write: from a host session that is not open it completes NO_SESSION; else where the register does not exist now it
completes BAD_ADDRESS; else below the privilege it needs
REFUSED_PRIV; else of an object another bank owns NOT_OWNER; else, of a host session in Service mode, REFUSED_MODE, and during the entry into Service mode it
waits; nothing else changes. -/
def Obligations.RefusedWritesHaveNoEffect : Prop :=
  ∀ (s : State) (c : Instr) (ag : Agent) (r : Reg) (i v : Nat), registerWrite s c = some (ag, r, i, v) →
    let ends := fun st : Status => exec c s = .next { s with lastStatus := st, lastValue := 0 }
    (∀ k : Fin 9, ag = .host k → k ≠ 0 → (s.sess k).isOpen = false → ends .noSession) ∧
    (s.sessionClosed ag = false → s.regExists r i = false → ends .badAddress) ∧
    (s.sessionClosed ag = false → s.regExists r i = true → s.priv ag < s.writeLevel ag r i v → ends .refusedPriv) ∧
    (s.sessionClosed ag = false → s.regExists r i = true → s.writeLevel ag r i v ≤ s.priv ag →
      (∀ (b : Fin 8) (o : Obj), ag = .table b → objectOf r i v = some o → s.owner o ≠ b.val → ends .notOwner) ∧
      (∀ k : Fin 9, ag = .host k → s.on F.SYS_ACCESS_MODE_TRANSITION 0 = false → s.service = true → s.modeBad r i v = true → ends .refusedMode) ∧
      (∀ k : Fin 9, ag = .host k → s.on F.SYS_ACCESS_MODE_TRANSITION 0 = true →
        exec c s = .next { s.touched r i with lastStatus := .waiting, lastValue := 0 }) ∧
      (s.ownerBad ag r i v = false → s.modeCheck ag r i v = none → s.inReset = false → s.on F.KILN_STATUS_FATAL 0 = true → reachableFatal r = false →
        ends .unitError))

/-- A write at an address that holds no register completes BAD_ADDRESS with no other effect. One that reaches a register whose unit only stores it completes
OK: RW and write-only fields take their bits, W1C bits written 1 clear, W1S bits written 1 set, every other field of the register and every other register (but
the interrupt controller's words for a level that rises) stays, and nothing that is no register changes but that events are counted. -/
def Obligations.PlainRegisterWrite : Prop :=
  ∀ (s : State) (ag : Agent) (addr v : W32),
    (s.sessionClosed ag = false → s.regAt addr.toNat = none → exec (.registerWrite ag addr v) s =
      .next (({ s with lastStatus := .badAddress, lastValue := 0 } : State).settle)) ∧
    (∀ r i, s.regAt addr.toNat = some (r, i) → s.Accepts ag r i v.toNat → s.unitWrite ag r i v.toNat = none →
      Does (.registerWrite ag addr v) s fun t =>
        t.lastStatus = .ok ∧
        (∀ f ∈ r.fields, t.rd f i = match f.acc with
          | .rw | .wo => v.toNat / 2 ^ f.lo % 2 ^ f.w
          | .w1c => Nat.land (s.rd f i) (2 ^ f.w - 1 - v.toNat / 2 ^ f.lo % 2 ^ f.w) % 2 ^ f.w
          | .w1s => Nat.lor (s.rd f i) (v.toNat / 2 ^ f.lo % 2 ^ f.w) % 2 ^ f.w
          | _ => s.rd f i) ∧
        (∀ g j, g.reg ≠ r ∨ j ≠ i → eventRegs g.reg = false → t.rd g j = s.rd g j) ∧
        ∃ more, t = { s with regs := t.regs, lastStatus := .ok, lastValue := 0, perfPipe := s.perfPipe ++ more })

/-- A read outside every window completes BAD_ADDRESS. A read of a value the reader has captured answers it and releases it. A read of a plain register that no
check meets completes OK with the value the register shows its reader, clears its RC fields and leaves every other field, and stores for the reader the registers its
capture takes along; both read commands do so. -/
def Obligations.RegisterRead : Prop :=
  ∀ (s : State) (ag : Agent) (addr : W32),
    let reads := fun P : State → Prop => Does (.captureRead ag addr) s P ∧ Does (.readClear ag addr) s P
    (s.sessionClosed ag = false → Unit'.ofAddr addr.toNat = none → reads fun t => t = { s with lastStatus := .badAddress, lastValue := 0 }) ∧
    (∀ r i, s.regAt addr.toNat = some (r, i) → (Unit'.ofAddr addr.toNat).isSome = true → s.readCheck ag r i = none →
      (∀ v, s.captured ag.reader r i = some v → reads fun t => t = (s.releaseCapture ag.reader r i).answer .ok v) ∧
      (s.captured ag.reader r i = none → tvOf r i = none → r ≠ .STK_MBX_STATUS →
        r ∉ [.LANE_RX_COEF_DATA, .LANE_TX_COEF_DATA, .LANE_DEC_COEF_DATA, .LANE_MON_HIST_DATA, .LANE_DEC_CAP_DATA_LO, .MCV_CAP_DATA, .MCV_RESULT,
          .MCV_URG_RESULT, .PEAT_DATA] →
        reads fun t => t.lastStatus = .ok ∧ t.lastValue = s.view ag r i ∧
          (∀ f ∈ r.fields, t.rd f i = if f.acc = .rc then 0 else s.rd f i) ∧ (∀ g j, g.reg ≠ r ∨ j ≠ i → t.rd g j = s.rd g j) ∧
          (r.captureSet ≠ [] → ∀ h ∈ r.captureSet, t.captured ag.reader h i = some (s.view ag h i)) ∧
          t = { s with regs := t.regs, captures := t.captures, lastStatus := t.lastStatus, lastValue := t.lastValue }))

/-- A unit takes the oldest command of a bank that it has not applied: a write or a read whose access completes with a status other than a wait is applied with it. A request for
Service mode that reaches its unit waits for the commands numbered before it; the entry completes when none of them is outstanding any more; counted. Leaving at
Officer level, carried out by a live bank, zeroises every key slot and clears MODE. -/
def Obligations.CommandsTakeEffectAndModes : Prop :=
  ∀ (s : State) (ag : Agent) (b : Fin 8) (u : Unit') (c : Cmd),
    (s.nextCmd b u = some c →
      (∀ a st, c.write = true → s.accessWrite (.table b) c.addr c.value c.wide = (a, st) → st ≠ .waiting →
        a.retrainAfter = false → a.resetAfter = false →
        Does (.commandTakesEffect b u) s fun t => t = a.setBank b { a.bank b with
          cmds := (a.bank b).cmds.map fun d => if d.tag = c.tag then (if d.phase = .issued then { d with phase := .applied st 0 } else d) else d }) ∧
      (∀ a st v, c.write = false → s.accessRead (.table b) c.addr c.wide = (a, st, v) → st ≠ .waiting →
        a.retrainAfter = false → a.resetAfter = false →
        Does (.commandTakesEffect b u) s fun t => t = a.setBank b { a.bank b with
          cmds := (a.bank b).cmds.map fun d => if d.tag = c.tag then (if d.phase = .issued then { d with phase := .applied st v } else d) else d })) ∧
    (s.Accepts ag .SYS_ACCESS_MODE 0 2 → s.service = false → s.on F.SYS_ACCESS_MODE_TRANSITION 0 = false →
      Does (.enterService ag) s fun t =>
        (({ s with entryWait := s.requestSerial ag } : State).answer .ok 0).Becomes t [(F.SYS_ACCESS_MODE_TRANSITION, 0, 1)] false) ∧
    (s.service = false → s.on F.SYS_ACCESS_MODE_TRANSITION 0 = true → 
      (∀ (d : Fin 8), ∀ e ∈ (s.bank d).cmds, e.serial < s.entryWait → e.quarantined = true) →
      Does .serviceEntryComplete s fun t => ({ s with entryWait := 0 } : State).Becomes t
        [(F.SYS_ACCESS_MODE_TRANSITION, 0, 0), (F.SYS_ACCESS_MODE_MODE, 0, 1),
          (F.SYS_ACCESS_MODE_ENTRY_COUNT, 0, min (s.rd F.SYS_ACCESS_MODE_ENTRY_COUNT 0 + 1) (2 ^ F.SYS_ACCESS_MODE_ENTRY_COUNT.w - 1))] false) ∧
    (∀ p : Fin 4, s.service = true → 2 ≤ p.val → (s.bank b).live = true →
      Does (.leaveService b p) s fun t => s.keysZero.Becomes t [(F.SYS_ACCESS_MODE_MODE, 0, 0)] false)

/-- A write of any length at any address of the Flue ring window, by any sender, completes BAD_ADDRESS and changes nothing (of a host session that is not open
there is no write: NO_SESSION); the write command at such an address completes with that status. -/
def Obligations.FlueRingReadOnly : Prop :=
  ∀ (s : State) (ag : Agent) (addr v : W32) (a x : Nat) (wide : Bool), 0xD010000 ≤ a → a < 0xD020000 →
    let st := if s.sessionClosed ag then Status.noSession else .badAddress
    s.accessWrite ag a x wide = (s, st) ∧ (addr.toNat = a → exec (.registerWrite ag addr v) s = .next (s.answer st 0).settle)

/-! ### Lanes: states and transitions (chapter 3) -/

/-- A request for a state that reaches the lane: refused by R138 it sets REFUSED and nothing else; for the state the lane is in, only REQ and FORCED follow; from
Cold or Banked for another state the transition starts, with CHANGING, the calibration of an upward one and the acquisition step, and the freeze, the port and the merges
are judged again; a wake from Banked aborts a Kiln slice on the lane. A transition that is ready (from Cold to Banked, too, after the calibration) ends in the requested state, on the way down with the source IDLE. A write of LANE_RX_CFG takes effect whole only while Cold; LP_ADC with RATE 2 or 3 is refused. -/
def Obligations.LaneStates : Prop :=
  ∀ (s : State) (ag : Agent) (n : Fin 48) (v : W32),
    let l := s.lane n
    let cur := s.rd F.LANE_STATE_CUR n
    let req := F.LANE_STATE_REQ.of v.toNat
    let w := if req = 2 then s.wakeKind n cur else .none
    let from' := if cur = 1 ∧ 2 ≤ req then s.dataPath n else s
    let unforced := if req = 0 then [] else [(F.LANE_STATE_FORCED, n.val, 0), (F.LANE_STATE_FORCE_CAUSE, n.val, 0)]
    (s.Accepts ag .LANE_STATE n v.toNat → l.forcedDrop = false →
      (s.laneRefuses n req = true → Does (.laneStateRequest ag n v) s fun t =>
        (s.answer .refusedState 0).Becomes t [(F.LANE_STATE_REFUSED, n, 1)] false) ∧
      (s.laneRefuses n req = false → F.LANE_STATE_REFUSED.of v.toNat = 0 → s.on F.LANE_STATE_CHANGING n = false →
        (cur = req → Does (.laneStateRequest ag n v) s fun t => (s.answer .ok 0).Becomes t ([(F.LANE_STATE_REQ, n.val, req)] ++ unforced) false) ∧
        (cur ≠ req → cur ≤ 1 → req = 2 ∨ s.on F.LANE_RX_STATUS_CONVERGED n = false → DoesThen (.laneStateRequest ag n v) s (fun u => (((u.freezeJudge n).laneMoved n).answer .ok 0).settle) fun u =>
          (from'.setLane n { l with wake := w, windows := 0, asBanked := decide (cur = 1 ∧ req = 2) }).Becomes u
            ([(F.LANE_STATE_REQ, n.val, req)] ++ unforced ++ [(F.LANE_STATE_CHANGING, n.val, 1), (F.LANE_TX_STATUS_DAC_CAL, n.val, if 1 ≤ req then 1 else 0),
              (F.LANE_RX_STATUS_ACQ_STEP, n.val, if req = 2 then (if cur = 0 then 1 else s.rd F.LANE_RX_STATUS_ACQ_STEP n) else 0)]) false))) ∧
    (s.on F.LANE_STATE_CHANGING n = true → s.transitionReady n = true →
      let to' := s.rd F.LANE_STATE_REQ n
      let down := to' ≤ 1 ∨ (to' = 3 ∧ 2 ≤ cur)
      let s0 := if down then s.txIdle n else s
      let arrived := fun u : State => (s0.setLane n { s0.lane n with forcedDrop := false }).Becomes u
        [(F.LANE_STATE_CUR, n.val, to'), (F.LANE_STATE_CHANGING, n.val, 0)] false
      let after := fun u : State => (((u.freezeJudge n).decTrack n).smokeTrack n).laneMoved n
      to' < 4 →
      (cur = 0 → s.rd F.LANE_TX_STATUS_DAC_CAL n = 0 ∨ to' = 0) ∧
      (to' = 3 ∨ (to' = 2 ∧ ¬ (l.wake = .full ∧ (cur ≤ 1 ∨ l.asBanked))) → DoesThen (.laneTransitionEnd n) s after arrived) ∧
      (to' = 2 → l.wake = .full → cur ≤ 1 ∨ l.asBanked → DoesThen (.laneTransitionEnd n) s (fun u => after (u.acqBegin n)) arrived) ∧
      (to' = 1 → DoesThen (.laneTransitionEnd n) s (fun u => after ((u.sensingStops n).shortSet n 2 false false)) arrived) ∧
      (down → Does (.laneTransitionEnd n) s fun t => t.rd F.LANE_TX_STATUS_SOURCE n = 0 ∧ t.on F.LANE_TX_STATUS_DRIVING n = false)) ∧
    (s.Accepts ag .LANE_RX_CFG n v.toNat →
      let f := fun g : Fld => g.of v.toNat
      (s.laneCold n = true → f F.LANE_RX_CFG_LP_ADC = 1 → 2 ≤ f F.LANE_RX_CFG_RATE → exec (.laneRxCfgWrite ag n v) s = .next (s.answer .refusedState 0)) ∧
      (s.laneCold n = true → f F.LANE_RX_CFG_LP_ADC = 0 ∨ f F.LANE_RX_CFG_RATE ≤ 1 →
        DoesThen (.laneRxCfgWrite ag n v) s (fun u => ((u.rippleCheck n).answer .ok 0).settle) fun u => s.Becomes u
          [(F.LANE_RX_CFG_POL_INV, n, f F.LANE_RX_CFG_POL_INV), (F.LANE_RX_CFG_POL_FORCE, n, f F.LANE_RX_CFG_POL_FORCE),
            (F.LANE_RX_CFG_RATE, n, f F.LANE_RX_CFG_RATE), (F.LANE_RX_CFG_LP_ADC, n, f F.LANE_RX_CFG_LP_ADC),
            (F.LANE_RX_CFG_AC_COUPLED, n, f F.LANE_RX_CFG_AC_COUPLED),
            (F.LANE_RX_ADAPT_MLSE, n, if f F.LANE_RX_CFG_RATE = 0 then 0 else if f F.LANE_RX_CFG_RATE = 1 then 1 else 2)] false) ∧
      (s.laneCold n = false → ∃ st, Does (.laneRxCfgWrite ag n v) s fun t => (s.answer st 0).Becomes t
          [(F.LANE_RX_CFG_POL_INV, n, f F.LANE_RX_CFG_POL_INV), (F.LANE_RX_CFG_POL_FORCE, n, f F.LANE_RX_CFG_POL_FORCE)] false ∧
        (st = .ok ↔ f F.LANE_RX_CFG_RATE = s.rd F.LANE_RX_CFG_RATE n ∧ f F.LANE_RX_CFG_LP_ADC = s.rd F.LANE_RX_CFG_LP_ADC n ∧
          f F.LANE_RX_CFG_AC_COUPLED = s.rd F.LANE_RX_CFG_AC_COUPLED n)))

/-! ### Lanes: sensing, gain, figures of merit -/

/-- A sensing lane that loses its signal clears SIGNAL and sets LOS, one that finds it again sets both (acquisition waiting for it goes on); the freeze, the port
and the merges follow. The open-input check sets OPEN_P and OPEN_N by the legs' distances from the bias, never on an AC-coupled input. A change of polarity, of
staleness, or the release of a freeze (of the gain loop or of every loop) changes its bits alone. An elastic queue overflow of a Lit lane forces it to Cold with cause 1 and raises the error line of its bay. -/
def Obligations.LaneSensing : Prop :=
  ∀ (s : State) (n : Fin 48),
    let l := s.lane n
    let cur := s.rd F.LANE_STATE_CUR n
    let after := fun u : State => (u.freezeJudge n).laneMoved n
    (s.sensing n = true → s.on F.LANE_RX_STATUS_SIGNAL n = true → DoesThen (.signalLoss n) s after fun u =>
      s.Becomes u [(F.LANE_RX_STATUS_SIGNAL, n, 0), (F.LANE_RX_EVENT_LOS, n, 1)] true) ∧
    (s.sensing n = true → s.on F.LANE_RX_STATUS_SIGNAL n = false →
      (s.rd F.LANE_RX_STATUS_ACQ_STEP n ≠ 2 → DoesThen (.signalReturn n) s after fun u =>
        s.Becomes u [(F.LANE_RX_STATUS_SIGNAL, n, 1), (F.LANE_RX_EVENT_LOS, n, 1)] true) ∧
      (s.rd F.LANE_RX_STATUS_ACQ_STEP n = 2 → DoesThen (.signalReturn n) s (fun u => after (u.acqSeason n)) fun u =>
        s.Becomes u [(F.LANE_RX_STATUS_SIGNAL, n, 1), (F.LANE_RX_EVENT_LOS, n, 1)] true)) ∧
    (∀ p m : BitVec 12, s.sensing n = true →
      let near := fun mv : BitVec 12 => decide (430 ≤ mv.toNat ∧ mv.toNat ≤ 470)
      let off := fun mv : BitVec 12 => decide (mv.toNat < 390 ∨ 510 < mv.toNat)
      let dc := !s.on F.LANE_RX_CFG_AC_COUPLED n
      let both := near p && near m && !s.on F.LANE_RX_STATUS_SIGNAL n
      let openP := dc && (both || (near p && off m))
      let openN := dc && (both || (near m && off p))
      Does (.openInputCheck n p m) s fun t => t.on F.LANE_RX_STATUS_OPEN_P n = openP ∧ t.on F.LANE_RX_STATUS_OPEN_N n = openN ∧
        (t.rd F.LANE_RX_EVENT_OPEN n = if openP ≠ s.on F.LANE_RX_STATUS_OPEN_P n ∨ openN ≠ s.on F.LANE_RX_STATUS_OPEN_N n then 1
          else s.rd F.LANE_RX_EVENT_OPEN n) ∧
        (∀ g j, (j = n.val → g ≠ F.LANE_RX_STATUS_OPEN_P ∧ g ≠ F.LANE_RX_STATUS_OPEN_N ∧ g ≠ F.LANE_RX_EVENT_OPEN) → g.listed = true →
          eventRegs g.reg = false → t.rd g j = s.rd g j) ∧ t = { s with regs := t.regs, perfPipe := t.perfPipe } ∧ s.perfPipe <+: t.perfPipe) ∧
    (let pol := if s.on F.LANE_RX_CFG_POL_FORCE n then s.on F.LANE_RX_CFG_POL_INV n else l.polWanted
     s.on F.LANE_RX_STATUS_POL_INV n ≠ pol → Does (.polarityChange n) s fun t =>
      s.Becomes t [(F.LANE_RX_STATUS_POL_INV, n, if pol then 1 else 0), (F.LANE_RX_EVENT_POL, n, 1)] true) ∧
    (cur = 3 → s.on F.LANE_RX_STATUS_SIGNAL n = false → Does (.warmStale n) s fun t =>
      s.Becomes t [(F.LANE_RX_STATUS_WARM_STALE, n, 1), (F.LANE_RX_EVENT_WARM_STALE, n, 1)] true) ∧
    (s.on F.LANE_RX_STATUS_SIGNAL n = true → s.on F.LANE_RX_STATUS_CDR_LOCK n = true → Does (.warmStaleClear n) s fun t =>
      s.Becomes t [(F.LANE_RX_STATUS_WARM_STALE, n, 0)] false) ∧
    (s.laneLit n = true → s.on F.LANE_RX_STATUS_SIGNAL n = true → l.ovrFreeze = false → s.fecLost n = false →
      s.on F.LANE_RX_ADAPT_FREEZE_ALL n = false → Does (.freezeRelease n false) s fun t =>
        (s.setLane n { l with trainHeld := false }).Becomes t [(F.LANE_RX_STATUS_FROZEN, n, 0), (F.LANE_RX_STATUS_FREEZE_CAUSE, n, 0)] false) ∧
    (s.on F.LANE_RX_STATUS_SIGNAL n = true → s.on F.LANE_RX_ADAPT_FREEZE_ALL n = false →
      exec (.freezeRelease n true) s = .next (s.setLane n { l with gainFrozen := false })) ∧
    (s.laneLit n = true → s.rxOn n = true → DoesThen (.elasticQueueOverflow n) s (fun u => (u.laneGo n).errorLine (n.val / 8) (n.val % 8) 1) fun u =>
      (s.setLane n { l with forcedDrop := true }).Becomes u
        [(F.LANE_STATE_REQ, n, 0), (F.LANE_STATE_FORCED, n, 1), (F.LANE_STATE_FORCE_CAUSE, n, 1)] false)

/-- The 10 µs update of a Lit or Warm lane takes the frequency offset of an unfrozen Lit lane; a running gain loop steps FINE down on more than 1 over-range sample in 10^5 or an
rms above the target, else up below it, changes ATTEN at the ends of FINE (a gain change); the over-range freeze follows. The end of a window of an unfrozen Lit lane reports the window's SNR,
median margin and counts; a steady window counts toward the end of RECONVERGING. Only a window no freeze has met does so. In training a window that no freeze but the loss of FEC lock has met is one setting of the sweep, or
one of training. RECONV_SLOW is an event only while RECONVERGING. -/
def Obligations.LaneGainAndWindows : Prop :=
  ∀ (s : State) (n : Fin 48), s.Canonical →
    let l := s.lane n
    let r := l.rx
    let fine := s.rd F.LANE_RX_GAIN_FINE n
    let att := s.rd F.LANE_RX_GAIN_ATTEN n
    let target := clampNat 16 96 (s.rd F.LANE_RX_GAIN_TARGET n)
    let fr := if s.laneActive n then [(F.LANE_RX_FREQ_OFFSET, n.val, sfield 32 r.freq % 2 ^ F.LANE_RX_FREQ_OFFSET.w)] else []
    let taken := fun l : LaneS => { l with ovrFreeze := decide (r.tenCount < r.tenOvers * 1000)
                                           rx := { l.rx with tenCount := 0, tenSquares := 0, tenOvers := 0 } }
    let loud := r.tenCount < r.tenOvers * 100000 ∨ target * target * r.tenCount < r.tenSquares
    let quiet := ¬ loud ∧ r.tenSquares < target * target * r.tenCount
    let steps := fun w : List (Fld × Nat × Nat) =>
      DoesThen (.gainLoopUpdate n) s (·.freezeJudge n) fun u => (s.setLane n (taken l)).Becomes u (fr ++ w) false
    let changes := fun w : List (Fld × Nat × Nat) =>
      DoesThen (.gainLoopUpdate n) s (fun u => ((u.gainChange n).setLane n (taken ((u.gainChange n).lane n))).freezeJudge n) fun u => s.Becomes u (fr ++ w) false
    (2 ≤ s.rd F.LANE_STATE_CUR n →
      (s.gainRuns n = false ∨ r.tenCount = 0 ∨ (¬ loud ∧ ¬ quiet) → steps []) ∧
      (s.gainRuns n = true → 0 < r.tenCount →
        (quiet → fine < 63 → steps [(F.LANE_RX_GAIN_FINE, n.val, fine + 1)]) ∧
        (quiet → fine = 63 → 0 < att → changes [(F.LANE_RX_GAIN_ATTEN, n.val, att - 1), (F.LANE_RX_GAIN_FINE, n.val, 39)]) ∧
        (loud → 0 < fine → steps [(F.LANE_RX_GAIN_FINE, n.val, fine - 1)]) ∧
        (loud → fine = 0 → att < 7 → changes [(F.LANE_RX_GAIN_ATTEN, n.val, att + 1), (F.LANE_RX_GAIN_FINE, n.val, 24)]))) ∧
    (s.rd F.LANE_STATE_CUR n < 2 → exec (.gainLoopUpdate n) s = .next s) ∧
    (s.on F.LANE_RX_STATUS_RECONVERGING n = true → Does (.reconvSlow n) s fun t => s.Becomes t [(F.LANE_RX_EVENT_RECONV_SLOW, n, 1)] true) ∧
    (let snr := if r.fom.count = 0 then r.snrs.headD (s.rd F.LANE_RX_FOM_SNR n) else r.fom.snr
     let low := (r.margins.filter fun e => e.1 < s.rd F.LANE_RX_FOM_THR_MARGIN n).foldl (fun a e => a + e.2) 0
     let step := s.rd F.LANE_RX_STATUS_ACQ_STEP n
     let frozen := s.laneLit n = false ∨ s.on F.LANE_RX_STATUS_SIGNAL n = false ∨ l.ovrFreeze = true ∨ s.on F.LANE_RX_ADAPT_FREEZE_ALL n = true
     let whole := s.laneActive n = true ∧ l.fomWhole = true
     let trains := 1 ≤ step ∧ step ≤ 8 ∧ ¬ frozen ∧ l.trainWhole = true
     let next := fun l : LaneS => { l with
       fomWhole := s.laneActive n, trainWhole := decide (¬ frozen ∧ l.trainHeld = false)
       rx := { l.rx with fom := SnrSum.init, margins := [], overs := 0, snrs := ((if whole ∨ trains then [snr] else []) ++ r.snrs).take 11 } }
     let ends := fun (l : LaneS) (w : List (Fld × Nat × Nat)) (ev : Bool) => Does (.fomWindowEnd n) s fun t => (s.setLane n (next l)).Becomes t w ev
     (whole →
       let rec' := [(F.LANE_RX_FOM_SNR, n.val, snr % 2 ^ F.LANE_RX_FOM_SNR.w), (F.LANE_RX_FOM_MARGIN, n.val, medianOf r.margins % 2 ^ F.LANE_RX_FOM_MARGIN.w),
         (F.LANE_RX_LOWMARGIN_COUNT, n.val, min (s.rd F.LANE_RX_LOWMARGIN_COUNT n + low) (2 ^ 32 - 1)),
         (F.LANE_RX_OVR_COUNT, n.val, min (s.rd F.LANE_RX_OVR_COUNT n + r.overs) (2 ^ 32 - 1))]
       let steady := snr ≤ l.recordSnr + 5 ∧ l.recordSnr ≤ snr + 5
       let after := fun u : State => (if 4 < step then u.trainStep n else u.sweepStep n snr).windowNext n (some snr)
       let ends := fun (l : LaneS) (w : List (Fld × Nat × Nat)) => (¬ trains ∨ step < 4 → ends l w true) ∧
         (trains → 4 ≤ step → DoesThen (.fomWindowEnd n) s after fun u => (s.setLane n l).Becomes u w true)
       (s.on F.LANE_RX_STATUS_RECONVERGING n = false → ends l rec') ∧
       (s.on F.LANE_RX_STATUS_RECONVERGING n = true →
         (¬ steady → ends { l with steadyWindows := 0 } rec') ∧
         (steady → l.steadyWindows < 2 → ends { l with steadyWindows := l.steadyWindows + 1 } rec') ∧
         (steady → 2 ≤ l.steadyWindows → ends { l with steadyWindows := l.steadyWindows + 1 } (rec' ++ [(F.LANE_RX_STATUS_RECONVERGING, n.val, 0)])))) ∧
     (¬ whole → (¬ trains ∨ step < 4 → ends l [] false) ∧ (trains →
       (step = 4 →
         let best := if l.swept = 0 ∨ l.best.1 < snr then (snr, l.swept) else l.best
         (l.swept < 30 → ends { l with best := best, swept := l.swept + 1 } [(F.LANE_RX_CTLE_PEAK, n.val, l.swept + 1)] false) ∧
         (30 ≤ l.swept → ends { l with best := best, swept := 31, acqWindows := 0 }
           [(F.LANE_RX_CTLE_PEAK, n.val, best.2 % 2 ^ F.LANE_RX_CTLE_PEAK.w), (F.LANE_RX_STATUS_ACQ_STEP, n.val, 5)] false)) ∧
       (step = 5 → (s.on F.LANE_RX_STATUS_CDR_LOCK n = false → ends l [] false) ∧
         (s.on F.LANE_RX_STATUS_CDR_LOCK n = true → ends { l with acqWindows := 0 } [(F.LANE_RX_STATUS_ACQ_STEP, n.val, 6)] false)) ∧
       (6 ≤ step → let w := l.acqWindows + 1
         ends { l with acqWindows := w } [(F.LANE_RX_STATUS_ACQ_STEP, n.val, if w < 250 then 6 else if w < 400 then 7 else 8)] false))))

/-! ### Lanes: seasoning, clock recovery, adaptation, convergence -/

/-- A seasoning pass accepted on a Lit lane with a spare starts at the slot after the last, for all slots and one more; a step within half an LSB swaps the spare
in and goes on, else counts a try, the fourth ending the pass with NO_SPARE; of a lane that left Lit it ends the pass ABANDONED. Losing the clock ends convergence; finding it in a Lit or Warm lane sets the lock; a lost clock is acquired
again, without the held frequency unless FREEZE holds it (in Warm with a free one within ±300 ppm, log entry 9). A coefficient write stores the value at INDEX, sign-extended from its width, and INDEX advances; unlisted indices read 0 and ignore writes. -/
def Obligations.LaneSeasoningAndClock : Prop :=
  ∀ (s : State) (ag : Agent) (n : Fin 48) (v trim : W32) (sat : Bool),
    let l := s.lane n
    let step' := s.rd F.LANE_RX_STATUS_ACQ_STEP n
    (s.Accepts ag .LANE_SEASON_CMD n v.toNat → F.LANE_SEASON_CMD_START.of v.toNat = 1 →
      (s.on F.LANE_SEASON_STATUS_NO_SPARE n = true → exec (.seasonStart ag n v) s = .next (s.answer .unitError 0)) ∧
      (s.on F.LANE_SEASON_STATUS_NO_SPARE n = false → s.laneLit n = false ∨ (1 ≤ step' ∧ step' ≤ 8) ∨ s.on F.LANE_SEASON_STATUS_BUSY n = true →
        exec (.seasonStart ag n v) s = .next (s.answer .refusedState 0)) ∧
      (s.on F.LANE_SEASON_STATUS_NO_SPARE n = false → s.laneLit n = true → (step' = 0 ∨ 9 ≤ step') → s.on F.LANE_SEASON_STATUS_BUSY n = false →
        Does (.seasonStart ag n v) s fun t =>
          ((s.setLane n { l with seasonSlot := (l.seasonLast + 1) % s.slots n, seasonLeft := s.slots n + 1, seasonTries := 0, seasonAcq := false, seasonGone := false }).answer .ok 0).Becomes t
            [(F.LANE_SEASON_STATUS_BUSY, n, 1), (F.LANE_MON_STATUS_PAUSED, n,
              if s.on F.LANE_MON_STATUS_BUSY n ∧ s.rd F.LANE_MON_CTL_MODE n = 2 then 1 else 0)] false)) ∧
    (s.on F.LANE_SEASON_STATUS_BUSY n = true → s.underSlice n = true → exec (.seasoningStep n true trim sat) s = .next s) ∧
    (s.on F.LANE_SEASON_STATUS_BUSY n = true → s.underSlice n = false → (s.laneLit n = false ∨ l.seasonGone = true) →
      let s1 := s.trimSolve n trim.toNat sat
      DoesThen (.seasoningStep n false trim sat) s (·.seasonStop n) fun u =>
        (s1.setLane n { s1.lane n with seasonTries := (s1.lane n).seasonTries + 1 }).Becomes u [(F.LANE_SEASON_STATUS_ABANDONED, n, 1)] false) ∧
    (s.on F.LANE_SEASON_STATUS_BUSY n = true → s.underSlice n = false → s.laneLit n = true → l.seasonGone = false →
      let s1 := s.trimSolve n trim.toNat sat
      let l1 := s1.lane n
      (s1.laneLit n = true → l1.seasonGone = false → l1.seasonTries < 3 → Does (.seasoningStep n false trim sat) s fun t => t = s1.setLane n { l1 with seasonTries := l1.seasonTries + 1 }) ∧
      (s1.laneLit n = true → l1.seasonGone = false → 2 ≤ l1.seasonLeft → Does (.seasoningStep n true trim sat) s fun t =>
        (s1.setLane n { l1 with slices := Amap.ins natLt (Amap.erase l1.slices l1.seasonSlot) l1.seasonSlot (s1.rd F.LANE_SEASON_STATUS_SPARE_POS n)
                                seasonLast := l1.seasonSlot, seasonSlot := (l1.seasonSlot + 1) % s1.slots n, seasonLeft := l1.seasonLeft - 1
                                seasonTries := 0 }).Becomes t
          [(F.LANE_SEASON_STATUS_SPARE_POS, n, l1.slice l1.seasonSlot % 2 ^ F.LANE_SEASON_STATUS_SPARE_POS.w)] false) ∧
      (s1.laneLit n = true → l1.seasonGone = false → 3 ≤ l1.seasonTries → DoesThen (.seasoningStep n false trim sat) s (·.seasonStop n) fun u =>
        (s1.setLane n { l1 with seasonTries := l1.seasonTries + 1 }).Becomes u
          [(F.LANE_SEASON_STATUS_FAIL_SLICE, n, s1.rd F.LANE_SEASON_STATUS_SPARE_POS n % 2 ^ F.LANE_SEASON_STATUS_FAIL_SLICE.w),
            (F.LANE_SEASON_STATUS_NO_SPARE, n, 1), (F.LANE_RX_EVENT_SEASON_FAIL, n, 1)] true)) ∧
    (s.on F.LANE_RX_STATUS_CDR_LOCK n = true → DoesThen (.cdrLockChange n false) s (fun u => (u.convLost n).laneMoved n) fun u =>
      s.Becomes u [(F.LANE_RX_STATUS_CDR_LOCK, n, 0), (F.LANE_RX_EVENT_CDR, n, 1)] true) ∧
    (s.on F.LANE_RX_STATUS_CDR_LOCK n = false → 2 ≤ s.rd F.LANE_STATE_CUR n → s.on F.LANE_RX_STATUS_SIGNAL n = true →
      (step' ≠ 5 → DoesThen (.cdrLockChange n true) s (·.laneMoved n) fun u =>
        s.Becomes u [(F.LANE_RX_STATUS_CDR_LOCK, n, 1), (F.LANE_RX_EVENT_CDR, n, 1)] true) ∧
      (step' = 5 → l.wake ≠ .full → DoesThen (.cdrLockChange n true) s (·.laneMoved n) fun u =>
        s.Becomes u [(F.LANE_RX_STATUS_CDR_LOCK, n, 1), (F.LANE_RX_EVENT_CDR, n, 1), (F.LANE_RX_STATUS_ACQ_STEP, n, 9)] true) ∧
      (step' = 5 → l.wake = .full → DoesThen (.cdrLockChange n true) s (·.laneMoved n) fun u =>
        (s.setLane n { l with acqWindows := 0 }).Becomes u
          [(F.LANE_RX_STATUS_CDR_LOCK, n, 1), (F.LANE_RX_EVENT_CDR, n, 1), (F.LANE_RX_STATUS_ACQ_STEP, n, 6)] true)) ∧
    (s.on F.LANE_RX_STATUS_SIGNAL n = true → s.on F.LANE_RX_STATUS_CDR_LOCK n = false → 2 ≤ s.rd F.LANE_STATE_CUR n →
      let anew := s.setLane n { l with rx := { l.rx with freq := 0 } }
      (s.on F.LANE_RX_CDR_FREEZE n = true → exec (.cdrReacquire n) s = .next s) ∧
      (s.on F.LANE_RX_CDR_FREEZE n = false →
        (s.laneLit n = true → step' = 9 → Does (.cdrReacquire n) s fun t => anew.Becomes t [(F.LANE_RX_STATUS_ACQ_STEP, n, 5)] false) ∧
        (s.laneLit n = true → step' ≠ 9 → exec (.cdrReacquire n) s = .next anew) ∧
        (s.laneLit n = false → ∃ f : Int, -30000 ≤ f ∧ f ≤ 30000 ∧
          exec (.cdrReacquire n) s = .next (s.drawn.setLane n { l with rx := { l.rx with freq := f } })))) ∧
    (let k := s.rd F.LANE_RX_COEF_ADDR_INDEX n
     let next := [(F.LANE_RX_COEF_ADDR_INDEX, n.val, (k + 1) % 2 ^ F.LANE_RX_COEF_ADDR_INDEX.w)]
     (s.Accepts ag .LANE_RX_COEF_DATA n v.toNat →
       (rxCoefWidth k = 0 → Does (.laneRxCoefData ag n (some v)) s fun t => (s.answer .ok 0).Becomes t next false) ∧
       (rxCoefWidth k = 32 → Does (.laneRxCoefData ag n (some v)) s fun t =>
         (((s.rxStore n k (rxCoefValue k v.toNat)).trimNote n v.toNat false).answer .ok 0).Becomes t next false) ∧
       (rxCoefWidth k ≠ 0 → rxCoefWidth k ≠ 32 → Does (.laneRxCoefData ag n (some v)) s fun t =>
         ((s.rxStore n k (rxCoefValue k v.toNat)).answer .ok 0).Becomes t next false)) ∧
     (s.readCheck ag .LANE_RX_COEF_DATA n = none →
       (rxCoefWidth k = 0 → Does (.laneRxCoefData ag n none) s fun t => (s.answer .ok 0).Becomes t next false) ∧
       (rxCoefWidth k ≠ 0 →
         let read := s.memReadL 6 (laneWord n k) (s.rxCoef n k)
         let u := read.1
         let on' := [(F.LANE_RX_COEF_ADDR_INDEX, n.val, (u.rd F.LANE_RX_COEF_ADDR_INDEX n + 1) % 2 ^ F.LANE_RX_COEF_ADDR_INDEX.w)]
         (∀ x, read.2.1 = .good x → DoesThen (.laneRxCoefData ag n none) s (fun t => (t.errorLines read.2.2).answer .ok x) fun t => u.Becomes t on' false) ∧
         (read.2.1 = .bad → DoesThen (.laneRxCoefData ag n none) s
           (fun t => ((t.laneForce n 3).errorLines (read.2.2 ++ [(n.val / 8, n.val % 8, 3)])).answer .poisoned 0) fun t => u.Becomes t on' false))))

/-- An update of a Lit lane whose memories' words are there takes its samples through the elastic queue block by block, so that less than a block waits; the loops that run adapt every coefficient from one block of gradients, each
within its width, and the block reaches the monitor and the signal-quality window; a Warm lane uses the spare's samples; with the lanes stopped nothing happens. A snapshot
keeps the coefficients of a lane whose SNR is not low; a lane whose SNR is low for 1 ms restores it in the acquisition gear, or acquires anew. The third passing wake window in a row, or the
condition of R143 after acquisition, is convergence. An acquisition out of time starts again with the sweep, a wake falls back to full acquisition. -/
def Obligations.LaneConvergence : Prop :=
  ∀ (s : State) (n : Fin 48) (xs : List AdcIn) (ps : List (List AdcIn)),
    let l := s.lane n
    let cur := s.rd F.LANE_STATE_CUR n
    let low := s.rd F.LANE_RX_FOM_THR_LOW_SNR n
    let coded := fun x : AdcIn => ((clampInt 0 255 (128 + (x.conv.toInt * 128 + 12500) / 25000)).toNat, decide (26500 < x.cmp.toInt.natAbs))
    (s.lanesOff = true → exec (.adaptationUpdate n xs ps) s = .next s) ∧
    let spare := ps.map fun w => coded (w.getD (32 + s.eyePhase n).toNat ⟨0, 0⟩)
    let read := s.laneScan n 0 0x400
    (s.lanesOff = false → s.laneLit n = true → read.laneLit n = true →
      let fed := (read.eyeTake n spare).rxFeed n (xs.map coded)
      let run := if fed.loopsRun n then loopRange.foldl (fun t k => t.adaptOne n (fed.rxCfg n) ((fed.rxCfg n).gradBlock (fed.lane n).rx) k) fed else fed
      (l.rx.queue.length < 160 → (fed.lane n).rx.queue.length = (l.rx.queue.length + xs.length) % 160 ∧
        (fed.lane n).rx.queue.reverse = ((l.rx.queue ++ xs.map coded).reverse).take ((fed.lane n).rx.queue.length)) ∧
      exec (.adaptationUpdate n xs ps) s = .next ((run.monFeed n).sqFeed n)) ∧
    (∀ (c : RxCfg) (b : List GradSample) (k : Nat), let t := s.adaptOne n c b k
      let half : Int := 2 ^ (rxCoefWidth k - 1)
      t.rxCoef n k = s.rxCoef n k ∨ (-half ≤ sval 32 (t.rxCoef n k) ∧ sval 32 (t.rxCoef n k) < half)) ∧
    (s.lanesOff = false → s.rxOn n = false → cur = 3 → exec (.adaptationUpdate n xs ps) s = .next (s.warmFeed n spare)) ∧
    (s.laneActive n = true → low ≤ s.rd F.LANE_RX_FOM_SNR n → Does (.coefSnapshot n) s fun t =>
      (∀ k, k ∈ loopRange → t.ld .rxSnap (n.val * 0x10000 + k) = s.ld .rxCoef (n.val * 0x10000 + k) % 2 ^ Space.rxSnap.width) ∧
      (∀ sp j, sp ≠ .valid → (sp ≠ .rxSnap ∨ j / 0x10000 ≠ n.val) → t.ld sp j = s.ld sp j) ∧
      t = { s.setLane n { l with snapshot := true } with mem := t.mem }) ∧
    (s.laneActive n = true → s.rd F.LANE_RX_FOM_SNR n < low →
      (l.snapshot = false → DoesThen (.laneDiverged n) s (·.laneMoved n) fun u => (s.setLane n { l with wake := .full, acqWindows := 0 }).Becomes u
        [(F.LANE_RX_STATUS_ACQ_STEP, n, 5)] false) ∧
      (l.snapshot = true →
        let s1 := loopRange.foldl (fun t k => t.rxStore n k (t.ld .rxSnap (n.val * 0x10000 + k))) s
        DoesThen (.laneDiverged n) s (fun u => (u.convLost n).laneMoved n) fun u =>
          (s1.setLane n { s1.lane n with acqGear := true }).Becomes u [(F.LANE_RX_EVENT_DIVERGED, n, 1), (F.LANE_RX_STATUS_DIVERGED, n, 1)] true)) ∧
    (let runs := (l.wake = .fromBanked ∧ cur = 2 ∧ s.on F.LANE_STATE_CHANGING n = false) ∨
       (l.wake = .fromWarm ∧ cur = 3 ∧ s.rd F.LANE_STATE_REQ n = 2 ∧ s.on F.LANE_STATE_CHANGING n = true)
     let pass := 0 < l.rx.wake.count ∧ s.on F.LANE_RX_STATUS_CDR_LOCK n = true ∧ low ≤ l.rx.wake.snr ∧ l.rx.wake.snr ≤ l.keptSnr + 5 ∧
       l.keptSnr ≤ l.rx.wake.snr + 5
     let next := fun k : Nat => s.setLane n { l with windows := k, rx := { l.rx with wake := SnrSum.init } }
     runs → s.on F.LANE_RX_STATUS_CONVERGED n = false →
      (¬ pass → exec (.wakeWindowEnd n) s = .next (next 0)) ∧
      (pass → l.windows < 2 → exec (.wakeWindowEnd n) s = .next (next (l.windows + 1))) ∧
      (pass → 2 ≤ l.windows → exec (.wakeWindowEnd n) s = .next ((next (l.windows + 1)).convGot n))) ∧
    (s.rd F.LANE_STATE_REQ n = 2 → s.laneLit n = true → l.wake = .full ∨ l.wake = .none → s.on F.LANE_RX_STATUS_CONVERGED n = false →
      s.on F.LANE_RX_STATUS_CDR_LOCK n = true → 5 ≤ s.rd F.LANE_RX_STATUS_ACQ_STEP n →
      (∀ a rest, l.rx.snrs = a :: rest → 10 ≤ rest.length → low ≤ a → (∀ b ∈ rest.take 10, b < a + 2 ∧ a < b + 2) →
        exec (.laneConverged n) s = .next (s.convGot n))) ∧
    (let got := s.setLane n { l with wake := .none, windows := 0, acqGear := false, coefKept := true }
     let now := [(F.LANE_RX_STATUS_CONVERGED, n.val, 1), (F.LANE_RX_EVENT_CONVERGED, n.val, 1), (F.LANE_RX_STATUS_DIVERGED, n.val, 0),
       (F.LANE_RX_STATUS_ACQ_STEP, n.val, 9)]
     s.on F.LANE_RX_STATUS_CONVERGED n = false → ∃ x, s.convGot n = (x.freezeJudge n).laneMoved n ∧
       ((s.lockOf n).lock ≠ .idle → got.Becomes x now true) ∧
       ((s.lockOf n).lock = .idle → (got.setLock n { s.lockOf n with lock := .search }).Becomes x now true)) ∧
    (l.wake = .full → s.rd F.LANE_STATE_REQ n = 2 → 2 ≤ cur → s.on F.LANE_RX_STATUS_CONVERGED n = false → 3 ≤ s.rd F.LANE_RX_STATUS_ACQ_STEP n →
      DoesThen (.acqTimeout n) s (·.acqSweep n) fun u => s.Becomes u [(F.LANE_RX_EVENT_ACQ_TIMEOUT, n, 1)] true) ∧
    (l.wake = .fromBanked ∨ l.wake = .fromWarm → s.on F.LANE_RX_STATUS_CONVERGED n = false → 2 ≤ cur →
      Does (.wakeFallback n) s fun t => (s.setLane n { l with wake := .full, windows := 0, acqWindows := 0 }).Becomes t
        [(F.LANE_RX_EVENT_ACQ_TIMEOUT, n, 1), (F.LANE_RX_STATUS_ACQ_STEP, n, 5)] true)

/-! ### Lanes: the transmitter (chapter 4) -/

/-- At a block boundary the source is selected anew, SWING and RIPPLE_EN take effect, DRIVING and RIPPLE follow; a source of IDLE forgets the symbols and codes, any other shapes the symbols it supplies;
a change of source is an event; the generators of a Lit or Warm lane run on. Stated while no frame and no depth waits, of what the read of the active bank leaves. COMMIT copies every listed coefficient of the shadow bank
into the active bank and nothing else of memory, where no row of region 6 is withheld and no word of the lane's shadow bank has inverted bits; else an uncorrectable word forces the lane to Cold. Coefficients are written only in the shadow bank; unlisted indices read 0. -/
def Obligations.LaneTransmitBlocks : Prop :=
  ∀ (s : State) (ag : Agent) (n : Fin 48) (pairs : List (Fin 4)) (v : W32),
    let r := if s.txSource n = 0 then s else s.laneScan n 0x600 0x680
    let l := r.lane n
    let src := r.txSource n
    let swing := 32 + min 32 (r.rd F.LANE_TX_DRV_SWING n)
    let same := r.rd F.LANE_TX_STATUS_SOURCE n = src
    let changed := [(F.LANE_TX_STATUS_SOURCE, n.val, src), (F.LANE_TX_EVENT_SOURCE, n.val, 1)]
    let ripple := r.on F.LANE_TX_SMOKE_RIPPLE_EN n
    let gen := if 2 ≤ r.rd F.LANE_STATE_CUR n then l.gen.run 160 else l.gen
    let on := [(F.LANE_TX_STATUS_DRIVING, n.val, 1), (F.LANE_TX_STATUS_RIPPLE, n.val, if ripple then 1 else 0)]
    let off := [(F.LANE_TX_STATUS_DRIVING, n.val, 0), (F.LANE_TX_STATUS_RIPPLE, n.val, 0)]
    (l.smoke.sending = none → r.on F.LANE_TX_SMOKE_DEPTH_PENDING n = false →
      (src = 0 → Does (.txBlockBoundary n pairs) s fun t =>
        (r.setLane n { l with ripple := ripple, swing := swing, lastSyms := [], codes := [], driven := [], gen := gen }).Becomes t
          (if same then off else changed ++ off) true) ∧
      (src ≠ 0 → DoesThen (.txBlockBoundary n pairs) s (fun u => let x := u.txSymbols n src (pairs.map fun a => a.val); (x.1.txShape n x.2).genRun n) fun u =>
          (r.setLane n { l with ripple := ripple, swing := swing }).Becomes u (if same then on else changed ++ on) true)) ∧
    (s.Accepts ag .LANE_TX_COMMIT n v.toNat →
      (F.LANE_TX_COMMIT_COMMIT.of v.toNat = 0 → exec (.txCommit ag n v) s = .next (s.answer .ok 0)) ∧
      (F.LANE_TX_COMMIT_COMMIT.of v.toNat = 1 → (∀ w ∈ s.withheld, w.region ≠ 6) →
        (∀ m ∈ s.marks, m.region = 6 → m.word < n.val * 0x800 + 0x680 ∨ n.val * 0x800 + 0x700 ≤ m.word) → Does (.txCommit ag n v) s fun t =>
        (∀ k, k < 8 ∨ (0x40 ≤ k ∧ k < 0x80) → t.ld .txActive (n.val * 0x100 + k) = s.ld .txShadow (n.val * 0x100 + k) % 2 ^ Space.txActive.width) ∧
        (∀ sp j, sp ≠ .valid → sp ≠ .txActive ∨ j / 0x100 ≠ n.val → t.ld sp j = s.ld sp j) ∧ t.lastStatus = .ok ∧ t.lanes = s.lanes ∧
        ∀ g j, g.reg ∉ [.MEMP_STATUS, .MEMP_INJECT_CTL, .MEMP_RAW_LO, .MEMP_RAW_HI, .MEMP_RAW_CHECK] → t.rd g j = s.rd g j) ∧
      (F.LANE_TX_COMMIT_COMMIT.of v.toNat = 1 → s.isWithheld 6 (n.val * 0x800 + 0x680) = true →
        (∀ m ∈ s.marks, m.region = 6 → m.word < n.val * 0x800 + 0x680 ∨ n.val * 0x800 + 0x700 ≤ m.word) → s.rd F.LANE_STATE_CUR n ≠ 0 →
        DoesThen (.txCommit ag n v) s (fun u => ((u.errorLine (n.val / 8) (n.val % 8) 3).answer .ok 0).settle) fun u =>
          u.rd F.LANE_STATE_REQ n = 0 ∧ u.on F.LANE_STATE_FORCED n = true ∧ u.rd F.LANE_STATE_FORCE_CAUSE n = 3)) ∧
    (let k := s.rd F.LANE_TX_COEF_ADDR_INDEX n
     let next := [(F.LANE_TX_COEF_ADDR_INDEX, n.val, (k + 1) % 2 ^ F.LANE_TX_COEF_ADDR_INDEX.w)]
     (s.Accepts ag .LANE_TX_COEF_DATA n v.toNat →
       (s.on F.LANE_TX_COEF_ADDR_SHADOW n = false → exec (.laneTxCoefData ag n (some v)) s = .next (s.answer .refusedState 0)) ∧
       (s.on F.LANE_TX_COEF_ADDR_SHADOW n = true → txCoefWidth k = 0 → Does (.laneTxCoefData ag n (some v)) s fun t =>
         (s.answer .ok 0).Becomes t next false) ∧
       (s.on F.LANE_TX_COEF_ADDR_SHADOW n = true → txCoefWidth k ≠ 0 → Does (.laneTxCoefData ag n (some v)) s fun t =>
         ((s.memWrite 6 (laneWord n (0x680 + k)) .txShadow (n.val * 0x100 + k) (sext32 (txCoefWidth k) v.toNat)).answer .ok 0).Becomes t next false)) ∧
     (s.readCheck ag .LANE_TX_COEF_DATA n = none → txCoefWidth k = 0 →
       Does (.laneTxCoefData ag n none) s fun t => (s.answer .ok 0).Becomes t next false) ∧
     (s.readCheck ag .LANE_TX_COEF_DATA n = none → txCoefWidth k ≠ 0 →
       let read := if s.on F.LANE_TX_COEF_ADDR_SHADOW n then s.memReadL 6 (laneWord n (0x680 + k)) (s.ld .txShadow (n.val * 0x100 + k))
         else s.memReadL 6 (laneWord n (0x600 + k)) (s.ld .txActive (n.val * 0x100 + k))
       let u := read.1
       let on' := [(F.LANE_TX_COEF_ADDR_INDEX, n.val, (u.rd F.LANE_TX_COEF_ADDR_INDEX n + 1) % 2 ^ F.LANE_TX_COEF_ADDR_INDEX.w)]
       (∀ x, read.2.1 = .good x → DoesThen (.laneTxCoefData ag n none) s (fun t => (t.errorLines read.2.2).answer .ok x) fun t => u.Becomes t on' false) ∧
       (read.2.1 = .bad → DoesThen (.laneTxCoefData ag n none) s
         (fun t => ((t.laneForce n 3).errorLines (read.2.2 ++ [(n.val / 8, n.val % 8, 3)])).answer .poisoned 0) fun t => u.Becomes t on' false)))

/-- A write of LANE_TX_SMOKE takes the depth, pending until it is in force, and the enable only on a line lane at RATE 2 or 3, refused otherwise; the ripple stops at the next boundary. A window with more
than 1 in 10^6 saturated samples is an event, and the count starts again. An empty queue of a Lit or Warm lane drives code 128, held from the last code where R171 says so, and forces the lane with cause 2. A calibration ends with its failure
reported. A short is detected where the lane's state allows it, with LIMIT when the driver is at its limit, and clears. A quotient is the nearest integer, halves away from zero. With no ripple the code of an output y is the one nearest 128 + y / 16, limited to 0..255; the sample counts as
saturated exactly where a limit acted. -/
def Obligations.LaneDriver : Prop :=
  ∀ (s : State) (ag : Agent) (n : Fin 48) (v : W32) (k : Fin 3),
    let l := s.lane n
    let cur := s.rd F.LANE_STATE_CUR n
    let depth := [(F.LANE_TX_SMOKE_DEPTH, n.val, F.LANE_TX_SMOKE_DEPTH.of v.toNat), (F.LANE_TX_SMOKE_DEPTH_PENDING, n.val, 1)]
    let bit := if k.val = 0 then F.LANE_TX_STATUS_SHORT_P else if k.val = 1 then F.LANE_TX_STATUS_SHORT_N else F.LANE_TX_STATUS_SHORT_PN
    (s.Accepts ag .LANE_TX_SMOKE n v.toNat →
      (F.LANE_TX_SMOKE_RIPPLE_EN.of v.toNat = 1 → s.rippleOk n = false → exec (.laneTxSmokeWrite ag n v) s = .next (s.answer .refusedState 0)) ∧
      (F.LANE_TX_SMOKE_RIPPLE_EN.of v.toNat = 1 → s.rippleOk n = true → Does (.laneTxSmokeWrite ag n v) s fun t =>
        (s.answer .ok 0).Becomes t (depth ++ [(F.LANE_TX_SMOKE_RIPPLE_EN, n.val, 1)]) false) ∧
      (F.LANE_TX_SMOKE_RIPPLE_EN.of v.toNat = 0 → s.on F.LANE_TX_SMOKE_RIPPLE_EN n = false → Does (.laneTxSmokeWrite ag n v) s fun t =>
        (s.answer .ok 0).Becomes t depth false) ∧
      (F.LANE_TX_SMOKE_RIPPLE_EN.of v.toNat = 0 → s.on F.LANE_TX_SMOKE_RIPPLE_EN n = true →
        Does (.laneTxSmokeWrite ag n v) s fun t => (s.answer .ok 0).Becomes t (depth ++ [(F.LANE_TX_SMOKE_RIPPLE_EN, n.val, 0)]) false)) ∧
    (let limit := match s.rd F.LANE_RX_CFG_RATE n with | 0 => 5312500 | 1 => 10625000 | 2 => 21250000 | _ => 22687500
     (limit < l.satCount * 1000000 → Does (.saturationWindow n) s fun t =>
       (s.setLane n { l with satCount := 0 }).Becomes t [(F.LANE_TX_EVENT_SAT, n, 1)] true) ∧
     (l.satCount * 1000000 ≤ limit → Does (.saturationWindow n) s fun t => t = s.setLane n { l with satCount := 0 })) ∧
    (2 ≤ cur → DoesThen (.sampleQueueUnderflow n) s (fun u => (u.laneForce n 2).errorLine (n.val / 8) (n.val % 8) 2) fun u =>
      let hold := match (l.driven ++ l.codes.flatten).getLast? with
        | some c => if s.on F.LANE_TX_DAC_MTH_EN n ∧ c.1 / 64 ≠ 2 then s.rd F.LANE_TX_DAC_MTH_WIDTH n else 0
        | none => 0
      (s.setLane n { l with codes := [], driven := (128, hold) :: List.replicate 159 (128, 0) }).Becomes u [(F.LANE_TX_EVENT_UNDERFLOW, n, 1)] true) ∧
    (s.on F.LANE_TX_STATUS_DAC_CAL n = true →
      Does (.dacCalibrationEnd n false) s (fun t => s.Becomes t [(F.LANE_TX_STATUS_DAC_CAL, n, 0), (F.LANE_TX_STATUS_CAL_FAIL, n, 0)] false) ∧
      Does (.dacCalibrationEnd n true) s (fun t => s.Becomes t
        [(F.LANE_TX_STATUS_DAC_CAL, n, 0), (F.LANE_TX_STATUS_CAL_FAIL, n, 1), (F.LANE_TX_EVENT_CAL_FAIL, n, 1)] true)) ∧
    (let seen := cur ≠ 0 ∧ (k.val < 2 ∨ (2 ≤ cur ∧ s.on F.LANE_TX_STATUS_DRIVING n = true ∧
        300 * 64 ≤ (if s.on F.LANE_TX_DAC_REF_GAIN n then 1200 else 600) * l.swing))
     (¬ seen → ∀ lim, exec (.shortDetect n k lim) s = .next s) ∧
     (seen → s.on bit n = false →
       Does (.shortDetect n k false) s (fun t => (s.setLane n { l with shorts := l.shorts.erase k.val }).Becomes t
         [(F.LANE_TX_STATUS_LIMIT, n.val, if l.shorts.erase k.val = [] then 0 else 1), (bit, n.val, 1), (F.LANE_TX_EVENT_SHORT, n.val, 1)] true) ∧
       Does (.shortDetect n k true) s (fun t => (s.setLane n { l with shorts := l.shorts.erase k.val ++ [k.val] }).Becomes t
         [(F.LANE_TX_STATUS_LIMIT, n.val, 1), (bit, n.val, 1), (F.LANE_TX_EVENT_SHORT, n.val, 1)] true)) ∧
     (s.on bit n = true → Does (.shortClear n k) s fun t => (s.setLane n { l with shorts := l.shorts.erase k.val }).Becomes t
       [(F.LANE_TX_STATUS_LIMIT, n.val, if l.shorts.erase k.val = [] then 0 else 1), (bit, n.val, 0), (F.LANE_TX_EVENT_SHORT, n.val, 1)] true)) ∧
    (∀ (a : Int) (b : Nat), 0 < b → 2 * (a - roundDiv a b * b).natAbs ≤ b ∧ (2 * (a - roundDiv a b * b).natAbs = b → a.natAbs < (roundDiv a b * b).natAbs)) ∧
    (∀ (d : Nat) (r y : Int),
      let o := shapeOne false d r y
      o.1 ≤ 255 ∧ (o.2 = true ↔ y < -2047 ∨ 2040 ≤ y) ∧ (o.2 = false → 2 * (16 * ((o.1 : Int) - 128) - y).natAbs ≤ 16))

/-! ### Ports and line code (chapter 5) -/

/-- A write of BAY_CFG is refused unless every lane of the bay is Cold; it resets every port block of the bay and takes SPLIT. A write of BAY_ROLE is refused where a changed role's port has a lane that is not Cold;
entries of ports that do not exist are ignored. A write of PORT_LANE_STATE waits for a forced drop of a lane; else it requests the state of every lane of the port, and is refused as a whole where a lane refuses. A write of
PORT_CFG is refused for an undefined format, and for a change of format while a lane is awake; a change of format resets the port's FEC counters; a FORMAT 1 port starts or stops remote fault with SEND_RF; TX_EN coming on aborts a Kiln slice on the bay's port units. What follows in the units behind is done on that. -/
def Obligations.PortConfiguration : Prop :=
  ∀ (s : State) (ag : Agent) (b : Fin 6) (p : Fin 48) (v : W32),
    (s.Accepts ag .BAY_CFG b v.toNat →
      ((∃ k : Fin 8, s.laneCold (8 * b + k) = false) → exec (.bayCfgWrite ag b v) s = .next (s.answer .refusedState 0)) ∧
      ((∀ k : Fin 8, s.laneCold (8 * b + k) = true) →
        DoesThen (.bayCfgWrite ag b v) s (fun u => ((((bayLanes b).foldl (fun t n => t.rippleCheck n) u).protUpdate.mergeAll).answer .ok 0).settle) fun u =>
          u.rd F.BAY_CFG_SPLIT b = F.BAY_CFG_SPLIT.of v.toNat ∧
          (∀ g i, (g.reg.info.unit = .bay ∧ g.reg ≠ .BAY_CFG ∧ g.reg ≠ .BAY_ROLE ∧ i / g.reg.info.innerCount / 8 = b.val) → u.rd g i = g.reset i) ∧
          (∀ g i, ¬ (g.reg.info.unit = .bay ∧ g.reg ≠ .BAY_CFG ∧ g.reg ≠ .BAY_ROLE ∧ i / g.reg.info.innerCount / 8 = b.val) →
            g.key i ≠ F.BAY_CFG_SPLIT.key b → u.rd g i = s.rd g i) ∧
          (∀ q, u.port q = (if q / 8 = b.val then PortS.init else s.port q) ∧ u.lockOf q = if q / 8 = b.val then LockS.init else s.lockOf q) ∧
          u = { s with regs := u.regs, ports := u.ports, locks := u.locks })) ∧
    (s.Accepts ag .BAY_ROLE b v.toNat →
      let bad := ∃ i : Fin 8, s.portExists (8 * b + i) = true ∧ (roleFld i).of v.toNat ≠ s.role (8 * b + i) ∧ ∃ n ∈ s.portLanes (8 * b + i), s.laneCold n = false
      (bad → exec (.bayRoleWrite ag b v) s = .next (s.answer .refusedState 0)) ∧
      (¬ bad → DoesThen (.bayRoleWrite ag b v) s (fun u => ((((List.range 8).filter fun i => s.portExists (8 * b + i)).foldl (fun t i => t.portMoved (8 * b + i))
          ((bayLanes b).foldl (fun t n => t.rippleCheck n) (u.tvWrite (tvRole b)))).answer .ok 0).settle) fun u =>
        s.Becomes u (((List.range 8).filter fun i => s.portExists (8 * b + i)).map fun i => (roleFld i, b.val, (roleFld i).of v.toNat)) false)) ∧
    (s.Accepts ag .PORT_LANE_STATE p v.toNat →
      let req := F.PORT_LANE_STATE_REQ.of v.toNat
      let all := fun u : State => (s.portLanes p).foldl (fun t n => (t.laneRequest n req).1) u
      let bad := ∃ n ∈ s.portLanes p, s.laneRefuses n req = true
      let set := (F.PORT_LANE_STATE_REQ, p.val, req) :: if F.PORT_LANE_STATE_REFUSED.of v.toNat = 1 then [(F.PORT_LANE_STATE_REFUSED, p.val, 0)] else []
      ((∃ n ∈ s.portLanes p, (s.lane n).forcedDrop = true) → exec (.portLaneState ag p v) s = .next (s.answer .waiting 0)) ∧
      ((∀ n ∈ s.portLanes p, (s.lane n).forcedDrop = false) →
        (bad → DoesThen (.portLaneState ag p v) s (fun u => (((all u).put F.PORT_LANE_STATE_REFUSED p true).answer .refusedState 0).settle) fun u => s.Becomes u set false) ∧
        (¬ bad → DoesThen (.portLaneState ag p v) s (fun u => ((all u).answer .ok 0).settle) fun u => s.Becomes u set false))) ∧
    (s.Accepts ag .PORT_CFG p v.toNat →
      let f := F.PORT_CFG_FORMAT.of v.toNat
      let awake := ∃ n ∈ s.portLanes p, 1 < s.rd F.LANE_STATE_CUR n ∨ s.on F.LANE_STATE_CHANGING n = true
      let set := (Reg.fields .PORT_CFG).map fun g => (g, p.val, g.of v.toNat)
      let begins := s.on F.PORT_CFG_TX_EN p = false ∧ F.PORT_CFG_TX_EN.of v.toNat = 1
      let moved := fun u : State => (((if begins then u.dataPath (48 + p / 8) else u).portMoved p).answer .ok 0).settle
      let rf := decide (f = 1) && decide (F.PORT_CFG_SEND_RF.of v.toNat = 1)
      let s0 := if rf = (decide (s.rd F.PORT_CFG_FORMAT p = 1) && s.on F.PORT_CFG_SEND_RF p) then s else s.emit (.remoteFault p rf)
      (4 ≤ f ∨ (f ≠ s.rd F.PORT_CFG_FORMAT p ∧ awake) → exec (.portCfgWrite ag p v) s = .next (s.answer .refusedState 0)) ∧
      (f < 4 → f = s.rd F.PORT_CFG_FORMAT p → DoesThen (.portCfgWrite ag p v) s moved fun u => s0.Becomes u set false) ∧
      (f < 4 → f ≠ s.rd F.PORT_CFG_FORMAT p → ¬ awake → DoesThen (.portCfgWrite ag p v) s moved fun u =>
        (∀ g ∈ Reg.fields .PORT_CFG, u.rd g p = g.of v.toNat) ∧
        (∀ g i, g.reg.info.unit = .bay → g.reg.info.innerCount = 8 → i / 8 = p.val → u.rd g i = g.reset i) ∧
        (∀ g i, ¬ (g.reg.info.unit = .bay ∧ g.reg.info.innerCount = 8 ∧ i / 8 = p.val) → g.reg ≠ .PORT_CFG ∨ i ≠ p.val → u.rd g i = s.rd g i) ∧
        u = { s0.setPort p { s.port p with rx := none } with regs := u.regs }))

/-- A valid marker locks a lane in SEARCH, with its logical number, its count and the polarity of the reading it was found in; a line lane searches its own bits. Of a LOCKED lane a marker missed (its block errored or not valid) is counted and
the third in a row, or a marker of another lane, ends the lock; a valid one out of place is only counted; a break in the count undoes the deskew. Lanes that are IDLE, ports with FORMAT 0 and stopped lanes take none. A foreign format found while a ready-to-use port searches is a
mismatch of cause 5. A codeword of a LOCKED lane (of a line lane: its own next bits, decoded, its 20 blocks descrambled, marked errored where it is uncorrectable, and valid markers out of their place counted) is counted, and FEC_FAIL follows the last 64
codewords and 1,024 good ones. A 100 µs window ends with DEGRADED judged and its count restarted. -/
def Obligations.MarkersAndFec : Prop :=
  ∀ (s : State) (n : Fin 48) (p : Fin 48) (body : List Byte) (inv expected errored found bad : Bool) (ns : W32) (corrected : Fin 16), s.Canonical →
    let q := s.portOfLane n
    let l := s.laneIndex n
    let x := s.lockOf n
    let fmt := s.rd F.PORT_CFG_FORMAT q
    let bit := fun (a k : Nat) (b : Bool) => if a.testBit k = b then a else Nat.xor a (2 ^ k)
    let pol := s.rd F.PORT_POL_INV q
    let misses := (F.PORT_STATUS_AM_MISS, q, min (s.rd F.PORT_STATUS_AM_MISS q + 1) 255)
    let lockIs := fun b => (F.PORT_STATUS_LOCKED, q, bit (s.rd F.PORT_STATUS_LOCKED q) l b)
    let polIs := fun b => [(F.PORT_POL_INV, q, bit pol l b)] ++ if pol.testBit l = b then [] else [(F.PORT_EVENT_POL, q, 1)]
    let leave := fun t : State => ((t.setLock n { t.lockOf n with lock := .search, misses := 0, logical := 0, count := none
                                                                  pcs := { (t.lockOf n).pcs with bits := [], swapped := false, next := 0, base := 0, blocks := [] } }).setPort q
      { t.port q with deskewed := false, turn := none }).setLane n { t.lane n with polWanted := false }
    let leaveThen := fun u : State => (u.mapJudge q).portMoved q
    let c := Instr.alignmentMarker n body inv expected errored ns
    let foundIt := fun (m : List Nat) (sw : Bool) (pcs : PcsS) =>
      DoesThen (.alignmentMarker n body inv expected errored ns) s (fun u => ((u.mapJudge q).markerTake n q m).portMoved q) fun u =>
        ((s.setLock n { x with lock := .locked, misses := 0, logical := markerLogical fmt m, count := some (markerCount fmt m), arrival := ns.toNat
                               pcs := pcs.rebase (markerCount fmt m) 0 }).setLane n { s.lane n with polWanted := sw }).Becomes u (lockIs true :: polIs sw) true
    let missed := fun t : State =>
      (x.misses < 2 → DoesThen c s (fun u => u.portMoved q) fun u => (t.setLock n { t.lockOf n with misses := x.misses + 1 }).Becomes u [misses] false) ∧
      (2 ≤ x.misses → DoesThen c s leaveThen fun u => (leave t).Becomes u (misses :: lockIs false :: polIs false) true)
    let took := fun (t : State) (m : List Nat) (nr : Nat) =>
      (markerLogical fmt m ≠ x.logical → DoesThen c s leaveThen fun u => (leave (t.markerShows n q m)).Becomes u (lockIs false :: polIs false) true) ∧
      (markerLogical fmt m = x.logical →
        let want := match x.count with | some k => (k + 1 + x.misses) % (if fmt = 1 then 256 else 2 ^ 32) | none => 0
        let u := t.setLock n { t.lockOf n with misses := 0, count := some (markerCount fmt m), arrival := ns.toNat
                                               pcs := (t.lockOf n).pcs.rebase (markerCount fmt m) nr }
        exec (.alignmentMarker n body inv expected errored ns) s =
          .next (((if markerCount fmt m = want then u else u.setPort q { t.port q with deskewed := false, turn := none }).markerTake n q m).portMoved q))
    (s.lanesOff = true ∨ fmt = 0 ∨ (1 < fmt ∧ x.lock = .idle) → exec (.alignmentMarker n body inv expected errored ns) s = .next s) ∧
    (s.lanesOff = false → fmt = 1 →
      let m := body.map fun a => a.toNat
      let good := errored = false ∧ m.length = 2
      (x.lock = .idle ∨ (x.lock = .search ∧ ¬ good) ∨ (x.lock = .locked ∧ expected = false ∧ ¬ good) →
        exec (.alignmentMarker n body inv expected errored ns) s = .next (s.portMoved q)) ∧
      (x.lock = .search → good → foundIt m inv x.pcs) ∧
      (x.lock = .locked → expected = false → good → DoesThen c s (fun u => u.portMoved q) fun u => s.Becomes u [misses] false) ∧
      (x.lock = .locked → expected = true → ¬ good → missed s) ∧
      (x.lock = .locked → expected = true → good → took s m 0)) ∧
    (s.lanesOff = false → 1 < fmt →
      (x.lock = .search → searchMarker true x.pcs.bits = none → exec (.alignmentMarker n body inv expected errored ns) s =
        .next ((s.setLock n { x with pcs := { x.pcs with bits := x.pcs.bits.drop ((x.pcs.bits.length - 256) / 2 * 2) } }).portMoved q)) ∧
      (∀ m sw rest, x.lock = .search → searchMarker true x.pcs.bits = some (m, sw, rest) →
        let swapped := sw != s.on F.LANE_RX_STATUS_POL_INV n
        foundIt m swapped { x.pcs with bits := rest, swapped := swapped, next := 0, blocks := [], dscr := 0 }) ∧
      (x.lock = .locked → x.pcs.blocks.find? (fun b => b.nr % 5120 = 0) = none → exec (.alignmentMarker n body inv expected errored ns) s = .next (s.portMoved q)) ∧
      (∀ b, x.lock = .locked → x.pcs.blocks.find? (fun b => b.nr % 5120 = 0) = some b →
        let sb := s.setLock n { x with pcs := { x.pcs with blocks := x.pcs.blocks.erase b } }
        let valid := b.flag = true ∧ b.bad = false ∧ markerValid b.body = true
        (¬ valid → missed sb) ∧ (valid → took sb b.body b.nr))) ∧
    (let searching := found = true ∧ 1 ≤ s.role p ∧ ∃ k ∈ s.portLanes p, (s.lockOf k).lock = .search
     (¬ searching → exec (.foreignFormatSearch p found) s = .next s) ∧
     (searching → DoesThen (.foreignFormatSearch p found) s (fun u => u.portMoved p) fun u =>
       s.Becomes u ((F.PORT_STATUS_MISMATCH_CAUSE, p.val, 5) :: (F.PORT_STATUS_MISMATCH, p.val, 1) ::
         if s.on F.PORT_STATUS_MISMATCH p then [] else [(F.PORT_EVENT_MISMATCH, p.val, 1)]) true)) ∧
    (let need := if fmt = 3 then 5808 else 5440
     let counted := fun (t : State) (am : List (Fld × Nat × Nat)) (fixed : Nat) (lost : Bool) (c1 c2 due : Nat) =>
      let y := t.lockOf n
      let i := 8 * q + l
      let cw := s.rd F.PORT_FEC_CW_HI_V i * 2 ^ 32 + s.rd F.PORT_FEC_CW_LO_V i + 1
      let up := fun (f : Fld) (k : Nat) => (f, i, min (s.rd f i + k) (2 ^ 32 - 1))
      let base := (t.dataPath (48 + n.val / 8)).setLock n { y with
                                       recent := (lost :: y.recent).take 64, clean := if lost then 0 else min 1024 (y.clean + 1), bad := lost
                                       badSince := y.badSince || lost
                                       symbols := y.symbols + (if lost then 0 else fixed) }
      let set := ∃ k ∈ s.portLanes q, clampNat 1 64 (s.rd F.PORT_FEC_THR_UNCOR_THR q) ≤ ((base.lockOf k).recent.filter fun b => b).length
      let clear := ∀ k ∈ s.portLanes q, 1024 ≤ (base.lockOf k).clean
      let fail := fun b : Bool => if s.on F.PORT_STATUS_FEC_FAIL q = b then [] else [(F.PORT_STATUS_FEC_FAIL, q, if b then 1 else 0), (F.PORT_EVENT_FEC_FAIL, q, 1)]
      let counts := [(F.PORT_FEC_CW_LO_V, i, cw % 2 ^ 32), (F.PORT_FEC_CW_HI_V, i, cw / 2 ^ 32 % 2 ^ 32)] ++
        (if lost then [up F.PORT_FEC_UNCOR_V 1] else if 0 < fixed then [up F.PORT_FEC_CORR_V 1, up F.PORT_FEC_SYM_V fixed] else []) ++
        (if fmt = 3 then [up F.PORT_FEC_INNER_C1_V c1, up F.PORT_FEC_INNER_C2_V c2, up F.PORT_FEC_INNER_DUE_V due] else [])
      let ends := fun fec => DoesThen (.codewordDecode n corrected bad) s (fun u => u.portMoved q) fun u => base.Becomes u (am ++ counts ++ fec) true
      (set → ends (fail true)) ∧ (¬ set → clear → ends (fail false)) ∧ (¬ set → ¬ clear → ends [])
     (x.lock ≠ .locked ∨ s.lanesOff = true ∨ (fmt ≠ 1 ∧ x.pcs.bits.length < need) → exec (.codewordDecode n corrected bad) s = .next s) ∧
     (x.lock = .locked → s.lanesOff = false → fmt = 1 → counted s [] corrected bad 0 0 0) ∧
     (x.lock = .locked → s.lanesOff = false → fmt ≠ 1 → need ≤ x.pcs.bits.length →
       let inner := if fmt = 3 then groupDecode (x.pcs.bits.take need) else (x.pcs.bits.take need, [])
       let d := rsDecodeBits inner.1
       let t := takeBlocks d.2.isNone 20 x.pcs.next x.pcs.dscr d.1
       let blocks := x.pcs.blocks ++ t.2.filter fun b => b.nr ≠ 0
       let of := fun o : Option Nat => (inner.2.filter fun a => a = o).length
       let strays := (t.2.filter fun b => b.stray).length
       (∀ b ∈ t.2, b.stray = true → b.nr % 5120 ≠ 0 ∧ b.flag = true ∧ b.bad = false ∧ markerValid b.body = true) ∧
       counted (s.setLock n { x with pcs := { x.pcs with bits := x.pcs.bits.drop need, next := x.pcs.next + 20, dscr := t.1, blocks := blocks.drop (blocks.length - 5120) } })
         [(F.PORT_STATUS_AM_MISS, q, min (s.rd F.PORT_STATUS_AM_MISS q + strays) 255)] (d.2.getD 0) d.2.isNone (of (some 1)) (of (some 2)) (of none))) ∧
    (s.portExists p = false ∨ s.rd F.PORT_CFG_FORMAT p = 0 → exec (.degradedWindow p) s = .next s) ∧
    (s.portExists p = true → s.rd F.PORT_CFG_FORMAT p ≠ 0 → Does (.degradedWindow p) s fun t =>
      let worse := ∃ k ∈ s.portLanes p, max 1 (s.rd F.PORT_FEC_THR_DEG_THR p) * 16 < (s.lockOf k).symbols
      (worse → t.rd F.PORT_STATUS_DEGRADED p ≠ 0) ∧ (¬ worse → t.rd F.PORT_STATUS_DEGRADED p = 0) ∧
      (∀ k, t.lockOf k = if k ∈ s.portLanes p then { s.lockOf k with symbols := 0 } else s.lockOf k) ∧
      (∀ g j, g.reg ≠ .PORT_EVENT → eventRegs g.reg = false → g.key j ≠ F.PORT_STATUS_DEGRADED.key p → t.rd g j = s.rd g j) ∧
      t = { s with regs := t.regs, locks := t.locks, perfPipe := t.perfPipe } ∧ s.perfPipe <+: t.perfPipe)

/-- A block of a port that is not ready is nothing. On an Ethernet port a block tells of link faults or of none. A line port takes the block of the lane whose turn it is in the deskewed stream; a valid marker out of its place is ignored. A Kiln slice on the bay's port units is aborted. A control block ends the copy in
reception and is the header of the next or a notice, an idle block is discarded; a data block is added to the copy in reception, errored if either was, and one outside any is counted. A copy is delivered once complete. A notice is sent on
a ready line port. Of the notices received intact, two in a row with the same epoch are acted on; any other body breaks the pair. -/
def Obligations.BlocksAndNotices : Prop :=
  ∀ (s : State) (p : Fin 48) (flag : Bool) (body : List Byte) (err : Bool),
    let q : Nat := p
    let m := body.map fun a => a.toNat
    let ready := s.portExists p = true ∧ s.on F.PORT_STATUS_RX_READY p = true
    let kind := m.getD 0 0
    let d := s.dataPath (48 + q / 8)
    let ended := match (d.port p).rx with
      | none => d
      | some (h, e) => (d.setPort p { d.port p with rx := none }).portCopy p h e
    let keep := fun (u : State) (h : List Nat) (e : Bool) => u.setPort q { u.port q with rx := some (h, e) }
    let gathers := fun (t : State) (h : List Nat) (u : State) => t = if copyComplete h then u.copyEnd q else u
    (¬ ready → exec (.blockRx p flag body err) s = .next s) ∧
    (ready → s.rd F.PORT_CFG_FORMAT p = 1 → Does (.blockRx p flag body err) s fun t =>
      let code := if flag = true ∧ m.take 2 = [0, 0] then m.getD 2 0 else 0
      (t.on F.PORT_STATUS_LOCAL_FAULT p = true ↔ code = 1) ∧ (t.on F.PORT_STATUS_REMOTE_FAULT p = true ↔ code = 2) ∧
      (t.rd F.PORT_STATUS_LOCAL_FAULT p ≠ s.rd F.PORT_STATUS_LOCAL_FAULT p → t.rd F.PORT_EVENT_FAULT p = 1) ∧
      (∀ g j, g.reg ≠ .PORT_EVENT → eventRegs g.reg = false → g.key j ≠ F.PORT_STATUS_LOCAL_FAULT.key p → g.key j ≠ F.PORT_STATUS_REMOTE_FAULT.key p →
        t.rd g j = d.rd g j) ∧
      (∀ k, t.lockOf k = if flag = true ∧ err = false ∧ k ∈ s.portLanes p then { s.lockOf k with badSince := (s.lockOf k).bad } else s.lockOf k) ∧
      t = { d with regs := t.regs, locks := t.locks, perfPipe := t.perfPipe } ∧ d.perfPipe <+: t.perfPipe) ∧
    (ready → s.rd F.PORT_CFG_FORMAT p ≠ 1 → ∀ k l n b rest, (s.port p).turn = some (k, l) →
      (s.portLanes p).find? (fun n => (s.lockOf n).logical = l) = some n → (s.lockOf n).pcs.blocks = b :: rest → (s.lockOf n).pcs.place b = k → b.nr % 5120 ≠ 0 →
      let taken := fun u : State => u.lockOf n = { s.lockOf n with pcs := { (s.lockOf n).pcs with blocks := rest } } ∧ (∀ j, j ≠ n → u.lockOf j = s.lockOf j) ∧
        u.port p = { s.port p with turn := some (turnNext (s.portLanes p).length (k, l)) } ∧ (∀ j, j ≠ q → u.port j = s.port j)
      (b.stray = true → Does (.blockRx p flag body err) s fun t => taken t ∧ t = { s with locks := t.locks, ports := t.ports }) ∧
      (b.stray = false → DoesThen (.blockRx p flag body err) s (fun u => u.blockRx p b.flag b.body b.bad) fun u =>
        taken u ∧ u = { s with locks := u.locks, ports := u.ports })) ∧
    (s.rd F.PORT_CFG_FORMAT p ≠ 1 →
      (kind = 0xB1 ∨ kind = 0xB2 → gathers (s.blockRx p true m err) m (keep ended m err)) ∧
      (kind = 0xB3 → err = false → s.blockRx p true m err = ended.noticeTake p m) ∧
      (kind = 0xB3 → err = true → s.blockRx p true m err = ended) ∧
      (kind = 0 → s.blockRx p true m err = d) ∧
      (kind ≠ 0 → kind ≠ 0xB1 → kind ≠ 0xB2 → kind ≠ 0xB3 → s.blockRx p true m err = ended) ∧
      ((s.port p).rx = none → d.Becomes (s.blockRx p false m err) [(F.CRY_STRAY_COUNT, 0, min (s.rd F.CRY_STRAY_COUNT 0 + 1) (2 ^ F.CRY_STRAY_COUNT.w - 1))] false) ∧
      (∀ h e, (s.port p).rx = some (h, e) → gathers (s.blockRx p false m err) (h ++ m) (keep d (h ++ m) (e || err)))) ∧
    (let sends := s.isLine p = true ∧ s.on F.PORT_STATUS_TX_READY p = true
     let eth := s.portBytes p (s.noticeBody ++ List.replicate 14 0)
     (¬ sends → exec (.epochNoticeSend p) s = .next s) ∧
     (sends → s.rd F.PORT_CFG_FORMAT p ≠ 1 → Does (.epochNoticeSend p) s fun t =>
       t = (s.setPort p { s.port p with txBlocks := (s.port p).txBlocks ++ [(true, s.noticeBody)] }).emit (.notice p s.noticeBody)) ∧
     (sends → s.rd F.PORT_CFG_FORMAT p = 1 → Does (.epochNoticeSend p) s fun t => t = (s.queueOn p eth).emit (.notice p eth)) ∧
     s.noticeBody.length = 32 ∧ s.noticeBody.take 5 = 0xB3 :: bytesBe 4 (s.rd F.SYS_EPOCH_VALUE 0)) ∧
    (let takes := s.isLine p = true ∧ s.on F.PORT_STATUS_RX_READY p = true
     let epoch := numBe ((m.drop 1).take 4)
     let intact := 32 ≤ m.length ∧ kind = 0xB3 ∧ numBe ((m.drop 30).take 2) = crc16 (m.take 30)
     let noted := s.setPort p { s.port p with notice := some epoch }
     (¬ takes → exec (.epochNoticeRx p body) s = .next s) ∧
     (takes → ¬ intact → exec (.epochNoticeRx p body) s = .next (s.setPort p { s.port p with notice := none })) ∧
     (takes → intact → (s.port p).notice ≠ some epoch → exec (.epochNoticeRx p body) s = .next noted) ∧
     (takes → intact → (s.port p).notice = some epoch →
       (s.on F.CRY_PEER_STATUS_VALID 0 = false → Does (.epochNoticeRx p body) s fun t =>
         noted.Becomes t [(F.CRY_PEER_STATUS_VALID, 0, 1), (F.CRY_PEER_EPOCH_EPOCH, 0, epoch % 2 ^ 32)] false) ∧
       (s.on F.CRY_PEER_STATUS_VALID 0 = true → s.rd F.CRY_PEER_EPOCH_EPOCH 0 = epoch → exec (.epochNoticeRx p body) s = .next noted) ∧
       (s.on F.CRY_PEER_STATUS_VALID 0 = true → s.rd F.CRY_PEER_EPOCH_EPOCH 0 ≠ epoch → DoesThen (.epochNoticeRx p body) s State.epochAct fun u =>
         noted.Becomes u [(F.CRY_PEER_EPOCH_EPOCH, 0, epoch % 2 ^ 32)] false)))

/-! ### Tunnels, keys and bundles (chapter 6) -/

/-- A frame is counted as blocked unless its tunnel runs in service, as oversize outside 64 bytes to MAX_FRAME, as bad where its check sequence fails or a codeword spoilt it and BAD_FCS is clear. Behind waiting bundles it waits in the ingress queue, 256 KiB
at most, its words written to the queue's memory, with PAUSE past 192 KiB; else it enters the stream behind its 2-byte header: the bundles cut from the stream hold 9,184 bytes each, and with what stays open they are the old stream and the entry, in order. An open bundle closes once FLUSH is over.
While the client port sends, the oldest frame of the egress queue is read, and sent and counted, or lost with a word of it. Traffic above RATE by 1 % in the last 1 ms is an event. -/
def Obligations.ClientFrames : Prop :=
  ∀ (s : State) (p : Fin 48) (t : Fin 24) (frame : List Byte) (upset : Bool),
    let f := frame.map fun b => b.toNat
    let x := s.ttx t
    let y := s.trx t
    let d := (s.frameOver p).dataPath (48 + p / 8)
    let up := fun g : Fld => (g, t.val, min (s.rd g t + 1) (2 ^ g.w - 1))
    let ends := fun l ev => Does (.clientFrameRx p frame upset) s fun u => d.Becomes u l ev
    let put := d.queuePut 0 t (x.taken + x.ingress.length) f.length
    let blocked := s.txStateNow t ≠ 2 ∨ s.service = false ∨ s.stopping = true ∨ s.storeBlocked t = true
    let size := f.length < 64 ∨ s.maxFrame t < f.length
    let isBad := (upset || s.spoilt p) || !fcsOk f
    let entry := bytesBe 2 ((if isBad then 2 ^ 15 else 0) + f.length) ++ f
    let queued := { x with ingress := x.ingress ++ [(f, isBad)] }
    let pauses := x.paused = false ∧ 196608 < queueBytes queued.ingress ∧ (s.on F.TUN_CFG_PAUSE_EN t = true ∨ s.enforcing = true)
    let pfc := s.enforcing && s.on F.THERM_DAMPER_PFC 0
    let say := fun (pri on : Bool) => if pri then Out.pfc (s.rd F.TUN_CFG_PORT t) on else Out.pause (s.rd F.TUN_CFG_PORT t) on
    let resumes := x.paused = true ∧ queueBytes queued.ingress < 131072
    (s.tunnelOfPort p = none → exec (.clientFrameRx p frame upset) s = .next (s.frameOver p)) ∧
    (s.tunnelOfPort p = some t.val →
      (blocked → ends [up F.TUN_CNT_DROP_BLOCKED_V] true) ∧
      (¬ blocked → size → ends [up F.TUN_CNT_DROP_OVERSIZE_V] false) ∧
      (¬ blocked → ¬ size → isBad = true → s.on F.TUN_CFG_BAD_FCS t = false → ends [up F.TUN_CNT_BAD_FCS_V] false) ∧
      (¬ blocked → ¬ size → isBad = false ∨ s.on F.TUN_CFG_BAD_FCS t = true →
        (x.closed ≠ [] ∨ x.ingress ≠ [] →
          (262144 < queueBytes x.ingress + f.length → ends [up F.TUN_CNT_DROP_BLOCKED_V] true) ∧
          (queueBytes x.ingress + f.length ≤ 262144 →
            (pauses → Does (.clientFrameRx p frame upset) s fun u =>
              u = ((put.setTtx t queued).setTtx t { queued with paused := true, pfc := pfc }).emit (say pfc true)) ∧
            (resumes → Does (.clientFrameRx p frame upset) s fun u =>
              u = ((put.setTtx t queued).setTtx t { queued with paused := false, pfc := false }).emit (say x.pfc false)) ∧
            (¬ pauses → ¬ resumes → exec (.clientFrameRx p frame upset) s = .next (put.setTtx t queued)))) ∧
        (x.closed = [] → x.ingress = [] → x.plain.length < 9184 → ∃ x' : TunTx,
          (Does (.clientFrameRx p frame upset) s fun u => (d.setTtx t x').Becomes u [up F.TUN_CNT_FRAMES_IN_V] true) ∧
          (x'.closed.flatMap fun c => c.plain) ++ x'.plain = x.plain ++ entry ∧ (∀ c ∈ x'.closed, c.plain.length = 9184) ∧ x'.plain.length < 9184 ∧
          (∀ c ∈ x'.closed.head?, c.first = x.first.getD x.plain.length) ∧ (x'.closed = [] → x'.first = some (x.first.getD x.plain.length)) ∧
          (∀ c ∈ x'.closed.tail, c.first = 0xFFFF) ∧ x'.frames = x.ends + 1 ∧ x'.packed = (x.packed + f.length) % 64 ∧
          x' = { x with plain := x'.plain, first := x'.first, openedAt := x'.openedAt, ends := x'.ends, closed := x'.closed, packed := x'.packed }))) ∧
    (let due := x.openedAt + max 1 (s.rd F.TUN_CFG_FLUSH t) * 250 ≤ s.time
     (¬ due → exec (.bundleFlush t) s = .next s) ∧
     (due → exec (.bundleFlush t) s = .next (s.setTtx t
       (if x.plain = [] then x else { x with closed := x.closed ++ [⟨x.first.getD 0xFFFF, x.plain, x.ends⟩], plain := [], first := none, ends := 0 })))) ∧
    (y.egress = [] ∨ s.egressOpen t = false → ∀ b, exec (.frameToClient t b) s = .next s) ∧
    (s.egressOpen t = true → ∀ g bad rest b, y.egress = (g, bad) :: rest →
      let w := (queueSpan 1 t y.taken g.length).1
      let r := ((if b then s.setMark 3 w 0 3 0 else s).setTrx t { y with egress := rest, taken := y.taken + 1 }).queueTake 1 t y.taken g.length
      (b = false → (∀ m ∈ s.marks, m.region ≠ 3) → (∀ a ∈ s.withheld, a.region ≠ 3) → r.2 = false) ∧
      (b = true → s.invalidWord 3 w = false → r.2 = true) ∧
      (r.1.resets ≠ s.resets → exec (.frameToClient t b) s = .next r.1) ∧
      (r.1.resets = s.resets → r.2 = true → Does (.frameToClient t b) s fun u => r.1.Becomes u [up F.TUN_CNT_LOST_FRAMES_V] false) ∧
      (r.1.resets = s.resets → r.2 = false → Does (.frameToClient t b) s fun u =>
        (r.1.emit (.frame (s.rd F.TUN_CFG_PORT t) (wireFrame g bad) (if queueBytes y.egress < 65536 then 12 else 8))).Becomes u
          (up F.TUN_CNT_FRAMES_OUT_V :: if bad then [up F.TUN_CNT_BAD_FCS_V] else []) true)) ∧
    (let last := y.recent.filter fun e => s.time < e.1 + 2500000
     Does (.rateWindow t) s fun u => (s.setTrx t { y with recent := last }).Becomes u
       (if s.tunRate t * 10 ^ 6 * 101 < (last.map Prod.snd).sum * 8 * 100 then [(F.TUN_EVENT_RATE_EXCEEDED, t.val, 1)] else []) true)

/-- After the votes of the words it reads, a tunnel's oldest closed bundle takes its tokens, its SEQ and the lowest free pipeline, when it may be released and has tokens and a key. A finished pipeline's bundle is sealed under the slot of its KEY_PHASE, counted
and handed on; without a slot, or with a lost word of it, it is dropped and the frames that end in it are counted. A failed pipeline leaves the active set for good and the lowest spare joins, a Kiln slice on it aborted; the journal records it where no spare is left or another condition of R32 fails. A key load is refused for mode 3, an occupied slot, a plain KEK in Service mode, or a KEK slot that holds none; a wrapped key that does not unwrap ends
UNIT_ERROR; in every case KEY_STAGE is cleared and LAST holds the completion. Zeroising overwrites the slots and empties their descriptors; a tamper input zeroises everything. -/
def Obligations.EncryptionAndKeys : Prop :=
  ∀ (s : State) (ag : Agent) (t : Fin 24) (q : Fin 32) (tx upset : Bool) (mode : BitVec 2) (kek slot : BitVec 7) (lows : BitVec 4),
    let u := (s.voteTx t).voteSlots t 0
    let x := u.ttx t
    let k := slot.toNat
    (∀ c rest p' k', x.closed = c :: rest → u.freePipe = some p' → u.txSlotFor t (u.txSeq t) = some k' →
      let cost := (c.plain.length + 32) * 20
      let goes := u.canRelease t = true ∧ cost ≤ u.tokensNow t
      let b : Bundle := { ctrl := false, tunnel := t, phase := u.rd F.KEY_DESC_PHASE k', seq := u.txSeq t, first := c.first, body := c.plain, resent := false }
      (¬ goes → exec (.bundleRelease t) s = .next u) ∧
      (goes → DoesThen (.bundleRelease t) s (fun w =>
          let w := (w.drainIngress t x.ingress.length).pauseCheck t
          if w.rd F.TUN_STATUS_ROLL_TX t = 2 ∧ (w.ttx t).rollC = some (w.txSeq t) then w.rollAbort t 1 2 else w) fun w =>
        w = ((u.setTtx t { x with closed := rest, tokens := u.tokensNow t - cost, tokAt := u.time, crypto := x.crypto ++ [(b, p', c.ends)] }).dataPath (54 + p')).setTxSeq t (u.txSeq t + 1))) ∧
    (x.closed = [] ∨ u.freePipe = none ∨ u.txSlotFor t (u.txSeq t) = none → exec (.bundleRelease t) s = .next u) ∧
    (∀ (w : State) (v : Nat), v < 2 ^ 64 → (w.setTxSeq t v).txSeq t = v ∧ ∀ t' ≠ t.val, (w.setTxSeq t v).txSeq t' = w.txSeq t') ∧
    (s.inPipeline q = none → exec (.encryptDone q upset) s = .next s) ∧
    (∀ b, s.inPipeline q = some (t.val, b) →
      let w := u.setTtx t { x with crypto := x.crypto.filter fun e => e.1.seq ≠ b.seq }
      let frames := ((x.crypto.filter fun e => e.1.seq = b.seq).map fun e => e.2.2).sum
      let drops := fun v : State => if frames = 0 then exec (.encryptDone q upset) s = .next v else
        Does (.encryptDone q upset) s fun r => v.Becomes r [(F.TUN_CNT_DROP_BLOCKED_V, t.val, min (v.rd F.TUN_CNT_DROP_BLOCKED_V t + frames) (2 ^ F.TUN_CNT_DROP_BLOCKED_V.w - 1))] true
      (w.slotPhase t 0 b.phase = none → drops w) ∧
      (∀ k', w.slotPhase t 0 b.phase = some k' →
        let y := (if upset then w.setMark 8 (8 * k') 0 3 0 else w).slotTake k'
        (upset = true → y.2 = false) ∧
        (upset = false → (∀ m ∈ s.marks, m.region ≠ 8) → (∀ a ∈ s.withheld, a.region ≠ 8) → y.2 = true) ∧
        (y.1.resets ≠ u.resets → exec (.encryptDone q upset) s = .next y.1) ∧
        (y.1.resets = u.resets → y.2 = false → drops y.1) ∧
        (y.1.resets = u.resets → y.2 = true → DoesThen (.encryptDone q upset) s (fun v => (v.releaseDone t (x.done.length + 1)).keyUse t k') fun v =>
          (y.1.setTtx t { y.1.ttx t with done := x.done ++ [y.1.seal k' b] }).Becomes v
            [(F.TUN_CNT_BUNDLES_TX_V, t.val, min (y.1.rd F.TUN_CNT_BUNDLES_TX_V t + 1) (2 ^ F.TUN_CNT_BUNDLES_TX_V.w - 1))] true))) ∧
    (let act := s.rd (pipeMap tx) 0
     let out := (pipeFailMap tx, 0, Nat.lor (s.rd (pipeFailMap tx) 0) (2 ^ q.val) % 2 ^ 32)
     (s.inPipe (pipeMap tx) q = false → exec (.pipelineParityFail tx q) s = .next s) ∧
     (s.inPipe (pipeMap tx) q = true → DoesThen (.pipelineParityFail tx q) s
       (fun w =>
         let z := match s.spare tx with | some p' => w.dataPath ((if tx then 54 else 86) + p') | none => w
         let v := if tx then match z.rerunPipe with | some p' => z.rerun q p' | none => z else z
         ((if (s.spare tx).isNone then v.journalAdd 7 [3, bit tx, q] else v.faultNote s [3, bit tx, q]).irq 488).errorLine (if tx then 13 else 14) q 1) fun w =>
         s.Becomes w [out, (pipeMap tx, 0, (match s.spare tx with | some p' => Nat.lor (act - 2 ^ q.val) (2 ^ p') | none => act - 2 ^ q.val) % 2 ^ 32)] false)) ∧
    (s.Accepts ag .KEY_LOAD 0 (keyLoadValue mode.toNat kek.toNat k) →
      let u := (s.voteKey k).voteKey kek.toNat
      let last := fun (w : State) (st : Status) => exec (.keyLoad ag mode kek slot) s =
        .next (((s.unlessReset w fun w => w.stageClear.wr F.KEY_STATUS_LAST 0 st.code).answer st 0).settle)
      let free := u.rd F.KEY_DESC_STATE k = 0
      (u.resets ≠ s.resets → last u .ok) ∧
      (u.resets = s.resets → mode = 3 ∨ ¬ free → last u .refusedState) ∧
      (u.resets = s.resets → mode = 2 → free → (s.service = true → last u .refusedState) ∧
        (s.service = false → last ((u.keyStore k (s.staged 8) 0).setDesc k 0 0 0 4) .ok)) ∧
      (u.resets = s.resets → mode.toNat < 2 → free → u.rd F.KEY_DESC_STATE kek.toNat ≠ 4 → last u .refusedState) ∧
      (u.resets = s.resets → mode.toNat < 2 → free → u.rd F.KEY_DESC_STATE kek.toNat = 4 →
        let y := u.slotTake kek.toNat
        let v := y.1
        let m := kwUnwrap (v.slotKey kek.toNat) (s.staged 12)
        ((∀ m ∈ s.marks, m.region ≠ 8) → (∀ a ∈ s.withheld, a.region ≠ 8) → y.2 = true) ∧
        (y.2 = false ∨ v.resets ≠ u.resets → last v .refusedState) ∧
        (y.2 = true → v.resets = u.resets →
        (m = none → last v .unitError) ∧
        (∀ w, m = some w → mode = 1 →
          ((∃ b ∈ w.drop 32, b ≠ 0) → last v .unitError) ∧ ((∀ b ∈ w.drop 32, b = 0) → last ((v.keyStore k (w.take 32) 0).setDesc k 0 0 0 4) .ok)) ∧
        (∀ w, m = some w → mode = 0 →
          let tun := w.getD 36 0
          let dir := w.getD 37 0 % 2
          let next := w.getD 37 0 / 2 % 2
          let z := v.voteSlots tun dir
          let badForm := 24 ≤ tun ∨ 4 ≤ w.getD 37 0 ∨ w.getD 38 0 ≠ 0 ∨ w.getD 39 0 ≠ 0
          let taken := (z.slotOf tun dir (2 + next)).isSome = true ∨ (next = 1 ∧ z.slotOf tun dir 2 = none)
          (z.resets ≠ v.resets → last z .ok) ∧
          (z.resets = v.resets → (badForm → last z .unitError) ∧ (¬ badForm → taken → last z .refusedState) ∧
          (¬ badForm → ¬ taken →
            let r := (z.keyStore k (w.take 32) (numBe ((w.drop 32).take 4))).setDesc k tun dir (if next = 1 then 1 - z.curPhase tun dir else 0) (2 + next)
            last ((if next = 1 then r else r.rekeyed tun dir).tunState tun) .ok)))))) ∧
    (let wiped := fun (w : State) (gone : Nat → Prop) =>
       (∀ j, gone j → w.rd F.KEY_DESC_STATE j = 0 ∧ w.rd F.KEY_DESC_TUNNEL j = 0 ∧ ∀ i < 16, w.ld .keySlot (16 * j + i) = 0) ∧
       (∀ g j, (g.reg = .KEY_DESC → ¬ gone j) → g.reg ≠ .KEY_STAGE → g.reg ≠ .MEMP_STATUS → g.reg ≠ .MEMP_INJECT_CTL → w.rd g j = s.rd g j) ∧
       (∀ sp i, sp ≠ .keySlot ∨ ¬ gone (i / 16) → w.ld sp i = s.ld sp i) ∧ (∀ j, gone j → Amap.get 0 w.slotUse j = 0) ∧
       (∀ j, ¬ gone j → Amap.get 0 w.slotUse j = Amap.get 0 s.slotUse j) ∧ (∀ m, m.region ≠ 10 → m.region ≠ 8 → (m ∈ w.marks ↔ m ∈ s.marks)) ∧
       w = { s with regs := w.regs, mem := w.mem, marks := w.marks, slotUse := w.slotUse, tamperLow := w.tamperLow }
     let all := fun w : State => s.unlessReset (((List.range 24).foldl (fun v j => v.tunState j) w).event F.KEY_STATUS_ALL_ZERO 0).newEpoch State.flagBeacons
     (s.Accepts ag .KEY_ZEROISE 0 k → DoesThen (.keyZeroiseSlot ag slot) s (fun w =>
         ((if s.rd F.KEY_DESC_STATE k = 2 ∨ s.rd F.KEY_DESC_STATE k = 3 then w.tunState (s.rd F.KEY_DESC_TUNNEL k) else w).answer .ok 0).settle) fun w =>
       wiped w (fun j => j = k) ∧ w.tamperLow = s.tamperLow ∧ ∀ j, w.rd F.KEY_STAGE_DATA j = s.rd F.KEY_STAGE_DATA j) ∧
     (s.Accepts ag .KEY_ZEROISE 0 256 → DoesThen (.keyZeroiseAll ag) s (fun w => ((all w).answer .ok 0).settle) fun w =>
       wiped w (fun j => j < 128) ∧ w.tamperLow = s.tamperLow ∧ ∀ j < 12, w.rd F.KEY_STAGE_DATA j = 0) ∧
     exec (.tamperInput 0) s = .next s ∧
     (lows ≠ 0 → DoesThen (.tamperInput lows) s (fun w => (s.unlessReset (all w) fun v => v.event F.KEY_STATUS_TAMPER 0).errorLine 41 (lowest4 lows.toNat) 0) fun w =>
       wiped w (fun j => j < 128) ∧ (∀ j < 12, w.rd F.KEY_STAGE_DATA j = 0) ∧ ∀ i : Fin 4, i.val ∈ w.tamperLow ↔ lows.toNat.testBit i = true))

/-- What a line port received goes on only from a ready line port, in Ethernet only behind its own address and type, where a notice is taken as one. A copy of no tunnel, errored or short, of a disabled tunnel or with a bad header, of a wrong length, is counted and
dropped; a control bundle is judged by its sequence; a data copy without a key or out of service is counted as blocked, any other offered to the merge, a bundle seen first also counted towards RATE. Tallies and descriptors are voted first; a chip reset that a vote or a read leads to ends the command. A copy whose key has a lost word is dropped; a decryption that fails is counted by its path and the merge moves on; an authentic bundle that is a replay is counted and dropped, any other is
accepted: it sets the window, raises H, is delivered as D. ACK, RESEND and GAP are taken only where the tunnel receives, each as its chapter says. -/
def Obligations.ReceivedBundles : Prop :=
  ∀ (s : State) (p : Fin 48) (t : Fin 24) (copy : List Byte) (err upset : Bool) (cum map first : W64) (count : W32) (cause : BitVec 8),
    let m := copy.map fun b => b.toNat
    let path := s.role p - 2
    let usable := s.isLine p = true ∧ s.on F.PORT_STATUS_RX_READY p = true
    let ends := fun (P : State → Prop) => Does (.bundleCopyRx p copy err) s P ∧ Does (.controlBundleRx p copy err) s P
    let up := fun (w : State) (g : Fld) (i : Nat) => (g, i, min (w.rd g i + 1) (2 ^ g.w - 1))
    let eth := s.rd F.PORT_CFG_FORMAT p = 1
    let r := if eth then s.frameOver p else s
    let counts := fun g i => ends fun w => r.Becomes w [up r g i] false
    let dst := s.rd F.CRY_MAC_LOCAL_HI_ADDR 0 * 2 ^ 32 + s.rd F.CRY_MAC_LOCAL_LO_ADDR 0
    let foreign := numBe (m.take 6) ≠ dst ∨ numBe ((m.drop 12).take 2) ≠ s.rd F.CRY_ETHERTYPE_TYPE 0
    let c := if eth then (m.drop 14).take (m.length - 18) else m
    let bad := if eth then (err || s.spoilt p) || !fcsOk m else err
    let n := c.getD 2 31 % 32
    let size := numBe ((c.drop 4).take 2) + 32
    let errored := if path = 0 then F.TUN_CNT_ERRORED_A_V else F.TUN_CNT_ERRORED_B_V
    (¬ usable → ends fun w => w = s) ∧
    (usable → eth → m.length < 18 ∨ foreign → counts F.CRY_FOREIGN_COUNT 0) ∧
    (usable → eth → 18 ≤ m.length → ¬ foreign → c.getD 0 0 = 0xB3 → ends fun w => w = if bad then r else r.noticeTake p c) ∧
    (usable → (eth → 18 ≤ m.length ∧ ¬ foreign ∧ c.getD 0 0 ≠ 0xB3) →
      (24 ≤ n → counts F.CRY_NO_TUNNEL_COUNT 0) ∧
      (n < 24 → bad = true ∨ c.length < 16 → counts errored n) ∧
      (16 ≤ c.length → n < 24 → bad = false →
        (s.on F.TUN_CFG_RX_EN n = false ∨ headerOk c = false → counts F.TUN_CNT_FORMAT_ERR_V n) ∧
        (s.on F.TUN_CFG_RX_EN n = true → headerOk c = true →
          let whole := if eth then size else (size + 31) / 32 * 32
          let b := bundleOf c
          (c.length ≠ whole → counts errored n) ∧
          (c.length = whole → b.ctrl = true → ends fun w => w = r.ctrlTake n path b) ∧
          (c.length = whole → b.ctrl = false →
            let v := (r.voteRx n).voteSlots n 1
            let blocked := v.service = false ∨ v.slotOf n 1 2 = none
            let seen := b.seq ≤ v.rxD n ∨ ∃ a ∈ (v.protT n).arrivals, a.1 = b.seq
            (v.resets ≠ s.resets → ends fun w => w = v) ∧
            (v.resets = s.resets → blocked → ends fun w => v.Becomes w [up v F.TUN_CNT_DROP_BLOCKED_V n] true) ∧
            (v.resets = s.resets → ¬ blocked → seen → ends fun w => w = v.mergeOffer n path b) ∧
            (v.resets = s.resets → ¬ blocked → ¬ seen → ends fun w => w = (v.rateJudge n ((v.trx n).recent ++ [(v.time, b.size)])).mergeOffer n path b))))) ∧
    (let u := (s.voteRx t).voteSlots t 1
     ((u.protT t).decrypting = none → exec (.decryptDone t upset) s = .next u) ∧
     (∀ d x, (u.protT t).decrypting = some (d, x) →
       ((u.protT t).copies.find? (fun e => e.seq = d && e.path = x) = none →
         exec (.decryptDone t upset) s = .next ((u.setProt t { u.protT t with decrypting := none }).mergeGo t)) ∧
       (∀ e, (u.protT t).copies.find? (fun e => e.seq = d && e.path = x) = some e →
         let slot := u.rxSlotFor t e.bundle
         let y := match slot with | some k => (if upset then u.setMark 8 (8 * k) 0 3 0 else u).slotTake k | none => (u, true)
         let v := y.1
         let dropped := v.dropCopy t e
         let opened := slot.bind fun k => v.unseal k e.bundle
         let serves := v.resets = u.resets ∧ y.2 = true
         (∀ k, slot = some k → (upset = true → y.2 = false) ∧
           (upset = false → (∀ m ∈ s.marks, m.region ≠ 8) → (∀ a ∈ s.withheld, a.region ≠ 8) → y.2 = true)) ∧
         (v.resets ≠ u.resets → exec (.decryptDone t upset) s = .next v) ∧
         (v.resets = u.resets → y.2 = false → exec (.decryptDone t upset) s = .next dropped) ∧
         (serves → opened = none → DoesThen (.decryptDone t upset) s (fun w => ((w.event F.TUN_EVENT_AUTH t).runPrune t).mergeGo t) fun w =>
           (dropped.setProt t { dropped.protT t with failed := (v.protT t).failed ++ [(e.seq, e.path)] }).Becomes w
             [up v (if e.path = 0 then F.TUN_CNT_AUTH_FAIL_A_V else F.TUN_CNT_AUTH_FAIL_B_V) t] true) ∧
         (∀ pl, serves → opened = some pl → u.on F.TUN_STATUS_RESYNC t = false →
           (v.replayOk t e.seq = false → DoesThen (.decryptDone t upset) s (fun w => w.mergeGo t) fun w => dropped.Becomes w [up v F.TUN_CNT_REPLAY_V t] true) ∧
           (v.replayOk t e.seq = true → DoesThen (.decryptDone t upset) s
             (fun w => (((w.windowSet t e.seq).deliverBundle t e.seq e.bundle.first pl).advanced t).mergeGo t) fun w =>
               dropped.Becomes w (if (v.protT t).hasFailed e.seq (1 - e.path) then [up v F.TUN_CNT_FALLBACK_OK_V t] else []) true)) ∧
         (∀ pl, serves → opened = some pl → u.on F.TUN_STATUS_RESYNC t = true →
           exec (.decryptDone t upset) s = .next (v.resyncTake t e pl))))) ∧
    (∀ (w : State) (d : Nat) (pl : List Nat), d < 2 ^ 64 → w.rxH t < 2 ^ 64 →
      (w.windowSet t d).rxH t = max (w.rxH t) d ∧ d ∈ ((w.windowSet t d).trx t).window ∧ (w.deliverBundle t d 0 pl).rxD t = d) ∧
    (s.on F.TUN_CFG_RX_EN t = false → exec (.ackMsg t cum map) s = .next s ∧ exec (.resendMsg t first count) s = .next s ∧ exec (.gapMsg t first count cause) s = .next s) ∧
    (s.on F.TUN_CFG_RX_EN t = true →
      let u := s.voteTx t
      let v := s.voteRx t
      let P := u.protT t
      let last := first.toNat + count.toNat
      let lossless := u.on F.PROT_TUN_CFG_LOSSLESS t
      (u.resets ≠ s.resets → exec (.ackMsg t cum map) s = .next u ∧ exec (.resendMsg t first count) s = .next u) ∧
      (u.resets = s.resets →
        (cum.toNat < P.acked → exec (.ackMsg t cum map) s = .next u) ∧
        (P.acked ≤ cum.toNat → u.txSeq t ≤ cum.toNat → Does (.ackMsg t cum map) s fun w => u.Becomes w [up u F.TUN_CNT_FORMAT_ERR_V t] false) ∧
        (P.acked ≤ cum.toNat → cum.toNat < u.txSeq t → exec (.ackMsg t cum map) s =
          .next ((u.setProt t { P with acked := cum.toNat, ackMap := map.toNat }).holdRelease true fun h => h.tunnel = t && h.kind = .retx && decide (h.seq ≤ cum.toNat))) ∧
        (lossless = false → Does (.resendMsg t first count) s fun w => u.Becomes w [up u F.PROT_TUN_CNT_RESEND_RX_V t] false) ∧
        (lossless = true → u.txSeq t < last → Does (.resendMsg t first count) s fun w =>
          u.Becomes w [up u F.PROT_TUN_CNT_RESEND_RX_V t, up u F.TUN_CNT_FORMAT_ERR_V t] false) ∧
        (lossless = true → last ≤ u.txSeq t → DoesThen (.resendMsg t first count) s
          (fun w => let x := w.membersRead t ((List.range count.toNat).map fun k => first.toNat + k)
            w.unlessReset x.1 fun w => (answerRuns x.2).foldl (fun v a =>
              if a.1 = 0 then v else if a.1 = 100 then v.resendReads t a.2.1 a.2.2 else v.resendGap t a.2.1 a.2.2 a.1) w) fun w =>
          u.Becomes w [up u F.PROT_TUN_CNT_RESEND_RX_V t] false) ∧
        (∀ n, (n ≤ P.acked ∨ (u.ttx t).nextOut ≤ n → u.memberAnswer t n = 0) ∧
          (P.acked < n → n < (u.ttx t).nextOut → (∀ h ∈ u.held, h.tunnel = t.val → h.seq = n → h.serves .retx = false) → u.memberAnswer t n = 4))) ∧
      (v.resets ≠ s.resets → exec (.gapMsg t first count cause) s = .next v) ∧
      (v.resets = s.resets →
        (count = 0 ∨ last ≤ v.rxD t + 1 → exec (.gapMsg t first count cause) s = .next v) ∧
        (count ≠ 0 → v.rxD t + 1 < last → exec (.gapMsg t first count cause) s =
          .next ((v.setProt t { v.protT t with gaps := (v.protT t).gaps ++ [⟨first.toNat, count.toNat, cause.toNat⟩] }).mergeGo t))))

/-- START is refused while a rollover runs or without a next key; else it picks C, LEAD ahead of the next SEQ, and a new ID, and offers them. An offer answered last is answered again; without a next key or with another check value it is aborted; else the receiver arms C. The
accept of the running offer arms the sender; once everything below C is done with, the sender commits: nothing that waits or is kept for sending again stays below C, and messages still waiting are sealed anew under the new key. A commit of the armed C is taken, of a retired one answered again, any other ignored. ROLL_DONE ends the sender's part, an abort one
not yet armed. Messages repeat while phases 2 and 5 last. TIMEOUT aborts an offer, forces an armed commit, gives up on ROLL_DONE, and makes a committed receiver declare a gap. -/
def Obligations.KeyRollover : Prop :=
  ∀ (s : State) (ag : Agent) (t : Fin 24) (id kcv : W32) (c : W64) (reason : BitVec 8),
    let phTx := fun w : State => w.rd F.TUN_STATUS_ROLL_TX t
    let phRx := fun w : State => w.rd F.TUN_STATUS_ROLL_RX t
    let x := s.ttx t
    (s.Accepts ag .TUN_ROLL t 1 →
      let u := (s.voteTx t).voteSlots t 0
      let x := u.ttx t
      (phTx u ≠ 0 ∨ u.slotOf t 0 3 = none → exec (.rollStart ag t) s = .next ((u.answer .refusedState 0).settle)) ∧
      (phTx u = 0 → u.slotOf t 0 3 ≠ none → DoesThen (.rollStart ag t) s (fun w => ((w.sendOffer t).answer .ok 0).settle) fun w =>
        (u.setTtx t { x with rollId := (x.rollId + 1) % 2 ^ 32, rollC := some (u.txSeq t + max 1 (u.rd F.TUN_ROLL_CFG_LEAD t) * 256), rollAt := u.time, forced := false }).Becomes w
          [(F.TUN_STATUS_ROLL_TX, t.val, 2), (F.TUN_ROLL_STATUS_ID, t.val, (x.rollId + 1) % 2 ^ 32 % 2 ^ F.TUN_ROLL_STATUS_ID.w)] false)) ∧
    (s.Accepts ag .TUN_ROLL t 2 →
      (phTx s = 2 ∨ phTx s = 3 → exec (.rollAbortCmd ag t) s = .next (((s.rollAbort t 5 6).answer .ok 0).settle)) ∧
      (phTx s ≠ 2 → phTx s ≠ 3 → exec (.rollAbortCmd ag t) s = .next (s.answer .ok 0))) ∧
    (phTx s = 2 → exec (.rollMessageRepeat t) s = .next (s.sendOffer t)) ∧ (phTx s = 5 → exec (.rollMessageRepeat t) s = .next (s.sendCommit t)) ∧
    (phTx s ≠ 2 → phTx s ≠ 5 → exec (.rollMessageRepeat t) s = .next s) ∧
    (let u := s.voteSlots t 1
     let y := u.trx t
     let accept := fun w : State => w.sendCtrl t 0x11 1 (bytesBe 4 id.toNat ++ bytesBe 8 c.toNat)
     (y.rollId = some id.toNat → exec (.rollOffer t id c kcv) s = .next (accept u)) ∧
     (y.rollId ≠ some id.toNat → u.slotOf t 1 3 = none → exec (.rollOffer t id c kcv) s = .next (u.sendAbort t 1 id.toNat 2)) ∧
     (∀ k, y.rollId ≠ some id.toNat → u.slotOf t 1 3 = some k →
       let z := u.slotTake k
       let v := z.1
       (v.resets ≠ u.resets → exec (.rollOffer t id c kcv) s = .next v) ∧
       (v.resets = u.resets → z.2 = false → exec (.rollOffer t id c kcv) s = .next (v.sendAbort t 1 id.toNat 2)) ∧
       (v.resets = u.resets → z.2 = true → v.kcv k id.toNat ≠ kcv.toNat → exec (.rollOffer t id c kcv) s = .next (v.sendAbort t 1 id.toNat 3)) ∧
       (v.resets = u.resets → z.2 = true → v.kcv k id.toNat = kcv.toNat → DoesThen (.rollOffer t id c kcv) s accept fun w =>
         (v.setTrx t { y with rollId := some id.toNat, rollC := some c.toNat, rollAt := u.time }).Becomes w
           [(F.TUN_STATUS_ROLL_RX, t.val, 3), (F.TUN_ROLL_STATUS_ID, t.val, id.toNat % 2 ^ F.TUN_ROLL_STATUS_ID.w)] false))) ∧
    (let u := (s.voteTx t).voteSlots t 0
     let mine := phTx u = 2 ∧ (u.ttx t).rollId = id.toNat ∧ (u.ttx t).rollC = some c.toNat
     (mine → Does (.rollAccept t id c) s fun w => u.Becomes w [(F.TUN_STATUS_ROLL_TX, t.val, 4)] false) ∧
     (¬ mine → exec (.rollAccept t id c) s = .next u) ∧
     (phTx u = 5 ∧ (u.ttx t).rollId = id.toNat → exec (.rollDone t id) s = .next (u.rollEnd t (if (u.ttx t).forced then 7 else 1))) ∧
     (¬ (phTx u = 5 ∧ (u.ttx t).rollId = id.toNat) → exec (.rollDone t id) s = .next u)) ∧
    (let u := (s.voteRx t).voteSlots t 1
     let y := u.trx t
     (y.rollId ≠ some id.toNat → exec (.rollCommit t id c) s = .next u) ∧
     (y.rollId = some id.toNat →
       (y.rollC = none → exec (.rollCommit t id c) s = .next (u.sendCtrl t 0x13 1 (bytesBe 4 id.toNat))) ∧
       (y.rollC = some c.toNat → DoesThen (.rollCommit t id c) s (fun w => w.rollRetire t) fun w => u.Becomes w [(F.TUN_STATUS_ROLL_RX, t.val, 6)] false) ∧
       (∀ c', y.rollC = some c' → c' ≠ c.toNat → exec (.rollCommit t id c) s = .next u))) ∧
    ((phTx s = 2 ∨ phTx s = 3) ∧ x.rollId = id.toNat → exec (.rollAbort t true id reason) s = .next (s.rollEnd t (reasonResult reason.toNat))) ∧
    (¬ ((phTx s = 2 ∨ phTx s = 3) ∧ x.rollId = id.toNat) → exec (.rollAbort t true id reason) s = .next s) ∧
    (phRx s = 3 ∧ (s.trx t).rollId = some id.toNat → DoesThen (.rollAbort t false id reason) s (fun w => w.rollResult t (reasonResult reason.toNat)) fun w =>
      (s.setTrx t { s.trx t with rollC := none, rollId := none }).Becomes w [(F.TUN_STATUS_ROLL_RX, t.val, 0)] false) ∧
    (¬ (phRx s = 3 ∧ (s.trx t).rollId = some id.toNat) → exec (.rollAbort t false id reason) s = .next s) ∧
    (let u := (s.voteTx t).voteSlots t 0
     let may := fun k => (u.ttx t).rollC = some k ∧ phTx u = 4 ∧ u.belowDone t k = true
     (∀ k, may k → DoesThen (.rollCommitPoint t) s
         (fun w => ((u.waitingMessages t).foldl (fun v m => v.sendCtrl t (m.getD 0 0) (m.getD 1 0) (m.drop 4)) (w.keyPromote t 0)).sendCommit t) fun w =>
       let d := u.dropBelow t k
       (d.setProt t { d.protT t with ctrlQ := [] }).Becomes w [(F.TUN_STATUS_ROLL_TX, t.val, 5)] false) ∧
     ((∀ k, ¬ may k) → exec (.rollCommitPoint t) s = .next u)) ∧
    (∀ (w : State) (k : Nat), let d := w.dropBelow t k
     (∀ b ∈ (d.protT t).resendQ ++ (d.protT t).sendQ ++ (d.protT t).overflow ++ (d.ttx t).done, k ≤ b.seq) ∧ (∀ n ∈ (d.protT t).backlog, k ≤ n) ∧
     (∀ e ∈ (d.ttx t).crypto, k ≤ e.1.seq) ∧ (∀ h ∈ d.held, h.tunnel = t.val → txKind h.kind = true → k ≤ h.seq) ∧
     (∀ r ∈ d.heldReads, r.tunnel = t.val → txKind r.kind = true → k ≤ r.seq) ∧ d.lanes = w.lanes ∧ d.ports = w.ports ∧ ∀ j, d.trx j = w.trx j) ∧
    (let tmo := clampNat 1 100 (s.rd F.TUN_ROLL_CFG_TIMEOUT t) * 250000000
     let u := s.voteTun t
     (s.time < x.rollAt + tmo → exec (.rollTimeout t false) s = .next s) ∧ (s.time < (s.trx t).rollAt + tmo → exec (.rollTimeout t true) s = .next s) ∧
     (x.rollAt + tmo ≤ s.time →
       (phTx u = 0 → exec (.rollTimeout t false) s = .next u) ∧ (phTx u = 5 → exec (.rollTimeout t false) s = .next (u.rollEnd t 8)) ∧
       (phTx u = 2 ∨ phTx u = 3 → exec (.rollTimeout t false) s = .next (u.rollAbort t 4 5)) ∧
       (∀ k, phTx u = 4 → (u.ttx t).rollC = some k → exec (.rollTimeout t false) s = .next (u.rollForce t k))) ∧
     ((s.trx t).rollAt + tmo ≤ s.time →
       (phRx u ≠ 6 ∨ (u.trx t).rollC = none → exec (.rollTimeout t true) s = .next u) ∧
       (∀ k, phRx u = 6 → (u.trx t).rollC = some k → exec (.rollTimeout t true) s =
         .next ((u.setProt t { u.protT t with
             gaps := (u.protT t).gaps ++ [⟨u.rxD t + 1, k - 1 - u.rxD t, 3⟩]
             expired := (u.protT t).expired ++ (((u.protT t).copies.filter fun e => e.seq < k).map fun e => e.seq).eraseDups }).mergeGo t)))) ∧
    (∀ w : State, ∀ r < 2 ^ F.TUN_ROLL_STATUS_RESULT.w, ((w.rollEnd t r).ttx t).rollC = none ∧ phTx (w.rollEnd t r) = 0 ∧ (w.rollEnd t r).rd F.TUN_ROLL_STATUS_RESULT t = r)

/-! ### The hold store (chapter 7) -/

/-- START is refused unless the store is OFF and not excluded; else every declared channel trains, the others are unused, and what was known of the channels is forgotten. The end of a training gives the module's organisation and a LIVE channel, or a failed one with its cause. A cord is filled, a withdrawn one whose billets are free first, while the budget has room and the Damper does not cap the
store. STOP ends a repair, puts live channels in self-refresh, forgets fill and marks, and every held copy is lost. A LIVE channel that fails is reported with its cause, and what was to be read from it is lost. Over budget, a copy not written within 50 µs is lost, a
ride-through copy blocks its tunnel. Calibration, oscillator and temperature are noted of a LIVE channel only. -/
def Obligations.HoldStoreLife : Prop :=
  ∀ (s : State) (ag : Agent) (c : Fin 24) (size temp cmds : BitVec 8) (code : BitVec 16) (x8 : Bool) (ranks stack : Fin 3),
    let st := s.rd F.HOLD_CH_STATUS_STATE c
    let h := s.hcOf c
    let live := s.chLive c = true
    (s.Accepts ag .HOLD_CTL 0 1 →
      (s.rd F.HOLD_STATUS_STATE 0 ≠ 0 ∨ s.holdExcluded = true → exec (.holdStart ag) s = .next (s.answer .refusedState 0)) ∧
      (s.rd F.HOLD_STATUS_STATE 0 = 0 → s.holdExcluded = false → DoesThen (.holdStart ag) s (fun u => (u.holdUpdate.answer .ok 0).settle) fun u =>
        (∀ d : Fin 24, u.hcOf d = HCh.init) ∧ ({ s with rotor := 0, hch := u.hch } : State).Becomes u
          ([(F.HOLD_STATUS_STATE, 0, 1), (F.HOLD_STATUS_POLICY, 0, 0), (F.HOLD_SCRUB_STATUS_PASSES, 0, 0), (F.HOLD_SCRUB_STATUS_PROGRESS, 0, 0)] ++
            (List.range 24).flatMap fun d => [(F.HOLD_CH_STATUS_STATE, d, if d < holdN (s.rd F.HOLD_CFG_CHANNELS 0) then 1 else 5), (F.HOLD_CH_STATUS_CAUSE, d, 0),
              (F.HOLD_CH_CNT_SOFT_REPAIRS_V, d, 0)]) false)) ∧
    (s.Accepts ag .HOLD_CTL 0 2 →
      let s0 := match s.repair with | some r => (if r.hard then s.repairEnd r 3 else s.softEnd r 3) | none => s
      DoesThen (.holdStop ag) s (fun u => ((((u.readsLost fun _ => true).mergeLost).holdUpdate.answer .ok 0).settle)) fun u =>
      u.rd F.HOLD_STATUS_STATE 0 = 0 ∧
      (∀ d : Fin 24, u.rd F.HOLD_CH_STATUS_STATE d = (match s0.rd F.HOLD_CH_STATUS_STATE d with | 2 => 3 | 1 => 0 | n => n) ∧
        u.hcOf d = { s0.hcOf d with filled := 0, clinkers := [], retest := [], needed := [], withdrawn := [] }) ∧
      u.held = s0.held.map (fun h : Held => { h with
        billets := [], lost := if h.lost = 0 then 2 else h.lost, gone := h.gone ++ h.billets.map fun b => (s0.lossNumber, b) }) ∧ u.heldOpen = [] ∧
      (∀ i, u.ld .mirror i = 0) ∧ (∀ sp i, sp ≠ .mirror → u.ld sp i = s0.ld sp i) ∧
      (∀ g i, g.key i ≠ F.HOLD_CH_STATUS_STATE.key i → g.key i ≠ F.HOLD_STATUS_STATE.key 0 → u.rd g i = s0.rd g i) ∧
      u = { s0 with regs := u.regs, mem := u.mem, hch := u.hch, held := u.held, heldOpen := [], perfPipe := u.perfPipe } ∧ s0.perfPipe <+: u.perfPipe) ∧
    (st ≠ 1 → ∀ k, exec (.channelTrained c k size x8 ranks stack) s = .next s) ∧
    (st = 1 → ∀ k : Fin 5,
      let k' := if k.val = 0 ∧ dimmSize size.toNat = false then 2 else k.val
      let spd := [(F.HOLD_CH_DIMM_SIZE, c.val, size.toNat), (F.HOLD_CH_DIMM_WIDTH, c.val, if x8 then 1 else 0), (F.HOLD_CH_DIMM_RANKS, c.val, ranks.val),
        (F.HOLD_CH_DIMM_STACK, c.val, stack.val)]
      (k' = 0 → DoesThen (.channelTrained c k size x8 ranks stack) s (fun u => u.holdSizes.holdRuns.holdUpdate) fun u =>
        (s.setHc c { h with trained := true }).Becomes u ((F.HOLD_CH_STATUS_STATE, c.val, 2) :: spd) false) ∧
      (k' ≠ 0 → DoesThen (.channelTrained c k size x8 ranks stack) s (fun u => s.unlessReset (u.errorLine 17 c k') fun u => u.holdRuns.holdUpdate) fun u =>
        s.Becomes u ([(F.HOLD_CH_STATUS_STATE, c.val, 4), (F.HOLD_CH_STATUS_CAUSE, c.val, k'), (F.HOLD_EVENT_CH_FAIL, 0, 1)] ++ if k' = 1 then [] else spd) true)) ∧
    (¬ live → exec (.zqCalibration c) s = .next s ∧ exec (.dqsOscillatorRead c code) s = .next s ∧ exec (.moduleTempRead c temp) s = .next s ∧
      exec (.holdRefresh c cmds) s = .next s ∧ ∀ cause, exec (.channelFail c cause) s = .next s) ∧
    (live → exec (.zqCalibration c) s = .next (s.setHc c { h with zqAt := s.time }) ∧
      exec (.dqsOscillatorRead c code) s = .next (s.setHc c { h with dqs := code.toNat }) ∧
      (Does (.moduleTempRead c temp) s fun t => s.Becomes t [(F.HOLD_CH_STATUS_TEMP, c.val, temp.toNat)] false) ∧
      (Does (.holdRefresh c cmds) s fun t => s.Becomes t [] true) ∧
      ∀ cause : Fin 6, DoesThen (.channelFail c cause) s (fun u =>
          s.unlessReset (u.errorLine 17 c (cause.val + 5)) fun v =>
          let v := v.faultNote s [5, c]
          let v := match v.repair with | some r => if r.ch = c.val then (if r.hard then v.repairEnd r 3 else v.softEnd r 3) else v | none => v
          ((({ v with heldOpen := v.heldOpen.filter fun o => o.ch ≠ c.val } : State).readsLost fun r => r.left.any fun b => b.1 = c.val).mergeLost).holdUpdate.scrubPass) fun u =>
        s.Becomes u ([(F.HOLD_CH_STATUS_STATE, c.val, 4), (F.HOLD_CH_STATUS_CAUSE, c.val, cause.val + 5), (F.HOLD_EVENT_CH_FAIL, 0, 1)] ++
          if cause.val = 1 ∨ cause.val = 2 then [(F.HOLD_CH_CNT_RETRIES_V, c.val, min (s.rd F.HOLD_CH_CNT_RETRIES_V c + 8) (2 ^ F.HOLD_CH_CNT_RETRIES_V.w - 1))] else []) true) ∧
    (let fills := s.ddrCapped = false ∧ s.chServes c = true ∧ (h.filled < h.cords ∨ s.refillCord c ≠ none) ∧ s.on F.HOLD_STATUS_OVER_BUDGET 0 = false ∧ s.budgetFree = true
     let after := fun u : State => u.holdUpdate.rideRetryAll
     let map := fun (d : Nat) (u : State) => (u.spanWrite 5 (cordWord c d) 1)
     (¬ fills → exec (.cordFilled c) s = .next s) ∧
     (fills → s.refillCord c = none → let u := s.cordRead c (256 * h.filled)
       (u.resets ≠ s.resets → exec (.cordFilled c) s = .next (after u)) ∧
       (u.resets = s.resets → exec (.cordFilled c) s = .next (after ((map h.filled u).setHc c { u.hcOf c with filled := h.filled + 1 })))) ∧
     (∀ d, fills → s.refillCord c = some d → let u := s.cordRead c (256 * d)
       (d ∈ h.withdrawn ∧ ∀ l ∈ s.inUse c, l / 256 ≠ d) ∧
       (u.resets ≠ s.resets → exec (.cordFilled c) s = .next (after u)) ∧
       (u.resets = s.resets → exec (.cordFilled c) s =
         .next (after ((map d u).setHc c { u.hcOf c with withdrawn := (u.hcOf c).withdrawn.filter fun e => e ≠ d }))))) ∧
    (∀ (kind : HeldKind) (t : Fin 24) (seq : W64) (path : Fin 2),
      let it := s.held.find? fun h => h.kind = kind && h.tunnel = t.val && h.seq = seq.toNat && h.path = path.val
      (s.on F.HOLD_STATUS_OVER_BUDGET 0 = false ∨ it = none → exec (.heldCopyTimeout kind t seq path) s = .next s) ∧
      ∀ d, it = some d →
        let lost : State := { s with held := s.held.map fun h =>
          if h = d then { h with lost := 2, billets := [], gone := h.gone ++ (h.billets.take 1).map fun b => (s.lossNumber, b) } else h }
        (s.time < d.storedAt + 125000 → exec (.heldCopyTimeout kind t seq path) s = .next s) ∧
        (s.on F.HOLD_STATUS_OVER_BUDGET 0 = true → d.storedAt + 125000 ≤ s.time →
        (kind = .ride → exec (.heldCopyTimeout kind t seq path) s = .next (s.setProt t { s.protT t with storeFull := true })) ∧
        (kind = .retx → exec (.heldCopyTimeout kind t seq path) s = .next lost) ∧
        (kind = .align ∨ kind = .holdback → exec (.heldCopyTimeout kind t seq path) s = .next lost.mergeLost)))

/-- The billet numbers are the row, its rank and banks, and the slot, and back. A read of a marked billet finds its copy lost; any other counts each burst's correction, or marks the billet where a burst has more than 8 bad symbols; drain and resend reads wait for their budget and their turn, and count toward their rate. The scrubber, while it may work, reads the next billet of a channel, an overflowed row first, whatever EN holds. A leak, once its interval has passed, lowers a bucket by 1. A
freed marked billet that reads back clean loses its mark, else it is retired. A repair is refused while one runs, on a channel that is not LIVE, hard in Service mode, or from an empty queue; else it waits for its window or is under way, and ends with its result or, without a window, NO_WINDOW. -/
def Obligations.HoldCorrectionAndRepair : Prop :=
  ∀ (s : State) (ag : Agent) (c : Fin 24) (l : W32) (errs : List BurstRead) (retries : Fin 9) (ch : BitVec 5) (fromQueue : Bool) (res : Fin 3),
    let x := s.hcOf c
    (∀ n, s.billetOf c (s.rowOf c n) (n / 32) = n) ∧
    (∀ r k, r.bg < 8 → r.bank < 4 → r.rank < 2 ^ s.rd F.HOLD_CH_DIMM_RANKS c → r.lrank < 2 ^ s.rd F.HOLD_CH_DIMM_STACK c → s.rowOf c (s.billetOf c r k) = r) ∧
    (∀ (n b : Nat), (s.uncorrected c n b).resets = s.resets → n ∈ ((s.uncorrected c n b).hcOf c).clinkers ∧ (s.uncorrected c n b).held = s.held) ∧
    (s.readAt c l.toNat = none → exec (.holdReadComplete c l errs retries) s = .next s) ∧
    (∀ r, s.readAt c l.toNat = some r →
      let q : HeldRead := { r with left := r.left.erase (c.val, l.toNat) }
      let rx := r.kind = .align ∨ r.kind = .holdback
      let tight := s.on F.HOLD_STATUS_OVER_BUDGET 0
      let ahead := ∃ e ∈ s.heldReads, (∃ b ∈ e.left, b.1 = c.val) ∧ (e.kind = .align ∨ e.kind = .holdback ∨ (r.kind = .ride ∧ e.kind = .retx))
      let may := s.chServes c = true ∧ (rx ∨ (tight = true ∧ ¬ ahead) ∨ (tight = false ∧ s.drainRuns = true ∧ s.drainPace = true))
      let u := (((if rx then s else s.drainCount 4096).dataPath 122).clinkerRead c l.toNat).cordRead c l.toNat
      let filled := l.toNat < u.filledBillets c
      let marked := filled ∧ l.toNat ∈ (u.hcOf c).clinkers
      (¬ may → exec (.holdReadComplete c l errs retries) s = .next s) ∧
      (may → u.resets ≠ s.resets → exec (.holdReadComplete c l errs retries) s = .next (u.ueCheck c)) ∧
      (may → u.resets = s.resets → marked →
        exec (.holdReadComplete c l errs retries) s = .next ((u.readStep r { q with lost := 1 } (c.val, l.toNat)).ueCheck c)) ∧
      (may → u.resets = s.resets → ¬ marked → DoesThen (.holdReadComplete c l errs retries) s
        (fun v => (u.unlessReset (v.burstErrors c l.toNat errs) fun v => (v.perfCh 1 c 1).readStep r
          (if filled ∧ ∃ e ∈ errs, 8 < e.2.eraseDups.length then { q with lost := 1 } else q) (c.val, l.toNat)).ueCheck c) fun v =>
          u.Becomes v [(F.HOLD_CH_CNT_RETRIES_V, c.val, min (u.rd F.HOLD_CH_CNT_RETRIES_V c + retries) (2 ^ F.HOLD_CH_CNT_RETRIES_V.w - 1))] true)) ∧
    (let may := s.scrubOn = true ∧ s.chServes c = true ∧ x.rowScrub = [] ∧ x.scrubAt < s.filledBillets c
     let u := s.burstErrors c x.scrubAt errs
     let ahead := s.on F.HOLD_STATUS_OVER_BUDGET 0 = false ∧ s.chServes c = true
     (may → u.resets ≠ s.resets → exec (.scrubBillet c errs) s = .next u) ∧
     (may → u.resets = s.resets →
       exec (.scrubBillet c errs) s = .next ((u.setHc c { u.hcOf c with scrubAt := x.scrubAt + 1 }).scrubPass.ueCheck c)) ∧
     (¬ may → exec (.scrubBillet c errs) s = .next s) ∧
     (x.rowScrub = [] ∨ ¬ ahead → ∀ e, exec (.rowScrub c e) s = .next s) ∧
     (∀ r rest e, x.rowScrub = r :: rest → ahead → DoesThen (.rowScrub c e) s
       (fun v => (e.foldl (fun w a => if a.1.val < 2 ^ w.slotBits c then w.burstErrors c (w.billetOf c r a.1) [a.2] else w) v).ueCheck c) fun v => v = s.setHc c { x with rowScrub := rest })) ∧
    (∀ rank : Fin 4,
      let n := Amap.get 0 x.rankCnt rank
      let due := Amap.get 0 x.rankAt rank + max 1 (s.rd F.HOLD_BUCKET_CFG_RANK_LEAK 0) * 250000000
      (n = 0 ∨ s.time < due → exec (.rankBucketLeak c rank) s = .next s) ∧
      (n ≠ 0 → due ≤ s.time → Does (.rankBucketLeak c rank) s fun t => (∀ d ≠ c.val, t.hcOf d = s.hcOf d) ∧ t = { s with hch := t.hch } ∧
        t.hcOf c = { x with rankCnt := (t.hcOf c).rankCnt, rankAt := (t.hcOf c).rankAt } ∧
        ∀ k, Amap.get 0 (t.hcOf c).rankCnt k = (if k = rank.val then n - 1 else Amap.get 0 x.rankCnt k) ∧
          Amap.get 0 (t.hcOf c).rankAt k = if k = rank.val then due else Amap.get 0 x.rankAt k)) ∧
    (∀ e : Fin 32, (x.rows.length ≤ e.val → exec (.rowBucketLeak c e) s = .next s) ∧
      ∀ b, x.rows[e.val]? = some b →
        let due := b.leakAt + max 1 (s.rd F.HOLD_BUCKET_CFG_ROW_LEAK 0) * 2500000000
        (b.count = 0 ∨ s.time < due → exec (.rowBucketLeak c e) s = .next s) ∧
        (b.count ≠ 0 → due ≤ s.time →
          exec (.rowBucketLeak c e) s = .next (s.setHc c { x with rows := x.rows.set e.val { b with count := b.count - 1, leakAt := due } }))) ∧
    (x.retest = [] ∨ s.chServes c = false → ∀ clean, exec (.clinkerRetest c clean) s = .next s) ∧
    (∀ k rest clean, x.retest = k :: rest → s.filledBillets c ≤ k → exec (.clinkerRetest c clean) s = .next s) ∧
    (∀ k rest, x.retest = k :: rest → s.chServes c = true → k < s.filledBillets c →
      let u := s.cachePut c k
      (u.resets ≠ s.resets → exec (.clinkerRetest c true) s = .next u) ∧
      (u.resets = s.resets → exec (.clinkerRetest c true) s = .next (u.setHc c { x with retest := rest, clinkers := x.clinkers.filter fun j => j ≠ k })) ∧
      exec (.clinkerRetest c false) s = .next (s.setHc c { x with retest := rest, retired := x.retired ++ [k] })) ∧
    (let y := s.hcOf ch.toNat
     let row := if fromQueue then y.cands.headD s.pprRow else s.pprRow
     let no := s.on F.HOLD_PPR_STATUS_BUSY 0 = true ∨ 24 ≤ ch.toNat ∨ s.chLive ch.toNat = false ∨ (fromQueue = true ∧ y.cands = [])
     let waits := fun hard (t : State) =>
       ({ (if fromQueue then s.setHc ch.toNat { y with cands := y.cands.drop 1 } else s) with repair := some ⟨ch.toNat, row, hard⟩, lastStatus := .ok, lastValue := 0 } :
         State).Becomes t [(F.HOLD_PPR_STATUS_BUSY, 0, 1)] false
     (s.Accepts ag .HOLD_PPR_CMD 0 (pprValue ch.toNat fromQueue false) →
       (no → exec (.softRepairRequest ag ch fromQueue) s = .next (s.answer .refusedState 0)) ∧ (¬ no → Does (.softRepairRequest ag ch fromQueue) s (waits false))) ∧
     (s.Accepts ag .HOLD_PPR_CMD 0 (pprValue ch.toNat fromQueue true) →
       (no ∨ s.service = true → exec (.hardRepair ag ch fromQueue) s = .next (s.answer .refusedState 0)) ∧
       (¬ no → s.service = false → Does (.hardRepair ag ch fromQueue) s (waits true)))) ∧
    (s.repair = none → (∀ b, exec (.repairWindow res b) s = .next s) ∧ exec .repairNoWindow s = .next s ∧ exec (.hardRepairDone res) s = .next s) ∧
    (∀ r, s.repair = some r →
      let done := fun (n : Nat) (u : State) => s.Becomes u [(F.HOLD_PPR_STATUS_BUSY, 0, 0), (F.HOLD_PPR_STATUS_RESULT, 0, n), (F.HOLD_EVENT_PPR_DONE, 0, 1)] true
      (r.hard = true → (∀ b, exec (.repairWindow res b) s = .next s) ∧ exec .repairNoWindow s = .next s ∧ DoesThen (.hardRepairDone res) s
        (fun u => if res.val = 0 then ({ u with repair := none } : State) else ({ u with repair := none } : State).retireRow r.ch r.row) (done (res.val + 1))) ∧
      (r.hard = false → exec (.hardRepairDone res) s = .next s ∧
        (s.windowOpens r.ch = false → ∀ b, exec (.repairWindow res b) s = .next s) ∧
        (s.windowOpens r.ch = true → ∀ b, exec (.repairWindow res b) s =
          .next (s.unlessReset (s.rowErrors r.ch r.row b) fun u => (u.softEnd r (res.val + 1)).ueCheck r.ch)) ∧
        DoesThen .repairNoWindow s
          (fun u => (({ u with repair := none } : State).retireRow r.ch r.row).journalAdd 2 [r.ch, r.row.rank, r.row.lrank, r.row.bg, r.row.bank, r.row.row, 4]) (done 4)))

/-! ### Protection and the merge (chapter 8) -/

/-- A tunnel's next bundle is placed where its mode allows, control before resent before new ones, or waits; two copies never share a path or a bay. Only in Standby, with no port of the active path ready, does a bundle wait in a queue of a port that is not. A mode is a budget commit, refused if undefined. A switch is asked for only in Standby, pends unless the path is active, and takes effect when it may, from 1 ms on also with a part of its ports. A SEQ whose deadline passed is
judged; with nothing heard of it, or early, nothing happens. A first copy waiting 20 µs is spilt where Aligned merge holds it and the store has room, and is read back; one with a lost word counts as missing. After ACK_INT, 8 µs at least, an ACK is sent when it changed or 64 intervals passed, and the age grows else. A resend run is sent again after its wait, or, out of tries, its members become gaps of cause 7.
Ride-through is entered and ended by command for the tunnels that allow it; drain starts when a path is ready and reads the oldest SEQ of the backlog; it stalls where nothing left the backlog for 100 ms. -/
def Obligations.ProtectionAndMerge : Prop :=
  ∀ (s : State) (ag : Agent) (t : Fin 24) (v : W32) (seq first : W64) (path : Fin 2),
    let p := s.protT t
    let mode := s.rd F.PROT_CFG_MODE 0
    let spot := fun b : Bundle => s.placement t b
    let data := s.txStateNow t = 2 ∧ s.service = true ∧ s.on F.PROT_TUN_STATE_RIDE t = false
    (p.ctrlQ = [] → ¬ data ∨ (p.resendQ = [] ∧ p.sendQ = []) → exec (.bundlePlace t) s = .next s) ∧
    (∀ b, p.ctrlQ.head? = some b ∨ (p.ctrlQ = [] ∧ data ∧ (p.resendQ ++ p.sendQ).head? = some b) →
      ((spot b).ports = [] → exec (.bundlePlace t) s = .next s) ∧
      ((spot b).ports ≠ [] →
        let u := (s.place t b).1
        ((p.ctrlQ ≠ [] → exec (.bundlePlace t) s = .next (u.setProt t { u.protT t with ctrlQ := p.ctrlQ.drop 1 })) ∧
         (p.ctrlQ = [] → p.resendQ ≠ [] → exec (.bundlePlace t) s = .next (u.setProt t { u.protT t with resendQ := p.resendQ.drop 1 })) ∧
         (p.ctrlQ = [] → p.resendQ = [] → exec (.bundlePlace t) s = .next ((u.setProt t { u.protT t with sendQ := p.sendQ.drop 1 }).drainNext t))))) ∧
    (∀ b, (∀ q ∈ (spot b).ports, 2 ≤ s.role q ∧ s.portRoom q b.size = true ∧ (s.on F.PORT_STATUS_TX_READY q = true ∨
        (2 ≤ mode ∧ b.ctrl = false ∧ s.rd F.PROT_STATUS_ACTIVE 0 = s.role q - 2 ∧ s.readyPorts (s.role q - 2) = [] ∧ (s.anyTx = true ∨ s.switchWait = true)))) ∧
      ((spot b).ports.map s.role).Nodup ∧ ((spot b).ports.map fun q => q / 8).Nodup ∧
      (mode = 0 ∨ (mode = 2 ∧ b.ctrl = false) ∨ (s.on F.PROT_TUN_STATE_DRAIN t = true ∧ b.ctrl = false) → (spot b).ports.length ≤ 1)) ∧
    (s.Accepts ag .PROT_CFG 0 v.toNat →
      let m := F.PROT_CFG_MODE.of v.toNat
      let set := [(F.PROT_CFG_PREFER, 0, F.PROT_CFG_PREFER.of v.toNat), (F.PROT_CFG_MODE, 0, m)]
      (m = 3 → exec (.protModeWrite ag v) s = .next (s.answer .refusedState 0)) ∧
      (m ≠ 3 → ∃ w : State, (if m = 2 then s.Becomes w set false else ({ s with switchReq := none } : State).Becomes w ((F.PROT_STATUS_SWITCH_PENDING, 0, 0) :: set) false) ∧
        (let fits := w.holdUpdate.budgetOk = true ∨ (w.holdUpdate.holdCharge ≤ s.holdCharge ∧ w.holdUpdate.budget = s.budget)
         (fits → exec (.protModeWrite ag v) s = .next ((w.holdUpdate.answer .ok 0).settle)) ∧ (¬ fits → exec (.protModeWrite ag v) s = .next (s.answer .refusedBudget 0))))) ∧
    (s.Accepts ag .PROT_SWITCH_CTL 0 v.toNat →
      let x := F.PROT_SWITCH_CTL_ACTIVE.of v.toNat
      let w := F.PROT_SWITCH_CTL_WHEN_READY.of v.toNat
      let set := [(F.PROT_SWITCH_CTL_ACTIVE, 0, x), (F.PROT_SWITCH_CTL_WHEN_READY, 0, w)]
      let idle := s.switchReq = none ∧ s.rd F.PROT_STATUS_ACTIVE 0 = x
      (mode ≠ 2 → exec (.switchRequest ag v) s = .next (s.answer .refusedState 0)) ∧
      (mode = 2 → idle → Does (.switchRequest ag v) s fun u => (s.answer .ok 0).Becomes u set false) ∧
      (mode = 2 → ¬ idle → Does (.switchRequest ag v) s fun u =>
        (({ s with switchReq := some ⟨x, decide (w = 1), s.time⟩ } : State).answer .ok 0).Becomes u ((F.PROT_STATUS_SWITCH_PENDING, 0, 1) :: set) false)) ∧
    (s.switchReq = none → exec .switchEffective s = .next s ∧ exec .switchReadyTimeout s = .next s) ∧
    (∀ q, s.switchReq = some q →
      let code := if q.path = 0 then s.rd F.PROT_STATUS_PATH_A_TX 0 else s.rd F.PROT_STATUS_PATH_B_TX 0
      let old := s.rd F.PROT_STATUS_ACTIVE 0
      let announced := fun w : State => (if old = q.path then w else (List.range 24).foldl (fun z k => z.replay k old) w).event F.PROT_EVENT_SWITCH 0
      let waits := !q.whenReady && (s.readyPorts q.path).isEmpty
      let made := fun w : State => ({ s with switchReq := none, switchWait := waits } : State).Becomes w
        [(F.PROT_STATUS_SWITCH_PENDING, 0, 0), (F.PROT_STATUS_ACTIVE, 0, q.path % 2 ^ F.PROT_STATUS_ACTIVE.w)] false
      let may := q.whenReady = false ∨ code = 2 ∨ (q.since + 2500000 ≤ s.time ∧ code = 1)
      (may → DoesThen .switchEffective s announced made ∧ DoesThen .switchReadyTimeout s announced made) ∧
      (¬ may → exec .switchEffective s = .next s ∧ exec .switchReadyTimeout s = .next s)) ∧
    (let n := seq.toNat
     let past := ∃ a, p.arrivalOf n = some a ∧ a + s.deltaNow t ≤ s.time
     let u := (s.voteRx t).voteSlots t 1
     let p' := u.protT t
     let gone := p'.copiesOf n = [] ∧ p'.decrypting.map Prod.fst ≠ some n ∧ u.lossless t = true ∧ u.inRun t n = false
     let old := n ≤ u.rxD t ∨ n ∈ p'.expired
     (¬ past → exec (.mergeDeadline t seq) s = .next s) ∧
     (past → u.resets ≠ s.resets ∨ old ∨ (gone ∧ 16 ≤ p'.runs.length) → exec (.mergeDeadline t seq) s = .next u) ∧
     (past → u.resets = s.resets → ¬ old → ¬ (gone ∧ 16 ≤ p'.runs.length) → DoesThen (.mergeDeadline t seq) s
       (fun w => (if gone ∧ p'.gapAt n = none then w.missRunStart t n else w).mergeGo t) fun w => w = u.setProt t { p' with expired := p'.expired ++ [n] }) ∧
     (p.copies.find? (fun c => c.seq = n && c.path = path.val && c.place = .stored) = none → exec (.alignmentReadback t seq path) s = .next s) ∧
     (∀ c, p.copies.find? (fun c => c.seq = n && c.path = path.val && c.place = .stored) = some c →
       ((s.readBack t c).2 = true → exec (.alignmentReadback t seq path) s = .next ((s.readBack t c).1.mergeGo t)) ∧
       ((s.readBack t c).2 = false → exec (.alignmentReadback t seq path) s = .next (s.readBack t c).1)) ∧
     (p.copies.find? (fun c => c.seq = n && c.path = path.val && c.place = .buffer) = none → exec (.alignmentSpill t seq path) s = .next s) ∧
     (∀ c, p.copies.find? (fun c => c.seq = n && c.path = path.val && c.place = .buffer) = some c →
       let due := s.aligned t = true ∧ c.arrival + 50000 ≤ s.time ∧ p.decrypting ≠ some (c.seq, c.path)
       let x := s.bufferTake t c
       let m := x.1.mapsScan
       ((∀ e ∈ s.marks, e.region ≠ 2) → (∀ e ∈ s.withheld, e.region ≠ 2) → x.2 = false) ∧
       (¬ due → exec (.alignmentSpill t seq path) s = .next s) ∧
       (due → x.2 = true → exec (.alignmentSpill t seq path) s = .next (x.1.mergeGo t)) ∧
       (due → x.2 = false → m.holdStore .align t c.seq c.path c.bundle false = none → exec (.alignmentSpill t seq path) s = .next m) ∧
       (∀ w, due → x.2 = false → m.holdStore .align t c.seq c.path c.bundle false = some w → exec (.alignmentSpill t seq path) s = .next (w.setProt t
         { w.protT t with copies := (w.protT t).copies.map fun d => if d.seq = c.seq ∧ d.path = c.path then { d with place := .stored } else d })))) ∧
    (let ended := p.ackAt + max 8 (s.rd F.PROT_LL_CFG_ACK_INT 0) * 2500 ≤ s.time
     (s.lossless t = false ∨ s.rxStateNow t ≠ 2 ∨ ¬ ended → exec (.ackTimer t) s = .next s) ∧
     (s.lossless t = true → s.rxStateNow t = 2 → ended →
      let now := (s.rxD t, s.ackMapOf t)
      (p.lastAck ≠ some now ∨ 63 ≤ p.ackAge → exec (.ackTimer t) s =
        .next ((s.setProt t { p with ackAt := s.time, lastAck := some now, ackAge := 0 }).sendCtrl t 0x01 1 (bytesBe 8 now.1 ++ bytesBe 8 now.2))) ∧
      (p.lastAck = some now → p.ackAge < 63 → exec (.ackTimer t) s = .next (s.setProt t { p with ackAt := s.time, ackAge := p.ackAge + 1 })) ∧
      ∀ i : Fin 64, now.2.testBit i = true ↔ ∃ c ∈ p.copies, c.seq = now.1 + 2 + i.val)) ∧
    (let wait := max 1 (s.rd F.PROT_RESEND_WAIT_WAIT 0) * 2500
     let tries := max 1 (s.rd F.PROT_LL_CFG_TRIES 0)
     let find := p.runs.find? fun r => r.first = first.toNat
     (find = none → exec (.resendWaitExpiry t first) s = .next s) ∧
     (∀ r, find = some r →
       let left := groups (s.runMissing t r)
       (s.time < r.sentAt + wait → exec (.resendWaitExpiry t first) s = .next s) ∧
       (r.sentAt + wait ≤ s.time → r.tries < tries → DoesThen (.resendWaitExpiry t first) s (fun w => left.foldl (fun u g => u.sendResend t g.1 g.2) w) fun w =>
         w = s.setProt t { p with runs := p.runs.map fun q => if q.first = r.first then { q with tries := q.tries + 1, sentAt := s.time } else q }) ∧
       (r.sentAt + wait ≤ s.time → tries ≤ r.tries → DoesThen (.resendWaitExpiry t first) s (fun w => (w.mergeStatus t).mergeGo t) fun w =>
         (s.setProt t { p with runs := p.runs.filter fun q => q.first ≠ r.first, gaps := p.gaps ++ left.map fun g => ⟨g.1, g.2, 7⟩ }).Becomes w
           [(F.PROT_EVENT_RESEND_EXHAUSTED, 0, 1)] true))) ∧
    (s.Accepts ag .PROT_CTL 0 1 → exec (.rideCmd ag) s =
      .next (((((List.range 24).foldl (fun u k => if u.on F.PROT_TUN_CFG_RIDE_EN k then u.rideEnter k else u) s).answer .ok 0)).settle)) ∧
    (s.Accepts ag .PROT_CTL 0 2 → exec (.endRide ag) s = .next (((((List.range 24).foldl (fun u k => u.drainStart k) s).answer .ok 0)).settle)) ∧
    (∀ w : State, (w.on F.PROT_TUN_STATE_RIDE t = false → (w.rideEnter t).rd F.PROT_TUN_STATE_RIDE t = 1 ∧ (w.rideEnter t).rd F.PROT_TUN_STATE_DRAIN t = 0 ∧
        (w.rideEnter t).rd F.PROT_STATUS_RIDE 0 = 1) ∧
      (w.on F.PROT_TUN_STATE_RIDE t = true → w.rideEnter t = w)) ∧
    (s.anyTx = false ∨ s.on F.PROT_TUN_STATE_RIDE t = false → exec (.drainStart t) s = .next s) ∧
    (s.anyTx = true → s.on F.PROT_TUN_STATE_RIDE t = true → DoesThen (.drainStart t) s (fun w => (w.rideStatus.event F.PROT_EVENT_RIDE 0).drainNext t) fun w =>
      (s.setProt t { p with fellAt := s.time }).Becomes w [(F.PROT_TUN_STATE_RIDE, t.val, 0), (F.PROT_TUN_STATE_DRAIN, t.val, 1)] false) ∧
    (∀ (w : State) n rest h, w.on F.PROT_TUN_STATE_DRAIN t = true → (∀ r ∈ w.heldReads, r.kind = .ride → r.tunnel ≠ t.val) → (w.protT t).sendQ = [] →
      (w.protT t).backlog = n :: rest → w.rideCopy t n = some h → w.copyLost h ≠ 2 → w.drainNext t = w.readCopy h) ∧
    (let stalls := s.on F.PROT_TUN_STATE_DRAIN t = true ∧ p.backlog ≠ [] ∧ p.fellAt + 250000000 ≤ s.time
     (stalls → Does (.drainStall t) s fun u => s.Becomes u [(F.PROT_EVENT_DRAIN_STALL, 0, 1)] true) ∧ (¬ stalls → exec (.drainStall t) s = .next s))

/-! ### Decimation chain and lane monitors (chapter 9) -/

/-- While the Smoke receiver owns the chain its configuration, coefficients and switch are refused. A profile loads both banks with its moving average and unsettles the chain. Coefficients are not written to the active bank, nor to either during a cross-fade; SWITCH starts one of 64 outputs, or changes the bank of a stopped chain. An output, once its samples are in, carries its flags and its time less the chain's delay,
is limited to ±32,767, recorded by a capture that is on, and lowers the counts; the last of a cross-fade makes the new bank active. A capture starts empty, is refused while one runs, and stops by command or at its length. A monitor run is refused on a lane that is not Lit and changes nothing while one runs; it ends at its length. A window of signal quality, once it has its decisions and no LOS freeze holds it, gives the mean and
deviation of each level seen and the ratio level mismatch. An output is stated of what the read of its coefficients leaves. -/
def Obligations.DecimationAndMonitors : Prop :=
  ∀ (s : State) (ag : Agent) (n : Fin 48) (v : W32) (samples : List AdcIn),
    let owned := s.on F.LANE_DEC_CFG_SMOKE_OWNED n = true
    let d := s.decOf n
    let k := s.rd F.LANE_DEC_COEF_ADDR_INDEX n
    let next := (F.LANE_DEC_COEF_ADDR_INDEX, n.val, (k + 1) % 2 ^ F.LANE_DEC_COEF_ADDR_INDEX.w)
    let bank := s.rd F.LANE_DEC_STATUS_ACTIVE_BANK n
    let fading := s.on F.LANE_DEC_STATUS_XFADE_BUSY n = true
    let ok := s.answer .ok 0
    let refuses := fun c : Instr => exec c s = .next (s.answer .refusedState 0)
    (s.Accepts ag .LANE_DEC_CFG n v.toNat → (owned → refuses (.laneDecCfgWrite ag n v)) ∧
      (¬ owned → DoesThen (.laneDecCfgWrite ag n v) s (fun u => (((u.decProfile n (F.LANE_DEC_CFG_PROFILE.of v.toNat)).decTrack n).answer .ok 0).settle) fun u =>
        s.Becomes u [(F.LANE_DEC_CFG_EN, n.val, F.LANE_DEC_CFG_EN.of v.toNat), (F.LANE_DEC_CFG_MIX_EN, n.val, F.LANE_DEC_CFG_MIX_EN.of v.toNat)] false)) ∧
    (∀ (w : State) (p : Fin 4), let u := w.decProfile n p
      u.rd F.LANE_DEC_CFG_PROFILE n = p.val ∧ u.rd F.LANE_DEC_STATUS_UNSETTLED_LEFT n = decN p ∧
      ∀ (b : Fin 2) (j : Fin 128), u.ld .decCoef (n * 0x1000 + b * 128 + j) = if j.val < decT4 p then 16384 / decT4 p else 0) ∧
    (let store := s.memWrite 6 (laneWord n (0x400 + k)) .decCoef (n * 0x1000 + k) (sext32 16 v.toNat)
     let cmd := Instr.laneDecCoefData ag n (some v)
     (s.Accepts ag .LANE_DEC_COEF_DATA n v.toNat →
       (owned → refuses cmd) ∧
       (¬ owned → k < 0x100 → fading ∨ k / 128 = bank → refuses cmd) ∧
       (¬ owned → k < 0x100 → ¬ fading → k / 128 ≠ bank → Does cmd s fun t => (store.answer .ok 0).Becomes t [next] false) ∧
       (¬ owned → 0x100 ≤ k → k < 0x120 → Does cmd s fun t => (store.answer .ok 0).Becomes t
         [next, (F.LANE_DEC_STATUS_UNSETTLED_LEFT, n.val, decN (s.rd F.LANE_DEC_CFG_PROFILE n))] false) ∧
       (¬ owned → 0x120 ≤ k → Does cmd s fun t => ok.Becomes t [next] false)) ∧
     (s.readCheck ag .LANE_DEC_COEF_DATA n = none →
       let r := s.memReadL 6 (laneWord n (0x400 + k)) (s.ld .decCoef (n * 0x1000 + k))
       let next := (F.LANE_DEC_COEF_ADDR_INDEX, n.val, (r.1.rd F.LANE_DEC_COEF_ADDR_INDEX n + 1) % 2 ^ F.LANE_DEC_COEF_ADDR_INDEX.w)
       (0x120 ≤ k → Does (.laneDecCoefData ag n none) s fun t => ok.Becomes t [(next.1, n.val, (k + 1) % 2 ^ F.LANE_DEC_COEF_ADDR_INDEX.w)] false) ∧
       (∀ x, k < 0x120 → r.2.1 = .good x → DoesThen (.laneDecCoefData ag n none) s (fun u => (u.errorLines r.2.2).answer .ok x) fun u => r.1.Becomes u [next] false) ∧
       (k < 0x120 → r.2.1 = .bad → DoesThen (.laneDecCoefData ag n none) s
         (fun u => ((u.laneForce n 3).errorLines (r.2.2 ++ [(n.val / 8, n.val % 8, 3)])).answer .poisoned 0) fun u => r.1.Becomes u [next] false))) ∧
    (s.Accepts ag .LANE_DEC_SWITCH n v.toNat →
      let on := F.LANE_DEC_SWITCH_SWITCH.of v.toNat = 1
      let running := s.on F.LANE_DEC_STATUS_RUNNING n = true
      (owned ∨ (on ∧ fading) → refuses (.decSwitch ag n v)) ∧ (¬ owned → ¬ on → exec (.decSwitch ag n v) s = .next ok) ∧
      (¬ owned → on → ¬ fading → running → Does (.decSwitch ag n v) s fun t =>
        ok.Becomes t [(F.LANE_DEC_STATUS_XFADE_BUSY, n.val, 1), (F.LANE_DEC_STATUS_TRANSITION_LEFT, n.val, 64)] false) ∧
      (¬ owned → on → ¬ fading → ¬ running → Does (.decSwitch ag n v) s fun t => ok.Becomes t [(F.LANE_DEC_STATUS_ACTIVE_BANK, n.val, 1 - bank)] false)) ∧
    let xs := (samples.map AdcIn.convert).take (s.decSamples n)
    (s.on F.LANE_DEC_STATUS_RUNNING n = false ∨ samples.length < s.decSamples n → exec (.decOutput n samples) s = .next s) ∧
    (s.on F.LANE_DEC_STATUS_RUNNING n = true → s.decSamples n ≤ samples.length → s.Canonical →
      let r := s.laneScan n 0x400 0x520
      let d := r.decOf n
      let p := r.rd F.LANE_DEC_CFG_PROFILE n
      let a := r.stageOne n xs
      let b := stageTwo (decR2 p) d.means a
      let c := r.stageThree n d.combs b
      let line := ((r.mix n d.phase c).reverse ++ d.line).take 128
      let d' := { d with means := lastOf 252 (d.means ++ a), combs := lastOf 31 (d.combs ++ b), line := line
                         phase := (d.phase + r.rd F.LANE_DEC_NCO_INC n * c.length) % 2 ^ 32 }
      let i := r.decValue n (line.map fun x => x.1)
      let q := if r.on F.LANE_DEC_CFG_MIX_EN n then r.decValue n (line.map fun x => x.2) else 0
      let left := r.rd F.LANE_DEC_STATUS_TRANSITION_LEFT n
      let unsettled := r.rd F.LANE_DEC_STATUS_UNSETTLED_LEFT n
      let sat := 32767 < i ∨ i < -32767 ∨ 32767 < q ∨ q < -32767
      let flags := (if left ≠ 0 then 1 else 0) + (if unsettled ≠ 0 then 2 else 0) + (if ∃ e ∈ xs, e.2 = true then 4 else 0) + (if sat then 8 else 0) +
        (if r.rd F.LANE_DEC_STATUS_INPUT n = 2 then 16 else 0)
      let modem := fun u : State => u.smokeInput n (clampInt (-32767) 32767 i) (clampInt (-32767) 32767 q) flags
      let sample := sfield 16 (clampInt (-32767) 32767 i) + sfield 16 (clampInt (-32767) 32767 q) * 2 ^ 16 + flags * 2 ^ 32
      let counts := (F.LANE_DEC_STATUS_UNSETTLED_LEFT, n.val, unsettled - 1) :: (if left ≠ 1 then [(F.LANE_DEC_STATUS_TRANSITION_LEFT, n.val, left - 1)] else if r.on F.LANE_DEC_STATUS_XFADE_BUSY n then
        [(F.LANE_DEC_STATUS_TRANSITION_LEFT, n.val, 0), (F.LANE_DEC_STATUS_XFADE_BUSY, n.val, 0), (F.LANE_DEC_STATUS_ACTIVE_BANK, n.val, 1 - r.rd F.LANE_DEC_STATUS_ACTIVE_BANK n)] else [])
      let records := r.on F.LANE_DEC_CAP_STATUS_BUSY n = true ∧ (d.capOn = true ∨ d.capWait = false ∨ flags % 4 = 0)
      let c := r.rd F.LANE_DEC_CAP_STATUS_COUNT n
      (¬ records → Does (.decOutput n samples) s fun t => (modem (r.setDec n d')).Becomes t counts false) ∧
      (records → c < 1024 → Does (.decOutput n samples) s fun t =>
        (modem ((r.setDec n { d' with capOn := true }).st .capBuf (n * 1024 + c) sample)).Becomes t (counts ++ [(F.LANE_DEC_CAP_STATUS_COUNT, n.val, c + 1),
          (F.LANE_DEC_CAP_STATUS_FLAGS_SEEN, n.val, Nat.lor (r.rd F.LANE_DEC_CAP_STATUS_FLAGS_SEEN n) flags)] ++
          (if c = 0 then [(F.LANE_DEC_CAP_TS_LO_TIME, n.val, s.decStamp n % 2 ^ 32), (F.LANE_DEC_CAP_TS_HI_TIME, n.val, s.decStamp n / 2 ^ 32)] else []) ++
          (if d.capLen ≤ c + 1 then [(F.LANE_DEC_CAP_STATUS_BUSY, n.val, 0), (F.LANE_DEC_CAP_STATUS_DONE, n.val, 1)] else [])) false)) ∧
    (s.Accepts ag .LANE_DEC_CAP_CTL n v.toNat →
      let both := fun P => Does (.decCaptureStart ag n v) s P ∧ Does (.decCaptureStop ag n v) s P
      let busy := s.on F.LANE_DEC_CAP_STATUS_BUSY n = true
      let start := F.LANE_DEC_CAP_CTL_START.of v.toNat = 1
      let stop := F.LANE_DEC_CAP_CTL_STOP.of v.toNat = 1
      let set := [(F.LANE_DEC_CAP_CTL_LEN, n.val, F.LANE_DEC_CAP_CTL_LEN.of v.toNat), (F.LANE_DEC_CAP_CTL_WAIT_SETTLED, n.val, F.LANE_DEC_CAP_CTL_WAIT_SETTLED.of v.toNat)]
      (start → busy → both fun t => t = s.answer .refusedState 0) ∧
      (start → ¬ busy → both fun t => (((s.clearMem .capBuf fun j => j / 1024 = n.val).setDec n
        { d with capLen := clampNat 1 1024 (F.LANE_DEC_CAP_CTL_LEN.of v.toNat), capWait := decide (F.LANE_DEC_CAP_CTL_WAIT_SETTLED.of v.toNat = 1), capOn := false }).answer
          .ok 0).Becomes t (set ++ [(F.LANE_DEC_CAP_STATUS_COUNT, n.val, 0), (F.LANE_DEC_CAP_STATUS_FLAGS_SEEN, n.val, 0), (F.LANE_DEC_CAP_STATUS_ABANDONED, n.val, 0),
            (F.LANE_DEC_CAP_STATUS_DONE, n.val, 0), (F.LANE_DEC_CAP_STATUS_BUSY, n.val, 1)]) false) ∧
      (¬ start → stop ∧ busy → both fun t =>
        ok.Becomes t (set ++ [(F.LANE_DEC_CAP_STATUS_BUSY, n.val, 0), (F.LANE_DEC_CAP_STATUS_DONE, n.val, 1)]) false) ∧
      (¬ start → ¬ (stop ∧ busy) → both fun t => ok.Becomes t set false)) ∧
    (s.readCheck ag .LANE_DEC_CAP_DATA_LO n = none → s.captured ag.reader .LANE_DEC_CAP_DATA_LO n = none → Does (.laneDecCapData ag n) s fun t =>
      t.lastStatus = .ok ∧ t.lastValue = s.ld .capBuf (n * 1024 + s.rd F.LANE_DEC_CAP_ADDR_INDEX n) % 2 ^ 32 ∧
      t.captured ag.reader .LANE_DEC_CAP_DATA_HI n = some (s.view ag .LANE_DEC_CAP_DATA_HI n) ∧
      ({ s with captures := t.captures, lastStatus := .ok, lastValue := t.lastValue } : State).Becomes t
        [(F.LANE_DEC_CAP_ADDR_INDEX, n.val, (s.rd F.LANE_DEC_CAP_ADDR_INDEX n + 1) % 1024)] false) ∧
    (∀ x, s.readCheck ag .LANE_DEC_CAP_DATA_LO n = none → s.captured ag.reader .LANE_DEC_CAP_DATA_LO n = some x →
      exec (.laneDecCapData ag n) s = .next ((s.releaseCapture ag.reader .LANE_DEC_CAP_DATA_LO n).answer .ok x)) ∧
    (s.Accepts ag .LANE_MON_CTL n v.toNat →
      let both := fun P => Does (.monStart ag n v) s P ∧ Does (.monStop ag n v) s P
      let fields := [F.LANE_MON_CTL_LOG2, F.LANE_MON_CTL_PHASE, F.LANE_MON_CTL_LEVEL, F.LANE_MON_CTL_LEVEL_EN, F.LANE_MON_CTL_MODE]
      let set := fields.map fun f => (f, n.val, f.of v.toNat)
      let changes := ∃ f ∈ fields, f.of v.toNat ≠ s.rd f n
      let busy := s.on F.LANE_MON_STATUS_BUSY n = true
      let start := F.LANE_MON_CTL_START.of v.toNat = 1
      let stop := F.LANE_MON_CTL_STOP.of v.toNat = 1
      (busy → start ∨ changes → both fun t => t = s.answer .refusedState 0) ∧ (busy → ¬ start → ¬ changes → ¬ stop → both fun t => t = ok) ∧
      (busy → ¬ start → ¬ changes → stop → both fun t =>
        ok.Becomes t [(F.LANE_MON_STATUS_BUSY, n.val, 0), (F.LANE_MON_STATUS_PAUSED, n.val, 0), (F.LANE_MON_STATUS_DONE, n.val, 1)] false) ∧
      (¬ busy → start → s.laneLit n = false → both fun t => t = s.answer .refusedState 0) ∧ (¬ busy → ¬ start → both fun t => ok.Becomes t set false) ∧
      (¬ busy → start → s.laneLit n = true → both fun t => (((s.clearMem .hist fun j => j / 256 = n.val).laneMod n fun l => { l with rx := { l.rx with eye := [] } }).answer .ok 0).Becomes t
        (set ++ [(F.LANE_MON_HIST_TOTAL_COUNT, n.val, 0), (F.LANE_MON_HIST_OVR_COUNT, n.val, 0), (F.LANE_MON_STATUS_DONE, n.val, 0), (F.LANE_MON_STATUS_ABANDONED, n.val, 0),
          (F.LANE_MON_STATUS_BUSY, n.val, 1), (F.LANE_MON_STATUS_PAUSED, n.val,
            if F.LANE_MON_CTL_MODE.of v.toNat = 2 ∧ s.on F.LANE_SEASON_STATUS_BUSY n = true then 1 else 0)]) false)) ∧
    (let over' := s.on F.LANE_MON_STATUS_BUSY n = true ∧ 2 ^ clampNat 10 31 (s.rd F.LANE_MON_CTL_LOG2 n) ≤ s.rd F.LANE_MON_HIST_TOTAL_COUNT n
     (¬ over' → exec (.monRunEnd n) s = .next s) ∧
     (over' → Does (.monRunEnd n) s fun t =>
       s.Becomes t [(F.LANE_MON_STATUS_BUSY, n.val, 0), (F.LANE_MON_STATUS_PAUSED, n.val, 0), (F.LANE_MON_STATUS_DONE, n.val, 1)] false)) ∧
    (let bin := s.rd F.LANE_MON_HIST_ADDR_BIN n
     s.readCheck ag .LANE_MON_HIST_DATA n = none → Does (.laneMonHistData ag n) s fun t =>
       (s.answer .ok (s.ld .hist (n * 256 + bin))).Becomes t [(F.LANE_MON_HIST_ADDR_BIN, n.val, (bin + 1) % 256)] false) ∧
    (let sums := (s.lane n).rx.sq
     let ends := s.laneLit n = true ∧ s.sqHeld n = false ∧ 2 ^ clampNat 10 24 (s.rd F.LANE_MON_SQ_CFG_LOG2 n) ≤ (sums.map fun e => e.2.count).sum
     let set := fun t : State => (List.range 4).flatMap (fun j => [((sqFlds j).1, n.val, t.rd (sqFlds j).1 n), ((sqFlds j).2, n.val, t.rd (sqFlds j).2 n)]) ++
       [(F.LANE_MON_SQ_RLM_VALID, n.val, 1), (F.LANE_MON_SQ_RLM_RLM, n.val, t.rd F.LANE_MON_SQ_RLM_RLM n)]
     let mean := fun (t : State) k => sval 16 (t.rd (sqFlds k).1 n)
     (¬ ends → exec (.sqWindowEnd n) s = .next s) ∧
     (ends → Does (.sqWindowEnd n) s fun t =>
       (({ s with freeCtr := t.freeCtr } : State).laneMod n fun l => { l with rx := { l.rx with sq := [] } }).Becomes t (set t) false ∧
       (∀ j < 4, let a := Amap.get SqSum.init sums j; a.count ≠ 0 →
         t.rd (sqFlds j).1 n = sfield 16 a.mean ∧ t.rd (sqFlds j).2 n = a.sigma % 2 ^ (sqFlds j).2.w) ∧
       (∀ r, rlmOf (mean t 0) (mean t 1) (mean t 2) (mean t 3) = some r → t.rd F.LANE_MON_SQ_RLM_RLM n = r % 2 ^ F.LANE_MON_SQ_RLM_RLM.w)))

/-! ### The Smoke channel (chapter 10) -/

/-- For every spreading factor, code rate and run of up to 66 bytes: the bytes of the coded, interleaved and Gray-mapped chirps are the bytes; whitening twice with one FSEQ gives the bytes back; a codeword of rate 4/7 or 4/8 with one bit
in error still decodes to its nibble. A frame begins with 8 up-chirps, 2 sync chirps and 3 down-chirps. -/
def Obligations.SmokeCodingRoundTrip : Prop :=
  (∀ (sf : Nat) (cr : Fin 4) (b : List Nat), 6 ≤ sf → sf ≤ 12 → b.length ≤ 66 → (∀ x ∈ b, x < 256) →
    (chirpBytes sf cr (chirpsOf sf cr 132 (nibbles b))).take b.length = b ∧ (∀ v ∈ chirpsOf sf cr 132 (nibbles b), v < 2 ^ sf)) ∧
  (∀ (fseq : Nat) (b : List Nat), whiten fseq (whiten fseq b) = b) ∧
  (∀ (cr : Fin 4) (d : Fin 16) (i : Nat), decodeNibble cr (codeNibble cr d) = d ∧ (codeNibble cr d).length = 5 + cr ∧
    (2 ≤ cr.val → i < 5 + cr → decodeNibble cr ((codeNibble cr d).set i (!(codeNibble cr d).getD i false)) = d)) ∧
  (∀ (sf sync cr : Nat) (h p : List Nat), (frameChirps sf sync cr h p).take 13 =
    List.replicate 8 (some (2 ^ (sf - 1))) ++ [some (2 ^ (sf - 6) * (sync / 64)), some (2 ^ (sf - 6) * (sync % 64))] ++ List.replicate 3 none)

/-- A modem that may send and sends nothing starts the frame due next: a flagged beacon, a GOING_DOWN, a due beacon, then the queue, of four frames. Its end is counted and, if posted, an event. A post is refused with a length its message does not allow or a full queue. SYNC halves from 31 to 33 are refused; a configuration abandons the reception. Without TX_EN
the queue is discarded. Five windows with their peak in one bin and above the threshold start a reception, the gain frozen; both sync chirps lead to the header, a valid header to the payload, and a wrong one, unless a second detection is taken, back to the search. A second detection takes over by a higher peak, after the header by the margin; one in the window that completes a header waits for it. A payload that checks is delivered by its message; another length or
message is counted; queued messages drop on a full queue. -/
def Obligations.SmokeModem : Prop :=
  ∀ (s : State) (ag : Agent) (n : Fin 48) (v : W32) (snr late : Byte) (start freq : BitVec 16) (open' : Bool)
    (fseq : Byte) (body : List Byte),
    let x := s.smk n
    let st := s.rd F.SMOKE_STATUS_RX_STATE n
    let sf := s.smokeSf n
    let fresh := fun (last : List (Nat × Nat × Nat)) (held : List (Int × Int)) =>
      { x.rx with last := last, held := held, behind := [], sym := [], syms := [], rate := 0, second := none }
    let up := fun (w : State) (f : Fld) => (f, n.val, min (w.rd f n + 1) (2 ^ f.w - 1))
    let sends := s.on F.SMOKE_CTL_TX_EN n = true ∧ s.on F.LANE_TX_SMOKE_RIPPLE_EN n = true ∧ x.sending = none
    let beacons := s.on F.SMOKE_CTL_BEACON_EN n = true
    let off := s.lanesOff = true ∧ x.going = none
    (∀ f y, s.smokeNext n = some (f, y) → sends → ¬ off → exec (.smokeFrameSend n) s = .next (s.smokeStart n f y)) ∧
    (¬ sends ∨ off ∨ s.smokeNext n = none → exec (.smokeFrameSend n) s = .next s) ∧
    ((beacons ∧ x.firstDue = true → s.smokeNext n = some (⟨1, s.beaconPayload n true, false⟩, { x with firstDue := false, due := false })) ∧
     (¬ (beacons ∧ x.firstDue = true) →
       (∀ r, x.going = some r → s.smokeNext n = some (⟨4, s.goingPayload r, false⟩, { x with going := none })) ∧
       (x.going = none → beacons ∧ x.due = true → s.smokeNext n = some (⟨1, s.beaconPayload n false, false⟩, { x with due := false })) ∧
       (x.going = none → ¬ (beacons ∧ x.due = true) → s.smokeNext n = x.txq.head?.map fun f => (f, { x with txq := x.txq.drop 1 })))) ∧
    (∀ f y, let t := s.smokeStart n f y; (t.smk n).sending = some f ∧ (t.smk n).fseq = (y.fseq + 1) % 256 ∧ (t.smk n).txq = y.txq ∧ t.out.length = s.out.length + 1 ∧ t.regs = s.regs) ∧
    (x.sending = none → exec (.smokeFrameEnd n) s = .next s) ∧
    (∀ f, x.sending = some f → Does (.smokeFrameEnd n) s fun t =>
      let ended := if f.msg = 1 then some s.time else x.beaconAt
      let y := { x with sending := none, chirps := [], blocks := 0, beaconAt := ended }
      ((s.setSmk n y).setLane n { s.lane n with smoke := y, depth := clampNat 4 32 (s.rd F.LANE_TX_SMOKE_DEPTH n) }).Becomes t
        ([up s F.SMOKE_CNT_FRAMES_TX_V, (F.LANE_TX_SMOKE_DEPTH_PENDING, n.val, 0)] ++ if f.posted then [(F.SMOKE_EVENT_TX_DONE, n.val, 1)] else []) true) ∧
    (let due := beacons ∧ ∃ a, x.beaconAt = some a ∧ a + max 1 (s.rd F.SMOKE_CTL_BEACON_INT n) * 2500000000 ≤ s.time
     (due → exec (.beaconDue n) s = .next (s.setSmk n { x with due := true })) ∧ (¬ due → exec (.beaconDue n) s = .next s)) ∧
    (s.Accepts ag .SMOKE_TX_POST n v.toNat →
      let msg := F.SMOKE_TX_POST_MSG.of v.toNat
      let len := F.SMOKE_TX_POST_LEN.of v.toNat
      let allowed := (msg = 3 ∧ len = 14) ∨ (msg = 4 ∧ len = 8) ∨ (msg = 5 ∧ 1 ≤ len ∧ len ≤ 64)
      (¬ allowed ∨ 4 ≤ x.txq.length → exec (.smokeTxPost ag n v) s = .next (s.answer .refusedState 0)) ∧
      (allowed → x.txq.length < 4 → ∃ bytes, bytes.length = len ∧ (∀ i < len, bytes.getD i 0 = s.rd F.SMOKE_TX_BUF_DATA (16 * n + i / 4) / 2 ^ (24 - 8 * (i % 4)) % 256) ∧
        exec (.smokeTxPost ag n v) s = .next ((s.setSmk n { x with txq := x.txq ++ [⟨msg, bytes, true⟩] }).answer .ok 0))) ∧
    (s.Accepts ag .SMOKE_RX_POP n v.toNat → exec (.smokeRxPop ag n v) s = .next ((s.setSmk n { x with rxq := x.rxq.drop 1 }).answer .ok 0)) ∧
    (s.Accepts ag .SMOKE_CFG n v.toNat →
      let sync := F.SMOKE_CFG_SYNC.of v.toNat
      let bad := (31 ≤ sync / 64 ∧ sync / 64 ≤ 33) ∨ (31 ≤ sync % 64 ∧ sync % 64 ≤ 33)
      let set := (Reg.fields .SMOKE_CFG).map fun f => (f, n.val, f.of v.toNat)
      (bad → exec (.smokeCfgWrite ag n v) s = .next (s.answer .refusedState 0)) ∧
      (¬ bad → st = 0 → Does (.smokeCfgWrite ag n v) s fun t => (s.answer .ok 0).Becomes t set false) ∧
      (¬ bad → st ≠ 0 → DoesThen (.smokeCfgWrite ag n v) s
        (fun u => ((if F.SMOKE_CFG_BW.of v.toNat = s.rd F.SMOKE_CFG_BW n then u else u.smokeOwn n).answer .ok 0).settle) fun u =>
        (s.setSmk n { x with hdr := none, peak := 0, ratio := 0, gainLeft := none, rx := SmokeRx.init }).Becomes u
          (set ++ [(F.SMOKE_STATUS_RX_STATE, n.val, 1)] ++ if 2 ≤ st then [(F.SMOKE_STATUS_LAST_RX, n.val, 6)] else []) false)) ∧
    (s.Accepts ag .SMOKE_CTL n v.toNat →
      let set := (Reg.fields .SMOKE_CTL).map fun f => (f, n.val, f.of v.toNat)
      let rose := F.SMOKE_CTL_RX_EN.of v.toNat = 1 ∧ s.on F.SMOKE_CTL_RX_EN n = false
      let after := fun u : State => (((if rose then u.put F.SMOKE_PEER_INFO_VALID n false else u).smokeTrack n).answer .ok 0).settle
      (F.SMOKE_CTL_TX_EN.of v.toNat = 1 → DoesThen (.smokeCtlWrite ag n v) s after fun u => s.Becomes u set false) ∧
      (F.SMOKE_CTL_TX_EN.of v.toNat = 0 → DoesThen (.smokeCtlWrite ag n v) s (fun u => after (u.smokeAbort n)) fun u =>
        (s.setSmk n { x with txq := [] }).Becomes u set false)) ∧
    (∀ p, s.detects n = some p ↔ ∃ a, x.rx.last.head? = some a ∧ x.rx.last.length = 5 ∧ (∃ r < 2 ^ sf, ∀ w ∈ x.rx.last, binNear sf w.1 r = true) ∧
      (∀ w ∈ x.rx.last, w.2.2 ^ 20 * 10 ^ (s.rd F.SMOKE_CFG_DET_THR n + 4) < (w.2.1 * 2 ^ sf) ^ 20) ∧ p = (a.2.1 * x.rms, peakRatio sf a.2.1 a.2.2)) ∧
    (∀ p, s.detects n = some p → st = 1 → Does (.preambleDetect n) s fun t =>
      (s.setSmk n { x with hdr := none, peak := p.1, ratio := p.2, gainLeft := some 0, rx := fresh [] [] }).Becomes t
        [up s F.SMOKE_CNT_DETECTS_V, (F.SMOKE_STATUS_RX_STATE, n.val, 2)] true) ∧
    (s.detects n = none ∨ st ≠ 1 → exec (.preambleDetect n) s = .next s) ∧
    (let sync := s.rd F.SMOKE_CFG_SYNC n
     let fails := fun (c : Instr) (taken : Option (Nat × Nat)) (last : List (Nat × Nat × Nat)) (behind : List (Int × Int)) (counts : List (Fld × Nat × Nat)) => Does c s fun t =>
       (s.setSmk n { x with hdr := none, peak := (taken.map fun p => p.1).getD 0, ratio := (taken.map fun p => p.2).getD 0, gainLeft := taken.map fun _ => 0
                            rx := fresh last behind }).Becomes t
       (counts ++ [up s F.SMOKE_CNT_HDR_FAIL_V, (F.SMOKE_STATUS_LAST_RX, n.val, 2), (F.SMOKE_STATUS_RX_STATE, n.val, if taken.isSome then 2 else 1)]) true
     let cmd := Instr.smokeSyncCheck n start late freq
     let est := x.rx.aligned sf (s.smokeHertz n) start.toNat late.toNat freq.toInt (s.decF1 n)
     (st ≠ 2 ∨ est = none → exec cmd s = .next s) ∧
     (∀ a b y, st = 2 → est = some (a, b, y) →
       let near := binNear sf a (2 ^ (sf - 6) * (sync / 64)) = true ∧ binNear sf b (2 ^ (sf - 6) * (sync % 64)) = true
       (near → Does cmd s fun t => (s.setSmk n { x with rx := y }).Becomes t [(F.SMOKE_STATUS_RX_STATE, n.val, 3)] false) ∧ (¬ near → fails cmd none x.rx.last [] [])) ∧
     (∀ a b, binNear sf a b = true ↔ (a % 2 ^ sf = b % 2 ^ sf ∨ (a + 1) % 2 ^ sf = b % 2 ^ sf ∨ a % 2 ^ sf = (b + 1) % 2 ^ sf)) ∧
     let cmd := Instr.smokeHeader n snr open'
     let used := 8 * ((12 + sf - 1) / sf)
     let read := st = 3 ∧ used ≤ x.rx.syms.length
     let header := s.headerOf n (x.rx.syms.take used)
     let valid := fun (h : Nat × Nat × Nat × Nat) (u : State) =>
       (s.setSmk n { x with hdr := some h, rx := { x.rx with syms := x.rx.syms.drop used, second := none, behind := [] } }).Becomes u
       [(F.SMOKE_STATUS_RX_STATE, n.val, 4), (F.SMOKE_LINK_FREQ, n.val, sfield 16 x.rx.freq), (F.SMOKE_LINK_PEAK, n.val, x.ratio % 2 ^ F.SMOKE_LINK_PEAK.w),
         (F.SMOKE_LINK_SNR, n.val, snr.toNat)] false
     (¬ read → exec cmd s = .next s) ∧
     (∀ h, read → header = some h → (s.detects n = none → Does cmd s (valid h)) ∧
       (∀ p, s.detects n = some p → ∃ u, valid h u ∧ exec cmd s = exec (.smokeCapture n) u)) ∧
     (read → header = none → s.detects n = none → fails cmd (if open' then x.rx.second else none) x.rx.last (if open' ∧ x.rx.second.isSome then x.rx.behind else []) []) ∧
     (∀ p, read → header = none → s.detects n = some p → fails cmd (some p) [] [] [up s F.SMOKE_CNT_DETECTS_V]) ∧
     (s.detects n = none ∨ st < 2 ∨ read → exec (.smokeCapture n) s = .next s) ∧
     (∀ p, s.detects n = some p → 2 ≤ st → ¬ read →
      let ovr := if x.hdr = none then x.peak < p.1 else x.peak ^ 20 * 10 ^ clampNat 3 12 (s.rd F.SMOKE_CFG_CAP_MARGIN n) ≤ p.1 ^ 20
      (ovr → Does (.smokeCapture n) s fun t =>
        (s.setSmk n { x with hdr := none, peak := p.1, ratio := p.2, gainLeft := some (s.symbolOutputs n), rx := fresh [] [] }).Becomes t [up s F.SMOKE_CNT_DETECTS_V, up s F.SMOKE_CNT_CAPTURED_V,
          (F.SMOKE_STATUS_LAST_RX, n.val, 4), (F.SMOKE_STATUS_RX_STATE, n.val, 2), (F.SMOKE_EVENT_CAPTURED, n.val, 1)] true) ∧
      (¬ ovr → Does (.smokeCapture n) s fun t =>
        (s.setSmk n { x with rx := if x.hdr = none then { x.rx with last := [], second := some p, behind := [] } else { x.rx with last := [] } }).Becomes t
          [up s F.SMOKE_CNT_DETECTS_V] true))) ∧
    (∀ len cr msg fs, x.hdr = some (len, cr, msg, fs) →
      let used := (5 + cr) * ((2 * (len + 2) + sf - 1) / sf)
      let b := whiten fs ((chirpBytes sf cr (x.rx.syms.take used)).take (len + 2))
      let checks := numBe (b.drop len) = crc16 (b.take len)
      let ends := fun (last : Nat) (cnt : Fld) (t : State) =>
        (s.setSmk n { x with hdr := none, peak := 0, ratio := 0, gainLeft := none, rx := fresh x.rx.last [] }).Becomes t
        [up s cnt, (F.SMOKE_STATUS_LAST_RX, n.val, last), (F.SMOKE_STATUS_RX_STATE, n.val, 1)] true
      (st ≠ 4 ∨ x.rx.syms.length < used → exec (.smokeFrameRx n) s = .next s) ∧
      (st = 4 → used ≤ x.rx.syms.length → checks → DoesThen (.smokeFrameRx n) s (fun u => u.smokeDeliver n msg fs (b.take len)) (ends 1 F.SMOKE_CNT_FRAMES_RX_V)) ∧
      (st = 4 → used ≤ x.rx.syms.length → ¬ checks → Does (.smokeFrameRx n) s (ends 3 F.SMOKE_CNT_PAY_FAIL_V))) ∧
    (x.hdr = none → exec (.smokeFrameRx n) s = .next s) ∧
    (let m := body.map fun b => b.toNat
     let bad := fun t : State => s.Becomes t [up s F.SMOKE_CNT_BAD_MSG_V] false
     let queued := fun (msg : Nat) (t : State) => if x.rxq.length < 4 then (s.setSmk n { x with rxq := x.rxq ++ [(msg, fseq.toNat, m)] }).Becomes t [(F.SMOKE_EVENT_RX, n.val, 1)] true
       else s.Becomes t [up s F.SMOKE_CNT_DROPPED_RX, (F.SMOKE_EVENT_DROPPED, n.val, 1)] true
     (st = 0 → exec (.smokeBeacon n body) s = .next s ∧ exec (.smokeControl n body) s = .next s ∧ exec (.smokeFault n fseq body) s = .next s ∧
       exec (.smokeGoingDown n fseq body) s = .next s ∧ exec (.smokeUser n fseq body) s = .next s) ∧
     (st ≠ 0 →
       (m.length = 20 → exec (.smokeBeacon n body) s = .next (s.beaconTake n m)) ∧ (m.length ≠ 20 → Does (.smokeBeacon n body) s bad) ∧
       (36 ≤ m.length ∧ m.length ≤ 64 → exec (.smokeControl n body) s = .next (s.controlTake n m)) ∧ (m.length < 36 ∨ 64 < m.length → Does (.smokeControl n body) s bad) ∧
       (m.length = 14 → Does (.smokeFault n fseq body) s (queued 3)) ∧ (m.length ≠ 14 → Does (.smokeFault n fseq body) s bad) ∧
       (m.length = 8 → Does (.smokeGoingDown n fseq body) s (queued 4)) ∧ (m.length ≠ 8 → Does (.smokeGoingDown n fseq body) s bad) ∧
       (1 ≤ m.length ∧ m.length ≤ 64 → Does (.smokeUser n fseq body) s (queued 5)) ∧ (m.length = 0 ∨ 64 < m.length → Does (.smokeUser n fseq body) s bad)))

/-! ### The Tinder link and its sessions (chapter 11) -/

/-- RESET ends with the widest eye of each lane in PEAK. A valid set counts for its lane, the eighth aligns it, an inverted one toggles POL; all four lanes enter CONFIG; there WIDTH follows the lanes both ends
see until it is fixed, and 8 PEER_SEEN and 8 TS2 on each chosen lane, with 16 TS2 sent, make the link ACTIVE as time runs and send what waits. The lanes carry training sets with the end's MASK and FLAGS, then IDLE with ALIGN every 4,096 groups. Timeouts, a disagreeing MASK, TS1 while ACTIVE, two misplaced ALIGN, more than 8 code errors, RETRAIN and a
fifth replay go to RESET. A sound packet is the command of its TYPE. A packet goes out as SOP, its bytes in turn over the lanes, EOP and PAD. ACK drops packets, NAK replays the rest, a packet with a bad form is counted and answered NAK, an ACK is withheld over 32 requests of a session. -/
def Obligations.LinkTraining : Prop :=
  ∀ (s : State) (ag : Agent) (v : W32) (eyes : List (List (BitVec 16))) (l : Fin 4) (ts : TsSet) (skew : Byte) (errors : BitVec 16)
    (ack : BitVec 12) (bytes : List Byte),
    let st := s.rd F.TINDER_STATUS_STATE 0
    let top := fun f : Fld => 2 ^ f.w - 1
    let retrains := if st = 4 then [(F.TINDER_STATUS_RETRAINS, 0, min (s.rd F.TINDER_STATUS_RETRAINS 0 + 1) (top F.TINDER_STATUS_RETRAINS))] else []
    let back := fun u : State => ({ u with
      lanesAligned := [], tsSeen := [], peerSeen := [], ts2Seen := [], peerMask := 0, misplacedAlign := 0, narrow := false
      linkAt := if st = 0 then s.linkAt else s.time
      downAt := if st = 4 then s.time else s.downAt
      replayBuf := u.replayBuf.map fun e => (e.1, e.2.1, min 1 e.2.2) } : State)
    let down := fun t : State => (back s).Becomes t ((F.TINDER_STATUS_STATE, 0, 0) :: retrains) true
    let still := fun c : Instr => exec c s = .next s
    let eye := fun a k : Nat => ((eyes.getD a []).getD k 0).toNat
    let up := s.blocksHeld = false ∧ s.regionUntested 134 = false ∧ s.regionExcluded 134 = false
    let filled := fun c : Nat => ts.fill.length = 10 ∧ ∀ b ∈ ts.fill, b.toNat = c
    let valid := (ts.id = 0x31#8 ∨ ts.id = 0x32#8) ∧ ts.version = 1#8 ∧ ts.flags.toNat < 8 ∧ ts.mask.toNat < 16 ∧ filled 0x4A
    let fresh := ts.flags.getLsbD 2 = true
    let alone := fun al : List (Nat × Nat) => al.filter fun e => decide (e.2 < 4) && decide ((al.filter fun d => d.2 = e.2).length = 1)
    let late := fun e : Nat × List Nat × Nat => (ack.toNat + 4096 - e.1) % 4096 < 2048
    let sent := fun m : List Nat => Out.tinder (s.lanesUsed.zip (linkStripe s.lanesUsed.length m))
    let kept := s.replayBuf.filter fun e => !decide (late e)
    (∀ (w k j : Nat) (m : List Nat), w = 1 ∨ w = 4 → k < w →
      ((linkStripe w m).getD k [])[j]? = if j * w + k < m.length + 2 then (.sop :: m.map LinkChar.byte ++ [.eop])[j * w + k]?
        else if j * w < m.length + 2 then some .pad else none) ∧
    (¬ up ∨ st ≠ 0 → still (.eqAdaptDone eyes)) ∧
    (up → st = 0 → Does (.eqAdaptDone eyes) s fun t => ({ s with linkAt := s.time } : State).Becomes t ((F.TINDER_STATUS_STATE, 0, 1) ::
        (if s.on F.TINDER_CTL_EQ_ADAPT 0 then (List.range 4).map fun a => (peakFld a, 0, t.rd (peakFld a) 0) else [])) true ∧
      (s.on F.TINDER_CTL_EQ_ADAPT 0 = true → ∀ a < 4, t.rd (peakFld a) 0 < 15 ∧
        ∀ k < 15, eye a k ≤ eye a (t.rd (peakFld a) 0) ∧ (k < t.rd (peakFld a) 0 → eye a k < eye a (t.rd (peakFld a) 0)))) ∧
    (¬ up ∨ st = 0 → still (.tsRx l ts skew)) ∧
    (up → st = 4 → (¬ (valid ∧ ts.id = 0x31#8) → still (.tsRx l ts skew)) ∧ (valid → ts.id = 0x31#8 → ¬ fresh → Does (.tsRx l ts skew) s down) ∧
      (valid → ts.id = 0x31#8 → fresh → DoesThen (.tsRx l ts skew) s State.freshRx fun t => (back s).Becomes t ((F.TINDER_STATUS_STATE, 0, 0) :: retrains) true)) ∧
    (up → st = 1 ∨ st = 2 →
      (filled 0xB5 → Does (.tsRx l ts skew) s fun t => ({ s with tsSeen := Amap.put natLt 0 s.tsSeen l.val 0 } : State).Becomes t
        [(F.TINDER_STATUS_POL, 0, Nat.xor (s.rd F.TINDER_STATUS_POL 0) (2 ^ l.val) % 2 ^ F.TINDER_STATUS_POL.w)] false) ∧
      (¬ filled 0xB5 → ¬ valid → exec (.tsRx l ts skew) s = .next { s with tsSeen := Amap.put natLt 0 s.tsSeen l.val 0 }) ∧
      (valid → fresh → exec (.tsRx l ts skew) s = exec (.tsRx l { ts with flags := ts.flags &&& 3#8 } skew) s.freshRx) ∧
      (valid → ¬ fresh → st = 1 →
        let n := Amap.get 0 s.tsSeen l.val + 1
        let al := if n < 8 then s.lanesAligned else Amap.ins natLt (Amap.erase s.lanesAligned l.val) l.val ts.lane.toNat
        let map := if n < 8 then [] else [(F.TINDER_STATUS_MAP, 0, al.foldl (fun a e => a + e.2 % 4 * 4 ^ e.1) 0 % 2 ^ F.TINDER_STATUS_MAP.w)]
        let u : State := { s with peerMask := ts.mask.toNat, tsSeen := Amap.put natLt 0 s.tsSeen l.val n, lanesAligned := al }
        let all := (alone al).length = 4 ∧ skew.toNat ≤ 64
        (¬ all → Does (.tsRx l ts skew) s fun t => u.Becomes t map false) ∧
        (all → Does (.tsRx l ts skew) s fun t => ({ u with peerSeen := [], ts2Seen := [], linkAt := s.time } : State).Becomes t ((F.TINDER_STATUS_STATE, 0, 2) :: map) true)) ∧
      (valid → ¬ fresh → st = 2 →
        let u : State := { s with peerMask := ts.mask.toNat }
        let lanes := u.chosenLanes
        let fixed := s.chosenLanes ≠ [] ∧ ∀ k ∈ s.chosenLanes, 8 ≤ Amap.get 0 s.peerSeen k
        let width := (F.TINDER_STATUS_WIDTH, 0, if lanes.length = 4 then 1 else 0)
        let w : State := { u with
          peerSeen := if ts.flags.getLsbD 0 then Amap.put natLt 0 s.peerSeen l.val (Amap.get 0 s.peerSeen l.val + 1) else s.peerSeen
          ts2Seen := if ts.id = 0x32#8 then Amap.put natLt 0 s.ts2Seen l.val (Amap.get 0 s.ts2Seen l.val + 1) else s.ts2Seen }
        (s.narrow = false → (alone s.lanesAligned).length = 4 → ts.mask = 15#8 → lanes = [0, 1, 2, 3]) ∧
        (¬ (s.narrow = false ∧ (alone s.lanesAligned).length = 4 ∧ ts.mask = 15#8) → lanes.length ≤ 1 ∧
          (lanes = [] ↔ ∀ e ∈ alone s.lanesAligned, ts.mask.getLsbD e.2 = false) ∧
          ∀ k ∈ lanes, ∃ e ∈ alone s.lanesAligned, e.1 = k ∧ ts.mask.getLsbD e.2 = true ∧ ∀ d ∈ alone s.lanesAligned, ts.mask.getLsbD d.2 = true → e.2 ≤ d.2) ∧
        (fixed → lanes ≠ s.chosenLanes → Does (.tsRx l ts skew) s down) ∧
        (¬ fixed ∨ lanes = s.chosenLanes →
          (l.val ∉ lanes → Does (.tsRx l ts skew) s fun t => u.Becomes t [width] false) ∧
          (l.val ∈ lanes → Does (.tsRx l ts skew) s fun t => w.Becomes t [width] false)))) ∧
    (let chosen := s.chosenLanes
     s.configDone = true ↔ st = 2 ∧ chosen ≠ [] ∧ (∀ k ∈ chosen, 8 ≤ Amap.get 0 s.peerSeen k ∧ 8 ≤ Amap.get 0 s.ts2Seen k) ∧
      (∃ a m f, s.linkFill = .train a true m f) ∧ s.ts2At + 512 ≤ s.time) ∧
    (s.configDone = false → s.linkTick = s.fillShow.alignSend) ∧
    (s.configDone = true → ∃ t, s.linkTick = t.fillShow.alignSend ∧
      ({ s with
        fresh := false, misplacedAlign := 0, alignAt := s.time + 8192, linkAt := s.time, out := s.out ++ s.replayBuf.map (fun e => sent e.2.1)
        replayBuf := s.replayBuf.map fun e => (e.1, e.2.1, e.2.2 + 1) } : State).Becomes t [(F.TINDER_STATUS_STATE, 0, 4), (F.TINDER_ERR_REPLAY, 0, t.rd F.TINDER_ERR_REPLAY 0)] true ∧
      (s.Canonical → t.rd F.TINDER_ERR_REPLAY 0 = min (s.rd F.TINDER_ERR_REPLAY 0 + (s.replayBuf.filter fun e => e.2.2 ≠ 0).length) (top F.TINDER_ERR_REPLAY))) ∧
    (let next := s.fillNow
     let shows := if next = s.linkFill then [] else [Out.linkFill next]
     ∃ at', s.fillShow = { s with linkFill := next, ts2At := at', out := s.out ++ shows } ∧
      ((∃ a m f, s.linkFill = .train a true m f) → at' = s.ts2At) ∧ ((∃ a m f, next = .train a true m f) → (∀ a m f, s.linkFill ≠ .train a true m f) → at' = s.time) ∧
      (next = .quiet ↔ ¬ up) ∧ (up → st = 4 → next = .idle s.lanesUsed) ∧
      (up → st < 4 → st ≠ 3 → ∃ lanes ts2 mask flags, next = .train lanes ts2 mask flags ∧ (ts2 = true → st = 2) ∧ (st ≠ 2 → lanes = [0, 1, 2, 3]) ∧
        (st = 2 → (ts2 = true ↔ s.chosenLanes ≠ [] ∧ ∀ k ∈ s.chosenLanes, 8 ≤ Amap.get 0 s.peerSeen k)) ∧
        (st ≠ 0 → ∀ k, mask.testBit k = true ↔ ∃ e ∈ alone s.lanesAligned, e.2 = k) ∧ (flags.testBit 0 = true ↔ s.lanesAligned ≠ []) ∧
        (flags.testBit 1 = true ↔ st = 2 ∧ ¬ (s.narrow = false ∧ (alone s.lanesAligned).length = 4 ∧ s.peerMask = 15)) ∧ flags.testBit 2 = s.fresh)) ∧
    (s.alignSend = if st = 4 ∧ s.alignAt ≤ s.time then { s with alignAt := s.time + 8192, out := s.out ++ [.linkAlign s.lanesUsed] } else s) ∧
    (s.on F.TINDER_STATUS_WIDTH 0 = true → s.lanesUsed = [0, 1, 2, 3]) ∧ (s.on F.TINDER_STATUS_WIDTH 0 = false → s.lanesUsed.length = 1) ∧
    (∀ ms10, st ≠ 1 ∨ s.time < s.linkAt + (if ms10 then 25000000 else 5000000) → still (.alignTimeout ms10)) ∧
    (st = 1 → s.linkAt + 25000000 ≤ s.time → Does (.alignTimeout true) s down) ∧
    (st = 1 → s.linkAt + 5000000 ≤ s.time → let some1 := s.on F.TINDER_CTL_FALLBACK_EN 0 = true ∧ s.lanesAligned ≠ [] ∧ alone s.lanesAligned = s.lanesAligned
      (some1 → Does (.alignTimeout false) s fun t => ({ s with peerSeen := [], ts2Seen := [], narrow := true, linkAt := s.time } : State).Becomes t
        [(F.TINDER_STATUS_STATE, 0, 2), (F.TINDER_STATUS_WIDTH, 0, 0)] true) ∧ (¬ some1 → still (.alignTimeout false))) ∧
    (st ≠ 2 ∨ s.time < s.linkAt + 5000000 → still .configTimeout) ∧ (st = 2 → s.linkAt + 5000000 ≤ s.time → Does .configTimeout s down) ∧
    (∀ misplaced, st ≠ 4 → still (.alignRx misplaced)) ∧
    (st = 4 → exec (.alignRx false) s = .next { s with misplacedAlign := 0 } ∧
      (s.misplacedAlign = 0 → exec (.alignRx true) s = .next { s with misplacedAlign := 1 }) ∧ (s.misplacedAlign ≠ 0 → Does (.alignRx true) s down)) ∧
    (let code := (F.TINDER_ERR_CODE, 0, min (s.rd F.TINDER_ERR_CODE 0 + errors.toNat) (top F.TINDER_ERR_CODE))
     (st = 4 ∧ 8 < errors.toNat → Does (.codeErrorBurst errors) s fun t => (back s).Becomes t (code :: (F.TINDER_STATUS_STATE, 0, 0) :: retrains) true) ∧
     (¬ (st = 4 ∧ 8 < errors.toNat) → Does (.codeErrorBurst errors) s fun t => s.Becomes t [code] false)) ∧
    (s.Accepts ag .TINDER_CTL 0 v.toNat → DoesThen (.tinderRetrain ag v) s (fun t => if F.TINDER_CTL_RETRAIN.of v.toNat = 1 then t.linkReset else t) fun t =>
      (s.answer .ok 0).Becomes t [(F.TINDER_CTL_SSC_EN, 0, F.TINDER_CTL_SSC_EN.of v.toNat), (F.TINDER_CTL_EQ_ADAPT, 0, F.TINDER_CTL_EQ_ADAPT.of v.toNat),
        (F.TINDER_CTL_FALLBACK_EN, 0, F.TINDER_CTL_FALLBACK_EN.of v.toNat)] false) ∧
    (st ≠ 4 → still (.tinderAck ack) ∧ still (.tinderNak ack) ∧ still (.badPacket bytes) ∧ still .linkAckSend) ∧
    (st = 4 →
      exec (.tinderAck ack) s = .next { s with replayBuf := kept } ∧
      ((∃ e ∈ kept, 5 ≤ e.2.2) → Does (.tinderNak ack) s fun t =>
        (back { s with replayBuf := kept }).Becomes t ((F.TINDER_STATUS_STATE, 0, 0) :: retrains) true) ∧
      ((∀ e ∈ kept, e.2.2 < 5) → Does (.tinderNak ack) s fun t =>
        ({ s with replayBuf := kept.map (fun e => (e.1, e.2.1, e.2.2 + 1)), out := s.out ++ kept.map (fun e => sent e.2.1) } : State).Becomes t
          [(F.TINDER_ERR_REPLAY, 0, t.rd F.TINDER_ERR_REPLAY 0)] false ∧
        (s.Canonical → t.rd F.TINDER_ERR_REPLAY 0 = min (s.rd F.TINDER_ERR_REPLAY 0 + (kept.filter fun e => e.2.2 ≠ 0).length) (top F.TINDER_ERR_REPLAY))) ∧
      (let b := bytes.map BitVec.toNat
       let type := b.getD 0 0
       let len := b.getD 6 0 * 256 + b.getD 7 0
       let body := 12 + if type = 1 then 0 else len
       let sound := lenFits type len = true ∧ b.length = body + 4 ∧ b.drop body = bytesBe 4 (crc32 (b.take body))
       (sound → exec (.badPacket bytes) s = .next (s.packetIn b)) ∧
       (¬ sound → Does (.badPacket bytes) s fun t => ({ s with out := s.out ++ [sent (linkPacket 0xF1 0 ((s.lseqRx + 4095) % 4096) 0 0 [])] } : State).Becomes t
         [(F.TINDER_ERR_PACKET, 0, min (s.rd F.TINDER_ERR_PACKET 0 + 1) (top F.TINDER_ERR_PACKET))] false)) ∧
      (let due := s.ackDue = true ∧ ∀ k ≤ 8, (s.hostWait.filter fun q => q.session = k).length ≤ 32
       (due → exec .linkAckSend s = .next { s with ackDue := false, out := s.out ++ [sent (linkPacket 0xF0 0 ((s.lseqRx + 4095) % 4096) 0 0 [])] }) ∧ (¬ due → still .linkAckSend)))

/-- A sound packet that is the next one is taken, a duplicate acknowledged, another answered NAK; numbers outside 1 to 8 get NO_SESSION. Taken, it waits behind its session's requests; with none there it is done
at once: OPEN opens at Observer or challenges, AUTH opens on the right MAC and else is a failure, CLOSE closes, a burst runs to its first status other than OK and is answered with it and the words read, a posted write only leaves
POSTED_ERR. A link lost for 10 ms closes all sessions, their requests staying to be done unanswered. The service port acts for session 0; a counted wait of an access of 100 µs ends TIMEOUT; a lockout ends after 1 s. -/
def Obligations.HostSessions : Prop :=
  ∀ (s : State) (ag : Agent) (session : Byte) (lseq : BitVec 12) (tag : BitVec 16) (addr : W32) (len count : BitVec 16) (words : List W32) (code : Byte)
    (mac : BitVec 128) (v : W32) (h : Fin 9),
    let k := session.toNat
    let still := fun c : Instr => exec c s = .next s
    let live := s.linkActive = true
    let nak := Out.tinder (s.lanesUsed.zip (linkStripe s.lanesUsed.length (linkPacket 0xF1 0 ((s.lseqRx + 4095) % 4096) 0 0 [])))
    let data := words.map BitVec.toNat
    let tells := fun (u : State) (type status : Nat) (payload : List Nat) => u.send type k tag.toNat status payload
    let locked := s.on F.TINDER_AUTH_LOCKOUT 0 = true
    let failures := min (s.rd F.TINDER_AUTH_FAILURES 0 + 1) (2 ^ F.TINDER_AUTH_FAILURES.w - 1)
    let failed := (F.TINDER_AUTH_FAILURES, 0, failures) :: if 4 ≤ s.authFailures + 1 then [(F.TINDER_AUTH_LOCKOUT, 0, 1)] else []
    let lockAt := if 4 ≤ s.authFailures + 1 then s.time else s.lockAt
    let right := fun (i : Nat) (c : Option (Nat × Nat)) (level m : Nat) => ∃ n asked key, c = some (n, asked) ∧
      (s.accessKeys.find? fun e => e.1 = level) = some (level, key) ∧ m = authMac key n i level
    let taken : State := { s with lseqRx := (s.lseqRx + 1) % 4096, ackDue := true }
    let whole := fun n : Nat => 4 ≤ n ∧ n ≤ 256 ∧ n % 4 = 0
    (∀ (c : Instr) (fit : Prop) (q : HostReq) (rsp : Option Nat),
      (c = .tinderRead session lseq tag addr len ∧ fit = whole len.toNat ∧ q = mkReq k tag.toNat .read addr.toNat [] (len.toNat / 4) ∧ rsp = some 0x81) ∨
      (c = .tinderWrite session lseq tag addr words ∧ fit = whole (4 * words.length) ∧ q = mkReq k tag.toNat .write addr.toNat data words.length ∧ rsp = some 0x82) ∨
      (c = .tinderWritePosted session lseq tag addr words ∧ fit = whole (4 * words.length) ∧ q = mkReq k tag.toNat .posted addr.toNat data words.length ∧ rsp = none) ∨
      (c = .tinderOpen session lseq tag code ∧ fit = True ∧ q = mkReq k tag.toNat (.openAt code.toNat) 0 [] 0 ∧ rsp = some 0x91) ∨
      (c = .tinderAuth session lseq tag mac ∧ fit = True ∧ q = mkReq k tag.toNat (.auth mac.toNat) 0 [] 0 ∧ rsp = some 0x91) ∨
      (c = .tinderClose session lseq tag ∧ fit = True ∧ q = mkReq k tag.toNat .close 0 [] 0 ∧ rsp = some 0x91) →
      (¬ live → still c) ∧
      (live → ¬ fit → Does c s fun t => ({ s with out := s.out ++ [nak] } : State).Becomes t
        [(F.TINDER_ERR_PACKET, 0, min (s.rd F.TINDER_ERR_PACKET 0 + 1) (2 ^ F.TINDER_ERR_PACKET.w - 1))] false) ∧
      (live → fit → lseq.toNat ≠ s.lseqRx →
        ((s.lseqRx + 4096 - lseq.toNat) % 4096 < 2048 → exec c s = .next { s with ackDue := true }) ∧
        (¬ (s.lseqRx + 4096 - lseq.toNat) % 4096 < 2048 → exec c s = .next { s with out := s.out ++ [nak] })) ∧
      (live → fit → lseq.toNat = s.lseqRx →
        (k = 0 ∨ 8 < k → exec c s = .next (match rsp with
          | some r => tells taken r 0x0B []
          | none => taken)) ∧
        (1 ≤ k → k ≤ 8 → exec c s = .next (({ taken with hostWait := s.hostWait ++ [q] } : State).serve k (s.hostWait.length + 1))))) ∧
    (live → lseq.toNat = s.lseqRx → 1 ≤ k → k ≤ 8 → (∀ d ∈ s.hostWait, d.session ≠ k) →
      let se := s.sess k
      let shut := se.isOpen = false
      let set := fun x : Sess => taken.setSess k x
      let ag : Agent := .host (Fin.ofNat 9 k)
      let barred := locked ∧ 1 ≤ code.toNat ∧ code.toNat < 4
      (barred → exec (.tinderOpen session lseq tag code) s = .next (tells taken 0x91 3 [])) ∧
      (¬ barred → ¬ shut ∨ 4 ≤ code.toNat → exec (.tinderOpen session lseq tag code) s = .next (tells taken 0x91 8 [])) ∧
      (shut → code.toNat = 0 → exec (.tinderOpen session lseq tag code) s = .next (tells (set { Sess.init with isOpen := true }) 0x91 0 [])) ∧
      (shut → 1 ≤ code.toNat → code.toNat < 4 → ¬ locked → ∃ n < 2 ^ 64, exec (.tinderOpen session lseq tag code) s =
        .next (tells { set { se with nonce := some (n, code.toNat) } with freeCtr := s.freeCtr + 1 } 0x90 0 (bytesBe 8 n))) ∧
      (locked → exec (.tinderAuth session lseq tag mac) s = .next (tells (set { se with nonce := none }) 0x91 3 [])) ∧
      (¬ locked → (∀ level, right k se.nonce level mac.toNat → se.nonce.map Prod.snd = some level →
        exec (.tinderAuth session lseq tag mac) s = .next (tells { set { se with nonce := none, isOpen := true, priv := level } with authFailures := 0 } 0x91 0 []))) ∧
      (¬ locked → (∀ level, se.nonce.map Prod.snd = some level → ¬ right k se.nonce level mac.toNat) →
        ∃ u, ({ set { se with nonce := none } with authFailures := s.authFailures + 1, lockAt := lockAt } : State).Becomes u failed false ∧ exec (.tinderAuth session lseq tag mac) s = .next (tells u 0x91 3 [])) ∧
      (shut → exec (.tinderClose session lseq tag) s = .next (tells taken 0x91 0x0B [])) ∧
      (¬ shut → ∃ u : State, exec (.tinderClose session lseq tag) s = .next (tells u 0x91 0 []) ∧ u.sess k = Sess.init ∧ (∀ j, j ≠ k → u.sess j = s.sess j) ∧
        (∀ b < 8, u.bank b = { s.bank b with responses := (s.bank b).responses.filter fun r => r.1 ≠ k }) ∧ (∀ b, 8 ≤ b → u.bank b = s.bank b) ∧
        u = { taken with sessions := u.sessions, banks := u.banks, captures := s.captures.filter fun c => c.reader ≠ k }) ∧
      (whole len.toNat →
        (shut → exec (.tinderRead session lseq tag addr len) s = .next (tells taken 0x81 0x0B [])) ∧
        (¬ shut → len = 4#16 →
          let x := taken.accessRead ag addr.toNat false
          let mem := if x.2.1 = .ok then bytesBe 4 x.2.2 else []
          (x.2.1 = .waiting → exec (.tinderRead session lseq tag addr len) s = .next { x.1 with hostWait := mkReq k tag.toNat .read addr.toNat [] 1 :: x.1.hostWait }) ∧
          (x.2.1 ≠ .waiting → exec (.tinderRead session lseq tag addr len) s = .next (tells x.1 0x81 x.2.1.code mem).settle)) ∧
        (¬ shut →
          let x := taken.burst (mkReq k tag.toNat .read addr.toNat [] (len.toNat / 4)) (len.toNat / 4)
          (x.2.2 = .waiting → exec (.tinderRead session lseq tag addr len) s = .next { x.1 with hostWait := x.2.1 :: x.1.hostWait }) ∧
          (x.2.2 = .ok → x.2.1.got.length = len.toNat / 4) ∧
          (x.2.2 ≠ .waiting → exec (.tinderRead session lseq tag addr len) s = .next (tells x.1 0x81 x.2.2.code (x.2.1.got.flatMap (bytesBe 4))).settle))) ∧
      (whole (4 * words.length) →
        (shut → exec (.tinderWrite session lseq tag addr words) s = .next (tells taken 0x82 0x0B []) ∧ exec (.tinderWritePosted session lseq tag addr words) s = .next taken) ∧
        (¬ shut → ∀ w, words = [w] →
          let x := taken.accessWrite ag addr.toNat w.toNat false
          let y := x.1.sess k
          (x.2 ≠ .waiting → exec (.tinderWrite session lseq tag addr words) s = .next (tells x.1 0x82 x.2.code []).settle) ∧
          (x.2 = .ok → exec (.tinderWritePosted session lseq tag addr words) s = .next x.1.settle) ∧
          (x.2 ≠ .ok → x.2 ≠ .waiting → exec (.tinderWritePosted session lseq tag addr words) s = .next (x.1.setSess k { y with postedErr := true, postedAddr := addr.toNat }).settle)) ∧
        (¬ shut →
          let x := taken.burst (mkReq k tag.toNat .write addr.toNat data words.length) words.length
          (x.2.2 = .waiting → exec (.tinderWrite session lseq tag addr words) s = .next { x.1 with hostWait := x.2.1 :: x.1.hostWait }) ∧
          (x.2.2 ≠ .waiting → exec (.tinderWrite session lseq tag addr words) s = .next (tells x.1 0x82 x.2.2.code []).settle)))) ∧
    (live ∨ s.time < s.downAt + 25000000 → still .sessionTimeout) ∧
    (¬ live → s.downAt + 25000000 ≤ s.time → Does .sessionTimeout s fun t =>
      let lost := fun j => 1 ≤ j ∧ j ≤ 8 ∧ (s.sess j).isOpen = true
      (∀ j, (lost j → t.sess j = Sess.init) ∧ (¬ lost j → t.sess j = s.sess j)) ∧
      t.hostWait = s.hostWait.map (fun q => if lost q.session ∧ q.orphan = none then { q with orphan := some (s.sess q.session) } else q) ∧
      t.captures = s.captures.filter (fun c => ¬ lost c.reader) ∧
      (∀ b < 8, t.bank b = { s.bank b with responses := (s.bank b).responses.filter fun r => ¬ lost r.1 }) ∧ (∀ b, 8 ≤ b → t.bank b = s.bank b) ∧
      t = { s with sessions := t.sessions, hostWait := t.hostWait, captures := t.captures, banks := t.banks }) ∧
    (s.time < s.lockAt + 2500000000 → still .lockoutEnd) ∧ (s.lockAt + 2500000000 ≤ s.time → Does .lockoutEnd s fun t => s.Becomes t [(F.TINDER_AUTH_LOCKOUT, 0, 0)] false) ∧
    (s.inReset = true → still (.spiRead addr count) ∧ still (.spiWrite addr words) ∧ still .spiStatus ∧ still .spiOpen) ∧
    (s.inReset = false →
      exec .spiStatus s = .next { s with out := s.out ++ [.spi [s.rd F.SVC_SPI_STATUS_LAST 0]] } ∧
      (locked → Does .spiOpen s fun t => s.Becomes t [(F.SVC_SPI_STATUS_LAST, 0, 3)] false) ∧
      (¬ locked → ∃ n < 2 ^ 64, Does .spiOpen s fun t =>
        ({ s.setSess 0 { s.sess 0 with nonce := some (n, 0) } with freeCtr := s.freeCtr + 1 } : State).Becomes t
          [(F.SYS_AUTH_NONCE_LO_NONCE, 0, n / 2 ^ 32), (F.SYS_AUTH_NONCE_HI_NONCE, 0, n % 2 ^ 32), (F.SVC_SPI_STATUS_LAST, 0, 0)] false) ∧
      ((∀ d ∈ s.hostWait, d.session ≠ 0) →
        let x := s.burst (mkReq 0 0 .spiRead addr.toNat [] count.toNat) count.toNat
        let y := s.burst (mkReq 0 0 .spiWrite addr.toNat data words.length) words.length
        (x.2.2 = .waiting → exec (.spiRead addr count) s = .next { x.1 with hostWait := x.2.1 :: x.1.hostWait }) ∧
        (x.2.2 ≠ .waiting → DoesThen (.spiRead addr count) s State.settle fun t =>
          ({ x.1 with out := x.1.out ++ [.spi (x.2.1.got.flatMap (bytesBe 4))] } : State).Becomes t [(F.SVC_SPI_STATUS_LAST, 0, x.2.2.code)] false) ∧
        (y.2.2 = .waiting → exec (.spiWrite addr words) s = .next { y.1 with hostWait := y.2.1 :: y.1.hostWait }) ∧
        (y.2.2 ≠ .waiting → DoesThen (.spiWrite addr words) s State.settle fun t => y.1.Becomes t [(F.SVC_SPI_STATUS_LAST, 0, y.2.2.code)] false))) ∧
    (s.Accepts ag .SYS_AUTH_REQ 0 v.toNat →
      let se := s.sess 0
      let level := F.SYS_AUTH_REQ_PRIV.of v.toNat
      let m := (List.range 4).foldl (fun a i => a * 2 ^ 32 + s.rd F.SYS_AUTH_RESP_MAC i) 0
      let ends := fun (u : State) (st : Status) (l : List (Fld × Nat × Nat)) =>
        Does (.sysAuthReq ag v) s fun t => (u.answer st 0).Becomes t ((F.SVC_SPI_STATUS_LAST, 0, st.code) :: l) false
      (locked → ends (s.setSess 0 { se with nonce := none }) .refusedPriv []) ∧
      (¬ locked → right 0 se.nonce level m → ends { s.setSess 0 { se with nonce := none, isOpen := true, priv := level } with authFailures := 0 } .ok []) ∧
      (¬ locked → ¬ right 0 se.nonce level m → ends { s.setSess 0 { se with nonce := none } with authFailures := s.authFailures + 1, lockAt := lockAt } .refusedPriv failed)) ∧
    ((∀ d ∈ s.hostWait, d.session ≠ h.val) → still (.hostAccessTimeout h)) ∧
    (∀ q rest, s.hostWait.find? (fun d => d.session = h.val) = some q → rest = s.hostWait.eraseP (fun d => d.session = h.val) →
      (s.waitCounts q = false ∨ q.waited < 250000 → still (.hostAccessTimeout h)) ∧
      (s.waitCounts q = true → 250000 ≤ q.waited →
        let u : State := { s with hostWait := rest }
        let goes := fun t : State => (t.settle).serve h.val rest.length
        (q.orphan = none → q.kind = .read → exec (.hostAccessTimeout h) s = .next (goes (u.send 0x81 q.session q.tag 6 (q.got.flatMap (bytesBe 4))))) ∧
        (q.orphan = none → q.kind = .write → exec (.hostAccessTimeout h) s = .next (goes (u.send 0x82 q.session q.tag 6 []))) ∧
        (q.orphan = none → q.kind = .posted → exec (.hostAccessTimeout h) s = .next (goes (u.setSess q.session { s.sess q.session with postedErr := true, postedAddr := q.addr }))) ∧
        (q.orphan ≠ none → q.kind = .read ∨ q.kind = .write ∨ q.kind = .posted → exec (.hostAccessTimeout h) s = .next (goes u)) ∧
        (q.kind = .spiRead → DoesThen (.hostAccessTimeout h) s goes fun t =>
          ({ u with out := s.out ++ [.spi (q.got.flatMap (bytesBe 4))] } : State).Becomes t [(F.SVC_SPI_STATUS_LAST, 0, 6)] false) ∧
        (q.kind = .spiWrite → DoesThen (.hostAccessTimeout h) s goes fun t => u.Becomes t [(F.SVC_SPI_STATUS_LAST, 0, 6)] false)))

/-! ### Memory protection and the fault collector (chapters 13 and 14) -/

/-- The scrubber corrects and counts one wrong bit of a word, poisons an uncorrectable one and raises line 28; a second correction within the windows is a hard error: repaired with a spare row of its memory, or logged, and line 27 rises. The log
holds 16 entries, more are counted lost. Arming an injection is judged by mode, tunnels and region. Rising lines of a source that is not busy latch its bit, the first's detail and the reaction word, then IRQ, NMT, block reset, EMBER_ALIVE stop and
chip reset follow in this order; a busy or reserved one is only counted. Acknowledging clears bits written 1; an error in that cycle wins. EMBER_ALIVE stops on STOP or the loss of the oscillator, and resumes unless R443 refuses. -/
def Obligations.ProtectionAndFaults : Prop :=
  ∀ (s : State) (ag : Agent) (region : Fin 11) (word : BitVec 24) (upsets : List Upset) (passEnds : Bool) (v : W32) (src : Fin 64) (inst cause : BitVec 8)
    (more : List (Byte × Byte)) (rise : List (Fin 64 × Byte × Byte)),
    let r := region.val
    let w := word.toNat
    let still := fun c : Instr => exec c s = .next s
    let top := fun f : Fld => 2 ^ f.w - 1
    let cut := fun f : Fld => 2 ^ f.w
    let up := fun (f : Fld) (i : Nat) => (f, i, min (s.rd f i + 1) (top f))
    let u := s.upsets r w upsets
    let m := u.markOf r w 0
    let b := u.baseOf r w 0
    let ends := fun (f : State → State) (P : State → Prop) =>
      DoesThen (.mempScrub region word upsets passEnds) s (fun x => let y := f x; if passEnds then { y.bumpWrap F.MEMP_REG_STATUS_PASSES r 1 with scrubAt := Amap.put natLt 0 y.scrubAt r s.time } else y) P
    let add := fun (l : List LogRec) (e : LogRec) => if l.length < 16 then l ++ [e] else l
    let lost := fun ls : List (List LogRec) => (F.MEMP_STATUS_LOG_LOST, 0,
      min (s.rd F.MEMP_STATUS_LOG_LOST 0 + (ls.filter fun l => 16 ≤ l.length).length) (top F.MEMP_STATUS_LOG_LOST))
    let trk := s.trackers.map fun t => if t.region = r ∧ t.word = w then { t with reads := t.reads + 1 } else t
    let open1 := trk.filter fun t => t.reads < 16 ∨ s.time < t.time + 2500000 ∨ (t.region = r ∧ t.word = w ∧ t.reads = 16)
    let mine := open1.filter fun t => t.region = r
    let draws := if (s.storedWord r w).isNone then 1 else 0
    let held := (s.storedWord r w).getD (s.freeVal % 2 ^ 64)
    let raw := if s.rd F.MEMP_INJECT_CTL_REGION 0 = r ∧ s.rd F.MEMP_INJECT_ADDR_WORD 0 = w then
      let d := Nat.xor (Nat.xor held b) m.1
      [(F.MEMP_RAW_LO_DATA, 0, d % cut F.MEMP_RAW_LO_DATA), (F.MEMP_RAW_HI_DATA, 0, d / 2 ^ 32 % cut F.MEMP_RAW_HI_DATA),
        (F.MEMP_RAW_CHECK_DATA, 0, Nat.xor (Config.checkBits (Nat.xor held b) % 256) m.2 % cut F.MEMP_RAW_CHECK_DATA)] else []
    let corrects := fun (bit base n : Nat) =>
      let e1 : LogRec := ⟨w, 1, r, bit, 0⟩
      let other := (u.marks.filter fun k => !(k.region = r && k.word = w && k.copy = 0)) ++ if base = 0 then [] else [⟨r, w, 0, 0, 0, base⟩]
      ((∀ t ∈ mine, t.word ≠ w) → ends id fun x =>
        let room := if mine.length < 8 then open1 else match mine.head? with
          | some o => open1.filter fun t => ¬ (t.region = o.region ∧ t.word = o.word)
          | none => open1
        ({ s with marks := other, log := add s.log e1, trackers := room ++ [⟨r, w, 0, s.time⟩], freeCtr := s.freeCtr + n } : State).Becomes x
          (raw ++ [up F.MEMP_REG_CNT_CORRECTED r, lost [s.log]]) true) ∧
      ((∃ t ∈ mine, t.word = w) → ends (fun x => x.errorLine 27 r 0) fun x =>
        let row := spareRows r w
        let used := Amap.get 0 s.sparesUsed (256 * r + row.1)
        let spare := s.on F.MEMP_CTL_REPAIR_EN 0 = true ∧ used < row.2
        let l1 := add s.log e1
        let l2 := add l1 ⟨w, 2, r, bit, 0⟩
        let k := kilnRow r w
        ({ s with
          log := add l2 ⟨w, if spare then 3 else 4, r, bit, 0⟩, trackers := open1, freeCtr := s.freeCtr + n
          sparesUsed := if spare then Amap.put natLt 0 s.sparesUsed (256 * r + row.1) (used + 1) else s.sparesUsed
          marks := if spare then other.filter fun m => !(m.region = r && decide (k.1 ≤ m.word ∧ m.word < k.1 + k.2) && decodeWord r m.dx m.cx = .corrected && m.base = 0) else other
          } : State).Becomes x
          (raw ++ [up F.MEMP_REG_CNT_CORRECTED r, up F.MEMP_REG_CNT_HARD r, lost [s.log, l1, l2]] ++
            (if spare then [(F.MEMP_REG_STATUS_SPARES_LEFT, r, s.rd F.MEMP_REG_STATUS_SPARES_LEFT r - 1)] else [])) true)
    (∀ x : Upset, let c := if r = 10 then max 1 x.copy.val else 0
      let t := s.upset r w x
      s.upsets r w [] = s ∧ s.upsets r w (x :: upsets) = t.upsets r w upsets ∧ t = { s with marks := t.marks } ∧
      t.markOf r w c = (Nat.xor (s.markOf r w c).1 x.dx.toNat, Nat.land (Nat.xor (s.markOf r w c).2 x.cx.toNat) (if r = 6 then 0x7F else 0xFF)) ∧
      ∀ a b d, (a, b, d) ≠ (r, w, c) → t.markOf a b d = s.markOf a b d) ∧
    (∀ dx cx, dx < 2 ^ 64 → cx ≤ poisonOf r → (ones dx + ones cx = 1 → decodeWord r dx cx = .corrected) ∧
      (ones dx + ones cx = 2 → decodeWord r dx cx = if r = 9 then .corrected else .uncorrectable) ∧ (r = 9 → 1 ≤ ones dx + ones cx → ones dx + ones cx ≤ 4 → decodeWord r dx cx = .corrected) ∧ (ones dx + ones (Nat.xor cx (poisonOf r)) ≤ 1 → decodeWord r dx cx = .poison)) ∧
    (let off := s.blocksHeld = true ∨ s.on F.MEMP_CTL_SCRUB_EN 0 = false ∨ (r = 10 ∧ 270 < w)
     (off → exec (.mempScrub region word upsets passEnds) s = .next u) ∧
     (¬ off → s.Canonical →
       (r < 10 →
         (u.isWithheld r w = true ∨ u.invalidWord r w = true → ends id fun x => x = u) ∧
         (u.isWithheld r w = false → u.invalidWord r w = false →
           (decodeWord r m.1 m.2 = .corrected → corrects (bitOf m.1 m.2) b draws) ∧
           (decodeWord r m.1 m.2 = .miscorrected → corrects ((if draws = 0 then s else s.drawn).freeVal % 72) (Nat.xor held (wrongValue r (Nat.xor held b) m.1 m.2)) (draws + 1)) ∧
           (decodeWord r m.1 m.2 = .uncorrectable → ends (fun x => x.errorLine 28 r 0) fun x => x.markOf r w 0 = (0, poisonOf r) ∧
             ({ s with marks := (u.setPoison r w 0).marks, log := add s.log ⟨w, 6, r, 0xFF, 0⟩, trackers := trk, freeCtr := s.freeCtr + draws } : State).Becomes x
               (raw ++ [up F.MEMP_REG_CNT_UNCORRECTABLE r, lost [s.log]]) true) ∧
           (decodeWord r m.1 m.2 ∉ [Dec.corrected, .miscorrected, .uncorrectable] → ends id fun x =>
             ({ u with trackers := trk, freeCtr := s.freeCtr + draws } : State).Becomes x raw false))) ∧
       (r = 10 →
         (2 ≤ ([1, 2, 3].filter fun c => (u.tvDec w c = .clean ∨ u.tvDec w c = .corrected) ∧ u.baseOf 10 w c = 0).length →
           ∃ lines : List Line, (∀ e ∈ lines, e = (27, 10, 0)) ∧ ends (fun x => x.errorLines lines) fun x =>
             (∀ c ∈ [1, 2, 3], x.markOf 10 w c = (0, 0) ∧ x.baseOf 10 w c = 0) ∧
             (∀ g j, g.reg ∉ [Reg.MEMP_RAW_LO, .MEMP_RAW_HI, .MEMP_RAW_CHECK, .MEMP_REG_CNT, .MEMP_STATUS] → x.rd g j = s.rd g j) ∧
             x = { s with regs := x.regs, marks := x.marks, log := x.log, trackers := x.trackers, freeCtr := x.freeCtr, perfPipe := x.perfPipe } ∧ s.perfPipe <+: x.perfPipe) ∧
         (u.tvVoted w = none → 206 ≤ w → w < 270 → ends (fun x => x.errorLine 28 10 0) fun x =>
           let n := w - 206
           (∀ c ∈ [1, 2, 3], x.markOf 10 w c = (0, 0)) ∧
           ({ s with marks := x.marks, log := add s.log ⟨w, 9, 10, 0xFF, 0⟩, trackers := trk } : State).Becomes x
             [up F.MEMP_REG_CNT_UNCORRECTABLE 10, lost [s.log], (F.MEMP_RAW_LO_DATA, 0, x.rd F.MEMP_RAW_LO_DATA 0), (F.MEMP_RAW_HI_DATA, 0, x.rd F.MEMP_RAW_HI_DATA 0),
               (F.MEMP_RAW_CHECK_DATA, 0, x.rd F.MEMP_RAW_CHECK_DATA 0), (F.FAULT_REACT_IRQ, n, 0), (F.FAULT_REACT_NMT, n, 0), (F.FAULT_REACT_BLOCK_RESET, n, 0),
               (F.FAULT_REACT_ALIVE_STOP, n, 1), (F.FAULT_REACT_CHIP_RESET, n, 0), (F.FAULT_REACT_NMT_BANK, n, 0)] true)))) ∧
    (let late := s.on F.MEMP_CTL_SCRUB_EN 0 = true ∧ ∃ k < 9, max s.scrubFrom (Amap.get 0 s.scrubAt k) + 2 * max 1 (s.rd F.MEMP_CTL_PERIOD 0) * 250000000 < s.time
     (¬ late → still .scrubLate) ∧ (late → Does .scrubLate s fun t => s.Becomes t [(F.MEMP_STATUS_SCRUB_LATE, 0, 1)] false)) ∧
    (s.Accepts ag .MEMP_INJECT_CTL 0 v.toNat →
      let arm := F.MEMP_INJECT_CTL_ARM.of v.toNat
      let rg := F.MEMP_INJECT_CTL_REGION.of v.toNat
      let busy := ∃ t < 24, s.on F.TUN_CFG_TX_EN t = true ∨ s.on F.TUN_CFG_RX_EN t = true
      let bad := 11 ≤ rg ∨ (arm = 1 ∧ (busy ∨ rg = 8 ∨ rg = 9))
      (arm = 1 → s.service = true → exec (.injectArm ag v) s = .next (s.answer .refusedMode 0)) ∧
      (¬ (arm = 1 ∧ s.service = true) → bad → exec (.injectArm ag v) s = .next (s.answer .refusedState 0)) ∧
      (¬ (arm = 1 ∧ s.service = true) → ¬ bad → Does (.injectArm ag v) s fun t => (s.answer .ok 0).Becomes t
        [(F.MEMP_INJECT_CTL_CHECK_XOR, 0, F.MEMP_INJECT_CTL_CHECK_XOR.of v.toNat), (F.MEMP_INJECT_CTL_COPY, 0, F.MEMP_INJECT_CTL_COPY.of v.toNat),
          (F.MEMP_INJECT_CTL_REGION, 0, rg), (F.MEMP_INJECT_CTL_ARM, 0, arm), (F.MEMP_STATUS_ARMED, 0, arm)] false)) ∧
    (s.Accepts ag .MEMP_LOG_POP 0 0 → exec (.mempLogPop ag) s = .next ({ s with log := s.log.drop 1 }.answer .ok 0)) ∧
    (let n := src.val
     let lines := (src, inst, cause) :: more.map fun e => (src, e.1, e.2)
     let voted := (s.perf (0x200 + n) lines.length).reactVote n
     let word := voted.1.reactWord n
     (46 ≤ n ∨ s.busy n = true → Does (.errorLine lines) s fun t => s.Becomes t [] true) ∧
     (∀ a b : Fin 64 × Byte × Byte, a.1 ≠ b.1 → exec (.errorLine [a, b]) s = exec (.errorLine [b, a]) s) ∧
     (s.busy n = true ↔ s.latched n = true ∨ (∃ e ∈ s.nmtHeld, e.2 = n) ∨ (∃ e ∈ s.reactResets, e.1 = n) ∨
       ∃ b < 8, (s.on F.FAULT_NMT_VALID b = true ∧ s.rd F.FAULT_NMT_SOURCE b = n) ∨ ∃ e ∈ (s.bank b).nmtOuter, e.1 = n) ∧
     (n < 46 → s.busy n = false → voted.2 = [] → DoesThen (.errorLine lines) s (fun x =>
         let a := if word.testBit 0 = true ∧ s.collectorLevel = false then x.irq 475 else x
         let bank := word / 256 % 8
         let b := if word.testBit 1 = false then a else if (a.bank bank).failed then a.aliveStop n else a.nmtArrive bank n
         let d := if word.testBit 2 then (inst :: more.map Prod.fst).foldl (fun y i => match blockInstance n i.toNat with
             | some k => let z := y.blockReset n k; { z with reactResets := z.reactResets ++ [(n, k)] }
             | none => y) b else b
         let e := if word.testBit 3 then d.aliveStop n else d
         if word.testBit 4 then (((e.resetFor 2).put F.FAULT_LAST_RESET_VALID 0 true).bump F.FAULT_LAST_RESET_COUNT 0 1).wr F.FAULT_LAST_RESET_SOURCE 0 n else e)
       fun x => x.ld .latchWord n = word % 2 ^ 11 ∧ (∀ sp j, (sp, j) ≠ (.latchWord, n) → x.ld sp j = s.ld sp j) ∧
         ({ voted.1 with mem := x.mem } : State).Becomes x [(charFld n, 0, Nat.lor (s.rd (charFld n) 0) (2 ^ (n % 32)) % cut (charFld n)),
           (F.FAULT_DETAIL_TIME, n, s.time / 65536 % cut F.FAULT_DETAIL_TIME), (F.FAULT_DETAIL_CAUSE, n, cause.toNat), (F.FAULT_DETAIL_INSTANCE, n, inst.toNat)]
           true)) ∧
    ((blockInstance src inst.toNat = none → still (.blockReset src inst) ∧ still (.blockResetEnd src inst)) ∧
     (∀ i, blockInstance src inst.toNat = some i →
       ((src.val, i) ∉ s.blockResets → still (.blockResetEnd src inst)) ∧
       ((src.val, i) ∈ s.blockResets →
         let done : State := { s with blockResets := s.blockResets.erase (src.val, i), reactResets := s.reactResets.erase (src.val, i) }
         exec (.blockResetEnd src inst) s = .next (if src.val = 16 then done.rideOrphans.runsAgain else done)) ∧
       ((∀ k ∈ resetRegions src i, s.sliceRegion ≠ some k) → (∀ b < 8, ∀ k ∈ (s.bank b).cmds, addrInBlock src i k.addr = false) →
         DoesThen (.blockReset src inst) s (fun x => let y := x.blockUnit s src i; { y with blockResets := y.blockResets ++ [(src.val, i)] }) fun x =>
           (∀ g j, x.rd g j = if inBlock src i g.reg j = true ∧ critical g.reg = false then g.reset j else s.rd g j) ∧ x = { s with regs := x.regs }))) ∧
    (∀ hi, let f := if hi then F.CHAR_STATUS_HI_LATCHED else F.CHAR_STATUS_LO_LATCHED
      let won := ((List.range 32).filter fun k => v.toNat.testBit k).map fun k => if hi then 32 + k else k
      let lines := linesOf rise
      s.Canonical → s.Accepts ag f.reg 0 v.toNat → DoesThen (.charStatusAck ag hi v rise) s (fun u => ((u.errorLinesWon won lines).answer .ok 0).settle) fun u =>
        (∀ k < 32, (u.rd f 0).testBit k = ((s.rd f 0).testBit k && !v.toNat.testBit k)) ∧ s.Becomes u [(f, 0, u.rd f 0)] false) ∧
    (∀ (x : State) (n i c : Nat), n < 46 → (let y := (x.perf (0x200 + n) 1).reactVote n; y.2 = [] ∧ y.1.reactWord n = 0) → (x.errorLinesWon [n] [(n, i, c)]).latched n = true) ∧
    (s.Accepts ag .FAULT_REACT src v.toNat →
      let n := src.val
      let refused := F.FAULT_REACT_BLOCK_RESET.of v.toNat = 1 ∧ hasBlockReset n = false
      (46 ≤ n → exec (.faultReactWrite ag src v) s = .next (s.answer .ok 0)) ∧ (n < 46 → refused → exec (.faultReactWrite ag src v) s = .next (s.answer .refusedState 0)) ∧
      (n < 46 → ¬ refused → s.on F.MEMP_STATUS_ARMED 0 = false → Does (.faultReactWrite ag src v) s fun t =>
        (∀ k ∈ [1, 2, 3], t.markOf 10 (206 + n) k = (0, 0)) ∧ (∀ a b d, (a, b) ≠ (10, 206 + n) → t.markOf a b d = s.markOf a b d) ∧
        ({ s with marks := t.marks }.answer .ok 0).Becomes t [(F.FAULT_REACT_IRQ, n, F.FAULT_REACT_IRQ.of v.toNat),
          (F.FAULT_REACT_NMT, n, F.FAULT_REACT_NMT.of v.toNat), (F.FAULT_REACT_BLOCK_RESET, n, F.FAULT_REACT_BLOCK_RESET.of v.toNat),
          (F.FAULT_REACT_ALIVE_STOP, n, F.FAULT_REACT_ALIVE_STOP.of v.toNat), (F.FAULT_REACT_CHIP_RESET, n, F.FAULT_REACT_CHIP_RESET.of v.toNat),
          (F.FAULT_REACT_NMT_BANK, n, F.FAULT_REACT_NMT_BANK.of v.toNat)] false)) ∧
    (let runs := s.on F.FAULT_ALIVE_RUNNING 0 = true
     let stop := fun k : Nat => [(F.FAULT_ALIVE_RUNNING, 0, 0), (F.FAULT_ALIVE_CAUSE, 0, k)]
     let no := (∃ n < 46, s.latched n = true ∧ (s.ld .latchWord n).testBit 3 = true) ∨ s.on F.KILN_STATUS_FATAL 0 = true ∨ s.cutTripped = true ∨ s.oscLost = true
     (s.Accepts ag .FAULT_ALIVE 0 0x100 → (¬ runs → exec (.aliveStop ag) s = .next (s.answer .ok 0)) ∧
       (runs → Does (.aliveStop ag) s fun t => ({ s with alivePhase := false }.answer .ok 0).Becomes t (stop 0x40) false)) ∧
     (s.Accepts ag .FAULT_ALIVE 0 0x200 → (no → exec (.aliveResume ag) s = .next (s.answer .refusedState 0)) ∧
       (¬ no → Does (.aliveResume ag) s fun t => ({ s with alivePhase := true }.answer .ok 0).Becomes t [(F.FAULT_ALIVE_RUNNING, 0, 1)] false)) ∧
     (runs → exec .aliveHalfPeriod s = .next { s with alivePhase := !s.alivePhase } ∧
       Does .emberOscillatorLoss s fun t => ({ s with alivePhase := false, oscLost := true } : State).Becomes t (stop 0x41) false) ∧
     (¬ runs → still .aliveHalfPeriod ∧ still .emberOscillatorLoss)) ∧
    (s.Accepts ag .FAULT_SW_SET 0 v.toNat →
      exec (.faultSwSet ag v) s = .next ((if F.FAULT_SW_SET_RAISE.of v.toNat = 1 then s.errorLine 45 0 0 else s).answer .ok 0).settle)

/-! ### Kiln (chapter 15) -/

/-- At start-up a passing region is released at once; a failing logic region is EXCLUDED, recorded, journalled and, where Table 15-1 says so, fatal; a failing row is replaced by a spare or withheld. With all 139 results Kiln ends, and
line 29 reports the lowest failing region. A slice starts on a region in use whose block is awake. An abort reports INCOMPLETE and counts; the eighth in a row sets UNTESTABLE and raises the owners' sources; a counted result
clears both, and a failing one excludes the region or mends the row and raises line 29. STOP ends a slice, the abort count unchanged. -/
def Obligations.KilnSelfTest : Prop :=
  ∀ (s : State) (ag : Agent) (n : Fin 139) (p : BitVec 24) (row : BitVec 24 × Fin 72) (rows : List (BitVec 24 × Fin 72)) (slice : Option (BitVec 16)) (steps : BitVec 16) (passEnds : Bool) (v : W32),
    s.Canonical →
    let r := n.val
    let still := fun c : Instr => exec c s = .next s
    let next := fun (f : Fld) (i : Nat) => (f, i, min (s.rd f i + 1) (2 ^ f.w - 1))
    let journal := fun d : List Nat => s.journalWith (s.time :: 3 :: d)
    let record := fun word bit kind g : Nat => if s.on F.KILN_FAIL_HI_VALID 0 = true then [] else [(F.KILN_FAIL_LO_WORD, 0, word), (F.KILN_FAIL_HI_REGION, 0, g),
      (F.KILN_FAIL_HI_BIT, 0, bit), (F.KILN_FAIL_HI_KIND, 0, kind), (F.KILN_FAIL_HI_VALID, 0, 1)]
    let fatal := fun g : Nat => g ∈ [119, 120, 133, 134, 137, 138]
    let only := fun g : Nat => g ∈ [119, 137, 138]
    let acts := fun (g : Nat) (start : Bool) (t : State) => (
      if fatal g then (t.kilnFatalSet, [])
      else if start ∧ t.on F.KILN_STATUS_FATAL 0 = true then (t, [])
      else if g < 48 then (if start then t else t.laneForce g 5, [])
      else if 54 ≤ g ∧ g ≤ 85 then (if start then (t.pipeExclude true (g - 54), []) else t.pipeLines true (g - 54) 2)
      else if 86 ≤ g ∧ g ≤ 117 then (if start then (t.pipeExclude false (g - 86), []) else t.pipeLines false (g - 86) 2)
      else if g = 122 then (if start then t else t.holdStop, [])
      else if 123 ≤ g ∧ g ≤ 130 then t.engineLines (g - 123) (if start then 4 else 5) else (t, []) : State × List Line)
    let pipes := fun t : State => if t.on F.KILN_STATUS_FATAL 0 = true then t
      else if 54 ≤ r ∧ r ≤ 85 then t.pipePass true (r - 54) else if 86 ≤ r ∧ r ≤ 117 then t.pipePass false (r - 86) else t
    let fin := fun w : State => s.unlessReset w fun t => if ((List.range 139).all fun k => t.rd F.KILN_REG_STATE k ≠ 0) then
        let e := (t.put F.KILN_STATUS_STARTUP_DONE 0 true).event F.KILN_EVENT_STARTUP_DONE 0
        match t.kilnLowest with
        | none => e
        | some x => (({ e with kilnHeldFail := [] } : State).event F.KILN_EVENT_FAIL 0).errorLine 29 x.1 x.2
      else t
    let mem := kilnMemory r
    let left := s.rd F.MEMP_REG_STATUS_SPARES_LEFT mem
    let word := row.1.toNat
    let place := fun g : Nat => if g < 48 then g * 0x800 + word % 0x800 else word
    let inst := fun g : Nat => spareRows (kilnMemory g) (place g)
    let used := fun g : Nat => Amap.get 0 s.sparesUsed (256 * kilnMemory g + (inst g).1)
    let spare := fun g : Nat => used g < (inst g).2
    let line := fun g : Nat => if kilnMemory g = 0 then (place g / 64 * 64, 64) else (place g, 1)
    let mended := fun (g : Nat) (u : State) => ({ u with
      sparesUsed := Amap.put natLt 0 s.sparesUsed (256 * kilnMemory g + (inst g).1) (used g + 1)
      marks := s.marks.filter fun m => !(m.region = kilnMemory g && decide ((line g).1 ≤ m.word ∧ m.word < (line g).1 + (line g).2) &&
        decodeWord (kilnMemory g) m.dx m.cx = .corrected && m.base = 0) } : State)
    let withheld := fun g : Nat => s.withheld ++ [⟨kilnMemory g, (line g).1, (line g).2⟩]
    let gone : State := { s with withheld := withheld r }
    let passed := (F.KILN_REG_STATE, r, if only r then 4 else 1)
    (∀ x, s.kilnLowest = some x → x ∈ s.kilnHeldFail ∧ ∀ d ∈ s.kilnHeldFail, x.1 ≤ d.1) ∧
    (∀ (t : State) (g : Fld) (j : Nat), let d := t.kilnFatalSet
      d.on F.KILN_STATUS_FATAL 0 = true ∧ d.on F.FAULT_ALIVE_RUNNING 0 = false ∧ d.lanes = State.reset.lanes ∧ d.banks = State.reset.banks ∧
      (g.reg ∉ [.KILN_STATUS, .FAULT_ALIVE] → d.rd g j = if keptField (g.key j) = true ∨ reachableFatal g.reg = true then t.rd g j else g.reset j)) ∧
    (∀ logic, s.inReset = true ∨ s.rd F.KILN_REG_STATE r ≠ 0 → still (.kilnRegionDone n logic rows)) ∧
    (∀ logic, (kilnLogic r = false → exec (.kilnRegionDone n logic rows) s = exec (.kilnRegionDone n none rows) s) ∧
      (kilnHasMem r = false → exec (.kilnRegionDone n logic rows) s = exec (.kilnRegionDone n logic []) s)) ∧
    (s.inReset = false → s.rd F.KILN_REG_STATE r = 0 →
      (DoesThen (.kilnRegionDone n none []) s (fun t => fin (pipes t)) fun t => s.Becomes t [passed] false) ∧
      (kilnLogic r = true → DoesThen (.kilnRegionDone n (some p) []) s (fun t => let x := acts r true t; fin (x.1.errorLines x.2)) fun t =>
        ({ s with kilnHeldFail := s.kilnHeldFail ++ [(r, 1)], journal := journal [r, 1] } : State).Becomes t
          ([(F.KILN_REG_STATE, r, 2), (F.KILN_STATUS_STARTUP_FAIL, 0, 1), next F.KILN_STATUS_FAILED_COUNT 0] ++ record p.toNat 0xFF 1 r) false) ∧
      (kilnHasMem r = true → spare r → DoesThen (.kilnRegionDone n none [row]) s
        (fun t => fin (pipes ((t.event F.KILN_EVENT_REPAIRED 0).wr F.KILN_REG_STATE r (if only r then 4 else 1)))) fun t =>
        (mended r s).Becomes t ([(F.MEMP_REG_STATUS_SPARES_LEFT, mem, left - 1), (F.KILN_REG_REPAIRED, r, 1)] ++ record word row.2.val 3 r) false) ∧
      (kilnHasMem r = true → ¬ spare r → ¬ fatal r → DoesThen (.kilnRegionDone n none [row]) s (fun t => fin (pipes t)) fun t =>
        ({ gone with kilnHeldFail := s.kilnHeldFail ++ [(r, 2)], journal := journal [r, 2] } : State).Becomes t
          ([passed, (F.KILN_STATUS_STARTUP_FAIL, 0, 1), next F.KILN_STATUS_FAILED_COUNT 0] ++ record word row.2.val 4 r) false) ∧
      (kilnHasMem r = true → ¬ spare r → fatal r → DoesThen (.kilnRegionDone n none [row]) s (fun t => fin t.kilnFatalSet) fun t =>
        ({ gone with kilnHeldFail := s.kilnHeldFail ++ [(r, 2)], journal := journal [r, 2] } : State).Becomes t
          ([(F.KILN_REG_STATE, r, 2), (F.KILN_STATUS_STARTUP_FAIL, 0, 1), next F.KILN_STATUS_FAILED_COUNT 0] ++ record word row.2.val 4 r) false)) ∧
    (let retry := ∀ e ∈ s.kilnWait, e.1 = r → e.2 + max 1 (s.rd F.KILN_CFG_RETRY 0) * 25000 ≤ s.time
     let steps' := match slice with
       | none => if kilnLogic r then some 256 else none
       | some k => if kilnHasMem r then some k.toNat else none
     let due := s.on F.KILN_CTL_RUN_EN 0 = true ∧ s.on F.KILN_STATUS_BUSY 0 = false ∧ ¬ only r ∧ s.rd F.KILN_REG_STATE r = 1 ∧ retry ∧
       s.on F.KILN_STATUS_STARTUP_DONE 0 = true ∧ s.blocksHeld = false ∧ ∀ b ∈ kilnBlocks r, s.rd F.PWR_BLOCK_CUR b < 2
     let idle := ∀ t, Amap.find s.trafficAt r = some t → t + max 1 (s.rd F.KILN_CFG_GATE 0) * 250 ≤ s.time
     let last := fun (k result : Nat) => [(F.KILN_LAST_HI_REGION, 0, r), (F.KILN_LAST_LO_STEPS, 0, 0), (F.KILN_LAST_HI_DONE, 0, 0),
       (F.KILN_LAST_LO_EXPECTED, 0, k % 2 ^ F.KILN_LAST_LO_EXPECTED.w), (F.KILN_LAST_HI_RESULT, 0, result)]
     let tells := fun (g : Nat) (t : State) =>
       if s.rd F.KILN_REG_ABORTS g < 7 ∨ s.on F.KILN_REG_UNTESTABLE g = true then t else (s.regionBanks g).foldl (fun x b => x.irq (32 * b + 19)) t
     let aborted := fun (base : State) (g : Nat) (l : List (Fld × Nat × Nat)) (t : State) =>
       let k := min 8 (s.rd F.KILN_REG_ABORTS g + 1)
       let u : State := { base with kilnWait := (s.kilnWait.filter fun e => e.1 ≠ g) ++ [(g, s.time)] }
       if k = 8 ∧ s.on F.KILN_REG_UNTESTABLE g = false then
         u.Becomes t ([(F.KILN_REG_ABORTS, g, k), (F.KILN_REG_UNTESTABLE, g, 1), next F.KILN_STATUS_UNTESTABLE_COUNT 0, (F.KILN_EVENT_UNTESTABLE, 0, 1)] ++ l) true
       else u.Becomes t ((F.KILN_REG_ABORTS, g, k) :: l) false
     (¬ due ∨ ¬ idle ∨ steps' = none → still (.kilnSliceStart n slice)) ∧ (¬ due ∨ idle ∨ steps' = none → still (.kilnStartTimeout n slice)) ∧
     (∀ k, steps' = some k → due →
       (idle → Does (.kilnSliceStart n slice) s fun t => ({ s with sliceRegion := some r, sliceMem := slice.isSome } : State).Becomes t
         ([(F.KILN_STATUS_BUSY, 0, 1), (F.KILN_STATUS_CURRENT, 0, r)] ++ last k 0) false) ∧
       (¬ idle → DoesThen (.kilnStartTimeout n slice) s (tells r) (aborted s r (last k 3)))) ∧
     (s.sliceRegion = none ∨ s.rd F.KILN_LAST_LO_EXPECTED 0 ≤ steps.toNat → still (.kilnSliceAbort steps)) ∧
     (∀ g, s.sliceRegion = some g → steps.toNat < s.rd F.KILN_LAST_LO_EXPECTED 0 → DoesThen (.kilnSliceAbort steps) s (tells g) (aborted
       { s with sliceRegion := none, sliceRedirect := if s.sliceMem then s.sliceRedirect ++ [g] else s.sliceRedirect } g
       [(F.KILN_STATUS_BUSY, 0, 0), (F.KILN_LAST_HI_RESULT, 0, 3), (F.KILN_LAST_HI_DONE, 0, 0), (F.KILN_LAST_LO_STEPS, 0, steps.toNat)])) ∧
     (∀ g < 139, s.sliceRegion = some g → ∃ k, k < max 1 (s.rd F.KILN_LAST_LO_EXPECTED 0) ∧
       s.dataPath g = State.sliceAbort { s with trafficAt := Amap.ins natLt (Amap.erase s.trafficAt g) g s.time, freeCtr := s.freeCtr + 1 } g k) ∧
     (retry → exec (.kilnRetry n) s = .next { s with kilnWait := s.kilnWait.filter fun e => e.1 ≠ r }) ∧ (¬ retry → still (.kilnRetry n))) ∧
    (∀ b < 8, b ∈ s.regionBanks r ↔ (r < 48 ∧ s.owner (.lane r) = b) ∨ (48 ≤ r ∧ r < 54 ∧ (s.owner (.bay (r - 48)) = b ∨ ∃ k < 8, s.owner (.port (8 * (r - 48) + k)) = b)) ∨
      (54 ≤ r ∧ (r < 118 ∨ r = 119) ∧ r ≠ 118 ∧ s.owner .keyUnit = b) ∨ (r = 118 ∧ ∃ t < 24, s.owner (.tunnel t) = b) ∨
      ((r = 120 ∨ r = 121) ∧ s.owner .protUnit = b) ∨ (r = 122 ∧ (s.owner .holdUnit = b ∨ ∃ t < 24, s.owner (.holdCh t) = b)) ∨
      (r = 135 ∧ ∃ k < 256, s.owner (.counter k) = b) ∨
      (r = 136 ∧ ((∃ t < 8, s.owner (.conv t) = b) ∨ (∃ t < 4, s.owner (.pair t) = b) ∨ ∃ t < 96, s.owner (.monIn t) = b))) ∧
    (∀ fail, s.sliceRegion = none → still (.kilnSliceEnd fail passEnds)) ∧
    (∀ g, s.sliceRegion = some g →
      let done : State := { s with sliceRegion := none }
      let regs := [(F.KILN_STATUS_BUSY, 0, 0), (F.KILN_LAST_HI_DONE, 0, 1), (F.KILN_LAST_LO_STEPS, 0, s.rd F.KILN_LAST_LO_EXPECTED 0), (F.KILN_REG_UNTESTABLE, g, 0),
          (F.KILN_REG_ABORTS, g, 0), (F.KILN_STATUS_UNTESTABLE_COUNT, 0, s.rd F.KILN_STATUS_UNTESTABLE_COUNT 0 - if s.on F.KILN_REG_UNTESTABLE g then 1 else 0)] ++
        (if passEnds then [(F.KILN_REG_PASSES, g, (s.rd F.KILN_REG_PASSES g + 1) % 2 ^ F.KILN_REG_PASSES.w)] else [])
      (Does (.kilnSliceEnd none passEnds) s fun t => done.Becomes t ((F.KILN_LAST_HI_RESULT, 0, 1) :: regs) false) ∧
      (g < 139 →
        let m := kilnMemory g
        let bad := [(F.KILN_LAST_HI_RESULT, 0, 2), next F.KILN_STATUS_FAILED_COUNT 0]
        (s.sliceMem = false → DoesThen (.kilnSliceEnd (some (p, row.2)) passEnds) s
          (fun t => let x := acts g false t; (x.1.event F.KILN_EVENT_FAIL 0).errorLines (x.2 ++ [(29, g, 3)])) fun t =>
          ({ done with journal := journal [g, 3] } : State).Becomes t (bad ++ [(F.KILN_REG_STATE, g, 3)] ++ record p.toNat 0xFF 1 g ++ regs) false) ∧
        (s.sliceMem = true →
          let tells := fun t : State => (t.event F.KILN_EVENT_FAIL 0).errorLine 29 g 4
          (spare g → DoesThen (.kilnSliceEnd (some row) passEnds) s tells fun t =>
            ({ mended g done with journal := journal [g, 4] } : State).Becomes t (bad ++ [(F.MEMP_REG_STATUS_SPARES_LEFT, m, s.rd F.MEMP_REG_STATUS_SPARES_LEFT m - 1),
              (F.KILN_REG_REPAIRED, g, 1), (F.KILN_EVENT_REPAIRED, 0, 1)] ++ record word row.2.val 3 g ++ regs) true) ∧
          (¬ spare g → DoesThen (.kilnSliceEnd (some row) passEnds) s tells fun t =>
            ({ done with withheld := withheld g, journal := journal [g, 4] } : State).Becomes t (bad ++ record word row.2.val 4 g ++ regs) false)))) ∧
    (s.Accepts ag .KILN_CTL 0 v.toNat →
      let run := (F.KILN_CTL_RUN_EN, 0, F.KILN_CTL_RUN_EN.of v.toNat)
      let stops := F.KILN_CTL_STOP.of v.toNat = 1 ∧ ∃ g < 139, s.sliceRegion = some g
      (¬ stops → Does (.kilnStop ag v) s fun t => (s.answer .ok 0).Becomes t [run] false) ∧
      (stops → ∃ k < max 1 (s.rd F.KILN_LAST_LO_EXPECTED 0), Does (.kilnStop ag v) s fun t => ({ s with sliceRegion := none, freeCtr := s.freeCtr + 1 }.answer .ok 0).Becomes t
        [run, (F.KILN_STATUS_BUSY, 0, 0), (F.KILN_LAST_HI_RESULT, 0, 4), (F.KILN_LAST_HI_DONE, 0, 0), (F.KILN_LAST_LO_STEPS, 0, k)] false))

/-! ### The monitor converters (chapter 16) -/

/-- A trigger starts the sequence with every result not READY, is held during a capture, counts an overrun while one runs. A conversion writes its result, with SEQNUM, SHORT_ACQ and a count where the last one was unread, and the sequence goes
on, ends, or is stopped. An urgent request runs or waits, two at most. Captures of a pair record alternately, 0x8000 where a slot was taken, and end at LEN. MCV_SIM_TRIG starts the armed idle converters together, once all of them can convert. Reading a result clears FRESH. -/
def Obligations.Converters : Prop :=
  ∀ (s : State) (ag : Agent) (cc : Fin 8) (k : Fin 17) (pp : Fin 4) (data : BitVec 12) (failed : Bool) (v : W32), s.Canonical →
    let c := cc.val
    let q := c / 2
    let x := s.conv c
    let still := fun i : Instr => exec i s = .next s
    let next := fun (f : Fld) (i : Nat) => (f, i, min (s.rd f i + 1) (2 ^ f.w - 1))
    let capBusy := s.on F.MCV_CAP_STATUS_BUSY q = true
    let ready := fun (l : Nat) => (List.range (l + 1)).map fun j => (F.MCV_RESULT_READY, 16 * c + j, 0)
    let period := max 1 (s.rd F.MCV_PERIOD_PERIOD c) * 2500
    let fired := fun (base : State) (y : Conv) (len : Nat) (l : List (Fld × Nat × Nat)) (t : State) =>
      (capBusy → x.held = false → (base.setConv c { y with held := true }).Becomes t l false) ∧
      (capBusy ∧ x.held = true ∨ ¬ capBusy ∧ x.running ≠ none → (base.setConv c y).Becomes t (next F.MCV_STATUS_OVERRUNS c :: l) false) ∧
      (¬ capBusy → x.running = none →
        (base.setConv c { y with running := some 0, stopping := false, simWith := [] }).Becomes t ((F.MCV_STATUS_ENTRY, c, 0) :: ready len ++ l) false)
    let vg := (v ||| 1#32).toNat
    let vs := (v ||| 2#32).toNat
    let set := fun w : Nat => [(F.MCV_CTL_LEN, c, F.MCV_CTL_LEN.of w), (F.MCV_CTL_IRQ_URG, c, F.MCV_CTL_IRQ_URG.of w), (F.MCV_CTL_IRQ_SEQ, c, F.MCV_CTL_IRQ_SEQ.of w),
      (F.MCV_CTL_TRIG, c, F.MCV_CTL_TRIG.of w), (F.MCV_CTL_LP, c, F.MCV_CTL_LP.of w)]
    let bad := fun w : Nat => F.MCV_CTL_TRIG.of w = 3 ∨ (s.convBusy c = true ∧ (F.MCV_CTL_LEN.of w ≠ s.rd F.MCV_CTL_LEN c ∨
      F.MCV_CTL_TRIG.of w ≠ s.rd F.MCV_CTL_TRIG c ∨ F.MCV_CTL_LP.of w ≠ s.rd F.MCV_CTL_LP c))
    let mate := 2 * q + (1 - c % 2)
    let ref := fun (wanted : Prop) [Decidable wanted] => if wanted then [] else [(F.MCV_STATUS_REF_ON, 2 * q, 0), (F.MCV_STATUS_REF_ON, 2 * q + 1, 0)]
    let able := s.blocksHeld = false ∧ ¬ (s.lanesOff = true ∧ c < 6) ∧ s.regionUntested 136 = false ∧ s.regionExcluded 136 = false ∧ s.blockAsleep (19 + q) = false ∧
      s.on F.MCV_STATUS_CAL c = false ∧ s.on F.MCV_STATUS_REF_ON (2 * q) = true
    let held := x.simWith ≠ [] ∨ (capBusy ∧ ((s.cap q).recording = true ∨ c ∉ (s.cap q).waitFor))
    let mateWants := s.on F.MCV_CTL_LP mate = false ∨ s.convBusy mate = true
    (s.Accepts ag .MCV_CTL c vg →
      (bad vg → exec (.mcvGo ag cc v) s = .next (s.answer .refusedState 0)) ∧
      (¬ bad vg → F.MCV_CTL_STOP.of vg = 0 →
        Does (.mcvGo ag cc v) s (fired (s.answer .ok 0) { x with nextAt := if F.MCV_CTL_TRIG.of vg = 1 then some (s.time + period) else none } (F.MCV_CTL_LEN.of vg) (set vg)))) ∧
    (s.Accepts ag .MCV_CTL c vs →
      let y := { x with nextAt := none, held := false }
      let hung := x.urgNow ≠ none ∨ ¬ able ∨ held
      let wants := F.MCV_CTL_LP.of vs = 0 ∨ x.urgNow ≠ none ∨ capBusy ∨ (c = 7 ∧ s.thermalWait = true) ∨ mateWants
      (bad vs → exec (.mcvStop ag cc v) s = .next (s.answer .refusedState 0)) ∧
      (¬ bad vs → F.MCV_CTL_GO.of vs = 0 →
        (x.running = none → Does (.mcvStop ag cc v) s fun t => ((s.answer .ok 0).setConv c { y with stopping := false }).Becomes t (set vs ++ ref wants) false) ∧
        (x.running ≠ none → ¬ hung → Does (.mcvStop ag cc v) s fun t => ((s.answer .ok 0).setConv c { y with stopping := true }).Becomes t (set vs) false) ∧
        (∀ j, x.running = some j → hung → DoesThen (.mcvStop ag cc v) s State.simGo fun t =>
          ((s.answer .ok 0).setConv c { y with running := none, stopping := false, simWith := [] }).Becomes t
            (set vs ++ ref wants ++ (List.range (s.rd F.MCV_CTL_LEN c + 1)).filterMap fun e =>
              if j ≤ e ∧ s.rd F.MCV_RESULT_SEQNUM (16 * c + e) ≠ 0 then some (F.MCV_RESULT_READY, 16 * c + e, 1) else none) false))) ∧
    (x.nextAt = none → still (.mcvPeriodicTrigger cc)) ∧
    (∀ at1, x.nextAt = some at1 → (s.time < at1 → still (.mcvPeriodicTrigger cc)) ∧ (at1 ≤ s.time →
      Does (.mcvPeriodicTrigger cc) s (fired (if s.blockAsleep (19 + q) then s.wakeBlock (19 + q) else s) { x with nextAt := some (at1 + period) } (s.rd F.MCV_CTL_LEN c) []))) ∧
    (s.Accepts ag .MCV_URGENT c v.toNat →
      let input := F.MCV_URGENT_INPUT.of v.toNat
      let queue := x.urgWait ++ [(input, F.MCV_URGENT_ACQ.of v.toNat)]
      let refused := input / 24 ≠ q ∨ (x.urgNow ≠ none ∧ 2 ≤ x.urgWait.length)
      (refused → exec (.mcvUrgent ag cc v) s = .next (s.answer .refusedState 0)) ∧
      (¬ refused → x.urgNow ≠ none → exec (.mcvUrgent ag cc v) s = .next ((s.setConv c { x with urgWait := queue }).answer .ok 0)) ∧
      (¬ refused → x.urgNow = none → Does (.mcvUrgent ag cc v) s fun t =>
        ((s.setConv c { x with urgNow := queue.head?, urgWait := queue.drop 1 }).answer .ok 0).Becomes t [(F.MCV_URG_RESULT_READY, c, 0)] false)) ∧
    (let short := fun input acq : Nat => match x.last with
       | some l => if l ≠ input ∧ max 2 acq < s.rd F.MCV_IN_SETTLE input then 1 else 0
       | none => 0
     let result := fun (k input acq : Nat) =>
       let f := fun (a b : Fld) (w : Nat) => if k < 16 then (a, 16 * c + k, w) else (b, c, w)
       let n := if k < 16 then s.rd F.MCV_RESULT_SEQNUM (16 * c + k) else s.rd F.MCV_URG_RESULT_SEQNUM c
       let fresh := if k < 16 then s.rd F.MCV_RESULT_FRESH (16 * c + k) else s.rd F.MCV_URG_RESULT_FRESH c
       [f F.MCV_RESULT_DATA F.MCV_URG_RESULT_DATA data.toNat, f F.MCV_RESULT_SHORT_ACQ F.MCV_URG_RESULT_SHORT_ACQ (short input acq),
         f F.MCV_RESULT_SEQNUM F.MCV_URG_RESULT_SEQNUM (if n = 255 then 1 else n + 1), f F.MCV_RESULT_READY F.MCV_URG_RESULT_READY 1,
         f F.MCV_RESULT_FRESH F.MCV_URG_RESULT_FRESH 1] ++ (if fresh = 1 then [next F.MCV_STATUS_UNREAD c] else [])
     let settles := fun t : State => (t.capSettle c).refSettle q
     let irqIf := fun (f : Fld) (t : State) => if t.on f c then t.irq (477 + c) else t
     (¬ able → still (.mcvConversionDone cc data)) ∧
     (able → (s.cap q).recording = false →
       (x.urgNow = none → x.running = none → still (.mcvConversionDone cc data)) ∧
       (∀ u, x.urgNow = some u → DoesThen (.mcvConversionDone cc data) s (fun t => settles ((irqIf F.MCV_CTL_IRQ_URG t).urgNext c)) fun t =>
         (s.setConv c { x with urgNow := none, last := some u.1 }).Becomes t (result 16 u.1 u.2) false) ∧
       (x.urgNow = none → held → still (.mcvConversionDone cc data)) ∧
       (∀ e, x.urgNow = none → x.running = some e → e < 16 → ¬ held →
         let input := s.rd F.MCV_SEQ_INPUT (16 * c + e)
         let done := result e input (s.rd F.MCV_SEQ_ACQ (16 * c + e))
         let len := s.rd F.MCV_CTL_LEN c
         (len ≤ e → DoesThen (.mcvConversionDone cc data) s (fun t => settles (irqIf F.MCV_CTL_IRQ_SEQ t)) fun t =>
           (s.setConv c { x with last := some input, running := none, stopping := false }).Becomes t done false) ∧
         (e < len → x.stopping = false → DoesThen (.mcvConversionDone cc data) s settles fun t =>
           (s.setConv c { x with last := some input, running := some (e + 1) }).Becomes t ((F.MCV_STATUS_ENTRY, c, e + 1) :: done) false) ∧
         (e < len → x.stopping = true → DoesThen (.mcvConversionDone cc data) s settles fun t =>
           (s.setConv c { x with last := some input, running := none, stopping := false }).Becomes t
             (done ++ (List.range (len + 1)).filterMap fun j =>
               if e + 1 ≤ j ∧ s.rd F.MCV_RESULT_SEQNUM (16 * c + j) ≠ 0 then some (F.MCV_RESULT_READY, 16 * c + j, 1) else none) false))) ∧
     (able → (s.cap q).recording = true →
       let n := s.rd F.MCV_CAP_STATUS_COUNT q
       let input := 24 * q + s.rd F.MCV_CAP_CTL_INPUT q
       let stamp := if n = 0 then [(F.MCV_CAP_TS_LO_TIME, q, (s.time - 937) % 2 ^ 32), (F.MCV_CAP_TS_HI_TIME, q, (s.time - 937) / 2 ^ 32 % 2 ^ F.MCV_CAP_TS_HI_TIME.w)] else []
       let entry := fun (w : Nat) (base t : State) => t.ld .mcvCap (256 * q + n) = w ∧ (∀ sp j, (sp, j) ≠ (.mcvCap, 256 * q + n) → t.ld sp j = s.ld sp j) ∧
         ({ base with mem := t.mem } : State).Becomes t ((F.MCV_CAP_STATUS_COUNT, q, (n + 1) % 2 ^ F.MCV_CAP_STATUS_COUNT.w) :: stamp) false
       let ends := fun t : State => if s.rd F.MCV_CAP_CTL_LEN q ≤ n then t.capEnd q false else t
       (n % 2 ≠ c % 2 → still (.mcvConversionDone cc data)) ∧
       (n % 2 = c % 2 → x.missed = [] → x.urgNow = none → DoesThen (.mcvConversionDone cc data) s ends
         (entry (data.toNat + 0x4000 * short input (s.rd F.MCV_CAP_CTL_ACQ q)) (s.setConv c { x with last := some input }))) ∧
       (∀ m ms, n % 2 = c % 2 → x.missed = m :: ms → DoesThen (.mcvConversionDone cc data) s ends (entry 0x8000 (s.setConv c { x with missed := ms, last := some m }))) ∧
       (∀ u, n % 2 = c % 2 → x.missed = [] → x.urgNow = some u → ∃ t : State,
         (s.setConv c { x with urgNow := none, last := some u.1 }).Becomes t (result 16 u.1 u.2) false ∧
         exec (.mcvConversionDone cc data) s = .next (((irqIf F.MCV_CTL_IRQ_URG t).urgNext c).capRecord q 0x8000)))) ∧
    (let rr := if k.val < 16 then (Reg.MCV_RESULT, 16 * c + k.val, F.MCV_RESULT_FRESH) else (Reg.MCV_URG_RESULT, c, F.MCV_URG_RESULT_FRESH)
     s.readCheck ag rr.1 rr.2.1 = none → Does (.mcvResultRead ag cc k) s fun t =>
       (s.answer .ok (s.word rr.1 rr.2.1)).Becomes t [(rr.2.2, rr.2.1, 0)] false) ∧
    (let p := pp.val
     let both := [2 * p, 2 * p + 1]
     let conf := fun w : Nat => [(F.MCV_CAP_CTL_LEN, p, F.MCV_CAP_CTL_LEN.of w), (F.MCV_CAP_CTL_ACQ, p, F.MCV_CAP_CTL_ACQ.of w),
       (F.MCV_CAP_CTL_INPUT, p, F.MCV_CAP_CTL_INPUT.of w), (F.MCV_CAP_CTL_IRQ, p, F.MCV_CAP_CTL_IRQ.of w)]
     let busy := s.on F.MCV_CAP_STATUS_BUSY p = true
     let armed := ∃ e ∈ both, s.on F.MCV_CTL_LP e = true ∨ s.rd F.MCV_CTL_TRIG e = 2
     (s.Accepts ag .MCV_CAP_CTL p vg →
       let refused := 24 ≤ F.MCV_CAP_CTL_INPUT.of vg ∨ busy ∨ armed
       let waits := both.filter fun e => s.convReady e && ((s.conv e).urgNow.isSome || ((s.conv e).running.isSome && (s.conv e).simWith.isEmpty))
       (refused → exec (.mcvCaptureStart ag pp v) s = .next (s.answer .refusedState 0)) ∧
       (¬ refused → Does (.mcvCaptureStart ag pp v) s fun t => ((s.setCap p { waitFor := waits, recording := waits.isEmpty }).answer .ok 0).Becomes t
         (conf vg ++ [(F.MCV_CAP_STATUS_BUSY, p, 1), (F.MCV_CAP_STATUS_DONE, p, 0), (F.MCV_CAP_STATUS_ABANDONED, p, 0), (F.MCV_CAP_STATUS_COUNT, p, 0)]) false)) ∧
     (s.Accepts ag .MCV_CAP_CTL p vs → F.MCV_CAP_CTL_START.of vs = 0 →
       (24 ≤ F.MCV_CAP_CTL_INPUT.of vs → exec (.mcvCaptureStop ag pp v) s = .next (s.answer .refusedState 0)) ∧
       (F.MCV_CAP_CTL_INPUT.of vs < 24 → ¬ busy → Does (.mcvCaptureStop ag pp v) s fun t => (s.answer .ok 0).Becomes t (conf vs) false) ∧
       (F.MCV_CAP_CTL_INPUT.of vs < 24 → busy → (∀ e ∈ both, (s.conv e).held = false) →
         let wants := ∃ e ∈ both, s.on F.MCV_CTL_LP e = false ∨ (s.conv e).running ≠ none ∨ (s.conv e).urgNow ≠ none ∨ (e = 7 ∧ s.thermalWait = true)
         Does (.mcvCaptureStop ag pp v) s fun t =>
           (∀ e, t.conv e = if e ∈ both then { s.conv e with missed := [], last := (s.conv e).missed.getLast?.or (s.conv e).last } else s.conv e) ∧
           ({ s.setCap p CapS.init with convs := t.convs }.answer .ok 0).Becomes t
           (conf vs ++ [(F.MCV_CAP_STATUS_BUSY, p, 0), (F.MCV_CAP_STATUS_DONE, p, 0), (F.MCV_CAP_STATUS_ABANDONED, p, 1)] ++
             (if wants then [] else [(F.MCV_STATUS_REF_ON, 2 * p, 0), (F.MCV_STATUS_REF_ON, 2 * p + 1, 0)])) true)) ∧
     (s.readCheck ag .MCV_CAP_DATA p = none → Does (.mcvCapData ag pp) s fun t =>
       (s.answer .ok (s.ld .mcvCap (256 * p + s.rd F.MCV_CAP_ADDR_ENTRY p))).Becomes t
         [(F.MCV_CAP_ADDR_ENTRY, p, (s.rd F.MCV_CAP_ADDR_ENTRY p + 1) % 2 ^ F.MCV_CAP_ADDR_ENTRY.w)] false) ∧
     (let wanted := ∃ e ∈ both, s.on F.MCV_CTL_LP e = false ∨ s.convBusy e = true
      let on := s.on F.MCV_STATUS_REF_ON (2 * p) = true
      (¬ wanted ∨ on → still (.referenceWake pp)) ∧
      (wanted → ¬ on → DoesThen (.referenceWake pp) s State.simGo fun t => s.Becomes t [(F.MCV_STATUS_REF_ON, 2 * p, 1), (F.MCV_STATUS_REF_ON, 2 * p + 1, 1)] false))) ∧
    (∀ u : State, u.Canonical → u.simGo = { u with convs := u.simGo.convs } ∧ ∀ e, u.simGo.conv e =
      if e < 8 ∧ (u.conv e).simWith ≠ [] ∧ (∀ d ∈ (u.conv e).simWith, (u.conv d).simWith ≠ (u.conv e).simWith ∨ u.convReady d = true) then { u.conv e with simWith := [] } else u.conv e) ∧
    (s.Accepts ag .MCV_SIM_TRIG 0 v.toNat →
      let named := fun e : Nat => v.toNat.testBit e
      let joins := fun e : Nat => decide (s.rd F.MCV_CTL_TRIG e = 2) && !s.convBusy e
      let alien := ∃ b : Fin 8, ag = .table b ∧ ∃ e < 8, named e = true ∧ s.owner (.conv e) ≠ b.val
      let group := (List.range 8).filter fun e => named e && joins e
      (alien → exec (.mcvSimTrig ag v) s = .next (s.answer .notOwner 0)) ∧
      (¬ alien → DoesThen (.mcvSimTrig ag v) s State.simGo fun t =>
        (∀ e, t.conv e = if e < 8 ∧ named e = true ∧ joins e = true then { s.conv e with running := some 0, stopping := false, simWith := group } else s.conv e) ∧
        ({ s with convs := t.convs }.answer .ok 0).Becomes t ((List.range 8).flatMap fun e => if named e = false then [] else if joins e then
          (F.MCV_STATUS_ENTRY, e, 0) :: (List.range (s.rd F.MCV_CTL_LEN e + 1)).map fun j => (F.MCV_RESULT_READY, 16 * e + j, 0)
          else [next F.MCV_STATUS_OVERRUNS e]) false)) ∧
    (s.on F.MCV_STATUS_CAL c = false → still (.converterCalibrationEnd cc failed)) ∧
    (s.on F.MCV_STATUS_CAL c = true → DoesThen (.converterCalibrationEnd cc failed) s (fun t => if failed then t.simGo.errorLine 42 c 2 else t.simGo) fun t =>
      s.Becomes t [(F.MCV_STATUS_CAL, c, 0)] false)

/-! ### References, block power states, temperature (chapter 17) -/

/-- The reference chosen must be present. Losing the one in use starts holdover, ended by a switch where allowed, and raises line 36 or 37; holdover that lasts 100 µs ends with the lock lost and line 38. A reference that returns is compared, and ends
holdover or is switched to. An idle block that nothing holds enters the deepest state that its limits and its next event allow; a wake source in that cycle wins. A block out of Blaze is evaluated again: it wakes, or goes deeper. A wake reverses
an entry and is due as long before the event as R489 says; one that is not ready in twice its effective time is begun once more, then given up with line 35. A transition ends in the state it led to, a converter pair that was in Bank or Smoulder
calibrates, and the store resumes. -/
def Obligations.ReferencesAndBlockPower : Prop :=
  ∀ (s : State) (ag : Agent) (rr : Fin 2) (disagree : Bool) (nn : Fin 26) (work race : Bool) (v : W32), s.Canonical →
    let still := fun c : Instr => exec c s = .next s
    let next := fun (f : Fld) (i : Nat) => (f, i, min (s.rd f i + 1) (2 ^ f.w - 1))
    let r := rr.val
    let ok := fun k : Nat => if k = 0 then F.PWR_CLK_STATUS_REF_A_OK else F.PWR_CLK_STATUS_REF_B_OK
    let used := s.rd F.PWR_CLK_STATUS_IN_USE 0 = r
    let held := s.on F.PWR_CLK_STATUS_HOLDOVER 0 = true
    let auto := s.on F.PWR_CLK_CTL_AUTO 0 = true
    (s.Accepts ag .PWR_CLK_CTL 0 v.toNat →
      let sel := F.PWR_CLK_CTL_REF_SEL.of v.toNat
      (s.on (ok sel) 0 = false → exec (.refSelWrite ag v) s = .next (s.answer .refusedState 0)) ∧
      (s.on (ok sel) 0 = true → Does (.refSelWrite ag v) s fun t => (s.answer .ok 0).Becomes t [(F.PWR_CLK_CTL_REF_SEL, 0, sel),
        (F.PWR_CLK_CTL_AUTO, 0, F.PWR_CLK_CTL_AUTO.of v.toNat), (F.PWR_CLK_CTL_CORE_SSC, 0, F.PWR_CLK_CTL_CORE_SSC.of v.toNat),
        (F.PWR_CLK_STATUS_IN_USE, 0, sel), (F.PWR_CLK_STATUS_HOLDOVER, 0, 0)] false)) ∧
    (s.on (ok r) 0 = false → still (.referenceLoss rr)) ∧
    (s.on (ok r) 0 = true →
      let lost := [(ok r, 0, 0), (F.PWR_CLK_STATUS_DISAGREE, 0, 0)]
      let line := fun t : State => t.errorLine (36 + r) 0 0
      let base : State := { s with holdAt := if held then s.holdAt else s.time }
      let switch := auto ∧ s.on (ok (1 - r)) 0 = true
      (¬ used → DoesThen (.referenceLoss rr) s line fun t => s.Becomes t lost false) ∧
      (used → switch → DoesThen (.referenceLoss rr) s line fun t =>
        base.Becomes t (lost ++ [(F.PWR_CLK_STATUS_IN_USE, 0, 1 - r), next F.PWR_CLK_STATUS_SWITCHES 0, (F.PWR_CLK_STATUS_HOLDOVER, 0, 0)]) false) ∧
      (used → ¬ switch → DoesThen (.referenceLoss rr) s line fun t => base.Becomes t (lost ++ [(F.PWR_CLK_STATUS_HOLDOVER, 0, 1)]) false)) ∧
    (let back := [(ok r, 0, 1), (F.PWR_CLK_STATUS_DISAGREE, 0, if disagree = true ∧ s.on (ok (1 - r)) 0 = true then 1 else 0)]
     (used → Does (.referenceReturn rr disagree) s fun t => s.Becomes t (back ++ [(F.PWR_CLK_STATUS_HOLDOVER, 0, 0), (F.PWR_CLK_STATUS_CORE_LOCK, 0, 1)]) false) ∧
     (¬ used → held → auto → Does (.referenceReturn rr disagree) s fun t =>
       s.Becomes t (back ++ [(F.PWR_CLK_STATUS_IN_USE, 0, r), next F.PWR_CLK_STATUS_SWITCHES 0, (F.PWR_CLK_STATUS_HOLDOVER, 0, 0)]) false) ∧
     (¬ used → ¬ (held ∧ auto) → Does (.referenceReturn rr disagree) s fun t => s.Becomes t back false)) ∧
    (let isOver := held ∧ s.holdAt + 250000 ≤ s.time
     (¬ isOver → still .holdoverEnd) ∧
     (isOver → DoesThen .holdoverEnd s (fun t => t.errorLine 38 0 0) fun t => s.Becomes t [(F.PWR_CLK_STATUS_HOLDOVER, 0, 0), (F.PWR_CLK_STATUS_CORE_LOCK, 0, 0)] false)) ∧
    (let n := nn.val
     let cur := s.rd F.PWR_BLOCK_CUR n
     let move := Amap.find s.moves n
     let event := s.blockNext n
     let floor := s.blockFloor n
     let most := min floor (min (s.rd F.PWR_BLOCK_LIMIT n) (s.rd F.PWR_BLOCK_HW_LIMIT n))
     let limit := if most = 3 ∧ s.blockEmpty n = false then 2 else most
     let lead := fun d : Nat => wakeTime d + readyTime n d + max 1 (s.rd F.PWR_CFG_MARGIN 0) * 2500
     let can := fun d : Nat => d ≤ limit ∧ ∀ e, event = some e → s.time + entryTime d + lead d ≤ e
     let deepest := fun d : Nat => d ∈ [1, 2, 3] ∧ can d ∧ ∀ e ∈ [1, 2, 3], d < e → ¬ can e
     let asleep := cur ≠ 0 ∨ move ≠ none
     let held := s.blocksHeld = true
     let idle := ¬ held ∧ ¬ asleep ∧ s.on F.PWR_CFG_PM_EN 0 = true ∧ s.blockHeld n work = false
     let rests := match move with | some m => m.target | none => cur
     let due := ∃ e, event = some e ∧ e ≤ s.time + lead rests
     let wakes := s.on F.PWR_CFG_PM_EN 0 = false ∨ s.blockHeld n false = true ∨ min floor (s.rd F.PWR_BLOCK_LIMIT n) < rests ∨ due
     let put := fun (t : State) (m : BlockMove) => ({ t with moves := Amap.ins natLt (Amap.erase t.moves n) n m } : State)
     let woken : State := match move with
       | some m => if m.target = 0 then s else put s { m with target := 0, attempts := 1, depth := m.target, since := s.time }
       | none => if cur = 0 then s else
         let t := s.sliceStopped (blockRegions n)
         { t with moves := Amap.ins natLt s.moves n { from_ := cur, target := 0, attempts := 1, depth := cur, since := s.time } }
     let placed := fun d : Nat => put (s.blockEnters n d) { from_ := cur, target := d, attempts := 0, depth := d, since := s.time }
     let entry := Instr.blockStateEntry nn work race
     (floor ≤ 3 ∧ (∀ b ∈ s.blockBanks n, floor ≤ (s.declared b).2) ∧ (floor = 3 ∨ ∃ b ∈ s.blockBanks n, floor = (s.declared b).2)) ∧
     (let times := (s.blockBanks n).map (fun b => (s.declared b).1) ++ s.blockSchedule n
      (∀ e, event = some e ↔ e ∈ times ∧ ∀ k ∈ times, e ≤ k) ∧ (event = none ↔ times = [])) ∧
     ((∀ g ∈ blockRegions n, s.sliceRegion ≠ some g) → s.sliceStopped (blockRegions n) = s ∧
       ∀ d, ¬ (n = 12 ∧ d = 2) → (19 ≤ n → n ≤ 22 → s.on F.MCV_CAP_STATUS_BUSY (n - 19) = false) → s.blockEnters n d = s) ∧
     (held → still entry) ∧
     (¬ asleep → ¬ idle → still entry) ∧ (idle → (∀ d ∈ [1, 2, 3], ¬ can d) → still entry) ∧
     (∀ d, idle → deepest d →
       (race = true → n < 8 → Does entry s fun t => s.Becomes t [(F.STK_SLEEP_REFUSED, n, 1), next F.STK_SLEEP_REFUSALS n] true) ∧
       (race = true → 8 ≤ n → Does entry s fun t => s.Becomes t [(F.PWR_BLOCK_REFUSED, n, 1), next F.PWR_BLOCK_REFUSALS n] true) ∧
       (race = false → exec entry s = .next (placed d))) ∧
     (¬ held → asleep →
       (rests = 0 → still entry) ∧ (rests ≠ 0 → wakes → exec entry s = .next woken) ∧
       (∀ d, rests ≠ 0 → ¬ wakes → move = none → deepest d → cur < d → exec entry s = .next (placed d)) ∧
       (rests ≠ 0 → ¬ wakes → move ≠ none ∨ (∀ d, deepest d → d ≤ cur) → still entry)) ∧
     exec (.blockWake nn) s = .next woken ∧
     (rests = 0 ∨ ¬ due → still (.scheduledWake nn)) ∧ (rests ≠ 0 → due → exec (.scheduledWake nn) s = .next woken) ∧
     (move = none → still (.wakeFail nn) ∧ still (.blockTransitionEnd nn)) ∧
     (∀ m, move = some m →
       let late := m.since + 2 * (wakeTime m.depth + readyTime n m.depth) ≤ s.time
       let gone : State := { s with moves := Amap.erase s.moves n }
       (m.target ≠ 0 ∨ ¬ late → still (.wakeFail nn)) ∧
       (m.target = 0 → late → m.attempts < 2 → exec (.wakeFail nn) s = .next (put s { m with attempts := 2, since := s.time })) ∧
       (m.target = 0 → late → 2 ≤ m.attempts → DoesThen (.wakeFail nn) s (fun t => (t.waitersFail n).errorLine 35 n 0) fun t => gone.Becomes t [(F.PWR_BLOCK_WAKE_FAIL, n, 1)] false) ∧
       (DoesThen (.blockTransitionEnd nn) s (fun t => if n = 12 ∧ m.target = 0 ∧ s.rd F.THERM_STATUS_STATE 0 ≠ 4 then t.simGo.holdUnpark else t.simGo) fun t =>
         (gone.sliceStopped (blockRegions n)).Becomes t ((F.PWR_BLOCK_CUR, n, m.target % 4) ::
           if 19 ≤ n ∧ n ≤ 22 ∧ m.target = 0 ∧ 2 ≤ m.from_ then [(F.MCV_STATUS_CAL, 2 * (n - 19), 1), (F.MCV_STATUS_CAL, 2 * (n - 19) + 1, 1)] else []) false)))

/-- The thermal unit's reading waits until converter 7 can convert; a reading is broken by R495's conditions and clean again after 16 sweeps. A sweep's end gives H, its sensor and the Damper's decision: WARN after two sweeps at W, the stop after
two at 115 °C, RESTART_OK withdrawn from 95 °C. REQUEST turns to ENFORCE after the grace time, both to RUN after 1 s and 10 s below W − 3 °C. The stop is entered by command up to ENFORCE, completes in STOPPED, and is left by RESTART, which 10 s below
95 °C allow. The hard cut holds every block in reset until it is released. -/
def Obligations.TemperatureAndDamper : Prop :=
  ∀ (s : State) (ag : Agent) (code : BitVec 12) (convFault : Bool), s.Canonical →
    let still := fun c : Instr => exec c s = .next s
    let warn := (max 80 (min 100 (s.rd F.THERM_CFG_WARN 0)) + 64) * 16
    (let n := s.nextSensor
     let seen := Amap.find s.sensorSeen n
     let k := code.toNat
     let failed := s.regionExcluded 136 = true
     let cause := if k = 0 then 1 else if k = 0xFFF then 2 else if k < 144 ∨ 3424 < k then 3
       else if (match seen with | some p => decide (k + 480 < p ∨ p + 480 < k) | none => false) then 4 else if convFault = true ∨ failed then 5 else 0
     let was := s.on F.THERM_SENSOR_BROKEN n = true
     let sweeps := Amap.get 0 s.cleanSweeps n + 1
     let heals := cause = 0 ∧ was ∧ 16 ≤ sweeps
     let breaks := cause ≠ 0 ∧ ¬ was
     let x := s.conv 7
     let wanted := ([6, 7].any fun c => !s.on F.MCV_CTL_LP c || (s.conv c).running.isSome || (s.conv c).urgNow.isSome || s.on F.MCV_CAP_STATUS_BUSY 3) = true
     let base : State := { s with
       thermalWait := false, sensorSeen := Amap.put natLt 0xFFFF s.sensorSeen n k, nextSensor := (n + 1) % 16
       cleanSweeps := if cause ≠ 0 ∨ heals then Amap.put natLt 0 s.cleanSweeps n 0 else if was then Amap.put natLt 0 s.cleanSweeps n sweeps else s.cleanSweeps }
     let off := s.blocksHeld = true ∨ s.regionUntested 136 = true
     let waits := s.convReady 7 = false ∧ ¬ failed
     (off → still (.sensorRead code convFault)) ∧
     (¬ off → waits → exec (.sensorRead code convFault) s = .next (({ s with thermalWait := true } : State).wakeBlock 22)) ∧
     (¬ off → ¬ waits → DoesThen (.sensorRead code convFault) s
       (fun t => let u := if breaks then t.errorLine 32 n cause else t; if n = 15 then s.unlessReset u State.sweepEnd else u) fun t =>
       (base.setConv 7 (if (s.cap 3).recording then { x with missed := x.missed ++ [80 + n] } else { x with last := some (80 + n) })).Becomes t
         ((F.THERM_SENSOR_CODE, n, k) :: (if cause ≠ 0 then [(F.THERM_SENSOR_BROKEN, n, 1), (F.THERM_SENSOR_CAUSE, n, cause)] else
           if heals then [(F.THERM_SENSOR_BROKEN, n, 0), (F.THERM_SENSOR_CAUSE, n, 0)] else []) ++
           (if breaks ∨ heals then [(F.THERM_EVENT_BROKEN, 0, 1)] else []) ++ if wanted then [] else [(F.MCV_STATUS_REF_ON, 6, 0), (F.MCV_STATUS_REF_ON, 7, 0)]) true)) ∧
    (let bad := fun k : Nat => s.on F.THERM_SENSOR_BROKEN k = true
     let value := fun k : Nat => if bad k then 0xA90 else s.rd F.THERM_SENSOR_CODE k
     let many := ((List.range 16).filter fun k => s.on F.THERM_SENSOR_BROKEN k).length
     let st := if s.rd F.THERM_STATUS_STATE 0 = 5 then 0 else s.rd F.THERM_STATUS_STATE 0
     let stays := fun (was : Option Nat) (holds : Prop) [Decidable holds] => if holds then some (was.getD s.time) else none
     ∃ h hot, (∀ k < 16, value k ≤ h) ∧ hot < 16 ∧ h = value hot ∧ (0 < h → ∀ k < hot, value k < h) ∧
       let heff := if 8 ≤ many then max h 2864 else h
       let w := if warn ≤ heff then s.warnSweeps + 1 else 0
       let k := if 2864 ≤ heff then s.stopSweeps + 1 else 0
       let base : State := { s with warnSweeps := w, stopSweeps := k, coolAt := stays s.coolAt (h + 48 < warn), coldAt := stays s.coldAt (h < 2544) }
       let set := [(F.THERM_STATUS_H, 0, h), (F.THERM_STATUS_HOT_SENSOR, 0, hot), (F.THERM_STATUS_BROKEN, 0, many)] ++
         if 2544 ≤ h then [(F.THERM_STATUS_RESTART_OK, 0, 0)] else []
       let stops := st ≤ 2 ∧ 2 ≤ k
       let asks := st = 0 ∧ 2 ≤ w
       (stops → ∃ t, base.Becomes t ((F.THERM_STATUS_STATE, 0, st) :: set) false ∧ s.sweepEnd = t.thermStop 1 1) ∧
       (¬ stops → asks → ∃ t, ({ base with thermAt := s.time } : State).Becomes t ([(F.THERM_STATUS_STATE, 0, 1), (F.THERM_EVENT_WARN, 0, 1)] ++ set) true ∧
         s.sweepEnd = t.errorLine 30 hot 0) ∧
       (¬ stops → ¬ asks → base.Becomes s.sweepEnd ((F.THERM_STATUS_STATE, 0, st) :: set) false)) ∧
    (let st := s.rd F.THERM_STATUS_STATE 0
     let h := s.rd F.THERM_STATUS_H 0
     let grace := max 1 (min 120 (s.rd F.THERM_CFG_GRACE 0)) * 1250000000
     let isOver := st = 1 ∧ s.thermAt + grace ≤ s.time
     let long := fun (since : Option Nat) (d : Nat) => ∃ t, since = some t ∧ t + d ≤ s.time
     let cool := h + 48 < warn ∧ ((st = 1 ∧ long s.coolAt 2500000000) ∨ (st = 2 ∧ long s.coolAt 25000000000))
     let cold := st = 4 ∧ h < 2544 ∧ s.thermAt + 25000000000 ≤ s.time ∧ long s.coldAt 25000000000
     let base : State := { s.tokensSettle with thermAt := s.time }
     (isOver → DoesThen .graceExpiry s State.measuresBegin fun t => base.Becomes t [(F.THERM_STATUS_STATE, 0, 2), (F.THERM_EVENT_ENFORCE, 0, 1)] true) ∧
     (¬ isOver → still .graceExpiry) ∧
     (cool → DoesThen .damperRelease s State.measuresEnd fun t => base.Becomes t [(F.THERM_STATUS_STATE, 0, 0), (F.THERM_EVENT_RELEASE, 0, 1)] true) ∧
     (¬ cool → still .damperRelease) ∧
     (cold → Does .restartOk s fun t => s.Becomes t [(F.THERM_STATUS_RESTART_OK, 0, 1), (F.THERM_EVENT_RESTART_OK, 0, 1)] true) ∧
     (¬ cold → still .restartOk) ∧
     (s.stopDue = none → s.stopSteps = s) ∧
     (∀ reason, s.stopDue = some reason →
       s.stopSteps = ((List.range 48).foldl (fun u n => u.queueGoingDown n reason) ({ s.dropInFlight with stopDue := none } : State)).holdPark) ∧
     (s.stopTick = if st = 3 ∧ s.thermAt + 375000 ≤ s.time then s.stopSteps else s) ∧
     (st = 3 → exec .orderlyStopComplete s = .next (State.lanesStop { s.stopSteps.wr F.THERM_STATUS_STATE 0 4 with thermAt := s.time })) ∧
     (st ≠ 3 → still .orderlyStopComplete) ∧
     (s.Accepts ag .THERM_CTL 0 1 →
       (2 < st → exec (.thermStop ag) s = .next (s.answer .refusedState 0)) ∧
       (st ≤ 2 → DoesThen (.thermStop ag) s (fun t => ((({ t.stopClients with thermAt := s.time, stopDue := some 2 } : State).errorLine 31 0 3).answer .ok 0).settle)
         fun t => s.tokensSettle.Becomes t [(F.THERM_STATUS_STATE, 0, 3), (F.THERM_EVENT_STOP, 0, 1)] true)) ∧
     (s.Accepts ag .THERM_CTL 0 2 →
       (s.on F.THERM_STATUS_RESTART_OK 0 = false → exec (.thermRestart ag) s = .next (s.answer .refusedState 0)) ∧
       (s.on F.THERM_STATUS_RESTART_OK 0 = true → exec (.thermRestart ag) s = .next ((s.resetFor 4).answer .ok 0).settle))) ∧
    (let u := (({ s with cutTripped := true, cutArmed := false } : State).errorLine 31 0 2).aliveStop 0x1F
     Does .hardCutTrip s fun t => t.inReset = true ∧ t.cutTripped = true ∧ t.cutArmed = false ∧ t.rd F.THERM_STATUS_STATE 0 = 5 ∧
       (∀ g j, g.key j ≠ F.THERM_STATUS_STATE.key 0 → t.rd g j = if keptField (g.key j) then u.rd g j else g.reset j) ∧
       (∀ sp j, t.ld sp j = if keptSpace sp then u.ld sp j else sp.dflt j) ∧ t.pending = u.pending ∧ t.journal = u.journal ∧ t.time = State.reset.time ∧
       t.sessions = State.reset.sessions ∧ t.hostWait = [] ∧ t.banks = [] ∧ t.lanes = [] ∧ t.caps = [] ∧ t.convs = []) ∧
    (s.cutTripped = false → still .hardCutRelease) ∧ (s.cutTripped = true → exec .hardCutRelease s = .next { s with cutTripped := false, cutArmed := true })

/-! ### Performance counters (chapter 18) -/

/-- A reserved event is refused; halves of a counter are set alone or together. Past its maximum a counter sets its overflow bit, takes its reload and raises source 32b + 18 of its owner, an event other counters may count. Events
stand 24 cycles in a pipeline, which a snapshot's values include. A snapshot is discarded
and counted while one is written, or with the ring full and not to be overwritten; else it holds every counter, the slot's VALID is cleared where its word can be read, and NOW_CLEAR clears the enabled ones. Written, its words stand in slot HEAD and its header last, HEAD advances and a full ring loses its oldest;
the mirror takes it or counts a skip; a slice on region 135 is aborted by the writes. TAIL frees slots within the occupied range. While region 135 is excluded every write completes UNIT_ERROR. -/
def Obligations.CountersAndSnapshots : Prop :=
  ∀ (s : State) (ag : Agent) (nn : BitVec 8) (half : Fin 3) (v : W32) (w : W64) (amount : BitVec 16), s.Canonical →
    let n := nn.toNat
    let still := fun c : Instr => exec c s = .next s
    let next := fun f : Fld => (f, 0, min (s.rd f 0 + 1) (2 ^ f.w - 1))
    let out := s.regionExcluded 135 = true
    let ends := fun (c : Instr) (st : Status) => exec c s = .next (s.answer st 0)
    (s.Accepts ag .PERF_SEL n v.toNat →
      let e := F.PERF_SEL_EVENT.of v.toNat
      let defined := e ≤ 3 ∨ (0x200 ≤ e ∧ e < 0x240) ∨ (0x240 ≤ e ∧ e ≤ 0x24A) ∨ (0x250 ≤ e ∧ e ≤ 0x25A) ∨ (0x400 ≤ e ∧ e < 0x600) ∨
        (0x800 ≤ e ∧ e < 0xC00 ∧ e % 64 < 48) ∨ (0xC00 ≤ e ∧ e < 0xE00 ∧ e % 32 < 24) ∨ (0xE00 ≤ e ∧ e < 0xF00 ∧ e % 32 < 24) ∨ (0xF00 ≤ e ∧ e < 0xF50)
      (out → ends (.perfSelWrite ag nn v) .unitError) ∧ (¬ out → ¬ defined → ends (.perfSelWrite ag nn v) .refusedState) ∧
      (¬ out → defined → Does (.perfSelWrite ag nn v) s fun t => (s.answer .ok 0).Becomes t [(F.PERF_SEL_EN, n, F.PERF_SEL_EN.of v.toNat),
        (F.PERF_SEL_SAMPLE, n, F.PERF_SEL_SAMPLE.of v.toNat), (F.PERF_SEL_EVENT, n, e)] false)) ∧
    (s.Accepts ag .PERF_CNT_LO n w.toNat →
      let lo := (F.PERF_CNT_LO_VALUE, n, w.toNat % 2 ^ 32)
      (out → ends (.perfCntWrite ag nn half w) .unitError) ∧
      (¬ out → Does (.perfCntWrite ag nn half w) s fun t => (s.answer .ok 0).Becomes t (if half.val = 0 then [lo] else if half.val = 1 then [(F.PERF_CNT_HI_VALUE, n, w.toNat % 2 ^ 32)] else
        [lo, (F.PERF_CNT_HI_VALUE, n, w.toNat / 2 ^ 32)]) false)) ∧
    (let sum := s.rd F.PERF_CNT_HI_VALUE n * 2 ^ 32 + s.rd F.PERF_CNT_LO_VALUE n + amount.toNat
     let carries := s.on F.PERF_CTL_GLOBAL_EN 0 = true ∧ s.on F.PERF_SEL_EN n = true ∧ s.rd F.PERF_SEL_EVENT n ≠ 0 ∧ 2 ^ 64 ≤ sum
     let k := s.rd F.PERF_SEL_SAMPLE n
     let load := (if k = 0 then 0 else 2 ^ 64 - 2 ^ k) + (sum - 2 ^ 64)
     let src := 32 * s.owner (.counter n) + 18
     let set := fun t : State => s.Becomes t [(F.PERF_OVF_OVF, n / 32, Nat.lor (s.rd F.PERF_OVF_OVF (n / 32)) (2 ^ (n % 32)) % 2 ^ 32),
       (F.PERF_CNT_LO_VALUE, n, load % 2 ^ 32), (F.PERF_CNT_HI_VALUE, n, load / 2 ^ 32 % 2 ^ 32)] false
     (¬ carries → still (.counterOverflow nn amount)) ∧ (carries → 8 ≤ s.owner (.counter n) → Does (.counterOverflow nn amount) s set) ∧
     (carries → s.owner (.counter n) < 8 → DoesThen (.counterOverflow nn amount) s (fun t => t.irq src) set)) ∧
    (∀ e k : Nat, s.perf e k = s.perfSpread e (min k 65535) ∧ s.perfSpread e 0 = s ∧ (k ≠ 0 → s.perfSpread e k = { s with perfPipe := s.perfPipe ++ [(s.time, e, k)] })) ∧
    (∀ t : State, t.Canonical → t.perfFlush.Becomes t.perfClear
      (((List.range 256).filter fun i => t.on F.PERF_SEL_EN i).flatMap fun i => [(F.PERF_CNT_LO_VALUE, i, 0), (F.PERF_CNT_HI_VALUE, i, 0)]) false) ∧
    (let slot := s.rd F.PERF_RING_HEAD 0
     let used := s.rd F.PERF_MIRROR_OCCUPIED 0
     let drops := s.snap ≠ none ∨ (used = 31 ∧ s.on F.PERF_RING_OVERWRITE 0 = false)
     let head := 16 * (slot - 1) + 3
     let lost := fun (base : State) (t : State) => base.Becomes t [next F.PERF_STATUS_MISSED] false
     let begun := fun (base : State) (demand clear : Bool) (t : State) =>
       (∃ x : Snap, t.snap = some x ∧ x.time = s.time ∧ x.demand = demand ∧ x.cleared = clear ∧ x.values.length = 256 ∧
         ∀ i < 256, x.values.getD i 0 = s.perfFlush.rd F.PERF_CNT_HI_VALUE i * 2 ^ 32 + s.perfFlush.rd F.PERF_CNT_LO_VALUE i ∧
           (i ∈ x.enabled ↔ s.on F.PERF_CTL_GLOBAL_EN 0 = true ∧ s.on F.PERF_SEL_EN i = true)) ∧
       ({ base with snap := t.snap } : State).Becomes t [(F.PERF_STATUS_WRITING, 0, 1)] false
     let unflagged := fun (clear : Bool) (t : State) =>
       let r := t.ringWord head
       let u := match r.2 with
         | .good a => s.unlessReset r.1 fun u => u.ringPair (head / 2 * 2) (a % 2 ^ 32) (a / 2 ^ 32 / 2 * 2)
         | .bad => r.1
       if clear then s.unlessReset u State.perfClear else u
     let told := fun t : State => (t.answer .ok 0).settle
     let commanded := fun (c : Instr) (clear : Bool) => (out → ends c .unitError) ∧ (¬ out → drops → Does c s (lost (s.answer .ok 0))) ∧
       (¬ out → ¬ drops → DoesThen c s (fun t => told (unflagged clear t)) (begun s true clear))
     (s.Accepts ag .PERF_DUMP 0 1 → commanded (.perfNow ag) false) ∧
     (s.Accepts ag .PERF_DUMP 0 2 → commanded (.perfNowClear ag) true) ∧
     (s.perfNext = none → still .periodicSnapshot) ∧
     (∀ at_, s.perfNext = some at_ →
       let later : State := { s with perfNext := some (at_ + max 10 (s.rd F.PERF_DUMP_CFG_PERIOD 0) * 2500) }
       let due := at_ ≤ s.time ∧ ¬ out
       (¬ due → still .periodicSnapshot) ∧
       (due → s.blockAsleep 23 = true → exec .periodicSnapshot s = .next (s.wakeBlock 23)) ∧
       (due → s.blockAsleep 23 = false → drops → Does .periodicSnapshot s (lost later)) ∧
       (due → s.blockAsleep 23 = false → ¬ drops → DoesThen .periodicSnapshot s (unflagged false) (begun later false false))) ∧
     (s.snap = none → still .snapshotWritten) ∧
     (s.sliceRegion = some 135 → ∀ x, s.snap = some x → x.values ≠ [] → exec .snapshotWritten s = exec .snapshotWritten (s.dataPath 135)) ∧
     (∀ x, s.snap = some x → s.sliceRegion ≠ some 135 → Does .snapshotWritten s fun t =>
       let seq := if s.snapSeq + 1 < 2 ^ 32 then s.snapSeq + 1 else 1
       let ch := s.rd F.PERF_MIRROR_CHANNEL 0
       let open1 := s.on F.HOLD_STATUS_READY 0 = true ∧ s.chServes ch = true
       let copied := s.on F.PERF_MIRROR_EN 0 = true ∧ open1
       let front := fun m : Nat => [x.time % 2 ^ 32, x.time / 2 ^ 32 % 2 ^ 32, seq, 1 + 2 * bit x.demand + 4 * bit x.cleared + 16 * m + 256 * slot] ++
         (List.range 8).map (fun j => (x.enabled.filter fun i => i / 32 = j).foldl (fun a i => a + 2 ^ (i % 32)) 0) ++ [0, 0, 0]
       let words := x.values.flatMap fun a => [a % 2 ^ 32, a / 2 ^ 32]
       let hdr := front (if copied then 1 else 0) ++ [crc32 ((front 0 ++ words).flatMap (bytesLe 4))]
       let entry := (ch * 256 + s.rd F.PERF_MIRROR_NEXT 0) * 528
       let after := fun k : Nat => if k = 31 then 1 else k + 1
       let keep := fun f : Fld => (f, 0, t.rd f 0)
       (∀ i < 16, s.isWithheld 7 ((16 * (slot - 1) + i) / 2) = false → t.ld .ring (16 * (slot - 1) + i) = hdr.getD i 0 % 2 ^ 32) ∧
       (∀ i < words.length, 1 ≤ slot ∨ 16 ≤ i → s.isWithheld 7 ((512 * slot + i) / 2) = false → t.ld .ring (512 * slot + i) = words.getD i 0 % 2 ^ 32) ∧
       (∀ j, (j < 16 * (slot - 1) ∨ 16 * (slot - 1) + 16 ≤ j) → (j < 512 * slot ∨ 512 * slot + words.length ≤ j) → t.ld .ring j = s.ld .ring j) ∧
       (copied → ∀ i < 16 + words.length, t.ld .mirror (entry + i) = (hdr ++ words).getD i 0 % 2 ^ 32) ∧
       (∀ j, ¬ copied ∨ j < entry ∨ entry + 16 + words.length ≤ j → t.ld .mirror j = s.ld .mirror j) ∧
       (∀ sp j, sp ≠ .ring → sp ≠ .valid → sp ≠ .mirror → t.ld sp j = s.ld sp j) ∧
       Amap.find t.trafficAt 135 = some s.time ∧ (∀ r ≠ 135, Amap.find t.trafficAt r = Amap.find s.trafficAt r) ∧
       ({ s with snap := none, snapSeq := seq, mem := t.mem, marks := t.marks, trafficAt := t.trafficAt } : State).Becomes t
         ([(F.PERF_STATUS_WRITING, 0, 0), (F.PERF_RING_HEAD, 0, after slot % 32), keep F.MEMP_STATUS_ARMED, keep F.MEMP_INJECT_CTL_ARM] ++
           (if used = 31 then [(F.PERF_RING_TAIL, 0, after (s.rd F.PERF_RING_TAIL 0) % 32), next F.PERF_STATUS_OVERWRITTEN]
             else [(F.PERF_MIRROR_OCCUPIED, 0, (used + 1) % 2 ^ F.PERF_MIRROR_OCCUPIED.w)]) ++
           (if copied then [(F.PERF_MIRROR_NEXT, 0, (s.rd F.PERF_MIRROR_NEXT 0 + 1) % 256)]
             else if s.on F.PERF_MIRROR_EN 0 then [next F.PERF_STATUS_MIRROR_SKIP] else [])) true) ∧
     (s.Accepts ag .PERF_RING 0 v.toNat →
       let tail := F.PERF_RING_TAIL.of v.toNat
       let freed := (tail + 31 - s.rd F.PERF_RING_TAIL 0) % 31
       (out → ends (.perfRingTailWrite ag v) .unitError) ∧ (¬ out → tail = 0 ∨ used < freed → ends (.perfRingTailWrite ag v) .refusedState) ∧
       (¬ out → tail ≠ 0 → freed ≤ used → Does (.perfRingTailWrite ag v) s fun t => (s.answer .ok 0).Becomes t
         [(F.PERF_RING_OVERWRITE, 0, F.PERF_RING_OVERWRITE.of v.toNat), (F.PERF_RING_TAIL, 0, tail), (F.PERF_MIRROR_OCCUPIED, 0, used - freed)] false)))

/-! ### Start-up, reset and images (chapter 19) -/

/-- A reset returns all that Table 19-2 does not keep to its reset value, records CAUSE and its count, takes the image pointer and a new non-zero epoch, and is journalled; the pin acts only where a reset may be released, and any other cause holds the device until then. A
low rail raises line 39, then holds, and the last recovery releases with cause 6. Boot checks the bank of the voted pointer, then the other, recording why one fails, and with none or on the strap is in recovery; the load puts words, areas,
owners and keys in place. Writes of the store merge into a 256-bit word, image and digest under their rules; VERIFY records the check, ACTIVATE names a verified bank; the digest is written once. -/
def Obligations.StartupAndImages : Prop :=
  ∀ (s : State) (ag : Agent) (cause : Fin 7) (src : Fin 64) (inst : BitVec 8) (rail : Fin 16) (entry : EntryTable) (v : W32) (bank : Fin 2) (d : BitVec 384),
    s.Canonical →
    let still := fun c : Instr => exec c s = .next s
    let cleared := fun u t : State =>
      (∀ sp j, t.ld sp j = if keptSpace sp then u.ld sp j else sp.dflt j) ∧
      t = { State.reset with
        pending := u.pending, regs := t.regs, mem := t.mem, freeCtr := u.freeCtr, lastStatus := u.lastStatus, lastValue := u.lastValue, out := u.out
        marks := u.marks.filter fun m => m.region = 9 ∨ m.region = 10 ∧ m.word = 270
        resets := u.resets + 1, authFailures := u.authFailures, resetCause := t.resetCause
        oscLost := u.oscLost, alivePhase := u.alivePhase, railsLow := u.railsLow, cutTripped := u.cutTripped, cutArmed := t.cutArmed, digestDone := u.digestDone
        ptrBank := u.ptrBank, ptrGen := u.ptrGen, epochCount := u.epochCount, journal := u.journal, bootStrap := u.bootStrap, tamperLow := u.tamperLow
        testEn := u.testEn, jtag := u.jtag, inReset := t.inReset }
    let kept := fun (u t : State) (g : Fld) (j : Nat) => t.rd g j = if keptField (g.key j) then u.rd g j else g.reset j
    let held := fun (u : State) (k : Nat) (t : State) => cleared u t ∧ t.inReset = true ∧ t.resetCause = some k ∧ t.cutArmed = u.cutArmed ∧ ∀ g j, kept u t g j
    let readied := fun (u : State) (k : Nat) (v : State) => cleared u v ∧ v.inReset = false ∧ v.resetCause = none ∧ v.cutArmed = false ∧
      v.rd F.SYS_RESET_CAUSE_CAUSE 0 = k ∧
      v.rd F.SYS_RESET_CAUSE_COUNT 0 = (if k = 0 then u.rd F.SYS_RESET_CAUSE_COUNT 0 else min (u.rd F.SYS_RESET_CAUSE_COUNT 0 + 1) 255) ∧
      v.rd F.SYS_IMAGE_PTR_LO_BANK 0 = u.ptrBank % 2 ∧ v.rd F.SYS_IMAGE_PTR_HI_GEN 0 = u.ptrGen % 2 ^ 32 ∧ v.rd F.THERM_STATUS_STATE 0 = (if k = 5 then 5 else 0) ∧
      ∀ g j, g.reg ∉ [Reg.SYS_RESET_CAUSE, .SYS_IMAGE_PTR_LO, .SYS_IMAGE_PTR_HI] → g.key j ≠ F.THERM_STATUS_STATE.key 0 → kept u v g j
    let follows := fun (k : Nat) (v : State) =>
      let x := v.takeEpoch
      let y := x.2.foldl (fun (t : State) (e : Line) => if t.busy e.1 then t else t.latch e.1 e.2.1 e.2.2) x.1
      let z := if y.collectorLevel then y.irq 475 else y
      z.journalAdd 1 [k, z.rd F.SYS_EPOCH_VALUE 0]
    let after := fun (u : State) (k : Nat) (t : State) => ∃ v, readied u k v ∧ t = follows k v
    let frees := fun u : State => u.railsLow = [] ∧ u.testEn = false ∧ u.cutTripped = false
    let asked := fun (u : State) (k : Nat) (t : State) => (frees u ∧ u.cutArmed = false → after u k t) ∧ (¬ (frees u ∧ u.cutArmed = false) → held u k t)
    let gone := fun m : Nat × Nat => decodeWord 9 m.1 m.2 = .uncorrectable ∨ decodeWord 9 m.1 m.2 = .poison
    let counter := 0x1FF0040 / 32
    (∀ v : State, (∀ w ∈ v.withheld, w.region ≠ 9) →
      (∀ first count : Nat, ((v.peatTake first count).2.1 = true ↔ ∃ w, first ≤ w ∧ w < first + count ∧ gone (v.markOf 9 w 0)) ∧
        (v.spanWords 9 first count = [] → v.peatTake first count = (v, false, []))) ∧
      (let x := v.takeEpoch
       let e := nextEpoch v.epochCount
       (¬ gone (v.markOf 9 counter 0) → x.1.rd F.SYS_EPOCH_VALUE 0 = e ∧ x.1.epochCount = e) ∧
       (gone (v.markOf 9 counter 0) → x.1.rd F.SYS_EPOCH_VALUE 0 ≠ 0 ∧ x.1.epochCount = v.epochCount ∧ (40, 0, 3) ∈ x.2) ∧
       (v.spanWords 9 counter 1 = [] → x.2 = [] ∧ ({ v with epochCount := e } : State).Becomes x.1 [(F.SYS_EPOCH_VALUE, 0, e)] false))) ∧
    Does .powerOn s (asked { s with regs := [], mem := s.mem.filter (fun e => e.1.space = Space.peat), oscLost := false, alivePhase := true, cutTripped := false, cutArmed := false,
                                    authFailures := 0 } 0) ∧
    (¬ frees s → still .resetPin) ∧ (frees s → Does .resetPin s (after s (if s.cutArmed then 5 else 1))) ∧
    (cause.val = 1 ∨ cause.val = 5 → exec (.chipReset cause) s = exec .resetPin s) ∧
    (cause.val ≠ 1 → cause.val ≠ 5 → Does (.chipReset cause) s (asked s cause.val)) ∧
    (s.Accepts ag .SYS_RESET_CTL 0 1 → Does (.sysResetChip ag) s (asked (s.answer .ok 0) 3)) ∧
    (s.Accepts ag .SYS_RESET_CTL 0 (src.val * 2 ^ 24 + inst.toNat * 2 ^ 16 + 2) →
      (hasBlockReset src = false → exec (.sysResetBlock ag src inst) s = .next (s.answer .refusedState 0)) ∧
      (hasBlockReset src = true → exec (.sysResetBlock ag src inst) s = .next ((s.resetInstance src inst.toNat).answer .ok 0).settle)) ∧
    (rail.val ∈ s.railsLow → still (.supplyLow rail)) ∧
    (rail.val ∉ s.railsLow → s.inReset = true → exec (.supplyLow rail) s = .next { s with railsLow := s.railsLow ++ [rail.val] }) ∧
    (rail.val ∉ s.railsLow → s.inReset = false → exec (.supplyLow rail) s = .next (({ s with railsLow := s.railsLow ++ [rail.val] } : State).errorLine 39 rail.val 0)) ∧
    (s.railsLow = [] ∨ s.inReset = true → still .supplyReset) ∧ (s.railsLow ≠ [] → s.inReset = false → Does .supplyReset s (held s 6)) ∧
    (let u : State := { s with railsLow := s.railsLow.filter fun r => r ≠ rail.val }
     let last := s.inReset = true ∧ frees u ∧ s.cutArmed = false
     (s.railsLow = [] → still (.supplyRecovery rail)) ∧ (¬ last → exec (.supplyRecovery rail) s = .next u) ∧
     (s.railsLow ≠ [] → last →
       (∀ k, s.resetCause = some k → Does (.supplyRecovery rail) s (after u k)) ∧
       (s.resetCause = none → Does (.supplyRecovery rail) s fun t => ∃ v x, after u 1 v ∧ ({ v with freeCtr := v.freeCtr + 1 } : State).Becomes t [(F.SYS_RESET_CAUSE_CAUSE, 0, x)] false))) ∧
    (let res := fun b : Nat => if b = 0 then F.SYS_BOOT_STATUS_BANK0_RESULT else F.SYS_BOOT_STATUS_BANK1_RESULT
     let goes := fun b : Nat => [(F.SYS_BOOT_STATUS_BANK, 0, b % 2), (F.SYS_BOOT_STATUS_STAGE, 0, 2)]
     let lost := [(F.SYS_BOOT_STATUS_RECOVERY, 0, 1), (F.SYS_BOOT_STATUS_STAGE, 0, 6)]
     let idle := s.blocksHeld = true ∨ s.rd F.SYS_BOOT_STATUS_STAGE 0 ≠ 0
     let check := fun (u : State) (b : Nat) =>
       let k := (u.bankCheck b).2.1
       let head := u.peatRange (bankBase b) 256
       let digest := head.1.peatRange 0x1FF0000 48
       let rest := digest.1.peatRange (bankBase b + 256) (u.imageLength b + 96 - 256)
       (head.2.1 = true → k = 6) ∧ (head.2.1 = false → (u.formatOk b = false ↔ k = 2) ∧ (u.formatOk b = true → (u.revisionOk b = false ↔ k = 3) ∧
         (u.revisionOk b = true → (digest.2.1 = true ∨ u.ownerOk b = false ↔ k = 4) ∧ (digest.2.1 = false → u.ownerOk b = true → (rest.2.1 = true ↔ k = 6) ∧
           (rest.2.1 = false → (u.signatureOk b = false ↔ k = 5) ∧ (u.signatureOk b = true ↔ k = 1))))))
     let told := fun (u : State) (b : Nat) => let x := u.bankCheck b; x.1.errorLines x.2.2
     let tries := fun (c : Instr) (u : State) (b : Nat) =>
       let k := (u.bankCheck b).2.1
       let y := told u b
       check u b ∧ (y.resets ≠ u.resets → exec c s = .next y) ∧
         (y.resets = u.resets → Does c s fun t => y.Becomes t ((res b, 0, k) :: if k = 1 then goes b else lost) false)
     (idle → still .bootCheck) ∧
     (¬ idle → s.bootStrap = true → Does .bootCheck s fun t => s.Becomes t ((F.SYS_BOOT_STATUS_FORCED, 0, 1) :: lost) false) ∧
     (¬ idle → s.bootStrap = false →
       let u := s.votePtr
       let b := u.ptrBank
       let k := (u.bankCheck b).2.1
       let y := told u b
       (u.resets ≠ s.resets → exec .bootCheck s = .next u) ∧
       (u.resets = s.resets →
         (∀ w, s.tvVoted 270 = some w → b = if w = s.tvValue 270 then s.ptrBank else w % 2) ∧ (s.tvVoted 270 = none → b = 0) ∧ check u b ∧
         (y.resets ≠ u.resets → exec .bootCheck s = .next y) ∧
         (y.resets = u.resets → k = 1 → Does .bootCheck s fun t => y.Becomes t ((res b, 0, 1) :: goes b) false) ∧
         (y.resets = u.resets → k ≠ 1 → tries .bootCheck (y.wr (res b) 0 k) (1 - b)))) ∧
     (let ready := s.blocksHeld = false ∧ s.rd F.SYS_BOOT_STATUS_STAGE 0 = 2 ∧ ∀ r ∈ [131, 132, 138], s.rd F.KILN_REG_STATE r ≠ 0
      let b := s.rd F.SYS_BOOT_STATUS_BANK 0
      let cut := ∃ w ∈ s.withheld, w.region = 0 ∧ w.first < s.ld .peat ((b * 0x0E00000 + 12) / 4)
      let other := fun (u : State) (k : Nat) =>
        (u.rd (res (1 - b)) 0 ≠ 0 → Does (.bootLoad entry) s fun t => u.Becomes t ((res b, 0, k) :: lost) false) ∧
        (u.rd (res (1 - b)) 0 = 0 → tries (.bootLoad entry) (u.wr (res b) 0 k) (1 - b))
      let read := s.peatRange (b * 0x0E00000) (s.imageLength b)
      let v := read.1.errorLines read.2.2
      let n := v.ld .peat ((b * 0x0E00000 + 12) / 4)
      (¬ ready → still (.bootLoad entry)) ∧
      (ready → cut → other s 7) ∧
      (ready → ¬ cut → v.resets ≠ s.resets → exec (.bootLoad entry) s = .next v) ∧
      (ready → ¬ cut → v.resets = s.resets → read.2.1 = true → other v 6) ∧
      (ready → ¬ cut → v.resets = s.resets → read.2.1 = false → DoesThen (.bootLoad entry) s State.bootGo fun u =>
        let at0 := (b * 0x0E00000 + 256) / 4
        let whole := fun i : Nat => v.isWithheld 1 (i - 0x20000 + 0x10000) = false
        (∀ k < n, u.ld .table k = (v.ld .peat (at0 + 2 * k) * 2 ^ 32 + v.ld .peat (at0 + 2 * k + 1)) % 2 ^ 64) ∧ (∀ k, n ≤ k → u.ld .table k = v.ld .table k) ∧
        (∀ a < 8, ∀ i < 8, whole (stateArea a + i) → ∀ l x, entry.descriptors[a]? = some l → l[i]? = some x → u.ld .shared (stateArea a + i) = x.toNat) ∧
        (∀ a < 8, ∀ i < 32, whole (stateArea a + 0xC0 + i) → ∀ l, entry.maps[a]? = some l → l.length = 256 →
          u.ld .shared (stateArea a + 0xC0 + i) = numBe (((l.map BitVec.toNat).drop (8 * i)).take 8)) ∧
        (∀ i, (∀ a < 8, i < stateArea a ∨ (stateArea a + 8 ≤ i ∧ i < stateArea a + 0xC0) ∨ stateArea a + 0xE0 ≤ i) → u.ld .shared i = v.ld .shared i) ∧
        (∀ o, u.ld .owner o = match entry.owners.reverse.find? (fun e => e.1.toNat = o) with | some e => e.2.toNat | none => v.ld .owner o) ∧
        ({ v with mem := u.mem, marks := u.marks, accessKeys := entry.keys.map (fun e => (e.1.val, e.2.toNat)), runMask := entry.runMask.toNat
                  serviceFlag := entry.service, writeList := entry.writes.map (fun e => (e.1.toNat, e.2.toNat)) } : State).Becomes u
          [(F.SYS_IMAGE_VERSION_VALUE, 0, v.ld .peat ((b * 0x0E00000 + 16) / 4)), (F.SYS_BOOT_STATUS_STAGE, 0, 4),
            (F.MEMP_STATUS_ARMED, 0, u.rd F.MEMP_STATUS_ARMED 0), (F.MEMP_INJECT_CTL_ARM, 0, u.rd F.MEMP_INJECT_CTL_ARM 0)] false))) ∧
    (∀ (u : State) w l, u.Canonical → u.peatWord = some (w, l) →
      let stored := fun v t : State =>
        (∀ j, t.ld .peat j = match l.reverse.find? (fun e => e.1 = j) with | some e => e.2 % 2 ^ 32 | none => v.ld .peat j) ∧ (∀ sp j, sp ≠ .peat → t.ld sp j = v.ld sp j) ∧
        (v.on F.MEMP_STATUS_ARMED 0 = false → v.isWithheld 9 w = false → t.marks = v.marks.filter fun m => ¬ (m.region = 9 ∧ m.word = w ∧ m.copy = 0)) ∧
        ({ v with mem := t.mem, marks := t.marks } : State).Becomes t
          [(F.MEMP_STATUS_ARMED, 0, t.rd F.MEMP_STATUS_ARMED 0), (F.MEMP_INJECT_CTL_ARM, 0, t.rd F.MEMP_INJECT_CTL_ARM 0)] false
      let x := ({ u with peatWord := none } : State).peatTake w 1
      (l.length = 8 → stored { u with peatWord := none } u.peatProgram) ∧
      (l.length ≠ 8 → x.2.1 = true → u.peatProgram = x.1.errorLines x.2.2) ∧
      (l.length ≠ 8 → x.2.1 = false → ∃ t, stored x.1 t ∧ u.peatProgram = t.errorLines x.2.2)) ∧
    (let i := s.rd F.PEAT_ADDR_ADDR 0
     let to1 := (i + 1) % 2 ^ 23
     let place := peatPlace (i * 4)
     let told := fun (st : Status) (t : State) => (t.answer st 0).settle
     let u := match place with | .image _ => s.votePtr | _ => s
     let recovering := s.on F.SYS_BOOT_STATUS_RECOVERY 0 = true ∧ s.digestDone = false
     let may := (∃ b, place = .image b ∧ b ≠ u.ptrBank) ∨ place = .calibration ∨ (place = .digest ∧ recovering)
     let w := match u.peatWord with | some x => (if x.1 = i / 8 then u else u.peatProgram) | none => u
     let put : State := { w with peatWord := some (i / 8, (match w.peatWord with | some x => x.2.filter fun e => e.1 ≠ i | none => []) ++ [(i, v.toNat)]) }
     let done := fun t : State => u.unlessReset t fun t => match place with
       | .image b => { t with bankVerified := t.bankVerified.filter fun x => x ≠ b }
       | .digest => { t with digestDone := decide (i * 4 = 0x1FF002C) }
       | _ => t
     let ends := fun t : State => exec (.peatData ag (some v)) s = .next t
     s.Accepts ag .PEAT_DATA 0 v.toNat →
       (u.resets ≠ s.resets → ends (told .ok u)) ∧ (u.resets = s.resets → ¬ may → ends (told .refusedState u)) ∧
       (u.resets = s.resets → may → (w.resets ≠ u.resets → ends (told .ok w)) ∧
         (w.resets = u.resets → to1 / 8 = i / 8 → ends (told .ok (done (put.wr F.PEAT_ADDR_ADDR 0 to1)))) ∧
         (w.resets = u.resets → to1 / 8 ≠ i / 8 → ends (told .ok (done (put.unlessReset put.peatProgram fun t => t.wr F.PEAT_ADDR_ADDR 0 to1)))))) ∧
    (s.peatWord = none → still .peatWordProgram) ∧ exec .peatWordProgram s = .next s.peatProgram ∧
    (s.readCheck ag .PEAT_DATA 0 = none →
      let i := s.rd F.PEAT_ADDR_ADDR 0
      let x := s.peatTake (i / 8) 1
      let reads := fun (u : State) (st : Status) (a : Nat) => exec (.peatData ag none) s = .next ((s.unlessReset (u.errorLines x.2.2) State.peatNext).answer st a)
      match peatPlace (i * 4) with
      | .pointer => exec (.peatData ag none) s = .next (s.answer .refusedState 0)
      | place => (x.2.1 = true → reads x.1 .poisoned 0) ∧ (x.2.1 = false → match place with
        | .epoch => reads x.1 .ok x.1.epochCount
        | .journal | .none => ∃ a < 2 ^ 32, reads { x.1 with freeCtr := x.1.freeCtr + 1 } .ok a
        | _ => reads x.1 .ok (x.1.peatWordAt i))) ∧
    (s.Accepts ag .PEAT_CMD 0 (bank.val * 16 + 1) →
      (s.verifyBank ≠ none → exec (.peatVerify ag bank) s = .next (s.answer .refusedState 0)) ∧
      (s.verifyBank = none → exec (.peatVerify ag bank) s =
        .next ((s.unlessReset s.peatProgram fun t => { t with verifyBank := some bank.val }).answer .ok 0).settle)) ∧
    (s.Accepts ag .PEAT_CMD 0 (bank.val * 16 + 2) →
      (s.verifyBank ≠ none ∨ bank.val ∉ s.bankVerified → exec (.peatActivate ag bank) s = .next (s.answer .refusedState 0)) ∧
      (s.verifyBank = none → bank.val ∈ s.bankVerified → s.on F.MEMP_STATUS_ARMED 0 = false → Does (.peatActivate ag bank) s fun t =>
        let g := (s.ptrGen + 1) % 2 ^ 32
        (∀ k ∈ [1, 2, 3], t.markOf 10 270 k = (0, 0)) ∧
        ({ s with ptrBank := bank.val, ptrGen := g, marks := t.marks, journal := s.journalWith [s.time, 4, bank.val, g] }.answer .ok 0).Becomes t
          [(F.SYS_IMAGE_PTR_LO_BANK, 0, bank.val), (F.SYS_IMAGE_PTR_HI_GEN, 0, g)] true)) ∧
    (s.verifyBank = none → still .peatVerifyDone) ∧
    (∀ b, s.verifyBank = some b →
      let k := (s.bankCheck b).2.1
      let y := (s.bankCheck b).1.errorLines (s.bankCheck b).2.2
      (y.resets ≠ s.resets → exec .peatVerifyDone s = .next y) ∧
      (y.resets = s.resets → Does .peatVerifyDone s fun t => ({ y with
        verifyBank := none
        bankVerified := (y.bankVerified.filter fun x => x ≠ b) ++ if k = 1 ∧ (∀ w, y.peatWord = some w → w.1 / 0x70000 ≠ b) then [b] else [] } : State).Becomes t
          [(F.PEAT_STATUS_RESULT, 0, k)] true)) ∧
    (let allowed := ag = .host 0 ∧ 3 ≤ s.priv ag
     let open1 := s.on F.SYS_BOOT_STATUS_RECOVERY 0 = true ∧ s.digestDone = false
     (¬ allowed → exec (.ownerDigestWrite ag d) s = .next (s.answer .refusedPriv 0)) ∧ (allowed → ¬ open1 → exec (.ownerDigestWrite ag d) s = .next (s.answer .refusedState 0)) ∧
     (∃ t, exec (.ownerDigestWrite ag d) s = .next t) ∧
     (allowed → open1 → s.peatWord = none → s.spanWords 9 (0x1FF0000 / 32) 2 = [] → Does (.ownerDigestWrite ag d) s fun t => (∀ k < 12, t.ld .peat (0x7FC000 + k) = d.toNat / 2 ^ (32 * (11 - k)) % 2 ^ 32) ∧
       (∀ sp j, ¬ (sp = .peat ∧ 0x7FC000 ≤ j ∧ j < 0x7FC00C) → t.ld sp j = s.ld sp j) ∧ t = { s with mem := t.mem, digestDone := true }.answer .ok 0))

/-! ### Pins (chapter 20) -/

/-- A write of IO_BAY_PINS sets LPMODE and RESET and clears the bits written 1; RESET drives RST_N low and ends a transfer with ABORTED, and RST_N rises again only after its 10 µs. Presence and INT are followed, their
changes kept. GO starts a transfer of LEN limited to 1 to 32 bytes, or is REFUSED_STATE while one runs. A transfer ends with STOP: BUSY falls, COUNT and RESULT say how, the bytes written have gone out, a read has overwritten the bytes it read and no others;
a clock stretched too long ends it TIMEOUT. TEST_EN high holds the device in reset, low lets it start as after a chip reset, with the cause that waits or, where none does, a free value (log 1). An instruction that controls pins zeroises first; an unlisted
opcode is BYPASS. IDCODE is as R549 says. -/
def Obligations.PinsAndTest : Prop :=
  ∀ (s : State) (ag : Agent) (b : Fin 6) (v : W32) (result : Fin 7) (count : Fin 33) (data : List Byte) (opcode : Byte), s.Canonical →
    let p := s.rstPin b
    let pinFields : List (Fld × Nat × Nat) :=
      [(F.IO_BAY_PINS_LPMODE, b.val, F.IO_BAY_PINS_LPMODE.of v.toNat), (F.IO_BAY_PINS_RESET, b.val, F.IO_BAY_PINS_RESET.of v.toNat),
        (F.IO_BAY_PINS_INT_SEEN, b.val, if F.IO_BAY_PINS_INT_SEEN.of v.toNat = 1 then 0 else s.rd F.IO_BAY_PINS_INT_SEEN b),
        (F.IO_BAY_PINS_PRS_CHG, b.val, if F.IO_BAY_PINS_PRS_CHG.of v.toNat = 1 then 0 else s.rd F.IO_BAY_PINS_PRS_CHG b)]
    let resets := F.IO_BAY_PINS_RESET.of v.toNat = 1
    let pins := fun u : State => Does (.ioBayPinsWrite ag b v) s fun t => (u.answer .ok 0).Becomes t pinFields false
    let abort := fun u : State => match Amap.find u.i2c b.val with
      | some x => { u with i2c := Amap.ins natLt (Amap.erase u.i2c b.val) b.val { x with abort := true } }
      | none => u
    (s.Accepts ag .IO_BAY_PINS b v.toNat →
      (resets → p.low = true → pins (abort s)) ∧ (resets → p.low = false → pins (abort (s.setRstPin b ⟨true, s.time⟩))) ∧
      (¬ resets → (p.low = false ∨ s.time < p.since + 25000) → pins s) ∧
      (¬ resets → p.low = true → p.since + 25000 ≤ s.time → pins (s.setRstPin b { p with low := false }))) ∧
    (let lasted := p.low = true ∧ s.on F.IO_BAY_PINS_RESET b = false ∧ p.since + 25000 ≤ s.time
     (lasted → exec (.bayResetHoldEnd b) s = .next (s.setRstPin b { p with low := false })) ∧ (¬ lasted → exec (.bayResetHoldEnd b) s = .next s)) ∧
    (∀ q : Bool,
      (s.on F.IO_BAY_PINS_PRESENT b = q → exec (.modulePresence b q) s = .next s) ∧
      (s.on F.IO_BAY_PINS_PRESENT b = !q → Does (.modulePresence b q) s fun t => (if q then s else abort s).Becomes t
        [(F.IO_BAY_PINS_PRESENT, b.val, if q then 1 else 0), (F.IO_BAY_PINS_PRS_CHG, b.val, 1)] false) ∧
      Does (.moduleInt b q) s fun t => s.Becomes t
        ((F.IO_BAY_PINS_INT, b.val, if q then 1 else 0) :: if q then [(F.IO_BAY_PINS_INT_SEEN, b.val, 1)] else []) false) ∧
    (s.Accepts ag .IO_BAY_I2C_CTL b v.toNat →
      let go := F.IO_BAY_I2C_CTL_GO.of v.toNat = 1
      let cfg := [F.IO_BAY_I2C_CTL_DEV, F.IO_BAY_I2C_CTL_REG, F.IO_BAY_I2C_CTL_LEN, F.IO_BAY_I2C_CTL_SPEED, F.IO_BAY_I2C_CTL_READ].map
        fun f => (f, b.val, f.of v.toNat)
      let started : I2c := {
        dev := F.IO_BAY_I2C_CTL_DEV.of v.toNat, reg := F.IO_BAY_I2C_CTL_REG.of v.toNat, len := max 1 (min 32 (F.IO_BAY_I2C_CTL_LEN.of v.toNat))
        read := decide (F.IO_BAY_I2C_CTL_READ.of v.toNat = 1), abort := false }
      (go → s.on F.IO_BAY_I2C_STATUS_BUSY b = true → exec (.i2cGo ag b v) s = .next (s.answer .refusedState 0)) ∧
      (go → s.on F.IO_BAY_I2C_STATUS_BUSY b = false → Does (.i2cGo ag b v) s fun t =>
        (({ s with i2c := Amap.ins natLt (Amap.erase s.i2c b.val) b.val started } : State).answer .ok 0).Becomes t ((F.IO_BAY_I2C_STATUS_BUSY, b.val, 1) :: cfg) false) ∧
      (¬ go → Does (.i2cGo ag b v) s fun t => (s.answer .ok 0).Becomes t cfg false)) ∧
    (Amap.find s.i2c b.val = none → exec (.i2cTransferEnd b result count data) s = .next s ∧ exec (.i2cTimeout b count data) s = .next s) ∧
    (∀ x : I2c, Amap.find s.i2c b.val = some x →
      let byte := fun (u : State) (k : Nat) => u.rd F.IO_BAY_I2C_DATA_DATA (b.val * 8 + k / 4) / 2 ^ (8 * (3 - k % 4)) % 256
      let ends := fun (code n : Nat) (t : State) =>
        ({ s with i2c := Amap.erase s.i2c b.val, out := s.out ++ [.i2c b x.dev x.reg x.read (if x.read then [] else (List.range n).map (byte s))] } : State).Becomes t
          ([(F.IO_BAY_I2C_STATUS_BUSY, b.val, 0), (F.IO_BAY_I2C_STATUS_COUNT, b.val, n), (F.IO_BAY_I2C_STATUS_RESULT, b.val, code)] ++
            if x.read then (List.range 8).map fun j => (F.IO_BAY_I2C_DATA_DATA, b.val * 8 + j, t.rd F.IO_BAY_I2C_DATA_DATA (b.val * 8 + j)) else []) false ∧
        (x.read = true → ∀ k < 32, byte t k = if k < n then ((data.map BitVec.toNat).getD k 0) else byte s k)
      x.len ≤ 32 →
        Does (.i2cTimeout b count data) s (ends 4 (min count x.len)) ∧
        (x.abort = true → Does (.i2cTransferEnd b result count data) s (ends 6 (min count x.len))) ∧
        (x.abort = false →
          (result.val = 1 → Does (.i2cTransferEnd b result count data) s (ends 1 x.len)) ∧ (result.val = 2 ∨ result.val = 5 → Does (.i2cTransferEnd b result count data) s (ends result 0)) ∧
          (result.val = 3 → Does (.i2cTransferEnd b result count data) s (ends 3 (if x.read then 0 else min count x.len))))) ∧
    exec (.testEnable true) s = .next { { s with testEn := true }.hold with resetCause := s.resetCause, resets := s.resets + 1 } ∧
    (s.testEn = false → exec (.testEnable false) s = .next s) ∧
    (let u : State := { s with testEn := false }
     let released := s.inReset = true ∧ s.railsLow = [] ∧ s.cutTripped = false ∧ s.cutArmed = false
     (s.testEn = true → ¬ released → exec (.testEnable false) s = .next u) ∧
     (s.testEn = true → released → (∀ k, s.resetCause = some k → exec (.testEnable false) s = .next (u.chipReset k)) ∧
       (s.resetCause = none → ∃ cause, exec (.testEnable false) s = .next ((u.chipReset 1).wr F.SYS_RESET_CAUSE_CAUSE 0 cause).drawn))) ∧
    (let drives := opcode ∈ [0x00#8, 0x08#8, 0x09#8, 0x0C#8, 0x0D#8]
     (drives → exec (.jtagInstruction opcode) s = .next { s.zeroiseAll with jtag := opcode.toNat }) ∧
     (¬ drives → exec (.jtagInstruction opcode) s = .next { s with jtag := if opcode ∈ [0x01#8, 0x02#8] then opcode.toNat else 0xFF })) ∧
    exec .testLogicReset s = .next { s with jtag := 1 } ∧
    (s.rd F.SYS_REVISION_MAJOR 0 = 0 → s.idcode = 0x04880BCF)

/-! ### The interrupt controller (chapter 12) -/

/-- An event of a counted source adds 1 to COUNT and makes it pending, or at 15 is counted as lost; an event of a level source latches PENDING unless the source is active; a unit's level is sampled. A
reserved source never becomes pending. One control cycle commits, for each target that takes deliveries, the lowest-numbered pending, unmasked, inactive source of that target: it becomes ACTIVE,
COUNT falls by 1, a level source's latch is used up; every other source is unchanged, a bank receives the source's number and no other bank changes. Every event of a counted source is on its way to the counters too, one of a reserved source
alone. -/
def Obligations.InterruptEventsAndCommits : Prop :=
  ∀ (s : State) (src : Fin 512),
    let n := src.val
    let sampled := n = 475 ∨ n = 487 ∨ (levelRegs n).isSome = true
    (sampled → (s.on F.IRQ_SRC_LEVEL n = true → s.unitLevel n = true → s.on F.IRQ_SRC_ACTIVE n = false →
        Does (.irqSourceEvent src) s fun t => s.Becomes t [(F.IRQ_SRC_PENDING, n, 1)] false) ∧
      (s.on F.IRQ_SRC_LEVEL n = false ∨ s.unitLevel n = false ∨ s.on F.IRQ_SRC_ACTIVE n = true → exec (.irqSourceEvent src) s = .next s)) ∧
    (let u : State := { s with perfPipe := s.perfPipe ++ [(s.time, 0x400 + n, 1)] }
     ¬ sampled →
      (irqReserved n = true → exec (.irqSourceEvent src) s = .next u) ∧
      (irqReserved n = false →
        (s.on F.IRQ_SRC_LEVEL n = true → s.on F.IRQ_SRC_ACTIVE n = true → exec (.irqSourceEvent src) s = .next u) ∧
        (s.on F.IRQ_SRC_LEVEL n = true → s.on F.IRQ_SRC_ACTIVE n = false → Does (.irqSourceEvent src) s fun t => u.Becomes t [(F.IRQ_SRC_PENDING, n, 1)] false) ∧
        (s.on F.IRQ_SRC_LEVEL n = false → s.rd F.IRQ_SRC_COUNT n < 15 → Does (.irqSourceEvent src) s fun t =>
          u.Becomes t [(F.IRQ_SRC_PENDING, n, 1), (F.IRQ_SRC_COUNT, n, s.rd F.IRQ_SRC_COUNT n + 1)] false) ∧
        (s.on F.IRQ_SRC_LEVEL n = false → s.rd F.IRQ_SRC_COUNT n = 15 → Does (.irqSourceEvent src) s fun t =>
          u.Becomes t [(F.IRQ_STATUS_SATURATED, 0, min (s.rd F.IRQ_STATUS_SATURATED 0 + 1) (2 ^ F.IRQ_STATUS_SATURATED.w - 1))] false))) ∧
    (s.Canonical → Does .irqCommit s fun t =>
      let given := fun k => s.irqTarget k ≤ 8 ∧ s.targetReady (s.irqTarget k) = true ∧ s.deliverable (s.irqTarget k) = some k
      (∀ k, given k → t.rd F.IRQ_SRC_ACTIVE k = 1 ∧ t.ld .irqParty k = s.irqTarget k ∧
        (s.on F.IRQ_SRC_LEVEL k = true → t.rd F.IRQ_SRC_PENDING k = 0 ∧ t.rd F.IRQ_SRC_COUNT k = s.rd F.IRQ_SRC_COUNT k) ∧
        (s.on F.IRQ_SRC_LEVEL k = false → t.rd F.IRQ_SRC_COUNT k = s.rd F.IRQ_SRC_COUNT k - 1 ∧
          t.rd F.IRQ_SRC_PENDING k = if 1 < s.rd F.IRQ_SRC_COUNT k then 1 else 0)) ∧
      (∀ g k, g.reg ≠ .IRQ_SRC ∨ ¬ given k → t.rd g k = s.rd g k) ∧
      (∀ k, given k → t.rd F.IRQ_SRC_MASK k = s.rd F.IRQ_SRC_MASK k ∧ t.rd F.IRQ_SRC_LEVEL k = s.rd F.IRQ_SRC_LEVEL k ∧
        t.rd F.IRQ_SRC_MNT_TARGET k = s.rd F.IRQ_SRC_MNT_TARGET k ∧ t.rd F.IRQ_SRC_SVC_TARGET k = s.rd F.IRQ_SRC_SVC_TARGET k) ∧
      (∀ b : Fin 8, t.bank b = match (if s.targetReady b = true then s.deliverable b else none) with
        | some k => { s.bank b with irqs := (s.bank b).irqs ++ [k] }
        | none => s.bank b) ∧
      (∀ sp k, sp ≠ .irqParty ∨ ¬ given k → t.ld sp k = s.ld sp k) ∧
      ((∀ k, given k → s.irqTarget k = 8 → s.linkActive = false) → t.out = s.out) ∧
      (∀ k, given k → s.irqTarget k = 8 → s.linkActive = true → t.out = s.out ++ [.tinder (s.lanesUsed.zip (linkStripe s.lanesUsed.length
        (linkPacket tyInt 0 s.lseqTx 0 0 (bytesBe 4 ((k + s.rd F.IRQ_SRC_LEVEL k * 2 ^ 15) * 2 ^ 16 + t.rd F.IRQ_SRC_COUNT k * 2 ^ 8)))))]))

/-- A completion is accepted from the party that received an active source, or of a source that is not active from its target, NOT_OWNER otherwise; it clears ACTIVE or consumes N events, a level is sampled
again, one with nothing to complete is counted. IRQ_SW_SET makes a software source pending and is refused for any other. Writes of the mask and pending words act on each source the sender may write: a 0 written to a
pending bit clears PENDING and COUNT, a 1 sets one event where none is pending. A write of a source register from a table that the source does not target completes NOT_OWNER, one that changes LEVEL of a pending
or active source REFUSED_STATE; any other takes MASK, LEVEL and, of a shared source, the targets. -/
def Obligations.InterruptRegisters : Prop :=
  ∀ (s : State) (ag : Agent) (src : Fin 512) (w : Fin 16) (v : W32),
    let sampledAgain := fun n => s.on F.IRQ_SRC_LEVEL n = true ∧ s.unitLevel n = true
    (s.Canonical → s.Accepts ag .IRQ_COMPLETE 0 v.toNat →
      let n := F.IRQ_COMPLETE_SOURCE.of v.toNat
      let k := max 1 (F.IRQ_COMPLETE_N.of v.toNat)
      let c := s.rd F.IRQ_SRC_COUNT n
      let active := s.on F.IRQ_SRC_ACTIVE n = true
      let pend := s.on F.IRQ_SRC_PENDING n = true
      let level := s.on F.IRQ_SRC_LEVEL n = true
      let ends := fun l => Does (.irqComplete ag v) s fun t => (s.answer .ok 0).Becomes t l false
      if ag.party = (if active then s.ld .irqParty n else s.irqTarget n) then
        (active → level → (sampledAgain n → ends [(F.IRQ_SRC_ACTIVE, n, 0), (F.IRQ_SRC_PENDING, n, 1)]) ∧ (¬ sampledAgain n → ends [(F.IRQ_SRC_ACTIVE, n, 0)])) ∧
        (active → ¬ level → ends [(F.IRQ_SRC_ACTIVE, n, 0), (F.IRQ_SRC_COUNT, n, c - (k - 1)), (F.IRQ_SRC_PENDING, n, if k - 1 < c then 1 else 0)]) ∧
        (¬ active → pend → level → ends [(F.IRQ_SRC_PENDING, n, if s.unitLevel n then 1 else 0)]) ∧
        (¬ active → pend → ¬ level → ends [(F.IRQ_SRC_COUNT, n, c - k), (F.IRQ_SRC_PENDING, n, if k < c then 1 else 0)]) ∧
        (¬ active → ¬ pend → ends [(F.IRQ_STATUS_SPURIOUS, 0, min (s.rd F.IRQ_STATUS_SPURIOUS 0 + 1) (2 ^ F.IRQ_STATUS_SPURIOUS.w - 1))])
      else exec (.irqComplete ag v) s = .next (s.answer .notOwner 0)) ∧
    (s.Canonical → s.Accepts ag .IRQ_SW_SET 0 v.toNat →
      let n := F.IRQ_SW_SET_SOURCE.of v.toNat
      (256 ≤ n ∨ 16 ≤ n % 32 → exec (.irqSwSet ag v) s = .next (s.answer .refusedState 0)) ∧
      (n < 256 → n % 32 < 16 → Does (.irqSwSet ag v) s fun t => ({ s with perfPipe := s.perfPipe ++ [(s.time, 0x400 + n, 1)] }.answer .ok 0).Becomes t
        (if s.on F.IRQ_SRC_LEVEL n then (if s.on F.IRQ_SRC_ACTIVE n then [] else [(F.IRQ_SRC_PENDING, n, 1)])
         else if s.rd F.IRQ_SRC_COUNT n = 15 then [(F.IRQ_STATUS_SATURATED, 0, min (s.rd F.IRQ_STATUS_SATURATED 0 + 1) (2 ^ F.IRQ_STATUS_SATURATED.w - 1))]
         else [(F.IRQ_SRC_PENDING, n, 1), (F.IRQ_SRC_COUNT, n, s.rd F.IRQ_SRC_COUNT n + 1)]) false)) ∧
    (s.Accepts ag .IRQ_MASK w v.toNat → Does (.irqMaskWrite ag w v) s fun t =>
      (∀ n, t.rd F.IRQ_SRC_MASK n = if n / 32 = w.val ∧ s.mayWriteBit ag n = true then (if v.toNat.testBit (n % 32) then 1 else 0) else s.rd F.IRQ_SRC_MASK n) ∧
      (∀ g n, g.key n ≠ F.IRQ_SRC_MASK.key n → t.rd g n = s.rd g n) ∧ t = { s.answer .ok 0 with regs := t.regs }) ∧
    (s.Accepts ag .IRQ_PENDING w v.toNat → Does (.irqPendingWrite ag w v) s fun t =>
      (∀ n, n / 32 = w.val → s.mayWriteBit ag n = true →
        if v.toNat.testBit (n % 32) then t.rd F.IRQ_SRC_PENDING n ≠ 0 ∧
          t.rd F.IRQ_SRC_COUNT n = (if s.on F.IRQ_SRC_PENDING n ∨ s.on F.IRQ_SRC_LEVEL n then s.rd F.IRQ_SRC_COUNT n else 1)
        else t.rd F.IRQ_SRC_COUNT n = 0 ∧ t.rd F.IRQ_SRC_PENDING n = if sampledAgain n ∧ s.on F.IRQ_SRC_ACTIVE n = false then 1 else 0) ∧
      (∀ g n, g.reg ≠ .IRQ_SRC ∨ n / 32 ≠ w.val ∨ s.mayWriteBit ag n = false → t.rd g n = s.rd g n) ∧
      (∀ g n, g.lo ≠ F.IRQ_SRC_PENDING.lo → g.lo ≠ F.IRQ_SRC_COUNT.lo → t.rd g n = s.rd g n) ∧ t = { s.answer .ok 0 with regs := t.regs }) ∧
    (s.Accepts ag .IRQ_SRC src v.toNat →
      let n := src.val
      let lv := F.IRQ_SRC_LEVEL.of v.toNat
      let busy := lv ≠ s.rd F.IRQ_SRC_LEVEL n ∧ (s.on F.IRQ_SRC_PENDING n = true ∨ s.on F.IRQ_SRC_ACTIVE n = true)
      let mine := ∀ b : Fin 8, ag = .table b → s.irqTarget n = b.val
      let fields := [(F.IRQ_SRC_MASK, n, F.IRQ_SRC_MASK.of v.toNat), (F.IRQ_SRC_LEVEL, n, lv)] ++ (if n < 256 then [] else
        [(F.IRQ_SRC_MNT_TARGET, n, F.IRQ_SRC_MNT_TARGET.of v.toNat), (F.IRQ_SRC_SVC_TARGET, n, F.IRQ_SRC_SVC_TARGET.of v.toNat)])
      (irqReserved n = true → exec (.irqSrcWrite ag src v) s = .next (s.answer .ok 0)) ∧
      (irqReserved n = false → ¬ mine → exec (.irqSrcWrite ag src v) s = .next (s.answer .notOwner 0)) ∧
      (irqReserved n = false → mine → busy → exec (.irqSrcWrite ag src v) s = .next (s.answer .refusedState 0)) ∧
      (irqReserved n = false → mine → ¬ busy → Does (.irqSrcWrite ag src v) s fun t => (s.answer .ok 0).Becomes t
        (fields ++ (if lv = 1 ∧ s.unitLevel n = true ∧ s.on F.IRQ_SRC_ACTIVE n = false then [(F.IRQ_SRC_PENDING, n, 1)] else [])) false))
end

