-- ==== Sys2Proof/Laws/Store.lean ====
section
/-!
SUPPORT. Laws of the sparse tables, the register store and the memories: a read after a write, and that every write keeps the canonical form.
-/

namespace Sys2Proof.Machine

/-! ### The orders -/

/-- A strict order in which two keys that do not precede each other are equal. -/
structure Strict {κ : Type} (lt : κ → κ → Bool) : Prop where
  irrefl : ∀ a, lt a a = false
  trans : ∀ a b c, lt a b = true → lt b c = true → lt a c = true
  tri : ∀ a b, lt a b = false → lt b a = false → a = b

theorem natLt_strict : Strict natLt where
  irrefl a := by simp [natLt]
  trans a b c := by simp only [natLt, decide_eq_true_eq]; omega
  tri a b := by simp only [natLt, decide_eq_false_iff_not]; omega

theorem Reg.ctorIdx_inj {a b : Reg} (h : a.ctorIdx = b.ctorIdx) : a = b := by
  rw [← Reg.ofNat_ctorIdx a, h, Reg.ofNat_ctorIdx]

theorem Space.ctorIdx_inj {a b : Space} (h : a.ctorIdx = b.ctorIdx) : a = b := by
  rw [← Space.ofNat_ctorIdx a, h, Space.ofNat_ctorIdx]

theorem FKey.lt_strict : Strict FKey.lt where
  irrefl a := by simp [FKey.lt]
  trans a b c := by
    simp only [FKey.lt, Bool.or_eq_true, Bool.and_eq_true, decide_eq_true_eq]
    omega
  tri a b := by
    intro h1 h2
    simp only [FKey.lt, Bool.or_eq_false_iff, Bool.and_eq_false_iff, decide_eq_false_iff_not] at h1 h2
    have hr : a.reg.ctorIdx = b.reg.ctorIdx := by omega
    have hi : a.inst = b.inst := by omega
    have hl : a.lo = b.lo := by omega
    cases a; cases b
    simp only [FKey.mk.injEq]
    exact ⟨Reg.ctorIdx_inj hr, hi, hl⟩

theorem MKey.lt_strict : Strict MKey.lt where
  irrefl a := by simp [MKey.lt]
  trans a b c := by
    simp only [MKey.lt, Bool.or_eq_true, Bool.and_eq_true, decide_eq_true_eq]
    omega
  tri a b := by
    intro h1 h2
    simp only [MKey.lt, Bool.or_eq_false_iff, Bool.and_eq_false_iff, decide_eq_false_iff_not] at h1 h2
    have hr : a.space.ctorIdx = b.space.ctorIdx := by omega
    have hi : a.idx = b.idx := by omega
    cases a; cases b
    simp only [MKey.mk.injEq]
    exact ⟨Space.ctorIdx_inj hr, hi⟩

/-! ### Tables -/

section
variable {κ α : Type} [DecidableEq κ]

theorem Amap.find_erase_self (m : List (κ × α)) (k : κ) : Amap.find (Amap.erase m k) k = none := by
  induction m with
  | nil => rfl
  | cons e m ih =>
    by_cases h : e.1 = k
    · simpa [Amap.erase, h] using ih
    · have : Amap.erase (e :: m) k = e :: Amap.erase m k := by simp [Amap.erase, h]
      rw [this]; simp [Amap.find, h, ih]

theorem Amap.find_erase_ne (m : List (κ × α)) {k j : κ} (h : j ≠ k) : Amap.find (Amap.erase m k) j = Amap.find m j := by
  induction m with
  | nil => rfl
  | cons e m ih =>
    by_cases hk : e.1 = k
    · have : Amap.erase (e :: m) k = Amap.erase m k := by simp [Amap.erase, hk]
      rw [this, ih]; simp [Amap.find, show e.1 ≠ j from fun h' => h (h' ▸ hk)]
    · have : Amap.erase (e :: m) k = e :: Amap.erase m k := by simp [Amap.erase, hk]
      rw [this]; simp [Amap.find, ih]

theorem Amap.find_ins_ne (lt : κ → κ → Bool) (m : List (κ × α)) {k j : κ} (v : α) (h : j ≠ k) :
    Amap.find (Amap.ins lt m k v) j = Amap.find m j := by
  induction m with
  | nil => simp [Amap.ins, Amap.find, h.symm]
  | cons e m ih =>
    simp only [Amap.ins]
    split
    · simp [Amap.find, h.symm]
    · simp [Amap.find, ih]

theorem Amap.find_ins_self (lt : κ → κ → Bool) (m : List (κ × α)) (k : κ) (v : α) (h : Amap.find m k = none) :
    Amap.find (Amap.ins lt m k v) k = some v := by
  induction m with
  | nil => simp [Amap.ins, Amap.find]
  | cons e m ih =>
    by_cases he : e.1 = k
    · simp [Amap.find, he] at h
    · simp only [Amap.find, he, if_false] at h
      simp only [Amap.ins]
      split
      · simp [Amap.find]
      · simp [Amap.find, he, ih h]

variable [DecidableEq α]

/-- A read after a write of the same key gives the value written. -/
theorem Amap.get_put_self (lt : κ → κ → Bool) (d : α) (m : List (κ × α)) (k : κ) (v : α) :
    Amap.get d (Amap.put lt d m k v) k = v := by
  unfold Amap.put Amap.get
  split
  · rename_i h; simp [Amap.find_erase_self, h]
  · rw [Amap.find_ins_self _ _ _ _ (Amap.find_erase_self m k)]; rfl

omit [DecidableEq α] in
/-- Taking out the entry just put in gives the table back. -/
theorem Amap.erase_ins (lt : κ → κ → Bool) (m : List (κ × α)) (k : κ) (v : α) (h : ∀ e ∈ m, e.1 ≠ k) : Amap.erase (Amap.ins lt m k v) k = m := by
  induction m with
  | nil => simp [Amap.ins, Amap.erase]
  | cons e m ih =>
    have he : e.1 ≠ k := h e (by simp)
    have hm : ∀ e ∈ m, e.1 ≠ k := fun x hx => h x (by simp [hx])
    unfold Amap.ins
    split
    · simp only [Amap.erase, List.filter_cons, ne_eq, not_true, decide_false, he, not_false_eq_true, decide_true, if_true, Bool.false_eq_true, if_false]
      rw [List.filter_eq_self.2 (by simpa using hm)]
    · simp only [Amap.erase, List.filter_cons, ne_eq, he, not_false_eq_true, decide_true, if_true]
      exact congrArg _ (ih hm)

/-- The last write of a key stands. -/
theorem Amap.put_put (lt : κ → κ → Bool) (d : α) (m : List (κ × α)) (k : κ) (v w : α) :
    Amap.put lt d (Amap.put lt d m k v) k w = Amap.put lt d m k w := by
  have h : Amap.erase (Amap.put lt d m k v) k = Amap.erase m k := by
    unfold Amap.put
    split
    · simp [Amap.erase]
    · exact Amap.erase_ins lt _ k v (by simp [Amap.erase])
  unfold Amap.put at h ⊢
  rw [h]


/-- A write leaves what every other key is listed with. -/
theorem Amap.find_put_ne (lt : κ → κ → Bool) (d : α) (m : List (κ × α)) {k j : κ} (v : α) (h : j ≠ k) :
    Amap.find (Amap.put lt d m k v) j = Amap.find m j := by
  unfold Amap.put
  split
  · exact Amap.find_erase_ne m h
  · rw [Amap.find_ins_ne lt _ v h, Amap.find_erase_ne m h]

/-- A write leaves every other key. -/
theorem Amap.get_put_ne (lt : κ → κ → Bool) (d e : α) (m : List (κ × α)) {k j : κ} (v : α) (h : j ≠ k) :
    Amap.get e (Amap.put lt d m k v) j = Amap.get e m j := by
  simp [Amap.get, Amap.find_put_ne lt d m v h]

omit [DecidableEq κ] [DecidableEq α] in
theorem Amap.sorted_iff {lt : κ → κ → Bool} (o : Strict lt) (m : List (κ × α)) :
    Amap.sorted lt m = true ↔ m.Pairwise fun a b => lt a.1 b.1 = true := by
  induction m with
  | nil => simp [Amap.sorted]
  | cons a m ih =>
    cases m with
    | nil => simp [Amap.sorted]
    | cons b m =>
      simp only [Amap.sorted, Bool.and_eq_true, ih, List.pairwise_cons]
      constructor
      · rintro ⟨h, hb, hm⟩
        refine ⟨?_, hb, hm⟩
        intro c hc
        rcases List.mem_cons.1 hc with rfl | hc
        · exact h
        · exact o.trans _ _ _ h (hb c hc)
      · rintro ⟨h, hb, hm⟩
        exact ⟨h b (List.mem_cons_self ..), hb, hm⟩

omit [DecidableEq κ] [DecidableEq α] in
theorem Amap.sorted_filter {lt : κ → κ → Bool} (o : Strict lt) {m : List (κ × α)} (p : κ × α → Bool)
    (h : Amap.sorted lt m = true) : Amap.sorted lt (m.filter p) = true :=
  (Amap.sorted_iff o _).2 (((Amap.sorted_iff o _).1 h).filter p)

omit [DecidableEq κ] [DecidableEq α] in
theorem Amap.mem_ins {lt : κ → κ → Bool} {m : List (κ × α)} {k : κ} {v : α} {e : κ × α} (h : e ∈ Amap.ins lt m k v) :
    e = (k, v) ∨ e ∈ m := by
  induction m with
  | nil => simpa [Amap.ins] using h
  | cons a m ih =>
    simp only [Amap.ins] at h
    split at h
    · simpa using h
    · rcases List.mem_cons.1 h with rfl | h
      · exact .inr (List.mem_cons_self ..)
      · rcases ih h with rfl | h
        · exact .inl rfl
        · exact .inr (List.mem_cons_of_mem _ h)

omit [DecidableEq κ] [DecidableEq α] in
theorem Amap.sorted_ins {lt : κ → κ → Bool} (o : Strict lt) {m : List (κ × α)} {k : κ} {v : α} (h : Amap.sorted lt m = true)
    (hk : ∀ e ∈ m, e.1 ≠ k) : Amap.sorted lt (Amap.ins lt m k v) = true := by
  rw [Amap.sorted_iff o] at h ⊢
  induction m with
  | nil => simp [Amap.ins]
  | cons a m ih =>
    rw [List.pairwise_cons] at h
    simp only [Amap.ins]
    split
    · rename_i hl
      refine List.pairwise_cons.2 ⟨?_, List.pairwise_cons.2 h⟩
      intro c hc
      rcases List.mem_cons.1 hc with rfl | hc
      · exact hl
      · exact o.trans _ _ _ hl (h.1 c hc)
    · rename_i hl
      refine List.pairwise_cons.2 ⟨?_, ih h.2 fun e he => hk e (List.mem_cons_of_mem _ he)⟩
      intro c hc
      rcases Amap.mem_ins hc with rfl | hc
      · cases hak : lt a.1 k with
        | true => rfl
        | false => exact absurd (o.tri _ _ hak (by simpa using hl)) (hk a (List.mem_cons_self ..))
      · exact h.1 c hc

/-- A write keeps the keys strictly rising. -/
theorem Amap.sorted_put {lt : κ → κ → Bool} (o : Strict lt) (d : α) {m : List (κ × α)} (k : κ) (v : α) (h : Amap.sorted lt m = true) :
    Amap.sorted lt (Amap.put lt d m k v) = true := by
  unfold Amap.put
  split
  · exact Amap.sorted_filter o _ h
  · refine Amap.sorted_ins o (Amap.sorted_filter o _ h) ?_
    intro e he
    simpa [Amap.erase] using (List.mem_filter.1 he).2

omit [DecidableEq κ] in
/-- What holds of the entries and of the value written holds of every entry after a write. -/
theorem Amap.all_put [DecidableEq κ] {lt : κ → κ → Bool} (d : α) {m : List (κ × α)} (k : κ) (v : α) (p : κ × α → Bool)
    (h : m.all p = true) (hv : v ≠ d → p (k, v) = true) : (Amap.put lt d m k v).all p = true := by
  rw [List.all_eq_true] at h ⊢
  unfold Amap.put
  split
  · exact fun e he => h e (List.mem_filter.1 he).1
  · rename_i hd
    intro e he
    rcases Amap.mem_ins he with rfl | he
    · exact hv hd
    · exact h e (List.mem_filter.1 he).1

end

/-! ### The register store -/

/-- A read of a field after a write of it gives the value, cut to the field's width. -/
theorem RegStore.get_set_self (m : RegStore) (f : Fld) (i v : Nat) : (m.set f i v).get f i = v % 2 ^ f.w :=
  Amap.get_put_self ..

/-- A write of a field leaves every field with another key. -/
theorem RegStore.get_set_ne (m : RegStore) {f g : Fld} {i j : Nat} (v : Nat) (h : g.key j ≠ f.key i) : (m.set f i v).get g j = m.get g j :=
  Amap.get_put_ne _ _ _ _ _ h

/-- A write of a listed field keeps the canonical form. -/
theorem RegStore.wf_set {m : RegStore} (h : m.wf = true) {f : Fld} (hf : f.listed = true) (i v : Nat) : (m.set f i v).wf = true := by
  simp only [RegStore.wf, Bool.and_eq_true] at h ⊢
  refine ⟨Amap.sorted_put FKey.lt_strict _ _ _ h.1, Amap.all_put _ _ _ _ h.2 fun hv => ?_⟩
  have hf' : (f.key i).fld = some f := of_decide_eq_true hf
  simp only [RegStore.entryOk, hf', Bool.and_eq_true, decide_eq_true_eq]
  exact ⟨Nat.mod_lt _ (by positivity), hv⟩

/-- Dropping entries keeps the canonical form. -/
theorem RegStore.wf_filter {m : RegStore} (h : m.wf = true) (p : FKey × Nat → Bool) : RegStore.wf (m.filter p) = true := by
  simp only [RegStore.wf, Bool.and_eq_true, List.all_eq_true] at h ⊢
  exact ⟨Amap.sorted_filter FKey.lt_strict _ h.1, fun e he => h.2 e (List.mem_filter.1 he).1⟩

/-! ### The memories -/

theorem Space.dflt_valid (i : Nat) : Space.dflt .valid i = 0 := rfl

/-- A write of a memory word, cut to the memory's width, keeps the canonical form. -/
theorem Memory.wf_put {m : List (MKey × Nat)} (h : Memory.wf m = true) (sp : Space) (i v : Nat) :
    Memory.wf (Amap.put MKey.lt (sp.dflt i) m ⟨sp, i⟩ (v % 2 ^ sp.width)) = true := by
  simp only [Memory.wf, Bool.and_eq_true] at h ⊢
  refine ⟨Amap.sorted_put MKey.lt_strict _ _ _ h.1, Amap.all_put _ _ _ _ h.2 fun hv => ?_⟩
  simp only [Memory.entryOk, Bool.and_eq_true, decide_eq_true_eq]
  exact ⟨Nat.mod_lt _ (by positivity), hv⟩

/-- Dropping entries keeps the canonical form. -/
theorem Memory.wf_filter {m : List (MKey × Nat)} (h : Memory.wf m = true) (p : MKey × Nat → Bool) : Memory.wf (m.filter p) = true := by
  simp only [Memory.wf, Bool.and_eq_true, List.all_eq_true] at h ⊢
  exact ⟨Amap.sorted_filter MKey.lt_strict _ h.1, fun e he => h.2 e (List.mem_filter.1 he).1⟩

end Sys2Proof.Machine
end

