-- ==== Sys2Proof/Laws/Kept.lean ====
section
/-!
SUPPORT. What every operation keeps: canonical stores and the queue as it stands. The base of the per-operation lemmas that follow.
-/

namespace Sys2Proof.Machine

/-- The stores are canonical and the queue is `q`. -/
def State.Kept (q : List Instr) (s : State) : Prop := s.regs.wf = true ∧ Memory.wf s.mem = true ∧ s.pending = q

/-- Every state an optional result can hold is kept. -/
def KeptO (q : List Instr) (o : Option State) : Prop := ∀ t, o = some t → t.Kept q

/-- The same with something beside the state. -/
def KeptOP {α : Type} (q : List Instr) (o : Option (State × α)) : Prop := ∀ t, o = some t → t.1.Kept q

/-- The next state of an outcome is kept. -/
def KeptN (q : List Instr) (o : Host.Outcome State Fault Refusal) : Prop := ∀ t, o = .next t → t.Kept q

variable {q : List Instr} {s : State}

theorem Kept.ofPair {α : Type} {a : State} {b : α} (h : a.Kept q) : (a, b).1.Kept q := h
theorem Kept.id (h : s.Kept q) : (id s).Kept q := h
theorem KeptN.next (h : s.Kept q) : KeptN q (.next s) := by intro t ht; cases ht; exact h
theorem KeptO.none : KeptO q none := by intro t ht; cases ht
theorem KeptO.some (h : s.Kept q) : KeptO q (some s) := by intro t ht; cases ht; exact h
theorem KeptOP.none {α : Type} : KeptOP (α := α) q none := by intro t ht; cases ht
theorem KeptO.ite {c : Prop} [Decidable c] {a b : Option State} (ha : KeptO q a) (hb : KeptO q b) : KeptO q (if c then a else b) := by
  split <;> assumption
theorem KeptOP.some {α : Type} {p : State × α} (h : p.1.Kept q) : KeptOP q (some p) := by intro t ht; cases ht; exact h
theorem KeptO.get {o : Option State} {t : State} (h : KeptO q o) (e : o = Option.some t) : t.Kept q := h t e
theorem KeptOP.get {α : Type} {o : Option (State × α)} {t : State} {a : α} (h : KeptOP q o) (e : o = Option.some (t, a)) : t.Kept q := h _ e
theorem KeptOP.getP {α : Type} {o : Option (State × α)} {p : State × α} (h : KeptOP q o) (e : o = Option.some p) : p.1.Kept q := h _ e
theorem KeptO.getD {o : Option State} {d : State} (h : KeptO q o) (hd : d.Kept q) : (o.getD d).Kept q := by
  cases o with
  | none => exact hd
  | some t => exact h t rfl
theorem KeptOP.getD {α : Type} {o : Option (State × α)} {d : State × α} (h : KeptOP q o) (hd : d.1.Kept q) : (o.getD d).1.Kept q := by
  cases o with
  | none => exact hd
  | some t => exact h t rfl
theorem Kept.ite {c : Prop} [Decidable c] {a b : State} (ha : a.Kept q) (hb : b.Kept q) : (if c then a else b).Kept q := by
  split <;> assumption
theorem Kept.iteP {α : Type} {c : Prop} [Decidable c] {a b : State × α} (ha : a.1.Kept q) (hb : b.1.Kept q) :
    (if c then a else b).1.Kept q := by
  split <;> assumption
theorem Kept.getP {α : Type} {p : State × α} {t : State} {a : α} (h : p.1.Kept q) (e : p = (t, a)) : t.Kept q := by subst e; exact h

theorem Kept.cut {x : State} {P : Prop} (h : x.Kept q) (k : x.Kept q → P) : P := k h
theorem Kept.cutP {α : Type} {x : State × α} {P : Prop} (h : x.1.Kept q) (k : x.1.Kept q → P) : P := k h
theorem Kept.cutF {x : State → State} {P : Prop} (h : ∀ t, t.Kept q → (x t).Kept q) (k : (∀ t, t.Kept q → (x t).Kept q) → P) : P := k h
theorem Kept.cutF2 {α : Type} {x : State → α → State} {P : Prop} (h : ∀ t a, t.Kept q → (x t a).Kept q)
    (k : (∀ t a, t.Kept q → (x t a).Kept q) → P) : P := k h
theorem Kept.cutF2F {x : State → Fld → State} {P : Prop} (h : ∀ t f, t.Kept q → f.listed = true → (x t f).Kept q)
    (k : (∀ t f, t.Kept q → f.listed = true → (x t f).Kept q) → P) : P := k h
theorem Kept.cutF22 {α β : Type} {x : State → α → β → State} {P : Prop} (h : ∀ t a b, t.Kept q → (x t a b).Kept q)
    (k : (∀ t a b, t.Kept q → (x t a b).Kept q) → P) : P := k h
theorem Kept.cutF32 {α β : Type} {x : α → β → State} {P : Prop} (h : ∀ a b, (x a b).Kept q) (k : (∀ a b, (x a b).Kept q) → P) : P := k h
theorem Kept.cutFld {x : Fld} {P : Prop} (h : x.listed = true) (k : x.listed = true → P) : P := k h
theorem Kept.cutF3 {α : Type} {x : α → State} {P : Prop} (h : ∀ a, (x a).Kept q) (k : (∀ a, (x a).Kept q) → P) : P := k h
theorem KeptO.cut {x : Option State} {P : Prop} (h : KeptO q x) (k : KeptO q x → P) : P := k h
theorem KeptOP.cut {α : Type} {x : Option (State × α)} {P : Prop} (h : KeptOP q x) (k : KeptOP q x → P) : P := k h

theorem Kept.foldl {α : Type} {f : State → α → State} (hf : ∀ t x, t.Kept q → (f t x).Kept q) (l : List α) (h : s.Kept q) :
    (l.foldl f s).Kept q := by
  induction l generalizing s with
  | nil => exact h
  | cons x l ih => exact ih (hf _ _ h)

theorem Kept.foldlP {α β : Type} {f : State × β → α → State × β} (hf : ∀ t x, t.1.Kept q → (f t x).1.Kept q) (l : List α) {p : State × β}
    (h : p.1.Kept q) : (l.foldl f p).1.Kept q := by
  induction l generalizing p with
  | nil => exact h
  | cons x l ih => exact ih (hf _ _ h)

/-- Whatever leaves registers, memories and the queue is kept. -/
theorem Kept.same {t : State} (h : s.Kept q) (hr : t.regs = s.regs) (hm : t.mem = s.mem) (hp : t.pending = s.pending) : t.Kept q := by
  unfold State.Kept at *; rw [hr, hm, hp]; exact h

theorem Kept.canonical (h : s.Kept q) : s.Canonical := ⟨h.1, h.2.1⟩
theorem Kept.of (h : s.Canonical) : s.Kept s.pending := ⟨h.1, h.2, rfl⟩

/-! ### The three ways a store changes -/

theorem State.wr_kept (h : s.Kept q) {f : Fld} (hf : f.listed = true) (i v : Nat) : (s.wr f i v).Kept q :=
  ⟨RegStore.wf_set h.1 hf i v, h.2⟩

theorem State.st_kept (h : s.Kept q) (sp : Space) (i v : Nat) : (s.st sp i v).Kept q := by
  refine ⟨h.1, ?_, h.2.2⟩
  have hm := Memory.wf_put h.2.1 sp i v
  simp only [State.st]
  split
  · rename_i k _
    exact Memory.wf_put hm .valid k 1
  · exact hm

theorem State.clearMem_kept (h : s.Kept q) (sp : Space) (p : Nat → Bool) : (s.clearMem sp p).Kept q :=
  ⟨h.1, Memory.wf_filter h.2.1 _, h.2.2⟩

theorem Kept.filtered (h : s.Kept q) {t : State} (p : FKey × Nat → Bool) (m : MKey × Nat → Bool) (hr : t.regs = s.regs.filter p)
    (hm : t.mem = s.mem.filter m) (hp : t.pending = s.pending) : t.Kept q := by
  refine ⟨?_, ?_, hp.trans h.2.2⟩
  · rw [hr]; exact RegStore.wf_filter h.1 p
  · rw [hm]; exact Memory.wf_filter h.2.1 m

/-! ### Fields named by a number are listed -/

theorem resFld_listed {f g : Fld} (hf : f.listed = true) (hg : g.listed = true) (c k : Nat) : (resFld f g c k).1.listed = true := by
  unfold resFld; split <;> assumption

theorem resReady_listed (c k : Nat) : (resReady c k).1.listed = true := resFld_listed rfl rfl c k
theorem resFresh_listed (c k : Nat) : (resFresh c k).1.listed = true := resFld_listed rfl rfl c k
theorem resShort_listed (c k : Nat) : (resShort c k).1.listed = true := resFld_listed rfl rfl c k
theorem resSeq_listed (c k : Nat) : (resSeq c k).1.listed = true := resFld_listed rfl rfl c k
theorem resData_listed (c k : Nat) : (resData c k).1.listed = true := resFld_listed rfl rfl c k
theorem charFld_listed (n : Nat) : (charFld n).listed = true := by unfold charFld; split <;> rfl
theorem refOk_listed (r : Nat) : (refOk r).listed = true := by unfold refOk; split <;> rfl
theorem bankResult_listed (b : Nat) : (bankResult b).listed = true := by unfold bankResult; split <;> rfl
theorem shortFld_listed (k : Nat) : (shortFld k).listed = true := by unfold shortFld; split <;> rfl
theorem charHalf_listed (b : Bool) : (charHalf b).listed = true := by cases b <;> rfl
theorem pipeMap_listed (tx : Bool) : (pipeMap tx).listed = true := by cases tx <;> rfl
theorem pipeFailMap_listed (tx : Bool) : (pipeFailMap tx).listed = true := by cases tx <;> rfl
theorem sqFlds_listed (k : Nat) : (sqFlds k).1.listed = true ∧ (sqFlds k).2.listed = true := by unfold sqFlds; split <;> exact ⟨rfl, rfl⟩
theorem roleFld_listed {i : Nat} (h : i < 8) : (roleFld i).listed = true := by
  interval_cases i <;> rfl
theorem logicalFld_listed {i : Nat} (h : i < 8) : (logicalFld i).listed = true := by
  interval_cases i <;> rfl
theorem peakFld_listed {i : Nat} (h : i < 4) : (peakFld i).listed = true := by
  interval_cases i <;> rfl

theorem Kept.foldlMem {α : Type} {f : State → α → State} (l : List α) (hf : ∀ t x, x ∈ l → t.Kept q → (f t x).Kept q) (h : s.Kept q) :
    (l.foldl f s).Kept q := by
  induction l generalizing s with
  | nil => exact h
  | cons x l ih => exact ih (fun t y hy => hf t y (List.mem_cons_of_mem _ hy)) (hf _ _ (List.mem_cons_self ..) h)

theorem Reg.fields_listed (r : Reg) : ∀ f ∈ r.fields, f.listed = true := by
  have h : r.fields.all Fld.listed = true := by cases r <;> rfl
  exact List.all_eq_true.1 h

theorem Kept.foldlFields {f : State → Fld → State} {l : List Fld} (hl : ∀ x ∈ l, x.listed = true)
    (hf : ∀ t x, x.listed = true → t.Kept q → (f t x).Kept q) (h : s.Kept q) : (l.foldl f s).Kept q :=
  Kept.foldlMem l (fun t x hx ht => hf t x (hl x hx) ht) h

theorem State.laneIndex_lt (s : State) (n : Nat) : s.laneIndex n < 8 :=
  Nat.lt_of_le_of_lt (Nat.mod_le _ _) (Nat.mod_lt _ (by decide))

end Sys2Proof.Machine
end

