-- ==== Sys2Proof/Laws/KeptOps.lean ====
section
/-!
SUPPORT. Every operation of Machine/Ops.lean keeps the stores canonical and the queue as it stands.
-/

set_option linter.unusedVariables false
set_option linter.unusedTactic false
set_option linter.unreachableTactic false
set_option linter.unnecessarySeqFocus false

namespace Sys2Proof.Machine

variable {q : List Instr}

/-- A record update that leaves registers, memories and the queue. -/
theorem Kept.upd {s : State} (h : s.Kept q) {x0 x1 x2 x3 x4 x5 x6 x7 x8 x9 x10 x11 x12 x13 x14 x15 x16 x17 x18 x19 x20 x21 x22 x23 x24 x25 x26 x27 x28 x29 x30 x31 x32 x33 x34 x35 x36 x37 x38 x39 x40 x41 x42 x43 x44 x45 x46 x47 x48 x49 x50 x51 x52 x53 x54 x55 x56 x57 x58 x59 x60 x61 x62 x63 x64 x65 x66 x67 x68 x69 x70 x71 x72 x73 x74 x75 x76 x77 x78 x79 x80 x81 x82 x83 x84 x85 x86 x87 x88 x89 x90 x91 x92 x93 x94 x95 x96 x97 x98 x99 x100 x101 x102 x103 x104 x105 x106 x107 x108 x109 x110 x111} :
    State.Kept q ⟨s.pending, x0, x1, s.regs, s.mem, x2, x3, x4, x5, x6, x7, x8, x9, x10, x11, x12, x13, x14, x15, x16, x17, x18, x19, x20, x21, x22, x23, x24, x25, x26, x27, x28, x29, x30, x31, x32, x33, x34, x35, x36, x37, x38, x39, x40, x41, x42, x43, x44, x45, x46, x47, x48, x49, x50, x51, x52, x53, x54, x55, x56, x57, x58, x59, x60, x61, x62, x63, x64, x65, x66, x67, x68, x69, x70, x71, x72, x73, x74, x75, x76, x77, x78, x79, x80, x81, x82, x83, x84, x85, x86, x87, x88, x89, x90, x91, x92, x93, x94, x95, x96, x97, x98, x99, x100, x101, x102, x103, x104, x105, x106, x107, x108, x109, x110, x111⟩ := h

theorem State.put_kept {s : State} (h0 : s.Kept q) {f1 : Fld} (hf1 : f1.listed = true) (a2) (a3) : (State.put s f1 a2 a3).Kept q := by
  unfold State.put
  repeat' first
    | with_reducible assumption
    | ((with_reducible show Fld.listed _ = true); rfl)
    | with_reducible apply State.wr_kept
    | with_reducible apply Kept.ite
    | split

theorem State.bump_kept {s : State} (h0 : s.Kept q) {f1 : Fld} (hf1 : f1.listed = true) (a2) (a3) : (State.bump s f1 a2 a3).Kept q := by
  unfold State.bump
  repeat' first
    | with_reducible assumption
    | ((with_reducible show Fld.listed _ = true); rfl)
    | with_reducible apply State.wr_kept

theorem State.bumpWrap_kept {s : State} (h0 : s.Kept q) {f1 : Fld} (hf1 : f1.listed = true) (a2) (a3) : (State.bumpWrap s f1 a2 a3).Kept q := by
  unfold State.bumpWrap
  repeat' first
    | with_reducible assumption
    | ((with_reducible show Fld.listed _ = true); rfl)
    | with_reducible apply State.wr_kept

theorem State.wrIf_kept {s : State} (h0 : s.Kept q) (a1) {f2 : Fld} (hf2 : f2.listed = true) (a3) (a4) : (State.wrIf s a1 f2 a3 a4).Kept q := by
  unfold State.wrIf
  repeat' first
    | with_reducible assumption
    | ((with_reducible show Fld.listed _ = true); rfl)
    | with_reducible apply State.wr_kept
    | with_reducible apply Kept.ite
    | split

theorem State.stRun_kept {s : State} (h0 : s.Kept q) (a1) (a2) (a3) : (State.stRun s a1 a2 a3).Kept q := by
  induction a3 generalizing s a2 with
  | nil => exact h0
  | cons v vs ih => exact ih (State.st_kept h0 a1 a2 v) (a2 + 1)

theorem State.setBank_kept {s : State} (h0 : s.Kept q) (a1) (a2) : (State.setBank s a1 a2).Kept q := by
  unfold State.setBank
  repeat' first
    | with_reducible assumption
    | fail_if_no_progress (with_reducible apply Kept.upd)

theorem State.setLane_kept {s : State} (h0 : s.Kept q) (a1) (a2) : (State.setLane s a1 a2).Kept q := by
  unfold State.setLane
  repeat' first
    | with_reducible assumption
    | fail_if_no_progress (with_reducible apply Kept.upd)

theorem State.setSess_kept {s : State} (h0 : s.Kept q) (a1) (a2) : (State.setSess s a1 a2).Kept q := by
  unfold State.setSess
  repeat' first
    | with_reducible assumption
    | fail_if_no_progress (with_reducible apply Kept.upd)

theorem State.drawn_kept {s : State} (h0 : s.Kept q) : (State.drawn s).Kept q := by
  unfold State.drawn
  repeat' first
    | with_reducible assumption
    | fail_if_no_progress (with_reducible apply Kept.upd)

theorem State.emit_kept {s : State} (h0 : s.Kept q) (a1) : (State.emit s a1).Kept q := by
  unfold State.emit
  repeat' first
    | with_reducible assumption
    | fail_if_no_progress (with_reducible apply Kept.upd)

theorem State.answer_kept {s : State} (h0 : s.Kept q) (a1) (a2) : (State.answer s a1 a2).Kept q := by
  unfold State.answer
  repeat' first
    | with_reducible assumption
    | fail_if_no_progress (with_reducible apply Kept.upd)

theorem State.irqTake_kept {s : State} (h0 : s.Kept q) (a1) : (State.irqTake s a1).Kept q := by
  unfold State.irqTake
  repeat' first
    | with_reducible assumption
    | ((with_reducible show Fld.listed _ = true); rfl)
    | with_reducible apply State.put_kept
    | with_reducible apply State.bump_kept
    | with_reducible apply State.wr_kept
    | with_reducible apply Kept.ite
    | split

theorem State.perfSet_kept {s : State} (h0 : s.Kept q) (a1) (a2) : (State.perfSet s a1 a2).Kept q := by
  unfold State.perfSet
  repeat' first
    | with_reducible assumption
    | ((with_reducible show Fld.listed _ = true); rfl)
    | with_reducible apply State.wr_kept

theorem State.perfOver_kept {s : State} (h0 : s.Kept q) (a1) (a2) : (State.perfOver s a1 a2).Kept q := by
  unfold State.perfOver
  repeat' first
    | with_reducible assumption
    | ((with_reducible show Fld.listed _ = true); rfl)
    | (fail_if_no_progress (extract_lets +onlyGivenNames x)
       first
       | clear_value x
       | skip)
    | with_reducible apply State.perfSet_kept
    | with_reducible apply State.wr_kept
    | with_reducible apply Kept.ite
    | split

theorem State.perfSpread_kept {s : State} (h0 : s.Kept q) (a1) (a2) : (State.perfSpread s a1 a2).Kept q := by
  unfold State.perfSpread
  repeat' first
    | with_reducible assumption
    | with_reducible apply Kept.ite
    | split
    | fail_if_no_progress (with_reducible apply Kept.upd)

theorem State.perf_kept {s : State} (h0 : s.Kept q) (a1) (a2) : (State.perf s a1 a2).Kept q := by
  unfold State.perf
  repeat' first
    | with_reducible assumption
    | with_reducible apply State.perfSpread_kept

theorem State.perfLane_kept {s : State} (h0 : s.Kept q) (a1) (a2) (a3) : (State.perfLane s a1 a2 a3).Kept q := by
  unfold State.perfLane
  repeat' first
    | with_reducible assumption
    | with_reducible apply State.perf_kept

theorem State.perfTun_kept {s : State} (h0 : s.Kept q) (a1) (a2) (a3) : (State.perfTun s a1 a2 a3).Kept q := by
  unfold State.perfTun
  repeat' first
    | with_reducible assumption
    | with_reducible apply State.perf_kept

theorem State.perfCh_kept {s : State} (h0 : s.Kept q) (a1) (a2) (a3) : (State.perfCh s a1 a2 a3).Kept q := by
  unfold State.perfCh
  repeat' first
    | with_reducible assumption
    | with_reducible apply State.perf_kept

theorem State.perfBank_kept {s : State} (h0 : s.Kept q) (a1) (a2) (a3) : (State.perfBank s a1 a2 a3).Kept q := by
  unfold State.perfBank
  repeat' first
    | with_reducible assumption
    | with_reducible apply State.perf_kept

theorem State.irq_kept {s : State} (h0 : s.Kept q) (a1) : (State.irq s a1).Kept q := by
  unfold State.irq
  repeat' first
    | with_reducible assumption
    | with_reducible apply State.irqTake_kept
    | with_reducible apply State.perf_kept

theorem State.perfAdd_kept {s : State} (h0 : s.Kept q) (a1) (a2) : (State.perfAdd s a1 a2).Kept q := by
  unfold State.perfAdd
  repeat' first
    | with_reducible assumption
    | (fail_if_no_progress (extract_lets +onlyGivenNames x)
       first
       | clear_value x
       | skip)
    | with_reducible apply State.perfSet_kept
    | with_reducible apply State.irq_kept
    | with_reducible apply State.perfOver_kept
    | with_reducible apply Kept.ite
    | split

theorem State.perfArrive_kept {s : State} (h0 : s.Kept q) (a1) : (State.perfArrive s a1).Kept q := by
  unfold State.perfArrive
  repeat' first
    | with_reducible intro _
    | with_reducible assumption
    | with_reducible apply State.perfAdd_kept
    | with_reducible apply Kept.foldlFields
    | exact Reg.fields_listed _ _ (by assumption)
    | with_reducible apply Kept.foldl
    | with_reducible apply Kept.foldlP

theorem State.perfDrain_kept {s : State} (h0 : s.Kept q) : (State.perfDrain s).Kept q := by
  unfold State.perfDrain
  repeat' first
    | with_reducible intro _
    | with_reducible assumption
    | (fail_if_no_progress (extract_lets +onlyGivenNames x)
       first
       | clear_value x
       | skip)
    | with_reducible apply State.perfArrive_kept
    | with_reducible apply Kept.foldlFields
    | exact Reg.fields_listed _ _ (by assumption)
    | with_reducible apply Kept.foldl
    | with_reducible apply Kept.foldlP
    | fail_if_no_progress (with_reducible apply Kept.upd)

theorem State.perfFlush_kept {s : State} (h0 : s.Kept q) : (State.perfFlush s).Kept q := by
  unfold State.perfFlush
  repeat' first
    | with_reducible intro _
    | with_reducible assumption
    | with_reducible apply State.perfArrive_kept
    | with_reducible apply Kept.foldlFields
    | exact Reg.fields_listed _ _ (by assumption)
    | with_reducible apply Kept.foldl
    | with_reducible apply Kept.foldlP
    | fail_if_no_progress (with_reducible apply Kept.upd)

theorem State.journalAdd_kept {s : State} (h0 : s.Kept q) (a1) (a2) : (State.journalAdd s a1 a2).Kept q := by
  unfold State.journalAdd
  repeat' first
    | with_reducible assumption
    | (fail_if_no_progress (extract_lets +onlyGivenNames x)
       first
       | clear_value x
       | skip)
    | fail_if_no_progress (with_reducible apply Kept.upd)

end Sys2Proof.Machine
end

