-- ==== Sys2Proof/Laws/KeptLevel.lean ====
section
/-!
SUPPORT. Every operation of Machine/Level.lean keeps the stores canonical and the queue as it stands.
-/

set_option linter.unusedVariables false
set_option linter.unusedTactic false
set_option linter.unreachableTactic false
set_option linter.unnecessarySeqFocus false

namespace Sys2Proof.Machine

variable {q : List Instr}

theorem State.levelEdge_kept {s : State} (h0 : s.Kept q) {s1 : State} (h1 : s1.Kept q) (a2) (a3) : (State.levelEdge s s1 a2 a3).Kept q := by
  unfold State.levelEdge
  repeat' first
    | with_reducible intro _
    | with_reducible assumption
    | with_reducible apply State.irq_kept
    | with_reducible apply Kept.ite
    | split

theorem State.event_kept {s : State} (h0 : s.Kept q) {f1 : Fld} (hf1 : f1.listed = true) (a2) : (State.event s f1 a2).Kept q := by
  unfold State.event
  repeat' first
    | with_reducible assumption
    | ((with_reducible show Fld.listed _ = true); rfl)
    | with_reducible apply State.levelEdge_kept
    | with_reducible apply State.put_kept

theorem State.eventIf_kept {s : State} (h0 : s.Kept q) (a1) {f2 : Fld} (hf2 : f2.listed = true) (a3) : (State.eventIf s a1 f2 a3).Kept q := by
  unfold State.eventIf
  repeat' first
    | with_reducible assumption
    | ((with_reducible show Fld.listed _ = true); rfl)
    | with_reducible apply State.event_kept
    | with_reducible apply Kept.ite
    | split

end Sys2Proof.Machine
end

