-- ==== Sys2Proof/Laws/KeptReady.lean ====
section
/-!
SUPPORT. Every operation of Machine/Ready.lean keeps the stores canonical and the queue as it stands.
-/

set_option linter.unusedVariables false
set_option linter.unusedTactic false
set_option linter.unreachableTactic false
set_option linter.unnecessarySeqFocus false

namespace Sys2Proof.Machine

variable {q : List Instr}

theorem State.setLock_kept {s : State} (h0 : s.Kept q) (a1) (a2) : (State.setLock s a1 a2).Kept q := by
  unfold State.setLock
  repeat' first
    | with_reducible assumption
    | fail_if_no_progress (with_reducible apply Kept.upd)

theorem State.setPort_kept {s : State} (h0 : s.Kept q) (a1) (a2) : (State.setPort s a1 a2).Kept q := by
  unfold State.setPort
  repeat' first
    | with_reducible assumption
    | fail_if_no_progress (with_reducible apply Kept.upd)

theorem State.setProt_kept {s : State} (h0 : s.Kept q) (a1) (a2) : (State.setProt s a1 a2).Kept q := by
  unfold State.setProt
  repeat' first
    | with_reducible assumption
    | fail_if_no_progress (with_reducible apply Kept.upd)

theorem State.setTtx_kept {s : State} (h0 : s.Kept q) (a1) (a2) : (State.setTtx s a1 a2).Kept q := by
  unfold State.setTtx
  repeat' first
    | with_reducible assumption
    | fail_if_no_progress (with_reducible apply Kept.upd)

theorem State.setTrx_kept {s : State} (h0 : s.Kept q) (a1) (a2) : (State.setTrx s a1 a2).Kept q := by
  unfold State.setTrx
  repeat' first
    | with_reducible assumption
    | fail_if_no_progress (with_reducible apply Kept.upd)

theorem State.track_kept {s : State} (h0 : s.Kept q) {f1 : Fld} (hf1 : f1.listed = true) {f2 : Fld} (hf2 : f2.listed = true) (a3) (a4) : (State.track s f1 f2 a3 a4).Kept q := by
  unfold State.track
  repeat' first
    | with_reducible assumption
    | ((with_reducible show Fld.listed _ = true); rfl)
    | with_reducible apply State.event_kept
    | with_reducible apply State.put_kept
    | with_reducible apply Kept.ite
    | split

theorem State.portReady_kept {s : State} (h0 : s.Kept q) (a1) : (State.portReady s a1).Kept q := by
  unfold State.portReady
  repeat' first
    | with_reducible assumption
    | ((with_reducible show Fld.listed _ = true); rfl)
    | (fail_if_no_progress (extract_lets +onlyGivenNames x)
       first
       | (refine Kept.cut (q := q) (x := x) ?_ ?_ <;> [unfold x; ((try clear_value x); intro _)])
       | clear_value x
       | skip)
    | with_reducible apply State.setPort_kept
    | with_reducible apply State.track_kept
    | with_reducible apply Kept.ite
    | split

theorem State.pathTrack_kept {s : State} (h0 : s.Kept q) (a1) {f2 : Fld} (hf2 : f2.listed = true) {f3 : Fld} (hf3 : f3.listed = true) {f4 : Fld} (hf4 : f4.listed = true) : (State.pathTrack s a1 f2 f3 f4).Kept q := by
  unfold State.pathTrack
  repeat' first
    | with_reducible assumption
    | ((with_reducible show Fld.listed _ = true); rfl)
    | (fail_if_no_progress (extract_lets +onlyGivenNames x)
       first
       | clear_value x
       | skip)
    | with_reducible apply State.event_kept
    | with_reducible apply State.wr_kept
    | with_reducible apply Kept.ite
    | split

theorem State.rideStatus_kept {s : State} (h0 : s.Kept q) : (State.rideStatus s).Kept q := by
  unfold State.rideStatus
  repeat' first
    | with_reducible assumption
    | ((with_reducible show Fld.listed _ = true); rfl)
    | with_reducible apply State.put_kept

theorem State.rideEnter_kept {s : State} (h0 : s.Kept q) (a1) : (State.rideEnter s a1).Kept q := by
  unfold State.rideEnter
  repeat' first
    | with_reducible assumption
    | ((with_reducible show Fld.listed _ = true); rfl)
    | with_reducible apply State.event_kept
    | with_reducible apply State.rideStatus_kept
    | with_reducible apply State.put_kept
    | with_reducible apply Kept.ite
    | split

theorem State.rideCheck_kept {s : State} (h0 : s.Kept q) : (State.rideCheck s).Kept q := by
  unfold State.rideCheck
  repeat' first
    | with_reducible intro _
    | with_reducible assumption
    | with_reducible apply State.rideEnter_kept
    | with_reducible apply Kept.foldlFields
    | exact Reg.fields_listed _ _ (by assumption)
    | with_reducible apply Kept.foldl
    | with_reducible apply Kept.foldlP
    | with_reducible apply Kept.ite
    | split

theorem State.pathsTrack_kept {s : State} (h0 : s.Kept q) : (State.pathsTrack s).Kept q := by
  unfold State.pathsTrack
  repeat' first
    | with_reducible assumption
    | ((with_reducible show Fld.listed _ = true); rfl)
    | with_reducible apply State.pathTrack_kept

theorem State.faultNote_kept {s : State} (h0 : s.Kept q) {s1 : State} (h1 : s1.Kept q) (a2) : (State.faultNote s s1 a2).Kept q := by
  unfold State.faultNote
  repeat' first
    | with_reducible assumption
    | with_reducible apply State.journalAdd_kept
    | with_reducible apply Kept.ite
    | split

theorem State.lossNote_kept {s : State} (h0 : s.Kept q) {s1 : State} (h1 : s1.Kept q) : (State.lossNote s s1).Kept q := by
  unfold State.lossNote
  repeat' first
    | with_reducible intro _
    | with_reducible assumption
    | with_reducible apply State.faultNote_kept
    | with_reducible apply Kept.foldlFields
    | exact Reg.fields_listed _ _ (by assumption)
    | with_reducible apply Kept.foldl
    | with_reducible apply Kept.foldlP
    | with_reducible apply Kept.ite
    | split

theorem State.switchArrive_kept {s : State} (h0 : s.Kept q) : (State.switchArrive s).Kept q := by
  unfold State.switchArrive
  repeat' first
    | with_reducible assumption
    | with_reducible apply Kept.ite
    | split
    | fail_if_no_progress (with_reducible apply Kept.upd)

theorem State.protUpdate_kept {s : State} (h0 : s.Kept q) : (State.protUpdate s).Kept q := by
  unfold State.protUpdate
  repeat' first
    | with_reducible assumption
    | with_reducible apply State.rideCheck_kept
    | with_reducible apply State.switchArrive_kept
    | with_reducible apply State.lossNote_kept
    | with_reducible apply State.pathsTrack_kept

theorem State.portNote_kept {s : State} (h0 : s.Kept q) {s1 : State} (h1 : s1.Kept q) (a2) : (State.portNote s s1 a2).Kept q := by
  unfold State.portNote
  repeat' first
    | with_reducible assumption
    | (fail_if_no_progress (extract_lets +onlyGivenNames x)
       first
       | clear_value x
       | skip)
    | with_reducible apply State.faultNote_kept
    | with_reducible apply Kept.ite
    | split

theorem State.portUpdate_kept {s : State} (h0 : s.Kept q) (a1) : (State.portUpdate s a1).Kept q := by
  unfold State.portUpdate
  repeat' first
    | with_reducible assumption
    | with_reducible apply State.portNote_kept
    | with_reducible apply State.protUpdate_kept
    | with_reducible apply State.portReady_kept

theorem State.tunReset_kept {s : State} (h0 : s.Kept q) : (State.tunReset s).Kept q := by
  unfold State.tunReset
  repeat' first
    | with_reducible intro _
    | with_reducible assumption
    | (fail_if_no_progress (extract_lets +onlyGivenNames x)
       first
       | clear_value x
       | skip)
    | with_reducible apply State.setTrx_kept
    | with_reducible apply State.setTtx_kept
    | with_reducible apply Kept.foldlFields
    | exact Reg.fields_listed _ _ (by assumption)
    | with_reducible apply Kept.foldl
    | with_reducible apply Kept.foldlP

theorem State.mergeStatus_kept {s : State} (h0 : s.Kept q) (a1) : (State.mergeStatus s a1).Kept q := by
  unfold State.mergeStatus
  repeat' first
    | with_reducible assumption
    | ((with_reducible show Fld.listed _ = true); rfl)
    | with_reducible apply State.put_kept
    | with_reducible apply State.wr_kept

theorem State.protReset_kept {s : State} (h0 : s.Kept q) : (State.protReset s).Kept q := by
  unfold State.protReset
  repeat' first
    | with_reducible intro _
    | with_reducible assumption
    | (fail_if_no_progress (extract_lets +onlyGivenNames x)
       first
       | (refine Kept.cut (q := q) (x := x) ?_ ?_ <;> [unfold x; ((try clear_value x); intro _)])
       | clear_value x
       | skip)
    | with_reducible apply State.mergeStatus_kept
    | with_reducible apply State.setProt_kept
    | with_reducible apply State.protUpdate_kept
    | with_reducible apply Kept.foldlFields
    | exact Reg.fields_listed _ _ (by assumption)
    | with_reducible apply Kept.foldl
    | with_reducible apply Kept.foldlP
    | with_reducible apply Kept.ite
    | split
    | fail_if_no_progress (with_reducible apply Kept.upd)

theorem State.portReset_kept {s : State} (h0 : s.Kept q) (a1) : (State.portReset s a1).Kept q := by
  unfold State.portReset
  repeat' first
    | with_reducible intro _
    | with_reducible assumption
    | with_reducible apply State.protUpdate_kept
    | with_reducible apply State.setPort_kept
    | with_reducible apply State.setLock_kept
    | with_reducible apply Kept.foldlFields
    | exact Reg.fields_listed _ _ (by assumption)
    | with_reducible apply Kept.foldl
    | with_reducible apply Kept.foldlP

end Sys2Proof.Machine
end

