-- ==== Sys2Proof/Laws/KeptLock.lean ====
section
/-!
SUPPORT. Every operation of Machine/Lock.lean keeps the stores canonical and the queue as it stands.
-/

set_option linter.unusedVariables false
set_option linter.unusedTactic false
set_option linter.unreachableTactic false
set_option linter.unnecessarySeqFocus false

namespace Sys2Proof.Machine

variable {q : List Instr}

theorem State.setBit_kept {s : State} (h0 : s.Kept q) {f1 : Fld} (hf1 : f1.listed = true) (a2) (a3) (a4) : (State.setBit s f1 a2 a3 a4).Kept q := by
  unfold State.setBit
  repeat' first
    | with_reducible assumption
    | ((with_reducible show Fld.listed _ = true); rfl)
    | with_reducible apply State.wr_kept
    | with_reducible apply Kept.ite
    | split

theorem State.mapJudge_kept {s : State} (h0 : s.Kept q) (a1) : (State.mapJudge s a1).Kept q := by
  unfold State.mapJudge
  repeat' first
    | with_reducible intro _
    | with_reducible assumption
    | ((with_reducible show Fld.listed _ = true); rfl)
    | (fail_if_no_progress (extract_lets +onlyGivenNames x)
       first
       | (refine Kept.cut (q := q) (x := x) ?_ ?_ <;> [unfold x; ((try clear_value x); intro _)])
       | clear_value x
       | skip)
    | exact logicalFld_listed (State.laneIndex_lt _ _)
    | with_reducible apply State.wr_kept
    | with_reducible apply State.put_kept
    | with_reducible apply State.eventIf_kept
    | with_reducible apply Kept.foldlFields
    | exact Reg.fields_listed _ _ (by assumption)
    | with_reducible apply Kept.foldl
    | with_reducible apply Kept.foldlP
    | with_reducible apply Kept.ite
    | split

theorem State.lockLeave_kept {s : State} (h0 : s.Kept q) (a1) (a2) : (State.lockLeave s a1 a2).Kept q := by
  unfold State.lockLeave
  repeat' first
    | with_reducible assumption
    | ((with_reducible show Fld.listed _ = true); rfl)
    | (fail_if_no_progress (extract_lets +onlyGivenNames x)
       first
       | (refine Kept.cut (q := q) (x := x) ?_ ?_ <;> [unfold x; ((try clear_value x); intro _)])
       | clear_value x
       | skip)
    | with_reducible apply State.setLock_kept
    | with_reducible apply State.setPort_kept
    | with_reducible apply State.setBit_kept
    | with_reducible apply State.eventIf_kept
    | with_reducible apply State.mapJudge_kept
    | with_reducible apply State.setLane_kept
    | with_reducible apply Kept.ite
    | split

theorem State.laneReset_kept {s : State} (h0 : s.Kept q) {s1 : State} (h1 : s1.Kept q) (a2) : (State.laneReset s s1 a2).Kept q := by
  unfold State.laneReset
  repeat' first
    | with_reducible assumption
    | ((with_reducible show Fld.listed _ = true); rfl)
    | (fail_if_no_progress (extract_lets +onlyGivenNames x)
       first
       | (refine Kept.cut (q := q) (x := x) ?_ ?_ <;> [unfold x; ((try clear_value x); intro _)])
       | clear_value x
       | skip)
    | with_reducible apply State.setLane_kept
    | with_reducible apply State.put_kept
    | with_reducible apply State.wr_kept
    | with_reducible apply State.portUpdate_kept
    | with_reducible apply State.lockLeave_kept

end Sys2Proof.Machine
end

