-- ==== Sys2Proof/Laws/KeptMcvBase.lean ====
section
/-!
SUPPORT. Every operation of Machine/McvBase.lean keeps the stores canonical and the queue as it stands.
-/

set_option linter.unusedVariables false
set_option linter.unusedTactic false
set_option linter.unreachableTactic false
set_option linter.unnecessarySeqFocus false

namespace Sys2Proof.Machine

variable {q : List Instr}

theorem State.setConv_kept {s : State} (h0 : s.Kept q) (a1) (a2) : (State.setConv s a1 a2).Kept q := by
  unfold State.setConv
  repeat' first
    | with_reducible assumption
    | fail_if_no_progress (with_reducible apply Kept.upd)

theorem State.setCap_kept {s : State} (h0 : s.Kept q) (a1) (a2) : (State.setCap s a1 a2).Kept q := by
  unfold State.setCap
  repeat' first
    | with_reducible assumption
    | fail_if_no_progress (with_reducible apply Kept.upd)

theorem State.wrRes_kept {s : State} (h0 : s.Kept q) {a1} (hf : a1.1.listed = true) (a2) : (State.wrRes s a1 a2).Kept q :=
  State.wr_kept h0 hf _ _

theorem State.resultDue_kept {s : State} (h0 : s.Kept q) (a1) (a2) : (State.resultDue s a1 a2).Kept q := by
  unfold State.resultDue
  repeat' first
    | with_reducible assumption
    | with_reducible apply resReady_listed
    | with_reducible apply State.wrRes_kept

theorem State.resultDone_kept {s : State} (h0 : s.Kept q) (a1) (a2) (a3) (a4) : (State.resultDone s a1 a2 a3 a4).Kept q := by
  unfold State.resultDone
  repeat' first
    | with_reducible assumption
    | ((with_reducible show Fld.listed _ = true); rfl)
    | (fail_if_no_progress (extract_lets +onlyGivenNames x)
       first
       | (refine Kept.cut (q := q) (x := x) ?_ ?_ <;> [unfold x; ((try clear_value x); intro _)])
       | clear_value x
       | skip)
    | with_reducible apply resReady_listed
    | with_reducible apply resFresh_listed
    | with_reducible apply resShort_listed
    | with_reducible apply resSeq_listed
    | with_reducible apply resData_listed
    | with_reducible apply State.bump_kept
    | with_reducible apply State.wrRes_kept
    | with_reducible apply Kept.ite
    | split

theorem State.resultBack_kept {s : State} (h0 : s.Kept q) (a1) (a2) : (State.resultBack s a1 a2).Kept q := by
  unfold State.resultBack
  repeat' first
    | with_reducible assumption
    | with_reducible apply resReady_listed
    | with_reducible apply State.wrRes_kept
    | with_reducible apply Kept.ite
    | split

theorem State.setRef_kept {s : State} (h0 : s.Kept q) (a1) (a2) : (State.setRef s a1 a2).Kept q := by
  unfold State.setRef
  repeat' first
    | with_reducible assumption
    | ((with_reducible show Fld.listed _ = true); rfl)
    | with_reducible apply State.put_kept

theorem State.refSettle_kept {s : State} (h0 : s.Kept q) (a1) : (State.refSettle s a1).Kept q := by
  unfold State.refSettle
  repeat' first
    | with_reducible assumption
    | with_reducible apply State.setRef_kept
    | with_reducible apply Kept.ite
    | split

theorem State.seqStart_kept {s : State} (h0 : s.Kept q) (a1) (a2) : (State.seqStart s a1 a2).Kept q := by
  unfold State.seqStart
  repeat' first
    | with_reducible intro _
    | with_reducible assumption
    | ((with_reducible show Fld.listed _ = true); rfl)
    | (fail_if_no_progress (extract_lets +onlyGivenNames x)
       first
       | (refine Kept.cut (q := q) (x := x) ?_ ?_ <;> [unfold x; ((try clear_value x); intro _)])
       | clear_value x
       | skip)
    | with_reducible apply State.resultDue_kept
    | with_reducible apply State.wr_kept
    | with_reducible apply State.setConv_kept
    | with_reducible apply Kept.foldlFields
    | exact Reg.fields_listed _ _ (by assumption)
    | with_reducible apply Kept.foldl
    | with_reducible apply Kept.foldlP

theorem State.convTrigger_kept {s : State} (h0 : s.Kept q) (a1) : (State.convTrigger s a1).Kept q := by
  unfold State.convTrigger
  repeat' first
    | with_reducible assumption
    | ((with_reducible show Fld.listed _ = true); rfl)
    | (fail_if_no_progress (extract_lets +onlyGivenNames x)
       first
       | clear_value x
       | skip)
    | with_reducible apply State.setConv_kept
    | with_reducible apply State.bump_kept
    | with_reducible apply State.seqStart_kept
    | with_reducible apply Kept.ite
    | split

theorem State.capResume_kept {s : State} (h0 : s.Kept q) (a1) : (State.capResume s a1).Kept q := by
  unfold State.capResume
  repeat' first
    | with_reducible assumption
    | (fail_if_no_progress (extract_lets +onlyGivenNames x)
       first
       | (refine Kept.cut (q := q) (x := x) ?_ ?_ <;> [unfold x; ((try clear_value x); intro _)])
       | clear_value x
       | skip)
    | with_reducible apply State.setConv_kept
    | with_reducible apply State.convTrigger_kept
    | with_reducible apply Kept.ite
    | split

theorem State.capEnd_kept {s : State} (h0 : s.Kept q) (a1) (a2) : (State.capEnd s a1 a2).Kept q := by
  unfold State.capEnd
  repeat' first
    | with_reducible assumption
    | ((with_reducible show Fld.listed _ = true); rfl)
    | (fail_if_no_progress (extract_lets +onlyGivenNames x)
       first
       | (refine Kept.cut (q := q) (x := x) ?_ ?_ <;> [unfold x; ((try clear_value x); intro _)])
       | clear_value x
       | skip)
    | with_reducible apply State.put_kept
    | with_reducible apply State.capResume_kept
    | with_reducible apply State.setCap_kept
    | with_reducible apply State.refSettle_kept
    | with_reducible apply State.irq_kept
    | with_reducible apply Kept.ite
    | split

theorem State.capAbandon_kept {s : State} (h0 : s.Kept q) (a1) : (State.capAbandon s a1).Kept q := by
  unfold State.capAbandon
  repeat' first
    | with_reducible assumption
    | with_reducible apply State.capEnd_kept
    | with_reducible apply Kept.ite
    | split

end Sys2Proof.Machine
end

