-- ==== Sys2Proof/Laws/KeptProtect.lean ====
section
/-!
SUPPORT. Every operation of Machine/Protect.lean keeps the stores canonical and the queue as it stands.
-/

set_option linter.unusedVariables false
set_option linter.unusedTactic false
set_option linter.unreachableTactic false
set_option linter.unnecessarySeqFocus false

namespace Sys2Proof.Machine

variable {q : List Instr}

theorem State.setMarkOn_kept {s : State} (h0 : s.Kept q) (a1) (a2) (a3) (a4) (a5) (a6) : (State.setMarkOn s a1 a2 a3 a4 a5 a6).Kept q := by
  unfold State.setMarkOn
  repeat' first
    | with_reducible assumption
    | (fail_if_no_progress (extract_lets +onlyGivenNames x)
       first
       | clear_value x
       | skip)
    | with_reducible apply Kept.ite
    | split
    | fail_if_no_progress (with_reducible apply Kept.upd)

theorem State.setMark_kept {s : State} (h0 : s.Kept q) (a1) (a2) (a3) (a4) (a5) : (State.setMark s a1 a2 a3 a4 a5).Kept q := by
  unfold State.setMark
  repeat' first
    | with_reducible assumption
    | with_reducible apply State.setMarkOn_kept

theorem State.setPoison_kept {s : State} (h0 : s.Kept q) (a1) (a2) (a3) : (State.setPoison s a1 a2 a3).Kept q := by
  unfold State.setPoison
  repeat' first
    | with_reducible assumption
    | with_reducible apply State.setMarkOn_kept

theorem State.memLog_kept {s : State} (h0 : s.Kept q) (a1) : (State.memLog s a1).Kept q := by
  unfold State.memLog
  repeat' first
    | with_reducible assumption
    | ((with_reducible show Fld.listed _ = true); rfl)
    | with_reducible apply State.bump_kept
    | with_reducible apply Kept.ite
    | split
    | fail_if_no_progress (with_reducible apply Kept.upd)

theorem State.takeSpare_kept {s : State} (h0 : s.Kept q) (a1) (a2) : (State.takeSpare s a1 a2).Kept q := by
  unfold State.takeSpare
  repeat' first
    | with_reducible assumption
    | ((with_reducible show Fld.listed _ = true); rfl)
    | (fail_if_no_progress (extract_lets +onlyGivenNames x)
       first
       | (refine Kept.cut (q := q) (x := x) ?_ ?_ <;> [unfold x; ((try clear_value x); intro _)])
       | clear_value x
       | skip)
    | with_reducible apply State.wr_kept
    | fail_if_no_progress (with_reducible apply Kept.upd)

theorem State.wrote_kept {s : State} (h0 : s.Kept q) (a1) (a2) (a3) : (State.wrote s a1 a2 a3).Kept q := by
  unfold State.wrote
  repeat' first
    | with_reducible assumption
    | with_reducible apply Kept.ite
    | split
    | fail_if_no_progress (with_reducible apply Kept.upd)

theorem State.unwrite_kept {s : State} (h0 : s.Kept q) (a1) : (State.unwrite s a1).Kept q := by
  unfold State.unwrite
  repeat' first
    | with_reducible assumption
    | fail_if_no_progress (with_reducible apply Kept.upd)

theorem State.hardError_kept {s : State} (h0 : s.Kept q) (a1) (a2) (a3) (a4) : (State.hardError s a1 a2 a3 a4).1.Kept q := by
  unfold State.hardError
  repeat' first
    | with_reducible assumption
    | ((with_reducible show Fld.listed _ = true); rfl)
    | (fail_if_no_progress (extract_lets +onlyGivenNames x)
       first
       | (refine Kept.cut (q := q) (x := x) ?_ ?_ <;> [unfold x; ((try clear_value x); intro _)])
       | clear_value x
       | skip)
    | with_reducible apply State.memLog_kept
    | with_reducible apply State.bump_kept
    | with_reducible apply State.takeSpare_kept
    | with_reducible apply Kept.ite
    | with_reducible apply Kept.iteP
    | split

theorem State.trackRead_kept {s : State} (h0 : s.Kept q) (a1) (a2) : (State.trackRead s a1 a2).Kept q := by
  unfold State.trackRead
  repeat' first
    | with_reducible assumption
    | with_reducible apply Kept.ite
    | split
    | fail_if_no_progress (with_reducible apply Kept.upd)

theorem State.correction_kept {s : State} (h0 : s.Kept q) (a1) (a2) (a3) (a4) (a5) : (State.correction s a1 a2 a3 a4 a5).1.Kept q := by
  unfold State.correction
  repeat' first
    | with_reducible intro _
    | with_reducible assumption
    | ((with_reducible show Fld.listed _ = true); rfl)
    | (fail_if_no_progress (extract_lets +onlyGivenNames x)
       first
       | (refine Kept.cut (q := q) (x := x) ?_ ?_ <;> [unfold x; ((try clear_value x); intro _)])
       | clear_value x
       | skip)
    | with_reducible apply State.memLog_kept
    | with_reducible apply State.setMarkOn_kept
    | with_reducible apply State.perf_kept
    | with_reducible apply State.bump_kept
    | with_reducible apply State.hardError_kept
    | with_reducible apply Kept.ite
    | with_reducible apply Kept.iteP
    | split
    | (refine Kept.getP ?_ (by assumption) <;> with_reducible apply State.hardError_kept)
    | fail_if_no_progress (with_reducible apply Kept.upd)

theorem State.miscorrection_kept {s : State} (h0 : s.Kept q) (a1) (a2) (a3) (a4) (a5) : (State.miscorrection s a1 a2 a3 a4 a5).1.Kept q := by
  unfold State.miscorrection
  repeat' first
    | with_reducible assumption
    | with_reducible apply State.correction_kept
    | with_reducible apply State.drawn_kept

theorem State.rawCapture_kept {s : State} (h0 : s.Kept q) (a1) (a2) (a3) (a4) (a5) (a6) : (State.rawCapture s a1 a2 a3 a4 a5 a6).Kept q := by
  unfold State.rawCapture
  repeat' first
    | with_reducible assumption
    | ((with_reducible show Fld.listed _ = true); rfl)
    | (fail_if_no_progress (extract_lets +onlyGivenNames x)
       first
       | clear_value x
       | skip)
    | with_reducible apply State.wr_kept
    | with_reducible apply Kept.ite
    | split

theorem State.uncorrectable_kept {s : State} (h0 : s.Kept q) (a1) (a2) (a3) : (State.uncorrectable s a1 a2 a3).1.Kept q := by
  unfold State.uncorrectable
  repeat' first
    | with_reducible assumption
    | ((with_reducible show Fld.listed _ = true); rfl)
    | with_reducible apply State.perf_kept
    | with_reducible apply State.memLog_kept
    | with_reducible apply State.bump_kept
    | with_reducible apply State.setPoison_kept

theorem State.memReadL_kept {s : State} (h0 : s.Kept q) (a1) (a2) (a3) : (State.memReadL s a1 a2 a3).1.Kept q := by
  unfold State.memReadL
  repeat' first
    | with_reducible intro _
    | with_reducible assumption
    | (fail_if_no_progress (extract_lets +onlyGivenNames x)
       first
       | (refine Kept.cut (q := q) (x := x) ?_ ?_ <;> [unfold x; ((try clear_value x); intro _)])
       | (refine Kept.cutP (q := q) (x := x) ?_ ?_ <;> [unfold x; ((try clear_value x); intro _)])
       | clear_value x
       | skip)
    | with_reducible apply State.rawCapture_kept
    | with_reducible apply State.trackRead_kept
    | with_reducible apply State.correction_kept
    | with_reducible apply State.uncorrectable_kept
    | with_reducible apply State.perf_kept
    | with_reducible apply State.memLog_kept
    | with_reducible apply State.miscorrection_kept
    | with_reducible apply Kept.ite
    | with_reducible apply Kept.iteP
    | split
    | (refine Kept.getP ?_ (by assumption) <;> with_reducible apply State.correction_kept)
    | (refine Kept.getP ?_ (by assumption) <;> with_reducible apply State.uncorrectable_kept)
    | (refine Kept.getP ?_ (by assumption) <;> with_reducible apply State.miscorrection_kept)

theorem State.writeMark_kept {s : State} (h0 : s.Kept q) (a1) (a2) : (State.writeMark s a1 a2).Kept q := by
  unfold State.writeMark
  repeat' first
    | with_reducible assumption
    | ((with_reducible show Fld.listed _ = true); rfl)
    | (fail_if_no_progress (extract_lets +onlyGivenNames x)
       first
       | (refine Kept.cut (q := q) (x := x) ?_ ?_ <;> [unfold x; ((try clear_value x); intro _)])
       | clear_value x
       | skip)
    | with_reducible apply State.setMarkOn_kept
    | with_reducible apply State.setMark_kept
    | with_reducible apply State.put_kept
    | with_reducible apply Kept.ite
    | split

theorem State.memWrite_kept {s : State} (h0 : s.Kept q) (a1) (a2) (a3) (a4) (a5) : (State.memWrite s a1 a2 a3 a4 a5).Kept q := by
  unfold State.memWrite
  repeat' first
    | with_reducible assumption
    | with_reducible apply State.writeMark_kept
    | with_reducible apply State.st_kept
    | with_reducible apply Kept.ite
    | split

theorem State.spanWord_kept {s : State} (h0 : s.Kept q) (a1) (a2) (a3) : (State.spanWord s a1 a2 a3).1.Kept q := by
  unfold State.spanWord
  repeat' first
    | with_reducible intro _
    | with_reducible assumption
    | with_reducible apply State.memReadL_kept
    | with_reducible apply State.drawn_kept
    | split
    | (refine Kept.getP ?_ (by assumption) <;> with_reducible apply State.memReadL_kept)

theorem State.spanRead_kept {s : State} (h0 : s.Kept q) (a1) (a2) (a3) (a4) : (State.spanRead s a1 a2 a3 a4).1.Kept q := by
  unfold State.spanRead
  repeat' first
    | with_reducible intro _
    | with_reducible assumption
    | (fail_if_no_progress (extract_lets +onlyGivenNames x)
       first
       | (refine Kept.cutP (q := q) (x := x) ?_ ?_ <;> [unfold x; ((try clear_value x); intro _)])
       | clear_value x
       | skip)
    | with_reducible apply State.spanWord_kept
    | with_reducible apply Kept.foldlFields
    | exact Reg.fields_listed _ _ (by assumption)
    | with_reducible apply Kept.foldl
    | with_reducible apply Kept.foldlP

theorem State.peatTakeWord_kept {s : State} (h0 : s.Kept q) (a1) : (State.peatTakeWord s a1).1.Kept q := by
  unfold State.peatTakeWord
  repeat' first
    | with_reducible assumption
    | ((with_reducible show Fld.listed _ = true); rfl)
    | (fail_if_no_progress (extract_lets +onlyGivenNames x)
       first
       | (refine Kept.cutP (q := q) (x := x) ?_ ?_ <;> [unfold x; ((try clear_value x); intro _)])
       | clear_value x
       | skip)
    | with_reducible apply State.spanWord_kept
    | with_reducible apply State.journalAdd_kept
    | with_reducible apply State.bump_kept
    | with_reducible apply Kept.ite
    | with_reducible apply Kept.iteP
    | split

theorem State.peatTake_kept {s : State} (h0 : s.Kept q) (a1) (a2) : (State.peatTake s a1 a2).1.Kept q := by
  unfold State.peatTake
  repeat' first
    | with_reducible intro _
    | with_reducible assumption
    | (fail_if_no_progress (extract_lets +onlyGivenNames x)
       first
       | (refine Kept.cutP (q := q) (x := x) ?_ ?_ <;> [unfold x; ((try clear_value x); intro _)])
       | clear_value x
       | skip)
    | with_reducible apply State.peatTakeWord_kept
    | with_reducible apply Kept.foldlFields
    | exact Reg.fields_listed _ _ (by assumption)
    | with_reducible apply Kept.foldl
    | with_reducible apply Kept.foldlP

theorem State.spanWrite_kept {s : State} (h0 : s.Kept q) (a1) (a2) (a3) : (State.spanWrite s a1 a2 a3).Kept q := by
  unfold State.spanWrite
  repeat' first
    | with_reducible intro _
    | with_reducible assumption
    | with_reducible apply State.writeMark_kept
    | with_reducible apply State.wrote_kept
    | with_reducible apply Kept.foldlFields
    | exact Reg.fields_listed _ _ (by assumption)
    | with_reducible apply Kept.foldl
    | with_reducible apply Kept.foldlP
    | with_reducible apply Kept.ite
    | split

theorem State.putWord_kept {s : State} (h0 : s.Kept q) (a1) (a2) (a3) : (State.putWord s a1 a2 a3).Kept q := by
  unfold State.putWord
  repeat' first
    | with_reducible intro _
    | with_reducible assumption
    | ((with_reducible show Fld.listed _ = true); rfl)
    | with_reducible apply State.wr_kept
    | with_reducible apply Kept.foldlFields
    | exact Reg.fields_listed _ _ (by assumption)
    | with_reducible apply Kept.foldl
    | with_reducible apply Kept.foldlP

theorem State.tvStore_kept {s : State} (h0 : s.Kept q) (a1) (a2) : (State.tvStore s a1 a2).Kept q := by
  unfold State.tvStore
  repeat' first
    | with_reducible assumption
    | ((with_reducible show Fld.listed _ = true); rfl)
    | (fail_if_no_progress (extract_lets +onlyGivenNames x)
       first
       | clear_value x
       | skip)
    | with_reducible apply State.putWord_kept
    | with_reducible apply State.wr_kept
    | with_reducible apply Kept.ite
    | split
    | fail_if_no_progress (with_reducible apply Kept.upd)

theorem State.tvCopy_kept {s : State} (h0 : s.Kept q) {s1 : State} (h1 : s1.Kept q) (a2) (a3) (a4) : (State.tvCopy s s1 a2 a3 a4).1.Kept q := by
  unfold State.tvCopy
  repeat' first
    | with_reducible intro _
    | with_reducible assumption
    | ((with_reducible show Fld.listed _ = true); rfl)
    | (fail_if_no_progress (extract_lets +onlyGivenNames x)
       first
       | clear_value x
       | skip)
    | with_reducible apply State.correction_kept
    | with_reducible apply State.miscorrection_kept
    | with_reducible apply State.setMark_kept
    | with_reducible apply State.perf_kept
    | with_reducible apply State.memLog_kept
    | with_reducible apply State.bump_kept
    | with_reducible apply Kept.ite
    | with_reducible apply Kept.iteP
    | split
    | (refine Kept.getP ?_ (by assumption) <;> with_reducible apply State.correction_kept)
    | (refine Kept.getP ?_ (by assumption) <;> with_reducible apply State.miscorrection_kept)

theorem State.tvRaw_kept {s : State} (h0 : s.Kept q) (a1) : (State.tvRaw s a1).Kept q := by
  unfold State.tvRaw
  repeat' first
    | with_reducible assumption
    | (fail_if_no_progress (extract_lets +onlyGivenNames x)
       first
       | clear_value x
       | skip)
    | with_reducible apply State.rawCapture_kept

theorem State.tvVoteL_kept {s : State} (h0 : s.Kept q) (a1) {g2 : State → State} (hg2 : ∀ y0, y0.Kept q → (g2 y0).Kept q) : (State.tvVoteL s a1 g2).1.Kept q := by
  unfold State.tvVoteL
  repeat' first
    | with_reducible intro _
    | with_reducible assumption
    | ((with_reducible show Fld.listed _ = true); rfl)
    | (fail_if_no_progress (extract_lets +onlyGivenNames x)
       first
       | (refine Kept.cut (q := q) (x := x) ?_ ?_ <;> [unfold x; ((try clear_value x); intro _)])
       | (refine Kept.cutP (q := q) (x := x) ?_ ?_ <;> [unfold x; ((try clear_value x); intro _)])
       | clear_value x
       | skip)
    | with_reducible apply State.trackRead_kept
    | with_reducible apply State.tvRaw_kept
    | with_reducible apply State.tvCopy_kept
    | with_reducible apply State.tvStore_kept
    | with_reducible apply State.perf_kept
    | with_reducible apply State.memLog_kept
    | with_reducible apply State.bump_kept
    | with_reducible apply Kept.foldlFields
    | exact Reg.fields_listed _ _ (by assumption)
    | with_reducible apply Kept.foldl
    | with_reducible apply Kept.foldlP
    | with_reducible apply Kept.ite
    | with_reducible apply Kept.iteP
    | split
    | (refine Kept.getP ?_ (by assumption) <;> with_reducible apply State.tvCopy_kept)
    | with_reducible apply_assumption

theorem State.tvWrite_kept {s : State} (h0 : s.Kept q) (a1) : (State.tvWrite s a1).Kept q := by
  unfold State.tvWrite
  repeat' first
    | with_reducible assumption
    | (fail_if_no_progress (extract_lets +onlyGivenNames x)
       first
       | (refine Kept.cut (q := q) (x := x) ?_ ?_ <;> [unfold x; ((try clear_value x); intro _)])
       | clear_value x
       | skip)
    | with_reducible apply State.setMark_kept
    | with_reducible apply State.writeMark_kept

theorem State.upset_kept {s : State} (h0 : s.Kept q) (a1) (a2) (a3) : (State.upset s a1 a2 a3).Kept q := by
  unfold State.upset
  repeat' first
    | with_reducible assumption
    | (fail_if_no_progress (extract_lets +onlyGivenNames x)
       first
       | clear_value x
       | skip)
    | with_reducible apply State.setMarkOn_kept
    | with_reducible apply Kept.ite
    | split

theorem State.upsets_kept {s : State} (h0 : s.Kept q) (a1) (a2) (a3) : (State.upsets s a1 a2 a3).Kept q := by
  unfold State.upsets
  repeat' first
    | with_reducible intro _
    | with_reducible assumption
    | with_reducible apply State.upset_kept
    | with_reducible apply Kept.foldlFields
    | exact Reg.fields_listed _ _ (by assumption)
    | with_reducible apply Kept.foldl
    | with_reducible apply Kept.foldlP

end Sys2Proof.Machine
end

