-- ==== Sys2Proof/Laws/KeptReset.lean ====
section
/-!
SUPPORT. Every operation of Machine/Reset.lean keeps the stores canonical and the queue as it stands.
-/

set_option linter.unusedVariables false
set_option linter.unusedTactic false
set_option linter.unreachableTactic false
set_option linter.unnecessarySeqFocus false

namespace Sys2Proof.Machine

variable {q : List Instr}

theorem State.deliver_kept {s : State} (h0 : s.Kept q) (a1) (a2) (a3) (a4) : (State.deliver s a1 a2 a3 a4).Kept q := by
  unfold State.deliver
  repeat' first
    | with_reducible intro _
    | with_reducible assumption
    | ((with_reducible show Fld.listed _ = true); rfl)
    | (fail_if_no_progress (extract_lets +onlyGivenNames x)
       first
       | (refine Kept.cut (q := q) (x := x) ?_ ?_ <;> [unfold x; ((try clear_value x); intro _)])
       | clear_value x
       | skip)
    | with_reducible apply State.irq_kept
    | with_reducible apply State.bump_kept
    | with_reducible apply State.setBank_kept
    | with_reducible apply State.perfBank_kept
    | with_reducible apply Kept.ite
    | split

theorem State.abortBank_kept {s : State} (h0 : s.Kept q) (a1) (a2) : (State.abortBank s a1 a2).Kept q := by
  unfold State.abortBank
  repeat' first
    | with_reducible intro _
    | with_reducible assumption
    | with_reducible apply State.deliver_kept
    | with_reducible apply Kept.foldlFields
    | exact Reg.fields_listed _ _ (by assumption)
    | with_reducible apply Kept.foldl
    | with_reducible apply Kept.foldlP
    | with_reducible apply Kept.ite
    | split

theorem State.abortCmds_kept {s : State} (h0 : s.Kept q) (a1) : (State.abortCmds s a1).Kept q := by
  unfold State.abortCmds
  repeat' first
    | with_reducible intro _
    | with_reducible assumption
    | with_reducible apply State.abortBank_kept
    | with_reducible apply Kept.foldlFields
    | exact Reg.fields_listed _ _ (by assumption)
    | with_reducible apply Kept.foldl
    | with_reducible apply Kept.foldlP

theorem State.aliveStop_kept {s : State} (h0 : s.Kept q) (a1) : (State.aliveStop s a1).Kept q := by
  unfold State.aliveStop
  repeat' first
    | with_reducible assumption
    | ((with_reducible show Fld.listed _ = true); rfl)
    | (fail_if_no_progress (extract_lets +onlyGivenNames x)
       first
       | (refine Kept.cut (q := q) (x := x) ?_ ?_ <;> [unfold x; ((try clear_value x); intro _)])
       | clear_value x
       | skip)
    | with_reducible apply State.wr_kept
    | with_reducible apply State.put_kept
    | with_reducible apply Kept.ite
    | split
    | fail_if_no_progress (with_reducible apply Kept.upd)

theorem State.reactSafe_kept {s : State} (h0 : s.Kept q) (a1) : (State.reactSafe s a1).Kept q := by
  unfold State.reactSafe
  repeat' first
    | with_reducible intro _
    | with_reducible assumption
    | ((with_reducible show Fld.listed _ = true); rfl)
    | (fail_if_no_progress (extract_lets +onlyGivenNames x)
       first
       | (refine Kept.cut (q := q) (x := x) ?_ ?_ <;> [unfold x; ((try clear_value x); intro _)])
       | clear_value x
       | skip)
    | with_reducible apply State.put_kept
    | with_reducible apply State.setMark_kept
    | with_reducible apply State.wr_kept
    | with_reducible apply Kept.foldlFields
    | exact Reg.fields_listed _ _ (by assumption)
    | with_reducible apply Kept.foldl
    | with_reducible apply Kept.foldlP

theorem State.latch_kept {s : State} (h0 : s.Kept q) (a1) (a2) (a3) : (State.latch s a1 a2 a3).Kept q := by
  unfold State.latch
  repeat' first
    | with_reducible assumption
    | ((with_reducible show Fld.listed _ = true); rfl)
    | (fail_if_no_progress (extract_lets +onlyGivenNames x)
       first
       | (refine Kept.cut (q := q) (x := x) ?_ ?_ <;> [unfold x; ((try clear_value x); intro _)])
       | clear_value x
       | skip)
    | with_reducible apply charFld_listed
    | with_reducible apply State.wr_kept
    | with_reducible apply State.st_kept

theorem State.takeEpoch_kept {s : State} (h0 : s.Kept q) : (State.takeEpoch s).1.Kept q := by
  unfold State.takeEpoch
  repeat' first
    | with_reducible assumption
    | ((with_reducible show Fld.listed _ = true); rfl)
    | (fail_if_no_progress (extract_lets +onlyGivenNames x)
       first
       | (refine Kept.cut (q := q) (x := x) ?_ ?_ <;> [unfold x; ((try clear_value x); intro _)])
       | (refine Kept.cutP (q := q) (x := x) ?_ ?_ <;> [unfold x; ((try clear_value x); intro _)])
       | clear_value x
       | skip)
    | with_reducible apply State.peatTake_kept
    | with_reducible apply State.wr_kept
    | with_reducible apply State.drawn_kept
    | with_reducible apply Kept.ite
    | with_reducible apply Kept.iteP
    | split
    | fail_if_no_progress (with_reducible apply Kept.upd)

theorem State.cleared_kept {s : State} (h0 : s.Kept q) : (State.cleared s).Kept q := by
  exact Kept.filtered h0 (fun e => keptField e.1) (fun e => keptSpace e.1.space) rfl rfl rfl

theorem State.hold_kept {s : State} (h0 : s.Kept q) : (State.hold s).Kept q := by
  unfold State.hold
  repeat' first
    | with_reducible assumption
    | (fail_if_no_progress (extract_lets +onlyGivenNames x)
       first
       | (refine Kept.cut (q := q) (x := x) ?_ ?_ <;> [unfold x; ((try clear_value x); intro _)])
       | clear_value x
       | skip)
    | with_reducible apply State.cleared_kept
    | fail_if_no_progress (with_reducible apply Kept.upd)

theorem State.released_kept {s : State} (h0 : s.Kept q) (a1) : (State.released s a1).Kept q := by
  unfold State.released
  repeat' first
    | with_reducible intro _
    | with_reducible assumption
    | ((with_reducible show Fld.listed _ = true); rfl)
    | (fail_if_no_progress (extract_lets +onlyGivenNames x)
       first
       | (refine Kept.cut (q := q) (x := x) ?_ ?_ <;> [unfold x; ((try clear_value x); intro _)])
       | (refine Kept.cutP (q := q) (x := x) ?_ ?_ <;> [unfold x; ((try clear_value x); intro _)])
       | clear_value x
       | skip)
    | with_reducible apply State.wr_kept
    | with_reducible apply State.bump_kept
    | with_reducible apply State.takeEpoch_kept
    | with_reducible apply State.latch_kept
    | with_reducible apply State.irq_kept
    | with_reducible apply State.journalAdd_kept
    | with_reducible apply Kept.foldlFields
    | exact Reg.fields_listed _ _ (by assumption)
    | with_reducible apply Kept.foldl
    | with_reducible apply Kept.foldlP
    | with_reducible apply Kept.ite
    | with_reducible apply Kept.iteP
    | split

theorem State.chipReset_kept {s : State} (h0 : s.Kept q) (a1) : (State.chipReset s a1).Kept q := by
  unfold State.chipReset
  repeat' first
    | with_reducible assumption
    | (fail_if_no_progress (extract_lets +onlyGivenNames x)
       first
       | (refine Kept.cut (q := q) (x := x) ?_ ?_ <;> [unfold x; ((try clear_value x); intro _)])
       | clear_value x
       | skip)
    | with_reducible apply State.released_kept
    | with_reducible apply State.cleared_kept
    | fail_if_no_progress (with_reducible apply Kept.upd)

theorem State.resetFor_kept {s : State} (h0 : s.Kept q) (a1) : (State.resetFor s a1).Kept q := by
  unfold State.resetFor
  repeat' first
    | with_reducible assumption
    | (fail_if_no_progress (extract_lets +onlyGivenNames x)
       first
       | (refine Kept.cut (q := q) (x := x) ?_ ?_ <;> [unfold x; ((try clear_value x); intro _)])
       | clear_value x
       | skip)
    | with_reducible apply State.chipReset_kept
    | with_reducible apply State.hold_kept
    | with_reducible apply Kept.ite
    | split
    | fail_if_no_progress (with_reducible apply Kept.upd)

theorem State.resetRelease_kept {s : State} (h0 : s.Kept q) : (State.resetRelease s).Kept q := by
  unfold State.resetRelease
  repeat' first
    | with_reducible intro _
    | with_reducible assumption
    | ((with_reducible show Fld.listed _ = true); rfl)
    | with_reducible apply State.chipReset_kept
    | with_reducible apply State.drawn_kept
    | with_reducible apply State.wr_kept
    | with_reducible apply Kept.ite
    | split

theorem State.unlessReset_kept {s : State} (h0 : s.Kept q) {s1 : State} (h1 : s1.Kept q) {g2 : State → State} (hg2 : ∀ y0, y0.Kept q → (g2 y0).Kept q) : (State.unlessReset s s1 g2).Kept q := by
  unfold State.unlessReset
  repeat' first
    | with_reducible intro _
    | with_reducible assumption
    | with_reducible apply Kept.ite
    | split
    | with_reducible apply_assumption

theorem State.resetRegs_kept {s : State} (h0 : s.Kept q) (a1) : (State.resetRegs s a1).Kept q := by
  exact ⟨RegStore.wf_filter h0.1 _, h0.2⟩

theorem State.blockUnit_kept {s : State} (h0 : s.Kept q) {s1 : State} (h1 : s1.Kept q) (a2) (a3) : (State.blockUnit s s1 a2 a3).Kept q := by
  unfold State.blockUnit
  repeat' first
    | with_reducible assumption
    | ((with_reducible show Fld.listed _ = true); rfl)
    | (fail_if_no_progress (extract_lets +onlyGivenNames x)
       first
       | (refine Kept.cut (q := q) (x := x) ?_ ?_ <;> [unfold x; ((try clear_value x); intro _)])
       | clear_value x
       | skip)
    | with_reducible apply State.laneReset_kept
    | with_reducible apply State.portReset_kept
    | with_reducible apply State.unwrite_kept
    | with_reducible apply State.tunReset_kept
    | with_reducible apply State.protReset_kept
    | with_reducible apply State.irq_kept
    | with_reducible apply State.capAbandon_kept
    | with_reducible apply State.put_kept
    | with_reducible apply State.setConv_kept
    | with_reducible apply State.clearMem_kept
    | with_reducible apply Kept.ite
    | split
    | fail_if_no_progress (with_reducible apply Kept.upd)

theorem State.sliceIncomplete_kept {s : State} (h0 : s.Kept q) (a1) (a2) : (State.sliceIncomplete s a1 a2).Kept q := by
  unfold State.sliceIncomplete
  repeat' first
    | with_reducible assumption
    | ((with_reducible show Fld.listed _ = true); rfl)
    | with_reducible apply State.wr_kept
    | with_reducible apply State.put_kept
    | fail_if_no_progress (with_reducible apply Kept.upd)

theorem State.sliceStopped_kept {s : State} (h0 : s.Kept q) (a1) : (State.sliceStopped s a1).Kept q := by
  unfold State.sliceStopped
  repeat' first
    | with_reducible intro _
    | with_reducible assumption
    | with_reducible apply State.sliceIncomplete_kept
    | with_reducible apply State.drawn_kept
    | with_reducible apply Kept.ite
    | split

theorem State.blockReset_kept {s : State} (h0 : s.Kept q) (a1) (a2) : (State.blockReset s a1 a2).Kept q := by
  unfold State.blockReset
  repeat' first
    | with_reducible assumption
    | (fail_if_no_progress (extract_lets +onlyGivenNames x)
       first
       | (refine Kept.cut (q := q) (x := x) ?_ ?_ <;> [unfold x; ((try clear_value x); intro _)])
       | clear_value x
       | skip)
    | with_reducible apply State.abortCmds_kept
    | with_reducible apply State.sliceStopped_kept
    | with_reducible apply State.blockUnit_kept
    | with_reducible apply State.resetRegs_kept
    | fail_if_no_progress (with_reducible apply Kept.upd)

theorem State.resetInstance_kept {s : State} (h0 : s.Kept q) (a1) (a2) : (State.resetInstance s a1 a2).Kept q := by
  unfold State.resetInstance
  repeat' first
    | with_reducible intro _
    | with_reducible assumption
    | with_reducible apply State.blockReset_kept
    | split

theorem State.nmtArrive_kept {s : State} (h0 : s.Kept q) (a1) (a2) : (State.nmtArrive s a1 a2).Kept q := by
  unfold State.nmtArrive
  repeat' first
    | with_reducible assumption
    | (fail_if_no_progress (extract_lets +onlyGivenNames x)
       first
       | (refine Kept.cut (q := q) (x := x) ?_ ?_ <;> [unfold x; ((try clear_value x); intro _)])
       | clear_value x
       | skip)
    | with_reducible apply State.setBank_kept
    | with_reducible apply Kept.ite
    | split
    | fail_if_no_progress (with_reducible apply Kept.upd)

theorem State.reactFirst_kept {s : State} (h0 : s.Kept q) (a1) (a2) (a3) : (State.reactFirst s a1 a2 a3).Kept q := by
  unfold State.reactFirst
  repeat' first
    | with_reducible assumption
    | (fail_if_no_progress (extract_lets +onlyGivenNames x)
       first
       | (refine Kept.cut (q := q) (x := x) ?_ ?_ <;> [unfold x; ((try clear_value x); intro _)])
       | clear_value x
       | skip)
    | with_reducible apply State.irq_kept
    | with_reducible apply State.aliveStop_kept
    | with_reducible apply State.nmtArrive_kept
    | with_reducible apply Kept.ite
    | split

theorem State.reactVote_kept {s : State} (h0 : s.Kept q) (a1) : (State.reactVote s a1).1.Kept q := by
  unfold State.reactVote
  repeat' first
    | with_reducible intro _
    | with_reducible assumption
    | with_reducible apply State.tvVoteL_kept
    | with_reducible apply State.reactSafe_kept
    | with_reducible apply Kept.id

theorem State.reactReset_kept {s : State} (h0 : s.Kept q) (a1) (a2) : (State.reactReset s a1 a2).Kept q := by
  unfold State.reactReset
  repeat' first
    | with_reducible intro _
    | with_reducible assumption
    | (fail_if_no_progress (extract_lets +onlyGivenNames x)
       first
       | (refine Kept.cut (q := q) (x := x) ?_ ?_ <;> [unfold x; ((try clear_value x); intro _)])
       | clear_value x
       | skip)
    | with_reducible apply State.blockReset_kept
    | split
    | fail_if_no_progress (with_reducible apply Kept.upd)

theorem State.sourceRise_kept {s : State} (h0 : s.Kept q) (a1) (a2) (a3) (a4) (a5) : (State.sourceRise s a1 a2 a3 a4 a5).1.Kept q := by
  unfold State.sourceRise
  repeat' first
    | with_reducible intro _
    | with_reducible assumption
    | (fail_if_no_progress (extract_lets +onlyGivenNames x)
       first
       | (refine Kept.cut (q := q) (x := x) ?_ ?_ <;> [unfold x; ((try clear_value x); intro _)])
       | (refine Kept.cutP (q := q) (x := x) ?_ ?_ <;> [unfold x; ((try clear_value x); intro _)])
       | clear_value x
       | skip)
    | with_reducible apply State.perf_kept
    | with_reducible apply State.reactVote_kept
    | with_reducible apply State.reactFirst_kept
    | with_reducible apply State.latch_kept
    | with_reducible apply State.reactReset_kept
    | with_reducible apply State.aliveStop_kept
    | with_reducible apply Kept.foldlFields
    | exact Reg.fields_listed _ _ (by assumption)
    | with_reducible apply Kept.foldl
    | with_reducible apply Kept.foldlP
    | with_reducible apply Kept.ite
    | with_reducible apply Kept.iteP
    | split

theorem State.faultReset_kept {s : State} (h0 : s.Kept q) (a1) : (State.faultReset s a1).Kept q := by
  unfold State.faultReset
  repeat' first
    | with_reducible assumption
    | ((with_reducible show Fld.listed _ = true); rfl)
    | with_reducible apply State.wr_kept
    | with_reducible apply State.bump_kept
    | with_reducible apply State.put_kept
    | with_reducible apply State.resetFor_kept

theorem State.raiseAll_kept (a0) {s : State} (h0 : s.Kept q) (a2) (a3) (a4) : (State.raiseAll a0 s a2 a3 a4).1.Kept q := by
  induction a0 generalizing s a2 a3 a4 with
  | zero =>
    unfold State.raiseAll
    repeat' first
      | with_reducible intro _
      | with_reducible assumption
      | (fail_if_no_progress (extract_lets +onlyGivenNames x)
         first
         | (refine Kept.cutP (q := q) (x := x) ?_ ?_ <;> [unfold x; ((try clear_value x); intro _)])
         | clear_value x
         | skip)
      | with_reducible apply State.sourceRise_kept
      | with_reducible apply Kept.ite
      | with_reducible apply Kept.iteP
      | split
      | (refine Kept.getP ?_ (by assumption) <;> with_reducible apply State.sourceRise_kept)
  | succ fuel ih =>
    unfold State.raiseAll
    repeat' first
      | with_reducible intro _
      | with_reducible assumption
      | (fail_if_no_progress (extract_lets +onlyGivenNames x)
         first
         | (refine Kept.cutP (q := q) (x := x) ?_ ?_ <;> [unfold x; ((try clear_value x); intro _)])
         | clear_value x
         | skip)
      | with_reducible apply ih
      | with_reducible apply State.sourceRise_kept
      | with_reducible apply Kept.ite
      | with_reducible apply Kept.iteP
      | split
      | (refine Kept.getP ?_ (by assumption) <;> with_reducible apply State.sourceRise_kept)

theorem State.errorLinesWon_kept {s : State} (h0 : s.Kept q) (a1) (a2) : (State.errorLinesWon s a1 a2).Kept q := by
  unfold State.errorLinesWon
  repeat' first
    | with_reducible intro _
    | with_reducible assumption
    | (fail_if_no_progress (extract_lets +onlyGivenNames x)
       first
       | (refine Kept.cutP (q := q) (x := x) ?_ ?_ <;> [unfold x; ((try clear_value x); intro _)])
       | clear_value x
       | skip)
    | with_reducible apply State.raiseAll_kept
    | with_reducible apply State.faultReset_kept
    | split
    | (refine Kept.getP ?_ (by assumption) <;> with_reducible apply State.raiseAll_kept)

theorem State.errorLines_kept {s : State} (h0 : s.Kept q) (a1) : (State.errorLines s a1).Kept q := by
  unfold State.errorLines
  repeat' first
    | with_reducible assumption
    | with_reducible apply State.errorLinesWon_kept

theorem State.errorLine_kept {s : State} (h0 : s.Kept q) (a1) (a2) (a3) : (State.errorLine s a1 a2 a3).Kept q := by
  unfold State.errorLine
  repeat' first
    | with_reducible assumption
    | with_reducible apply State.errorLines_kept

theorem State.newEpoch_kept {s : State} (h0 : s.Kept q) : (State.newEpoch s).Kept q := by
  unfold State.newEpoch
  repeat' first
    | with_reducible assumption
    | (fail_if_no_progress (extract_lets +onlyGivenNames x)
       first
       | (refine Kept.cutP (q := q) (x := x) ?_ ?_ <;> [unfold x; ((try clear_value x); intro _)])
       | clear_value x
       | skip)
    | with_reducible apply State.takeEpoch_kept
    | with_reducible apply State.errorLines_kept

theorem State.mbxDrop_kept {s : State} (h0 : s.Kept q) (a1) (a2) : (State.mbxDrop s a1 a2).Kept q := by
  unfold State.mbxDrop
  repeat' first
    | with_reducible assumption
    | with_reducible apply State.st_kept
    | with_reducible apply Kept.ite
    | split

theorem State.respond_kept {s : State} (h0 : s.Kept q) (a1) (a2) (a3) : (State.respond s a1 a2 a3).Kept q := by
  unfold State.respond
  repeat' first
    | with_reducible assumption
    | (fail_if_no_progress (extract_lets +onlyGivenNames x)
       first
       | clear_value x
       | skip)
    | with_reducible apply State.setBank_kept
    | with_reducible apply State.mbxDrop_kept
    | with_reducible apply Kept.ite
    | split

theorem State.bankLost_kept {s : State} (h0 : s.Kept q) (a1) : (State.bankLost s a1).Kept q := by
  unfold State.bankLost
  repeat' first
    | with_reducible intro _
    | with_reducible assumption
    | ((with_reducible show Fld.listed _ = true); rfl)
    | (fail_if_no_progress (extract_lets +onlyGivenNames x)
       first
       | (refine Kept.cut (q := q) (x := x) ?_ ?_ <;> [unfold x; ((try clear_value x); intro _)])
       | clear_value x
       | skip)
    | with_reducible apply State.setBank_kept
    | with_reducible apply State.respond_kept
    | with_reducible apply State.journalAdd_kept
    | with_reducible apply State.aliveStop_kept
    | with_reducible apply State.wr_kept
    | with_reducible apply State.put_kept
    | with_reducible apply Kept.foldlFields
    | exact Reg.fields_listed _ _ (by assumption)
    | with_reducible apply Kept.foldl
    | with_reducible apply Kept.foldlP
    | with_reducible apply Kept.ite
    | split
    | fail_if_no_progress (with_reducible apply Kept.upd)

theorem State.adoptionLines_kept {s : State} (h0 : s.Kept q) (a1) : (State.adoptionLines s a1).1.Kept q := by
  unfold State.adoptionLines
  repeat' first
    | with_reducible intro _
    | with_reducible assumption
    | (fail_if_no_progress (extract_lets +onlyGivenNames x)
       first
       | clear_value x
       | skip)
    | with_reducible apply State.faultNote_kept
    | with_reducible apply State.setBank_kept
    | with_reducible apply State.bankLost_kept
    | split

theorem State.callAdoption_kept {s : State} (h0 : s.Kept q) (a1) : (State.callAdoption s a1).Kept q := by
  unfold State.callAdoption
  repeat' first
    | with_reducible assumption
    | (fail_if_no_progress (extract_lets +onlyGivenNames x)
       first
       | (refine Kept.cutP (q := q) (x := x) ?_ ?_ <;> [unfold x; ((try clear_value x); intro _)])
       | clear_value x
       | skip)
    | with_reducible apply State.adoptionLines_kept
    | with_reducible apply State.errorLines_kept

theorem State.failOwnBank_kept {s : State} (h0 : s.Kept q) (a1) : (State.failOwnBank s a1).1.Kept q := by
  unfold State.failOwnBank
  repeat' first
    | with_reducible intro _
    | with_reducible assumption
    | (fail_if_no_progress (extract_lets +onlyGivenNames x)
       first
       | clear_value x
       | skip)
    | with_reducible apply State.adoptionLines_kept
    | with_reducible apply State.bankLost_kept
    | with_reducible apply Kept.ite
    | with_reducible apply Kept.iteP
    | split
    | (refine Kept.getP ?_ (by assumption) <;> with_reducible apply State.adoptionLines_kept)

theorem State.engineLines_kept {s : State} (h0 : s.Kept q) (a1) (a2) : (State.engineLines s a1 a2).1.Kept q := by
  unfold State.engineLines
  repeat' first
    | with_reducible intro _
    | with_reducible assumption
    | ((with_reducible show Fld.listed _ = true); rfl)
    | (fail_if_no_progress (extract_lets +onlyGivenNames x)
       first
       | (refine Kept.cut (q := q) (x := x) ?_ ?_ <;> [unfold x; ((try clear_value x); intro _)])
       | (refine Kept.cutP (q := q) (x := x) ?_ ?_ <;> [unfold x; ((try clear_value x); intro _)])
       | clear_value x
       | skip)
    | with_reducible apply State.setBank_kept
    | with_reducible apply State.wr_kept
    | with_reducible apply State.failOwnBank_kept
    | with_reducible apply State.adoptionLines_kept
    | with_reducible apply Kept.foldlFields
    | exact Reg.fields_listed _ _ (by assumption)
    | with_reducible apply Kept.foldl
    | with_reducible apply Kept.foldlP
    | with_reducible apply Kept.ite
    | with_reducible apply Kept.iteP
    | split

theorem State.engineFail_kept {s : State} (h0 : s.Kept q) (a1) (a2) : (State.engineFail s a1 a2).Kept q := by
  unfold State.engineFail
  repeat' first
    | with_reducible assumption
    | (fail_if_no_progress (extract_lets +onlyGivenNames x)
       first
       | (refine Kept.cutP (q := q) (x := x) ?_ ?_ <;> [unfold x; ((try clear_value x); intro _)])
       | clear_value x
       | skip)
    | with_reducible apply State.engineLines_kept
    | with_reducible apply State.errorLines_kept

end Sys2Proof.Machine
end

