-- ==== Sys2Proof/Laws/KeptLink.lean ====
section
/-!
SUPPORT. Every operation of Machine/Link.lean keeps the stores canonical and the queue as it stands.
-/

set_option linter.unusedVariables false
set_option linter.unusedTactic false
set_option linter.unreachableTactic false
set_option linter.unnecessarySeqFocus false

namespace Sys2Proof.Machine

variable {q : List Instr}

theorem State.linkEmit_kept {s : State} (h0 : s.Kept q) (a1) : (State.linkEmit s a1).Kept q := by
  unfold State.linkEmit
  repeat' first
    | with_reducible assumption
    | with_reducible apply State.emit_kept

theorem State.send_kept {s : State} (h0 : s.Kept q) (a1) (a2) (a3) (a4) (a5) : (State.send s a1 a2 a3 a4 a5).Kept q := by
  unfold State.send
  repeat' first
    | with_reducible assumption
    | (fail_if_no_progress (extract_lets +onlyGivenNames x)
       first
       | (refine Kept.cut (q := q) (x := x) ?_ ?_ <;> [unfold x; ((try clear_value x); intro _)])
       | clear_value x
       | skip)
    | with_reducible apply State.linkEmit_kept
    | with_reducible apply Kept.ite
    | split
    | fail_if_no_progress (with_reducible apply Kept.upd)

theorem State.linkAnswer_kept {s : State} (h0 : s.Kept q) (a1) (a2) : (State.linkAnswer s a1 a2).Kept q := by
  unfold State.linkAnswer
  repeat' first
    | with_reducible assumption
    | with_reducible apply State.linkEmit_kept

theorem State.linkState_kept {s : State} (h0 : s.Kept q) (a1) : (State.linkState s a1).Kept q := by
  unfold State.linkState
  repeat' first
    | with_reducible assumption
    | ((with_reducible show Fld.listed _ = true); rfl)
    | (fail_if_no_progress (extract_lets +onlyGivenNames x)
       first
       | (refine Kept.cut (q := q) (x := x) ?_ ?_ <;> [unfold x; ((try clear_value x); intro _)])
       | clear_value x
       | skip)
    | with_reducible apply State.irq_kept
    | with_reducible apply State.wr_kept
    | with_reducible apply Kept.ite
    | split
    | fail_if_no_progress (with_reducible apply Kept.upd)

theorem State.linkReset_kept {s : State} (h0 : s.Kept q) : (State.linkReset s).Kept q := by
  unfold State.linkReset
  repeat' first
    | with_reducible assumption
    | ((with_reducible show Fld.listed _ = true); rfl)
    | (fail_if_no_progress (extract_lets +onlyGivenNames x)
       first
       | (refine Kept.cut (q := q) (x := x) ?_ ?_ <;> [unfold x; ((try clear_value x); intro _)])
       | clear_value x
       | skip)
    | with_reducible apply State.bump_kept
    | with_reducible apply State.linkState_kept
    | with_reducible apply Kept.ite
    | split
    | fail_if_no_progress (with_reducible apply Kept.upd)

theorem State.settle_kept {s : State} (h0 : s.Kept q) : (State.settle s).Kept q := by
  unfold State.settle
  repeat' first
    | with_reducible assumption
    | (fail_if_no_progress (extract_lets +onlyGivenNames x)
       first
       | (refine Kept.cut (q := q) (x := x) ?_ ?_ <;> [unfold x; ((try clear_value x); intro _)])
       | clear_value x
       | skip)
    | with_reducible apply State.linkReset_kept
    | with_reducible apply State.resetFor_kept
    | with_reducible apply Kept.ite
    | split
    | fail_if_no_progress (with_reducible apply Kept.upd)

end Sys2Proof.Machine
end

