-- ==== Sys2Proof/Laws/KeptCheck.lean ====
section
/-!
SUPPORT. Every operation of Machine/Check.lean keeps the stores canonical and the queue as it stands.
-/

set_option linter.unusedVariables false
set_option linter.unusedTactic false
set_option linter.unreachableTactic false
set_option linter.unnecessarySeqFocus false

namespace Sys2Proof.Machine

variable {q : List Instr}

theorem State.wakeBlock_kept {s : State} (h0 : s.Kept q) (a1) : (State.wakeBlock s a1).Kept q := by
  unfold State.wakeBlock
  repeat' first
    | with_reducible intro _
    | with_reducible assumption
    | (fail_if_no_progress (extract_lets +onlyGivenNames x)
       first
       | (refine Kept.cut (q := q) (x := x) ?_ ?_ <;> [unfold x; ((try clear_value x); intro _)])
       | clear_value x
       | skip)
    | with_reducible apply State.sliceStopped_kept
    | with_reducible apply Kept.ite
    | split
    | fail_if_no_progress (with_reducible apply Kept.upd)

theorem State.touched_kept {s : State} (h0 : s.Kept q) (a1) (a2) : (State.touched s a1 a2).Kept q := by
  unfold State.touched
  repeat' first
    | with_reducible intro _
    | with_reducible assumption
    | with_reducible apply State.wakeBlock_kept
    | with_reducible apply Kept.ite
    | split

theorem State.writing_kept {s : State} (h0 : s.Kept q) (a1) (a2) (a3) (a4) {g5 : State → State × _} (hg5 : ∀ y0, y0.Kept q → (g5 y0).1.Kept q) : (State.writing s a1 a2 a3 a4 g5).Kept q := by
  unfold State.writing
  repeat' first
    | with_reducible intro _
    | with_reducible assumption
    | (fail_if_no_progress (extract_lets +onlyGivenNames x)
       first
       | (refine Kept.cutP (q := q) (x := x) ?_ ?_ <;> [unfold x; ((try clear_value x); intro _)])
       | clear_value x
       | skip)
    | with_reducible apply State.answer_kept
    | with_reducible apply State.touched_kept
    | with_reducible apply State.settle_kept
    | with_reducible apply Kept.ite
    | split
    | with_reducible apply_assumption

theorem State.reading_kept {s : State} (h0 : s.Kept q) (a1) (a2) (a3) {g4 : State → State × _} (hg4 : ∀ y0, y0.Kept q → (g4 y0).1.Kept q) : (State.reading s a1 a2 a3 g4).Kept q := by
  unfold State.reading
  repeat' first
    | with_reducible intro _
    | with_reducible assumption
    | (fail_if_no_progress (extract_lets +onlyGivenNames x)
       first
       | (refine Kept.cutP (q := q) (x := x) ?_ ?_ <;> [unfold x; ((try clear_value x); intro _)])
       | clear_value x
       | skip)
    | with_reducible apply State.answer_kept
    | with_reducible apply State.touched_kept
    | with_reducible apply Kept.ite
    | split
    | with_reducible apply_assumption

end Sys2Proof.Machine
end

