-- ==== Sys2Proof/Laws/KeptLaneBase.lean ====
section
/-!
SUPPORT. Every operation of Machine/LaneBase.lean keeps the stores canonical and the queue as it stands.
-/

set_option linter.unusedVariables false
set_option linter.unusedTactic false
set_option linter.unreachableTactic false
set_option linter.unnecessarySeqFocus false

namespace Sys2Proof.Machine

variable {q : List Instr}

theorem State.decStore_kept {s : State} (h0 : s.Kept q) (a1) (a2) (a3) : (State.decStore s a1 a2 a3).Kept q := by
  unfold State.decStore
  repeat' first
    | with_reducible assumption
    | with_reducible apply State.memWrite_kept

theorem State.laneMod_kept {s : State} (h0 : s.Kept q) (a1) (a2) : (State.laneMod s a1 a2).Kept q := by
  unfold State.laneMod
  repeat' first
    | with_reducible assumption
    | with_reducible apply State.setLane_kept

theorem State.setSmk_kept {s : State} (h0 : s.Kept q) (a1) (a2) : (State.setSmk s a1 a2).Kept q := by
  unfold State.setSmk
  repeat' first
    | with_reducible assumption
    | (fail_if_no_progress (extract_lets +onlyGivenNames x)
       first
       | clear_value x
       | skip)
    | with_reducible apply State.setLane_kept

theorem State.setDec_kept {s : State} (h0 : s.Kept q) (a1) (a2) : (State.setDec s a1 a2).Kept q := by
  unfold State.setDec
  repeat' first
    | with_reducible assumption
    | (fail_if_no_progress (extract_lets +onlyGivenNames x)
       first
       | clear_value x
       | skip)
    | with_reducible apply State.setLane_kept

theorem State.txIdle_kept {s : State} (h0 : s.Kept q) (a1) : (State.txIdle s a1).Kept q := by
  unfold State.txIdle
  repeat' first
    | with_reducible assumption
    | ((with_reducible show Fld.listed _ = true); rfl)
    | (fail_if_no_progress (extract_lets +onlyGivenNames x)
       first
       | (refine Kept.cut (q := q) (x := x) ?_ ?_ <;> [unfold x; ((try clear_value x); intro _)])
       | clear_value x
       | skip)
    | with_reducible apply State.event_kept
    | with_reducible apply State.wr_kept
    | with_reducible apply State.laneMod_kept
    | with_reducible apply State.put_kept
    | with_reducible apply Kept.ite
    | split

theorem State.unsettle_kept {s : State} (h0 : s.Kept q) (a1) : (State.unsettle s a1).Kept q := by
  unfold State.unsettle
  repeat' first
    | with_reducible assumption
    | ((with_reducible show Fld.listed _ = true); rfl)
    | with_reducible apply State.wr_kept

theorem State.decAverage_kept {s : State} (h0 : s.Kept q) (a1) (a2) : (State.decAverage s a1 a2).Kept q := by
  unfold State.decAverage
  repeat' first
    | with_reducible intro _
    | with_reducible assumption
    | with_reducible apply State.decStore_kept
    | with_reducible apply Kept.foldlFields
    | exact Reg.fields_listed _ _ (by assumption)
    | with_reducible apply Kept.foldl
    | with_reducible apply Kept.foldlP
    | with_reducible apply Kept.ite
    | split

theorem State.xfadeEnd_kept {s : State} (h0 : s.Kept q) (a1) : (State.xfadeEnd s a1).Kept q := by
  unfold State.xfadeEnd
  repeat' first
    | with_reducible assumption
    | ((with_reducible show Fld.listed _ = true); rfl)
    | with_reducible apply State.wr_kept
    | with_reducible apply State.put_kept
    | with_reducible apply Kept.ite
    | split

theorem State.decProfile_kept {s : State} (h0 : s.Kept q) (a1) (a2) : (State.decProfile s a1 a2).Kept q := by
  unfold State.decProfile
  repeat' first
    | with_reducible assumption
    | ((with_reducible show Fld.listed _ = true); rfl)
    | with_reducible apply State.unsettle_kept
    | with_reducible apply State.xfadeEnd_kept
    | with_reducible apply State.decAverage_kept
    | with_reducible apply State.wr_kept

theorem State.decTrack_kept {s : State} (h0 : s.Kept q) (a1) : (State.decTrack s a1).Kept q := by
  unfold State.decTrack
  repeat' first
    | with_reducible assumption
    | ((with_reducible show Fld.listed _ = true); rfl)
    | (fail_if_no_progress (extract_lets +onlyGivenNames x)
       first
       | (refine Kept.cut (q := q) (x := x) ?_ ?_ <;> [unfold x; ((try clear_value x); intro _)])
       | clear_value x
       | skip)
    | with_reducible apply State.put_kept
    | with_reducible apply State.wr_kept
    | with_reducible apply State.unsettle_kept
    | with_reducible apply Kept.ite
    | split

theorem State.smokeRxEnd_kept {s : State} (h0 : s.Kept q) (a1) (a2) (a3) : (State.smokeRxEnd s a1 a2 a3).Kept q := by
  unfold State.smokeRxEnd
  repeat' first
    | with_reducible assumption
    | ((with_reducible show Fld.listed _ = true); rfl)
    | (fail_if_no_progress (extract_lets +onlyGivenNames x)
       first
       | clear_value x
       | skip)
    | with_reducible apply State.setSmk_kept
    | with_reducible apply State.wr_kept
    | with_reducible apply Kept.ite
    | split

theorem State.smokeOwn_kept {s : State} (h0 : s.Kept q) (a1) : (State.smokeOwn s a1).Kept q := by
  unfold State.smokeOwn
  repeat' first
    | with_reducible intro _
    | with_reducible assumption
    | ((with_reducible show Fld.listed _ = true); rfl)
    | (fail_if_no_progress (extract_lets +onlyGivenNames x)
       first
       | (refine Kept.cut (q := q) (x := x) ?_ ?_ <;> [unfold x; ((try clear_value x); intro _)])
       | clear_value x
       | skip)
    | with_reducible apply State.wr_kept
    | with_reducible apply State.put_kept
    | with_reducible apply State.xfadeEnd_kept
    | with_reducible apply State.unsettle_kept
    | with_reducible apply State.decStore_kept
    | with_reducible apply Kept.foldlFields
    | exact Reg.fields_listed _ _ (by assumption)
    | with_reducible apply Kept.foldl
    | with_reducible apply Kept.foldlP
    | with_reducible apply Kept.ite
    | split

theorem State.smokeTrack_kept {s : State} (h0 : s.Kept q) (a1) : (State.smokeTrack s a1).Kept q := by
  unfold State.smokeTrack
  repeat' first
    | with_reducible assumption
    | ((with_reducible show Fld.listed _ = true); rfl)
    | with_reducible apply State.smokeOwn_kept
    | with_reducible apply State.wr_kept
    | with_reducible apply State.put_kept
    | with_reducible apply State.smokeRxEnd_kept
    | with_reducible apply Kept.ite
    | split

theorem State.depthNow_kept {s : State} (h0 : s.Kept q) (a1) : (State.depthNow s a1).Kept q := by
  unfold State.depthNow
  repeat' first
    | with_reducible assumption
    | ((with_reducible show Fld.listed _ = true); rfl)
    | with_reducible apply State.laneMod_kept
    | with_reducible apply State.put_kept

theorem State.smokeAbort_kept {s : State} (h0 : s.Kept q) (a1) : (State.smokeAbort s a1).Kept q := by
  unfold State.smokeAbort
  repeat' first
    | with_reducible assumption
    | (fail_if_no_progress (extract_lets +onlyGivenNames x)
       first
       | clear_value x
       | skip)
    | with_reducible apply State.depthNow_kept
    | with_reducible apply State.setSmk_kept
    | with_reducible apply Kept.ite
    | split

theorem State.rippleOff_kept {s : State} (h0 : s.Kept q) (a1) : (State.rippleOff s a1).Kept q := by
  unfold State.rippleOff
  repeat' first
    | with_reducible assumption
    | ((with_reducible show Fld.listed _ = true); rfl)
    | with_reducible apply State.put_kept

theorem State.rippleCheck_kept {s : State} (h0 : s.Kept q) (a1) : (State.rippleCheck s a1).Kept q := by
  unfold State.rippleCheck
  repeat' first
    | with_reducible assumption
    | with_reducible apply State.rippleOff_kept
    | with_reducible apply Kept.ite
    | split

theorem State.smokePut_kept {s : State} (h0 : s.Kept q) (a1) (a2) : KeptO q (State.smokePut s a1 a2) := by
  unfold State.smokePut
  repeat' first
    | with_reducible assumption
    | (fail_if_no_progress (extract_lets +onlyGivenNames x)
       first
       | clear_value x
       | skip)
    | with_reducible apply State.setSmk_kept
    | with_reducible apply KeptO.none
    | with_reducible apply KeptO.some
    | with_reducible apply Kept.ite
    | with_reducible apply Kept.iteP
    | split

theorem State.smokeCopy_kept {s : State} (h0 : s.Kept q) (a1) (a2) : (State.smokeCopy s a1 a2).Kept q := by
  unfold State.smokeCopy
  repeat' first
    | with_reducible intro _
    | with_reducible assumption
    | ((with_reducible show Fld.listed _ = true); rfl)
    | with_reducible apply State.smokePut_kept
    | with_reducible apply State.event_kept
    | with_reducible apply State.bump_kept
    | with_reducible apply KeptO.getD
    | split
    | (refine KeptO.get ?_ (by assumption) <;> with_reducible apply State.smokePut_kept)

theorem State.queueGoingDown_kept {s : State} (h0 : s.Kept q) (a1) (a2) : (State.queueGoingDown s a1 a2).Kept q := by
  unfold State.queueGoingDown
  repeat' first
    | with_reducible assumption
    | (fail_if_no_progress (extract_lets +onlyGivenNames x)
       first
       | clear_value x
       | skip)
    | with_reducible apply State.setSmk_kept
    | with_reducible apply Kept.ite
    | split

theorem State.flagBeacons_kept {s : State} (h0 : s.Kept q) : (State.flagBeacons s).Kept q := by
  unfold State.flagBeacons
  repeat' first
    | with_reducible intro _
    | with_reducible assumption
    | (fail_if_no_progress (extract_lets +onlyGivenNames x)
       first
       | clear_value x
       | skip)
    | with_reducible apply State.setSmk_kept
    | with_reducible apply Kept.foldlFields
    | exact Reg.fields_listed _ _ (by assumption)
    | with_reducible apply Kept.foldl
    | with_reducible apply Kept.foldlP
    | with_reducible apply Kept.ite
    | split

end Sys2Proof.Machine
end

