-- ==== Sys2Proof/Laws/KeptChain.lean ====
section
/-!
SUPPORT. Every operation of Machine/Chain.lean keeps the stores canonical and the queue as it stands.
-/

set_option linter.unusedVariables false
set_option linter.unusedTactic false
set_option linter.unreachableTactic false
set_option linter.unnecessarySeqFocus false

namespace Sys2Proof.Machine

variable {q : List Instr}

theorem State.decStages_kept {s : State} (h0 : s.Kept q) (a1) (a2) : (State.decStages s a1 a2).1.Kept q := by
  unfold State.decStages
  repeat' first
    | with_reducible assumption
    | (fail_if_no_progress (extract_lets +onlyGivenNames x)
       first
       | clear_value x
       | skip)
    | with_reducible apply State.setDec_kept

end Sys2Proof.Machine
end

