-- ==== Sys2Proof/Laws/KeptCorrelator.lean ====
section
/-!
SUPPORT. Every operation of Machine/Correlator.lean keeps the stores canonical and the queue as it stands.
-/

set_option linter.unusedVariables false
set_option linter.unusedTactic false
set_option linter.unreachableTactic false
set_option linter.unnecessarySeqFocus false

namespace Sys2Proof.Machine

variable {q : List Instr}

theorem State.smokeInput_kept {s : State} (h0 : s.Kept q) (a1) (a2) (a3) (a4) : (State.smokeInput s a1 a2 a3 a4).Kept q := by
  unfold State.smokeInput
  repeat' first
    | with_reducible assumption
    | (fail_if_no_progress (extract_lets +onlyGivenNames x)
       first
       | clear_value x
       | skip)
    | with_reducible apply State.setSmk_kept
    | with_reducible apply Kept.ite
    | split

end Sys2Proof.Machine
end

