-- ==== Sys2Proof/Laws/KeptMemp.lean ====
section
/-!
SUPPORT. Every operation of Machine/Memp.lean keeps the stores canonical and the queue as it stands.
-/

set_option linter.unusedVariables false
set_option linter.unusedTactic false
set_option linter.unreachableTactic false
set_option linter.unnecessarySeqFocus false

namespace Sys2Proof.Machine

variable {q : List Instr}

theorem State.memRead_kept {s : State} (h0 : s.Kept q) (a1) (a2) (a3) : (State.memRead s a1 a2 a3).1.Kept q := by
  unfold State.memRead
  repeat' first
    | with_reducible assumption
    | (fail_if_no_progress (extract_lets +onlyGivenNames x)
       first
       | (refine Kept.cutP (q := q) (x := x) ?_ ?_ <;> [unfold x; ((try clear_value x); intro _)])
       | clear_value x
       | skip)
    | with_reducible apply State.memReadL_kept
    | with_reducible apply State.errorLines_kept

theorem State.memUse_kept {s : State} (h0 : s.Kept q) (a1) (a2) (a3) {g4 : _ → State → State} (hg4 : ∀ y0 y1, y1.Kept q → (g4 y0 y1).Kept q) {g5 : State → State} (hg5 : ∀ y0, y0.Kept q → (g5 y0).Kept q) : (State.memUse s a1 a2 a3 g4 g5).Kept q := by
  unfold State.memUse
  refine State.unlessReset_kept h0 (State.memRead_kept h0 _ _ _) fun y hy => ?_
  generalize (s.memRead a1 a2 a3).2 = r
  cases r
  · exact hg4 _ _ hy
  · exact hg5 _ hy

theorem State.spanTake_kept {s : State} (h0 : s.Kept q) (a1) (a2) (a3) : (State.spanTake s a1 a2 a3).1.Kept q := by
  unfold State.spanTake
  repeat' first
    | with_reducible assumption
    | (fail_if_no_progress (extract_lets +onlyGivenNames x)
       first
       | (refine Kept.cutP (q := q) (x := x) ?_ ?_ <;> [unfold x; ((try clear_value x); intro _)])
       | clear_value x
       | skip)
    | with_reducible apply State.spanRead_kept
    | with_reducible apply State.errorLines_kept

theorem State.tvVote_kept {s : State} (h0 : s.Kept q) (a1) {g2 : State → State} (hg2 : ∀ y0, y0.Kept q → (g2 y0).Kept q) : (State.tvVote s a1 g2).Kept q := by
  unfold State.tvVote
  repeat' first
    | with_reducible intro _
    | with_reducible assumption
    | (fail_if_no_progress (extract_lets +onlyGivenNames x)
       first
       | (refine Kept.cutP (q := q) (x := x) ?_ ?_ <;> [unfold x; ((try clear_value x); intro _)])
       | clear_value x
       | skip)
    | with_reducible apply State.tvVoteL_kept
    | with_reducible apply State.errorLines_kept
    | with_reducible apply Kept.id
    | with_reducible apply_assumption

theorem execScrubLate_kept {s : State} (h0 : s.Kept q) : KeptN q (execScrubLate s) := by
  unfold execScrubLate
  repeat' first
    | with_reducible assumption
    | ((with_reducible show Fld.listed _ = true); rfl)
    | with_reducible apply State.put_kept
    | with_reducible apply KeptN.next
    | with_reducible apply Kept.ite
    | with_reducible apply Kept.iteP
    | split

theorem State.logPop_kept {s : State} (h0 : s.Kept q) : (State.logPop s).Kept q := by
  unfold State.logPop
  repeat' first
    | with_reducible assumption
    | fail_if_no_progress (with_reducible apply Kept.upd)

theorem State.injectWrite_kept {s : State} (h0 : s.Kept q) (a1) : (State.injectWrite s a1).1.Kept q := by
  unfold State.injectWrite
  repeat' first
    | with_reducible intro _
    | with_reducible assumption
    | ((with_reducible show Fld.listed _ = true); rfl)
    | (fail_if_no_progress (extract_lets +onlyGivenNames x)
       first
       | (refine Kept.cutF (q := q) (x := x) ?_ ?_ <;> [(unfold x; beta_reduce); ((try clear_value x); intro _)])
       | (refine Kept.cutF2F (q := q) (x := x) ?_ ?_ <;> [(unfold x; beta_reduce); ((try clear_value x); intro _)])
       | (refine Kept.cutF2 (q := q) (x := x) ?_ ?_ <;> [(unfold x; beta_reduce); ((try clear_value x); intro _)])
       | (refine Kept.cutF22 (q := q) (x := x) ?_ ?_ <;> [(unfold x; beta_reduce); ((try clear_value x); intro _)])
       | (refine Kept.cutF3 (q := q) (x := x) ?_ ?_ <;> [(unfold x; beta_reduce); ((try clear_value x); intro _)])
       | (refine Kept.cutF32 (q := q) (x := x) ?_ ?_ <;> [(unfold x; beta_reduce); ((try clear_value x); intro _)])
       | clear_value x
       | skip)
    | with_reducible apply State.wr_kept
    | with_reducible apply State.put_kept
    | with_reducible apply Kept.ite
    | with_reducible apply Kept.iteP
    | split
    | with_reducible apply_assumption

end Sys2Proof.Machine
end

