-- ==== Sys2Proof/Laws/KeptSlice.lean ====
section
/-!
SUPPORT. Every operation of Machine/Slice.lean keeps the stores canonical and the queue as it stands.
-/

set_option linter.unusedVariables false
set_option linter.unusedTactic false
set_option linter.unreachableTactic false
set_option linter.unnecessarySeqFocus false

namespace Sys2Proof.Machine

variable {q : List Instr}

theorem State.kilnAborted_kept {s : State} (h0 : s.Kept q) (a1) : (State.kilnAborted s a1).Kept q := by
  unfold State.kilnAborted
  repeat' first
    | with_reducible intro _
    | with_reducible assumption
    | ((with_reducible show Fld.listed _ = true); rfl)
    | (fail_if_no_progress (extract_lets +onlyGivenNames x)
       first
       | (refine Kept.cut (q := q) (x := x) ?_ ?_ <;> [unfold x; ((try clear_value x); intro _)])
       | clear_value x
       | skip)
    | with_reducible apply State.wr_kept
    | with_reducible apply State.bump_kept
    | with_reducible apply State.put_kept
    | with_reducible apply State.irq_kept
    | with_reducible apply State.event_kept
    | with_reducible apply Kept.foldlFields
    | exact Reg.fields_listed _ _ (by assumption)
    | with_reducible apply Kept.foldl
    | with_reducible apply Kept.foldlP
    | with_reducible apply Kept.ite
    | split
    | fail_if_no_progress (with_reducible apply Kept.upd)

theorem State.sliceAbort_kept {s : State} (h0 : s.Kept q) (a1) (a2) : (State.sliceAbort s a1 a2).Kept q := by
  unfold State.sliceAbort
  repeat' first
    | with_reducible assumption
    | (fail_if_no_progress (extract_lets +onlyGivenNames x)
       first
       | (refine Kept.cut (q := q) (x := x) ?_ ?_ <;> [unfold x; ((try clear_value x); intro _)])
       | clear_value x
       | skip)
    | with_reducible apply State.sliceIncomplete_kept
    | with_reducible apply State.kilnAborted_kept
    | with_reducible apply Kept.ite
    | split
    | fail_if_no_progress (with_reducible apply Kept.upd)

theorem State.dataPath_kept {s : State} (h0 : s.Kept q) (a1) : (State.dataPath s a1).Kept q := by
  unfold State.dataPath
  repeat' first
    | with_reducible assumption
    | (fail_if_no_progress (extract_lets +onlyGivenNames x)
       first
       | (refine Kept.cut (q := q) (x := x) ?_ ?_ <;> [unfold x; ((try clear_value x); intro _)])
       | clear_value x
       | skip)
    | with_reducible apply State.sliceAbort_kept
    | with_reducible apply State.drawn_kept
    | with_reducible apply Kept.ite
    | split
    | fail_if_no_progress (with_reducible apply Kept.upd)

theorem State.dataPaths_kept {s : State} (h0 : s.Kept q) (a1) : (State.dataPaths s a1).Kept q := by
  unfold State.dataPaths
  repeat' first
    | with_reducible intro _
    | with_reducible assumption
    | with_reducible apply State.dataPath_kept
    | with_reducible apply Kept.foldlFields
    | exact Reg.fields_listed _ _ (by assumption)
    | with_reducible apply Kept.foldl
    | with_reducible apply Kept.foldlP

end Sys2Proof.Machine
end

