-- ==== Sys2Proof/Laws/KeptHold.lean ====
section
/-!
SUPPORT. Every operation of Machine/Hold.lean keeps the stores canonical and the queue as it stands.
-/

set_option linter.unusedVariables false
set_option linter.unusedTactic false
set_option linter.unreachableTactic false
set_option linter.unnecessarySeqFocus false

namespace Sys2Proof.Machine

variable {q : List Instr}

theorem State.setHc_kept {s : State} (h0 : s.Kept q) (a1) (a2) : (State.setHc s a1 a2).Kept q := by
  unfold State.setHc
  repeat' first
    | with_reducible assumption
    | fail_if_no_progress (with_reducible apply Kept.upd)

theorem State.holdbackCount_kept {s : State} (h0 : s.Kept q) (a1) : (State.holdbackCount s a1).Kept q := by
  unfold State.holdbackCount
  repeat' first
    | with_reducible assumption
    | (fail_if_no_progress (extract_lets +onlyGivenNames x)
       first
       | clear_value x
       | skip)
    | fail_if_no_progress (with_reducible apply Kept.upd)

theorem State.drainCount_kept {s : State} (h0 : s.Kept q) (a1) : (State.drainCount s a1).Kept q := by
  unfold State.drainCount
  repeat' first
    | with_reducible assumption
    | (fail_if_no_progress (extract_lets +onlyGivenNames x)
       first
       | clear_value x
       | skip)
    | fail_if_no_progress (with_reducible apply Kept.upd)

theorem State.commit_kept {s : State} (h0 : s.Kept q) {s1 : State} (h1 : s1.Kept q) : (State.commit s s1).1.Kept q := by
  unfold State.commit
  repeat' first
    | with_reducible assumption
    | with_reducible apply Kept.ite
    | with_reducible apply Kept.iteP
    | split

theorem State.trackHold_kept {s : State} (h0 : s.Kept q) {f1 : Fld} (hf1 : f1.listed = true) {f2 : Fld} (hf2 : f2.listed = true) (a3) : (State.trackHold s f1 f2 a3).Kept q := by
  unfold State.trackHold
  repeat' first
    | with_reducible assumption
    | ((with_reducible show Fld.listed _ = true); rfl)
    | with_reducible apply State.event_kept
    | with_reducible apply State.put_kept
    | with_reducible apply Kept.ite
    | split

theorem State.holdUpdate_kept {s : State} (h0 : s.Kept q) : (State.holdUpdate s).Kept q := by
  unfold State.holdUpdate
  repeat' first
    | with_reducible intro _
    | with_reducible assumption
    | ((with_reducible show Fld.listed _ = true); rfl)
    | (fail_if_no_progress (extract_lets +onlyGivenNames x)
       first
       | (refine Kept.cut (q := q) (x := x) ?_ ?_ <;> [unfold x; ((try clear_value x); intro _)])
       | clear_value x
       | skip)
    | with_reducible apply State.wr_kept
    | with_reducible apply State.trackHold_kept
    | with_reducible apply Kept.foldlFields
    | exact Reg.fields_listed _ _ (by assumption)
    | with_reducible apply Kept.foldl
    | with_reducible apply Kept.foldlP

theorem State.holdTrain_kept {s : State} (h0 : s.Kept q) : (State.holdTrain s).Kept q := by
  unfold State.holdTrain
  repeat' first
    | with_reducible intro _
    | with_reducible assumption
    | ((with_reducible show Fld.listed _ = true); rfl)
    | (fail_if_no_progress (extract_lets +onlyGivenNames x)
       first
       | (refine Kept.cut (q := q) (x := x) ?_ ?_ <;> [unfold x; ((try clear_value x); intro _)])
       | clear_value x
       | skip)
    | with_reducible apply State.wr_kept
    | with_reducible apply State.setHc_kept
    | with_reducible apply State.holdUpdate_kept
    | with_reducible apply State.put_kept
    | with_reducible apply Kept.foldlFields
    | exact Reg.fields_listed _ _ (by assumption)
    | with_reducible apply Kept.foldl
    | with_reducible apply Kept.foldlP
    | with_reducible apply Kept.ite
    | split
    | fail_if_no_progress (with_reducible apply Kept.upd)

theorem State.holdSizes_kept {s : State} (h0 : s.Kept q) : (State.holdSizes s).Kept q := by
  unfold State.holdSizes
  repeat' first
    | with_reducible intro _
    | with_reducible assumption
    | ((with_reducible show Fld.listed _ = true); rfl)
    | (fail_if_no_progress (extract_lets +onlyGivenNames x)
       first
       | clear_value x
       | skip)
    | with_reducible apply State.wr_kept
    | with_reducible apply State.setHc_kept
    | with_reducible apply Kept.foldlFields
    | exact Reg.fields_listed _ _ (by assumption)
    | with_reducible apply Kept.foldl
    | with_reducible apply Kept.foldlP

theorem State.holdRuns_kept {s : State} (h0 : s.Kept q) : (State.holdRuns s).Kept q := by
  unfold State.holdRuns
  repeat' first
    | with_reducible assumption
    | ((with_reducible show Fld.listed _ = true); rfl)
    | with_reducible apply State.put_kept
    | with_reducible apply State.wr_kept
    | with_reducible apply Kept.ite
    | split

theorem State.chFail_kept {s : State} (h0 : s.Kept q) (a1) (a2) : (State.chFail s a1 a2).Kept q := by
  unfold State.chFail
  repeat' first
    | with_reducible assumption
    | ((with_reducible show Fld.listed _ = true); rfl)
    | with_reducible apply State.errorLine_kept
    | with_reducible apply State.event_kept
    | with_reducible apply State.wr_kept

theorem State.dimmSet_kept {s : State} (h0 : s.Kept q) (a1) (a2) (a3) (a4) (a5) : (State.dimmSet s a1 a2 a3 a4 a5).Kept q := by
  unfold State.dimmSet
  repeat' first
    | with_reducible assumption
    | ((with_reducible show Fld.listed _ = true); rfl)
    | with_reducible apply State.wr_kept

theorem execChannelTrained_kept (a0) (a1) (a2) (a3) (a4) (a5) {s : State} (h0 : s.Kept q) : KeptN q (execChannelTrained a0 a1 a2 a3 a4 a5 s) := by
  unfold execChannelTrained
  repeat' first
    | with_reducible intro _
    | with_reducible assumption
    | ((with_reducible show Fld.listed _ = true); rfl)
    | (fail_if_no_progress (extract_lets +onlyGivenNames x)
       first
       | (refine Kept.cut (q := q) (x := x) ?_ ?_ <;> [unfold x; ((try clear_value x); intro _)])
       | clear_value x
       | skip)
    | with_reducible apply State.dimmSet_kept
    | with_reducible apply State.holdSizes_kept
    | with_reducible apply State.wr_kept
    | with_reducible apply State.setHc_kept
    | with_reducible apply State.chFail_kept
    | with_reducible apply State.unlessReset_kept
    | with_reducible apply State.holdUpdate_kept
    | with_reducible apply State.holdRuns_kept
    | with_reducible apply KeptN.next
    | with_reducible apply Kept.ite
    | with_reducible apply Kept.iteP
    | split
    | with_reducible apply Kept.id

theorem execZqCalibration_kept (a0) {s : State} (h0 : s.Kept q) : KeptN q (execZqCalibration a0 s) := by
  unfold execZqCalibration
  repeat' first
    | with_reducible assumption
    | (fail_if_no_progress (extract_lets +onlyGivenNames x)
       first
       | clear_value x
       | skip)
    | with_reducible apply State.setHc_kept
    | with_reducible apply KeptN.next
    | with_reducible apply Kept.ite
    | with_reducible apply Kept.iteP
    | split

theorem execDqsOscillatorRead_kept (a0) (a1) {s : State} (h0 : s.Kept q) : KeptN q (execDqsOscillatorRead a0 a1 s) := by
  unfold execDqsOscillatorRead
  repeat' first
    | with_reducible assumption
    | (fail_if_no_progress (extract_lets +onlyGivenNames x)
       first
       | clear_value x
       | skip)
    | with_reducible apply State.setHc_kept
    | with_reducible apply KeptN.next
    | with_reducible apply Kept.ite
    | with_reducible apply Kept.iteP
    | split

theorem execModuleTempRead_kept (a0) (a1) {s : State} (h0 : s.Kept q) : KeptN q (execModuleTempRead a0 a1 s) := by
  unfold execModuleTempRead
  repeat' first
    | with_reducible assumption
    | ((with_reducible show Fld.listed _ = true); rfl)
    | with_reducible apply State.wr_kept
    | with_reducible apply KeptN.next
    | with_reducible apply Kept.ite
    | with_reducible apply Kept.iteP
    | split

theorem execHoldRefresh_kept (a0) (a1) {s : State} (h0 : s.Kept q) : KeptN q (execHoldRefresh a0 a1 s) := by
  unfold execHoldRefresh
  repeat' first
    | with_reducible assumption
    | with_reducible apply State.perfCh_kept
    | with_reducible apply KeptN.next
    | with_reducible apply Kept.ite
    | with_reducible apply Kept.iteP
    | split

theorem State.holdPark_kept {s : State} (h0 : s.Kept q) : (State.holdPark s).Kept q := by
  unfold State.holdPark
  repeat' first
    | with_reducible intro _
    | with_reducible assumption
    | ((with_reducible show Fld.listed _ = true); rfl)
    | with_reducible apply State.perfCh_kept
    | with_reducible apply State.wr_kept
    | with_reducible apply Kept.foldlFields
    | exact Reg.fields_listed _ _ (by assumption)
    | with_reducible apply Kept.foldl
    | with_reducible apply Kept.foldlP
    | with_reducible apply Kept.ite
    | split

theorem State.holdUnpark_kept {s : State} (h0 : s.Kept q) : (State.holdUnpark s).Kept q := by
  unfold State.holdUnpark
  repeat' first
    | with_reducible intro _
    | with_reducible assumption
    | ((with_reducible show Fld.listed _ = true); rfl)
    | with_reducible apply State.wr_kept
    | with_reducible apply Kept.foldlFields
    | exact Reg.fields_listed _ _ (by assumption)
    | with_reducible apply Kept.foldl
    | with_reducible apply Kept.foldlP
    | with_reducible apply Kept.ite
    | split

theorem State.clinkerRead_kept {s : State} (h0 : s.Kept q) (a1) (a2) : (State.clinkerRead s a1 a2).Kept q := by
  unfold State.clinkerRead
  repeat' first
    | with_reducible assumption
    | (fail_if_no_progress (extract_lets +onlyGivenNames x)
       first
       | (refine Kept.cutP (q := q) (x := x) ?_ ?_ <;> [unfold x; ((try clear_value x); intro _)])
       | clear_value x
       | skip)
    | with_reducible apply State.spanTake_kept
    | with_reducible apply State.spanWrite_kept
    | with_reducible apply Kept.ite
    | with_reducible apply Kept.iteP
    | split

theorem State.cachePut_kept {s : State} (h0 : s.Kept q) (a1) (a2) : (State.cachePut s a1 a2).Kept q := by
  unfold State.cachePut
  repeat' first
    | with_reducible assumption
    | with_reducible apply State.spanWrite_kept
    | with_reducible apply State.clinkerRead_kept

theorem State.cordRead_kept {s : State} (h0 : s.Kept q) (a1) (a2) : (State.cordRead s a1 a2).Kept q := by
  unfold State.cordRead
  repeat' first
    | with_reducible intro _
    | with_reducible assumption
    | (fail_if_no_progress (extract_lets +onlyGivenNames x)
       first
       | (refine Kept.cutP (q := q) (x := x) ?_ ?_ <;> [unfold x; ((try clear_value x); intro _)])
       | clear_value x
       | skip)
    | with_reducible apply State.spanTake_kept
    | with_reducible apply State.unlessReset_kept
    | with_reducible apply State.holdUpdate_kept
    | with_reducible apply State.setHc_kept
    | with_reducible apply Kept.ite
    | with_reducible apply Kept.iteP
    | split
    | with_reducible apply Kept.id

theorem State.mapsRead_kept {s : State} (h0 : s.Kept q) (a1) (a2) : (State.mapsRead s a1 a2).Kept q := by
  induction a2 generalizing s with
  | zero =>
    unfold State.mapsRead
    repeat' first
      | with_reducible intro _
      | with_reducible assumption
      | (fail_if_no_progress (extract_lets +onlyGivenNames x)
         first
         | (refine Kept.cut (q := q) (x := x) ?_ ?_ <;> [unfold x; ((try clear_value x); intro _)])
         | clear_value x
         | skip)
      | with_reducible apply State.cordRead_kept
      | with_reducible apply State.clinkerRead_kept
      | with_reducible apply Kept.ite
      | split
  | succ fuel ih =>
    unfold State.mapsRead
    repeat' first
      | with_reducible intro _
      | with_reducible assumption
      | (fail_if_no_progress (extract_lets +onlyGivenNames x)
         first
         | (refine Kept.cut (q := q) (x := x) ?_ ?_ <;> [unfold x; ((try clear_value x); intro _)])
         | clear_value x
         | skip)
      | with_reducible apply ih
      | with_reducible apply State.cordRead_kept
      | with_reducible apply State.clinkerRead_kept
      | with_reducible apply Kept.ite
      | split

theorem State.mapsScan_kept {s : State} (h0 : s.Kept q) : (State.mapsScan s).Kept q := by
  unfold State.mapsScan
  repeat' first
    | with_reducible intro _
    | with_reducible assumption
    | with_reducible apply State.mapsRead_kept
    | with_reducible apply Kept.foldlFields
    | exact Reg.fields_listed _ _ (by assumption)
    | with_reducible apply Kept.foldl
    | with_reducible apply Kept.foldlP

theorem State.setOpen_kept {s : State} (h0 : s.Kept q) (a1) : (State.setOpen s a1).Kept q := by
  unfold State.setOpen
  repeat' first
    | with_reducible assumption
    | fail_if_no_progress (with_reducible apply Kept.upd)

theorem State.holdNew_kept {s : State} (h0 : s.Kept q) (a1) (a2) (a3) (a4) (a5) (a6) : KeptOP q (State.holdNew s a1 a2 a3 a4 a5 a6) := by
  induction a5 generalizing s a3 a4 a6 with
  | zero =>
    unfold State.holdNew
    repeat' first
      | with_reducible intro _
      | with_reducible assumption
      | (fail_if_no_progress (extract_lets +onlyGivenNames x)
         first
         | (refine Kept.cut (q := q) (x := x) ?_ ?_ <;> [unfold x; ((try clear_value x); intro _)])
         | clear_value x
         | skip)
      | with_reducible apply State.perfCh_kept
      | with_reducible apply State.setOpen_kept
      | with_reducible apply KeptOP.none
      | with_reducible apply KeptOP.some
      | with_reducible apply Kept.ite
      | with_reducible apply Kept.iteP
      | split
      | fail_if_no_progress (with_reducible apply Kept.upd)
  | succ fuel ih =>
    unfold State.holdNew
    repeat' first
      | with_reducible intro _
      | with_reducible assumption
      | (fail_if_no_progress (extract_lets +onlyGivenNames x)
         first
         | (refine Kept.cut (q := q) (x := x) ?_ ?_ <;> [unfold x; ((try clear_value x); intro _)])
         | clear_value x
         | skip)
      | with_reducible apply ih
      | with_reducible apply State.perfCh_kept
      | with_reducible apply State.setOpen_kept
      | with_reducible apply KeptOP.none
      | with_reducible apply KeptOP.some
      | with_reducible apply Kept.ite
      | with_reducible apply Kept.iteP
      | split
      | fail_if_no_progress (with_reducible apply Kept.upd)

theorem State.holdTake_kept {s : State} (h0 : s.Kept q) (a1) (a2) (a3) (a4) : KeptOP q (State.holdTake s a1 a2 a3 a4) := by
  unfold State.holdTake
  repeat' first
    | with_reducible intro _
    | with_reducible assumption
    | (fail_if_no_progress (extract_lets +onlyGivenNames x)
       first
       | (refine Kept.cut (q := q) (x := x) ?_ ?_ <;> [unfold x; ((try clear_value x); intro _)])
       | clear_value x
       | skip)
    | with_reducible apply State.holdNew_kept
    | with_reducible apply State.setOpen_kept
    | with_reducible apply KeptOP.getD
    | with_reducible apply KeptOP.none
    | with_reducible apply KeptOP.some
    | with_reducible apply Kept.ite
    | with_reducible apply Kept.iteP
    | split
    | (refine KeptOP.get ?_ (by assumption) <;> with_reducible apply State.holdNew_kept)
    | (refine KeptOP.getP ?_ (by assumption) <;> with_reducible apply State.holdNew_kept)

theorem State.holdStore_kept {s : State} (h0 : s.Kept q) (a1) (a2) (a3) (a4) (a5) (a6) : KeptO q (State.holdStore s a1 a2 a3 a4 a5 a6) := by
  unfold State.holdStore
  repeat' first
    | with_reducible intro _
    | with_reducible assumption
    | (fail_if_no_progress (extract_lets +onlyGivenNames x)
       first
       | (refine Kept.cut (q := q) (x := x) ?_ ?_ <;> [unfold x; ((try clear_value x); intro _)])
       | clear_value x
       | skip)
    | with_reducible apply State.holdTake_kept
    | with_reducible apply State.dataPath_kept
    | with_reducible apply State.spanWrite_kept
    | with_reducible apply KeptOP.getD
    | with_reducible apply KeptO.none
    | with_reducible apply KeptO.some
    | with_reducible apply Kept.ite
    | with_reducible apply Kept.iteP
    | split
    | (refine KeptOP.get ?_ (by assumption) <;> with_reducible apply State.holdTake_kept)
    | (refine KeptOP.getP ?_ (by assumption) <;> with_reducible apply State.holdTake_kept)
    | fail_if_no_progress (with_reducible apply Kept.upd)

theorem State.dropReads_kept {s : State} (h0 : s.Kept q) (a1) (a2) : (State.dropReads s a1 a2).Kept q := by
  unfold State.dropReads
  repeat' first
    | with_reducible assumption
    | fail_if_no_progress (with_reducible apply Kept.upd)

theorem State.neededBy_kept {s : State} (h0 : s.Kept q) (a1) : (State.neededBy s a1).Kept q := by
  unfold State.neededBy
  repeat' first
    | with_reducible intro _
    | with_reducible assumption
    | (fail_if_no_progress (extract_lets +onlyGivenNames x)
       first
       | (refine Kept.cut (q := q) (x := x) ?_ ?_ <;> [unfold x; ((try clear_value x); intro _)])
       | clear_value x
       | skip)
    | with_reducible apply State.setHc_kept
    | with_reducible apply Kept.foldlFields
    | exact Reg.fields_listed _ _ (by assumption)
    | with_reducible apply Kept.foldl
    | with_reducible apply Kept.foldlP
    | fail_if_no_progress (with_reducible apply Kept.upd)

theorem State.freeBilletOf_kept {s : State} (h0 : s.Kept q) (a1) (a2) : (State.freeBilletOf s a1 a2).Kept q := by
  unfold State.freeBilletOf
  repeat' first
    | with_reducible intro _
    | with_reducible assumption
    | ((with_reducible show Fld.listed _ = true); rfl)
    | (fail_if_no_progress (extract_lets +onlyGivenNames x)
       first
       | (refine Kept.cutF (q := q) (x := x) ?_ ?_ <;> [(unfold x; beta_reduce); ((try clear_value x); intro _)])
       | (refine Kept.cutF2F (q := q) (x := x) ?_ ?_ <;> [(unfold x; beta_reduce); ((try clear_value x); intro _)])
       | (refine Kept.cutF2 (q := q) (x := x) ?_ ?_ <;> [(unfold x; beta_reduce); ((try clear_value x); intro _)])
       | (refine Kept.cutF22 (q := q) (x := x) ?_ ?_ <;> [(unfold x; beta_reduce); ((try clear_value x); intro _)])
       | (refine Kept.cutF3 (q := q) (x := x) ?_ ?_ <;> [(unfold x; beta_reduce); ((try clear_value x); intro _)])
       | (refine Kept.cutF32 (q := q) (x := x) ?_ ?_ <;> [(unfold x; beta_reduce); ((try clear_value x); intro _)])
       | clear_value x
       | skip)
    | with_reducible apply State.bump_kept
    | with_reducible apply State.setHc_kept
    | with_reducible apply State.unlessReset_kept
    | with_reducible apply State.cachePut_kept
    | with_reducible apply State.event_kept
    | with_reducible apply Kept.ite
    | split
    | with_reducible apply Kept.id
    | with_reducible apply_assumption

theorem State.holdRelease_kept {s : State} (h0 : s.Kept q) (a1) (a2) : (State.holdRelease s a1 a2).Kept q := by
  unfold State.holdRelease
  repeat' first
    | with_reducible intro _
    | with_reducible assumption
    | ((with_reducible show Fld.listed _ = true); rfl)
    | (fail_if_no_progress (extract_lets +onlyGivenNames x)
       first
       | (refine Kept.cut (q := q) (x := x) ?_ ?_ <;> [unfold x; ((try clear_value x); intro _)])
       | clear_value x
       | skip)
    | with_reducible apply State.freeBilletOf_kept
    | with_reducible apply State.unlessReset_kept
    | with_reducible apply State.bump_kept
    | with_reducible apply Kept.foldlFields
    | exact Reg.fields_listed _ _ (by assumption)
    | with_reducible apply Kept.foldl
    | with_reducible apply Kept.foldlP
    | with_reducible apply Kept.ite
    | split
    | fail_if_no_progress (with_reducible apply Kept.upd)
    | with_reducible apply Kept.id

theorem State.errLog_kept {s : State} (h0 : s.Kept q) (a1) (a2) (a3) (a4) : (State.errLog s a1 a2 a3 a4).Kept q := by
  unfold State.errLog
  repeat' first
    | with_reducible assumption
    | ((with_reducible show Fld.listed _ = true); rfl)
    | with_reducible apply State.wr_kept

theorem State.clinker_kept {s : State} (h0 : s.Kept q) (a1) (a2) : (State.clinker s a1 a2).Kept q := by
  unfold State.clinker
  repeat' first
    | with_reducible intro _
    | with_reducible assumption
    | ((with_reducible show Fld.listed _ = true); rfl)
    | (fail_if_no_progress (extract_lets +onlyGivenNames x)
       first
       | clear_value x
       | skip)
    | with_reducible apply State.unlessReset_kept
    | with_reducible apply State.cachePut_kept
    | with_reducible apply State.event_kept
    | with_reducible apply State.bump_kept
    | with_reducible apply State.setHc_kept
    | with_reducible apply Kept.ite
    | split
    | with_reducible apply Kept.id

theorem State.rankBucket_kept {s : State} (h0 : s.Kept q) (a1) (a2) (a3) : (State.rankBucket s a1 a2 a3).Kept q := by
  unfold State.rankBucket
  repeat' first
    | with_reducible assumption
    | ((with_reducible show Fld.listed _ = true); rfl)
    | (fail_if_no_progress (extract_lets +onlyGivenNames x)
       first
       | clear_value x
       | skip)
    | with_reducible apply State.event_kept
    | with_reducible apply State.errLog_kept
    | with_reducible apply State.setHc_kept
    | with_reducible apply Kept.ite
    | split

theorem State.candidate_kept {s : State} (h0 : s.Kept q) (a1) (a2) : (State.candidate s a1 a2).Kept q := by
  unfold State.candidate
  repeat' first
    | with_reducible assumption
    | ((with_reducible show Fld.listed _ = true); rfl)
    | (fail_if_no_progress (extract_lets +onlyGivenNames x)
       first
       | clear_value x
       | skip)
    | with_reducible apply State.bump_kept
    | with_reducible apply State.event_kept
    | with_reducible apply State.setHc_kept
    | with_reducible apply Kept.ite
    | split

theorem State.rowBucket_kept {s : State} (h0 : s.Kept q) (a1) (a2) (a3) : (State.rowBucket s a1 a2 a3).Kept q := by
  unfold State.rowBucket
  repeat' first
    | with_reducible intro _
    | with_reducible assumption
    | ((with_reducible show Fld.listed _ = true); rfl)
    | (fail_if_no_progress (extract_lets +onlyGivenNames x)
       first
       | (refine Kept.cutF (q := q) (x := x) ?_ ?_ <;> [(unfold x; beta_reduce); ((try clear_value x); intro _)])
       | (refine Kept.cutF2F (q := q) (x := x) ?_ ?_ <;> [(unfold x; beta_reduce); ((try clear_value x); intro _)])
       | (refine Kept.cutF2 (q := q) (x := x) ?_ ?_ <;> [(unfold x; beta_reduce); ((try clear_value x); intro _)])
       | (refine Kept.cutF22 (q := q) (x := x) ?_ ?_ <;> [(unfold x; beta_reduce); ((try clear_value x); intro _)])
       | (refine Kept.cutF3 (q := q) (x := x) ?_ ?_ <;> [(unfold x; beta_reduce); ((try clear_value x); intro _)])
       | (refine Kept.cutF32 (q := q) (x := x) ?_ ?_ <;> [(unfold x; beta_reduce); ((try clear_value x); intro _)])
       | clear_value x
       | skip)
    | with_reducible apply State.setHc_kept
    | with_reducible apply State.event_kept
    | with_reducible apply State.errLog_kept
    | with_reducible apply State.candidate_kept
    | with_reducible apply Kept.ite
    | split
    | with_reducible apply_assumption

theorem State.corrected_kept {s : State} (h0 : s.Kept q) (a1) (a2) (a3) : (State.corrected s a1 a2 a3).Kept q := by
  unfold State.corrected
  repeat' first
    | with_reducible assumption
    | ((with_reducible show Fld.listed _ = true); rfl)
    | (fail_if_no_progress (extract_lets +onlyGivenNames x)
       first
       | (refine Kept.cut (q := q) (x := x) ?_ ?_ <;> [unfold x; ((try clear_value x); intro _)])
       | clear_value x
       | skip)
    | with_reducible apply State.perfCh_kept
    | with_reducible apply State.bump_kept
    | with_reducible apply State.irq_kept
    | with_reducible apply State.errLog_kept
    | with_reducible apply State.rowBucket_kept
    | with_reducible apply State.rankBucket_kept
    | with_reducible apply Kept.ite
    | split

theorem State.uncorrected_kept {s : State} (h0 : s.Kept q) (a1) (a2) (a3) : (State.uncorrected s a1 a2 a3).Kept q := by
  unfold State.uncorrected
  repeat' first
    | with_reducible assumption
    | ((with_reducible show Fld.listed _ = true); rfl)
    | (fail_if_no_progress (extract_lets +onlyGivenNames x)
       first
       | (refine Kept.cut (q := q) (x := x) ?_ ?_ <;> [unfold x; ((try clear_value x); intro _)])
       | clear_value x
       | skip)
    | with_reducible apply State.setHc_kept
    | with_reducible apply State.clinker_kept
    | with_reducible apply State.errLog_kept
    | with_reducible apply State.perfCh_kept
    | with_reducible apply State.bump_kept

theorem State.burstErrors_kept {s : State} (h0 : s.Kept q) (a1) (a2) (a3) : (State.burstErrors s a1 a2 a3).Kept q := by
  unfold State.burstErrors
  repeat' first
    | with_reducible intro _
    | with_reducible assumption
    | with_reducible apply State.uncorrected_kept
    | with_reducible apply State.corrected_kept
    | with_reducible apply Kept.foldlFields
    | exact Reg.fields_listed _ _ (by assumption)
    | with_reducible apply Kept.foldl
    | with_reducible apply Kept.foldlP
    | with_reducible apply Kept.ite
    | split

theorem State.retries_kept {s : State} (h0 : s.Kept q) (a1) (a2) : (State.retries s a1 a2).Kept q := by
  unfold State.retries
  repeat' first
    | with_reducible assumption
    | ((with_reducible show Fld.listed _ = true); rfl)
    | with_reducible apply State.perfCh_kept
    | with_reducible apply State.bump_kept

theorem State.scrubPass_kept {s : State} (h0 : s.Kept q) : (State.scrubPass s).Kept q := by
  unfold State.scrubPass
  repeat' first
    | with_reducible intro _
    | with_reducible assumption
    | ((with_reducible show Fld.listed _ = true); rfl)
    | (fail_if_no_progress (extract_lets +onlyGivenNames x)
       first
       | clear_value x
       | skip)
    | with_reducible apply State.wr_kept
    | with_reducible apply State.bumpWrap_kept
    | with_reducible apply State.setHc_kept
    | with_reducible apply Kept.foldlFields
    | exact Reg.fields_listed _ _ (by assumption)
    | with_reducible apply Kept.foldl
    | with_reducible apply Kept.foldlP
    | with_reducible apply Kept.ite
    | split

theorem execRankBucketLeak_kept (a0) (a1) {s : State} (h0 : s.Kept q) : KeptN q (execRankBucketLeak a0 a1 s) := by
  unfold execRankBucketLeak
  repeat' first
    | with_reducible assumption
    | (fail_if_no_progress (extract_lets +onlyGivenNames x)
       first
       | clear_value x
       | skip)
    | with_reducible apply State.setHc_kept
    | with_reducible apply KeptN.next
    | with_reducible apply Kept.ite
    | with_reducible apply Kept.iteP
    | split

theorem execRowBucketLeak_kept (a0) (a1) {s : State} (h0 : s.Kept q) : KeptN q (execRowBucketLeak a0 a1 s) := by
  unfold execRowBucketLeak
  repeat' first
    | with_reducible intro _
    | with_reducible assumption
    | (fail_if_no_progress (extract_lets +onlyGivenNames x)
       first
       | clear_value x
       | skip)
    | with_reducible apply State.setHc_kept
    | with_reducible apply KeptN.next
    | with_reducible apply Kept.ite
    | with_reducible apply Kept.iteP
    | split

theorem State.rowErrors_kept {s : State} (h0 : s.Kept q) (a1) (a2) (a3) : (State.rowErrors s a1 a2 a3).Kept q := by
  unfold State.rowErrors
  repeat' first
    | with_reducible intro _
    | with_reducible assumption
    | with_reducible apply State.burstErrors_kept
    | with_reducible apply Kept.foldlFields
    | exact Reg.fields_listed _ _ (by assumption)
    | with_reducible apply Kept.foldl
    | with_reducible apply Kept.foldlP
    | with_reducible apply Kept.ite
    | split

theorem execClinkerRetest_kept (a0) (a1) {s : State} (h0 : s.Kept q) : KeptN q (execClinkerRetest a0 a1 s) := by
  unfold execClinkerRetest
  repeat' first
    | with_reducible intro _
    | with_reducible assumption
    | (fail_if_no_progress (extract_lets +onlyGivenNames x)
       first
       | clear_value x
       | skip)
    | with_reducible apply State.unlessReset_kept
    | with_reducible apply State.cachePut_kept
    | with_reducible apply State.setHc_kept
    | with_reducible apply KeptN.next
    | with_reducible apply Kept.ite
    | with_reducible apply Kept.iteP
    | split
    | with_reducible apply Kept.id

theorem State.pprWrite_kept {s : State} (h0 : s.Kept q) (a1) : (State.pprWrite s a1).1.Kept q := by
  unfold State.pprWrite
  repeat' first
    | with_reducible assumption
    | ((with_reducible show Fld.listed _ = true); rfl)
    | (fail_if_no_progress (extract_lets +onlyGivenNames x)
       first
       | (refine Kept.cut (q := q) (x := x) ?_ ?_ <;> [unfold x; ((try clear_value x); intro _)])
       | clear_value x
       | skip)
    | with_reducible apply State.setHc_kept
    | with_reducible apply State.put_kept
    | with_reducible apply Kept.ite
    | with_reducible apply Kept.iteP
    | split
    | fail_if_no_progress (with_reducible apply Kept.upd)

theorem execSoftRepairRequest_kept (a0) (a1) (a2) {s : State} (h0 : s.Kept q) : KeptN q (execSoftRepairRequest a0 a1 a2 s) := by
  unfold execSoftRepairRequest
  repeat' first
    | with_reducible intro _
    | with_reducible assumption
    | with_reducible apply State.writing_kept
    | with_reducible apply State.pprWrite_kept
    | with_reducible apply KeptN.next
    | with_reducible apply Kept.id

theorem execHardRepair_kept (a0) (a1) (a2) {s : State} (h0 : s.Kept q) : KeptN q (execHardRepair a0 a1 a2 s) := by
  unfold execHardRepair
  repeat' first
    | with_reducible intro _
    | with_reducible assumption
    | with_reducible apply State.writing_kept
    | with_reducible apply State.pprWrite_kept
    | with_reducible apply KeptN.next
    | with_reducible apply Kept.id

theorem State.retireRow_kept {s : State} (h0 : s.Kept q) (a1) (a2) : (State.retireRow s a1 a2).Kept q := by
  unfold State.retireRow
  repeat' first
    | with_reducible intro _
    | with_reducible assumption
    | (fail_if_no_progress (extract_lets +onlyGivenNames x)
       first
       | (refine Kept.cut (q := q) (x := x) ?_ ?_ <;> [unfold x; ((try clear_value x); intro _)])
       | clear_value x
       | skip)
    | with_reducible apply State.setHc_kept
    | with_reducible apply State.freeBilletOf_kept
    | with_reducible apply Kept.foldlFields
    | exact Reg.fields_listed _ _ (by assumption)
    | with_reducible apply Kept.foldl
    | with_reducible apply Kept.foldlP
    | with_reducible apply Kept.ite
    | split

theorem State.repairEnd_kept {s : State} (h0 : s.Kept q) (a1) (a2) : (State.repairEnd s a1 a2).Kept q := by
  unfold State.repairEnd
  repeat' first
    | with_reducible assumption
    | ((with_reducible show Fld.listed _ = true); rfl)
    | (fail_if_no_progress (extract_lets +onlyGivenNames x)
       first
       | (refine Kept.cut (q := q) (x := x) ?_ ?_ <;> [unfold x; ((try clear_value x); intro _)])
       | clear_value x
       | skip)
    | with_reducible apply State.event_kept
    | with_reducible apply State.wr_kept
    | with_reducible apply State.put_kept
    | with_reducible apply State.perfCh_kept
    | with_reducible apply State.bump_kept
    | with_reducible apply State.retireRow_kept
    | with_reducible apply Kept.ite
    | split
    | fail_if_no_progress (with_reducible apply Kept.upd)

theorem State.softEnd_kept {s : State} (h0 : s.Kept q) (a1) (a2) : (State.softEnd s a1 a2).Kept q := by
  unfold State.softEnd
  repeat' first
    | with_reducible assumption
    | with_reducible apply State.journalAdd_kept
    | with_reducible apply State.repairEnd_kept

theorem execRepairNoWindow_kept {s : State} (h0 : s.Kept q) : KeptN q (execRepairNoWindow s) := by
  unfold execRepairNoWindow
  repeat' first
    | with_reducible intro _
    | with_reducible assumption
    | with_reducible apply State.softEnd_kept
    | with_reducible apply KeptN.next
    | with_reducible apply Kept.ite
    | with_reducible apply Kept.iteP
    | split

theorem execHardRepairDone_kept (a0) {s : State} (h0 : s.Kept q) : KeptN q (execHardRepairDone a0 s) := by
  unfold execHardRepairDone
  repeat' first
    | with_reducible intro _
    | with_reducible assumption
    | with_reducible apply State.repairEnd_kept
    | with_reducible apply KeptN.next
    | with_reducible apply Kept.ite
    | with_reducible apply Kept.iteP
    | split

theorem State.holdCfgWrite_kept {s : State} (h0 : s.Kept q) (a1) : (State.holdCfgWrite s a1).1.Kept q := by
  unfold State.holdCfgWrite
  repeat' first
    | with_reducible assumption
    | ((with_reducible show Fld.listed _ = true); rfl)
    | (fail_if_no_progress (extract_lets +onlyGivenNames x)
       first
       | (refine Kept.cut (q := q) (x := x) ?_ ?_ <;> [unfold x; ((try clear_value x); intro _)])
       | (refine Kept.cutP (q := q) (x := x) ?_ ?_ <;> [unfold x; ((try clear_value x); intro _)])
       | clear_value x
       | skip)
    | with_reducible apply State.wr_kept
    | with_reducible apply State.commit_kept
    | with_reducible apply State.holdUpdate_kept
    | with_reducible apply Kept.ite
    | with_reducible apply Kept.iteP
    | split

theorem State.holdNeedWrite_kept {s : State} (h0 : s.Kept q) (a1) : (State.holdNeedWrite s a1).1.Kept q := by
  unfold State.holdNeedWrite
  repeat' first
    | with_reducible assumption
    | ((with_reducible show Fld.listed _ = true); rfl)
    | with_reducible apply State.holdUpdate_kept
    | with_reducible apply State.wr_kept

theorem State.holdWrite_kept {s : State} (h0 : s.Kept q) (a1) (a2) : KeptOP q (State.holdWrite s a1 a2) := by
  unfold State.holdWrite
  repeat' first
    | with_reducible intro _
    | with_reducible assumption
    | with_reducible apply State.holdCfgWrite_kept
    | with_reducible apply State.holdNeedWrite_kept
    | with_reducible apply State.pprWrite_kept
    | with_reducible apply KeptOP.none
    | with_reducible apply KeptOP.some
    | split
    | (refine Kept.getP ?_ (by assumption) <;> with_reducible apply State.holdCfgWrite_kept)
    | (refine Kept.getP ?_ (by assumption) <;> with_reducible apply State.holdNeedWrite_kept)
    | (refine Kept.getP ?_ (by assumption) <;> with_reducible apply State.pprWrite_kept)

end Sys2Proof.Machine
end

