-- ==== Sys2Proof/Laws/KeptCrypto.lean ====
section
/-!
SUPPORT. Every operation of Machine/Crypto.lean keeps the stores canonical and the queue as it stands.
-/

set_option linter.unusedVariables false
set_option linter.unusedTactic false
set_option linter.unreachableTactic false
set_option linter.unnecessarySeqFocus false

namespace Sys2Proof.Machine

variable {q : List Instr}

theorem State.setTxSeq_kept {s : State} (h0 : s.Kept q) (a1) (a2) : (State.setTxSeq s a1 a2).Kept q := by
  unfold State.setTxSeq
  repeat' first
    | with_reducible assumption
    | ((with_reducible show Fld.listed _ = true); rfl)
    | with_reducible apply State.tvWrite_kept
    | with_reducible apply State.wr_kept

theorem State.setRxD_kept {s : State} (h0 : s.Kept q) (a1) (a2) : (State.setRxD s a1 a2).Kept q := by
  unfold State.setRxD
  repeat' first
    | with_reducible assumption
    | ((with_reducible show Fld.listed _ = true); rfl)
    | with_reducible apply State.tvWrite_kept
    | with_reducible apply State.wr_kept

theorem State.setRxH_kept {s : State} (h0 : s.Kept q) (a1) (a2) : (State.setRxH s a1 a2).Kept q := by
  unfold State.setRxH
  repeat' first
    | with_reducible assumption
    | ((with_reducible show Fld.listed _ = true); rfl)
    | with_reducible apply State.tvWrite_kept
    | with_reducible apply State.wr_kept

theorem State.slotRead_kept {s : State} (h0 : s.Kept q) (a1) : (State.slotRead s a1).1.Kept q := by
  unfold State.slotRead
  repeat' first
    | with_reducible intro _
    | with_reducible assumption
    | (fail_if_no_progress (extract_lets +onlyGivenNames x)
       first
       | (refine Kept.cutP (q := q) (x := x) ?_ ?_ <;> [unfold x; ((try clear_value x); intro _)])
       | clear_value x
       | skip)
    | with_reducible apply State.memReadL_kept
    | with_reducible apply State.setMarkOn_kept
    | with_reducible apply State.st_kept
    | with_reducible apply Kept.foldlFields
    | exact Reg.fields_listed _ _ (by assumption)
    | with_reducible apply Kept.foldl
    | with_reducible apply Kept.foldlP
    | split
    | (refine Kept.getP ?_ (by assumption) <;> with_reducible apply State.memReadL_kept)

theorem State.slotWrote_kept {s : State} (h0 : s.Kept q) (a1) : (State.slotWrote s a1).Kept q := by
  unfold State.slotWrote
  repeat' first
    | with_reducible assumption
    | with_reducible apply State.spanWrite_kept

theorem State.setDesc_kept {s : State} (h0 : s.Kept q) (a1) (a2) (a3) (a4) (a5) : (State.setDesc s a1 a2 a3 a4 a5).Kept q := by
  unfold State.setDesc
  repeat' first
    | with_reducible assumption
    | ((with_reducible show Fld.listed _ = true); rfl)
    | with_reducible apply State.tvWrite_kept
    | with_reducible apply State.wr_kept

theorem State.slotWipe_kept {s : State} (h0 : s.Kept q) (a1) : (State.slotWipe s a1).Kept q := by
  unfold State.slotWipe
  repeat' first
    | with_reducible assumption
    | (fail_if_no_progress (extract_lets +onlyGivenNames x)
       first
       | (refine Kept.cut (q := q) (x := x) ?_ ?_ <;> [unfold x; ((try clear_value x); intro _)])
       | clear_value x
       | skip)
    | with_reducible apply State.setDesc_kept
    | with_reducible apply State.slotWrote_kept
    | with_reducible apply State.clearMem_kept
    | fail_if_no_progress (with_reducible apply Kept.upd)

theorem State.trackVal_kept {s : State} (h0 : s.Kept q) {f1 : Fld} (hf1 : f1.listed = true) {f2 : Fld} (hf2 : f2.listed = true) (a3) (a4) : (State.trackVal s f1 f2 a3 a4).Kept q := by
  unfold State.trackVal
  repeat' first
    | with_reducible assumption
    | ((with_reducible show Fld.listed _ = true); rfl)
    | with_reducible apply State.event_kept
    | with_reducible apply State.wr_kept
    | with_reducible apply Kept.ite
    | split

theorem State.pauseEnd_kept {s : State} (h0 : s.Kept q) (a1) : (State.pauseEnd s a1).Kept q := by
  unfold State.pauseEnd
  repeat' first
    | with_reducible assumption
    | (fail_if_no_progress (extract_lets +onlyGivenNames x)
       first
       | clear_value x
       | skip)
    | with_reducible apply State.emit_kept
    | with_reducible apply State.setTtx_kept
    | with_reducible apply Kept.ite
    | split

theorem State.pauseCheck_kept {s : State} (h0 : s.Kept q) (a1) : (State.pauseCheck s a1).Kept q := by
  unfold State.pauseCheck
  repeat' first
    | with_reducible assumption
    | (fail_if_no_progress (extract_lets +onlyGivenNames x)
       first
       | clear_value x
       | skip)
    | with_reducible apply State.emit_kept
    | with_reducible apply State.setTtx_kept
    | with_reducible apply State.pauseEnd_kept
    | with_reducible apply Kept.ite
    | split

theorem State.txBlock_kept {s : State} (h0 : s.Kept q) (a1) : (State.txBlock s a1).Kept q := by
  unfold State.txBlock
  repeat' first
    | with_reducible assumption
    | ((with_reducible show Fld.listed _ = true); rfl)
    | (fail_if_no_progress (extract_lets +onlyGivenNames x)
       first
       | (refine Kept.cut (q := q) (x := x) ?_ ?_ <;> [unfold x; ((try clear_value x); intro _)])
       | clear_value x
       | skip)
    | with_reducible apply State.pauseCheck_kept
    | with_reducible apply State.setTtx_kept
    | with_reducible apply State.perfTun_kept
    | with_reducible apply State.bump_kept
    | with_reducible apply Kept.ite
    | split

theorem State.bundlesBlocked_kept {s : State} (h0 : s.Kept q) (a1) (a2) : (State.bundlesBlocked s a1 a2).Kept q := by
  unfold State.bundlesBlocked
  repeat' first
    | with_reducible assumption
    | ((with_reducible show Fld.listed _ = true); rfl)
    | with_reducible apply State.perfTun_kept
    | with_reducible apply State.bump_kept
    | with_reducible apply Kept.ite
    | split

theorem State.rxBlock_kept {s : State} (h0 : s.Kept q) (a1) : (State.rxBlock s a1).Kept q := by
  unfold State.rxBlock
  repeat' first
    | with_reducible assumption
    | (fail_if_no_progress (extract_lets +onlyGivenNames x)
       first
       | (refine Kept.cut (q := q) (x := x) ?_ ?_ <;> [unfold x; ((try clear_value x); intro _)])
       | clear_value x
       | skip)
    | with_reducible apply State.setProt_kept
    | with_reducible apply State.bundlesBlocked_kept
    | with_reducible apply State.holdRelease_kept
    | with_reducible apply State.dropReads_kept

theorem State.tunState_kept {s : State} (h0 : s.Kept q) (a1) : (State.tunState s a1).Kept q := by
  unfold State.tunState
  repeat' first
    | with_reducible assumption
    | ((with_reducible show Fld.listed _ = true); rfl)
    | (fail_if_no_progress (extract_lets +onlyGivenNames x)
       first
       | (refine Kept.cut (q := q) (x := x) ?_ ?_ <;> [unfold x; ((try clear_value x); intro _)])
       | clear_value x
       | skip)
    | with_reducible apply State.txBlock_kept
    | with_reducible apply State.rxBlock_kept
    | with_reducible apply State.trackVal_kept
    | with_reducible apply State.wr_kept
    | with_reducible apply Kept.ite
    | split

theorem State.slotZero_kept {s : State} (h0 : s.Kept q) (a1) : (State.slotZero s a1).Kept q := by
  unfold State.slotZero
  repeat' first
    | with_reducible assumption
    | (fail_if_no_progress (extract_lets +onlyGivenNames x)
       first
       | (refine Kept.cut (q := q) (x := x) ?_ ?_ <;> [unfold x; ((try clear_value x); intro _)])
       | clear_value x
       | skip)
    | with_reducible apply State.slotWipe_kept
    | with_reducible apply State.tunState_kept
    | with_reducible apply Kept.ite
    | split

theorem State.slotTake_kept {s : State} (h0 : s.Kept q) (a1) : (State.slotTake s a1).1.Kept q := by
  unfold State.slotTake
  repeat' first
    | with_reducible assumption
    | (fail_if_no_progress (extract_lets +onlyGivenNames x)
       first
       | (refine Kept.cutP (q := q) (x := x) ?_ ?_ <;> [unfold x; ((try clear_value x); intro _)])
       | clear_value x
       | skip)
    | with_reducible apply State.slotRead_kept
    | with_reducible apply State.errorLines_kept
    | with_reducible apply State.slotZero_kept
    | with_reducible apply Kept.ite
    | with_reducible apply Kept.iteP
    | split

theorem State.slotTakeUpset_kept {s : State} (h0 : s.Kept q) (a1) (a2) : (State.slotTakeUpset s a1 a2).1.Kept q := by
  unfold State.slotTakeUpset
  repeat' first
    | with_reducible assumption
    | with_reducible apply State.slotTake_kept
    | with_reducible apply State.setMark_kept
    | with_reducible apply Kept.ite
    | with_reducible apply Kept.iteP
    | split

theorem State.slotsZero_kept {s : State} (h0 : s.Kept q) (a1) (a2) : (State.slotsZero s a1 a2).Kept q := by
  unfold State.slotsZero
  repeat' first
    | with_reducible intro _
    | with_reducible assumption
    | with_reducible apply State.slotZero_kept
    | with_reducible apply Kept.foldlFields
    | exact Reg.fields_listed _ _ (by assumption)
    | with_reducible apply Kept.foldl
    | with_reducible apply Kept.foldlP

theorem State.keyPromote_kept {s : State} (h0 : s.Kept q) (a1) (a2) : (State.keyPromote s a1 a2).Kept q := by
  unfold State.keyPromote
  repeat' first
    | with_reducible intro _
    | with_reducible assumption
    | (fail_if_no_progress (extract_lets +onlyGivenNames x)
       first
       | (refine Kept.cut (q := q) (x := x) ?_ ?_ <;> [unfold x; ((try clear_value x); intro _)])
       | clear_value x
       | skip)
    | with_reducible apply State.slotWipe_kept
    | with_reducible apply State.setDesc_kept
    | with_reducible apply State.tunState_kept
    | split

theorem State.stageClear_kept {s : State} (h0 : s.Kept q) : (State.stageClear s).Kept q := by
  unfold State.stageClear
  repeat' first
    | with_reducible intro _
    | with_reducible assumption
    | ((with_reducible show Fld.listed _ = true); rfl)
    | with_reducible apply State.wr_kept
    | with_reducible apply Kept.foldlFields
    | exact Reg.fields_listed _ _ (by assumption)
    | with_reducible apply Kept.foldl
    | with_reducible apply Kept.foldlP

theorem State.keysZero_kept {s : State} (h0 : s.Kept q) : (State.keysZero s).Kept q := by
  unfold State.keysZero
  repeat' first
    | with_reducible intro _
    | with_reducible assumption
    | (fail_if_no_progress (extract_lets +onlyGivenNames x)
       first
       | (refine Kept.cut (q := q) (x := x) ?_ ?_ <;> [unfold x; ((try clear_value x); intro _)])
       | clear_value x
       | skip)
    | with_reducible apply State.stageClear_kept
    | with_reducible apply State.slotWipe_kept
    | with_reducible apply State.tunState_kept
    | with_reducible apply Kept.foldlFields
    | exact Reg.fields_listed _ _ (by assumption)
    | with_reducible apply Kept.foldl
    | with_reducible apply Kept.foldlP

theorem State.voteKey_kept {s : State} (h0 : s.Kept q) (a1) : (State.voteKey s a1).Kept q := by
  unfold State.voteKey
  repeat' first
    | with_reducible intro _
    | with_reducible assumption
    | with_reducible apply State.tvVote_kept
    | with_reducible apply State.slotZero_kept
    | with_reducible apply Kept.id

theorem State.voteTx_kept {s : State} (h0 : s.Kept q) (a1) : (State.voteTx s a1).Kept q := by
  unfold State.voteTx
  repeat' first
    | with_reducible intro _
    | with_reducible assumption
    | (fail_if_no_progress (extract_lets +onlyGivenNames x)
       first
       | clear_value x
       | skip)
    | with_reducible apply State.tvVote_kept
    | with_reducible apply State.setTtx_kept
    | with_reducible apply State.slotsZero_kept
    | with_reducible apply Kept.id

theorem State.resync_kept {s : State} (h0 : s.Kept q) (a1) : (State.resync s a1).Kept q := by
  unfold State.resync
  repeat' first
    | with_reducible assumption
    | ((with_reducible show Fld.listed _ = true); rfl)
    | with_reducible apply State.tunState_kept
    | with_reducible apply State.event_kept
    | with_reducible apply State.put_kept

theorem State.voteRx_kept {s : State} (h0 : s.Kept q) (a1) : (State.voteRx s a1).Kept q := by
  unfold State.voteRx
  repeat' first
    | with_reducible intro _
    | with_reducible assumption
    | with_reducible apply State.tvVote_kept
    | with_reducible apply State.resync_kept
    | with_reducible apply Kept.id

theorem State.voteSlots_kept {s : State} (h0 : s.Kept q) (a1) (a2) : (State.voteSlots s a1 a2).Kept q := by
  unfold State.voteSlots
  repeat' first
    | with_reducible intro _
    | with_reducible assumption
    | with_reducible apply State.voteKey_kept
    | with_reducible apply Kept.foldlFields
    | exact Reg.fields_listed _ _ (by assumption)
    | with_reducible apply Kept.foldl
    | with_reducible apply Kept.foldlP

theorem State.voteTun_kept {s : State} (h0 : s.Kept q) (a1) : (State.voteTun s a1).Kept q := by
  unfold State.voteTun
  repeat' first
    | with_reducible assumption
    | with_reducible apply State.voteSlots_kept
    | with_reducible apply State.voteRx_kept
    | with_reducible apply State.voteTx_kept

theorem State.keyUse_kept {s : State} (h0 : s.Kept q) (a1) (a2) : (State.keyUse s a1 a2).Kept q := by
  unfold State.keyUse
  repeat' first
    | with_reducible assumption
    | ((with_reducible show Fld.listed _ = true); rfl)
    | (fail_if_no_progress (extract_lets +onlyGivenNames x)
       first
       | (refine Kept.cut (q := q) (x := x) ?_ ?_ <;> [unfold x; ((try clear_value x); intro _)])
       | clear_value x
       | skip)
    | with_reducible apply State.eventIf_kept
    | with_reducible apply State.slotZero_kept
    | with_reducible apply State.tunState_kept
    | with_reducible apply Kept.ite
    | split
    | fail_if_no_progress (with_reducible apply Kept.upd)

theorem State.keyLimitWrite_kept {s : State} (h0 : s.Kept q) (a1) : (State.keyLimitWrite s a1).Kept q := by
  unfold State.keyLimitWrite
  repeat' first
    | with_reducible intro _
    | with_reducible assumption
    | ((with_reducible show Fld.listed _ = true); rfl)
    | (fail_if_no_progress (extract_lets +onlyGivenNames x)
       first
       | (refine Kept.cut (q := q) (x := x) ?_ ?_ <;> [unfold x; ((try clear_value x); intro _)])
       | clear_value x
       | skip)
    | with_reducible apply State.eventIf_kept
    | with_reducible apply State.slotZero_kept
    | with_reducible apply State.wr_kept
    | with_reducible apply Kept.foldlFields
    | exact Reg.fields_listed _ _ (by assumption)
    | with_reducible apply Kept.foldl
    | with_reducible apply Kept.foldlP
    | with_reducible apply Kept.ite
    | split

theorem State.sendCtrl_kept {s : State} (h0 : s.Kept q) (a1) (a2) (a3) (a4) : (State.sendCtrl s a1 a2 a3 a4).Kept q := by
  unfold State.sendCtrl
  repeat' first
    | with_reducible intro _
    | with_reducible assumption
    | (fail_if_no_progress (extract_lets +onlyGivenNames x)
       first
       | (refine Kept.cut (q := q) (x := x) ?_ ?_ <;> [unfold x; ((try clear_value x); intro _)])
       | (refine Kept.cutP (q := q) (x := x) ?_ ?_ <;> [unfold x; ((try clear_value x); intro _)])
       | clear_value x
       | skip)
    | with_reducible apply State.unlessReset_kept
    | with_reducible apply State.voteSlots_kept
    | with_reducible apply State.slotTake_kept
    | with_reducible apply State.setTtx_kept
    | with_reducible apply State.keyUse_kept
    | with_reducible apply State.setProt_kept
    | with_reducible apply Kept.ite
    | with_reducible apply Kept.iteP
    | split
    | (refine Kept.getP ?_ (by assumption) <;> with_reducible apply State.slotTake_kept)
    | with_reducible apply Kept.id

theorem State.sendGap_kept {s : State} (h0 : s.Kept q) (a1) (a2) (a3) (a4) : (State.sendGap s a1 a2 a3 a4).Kept q := by
  unfold State.sendGap
  repeat' first
    | with_reducible assumption
    | with_reducible apply State.sendCtrl_kept

theorem State.tallyGap_kept {s : State} (h0 : s.Kept q) (a1) : (State.tallyGap s a1).Kept q := by
  unfold State.tallyGap
  repeat' first
    | with_reducible assumption
    | (fail_if_no_progress (extract_lets +onlyGivenNames x)
       first
       | clear_value x
       | skip)
    | with_reducible apply State.sendGap_kept
    | with_reducible apply State.setTtx_kept
    | with_reducible apply Kept.ite
    | split

theorem State.keyStore_kept {s : State} (h0 : s.Kept q) (a1) (a2) (a3) : (State.keyStore s a1 a2 a3).Kept q := by
  unfold State.keyStore
  repeat' first
    | with_reducible assumption
    | with_reducible apply State.slotWrote_kept
    | with_reducible apply State.st_kept
    | with_reducible apply State.stRun_kept

theorem State.rekeyed_kept {s : State} (h0 : s.Kept q) (a1) (a2) : (State.rekeyed s a1 a2).Kept q := by
  unfold State.rekeyed
  repeat' first
    | with_reducible assumption
    | ((with_reducible show Fld.listed _ = true); rfl)
    | (fail_if_no_progress (extract_lets +onlyGivenNames x)
       first
       | (refine Kept.cut (q := q) (x := x) ?_ ?_ <;> [unfold x; ((try clear_value x); intro _)])
       | clear_value x
       | skip)
    | with_reducible apply State.setTtx_kept
    | with_reducible apply State.setProt_kept
    | with_reducible apply State.tallyGap_kept
    | with_reducible apply State.setTxSeq_kept
    | with_reducible apply State.holdRelease_kept
    | with_reducible apply State.dropReads_kept
    | with_reducible apply State.setTrx_kept
    | with_reducible apply State.setRxH_kept
    | with_reducible apply State.setRxD_kept
    | with_reducible apply State.put_kept
    | with_reducible apply Kept.ite
    | split

theorem State.loadTunnelKey_kept {s : State} (h0 : s.Kept q) (a1) (a2) : (State.loadTunnelKey s a1 a2).1.Kept q := by
  unfold State.loadTunnelKey
  repeat' first
    | with_reducible assumption
    | (fail_if_no_progress (extract_lets +onlyGivenNames x)
       first
       | (refine Kept.cut (q := q) (x := x) ?_ ?_ <;> [unfold x; ((try clear_value x); intro _)])
       | clear_value x
       | skip)
    | with_reducible apply State.voteSlots_kept
    | with_reducible apply State.setDesc_kept
    | with_reducible apply State.keyStore_kept
    | with_reducible apply State.tunState_kept
    | with_reducible apply State.rekeyed_kept
    | with_reducible apply Kept.ite
    | with_reducible apply Kept.iteP
    | split

theorem State.loadKek_kept {s : State} (h0 : s.Kept q) (a1) (a2) : (State.loadKek s a1 a2).1.Kept q := by
  unfold State.loadKek
  repeat' first
    | with_reducible assumption
    | with_reducible apply State.setDesc_kept
    | with_reducible apply State.keyStore_kept
    | with_reducible apply Kept.ite
    | with_reducible apply Kept.iteP
    | split

theorem State.keyLoad_kept {s : State} (h0 : s.Kept q) (a1) : (State.keyLoad s a1).1.Kept q := by
  unfold State.keyLoad
  repeat' first
    | with_reducible intro _
    | with_reducible assumption
    | (fail_if_no_progress (extract_lets +onlyGivenNames x)
       first
       | (refine Kept.cut (q := q) (x := x) ?_ ?_ <;> [unfold x; ((try clear_value x); intro _)])
       | (refine Kept.cutP (q := q) (x := x) ?_ ?_ <;> [unfold x; ((try clear_value x); intro _)])
       | clear_value x
       | skip)
    | with_reducible apply State.voteKey_kept
    | with_reducible apply State.setDesc_kept
    | with_reducible apply State.keyStore_kept
    | with_reducible apply State.slotTake_kept
    | with_reducible apply State.loadTunnelKey_kept
    | with_reducible apply State.loadKek_kept
    | with_reducible apply Kept.ite
    | with_reducible apply Kept.iteP
    | split
    | (refine Kept.getP ?_ (by assumption) <;> with_reducible apply State.slotTake_kept)
    | (refine Kept.getP ?_ (by assumption) <;> with_reducible apply State.loadTunnelKey_kept)
    | (refine Kept.getP ?_ (by assumption) <;> with_reducible apply State.loadKek_kept)

theorem State.keyLoadWrite_kept {s : State} (h0 : s.Kept q) (a1) : (State.keyLoadWrite s a1).1.Kept q := by
  unfold State.keyLoadWrite
  repeat' first
    | with_reducible intro _
    | with_reducible assumption
    | ((with_reducible show Fld.listed _ = true); rfl)
    | (fail_if_no_progress (extract_lets +onlyGivenNames x)
       first
       | (refine Kept.cutP (q := q) (x := x) ?_ ?_ <;> [unfold x; ((try clear_value x); intro _)])
       | clear_value x
       | skip)
    | with_reducible apply State.keyLoad_kept
    | with_reducible apply State.unlessReset_kept
    | with_reducible apply State.wr_kept
    | with_reducible apply State.stageClear_kept
    | with_reducible apply Kept.id

theorem State.pipePass_kept {s : State} (h0 : s.Kept q) (a1) (a2) : (State.pipePass s a1 a2).Kept q := by
  unfold State.pipePass
  repeat' first
    | with_reducible assumption
    | ((with_reducible show Fld.listed _ = true); rfl)
    | (fail_if_no_progress (extract_lets +onlyGivenNames x)
       first
       | (refine Kept.cutFld (x := x) ?_ ?_ <;> [unfold x; ((try clear_value x); intro _)])
       | clear_value x
       | skip)
    | with_reducible apply pipeMap_listed
    | with_reducible apply State.wr_kept
    | with_reducible apply Kept.ite
    | split

theorem State.pipeExclude_kept {s : State} (h0 : s.Kept q) (a1) (a2) : (State.pipeExclude s a1 a2).Kept q := by
  unfold State.pipeExclude
  repeat' first
    | with_reducible assumption
    | ((with_reducible show Fld.listed _ = true); rfl)
    | with_reducible apply pipeFailMap_listed
    | with_reducible apply State.wr_kept

theorem State.rerun_kept {s : State} (h0 : s.Kept q) (a1) (a2) : (State.rerun s a1 a2).Kept q := by
  unfold State.rerun
  repeat' first
    | with_reducible intro _
    | with_reducible assumption
    | (fail_if_no_progress (extract_lets +onlyGivenNames x)
       first
       | clear_value x
       | skip)
    | with_reducible apply State.setTtx_kept
    | with_reducible apply Kept.foldlFields
    | exact Reg.fields_listed _ _ (by assumption)
    | with_reducible apply Kept.foldl
    | with_reducible apply Kept.foldlP
    | with_reducible apply Kept.ite
    | split

theorem State.pipeLines_kept {s : State} (h0 : s.Kept q) (a1) (a2) (a3) : (State.pipeLines s a1 a2 a3).1.Kept q := by
  unfold State.pipeLines
  repeat' first
    | with_reducible intro _
    | with_reducible assumption
    | ((with_reducible show Fld.listed _ = true); rfl)
    | (fail_if_no_progress (extract_lets +onlyGivenNames x)
       first
       | (refine Kept.cut (q := q) (x := x) ?_ ?_ <;> [unfold x; ((try clear_value x); intro _)])
       | clear_value x
       | skip)
    | with_reducible apply pipeMap_listed
    | with_reducible apply pipeFailMap_listed
    | with_reducible apply State.pipeExclude_kept
    | with_reducible apply State.dataPath_kept
    | with_reducible apply State.wr_kept
    | with_reducible apply State.rerun_kept
    | with_reducible apply State.journalAdd_kept
    | with_reducible apply State.faultNote_kept
    | with_reducible apply State.irq_kept
    | with_reducible apply Kept.ite
    | with_reducible apply Kept.iteP
    | split

theorem State.pipeFail_kept {s : State} (h0 : s.Kept q) (a1) (a2) (a3) : (State.pipeFail s a1 a2 a3).Kept q := by
  unfold State.pipeFail
  repeat' first
    | with_reducible assumption
    | (fail_if_no_progress (extract_lets +onlyGivenNames x)
       first
       | (refine Kept.cutP (q := q) (x := x) ?_ ?_ <;> [unfold x; ((try clear_value x); intro _)])
       | clear_value x
       | skip)
    | with_reducible apply State.pipeLines_kept
    | with_reducible apply State.errorLines_kept

end Sys2Proof.Machine
end

