-- ==== Sys2Proof/Laws/KeptPlace.lean ====
section
/-!
SUPPORT. Every operation of Machine/Place.lean keeps the stores canonical and the queue as it stands.
-/

set_option linter.unusedVariables false
set_option linter.unusedTactic false
set_option linter.unreachableTactic false
set_option linter.unnecessarySeqFocus false

namespace Sys2Proof.Machine

variable {q : List Instr}

theorem State.queueOn_kept {s : State} (h0 : s.Kept q) (a1) (a2) : (State.queueOn s a1 a2).Kept q := by
  unfold State.queueOn
  repeat' first
    | with_reducible assumption
    | (fail_if_no_progress (extract_lets +onlyGivenNames x)
       first
       | (refine Kept.cut (q := q) (x := x) ?_ ?_ <;> [unfold x; ((try clear_value x); intro _)])
       | clear_value x
       | skip)
    | with_reducible apply State.dataPath_kept
    | with_reducible apply State.setPort_kept
    | with_reducible apply Kept.ite
    | split

theorem State.putOn_kept {s : State} (h0 : s.Kept q) (a1) (a2) : (State.putOn s a1 a2).Kept q := by
  unfold State.putOn
  repeat' first
    | with_reducible assumption
    | (fail_if_no_progress (extract_lets +onlyGivenNames x)
       first
       | (refine Kept.cut (q := q) (x := x) ?_ ?_ <;> [unfold x; ((try clear_value x); intro _)])
       | clear_value x
       | skip)
    | with_reducible apply State.queueOn_kept
    | with_reducible apply State.smokeCopy_kept
    | with_reducible apply State.emit_kept
    | with_reducible apply Kept.ite
    | split

theorem State.notePlaced_kept {s : State} (h0 : s.Kept q) (a1) (a2) (a3) : (State.notePlaced s a1 a2 a3).Kept q := by
  unfold State.notePlaced
  repeat' first
    | with_reducible assumption
    | with_reducible apply Kept.ite
    | split
    | fail_if_no_progress (with_reducible apply Kept.upd)

theorem State.place_kept {s : State} (h0 : s.Kept q) (a1) (a2) : (State.place s a1 a2).1.Kept q := by
  unfold State.place
  repeat' first
    | with_reducible intro _
    | with_reducible assumption
    | ((with_reducible show Fld.listed _ = true); rfl)
    | (fail_if_no_progress (extract_lets +onlyGivenNames x)
       first
       | (refine Kept.cut (q := q) (x := x) ?_ ?_ <;> [unfold x; ((try clear_value x); intro _)])
       | clear_value x
       | skip)
    | with_reducible apply State.putOn_kept
    | with_reducible apply State.bump_kept
    | with_reducible apply State.notePlaced_kept
    | with_reducible apply Kept.foldlFields
    | exact Reg.fields_listed _ _ (by assumption)
    | with_reducible apply Kept.foldl
    | with_reducible apply Kept.foldlP
    | with_reducible apply Kept.ite
    | with_reducible apply Kept.iteP
    | split

theorem State.drainEnd_kept {s : State} (h0 : s.Kept q) (a1) : (State.drainEnd s a1).Kept q := by
  unfold State.drainEnd
  repeat' first
    | with_reducible assumption
    | ((with_reducible show Fld.listed _ = true); rfl)
    | (fail_if_no_progress (extract_lets +onlyGivenNames x)
       first
       | clear_value x
       | skip)
    | with_reducible apply State.rideStatus_kept
    | with_reducible apply State.put_kept
    | with_reducible apply Kept.ite
    | split

theorem State.readCopy_kept {s : State} (h0 : s.Kept q) (a1) : (State.readCopy s a1).Kept q := by
  unfold State.readCopy
  repeat' first
    | with_reducible assumption
    | fail_if_no_progress (with_reducible apply Kept.upd)

theorem State.sendGaps_kept {s : State} (h0 : s.Kept q) (a1) (a2) (a3) : (State.sendGaps s a1 a2 a3).Kept q := by
  unfold State.sendGaps
  repeat' first
    | with_reducible intro _
    | with_reducible assumption
    | with_reducible apply State.sendGap_kept
    | with_reducible apply Kept.foldlFields
    | exact Reg.fields_listed _ _ (by assumption)
    | with_reducible apply Kept.foldl
    | with_reducible apply Kept.foldlP

theorem State.backlogDrop_kept {s : State} (h0 : s.Kept q) (a1) (a2) : (State.backlogDrop s a1 a2).Kept q := by
  unfold State.backlogDrop
  repeat' first
    | with_reducible assumption
    | (fail_if_no_progress (extract_lets +onlyGivenNames x)
       first
       | clear_value x
       | skip)
    | with_reducible apply State.setProt_kept

theorem State.rideLost_kept {s : State} (h0 : s.Kept q) (a1) (a2) (a3) : (State.rideLost s a1 a2 a3).Kept q := by
  unfold State.rideLost
  repeat' first
    | with_reducible assumption
    | (fail_if_no_progress (extract_lets +onlyGivenNames x)
       first
       | (refine Kept.cut (q := q) (x := x) ?_ ?_ <;> [unfold x; ((try clear_value x); intro _)])
       | clear_value x
       | skip)
    | with_reducible apply State.neededBy_kept
    | with_reducible apply State.backlogDrop_kept
    | with_reducible apply State.sendGaps_kept
    | with_reducible apply State.holdRelease_kept
    | fail_if_no_progress (with_reducible apply Kept.upd)

theorem State.drainNext_kept {s : State} (h0 : s.Kept q) (a1) : (State.drainNext s a1).Kept q := by
  unfold State.drainNext
  repeat' first
    | with_reducible intro _
    | with_reducible assumption
    | (fail_if_no_progress (extract_lets +onlyGivenNames x)
       first
       | (refine Kept.cut (q := q) (x := x) ?_ ?_ <;> [unfold x; ((try clear_value x); intro _)])
       | clear_value x
       | skip)
    | with_reducible apply State.rideLost_kept
    | with_reducible apply State.readCopy_kept
    | with_reducible apply State.drainEnd_kept
    | with_reducible apply State.setProt_kept
    | with_reducible apply Kept.ite
    | split

theorem State.rideRetry_kept {s : State} (h0 : s.Kept q) (a1) (a2) : (State.rideRetry s a1 a2).Kept q := by
  induction a2 generalizing s with
  | zero =>
    unfold State.rideRetry
    repeat' first
      | with_reducible intro _
      | with_reducible assumption
      | (fail_if_no_progress (extract_lets +onlyGivenNames x)
         first
         | clear_value x
         | skip)
      | with_reducible apply State.holdStore_kept
      | with_reducible apply State.setProt_kept
      | with_reducible apply KeptO.getD
      | with_reducible apply Kept.ite
      | split
      | (refine KeptO.get ?_ (by assumption) <;> with_reducible apply State.holdStore_kept)
      | (refine KeptO.get (KeptO.ite ?_ KeptO.none) (by assumption) <;> with_reducible apply State.holdStore_kept)
  | succ fuel ih =>
    unfold State.rideRetry
    repeat' first
      | with_reducible intro _
      | with_reducible assumption
      | (fail_if_no_progress (extract_lets +onlyGivenNames x)
         first
         | clear_value x
         | skip)
      | with_reducible apply ih
      | with_reducible apply State.holdStore_kept
      | with_reducible apply State.setProt_kept
      | with_reducible apply KeptO.getD
      | with_reducible apply Kept.ite
      | split
      | (refine KeptO.get ?_ (by assumption) <;> with_reducible apply State.holdStore_kept)
      | (refine KeptO.get (KeptO.ite ?_ KeptO.none) (by assumption) <;> with_reducible apply State.holdStore_kept)

theorem State.rideRetryAll_kept {s : State} (h0 : s.Kept q) : (State.rideRetryAll s).Kept q := by
  unfold State.rideRetryAll
  repeat' first
    | with_reducible intro _
    | with_reducible assumption
    | with_reducible apply State.rideRetry_kept
    | with_reducible apply State.mapsScan_kept
    | with_reducible apply Kept.foldlFields
    | exact Reg.fields_listed _ _ (by assumption)
    | with_reducible apply Kept.foldl
    | with_reducible apply Kept.foldlP
    | with_reducible apply Kept.ite
    | split

theorem State.placeNext_kept {s : State} (h0 : s.Kept q) (a1) : (State.placeNext s a1).Kept q := by
  unfold State.placeNext
  repeat' first
    | with_reducible intro _
    | with_reducible assumption
    | (fail_if_no_progress (extract_lets +onlyGivenNames x)
       first
       | (refine Kept.cutP (q := q) (x := x) ?_ ?_ <;> [unfold x; ((try clear_value x); intro _)])
       | clear_value x
       | skip)
    | with_reducible apply State.place_kept
    | with_reducible apply State.setProt_kept
    | with_reducible apply State.drainNext_kept
    | with_reducible apply Kept.ite
    | with_reducible apply Kept.iteP
    | split
    | (refine Kept.getP ?_ (by assumption) <;> with_reducible apply State.place_kept)

theorem execBundlePlace_kept (a0) {s : State} (h0 : s.Kept q) : KeptN q (execBundlePlace a0 s) := by
  unfold execBundlePlace
  repeat' first
    | with_reducible assumption
    | with_reducible apply State.placeNext_kept
    | with_reducible apply KeptN.next

theorem State.cordFilled_kept {s : State} (h0 : s.Kept q) (a1) : (State.cordFilled s a1).Kept q := by
  unfold State.cordFilled
  repeat' first
    | with_reducible intro _
    | with_reducible assumption
    | (fail_if_no_progress (extract_lets +onlyGivenNames x)
       first
       | clear_value x
       | skip)
    | with_reducible apply State.unlessReset_kept
    | with_reducible apply State.cordRead_kept
    | with_reducible apply State.setHc_kept
    | with_reducible apply State.spanWrite_kept
    | with_reducible apply Kept.ite
    | split
    | with_reducible apply Kept.id

theorem execCordFilled_kept (a0) {s : State} (h0 : s.Kept q) : KeptN q (execCordFilled a0 s) := by
  unfold execCordFilled
  repeat' first
    | with_reducible assumption
    | with_reducible apply State.rideRetryAll_kept
    | with_reducible apply State.holdUpdate_kept
    | with_reducible apply State.cordFilled_kept
    | with_reducible apply KeptN.next
    | with_reducible apply Kept.ite
    | with_reducible apply Kept.iteP
    | split

theorem State.rideCount_kept {s : State} (h0 : s.Kept q) (a1) : (State.rideCount s a1).Kept q := by
  unfold State.rideCount
  repeat' first
    | with_reducible assumption
    | (fail_if_no_progress (extract_lets +onlyGivenNames x)
       first
       | clear_value x
       | skip)
    | fail_if_no_progress (with_reducible apply Kept.upd)

theorem State.protTake_kept {s : State} (h0 : s.Kept q) (a1) (a2) : (State.protTake s a1 a2).Kept q := by
  unfold State.protTake
  repeat' first
    | with_reducible intro _
    | with_reducible assumption
    | (fail_if_no_progress (extract_lets +onlyGivenNames x)
       first
       | (refine Kept.cut (q := q) (x := x) ?_ ?_ <;> [unfold x; ((try clear_value x); intro _)])
       | clear_value x
       | skip)
    | with_reducible apply State.dataPath_kept
    | with_reducible apply State.mapsScan_kept
    | with_reducible apply State.holdStore_kept
    | with_reducible apply State.drainNext_kept
    | with_reducible apply State.rideCount_kept
    | with_reducible apply State.setProt_kept
    | with_reducible apply KeptO.getD
    | with_reducible apply Kept.ite
    | split
    | (refine KeptO.get ?_ (by assumption) <;> with_reducible apply State.holdStore_kept)
    | (refine KeptO.get (KeptO.ite ?_ KeptO.none) (by assumption) <;> with_reducible apply State.holdStore_kept)

theorem State.switchWrite_kept {s : State} (h0 : s.Kept q) (a1) : (State.switchWrite s a1).1.Kept q := by
  unfold State.switchWrite
  repeat' first
    | with_reducible assumption
    | ((with_reducible show Fld.listed _ = true); rfl)
    | (fail_if_no_progress (extract_lets +onlyGivenNames x)
       first
       | (refine Kept.cut (q := q) (x := x) ?_ ?_ <;> [unfold x; ((try clear_value x); intro _)])
       | clear_value x
       | skip)
    | with_reducible apply State.wr_kept
    | with_reducible apply State.put_kept
    | with_reducible apply Kept.ite
    | with_reducible apply Kept.iteP
    | split
    | fail_if_no_progress (with_reducible apply Kept.upd)

theorem execSwitchRequest_kept (a0) (a1) {s : State} (h0 : s.Kept q) : KeptN q (execSwitchRequest a0 a1 s) := by
  unfold execSwitchRequest
  repeat' first
    | with_reducible intro _
    | with_reducible assumption
    | with_reducible apply State.writing_kept
    | with_reducible apply State.switchWrite_kept
    | with_reducible apply KeptN.next
    | with_reducible apply Kept.id

theorem State.replay_kept {s : State} (h0 : s.Kept q) (a1) (a2) : (State.replay s a1 a2).Kept q := by
  unfold State.replay
  repeat' first
    | with_reducible intro _
    | with_reducible assumption
    | ((with_reducible show Fld.listed _ = true); rfl)
    | (fail_if_no_progress (extract_lets +onlyGivenNames x)
       first
       | (refine Kept.cut (q := q) (x := x) ?_ ?_ <;> [unfold x; ((try clear_value x); intro _)])
       | clear_value x
       | skip)
    | with_reducible apply State.setProt_kept
    | with_reducible apply State.perfCh_kept
    | with_reducible apply State.perfTun_kept
    | with_reducible apply State.bump_kept
    | with_reducible apply Kept.foldlFields
    | exact Reg.fields_listed _ _ (by assumption)
    | with_reducible apply Kept.foldl
    | with_reducible apply Kept.foldlP
    | with_reducible apply Kept.ite
    | split

theorem State.switchNow_kept {s : State} (h0 : s.Kept q) (a1) (a2) : (State.switchNow s a1 a2).Kept q := by
  unfold State.switchNow
  repeat' first
    | with_reducible intro _
    | with_reducible assumption
    | ((with_reducible show Fld.listed _ = true); rfl)
    | (fail_if_no_progress (extract_lets +onlyGivenNames x)
       first
       | (refine Kept.cut (q := q) (x := x) ?_ ?_ <;> [unfold x; ((try clear_value x); intro _)])
       | clear_value x
       | skip)
    | with_reducible apply State.wr_kept
    | with_reducible apply State.put_kept
    | with_reducible apply State.event_kept
    | with_reducible apply State.replay_kept
    | with_reducible apply Kept.foldlFields
    | exact Reg.fields_listed _ _ (by assumption)
    | with_reducible apply Kept.foldl
    | with_reducible apply Kept.foldlP
    | with_reducible apply Kept.ite
    | split
    | fail_if_no_progress (with_reducible apply Kept.upd)

theorem State.switchTry_kept {s : State} (h0 : s.Kept q) : (State.switchTry s).Kept q := by
  unfold State.switchTry
  repeat' first
    | with_reducible intro _
    | with_reducible assumption
    | with_reducible apply State.switchNow_kept
    | with_reducible apply Kept.ite
    | split

theorem execSwitchEffective_kept {s : State} (h0 : s.Kept q) : KeptN q (execSwitchEffective s) := by
  unfold execSwitchEffective
  repeat' first
    | with_reducible assumption
    | with_reducible apply State.switchTry_kept
    | with_reducible apply KeptN.next

theorem execSwitchReadyTimeout_kept {s : State} (h0 : s.Kept q) : KeptN q (execSwitchReadyTimeout s) := by
  unfold execSwitchReadyTimeout
  repeat' first
    | with_reducible assumption
    | with_reducible apply State.switchTry_kept
    | with_reducible apply KeptN.next

theorem State.drainStart_kept {s : State} (h0 : s.Kept q) (a1) : (State.drainStart s a1).Kept q := by
  unfold State.drainStart
  repeat' first
    | with_reducible assumption
    | ((with_reducible show Fld.listed _ = true); rfl)
    | (fail_if_no_progress (extract_lets +onlyGivenNames x)
       first
       | clear_value x
       | skip)
    | with_reducible apply State.drainNext_kept
    | with_reducible apply State.event_kept
    | with_reducible apply State.rideStatus_kept
    | with_reducible apply State.put_kept
    | with_reducible apply State.setProt_kept
    | with_reducible apply Kept.ite
    | split

theorem execDrainStart_kept (a0) {s : State} (h0 : s.Kept q) : KeptN q (execDrainStart a0 s) := by
  unfold execDrainStart
  repeat' first
    | with_reducible assumption
    | with_reducible apply State.drainStart_kept
    | with_reducible apply KeptN.next
    | with_reducible apply Kept.ite
    | with_reducible apply Kept.iteP
    | split

theorem State.protCtlWrite_kept {s : State} (h0 : s.Kept q) (a1) : (State.protCtlWrite s a1).1.Kept q := by
  unfold State.protCtlWrite
  repeat' first
    | with_reducible intro _
    | with_reducible assumption
    | (fail_if_no_progress (extract_lets +onlyGivenNames x)
       first
       | clear_value x
       | skip)
    | with_reducible apply State.rideEnter_kept
    | with_reducible apply State.drainStart_kept
    | with_reducible apply Kept.foldlFields
    | exact Reg.fields_listed _ _ (by assumption)
    | with_reducible apply Kept.foldl
    | with_reducible apply Kept.foldlP
    | with_reducible apply Kept.ite
    | with_reducible apply Kept.iteP
    | split

theorem execRideCmd_kept (a0) {s : State} (h0 : s.Kept q) : KeptN q (execRideCmd a0 s) := by
  unfold execRideCmd
  repeat' first
    | with_reducible intro _
    | with_reducible assumption
    | with_reducible apply State.writing_kept
    | with_reducible apply State.protCtlWrite_kept
    | with_reducible apply KeptN.next
    | with_reducible apply Kept.id

theorem execEndRide_kept (a0) {s : State} (h0 : s.Kept q) : KeptN q (execEndRide a0 s) := by
  unfold execEndRide
  repeat' first
    | with_reducible intro _
    | with_reducible assumption
    | with_reducible apply State.writing_kept
    | with_reducible apply State.protCtlWrite_kept
    | with_reducible apply KeptN.next
    | with_reducible apply Kept.id

theorem execDrainStall_kept (a0) {s : State} (h0 : s.Kept q) : KeptN q (execDrainStall a0 s) := by
  unfold execDrainStall
  repeat' first
    | with_reducible assumption
    | ((with_reducible show Fld.listed _ = true); rfl)
    | with_reducible apply State.event_kept
    | with_reducible apply KeptN.next
    | with_reducible apply Kept.ite
    | with_reducible apply Kept.iteP
    | split

theorem State.protCfgWrite_kept {s : State} (h0 : s.Kept q) (a1) : (State.protCfgWrite s a1).1.Kept q := by
  unfold State.protCfgWrite
  repeat' first
    | with_reducible assumption
    | ((with_reducible show Fld.listed _ = true); rfl)
    | (fail_if_no_progress (extract_lets +onlyGivenNames x)
       first
       | (refine Kept.cut (q := q) (x := x) ?_ ?_ <;> [unfold x; ((try clear_value x); intro _)])
       | clear_value x
       | skip)
    | with_reducible apply State.wr_kept
    | with_reducible apply State.put_kept
    | with_reducible apply State.commit_kept
    | with_reducible apply State.holdUpdate_kept
    | with_reducible apply Kept.ite
    | with_reducible apply Kept.iteP
    | split
    | fail_if_no_progress (with_reducible apply Kept.upd)

theorem execProtModeWrite_kept (a0) (a1) {s : State} (h0 : s.Kept q) : KeptN q (execProtModeWrite a0 a1 s) := by
  unfold execProtModeWrite
  repeat' first
    | with_reducible intro _
    | with_reducible assumption
    | with_reducible apply State.writing_kept
    | with_reducible apply State.protCfgWrite_kept
    | with_reducible apply KeptN.next
    | with_reducible apply Kept.id

theorem State.protTunCfgWrite_kept {s : State} (h0 : s.Kept q) (a1) (a2) : (State.protTunCfgWrite s a1 a2).1.Kept q := by
  unfold State.protTunCfgWrite
  repeat' first
    | with_reducible assumption
    | ((with_reducible show Fld.listed _ = true); rfl)
    | (fail_if_no_progress (extract_lets +onlyGivenNames x)
       first
       | (refine Kept.cut (q := q) (x := x) ?_ ?_ <;> [unfold x; ((try clear_value x); intro _)])
       | (refine Kept.cutP (q := q) (x := x) ?_ ?_ <;> [unfold x; ((try clear_value x); intro _)])
       | clear_value x
       | skip)
    | with_reducible apply State.wr_kept
    | with_reducible apply State.commit_kept
    | with_reducible apply State.holdUpdate_kept
    | with_reducible apply State.rideCheck_kept
    | with_reducible apply Kept.ite
    | with_reducible apply Kept.iteP
    | split

end Sys2Proof.Machine
end

