-- ==== Sys2Proof/Laws/KeptTunnel.lean ====
section
/-!
SUPPORT. Every operation of Machine/Tunnel.lean keeps the stores canonical and the queue as it stands.
-/

set_option linter.unusedVariables false
set_option linter.unusedTactic false
set_option linter.unreachableTactic false
set_option linter.unnecessarySeqFocus false

namespace Sys2Proof.Machine

variable {q : List Instr}

theorem State.frameDrop_kept {s : State} (h0 : s.Kept q) (a1) : (State.frameDrop s a1).Kept q := by
  unfold State.frameDrop
  repeat' first
    | with_reducible assumption
    | ((with_reducible show Fld.listed _ = true); rfl)
    | with_reducible apply State.perfTun_kept
    | with_reducible apply State.bump_kept

theorem State.packFrame_kept {s : State} (h0 : s.Kept q) (a1) (a2) (a3) : (State.packFrame s a1 a2 a3).Kept q := by
  unfold State.packFrame
  repeat' first
    | with_reducible assumption
    | ((with_reducible show Fld.listed _ = true); rfl)
    | (fail_if_no_progress (extract_lets +onlyGivenNames x)
       first
       | clear_value x
       | skip)
    | with_reducible apply State.perfTun_kept
    | with_reducible apply State.bump_kept
    | with_reducible apply State.setTtx_kept

theorem State.queuePut_kept {s : State} (h0 : s.Kept q) (a1) (a2) (a3) (a4) : (State.queuePut s a1 a2 a3 a4).Kept q := by
  unfold State.queuePut
  repeat' first
    | with_reducible assumption
    | with_reducible apply State.spanWrite_kept
    | with_reducible apply State.dataPath_kept

theorem State.queueTake_kept {s : State} (h0 : s.Kept q) (a1) (a2) (a3) (a4) : (State.queueTake s a1 a2 a3 a4).1.Kept q := by
  unfold State.queueTake
  repeat' first
    | with_reducible assumption
    | with_reducible apply State.spanTake_kept
    | with_reducible apply State.dataPath_kept

theorem State.packQueued_kept {s : State} (h0 : s.Kept q) (a1) (a2) (a3) : (State.packQueued s a1 a2 a3).Kept q := by
  unfold State.packQueued
  repeat' first
    | with_reducible assumption
    | ((with_reducible show Fld.listed _ = true); rfl)
    | with_reducible apply State.bump_kept
    | with_reducible apply State.packFrame_kept
    | with_reducible apply Kept.ite
    | split

theorem State.drainIngress_kept {s : State} (h0 : s.Kept q) (a1) (a2) : (State.drainIngress s a1 a2).Kept q := by
  induction a2 generalizing s with
  | zero =>
    unfold State.drainIngress
    repeat' first
      | with_reducible intro _
      | with_reducible assumption
      | (fail_if_no_progress (extract_lets +onlyGivenNames x)
         first
         | (refine Kept.cutP (q := q) (x := x) ?_ ?_ <;> [unfold x; ((try clear_value x); intro _)])
         | clear_value x
         | skip)
      | with_reducible apply State.queueTake_kept
      | with_reducible apply State.setTtx_kept
      | with_reducible apply State.unlessReset_kept
      | with_reducible apply State.packQueued_kept
      | split
      | (refine Kept.getP ?_ (by assumption) <;> with_reducible apply State.queueTake_kept)
      | with_reducible apply Kept.id
  | succ fuel ih =>
    unfold State.drainIngress
    repeat' first
      | with_reducible intro _
      | with_reducible assumption
      | (fail_if_no_progress (extract_lets +onlyGivenNames x)
         first
         | (refine Kept.cutP (q := q) (x := x) ?_ ?_ <;> [unfold x; ((try clear_value x); intro _)])
         | clear_value x
         | skip)
      | with_reducible apply ih
      | with_reducible apply State.queueTake_kept
      | with_reducible apply State.setTtx_kept
      | with_reducible apply State.unlessReset_kept
      | with_reducible apply State.packQueued_kept
      | split
      | (refine Kept.getP ?_ (by assumption) <;> with_reducible apply State.queueTake_kept)
      | with_reducible apply Kept.id

theorem State.ingressFrame_kept {s : State} (h0 : s.Kept q) (a1) (a2) (a3) : (State.ingressFrame s a1 a2 a3).Kept q := by
  unfold State.ingressFrame
  repeat' first
    | with_reducible assumption
    | (fail_if_no_progress (extract_lets +onlyGivenNames x)
       first
       | clear_value x
       | skip)
    | with_reducible apply State.packFrame_kept
    | with_reducible apply State.frameDrop_kept
    | with_reducible apply State.pauseCheck_kept
    | with_reducible apply State.setTtx_kept
    | with_reducible apply State.queuePut_kept
    | with_reducible apply Kept.ite
    | split

theorem State.clientFrame_kept {s : State} (h0 : s.Kept q) (a1) (a2) (a3) : (State.clientFrame s a1 a2 a3).Kept q := by
  unfold State.clientFrame
  repeat' first
    | with_reducible assumption
    | ((with_reducible show Fld.listed _ = true); rfl)
    | (fail_if_no_progress (extract_lets +onlyGivenNames x)
       first
       | clear_value x
       | skip)
    | with_reducible apply State.frameDrop_kept
    | with_reducible apply State.bump_kept
    | with_reducible apply State.ingressFrame_kept
    | with_reducible apply Kept.ite
    | split

theorem State.frameOver_kept {s : State} (h0 : s.Kept q) (a1) : (State.frameOver s a1).Kept q := by
  unfold State.frameOver
  repeat' first
    | with_reducible intro _
    | with_reducible assumption
    | (fail_if_no_progress (extract_lets +onlyGivenNames x)
       first
       | clear_value x
       | skip)
    | with_reducible apply State.setLock_kept
    | with_reducible apply Kept.foldlFields
    | exact Reg.fields_listed _ _ (by assumption)
    | with_reducible apply Kept.foldl
    | with_reducible apply Kept.foldlP

theorem execClientFrameRx_kept (a0) (a1) (a2) {s : State} (h0 : s.Kept q) : KeptN q (execClientFrameRx a0 a1 a2 s) := by
  unfold execClientFrameRx
  repeat' first
    | with_reducible intro _
    | with_reducible assumption
    | with_reducible apply State.clientFrame_kept
    | with_reducible apply State.dataPath_kept
    | with_reducible apply State.frameOver_kept
    | with_reducible apply KeptN.next
    | split

theorem execBundleFlush_kept (a0) {s : State} (h0 : s.Kept q) : KeptN q (execBundleFlush a0 s) := by
  unfold execBundleFlush
  repeat' first
    | with_reducible assumption
    | with_reducible apply State.setTtx_kept
    | with_reducible apply KeptN.next
    | with_reducible apply Kept.ite
    | with_reducible apply Kept.iteP
    | split

theorem State.releaseBundle_kept {s : State} (h0 : s.Kept q) (a1) : (State.releaseBundle s a1).1.Kept q := by
  unfold State.releaseBundle
  repeat' first
    | with_reducible intro _
    | with_reducible assumption
    | (fail_if_no_progress (extract_lets +onlyGivenNames x)
       first
       | (refine Kept.cut (q := q) (x := x) ?_ ?_ <;> [unfold x; ((try clear_value x); intro _)])
       | clear_value x
       | skip)
    | with_reducible apply State.setTtx_kept
    | with_reducible apply State.pauseCheck_kept
    | with_reducible apply State.drainIngress_kept
    | with_reducible apply State.setTxSeq_kept
    | with_reducible apply State.dataPath_kept
    | with_reducible apply Kept.ite
    | with_reducible apply Kept.iteP
    | split

theorem State.egressPut_kept {s : State} (h0 : s.Kept q) (a1) (a2) (a3) : (State.egressPut s a1 a2 a3).Kept q := by
  unfold State.egressPut
  repeat' first
    | with_reducible assumption
    | ((with_reducible show Fld.listed _ = true); rfl)
    | (fail_if_no_progress (extract_lets +onlyGivenNames x)
       first
       | clear_value x
       | skip)
    | with_reducible apply State.bump_kept
    | with_reducible apply State.setTrx_kept
    | with_reducible apply State.queuePut_kept
    | with_reducible apply Kept.ite
    | split

theorem State.streamBreak_kept {s : State} (h0 : s.Kept q) (a1) (a2) : (State.streamBreak s a1 a2).Kept q := by
  unfold State.streamBreak
  repeat' first
    | with_reducible intro _
    | with_reducible assumption
    | ((with_reducible show Fld.listed _ = true); rfl)
    | (fail_if_no_progress (extract_lets +onlyGivenNames x)
       first
       | (refine Kept.cut (q := q) (x := x) ?_ ?_ <;> [unfold x; ((try clear_value x); intro _)])
       | clear_value x
       | skip)
    | with_reducible apply State.setTrx_kept
    | with_reducible apply State.bump_kept
    | with_reducible apply Kept.ite
    | split

theorem State.entries_kept {s : State} (h0 : s.Kept q) (a1) (a2) (a3) : (State.entries s a1 a2 a3).Kept q := by
  induction a2 generalizing s a3 with
  | zero =>
    unfold State.entries
    repeat' first
      | with_reducible intro _
      | with_reducible assumption
      | ((with_reducible show Fld.listed _ = true); rfl)
      | (fail_if_no_progress (extract_lets +onlyGivenNames x)
         first
         | clear_value x
         | skip)
      | with_reducible apply State.setTrx_kept
      | with_reducible apply State.streamBreak_kept
      | with_reducible apply State.bump_kept
      | with_reducible apply State.egressPut_kept
      | with_reducible apply Kept.ite
      | split
  | succ fuel ih =>
    unfold State.entries
    repeat' first
      | with_reducible intro _
      | with_reducible assumption
      | ((with_reducible show Fld.listed _ = true); rfl)
      | (fail_if_no_progress (extract_lets +onlyGivenNames x)
         first
         | clear_value x
         | skip)
      | with_reducible apply ih
      | with_reducible apply State.setTrx_kept
      | with_reducible apply State.streamBreak_kept
      | with_reducible apply State.bump_kept
      | with_reducible apply State.egressPut_kept
      | with_reducible apply Kept.ite
      | split

theorem State.unpack_kept {s : State} (h0 : s.Kept q) (a1) (a2) (a3) : (State.unpack s a1 a2 a3).Kept q := by
  unfold State.unpack
  repeat' first
    | with_reducible assumption
    | ((with_reducible show Fld.listed _ = true); rfl)
    | (fail_if_no_progress (extract_lets +onlyGivenNames x)
       first
       | (refine Kept.cut (q := q) (x := x) ?_ ?_ <;> [unfold x; ((try clear_value x); intro _)])
       | clear_value x
       | skip)
    | with_reducible apply State.bump_kept
    | with_reducible apply State.setTrx_kept
    | with_reducible apply State.entries_kept
    | with_reducible apply Kept.ite
    | split

theorem State.gapNote_kept {s : State} (h0 : s.Kept q) (a1) (a2) (a3) (a4) : (State.gapNote s a1 a2 a3 a4).Kept q := by
  unfold State.gapNote
  repeat' first
    | with_reducible assumption
    | ((with_reducible show Fld.listed _ = true); rfl)
    | (fail_if_no_progress (extract_lets +onlyGivenNames x)
       first
       | (refine Kept.cut (q := q) (x := x) ?_ ?_ <;> [unfold x; ((try clear_value x); intro _)])
       | clear_value x
       | skip)
    | with_reducible apply State.wr_kept
    | with_reducible apply State.perfTun_kept
    | with_reducible apply State.bump_kept
    | with_reducible apply State.streamBreak_kept
    | with_reducible apply State.event_kept

theorem State.declareGap_kept {s : State} (h0 : s.Kept q) (a1) (a2) (a3) (a4) : (State.declareGap s a1 a2 a3 a4).Kept q := by
  unfold State.declareGap
  repeat' first
    | with_reducible assumption
    | (fail_if_no_progress (extract_lets +onlyGivenNames x)
       first
       | clear_value x
       | skip)
    | with_reducible apply State.gapNote_kept
    | with_reducible apply State.setRxD_kept
    | with_reducible apply Kept.ite
    | split

theorem State.deliverBundle_kept {s : State} (h0 : s.Kept q) (a1) (a2) (a3) (a4) : (State.deliverBundle s a1 a2 a3 a4).Kept q := by
  unfold State.deliverBundle
  repeat' first
    | with_reducible assumption
    | ((with_reducible show Fld.listed _ = true); rfl)
    | with_reducible apply State.unpack_kept
    | with_reducible apply State.perfTun_kept
    | with_reducible apply State.bump_kept
    | with_reducible apply State.setRxD_kept

theorem State.sendFrame_kept {s : State} (h0 : s.Kept q) (a1) (a2) : (State.sendFrame s a1 a2).Kept q := by
  unfold State.sendFrame
  repeat' first
    | with_reducible intro _
    | with_reducible assumption
    | ((with_reducible show Fld.listed _ = true); rfl)
    | (fail_if_no_progress (extract_lets +onlyGivenNames x)
       first
       | (refine Kept.cut (q := q) (x := x) ?_ ?_ <;> [unfold x; ((try clear_value x); intro _)])
       | (refine Kept.cutP (q := q) (x := x) ?_ ?_ <;> [unfold x; ((try clear_value x); intro _)])
       | clear_value x
       | skip)
    | with_reducible apply State.setMark_kept
    | with_reducible apply State.queueTake_kept
    | with_reducible apply State.setTrx_kept
    | with_reducible apply State.unlessReset_kept
    | with_reducible apply State.bump_kept
    | with_reducible apply State.emit_kept
    | with_reducible apply State.perfTun_kept
    | with_reducible apply Kept.ite
    | with_reducible apply Kept.iteP
    | split
    | (refine Kept.getP ?_ (by assumption) <;> with_reducible apply State.queueTake_kept)
    | with_reducible apply Kept.id

theorem execFrameToClient_kept (a0) (a1) {s : State} (h0 : s.Kept q) : KeptN q (execFrameToClient a0 a1 s) := by
  unfold execFrameToClient
  repeat' first
    | with_reducible assumption
    | with_reducible apply State.sendFrame_kept
    | with_reducible apply KeptN.next

theorem State.rateJudge_kept {s : State} (h0 : s.Kept q) (a1) (a2) : (State.rateJudge s a1 a2).Kept q := by
  unfold State.rateJudge
  repeat' first
    | with_reducible intro _
    | with_reducible assumption
    | ((with_reducible show Fld.listed _ = true); rfl)
    | (fail_if_no_progress (extract_lets +onlyGivenNames x)
       first
       | clear_value x
       | skip)
    | with_reducible apply State.eventIf_kept
    | with_reducible apply State.setTrx_kept
    | with_reducible apply Kept.foldlFields
    | exact Reg.fields_listed _ _ (by assumption)
    | with_reducible apply Kept.foldl
    | with_reducible apply Kept.foldlP

theorem execRateWindow_kept (a0) {s : State} (h0 : s.Kept q) : KeptN q (execRateWindow a0 s) := by
  unfold execRateWindow
  repeat' first
    | with_reducible assumption
    | with_reducible apply State.rateJudge_kept
    | with_reducible apply KeptN.next

theorem State.dropInFlight_kept {s : State} (h0 : s.Kept q) : (State.dropInFlight s).Kept q := by
  unfold State.dropInFlight
  repeat' first
    | with_reducible intro _
    | with_reducible assumption
    | (fail_if_no_progress (extract_lets +onlyGivenNames x)
       first
       | clear_value x
       | skip)
    | with_reducible apply State.setProt_kept
    | with_reducible apply State.setTtx_kept
    | with_reducible apply Kept.foldlFields
    | exact Reg.fields_listed _ _ (by assumption)
    | with_reducible apply Kept.foldl
    | with_reducible apply Kept.foldlP

theorem State.stopClients_kept {s : State} (h0 : s.Kept q) : (State.stopClients s).Kept q := by
  unfold State.stopClients
  repeat' first
    | with_reducible intro _
    | with_reducible assumption
    | (fail_if_no_progress (extract_lets +onlyGivenNames x)
       first
       | (refine Kept.cut (q := q) (x := x) ?_ ?_ <;> [unfold x; ((try clear_value x); intro _)])
       | clear_value x
       | skip)
    | with_reducible apply State.emit_kept
    | with_reducible apply State.setTtx_kept
    | with_reducible apply Kept.foldlFields
    | exact Reg.fields_listed _ _ (by assumption)
    | with_reducible apply Kept.foldl
    | with_reducible apply Kept.foldlP
    | with_reducible apply Kept.ite
    | split

theorem State.tokensSettle_kept {s : State} (h0 : s.Kept q) : (State.tokensSettle s).Kept q := by
  unfold State.tokensSettle
  repeat' first
    | with_reducible intro _
    | with_reducible assumption
    | (fail_if_no_progress (extract_lets +onlyGivenNames x)
       first
       | clear_value x
       | skip)
    | with_reducible apply State.setTtx_kept
    | with_reducible apply Kept.foldlFields
    | exact Reg.fields_listed _ _ (by assumption)
    | with_reducible apply Kept.foldl
    | with_reducible apply Kept.foldlP
    | with_reducible apply Kept.ite
    | split

theorem State.measuresBegin_kept {s : State} (h0 : s.Kept q) : (State.measuresBegin s).Kept q := by
  unfold State.measuresBegin
  repeat' first
    | with_reducible intro _
    | with_reducible assumption
    | with_reducible apply State.pauseCheck_kept
    | with_reducible apply Kept.foldlFields
    | exact Reg.fields_listed _ _ (by assumption)
    | with_reducible apply Kept.foldl
    | with_reducible apply Kept.foldlP

theorem State.measuresEnd_kept {s : State} (h0 : s.Kept q) : (State.measuresEnd s).Kept q := by
  unfold State.measuresEnd
  repeat' first
    | with_reducible intro _
    | with_reducible assumption
    | with_reducible apply State.pauseCheck_kept
    | with_reducible apply State.pauseEnd_kept
    | with_reducible apply Kept.foldlFields
    | exact Reg.fields_listed _ _ (by assumption)
    | with_reducible apply Kept.foldl
    | with_reducible apply Kept.foldlP
    | with_reducible apply Kept.ite
    | split

end Sys2Proof.Machine
end

