-- ==== Sys2Proof/Laws/KeptMerge.lean ====
section
/-!
SUPPORT. Every operation of Machine/Merge.lean keeps the stores canonical and the queue as it stands.
-/

set_option linter.unusedVariables false
set_option linter.unusedTactic false
set_option linter.unreachableTactic false
set_option linter.unnecessarySeqFocus false

namespace Sys2Proof.Machine

variable {q : List Instr}

theorem State.skewAdd_kept {s : State} (h0 : s.Kept q) (a1) (a2) (a3) : (State.skewAdd s a1 a2 a3).Kept q := by
  unfold State.skewAdd
  repeat' first
    | with_reducible intro _
    | with_reducible assumption
    | (fail_if_no_progress (extract_lets +onlyGivenNames x)
       first
       | (refine Kept.cut (q := q) (x := x) ?_ ?_ <;> [unfold x; ((try clear_value x); intro _)])
       | clear_value x
       | skip)
    | with_reducible apply State.setProt_kept
    | with_reducible apply Kept.ite
    | split

theorem State.noteArrival_kept {s : State} (h0 : s.Kept q) (a1) (a2) (a3) (a4) : (State.noteArrival s a1 a2 a3 a4).1.Kept q := by
  unfold State.noteArrival
  repeat' first
    | with_reducible intro _
    | with_reducible assumption
    | with_reducible apply State.skewAdd_kept
    | with_reducible apply Kept.ite
    | with_reducible apply Kept.iteP
    | split

theorem State.runPrune_kept {s : State} (h0 : s.Kept q) (a1) : (State.runPrune s a1).Kept q := by
  unfold State.runPrune
  repeat' first
    | with_reducible assumption
    | (fail_if_no_progress (extract_lets +onlyGivenNames x)
       first
       | clear_value x
       | skip)
    | with_reducible apply State.mergeStatus_kept
    | with_reducible apply State.setProt_kept

theorem State.sendResend_kept {s : State} (h0 : s.Kept q) (a1) (a2) (a3) : (State.sendResend s a1 a2 a3).Kept q := by
  unfold State.sendResend
  repeat' first
    | with_reducible assumption
    | ((with_reducible show Fld.listed _ = true); rfl)
    | with_reducible apply State.perfTun_kept
    | with_reducible apply State.bump_kept
    | with_reducible apply State.sendCtrl_kept

theorem State.missRunStart_kept {s : State} (h0 : s.Kept q) (a1) (a2) : (State.missRunStart s a1 a2).Kept q := by
  unfold State.missRunStart
  repeat' first
    | with_reducible assumption
    | (fail_if_no_progress (extract_lets +onlyGivenNames x)
       first
       | clear_value x
       | skip)
    | with_reducible apply State.mergeStatus_kept
    | with_reducible apply State.sendResend_kept
    | with_reducible apply State.setProt_kept

theorem State.rollResult_kept {s : State} (h0 : s.Kept q) (a1) (a2) : (State.rollResult s a1 a2).Kept q := by
  unfold State.rollResult
  repeat' first
    | with_reducible assumption
    | ((with_reducible show Fld.listed _ = true); rfl)
    | with_reducible apply State.trackVal_kept

theorem State.rollRetire_kept {s : State} (h0 : s.Kept q) (a1) : (State.rollRetire s a1).Kept q := by
  unfold State.rollRetire
  repeat' first
    | with_reducible intro _
    | with_reducible assumption
    | ((with_reducible show Fld.listed _ = true); rfl)
    | (fail_if_no_progress (extract_lets +onlyGivenNames x)
       first
       | (refine Kept.cut (q := q) (x := x) ?_ ?_ <;> [unfold x; ((try clear_value x); intro _)])
       | clear_value x
       | skip)
    | with_reducible apply State.keyPromote_kept
    | with_reducible apply State.wr_kept
    | with_reducible apply State.setTrx_kept
    | with_reducible apply State.sendCtrl_kept
    | with_reducible apply State.rollResult_kept
    | with_reducible apply Kept.ite
    | split

theorem State.advanced_kept {s : State} (h0 : s.Kept q) (a1) : (State.advanced s a1).Kept q := by
  unfold State.advanced
  repeat' first
    | with_reducible assumption
    | (fail_if_no_progress (extract_lets +onlyGivenNames x)
       first
       | (refine Kept.cut (q := q) (x := x) ?_ ?_ <;> [unfold x; ((try clear_value x); intro _)])
       | clear_value x
       | skip)
    | with_reducible apply State.setProt_kept
    | with_reducible apply State.rollRetire_kept
    | with_reducible apply State.runPrune_kept
    | with_reducible apply State.holdRelease_kept

theorem State.copyMissing_kept {s : State} (h0 : s.Kept q) (a1) (a2) : (State.copyMissing s a1 a2).Kept q := by
  unfold State.copyMissing
  repeat' first
    | with_reducible assumption
    | (fail_if_no_progress (extract_lets +onlyGivenNames x)
       first
       | clear_value x
       | skip)
    | with_reducible apply State.runPrune_kept
    | with_reducible apply State.holdRelease_kept
    | with_reducible apply State.setProt_kept

theorem State.bufferTake_kept {s : State} (h0 : s.Kept q) (a1) (a2) : (State.bufferTake s a1 a2).1.Kept q := by
  unfold State.bufferTake
  repeat' first
    | with_reducible intro _
    | with_reducible assumption
    | (fail_if_no_progress (extract_lets +onlyGivenNames x)
       first
       | (refine Kept.cutP (q := q) (x := x) ?_ ?_ <;> [unfold x; ((try clear_value x); intro _)])
       | clear_value x
       | skip)
    | with_reducible apply State.spanTake_kept
    | with_reducible apply State.dataPath_kept
    | with_reducible apply State.unlessReset_kept
    | with_reducible apply State.copyMissing_kept
    | with_reducible apply Kept.ite
    | with_reducible apply Kept.iteP
    | split
    | with_reducible apply Kept.id

theorem State.bufferPut_kept {s : State} (h0 : s.Kept q) (a1) (a2) : (State.bufferPut s a1 a2).Kept q := by
  unfold State.bufferPut
  repeat' first
    | with_reducible assumption
    | with_reducible apply State.spanWrite_kept
    | with_reducible apply State.dataPath_kept

theorem State.readBack_kept {s : State} (h0 : s.Kept q) (a1) (a2) : (State.readBack s a1 a2).1.Kept q := by
  unfold State.readBack
  repeat' first
    | with_reducible intro _
    | with_reducible assumption
    | (fail_if_no_progress (extract_lets +onlyGivenNames x)
       first
       | (refine Kept.cutP (q := q) (x := x) ?_ ?_ <;> [unfold x; ((try clear_value x); intro _)])
       | clear_value x
       | skip)
    | with_reducible apply State.spanTake_kept
    | with_reducible apply State.dataPath_kept
    | with_reducible apply State.unlessReset_kept
    | with_reducible apply State.copyMissing_kept
    | with_reducible apply State.readCopy_kept
    | with_reducible apply State.setProt_kept
    | with_reducible apply Kept.ite
    | with_reducible apply Kept.iteP
    | split
    | (refine Kept.getP ?_ (by assumption) <;> with_reducible apply State.spanTake_kept)
    | with_reducible apply Kept.id

theorem State.lateCount_kept {s : State} (h0 : s.Kept q) (a1) (a2) : (State.lateCount s a1 a2).Kept q := by
  unfold State.lateCount
  repeat' first
    | with_reducible assumption
    | ((with_reducible show Fld.listed _ = true); rfl)
    | (fail_if_no_progress (extract_lets +onlyGivenNames x)
       first
       | clear_value x
       | skip)
    | with_reducible apply State.perfTun_kept
    | with_reducible apply State.bump_kept
    | with_reducible apply State.setProt_kept
    | with_reducible apply Kept.ite
    | split

theorem State.offer_kept {s : State} (h0 : s.Kept q) (a1) (a2) (a3) : (State.offer s a1 a2 a3).1.Kept q := by
  unfold State.offer
  repeat' first
    | with_reducible intro _
    | with_reducible assumption
    | (fail_if_no_progress (extract_lets +onlyGivenNames x)
       first
       | (refine Kept.cut (q := q) (x := x) ?_ ?_ <;> [unfold x; ((try clear_value x); intro _)])
       | (refine Kept.cutP (q := q) (x := x) ?_ ?_ <;> [unfold x; ((try clear_value x); intro _)])
       | clear_value x
       | skip)
    | with_reducible apply State.bufferTake_kept
    | with_reducible apply State.setProt_kept
    | with_reducible apply State.lateCount_kept
    | with_reducible apply State.readBack_kept
    | with_reducible apply Kept.ite
    | with_reducible apply Kept.iteP
    | split
    | (refine Kept.getP ?_ (by assumption) <;> with_reducible apply State.bufferTake_kept)
    | (refine Kept.getP ?_ (by assumption) <;> with_reducible apply State.readBack_kept)

theorem State.noCopy_kept {s : State} (h0 : s.Kept q) (a1) (a2) : (State.noCopy s a1 a2).1.Kept q := by
  unfold State.noCopy
  repeat' first
    | with_reducible intro _
    | with_reducible assumption
    | (fail_if_no_progress (extract_lets +onlyGivenNames x)
       first
       | (refine Kept.cut (q := q) (x := x) ?_ ?_ <;> [unfold x; ((try clear_value x); intro _)])
       | clear_value x
       | skip)
    | with_reducible apply State.advanced_kept
    | with_reducible apply State.declareGap_kept
    | with_reducible apply State.missRunStart_kept
    | with_reducible apply State.lateCount_kept
    | with_reducible apply Kept.ite
    | with_reducible apply Kept.iteP
    | split

theorem State.mergeTry_kept {s : State} (h0 : s.Kept q) (a1) (a2) : (State.mergeTry s a1 a2).Kept q := by
  induction a2 generalizing s with
  | zero =>
    unfold State.mergeTry
    repeat' first
      | with_reducible intro _
      | with_reducible assumption
      | (fail_if_no_progress (extract_lets +onlyGivenNames x)
         first
         | (refine Kept.cutP (q := q) (x := x) ?_ ?_ <;> [unfold x; ((try clear_value x); intro _)])
         | clear_value x
         | skip)
      | with_reducible apply State.offer_kept
      | with_reducible apply State.noCopy_kept
      | with_reducible apply Kept.ite
      | with_reducible apply Kept.iteP
      | split
      | (refine Kept.getP ?_ (by assumption) <;> with_reducible apply State.offer_kept)
      | (refine Kept.getP ?_ (by assumption) <;> with_reducible apply State.noCopy_kept)
  | succ fuel ih =>
    unfold State.mergeTry
    repeat' first
      | with_reducible intro _
      | with_reducible assumption
      | (fail_if_no_progress (extract_lets +onlyGivenNames x)
         first
         | (refine Kept.cutP (q := q) (x := x) ?_ ?_ <;> [unfold x; ((try clear_value x); intro _)])
         | clear_value x
         | skip)
      | with_reducible apply ih
      | with_reducible apply State.offer_kept
      | with_reducible apply State.noCopy_kept
      | with_reducible apply Kept.ite
      | with_reducible apply Kept.iteP
      | split
      | (refine Kept.getP ?_ (by assumption) <;> with_reducible apply State.offer_kept)
      | (refine Kept.getP ?_ (by assumption) <;> with_reducible apply State.noCopy_kept)

theorem State.mergeGo_kept {s : State} (h0 : s.Kept q) (a1) : (State.mergeGo s a1).Kept q := by
  unfold State.mergeGo
  repeat' first
    | with_reducible assumption
    | with_reducible apply State.mergeTry_kept

theorem State.mergeAll_kept {s : State} (h0 : s.Kept q) : (State.mergeAll s).Kept q := by
  unfold State.mergeAll
  repeat' first
    | with_reducible intro _
    | with_reducible assumption
    | with_reducible apply State.mergeGo_kept
    | with_reducible apply Kept.foldlFields
    | exact Reg.fields_listed _ _ (by assumption)
    | with_reducible apply Kept.foldl
    | with_reducible apply Kept.foldlP

theorem State.keepCopy_kept {s : State} (h0 : s.Kept q) (a1) (a2) : (State.keepCopy s a1 a2).Kept q := by
  unfold State.keepCopy
  repeat' first
    | with_reducible assumption
    | (fail_if_no_progress (extract_lets +onlyGivenNames x)
       first
       | clear_value x
       | skip)
    | with_reducible apply State.setProt_kept

theorem State.holdbackDrop_kept {s : State} (h0 : s.Kept q) (a1) (a2) : (State.holdbackDrop s a1 a2).Kept q := by
  unfold State.holdbackDrop
  repeat' first
    | with_reducible assumption
    | ((with_reducible show Fld.listed _ = true); rfl)
    | (fail_if_no_progress (extract_lets +onlyGivenNames x)
       first
       | (refine Kept.cut (q := q) (x := x) ?_ ?_ <;> [unfold x; ((try clear_value x); intro _)])
       | clear_value x
       | skip)
    | with_reducible apply State.event_kept
    | with_reducible apply State.bump_kept
    | with_reducible apply State.missRunStart_kept
    | with_reducible apply Kept.ite
    | split

theorem State.storeCopy_kept {s : State} (h0 : s.Kept q) (a1) (a2) : (State.storeCopy s a1 a2).Kept q := by
  unfold State.storeCopy
  repeat' first
    | with_reducible intro _
    | with_reducible assumption
    | (fail_if_no_progress (extract_lets +onlyGivenNames x)
       first
       | (refine Kept.cut (q := q) (x := x) ?_ ?_ <;> [unfold x; ((try clear_value x); intro _)])
       | clear_value x
       | skip)
    | with_reducible apply State.mapsScan_kept
    | with_reducible apply State.keepCopy_kept
    | with_reducible apply State.bufferPut_kept
    | with_reducible apply State.holdStore_kept
    | with_reducible apply State.holdbackDrop_kept
    | with_reducible apply State.holdbackCount_kept
    | with_reducible apply KeptO.getD
    | with_reducible apply Kept.ite
    | split
    | (refine KeptO.get ?_ (by assumption) <;> with_reducible apply State.holdStore_kept)
    | (refine KeptO.get (KeptO.ite ?_ KeptO.none) (by assumption) <;> with_reducible apply State.holdStore_kept)

theorem State.mergeOffer_kept {s : State} (h0 : s.Kept q) (a1) (a2) (a3) : (State.mergeOffer s a1 a2 a3).Kept q := by
  unfold State.mergeOffer
  repeat' first
    | with_reducible assumption
    | ((with_reducible show Fld.listed _ = true); rfl)
    | (fail_if_no_progress (extract_lets +onlyGivenNames x)
       first
       | (refine Kept.cut (q := q) (x := x) ?_ ?_ <;> [unfold x; ((try clear_value x); intro _)])
       | (refine Kept.cutP (q := q) (x := x) ?_ ?_ <;> [unfold x; ((try clear_value x); intro _)])
       | clear_value x
       | skip)
    | with_reducible apply State.dataPath_kept
    | with_reducible apply State.noteArrival_kept
    | with_reducible apply State.setProt_kept
    | with_reducible apply State.event_kept
    | with_reducible apply State.perfTun_kept
    | with_reducible apply State.bump_kept
    | with_reducible apply State.bundlesBlocked_kept
    | with_reducible apply State.mergeGo_kept
    | with_reducible apply State.runPrune_kept
    | with_reducible apply State.storeCopy_kept
    | with_reducible apply Kept.ite
    | with_reducible apply Kept.iteP
    | split

theorem State.deadline_kept {s : State} (h0 : s.Kept q) (a1) (a2) : (State.deadline s a1 a2).Kept q := by
  unfold State.deadline
  repeat' first
    | with_reducible assumption
    | (fail_if_no_progress (extract_lets +onlyGivenNames x)
       first
       | (refine Kept.cut (q := q) (x := x) ?_ ?_ <;> [unfold x; ((try clear_value x); intro _)])
       | clear_value x
       | skip)
    | with_reducible apply State.setProt_kept
    | with_reducible apply State.missRunStart_kept
    | with_reducible apply State.mergeGo_kept
    | with_reducible apply Kept.ite
    | split

theorem execMergeDeadline_kept (a0) (a1) {s : State} (h0 : s.Kept q) : KeptN q (execMergeDeadline a0 a1 s) := by
  unfold execMergeDeadline
  repeat' first
    | with_reducible intro _
    | with_reducible assumption
    | with_reducible apply State.unlessReset_kept
    | with_reducible apply State.voteSlots_kept
    | with_reducible apply State.voteRx_kept
    | with_reducible apply State.deadline_kept
    | with_reducible apply KeptN.next
    | with_reducible apply Kept.ite
    | with_reducible apply Kept.iteP
    | split
    | with_reducible apply Kept.id

theorem execAlignmentSpill_kept (a0) (a1) (a2) {s : State} (h0 : s.Kept q) : KeptN q (execAlignmentSpill a0 a1 a2 s) := by
  unfold execAlignmentSpill
  repeat' first
    | with_reducible intro _
    | with_reducible assumption
    | (fail_if_no_progress (extract_lets +onlyGivenNames x)
       first
       | (refine Kept.cut (q := q) (x := x) ?_ ?_ <;> [unfold x; ((try clear_value x); intro _)])
       | (refine Kept.cutP (q := q) (x := x) ?_ ?_ <;> [unfold x; ((try clear_value x); intro _)])
       | clear_value x
       | skip)
    | with_reducible apply State.bufferTake_kept
    | with_reducible apply State.mergeGo_kept
    | with_reducible apply State.mapsScan_kept
    | with_reducible apply State.holdStore_kept
    | with_reducible apply State.setProt_kept
    | with_reducible apply KeptO.getD
    | with_reducible apply KeptN.next
    | with_reducible apply Kept.ite
    | with_reducible apply Kept.iteP
    | split
    | (refine Kept.getP ?_ (by assumption) <;> with_reducible apply State.bufferTake_kept)
    | (refine KeptO.get ?_ (by assumption) <;> with_reducible apply State.holdStore_kept)
    | (refine KeptO.get (KeptO.ite ?_ KeptO.none) (by assumption) <;> with_reducible apply State.holdStore_kept)

theorem execAlignmentReadback_kept (a0) (a1) (a2) {s : State} (h0 : s.Kept q) : KeptN q (execAlignmentReadback a0 a1 a2 s) := by
  unfold execAlignmentReadback
  repeat' first
    | with_reducible intro _
    | with_reducible assumption
    | (fail_if_no_progress (extract_lets +onlyGivenNames x)
       first
       | (refine Kept.cutP (q := q) (x := x) ?_ ?_ <;> [unfold x; ((try clear_value x); intro _)])
       | clear_value x
       | skip)
    | with_reducible apply State.readBack_kept
    | with_reducible apply State.mergeGo_kept
    | with_reducible apply KeptN.next
    | with_reducible apply Kept.ite
    | with_reducible apply Kept.iteP
    | split
    | (refine Kept.getP ?_ (by assumption) <;> with_reducible apply State.readBack_kept)

theorem State.runAgain_kept {s : State} (h0 : s.Kept q) (a1) (a2) : (State.runAgain s a1 a2).Kept q := by
  unfold State.runAgain
  repeat' first
    | with_reducible intro _
    | with_reducible assumption
    | ((with_reducible show Fld.listed _ = true); rfl)
    | (fail_if_no_progress (extract_lets +onlyGivenNames x)
       first
       | (refine Kept.cut (q := q) (x := x) ?_ ?_ <;> [unfold x; ((try clear_value x); intro _)])
       | clear_value x
       | skip)
    | with_reducible apply State.setProt_kept
    | with_reducible apply State.mergeGo_kept
    | with_reducible apply State.mergeStatus_kept
    | with_reducible apply State.event_kept
    | with_reducible apply State.sendResend_kept
    | with_reducible apply Kept.foldlFields
    | exact Reg.fields_listed _ _ (by assumption)
    | with_reducible apply Kept.foldl
    | with_reducible apply Kept.foldlP
    | with_reducible apply Kept.ite
    | split

theorem execResendWaitExpiry_kept (a0) (a1) {s : State} (h0 : s.Kept q) : KeptN q (execResendWaitExpiry a0 a1 s) := by
  unfold execResendWaitExpiry
  repeat' first
    | with_reducible intro _
    | with_reducible assumption
    | with_reducible apply State.runAgain_kept
    | with_reducible apply KeptN.next
    | with_reducible apply Kept.ite
    | with_reducible apply Kept.iteP
    | split

theorem execAckTimer_kept (a0) {s : State} (h0 : s.Kept q) : KeptN q (execAckTimer a0 s) := by
  unfold execAckTimer
  repeat' first
    | with_reducible assumption
    | (fail_if_no_progress (extract_lets +onlyGivenNames x)
       first
       | clear_value x
       | skip)
    | with_reducible apply State.sendCtrl_kept
    | with_reducible apply State.setProt_kept
    | with_reducible apply KeptN.next
    | with_reducible apply Kept.ite
    | with_reducible apply Kept.iteP
    | split

theorem State.ackTake_kept {s : State} (h0 : s.Kept q) (a1) (a2) (a3) : (State.ackTake s a1 a2 a3).Kept q := by
  unfold State.ackTake
  repeat' first
    | with_reducible intro _
    | with_reducible assumption
    | ((with_reducible show Fld.listed _ = true); rfl)
    | (fail_if_no_progress (extract_lets +onlyGivenNames x)
       first
       | clear_value x
       | skip)
    | with_reducible apply State.unlessReset_kept
    | with_reducible apply State.voteTx_kept
    | with_reducible apply State.bump_kept
    | with_reducible apply State.holdRelease_kept
    | with_reducible apply State.setProt_kept
    | with_reducible apply Kept.ite
    | split
    | with_reducible apply Kept.id

theorem State.memberRead_kept {s : State} (h0 : s.Kept q) (a1) (a2) : (State.memberRead s a1 a2).1.Kept q := by
  unfold State.memberRead
  repeat' first
    | with_reducible assumption
    | (fail_if_no_progress (extract_lets +onlyGivenNames x)
       first
       | (refine Kept.cutP (q := q) (x := x) ?_ ?_ <;> [unfold x; ((try clear_value x); intro _)])
       | clear_value x
       | skip)
    | with_reducible apply State.spanTake_kept
    | with_reducible apply State.dataPath_kept
    | with_reducible apply Kept.ite
    | with_reducible apply Kept.iteP
    | split

theorem State.membersRead_kept {s : State} (h0 : s.Kept q) (a1) (a2) : (State.membersRead s a1 a2).1.Kept q := by
  unfold State.membersRead
  repeat' first
    | with_reducible intro _
    | with_reducible assumption
    | (fail_if_no_progress (extract_lets +onlyGivenNames x)
       first
       | (refine Kept.cutP (q := q) (x := x) ?_ ?_ <;> [unfold x; ((try clear_value x); intro _)])
       | clear_value x
       | skip)
    | with_reducible apply State.memberRead_kept
    | with_reducible apply Kept.foldlFields
    | exact Reg.fields_listed _ _ (by assumption)
    | with_reducible apply Kept.foldl
    | with_reducible apply Kept.foldlP

theorem State.resendReads_kept {s : State} (h0 : s.Kept q) (a1) (a2) (a3) : (State.resendReads s a1 a2 a3).Kept q := by
  unfold State.resendReads
  repeat' first
    | with_reducible intro _
    | with_reducible assumption
    | with_reducible apply State.readCopy_kept
    | with_reducible apply Kept.foldlFields
    | exact Reg.fields_listed _ _ (by assumption)
    | with_reducible apply Kept.foldl
    | with_reducible apply Kept.foldlP

theorem State.resendGap_kept {s : State} (h0 : s.Kept q) (a1) (a2) (a3) (a4) : (State.resendGap s a1 a2 a3 a4).Kept q := by
  unfold State.resendGap
  repeat' first
    | with_reducible assumption
    | with_reducible apply State.sendGap_kept
    | with_reducible apply State.neededBy_kept

theorem State.resendTake_kept {s : State} (h0 : s.Kept q) (a1) (a2) (a3) : (State.resendTake s a1 a2 a3).Kept q := by
  unfold State.resendTake
  repeat' first
    | with_reducible intro _
    | with_reducible assumption
    | ((with_reducible show Fld.listed _ = true); rfl)
    | (fail_if_no_progress (extract_lets +onlyGivenNames x)
       first
       | (refine Kept.cut (q := q) (x := x) ?_ ?_ <;> [unfold x; ((try clear_value x); intro _)])
       | (refine Kept.cutP (q := q) (x := x) ?_ ?_ <;> [unfold x; ((try clear_value x); intro _)])
       | clear_value x
       | skip)
    | with_reducible apply State.unlessReset_kept
    | with_reducible apply State.voteTx_kept
    | with_reducible apply State.bump_kept
    | with_reducible apply State.membersRead_kept
    | with_reducible apply State.resendReads_kept
    | with_reducible apply State.resendGap_kept
    | with_reducible apply Kept.foldlFields
    | exact Reg.fields_listed _ _ (by assumption)
    | with_reducible apply Kept.foldl
    | with_reducible apply Kept.foldlP
    | with_reducible apply Kept.ite
    | with_reducible apply Kept.iteP
    | split
    | with_reducible apply Kept.id

theorem State.gapTake_kept {s : State} (h0 : s.Kept q) (a1) (a2) (a3) (a4) : (State.gapTake s a1 a2 a3 a4).Kept q := by
  unfold State.gapTake
  repeat' first
    | with_reducible intro _
    | with_reducible assumption
    | (fail_if_no_progress (extract_lets +onlyGivenNames x)
       first
       | clear_value x
       | skip)
    | with_reducible apply State.unlessReset_kept
    | with_reducible apply State.voteRx_kept
    | with_reducible apply State.mergeGo_kept
    | with_reducible apply State.setProt_kept
    | with_reducible apply Kept.ite
    | split
    | with_reducible apply Kept.id

theorem State.protWrite_kept {s : State} (h0 : s.Kept q) (a1) (a2) (a3) : KeptOP q (State.protWrite s a1 a2 a3) := by
  unfold State.protWrite
  repeat' first
    | with_reducible intro _
    | with_reducible assumption
    | with_reducible apply State.protCfgWrite_kept
    | with_reducible apply State.switchWrite_kept
    | with_reducible apply State.protCtlWrite_kept
    | with_reducible apply State.protTunCfgWrite_kept
    | with_reducible apply KeptOP.none
    | with_reducible apply KeptOP.some
    | split
    | (refine Kept.getP ?_ (by assumption) <;> with_reducible apply State.protCfgWrite_kept)
    | (refine Kept.getP ?_ (by assumption) <;> with_reducible apply State.switchWrite_kept)
    | (refine Kept.getP ?_ (by assumption) <;> with_reducible apply State.protCtlWrite_kept)
    | (refine Kept.getP ?_ (by assumption) <;> with_reducible apply State.protTunCfgWrite_kept)

end Sys2Proof.Machine
end

