-- ==== Sys2Proof/Laws/KeptLaneRx.lean ====
section
/-!
SUPPORT. Every operation of Machine/LaneRx.lean keeps the stores canonical and the queue as it stands.
-/

set_option linter.unusedVariables false
set_option linter.unusedTactic false
set_option linter.unreachableTactic false
set_option linter.unnecessarySeqFocus false

namespace Sys2Proof.Machine

variable {q : List Instr}

theorem State.laneMoved_kept {s : State} (h0 : s.Kept q) (a1) : (State.laneMoved s a1).Kept q := by
  unfold State.laneMoved
  repeat' first
    | with_reducible assumption
    | with_reducible apply State.mergeAll_kept
    | with_reducible apply State.portUpdate_kept

theorem State.laneBit_kept {s : State} (h0 : s.Kept q) (a1) {f2 : Fld} (hf2 : f2.listed = true) {f3 : Fld} (hf3 : f3.listed = true) (a4) : (State.laneBit s a1 f2 f3 a4).Kept q := by
  unfold State.laneBit
  repeat' first
    | with_reducible assumption
    | ((with_reducible show Fld.listed _ = true); rfl)
    | with_reducible apply State.track_kept

theorem State.freezeJudge_kept {s : State} (h0 : s.Kept q) (a1) : (State.freezeJudge s a1).Kept q := by
  unfold State.freezeJudge
  repeat' first
    | with_reducible assumption
    | ((with_reducible show Fld.listed _ = true); rfl)
    | (fail_if_no_progress (extract_lets +onlyGivenNames x)
       first
       | (refine Kept.cut (q := q) (x := x) ?_ ?_ <;> [unfold x; ((try clear_value x); intro _)])
       | clear_value x
       | skip)
    | with_reducible apply State.laneMod_kept
    | with_reducible apply State.wr_kept
    | with_reducible apply State.put_kept
    | with_reducible apply Kept.ite
    | split

theorem execFreezeRelease_kept (a0) (a1) {s : State} (h0 : s.Kept q) : KeptN q (execFreezeRelease a0 a1 s) := by
  unfold execFreezeRelease
  repeat' first
    | with_reducible assumption
    | ((with_reducible show Fld.listed _ = true); rfl)
    | (fail_if_no_progress (extract_lets +onlyGivenNames x)
       first
       | (refine Kept.cut (q := q) (x := x) ?_ ?_ <;> [unfold x; ((try clear_value x); intro _)])
       | clear_value x
       | skip)
    | with_reducible apply State.laneMod_kept
    | with_reducible apply State.wr_kept
    | with_reducible apply State.put_kept
    | with_reducible apply KeptN.next
    | with_reducible apply Kept.ite
    | with_reducible apply Kept.iteP
    | split

theorem State.convLost_kept {s : State} (h0 : s.Kept q) (a1) : (State.convLost s a1).Kept q := by
  unfold State.convLost
  repeat' first
    | with_reducible assumption
    | ((with_reducible show Fld.listed _ = true); rfl)
    | with_reducible apply State.freezeJudge_kept
    | with_reducible apply State.lockLeave_kept
    | with_reducible apply State.laneBit_kept

theorem State.convGot_kept {s : State} (h0 : s.Kept q) (a1) : (State.convGot s a1).Kept q := by
  unfold State.convGot
  repeat' first
    | with_reducible assumption
    | ((with_reducible show Fld.listed _ = true); rfl)
    | (fail_if_no_progress (extract_lets +onlyGivenNames x)
       first
       | (refine Kept.cut (q := q) (x := x) ?_ ?_ <;> [unfold x; ((try clear_value x); intro _)])
       | clear_value x
       | skip)
    | with_reducible apply State.put_kept
    | with_reducible apply State.laneBit_kept
    | with_reducible apply State.laneMod_kept
    | with_reducible apply State.wr_kept
    | with_reducible apply State.setLock_kept
    | with_reducible apply State.laneMoved_kept
    | with_reducible apply State.freezeJudge_kept
    | with_reducible apply Kept.ite
    | split

theorem State.rxStore_kept {s : State} (h0 : s.Kept q) (a1) (a2) (a3) : (State.rxStore s a1 a2 a3).Kept q := by
  unfold State.rxStore
  repeat' first
    | with_reducible assumption
    | with_reducible apply State.memWrite_kept

theorem State.monLeave_kept {s : State} (h0 : s.Kept q) (a1) : (State.monLeave s a1).Kept q := by
  unfold State.monLeave
  repeat' first
    | with_reducible assumption
    | ((with_reducible show Fld.listed _ = true); rfl)
    | with_reducible apply State.put_kept
    | with_reducible apply Kept.ite
    | split

theorem State.leaveLit_kept {s : State} (h0 : s.Kept q) (a1) : (State.leaveLit s a1).Kept q := by
  unfold State.leaveLit
  repeat' first
    | with_reducible assumption
    | ((with_reducible show Fld.listed _ = true); rfl)
    | (fail_if_no_progress (extract_lets +onlyGivenNames x)
       first
       | (refine Kept.cut (q := q) (x := x) ?_ ?_ <;> [unfold x; ((try clear_value x); intro _)])
       | clear_value x
       | skip)
    | with_reducible apply State.laneMod_kept
    | with_reducible apply State.put_kept
    | with_reducible apply State.monLeave_kept
    | with_reducible apply State.convLost_kept

theorem State.monPause_kept {s : State} (h0 : s.Kept q) (a1) : (State.monPause s a1).Kept q := by
  unfold State.monPause
  repeat' first
    | with_reducible assumption
    | ((with_reducible show Fld.listed _ = true); rfl)
    | with_reducible apply State.put_kept

theorem State.seasonGo_kept {s : State} (h0 : s.Kept q) (a1) (a2) : (State.seasonGo s a1 a2).Kept q := by
  unfold State.seasonGo
  repeat' first
    | with_reducible assumption
    | ((with_reducible show Fld.listed _ = true); rfl)
    | with_reducible apply State.monPause_kept
    | with_reducible apply State.laneMod_kept
    | with_reducible apply State.put_kept

theorem State.acqFreq_kept {s : State} (h0 : s.Kept q) (a1) : (State.acqFreq s a1).Kept q := by
  unfold State.acqFreq
  repeat' first
    | with_reducible assumption
    | ((with_reducible show Fld.listed _ = true); rfl)
    | with_reducible apply State.laneMod_kept
    | with_reducible apply State.wr_kept

theorem State.acqBlind_kept {s : State} (h0 : s.Kept q) (a1) : (State.acqBlind s a1).Kept q := by
  unfold State.acqBlind
  repeat' first
    | with_reducible assumption
    | ((with_reducible show Fld.listed _ = true); rfl)
    | with_reducible apply State.laneMod_kept
    | with_reducible apply State.wr_kept

theorem State.acqSweep_kept {s : State} (h0 : s.Kept q) (a1) : (State.acqSweep s a1).Kept q := by
  unfold State.acqSweep
  repeat' first
    | with_reducible assumption
    | ((with_reducible show Fld.listed _ = true); rfl)
    | with_reducible apply State.laneMod_kept
    | with_reducible apply State.wr_kept
    | with_reducible apply State.acqFreq_kept
    | with_reducible apply Kept.ite
    | split

theorem State.acqSeason_kept {s : State} (h0 : s.Kept q) (a1) : (State.acqSeason s a1).Kept q := by
  unfold State.acqSeason
  repeat' first
    | with_reducible assumption
    | ((with_reducible show Fld.listed _ = true); rfl)
    | with_reducible apply State.acqSweep_kept
    | with_reducible apply State.seasonGo_kept
    | with_reducible apply State.wr_kept
    | with_reducible apply Kept.ite
    | split

theorem State.acqBegin_kept {s : State} (h0 : s.Kept q) (a1) : (State.acqBegin s a1).Kept q := by
  unfold State.acqBegin
  repeat' first
    | with_reducible intro _
    | with_reducible assumption
    | ((with_reducible show Fld.listed _ = true); rfl)
    | (fail_if_no_progress (extract_lets +onlyGivenNames x)
       first
       | (refine Kept.cut (q := q) (x := x) ?_ ?_ <;> [unfold x; ((try clear_value x); intro _)])
       | clear_value x
       | skip)
    | with_reducible apply State.rxStore_kept
    | with_reducible apply State.acqSeason_kept
    | with_reducible apply State.wr_kept
    | with_reducible apply Kept.foldlFields
    | exact Reg.fields_listed _ _ (by assumption)
    | with_reducible apply Kept.foldl
    | with_reducible apply Kept.foldlP
    | with_reducible apply Kept.ite
    | split

theorem State.laneGo_kept {s : State} (h0 : s.Kept q) (a1) : (State.laneGo s a1).Kept q := by
  unfold State.laneGo
  repeat' first
    | with_reducible assumption
    | ((with_reducible show Fld.listed _ = true); rfl)
    | (fail_if_no_progress (extract_lets +onlyGivenNames x)
       first
       | (refine Kept.cut (q := q) (x := x) ?_ ?_ <;> [unfold x; ((try clear_value x); intro _)])
       | clear_value x
       | skip)
    | with_reducible apply State.dataPath_kept
    | with_reducible apply State.put_kept
    | with_reducible apply State.leaveLit_kept
    | with_reducible apply State.convLost_kept
    | with_reducible apply State.laneMod_kept
    | with_reducible apply State.wr_kept
    | with_reducible apply State.acqBegin_kept
    | with_reducible apply State.laneMoved_kept
    | with_reducible apply State.freezeJudge_kept
    | with_reducible apply Kept.ite
    | split

theorem State.laneRequest_kept {s : State} (h0 : s.Kept q) (a1) (a2) : (State.laneRequest s a1 a2).1.Kept q := by
  unfold State.laneRequest
  repeat' first
    | with_reducible assumption
    | ((with_reducible show Fld.listed _ = true); rfl)
    | (fail_if_no_progress (extract_lets +onlyGivenNames x)
       first
       | (refine Kept.cut (q := q) (x := x) ?_ ?_ <;> [unfold x; ((try clear_value x); intro _)])
       | clear_value x
       | skip)
    | with_reducible apply State.put_kept
    | with_reducible apply State.wr_kept
    | with_reducible apply State.laneGo_kept
    | with_reducible apply Kept.ite
    | with_reducible apply Kept.iteP
    | split

theorem State.laneStateWrite_kept {s : State} (h0 : s.Kept q) (a1) (a2) : (State.laneStateWrite s a1 a2).1.Kept q := by
  unfold State.laneStateWrite
  repeat' first
    | with_reducible assumption
    | ((with_reducible show Fld.listed _ = true); rfl)
    | (fail_if_no_progress (extract_lets +onlyGivenNames x)
       first
       | (refine Kept.cut (q := q) (x := x) ?_ ?_ <;> [unfold x; ((try clear_value x); intro _)])
       | clear_value x
       | skip)
    | with_reducible apply State.put_kept
    | with_reducible apply State.laneRequest_kept
    | with_reducible apply Kept.ite
    | with_reducible apply Kept.iteP
    | split

theorem execLaneStateRequest_kept (a0) (a1) (a2) {s : State} (h0 : s.Kept q) : KeptN q (execLaneStateRequest a0 a1 a2 s) := by
  unfold execLaneStateRequest
  repeat' first
    | with_reducible intro _
    | with_reducible assumption
    | with_reducible apply State.writing_kept
    | with_reducible apply State.laneStateWrite_kept
    | with_reducible apply KeptN.next
    | with_reducible apply Kept.id

theorem State.laneForce_kept {s : State} (h0 : s.Kept q) (a1) (a2) : (State.laneForce s a1 a2).Kept q := by
  unfold State.laneForce
  repeat' first
    | with_reducible assumption
    | ((with_reducible show Fld.listed _ = true); rfl)
    | (fail_if_no_progress (extract_lets +onlyGivenNames x)
       first
       | (refine Kept.cut (q := q) (x := x) ?_ ?_ <;> [unfold x; ((try clear_value x); intro _)])
       | clear_value x
       | skip)
    | with_reducible apply State.wr_kept
    | with_reducible apply State.put_kept
    | with_reducible apply State.laneGo_kept
    | with_reducible apply State.laneMod_kept
    | with_reducible apply Kept.ite
    | split

theorem State.laneMemBad_kept {s : State} (h0 : s.Kept q) (a1) (a2) : (State.laneMemBad s a1 a2).Kept q := by
  unfold State.laneMemBad
  repeat' first
    | with_reducible assumption
    | with_reducible apply State.errorLines_kept
    | with_reducible apply State.laneForce_kept

theorem State.laneLines_kept {s : State} (h0 : s.Kept q) (a1) (a2) (a3) : (State.laneLines s a1 a2 a3).Kept q := by
  unfold State.laneLines
  repeat' first
    | with_reducible assumption
    | with_reducible apply State.laneMemBad_kept
    | with_reducible apply State.errorLines_kept
    | with_reducible apply Kept.ite
    | split

theorem State.laneScan_kept {s : State} (h0 : s.Kept q) (a1) (a2) (a3) : (State.laneScan s a1 a2 a3).Kept q := by
  unfold State.laneScan
  repeat' first
    | with_reducible assumption
    | (fail_if_no_progress (extract_lets +onlyGivenNames x)
       first
       | (refine Kept.cutP (q := q) (x := x) ?_ ?_ <;> [unfold x; ((try clear_value x); intro _)])
       | clear_value x
       | skip)
    | with_reducible apply State.spanRead_kept
    | with_reducible apply State.dataPath_kept
    | with_reducible apply State.laneLines_kept

theorem State.queueOver_kept {s : State} (h0 : s.Kept q) (a1) : (State.queueOver s a1).Kept q := by
  unfold State.queueOver
  repeat' first
    | with_reducible assumption
    | with_reducible apply State.errorLine_kept
    | with_reducible apply State.laneForce_kept

theorem State.sensingStops_kept {s : State} (h0 : s.Kept q) (a1) : (State.sensingStops s a1).Kept q := by
  unfold State.sensingStops
  repeat' first
    | with_reducible assumption
    | ((with_reducible show Fld.listed _ = true); rfl)
    | (fail_if_no_progress (extract_lets +onlyGivenNames x)
       first
       | (refine Kept.cut (q := q) (x := x) ?_ ?_ <;> [unfold x; ((try clear_value x); intro _)])
       | clear_value x
       | skip)
    | with_reducible apply State.laneBit_kept

theorem State.shortSet_kept {s : State} (h0 : s.Kept q) (a1) (a2) (a3) (a4) : (State.shortSet s a1 a2 a3 a4).Kept q := by
  unfold State.shortSet
  repeat' first
    | with_reducible assumption
    | ((with_reducible show Fld.listed _ = true); rfl)
    | (fail_if_no_progress (extract_lets +onlyGivenNames x)
       first
       | (refine Kept.cut (q := q) (x := x) ?_ ?_ <;> [unfold x; ((try clear_value x); intro _)])
       | clear_value x
       | skip)
    | with_reducible apply shortFld_listed
    | with_reducible apply State.laneMod_kept
    | with_reducible apply State.laneBit_kept
    | with_reducible apply State.put_kept
    | with_reducible apply Kept.ite
    | split

theorem State.laneArrive_kept {s : State} (h0 : s.Kept q) (a1) : (State.laneArrive s a1).Kept q := by
  unfold State.laneArrive
  repeat' first
    | with_reducible intro _
    | with_reducible assumption
    | ((with_reducible show Fld.listed _ = true); rfl)
    | (fail_if_no_progress (extract_lets +onlyGivenNames x)
       first
       | (refine Kept.cut (q := q) (x := x) ?_ ?_ <;> [unfold x; ((try clear_value x); intro _)])
       | clear_value x
       | skip)
    | with_reducible apply State.txIdle_kept
    | with_reducible apply State.laneMod_kept
    | with_reducible apply State.put_kept
    | with_reducible apply State.wr_kept
    | with_reducible apply State.sensingStops_kept
    | with_reducible apply State.shortSet_kept
    | with_reducible apply State.acqBegin_kept
    | with_reducible apply State.laneMoved_kept
    | with_reducible apply State.smokeTrack_kept
    | with_reducible apply State.decTrack_kept
    | with_reducible apply State.freezeJudge_kept
    | with_reducible apply Kept.ite
    | split

theorem execLaneTransitionEnd_kept (a0) {s : State} (h0 : s.Kept q) : KeptN q (execLaneTransitionEnd a0 s) := by
  unfold execLaneTransitionEnd
  repeat' first
    | with_reducible assumption
    | with_reducible apply State.laneArrive_kept
    | with_reducible apply KeptN.next
    | with_reducible apply Kept.ite
    | with_reducible apply Kept.iteP
    | split

theorem State.rxCfgWrite_kept {s : State} (h0 : s.Kept q) (a1) (a2) : (State.rxCfgWrite s a1 a2).1.Kept q := by
  unfold State.rxCfgWrite
  repeat' first
    | with_reducible intro _
    | with_reducible assumption
    | ((with_reducible show Fld.listed _ = true); rfl)
    | (fail_if_no_progress (extract_lets +onlyGivenNames x)
       first
       | (refine Kept.cut (q := q) (x := x) ?_ ?_ <;> [unfold x; ((try clear_value x); intro _)])
       | (refine Kept.cutF (q := q) (x := x) ?_ ?_ <;> [(unfold x; beta_reduce); ((try clear_value x); intro _)])
       | (refine Kept.cutF2F (q := q) (x := x) ?_ ?_ <;> [(unfold x; beta_reduce); ((try clear_value x); intro _)])
       | (refine Kept.cutF2 (q := q) (x := x) ?_ ?_ <;> [(unfold x; beta_reduce); ((try clear_value x); intro _)])
       | (refine Kept.cutF22 (q := q) (x := x) ?_ ?_ <;> [(unfold x; beta_reduce); ((try clear_value x); intro _)])
       | (refine Kept.cutF3 (q := q) (x := x) ?_ ?_ <;> [(unfold x; beta_reduce); ((try clear_value x); intro _)])
       | (refine Kept.cutF32 (q := q) (x := x) ?_ ?_ <;> [(unfold x; beta_reduce); ((try clear_value x); intro _)])
       | clear_value x
       | skip)
    | with_reducible apply State.wr_kept
    | with_reducible apply State.rippleCheck_kept
    | with_reducible apply Kept.ite
    | with_reducible apply Kept.iteP
    | split
    | with_reducible apply_assumption

theorem execLaneRxCfgWrite_kept (a0) (a1) (a2) {s : State} (h0 : s.Kept q) : KeptN q (execLaneRxCfgWrite a0 a1 a2 s) := by
  unfold execLaneRxCfgWrite
  repeat' first
    | with_reducible intro _
    | with_reducible assumption
    | with_reducible apply State.writing_kept
    | with_reducible apply State.rxCfgWrite_kept
    | with_reducible apply KeptN.next
    | with_reducible apply Kept.id

theorem execPolarityChange_kept (a0) {s : State} (h0 : s.Kept q) : KeptN q (execPolarityChange a0 s) := by
  unfold execPolarityChange
  repeat' first
    | with_reducible assumption
    | ((with_reducible show Fld.listed _ = true); rfl)
    | with_reducible apply State.laneBit_kept
    | with_reducible apply KeptN.next

theorem execSignalLoss_kept (a0) {s : State} (h0 : s.Kept q) : KeptN q (execSignalLoss a0 s) := by
  unfold execSignalLoss
  repeat' first
    | with_reducible assumption
    | ((with_reducible show Fld.listed _ = true); rfl)
    | with_reducible apply State.laneMoved_kept
    | with_reducible apply State.freezeJudge_kept
    | with_reducible apply State.laneBit_kept
    | with_reducible apply KeptN.next
    | with_reducible apply Kept.ite
    | with_reducible apply Kept.iteP
    | split

theorem execSignalReturn_kept (a0) {s : State} (h0 : s.Kept q) : KeptN q (execSignalReturn a0 s) := by
  unfold execSignalReturn
  repeat' first
    | with_reducible assumption
    | ((with_reducible show Fld.listed _ = true); rfl)
    | (fail_if_no_progress (extract_lets +onlyGivenNames x)
       first
       | (refine Kept.cut (q := q) (x := x) ?_ ?_ <;> [unfold x; ((try clear_value x); intro _)])
       | clear_value x
       | skip)
    | with_reducible apply State.laneBit_kept
    | with_reducible apply State.acqSeason_kept
    | with_reducible apply State.laneMoved_kept
    | with_reducible apply State.freezeJudge_kept
    | with_reducible apply KeptN.next
    | with_reducible apply Kept.ite
    | with_reducible apply Kept.iteP
    | split

theorem State.openCheck_kept {s : State} (h0 : s.Kept q) (a1) (a2) (a3) : (State.openCheck s a1 a2 a3).Kept q := by
  unfold State.openCheck
  repeat' first
    | with_reducible assumption
    | ((with_reducible show Fld.listed _ = true); rfl)
    | (fail_if_no_progress (extract_lets +onlyGivenNames x)
       first
       | clear_value x
       | skip)
    | with_reducible apply State.laneBit_kept

theorem execOpenInputCheck_kept (a0) (a1) (a2) {s : State} (h0 : s.Kept q) : KeptN q (execOpenInputCheck a0 a1 a2 s) := by
  unfold execOpenInputCheck
  repeat' first
    | with_reducible assumption
    | with_reducible apply State.openCheck_kept
    | with_reducible apply KeptN.next
    | with_reducible apply Kept.ite
    | with_reducible apply Kept.iteP
    | split

theorem execWarmStale_kept (a0) {s : State} (h0 : s.Kept q) : KeptN q (execWarmStale a0 s) := by
  unfold execWarmStale
  repeat' first
    | with_reducible assumption
    | ((with_reducible show Fld.listed _ = true); rfl)
    | with_reducible apply State.event_kept
    | with_reducible apply State.put_kept
    | with_reducible apply KeptN.next
    | with_reducible apply Kept.ite
    | with_reducible apply Kept.iteP
    | split

theorem execWarmStaleClear_kept (a0) {s : State} (h0 : s.Kept q) : KeptN q (execWarmStaleClear a0 s) := by
  unfold execWarmStaleClear
  repeat' first
    | with_reducible assumption
    | ((with_reducible show Fld.listed _ = true); rfl)
    | with_reducible apply State.put_kept
    | with_reducible apply KeptN.next
    | with_reducible apply Kept.ite
    | with_reducible apply Kept.iteP
    | split

theorem State.gainChange_kept {s : State} (h0 : s.Kept q) (a1) : (State.gainChange s a1).Kept q := by
  unfold State.gainChange
  repeat' first
    | with_reducible assumption
    | ((with_reducible show Fld.listed _ = true); rfl)
    | (fail_if_no_progress (extract_lets +onlyGivenNames x)
       first
       | (refine Kept.cut (q := q) (x := x) ?_ ?_ <;> [unfold x; ((try clear_value x); intro _)])
       | clear_value x
       | skip)
    | with_reducible apply State.perfLane_kept
    | with_reducible apply State.put_kept
    | with_reducible apply State.event_kept
    | with_reducible apply State.unsettle_kept
    | with_reducible apply State.laneMod_kept

theorem State.gainWritten_kept {s : State} (h0 : s.Kept q) (a1) (a2) : (State.gainWritten s a1 a2).Kept q := by
  unfold State.gainWritten
  repeat' first
    | with_reducible assumption
    | with_reducible apply State.gainChange_kept
    | with_reducible apply Kept.ite
    | split

theorem State.gainDown_kept {s : State} (h0 : s.Kept q) (a1) : (State.gainDown s a1).Kept q := by
  unfold State.gainDown
  repeat' first
    | with_reducible assumption
    | ((with_reducible show Fld.listed _ = true); rfl)
    | (fail_if_no_progress (extract_lets +onlyGivenNames x)
       first
       | clear_value x
       | skip)
    | with_reducible apply State.wr_kept
    | with_reducible apply State.gainChange_kept
    | with_reducible apply Kept.ite
    | split

theorem State.gainUp_kept {s : State} (h0 : s.Kept q) (a1) : (State.gainUp s a1).Kept q := by
  unfold State.gainUp
  repeat' first
    | with_reducible assumption
    | ((with_reducible show Fld.listed _ = true); rfl)
    | (fail_if_no_progress (extract_lets +onlyGivenNames x)
       first
       | clear_value x
       | skip)
    | with_reducible apply State.wr_kept
    | with_reducible apply State.gainChange_kept
    | with_reducible apply Kept.ite
    | split

theorem State.gainStep_kept {s : State} (h0 : s.Kept q) (a1) : (State.gainStep s a1).Kept q := by
  unfold State.gainStep
  repeat' first
    | with_reducible assumption
    | (fail_if_no_progress (extract_lets +onlyGivenNames x)
       first
       | clear_value x
       | skip)
    | with_reducible apply State.gainDown_kept
    | with_reducible apply State.gainUp_kept
    | with_reducible apply Kept.ite
    | split

theorem execGainLoopUpdate_kept (a0) {s : State} (h0 : s.Kept q) : KeptN q (execGainLoopUpdate a0 s) := by
  unfold execGainLoopUpdate
  repeat' first
    | with_reducible assumption
    | ((with_reducible show Fld.listed _ = true); rfl)
    | (fail_if_no_progress (extract_lets +onlyGivenNames x)
       first
       | (refine Kept.cut (q := q) (x := x) ?_ ?_ <;> [unfold x; ((try clear_value x); intro _)])
       | clear_value x
       | skip)
    | with_reducible apply State.wr_kept
    | with_reducible apply State.laneMod_kept
    | with_reducible apply State.gainStep_kept
    | with_reducible apply State.freezeJudge_kept
    | with_reducible apply KeptN.next
    | with_reducible apply Kept.ite
    | with_reducible apply Kept.iteP
    | split

theorem execReconvSlow_kept (a0) {s : State} (h0 : s.Kept q) : KeptN q (execReconvSlow a0 s) := by
  unfold execReconvSlow
  repeat' first
    | with_reducible assumption
    | ((with_reducible show Fld.listed _ = true); rfl)
    | with_reducible apply State.eventIf_kept
    | with_reducible apply KeptN.next

theorem State.reconverge_kept {s : State} (h0 : s.Kept q) (a1) (a2) : (State.reconverge s a1 a2).Kept q := by
  unfold State.reconverge
  repeat' first
    | with_reducible assumption
    | ((with_reducible show Fld.listed _ = true); rfl)
    | (fail_if_no_progress (extract_lets +onlyGivenNames x)
       first
       | (refine Kept.cut (q := q) (x := x) ?_ ?_ <;> [unfold x; ((try clear_value x); intro _)])
       | clear_value x
       | skip)
    | with_reducible apply State.laneMod_kept
    | with_reducible apply State.put_kept
    | with_reducible apply Kept.ite
    | split

theorem State.sweepStep_kept {s : State} (h0 : s.Kept q) (a1) (a2) : (State.sweepStep s a1 a2).Kept q := by
  unfold State.sweepStep
  repeat' first
    | with_reducible assumption
    | ((with_reducible show Fld.listed _ = true); rfl)
    | (fail_if_no_progress (extract_lets +onlyGivenNames x)
       first
       | clear_value x
       | skip)
    | with_reducible apply State.acqFreq_kept
    | with_reducible apply State.wr_kept
    | with_reducible apply State.setLane_kept
    | with_reducible apply Kept.ite
    | split

theorem State.trainStep_kept {s : State} (h0 : s.Kept q) (a1) : (State.trainStep s a1).Kept q := by
  unfold State.trainStep
  repeat' first
    | with_reducible assumption
    | ((with_reducible show Fld.listed _ = true); rfl)
    | (fail_if_no_progress (extract_lets +onlyGivenNames x)
       first
       | clear_value x
       | skip)
    | with_reducible apply State.acqBlind_kept
    | with_reducible apply State.wr_kept
    | with_reducible apply State.laneMod_kept
    | with_reducible apply Kept.ite
    | split

theorem State.figures_kept {s : State} (h0 : s.Kept q) (a1) : (State.figures s a1).Kept q := by
  unfold State.figures
  repeat' first
    | with_reducible assumption
    | ((with_reducible show Fld.listed _ = true); rfl)
    | (fail_if_no_progress (extract_lets +onlyGivenNames x)
       first
       | (refine Kept.cut (q := q) (x := x) ?_ ?_ <;> [unfold x; ((try clear_value x); intro _)])
       | clear_value x
       | skip)
    | with_reducible apply State.wr_kept
    | with_reducible apply State.bump_kept
    | with_reducible apply State.reconverge_kept
    | with_reducible apply State.perfSpread_kept

theorem State.windowNext_kept {s : State} (h0 : s.Kept q) (a1) (a2) : (State.windowNext s a1 a2).Kept q := by
  unfold State.windowNext
  repeat' first
    | with_reducible assumption
    | (fail_if_no_progress (extract_lets +onlyGivenNames x)
       first
       | clear_value x
       | skip)
    | with_reducible apply State.laneMod_kept

theorem execFomWindowEnd_kept (a0) {s : State} (h0 : s.Kept q) : KeptN q (execFomWindowEnd a0 s) := by
  unfold execFomWindowEnd
  repeat' first
    | with_reducible assumption
    | (fail_if_no_progress (extract_lets +onlyGivenNames x)
       first
       | (refine Kept.cut (q := q) (x := x) ?_ ?_ <;> [unfold x; ((try clear_value x); intro _)])
       | clear_value x
       | skip)
    | with_reducible apply State.figures_kept
    | with_reducible apply State.sweepStep_kept
    | with_reducible apply State.trainStep_kept
    | with_reducible apply State.windowNext_kept
    | with_reducible apply KeptN.next
    | with_reducible apply Kept.ite
    | with_reducible apply Kept.iteP
    | split

theorem State.seasonStop_kept {s : State} (h0 : s.Kept q) (a1) : (State.seasonStop s a1).Kept q := by
  unfold State.seasonStop
  repeat' first
    | with_reducible assumption
    | ((with_reducible show Fld.listed _ = true); rfl)
    | (fail_if_no_progress (extract_lets +onlyGivenNames x)
       first
       | (refine Kept.cut (q := q) (x := x) ?_ ?_ <;> [unfold x; ((try clear_value x); intro _)])
       | clear_value x
       | skip)
    | with_reducible apply State.monPause_kept
    | with_reducible apply State.laneMod_kept
    | with_reducible apply State.perfLane_kept
    | with_reducible apply State.put_kept
    | with_reducible apply State.acqSweep_kept
    | with_reducible apply Kept.ite
    | split

theorem State.trimNote_kept {s : State} (h0 : s.Kept q) (a1) (a2) (a3) : (State.trimNote s a1 a2 a3).Kept q := by
  unfold State.trimNote
  repeat' first
    | with_reducible assumption
    | ((with_reducible show Fld.listed _ = true); rfl)
    | with_reducible apply State.put_kept
    | with_reducible apply Kept.ite
    | split

theorem State.trimSolve_kept {s : State} (h0 : s.Kept q) (a1) (a2) (a3) : (State.trimSolve s a1 a2 a3).Kept q := by
  unfold State.trimSolve
  repeat' first
    | with_reducible assumption
    | with_reducible apply State.trimNote_kept
    | with_reducible apply State.rxStore_kept

theorem State.seasonSwap_kept {s : State} (h0 : s.Kept q) (a1) : (State.seasonSwap s a1).Kept q := by
  unfold State.seasonSwap
  repeat' first
    | with_reducible assumption
    | ((with_reducible show Fld.listed _ = true); rfl)
    | (fail_if_no_progress (extract_lets +onlyGivenNames x)
       first
       | clear_value x
       | skip)
    | with_reducible apply State.wr_kept
    | with_reducible apply State.setLane_kept

theorem State.seasonStep_kept {s : State} (h0 : s.Kept q) (a1) (a2) : (State.seasonStep s a1 a2).Kept q := by
  unfold State.seasonStep
  repeat' first
    | with_reducible assumption
    | ((with_reducible show Fld.listed _ = true); rfl)
    | (fail_if_no_progress (extract_lets +onlyGivenNames x)
       first
       | (refine Kept.cut (q := q) (x := x) ?_ ?_ <;> [unfold x; ((try clear_value x); intro _)])
       | clear_value x
       | skip)
    | with_reducible apply State.seasonSwap_kept
    | with_reducible apply State.laneMod_kept
    | with_reducible apply State.seasonStop_kept
    | with_reducible apply State.put_kept
    | with_reducible apply State.event_kept
    | with_reducible apply State.bumpWrap_kept
    | with_reducible apply State.wr_kept
    | with_reducible apply Kept.ite
    | split

theorem execSeasoningStep_kept (a0) (a1) (a2) (a3) {s : State} (h0 : s.Kept q) : KeptN q (execSeasoningStep a0 a1 a2 a3 s) := by
  unfold execSeasoningStep
  repeat' first
    | with_reducible assumption
    | with_reducible apply State.seasonStep_kept
    | with_reducible apply State.trimSolve_kept
    | with_reducible apply KeptN.next
    | with_reducible apply Kept.ite
    | with_reducible apply Kept.iteP
    | split

theorem State.seasonWrite_kept {s : State} (h0 : s.Kept q) (a1) (a2) : (State.seasonWrite s a1 a2).1.Kept q := by
  unfold State.seasonWrite
  repeat' first
    | with_reducible assumption
    | (fail_if_no_progress (extract_lets +onlyGivenNames x)
       first
       | clear_value x
       | skip)
    | with_reducible apply State.seasonGo_kept
    | with_reducible apply Kept.ite
    | with_reducible apply Kept.iteP
    | split

theorem execSeasonStart_kept (a0) (a1) (a2) {s : State} (h0 : s.Kept q) : KeptN q (execSeasonStart a0 a1 a2 s) := by
  unfold execSeasonStart
  repeat' first
    | with_reducible intro _
    | with_reducible assumption
    | with_reducible apply State.writing_kept
    | with_reducible apply State.seasonWrite_kept
    | with_reducible apply KeptN.next
    | with_reducible apply Kept.id

theorem execCdrLockChange_kept (a0) (a1) {s : State} (h0 : s.Kept q) : KeptN q (execCdrLockChange a0 a1 s) := by
  unfold execCdrLockChange
  repeat' first
    | with_reducible assumption
    | ((with_reducible show Fld.listed _ = true); rfl)
    | (fail_if_no_progress (extract_lets +onlyGivenNames x)
       first
       | (refine Kept.cut (q := q) (x := x) ?_ ?_ <;> [unfold x; ((try clear_value x); intro _)])
       | clear_value x
       | skip)
    | with_reducible apply State.laneBit_kept
    | with_reducible apply State.acqBlind_kept
    | with_reducible apply State.wr_kept
    | with_reducible apply State.laneMoved_kept
    | with_reducible apply State.convLost_kept
    | with_reducible apply KeptN.next
    | with_reducible apply Kept.ite
    | with_reducible apply Kept.iteP
    | split

theorem execCdrReacquire_kept (a0) {s : State} (h0 : s.Kept q) : KeptN q (execCdrReacquire a0 s) := by
  unfold execCdrReacquire
  repeat' first
    | with_reducible assumption
    | ((with_reducible show Fld.listed _ = true); rfl)
    | (fail_if_no_progress (extract_lets +onlyGivenNames x)
       first
       | (refine Kept.cut (q := q) (x := x) ?_ ?_ <;> [unfold x; ((try clear_value x); intro _)])
       | clear_value x
       | skip)
    | with_reducible apply State.laneMod_kept
    | with_reducible apply State.drawn_kept
    | with_reducible apply State.wr_kept
    | with_reducible apply KeptN.next
    | with_reducible apply Kept.ite
    | with_reducible apply Kept.iteP
    | split

theorem execElasticQueueOverflow_kept (a0) {s : State} (h0 : s.Kept q) : KeptN q (execElasticQueueOverflow a0 s) := by
  unfold execElasticQueueOverflow
  repeat' first
    | with_reducible assumption
    | with_reducible apply State.queueOver_kept
    | with_reducible apply KeptN.next
    | with_reducible apply Kept.ite
    | with_reducible apply Kept.iteP
    | split

theorem State.laneDeliver_kept {s : State} (h0 : s.Kept q) (a1) (a2) : (State.laneDeliver s a1 a2).Kept q := by
  unfold State.laneDeliver
  repeat' first
    | with_reducible assumption
    | (fail_if_no_progress (extract_lets +onlyGivenNames x)
       first
       | clear_value x
       | skip)
    | with_reducible apply State.setLock_kept
    | with_reducible apply Kept.ite
    | split

theorem State.warmFeed_kept {s : State} (h0 : s.Kept q) (a1) (a2) : (State.warmFeed s a1 a2).Kept q := by
  unfold State.warmFeed
  repeat' first
    | with_reducible intro _
    | with_reducible assumption
    | (fail_if_no_progress (extract_lets +onlyGivenNames x)
       first
       | clear_value x
       | skip)
    | with_reducible apply State.laneMod_kept
    | with_reducible apply Kept.foldlFields
    | exact Reg.fields_listed _ _ (by assumption)
    | with_reducible apply Kept.foldl
    | with_reducible apply Kept.foldlP
    | with_reducible apply Kept.ite
    | split

theorem State.adaptOne_kept {s : State} (h0 : s.Kept q) (a1) (a2) (a3) (a4) : (State.adaptOne s a1 a2 a3 a4).Kept q := by
  unfold State.adaptOne
  repeat' first
    | with_reducible intro _
    | with_reducible assumption
    | (fail_if_no_progress (extract_lets +onlyGivenNames x)
       first
       | clear_value x
       | skip)
    | with_reducible apply State.rxStore_kept
    | with_reducible apply Kept.ite
    | split

theorem State.adapt_kept {s : State} (h0 : s.Kept q) (a1) : (State.adapt s a1).Kept q := by
  unfold State.adapt
  repeat' first
    | with_reducible intro _
    | with_reducible assumption
    | (fail_if_no_progress (extract_lets +onlyGivenNames x)
       first
       | clear_value x
       | skip)
    | with_reducible apply State.adaptOne_kept
    | with_reducible apply Kept.foldlFields
    | exact Reg.fields_listed _ _ (by assumption)
    | with_reducible apply Kept.foldl
    | with_reducible apply Kept.foldlP

theorem State.monSample_kept {s : State} (h0 : s.Kept q) (a1) (a2) : (State.monSample s a1 a2).Kept q := by
  unfold State.monSample
  repeat' first
    | with_reducible assumption
    | ((with_reducible show Fld.listed _ = true); rfl)
    | (fail_if_no_progress (extract_lets +onlyGivenNames x)
       first
       | clear_value x
       | skip)
    | with_reducible apply State.bump_kept
    | with_reducible apply State.st_kept
    | with_reducible apply Kept.ite
    | split

theorem State.eyeFeed_kept {s : State} (h0 : s.Kept q) (a1) : (State.eyeFeed s a1).Kept q := by
  unfold State.eyeFeed
  repeat' first
    | with_reducible intro _
    | with_reducible assumption
    | (fail_if_no_progress (extract_lets +onlyGivenNames x)
       first
       | (refine Kept.cut (q := q) (x := x) ?_ ?_ <;> [unfold x; ((try clear_value x); intro _)])
       | clear_value x
       | skip)
    | with_reducible apply State.laneMod_kept
    | with_reducible apply State.monSample_kept
    | with_reducible apply Kept.foldlFields
    | exact Reg.fields_listed _ _ (by assumption)
    | with_reducible apply Kept.foldl
    | with_reducible apply Kept.foldlP
    | with_reducible apply Kept.ite
    | split

theorem State.rxPass_kept {s : State} (h0 : s.Kept q) (a1) : (State.rxPass s a1).Kept q := by
  unfold State.rxPass
  repeat' first
    | with_reducible assumption
    | (fail_if_no_progress (extract_lets +onlyGivenNames x)
       first
       | clear_value x
       | skip)
    | with_reducible apply State.laneDeliver_kept
    | with_reducible apply State.eyeFeed_kept
    | with_reducible apply State.laneMod_kept

theorem State.rxChunk_kept {s : State} (h0 : s.Kept q) (a1) (a2) : (State.rxChunk s a1 a2).Kept q := by
  unfold State.rxChunk
  repeat' first
    | with_reducible assumption
    | (fail_if_no_progress (extract_lets +onlyGivenNames x)
       first
       | (refine Kept.cut (q := q) (x := x) ?_ ?_ <;> [unfold x; ((try clear_value x); intro _)])
       | clear_value x
       | skip)
    | with_reducible apply State.queueOver_kept
    | with_reducible apply State.laneMod_kept
    | with_reducible apply State.rxPass_kept
    | with_reducible apply Kept.ite
    | split

theorem State.rxFeed_kept {s : State} (h0 : s.Kept q) (a1) (a2) : (State.rxFeed s a1 a2).Kept q := by
  unfold State.rxFeed
  repeat' first
    | with_reducible intro _
    | with_reducible assumption
    | with_reducible apply State.rxChunk_kept
    | with_reducible apply Kept.foldlFields
    | exact Reg.fields_listed _ _ (by assumption)
    | with_reducible apply Kept.foldl
    | with_reducible apply Kept.foldlP
    | with_reducible apply Kept.ite
    | split

theorem State.monFeed_kept {s : State} (h0 : s.Kept q) (a1) : (State.monFeed s a1).Kept q := by
  unfold State.monFeed
  repeat' first
    | with_reducible intro _
    | with_reducible assumption
    | with_reducible apply State.monSample_kept
    | with_reducible apply Kept.foldlFields
    | exact Reg.fields_listed _ _ (by assumption)
    | with_reducible apply Kept.foldl
    | with_reducible apply Kept.foldlP
    | with_reducible apply Kept.ite
    | split

theorem State.eyeTake_kept {s : State} (h0 : s.Kept q) (a1) (a2) : (State.eyeTake s a1 a2).Kept q := by
  unfold State.eyeTake
  repeat' first
    | with_reducible assumption
    | (fail_if_no_progress (extract_lets +onlyGivenNames x)
       first
       | clear_value x
       | skip)
    | with_reducible apply State.laneMod_kept
    | with_reducible apply Kept.ite
    | split

theorem State.sqFeed_kept {s : State} (h0 : s.Kept q) (a1) : (State.sqFeed s a1).Kept q := by
  unfold State.sqFeed
  repeat' first
    | with_reducible intro _
    | with_reducible assumption
    | (fail_if_no_progress (extract_lets +onlyGivenNames x)
       first
       | clear_value x
       | skip)
    | with_reducible apply State.laneMod_kept
    | with_reducible apply Kept.foldlFields
    | exact Reg.fields_listed _ _ (by assumption)
    | with_reducible apply Kept.foldl
    | with_reducible apply Kept.foldlP
    | with_reducible apply Kept.ite
    | split

theorem execAdaptationUpdate_kept (a0) (a1) (a2) {s : State} (h0 : s.Kept q) : KeptN q (execAdaptationUpdate a0 a1 a2 s) := by
  unfold execAdaptationUpdate
  repeat' first
    | with_reducible assumption
    | (fail_if_no_progress (extract_lets +onlyGivenNames x)
       first
       | (refine Kept.cut (q := q) (x := x) ?_ ?_ <;> [unfold x; ((try clear_value x); intro _)])
       | clear_value x
       | skip)
    | with_reducible apply State.rxFeed_kept
    | with_reducible apply State.eyeTake_kept
    | with_reducible apply State.laneScan_kept
    | with_reducible apply State.warmFeed_kept
    | with_reducible apply State.adapt_kept
    | with_reducible apply State.sqFeed_kept
    | with_reducible apply State.monFeed_kept
    | with_reducible apply KeptN.next
    | with_reducible apply Kept.ite
    | with_reducible apply Kept.iteP
    | split

theorem execCoefSnapshot_kept (a0) {s : State} (h0 : s.Kept q) : KeptN q (execCoefSnapshot a0 s) := by
  unfold execCoefSnapshot
  repeat' first
    | with_reducible intro _
    | with_reducible assumption
    | with_reducible apply State.laneMod_kept
    | with_reducible apply State.st_kept
    | with_reducible apply Kept.foldlFields
    | exact Reg.fields_listed _ _ (by assumption)
    | with_reducible apply Kept.foldl
    | with_reducible apply Kept.foldlP
    | with_reducible apply KeptN.next
    | with_reducible apply Kept.ite
    | with_reducible apply Kept.iteP
    | split

theorem execLaneDiverged_kept (a0) {s : State} (h0 : s.Kept q) : KeptN q (execLaneDiverged a0 s) := by
  unfold execLaneDiverged
  repeat' first
    | with_reducible intro _
    | with_reducible assumption
    | ((with_reducible show Fld.listed _ = true); rfl)
    | (fail_if_no_progress (extract_lets +onlyGivenNames x)
       first
       | (refine Kept.cut (q := q) (x := x) ?_ ?_ <;> [unfold x; ((try clear_value x); intro _)])
       | clear_value x
       | skip)
    | with_reducible apply State.rxStore_kept
    | with_reducible apply State.event_kept
    | with_reducible apply State.laneMod_kept
    | with_reducible apply State.laneMoved_kept
    | with_reducible apply State.convLost_kept
    | with_reducible apply State.put_kept
    | with_reducible apply State.acqFreq_kept
    | with_reducible apply Kept.foldlFields
    | exact Reg.fields_listed _ _ (by assumption)
    | with_reducible apply Kept.foldl
    | with_reducible apply Kept.foldlP
    | with_reducible apply KeptN.next
    | with_reducible apply Kept.ite
    | with_reducible apply Kept.iteP
    | split

theorem State.rxIndexNext_kept {s : State} (h0 : s.Kept q) (a1) : (State.rxIndexNext s a1).Kept q := by
  unfold State.rxIndexNext
  repeat' first
    | with_reducible assumption
    | ((with_reducible show Fld.listed _ = true); rfl)
    | with_reducible apply State.wr_kept

theorem State.rxDataWrite_kept {s : State} (h0 : s.Kept q) (a1) (a2) : (State.rxDataWrite s a1 a2).1.Kept q := by
  unfold State.rxDataWrite
  repeat' first
    | with_reducible assumption
    | (fail_if_no_progress (extract_lets +onlyGivenNames x)
       first
       | (refine Kept.cut (q := q) (x := x) ?_ ?_ <;> [unfold x; ((try clear_value x); intro _)])
       | clear_value x
       | skip)
    | with_reducible apply State.rxStore_kept
    | with_reducible apply State.rxIndexNext_kept
    | with_reducible apply State.trimNote_kept
    | with_reducible apply Kept.ite
    | with_reducible apply Kept.iteP
    | split

theorem State.rxDataRead_kept {s : State} (h0 : s.Kept q) (a1) : (State.rxDataRead s a1).1.Kept q := by
  unfold State.rxDataRead
  repeat' first
    | with_reducible assumption
    | (fail_if_no_progress (extract_lets +onlyGivenNames x)
       first
       | (refine Kept.cutP (q := q) (x := x) ?_ ?_ <;> [unfold x; ((try clear_value x); intro _)])
       | clear_value x
       | skip)
    | with_reducible apply State.rxIndexNext_kept
    | with_reducible apply State.memReadL_kept
    | with_reducible apply State.laneLines_kept
    | with_reducible apply Kept.ite
    | with_reducible apply Kept.iteP
    | split

theorem State.readingMem_kept {s : State} (h0 : s.Kept q) (a1) (a2) (a3) {g4 : State → State × _} (hg4 : ∀ y0, y0.Kept q → (g4 y0).1.Kept q) : (State.readingMem s a1 a2 a3 g4).Kept q := by
  unfold State.readingMem
  repeat' first
    | with_reducible intro _
    | with_reducible assumption
    | (fail_if_no_progress (extract_lets +onlyGivenNames x)
       first
       | (refine Kept.cutP (q := q) (x := x) ?_ ?_ <;> [unfold x; ((try clear_value x); intro _)])
       | clear_value x
       | skip)
    | with_reducible apply State.answer_kept
    | with_reducible apply State.touched_kept
    | with_reducible apply Kept.ite
    | split
    | with_reducible apply_assumption

theorem execLaneRxCoefData_kept (a0) (a1) (a2) {s : State} (h0 : s.Kept q) : KeptN q (execLaneRxCoefData a0 a1 a2 s) := by
  unfold execLaneRxCoefData
  repeat' first
    | with_reducible intro _
    | with_reducible assumption
    | with_reducible apply State.writing_kept
    | with_reducible apply State.rxDataWrite_kept
    | with_reducible apply State.readingMem_kept
    | with_reducible apply State.rxDataRead_kept
    | with_reducible apply KeptN.next
    | split
    | (refine Kept.getP ?_ (by assumption) <;> with_reducible apply State.rxDataWrite_kept)
    | (refine Kept.getP ?_ (by assumption) <;> with_reducible apply State.rxDataRead_kept)
    | with_reducible apply Kept.id

theorem execWakeWindowEnd_kept (a0) {s : State} (h0 : s.Kept q) : KeptN q (execWakeWindowEnd a0 s) := by
  unfold execWakeWindowEnd
  repeat' first
    | with_reducible assumption
    | (fail_if_no_progress (extract_lets +onlyGivenNames x)
       first
       | (refine Kept.cut (q := q) (x := x) ?_ ?_ <;> [unfold x; ((try clear_value x); intro _)])
       | clear_value x
       | skip)
    | with_reducible apply State.laneMod_kept
    | with_reducible apply State.convGot_kept
    | with_reducible apply KeptN.next
    | with_reducible apply Kept.ite
    | with_reducible apply Kept.iteP
    | split

theorem execLaneConverged_kept (a0) {s : State} (h0 : s.Kept q) : KeptN q (execLaneConverged a0 s) := by
  unfold execLaneConverged
  repeat' first
    | with_reducible assumption
    | (fail_if_no_progress (extract_lets +onlyGivenNames x)
       first
       | clear_value x
       | skip)
    | with_reducible apply State.convGot_kept
    | with_reducible apply KeptN.next
    | with_reducible apply Kept.ite
    | with_reducible apply Kept.iteP
    | split

theorem execAcqTimeout_kept (a0) {s : State} (h0 : s.Kept q) : KeptN q (execAcqTimeout a0 s) := by
  unfold execAcqTimeout
  repeat' first
    | with_reducible assumption
    | ((with_reducible show Fld.listed _ = true); rfl)
    | with_reducible apply State.acqSweep_kept
    | with_reducible apply State.event_kept
    | with_reducible apply KeptN.next
    | with_reducible apply Kept.ite
    | with_reducible apply Kept.iteP
    | split

theorem execWakeFallback_kept (a0) {s : State} (h0 : s.Kept q) : KeptN q (execWakeFallback a0 s) := by
  unfold execWakeFallback
  repeat' first
    | with_reducible assumption
    | ((with_reducible show Fld.listed _ = true); rfl)
    | with_reducible apply State.acqFreq_kept
    | with_reducible apply State.event_kept
    | with_reducible apply State.laneMod_kept
    | with_reducible apply KeptN.next
    | with_reducible apply Kept.ite
    | with_reducible apply Kept.iteP
    | split

theorem State.laneRxWrite_kept {s : State} (h0 : s.Kept q) (a1) (a2) (a3) : KeptOP q (State.laneRxWrite s a1 a2 a3) := by
  unfold State.laneRxWrite
  repeat' first
    | with_reducible intro _
    | with_reducible assumption
    | ((with_reducible show Fld.listed _ = true); rfl)
    | (fail_if_no_progress (extract_lets +onlyGivenNames x)
       first
       | (refine Kept.cut (q := q) (x := x) ?_ ?_ <;> [unfold x; ((try clear_value x); intro _)])
       | clear_value x
       | skip)
    | with_reducible apply State.laneStateWrite_kept
    | with_reducible apply State.rxCfgWrite_kept
    | with_reducible apply State.seasonWrite_kept
    | with_reducible apply State.rxDataWrite_kept
    | with_reducible apply State.wr_kept
    | with_reducible apply State.gainWritten_kept
    | with_reducible apply State.freezeJudge_kept
    | with_reducible apply Kept.foldlFields
    | exact Reg.fields_listed _ _ (by assumption)
    | with_reducible apply Kept.foldl
    | with_reducible apply Kept.foldlP
    | with_reducible apply KeptOP.none
    | with_reducible apply KeptOP.some
    | split
    | (refine Kept.getP ?_ (by assumption) <;> with_reducible apply State.laneStateWrite_kept)
    | (refine Kept.getP ?_ (by assumption) <;> with_reducible apply State.rxCfgWrite_kept)
    | (refine Kept.getP ?_ (by assumption) <;> with_reducible apply State.seasonWrite_kept)
    | (refine Kept.getP ?_ (by assumption) <;> with_reducible apply State.rxDataWrite_kept)

end Sys2Proof.Machine
end

