-- ==== Sys2Proof/Laws/KeptDecMon.lean ====
section
/-!
SUPPORT. Every operation of Machine/DecMon.lean keeps the stores canonical and the queue as it stands.
-/

set_option linter.unusedVariables false
set_option linter.unusedTactic false
set_option linter.unreachableTactic false
set_option linter.unnecessarySeqFocus false

namespace Sys2Proof.Machine

variable {q : List Instr}

theorem State.decCfgWrite_kept {s : State} (h0 : s.Kept q) (a1) (a2) : (State.decCfgWrite s a1 a2).1.Kept q := by
  unfold State.decCfgWrite
  repeat' first
    | with_reducible assumption
    | ((with_reducible show Fld.listed _ = true); rfl)
    | (fail_if_no_progress (extract_lets +onlyGivenNames x)
       first
       | (refine Kept.cut (q := q) (x := x) ?_ ?_ <;> [unfold x; ((try clear_value x); intro _)])
       | clear_value x
       | skip)
    | with_reducible apply State.wr_kept
    | with_reducible apply State.decTrack_kept
    | with_reducible apply State.decProfile_kept
    | with_reducible apply Kept.ite
    | with_reducible apply Kept.iteP
    | split

theorem execLaneDecCfgWrite_kept (a0) (a1) (a2) {s : State} (h0 : s.Kept q) : KeptN q (execLaneDecCfgWrite a0 a1 a2 s) := by
  unfold execLaneDecCfgWrite
  repeat' first
    | with_reducible intro _
    | with_reducible assumption
    | with_reducible apply State.writing_kept
    | with_reducible apply State.decCfgWrite_kept
    | with_reducible apply KeptN.next
    | with_reducible apply Kept.id

theorem State.decIndexNext_kept {s : State} (h0 : s.Kept q) (a1) : (State.decIndexNext s a1).Kept q := by
  unfold State.decIndexNext
  repeat' first
    | with_reducible assumption
    | ((with_reducible show Fld.listed _ = true); rfl)
    | with_reducible apply State.wr_kept

theorem State.decDataWrite_kept {s : State} (h0 : s.Kept q) (a1) (a2) : (State.decDataWrite s a1 a2).1.Kept q := by
  unfold State.decDataWrite
  repeat' first
    | with_reducible intro _
    | with_reducible assumption
    | ((with_reducible show Fld.listed _ = true); rfl)
    | (fail_if_no_progress (extract_lets +onlyGivenNames x)
       first
       | (refine Kept.cutF (q := q) (x := x) ?_ ?_ <;> [(unfold x; beta_reduce); ((try clear_value x); intro _)])
       | (refine Kept.cutF2F (q := q) (x := x) ?_ ?_ <;> [(unfold x; beta_reduce); ((try clear_value x); intro _)])
       | (refine Kept.cutF2 (q := q) (x := x) ?_ ?_ <;> [(unfold x; beta_reduce); ((try clear_value x); intro _)])
       | (refine Kept.cutF22 (q := q) (x := x) ?_ ?_ <;> [(unfold x; beta_reduce); ((try clear_value x); intro _)])
       | (refine Kept.cutF3 (q := q) (x := x) ?_ ?_ <;> [(unfold x; beta_reduce); ((try clear_value x); intro _)])
       | (refine Kept.cutF32 (q := q) (x := x) ?_ ?_ <;> [(unfold x; beta_reduce); ((try clear_value x); intro _)])
       | clear_value x
       | skip)
    | with_reducible apply State.decStore_kept
    | with_reducible apply State.decIndexNext_kept
    | with_reducible apply State.unsettle_kept
    | with_reducible apply Kept.ite
    | with_reducible apply Kept.iteP
    | split
    | with_reducible apply_assumption

theorem State.decDataRead_kept {s : State} (h0 : s.Kept q) (a1) : (State.decDataRead s a1).1.Kept q := by
  unfold State.decDataRead
  repeat' first
    | with_reducible assumption
    | (fail_if_no_progress (extract_lets +onlyGivenNames x)
       first
       | (refine Kept.cutP (q := q) (x := x) ?_ ?_ <;> [unfold x; ((try clear_value x); intro _)])
       | clear_value x
       | skip)
    | with_reducible apply State.decIndexNext_kept
    | with_reducible apply State.memReadL_kept
    | with_reducible apply State.laneLines_kept
    | with_reducible apply Kept.ite
    | with_reducible apply Kept.iteP
    | split

theorem execLaneDecCoefData_kept (a0) (a1) (a2) {s : State} (h0 : s.Kept q) : KeptN q (execLaneDecCoefData a0 a1 a2 s) := by
  unfold execLaneDecCoefData
  repeat' first
    | with_reducible intro _
    | with_reducible assumption
    | with_reducible apply State.writing_kept
    | with_reducible apply State.decDataWrite_kept
    | with_reducible apply State.readingMem_kept
    | with_reducible apply State.decDataRead_kept
    | with_reducible apply KeptN.next
    | split
    | (refine Kept.getP ?_ (by assumption) <;> with_reducible apply State.decDataWrite_kept)
    | (refine Kept.getP ?_ (by assumption) <;> with_reducible apply State.decDataRead_kept)
    | with_reducible apply Kept.id

theorem State.decSwitch_kept {s : State} (h0 : s.Kept q) (a1) (a2) : (State.decSwitch s a1 a2).1.Kept q := by
  unfold State.decSwitch
  repeat' first
    | with_reducible assumption
    | ((with_reducible show Fld.listed _ = true); rfl)
    | with_reducible apply State.wr_kept
    | with_reducible apply State.put_kept
    | with_reducible apply Kept.ite
    | with_reducible apply Kept.iteP
    | split

theorem execDecSwitch_kept (a0) (a1) (a2) {s : State} (h0 : s.Kept q) : KeptN q (execDecSwitch a0 a1 a2 s) := by
  unfold execDecSwitch
  repeat' first
    | with_reducible intro _
    | with_reducible assumption
    | with_reducible apply State.writing_kept
    | with_reducible apply State.decSwitch_kept
    | with_reducible apply KeptN.next
    | with_reducible apply Kept.id

theorem State.decCapRecord_kept {s : State} (h0 : s.Kept q) (a1) (a2) (a3) (a4) (a5) : (State.decCapRecord s a1 a2 a3 a4 a5).Kept q := by
  unfold State.decCapRecord
  repeat' first
    | with_reducible assumption
    | ((with_reducible show Fld.listed _ = true); rfl)
    | (fail_if_no_progress (extract_lets +onlyGivenNames x)
       first
       | (refine Kept.cut (q := q) (x := x) ?_ ?_ <;> [unfold x; ((try clear_value x); intro _)])
       | clear_value x
       | skip)
    | with_reducible apply State.st_kept
    | with_reducible apply State.setDec_kept
    | with_reducible apply State.wr_kept
    | with_reducible apply State.put_kept
    | with_reducible apply Kept.ite
    | split

theorem State.decCount_kept {s : State} (h0 : s.Kept q) (a1) : (State.decCount s a1).Kept q := by
  unfold State.decCount
  repeat' first
    | with_reducible assumption
    | ((with_reducible show Fld.listed _ = true); rfl)
    | (fail_if_no_progress (extract_lets +onlyGivenNames x)
       first
       | (refine Kept.cut (q := q) (x := x) ?_ ?_ <;> [unfold x; ((try clear_value x); intro _)])
       | clear_value x
       | skip)
    | with_reducible apply State.wr_kept
    | with_reducible apply State.xfadeEnd_kept
    | with_reducible apply Kept.ite
    | split

theorem State.decOutput_kept {s : State} (h0 : s.Kept q) (a1) (a2) (a3) (a4) : (State.decOutput s a1 a2 a3 a4).Kept q := by
  unfold State.decOutput
  repeat' first
    | with_reducible assumption
    | (fail_if_no_progress (extract_lets +onlyGivenNames x)
       first
       | (refine Kept.cut (q := q) (x := x) ?_ ?_ <;> [unfold x; ((try clear_value x); intro _)])
       | clear_value x
       | skip)
    | with_reducible apply State.decCapRecord_kept
    | with_reducible apply State.setDec_kept
    | with_reducible apply State.decCount_kept
    | with_reducible apply State.smokeInput_kept
    | with_reducible apply Kept.ite
    | split

theorem execDecOutput_kept (a0) (a1) {s : State} (h0 : s.Kept q) : KeptN q (execDecOutput a0 a1 s) := by
  unfold execDecOutput
  repeat' first
    | with_reducible assumption
    | (fail_if_no_progress (extract_lets +onlyGivenNames x)
       first
       | (refine Kept.cut (q := q) (x := x) ?_ ?_ <;> [unfold x; ((try clear_value x); intro _)])
       | (refine Kept.cutP (q := q) (x := x) ?_ ?_ <;> [unfold x; ((try clear_value x); intro _)])
       | clear_value x
       | skip)
    | with_reducible apply State.laneScan_kept
    | with_reducible apply State.decStages_kept
    | with_reducible apply State.decOutput_kept
    | with_reducible apply KeptN.next
    | with_reducible apply Kept.ite
    | with_reducible apply Kept.iteP
    | split

theorem State.decCapCtlWrite_kept {s : State} (h0 : s.Kept q) (a1) (a2) : (State.decCapCtlWrite s a1 a2).1.Kept q := by
  unfold State.decCapCtlWrite
  repeat' first
    | with_reducible assumption
    | ((with_reducible show Fld.listed _ = true); rfl)
    | (fail_if_no_progress (extract_lets +onlyGivenNames x)
       first
       | (refine Kept.cut (q := q) (x := x) ?_ ?_ <;> [unfold x; ((try clear_value x); intro _)])
       | clear_value x
       | skip)
    | with_reducible apply State.wr_kept
    | with_reducible apply State.setDec_kept
    | with_reducible apply State.clearMem_kept
    | with_reducible apply State.put_kept
    | with_reducible apply Kept.ite
    | with_reducible apply Kept.iteP
    | split

theorem execDecCaptureStart_kept (a0) (a1) (a2) {s : State} (h0 : s.Kept q) : KeptN q (execDecCaptureStart a0 a1 a2 s) := by
  unfold execDecCaptureStart
  repeat' first
    | with_reducible intro _
    | with_reducible assumption
    | with_reducible apply State.writing_kept
    | with_reducible apply State.decCapCtlWrite_kept
    | with_reducible apply KeptN.next
    | with_reducible apply Kept.id

theorem execDecCaptureStop_kept (a0) (a1) (a2) {s : State} (h0 : s.Kept q) : KeptN q (execDecCaptureStop a0 a1 a2 s) := by
  unfold execDecCaptureStop
  repeat' first
    | with_reducible intro _
    | with_reducible assumption
    | with_reducible apply State.writing_kept
    | with_reducible apply State.decCapCtlWrite_kept
    | with_reducible apply KeptN.next
    | with_reducible apply Kept.id

theorem State.decCapDataRead_kept {s : State} (h0 : s.Kept q) (a1) : (State.decCapDataRead s a1).1.Kept q := by
  unfold State.decCapDataRead
  repeat' first
    | with_reducible assumption
    | ((with_reducible show Fld.listed _ = true); rfl)
    | with_reducible apply State.wr_kept

theorem State.monCtlWrite_kept {s : State} (h0 : s.Kept q) (a1) (a2) : (State.monCtlWrite s a1 a2).1.Kept q := by
  unfold State.monCtlWrite
  extract_lets start fields s1 s2 s3
  have hf : ∀ x ∈ fields, x.listed = true := List.all_eq_true.1 (rfl : fields.all Fld.listed = true)
  have h1 : s1.Kept q := Kept.foldlFields hf (fun t x hx ht => State.wr_kept ht hx _ _) h0
  clear_value s1
  have h3 : s3.Kept q :=
    State.put_kept (State.put_kept (State.wr_kept (State.wr_kept (State.clearMem_kept h1 _ _) rfl _ _) rfl _ _) rfl _ _) rfl _ _
  clear_value s3
  split
  · split
    · exact h0
    · split
      · exact State.put_kept (State.put_kept (State.put_kept h0 rfl _ _) rfl _ _) rfl _ _
      · exact h0
  · split
    · exact h0
    · split
      · exact State.monPause_kept (State.put_kept h3 rfl _ _) _
      · exact h1

theorem execMonStart_kept (a0) (a1) (a2) {s : State} (h0 : s.Kept q) : KeptN q (execMonStart a0 a1 a2 s) := by
  unfold execMonStart
  repeat' first
    | with_reducible intro _
    | with_reducible assumption
    | with_reducible apply State.writing_kept
    | with_reducible apply State.monCtlWrite_kept
    | with_reducible apply KeptN.next
    | with_reducible apply Kept.id

theorem execMonStop_kept (a0) (a1) (a2) {s : State} (h0 : s.Kept q) : KeptN q (execMonStop a0 a1 a2 s) := by
  unfold execMonStop
  repeat' first
    | with_reducible intro _
    | with_reducible assumption
    | with_reducible apply State.writing_kept
    | with_reducible apply State.monCtlWrite_kept
    | with_reducible apply KeptN.next
    | with_reducible apply Kept.id

theorem execMonRunEnd_kept (a0) {s : State} (h0 : s.Kept q) : KeptN q (execMonRunEnd a0 s) := by
  unfold execMonRunEnd
  repeat' first
    | with_reducible assumption
    | ((with_reducible show Fld.listed _ = true); rfl)
    | with_reducible apply State.put_kept
    | with_reducible apply KeptN.next
    | with_reducible apply Kept.ite
    | with_reducible apply Kept.iteP
    | split

theorem State.histRead_kept {s : State} (h0 : s.Kept q) (a1) : (State.histRead s a1).1.Kept q := by
  unfold State.histRead
  repeat' first
    | with_reducible assumption
    | ((with_reducible show Fld.listed _ = true); rfl)
    | with_reducible apply State.wr_kept

theorem execLaneMonHistData_kept (a0) (a1) {s : State} (h0 : s.Kept q) : KeptN q (execLaneMonHistData a0 a1 s) := by
  unfold execLaneMonHistData
  repeat' first
    | with_reducible intro _
    | with_reducible assumption
    | with_reducible apply State.reading_kept
    | with_reducible apply State.histRead_kept
    | with_reducible apply KeptN.next
    | with_reducible apply Kept.id

theorem State.sqLevel_kept {s : State} (h0 : s.Kept q) (a1) (a2) : (State.sqLevel s a1 a2).Kept q := by
  unfold State.sqLevel
  repeat' first
    | with_reducible assumption
    | ((with_reducible show Fld.listed _ = true); rfl)
    | (fail_if_no_progress (extract_lets +onlyGivenNames x)
       first
       | clear_value x
       | skip)
    | exact (sqFlds_listed _).1
    | exact (sqFlds_listed _).2
    | with_reducible apply State.wr_kept
    | with_reducible apply Kept.ite
    | split
    | fail_if_no_progress (with_reducible apply Kept.upd)

theorem State.sqRlm_kept {s : State} (h0 : s.Kept q) (a1) : (State.sqRlm s a1).Kept q := by
  unfold State.sqRlm
  repeat' first
    | with_reducible intro _
    | with_reducible assumption
    | ((with_reducible show Fld.listed _ = true); rfl)
    | (fail_if_no_progress (extract_lets +onlyGivenNames x)
       first
       | clear_value x
       | skip)
    | with_reducible apply State.wr_kept
    | split
    | fail_if_no_progress (with_reducible apply Kept.upd)

theorem execSqWindowEnd_kept (a0) {s : State} (h0 : s.Kept q) : KeptN q (execSqWindowEnd a0 s) := by
  unfold execSqWindowEnd
  repeat' first
    | with_reducible intro _
    | with_reducible assumption
    | ((with_reducible show Fld.listed _ = true); rfl)
    | (fail_if_no_progress (extract_lets +onlyGivenNames x)
       first
       | (refine Kept.cut (q := q) (x := x) ?_ ?_ <;> [unfold x; ((try clear_value x); intro _)])
       | clear_value x
       | skip)
    | exact (sqFlds_listed _).1
    | exact (sqFlds_listed _).2
    | with_reducible apply State.sqRlm_kept
    | with_reducible apply State.sqLevel_kept
    | with_reducible apply State.laneMod_kept
    | with_reducible apply State.put_kept
    | with_reducible apply Kept.foldlFields
    | exact Reg.fields_listed _ _ (by assumption)
    | with_reducible apply Kept.foldl
    | with_reducible apply Kept.foldlP
    | with_reducible apply KeptN.next
    | with_reducible apply Kept.ite
    | with_reducible apply Kept.iteP
    | split

theorem State.decWrite_kept {s : State} (h0 : s.Kept q) (a1) (a2) (a3) : KeptOP q (State.decWrite s a1 a2 a3) := by
  unfold State.decWrite
  repeat' first
    | with_reducible intro _
    | with_reducible assumption
    | ((with_reducible show Fld.listed _ = true); rfl)
    | with_reducible apply State.decCfgWrite_kept
    | with_reducible apply State.unsettle_kept
    | with_reducible apply State.wr_kept
    | with_reducible apply State.decSwitch_kept
    | with_reducible apply State.decDataWrite_kept
    | with_reducible apply State.decCapCtlWrite_kept
    | with_reducible apply State.monCtlWrite_kept
    | with_reducible apply KeptOP.none
    | with_reducible apply KeptOP.some
    | with_reducible apply Kept.ite
    | with_reducible apply Kept.iteP
    | split
    | (refine Kept.getP ?_ (by assumption) <;> with_reducible apply State.decCfgWrite_kept)
    | (refine Kept.getP ?_ (by assumption) <;> with_reducible apply State.decSwitch_kept)
    | (refine Kept.getP ?_ (by assumption) <;> with_reducible apply State.decDataWrite_kept)
    | (refine Kept.getP ?_ (by assumption) <;> with_reducible apply State.decCapCtlWrite_kept)
    | (refine Kept.getP ?_ (by assumption) <;> with_reducible apply State.monCtlWrite_kept)

end Sys2Proof.Machine
end

