-- ==== Sys2Proof/Laws/KeptFault.lean ====
section
/-!
SUPPORT. Every operation of Machine/Fault.lean keeps the stores canonical and the queue as it stands.
-/

set_option linter.unusedVariables false
set_option linter.unusedTactic false
set_option linter.unreachableTactic false
set_option linter.unnecessarySeqFocus false

namespace Sys2Proof.Machine

variable {q : List Instr}

theorem State.charAck_kept {s : State} (h0 : s.Kept q) {f1 : Fld} (hf1 : f1.listed = true) (a2) : (State.charAck s f1 a2).Kept q := by
  unfold State.charAck
  repeat' first
    | with_reducible assumption
    | ((with_reducible show Fld.listed _ = true); rfl)
    | with_reducible apply State.wr_kept

theorem State.reactWrite_kept {s : State} (h0 : s.Kept q) (a1) (a2) : (State.reactWrite s a1 a2).1.Kept q := by
  unfold State.reactWrite
  repeat' first
    | with_reducible assumption
    | ((with_reducible show Fld.listed _ = true); rfl)
    | (fail_if_no_progress (extract_lets +onlyGivenNames x)
       first
       | (refine Kept.cut (q := q) (x := x) ?_ ?_ <;> [unfold x; ((try clear_value x); intro _)])
       | clear_value x
       | skip)
    | with_reducible apply State.wr_kept
    | with_reducible apply State.tvWrite_kept
    | with_reducible apply Kept.ite
    | with_reducible apply Kept.iteP
    | split

theorem State.aliveWrite_kept {s : State} (h0 : s.Kept q) (a1) : (State.aliveWrite s a1).1.Kept q := by
  unfold State.aliveWrite
  repeat' first
    | with_reducible assumption
    | ((with_reducible show Fld.listed _ = true); rfl)
    | (fail_if_no_progress (extract_lets +onlyGivenNames x)
       first
       | (refine Kept.cut (q := q) (x := x) ?_ ?_ <;> [unfold x; ((try clear_value x); intro _)])
       | clear_value x
       | skip)
    | with_reducible apply State.aliveStop_kept
    | with_reducible apply State.put_kept
    | with_reducible apply Kept.ite
    | with_reducible apply Kept.iteP
    | split
    | fail_if_no_progress (with_reducible apply Kept.upd)

theorem State.swSet_kept {s : State} (h0 : s.Kept q) (a1) : (State.swSet s a1).Kept q := by
  unfold State.swSet
  repeat' first
    | with_reducible assumption
    | with_reducible apply State.errorLine_kept
    | with_reducible apply Kept.ite
    | split

theorem State.faultWrite_kept {s : State} (h0 : s.Kept q) (a1) (a2) (a3) : KeptOP q (State.faultWrite s a1 a2 a3) := by
  unfold State.faultWrite
  repeat' first
    | with_reducible intro _
    | with_reducible assumption
    | ((with_reducible show Fld.listed _ = true); rfl)
    | with_reducible apply State.charAck_kept
    | with_reducible apply State.reactWrite_kept
    | with_reducible apply State.aliveWrite_kept
    | with_reducible apply State.swSet_kept
    | with_reducible apply KeptOP.none
    | with_reducible apply KeptOP.some
    | split
    | (refine Kept.getP ?_ (by assumption) <;> with_reducible apply State.reactWrite_kept)
    | (refine Kept.getP ?_ (by assumption) <;> with_reducible apply State.aliveWrite_kept)

theorem execErrorLine_kept (a0) {s : State} (h0 : s.Kept q) : KeptN q (execErrorLine a0 s) := by
  unfold execErrorLine
  repeat' first
    | with_reducible assumption
    | with_reducible apply State.errorLines_kept
    | with_reducible apply KeptN.next

theorem execBlockReset_kept (a0) (a1) {s : State} (h0 : s.Kept q) : KeptN q (execBlockReset a0 a1 s) := by
  unfold execBlockReset
  repeat' first
    | with_reducible assumption
    | with_reducible apply State.resetInstance_kept
    | with_reducible apply KeptN.next

theorem State.blockResetEnd_kept {s : State} (h0 : s.Kept q) (a1) (a2) : (State.blockResetEnd s a1 a2).Kept q := by
  unfold State.blockResetEnd
  repeat' first
    | with_reducible assumption
    | fail_if_no_progress (with_reducible apply Kept.upd)

theorem execCharStatusAck_kept (a0) (a1) (a2) (a3) {s : State} (h0 : s.Kept q) : KeptN q (execCharStatusAck a0 a1 a2 a3 s) := by
  unfold execCharStatusAck
  repeat' first
    | with_reducible intro _
    | with_reducible assumption
    | ((with_reducible show Fld.listed _ = true); rfl)
    | with_reducible apply charHalf_listed
    | with_reducible apply State.errorLines_kept
    | with_reducible apply State.writing_kept
    | with_reducible apply State.errorLinesWon_kept
    | with_reducible apply State.charAck_kept
    | with_reducible apply KeptN.next
    | with_reducible apply Kept.ite
    | with_reducible apply Kept.iteP
    | split
    | with_reducible apply Kept.id

theorem execFaultReactWrite_kept (a0) (a1) (a2) {s : State} (h0 : s.Kept q) : KeptN q (execFaultReactWrite a0 a1 a2 s) := by
  unfold execFaultReactWrite
  repeat' first
    | with_reducible intro _
    | with_reducible assumption
    | with_reducible apply State.writing_kept
    | with_reducible apply State.reactWrite_kept
    | with_reducible apply KeptN.next
    | with_reducible apply Kept.id

theorem execAliveStop_kept (a0) {s : State} (h0 : s.Kept q) : KeptN q (execAliveStop a0 s) := by
  unfold execAliveStop
  repeat' first
    | with_reducible intro _
    | with_reducible assumption
    | with_reducible apply State.writing_kept
    | with_reducible apply State.aliveWrite_kept
    | with_reducible apply KeptN.next
    | with_reducible apply Kept.id

theorem execAliveResume_kept (a0) {s : State} (h0 : s.Kept q) : KeptN q (execAliveResume a0 s) := by
  unfold execAliveResume
  repeat' first
    | with_reducible intro _
    | with_reducible assumption
    | with_reducible apply State.writing_kept
    | with_reducible apply State.aliveWrite_kept
    | with_reducible apply KeptN.next
    | with_reducible apply Kept.id

theorem execAliveHalfPeriod_kept {s : State} (h0 : s.Kept q) : KeptN q (execAliveHalfPeriod s) := by
  unfold execAliveHalfPeriod
  repeat' first
    | with_reducible assumption
    | with_reducible apply KeptN.next
    | with_reducible apply Kept.ite
    | with_reducible apply Kept.iteP
    | split
    | fail_if_no_progress (with_reducible apply Kept.upd)

theorem execEmberOscillatorLoss_kept {s : State} (h0 : s.Kept q) : KeptN q (execEmberOscillatorLoss s) := by
  unfold execEmberOscillatorLoss
  repeat' first
    | with_reducible assumption
    | (fail_if_no_progress (extract_lets +onlyGivenNames x)
       first
       | (refine Kept.cut (q := q) (x := x) ?_ ?_ <;> [unfold x; ((try clear_value x); intro _)])
       | clear_value x
       | skip)
    | with_reducible apply State.aliveStop_kept
    | with_reducible apply KeptN.next
    | with_reducible apply Kept.ite
    | with_reducible apply Kept.iteP
    | split
    | fail_if_no_progress (with_reducible apply Kept.upd)

theorem execFaultSwSet_kept (a0) (a1) {s : State} (h0 : s.Kept q) : KeptN q (execFaultSwSet a0 a1 s) := by
  unfold execFaultSwSet
  repeat' first
    | with_reducible intro _
    | with_reducible assumption
    | with_reducible apply State.writing_kept
    | with_reducible apply State.swSet_kept
    | with_reducible apply KeptN.next
    | with_reducible apply Kept.id

end Sys2Proof.Machine
end

