-- ==== Sys2Proof/Laws/KeptIrq.lean ====
section
/-!
SUPPORT. Every operation of Machine/Irq.lean keeps the stores canonical and the queue as it stands.
-/

set_option linter.unusedVariables false
set_option linter.unusedTactic false
set_option linter.unreachableTactic false
set_option linter.unnecessarySeqFocus false

namespace Sys2Proof.Machine

variable {q : List Instr}

theorem State.irqActivate_kept {s : State} (h0 : s.Kept q) (a1) (a2) : (State.irqActivate s a1 a2).Kept q := by
  unfold State.irqActivate
  repeat' first
    | with_reducible assumption
    | ((with_reducible show Fld.listed _ = true); rfl)
    | (fail_if_no_progress (extract_lets +onlyGivenNames x)
       first
       | (refine Kept.cut (q := q) (x := x) ?_ ?_ <;> [unfold x; ((try clear_value x); intro _)])
       | clear_value x
       | skip)
    | with_reducible apply State.st_kept
    | with_reducible apply State.put_kept
    | with_reducible apply State.wr_kept
    | with_reducible apply Kept.ite
    | split

theorem State.irqDeliver_kept {s : State} (h0 : s.Kept q) (a1) (a2) : (State.irqDeliver s a1 a2).Kept q := by
  unfold State.irqDeliver
  repeat' first
    | with_reducible assumption
    | (fail_if_no_progress (extract_lets +onlyGivenNames x)
       first
       | (refine Kept.cut (q := q) (x := x) ?_ ?_ <;> [unfold x; ((try clear_value x); intro _)])
       | clear_value x
       | skip)
    | with_reducible apply State.irqActivate_kept
    | with_reducible apply State.setBank_kept
    | with_reducible apply State.send_kept
    | with_reducible apply Kept.ite
    | split

theorem State.irqCycle_kept {s : State} (h0 : s.Kept q) (a1) : (State.irqCycle s a1).Kept q := by
  unfold State.irqCycle
  repeat' first
    | with_reducible intro _
    | with_reducible assumption
    | with_reducible apply State.irqDeliver_kept
    | with_reducible apply Kept.ite
    | split

theorem State.resample_kept {s : State} (h0 : s.Kept q) (a1) : (State.resample s a1).Kept q := by
  unfold State.resample
  repeat' first
    | with_reducible assumption
    | ((with_reducible show Fld.listed _ = true); rfl)
    | with_reducible apply State.put_kept
    | with_reducible apply Kept.ite
    | split

theorem State.irqLower_kept {s : State} (h0 : s.Kept q) (a1) (a2) : (State.irqLower s a1 a2).Kept q := by
  unfold State.irqLower
  repeat' first
    | with_reducible assumption
    | ((with_reducible show Fld.listed _ = true); rfl)
    | (fail_if_no_progress (extract_lets +onlyGivenNames x)
       first
       | clear_value x
       | skip)
    | with_reducible apply State.put_kept
    | with_reducible apply State.wr_kept

theorem State.irqDone_kept {s : State} (h0 : s.Kept q) (a1) (a2) : (State.irqDone s a1 a2).Kept q := by
  unfold State.irqDone
  repeat' first
    | with_reducible assumption
    | ((with_reducible show Fld.listed _ = true); rfl)
    | (fail_if_no_progress (extract_lets +onlyGivenNames x)
       first
       | (refine Kept.cut (q := q) (x := x) ?_ ?_ <;> [unfold x; ((try clear_value x); intro _)])
       | clear_value x
       | skip)
    | with_reducible apply State.put_kept
    | with_reducible apply State.resample_kept
    | with_reducible apply State.irqLower_kept
    | with_reducible apply State.bump_kept
    | with_reducible apply Kept.ite
    | split

theorem State.irqComplete_kept {s : State} (h0 : s.Kept q) (a1) (a2) : (State.irqComplete s a1 a2).1.Kept q := by
  unfold State.irqComplete
  repeat' first
    | with_reducible assumption
    | (fail_if_no_progress (extract_lets +onlyGivenNames x)
       first
       | clear_value x
       | skip)
    | with_reducible apply State.irqDone_kept
    | with_reducible apply Kept.ite
    | with_reducible apply Kept.iteP
    | split

theorem State.irqSwSet_kept {s : State} (h0 : s.Kept q) (a1) : (State.irqSwSet s a1).1.Kept q := by
  unfold State.irqSwSet
  repeat' first
    | with_reducible assumption
    | (fail_if_no_progress (extract_lets +onlyGivenNames x)
       first
       | clear_value x
       | skip)
    | with_reducible apply State.irq_kept
    | with_reducible apply Kept.ite
    | with_reducible apply Kept.iteP
    | split

theorem State.maskBit_kept {s : State} (h0 : s.Kept q) (a1) (a2) : (State.maskBit s a1 a2).Kept q := by
  unfold State.maskBit
  repeat' first
    | with_reducible assumption
    | ((with_reducible show Fld.listed _ = true); rfl)
    | with_reducible apply State.put_kept

theorem State.pendingBit_kept {s : State} (h0 : s.Kept q) (a1) (a2) : (State.pendingBit s a1 a2).Kept q := by
  unfold State.pendingBit
  repeat' first
    | with_reducible assumption
    | ((with_reducible show Fld.listed _ = true); rfl)
    | with_reducible apply State.put_kept
    | with_reducible apply State.wr_kept
    | with_reducible apply State.resample_kept
    | with_reducible apply Kept.ite
    | split

theorem State.irqBits_kept {s : State} (h0 : s.Kept q) (a1) (a2) (a3) {g4 : State → _ → _ → State} (hg4 : ∀ y0 y1 y2, y0.Kept q → (g4 y0 y1 y2).Kept q) : (State.irqBits s a1 a2 a3 g4).Kept q := by
  unfold State.irqBits
  repeat' first
    | with_reducible intro _
    | with_reducible assumption
    | with_reducible apply Kept.foldlFields
    | exact Reg.fields_listed _ _ (by assumption)
    | with_reducible apply Kept.foldl
    | with_reducible apply Kept.foldlP
    | with_reducible apply Kept.ite
    | split
    | with_reducible apply_assumption

theorem State.irqSrcWrite_kept {s : State} (h0 : s.Kept q) (a1) (a2) (a3) : (State.irqSrcWrite s a1 a2 a3).1.Kept q := by
  unfold State.irqSrcWrite
  repeat' first
    | with_reducible intro _
    | with_reducible assumption
    | ((with_reducible show Fld.listed _ = true); rfl)
    | (fail_if_no_progress (extract_lets +onlyGivenNames x)
       first
       | (refine Kept.cut (q := q) (x := x) ?_ ?_ <;> [unfold x; ((try clear_value x); intro _)])
       | clear_value x
       | skip)
    | with_reducible apply State.wr_kept
    | with_reducible apply State.resample_kept
    | with_reducible apply Kept.ite
    | with_reducible apply Kept.iteP
    | split

theorem State.irqWrite_kept {s : State} (h0 : s.Kept q) (a1) (a2) (a3) (a4) : KeptOP q (State.irqWrite s a1 a2 a3 a4) := by
  unfold State.irqWrite
  repeat' first
    | with_reducible intro _
    | with_reducible assumption
    | with_reducible apply State.irqComplete_kept
    | with_reducible apply State.irqSwSet_kept
    | with_reducible apply State.irqBits_kept
    | with_reducible apply State.maskBit_kept
    | with_reducible apply State.pendingBit_kept
    | with_reducible apply State.irqSrcWrite_kept
    | with_reducible apply KeptOP.none
    | with_reducible apply KeptOP.some
    | split
    | (refine Kept.getP ?_ (by assumption) <;> with_reducible apply State.irqComplete_kept)
    | (refine Kept.getP ?_ (by assumption) <;> with_reducible apply State.irqSwSet_kept)
    | (refine Kept.getP ?_ (by assumption) <;> with_reducible apply State.irqSrcWrite_kept)
    | with_reducible apply Kept.id

theorem execIrqSourceEvent_kept (a0) {s : State} (h0 : s.Kept q) : KeptN q (execIrqSourceEvent a0 s) := by
  unfold execIrqSourceEvent
  repeat' first
    | with_reducible assumption
    | with_reducible apply State.resample_kept
    | with_reducible apply State.irq_kept
    | with_reducible apply KeptN.next
    | with_reducible apply Kept.ite
    | with_reducible apply Kept.iteP
    | split

theorem execIrqCommit_kept {s : State} (h0 : s.Kept q) : KeptN q (execIrqCommit s) := by
  unfold execIrqCommit
  repeat' first
    | with_reducible intro _
    | with_reducible assumption
    | with_reducible apply State.irqCycle_kept
    | with_reducible apply Kept.foldlFields
    | exact Reg.fields_listed _ _ (by assumption)
    | with_reducible apply Kept.foldl
    | with_reducible apply Kept.foldlP
    | with_reducible apply KeptN.next

end Sys2Proof.Machine
end

