-- ==== Sys2Proof/Laws/KeptRoll.lean ====
section
/-!
SUPPORT. Every operation of Machine/Roll.lean keeps the stores canonical and the queue as it stands.
-/

set_option linter.unusedVariables false
set_option linter.unusedTactic false
set_option linter.unreachableTactic false
set_option linter.unnecessarySeqFocus false

namespace Sys2Proof.Machine

variable {q : List Instr}

theorem State.sendOffer_kept {s : State} (h0 : s.Kept q) (a1) : (State.sendOffer s a1).Kept q := by
  unfold State.sendOffer
  repeat' first
    | with_reducible intro _
    | with_reducible assumption
    | (fail_if_no_progress (extract_lets +onlyGivenNames x)
       first
       | (refine Kept.cutP (q := q) (x := x) ?_ ?_ <;> [unfold x; ((try clear_value x); intro _)])
       | clear_value x
       | skip)
    | with_reducible apply State.slotTake_kept
    | with_reducible apply State.sendCtrl_kept
    | with_reducible apply Kept.ite
    | with_reducible apply Kept.iteP
    | split
    | (refine Kept.getP ?_ (by assumption) <;> with_reducible apply State.slotTake_kept)

theorem State.sendCommit_kept {s : State} (h0 : s.Kept q) (a1) : (State.sendCommit s a1).Kept q := by
  unfold State.sendCommit
  repeat' first
    | with_reducible assumption
    | (fail_if_no_progress (extract_lets +onlyGivenNames x)
       first
       | clear_value x
       | skip)
    | with_reducible apply State.sendCtrl_kept

theorem State.sendAbort_kept {s : State} (h0 : s.Kept q) (a1) (a2) (a3) (a4) : (State.sendAbort s a1 a2 a3 a4).Kept q := by
  unfold State.sendAbort
  repeat' first
    | with_reducible assumption
    | with_reducible apply State.sendCtrl_kept

theorem State.rollEnd_kept {s : State} (h0 : s.Kept q) (a1) (a2) : (State.rollEnd s a1 a2).Kept q := by
  unfold State.rollEnd
  repeat' first
    | with_reducible assumption
    | ((with_reducible show Fld.listed _ = true); rfl)
    | (fail_if_no_progress (extract_lets +onlyGivenNames x)
       first
       | clear_value x
       | skip)
    | with_reducible apply State.rollResult_kept
    | with_reducible apply State.wr_kept
    | with_reducible apply State.setTtx_kept

theorem State.rollAbort_kept {s : State} (h0 : s.Kept q) (a1) (a2) (a3) : (State.rollAbort s a1 a2 a3).Kept q := by
  unfold State.rollAbort
  repeat' first
    | with_reducible assumption
    | with_reducible apply State.rollEnd_kept
    | with_reducible apply State.sendAbort_kept

theorem State.rollStart_kept {s : State} (h0 : s.Kept q) (a1) : (State.rollStart s a1).1.Kept q := by
  unfold State.rollStart
  repeat' first
    | with_reducible assumption
    | ((with_reducible show Fld.listed _ = true); rfl)
    | (fail_if_no_progress (extract_lets +onlyGivenNames x)
       first
       | (refine Kept.cut (q := q) (x := x) ?_ ?_ <;> [unfold x; ((try clear_value x); intro _)])
       | clear_value x
       | skip)
    | with_reducible apply State.voteSlots_kept
    | with_reducible apply State.voteTx_kept
    | with_reducible apply State.setTtx_kept
    | with_reducible apply State.sendOffer_kept
    | with_reducible apply State.wr_kept
    | with_reducible apply Kept.ite
    | with_reducible apply Kept.iteP
    | split

theorem State.rollWrite_kept {s : State} (h0 : s.Kept q) (a1) (a2) : (State.rollWrite s a1 a2).1.Kept q := by
  unfold State.rollWrite
  repeat' first
    | with_reducible assumption
    | with_reducible apply State.rollAbort_kept
    | with_reducible apply State.rollStart_kept
    | with_reducible apply Kept.ite
    | with_reducible apply Kept.iteP
    | split

theorem execRollStart_kept (a0) (a1) {s : State} (h0 : s.Kept q) : KeptN q (execRollStart a0 a1 s) := by
  unfold execRollStart
  repeat' first
    | with_reducible intro _
    | with_reducible assumption
    | with_reducible apply State.writing_kept
    | with_reducible apply State.rollWrite_kept
    | with_reducible apply KeptN.next
    | with_reducible apply Kept.id

theorem execRollAbortCmd_kept (a0) (a1) {s : State} (h0 : s.Kept q) : KeptN q (execRollAbortCmd a0 a1 s) := by
  unfold execRollAbortCmd
  repeat' first
    | with_reducible intro _
    | with_reducible assumption
    | with_reducible apply State.writing_kept
    | with_reducible apply State.rollWrite_kept
    | with_reducible apply KeptN.next
    | with_reducible apply Kept.id

theorem execRollMessageRepeat_kept (a0) {s : State} (h0 : s.Kept q) : KeptN q (execRollMessageRepeat a0 s) := by
  unfold execRollMessageRepeat
  repeat' first
    | with_reducible intro _
    | with_reducible assumption
    | with_reducible apply State.sendOffer_kept
    | with_reducible apply State.sendCommit_kept
    | with_reducible apply KeptN.next
    | split

theorem State.offerTake_kept {s : State} (h0 : s.Kept q) (a1) (a2) (a3) (a4) : (State.offerTake s a1 a2 a3 a4).Kept q := by
  unfold State.offerTake
  repeat' first
    | with_reducible intro _
    | with_reducible assumption
    | ((with_reducible show Fld.listed _ = true); rfl)
    | (fail_if_no_progress (extract_lets +onlyGivenNames x)
       first
       | (refine Kept.cut (q := q) (x := x) ?_ ?_ <;> [unfold x; ((try clear_value x); intro _)])
       | (refine Kept.cutP (q := q) (x := x) ?_ ?_ <;> [unfold x; ((try clear_value x); intro _)])
       | (refine Kept.cutF (q := q) (x := x) ?_ ?_ <;> [(unfold x; beta_reduce); ((try clear_value x); intro _)])
       | (refine Kept.cutF2F (q := q) (x := x) ?_ ?_ <;> [(unfold x; beta_reduce); ((try clear_value x); intro _)])
       | (refine Kept.cutF2 (q := q) (x := x) ?_ ?_ <;> [(unfold x; beta_reduce); ((try clear_value x); intro _)])
       | (refine Kept.cutF22 (q := q) (x := x) ?_ ?_ <;> [(unfold x; beta_reduce); ((try clear_value x); intro _)])
       | (refine Kept.cutF3 (q := q) (x := x) ?_ ?_ <;> [(unfold x; beta_reduce); ((try clear_value x); intro _)])
       | (refine Kept.cutF32 (q := q) (x := x) ?_ ?_ <;> [(unfold x; beta_reduce); ((try clear_value x); intro _)])
       | clear_value x
       | skip)
    | with_reducible apply State.sendCtrl_kept
    | with_reducible apply State.sendAbort_kept
    | with_reducible apply State.slotTake_kept
    | with_reducible apply State.setTrx_kept
    | with_reducible apply State.wr_kept
    | with_reducible apply Kept.ite
    | with_reducible apply Kept.iteP
    | split
    | (refine Kept.getP ?_ (by assumption) <;> with_reducible apply State.slotTake_kept)
    | with_reducible apply_assumption

theorem execRollOffer_kept (a0) (a1) (a2) (a3) {s : State} (h0 : s.Kept q) : KeptN q (execRollOffer a0 a1 a2 a3 s) := by
  unfold execRollOffer
  repeat' first
    | with_reducible assumption
    | with_reducible apply State.offerTake_kept
    | with_reducible apply State.voteSlots_kept
    | with_reducible apply KeptN.next

theorem State.acceptTake_kept {s : State} (h0 : s.Kept q) (a1) (a2) (a3) : (State.acceptTake s a1 a2 a3).Kept q := by
  unfold State.acceptTake
  repeat' first
    | with_reducible assumption
    | ((with_reducible show Fld.listed _ = true); rfl)
    | (fail_if_no_progress (extract_lets +onlyGivenNames x)
       first
       | clear_value x
       | skip)
    | with_reducible apply State.wr_kept
    | with_reducible apply Kept.ite
    | split

theorem execRollAccept_kept (a0) (a1) (a2) {s : State} (h0 : s.Kept q) : KeptN q (execRollAccept a0 a1 a2 s) := by
  unfold execRollAccept
  repeat' first
    | with_reducible assumption
    | with_reducible apply State.acceptTake_kept
    | with_reducible apply State.voteSlots_kept
    | with_reducible apply State.voteTx_kept
    | with_reducible apply KeptN.next

theorem State.commitTake_kept {s : State} (h0 : s.Kept q) (a1) (a2) (a3) : (State.commitTake s a1 a2 a3).Kept q := by
  unfold State.commitTake
  repeat' first
    | with_reducible intro _
    | with_reducible assumption
    | ((with_reducible show Fld.listed _ = true); rfl)
    | (fail_if_no_progress (extract_lets +onlyGivenNames x)
       first
       | clear_value x
       | skip)
    | with_reducible apply State.sendCtrl_kept
    | with_reducible apply State.rollRetire_kept
    | with_reducible apply State.wr_kept
    | with_reducible apply Kept.ite
    | split

theorem execRollCommit_kept (a0) (a1) (a2) {s : State} (h0 : s.Kept q) : KeptN q (execRollCommit a0 a1 a2 s) := by
  unfold execRollCommit
  repeat' first
    | with_reducible assumption
    | with_reducible apply State.commitTake_kept
    | with_reducible apply State.voteSlots_kept
    | with_reducible apply State.voteRx_kept
    | with_reducible apply KeptN.next

theorem State.doneTake_kept {s : State} (h0 : s.Kept q) (a1) (a2) : (State.doneTake s a1 a2).Kept q := by
  unfold State.doneTake
  repeat' first
    | with_reducible assumption
    | (fail_if_no_progress (extract_lets +onlyGivenNames x)
       first
       | clear_value x
       | skip)
    | with_reducible apply State.rollEnd_kept
    | with_reducible apply Kept.ite
    | split

theorem execRollDone_kept (a0) (a1) {s : State} (h0 : s.Kept q) : KeptN q (execRollDone a0 a1 s) := by
  unfold execRollDone
  repeat' first
    | with_reducible assumption
    | with_reducible apply State.doneTake_kept
    | with_reducible apply State.voteSlots_kept
    | with_reducible apply State.voteTx_kept
    | with_reducible apply KeptN.next

theorem State.abortTake_kept {s : State} (h0 : s.Kept q) (a1) (a2) (a3) (a4) : (State.abortTake s a1 a2 a3 a4).Kept q := by
  unfold State.abortTake
  repeat' first
    | with_reducible assumption
    | ((with_reducible show Fld.listed _ = true); rfl)
    | (fail_if_no_progress (extract_lets +onlyGivenNames x)
       first
       | clear_value x
       | skip)
    | with_reducible apply State.rollEnd_kept
    | with_reducible apply State.rollResult_kept
    | with_reducible apply State.wr_kept
    | with_reducible apply State.setTrx_kept
    | with_reducible apply Kept.ite
    | split

theorem execRollAbort_kept (a0) (a1) (a2) (a3) {s : State} (h0 : s.Kept q) : KeptN q (execRollAbort a0 a1 a2 a3 s) := by
  unfold execRollAbort
  repeat' first
    | with_reducible assumption
    | with_reducible apply State.abortTake_kept
    | with_reducible apply KeptN.next

theorem State.sendMessage_kept {s : State} (h0 : s.Kept q) (a1) (a2) : (State.sendMessage s a1 a2).Kept q := by
  unfold State.sendMessage
  repeat' first
    | with_reducible assumption
    | with_reducible apply State.sendCtrl_kept

theorem State.dropBelow_kept {s : State} (h0 : s.Kept q) (a1) (a2) : (State.dropBelow s a1 a2).Kept q := by
  unfold State.dropBelow
  repeat' first
    | with_reducible assumption
    | (fail_if_no_progress (extract_lets +onlyGivenNames x)
       first
       | (refine Kept.cut (q := q) (x := x) ?_ ?_ <;> [unfold x; ((try clear_value x); intro _)])
       | clear_value x
       | skip)
    | with_reducible apply State.setTtx_kept
    | with_reducible apply State.setProt_kept
    | with_reducible apply State.holdRelease_kept
    | fail_if_no_progress (with_reducible apply Kept.upd)

theorem State.rollCommit_kept {s : State} (h0 : s.Kept q) (a1) (a2) : (State.rollCommit s a1 a2).Kept q := by
  unfold State.rollCommit
  repeat' first
    | with_reducible intro _
    | with_reducible assumption
    | ((with_reducible show Fld.listed _ = true); rfl)
    | (fail_if_no_progress (extract_lets +onlyGivenNames x)
       first
       | (refine Kept.cut (q := q) (x := x) ?_ ?_ <;> [unfold x; ((try clear_value x); intro _)])
       | clear_value x
       | skip)
    | with_reducible apply State.dropBelow_kept
    | with_reducible apply State.wr_kept
    | with_reducible apply State.setProt_kept
    | with_reducible apply State.sendCommit_kept
    | with_reducible apply State.sendMessage_kept
    | with_reducible apply State.keyPromote_kept
    | with_reducible apply Kept.foldlFields
    | exact Reg.fields_listed _ _ (by assumption)
    | with_reducible apply Kept.foldl
    | with_reducible apply Kept.foldlP

theorem execRollCommitPoint_kept (a0) {s : State} (h0 : s.Kept q) : KeptN q (execRollCommitPoint a0 s) := by
  unfold execRollCommitPoint
  repeat' first
    | with_reducible intro _
    | with_reducible assumption
    | (fail_if_no_progress (extract_lets +onlyGivenNames x)
       first
       | (refine Kept.cut (q := q) (x := x) ?_ ?_ <;> [unfold x; ((try clear_value x); intro _)])
       | clear_value x
       | skip)
    | with_reducible apply State.voteSlots_kept
    | with_reducible apply State.voteTx_kept
    | with_reducible apply State.rollCommit_kept
    | with_reducible apply KeptN.next
    | with_reducible apply Kept.ite
    | with_reducible apply Kept.iteP
    | split

theorem State.sendGapFrom_kept {s : State} (h0 : s.Kept q) (a1) (a2) (a3) (a4) : (State.sendGapFrom s a1 a2 a3 a4).Kept q := by
  unfold State.sendGapFrom
  repeat' first
    | with_reducible assumption
    | with_reducible apply State.sendGap_kept
    | with_reducible apply Kept.ite
    | split

theorem State.rollForce_kept {s : State} (h0 : s.Kept q) (a1) (a2) : (State.rollForce s a1 a2).Kept q := by
  unfold State.rollForce
  repeat' first
    | with_reducible assumption
    | (fail_if_no_progress (extract_lets +onlyGivenNames x)
       first
       | (refine Kept.cut (q := q) (x := x) ?_ ?_ <;> [unfold x; ((try clear_value x); intro _)])
       | clear_value x
       | skip)
    | with_reducible apply State.sendGapFrom_kept
    | with_reducible apply State.setTtx_kept
    | with_reducible apply State.setProt_kept
    | with_reducible apply State.setTxSeq_kept
    | with_reducible apply State.rollResult_kept
    | with_reducible apply State.rollCommit_kept
    | with_reducible apply Kept.ite
    | split

theorem State.txTimeout_kept {s : State} (h0 : s.Kept q) (a1) : (State.txTimeout s a1).Kept q := by
  unfold State.txTimeout
  repeat' first
    | with_reducible intro _
    | with_reducible assumption
    | (fail_if_no_progress (extract_lets +onlyGivenNames x)
       first
       | clear_value x
       | skip)
    | with_reducible apply State.rollEnd_kept
    | with_reducible apply State.rollForce_kept
    | with_reducible apply State.rollAbort_kept
    | split

theorem State.rxTimeout_kept {s : State} (h0 : s.Kept q) (a1) : (State.rxTimeout s a1).Kept q := by
  unfold State.rxTimeout
  repeat' first
    | with_reducible intro _
    | with_reducible assumption
    | (fail_if_no_progress (extract_lets +onlyGivenNames x)
       first
       | clear_value x
       | skip)
    | with_reducible apply State.mergeGo_kept
    | with_reducible apply State.setProt_kept
    | with_reducible apply Kept.ite
    | split

theorem execRollTimeout_kept (a0) (a1) {s : State} (h0 : s.Kept q) : KeptN q (execRollTimeout a0 a1 s) := by
  unfold execRollTimeout
  repeat' first
    | with_reducible assumption
    | with_reducible apply State.rxTimeout_kept
    | with_reducible apply State.voteTun_kept
    | with_reducible apply State.txTimeout_kept
    | with_reducible apply KeptN.next
    | with_reducible apply Kept.ite
    | with_reducible apply Kept.iteP
    | split

theorem execKeyLoad_kept (a0) (a1) (a2) (a3) {s : State} (h0 : s.Kept q) : KeptN q (execKeyLoad a0 a1 a2 a3 s) := by
  unfold execKeyLoad
  repeat' first
    | with_reducible intro _
    | with_reducible assumption
    | with_reducible apply State.writing_kept
    | with_reducible apply State.keyLoadWrite_kept
    | with_reducible apply KeptN.next
    | with_reducible apply Kept.id

theorem State.zeroiseAll_kept {s : State} (h0 : s.Kept q) : (State.zeroiseAll s).Kept q := by
  unfold State.zeroiseAll
  repeat' first
    | with_reducible intro _
    | with_reducible assumption
    | ((with_reducible show Fld.listed _ = true); rfl)
    | with_reducible apply State.unlessReset_kept
    | with_reducible apply State.newEpoch_kept
    | with_reducible apply State.event_kept
    | with_reducible apply State.keysZero_kept
    | with_reducible apply State.flagBeacons_kept
    | with_reducible apply Kept.id

theorem State.zeroiseWrite_kept {s : State} (h0 : s.Kept q) (a1) : (State.zeroiseWrite s a1).1.Kept q := by
  unfold State.zeroiseWrite
  repeat' first
    | with_reducible assumption
    | with_reducible apply State.zeroiseAll_kept
    | with_reducible apply State.slotZero_kept
    | with_reducible apply Kept.ite
    | with_reducible apply Kept.iteP
    | split

theorem execKeyZeroiseSlot_kept (a0) (a1) {s : State} (h0 : s.Kept q) : KeptN q (execKeyZeroiseSlot a0 a1 s) := by
  unfold execKeyZeroiseSlot
  repeat' first
    | with_reducible intro _
    | with_reducible assumption
    | with_reducible apply State.writing_kept
    | with_reducible apply State.zeroiseWrite_kept
    | with_reducible apply KeptN.next
    | with_reducible apply Kept.id

theorem execKeyZeroiseAll_kept (a0) {s : State} (h0 : s.Kept q) : KeptN q (execKeyZeroiseAll a0 s) := by
  unfold execKeyZeroiseAll
  repeat' first
    | with_reducible intro _
    | with_reducible assumption
    | with_reducible apply State.writing_kept
    | with_reducible apply State.zeroiseWrite_kept
    | with_reducible apply KeptN.next
    | with_reducible apply Kept.id

theorem execTamperInput_kept (a0) {s : State} (h0 : s.Kept q) : KeptN q (execTamperInput a0 s) := by
  unfold execTamperInput
  repeat' first
    | with_reducible intro _
    | with_reducible assumption
    | ((with_reducible show Fld.listed _ = true); rfl)
    | (fail_if_no_progress (extract_lets +onlyGivenNames x)
       first
       | (refine Kept.cut (q := q) (x := x) ?_ ?_ <;> [unfold x; ((try clear_value x); intro _)])
       | clear_value x
       | skip)
    | with_reducible apply State.errorLine_kept
    | with_reducible apply State.unlessReset_kept
    | with_reducible apply State.zeroiseAll_kept
    | with_reducible apply State.event_kept
    | with_reducible apply KeptN.next
    | with_reducible apply Kept.ite
    | with_reducible apply Kept.iteP
    | split
    | fail_if_no_progress (with_reducible apply Kept.upd)
    | with_reducible apply Kept.id

theorem State.epochTunnel_kept {s : State} (h0 : s.Kept q) (a1) : (State.epochTunnel s a1).Kept q := by
  unfold State.epochTunnel
  repeat' first
    | with_reducible intro _
    | with_reducible assumption
    | ((with_reducible show Fld.listed _ = true); rfl)
    | (fail_if_no_progress (extract_lets +onlyGivenNames x)
       first
       | (refine Kept.cut (q := q) (x := x) ?_ ?_ <;> [unfold x; ((try clear_value x); intro _)])
       | clear_value x
       | skip)
    | with_reducible apply State.rollResult_kept
    | with_reducible apply State.wr_kept
    | with_reducible apply State.slotsZero_kept
    | with_reducible apply State.holdRelease_kept
    | with_reducible apply State.dropReads_kept
    | with_reducible apply State.declareGap_kept
    | with_reducible apply State.setTrx_kept
    | with_reducible apply State.pauseCheck_kept
    | with_reducible apply State.setTtx_kept
    | with_reducible apply State.event_kept
    | with_reducible apply State.mergeStatus_kept
    | with_reducible apply State.setRxH_kept
    | with_reducible apply State.setRxD_kept
    | with_reducible apply State.setTxSeq_kept
    | with_reducible apply State.setProt_kept
    | with_reducible apply Kept.foldlFields
    | exact Reg.fields_listed _ _ (by assumption)
    | with_reducible apply Kept.foldl
    | with_reducible apply Kept.foldlP
    | with_reducible apply Kept.ite
    | split

theorem State.epochAct_kept {s : State} (h0 : s.Kept q) : (State.epochAct s).Kept q := by
  unfold State.epochAct
  repeat' first
    | with_reducible intro _
    | with_reducible assumption
    | ((with_reducible show Fld.listed _ = true); rfl)
    | with_reducible apply State.put_kept
    | with_reducible apply State.epochTunnel_kept
    | with_reducible apply Kept.foldlFields
    | exact Reg.fields_listed _ _ (by assumption)
    | with_reducible apply Kept.foldl
    | with_reducible apply Kept.foldlP

theorem State.epochTake_kept {s : State} (h0 : s.Kept q) (a1) : (State.epochTake s a1).Kept q := by
  unfold State.epochTake
  repeat' first
    | with_reducible assumption
    | ((with_reducible show Fld.listed _ = true); rfl)
    | with_reducible apply State.put_kept
    | with_reducible apply State.wr_kept
    | with_reducible apply State.epochAct_kept
    | with_reducible apply Kept.ite
    | split

theorem State.tunCfgWrite_kept {s : State} (h0 : s.Kept q) (a1) (a2) : (State.tunCfgWrite s a1 a2).1.Kept q := by
  unfold State.tunCfgWrite
  repeat' first
    | with_reducible assumption
    | ((with_reducible show Fld.listed _ = true); rfl)
    | (fail_if_no_progress (extract_lets +onlyGivenNames x)
       first
       | (refine Kept.cut (q := q) (x := x) ?_ ?_ <;> [unfold x; ((try clear_value x); intro _)])
       | (refine Kept.cutP (q := q) (x := x) ?_ ?_ <;> [unfold x; ((try clear_value x); intro _)])
       | clear_value x
       | skip)
    | with_reducible apply State.wr_kept
    | with_reducible apply State.commit_kept
    | with_reducible apply State.rideCheck_kept
    | with_reducible apply State.holdUpdate_kept
    | with_reducible apply State.tallyGap_kept
    | with_reducible apply State.tunState_kept
    | with_reducible apply Kept.ite
    | with_reducible apply Kept.iteP
    | split

theorem State.tunLimitsWrite_kept {s : State} (h0 : s.Kept q) (a1) (a2) : (State.tunLimitsWrite s a1 a2).1.Kept q := by
  unfold State.tunLimitsWrite
  repeat' first
    | with_reducible assumption
    | ((with_reducible show Fld.listed _ = true); rfl)
    | (fail_if_no_progress (extract_lets +onlyGivenNames x)
       first
       | (refine Kept.cut (q := q) (x := x) ?_ ?_ <;> [unfold x; ((try clear_value x); intro _)])
       | (refine Kept.cutP (q := q) (x := x) ?_ ?_ <;> [unfold x; ((try clear_value x); intro _)])
       | clear_value x
       | skip)
    | with_reducible apply State.wr_kept
    | with_reducible apply State.setTtx_kept
    | with_reducible apply State.commit_kept
    | with_reducible apply State.holdUpdate_kept
    | with_reducible apply Kept.ite
    | with_reducible apply Kept.iteP
    | split

theorem State.tunWinWrite_kept {s : State} (h0 : s.Kept q) (a1) (a2) : (State.tunWinWrite s a1 a2).1.Kept q := by
  unfold State.tunWinWrite
  repeat' first
    | with_reducible assumption
    | ((with_reducible show Fld.listed _ = true); rfl)
    | (fail_if_no_progress (extract_lets +onlyGivenNames x)
       first
       | (refine Kept.cut (q := q) (x := x) ?_ ?_ <;> [unfold x; ((try clear_value x); intro _)])
       | clear_value x
       | skip)
    | with_reducible apply State.wr_kept
    | with_reducible apply Kept.ite
    | with_reducible apply Kept.iteP
    | split

theorem State.tunWrite_kept {s : State} (h0 : s.Kept q) (a1) (a2) (a3) : KeptOP q (State.tunWrite s a1 a2 a3) := by
  unfold State.tunWrite
  repeat' first
    | with_reducible intro _
    | with_reducible assumption
    | with_reducible apply State.tunCfgWrite_kept
    | with_reducible apply State.tunLimitsWrite_kept
    | with_reducible apply State.tunWinWrite_kept
    | with_reducible apply State.rollWrite_kept
    | with_reducible apply State.keyLoadWrite_kept
    | with_reducible apply State.keyLimitWrite_kept
    | with_reducible apply State.zeroiseWrite_kept
    | with_reducible apply KeptOP.none
    | with_reducible apply KeptOP.some
    | split
    | (refine Kept.getP ?_ (by assumption) <;> with_reducible apply State.tunCfgWrite_kept)
    | (refine Kept.getP ?_ (by assumption) <;> with_reducible apply State.tunLimitsWrite_kept)
    | (refine Kept.getP ?_ (by assumption) <;> with_reducible apply State.tunWinWrite_kept)
    | (refine Kept.getP ?_ (by assumption) <;> with_reducible apply State.rollWrite_kept)
    | (refine Kept.getP ?_ (by assumption) <;> with_reducible apply State.keyLoadWrite_kept)
    | (refine Kept.getP ?_ (by assumption) <;> with_reducible apply State.zeroiseWrite_kept)

end Sys2Proof.Machine
end

