-- ==== Sys2Proof/Laws/KeptRx.lean ====
section
/-!
SUPPORT. Every operation of Machine/Rx.lean keeps the stores canonical and the queue as it stands.
-/

set_option linter.unusedVariables false
set_option linter.unusedTactic false
set_option linter.unreachableTactic false
set_option linter.unnecessarySeqFocus false

namespace Sys2Proof.Machine

variable {q : List Instr}

theorem execBundleRelease_kept (a0) {s : State} (h0 : s.Kept q) : KeptN q (execBundleRelease a0 s) := by
  unfold execBundleRelease
  repeat' first
    | with_reducible assumption
    | (fail_if_no_progress (extract_lets +onlyGivenNames x)
       first
       | (refine Kept.cut (q := q) (x := x) ?_ ?_ <;> [unfold x; ((try clear_value x); intro _)])
       | (refine Kept.cutP (q := q) (x := x) ?_ ?_ <;> [unfold x; ((try clear_value x); intro _)])
       | clear_value x
       | skip)
    | with_reducible apply State.voteSlots_kept
    | with_reducible apply State.voteTx_kept
    | with_reducible apply State.releaseBundle_kept
    | with_reducible apply State.rollAbort_kept
    | with_reducible apply KeptN.next
    | with_reducible apply Kept.ite
    | with_reducible apply Kept.iteP
    | split

theorem State.releaseDone_kept {s : State} (h0 : s.Kept q) (a1) (a2) : (State.releaseDone s a1 a2).Kept q := by
  induction a2 generalizing s with
  | zero =>
    unfold State.releaseDone
    repeat' first
      | with_reducible intro _
      | with_reducible assumption
      | (fail_if_no_progress (extract_lets +onlyGivenNames x)
         first
         | clear_value x
         | skip)
      | with_reducible apply State.protTake_kept
      | with_reducible apply State.setTtx_kept
      | split
  | succ fuel ih =>
    unfold State.releaseDone
    repeat' first
      | with_reducible intro _
      | with_reducible assumption
      | (fail_if_no_progress (extract_lets +onlyGivenNames x)
         first
         | clear_value x
         | skip)
      | with_reducible apply ih
      | with_reducible apply State.protTake_kept
      | with_reducible apply State.setTtx_kept
      | split

theorem State.endsDropped_kept {s : State} (h0 : s.Kept q) (a1) (a2) : (State.endsDropped s a1 a2).Kept q := by
  unfold State.endsDropped
  repeat' first
    | with_reducible assumption
    | ((with_reducible show Fld.listed _ = true); rfl)
    | with_reducible apply State.perfTun_kept
    | with_reducible apply State.bump_kept
    | with_reducible apply Kept.ite
    | split

theorem State.encrypted_kept {s : State} (h0 : s.Kept q) (a1) (a2) (a3) : (State.encrypted s a1 a2 a3).Kept q := by
  unfold State.encrypted
  repeat' first
    | with_reducible intro _
    | with_reducible assumption
    | ((with_reducible show Fld.listed _ = true); rfl)
    | (fail_if_no_progress (extract_lets +onlyGivenNames x)
       first
       | (refine Kept.cut (q := q) (x := x) ?_ ?_ <;> [unfold x; ((try clear_value x); intro _)])
       | (refine Kept.cutP (q := q) (x := x) ?_ ?_ <;> [unfold x; ((try clear_value x); intro _)])
       | clear_value x
       | skip)
    | with_reducible apply State.setTtx_kept
    | with_reducible apply State.endsDropped_kept
    | with_reducible apply State.slotTakeUpset_kept
    | with_reducible apply State.releaseDone_kept
    | with_reducible apply State.perfTun_kept
    | with_reducible apply State.bump_kept
    | with_reducible apply State.keyUse_kept
    | with_reducible apply Kept.foldlFields
    | exact Reg.fields_listed _ _ (by assumption)
    | with_reducible apply Kept.foldl
    | with_reducible apply Kept.foldlP
    | with_reducible apply Kept.ite
    | with_reducible apply Kept.iteP
    | split
    | (refine Kept.getP ?_ (by assumption) <;> with_reducible apply State.slotTakeUpset_kept)

theorem execEncryptDone_kept (a0) (a1) {s : State} (h0 : s.Kept q) : KeptN q (execEncryptDone a0 a1 s) := by
  unfold execEncryptDone
  repeat' first
    | with_reducible intro _
    | with_reducible assumption
    | with_reducible apply State.encrypted_kept
    | with_reducible apply State.voteSlots_kept
    | with_reducible apply State.voteTx_kept
    | with_reducible apply KeptN.next
    | split

theorem execPipelineParityFail_kept (a0) (a1) {s : State} (h0 : s.Kept q) : KeptN q (execPipelineParityFail a0 a1 s) := by
  unfold execPipelineParityFail
  repeat' first
    | with_reducible assumption
    | with_reducible apply pipeMap_listed
    | with_reducible apply State.pipeFail_kept
    | with_reducible apply KeptN.next
    | with_reducible apply Kept.ite
    | with_reducible apply Kept.iteP
    | split

theorem State.message_kept {s : State} (h0 : s.Kept q) (a1) (a2) : (State.message s a1 a2).Kept q := by
  unfold State.message
  repeat' first
    | with_reducible intro _
    | with_reducible assumption
    | ((with_reducible show Fld.listed _ = true); rfl)
    | (fail_if_no_progress (extract_lets +onlyGivenNames x)
       first
       | (refine Kept.cut (q := q) (x := x) ?_ ?_ <;> [unfold x; ((try clear_value x); intro _)])
       | clear_value x
       | skip)
    | with_reducible apply State.bump_kept
    | with_reducible apply State.ackTake_kept
    | with_reducible apply State.resendTake_kept
    | with_reducible apply State.gapTake_kept
    | with_reducible apply State.offerTake_kept
    | with_reducible apply State.voteSlots_kept
    | with_reducible apply State.acceptTake_kept
    | with_reducible apply State.voteTx_kept
    | with_reducible apply State.commitTake_kept
    | with_reducible apply State.voteRx_kept
    | with_reducible apply State.doneTake_kept
    | with_reducible apply State.abortTake_kept
    | with_reducible apply Kept.ite
    | split

theorem State.ctrlFail_kept {s : State} (h0 : s.Kept q) (a1) (a2) (a3) : (State.ctrlFail s a1 a2 a3).Kept q := by
  unfold State.ctrlFail
  repeat' first
    | with_reducible assumption
    | ((with_reducible show Fld.listed _ = true); rfl)
    | (fail_if_no_progress (extract_lets +onlyGivenNames x)
       first
       | (refine Kept.cut (q := q) (x := x) ?_ ?_ <;> [unfold x; ((try clear_value x); intro _)])
       | clear_value x
       | skip)
    | with_reducible apply State.setTrx_kept
    | with_reducible apply State.perfTun_kept
    | with_reducible apply State.bump_kept
    | with_reducible apply Kept.ite
    | split

theorem State.ctrlTake_kept {s : State} (h0 : s.Kept q) (a1) (a2) (a3) : (State.ctrlTake s a1 a2 a3).Kept q := by
  unfold State.ctrlTake
  repeat' first
    | with_reducible intro _
    | with_reducible assumption
    | (fail_if_no_progress (extract_lets +onlyGivenNames x)
       first
       | (refine Kept.cut (q := q) (x := x) ?_ ?_ <;> [unfold x; ((try clear_value x); intro _)])
       | (refine Kept.cutP (q := q) (x := x) ?_ ?_ <;> [unfold x; ((try clear_value x); intro _)])
       | clear_value x
       | skip)
    | with_reducible apply State.unlessReset_kept
    | with_reducible apply State.voteSlots_kept
    | with_reducible apply State.noteArrival_kept
    | with_reducible apply State.setProt_kept
    | with_reducible apply State.ctrlFail_kept
    | with_reducible apply State.slotTake_kept
    | with_reducible apply State.message_kept
    | with_reducible apply State.setTrx_kept
    | with_reducible apply Kept.ite
    | with_reducible apply Kept.iteP
    | split
    | (refine Kept.getP ?_ (by assumption) <;> with_reducible apply State.noteArrival_kept)
    | (refine Kept.getP ?_ (by assumption) <;> with_reducible apply State.slotTake_kept)
    | with_reducible apply Kept.id

theorem State.erroredCopy_kept {s : State} (h0 : s.Kept q) (a1) (a2) : (State.erroredCopy s a1 a2).Kept q := by
  unfold State.erroredCopy
  repeat' first
    | with_reducible assumption
    | ((with_reducible show Fld.listed _ = true); rfl)
    | with_reducible apply State.bump_kept
    | with_reducible apply Kept.ite
    | split

theorem State.dataCopy_kept {s : State} (h0 : s.Kept q) (a1) (a2) (a3) : (State.dataCopy s a1 a2 a3).Kept q := by
  unfold State.dataCopy
  repeat' first
    | with_reducible intro _
    | with_reducible assumption
    | (fail_if_no_progress (extract_lets +onlyGivenNames x)
       first
       | clear_value x
       | skip)
    | with_reducible apply State.unlessReset_kept
    | with_reducible apply State.voteSlots_kept
    | with_reducible apply State.voteRx_kept
    | with_reducible apply State.bundlesBlocked_kept
    | with_reducible apply State.mergeOffer_kept
    | with_reducible apply State.rateJudge_kept
    | with_reducible apply Kept.ite
    | split
    | with_reducible apply Kept.id

theorem State.copyTake_kept {s : State} (h0 : s.Kept q) (a1) (a2) (a3) (a4) : (State.copyTake s a1 a2 a3 a4).Kept q := by
  unfold State.copyTake
  repeat' first
    | with_reducible assumption
    | ((with_reducible show Fld.listed _ = true); rfl)
    | (fail_if_no_progress (extract_lets +onlyGivenNames x)
       first
       | clear_value x
       | skip)
    | with_reducible apply State.bump_kept
    | with_reducible apply State.erroredCopy_kept
    | with_reducible apply State.ctrlTake_kept
    | with_reducible apply State.dataCopy_kept
    | with_reducible apply Kept.ite
    | split

theorem State.noticeTake_kept {s : State} (h0 : s.Kept q) (a1) (a2) : (State.noticeTake s a1 a2).Kept q := by
  unfold State.noticeTake
  repeat' first
    | with_reducible assumption
    | (fail_if_no_progress (extract_lets +onlyGivenNames x)
       first
       | (refine Kept.cut (q := q) (x := x) ?_ ?_ <;> [unfold x; ((try clear_value x); intro _)])
       | clear_value x
       | skip)
    | with_reducible apply State.setPort_kept
    | with_reducible apply State.epochTake_kept
    | with_reducible apply Kept.ite
    | split

theorem State.carrierFrame_kept {s : State} (h0 : s.Kept q) (a1) (a2) (a3) (a4) : (State.carrierFrame s a1 a2 a3 a4).Kept q := by
  unfold State.carrierFrame
  repeat' first
    | with_reducible assumption
    | ((with_reducible show Fld.listed _ = true); rfl)
    | (fail_if_no_progress (extract_lets +onlyGivenNames x)
       first
       | clear_value x
       | skip)
    | with_reducible apply State.bump_kept
    | with_reducible apply State.noticeTake_kept
    | with_reducible apply State.copyTake_kept
    | with_reducible apply Kept.ite
    | split

theorem State.portCopy_kept {s : State} (h0 : s.Kept q) (a1) (a2) (a3) : (State.portCopy s a1 a2 a3).Kept q := by
  unfold State.portCopy
  repeat' first
    | with_reducible assumption
    | (fail_if_no_progress (extract_lets +onlyGivenNames x)
       first
       | clear_value x
       | skip)
    | with_reducible apply State.carrierFrame_kept
    | with_reducible apply State.frameOver_kept
    | with_reducible apply State.copyTake_kept
    | with_reducible apply Kept.ite
    | split

theorem execBundleCopyRx_kept (a0) (a1) (a2) {s : State} (h0 : s.Kept q) : KeptN q (execBundleCopyRx a0 a1 a2 s) := by
  unfold execBundleCopyRx
  repeat' first
    | with_reducible assumption
    | with_reducible apply State.portCopy_kept
    | with_reducible apply KeptN.next

theorem execControlBundleRx_kept (a0) (a1) (a2) {s : State} (h0 : s.Kept q) : KeptN q (execControlBundleRx a0 a1 a2 s) := by
  unfold execControlBundleRx
  repeat' first
    | with_reducible assumption
    | with_reducible apply State.portCopy_kept
    | with_reducible apply KeptN.next

theorem State.dropCopy_kept {s : State} (h0 : s.Kept q) (a1) (a2) : (State.dropCopy s a1 a2).Kept q := by
  unfold State.dropCopy
  repeat' first
    | with_reducible assumption
    | (fail_if_no_progress (extract_lets +onlyGivenNames x)
       first
       | clear_value x
       | skip)
    | with_reducible apply State.setProt_kept

theorem State.authFail_kept {s : State} (h0 : s.Kept q) (a1) (a2) : (State.authFail s a1 a2).Kept q := by
  unfold State.authFail
  repeat' first
    | with_reducible assumption
    | ((with_reducible show Fld.listed _ = true); rfl)
    | (fail_if_no_progress (extract_lets +onlyGivenNames x)
       first
       | (refine Kept.cut (q := q) (x := x) ?_ ?_ <;> [unfold x; ((try clear_value x); intro _)])
       | clear_value x
       | skip)
    | with_reducible apply State.dropCopy_kept
    | with_reducible apply State.setProt_kept
    | with_reducible apply State.perfTun_kept
    | with_reducible apply State.bump_kept
    | with_reducible apply State.mergeGo_kept
    | with_reducible apply State.runPrune_kept
    | with_reducible apply State.event_kept
    | with_reducible apply Kept.ite
    | split

theorem State.windowSet_kept {s : State} (h0 : s.Kept q) (a1) (a2) : (State.windowSet s a1 a2).Kept q := by
  unfold State.windowSet
  repeat' first
    | with_reducible assumption
    | (fail_if_no_progress (extract_lets +onlyGivenNames x)
       first
       | (refine Kept.cut (q := q) (x := x) ?_ ?_ <;> [unfold x; ((try clear_value x); intro _)])
       | clear_value x
       | skip)
    | with_reducible apply State.setTrx_kept
    | with_reducible apply State.setRxH_kept
    | with_reducible apply Kept.ite
    | split

theorem State.resyncTake_kept {s : State} (h0 : s.Kept q) (a1) (a2) (a3) : (State.resyncTake s a1 a2 a3).Kept q := by
  unfold State.resyncTake
  repeat' first
    | with_reducible assumption
    | ((with_reducible show Fld.listed _ = true); rfl)
    | (fail_if_no_progress (extract_lets +onlyGivenNames x)
       first
       | (refine Kept.cut (q := q) (x := x) ?_ ?_ <;> [unfold x; ((try clear_value x); intro _)])
       | clear_value x
       | skip)
    | with_reducible apply State.dropCopy_kept
    | with_reducible apply State.setTrx_kept
    | with_reducible apply State.put_kept
    | with_reducible apply State.bundlesBlocked_kept
    | with_reducible apply State.gapNote_kept
    | with_reducible apply State.setRxH_kept
    | with_reducible apply State.setRxD_kept
    | with_reducible apply State.mergeGo_kept
    | with_reducible apply State.advanced_kept
    | with_reducible apply State.tunState_kept
    | with_reducible apply State.deliverBundle_kept

theorem State.accept_kept {s : State} (h0 : s.Kept q) (a1) (a2) (a3) : (State.accept s a1 a2 a3).Kept q := by
  unfold State.accept
  repeat' first
    | with_reducible assumption
    | ((with_reducible show Fld.listed _ = true); rfl)
    | (fail_if_no_progress (extract_lets +onlyGivenNames x)
       first
       | (refine Kept.cut (q := q) (x := x) ?_ ?_ <;> [unfold x; ((try clear_value x); intro _)])
       | clear_value x
       | skip)
    | with_reducible apply State.dropCopy_kept
    | with_reducible apply State.perfTun_kept
    | with_reducible apply State.bump_kept
    | with_reducible apply State.mergeGo_kept
    | with_reducible apply State.advanced_kept
    | with_reducible apply State.deliverBundle_kept
    | with_reducible apply State.windowSet_kept
    | with_reducible apply Kept.ite
    | split

theorem State.decrypted_kept {s : State} (h0 : s.Kept q) (a1) (a2) (a3) : (State.decrypted s a1 a2 a3).Kept q := by
  unfold State.decrypted
  repeat' first
    | with_reducible intro _
    | with_reducible assumption
    | (fail_if_no_progress (extract_lets +onlyGivenNames x)
       first
       | (refine Kept.cutP (q := q) (x := x) ?_ ?_ <;> [unfold x; ((try clear_value x); intro _)])
       | clear_value x
       | skip)
    | with_reducible apply State.authFail_kept
    | with_reducible apply State.slotTakeUpset_kept
    | with_reducible apply State.dropCopy_kept
    | with_reducible apply State.resyncTake_kept
    | with_reducible apply State.accept_kept
    | with_reducible apply Kept.ite
    | with_reducible apply Kept.iteP
    | split
    | (refine Kept.getP ?_ (by assumption) <;> with_reducible apply State.slotTakeUpset_kept)

theorem execDecryptDone_kept (a0) (a1) {s : State} (h0 : s.Kept q) : KeptN q (execDecryptDone a0 a1 s) := by
  unfold execDecryptDone
  repeat' first
    | with_reducible intro _
    | with_reducible assumption
    | (fail_if_no_progress (extract_lets +onlyGivenNames x)
       first
       | (refine Kept.cut (q := q) (x := x) ?_ ?_ <;> [unfold x; ((try clear_value x); intro _)])
       | clear_value x
       | skip)
    | with_reducible apply State.voteSlots_kept
    | with_reducible apply State.voteRx_kept
    | with_reducible apply State.decrypted_kept
    | with_reducible apply State.mergeGo_kept
    | with_reducible apply State.setProt_kept
    | with_reducible apply KeptN.next
    | split

theorem State.discardHeld_kept {s : State} (h0 : s.Kept q) (a1) : (State.discardHeld s a1).Kept q := by
  unfold State.discardHeld
  repeat' first
    | with_reducible assumption
    | with_reducible apply Kept.ite
    | split
    | fail_if_no_progress (with_reducible apply Kept.upd)

theorem State.retxRead_kept {s : State} (h0 : s.Kept q) (a1) (a2) : (State.retxRead s a1 a2).Kept q := by
  unfold State.retxRead
  repeat' first
    | with_reducible assumption
    | ((with_reducible show Fld.listed _ = true); rfl)
    | (fail_if_no_progress (extract_lets +onlyGivenNames x)
       first
       | clear_value x
       | skip)
    | with_reducible apply State.perfTun_kept
    | with_reducible apply State.bump_kept
    | with_reducible apply State.setProt_kept

theorem State.retxLost_kept {s : State} (h0 : s.Kept q) (a1) (a2) (a3) : (State.retxLost s a1 a2 a3).Kept q := by
  unfold State.retxLost
  repeat' first
    | with_reducible assumption
    | (fail_if_no_progress (extract_lets +onlyGivenNames x)
       first
       | (refine Kept.cut (q := q) (x := x) ?_ ?_ <;> [unfold x; ((try clear_value x); intro _)])
       | clear_value x
       | skip)
    | with_reducible apply State.neededBy_kept
    | with_reducible apply State.sendGaps_kept
    | with_reducible apply Kept.ite
    | split
    | fail_if_no_progress (with_reducible apply Kept.upd)

theorem State.rideRead_kept {s : State} (h0 : s.Kept q) (a1) (a2) : (State.rideRead s a1 a2).Kept q := by
  unfold State.rideRead
  repeat' first
    | with_reducible assumption
    | (fail_if_no_progress (extract_lets +onlyGivenNames x)
       first
       | (refine Kept.cut (q := q) (x := x) ?_ ?_ <;> [unfold x; ((try clear_value x); intro _)])
       | clear_value x
       | skip)
    | with_reducible apply State.backlogDrop_kept
    | with_reducible apply State.setProt_kept
    | with_reducible apply State.holdRelease_kept
    | with_reducible apply State.rideRetryAll_kept
    | with_reducible apply Kept.ite
    | split
    | fail_if_no_progress (with_reducible apply Kept.upd)

theorem State.mergeRead_kept {s : State} (h0 : s.Kept q) (a1) : (State.mergeRead s a1).Kept q := by
  unfold State.mergeRead
  repeat' first
    | with_reducible intro _
    | with_reducible assumption
    | (fail_if_no_progress (extract_lets +onlyGivenNames x)
       first
       | (refine Kept.cut (q := q) (x := x) ?_ ?_ <;> [unfold x; ((try clear_value x); intro _)])
       | clear_value x
       | skip)
    | with_reducible apply State.bufferPut_kept
    | with_reducible apply State.mergeGo_kept
    | with_reducible apply State.setProt_kept
    | with_reducible apply Kept.foldlFields
    | exact Reg.fields_listed _ _ (by assumption)
    | with_reducible apply Kept.foldl
    | with_reducible apply Kept.foldlP
    | with_reducible apply Kept.ite
    | split

theorem State.mergeDrop_kept {s : State} (h0 : s.Kept q) (a1) : (State.mergeDrop s a1).Kept q := by
  unfold State.mergeDrop
  repeat' first
    | with_reducible intro _
    | with_reducible assumption
    | (fail_if_no_progress (extract_lets +onlyGivenNames x)
       first
       | (refine Kept.cut (q := q) (x := x) ?_ ?_ <;> [unfold x; ((try clear_value x); intro _)])
       | clear_value x
       | skip)
    | with_reducible apply State.setProt_kept
    | with_reducible apply State.runPrune_kept
    | with_reducible apply State.mergeAll_kept
    | with_reducible apply State.holdRelease_kept
    | with_reducible apply Kept.foldlFields
    | exact Reg.fields_listed _ _ (by assumption)
    | with_reducible apply Kept.foldl
    | with_reducible apply Kept.foldlP
    | fail_if_no_progress (with_reducible apply Kept.upd)

theorem State.txReadsLost_kept {s : State} (h0 : s.Kept q) (a1) (a2) : (State.txReadsLost s a1 a2).Kept q := by
  unfold State.txReadsLost
  repeat' first
    | with_reducible intro _
    | with_reducible assumption
    | (fail_if_no_progress (extract_lets +onlyGivenNames x)
       first
       | (refine Kept.cut (q := q) (x := x) ?_ ?_ <;> [unfold x; ((try clear_value x); intro _)])
       | clear_value x
       | skip)
    | with_reducible apply State.retxLost_kept
    | with_reducible apply State.drainNext_kept
    | with_reducible apply State.rideLost_kept
    | with_reducible apply Kept.foldlFields
    | exact Reg.fields_listed _ _ (by assumption)
    | with_reducible apply Kept.foldl
    | with_reducible apply Kept.foldlP
    | with_reducible apply Kept.ite
    | split

theorem State.readEnd_kept {s : State} (h0 : s.Kept q) (a1) (a2) : (State.readEnd s a1 a2).Kept q := by
  unfold State.readEnd
  repeat' first
    | with_reducible intro _
    | with_reducible assumption
    | with_reducible apply State.retxRead_kept
    | with_reducible apply State.rideRead_kept
    | with_reducible apply State.txReadsLost_kept
    | with_reducible apply State.mergeRead_kept
    | with_reducible apply State.mergeDrop_kept
    | split

theorem State.readStep_kept {s : State} (h0 : s.Kept q) (a1) (a2) (a3) : (State.readStep s a1 a2 a3).Kept q := by
  unfold State.readStep
  repeat' first
    | with_reducible assumption
    | with_reducible apply State.readEnd_kept
    | with_reducible apply Kept.ite
    | split
    | fail_if_no_progress (with_reducible apply Kept.upd)

theorem State.demandRead_kept {s : State} (h0 : s.Kept q) (a1) (a2) (a3) (a4) (a5) : (State.demandRead s a1 a2 a3 a4 a5).Kept q := by
  unfold State.demandRead
  repeat' first
    | with_reducible intro _
    | with_reducible assumption
    | (fail_if_no_progress (extract_lets +onlyGivenNames x)
       first
       | clear_value x
       | skip)
    | with_reducible apply State.unlessReset_kept
    | with_reducible apply State.cordRead_kept
    | with_reducible apply State.clinkerRead_kept
    | with_reducible apply State.dataPath_kept
    | with_reducible apply State.readStep_kept
    | with_reducible apply State.burstErrors_kept
    | with_reducible apply State.retries_kept
    | with_reducible apply State.perfCh_kept
    | with_reducible apply Kept.ite
    | split
    | with_reducible apply Kept.id

theorem State.mergeLost_kept {s : State} (h0 : s.Kept q) : (State.mergeLost s).Kept q := by
  unfold State.mergeLost
  repeat' first
    | with_reducible assumption
    | with_reducible apply State.mergeDrop_kept

theorem State.readsLost_kept {s : State} (h0 : s.Kept q) (a1) : (State.readsLost s a1).Kept q := by
  unfold State.readsLost
  repeat' first
    | with_reducible assumption
    | (fail_if_no_progress (extract_lets +onlyGivenNames x)
       first
       | (refine Kept.cut (q := q) (x := x) ?_ ?_ <;> [unfold x; ((try clear_value x); intro _)])
       | clear_value x
       | skip)
    | with_reducible apply State.txReadsLost_kept
    | with_reducible apply State.mergeDrop_kept
    | fail_if_no_progress (with_reducible apply Kept.upd)

theorem State.channelFail_kept {s : State} (h0 : s.Kept q) (a1) (a2) : (State.channelFail s a1 a2).Kept q := by
  unfold State.channelFail
  repeat' first
    | with_reducible intro _
    | with_reducible assumption
    | (fail_if_no_progress (extract_lets +onlyGivenNames x)
       first
       | (refine Kept.cut (q := q) (x := x) ?_ ?_ <;> [unfold x; ((try clear_value x); intro _)])
       | clear_value x
       | skip)
    | with_reducible apply State.retries_kept
    | with_reducible apply State.unlessReset_kept
    | with_reducible apply State.chFail_kept
    | with_reducible apply State.faultNote_kept
    | with_reducible apply State.repairEnd_kept
    | with_reducible apply State.softEnd_kept
    | with_reducible apply State.scrubPass_kept
    | with_reducible apply State.holdUpdate_kept
    | with_reducible apply State.mergeLost_kept
    | with_reducible apply State.readsLost_kept
    | with_reducible apply Kept.ite
    | split
    | fail_if_no_progress (with_reducible apply Kept.upd)
    | with_reducible apply Kept.id

theorem execChannelFail_kept (a0) (a1) {s : State} (h0 : s.Kept q) : KeptN q (execChannelFail a0 a1 s) := by
  unfold execChannelFail
  repeat' first
    | with_reducible assumption
    | with_reducible apply State.channelFail_kept
    | with_reducible apply KeptN.next
    | with_reducible apply Kept.ite
    | with_reducible apply Kept.iteP
    | split

theorem State.ueCheck_kept {s : State} (h0 : s.Kept q) (a1) : (State.ueCheck s a1).Kept q := by
  unfold State.ueCheck
  repeat' first
    | with_reducible assumption
    | with_reducible apply State.channelFail_kept
    | with_reducible apply Kept.ite
    | split

theorem execHoldReadComplete_kept (a0) (a1) (a2) (a3) {s : State} (h0 : s.Kept q) : KeptN q (execHoldReadComplete a0 a1 a2 a3 s) := by
  unfold execHoldReadComplete
  repeat' first
    | with_reducible intro _
    | with_reducible assumption
    | with_reducible apply State.ueCheck_kept
    | with_reducible apply State.demandRead_kept
    | with_reducible apply State.drainCount_kept
    | with_reducible apply KeptN.next
    | with_reducible apply Kept.ite
    | with_reducible apply Kept.iteP
    | split

theorem execScrubBillet_kept (a0) (a1) {s : State} (h0 : s.Kept q) : KeptN q (execScrubBillet a0 a1 s) := by
  unfold execScrubBillet
  repeat' first
    | with_reducible intro _
    | with_reducible assumption
    | (fail_if_no_progress (extract_lets +onlyGivenNames x)
       first
       | clear_value x
       | skip)
    | with_reducible apply State.unlessReset_kept
    | with_reducible apply State.burstErrors_kept
    | with_reducible apply State.ueCheck_kept
    | with_reducible apply State.scrubPass_kept
    | with_reducible apply State.setHc_kept
    | with_reducible apply KeptN.next
    | with_reducible apply Kept.ite
    | with_reducible apply Kept.iteP
    | split
    | with_reducible apply Kept.id

theorem execRowScrub_kept (a0) (a1) {s : State} (h0 : s.Kept q) : KeptN q (execRowScrub a0 a1 s) := by
  unfold execRowScrub
  repeat' first
    | with_reducible intro _
    | with_reducible assumption
    | (fail_if_no_progress (extract_lets +onlyGivenNames x)
       first
       | clear_value x
       | skip)
    | with_reducible apply State.ueCheck_kept
    | with_reducible apply State.rowErrors_kept
    | with_reducible apply State.setHc_kept
    | with_reducible apply KeptN.next
    | with_reducible apply Kept.ite
    | with_reducible apply Kept.iteP
    | split

theorem execRepairWindow_kept (a0) (a1) {s : State} (h0 : s.Kept q) : KeptN q (execRepairWindow a0 a1 s) := by
  unfold execRepairWindow
  repeat' first
    | with_reducible intro _
    | with_reducible assumption
    | with_reducible apply State.unlessReset_kept
    | with_reducible apply State.rowErrors_kept
    | with_reducible apply State.ueCheck_kept
    | with_reducible apply State.softEnd_kept
    | with_reducible apply KeptN.next
    | with_reducible apply Kept.ite
    | with_reducible apply Kept.iteP
    | split
    | with_reducible apply Kept.id

theorem State.holdStop_kept {s : State} (h0 : s.Kept q) : (State.holdStop s).Kept q := by
  unfold State.holdStop
  repeat' first
    | with_reducible intro _
    | with_reducible assumption
    | ((with_reducible show Fld.listed _ = true); rfl)
    | (fail_if_no_progress (extract_lets +onlyGivenNames x)
       first
       | (refine Kept.cut (q := q) (x := x) ?_ ?_ <;> [unfold x; ((try clear_value x); intro _)])
       | clear_value x
       | skip)
    | with_reducible apply State.repairEnd_kept
    | with_reducible apply State.softEnd_kept
    | with_reducible apply State.perfCh_kept
    | with_reducible apply State.wr_kept
    | with_reducible apply State.setHc_kept
    | with_reducible apply State.clearMem_kept
    | with_reducible apply State.holdUpdate_kept
    | with_reducible apply State.mergeLost_kept
    | with_reducible apply State.readsLost_kept
    | with_reducible apply Kept.foldlFields
    | exact Reg.fields_listed _ _ (by assumption)
    | with_reducible apply Kept.foldl
    | with_reducible apply Kept.foldlP
    | with_reducible apply Kept.ite
    | split
    | fail_if_no_progress (with_reducible apply Kept.upd)

theorem State.holdCtlWrite_kept {s : State} (h0 : s.Kept q) (a1) : (State.holdCtlWrite s a1).1.Kept q := by
  unfold State.holdCtlWrite
  repeat' first
    | with_reducible assumption
    | (fail_if_no_progress (extract_lets +onlyGivenNames x)
       first
       | (refine Kept.cut (q := q) (x := x) ?_ ?_ <;> [unfold x; ((try clear_value x); intro _)])
       | clear_value x
       | skip)
    | with_reducible apply State.holdStop_kept
    | with_reducible apply State.holdTrain_kept
    | with_reducible apply Kept.ite
    | with_reducible apply Kept.iteP
    | split

theorem execHoldStart_kept (a0) {s : State} (h0 : s.Kept q) : KeptN q (execHoldStart a0 s) := by
  unfold execHoldStart
  repeat' first
    | with_reducible intro _
    | with_reducible assumption
    | with_reducible apply State.writing_kept
    | with_reducible apply State.holdCtlWrite_kept
    | with_reducible apply KeptN.next
    | with_reducible apply Kept.id

theorem execHoldStop_kept (a0) {s : State} (h0 : s.Kept q) : KeptN q (execHoldStop a0 s) := by
  unfold execHoldStop
  repeat' first
    | with_reducible intro _
    | with_reducible assumption
    | with_reducible apply State.writing_kept
    | with_reducible apply State.holdCtlWrite_kept
    | with_reducible apply KeptN.next
    | with_reducible apply Kept.id

theorem execHeldCopyTimeout_kept (a0) (a1) (a2) (a3) {s : State} (h0 : s.Kept q) : KeptN q (execHeldCopyTimeout a0 a1 a2 a3 s) := by
  unfold execHeldCopyTimeout
  repeat' first
    | with_reducible intro _
    | with_reducible assumption
    | (fail_if_no_progress (extract_lets +onlyGivenNames x)
       first
       | clear_value x
       | skip)
    | with_reducible apply State.setProt_kept
    | with_reducible apply State.discardHeld_kept
    | with_reducible apply State.mergeLost_kept
    | with_reducible apply KeptN.next
    | with_reducible apply Kept.ite
    | with_reducible apply Kept.iteP
    | split

end Sys2Proof.Machine
end

