-- ==== Sys2Proof/Laws/KeptKiln.lean ====
section
/-!
SUPPORT. Every operation of Machine/Kiln.lean keeps the stores canonical and the queue as it stands.
-/

set_option linter.unusedVariables false
set_option linter.unusedTactic false
set_option linter.unreachableTactic false
set_option linter.unnecessarySeqFocus false

namespace Sys2Proof.Machine

variable {q : List Instr}

theorem State.kilnRecord_kept {s : State} (h0 : s.Kept q) (a1) (a2) (a3) (a4) : (State.kilnRecord s a1 a2 a3 a4).Kept q := by
  unfold State.kilnRecord
  repeat' first
    | with_reducible assumption
    | ((with_reducible show Fld.listed _ = true); rfl)
    | with_reducible apply State.put_kept
    | with_reducible apply State.wr_kept
    | with_reducible apply Kept.ite
    | split

theorem State.kilnCount_kept {s : State} (h0 : s.Kept q) : (State.kilnCount s).Kept q := by
  unfold State.kilnCount
  repeat' first
    | with_reducible assumption
    | ((with_reducible show Fld.listed _ = true); rfl)
    | with_reducible apply State.bump_kept

theorem State.kilnRowFails_kept {s : State} (h0 : s.Kept q) (a1) (a2) (a3) : (State.kilnRowFails s a1 a2 a3).1.Kept q := by
  unfold State.kilnRowFails
  repeat' first
    | with_reducible assumption
    | ((with_reducible show Fld.listed _ = true); rfl)
    | (fail_if_no_progress (extract_lets +onlyGivenNames x)
       first
       | (refine Kept.cut (q := q) (x := x) ?_ ?_ <;> [unfold x; ((try clear_value x); intro _)])
       | clear_value x
       | skip)
    | with_reducible apply State.kilnRecord_kept
    | with_reducible apply State.put_kept
    | with_reducible apply State.takeSpare_kept
    | with_reducible apply State.event_kept
    | with_reducible apply Kept.ite
    | with_reducible apply Kept.iteP
    | split
    | fail_if_no_progress (with_reducible apply Kept.upd)

theorem State.kilnFatalSet_kept {s : State} (h0 : s.Kept q) : (State.kilnFatalSet s).Kept q := by
  unfold State.kilnFatalSet
  dsimp only
  have c := State.cleared_kept h0
  apply State.aliveStop_kept
  apply State.put_kept
  · exact ⟨RegStore.wf_filter h0.1 _, c.2⟩
  · rfl

theorem State.kilnExclude_kept {s : State} (h0 : s.Kept q) (a1) (a2) : (State.kilnExclude s a1 a2).1.Kept q := by
  unfold State.kilnExclude
  repeat' first
    | with_reducible assumption
    | with_reducible apply State.laneForce_kept
    | with_reducible apply State.pipeExclude_kept
    | with_reducible apply State.pipeLines_kept
    | with_reducible apply State.holdStop_kept
    | with_reducible apply State.engineLines_kept
    | with_reducible apply Kept.ite
    | with_reducible apply Kept.iteP
    | split

theorem State.kilnEnds_kept {s : State} (h0 : s.Kept q) : (State.kilnEnds s).Kept q := by
  unfold State.kilnEnds
  repeat' first
    | with_reducible intro _
    | with_reducible assumption
    | ((with_reducible show Fld.listed _ = true); rfl)
    | (fail_if_no_progress (extract_lets +onlyGivenNames x)
       first
       | (refine Kept.cut (q := q) (x := x) ?_ ?_ <;> [unfold x; ((try clear_value x); intro _)])
       | clear_value x
       | skip)
    | with_reducible apply State.event_kept
    | with_reducible apply State.put_kept
    | with_reducible apply State.errorLine_kept
    | split
    | fail_if_no_progress (with_reducible apply Kept.upd)

theorem State.kilnRows_kept {s : State} (h0 : s.Kept q) (a1) (a2) : (State.kilnRows s a1 a2).1.Kept q := by
  unfold State.kilnRows
  repeat' first
    | with_reducible intro _
    | with_reducible assumption
    | (fail_if_no_progress (extract_lets +onlyGivenNames x)
       first
       | (refine Kept.cutP (q := q) (x := x) ?_ ?_ <;> [unfold x; ((try clear_value x); intro _)])
       | clear_value x
       | skip)
    | with_reducible apply State.kilnRowFails_kept
    | with_reducible apply Kept.foldlFields
    | exact Reg.fields_listed _ _ (by assumption)
    | with_reducible apply Kept.foldl
    | with_reducible apply Kept.foldlP

theorem State.kilnStartFail_kept {s : State} (h0 : s.Kept q) (a1) (a2) (a3) (a4) (a5) : (State.kilnStartFail s a1 a2 a3 a4 a5).Kept q := by
  unfold State.kilnStartFail
  repeat' first
    | with_reducible assumption
    | ((with_reducible show Fld.listed _ = true); rfl)
    | (fail_if_no_progress (extract_lets +onlyGivenNames x)
       first
       | (refine Kept.cut (q := q) (x := x) ?_ ?_ <;> [unfold x; ((try clear_value x); intro _)])
       | (refine Kept.cutP (q := q) (x := x) ?_ ?_ <;> [unfold x; ((try clear_value x); intro _)])
       | clear_value x
       | skip)
    | with_reducible apply State.kilnRecord_kept
    | with_reducible apply State.kilnCount_kept
    | with_reducible apply State.put_kept
    | with_reducible apply State.wr_kept
    | with_reducible apply State.journalAdd_kept
    | with_reducible apply State.kilnFatalSet_kept
    | with_reducible apply State.kilnExclude_kept
    | with_reducible apply State.errorLines_kept
    | with_reducible apply Kept.ite
    | with_reducible apply Kept.iteP
    | split
    | fail_if_no_progress (with_reducible apply Kept.upd)

theorem State.kilnPass_kept {s : State} (h0 : s.Kept q) (a1) : (State.kilnPass s a1).Kept q := by
  unfold State.kilnPass
  repeat' first
    | with_reducible assumption
    | ((with_reducible show Fld.listed _ = true); rfl)
    | (fail_if_no_progress (extract_lets +onlyGivenNames x)
       first
       | (refine Kept.cut (q := q) (x := x) ?_ ?_ <;> [unfold x; ((try clear_value x); intro _)])
       | clear_value x
       | skip)
    | with_reducible apply State.wr_kept
    | with_reducible apply State.pipePass_kept
    | with_reducible apply Kept.ite
    | split

theorem State.kilnResult_kept {s : State} (h0 : s.Kept q) (a1) (a2) (a3) : (State.kilnResult s a1 a2 a3).Kept q := by
  unfold State.kilnResult
  repeat' first
    | with_reducible intro _
    | with_reducible assumption
    | ((with_reducible show Fld.listed _ = true); rfl)
    | (fail_if_no_progress (extract_lets +onlyGivenNames x)
       first
       | (refine Kept.cut (q := q) (x := x) ?_ ?_ <;> [unfold x; ((try clear_value x); intro _)])
       | (refine Kept.cutP (q := q) (x := x) ?_ ?_ <;> [unfold x; ((try clear_value x); intro _)])
       | clear_value x
       | skip)
    | with_reducible apply State.kilnRows_kept
    | with_reducible apply State.kilnStartFail_kept
    | with_reducible apply State.kilnPass_kept
    | with_reducible apply State.put_kept
    | with_reducible apply State.journalAdd_kept
    | with_reducible apply State.kilnCount_kept
    | with_reducible apply Kept.ite
    | with_reducible apply Kept.iteP
    | split
    | (refine Kept.getP ?_ (by assumption) <;> with_reducible apply State.kilnRows_kept)
    | fail_if_no_progress (with_reducible apply Kept.upd)

theorem execKilnRegionDone_kept (a0) (a1) (a2) {s : State} (h0 : s.Kept q) : KeptN q (execKilnRegionDone a0 a1 a2 s) := by
  unfold execKilnRegionDone
  repeat' first
    | with_reducible intro _
    | with_reducible assumption
    | with_reducible apply State.unlessReset_kept
    | with_reducible apply State.kilnResult_kept
    | with_reducible apply State.kilnEnds_kept
    | with_reducible apply KeptN.next
    | with_reducible apply Kept.ite
    | with_reducible apply Kept.iteP
    | split
    | with_reducible apply Kept.id

theorem State.sliceShown_kept {s : State} (h0 : s.Kept q) (a1) (a2) (a3) : (State.sliceShown s a1 a2 a3).Kept q := by
  unfold State.sliceShown
  repeat' first
    | with_reducible assumption
    | ((with_reducible show Fld.listed _ = true); rfl)
    | with_reducible apply State.wr_kept
    | with_reducible apply State.put_kept

theorem execKilnSliceStart_kept (a0) (a1) {s : State} (h0 : s.Kept q) : KeptN q (execKilnSliceStart a0 a1 s) := by
  unfold execKilnSliceStart
  repeat' first
    | with_reducible intro _
    | with_reducible assumption
    | ((with_reducible show Fld.listed _ = true); rfl)
    | with_reducible apply State.sliceShown_kept
    | with_reducible apply State.wr_kept
    | with_reducible apply State.put_kept
    | with_reducible apply KeptN.next
    | with_reducible apply Kept.ite
    | with_reducible apply Kept.iteP
    | split
    | fail_if_no_progress (with_reducible apply Kept.upd)

theorem execKilnSliceAbort_kept (a0) {s : State} (h0 : s.Kept q) : KeptN q (execKilnSliceAbort a0 s) := by
  unfold execKilnSliceAbort
  repeat' first
    | with_reducible intro _
    | with_reducible assumption
    | with_reducible apply State.sliceAbort_kept
    | with_reducible apply KeptN.next
    | with_reducible apply Kept.ite
    | with_reducible apply Kept.iteP
    | split

theorem execKilnStartTimeout_kept (a0) (a1) {s : State} (h0 : s.Kept q) : KeptN q (execKilnStartTimeout a0 a1 s) := by
  unfold execKilnStartTimeout
  repeat' first
    | with_reducible intro _
    | with_reducible assumption
    | with_reducible apply State.kilnAborted_kept
    | with_reducible apply State.sliceShown_kept
    | with_reducible apply KeptN.next
    | with_reducible apply Kept.ite
    | with_reducible apply Kept.iteP
    | split

theorem execKilnRetry_kept (a0) {s : State} (h0 : s.Kept q) : KeptN q (execKilnRetry a0 s) := by
  unfold execKilnRetry
  repeat' first
    | with_reducible assumption
    | with_reducible apply KeptN.next
    | with_reducible apply Kept.ite
    | with_reducible apply Kept.iteP
    | split
    | fail_if_no_progress (with_reducible apply Kept.upd)

theorem State.kilnCounted_kept {s : State} (h0 : s.Kept q) (a1) : (State.kilnCounted s a1).Kept q := by
  unfold State.kilnCounted
  repeat' first
    | with_reducible assumption
    | ((with_reducible show Fld.listed _ = true); rfl)
    | (fail_if_no_progress (extract_lets +onlyGivenNames x)
       first
       | (refine Kept.cut (q := q) (x := x) ?_ ?_ <;> [unfold x; ((try clear_value x); intro _)])
       | clear_value x
       | skip)
    | with_reducible apply State.wr_kept
    | with_reducible apply State.put_kept
    | with_reducible apply Kept.ite
    | split

theorem State.kilnServiceFail_kept {s : State} (h0 : s.Kept q) (a1) (a2) (a3) (a4) : (State.kilnServiceFail s a1 a2 a3 a4).Kept q := by
  unfold State.kilnServiceFail
  repeat' first
    | with_reducible assumption
    | ((with_reducible show Fld.listed _ = true); rfl)
    | (fail_if_no_progress (extract_lets +onlyGivenNames x)
       first
       | (refine Kept.cut (q := q) (x := x) ?_ ?_ <;> [unfold x; ((try clear_value x); intro _)])
       | (refine Kept.cutP (q := q) (x := x) ?_ ?_ <;> [unfold x; ((try clear_value x); intro _)])
       | clear_value x
       | skip)
    | with_reducible apply State.kilnRowFails_kept
    | with_reducible apply State.kilnCount_kept
    | with_reducible apply State.errorLine_kept
    | with_reducible apply State.event_kept
    | with_reducible apply State.journalAdd_kept
    | with_reducible apply State.kilnRecord_kept
    | with_reducible apply State.wr_kept
    | with_reducible apply State.kilnFatalSet_kept
    | with_reducible apply State.kilnExclude_kept
    | with_reducible apply State.errorLines_kept
    | with_reducible apply Kept.ite
    | with_reducible apply Kept.iteP
    | split

theorem State.sliceResult_kept {s : State} (h0 : s.Kept q) (a1) (a2) (a3) (a4) : (State.sliceResult s a1 a2 a3 a4).Kept q := by
  unfold State.sliceResult
  repeat' first
    | with_reducible intro _
    | with_reducible assumption
    | ((with_reducible show Fld.listed _ = true); rfl)
    | (fail_if_no_progress (extract_lets +onlyGivenNames x)
       first
       | (refine Kept.cut (q := q) (x := x) ?_ ?_ <;> [unfold x; ((try clear_value x); intro _)])
       | clear_value x
       | skip)
    | with_reducible apply State.wr_kept
    | with_reducible apply State.kilnCounted_kept
    | with_reducible apply State.bumpWrap_kept
    | with_reducible apply State.kilnServiceFail_kept
    | with_reducible apply Kept.ite
    | split

theorem execKilnSliceEnd_kept (a0) (a1) {s : State} (h0 : s.Kept q) : KeptN q (execKilnSliceEnd a0 a1 s) := by
  unfold execKilnSliceEnd
  repeat' first
    | with_reducible intro _
    | with_reducible assumption
    | ((with_reducible show Fld.listed _ = true); rfl)
    | (fail_if_no_progress (extract_lets +onlyGivenNames x)
       first
       | (refine Kept.cut (q := q) (x := x) ?_ ?_ <;> [unfold x; ((try clear_value x); intro _)])
       | clear_value x
       | skip)
    | with_reducible apply State.wr_kept
    | with_reducible apply State.put_kept
    | with_reducible apply State.sliceResult_kept
    | with_reducible apply KeptN.next
    | split
    | fail_if_no_progress (with_reducible apply Kept.upd)

theorem State.kilnCtlWrite_kept {s : State} (h0 : s.Kept q) (a1) : (State.kilnCtlWrite s a1).Kept q := by
  unfold State.kilnCtlWrite
  repeat' first
    | with_reducible assumption
    | ((with_reducible show Fld.listed _ = true); rfl)
    | (fail_if_no_progress (extract_lets +onlyGivenNames x)
       first
       | (refine Kept.cut (q := q) (x := x) ?_ ?_ <;> [unfold x; ((try clear_value x); intro _)])
       | clear_value x
       | skip)
    | with_reducible apply State.wr_kept
    | with_reducible apply State.sliceStopped_kept
    | with_reducible apply Kept.ite
    | split

theorem execKilnStop_kept (a0) (a1) {s : State} (h0 : s.Kept q) : KeptN q (execKilnStop a0 a1 s) := by
  unfold execKilnStop
  repeat' first
    | with_reducible intro _
    | with_reducible assumption
    | with_reducible apply State.writing_kept
    | with_reducible apply State.kilnCtlWrite_kept
    | with_reducible apply KeptN.next
    | with_reducible apply Kept.id

theorem State.kilnWrite_kept {s : State} (h0 : s.Kept q) (a1) (a2) : KeptOP q (State.kilnWrite s a1 a2) := by
  unfold State.kilnWrite
  repeat' first
    | with_reducible intro _
    | with_reducible assumption
    | with_reducible apply State.kilnCtlWrite_kept
    | with_reducible apply KeptOP.none
    | with_reducible apply KeptOP.some
    | split

end Sys2Proof.Machine
end

