-- ==== Sys2Proof/Laws/KeptPortTx.lean ====
section
/-!
SUPPORT. Every operation of Machine/PortTx.lean keeps the stores canonical and the queue as it stands.
-/

set_option linter.unusedVariables false
set_option linter.unusedTactic false
set_option linter.unreachableTactic false
set_option linter.unnecessarySeqFocus false

namespace Sys2Proof.Machine

variable {q : List Instr}

theorem State.takeTx_kept {s : State} (h0 : s.Kept q) (a1) : (State.takeTx s a1).1.Kept q := by
  unfold State.takeTx
  repeat' first
    | with_reducible intro _
    | with_reducible assumption
    | (fail_if_no_progress (extract_lets +onlyGivenNames x)
       first
       | clear_value x
       | skip)
    | with_reducible apply State.setPort_kept
    | split

theorem State.encodeRow_kept {s : State} (h0 : s.Kept q) (a1) (a2) (a3) : (State.encodeRow s a1 a2 a3).1.Kept q := by
  unfold State.encodeRow
  repeat' first
    | with_reducible intro _
    | with_reducible assumption
    | (fail_if_no_progress (extract_lets +onlyGivenNames x)
       first
       | (refine Kept.cutP (q := q) (x := x) ?_ ?_ <;> [unfold x; ((try clear_value x); intro _)])
       | clear_value x
       | skip)
    | with_reducible apply State.takeTx_kept
    | with_reducible apply State.setLock_kept
    | with_reducible apply Kept.foldlFields
    | exact Reg.fields_listed _ _ (by assumption)
    | with_reducible apply Kept.foldl
    | with_reducible apply Kept.foldlP
    | with_reducible apply Kept.ite
    | with_reducible apply Kept.iteP
    | split

theorem State.portEncode_kept {s : State} (h0 : s.Kept q) (a1) : (State.portEncode s a1).Kept q := by
  unfold State.portEncode
  repeat' first
    | with_reducible intro _
    | with_reducible assumption
    | (fail_if_no_progress (extract_lets +onlyGivenNames x)
       first
       | (refine Kept.cut (q := q) (x := x) ?_ ?_ <;> [unfold x; ((try clear_value x); intro _)])
       | (refine Kept.cutP (q := q) (x := x) ?_ ?_ <;> [unfold x; ((try clear_value x); intro _)])
       | clear_value x
       | skip)
    | with_reducible apply State.encodeRow_kept
    | with_reducible apply State.setLock_kept
    | with_reducible apply State.setPort_kept
    | with_reducible apply Kept.foldlFields
    | exact Reg.fields_listed _ _ (by assumption)
    | with_reducible apply Kept.foldl
    | with_reducible apply Kept.foldlP
    | with_reducible apply Kept.ite
    | with_reducible apply Kept.iteP
    | split

theorem State.portSymbols_kept {s : State} (h0 : s.Kept q) (a1) (a2) (a3) : (State.portSymbols s a1 a2 a3).1.Kept q := by
  unfold State.portSymbols
  repeat' first
    | with_reducible assumption
    | (fail_if_no_progress (extract_lets +onlyGivenNames x)
       first
       | (refine Kept.cut (q := q) (x := x) ?_ ?_ <;> [unfold x; ((try clear_value x); intro _)])
       | clear_value x
       | skip)
    | with_reducible apply State.portEncode_kept
    | with_reducible apply State.setLock_kept
    | with_reducible apply Kept.ite
    | with_reducible apply Kept.iteP
    | split

end Sys2Proof.Machine
end

