-- ==== Sys2Proof/Laws/KeptLaneTx.lean ====
section
/-!
SUPPORT. Every operation of Machine/LaneTx.lean keeps the stores canonical and the queue as it stands.
-/

set_option linter.unusedVariables false
set_option linter.unusedTactic false
set_option linter.unreachableTactic false
set_option linter.unnecessarySeqFocus false

namespace Sys2Proof.Machine

variable {q : List Instr}

theorem State.txHistory_kept {s : State} (h0 : s.Kept q) (a1) : (State.txHistory s a1).1.Kept q := by
  unfold State.txHistory
  repeat' first
    | with_reducible assumption
    | (fail_if_no_progress (extract_lets +onlyGivenNames x)
       first
       | clear_value x
       | skip)
    | with_reducible apply State.drawn_kept
    | with_reducible apply Kept.ite
    | with_reducible apply Kept.iteP
    | split

theorem State.txShape_kept {s : State} (h0 : s.Kept q) (a1) (a2) : (State.txShape s a1 a2).Kept q := by
  unfold State.txShape
  repeat' first
    | with_reducible assumption
    | ((with_reducible show Fld.listed _ = true); rfl)
    | (fail_if_no_progress (extract_lets +onlyGivenNames x)
       first
       | (refine Kept.cutP (q := q) (x := x) ?_ ?_ <;> [unfold x; ((try clear_value x); intro _)])
       | clear_value x
       | skip)
    | with_reducible apply State.txHistory_kept
    | with_reducible apply State.perfLane_kept
    | with_reducible apply State.bump_kept
    | with_reducible apply State.laneMod_kept
    | with_reducible apply Kept.ite
    | with_reducible apply Kept.iteP
    | split

theorem State.txSymbols_kept {s : State} (h0 : s.Kept q) (a1) (a2) (a3) : (State.txSymbols s a1 a2 a3).1.Kept q := by
  unfold State.txSymbols
  repeat' first
    | with_reducible intro _
    | with_reducible assumption
    | (fail_if_no_progress (extract_lets +onlyGivenNames x)
       first
       | clear_value x
       | skip)
    | with_reducible apply State.portSymbols_kept
    | with_reducible apply Kept.ite
    | with_reducible apply Kept.iteP
    | split
    | (refine Kept.getP ?_ (by assumption) <;> with_reducible apply State.portSymbols_kept)

theorem State.rippleNow_kept {s : State} (h0 : s.Kept q) (a1) : (State.rippleNow s a1).Kept q := by
  unfold State.rippleNow
  repeat' first
    | with_reducible assumption
    | (fail_if_no_progress (extract_lets +onlyGivenNames x)
       first
       | (refine Kept.cut (q := q) (x := x) ?_ ?_ <;> [unfold x; ((try clear_value x); intro _)])
       | clear_value x
       | skip)
    | with_reducible apply State.laneMod_kept
    | with_reducible apply State.smokeAbort_kept
    | with_reducible apply Kept.ite
    | split

theorem State.genRun_kept {s : State} (h0 : s.Kept q) (a1) : (State.genRun s a1).Kept q := by
  unfold State.genRun
  repeat' first
    | with_reducible assumption
    | with_reducible apply State.laneMod_kept
    | with_reducible apply Kept.ite
    | split

theorem State.txBoundary_kept {s : State} (h0 : s.Kept q) (a1) (a2) : (State.txBoundary s a1 a2).Kept q := by
  unfold State.txBoundary
  repeat' first
    | with_reducible assumption
    | ((with_reducible show Fld.listed _ = true); rfl)
    | (fail_if_no_progress (extract_lets +onlyGivenNames x)
       first
       | (refine Kept.cut (q := q) (x := x) ?_ ?_ <;> [unfold x; ((try clear_value x); intro _)])
       | (refine Kept.cutP (q := q) (x := x) ?_ ?_ <;> [unfold x; ((try clear_value x); intro _)])
       | clear_value x
       | skip)
    | with_reducible apply State.rippleNow_kept
    | with_reducible apply State.laneMod_kept
    | with_reducible apply State.depthNow_kept
    | with_reducible apply State.event_kept
    | with_reducible apply State.wr_kept
    | with_reducible apply State.put_kept
    | with_reducible apply State.txSymbols_kept
    | with_reducible apply State.genRun_kept
    | with_reducible apply State.txIdle_kept
    | with_reducible apply State.txShape_kept
    | with_reducible apply State.setSmk_kept
    | with_reducible apply Kept.ite
    | with_reducible apply Kept.iteP
    | split

theorem execTxBlockBoundary_kept (a0) (a1) {s : State} (h0 : s.Kept q) : KeptN q (execTxBlockBoundary a0 a1 s) := by
  unfold execTxBlockBoundary
  repeat' first
    | with_reducible assumption
    | with_reducible apply State.txBoundary_kept
    | with_reducible apply State.laneScan_kept
    | with_reducible apply KeptN.next
    | with_reducible apply Kept.ite
    | with_reducible apply Kept.iteP
    | split

theorem State.txCopyWord_kept {s : State} (h0 : s.Kept q) (a1) (a2) : (State.txCopyWord s a1 a2).1.Kept q := by
  unfold State.txCopyWord
  repeat' first
    | with_reducible intro _
    | with_reducible assumption
    | (fail_if_no_progress (extract_lets +onlyGivenNames x)
       first
       | (refine Kept.cutP (q := q) (x := x) ?_ ?_ <;> [unfold x; ((try clear_value x); intro _)])
       | clear_value x
       | skip)
    | with_reducible apply State.memReadL_kept
    | with_reducible apply State.memWrite_kept
    | with_reducible apply Kept.ite
    | with_reducible apply Kept.iteP
    | split
    | (refine Kept.getP ?_ (by assumption) <;> with_reducible apply State.memReadL_kept)

theorem State.txCopy_kept {s : State} (h0 : s.Kept q) (a1) : (State.txCopy s a1).Kept q := by
  unfold State.txCopy
  repeat' first
    | with_reducible intro _
    | with_reducible assumption
    | (fail_if_no_progress (extract_lets +onlyGivenNames x)
       first
       | (refine Kept.cutP (q := q) (x := x) ?_ ?_ <;> [unfold x; ((try clear_value x); intro _)])
       | clear_value x
       | skip)
    | with_reducible apply State.txCopyWord_kept
    | with_reducible apply State.laneLines_kept
    | with_reducible apply Kept.foldlFields
    | exact Reg.fields_listed _ _ (by assumption)
    | with_reducible apply Kept.foldl
    | with_reducible apply Kept.foldlP

theorem State.txCommit_kept {s : State} (h0 : s.Kept q) (a1) (a2) : (State.txCommit s a1 a2).1.Kept q := by
  unfold State.txCommit
  repeat' first
    | with_reducible assumption
    | with_reducible apply State.txCopy_kept
    | with_reducible apply Kept.ite
    | with_reducible apply Kept.iteP
    | split

theorem execTxCommit_kept (a0) (a1) (a2) {s : State} (h0 : s.Kept q) : KeptN q (execTxCommit a0 a1 a2 s) := by
  unfold execTxCommit
  repeat' first
    | with_reducible intro _
    | with_reducible assumption
    | with_reducible apply State.writing_kept
    | with_reducible apply State.txCommit_kept
    | with_reducible apply KeptN.next
    | with_reducible apply Kept.id

theorem State.txIndexNext_kept {s : State} (h0 : s.Kept q) (a1) : (State.txIndexNext s a1).Kept q := by
  unfold State.txIndexNext
  repeat' first
    | with_reducible assumption
    | ((with_reducible show Fld.listed _ = true); rfl)
    | with_reducible apply State.wr_kept

theorem State.txDataWrite_kept {s : State} (h0 : s.Kept q) (a1) (a2) : (State.txDataWrite s a1 a2).1.Kept q := by
  unfold State.txDataWrite
  repeat' first
    | with_reducible assumption
    | (fail_if_no_progress (extract_lets +onlyGivenNames x)
       first
       | (refine Kept.cut (q := q) (x := x) ?_ ?_ <;> [unfold x; ((try clear_value x); intro _)])
       | clear_value x
       | skip)
    | with_reducible apply State.memWrite_kept
    | with_reducible apply State.txIndexNext_kept
    | with_reducible apply Kept.ite
    | with_reducible apply Kept.iteP
    | split

theorem State.txDataRead_kept {s : State} (h0 : s.Kept q) (a1) : (State.txDataRead s a1).1.Kept q := by
  unfold State.txDataRead
  repeat' first
    | with_reducible assumption
    | (fail_if_no_progress (extract_lets +onlyGivenNames x)
       first
       | (refine Kept.cutP (q := q) (x := x) ?_ ?_ <;> [unfold x; ((try clear_value x); intro _)])
       | clear_value x
       | skip)
    | with_reducible apply State.txIndexNext_kept
    | with_reducible apply State.memReadL_kept
    | with_reducible apply State.laneLines_kept
    | with_reducible apply Kept.ite
    | with_reducible apply Kept.iteP
    | split

theorem execLaneTxCoefData_kept (a0) (a1) (a2) {s : State} (h0 : s.Kept q) : KeptN q (execLaneTxCoefData a0 a1 a2 s) := by
  unfold execLaneTxCoefData
  repeat' first
    | with_reducible intro _
    | with_reducible assumption
    | with_reducible apply State.writing_kept
    | with_reducible apply State.txDataWrite_kept
    | with_reducible apply State.readingMem_kept
    | with_reducible apply State.txDataRead_kept
    | with_reducible apply KeptN.next
    | split
    | (refine Kept.getP ?_ (by assumption) <;> with_reducible apply State.txDataWrite_kept)
    | (refine Kept.getP ?_ (by assumption) <;> with_reducible apply State.txDataRead_kept)
    | with_reducible apply Kept.id

theorem State.txSmokeWrite_kept {s : State} (h0 : s.Kept q) (a1) (a2) : (State.txSmokeWrite s a1 a2).1.Kept q := by
  unfold State.txSmokeWrite
  repeat' first
    | with_reducible assumption
    | ((with_reducible show Fld.listed _ = true); rfl)
    | (fail_if_no_progress (extract_lets +onlyGivenNames x)
       first
       | (refine Kept.cut (q := q) (x := x) ?_ ?_ <;> [unfold x; ((try clear_value x); intro _)])
       | clear_value x
       | skip)
    | with_reducible apply State.put_kept
    | with_reducible apply State.wr_kept
    | with_reducible apply State.rippleOff_kept
    | with_reducible apply Kept.ite
    | with_reducible apply Kept.iteP
    | split

theorem execLaneTxSmokeWrite_kept (a0) (a1) (a2) {s : State} (h0 : s.Kept q) : KeptN q (execLaneTxSmokeWrite a0 a1 a2 s) := by
  unfold execLaneTxSmokeWrite
  repeat' first
    | with_reducible intro _
    | with_reducible assumption
    | with_reducible apply State.writing_kept
    | with_reducible apply State.txSmokeWrite_kept
    | with_reducible apply KeptN.next
    | with_reducible apply Kept.id

theorem execSaturationWindow_kept (a0) {s : State} (h0 : s.Kept q) : KeptN q (execSaturationWindow a0 s) := by
  unfold execSaturationWindow
  repeat' first
    | with_reducible assumption
    | ((with_reducible show Fld.listed _ = true); rfl)
    | with_reducible apply State.laneMod_kept
    | with_reducible apply State.eventIf_kept
    | with_reducible apply KeptN.next

theorem execSampleQueueUnderflow_kept (a0) {s : State} (h0 : s.Kept q) : KeptN q (execSampleQueueUnderflow a0 s) := by
  unfold execSampleQueueUnderflow
  repeat' first
    | with_reducible intro _
    | with_reducible assumption
    | ((with_reducible show Fld.listed _ = true); rfl)
    | (fail_if_no_progress (extract_lets +onlyGivenNames x)
       first
       | (refine Kept.cut (q := q) (x := x) ?_ ?_ <;> [unfold x; ((try clear_value x); intro _)])
       | clear_value x
       | skip)
    | with_reducible apply State.event_kept
    | with_reducible apply State.laneMod_kept
    | with_reducible apply State.errorLine_kept
    | with_reducible apply State.laneForce_kept
    | with_reducible apply KeptN.next
    | with_reducible apply Kept.ite
    | with_reducible apply Kept.iteP
    | split

theorem execDacCalibrationEnd_kept (a0) (a1) {s : State} (h0 : s.Kept q) : KeptN q (execDacCalibrationEnd a0 a1 s) := by
  unfold execDacCalibrationEnd
  repeat' first
    | with_reducible assumption
    | ((with_reducible show Fld.listed _ = true); rfl)
    | with_reducible apply State.eventIf_kept
    | with_reducible apply State.put_kept
    | with_reducible apply KeptN.next
    | with_reducible apply Kept.ite
    | with_reducible apply Kept.iteP
    | split

theorem execShortDetect_kept (a0) (a1) (a2) {s : State} (h0 : s.Kept q) : KeptN q (execShortDetect a0 a1 a2 s) := by
  unfold execShortDetect
  repeat' first
    | with_reducible assumption
    | with_reducible apply State.shortSet_kept
    | with_reducible apply KeptN.next
    | with_reducible apply Kept.ite
    | with_reducible apply Kept.iteP
    | split

theorem execShortClear_kept (a0) (a1) {s : State} (h0 : s.Kept q) : KeptN q (execShortClear a0 a1 s) := by
  unfold execShortClear
  repeat' first
    | with_reducible assumption
    | with_reducible apply State.shortSet_kept
    | with_reducible apply KeptN.next

theorem State.laneTxWrite_kept {s : State} (h0 : s.Kept q) (a1) (a2) (a3) : KeptOP q (State.laneTxWrite s a1 a2 a3) := by
  unfold State.laneTxWrite
  repeat' first
    | with_reducible intro _
    | with_reducible assumption
    | with_reducible apply State.txCommit_kept
    | with_reducible apply State.txDataWrite_kept
    | with_reducible apply State.txSmokeWrite_kept
    | with_reducible apply KeptOP.none
    | with_reducible apply KeptOP.some
    | with_reducible apply Kept.ite
    | with_reducible apply Kept.iteP
    | split
    | (refine Kept.getP ?_ (by assumption) <;> with_reducible apply State.txCommit_kept)
    | (refine Kept.getP ?_ (by assumption) <;> with_reducible apply State.txDataWrite_kept)
    | (refine Kept.getP ?_ (by assumption) <;> with_reducible apply State.txSmokeWrite_kept)

end Sys2Proof.Machine
end

