-- ==== Sys2Proof/Laws/KeptMcv.lean ====
section
/-!
SUPPORT. Every operation of Machine/Mcv.lean keeps the stores canonical and the queue as it stands.
-/

set_option linter.unusedVariables false
set_option linter.unusedTactic false
set_option linter.unreachableTactic false
set_option linter.unnecessarySeqFocus false

namespace Sys2Proof.Machine

variable {q : List Instr}

theorem State.simGo_kept {s : State} (h0 : s.Kept q) : (State.simGo s).Kept q := by
  unfold State.simGo
  repeat' first
    | with_reducible intro _
    | with_reducible assumption
    | (fail_if_no_progress (extract_lets +onlyGivenNames x)
       first
       | clear_value x
       | skip)
    | with_reducible apply State.setConv_kept
    | with_reducible apply Kept.foldlFields
    | exact Reg.fields_listed _ _ (by assumption)
    | with_reducible apply Kept.foldl
    | with_reducible apply Kept.foldlP

theorem State.seqDrop_kept {s : State} (h0 : s.Kept q) (a1) (a2) : (State.seqDrop s a1 a2).Kept q := by
  unfold State.seqDrop
  repeat' first
    | with_reducible intro _
    | with_reducible assumption
    | with_reducible apply State.resultBack_kept
    | with_reducible apply Kept.foldlFields
    | exact Reg.fields_listed _ _ (by assumption)
    | with_reducible apply Kept.foldl
    | with_reducible apply Kept.foldlP
    | with_reducible apply Kept.ite
    | split

theorem State.convStop_kept {s : State} (h0 : s.Kept q) (a1) : (State.convStop s a1).Kept q := by
  unfold State.convStop
  repeat' first
    | with_reducible intro _
    | with_reducible assumption
    | (fail_if_no_progress (extract_lets +onlyGivenNames x)
       first
       | (refine Kept.cut (q := q) (x := x) ?_ ?_ <;> [unfold x; ((try clear_value x); intro _)])
       | clear_value x
       | skip)
    | with_reducible apply State.setConv_kept
    | with_reducible apply State.simGo_kept
    | with_reducible apply State.refSettle_kept
    | with_reducible apply State.seqDrop_kept
    | with_reducible apply Kept.ite
    | split

theorem State.convGo_kept {s : State} (h0 : s.Kept q) (a1) : (State.convGo s a1).Kept q := by
  unfold State.convGo
  repeat' first
    | with_reducible assumption
    | (fail_if_no_progress (extract_lets +onlyGivenNames x)
       first
       | (refine Kept.cut (q := q) (x := x) ?_ ?_ <;> [unfold x; ((try clear_value x); intro _)])
       | clear_value x
       | skip)
    | with_reducible apply State.setConv_kept
    | with_reducible apply State.convTrigger_kept
    | with_reducible apply Kept.ite
    | split

theorem State.mcvCtlWrite_kept {s : State} (h0 : s.Kept q) (a1) (a2) : (State.mcvCtlWrite s a1 a2).1.Kept q := by
  unfold State.mcvCtlWrite
  repeat' first
    | with_reducible assumption
    | ((with_reducible show Fld.listed _ = true); rfl)
    | (fail_if_no_progress (extract_lets +onlyGivenNames x)
       first
       | (refine Kept.cut (q := q) (x := x) ?_ ?_ <;> [unfold x; ((try clear_value x); intro _)])
       | clear_value x
       | skip)
    | with_reducible apply State.setConv_kept
    | with_reducible apply State.wr_kept
    | with_reducible apply State.convStop_kept
    | with_reducible apply State.convGo_kept
    | with_reducible apply State.refSettle_kept
    | with_reducible apply Kept.ite
    | with_reducible apply Kept.iteP
    | split

theorem execMcvGo_kept (a0) (a1) (a2) {s : State} (h0 : s.Kept q) : KeptN q (execMcvGo a0 a1 a2 s) := by
  unfold execMcvGo
  repeat' first
    | with_reducible intro _
    | with_reducible assumption
    | with_reducible apply State.writing_kept
    | with_reducible apply State.mcvCtlWrite_kept
    | with_reducible apply KeptN.next
    | with_reducible apply Kept.id

theorem execMcvStop_kept (a0) (a1) (a2) {s : State} (h0 : s.Kept q) : KeptN q (execMcvStop a0 a1 a2 s) := by
  unfold execMcvStop
  repeat' first
    | with_reducible intro _
    | with_reducible assumption
    | with_reducible apply State.writing_kept
    | with_reducible apply State.mcvCtlWrite_kept
    | with_reducible apply KeptN.next
    | with_reducible apply Kept.id

theorem execMcvPeriodicTrigger_kept (a0) {s : State} (h0 : s.Kept q) : KeptN q (execMcvPeriodicTrigger a0 s) := by
  unfold execMcvPeriodicTrigger
  repeat' first
    | with_reducible intro _
    | with_reducible assumption
    | (fail_if_no_progress (extract_lets +onlyGivenNames x)
       first
       | (refine Kept.cut (q := q) (x := x) ?_ ?_ <;> [unfold x; ((try clear_value x); intro _)])
       | clear_value x
       | skip)
    | with_reducible apply State.setConv_kept
    | with_reducible apply State.convTrigger_kept
    | with_reducible apply State.wakeBlock_kept
    | with_reducible apply KeptN.next
    | with_reducible apply Kept.ite
    | with_reducible apply Kept.iteP
    | split

theorem State.urgNext_kept {s : State} (h0 : s.Kept q) (a1) : (State.urgNext s a1).Kept q := by
  unfold State.urgNext
  repeat' first
    | with_reducible intro _
    | with_reducible assumption
    | (fail_if_no_progress (extract_lets +onlyGivenNames x)
       first
       | clear_value x
       | skip)
    | with_reducible apply State.resultDue_kept
    | with_reducible apply State.setConv_kept
    | split

theorem State.urgentWrite_kept {s : State} (h0 : s.Kept q) (a1) (a2) : (State.urgentWrite s a1 a2).1.Kept q := by
  unfold State.urgentWrite
  repeat' first
    | with_reducible assumption
    | (fail_if_no_progress (extract_lets +onlyGivenNames x)
       first
       | clear_value x
       | skip)
    | with_reducible apply State.urgNext_kept
    | with_reducible apply State.setConv_kept
    | with_reducible apply Kept.ite
    | with_reducible apply Kept.iteP
    | split

theorem execMcvUrgent_kept (a0) (a1) (a2) {s : State} (h0 : s.Kept q) : KeptN q (execMcvUrgent a0 a1 a2 s) := by
  unfold execMcvUrgent
  repeat' first
    | with_reducible intro _
    | with_reducible assumption
    | with_reducible apply State.writing_kept
    | with_reducible apply State.urgentWrite_kept
    | with_reducible apply KeptN.next
    | with_reducible apply Kept.id

theorem State.thermalConv_kept {s : State} (h0 : s.Kept q) (a1) : (State.thermalConv s a1).Kept q := by
  unfold State.thermalConv
  repeat' first
    | with_reducible assumption
    | (fail_if_no_progress (extract_lets +onlyGivenNames x)
       first
       | (refine Kept.cut (q := q) (x := x) ?_ ?_ <;> [unfold x; ((try clear_value x); intro _)])
       | clear_value x
       | skip)
    | with_reducible apply State.setConv_kept
    | with_reducible apply State.refSettle_kept
    | with_reducible apply Kept.ite
    | split
    | fail_if_no_progress (with_reducible apply Kept.upd)

theorem State.thermalWaits_kept {s : State} (h0 : s.Kept q) : (State.thermalWaits s).Kept q := by
  unfold State.thermalWaits
  repeat' first
    | with_reducible assumption
    | with_reducible apply State.wakeBlock_kept
    | fail_if_no_progress (with_reducible apply Kept.upd)

theorem State.capStart_kept {s : State} (h0 : s.Kept q) (a1) : (State.capStart s a1).Kept q := by
  unfold State.capStart
  repeat' first
    | with_reducible assumption
    | ((with_reducible show Fld.listed _ = true); rfl)
    | (fail_if_no_progress (extract_lets +onlyGivenNames x)
       first
       | (refine Kept.cut (q := q) (x := x) ?_ ?_ <;> [unfold x; ((try clear_value x); intro _)])
       | clear_value x
       | skip)
    | with_reducible apply State.put_kept
    | with_reducible apply State.setCap_kept
    | with_reducible apply State.wr_kept

theorem State.capCtlWrite_kept {s : State} (h0 : s.Kept q) (a1) (a2) : (State.capCtlWrite s a1 a2).1.Kept q := by
  unfold State.capCtlWrite
  repeat' first
    | with_reducible assumption
    | ((with_reducible show Fld.listed _ = true); rfl)
    | (fail_if_no_progress (extract_lets +onlyGivenNames x)
       first
       | (refine Kept.cut (q := q) (x := x) ?_ ?_ <;> [unfold x; ((try clear_value x); intro _)])
       | clear_value x
       | skip)
    | with_reducible apply State.wr_kept
    | with_reducible apply State.capAbandon_kept
    | with_reducible apply State.capEnd_kept
    | with_reducible apply State.capStart_kept
    | with_reducible apply Kept.ite
    | with_reducible apply Kept.iteP
    | split

theorem execMcvCaptureStart_kept (a0) (a1) (a2) {s : State} (h0 : s.Kept q) : KeptN q (execMcvCaptureStart a0 a1 a2 s) := by
  unfold execMcvCaptureStart
  repeat' first
    | with_reducible intro _
    | with_reducible assumption
    | with_reducible apply State.writing_kept
    | with_reducible apply State.capCtlWrite_kept
    | with_reducible apply KeptN.next
    | with_reducible apply Kept.id

theorem execMcvCaptureStop_kept (a0) (a1) (a2) {s : State} (h0 : s.Kept q) : KeptN q (execMcvCaptureStop a0 a1 a2 s) := by
  unfold execMcvCaptureStop
  repeat' first
    | with_reducible intro _
    | with_reducible assumption
    | with_reducible apply State.writing_kept
    | with_reducible apply State.capCtlWrite_kept
    | with_reducible apply KeptN.next
    | with_reducible apply Kept.id

theorem State.capRecord_kept {s : State} (h0 : s.Kept q) (a1) (a2) : (State.capRecord s a1 a2).Kept q := by
  unfold State.capRecord
  repeat' first
    | with_reducible assumption
    | ((with_reducible show Fld.listed _ = true); rfl)
    | (fail_if_no_progress (extract_lets +onlyGivenNames x)
       first
       | (refine Kept.cut (q := q) (x := x) ?_ ?_ <;> [unfold x; ((try clear_value x); intro _)])
       | clear_value x
       | skip)
    | with_reducible apply State.wr_kept
    | with_reducible apply State.st_kept
    | with_reducible apply State.capEnd_kept
    | with_reducible apply Kept.ite
    | split

theorem State.urgDone_kept {s : State} (h0 : s.Kept q) (a1) (a2) (a3) : (State.urgDone s a1 a2 a3).Kept q := by
  unfold State.urgDone
  repeat' first
    | with_reducible assumption
    | (fail_if_no_progress (extract_lets +onlyGivenNames x)
       first
       | (refine Kept.cut (q := q) (x := x) ?_ ?_ <;> [unfold x; ((try clear_value x); intro _)])
       | clear_value x
       | skip)
    | with_reducible apply State.resultDone_kept
    | with_reducible apply State.setConv_kept
    | with_reducible apply State.irq_kept
    | with_reducible apply State.urgNext_kept
    | with_reducible apply Kept.ite
    | split

theorem State.seqDone_kept {s : State} (h0 : s.Kept q) (a1) (a2) (a3) : (State.seqDone s a1 a2 a3).Kept q := by
  unfold State.seqDone
  repeat' first
    | with_reducible assumption
    | ((with_reducible show Fld.listed _ = true); rfl)
    | (fail_if_no_progress (extract_lets +onlyGivenNames x)
       first
       | (refine Kept.cut (q := q) (x := x) ?_ ?_ <;> [unfold x; ((try clear_value x); intro _)])
       | clear_value x
       | skip)
    | with_reducible apply State.resultDone_kept
    | with_reducible apply State.setConv_kept
    | with_reducible apply State.irq_kept
    | with_reducible apply State.seqDrop_kept
    | with_reducible apply State.wr_kept
    | with_reducible apply Kept.ite
    | split

theorem State.capSettle_kept {s : State} (h0 : s.Kept q) (a1) : (State.capSettle s a1).Kept q := by
  unfold State.capSettle
  repeat' first
    | with_reducible assumption
    | (fail_if_no_progress (extract_lets +onlyGivenNames x)
       first
       | clear_value x
       | skip)
    | with_reducible apply State.setCap_kept
    | with_reducible apply Kept.ite
    | split

theorem State.slotDone_kept {s : State} (h0 : s.Kept q) (a1) (a2) : (State.slotDone s a1 a2).Kept q := by
  unfold State.slotDone
  repeat' first
    | with_reducible intro _
    | with_reducible assumption
    | (fail_if_no_progress (extract_lets +onlyGivenNames x)
       first
       | clear_value x
       | skip)
    | with_reducible apply State.capRecord_kept
    | with_reducible apply State.setConv_kept
    | with_reducible apply State.urgDone_kept
    | split

theorem State.convDone_kept {s : State} (h0 : s.Kept q) (a1) (a2) : (State.convDone s a1 a2).Kept q := by
  unfold State.convDone
  repeat' first
    | with_reducible intro _
    | with_reducible assumption
    | (fail_if_no_progress (extract_lets +onlyGivenNames x)
       first
       | clear_value x
       | skip)
    | with_reducible apply State.slotDone_kept
    | with_reducible apply State.refSettle_kept
    | with_reducible apply State.capSettle_kept
    | with_reducible apply State.urgDone_kept
    | with_reducible apply State.seqDone_kept
    | with_reducible apply Kept.ite
    | split

theorem execMcvConversionDone_kept (a0) (a1) {s : State} (h0 : s.Kept q) : KeptN q (execMcvConversionDone a0 a1 s) := by
  unfold execMcvConversionDone
  repeat' first
    | with_reducible assumption
    | with_reducible apply State.convDone_kept
    | with_reducible apply KeptN.next
    | with_reducible apply Kept.ite
    | with_reducible apply Kept.iteP
    | split

theorem State.simTrig_kept {s : State} (h0 : s.Kept q) (a1) (a2) : (State.simTrig s a1 a2).1.Kept q := by
  unfold State.simTrig
  repeat' first
    | with_reducible intro _
    | with_reducible assumption
    | ((with_reducible show Fld.listed _ = true); rfl)
    | (fail_if_no_progress (extract_lets +onlyGivenNames x)
       first
       | (refine Kept.cut (q := q) (x := x) ?_ ?_ <;> [unfold x; ((try clear_value x); intro _)])
       | clear_value x
       | skip)
    | with_reducible apply State.simGo_kept
    | with_reducible apply State.seqStart_kept
    | with_reducible apply State.bump_kept
    | with_reducible apply Kept.foldlFields
    | exact Reg.fields_listed _ _ (by assumption)
    | with_reducible apply Kept.foldl
    | with_reducible apply Kept.foldlP
    | with_reducible apply Kept.ite
    | with_reducible apply Kept.iteP
    | split

theorem execMcvSimTrig_kept (a0) (a1) {s : State} (h0 : s.Kept q) : KeptN q (execMcvSimTrig a0 a1 s) := by
  unfold execMcvSimTrig
  repeat' first
    | with_reducible intro _
    | with_reducible assumption
    | with_reducible apply State.writing_kept
    | with_reducible apply State.simTrig_kept
    | with_reducible apply KeptN.next
    | with_reducible apply Kept.id

theorem execReferenceWake_kept (a0) {s : State} (h0 : s.Kept q) : KeptN q (execReferenceWake a0 s) := by
  unfold execReferenceWake
  repeat' first
    | with_reducible assumption
    | with_reducible apply State.simGo_kept
    | with_reducible apply State.setRef_kept
    | with_reducible apply KeptN.next
    | with_reducible apply Kept.ite
    | with_reducible apply Kept.iteP
    | split

theorem State.convCal_kept {s : State} (h0 : s.Kept q) (a1) : (State.convCal s a1).Kept q := by
  unfold State.convCal
  repeat' first
    | with_reducible assumption
    | ((with_reducible show Fld.listed _ = true); rfl)
    | with_reducible apply State.put_kept

theorem execConverterCalibrationEnd_kept (a0) (a1) {s : State} (h0 : s.Kept q) : KeptN q (execConverterCalibrationEnd a0 a1 s) := by
  unfold execConverterCalibrationEnd
  repeat' first
    | with_reducible assumption
    | ((with_reducible show Fld.listed _ = true); rfl)
    | (fail_if_no_progress (extract_lets +onlyGivenNames x)
       first
       | (refine Kept.cut (q := q) (x := x) ?_ ?_ <;> [unfold x; ((try clear_value x); intro _)])
       | clear_value x
       | skip)
    | with_reducible apply State.simGo_kept
    | with_reducible apply State.put_kept
    | with_reducible apply State.errorLine_kept
    | with_reducible apply KeptN.next
    | with_reducible apply Kept.ite
    | with_reducible apply Kept.iteP
    | split

theorem State.seqWrite_kept {s : State} (h0 : s.Kept q) (a1) (a2) : (State.seqWrite s a1 a2).1.Kept q := by
  unfold State.seqWrite
  repeat' first
    | with_reducible assumption
    | ((with_reducible show Fld.listed _ = true); rfl)
    | (fail_if_no_progress (extract_lets +onlyGivenNames x)
       first
       | clear_value x
       | skip)
    | with_reducible apply State.wr_kept
    | with_reducible apply Kept.ite
    | with_reducible apply Kept.iteP
    | split

theorem State.mcvWrite_kept {s : State} (h0 : s.Kept q) (a1) (a2) (a3) (a4) : KeptOP q (State.mcvWrite s a1 a2 a3 a4) := by
  unfold State.mcvWrite
  repeat' first
    | with_reducible intro _
    | with_reducible assumption
    | with_reducible apply State.simTrig_kept
    | with_reducible apply State.capCtlWrite_kept
    | with_reducible apply State.mcvCtlWrite_kept
    | with_reducible apply State.urgentWrite_kept
    | with_reducible apply State.seqWrite_kept
    | with_reducible apply KeptOP.none
    | with_reducible apply KeptOP.some
    | split
    | (refine Kept.getP ?_ (by assumption) <;> with_reducible apply State.simTrig_kept)
    | (refine Kept.getP ?_ (by assumption) <;> with_reducible apply State.capCtlWrite_kept)
    | (refine Kept.getP ?_ (by assumption) <;> with_reducible apply State.mcvCtlWrite_kept)
    | (refine Kept.getP ?_ (by assumption) <;> with_reducible apply State.urgentWrite_kept)
    | (refine Kept.getP ?_ (by assumption) <;> with_reducible apply State.seqWrite_kept)

theorem State.capDataRead_kept {s : State} (h0 : s.Kept q) (a1) : (State.capDataRead s a1).1.Kept q := by
  unfold State.capDataRead
  repeat' first
    | with_reducible assumption
    | ((with_reducible show Fld.listed _ = true); rfl)
    | with_reducible apply State.bumpWrap_kept

theorem execMcvCapData_kept (a0) (a1) {s : State} (h0 : s.Kept q) : KeptN q (execMcvCapData a0 a1 s) := by
  unfold execMcvCapData
  repeat' first
    | with_reducible intro _
    | with_reducible assumption
    | with_reducible apply State.reading_kept
    | with_reducible apply State.capDataRead_kept
    | with_reducible apply KeptN.next
    | with_reducible apply Kept.id

theorem State.resultRead_kept {s : State} (h0 : s.Kept q) (a1) (a2) : (State.resultRead s a1 a2).1.Kept q := by
  unfold State.resultRead
  repeat' first
    | with_reducible assumption
    | with_reducible apply resFresh_listed
    | with_reducible apply State.wrRes_kept
    | with_reducible apply Kept.ite
    | with_reducible apply Kept.iteP
    | split

theorem execMcvResultRead_kept (a0) (a1) (a2) {s : State} (h0 : s.Kept q) : KeptN q (execMcvResultRead a0 a1 a2 s) := by
  unfold execMcvResultRead
  repeat' first
    | with_reducible intro _
    | with_reducible assumption
    | with_reducible apply State.reading_kept
    | with_reducible apply State.resultRead_kept
    | with_reducible apply KeptN.next
    | with_reducible apply Kept.ite
    | with_reducible apply Kept.iteP
    | split
    | with_reducible apply Kept.id

end Sys2Proof.Machine
end

