-- ==== Sys2Proof/Laws/KeptPerf.lean ====
section
/-!
SUPPORT. Every operation of Machine/Perf.lean keeps the stores canonical and the queue as it stands.
-/

set_option linter.unusedVariables false
set_option linter.unusedTactic false
set_option linter.unreachableTactic false
set_option linter.unnecessarySeqFocus false

namespace Sys2Proof.Machine

variable {q : List Instr}

theorem State.selWrite_kept {s : State} (h0 : s.Kept q) (a1) (a2) : (State.selWrite s a1 a2).1.Kept q := by
  unfold State.selWrite
  repeat' first
    | with_reducible assumption
    | ((with_reducible show Fld.listed _ = true); rfl)
    | with_reducible apply State.wr_kept
    | with_reducible apply Kept.ite
    | with_reducible apply Kept.iteP
    | split

theorem execPerfSelWrite_kept (a0) (a1) (a2) {s : State} (h0 : s.Kept q) : KeptN q (execPerfSelWrite a0 a1 a2 s) := by
  unfold execPerfSelWrite
  repeat' first
    | with_reducible intro _
    | with_reducible assumption
    | with_reducible apply State.writing_kept
    | with_reducible apply State.selWrite_kept
    | with_reducible apply KeptN.next
    | with_reducible apply Kept.id

theorem State.cntWrite_kept {s : State} (h0 : s.Kept q) (a1) (a2) (a3) : (State.cntWrite s a1 a2 a3).1.Kept q := by
  unfold State.cntWrite
  repeat' first
    | with_reducible intro _
    | with_reducible assumption
    | ((with_reducible show Fld.listed _ = true); rfl)
    | with_reducible apply State.wr_kept
    | with_reducible apply State.perfSet_kept
    | with_reducible apply Kept.ite
    | with_reducible apply Kept.iteP
    | split

theorem execPerfCntWrite_kept (a0) (a1) (a2) (a3) {s : State} (h0 : s.Kept q) : KeptN q (execPerfCntWrite a0 a1 a2 a3 s) := by
  unfold execPerfCntWrite
  repeat' first
    | with_reducible intro _
    | with_reducible assumption
    | with_reducible apply State.writing_kept
    | with_reducible apply State.cntWrite_kept
    | with_reducible apply KeptN.next
    | with_reducible apply Kept.id

theorem execCounterOverflow_kept (a0) (a1) {s : State} (h0 : s.Kept q) : KeptN q (execCounterOverflow a0 a1 s) := by
  unfold execCounterOverflow
  repeat' first
    | with_reducible assumption
    | with_reducible apply State.perfAdd_kept
    | with_reducible apply KeptN.next
    | with_reducible apply Kept.ite
    | with_reducible apply Kept.iteP
    | split

theorem State.perfClear_kept {s : State} (h0 : s.Kept q) : (State.perfClear s).Kept q := by
  unfold State.perfClear
  repeat' first
    | with_reducible intro _
    | with_reducible assumption
    | with_reducible apply State.perfSet_kept
    | with_reducible apply State.perfFlush_kept
    | with_reducible apply Kept.foldlFields
    | exact Reg.fields_listed _ _ (by assumption)
    | with_reducible apply Kept.foldl
    | with_reducible apply Kept.foldlP
    | with_reducible apply Kept.ite
    | split

theorem State.ringPair_kept {s : State} (h0 : s.Kept q) (a1) (a2) (a3) : (State.ringPair s a1 a2 a3).Kept q := by
  unfold State.ringPair
  repeat' first
    | with_reducible assumption
    | with_reducible apply State.writeMark_kept
    | with_reducible apply State.st_kept
    | with_reducible apply Kept.ite
    | split

theorem State.ringWord_kept {s : State} (h0 : s.Kept q) (a1) : (State.ringWord s a1).1.Kept q := by
  unfold State.ringWord
  repeat' first
    | with_reducible assumption
    | with_reducible apply State.memRead_kept

theorem State.ringFlag_kept {s : State} (h0 : s.Kept q) (a1) (a2) : (State.ringFlag s a1 a2).Kept q := by
  unfold State.ringFlag
  repeat' first
    | with_reducible intro _
    | with_reducible assumption
    | (fail_if_no_progress (extract_lets +onlyGivenNames x)
       first
       | (refine Kept.cutP (q := q) (x := x) ?_ ?_ <;> [unfold x; ((try clear_value x); intro _)])
       | clear_value x
       | skip)
    | with_reducible apply State.ringWord_kept
    | with_reducible apply State.unlessReset_kept
    | with_reducible apply State.ringPair_kept
    | split
    | (refine Kept.getP ?_ (by assumption) <;> with_reducible apply State.ringWord_kept)
    | with_reducible apply Kept.id

theorem State.snapTake_kept {s : State} (h0 : s.Kept q) (a1) (a2) : (State.snapTake s a1 a2).Kept q := by
  unfold State.snapTake
  repeat' first
    | with_reducible intro _
    | with_reducible assumption
    | ((with_reducible show Fld.listed _ = true); rfl)
    | (fail_if_no_progress (extract_lets +onlyGivenNames x)
       first
       | (refine Kept.cut (q := q) (x := x) ?_ ?_ <;> [unfold x; ((try clear_value x); intro _)])
       | clear_value x
       | skip)
    | with_reducible apply State.bump_kept
    | with_reducible apply State.perfFlush_kept
    | with_reducible apply State.ringFlag_kept
    | with_reducible apply State.put_kept
    | with_reducible apply State.unlessReset_kept
    | with_reducible apply State.perfClear_kept
    | with_reducible apply Kept.ite
    | split
    | fail_if_no_progress (with_reducible apply Kept.upd)
    | with_reducible apply Kept.id

theorem State.dumpWrite_kept {s : State} (h0 : s.Kept q) (a1) : (State.dumpWrite s a1).1.Kept q := by
  unfold State.dumpWrite
  repeat' first
    | with_reducible assumption
    | with_reducible apply State.snapTake_kept
    | with_reducible apply Kept.ite
    | with_reducible apply Kept.iteP
    | split

theorem execPerfNow_kept (a0) {s : State} (h0 : s.Kept q) : KeptN q (execPerfNow a0 s) := by
  unfold execPerfNow
  repeat' first
    | with_reducible intro _
    | with_reducible assumption
    | with_reducible apply State.writing_kept
    | with_reducible apply State.dumpWrite_kept
    | with_reducible apply KeptN.next
    | with_reducible apply Kept.id

theorem execPerfNowClear_kept (a0) {s : State} (h0 : s.Kept q) : KeptN q (execPerfNowClear a0 s) := by
  unfold execPerfNowClear
  repeat' first
    | with_reducible intro _
    | with_reducible assumption
    | with_reducible apply State.writing_kept
    | with_reducible apply State.dumpWrite_kept
    | with_reducible apply KeptN.next
    | with_reducible apply Kept.id

theorem State.dumpCfgWrite_kept {s : State} (h0 : s.Kept q) (a1) : (State.dumpCfgWrite s a1).1.Kept q := by
  unfold State.dumpCfgWrite
  repeat' first
    | with_reducible assumption
    | ((with_reducible show Fld.listed _ = true); rfl)
    | (fail_if_no_progress (extract_lets +onlyGivenNames x)
       first
       | (refine Kept.cut (q := q) (x := x) ?_ ?_ <;> [unfold x; ((try clear_value x); intro _)])
       | clear_value x
       | skip)
    | with_reducible apply State.wr_kept
    | with_reducible apply Kept.ite
    | with_reducible apply Kept.iteP
    | split
    | fail_if_no_progress (with_reducible apply Kept.upd)

theorem execPeriodicSnapshot_kept {s : State} (h0 : s.Kept q) : KeptN q (execPeriodicSnapshot s) := by
  unfold execPeriodicSnapshot
  repeat' first
    | with_reducible intro _
    | with_reducible assumption
    | with_reducible apply State.wakeBlock_kept
    | with_reducible apply State.snapTake_kept
    | with_reducible apply KeptN.next
    | with_reducible apply Kept.ite
    | with_reducible apply Kept.iteP
    | split
    | fail_if_no_progress (with_reducible apply Kept.upd)

theorem State.ringPut_kept {s : State} (h0 : s.Kept q) (a1) : ∀ l, (State.ringPut s a1 l).Kept q
  | a :: b :: rest => by
    unfold State.ringPut
    exact State.ringPut_kept (State.ringPair_kept (State.dataPath_kept h0 _) _ _ _) _ rest
  | [] => by unfold State.ringPut; exact h0
  | [_] => by unfold State.ringPut; exact h0


theorem State.mirrorPut_kept {s : State} (h0 : s.Kept q) (a1) (a2) : (State.mirrorPut s a1 a2).Kept q := by
  unfold State.mirrorPut
  repeat' first
    | with_reducible assumption
    | ((with_reducible show Fld.listed _ = true); rfl)
    | (fail_if_no_progress (extract_lets +onlyGivenNames x)
       first
       | clear_value x
       | skip)
    | with_reducible apply State.bump_kept
    | with_reducible apply State.perfCh_kept
    | with_reducible apply State.bumpWrap_kept
    | with_reducible apply State.stRun_kept
    | with_reducible apply Kept.ite
    | split

theorem State.ringAdvance_kept {s : State} (h0 : s.Kept q) : (State.ringAdvance s).Kept q := by
  unfold State.ringAdvance
  repeat' first
    | with_reducible assumption
    | ((with_reducible show Fld.listed _ = true); rfl)
    | (fail_if_no_progress (extract_lets +onlyGivenNames x)
       first
       | (refine Kept.cut (q := q) (x := x) ?_ ?_ <;> [unfold x; ((try clear_value x); intro _)])
       | clear_value x
       | skip)
    | with_reducible apply State.wr_kept
    | with_reducible apply State.bump_kept
    | with_reducible apply Kept.ite
    | split

theorem execSnapshotWritten_kept {s : State} (h0 : s.Kept q) : KeptN q (execSnapshotWritten s) := by
  unfold execSnapshotWritten
  repeat' first
    | with_reducible intro _
    | with_reducible assumption
    | ((with_reducible show Fld.listed _ = true); rfl)
    | (fail_if_no_progress (extract_lets +onlyGivenNames x)
       first
       | (refine Kept.cut (q := q) (x := x) ?_ ?_ <;> [unfold x; ((try clear_value x); intro _)])
       | clear_value x
       | skip)
    | with_reducible apply State.ringPut_kept
    | with_reducible apply State.put_kept
    | with_reducible apply State.ringAdvance_kept
    | with_reducible apply State.mirrorPut_kept
    | with_reducible apply KeptN.next
    | with_reducible apply Kept.ite
    | with_reducible apply Kept.iteP
    | split
    | fail_if_no_progress (with_reducible apply Kept.upd)

theorem State.ringWrite_kept {s : State} (h0 : s.Kept q) (a1) : (State.ringWrite s a1).1.Kept q := by
  unfold State.ringWrite
  repeat' first
    | with_reducible assumption
    | ((with_reducible show Fld.listed _ = true); rfl)
    | (fail_if_no_progress (extract_lets +onlyGivenNames x)
       first
       | clear_value x
       | skip)
    | with_reducible apply State.wr_kept
    | with_reducible apply Kept.ite
    | with_reducible apply Kept.iteP
    | split

theorem execPerfRingTailWrite_kept (a0) (a1) {s : State} (h0 : s.Kept q) : KeptN q (execPerfRingTailWrite a0 a1 s) := by
  unfold execPerfRingTailWrite
  repeat' first
    | with_reducible intro _
    | with_reducible assumption
    | with_reducible apply State.writing_kept
    | with_reducible apply State.ringWrite_kept
    | with_reducible apply KeptN.next
    | with_reducible apply Kept.id

theorem State.mirrorWrite_kept {s : State} (h0 : s.Kept q) (a1) : (State.mirrorWrite s a1).1.Kept q := by
  unfold State.mirrorWrite
  repeat' first
    | with_reducible assumption
    | ((with_reducible show Fld.listed _ = true); rfl)
    | with_reducible apply State.wr_kept
    | with_reducible apply Kept.ite
    | with_reducible apply Kept.iteP
    | split

theorem State.perfWrite_kept {s : State} (h0 : s.Kept q) (a1) (a2) (a3) : KeptOP q (State.perfWrite s a1 a2 a3) := by
  unfold State.perfWrite
  repeat' first
    | with_reducible intro _
    | with_reducible assumption
    | with_reducible apply State.selWrite_kept
    | with_reducible apply State.dumpWrite_kept
    | with_reducible apply State.dumpCfgWrite_kept
    | with_reducible apply State.ringWrite_kept
    | with_reducible apply State.mirrorWrite_kept
    | with_reducible apply KeptOP.none
    | with_reducible apply KeptOP.some
    | with_reducible apply Kept.ite
    | with_reducible apply Kept.iteP
    | split
    | (refine Kept.getP ?_ (by assumption) <;> with_reducible apply State.selWrite_kept)
    | (refine Kept.getP ?_ (by assumption) <;> with_reducible apply State.dumpWrite_kept)
    | (refine Kept.getP ?_ (by assumption) <;> with_reducible apply State.dumpCfgWrite_kept)
    | (refine Kept.getP ?_ (by assumption) <;> with_reducible apply State.ringWrite_kept)
    | (refine Kept.getP ?_ (by assumption) <;> with_reducible apply State.mirrorWrite_kept)

theorem State.ringSpoil_kept {s : State} (h0 : s.Kept q) (a1) : (State.ringSpoil s a1).Kept q := by
  unfold State.ringSpoil
  repeat' first
    | with_reducible assumption
    | with_reducible apply State.ringFlag_kept
    | with_reducible apply Kept.ite
    | split

theorem State.ringRead_kept {s : State} (h0 : s.Kept q) (a1) : (State.ringRead s a1).1.Kept q := by
  unfold State.ringRead
  repeat' first
    | with_reducible intro _
    | with_reducible assumption
    | (fail_if_no_progress (extract_lets +onlyGivenNames x)
       first
       | (refine Kept.cutP (q := q) (x := x) ?_ ?_ <;> [unfold x; ((try clear_value x); intro _)])
       | clear_value x
       | skip)
    | with_reducible apply State.ringWord_kept
    | with_reducible apply State.unlessReset_kept
    | with_reducible apply State.ringSpoil_kept
    | with_reducible apply Kept.ite
    | with_reducible apply Kept.iteP
    | split
    | (refine Kept.getP ?_ (by assumption) <;> with_reducible apply State.ringWord_kept)
    | with_reducible apply Kept.id

end Sys2Proof.Machine
end

