-- ==== Sys2Proof/Laws/KeptPins.lean ====
section
/-!
SUPPORT. Every operation of Machine/Pins.lean keeps the stores canonical and the queue as it stands.
-/

set_option linter.unusedVariables false
set_option linter.unusedTactic false
set_option linter.unreachableTactic false
set_option linter.unnecessarySeqFocus false

namespace Sys2Proof.Machine

variable {q : List Instr}

theorem State.setRstPin_kept {s : State} (h0 : s.Kept q) (a1) (a2) : (State.setRstPin s a1 a2).Kept q := by
  unfold State.setRstPin
  repeat' first
    | with_reducible assumption
    | fail_if_no_progress (with_reducible apply Kept.upd)

theorem State.i2cAbort_kept {s : State} (h0 : s.Kept q) (a1) : (State.i2cAbort s a1).Kept q := by
  unfold State.i2cAbort
  repeat' first
    | with_reducible intro _
    | with_reducible assumption
    | split
    | fail_if_no_progress (with_reducible apply Kept.upd)

theorem State.pinsWrite_kept {s : State} (h0 : s.Kept q) (a1) (a2) : (State.pinsWrite s a1 a2).Kept q := by
  unfold State.pinsWrite
  repeat' first
    | with_reducible assumption
    | ((with_reducible show Fld.listed _ = true); rfl)
    | (fail_if_no_progress (extract_lets +onlyGivenNames x)
       first
       | (refine Kept.cut (q := q) (x := x) ?_ ?_ <;> [unfold x; ((try clear_value x); intro _)])
       | clear_value x
       | skip)
    | with_reducible apply State.wr_kept
    | with_reducible apply State.i2cAbort_kept
    | with_reducible apply State.setRstPin_kept
    | with_reducible apply Kept.ite
    | split

theorem execIoBayPinsWrite_kept (a0) (a1) (a2) {s : State} (h0 : s.Kept q) : KeptN q (execIoBayPinsWrite a0 a1 a2 s) := by
  unfold execIoBayPinsWrite
  repeat' first
    | with_reducible intro _
    | with_reducible assumption
    | with_reducible apply State.writing_kept
    | with_reducible apply State.pinsWrite_kept
    | with_reducible apply KeptN.next
    | with_reducible apply Kept.id

theorem execBayResetHoldEnd_kept (a0) {s : State} (h0 : s.Kept q) : KeptN q (execBayResetHoldEnd a0 s) := by
  unfold execBayResetHoldEnd
  repeat' first
    | with_reducible assumption
    | (fail_if_no_progress (extract_lets +onlyGivenNames x)
       first
       | clear_value x
       | skip)
    | with_reducible apply State.setRstPin_kept
    | with_reducible apply KeptN.next
    | with_reducible apply Kept.ite
    | with_reducible apply Kept.iteP
    | split

theorem execModulePresence_kept (a0) (a1) {s : State} (h0 : s.Kept q) : KeptN q (execModulePresence a0 a1 s) := by
  unfold execModulePresence
  repeat' first
    | with_reducible assumption
    | ((with_reducible show Fld.listed _ = true); rfl)
    | (fail_if_no_progress (extract_lets +onlyGivenNames x)
       first
       | (refine Kept.cut (q := q) (x := x) ?_ ?_ <;> [unfold x; ((try clear_value x); intro _)])
       | clear_value x
       | skip)
    | with_reducible apply State.put_kept
    | with_reducible apply State.i2cAbort_kept
    | with_reducible apply KeptN.next
    | with_reducible apply Kept.ite
    | with_reducible apply Kept.iteP
    | split

theorem execModuleInt_kept (a0) (a1) {s : State} (h0 : s.Kept q) : KeptN q (execModuleInt a0 a1 s) := by
  unfold execModuleInt
  repeat' first
    | with_reducible assumption
    | ((with_reducible show Fld.listed _ = true); rfl)
    | (fail_if_no_progress (extract_lets +onlyGivenNames x)
       first
       | (refine Kept.cut (q := q) (x := x) ?_ ?_ <;> [unfold x; ((try clear_value x); intro _)])
       | clear_value x
       | skip)
    | with_reducible apply State.put_kept
    | with_reducible apply KeptN.next
    | with_reducible apply Kept.ite
    | with_reducible apply Kept.iteP
    | split

theorem State.i2cWrite_kept {s : State} (h0 : s.Kept q) (a1) (a2) : (State.i2cWrite s a1 a2).1.Kept q := by
  unfold State.i2cWrite
  repeat' first
    | with_reducible assumption
    | ((with_reducible show Fld.listed _ = true); rfl)
    | (fail_if_no_progress (extract_lets +onlyGivenNames x)
       first
       | (refine Kept.cut (q := q) (x := x) ?_ ?_ <;> [unfold x; ((try clear_value x); intro _)])
       | clear_value x
       | skip)
    | with_reducible apply State.wr_kept
    | with_reducible apply State.put_kept
    | with_reducible apply Kept.ite
    | with_reducible apply Kept.iteP
    | split
    | fail_if_no_progress (with_reducible apply Kept.upd)

theorem execI2cGo_kept (a0) (a1) (a2) {s : State} (h0 : s.Kept q) : KeptN q (execI2cGo a0 a1 a2 s) := by
  unfold execI2cGo
  repeat' first
    | with_reducible intro _
    | with_reducible assumption
    | with_reducible apply State.writing_kept
    | with_reducible apply State.i2cWrite_kept
    | with_reducible apply KeptN.next
    | with_reducible apply Kept.id

theorem State.i2cByte_kept {s : State} (h0 : s.Kept q) (a1) (a2) (a3) : (State.i2cByte s a1 a2 a3).Kept q := by
  unfold State.i2cByte
  repeat' first
    | with_reducible assumption
    | ((with_reducible show Fld.listed _ = true); rfl)
    | (fail_if_no_progress (extract_lets +onlyGivenNames x)
       first
       | (refine Kept.cutFld (x := x) ?_ ?_ <;> [unfold x; ((try clear_value x); intro _)])
       | clear_value x
       | skip)
    | with_reducible apply State.wr_kept

theorem State.i2cEnd_kept {s : State} (h0 : s.Kept q) (a1) (a2) (a3) (a4) (a5) : (State.i2cEnd s a1 a2 a3 a4 a5).Kept q := by
  unfold State.i2cEnd
  repeat' first
    | with_reducible intro _
    | with_reducible assumption
    | ((with_reducible show Fld.listed _ = true); rfl)
    | (fail_if_no_progress (extract_lets +onlyGivenNames x)
       first
       | (refine Kept.cut (q := q) (x := x) ?_ ?_ <;> [unfold x; ((try clear_value x); intro _)])
       | clear_value x
       | skip)
    | with_reducible apply State.i2cByte_kept
    | with_reducible apply State.emit_kept
    | with_reducible apply State.wr_kept
    | with_reducible apply State.put_kept
    | with_reducible apply Kept.foldlFields
    | exact Reg.fields_listed _ _ (by assumption)
    | with_reducible apply Kept.foldl
    | with_reducible apply Kept.foldlP
    | with_reducible apply Kept.ite
    | split
    | fail_if_no_progress (with_reducible apply Kept.upd)

theorem execI2cTransferEnd_kept (a0) (a1) (a2) (a3) {s : State} (h0 : s.Kept q) : KeptN q (execI2cTransferEnd a0 a1 a2 a3 s) := by
  unfold execI2cTransferEnd
  repeat' first
    | with_reducible intro _
    | with_reducible assumption
    | with_reducible apply State.i2cEnd_kept
    | with_reducible apply KeptN.next
    | split

theorem execI2cTimeout_kept (a0) (a1) (a2) {s : State} (h0 : s.Kept q) : KeptN q (execI2cTimeout a0 a1 a2 s) := by
  unfold execI2cTimeout
  repeat' first
    | with_reducible intro _
    | with_reducible assumption
    | with_reducible apply State.i2cEnd_kept
    | with_reducible apply KeptN.next
    | split

theorem State.ioWrite_kept {s : State} (h0 : s.Kept q) (a1) (a2) (a3) : KeptOP q (State.ioWrite s a1 a2 a3) := by
  unfold State.ioWrite
  repeat' first
    | with_reducible intro _
    | with_reducible assumption
    | with_reducible apply State.pinsWrite_kept
    | with_reducible apply State.i2cWrite_kept
    | with_reducible apply KeptOP.none
    | with_reducible apply KeptOP.some
    | with_reducible apply Kept.ite
    | with_reducible apply Kept.iteP
    | split
    | (refine Kept.getP ?_ (by assumption) <;> with_reducible apply State.i2cWrite_kept)

theorem execTestEnable_kept (a0) {s : State} (h0 : s.Kept q) : KeptN q (execTestEnable a0 s) := by
  unfold execTestEnable
  repeat' first
    | with_reducible assumption
    | (fail_if_no_progress (extract_lets +onlyGivenNames x)
       first
       | (refine Kept.cut (q := q) (x := x) ?_ ?_ <;> [unfold x; ((try clear_value x); intro _)])
       | clear_value x
       | skip)
    | with_reducible apply State.hold_kept
    | with_reducible apply State.resetRelease_kept
    | with_reducible apply KeptN.next
    | with_reducible apply Kept.ite
    | with_reducible apply Kept.iteP
    | split
    | fail_if_no_progress (with_reducible apply Kept.upd)

theorem execJtagInstruction_kept (a0) {s : State} (h0 : s.Kept q) : KeptN q (execJtagInstruction a0 s) := by
  unfold execJtagInstruction
  repeat' first
    | with_reducible assumption
    | (fail_if_no_progress (extract_lets +onlyGivenNames x)
       first
       | (refine Kept.cut (q := q) (x := x) ?_ ?_ <;> [unfold x; ((try clear_value x); intro _)])
       | clear_value x
       | skip)
    | with_reducible apply State.zeroiseAll_kept
    | with_reducible apply KeptN.next
    | with_reducible apply Kept.ite
    | with_reducible apply Kept.iteP
    | split
    | fail_if_no_progress (with_reducible apply Kept.upd)

theorem execTestLogicReset_kept {s : State} (h0 : s.Kept q) : KeptN q (execTestLogicReset s) := by
  unfold execTestLogicReset
  repeat' first
    | with_reducible assumption
    | with_reducible apply KeptN.next
    | fail_if_no_progress (with_reducible apply Kept.upd)

end Sys2Proof.Machine
end

