-- ==== Sys2Proof/Laws/KeptPorts.lean ====
section
/-!
SUPPORT. Every operation of Machine/Ports.lean keeps the stores canonical and the queue as it stands.
-/

set_option linter.unusedVariables false
set_option linter.unusedTactic false
set_option linter.unreachableTactic false
set_option linter.unnecessarySeqFocus false

namespace Sys2Proof.Machine

variable {q : List Instr}

theorem State.portMoved_kept {s : State} (h0 : s.Kept q) (a1) : (State.portMoved s a1).Kept q := by
  unfold State.portMoved
  repeat' first
    | with_reducible intro _
    | with_reducible assumption
    | with_reducible apply State.freezeJudge_kept
    | with_reducible apply State.mergeAll_kept
    | with_reducible apply State.portUpdate_kept
    | with_reducible apply Kept.foldlFields
    | exact Reg.fields_listed _ _ (by assumption)
    | with_reducible apply Kept.foldl
    | with_reducible apply Kept.foldlP

theorem State.mismatchSet_kept {s : State} (h0 : s.Kept q) (a1) (a2) : (State.mismatchSet s a1 a2).Kept q := by
  unfold State.mismatchSet
  repeat' first
    | with_reducible assumption
    | ((with_reducible show Fld.listed _ = true); rfl)
    | with_reducible apply State.wr_kept
    | with_reducible apply State.track_kept

theorem State.markerIdentity_kept {s : State} (h0 : s.Kept q) (a1) (a2) (a3) : (State.markerIdentity s a1 a2 a3).Kept q := by
  unfold State.markerIdentity
  repeat' first
    | with_reducible assumption
    | (fail_if_no_progress (extract_lets +onlyGivenNames x)
       first
       | (refine Kept.cut (q := q) (x := x) ?_ ?_ <;> [unfold x; ((try clear_value x); intro _)])
       | clear_value x
       | skip)
    | with_reducible apply State.setLock_kept
    | with_reducible apply State.mismatchSet_kept
    | with_reducible apply Kept.ite
    | split

theorem State.deskew_kept {s : State} (h0 : s.Kept q) (a1) (a2) : (State.deskew s a1 a2).Kept q := by
  unfold State.deskew
  repeat' first
    | with_reducible assumption
    | ((with_reducible show Fld.listed _ = true); rfl)
    | (fail_if_no_progress (extract_lets +onlyGivenNames x)
       first
       | (refine Kept.cut (q := q) (x := x) ?_ ?_ <;> [unfold x; ((try clear_value x); intro _)])
       | clear_value x
       | skip)
    | with_reducible apply State.setPort_kept
    | with_reducible apply State.wr_kept
    | with_reducible apply State.eventIf_kept
    | with_reducible apply State.put_kept
    | with_reducible apply State.mismatchSet_kept
    | with_reducible apply Kept.ite
    | split

theorem State.markerShows_kept {s : State} (h0 : s.Kept q) (a1) (a2) (a3) : (State.markerShows s a1 a2 a3).Kept q := by
  unfold State.markerShows
  repeat' first
    | with_reducible assumption
    | ((with_reducible show Fld.listed _ = true); rfl)
    | (fail_if_no_progress (extract_lets +onlyGivenNames x)
       first
       | (refine Kept.cut (q := q) (x := x) ?_ ?_ <;> [unfold x; ((try clear_value x); intro _)])
       | clear_value x
       | skip)
    | with_reducible apply State.wr_kept
    | with_reducible apply State.markerIdentity_kept
    | with_reducible apply Kept.ite
    | split

theorem State.markerTake_kept {s : State} (h0 : s.Kept q) (a1) (a2) (a3) : (State.markerTake s a1 a2 a3).Kept q := by
  unfold State.markerTake
  repeat' first
    | with_reducible assumption
    | with_reducible apply State.deskew_kept
    | with_reducible apply State.markerShows_kept

theorem State.lockGet_kept {s : State} (h0 : s.Kept q) (a1) (a2) (a3) (a4) (a5) : (State.lockGet s a1 a2 a3 a4 a5).Kept q := by
  unfold State.lockGet
  repeat' first
    | with_reducible assumption
    | ((with_reducible show Fld.listed _ = true); rfl)
    | (fail_if_no_progress (extract_lets +onlyGivenNames x)
       first
       | (refine Kept.cut (q := q) (x := x) ?_ ?_ <;> [unfold x; ((try clear_value x); intro _)])
       | clear_value x
       | skip)
    | with_reducible apply State.setLock_kept
    | with_reducible apply State.laneMod_kept
    | with_reducible apply State.setBit_kept
    | with_reducible apply State.eventIf_kept
    | with_reducible apply State.markerTake_kept
    | with_reducible apply State.mapJudge_kept

theorem State.markerMiss_kept {s : State} (h0 : s.Kept q) (a1) (a2) : (State.markerMiss s a1 a2).Kept q := by
  unfold State.markerMiss
  repeat' first
    | with_reducible assumption
    | ((with_reducible show Fld.listed _ = true); rfl)
    | (fail_if_no_progress (extract_lets +onlyGivenNames x)
       first
       | (refine Kept.cut (q := q) (x := x) ?_ ?_ <;> [unfold x; ((try clear_value x); intro _)])
       | clear_value x
       | skip)
    | with_reducible apply State.bump_kept
    | with_reducible apply State.lockLeave_kept
    | with_reducible apply State.setLock_kept
    | with_reducible apply Kept.ite
    | split

theorem State.markerNext_kept {s : State} (h0 : s.Kept q) (a1) (a2) (a3) (a4) (a5) : (State.markerNext s a1 a2 a3 a4 a5).Kept q := by
  unfold State.markerNext
  repeat' first
    | with_reducible intro _
    | with_reducible assumption
    | (fail_if_no_progress (extract_lets +onlyGivenNames x)
       first
       | (refine Kept.cut (q := q) (x := x) ?_ ?_ <;> [unfold x; ((try clear_value x); intro _)])
       | clear_value x
       | skip)
    | with_reducible apply State.lockLeave_kept
    | with_reducible apply State.markerShows_kept
    | with_reducible apply State.setLock_kept
    | with_reducible apply State.setPort_kept
    | with_reducible apply State.markerTake_kept
    | with_reducible apply Kept.ite
    | split

theorem State.searchLine_kept {s : State} (h0 : s.Kept q) (a1) (a2) (a3) : (State.searchLine s a1 a2 a3).Kept q := by
  unfold State.searchLine
  repeat' first
    | with_reducible intro _
    | with_reducible assumption
    | (fail_if_no_progress (extract_lets +onlyGivenNames x)
       first
       | clear_value x
       | skip)
    | with_reducible apply State.lockGet_kept
    | with_reducible apply State.setLock_kept
    | split

theorem State.markerLine_kept {s : State} (h0 : s.Kept q) (a1) (a2) (a3) : (State.markerLine s a1 a2 a3).Kept q := by
  unfold State.markerLine
  repeat' first
    | with_reducible intro _
    | with_reducible assumption
    | (fail_if_no_progress (extract_lets +onlyGivenNames x)
       first
       | (refine Kept.cut (q := q) (x := x) ?_ ?_ <;> [unfold x; ((try clear_value x); intro _)])
       | clear_value x
       | skip)
    | with_reducible apply State.setLock_kept
    | with_reducible apply State.markerNext_kept
    | with_reducible apply State.markerMiss_kept
    | with_reducible apply Kept.ite
    | split

theorem State.markerEth_kept {s : State} (h0 : s.Kept q) (a1) (a2) (a3) (a4) (a5) (a6) (a7) : (State.markerEth s a1 a2 a3 a4 a5 a6 a7).Kept q := by
  unfold State.markerEth
  repeat' first
    | with_reducible intro _
    | with_reducible assumption
    | ((with_reducible show Fld.listed _ = true); rfl)
    | (fail_if_no_progress (extract_lets +onlyGivenNames x)
       first
       | clear_value x
       | skip)
    | with_reducible apply State.lockGet_kept
    | with_reducible apply State.markerNext_kept
    | with_reducible apply State.markerMiss_kept
    | with_reducible apply State.bump_kept
    | with_reducible apply Kept.ite
    | split

theorem State.marker_kept {s : State} (h0 : s.Kept q) (a1) (a2) (a3) (a4) (a5) (a6) : (State.marker s a1 a2 a3 a4 a5 a6).Kept q := by
  unfold State.marker
  repeat' first
    | with_reducible intro _
    | with_reducible assumption
    | (fail_if_no_progress (extract_lets +onlyGivenNames x)
       first
       | clear_value x
       | skip)
    | with_reducible apply State.portMoved_kept
    | with_reducible apply State.markerEth_kept
    | with_reducible apply State.searchLine_kept
    | with_reducible apply State.markerLine_kept
    | split

theorem execAlignmentMarker_kept (a0) (a1) (a2) (a3) (a4) (a5) {s : State} (h0 : s.Kept q) : KeptN q (execAlignmentMarker a0 a1 a2 a3 a4 a5 s) := by
  unfold execAlignmentMarker
  repeat' first
    | with_reducible assumption
    | with_reducible apply State.marker_kept
    | with_reducible apply KeptN.next
    | with_reducible apply Kept.ite
    | with_reducible apply Kept.iteP
    | split

theorem execForeignFormatSearch_kept (a0) (a1) {s : State} (h0 : s.Kept q) : KeptN q (execForeignFormatSearch a0 a1 s) := by
  unfold execForeignFormatSearch
  repeat' first
    | with_reducible assumption
    | with_reducible apply State.portMoved_kept
    | with_reducible apply State.mismatchSet_kept
    | with_reducible apply KeptN.next
    | with_reducible apply Kept.ite
    | with_reducible apply Kept.iteP
    | split

theorem State.fecCount_kept {s : State} (h0 : s.Kept q) (a1) (a2) (a3) (a4) (a5) (a6) : (State.fecCount s a1 a2 a3 a4 a5 a6).Kept q := by
  unfold State.fecCount
  repeat' first
    | with_reducible assumption
    | ((with_reducible show Fld.listed _ = true); rfl)
    | (fail_if_no_progress (extract_lets +onlyGivenNames x)
       first
       | (refine Kept.cut (q := q) (x := x) ?_ ?_ <;> [unfold x; ((try clear_value x); intro _)])
       | clear_value x
       | skip)
    | with_reducible apply State.perfLane_kept
    | with_reducible apply State.wr_kept
    | with_reducible apply State.bump_kept
    | with_reducible apply Kept.ite
    | split

theorem State.fecJudge_kept {s : State} (h0 : s.Kept q) (a1) : (State.fecJudge s a1).Kept q := by
  unfold State.fecJudge
  repeat' first
    | with_reducible assumption
    | ((with_reducible show Fld.listed _ = true); rfl)
    | (fail_if_no_progress (extract_lets +onlyGivenNames x)
       first
       | clear_value x
       | skip)
    | with_reducible apply State.track_kept
    | with_reducible apply Kept.ite
    | split

theorem State.codeword_kept {s : State} (h0 : s.Kept q) (a1) (a2) (a3) (a4) (a5) (a6) : (State.codeword s a1 a2 a3 a4 a5 a6).Kept q := by
  unfold State.codeword
  repeat' first
    | with_reducible assumption
    | (fail_if_no_progress (extract_lets +onlyGivenNames x)
       first
       | (refine Kept.cut (q := q) (x := x) ?_ ?_ <;> [unfold x; ((try clear_value x); intro _)])
       | clear_value x
       | skip)
    | with_reducible apply State.fecCount_kept
    | with_reducible apply State.dataPath_kept
    | with_reducible apply State.setLock_kept
    | with_reducible apply State.portMoved_kept
    | with_reducible apply State.fecJudge_kept
    | with_reducible apply Kept.ite
    | split

theorem State.lineDecode_kept {s : State} (h0 : s.Kept q) (a1) : (State.lineDecode s a1).Kept q := by
  unfold State.lineDecode
  repeat' first
    | with_reducible assumption
    | ((with_reducible show Fld.listed _ = true); rfl)
    | (fail_if_no_progress (extract_lets +onlyGivenNames x)
       first
       | (refine Kept.cut (q := q) (x := x) ?_ ?_ <;> [unfold x; ((try clear_value x); intro _)])
       | clear_value x
       | skip)
    | with_reducible apply State.setLock_kept
    | with_reducible apply State.bump_kept
    | with_reducible apply State.codeword_kept
    | with_reducible apply Kept.ite
    | split

theorem execCodewordDecode_kept (a0) (a1) (a2) {s : State} (h0 : s.Kept q) : KeptN q (execCodewordDecode a0 a1 a2 s) := by
  unfold execCodewordDecode
  repeat' first
    | with_reducible assumption
    | with_reducible apply State.codeword_kept
    | with_reducible apply State.lineDecode_kept
    | with_reducible apply KeptN.next
    | with_reducible apply Kept.ite
    | with_reducible apply Kept.iteP
    | split

theorem State.degraded_kept {s : State} (h0 : s.Kept q) (a1) : (State.degraded s a1).Kept q := by
  unfold State.degraded
  repeat' first
    | with_reducible intro _
    | with_reducible assumption
    | ((with_reducible show Fld.listed _ = true); rfl)
    | (fail_if_no_progress (extract_lets +onlyGivenNames x)
       first
       | (refine Kept.cut (q := q) (x := x) ?_ ?_ <;> [unfold x; ((try clear_value x); intro _)])
       | clear_value x
       | skip)
    | with_reducible apply State.track_kept
    | with_reducible apply State.setLock_kept
    | with_reducible apply Kept.foldlFields
    | exact Reg.fields_listed _ _ (by assumption)
    | with_reducible apply Kept.foldl
    | with_reducible apply Kept.foldlP

theorem execDegradedWindow_kept (a0) {s : State} (h0 : s.Kept q) : KeptN q (execDegradedWindow a0 s) := by
  unfold execDegradedWindow
  repeat' first
    | with_reducible assumption
    | with_reducible apply State.degraded_kept
    | with_reducible apply KeptN.next
    | with_reducible apply Kept.ite
    | with_reducible apply Kept.iteP
    | split

theorem execEpochNoticeSend_kept (a0) {s : State} (h0 : s.Kept q) : KeptN q (execEpochNoticeSend a0 s) := by
  unfold execEpochNoticeSend
  repeat' first
    | with_reducible assumption
    | (fail_if_no_progress (extract_lets +onlyGivenNames x)
       first
       | clear_value x
       | skip)
    | with_reducible apply State.emit_kept
    | with_reducible apply State.queueOn_kept
    | with_reducible apply KeptN.next
    | with_reducible apply Kept.ite
    | with_reducible apply Kept.iteP
    | split

theorem execEpochNoticeRx_kept (a0) (a1) {s : State} (h0 : s.Kept q) : KeptN q (execEpochNoticeRx a0 a1 s) := by
  unfold execEpochNoticeRx
  repeat' first
    | with_reducible assumption
    | with_reducible apply State.noticeTake_kept
    | with_reducible apply KeptN.next
    | with_reducible apply Kept.ite
    | with_reducible apply Kept.iteP
    | split

theorem State.copyEnd_kept {s : State} (h0 : s.Kept q) (a1) : (State.copyEnd s a1).Kept q := by
  unfold State.copyEnd
  repeat' first
    | with_reducible intro _
    | with_reducible assumption
    | (fail_if_no_progress (extract_lets +onlyGivenNames x)
       first
       | clear_value x
       | skip)
    | with_reducible apply State.portCopy_kept
    | with_reducible apply State.setPort_kept
    | split

theorem State.copyKeep_kept {s : State} (h0 : s.Kept q) (a1) (a2) (a3) : (State.copyKeep s a1 a2 a3).Kept q := by
  unfold State.copyKeep
  repeat' first
    | with_reducible assumption
    | (fail_if_no_progress (extract_lets +onlyGivenNames x)
       first
       | (refine Kept.cut (q := q) (x := x) ?_ ?_ <;> [unfold x; ((try clear_value x); intro _)])
       | clear_value x
       | skip)
    | with_reducible apply State.setPort_kept
    | with_reducible apply State.copyEnd_kept
    | with_reducible apply Kept.ite
    | split

theorem State.linkFault_kept {s : State} (h0 : s.Kept q) (a1) (a2) (a3) : (State.linkFault s a1 a2 a3).Kept q := by
  unfold State.linkFault
  repeat' first
    | with_reducible assumption
    | ((with_reducible show Fld.listed _ = true); rfl)
    | (fail_if_no_progress (extract_lets +onlyGivenNames x)
       first
       | clear_value x
       | skip)
    | with_reducible apply State.track_kept
    | with_reducible apply Kept.ite
    | split

theorem State.blockRx_kept {s : State} (h0 : s.Kept q) (a1) (a2) (a3) (a4) : (State.blockRx s a1 a2 a3 a4).Kept q := by
  unfold State.blockRx
  repeat' first
    | with_reducible intro _
    | with_reducible assumption
    | ((with_reducible show Fld.listed _ = true); rfl)
    | (fail_if_no_progress (extract_lets +onlyGivenNames x)
       first
       | (refine Kept.cut (q := q) (x := x) ?_ ?_ <;> [unfold x; ((try clear_value x); intro _)])
       | clear_value x
       | skip)
    | with_reducible apply State.dataPath_kept
    | with_reducible apply State.linkFault_kept
    | with_reducible apply State.frameOver_kept
    | with_reducible apply State.copyEnd_kept
    | with_reducible apply State.copyKeep_kept
    | with_reducible apply State.noticeTake_kept
    | with_reducible apply State.bump_kept
    | with_reducible apply Kept.ite
    | split

theorem State.streamNext_kept {s : State} (h0 : s.Kept q) (a1) : (State.streamNext s a1).Kept q := by
  unfold State.streamNext
  repeat' first
    | with_reducible intro _
    | with_reducible assumption
    | (fail_if_no_progress (extract_lets +onlyGivenNames x)
       first
       | (refine Kept.cut (q := q) (x := x) ?_ ?_ <;> [unfold x; ((try clear_value x); intro _)])
       | clear_value x
       | skip)
    | with_reducible apply State.setPort_kept
    | with_reducible apply State.setLock_kept
    | with_reducible apply State.blockRx_kept
    | with_reducible apply Kept.ite
    | split

theorem execBlockRx_kept (a0) (a1) (a2) (a3) {s : State} (h0 : s.Kept q) : KeptN q (execBlockRx a0 a1 a2 a3 s) := by
  unfold execBlockRx
  repeat' first
    | with_reducible assumption
    | with_reducible apply State.blockRx_kept
    | with_reducible apply State.streamNext_kept
    | with_reducible apply KeptN.next
    | with_reducible apply Kept.ite
    | with_reducible apply Kept.iteP
    | split

theorem State.bayCfgWrite_kept {s : State} (h0 : s.Kept q) (a1) (a2) : (State.bayCfgWrite s a1 a2).1.Kept q := by
  unfold State.bayCfgWrite
  repeat' first
    | with_reducible intro _
    | with_reducible assumption
    | ((with_reducible show Fld.listed _ = true); rfl)
    | (fail_if_no_progress (extract_lets +onlyGivenNames x)
       first
       | (refine Kept.cut (q := q) (x := x) ?_ ?_ <;> [unfold x; ((try clear_value x); intro _)])
       | clear_value x
       | skip)
    | with_reducible apply State.resetRegs_kept
    | with_reducible apply State.setLock_kept
    | with_reducible apply State.setPort_kept
    | with_reducible apply State.wr_kept
    | with_reducible apply State.rippleCheck_kept
    | with_reducible apply State.mergeAll_kept
    | with_reducible apply State.protUpdate_kept
    | with_reducible apply Kept.foldlFields
    | exact Reg.fields_listed _ _ (by assumption)
    | with_reducible apply Kept.foldl
    | with_reducible apply Kept.foldlP
    | with_reducible apply Kept.ite
    | with_reducible apply Kept.iteP
    | split

theorem execBayCfgWrite_kept (a0) (a1) (a2) {s : State} (h0 : s.Kept q) : KeptN q (execBayCfgWrite a0 a1 a2 s) := by
  unfold execBayCfgWrite
  repeat' first
    | with_reducible intro _
    | with_reducible assumption
    | with_reducible apply State.writing_kept
    | with_reducible apply State.bayCfgWrite_kept
    | with_reducible apply KeptN.next
    | with_reducible apply Kept.id

theorem State.bayRoleWrite_kept {s : State} (h0 : s.Kept q) (a1) (a2) : (State.bayRoleWrite s a1 a2).1.Kept q := by
  unfold State.bayRoleWrite
  extract_lets ports s1 s2
  have h1 : s1.Kept q := State.tvWrite_kept
    (Kept.foldlMem _ (fun t i hi ht => State.wr_kept ht (roleFld_listed (List.mem_range.1 (List.mem_filter.1 hi).1)) _ _) h0) _
  clear_value s1
  have h2 : s2.Kept q := Kept.foldl (fun t x ht => State.rippleCheck_kept ht x) _ h1
  clear_value s2
  split
  · exact h0
  · exact Kept.foldl (fun t x ht => State.portMoved_kept ht _) _ h2

theorem execBayRoleWrite_kept (a0) (a1) (a2) {s : State} (h0 : s.Kept q) : KeptN q (execBayRoleWrite a0 a1 a2 s) := by
  unfold execBayRoleWrite
  repeat' first
    | with_reducible intro _
    | with_reducible assumption
    | with_reducible apply State.writing_kept
    | with_reducible apply State.bayRoleWrite_kept
    | with_reducible apply KeptN.next
    | with_reducible apply Kept.id

theorem State.roleSafe_kept {s : State} (h0 : s.Kept q) (a1) : (State.roleSafe s a1).Kept q := by
  unfold State.roleSafe
  extract_lets s1 s2 s3
  have h1 : s1.Kept q := Kept.foldlMem _ (fun t i hi ht => State.wr_kept ht (roleFld_listed (List.mem_range.1 hi)) _ _) h0
  clear_value s1
  have h2 : s2.Kept q := Kept.foldl (fun t x ht => State.setMark_kept ht _ _ _ _ _) _ h1
  clear_value s2
  have h3 : s3.Kept q := Kept.foldl (fun t x ht => State.laneForce_kept (State.rippleCheck_kept ht _) _ _) _ h2
  clear_value s3
  exact State.mergeAll_kept (State.protUpdate_kept h3)

theorem State.voteRole_kept {s : State} (h0 : s.Kept q) (a1) : (State.voteRole s a1).Kept q := by
  unfold State.voteRole
  repeat' first
    | with_reducible intro _
    | with_reducible assumption
    | with_reducible apply State.tvVote_kept
    | with_reducible apply State.roleSafe_kept
    | with_reducible apply Kept.id

theorem State.portStateWrite_kept {s : State} (h0 : s.Kept q) (a1) (a2) : (State.portStateWrite s a1 a2).1.Kept q := by
  unfold State.portStateWrite
  repeat' first
    | with_reducible intro _
    | with_reducible assumption
    | ((with_reducible show Fld.listed _ = true); rfl)
    | (fail_if_no_progress (extract_lets +onlyGivenNames x)
       first
       | (refine Kept.cut (q := q) (x := x) ?_ ?_ <;> [unfold x; ((try clear_value x); intro _)])
       | clear_value x
       | skip)
    | with_reducible apply State.put_kept
    | with_reducible apply State.laneRequest_kept
    | with_reducible apply State.wr_kept
    | with_reducible apply Kept.foldlFields
    | exact Reg.fields_listed _ _ (by assumption)
    | with_reducible apply Kept.foldl
    | with_reducible apply Kept.foldlP
    | with_reducible apply Kept.ite
    | with_reducible apply Kept.iteP
    | split

theorem execPortLaneState_kept (a0) (a1) (a2) {s : State} (h0 : s.Kept q) : KeptN q (execPortLaneState a0 a1 a2 s) := by
  unfold execPortLaneState
  repeat' first
    | with_reducible intro _
    | with_reducible assumption
    | with_reducible apply State.writing_kept
    | with_reducible apply State.portStateWrite_kept
    | with_reducible apply KeptN.next
    | with_reducible apply Kept.id

theorem State.portCfgWrite_kept {s : State} (h0 : s.Kept q) (a1) (a2) : (State.portCfgWrite s a1 a2).1.Kept q := by
  unfold State.portCfgWrite
  extract_lets f change s1 src sp s2 rf s3 s4
  have h1 : s1.Kept q := Kept.foldlFields (Reg.fields_listed _) (fun t x hx ht => State.wr_kept ht hx _ _) h0
  clear_value s1
  have h2 : s2.Kept q := by
    unfold s2
    apply Kept.ite
    · exact ⟨RegStore.wf_filter h1.1 _, h1.2⟩
    · exact h1
  clear_value s2
  have h3 : s3.Kept q := by
    unfold s3
    apply Kept.ite
    · exact h2
    · exact State.emit_kept h2 _
  clear_value s3
  have h4 : s4.Kept q := by
    unfold s4
    apply Kept.ite
    · exact State.dataPath_kept h3 _
    · exact h3
  clear_value s4
  split
  · exact h0
  · split
    · exact h0
    · exact State.portMoved_kept h4 _

theorem execPortCfgWrite_kept (a0) (a1) (a2) {s : State} (h0 : s.Kept q) : KeptN q (execPortCfgWrite a0 a1 a2 s) := by
  unfold execPortCfgWrite
  repeat' first
    | with_reducible intro _
    | with_reducible assumption
    | with_reducible apply State.writing_kept
    | with_reducible apply State.portCfgWrite_kept
    | with_reducible apply KeptN.next
    | with_reducible apply Kept.id

theorem State.portWrite_kept {s : State} (h0 : s.Kept q) (a1) (a2) (a3) : KeptOP q (State.portWrite s a1 a2 a3) := by
  unfold State.portWrite
  repeat' first
    | with_reducible intro _
    | with_reducible assumption
    | with_reducible apply State.bayCfgWrite_kept
    | with_reducible apply State.bayRoleWrite_kept
    | with_reducible apply State.portStateWrite_kept
    | with_reducible apply State.portCfgWrite_kept
    | with_reducible apply KeptOP.none
    | with_reducible apply KeptOP.some
    | split
    | (refine Kept.getP ?_ (by assumption) <;> with_reducible apply State.bayCfgWrite_kept)
    | (refine Kept.getP ?_ (by assumption) <;> with_reducible apply State.bayRoleWrite_kept)
    | (refine Kept.getP ?_ (by assumption) <;> with_reducible apply State.portStateWrite_kept)
    | (refine Kept.getP ?_ (by assumption) <;> with_reducible apply State.portCfgWrite_kept)

theorem execAckMsg_kept (a0) (a1) (a2) {s : State} (h0 : s.Kept q) : KeptN q (execAckMsg a0 a1 a2 s) := by
  unfold execAckMsg
  repeat' first
    | with_reducible assumption
    | with_reducible apply State.ackTake_kept
    | with_reducible apply KeptN.next
    | with_reducible apply Kept.ite
    | with_reducible apply Kept.iteP
    | split

theorem execResendMsg_kept (a0) (a1) (a2) {s : State} (h0 : s.Kept q) : KeptN q (execResendMsg a0 a1 a2 s) := by
  unfold execResendMsg
  repeat' first
    | with_reducible assumption
    | with_reducible apply State.resendTake_kept
    | with_reducible apply KeptN.next
    | with_reducible apply Kept.ite
    | with_reducible apply Kept.iteP
    | split

theorem execGapMsg_kept (a0) (a1) (a2) (a3) {s : State} (h0 : s.Kept q) : KeptN q (execGapMsg a0 a1 a2 a3 s) := by
  unfold execGapMsg
  repeat' first
    | with_reducible assumption
    | with_reducible apply State.gapTake_kept
    | with_reducible apply KeptN.next
    | with_reducible apply Kept.ite
    | with_reducible apply Kept.iteP
    | split

end Sys2Proof.Machine
end

