-- ==== Sys2Proof/Laws/KeptPower.lean ====
section
/-!
SUPPORT. Every operation of Machine/Power.lean keeps the stores canonical and the queue as it stands.
-/

set_option linter.unusedVariables false
set_option linter.unusedTactic false
set_option linter.unreachableTactic false
set_option linter.unnecessarySeqFocus false

namespace Sys2Proof.Machine

variable {q : List Instr}

theorem State.clkWrite_kept {s : State} (h0 : s.Kept q) (a1) : (State.clkWrite s a1).1.Kept q := by
  unfold State.clkWrite
  repeat' first
    | with_reducible assumption
    | ((with_reducible show Fld.listed _ = true); rfl)
    | (fail_if_no_progress (extract_lets +onlyGivenNames x)
       first
       | (refine Kept.cut (q := q) (x := x) ?_ ?_ <;> [unfold x; ((try clear_value x); intro _)])
       | clear_value x
       | skip)
    | with_reducible apply refOk_listed
    | with_reducible apply State.wr_kept
    | with_reducible apply State.put_kept
    | with_reducible apply Kept.ite
    | with_reducible apply Kept.iteP
    | split

theorem execRefSelWrite_kept (a0) (a1) {s : State} (h0 : s.Kept q) : KeptN q (execRefSelWrite a0 a1 s) := by
  unfold execRefSelWrite
  repeat' first
    | with_reducible intro _
    | with_reducible assumption
    | with_reducible apply State.writing_kept
    | with_reducible apply State.clkWrite_kept
    | with_reducible apply KeptN.next
    | with_reducible apply Kept.id

theorem State.refHoldover_kept {s : State} (h0 : s.Kept q) (a1) : (State.refHoldover s a1).Kept q := by
  unfold State.refHoldover
  repeat' first
    | with_reducible assumption
    | ((with_reducible show Fld.listed _ = true); rfl)
    | (fail_if_no_progress (extract_lets +onlyGivenNames x)
       first
       | (refine Kept.cut (q := q) (x := x) ?_ ?_ <;> [unfold x; ((try clear_value x); intro _)])
       | clear_value x
       | skip)
    | with_reducible apply refOk_listed
    | with_reducible apply State.put_kept
    | with_reducible apply State.bump_kept
    | with_reducible apply State.wr_kept
    | with_reducible apply Kept.ite
    | split
    | fail_if_no_progress (with_reducible apply Kept.upd)

theorem execReferenceLoss_kept (a0) {s : State} (h0 : s.Kept q) : KeptN q (execReferenceLoss a0 s) := by
  unfold execReferenceLoss
  repeat' first
    | with_reducible assumption
    | ((with_reducible show Fld.listed _ = true); rfl)
    | (fail_if_no_progress (extract_lets +onlyGivenNames x)
       first
       | (refine Kept.cut (q := q) (x := x) ?_ ?_ <;> [unfold x; ((try clear_value x); intro _)])
       | clear_value x
       | skip)
    | with_reducible apply refOk_listed
    | with_reducible apply State.put_kept
    | with_reducible apply State.refHoldover_kept
    | with_reducible apply State.errorLine_kept
    | with_reducible apply KeptN.next
    | with_reducible apply Kept.ite
    | with_reducible apply Kept.iteP
    | split

theorem execHoldoverEnd_kept {s : State} (h0 : s.Kept q) : KeptN q (execHoldoverEnd s) := by
  unfold execHoldoverEnd
  repeat' first
    | with_reducible assumption
    | ((with_reducible show Fld.listed _ = true); rfl)
    | with_reducible apply State.errorLine_kept
    | with_reducible apply State.put_kept
    | with_reducible apply KeptN.next
    | with_reducible apply Kept.ite
    | with_reducible apply Kept.iteP
    | split

theorem execReferenceReturn_kept (a0) (a1) {s : State} (h0 : s.Kept q) : KeptN q (execReferenceReturn a0 a1 s) := by
  unfold execReferenceReturn
  repeat' first
    | with_reducible assumption
    | ((with_reducible show Fld.listed _ = true); rfl)
    | (fail_if_no_progress (extract_lets +onlyGivenNames x)
       first
       | (refine Kept.cut (q := q) (x := x) ?_ ?_ <;> [unfold x; ((try clear_value x); intro _)])
       | clear_value x
       | skip)
    | with_reducible apply refOk_listed
    | with_reducible apply State.put_kept
    | with_reducible apply State.refHoldover_kept
    | with_reducible apply KeptN.next
    | with_reducible apply Kept.ite
    | with_reducible apply Kept.iteP
    | split

theorem State.placeRefused_kept {s : State} (h0 : s.Kept q) (a1) : (State.placeRefused s a1).Kept q := by
  unfold State.placeRefused
  repeat' first
    | with_reducible assumption
    | ((with_reducible show Fld.listed _ = true); rfl)
    | with_reducible apply State.perf_kept
    | with_reducible apply State.bump_kept
    | with_reducible apply State.put_kept
    | with_reducible apply Kept.ite
    | split

theorem State.blockEnters_kept {s : State} (h0 : s.Kept q) (a1) (a2) : (State.blockEnters s a1 a2).Kept q := by
  unfold State.blockEnters
  repeat' first
    | with_reducible assumption
    | (fail_if_no_progress (extract_lets +onlyGivenNames x)
       first
       | (refine Kept.cut (q := q) (x := x) ?_ ?_ <;> [unfold x; ((try clear_value x); intro _)])
       | clear_value x
       | skip)
    | with_reducible apply State.sliceStopped_kept
    | with_reducible apply State.capAbandon_kept
    | with_reducible apply State.holdPark_kept
    | with_reducible apply Kept.ite
    | split

theorem State.blockPlace_kept {s : State} (h0 : s.Kept q) (a1) (a2) : (State.blockPlace s a1 a2).Kept q := by
  unfold State.blockPlace
  repeat' first
    | with_reducible assumption
    | (fail_if_no_progress (extract_lets +onlyGivenNames x)
       first
       | (refine Kept.cut (q := q) (x := x) ?_ ?_ <;> [unfold x; ((try clear_value x); intro _)])
       | clear_value x
       | skip)
    | with_reducible apply State.blockEnters_kept
    | fail_if_no_progress (with_reducible apply Kept.upd)

theorem State.powerReview_kept {s : State} (h0 : s.Kept q) (a1) : (State.powerReview s a1).Kept q := by
  unfold State.powerReview
  repeat' first
    | with_reducible assumption
    | (fail_if_no_progress (extract_lets +onlyGivenNames x)
       first
       | clear_value x
       | skip)
    | with_reducible apply State.wakeBlock_kept
    | with_reducible apply State.blockPlace_kept
    | with_reducible apply Kept.ite
    | split

theorem State.powerTick_kept {s : State} (h0 : s.Kept q) : (State.powerTick s).Kept q := by
  unfold State.powerTick
  repeat' first
    | with_reducible intro _
    | with_reducible assumption
    | with_reducible apply State.powerReview_kept
    | with_reducible apply Kept.foldlFields
    | exact Reg.fields_listed _ _ (by assumption)
    | with_reducible apply Kept.foldl
    | with_reducible apply Kept.foldlP
    | with_reducible apply Kept.ite
    | split

theorem execBlockStateEntry_kept (a0) (a1) (a2) {s : State} (h0 : s.Kept q) : KeptN q (execBlockStateEntry a0 a1 a2 s) := by
  unfold execBlockStateEntry
  repeat' first
    | with_reducible assumption
    | (fail_if_no_progress (extract_lets +onlyGivenNames x)
       first
       | clear_value x
       | skip)
    | with_reducible apply State.powerReview_kept
    | with_reducible apply State.placeRefused_kept
    | with_reducible apply State.blockPlace_kept
    | with_reducible apply KeptN.next
    | with_reducible apply Kept.ite
    | with_reducible apply Kept.iteP
    | split

theorem execBlockWake_kept (a0) {s : State} (h0 : s.Kept q) : KeptN q (execBlockWake a0 s) := by
  unfold execBlockWake
  repeat' first
    | with_reducible assumption
    | with_reducible apply State.wakeBlock_kept
    | with_reducible apply KeptN.next

theorem execScheduledWake_kept (a0) {s : State} (h0 : s.Kept q) : KeptN q (execScheduledWake a0 s) := by
  unfold execScheduledWake
  repeat' first
    | with_reducible assumption
    | with_reducible apply State.wakeBlock_kept
    | with_reducible apply KeptN.next
    | with_reducible apply Kept.ite
    | with_reducible apply Kept.iteP
    | split

theorem execBlockTransitionEnd_kept (a0) {s : State} (h0 : s.Kept q) : KeptN q (execBlockTransitionEnd a0 s) := by
  unfold execBlockTransitionEnd
  repeat' first
    | with_reducible intro _
    | with_reducible assumption
    | ((with_reducible show Fld.listed _ = true); rfl)
    | (fail_if_no_progress (extract_lets +onlyGivenNames x)
       first
       | (refine Kept.cut (q := q) (x := x) ?_ ?_ <;> [unfold x; ((try clear_value x); intro _)])
       | clear_value x
       | skip)
    | with_reducible apply State.wr_kept
    | with_reducible apply State.sliceStopped_kept
    | with_reducible apply State.convCal_kept
    | with_reducible apply State.simGo_kept
    | with_reducible apply State.holdUnpark_kept
    | with_reducible apply KeptN.next
    | with_reducible apply Kept.ite
    | with_reducible apply Kept.iteP
    | split
    | fail_if_no_progress (with_reducible apply Kept.upd)

theorem State.sensorTake_kept {s : State} (h0 : s.Kept q) (a1) (a2) (a3) : (State.sensorTake s a1 a2 a3).1.Kept q := by
  unfold State.sensorTake
  repeat' first
    | with_reducible assumption
    | ((with_reducible show Fld.listed _ = true); rfl)
    | (fail_if_no_progress (extract_lets +onlyGivenNames x)
       first
       | (refine Kept.cut (q := q) (x := x) ?_ ?_ <;> [unfold x; ((try clear_value x); intro _)])
       | clear_value x
       | skip)
    | with_reducible apply State.wr_kept
    | with_reducible apply State.put_kept
    | with_reducible apply State.event_kept
    | with_reducible apply Kept.ite
    | with_reducible apply Kept.iteP
    | split
    | fail_if_no_progress (with_reducible apply Kept.upd)

theorem State.thermStop_kept {s : State} (h0 : s.Kept q) (a1) (a2) : (State.thermStop s a1 a2).Kept q := by
  unfold State.thermStop
  repeat' first
    | with_reducible assumption
    | ((with_reducible show Fld.listed _ = true); rfl)
    | (fail_if_no_progress (extract_lets +onlyGivenNames x)
       first
       | (refine Kept.cut (q := q) (x := x) ?_ ?_ <;> [unfold x; ((try clear_value x); intro _)])
       | clear_value x
       | skip)
    | with_reducible apply State.stopClients_kept
    | with_reducible apply State.event_kept
    | with_reducible apply State.wr_kept
    | with_reducible apply State.tokensSettle_kept
    | with_reducible apply State.errorLine_kept
    | fail_if_no_progress (with_reducible apply Kept.upd)

theorem State.stopSteps_kept {s : State} (h0 : s.Kept q) : (State.stopSteps s).Kept q := by
  unfold State.stopSteps
  repeat' first
    | with_reducible intro _
    | with_reducible assumption
    | (fail_if_no_progress (extract_lets +onlyGivenNames x)
       first
       | (refine Kept.cut (q := q) (x := x) ?_ ?_ <;> [unfold x; ((try clear_value x); intro _)])
       | clear_value x
       | skip)
    | with_reducible apply State.dropInFlight_kept
    | with_reducible apply State.holdPark_kept
    | with_reducible apply State.queueGoingDown_kept
    | with_reducible apply Kept.foldlFields
    | exact Reg.fields_listed _ _ (by assumption)
    | with_reducible apply Kept.foldl
    | with_reducible apply Kept.foldlP
    | split
    | fail_if_no_progress (with_reducible apply Kept.upd)

theorem State.stopTick_kept {s : State} (h0 : s.Kept q) : (State.stopTick s).Kept q := by
  unfold State.stopTick
  repeat' first
    | with_reducible assumption
    | with_reducible apply State.stopSteps_kept
    | with_reducible apply Kept.ite
    | split

theorem State.damper_kept {s : State} (h0 : s.Kept q) : (State.damper s).Kept q := by
  unfold State.damper
  repeat' first
    | with_reducible assumption
    | ((with_reducible show Fld.listed _ = true); rfl)
    | (fail_if_no_progress (extract_lets +onlyGivenNames x)
       first
       | (refine Kept.cut (q := q) (x := x) ?_ ?_ <;> [unfold x; ((try clear_value x); intro _)])
       | clear_value x
       | skip)
    | with_reducible apply State.put_kept
    | with_reducible apply State.thermStop_kept
    | with_reducible apply State.errorLine_kept
    | with_reducible apply State.event_kept
    | with_reducible apply State.wr_kept
    | with_reducible apply Kept.ite
    | split
    | fail_if_no_progress (with_reducible apply Kept.upd)

theorem State.sweepEnd_kept {s : State} (h0 : s.Kept q) : (State.sweepEnd s).Kept q := by
  unfold State.sweepEnd
  repeat' first
    | with_reducible assumption
    | ((with_reducible show Fld.listed _ = true); rfl)
    | (fail_if_no_progress (extract_lets +onlyGivenNames x)
       first
       | (refine Kept.cut (q := q) (x := x) ?_ ?_ <;> [unfold x; ((try clear_value x); intro _)])
       | clear_value x
       | skip)
    | with_reducible apply State.wr_kept
    | with_reducible apply State.damper_kept
    | with_reducible apply Kept.ite
    | split

theorem execSensorRead_kept (a0) (a1) {s : State} (h0 : s.Kept q) : KeptN q (execSensorRead a0 a1 s) := by
  unfold execSensorRead
  repeat' first
    | with_reducible intro _
    | with_reducible assumption
    | (fail_if_no_progress (extract_lets +onlyGivenNames x)
       first
       | (refine Kept.cut (q := q) (x := x) ?_ ?_ <;> [unfold x; ((try clear_value x); intro _)])
       | (refine Kept.cutP (q := q) (x := x) ?_ ?_ <;> [unfold x; ((try clear_value x); intro _)])
       | clear_value x
       | skip)
    | with_reducible apply State.thermalWaits_kept
    | with_reducible apply State.sensorTake_kept
    | with_reducible apply State.thermalConv_kept
    | with_reducible apply State.errorLine_kept
    | with_reducible apply State.unlessReset_kept
    | with_reducible apply State.sweepEnd_kept
    | with_reducible apply KeptN.next
    | with_reducible apply Kept.ite
    | with_reducible apply Kept.iteP
    | split
    | (refine Kept.getP ?_ (by assumption) <;> with_reducible apply State.sensorTake_kept)
    | fail_if_no_progress (with_reducible apply Kept.upd)
    | with_reducible apply Kept.id

theorem execGraceExpiry_kept {s : State} (h0 : s.Kept q) : KeptN q (execGraceExpiry s) := by
  unfold execGraceExpiry
  repeat' first
    | with_reducible assumption
    | ((with_reducible show Fld.listed _ = true); rfl)
    | (fail_if_no_progress (extract_lets +onlyGivenNames x)
       first
       | (refine Kept.cut (q := q) (x := x) ?_ ?_ <;> [unfold x; ((try clear_value x); intro _)])
       | clear_value x
       | skip)
    | with_reducible apply State.measuresBegin_kept
    | with_reducible apply State.event_kept
    | with_reducible apply State.wr_kept
    | with_reducible apply State.tokensSettle_kept
    | with_reducible apply KeptN.next
    | with_reducible apply Kept.ite
    | with_reducible apply Kept.iteP
    | split
    | fail_if_no_progress (with_reducible apply Kept.upd)

theorem execDamperRelease_kept {s : State} (h0 : s.Kept q) : KeptN q (execDamperRelease s) := by
  unfold execDamperRelease
  repeat' first
    | with_reducible assumption
    | ((with_reducible show Fld.listed _ = true); rfl)
    | (fail_if_no_progress (extract_lets +onlyGivenNames x)
       first
       | (refine Kept.cut (q := q) (x := x) ?_ ?_ <;> [unfold x; ((try clear_value x); intro _)])
       | clear_value x
       | skip)
    | with_reducible apply State.measuresEnd_kept
    | with_reducible apply State.event_kept
    | with_reducible apply State.wr_kept
    | with_reducible apply State.tokensSettle_kept
    | with_reducible apply KeptN.next
    | with_reducible apply Kept.ite
    | with_reducible apply Kept.iteP
    | split
    | fail_if_no_progress (with_reducible apply Kept.upd)

theorem State.thermCtlWrite_kept {s : State} (h0 : s.Kept q) (a1) : (State.thermCtlWrite s a1).1.Kept q := by
  unfold State.thermCtlWrite
  repeat' first
    | with_reducible assumption
    | (fail_if_no_progress (extract_lets +onlyGivenNames x)
       first
       | clear_value x
       | skip)
    | with_reducible apply State.thermStop_kept
    | with_reducible apply State.resetFor_kept
    | with_reducible apply Kept.ite
    | with_reducible apply Kept.iteP
    | split

theorem execThermStop_kept (a0) {s : State} (h0 : s.Kept q) : KeptN q (execThermStop a0 s) := by
  unfold execThermStop
  repeat' first
    | with_reducible intro _
    | with_reducible assumption
    | with_reducible apply State.writing_kept
    | with_reducible apply State.thermCtlWrite_kept
    | with_reducible apply KeptN.next
    | with_reducible apply Kept.id

theorem execThermRestart_kept (a0) {s : State} (h0 : s.Kept q) : KeptN q (execThermRestart a0 s) := by
  unfold execThermRestart
  repeat' first
    | with_reducible intro _
    | with_reducible assumption
    | with_reducible apply State.writing_kept
    | with_reducible apply State.thermCtlWrite_kept
    | with_reducible apply KeptN.next
    | with_reducible apply Kept.id

theorem State.lanesStop_kept {s : State} (h0 : s.Kept q) : (State.lanesStop s).Kept q := by
  unfold State.lanesStop
  repeat' first
    | with_reducible intro _
    | with_reducible assumption
    | with_reducible apply State.portUpdate_kept
    | with_reducible apply State.smokeTrack_kept
    | with_reducible apply State.decTrack_kept
    | with_reducible apply Kept.foldlFields
    | exact Reg.fields_listed _ _ (by assumption)
    | with_reducible apply Kept.foldl
    | with_reducible apply Kept.foldlP

theorem execOrderlyStopComplete_kept {s : State} (h0 : s.Kept q) : KeptN q (execOrderlyStopComplete s) := by
  unfold execOrderlyStopComplete
  repeat' first
    | with_reducible assumption
    | ((with_reducible show Fld.listed _ = true); rfl)
    | (fail_if_no_progress (extract_lets +onlyGivenNames x)
       first
       | (refine Kept.cut (q := q) (x := x) ?_ ?_ <;> [unfold x; ((try clear_value x); intro _)])
       | clear_value x
       | skip)
    | with_reducible apply State.lanesStop_kept
    | with_reducible apply State.wr_kept
    | with_reducible apply State.stopSteps_kept
    | with_reducible apply KeptN.next
    | with_reducible apply Kept.ite
    | with_reducible apply Kept.iteP
    | split
    | fail_if_no_progress (with_reducible apply Kept.upd)

theorem execRestartOk_kept {s : State} (h0 : s.Kept q) : KeptN q (execRestartOk s) := by
  unfold execRestartOk
  repeat' first
    | with_reducible assumption
    | ((with_reducible show Fld.listed _ = true); rfl)
    | with_reducible apply State.event_kept
    | with_reducible apply State.put_kept
    | with_reducible apply KeptN.next
    | with_reducible apply Kept.ite
    | with_reducible apply Kept.iteP
    | split

theorem execHardCutTrip_kept {s : State} (h0 : s.Kept q) : KeptN q (execHardCutTrip s) := by
  unfold execHardCutTrip
  repeat' first
    | with_reducible assumption
    | ((with_reducible show Fld.listed _ = true); rfl)
    | (fail_if_no_progress (extract_lets +onlyGivenNames x)
       first
       | (refine Kept.cut (q := q) (x := x) ?_ ?_ <;> [unfold x; ((try clear_value x); intro _)])
       | clear_value x
       | skip)
    | with_reducible apply State.aliveStop_kept
    | with_reducible apply State.errorLine_kept
    | with_reducible apply State.wr_kept
    | with_reducible apply State.hold_kept
    | with_reducible apply KeptN.next
    | fail_if_no_progress (with_reducible apply Kept.upd)

theorem execHardCutRelease_kept {s : State} (h0 : s.Kept q) : KeptN q (execHardCutRelease s) := by
  unfold execHardCutRelease
  repeat' first
    | with_reducible assumption
    | with_reducible apply KeptN.next
    | with_reducible apply Kept.ite
    | with_reducible apply Kept.iteP
    | split
    | fail_if_no_progress (with_reducible apply Kept.upd)

theorem State.powerWrite_kept {s : State} (h0 : s.Kept q) (a1) (a2) : KeptOP q (State.powerWrite s a1 a2) := by
  unfold State.powerWrite
  repeat' first
    | with_reducible intro _
    | with_reducible assumption
    | with_reducible apply State.clkWrite_kept
    | with_reducible apply State.thermCtlWrite_kept
    | with_reducible apply KeptOP.none
    | with_reducible apply KeptOP.some
    | split
    | (refine Kept.getP ?_ (by assumption) <;> with_reducible apply State.clkWrite_kept)
    | (refine Kept.getP ?_ (by assumption) <;> with_reducible apply State.thermCtlWrite_kept)

end Sys2Proof.Machine
end

