-- ==== Sys2Proof/Laws/KeptStoker.lean ====
section
/-!
SUPPORT. Every operation of Machine/Stoker.lean keeps the stores canonical and the queue as it stands.
-/

set_option linter.unusedVariables false
set_option linter.unusedTactic false
set_option linter.unreachableTactic false
set_option linter.unnecessarySeqFocus false

namespace Sys2Proof.Machine

variable {q : List Instr}

theorem State.areaRead_kept {s : State} (h0 : s.Kept q) (a1) (a2) : (State.areaRead s a1 a2).1.Kept q := by
  unfold State.areaRead
  repeat' first
    | with_reducible intro _
    | with_reducible assumption
    | (fail_if_no_progress (extract_lets +onlyGivenNames x)
       first
       | (refine Kept.cutP (q := q) (x := x) ?_ ?_ <;> [unfold x; ((try clear_value x); intro _)])
       | clear_value x
       | skip)
    | with_reducible apply State.memRead_kept
    | with_reducible apply State.drawn_kept
    | split
    | (refine Kept.getP ?_ (by assumption) <;> with_reducible apply State.memRead_kept)

theorem State.areaRun_kept {s : State} (h0 : s.Kept q) (a1) (a2) (a3) : (State.areaRun s a1 a2 a3).1.Kept q := by
  induction a3 generalizing s a2 with
  | zero =>
    unfold State.areaRun
    repeat' first
      | with_reducible intro _
      | with_reducible assumption
      | (fail_if_no_progress (extract_lets +onlyGivenNames x)
         first
         | (refine Kept.cutP (q := q) (x := x) ?_ ?_ <;> [unfold x; ((try clear_value x); intro _)])
         | clear_value x
         | skip)
      | with_reducible apply State.areaRead_kept
      | split
      | (refine Kept.getP ?_ (by assumption) <;> with_reducible apply State.areaRead_kept)
  | succ fuel ih =>
    unfold State.areaRun
    repeat' first
      | with_reducible intro _
      | with_reducible assumption
      | (fail_if_no_progress (extract_lets +onlyGivenNames x)
         first
         | (refine Kept.cutP (q := q) (x := x) ?_ ?_ <;> [unfold x; ((try clear_value x); intro _)])
         | clear_value x
         | skip)
      | with_reducible apply ih
      | with_reducible apply State.areaRead_kept
      | split
      | (refine Kept.getP ?_ (by assumption) <;> with_reducible apply State.areaRead_kept)

theorem State.areaWrite_kept {s : State} (h0 : s.Kept q) (a1) (a2) (a3) : (State.areaWrite s a1 a2 a3).Kept q := by
  induction a3 generalizing s a2 with
  | nil =>
    unfold State.areaWrite
    repeat' first
      | with_reducible intro _
      | with_reducible assumption
      | with_reducible apply State.memWrite_kept
      | split
  | cons hd tl ih =>
    unfold State.areaWrite
    repeat' first
      | with_reducible intro _
      | with_reducible assumption
      | with_reducible apply ih
      | with_reducible apply State.memWrite_kept
      | split

theorem State.entryRead_kept {s : State} (h0 : s.Kept q) (a1) (a2) : (State.entryRead s a1 a2).1.Kept q := by
  unfold State.entryRead
  repeat' first
    | with_reducible assumption
    | (fail_if_no_progress (extract_lets +onlyGivenNames x)
       first
       | (refine Kept.cutP (q := q) (x := x) ?_ ?_ <;> [unfold x; ((try clear_value x); intro _)])
       | clear_value x
       | skip)
    | with_reducible apply State.areaRead_kept

theorem State.writeCheckpoint_kept {s : State} (h0 : s.Kept q) (a1) (a2) : (State.writeCheckpoint s a1 a2).Kept q := by
  unfold State.writeCheckpoint
  repeat' first
    | with_reducible assumption
    | (fail_if_no_progress (extract_lets +onlyGivenNames x)
       first
       | clear_value x
       | skip)
    | with_reducible apply State.setBank_kept
    | with_reducible apply State.areaWrite_kept

theorem State.initialCheckpoint_kept {s : State} (h0 : s.Kept q) (a1) : (State.initialCheckpoint s a1).Kept q := by
  unfold State.initialCheckpoint
  repeat' first
    | with_reducible intro _
    | with_reducible assumption
    | (fail_if_no_progress (extract_lets +onlyGivenNames x)
       first
       | (refine Kept.cutP (q := q) (x := x) ?_ ?_ <;> [unfold x; ((try clear_value x); intro _)])
       | clear_value x
       | skip)
    | with_reducible apply State.entryRead_kept
    | with_reducible apply State.unlessReset_kept
    | with_reducible apply State.setBank_kept
    | with_reducible apply State.areaWrite_kept
    | with_reducible apply Kept.id

theorem State.logAdd_kept {s : State} (h0 : s.Kept q) (a1) (a2) : (State.logAdd s a1 a2).Kept q := by
  unfold State.logAdd
  repeat' first
    | with_reducible assumption
    | (fail_if_no_progress (extract_lets +onlyGivenNames x)
       first
       | (refine Kept.cut (q := q) (x := x) ?_ ?_ <;> [unfold x; ((try clear_value x); intro _)])
       | clear_value x
       | skip)
    | with_reducible apply State.drawn_kept
    | with_reducible apply State.areaWrite_kept
    | with_reducible apply State.setBank_kept

theorem State.logRoom_kept {s : State} (h0 : s.Kept q) (a1) : (State.logRoom s a1).Kept q := by
  unfold State.logRoom
  repeat' first
    | with_reducible assumption
    | with_reducible apply State.writeCheckpoint_kept
    | with_reducible apply Kept.ite
    | split

theorem State.nmtName_kept {s : State} (h0 : s.Kept q) (a1) (a2) : (State.nmtName s a1 a2).Kept q := by
  unfold State.nmtName
  repeat' first
    | with_reducible assumption
    | ((with_reducible show Fld.listed _ = true); rfl)
    | with_reducible apply State.wr_kept
    | with_reducible apply State.put_kept
    | fail_if_no_progress (with_reducible apply Kept.upd)

theorem State.nmtEnter_kept {s : State} (h0 : s.Kept q) (a1) : (State.nmtEnter s a1).Kept q := by
  unfold State.nmtEnter
  repeat' first
    | with_reducible intro _
    | with_reducible assumption
    | (fail_if_no_progress (extract_lets +onlyGivenNames x)
       first
       | (refine Kept.cut (q := q) (x := x) ?_ ?_ <;> [unfold x; ((try clear_value x); intro _)])
       | (refine Kept.cutP (q := q) (x := x) ?_ ?_ <;> [unfold x; ((try clear_value x); intro _)])
       | clear_value x
       | skip)
    | with_reducible apply State.entryRead_kept
    | with_reducible apply State.unlessReset_kept
    | with_reducible apply State.nmtName_kept
    | with_reducible apply State.setBank_kept
    | with_reducible apply Kept.ite
    | with_reducible apply Kept.iteP
    | split
    | (refine Kept.getP ?_ (by assumption) <;> with_reducible apply State.entryRead_kept)
    | with_reducible apply Kept.id

theorem State.nmtEnd_kept {s : State} (h0 : s.Kept q) (a1) : (State.nmtEnd s a1).Kept q := by
  unfold State.nmtEnd
  repeat' first
    | with_reducible intro _
    | with_reducible assumption
    | ((with_reducible show Fld.listed _ = true); rfl)
    | (fail_if_no_progress (extract_lets +onlyGivenNames x)
       first
       | (refine Kept.cut (q := q) (x := x) ?_ ?_ <;> [unfold x; ((try clear_value x); intro _)])
       | clear_value x
       | skip)
    | with_reducible apply State.put_kept
    | with_reducible apply State.setBank_kept
    | with_reducible apply State.nmtName_kept
    | with_reducible apply State.wr_kept
    | split

theorem State.nmtReturn_kept {s : State} (h0 : s.Kept q) (a1) : (State.nmtReturn s a1).Kept q := by
  unfold State.nmtReturn
  repeat' first
    | with_reducible intro _
    | with_reducible assumption
    | ((with_reducible show Fld.listed _ = true); rfl)
    | (fail_if_no_progress (extract_lets +onlyGivenNames x)
       first
       | clear_value x
       | skip)
    | with_reducible apply State.wr_kept
    | with_reducible apply State.setBank_kept
    | with_reducible apply State.nmtEnd_kept
    | split

theorem State.nmtFault_kept {s : State} (h0 : s.Kept q) (a1) : (State.nmtFault s a1).Kept q := by
  unfold State.nmtFault
  repeat' first
    | with_reducible assumption
    | (fail_if_no_progress (extract_lets +onlyGivenNames x)
       first
       | clear_value x
       | skip)
    | with_reducible apply State.nmtEnd_kept
    | with_reducible apply State.setBank_kept

theorem State.faultRecord_kept {s : State} (h0 : s.Kept q) (a1) (a2) : (State.faultRecord s a1 a2).Kept q := by
  unfold State.faultRecord
  repeat' first
    | with_reducible assumption
    | ((with_reducible show Fld.listed _ = true); rfl)
    | with_reducible apply State.perfBank_kept
    | with_reducible apply State.wr_kept
    | with_reducible apply State.bump_kept
    | with_reducible apply State.put_kept

theorem State.doubleFault_kept {s : State} (h0 : s.Kept q) (a1) : (State.doubleFault s a1).Kept q := by
  unfold State.doubleFault
  repeat' first
    | with_reducible assumption
    | (fail_if_no_progress (extract_lets +onlyGivenNames x)
       first
       | (refine Kept.cut (q := q) (x := x) ?_ ?_ <;> [unfold x; ((try clear_value x); intro _)])
       | clear_value x
       | skip)
    | with_reducible apply State.setBank_kept
    | with_reducible apply State.callAdoption_kept
    | with_reducible apply State.engineFail_kept
    | with_reducible apply Kept.ite
    | split

theorem State.faultTo_kept {s : State} (h0 : s.Kept q) (a1) (a2) (a3) : (State.faultTo s a1 a2 a3).Kept q := by
  unfold State.faultTo
  repeat' first
    | with_reducible intro _
    | with_reducible assumption
    | (fail_if_no_progress (extract_lets +onlyGivenNames x)
       first
       | (refine Kept.cut (q := q) (x := x) ?_ ?_ <;> [unfold x; ((try clear_value x); intro _)])
       | (refine Kept.cutP (q := q) (x := x) ?_ ?_ <;> [unfold x; ((try clear_value x); intro _)])
       | clear_value x
       | skip)
    | with_reducible apply State.faultRecord_kept
    | with_reducible apply State.doubleFault_kept
    | with_reducible apply State.nmtFault_kept
    | with_reducible apply State.entryRead_kept
    | with_reducible apply State.unlessReset_kept
    | with_reducible apply State.setBank_kept
    | with_reducible apply Kept.ite
    | with_reducible apply Kept.iteP
    | split
    | with_reducible apply Kept.id

theorem State.retire_kept {s : State} (h0 : s.Kept q) (a1) (a2) : (State.retire s a1 a2).Kept q := by
  unfold State.retire
  repeat' first
    | with_reducible assumption
    | (fail_if_no_progress (extract_lets +onlyGivenNames x)
       first
       | (refine Kept.cut (q := q) (x := x) ?_ ?_ <;> [unfold x; ((try clear_value x); intro _)])
       | clear_value x
       | skip)
    | with_reducible apply State.perfBank_kept
    | with_reducible apply State.setBank_kept

theorem State.retireNext_kept {s : State} (h0 : s.Kept q) (a1) : (State.retireNext s a1).Kept q := by
  unfold State.retireNext
  repeat' first
    | with_reducible assumption
    | with_reducible apply State.retire_kept

theorem State.fetch_kept {s : State} (h0 : s.Kept q) (a1) : (State.fetch s a1).1.Kept q := by
  unfold State.fetch
  repeat' first
    | with_reducible assumption
    | with_reducible apply State.memRead_kept

theorem State.replayEnd_kept {s : State} (h0 : s.Kept q) (a1) : (State.replayEnd s a1).Kept q := by
  unfold State.replayEnd
  repeat' first
    | with_reducible assumption
    | (fail_if_no_progress (extract_lets +onlyGivenNames x)
       first
       | clear_value x
       | skip)
    | with_reducible apply State.setBank_kept
    | with_reducible apply Kept.ite
    | split

theorem State.fetched_kept {s : State} (h0 : s.Kept q) (a1) : (State.fetched s a1).Kept q := by
  unfold State.fetched
  repeat' first
    | with_reducible assumption
    | with_reducible apply State.fetch_kept
    | with_reducible apply Kept.ite
    | with_reducible apply Kept.iteP
    | split

theorem State.issue_kept {s : State} (h0 : s.Kept q) (a1) (a2) (a3) (a4) {g5 : State → State} (hg5 : ∀ y0, y0.Kept q → (g5 y0).Kept q) : (State.issue s a1 a2 a3 a4 g5).Kept q := by
  unfold State.issue
  repeat' first
    | with_reducible intro _
    | with_reducible assumption
    | (fail_if_no_progress (extract_lets +onlyGivenNames x)
       first
       | (refine Kept.cut (q := q) (x := x) ?_ ?_ <;> [unfold x; ((try clear_value x); intro _)])
       | clear_value x
       | skip)
    | with_reducible apply State.replayEnd_kept
    | with_reducible apply State.unlessReset_kept
    | with_reducible apply State.fetched_kept
    | with_reducible apply State.faultTo_kept
    | with_reducible apply State.retireNext_kept
    | split
    | with_reducible apply Kept.id
    | with_reducible apply_assumption

theorem State.logged_kept {s : State} (h0 : s.Kept q) (a1) (a2) {g3 : State → State} (hg3 : ∀ y0, y0.Kept q → (g3 y0).Kept q) : (State.logged s a1 a2 g3).Kept q := by
  unfold State.logged
  repeat' first
    | with_reducible intro _
    | with_reducible assumption
    | (fail_if_no_progress (extract_lets +onlyGivenNames x)
       first
       | clear_value x
       | skip)
    | with_reducible apply State.perfBank_kept
    | with_reducible apply State.setBank_kept
    | with_reducible apply State.retireNext_kept
    | with_reducible apply State.logRoom_kept
    | with_reducible apply Kept.ite
    | split
    | with_reducible apply_assumption

theorem State.takeTag_kept {s : State} (h0 : s.Kept q) (a1) (a2) : (State.takeTag s a1 a2).Kept q := by
  unfold State.takeTag
  repeat' first
    | with_reducible intro _
    | with_reducible assumption
    | (fail_if_no_progress (extract_lets +onlyGivenNames x)
       first
       | (refine Kept.cut (q := q) (x := x) ?_ ?_ <;> [unfold x; ((try clear_value x); intro _)])
       | clear_value x
       | skip)
    | with_reducible apply State.perfBank_kept
    | with_reducible apply State.setBank_kept
    | with_reducible apply Kept.ite
    | split

theorem State.wfeRetire_kept {s : State} (h0 : s.Kept q) (a1) : (State.wfeRetire s a1).Kept q := by
  unfold State.wfeRetire
  repeat' first
    | with_reducible assumption
    | (fail_if_no_progress (extract_lets +onlyGivenNames x)
       first
       | (refine Kept.cut (q := q) (x := x) ?_ ?_ <;> [unfold x; ((try clear_value x); intro _)])
       | clear_value x
       | skip)
    | with_reducible apply State.retireNext_kept
    | with_reducible apply State.setBank_kept

theorem State.wfeReturn_kept {s : State} (h0 : s.Kept q) (a1) (a2) : (State.wfeReturn s a1 a2).Kept q := by
  unfold State.wfeReturn
  repeat' first
    | with_reducible intro _
    | with_reducible assumption
    | (fail_if_no_progress (extract_lets +onlyGivenNames x)
       first
       | (refine Kept.cut (q := q) (x := x) ?_ ?_ <;> [unfold x; ((try clear_value x); intro _)])
       | clear_value x
       | skip)
    | with_reducible apply State.setBank_kept
    | with_reducible apply State.perfBank_kept
    | with_reducible apply State.logAdd_kept
    | with_reducible apply State.wfeRetire_kept
    | split

end Sys2Proof.Machine
end

