-- ==== Sys2Proof/Laws/KeptOperands.lean ====
section
/-!
SUPPORT. Every operation of Machine/Operands.lean keeps the stores canonical and the queue as it stands.
-/

set_option linter.unusedVariables false
set_option linter.unusedTactic false
set_option linter.unreachableTactic false
set_option linter.unnecessarySeqFocus false

namespace Sys2Proof.Machine

variable {q : List Instr}

theorem State.dataRead_kept {s : State} (h0 : s.Kept q) (a1) : (State.dataRead s a1).1.Kept q := by
  unfold State.dataRead
  repeat' first
    | with_reducible intro _
    | with_reducible assumption
    | with_reducible apply State.memRead_kept
    | split
    | (refine Kept.getP ?_ (by assumption) <;> with_reducible apply State.memRead_kept)

theorem State.dataWrite_kept {s : State} (h0 : s.Kept q) (a1) (a2) : (State.dataWrite s a1 a2).Kept q := by
  unfold State.dataWrite
  repeat' first
    | with_reducible intro _
    | with_reducible assumption
    | with_reducible apply State.memWrite_kept
    | split

end Sys2Proof.Machine
end

