-- ==== Sys2Proof/Laws/KeptTorvulo2.lean ====
section
/-!
SUPPORT. Every operation of Machine/Torvulo2.lean keeps the stores canonical and the queue as it stands.
-/

set_option linter.unusedVariables false
set_option linter.unusedTactic false
set_option linter.unreachableTactic false
set_option linter.unnecessarySeqFocus false

namespace Sys2Proof.Machine

variable {q : List Instr}

theorem State.issueTag_kept {s : State} (h0 : s.Kept q) (a1) (a2) (a3) : (State.issueTag s a1 a2 a3).Kept q := by
  unfold State.issueTag
  repeat' first
    | with_reducible assumption
    | (fail_if_no_progress (extract_lets +onlyGivenNames x)
       first
       | (refine Kept.cut (q := q) (x := x) ?_ ?_ <;> [unfold x; ((try clear_value x); intro _)])
       | clear_value x
       | skip)
    | with_reducible apply State.perfBank_kept
    | with_reducible apply State.setBank_kept
    | with_reducible apply State.deliver_kept
    | with_reducible apply Kept.ite
    | split
    | fail_if_no_progress (with_reducible apply Kept.upd)

theorem State.command_kept {s : State} (h0 : s.Kept q) (a1) (a2) (a3) : (State.command s a1 a2 a3).Kept q := by
  unfold State.command
  repeat' first
    | with_reducible intro _
    | with_reducible assumption
    | (fail_if_no_progress (extract_lets +onlyGivenNames x)
       first
       | (refine Kept.cut (q := q) (x := x) ?_ ?_ <;> [unfold x; ((try clear_value x); intro _)])
       | clear_value x
       | skip)
    | with_reducible apply State.issue_kept
    | with_reducible apply State.logged_kept
    | with_reducible apply State.issueTag_kept
    | with_reducible apply State.setBank_kept
    | with_reducible apply State.retireNext_kept
    | with_reducible apply State.logAdd_kept
    | with_reducible apply Kept.ite
    | split
    | with_reducible apply Kept.id

theorem execIssueCmd_kept (a0) (a1) {s : State} (h0 : s.Kept q) : KeptN q (execIssueCmd a0 a1 s) := by
  unfold execIssueCmd
  repeat' first
    | with_reducible assumption
    | with_reducible apply State.command_kept
    | with_reducible apply KeptN.next

theorem execIssueQry_kept (a0) (a1) {s : State} (h0 : s.Kept q) : KeptN q (execIssueQry a0 a1 s) := by
  unfold execIssueQry
  repeat' first
    | with_reducible assumption
    | with_reducible apply State.command_kept
    | with_reducible apply KeptN.next

theorem State.getDone_kept {s : State} (h0 : s.Kept q) (a1) (a2) (a3) : (State.getDone s a1 a2 a3).Kept q := by
  unfold State.getDone
  repeat' first
    | with_reducible assumption
    | (fail_if_no_progress (extract_lets +onlyGivenNames x)
       first
       | (refine Kept.cut (q := q) (x := x) ?_ ?_ <;> [unfold x; ((try clear_value x); intro _)])
       | clear_value x
       | skip)
    | with_reducible apply State.takeTag_kept
    | with_reducible apply State.setBank_kept
    | with_reducible apply State.retireNext_kept
    | with_reducible apply State.logAdd_kept

theorem State.getPoll_kept {s : State} (h0 : s.Kept q) (a1) (a2) (a3) : (State.getPoll s a1 a2 a3).Kept q := by
  unfold State.getPoll
  repeat' first
    | with_reducible intro _
    | with_reducible assumption
    | with_reducible apply State.getDone_kept
    | with_reducible apply State.retireNext_kept
    | with_reducible apply Kept.ite
    | split

theorem State.getIssue_kept {s : State} (h0 : s.Kept q) (a1) (a2) : (State.getIssue s a1 a2).Kept q := by
  unfold State.getIssue
  repeat' first
    | with_reducible intro _
    | with_reducible assumption
    | (fail_if_no_progress (extract_lets +onlyGivenNames x)
       first
       | (refine Kept.cut (q := q) (x := x) ?_ ?_ <;> [unfold x; ((try clear_value x); intro _)])
       | clear_value x
       | skip)
    | with_reducible apply State.logged_kept
    | with_reducible apply State.logAdd_kept
    | with_reducible apply State.issueTag_kept
    | with_reducible apply State.setBank_kept
    | with_reducible apply State.getPoll_kept
    | split
    | with_reducible apply Kept.id

theorem execIssueGet_kept (a0) (a1) {s : State} (h0 : s.Kept q) : KeptN q (execIssueGet a0 a1 s) := by
  unfold execIssueGet
  repeat' first
    | with_reducible intro _
    | with_reducible assumption
    | with_reducible apply State.issue_kept
    | with_reducible apply State.getPoll_kept
    | with_reducible apply State.getIssue_kept
    | with_reducible apply KeptN.next
    | split
    | with_reducible apply Kept.id

theorem execWtag_kept (a0) (a1) {s : State} (h0 : s.Kept q) : KeptN q (execWtag a0 a1 s) := by
  unfold execWtag
  repeat' first
    | with_reducible intro _
    | with_reducible assumption
    | ((with_reducible show Fld.listed _ = true); rfl)
    | (fail_if_no_progress (extract_lets +onlyGivenNames x)
       first
       | (refine Kept.cutF (q := q) (x := x) ?_ ?_ <;> [(unfold x; beta_reduce); ((try clear_value x); intro _)])
       | (refine Kept.cutF2F (q := q) (x := x) ?_ ?_ <;> [(unfold x; beta_reduce); ((try clear_value x); intro _)])
       | (refine Kept.cutF2 (q := q) (x := x) ?_ ?_ <;> [(unfold x; beta_reduce); ((try clear_value x); intro _)])
       | (refine Kept.cutF22 (q := q) (x := x) ?_ ?_ <;> [(unfold x; beta_reduce); ((try clear_value x); intro _)])
       | (refine Kept.cutF3 (q := q) (x := x) ?_ ?_ <;> [(unfold x; beta_reduce); ((try clear_value x); intro _)])
       | (refine Kept.cutF32 (q := q) (x := x) ?_ ?_ <;> [(unfold x; beta_reduce); ((try clear_value x); intro _)])
       | clear_value x
       | skip)
    | with_reducible apply State.issue_kept
    | with_reducible apply State.logged_kept
    | with_reducible apply State.retireNext_kept
    | with_reducible apply State.logAdd_kept
    | with_reducible apply State.setBank_kept
    | with_reducible apply State.takeTag_kept
    | with_reducible apply KeptN.next
    | with_reducible apply Kept.ite
    | with_reducible apply Kept.iteP
    | split
    | with_reducible apply Kept.id
    | with_reducible apply_assumption

theorem execCpop_kept (a0) (a1) {s : State} (h0 : s.Kept q) : KeptN q (execCpop a0 a1 s) := by
  unfold execCpop
  repeat' first
    | with_reducible intro _
    | with_reducible assumption
    | (fail_if_no_progress (extract_lets +onlyGivenNames x)
       first
       | (refine Kept.cut (q := q) (x := x) ?_ ?_ <;> [unfold x; ((try clear_value x); intro _)])
       | clear_value x
       | skip)
    | with_reducible apply State.issue_kept
    | with_reducible apply State.logged_kept
    | with_reducible apply State.retireNext_kept
    | with_reducible apply State.logAdd_kept
    | with_reducible apply State.setBank_kept
    | with_reducible apply State.takeTag_kept
    | with_reducible apply KeptN.next
    | split
    | with_reducible apply Kept.id

theorem State.fenceOver_kept {s : State} (h0 : s.Kept q) (a1) (a2) : (State.fenceOver s a1 a2).Kept q := by
  unfold State.fenceOver
  repeat' first
    | with_reducible intro _
    | with_reducible assumption
    | (fail_if_no_progress (extract_lets +onlyGivenNames x)
       first
       | (refine Kept.cut (q := q) (x := x) ?_ ?_ <;> [unfold x; ((try clear_value x); intro _)])
       | clear_value x
       | skip)
    | with_reducible apply State.setBank_kept
    | with_reducible apply State.takeTag_kept
    | with_reducible apply State.retireNext_kept
    | with_reducible apply State.logAdd_kept
    | with_reducible apply Kept.foldlFields
    | exact Reg.fields_listed _ _ (by assumption)
    | with_reducible apply Kept.foldl
    | with_reducible apply Kept.foldlP
    | with_reducible apply Kept.ite
    | split

theorem execFence_kept (a0) (a1) {s : State} (h0 : s.Kept q) : KeptN q (execFence a0 a1 s) := by
  unfold execFence
  repeat' first
    | with_reducible intro _
    | with_reducible assumption
    | with_reducible apply State.issue_kept
    | with_reducible apply State.fenceOver_kept
    | with_reducible apply State.logged_kept
    | with_reducible apply KeptN.next
    | split
    | with_reducible apply Kept.id

theorem State.sleepRefused_kept {s : State} (h0 : s.Kept q) (a1) : (State.sleepRefused s a1).Kept q := by
  unfold State.sleepRefused
  repeat' first
    | with_reducible assumption
    | ((with_reducible show Fld.listed _ = true); rfl)
    | (fail_if_no_progress (extract_lets +onlyGivenNames x)
       first
       | clear_value x
       | skip)
    | with_reducible apply State.perf_kept
    | with_reducible apply State.bump_kept
    | with_reducible apply State.put_kept

theorem State.wfeLive_kept {s : State} (h0 : s.Kept q) (a1) (a2) (a3) : (State.wfeLive s a1 a2 a3).Kept q := by
  unfold State.wfeLive
  repeat' first
    | with_reducible assumption
    | (fail_if_no_progress (extract_lets +onlyGivenNames x)
       first
       | (refine Kept.cut (q := q) (x := x) ?_ ?_ <;> [unfold x; ((try clear_value x); intro _)])
       | clear_value x
       | skip)
    | with_reducible apply State.setBank_kept
    | with_reducible apply State.nmtEnter_kept
    | with_reducible apply State.wfeReturn_kept
    | with_reducible apply State.logRoom_kept
    | with_reducible apply State.sleepRefused_kept
    | with_reducible apply State.perfBank_kept
    | with_reducible apply State.writeCheckpoint_kept
    | with_reducible apply Kept.ite
    | split

theorem execWfe_kept (a0) (a1) (a2) {s : State} (h0 : s.Kept q) : KeptN q (execWfe a0 a1 a2 s) := by
  unfold execWfe
  repeat' first
    | with_reducible intro _
    | with_reducible assumption
    | (fail_if_no_progress (extract_lets +onlyGivenNames x)
       first
       | (refine Kept.cut (q := q) (x := x) ?_ ?_ <;> [unfold x; ((try clear_value x); intro _)])
       | clear_value x
       | skip)
    | with_reducible apply State.issue_kept
    | with_reducible apply State.logged_kept
    | with_reducible apply State.setBank_kept
    | with_reducible apply State.wfeLive_kept
    | with_reducible apply KeptN.next
    | split
    | with_reducible apply Kept.id

theorem execTset_kept (a0) (a1) {s : State} (h0 : s.Kept q) : KeptN q (execTset a0 a1 s) := by
  unfold execTset
  repeat' first
    | with_reducible intro _
    | with_reducible assumption
    | (fail_if_no_progress (extract_lets +onlyGivenNames x)
       first
       | clear_value x
       | skip)
    | with_reducible apply State.issue_kept
    | with_reducible apply State.retireNext_kept
    | with_reducible apply State.setBank_kept
    | with_reducible apply KeptN.next
    | with_reducible apply Kept.id

theorem execTclr_kept (a0) (a1) {s : State} (h0 : s.Kept q) : KeptN q (execTclr a0 a1 s) := by
  unfold execTclr
  repeat' first
    | with_reducible intro _
    | with_reducible assumption
    | with_reducible apply State.issue_kept
    | with_reducible apply State.retireNext_kept
    | with_reducible apply State.setBank_kept
    | with_reducible apply KeptN.next
    | with_reducible apply Kept.id

theorem execReadTime_kept (a0) (a1) {s : State} (h0 : s.Kept q) : KeptN q (execReadTime a0 a1 s) := by
  unfold execReadTime
  repeat' first
    | with_reducible intro _
    | with_reducible assumption
    | with_reducible apply State.issue_kept
    | with_reducible apply State.logged_kept
    | with_reducible apply State.retireNext_kept
    | with_reducible apply State.logAdd_kept
    | with_reducible apply State.setBank_kept
    | with_reducible apply KeptN.next
    | with_reducible apply Kept.id

theorem execDeclareNext_kept (a0) (a1) {s : State} (h0 : s.Kept q) : KeptN q (execDeclareNext a0 a1 s) := by
  unfold execDeclareNext
  repeat' first
    | with_reducible intro _
    | with_reducible assumption
    | (fail_if_no_progress (extract_lets +onlyGivenNames x)
       first
       | clear_value x
       | skip)
    | with_reducible apply State.issue_kept
    | with_reducible apply State.retireNext_kept
    | with_reducible apply State.setBank_kept
    | with_reducible apply KeptN.next
    | with_reducible apply Kept.id

theorem execCkpt_kept (a0) (a1) {s : State} (h0 : s.Kept q) : KeptN q (execCkpt a0 a1 s) := by
  unfold execCkpt
  repeat' first
    | with_reducible intro _
    | with_reducible assumption
    | with_reducible apply State.issue_kept
    | with_reducible apply State.retireNext_kept
    | with_reducible apply State.writeCheckpoint_kept
    | with_reducible apply KeptN.next
    | with_reducible apply Kept.id

theorem State.mrecvLive_kept {s : State} (h0 : s.Kept q) (a1) (a2) (a3) : (State.mrecvLive s a1 a2 a3).Kept q := by
  unfold State.mrecvLive
  repeat' first
    | with_reducible intro _
    | with_reducible assumption
    | (fail_if_no_progress (extract_lets +onlyGivenNames x)
       first
       | (refine Kept.cut (q := q) (x := x) ?_ ?_ <;> [unfold x; ((try clear_value x); intro _)])
       | clear_value x
       | skip)
    | with_reducible apply State.retireNext_kept
    | with_reducible apply State.logAdd_kept
    | with_reducible apply State.setBank_kept
    | with_reducible apply State.dataWrite_kept
    | with_reducible apply State.perfBank_kept
    | with_reducible apply Kept.foldlFields
    | exact Reg.fields_listed _ _ (by assumption)
    | with_reducible apply Kept.foldl
    | with_reducible apply Kept.foldlP
    | split

theorem execMrecv_kept (a0) (a1) {s : State} (h0 : s.Kept q) : KeptN q (execMrecv a0 a1 s) := by
  unfold execMrecv
  repeat' first
    | with_reducible intro _
    | with_reducible assumption
    | (fail_if_no_progress (extract_lets +onlyGivenNames x)
       first
       | clear_value x
       | skip)
    | with_reducible apply State.issue_kept
    | with_reducible apply State.faultTo_kept
    | with_reducible apply State.logged_kept
    | with_reducible apply State.mrecvLive_kept
    | with_reducible apply KeptN.next
    | with_reducible apply Kept.ite
    | with_reducible apply Kept.iteP
    | split
    | with_reducible apply Kept.id

theorem State.gather64_kept {s : State} (h0 : s.Kept q) (a1) : (State.gather64 s a1).1.Kept q := by
  unfold State.gather64
  repeat' first
    | with_reducible intro _
    | with_reducible assumption
    | with_reducible apply State.dataRead_kept
    | with_reducible apply Kept.foldlFields
    | exact Reg.fields_listed _ _ (by assumption)
    | with_reducible apply Kept.foldl
    | with_reducible apply Kept.foldlP
    | split
    | (refine Kept.getP ?_ (by assumption) <;> with_reducible apply State.dataRead_kept)

theorem State.msendLive_kept {s : State} (h0 : s.Kept q) (a1) (a2) : (State.msendLive s a1 a2).Kept q := by
  unfold State.msendLive
  repeat' first
    | with_reducible intro _
    | with_reducible assumption
    | (fail_if_no_progress (extract_lets +onlyGivenNames x)
       first
       | (refine Kept.cutP (q := q) (x := x) ?_ ?_ <;> [unfold x; ((try clear_value x); intro _)])
       | clear_value x
       | skip)
    | with_reducible apply State.setBank_kept
    | with_reducible apply State.gather64_kept
    | with_reducible apply State.unlessReset_kept
    | with_reducible apply State.retireNext_kept
    | with_reducible apply State.logAdd_kept
    | with_reducible apply State.respond_kept
    | with_reducible apply Kept.ite
    | with_reducible apply Kept.iteP
    | split
    | with_reducible apply Kept.id

theorem execMsend_kept (a0) (a1) {s : State} (h0 : s.Kept q) : KeptN q (execMsend a0 a1 s) := by
  unfold execMsend
  repeat' first
    | with_reducible intro _
    | with_reducible assumption
    | (fail_if_no_progress (extract_lets +onlyGivenNames x)
       first
       | clear_value x
       | skip)
    | with_reducible apply State.issue_kept
    | with_reducible apply State.faultTo_kept
    | with_reducible apply State.logged_kept
    | with_reducible apply State.msendLive_kept
    | with_reducible apply KeptN.next
    | split
    | with_reducible apply Kept.id

theorem execSig_kept (a0) (a1) {s : State} (h0 : s.Kept q) : KeptN q (execSig a0 a1 s) := by
  unfold execSig
  repeat' first
    | with_reducible intro _
    | with_reducible assumption
    | (fail_if_no_progress (extract_lets +onlyGivenNames x)
       first
       | (refine Kept.cut (q := q) (x := x) ?_ ?_ <;> [unfold x; ((try clear_value x); intro _)])
       | clear_value x
       | skip)
    | with_reducible apply State.issue_kept
    | with_reducible apply State.logged_kept
    | with_reducible apply State.setBank_kept
    | with_reducible apply State.retireNext_kept
    | with_reducible apply State.logAdd_kept
    | with_reducible apply KeptN.next
    | with_reducible apply Kept.id

theorem execRunaway_kept (a0) {s : State} (h0 : s.Kept q) : KeptN q (execRunaway a0 s) := by
  unfold execRunaway
  repeat' first
    | with_reducible assumption
    | (fail_if_no_progress (extract_lets +onlyGivenNames x)
       first
       | clear_value x
       | skip)
    | with_reducible apply State.faultTo_kept
    | with_reducible apply KeptN.next
    | with_reducible apply Kept.ite
    | with_reducible apply Kept.iteP
    | split

theorem execCommandCompletion_kept (a0) (a1) {s : State} (h0 : s.Kept q) : KeptN q (execCommandCompletion a0 a1 s) := by
  unfold execCommandCompletion
  repeat' first
    | with_reducible intro _
    | with_reducible assumption
    | with_reducible apply State.deliver_kept
    | with_reducible apply KeptN.next
    | split

theorem State.cmdsWait_kept {s : State} (h0 : s.Kept q) (a1) : (State.cmdsWait s a1).Kept q := by
  unfold State.cmdsWait
  repeat' first
    | with_reducible assumption
    | (fail_if_no_progress (extract_lets +onlyGivenNames x)
       first
       | clear_value x
       | skip)
    | with_reducible apply Kept.ite
    | split
    | fail_if_no_progress (with_reducible apply Kept.upd)

theorem execCommandTimeout_kept (a0) (a1) {s : State} (h0 : s.Kept q) : KeptN q (execCommandTimeout a0 a1 s) := by
  unfold execCommandTimeout
  repeat' first
    | with_reducible intro _
    | with_reducible assumption
    | (fail_if_no_progress (extract_lets +onlyGivenNames x)
       first
       | (refine Kept.cut (q := q) (x := x) ?_ ?_ <;> [unfold x; ((try clear_value x); intro _)])
       | clear_value x
       | skip)
    | with_reducible apply State.irq_kept
    | with_reducible apply State.perfBank_kept
    | with_reducible apply State.setBank_kept
    | with_reducible apply KeptN.next
    | with_reducible apply Kept.ite
    | with_reducible apply Kept.iteP
    | split

theorem execTimerFire_kept (a0) (a1) {s : State} (h0 : s.Kept q) : KeptN q (execTimerFire a0 a1 s) := by
  unfold execTimerFire
  repeat' first
    | with_reducible intro _
    | with_reducible assumption
    | with_reducible apply State.setBank_kept
    | with_reducible apply KeptN.next
    | with_reducible apply Kept.ite
    | with_reducible apply Kept.iteP
    | split

theorem execWfeWake_kept (a0) {s : State} (h0 : s.Kept q) : KeptN q (execWfeWake a0 s) := by
  unfold execWfeWake
  repeat' first
    | with_reducible assumption
    | with_reducible apply State.nmtEnter_kept
    | with_reducible apply State.wfeReturn_kept
    | with_reducible apply KeptN.next
    | with_reducible apply Kept.ite
    | with_reducible apply Kept.iteP
    | split

theorem execNmtTaken_kept (a0) {s : State} (h0 : s.Kept q) : KeptN q (execNmtTaken a0 s) := by
  unfold execNmtTaken
  repeat' first
    | with_reducible assumption
    | (fail_if_no_progress (extract_lets +onlyGivenNames x)
       first
       | clear_value x
       | skip)
    | with_reducible apply State.nmtEnter_kept
    | with_reducible apply KeptN.next
    | with_reducible apply Kept.ite
    | with_reducible apply Kept.iteP
    | split

theorem execLockstepMismatch_kept (a0) {s : State} (h0 : s.Kept q) : KeptN q (execLockstepMismatch a0 s) := by
  unfold execLockstepMismatch
  repeat' first
    | with_reducible assumption
    | with_reducible apply State.engineFail_kept
    | with_reducible apply KeptN.next

theorem execLivenessWatchdog_kept (a0) {s : State} (h0 : s.Kept q) : KeptN q (execLivenessWatchdog a0 s) := by
  unfold execLivenessWatchdog
  repeat' first
    | with_reducible assumption
    | with_reducible apply State.engineFail_kept
    | with_reducible apply KeptN.next
    | with_reducible apply Kept.ite
    | with_reducible apply Kept.iteP
    | split

theorem State.nmtHoldAgain_kept {s : State} (h0 : s.Kept q) (a1) (a2) : (State.nmtHoldAgain s a1 a2).Kept q := by
  unfold State.nmtHoldAgain
  repeat' first
    | with_reducible assumption
    | ((with_reducible show Fld.listed _ = true); rfl)
    | with_reducible apply State.put_kept
    | with_reducible apply Kept.ite
    | split
    | fail_if_no_progress (with_reducible apply Kept.upd)

theorem State.adoptOn_kept {s : State} (h0 : s.Kept q) (a1) (a2) : (State.adoptOn s a1 a2).Kept q := by
  unfold State.adoptOn
  repeat' first
    | with_reducible intro _
    | with_reducible assumption
    | (fail_if_no_progress (extract_lets +onlyGivenNames x)
       first
       | (refine Kept.cut (q := q) (x := x) ?_ ?_ <;> [unfold x; ((try clear_value x); intro _)])
       | (refine Kept.cutP (q := q) (x := x) ?_ ?_ <;> [unfold x; ((try clear_value x); intro _)])
       | clear_value x
       | skip)
    | with_reducible apply State.areaRun_kept
    | with_reducible apply State.unlessReset_kept
    | with_reducible apply State.initialCheckpoint_kept
    | with_reducible apply State.setBank_kept
    | with_reducible apply State.nmtHoldAgain_kept
    | with_reducible apply Kept.ite
    | with_reducible apply Kept.iteP
    | split
    | with_reducible apply Kept.id

theorem execAdoption_kept (a0) {s : State} (h0 : s.Kept q) : KeptN q (execAdoption a0 s) := by
  unfold execAdoption
  repeat' first
    | with_reducible intro _
    | with_reducible assumption
    | with_reducible apply State.adoptOn_kept
    | with_reducible apply State.errorLine_kept
    | with_reducible apply State.bankLost_kept
    | with_reducible apply KeptN.next
    | with_reducible apply Kept.ite
    | with_reducible apply Kept.iteP
    | split

theorem execResponseExpiry_kept (a0) (a1) {s : State} (h0 : s.Kept q) : KeptN q (execResponseExpiry a0 a1 s) := by
  unfold execResponseExpiry
  repeat' first
    | with_reducible intro _
    | with_reducible assumption
    | (fail_if_no_progress (extract_lets +onlyGivenNames x)
       first
       | clear_value x
       | skip)
    | with_reducible apply State.mbxDrop_kept
    | with_reducible apply State.setBank_kept
    | with_reducible apply KeptN.next
    | split

end Sys2Proof.Machine
end

