-- ==== Sys2Proof/Laws/KeptSys.lean ====
section
/-!
SUPPORT. Every operation of Machine/Sys.lean keeps the stores canonical and the queue as it stands.
-/

set_option linter.unusedVariables false
set_option linter.unusedTactic false
set_option linter.unreachableTactic false
set_option linter.unnecessarySeqFocus false

namespace Sys2Proof.Machine

variable {q : List Instr}

theorem State.runStart_kept {s : State} (h0 : s.Kept q) (a1) : (State.runStart s a1).1.Kept q := by
  unfold State.runStart
  repeat' first
    | with_reducible intro _
    | with_reducible assumption
    | (fail_if_no_progress (extract_lets +onlyGivenNames x)
       first
       | (refine Kept.cut (q := q) (x := x) ?_ ?_ <;> [unfold x; ((try clear_value x); intro _)])
       | clear_value x
       | skip)
    | with_reducible apply State.adoptOn_kept
    | with_reducible apply State.setBank_kept
    | with_reducible apply State.nmtHoldAgain_kept
    | with_reducible apply State.initialCheckpoint_kept
    | with_reducible apply Kept.ite
    | with_reducible apply Kept.iteP
    | split

theorem State.runStop_kept {s : State} (h0 : s.Kept q) (a1) : (State.runStop s a1).Kept q := by
  unfold State.runStop
  repeat' first
    | with_reducible assumption
    | (fail_if_no_progress (extract_lets +onlyGivenNames x)
       first
       | clear_value x
       | skip)
    | with_reducible apply State.setBank_kept
    | with_reducible apply Kept.ite
    | split

theorem State.stkCtlWrite_kept {s : State} (h0 : s.Kept q) (a1) (a2) : (State.stkCtlWrite s a1 a2).1.Kept q := by
  unfold State.stkCtlWrite
  repeat' first
    | with_reducible intro _
    | with_reducible assumption
    | ((with_reducible show Fld.listed _ = true); rfl)
    | (fail_if_no_progress (extract_lets +onlyGivenNames x)
       first
       | (refine Kept.cutF (q := q) (x := x) ?_ ?_ <;> [(unfold x; beta_reduce); ((try clear_value x); intro _)])
       | (refine Kept.cutF2F (q := q) (x := x) ?_ ?_ <;> [(unfold x; beta_reduce); ((try clear_value x); intro _)])
       | (refine Kept.cutF2 (q := q) (x := x) ?_ ?_ <;> [(unfold x; beta_reduce); ((try clear_value x); intro _)])
       | (refine Kept.cutF22 (q := q) (x := x) ?_ ?_ <;> [(unfold x; beta_reduce); ((try clear_value x); intro _)])
       | (refine Kept.cutF3 (q := q) (x := x) ?_ ?_ <;> [(unfold x; beta_reduce); ((try clear_value x); intro _)])
       | (refine Kept.cutF32 (q := q) (x := x) ?_ ?_ <;> [(unfold x; beta_reduce); ((try clear_value x); intro _)])
       | clear_value x
       | skip)
    | with_reducible apply State.wr_kept
    | with_reducible apply State.runStart_kept
    | with_reducible apply State.runStop_kept
    | with_reducible apply Kept.ite
    | with_reducible apply Kept.iteP
    | split
    | (refine Kept.getP ?_ (by assumption) <;> with_reducible apply State.runStart_kept)
    | with_reducible apply_assumption

theorem State.stkCtl_kept (ag : Agent) (b v : Nat) {s : State} (h0 : s.Kept q) :
    KeptN q (.next (s.writing ag .STK_CTL b v fun t => t.stkCtlWrite b v)) :=
  KeptN.next (State.writing_kept h0 _ _ _ _ fun y hy => State.stkCtlWrite_kept hy _ _)

theorem execStkCtlRunStart_kept (ag b) {s : State} (h0 : s.Kept q) : KeptN q (execStkCtlRunStart ag b s) := by
  delta execStkCtlRunStart
  exact State.stkCtl_kept ag _ _ h0

theorem execStkCtlRunStop_kept (ag b) {s : State} (h0 : s.Kept q) : KeptN q (execStkCtlRunStop ag b s) := by
  delta execStkCtlRunStop
  exact State.stkCtl_kept ag _ _ h0

theorem State.mailboxPost_kept {s : State} (h0 : s.Kept q) (a1) (a2) : (State.mailboxPost s a1 a2).Kept q := by
  unfold State.mailboxPost
  repeat' first
    | with_reducible intro _
    | with_reducible assumption
    | (fail_if_no_progress (extract_lets +onlyGivenNames x)
       first
       | clear_value x
       | skip)
    | with_reducible apply State.respond_kept
    | with_reducible apply State.setBank_kept
    | with_reducible apply State.st_kept
    | with_reducible apply Kept.ite
    | split

theorem State.mailboxPop_kept {s : State} (h0 : s.Kept q) (a1) (a2) : (State.mailboxPop s a1 a2).Kept q := by
  unfold State.mailboxPop
  repeat' first
    | with_reducible intro _
    | with_reducible assumption
    | (fail_if_no_progress (extract_lets +onlyGivenNames x)
       first
       | clear_value x
       | skip)
    | with_reducible apply State.setBank_kept
    | split

theorem execMailboxPost_kept (a0) (a1) {s : State} (h0 : s.Kept q) : KeptN q (execMailboxPost a0 a1 s) := by
  unfold execMailboxPost
  repeat' first
    | with_reducible intro _
    | with_reducible assumption
    | with_reducible apply State.writing_kept
    | with_reducible apply State.mailboxPost_kept
    | with_reducible apply KeptN.next
    | with_reducible apply Kept.id

theorem execMailboxPop_kept (a0) (a1) {s : State} (h0 : s.Kept q) : KeptN q (execMailboxPop a0 a1 s) := by
  unfold execMailboxPop
  repeat' first
    | with_reducible intro _
    | with_reducible assumption
    | with_reducible apply State.writing_kept
    | with_reducible apply State.mailboxPop_kept
    | with_reducible apply KeptN.next
    | with_reducible apply Kept.id

theorem State.stkWrite_kept {s : State} (h0 : s.Kept q) (a1) (a2) (a3) (a4) : KeptOP q (State.stkWrite s a1 a2 a3 a4) := by
  unfold State.stkWrite
  repeat' first
    | with_reducible intro _
    | with_reducible assumption
    | ((with_reducible show Fld.listed _ = true); rfl)
    | with_reducible apply State.stkCtlWrite_kept
    | with_reducible apply State.mailboxPost_kept
    | with_reducible apply State.mailboxPop_kept
    | with_reducible apply State.st_kept
    | with_reducible apply State.wr_kept
    | with_reducible apply State.put_kept
    | with_reducible apply KeptOP.none
    | with_reducible apply KeptOP.some
    | with_reducible apply Kept.ite
    | with_reducible apply Kept.iteP
    | split
    | (refine Kept.getP ?_ (by assumption) <;> with_reducible apply State.stkCtlWrite_kept)

theorem State.serviceRequest_kept {s : State} (h0 : s.Kept q) (a1) : (State.serviceRequest s a1).Kept q := by
  unfold State.serviceRequest
  repeat' first
    | with_reducible assumption
    | ((with_reducible show Fld.listed _ = true); rfl)
    | with_reducible apply State.put_kept
    | with_reducible apply Kept.ite
    | split
    | fail_if_no_progress (with_reducible apply Kept.upd)

theorem State.modeWrite_kept {s : State} (h0 : s.Kept q) (a1) (a2) : (State.modeWrite s a1 a2).Kept q := by
  unfold State.modeWrite
  repeat' first
    | with_reducible assumption
    | with_reducible apply State.serviceRequest_kept
    | with_reducible apply Kept.ite
    | split

theorem execEnterService_kept (a0) {s : State} (h0 : s.Kept q) : KeptN q (execEnterService a0 s) := by
  unfold execEnterService
  repeat' first
    | with_reducible intro _
    | with_reducible assumption
    | with_reducible apply State.writing_kept
    | with_reducible apply State.modeWrite_kept
    | with_reducible apply KeptN.next
    | with_reducible apply Kept.id

theorem execServiceEntryComplete_kept {s : State} (h0 : s.Kept q) : KeptN q (execServiceEntryComplete s) := by
  unfold execServiceEntryComplete
  repeat' first
    | with_reducible assumption
    | ((with_reducible show Fld.listed _ = true); rfl)
    | with_reducible apply State.bump_kept
    | with_reducible apply State.put_kept
    | with_reducible apply KeptN.next
    | with_reducible apply Kept.ite
    | with_reducible apply Kept.iteP
    | split
    | fail_if_no_progress (with_reducible apply Kept.upd)

end Sys2Proof.Machine
end

