-- ==== Sys2Proof/Laws/KeptStartup.lean ====
section
/-!
SUPPORT. Every operation of Machine/Startup.lean keeps the stores canonical and the queue as it stands.
-/

set_option linter.unusedVariables false
set_option linter.unusedTactic false
set_option linter.unreachableTactic false
set_option linter.unnecessarySeqFocus false

namespace Sys2Proof.Machine

variable {q : List Instr}

theorem State.peatProgram_kept {s : State} (h0 : s.Kept q) : (State.peatProgram s).Kept q := by
  unfold State.peatProgram
  repeat' first
    | with_reducible intro _
    | with_reducible assumption
    | ((with_reducible show Fld.listed _ = true); rfl)
    | (fail_if_no_progress (extract_lets +onlyGivenNames x)
       first
       | (refine Kept.cut (q := q) (x := x) ?_ ?_ <;> [unfold x; ((try clear_value x); intro _)])
       | (refine Kept.cutP (q := q) (x := x) ?_ ?_ <;> [unfold x; ((try clear_value x); intro _)])
       | (refine Kept.cutF (q := q) (x := x) ?_ ?_ <;> [(unfold x; beta_reduce); ((try clear_value x); intro _)])
       | (refine Kept.cutF2F (q := q) (x := x) ?_ ?_ <;> [(unfold x; beta_reduce); ((try clear_value x); intro _)])
       | (refine Kept.cutF2 (q := q) (x := x) ?_ ?_ <;> [(unfold x; beta_reduce); ((try clear_value x); intro _)])
       | (refine Kept.cutF22 (q := q) (x := x) ?_ ?_ <;> [(unfold x; beta_reduce); ((try clear_value x); intro _)])
       | (refine Kept.cutF3 (q := q) (x := x) ?_ ?_ <;> [(unfold x; beta_reduce); ((try clear_value x); intro _)])
       | (refine Kept.cutF32 (q := q) (x := x) ?_ ?_ <;> [(unfold x; beta_reduce); ((try clear_value x); intro _)])
       | clear_value x
       | skip)
    | with_reducible apply State.spanWrite_kept
    | with_reducible apply State.st_kept
    | with_reducible apply State.peatTake_kept
    | with_reducible apply State.errorLines_kept
    | with_reducible apply Kept.foldlFields
    | exact Reg.fields_listed _ _ (by assumption)
    | with_reducible apply Kept.foldl
    | with_reducible apply Kept.foldlP
    | with_reducible apply Kept.ite
    | with_reducible apply Kept.iteP
    | split
    | (refine Kept.getP ?_ (by assumption) <;> with_reducible apply State.peatTake_kept)
    | fail_if_no_progress (with_reducible apply Kept.upd)
    | with_reducible apply_assumption

theorem State.peatLeave_kept {s : State} (h0 : s.Kept q) (a1) : (State.peatLeave s a1).Kept q := by
  unfold State.peatLeave
  repeat' first
    | with_reducible intro _
    | with_reducible assumption
    | with_reducible apply State.peatProgram_kept
    | with_reducible apply Kept.ite
    | split

theorem State.peatSeek_kept {s : State} (h0 : s.Kept q) (a1) : (State.peatSeek s a1).Kept q := by
  unfold State.peatSeek
  repeat' first
    | with_reducible intro _
    | with_reducible assumption
    | ((with_reducible show Fld.listed _ = true); rfl)
    | with_reducible apply State.unlessReset_kept
    | with_reducible apply State.peatLeave_kept
    | with_reducible apply State.wr_kept
    | with_reducible apply Kept.id

theorem State.peatNext_kept {s : State} (h0 : s.Kept q) : (State.peatNext s).Kept q := by
  unfold State.peatNext
  repeat' first
    | with_reducible assumption
    | with_reducible apply State.peatSeek_kept

theorem State.peatMerge_kept {s : State} (h0 : s.Kept q) (a1) (a2) : (State.peatMerge s a1 a2).Kept q := by
  unfold State.peatMerge
  repeat' first
    | with_reducible intro _
    | with_reducible assumption
    | (fail_if_no_progress (extract_lets +onlyGivenNames x)
       first
       | clear_value x
       | skip)
    | with_reducible apply State.unlessReset_kept
    | with_reducible apply State.peatLeave_kept
    | split
    | fail_if_no_progress (with_reducible apply Kept.upd)
    | with_reducible apply Kept.id

theorem State.peatPut_kept {s : State} (h0 : s.Kept q) (a1) : (State.peatPut s a1).Kept q := by
  unfold State.peatPut
  repeat' first
    | with_reducible intro _
    | with_reducible assumption
    | with_reducible apply State.unlessReset_kept
    | with_reducible apply State.peatMerge_kept
    | with_reducible apply State.peatNext_kept
    | with_reducible apply Kept.id

theorem State.ptrSafe_kept {s : State} (h0 : s.Kept q) : (State.ptrSafe s).Kept q := by
  unfold State.ptrSafe
  repeat' first
    | with_reducible intro _
    | with_reducible assumption
    | ((with_reducible show Fld.listed _ = true); rfl)
    | with_reducible apply State.setMark_kept
    | with_reducible apply State.wr_kept
    | with_reducible apply Kept.foldlFields
    | exact Reg.fields_listed _ _ (by assumption)
    | with_reducible apply Kept.foldl
    | with_reducible apply Kept.foldlP
    | fail_if_no_progress (with_reducible apply Kept.upd)

theorem State.votePtr_kept {s : State} (h0 : s.Kept q) : (State.votePtr s).Kept q := by
  unfold State.votePtr
  repeat' first
    | with_reducible intro _
    | with_reducible assumption
    | with_reducible apply State.tvVote_kept
    | with_reducible apply State.ptrSafe_kept
    | with_reducible apply Kept.id

theorem State.imageWrite_kept {s : State} (h0 : s.Kept q) (a1) (a2) : (State.imageWrite s a1 a2).1.Kept q := by
  unfold State.imageWrite
  repeat' first
    | with_reducible intro _
    | with_reducible assumption
    | (fail_if_no_progress (extract_lets +onlyGivenNames x)
       first
       | (refine Kept.cut (q := q) (x := x) ?_ ?_ <;> [unfold x; ((try clear_value x); intro _)])
       | clear_value x
       | skip)
    | with_reducible apply State.votePtr_kept
    | with_reducible apply State.unlessReset_kept
    | with_reducible apply State.peatPut_kept
    | with_reducible apply Kept.ite
    | with_reducible apply Kept.iteP
    | split
    | fail_if_no_progress (with_reducible apply Kept.upd)
    | with_reducible apply Kept.id

theorem State.peatDataWrite_kept {s : State} (h0 : s.Kept q) (a1) : (State.peatDataWrite s a1).1.Kept q := by
  unfold State.peatDataWrite
  repeat' first
    | with_reducible intro _
    | with_reducible assumption
    | with_reducible apply State.imageWrite_kept
    | with_reducible apply State.peatPut_kept
    | with_reducible apply State.unlessReset_kept
    | with_reducible apply Kept.ite
    | with_reducible apply Kept.iteP
    | split
    | (refine Kept.getP ?_ (by assumption) <;> with_reducible apply State.imageWrite_kept)
    | fail_if_no_progress (with_reducible apply Kept.upd)
    | with_reducible apply Kept.id

theorem State.peatShown_kept {s : State} (h0 : s.Kept q) : (State.peatShown s).1.Kept q := by
  unfold State.peatShown
  repeat' first
    | with_reducible intro _
    | with_reducible assumption
    | with_reducible apply State.drawn_kept
    | split

theorem State.peatDataRead_kept {s : State} (h0 : s.Kept q) : (State.peatDataRead s).1.Kept q := by
  unfold State.peatDataRead
  repeat' first
    | with_reducible intro _
    | with_reducible assumption
    | (fail_if_no_progress (extract_lets +onlyGivenNames x)
       first
       | (refine Kept.cutP (q := q) (x := x) ?_ ?_ <;> [unfold x; ((try clear_value x); intro _)])
       | clear_value x
       | skip)
    | with_reducible apply State.peatTake_kept
    | with_reducible apply State.peatShown_kept
    | with_reducible apply State.unlessReset_kept
    | with_reducible apply State.errorLines_kept
    | with_reducible apply State.peatNext_kept
    | with_reducible apply Kept.ite
    | with_reducible apply Kept.iteP
    | split
    | with_reducible apply Kept.id

theorem execPeatData_kept (a0) (a1) {s : State} (h0 : s.Kept q) : KeptN q (execPeatData a0 a1 s) := by
  unfold execPeatData
  repeat' first
    | with_reducible intro _
    | with_reducible assumption
    | (fail_if_no_progress (extract_lets +onlyGivenNames x)
       first
       | (refine Kept.cutP (q := q) (x := x) ?_ ?_ <;> [unfold x; ((try clear_value x); intro _)])
       | clear_value x
       | skip)
    | with_reducible apply State.writing_kept
    | with_reducible apply State.peatDataWrite_kept
    | with_reducible apply State.answer_kept
    | with_reducible apply State.touched_kept
    | with_reducible apply State.peatDataRead_kept
    | with_reducible apply KeptN.next
    | with_reducible apply Kept.ite
    | with_reducible apply Kept.iteP
    | split
    | (refine Kept.getP ?_ (by assumption) <;> with_reducible apply State.peatDataWrite_kept)
    | (refine Kept.getP ?_ (by assumption) <;> with_reducible apply State.peatDataRead_kept)
    | with_reducible apply Kept.id

theorem execPeatWordProgram_kept {s : State} (h0 : s.Kept q) : KeptN q (execPeatWordProgram s) := by
  unfold execPeatWordProgram
  repeat' first
    | with_reducible assumption
    | with_reducible apply State.peatProgram_kept
    | with_reducible apply KeptN.next

theorem State.digestWrite_kept {s : State} (h0 : s.Kept q) (a1) (a2) : (State.digestWrite s a1 a2).1.Kept q := by
  unfold State.digestWrite
  repeat' first
    | with_reducible intro _
    | with_reducible assumption
    | (fail_if_no_progress (extract_lets +onlyGivenNames x)
       first
       | (refine Kept.cut (q := q) (x := x) ?_ ?_ <;> [unfold x; ((try clear_value x); intro _)])
       | clear_value x
       | skip)
    | with_reducible apply State.unlessReset_kept
    | with_reducible apply State.peatMerge_kept
    | with_reducible apply State.peatProgram_kept
    | with_reducible apply Kept.foldlFields
    | exact Reg.fields_listed _ _ (by assumption)
    | with_reducible apply Kept.foldl
    | with_reducible apply Kept.foldlP
    | with_reducible apply Kept.ite
    | with_reducible apply Kept.iteP
    | split
    | fail_if_no_progress (with_reducible apply Kept.upd)
    | with_reducible apply Kept.id

theorem execOwnerDigestWrite_kept (a0) (a1) {s : State} (h0 : s.Kept q) : KeptN q (execOwnerDigestWrite a0 a1 s) := by
  unfold execOwnerDigestWrite
  repeat' first
    | with_reducible assumption
    | (fail_if_no_progress (extract_lets +onlyGivenNames x)
       first
       | (refine Kept.cutP (q := q) (x := x) ?_ ?_ <;> [unfold x; ((try clear_value x); intro _)])
       | clear_value x
       | skip)
    | with_reducible apply State.digestWrite_kept
    | with_reducible apply State.answer_kept
    | with_reducible apply KeptN.next

theorem State.peatRange_kept {s : State} (h0 : s.Kept q) (a1) (a2) : (State.peatRange s a1 a2).1.Kept q := by
  unfold State.peatRange
  repeat' first
    | with_reducible assumption
    | with_reducible apply State.peatTake_kept

theorem State.bankCheck_kept {s : State} (h0 : s.Kept q) (a1) : (State.bankCheck s a1).1.Kept q := by
  unfold State.bankCheck
  repeat' first
    | with_reducible assumption
    | (fail_if_no_progress (extract_lets +onlyGivenNames x)
       first
       | (refine Kept.cutP (q := q) (x := x) ?_ ?_ <;> [unfold x; ((try clear_value x); intro _)])
       | clear_value x
       | skip)
    | with_reducible apply State.peatRange_kept
    | with_reducible apply Kept.ite
    | with_reducible apply Kept.iteP
    | split

theorem State.recovery_kept {s : State} (h0 : s.Kept q) : (State.recovery s).Kept q := by
  unfold State.recovery
  repeat' first
    | with_reducible assumption
    | ((with_reducible show Fld.listed _ = true); rfl)
    | with_reducible apply State.wr_kept
    | with_reducible apply State.put_kept

theorem State.bootWith_kept {s : State} (h0 : s.Kept q) (a1) : (State.bootWith s a1).Kept q := by
  unfold State.bootWith
  repeat' first
    | with_reducible assumption
    | ((with_reducible show Fld.listed _ = true); rfl)
    | with_reducible apply State.wr_kept

theorem State.tryBank_kept {s : State} (h0 : s.Kept q) (a1) {g2 : State → State} (hg2 : ∀ y0, y0.Kept q → (g2 y0).Kept q) : (State.tryBank s a1 g2).Kept q := by
  unfold State.tryBank
  repeat' first
    | with_reducible intro _
    | with_reducible assumption
    | ((with_reducible show Fld.listed _ = true); rfl)
    | (fail_if_no_progress (extract_lets +onlyGivenNames x)
       first
       | (refine Kept.cut (q := q) (x := x) ?_ ?_ <;> [unfold x; ((try clear_value x); intro _)])
       | (refine Kept.cutP (q := q) (x := x) ?_ ?_ <;> [unfold x; ((try clear_value x); intro _)])
       | clear_value x
       | skip)
    | with_reducible apply bankResult_listed
    | with_reducible apply State.bankCheck_kept
    | with_reducible apply State.unlessReset_kept
    | with_reducible apply State.errorLines_kept
    | with_reducible apply State.wr_kept
    | with_reducible apply State.bootWith_kept
    | with_reducible apply Kept.ite
    | with_reducible apply Kept.iteP
    | split
    | with_reducible apply Kept.id
    | with_reducible apply_assumption

theorem execBootCheck_kept {s : State} (h0 : s.Kept q) : KeptN q (execBootCheck s) := by
  unfold execBootCheck
  repeat' first
    | with_reducible intro _
    | with_reducible assumption
    | ((with_reducible show Fld.listed _ = true); rfl)
    | with_reducible apply State.recovery_kept
    | with_reducible apply State.put_kept
    | with_reducible apply State.unlessReset_kept
    | with_reducible apply State.votePtr_kept
    | with_reducible apply State.tryBank_kept
    | with_reducible apply KeptN.next
    | with_reducible apply Kept.ite
    | with_reducible apply Kept.iteP
    | split
    | with_reducible apply Kept.id

theorem State.activate_kept {s : State} (h0 : s.Kept q) (a1) : (State.activate s a1).Kept q := by
  unfold State.activate
  repeat' first
    | with_reducible assumption
    | ((with_reducible show Fld.listed _ = true); rfl)
    | (fail_if_no_progress (extract_lets +onlyGivenNames x)
       first
       | (refine Kept.cut (q := q) (x := x) ?_ ?_ <;> [unfold x; ((try clear_value x); intro _)])
       | clear_value x
       | skip)
    | with_reducible apply State.tvWrite_kept
    | with_reducible apply State.wr_kept
    | with_reducible apply State.irq_kept
    | with_reducible apply State.journalAdd_kept
    | fail_if_no_progress (with_reducible apply Kept.upd)

theorem State.peatCmd_kept {s : State} (h0 : s.Kept q) (a1) : (State.peatCmd s a1).1.Kept q := by
  unfold State.peatCmd
  repeat' first
    | with_reducible intro _
    | with_reducible assumption
    | (fail_if_no_progress (extract_lets +onlyGivenNames x)
       first
       | clear_value x
       | skip)
    | with_reducible apply State.unlessReset_kept
    | with_reducible apply State.peatProgram_kept
    | with_reducible apply State.activate_kept
    | with_reducible apply Kept.ite
    | with_reducible apply Kept.iteP
    | split
    | fail_if_no_progress (with_reducible apply Kept.upd)
    | with_reducible apply Kept.id

theorem execPeatVerify_kept (a0) (a1) {s : State} (h0 : s.Kept q) : KeptN q (execPeatVerify a0 a1 s) := by
  unfold execPeatVerify
  repeat' first
    | with_reducible intro _
    | with_reducible assumption
    | with_reducible apply State.writing_kept
    | with_reducible apply State.peatCmd_kept
    | with_reducible apply KeptN.next
    | with_reducible apply Kept.id

theorem execPeatActivate_kept (a0) (a1) {s : State} (h0 : s.Kept q) : KeptN q (execPeatActivate a0 a1 s) := by
  unfold execPeatActivate
  repeat' first
    | with_reducible intro _
    | with_reducible assumption
    | with_reducible apply State.writing_kept
    | with_reducible apply State.peatCmd_kept
    | with_reducible apply KeptN.next
    | with_reducible apply Kept.id

theorem execPeatVerifyDone_kept {s : State} (h0 : s.Kept q) : KeptN q (execPeatVerifyDone s) := by
  unfold execPeatVerifyDone
  repeat' first
    | with_reducible intro _
    | with_reducible assumption
    | ((with_reducible show Fld.listed _ = true); rfl)
    | (fail_if_no_progress (extract_lets +onlyGivenNames x)
       first
       | (refine Kept.cutP (q := q) (x := x) ?_ ?_ <;> [unfold x; ((try clear_value x); intro _)])
       | clear_value x
       | skip)
    | with_reducible apply State.bankCheck_kept
    | with_reducible apply State.unlessReset_kept
    | with_reducible apply State.errorLines_kept
    | with_reducible apply State.irq_kept
    | with_reducible apply State.wr_kept
    | with_reducible apply KeptN.next
    | with_reducible apply Kept.ite
    | with_reducible apply Kept.iteP
    | split
    | (refine Kept.getP ?_ (by assumption) <;> with_reducible apply State.bankCheck_kept)
    | fail_if_no_progress (with_reducible apply Kept.upd)
    | with_reducible apply Kept.id

theorem State.resetCtl_kept {s : State} (h0 : s.Kept q) (a1) : (State.resetCtl s a1).1.Kept q := by
  unfold State.resetCtl
  repeat' first
    | with_reducible assumption
    | (fail_if_no_progress (extract_lets +onlyGivenNames x)
       first
       | clear_value x
       | skip)
    | with_reducible apply State.resetInstance_kept
    | with_reducible apply Kept.ite
    | with_reducible apply Kept.iteP
    | split
    | fail_if_no_progress (with_reducible apply Kept.upd)

theorem execSysResetChip_kept (a0) {s : State} (h0 : s.Kept q) : KeptN q (execSysResetChip a0 s) := by
  unfold execSysResetChip
  repeat' first
    | with_reducible intro _
    | with_reducible assumption
    | with_reducible apply State.writing_kept
    | with_reducible apply State.resetCtl_kept
    | with_reducible apply KeptN.next
    | with_reducible apply Kept.id

theorem State.resetCtlBy_kept (ag : Agent) (v : Nat) {s : State} (h0 : s.Kept q) :
    KeptN q (.next (s.writing ag .SYS_RESET_CTL 0 v fun t => t.resetCtl v)) :=
  KeptN.next (State.writing_kept h0 _ _ _ _ fun y hy => State.resetCtl_kept hy _)

theorem execSysResetBlock_kept (ag src inst) {s : State} (h0 : s.Kept q) : KeptN q (execSysResetBlock ag src inst s) := by
  delta execSysResetBlock
  exact State.resetCtlBy_kept ag _ h0

theorem execPowerOn_kept {s : State} (h0 : s.Kept q) : KeptN q (execPowerOn s) := by
  unfold execPowerOn
  apply KeptN.next
  apply State.resetFor_kept
  exact ⟨rfl, Memory.wf_filter h0.2.1 _, h0.2.2⟩

theorem execResetPin_kept {s : State} (h0 : s.Kept q) : KeptN q (execResetPin s) := by
  unfold execResetPin
  repeat' first
    | with_reducible assumption
    | with_reducible apply State.chipReset_kept
    | with_reducible apply KeptN.next
    | with_reducible apply Kept.ite
    | with_reducible apply Kept.iteP
    | split

theorem execChipReset_kept (a0) {s : State} (h0 : s.Kept q) : KeptN q (execChipReset a0 s) := by
  unfold execChipReset
  repeat' first
    | with_reducible assumption
    | with_reducible apply execResetPin_kept
    | with_reducible apply State.resetFor_kept
    | with_reducible apply KeptN.next
    | with_reducible apply Kept.ite
    | with_reducible apply Kept.iteP
    | split

theorem execSupplyLow_kept (a0) {s : State} (h0 : s.Kept q) : KeptN q (execSupplyLow a0 s) := by
  unfold execSupplyLow
  repeat' first
    | with_reducible assumption
    | (fail_if_no_progress (extract_lets +onlyGivenNames x)
       first
       | (refine Kept.cut (q := q) (x := x) ?_ ?_ <;> [unfold x; ((try clear_value x); intro _)])
       | clear_value x
       | skip)
    | with_reducible apply State.errorLine_kept
    | with_reducible apply KeptN.next
    | with_reducible apply Kept.ite
    | with_reducible apply Kept.iteP
    | split
    | fail_if_no_progress (with_reducible apply Kept.upd)

theorem execSupplyReset_kept {s : State} (h0 : s.Kept q) : KeptN q (execSupplyReset s) := by
  unfold execSupplyReset
  repeat' first
    | with_reducible assumption
    | with_reducible apply State.resetFor_kept
    | with_reducible apply KeptN.next
    | with_reducible apply Kept.ite
    | with_reducible apply Kept.iteP
    | split

theorem execSupplyRecovery_kept (a0) {s : State} (h0 : s.Kept q) : KeptN q (execSupplyRecovery a0 s) := by
  unfold execSupplyRecovery
  repeat' first
    | with_reducible assumption
    | with_reducible apply State.resetRelease_kept
    | with_reducible apply KeptN.next
    | with_reducible apply Kept.ite
    | with_reducible apply Kept.iteP
    | split
    | fail_if_no_progress (with_reducible apply Kept.upd)

theorem State.sysWrite_kept {s : State} (h0 : s.Kept q) (a1) (a2) (a3) : KeptOP q (State.sysWrite s a1 a2 a3) := by
  unfold State.sysWrite
  repeat' first
    | with_reducible intro _
    | with_reducible assumption
    | with_reducible apply State.modeWrite_kept
    | with_reducible apply State.resetCtl_kept
    | with_reducible apply State.peatSeek_kept
    | with_reducible apply State.peatDataWrite_kept
    | with_reducible apply State.peatCmd_kept
    | with_reducible apply KeptOP.none
    | with_reducible apply KeptOP.some
    | split
    | (refine Kept.getP ?_ (by assumption) <;> with_reducible apply State.resetCtl_kept)
    | (refine Kept.getP ?_ (by assumption) <;> with_reducible apply State.peatDataWrite_kept)
    | (refine Kept.getP ?_ (by assumption) <;> with_reducible apply State.peatCmd_kept)

end Sys2Proof.Machine
end

