-- ==== Sys2Proof/Laws/KeptScrub.lean ====
section
/-!
SUPPORT. Every operation of Machine/Scrub.lean keeps the stores canonical and the queue as it stands.
-/

set_option linter.unusedVariables false
set_option linter.unusedTactic false
set_option linter.unreachableTactic false
set_option linter.unnecessarySeqFocus false

namespace Sys2Proof.Machine

variable {q : List Instr}

theorem State.voteReact_kept {s : State} (h0 : s.Kept q) (a1) : (State.voteReact s a1).Kept q := by
  unfold State.voteReact
  repeat' first
    | with_reducible assumption
    | (fail_if_no_progress (extract_lets +onlyGivenNames x)
       first
       | (refine Kept.cutP (q := q) (x := x) ?_ ?_ <;> [unfold x; ((try clear_value x); intro _)])
       | clear_value x
       | skip)
    | with_reducible apply State.reactVote_kept
    | with_reducible apply State.errorLines_kept

theorem State.voteWord_kept {s : State} (h0 : s.Kept q) (a1) : (State.voteWord s a1).Kept q := by
  unfold State.voteWord
  repeat' first
    | with_reducible intro _
    | with_reducible assumption
    | with_reducible apply State.voteTx_kept
    | with_reducible apply State.tvVote_kept
    | with_reducible apply State.resync_kept
    | with_reducible apply State.voteKey_kept
    | with_reducible apply State.voteRole_kept
    | with_reducible apply State.voteReact_kept
    | with_reducible apply State.votePtr_kept
    | with_reducible apply Kept.ite
    | split
    | with_reducible apply Kept.id

theorem State.scrubRead_kept {s : State} (h0 : s.Kept q) (a1) (a2) (a3) : (State.scrubRead s a1 a2 a3).Kept q := by
  unfold State.scrubRead
  repeat' first
    | with_reducible intro _
    | with_reducible assumption
    | (fail_if_no_progress (extract_lets +onlyGivenNames x)
       first
       | (refine Kept.cut (q := q) (x := x) ?_ ?_ <;> [unfold x; ((try clear_value x); intro _)])
       | (refine Kept.cutP (q := q) (x := x) ?_ ?_ <;> [unfold x; ((try clear_value x); intro _)])
       | clear_value x
       | skip)
    | with_reducible apply State.rawCapture_kept
    | with_reducible apply State.trackRead_kept
    | with_reducible apply State.correction_kept
    | with_reducible apply State.miscorrection_kept
    | with_reducible apply State.uncorrectable_kept
    | with_reducible apply State.errorLines_kept
    | split
    | (refine Kept.getP ?_ (by assumption) <;> with_reducible apply State.correction_kept)
    | (refine Kept.getP ?_ (by assumption) <;> with_reducible apply State.miscorrection_kept)
    | (refine Kept.getP ?_ (by assumption) <;> with_reducible apply State.uncorrectable_kept)

theorem State.scrubWord_kept {s : State} (h0 : s.Kept q) (a1) (a2) : (State.scrubWord s a1 a2).Kept q := by
  unfold State.scrubWord
  repeat' first
    | with_reducible intro _
    | with_reducible assumption
    | with_reducible apply State.scrubRead_kept
    | with_reducible apply State.drawn_kept
    | with_reducible apply Kept.ite
    | split

theorem State.scrub_kept {s : State} (h0 : s.Kept q) (a1) (a2) : (State.scrub s a1 a2).Kept q := by
  unfold State.scrub
  repeat' first
    | with_reducible assumption
    | with_reducible apply State.voteWord_kept
    | with_reducible apply State.scrubWord_kept
    | with_reducible apply Kept.ite
    | split

theorem execMempScrub_kept (a0) (a1) (a2) (a3) {s : State} (h0 : s.Kept q) : KeptN q (execMempScrub a0 a1 a2 a3 s) := by
  unfold execMempScrub
  repeat' first
    | with_reducible assumption
    | ((with_reducible show Fld.listed _ = true); rfl)
    | (fail_if_no_progress (extract_lets +onlyGivenNames x)
       first
       | (refine Kept.cut (q := q) (x := x) ?_ ?_ <;> [unfold x; ((try clear_value x); intro _)])
       | clear_value x
       | skip)
    | with_reducible apply State.upsets_kept
    | with_reducible apply State.scrub_kept
    | with_reducible apply State.bumpWrap_kept
    | with_reducible apply KeptN.next
    | with_reducible apply Kept.ite
    | with_reducible apply Kept.iteP
    | split
    | fail_if_no_progress (with_reducible apply Kept.upd)

theorem execInjectArm_kept (a0) (a1) {s : State} (h0 : s.Kept q) : KeptN q (execInjectArm a0 a1 s) := by
  unfold execInjectArm
  repeat' first
    | with_reducible intro _
    | with_reducible assumption
    | with_reducible apply State.writing_kept
    | with_reducible apply State.injectWrite_kept
    | with_reducible apply KeptN.next
    | with_reducible apply Kept.id

theorem execMempLogPop_kept (a0) {s : State} (h0 : s.Kept q) : KeptN q (execMempLogPop a0 s) := by
  unfold execMempLogPop
  repeat' first
    | with_reducible intro _
    | with_reducible assumption
    | with_reducible apply State.writing_kept
    | with_reducible apply State.logPop_kept
    | with_reducible apply KeptN.next
    | with_reducible apply Kept.id

theorem State.mempCtlWrite_kept {s : State} (h0 : s.Kept q) (a1) : (State.mempCtlWrite s a1).1.Kept q := by
  unfold State.mempCtlWrite
  repeat' first
    | with_reducible intro _
    | with_reducible assumption
    | ((with_reducible show Fld.listed _ = true); rfl)
    | (fail_if_no_progress (extract_lets +onlyGivenNames x)
       first
       | (refine Kept.cut (q := q) (x := x) ?_ ?_ <;> [unfold x; ((try clear_value x); intro _)])
       | clear_value x
       | skip)
    | with_reducible apply State.wr_kept
    | with_reducible apply Kept.foldlFields
    | exact Reg.fields_listed _ _ (by assumption)
    | with_reducible apply Kept.foldl
    | with_reducible apply Kept.foldlP
    | with_reducible apply Kept.ite
    | with_reducible apply Kept.iteP
    | split
    | fail_if_no_progress (with_reducible apply Kept.upd)

theorem State.mempWrite_kept {s : State} (h0 : s.Kept q) (a1) (a2) : KeptOP q (State.mempWrite s a1 a2) := by
  unfold State.mempWrite
  repeat' first
    | with_reducible intro _
    | with_reducible assumption
    | with_reducible apply State.mempCtlWrite_kept
    | with_reducible apply State.injectWrite_kept
    | with_reducible apply State.logPop_kept
    | with_reducible apply KeptOP.none
    | with_reducible apply KeptOP.some
    | split
    | (refine Kept.getP ?_ (by assumption) <;> with_reducible apply State.mempCtlWrite_kept)
    | (refine Kept.getP ?_ (by assumption) <;> with_reducible apply State.injectWrite_kept)

end Sys2Proof.Machine
end

