-- ==== Sys2Proof/Laws/KeptSession.lean ====
section
/-!
SUPPORT. Every operation of Machine/Session.lean keeps the stores canonical and the queue as it stands.
-/

set_option linter.unusedVariables false
set_option linter.unusedTactic false
set_option linter.unreachableTactic false
set_option linter.unnecessarySeqFocus false

namespace Sys2Proof.Machine

variable {q : List Instr}

theorem execEqAdaptDone_kept (a0) {s : State} (h0 : s.Kept q) : KeptN q (execEqAdaptDone a0 s) := by
  unfold execEqAdaptDone
  apply KeptN.next
  split
  · apply State.linkState_kept
    split
    · exact Kept.foldlMem _ (fun t l hl ht => State.wr_kept ht (peakFld_listed (List.mem_range.1 hl)) _ _) h0
    · exact h0
  · exact h0

theorem State.configEnter_kept {s : State} (h0 : s.Kept q) : (State.configEnter s).Kept q := by
  unfold State.configEnter
  repeat' first
    | with_reducible assumption
    | (fail_if_no_progress (extract_lets +onlyGivenNames x)
       first
       | (refine Kept.cut (q := q) (x := x) ?_ ?_ <;> [unfold x; ((try clear_value x); intro _)])
       | clear_value x
       | skip)
    | with_reducible apply State.linkState_kept
    | fail_if_no_progress (with_reducible apply Kept.upd)

theorem State.closeSession_kept {s : State} (h0 : s.Kept q) (a1) : (State.closeSession s a1).Kept q := by
  unfold State.closeSession
  repeat' first
    | with_reducible intro _
    | with_reducible assumption
    | (fail_if_no_progress (extract_lets +onlyGivenNames x)
       first
       | (refine Kept.cut (q := q) (x := x) ?_ ?_ <;> [unfold x; ((try clear_value x); intro _)])
       | clear_value x
       | skip)
    | with_reducible apply State.setBank_kept
    | with_reducible apply State.setSess_kept
    | with_reducible apply Kept.foldlFields
    | exact Reg.fields_listed _ _ (by assumption)
    | with_reducible apply Kept.foldl
    | with_reducible apply Kept.foldlP
    | fail_if_no_progress (with_reducible apply Kept.upd)

theorem State.loseSession_kept {s : State} (h0 : s.Kept q) (a1) : (State.loseSession s a1).Kept q := by
  unfold State.loseSession
  repeat' first
    | with_reducible assumption
    | with_reducible apply State.closeSession_kept
    | fail_if_no_progress (with_reducible apply Kept.upd)

theorem State.closeTinder_kept {s : State} (h0 : s.Kept q) : (State.closeTinder s).Kept q := by
  unfold State.closeTinder
  repeat' first
    | with_reducible intro _
    | with_reducible assumption
    | with_reducible apply State.loseSession_kept
    | with_reducible apply Kept.foldlFields
    | exact Reg.fields_listed _ _ (by assumption)
    | with_reducible apply Kept.foldl
    | with_reducible apply Kept.foldlP
    | with_reducible apply Kept.ite
    | split

theorem State.freshRx_kept {s : State} (h0 : s.Kept q) : (State.freshRx s).Kept q := by
  unfold State.freshRx
  repeat' first
    | with_reducible assumption
    | with_reducible apply State.closeTinder_kept
    | fail_if_no_progress (with_reducible apply Kept.upd)

theorem State.resendAll_kept {s : State} (h0 : s.Kept q) (a1) : (State.resendAll s a1).Kept q := by
  unfold State.resendAll
  repeat' first
    | with_reducible intro _
    | with_reducible assumption
    | ((with_reducible show Fld.listed _ = true); rfl)
    | with_reducible apply State.linkEmit_kept
    | with_reducible apply State.bump_kept
    | with_reducible apply Kept.foldlFields
    | exact Reg.fields_listed _ _ (by assumption)
    | with_reducible apply Kept.foldl
    | with_reducible apply Kept.foldlP
    | with_reducible apply Kept.ite
    | split

theorem State.linkGo_kept {s : State} (h0 : s.Kept q) : (State.linkGo s).Kept q := by
  unfold State.linkGo
  repeat' first
    | with_reducible assumption
    | (fail_if_no_progress (extract_lets +onlyGivenNames x)
       first
       | (refine Kept.cut (q := q) (x := x) ?_ ?_ <;> [unfold x; ((try clear_value x); intro _)])
       | clear_value x
       | skip)
    | with_reducible apply State.resendAll_kept
    | with_reducible apply State.linkState_kept
    | fail_if_no_progress (with_reducible apply Kept.upd)

theorem State.mapShow_kept {s : State} (h0 : s.Kept q) : (State.mapShow s).Kept q := by
  unfold State.mapShow
  repeat' first
    | with_reducible intro _
    | with_reducible assumption
    | ((with_reducible show Fld.listed _ = true); rfl)
    | with_reducible apply State.wr_kept
    | with_reducible apply Kept.foldlFields
    | exact Reg.fields_listed _ _ (by assumption)
    | with_reducible apply Kept.foldl
    | with_reducible apply Kept.foldlP

theorem State.alignTs_kept {s : State} (h0 : s.Kept q) (a1) (a2) (a3) : (State.alignTs s a1 a2 a3).Kept q := by
  unfold State.alignTs
  repeat' first
    | with_reducible assumption
    | (fail_if_no_progress (extract_lets +onlyGivenNames x)
       first
       | (refine Kept.cut (q := q) (x := x) ?_ ?_ <;> [unfold x; ((try clear_value x); intro _)])
       | clear_value x
       | skip)
    | with_reducible apply State.mapShow_kept
    | with_reducible apply State.configEnter_kept
    | with_reducible apply Kept.ite
    | split
    | fail_if_no_progress (with_reducible apply Kept.upd)

theorem State.configTs_kept {s : State} (h0 : s.Kept q) (a1) (a2) (a3) : (State.configTs s a1 a2 a3).Kept q := by
  unfold State.configTs
  repeat' first
    | with_reducible assumption
    | ((with_reducible show Fld.listed _ = true); rfl)
    | (fail_if_no_progress (extract_lets +onlyGivenNames x)
       first
       | (refine Kept.cut (q := q) (x := x) ?_ ?_ <;> [unfold x; ((try clear_value x); intro _)])
       | clear_value x
       | skip)
    | with_reducible apply State.linkReset_kept
    | with_reducible apply State.put_kept
    | with_reducible apply Kept.ite
    | split
    | fail_if_no_progress (with_reducible apply Kept.upd)

theorem State.fillShow_kept {s : State} (h0 : s.Kept q) : (State.fillShow s).Kept q := by
  unfold State.fillShow
  repeat' first
    | with_reducible assumption
    | (fail_if_no_progress (extract_lets +onlyGivenNames x)
       first
       | clear_value x
       | skip)
    | with_reducible apply State.emit_kept
    | with_reducible apply Kept.ite
    | split
    | fail_if_no_progress (with_reducible apply Kept.upd)

theorem State.alignSend_kept {s : State} (h0 : s.Kept q) : (State.alignSend s).Kept q := by
  unfold State.alignSend
  repeat' first
    | with_reducible assumption
    | with_reducible apply State.emit_kept
    | with_reducible apply Kept.ite
    | split
    | fail_if_no_progress (with_reducible apply Kept.upd)

theorem State.linkTick_kept {s : State} (h0 : s.Kept q) : (State.linkTick s).Kept q := by
  unfold State.linkTick
  repeat' first
    | with_reducible assumption
    | with_reducible apply State.alignSend_kept
    | with_reducible apply State.fillShow_kept
    | with_reducible apply State.linkGo_kept
    | with_reducible apply Kept.ite
    | split

theorem execTsRx_kept (a0) (a1) (a2) {s : State} (h0 : s.Kept q) : KeptN q (execTsRx a0 a1 a2 s) := by
  unfold execTsRx
  repeat' first
    | with_reducible assumption
    | ((with_reducible show Fld.listed _ = true); rfl)
    | (fail_if_no_progress (extract_lets +onlyGivenNames x)
       first
       | (refine Kept.cut (q := q) (x := x) ?_ ?_ <;> [unfold x; ((try clear_value x); intro _)])
       | clear_value x
       | skip)
    | with_reducible apply State.freshRx_kept
    | with_reducible apply State.linkReset_kept
    | with_reducible apply State.wr_kept
    | with_reducible apply State.alignTs_kept
    | with_reducible apply State.configTs_kept
    | with_reducible apply KeptN.next
    | with_reducible apply Kept.ite
    | with_reducible apply Kept.iteP
    | split
    | fail_if_no_progress (with_reducible apply Kept.upd)

theorem execAlignTimeout_kept (a0) {s : State} (h0 : s.Kept q) : KeptN q (execAlignTimeout a0 s) := by
  unfold execAlignTimeout
  repeat' first
    | with_reducible assumption
    | ((with_reducible show Fld.listed _ = true); rfl)
    | (fail_if_no_progress (extract_lets +onlyGivenNames x)
       first
       | (refine Kept.cut (q := q) (x := x) ?_ ?_ <;> [unfold x; ((try clear_value x); intro _)])
       | clear_value x
       | skip)
    | with_reducible apply State.linkReset_kept
    | with_reducible apply State.put_kept
    | with_reducible apply State.configEnter_kept
    | with_reducible apply KeptN.next
    | with_reducible apply Kept.ite
    | with_reducible apply Kept.iteP
    | split
    | fail_if_no_progress (with_reducible apply Kept.upd)

theorem execConfigTimeout_kept {s : State} (h0 : s.Kept q) : KeptN q (execConfigTimeout s) := by
  unfold execConfigTimeout
  repeat' first
    | with_reducible assumption
    | with_reducible apply State.linkReset_kept
    | with_reducible apply KeptN.next
    | with_reducible apply Kept.ite
    | with_reducible apply Kept.iteP
    | split

theorem execAlignRx_kept (a0) {s : State} (h0 : s.Kept q) : KeptN q (execAlignRx a0 s) := by
  unfold execAlignRx
  repeat' first
    | with_reducible assumption
    | with_reducible apply State.linkReset_kept
    | with_reducible apply KeptN.next
    | with_reducible apply Kept.ite
    | with_reducible apply Kept.iteP
    | split
    | fail_if_no_progress (with_reducible apply Kept.upd)

theorem execCodeErrorBurst_kept (a0) {s : State} (h0 : s.Kept q) : KeptN q (execCodeErrorBurst a0 s) := by
  unfold execCodeErrorBurst
  repeat' first
    | with_reducible assumption
    | ((with_reducible show Fld.listed _ = true); rfl)
    | (fail_if_no_progress (extract_lets +onlyGivenNames x)
       first
       | (refine Kept.cut (q := q) (x := x) ?_ ?_ <;> [unfold x; ((try clear_value x); intro _)])
       | clear_value x
       | skip)
    | with_reducible apply State.bump_kept
    | with_reducible apply State.linkReset_kept
    | with_reducible apply KeptN.next
    | with_reducible apply Kept.ite
    | with_reducible apply Kept.iteP
    | split

theorem State.tinderCtlWrite_kept {s : State} (h0 : s.Kept q) (a1) : (State.tinderCtlWrite s a1).Kept q := by
  unfold State.tinderCtlWrite
  repeat' first
    | with_reducible assumption
    | ((with_reducible show Fld.listed _ = true); rfl)
    | (fail_if_no_progress (extract_lets +onlyGivenNames x)
       first
       | (refine Kept.cut (q := q) (x := x) ?_ ?_ <;> [unfold x; ((try clear_value x); intro _)])
       | clear_value x
       | skip)
    | with_reducible apply State.wr_kept
    | with_reducible apply Kept.ite
    | split
    | fail_if_no_progress (with_reducible apply Kept.upd)

theorem execTinderRetrain_kept (a0) (a1) {s : State} (h0 : s.Kept q) : KeptN q (execTinderRetrain a0 a1 s) := by
  unfold execTinderRetrain
  repeat' first
    | with_reducible intro _
    | with_reducible assumption
    | with_reducible apply State.writing_kept
    | with_reducible apply State.tinderCtlWrite_kept
    | with_reducible apply KeptN.next
    | with_reducible apply Kept.id

theorem State.acked_kept {s : State} (h0 : s.Kept q) (a1) : (State.acked s a1).Kept q := by
  unfold State.acked
  repeat' first
    | with_reducible assumption
    | fail_if_no_progress (with_reducible apply Kept.upd)

theorem execTinderAck_kept (a0) {s : State} (h0 : s.Kept q) : KeptN q (execTinderAck a0 s) := by
  unfold execTinderAck
  repeat' first
    | with_reducible assumption
    | with_reducible apply State.acked_kept
    | with_reducible apply KeptN.next
    | with_reducible apply Kept.ite
    | with_reducible apply Kept.iteP
    | split

theorem State.nakTake_kept {s : State} (h0 : s.Kept q) (a1) : (State.nakTake s a1).Kept q := by
  unfold State.nakTake
  repeat' first
    | with_reducible assumption
    | (fail_if_no_progress (extract_lets +onlyGivenNames x)
       first
       | (refine Kept.cut (q := q) (x := x) ?_ ?_ <;> [unfold x; ((try clear_value x); intro _)])
       | clear_value x
       | skip)
    | with_reducible apply State.acked_kept
    | with_reducible apply State.linkReset_kept
    | with_reducible apply State.resendAll_kept
    | with_reducible apply Kept.ite
    | split
    | fail_if_no_progress (with_reducible apply Kept.upd)

theorem execTinderNak_kept (a0) {s : State} (h0 : s.Kept q) : KeptN q (execTinderNak a0 s) := by
  unfold execTinderNak
  repeat' first
    | with_reducible assumption
    | with_reducible apply State.nakTake_kept
    | with_reducible apply KeptN.next

theorem State.nakSend_kept {s : State} (h0 : s.Kept q) : (State.nakSend s).Kept q := by
  unfold State.nakSend
  repeat' first
    | with_reducible assumption
    | with_reducible apply State.linkAnswer_kept

theorem State.badPacket_kept {s : State} (h0 : s.Kept q) : (State.badPacket s).Kept q := by
  unfold State.badPacket
  repeat' first
    | with_reducible assumption
    | ((with_reducible show Fld.listed _ = true); rfl)
    | with_reducible apply State.nakSend_kept
    | with_reducible apply State.bump_kept
    | with_reducible apply Kept.ite
    | split

theorem execLinkAckSend_kept {s : State} (h0 : s.Kept q) : KeptN q (execLinkAckSend s) := by
  unfold execLinkAckSend
  repeat' first
    | with_reducible assumption
    | with_reducible apply State.linkAnswer_kept
    | with_reducible apply KeptN.next
    | with_reducible apply Kept.ite
    | with_reducible apply Kept.iteP
    | split
    | fail_if_no_progress (with_reducible apply Kept.upd)

theorem State.tinderAccept_kept {s : State} (h0 : s.Kept q) (a1) {g2 : State → State} (hg2 : ∀ y0, y0.Kept q → (g2 y0).Kept q) : (State.tinderAccept s a1 g2).Kept q := by
  unfold State.tinderAccept
  repeat' first
    | with_reducible intro _
    | with_reducible assumption
    | with_reducible apply State.nakSend_kept
    | with_reducible apply Kept.ite
    | split
    | fail_if_no_progress (with_reducible apply Kept.upd)
    | with_reducible apply_assumption

theorem execSessionTimeout_kept {s : State} (h0 : s.Kept q) : KeptN q (execSessionTimeout s) := by
  unfold execSessionTimeout
  repeat' first
    | with_reducible assumption
    | with_reducible apply State.closeTinder_kept
    | with_reducible apply KeptN.next
    | with_reducible apply Kept.ite
    | with_reducible apply Kept.iteP
    | split

theorem State.authFailed_kept {s : State} (h0 : s.Kept q) : (State.authFailed s).Kept q := by
  unfold State.authFailed
  repeat' first
    | with_reducible assumption
    | ((with_reducible show Fld.listed _ = true); rfl)
    | (fail_if_no_progress (extract_lets +onlyGivenNames x)
       first
       | (refine Kept.cut (q := q) (x := x) ?_ ?_ <;> [unfold x; ((try clear_value x); intro _)])
       | clear_value x
       | skip)
    | with_reducible apply State.bump_kept
    | with_reducible apply State.put_kept
    | with_reducible apply Kept.ite
    | split
    | fail_if_no_progress (with_reducible apply Kept.upd)

theorem execLockoutEnd_kept {s : State} (h0 : s.Kept q) : KeptN q (execLockoutEnd s) := by
  unfold execLockoutEnd
  repeat' first
    | with_reducible assumption
    | ((with_reducible show Fld.listed _ = true); rfl)
    | with_reducible apply State.put_kept
    | with_reducible apply KeptN.next
    | with_reducible apply Kept.ite
    | with_reducible apply Kept.iteP
    | split

theorem State.authTry_kept {s : State} (h0 : s.Kept q) (a1) (a2) (a3) (a4) : (State.authTry s a1 a2 a3 a4).1.Kept q := by
  unfold State.authTry
  repeat' first
    | with_reducible intro _
    | with_reducible assumption
    | (fail_if_no_progress (extract_lets +onlyGivenNames x)
       first
       | clear_value x
       | skip)
    | with_reducible apply State.setSess_kept
    | with_reducible apply State.authFailed_kept
    | with_reducible apply Kept.ite
    | with_reducible apply Kept.iteP
    | split
    | fail_if_no_progress (with_reducible apply Kept.upd)

theorem State.challenge_kept {s : State} (h0 : s.Kept q) (a1) (a2) : (State.challenge s a1 a2).1.Kept q := by
  unfold State.challenge
  repeat' first
    | with_reducible assumption
    | (fail_if_no_progress (extract_lets +onlyGivenNames x)
       first
       | clear_value x
       | skip)
    | with_reducible apply State.setSess_kept
    | with_reducible apply State.drawn_kept

theorem State.openSession_kept {s : State} (h0 : s.Kept q) (a1) (a2) : (State.openSession s a1 a2).1.Kept q := by
  unfold State.openSession
  repeat' first
    | with_reducible assumption
    | (fail_if_no_progress (extract_lets +onlyGivenNames x)
       first
       | (refine Kept.cutP (q := q) (x := x) ?_ ?_ <;> [unfold x; ((try clear_value x); intro _)])
       | clear_value x
       | skip)
    | with_reducible apply State.setSess_kept
    | with_reducible apply State.challenge_kept
    | with_reducible apply Kept.ite
    | with_reducible apply Kept.iteP
    | split

theorem State.authSession_kept {s : State} (h0 : s.Kept q) (a1) (a2) : (State.authSession s a1 a2).1.Kept q := by
  unfold State.authSession
  repeat' first
    | with_reducible assumption
    | (fail_if_no_progress (extract_lets +onlyGivenNames x)
       first
       | (refine Kept.cut (q := q) (x := x) ?_ ?_ <;> [unfold x; ((try clear_value x); intro _)])
       | (refine Kept.cutP (q := q) (x := x) ?_ ?_ <;> [unfold x; ((try clear_value x); intro _)])
       | clear_value x
       | skip)
    | with_reducible apply State.setSess_kept
    | with_reducible apply State.authTry_kept

theorem State.closeRequest_kept {s : State} (h0 : s.Kept q) (a1) : (State.closeRequest s a1).1.Kept q := by
  unfold State.closeRequest
  repeat' first
    | with_reducible assumption
    | with_reducible apply State.closeSession_kept
    | with_reducible apply Kept.ite
    | with_reducible apply Kept.iteP
    | split

theorem execSpiOpen_kept {s : State} (h0 : s.Kept q) : KeptN q (execSpiOpen s) := by
  unfold execSpiOpen
  repeat' first
    | with_reducible assumption
    | ((with_reducible show Fld.listed _ = true); rfl)
    | (fail_if_no_progress (extract_lets +onlyGivenNames x)
       first
       | (refine Kept.cutP (q := q) (x := x) ?_ ?_ <;> [unfold x; ((try clear_value x); intro _)])
       | clear_value x
       | skip)
    | with_reducible apply State.wr_kept
    | with_reducible apply State.challenge_kept
    | with_reducible apply KeptN.next
    | with_reducible apply Kept.ite
    | with_reducible apply Kept.iteP
    | split

theorem State.authReqWrite_kept {s : State} (h0 : s.Kept q) (a1) : (State.authReqWrite s a1).1.Kept q := by
  unfold State.authReqWrite
  repeat' first
    | with_reducible intro _
    | with_reducible assumption
    | ((with_reducible show Fld.listed _ = true); rfl)
    | (fail_if_no_progress (extract_lets +onlyGivenNames x)
       first
       | (refine Kept.cut (q := q) (x := x) ?_ ?_ <;> [unfold x; ((try clear_value x); intro _)])
       | (refine Kept.cutP (q := q) (x := x) ?_ ?_ <;> [unfold x; ((try clear_value x); intro _)])
       | clear_value x
       | skip)
    | with_reducible apply State.setSess_kept
    | with_reducible apply State.authTry_kept
    | with_reducible apply State.wr_kept
    | with_reducible apply Kept.foldlFields
    | exact Reg.fields_listed _ _ (by assumption)
    | with_reducible apply Kept.foldl
    | with_reducible apply Kept.foldlP

theorem execSysAuthReq_kept (a0) (a1) {s : State} (h0 : s.Kept q) : KeptN q (execSysAuthReq a0 a1 s) := by
  unfold execSysAuthReq
  repeat' first
    | with_reducible intro _
    | with_reducible assumption
    | with_reducible apply State.writing_kept
    | with_reducible apply State.authReqWrite_kept
    | with_reducible apply KeptN.next
    | with_reducible apply Kept.id

theorem State.tinderWrite_kept {s : State} (h0 : s.Kept q) (a1) (a2) (a3) : KeptOP q (State.tinderWrite s a1 a2 a3) := by
  unfold State.tinderWrite
  repeat' first
    | with_reducible intro _
    | with_reducible assumption
    | (fail_if_no_progress (extract_lets +onlyGivenNames x)
       first
       | clear_value x
       | skip)
    | with_reducible apply State.tinderCtlWrite_kept
    | with_reducible apply State.setSess_kept
    | with_reducible apply KeptOP.none
    | with_reducible apply KeptOP.some
    | with_reducible apply Kept.ite
    | with_reducible apply Kept.iteP
    | split

end Sys2Proof.Machine
end

