-- ==== Sys2Proof/Laws/KeptSmoke.lean ====
section
/-!
SUPPORT. Every operation of Machine/Smoke.lean keeps the stores canonical and the queue as it stands.
-/

set_option linter.unusedVariables false
set_option linter.unusedTactic false
set_option linter.unreachableTactic false
set_option linter.unnecessarySeqFocus false

namespace Sys2Proof.Machine

variable {q : List Instr}

theorem State.smokeStart_kept {s : State} (h0 : s.Kept q) (a1) (a2) (a3) : (State.smokeStart s a1 a2 a3).Kept q := by
  unfold State.smokeStart
  repeat' first
    | with_reducible assumption
    | (fail_if_no_progress (extract_lets +onlyGivenNames x)
       first
       | clear_value x
       | skip)
    | with_reducible apply State.emit_kept
    | with_reducible apply State.drawn_kept
    | with_reducible apply State.setSmk_kept

theorem execSmokeFrameSend_kept (a0) {s : State} (h0 : s.Kept q) : KeptN q (execSmokeFrameSend a0 s) := by
  unfold execSmokeFrameSend
  repeat' first
    | with_reducible intro _
    | with_reducible assumption
    | with_reducible apply State.smokeStart_kept
    | with_reducible apply KeptN.next
    | with_reducible apply Kept.ite
    | with_reducible apply Kept.iteP
    | split

theorem execSmokeFrameEnd_kept (a0) {s : State} (h0 : s.Kept q) : KeptN q (execSmokeFrameEnd a0 s) := by
  unfold execSmokeFrameEnd
  repeat' first
    | with_reducible intro _
    | with_reducible assumption
    | ((with_reducible show Fld.listed _ = true); rfl)
    | (fail_if_no_progress (extract_lets +onlyGivenNames x)
       first
       | (refine Kept.cut (q := q) (x := x) ?_ ?_ <;> [unfold x; ((try clear_value x); intro _)])
       | clear_value x
       | skip)
    | with_reducible apply State.bump_kept
    | with_reducible apply State.setSmk_kept
    | with_reducible apply State.eventIf_kept
    | with_reducible apply State.depthNow_kept
    | with_reducible apply KeptN.next
    | with_reducible apply Kept.ite
    | with_reducible apply Kept.iteP
    | split

theorem execBeaconDue_kept (a0) {s : State} (h0 : s.Kept q) : KeptN q (execBeaconDue a0 s) := by
  unfold execBeaconDue
  repeat' first
    | with_reducible assumption
    | (fail_if_no_progress (extract_lets +onlyGivenNames x)
       first
       | clear_value x
       | skip)
    | with_reducible apply State.setSmk_kept
    | with_reducible apply KeptN.next
    | with_reducible apply Kept.ite
    | with_reducible apply Kept.iteP
    | split

theorem State.smokeDetect_kept {s : State} (h0 : s.Kept q) (a1) : (State.smokeDetect s a1).Kept q := by
  unfold State.smokeDetect
  repeat' first
    | with_reducible assumption
    | ((with_reducible show Fld.listed _ = true); rfl)
    | (fail_if_no_progress (extract_lets +onlyGivenNames x)
       first
       | clear_value x
       | skip)
    | with_reducible apply State.perfLane_kept
    | with_reducible apply State.bump_kept
    | with_reducible apply State.setSmk_kept

theorem State.smokeSync_kept {s : State} (h0 : s.Kept q) (a1) (a2) (a3) (a4) : (State.smokeSync s a1 a2 a3 a4).Kept q := by
  unfold State.smokeSync
  repeat' first
    | with_reducible assumption
    | ((with_reducible show Fld.listed _ = true); rfl)
    | (fail_if_no_progress (extract_lets +onlyGivenNames x)
       first
       | clear_value x
       | skip)
    | with_reducible apply State.setSmk_kept
    | with_reducible apply State.wr_kept

theorem execPreambleDetect_kept (a0) {s : State} (h0 : s.Kept q) : KeptN q (execPreambleDetect a0 s) := by
  unfold execPreambleDetect
  repeat' first
    | with_reducible intro _
    | with_reducible assumption
    | with_reducible apply State.smokeSync_kept
    | with_reducible apply State.smokeDetect_kept
    | with_reducible apply KeptN.next
    | with_reducible apply Kept.ite
    | with_reducible apply Kept.iteP
    | split

theorem State.smokeHdrFail_kept {s : State} (h0 : s.Kept q) (a1) (a2) : (State.smokeHdrFail s a1 a2).Kept q := by
  unfold State.smokeHdrFail
  repeat' first
    | with_reducible intro _
    | with_reducible assumption
    | ((with_reducible show Fld.listed _ = true); rfl)
    | (fail_if_no_progress (extract_lets +onlyGivenNames x)
       first
       | (refine Kept.cut (q := q) (x := x) ?_ ?_ <;> [unfold x; ((try clear_value x); intro _)])
       | clear_value x
       | skip)
    | with_reducible apply State.smokeRxEnd_kept
    | with_reducible apply State.perfLane_kept
    | with_reducible apply State.bump_kept
    | with_reducible apply State.smokeSync_kept
    | with_reducible apply Kept.ite
    | split

theorem execSmokeSyncCheck_kept (a0) (a1) (a2) (a3) {s : State} (h0 : s.Kept q) : KeptN q (execSmokeSyncCheck a0 a1 a2 a3 s) := by
  unfold execSmokeSyncCheck
  repeat' first
    | with_reducible intro _
    | with_reducible assumption
    | ((with_reducible show Fld.listed _ = true); rfl)
    | (fail_if_no_progress (extract_lets +onlyGivenNames x)
       first
       | clear_value x
       | skip)
    | with_reducible apply State.setSmk_kept
    | with_reducible apply State.wr_kept
    | with_reducible apply State.smokeHdrFail_kept
    | with_reducible apply KeptN.next
    | with_reducible apply Kept.ite
    | with_reducible apply Kept.iteP
    | split

theorem State.smokeCapture_kept {s : State} (h0 : s.Kept q) (a1) (a2) : (State.smokeCapture s a1 a2).Kept q := by
  unfold State.smokeCapture
  repeat' first
    | with_reducible assumption
    | ((with_reducible show Fld.listed _ = true); rfl)
    | (fail_if_no_progress (extract_lets +onlyGivenNames x)
       first
       | (refine Kept.cut (q := q) (x := x) ?_ ?_ <;> [unfold x; ((try clear_value x); intro _)])
       | clear_value x
       | skip)
    | with_reducible apply State.smokeDetect_kept
    | with_reducible apply State.event_kept
    | with_reducible apply State.perfLane_kept
    | with_reducible apply State.bump_kept
    | with_reducible apply State.smokeSync_kept
    | with_reducible apply State.smokeRxEnd_kept
    | with_reducible apply State.setSmk_kept
    | with_reducible apply Kept.ite
    | split

theorem State.smokeHeaderEnd_kept {s : State} (h0 : s.Kept q) (a1) (a2) (a3) : (State.smokeHeaderEnd s a1 a2 a3).Kept q := by
  unfold State.smokeHeaderEnd
  repeat' first
    | with_reducible intro _
    | with_reducible assumption
    | ((with_reducible show Fld.listed _ = true); rfl)
    | (fail_if_no_progress (extract_lets +onlyGivenNames x)
       first
       | (refine Kept.cut (q := q) (x := x) ?_ ?_ <;> [unfold x; ((try clear_value x); intro _)])
       | clear_value x
       | skip)
    | with_reducible apply State.setSmk_kept
    | with_reducible apply State.wr_kept
    | with_reducible apply State.smokeHdrFail_kept
    | split

theorem execSmokeHeader_kept (a0) (a1) (a2) {s : State} (h0 : s.Kept q) : KeptN q (execSmokeHeader a0 a1 a2 s) := by
  unfold execSmokeHeader
  repeat' first
    | with_reducible intro _
    | with_reducible assumption
    | (fail_if_no_progress (extract_lets +onlyGivenNames x)
       first
       | (refine Kept.cut (q := q) (x := x) ?_ ?_ <;> [unfold x; ((try clear_value x); intro _)])
       | clear_value x
       | skip)
    | with_reducible apply State.smokeHeaderEnd_kept
    | with_reducible apply State.smokeCapture_kept
    | with_reducible apply State.smokeDetect_kept
    | with_reducible apply State.setSmk_kept
    | with_reducible apply KeptN.next
    | with_reducible apply Kept.ite
    | with_reducible apply Kept.iteP
    | split

theorem execSmokeCapture_kept (a0) {s : State} (h0 : s.Kept q) : KeptN q (execSmokeCapture a0 s) := by
  unfold execSmokeCapture
  repeat' first
    | with_reducible intro _
    | with_reducible assumption
    | with_reducible apply State.smokeCapture_kept
    | with_reducible apply KeptN.next
    | with_reducible apply Kept.ite
    | with_reducible apply Kept.iteP
    | split

theorem State.smokeRxPut_kept {s : State} (h0 : s.Kept q) (a1) (a2) (a3) (a4) : (State.smokeRxPut s a1 a2 a3 a4).Kept q := by
  unfold State.smokeRxPut
  repeat' first
    | with_reducible assumption
    | ((with_reducible show Fld.listed _ = true); rfl)
    | (fail_if_no_progress (extract_lets +onlyGivenNames x)
       first
       | clear_value x
       | skip)
    | with_reducible apply State.event_kept
    | with_reducible apply State.setSmk_kept
    | with_reducible apply State.bump_kept
    | with_reducible apply Kept.ite
    | split

theorem State.beaconIdentity_kept {s : State} (h0 : s.Kept q) (a1) (a2) : (State.beaconIdentity s a1 a2).Kept q := by
  unfold State.beaconIdentity
  repeat' first
    | with_reducible assumption
    | ((with_reducible show Fld.listed _ = true); rfl)
    | (fail_if_no_progress (extract_lets +onlyGivenNames x)
       first
       | (refine Kept.cut (q := q) (x := x) ?_ ?_ <;> [unfold x; ((try clear_value x); intro _)])
       | clear_value x
       | skip)
    | with_reducible apply State.setSmk_kept
    | with_reducible apply State.wr_kept
    | with_reducible apply State.track_kept
    | with_reducible apply Kept.ite
    | split

theorem State.beaconTake_kept {s : State} (h0 : s.Kept q) (a1) (a2) : (State.beaconTake s a1 a2).Kept q := by
  unfold State.beaconTake
  repeat' first
    | with_reducible assumption
    | ((with_reducible show Fld.listed _ = true); rfl)
    | (fail_if_no_progress (extract_lets +onlyGivenNames x)
       first
       | (refine Kept.cut (q := q) (x := x) ?_ ?_ <;> [unfold x; ((try clear_value x); intro _)])
       | clear_value x
       | skip)
    | with_reducible apply State.eventIf_kept
    | with_reducible apply State.put_kept
    | with_reducible apply State.wr_kept
    | with_reducible apply State.beaconIdentity_kept
    | with_reducible apply State.setSmk_kept
    | with_reducible apply State.epochTake_kept
    | with_reducible apply Kept.ite
    | split

theorem State.controlTake_kept {s : State} (h0 : s.Kept q) (a1) (a2) : (State.controlTake s a1 a2).Kept q := by
  unfold State.controlTake
  repeat' first
    | with_reducible intro _
    | with_reducible assumption
    | with_reducible apply State.copyTake_kept
    | split

theorem State.smokeDeliver_kept {s : State} (h0 : s.Kept q) (a1) (a2) (a3) (a4) : (State.smokeDeliver s a1 a2 a3 a4).Kept q := by
  unfold State.smokeDeliver
  repeat' first
    | with_reducible intro _
    | with_reducible assumption
    | ((with_reducible show Fld.listed _ = true); rfl)
    | (fail_if_no_progress (extract_lets +onlyGivenNames x)
       first
       | (refine Kept.cut (q := q) (x := x) ?_ ?_ <;> [unfold x; ((try clear_value x); intro _)])
       | clear_value x
       | skip)
    | with_reducible apply State.bump_kept
    | with_reducible apply State.beaconTake_kept
    | with_reducible apply State.controlTake_kept
    | with_reducible apply State.smokeRxPut_kept
    | with_reducible apply Kept.ite
    | split

theorem execSmokeFrameRx_kept (a0) {s : State} (h0 : s.Kept q) : KeptN q (execSmokeFrameRx a0 s) := by
  unfold execSmokeFrameRx
  repeat' first
    | with_reducible intro _
    | with_reducible assumption
    | ((with_reducible show Fld.listed _ = true); rfl)
    | (fail_if_no_progress (extract_lets +onlyGivenNames x)
       first
       | clear_value x
       | skip)
    | with_reducible apply State.smokeDeliver_kept
    | with_reducible apply State.smokeRxEnd_kept
    | with_reducible apply State.perfLane_kept
    | with_reducible apply State.bump_kept
    | with_reducible apply KeptN.next
    | with_reducible apply Kept.ite
    | with_reducible apply Kept.iteP
    | split

theorem State.smokeArrive_kept {s : State} (h0 : s.Kept q) (a1) (a2) (a3) (a4) : (State.smokeArrive s a1 a2 a3 a4).Kept q := by
  unfold State.smokeArrive
  repeat' first
    | with_reducible assumption
    | with_reducible apply State.smokeDeliver_kept
    | with_reducible apply Kept.ite
    | split

theorem execSmokeBeacon_kept (a0) (a1) {s : State} (h0 : s.Kept q) : KeptN q (execSmokeBeacon a0 a1 s) := by
  unfold execSmokeBeacon
  repeat' first
    | with_reducible assumption
    | with_reducible apply State.smokeArrive_kept
    | with_reducible apply KeptN.next

theorem execSmokeControl_kept (a0) (a1) {s : State} (h0 : s.Kept q) : KeptN q (execSmokeControl a0 a1 s) := by
  unfold execSmokeControl
  repeat' first
    | with_reducible assumption
    | with_reducible apply State.smokeArrive_kept
    | with_reducible apply KeptN.next

theorem execSmokeFault_kept (a0) (a1) (a2) {s : State} (h0 : s.Kept q) : KeptN q (execSmokeFault a0 a1 a2 s) := by
  unfold execSmokeFault
  repeat' first
    | with_reducible assumption
    | with_reducible apply State.smokeArrive_kept
    | with_reducible apply KeptN.next

theorem execSmokeGoingDown_kept (a0) (a1) (a2) {s : State} (h0 : s.Kept q) : KeptN q (execSmokeGoingDown a0 a1 a2 s) := by
  unfold execSmokeGoingDown
  repeat' first
    | with_reducible assumption
    | with_reducible apply State.smokeArrive_kept
    | with_reducible apply KeptN.next

theorem execSmokeUser_kept (a0) (a1) (a2) {s : State} (h0 : s.Kept q) : KeptN q (execSmokeUser a0 a1 a2 s) := by
  unfold execSmokeUser
  repeat' first
    | with_reducible assumption
    | with_reducible apply State.smokeArrive_kept
    | with_reducible apply KeptN.next

theorem State.smokePost_kept {s : State} (h0 : s.Kept q) (a1) (a2) : (State.smokePost s a1 a2).1.Kept q := by
  unfold State.smokePost
  repeat' first
    | with_reducible intro _
    | with_reducible assumption
    | (fail_if_no_progress (extract_lets +onlyGivenNames x)
       first
       | clear_value x
       | skip)
    | with_reducible apply State.smokePut_kept
    | with_reducible apply KeptO.getD
    | with_reducible apply Kept.ite
    | with_reducible apply Kept.iteP
    | split
    | (refine KeptO.get ?_ (by assumption) <;> with_reducible apply State.smokePut_kept)
    | (refine KeptO.get (KeptO.ite ?_ KeptO.none) (by assumption) <;> with_reducible apply State.smokePut_kept)

theorem execSmokeTxPost_kept (a0) (a1) (a2) {s : State} (h0 : s.Kept q) : KeptN q (execSmokeTxPost a0 a1 a2 s) := by
  unfold execSmokeTxPost
  repeat' first
    | with_reducible intro _
    | with_reducible assumption
    | with_reducible apply State.writing_kept
    | with_reducible apply State.smokePost_kept
    | with_reducible apply KeptN.next
    | with_reducible apply Kept.id

theorem State.smokePop_kept {s : State} (h0 : s.Kept q) (a1) : (State.smokePop s a1).Kept q := by
  unfold State.smokePop
  repeat' first
    | with_reducible assumption
    | (fail_if_no_progress (extract_lets +onlyGivenNames x)
       first
       | clear_value x
       | skip)
    | with_reducible apply State.setSmk_kept

theorem execSmokeRxPop_kept (a0) (a1) (a2) {s : State} (h0 : s.Kept q) : KeptN q (execSmokeRxPop a0 a1 a2 s) := by
  unfold execSmokeRxPop
  repeat' first
    | with_reducible intro _
    | with_reducible assumption
    | with_reducible apply State.writing_kept
    | with_reducible apply State.smokePop_kept
    | with_reducible apply KeptN.next
    | with_reducible apply Kept.id

theorem State.smokeCfgWrite_kept {s : State} (h0 : s.Kept q) (a1) (a2) : (State.smokeCfgWrite s a1 a2).1.Kept q := by
  unfold State.smokeCfgWrite
  repeat' first
    | with_reducible intro _
    | with_reducible assumption
    | ((with_reducible show Fld.listed _ = true); rfl)
    | (fail_if_no_progress (extract_lets +onlyGivenNames x)
       first
       | (refine Kept.cut (q := q) (x := x) ?_ ?_ <;> [unfold x; ((try clear_value x); intro _)])
       | clear_value x
       | skip)
    | with_reducible apply State.wr_kept
    | with_reducible apply State.smokeRxEnd_kept
    | with_reducible apply State.setSmk_kept
    | with_reducible apply State.smokeOwn_kept
    | with_reducible apply Kept.foldlFields
    | exact Reg.fields_listed _ _ (by assumption)
    | with_reducible apply Kept.foldl
    | with_reducible apply Kept.foldlP
    | with_reducible apply Kept.ite
    | with_reducible apply Kept.iteP
    | split

theorem execSmokeCfgWrite_kept (a0) (a1) (a2) {s : State} (h0 : s.Kept q) : KeptN q (execSmokeCfgWrite a0 a1 a2 s) := by
  unfold execSmokeCfgWrite
  repeat' first
    | with_reducible intro _
    | with_reducible assumption
    | with_reducible apply State.writing_kept
    | with_reducible apply State.smokeCfgWrite_kept
    | with_reducible apply KeptN.next
    | with_reducible apply Kept.id

theorem State.smokeCtlWrite_kept {s : State} (h0 : s.Kept q) (a1) (a2) : (State.smokeCtlWrite s a1 a2).1.Kept q := by
  unfold State.smokeCtlWrite
  repeat' first
    | with_reducible intro _
    | with_reducible assumption
    | ((with_reducible show Fld.listed _ = true); rfl)
    | (fail_if_no_progress (extract_lets +onlyGivenNames x)
       first
       | (refine Kept.cut (q := q) (x := x) ?_ ?_ <;> [unfold x; ((try clear_value x); intro _)])
       | clear_value x
       | skip)
    | with_reducible apply State.wr_kept
    | with_reducible apply State.smokeAbort_kept
    | with_reducible apply State.setSmk_kept
    | with_reducible apply State.put_kept
    | with_reducible apply State.smokeTrack_kept
    | with_reducible apply Kept.foldlFields
    | exact Reg.fields_listed _ _ (by assumption)
    | with_reducible apply Kept.foldl
    | with_reducible apply Kept.foldlP
    | with_reducible apply Kept.ite
    | with_reducible apply Kept.iteP
    | split

theorem execSmokeCtlWrite_kept (a0) (a1) (a2) {s : State} (h0 : s.Kept q) : KeptN q (execSmokeCtlWrite a0 a1 a2 s) := by
  unfold execSmokeCtlWrite
  repeat' first
    | with_reducible intro _
    | with_reducible assumption
    | with_reducible apply State.writing_kept
    | with_reducible apply State.smokeCtlWrite_kept
    | with_reducible apply KeptN.next
    | with_reducible apply Kept.id

theorem State.smokeWrite_kept {s : State} (h0 : s.Kept q) (a1) (a2) (a3) : KeptOP q (State.smokeWrite s a1 a2 a3) := by
  unfold State.smokeWrite
  repeat' first
    | with_reducible intro _
    | with_reducible assumption
    | with_reducible apply State.smokeCfgWrite_kept
    | with_reducible apply State.smokeCtlWrite_kept
    | with_reducible apply State.smokePost_kept
    | with_reducible apply State.smokePop_kept
    | with_reducible apply KeptOP.none
    | with_reducible apply KeptOP.some
    | split
    | (refine Kept.getP ?_ (by assumption) <;> with_reducible apply State.smokeCfgWrite_kept)
    | (refine Kept.getP ?_ (by assumption) <;> with_reducible apply State.smokeCtlWrite_kept)
    | (refine Kept.getP ?_ (by assumption) <;> with_reducible apply State.smokePost_kept)

end Sys2Proof.Machine
end

