-- ==== Sys2Proof/Laws/KeptAccess.lean ====
section
/-!
SUPPORT. Every operation of Machine/Access.lean keeps the stores canonical and the queue as it stands.
-/

set_option linter.unusedVariables false
set_option linter.unusedTactic false
set_option linter.unreachableTactic false
set_option linter.unnecessarySeqFocus false

namespace Sys2Proof.Machine

variable {q : List Instr}

theorem State.readVoted_kept {s : State} (h0 : s.Kept q) (a1) (a2) (a3) (a4) : (State.readVoted s a1 a2 a3 a4).1.Kept q := by
  unfold State.readVoted
  repeat' first
    | with_reducible assumption
    | (fail_if_no_progress (extract_lets +onlyGivenNames x)
       first
       | (refine Kept.cut (q := q) (x := x) ?_ ?_ <;> [unfold x; ((try clear_value x); intro _)])
       | clear_value x
       | skip)
    | with_reducible apply State.voteWord_kept
    | with_reducible apply State.drawn_kept
    | with_reducible apply Kept.ite
    | with_reducible apply Kept.iteP
    | split

theorem State.readClear_kept {s : State} (h0 : s.Kept q) (a1) (a2) (a3) : (State.readClear s a1 a2 a3).Kept q := by
  unfold State.readClear
  repeat' first
    | with_reducible intro _
    | with_reducible assumption
    | ((with_reducible show Fld.listed _ = true); rfl)
    | (fail_if_no_progress (extract_lets +onlyGivenNames x)
       first
       | (refine Kept.cut (q := q) (x := x) ?_ ?_ <;> [unfold x; ((try clear_value x); intro _)])
       | clear_value x
       | skip)
    | with_reducible apply State.wr_kept
    | with_reducible apply State.st_kept
    | with_reducible apply Kept.foldlFields
    | exact Reg.fields_listed _ _ (by assumption)
    | with_reducible apply Kept.foldl
    | with_reducible apply Kept.foldlP
    | with_reducible apply Kept.ite
    | split

theorem orPoisoned_kept {x : State × Option Nat} (h : x.1.Kept q) : (orPoisoned x).1.Kept q := by
  unfold orPoisoned
  split <;> exact h

theorem State.readLive_kept {s : State} (h0 : s.Kept q) (a1) (a2) (a3) : (State.readLive s a1 a2 a3).1.Kept q := by
  unfold State.readLive
  repeat' first
    | with_reducible intro _
    | with_reducible assumption
    | (fail_if_no_progress (extract_lets +onlyGivenNames x)
       first
       | (refine Kept.cutP (q := q) (x := x) ?_ ?_ <;> [unfold x; ((try clear_value x); intro _)])
       | clear_value x
       | skip)
    | with_reducible apply orPoisoned_kept
    | with_reducible apply State.rxDataRead_kept
    | with_reducible apply State.txDataRead_kept
    | with_reducible apply State.decDataRead_kept
    | with_reducible apply State.histRead_kept
    | with_reducible apply State.decCapDataRead_kept
    | with_reducible apply State.capDataRead_kept
    | with_reducible apply State.resultRead_kept
    | with_reducible apply State.peatDataRead_kept
    | with_reducible apply State.readVoted_kept
    | with_reducible apply State.readClear_kept
    | split
    | (refine Kept.getP ?_ (by assumption) <;> with_reducible apply orPoisoned_kept)
    | (refine Kept.getP ?_ (by assumption) <;> with_reducible apply State.rxDataRead_kept)
    | (refine Kept.getP ?_ (by assumption) <;> with_reducible apply State.txDataRead_kept)
    | (refine Kept.getP ?_ (by assumption) <;> with_reducible apply State.decDataRead_kept)
    | (refine Kept.getP ?_ (by assumption) <;> with_reducible apply State.histRead_kept)
    | (refine Kept.getP ?_ (by assumption) <;> with_reducible apply State.decCapDataRead_kept)
    | (refine Kept.getP ?_ (by assumption) <;> with_reducible apply State.capDataRead_kept)
    | (refine Kept.getP ?_ (by assumption) <;> with_reducible apply State.resultRead_kept)
    | (refine Kept.getP ?_ (by assumption) <;> with_reducible apply State.peatDataRead_kept)
    | (refine Kept.getP ?_ (by assumption) <;> with_reducible apply State.readVoted_kept)

theorem State.setCapture_kept {s : State} (h0 : s.Kept q) (a1) (a2) : (State.setCapture s a1 a2).Kept q := by
  unfold State.setCapture
  repeat' first
    | with_reducible assumption
    | (fail_if_no_progress (extract_lets +onlyGivenNames x)
       first
       | clear_value x
       | skip)
    | with_reducible apply Kept.ite
    | split
    | fail_if_no_progress (with_reducible apply Kept.upd)

theorem State.releaseCapture_kept {s : State} (h0 : s.Kept q) (a1) (a2) (a3) : (State.releaseCapture s a1 a2 a3).Kept q := by
  unfold State.releaseCapture
  repeat' first
    | with_reducible intro _
    | with_reducible assumption
    | with_reducible apply State.setCapture_kept
    | split

theorem State.regRead_kept {s : State} (h0 : s.Kept q) (a1) (a2) (a3) : (State.regRead s a1 a2 a3).1.Kept q := by
  unfold State.regRead
  repeat' first
    | with_reducible intro _
    | with_reducible assumption
    | (fail_if_no_progress (extract_lets +onlyGivenNames x)
       first
       | (refine Kept.cutP (q := q) (x := x) ?_ ?_ <;> [unfold x; ((try clear_value x); intro _)])
       | clear_value x
       | skip)
    | with_reducible apply State.releaseCapture_kept
    | with_reducible apply State.readLive_kept
    | with_reducible apply State.setCapture_kept
    | with_reducible apply Kept.ite
    | with_reducible apply Kept.iteP
    | split
    | (refine Kept.getP ?_ (by assumption) <;> with_reducible apply State.readLive_kept)

theorem State.pairRead_kept {s : State} (h0 : s.Kept q) (a1) (a2) (a3) (a4) : (State.pairRead s a1 a2 a3 a4).1.Kept q := by
  unfold State.pairRead
  repeat' first
    | with_reducible intro _
    | with_reducible assumption
    | (fail_if_no_progress (extract_lets +onlyGivenNames x)
       first
       | (refine Kept.cutP (q := q) (x := x) ?_ ?_ <;> [unfold x; ((try clear_value x); intro _)])
       | clear_value x
       | skip)
    | with_reducible apply State.readLive_kept
    | with_reducible apply State.readVoted_kept
    | split
    | (refine Kept.getP ?_ (by assumption) <;> with_reducible apply State.readLive_kept)
    | (refine Kept.getP ?_ (by assumption) <;> with_reducible apply State.readVoted_kept)

theorem State.flueRead_kept {s : State} (h0 : s.Kept q) (a1) (a2) : (State.flueRead s a1 a2).1.Kept q := by
  unfold State.flueRead
  repeat' first
    | with_reducible intro _
    | with_reducible assumption
    | with_reducible apply State.touched_kept
    | with_reducible apply orPoisoned_kept
    | with_reducible apply State.ringRead_kept
    | with_reducible apply Kept.ite
    | with_reducible apply Kept.iteP
    | split
    | (refine Kept.getP ?_ (by assumption) <;> with_reducible apply orPoisoned_kept)
    | (refine Kept.getP ?_ (by assumption) <;> with_reducible apply State.ringRead_kept)

theorem State.accessRead_kept {s : State} (h0 : s.Kept q) (a1) (a2) (a3) : (State.accessRead s a1 a2 a3).1.Kept q := by
  unfold State.accessRead
  repeat' first
    | with_reducible intro _
    | with_reducible assumption
    | with_reducible apply State.flueRead_kept
    | with_reducible apply State.touched_kept
    | with_reducible apply State.pairRead_kept
    | with_reducible apply State.regRead_kept
    | with_reducible apply Kept.ite
    | with_reducible apply Kept.iteP
    | split
    | (refine Kept.getP ?_ (by assumption) <;> with_reducible apply State.flueRead_kept)
    | (refine Kept.getP ?_ (by assumption) <;> with_reducible apply State.pairRead_kept)
    | (refine Kept.getP ?_ (by assumption) <;> with_reducible apply State.regRead_kept)

theorem State.plainWrite_kept {s : State} (h0 : s.Kept q) (a1) (a2) (a3) : (State.plainWrite s a1 a2 a3).Kept q := by
  unfold State.plainWrite
  repeat' first
    | with_reducible intro _
    | with_reducible assumption
    | ((with_reducible show Fld.listed _ = true); rfl)
    | with_reducible apply State.wr_kept
    | with_reducible apply Kept.foldlFields
    | exact Reg.fields_listed _ _ (by assumption)
    | with_reducible apply Kept.foldl
    | with_reducible apply Kept.foldlP
    | split

theorem State.unitWrite_kept {s : State} (h0 : s.Kept q) (a1) (a2) (a3) (a4) : KeptOP q (State.unitWrite s a1 a2 a3 a4) := by
  unfold State.unitWrite
  repeat' first
    | with_reducible intro _
    | with_reducible assumption
    | with_reducible apply State.authReqWrite_kept
    | with_reducible apply State.sysWrite_kept
    | with_reducible apply State.tinderWrite_kept
    | with_reducible apply State.stkWrite_kept
    | with_reducible apply State.laneRxWrite_kept
    | with_reducible apply State.laneTxWrite_kept
    | with_reducible apply State.decWrite_kept
    | with_reducible apply State.smokeWrite_kept
    | with_reducible apply State.portWrite_kept
    | with_reducible apply State.tunWrite_kept
    | with_reducible apply State.protWrite_kept
    | with_reducible apply State.holdCtlWrite_kept
    | with_reducible apply State.holdWrite_kept
    | with_reducible apply State.irqWrite_kept
    | with_reducible apply State.mempWrite_kept
    | with_reducible apply State.faultWrite_kept
    | with_reducible apply State.kilnWrite_kept
    | with_reducible apply State.powerWrite_kept
    | with_reducible apply State.mcvWrite_kept
    | with_reducible apply State.perfWrite_kept
    | with_reducible apply State.ioWrite_kept
    | with_reducible apply KeptOP.getD
    | with_reducible apply KeptOP.none
    | with_reducible apply KeptOP.some
    | with_reducible apply Kept.ite
    | with_reducible apply Kept.iteP
    | split
    | (refine Kept.getP ?_ (by assumption) <;> with_reducible apply State.authReqWrite_kept)
    | (refine KeptOP.get ?_ (by assumption) <;> with_reducible apply State.sysWrite_kept)
    | (refine KeptOP.getP ?_ (by assumption) <;> with_reducible apply State.sysWrite_kept)
    | (refine KeptOP.get ?_ (by assumption) <;> with_reducible apply State.tinderWrite_kept)
    | (refine KeptOP.getP ?_ (by assumption) <;> with_reducible apply State.tinderWrite_kept)
    | (refine KeptOP.get ?_ (by assumption) <;> with_reducible apply State.stkWrite_kept)
    | (refine KeptOP.getP ?_ (by assumption) <;> with_reducible apply State.stkWrite_kept)
    | (refine KeptOP.get ?_ (by assumption) <;> with_reducible apply State.laneRxWrite_kept)
    | (refine KeptOP.getP ?_ (by assumption) <;> with_reducible apply State.laneRxWrite_kept)
    | (refine KeptOP.get ?_ (by assumption) <;> with_reducible apply State.laneTxWrite_kept)
    | (refine KeptOP.getP ?_ (by assumption) <;> with_reducible apply State.laneTxWrite_kept)
    | (refine KeptOP.get ?_ (by assumption) <;> with_reducible apply State.decWrite_kept)
    | (refine KeptOP.getP ?_ (by assumption) <;> with_reducible apply State.decWrite_kept)
    | (refine KeptOP.get ?_ (by assumption) <;> with_reducible apply State.smokeWrite_kept)
    | (refine KeptOP.getP ?_ (by assumption) <;> with_reducible apply State.smokeWrite_kept)
    | (refine KeptOP.get ?_ (by assumption) <;> with_reducible apply State.portWrite_kept)
    | (refine KeptOP.getP ?_ (by assumption) <;> with_reducible apply State.portWrite_kept)
    | (refine KeptOP.get ?_ (by assumption) <;> with_reducible apply State.tunWrite_kept)
    | (refine KeptOP.getP ?_ (by assumption) <;> with_reducible apply State.tunWrite_kept)
    | (refine KeptOP.get ?_ (by assumption) <;> with_reducible apply State.protWrite_kept)
    | (refine KeptOP.getP ?_ (by assumption) <;> with_reducible apply State.protWrite_kept)
    | (refine Kept.getP ?_ (by assumption) <;> with_reducible apply State.holdCtlWrite_kept)
    | (refine KeptOP.get ?_ (by assumption) <;> with_reducible apply State.holdWrite_kept)
    | (refine KeptOP.getP ?_ (by assumption) <;> with_reducible apply State.holdWrite_kept)
    | (refine KeptOP.get ?_ (by assumption) <;> with_reducible apply State.irqWrite_kept)
    | (refine KeptOP.getP ?_ (by assumption) <;> with_reducible apply State.irqWrite_kept)
    | (refine KeptOP.get ?_ (by assumption) <;> with_reducible apply State.mempWrite_kept)
    | (refine KeptOP.getP ?_ (by assumption) <;> with_reducible apply State.mempWrite_kept)
    | (refine KeptOP.get ?_ (by assumption) <;> with_reducible apply State.faultWrite_kept)
    | (refine KeptOP.getP ?_ (by assumption) <;> with_reducible apply State.faultWrite_kept)
    | (refine KeptOP.get ?_ (by assumption) <;> with_reducible apply State.kilnWrite_kept)
    | (refine KeptOP.getP ?_ (by assumption) <;> with_reducible apply State.kilnWrite_kept)
    | (refine KeptOP.get ?_ (by assumption) <;> with_reducible apply State.powerWrite_kept)
    | (refine KeptOP.getP ?_ (by assumption) <;> with_reducible apply State.powerWrite_kept)
    | (refine KeptOP.get ?_ (by assumption) <;> with_reducible apply State.mcvWrite_kept)
    | (refine KeptOP.getP ?_ (by assumption) <;> with_reducible apply State.mcvWrite_kept)
    | (refine KeptOP.get ?_ (by assumption) <;> with_reducible apply State.perfWrite_kept)
    | (refine KeptOP.getP ?_ (by assumption) <;> with_reducible apply State.perfWrite_kept)
    | (refine KeptOP.get ?_ (by assumption) <;> with_reducible apply State.ioWrite_kept)
    | (refine KeptOP.getP ?_ (by assumption) <;> with_reducible apply State.ioWrite_kept)

theorem State.regWrite_kept {s : State} (h0 : s.Kept q) (a1) (a2) (a3) (a4) : (State.regWrite s a1 a2 a3 a4).1.Kept q := by
  unfold State.regWrite
  repeat' first
    | with_reducible intro _
    | with_reducible assumption
    | with_reducible apply State.unitWrite_kept
    | with_reducible apply State.levelEdge_kept
    | with_reducible apply State.plainWrite_kept
    | with_reducible apply KeptOP.getD
    | split
    | (refine KeptOP.get ?_ (by assumption) <;> with_reducible apply State.unitWrite_kept)
    | (refine KeptOP.getP ?_ (by assumption) <;> with_reducible apply State.unitWrite_kept)

theorem State.pairWrite_kept {s : State} (h0 : s.Kept q) (a1) (a2) (a3) (a4) (a5) : (State.pairWrite s a1 a2 a3 a4 a5).1.Kept q := by
  unfold State.pairWrite
  repeat' first
    | with_reducible assumption
    | (fail_if_no_progress (extract_lets +onlyGivenNames x)
       first
       | (refine Kept.cutP (q := q) (x := x) ?_ ?_ <;> [unfold x; ((try clear_value x); intro _)])
       | clear_value x
       | skip)
    | with_reducible apply State.regWrite_kept
    | with_reducible apply Kept.ite
    | with_reducible apply Kept.iteP
    | split

theorem State.accessWrite_kept {s : State} (h0 : s.Kept q) (a1) (a2) (a3) (a4) : (State.accessWrite s a1 a2 a3 a4).1.Kept q := by
  unfold State.accessWrite
  repeat' first
    | with_reducible intro _
    | with_reducible assumption
    | with_reducible apply State.touched_kept
    | with_reducible apply State.pairWrite_kept
    | with_reducible apply State.regWrite_kept
    | with_reducible apply Kept.ite
    | with_reducible apply Kept.iteP
    | split
    | (refine Kept.getP ?_ (by assumption) <;> with_reducible apply State.pairWrite_kept)
    | (refine Kept.getP ?_ (by assumption) <;> with_reducible apply State.regWrite_kept)

theorem State.cmdApplied_kept {s : State} (h0 : s.Kept q) (a1) (a2) (a3) (a4) : (State.cmdApplied s a1 a2 a3 a4).Kept q := by
  unfold State.cmdApplied
  repeat' first
    | with_reducible assumption
    | (fail_if_no_progress (extract_lets +onlyGivenNames x)
       first
       | clear_value x
       | skip)
    | with_reducible apply State.setBank_kept
    | with_reducible apply Kept.ite
    | split

theorem State.cmdApply_kept {s : State} (h0 : s.Kept q) (a1) (a2) : (State.cmdApply s a1 a2).Kept q := by
  unfold State.cmdApply
  repeat' first
    | with_reducible assumption
    | (fail_if_no_progress (extract_lets +onlyGivenNames x)
       first
       | (refine Kept.cutP (q := q) (x := x) ?_ ?_ <;> [unfold x; ((try clear_value x); intro _)])
       | clear_value x
       | skip)
    | with_reducible apply State.accessWrite_kept
    | with_reducible apply State.accessRead_kept
    | with_reducible apply State.settle_kept
    | with_reducible apply State.cmdApplied_kept
    | with_reducible apply Kept.ite
    | with_reducible apply Kept.iteP
    | split

theorem execCommandTakesEffect_kept (a0) (a1) {s : State} (h0 : s.Kept q) : KeptN q (execCommandTakesEffect a0 a1 s) := by
  unfold execCommandTakesEffect
  repeat' first
    | with_reducible intro _
    | with_reducible assumption
    | with_reducible apply State.cmdApply_kept
    | with_reducible apply KeptN.next
    | split

theorem execRegisterWrite_kept (a0) (a1) (a2) {s : State} (h0 : s.Kept q) : KeptN q (execRegisterWrite a0 a1 a2 s) := by
  unfold execRegisterWrite
  repeat' first
    | with_reducible assumption
    | (fail_if_no_progress (extract_lets +onlyGivenNames x)
       first
       | (refine Kept.cutP (q := q) (x := x) ?_ ?_ <;> [unfold x; ((try clear_value x); intro _)])
       | clear_value x
       | skip)
    | with_reducible apply State.accessWrite_kept
    | with_reducible apply State.settle_kept
    | with_reducible apply State.answer_kept
    | with_reducible apply KeptN.next

theorem execCaptureRead_kept (a0) (a1) {s : State} (h0 : s.Kept q) : KeptN q (execCaptureRead a0 a1 s) := by
  unfold execCaptureRead
  repeat' first
    | with_reducible assumption
    | (fail_if_no_progress (extract_lets +onlyGivenNames x)
       first
       | (refine Kept.cutP (q := q) (x := x) ?_ ?_ <;> [unfold x; ((try clear_value x); intro _)])
       | clear_value x
       | skip)
    | with_reducible apply State.accessRead_kept
    | with_reducible apply State.answer_kept
    | with_reducible apply KeptN.next

theorem execReadClear_kept (a0) (a1) {s : State} (h0 : s.Kept q) : KeptN q (execReadClear a0 a1 s) := by
  unfold execReadClear
  repeat' first
    | with_reducible assumption
    | (fail_if_no_progress (extract_lets +onlyGivenNames x)
       first
       | (refine Kept.cutP (q := q) (x := x) ?_ ?_ <;> [unfold x; ((try clear_value x); intro _)])
       | clear_value x
       | skip)
    | with_reducible apply State.accessRead_kept
    | with_reducible apply State.answer_kept
    | with_reducible apply KeptN.next

theorem execLaneDecCapData_kept (a0) (a1) {s : State} (h0 : s.Kept q) : KeptN q (execLaneDecCapData a0 a1 s) := by
  unfold execLaneDecCapData
  repeat' first
    | with_reducible intro _
    | with_reducible assumption
    | (fail_if_no_progress (extract_lets +onlyGivenNames x)
       first
       | (refine Kept.cutP (q := q) (x := x) ?_ ?_ <;> [unfold x; ((try clear_value x); intro _)])
       | clear_value x
       | skip)
    | with_reducible apply State.answer_kept
    | with_reducible apply State.touched_kept
    | with_reducible apply State.regRead_kept
    | with_reducible apply KeptN.next
    | with_reducible apply Kept.ite
    | with_reducible apply Kept.iteP
    | split
    | (refine Kept.getP ?_ (by assumption) <;> with_reducible apply State.regRead_kept)

end Sys2Proof.Machine
end

