-- ==== Sys2Proof/Laws/KeptHostReq.lean ====
section
/-!
SUPPORT. Every operation of Machine/HostReq.lean keeps the stores canonical and the queue as it stands.
-/

set_option linter.unusedVariables false
set_option linter.unusedTactic false
set_option linter.unreachableTactic false
set_option linter.unnecessarySeqFocus false

namespace Sys2Proof.Machine

variable {q : List Instr}

theorem State.hostAccess_kept {s : State} (h0 : s.Kept q) (a1) : (State.hostAccess s a1).1.Kept q := by
  unfold State.hostAccess
  repeat' first
    | with_reducible intro _
    | with_reducible assumption
    | (fail_if_no_progress (extract_lets +onlyGivenNames x)
       first
       | (refine Kept.cutP (q := q) (x := x) ?_ ?_ <;> [unfold x; ((try clear_value x); intro _)])
       | clear_value x
       | skip)
    | with_reducible apply State.accessRead_kept
    | with_reducible apply State.accessWrite_kept
    | split
    | (refine Kept.getP ?_ (by assumption) <;> with_reducible apply State.accessRead_kept)
    | (refine Kept.getP ?_ (by assumption) <;> with_reducible apply State.accessWrite_kept)

theorem State.spiLast_kept {s : State} (h0 : s.Kept q) (a1) (a2) : (State.spiLast s a1 a2).Kept q := by
  unfold State.spiLast
  repeat' first
    | with_reducible intro _
    | with_reducible assumption
    | ((with_reducible show Fld.listed _ = true); rfl)
    | with_reducible apply State.wr_kept
    | with_reducible apply Kept.ite
    | split

theorem State.burst_kept {s : State} (h0 : s.Kept q) (a1) (a2) : (State.burst s a1 a2).1.Kept q := by
  induction a2 generalizing s a1 with
  | zero =>
    unfold State.burst
    repeat' first
      | with_reducible intro _
      | with_reducible assumption
      | (fail_if_no_progress (extract_lets +onlyGivenNames x)
         first
         | (refine Kept.cut (q := q) (x := x) ?_ ?_ <;> [unfold x; ((try clear_value x); intro _)])
         | (refine Kept.cutP (q := q) (x := x) ?_ ?_ <;> [unfold x; ((try clear_value x); intro _)])
         | clear_value x
         | skip)
      | with_reducible apply State.hostAccess_kept
      | with_reducible apply State.spiLast_kept
      | with_reducible apply Kept.ite
      | with_reducible apply Kept.iteP
      | split
      | (refine Kept.getP ?_ (by assumption) <;> with_reducible apply State.hostAccess_kept)
  | succ fuel ih =>
    unfold State.burst
    repeat' first
      | with_reducible intro _
      | with_reducible assumption
      | (fail_if_no_progress (extract_lets +onlyGivenNames x)
         first
         | (refine Kept.cut (q := q) (x := x) ?_ ?_ <;> [unfold x; ((try clear_value x); intro _)])
         | (refine Kept.cutP (q := q) (x := x) ?_ ?_ <;> [unfold x; ((try clear_value x); intro _)])
         | clear_value x
         | skip)
      | with_reducible apply ih
      | with_reducible apply State.hostAccess_kept
      | with_reducible apply State.spiLast_kept
      | with_reducible apply Kept.ite
      | with_reducible apply Kept.iteP
      | split
      | (refine Kept.getP ?_ (by assumption) <;> with_reducible apply State.hostAccess_kept)

theorem State.postedFail_kept {s : State} (h0 : s.Kept q) (a1) : (State.postedFail s a1).Kept q := by
  unfold State.postedFail
  repeat' first
    | with_reducible assumption
    | (fail_if_no_progress (extract_lets +onlyGivenNames x)
       first
       | clear_value x
       | skip)
    | with_reducible apply State.setSess_kept
    | with_reducible apply Kept.ite
    | split

theorem State.burstEnd_kept {s : State} (h0 : s.Kept q) (a1) (a2) : (State.burstEnd s a1 a2).Kept q := by
  unfold State.burstEnd
  repeat' first
    | with_reducible intro _
    | with_reducible assumption
    | ((with_reducible show Fld.listed _ = true); rfl)
    | with_reducible apply State.send_kept
    | with_reducible apply State.postedFail_kept
    | with_reducible apply State.emit_kept
    | with_reducible apply State.wr_kept
    | with_reducible apply Kept.ite
    | split

theorem HostReq.reply_kept (a0 : HostReq) {x : State × Nat × Status × List Nat} (h : x.1.Kept q) : (HostReq.reply a0 x).Kept q := by
  unfold HostReq.reply
  split
  · exact h
  · exact State.send_kept h _ _ _ _ _

theorem State.performReq_kept {s : State} (h0 : s.Kept q) (a1) : (State.performReq s a1).1.Kept q := by
  unfold State.performReq
  repeat' first
    | with_reducible intro _
    | with_reducible assumption
    | (fail_if_no_progress (extract_lets +onlyGivenNames x)
       first
       | (refine Kept.cutP (q := q) (x := x) ?_ ?_ <;> [unfold x; ((try clear_value x); intro _)])
       | clear_value x
       | skip)
    | ((with_reducible show State.Kept _ (HostReq.reply _ _)); with_reducible apply HostReq.reply_kept)
    | with_reducible apply HostReq.reply_kept
    | with_reducible apply State.openSession_kept
    | with_reducible apply State.authSession_kept
    | with_reducible apply State.setSess_kept
    | with_reducible apply State.closeRequest_kept
    | with_reducible apply State.send_kept
    | with_reducible apply State.burst_kept
    | with_reducible apply State.settle_kept
    | with_reducible apply State.burstEnd_kept
    | with_reducible apply Kept.ite
    | with_reducible apply Kept.iteP
    | split
    | (refine Kept.getP ?_ (by assumption) <;> with_reducible apply State.openSession_kept)
    | (refine Kept.getP ?_ (by assumption) <;> with_reducible apply State.authSession_kept)
    | (refine Kept.getP ?_ (by assumption) <;> with_reducible apply State.closeRequest_kept)
    | (refine Kept.getP ?_ (by assumption) <;> with_reducible apply State.burst_kept)

theorem State.dropCapture_kept {s : State} (h0 : s.Kept q) (a1) : (State.dropCapture s a1).Kept q := by
  unfold State.dropCapture
  repeat' first
    | with_reducible assumption
    | fail_if_no_progress (with_reducible apply Kept.upd)

theorem State.orphansFind_kept {s : State} (h0 : s.Kept q) (a1) (a2) : (State.orphansFind s a1 a2).Kept q := by
  unfold State.orphansFind
  repeat' first
    | with_reducible assumption
    | with_reducible apply Kept.ite
    | split
    | fail_if_no_progress (with_reducible apply Kept.upd)

theorem State.performOrphan_kept {s : State} (h0 : s.Kept q) (a1) : (State.performOrphan s a1).1.Kept q := by
  unfold State.performOrphan
  repeat' first
    | with_reducible intro _
    | with_reducible assumption
    | (fail_if_no_progress (extract_lets +onlyGivenNames x)
       first
       | (refine Kept.cut (q := q) (x := x) ?_ ?_ <;> [unfold x; ((try clear_value x); intro _)])
       | (refine Kept.cutP (q := q) (x := x) ?_ ?_ <;> [unfold x; ((try clear_value x); intro _)])
       | clear_value x
       | skip)
    | with_reducible apply State.performReq_kept
    | with_reducible apply State.setSess_kept
    | with_reducible apply State.dropCapture_kept
    | with_reducible apply State.orphansFind_kept
    | split
    | (refine Kept.getP ?_ (by assumption) <;> with_reducible apply State.performReq_kept)
    | fail_if_no_progress (with_reducible apply Kept.upd)

theorem State.serve_kept {s : State} (h0 : s.Kept q) (a1) (a2) : (State.serve s a1 a2).Kept q := by
  induction a2 generalizing s with
  | zero =>
    unfold State.serve
    repeat' first
      | with_reducible intro _
      | with_reducible assumption
      | (fail_if_no_progress (extract_lets +onlyGivenNames x)
         first
         | (refine Kept.cut (q := q) (x := x) ?_ ?_ <;> [unfold x; ((try clear_value x); intro _)])
         | (refine Kept.cutP (q := q) (x := x) ?_ ?_ <;> [unfold x; ((try clear_value x); intro _)])
         | clear_value x
         | skip)
      | with_reducible apply State.performOrphan_kept
      | split
      | (refine Kept.getP ?_ (by assumption) <;> with_reducible apply State.performOrphan_kept)
      | fail_if_no_progress (with_reducible apply Kept.upd)
  | succ fuel ih =>
    unfold State.serve
    repeat' first
      | with_reducible intro _
      | with_reducible assumption
      | (fail_if_no_progress (extract_lets +onlyGivenNames x)
         first
         | (refine Kept.cut (q := q) (x := x) ?_ ?_ <;> [unfold x; ((try clear_value x); intro _)])
         | (refine Kept.cutP (q := q) (x := x) ?_ ?_ <;> [unfold x; ((try clear_value x); intro _)])
         | clear_value x
         | skip)
      | with_reducible apply ih
      | with_reducible apply State.performOrphan_kept
      | split
      | (refine Kept.getP ?_ (by assumption) <;> with_reducible apply State.performOrphan_kept)
      | fail_if_no_progress (with_reducible apply Kept.upd)

theorem State.serveAll_kept {s : State} (h0 : s.Kept q) : (State.serveAll s).Kept q := by
  unfold State.serveAll
  repeat' first
    | with_reducible intro _
    | with_reducible assumption
    | with_reducible apply State.serve_kept
    | with_reducible apply Kept.foldlFields
    | exact Reg.fields_listed _ _ (by assumption)
    | with_reducible apply Kept.foldl
    | with_reducible apply Kept.foldlP

theorem State.request_kept {s : State} (h0 : s.Kept q) (a1) : (State.request s a1).Kept q := by
  unfold State.request
  repeat' first
    | with_reducible assumption
    | (fail_if_no_progress (extract_lets +onlyGivenNames x)
       first
       | (refine Kept.cut (q := q) (x := x) ?_ ?_ <;> [unfold x; ((try clear_value x); intro _)])
       | clear_value x
       | skip)
    | with_reducible apply State.serve_kept
    | fail_if_no_progress (with_reducible apply Kept.upd)

theorem State.noSession_kept {s : State} (h0 : s.Kept q) (a1) (a2) (a3) : (State.noSession s a1 a2 a3).Kept q := by
  unfold State.noSession
  repeat' first
    | with_reducible intro _
    | with_reducible assumption
    | with_reducible apply State.send_kept
    | split

theorem State.packet_kept {s : State} (h0 : s.Kept q) (a1) (a2) (a3) (a4) (a5) : (State.packet s a1 a2 a3 a4 a5).Kept q := by
  unfold State.packet
  repeat' first
    | with_reducible intro _
    | with_reducible assumption
    | with_reducible apply State.badPacket_kept
    | with_reducible apply State.tinderAccept_kept
    | with_reducible apply State.request_kept
    | with_reducible apply State.noSession_kept
    | with_reducible apply Kept.ite
    | split
    | with_reducible apply Kept.id

theorem execTinderRead_kept (a0) (a1) (a2) (a3) (a4) {s : State} (h0 : s.Kept q) : KeptN q (execTinderRead a0 a1 a2 a3 a4 s) := by
  unfold execTinderRead
  repeat' first
    | with_reducible assumption
    | with_reducible apply State.packet_kept
    | with_reducible apply KeptN.next

theorem execTinderWrite_kept (a0) (a1) (a2) (a3) (a4) {s : State} (h0 : s.Kept q) : KeptN q (execTinderWrite a0 a1 a2 a3 a4 s) := by
  unfold execTinderWrite
  repeat' first
    | with_reducible assumption
    | with_reducible apply State.packet_kept
    | with_reducible apply KeptN.next

theorem execTinderWritePosted_kept (a0) (a1) (a2) (a3) (a4) {s : State} (h0 : s.Kept q) : KeptN q (execTinderWritePosted a0 a1 a2 a3 a4 s) := by
  unfold execTinderWritePosted
  repeat' first
    | with_reducible assumption
    | with_reducible apply State.packet_kept
    | with_reducible apply KeptN.next

theorem execTinderOpen_kept (a0) (a1) (a2) (a3) {s : State} (h0 : s.Kept q) : KeptN q (execTinderOpen a0 a1 a2 a3 s) := by
  unfold execTinderOpen
  repeat' first
    | with_reducible assumption
    | with_reducible apply State.packet_kept
    | with_reducible apply KeptN.next

theorem execTinderAuth_kept (a0) (a1) (a2) (a3) {s : State} (h0 : s.Kept q) : KeptN q (execTinderAuth a0 a1 a2 a3 s) := by
  unfold execTinderAuth
  repeat' first
    | with_reducible assumption
    | with_reducible apply State.packet_kept
    | with_reducible apply KeptN.next

theorem execTinderClose_kept (a0) (a1) (a2) {s : State} (h0 : s.Kept q) : KeptN q (execTinderClose a0 a1 a2 s) := by
  unfold execTinderClose
  repeat' first
    | with_reducible assumption
    | with_reducible apply State.packet_kept
    | with_reducible apply KeptN.next

theorem State.packetIn_kept {s : State} (h0 : s.Kept q) (a1) : (State.packetIn s a1).Kept q := by
  unfold State.packetIn
  extract_lets at_ session lseq tag addr payload words ask
  have h : ∀ k a ws n, (ask k a ws n).Kept q := fun _ _ _ _ => State.packet_kept h0 _ _ _ _ _
  clear_value ask
  split <;> first | exact h _ _ _ _ | exact State.nakTake_kept h0 _ | skip
  split
  · exact State.acked_kept h0 _
  · exact h0

theorem execBadPacket_kept (a0) {s : State} (h0 : s.Kept q) : KeptN q (execBadPacket a0 s) := by
  unfold execBadPacket
  repeat' first
    | with_reducible assumption
    | (fail_if_no_progress (extract_lets +onlyGivenNames x)
       first
       | clear_value x
       | skip)
    | with_reducible apply State.badPacket_kept
    | with_reducible apply State.packetIn_kept
    | with_reducible apply KeptN.next
    | with_reducible apply Kept.ite
    | with_reducible apply Kept.iteP
    | split

theorem execSpiRead_kept (a0) (a1) {s : State} (h0 : s.Kept q) : KeptN q (execSpiRead a0 a1 s) := by
  unfold execSpiRead
  repeat' first
    | with_reducible assumption
    | with_reducible apply State.request_kept
    | with_reducible apply KeptN.next
    | with_reducible apply Kept.ite
    | with_reducible apply Kept.iteP
    | split

theorem execSpiWrite_kept (a0) (a1) {s : State} (h0 : s.Kept q) : KeptN q (execSpiWrite a0 a1 s) := by
  unfold execSpiWrite
  repeat' first
    | with_reducible assumption
    | with_reducible apply State.request_kept
    | with_reducible apply KeptN.next
    | with_reducible apply Kept.ite
    | with_reducible apply Kept.iteP
    | split

theorem execSpiStatus_kept {s : State} (h0 : s.Kept q) : KeptN q (execSpiStatus s) := by
  unfold execSpiStatus
  repeat' first
    | with_reducible assumption
    | with_reducible apply State.emit_kept
    | with_reducible apply KeptN.next
    | with_reducible apply Kept.ite
    | with_reducible apply Kept.iteP
    | split

theorem State.hostsWait_kept {s : State} (h0 : s.Kept q) (a1) : (State.hostsWait s a1).Kept q := by
  unfold State.hostsWait
  repeat' first
    | with_reducible assumption
    | with_reducible apply Kept.ite
    | split
    | fail_if_no_progress (with_reducible apply Kept.upd)

theorem execHostAccessTimeout_kept (a0) {s : State} (h0 : s.Kept q) : KeptN q (execHostAccessTimeout a0 s) := by
  unfold execHostAccessTimeout
  repeat' first
    | with_reducible intro _
    | with_reducible assumption
    | (fail_if_no_progress (extract_lets +onlyGivenNames x)
       first
       | (refine Kept.cut (q := q) (x := x) ?_ ?_ <;> [unfold x; ((try clear_value x); intro _)])
       | clear_value x
       | skip)
    | with_reducible apply State.serve_kept
    | with_reducible apply State.settle_kept
    | with_reducible apply State.burstEnd_kept
    | with_reducible apply KeptN.next
    | with_reducible apply Kept.ite
    | with_reducible apply Kept.iteP
    | split
    | fail_if_no_progress (with_reducible apply Kept.upd)

end Sys2Proof.Machine
end

