-- ==== Sys2Proof/Laws/KeptBoot.lean ====
section
/-!
SUPPORT. Every operation of Machine/Boot.lean keeps the stores canonical and the queue as it stands.
-/

set_option linter.unusedVariables false
set_option linter.unusedTactic false
set_option linter.unreachableTactic false
set_option linter.unnecessarySeqFocus false

namespace Sys2Proof.Machine

variable {q : List Instr}

theorem State.sharedPut_kept {s : State} (h0 : s.Kept q) (a1) (a2) : (State.sharedPut s a1 a2).Kept q := by
  unfold State.sharedPut
  repeat' first
    | with_reducible assumption
    | with_reducible apply State.memWrite_kept

theorem State.sharedRun_kept {s : State} (h0 : s.Kept q) (a1) (a2) : (State.sharedRun s a1 a2).Kept q := by
  induction a2 generalizing s a1 with
  | nil =>
    unfold State.sharedRun
    repeat' first
      | with_reducible intro _
      | with_reducible assumption
      | with_reducible apply State.sharedPut_kept
      | split
  | cons hd tl ih =>
    unfold State.sharedRun
    repeat' first
      | with_reducible intro _
      | with_reducible assumption
      | with_reducible apply ih
      | with_reducible apply State.sharedPut_kept
      | split

theorem State.tableLoad_kept {s : State} (h0 : s.Kept q) (a1) (a2) (a3) : (State.tableLoad s a1 a2 a3).Kept q := by
  induction a3 generalizing s a2 with
  | zero =>
    unfold State.tableLoad
    repeat' first
      | with_reducible intro _
      | with_reducible assumption
      | (fail_if_no_progress (extract_lets +onlyGivenNames x)
         first
         | clear_value x
         | skip)
      | with_reducible apply State.memWrite_kept
      | split
  | succ fuel ih =>
    unfold State.tableLoad
    repeat' first
      | with_reducible intro _
      | with_reducible assumption
      | (fail_if_no_progress (extract_lets +onlyGivenNames x)
         first
         | clear_value x
         | skip)
      | with_reducible apply ih
      | with_reducible apply State.memWrite_kept
      | split

theorem State.areaLoad_kept {s : State} (h0 : s.Kept q) (a1) (a2) : (State.areaLoad s a1 a2).Kept q := by
  unfold State.areaLoad
  repeat' first
    | with_reducible intro _
    | with_reducible assumption
    | (fail_if_no_progress (extract_lets +onlyGivenNames x)
       first
       | (refine Kept.cut (q := q) (x := x) ?_ ?_ <;> [unfold x; ((try clear_value x); intro _)])
       | clear_value x
       | skip)
    | with_reducible apply State.sharedRun_kept
    | split

theorem State.entryLoad_kept {s : State} (h0 : s.Kept q) (a1) : (State.entryLoad s a1).Kept q := by
  unfold State.entryLoad
  repeat' first
    | with_reducible intro _
    | with_reducible assumption
    | (fail_if_no_progress (extract_lets +onlyGivenNames x)
       first
       | (refine Kept.cut (q := q) (x := x) ?_ ?_ <;> [unfold x; ((try clear_value x); intro _)])
       | clear_value x
       | skip)
    | with_reducible apply State.areaLoad_kept
    | with_reducible apply State.st_kept
    | with_reducible apply Kept.foldlFields
    | exact Reg.fields_listed _ _ (by assumption)
    | with_reducible apply Kept.foldl
    | with_reducible apply Kept.foldlP
    | fail_if_no_progress (with_reducible apply Kept.upd)

theorem State.writesRun_kept {s : State} (h0 : s.Kept q) (a1) : (State.writesRun s a1).Kept q := by
  induction a1 generalizing s with
  | nil =>
    unfold State.writesRun
    repeat' first
      | with_reducible intro _
      | with_reducible assumption
      | ((with_reducible show Fld.listed _ = true); rfl)
      | (fail_if_no_progress (extract_lets +onlyGivenNames x)
         first
         | (refine Kept.cut (q := q) (x := x) ?_ ?_ <;> [unfold x; ((try clear_value x); intro _)])
         | (refine Kept.cutP (q := q) (x := x) ?_ ?_ <;> [unfold x; ((try clear_value x); intro _)])
         | clear_value x
         | skip)
      | with_reducible apply State.accessWrite_kept
      | with_reducible apply State.journalAdd_kept
      | with_reducible apply State.bump_kept
      | with_reducible apply Kept.ite
      | with_reducible apply Kept.iteP
      | split
      | (refine Kept.getP ?_ (by assumption) <;> with_reducible apply State.accessWrite_kept)
      | fail_if_no_progress (with_reducible apply Kept.upd)
  | cons hd tl ih =>
    unfold State.writesRun
    repeat' first
      | with_reducible intro _
      | with_reducible assumption
      | ((with_reducible show Fld.listed _ = true); rfl)
      | (fail_if_no_progress (extract_lets +onlyGivenNames x)
         first
         | (refine Kept.cut (q := q) (x := x) ?_ ?_ <;> [unfold x; ((try clear_value x); intro _)])
         | (refine Kept.cutP (q := q) (x := x) ?_ ?_ <;> [unfold x; ((try clear_value x); intro _)])
         | clear_value x
         | skip)
      | with_reducible apply ih
      | with_reducible apply State.accessWrite_kept
      | with_reducible apply State.journalAdd_kept
      | with_reducible apply State.bump_kept
      | with_reducible apply Kept.ite
      | with_reducible apply Kept.iteP
      | split
      | (refine Kept.getP ?_ (by assumption) <;> with_reducible apply State.accessWrite_kept)
      | fail_if_no_progress (with_reducible apply Kept.upd)

theorem State.bootEnd_kept {s : State} (h0 : s.Kept q) : (State.bootEnd s).Kept q := by
  unfold State.bootEnd
  repeat' first
    | with_reducible intro _
    | with_reducible assumption
    | ((with_reducible show Fld.listed _ = true); rfl)
    | (fail_if_no_progress (extract_lets +onlyGivenNames x)
       first
       | (refine Kept.cut (q := q) (x := x) ?_ ?_ <;> [unfold x; ((try clear_value x); intro _)])
       | clear_value x
       | skip)
    | with_reducible apply State.runStart_kept
    | with_reducible apply State.put_kept
    | with_reducible apply State.serviceRequest_kept
    | with_reducible apply State.settle_kept
    | with_reducible apply State.wr_kept
    | with_reducible apply Kept.foldlFields
    | exact Reg.fields_listed _ _ (by assumption)
    | with_reducible apply Kept.foldl
    | with_reducible apply Kept.foldlP
    | with_reducible apply Kept.ite
    | with_reducible apply Kept.iteP
    | split

theorem State.bootGo_kept {s : State} (h0 : s.Kept q) : (State.bootGo s).Kept q := by
  unfold State.bootGo
  repeat' first
    | with_reducible intro _
    | with_reducible assumption
    | with_reducible apply State.unlessReset_kept
    | with_reducible apply State.writesRun_kept
    | with_reducible apply State.bootEnd_kept
    | with_reducible apply Kept.ite
    | split
    | with_reducible apply Kept.id

theorem State.bootEntry_kept {s : State} (h0 : s.Kept q) (a1) (a2) : (State.bootEntry s a1 a2).Kept q := by
  unfold State.bootEntry
  repeat' first
    | with_reducible assumption
    | ((with_reducible show Fld.listed _ = true); rfl)
    | (fail_if_no_progress (extract_lets +onlyGivenNames x)
       first
       | (refine Kept.cut (q := q) (x := x) ?_ ?_ <;> [unfold x; ((try clear_value x); intro _)])
       | clear_value x
       | skip)
    | with_reducible apply State.entryLoad_kept
    | with_reducible apply State.tableLoad_kept
    | with_reducible apply State.wr_kept
    | with_reducible apply State.bootGo_kept
    | fail_if_no_progress (with_reducible apply Kept.upd)

theorem State.bootOther_kept {s : State} (h0 : s.Kept q) (a1) (a2) : (State.bootOther s a1 a2).Kept q := by
  unfold State.bootOther
  repeat' first
    | with_reducible intro _
    | with_reducible assumption
    | ((with_reducible show Fld.listed _ = true); rfl)
    | (fail_if_no_progress (extract_lets +onlyGivenNames x)
       first
       | (refine Kept.cut (q := q) (x := x) ?_ ?_ <;> [unfold x; ((try clear_value x); intro _)])
       | clear_value x
       | skip)
    | with_reducible apply bankResult_listed
    | with_reducible apply State.wr_kept
    | with_reducible apply State.tryBank_kept
    | with_reducible apply State.recovery_kept
    | with_reducible apply Kept.ite
    | split
    | with_reducible apply Kept.id

theorem State.bootLoad_kept {s : State} (h0 : s.Kept q) (a1) (a2) : (State.bootLoad s a1 a2).Kept q := by
  unfold State.bootLoad
  repeat' first
    | with_reducible intro _
    | with_reducible assumption
    | (fail_if_no_progress (extract_lets +onlyGivenNames x)
       first
       | (refine Kept.cutP (q := q) (x := x) ?_ ?_ <;> [unfold x; ((try clear_value x); intro _)])
       | clear_value x
       | skip)
    | with_reducible apply State.bootOther_kept
    | with_reducible apply State.peatRange_kept
    | with_reducible apply State.unlessReset_kept
    | with_reducible apply State.errorLines_kept
    | with_reducible apply State.bootEntry_kept
    | with_reducible apply Kept.ite
    | with_reducible apply Kept.iteP
    | split
    | with_reducible apply Kept.id

theorem execBootLoad_kept (a0) {s : State} (h0 : s.Kept q) : KeptN q (execBootLoad a0 s) := by
  unfold execBootLoad
  repeat' first
    | with_reducible assumption
    | with_reducible apply State.bootLoad_kept
    | with_reducible apply KeptN.next
    | with_reducible apply Kept.ite
    | with_reducible apply Kept.iteP
    | split

theorem execLeaveService_kept (a0) (a1) {s : State} (h0 : s.Kept q) : KeptN q (execLeaveService a0 a1 s) := by
  unfold execLeaveService
  repeat' first
    | with_reducible assumption
    | ((with_reducible show Fld.listed _ = true); rfl)
    | with_reducible apply State.put_kept
    | with_reducible apply State.keysZero_kept
    | with_reducible apply KeptN.next
    | with_reducible apply Kept.ite
    | with_reducible apply Kept.iteP
    | split

theorem State.waitersFail_kept {s : State} (h0 : s.Kept q) (a1) : (State.waitersFail s a1).Kept q := by
  unfold State.waitersFail
  repeat' first
    | with_reducible intro _
    | with_reducible assumption
    | (fail_if_no_progress (extract_lets +onlyGivenNames x)
       first
       | (refine Kept.cut (q := q) (x := x) ?_ ?_ <;> [unfold x; ((try clear_value x); intro _)])
       | clear_value x
       | skip)
    | with_reducible apply State.deliver_kept
    | with_reducible apply State.serveAll_kept
    | with_reducible apply State.settle_kept
    | with_reducible apply State.burstEnd_kept
    | with_reducible apply Kept.foldlFields
    | exact Reg.fields_listed _ _ (by assumption)
    | with_reducible apply Kept.foldl
    | with_reducible apply Kept.foldlP
    | with_reducible apply Kept.ite
    | split
    | fail_if_no_progress (with_reducible apply Kept.upd)

theorem execWakeFail_kept (a0) {s : State} (h0 : s.Kept q) : KeptN q (execWakeFail a0 s) := by
  unfold execWakeFail
  repeat' first
    | with_reducible intro _
    | with_reducible assumption
    | ((with_reducible show Fld.listed _ = true); rfl)
    | (fail_if_no_progress (extract_lets +onlyGivenNames x)
       first
       | (refine Kept.cut (q := q) (x := x) ?_ ?_ <;> [unfold x; ((try clear_value x); intro _)])
       | clear_value x
       | skip)
    | with_reducible apply State.put_kept
    | with_reducible apply State.errorLine_kept
    | with_reducible apply State.waitersFail_kept
    | with_reducible apply KeptN.next
    | with_reducible apply Kept.ite
    | with_reducible apply Kept.iteP
    | split
    | fail_if_no_progress (with_reducible apply Kept.upd)

theorem State.runsAgain_kept {s : State} (h0 : s.Kept q) : (State.runsAgain s).Kept q := by
  unfold State.runsAgain
  repeat' first
    | with_reducible intro _
    | with_reducible assumption
    | with_reducible apply State.sendResend_kept
    | with_reducible apply Kept.foldlFields
    | exact Reg.fields_listed _ _ (by assumption)
    | with_reducible apply Kept.foldl
    | with_reducible apply Kept.foldlP

theorem State.rideOrphans_kept {s : State} (h0 : s.Kept q) : (State.rideOrphans s).Kept q := by
  unfold State.rideOrphans
  repeat' first
    | with_reducible assumption
    | with_reducible apply State.holdRelease_kept

theorem execBlockResetEnd_kept (a0) (a1) {s : State} (h0 : s.Kept q) : KeptN q (execBlockResetEnd a0 a1 s) := by
  unfold execBlockResetEnd
  repeat' first
    | with_reducible intro _
    | with_reducible assumption
    | (fail_if_no_progress (extract_lets +onlyGivenNames x)
       first
       | (refine Kept.cut (q := q) (x := x) ?_ ?_ <;> [unfold x; ((try clear_value x); intro _)])
       | clear_value x
       | skip)
    | with_reducible apply State.blockResetEnd_kept
    | with_reducible apply State.runsAgain_kept
    | with_reducible apply State.rideOrphans_kept
    | with_reducible apply KeptN.next
    | with_reducible apply Kept.ite
    | with_reducible apply Kept.iteP
    | split

end Sys2Proof.Machine
end

