-- ==== Sys2Proof/Laws/KeptIrqRows.lean ====
section
/-!
SUPPORT. Every operation of Machine/IrqRows.lean keeps the stores canonical and the queue as it stands.
-/

set_option linter.unusedVariables false
set_option linter.unusedTactic false
set_option linter.unreachableTactic false
set_option linter.unnecessarySeqFocus false

namespace Sys2Proof.Machine

variable {q : List Instr}

theorem execIrqComplete_kept (a0) (a1) {s : State} (h0 : s.Kept q) : KeptN q (execIrqComplete a0 a1 s) := by
  unfold execIrqComplete
  repeat' first
    | with_reducible intro _
    | with_reducible assumption
    | with_reducible apply State.writing_kept
    | with_reducible apply State.irqComplete_kept
    | with_reducible apply KeptN.next
    | with_reducible apply Kept.id

theorem execIrqSwSet_kept (a0) (a1) {s : State} (h0 : s.Kept q) : KeptN q (execIrqSwSet a0 a1 s) := by
  unfold execIrqSwSet
  repeat' first
    | with_reducible intro _
    | with_reducible assumption
    | with_reducible apply State.writing_kept
    | with_reducible apply State.irqSwSet_kept
    | with_reducible apply KeptN.next
    | with_reducible apply Kept.id

theorem execIrqPendingWrite_kept (a0) (a1) (a2) {s : State} (h0 : s.Kept q) : KeptN q (execIrqPendingWrite a0 a1 a2 s) := by
  unfold execIrqPendingWrite
  repeat' first
    | with_reducible intro _
    | with_reducible assumption
    | with_reducible apply State.writing_kept
    | with_reducible apply State.irqBits_kept
    | with_reducible apply State.pendingBit_kept
    | with_reducible apply KeptN.next
    | with_reducible apply Kept.id

theorem execIrqSrcWrite_kept (a0) (a1) (a2) {s : State} (h0 : s.Kept q) : KeptN q (execIrqSrcWrite a0 a1 a2 s) := by
  unfold execIrqSrcWrite
  repeat' first
    | with_reducible intro _
    | with_reducible assumption
    | with_reducible apply State.writing_kept
    | with_reducible apply State.irqSrcWrite_kept
    | with_reducible apply KeptN.next
    | with_reducible apply Kept.id

theorem execIrqMaskWrite_kept (a0) (a1) (a2) {s : State} (h0 : s.Kept q) : KeptN q (execIrqMaskWrite a0 a1 a2 s) := by
  unfold execIrqMaskWrite
  repeat' first
    | with_reducible intro _
    | with_reducible assumption
    | with_reducible apply State.writing_kept
    | with_reducible apply State.irqBits_kept
    | with_reducible apply State.maskBit_kept
    | with_reducible apply KeptN.next
    | with_reducible apply Kept.id

end Sys2Proof.Machine
end

