-- ==== Sys2Proof/Laws/KeptTorvulo.lean ====
section
/-!
SUPPORT. Every operation of Machine/Torvulo.lean keeps the stores canonical and the queue as it stands.
-/

set_option linter.unusedVariables false
set_option linter.unusedTactic false
set_option linter.unreachableTactic false
set_option linter.unnecessarySeqFocus false

namespace Sys2Proof.Machine

variable {q : List Instr}

theorem State.alu_kept {s : State} (h0 : s.Kept q) (a1) (a2) (a3) (a4) : (State.alu s a1 a2 a3 a4).Kept q := by
  unfold State.alu
  repeat' first
    | with_reducible intro _
    | with_reducible assumption
    | (fail_if_no_progress (extract_lets +onlyGivenNames x)
       first
       | clear_value x
       | skip)
    | with_reducible apply State.issue_kept
    | with_reducible apply State.retireNext_kept
    | with_reducible apply State.setBank_kept
    | with_reducible apply Kept.id

theorem execAddOp_kept (a0) (a1) {s : State} (h0 : s.Kept q) : KeptN q (execAddOp a0 a1 s) := by
  unfold execAddOp
  repeat' first
    | with_reducible assumption
    | with_reducible apply State.alu_kept
    | with_reducible apply KeptN.next

theorem execSubOp_kept (a0) (a1) {s : State} (h0 : s.Kept q) : KeptN q (execSubOp a0 a1 s) := by
  unfold execSubOp
  repeat' first
    | with_reducible assumption
    | with_reducible apply State.alu_kept
    | with_reducible apply KeptN.next

theorem execAndOp_kept (a0) (a1) {s : State} (h0 : s.Kept q) : KeptN q (execAndOp a0 a1 s) := by
  unfold execAndOp
  repeat' first
    | with_reducible assumption
    | with_reducible apply State.alu_kept
    | with_reducible apply KeptN.next

theorem execOrOp_kept (a0) (a1) {s : State} (h0 : s.Kept q) : KeptN q (execOrOp a0 a1 s) := by
  unfold execOrOp
  repeat' first
    | with_reducible assumption
    | with_reducible apply State.alu_kept
    | with_reducible apply KeptN.next

theorem execXorOp_kept (a0) (a1) {s : State} (h0 : s.Kept q) : KeptN q (execXorOp a0 a1 s) := by
  unfold execXorOp
  repeat' first
    | with_reducible assumption
    | with_reducible apply State.alu_kept
    | with_reducible apply KeptN.next

theorem execShl_kept (a0) (a1) {s : State} (h0 : s.Kept q) : KeptN q (execShl a0 a1 s) := by
  unfold execShl
  repeat' first
    | with_reducible assumption
    | (fail_if_no_progress (extract_lets +onlyGivenNames x)
       first
       | clear_value x
       | skip)
    | with_reducible apply State.alu_kept
    | with_reducible apply KeptN.next

theorem execShr_kept (a0) (a1) {s : State} (h0 : s.Kept q) : KeptN q (execShr a0 a1 s) := by
  unfold execShr
  repeat' first
    | with_reducible assumption
    | (fail_if_no_progress (extract_lets +onlyGivenNames x)
       first
       | clear_value x
       | skip)
    | with_reducible apply State.alu_kept
    | with_reducible apply KeptN.next

theorem execSar_kept (a0) (a1) {s : State} (h0 : s.Kept q) : KeptN q (execSar a0 a1 s) := by
  unfold execSar
  repeat' first
    | with_reducible assumption
    | (fail_if_no_progress (extract_lets +onlyGivenNames x)
       first
       | clear_value x
       | skip)
    | with_reducible apply State.alu_kept
    | with_reducible apply KeptN.next

theorem execMul_kept (a0) (a1) {s : State} (h0 : s.Kept q) : KeptN q (execMul a0 a1 s) := by
  unfold execMul
  repeat' first
    | with_reducible assumption
    | with_reducible apply State.alu_kept
    | with_reducible apply KeptN.next

theorem execCmp_kept (a0) (a1) {s : State} (h0 : s.Kept q) : KeptN q (execCmp a0 a1 s) := by
  unfold execCmp
  repeat' first
    | with_reducible assumption
    | with_reducible apply State.alu_kept
    | with_reducible apply KeptN.next

theorem execTst_kept (a0) (a1) {s : State} (h0 : s.Kept q) : KeptN q (execTst a0 a1 s) := by
  unfold execTst
  repeat' first
    | with_reducible assumption
    | with_reducible apply State.alu_kept
    | with_reducible apply KeptN.next

theorem State.moveTo_kept {s : State} (h0 : s.Kept q) (a1) (a2) (a3) (g4) : (State.moveTo s a1 a2 a3 g4).Kept q := by
  unfold State.moveTo
  repeat' first
    | with_reducible intro _
    | with_reducible assumption
    | (fail_if_no_progress (extract_lets +onlyGivenNames x)
       first
       | clear_value x
       | skip)
    | with_reducible apply State.issue_kept
    | with_reducible apply State.retireNext_kept
    | with_reducible apply State.setBank_kept
    | with_reducible apply Kept.id
    | with_reducible apply_assumption

theorem execLi_kept (a0) (a1) {s : State} (h0 : s.Kept q) : KeptN q (execLi a0 a1 s) := by
  unfold execLi
  repeat' first
    | with_reducible intro _
    | with_reducible assumption
    | with_reducible apply State.moveTo_kept
    | with_reducible apply KeptN.next
    | with_reducible apply Kept.id

theorem execLih_kept (a0) (a1) {s : State} (h0 : s.Kept q) : KeptN q (execLih a0 a1 s) := by
  unfold execLih
  repeat' first
    | with_reducible intro _
    | with_reducible assumption
    | with_reducible apply State.moveTo_kept
    | with_reducible apply KeptN.next
    | with_reducible apply Kept.id

theorem execMov_kept (a0) (a1) {s : State} (h0 : s.Kept q) : KeptN q (execMov a0 a1 s) := by
  unfold execMov
  repeat' first
    | with_reducible intro _
    | with_reducible assumption
    | with_reducible apply State.moveTo_kept
    | with_reducible apply KeptN.next
    | with_reducible apply Kept.id

theorem execMfl_kept (a0) (a1) {s : State} (h0 : s.Kept q) : KeptN q (execMfl a0 a1 s) := by
  unfold execMfl
  repeat' first
    | with_reducible intro _
    | with_reducible assumption
    | with_reducible apply State.moveTo_kept
    | with_reducible apply KeptN.next
    | with_reducible apply Kept.id

theorem execMtag_kept (a0) (a1) {s : State} (h0 : s.Kept q) : KeptN q (execMtag a0 a1 s) := by
  unfold execMtag
  repeat' first
    | with_reducible intro _
    | with_reducible assumption
    | with_reducible apply State.moveTo_kept
    | with_reducible apply KeptN.next
    | with_reducible apply Kept.id

theorem State.dataUpsets_kept {s : State} (h0 : s.Kept q) (a1) (a2) : (State.dataUpsets s a1 a2).Kept q := by
  unfold State.dataUpsets
  repeat' first
    | with_reducible intro _
    | with_reducible assumption
    | with_reducible apply State.upsets_kept
    | split

theorem execLoad_kept (a0) (a1) (a2) {s : State} (h0 : s.Kept q) : KeptN q (execLoad a0 a1 a2 s) := by
  unfold execLoad
  repeat' first
    | with_reducible intro _
    | with_reducible assumption
    | (fail_if_no_progress (extract_lets +onlyGivenNames x)
       first
       | (refine Kept.cutP (q := q) (x := x) ?_ ?_ <;> [unfold x; ((try clear_value x); intro _)])
       | clear_value x
       | skip)
    | with_reducible apply State.issue_kept
    | with_reducible apply State.faultTo_kept
    | with_reducible apply State.dataRead_kept
    | with_reducible apply State.dataUpsets_kept
    | with_reducible apply State.unlessReset_kept
    | with_reducible apply State.retireNext_kept
    | with_reducible apply State.setBank_kept
    | with_reducible apply KeptN.next
    | split
    | (refine Kept.getP ?_ (by assumption) <;> with_reducible apply State.dataRead_kept)
    | with_reducible apply Kept.id

theorem execStore_kept (a0) (a1) {s : State} (h0 : s.Kept q) : KeptN q (execStore a0 a1 s) := by
  unfold execStore
  repeat' first
    | with_reducible intro _
    | with_reducible assumption
    | (fail_if_no_progress (extract_lets +onlyGivenNames x)
       first
       | clear_value x
       | skip)
    | with_reducible apply State.issue_kept
    | with_reducible apply State.faultTo_kept
    | with_reducible apply State.retireNext_kept
    | with_reducible apply State.dataWrite_kept
    | with_reducible apply KeptN.next
    | with_reducible apply Kept.ite
    | with_reducible apply Kept.iteP
    | split
    | with_reducible apply Kept.id

theorem State.casLive_kept {s : State} (h0 : s.Kept q) (a1) (a2) (a3) : (State.casLive s a1 a2 a3).Kept q := by
  unfold State.casLive
  repeat' first
    | with_reducible intro _
    | with_reducible assumption
    | (fail_if_no_progress (extract_lets +onlyGivenNames x)
       first
       | (refine Kept.cut (q := q) (x := x) ?_ ?_ <;> [unfold x; ((try clear_value x); intro _)])
       | (refine Kept.cutP (q := q) (x := x) ?_ ?_ <;> [unfold x; ((try clear_value x); intro _)])
       | clear_value x
       | skip)
    | with_reducible apply State.dataRead_kept
    | with_reducible apply State.unlessReset_kept
    | with_reducible apply State.faultTo_kept
    | with_reducible apply State.dataWrite_kept
    | with_reducible apply State.setBank_kept
    | with_reducible apply State.retireNext_kept
    | with_reducible apply State.logAdd_kept
    | with_reducible apply Kept.ite
    | with_reducible apply Kept.iteP
    | split
    | (refine Kept.getP ?_ (by assumption) <;> with_reducible apply State.dataRead_kept)
    | with_reducible apply Kept.id

theorem execCasOp_kept (a0) (a1) (a2) {s : State} (h0 : s.Kept q) : KeptN q (execCasOp a0 a1 a2 s) := by
  unfold execCasOp
  repeat' first
    | with_reducible intro _
    | with_reducible assumption
    | (fail_if_no_progress (extract_lets +onlyGivenNames x)
       first
       | (refine Kept.cut (q := q) (x := x) ?_ ?_ <;> [unfold x; ((try clear_value x); intro _)])
       | clear_value x
       | skip)
    | with_reducible apply State.issue_kept
    | with_reducible apply State.faultTo_kept
    | with_reducible apply State.logged_kept
    | with_reducible apply State.dataUpsets_kept
    | with_reducible apply State.unlessReset_kept
    | with_reducible apply State.dataRead_kept
    | with_reducible apply State.casLive_kept
    | with_reducible apply KeptN.next
    | with_reducible apply Kept.ite
    | with_reducible apply Kept.iteP
    | split
    | (refine Kept.getP ?_ (by assumption) <;> with_reducible apply State.dataRead_kept)
    | with_reducible apply Kept.id

theorem execBranch_kept (a0) (a1) {s : State} (h0 : s.Kept q) : KeptN q (execBranch a0 a1 s) := by
  unfold execBranch
  repeat' first
    | with_reducible intro _
    | with_reducible assumption
    | with_reducible apply State.issue_kept
    | with_reducible apply State.retire_kept
    | with_reducible apply State.faultTo_kept
    | with_reducible apply KeptN.next
    | split
    | with_reducible apply Kept.id

theorem execBranchLink_kept (a0) (a1) {s : State} (h0 : s.Kept q) : KeptN q (execBranchLink a0 a1 s) := by
  unfold execBranchLink
  repeat' first
    | with_reducible intro _
    | with_reducible assumption
    | (fail_if_no_progress (extract_lets +onlyGivenNames x)
       first
       | clear_value x
       | skip)
    | with_reducible apply State.issue_kept
    | with_reducible apply State.faultTo_kept
    | with_reducible apply State.retire_kept
    | with_reducible apply State.setBank_kept
    | with_reducible apply KeptN.next
    | with_reducible apply Kept.ite
    | with_reducible apply Kept.iteP
    | split
    | with_reducible apply Kept.id

theorem execBranchReg_kept (a0) (a1) {s : State} (h0 : s.Kept q) : KeptN q (execBranchReg a0 a1 s) := by
  unfold execBranchReg
  repeat' first
    | with_reducible intro _
    | with_reducible assumption
    | (fail_if_no_progress (extract_lets +onlyGivenNames x)
       first
       | clear_value x
       | skip)
    | with_reducible apply State.issue_kept
    | with_reducible apply State.retire_kept
    | with_reducible apply State.faultTo_kept
    | with_reducible apply KeptN.next
    | with_reducible apply Kept.ite
    | with_reducible apply Kept.iteP
    | split
    | with_reducible apply Kept.id

theorem execRet_kept (a0) (a1) {s : State} (h0 : s.Kept q) : KeptN q (execRet a0 a1 s) := by
  unfold execRet
  repeat' first
    | with_reducible intro _
    | with_reducible assumption
    | (fail_if_no_progress (extract_lets +onlyGivenNames x)
       first
       | (refine Kept.cut (q := q) (x := x) ?_ ?_ <;> [unfold x; ((try clear_value x); intro _)])
       | clear_value x
       | skip)
    | with_reducible apply State.issue_kept
    | with_reducible apply State.faultTo_kept
    | with_reducible apply State.setBank_kept
    | with_reducible apply State.nmtReturn_kept
    | with_reducible apply State.retire_kept
    | with_reducible apply KeptN.next
    | with_reducible apply Kept.ite
    | with_reducible apply Kept.iteP
    | split
    | with_reducible apply Kept.id

theorem execTrap_kept (a0) (a1) {s : State} (h0 : s.Kept q) : KeptN q (execTrap a0 a1 s) := by
  unfold execTrap
  repeat' first
    | with_reducible intro _
    | with_reducible assumption
    | with_reducible apply State.issue_kept
    | with_reducible apply State.faultTo_kept
    | with_reducible apply KeptN.next
    | with_reducible apply Kept.id

theorem execHalt_kept (a0) (a1) {s : State} (h0 : s.Kept q) : KeptN q (execHalt a0 a1 s) := by
  unfold execHalt
  repeat' first
    | with_reducible intro _
    | with_reducible assumption
    | (fail_if_no_progress (extract_lets +onlyGivenNames x)
       first
       | (refine Kept.cut (q := q) (x := x) ?_ ?_ <;> [unfold x; ((try clear_value x); intro _)])
       | clear_value x
       | skip)
    | with_reducible apply State.issue_kept
    | with_reducible apply State.faultTo_kept
    | with_reducible apply State.retireNext_kept
    | with_reducible apply State.setBank_kept
    | with_reducible apply KeptN.next
    | with_reducible apply Kept.ite
    | with_reducible apply Kept.iteP
    | split
    | with_reducible apply Kept.id

end Sys2Proof.Machine
end

