-- ==== Sys2Proof/Laws/KeptDispatch.lean ====
section
/-!
SUPPORT. Every operation of Machine/Dispatch.lean keeps the stores canonical and the queue as it stands.
-/

set_option linter.unusedVariables false
set_option linter.unusedTactic false
set_option linter.unreachableTactic false
set_option linter.unnecessarySeqFocus false

namespace Sys2Proof.Machine

variable {q : List Instr}

theorem exec_kept {s : State} (h : s.Kept q) (i : Instr) : KeptN q (exec i s) := by
  cases i with
  | addOp b w => exact execAddOp_kept b w h
  | subOp b w => exact execSubOp_kept b w h
  | andOp b w => exact execAndOp_kept b w h
  | orOp b w => exact execOrOp_kept b w h
  | xorOp b w => exact execXorOp_kept b w h
  | shl b w => exact execShl_kept b w h
  | shr b w => exact execShr_kept b w h
  | sar b w => exact execSar_kept b w h
  | mul b w => exact execMul_kept b w h
  | cmp b w => exact execCmp_kept b w h
  | tst b w => exact execTst_kept b w h
  | li b w => exact execLi_kept b w h
  | lih b w => exact execLih_kept b w h
  | mov b w => exact execMov_kept b w h
  | mfl b w => exact execMfl_kept b w h
  | mtag b w => exact execMtag_kept b w h
  | load b w upsets => exact execLoad_kept b w upsets h
  | store b w => exact execStore_kept b w h
  | casOp b w upsets => exact execCasOp_kept b w upsets h
  | branch b w => exact execBranch_kept b w h
  | branchLink b w => exact execBranchLink_kept b w h
  | branchReg b w => exact execBranchReg_kept b w h
  | ret b w => exact execRet_kept b w h
  | trap b w => exact execTrap_kept b w h
  | halt b w => exact execHalt_kept b w h
  | issueCmd b w => exact execIssueCmd_kept b w h
  | issueQry b w => exact execIssueQry_kept b w h
  | issueGet b w => exact execIssueGet_kept b w h
  | wtag b w => exact execWtag_kept b w h
  | cpop b w => exact execCpop_kept b w h
  | fence b w => exact execFence_kept b w h
  | wfe b w race => exact execWfe_kept b w race h
  | tset b w => exact execTset_kept b w h
  | tclr b w => exact execTclr_kept b w h
  | readTime b w => exact execReadTime_kept b w h
  | declareNext b w => exact execDeclareNext_kept b w h
  | ckpt b w => exact execCkpt_kept b w h
  | mrecv b w => exact execMrecv_kept b w h
  | msend b w => exact execMsend_kept b w h
  | sig b w => exact execSig_kept b w h
  | runaway b => exact execRunaway_kept b h
  | commandCompletion b tag => exact execCommandCompletion_kept b tag h
  | commandTimeout b tag => exact execCommandTimeout_kept b tag h
  | commandTakesEffect b unit => exact execCommandTakesEffect_kept b unit h
  | timerFire b timer => exact execTimerFire_kept b timer h
  | wfeWake b => exact execWfeWake_kept b h
  | lockstepMismatch e => exact execLockstepMismatch_kept e h
  | livenessWatchdog e => exact execLivenessWatchdog_kept e h
  | adoption b => exact execAdoption_kept b h
  | nmtTaken b => exact execNmtTaken_kept b h
  | stkCtlRunStart ag b => exact execStkCtlRunStart_kept ag b h
  | stkCtlRunStop ag b => exact execStkCtlRunStop_kept ag b h
  | mailboxPost ag b => exact execMailboxPost_kept ag b h
  | mailboxPop ag b => exact execMailboxPop_kept ag b h
  | responseExpiry b k => exact execResponseExpiry_kept b k h
  | enterService ag => exact execEnterService_kept ag h
  | serviceEntryComplete => exact execServiceEntryComplete_kept h
  | leaveService b priv => exact execLeaveService_kept b priv h
  | registerWrite ag addr v => exact execRegisterWrite_kept ag addr v h
  | captureRead ag addr => exact execCaptureRead_kept ag addr h
  | readClear ag addr => exact execReadClear_kept ag addr h
  | laneStateRequest ag n v => exact execLaneStateRequest_kept ag n v h
  | laneTransitionEnd n => exact execLaneTransitionEnd_kept n h
  | laneRxCfgWrite ag n v => exact execLaneRxCfgWrite_kept ag n v h
  | elasticQueueOverflow n => exact execElasticQueueOverflow_kept n h
  | signalLoss n => exact execSignalLoss_kept n h
  | signalReturn n => exact execSignalReturn_kept n h
  | openInputCheck n pMv nMv => exact execOpenInputCheck_kept n pMv nMv h
  | gainLoopUpdate n => exact execGainLoopUpdate_kept n h
  | reconvSlow n => exact execReconvSlow_kept n h
  | fomWindowEnd n => exact execFomWindowEnd_kept n h
  | seasonStart ag n v => exact execSeasonStart_kept ag n v h
  | seasoningStep n withinHalfLsb trim saturated => exact execSeasoningStep_kept n withinHalfLsb trim saturated h
  | cdrLockChange n lock => exact execCdrLockChange_kept n lock h
  | cdrReacquire n => exact execCdrReacquire_kept n h
  | adaptationUpdate n samples spare => exact execAdaptationUpdate_kept n samples spare h
  | freezeRelease n gain => exact execFreezeRelease_kept n gain h
  | coefSnapshot n => exact execCoefSnapshot_kept n h
  | laneDiverged n => exact execLaneDiverged_kept n h
  | laneRxCoefData ag n write => exact execLaneRxCoefData_kept ag n write h
  | warmStale n => exact execWarmStale_kept n h
  | wakeWindowEnd n => exact execWakeWindowEnd_kept n h
  | laneConverged n => exact execLaneConverged_kept n h
  | acqTimeout n => exact execAcqTimeout_kept n h
  | wakeFallback n => exact execWakeFallback_kept n h
  | polarityChange n => exact execPolarityChange_kept n h
  | txBlockBoundary n pairs => exact execTxBlockBoundary_kept n pairs h
  | txCommit ag n v => exact execTxCommit_kept ag n v h
  | laneTxCoefData ag n write => exact execLaneTxCoefData_kept ag n write h
  | laneTxSmokeWrite ag n v => exact execLaneTxSmokeWrite_kept ag n v h
  | saturationWindow n => exact execSaturationWindow_kept n h
  | sampleQueueUnderflow n => exact execSampleQueueUnderflow_kept n h
  | dacCalibrationEnd n failed => exact execDacCalibrationEnd_kept n failed h
  | shortDetect n kind atLimit => exact execShortDetect_kept n kind atLimit h
  | shortClear n kind => exact execShortClear_kept n kind h
  | bayCfgWrite ag b v => exact execBayCfgWrite_kept ag b v h
  | bayRoleWrite ag b v => exact execBayRoleWrite_kept ag b v h
  | portLaneState ag p v => exact execPortLaneState_kept ag p v h
  | portCfgWrite ag p v => exact execPortCfgWrite_kept ag p v h
  | alignmentMarker n body complemented expected errored ns => exact execAlignmentMarker_kept n body complemented expected errored ns h
  | foreignFormatSearch p found => exact execForeignFormatSearch_kept p found h
  | codewordDecode n corrected uncorrectable => exact execCodewordDecode_kept n corrected uncorrectable h
  | degradedWindow p => exact execDegradedWindow_kept p h
  | blockRx p flag body errored => exact execBlockRx_kept p flag body errored h
  | epochNoticeSend p => exact execEpochNoticeSend_kept p h
  | epochNoticeRx p body => exact execEpochNoticeRx_kept p body h
  | clientFrameRx p frame upset => exact execClientFrameRx_kept p frame upset h
  | bundleFlush t => exact execBundleFlush_kept t h
  | bundleRelease t => exact execBundleRelease_kept t h
  | encryptDone p slotUpset => exact execEncryptDone_kept p slotUpset h
  | pipelineParityFail tx p => exact execPipelineParityFail_kept tx p h
  | rateWindow t => exact execRateWindow_kept t h
  | frameToClient t upset => exact execFrameToClient_kept t upset h
  | bundleCopyRx p copy errored => exact execBundleCopyRx_kept p copy errored h
  | decryptDone t slotUpset => exact execDecryptDone_kept t slotUpset h
  | ackMsg t cum map => exact execAckMsg_kept t cum map h
  | resendMsg t first count => exact execResendMsg_kept t first count h
  | gapMsg t first count cause => exact execGapMsg_kept t first count cause h
  | rollOffer t id c kcv => exact execRollOffer_kept t id c kcv h
  | rollAccept t id c => exact execRollAccept_kept t id c h
  | rollCommit t id c => exact execRollCommit_kept t id c h
  | rollDone t id => exact execRollDone_kept t id h
  | rollAbort t ref id reason => exact execRollAbort_kept t ref id reason h
  | controlBundleRx p copy errored => exact execControlBundleRx_kept p copy errored h
  | rollStart ag t => exact execRollStart_kept ag t h
  | rollAbortCmd ag t => exact execRollAbortCmd_kept ag t h
  | rollMessageRepeat t => exact execRollMessageRepeat_kept t h
  | rollCommitPoint t => exact execRollCommitPoint_kept t h
  | rollTimeout t rx => exact execRollTimeout_kept t rx h
  | keyLoad ag mode kek slot => exact execKeyLoad_kept ag mode kek slot h
  | keyZeroiseSlot ag slot => exact execKeyZeroiseSlot_kept ag slot h
  | keyZeroiseAll ag => exact execKeyZeroiseAll_kept ag h
  | tamperInput lows => exact execTamperInput_kept lows h
  | holdStart ag => exact execHoldStart_kept ag h
  | channelTrained c cause size x8 ranks stack => exact execChannelTrained_kept c cause size x8 ranks stack h
  | holdStop ag => exact execHoldStop_kept ag h
  | zqCalibration c => exact execZqCalibration_kept c h
  | dqsOscillatorRead c code => exact execDqsOscillatorRead_kept c code h
  | moduleTempRead c temp => exact execModuleTempRead_kept c temp h
  | holdRefresh c commands => exact execHoldRefresh_kept c commands h
  | cordFilled c => exact execCordFilled_kept c h
  | holdReadComplete c l errs retries => exact execHoldReadComplete_kept c l errs retries h
  | scrubBillet c errs => exact execScrubBillet_kept c errs h
  | rankBucketLeak c rank => exact execRankBucketLeak_kept c rank h
  | rowBucketLeak c entry => exact execRowBucketLeak_kept c entry h
  | rowScrub c errs => exact execRowScrub_kept c errs h
  | clinkerRetest c clean => exact execClinkerRetest_kept c clean h
  | softRepairRequest ag channel fromQueue => exact execSoftRepairRequest_kept ag channel fromQueue h
  | repairWindow result errs => exact execRepairWindow_kept result errs h
  | repairNoWindow => exact execRepairNoWindow_kept h
  | hardRepair ag channel fromQueue => exact execHardRepair_kept ag channel fromQueue h
  | hardRepairDone result => exact execHardRepairDone_kept result h
  | channelFail c cause => exact execChannelFail_kept c cause h
  | heldCopyTimeout kind t seq path => exact execHeldCopyTimeout_kept kind t seq path h
  | protModeWrite ag v => exact execProtModeWrite_kept ag v h
  | bundlePlace t => exact execBundlePlace_kept t h
  | switchRequest ag v => exact execSwitchRequest_kept ag v h
  | switchEffective => exact execSwitchEffective_kept h
  | switchReadyTimeout => exact execSwitchReadyTimeout_kept h
  | mergeDeadline t seq => exact execMergeDeadline_kept t seq h
  | alignmentSpill t seq path => exact execAlignmentSpill_kept t seq path h
  | alignmentReadback t seq path => exact execAlignmentReadback_kept t seq path h
  | ackTimer t => exact execAckTimer_kept t h
  | resendWaitExpiry t first => exact execResendWaitExpiry_kept t first h
  | rideCmd ag => exact execRideCmd_kept ag h
  | endRide ag => exact execEndRide_kept ag h
  | drainStart t => exact execDrainStart_kept t h
  | drainStall t => exact execDrainStall_kept t h
  | laneDecCfgWrite ag n v => exact execLaneDecCfgWrite_kept ag n v h
  | laneDecCoefData ag n write => exact execLaneDecCoefData_kept ag n write h
  | decSwitch ag n v => exact execDecSwitch_kept ag n v h
  | decOutput n samples => exact execDecOutput_kept n samples h
  | decCaptureStart ag n v => exact execDecCaptureStart_kept ag n v h
  | decCaptureStop ag n v => exact execDecCaptureStop_kept ag n v h
  | laneDecCapData ag n => exact execLaneDecCapData_kept ag n h
  | monStart ag n v => exact execMonStart_kept ag n v h
  | monStop ag n v => exact execMonStop_kept ag n v h
  | monRunEnd n => exact execMonRunEnd_kept n h
  | laneMonHistData ag n => exact execLaneMonHistData_kept ag n h
  | sqWindowEnd n => exact execSqWindowEnd_kept n h
  | smokeFrameSend n => exact execSmokeFrameSend_kept n h
  | smokeFrameEnd n => exact execSmokeFrameEnd_kept n h
  | beaconDue n => exact execBeaconDue_kept n h
  | preambleDetect n => exact execPreambleDetect_kept n h
  | smokeSyncCheck n start late freq => exact execSmokeSyncCheck_kept n start late freq h
  | smokeHeader n snr secondOpen => exact execSmokeHeader_kept n snr secondOpen h
  | smokeCapture n => exact execSmokeCapture_kept n h
  | smokeFrameRx n => exact execSmokeFrameRx_kept n h
  | smokeBeacon n payload => exact execSmokeBeacon_kept n payload h
  | smokeControl n payload => exact execSmokeControl_kept n payload h
  | smokeFault n fseq payload => exact execSmokeFault_kept n fseq payload h
  | smokeGoingDown n fseq payload => exact execSmokeGoingDown_kept n fseq payload h
  | smokeUser n fseq payload => exact execSmokeUser_kept n fseq payload h
  | smokeTxPost ag n v => exact execSmokeTxPost_kept ag n v h
  | smokeRxPop ag n v => exact execSmokeRxPop_kept ag n v h
  | smokeCfgWrite ag n v => exact execSmokeCfgWrite_kept ag n v h
  | smokeCtlWrite ag n v => exact execSmokeCtlWrite_kept ag n v h
  | eqAdaptDone eyes => exact execEqAdaptDone_kept eyes h
  | tsRx l ts skew => exact execTsRx_kept l ts skew h
  | alignTimeout ms10 => exact execAlignTimeout_kept ms10 h
  | configTimeout => exact execConfigTimeout_kept h
  | alignRx misplaced => exact execAlignRx_kept misplaced h
  | codeErrorBurst errors => exact execCodeErrorBurst_kept errors h
  | tinderRetrain ag v => exact execTinderRetrain_kept ag v h
  | tinderRead session lseq tag addr len => exact execTinderRead_kept session lseq tag addr len h
  | tinderWrite session lseq tag addr words => exact execTinderWrite_kept session lseq tag addr words h
  | tinderWritePosted session lseq tag addr words => exact execTinderWritePosted_kept session lseq tag addr words h
  | tinderOpen session lseq tag code => exact execTinderOpen_kept session lseq tag code h
  | tinderAuth session lseq tag mac => exact execTinderAuth_kept session lseq tag mac h
  | tinderClose session lseq tag => exact execTinderClose_kept session lseq tag h
  | tinderAck lseq => exact execTinderAck_kept lseq h
  | tinderNak lseq => exact execTinderNak_kept lseq h
  | badPacket bytes => exact execBadPacket_kept bytes h
  | linkAckSend => exact execLinkAckSend_kept h
  | sessionTimeout => exact execSessionTimeout_kept h
  | lockoutEnd => exact execLockoutEnd_kept h
  | spiRead addr count => exact execSpiRead_kept addr count h
  | spiWrite addr words => exact execSpiWrite_kept addr words h
  | spiStatus => exact execSpiStatus_kept h
  | spiOpen => exact execSpiOpen_kept h
  | sysAuthReq ag v => exact execSysAuthReq_kept ag v h
  | irqSourceEvent src => exact execIrqSourceEvent_kept src h
  | irqCommit => exact execIrqCommit_kept h
  | irqComplete ag v => exact execIrqComplete_kept ag v h
  | irqSwSet ag v => exact execIrqSwSet_kept ag v h
  | irqPendingWrite ag w v => exact execIrqPendingWrite_kept ag w v h
  | irqSrcWrite ag n v => exact execIrqSrcWrite_kept ag n v h
  | irqMaskWrite ag w v => exact execIrqMaskWrite_kept ag w v h
  | mempScrub region word upsets passEnds => exact execMempScrub_kept region word upsets passEnds h
  | scrubLate => exact execScrubLate_kept h
  | injectArm ag v => exact execInjectArm_kept ag v h
  | mempLogPop ag => exact execMempLogPop_kept ag h
  | errorLine lines => exact execErrorLine_kept lines h
  | blockReset src inst => exact execBlockReset_kept src inst h
  | charStatusAck ag hi v lines => exact execCharStatusAck_kept ag hi v lines h
  | faultReactWrite ag n v => exact execFaultReactWrite_kept ag n v h
  | aliveStop ag => exact execAliveStop_kept ag h
  | aliveResume ag => exact execAliveResume_kept ag h
  | aliveHalfPeriod => exact execAliveHalfPeriod_kept h
  | emberOscillatorLoss => exact execEmberOscillatorLoss_kept h
  | faultSwSet ag v => exact execFaultSwSet_kept ag v h
  | kilnRegionDone n logic rows => exact execKilnRegionDone_kept n logic rows h
  | kilnSliceStart n row => exact execKilnSliceStart_kept n row h
  | kilnSliceEnd fail passEnds => exact execKilnSliceEnd_kept fail passEnds h
  | kilnSliceAbort steps => exact execKilnSliceAbort_kept steps h
  | kilnStartTimeout n row => exact execKilnStartTimeout_kept n row h
  | kilnRetry n => exact execKilnRetry_kept n h
  | kilnStop ag v => exact execKilnStop_kept ag v h
  | mcvGo ag c v => exact execMcvGo_kept ag c v h
  | mcvStop ag c v => exact execMcvStop_kept ag c v h
  | mcvPeriodicTrigger c => exact execMcvPeriodicTrigger_kept c h
  | mcvConversionDone c data => exact execMcvConversionDone_kept c data h
  | mcvUrgent ag c v => exact execMcvUrgent_kept ag c v h
  | mcvResultRead ag c k => exact execMcvResultRead_kept ag c k h
  | mcvCaptureStart ag p v => exact execMcvCaptureStart_kept ag p v h
  | mcvCaptureStop ag p v => exact execMcvCaptureStop_kept ag p v h
  | mcvCapData ag p => exact execMcvCapData_kept ag p h
  | mcvSimTrig ag v => exact execMcvSimTrig_kept ag v h
  | referenceWake p => exact execReferenceWake_kept p h
  | converterCalibrationEnd c failed => exact execConverterCalibrationEnd_kept c failed h
  | refSelWrite ag v => exact execRefSelWrite_kept ag v h
  | referenceLoss r => exact execReferenceLoss_kept r h
  | holdoverEnd => exact execHoldoverEnd_kept h
  | blockStateEntry n work race => exact execBlockStateEntry_kept n work race h
  | blockWake n => exact execBlockWake_kept n h
  | scheduledWake n => exact execScheduledWake_kept n h
  | wakeFail n => exact execWakeFail_kept n h
  | sensorRead code convFault => exact execSensorRead_kept code convFault h
  | graceExpiry => exact execGraceExpiry_kept h
  | damperRelease => exact execDamperRelease_kept h
  | thermStop ag => exact execThermStop_kept ag h
  | orderlyStopComplete => exact execOrderlyStopComplete_kept h
  | restartOk => exact execRestartOk_kept h
  | thermRestart ag => exact execThermRestart_kept ag h
  | hardCutTrip => exact execHardCutTrip_kept h
  | hardCutRelease => exact execHardCutRelease_kept h
  | perfCntWrite ag n half v => exact execPerfCntWrite_kept ag n half v h
  | perfSelWrite ag n v => exact execPerfSelWrite_kept ag n v h
  | counterOverflow n amount => exact execCounterOverflow_kept n amount h
  | perfNow ag => exact execPerfNow_kept ag h
  | perfNowClear ag => exact execPerfNowClear_kept ag h
  | periodicSnapshot => exact execPeriodicSnapshot_kept h
  | snapshotWritten => exact execSnapshotWritten_kept h
  | perfRingTailWrite ag v => exact execPerfRingTailWrite_kept ag v h
  | powerOn => exact execPowerOn_kept h
  | resetPin => exact execResetPin_kept h
  | chipReset cause => exact execChipReset_kept cause h
  | sysResetChip ag => exact execSysResetChip_kept ag h
  | sysResetBlock ag src inst => exact execSysResetBlock_kept ag src inst h
  | supplyLow rail => exact execSupplyLow_kept rail h
  | supplyReset => exact execSupplyReset_kept h
  | bootCheck => exact execBootCheck_kept h
  | bootLoad entry => exact execBootLoad_kept entry h
  | peatData ag write => exact execPeatData_kept ag write h
  | peatWordProgram => exact execPeatWordProgram_kept h
  | peatVerify ag bank => exact execPeatVerify_kept ag bank h
  | peatVerifyDone => exact execPeatVerifyDone_kept h
  | peatActivate ag bank => exact execPeatActivate_kept ag bank h
  | ownerDigestWrite ag d => exact execOwnerDigestWrite_kept ag d h
  | ioBayPinsWrite ag b v => exact execIoBayPinsWrite_kept ag b v h
  | i2cGo ag b v => exact execI2cGo_kept ag b v h
  | i2cTransferEnd b result count data => exact execI2cTransferEnd_kept b result count data h
  | i2cTimeout b count data => exact execI2cTimeout_kept b count data h
  | modulePresence b present => exact execModulePresence_kept b present h
  | moduleInt b low => exact execModuleInt_kept b low h
  | testEnable high => exact execTestEnable_kept high h
  | jtagInstruction opcode => exact execJtagInstruction_kept opcode h
  | testLogicReset => exact execTestLogicReset_kept h
  | warmStaleClear n => exact execWarmStaleClear_kept n h
  | referenceReturn r disagree => exact execReferenceReturn_kept r disagree h
  | supplyRecovery rail => exact execSupplyRecovery_kept rail h
  | blockResetEnd src inst => exact execBlockResetEnd_kept src inst h
  | blockTransitionEnd n => exact execBlockTransitionEnd_kept n h
  | bayResetHoldEnd b => exact execBayResetHoldEnd_kept b h
  | hostAccessTimeout session => exact execHostAccessTimeout_kept session h


end Sys2Proof.Machine
end

