-- ==== Sys2Proof/Laws/KeptEngine.lean ====
section
/-!
SUPPORT. Every operation of Machine/Engine.lean keeps the stores canonical and the queue as it stands.
-/

set_option linter.unusedVariables false
set_option linter.unusedTactic false
set_option linter.unreachableTactic false
set_option linter.unnecessarySeqFocus false

namespace Sys2Proof.Machine

variable {q : List Instr}

theorem State.after_kept {s : State} (h0 : s.Kept q) {o : Host.Outcome State Fault Refusal} (ho : KeptN q o) : (State.after s o).Kept q := by
  unfold State.after
  split
  · exact ho _ rfl
  · exact h0

theorem State.issueOne_kept {s : State} (h0 : s.Kept q) (a1) : (State.issueOne s a1).Kept q := by
  unfold State.issueOne
  repeat' first
    | with_reducible intro _
    | with_reducible assumption
    | exact exec_kept (by first | assumption | (refine Kept.getP ?_ (by assumption); with_reducible apply State.memRead_kept; assumption)) _
    | exact Kept.getP (by with_reducible apply State.memRead_kept; assumption) (by assumption)
    | (show State.Kept _ _; assumption)
    | exact ‹State.Kept _ _›
    | with_reducible apply State.after_kept
    | with_reducible apply execWfeWake_kept
    | with_reducible apply State.fetch_kept
    | with_reducible apply exec_kept
    | with_reducible apply State.issue_kept
    | with_reducible apply Kept.ite
    | with_reducible apply Kept.iteP
    | split
    | (refine Kept.getP ?_ (by assumption) <;> with_reducible apply State.fetch_kept)
    | with_reducible apply Kept.id

theorem State.engineCycle_kept {s : State} (h0 : s.Kept q) (a1) : (State.engineCycle s a1).Kept q := by
  unfold State.engineCycle
  repeat' first
    | with_reducible intro _
    | with_reducible assumption
    | (fail_if_no_progress (extract_lets +onlyGivenNames x)
       first
       | (refine Kept.cut (q := q) (x := x) ?_ ?_ <;> [unfold x; ((try clear_value x); intro _)])
       | clear_value x
       | skip)
    | with_reducible apply State.after_kept
    | with_reducible apply execNmtTaken_kept
    | with_reducible apply State.issueOne_kept
    | with_reducible apply Kept.foldlFields
    | exact Reg.fields_listed _ _ (by assumption)
    | with_reducible apply Kept.foldl
    | with_reducible apply Kept.foldlP
    | with_reducible apply Kept.ite
    | split
    | fail_if_no_progress (with_reducible apply Kept.upd)

theorem State.enginesCycle_kept {s : State} (h0 : s.Kept q) : (State.enginesCycle s).Kept q := by
  unfold State.enginesCycle
  repeat' first
    | with_reducible intro _
    | with_reducible assumption
    | with_reducible apply State.engineCycle_kept
    | with_reducible apply Kept.foldlFields
    | exact Reg.fields_listed _ _ (by assumption)
    | with_reducible apply Kept.foldl
    | with_reducible apply Kept.foldlP

theorem State.timersFire_kept {s : State} (h0 : s.Kept q) : (State.timersFire s).Kept q := by
  unfold State.timersFire
  repeat' first
    | with_reducible intro _
    | with_reducible assumption
    | with_reducible apply State.after_kept
    | with_reducible apply execTimerFire_kept
    | with_reducible apply Kept.foldlFields
    | exact Reg.fields_listed _ _ (by assumption)
    | with_reducible apply Kept.foldl
    | with_reducible apply Kept.foldlP

end Sys2Proof.Machine
end

