-- ==== Sys2Proof/Laws/KeptTime.lean ====
section
/-!
SUPPORT. Every operation of Machine/Time.lean keeps the stores canonical and the queue as it stands.
-/

set_option linter.unusedVariables false
set_option linter.unusedTactic false
set_option linter.unreachableTactic false
set_option linter.unnecessarySeqFocus false

namespace Sys2Proof.Machine

variable {q : List Instr}

theorem State.bootRetry_kept {s : State} (h0 : s.Kept q) : (State.bootRetry s).Kept q := by
  unfold State.bootRetry
  repeat' first
    | with_reducible assumption
    | with_reducible apply State.bootGo_kept
    | with_reducible apply Kept.ite
    | split

theorem State.mergesGo_kept {s : State} (h0 : s.Kept q) : (State.mergesGo s).Kept q := by
  unfold State.mergesGo
  repeat' first
    | with_reducible intro _
    | with_reducible assumption
    | with_reducible apply State.mergeGo_kept
    | with_reducible apply Kept.foldlFields
    | exact Reg.fields_listed _ _ (by assumption)
    | with_reducible apply Kept.foldl
    | with_reducible apply Kept.foldlP

theorem State.tick_kept {s : State} (h0 : s.Kept q) : (State.tick s).Kept q := by
  unfold State.tick
  repeat' first
    | with_reducible assumption
    | (fail_if_no_progress (extract_lets +onlyGivenNames x)
       first
       | (refine Kept.cut (q := q) (x := x) ?_ ?_ <;> [unfold x; ((try clear_value x); intro _)])
       | clear_value x
       | skip)
    | with_reducible apply State.perf_kept
    | with_reducible apply State.powerTick_kept
    | with_reducible apply State.stopTick_kept
    | with_reducible apply State.mergesGo_kept
    | with_reducible apply State.linkTick_kept
    | with_reducible apply State.bootRetry_kept
    | with_reducible apply State.serveAll_kept
    | with_reducible apply State.enginesCycle_kept
    | with_reducible apply State.timersFire_kept
    | with_reducible apply State.hostsWait_kept
    | with_reducible apply State.cmdsWait_kept
    | with_reducible apply State.perfDrain_kept
    | with_reducible apply Kept.ite
    | split
    | fail_if_no_progress (with_reducible apply Kept.upd)

end Sys2Proof.Machine
end

