-- ==== Sys2Proof/Laws/Regs.lean ====
section
/-!
SUPPORT. What the named operations do to registers, memories and records: a read after each, and what each leaves. Raising a source or counting an event
changes registers only, and of these only those of `eventRegs`.
-/

namespace Sys2Proof.Machine

variable {s t : State}

/-! ### Registers -/

/-- A field reads what was written, cut to its width. -/
theorem State.rd_wr_self (s : State) (f : Fld) (i v : Nat) : (s.wr f i v).rd f i = v % 2 ^ f.w := RegStore.get_set_self ..

/-- A write leaves every field with another key. -/
theorem State.rd_wr_ne (s : State) {f g : Fld} {i j : Nat} (v : Nat) (h : g.key j ≠ f.key i) : (s.wr f i v).rd g j = s.rd g j :=
  RegStore.get_set_ne _ _ h

theorem Fld.key_ne_reg {f g : Fld} {i j : Nat} (h : g.reg ≠ f.reg) : g.key j ≠ f.key i := fun e => h (congrArg FKey.reg e)
theorem Fld.key_ne_lo {f g : Fld} {i j : Nat} (h : g.lo ≠ f.lo) : g.key j ≠ f.key i := fun e => h (congrArg FKey.lo e)
theorem Fld.key_ne_inst {f g : Fld} {i j : Nat} (h : j ≠ i) : g.key j ≠ f.key i := fun e => h (congrArg FKey.inst e)

/-- Two fields have one key exactly when register, instance and lowest bit agree. -/
theorem Fld.key_inj {f g : Fld} {i j : Nat} : g.key j = f.key i ↔ g.reg = f.reg ∧ j = i ∧ g.lo = f.lo := by
  simp [Fld.key]

/-! ### Only registers -/

/-- `t` is `s` but for registers of `eventRegs` and events on their way to the counters: what counting and raising give. -/
def State.Counted (s t : State) : Prop :=
  (∃ more, t = { s with regs := t.regs, perfPipe := s.perfPipe ++ more }) ∧ ∀ g j, eventRegs g.reg = false → t.rd g j = s.rd g j

theorem State.Counted.refl (s : State) : s.Counted s := ⟨⟨[], by simp⟩, fun _ _ _ => rfl⟩

theorem State.Counted.trans {u : State} (h : s.Counted t) (k : t.Counted u) : s.Counted u := by
  obtain ⟨⟨a, ha⟩, h2⟩ := h
  obtain ⟨⟨b, hb⟩, k2⟩ := k
  refine ⟨⟨a ++ b, ?_⟩, fun g j e => (k2 g j e).trans (h2 g j e)⟩
  rw [hb, ha]
  simp

theorem State.Counted.wr (h : s.Counted t) {f : Fld} (hf : eventRegs f.reg = true) (i v : Nat) : s.Counted (t.wr f i v) := by
  refine h.trans ⟨⟨[], by simp [State.wr]⟩, fun g j e => State.rd_wr_ne _ _ (Fld.key_ne_reg ?_)⟩
  intro c; rw [c, hf] at e; exact absurd e (by decide)

theorem State.Counted.put (h : s.Counted t) {f : Fld} (hf : eventRegs f.reg = true) (i : Nat) (b : Bool) : s.Counted (t.put f i b) := h.wr hf _ _
theorem State.Counted.bump (h : s.Counted t) {f : Fld} (hf : eventRegs f.reg = true) (i k : Nat) : s.Counted (t.bump f i k) := h.wr hf _ _

theorem State.Counted.foldl {α : Type} {f : State → α → State} (hf : ∀ (t : State) x, t.Counted (f t x)) (l : List α) : s.Counted (l.foldl f s) := by
  induction l generalizing s with
  | nil => exact State.Counted.refl s
  | cons x l ih => exact (hf s x).trans ih

theorem State.Counted.irqTake (s : State) (n : Nat) : s.Counted (s.irqTake n) := by
  unfold State.irqTake
  split
  · exact .refl s
  · split
    · split
      · exact .refl s
      · exact (State.Counted.refl s).put rfl _ _
    · split
      · exact (State.Counted.refl s).bump rfl _ _
      · exact ((State.Counted.refl s).wr rfl _ _).put rfl _ _

/-- Counting an event changes nothing but what is on its way to the counters. -/
theorem State.Counted.perfSpread (s : State) (ev k : Nat) : s.Counted (s.perfSpread ev k) := by
  unfold State.perfSpread
  split
  · exact .refl s
  · exact ⟨⟨[(s.time, ev, k)], rfl⟩, fun _ _ _ => rfl⟩

theorem State.Counted.perf (s : State) (ev k : Nat) : s.Counted (s.perf ev k) := State.Counted.perfSpread ..

/-- Raising a source changes nothing but the controller's words for it and what is on its way to the counters. -/
theorem State.Counted.irq (s : State) (n : Nat) : s.Counted (s.irq n) := (State.Counted.perf s _ _).trans (State.Counted.irqTake _ _)

theorem State.Counted.perfBank (s : State) (k b a : Nat) : s.Counted (s.perfBank k b a) := State.Counted.perf ..
theorem State.Counted.perfLane (s : State) (k b a : Nat) : s.Counted (s.perfLane k b a) := State.Counted.perf ..
theorem State.Counted.perfTun (s : State) (k b a : Nat) : s.Counted (s.perfTun k b a) := State.Counted.perf ..
theorem State.Counted.perfCh (s : State) (k b a : Nat) : s.Counted (s.perfCh k b a) := State.Counted.perf ..

theorem State.Counted.levelEdge (s old : State) (r : Reg) (i : Nat) : s.Counted (s.levelEdge old r i) := by
  unfold State.levelEdge
  split
  · split
    · exact State.Counted.irq _ _
    · exact .refl s
  · exact .refl s

/-! ### What becomes of a state -/

theorem State.Becomes.refl (s : State) (ev : Bool) : s.Becomes s [] ev := ⟨by simp, fun _ _ _ _ => rfl, [], by simp, fun _ => rfl⟩

/-- A state that has become something becomes it also when events are left out. -/
theorem State.Becomes.weaken {l : List (Fld × Nat × Nat)} (h : s.Becomes t l false) : s.Becomes t l true :=
  by
  obtain ⟨h1, h2, more, h3, _⟩ := h
  exact ⟨h1, fun g j a _ => h2 g j a (by simp), more, h3, by simp⟩

theorem State.Becomes.wr {l : List (Fld × Nat × Nat)} {ev : Bool} (h : s.Becomes t l ev) (f : Fld) (i v : Nat)
    (hk : ∀ p ∈ l, p.1.key p.2.1 ≠ f.key i) : s.Becomes (t.wr f i v) (l ++ [(f, i, v % 2 ^ f.w)]) ev := by
  refine ⟨?_, ?_, ?_⟩
  · intro p hp
    rcases List.mem_append.1 hp with hp | hp
    · rw [State.rd_wr_ne _ _ (hk p hp)]; exact h.1 p hp
    · simp only [List.mem_singleton] at hp; subst hp; exact State.rd_wr_self ..
  · intro g j hg he
    rw [State.rd_wr_ne _ _ (hg (f, i, v % 2 ^ f.w) (by simp))]
    exact h.2.1 g j (fun p hp => hg p (List.mem_append_left _ hp)) he
  · obtain ⟨more, h3, h4⟩ := h.2.2
    refine ⟨more, ?_, h4⟩
    show { t with regs := t.regs.set f i v } = { s with regs := t.regs.set f i v, perfPipe := s.perfPipe ++ more }
    rw [h3]

theorem State.Becomes.put {l : List (Fld × Nat × Nat)} {ev : Bool} (h : s.Becomes t l ev) (f : Fld) (i : Nat) (b : Bool) (hw : f.w ≠ 0)
    (hk : ∀ p ∈ l, p.1.key p.2.1 ≠ f.key i) : s.Becomes (t.put f i b) (l ++ [(f, i, if b then 1 else 0)]) ev := by
  have := h.wr f i (if b then 1 else 0) hk
  rwa [Nat.mod_eq_of_lt] at this
  obtain ⟨m, hm⟩ := Nat.exists_eq_succ_of_ne_zero hw
  have : 1 < 2 ^ f.w := by rw [hm]; exact Nat.one_lt_two_pow (Nat.succ_ne_zero m)
  split <;> omega

/-- Counting or raising on the way leaves what has become of the state, where no listed field belongs to `eventRegs`. -/
theorem State.Becomes.counted {l : List (Fld × Nat × Nat)} {u : State} (h : s.Becomes t l true) (c : t.Counted u)
    (hl : ∀ p ∈ l, eventRegs p.1.reg = false) : s.Becomes u l true := by
  refine ⟨fun p hp => (c.2 _ _ (hl p hp)).trans (h.1 p hp), fun g j hg he => (c.2 _ _ (he rfl)).trans (h.2.1 g j hg he), ?_⟩
  obtain ⟨⟨b, hb⟩, _⟩ := c
  obtain ⟨a, ha, _⟩ := h.2.2
  refine ⟨a ++ b, ?_, by simp⟩
  rw [hb, ha]
  simp

theorem State.Becomes.event {l : List (Fld × Nat × Nat)} (h : s.Becomes t l true) (f : Fld) (i : Nat) (hw : f.w ≠ 0) (hf : eventRegs f.reg = false)
    (hk : ∀ p ∈ l, p.1.key p.2.1 ≠ f.key i) (hl : ∀ p ∈ l, eventRegs p.1.reg = false) :
    s.Becomes (t.event f i) (l ++ [(f, i, 1)]) true := by
  refine (h.put f i true hw hk).counted (State.Counted.levelEdge ..) ?_
  intro p hp
  rcases List.mem_append.1 hp with hp | hp
  · exact hl p hp
  · simp only [List.mem_singleton] at hp; subst hp; exact hf

/-! ### Records -/

theorem State.bank_setBank_self (s : State) (b : Nat) (k : Bank) : (s.setBank b k).bank b = k := Amap.get_put_self ..
theorem State.bank_setBank_ne (s : State) {b c : Nat} (k : Bank) (h : c ≠ b) : (s.setBank b k).bank c = s.bank c := Amap.get_put_ne _ _ _ _ _ h
theorem State.lane_setLane_self (s : State) (b : Nat) (k : LaneS) : (s.setLane b k).lane b = k := Amap.get_put_self ..
theorem State.lane_setLane_ne (s : State) {b c : Nat} (k : LaneS) (h : c ≠ b) : (s.setLane b k).lane c = s.lane c := Amap.get_put_ne _ _ _ _ _ h
theorem State.sess_setSess_self (s : State) (b : Nat) (k : Sess) : (s.setSess b k).sess b = k := Amap.get_put_self ..
theorem State.sess_setSess_ne (s : State) {b c : Nat} (k : Sess) (h : c ≠ b) : (s.setSess b k).sess c = s.sess c := Amap.get_put_ne _ _ _ _ _ h
theorem State.ttx_setTtx_self (s : State) (b : Nat) (k : TunTx) : (s.setTtx b k).ttx b = k := Amap.get_put_self ..
theorem State.trx_setTrx_self (s : State) (b : Nat) (k : TunRx) : (s.setTrx b k).trx b = k := Amap.get_put_self ..
theorem State.protT_setProt_self (s : State) (b : Nat) (k : ProtT) : (s.setProt b k).protT b = k := Amap.get_put_self ..
theorem State.port_setPort_self (s : State) (b : Nat) (k : PortS) : (s.setPort b k).port b = k := Amap.get_put_self ..
theorem State.lockOf_setLock_self (s : State) (b : Nat) (k : LockS) : (s.setLock b k).lockOf b = k := Amap.get_put_self ..
theorem State.hcOf_setHc_self (s : State) (b : Nat) (k : HCh) : (s.setHc b k).hcOf b = k := Amap.get_put_self ..
theorem State.conv_setConv_self (s : State) (b : Nat) (k : Conv) : (s.setConv b k).conv b = k := Amap.get_put_self ..

theorem State.setBank_setBank (s : State) (b : Nat) (k l : Bank) : (s.setBank b k).setBank b l = s.setBank b l :=
  congrArg (fun z => { s with banks := z }) (Amap.put_put ..)
theorem State.setLane_setLane (s : State) (b : Nat) (k l : LaneS) : (s.setLane b k).setLane b l = s.setLane b l :=
  congrArg (fun z => { s with lanes := z }) (Amap.put_put ..)
theorem State.setSess_setSess (s : State) (b : Nat) (k l : Sess) : (s.setSess b k).setSess b l = s.setSess b l :=
  congrArg (fun z => { s with sessions := z }) (Amap.put_put ..)
theorem State.wr_wr (s : State) (f : Fld) (i v w : Nat) : (s.wr f i v).wr f i w = s.wr f i w :=
  congrArg (fun z => { s with regs := z }) (Amap.put_put ..)

theorem State.Counted.bank (h : s.Counted t) (b : Nat) : t.bank b = s.bank b := by obtain ⟨⟨_, h⟩, _⟩ := h; rw [h]; rfl
theorem State.Counted.lane (h : s.Counted t) (b : Nat) : t.lane b = s.lane b := by obtain ⟨⟨_, h⟩, _⟩ := h; rw [h]; rfl
theorem State.Counted.mem (h : s.Counted t) : t.mem = s.mem := by obtain ⟨⟨_, h⟩, _⟩ := h; rw [h]
theorem State.Counted.ld (h : s.Counted t) (sp : Space) (i : Nat) : t.ld sp i = s.ld sp i := by obtain ⟨⟨_, h⟩, _⟩ := h; rw [h]; rfl

/-! ### Memories -/

/-- A memory word reads what was written, cut to the memory's width, where the write's valid bit is another word. -/
theorem State.ld_st_self (s : State) (sp : Space) (i v : Nat) (h : sp ≠ .valid) : (s.st sp i v).ld sp i = v % 2 ^ sp.width := by
  unfold State.st State.ld
  simp only
  split
  · rename_i k _
    rw [Amap.get_put_ne _ _ _ _ _ (by simp [h])]
    exact Amap.get_put_self ..
  · exact Amap.get_put_self ..

/-- A write leaves every other word, the valid bits apart. -/
theorem State.ld_st_ne (s : State) {sp sq : Space} {i j : Nat} (v : Nat) (h : sq ≠ sp ∨ j ≠ i) (hv : sq ≠ .valid) :
    (s.st sp i v).ld sq j = s.ld sq j := by
  have hk : (⟨sq, j⟩ : MKey) ≠ ⟨sp, i⟩ := by
    intro e; cases e; rcases h with h | h <;> exact h rfl
  unfold State.st State.ld
  simp only
  split
  · rename_i k _
    rw [Amap.get_put_ne _ _ _ _ _ (by simp [hv]), Amap.get_put_ne _ _ _ _ _ hk]
  · rw [Amap.get_put_ne _ _ _ _ _ hk]

end Sys2Proof.Machine
end

