-- ==== Sys2Proof/Laws/State.lean ====
section
/-!
SUPPORT. One lemma per field per update of the state: what an update leaves. Later proofs rewrite with these and unfold no record update.
-/

set_option linter.unusedVariables false

namespace Sys2Proof.Machine

variable (s : State)

/-! ### wr -/

@[simp] theorem State.wr_pending (f : Fld) (i : Nat) (v : Nat) : (s.wr f i v).pending = s.pending := rfl
@[simp] theorem State.wr_resetAfter (f : Fld) (i : Nat) (v : Nat) : (s.wr f i v).resetAfter = s.resetAfter := rfl
@[simp] theorem State.wr_retrainAfter (f : Fld) (i : Nat) (v : Nat) : (s.wr f i v).retrainAfter = s.retrainAfter := rfl
@[simp] theorem State.wr_mem (f : Fld) (i : Nat) (v : Nat) : (s.wr f i v).mem = s.mem := rfl
@[simp] theorem State.wr_time (f : Fld) (i : Nat) (v : Nat) : (s.wr f i v).time = s.time := rfl
@[simp] theorem State.wr_freeCtr (f : Fld) (i : Nat) (v : Nat) : (s.wr f i v).freeCtr = s.freeCtr := rfl
@[simp] theorem State.wr_lastStatus (f : Fld) (i : Nat) (v : Nat) : (s.wr f i v).lastStatus = s.lastStatus := rfl
@[simp] theorem State.wr_lastValue (f : Fld) (i : Nat) (v : Nat) : (s.wr f i v).lastValue = s.lastValue := rfl
@[simp] theorem State.wr_out (f : Fld) (i : Nat) (v : Nat) : (s.wr f i v).out = s.out := rfl
@[simp] theorem State.wr_banks (f : Fld) (i : Nat) (v : Nat) : (s.wr f i v).banks = s.banks := rfl
@[simp] theorem State.wr_captures (f : Fld) (i : Nat) (v : Nat) : (s.wr f i v).captures = s.captures := rfl
@[simp] theorem State.wr_cmdSerial (f : Fld) (i : Nat) (v : Nat) : (s.wr f i v).cmdSerial = s.cmdSerial := rfl
@[simp] theorem State.wr_entryWait (f : Fld) (i : Nat) (v : Nat) : (s.wr f i v).entryWait = s.entryWait := rfl
@[simp] theorem State.wr_rrLast (f : Fld) (i : Nat) (v : Nat) : (s.wr f i v).rrLast = s.rrLast := rfl
@[simp] theorem State.wr_lanes (f : Fld) (i : Nat) (v : Nat) : (s.wr f i v).lanes = s.lanes := rfl
@[simp] theorem State.wr_locks (f : Fld) (i : Nat) (v : Nat) : (s.wr f i v).locks = s.locks := rfl
@[simp] theorem State.wr_ports (f : Fld) (i : Nat) (v : Nat) : (s.wr f i v).ports = s.ports := rfl
@[simp] theorem State.wr_tunTx (f : Fld) (i : Nat) (v : Nat) : (s.wr f i v).tunTx = s.tunTx := rfl
@[simp] theorem State.wr_tunRx (f : Fld) (i : Nat) (v : Nat) : (s.wr f i v).tunRx = s.tunRx := rfl
@[simp] theorem State.wr_slotUse (f : Fld) (i : Nat) (v : Nat) : (s.wr f i v).slotUse = s.slotUse := rfl
@[simp] theorem State.wr_hch (f : Fld) (i : Nat) (v : Nat) : (s.wr f i v).hch = s.hch := rfl
@[simp] theorem State.wr_held (f : Fld) (i : Nat) (v : Nat) : (s.wr f i v).held = s.held := rfl
@[simp] theorem State.wr_heldReads (f : Fld) (i : Nat) (v : Nat) : (s.wr f i v).heldReads = s.heldReads := rfl
@[simp] theorem State.wr_heldOpen (f : Fld) (i : Nat) (v : Nat) : (s.wr f i v).heldOpen = s.heldOpen := rfl
@[simp] theorem State.wr_rotor (f : Fld) (i : Nat) (v : Nat) : (s.wr f i v).rotor = s.rotor := rfl
@[simp] theorem State.wr_repair (f : Fld) (i : Nat) (v : Nat) : (s.wr f i v).repair = s.repair := rfl
@[simp] theorem State.wr_prot (f : Fld) (i : Nat) (v : Nat) : (s.wr f i v).prot = s.prot := rfl
@[simp] theorem State.wr_switchReq (f : Fld) (i : Nat) (v : Nat) : (s.wr f i v).switchReq = s.switchReq := rfl
@[simp] theorem State.wr_switchWait (f : Fld) (i : Nat) (v : Nat) : (s.wr f i v).switchWait = s.switchWait := rfl
@[simp] theorem State.wr_rideWin (f : Fld) (i : Nat) (v : Nat) : (s.wr f i v).rideWin = s.rideWin := rfl
@[simp] theorem State.wr_holdWin (f : Fld) (i : Nat) (v : Nat) : (s.wr f i v).holdWin = s.holdWin := rfl
@[simp] theorem State.wr_drainWin (f : Fld) (i : Nat) (v : Nat) : (s.wr f i v).drainWin = s.drainWin := rfl
@[simp] theorem State.wr_snap (f : Fld) (i : Nat) (v : Nat) : (s.wr f i v).snap = s.snap := rfl
@[simp] theorem State.wr_perfPipe (f : Fld) (i : Nat) (v : Nat) : (s.wr f i v).perfPipe = s.perfPipe := rfl
@[simp] theorem State.wr_perfNext (f : Fld) (i : Nat) (v : Nat) : (s.wr f i v).perfNext = s.perfNext := rfl
@[simp] theorem State.wr_snapSeq (f : Fld) (i : Nat) (v : Nat) : (s.wr f i v).snapSeq = s.snapSeq := rfl
@[simp] theorem State.wr_thermalWait (f : Fld) (i : Nat) (v : Nat) : (s.wr f i v).thermalWait = s.thermalWait := rfl
@[simp] theorem State.wr_convs (f : Fld) (i : Nat) (v : Nat) : (s.wr f i v).convs = s.convs := rfl
@[simp] theorem State.wr_caps (f : Fld) (i : Nat) (v : Nat) : (s.wr f i v).caps = s.caps := rfl
@[simp] theorem State.wr_i2c (f : Fld) (i : Nat) (v : Nat) : (s.wr f i v).i2c = s.i2c := rfl
@[simp] theorem State.wr_rstPins (f : Fld) (i : Nat) (v : Nat) : (s.wr f i v).rstPins = s.rstPins := rfl
@[simp] theorem State.wr_sessions (f : Fld) (i : Nat) (v : Nat) : (s.wr f i v).sessions = s.sessions := rfl
@[simp] theorem State.wr_hostWait (f : Fld) (i : Nat) (v : Nat) : (s.wr f i v).hostWait = s.hostWait := rfl
@[simp] theorem State.wr_lseqTx (f : Fld) (i : Nat) (v : Nat) : (s.wr f i v).lseqTx = s.lseqTx := rfl
@[simp] theorem State.wr_lseqRx (f : Fld) (i : Nat) (v : Nat) : (s.wr f i v).lseqRx = s.lseqRx := rfl
@[simp] theorem State.wr_replayBuf (f : Fld) (i : Nat) (v : Nat) : (s.wr f i v).replayBuf = s.replayBuf := rfl
@[simp] theorem State.wr_fresh (f : Fld) (i : Nat) (v : Nat) : (s.wr f i v).fresh = s.fresh := rfl
@[simp] theorem State.wr_lanesAligned (f : Fld) (i : Nat) (v : Nat) : (s.wr f i v).lanesAligned = s.lanesAligned := rfl
@[simp] theorem State.wr_tsSeen (f : Fld) (i : Nat) (v : Nat) : (s.wr f i v).tsSeen = s.tsSeen := rfl
@[simp] theorem State.wr_peerSeen (f : Fld) (i : Nat) (v : Nat) : (s.wr f i v).peerSeen = s.peerSeen := rfl
@[simp] theorem State.wr_ts2Seen (f : Fld) (i : Nat) (v : Nat) : (s.wr f i v).ts2Seen = s.ts2Seen := rfl
@[simp] theorem State.wr_peerMask (f : Fld) (i : Nat) (v : Nat) : (s.wr f i v).peerMask = s.peerMask := rfl
@[simp] theorem State.wr_misplacedAlign (f : Fld) (i : Nat) (v : Nat) : (s.wr f i v).misplacedAlign = s.misplacedAlign := rfl
@[simp] theorem State.wr_narrow (f : Fld) (i : Nat) (v : Nat) : (s.wr f i v).narrow = s.narrow := rfl
@[simp] theorem State.wr_linkFill (f : Fld) (i : Nat) (v : Nat) : (s.wr f i v).linkFill = s.linkFill := rfl
@[simp] theorem State.wr_ts2At (f : Fld) (i : Nat) (v : Nat) : (s.wr f i v).ts2At = s.ts2At := rfl
@[simp] theorem State.wr_alignAt (f : Fld) (i : Nat) (v : Nat) : (s.wr f i v).alignAt = s.alignAt := rfl
@[simp] theorem State.wr_linkAt (f : Fld) (i : Nat) (v : Nat) : (s.wr f i v).linkAt = s.linkAt := rfl
@[simp] theorem State.wr_downAt (f : Fld) (i : Nat) (v : Nat) : (s.wr f i v).downAt = s.downAt := rfl
@[simp] theorem State.wr_lockAt (f : Fld) (i : Nat) (v : Nat) : (s.wr f i v).lockAt = s.lockAt := rfl
@[simp] theorem State.wr_authFailures (f : Fld) (i : Nat) (v : Nat) : (s.wr f i v).authFailures = s.authFailures := rfl
@[simp] theorem State.wr_ackDue (f : Fld) (i : Nat) (v : Nat) : (s.wr f i v).ackDue = s.ackDue := rfl
@[simp] theorem State.wr_marks (f : Fld) (i : Nat) (v : Nat) : (s.wr f i v).marks = s.marks := rfl
@[simp] theorem State.wr_trackers (f : Fld) (i : Nat) (v : Nat) : (s.wr f i v).trackers = s.trackers := rfl
@[simp] theorem State.wr_log (f : Fld) (i : Nat) (v : Nat) : (s.wr f i v).log = s.log := rfl
@[simp] theorem State.wr_withheld (f : Fld) (i : Nat) (v : Nat) : (s.wr f i v).withheld = s.withheld := rfl
@[simp] theorem State.wr_written (f : Fld) (i : Nat) (v : Nat) : (s.wr f i v).written = s.written := rfl
@[simp] theorem State.wr_scrubFrom (f : Fld) (i : Nat) (v : Nat) : (s.wr f i v).scrubFrom = s.scrubFrom := rfl
@[simp] theorem State.wr_scrubAt (f : Fld) (i : Nat) (v : Nat) : (s.wr f i v).scrubAt = s.scrubAt := rfl
@[simp] theorem State.wr_sparesUsed (f : Fld) (i : Nat) (v : Nat) : (s.wr f i v).sparesUsed = s.sparesUsed := rfl
@[simp] theorem State.wr_nmtHeld (f : Fld) (i : Nat) (v : Nat) : (s.wr f i v).nmtHeld = s.nmtHeld := rfl
@[simp] theorem State.wr_blockResets (f : Fld) (i : Nat) (v : Nat) : (s.wr f i v).blockResets = s.blockResets := rfl
@[simp] theorem State.wr_reactResets (f : Fld) (i : Nat) (v : Nat) : (s.wr f i v).reactResets = s.reactResets := rfl
@[simp] theorem State.wr_oscLost (f : Fld) (i : Nat) (v : Nat) : (s.wr f i v).oscLost = s.oscLost := rfl
@[simp] theorem State.wr_alivePhase (f : Fld) (i : Nat) (v : Nat) : (s.wr f i v).alivePhase = s.alivePhase := rfl
@[simp] theorem State.wr_resets (f : Fld) (i : Nat) (v : Nat) : (s.wr f i v).resets = s.resets := rfl
@[simp] theorem State.wr_resetCause (f : Fld) (i : Nat) (v : Nat) : (s.wr f i v).resetCause = s.resetCause := rfl
@[simp] theorem State.wr_inReset (f : Fld) (i : Nat) (v : Nat) : (s.wr f i v).inReset = s.inReset := rfl
@[simp] theorem State.wr_sliceRegion (f : Fld) (i : Nat) (v : Nat) : (s.wr f i v).sliceRegion = s.sliceRegion := rfl
@[simp] theorem State.wr_sliceMem (f : Fld) (i : Nat) (v : Nat) : (s.wr f i v).sliceMem = s.sliceMem := rfl
@[simp] theorem State.wr_sliceRedirect (f : Fld) (i : Nat) (v : Nat) : (s.wr f i v).sliceRedirect = s.sliceRedirect := rfl
@[simp] theorem State.wr_kilnWait (f : Fld) (i : Nat) (v : Nat) : (s.wr f i v).kilnWait = s.kilnWait := rfl
@[simp] theorem State.wr_trafficAt (f : Fld) (i : Nat) (v : Nat) : (s.wr f i v).trafficAt = s.trafficAt := rfl
@[simp] theorem State.wr_kilnHeldFail (f : Fld) (i : Nat) (v : Nat) : (s.wr f i v).kilnHeldFail = s.kilnHeldFail := rfl
@[simp] theorem State.wr_moves (f : Fld) (i : Nat) (v : Nat) : (s.wr f i v).moves = s.moves := rfl
@[simp] theorem State.wr_holdAt (f : Fld) (i : Nat) (v : Nat) : (s.wr f i v).holdAt = s.holdAt := rfl
@[simp] theorem State.wr_railsLow (f : Fld) (i : Nat) (v : Nat) : (s.wr f i v).railsLow = s.railsLow := rfl
@[simp] theorem State.wr_thermAt (f : Fld) (i : Nat) (v : Nat) : (s.wr f i v).thermAt = s.thermAt := rfl
@[simp] theorem State.wr_coolAt (f : Fld) (i : Nat) (v : Nat) : (s.wr f i v).coolAt = s.coolAt := rfl
@[simp] theorem State.wr_coldAt (f : Fld) (i : Nat) (v : Nat) : (s.wr f i v).coldAt = s.coldAt := rfl
@[simp] theorem State.wr_stopDue (f : Fld) (i : Nat) (v : Nat) : (s.wr f i v).stopDue = s.stopDue := rfl
@[simp] theorem State.wr_warnSweeps (f : Fld) (i : Nat) (v : Nat) : (s.wr f i v).warnSweeps = s.warnSweeps := rfl
@[simp] theorem State.wr_stopSweeps (f : Fld) (i : Nat) (v : Nat) : (s.wr f i v).stopSweeps = s.stopSweeps := rfl
@[simp] theorem State.wr_sensorSeen (f : Fld) (i : Nat) (v : Nat) : (s.wr f i v).sensorSeen = s.sensorSeen := rfl
@[simp] theorem State.wr_cleanSweeps (f : Fld) (i : Nat) (v : Nat) : (s.wr f i v).cleanSweeps = s.cleanSweeps := rfl
@[simp] theorem State.wr_nextSensor (f : Fld) (i : Nat) (v : Nat) : (s.wr f i v).nextSensor = s.nextSensor := rfl
@[simp] theorem State.wr_cutTripped (f : Fld) (i : Nat) (v : Nat) : (s.wr f i v).cutTripped = s.cutTripped := rfl
@[simp] theorem State.wr_cutArmed (f : Fld) (i : Nat) (v : Nat) : (s.wr f i v).cutArmed = s.cutArmed := rfl
@[simp] theorem State.wr_digestDone (f : Fld) (i : Nat) (v : Nat) : (s.wr f i v).digestDone = s.digestDone := rfl
@[simp] theorem State.wr_bankVerified (f : Fld) (i : Nat) (v : Nat) : (s.wr f i v).bankVerified = s.bankVerified := rfl
@[simp] theorem State.wr_ptrBank (f : Fld) (i : Nat) (v : Nat) : (s.wr f i v).ptrBank = s.ptrBank := rfl
@[simp] theorem State.wr_ptrGen (f : Fld) (i : Nat) (v : Nat) : (s.wr f i v).ptrGen = s.ptrGen := rfl
@[simp] theorem State.wr_epochCount (f : Fld) (i : Nat) (v : Nat) : (s.wr f i v).epochCount = s.epochCount := rfl
@[simp] theorem State.wr_journal (f : Fld) (i : Nat) (v : Nat) : (s.wr f i v).journal = s.journal := rfl
@[simp] theorem State.wr_peatWord (f : Fld) (i : Nat) (v : Nat) : (s.wr f i v).peatWord = s.peatWord := rfl
@[simp] theorem State.wr_verifyBank (f : Fld) (i : Nat) (v : Nat) : (s.wr f i v).verifyBank = s.verifyBank := rfl
@[simp] theorem State.wr_accessKeys (f : Fld) (i : Nat) (v : Nat) : (s.wr f i v).accessKeys = s.accessKeys := rfl
@[simp] theorem State.wr_runMask (f : Fld) (i : Nat) (v : Nat) : (s.wr f i v).runMask = s.runMask := rfl
@[simp] theorem State.wr_serviceFlag (f : Fld) (i : Nat) (v : Nat) : (s.wr f i v).serviceFlag = s.serviceFlag := rfl
@[simp] theorem State.wr_writeList (f : Fld) (i : Nat) (v : Nat) : (s.wr f i v).writeList = s.writeList := rfl
@[simp] theorem State.wr_bootStrap (f : Fld) (i : Nat) (v : Nat) : (s.wr f i v).bootStrap = s.bootStrap := rfl
@[simp] theorem State.wr_tamperLow (f : Fld) (i : Nat) (v : Nat) : (s.wr f i v).tamperLow = s.tamperLow := rfl
@[simp] theorem State.wr_testEn (f : Fld) (i : Nat) (v : Nat) : (s.wr f i v).testEn = s.testEn := rfl
@[simp] theorem State.wr_jtag (f : Fld) (i : Nat) (v : Nat) : (s.wr f i v).jtag = s.jtag := rfl
@[simp] theorem State.ld_wr (f : Fld) (i : Nat) (v : Nat) (sq : Space) (j : Nat) : (s.wr f i v).ld sq j = s.ld sq j := rfl
@[simp] theorem State.bank_wr (f : Fld) (i : Nat) (v : Nat) (j : Nat) : (s.wr f i v).bank j = s.bank j := rfl
@[simp] theorem State.lane_wr (f : Fld) (i : Nat) (v : Nat) (j : Nat) : (s.wr f i v).lane j = s.lane j := rfl
@[simp] theorem State.sess_wr (f : Fld) (i : Nat) (v : Nat) (j : Nat) : (s.wr f i v).sess j = s.sess j := rfl
@[simp] theorem State.lockOf_wr (f : Fld) (i : Nat) (v : Nat) (j : Nat) : (s.wr f i v).lockOf j = s.lockOf j := rfl
@[simp] theorem State.port_wr (f : Fld) (i : Nat) (v : Nat) (j : Nat) : (s.wr f i v).port j = s.port j := rfl
@[simp] theorem State.ttx_wr (f : Fld) (i : Nat) (v : Nat) (j : Nat) : (s.wr f i v).ttx j = s.ttx j := rfl
@[simp] theorem State.trx_wr (f : Fld) (i : Nat) (v : Nat) (j : Nat) : (s.wr f i v).trx j = s.trx j := rfl
@[simp] theorem State.protT_wr (f : Fld) (i : Nat) (v : Nat) (j : Nat) : (s.wr f i v).protT j = s.protT j := rfl
@[simp] theorem State.hcOf_wr (f : Fld) (i : Nat) (v : Nat) (j : Nat) : (s.wr f i v).hcOf j = s.hcOf j := rfl
@[simp] theorem State.conv_wr (f : Fld) (i : Nat) (v : Nat) (j : Nat) : (s.wr f i v).conv j = s.conv j := rfl

/-! ### st -/

@[simp] theorem State.st_pending (sp : Space) (i : Nat) (v : Nat) : (s.st sp i v).pending = s.pending := rfl
@[simp] theorem State.st_resetAfter (sp : Space) (i : Nat) (v : Nat) : (s.st sp i v).resetAfter = s.resetAfter := rfl
@[simp] theorem State.st_retrainAfter (sp : Space) (i : Nat) (v : Nat) : (s.st sp i v).retrainAfter = s.retrainAfter := rfl
@[simp] theorem State.st_regs (sp : Space) (i : Nat) (v : Nat) : (s.st sp i v).regs = s.regs := rfl
@[simp] theorem State.st_time (sp : Space) (i : Nat) (v : Nat) : (s.st sp i v).time = s.time := rfl
@[simp] theorem State.st_freeCtr (sp : Space) (i : Nat) (v : Nat) : (s.st sp i v).freeCtr = s.freeCtr := rfl
@[simp] theorem State.st_lastStatus (sp : Space) (i : Nat) (v : Nat) : (s.st sp i v).lastStatus = s.lastStatus := rfl
@[simp] theorem State.st_lastValue (sp : Space) (i : Nat) (v : Nat) : (s.st sp i v).lastValue = s.lastValue := rfl
@[simp] theorem State.st_out (sp : Space) (i : Nat) (v : Nat) : (s.st sp i v).out = s.out := rfl
@[simp] theorem State.st_banks (sp : Space) (i : Nat) (v : Nat) : (s.st sp i v).banks = s.banks := rfl
@[simp] theorem State.st_captures (sp : Space) (i : Nat) (v : Nat) : (s.st sp i v).captures = s.captures := rfl
@[simp] theorem State.st_cmdSerial (sp : Space) (i : Nat) (v : Nat) : (s.st sp i v).cmdSerial = s.cmdSerial := rfl
@[simp] theorem State.st_entryWait (sp : Space) (i : Nat) (v : Nat) : (s.st sp i v).entryWait = s.entryWait := rfl
@[simp] theorem State.st_rrLast (sp : Space) (i : Nat) (v : Nat) : (s.st sp i v).rrLast = s.rrLast := rfl
@[simp] theorem State.st_lanes (sp : Space) (i : Nat) (v : Nat) : (s.st sp i v).lanes = s.lanes := rfl
@[simp] theorem State.st_locks (sp : Space) (i : Nat) (v : Nat) : (s.st sp i v).locks = s.locks := rfl
@[simp] theorem State.st_ports (sp : Space) (i : Nat) (v : Nat) : (s.st sp i v).ports = s.ports := rfl
@[simp] theorem State.st_tunTx (sp : Space) (i : Nat) (v : Nat) : (s.st sp i v).tunTx = s.tunTx := rfl
@[simp] theorem State.st_tunRx (sp : Space) (i : Nat) (v : Nat) : (s.st sp i v).tunRx = s.tunRx := rfl
@[simp] theorem State.st_slotUse (sp : Space) (i : Nat) (v : Nat) : (s.st sp i v).slotUse = s.slotUse := rfl
@[simp] theorem State.st_hch (sp : Space) (i : Nat) (v : Nat) : (s.st sp i v).hch = s.hch := rfl
@[simp] theorem State.st_held (sp : Space) (i : Nat) (v : Nat) : (s.st sp i v).held = s.held := rfl
@[simp] theorem State.st_heldReads (sp : Space) (i : Nat) (v : Nat) : (s.st sp i v).heldReads = s.heldReads := rfl
@[simp] theorem State.st_heldOpen (sp : Space) (i : Nat) (v : Nat) : (s.st sp i v).heldOpen = s.heldOpen := rfl
@[simp] theorem State.st_rotor (sp : Space) (i : Nat) (v : Nat) : (s.st sp i v).rotor = s.rotor := rfl
@[simp] theorem State.st_repair (sp : Space) (i : Nat) (v : Nat) : (s.st sp i v).repair = s.repair := rfl
@[simp] theorem State.st_prot (sp : Space) (i : Nat) (v : Nat) : (s.st sp i v).prot = s.prot := rfl
@[simp] theorem State.st_switchReq (sp : Space) (i : Nat) (v : Nat) : (s.st sp i v).switchReq = s.switchReq := rfl
@[simp] theorem State.st_switchWait (sp : Space) (i : Nat) (v : Nat) : (s.st sp i v).switchWait = s.switchWait := rfl
@[simp] theorem State.st_rideWin (sp : Space) (i : Nat) (v : Nat) : (s.st sp i v).rideWin = s.rideWin := rfl
@[simp] theorem State.st_holdWin (sp : Space) (i : Nat) (v : Nat) : (s.st sp i v).holdWin = s.holdWin := rfl
@[simp] theorem State.st_drainWin (sp : Space) (i : Nat) (v : Nat) : (s.st sp i v).drainWin = s.drainWin := rfl
@[simp] theorem State.st_snap (sp : Space) (i : Nat) (v : Nat) : (s.st sp i v).snap = s.snap := rfl
@[simp] theorem State.st_perfPipe (sp : Space) (i : Nat) (v : Nat) : (s.st sp i v).perfPipe = s.perfPipe := rfl
@[simp] theorem State.st_perfNext (sp : Space) (i : Nat) (v : Nat) : (s.st sp i v).perfNext = s.perfNext := rfl
@[simp] theorem State.st_snapSeq (sp : Space) (i : Nat) (v : Nat) : (s.st sp i v).snapSeq = s.snapSeq := rfl
@[simp] theorem State.st_thermalWait (sp : Space) (i : Nat) (v : Nat) : (s.st sp i v).thermalWait = s.thermalWait := rfl
@[simp] theorem State.st_convs (sp : Space) (i : Nat) (v : Nat) : (s.st sp i v).convs = s.convs := rfl
@[simp] theorem State.st_caps (sp : Space) (i : Nat) (v : Nat) : (s.st sp i v).caps = s.caps := rfl
@[simp] theorem State.st_i2c (sp : Space) (i : Nat) (v : Nat) : (s.st sp i v).i2c = s.i2c := rfl
@[simp] theorem State.st_rstPins (sp : Space) (i : Nat) (v : Nat) : (s.st sp i v).rstPins = s.rstPins := rfl
@[simp] theorem State.st_sessions (sp : Space) (i : Nat) (v : Nat) : (s.st sp i v).sessions = s.sessions := rfl
@[simp] theorem State.st_hostWait (sp : Space) (i : Nat) (v : Nat) : (s.st sp i v).hostWait = s.hostWait := rfl
@[simp] theorem State.st_lseqTx (sp : Space) (i : Nat) (v : Nat) : (s.st sp i v).lseqTx = s.lseqTx := rfl
@[simp] theorem State.st_lseqRx (sp : Space) (i : Nat) (v : Nat) : (s.st sp i v).lseqRx = s.lseqRx := rfl
@[simp] theorem State.st_replayBuf (sp : Space) (i : Nat) (v : Nat) : (s.st sp i v).replayBuf = s.replayBuf := rfl
@[simp] theorem State.st_fresh (sp : Space) (i : Nat) (v : Nat) : (s.st sp i v).fresh = s.fresh := rfl
@[simp] theorem State.st_lanesAligned (sp : Space) (i : Nat) (v : Nat) : (s.st sp i v).lanesAligned = s.lanesAligned := rfl
@[simp] theorem State.st_tsSeen (sp : Space) (i : Nat) (v : Nat) : (s.st sp i v).tsSeen = s.tsSeen := rfl
@[simp] theorem State.st_peerSeen (sp : Space) (i : Nat) (v : Nat) : (s.st sp i v).peerSeen = s.peerSeen := rfl
@[simp] theorem State.st_ts2Seen (sp : Space) (i : Nat) (v : Nat) : (s.st sp i v).ts2Seen = s.ts2Seen := rfl
@[simp] theorem State.st_peerMask (sp : Space) (i : Nat) (v : Nat) : (s.st sp i v).peerMask = s.peerMask := rfl
@[simp] theorem State.st_misplacedAlign (sp : Space) (i : Nat) (v : Nat) : (s.st sp i v).misplacedAlign = s.misplacedAlign := rfl
@[simp] theorem State.st_narrow (sp : Space) (i : Nat) (v : Nat) : (s.st sp i v).narrow = s.narrow := rfl
@[simp] theorem State.st_linkFill (sp : Space) (i : Nat) (v : Nat) : (s.st sp i v).linkFill = s.linkFill := rfl
@[simp] theorem State.st_ts2At (sp : Space) (i : Nat) (v : Nat) : (s.st sp i v).ts2At = s.ts2At := rfl
@[simp] theorem State.st_alignAt (sp : Space) (i : Nat) (v : Nat) : (s.st sp i v).alignAt = s.alignAt := rfl
@[simp] theorem State.st_linkAt (sp : Space) (i : Nat) (v : Nat) : (s.st sp i v).linkAt = s.linkAt := rfl
@[simp] theorem State.st_downAt (sp : Space) (i : Nat) (v : Nat) : (s.st sp i v).downAt = s.downAt := rfl
@[simp] theorem State.st_lockAt (sp : Space) (i : Nat) (v : Nat) : (s.st sp i v).lockAt = s.lockAt := rfl
@[simp] theorem State.st_authFailures (sp : Space) (i : Nat) (v : Nat) : (s.st sp i v).authFailures = s.authFailures := rfl
@[simp] theorem State.st_ackDue (sp : Space) (i : Nat) (v : Nat) : (s.st sp i v).ackDue = s.ackDue := rfl
@[simp] theorem State.st_marks (sp : Space) (i : Nat) (v : Nat) : (s.st sp i v).marks = s.marks := rfl
@[simp] theorem State.st_trackers (sp : Space) (i : Nat) (v : Nat) : (s.st sp i v).trackers = s.trackers := rfl
@[simp] theorem State.st_log (sp : Space) (i : Nat) (v : Nat) : (s.st sp i v).log = s.log := rfl
@[simp] theorem State.st_withheld (sp : Space) (i : Nat) (v : Nat) : (s.st sp i v).withheld = s.withheld := rfl
@[simp] theorem State.st_written (sp : Space) (i : Nat) (v : Nat) : (s.st sp i v).written = s.written := rfl
@[simp] theorem State.st_scrubFrom (sp : Space) (i : Nat) (v : Nat) : (s.st sp i v).scrubFrom = s.scrubFrom := rfl
@[simp] theorem State.st_scrubAt (sp : Space) (i : Nat) (v : Nat) : (s.st sp i v).scrubAt = s.scrubAt := rfl
@[simp] theorem State.st_sparesUsed (sp : Space) (i : Nat) (v : Nat) : (s.st sp i v).sparesUsed = s.sparesUsed := rfl
@[simp] theorem State.st_nmtHeld (sp : Space) (i : Nat) (v : Nat) : (s.st sp i v).nmtHeld = s.nmtHeld := rfl
@[simp] theorem State.st_blockResets (sp : Space) (i : Nat) (v : Nat) : (s.st sp i v).blockResets = s.blockResets := rfl
@[simp] theorem State.st_reactResets (sp : Space) (i : Nat) (v : Nat) : (s.st sp i v).reactResets = s.reactResets := rfl
@[simp] theorem State.st_oscLost (sp : Space) (i : Nat) (v : Nat) : (s.st sp i v).oscLost = s.oscLost := rfl
@[simp] theorem State.st_alivePhase (sp : Space) (i : Nat) (v : Nat) : (s.st sp i v).alivePhase = s.alivePhase := rfl
@[simp] theorem State.st_resets (sp : Space) (i : Nat) (v : Nat) : (s.st sp i v).resets = s.resets := rfl
@[simp] theorem State.st_resetCause (sp : Space) (i : Nat) (v : Nat) : (s.st sp i v).resetCause = s.resetCause := rfl
@[simp] theorem State.st_inReset (sp : Space) (i : Nat) (v : Nat) : (s.st sp i v).inReset = s.inReset := rfl
@[simp] theorem State.st_sliceRegion (sp : Space) (i : Nat) (v : Nat) : (s.st sp i v).sliceRegion = s.sliceRegion := rfl
@[simp] theorem State.st_sliceMem (sp : Space) (i : Nat) (v : Nat) : (s.st sp i v).sliceMem = s.sliceMem := rfl
@[simp] theorem State.st_sliceRedirect (sp : Space) (i : Nat) (v : Nat) : (s.st sp i v).sliceRedirect = s.sliceRedirect := rfl
@[simp] theorem State.st_kilnWait (sp : Space) (i : Nat) (v : Nat) : (s.st sp i v).kilnWait = s.kilnWait := rfl
@[simp] theorem State.st_trafficAt (sp : Space) (i : Nat) (v : Nat) : (s.st sp i v).trafficAt = s.trafficAt := rfl
@[simp] theorem State.st_kilnHeldFail (sp : Space) (i : Nat) (v : Nat) : (s.st sp i v).kilnHeldFail = s.kilnHeldFail := rfl
@[simp] theorem State.st_moves (sp : Space) (i : Nat) (v : Nat) : (s.st sp i v).moves = s.moves := rfl
@[simp] theorem State.st_holdAt (sp : Space) (i : Nat) (v : Nat) : (s.st sp i v).holdAt = s.holdAt := rfl
@[simp] theorem State.st_railsLow (sp : Space) (i : Nat) (v : Nat) : (s.st sp i v).railsLow = s.railsLow := rfl
@[simp] theorem State.st_thermAt (sp : Space) (i : Nat) (v : Nat) : (s.st sp i v).thermAt = s.thermAt := rfl
@[simp] theorem State.st_coolAt (sp : Space) (i : Nat) (v : Nat) : (s.st sp i v).coolAt = s.coolAt := rfl
@[simp] theorem State.st_coldAt (sp : Space) (i : Nat) (v : Nat) : (s.st sp i v).coldAt = s.coldAt := rfl
@[simp] theorem State.st_stopDue (sp : Space) (i : Nat) (v : Nat) : (s.st sp i v).stopDue = s.stopDue := rfl
@[simp] theorem State.st_warnSweeps (sp : Space) (i : Nat) (v : Nat) : (s.st sp i v).warnSweeps = s.warnSweeps := rfl
@[simp] theorem State.st_stopSweeps (sp : Space) (i : Nat) (v : Nat) : (s.st sp i v).stopSweeps = s.stopSweeps := rfl
@[simp] theorem State.st_sensorSeen (sp : Space) (i : Nat) (v : Nat) : (s.st sp i v).sensorSeen = s.sensorSeen := rfl
@[simp] theorem State.st_cleanSweeps (sp : Space) (i : Nat) (v : Nat) : (s.st sp i v).cleanSweeps = s.cleanSweeps := rfl
@[simp] theorem State.st_nextSensor (sp : Space) (i : Nat) (v : Nat) : (s.st sp i v).nextSensor = s.nextSensor := rfl
@[simp] theorem State.st_cutTripped (sp : Space) (i : Nat) (v : Nat) : (s.st sp i v).cutTripped = s.cutTripped := rfl
@[simp] theorem State.st_cutArmed (sp : Space) (i : Nat) (v : Nat) : (s.st sp i v).cutArmed = s.cutArmed := rfl
@[simp] theorem State.st_digestDone (sp : Space) (i : Nat) (v : Nat) : (s.st sp i v).digestDone = s.digestDone := rfl
@[simp] theorem State.st_bankVerified (sp : Space) (i : Nat) (v : Nat) : (s.st sp i v).bankVerified = s.bankVerified := rfl
@[simp] theorem State.st_ptrBank (sp : Space) (i : Nat) (v : Nat) : (s.st sp i v).ptrBank = s.ptrBank := rfl
@[simp] theorem State.st_ptrGen (sp : Space) (i : Nat) (v : Nat) : (s.st sp i v).ptrGen = s.ptrGen := rfl
@[simp] theorem State.st_epochCount (sp : Space) (i : Nat) (v : Nat) : (s.st sp i v).epochCount = s.epochCount := rfl
@[simp] theorem State.st_journal (sp : Space) (i : Nat) (v : Nat) : (s.st sp i v).journal = s.journal := rfl
@[simp] theorem State.st_peatWord (sp : Space) (i : Nat) (v : Nat) : (s.st sp i v).peatWord = s.peatWord := rfl
@[simp] theorem State.st_verifyBank (sp : Space) (i : Nat) (v : Nat) : (s.st sp i v).verifyBank = s.verifyBank := rfl
@[simp] theorem State.st_accessKeys (sp : Space) (i : Nat) (v : Nat) : (s.st sp i v).accessKeys = s.accessKeys := rfl
@[simp] theorem State.st_runMask (sp : Space) (i : Nat) (v : Nat) : (s.st sp i v).runMask = s.runMask := rfl
@[simp] theorem State.st_serviceFlag (sp : Space) (i : Nat) (v : Nat) : (s.st sp i v).serviceFlag = s.serviceFlag := rfl
@[simp] theorem State.st_writeList (sp : Space) (i : Nat) (v : Nat) : (s.st sp i v).writeList = s.writeList := rfl
@[simp] theorem State.st_bootStrap (sp : Space) (i : Nat) (v : Nat) : (s.st sp i v).bootStrap = s.bootStrap := rfl
@[simp] theorem State.st_tamperLow (sp : Space) (i : Nat) (v : Nat) : (s.st sp i v).tamperLow = s.tamperLow := rfl
@[simp] theorem State.st_testEn (sp : Space) (i : Nat) (v : Nat) : (s.st sp i v).testEn = s.testEn := rfl
@[simp] theorem State.st_jtag (sp : Space) (i : Nat) (v : Nat) : (s.st sp i v).jtag = s.jtag := rfl
@[simp] theorem State.rd_st (sp : Space) (i : Nat) (v : Nat) (g : Fld) (j : Nat) : (s.st sp i v).rd g j = s.rd g j := rfl
@[simp] theorem State.on_st (sp : Space) (i : Nat) (v : Nat) (g : Fld) (j : Nat) : (s.st sp i v).on g j = s.on g j := rfl
@[simp] theorem State.bank_st (sp : Space) (i : Nat) (v : Nat) (j : Nat) : (s.st sp i v).bank j = s.bank j := rfl
@[simp] theorem State.lane_st (sp : Space) (i : Nat) (v : Nat) (j : Nat) : (s.st sp i v).lane j = s.lane j := rfl
@[simp] theorem State.sess_st (sp : Space) (i : Nat) (v : Nat) (j : Nat) : (s.st sp i v).sess j = s.sess j := rfl
@[simp] theorem State.lockOf_st (sp : Space) (i : Nat) (v : Nat) (j : Nat) : (s.st sp i v).lockOf j = s.lockOf j := rfl
@[simp] theorem State.port_st (sp : Space) (i : Nat) (v : Nat) (j : Nat) : (s.st sp i v).port j = s.port j := rfl
@[simp] theorem State.ttx_st (sp : Space) (i : Nat) (v : Nat) (j : Nat) : (s.st sp i v).ttx j = s.ttx j := rfl
@[simp] theorem State.trx_st (sp : Space) (i : Nat) (v : Nat) (j : Nat) : (s.st sp i v).trx j = s.trx j := rfl
@[simp] theorem State.protT_st (sp : Space) (i : Nat) (v : Nat) (j : Nat) : (s.st sp i v).protT j = s.protT j := rfl
@[simp] theorem State.hcOf_st (sp : Space) (i : Nat) (v : Nat) (j : Nat) : (s.st sp i v).hcOf j = s.hcOf j := rfl
@[simp] theorem State.conv_st (sp : Space) (i : Nat) (v : Nat) (j : Nat) : (s.st sp i v).conv j = s.conv j := rfl
@[simp] theorem State.word_st (sp : Space) (i : Nat) (v : Nat) (r : Reg) (j : Nat) : (s.st sp i v).word r j = s.word r j := rfl

/-! ### clearMem -/

@[simp] theorem State.clearMem_pending (sp : Space) (p : Nat → Bool) : (s.clearMem sp p).pending = s.pending := rfl
@[simp] theorem State.clearMem_resetAfter (sp : Space) (p : Nat → Bool) : (s.clearMem sp p).resetAfter = s.resetAfter := rfl
@[simp] theorem State.clearMem_retrainAfter (sp : Space) (p : Nat → Bool) : (s.clearMem sp p).retrainAfter = s.retrainAfter := rfl
@[simp] theorem State.clearMem_regs (sp : Space) (p : Nat → Bool) : (s.clearMem sp p).regs = s.regs := rfl
@[simp] theorem State.clearMem_time (sp : Space) (p : Nat → Bool) : (s.clearMem sp p).time = s.time := rfl
@[simp] theorem State.clearMem_freeCtr (sp : Space) (p : Nat → Bool) : (s.clearMem sp p).freeCtr = s.freeCtr := rfl
@[simp] theorem State.clearMem_lastStatus (sp : Space) (p : Nat → Bool) : (s.clearMem sp p).lastStatus = s.lastStatus := rfl
@[simp] theorem State.clearMem_lastValue (sp : Space) (p : Nat → Bool) : (s.clearMem sp p).lastValue = s.lastValue := rfl
@[simp] theorem State.clearMem_out (sp : Space) (p : Nat → Bool) : (s.clearMem sp p).out = s.out := rfl
@[simp] theorem State.clearMem_banks (sp : Space) (p : Nat → Bool) : (s.clearMem sp p).banks = s.banks := rfl
@[simp] theorem State.clearMem_captures (sp : Space) (p : Nat → Bool) : (s.clearMem sp p).captures = s.captures := rfl
@[simp] theorem State.clearMem_cmdSerial (sp : Space) (p : Nat → Bool) : (s.clearMem sp p).cmdSerial = s.cmdSerial := rfl
@[simp] theorem State.clearMem_entryWait (sp : Space) (p : Nat → Bool) : (s.clearMem sp p).entryWait = s.entryWait := rfl
@[simp] theorem State.clearMem_rrLast (sp : Space) (p : Nat → Bool) : (s.clearMem sp p).rrLast = s.rrLast := rfl
@[simp] theorem State.clearMem_lanes (sp : Space) (p : Nat → Bool) : (s.clearMem sp p).lanes = s.lanes := rfl
@[simp] theorem State.clearMem_locks (sp : Space) (p : Nat → Bool) : (s.clearMem sp p).locks = s.locks := rfl
@[simp] theorem State.clearMem_ports (sp : Space) (p : Nat → Bool) : (s.clearMem sp p).ports = s.ports := rfl
@[simp] theorem State.clearMem_tunTx (sp : Space) (p : Nat → Bool) : (s.clearMem sp p).tunTx = s.tunTx := rfl
@[simp] theorem State.clearMem_tunRx (sp : Space) (p : Nat → Bool) : (s.clearMem sp p).tunRx = s.tunRx := rfl
@[simp] theorem State.clearMem_slotUse (sp : Space) (p : Nat → Bool) : (s.clearMem sp p).slotUse = s.slotUse := rfl
@[simp] theorem State.clearMem_hch (sp : Space) (p : Nat → Bool) : (s.clearMem sp p).hch = s.hch := rfl
@[simp] theorem State.clearMem_held (sp : Space) (p : Nat → Bool) : (s.clearMem sp p).held = s.held := rfl
@[simp] theorem State.clearMem_heldReads (sp : Space) (p : Nat → Bool) : (s.clearMem sp p).heldReads = s.heldReads := rfl
@[simp] theorem State.clearMem_heldOpen (sp : Space) (p : Nat → Bool) : (s.clearMem sp p).heldOpen = s.heldOpen := rfl
@[simp] theorem State.clearMem_rotor (sp : Space) (p : Nat → Bool) : (s.clearMem sp p).rotor = s.rotor := rfl
@[simp] theorem State.clearMem_repair (sp : Space) (p : Nat → Bool) : (s.clearMem sp p).repair = s.repair := rfl
@[simp] theorem State.clearMem_prot (sp : Space) (p : Nat → Bool) : (s.clearMem sp p).prot = s.prot := rfl
@[simp] theorem State.clearMem_switchReq (sp : Space) (p : Nat → Bool) : (s.clearMem sp p).switchReq = s.switchReq := rfl
@[simp] theorem State.clearMem_switchWait (sp : Space) (p : Nat → Bool) : (s.clearMem sp p).switchWait = s.switchWait := rfl
@[simp] theorem State.clearMem_rideWin (sp : Space) (p : Nat → Bool) : (s.clearMem sp p).rideWin = s.rideWin := rfl
@[simp] theorem State.clearMem_holdWin (sp : Space) (p : Nat → Bool) : (s.clearMem sp p).holdWin = s.holdWin := rfl
@[simp] theorem State.clearMem_drainWin (sp : Space) (p : Nat → Bool) : (s.clearMem sp p).drainWin = s.drainWin := rfl
@[simp] theorem State.clearMem_snap (sp : Space) (p : Nat → Bool) : (s.clearMem sp p).snap = s.snap := rfl
@[simp] theorem State.clearMem_perfPipe (sp : Space) (p : Nat → Bool) : (s.clearMem sp p).perfPipe = s.perfPipe := rfl
@[simp] theorem State.clearMem_perfNext (sp : Space) (p : Nat → Bool) : (s.clearMem sp p).perfNext = s.perfNext := rfl
@[simp] theorem State.clearMem_snapSeq (sp : Space) (p : Nat → Bool) : (s.clearMem sp p).snapSeq = s.snapSeq := rfl
@[simp] theorem State.clearMem_thermalWait (sp : Space) (p : Nat → Bool) : (s.clearMem sp p).thermalWait = s.thermalWait := rfl
@[simp] theorem State.clearMem_convs (sp : Space) (p : Nat → Bool) : (s.clearMem sp p).convs = s.convs := rfl
@[simp] theorem State.clearMem_caps (sp : Space) (p : Nat → Bool) : (s.clearMem sp p).caps = s.caps := rfl
@[simp] theorem State.clearMem_i2c (sp : Space) (p : Nat → Bool) : (s.clearMem sp p).i2c = s.i2c := rfl
@[simp] theorem State.clearMem_rstPins (sp : Space) (p : Nat → Bool) : (s.clearMem sp p).rstPins = s.rstPins := rfl
@[simp] theorem State.clearMem_sessions (sp : Space) (p : Nat → Bool) : (s.clearMem sp p).sessions = s.sessions := rfl
@[simp] theorem State.clearMem_hostWait (sp : Space) (p : Nat → Bool) : (s.clearMem sp p).hostWait = s.hostWait := rfl
@[simp] theorem State.clearMem_lseqTx (sp : Space) (p : Nat → Bool) : (s.clearMem sp p).lseqTx = s.lseqTx := rfl
@[simp] theorem State.clearMem_lseqRx (sp : Space) (p : Nat → Bool) : (s.clearMem sp p).lseqRx = s.lseqRx := rfl
@[simp] theorem State.clearMem_replayBuf (sp : Space) (p : Nat → Bool) : (s.clearMem sp p).replayBuf = s.replayBuf := rfl
@[simp] theorem State.clearMem_fresh (sp : Space) (p : Nat → Bool) : (s.clearMem sp p).fresh = s.fresh := rfl
@[simp] theorem State.clearMem_lanesAligned (sp : Space) (p : Nat → Bool) : (s.clearMem sp p).lanesAligned = s.lanesAligned := rfl
@[simp] theorem State.clearMem_tsSeen (sp : Space) (p : Nat → Bool) : (s.clearMem sp p).tsSeen = s.tsSeen := rfl
@[simp] theorem State.clearMem_peerSeen (sp : Space) (p : Nat → Bool) : (s.clearMem sp p).peerSeen = s.peerSeen := rfl
@[simp] theorem State.clearMem_ts2Seen (sp : Space) (p : Nat → Bool) : (s.clearMem sp p).ts2Seen = s.ts2Seen := rfl
@[simp] theorem State.clearMem_peerMask (sp : Space) (p : Nat → Bool) : (s.clearMem sp p).peerMask = s.peerMask := rfl
@[simp] theorem State.clearMem_misplacedAlign (sp : Space) (p : Nat → Bool) : (s.clearMem sp p).misplacedAlign = s.misplacedAlign := rfl
@[simp] theorem State.clearMem_narrow (sp : Space) (p : Nat → Bool) : (s.clearMem sp p).narrow = s.narrow := rfl
@[simp] theorem State.clearMem_linkFill (sp : Space) (p : Nat → Bool) : (s.clearMem sp p).linkFill = s.linkFill := rfl
@[simp] theorem State.clearMem_ts2At (sp : Space) (p : Nat → Bool) : (s.clearMem sp p).ts2At = s.ts2At := rfl
@[simp] theorem State.clearMem_alignAt (sp : Space) (p : Nat → Bool) : (s.clearMem sp p).alignAt = s.alignAt := rfl
@[simp] theorem State.clearMem_linkAt (sp : Space) (p : Nat → Bool) : (s.clearMem sp p).linkAt = s.linkAt := rfl
@[simp] theorem State.clearMem_downAt (sp : Space) (p : Nat → Bool) : (s.clearMem sp p).downAt = s.downAt := rfl
@[simp] theorem State.clearMem_lockAt (sp : Space) (p : Nat → Bool) : (s.clearMem sp p).lockAt = s.lockAt := rfl
@[simp] theorem State.clearMem_authFailures (sp : Space) (p : Nat → Bool) : (s.clearMem sp p).authFailures = s.authFailures := rfl
@[simp] theorem State.clearMem_ackDue (sp : Space) (p : Nat → Bool) : (s.clearMem sp p).ackDue = s.ackDue := rfl
@[simp] theorem State.clearMem_marks (sp : Space) (p : Nat → Bool) : (s.clearMem sp p).marks = s.marks := rfl
@[simp] theorem State.clearMem_trackers (sp : Space) (p : Nat → Bool) : (s.clearMem sp p).trackers = s.trackers := rfl
@[simp] theorem State.clearMem_log (sp : Space) (p : Nat → Bool) : (s.clearMem sp p).log = s.log := rfl
@[simp] theorem State.clearMem_withheld (sp : Space) (p : Nat → Bool) : (s.clearMem sp p).withheld = s.withheld := rfl
@[simp] theorem State.clearMem_written (sp : Space) (p : Nat → Bool) : (s.clearMem sp p).written = s.written := rfl
@[simp] theorem State.clearMem_scrubFrom (sp : Space) (p : Nat → Bool) : (s.clearMem sp p).scrubFrom = s.scrubFrom := rfl
@[simp] theorem State.clearMem_scrubAt (sp : Space) (p : Nat → Bool) : (s.clearMem sp p).scrubAt = s.scrubAt := rfl
@[simp] theorem State.clearMem_sparesUsed (sp : Space) (p : Nat → Bool) : (s.clearMem sp p).sparesUsed = s.sparesUsed := rfl
@[simp] theorem State.clearMem_nmtHeld (sp : Space) (p : Nat → Bool) : (s.clearMem sp p).nmtHeld = s.nmtHeld := rfl
@[simp] theorem State.clearMem_blockResets (sp : Space) (p : Nat → Bool) : (s.clearMem sp p).blockResets = s.blockResets := rfl
@[simp] theorem State.clearMem_reactResets (sp : Space) (p : Nat → Bool) : (s.clearMem sp p).reactResets = s.reactResets := rfl
@[simp] theorem State.clearMem_oscLost (sp : Space) (p : Nat → Bool) : (s.clearMem sp p).oscLost = s.oscLost := rfl
@[simp] theorem State.clearMem_alivePhase (sp : Space) (p : Nat → Bool) : (s.clearMem sp p).alivePhase = s.alivePhase := rfl
@[simp] theorem State.clearMem_resets (sp : Space) (p : Nat → Bool) : (s.clearMem sp p).resets = s.resets := rfl
@[simp] theorem State.clearMem_resetCause (sp : Space) (p : Nat → Bool) : (s.clearMem sp p).resetCause = s.resetCause := rfl
@[simp] theorem State.clearMem_inReset (sp : Space) (p : Nat → Bool) : (s.clearMem sp p).inReset = s.inReset := rfl
@[simp] theorem State.clearMem_sliceRegion (sp : Space) (p : Nat → Bool) : (s.clearMem sp p).sliceRegion = s.sliceRegion := rfl
@[simp] theorem State.clearMem_sliceMem (sp : Space) (p : Nat → Bool) : (s.clearMem sp p).sliceMem = s.sliceMem := rfl
@[simp] theorem State.clearMem_sliceRedirect (sp : Space) (p : Nat → Bool) : (s.clearMem sp p).sliceRedirect = s.sliceRedirect := rfl
@[simp] theorem State.clearMem_kilnWait (sp : Space) (p : Nat → Bool) : (s.clearMem sp p).kilnWait = s.kilnWait := rfl
@[simp] theorem State.clearMem_trafficAt (sp : Space) (p : Nat → Bool) : (s.clearMem sp p).trafficAt = s.trafficAt := rfl
@[simp] theorem State.clearMem_kilnHeldFail (sp : Space) (p : Nat → Bool) : (s.clearMem sp p).kilnHeldFail = s.kilnHeldFail := rfl
@[simp] theorem State.clearMem_moves (sp : Space) (p : Nat → Bool) : (s.clearMem sp p).moves = s.moves := rfl
@[simp] theorem State.clearMem_holdAt (sp : Space) (p : Nat → Bool) : (s.clearMem sp p).holdAt = s.holdAt := rfl
@[simp] theorem State.clearMem_railsLow (sp : Space) (p : Nat → Bool) : (s.clearMem sp p).railsLow = s.railsLow := rfl
@[simp] theorem State.clearMem_thermAt (sp : Space) (p : Nat → Bool) : (s.clearMem sp p).thermAt = s.thermAt := rfl
@[simp] theorem State.clearMem_coolAt (sp : Space) (p : Nat → Bool) : (s.clearMem sp p).coolAt = s.coolAt := rfl
@[simp] theorem State.clearMem_coldAt (sp : Space) (p : Nat → Bool) : (s.clearMem sp p).coldAt = s.coldAt := rfl
@[simp] theorem State.clearMem_stopDue (sp : Space) (p : Nat → Bool) : (s.clearMem sp p).stopDue = s.stopDue := rfl
@[simp] theorem State.clearMem_warnSweeps (sp : Space) (p : Nat → Bool) : (s.clearMem sp p).warnSweeps = s.warnSweeps := rfl
@[simp] theorem State.clearMem_stopSweeps (sp : Space) (p : Nat → Bool) : (s.clearMem sp p).stopSweeps = s.stopSweeps := rfl
@[simp] theorem State.clearMem_sensorSeen (sp : Space) (p : Nat → Bool) : (s.clearMem sp p).sensorSeen = s.sensorSeen := rfl
@[simp] theorem State.clearMem_cleanSweeps (sp : Space) (p : Nat → Bool) : (s.clearMem sp p).cleanSweeps = s.cleanSweeps := rfl
@[simp] theorem State.clearMem_nextSensor (sp : Space) (p : Nat → Bool) : (s.clearMem sp p).nextSensor = s.nextSensor := rfl
@[simp] theorem State.clearMem_cutTripped (sp : Space) (p : Nat → Bool) : (s.clearMem sp p).cutTripped = s.cutTripped := rfl
@[simp] theorem State.clearMem_cutArmed (sp : Space) (p : Nat → Bool) : (s.clearMem sp p).cutArmed = s.cutArmed := rfl
@[simp] theorem State.clearMem_digestDone (sp : Space) (p : Nat → Bool) : (s.clearMem sp p).digestDone = s.digestDone := rfl
@[simp] theorem State.clearMem_bankVerified (sp : Space) (p : Nat → Bool) : (s.clearMem sp p).bankVerified = s.bankVerified := rfl
@[simp] theorem State.clearMem_ptrBank (sp : Space) (p : Nat → Bool) : (s.clearMem sp p).ptrBank = s.ptrBank := rfl
@[simp] theorem State.clearMem_ptrGen (sp : Space) (p : Nat → Bool) : (s.clearMem sp p).ptrGen = s.ptrGen := rfl
@[simp] theorem State.clearMem_epochCount (sp : Space) (p : Nat → Bool) : (s.clearMem sp p).epochCount = s.epochCount := rfl
@[simp] theorem State.clearMem_journal (sp : Space) (p : Nat → Bool) : (s.clearMem sp p).journal = s.journal := rfl
@[simp] theorem State.clearMem_peatWord (sp : Space) (p : Nat → Bool) : (s.clearMem sp p).peatWord = s.peatWord := rfl
@[simp] theorem State.clearMem_verifyBank (sp : Space) (p : Nat → Bool) : (s.clearMem sp p).verifyBank = s.verifyBank := rfl
@[simp] theorem State.clearMem_accessKeys (sp : Space) (p : Nat → Bool) : (s.clearMem sp p).accessKeys = s.accessKeys := rfl
@[simp] theorem State.clearMem_runMask (sp : Space) (p : Nat → Bool) : (s.clearMem sp p).runMask = s.runMask := rfl
@[simp] theorem State.clearMem_serviceFlag (sp : Space) (p : Nat → Bool) : (s.clearMem sp p).serviceFlag = s.serviceFlag := rfl
@[simp] theorem State.clearMem_writeList (sp : Space) (p : Nat → Bool) : (s.clearMem sp p).writeList = s.writeList := rfl
@[simp] theorem State.clearMem_bootStrap (sp : Space) (p : Nat → Bool) : (s.clearMem sp p).bootStrap = s.bootStrap := rfl
@[simp] theorem State.clearMem_tamperLow (sp : Space) (p : Nat → Bool) : (s.clearMem sp p).tamperLow = s.tamperLow := rfl
@[simp] theorem State.clearMem_testEn (sp : Space) (p : Nat → Bool) : (s.clearMem sp p).testEn = s.testEn := rfl
@[simp] theorem State.clearMem_jtag (sp : Space) (p : Nat → Bool) : (s.clearMem sp p).jtag = s.jtag := rfl
@[simp] theorem State.rd_clearMem (sp : Space) (p : Nat → Bool) (g : Fld) (j : Nat) : (s.clearMem sp p).rd g j = s.rd g j := rfl
@[simp] theorem State.on_clearMem (sp : Space) (p : Nat → Bool) (g : Fld) (j : Nat) : (s.clearMem sp p).on g j = s.on g j := rfl
@[simp] theorem State.bank_clearMem (sp : Space) (p : Nat → Bool) (j : Nat) : (s.clearMem sp p).bank j = s.bank j := rfl
@[simp] theorem State.lane_clearMem (sp : Space) (p : Nat → Bool) (j : Nat) : (s.clearMem sp p).lane j = s.lane j := rfl
@[simp] theorem State.sess_clearMem (sp : Space) (p : Nat → Bool) (j : Nat) : (s.clearMem sp p).sess j = s.sess j := rfl
@[simp] theorem State.lockOf_clearMem (sp : Space) (p : Nat → Bool) (j : Nat) : (s.clearMem sp p).lockOf j = s.lockOf j := rfl
@[simp] theorem State.port_clearMem (sp : Space) (p : Nat → Bool) (j : Nat) : (s.clearMem sp p).port j = s.port j := rfl
@[simp] theorem State.ttx_clearMem (sp : Space) (p : Nat → Bool) (j : Nat) : (s.clearMem sp p).ttx j = s.ttx j := rfl
@[simp] theorem State.trx_clearMem (sp : Space) (p : Nat → Bool) (j : Nat) : (s.clearMem sp p).trx j = s.trx j := rfl
@[simp] theorem State.protT_clearMem (sp : Space) (p : Nat → Bool) (j : Nat) : (s.clearMem sp p).protT j = s.protT j := rfl
@[simp] theorem State.hcOf_clearMem (sp : Space) (p : Nat → Bool) (j : Nat) : (s.clearMem sp p).hcOf j = s.hcOf j := rfl
@[simp] theorem State.conv_clearMem (sp : Space) (p : Nat → Bool) (j : Nat) : (s.clearMem sp p).conv j = s.conv j := rfl
@[simp] theorem State.word_clearMem (sp : Space) (p : Nat → Bool) (r : Reg) (j : Nat) : (s.clearMem sp p).word r j = s.word r j := rfl

/-! ### setBank -/

@[simp] theorem State.setBank_pending (b : Nat) (k : Bank) : (s.setBank b k).pending = s.pending := rfl
@[simp] theorem State.setBank_resetAfter (b : Nat) (k : Bank) : (s.setBank b k).resetAfter = s.resetAfter := rfl
@[simp] theorem State.setBank_retrainAfter (b : Nat) (k : Bank) : (s.setBank b k).retrainAfter = s.retrainAfter := rfl
@[simp] theorem State.setBank_regs (b : Nat) (k : Bank) : (s.setBank b k).regs = s.regs := rfl
@[simp] theorem State.setBank_mem (b : Nat) (k : Bank) : (s.setBank b k).mem = s.mem := rfl
@[simp] theorem State.setBank_time (b : Nat) (k : Bank) : (s.setBank b k).time = s.time := rfl
@[simp] theorem State.setBank_freeCtr (b : Nat) (k : Bank) : (s.setBank b k).freeCtr = s.freeCtr := rfl
@[simp] theorem State.setBank_lastStatus (b : Nat) (k : Bank) : (s.setBank b k).lastStatus = s.lastStatus := rfl
@[simp] theorem State.setBank_lastValue (b : Nat) (k : Bank) : (s.setBank b k).lastValue = s.lastValue := rfl
@[simp] theorem State.setBank_out (b : Nat) (k : Bank) : (s.setBank b k).out = s.out := rfl
@[simp] theorem State.setBank_captures (b : Nat) (k : Bank) : (s.setBank b k).captures = s.captures := rfl
@[simp] theorem State.setBank_cmdSerial (b : Nat) (k : Bank) : (s.setBank b k).cmdSerial = s.cmdSerial := rfl
@[simp] theorem State.setBank_entryWait (b : Nat) (k : Bank) : (s.setBank b k).entryWait = s.entryWait := rfl
@[simp] theorem State.setBank_rrLast (b : Nat) (k : Bank) : (s.setBank b k).rrLast = s.rrLast := rfl
@[simp] theorem State.setBank_lanes (b : Nat) (k : Bank) : (s.setBank b k).lanes = s.lanes := rfl
@[simp] theorem State.setBank_locks (b : Nat) (k : Bank) : (s.setBank b k).locks = s.locks := rfl
@[simp] theorem State.setBank_ports (b : Nat) (k : Bank) : (s.setBank b k).ports = s.ports := rfl
@[simp] theorem State.setBank_tunTx (b : Nat) (k : Bank) : (s.setBank b k).tunTx = s.tunTx := rfl
@[simp] theorem State.setBank_tunRx (b : Nat) (k : Bank) : (s.setBank b k).tunRx = s.tunRx := rfl
@[simp] theorem State.setBank_slotUse (b : Nat) (k : Bank) : (s.setBank b k).slotUse = s.slotUse := rfl
@[simp] theorem State.setBank_hch (b : Nat) (k : Bank) : (s.setBank b k).hch = s.hch := rfl
@[simp] theorem State.setBank_held (b : Nat) (k : Bank) : (s.setBank b k).held = s.held := rfl
@[simp] theorem State.setBank_heldReads (b : Nat) (k : Bank) : (s.setBank b k).heldReads = s.heldReads := rfl
@[simp] theorem State.setBank_heldOpen (b : Nat) (k : Bank) : (s.setBank b k).heldOpen = s.heldOpen := rfl
@[simp] theorem State.setBank_rotor (b : Nat) (k : Bank) : (s.setBank b k).rotor = s.rotor := rfl
@[simp] theorem State.setBank_repair (b : Nat) (k : Bank) : (s.setBank b k).repair = s.repair := rfl
@[simp] theorem State.setBank_prot (b : Nat) (k : Bank) : (s.setBank b k).prot = s.prot := rfl
@[simp] theorem State.setBank_switchReq (b : Nat) (k : Bank) : (s.setBank b k).switchReq = s.switchReq := rfl
@[simp] theorem State.setBank_switchWait (b : Nat) (k : Bank) : (s.setBank b k).switchWait = s.switchWait := rfl
@[simp] theorem State.setBank_rideWin (b : Nat) (k : Bank) : (s.setBank b k).rideWin = s.rideWin := rfl
@[simp] theorem State.setBank_holdWin (b : Nat) (k : Bank) : (s.setBank b k).holdWin = s.holdWin := rfl
@[simp] theorem State.setBank_drainWin (b : Nat) (k : Bank) : (s.setBank b k).drainWin = s.drainWin := rfl
@[simp] theorem State.setBank_snap (b : Nat) (k : Bank) : (s.setBank b k).snap = s.snap := rfl
@[simp] theorem State.setBank_perfPipe (b : Nat) (k : Bank) : (s.setBank b k).perfPipe = s.perfPipe := rfl
@[simp] theorem State.setBank_perfNext (b : Nat) (k : Bank) : (s.setBank b k).perfNext = s.perfNext := rfl
@[simp] theorem State.setBank_snapSeq (b : Nat) (k : Bank) : (s.setBank b k).snapSeq = s.snapSeq := rfl
@[simp] theorem State.setBank_thermalWait (b : Nat) (k : Bank) : (s.setBank b k).thermalWait = s.thermalWait := rfl
@[simp] theorem State.setBank_convs (b : Nat) (k : Bank) : (s.setBank b k).convs = s.convs := rfl
@[simp] theorem State.setBank_caps (b : Nat) (k : Bank) : (s.setBank b k).caps = s.caps := rfl
@[simp] theorem State.setBank_i2c (b : Nat) (k : Bank) : (s.setBank b k).i2c = s.i2c := rfl
@[simp] theorem State.setBank_rstPins (b : Nat) (k : Bank) : (s.setBank b k).rstPins = s.rstPins := rfl
@[simp] theorem State.setBank_sessions (b : Nat) (k : Bank) : (s.setBank b k).sessions = s.sessions := rfl
@[simp] theorem State.setBank_hostWait (b : Nat) (k : Bank) : (s.setBank b k).hostWait = s.hostWait := rfl
@[simp] theorem State.setBank_lseqTx (b : Nat) (k : Bank) : (s.setBank b k).lseqTx = s.lseqTx := rfl
@[simp] theorem State.setBank_lseqRx (b : Nat) (k : Bank) : (s.setBank b k).lseqRx = s.lseqRx := rfl
@[simp] theorem State.setBank_replayBuf (b : Nat) (k : Bank) : (s.setBank b k).replayBuf = s.replayBuf := rfl
@[simp] theorem State.setBank_fresh (b : Nat) (k : Bank) : (s.setBank b k).fresh = s.fresh := rfl
@[simp] theorem State.setBank_lanesAligned (b : Nat) (k : Bank) : (s.setBank b k).lanesAligned = s.lanesAligned := rfl
@[simp] theorem State.setBank_tsSeen (b : Nat) (k : Bank) : (s.setBank b k).tsSeen = s.tsSeen := rfl
@[simp] theorem State.setBank_peerSeen (b : Nat) (k : Bank) : (s.setBank b k).peerSeen = s.peerSeen := rfl
@[simp] theorem State.setBank_ts2Seen (b : Nat) (k : Bank) : (s.setBank b k).ts2Seen = s.ts2Seen := rfl
@[simp] theorem State.setBank_peerMask (b : Nat) (k : Bank) : (s.setBank b k).peerMask = s.peerMask := rfl
@[simp] theorem State.setBank_misplacedAlign (b : Nat) (k : Bank) : (s.setBank b k).misplacedAlign = s.misplacedAlign := rfl
@[simp] theorem State.setBank_narrow (b : Nat) (k : Bank) : (s.setBank b k).narrow = s.narrow := rfl
@[simp] theorem State.setBank_linkFill (b : Nat) (k : Bank) : (s.setBank b k).linkFill = s.linkFill := rfl
@[simp] theorem State.setBank_ts2At (b : Nat) (k : Bank) : (s.setBank b k).ts2At = s.ts2At := rfl
@[simp] theorem State.setBank_alignAt (b : Nat) (k : Bank) : (s.setBank b k).alignAt = s.alignAt := rfl
@[simp] theorem State.setBank_linkAt (b : Nat) (k : Bank) : (s.setBank b k).linkAt = s.linkAt := rfl
@[simp] theorem State.setBank_downAt (b : Nat) (k : Bank) : (s.setBank b k).downAt = s.downAt := rfl
@[simp] theorem State.setBank_lockAt (b : Nat) (k : Bank) : (s.setBank b k).lockAt = s.lockAt := rfl
@[simp] theorem State.setBank_authFailures (b : Nat) (k : Bank) : (s.setBank b k).authFailures = s.authFailures := rfl
@[simp] theorem State.setBank_ackDue (b : Nat) (k : Bank) : (s.setBank b k).ackDue = s.ackDue := rfl
@[simp] theorem State.setBank_marks (b : Nat) (k : Bank) : (s.setBank b k).marks = s.marks := rfl
@[simp] theorem State.setBank_trackers (b : Nat) (k : Bank) : (s.setBank b k).trackers = s.trackers := rfl
@[simp] theorem State.setBank_log (b : Nat) (k : Bank) : (s.setBank b k).log = s.log := rfl
@[simp] theorem State.setBank_withheld (b : Nat) (k : Bank) : (s.setBank b k).withheld = s.withheld := rfl
@[simp] theorem State.setBank_written (b : Nat) (k : Bank) : (s.setBank b k).written = s.written := rfl
@[simp] theorem State.setBank_scrubFrom (b : Nat) (k : Bank) : (s.setBank b k).scrubFrom = s.scrubFrom := rfl
@[simp] theorem State.setBank_scrubAt (b : Nat) (k : Bank) : (s.setBank b k).scrubAt = s.scrubAt := rfl
@[simp] theorem State.setBank_sparesUsed (b : Nat) (k : Bank) : (s.setBank b k).sparesUsed = s.sparesUsed := rfl
@[simp] theorem State.setBank_nmtHeld (b : Nat) (k : Bank) : (s.setBank b k).nmtHeld = s.nmtHeld := rfl
@[simp] theorem State.setBank_blockResets (b : Nat) (k : Bank) : (s.setBank b k).blockResets = s.blockResets := rfl
@[simp] theorem State.setBank_reactResets (b : Nat) (k : Bank) : (s.setBank b k).reactResets = s.reactResets := rfl
@[simp] theorem State.setBank_oscLost (b : Nat) (k : Bank) : (s.setBank b k).oscLost = s.oscLost := rfl
@[simp] theorem State.setBank_alivePhase (b : Nat) (k : Bank) : (s.setBank b k).alivePhase = s.alivePhase := rfl
@[simp] theorem State.setBank_resets (b : Nat) (k : Bank) : (s.setBank b k).resets = s.resets := rfl
@[simp] theorem State.setBank_resetCause (b : Nat) (k : Bank) : (s.setBank b k).resetCause = s.resetCause := rfl
@[simp] theorem State.setBank_inReset (b : Nat) (k : Bank) : (s.setBank b k).inReset = s.inReset := rfl
@[simp] theorem State.setBank_sliceRegion (b : Nat) (k : Bank) : (s.setBank b k).sliceRegion = s.sliceRegion := rfl
@[simp] theorem State.setBank_sliceMem (b : Nat) (k : Bank) : (s.setBank b k).sliceMem = s.sliceMem := rfl
@[simp] theorem State.setBank_sliceRedirect (b : Nat) (k : Bank) : (s.setBank b k).sliceRedirect = s.sliceRedirect := rfl
@[simp] theorem State.setBank_kilnWait (b : Nat) (k : Bank) : (s.setBank b k).kilnWait = s.kilnWait := rfl
@[simp] theorem State.setBank_trafficAt (b : Nat) (k : Bank) : (s.setBank b k).trafficAt = s.trafficAt := rfl
@[simp] theorem State.setBank_kilnHeldFail (b : Nat) (k : Bank) : (s.setBank b k).kilnHeldFail = s.kilnHeldFail := rfl
@[simp] theorem State.setBank_moves (b : Nat) (k : Bank) : (s.setBank b k).moves = s.moves := rfl
@[simp] theorem State.setBank_holdAt (b : Nat) (k : Bank) : (s.setBank b k).holdAt = s.holdAt := rfl
@[simp] theorem State.setBank_railsLow (b : Nat) (k : Bank) : (s.setBank b k).railsLow = s.railsLow := rfl
@[simp] theorem State.setBank_thermAt (b : Nat) (k : Bank) : (s.setBank b k).thermAt = s.thermAt := rfl
@[simp] theorem State.setBank_coolAt (b : Nat) (k : Bank) : (s.setBank b k).coolAt = s.coolAt := rfl
@[simp] theorem State.setBank_coldAt (b : Nat) (k : Bank) : (s.setBank b k).coldAt = s.coldAt := rfl
@[simp] theorem State.setBank_stopDue (b : Nat) (k : Bank) : (s.setBank b k).stopDue = s.stopDue := rfl
@[simp] theorem State.setBank_warnSweeps (b : Nat) (k : Bank) : (s.setBank b k).warnSweeps = s.warnSweeps := rfl
@[simp] theorem State.setBank_stopSweeps (b : Nat) (k : Bank) : (s.setBank b k).stopSweeps = s.stopSweeps := rfl
@[simp] theorem State.setBank_sensorSeen (b : Nat) (k : Bank) : (s.setBank b k).sensorSeen = s.sensorSeen := rfl
@[simp] theorem State.setBank_cleanSweeps (b : Nat) (k : Bank) : (s.setBank b k).cleanSweeps = s.cleanSweeps := rfl
@[simp] theorem State.setBank_nextSensor (b : Nat) (k : Bank) : (s.setBank b k).nextSensor = s.nextSensor := rfl
@[simp] theorem State.setBank_cutTripped (b : Nat) (k : Bank) : (s.setBank b k).cutTripped = s.cutTripped := rfl
@[simp] theorem State.setBank_cutArmed (b : Nat) (k : Bank) : (s.setBank b k).cutArmed = s.cutArmed := rfl
@[simp] theorem State.setBank_digestDone (b : Nat) (k : Bank) : (s.setBank b k).digestDone = s.digestDone := rfl
@[simp] theorem State.setBank_bankVerified (b : Nat) (k : Bank) : (s.setBank b k).bankVerified = s.bankVerified := rfl
@[simp] theorem State.setBank_ptrBank (b : Nat) (k : Bank) : (s.setBank b k).ptrBank = s.ptrBank := rfl
@[simp] theorem State.setBank_ptrGen (b : Nat) (k : Bank) : (s.setBank b k).ptrGen = s.ptrGen := rfl
@[simp] theorem State.setBank_epochCount (b : Nat) (k : Bank) : (s.setBank b k).epochCount = s.epochCount := rfl
@[simp] theorem State.setBank_journal (b : Nat) (k : Bank) : (s.setBank b k).journal = s.journal := rfl
@[simp] theorem State.setBank_peatWord (b : Nat) (k : Bank) : (s.setBank b k).peatWord = s.peatWord := rfl
@[simp] theorem State.setBank_verifyBank (b : Nat) (k : Bank) : (s.setBank b k).verifyBank = s.verifyBank := rfl
@[simp] theorem State.setBank_accessKeys (b : Nat) (k : Bank) : (s.setBank b k).accessKeys = s.accessKeys := rfl
@[simp] theorem State.setBank_runMask (b : Nat) (k : Bank) : (s.setBank b k).runMask = s.runMask := rfl
@[simp] theorem State.setBank_serviceFlag (b : Nat) (k : Bank) : (s.setBank b k).serviceFlag = s.serviceFlag := rfl
@[simp] theorem State.setBank_writeList (b : Nat) (k : Bank) : (s.setBank b k).writeList = s.writeList := rfl
@[simp] theorem State.setBank_bootStrap (b : Nat) (k : Bank) : (s.setBank b k).bootStrap = s.bootStrap := rfl
@[simp] theorem State.setBank_tamperLow (b : Nat) (k : Bank) : (s.setBank b k).tamperLow = s.tamperLow := rfl
@[simp] theorem State.setBank_testEn (b : Nat) (k : Bank) : (s.setBank b k).testEn = s.testEn := rfl
@[simp] theorem State.setBank_jtag (b : Nat) (k : Bank) : (s.setBank b k).jtag = s.jtag := rfl
@[simp] theorem State.rd_setBank (b : Nat) (k : Bank) (g : Fld) (j : Nat) : (s.setBank b k).rd g j = s.rd g j := rfl
@[simp] theorem State.on_setBank (b : Nat) (k : Bank) (g : Fld) (j : Nat) : (s.setBank b k).on g j = s.on g j := rfl
@[simp] theorem State.ld_setBank (b : Nat) (k : Bank) (sq : Space) (j : Nat) : (s.setBank b k).ld sq j = s.ld sq j := rfl
@[simp] theorem State.lane_setBank (b : Nat) (k : Bank) (j : Nat) : (s.setBank b k).lane j = s.lane j := rfl
@[simp] theorem State.sess_setBank (b : Nat) (k : Bank) (j : Nat) : (s.setBank b k).sess j = s.sess j := rfl
@[simp] theorem State.lockOf_setBank (b : Nat) (k : Bank) (j : Nat) : (s.setBank b k).lockOf j = s.lockOf j := rfl
@[simp] theorem State.port_setBank (b : Nat) (k : Bank) (j : Nat) : (s.setBank b k).port j = s.port j := rfl
@[simp] theorem State.ttx_setBank (b : Nat) (k : Bank) (j : Nat) : (s.setBank b k).ttx j = s.ttx j := rfl
@[simp] theorem State.trx_setBank (b : Nat) (k : Bank) (j : Nat) : (s.setBank b k).trx j = s.trx j := rfl
@[simp] theorem State.protT_setBank (b : Nat) (k : Bank) (j : Nat) : (s.setBank b k).protT j = s.protT j := rfl
@[simp] theorem State.hcOf_setBank (b : Nat) (k : Bank) (j : Nat) : (s.setBank b k).hcOf j = s.hcOf j := rfl
@[simp] theorem State.conv_setBank (b : Nat) (k : Bank) (j : Nat) : (s.setBank b k).conv j = s.conv j := rfl
@[simp] theorem State.word_setBank (b : Nat) (k : Bank) (r : Reg) (j : Nat) : (s.setBank b k).word r j = s.word r j := rfl

/-! ### setLane -/

@[simp] theorem State.setLane_pending (n : Nat) (l : LaneS) : (s.setLane n l).pending = s.pending := rfl
@[simp] theorem State.setLane_resetAfter (n : Nat) (l : LaneS) : (s.setLane n l).resetAfter = s.resetAfter := rfl
@[simp] theorem State.setLane_retrainAfter (n : Nat) (l : LaneS) : (s.setLane n l).retrainAfter = s.retrainAfter := rfl
@[simp] theorem State.setLane_regs (n : Nat) (l : LaneS) : (s.setLane n l).regs = s.regs := rfl
@[simp] theorem State.setLane_mem (n : Nat) (l : LaneS) : (s.setLane n l).mem = s.mem := rfl
@[simp] theorem State.setLane_time (n : Nat) (l : LaneS) : (s.setLane n l).time = s.time := rfl
@[simp] theorem State.setLane_freeCtr (n : Nat) (l : LaneS) : (s.setLane n l).freeCtr = s.freeCtr := rfl
@[simp] theorem State.setLane_lastStatus (n : Nat) (l : LaneS) : (s.setLane n l).lastStatus = s.lastStatus := rfl
@[simp] theorem State.setLane_lastValue (n : Nat) (l : LaneS) : (s.setLane n l).lastValue = s.lastValue := rfl
@[simp] theorem State.setLane_out (n : Nat) (l : LaneS) : (s.setLane n l).out = s.out := rfl
@[simp] theorem State.setLane_banks (n : Nat) (l : LaneS) : (s.setLane n l).banks = s.banks := rfl
@[simp] theorem State.setLane_captures (n : Nat) (l : LaneS) : (s.setLane n l).captures = s.captures := rfl
@[simp] theorem State.setLane_cmdSerial (n : Nat) (l : LaneS) : (s.setLane n l).cmdSerial = s.cmdSerial := rfl
@[simp] theorem State.setLane_entryWait (n : Nat) (l : LaneS) : (s.setLane n l).entryWait = s.entryWait := rfl
@[simp] theorem State.setLane_rrLast (n : Nat) (l : LaneS) : (s.setLane n l).rrLast = s.rrLast := rfl
@[simp] theorem State.setLane_locks (n : Nat) (l : LaneS) : (s.setLane n l).locks = s.locks := rfl
@[simp] theorem State.setLane_ports (n : Nat) (l : LaneS) : (s.setLane n l).ports = s.ports := rfl
@[simp] theorem State.setLane_tunTx (n : Nat) (l : LaneS) : (s.setLane n l).tunTx = s.tunTx := rfl
@[simp] theorem State.setLane_tunRx (n : Nat) (l : LaneS) : (s.setLane n l).tunRx = s.tunRx := rfl
@[simp] theorem State.setLane_slotUse (n : Nat) (l : LaneS) : (s.setLane n l).slotUse = s.slotUse := rfl
@[simp] theorem State.setLane_hch (n : Nat) (l : LaneS) : (s.setLane n l).hch = s.hch := rfl
@[simp] theorem State.setLane_held (n : Nat) (l : LaneS) : (s.setLane n l).held = s.held := rfl
@[simp] theorem State.setLane_heldReads (n : Nat) (l : LaneS) : (s.setLane n l).heldReads = s.heldReads := rfl
@[simp] theorem State.setLane_heldOpen (n : Nat) (l : LaneS) : (s.setLane n l).heldOpen = s.heldOpen := rfl
@[simp] theorem State.setLane_rotor (n : Nat) (l : LaneS) : (s.setLane n l).rotor = s.rotor := rfl
@[simp] theorem State.setLane_repair (n : Nat) (l : LaneS) : (s.setLane n l).repair = s.repair := rfl
@[simp] theorem State.setLane_prot (n : Nat) (l : LaneS) : (s.setLane n l).prot = s.prot := rfl
@[simp] theorem State.setLane_switchReq (n : Nat) (l : LaneS) : (s.setLane n l).switchReq = s.switchReq := rfl
@[simp] theorem State.setLane_switchWait (n : Nat) (l : LaneS) : (s.setLane n l).switchWait = s.switchWait := rfl
@[simp] theorem State.setLane_rideWin (n : Nat) (l : LaneS) : (s.setLane n l).rideWin = s.rideWin := rfl
@[simp] theorem State.setLane_holdWin (n : Nat) (l : LaneS) : (s.setLane n l).holdWin = s.holdWin := rfl
@[simp] theorem State.setLane_drainWin (n : Nat) (l : LaneS) : (s.setLane n l).drainWin = s.drainWin := rfl
@[simp] theorem State.setLane_snap (n : Nat) (l : LaneS) : (s.setLane n l).snap = s.snap := rfl
@[simp] theorem State.setLane_perfPipe (n : Nat) (l : LaneS) : (s.setLane n l).perfPipe = s.perfPipe := rfl
@[simp] theorem State.setLane_perfNext (n : Nat) (l : LaneS) : (s.setLane n l).perfNext = s.perfNext := rfl
@[simp] theorem State.setLane_snapSeq (n : Nat) (l : LaneS) : (s.setLane n l).snapSeq = s.snapSeq := rfl
@[simp] theorem State.setLane_thermalWait (n : Nat) (l : LaneS) : (s.setLane n l).thermalWait = s.thermalWait := rfl
@[simp] theorem State.setLane_convs (n : Nat) (l : LaneS) : (s.setLane n l).convs = s.convs := rfl
@[simp] theorem State.setLane_caps (n : Nat) (l : LaneS) : (s.setLane n l).caps = s.caps := rfl
@[simp] theorem State.setLane_i2c (n : Nat) (l : LaneS) : (s.setLane n l).i2c = s.i2c := rfl
@[simp] theorem State.setLane_rstPins (n : Nat) (l : LaneS) : (s.setLane n l).rstPins = s.rstPins := rfl
@[simp] theorem State.setLane_sessions (n : Nat) (l : LaneS) : (s.setLane n l).sessions = s.sessions := rfl
@[simp] theorem State.setLane_hostWait (n : Nat) (l : LaneS) : (s.setLane n l).hostWait = s.hostWait := rfl
@[simp] theorem State.setLane_lseqTx (n : Nat) (l : LaneS) : (s.setLane n l).lseqTx = s.lseqTx := rfl
@[simp] theorem State.setLane_lseqRx (n : Nat) (l : LaneS) : (s.setLane n l).lseqRx = s.lseqRx := rfl
@[simp] theorem State.setLane_replayBuf (n : Nat) (l : LaneS) : (s.setLane n l).replayBuf = s.replayBuf := rfl
@[simp] theorem State.setLane_fresh (n : Nat) (l : LaneS) : (s.setLane n l).fresh = s.fresh := rfl
@[simp] theorem State.setLane_lanesAligned (n : Nat) (l : LaneS) : (s.setLane n l).lanesAligned = s.lanesAligned := rfl
@[simp] theorem State.setLane_tsSeen (n : Nat) (l : LaneS) : (s.setLane n l).tsSeen = s.tsSeen := rfl
@[simp] theorem State.setLane_peerSeen (n : Nat) (l : LaneS) : (s.setLane n l).peerSeen = s.peerSeen := rfl
@[simp] theorem State.setLane_ts2Seen (n : Nat) (l : LaneS) : (s.setLane n l).ts2Seen = s.ts2Seen := rfl
@[simp] theorem State.setLane_peerMask (n : Nat) (l : LaneS) : (s.setLane n l).peerMask = s.peerMask := rfl
@[simp] theorem State.setLane_misplacedAlign (n : Nat) (l : LaneS) : (s.setLane n l).misplacedAlign = s.misplacedAlign := rfl
@[simp] theorem State.setLane_narrow (n : Nat) (l : LaneS) : (s.setLane n l).narrow = s.narrow := rfl
@[simp] theorem State.setLane_linkFill (n : Nat) (l : LaneS) : (s.setLane n l).linkFill = s.linkFill := rfl
@[simp] theorem State.setLane_ts2At (n : Nat) (l : LaneS) : (s.setLane n l).ts2At = s.ts2At := rfl
@[simp] theorem State.setLane_alignAt (n : Nat) (l : LaneS) : (s.setLane n l).alignAt = s.alignAt := rfl
@[simp] theorem State.setLane_linkAt (n : Nat) (l : LaneS) : (s.setLane n l).linkAt = s.linkAt := rfl
@[simp] theorem State.setLane_downAt (n : Nat) (l : LaneS) : (s.setLane n l).downAt = s.downAt := rfl
@[simp] theorem State.setLane_lockAt (n : Nat) (l : LaneS) : (s.setLane n l).lockAt = s.lockAt := rfl
@[simp] theorem State.setLane_authFailures (n : Nat) (l : LaneS) : (s.setLane n l).authFailures = s.authFailures := rfl
@[simp] theorem State.setLane_ackDue (n : Nat) (l : LaneS) : (s.setLane n l).ackDue = s.ackDue := rfl
@[simp] theorem State.setLane_marks (n : Nat) (l : LaneS) : (s.setLane n l).marks = s.marks := rfl
@[simp] theorem State.setLane_trackers (n : Nat) (l : LaneS) : (s.setLane n l).trackers = s.trackers := rfl
@[simp] theorem State.setLane_log (n : Nat) (l : LaneS) : (s.setLane n l).log = s.log := rfl
@[simp] theorem State.setLane_withheld (n : Nat) (l : LaneS) : (s.setLane n l).withheld = s.withheld := rfl
@[simp] theorem State.setLane_written (n : Nat) (l : LaneS) : (s.setLane n l).written = s.written := rfl
@[simp] theorem State.setLane_scrubFrom (n : Nat) (l : LaneS) : (s.setLane n l).scrubFrom = s.scrubFrom := rfl
@[simp] theorem State.setLane_scrubAt (n : Nat) (l : LaneS) : (s.setLane n l).scrubAt = s.scrubAt := rfl
@[simp] theorem State.setLane_sparesUsed (n : Nat) (l : LaneS) : (s.setLane n l).sparesUsed = s.sparesUsed := rfl
@[simp] theorem State.setLane_nmtHeld (n : Nat) (l : LaneS) : (s.setLane n l).nmtHeld = s.nmtHeld := rfl
@[simp] theorem State.setLane_blockResets (n : Nat) (l : LaneS) : (s.setLane n l).blockResets = s.blockResets := rfl
@[simp] theorem State.setLane_reactResets (n : Nat) (l : LaneS) : (s.setLane n l).reactResets = s.reactResets := rfl
@[simp] theorem State.setLane_oscLost (n : Nat) (l : LaneS) : (s.setLane n l).oscLost = s.oscLost := rfl
@[simp] theorem State.setLane_alivePhase (n : Nat) (l : LaneS) : (s.setLane n l).alivePhase = s.alivePhase := rfl
@[simp] theorem State.setLane_resets (n : Nat) (l : LaneS) : (s.setLane n l).resets = s.resets := rfl
@[simp] theorem State.setLane_resetCause (n : Nat) (l : LaneS) : (s.setLane n l).resetCause = s.resetCause := rfl
@[simp] theorem State.setLane_inReset (n : Nat) (l : LaneS) : (s.setLane n l).inReset = s.inReset := rfl
@[simp] theorem State.setLane_sliceRegion (n : Nat) (l : LaneS) : (s.setLane n l).sliceRegion = s.sliceRegion := rfl
@[simp] theorem State.setLane_sliceMem (n : Nat) (l : LaneS) : (s.setLane n l).sliceMem = s.sliceMem := rfl
@[simp] theorem State.setLane_sliceRedirect (n : Nat) (l : LaneS) : (s.setLane n l).sliceRedirect = s.sliceRedirect := rfl
@[simp] theorem State.setLane_kilnWait (n : Nat) (l : LaneS) : (s.setLane n l).kilnWait = s.kilnWait := rfl
@[simp] theorem State.setLane_trafficAt (n : Nat) (l : LaneS) : (s.setLane n l).trafficAt = s.trafficAt := rfl
@[simp] theorem State.setLane_kilnHeldFail (n : Nat) (l : LaneS) : (s.setLane n l).kilnHeldFail = s.kilnHeldFail := rfl
@[simp] theorem State.setLane_moves (n : Nat) (l : LaneS) : (s.setLane n l).moves = s.moves := rfl
@[simp] theorem State.setLane_holdAt (n : Nat) (l : LaneS) : (s.setLane n l).holdAt = s.holdAt := rfl
@[simp] theorem State.setLane_railsLow (n : Nat) (l : LaneS) : (s.setLane n l).railsLow = s.railsLow := rfl
@[simp] theorem State.setLane_thermAt (n : Nat) (l : LaneS) : (s.setLane n l).thermAt = s.thermAt := rfl
@[simp] theorem State.setLane_coolAt (n : Nat) (l : LaneS) : (s.setLane n l).coolAt = s.coolAt := rfl
@[simp] theorem State.setLane_coldAt (n : Nat) (l : LaneS) : (s.setLane n l).coldAt = s.coldAt := rfl
@[simp] theorem State.setLane_stopDue (n : Nat) (l : LaneS) : (s.setLane n l).stopDue = s.stopDue := rfl
@[simp] theorem State.setLane_warnSweeps (n : Nat) (l : LaneS) : (s.setLane n l).warnSweeps = s.warnSweeps := rfl
@[simp] theorem State.setLane_stopSweeps (n : Nat) (l : LaneS) : (s.setLane n l).stopSweeps = s.stopSweeps := rfl
@[simp] theorem State.setLane_sensorSeen (n : Nat) (l : LaneS) : (s.setLane n l).sensorSeen = s.sensorSeen := rfl
@[simp] theorem State.setLane_cleanSweeps (n : Nat) (l : LaneS) : (s.setLane n l).cleanSweeps = s.cleanSweeps := rfl
@[simp] theorem State.setLane_nextSensor (n : Nat) (l : LaneS) : (s.setLane n l).nextSensor = s.nextSensor := rfl
@[simp] theorem State.setLane_cutTripped (n : Nat) (l : LaneS) : (s.setLane n l).cutTripped = s.cutTripped := rfl
@[simp] theorem State.setLane_cutArmed (n : Nat) (l : LaneS) : (s.setLane n l).cutArmed = s.cutArmed := rfl
@[simp] theorem State.setLane_digestDone (n : Nat) (l : LaneS) : (s.setLane n l).digestDone = s.digestDone := rfl
@[simp] theorem State.setLane_bankVerified (n : Nat) (l : LaneS) : (s.setLane n l).bankVerified = s.bankVerified := rfl
@[simp] theorem State.setLane_ptrBank (n : Nat) (l : LaneS) : (s.setLane n l).ptrBank = s.ptrBank := rfl
@[simp] theorem State.setLane_ptrGen (n : Nat) (l : LaneS) : (s.setLane n l).ptrGen = s.ptrGen := rfl
@[simp] theorem State.setLane_epochCount (n : Nat) (l : LaneS) : (s.setLane n l).epochCount = s.epochCount := rfl
@[simp] theorem State.setLane_journal (n : Nat) (l : LaneS) : (s.setLane n l).journal = s.journal := rfl
@[simp] theorem State.setLane_peatWord (n : Nat) (l : LaneS) : (s.setLane n l).peatWord = s.peatWord := rfl
@[simp] theorem State.setLane_verifyBank (n : Nat) (l : LaneS) : (s.setLane n l).verifyBank = s.verifyBank := rfl
@[simp] theorem State.setLane_accessKeys (n : Nat) (l : LaneS) : (s.setLane n l).accessKeys = s.accessKeys := rfl
@[simp] theorem State.setLane_runMask (n : Nat) (l : LaneS) : (s.setLane n l).runMask = s.runMask := rfl
@[simp] theorem State.setLane_serviceFlag (n : Nat) (l : LaneS) : (s.setLane n l).serviceFlag = s.serviceFlag := rfl
@[simp] theorem State.setLane_writeList (n : Nat) (l : LaneS) : (s.setLane n l).writeList = s.writeList := rfl
@[simp] theorem State.setLane_bootStrap (n : Nat) (l : LaneS) : (s.setLane n l).bootStrap = s.bootStrap := rfl
@[simp] theorem State.setLane_tamperLow (n : Nat) (l : LaneS) : (s.setLane n l).tamperLow = s.tamperLow := rfl
@[simp] theorem State.setLane_testEn (n : Nat) (l : LaneS) : (s.setLane n l).testEn = s.testEn := rfl
@[simp] theorem State.setLane_jtag (n : Nat) (l : LaneS) : (s.setLane n l).jtag = s.jtag := rfl
@[simp] theorem State.rd_setLane (n : Nat) (l : LaneS) (g : Fld) (j : Nat) : (s.setLane n l).rd g j = s.rd g j := rfl
@[simp] theorem State.on_setLane (n : Nat) (l : LaneS) (g : Fld) (j : Nat) : (s.setLane n l).on g j = s.on g j := rfl
@[simp] theorem State.ld_setLane (n : Nat) (l : LaneS) (sq : Space) (j : Nat) : (s.setLane n l).ld sq j = s.ld sq j := rfl
@[simp] theorem State.bank_setLane (n : Nat) (l : LaneS) (j : Nat) : (s.setLane n l).bank j = s.bank j := rfl
@[simp] theorem State.sess_setLane (n : Nat) (l : LaneS) (j : Nat) : (s.setLane n l).sess j = s.sess j := rfl
@[simp] theorem State.lockOf_setLane (n : Nat) (l : LaneS) (j : Nat) : (s.setLane n l).lockOf j = s.lockOf j := rfl
@[simp] theorem State.port_setLane (n : Nat) (l : LaneS) (j : Nat) : (s.setLane n l).port j = s.port j := rfl
@[simp] theorem State.ttx_setLane (n : Nat) (l : LaneS) (j : Nat) : (s.setLane n l).ttx j = s.ttx j := rfl
@[simp] theorem State.trx_setLane (n : Nat) (l : LaneS) (j : Nat) : (s.setLane n l).trx j = s.trx j := rfl
@[simp] theorem State.protT_setLane (n : Nat) (l : LaneS) (j : Nat) : (s.setLane n l).protT j = s.protT j := rfl
@[simp] theorem State.hcOf_setLane (n : Nat) (l : LaneS) (j : Nat) : (s.setLane n l).hcOf j = s.hcOf j := rfl
@[simp] theorem State.conv_setLane (n : Nat) (l : LaneS) (j : Nat) : (s.setLane n l).conv j = s.conv j := rfl
@[simp] theorem State.word_setLane (n : Nat) (l : LaneS) (r : Reg) (j : Nat) : (s.setLane n l).word r j = s.word r j := rfl

/-! ### setSess -/

@[simp] theorem State.setSess_pending (k : Nat) (x : Sess) : (s.setSess k x).pending = s.pending := rfl
@[simp] theorem State.setSess_resetAfter (k : Nat) (x : Sess) : (s.setSess k x).resetAfter = s.resetAfter := rfl
@[simp] theorem State.setSess_retrainAfter (k : Nat) (x : Sess) : (s.setSess k x).retrainAfter = s.retrainAfter := rfl
@[simp] theorem State.setSess_regs (k : Nat) (x : Sess) : (s.setSess k x).regs = s.regs := rfl
@[simp] theorem State.setSess_mem (k : Nat) (x : Sess) : (s.setSess k x).mem = s.mem := rfl
@[simp] theorem State.setSess_time (k : Nat) (x : Sess) : (s.setSess k x).time = s.time := rfl
@[simp] theorem State.setSess_freeCtr (k : Nat) (x : Sess) : (s.setSess k x).freeCtr = s.freeCtr := rfl
@[simp] theorem State.setSess_lastStatus (k : Nat) (x : Sess) : (s.setSess k x).lastStatus = s.lastStatus := rfl
@[simp] theorem State.setSess_lastValue (k : Nat) (x : Sess) : (s.setSess k x).lastValue = s.lastValue := rfl
@[simp] theorem State.setSess_out (k : Nat) (x : Sess) : (s.setSess k x).out = s.out := rfl
@[simp] theorem State.setSess_banks (k : Nat) (x : Sess) : (s.setSess k x).banks = s.banks := rfl
@[simp] theorem State.setSess_captures (k : Nat) (x : Sess) : (s.setSess k x).captures = s.captures := rfl
@[simp] theorem State.setSess_cmdSerial (k : Nat) (x : Sess) : (s.setSess k x).cmdSerial = s.cmdSerial := rfl
@[simp] theorem State.setSess_entryWait (k : Nat) (x : Sess) : (s.setSess k x).entryWait = s.entryWait := rfl
@[simp] theorem State.setSess_rrLast (k : Nat) (x : Sess) : (s.setSess k x).rrLast = s.rrLast := rfl
@[simp] theorem State.setSess_lanes (k : Nat) (x : Sess) : (s.setSess k x).lanes = s.lanes := rfl
@[simp] theorem State.setSess_locks (k : Nat) (x : Sess) : (s.setSess k x).locks = s.locks := rfl
@[simp] theorem State.setSess_ports (k : Nat) (x : Sess) : (s.setSess k x).ports = s.ports := rfl
@[simp] theorem State.setSess_tunTx (k : Nat) (x : Sess) : (s.setSess k x).tunTx = s.tunTx := rfl
@[simp] theorem State.setSess_tunRx (k : Nat) (x : Sess) : (s.setSess k x).tunRx = s.tunRx := rfl
@[simp] theorem State.setSess_slotUse (k : Nat) (x : Sess) : (s.setSess k x).slotUse = s.slotUse := rfl
@[simp] theorem State.setSess_hch (k : Nat) (x : Sess) : (s.setSess k x).hch = s.hch := rfl
@[simp] theorem State.setSess_held (k : Nat) (x : Sess) : (s.setSess k x).held = s.held := rfl
@[simp] theorem State.setSess_heldReads (k : Nat) (x : Sess) : (s.setSess k x).heldReads = s.heldReads := rfl
@[simp] theorem State.setSess_heldOpen (k : Nat) (x : Sess) : (s.setSess k x).heldOpen = s.heldOpen := rfl
@[simp] theorem State.setSess_rotor (k : Nat) (x : Sess) : (s.setSess k x).rotor = s.rotor := rfl
@[simp] theorem State.setSess_repair (k : Nat) (x : Sess) : (s.setSess k x).repair = s.repair := rfl
@[simp] theorem State.setSess_prot (k : Nat) (x : Sess) : (s.setSess k x).prot = s.prot := rfl
@[simp] theorem State.setSess_switchReq (k : Nat) (x : Sess) : (s.setSess k x).switchReq = s.switchReq := rfl
@[simp] theorem State.setSess_switchWait (k : Nat) (x : Sess) : (s.setSess k x).switchWait = s.switchWait := rfl
@[simp] theorem State.setSess_rideWin (k : Nat) (x : Sess) : (s.setSess k x).rideWin = s.rideWin := rfl
@[simp] theorem State.setSess_holdWin (k : Nat) (x : Sess) : (s.setSess k x).holdWin = s.holdWin := rfl
@[simp] theorem State.setSess_drainWin (k : Nat) (x : Sess) : (s.setSess k x).drainWin = s.drainWin := rfl
@[simp] theorem State.setSess_snap (k : Nat) (x : Sess) : (s.setSess k x).snap = s.snap := rfl
@[simp] theorem State.setSess_perfPipe (k : Nat) (x : Sess) : (s.setSess k x).perfPipe = s.perfPipe := rfl
@[simp] theorem State.setSess_perfNext (k : Nat) (x : Sess) : (s.setSess k x).perfNext = s.perfNext := rfl
@[simp] theorem State.setSess_snapSeq (k : Nat) (x : Sess) : (s.setSess k x).snapSeq = s.snapSeq := rfl
@[simp] theorem State.setSess_thermalWait (k : Nat) (x : Sess) : (s.setSess k x).thermalWait = s.thermalWait := rfl
@[simp] theorem State.setSess_convs (k : Nat) (x : Sess) : (s.setSess k x).convs = s.convs := rfl
@[simp] theorem State.setSess_caps (k : Nat) (x : Sess) : (s.setSess k x).caps = s.caps := rfl
@[simp] theorem State.setSess_i2c (k : Nat) (x : Sess) : (s.setSess k x).i2c = s.i2c := rfl
@[simp] theorem State.setSess_rstPins (k : Nat) (x : Sess) : (s.setSess k x).rstPins = s.rstPins := rfl
@[simp] theorem State.setSess_hostWait (k : Nat) (x : Sess) : (s.setSess k x).hostWait = s.hostWait := rfl
@[simp] theorem State.setSess_lseqTx (k : Nat) (x : Sess) : (s.setSess k x).lseqTx = s.lseqTx := rfl
@[simp] theorem State.setSess_lseqRx (k : Nat) (x : Sess) : (s.setSess k x).lseqRx = s.lseqRx := rfl
@[simp] theorem State.setSess_replayBuf (k : Nat) (x : Sess) : (s.setSess k x).replayBuf = s.replayBuf := rfl
@[simp] theorem State.setSess_fresh (k : Nat) (x : Sess) : (s.setSess k x).fresh = s.fresh := rfl
@[simp] theorem State.setSess_lanesAligned (k : Nat) (x : Sess) : (s.setSess k x).lanesAligned = s.lanesAligned := rfl
@[simp] theorem State.setSess_tsSeen (k : Nat) (x : Sess) : (s.setSess k x).tsSeen = s.tsSeen := rfl
@[simp] theorem State.setSess_peerSeen (k : Nat) (x : Sess) : (s.setSess k x).peerSeen = s.peerSeen := rfl
@[simp] theorem State.setSess_ts2Seen (k : Nat) (x : Sess) : (s.setSess k x).ts2Seen = s.ts2Seen := rfl
@[simp] theorem State.setSess_peerMask (k : Nat) (x : Sess) : (s.setSess k x).peerMask = s.peerMask := rfl
@[simp] theorem State.setSess_misplacedAlign (k : Nat) (x : Sess) : (s.setSess k x).misplacedAlign = s.misplacedAlign := rfl
@[simp] theorem State.setSess_narrow (k : Nat) (x : Sess) : (s.setSess k x).narrow = s.narrow := rfl
@[simp] theorem State.setSess_linkFill (k : Nat) (x : Sess) : (s.setSess k x).linkFill = s.linkFill := rfl
@[simp] theorem State.setSess_ts2At (k : Nat) (x : Sess) : (s.setSess k x).ts2At = s.ts2At := rfl
@[simp] theorem State.setSess_alignAt (k : Nat) (x : Sess) : (s.setSess k x).alignAt = s.alignAt := rfl
@[simp] theorem State.setSess_linkAt (k : Nat) (x : Sess) : (s.setSess k x).linkAt = s.linkAt := rfl
@[simp] theorem State.setSess_downAt (k : Nat) (x : Sess) : (s.setSess k x).downAt = s.downAt := rfl
@[simp] theorem State.setSess_lockAt (k : Nat) (x : Sess) : (s.setSess k x).lockAt = s.lockAt := rfl
@[simp] theorem State.setSess_authFailures (k : Nat) (x : Sess) : (s.setSess k x).authFailures = s.authFailures := rfl
@[simp] theorem State.setSess_ackDue (k : Nat) (x : Sess) : (s.setSess k x).ackDue = s.ackDue := rfl
@[simp] theorem State.setSess_marks (k : Nat) (x : Sess) : (s.setSess k x).marks = s.marks := rfl
@[simp] theorem State.setSess_trackers (k : Nat) (x : Sess) : (s.setSess k x).trackers = s.trackers := rfl
@[simp] theorem State.setSess_log (k : Nat) (x : Sess) : (s.setSess k x).log = s.log := rfl
@[simp] theorem State.setSess_withheld (k : Nat) (x : Sess) : (s.setSess k x).withheld = s.withheld := rfl
@[simp] theorem State.setSess_written (k : Nat) (x : Sess) : (s.setSess k x).written = s.written := rfl
@[simp] theorem State.setSess_scrubFrom (k : Nat) (x : Sess) : (s.setSess k x).scrubFrom = s.scrubFrom := rfl
@[simp] theorem State.setSess_scrubAt (k : Nat) (x : Sess) : (s.setSess k x).scrubAt = s.scrubAt := rfl
@[simp] theorem State.setSess_sparesUsed (k : Nat) (x : Sess) : (s.setSess k x).sparesUsed = s.sparesUsed := rfl
@[simp] theorem State.setSess_nmtHeld (k : Nat) (x : Sess) : (s.setSess k x).nmtHeld = s.nmtHeld := rfl
@[simp] theorem State.setSess_blockResets (k : Nat) (x : Sess) : (s.setSess k x).blockResets = s.blockResets := rfl
@[simp] theorem State.setSess_reactResets (k : Nat) (x : Sess) : (s.setSess k x).reactResets = s.reactResets := rfl
@[simp] theorem State.setSess_oscLost (k : Nat) (x : Sess) : (s.setSess k x).oscLost = s.oscLost := rfl
@[simp] theorem State.setSess_alivePhase (k : Nat) (x : Sess) : (s.setSess k x).alivePhase = s.alivePhase := rfl
@[simp] theorem State.setSess_resets (k : Nat) (x : Sess) : (s.setSess k x).resets = s.resets := rfl
@[simp] theorem State.setSess_resetCause (k : Nat) (x : Sess) : (s.setSess k x).resetCause = s.resetCause := rfl
@[simp] theorem State.setSess_inReset (k : Nat) (x : Sess) : (s.setSess k x).inReset = s.inReset := rfl
@[simp] theorem State.setSess_sliceRegion (k : Nat) (x : Sess) : (s.setSess k x).sliceRegion = s.sliceRegion := rfl
@[simp] theorem State.setSess_sliceMem (k : Nat) (x : Sess) : (s.setSess k x).sliceMem = s.sliceMem := rfl
@[simp] theorem State.setSess_sliceRedirect (k : Nat) (x : Sess) : (s.setSess k x).sliceRedirect = s.sliceRedirect := rfl
@[simp] theorem State.setSess_kilnWait (k : Nat) (x : Sess) : (s.setSess k x).kilnWait = s.kilnWait := rfl
@[simp] theorem State.setSess_trafficAt (k : Nat) (x : Sess) : (s.setSess k x).trafficAt = s.trafficAt := rfl
@[simp] theorem State.setSess_kilnHeldFail (k : Nat) (x : Sess) : (s.setSess k x).kilnHeldFail = s.kilnHeldFail := rfl
@[simp] theorem State.setSess_moves (k : Nat) (x : Sess) : (s.setSess k x).moves = s.moves := rfl
@[simp] theorem State.setSess_holdAt (k : Nat) (x : Sess) : (s.setSess k x).holdAt = s.holdAt := rfl
@[simp] theorem State.setSess_railsLow (k : Nat) (x : Sess) : (s.setSess k x).railsLow = s.railsLow := rfl
@[simp] theorem State.setSess_thermAt (k : Nat) (x : Sess) : (s.setSess k x).thermAt = s.thermAt := rfl
@[simp] theorem State.setSess_coolAt (k : Nat) (x : Sess) : (s.setSess k x).coolAt = s.coolAt := rfl
@[simp] theorem State.setSess_coldAt (k : Nat) (x : Sess) : (s.setSess k x).coldAt = s.coldAt := rfl
@[simp] theorem State.setSess_stopDue (k : Nat) (x : Sess) : (s.setSess k x).stopDue = s.stopDue := rfl
@[simp] theorem State.setSess_warnSweeps (k : Nat) (x : Sess) : (s.setSess k x).warnSweeps = s.warnSweeps := rfl
@[simp] theorem State.setSess_stopSweeps (k : Nat) (x : Sess) : (s.setSess k x).stopSweeps = s.stopSweeps := rfl
@[simp] theorem State.setSess_sensorSeen (k : Nat) (x : Sess) : (s.setSess k x).sensorSeen = s.sensorSeen := rfl
@[simp] theorem State.setSess_cleanSweeps (k : Nat) (x : Sess) : (s.setSess k x).cleanSweeps = s.cleanSweeps := rfl
@[simp] theorem State.setSess_nextSensor (k : Nat) (x : Sess) : (s.setSess k x).nextSensor = s.nextSensor := rfl
@[simp] theorem State.setSess_cutTripped (k : Nat) (x : Sess) : (s.setSess k x).cutTripped = s.cutTripped := rfl
@[simp] theorem State.setSess_cutArmed (k : Nat) (x : Sess) : (s.setSess k x).cutArmed = s.cutArmed := rfl
@[simp] theorem State.setSess_digestDone (k : Nat) (x : Sess) : (s.setSess k x).digestDone = s.digestDone := rfl
@[simp] theorem State.setSess_bankVerified (k : Nat) (x : Sess) : (s.setSess k x).bankVerified = s.bankVerified := rfl
@[simp] theorem State.setSess_ptrBank (k : Nat) (x : Sess) : (s.setSess k x).ptrBank = s.ptrBank := rfl
@[simp] theorem State.setSess_ptrGen (k : Nat) (x : Sess) : (s.setSess k x).ptrGen = s.ptrGen := rfl
@[simp] theorem State.setSess_epochCount (k : Nat) (x : Sess) : (s.setSess k x).epochCount = s.epochCount := rfl
@[simp] theorem State.setSess_journal (k : Nat) (x : Sess) : (s.setSess k x).journal = s.journal := rfl
@[simp] theorem State.setSess_peatWord (k : Nat) (x : Sess) : (s.setSess k x).peatWord = s.peatWord := rfl
@[simp] theorem State.setSess_verifyBank (k : Nat) (x : Sess) : (s.setSess k x).verifyBank = s.verifyBank := rfl
@[simp] theorem State.setSess_accessKeys (k : Nat) (x : Sess) : (s.setSess k x).accessKeys = s.accessKeys := rfl
@[simp] theorem State.setSess_runMask (k : Nat) (x : Sess) : (s.setSess k x).runMask = s.runMask := rfl
@[simp] theorem State.setSess_serviceFlag (k : Nat) (x : Sess) : (s.setSess k x).serviceFlag = s.serviceFlag := rfl
@[simp] theorem State.setSess_writeList (k : Nat) (x : Sess) : (s.setSess k x).writeList = s.writeList := rfl
@[simp] theorem State.setSess_bootStrap (k : Nat) (x : Sess) : (s.setSess k x).bootStrap = s.bootStrap := rfl
@[simp] theorem State.setSess_tamperLow (k : Nat) (x : Sess) : (s.setSess k x).tamperLow = s.tamperLow := rfl
@[simp] theorem State.setSess_testEn (k : Nat) (x : Sess) : (s.setSess k x).testEn = s.testEn := rfl
@[simp] theorem State.setSess_jtag (k : Nat) (x : Sess) : (s.setSess k x).jtag = s.jtag := rfl
@[simp] theorem State.rd_setSess (k : Nat) (x : Sess) (g : Fld) (j : Nat) : (s.setSess k x).rd g j = s.rd g j := rfl
@[simp] theorem State.on_setSess (k : Nat) (x : Sess) (g : Fld) (j : Nat) : (s.setSess k x).on g j = s.on g j := rfl
@[simp] theorem State.ld_setSess (k : Nat) (x : Sess) (sq : Space) (j : Nat) : (s.setSess k x).ld sq j = s.ld sq j := rfl
@[simp] theorem State.bank_setSess (k : Nat) (x : Sess) (j : Nat) : (s.setSess k x).bank j = s.bank j := rfl
@[simp] theorem State.lane_setSess (k : Nat) (x : Sess) (j : Nat) : (s.setSess k x).lane j = s.lane j := rfl
@[simp] theorem State.lockOf_setSess (k : Nat) (x : Sess) (j : Nat) : (s.setSess k x).lockOf j = s.lockOf j := rfl
@[simp] theorem State.port_setSess (k : Nat) (x : Sess) (j : Nat) : (s.setSess k x).port j = s.port j := rfl
@[simp] theorem State.ttx_setSess (k : Nat) (x : Sess) (j : Nat) : (s.setSess k x).ttx j = s.ttx j := rfl
@[simp] theorem State.trx_setSess (k : Nat) (x : Sess) (j : Nat) : (s.setSess k x).trx j = s.trx j := rfl
@[simp] theorem State.protT_setSess (k : Nat) (x : Sess) (j : Nat) : (s.setSess k x).protT j = s.protT j := rfl
@[simp] theorem State.hcOf_setSess (k : Nat) (x : Sess) (j : Nat) : (s.setSess k x).hcOf j = s.hcOf j := rfl
@[simp] theorem State.conv_setSess (k : Nat) (x : Sess) (j : Nat) : (s.setSess k x).conv j = s.conv j := rfl
@[simp] theorem State.word_setSess (k : Nat) (x : Sess) (r : Reg) (j : Nat) : (s.setSess k x).word r j = s.word r j := rfl

/-! ### emit -/

@[simp] theorem State.emit_pending (o : Out) : (s.emit o).pending = s.pending := rfl
@[simp] theorem State.emit_resetAfter (o : Out) : (s.emit o).resetAfter = s.resetAfter := rfl
@[simp] theorem State.emit_retrainAfter (o : Out) : (s.emit o).retrainAfter = s.retrainAfter := rfl
@[simp] theorem State.emit_regs (o : Out) : (s.emit o).regs = s.regs := rfl
@[simp] theorem State.emit_mem (o : Out) : (s.emit o).mem = s.mem := rfl
@[simp] theorem State.emit_time (o : Out) : (s.emit o).time = s.time := rfl
@[simp] theorem State.emit_freeCtr (o : Out) : (s.emit o).freeCtr = s.freeCtr := rfl
@[simp] theorem State.emit_lastStatus (o : Out) : (s.emit o).lastStatus = s.lastStatus := rfl
@[simp] theorem State.emit_lastValue (o : Out) : (s.emit o).lastValue = s.lastValue := rfl
@[simp] theorem State.emit_banks (o : Out) : (s.emit o).banks = s.banks := rfl
@[simp] theorem State.emit_captures (o : Out) : (s.emit o).captures = s.captures := rfl
@[simp] theorem State.emit_cmdSerial (o : Out) : (s.emit o).cmdSerial = s.cmdSerial := rfl
@[simp] theorem State.emit_entryWait (o : Out) : (s.emit o).entryWait = s.entryWait := rfl
@[simp] theorem State.emit_rrLast (o : Out) : (s.emit o).rrLast = s.rrLast := rfl
@[simp] theorem State.emit_lanes (o : Out) : (s.emit o).lanes = s.lanes := rfl
@[simp] theorem State.emit_locks (o : Out) : (s.emit o).locks = s.locks := rfl
@[simp] theorem State.emit_ports (o : Out) : (s.emit o).ports = s.ports := rfl
@[simp] theorem State.emit_tunTx (o : Out) : (s.emit o).tunTx = s.tunTx := rfl
@[simp] theorem State.emit_tunRx (o : Out) : (s.emit o).tunRx = s.tunRx := rfl
@[simp] theorem State.emit_slotUse (o : Out) : (s.emit o).slotUse = s.slotUse := rfl
@[simp] theorem State.emit_hch (o : Out) : (s.emit o).hch = s.hch := rfl
@[simp] theorem State.emit_held (o : Out) : (s.emit o).held = s.held := rfl
@[simp] theorem State.emit_heldReads (o : Out) : (s.emit o).heldReads = s.heldReads := rfl
@[simp] theorem State.emit_heldOpen (o : Out) : (s.emit o).heldOpen = s.heldOpen := rfl
@[simp] theorem State.emit_rotor (o : Out) : (s.emit o).rotor = s.rotor := rfl
@[simp] theorem State.emit_repair (o : Out) : (s.emit o).repair = s.repair := rfl
@[simp] theorem State.emit_prot (o : Out) : (s.emit o).prot = s.prot := rfl
@[simp] theorem State.emit_switchReq (o : Out) : (s.emit o).switchReq = s.switchReq := rfl
@[simp] theorem State.emit_switchWait (o : Out) : (s.emit o).switchWait = s.switchWait := rfl
@[simp] theorem State.emit_rideWin (o : Out) : (s.emit o).rideWin = s.rideWin := rfl
@[simp] theorem State.emit_holdWin (o : Out) : (s.emit o).holdWin = s.holdWin := rfl
@[simp] theorem State.emit_drainWin (o : Out) : (s.emit o).drainWin = s.drainWin := rfl
@[simp] theorem State.emit_snap (o : Out) : (s.emit o).snap = s.snap := rfl
@[simp] theorem State.emit_perfPipe (o : Out) : (s.emit o).perfPipe = s.perfPipe := rfl
@[simp] theorem State.emit_perfNext (o : Out) : (s.emit o).perfNext = s.perfNext := rfl
@[simp] theorem State.emit_snapSeq (o : Out) : (s.emit o).snapSeq = s.snapSeq := rfl
@[simp] theorem State.emit_thermalWait (o : Out) : (s.emit o).thermalWait = s.thermalWait := rfl
@[simp] theorem State.emit_convs (o : Out) : (s.emit o).convs = s.convs := rfl
@[simp] theorem State.emit_caps (o : Out) : (s.emit o).caps = s.caps := rfl
@[simp] theorem State.emit_i2c (o : Out) : (s.emit o).i2c = s.i2c := rfl
@[simp] theorem State.emit_rstPins (o : Out) : (s.emit o).rstPins = s.rstPins := rfl
@[simp] theorem State.emit_sessions (o : Out) : (s.emit o).sessions = s.sessions := rfl
@[simp] theorem State.emit_hostWait (o : Out) : (s.emit o).hostWait = s.hostWait := rfl
@[simp] theorem State.emit_lseqTx (o : Out) : (s.emit o).lseqTx = s.lseqTx := rfl
@[simp] theorem State.emit_lseqRx (o : Out) : (s.emit o).lseqRx = s.lseqRx := rfl
@[simp] theorem State.emit_replayBuf (o : Out) : (s.emit o).replayBuf = s.replayBuf := rfl
@[simp] theorem State.emit_fresh (o : Out) : (s.emit o).fresh = s.fresh := rfl
@[simp] theorem State.emit_lanesAligned (o : Out) : (s.emit o).lanesAligned = s.lanesAligned := rfl
@[simp] theorem State.emit_tsSeen (o : Out) : (s.emit o).tsSeen = s.tsSeen := rfl
@[simp] theorem State.emit_peerSeen (o : Out) : (s.emit o).peerSeen = s.peerSeen := rfl
@[simp] theorem State.emit_ts2Seen (o : Out) : (s.emit o).ts2Seen = s.ts2Seen := rfl
@[simp] theorem State.emit_peerMask (o : Out) : (s.emit o).peerMask = s.peerMask := rfl
@[simp] theorem State.emit_misplacedAlign (o : Out) : (s.emit o).misplacedAlign = s.misplacedAlign := rfl
@[simp] theorem State.emit_narrow (o : Out) : (s.emit o).narrow = s.narrow := rfl
@[simp] theorem State.emit_linkFill (o : Out) : (s.emit o).linkFill = s.linkFill := rfl
@[simp] theorem State.emit_ts2At (o : Out) : (s.emit o).ts2At = s.ts2At := rfl
@[simp] theorem State.emit_alignAt (o : Out) : (s.emit o).alignAt = s.alignAt := rfl
@[simp] theorem State.emit_linkAt (o : Out) : (s.emit o).linkAt = s.linkAt := rfl
@[simp] theorem State.emit_downAt (o : Out) : (s.emit o).downAt = s.downAt := rfl
@[simp] theorem State.emit_lockAt (o : Out) : (s.emit o).lockAt = s.lockAt := rfl
@[simp] theorem State.emit_authFailures (o : Out) : (s.emit o).authFailures = s.authFailures := rfl
@[simp] theorem State.emit_ackDue (o : Out) : (s.emit o).ackDue = s.ackDue := rfl
@[simp] theorem State.emit_marks (o : Out) : (s.emit o).marks = s.marks := rfl
@[simp] theorem State.emit_trackers (o : Out) : (s.emit o).trackers = s.trackers := rfl
@[simp] theorem State.emit_log (o : Out) : (s.emit o).log = s.log := rfl
@[simp] theorem State.emit_withheld (o : Out) : (s.emit o).withheld = s.withheld := rfl
@[simp] theorem State.emit_written (o : Out) : (s.emit o).written = s.written := rfl
@[simp] theorem State.emit_scrubFrom (o : Out) : (s.emit o).scrubFrom = s.scrubFrom := rfl
@[simp] theorem State.emit_scrubAt (o : Out) : (s.emit o).scrubAt = s.scrubAt := rfl
@[simp] theorem State.emit_sparesUsed (o : Out) : (s.emit o).sparesUsed = s.sparesUsed := rfl
@[simp] theorem State.emit_nmtHeld (o : Out) : (s.emit o).nmtHeld = s.nmtHeld := rfl
@[simp] theorem State.emit_blockResets (o : Out) : (s.emit o).blockResets = s.blockResets := rfl
@[simp] theorem State.emit_reactResets (o : Out) : (s.emit o).reactResets = s.reactResets := rfl
@[simp] theorem State.emit_oscLost (o : Out) : (s.emit o).oscLost = s.oscLost := rfl
@[simp] theorem State.emit_alivePhase (o : Out) : (s.emit o).alivePhase = s.alivePhase := rfl
@[simp] theorem State.emit_resets (o : Out) : (s.emit o).resets = s.resets := rfl
@[simp] theorem State.emit_resetCause (o : Out) : (s.emit o).resetCause = s.resetCause := rfl
@[simp] theorem State.emit_inReset (o : Out) : (s.emit o).inReset = s.inReset := rfl
@[simp] theorem State.emit_sliceRegion (o : Out) : (s.emit o).sliceRegion = s.sliceRegion := rfl
@[simp] theorem State.emit_sliceMem (o : Out) : (s.emit o).sliceMem = s.sliceMem := rfl
@[simp] theorem State.emit_sliceRedirect (o : Out) : (s.emit o).sliceRedirect = s.sliceRedirect := rfl
@[simp] theorem State.emit_kilnWait (o : Out) : (s.emit o).kilnWait = s.kilnWait := rfl
@[simp] theorem State.emit_trafficAt (o : Out) : (s.emit o).trafficAt = s.trafficAt := rfl
@[simp] theorem State.emit_kilnHeldFail (o : Out) : (s.emit o).kilnHeldFail = s.kilnHeldFail := rfl
@[simp] theorem State.emit_moves (o : Out) : (s.emit o).moves = s.moves := rfl
@[simp] theorem State.emit_holdAt (o : Out) : (s.emit o).holdAt = s.holdAt := rfl
@[simp] theorem State.emit_railsLow (o : Out) : (s.emit o).railsLow = s.railsLow := rfl
@[simp] theorem State.emit_thermAt (o : Out) : (s.emit o).thermAt = s.thermAt := rfl
@[simp] theorem State.emit_coolAt (o : Out) : (s.emit o).coolAt = s.coolAt := rfl
@[simp] theorem State.emit_coldAt (o : Out) : (s.emit o).coldAt = s.coldAt := rfl
@[simp] theorem State.emit_stopDue (o : Out) : (s.emit o).stopDue = s.stopDue := rfl
@[simp] theorem State.emit_warnSweeps (o : Out) : (s.emit o).warnSweeps = s.warnSweeps := rfl
@[simp] theorem State.emit_stopSweeps (o : Out) : (s.emit o).stopSweeps = s.stopSweeps := rfl
@[simp] theorem State.emit_sensorSeen (o : Out) : (s.emit o).sensorSeen = s.sensorSeen := rfl
@[simp] theorem State.emit_cleanSweeps (o : Out) : (s.emit o).cleanSweeps = s.cleanSweeps := rfl
@[simp] theorem State.emit_nextSensor (o : Out) : (s.emit o).nextSensor = s.nextSensor := rfl
@[simp] theorem State.emit_cutTripped (o : Out) : (s.emit o).cutTripped = s.cutTripped := rfl
@[simp] theorem State.emit_cutArmed (o : Out) : (s.emit o).cutArmed = s.cutArmed := rfl
@[simp] theorem State.emit_digestDone (o : Out) : (s.emit o).digestDone = s.digestDone := rfl
@[simp] theorem State.emit_bankVerified (o : Out) : (s.emit o).bankVerified = s.bankVerified := rfl
@[simp] theorem State.emit_ptrBank (o : Out) : (s.emit o).ptrBank = s.ptrBank := rfl
@[simp] theorem State.emit_ptrGen (o : Out) : (s.emit o).ptrGen = s.ptrGen := rfl
@[simp] theorem State.emit_epochCount (o : Out) : (s.emit o).epochCount = s.epochCount := rfl
@[simp] theorem State.emit_journal (o : Out) : (s.emit o).journal = s.journal := rfl
@[simp] theorem State.emit_peatWord (o : Out) : (s.emit o).peatWord = s.peatWord := rfl
@[simp] theorem State.emit_verifyBank (o : Out) : (s.emit o).verifyBank = s.verifyBank := rfl
@[simp] theorem State.emit_accessKeys (o : Out) : (s.emit o).accessKeys = s.accessKeys := rfl
@[simp] theorem State.emit_runMask (o : Out) : (s.emit o).runMask = s.runMask := rfl
@[simp] theorem State.emit_serviceFlag (o : Out) : (s.emit o).serviceFlag = s.serviceFlag := rfl
@[simp] theorem State.emit_writeList (o : Out) : (s.emit o).writeList = s.writeList := rfl
@[simp] theorem State.emit_bootStrap (o : Out) : (s.emit o).bootStrap = s.bootStrap := rfl
@[simp] theorem State.emit_tamperLow (o : Out) : (s.emit o).tamperLow = s.tamperLow := rfl
@[simp] theorem State.emit_testEn (o : Out) : (s.emit o).testEn = s.testEn := rfl
@[simp] theorem State.emit_jtag (o : Out) : (s.emit o).jtag = s.jtag := rfl
@[simp] theorem State.rd_emit (o : Out) (g : Fld) (j : Nat) : (s.emit o).rd g j = s.rd g j := rfl
@[simp] theorem State.on_emit (o : Out) (g : Fld) (j : Nat) : (s.emit o).on g j = s.on g j := rfl
@[simp] theorem State.ld_emit (o : Out) (sq : Space) (j : Nat) : (s.emit o).ld sq j = s.ld sq j := rfl
@[simp] theorem State.bank_emit (o : Out) (j : Nat) : (s.emit o).bank j = s.bank j := rfl
@[simp] theorem State.lane_emit (o : Out) (j : Nat) : (s.emit o).lane j = s.lane j := rfl
@[simp] theorem State.sess_emit (o : Out) (j : Nat) : (s.emit o).sess j = s.sess j := rfl
@[simp] theorem State.lockOf_emit (o : Out) (j : Nat) : (s.emit o).lockOf j = s.lockOf j := rfl
@[simp] theorem State.port_emit (o : Out) (j : Nat) : (s.emit o).port j = s.port j := rfl
@[simp] theorem State.ttx_emit (o : Out) (j : Nat) : (s.emit o).ttx j = s.ttx j := rfl
@[simp] theorem State.trx_emit (o : Out) (j : Nat) : (s.emit o).trx j = s.trx j := rfl
@[simp] theorem State.protT_emit (o : Out) (j : Nat) : (s.emit o).protT j = s.protT j := rfl
@[simp] theorem State.hcOf_emit (o : Out) (j : Nat) : (s.emit o).hcOf j = s.hcOf j := rfl
@[simp] theorem State.conv_emit (o : Out) (j : Nat) : (s.emit o).conv j = s.conv j := rfl
@[simp] theorem State.word_emit (o : Out) (r : Reg) (j : Nat) : (s.emit o).word r j = s.word r j := rfl

/-! ### setLock -/

@[simp] theorem State.setLock_pending (n : Nat) (x : LockS) : (s.setLock n x).pending = s.pending := rfl
@[simp] theorem State.setLock_resetAfter (n : Nat) (x : LockS) : (s.setLock n x).resetAfter = s.resetAfter := rfl
@[simp] theorem State.setLock_retrainAfter (n : Nat) (x : LockS) : (s.setLock n x).retrainAfter = s.retrainAfter := rfl
@[simp] theorem State.setLock_regs (n : Nat) (x : LockS) : (s.setLock n x).regs = s.regs := rfl
@[simp] theorem State.setLock_mem (n : Nat) (x : LockS) : (s.setLock n x).mem = s.mem := rfl
@[simp] theorem State.setLock_time (n : Nat) (x : LockS) : (s.setLock n x).time = s.time := rfl
@[simp] theorem State.setLock_freeCtr (n : Nat) (x : LockS) : (s.setLock n x).freeCtr = s.freeCtr := rfl
@[simp] theorem State.setLock_lastStatus (n : Nat) (x : LockS) : (s.setLock n x).lastStatus = s.lastStatus := rfl
@[simp] theorem State.setLock_lastValue (n : Nat) (x : LockS) : (s.setLock n x).lastValue = s.lastValue := rfl
@[simp] theorem State.setLock_out (n : Nat) (x : LockS) : (s.setLock n x).out = s.out := rfl
@[simp] theorem State.setLock_banks (n : Nat) (x : LockS) : (s.setLock n x).banks = s.banks := rfl
@[simp] theorem State.setLock_captures (n : Nat) (x : LockS) : (s.setLock n x).captures = s.captures := rfl
@[simp] theorem State.setLock_cmdSerial (n : Nat) (x : LockS) : (s.setLock n x).cmdSerial = s.cmdSerial := rfl
@[simp] theorem State.setLock_entryWait (n : Nat) (x : LockS) : (s.setLock n x).entryWait = s.entryWait := rfl
@[simp] theorem State.setLock_rrLast (n : Nat) (x : LockS) : (s.setLock n x).rrLast = s.rrLast := rfl
@[simp] theorem State.setLock_lanes (n : Nat) (x : LockS) : (s.setLock n x).lanes = s.lanes := rfl
@[simp] theorem State.setLock_ports (n : Nat) (x : LockS) : (s.setLock n x).ports = s.ports := rfl
@[simp] theorem State.setLock_tunTx (n : Nat) (x : LockS) : (s.setLock n x).tunTx = s.tunTx := rfl
@[simp] theorem State.setLock_tunRx (n : Nat) (x : LockS) : (s.setLock n x).tunRx = s.tunRx := rfl
@[simp] theorem State.setLock_slotUse (n : Nat) (x : LockS) : (s.setLock n x).slotUse = s.slotUse := rfl
@[simp] theorem State.setLock_hch (n : Nat) (x : LockS) : (s.setLock n x).hch = s.hch := rfl
@[simp] theorem State.setLock_held (n : Nat) (x : LockS) : (s.setLock n x).held = s.held := rfl
@[simp] theorem State.setLock_heldReads (n : Nat) (x : LockS) : (s.setLock n x).heldReads = s.heldReads := rfl
@[simp] theorem State.setLock_heldOpen (n : Nat) (x : LockS) : (s.setLock n x).heldOpen = s.heldOpen := rfl
@[simp] theorem State.setLock_rotor (n : Nat) (x : LockS) : (s.setLock n x).rotor = s.rotor := rfl
@[simp] theorem State.setLock_repair (n : Nat) (x : LockS) : (s.setLock n x).repair = s.repair := rfl
@[simp] theorem State.setLock_prot (n : Nat) (x : LockS) : (s.setLock n x).prot = s.prot := rfl
@[simp] theorem State.setLock_switchReq (n : Nat) (x : LockS) : (s.setLock n x).switchReq = s.switchReq := rfl
@[simp] theorem State.setLock_switchWait (n : Nat) (x : LockS) : (s.setLock n x).switchWait = s.switchWait := rfl
@[simp] theorem State.setLock_rideWin (n : Nat) (x : LockS) : (s.setLock n x).rideWin = s.rideWin := rfl
@[simp] theorem State.setLock_holdWin (n : Nat) (x : LockS) : (s.setLock n x).holdWin = s.holdWin := rfl
@[simp] theorem State.setLock_drainWin (n : Nat) (x : LockS) : (s.setLock n x).drainWin = s.drainWin := rfl
@[simp] theorem State.setLock_snap (n : Nat) (x : LockS) : (s.setLock n x).snap = s.snap := rfl
@[simp] theorem State.setLock_perfPipe (n : Nat) (x : LockS) : (s.setLock n x).perfPipe = s.perfPipe := rfl
@[simp] theorem State.setLock_perfNext (n : Nat) (x : LockS) : (s.setLock n x).perfNext = s.perfNext := rfl
@[simp] theorem State.setLock_snapSeq (n : Nat) (x : LockS) : (s.setLock n x).snapSeq = s.snapSeq := rfl
@[simp] theorem State.setLock_thermalWait (n : Nat) (x : LockS) : (s.setLock n x).thermalWait = s.thermalWait := rfl
@[simp] theorem State.setLock_convs (n : Nat) (x : LockS) : (s.setLock n x).convs = s.convs := rfl
@[simp] theorem State.setLock_caps (n : Nat) (x : LockS) : (s.setLock n x).caps = s.caps := rfl
@[simp] theorem State.setLock_i2c (n : Nat) (x : LockS) : (s.setLock n x).i2c = s.i2c := rfl
@[simp] theorem State.setLock_rstPins (n : Nat) (x : LockS) : (s.setLock n x).rstPins = s.rstPins := rfl
@[simp] theorem State.setLock_sessions (n : Nat) (x : LockS) : (s.setLock n x).sessions = s.sessions := rfl
@[simp] theorem State.setLock_hostWait (n : Nat) (x : LockS) : (s.setLock n x).hostWait = s.hostWait := rfl
@[simp] theorem State.setLock_lseqTx (n : Nat) (x : LockS) : (s.setLock n x).lseqTx = s.lseqTx := rfl
@[simp] theorem State.setLock_lseqRx (n : Nat) (x : LockS) : (s.setLock n x).lseqRx = s.lseqRx := rfl
@[simp] theorem State.setLock_replayBuf (n : Nat) (x : LockS) : (s.setLock n x).replayBuf = s.replayBuf := rfl
@[simp] theorem State.setLock_fresh (n : Nat) (x : LockS) : (s.setLock n x).fresh = s.fresh := rfl
@[simp] theorem State.setLock_lanesAligned (n : Nat) (x : LockS) : (s.setLock n x).lanesAligned = s.lanesAligned := rfl
@[simp] theorem State.setLock_tsSeen (n : Nat) (x : LockS) : (s.setLock n x).tsSeen = s.tsSeen := rfl
@[simp] theorem State.setLock_peerSeen (n : Nat) (x : LockS) : (s.setLock n x).peerSeen = s.peerSeen := rfl
@[simp] theorem State.setLock_ts2Seen (n : Nat) (x : LockS) : (s.setLock n x).ts2Seen = s.ts2Seen := rfl
@[simp] theorem State.setLock_peerMask (n : Nat) (x : LockS) : (s.setLock n x).peerMask = s.peerMask := rfl
@[simp] theorem State.setLock_misplacedAlign (n : Nat) (x : LockS) : (s.setLock n x).misplacedAlign = s.misplacedAlign := rfl
@[simp] theorem State.setLock_narrow (n : Nat) (x : LockS) : (s.setLock n x).narrow = s.narrow := rfl
@[simp] theorem State.setLock_linkFill (n : Nat) (x : LockS) : (s.setLock n x).linkFill = s.linkFill := rfl
@[simp] theorem State.setLock_ts2At (n : Nat) (x : LockS) : (s.setLock n x).ts2At = s.ts2At := rfl
@[simp] theorem State.setLock_alignAt (n : Nat) (x : LockS) : (s.setLock n x).alignAt = s.alignAt := rfl
@[simp] theorem State.setLock_linkAt (n : Nat) (x : LockS) : (s.setLock n x).linkAt = s.linkAt := rfl
@[simp] theorem State.setLock_downAt (n : Nat) (x : LockS) : (s.setLock n x).downAt = s.downAt := rfl
@[simp] theorem State.setLock_lockAt (n : Nat) (x : LockS) : (s.setLock n x).lockAt = s.lockAt := rfl
@[simp] theorem State.setLock_authFailures (n : Nat) (x : LockS) : (s.setLock n x).authFailures = s.authFailures := rfl
@[simp] theorem State.setLock_ackDue (n : Nat) (x : LockS) : (s.setLock n x).ackDue = s.ackDue := rfl
@[simp] theorem State.setLock_marks (n : Nat) (x : LockS) : (s.setLock n x).marks = s.marks := rfl
@[simp] theorem State.setLock_trackers (n : Nat) (x : LockS) : (s.setLock n x).trackers = s.trackers := rfl
@[simp] theorem State.setLock_log (n : Nat) (x : LockS) : (s.setLock n x).log = s.log := rfl
@[simp] theorem State.setLock_withheld (n : Nat) (x : LockS) : (s.setLock n x).withheld = s.withheld := rfl
@[simp] theorem State.setLock_written (n : Nat) (x : LockS) : (s.setLock n x).written = s.written := rfl
@[simp] theorem State.setLock_scrubFrom (n : Nat) (x : LockS) : (s.setLock n x).scrubFrom = s.scrubFrom := rfl
@[simp] theorem State.setLock_scrubAt (n : Nat) (x : LockS) : (s.setLock n x).scrubAt = s.scrubAt := rfl
@[simp] theorem State.setLock_sparesUsed (n : Nat) (x : LockS) : (s.setLock n x).sparesUsed = s.sparesUsed := rfl
@[simp] theorem State.setLock_nmtHeld (n : Nat) (x : LockS) : (s.setLock n x).nmtHeld = s.nmtHeld := rfl
@[simp] theorem State.setLock_blockResets (n : Nat) (x : LockS) : (s.setLock n x).blockResets = s.blockResets := rfl
@[simp] theorem State.setLock_reactResets (n : Nat) (x : LockS) : (s.setLock n x).reactResets = s.reactResets := rfl
@[simp] theorem State.setLock_oscLost (n : Nat) (x : LockS) : (s.setLock n x).oscLost = s.oscLost := rfl
@[simp] theorem State.setLock_alivePhase (n : Nat) (x : LockS) : (s.setLock n x).alivePhase = s.alivePhase := rfl
@[simp] theorem State.setLock_resets (n : Nat) (x : LockS) : (s.setLock n x).resets = s.resets := rfl
@[simp] theorem State.setLock_resetCause (n : Nat) (x : LockS) : (s.setLock n x).resetCause = s.resetCause := rfl
@[simp] theorem State.setLock_inReset (n : Nat) (x : LockS) : (s.setLock n x).inReset = s.inReset := rfl
@[simp] theorem State.setLock_sliceRegion (n : Nat) (x : LockS) : (s.setLock n x).sliceRegion = s.sliceRegion := rfl
@[simp] theorem State.setLock_sliceMem (n : Nat) (x : LockS) : (s.setLock n x).sliceMem = s.sliceMem := rfl
@[simp] theorem State.setLock_sliceRedirect (n : Nat) (x : LockS) : (s.setLock n x).sliceRedirect = s.sliceRedirect := rfl
@[simp] theorem State.setLock_kilnWait (n : Nat) (x : LockS) : (s.setLock n x).kilnWait = s.kilnWait := rfl
@[simp] theorem State.setLock_trafficAt (n : Nat) (x : LockS) : (s.setLock n x).trafficAt = s.trafficAt := rfl
@[simp] theorem State.setLock_kilnHeldFail (n : Nat) (x : LockS) : (s.setLock n x).kilnHeldFail = s.kilnHeldFail := rfl
@[simp] theorem State.setLock_moves (n : Nat) (x : LockS) : (s.setLock n x).moves = s.moves := rfl
@[simp] theorem State.setLock_holdAt (n : Nat) (x : LockS) : (s.setLock n x).holdAt = s.holdAt := rfl
@[simp] theorem State.setLock_railsLow (n : Nat) (x : LockS) : (s.setLock n x).railsLow = s.railsLow := rfl
@[simp] theorem State.setLock_thermAt (n : Nat) (x : LockS) : (s.setLock n x).thermAt = s.thermAt := rfl
@[simp] theorem State.setLock_coolAt (n : Nat) (x : LockS) : (s.setLock n x).coolAt = s.coolAt := rfl
@[simp] theorem State.setLock_coldAt (n : Nat) (x : LockS) : (s.setLock n x).coldAt = s.coldAt := rfl
@[simp] theorem State.setLock_stopDue (n : Nat) (x : LockS) : (s.setLock n x).stopDue = s.stopDue := rfl
@[simp] theorem State.setLock_warnSweeps (n : Nat) (x : LockS) : (s.setLock n x).warnSweeps = s.warnSweeps := rfl
@[simp] theorem State.setLock_stopSweeps (n : Nat) (x : LockS) : (s.setLock n x).stopSweeps = s.stopSweeps := rfl
@[simp] theorem State.setLock_sensorSeen (n : Nat) (x : LockS) : (s.setLock n x).sensorSeen = s.sensorSeen := rfl
@[simp] theorem State.setLock_cleanSweeps (n : Nat) (x : LockS) : (s.setLock n x).cleanSweeps = s.cleanSweeps := rfl
@[simp] theorem State.setLock_nextSensor (n : Nat) (x : LockS) : (s.setLock n x).nextSensor = s.nextSensor := rfl
@[simp] theorem State.setLock_cutTripped (n : Nat) (x : LockS) : (s.setLock n x).cutTripped = s.cutTripped := rfl
@[simp] theorem State.setLock_cutArmed (n : Nat) (x : LockS) : (s.setLock n x).cutArmed = s.cutArmed := rfl
@[simp] theorem State.setLock_digestDone (n : Nat) (x : LockS) : (s.setLock n x).digestDone = s.digestDone := rfl
@[simp] theorem State.setLock_bankVerified (n : Nat) (x : LockS) : (s.setLock n x).bankVerified = s.bankVerified := rfl
@[simp] theorem State.setLock_ptrBank (n : Nat) (x : LockS) : (s.setLock n x).ptrBank = s.ptrBank := rfl
@[simp] theorem State.setLock_ptrGen (n : Nat) (x : LockS) : (s.setLock n x).ptrGen = s.ptrGen := rfl
@[simp] theorem State.setLock_epochCount (n : Nat) (x : LockS) : (s.setLock n x).epochCount = s.epochCount := rfl
@[simp] theorem State.setLock_journal (n : Nat) (x : LockS) : (s.setLock n x).journal = s.journal := rfl
@[simp] theorem State.setLock_peatWord (n : Nat) (x : LockS) : (s.setLock n x).peatWord = s.peatWord := rfl
@[simp] theorem State.setLock_verifyBank (n : Nat) (x : LockS) : (s.setLock n x).verifyBank = s.verifyBank := rfl
@[simp] theorem State.setLock_accessKeys (n : Nat) (x : LockS) : (s.setLock n x).accessKeys = s.accessKeys := rfl
@[simp] theorem State.setLock_runMask (n : Nat) (x : LockS) : (s.setLock n x).runMask = s.runMask := rfl
@[simp] theorem State.setLock_serviceFlag (n : Nat) (x : LockS) : (s.setLock n x).serviceFlag = s.serviceFlag := rfl
@[simp] theorem State.setLock_writeList (n : Nat) (x : LockS) : (s.setLock n x).writeList = s.writeList := rfl
@[simp] theorem State.setLock_bootStrap (n : Nat) (x : LockS) : (s.setLock n x).bootStrap = s.bootStrap := rfl
@[simp] theorem State.setLock_tamperLow (n : Nat) (x : LockS) : (s.setLock n x).tamperLow = s.tamperLow := rfl
@[simp] theorem State.setLock_testEn (n : Nat) (x : LockS) : (s.setLock n x).testEn = s.testEn := rfl
@[simp] theorem State.setLock_jtag (n : Nat) (x : LockS) : (s.setLock n x).jtag = s.jtag := rfl
@[simp] theorem State.rd_setLock (n : Nat) (x : LockS) (g : Fld) (j : Nat) : (s.setLock n x).rd g j = s.rd g j := rfl
@[simp] theorem State.on_setLock (n : Nat) (x : LockS) (g : Fld) (j : Nat) : (s.setLock n x).on g j = s.on g j := rfl
@[simp] theorem State.ld_setLock (n : Nat) (x : LockS) (sq : Space) (j : Nat) : (s.setLock n x).ld sq j = s.ld sq j := rfl
@[simp] theorem State.bank_setLock (n : Nat) (x : LockS) (j : Nat) : (s.setLock n x).bank j = s.bank j := rfl
@[simp] theorem State.lane_setLock (n : Nat) (x : LockS) (j : Nat) : (s.setLock n x).lane j = s.lane j := rfl
@[simp] theorem State.sess_setLock (n : Nat) (x : LockS) (j : Nat) : (s.setLock n x).sess j = s.sess j := rfl
@[simp] theorem State.port_setLock (n : Nat) (x : LockS) (j : Nat) : (s.setLock n x).port j = s.port j := rfl
@[simp] theorem State.ttx_setLock (n : Nat) (x : LockS) (j : Nat) : (s.setLock n x).ttx j = s.ttx j := rfl
@[simp] theorem State.trx_setLock (n : Nat) (x : LockS) (j : Nat) : (s.setLock n x).trx j = s.trx j := rfl
@[simp] theorem State.protT_setLock (n : Nat) (x : LockS) (j : Nat) : (s.setLock n x).protT j = s.protT j := rfl
@[simp] theorem State.hcOf_setLock (n : Nat) (x : LockS) (j : Nat) : (s.setLock n x).hcOf j = s.hcOf j := rfl
@[simp] theorem State.conv_setLock (n : Nat) (x : LockS) (j : Nat) : (s.setLock n x).conv j = s.conv j := rfl
@[simp] theorem State.word_setLock (n : Nat) (x : LockS) (r : Reg) (j : Nat) : (s.setLock n x).word r j = s.word r j := rfl

/-! ### setPort -/

@[simp] theorem State.setPort_pending (p : Nat) (x : PortS) : (s.setPort p x).pending = s.pending := rfl
@[simp] theorem State.setPort_resetAfter (p : Nat) (x : PortS) : (s.setPort p x).resetAfter = s.resetAfter := rfl
@[simp] theorem State.setPort_retrainAfter (p : Nat) (x : PortS) : (s.setPort p x).retrainAfter = s.retrainAfter := rfl
@[simp] theorem State.setPort_regs (p : Nat) (x : PortS) : (s.setPort p x).regs = s.regs := rfl
@[simp] theorem State.setPort_mem (p : Nat) (x : PortS) : (s.setPort p x).mem = s.mem := rfl
@[simp] theorem State.setPort_time (p : Nat) (x : PortS) : (s.setPort p x).time = s.time := rfl
@[simp] theorem State.setPort_freeCtr (p : Nat) (x : PortS) : (s.setPort p x).freeCtr = s.freeCtr := rfl
@[simp] theorem State.setPort_lastStatus (p : Nat) (x : PortS) : (s.setPort p x).lastStatus = s.lastStatus := rfl
@[simp] theorem State.setPort_lastValue (p : Nat) (x : PortS) : (s.setPort p x).lastValue = s.lastValue := rfl
@[simp] theorem State.setPort_out (p : Nat) (x : PortS) : (s.setPort p x).out = s.out := rfl
@[simp] theorem State.setPort_banks (p : Nat) (x : PortS) : (s.setPort p x).banks = s.banks := rfl
@[simp] theorem State.setPort_captures (p : Nat) (x : PortS) : (s.setPort p x).captures = s.captures := rfl
@[simp] theorem State.setPort_cmdSerial (p : Nat) (x : PortS) : (s.setPort p x).cmdSerial = s.cmdSerial := rfl
@[simp] theorem State.setPort_entryWait (p : Nat) (x : PortS) : (s.setPort p x).entryWait = s.entryWait := rfl
@[simp] theorem State.setPort_rrLast (p : Nat) (x : PortS) : (s.setPort p x).rrLast = s.rrLast := rfl
@[simp] theorem State.setPort_lanes (p : Nat) (x : PortS) : (s.setPort p x).lanes = s.lanes := rfl
@[simp] theorem State.setPort_locks (p : Nat) (x : PortS) : (s.setPort p x).locks = s.locks := rfl
@[simp] theorem State.setPort_tunTx (p : Nat) (x : PortS) : (s.setPort p x).tunTx = s.tunTx := rfl
@[simp] theorem State.setPort_tunRx (p : Nat) (x : PortS) : (s.setPort p x).tunRx = s.tunRx := rfl
@[simp] theorem State.setPort_slotUse (p : Nat) (x : PortS) : (s.setPort p x).slotUse = s.slotUse := rfl
@[simp] theorem State.setPort_hch (p : Nat) (x : PortS) : (s.setPort p x).hch = s.hch := rfl
@[simp] theorem State.setPort_held (p : Nat) (x : PortS) : (s.setPort p x).held = s.held := rfl
@[simp] theorem State.setPort_heldReads (p : Nat) (x : PortS) : (s.setPort p x).heldReads = s.heldReads := rfl
@[simp] theorem State.setPort_heldOpen (p : Nat) (x : PortS) : (s.setPort p x).heldOpen = s.heldOpen := rfl
@[simp] theorem State.setPort_rotor (p : Nat) (x : PortS) : (s.setPort p x).rotor = s.rotor := rfl
@[simp] theorem State.setPort_repair (p : Nat) (x : PortS) : (s.setPort p x).repair = s.repair := rfl
@[simp] theorem State.setPort_prot (p : Nat) (x : PortS) : (s.setPort p x).prot = s.prot := rfl
@[simp] theorem State.setPort_switchReq (p : Nat) (x : PortS) : (s.setPort p x).switchReq = s.switchReq := rfl
@[simp] theorem State.setPort_switchWait (p : Nat) (x : PortS) : (s.setPort p x).switchWait = s.switchWait := rfl
@[simp] theorem State.setPort_rideWin (p : Nat) (x : PortS) : (s.setPort p x).rideWin = s.rideWin := rfl
@[simp] theorem State.setPort_holdWin (p : Nat) (x : PortS) : (s.setPort p x).holdWin = s.holdWin := rfl
@[simp] theorem State.setPort_drainWin (p : Nat) (x : PortS) : (s.setPort p x).drainWin = s.drainWin := rfl
@[simp] theorem State.setPort_snap (p : Nat) (x : PortS) : (s.setPort p x).snap = s.snap := rfl
@[simp] theorem State.setPort_perfPipe (p : Nat) (x : PortS) : (s.setPort p x).perfPipe = s.perfPipe := rfl
@[simp] theorem State.setPort_perfNext (p : Nat) (x : PortS) : (s.setPort p x).perfNext = s.perfNext := rfl
@[simp] theorem State.setPort_snapSeq (p : Nat) (x : PortS) : (s.setPort p x).snapSeq = s.snapSeq := rfl
@[simp] theorem State.setPort_thermalWait (p : Nat) (x : PortS) : (s.setPort p x).thermalWait = s.thermalWait := rfl
@[simp] theorem State.setPort_convs (p : Nat) (x : PortS) : (s.setPort p x).convs = s.convs := rfl
@[simp] theorem State.setPort_caps (p : Nat) (x : PortS) : (s.setPort p x).caps = s.caps := rfl
@[simp] theorem State.setPort_i2c (p : Nat) (x : PortS) : (s.setPort p x).i2c = s.i2c := rfl
@[simp] theorem State.setPort_rstPins (p : Nat) (x : PortS) : (s.setPort p x).rstPins = s.rstPins := rfl
@[simp] theorem State.setPort_sessions (p : Nat) (x : PortS) : (s.setPort p x).sessions = s.sessions := rfl
@[simp] theorem State.setPort_hostWait (p : Nat) (x : PortS) : (s.setPort p x).hostWait = s.hostWait := rfl
@[simp] theorem State.setPort_lseqTx (p : Nat) (x : PortS) : (s.setPort p x).lseqTx = s.lseqTx := rfl
@[simp] theorem State.setPort_lseqRx (p : Nat) (x : PortS) : (s.setPort p x).lseqRx = s.lseqRx := rfl
@[simp] theorem State.setPort_replayBuf (p : Nat) (x : PortS) : (s.setPort p x).replayBuf = s.replayBuf := rfl
@[simp] theorem State.setPort_fresh (p : Nat) (x : PortS) : (s.setPort p x).fresh = s.fresh := rfl
@[simp] theorem State.setPort_lanesAligned (p : Nat) (x : PortS) : (s.setPort p x).lanesAligned = s.lanesAligned := rfl
@[simp] theorem State.setPort_tsSeen (p : Nat) (x : PortS) : (s.setPort p x).tsSeen = s.tsSeen := rfl
@[simp] theorem State.setPort_peerSeen (p : Nat) (x : PortS) : (s.setPort p x).peerSeen = s.peerSeen := rfl
@[simp] theorem State.setPort_ts2Seen (p : Nat) (x : PortS) : (s.setPort p x).ts2Seen = s.ts2Seen := rfl
@[simp] theorem State.setPort_peerMask (p : Nat) (x : PortS) : (s.setPort p x).peerMask = s.peerMask := rfl
@[simp] theorem State.setPort_misplacedAlign (p : Nat) (x : PortS) : (s.setPort p x).misplacedAlign = s.misplacedAlign := rfl
@[simp] theorem State.setPort_narrow (p : Nat) (x : PortS) : (s.setPort p x).narrow = s.narrow := rfl
@[simp] theorem State.setPort_linkFill (p : Nat) (x : PortS) : (s.setPort p x).linkFill = s.linkFill := rfl
@[simp] theorem State.setPort_ts2At (p : Nat) (x : PortS) : (s.setPort p x).ts2At = s.ts2At := rfl
@[simp] theorem State.setPort_alignAt (p : Nat) (x : PortS) : (s.setPort p x).alignAt = s.alignAt := rfl
@[simp] theorem State.setPort_linkAt (p : Nat) (x : PortS) : (s.setPort p x).linkAt = s.linkAt := rfl
@[simp] theorem State.setPort_downAt (p : Nat) (x : PortS) : (s.setPort p x).downAt = s.downAt := rfl
@[simp] theorem State.setPort_lockAt (p : Nat) (x : PortS) : (s.setPort p x).lockAt = s.lockAt := rfl
@[simp] theorem State.setPort_authFailures (p : Nat) (x : PortS) : (s.setPort p x).authFailures = s.authFailures := rfl
@[simp] theorem State.setPort_ackDue (p : Nat) (x : PortS) : (s.setPort p x).ackDue = s.ackDue := rfl
@[simp] theorem State.setPort_marks (p : Nat) (x : PortS) : (s.setPort p x).marks = s.marks := rfl
@[simp] theorem State.setPort_trackers (p : Nat) (x : PortS) : (s.setPort p x).trackers = s.trackers := rfl
@[simp] theorem State.setPort_log (p : Nat) (x : PortS) : (s.setPort p x).log = s.log := rfl
@[simp] theorem State.setPort_withheld (p : Nat) (x : PortS) : (s.setPort p x).withheld = s.withheld := rfl
@[simp] theorem State.setPort_written (p : Nat) (x : PortS) : (s.setPort p x).written = s.written := rfl
@[simp] theorem State.setPort_scrubFrom (p : Nat) (x : PortS) : (s.setPort p x).scrubFrom = s.scrubFrom := rfl
@[simp] theorem State.setPort_scrubAt (p : Nat) (x : PortS) : (s.setPort p x).scrubAt = s.scrubAt := rfl
@[simp] theorem State.setPort_sparesUsed (p : Nat) (x : PortS) : (s.setPort p x).sparesUsed = s.sparesUsed := rfl
@[simp] theorem State.setPort_nmtHeld (p : Nat) (x : PortS) : (s.setPort p x).nmtHeld = s.nmtHeld := rfl
@[simp] theorem State.setPort_blockResets (p : Nat) (x : PortS) : (s.setPort p x).blockResets = s.blockResets := rfl
@[simp] theorem State.setPort_reactResets (p : Nat) (x : PortS) : (s.setPort p x).reactResets = s.reactResets := rfl
@[simp] theorem State.setPort_oscLost (p : Nat) (x : PortS) : (s.setPort p x).oscLost = s.oscLost := rfl
@[simp] theorem State.setPort_alivePhase (p : Nat) (x : PortS) : (s.setPort p x).alivePhase = s.alivePhase := rfl
@[simp] theorem State.setPort_resets (p : Nat) (x : PortS) : (s.setPort p x).resets = s.resets := rfl
@[simp] theorem State.setPort_resetCause (p : Nat) (x : PortS) : (s.setPort p x).resetCause = s.resetCause := rfl
@[simp] theorem State.setPort_inReset (p : Nat) (x : PortS) : (s.setPort p x).inReset = s.inReset := rfl
@[simp] theorem State.setPort_sliceRegion (p : Nat) (x : PortS) : (s.setPort p x).sliceRegion = s.sliceRegion := rfl
@[simp] theorem State.setPort_sliceMem (p : Nat) (x : PortS) : (s.setPort p x).sliceMem = s.sliceMem := rfl
@[simp] theorem State.setPort_sliceRedirect (p : Nat) (x : PortS) : (s.setPort p x).sliceRedirect = s.sliceRedirect := rfl
@[simp] theorem State.setPort_kilnWait (p : Nat) (x : PortS) : (s.setPort p x).kilnWait = s.kilnWait := rfl
@[simp] theorem State.setPort_trafficAt (p : Nat) (x : PortS) : (s.setPort p x).trafficAt = s.trafficAt := rfl
@[simp] theorem State.setPort_kilnHeldFail (p : Nat) (x : PortS) : (s.setPort p x).kilnHeldFail = s.kilnHeldFail := rfl
@[simp] theorem State.setPort_moves (p : Nat) (x : PortS) : (s.setPort p x).moves = s.moves := rfl
@[simp] theorem State.setPort_holdAt (p : Nat) (x : PortS) : (s.setPort p x).holdAt = s.holdAt := rfl
@[simp] theorem State.setPort_railsLow (p : Nat) (x : PortS) : (s.setPort p x).railsLow = s.railsLow := rfl
@[simp] theorem State.setPort_thermAt (p : Nat) (x : PortS) : (s.setPort p x).thermAt = s.thermAt := rfl
@[simp] theorem State.setPort_coolAt (p : Nat) (x : PortS) : (s.setPort p x).coolAt = s.coolAt := rfl
@[simp] theorem State.setPort_coldAt (p : Nat) (x : PortS) : (s.setPort p x).coldAt = s.coldAt := rfl
@[simp] theorem State.setPort_stopDue (p : Nat) (x : PortS) : (s.setPort p x).stopDue = s.stopDue := rfl
@[simp] theorem State.setPort_warnSweeps (p : Nat) (x : PortS) : (s.setPort p x).warnSweeps = s.warnSweeps := rfl
@[simp] theorem State.setPort_stopSweeps (p : Nat) (x : PortS) : (s.setPort p x).stopSweeps = s.stopSweeps := rfl
@[simp] theorem State.setPort_sensorSeen (p : Nat) (x : PortS) : (s.setPort p x).sensorSeen = s.sensorSeen := rfl
@[simp] theorem State.setPort_cleanSweeps (p : Nat) (x : PortS) : (s.setPort p x).cleanSweeps = s.cleanSweeps := rfl
@[simp] theorem State.setPort_nextSensor (p : Nat) (x : PortS) : (s.setPort p x).nextSensor = s.nextSensor := rfl
@[simp] theorem State.setPort_cutTripped (p : Nat) (x : PortS) : (s.setPort p x).cutTripped = s.cutTripped := rfl
@[simp] theorem State.setPort_cutArmed (p : Nat) (x : PortS) : (s.setPort p x).cutArmed = s.cutArmed := rfl
@[simp] theorem State.setPort_digestDone (p : Nat) (x : PortS) : (s.setPort p x).digestDone = s.digestDone := rfl
@[simp] theorem State.setPort_bankVerified (p : Nat) (x : PortS) : (s.setPort p x).bankVerified = s.bankVerified := rfl
@[simp] theorem State.setPort_ptrBank (p : Nat) (x : PortS) : (s.setPort p x).ptrBank = s.ptrBank := rfl
@[simp] theorem State.setPort_ptrGen (p : Nat) (x : PortS) : (s.setPort p x).ptrGen = s.ptrGen := rfl
@[simp] theorem State.setPort_epochCount (p : Nat) (x : PortS) : (s.setPort p x).epochCount = s.epochCount := rfl
@[simp] theorem State.setPort_journal (p : Nat) (x : PortS) : (s.setPort p x).journal = s.journal := rfl
@[simp] theorem State.setPort_peatWord (p : Nat) (x : PortS) : (s.setPort p x).peatWord = s.peatWord := rfl
@[simp] theorem State.setPort_verifyBank (p : Nat) (x : PortS) : (s.setPort p x).verifyBank = s.verifyBank := rfl
@[simp] theorem State.setPort_accessKeys (p : Nat) (x : PortS) : (s.setPort p x).accessKeys = s.accessKeys := rfl
@[simp] theorem State.setPort_runMask (p : Nat) (x : PortS) : (s.setPort p x).runMask = s.runMask := rfl
@[simp] theorem State.setPort_serviceFlag (p : Nat) (x : PortS) : (s.setPort p x).serviceFlag = s.serviceFlag := rfl
@[simp] theorem State.setPort_writeList (p : Nat) (x : PortS) : (s.setPort p x).writeList = s.writeList := rfl
@[simp] theorem State.setPort_bootStrap (p : Nat) (x : PortS) : (s.setPort p x).bootStrap = s.bootStrap := rfl
@[simp] theorem State.setPort_tamperLow (p : Nat) (x : PortS) : (s.setPort p x).tamperLow = s.tamperLow := rfl
@[simp] theorem State.setPort_testEn (p : Nat) (x : PortS) : (s.setPort p x).testEn = s.testEn := rfl
@[simp] theorem State.setPort_jtag (p : Nat) (x : PortS) : (s.setPort p x).jtag = s.jtag := rfl
@[simp] theorem State.rd_setPort (p : Nat) (x : PortS) (g : Fld) (j : Nat) : (s.setPort p x).rd g j = s.rd g j := rfl
@[simp] theorem State.on_setPort (p : Nat) (x : PortS) (g : Fld) (j : Nat) : (s.setPort p x).on g j = s.on g j := rfl
@[simp] theorem State.ld_setPort (p : Nat) (x : PortS) (sq : Space) (j : Nat) : (s.setPort p x).ld sq j = s.ld sq j := rfl
@[simp] theorem State.bank_setPort (p : Nat) (x : PortS) (j : Nat) : (s.setPort p x).bank j = s.bank j := rfl
@[simp] theorem State.lane_setPort (p : Nat) (x : PortS) (j : Nat) : (s.setPort p x).lane j = s.lane j := rfl
@[simp] theorem State.sess_setPort (p : Nat) (x : PortS) (j : Nat) : (s.setPort p x).sess j = s.sess j := rfl
@[simp] theorem State.lockOf_setPort (p : Nat) (x : PortS) (j : Nat) : (s.setPort p x).lockOf j = s.lockOf j := rfl
@[simp] theorem State.ttx_setPort (p : Nat) (x : PortS) (j : Nat) : (s.setPort p x).ttx j = s.ttx j := rfl
@[simp] theorem State.trx_setPort (p : Nat) (x : PortS) (j : Nat) : (s.setPort p x).trx j = s.trx j := rfl
@[simp] theorem State.protT_setPort (p : Nat) (x : PortS) (j : Nat) : (s.setPort p x).protT j = s.protT j := rfl
@[simp] theorem State.hcOf_setPort (p : Nat) (x : PortS) (j : Nat) : (s.setPort p x).hcOf j = s.hcOf j := rfl
@[simp] theorem State.conv_setPort (p : Nat) (x : PortS) (j : Nat) : (s.setPort p x).conv j = s.conv j := rfl
@[simp] theorem State.word_setPort (p : Nat) (x : PortS) (r : Reg) (j : Nat) : (s.setPort p x).word r j = s.word r j := rfl

/-! ### setTtx -/

@[simp] theorem State.setTtx_pending (t : Nat) (x : TunTx) : (s.setTtx t x).pending = s.pending := rfl
@[simp] theorem State.setTtx_resetAfter (t : Nat) (x : TunTx) : (s.setTtx t x).resetAfter = s.resetAfter := rfl
@[simp] theorem State.setTtx_retrainAfter (t : Nat) (x : TunTx) : (s.setTtx t x).retrainAfter = s.retrainAfter := rfl
@[simp] theorem State.setTtx_regs (t : Nat) (x : TunTx) : (s.setTtx t x).regs = s.regs := rfl
@[simp] theorem State.setTtx_mem (t : Nat) (x : TunTx) : (s.setTtx t x).mem = s.mem := rfl
@[simp] theorem State.setTtx_time (t : Nat) (x : TunTx) : (s.setTtx t x).time = s.time := rfl
@[simp] theorem State.setTtx_freeCtr (t : Nat) (x : TunTx) : (s.setTtx t x).freeCtr = s.freeCtr := rfl
@[simp] theorem State.setTtx_lastStatus (t : Nat) (x : TunTx) : (s.setTtx t x).lastStatus = s.lastStatus := rfl
@[simp] theorem State.setTtx_lastValue (t : Nat) (x : TunTx) : (s.setTtx t x).lastValue = s.lastValue := rfl
@[simp] theorem State.setTtx_out (t : Nat) (x : TunTx) : (s.setTtx t x).out = s.out := rfl
@[simp] theorem State.setTtx_banks (t : Nat) (x : TunTx) : (s.setTtx t x).banks = s.banks := rfl
@[simp] theorem State.setTtx_captures (t : Nat) (x : TunTx) : (s.setTtx t x).captures = s.captures := rfl
@[simp] theorem State.setTtx_cmdSerial (t : Nat) (x : TunTx) : (s.setTtx t x).cmdSerial = s.cmdSerial := rfl
@[simp] theorem State.setTtx_entryWait (t : Nat) (x : TunTx) : (s.setTtx t x).entryWait = s.entryWait := rfl
@[simp] theorem State.setTtx_rrLast (t : Nat) (x : TunTx) : (s.setTtx t x).rrLast = s.rrLast := rfl
@[simp] theorem State.setTtx_lanes (t : Nat) (x : TunTx) : (s.setTtx t x).lanes = s.lanes := rfl
@[simp] theorem State.setTtx_locks (t : Nat) (x : TunTx) : (s.setTtx t x).locks = s.locks := rfl
@[simp] theorem State.setTtx_ports (t : Nat) (x : TunTx) : (s.setTtx t x).ports = s.ports := rfl
@[simp] theorem State.setTtx_tunRx (t : Nat) (x : TunTx) : (s.setTtx t x).tunRx = s.tunRx := rfl
@[simp] theorem State.setTtx_slotUse (t : Nat) (x : TunTx) : (s.setTtx t x).slotUse = s.slotUse := rfl
@[simp] theorem State.setTtx_hch (t : Nat) (x : TunTx) : (s.setTtx t x).hch = s.hch := rfl
@[simp] theorem State.setTtx_held (t : Nat) (x : TunTx) : (s.setTtx t x).held = s.held := rfl
@[simp] theorem State.setTtx_heldReads (t : Nat) (x : TunTx) : (s.setTtx t x).heldReads = s.heldReads := rfl
@[simp] theorem State.setTtx_heldOpen (t : Nat) (x : TunTx) : (s.setTtx t x).heldOpen = s.heldOpen := rfl
@[simp] theorem State.setTtx_rotor (t : Nat) (x : TunTx) : (s.setTtx t x).rotor = s.rotor := rfl
@[simp] theorem State.setTtx_repair (t : Nat) (x : TunTx) : (s.setTtx t x).repair = s.repair := rfl
@[simp] theorem State.setTtx_prot (t : Nat) (x : TunTx) : (s.setTtx t x).prot = s.prot := rfl
@[simp] theorem State.setTtx_switchReq (t : Nat) (x : TunTx) : (s.setTtx t x).switchReq = s.switchReq := rfl
@[simp] theorem State.setTtx_switchWait (t : Nat) (x : TunTx) : (s.setTtx t x).switchWait = s.switchWait := rfl
@[simp] theorem State.setTtx_rideWin (t : Nat) (x : TunTx) : (s.setTtx t x).rideWin = s.rideWin := rfl
@[simp] theorem State.setTtx_holdWin (t : Nat) (x : TunTx) : (s.setTtx t x).holdWin = s.holdWin := rfl
@[simp] theorem State.setTtx_drainWin (t : Nat) (x : TunTx) : (s.setTtx t x).drainWin = s.drainWin := rfl
@[simp] theorem State.setTtx_snap (t : Nat) (x : TunTx) : (s.setTtx t x).snap = s.snap := rfl
@[simp] theorem State.setTtx_perfPipe (t : Nat) (x : TunTx) : (s.setTtx t x).perfPipe = s.perfPipe := rfl
@[simp] theorem State.setTtx_perfNext (t : Nat) (x : TunTx) : (s.setTtx t x).perfNext = s.perfNext := rfl
@[simp] theorem State.setTtx_snapSeq (t : Nat) (x : TunTx) : (s.setTtx t x).snapSeq = s.snapSeq := rfl
@[simp] theorem State.setTtx_thermalWait (t : Nat) (x : TunTx) : (s.setTtx t x).thermalWait = s.thermalWait := rfl
@[simp] theorem State.setTtx_convs (t : Nat) (x : TunTx) : (s.setTtx t x).convs = s.convs := rfl
@[simp] theorem State.setTtx_caps (t : Nat) (x : TunTx) : (s.setTtx t x).caps = s.caps := rfl
@[simp] theorem State.setTtx_i2c (t : Nat) (x : TunTx) : (s.setTtx t x).i2c = s.i2c := rfl
@[simp] theorem State.setTtx_rstPins (t : Nat) (x : TunTx) : (s.setTtx t x).rstPins = s.rstPins := rfl
@[simp] theorem State.setTtx_sessions (t : Nat) (x : TunTx) : (s.setTtx t x).sessions = s.sessions := rfl
@[simp] theorem State.setTtx_hostWait (t : Nat) (x : TunTx) : (s.setTtx t x).hostWait = s.hostWait := rfl
@[simp] theorem State.setTtx_lseqTx (t : Nat) (x : TunTx) : (s.setTtx t x).lseqTx = s.lseqTx := rfl
@[simp] theorem State.setTtx_lseqRx (t : Nat) (x : TunTx) : (s.setTtx t x).lseqRx = s.lseqRx := rfl
@[simp] theorem State.setTtx_replayBuf (t : Nat) (x : TunTx) : (s.setTtx t x).replayBuf = s.replayBuf := rfl
@[simp] theorem State.setTtx_fresh (t : Nat) (x : TunTx) : (s.setTtx t x).fresh = s.fresh := rfl
@[simp] theorem State.setTtx_lanesAligned (t : Nat) (x : TunTx) : (s.setTtx t x).lanesAligned = s.lanesAligned := rfl
@[simp] theorem State.setTtx_tsSeen (t : Nat) (x : TunTx) : (s.setTtx t x).tsSeen = s.tsSeen := rfl
@[simp] theorem State.setTtx_peerSeen (t : Nat) (x : TunTx) : (s.setTtx t x).peerSeen = s.peerSeen := rfl
@[simp] theorem State.setTtx_ts2Seen (t : Nat) (x : TunTx) : (s.setTtx t x).ts2Seen = s.ts2Seen := rfl
@[simp] theorem State.setTtx_peerMask (t : Nat) (x : TunTx) : (s.setTtx t x).peerMask = s.peerMask := rfl
@[simp] theorem State.setTtx_misplacedAlign (t : Nat) (x : TunTx) : (s.setTtx t x).misplacedAlign = s.misplacedAlign := rfl
@[simp] theorem State.setTtx_narrow (t : Nat) (x : TunTx) : (s.setTtx t x).narrow = s.narrow := rfl
@[simp] theorem State.setTtx_linkFill (t : Nat) (x : TunTx) : (s.setTtx t x).linkFill = s.linkFill := rfl
@[simp] theorem State.setTtx_ts2At (t : Nat) (x : TunTx) : (s.setTtx t x).ts2At = s.ts2At := rfl
@[simp] theorem State.setTtx_alignAt (t : Nat) (x : TunTx) : (s.setTtx t x).alignAt = s.alignAt := rfl
@[simp] theorem State.setTtx_linkAt (t : Nat) (x : TunTx) : (s.setTtx t x).linkAt = s.linkAt := rfl
@[simp] theorem State.setTtx_downAt (t : Nat) (x : TunTx) : (s.setTtx t x).downAt = s.downAt := rfl
@[simp] theorem State.setTtx_lockAt (t : Nat) (x : TunTx) : (s.setTtx t x).lockAt = s.lockAt := rfl
@[simp] theorem State.setTtx_authFailures (t : Nat) (x : TunTx) : (s.setTtx t x).authFailures = s.authFailures := rfl
@[simp] theorem State.setTtx_ackDue (t : Nat) (x : TunTx) : (s.setTtx t x).ackDue = s.ackDue := rfl
@[simp] theorem State.setTtx_marks (t : Nat) (x : TunTx) : (s.setTtx t x).marks = s.marks := rfl
@[simp] theorem State.setTtx_trackers (t : Nat) (x : TunTx) : (s.setTtx t x).trackers = s.trackers := rfl
@[simp] theorem State.setTtx_log (t : Nat) (x : TunTx) : (s.setTtx t x).log = s.log := rfl
@[simp] theorem State.setTtx_withheld (t : Nat) (x : TunTx) : (s.setTtx t x).withheld = s.withheld := rfl
@[simp] theorem State.setTtx_written (t : Nat) (x : TunTx) : (s.setTtx t x).written = s.written := rfl
@[simp] theorem State.setTtx_scrubFrom (t : Nat) (x : TunTx) : (s.setTtx t x).scrubFrom = s.scrubFrom := rfl
@[simp] theorem State.setTtx_scrubAt (t : Nat) (x : TunTx) : (s.setTtx t x).scrubAt = s.scrubAt := rfl
@[simp] theorem State.setTtx_sparesUsed (t : Nat) (x : TunTx) : (s.setTtx t x).sparesUsed = s.sparesUsed := rfl
@[simp] theorem State.setTtx_nmtHeld (t : Nat) (x : TunTx) : (s.setTtx t x).nmtHeld = s.nmtHeld := rfl
@[simp] theorem State.setTtx_blockResets (t : Nat) (x : TunTx) : (s.setTtx t x).blockResets = s.blockResets := rfl
@[simp] theorem State.setTtx_reactResets (t : Nat) (x : TunTx) : (s.setTtx t x).reactResets = s.reactResets := rfl
@[simp] theorem State.setTtx_oscLost (t : Nat) (x : TunTx) : (s.setTtx t x).oscLost = s.oscLost := rfl
@[simp] theorem State.setTtx_alivePhase (t : Nat) (x : TunTx) : (s.setTtx t x).alivePhase = s.alivePhase := rfl
@[simp] theorem State.setTtx_resets (t : Nat) (x : TunTx) : (s.setTtx t x).resets = s.resets := rfl
@[simp] theorem State.setTtx_resetCause (t : Nat) (x : TunTx) : (s.setTtx t x).resetCause = s.resetCause := rfl
@[simp] theorem State.setTtx_inReset (t : Nat) (x : TunTx) : (s.setTtx t x).inReset = s.inReset := rfl
@[simp] theorem State.setTtx_sliceRegion (t : Nat) (x : TunTx) : (s.setTtx t x).sliceRegion = s.sliceRegion := rfl
@[simp] theorem State.setTtx_sliceMem (t : Nat) (x : TunTx) : (s.setTtx t x).sliceMem = s.sliceMem := rfl
@[simp] theorem State.setTtx_sliceRedirect (t : Nat) (x : TunTx) : (s.setTtx t x).sliceRedirect = s.sliceRedirect := rfl
@[simp] theorem State.setTtx_kilnWait (t : Nat) (x : TunTx) : (s.setTtx t x).kilnWait = s.kilnWait := rfl
@[simp] theorem State.setTtx_trafficAt (t : Nat) (x : TunTx) : (s.setTtx t x).trafficAt = s.trafficAt := rfl
@[simp] theorem State.setTtx_kilnHeldFail (t : Nat) (x : TunTx) : (s.setTtx t x).kilnHeldFail = s.kilnHeldFail := rfl
@[simp] theorem State.setTtx_moves (t : Nat) (x : TunTx) : (s.setTtx t x).moves = s.moves := rfl
@[simp] theorem State.setTtx_holdAt (t : Nat) (x : TunTx) : (s.setTtx t x).holdAt = s.holdAt := rfl
@[simp] theorem State.setTtx_railsLow (t : Nat) (x : TunTx) : (s.setTtx t x).railsLow = s.railsLow := rfl
@[simp] theorem State.setTtx_thermAt (t : Nat) (x : TunTx) : (s.setTtx t x).thermAt = s.thermAt := rfl
@[simp] theorem State.setTtx_coolAt (t : Nat) (x : TunTx) : (s.setTtx t x).coolAt = s.coolAt := rfl
@[simp] theorem State.setTtx_coldAt (t : Nat) (x : TunTx) : (s.setTtx t x).coldAt = s.coldAt := rfl
@[simp] theorem State.setTtx_stopDue (t : Nat) (x : TunTx) : (s.setTtx t x).stopDue = s.stopDue := rfl
@[simp] theorem State.setTtx_warnSweeps (t : Nat) (x : TunTx) : (s.setTtx t x).warnSweeps = s.warnSweeps := rfl
@[simp] theorem State.setTtx_stopSweeps (t : Nat) (x : TunTx) : (s.setTtx t x).stopSweeps = s.stopSweeps := rfl
@[simp] theorem State.setTtx_sensorSeen (t : Nat) (x : TunTx) : (s.setTtx t x).sensorSeen = s.sensorSeen := rfl
@[simp] theorem State.setTtx_cleanSweeps (t : Nat) (x : TunTx) : (s.setTtx t x).cleanSweeps = s.cleanSweeps := rfl
@[simp] theorem State.setTtx_nextSensor (t : Nat) (x : TunTx) : (s.setTtx t x).nextSensor = s.nextSensor := rfl
@[simp] theorem State.setTtx_cutTripped (t : Nat) (x : TunTx) : (s.setTtx t x).cutTripped = s.cutTripped := rfl
@[simp] theorem State.setTtx_cutArmed (t : Nat) (x : TunTx) : (s.setTtx t x).cutArmed = s.cutArmed := rfl
@[simp] theorem State.setTtx_digestDone (t : Nat) (x : TunTx) : (s.setTtx t x).digestDone = s.digestDone := rfl
@[simp] theorem State.setTtx_bankVerified (t : Nat) (x : TunTx) : (s.setTtx t x).bankVerified = s.bankVerified := rfl
@[simp] theorem State.setTtx_ptrBank (t : Nat) (x : TunTx) : (s.setTtx t x).ptrBank = s.ptrBank := rfl
@[simp] theorem State.setTtx_ptrGen (t : Nat) (x : TunTx) : (s.setTtx t x).ptrGen = s.ptrGen := rfl
@[simp] theorem State.setTtx_epochCount (t : Nat) (x : TunTx) : (s.setTtx t x).epochCount = s.epochCount := rfl
@[simp] theorem State.setTtx_journal (t : Nat) (x : TunTx) : (s.setTtx t x).journal = s.journal := rfl
@[simp] theorem State.setTtx_peatWord (t : Nat) (x : TunTx) : (s.setTtx t x).peatWord = s.peatWord := rfl
@[simp] theorem State.setTtx_verifyBank (t : Nat) (x : TunTx) : (s.setTtx t x).verifyBank = s.verifyBank := rfl
@[simp] theorem State.setTtx_accessKeys (t : Nat) (x : TunTx) : (s.setTtx t x).accessKeys = s.accessKeys := rfl
@[simp] theorem State.setTtx_runMask (t : Nat) (x : TunTx) : (s.setTtx t x).runMask = s.runMask := rfl
@[simp] theorem State.setTtx_serviceFlag (t : Nat) (x : TunTx) : (s.setTtx t x).serviceFlag = s.serviceFlag := rfl
@[simp] theorem State.setTtx_writeList (t : Nat) (x : TunTx) : (s.setTtx t x).writeList = s.writeList := rfl
@[simp] theorem State.setTtx_bootStrap (t : Nat) (x : TunTx) : (s.setTtx t x).bootStrap = s.bootStrap := rfl
@[simp] theorem State.setTtx_tamperLow (t : Nat) (x : TunTx) : (s.setTtx t x).tamperLow = s.tamperLow := rfl
@[simp] theorem State.setTtx_testEn (t : Nat) (x : TunTx) : (s.setTtx t x).testEn = s.testEn := rfl
@[simp] theorem State.setTtx_jtag (t : Nat) (x : TunTx) : (s.setTtx t x).jtag = s.jtag := rfl
@[simp] theorem State.rd_setTtx (t : Nat) (x : TunTx) (g : Fld) (j : Nat) : (s.setTtx t x).rd g j = s.rd g j := rfl
@[simp] theorem State.on_setTtx (t : Nat) (x : TunTx) (g : Fld) (j : Nat) : (s.setTtx t x).on g j = s.on g j := rfl
@[simp] theorem State.ld_setTtx (t : Nat) (x : TunTx) (sq : Space) (j : Nat) : (s.setTtx t x).ld sq j = s.ld sq j := rfl
@[simp] theorem State.bank_setTtx (t : Nat) (x : TunTx) (j : Nat) : (s.setTtx t x).bank j = s.bank j := rfl
@[simp] theorem State.lane_setTtx (t : Nat) (x : TunTx) (j : Nat) : (s.setTtx t x).lane j = s.lane j := rfl
@[simp] theorem State.sess_setTtx (t : Nat) (x : TunTx) (j : Nat) : (s.setTtx t x).sess j = s.sess j := rfl
@[simp] theorem State.lockOf_setTtx (t : Nat) (x : TunTx) (j : Nat) : (s.setTtx t x).lockOf j = s.lockOf j := rfl
@[simp] theorem State.port_setTtx (t : Nat) (x : TunTx) (j : Nat) : (s.setTtx t x).port j = s.port j := rfl
@[simp] theorem State.trx_setTtx (t : Nat) (x : TunTx) (j : Nat) : (s.setTtx t x).trx j = s.trx j := rfl
@[simp] theorem State.protT_setTtx (t : Nat) (x : TunTx) (j : Nat) : (s.setTtx t x).protT j = s.protT j := rfl
@[simp] theorem State.hcOf_setTtx (t : Nat) (x : TunTx) (j : Nat) : (s.setTtx t x).hcOf j = s.hcOf j := rfl
@[simp] theorem State.conv_setTtx (t : Nat) (x : TunTx) (j : Nat) : (s.setTtx t x).conv j = s.conv j := rfl
@[simp] theorem State.word_setTtx (t : Nat) (x : TunTx) (r : Reg) (j : Nat) : (s.setTtx t x).word r j = s.word r j := rfl

/-! ### setTrx -/

@[simp] theorem State.setTrx_pending (t : Nat) (x : TunRx) : (s.setTrx t x).pending = s.pending := rfl
@[simp] theorem State.setTrx_resetAfter (t : Nat) (x : TunRx) : (s.setTrx t x).resetAfter = s.resetAfter := rfl
@[simp] theorem State.setTrx_retrainAfter (t : Nat) (x : TunRx) : (s.setTrx t x).retrainAfter = s.retrainAfter := rfl
@[simp] theorem State.setTrx_regs (t : Nat) (x : TunRx) : (s.setTrx t x).regs = s.regs := rfl
@[simp] theorem State.setTrx_mem (t : Nat) (x : TunRx) : (s.setTrx t x).mem = s.mem := rfl
@[simp] theorem State.setTrx_time (t : Nat) (x : TunRx) : (s.setTrx t x).time = s.time := rfl
@[simp] theorem State.setTrx_freeCtr (t : Nat) (x : TunRx) : (s.setTrx t x).freeCtr = s.freeCtr := rfl
@[simp] theorem State.setTrx_lastStatus (t : Nat) (x : TunRx) : (s.setTrx t x).lastStatus = s.lastStatus := rfl
@[simp] theorem State.setTrx_lastValue (t : Nat) (x : TunRx) : (s.setTrx t x).lastValue = s.lastValue := rfl
@[simp] theorem State.setTrx_out (t : Nat) (x : TunRx) : (s.setTrx t x).out = s.out := rfl
@[simp] theorem State.setTrx_banks (t : Nat) (x : TunRx) : (s.setTrx t x).banks = s.banks := rfl
@[simp] theorem State.setTrx_captures (t : Nat) (x : TunRx) : (s.setTrx t x).captures = s.captures := rfl
@[simp] theorem State.setTrx_cmdSerial (t : Nat) (x : TunRx) : (s.setTrx t x).cmdSerial = s.cmdSerial := rfl
@[simp] theorem State.setTrx_entryWait (t : Nat) (x : TunRx) : (s.setTrx t x).entryWait = s.entryWait := rfl
@[simp] theorem State.setTrx_rrLast (t : Nat) (x : TunRx) : (s.setTrx t x).rrLast = s.rrLast := rfl
@[simp] theorem State.setTrx_lanes (t : Nat) (x : TunRx) : (s.setTrx t x).lanes = s.lanes := rfl
@[simp] theorem State.setTrx_locks (t : Nat) (x : TunRx) : (s.setTrx t x).locks = s.locks := rfl
@[simp] theorem State.setTrx_ports (t : Nat) (x : TunRx) : (s.setTrx t x).ports = s.ports := rfl
@[simp] theorem State.setTrx_tunTx (t : Nat) (x : TunRx) : (s.setTrx t x).tunTx = s.tunTx := rfl
@[simp] theorem State.setTrx_slotUse (t : Nat) (x : TunRx) : (s.setTrx t x).slotUse = s.slotUse := rfl
@[simp] theorem State.setTrx_hch (t : Nat) (x : TunRx) : (s.setTrx t x).hch = s.hch := rfl
@[simp] theorem State.setTrx_held (t : Nat) (x : TunRx) : (s.setTrx t x).held = s.held := rfl
@[simp] theorem State.setTrx_heldReads (t : Nat) (x : TunRx) : (s.setTrx t x).heldReads = s.heldReads := rfl
@[simp] theorem State.setTrx_heldOpen (t : Nat) (x : TunRx) : (s.setTrx t x).heldOpen = s.heldOpen := rfl
@[simp] theorem State.setTrx_rotor (t : Nat) (x : TunRx) : (s.setTrx t x).rotor = s.rotor := rfl
@[simp] theorem State.setTrx_repair (t : Nat) (x : TunRx) : (s.setTrx t x).repair = s.repair := rfl
@[simp] theorem State.setTrx_prot (t : Nat) (x : TunRx) : (s.setTrx t x).prot = s.prot := rfl
@[simp] theorem State.setTrx_switchReq (t : Nat) (x : TunRx) : (s.setTrx t x).switchReq = s.switchReq := rfl
@[simp] theorem State.setTrx_switchWait (t : Nat) (x : TunRx) : (s.setTrx t x).switchWait = s.switchWait := rfl
@[simp] theorem State.setTrx_rideWin (t : Nat) (x : TunRx) : (s.setTrx t x).rideWin = s.rideWin := rfl
@[simp] theorem State.setTrx_holdWin (t : Nat) (x : TunRx) : (s.setTrx t x).holdWin = s.holdWin := rfl
@[simp] theorem State.setTrx_drainWin (t : Nat) (x : TunRx) : (s.setTrx t x).drainWin = s.drainWin := rfl
@[simp] theorem State.setTrx_snap (t : Nat) (x : TunRx) : (s.setTrx t x).snap = s.snap := rfl
@[simp] theorem State.setTrx_perfPipe (t : Nat) (x : TunRx) : (s.setTrx t x).perfPipe = s.perfPipe := rfl
@[simp] theorem State.setTrx_perfNext (t : Nat) (x : TunRx) : (s.setTrx t x).perfNext = s.perfNext := rfl
@[simp] theorem State.setTrx_snapSeq (t : Nat) (x : TunRx) : (s.setTrx t x).snapSeq = s.snapSeq := rfl
@[simp] theorem State.setTrx_thermalWait (t : Nat) (x : TunRx) : (s.setTrx t x).thermalWait = s.thermalWait := rfl
@[simp] theorem State.setTrx_convs (t : Nat) (x : TunRx) : (s.setTrx t x).convs = s.convs := rfl
@[simp] theorem State.setTrx_caps (t : Nat) (x : TunRx) : (s.setTrx t x).caps = s.caps := rfl
@[simp] theorem State.setTrx_i2c (t : Nat) (x : TunRx) : (s.setTrx t x).i2c = s.i2c := rfl
@[simp] theorem State.setTrx_rstPins (t : Nat) (x : TunRx) : (s.setTrx t x).rstPins = s.rstPins := rfl
@[simp] theorem State.setTrx_sessions (t : Nat) (x : TunRx) : (s.setTrx t x).sessions = s.sessions := rfl
@[simp] theorem State.setTrx_hostWait (t : Nat) (x : TunRx) : (s.setTrx t x).hostWait = s.hostWait := rfl
@[simp] theorem State.setTrx_lseqTx (t : Nat) (x : TunRx) : (s.setTrx t x).lseqTx = s.lseqTx := rfl
@[simp] theorem State.setTrx_lseqRx (t : Nat) (x : TunRx) : (s.setTrx t x).lseqRx = s.lseqRx := rfl
@[simp] theorem State.setTrx_replayBuf (t : Nat) (x : TunRx) : (s.setTrx t x).replayBuf = s.replayBuf := rfl
@[simp] theorem State.setTrx_fresh (t : Nat) (x : TunRx) : (s.setTrx t x).fresh = s.fresh := rfl
@[simp] theorem State.setTrx_lanesAligned (t : Nat) (x : TunRx) : (s.setTrx t x).lanesAligned = s.lanesAligned := rfl
@[simp] theorem State.setTrx_tsSeen (t : Nat) (x : TunRx) : (s.setTrx t x).tsSeen = s.tsSeen := rfl
@[simp] theorem State.setTrx_peerSeen (t : Nat) (x : TunRx) : (s.setTrx t x).peerSeen = s.peerSeen := rfl
@[simp] theorem State.setTrx_ts2Seen (t : Nat) (x : TunRx) : (s.setTrx t x).ts2Seen = s.ts2Seen := rfl
@[simp] theorem State.setTrx_peerMask (t : Nat) (x : TunRx) : (s.setTrx t x).peerMask = s.peerMask := rfl
@[simp] theorem State.setTrx_misplacedAlign (t : Nat) (x : TunRx) : (s.setTrx t x).misplacedAlign = s.misplacedAlign := rfl
@[simp] theorem State.setTrx_narrow (t : Nat) (x : TunRx) : (s.setTrx t x).narrow = s.narrow := rfl
@[simp] theorem State.setTrx_linkFill (t : Nat) (x : TunRx) : (s.setTrx t x).linkFill = s.linkFill := rfl
@[simp] theorem State.setTrx_ts2At (t : Nat) (x : TunRx) : (s.setTrx t x).ts2At = s.ts2At := rfl
@[simp] theorem State.setTrx_alignAt (t : Nat) (x : TunRx) : (s.setTrx t x).alignAt = s.alignAt := rfl
@[simp] theorem State.setTrx_linkAt (t : Nat) (x : TunRx) : (s.setTrx t x).linkAt = s.linkAt := rfl
@[simp] theorem State.setTrx_downAt (t : Nat) (x : TunRx) : (s.setTrx t x).downAt = s.downAt := rfl
@[simp] theorem State.setTrx_lockAt (t : Nat) (x : TunRx) : (s.setTrx t x).lockAt = s.lockAt := rfl
@[simp] theorem State.setTrx_authFailures (t : Nat) (x : TunRx) : (s.setTrx t x).authFailures = s.authFailures := rfl
@[simp] theorem State.setTrx_ackDue (t : Nat) (x : TunRx) : (s.setTrx t x).ackDue = s.ackDue := rfl
@[simp] theorem State.setTrx_marks (t : Nat) (x : TunRx) : (s.setTrx t x).marks = s.marks := rfl
@[simp] theorem State.setTrx_trackers (t : Nat) (x : TunRx) : (s.setTrx t x).trackers = s.trackers := rfl
@[simp] theorem State.setTrx_log (t : Nat) (x : TunRx) : (s.setTrx t x).log = s.log := rfl
@[simp] theorem State.setTrx_withheld (t : Nat) (x : TunRx) : (s.setTrx t x).withheld = s.withheld := rfl
@[simp] theorem State.setTrx_written (t : Nat) (x : TunRx) : (s.setTrx t x).written = s.written := rfl
@[simp] theorem State.setTrx_scrubFrom (t : Nat) (x : TunRx) : (s.setTrx t x).scrubFrom = s.scrubFrom := rfl
@[simp] theorem State.setTrx_scrubAt (t : Nat) (x : TunRx) : (s.setTrx t x).scrubAt = s.scrubAt := rfl
@[simp] theorem State.setTrx_sparesUsed (t : Nat) (x : TunRx) : (s.setTrx t x).sparesUsed = s.sparesUsed := rfl
@[simp] theorem State.setTrx_nmtHeld (t : Nat) (x : TunRx) : (s.setTrx t x).nmtHeld = s.nmtHeld := rfl
@[simp] theorem State.setTrx_blockResets (t : Nat) (x : TunRx) : (s.setTrx t x).blockResets = s.blockResets := rfl
@[simp] theorem State.setTrx_reactResets (t : Nat) (x : TunRx) : (s.setTrx t x).reactResets = s.reactResets := rfl
@[simp] theorem State.setTrx_oscLost (t : Nat) (x : TunRx) : (s.setTrx t x).oscLost = s.oscLost := rfl
@[simp] theorem State.setTrx_alivePhase (t : Nat) (x : TunRx) : (s.setTrx t x).alivePhase = s.alivePhase := rfl
@[simp] theorem State.setTrx_resets (t : Nat) (x : TunRx) : (s.setTrx t x).resets = s.resets := rfl
@[simp] theorem State.setTrx_resetCause (t : Nat) (x : TunRx) : (s.setTrx t x).resetCause = s.resetCause := rfl
@[simp] theorem State.setTrx_inReset (t : Nat) (x : TunRx) : (s.setTrx t x).inReset = s.inReset := rfl
@[simp] theorem State.setTrx_sliceRegion (t : Nat) (x : TunRx) : (s.setTrx t x).sliceRegion = s.sliceRegion := rfl
@[simp] theorem State.setTrx_sliceMem (t : Nat) (x : TunRx) : (s.setTrx t x).sliceMem = s.sliceMem := rfl
@[simp] theorem State.setTrx_sliceRedirect (t : Nat) (x : TunRx) : (s.setTrx t x).sliceRedirect = s.sliceRedirect := rfl
@[simp] theorem State.setTrx_kilnWait (t : Nat) (x : TunRx) : (s.setTrx t x).kilnWait = s.kilnWait := rfl
@[simp] theorem State.setTrx_trafficAt (t : Nat) (x : TunRx) : (s.setTrx t x).trafficAt = s.trafficAt := rfl
@[simp] theorem State.setTrx_kilnHeldFail (t : Nat) (x : TunRx) : (s.setTrx t x).kilnHeldFail = s.kilnHeldFail := rfl
@[simp] theorem State.setTrx_moves (t : Nat) (x : TunRx) : (s.setTrx t x).moves = s.moves := rfl
@[simp] theorem State.setTrx_holdAt (t : Nat) (x : TunRx) : (s.setTrx t x).holdAt = s.holdAt := rfl
@[simp] theorem State.setTrx_railsLow (t : Nat) (x : TunRx) : (s.setTrx t x).railsLow = s.railsLow := rfl
@[simp] theorem State.setTrx_thermAt (t : Nat) (x : TunRx) : (s.setTrx t x).thermAt = s.thermAt := rfl
@[simp] theorem State.setTrx_coolAt (t : Nat) (x : TunRx) : (s.setTrx t x).coolAt = s.coolAt := rfl
@[simp] theorem State.setTrx_coldAt (t : Nat) (x : TunRx) : (s.setTrx t x).coldAt = s.coldAt := rfl
@[simp] theorem State.setTrx_stopDue (t : Nat) (x : TunRx) : (s.setTrx t x).stopDue = s.stopDue := rfl
@[simp] theorem State.setTrx_warnSweeps (t : Nat) (x : TunRx) : (s.setTrx t x).warnSweeps = s.warnSweeps := rfl
@[simp] theorem State.setTrx_stopSweeps (t : Nat) (x : TunRx) : (s.setTrx t x).stopSweeps = s.stopSweeps := rfl
@[simp] theorem State.setTrx_sensorSeen (t : Nat) (x : TunRx) : (s.setTrx t x).sensorSeen = s.sensorSeen := rfl
@[simp] theorem State.setTrx_cleanSweeps (t : Nat) (x : TunRx) : (s.setTrx t x).cleanSweeps = s.cleanSweeps := rfl
@[simp] theorem State.setTrx_nextSensor (t : Nat) (x : TunRx) : (s.setTrx t x).nextSensor = s.nextSensor := rfl
@[simp] theorem State.setTrx_cutTripped (t : Nat) (x : TunRx) : (s.setTrx t x).cutTripped = s.cutTripped := rfl
@[simp] theorem State.setTrx_cutArmed (t : Nat) (x : TunRx) : (s.setTrx t x).cutArmed = s.cutArmed := rfl
@[simp] theorem State.setTrx_digestDone (t : Nat) (x : TunRx) : (s.setTrx t x).digestDone = s.digestDone := rfl
@[simp] theorem State.setTrx_bankVerified (t : Nat) (x : TunRx) : (s.setTrx t x).bankVerified = s.bankVerified := rfl
@[simp] theorem State.setTrx_ptrBank (t : Nat) (x : TunRx) : (s.setTrx t x).ptrBank = s.ptrBank := rfl
@[simp] theorem State.setTrx_ptrGen (t : Nat) (x : TunRx) : (s.setTrx t x).ptrGen = s.ptrGen := rfl
@[simp] theorem State.setTrx_epochCount (t : Nat) (x : TunRx) : (s.setTrx t x).epochCount = s.epochCount := rfl
@[simp] theorem State.setTrx_journal (t : Nat) (x : TunRx) : (s.setTrx t x).journal = s.journal := rfl
@[simp] theorem State.setTrx_peatWord (t : Nat) (x : TunRx) : (s.setTrx t x).peatWord = s.peatWord := rfl
@[simp] theorem State.setTrx_verifyBank (t : Nat) (x : TunRx) : (s.setTrx t x).verifyBank = s.verifyBank := rfl
@[simp] theorem State.setTrx_accessKeys (t : Nat) (x : TunRx) : (s.setTrx t x).accessKeys = s.accessKeys := rfl
@[simp] theorem State.setTrx_runMask (t : Nat) (x : TunRx) : (s.setTrx t x).runMask = s.runMask := rfl
@[simp] theorem State.setTrx_serviceFlag (t : Nat) (x : TunRx) : (s.setTrx t x).serviceFlag = s.serviceFlag := rfl
@[simp] theorem State.setTrx_writeList (t : Nat) (x : TunRx) : (s.setTrx t x).writeList = s.writeList := rfl
@[simp] theorem State.setTrx_bootStrap (t : Nat) (x : TunRx) : (s.setTrx t x).bootStrap = s.bootStrap := rfl
@[simp] theorem State.setTrx_tamperLow (t : Nat) (x : TunRx) : (s.setTrx t x).tamperLow = s.tamperLow := rfl
@[simp] theorem State.setTrx_testEn (t : Nat) (x : TunRx) : (s.setTrx t x).testEn = s.testEn := rfl
@[simp] theorem State.setTrx_jtag (t : Nat) (x : TunRx) : (s.setTrx t x).jtag = s.jtag := rfl
@[simp] theorem State.rd_setTrx (t : Nat) (x : TunRx) (g : Fld) (j : Nat) : (s.setTrx t x).rd g j = s.rd g j := rfl
@[simp] theorem State.on_setTrx (t : Nat) (x : TunRx) (g : Fld) (j : Nat) : (s.setTrx t x).on g j = s.on g j := rfl
@[simp] theorem State.ld_setTrx (t : Nat) (x : TunRx) (sq : Space) (j : Nat) : (s.setTrx t x).ld sq j = s.ld sq j := rfl
@[simp] theorem State.bank_setTrx (t : Nat) (x : TunRx) (j : Nat) : (s.setTrx t x).bank j = s.bank j := rfl
@[simp] theorem State.lane_setTrx (t : Nat) (x : TunRx) (j : Nat) : (s.setTrx t x).lane j = s.lane j := rfl
@[simp] theorem State.sess_setTrx (t : Nat) (x : TunRx) (j : Nat) : (s.setTrx t x).sess j = s.sess j := rfl
@[simp] theorem State.lockOf_setTrx (t : Nat) (x : TunRx) (j : Nat) : (s.setTrx t x).lockOf j = s.lockOf j := rfl
@[simp] theorem State.port_setTrx (t : Nat) (x : TunRx) (j : Nat) : (s.setTrx t x).port j = s.port j := rfl
@[simp] theorem State.ttx_setTrx (t : Nat) (x : TunRx) (j : Nat) : (s.setTrx t x).ttx j = s.ttx j := rfl
@[simp] theorem State.protT_setTrx (t : Nat) (x : TunRx) (j : Nat) : (s.setTrx t x).protT j = s.protT j := rfl
@[simp] theorem State.hcOf_setTrx (t : Nat) (x : TunRx) (j : Nat) : (s.setTrx t x).hcOf j = s.hcOf j := rfl
@[simp] theorem State.conv_setTrx (t : Nat) (x : TunRx) (j : Nat) : (s.setTrx t x).conv j = s.conv j := rfl
@[simp] theorem State.word_setTrx (t : Nat) (x : TunRx) (r : Reg) (j : Nat) : (s.setTrx t x).word r j = s.word r j := rfl

/-! ### setProt -/

@[simp] theorem State.setProt_pending (t : Nat) (x : ProtT) : (s.setProt t x).pending = s.pending := rfl
@[simp] theorem State.setProt_resetAfter (t : Nat) (x : ProtT) : (s.setProt t x).resetAfter = s.resetAfter := rfl
@[simp] theorem State.setProt_retrainAfter (t : Nat) (x : ProtT) : (s.setProt t x).retrainAfter = s.retrainAfter := rfl
@[simp] theorem State.setProt_regs (t : Nat) (x : ProtT) : (s.setProt t x).regs = s.regs := rfl
@[simp] theorem State.setProt_mem (t : Nat) (x : ProtT) : (s.setProt t x).mem = s.mem := rfl
@[simp] theorem State.setProt_time (t : Nat) (x : ProtT) : (s.setProt t x).time = s.time := rfl
@[simp] theorem State.setProt_freeCtr (t : Nat) (x : ProtT) : (s.setProt t x).freeCtr = s.freeCtr := rfl
@[simp] theorem State.setProt_lastStatus (t : Nat) (x : ProtT) : (s.setProt t x).lastStatus = s.lastStatus := rfl
@[simp] theorem State.setProt_lastValue (t : Nat) (x : ProtT) : (s.setProt t x).lastValue = s.lastValue := rfl
@[simp] theorem State.setProt_out (t : Nat) (x : ProtT) : (s.setProt t x).out = s.out := rfl
@[simp] theorem State.setProt_banks (t : Nat) (x : ProtT) : (s.setProt t x).banks = s.banks := rfl
@[simp] theorem State.setProt_captures (t : Nat) (x : ProtT) : (s.setProt t x).captures = s.captures := rfl
@[simp] theorem State.setProt_cmdSerial (t : Nat) (x : ProtT) : (s.setProt t x).cmdSerial = s.cmdSerial := rfl
@[simp] theorem State.setProt_entryWait (t : Nat) (x : ProtT) : (s.setProt t x).entryWait = s.entryWait := rfl
@[simp] theorem State.setProt_rrLast (t : Nat) (x : ProtT) : (s.setProt t x).rrLast = s.rrLast := rfl
@[simp] theorem State.setProt_lanes (t : Nat) (x : ProtT) : (s.setProt t x).lanes = s.lanes := rfl
@[simp] theorem State.setProt_locks (t : Nat) (x : ProtT) : (s.setProt t x).locks = s.locks := rfl
@[simp] theorem State.setProt_ports (t : Nat) (x : ProtT) : (s.setProt t x).ports = s.ports := rfl
@[simp] theorem State.setProt_tunTx (t : Nat) (x : ProtT) : (s.setProt t x).tunTx = s.tunTx := rfl
@[simp] theorem State.setProt_tunRx (t : Nat) (x : ProtT) : (s.setProt t x).tunRx = s.tunRx := rfl
@[simp] theorem State.setProt_slotUse (t : Nat) (x : ProtT) : (s.setProt t x).slotUse = s.slotUse := rfl
@[simp] theorem State.setProt_hch (t : Nat) (x : ProtT) : (s.setProt t x).hch = s.hch := rfl
@[simp] theorem State.setProt_held (t : Nat) (x : ProtT) : (s.setProt t x).held = s.held := rfl
@[simp] theorem State.setProt_heldReads (t : Nat) (x : ProtT) : (s.setProt t x).heldReads = s.heldReads := rfl
@[simp] theorem State.setProt_heldOpen (t : Nat) (x : ProtT) : (s.setProt t x).heldOpen = s.heldOpen := rfl
@[simp] theorem State.setProt_rotor (t : Nat) (x : ProtT) : (s.setProt t x).rotor = s.rotor := rfl
@[simp] theorem State.setProt_repair (t : Nat) (x : ProtT) : (s.setProt t x).repair = s.repair := rfl
@[simp] theorem State.setProt_switchReq (t : Nat) (x : ProtT) : (s.setProt t x).switchReq = s.switchReq := rfl
@[simp] theorem State.setProt_switchWait (t : Nat) (x : ProtT) : (s.setProt t x).switchWait = s.switchWait := rfl
@[simp] theorem State.setProt_rideWin (t : Nat) (x : ProtT) : (s.setProt t x).rideWin = s.rideWin := rfl
@[simp] theorem State.setProt_holdWin (t : Nat) (x : ProtT) : (s.setProt t x).holdWin = s.holdWin := rfl
@[simp] theorem State.setProt_drainWin (t : Nat) (x : ProtT) : (s.setProt t x).drainWin = s.drainWin := rfl
@[simp] theorem State.setProt_snap (t : Nat) (x : ProtT) : (s.setProt t x).snap = s.snap := rfl
@[simp] theorem State.setProt_perfPipe (t : Nat) (x : ProtT) : (s.setProt t x).perfPipe = s.perfPipe := rfl
@[simp] theorem State.setProt_perfNext (t : Nat) (x : ProtT) : (s.setProt t x).perfNext = s.perfNext := rfl
@[simp] theorem State.setProt_snapSeq (t : Nat) (x : ProtT) : (s.setProt t x).snapSeq = s.snapSeq := rfl
@[simp] theorem State.setProt_thermalWait (t : Nat) (x : ProtT) : (s.setProt t x).thermalWait = s.thermalWait := rfl
@[simp] theorem State.setProt_convs (t : Nat) (x : ProtT) : (s.setProt t x).convs = s.convs := rfl
@[simp] theorem State.setProt_caps (t : Nat) (x : ProtT) : (s.setProt t x).caps = s.caps := rfl
@[simp] theorem State.setProt_i2c (t : Nat) (x : ProtT) : (s.setProt t x).i2c = s.i2c := rfl
@[simp] theorem State.setProt_rstPins (t : Nat) (x : ProtT) : (s.setProt t x).rstPins = s.rstPins := rfl
@[simp] theorem State.setProt_sessions (t : Nat) (x : ProtT) : (s.setProt t x).sessions = s.sessions := rfl
@[simp] theorem State.setProt_hostWait (t : Nat) (x : ProtT) : (s.setProt t x).hostWait = s.hostWait := rfl
@[simp] theorem State.setProt_lseqTx (t : Nat) (x : ProtT) : (s.setProt t x).lseqTx = s.lseqTx := rfl
@[simp] theorem State.setProt_lseqRx (t : Nat) (x : ProtT) : (s.setProt t x).lseqRx = s.lseqRx := rfl
@[simp] theorem State.setProt_replayBuf (t : Nat) (x : ProtT) : (s.setProt t x).replayBuf = s.replayBuf := rfl
@[simp] theorem State.setProt_fresh (t : Nat) (x : ProtT) : (s.setProt t x).fresh = s.fresh := rfl
@[simp] theorem State.setProt_lanesAligned (t : Nat) (x : ProtT) : (s.setProt t x).lanesAligned = s.lanesAligned := rfl
@[simp] theorem State.setProt_tsSeen (t : Nat) (x : ProtT) : (s.setProt t x).tsSeen = s.tsSeen := rfl
@[simp] theorem State.setProt_peerSeen (t : Nat) (x : ProtT) : (s.setProt t x).peerSeen = s.peerSeen := rfl
@[simp] theorem State.setProt_ts2Seen (t : Nat) (x : ProtT) : (s.setProt t x).ts2Seen = s.ts2Seen := rfl
@[simp] theorem State.setProt_peerMask (t : Nat) (x : ProtT) : (s.setProt t x).peerMask = s.peerMask := rfl
@[simp] theorem State.setProt_misplacedAlign (t : Nat) (x : ProtT) : (s.setProt t x).misplacedAlign = s.misplacedAlign := rfl
@[simp] theorem State.setProt_narrow (t : Nat) (x : ProtT) : (s.setProt t x).narrow = s.narrow := rfl
@[simp] theorem State.setProt_linkFill (t : Nat) (x : ProtT) : (s.setProt t x).linkFill = s.linkFill := rfl
@[simp] theorem State.setProt_ts2At (t : Nat) (x : ProtT) : (s.setProt t x).ts2At = s.ts2At := rfl
@[simp] theorem State.setProt_alignAt (t : Nat) (x : ProtT) : (s.setProt t x).alignAt = s.alignAt := rfl
@[simp] theorem State.setProt_linkAt (t : Nat) (x : ProtT) : (s.setProt t x).linkAt = s.linkAt := rfl
@[simp] theorem State.setProt_downAt (t : Nat) (x : ProtT) : (s.setProt t x).downAt = s.downAt := rfl
@[simp] theorem State.setProt_lockAt (t : Nat) (x : ProtT) : (s.setProt t x).lockAt = s.lockAt := rfl
@[simp] theorem State.setProt_authFailures (t : Nat) (x : ProtT) : (s.setProt t x).authFailures = s.authFailures := rfl
@[simp] theorem State.setProt_ackDue (t : Nat) (x : ProtT) : (s.setProt t x).ackDue = s.ackDue := rfl
@[simp] theorem State.setProt_marks (t : Nat) (x : ProtT) : (s.setProt t x).marks = s.marks := rfl
@[simp] theorem State.setProt_trackers (t : Nat) (x : ProtT) : (s.setProt t x).trackers = s.trackers := rfl
@[simp] theorem State.setProt_log (t : Nat) (x : ProtT) : (s.setProt t x).log = s.log := rfl
@[simp] theorem State.setProt_withheld (t : Nat) (x : ProtT) : (s.setProt t x).withheld = s.withheld := rfl
@[simp] theorem State.setProt_written (t : Nat) (x : ProtT) : (s.setProt t x).written = s.written := rfl
@[simp] theorem State.setProt_scrubFrom (t : Nat) (x : ProtT) : (s.setProt t x).scrubFrom = s.scrubFrom := rfl
@[simp] theorem State.setProt_scrubAt (t : Nat) (x : ProtT) : (s.setProt t x).scrubAt = s.scrubAt := rfl
@[simp] theorem State.setProt_sparesUsed (t : Nat) (x : ProtT) : (s.setProt t x).sparesUsed = s.sparesUsed := rfl
@[simp] theorem State.setProt_nmtHeld (t : Nat) (x : ProtT) : (s.setProt t x).nmtHeld = s.nmtHeld := rfl
@[simp] theorem State.setProt_blockResets (t : Nat) (x : ProtT) : (s.setProt t x).blockResets = s.blockResets := rfl
@[simp] theorem State.setProt_reactResets (t : Nat) (x : ProtT) : (s.setProt t x).reactResets = s.reactResets := rfl
@[simp] theorem State.setProt_oscLost (t : Nat) (x : ProtT) : (s.setProt t x).oscLost = s.oscLost := rfl
@[simp] theorem State.setProt_alivePhase (t : Nat) (x : ProtT) : (s.setProt t x).alivePhase = s.alivePhase := rfl
@[simp] theorem State.setProt_resets (t : Nat) (x : ProtT) : (s.setProt t x).resets = s.resets := rfl
@[simp] theorem State.setProt_resetCause (t : Nat) (x : ProtT) : (s.setProt t x).resetCause = s.resetCause := rfl
@[simp] theorem State.setProt_inReset (t : Nat) (x : ProtT) : (s.setProt t x).inReset = s.inReset := rfl
@[simp] theorem State.setProt_sliceRegion (t : Nat) (x : ProtT) : (s.setProt t x).sliceRegion = s.sliceRegion := rfl
@[simp] theorem State.setProt_sliceMem (t : Nat) (x : ProtT) : (s.setProt t x).sliceMem = s.sliceMem := rfl
@[simp] theorem State.setProt_sliceRedirect (t : Nat) (x : ProtT) : (s.setProt t x).sliceRedirect = s.sliceRedirect := rfl
@[simp] theorem State.setProt_kilnWait (t : Nat) (x : ProtT) : (s.setProt t x).kilnWait = s.kilnWait := rfl
@[simp] theorem State.setProt_trafficAt (t : Nat) (x : ProtT) : (s.setProt t x).trafficAt = s.trafficAt := rfl
@[simp] theorem State.setProt_kilnHeldFail (t : Nat) (x : ProtT) : (s.setProt t x).kilnHeldFail = s.kilnHeldFail := rfl
@[simp] theorem State.setProt_moves (t : Nat) (x : ProtT) : (s.setProt t x).moves = s.moves := rfl
@[simp] theorem State.setProt_holdAt (t : Nat) (x : ProtT) : (s.setProt t x).holdAt = s.holdAt := rfl
@[simp] theorem State.setProt_railsLow (t : Nat) (x : ProtT) : (s.setProt t x).railsLow = s.railsLow := rfl
@[simp] theorem State.setProt_thermAt (t : Nat) (x : ProtT) : (s.setProt t x).thermAt = s.thermAt := rfl
@[simp] theorem State.setProt_coolAt (t : Nat) (x : ProtT) : (s.setProt t x).coolAt = s.coolAt := rfl
@[simp] theorem State.setProt_coldAt (t : Nat) (x : ProtT) : (s.setProt t x).coldAt = s.coldAt := rfl
@[simp] theorem State.setProt_stopDue (t : Nat) (x : ProtT) : (s.setProt t x).stopDue = s.stopDue := rfl
@[simp] theorem State.setProt_warnSweeps (t : Nat) (x : ProtT) : (s.setProt t x).warnSweeps = s.warnSweeps := rfl
@[simp] theorem State.setProt_stopSweeps (t : Nat) (x : ProtT) : (s.setProt t x).stopSweeps = s.stopSweeps := rfl
@[simp] theorem State.setProt_sensorSeen (t : Nat) (x : ProtT) : (s.setProt t x).sensorSeen = s.sensorSeen := rfl
@[simp] theorem State.setProt_cleanSweeps (t : Nat) (x : ProtT) : (s.setProt t x).cleanSweeps = s.cleanSweeps := rfl
@[simp] theorem State.setProt_nextSensor (t : Nat) (x : ProtT) : (s.setProt t x).nextSensor = s.nextSensor := rfl
@[simp] theorem State.setProt_cutTripped (t : Nat) (x : ProtT) : (s.setProt t x).cutTripped = s.cutTripped := rfl
@[simp] theorem State.setProt_cutArmed (t : Nat) (x : ProtT) : (s.setProt t x).cutArmed = s.cutArmed := rfl
@[simp] theorem State.setProt_digestDone (t : Nat) (x : ProtT) : (s.setProt t x).digestDone = s.digestDone := rfl
@[simp] theorem State.setProt_bankVerified (t : Nat) (x : ProtT) : (s.setProt t x).bankVerified = s.bankVerified := rfl
@[simp] theorem State.setProt_ptrBank (t : Nat) (x : ProtT) : (s.setProt t x).ptrBank = s.ptrBank := rfl
@[simp] theorem State.setProt_ptrGen (t : Nat) (x : ProtT) : (s.setProt t x).ptrGen = s.ptrGen := rfl
@[simp] theorem State.setProt_epochCount (t : Nat) (x : ProtT) : (s.setProt t x).epochCount = s.epochCount := rfl
@[simp] theorem State.setProt_journal (t : Nat) (x : ProtT) : (s.setProt t x).journal = s.journal := rfl
@[simp] theorem State.setProt_peatWord (t : Nat) (x : ProtT) : (s.setProt t x).peatWord = s.peatWord := rfl
@[simp] theorem State.setProt_verifyBank (t : Nat) (x : ProtT) : (s.setProt t x).verifyBank = s.verifyBank := rfl
@[simp] theorem State.setProt_accessKeys (t : Nat) (x : ProtT) : (s.setProt t x).accessKeys = s.accessKeys := rfl
@[simp] theorem State.setProt_runMask (t : Nat) (x : ProtT) : (s.setProt t x).runMask = s.runMask := rfl
@[simp] theorem State.setProt_serviceFlag (t : Nat) (x : ProtT) : (s.setProt t x).serviceFlag = s.serviceFlag := rfl
@[simp] theorem State.setProt_writeList (t : Nat) (x : ProtT) : (s.setProt t x).writeList = s.writeList := rfl
@[simp] theorem State.setProt_bootStrap (t : Nat) (x : ProtT) : (s.setProt t x).bootStrap = s.bootStrap := rfl
@[simp] theorem State.setProt_tamperLow (t : Nat) (x : ProtT) : (s.setProt t x).tamperLow = s.tamperLow := rfl
@[simp] theorem State.setProt_testEn (t : Nat) (x : ProtT) : (s.setProt t x).testEn = s.testEn := rfl
@[simp] theorem State.setProt_jtag (t : Nat) (x : ProtT) : (s.setProt t x).jtag = s.jtag := rfl
@[simp] theorem State.rd_setProt (t : Nat) (x : ProtT) (g : Fld) (j : Nat) : (s.setProt t x).rd g j = s.rd g j := rfl
@[simp] theorem State.on_setProt (t : Nat) (x : ProtT) (g : Fld) (j : Nat) : (s.setProt t x).on g j = s.on g j := rfl
@[simp] theorem State.ld_setProt (t : Nat) (x : ProtT) (sq : Space) (j : Nat) : (s.setProt t x).ld sq j = s.ld sq j := rfl
@[simp] theorem State.bank_setProt (t : Nat) (x : ProtT) (j : Nat) : (s.setProt t x).bank j = s.bank j := rfl
@[simp] theorem State.lane_setProt (t : Nat) (x : ProtT) (j : Nat) : (s.setProt t x).lane j = s.lane j := rfl
@[simp] theorem State.sess_setProt (t : Nat) (x : ProtT) (j : Nat) : (s.setProt t x).sess j = s.sess j := rfl
@[simp] theorem State.lockOf_setProt (t : Nat) (x : ProtT) (j : Nat) : (s.setProt t x).lockOf j = s.lockOf j := rfl
@[simp] theorem State.port_setProt (t : Nat) (x : ProtT) (j : Nat) : (s.setProt t x).port j = s.port j := rfl
@[simp] theorem State.ttx_setProt (t : Nat) (x : ProtT) (j : Nat) : (s.setProt t x).ttx j = s.ttx j := rfl
@[simp] theorem State.trx_setProt (t : Nat) (x : ProtT) (j : Nat) : (s.setProt t x).trx j = s.trx j := rfl
@[simp] theorem State.hcOf_setProt (t : Nat) (x : ProtT) (j : Nat) : (s.setProt t x).hcOf j = s.hcOf j := rfl
@[simp] theorem State.conv_setProt (t : Nat) (x : ProtT) (j : Nat) : (s.setProt t x).conv j = s.conv j := rfl
@[simp] theorem State.word_setProt (t : Nat) (x : ProtT) (r : Reg) (j : Nat) : (s.setProt t x).word r j = s.word r j := rfl

/-! ### setHc -/

@[simp] theorem State.setHc_pending (c : Nat) (x : HCh) : (s.setHc c x).pending = s.pending := rfl
@[simp] theorem State.setHc_resetAfter (c : Nat) (x : HCh) : (s.setHc c x).resetAfter = s.resetAfter := rfl
@[simp] theorem State.setHc_retrainAfter (c : Nat) (x : HCh) : (s.setHc c x).retrainAfter = s.retrainAfter := rfl
@[simp] theorem State.setHc_regs (c : Nat) (x : HCh) : (s.setHc c x).regs = s.regs := rfl
@[simp] theorem State.setHc_mem (c : Nat) (x : HCh) : (s.setHc c x).mem = s.mem := rfl
@[simp] theorem State.setHc_time (c : Nat) (x : HCh) : (s.setHc c x).time = s.time := rfl
@[simp] theorem State.setHc_freeCtr (c : Nat) (x : HCh) : (s.setHc c x).freeCtr = s.freeCtr := rfl
@[simp] theorem State.setHc_lastStatus (c : Nat) (x : HCh) : (s.setHc c x).lastStatus = s.lastStatus := rfl
@[simp] theorem State.setHc_lastValue (c : Nat) (x : HCh) : (s.setHc c x).lastValue = s.lastValue := rfl
@[simp] theorem State.setHc_out (c : Nat) (x : HCh) : (s.setHc c x).out = s.out := rfl
@[simp] theorem State.setHc_banks (c : Nat) (x : HCh) : (s.setHc c x).banks = s.banks := rfl
@[simp] theorem State.setHc_captures (c : Nat) (x : HCh) : (s.setHc c x).captures = s.captures := rfl
@[simp] theorem State.setHc_cmdSerial (c : Nat) (x : HCh) : (s.setHc c x).cmdSerial = s.cmdSerial := rfl
@[simp] theorem State.setHc_entryWait (c : Nat) (x : HCh) : (s.setHc c x).entryWait = s.entryWait := rfl
@[simp] theorem State.setHc_rrLast (c : Nat) (x : HCh) : (s.setHc c x).rrLast = s.rrLast := rfl
@[simp] theorem State.setHc_lanes (c : Nat) (x : HCh) : (s.setHc c x).lanes = s.lanes := rfl
@[simp] theorem State.setHc_locks (c : Nat) (x : HCh) : (s.setHc c x).locks = s.locks := rfl
@[simp] theorem State.setHc_ports (c : Nat) (x : HCh) : (s.setHc c x).ports = s.ports := rfl
@[simp] theorem State.setHc_tunTx (c : Nat) (x : HCh) : (s.setHc c x).tunTx = s.tunTx := rfl
@[simp] theorem State.setHc_tunRx (c : Nat) (x : HCh) : (s.setHc c x).tunRx = s.tunRx := rfl
@[simp] theorem State.setHc_slotUse (c : Nat) (x : HCh) : (s.setHc c x).slotUse = s.slotUse := rfl
@[simp] theorem State.setHc_held (c : Nat) (x : HCh) : (s.setHc c x).held = s.held := rfl
@[simp] theorem State.setHc_heldReads (c : Nat) (x : HCh) : (s.setHc c x).heldReads = s.heldReads := rfl
@[simp] theorem State.setHc_heldOpen (c : Nat) (x : HCh) : (s.setHc c x).heldOpen = s.heldOpen := rfl
@[simp] theorem State.setHc_rotor (c : Nat) (x : HCh) : (s.setHc c x).rotor = s.rotor := rfl
@[simp] theorem State.setHc_repair (c : Nat) (x : HCh) : (s.setHc c x).repair = s.repair := rfl
@[simp] theorem State.setHc_prot (c : Nat) (x : HCh) : (s.setHc c x).prot = s.prot := rfl
@[simp] theorem State.setHc_switchReq (c : Nat) (x : HCh) : (s.setHc c x).switchReq = s.switchReq := rfl
@[simp] theorem State.setHc_switchWait (c : Nat) (x : HCh) : (s.setHc c x).switchWait = s.switchWait := rfl
@[simp] theorem State.setHc_rideWin (c : Nat) (x : HCh) : (s.setHc c x).rideWin = s.rideWin := rfl
@[simp] theorem State.setHc_holdWin (c : Nat) (x : HCh) : (s.setHc c x).holdWin = s.holdWin := rfl
@[simp] theorem State.setHc_drainWin (c : Nat) (x : HCh) : (s.setHc c x).drainWin = s.drainWin := rfl
@[simp] theorem State.setHc_snap (c : Nat) (x : HCh) : (s.setHc c x).snap = s.snap := rfl
@[simp] theorem State.setHc_perfPipe (c : Nat) (x : HCh) : (s.setHc c x).perfPipe = s.perfPipe := rfl
@[simp] theorem State.setHc_perfNext (c : Nat) (x : HCh) : (s.setHc c x).perfNext = s.perfNext := rfl
@[simp] theorem State.setHc_snapSeq (c : Nat) (x : HCh) : (s.setHc c x).snapSeq = s.snapSeq := rfl
@[simp] theorem State.setHc_thermalWait (c : Nat) (x : HCh) : (s.setHc c x).thermalWait = s.thermalWait := rfl
@[simp] theorem State.setHc_convs (c : Nat) (x : HCh) : (s.setHc c x).convs = s.convs := rfl
@[simp] theorem State.setHc_caps (c : Nat) (x : HCh) : (s.setHc c x).caps = s.caps := rfl
@[simp] theorem State.setHc_i2c (c : Nat) (x : HCh) : (s.setHc c x).i2c = s.i2c := rfl
@[simp] theorem State.setHc_rstPins (c : Nat) (x : HCh) : (s.setHc c x).rstPins = s.rstPins := rfl
@[simp] theorem State.setHc_sessions (c : Nat) (x : HCh) : (s.setHc c x).sessions = s.sessions := rfl
@[simp] theorem State.setHc_hostWait (c : Nat) (x : HCh) : (s.setHc c x).hostWait = s.hostWait := rfl
@[simp] theorem State.setHc_lseqTx (c : Nat) (x : HCh) : (s.setHc c x).lseqTx = s.lseqTx := rfl
@[simp] theorem State.setHc_lseqRx (c : Nat) (x : HCh) : (s.setHc c x).lseqRx = s.lseqRx := rfl
@[simp] theorem State.setHc_replayBuf (c : Nat) (x : HCh) : (s.setHc c x).replayBuf = s.replayBuf := rfl
@[simp] theorem State.setHc_fresh (c : Nat) (x : HCh) : (s.setHc c x).fresh = s.fresh := rfl
@[simp] theorem State.setHc_lanesAligned (c : Nat) (x : HCh) : (s.setHc c x).lanesAligned = s.lanesAligned := rfl
@[simp] theorem State.setHc_tsSeen (c : Nat) (x : HCh) : (s.setHc c x).tsSeen = s.tsSeen := rfl
@[simp] theorem State.setHc_peerSeen (c : Nat) (x : HCh) : (s.setHc c x).peerSeen = s.peerSeen := rfl
@[simp] theorem State.setHc_ts2Seen (c : Nat) (x : HCh) : (s.setHc c x).ts2Seen = s.ts2Seen := rfl
@[simp] theorem State.setHc_peerMask (c : Nat) (x : HCh) : (s.setHc c x).peerMask = s.peerMask := rfl
@[simp] theorem State.setHc_misplacedAlign (c : Nat) (x : HCh) : (s.setHc c x).misplacedAlign = s.misplacedAlign := rfl
@[simp] theorem State.setHc_narrow (c : Nat) (x : HCh) : (s.setHc c x).narrow = s.narrow := rfl
@[simp] theorem State.setHc_linkFill (c : Nat) (x : HCh) : (s.setHc c x).linkFill = s.linkFill := rfl
@[simp] theorem State.setHc_ts2At (c : Nat) (x : HCh) : (s.setHc c x).ts2At = s.ts2At := rfl
@[simp] theorem State.setHc_alignAt (c : Nat) (x : HCh) : (s.setHc c x).alignAt = s.alignAt := rfl
@[simp] theorem State.setHc_linkAt (c : Nat) (x : HCh) : (s.setHc c x).linkAt = s.linkAt := rfl
@[simp] theorem State.setHc_downAt (c : Nat) (x : HCh) : (s.setHc c x).downAt = s.downAt := rfl
@[simp] theorem State.setHc_lockAt (c : Nat) (x : HCh) : (s.setHc c x).lockAt = s.lockAt := rfl
@[simp] theorem State.setHc_authFailures (c : Nat) (x : HCh) : (s.setHc c x).authFailures = s.authFailures := rfl
@[simp] theorem State.setHc_ackDue (c : Nat) (x : HCh) : (s.setHc c x).ackDue = s.ackDue := rfl
@[simp] theorem State.setHc_marks (c : Nat) (x : HCh) : (s.setHc c x).marks = s.marks := rfl
@[simp] theorem State.setHc_trackers (c : Nat) (x : HCh) : (s.setHc c x).trackers = s.trackers := rfl
@[simp] theorem State.setHc_log (c : Nat) (x : HCh) : (s.setHc c x).log = s.log := rfl
@[simp] theorem State.setHc_withheld (c : Nat) (x : HCh) : (s.setHc c x).withheld = s.withheld := rfl
@[simp] theorem State.setHc_written (c : Nat) (x : HCh) : (s.setHc c x).written = s.written := rfl
@[simp] theorem State.setHc_scrubFrom (c : Nat) (x : HCh) : (s.setHc c x).scrubFrom = s.scrubFrom := rfl
@[simp] theorem State.setHc_scrubAt (c : Nat) (x : HCh) : (s.setHc c x).scrubAt = s.scrubAt := rfl
@[simp] theorem State.setHc_sparesUsed (c : Nat) (x : HCh) : (s.setHc c x).sparesUsed = s.sparesUsed := rfl
@[simp] theorem State.setHc_nmtHeld (c : Nat) (x : HCh) : (s.setHc c x).nmtHeld = s.nmtHeld := rfl
@[simp] theorem State.setHc_blockResets (c : Nat) (x : HCh) : (s.setHc c x).blockResets = s.blockResets := rfl
@[simp] theorem State.setHc_reactResets (c : Nat) (x : HCh) : (s.setHc c x).reactResets = s.reactResets := rfl
@[simp] theorem State.setHc_oscLost (c : Nat) (x : HCh) : (s.setHc c x).oscLost = s.oscLost := rfl
@[simp] theorem State.setHc_alivePhase (c : Nat) (x : HCh) : (s.setHc c x).alivePhase = s.alivePhase := rfl
@[simp] theorem State.setHc_resets (c : Nat) (x : HCh) : (s.setHc c x).resets = s.resets := rfl
@[simp] theorem State.setHc_resetCause (c : Nat) (x : HCh) : (s.setHc c x).resetCause = s.resetCause := rfl
@[simp] theorem State.setHc_inReset (c : Nat) (x : HCh) : (s.setHc c x).inReset = s.inReset := rfl
@[simp] theorem State.setHc_sliceRegion (c : Nat) (x : HCh) : (s.setHc c x).sliceRegion = s.sliceRegion := rfl
@[simp] theorem State.setHc_sliceMem (c : Nat) (x : HCh) : (s.setHc c x).sliceMem = s.sliceMem := rfl
@[simp] theorem State.setHc_sliceRedirect (c : Nat) (x : HCh) : (s.setHc c x).sliceRedirect = s.sliceRedirect := rfl
@[simp] theorem State.setHc_kilnWait (c : Nat) (x : HCh) : (s.setHc c x).kilnWait = s.kilnWait := rfl
@[simp] theorem State.setHc_trafficAt (c : Nat) (x : HCh) : (s.setHc c x).trafficAt = s.trafficAt := rfl
@[simp] theorem State.setHc_kilnHeldFail (c : Nat) (x : HCh) : (s.setHc c x).kilnHeldFail = s.kilnHeldFail := rfl
@[simp] theorem State.setHc_moves (c : Nat) (x : HCh) : (s.setHc c x).moves = s.moves := rfl
@[simp] theorem State.setHc_holdAt (c : Nat) (x : HCh) : (s.setHc c x).holdAt = s.holdAt := rfl
@[simp] theorem State.setHc_railsLow (c : Nat) (x : HCh) : (s.setHc c x).railsLow = s.railsLow := rfl
@[simp] theorem State.setHc_thermAt (c : Nat) (x : HCh) : (s.setHc c x).thermAt = s.thermAt := rfl
@[simp] theorem State.setHc_coolAt (c : Nat) (x : HCh) : (s.setHc c x).coolAt = s.coolAt := rfl
@[simp] theorem State.setHc_coldAt (c : Nat) (x : HCh) : (s.setHc c x).coldAt = s.coldAt := rfl
@[simp] theorem State.setHc_stopDue (c : Nat) (x : HCh) : (s.setHc c x).stopDue = s.stopDue := rfl
@[simp] theorem State.setHc_warnSweeps (c : Nat) (x : HCh) : (s.setHc c x).warnSweeps = s.warnSweeps := rfl
@[simp] theorem State.setHc_stopSweeps (c : Nat) (x : HCh) : (s.setHc c x).stopSweeps = s.stopSweeps := rfl
@[simp] theorem State.setHc_sensorSeen (c : Nat) (x : HCh) : (s.setHc c x).sensorSeen = s.sensorSeen := rfl
@[simp] theorem State.setHc_cleanSweeps (c : Nat) (x : HCh) : (s.setHc c x).cleanSweeps = s.cleanSweeps := rfl
@[simp] theorem State.setHc_nextSensor (c : Nat) (x : HCh) : (s.setHc c x).nextSensor = s.nextSensor := rfl
@[simp] theorem State.setHc_cutTripped (c : Nat) (x : HCh) : (s.setHc c x).cutTripped = s.cutTripped := rfl
@[simp] theorem State.setHc_cutArmed (c : Nat) (x : HCh) : (s.setHc c x).cutArmed = s.cutArmed := rfl
@[simp] theorem State.setHc_digestDone (c : Nat) (x : HCh) : (s.setHc c x).digestDone = s.digestDone := rfl
@[simp] theorem State.setHc_bankVerified (c : Nat) (x : HCh) : (s.setHc c x).bankVerified = s.bankVerified := rfl
@[simp] theorem State.setHc_ptrBank (c : Nat) (x : HCh) : (s.setHc c x).ptrBank = s.ptrBank := rfl
@[simp] theorem State.setHc_ptrGen (c : Nat) (x : HCh) : (s.setHc c x).ptrGen = s.ptrGen := rfl
@[simp] theorem State.setHc_epochCount (c : Nat) (x : HCh) : (s.setHc c x).epochCount = s.epochCount := rfl
@[simp] theorem State.setHc_journal (c : Nat) (x : HCh) : (s.setHc c x).journal = s.journal := rfl
@[simp] theorem State.setHc_peatWord (c : Nat) (x : HCh) : (s.setHc c x).peatWord = s.peatWord := rfl
@[simp] theorem State.setHc_verifyBank (c : Nat) (x : HCh) : (s.setHc c x).verifyBank = s.verifyBank := rfl
@[simp] theorem State.setHc_accessKeys (c : Nat) (x : HCh) : (s.setHc c x).accessKeys = s.accessKeys := rfl
@[simp] theorem State.setHc_runMask (c : Nat) (x : HCh) : (s.setHc c x).runMask = s.runMask := rfl
@[simp] theorem State.setHc_serviceFlag (c : Nat) (x : HCh) : (s.setHc c x).serviceFlag = s.serviceFlag := rfl
@[simp] theorem State.setHc_writeList (c : Nat) (x : HCh) : (s.setHc c x).writeList = s.writeList := rfl
@[simp] theorem State.setHc_bootStrap (c : Nat) (x : HCh) : (s.setHc c x).bootStrap = s.bootStrap := rfl
@[simp] theorem State.setHc_tamperLow (c : Nat) (x : HCh) : (s.setHc c x).tamperLow = s.tamperLow := rfl
@[simp] theorem State.setHc_testEn (c : Nat) (x : HCh) : (s.setHc c x).testEn = s.testEn := rfl
@[simp] theorem State.setHc_jtag (c : Nat) (x : HCh) : (s.setHc c x).jtag = s.jtag := rfl
@[simp] theorem State.rd_setHc (c : Nat) (x : HCh) (g : Fld) (j : Nat) : (s.setHc c x).rd g j = s.rd g j := rfl
@[simp] theorem State.on_setHc (c : Nat) (x : HCh) (g : Fld) (j : Nat) : (s.setHc c x).on g j = s.on g j := rfl
@[simp] theorem State.ld_setHc (c : Nat) (x : HCh) (sq : Space) (j : Nat) : (s.setHc c x).ld sq j = s.ld sq j := rfl
@[simp] theorem State.bank_setHc (c : Nat) (x : HCh) (j : Nat) : (s.setHc c x).bank j = s.bank j := rfl
@[simp] theorem State.lane_setHc (c : Nat) (x : HCh) (j : Nat) : (s.setHc c x).lane j = s.lane j := rfl
@[simp] theorem State.sess_setHc (c : Nat) (x : HCh) (j : Nat) : (s.setHc c x).sess j = s.sess j := rfl
@[simp] theorem State.lockOf_setHc (c : Nat) (x : HCh) (j : Nat) : (s.setHc c x).lockOf j = s.lockOf j := rfl
@[simp] theorem State.port_setHc (c : Nat) (x : HCh) (j : Nat) : (s.setHc c x).port j = s.port j := rfl
@[simp] theorem State.ttx_setHc (c : Nat) (x : HCh) (j : Nat) : (s.setHc c x).ttx j = s.ttx j := rfl
@[simp] theorem State.trx_setHc (c : Nat) (x : HCh) (j : Nat) : (s.setHc c x).trx j = s.trx j := rfl
@[simp] theorem State.protT_setHc (c : Nat) (x : HCh) (j : Nat) : (s.setHc c x).protT j = s.protT j := rfl
@[simp] theorem State.conv_setHc (c : Nat) (x : HCh) (j : Nat) : (s.setHc c x).conv j = s.conv j := rfl
@[simp] theorem State.word_setHc (c : Nat) (x : HCh) (r : Reg) (j : Nat) : (s.setHc c x).word r j = s.word r j := rfl

/-! ### setConv -/

@[simp] theorem State.setConv_pending (c : Nat) (x : Conv) : (s.setConv c x).pending = s.pending := rfl
@[simp] theorem State.setConv_resetAfter (c : Nat) (x : Conv) : (s.setConv c x).resetAfter = s.resetAfter := rfl
@[simp] theorem State.setConv_retrainAfter (c : Nat) (x : Conv) : (s.setConv c x).retrainAfter = s.retrainAfter := rfl
@[simp] theorem State.setConv_regs (c : Nat) (x : Conv) : (s.setConv c x).regs = s.regs := rfl
@[simp] theorem State.setConv_mem (c : Nat) (x : Conv) : (s.setConv c x).mem = s.mem := rfl
@[simp] theorem State.setConv_time (c : Nat) (x : Conv) : (s.setConv c x).time = s.time := rfl
@[simp] theorem State.setConv_freeCtr (c : Nat) (x : Conv) : (s.setConv c x).freeCtr = s.freeCtr := rfl
@[simp] theorem State.setConv_lastStatus (c : Nat) (x : Conv) : (s.setConv c x).lastStatus = s.lastStatus := rfl
@[simp] theorem State.setConv_lastValue (c : Nat) (x : Conv) : (s.setConv c x).lastValue = s.lastValue := rfl
@[simp] theorem State.setConv_out (c : Nat) (x : Conv) : (s.setConv c x).out = s.out := rfl
@[simp] theorem State.setConv_banks (c : Nat) (x : Conv) : (s.setConv c x).banks = s.banks := rfl
@[simp] theorem State.setConv_captures (c : Nat) (x : Conv) : (s.setConv c x).captures = s.captures := rfl
@[simp] theorem State.setConv_cmdSerial (c : Nat) (x : Conv) : (s.setConv c x).cmdSerial = s.cmdSerial := rfl
@[simp] theorem State.setConv_entryWait (c : Nat) (x : Conv) : (s.setConv c x).entryWait = s.entryWait := rfl
@[simp] theorem State.setConv_rrLast (c : Nat) (x : Conv) : (s.setConv c x).rrLast = s.rrLast := rfl
@[simp] theorem State.setConv_lanes (c : Nat) (x : Conv) : (s.setConv c x).lanes = s.lanes := rfl
@[simp] theorem State.setConv_locks (c : Nat) (x : Conv) : (s.setConv c x).locks = s.locks := rfl
@[simp] theorem State.setConv_ports (c : Nat) (x : Conv) : (s.setConv c x).ports = s.ports := rfl
@[simp] theorem State.setConv_tunTx (c : Nat) (x : Conv) : (s.setConv c x).tunTx = s.tunTx := rfl
@[simp] theorem State.setConv_tunRx (c : Nat) (x : Conv) : (s.setConv c x).tunRx = s.tunRx := rfl
@[simp] theorem State.setConv_slotUse (c : Nat) (x : Conv) : (s.setConv c x).slotUse = s.slotUse := rfl
@[simp] theorem State.setConv_hch (c : Nat) (x : Conv) : (s.setConv c x).hch = s.hch := rfl
@[simp] theorem State.setConv_held (c : Nat) (x : Conv) : (s.setConv c x).held = s.held := rfl
@[simp] theorem State.setConv_heldReads (c : Nat) (x : Conv) : (s.setConv c x).heldReads = s.heldReads := rfl
@[simp] theorem State.setConv_heldOpen (c : Nat) (x : Conv) : (s.setConv c x).heldOpen = s.heldOpen := rfl
@[simp] theorem State.setConv_rotor (c : Nat) (x : Conv) : (s.setConv c x).rotor = s.rotor := rfl
@[simp] theorem State.setConv_repair (c : Nat) (x : Conv) : (s.setConv c x).repair = s.repair := rfl
@[simp] theorem State.setConv_prot (c : Nat) (x : Conv) : (s.setConv c x).prot = s.prot := rfl
@[simp] theorem State.setConv_switchReq (c : Nat) (x : Conv) : (s.setConv c x).switchReq = s.switchReq := rfl
@[simp] theorem State.setConv_switchWait (c : Nat) (x : Conv) : (s.setConv c x).switchWait = s.switchWait := rfl
@[simp] theorem State.setConv_rideWin (c : Nat) (x : Conv) : (s.setConv c x).rideWin = s.rideWin := rfl
@[simp] theorem State.setConv_holdWin (c : Nat) (x : Conv) : (s.setConv c x).holdWin = s.holdWin := rfl
@[simp] theorem State.setConv_drainWin (c : Nat) (x : Conv) : (s.setConv c x).drainWin = s.drainWin := rfl
@[simp] theorem State.setConv_snap (c : Nat) (x : Conv) : (s.setConv c x).snap = s.snap := rfl
@[simp] theorem State.setConv_perfPipe (c : Nat) (x : Conv) : (s.setConv c x).perfPipe = s.perfPipe := rfl
@[simp] theorem State.setConv_perfNext (c : Nat) (x : Conv) : (s.setConv c x).perfNext = s.perfNext := rfl
@[simp] theorem State.setConv_snapSeq (c : Nat) (x : Conv) : (s.setConv c x).snapSeq = s.snapSeq := rfl
@[simp] theorem State.setConv_thermalWait (c : Nat) (x : Conv) : (s.setConv c x).thermalWait = s.thermalWait := rfl
@[simp] theorem State.setConv_caps (c : Nat) (x : Conv) : (s.setConv c x).caps = s.caps := rfl
@[simp] theorem State.setConv_i2c (c : Nat) (x : Conv) : (s.setConv c x).i2c = s.i2c := rfl
@[simp] theorem State.setConv_rstPins (c : Nat) (x : Conv) : (s.setConv c x).rstPins = s.rstPins := rfl
@[simp] theorem State.setConv_sessions (c : Nat) (x : Conv) : (s.setConv c x).sessions = s.sessions := rfl
@[simp] theorem State.setConv_hostWait (c : Nat) (x : Conv) : (s.setConv c x).hostWait = s.hostWait := rfl
@[simp] theorem State.setConv_lseqTx (c : Nat) (x : Conv) : (s.setConv c x).lseqTx = s.lseqTx := rfl
@[simp] theorem State.setConv_lseqRx (c : Nat) (x : Conv) : (s.setConv c x).lseqRx = s.lseqRx := rfl
@[simp] theorem State.setConv_replayBuf (c : Nat) (x : Conv) : (s.setConv c x).replayBuf = s.replayBuf := rfl
@[simp] theorem State.setConv_fresh (c : Nat) (x : Conv) : (s.setConv c x).fresh = s.fresh := rfl
@[simp] theorem State.setConv_lanesAligned (c : Nat) (x : Conv) : (s.setConv c x).lanesAligned = s.lanesAligned := rfl
@[simp] theorem State.setConv_tsSeen (c : Nat) (x : Conv) : (s.setConv c x).tsSeen = s.tsSeen := rfl
@[simp] theorem State.setConv_peerSeen (c : Nat) (x : Conv) : (s.setConv c x).peerSeen = s.peerSeen := rfl
@[simp] theorem State.setConv_ts2Seen (c : Nat) (x : Conv) : (s.setConv c x).ts2Seen = s.ts2Seen := rfl
@[simp] theorem State.setConv_peerMask (c : Nat) (x : Conv) : (s.setConv c x).peerMask = s.peerMask := rfl
@[simp] theorem State.setConv_misplacedAlign (c : Nat) (x : Conv) : (s.setConv c x).misplacedAlign = s.misplacedAlign := rfl
@[simp] theorem State.setConv_narrow (c : Nat) (x : Conv) : (s.setConv c x).narrow = s.narrow := rfl
@[simp] theorem State.setConv_linkFill (c : Nat) (x : Conv) : (s.setConv c x).linkFill = s.linkFill := rfl
@[simp] theorem State.setConv_ts2At (c : Nat) (x : Conv) : (s.setConv c x).ts2At = s.ts2At := rfl
@[simp] theorem State.setConv_alignAt (c : Nat) (x : Conv) : (s.setConv c x).alignAt = s.alignAt := rfl
@[simp] theorem State.setConv_linkAt (c : Nat) (x : Conv) : (s.setConv c x).linkAt = s.linkAt := rfl
@[simp] theorem State.setConv_downAt (c : Nat) (x : Conv) : (s.setConv c x).downAt = s.downAt := rfl
@[simp] theorem State.setConv_lockAt (c : Nat) (x : Conv) : (s.setConv c x).lockAt = s.lockAt := rfl
@[simp] theorem State.setConv_authFailures (c : Nat) (x : Conv) : (s.setConv c x).authFailures = s.authFailures := rfl
@[simp] theorem State.setConv_ackDue (c : Nat) (x : Conv) : (s.setConv c x).ackDue = s.ackDue := rfl
@[simp] theorem State.setConv_marks (c : Nat) (x : Conv) : (s.setConv c x).marks = s.marks := rfl
@[simp] theorem State.setConv_trackers (c : Nat) (x : Conv) : (s.setConv c x).trackers = s.trackers := rfl
@[simp] theorem State.setConv_log (c : Nat) (x : Conv) : (s.setConv c x).log = s.log := rfl
@[simp] theorem State.setConv_withheld (c : Nat) (x : Conv) : (s.setConv c x).withheld = s.withheld := rfl
@[simp] theorem State.setConv_written (c : Nat) (x : Conv) : (s.setConv c x).written = s.written := rfl
@[simp] theorem State.setConv_scrubFrom (c : Nat) (x : Conv) : (s.setConv c x).scrubFrom = s.scrubFrom := rfl
@[simp] theorem State.setConv_scrubAt (c : Nat) (x : Conv) : (s.setConv c x).scrubAt = s.scrubAt := rfl
@[simp] theorem State.setConv_sparesUsed (c : Nat) (x : Conv) : (s.setConv c x).sparesUsed = s.sparesUsed := rfl
@[simp] theorem State.setConv_nmtHeld (c : Nat) (x : Conv) : (s.setConv c x).nmtHeld = s.nmtHeld := rfl
@[simp] theorem State.setConv_blockResets (c : Nat) (x : Conv) : (s.setConv c x).blockResets = s.blockResets := rfl
@[simp] theorem State.setConv_reactResets (c : Nat) (x : Conv) : (s.setConv c x).reactResets = s.reactResets := rfl
@[simp] theorem State.setConv_oscLost (c : Nat) (x : Conv) : (s.setConv c x).oscLost = s.oscLost := rfl
@[simp] theorem State.setConv_alivePhase (c : Nat) (x : Conv) : (s.setConv c x).alivePhase = s.alivePhase := rfl
@[simp] theorem State.setConv_resets (c : Nat) (x : Conv) : (s.setConv c x).resets = s.resets := rfl
@[simp] theorem State.setConv_resetCause (c : Nat) (x : Conv) : (s.setConv c x).resetCause = s.resetCause := rfl
@[simp] theorem State.setConv_inReset (c : Nat) (x : Conv) : (s.setConv c x).inReset = s.inReset := rfl
@[simp] theorem State.setConv_sliceRegion (c : Nat) (x : Conv) : (s.setConv c x).sliceRegion = s.sliceRegion := rfl
@[simp] theorem State.setConv_sliceMem (c : Nat) (x : Conv) : (s.setConv c x).sliceMem = s.sliceMem := rfl
@[simp] theorem State.setConv_sliceRedirect (c : Nat) (x : Conv) : (s.setConv c x).sliceRedirect = s.sliceRedirect := rfl
@[simp] theorem State.setConv_kilnWait (c : Nat) (x : Conv) : (s.setConv c x).kilnWait = s.kilnWait := rfl
@[simp] theorem State.setConv_trafficAt (c : Nat) (x : Conv) : (s.setConv c x).trafficAt = s.trafficAt := rfl
@[simp] theorem State.setConv_kilnHeldFail (c : Nat) (x : Conv) : (s.setConv c x).kilnHeldFail = s.kilnHeldFail := rfl
@[simp] theorem State.setConv_moves (c : Nat) (x : Conv) : (s.setConv c x).moves = s.moves := rfl
@[simp] theorem State.setConv_holdAt (c : Nat) (x : Conv) : (s.setConv c x).holdAt = s.holdAt := rfl
@[simp] theorem State.setConv_railsLow (c : Nat) (x : Conv) : (s.setConv c x).railsLow = s.railsLow := rfl
@[simp] theorem State.setConv_thermAt (c : Nat) (x : Conv) : (s.setConv c x).thermAt = s.thermAt := rfl
@[simp] theorem State.setConv_coolAt (c : Nat) (x : Conv) : (s.setConv c x).coolAt = s.coolAt := rfl
@[simp] theorem State.setConv_coldAt (c : Nat) (x : Conv) : (s.setConv c x).coldAt = s.coldAt := rfl
@[simp] theorem State.setConv_stopDue (c : Nat) (x : Conv) : (s.setConv c x).stopDue = s.stopDue := rfl
@[simp] theorem State.setConv_warnSweeps (c : Nat) (x : Conv) : (s.setConv c x).warnSweeps = s.warnSweeps := rfl
@[simp] theorem State.setConv_stopSweeps (c : Nat) (x : Conv) : (s.setConv c x).stopSweeps = s.stopSweeps := rfl
@[simp] theorem State.setConv_sensorSeen (c : Nat) (x : Conv) : (s.setConv c x).sensorSeen = s.sensorSeen := rfl
@[simp] theorem State.setConv_cleanSweeps (c : Nat) (x : Conv) : (s.setConv c x).cleanSweeps = s.cleanSweeps := rfl
@[simp] theorem State.setConv_nextSensor (c : Nat) (x : Conv) : (s.setConv c x).nextSensor = s.nextSensor := rfl
@[simp] theorem State.setConv_cutTripped (c : Nat) (x : Conv) : (s.setConv c x).cutTripped = s.cutTripped := rfl
@[simp] theorem State.setConv_cutArmed (c : Nat) (x : Conv) : (s.setConv c x).cutArmed = s.cutArmed := rfl
@[simp] theorem State.setConv_digestDone (c : Nat) (x : Conv) : (s.setConv c x).digestDone = s.digestDone := rfl
@[simp] theorem State.setConv_bankVerified (c : Nat) (x : Conv) : (s.setConv c x).bankVerified = s.bankVerified := rfl
@[simp] theorem State.setConv_ptrBank (c : Nat) (x : Conv) : (s.setConv c x).ptrBank = s.ptrBank := rfl
@[simp] theorem State.setConv_ptrGen (c : Nat) (x : Conv) : (s.setConv c x).ptrGen = s.ptrGen := rfl
@[simp] theorem State.setConv_epochCount (c : Nat) (x : Conv) : (s.setConv c x).epochCount = s.epochCount := rfl
@[simp] theorem State.setConv_journal (c : Nat) (x : Conv) : (s.setConv c x).journal = s.journal := rfl
@[simp] theorem State.setConv_peatWord (c : Nat) (x : Conv) : (s.setConv c x).peatWord = s.peatWord := rfl
@[simp] theorem State.setConv_verifyBank (c : Nat) (x : Conv) : (s.setConv c x).verifyBank = s.verifyBank := rfl
@[simp] theorem State.setConv_accessKeys (c : Nat) (x : Conv) : (s.setConv c x).accessKeys = s.accessKeys := rfl
@[simp] theorem State.setConv_runMask (c : Nat) (x : Conv) : (s.setConv c x).runMask = s.runMask := rfl
@[simp] theorem State.setConv_serviceFlag (c : Nat) (x : Conv) : (s.setConv c x).serviceFlag = s.serviceFlag := rfl
@[simp] theorem State.setConv_writeList (c : Nat) (x : Conv) : (s.setConv c x).writeList = s.writeList := rfl
@[simp] theorem State.setConv_bootStrap (c : Nat) (x : Conv) : (s.setConv c x).bootStrap = s.bootStrap := rfl
@[simp] theorem State.setConv_tamperLow (c : Nat) (x : Conv) : (s.setConv c x).tamperLow = s.tamperLow := rfl
@[simp] theorem State.setConv_testEn (c : Nat) (x : Conv) : (s.setConv c x).testEn = s.testEn := rfl
@[simp] theorem State.setConv_jtag (c : Nat) (x : Conv) : (s.setConv c x).jtag = s.jtag := rfl
@[simp] theorem State.rd_setConv (c : Nat) (x : Conv) (g : Fld) (j : Nat) : (s.setConv c x).rd g j = s.rd g j := rfl
@[simp] theorem State.on_setConv (c : Nat) (x : Conv) (g : Fld) (j : Nat) : (s.setConv c x).on g j = s.on g j := rfl
@[simp] theorem State.ld_setConv (c : Nat) (x : Conv) (sq : Space) (j : Nat) : (s.setConv c x).ld sq j = s.ld sq j := rfl
@[simp] theorem State.bank_setConv (c : Nat) (x : Conv) (j : Nat) : (s.setConv c x).bank j = s.bank j := rfl
@[simp] theorem State.lane_setConv (c : Nat) (x : Conv) (j : Nat) : (s.setConv c x).lane j = s.lane j := rfl
@[simp] theorem State.sess_setConv (c : Nat) (x : Conv) (j : Nat) : (s.setConv c x).sess j = s.sess j := rfl
@[simp] theorem State.lockOf_setConv (c : Nat) (x : Conv) (j : Nat) : (s.setConv c x).lockOf j = s.lockOf j := rfl
@[simp] theorem State.port_setConv (c : Nat) (x : Conv) (j : Nat) : (s.setConv c x).port j = s.port j := rfl
@[simp] theorem State.ttx_setConv (c : Nat) (x : Conv) (j : Nat) : (s.setConv c x).ttx j = s.ttx j := rfl
@[simp] theorem State.trx_setConv (c : Nat) (x : Conv) (j : Nat) : (s.setConv c x).trx j = s.trx j := rfl
@[simp] theorem State.protT_setConv (c : Nat) (x : Conv) (j : Nat) : (s.setConv c x).protT j = s.protT j := rfl
@[simp] theorem State.hcOf_setConv (c : Nat) (x : Conv) (j : Nat) : (s.setConv c x).hcOf j = s.hcOf j := rfl
@[simp] theorem State.word_setConv (c : Nat) (x : Conv) (r : Reg) (j : Nat) : (s.setConv c x).word r j = s.word r j := rfl

/-! ### drawn -/

@[simp] theorem State.drawn_pending : (s.drawn).pending = s.pending := rfl
@[simp] theorem State.drawn_resetAfter : (s.drawn).resetAfter = s.resetAfter := rfl
@[simp] theorem State.drawn_retrainAfter : (s.drawn).retrainAfter = s.retrainAfter := rfl
@[simp] theorem State.drawn_regs : (s.drawn).regs = s.regs := rfl
@[simp] theorem State.drawn_mem : (s.drawn).mem = s.mem := rfl
@[simp] theorem State.drawn_time : (s.drawn).time = s.time := rfl
@[simp] theorem State.drawn_lastStatus : (s.drawn).lastStatus = s.lastStatus := rfl
@[simp] theorem State.drawn_lastValue : (s.drawn).lastValue = s.lastValue := rfl
@[simp] theorem State.drawn_out : (s.drawn).out = s.out := rfl
@[simp] theorem State.drawn_banks : (s.drawn).banks = s.banks := rfl
@[simp] theorem State.drawn_captures : (s.drawn).captures = s.captures := rfl
@[simp] theorem State.drawn_cmdSerial : (s.drawn).cmdSerial = s.cmdSerial := rfl
@[simp] theorem State.drawn_entryWait : (s.drawn).entryWait = s.entryWait := rfl
@[simp] theorem State.drawn_rrLast : (s.drawn).rrLast = s.rrLast := rfl
@[simp] theorem State.drawn_lanes : (s.drawn).lanes = s.lanes := rfl
@[simp] theorem State.drawn_locks : (s.drawn).locks = s.locks := rfl
@[simp] theorem State.drawn_ports : (s.drawn).ports = s.ports := rfl
@[simp] theorem State.drawn_tunTx : (s.drawn).tunTx = s.tunTx := rfl
@[simp] theorem State.drawn_tunRx : (s.drawn).tunRx = s.tunRx := rfl
@[simp] theorem State.drawn_slotUse : (s.drawn).slotUse = s.slotUse := rfl
@[simp] theorem State.drawn_hch : (s.drawn).hch = s.hch := rfl
@[simp] theorem State.drawn_held : (s.drawn).held = s.held := rfl
@[simp] theorem State.drawn_heldReads : (s.drawn).heldReads = s.heldReads := rfl
@[simp] theorem State.drawn_heldOpen : (s.drawn).heldOpen = s.heldOpen := rfl
@[simp] theorem State.drawn_rotor : (s.drawn).rotor = s.rotor := rfl
@[simp] theorem State.drawn_repair : (s.drawn).repair = s.repair := rfl
@[simp] theorem State.drawn_prot : (s.drawn).prot = s.prot := rfl
@[simp] theorem State.drawn_switchReq : (s.drawn).switchReq = s.switchReq := rfl
@[simp] theorem State.drawn_switchWait : (s.drawn).switchWait = s.switchWait := rfl
@[simp] theorem State.drawn_rideWin : (s.drawn).rideWin = s.rideWin := rfl
@[simp] theorem State.drawn_holdWin : (s.drawn).holdWin = s.holdWin := rfl
@[simp] theorem State.drawn_drainWin : (s.drawn).drainWin = s.drainWin := rfl
@[simp] theorem State.drawn_snap : (s.drawn).snap = s.snap := rfl
@[simp] theorem State.drawn_perfPipe : (s.drawn).perfPipe = s.perfPipe := rfl
@[simp] theorem State.drawn_perfNext : (s.drawn).perfNext = s.perfNext := rfl
@[simp] theorem State.drawn_snapSeq : (s.drawn).snapSeq = s.snapSeq := rfl
@[simp] theorem State.drawn_thermalWait : (s.drawn).thermalWait = s.thermalWait := rfl
@[simp] theorem State.drawn_convs : (s.drawn).convs = s.convs := rfl
@[simp] theorem State.drawn_caps : (s.drawn).caps = s.caps := rfl
@[simp] theorem State.drawn_i2c : (s.drawn).i2c = s.i2c := rfl
@[simp] theorem State.drawn_rstPins : (s.drawn).rstPins = s.rstPins := rfl
@[simp] theorem State.drawn_sessions : (s.drawn).sessions = s.sessions := rfl
@[simp] theorem State.drawn_hostWait : (s.drawn).hostWait = s.hostWait := rfl
@[simp] theorem State.drawn_lseqTx : (s.drawn).lseqTx = s.lseqTx := rfl
@[simp] theorem State.drawn_lseqRx : (s.drawn).lseqRx = s.lseqRx := rfl
@[simp] theorem State.drawn_replayBuf : (s.drawn).replayBuf = s.replayBuf := rfl
@[simp] theorem State.drawn_fresh : (s.drawn).fresh = s.fresh := rfl
@[simp] theorem State.drawn_lanesAligned : (s.drawn).lanesAligned = s.lanesAligned := rfl
@[simp] theorem State.drawn_tsSeen : (s.drawn).tsSeen = s.tsSeen := rfl
@[simp] theorem State.drawn_peerSeen : (s.drawn).peerSeen = s.peerSeen := rfl
@[simp] theorem State.drawn_ts2Seen : (s.drawn).ts2Seen = s.ts2Seen := rfl
@[simp] theorem State.drawn_peerMask : (s.drawn).peerMask = s.peerMask := rfl
@[simp] theorem State.drawn_misplacedAlign : (s.drawn).misplacedAlign = s.misplacedAlign := rfl
@[simp] theorem State.drawn_narrow : (s.drawn).narrow = s.narrow := rfl
@[simp] theorem State.drawn_linkFill : (s.drawn).linkFill = s.linkFill := rfl
@[simp] theorem State.drawn_ts2At : (s.drawn).ts2At = s.ts2At := rfl
@[simp] theorem State.drawn_alignAt : (s.drawn).alignAt = s.alignAt := rfl
@[simp] theorem State.drawn_linkAt : (s.drawn).linkAt = s.linkAt := rfl
@[simp] theorem State.drawn_downAt : (s.drawn).downAt = s.downAt := rfl
@[simp] theorem State.drawn_lockAt : (s.drawn).lockAt = s.lockAt := rfl
@[simp] theorem State.drawn_authFailures : (s.drawn).authFailures = s.authFailures := rfl
@[simp] theorem State.drawn_ackDue : (s.drawn).ackDue = s.ackDue := rfl
@[simp] theorem State.drawn_marks : (s.drawn).marks = s.marks := rfl
@[simp] theorem State.drawn_trackers : (s.drawn).trackers = s.trackers := rfl
@[simp] theorem State.drawn_log : (s.drawn).log = s.log := rfl
@[simp] theorem State.drawn_withheld : (s.drawn).withheld = s.withheld := rfl
@[simp] theorem State.drawn_written : (s.drawn).written = s.written := rfl
@[simp] theorem State.drawn_scrubFrom : (s.drawn).scrubFrom = s.scrubFrom := rfl
@[simp] theorem State.drawn_scrubAt : (s.drawn).scrubAt = s.scrubAt := rfl
@[simp] theorem State.drawn_sparesUsed : (s.drawn).sparesUsed = s.sparesUsed := rfl
@[simp] theorem State.drawn_nmtHeld : (s.drawn).nmtHeld = s.nmtHeld := rfl
@[simp] theorem State.drawn_blockResets : (s.drawn).blockResets = s.blockResets := rfl
@[simp] theorem State.drawn_reactResets : (s.drawn).reactResets = s.reactResets := rfl
@[simp] theorem State.drawn_oscLost : (s.drawn).oscLost = s.oscLost := rfl
@[simp] theorem State.drawn_alivePhase : (s.drawn).alivePhase = s.alivePhase := rfl
@[simp] theorem State.drawn_resets : (s.drawn).resets = s.resets := rfl
@[simp] theorem State.drawn_resetCause : (s.drawn).resetCause = s.resetCause := rfl
@[simp] theorem State.drawn_inReset : (s.drawn).inReset = s.inReset := rfl
@[simp] theorem State.drawn_sliceRegion : (s.drawn).sliceRegion = s.sliceRegion := rfl
@[simp] theorem State.drawn_sliceMem : (s.drawn).sliceMem = s.sliceMem := rfl
@[simp] theorem State.drawn_sliceRedirect : (s.drawn).sliceRedirect = s.sliceRedirect := rfl
@[simp] theorem State.drawn_kilnWait : (s.drawn).kilnWait = s.kilnWait := rfl
@[simp] theorem State.drawn_trafficAt : (s.drawn).trafficAt = s.trafficAt := rfl
@[simp] theorem State.drawn_kilnHeldFail : (s.drawn).kilnHeldFail = s.kilnHeldFail := rfl
@[simp] theorem State.drawn_moves : (s.drawn).moves = s.moves := rfl
@[simp] theorem State.drawn_holdAt : (s.drawn).holdAt = s.holdAt := rfl
@[simp] theorem State.drawn_railsLow : (s.drawn).railsLow = s.railsLow := rfl
@[simp] theorem State.drawn_thermAt : (s.drawn).thermAt = s.thermAt := rfl
@[simp] theorem State.drawn_coolAt : (s.drawn).coolAt = s.coolAt := rfl
@[simp] theorem State.drawn_coldAt : (s.drawn).coldAt = s.coldAt := rfl
@[simp] theorem State.drawn_stopDue : (s.drawn).stopDue = s.stopDue := rfl
@[simp] theorem State.drawn_warnSweeps : (s.drawn).warnSweeps = s.warnSweeps := rfl
@[simp] theorem State.drawn_stopSweeps : (s.drawn).stopSweeps = s.stopSweeps := rfl
@[simp] theorem State.drawn_sensorSeen : (s.drawn).sensorSeen = s.sensorSeen := rfl
@[simp] theorem State.drawn_cleanSweeps : (s.drawn).cleanSweeps = s.cleanSweeps := rfl
@[simp] theorem State.drawn_nextSensor : (s.drawn).nextSensor = s.nextSensor := rfl
@[simp] theorem State.drawn_cutTripped : (s.drawn).cutTripped = s.cutTripped := rfl
@[simp] theorem State.drawn_cutArmed : (s.drawn).cutArmed = s.cutArmed := rfl
@[simp] theorem State.drawn_digestDone : (s.drawn).digestDone = s.digestDone := rfl
@[simp] theorem State.drawn_bankVerified : (s.drawn).bankVerified = s.bankVerified := rfl
@[simp] theorem State.drawn_ptrBank : (s.drawn).ptrBank = s.ptrBank := rfl
@[simp] theorem State.drawn_ptrGen : (s.drawn).ptrGen = s.ptrGen := rfl
@[simp] theorem State.drawn_epochCount : (s.drawn).epochCount = s.epochCount := rfl
@[simp] theorem State.drawn_journal : (s.drawn).journal = s.journal := rfl
@[simp] theorem State.drawn_peatWord : (s.drawn).peatWord = s.peatWord := rfl
@[simp] theorem State.drawn_verifyBank : (s.drawn).verifyBank = s.verifyBank := rfl
@[simp] theorem State.drawn_accessKeys : (s.drawn).accessKeys = s.accessKeys := rfl
@[simp] theorem State.drawn_runMask : (s.drawn).runMask = s.runMask := rfl
@[simp] theorem State.drawn_serviceFlag : (s.drawn).serviceFlag = s.serviceFlag := rfl
@[simp] theorem State.drawn_writeList : (s.drawn).writeList = s.writeList := rfl
@[simp] theorem State.drawn_bootStrap : (s.drawn).bootStrap = s.bootStrap := rfl
@[simp] theorem State.drawn_tamperLow : (s.drawn).tamperLow = s.tamperLow := rfl
@[simp] theorem State.drawn_testEn : (s.drawn).testEn = s.testEn := rfl
@[simp] theorem State.drawn_jtag : (s.drawn).jtag = s.jtag := rfl
@[simp] theorem State.rd_drawn (g : Fld) (j : Nat) : (s.drawn).rd g j = s.rd g j := rfl
@[simp] theorem State.on_drawn (g : Fld) (j : Nat) : (s.drawn).on g j = s.on g j := rfl
@[simp] theorem State.ld_drawn (sq : Space) (j : Nat) : (s.drawn).ld sq j = s.ld sq j := rfl
@[simp] theorem State.bank_drawn (j : Nat) : (s.drawn).bank j = s.bank j := rfl
@[simp] theorem State.lane_drawn (j : Nat) : (s.drawn).lane j = s.lane j := rfl
@[simp] theorem State.sess_drawn (j : Nat) : (s.drawn).sess j = s.sess j := rfl
@[simp] theorem State.lockOf_drawn (j : Nat) : (s.drawn).lockOf j = s.lockOf j := rfl
@[simp] theorem State.port_drawn (j : Nat) : (s.drawn).port j = s.port j := rfl
@[simp] theorem State.ttx_drawn (j : Nat) : (s.drawn).ttx j = s.ttx j := rfl
@[simp] theorem State.trx_drawn (j : Nat) : (s.drawn).trx j = s.trx j := rfl
@[simp] theorem State.protT_drawn (j : Nat) : (s.drawn).protT j = s.protT j := rfl
@[simp] theorem State.hcOf_drawn (j : Nat) : (s.drawn).hcOf j = s.hcOf j := rfl
@[simp] theorem State.conv_drawn (j : Nat) : (s.drawn).conv j = s.conv j := rfl
@[simp] theorem State.word_drawn (r : Reg) (j : Nat) : (s.drawn).word r j = s.word r j := rfl

/-! ### answer -/

@[simp] theorem State.answer_pending (st : Status) (v : Nat) : (s.answer st v).pending = s.pending := rfl
@[simp] theorem State.answer_resetAfter (st : Status) (v : Nat) : (s.answer st v).resetAfter = s.resetAfter := rfl
@[simp] theorem State.answer_retrainAfter (st : Status) (v : Nat) : (s.answer st v).retrainAfter = s.retrainAfter := rfl
@[simp] theorem State.answer_regs (st : Status) (v : Nat) : (s.answer st v).regs = s.regs := rfl
@[simp] theorem State.answer_mem (st : Status) (v : Nat) : (s.answer st v).mem = s.mem := rfl
@[simp] theorem State.answer_time (st : Status) (v : Nat) : (s.answer st v).time = s.time := rfl
@[simp] theorem State.answer_freeCtr (st : Status) (v : Nat) : (s.answer st v).freeCtr = s.freeCtr := rfl
@[simp] theorem State.answer_out (st : Status) (v : Nat) : (s.answer st v).out = s.out := rfl
@[simp] theorem State.answer_banks (st : Status) (v : Nat) : (s.answer st v).banks = s.banks := rfl
@[simp] theorem State.answer_captures (st : Status) (v : Nat) : (s.answer st v).captures = s.captures := rfl
@[simp] theorem State.answer_cmdSerial (st : Status) (v : Nat) : (s.answer st v).cmdSerial = s.cmdSerial := rfl
@[simp] theorem State.answer_entryWait (st : Status) (v : Nat) : (s.answer st v).entryWait = s.entryWait := rfl
@[simp] theorem State.answer_rrLast (st : Status) (v : Nat) : (s.answer st v).rrLast = s.rrLast := rfl
@[simp] theorem State.answer_lanes (st : Status) (v : Nat) : (s.answer st v).lanes = s.lanes := rfl
@[simp] theorem State.answer_locks (st : Status) (v : Nat) : (s.answer st v).locks = s.locks := rfl
@[simp] theorem State.answer_ports (st : Status) (v : Nat) : (s.answer st v).ports = s.ports := rfl
@[simp] theorem State.answer_tunTx (st : Status) (v : Nat) : (s.answer st v).tunTx = s.tunTx := rfl
@[simp] theorem State.answer_tunRx (st : Status) (v : Nat) : (s.answer st v).tunRx = s.tunRx := rfl
@[simp] theorem State.answer_slotUse (st : Status) (v : Nat) : (s.answer st v).slotUse = s.slotUse := rfl
@[simp] theorem State.answer_hch (st : Status) (v : Nat) : (s.answer st v).hch = s.hch := rfl
@[simp] theorem State.answer_held (st : Status) (v : Nat) : (s.answer st v).held = s.held := rfl
@[simp] theorem State.answer_heldReads (st : Status) (v : Nat) : (s.answer st v).heldReads = s.heldReads := rfl
@[simp] theorem State.answer_heldOpen (st : Status) (v : Nat) : (s.answer st v).heldOpen = s.heldOpen := rfl
@[simp] theorem State.answer_rotor (st : Status) (v : Nat) : (s.answer st v).rotor = s.rotor := rfl
@[simp] theorem State.answer_repair (st : Status) (v : Nat) : (s.answer st v).repair = s.repair := rfl
@[simp] theorem State.answer_prot (st : Status) (v : Nat) : (s.answer st v).prot = s.prot := rfl
@[simp] theorem State.answer_switchReq (st : Status) (v : Nat) : (s.answer st v).switchReq = s.switchReq := rfl
@[simp] theorem State.answer_switchWait (st : Status) (v : Nat) : (s.answer st v).switchWait = s.switchWait := rfl
@[simp] theorem State.answer_rideWin (st : Status) (v : Nat) : (s.answer st v).rideWin = s.rideWin := rfl
@[simp] theorem State.answer_holdWin (st : Status) (v : Nat) : (s.answer st v).holdWin = s.holdWin := rfl
@[simp] theorem State.answer_drainWin (st : Status) (v : Nat) : (s.answer st v).drainWin = s.drainWin := rfl
@[simp] theorem State.answer_snap (st : Status) (v : Nat) : (s.answer st v).snap = s.snap := rfl
@[simp] theorem State.answer_perfPipe (st : Status) (v : Nat) : (s.answer st v).perfPipe = s.perfPipe := rfl
@[simp] theorem State.answer_perfNext (st : Status) (v : Nat) : (s.answer st v).perfNext = s.perfNext := rfl
@[simp] theorem State.answer_snapSeq (st : Status) (v : Nat) : (s.answer st v).snapSeq = s.snapSeq := rfl
@[simp] theorem State.answer_thermalWait (st : Status) (v : Nat) : (s.answer st v).thermalWait = s.thermalWait := rfl
@[simp] theorem State.answer_convs (st : Status) (v : Nat) : (s.answer st v).convs = s.convs := rfl
@[simp] theorem State.answer_caps (st : Status) (v : Nat) : (s.answer st v).caps = s.caps := rfl
@[simp] theorem State.answer_i2c (st : Status) (v : Nat) : (s.answer st v).i2c = s.i2c := rfl
@[simp] theorem State.answer_rstPins (st : Status) (v : Nat) : (s.answer st v).rstPins = s.rstPins := rfl
@[simp] theorem State.answer_sessions (st : Status) (v : Nat) : (s.answer st v).sessions = s.sessions := rfl
@[simp] theorem State.answer_hostWait (st : Status) (v : Nat) : (s.answer st v).hostWait = s.hostWait := rfl
@[simp] theorem State.answer_lseqTx (st : Status) (v : Nat) : (s.answer st v).lseqTx = s.lseqTx := rfl
@[simp] theorem State.answer_lseqRx (st : Status) (v : Nat) : (s.answer st v).lseqRx = s.lseqRx := rfl
@[simp] theorem State.answer_replayBuf (st : Status) (v : Nat) : (s.answer st v).replayBuf = s.replayBuf := rfl
@[simp] theorem State.answer_fresh (st : Status) (v : Nat) : (s.answer st v).fresh = s.fresh := rfl
@[simp] theorem State.answer_lanesAligned (st : Status) (v : Nat) : (s.answer st v).lanesAligned = s.lanesAligned := rfl
@[simp] theorem State.answer_tsSeen (st : Status) (v : Nat) : (s.answer st v).tsSeen = s.tsSeen := rfl
@[simp] theorem State.answer_peerSeen (st : Status) (v : Nat) : (s.answer st v).peerSeen = s.peerSeen := rfl
@[simp] theorem State.answer_ts2Seen (st : Status) (v : Nat) : (s.answer st v).ts2Seen = s.ts2Seen := rfl
@[simp] theorem State.answer_peerMask (st : Status) (v : Nat) : (s.answer st v).peerMask = s.peerMask := rfl
@[simp] theorem State.answer_misplacedAlign (st : Status) (v : Nat) : (s.answer st v).misplacedAlign = s.misplacedAlign := rfl
@[simp] theorem State.answer_narrow (st : Status) (v : Nat) : (s.answer st v).narrow = s.narrow := rfl
@[simp] theorem State.answer_linkFill (st : Status) (v : Nat) : (s.answer st v).linkFill = s.linkFill := rfl
@[simp] theorem State.answer_ts2At (st : Status) (v : Nat) : (s.answer st v).ts2At = s.ts2At := rfl
@[simp] theorem State.answer_alignAt (st : Status) (v : Nat) : (s.answer st v).alignAt = s.alignAt := rfl
@[simp] theorem State.answer_linkAt (st : Status) (v : Nat) : (s.answer st v).linkAt = s.linkAt := rfl
@[simp] theorem State.answer_downAt (st : Status) (v : Nat) : (s.answer st v).downAt = s.downAt := rfl
@[simp] theorem State.answer_lockAt (st : Status) (v : Nat) : (s.answer st v).lockAt = s.lockAt := rfl
@[simp] theorem State.answer_authFailures (st : Status) (v : Nat) : (s.answer st v).authFailures = s.authFailures := rfl
@[simp] theorem State.answer_ackDue (st : Status) (v : Nat) : (s.answer st v).ackDue = s.ackDue := rfl
@[simp] theorem State.answer_marks (st : Status) (v : Nat) : (s.answer st v).marks = s.marks := rfl
@[simp] theorem State.answer_trackers (st : Status) (v : Nat) : (s.answer st v).trackers = s.trackers := rfl
@[simp] theorem State.answer_log (st : Status) (v : Nat) : (s.answer st v).log = s.log := rfl
@[simp] theorem State.answer_withheld (st : Status) (v : Nat) : (s.answer st v).withheld = s.withheld := rfl
@[simp] theorem State.answer_written (st : Status) (v : Nat) : (s.answer st v).written = s.written := rfl
@[simp] theorem State.answer_scrubFrom (st : Status) (v : Nat) : (s.answer st v).scrubFrom = s.scrubFrom := rfl
@[simp] theorem State.answer_scrubAt (st : Status) (v : Nat) : (s.answer st v).scrubAt = s.scrubAt := rfl
@[simp] theorem State.answer_sparesUsed (st : Status) (v : Nat) : (s.answer st v).sparesUsed = s.sparesUsed := rfl
@[simp] theorem State.answer_nmtHeld (st : Status) (v : Nat) : (s.answer st v).nmtHeld = s.nmtHeld := rfl
@[simp] theorem State.answer_blockResets (st : Status) (v : Nat) : (s.answer st v).blockResets = s.blockResets := rfl
@[simp] theorem State.answer_reactResets (st : Status) (v : Nat) : (s.answer st v).reactResets = s.reactResets := rfl
@[simp] theorem State.answer_oscLost (st : Status) (v : Nat) : (s.answer st v).oscLost = s.oscLost := rfl
@[simp] theorem State.answer_alivePhase (st : Status) (v : Nat) : (s.answer st v).alivePhase = s.alivePhase := rfl
@[simp] theorem State.answer_resets (st : Status) (v : Nat) : (s.answer st v).resets = s.resets := rfl
@[simp] theorem State.answer_resetCause (st : Status) (v : Nat) : (s.answer st v).resetCause = s.resetCause := rfl
@[simp] theorem State.answer_inReset (st : Status) (v : Nat) : (s.answer st v).inReset = s.inReset := rfl
@[simp] theorem State.answer_sliceRegion (st : Status) (v : Nat) : (s.answer st v).sliceRegion = s.sliceRegion := rfl
@[simp] theorem State.answer_sliceMem (st : Status) (v : Nat) : (s.answer st v).sliceMem = s.sliceMem := rfl
@[simp] theorem State.answer_sliceRedirect (st : Status) (v : Nat) : (s.answer st v).sliceRedirect = s.sliceRedirect := rfl
@[simp] theorem State.answer_kilnWait (st : Status) (v : Nat) : (s.answer st v).kilnWait = s.kilnWait := rfl
@[simp] theorem State.answer_trafficAt (st : Status) (v : Nat) : (s.answer st v).trafficAt = s.trafficAt := rfl
@[simp] theorem State.answer_kilnHeldFail (st : Status) (v : Nat) : (s.answer st v).kilnHeldFail = s.kilnHeldFail := rfl
@[simp] theorem State.answer_moves (st : Status) (v : Nat) : (s.answer st v).moves = s.moves := rfl
@[simp] theorem State.answer_holdAt (st : Status) (v : Nat) : (s.answer st v).holdAt = s.holdAt := rfl
@[simp] theorem State.answer_railsLow (st : Status) (v : Nat) : (s.answer st v).railsLow = s.railsLow := rfl
@[simp] theorem State.answer_thermAt (st : Status) (v : Nat) : (s.answer st v).thermAt = s.thermAt := rfl
@[simp] theorem State.answer_coolAt (st : Status) (v : Nat) : (s.answer st v).coolAt = s.coolAt := rfl
@[simp] theorem State.answer_coldAt (st : Status) (v : Nat) : (s.answer st v).coldAt = s.coldAt := rfl
@[simp] theorem State.answer_stopDue (st : Status) (v : Nat) : (s.answer st v).stopDue = s.stopDue := rfl
@[simp] theorem State.answer_warnSweeps (st : Status) (v : Nat) : (s.answer st v).warnSweeps = s.warnSweeps := rfl
@[simp] theorem State.answer_stopSweeps (st : Status) (v : Nat) : (s.answer st v).stopSweeps = s.stopSweeps := rfl
@[simp] theorem State.answer_sensorSeen (st : Status) (v : Nat) : (s.answer st v).sensorSeen = s.sensorSeen := rfl
@[simp] theorem State.answer_cleanSweeps (st : Status) (v : Nat) : (s.answer st v).cleanSweeps = s.cleanSweeps := rfl
@[simp] theorem State.answer_nextSensor (st : Status) (v : Nat) : (s.answer st v).nextSensor = s.nextSensor := rfl
@[simp] theorem State.answer_cutTripped (st : Status) (v : Nat) : (s.answer st v).cutTripped = s.cutTripped := rfl
@[simp] theorem State.answer_cutArmed (st : Status) (v : Nat) : (s.answer st v).cutArmed = s.cutArmed := rfl
@[simp] theorem State.answer_digestDone (st : Status) (v : Nat) : (s.answer st v).digestDone = s.digestDone := rfl
@[simp] theorem State.answer_bankVerified (st : Status) (v : Nat) : (s.answer st v).bankVerified = s.bankVerified := rfl
@[simp] theorem State.answer_ptrBank (st : Status) (v : Nat) : (s.answer st v).ptrBank = s.ptrBank := rfl
@[simp] theorem State.answer_ptrGen (st : Status) (v : Nat) : (s.answer st v).ptrGen = s.ptrGen := rfl
@[simp] theorem State.answer_epochCount (st : Status) (v : Nat) : (s.answer st v).epochCount = s.epochCount := rfl
@[simp] theorem State.answer_journal (st : Status) (v : Nat) : (s.answer st v).journal = s.journal := rfl
@[simp] theorem State.answer_peatWord (st : Status) (v : Nat) : (s.answer st v).peatWord = s.peatWord := rfl
@[simp] theorem State.answer_verifyBank (st : Status) (v : Nat) : (s.answer st v).verifyBank = s.verifyBank := rfl
@[simp] theorem State.answer_accessKeys (st : Status) (v : Nat) : (s.answer st v).accessKeys = s.accessKeys := rfl
@[simp] theorem State.answer_runMask (st : Status) (v : Nat) : (s.answer st v).runMask = s.runMask := rfl
@[simp] theorem State.answer_serviceFlag (st : Status) (v : Nat) : (s.answer st v).serviceFlag = s.serviceFlag := rfl
@[simp] theorem State.answer_writeList (st : Status) (v : Nat) : (s.answer st v).writeList = s.writeList := rfl
@[simp] theorem State.answer_bootStrap (st : Status) (v : Nat) : (s.answer st v).bootStrap = s.bootStrap := rfl
@[simp] theorem State.answer_tamperLow (st : Status) (v : Nat) : (s.answer st v).tamperLow = s.tamperLow := rfl
@[simp] theorem State.answer_testEn (st : Status) (v : Nat) : (s.answer st v).testEn = s.testEn := rfl
@[simp] theorem State.answer_jtag (st : Status) (v : Nat) : (s.answer st v).jtag = s.jtag := rfl
@[simp] theorem State.rd_answer (st : Status) (v : Nat) (g : Fld) (j : Nat) : (s.answer st v).rd g j = s.rd g j := rfl
@[simp] theorem State.on_answer (st : Status) (v : Nat) (g : Fld) (j : Nat) : (s.answer st v).on g j = s.on g j := rfl
@[simp] theorem State.ld_answer (st : Status) (v : Nat) (sq : Space) (j : Nat) : (s.answer st v).ld sq j = s.ld sq j := rfl
@[simp] theorem State.bank_answer (st : Status) (v : Nat) (j : Nat) : (s.answer st v).bank j = s.bank j := rfl
@[simp] theorem State.lane_answer (st : Status) (v : Nat) (j : Nat) : (s.answer st v).lane j = s.lane j := rfl
@[simp] theorem State.sess_answer (st : Status) (v : Nat) (j : Nat) : (s.answer st v).sess j = s.sess j := rfl
@[simp] theorem State.lockOf_answer (st : Status) (v : Nat) (j : Nat) : (s.answer st v).lockOf j = s.lockOf j := rfl
@[simp] theorem State.port_answer (st : Status) (v : Nat) (j : Nat) : (s.answer st v).port j = s.port j := rfl
@[simp] theorem State.ttx_answer (st : Status) (v : Nat) (j : Nat) : (s.answer st v).ttx j = s.ttx j := rfl
@[simp] theorem State.trx_answer (st : Status) (v : Nat) (j : Nat) : (s.answer st v).trx j = s.trx j := rfl
@[simp] theorem State.protT_answer (st : Status) (v : Nat) (j : Nat) : (s.answer st v).protT j = s.protT j := rfl
@[simp] theorem State.hcOf_answer (st : Status) (v : Nat) (j : Nat) : (s.answer st v).hcOf j = s.hcOf j := rfl
@[simp] theorem State.conv_answer (st : Status) (v : Nat) (j : Nat) : (s.answer st v).conv j = s.conv j := rfl
@[simp] theorem State.word_answer (st : Status) (v : Nat) (r : Reg) (j : Nat) : (s.answer st v).word r j = s.word r j := rfl

end Sys2Proof.Machine
end

