-- ==== Sys2Proof/Laws/Torvulo.lean ====
section
/-!
SUPPORT. What the shared operations of the Torvulo instructions do: an instruction that nothing stands in the way of runs its effect, and retiring moves
the PC, the count and the counters alone.
-/

namespace Sys2Proof.Machine

variable {s : State}

/-- A replay that is not at its end goes on. -/
theorem State.replayEnd_of_ne {b : Nat} (h : (s.bank b).replay ≠ some []) : s.replayEnd b = s := by simp [State.replayEnd, h]

/-- What follows a part of a command that brought no chip reset. -/
theorem State.unlessReset_eq {u : State} (h : u.resets = s.resets) (f : State → State) : s.unlessReset u f = f u := if_pos h

/-- What follows a part of a command that brought a chip reset: nothing. -/
theorem State.unlessReset_ne {u : State} (h : u.resets ≠ s.resets) (f : State → State) : s.unlessReset u f = u := if_neg h

/-- With nothing in its way a legal instruction runs its effect on what the fetch leaves. -/
theorem State.issue_ready {u : State} {b : Fin 8} {w : IW} (h : s.Ready b w u) {legal : Bool} (hl : legal = true) (waits : Stall → Bool)
    (body : State → State) : s.issue b w legal waits body = body u := by
  obtain ⟨⟨h1, hy, h2, h3, h4, h5⟩, h6, h7, hu, hr⟩ := h
  have hg : s.gate b w legal waits = .go := by
    simp [State.gate, h1, hy, h2, h5, h6, h7, hl, Nat.not_le.2 h4]
  simp only [State.issue, State.replayEnd_of_ne h3, hg]
  rw [← hu]
  exact State.unlessReset_eq hr _

/-- With nothing in its way an instruction with an illegal field or condition faults ILLEGAL. -/
theorem State.issue_illegal {u : State} {b : Fin 8} {w : IW} (h : s.AtIssue b) (hf : s.Fetches b u) {legal : Bool} (hl : (legal && w.condDefined) = false)
    (waits : Stall → Bool) (body : State → State) : s.issue b w legal waits body = u.faultTo b 1 0 := by
  obtain ⟨h1, hy, h2, h3, h4, h5⟩ := h
  have hg : s.gate b w legal waits = .fault 1 := by
    simp only [State.gate, h1, hy, h2, h5, hl]; simp
  simp only [State.issue, State.replayEnd_of_ne h3, hg]
  rw [← hf.1]
  exact State.unlessReset_eq hf.2 _

/-- With nothing in its way an instruction whose condition is false is skipped. -/
theorem State.issue_skip {u : State} {b : Fin 8} {w : IW} (h : s.AtIssue b) (hf : s.Fetches b u) {legal : Bool} (hl : (legal && w.condDefined) = true)
    (hc : (s.bank b).condHolds w = false) (waits : Stall → Bool) (body : State → State) : s.issue b w legal waits body = u.retireNext b := by
  obtain ⟨h1, hy, h2, h3, h4, h5⟩ := h
  have hg : s.gate b w legal waits = .skip := by
    simp only [State.gate, h1, hy, h2, h5, hl, hc]; simp
  simp only [State.issue, State.replayEnd_of_ne h3, hg]
  rw [← hf.1]
  exact State.unlessReset_eq hf.2 _

/-- Live, a logged instruction runs after the log has room. -/
theorem State.logged_live {b : Fin 8} {w : IW} (h : (s.bank b).replay = none) (body : State → State) : s.logged b w body = body (s.logRoom b) := by
  simp [State.logged, h]

/-- Retiring from a state whose bank `b` is `k`. -/
theorem State.retires_setBank (s : State) (b : Nat) (k : Bank) (pc : Nat) : s.Retires ((s.setBank b k).retire b pc) b k pc := by
  have hb : ((s.setBank b k).perfBank 0 b 1).bank b = k := State.bank_setBank_self ..
  refine ⟨?_, ?_, ⟨[(s.time, 0xF00 + 8 * 0 + b, 1)], rfl⟩⟩
  · unfold State.retire
    dsimp only
    rw [hb]
    exact State.bank_setBank_self ..
  · intro d hd
    unfold State.retire
    dsimp only
    rw [State.bank_setBank_ne _ _ hd]
    exact State.bank_setBank_ne _ _ hd

/-- Retiring a state whose bank is as it stands. -/
theorem State.retires (s : State) (b : Nat) (pc : Nat) : s.Retires (s.retire b pc) b (s.bank b) pc :=
  ⟨State.bank_setBank_self .., fun _ hd => State.bank_setBank_ne _ _ hd, ⟨[(s.time, 0xF00 + 8 * 0 + b, 1)], rfl⟩⟩

/-- The next instruction follows. -/
theorem State.retiresNext_setBank (s : State) (b : Nat) (k : Bank) (hk : k.pc = (s.bank b).pc) :
    s.Retires ((s.setBank b k).retireNext b) b k (s.nextPc b) := by
  unfold State.retireNext
  rw [State.bank_setBank_self, hk]
  exact State.retires_setBank s b k _

@[simp] theorem Bank.setReg_pc (k : Bank) (i : Fin 16) (v : W64) : (k.setReg i v).pc = k.pc := by unfold Bank.setReg; split <;> rfl
@[simp] theorem Bank.flagsAdd_pc (k : Bank) (a b : W64) : (k.flagsAdd a b).pc = k.pc := rfl
@[simp] theorem Bank.flagsSub_pc (k : Bank) (a b : W64) : (k.flagsSub a b).pc = k.pc := rfl
@[simp] theorem Bank.flagsLogic_pc (k : Bank) (a : W64) : (k.flagsLogic a).pc = k.pc := rfl
@[simp] theorem Bank.flagsShift_pc (k : Bank) (a : W64) (n : Nat) (l : Bool) : (k.flagsShift a n l).pc = k.pc := rfl
@[simp] theorem Bank.flagsStatus_pc (k : Bank) (n : Nat) : (k.flagsStatus n).pc = k.pc := rfl
@[simp] theorem Bank.setTimer_pc (k : Bank) (n : Nat) (x : Timer) : (k.setTimer n x).pc = k.pc := rfl

/-- g0 reads 0 (R49). -/
@[simp] theorem Bank.reg_zero (k : Bank) : k.reg 0 = 0 := rfl

/-- A register reads what was written to it; g0 keeps reading 0 (R49). -/
theorem Bank.reg_setReg_self (k : Bank) (i : Fin 16) (v : W64) : (k.setReg i v).reg i = if i = 0 then 0 else v := by
  unfold Bank.reg Bank.setReg
  split
  · rfl
  · exact Amap.get_put_self ..

/-- Every other register reads as before. -/
theorem Bank.reg_setReg_ne (k : Bank) {i j : Fin 16} (v : W64) (h : j ≠ i) : (k.setReg i v).reg j = k.reg j := by
  unfold Bank.reg Bank.setReg
  split
  · rfl
  · split
    · rfl
    · exact Amap.get_put_ne _ _ _ _ _ (by omega)

/-- An armed injection, or the end of one, leaves every bank and every memory. -/
theorem State.writeMark_frame (s : State) (r w : Nat) : (s.writeMark r w).banks = s.banks ∧ (s.writeMark r w).mem = s.mem := by
  unfold State.writeMark
  split
  · dsimp only
    split
    · exact ⟨by unfold State.put State.wr State.setMarkOn; rfl, by unfold State.put State.wr State.setMarkOn; rfl⟩
    · exact ⟨by unfold State.put State.wr State.setMark State.setMarkOn; rfl, by unfold State.put State.wr State.setMark State.setMarkOn; rfl⟩
  · exact ⟨by unfold State.setMark State.setMarkOn; rfl, by unfold State.setMark State.setMarkOn; rfl⟩

/-- A write of a protected word leaves every bank. -/
theorem State.memWrite_bank (s : State) (r w : Nat) (sp : Space) (i v c : Nat) : (s.memWrite r w sp i v).bank c = s.bank c := by
  unfold State.memWrite
  split
  · rfl
  · exact (congrArg (fun l => Amap.get Bank.init l c) (State.writeMark_frame ..).1).trans rfl

/-- A write of a protected word leaves every other word of memory, the valid bits apart. -/
theorem State.memWrite_ld_ne (s : State) (r w : Nat) {sp sq : Space} {i j : Nat} (v : Nat) (h : sq ≠ sp ∨ j ≠ i) (hv : sq ≠ .valid) :
    (s.memWrite r w sp i v).ld sq j = s.ld sq j := by
  unfold State.memWrite
  split
  · rfl
  · refine Eq.trans ?_ (State.ld_st_ne s v h hv)
    unfold State.ld
    rw [(State.writeMark_frame ..).2]

/-- Words written into a state area leave every bank. -/
theorem State.areaWrite_bank (s : State) (b i : Nat) (l : List Nat) (c : Nat) : (s.areaWrite b i l).bank c = s.bank c := by
  induction l generalizing s i with
  | nil => rfl
  | cons v vs ih => exact (ih (s.memWrite ..) (i + 1)).trans (State.memWrite_bank ..)

/-- A new log entry: the bank has it, every other bank and every other word of memory is as before. -/
theorem State.logAdd_frame (s : State) (b : Nat) (e : LogEntry) :
    (s.logAdd b e).bank b = { s.bank b with log := (s.bank b).log ++ [e] } ∧ (∀ c, c ≠ b → (s.logAdd b e).bank c = s.bank c) ∧
    ∀ sp j, sp ≠ .valid → (sp = .shared → j ≠ stateArea b + 0x40 + 2 * (s.bank b).log.length ∧ j ≠ stateArea b + 0x41 + 2 * (s.bank b).log.length) →
      (s.logAdd b e).ld sp j = s.ld sp j := by
  refine ⟨State.bank_setBank_self .., fun c hc => ?_, fun sp j hv hj => ?_⟩
  · unfold State.logAdd
    dsimp only
    rw [State.bank_setBank_ne _ _ hc]
    exact (State.areaWrite_bank ..).trans (State.areaWrite_bank ..)
  · have h : ∀ (x : State) (i v : Nat), (sp = .shared → j ≠ stateArea b + i) → (x.areaWrite b i [v]).ld sp j = x.ld sp j := fun x i v hi =>
      State.memWrite_ld_ne x _ _ v (by by_cases h : sp = .shared; exact Or.inr (hi h); exact Or.inl h) hv
    unfold State.logAdd
    dsimp only
    refine (h _ _ _ fun e => ?_).trans (h _ _ _ fun e => ?_)
    · have := (hj e).2; omega
    · have := (hj e).1; omega

/-- A logged instruction retires from the bank `k`. -/
theorem State.retiresLogged (s : State) (b : Nat) (k : Bank) (e : LogEntry) :
    s.RetiresLogged (((s.setBank b k).logAdd b e).retireNext b) b k e ((k.pc + 1) % 2 ^ 18) := by
  obtain ⟨h1, h2, h3⟩ := State.logAdd_frame (s.setBank b k) b e
  rw [State.bank_setBank_self] at h1 h3
  have r := State.retires ((s.setBank b k).logAdd b e) b ((k.pc + 1) % 2 ^ 18)
  rw [h1] at r
  have hr : ((s.setBank b k).logAdd b e).retireNext b = ((s.setBank b k).logAdd b e).retire b ((k.pc + 1) % 2 ^ 18) := by
    unfold State.retireNext; rw [h1]
  rw [hr]
  exact ⟨r, fun c hc => (r.2.1 c hc).trans ((h2 c hc).trans (State.bank_setBank_ne _ _ hc)), fun sp j hv hj => h3 sp j hv hj⟩

/-- Making room in the log leaves the PC. -/
theorem State.logRoom_pc (s : State) (b : Nat) : ((s.logRoom b).bank b).pc = (s.bank b).pc := by
  unfold State.logRoom; split; rfl
  unfold State.writeCheckpoint; dsimp only; rw [State.bank_setBank_self]

/-- Making room in the log leaves every other bank. -/
theorem State.logRoom_ne (s : State) {b c : Nat} (h : c ≠ b) : (s.logRoom b).bank c = s.bank c := by
  unfold State.logRoom; split; rfl
  unfold State.writeCheckpoint; dsimp only; rw [State.bank_setBank_ne _ _ h]
  exact State.areaWrite_bank ..

/-- A logged instruction that starts, or goes on from its own wait, runs its effect after the log has room. -/
theorem State.issue_resume {s u : State} {b : Fin 8} {w : IW} {legal : Bool} {own : Stall} (waits : Stall → Bool) (hw : waits own = true) (hn : own ≠ .none)
    (body : State → State) (h : (s.Live b w u ∧ legal = true) ∨ s.Resumes b own u) :
    s.issue b w legal waits (fun t => t.logged b w body) = body (u.logRoom b) := by
  rcases h with ⟨h, hl⟩ | ⟨h1, hy, h2, h3, hu⟩
  · rw [State.issue_ready h.1 hl, State.logged_live (b := b) h.2]
  · have hr : s.replayEnd b = s := State.replayEnd_of_ne (by rw [h3]; simp)
    have hg : s.gate b w legal waits = .go := by simp [State.gate, h1, hy, h2, hn, hw]
    have hf : s.fetched b = s := if_neg (by rw [h2]; exact hn)
    unfold State.issue
    rw [hr]; simp only [hg]
    rw [hf, State.unlessReset_eq rfl, hu]
    exact State.logged_live (b := b) h3 _

/-- Taking a completion: the bank, and a count. -/
theorem State.takeTag_eq (s : State) (b tag : Nat) (c : Cmd) (h : (s.bank b).outstanding tag = some c) :
   ∃ u, s.Counted u ∧ s.takeTag b tag = u.setBank b ((s.bank b).tagTaken c) := by
  have ht : c.tag = tag := by
    have := List.find?_some h; simp at this; exact this.1
  unfold State.takeTag
  simp only [h]
  by_cases hq : (c.timedOut && decide (c.phase ≠ .gone)) = true
  · refine ⟨_, State.Counted.perfBank s 9 b 1, ?_⟩
    simp only [hq, if_true, (State.Counted.perfBank s 9 b 1).bank]
    unfold Bank.tagTaken Cmd.update
    simp only [hq, if_true, ht]
  · refine ⟨s, State.Counted.refl s, ?_⟩
    simp only [if_neg hq]
    unfold Bank.tagTaken
    simp only [if_neg hq, ht]

/-- Counting commutes with the replacement of a bank. -/
theorem State.Counted.setBank {t : State} (h : s.Counted t) (b : Nat) (k : Bank) : (s.setBank b k).Counted (t.setBank b k) := by
  obtain ⟨⟨a, ha⟩, h2⟩ := h
  refine ⟨⟨a, ?_⟩, fun g j e => h2 g j e⟩
  have hb : t.banks = s.banks := by rw [ha]
  refine (congrArg (fun z : State => z.setBank b k) ha).trans ?_
  unfold State.setBank
  dsimp only

/-- What the record of a fault leaves (R62). -/
theorem State.faultRecord_becomes (s : State) (b : Nat) {code : Nat} (hcode : code < 2 ^ F.STK_FAULT_CODE.w) :
    s.Becomes (s.faultRecord b code)
      [(F.STK_FAULT_VALID, b, 1), (F.STK_FAULT_COUNT, b, min (s.rd F.STK_FAULT_COUNT b + 1) (2 ^ F.STK_FAULT_COUNT.w - 1)),
        (F.STK_FAULT_CODE, b, code), (F.STK_FAULT_PC_PC, b, (s.bank b).pc % 2 ^ 18)] true := by
  have h0 := (State.Becomes.refl s true).put F.STK_FAULT_VALID b true (by decide) (by simp)
  have hr : (s.put F.STK_FAULT_VALID b true).rd F.STK_FAULT_COUNT b = s.rd F.STK_FAULT_COUNT b := State.rd_wr_ne _ _ (Fld.key_ne_lo (by decide))
  have h1 := h0.wr F.STK_FAULT_COUNT b (min (s.rd F.STK_FAULT_COUNT b + 1) (2 ^ F.STK_FAULT_COUNT.w - 1)) (by
    simp only [List.nil_append, List.mem_singleton, forall_eq]; exact Fld.key_ne_lo (by decide))
  have h2 := h1.wr F.STK_FAULT_CODE b code (by
    simp only [List.nil_append, List.cons_append, List.mem_cons, List.not_mem_nil, or_false, forall_eq_or_imp, forall_eq]
    exact ⟨Fld.key_ne_lo (by decide), Fld.key_ne_lo (by decide)⟩)
  have h3 := h2.wr F.STK_FAULT_PC_PC b (s.bank b).pc (by
    simp only [List.nil_append, List.cons_append, List.mem_cons, List.not_mem_nil, or_false, forall_eq_or_imp, forall_eq]
    exact ⟨Fld.key_ne_reg (by decide), Fld.key_ne_reg (by decide), Fld.key_ne_reg (by decide)⟩)
  have h4 := h3.counted (State.Counted.perfBank _ 3 b 1) (by
    simp only [List.nil_append, List.cons_append, List.mem_cons, List.not_mem_nil, or_false, forall_eq_or_imp, forall_eq]
    exact ⟨rfl, rfl, rfl, rfl⟩)
  unfold State.faultRecord State.bump
  rw [hr]
  rw [Nat.mod_eq_of_lt hcode, Nat.mod_eq_of_lt (Nat.lt_of_le_of_lt (Nat.min_le_right ..) (by decide))] at h4
  exact h4

/-- A fault out of the fault entry and out of a trap (R62), where the read of FAULT_ENTRY leaves the PC. -/
theorem State.faultTo_taken {b code : Nat} (trap : Nat) (h : s.MayFault b) (hcode : code < 2 ^ F.STK_FAULT_CODE.w)
    (hp : (((s.faultRecord b code).areaRead b 1).1.bank b).pc = (s.bank b).pc) :
    s.FaultTaken (s.faultTo b code trap) b code trap := by
  obtain ⟨hc, hf, hn⟩ := h
  have r := State.faultRecord_becomes s b hcode
  have hb : (s.faultRecord b code).bank b = s.bank b := by obtain ⟨m, hm, _⟩ := r.2.2; rw [hm]; rfl
  refine ⟨s.faultRecord b code, r, ?_⟩
  have e : s.faultTo b code trap = (s.faultRecord b code).unlessReset ((s.faultRecord b code).areaRead b 1).1 fun s3 =>
      s3.setBank b { (s3.bank b).setReg 15 (faultWord code (s3.bank b).pc trap) with
        ctx := .inFaultEntry, pc := ((s.faultRecord b code).areaRead b 1).2 % 2 ^ 18, retired := 0, stall := .none, nmtToWfe := s3.nmtOf b } := by
    unfold State.faultTo
    rw [hc, if_neg (by decide)]
    simp only [hb, if_neg hf, hn, Option.isSome_none, Bool.false_eq_true, if_false]
    rfl
  rw [e]
  refine ⟨fun hr => ?_, fun hr => State.unlessReset_ne hr _⟩
  rw [State.unlessReset_eq hr, hp]

end Sys2Proof.Machine
end

