-- ==== Sys2Proof/Tests/Slice0.lean ====
section
/-!
SUPPORT. The author's own tests: for every statement of Certificates/Slice0/Obligations.lean a theorem `met_<name>` that shows concrete states and
operands meeting its hypotheses, clause by clause at the ends of their ranges, and tests against words and numbers that the specification prints.
-/

open Sys2Proof Sys2Proof.Machine

/-- A state whose listed register fields differ from reset. -/
def T.st (ws : List (Fld × Nat × Nat)) : State := ws.foldl (fun s w => s.wr w.1 w.2.1 w.2.2) State.reset

/-- A running context of bank 0. -/
def T.bank : Bank := { Bank.init with ctx := .running }

/-- Bank 0 as `k`. -/
def T.at (k : Bank) : State := State.reset.setBank 0 k

/-- An instruction word: D, A, B, X, IMM. -/
def T.w (d a b x imm : Nat) : IW := { d := Fin.ofNat 16 d, a := Fin.ofNat 16 a, b := Fin.ofNat 16 b, cond := 0, x := BitVec.ofNat 8 x, imm := BitVec.ofNat 32 imm }

/-- The listed register fields beside the regions that Kiln has passed: the processor's 134 and `region`. -/
def T.up (region : Nat) (ws : List (Fld × Nat × Nat)) : State := T.st ([(F.KILN_REG_STATE, 134, 1), (F.KILN_REG_STATE, region, 1)] ++ ws)

/-! ### Hypotheses that are met: for each statement a state and operands that meet them together, clause by clause where they exclude each other -/

theorem met_IdleStepLetsTimePass : State.reset.pending = [] ∧ State.reset.inReset = false ∧ { State.reset with inReset := true }.pending = [] := by decide
theorem met_StepKeepsCanonical : State.reset.Canonical := by unfold State.Canonical; decide
theorem met_CommandsWaitInOrder : State.reset.Canonical := met_StepKeepsCanonical

theorem met_InstructionsFaultOrSkip :
    instructionWord (.addOp 0 (T.w 1 2 3 0 0)) = some (0, T.w 1 2 3 0 0, (T.w 1 2 3 0 0).legalAlu true) ∧ (T.at T.bank).AtIssue 0 ∧
    (T.at { T.bank with retired := 2 ^ 20 }).runLimit 0 ≤ 2 ^ 20 ∧ ((T.w 1 2 3 0 0).legalAlu true && (T.w 1 2 3 0 0).condDefined) = true ∧
    ((T.w 1 2 3 0 5).legalAlu true && (T.w 1 2 3 0 5).condDefined) = false ∧ T.bank.condHolds { T.w 1 2 3 0 0 with cond := 1 } = false ∧
    ({ T.at T.bank with withheld := [⟨0, 0, 64⟩] } : State).fetchBad 0 = true := by
  unfold State.AtIssue; decide
theorem met_InstructionsFaultOrSkip_more :
    (T.at T.bank).Fetches 0 (T.at T.bank) ∧ (T.at T.bank).MayFault 0 ∧ T.bank.canIssue = true ∧ (T.at T.bank).yields 0 = false ∧ T.bank.stall = .none ∧ T.bank.replay ≠ some [] ∧
    ({ T.at T.bank with withheld := [⟨0, 0, 64⟩] } : State).MayFault 0 := by unfold State.Fetches State.MayFault; decide
/-- A lost word of table memory whose line resets the chip. -/
theorem met_InstructionsFaultOrSkip_reset :
    (∀ s ∈ [({ (((T.at T.bank).wr F.FAULT_REACT_CHIP_RESET 28 1).wr F.MEMP_INJECT_ADDR_WORD 0 1).st .table 0 1 with marks := [⟨0, 0, 0, 3, 0, 0⟩], railsLow := [0] } : State)],
     s.fetchBad (s.bank 0).pc = true ∧ (s.fetched 0).resets ≠ s.resets) := by decide
theorem met_FaultEntry :
    (T.at T.bank).Ready 0 (T.w 0 0 0 0 255) (T.at T.bank) ∧ (T.w 0 0 0 0 255).only false false false true 0 = true ∧ T.bank.ctx ≠ .inFaultEntry ∧ T.bank.nmt = none ∧
    T.bank.canIssue = true ∧ (T.at T.bank).runLimit 0 ≤ 2 ^ 20 ∧ { T.bank with ctx := .inFaultEntry, retired := 2 ^ 20 }.canIssue = true ∧
    { T.bank with nmt := some 0, retired := 2 ^ 20 }.nmt.isSome = true ∧ T.bank.retired < (T.at T.bank).runLimit 0 := by
  unfold State.Ready State.AtIssue State.Fetches; decide
theorem met_FaultEntry_more :
    (T.at T.bank).MayFault 0 ∧ (∀ s ∈ [(T.at T.bank).st .table 0 (2 ^ 40)], (s.bank 0).stall = .none ∧ s.fetchBad 0 = false ∧ (torvuloFields (s.ld .table 0)).condDefined = true ∧
      (s.bank 0).condHolds (torvuloFields (s.ld .table 0)) = false) ∧ (T.at T.bank).runLimit 0 ≤ ({ T.bank with ctx := .inFaultEntry, retired := 2 ^ 20 } : Bank).retired ∧
    T.bank.condHolds (torvuloFields ((T.at T.bank).ld .table 0)) = true ∧ (T.at { T.bank with retired := 2 ^ 20 }).MayFault 0 := by unfold State.MayFault; decide
theorem met_AddSubtractCompare :
    (T.at T.bank).Ready 0 (T.w 1 2 3 0 0) (T.at T.bank) ∧ (T.w 1 2 3 0 0).legalAlu true = true ∧ (T.at T.bank).Ready 0 (T.w 1 2 0 1 5) (T.at T.bank) ∧ (T.w 1 2 0 1 5).legalAlu true = true ∧
    (T.at T.bank).Ready 0 (T.w 0 2 3 0 0) (T.at T.bank) ∧ (T.w 0 2 3 0 0).legalAlu false = true := by
  unfold State.Ready State.AtIssue State.Fetches; decide
theorem met_LogicMultiplyShift :
    (T.at T.bank).Ready 0 (T.w 0 2 3 0 0) (T.at T.bank) ∧ (T.w 0 2 3 0 0).legalAlu true = true ∧ (T.w 0 2 3 0 0).legalAlu false = true ∧
    (T.at T.bank).Ready 0 (T.w 1 2 0 1 63) (T.at T.bank) ∧ (T.w 1 2 0 1 63).legalAlu true = true ∧ (T.w 1 2 0 1 0).legalAlu true = true := by
  unfold State.Ready State.AtIssue State.Fetches; decide
theorem met_Moves :
    (T.at T.bank).Ready 0 (T.w 1 0 0 0 7) (T.at T.bank) ∧ (T.w 1 0 0 0 7).only true false false true 0 = true ∧ (T.at T.bank).Ready 0 (T.w 1 2 0 0 0) (T.at T.bank) ∧
    (T.w 1 2 0 0 0).only true true false false 0 = true ∧ (T.at T.bank).Ready 0 (T.w 1 0 0 0 0) (T.at T.bank) ∧ (T.w 1 0 0 0 0).only true false false false 0 = true := by
  unfold State.Ready State.AtIssue State.Fetches; decide
theorem met_GeneralRegisters : (15 : Fin 16) ≠ 0 ∧ (14 : Fin 16) ≠ 15 := by decide
theorem met_DataAddressMap :
    (0xFFF8 % 8 = 0 ∧ 0xFFF8 < 0x10000) ∧ (0x100000 % 8 = 0 ∧ 0x1FFFF8 % 8 = 0) ∧ (0x1FFFFF % 8 ≠ 0 ∧ 0xFFFF % 8 ≠ 0) ∧
    (dataPlace 0 0x10000).fault = some 3 ∧ (dataPlace 0 0xFFFFC).fault = some 3 ∧ (dataPlace 0 0x200000).fault = some 3 ∧
    stateProtected (0x1006F8 / 8) = true ∧ stateProtected (0x100700 / 8) = false ∧ stateProtected (0x120000 / 8) = false := by decide
theorem met_LoadStore :
    (T.at T.bank).Ready 0 (T.w 1 0 0 0 8) (T.at T.bank) ∧ (T.w 1 0 0 0 8).only true true false true 0 = true ∧
    ((T.at T.bank).dataRead (dataPlace 0 8)).2 = .good 0 ∧ ((((T.at T.bank).dataWrite (.priv 1) 7).setPoison 1 1 0).dataRead (dataPlace 0 8)).2 = .bad ∧
    (dataPlace 0 (T.bank.reg 0 + (T.w 1 0 0 0 0x10000).imm64).toNat).fault = some 3 ∧
    (T.w 0 0 3 0 8).only false true true true 0 = true ∧ (dataPlace 0 8).home = some (.priv, 1) ∧ (T.at T.bank).isWithheld 1 1 = false ∧
    dataPlace 0 (T.bank.reg 0 + (T.w 0 0 3 0 0x100000).imm64).toNat = .shared 0x20000 ∧ stateProtected 0x20000 = true ∧ (T.at T.bank).bankPriv 0 < 3 := by
  unfold State.Ready State.AtIssue State.Fetches; decide
theorem met_CompareAndSwap :
    (T.at T.bank).Live 0 (T.w 1 0 3 0 0x120000) (T.at T.bank) ∧ (T.w 1 0 3 0 0x120000).only true true true true 0 = true ∧
    dataPlace 0 (T.bank.reg 0 + (T.w 1 0 3 0 0x120000).imm64).toNat = .shared 0x24000 ∧ stateProtected 0x24000 = false ∧
    (((T.at T.bank).logRoom 0).dataRead (.shared 0x24000)).2 = .good 0 ∧ BitVec.ofNat 64 0 = T.bank.reg 1 ∧
    BitVec.ofNat 64 0 ≠ { T.bank with g := [(1, 5#64)] }.reg 1 ∧ ((((T.at T.bank).dataWrite (.shared 0x24000) 7).setPoison 1 0x14000 0).dataRead (.shared 0x24000)).2 = .bad ∧
    dataPlace 0 0x100004 = .align ∧ dataPlace 0 8 = .priv 1 ∧ dataPlace 0 0x10000 = .bounds ∧ stateProtected 0x20000 = true := by
  unfold State.Live State.Ready State.AtIssue State.Fetches; decide
theorem met_Branches :
    (T.at T.bank).Ready 0 (T.w 0 0 0 0 0x3FFFF) (T.at T.bank) ∧ (T.w 0 0 0 0 0x3FFFF).only false false false true 0 = true ∧
    (T.bank.pc : Int) + (T.w 0 0 0 0 0x3FFFF).imm.toInt < 2 ^ 18 ∧ ¬ (0 ≤ (T.bank.pc : Int) + (T.w 0 0 0 0 0xFFFFFFFF).imm.toInt) ∧
    T.bank.rstack.length < 32 ∧ 32 ≤ { T.bank with rstack := List.replicate 32 0 }.rstack.length ∧ (T.w 0 2 0 0 0).only false true false false 0 = true ∧
    (T.bank.reg 2).toNat < 2 ^ 18 ∧ 2 ^ 18 ≤ ({ T.bank with g := [(2, 0x40000#64)] }.reg 2).toNat ∧ (T.w 0 0 0 0 0).only false false false false 0 = true ∧
    { T.bank with rstack := [9] }.nmt ≠ some 0 ∧ { T.bank with rstack := [9], nmt := some 0 }.nmt = some 0 ∧
    (T.at { T.bank with rstack := [9], nmt := some 0 }).Ready 0 (T.w 0 0 0 0 0) (T.at { T.bank with rstack := [9], nmt := some 0 }) := by
  unfold State.Ready State.AtIssue State.Fetches; decide
theorem met_TimersCheckpointSignal :
    (T.at T.bank).Live 0 (T.w 0 0 0 0 0) (T.at T.bank) ∧ (T.w 0 0 0 0 0).only false false false false 0 = true ∧ (T.at T.bank).bankPriv 0 < 3 ∧
    3 ≤ ((T.at T.bank).st .shared (stateArea 0 + 3) 3).bankPriv 0 ∧ (T.w 0 2 0 0 3).only false true false true 0 = true ∧ (3 : Nat) < 4 ∧
    (T.at T.bank).time < ({ T.bank with g := [(2, 5#64)] }.reg 2).toNat ∧ (T.bank.reg 2).toNat ≤ (T.at T.bank).time ∧
    (T.w 0 0 0 0 3).only false false false true 0 = true ∧ (T.w 1 0 0 0 0).only true false false false 0 = true ∧
    (T.w 0 0 2 0 7).only false false true true 0 = true := by
  unfold State.Live State.Ready State.AtIssue State.Fetches; decide

theorem met_CommandIssue :
    (T.at T.bank).Live 0 (T.w 1 0 3 0 0x10) (T.at T.bank) ∧ (T.w 1 0 3 0 0x10).only true true true true 1 = true ∧ (((T.at T.bank).logRoom 0).bank 0).freeTag = some 0 ∧
    ((T.at T.bank).logRoom 0).addrUnderSlice 0x10 = false ∧ ((T.at T.bank).logRoom 0).badAddress 0x10 false false = false ∧
    ((T.at T.bank).logRoom 0).badAddress 0x20000 true false = true ∧ { T.bank with stall := .cmd }.canIssue = true ∧ (T.w 1 0 0 0 0x10).only true true false true 1 = true ∧
    ({ T.at T.bank with sliceRegion := some 3 } : State).addrUnderSlice 0x2003000 = true := by
  unfold State.Live State.Ready State.AtIssue State.Fetches; decide

/-- A command of tag 4: outstanding, or with its completion. -/
def T.cmd (phase : Phase) (a : Option (Status × Nat × Nat)) : Cmd := { mkCmd 4 0x10 false false 0 with phase := phase, answer := a }

theorem met_GetReadsAndWaits :
    (T.at T.bank).Live 0 (T.w 1 0 0 0 0x10) (T.at T.bank) ∧ (T.w 1 0 0 0 0x10).only true true false true 1 = true ∧
    { T.bank with stall := .getWait 4, cmds := [T.cmd .gone (some (.ok, 7, 0))] }.outstanding 4 = some (T.cmd .gone (some (.ok, 7, 0))) ∧
    { T.bank with stall := .getWait 4, cmds := [T.cmd .issued none] }.outstanding 4 = some (T.cmd .issued none) ∧
    (T.at { T.bank with stall := .getWait 4 }).yields 0 = false := by
  unfold State.Live State.Ready State.AtIssue State.Fetches; decide
theorem met_TakingCompletions :
    (T.at { T.bank with cmds := [T.cmd .gone (some (.ok, 7, 0))] }).Live 0 (T.w 1 2 0 0 0) (T.at { T.bank with cmds := [T.cmd .gone (some (.ok, 7, 0))] }) ∧ (T.w 1 2 0 0 0).only true true false false 0 = true ∧
    (T.w 1 0 0 0 0).only true false false false 0 = true ∧ (T.w 0 0 0 0 0).only false false false false 0 = true ∧
    ({ T.bank with g := [(2, 4#64)] }.reg 2).toNat / 256 % 8 = 0 ∧ ({ T.bank with g := [(2, 0x7FF#64)] }.reg 2).toNat / 256 % 8 ≠ 0 ∧
    (∀ c ∈ [T.cmd .gone (some (.ok, 7, 0))], c.answer.isSome = true) ∧ (∃ c ∈ [T.cmd .issued none], c.quarantined = false ∧ c.answer = none) ∧
    { T.bank with stall := .fence [4] }.canIssue = true ∧ (∀ c ∈ [T.cmd .issued none], c.quarantined = true ∨ c.answer = none) := by
  unfold State.Live State.Ready State.AtIssue State.Fetches; decide
theorem met_WaitingForEvents :
    (T.at T.bank).Live 0 (T.w 1 0 0 0 0) (T.at T.bank) ∧ (T.w 1 0 0 0 0).only true false false false 0 = true ∧ (T.at T.bank).nmtReady 0 true = false ∧
    T.bank.hasEvent = false ∧ { T.bank with irqs := [511] }.hasEvent = true ∧
    ({ T.bank with irqs := [511] }.takeEvent).isSome = true ∧ { T.bank with ctx := .sleeping, irqs := [511] }.ctx = .sleeping ∧
    ({ T.at T.bank with nmtHeld := [(0, 5)] } : State).nmtNext 0 = some 5 ∧ T.bank.live = true ∧
    ((T.bank.setTimer 3 ⟨some 0, false⟩).timer 3).setting = some 0 ∧ { T.bank with adoptions := [1], host := some 2 }.host.isSome = true ∧
    ((T.bank.setTimer 3 ⟨none, true⟩).timer 3).fired = true ∧ { T.bank with completion := true }.hasDone = false ∧
    { T.bank with completion := true, cmds := [T.cmd .gone (some (.ok, 7, 0))] }.hasDone = true := by
  unfold State.Live State.Ready State.AtIssue State.Fetches; decide
theorem met_CompletionsArrive :
    { T.bank with cmds := [T.cmd (.applied .ok 7) none] }.cmds.find? (fun c => c.tag = 4) = some (T.cmd (.applied .ok 7) none) ∧
    (T.cmd (.applied .ok 7) none).phase = .applied .ok 7 ∧ (T.cmd (.applied .ok 7) none).timedOut = false ∧
    ({ T.cmd (.applied .ok 7) none with timedOut := true, quarantined := true } : Cmd).quarantined = true ∧ Status.ok ≠ .aborted ∧
    (T.cmd .issued none).answer = none ∧ (T.up 3 []).waitUncounted 0x10 = false := by decide
theorem met_Mailboxes :
    (T.up 130 [(F.KILN_REG_STATE, 123, 1)]).Accepts .boot .STK_MBX_POST 0 0 ∧ (T.up 130 [(F.KILN_REG_STATE, 123, 1)]).on F.SYS_BOOT_STATUS_RECOVERY 0 = false ∧ (T.up 130 [(F.KILN_REG_STATE, 123, 1)]).mapByte 0 0 = 0xFF ∧
    (((T.up 130 [(F.KILN_REG_STATE, 123, 1)]).st .shared (stateArea 0 + 0x20) 0).Accepts .boot .STK_MBX_POP 0 0) ∧
    { T.bank with responses := [(9, [])] }.responses.filter (fun r => r.1 = 9) = [(9, [])] ∧ { T.bank with responses := [(32, [])] }.responses[0]? = some (32, []) ∧
    (T.at T.bank).Live 0 (T.w 1 0 0 0 0x120000) (T.at T.bank) ∧ (T.w 1 0 0 0 0x120000).only true true false true 0 = true ∧
    (∀ i ∈ List.range 8, (dataPlace 0 (0x120000 + 8 * i)).fault = none) ∧ (T.w 0 0 0 0 0x120000).only false true false true 0 = true ∧
    stateProtected (0x100000 / 8) = true ∧ { T.bank with requests := [[1, 2]] }.requests = [1, 2] :: [] ∧
    16 ≤ (List.replicate 16 ((9 : Nat), ([] : List Nat))).length := by
  unfold State.Accepts State.Live State.Ready State.AtIssue State.Fetches; decide
theorem met_ContextsStartFailAndMove :
    (T.up 130 [(F.KILN_REG_STATE, 123, 1)]).Accepts .boot .STK_CTL 0 ((T.up 130 [(F.KILN_REG_STATE, 123, 1)]).ctlWithRun 0 1) ∧ Bank.init.wantAdopt = false ∧ Bank.init.ctx = .stopped ∧
    (T.up 130 [(F.KILN_REG_STATE, 123, 1)]).engineDown 0 = false ∧ (T.up 130 [(F.KILN_REG_STATE, 123, 1)]).on F.FAULT_NMT_VALID 0 = false ∧ T.bank.failed = false ∧ T.bank.ctx ≠ .stopped ∧ T.bank.ctx ≠ .halted ∧
    (T.at T.bank).engineOf 0 = 0 ∧ T.bank.canIssue = true ∧ (T.st [(F.STK_ENGINES_FAILED, 0, 1)]).engineDown 0 = true ∧
    (((T.st [(F.STK_ENGINES_FAILED, 0, 1), (F.STK_ENGINES_PRESENT, 0, 254)]).setBank 0 { T.bank with wantAdopt := true }).adopter 0).isSome = true ∧
    (T.at { T.bank with replay := some [.result (some 1) none none none] }).Ready 0 (T.w 1 0 0 0 0) (T.at { T.bank with replay := some [.result (some 1) none none none] }) := by
  unfold State.Accepts State.Ready State.AtIssue State.Fetches; decide
theorem met_RefusedWritesHaveNoEffect :
    registerWrite (T.up 130 []) (.stkCtlRunStart .boot 0) = some (.boot, .STK_CTL, 0, (T.up 130 []).ctlWithRun 0 1) ∧
    (T.up 0 []).regExists .PORT_CFG 1 = false ∧ (T.up 0 []).regExists .STK_CTL 0 = true ∧
    (T.up 0 []).priv (.host 0) < (T.up 0 []).writeLevel (.host 0) .STK_CTL 0 1 ∧ objectOf .LANE_STATE 3 0 = some (.lane 3) ∧ (T.up 0 []).owner (.lane 3) ≠ 1 ∧
    (T.up 0 [(F.SYS_ACCESS_MODE_TRANSITION, 0, 1)]).on F.SYS_ACCESS_MODE_TRANSITION 0 = true ∧
    (T.up 0 [(F.SYS_ACCESS_MODE_MODE, 0, 1)]).service = true ∧ (T.up 0 [(F.SYS_ACCESS_MODE_MODE, 0, 1)]).modeBad .LANE_STATE 0 2 = true ∧
    (T.up 0 [(F.KILN_STATUS_FATAL, 0, 1)]).on F.KILN_STATUS_FATAL 0 = true ∧ reachableFatal .LANE_STATE = false := by decide
theorem met_RefusedWritesHaveNoEffect_session :
    registerWrite (T.up 130 []) (.stkCtlRunStart (.host 1) 0) = some (.host 1, .STK_CTL, 0, (T.up 130 []).ctlWithRun 0 1) ∧ ((T.up 130 []).sess 1).isOpen = false ∧
    (T.up 130 []).sessionClosed .boot = false ∧ ((T.up 0 []).setSess 1 { Sess.init with isOpen := true }).sessionClosed (.host 1) = false := by decide
theorem met_PlainRegisterWrite :
    (T.up 3 []).regAt 0xD010000 = none ∧ (T.up 3 []).regAt 0x2003040 = (T.up 3 []).regAt (0x2003040#32).toNat ∧ (T.up 3 []).Accepts .boot .LANE_RX_FOM_THR 3 5 ∧
    (T.up 3 []).unitWrite .boot .LANE_RX_FOM_THR 3 5 = none := by unfold State.Accepts; decide
theorem met_RegisterRead :
    Unit'.ofAddr 0xFFFFFFFC = none ∧ (T.up 3 []).regAt 0 = some (.SYS_DEVICE_ID, 0) ∧ (Unit'.ofAddr 0).isSome = true ∧
    (T.up 3 []).readCheck .boot .SYS_DEVICE_ID 0 = none ∧ (T.up 3 []).captured 9 .SYS_DEVICE_ID 0 = none ∧ tvOf .SYS_DEVICE_ID 0 = none := by decide
theorem met_CommandsTakeEffectAndModes :
    (((T.up 3 []).setBank 0 { T.bank with cmds := [{ mkCmd 4 0 false false 0 with serial := 0 }] }).nextCmd 0 (Unit'.system)).isSome = true ∧
    (T.up 3 []).Accepts .boot .SYS_ACCESS_MODE 0 2 ∧ (T.up 3 []).service = false ∧ (T.up 3 [(F.SYS_ACCESS_MODE_TRANSITION, 0, 1)]).on F.SYS_ACCESS_MODE_TRANSITION 0 = true ∧
    (T.up 3 [(F.SYS_ACCESS_MODE_MODE, 0, 1)]).service = true ∧ (3 : Fin 4).val ≥ 2 ∧ T.bank.live = true := by unfold State.Accepts; decide
theorem met_FlueRingReadOnly : 0xD010000 ≤ 0xD010000 ∧ 0xD01FFFF < 0xD020000 ∧ (0xD010000#32).toNat = 0xD010000 := by decide

/-- Lane 47, whose region has passed, with the listed fields. -/
def T.lane (ws : List (Fld × Nat × Nat)) : State := T.up 47 ws

/-- Lane 47 Lit, its signal there, its clock locked, converged. -/
def T.lit (ws : List (Fld × Nat × Nat)) : State :=
  T.up 47 ([(F.LANE_STATE_CUR, 47, 2), (F.LANE_STATE_REQ, 47, 2), (F.LANE_RX_STATUS_SIGNAL, 47, 1), (F.LANE_RX_STATUS_CDR_LOCK, 47, 1),
    (F.LANE_RX_STATUS_CONVERGED, 47, 1), (F.LANE_RX_STATUS_ACQ_STEP, 47, 9), (F.LANE_RX_STATUS_FROZEN, 47, 0)] ++ ws)

/-- Lane 47 with what it remembers changed. -/
def T.mod (s : State) (f : LaneS → LaneS) : State := s.setLane 47 (f (s.lane 47))

theorem met_LaneStates :
    (T.lane []).Accepts .boot .LANE_STATE 47 2 ∧ ((T.lane []).lane 47).forcedDrop = false ∧ (T.lane []).laneRefuses 47 2 = true ∧
    (T.lane []).laneRefuses 47 1 = false ∧ F.LANE_STATE_REFUSED.of 1 = 0 ∧ (T.lane []).on F.LANE_STATE_CHANGING 47 = false ∧
    (T.lane [(F.LANE_STATE_CUR, 47, 1)]).rd F.LANE_STATE_CUR 47 = F.LANE_STATE_REQ.of 1 ∧ (T.lane []).rd F.LANE_STATE_CUR 47 ≤ 1 ∧
    (T.lane [(F.LANE_STATE_CHANGING, 47, 1), (F.LANE_STATE_REQ, 47, 1), (F.LANE_STATE_CUR, 47, 2)]).on F.LANE_STATE_CHANGING 47 = true ∧
    (T.lane [(F.LANE_STATE_CHANGING, 47, 1), (F.LANE_STATE_REQ, 47, 1), (F.LANE_STATE_CUR, 47, 2)]).transitionReady 47 = true ∧
    (T.lane [(F.LANE_STATE_CHANGING, 47, 1), (F.LANE_STATE_REQ, 47, 3), (F.LANE_STATE_CUR, 47, 2)]).transitionReady 47 = true ∧
    (T.lane [(F.LANE_STATE_CHANGING, 47, 1), (F.LANE_STATE_REQ, 47, 2), (F.LANE_STATE_CUR, 47, 0)]).transitionReady 47 = true ∧
    (T.lane []).Accepts .boot .LANE_RX_CFG 47 0 ∧ (T.lane []).laneCold 47 = true ∧ (T.lane [(F.LANE_STATE_CUR, 47, 1)]).laneCold 47 = false ∧
    (T.lane [(F.LANE_STATE_CUR, 47, 1)]).Accepts .boot .LANE_RX_CFG 47 0 := by unfold State.Accepts; decide
theorem met_LaneStates_banked :
    (T.lane [(F.LANE_STATE_CHANGING, 47, 1), (F.LANE_STATE_REQ, 47, 1), (F.LANE_STATE_CUR, 47, 0)]).transitionReady 47 = true ∧
    (T.lane [(F.LANE_STATE_CHANGING, 47, 1), (F.LANE_STATE_REQ, 47, 1), (F.LANE_STATE_CUR, 47, 0), (F.LANE_TX_STATUS_DAC_CAL, 47, 1)]).transitionReady 47 = false ∧
    ((T.mod (T.lane []) fun l => { l with asBanked := true, wake := .full }).lane 47).wake = .full := by decide
theorem met_LaneSensing :
    (T.lit []).sensing 47 = true ∧ (T.lit []).on F.LANE_RX_STATUS_SIGNAL 47 = true ∧ (T.lit [(F.LANE_RX_STATUS_SIGNAL, 47, 0)]).sensing 47 = true ∧
    (T.lit [(F.LANE_RX_STATUS_SIGNAL, 47, 0)]).on F.LANE_RX_STATUS_SIGNAL 47 = false ∧ (T.lit []).rd F.LANE_RX_STATUS_ACQ_STEP 47 ≠ 2 ∧
    (T.lane [(F.LANE_STATE_CUR, 47, 2), (F.LANE_RX_STATUS_ACQ_STEP, 47, 2)]).sensing 47 = true ∧
    (T.mod (T.lit []) fun l => { l with polWanted := true }).on F.LANE_RX_STATUS_POL_INV 47 = false ∧
    (T.lane [(F.LANE_STATE_CUR, 47, 3)]).rd F.LANE_STATE_CUR 47 = 3 ∧ (T.lit []).on F.LANE_RX_STATUS_CDR_LOCK 47 = true ∧ (T.lit []).laneLit 47 = true ∧
    ((T.lit []).lane 47).ovrFreeze = false ∧ ((T.lit []).setLock 47 { LockS.init with lock := .locked }).fecLost 47 = false ∧
    (T.lit []).on F.LANE_RX_ADAPT_FREEZE_ALL 47 = false := by decide
theorem met_LaneSensing_queue : (T.lit []).laneLit 47 = true ∧ (T.lit []).rxOn 47 = true := by decide
theorem met_LaneGainAndWindows :
    (T.lit []).Canonical ∧ 2 ≤ (T.lit []).rd F.LANE_STATE_CUR 47 ∧ (T.lit []).gainRuns 47 = true ∧
    ((T.mod (T.lit []) fun l => { l with rx := { l.rx with tenCount := 1, tenSquares := 2 ^ 14 } }).lane 47).rx.tenCount = 1 ∧
    clampNat 16 96 0 * clampNat 16 96 0 * 1 < 2 ^ 14 ∧ (T.lit [(F.LANE_RX_GAIN_FINE, 47, 63)]).rd F.LANE_RX_GAIN_FINE 47 = 63 ∧
    (T.lit [(F.LANE_RX_GAIN_FINE, 47, 0)]).rd F.LANE_RX_GAIN_FINE 47 = 0 ∧ (T.lit [(F.LANE_RX_GAIN_ATTEN, 47, 6)]).rd F.LANE_RX_GAIN_ATTEN 47 < 7 ∧
    (T.lane []).rd F.LANE_STATE_CUR 47 < 2 ∧ (T.lit [(F.LANE_RX_STATUS_RECONVERGING, 47, 1)]).on F.LANE_RX_STATUS_RECONVERGING 47 = true ∧
    (T.lit []).laneActive 47 = true ∧ (T.lane [(F.LANE_RX_STATUS_ACQ_STEP, 47, 4)]).laneActive 47 = false ∧
    (T.lane [(F.LANE_RX_STATUS_ACQ_STEP, 47, 5)]).on F.LANE_RX_STATUS_CDR_LOCK 47 = false ∧ 6 ≤ (T.lane [(F.LANE_RX_STATUS_ACQ_STEP, 47, 8)]).rd F.LANE_RX_STATUS_ACQ_STEP 47 := by
  unfold State.Canonical; decide
theorem met_LaneGainAndWindows_windows :
    (∀ s ∈ [T.mod (T.lit []) fun l => { l with fomWhole := true, recordSnr := 5, steadyWindows := 2 }], s.laneActive 47 = true ∧ (s.lane 47).fomWhole = true ∧
      (s.lane 47).steadyWindows = 2) ∧
    (∀ k ∈ [1, 4, 5, 6, 8], ∀ s ∈ [T.mod (T.lit [(F.LANE_RX_STATUS_ACQ_STEP, 47, k), (F.LANE_RX_STATUS_CONVERGED, 47, 0)]) fun l => { l with trainWhole := true, swept := 30 }],
      s.rd F.LANE_RX_STATUS_ACQ_STEP 47 = k ∧ s.laneLit 47 = true ∧ s.on F.LANE_RX_STATUS_SIGNAL 47 = true ∧ (s.lane 47).ovrFreeze = false ∧
      s.on F.LANE_RX_ADAPT_FREEZE_ALL 47 = false ∧ (s.lane 47).trainWhole = true ∧ (s.lane 47).swept = 30) := by decide
theorem met_LaneSeasoningAndClock :
    (T.lit []).Accepts .boot .LANE_SEASON_CMD 47 1 ∧ F.LANE_SEASON_CMD_START.of 1 = 1 ∧ (T.lit []).on F.LANE_SEASON_STATUS_NO_SPARE 47 = false ∧
    (T.lit []).laneLit 47 = true ∧ (T.lit []).on F.LANE_SEASON_STATUS_BUSY 47 = false ∧
    (T.lit [(F.LANE_SEASON_STATUS_NO_SPARE, 47, 1)]).Accepts .boot .LANE_SEASON_CMD 47 1 ∧
    (T.lit [(F.LANE_SEASON_STATUS_BUSY, 47, 1)]).on F.LANE_SEASON_STATUS_BUSY 47 = true ∧ (T.lit []).underSlice 47 = false ∧
    ({ T.lit [] with sliceRegion := some 47 } : State).underSlice 47 = true ∧ ((T.lit []).lane 47).seasonGone = false ∧
    ((T.mod (T.lit []) fun l => { l with seasonTries := 3 }).lane 47).seasonTries = 3 ∧ (T.lit []).on F.LANE_RX_STATUS_CDR_LOCK 47 = true ∧
    (T.lit [(F.LANE_RX_STATUS_CDR_LOCK, 47, 0)]).on F.LANE_RX_STATUS_CDR_LOCK 47 = false ∧ (T.lit []).Accepts .boot .LANE_RX_COEF_DATA 47 5 ∧
    rxCoefWidth 0x64 = 10 ∧ rxCoefWidth 0x65 = 0 ∧ rxCoefWidth 0x250 = 32 ∧ rxCoefWidth 0x251 = 0 ∧ (T.lit []).readCheck .boot .LANE_RX_COEF_DATA 47 = none ∧
    ((T.lit []).memRead 6 (laneWord 47 0) ((T.lit []).rxCoef 47 0)).2 = .good 0 := by unfold State.Accepts; decide
theorem met_LaneSeasoningAndClock_clock :
    (T.lit [(F.LANE_RX_CDR_FREEZE, 47, 1)]).on F.LANE_RX_CDR_FREEZE 47 = true ∧ (T.lit []).on F.LANE_RX_CDR_FREEZE 47 = false ∧
    (∀ s ∈ [T.lane [(F.LANE_STATE_CUR, 47, 3), (F.LANE_RX_STATUS_SIGNAL, 47, 1)]], s.laneLit 47 = false ∧ 2 ≤ s.rd F.LANE_STATE_CUR 47 ∧
      s.on F.LANE_RX_STATUS_SIGNAL 47 = true ∧ s.on F.LANE_RX_STATUS_CDR_LOCK 47 = false) ∧ ((T.lit []).memReadL 6 (laneWord 47 0) ((T.lit []).rxCoef 47 0)).2.1 = .good 0 ∧
    (({ T.lit [] with withheld := [⟨6, laneWord 47 0, 1⟩] } : State).memReadL 6 (laneWord 47 0) 0).2.1 = .bad := by decide
theorem met_LaneConvergence :
    (T.lit []).lanesOff = false ∧ (T.lit []).laneLit 47 = true ∧ (T.lit []).rxOn 47 = true ∧ (T.lane [(F.LANE_STATE_CUR, 47, 3)]).rxOn 47 = false ∧
    (T.lit []).laneActive 47 = true ∧ (T.lit [(F.LANE_RX_FOM_THR_LOW_SNR, 47, 0)]).rd F.LANE_RX_FOM_THR_LOW_SNR 47 ≤ (T.lit []).rd F.LANE_RX_FOM_SNR 47 ∧
    (T.lit [(F.LANE_RX_FOM_THR_LOW_SNR, 47, 1)]).rd F.LANE_RX_FOM_SNR 47 < 1 ∧ ((T.mod (T.lit []) fun l => { l with snapshot := true }).lane 47).snapshot = true ∧
    (T.lane [(F.LANE_STATE_CUR, 47, 2)]).on F.LANE_RX_STATUS_CONVERGED 47 = false ∧ ((T.mod (T.lit []) fun l => { l with wake := .fromBanked, windows := 2 }).lane 47).windows = 2 ∧
    ({ count := 1, levels := 1, errors := 1 } : SnrSum).count > 0 ∧ (T.lit []).on F.LANE_STATE_CHANGING 47 = false ∧
    ((T.lit []).lane 47).wake = .none ∧ 5 ≤ (T.lit []).rd F.LANE_RX_STATUS_ACQ_STEP 47 := by decide
theorem met_LaneTransmitBlocks :
    (T.lane []).txSource 47 = 0 ∧ (T.lit [(F.LANE_TX_CFG_PATTERN, 47, 1)]).txSource 47 ≠ 0 ∧ ((T.lit []).lane 47).smoke.sending = none ∧
    (T.lit []).on F.LANE_TX_SMOKE_DEPTH_PENDING 47 = false ∧ (T.lit []).Accepts .boot .LANE_TX_COMMIT 47 1 ∧ F.LANE_TX_COMMIT_COMMIT.of 1 = 1 ∧
    (T.lit []).withheld = [] ∧ (T.lit []).marks = [] ∧ ({ T.lit [] with withheld := [⟨6, 47 * 0x800 + 0x680, 1⟩] } : State).isWithheld 6 (47 * 0x800 + 0x680) = true ∧
    (T.lit [(F.LANE_TX_COEF_ADDR_SHADOW, 47, 1)]).Accepts .boot .LANE_TX_COEF_DATA 47 5 ∧ (T.lit [(F.LANE_TX_COEF_ADDR_SHADOW, 47, 0)]).on F.LANE_TX_COEF_ADDR_SHADOW 47 = false ∧
    txCoefWidth 7 ≠ 0 ∧ txCoefWidth 8 = 0 ∧ txCoefWidth 0x3F = 0 ∧ txCoefWidth 0x7F ≠ 0 ∧ txCoefWidth 0x80 = 0 ∧
    (T.lit []).readCheck .boot .LANE_TX_COEF_DATA 47 = none := by unfold State.Accepts; decide
theorem met_LaneDriver :
    (T.lit []).Accepts .boot .LANE_TX_SMOKE 47 0 ∧ F.LANE_TX_SMOKE_RIPPLE_EN.of 0 = 0 ∧ (T.lit []).rippleOk 47 = false ∧
    (T.lit [(F.BAY_ROLE_ROLE_0, 5, 2), (F.LANE_RX_CFG_RATE, 47, 2)]).rippleOk 47 = true ∧ (T.lit [(F.LANE_TX_SMOKE_RIPPLE_EN, 47, 1)]).on F.LANE_TX_SMOKE_RIPPLE_EN 47 = true ∧
    22 * 1000000 > 21250000 ∧ 2 ≤ (T.lit []).rd F.LANE_STATE_CUR 47 ∧ (T.lit [(F.LANE_TX_STATUS_DAC_CAL, 47, 1)]).on F.LANE_TX_STATUS_DAC_CAL 47 = true ∧
    (T.lit []).on F.LANE_TX_STATUS_SHORT_PN 47 = false ∧ (T.lit [(F.LANE_TX_STATUS_SHORT_PN, 47, 1)]).on F.LANE_TX_STATUS_SHORT_PN 47 = true ∧
    (T.lit [(F.LANE_TX_STATUS_DRIVING, 47, 1)]).on F.LANE_TX_STATUS_DRIVING 47 = true ∧ 300 * 64 ≤ 600 * ((T.lit []).lane 47).swing ∧ (0 : Nat) < 1 := by
  unfold State.Accepts; decide
/-- Bay 5 and its lanes, whose regions have passed, with the listed fields. -/
def T.bay (ws : List (Fld × Nat × Nat)) : State := T.up 53 ((List.range 8).map (fun k => (F.KILN_REG_STATE, 40 + k, 1)) ++ ws)

theorem met_PortConfiguration :
    (T.bay []).Accepts .boot .BAY_CFG 5 0 ∧ (∀ k : Fin 8, (T.bay []).laneCold (8 * 5 + k) = true) ∧ (T.bay [(F.LANE_STATE_CUR, 47, 1)]).laneCold 47 = false ∧
    (T.bay []).Accepts .boot .BAY_ROLE 5 0 ∧ (T.bay []).Accepts .boot .PORT_LANE_STATE 40 1 ∧
    (∃ n ∈ (T.bay []).portLanes 40, (T.bay []).laneRefuses n 2 = true) ∧ (∀ n ∈ (T.bay []).portLanes 40, (T.bay []).laneRefuses n 1 = false) ∧
    (∃ n ∈ (T.bay []).portLanes 40, ((T.mod (T.bay []) fun l => { l with forcedDrop := true }).lane n).forcedDrop = true) ∧
    (T.bay []).Accepts .boot .PORT_CFG 40 1 ∧ F.PORT_CFG_FORMAT.of 1 ≠ (T.bay []).rd F.PORT_CFG_FORMAT 40 ∧ F.PORT_CFG_FORMAT.of 1 < 4 ∧
    4 ≤ F.PORT_CFG_FORMAT.of 4 := by unfold State.Accepts; decide
theorem met_MarkersAndFec :
    (T.lit []).Canonical ∧ (T.lit []).portOfLane 47 = 40 ∧ (T.lit []).lanesOff = false ∧ (T.lit [(F.PORT_CFG_FORMAT, 40, 1)]).rd F.PORT_CFG_FORMAT 40 = 1 ∧
    ((T.lit [(F.PORT_CFG_FORMAT, 40, 2)]).setLock 47 { LockS.init with lock := .search }).lockOf 47 = { LockS.init with lock := .search } ∧
    searchMarker true [] = none ∧ ({ LockS.init with lock := .locked, misses := 2 } : LockS).misses = 2 ∧
    ({ LockS.init with lock := .locked } : LockS).pcs.blocks.find? (fun b => b.nr % 5120 = 0) = none ∧
    ([{ nr := 5120, flag := true, body := [], bad := false, stray := false }] : List RxBlock).find? (fun b => b.nr % 5120 = 0) =
      some { nr := 5120, flag := true, body := [], bad := false, stray := false } ∧
    1 ≤ (T.lit [(F.BAY_ROLE_ROLE_0, 5, 1)]).role 40 ∧ 47 ∈ (T.lit []).portLanes 40 := by unfold State.Canonical; decide
theorem met_MarkersAndFec_marker : markerValid (markerBody 7 8 40 1 0 0) = true := by decide +kernel
/-- A stream of a line lane that holds a whole codeword's bits. -/
theorem met_MarkersAndFec_codeword :
    (∀ s ∈ [(T.lit [(F.PORT_CFG_FORMAT, 40, 2)]).setLock 47 { LockS.init with lock := .locked, pcs := { PcsS.init with bits := List.replicate 5440 false } }],
     (s.lockOf 47).lock = .locked ∧ s.rd F.PORT_CFG_FORMAT 40 = 2) ∧ (List.replicate 5440 false).length = 5440 ∧ ¬ (List.replicate 5440 false).length < 5440 := by decide +kernel

/-- Port 40, of the eight lanes of bay 5, with the listed fields: its role, its format, and ready in both directions. -/
def T.port (role fmt : Nat) (ws : List (Fld × Nat × Nat)) : State :=
  T.up 118 ([(F.BAY_ROLE_ROLE_0, 5, role), (F.PORT_CFG_FORMAT, 40, fmt), (F.PORT_STATUS_RX_READY, 40, 1), (F.PORT_STATUS_TX_READY, 40, 1)] ++ ws)

/-- Tunnel 23 in service: both directions enabled, with a current key in slots 0 (transmit) and 1 (receive). -/
def T.tun (ws : List (Fld × Nat × Nat)) : State :=
  T.port 2 2 ([(F.TUN_CFG_TX_EN, 23, 1), (F.TUN_CFG_RX_EN, 23, 1), (F.SYS_ACCESS_MODE_MODE, 0, 1), (F.TUN_STATUS_TX_STATE, 23, 2), (F.TUN_STATUS_RX_STATE, 23, 2),
    (F.KEY_DESC_STATE, 0, 2), (F.KEY_DESC_TUNNEL, 0, 23), (F.KEY_DESC_STATE, 1, 2), (F.KEY_DESC_TUNNEL, 1, 23), (F.KEY_DESC_DIR, 1, 1), (F.CRY_PIPE_TX_MAP, 0, 1)] ++ ws)

theorem met_BlocksAndNotices :
    (T.port 2 2 []).portExists 40 = true ∧ (T.port 2 2 []).on F.PORT_STATUS_RX_READY 40 = true ∧ (T.port 1 1 []).rd F.PORT_CFG_FORMAT 40 = 1 ∧
    (T.up 47 []).on F.PORT_STATUS_RX_READY 40 = false ∧
    (((T.port 2 2 []).setPort 40 { PortS.init with turn := some (0, 0) }).setLock 47 { LockS.init with
      pcs := { PcsS.init with blocks := [{ nr := 1, flag := false, body := [], bad := false, stray := false }] } }).lockOf 47 = { LockS.init with
        pcs := { PcsS.init with blocks := [{ nr := 1, flag := false, body := [], bad := false, stray := false }] } } ∧
    (T.port 2 2 []).isLine 40 = true ∧ (T.port 2 2 []).on F.PORT_STATUS_TX_READY 40 = true ∧ (T.port 1 1 []).isLine 40 = false ∧
    ((T.port 2 2 []).port 40).rx = none ∧ (((T.port 2 2 []).setPort 40 { PortS.init with rx := some ([0xB1], false) }).port 40).rx = some ([0xB1], false) ∧
    (((T.port 2 2 []).setPort 40 { PortS.init with notice := some 7 }).port 40).notice = some 7 ∧ (T.port 2 2 []).on F.CRY_PEER_STATUS_VALID 0 = false ∧
    (T.port 2 2 [(F.CRY_PEER_STATUS_VALID, 0, 1)]).on F.CRY_PEER_STATUS_VALID 0 = true := by decide
theorem met_BlocksAndNotices_turn :
    (∀ s ∈ [((T.port 2 2 []).setPort 40 { PortS.init with turn := some (1, 7) }).setLock 47
        { LockS.init with logical := 7, pcs := { PcsS.init with blocks := [{ nr := 1, flag := true, body := [], bad := false, stray := true }] } }],
     (s.port 40).turn = some (1, 7) ∧ (s.portLanes 40).find? (fun n => (s.lockOf n).logical = 7) = some 47 ∧ (s.lockOf 47).pcs.place { nr := 1, flag := true, body := [], bad := false, stray := true } = 1) ∧
    copyComplete [0xB1] = false := by decide
theorem met_ClientFrames :
    (T.port 1 1 [(F.TUN_CFG_PORT, 23, 40), (F.TUN_CFG_TX_EN, 23, 1)]).tunnelOfPort 40 = some 23 ∧ (T.port 1 1 []).tunnelOfPort 39 = none ∧
    (T.up 118 []).txStateNow 23 ≠ 2 ∧ (T.tun []).txStateNow 23 = 2 ∧ (T.tun []).service = true ∧ (T.tun []).stopping = false ∧ (T.tun []).storeBlocked 23 = false ∧
    (63 : Nat) < 64 ∧ (T.tun []).maxFrame 23 < 9217 ∧ ((T.tun []).ttx 23).closed = [] ∧ ((T.tun []).ttx 23).plain.length < 9184 ∧
    (((T.tun []).setTtx 23 { TunTx.init with closed := [⟨0, [1], 1⟩] }).ttx 23).closed ≠ [] ∧ 262144 < 262143 + 64 ∧
    (T.port 1 1 []).egressOpen 23 = false ∧ (T.port 1 1 [(F.TUN_CFG_PORT, 23, 40), (F.SYS_ACCESS_MODE_MODE, 0, 1)]).egressOpen 23 = true ∧
    ({ T.tun [] with time := 250 } : State).time ≥ 0 + max 1 0 * 250 := by decide
theorem met_ClientFrames_egress :
    (∀ s ∈ [(T.port 1 1 [(F.TUN_CFG_PORT, 23, 40), (F.SYS_ACCESS_MODE_MODE, 0, 1)]).setTrx 23 { TunRx.init with egress := [([1, 2], false)] }],
     s.egressOpen 23 = true ∧ (s.trx 23).egress = [([1, 2], false)] ∧ s.marks = [] ∧ s.withheld = [] ∧ (s.queueTake 1 23 (s.trx 23).taken 2).1.resets = s.resets ∧
      (s.queueTake 1 23 (s.trx 23).taken 2).2 = false) := by decide
theorem met_EncryptionAndKeys :
    ((((T.tun []).setTtx 23 { TunTx.init with closed := [⟨0, [1], 1⟩] }).voteTx 23).voteSlots 23 0).txSlotFor 23 1 = some 0 ∧
    (T.tun []).freePipe = some 0 ∧ (T.tun []).inPipeline 31 = none ∧
    ((T.tun []).setTtx 23 { TunTx.init with crypto := [(⟨false, 23, 0, 1, 0, [1], false⟩, 31)] }).inPipeline 31 = some (23, ⟨false, 23, 0, 1, 0, [1], false⟩) ∧
    (T.tun []).inPipe (pipeMap true) 0 = true ∧ (T.tun []).inPipe (pipeMap true) 31 = false ∧
    (T.up 119 []).Accepts .boot .KEY_LOAD 0 (keyLoadValue 2 0 127) ∧ (T.up 119 []).rd F.KEY_DESC_STATE 127 = 0 ∧ (T.up 119 []).service = false ∧
    (T.up 119 [(F.KEY_DESC_STATE, 127, 4)]).rd F.KEY_DESC_STATE 127 = 4 ∧ (T.up 119 []).Accepts .boot .KEY_ZEROISE 0 127 ∧
    (T.up 119 []).Accepts .boot .KEY_ZEROISE 0 256 ∧ (8#4) ≠ 0 := by unfold State.Accepts; decide
theorem met_EncryptionAndKeys_slots :
    (∀ s ∈ [(T.tun [(F.PROT_STATUS_PATH_A_TX, 0, 2)]).setTtx 23 { TunTx.init with closed := [⟨0, [1], 1⟩], tokens := 10 ^ 9 }], s.canRelease 23 = true ∧ 33 * 20 ≤ s.tokensNow 23) ∧
    (T.tun []).slotPhase 23 0 0 = some 0 ∧ (T.tun []).slotPhase 23 0 1 = none ∧ ((T.tun []).slotTake 0).2 = true ∧ ((T.tun []).slotTake 0).1.resets = (T.tun []).resets ∧
    (((T.tun []).setMark 8 0 0 3 0).slotTake 0).2 = false ∧ ((T.up 119 []).voteKey 127).resets = (T.up 119 []).resets ∧ (T.tun []).slotOf 23 0 2 = some 0 := by decide

/-- A plain copy of a bundle's bytes: 32 header and tag bytes of tunnel 23 with no body. -/
def T.copy (n : Nat) : List Nat := [0xB1, 0, 23] ++ List.replicate n 0

theorem met_ReceivedBundles :
    (T.tun []).isLine 40 = true ∧ (T.tun []).on F.PORT_STATUS_RX_READY 40 = true ∧ (T.up 47 []).isLine 40 = false ∧ (T.tun []).rd F.PORT_CFG_FORMAT 40 ≠ 1 ∧
    (T.port 2 1 []).rd F.PORT_CFG_FORMAT 40 = 1 ∧ (T.copy 13).length = 16 ∧ (T.copy 12).length < 16 ∧ (T.copy 13).getD 2 31 % 32 = 23 ∧
    [0xB1, 0, 24].getD 2 31 % 32 = 24 ∧ (T.tun []).on F.TUN_CFG_RX_EN 23 = true ∧ (T.tun []).slotOf 23 1 2 ≠ none ∧ (T.up 118 []).slotOf 23 1 2 = none ∧
    ((T.tun []).protT 23).decrypting = none ∧
    ((((T.tun []).setProt 23 { ProtT.init with decrypting := some (1, 0) }).voteRx 23).voteSlots 23 1 |>.protT 23).decrypting = some (1, 0) ∧
    (T.tun []).on F.TUN_STATUS_RESYNC 23 = false ∧ (T.tun []).replayOk 23 1 = true ∧ (T.tun []).replayOk 23 0 = false ∧
    (T.up 118 []).on F.TUN_CFG_RX_EN 23 = false ∧ ((T.tun []).protT 23).acked ≤ 0 ∧ (T.tun []).on F.PROT_TUN_CFG_LOSSLESS 23 = false ∧
    (T.tun [(F.PROT_TUN_CFG_LOSSLESS, 23, 1)]).on F.PROT_TUN_CFG_LOSSLESS 23 = true ∧ (T.tun []).rxD 23 + 1 < 1 + 1 := by decide
theorem met_ReceivedBundles_ethernet :
    (T.port 2 1 [(F.TUN_CFG_RX_EN, 23, 1)]).isLine 40 = true ∧ (T.port 2 1 [(F.TUN_CFG_RX_EN, 23, 1)]).on F.PORT_STATUS_RX_READY 40 = true ∧
    ((List.replicate 18 (0 : Nat)).length < 18 → False) ∧ ((T.tun []).voteRx 23).resets = (T.tun []).resets ∧
    headerOk ([0xB1, 0x10, 23, 0, 0, 1] ++ List.replicate 27 0) = true ∧ headerOk ([0xB0, 0x10, 23, 0, 0, 1] ++ List.replicate 27 0) = false ∧
    (T.tun []).txSeq 23 ≤ 5 ∧ 0 < (T.tun []).txSeq 23 ∧ ((T.tun []).protT 23).acked ≤ 0 := by decide
theorem met_KeyRollover :
    (T.up 118 []).Accepts .boot .TUN_ROLL 23 1 ∧ (T.up 118 []).Accepts .boot .TUN_ROLL 23 2 ∧ (T.up 118 []).rd F.TUN_STATUS_ROLL_TX 23 = 0 ∧
    (T.up 118 []).slotOf 23 0 3 = none ∧ (T.up 118 [(F.KEY_DESC_STATE, 2, 3), (F.KEY_DESC_TUNNEL, 2, 23)]).slotOf 23 0 3 = some 2 ∧
    (T.up 118 [(F.TUN_STATUS_ROLL_TX, 23, 2)]).rd F.TUN_STATUS_ROLL_TX 23 = 2 ∧ (T.up 118 [(F.TUN_STATUS_ROLL_TX, 23, 5)]).rd F.TUN_STATUS_ROLL_TX 23 = 5 ∧
    ((T.up 118 []).voteSlots 23 1).slotOf 23 1 3 = none ∧ (((T.up 118 []).setTrx 23 { TunRx.init with rollId := some 7 }).trx 23).rollId = some 7 ∧
    ((((T.up 118 [(F.TUN_STATUS_ROLL_TX, 23, 2)]).setTtx 23 { TunTx.init with rollId := 7, rollC := some 256 }).voteTx 23).voteSlots 23 0 |>.rd F.TUN_STATUS_ROLL_TX 23) = 2 ∧
    ((T.up 118 [(F.TUN_STATUS_ROLL_TX, 23, 4)]).setTtx 23 { TunTx.init with rollC := some 1 }).belowDone 23 1 = true ∧
    (T.up 118 []).time < 0 + clampNat 1 100 0 * 250000000 ∧ 0 + clampNat 1 100 0 * 250000000 ≤ ({ T.up 118 [] with time := 250000000 } : State).time ∧
    (T.up 118 [(F.TUN_STATUS_ROLL_RX, 23, 6)]).rd F.TUN_STATUS_ROLL_RX 23 = 6 ∧ (T.up 118 [(F.TUN_STATUS_ROLL_RX, 23, 3)]).rd F.TUN_STATUS_ROLL_RX 23 = 3 ∧
    8 < 2 ^ F.TUN_ROLL_STATUS_RESULT.w := by unfold State.Accepts; decide

/-- The hold store running with channel 0 LIVE. -/
def T.hold (ws : List (Fld × Nat × Nat)) : State :=
  T.up 122 ([(F.KILN_REG_STATE, 121, 1), (F.KILN_REG_STATE, 120, 1), (F.HOLD_STATUS_STATE, 0, 2), (F.HOLD_CH_STATUS_STATE, 0, 2)] ++ ws)

theorem met_HoldStoreLife :
    (T.up 122 []).Accepts .boot .HOLD_CTL 0 1 ∧ (T.up 122 []).rd F.HOLD_STATUS_STATE 0 = 0 ∧ (T.up 122 []).holdExcluded = false ∧
    (T.hold []).rd F.HOLD_STATUS_STATE 0 ≠ 0 ∧ (T.hold []).Accepts .boot .HOLD_CTL 0 2 ∧ (T.hold [(F.HOLD_CH_STATUS_STATE, 23, 1)]).rd F.HOLD_CH_STATUS_STATE 23 = 1 ∧
    (T.hold []).rd F.HOLD_CH_STATUS_STATE 23 ≠ 1 ∧ (T.hold []).chLive 0 = true ∧ (T.hold []).chLive 23 = false ∧ (T.hold []).ddrCapped = false ∧
    ((T.hold []).setHc 0 { HCh.init with cords := 2, filled := 1 }).hcOf 0 = { HCh.init with cords := 2, filled := 1 } ∧
    (T.hold [(F.HOLD_STATUS_OVER_BUDGET, 0, 1)]).on F.HOLD_STATUS_OVER_BUDGET 0 = true ∧ dimmSize 16 = true ∧ dimmSize 0 = false := by unfold State.Accepts; decide
theorem met_HoldStoreLife_cords :
    (∀ s ∈ [(T.hold []).setHc 0 { HCh.init with cords := 2, filled := 1, withdrawn := [0] }], s.refillCord 0 = some 0 ∧ s.budgetFree = true ∧ s.ddrCapped = false ∧ s.chServes 0 = true) ∧
    (∀ s ∈ [(T.hold []).setHc 0 { HCh.init with cords := 2, filled := 1 }], s.refillCord 0 = none ∧ (s.cordRead 0 256).resets = s.resets) ∧
    (∀ d ∈ ([⟨.retx, 23, 9, 0, ⟨false, 23, 0, 9, 0, [], false⟩, [], false, 0, [], 0, []⟩] : List Held), ({ T.hold [] with held := [d], time := 125000 } : State).held.find? (fun h => h.kind = .retx && h.tunnel = 23 && h.seq = 9 && h.path = 0) = some d ∧
      d.storedAt + 125000 ≤ 125000) := by decide
theorem met_HoldCorrectionAndRepair :
    (T.hold []).readAt 0 5 = none ∧
    ({ T.hold [] with heldReads := [⟨.align, 1, 9, 0, [(0, 5)], 0⟩] } : State).readAt 0 5 = some ⟨.align, 1, 9, 0, [(0, 5)], 0⟩ ∧
    (T.hold []).chServes 0 = true ∧ ((T.hold []).setHc 0 { HCh.init with filled := 1, clinkers := [5] }).filledBillets 0 > 5 ∧
    (T.hold [(F.HOLD_SCRUB_CTL_EN, 0, 1), (F.HOLD_STATUS_READY, 0, 1)]).scrubOn = true ∧ ((T.hold []).hcOf 0).rowScrub = [] ∧ (31 : Fin 32).val < 32 ∧
    ({ HCh.init with retest := [5] } : HCh).retest = [5] ∧ (T.hold []).Accepts .boot .HOLD_PPR_CMD 0 (pprValue 0 false false) ∧
    ((T.hold []).setSess 1 { Sess.init with isOpen := true, priv := 3 }).Accepts (.host 1) .HOLD_PPR_CMD 0 (pprValue 0 false true) ∧ (T.hold []).on F.HOLD_PPR_STATUS_BUSY 0 = false ∧ (T.hold []).service = false ∧
    ({ T.hold [] with repair := some ⟨0, ⟨0, 0, 0, 0, 0⟩, true⟩ } : State).repair = some ⟨0, ⟨0, 0, 0, 0, 0⟩, true⟩ ∧ (T.hold []).repair = none := by
  unfold State.Accepts; decide
theorem met_HoldCorrectionAndRepair_more :
    (∀ s ∈ [(T.hold [(F.HOLD_SCRUB_CTL_EN, 0, 1), (F.HOLD_STATUS_READY, 0, 1)]).setHc 0 { HCh.init with filled := 1, rowScrub := [⟨0, 0, 0, 0, 0⟩] }], (s.hcOf 0).rowScrub ≠ [] ∧
      s.on F.HOLD_STATUS_OVER_BUDGET 0 = false ∧ s.chServes 0 = true) ∧
    (∀ s ∈ [(T.hold [(F.HOLD_SCRUB_CTL_EN, 0, 1), (F.HOLD_STATUS_READY, 0, 1)]).setHc 0 { HCh.init with filled := 1 }], s.scrubOn = true ∧ s.chServes 0 = true ∧ (s.hcOf 0).rowScrub = [] ∧
      (s.hcOf 0).scrubAt < s.filledBillets 0 ∧ (s.burstErrors 0 0 []).resets = s.resets) ∧
    Amap.get 0 ({ HCh.init with rankCnt := [(3, 1)] } : HCh).rankCnt 3 ≠ 0 ∧
    0 + max 1 ((T.hold []).rd F.HOLD_BUCKET_CFG_RANK_LEAK 0) * 250000000 ≤ ({ T.hold [] with time := 10 ^ 12 } : State).time ∧
    ({ HCh.init with retest := [5] } : HCh).retest = 5 :: [] ∧ 5 < (T.hold []).filledBillets 0 + 256 ∧ (5 < ((T.hold []).setHc 0 { HCh.init with filled := 1 }).filledBillets 0) := by decide
theorem met_ProtectionAndMerge :
    ((T.tun []).protT 23).ctrlQ = [] ∧ (T.tun []).txStateNow 23 = 2 ∧ (T.tun []).service = true ∧ (T.tun []).on F.PROT_TUN_STATE_RIDE 23 = false ∧
    ((T.tun []).placement 23 ⟨false, 23, 0, 1, 0, [1], false⟩).ports ≠ [] ∧ ((T.up 120 []).placement 23 ⟨false, 23, 0, 1, 0, [1], false⟩).ports = [] ∧
    (T.up 120 []).Accepts .boot .PROT_CFG 0 2 ∧ F.PROT_CFG_MODE.of 3 = 3 ∧ F.PROT_CFG_MODE.of 2 ≠ 3 ∧ (T.up 120 [(F.PROT_CFG_MODE, 0, 2)]).Accepts .boot .PROT_SWITCH_CTL 0 1 ∧
    (T.up 120 []).switchReq = none ∧ (T.up 120 [(F.PROT_CFG_MODE, 0, 2)]).rd F.PROT_CFG_MODE 0 = 2 ∧ (T.up 120 []).rd F.PROT_STATUS_ACTIVE 0 = 0 ∧
    ({ T.up 120 [] with switchReq := some ⟨1, true, 0⟩ } : State).switchReq = some ⟨1, true, 0⟩ ∧
    ({ ProtT.init with arrivals := [(9, 0, 0)] } : ProtT).arrivalOf 9 = some 0 ∧ (ProtT.init).arrivalOf 9 = none ∧
    (T.tun [(F.PROT_TUN_CFG_LOSSLESS, 23, 1)]).lossless 23 = true ∧ (T.tun []).rxStateNow 23 = 2 ∧ ({ ProtT.init with ackAge := 63 } : ProtT).ackAge = 63 ∧
    (T.up 120 []).Accepts .boot .PROT_CTL 0 1 ∧ (T.up 120 []).Accepts .boot .PROT_CTL 0 2 ∧ (T.tun [(F.PROT_STATUS_PATH_A_TX, 0, 2)]).anyTx = true ∧
    (T.up 120 []).anyTx = false ∧ (T.tun [(F.PROT_TUN_STATE_DRAIN, 23, 1)]).on F.PROT_TUN_STATE_DRAIN 23 = true ∧
    ({ ProtT.init with runs := [⟨9, 1, 1, 0⟩] } : ProtT).runs.find? (fun r => r.first = 9) = some ⟨9, 1, 1, 0⟩ := by unfold State.Accepts; decide
theorem met_ProtectionAndMerge_more :
    (∀ s ∈ [({ T.up 120 [(F.PROT_CFG_MODE, 0, 2)] with switchReq := some ⟨1, false, 0⟩ } : State)], ∃ q ∈ s.switchReq, q.whenReady = false ∧ (s.readyPorts q.path).isEmpty = true) ∧
    (∀ s ∈ [({ T.up 120 [(F.PROT_CFG_MODE, 0, 2)] with switchReq := some ⟨1, true, 0⟩ } : State)], s.switchReq = some ⟨1, true, 0⟩ ∧ s.rd F.PROT_STATUS_PATH_B_TX 0 ≠ 2 ∧ s.time < 0 + 2500000) ∧
    0 + max 8 ((T.tun []).rd F.PROT_LL_CFG_ACK_INT 0) * 2500 ≤ ({ T.tun [] with time := 10 ^ 9 } : State).time ∧ ((T.tun []).protT 23).lastAck ≠ some (0, 0) ∧
    (∀ s ∈ [({ (T.tun [(F.PROT_TUN_STATE_DRAIN, 23, 1)]).setProt 23 { ProtT.init with backlog := [7] } with time := 250000000 } : State)],
      s.on F.PROT_TUN_STATE_DRAIN 23 = true ∧ (s.protT 23).backlog ≠ [] ∧ (s.protT 23).fellAt + 250000000 ≤ s.time) ∧
    (T.tun [(F.PROT_TUN_STATE_RIDE, 23, 1), (F.PROT_STATUS_PATH_A_TX, 0, 2)]).on F.PROT_TUN_STATE_RIDE 23 = true := by decide

theorem met_DecimationAndMonitors :
    (T.lit []).Accepts .boot .LANE_DEC_CFG 47 0 ∧ (T.lit []).on F.LANE_DEC_CFG_SMOKE_OWNED 47 = false ∧ (T.lit []).Accepts .boot .LANE_DEC_COEF_DATA 47 5 ∧
    (T.lit [(F.LANE_DEC_CFG_SMOKE_OWNED, 47, 1)]).on F.LANE_DEC_CFG_SMOKE_OWNED 47 = true ∧ (T.lit []).readCheck .boot .LANE_DEC_COEF_DATA 47 = none ∧
    (T.lit [(F.LANE_DEC_COEF_ADDR_INDEX, 47, 0xFF)]).rd F.LANE_DEC_COEF_ADDR_INDEX 47 < 0x100 ∧ (T.lit [(F.LANE_DEC_COEF_ADDR_INDEX, 47, 0x11F)]).rd F.LANE_DEC_COEF_ADDR_INDEX 47 < 0x120 ∧
    0x120 ≤ (T.lit [(F.LANE_DEC_COEF_ADDR_INDEX, 47, 0x120)]).rd F.LANE_DEC_COEF_ADDR_INDEX 47 ∧ (T.lit []).Accepts .boot .LANE_DEC_SWITCH 47 1 ∧
    F.LANE_DEC_SWITCH_SWITCH.of 1 = 1 ∧ (T.lit [(F.LANE_DEC_STATUS_RUNNING, 47, 1)]).on F.LANE_DEC_STATUS_RUNNING 47 = true ∧ (T.lit []).Canonical ∧
    (T.lit []).Accepts .boot .LANE_DEC_CAP_CTL 47 1 ∧ (T.lit []).on F.LANE_DEC_CAP_STATUS_BUSY 47 = false ∧ (T.lit []).captured 9 .LANE_DEC_CAP_DATA_LO 47 = none ∧
    (T.lit []).Accepts .boot .LANE_MON_CTL 47 1 ∧ (T.lit []).laneLit 47 = true ∧ (T.lit []).readCheck .boot .LANE_MON_HIST_DATA 47 = none ∧
    (T.lit [(F.LANE_MON_STATUS_BUSY, 47, 1), (F.LANE_MON_HIST_TOTAL_COUNT, 47, 1024)]).rd F.LANE_MON_HIST_TOTAL_COUNT 47 ≥ 2 ^ clampNat 10 31 0 ∧
    ((T.mod (T.lit []) fun l => { l with rx := { l.rx with sq := [(3, { count := 2 ^ 24, sum := 0, squares := 0 })] } }).lane 47).rx.sq ≠ [] := by
  unfold State.Accepts State.Canonical; decide
theorem met_DecimationAndMonitors_runs :
    (∀ s ∈ [T.lit [(F.LANE_DEC_STATUS_RUNNING, 47, 1)]], s.on F.LANE_DEC_STATUS_RUNNING 47 = true ∧ s.decSamples 47 ≤ (List.replicate (s.decSamples 47) (0 : Nat)).length) ∧
    (∀ s ∈ [T.mod (T.lit []) fun l => { l with rx := { l.rx with sq := [(3, { count := 2 ^ 24, sum := 0, squares := 0 })] } }], s.laneLit 47 = true ∧ s.sqHeld 47 = false ∧
      2 ^ clampNat 10 24 (s.rd F.LANE_MON_SQ_CFG_LOG2 47) ≤ ((s.lane 47).rx.sq.map fun e => e.2.count).sum) ∧
    ((T.lit []).memReadL 6 (laneWord 47 0x400) ((T.lit []).ld .decCoef (47 * 0x1000))).2.1 ≠ .bad := by decide +kernel
theorem met_SmokeCodingRoundTrip : 6 ≤ 12 ∧ (List.replicate 66 255).length ≤ 66 ∧ (∀ x ∈ List.replicate 66 255, x < 256) ∧ (2 : Fin 4).val ≥ 2 ∧ 7 < 5 + 3 := by decide
/-- The modem of lane 47 as `f` makes it, with the listed fields. -/
def T.smk (ws : List (Fld × Nat × Nat)) (f : SmokeS → SmokeS) : State := (T.lit ws).setSmk 47 (f ((T.lit ws).smk 47))

/-- The symbols of a header that names one byte of a USER message at rate 4/5, SF 6 and BW 0, with `d` added to its check value. -/
def T.header (d : Nat) : List Nat := chirpsOf 6 3 132 (nibbles ([1, 6, 5, 0] ++ bytesBe 2 (crc16 [1, 6, 5, 0] + d)))

theorem met_SmokeModem :
    (T.lit [(F.SMOKE_CTL_TX_EN, 47, 1), (F.LANE_TX_SMOKE_RIPPLE_EN, 47, 1)]).on F.SMOKE_CTL_TX_EN 47 = true ∧ ((T.lit []).smk 47).sending = none ∧
    (T.lit [(F.SMOKE_CTL_BEACON_EN, 47, 1)]).on F.SMOKE_CTL_BEACON_EN 47 = true ∧ (T.lit []).lanesOff = false ∧ ((T.lit [(F.SMOKE_CTL_BEACON_EN, 47, 0)]).smokeNext 47) = none ∧
    ((T.lit [(F.SMOKE_CTL_BEACON_EN, 47, 1)]).smokeNext 47).isSome = true ∧ (((T.lit []).setSmk 47 { (T.lit []).smk 47 with going := some 1 }).smk 47).going = some 1 ∧
    (T.lit []).Accepts .boot .SMOKE_TX_POST 47 0 ∧ F.SMOKE_TX_POST_MSG.of (5 * 2 ^ F.SMOKE_TX_POST_MSG.lo) = 5 ∧ (T.lit []).Accepts .boot .SMOKE_RX_POP 47 1 ∧
    (T.lit []).Accepts .boot .SMOKE_CFG 47 0 ∧ (T.lit []).rd F.SMOKE_STATUS_RX_STATE 47 = 0 ∧ (T.lit []).Accepts .boot .SMOKE_CTL 47 0 ∧
    (T.lit [(F.SMOKE_STATUS_RX_STATE, 47, 1)]).rd F.SMOKE_STATUS_RX_STATE 47 = 1 ∧ (T.lit [(F.SMOKE_STATUS_RX_STATE, 47, 4)]).rd F.SMOKE_STATUS_RX_STATE 47 = 4 ∧
    (T.smk [] fun x => { x with rx := { x.rx with last := List.replicate 5 (0, 1000, 1) } }).detects 47 ≠ none ∧ (T.lit []).detects 47 = none ∧
    ((31 ≤ 31 * 64 / 64 ∧ 31 * 64 / 64 ≤ 33) ∧ ¬ (31 ≤ 34 % 64 ∧ 34 % 64 ≤ 33)) := by unfold State.Accepts; decide +kernel
theorem met_SmokeModem_frame :
    (∀ s ∈ [T.smk [(F.SMOKE_CFG_SF, 47, 6), (F.SMOKE_CFG_BW, 47, 0), (F.SMOKE_STATUS_RX_STATE, 47, 2), (F.SMOKE_CFG_SYNC, 47, 0)] fun x => { x with rx := { x.rx with held := List.replicate 272 (0, 0) } }],
      ∃ y ∈ (s.smk 47).rx.aligned 6 (s.smokeHertz 47) 0 0 0 (s.decF1 47), binNear 6 y.1 0 = true ∧ binNear 6 y.2.1 0 = true ∧ binNear 6 y.1 5 = false) ∧
    (∀ d ∈ [0, 1], ∀ s ∈ [T.smk [(F.SMOKE_CFG_SF, 47, 6), (F.SMOKE_CFG_BW, 47, 0), (F.SMOKE_STATUS_RX_STATE, 47, 3)] fun x => { x with rx := { x.rx with syms := T.header d } }],
      8 * ((12 + s.smokeSf 47 - 1) / s.smokeSf 47) ≤ (s.smk 47).rx.syms.length ∧ s.headerOf 47 ((s.smk 47).rx.syms.take 16) = (if d = 0 then some (1, 0, 5, 0) else none) ∧
      s.detects 47 = none) ∧
    (∀ d ∈ [0, 1], ∀ l ∈ [chirpsOf 6 0 132 (nibbles (whiten 0 ([7] ++ bytesBe 2 (crc16 [7] + d))))], 5 * ((2 * 3 + 6 - 1) / 6) ≤ l.length ∧
      ∀ m ∈ [whiten 0 ((chirpBytes 6 0 (l.take 5)).take 3)], numBe (m.drop 1) = crc16 (m.take 1) + d) ∧
    (∀ s ∈ [({ T.smk [(F.SMOKE_CTL_BEACON_EN, 47, 1), (F.SMOKE_CTL_BEACON_INT, 47, 0)] fun x => { x with beaconAt := some 0 } with time := 2500000000 } : State)], s.beaconTime 47 = true) := by
  decide +kernel
theorem met_LinkTraining :
    (T.up 0 []).inReset = false ∧ (T.up 0 []).regionUntested 134 = false ∧ (T.up 0 []).regionExcluded 134 = false ∧ (T.up 0 []).rd F.TINDER_STATUS_STATE 0 = 0 ∧
    (T.up 0 [(F.TINDER_STATUS_STATE, 0, 1)]).rd F.TINDER_STATUS_STATE 0 = 1 ∧ (T.up 0 [(F.TINDER_STATUS_STATE, 0, 2)]).rd F.TINDER_STATUS_STATE 0 = 2 ∧
    (T.up 0 [(F.TINDER_STATUS_STATE, 0, 4)]).rd F.TINDER_STATUS_STATE 0 = 4 ∧ (0x31#8).toNat = 0x31 ∧ (7#8).toNat < 8 ∧ (15#8).toNat < 16 ∧
    (T.up 0 [(F.TINDER_CTL_FALLBACK_EN, 0, 1)]).on F.TINDER_CTL_FALLBACK_EN 0 = true ∧ (T.up 0 [(F.TINDER_CTL_EQ_ADAPT, 0, 1)]).on F.TINDER_CTL_EQ_ADAPT 0 = true ∧
    (T.up 0 []).Accepts .boot .TINDER_CTL 0 1 ∧ (∀ e ∈ ([] : List (Nat × List Nat × Nat)), e.2.2 < 5) ∧ 8 < (9#16).toNat ∧ lenFits 1 4 = true ∧
    ({ T.up 0 [] with ackDue := true } : State).ackDue = true ∧ (∀ k ≤ 8, ((T.up 0 []).hostWait.filter fun q => q.session = k).length ≤ 32) := by
  unfold State.Accepts; decide
theorem met_LinkTraining_config :
    (∀ s ∈ [({ T.up 0 [(F.TINDER_STATUS_STATE, 0, 2)] with
        lanesAligned := [(0, 0), (1, 1), (2, 2), (3, 3)], peerMask := 15, peerSeen := [(0, 8), (1, 8), (2, 8), (3, 8)], ts2Seen := [(0, 8), (1, 8), (2, 8), (3, 8)]
        linkFill := .train [0, 1, 2, 3] true 15 1, time := 512 } : State)], s.configDone = true ∧ s.chosenLanes = [0, 1, 2, 3] ∧ (∀ k ∈ s.chosenLanes, 8 ≤ Amap.get 0 s.peerSeen k)) ∧
    (T.up 0 []).configDone = false ∧ ({ T.up 0 [(F.TINDER_STATUS_STATE, 0, 1)] with time := 25000000 } : State).linkAt + 25000000 ≤ 25000000 ∧
    (∀ s ∈ [({ T.up 0 [(F.TINDER_STATUS_STATE, 0, 4)] with misplacedAlign := 1, alignAt := 0 } : State)], s.misplacedAlign ≠ 0 ∧ s.alignAt ≤ s.time) ∧
    (∀ e ∈ [((0 : Nat), ([] : List Nat), 5)], 5 ≤ e.2.2) ∧ (7#8).getLsbD 2 = true ∧ (∀ x ∈ List.replicate 10 (0xB5#8), x.toNat = 0xB5) ∧
    (∀ s ∈ [({ T.up 0 [(F.TINDER_STATUS_STATE, 0, 1), (F.TINDER_CTL_FALLBACK_EN, 0, 1)] with lanesAligned := [(2, 0)] } : State)], s.lanesAligned ≠ [] ∧ s.on F.TINDER_CTL_FALLBACK_EN 0 = true) := by decide
theorem met_HostSessions :
    (T.up 0 [(F.TINDER_STATUS_STATE, 0, 4)]).linkActive = true ∧ (T.up 0 []).linkActive = false ∧ (0#12).toNat = (T.up 0 []).lseqRx ∧
    (∀ d ∈ (T.up 0 []).hostWait, d.session ≠ 8) ∧ ((T.up 0 []).sess 8).isOpen = false ∧ (4 ≤ 256 ∧ 256 % 4 = 0) ∧ (T.up 0 []).on F.TINDER_AUTH_LOCKOUT 0 = false ∧
    (T.up 0 [(F.TINDER_AUTH_LOCKOUT, 0, 1)]).on F.TINDER_AUTH_LOCKOUT 0 = true ∧ (((T.up 0 []).setSess 8 { Sess.init with isOpen := true, nonce := some (5, 3) }).sess 8).isOpen = true ∧
    (T.up 0 []).inReset = false ∧ (T.up 0 []).Accepts .boot .SYS_AUTH_REQ 0 3 ∧
    ({ T.up 0 [] with hostWait := [mkReq 8 1 .read 0 [] 1] } : State).hostWait.find? (fun d => d.session = 8) = some (mkReq 8 1 .read 0 [] 1) ∧
    ({ T.up 0 [] with hostWait := [mkReq 8 1 .read 0 [] 1] } : State).waitCounts (mkReq 8 1 .read 0 [] 1) = true := by unfold State.Accepts; decide
theorem met_HostSessions_more :
    (∀ s ∈ [({ T.up 0 [(F.TINDER_STATUS_STATE, 0, 4)] with hostWait := [{ mkReq 8 1 .read 0 [] 1 with waited := 250000 }] } : State)], ∀ q ∈ s.hostWait, s.waitCounts q = true ∧ 250000 ≤ q.waited ∧ q.orphan = none) ∧
    (∀ k ∈ [(.posted : ReqKind), .write, .spiRead, .spiWrite], (mkReq 0 1 k 0 [] 1).kind = k) ∧ ({ mkReq 8 1 .read 0 [] 1 with orphan := some Sess.init } : HostReq).orphan ≠ none ∧
    (T.up 0 []).downAt + 25000000 ≤ ({ T.up 0 [] with time := 25000000 } : State).time ∧ (T.up 0 []).lockAt + 2500000000 ≤ ({ T.up 0 [] with time := 2500000000 } : State).time ∧
    (((T.up 0 []).setSess 8 { Sess.init with nonce := some (5, 3) }).sess 8).nonce.map Prod.snd = some 3 ∧
    (({ T.up 0 [] with accessKeys := [(3, 9)] } : State).accessKeys.find? fun e => e.1 = 3) = some (3, 9) := by decide

/-- The listed register fields, with three regions beside the processor passed. -/
def T.ups (ws : List (Fld × Nat × Nat)) : State := T.up 135 ([(F.KILN_REG_STATE, 136, 1), (F.KILN_REG_STATE, 137, 1), (F.KILN_REG_STATE, 133, 1), (F.KILN_STATUS_STARTUP_DONE, 0, 1)] ++ ws)

/-- Converter 0 as `x`. -/
def T.conv (x : Conv) : State := (T.ups [(F.MCV_STATUS_REF_ON, 0, 1), (F.MCV_STATUS_CAL, 0, 0)]).setConv 0 x

theorem met_ProtectionAndFaults :
    (T.ups []).inReset = false ∧ (T.ups []).on F.MEMP_CTL_SCRUB_EN 0 = true ∧ (T.ups [(F.MEMP_CTL_SCRUB_EN, 0, 0)]).on F.MEMP_CTL_SCRUB_EN 0 = false ∧ (T.ups []).Canonical ∧
    (T.ups []).isWithheld 8 0 = false ∧ (T.ups []).invalidWord 8 0 = false ∧ (T.ups []).invalidWord 0 5 = true ∧
    decodeWord 8 1 0 = .corrected ∧ decodeWord 8 3 0 = .uncorrectable ∧ decodeWord 8 0 0 = .clean ∧
    (∀ s ∈ [({ T.ups [] with trackers := [⟨8, 0, 1, 0⟩] } : State)], ∃ t ∈ s.trackers, t.word = 0) ∧
    (1 ≤ ones 7 + ones 1 ∧ ones 7 + ones 1 ≤ 4 ∧ 4 < ones 0x1F + ones 0) ∧ 2 ≤ ([1, 2, 3].filter fun c => (T.ups []).tvDec 206 c = .clean && (T.ups []).baseOf 10 206 c = 0).length ∧ (T.ups []).tvVoted 206 = some ((T.ups []).tvValue 206) ∧
    ({ T.ups [] with marks := [⟨10, 269, 1, 3, 0, 0⟩, ⟨10, 269, 2, 3, 0, 0⟩] } : State).tvVoted 269 = none ∧ 269 < 270 ∧ Amap.get 0 (T.ups []).sparesUsed (256 * 6 + (spareRows 6 0).1) < (spareRows 6 0).2 ∧
    (T.ups []).Accepts .boot .MEMP_INJECT_CTL 0 (2 ^ F.MEMP_INJECT_CTL_ARM.lo) ∧ F.MEMP_INJECT_CTL_ARM.of (2 ^ F.MEMP_INJECT_CTL_ARM.lo) = 1 ∧
    (T.ups [(F.SYS_ACCESS_MODE_MODE, 0, 1)]).service = true ∧ F.MEMP_INJECT_CTL_REGION.of (8 * 2 ^ F.MEMP_INJECT_CTL_REGION.lo) = 8 := by
  unfold State.Accepts State.Canonical; decide +kernel
theorem met_ProtectionAndFaults_faults :
    (T.ups []).Accepts .boot .MEMP_LOG_POP 0 0 ∧ 46 ≤ 46 ∧ (T.ups []).busy 45 = false ∧ ((T.ups []).latch 45 0 0).busy 45 = true ∧
    blockInstance 13 0 = none ∧ blockInstance 11 7 = some 7 ∧ (11, 7) ∈ ({ T.ups [] with blockResets := [(11, 7)] } : State).blockResets ∧
    (∀ k ∈ resetRegions 11 7, (T.ups []).sliceRegion ≠ some k) ∧ ((T.ups []).reactVote 45).2 = [] ∧ ((T.st [(F.FAULT_REACT_IRQ, 45, 0)]).reactVote 45).1.reactWord 45 = 0 ∧ (∀ b < 8, ∀ k ∈ ((T.ups []).bank b).cmds, addrInBlock 11 7 k.addr = false) ∧
    (T.ups []).Accepts .boot .CHAR_STATUS_HI 0 3 ∧ (T.ups []).Accepts .boot .CHAR_STATUS_LO 0 3 ∧ (T.ups []).Accepts .boot .FAULT_REACT 45 1 ∧ (T.ups []).Accepts .boot .FAULT_REACT 46 1 ∧
    (T.ups []).Accepts .boot .FAULT_REACT 13 4 ∧ F.FAULT_REACT_BLOCK_RESET.of 4 = 1 ∧ hasBlockReset 13 = false ∧ (T.ups []).on F.MEMP_STATUS_ARMED 0 = false ∧
    (T.ups []).Accepts .boot .FAULT_ALIVE 0 0x100 ∧ (T.ups []).Accepts .boot .FAULT_ALIVE 0 0x200 ∧ (T.ups [(F.FAULT_ALIVE_RUNNING, 0, 1)]).on F.FAULT_ALIVE_RUNNING 0 = true ∧
    (T.ups [(F.FAULT_ALIVE_RUNNING, 0, 0)]).on F.FAULT_ALIVE_RUNNING 0 = false ∧ ({ T.ups [] with oscLost := true } : State).oscLost = true ∧
    ¬ ((T.ups []).on F.KILN_STATUS_FATAL 0 = true ∨ (T.ups []).cutTripped = true ∨ (T.ups []).oscLost = true) ∧ (T.ups []).Accepts .boot .FAULT_SW_SET 0 1 := by
  unfold State.Accepts; decide +kernel
theorem met_KilnSelfTest :
    State.reset.Canonical ∧ ({ State.reset with kilnHeldFail := [(7, 1), (3, 2)] } : State).kilnLowest = some (3, 2) ∧ State.reset.inReset = false ∧
    State.reset.rd F.KILN_REG_STATE 138 = 0 ∧ (T.ups []).rd F.KILN_REG_STATE 135 ≠ 0 ∧ Amap.get 0 State.reset.sparesUsed (256 * kilnMemory 0 + (spareRows (kilnMemory 0) 0).1) < (spareRows (kilnMemory 0) 0).2 ∧
    kilnHasMem 0 = true ∧ kilnHasMem 119 = true ∧ kilnHasMem 48 = false ∧ kilnLogic 48 = true ∧ kilnLogic 121 = false ∧
    ¬ Amap.get 0 ({ State.reset with sparesUsed := [(256 * kilnMemory 119 + (spareRows (kilnMemory 119) 0).1, 99)] } : State).sparesUsed (256 * kilnMemory 119 + (spareRows (kilnMemory 119) 0).1) < (spareRows (kilnMemory 119) 0).2 ∧
    (∀ s ∈ [T.ups [(F.KILN_CTL_RUN_EN, 0, 1), (F.PWR_BLOCK_CUR, 23, 0)]],
     s.on F.KILN_CTL_RUN_EN 0 = true ∧ s.on F.KILN_STATUS_BUSY 0 = false ∧ s.rd F.KILN_REG_STATE 135 = 1 ∧ (∀ e ∈ s.kilnWait, e.1 ≠ 135) ∧ s.on F.KILN_STATUS_STARTUP_DONE 0 = true ∧
      s.blocksHeld = false ∧ (∀ b ∈ kilnBlocks 135, s.rd F.PWR_BLOCK_CUR b < 2) ∧ Amap.find s.trafficAt 135 = none) ∧
    (∀ s ∈ [({ T.ups [] with trafficAt := [(135, 0)] } : State)], Amap.find s.trafficAt 135 = some 0 ∧ ¬ 0 + max 1 (s.rd F.KILN_CFG_GATE 0) * 250 ≤ s.time) ∧
    State.reset.on F.KILN_STATUS_STARTUP_DONE 0 = false ∧ (T.ups [(F.KILN_REG_ABORTS, 135, 7)]).rd F.KILN_REG_ABORTS 135 = 7 ∧
    (T.ups [(F.KILN_REG_ABORTS, 135, 6)]).rd F.KILN_REG_ABORTS 135 < 7 ∧ (T.ups []).sliceRegion = none ∧ ({ T.ups [] with sliceRegion := some 138 } : State).sliceRegion = some 138 ∧
    138 < 139 ∧ (T.ups []).Accepts .boot .KILN_CTL 0 3 ∧ F.KILN_CTL_STOP.of (2 ^ F.KILN_CTL_STOP.lo) = 1 ∧ (T.ups []).Accepts .boot .KILN_CTL 0 (2 ^ F.KILN_CTL_STOP.lo) := by
  unfold State.Accepts State.Canonical; decide
theorem met_KilnSelfTest_slices :
    (∀ s ∈ [({ T.ups [(F.KILN_LAST_LO_EXPECTED, 0, 256)] with sliceRegion := some 135 } : State)], s.sliceRegion = some 135 ∧ (255 : Nat) < s.rd F.KILN_LAST_LO_EXPECTED 0 ∧
      (¬ s.rd F.KILN_LAST_LO_EXPECTED 0 ≤ 255)) ∧ (∀ q : Bool, ({ T.ups [] with sliceMem := q } : State).sliceMem = q) ∧
    (∀ s ∈ [({ T.ups [] with kilnWait := [(135, 0)], time := 25000 } : State)], ∀ e ∈ s.kilnWait, e.1 = 135 → e.2 + max 1 (s.rd F.KILN_CFG_RETRY 0) * 25000 ≤ s.time + 10 ^ 12) ∧
    (T.ups [(F.KILN_REG_UNTESTABLE, 135, 1)]).on F.KILN_REG_UNTESTABLE 135 = true := by decide
theorem met_Converters :
    (T.ups []).Canonical ∧ (T.ups []).Accepts .boot .MCV_CTL 0 1 ∧ (T.ups []).convBusy 0 = false ∧ F.MCV_CTL_TRIG.of (3 * 2 ^ F.MCV_CTL_TRIG.lo) = 3 ∧
    (T.ups []).Accepts .boot .MCV_CTL 7 (3 * 2 ^ F.MCV_CTL_TRIG.lo + 1) ∧ (T.ups []).Accepts .boot .MCV_CTL 0 2 ∧ F.MCV_CTL_STOP.of 1 = 0 ∧ F.MCV_CTL_GO.of 2 = 0 ∧
    (T.ups [(F.MCV_CAP_STATUS_BUSY, 0, 1)]).on F.MCV_CAP_STATUS_BUSY 0 = true ∧ (T.ups []).on F.MCV_CAP_STATUS_BUSY 0 = false ∧
    ((T.conv { Conv.init with running := some 15 }).conv 0).running = some 15 ∧ ((T.conv { Conv.init with running := some 0, simWith := [0] }).conv 0).simWith ≠ [] ∧
    ((T.conv Conv.init).conv 0).running = none ∧ ((T.conv Conv.init).conv 0).urgNow = none ∧ ((T.conv Conv.init).conv 0).missed = [] ∧ ((T.conv Conv.init).conv 0).held = false ∧
    ((T.conv { Conv.init with held := true }).conv 0).held = true ∧ ((T.conv { Conv.init with nextAt := some 5 }).conv 0).nextAt = some 5 ∧
    (T.ups []).Accepts .boot .MCV_URGENT 0 23 ∧ F.MCV_URGENT_INPUT.of 23 / 24 = 0 ∧ F.MCV_URGENT_INPUT.of 24 / 24 ≠ 0 ∧ (T.ups []).Accepts .boot .MCV_URGENT 0 24 ∧
    ((T.conv { Conv.init with urgNow := some (5, 4), urgWait := [(6, 4)] }).conv 0).urgNow = some (5, 4) := by
  unfold State.Accepts State.Canonical; decide
theorem met_Converters_done :
    (∀ s ∈ [T.conv { Conv.init with running := some 0 }], s.blocksHeld = false ∧ ¬ (s.lanesOff = true ∧ 0 < 6) ∧ s.regionUntested 136 = false ∧ s.regionExcluded 136 = false ∧ s.blockAsleep 19 = false ∧ s.on F.MCV_STATUS_CAL 0 = false ∧
      s.on F.MCV_STATUS_REF_ON 0 = true ∧ (s.conv 0).simWith = [] ∧ (s.cap 0).recording = false ∧ s.rd F.MCV_CTL_LEN 0 ≤ 0) ∧
    0 < (T.ups [(F.MCV_CTL_LEN, 0, 15)]).rd F.MCV_CTL_LEN 0 ∧ ((T.conv { Conv.init with running := some 0, stopping := true }).conv 0).stopping = true ∧
    (((T.conv Conv.init).setCap 0 { CapS.init with recording := true }).cap 0).recording = true ∧ (T.ups []).rd F.MCV_CAP_STATUS_COUNT 0 % 2 = 0 % 2 ∧
    (T.ups []).rd F.MCV_CAP_STATUS_COUNT 0 % 2 ≠ 1 % 2 ∧ ((T.conv { Conv.init with missed := [7] }).conv 0).missed = [7] ∧ (T.ups []).readCheck .boot .MCV_RESULT 127 = none ∧
    (T.ups []).readCheck .boot .MCV_URG_RESULT 7 = none ∧ (T.ups []).Accepts .boot .MCV_CAP_CTL 0 1 ∧ (T.ups []).Accepts .boot .MCV_CAP_CTL 3 2 ∧ F.MCV_CAP_CTL_START.of 2 = 0 ∧
    F.MCV_CAP_CTL_INPUT.of (23 * 2 ^ F.MCV_CAP_CTL_INPUT.lo) < 24 ∧ 24 ≤ F.MCV_CAP_CTL_INPUT.of (24 * 2 ^ F.MCV_CAP_CTL_INPUT.lo) ∧
    (∀ e ∈ [0, 1], (T.ups []).on F.MCV_CTL_LP e = false ∧ (T.ups []).rd F.MCV_CTL_TRIG e ≠ 2) ∧ (T.ups [(F.MCV_CTL_LP, 1, 1)]).on F.MCV_CTL_LP 1 = true ∧
    (T.ups []).readCheck .boot .MCV_CAP_DATA 3 = none ∧ (T.ups [(F.MCV_STATUS_REF_ON, 2, 0)]).on F.MCV_STATUS_REF_ON 2 = false ∧ (T.ups []).on F.MCV_CTL_LP 2 = false ∧
    (T.ups []).Accepts .boot .MCV_SIM_TRIG 0 0xFF ∧ (T.up 136 []).owner (.conv 7) ≠ 1 ∧ (T.ups [(F.MCV_STATUS_CAL, 7, 1)]).on F.MCV_STATUS_CAL 7 = true := by
  unfold State.Accepts; decide
theorem met_Converters_hung :
    (∀ s ∈ [T.conv { Conv.init with running := some 2, simWith := [0, 1] }], (s.conv 0).running = some 2 ∧ (s.conv 0).simWith ≠ []) ∧
    (∀ s ∈ [({ (T.conv { Conv.init with nextAt := some 5 }) with time := 5 } : State)], (s.conv 0).nextAt = some 5 ∧ 5 ≤ s.time) ∧
    (∀ s ∈ [(T.conv { Conv.init with running := some 0 }).setCap 0 { CapS.init with waitFor := [1] }], (s.cap 0).recording = false ∧ 0 ∉ (s.cap 0).waitFor) ∧
    (∀ s ∈ [(T.conv { Conv.init with urgNow := some (5, 4) }).setCap 0 { CapS.init with recording := true }], (s.conv 0).urgNow = some (5, 4) ∧ (s.conv 0).missed = [] ∧ (s.cap 0).recording = true) := by decide
theorem met_ReferencesAndBlockPower :
    (T.ups []).Canonical ∧ (T.ups []).Accepts .boot .PWR_CLK_CTL 0 0 ∧ (T.ups [(F.PWR_CLK_STATUS_REF_A_OK, 0, 1)]).on F.PWR_CLK_STATUS_REF_A_OK 0 = true ∧
    (T.ups [(F.PWR_CLK_STATUS_REF_A_OK, 0, 0)]).on F.PWR_CLK_STATUS_REF_A_OK 0 = false ∧ (T.ups [(F.PWR_CLK_STATUS_IN_USE, 0, 1)]).rd F.PWR_CLK_STATUS_IN_USE 0 = 1 ∧
    (T.ups [(F.PWR_CLK_STATUS_REF_B_OK, 0, 0)]).on F.PWR_CLK_STATUS_REF_B_OK 0 = false ∧ (T.ups [(F.PWR_CLK_STATUS_HOLDOVER, 0, 1)]).on F.PWR_CLK_STATUS_HOLDOVER 0 = true ∧
    (∀ q : Bool, (T.ups [(F.PWR_CLK_CTL_AUTO, 0, if q then 1 else 0)]).on F.PWR_CLK_CTL_AUTO 0 = q) ∧ (T.ups []).time < 0 + 250000 ∧
    0 + 250000 ≤ ({ T.ups [] with time := 250000 } : State).time ∧
    (∀ s ∈ [T.ups [(F.PWR_CFG_PM_EN, 0, 1), (F.PWR_BLOCK_LIMIT, 25, 3), (F.PWR_BLOCK_HW_LIMIT, 25, 3)]],
     s.blocksHeld = false ∧ s.on F.PWR_CFG_PM_EN 0 = true ∧ s.rd F.PWR_BLOCK_CUR 25 = 0 ∧ Amap.find s.moves 25 = none ∧ s.blockHeld 25 false = false ∧
      3 ≤ min (s.blockFloor 25) (min (s.rd F.PWR_BLOCK_LIMIT 25) (s.rd F.PWR_BLOCK_HW_LIMIT 25)) ∧ s.blockEmpty 25 = true ∧ s.blockNext 25 = none) ∧
    (T.ups [(F.PWR_CFG_PM_EN, 0, 0)]).on F.PWR_CFG_PM_EN 0 = false ∧ (T.ups [(F.PWR_BLOCK_CUR, 19, 2)]).rd F.PWR_BLOCK_CUR 19 ≠ 0 ∧ (T.ups []).blockHeld 25 true = true ∧
    (T.conv { Conv.init with nextAt := some 5 }).blockNext 19 ≠ none ∧
    Amap.find ({ T.ups [] with moves := [(12, ⟨2, 0, 1, 2, 0⟩)] } : State).moves 12 = some ⟨2, 0, 1, 2, 0⟩ ∧
    Amap.find ({ T.ups [] with moves := [(12, ⟨2, 0, 2, 2, 0⟩)] } : State).moves 12 = some ⟨2, 0, 2, 2, 0⟩ ∧
    Amap.find ({ T.ups [] with moves := [(12, ⟨0, 3, 0, 3, 0⟩)] } : State).moves 12 = some ⟨0, 3, 0, 3, 0⟩ ∧
    0 + 2 * (wakeTime 2 + readyTime 12 2) ≤ ({ T.ups [] with time := 10 ^ 9 } : State).time ∧ (T.ups []).time < 0 + 2 * (wakeTime 2 + readyTime 12 2) ∧
    ({ T.ups [] with inReset := true } : State).blocksHeld = true ∧ (∀ g ∈ blockRegions 25, (T.ups []).sliceRegion ≠ some g) := by
  unfold State.Accepts State.Canonical; decide
theorem met_TemperatureAndDamper :
    (T.ups []).Canonical ∧ (T.ups []).blocksHeld = false ∧ (T.ups []).regionUntested 136 = false ∧ (T.up 135 []).regionUntested 136 = true ∧
    (T.ups [(F.MCV_STATUS_REF_ON, 6, 1)]).convReady 7 = true ∧ (T.ups [(F.MCV_STATUS_CAL, 7, 1)]).convReady 7 = false ∧ (T.ups []).regionExcluded 136 = false ∧
    (T.ups [(F.THERM_SENSOR_BROKEN, 0, 1)]).on F.THERM_SENSOR_BROKEN 0 = true ∧ Amap.get 0 ({ T.ups [] with cleanSweeps := [(0, 15)] } : State).cleanSweeps 0 = 15 ∧
    (∀ k ≤ 5, (T.ups [(F.THERM_STATUS_STATE, 0, k)]).rd F.THERM_STATUS_STATE 0 = k) ∧ (T.ups [(F.THERM_STATUS_H, 0, 2543)]).rd F.THERM_STATUS_H 0 < 2544 ∧
    (T.ups []).rd F.THERM_STATUS_H 0 + 48 < (max 80 (min 100 ((T.ups []).rd F.THERM_CFG_WARN 0)) + 64) * 16 ∧ ({ T.ups [] with stopSweeps := 1 } : State).stopSweeps + 1 = 2 ∧
    ({ T.ups [] with warnSweeps := 1 } : State).warnSweeps + 1 = 2 ∧ ({ T.ups [] with time := 25000000000, coolAt := some 0 } : State).coolAt = some 0 ∧
    ({ T.ups [] with coldAt := some 0 } : State).coldAt = some 0 ∧ ({ T.ups [] with stopDue := some 2 } : State).stopDue = some 2 ∧ (T.ups []).stopDue = none ∧
    0 + max 1 (min 120 ((T.ups [(F.THERM_CFG_GRACE, 0, 0)]).rd F.THERM_CFG_GRACE 0)) * 1250000000 ≤ ({ T.ups [] with time := 1250000000 } : State).time ∧
    (T.ups []).Accepts .boot .THERM_CTL 0 1 ∧ (T.ups []).Accepts .boot .THERM_CTL 0 2 ∧ (T.ups []).on F.THERM_STATUS_RESTART_OK 0 = false ∧
    (T.ups [(F.THERM_STATUS_RESTART_OK, 0, 1)]).on F.THERM_STATUS_RESTART_OK 0 = true ∧ (T.ups []).cutTripped = false ∧ ({ T.ups [] with cutTripped := true } : State).cutTripped = true := by
  unfold State.Accepts State.Canonical; decide
theorem met_CountersAndSnapshots :
    (T.ups []).Canonical ∧ (T.ups []).Accepts .boot .PERF_SEL 255 0xFFFFFFFF ∧ (T.ups [(F.KILN_REG_STATE, 135, 2)]).rd F.KILN_REG_STATE 135 = 2 ∧
    (T.ups []).rd F.KILN_REG_STATE 135 ≠ 2 ∧ (T.ups []).Accepts .boot .PERF_CNT_LO 0 (2 ^ 63) ∧
    (∀ s ∈ [T.ups [(F.PERF_CTL_GLOBAL_EN, 0, 1), (F.PERF_SEL_EN, 255, 1), (F.PERF_SEL_EVENT, 255, 1), (F.PERF_CNT_HI_VALUE, 255, 2 ^ 32 - 1), (F.PERF_CNT_LO_VALUE, 255, 2 ^ 32 - 1)]],
     s.on F.PERF_CTL_GLOBAL_EN 0 = true ∧ s.on F.PERF_SEL_EN 255 = true ∧ s.rd F.PERF_SEL_EVENT 255 ≠ 0 ∧
      2 ^ 64 ≤ s.rd F.PERF_CNT_HI_VALUE 255 * 2 ^ 32 + s.rd F.PERF_CNT_LO_VALUE 255 + 1 ∧ s.owner (.counter 255) < 8 ∧
      8 ≤ ((s.st .owner (Obj.counter 255).idx 8)).owner (.counter 255)) ∧
    ¬ (T.ups []).on F.PERF_SEL_EN 255 = true ∧ (T.ups []).snap = none ∧ ({ T.ups [] with snap := some ⟨5, true, true, [], []⟩ } : State).snap = some ⟨5, true, true, [], []⟩ ∧
    (T.ups [(F.PERF_MIRROR_OCCUPIED, 0, 31)]).rd F.PERF_MIRROR_OCCUPIED 0 = 31 ∧ (T.ups [(F.PERF_RING_OVERWRITE, 0, 0)]).on F.PERF_RING_OVERWRITE 0 = false ∧
    (T.ups []).Accepts .boot .PERF_DUMP 0 1 ∧ (T.ups []).Accepts .boot .PERF_DUMP 0 2 ∧ (T.ups [(F.PERF_DUMP_CFG_PERIODIC, 0, 1)]).on F.PERF_DUMP_CFG_PERIODIC 0 = true ∧
    (T.ups []).on F.PERF_DUMP_CFG_PERIODIC 0 = false ∧ (T.ups []).Accepts .boot .PERF_RING 0 0 ∧ F.PERF_RING_TAIL.of 1 = 1 ∧
    (F.PERF_RING_TAIL.of 1 + 31 - (T.ups []).rd F.PERF_RING_TAIL 0) % 31 ≤ (T.ups []).rd F.PERF_MIRROR_OCCUPIED 0 := by
  unfold State.Accepts State.Canonical; decide
theorem met_StartupAndImages :
    (T.ups []).Canonical ∧ (T.ups []).railsLow = [] ∧ (T.ups []).testEn = false ∧ (T.ups []).cutTripped = false ∧ ({ T.ups [] with cutTripped := true } : State).cutTripped = true ∧
    (T.ups []).Accepts .boot .SYS_RESET_CTL 0 1 ∧ (T.ups []).Accepts .boot .SYS_RESET_CTL 0 (13 * 2 ^ 24 + 0 * 2 ^ 16 + 2) ∧ hasBlockReset 13 = false ∧
    (T.ups []).Accepts .boot .SYS_RESET_CTL 0 (11 * 2 ^ 24 + 7 * 2 ^ 16 + 2) ∧ hasBlockReset 11 = true ∧
    (∀ s ∈ [({ T.ups [] with inReset := true, railsLow := [15] } : State)], s.inReset = true ∧ 15 ∈ s.railsLow ∧ s.railsLow.filter (fun r => r ≠ 15) = [] ∧ s.testEn = false ∧ s.cutArmed = false) ∧
    15 ∉ (T.ups []).railsLow ∧ (T.ups []).rd F.SYS_BOOT_STATUS_STAGE 0 = 0 ∧ ({ T.ups [] with bootStrap := true } : State).bootStrap = true ∧ (T.ups []).bootStrap = false ∧
    (∀ s ∈ [T.up 138 [(F.KILN_REG_STATE, 131, 1), (F.KILN_REG_STATE, 132, 1), (F.SYS_BOOT_STATUS_STAGE, 0, 2)]],
     s.inReset = false ∧ s.rd F.SYS_BOOT_STATUS_STAGE 0 = 2 ∧ (∀ r ∈ [131, 132, 138], s.rd F.KILN_REG_STATE r ≠ 0) ∧ s.withheld = []) ∧
    (∀ s ∈ [({ (T.ups []).st .peat ((1 * 0x0E00000 + 12) / 4) 9 with withheld := [⟨0, 8, 64⟩] } : State)],
     ∃ w ∈ s.withheld, w.region = 0 ∧ w.first < s.ld .peat ((1 * 0x0E00000 + 12) / 4)) := by
  unfold State.Accepts State.Canonical; decide +kernel
theorem met_StartupAndImages_peat :
    (T.ups []).Accepts .boot .PEAT_DATA 0 5 ∧ (peatPlace ((T.ups []).rd F.PEAT_ADDR_ADDR 0 * 4) = .image 0 ∧ (T.ups []).tvOk 270 = true ∧ (T.ups []).ptrBank = 0) ∧
    peatPlace ((T.ups [(F.PEAT_ADDR_ADDR, 0, 0x0E00000 / 4)]).rd F.PEAT_ADDR_ADDR 0 * 4) = .image 1 ∧ (T.ups []).peatWord = none ∧ (6 + 1) % 2 ^ 23 / 8 = 6 / 8 ∧ (7 + 1) % 2 ^ 23 / 8 ≠ 7 / 8 ∧
    ({ T.ups [] with peatWord := some (0, [(7, 1)]) } : State).peatWord = some (0, [(7, 1)]) ∧ (T.ups []).readCheck .boot .PEAT_DATA 0 = none ∧
    (T.ups []).Accepts .boot .PEAT_CMD 0 (1 * 16 + 1) ∧ (T.ups []).Accepts .boot .PEAT_CMD 0 (1 * 16 + 2) ∧ (T.ups []).verifyBank = none ∧ 1 ∉ (T.ups []).bankVerified ∧
    1 ∈ ({ T.ups [] with bankVerified := [1] } : State).bankVerified ∧ ({ T.ups [] with verifyBank := some 1 } : State).verifyBank = some 1 ∧ (T.ups []).on F.MEMP_STATUS_ARMED 0 = false ∧
    ((Agent.host 0 : Agent) = .host 0 ∧ 3 ≤ ((T.ups []).setSess 0 { Sess.init with isOpen := true, priv := 3 }).priv (.host 0)) ∧ ¬ 3 ≤ (T.ups []).priv (.host 0) ∧
    (T.ups [(F.SYS_BOOT_STATUS_RECOVERY, 0, 1)]).on F.SYS_BOOT_STATUS_RECOVERY 0 = true ∧ (T.ups []).digestDone = false := by
  unfold State.Accepts; decide +kernel
theorem met_StartupAndImages_resets :
    (∀ q : Bool, ({ T.ups [] with cutArmed := q } : State).cutArmed = q) ∧ ({ T.ups [] with inReset := true, railsLow := [15], resetCause := some 6 } : State).resetCause = some 6 ∧
    (T.ups []).resetCause = none ∧ (T.ups []).blocksHeld = false ∧ (T.ups []).votePtr.resets = (T.ups []).resets ∧ (T.ups []).tvVoted 270 = some ((T.ups []).tvValue 270) ∧
    ((T.ups []).votePtr.bankCheck 0).2.1 = 2 ∧ (∀ s ∈ [({ T.ups [] with marks := [⟨9, 0, 0, 0x1F, 0, 0⟩] } : State)], (s.bankCheck 0).2.1 = 6) ∧
    decodeWord 9 (({ T.ups [] with marks := [⟨9, 0x1FF0040 / 32, 0, 0x1F, 0, 0⟩] } : State).markOf 9 (0x1FF0040 / 32) 0).1 0 = .uncorrectable ∧
    ((T.ups []).peatRange 0 0).2.1 = false ∧ (T.ups [(F.SYS_BOOT_STATUS_BANK0_RESULT, 0, 2)]).rd F.SYS_BOOT_STATUS_BANK0_RESULT 0 ≠ 0 ∧
    (∀ s ∈ [({ T.ups [] with marks := [⟨9, 0, 0, 0x1F, 0, 0⟩] } : State)], (s.peatTake 0 1).2.1 = true) ∧ ((T.ups []).peatTake 0 1).2.1 = false ∧
    (T.ups []).spanWords 9 (0x1FF0000 / 32) 2 = [] ∧ peatPlace (0x1FF0040) = .epoch := by decide +kernel
theorem met_PinsAndTest :
    (T.ups []).Canonical ∧ (T.ups []).Accepts .boot .IO_BAY_PINS 5 2 ∧ F.IO_BAY_PINS_RESET.of (2 ^ F.IO_BAY_PINS_RESET.lo) = 1 ∧ (((T.ups []).setRstPin 5 ⟨false, 0⟩).rstPin 5).low = false ∧
    (((T.ups []).setRstPin 5 ⟨true, 0⟩).rstPin 5).low = true ∧ (T.ups []).time < 0 + 25000 ∧ 0 + 25000 ≤ ({ T.ups [] with time := 25000 } : State).time ∧
    (T.ups [(F.IO_BAY_PINS_RESET, 5, 0)]).on F.IO_BAY_PINS_RESET 5 = false ∧ (∀ q : Bool, (T.ups [(F.IO_BAY_PINS_PRESENT, 5, if q then 1 else 0)]).on F.IO_BAY_PINS_PRESENT 5 = q) ∧
    (T.ups []).Accepts .boot .IO_BAY_I2C_CTL 5 0 ∧ F.IO_BAY_I2C_CTL_GO.of (2 ^ F.IO_BAY_I2C_CTL_GO.lo) = 1 ∧ (T.ups []).on F.IO_BAY_I2C_STATUS_BUSY 5 = false ∧
    (T.ups [(F.IO_BAY_I2C_STATUS_BUSY, 5, 1)]).on F.IO_BAY_I2C_STATUS_BUSY 5 = true ∧ Amap.find (T.ups []).i2c 5 = none ∧
    Amap.find ({ T.ups [] with i2c := [(5, ⟨0x50, 0, 32, true, false⟩)] } : State).i2c 5 = some ⟨0x50, 0, 32, true, false⟩ ∧ (T.ups []).testEn = false ∧
    ({ T.ups [] with testEn := true } : State).testEn = true ∧ ({ T.ups [] with cutArmed := true } : State).cutArmed = true ∧ (T.ups []).rd F.SYS_REVISION_MAJOR 0 = 0 := by
  unfold State.Accepts State.Canonical; decide
theorem met_PinsAndTest_release :
    (∀ s ∈ [({ T.ups [] with inReset := true, testEn := true } : State)], s.testEn = true ∧ s.inReset = true ∧ s.railsLow = [] ∧ s.cutTripped = false ∧ s.cutArmed = false ∧ s.resetCause = none) ∧
    ({ T.ups [] with testEn := true, resetCause := some 2 } : State).resetCause = some 2 ∧ (⟨0x50, 0, 32, true, true⟩ : I2c).len ≤ 32 ∧ (⟨0x50, 0, 32, true, true⟩ : I2c).abort = true := by decide
theorem met_InterruptEventsAndCommits :
    (levelRegs 475).isSome = true ∨ 475 = 475 ∧ (T.ups [(F.IRQ_SRC_LEVEL, 487, 1)]).on F.IRQ_SRC_LEVEL 487 = true ∧
    ¬ (5 = 475 ∨ 5 = 487 ∨ (levelRegs 5).isSome = true) ∧ (T.ups []).perfWatch (0x400 + 5) = [] ∧ irqReserved 5 = false ∧ irqReserved 511 = true ∧
    (T.ups [(F.IRQ_SRC_LEVEL, 5, 1), (F.IRQ_SRC_ACTIVE, 5, 1)]).on F.IRQ_SRC_ACTIVE 5 = true ∧ (T.ups []).on F.IRQ_SRC_ACTIVE 5 = false ∧
    (T.ups [(F.IRQ_SRC_COUNT, 5, 14)]).rd F.IRQ_SRC_COUNT 5 < 15 ∧ (T.ups [(F.IRQ_SRC_COUNT, 5, 15)]).rd F.IRQ_SRC_COUNT 5 = 15 ∧ (T.ups []).Canonical := by
  unfold State.Canonical; decide
theorem met_InterruptRegisters :
    (T.ups []).Canonical ∧ (T.ups []).Accepts .boot .IRQ_COMPLETE 0 5 ∧ (T.ups []).Accepts .boot .IRQ_SW_SET 0 5 ∧ (256 ≤ F.IRQ_SW_SET_SOURCE.of 256 ∨ 16 ≤ F.IRQ_SW_SET_SOURCE.of 256 % 32) ∧
    16 ≤ F.IRQ_SW_SET_SOURCE.of 16 % 32 ∧ F.IRQ_SW_SET_SOURCE.of 239 < 256 ∧ F.IRQ_SW_SET_SOURCE.of 239 % 32 < 16 ∧ (T.ups []).perfWatch (0x400 + 239) = [] ∧
    (T.ups []).on F.IRQ_SRC_LEVEL 239 = false ∧ (T.ups []).rd F.IRQ_SRC_COUNT 239 < 15 ∧ (T.ups []).Accepts .boot .IRQ_MASK 15 0xFFFFFFFF ∧ (T.ups []).Accepts .boot .IRQ_PENDING 15 0xFFFFFFFF ∧
    (T.ups []).mayWriteBit .boot 474 = true ∧ (T.ups []).Accepts .boot .IRQ_SRC 511 0 ∧ irqReserved 511 = true ∧ (T.ups []).Accepts .boot .IRQ_SRC 474 0 ∧
    Agent.boot.party = (T.ups []).irqTarget 300 ∧ (T.ups [(F.IRQ_SRC_ACTIVE, 300, 1)]).on F.IRQ_SRC_ACTIVE 300 = true ∧ (T.ups [(F.IRQ_SRC_PENDING, 300, 1)]).on F.IRQ_SRC_PENDING 300 = true := by
  unfold State.Accepts State.Canonical; decide

/-! Ill-formed commands, one for each length that WellFormed.lean checks, beside the nearest well-formed one. -/

/-- `n` bytes of value 1. -/
def T.ones (n : Nat) : List Byte := List.replicate n 1#8

/-- An entry table of the shape R521 gives, with the listed keys. -/
def T.entry (keys : List (Fin 4 × BitVec 256)) : EntryTable :=
  { descriptors := List.replicate 8 (List.replicate 8 0), maps := List.replicate 8 (List.replicate 256 0), owners := [], keys := keys, runMask := 0, service := false, writes := [] }

theorem test_wellFormed_lane :
    (Instr.txBlockBoundary 0 (List.replicate 159 0)).wellFormed = false ∧ (Instr.txBlockBoundary 0 (List.replicate 160 0)).wellFormed = true ∧
    (Instr.alignmentMarker 0 (T.ones 31) false false false 0).wellFormed = false ∧ (Instr.alignmentMarker 0 (T.ones 2) false false false 0).wellFormed = true ∧
    (Instr.blockRx 0 true (T.ones 33) false).wellFormed = false ∧ (Instr.blockRx 0 true (T.ones 32) false).wellFormed = true ∧
    (Instr.epochNoticeRx 0 (T.ones 31)).wellFormed = false ∧ (Instr.epochNoticeRx 0 (T.ones 32)).wellFormed = true := by decide +kernel
theorem test_wellFormed_hold :
    (Instr.rowScrub 0 (List.replicate 257 (0, 0, []))).wellFormed = false ∧ (Instr.rowScrub 0 (List.replicate 256 (0, 0, []))).wellFormed = true ∧
    (Instr.repairWindow 0 (List.replicate 257 (0, 0, []))).wellFormed = false ∧ (Instr.repairWindow 0 []).wellFormed = true := by decide +kernel
theorem test_wellFormed_smoke :
    (Instr.smokeBeacon 0 []).wellFormed = false ∧ (Instr.smokeControl 0 (T.ones 65)).wellFormed = false ∧
    (Instr.smokeFault 0 0 []).wellFormed = false ∧ (Instr.smokeGoingDown 0 0 []).wellFormed = false ∧ (Instr.smokeUser 0 0 (T.ones 65)).wellFormed = false ∧
    (Instr.smokeUser 0 0 (T.ones 64)).wellFormed = true := by decide
theorem test_wellFormed_host :
    (Instr.eqAdaptDone (List.replicate 4 (List.replicate 14 0))).wellFormed = false ∧ (Instr.eqAdaptDone (List.replicate 3 (List.replicate 15 0))).wellFormed = false ∧
    (Instr.tsRx 0 ⟨0, 0, 0, 0, 0, T.ones 9⟩ 0).wellFormed = false ∧ (Instr.tinderWrite 0 0 0 0 []).wellFormed = false ∧
    (Instr.tinderWritePosted 0 0 0 0 (List.replicate 65 0)).wellFormed = false ∧ (Instr.tinderWrite 0 0 0 0 (List.replicate 64 0)).wellFormed = true ∧
    (Instr.spiRead 0 0).wellFormed = false ∧ (Instr.spiWrite 0 []).wellFormed = false ∧ (Instr.errorLine []).wellFormed = false := by decide
theorem test_wellFormed_boot :
    (Instr.bootLoad (T.entry [(0, 1), (0, 2)])).wellFormed = false ∧ (Instr.bootLoad { T.entry [] with descriptors := [] }).wellFormed = false ∧
    (Instr.bootLoad { T.entry [] with descriptors := List.replicate 8 [] }).wellFormed = false ∧ (Instr.bootLoad { T.entry [] with maps := [] }).wellFormed = false ∧
    (Instr.bootLoad { T.entry [] with maps := List.replicate 8 [] }).wellFormed = false ∧ (Instr.bootLoad (T.entry [(0, 1), (1, 2)])).wellFormed = true ∧
    (Instr.i2cTransferEnd 0 1 0 (T.ones 33)).wellFormed = false ∧ (Instr.i2cTimeout 0 0 (T.ones 33)).wellFormed = false := by decide +kernel

/-! Torvulo words written out from Tables 2-4 and 2-6, one a family. -/

/-- `add g3, g1, g2`; `li g2, #0x1234_5678`; `ld`, `b`, `cmd` and `wfe`, `mrecv`, `sig` and a word of zeros, which is no instruction (R52). -/
theorem test_torvulo_words :
    torvuloDecode 5 0x0131200000000000 = some (.addOp 5 (T.w 3 1 2 0 0)) ∧ torvuloDecode 5 0x1020000012345678 = some (.li 5 (T.w 2 0 0 0 0x12345678)) ∧
    torvuloDecode 5 0x2021000000000008 = some (.load 5 (T.w 2 1 0 0 8) []) ∧ torvuloDecode 5 0x30000000FFFFFFFE = some (.branch 5 (T.w 0 0 0 0 0xFFFFFFFE)) ∧
    torvuloDecode 5 0x40F0700103011000 = some (.issueCmd 5 (T.w 15 0 7 1 0x03011000)) ∧ torvuloDecode 5 0x5040000000000000 = some (.wfe 5 (T.w 4 0 0 0 0) false) ∧
    torvuloDecode 5 0x6001000000000000 = some (.mrecv 5 (T.w 0 1 0 0 0)) ∧ torvuloDecode 5 0x7001000000000003 = some (.sig 5 (T.w 0 1 0 0 3)) ∧
    torvuloDecode 5 0 = none := by decide

/-- The example below R59: `li` sign-extends, and `lih` then replaces the upper half. -/
theorem test_li_lih :
    (match exec (.li 0 (T.w 2 0 0 0 0x12345678)) (T.at T.bank) with
     | .next s => (match exec (.lih 0 (T.w 2 0 0 0 0xAB)) s with | .next t => decide ((t.bank 0).reg 2 = 0xAB12345678) | _ => false)
     | _ => false) = true := by decide

/-! Numbers the specification prints. -/

/-- Table 4-11: 1632 with DEPTH 16 and r = 0.75 gives code 230. -/
theorem test_tx_example : shapeOne true 16 383 1632 = (230, false) ∧ State.reset.txCoef 40 2 = 256 := by decide
/-- The first whitening byte of frame 0 (R359). -/
theorem test_whitening : whiten 0 [0] = [0xDC] := by decide
/-- The IVs printed in chapter 6: data bundle 0x12_D687 and control bundle 0x40 under salt 0x3A9C_41E7. -/
theorem test_iv : (⟨false, 5, 0, 0x12D687, 0, [], false⟩ : Bundle).iv 0x3A9C41E7 = [0x3A, 0x9C, 0x41, 0xE7, 0, 0, 0, 0, 0, 0x12, 0xD6, 0x87] ∧
    (⟨true, 5, 0, 0x40, 0, [], false⟩ : Bundle).iv 0x3A9C41E7 = [0xBA, 0x9C, 0x41, 0xE7, 0, 0, 0, 0, 0, 0, 0, 0x40] := by decide
/-- The addresses printed in chapters 2, 3, 4, 7 and 21. -/
theorem test_addresses :
    Reg.addr .LANE_RX_COEF_ADDR 30 = 0x0201E080 ∧ Reg.addr .LANE_RX_COEF_DATA 30 = 0x0201E084 ∧ Reg.addr .LANE_TX_COEF_ADDR 40 = 0x02028180 ∧
    Reg.addr .PORT_EVENT 18 = 0x03023028 ∧ Reg.instAt .PORT_EVENT 0x03023028 = some 18 := by decide
/-- TINDER_STATUS of the bring-up example of chapter 11. -/
theorem test_tinder_status : (T.st [(F.TINDER_STATUS_STATE, 0, 4), (F.TINDER_STATUS_POL, 0, 8), (F.TINDER_STATUS_MAP, 0, 0xD8), (F.TINDER_STATUS_WIDTH, 0, 1)]).word .TINDER_STATUS 0 = 0x1D884 := by decide
/-- The event of chapter 18's example is defined, and those of lanes 48 to 63 are not (Table 18-2). -/
theorem test_perf_events : perfDefined 0xC65 = true ∧ perfDefined 0x82F = true ∧ perfDefined 0x830 = false ∧ perfDefined 0x83F = false := by decide
/-- After reset nothing is pending, the queue is empty, and a step lets 20 units of 0.4 ns pass. -/
theorem test_reset : State.reset.pending = [] ∧ State.reset.hostWait = [] ∧ (match step State.reset with | .next t => decide (t.time = 20 ∧ t.pending = []) | _ => false) = true := by decide +kernel
/-- A marker body carries a good CRC and names its lane (R195, R196). -/
theorem test_marker : markerValid (markerBody 3 4 0 2 0x5A170A01 7) = true ∧ (markerBody 3 4 0 2 0x5A170A01 7).length = 32 ∧ (markerBody 3 4 0 2 0x5A170A01 7).getD 8 0 = 3 := by decide +kernel
/-- The round constants of SHA-384 begin with the fractional part of the cube root of 2, and the AES-256-GCM tag of nothing under zero key and IV is the published one. -/
theorem test_crypto : shaK.head? = some 0x428a2f98d728ae22 ∧
    gcmTag (List.replicate 32 0) (List.replicate 12 0) [] [] = [0x53, 0x0f, 0x8a, 0xfb, 0xc7, 0x45, 0x36, 0xb9, 0xa9, 0x63, 0xb4, 0xf1, 0xc4, 0xcb, 0x73, 0x8b] := by decide +kernel
end

section
/-!
PROOFS. Plain register accesses by address (R6, R8, R9, R394, R555, R558): a write that only stores and a read that only shows and clears both go through the
fields of the register one by one, so what they leave is said once of any such pass.
-/

namespace Sys2Proof.Machine

variable {s : State} {ag : Agent} {r : Reg} {i : Nat}

/-! ### The fields of a register -/

theorem Reg.reg_of_mem_fields {f : Fld} (hf : f ∈ r.fields) : f.reg = r := by
  have h : r.fields.all (fun f => f.reg = r) = true := by cases r <;> rfl
  simpa using List.all_eq_true.1 h f hf

/-- No two fields of a register begin at the same bit. -/
theorem Reg.fields_pairwise_lo_ne (r : Reg) : r.fields.Pairwise fun f g => f.lo ≠ g.lo := by
  cases r <;> decide

/-! ### A pass over the fields of one register -/

/-- `step` treats one field of the register numbered `i`: the field then reads `val` of what it read before, and nothing else changes. -/
structure FieldStep (i : Nat) (val : Fld → Nat → Nat) (step : State → Fld → State) : Prop where
  rd_self : ∀ t f, (step t f).rd f i = val f (t.rd f i)
  rd_ne : ∀ t f g j, g.key j ≠ f.key i → (step t f).rd g j = t.rd g j
  only_regs : ∀ t f, step t f = { t with regs := (step t f).regs }

namespace FieldStep

variable {val : Fld → Nat → Nat} {step : State → Fld → State} (h : FieldStep i val step)
include h

theorem rd_foldl_of_key_ne {g : Fld} {j : Nat} : ∀ (l : List Fld) (s : State), (∀ f ∈ l, g.key j ≠ f.key i) → (l.foldl step s).rd g j = s.rd g j
  | [], _, _ => rfl
  | f :: l, s, hl =>
    (rd_foldl_of_key_ne l (step s f) fun e he => hl e (List.mem_cons_of_mem _ he)).trans (h.rd_ne s f g j (hl f List.mem_cons_self))

theorem rd_foldl_of_mem {g : Fld} (l : List Fld) (s : State) (hp : l.Pairwise fun f g => f.lo ≠ g.lo) (hg : g ∈ l) :
    (l.foldl step s).rd g i = val g (s.rd g i) := by
  induction l generalizing s with
  | nil => cases hg
  | cons f l ih =>
    obtain ⟨hf, hp⟩ := List.pairwise_cons.1 hp
    rcases List.mem_cons.1 hg with rfl | hg
    · exact (h.rd_foldl_of_key_ne l (step s g) fun e he => Fld.key_ne_lo (hf e he)).trans (h.rd_self s g)
    · rw [List.foldl_cons, ih (step s f) hp hg, h.rd_ne s f g i (Fld.key_ne_lo (hf g hg).symm)]

theorem foldl_only_regs (l : List Fld) (s : State) : l.foldl step s = { s with regs := (l.foldl step s).regs } := by
  induction l generalizing s with
  | nil => rfl
  | cons f l ih =>
    have hl := ih (step s f)
    rw [h.only_regs s f] at hl
    rwa [List.foldl_cons, h.only_regs s f]

theorem rd_fields {f : Fld} (hf : f ∈ r.fields) (s : State) : (r.fields.foldl step s).rd f i = val f (s.rd f i) :=
  h.rd_foldl_of_mem _ s r.fields_pairwise_lo_ne hf

theorem rd_fields_of_ne {g : Fld} {j : Nat} (hg : g.reg ≠ r ∨ j ≠ i) (s : State) : (r.fields.foldl step s).rd g j = s.rd g j :=
  h.rd_foldl_of_key_ne _ s fun _ hf => hg.elim (fun hr => Fld.key_ne_reg (Reg.reg_of_mem_fields hf ▸ hr)) Fld.key_ne_inst

end FieldStep

/-! ### A write that only stores (R8, R9) -/

/-- What a field that read `x` reads after the value `v` was written to its register. -/
def Fld.stored (v : Nat) (f : Fld) (x : Nat) : Nat :=
  match f.acc with
  | .rw | .wo => f.of v
  | .w1c => Nat.land x (2 ^ f.w - 1 - f.of v) % 2 ^ f.w
  | .w1s => Nat.lor x (f.of v) % 2 ^ f.w
  | _ => x

/-- What a plain write does with one field. -/
def State.storeField (i v : Nat) (t : State) (f : Fld) : State :=
  match f.acc with
  | .rw | .wo => t.wr f i (f.of v)
  | .w1c => t.wr f i (Nat.land (t.rd f i) (2 ^ f.w - 1 - f.of v))
  | .w1s => t.wr f i (Nat.lor (t.rd f i) (f.of v))
  | _ => t

theorem State.plainWrite_eq_foldl (s : State) (r : Reg) (i v : Nat) : s.plainWrite r i v = r.fields.foldl (State.storeField i v) s := rfl

theorem fieldStep_storeField (i v : Nat) : FieldStep i (Fld.stored v) (State.storeField i v) where
  rd_self t f := by
    unfold State.storeField Fld.stored
    split <;> simp [State.rd_wr_self, Fld.of]
  rd_ne t f g j hk := by
    unfold State.storeField
    split
    · exact State.rd_wr_ne t _ hk
    · exact State.rd_wr_ne t _ hk
    · exact State.rd_wr_ne t _ hk
    · exact State.rd_wr_ne t _ hk
    · rfl
  only_regs t f := by
    unfold State.storeField
    split <;> rfl

theorem State.rd_plainWrite_of_mem {f : Fld} (hf : f ∈ r.fields) (s : State) (i v : Nat) : (s.plainWrite r i v).rd f i = f.stored v (s.rd f i) :=
  s.plainWrite_eq_foldl r i v ▸ (fieldStep_storeField i v).rd_fields hf s

theorem State.rd_plainWrite_of_ne {g : Fld} {j : Nat} (hg : g.reg ≠ r ∨ j ≠ i) (s : State) (v : Nat) : (s.plainWrite r i v).rd g j = s.rd g j :=
  s.plainWrite_eq_foldl r i v ▸ (fieldStep_storeField i v).rd_fields_of_ne hg s

theorem State.plainWrite_only_regs (s : State) (r : Reg) (i v : Nat) : s.plainWrite r i v = { s with regs := (s.plainWrite r i v).regs } :=
  s.plainWrite_eq_foldl r i v ▸ (fieldStep_storeField i v).foldl_only_regs r.fields s

/-! ### A write at an address (R394, R555) -/

theorem State.sessionClosed_of_writeCheck {v : Nat} (h : s.writeCheck ag r i v = none) : s.sessionClosed ag = false := by
  cases hc : s.sessionClosed ag with
  | false => rfl
  | true => simp [State.writeCheck, hc] at h

theorem State.accessWrite_of_regAt_none {a : Nat} (v : Nat) (hs : s.sessionClosed ag = false) (ha : s.regAt a = none) :
    s.accessWrite ag a v false = (s, .badAddress) := by
  simp [State.accessWrite, State.badAddress, hs, ha]

/-- A 32-bit write that no check meets is the write of the register at the address. -/
theorem State.accessWrite_of_writeCheck_none {a v : Nat} (ha : s.regAt a = some (r, i)) (hc : s.writeCheck ag r i v = none) :
    s.accessWrite ag a v false = s.regWrite ag r i (v % 2 ^ 32) := by
  simp [State.accessWrite, State.badAddress, State.sessionClosed_of_writeCheck hc, ha, hc]

theorem State.settle_of_idle (h1 : s.retrainAfter = false) (h2 : s.resetAfter = false) : s.settle = s := by
  simp [State.settle, h1, h2]

/-- The controller's own words feed no source. -/
theorem State.levelEdge_of_eventRegs (s old : State) (i : Nat) (h : eventRegs r = true) : s.levelEdge old r i = s := by
  unfold eventRegs at h
  split at h
  · rfl
  · rfl
  · cases h

/-- A level that rises leaves the fields of the register that made it rise. -/
theorem State.rd_levelEdge_field (s old : State) {f : Fld} (hf : f ∈ r.fields) : (s.levelEdge old r i).rd f i = s.rd f i := by
  cases he : eventRegs r with
  | true => rw [State.levelEdge_of_eventRegs s old i he]
  | false => exact (State.Counted.levelEdge s old r i).2 f i (Reg.reg_of_mem_fields hf ▸ he)

/-- Settles O25: the write reaches `plainWrite`, a pass over the register's fields, and the level edge after it raises a source at most. -/
theorem plainRegisterWrite : Obligations.PlainRegisterWrite := by
  intro s ag addr v
  refine ⟨fun hs ha => ?_, fun r i ha hacc hu => ?_⟩
  · show Host.Outcome.next _ = _
    rw [State.accessWrite_of_regAt_none _ hs ha]
    rfl
  obtain ⟨hc, hretrain, hreset⟩ := hacc
  have hw : s.accessWrite ag addr.toNat v.toNat false = ((s.plainWrite r i v.toNat).levelEdge s r i, .ok) := by
    rw [State.accessWrite_of_writeCheck_none ha hc, Nat.mod_eq_of_lt v.isLt, State.regWrite, hu]
  obtain ⟨⟨more, hedge⟩, hframe⟩ := State.Counted.levelEdge (s.plainWrite r i v.toNat) s r i
  generalize ht : (s.plainWrite r i v.toNat).levelEdge s r i = t at hw hedge hframe
  rw [State.plainWrite_only_regs] at hedge
  refine ⟨t.answer .ok 0, ?_, rfl, fun f hf => ?_, fun g j hg he => ?_, more, ?_⟩
  · show Host.Outcome.next _ = _
    rw [hw]
    exact congrArg _ (State.settle_of_idle (by rw [hedge]; exact hretrain) (by rw [hedge]; exact hreset))
  · exact (ht ▸ State.rd_levelEdge_field _ s hf).trans (State.rd_plainWrite_of_mem hf s i v.toNat)
  · exact (hframe g j he).trans (State.rd_plainWrite_of_ne hg s v.toNat)
  · rw [hedge]
    rfl

/-! ### A read that shows and clears (R8) -/

/-- What a field that read `x` reads after its register was read. -/
def Fld.cleared (f : Fld) (x : Nat) : Nat := if f.acc = .rc then 0 else x

/-- What a read does with one field. -/
def State.clearField (i : Nat) (t : State) (f : Fld) : State := if f.acc = .rc then t.wr f i 0 else t

theorem State.readClear_eq_foldl (s : State) (ag : Agent) (i : Nat) (h : r ≠ .STK_MBX_STATUS) :
    s.readClear ag r i = r.fields.foldl (State.clearField i) s := if_neg h

theorem fieldStep_clearField (i : Nat) : FieldStep i Fld.cleared (State.clearField i) where
  rd_self t f := by
    unfold State.clearField Fld.cleared
    split
    · rw [State.rd_wr_self, Nat.zero_mod]
    · rfl
  rd_ne t f g j hk := by
    unfold State.clearField
    split
    · exact State.rd_wr_ne t _ hk
    · rfl
  only_regs t f := by
    unfold State.clearField
    split <;> rfl

theorem State.rd_readClear_of_mem {f : Fld} (h : r ≠ .STK_MBX_STATUS) (hf : f ∈ r.fields) (s : State) (ag : Agent) (i : Nat) :
    (s.readClear ag r i).rd f i = f.cleared (s.rd f i) :=
  s.readClear_eq_foldl ag i h ▸ (fieldStep_clearField i).rd_fields hf s

theorem State.rd_readClear_of_ne {g : Fld} {j : Nat} (h : r ≠ .STK_MBX_STATUS) (hg : g.reg ≠ r ∨ j ≠ i) (s : State) (ag : Agent) :
    (s.readClear ag r i).rd g j = s.rd g j :=
  s.readClear_eq_foldl ag i h ▸ (fieldStep_clearField i).rd_fields_of_ne hg s

theorem State.readClear_only_regs (h : r ≠ .STK_MBX_STATUS) (s : State) (ag : Agent) (i : Nat) :
    s.readClear ag r i = { s with regs := (s.readClear ag r i).regs } :=
  s.readClear_eq_foldl ag i h ▸ (fieldStep_clearField i).foldl_only_regs r.fields s

/-- The registers whose read moves a data port of the unit behind them. -/
def dataPorts : List Reg :=
  [.LANE_RX_COEF_DATA, .LANE_TX_COEF_DATA, .LANE_DEC_COEF_DATA, .LANE_MON_HIST_DATA, .LANE_DEC_CAP_DATA_LO, .MCV_CAP_DATA, .MCV_RESULT, .MCV_URG_RESULT,
    .PEAT_DATA]

theorem State.readLive_of_plain (s : State) (ag : Agent) (hd : r ∉ dataPorts) (hv : tvOf r i = none) :
    s.readLive ag r i = (s.readClear ag r i, .ok, s.view ag r i) := by
  unfold State.readLive
  split
  case h_10 => rw [hv]
  all_goals exact absurd (by decide) hd

/-! ### Captures (R6, R558) -/

/-- A reader finds in a capture just stored what was put there. -/
theorem State.captured_setCapture (s : State) (k : Nat) (r : Reg) (i : Nat) {items : List (Reg × Nat × Nat)} (h : items ≠ []) :
    (s.setCapture k items).captured k r i = (items.find? fun e => e.1 = r && e.2.1 = i).map fun e => e.2.2 := by
  have hrest : (s.captures.filter fun c => c.reader ≠ k).find? (fun c => c.reader = k) = none := List.find?_eq_none.2 (by simp)
  have hnew : (s.setCapture k items).captures.find? (fun c => c.reader = k) = some ⟨k, items⟩ := by
    simp only [State.setCapture, if_neg h, List.find?_append, hrest, Option.none_or]
    simp
  rw [State.captured, hnew]

/-- Of the registers a capture takes along, each is found with the value it showed. -/
theorem State.find_captureItems (s : State) (ag : Agent) (i : Nat) {h : Reg} (hh : h ∈ r.captureSet) :
    ((s.captureItems ag r i).find? fun e => e.1 = h && e.2.1 = i).map (fun e => e.2.2) = some (s.view ag h i) := by
  unfold State.captureItems
  generalize r.captureSet = l at hh
  induction l with
  | nil => cases hh
  | cons g l ih =>
    by_cases hg : g = h
    · simp [hg]
    · simpa [hg] using ih ((List.mem_cons.1 hh).resolve_left fun e => hg e.symm)

/-- A read stores for its reader what the register takes along, and touches captures alone. -/
def State.storeCaptures (t s : State) (ag : Agent) (r : Reg) (i : Nat) : State :=
  if r.captureSet = [] then t else t.setCapture ag.reader (s.captureItems ag r i)

theorem State.storeCaptures_only_captures (t s : State) (ag : Agent) (r : Reg) (i : Nat) :
    t.storeCaptures s ag r i = { t with captures := (t.storeCaptures s ag r i).captures } := by
  unfold State.storeCaptures
  split <;> rfl

theorem State.rd_storeCaptures (t s : State) (ag : Agent) (r : Reg) (i : Nat) (g : Fld) (j : Nat) : (t.storeCaptures s ag r i).rd g j = t.rd g j := by
  rw [State.storeCaptures_only_captures]
  rfl

theorem State.captured_storeCaptures (t s : State) (ag : Agent) (i : Nat) {h : Reg} (hh : h ∈ r.captureSet) :
    (t.storeCaptures s ag r i).captured ag.reader h i = some (s.view ag h i) := by
  have hne : r.captureSet ≠ [] := List.ne_nil_of_mem hh
  have hitems : s.captureItems ag r i ≠ [] := by simpa [State.captureItems] using hne
  rw [State.storeCaptures, if_neg hne, State.captured_setCapture _ _ _ _ hitems, State.find_captureItems s ag i hh]

theorem State.regRead_of_captured {v : Nat} (h : s.captured ag.reader r i = some v) :
    s.regRead ag r i = (s.releaseCapture ag.reader r i, .ok, v) := by
  rw [State.regRead, h]

theorem State.regRead_of_plain (h : s.captured ag.reader r i = none) (hd : r ∉ dataPorts) (hv : tvOf r i = none) :
    s.regRead ag r i = ((s.readClear ag r i).storeCaptures s ag r i, .ok, s.view ag r i) := by
  rw [State.regRead, h]
  simp only [State.readLive_of_plain s ag hd hv, State.storeCaptures]
  split <;> rfl

/-! ### A read at an address (R394, R555) -/

theorem State.sessionClosed_of_readCheck (h : s.readCheck ag r i = none) : s.sessionClosed ag = false := by
  cases hc : s.sessionClosed ag with
  | false => rfl
  | true => simp [State.readCheck, hc] at h

theorem State.accessRead_outside {a : Nat} (hs : s.sessionClosed ag = false) (ha : Unit'.ofAddr a = none) :
    s.accessRead ag a false = (s, .badAddress, 0) := by
  simp [State.accessRead, State.badAddress, hs, ha]

/-- A 32-bit read that no check meets is the read of the register at the address. -/
theorem State.accessRead_of_readCheck_none {a : Nat} (ha : s.regAt a = some (r, i)) (hu : (Unit'.ofAddr a).isSome = true)
    (hc : s.readCheck ag r i = none) : s.accessRead ag a false = s.regRead ag r i := by
  simp [State.accessRead, State.badAddress, State.sessionClosed_of_readCheck hc, ha, Option.isSome_iff_ne_none.1 hu, hc]

/-- Both read commands answer what the read at the address gives. -/
theorem does_read_of_accessRead {addr : W32} {t : State} {st : Status} {v : Nat} {P : State → Prop} (h : s.accessRead ag addr.toNat false = (t, st, v))
    (hP : P (t.answer st v)) : Does (.captureRead ag addr) s P ∧ Does (.readClear ag addr) s P := by
  have hx : Host.Outcome.next (let x := s.accessRead ag addr.toNat false; x.1.answer x.2.1 x.2.2) = (.next (t.answer st v) : Host.Outcome State Fault Refusal) := by
    rw [h]
  exact ⟨⟨_, hx, hP⟩, ⟨_, hx, hP⟩⟩

/-- Settles O26: past its checks the read is the capture's value, or a pass over the register's fields and the capture it stores. -/
theorem registerRead : Obligations.RegisterRead := by
  intro s ag addr
  refine ⟨fun hs ha => ?_, fun r i ha hu hc => ⟨fun v hv => ?_, fun hcap hv hm hd => ?_⟩⟩
  · exact does_read_of_accessRead (State.accessRead_outside hs ha) rfl
  · exact does_read_of_accessRead ((State.accessRead_of_readCheck_none ha hu hc).trans (State.regRead_of_captured hv)) rfl
  refine does_read_of_accessRead ((State.accessRead_of_readCheck_none ha hu hc).trans (State.regRead_of_plain hcap hd hv))
    ⟨rfl, rfl, fun f hf => ?_, fun g j hg => ?_, fun _ h hh => State.captured_storeCaptures _ s ag i hh, ?_⟩
  · exact (State.rd_storeCaptures _ s ag r i f i).trans (State.rd_readClear_of_mem hm hf s ag i)
  · exact (State.rd_storeCaptures _ s ag r i g j).trans (State.rd_readClear_of_ne hm hg s ag)
  · rw [State.storeCaptures_only_captures, State.readClear_only_regs hm]
    rfl

end Sys2Proof.Machine
end

section
/-!
PROOFS. How a command's completion is stated: the state it leaves, a counter raised on the way, a register write that no check meets (R394).
-/

namespace Sys2Proof.Machine

variable {s : State} {ag : Agent} {r : Reg} {i v : Nat}

/-! ### Commands that complete -/

theorem Does.of_eq {c : Instr} {u t : State} {P : State → Prop} (h : exec c s = .next u) (e : u = t) (ht : P t) : Does c s P := ⟨t, e ▸ h, ht⟩

/-- A counter is raised on the way, saturating at its width. -/
theorem State.Becomes.bump {t : State} {l : List (Fld × Nat × Nat)} {ev : Bool} (h : s.Becomes t l ev) (f : Fld) (i k : Nat)
    (hk : ∀ p ∈ l, p.1.key p.2.1 ≠ f.key i) (hf : ev = true → eventRegs f.reg = false) :
    s.Becomes (t.bump f i k) (l ++ [(f, i, min (s.rd f i + k) (2 ^ f.w - 1))]) ev := by
  have hrd : t.rd f i = s.rd f i := h.2.1 f i (fun p hp => (hk p hp).symm) hf
  have hlt : min (s.rd f i + k) (2 ^ f.w - 1) < 2 ^ f.w := by have := Nat.two_pow_pos f.w; omega
  have hwr := h.wr f i (min (s.rd f i + k) (2 ^ f.w - 1)) hk
  rw [Nat.mod_eq_of_lt hlt] at hwr
  rwa [State.bump, hrd]

/-! ### A write that no check meets -/

theorem State.writing_of_accepts (h : s.Accepts ag r i v) (handler : State → State × Status) :
    s.writing ag r i v handler = ((handler s).1.answer (handler s).2 0).settle := by
  obtain ⟨hc, -, -⟩ := h
  rw [State.writing, hc]

/-- After a write that reached its unit nothing is left to settle, where the unit's handler asks for no reset or retrain. -/
theorem State.writing_of_accepts_idle (h : s.Accepts ag r i v) {handler : State → State × Status} {t : State} {st : Status} (ht : handler s = (t, st))
    (hretrain : t.retrainAfter = s.retrainAfter) (hreset : t.resetAfter = s.resetAfter) : s.writing ag r i v handler = t.answer st 0 := by
  rw [State.writing_of_accepts h, ht]
  obtain ⟨-, h1, h2⟩ := h
  exact State.settle_of_idle (hretrain.trans h1) (hreset.trans h2)

end Sys2Proof.Machine
end

section
/-!
PROOFS. A register write that a check meets (R394, R434): the acknowledgement of an error still lets the error lines of its cycle rise.
-/

namespace Sys2Proof.Machine

/-- An acknowledgement that a closed session of a host writes in the cycle in which the error line of source 1 rises. -/
def T.ackWithError : Instr := .charStatusAck (.host 1) false 0 [(1, 0, 1)]

/-- The line latches its source although the write is turned away with NO_SESSION (R434). -/
theorem ackWithError_latches : Does T.ackWithError State.reset fun t => t.lastStatus = .noSession ∧ t.latched 1 = true := 
  ⟨_, rfl, by decide⟩

/-- Refutes O24: a write of CHAR_STATUS from a session that is not open completes NO_SESSION, and the error line that rises in its cycle latches its source all the same. -/
theorem not_refusedWritesHaveNoEffect : ¬ Obligations.RefusedWritesHaveNoEffect := by
  intro h
  obtain ⟨t, hrun, -, hlatched⟩ := ackWithError_latches
  obtain ⟨hsession, -⟩ := h State.reset T.ackWithError (.host 1) .CHAR_STATUS_LO 0 0 rfl
  have hsame : t = { State.reset with lastStatus := .noSession, lastValue := 0 } :=
    Host.Outcome.next.inj (hrun.symm.trans (hsession 1 rfl (by decide) rfl))
  rw [hsame] at hlatched
  exact absurd hlatched (by decide)

end Sys2Proof.Machine
end

section
/-!
PROOFS. Commands take effect in their unit, and the device enters and leaves Service mode (R40, R41, R70, R72).
-/

namespace Sys2Proof.Machine

variable {s : State}

/-! ### A unit takes a command (R70, R72) -/

theorem exec_commandTakesEffect {b : Fin 8} {u : Unit'} {c : Cmd} (h : s.nextCmd b u = some c) :
    exec (.commandTakesEffect b u) s = .next (s.cmdApply b c) := by
  show Host.Outcome.next _ = _
  rw [h]

/-- What a unit's answer to a command leaves, where the access asks for no reset or retrain. -/
theorem State.cmdApply_of_answer {b : Fin 8} {c : Cmd} {a : State} {st : Status} {v : Nat}
    (hx : (if c.write then (let y := s.accessWrite (.table b) c.addr c.value c.wide; (y.1, y.2, 0)) else s.accessRead (.table b) c.addr c.wide) = (a, st, v))
    (hst : st ≠ .waiting) (h1 : a.retrainAfter = false) (h2 : a.resetAfter = false) : s.cmdApply b c = a.cmdApplied b c.tag st v := by
  rw [State.cmdApply, hx]
  exact (if_neg hst).trans (State.settle_of_idle h1 h2)

/-! ### Service mode (R40, R41) -/

theorem State.serviceRequest_of_idle (hs : s.service = false) (ht : s.on F.SYS_ACCESS_MODE_TRANSITION 0 = false) (n : Nat) :
    s.serviceRequest n = { s with entryWait := n }.put F.SYS_ACCESS_MODE_TRANSITION 0 true := by
  simp [State.serviceRequest, hs, ht]

theorem State.outstandingBelow_eq_false {n : Nat} (h : ∀ (d : Fin 8), ∀ e ∈ (s.bank d).cmds, e.serial < n → e.quarantined = true) :
    s.outstandingBelow n = false := by
  simp only [State.outstandingBelow, List.any_eq_false, List.mem_range]
  intro d hd
  simp only [Bool.not_eq_true, List.any_eq_false, Bool.and_eq_true, decide_eq_true_eq, not_and, Bool.not_eq_true']
  intro e he hq hn
  exact absurd (h ⟨d, hd⟩ e he hn) (by simp [hq])

/-- Settles O27: past its checks each of the commands is the one update its rule names, and the settling after it finds nothing to do. -/
theorem commandsTakeEffectAndModes : Obligations.CommandsTakeEffectAndModes := by
  intro s ag b u c
  refine ⟨fun hc => ⟨fun a st hw ha hst h1 h2 => ?_, fun a st v hw ha hst h1 h2 => ?_⟩, fun hacc hs ht => ?_, fun hs ht hdone => ?_, fun p hs hp hlive => ?_⟩
  · exact ⟨_, exec_commandTakesEffect hc, State.cmdApply_of_answer (by rw [if_pos hw, ha]) hst h1 h2⟩
  · exact ⟨_, exec_commandTakesEffect hc, State.cmdApply_of_answer (by rw [hw]; exact ha) hst h1 h2⟩
  · have hw := State.writing_of_accepts_idle hacc (handler := fun t => (t.modeWrite ag 2, .ok)) (congrArg (·, Status.ok) (State.serviceRequest_of_idle hs ht (s.requestSerial ag))) rfl rfl
    exact Does.of_eq rfl hw ((State.Becomes.refl _ _).put F.SYS_ACCESS_MODE_TRANSITION 0 true (by decide) (by simp))
  · have hbelow := State.outstandingBelow_eq_false hdone
    refine Does.of_eq rfl (if_pos (by simp [ht, hs, hbelow])) ?_
    exact (((State.Becomes.refl _ _).put F.SYS_ACCESS_MODE_TRANSITION 0 false (by decide) (by simp)).put F.SYS_ACCESS_MODE_MODE 0 true (by decide) (by decide)).bump
      F.SYS_ACCESS_MODE_ENTRY_COUNT 0 1 (by decide) (by decide)
  · exact Does.of_eq rfl (if_pos (by simp [hs, hp, hlive])) ((State.Becomes.refl _ _).put F.SYS_ACCESS_MODE_MODE 0 false (by decide) (by simp))

end Sys2Proof.Machine
end

section
/-!
PROOFS. Key rollover (R256, R257, R287): dropping what lies below C frees billets, which may read a lost word of the clinker map cache.
-/

namespace Sys2Proof.Machine

/-- A retransmission copy of tunnel 0 whose billet is retired. -/
def T.retxCopy : Held := 
  { kind := .retx, tunnel := 0, seq := 0, path := 0, bundle := ⟨false, 0, 0, 0, 0, [], false⟩, billets := [(0, 4096)], retxToo := false, lost := 0, placed := [], storedAt := 0, gone := [] }

/-- An uncorrectable error (source 28) asks for a chip reset, the cached clinker map has one where the retired billet of a held copy is covered, and lane 0 is past its first window. -/
def T.lostCache : State :=
  { ((T.st [(F.FAULT_REACT_CHIP_RESET, 28, 1)]).setHc 0 { HCh.init with retired := [4096] }).setLane 0 { LaneS.init with windows := 1 } with
    held := [T.retxCopy], marks := [⟨5, clinkerWord 0 4096, 0, 3, 0, 0⟩] }

/-- The chip reset that freeing the billet leads to returns the lanes to their reset values (R287, R441). -/
theorem lanes_dropBelow_lostCache : (T.lostCache.dropBelow 0 1).lanes = State.reset.lanes ∧ T.lostCache.lanes ≠ State.reset.lanes := by decide

/-- Refutes O42: where freeing a billet of a dropped copy meets an uncorrectable error whose reaction is a chip reset, dropping what lies below C resets the lanes. -/
theorem not_keyRollover : ¬ Obligations.KeyRollover := by
  intro h
  obtain ⟨-, -, -, -, -, -, -, -, -, -, -, -, -, hdrop, -⟩ := h State.reset .boot 0 0 0 0 0
  obtain ⟨-, -, -, -, -, hlanes, -⟩ := hdrop T.lostCache 1
  obtain ⟨hreset, hne⟩ := lanes_dropBelow_lostCache
  exact hne (hlanes.symm.trans hreset)

end Sys2Proof.Machine
end

section
/-!
PROOFS. Reads of protected words (R418 to R425): a run without inverted bits and without a withheld row reads good, raises no line and leaves everything but
the captures of reads, their counts and the free values drawn for them.
-/

namespace Sys2Proof.Machine

variable {s t u : State} {region word first count n : Nat}

/-! ### What leaves the stored words alone -/

/-- Inverted bits, withheld rows and the number of chip resets are the same. -/
structure State.SameWords (s t : State) : Prop where
  marks : t.marks = s.marks
  withheld : t.withheld = s.withheld
  resets : t.resets = s.resets

theorem State.SameWords.refl (s : State) : s.SameWords s := ⟨rfl, rfl, rfl⟩

theorem State.SameWords.trans (h : s.SameWords t) (k : t.SameWords u) : s.SameWords u :=
  ⟨k.marks.trans h.marks, k.withheld.trans h.withheld, k.resets.trans h.resets⟩

theorem State.Counted.sameWords (h : s.Counted t) : s.SameWords t := by
  obtain ⟨⟨_, h⟩, -⟩ := h
  exact ⟨(congrArg State.marks h :), (congrArg State.withheld h :), (congrArg State.resets h :)⟩

theorem State.sameWords_event (s : State) (f : Fld) (i : Nat) : s.SameWords (s.event f i) :=
  (⟨rfl, rfl, rfl⟩ : s.SameWords (s.put f i true)).trans (State.Counted.levelEdge ..).sameWords

theorem State.sameWords_kilnAborted (s : State) (n : Nat) : s.SameWords (s.kilnAborted n) := by
  unfold State.kilnAborted
  dsimp only
  split
  · refine State.SameWords.trans ?_ (State.Counted.foldl (fun u b => State.Counted.irq u (32 * b + 19)) _).sameWords
    refine State.SameWords.trans ?_ (State.sameWords_event _ _ _)
    exact ⟨rfl, rfl, rfl⟩
  · exact ⟨rfl, rfl, rfl⟩

/-- A data-path request may end a slice, which leaves the words as they are (R454, R455). -/
theorem State.sameWords_dataPath (s : State) (n : Nat) : s.SameWords (s.dataPath n) := by
  unfold State.dataPath
  dsimp only
  split
  · refine State.SameWords.trans ?_ (State.sameWords_kilnAborted _ n)
    exact ⟨rfl, rfl, rfl⟩
  · exact ⟨rfl, rfl, rfl⟩

/-! ### Sound runs -/

/-- No word of a run has inverted bits, and no row of its region is withheld. -/
def State.Sound (s : State) (region first count : Nat) : Prop :=
  (∀ m ∈ s.marks, m.region = region → ¬ (first ≤ m.word ∧ m.word < first + count)) ∧ ∀ a ∈ s.withheld, a.region ≠ region

theorem State.SameWords.sound (h : s.SameWords t) (hs : s.Sound region first count) : t.Sound region first count := by
  rw [State.Sound, h.marks, h.withheld]
  exact hs

theorem State.sound_of_region (hm : ∀ m ∈ s.marks, m.region ≠ region) (hw : ∀ a ∈ s.withheld, a.region ≠ region) : s.Sound region first count :=
  ⟨fun m hmem hr => absurd hr (hm m hmem), hw⟩

theorem State.Sound.isWithheld (h : s.Sound region first count) : s.isWithheld region word = false := by
  obtain ⟨-, hw⟩ := h
  simp only [State.isWithheld, List.any_eq_false, Bool.and_eq_true, decide_eq_true_eq, not_and]
  exact fun a ha hr => absurd hr (hw a ha)

theorem State.Sound.spanWithheld (h : s.Sound region first count) : s.spanWithheld region first count = false := by
  obtain ⟨-, hw⟩ := h
  simp only [State.spanWithheld, List.any_eq_false, Bool.and_eq_true, decide_eq_true_eq, not_and]
  exact fun a ha hr => absurd hr (hw a ha)

theorem State.Sound.markOf (h : s.Sound region first count) (hw : first ≤ word ∧ word < first + count) (c : Nat) : s.markOf region word c = (0, 0) := by
  have hnone : (s.marks.find? fun m => m.region = region && m.word = word && m.copy = c) = none := by
    simp only [List.find?_eq_none, Bool.and_eq_true, decide_eq_true_eq, not_and, and_imp]
    exact fun m hm hr hmw _ => h.1 m hm hr (hmw ▸ hw)
  rw [State.markOf, hnone]

theorem decodeWord_zero (region : Nat) : decodeWord region 0 0 = .clean := by
  have hones : ones 0 = 0 := by decide
  simp [decodeWord, hones]

/-! ### What a read of a sound run leaves -/

/-- Reads leave captures (MEMP_RAW), read counts and drawn values; nothing else. -/
structure State.OnlyRead (s t : State) : Prop where
  eq : t = { s with regs := t.regs, trackers := t.trackers, freeCtr := t.freeCtr }
  rd : ∀ g j, g.reg ≠ .MEMP_RAW_LO → g.reg ≠ .MEMP_RAW_HI → g.reg ≠ .MEMP_RAW_CHECK → t.rd g j = s.rd g j

theorem State.OnlyRead.refl (s : State) : s.OnlyRead s := ⟨rfl, fun _ _ _ _ _ => rfl⟩

theorem State.OnlyRead.trans (h : s.OnlyRead t) (k : t.OnlyRead u) : s.OnlyRead u := by
  refine ⟨?_, fun g j h1 h2 h3 => (k.rd g j h1 h2 h3).trans (h.rd g j h1 h2 h3)⟩
  rw [k.eq, h.eq]

theorem State.OnlyRead.sameWords (h : s.OnlyRead t) : s.SameWords t :=
  ⟨(congrArg State.marks h.eq :), (congrArg State.withheld h.eq :), (congrArg State.resets h.eq :)⟩

theorem State.onlyRead_trackRead (s : State) (region word : Nat) : s.OnlyRead (s.trackRead region word) := ⟨rfl, fun _ _ _ _ _ => rfl⟩

theorem State.onlyRead_rawCapture (s : State) (region word copy v dx cx : Nat) : s.OnlyRead (s.rawCapture region word copy v dx cx) := by
  unfold State.rawCapture
  dsimp only
  split
  · exact ⟨rfl, fun g j h1 h2 h3 =>
      ((State.rd_wr_ne _ _ (Fld.key_ne_reg h3)).trans (State.rd_wr_ne _ _ (Fld.key_ne_reg h2))).trans (State.rd_wr_ne _ _ (Fld.key_ne_reg h1))⟩
  · exact .refl s

theorem State.memReadL_of_sound (h : s.Sound region first count) (hw : first ≤ word ∧ word < first + count) (v : Nat) :
    ∃ t x, s.memReadL region word v = (t, .good x, []) ∧ s.OnlyRead t := by
  unfold State.memReadL
  rw [h.isWithheld, h.markOf hw 0]
  dsimp only
  rw [decodeWord_zero]
  split
  · contradiction
  · split
    · exact ⟨_, _, rfl, .refl s⟩
    · exact ⟨_, _, rfl, (s.onlyRead_trackRead region word).trans (State.onlyRead_rawCapture _ _ _ _ _ _ _)⟩

theorem State.mem_spanWords (h : word ∈ s.spanWords region first count) : first ≤ word ∧ word < first + count := by
  simp only [State.spanWords, List.mem_eraseDups, List.mem_append, List.mem_map, List.mem_filter, Bool.and_eq_true, decide_eq_true_eq] at h
  rcases h with (⟨m, ⟨-, -, hm⟩, rfl⟩ | ⟨m, ⟨-, -, hm⟩, rfl⟩) | h
  · exact hm
  · exact hm
  · split at h
    next hc =>
      obtain rfl := List.mem_singleton.1 h
      exact hc.2
    · cases h

theorem State.spanWord_of_sound (h : s.Sound region first count) (hw : first ≤ word ∧ word < first + count) (value : Option Nat) :
    ∃ t x, s.spanWord region word value = (t, .good x, []) ∧ s.OnlyRead t := by
  cases value with
  | some v => exact State.memReadL_of_sound h hw v
  | none =>
    obtain ⟨t, x, hx, ht⟩ := State.memReadL_of_sound (s := s.drawn) h hw (s.freeVal % 2 ^ 64)
    exact ⟨t, x, hx, (⟨rfl, fun _ _ _ _ _ => rfl⟩ : s.OnlyRead s.drawn).trans ht⟩

/-- A pass that reads words of a sound run, each leaving what a read leaves: nothing is lost and no line rises. -/
theorem State.foldl_of_sound {f : State × Bool × List Line → Nat → State × Bool × List Line} {R : State → State → Prop} (hR : ∀ s, R s s)
    (hf : ∀ t w, R s t → first ≤ w ∧ w < first + count → ∃ t', f (t, false, []) w = (t', false, []) ∧ R s t') :
    ∃ t, (s.spanWords region first count).foldl f (s, false, []) = (t, false, []) ∧ R s t := by
  refine List.foldlRecOn (motive := fun a => ∃ t, a = (t, false, []) ∧ R s t) _ f ⟨s, rfl, hR s⟩ ?_
  rintro _ ⟨t, rfl, ht⟩ w hw
  exact hf t w ht (State.mem_spanWords hw)

theorem State.spanRead_of_sound (h : s.Sound region first count) (value : Nat → Option Nat) :
    ∃ t, s.spanRead region first count value = (t, false, []) ∧ s.OnlyRead t := by
  obtain ⟨t, hfold, ht⟩ := State.foldl_of_sound (s := s) (region := region) (first := first) (count := count) (R := State.OnlyRead) State.OnlyRead.refl
    (f := fun (a : State × Bool × List Line) w =>
      let r := a.1.spanWord region w (value w)
      (r.1, a.2.1 || r.2.1 = .bad, a.2.2 ++ r.2.2)) fun u w hu hw => by
    obtain ⟨u', x, hx, hu'⟩ := State.spanWord_of_sound (hu.sameWords.sound h) hw (value w)
    exact ⟨u', by simp [hx], hu.trans hu'⟩
  refine ⟨t, ?_, ht⟩
  unfold State.spanRead
  dsimp only
  rw [hfold, h.spanWithheld]
  rfl

theorem State.spanTake_of_sound (h : s.Sound region first count) : ∃ t, s.spanTake region first count = (t, false) ∧ s.OnlyRead t := by
  obtain ⟨t, hread, ht⟩ := State.spanRead_of_sound h fun _ => none
  exact ⟨t, by rw [State.spanTake, hread]; rfl, ht⟩

end Sys2Proof.Machine
end

section
/-!
PROOFS. Where a bundle may go (R21, R301 to R304, R327): on every path a ready line port with room, in Standby also a port of an active path that has none ready.
-/

namespace Sys2Proof.Machine

variable {s : State} {b : Bundle} {t n q x : Nat}

/-! ### Ports of a path -/

theorem State.mem_pathPorts : q ∈ s.pathPorts x ↔ q < 48 ∧ s.isLine q = true ∧ s.role q = x + 2 := by
  simp [State.pathPorts]

theorem State.mem_readyPorts : q ∈ s.readyPorts x ↔ q ∈ s.pathPorts x ∧ s.on F.PORT_STATUS_TX_READY q = true := by
  simp [State.readyPorts]

/-- The best port is one of those offered, with room. -/
theorem State.mem_of_bestPort {ps : List Nat} (h : s.bestPort ps n = some q) : q ∈ ps ∧ s.portRoom q n = true := by
  have hall : ∀ p, s.bestPort ps n = some p → p ∈ ps.filter fun p => s.portRoom p n := by
    refine List.foldlRecOn (motive := fun a => ∀ p, a = some p → p ∈ ps.filter fun p => s.portRoom p n) _ _ (by simp) fun a ha p hp z hz => ?_
    cases a with
    | none => exact Option.some.inj hz ▸ hp
    | some y =>
      dsimp only at hz
      split at hz
      · exact Option.some.inj hz ▸ hp
      · exact ha z hz
  simpa using hall q h

/-- Port `q` of path `x` is ready and has room for `n` bytes. -/
def State.Takes (s : State) (x n q : Nat) : Prop := s.role q = x + 2 ∧ s.portRoom q n = true ∧ s.on F.PORT_STATUS_TX_READY q = true

theorem State.takes_of_bestPort {ps : List Nat} (hps : ∀ p ∈ ps, p ∈ s.readyPorts x) (h : s.bestPort ps n = some q) : s.Takes x n q := by
  obtain ⟨hq, hroom⟩ := State.mem_of_bestPort h
  obtain ⟨hpath, hready⟩ := State.mem_readyPorts.1 (hps q hq)
  exact ⟨(State.mem_pathPorts.1 hpath).2.2, hroom, hready⟩

/-! ### The placements -/

/-- The ports of a pair: one on path A, one on path B, in different bays. -/
def State.PairOk (s : State) (n : Nat) (p : Option Nat × Option Nat) : Prop :=
  (∀ a, p.1 = some a → s.Takes 0 n a) ∧ (∀ c, p.2 = some c → s.Takes 1 n c) ∧ ∀ a c, p.1 = some a → p.2 = some c → a / 8 ≠ c / 8

theorem State.portPair_ok (s : State) (n : Nat) : s.PairOk n (s.portPair n) := by
  have first : ∀ {x q}, s.bestPort (s.readyPorts x) n = some q → s.Takes x n q := State.takes_of_bestPort fun _ h => h
  have apart : ∀ {x y q}, s.bestPort ((s.readyPorts x).filter fun p => decide (y / 8 ≠ p / 8)) n = some q → s.Takes x n q ∧ y / 8 ≠ q / 8 := fun h =>
    ⟨State.takes_of_bestPort (fun _ hp => List.mem_of_mem_filter hp) h, by simpa using (List.mem_filter.1 (State.mem_of_bestPort h).1).2⟩
  unfold State.portPair
  split
  case h_1 a c ha hc =>
    dsimp only
    split
    case h_1 c' hc' => exact ⟨by rintro _ ⟨⟩; exact first ha, by rintro _ ⟨⟩; exact (apart hc').1, by rintro _ _ ⟨⟩ ⟨⟩; exact (apart hc').2⟩
    case h_2 =>
      split
      case h_1 a' ha' => exact ⟨by rintro _ ⟨⟩; exact (apart ha').1, by rintro _ ⟨⟩; exact first hc, by rintro _ _ ⟨⟩ ⟨⟩; exact (apart ha').2.symm⟩
      case h_2 => exact ⟨by rintro _ ⟨⟩; exact first ha, by simp, by simp⟩
  case h_2 hnone => exact ⟨fun _ => first, fun _ => first, fun a c ha hc => (hnone a c ha hc).elim⟩

/-- Ports that a bundle may be placed on: each with room, and ready or, of an active path with no ready port, waiting (R302, R304). -/
def State.MayTake (s : State) (b : Bundle) (q : Nat) : Prop :=
  2 ≤ s.role q ∧ s.portRoom q b.size = true ∧ (s.on F.PORT_STATUS_TX_READY q = true ∨
    (2 ≤ s.rd F.PROT_CFG_MODE 0 ∧ b.ctrl = false ∧ s.rd F.PROT_STATUS_ACTIVE 0 = s.role q - 2 ∧ s.readyPorts (s.role q - 2) = [] ∧ (s.anyTx = true ∨ s.switchWait = true)))

theorem State.Takes.mayTake (h : s.Takes x b.size q) : s.MayTake b q := by
  obtain ⟨hrole, hroom, hready⟩ := h
  exact ⟨by omega, hroom, .inl hready⟩

/-- What is asked of the ports of a placement: each may take the bundle, no two share a path or a bay. -/
def State.PlacesOk (s : State) (b : Bundle) (ps : List Nat) : Prop :=
  (∀ q ∈ ps, s.MayTake b q) ∧ (ps.map s.role).Nodup ∧ (ps.map fun q => q / 8).Nodup

theorem State.placesOk_toList {o : Option Nat} (h : ∀ q, o = some q → s.MayTake b q) : s.PlacesOk b o.toList := by
  cases o with
  | none => exact ⟨by simp, by simp, by simp⟩
  | some q => exact ⟨by simpa using h q rfl, by simp, by simp⟩

theorem State.placesOk_placeBoth (s : State) (b : Bundle) : s.PlacesOk b (s.placeBoth b.size).ports := by
  obtain ⟨hA, hB, hbay⟩ := s.portPair_ok b.size
  show s.PlacesOk b ((s.portPair b.size).1.toList ++ (s.portPair b.size).2.toList)
  cases h1 : (s.portPair b.size).1 with
  | none => exact State.placesOk_toList fun q hq => (hB q hq).mayTake
  | some a =>
    cases h2 : (s.portPair b.size).2 with
    | none => exact State.placesOk_toList (o := some a) fun q hq => (hA q (h1.trans hq)).mayTake
    | some c =>
      have ha := hA a h1
      have hc := hB c h2
      exact ⟨by simpa using ⟨ha.mayTake, hc.mayTake⟩, by simp [ha.1, hc.1], by simpa using hbay a c h1 h2⟩

theorem State.placesOk_placeOnce (s : State) (b : Bundle) : s.PlacesOk b (s.placeOnce b.size).ports := by
  refine State.placesOk_toList fun q hq => ?_
  obtain ⟨hmem, hroom⟩ := State.mem_of_bestPort hq
  have hready : q ∈ s.readyPorts 0 ∨ q ∈ s.readyPorts 1 := by simpa using (List.mem_filter.1 hmem).2
  rcases hready with h | h
  · exact (State.takes_of_bestPort (ps := [q]) (x := 0) (by simpa using h) (by simp [State.bestPort, hroom])).mayTake
  · exact (State.takes_of_bestPort (ps := [q]) (x := 1) (by simpa using h) (by simp [State.bestPort, hroom])).mayTake

/-- A port of the active path's queues is ready, or the path has no ready port and its bundles wait. -/
theorem State.mayTake_activePorts (hmode : 2 ≤ s.rd F.PROT_CFG_MODE 0) (hctrl : b.ctrl = false) (h : s.bestPort s.activePorts b.size = some q) : s.MayTake b q := by
  obtain ⟨hmem, hroom⟩ := State.mem_of_bestPort h
  unfold State.activePorts at hmem
  dsimp only at hmem
  split at hmem
  · obtain ⟨hpath, hready⟩ := State.mem_readyPorts.1 hmem
    exact (show s.Takes _ b.size q from ⟨(State.mem_pathPorts.1 hpath).2.2, hroom, hready⟩).mayTake
  next hnone =>
    split at hmem
    next hwait =>
      obtain ⟨-, -, hrole⟩ := State.mem_pathPorts.1 hmem
      have hempty : s.readyPorts (s.rd F.PROT_STATUS_ACTIVE 0) = [] := by simpa using hnone
      have hx : s.role q - 2 = s.rd F.PROT_STATUS_ACTIVE 0 := by omega
      exact ⟨by omega, hroom, .inr ⟨hmode, hctrl, hx.symm, hx ▸ hempty, by simpa using hwait⟩⟩
    · simp at hmem

theorem State.placesOk_placeStandby (hmode : 2 ≤ s.rd F.PROT_CFG_MODE 0) (hctrl : b.ctrl = false) : s.PlacesOk b (s.placeStandby b.size).ports := by
  refine State.placesOk_toList fun q hq => ?_
  rcases Option.or_eq_some_iff.1 hq with h | ⟨-, h⟩
  · exact State.mayTake_activePorts hmode hctrl h
  · exact (State.takes_of_bestPort (fun _ hp => hp) h).mayTake

/-- The placement under each mode (R301 to R303, R327). -/
theorem State.placement_cases (s : State) (t : Nat) (b : Bundle) :
    s.placement t b = s.placeOnce b.size ∨
    (s.placement t b = s.placeBoth b.size ∧ s.rd F.PROT_CFG_MODE 0 ≠ 0 ∧ (b.ctrl = false → s.rd F.PROT_CFG_MODE 0 = 1 ∧ s.on F.PROT_TUN_STATE_DRAIN t = false)) ∨
    (s.placement t b = s.placeStandby b.size ∧ 2 ≤ s.rd F.PROT_CFG_MODE 0 ∧ b.ctrl = false) := by
  unfold State.placement
  dsimp only
  split
  · exact .inl rfl
  next hdrain =>
    have hd : b.ctrl = false → s.on F.PROT_TUN_STATE_DRAIN t = false := fun hc => by simpa [hc] using hdrain
    split
    case h_1 => exact .inl rfl
    case h_2 h1 => exact .inr (.inl ⟨rfl, by omega, fun hc => ⟨h1, hd hc⟩⟩)
    case h_3 h0 h1 =>
      have h2 : 2 ≤ s.rd F.PROT_CFG_MODE 0 := by
        rcases hm : s.rd F.PROT_CFG_MODE 0 with _ | _ | k
        · exact absurd hm h0
        · exact absurd hm h1
        · omega
      cases hc : b.ctrl with
      | false => exact .inr (.inr ⟨by simp, h2, rfl⟩)
      | true => exact .inr (.inl ⟨by simp, by omega, by simp⟩)

theorem State.placesOk_placement (s : State) (t : Nat) (b : Bundle) : s.PlacesOk b (s.placement t b).ports := by
  rcases s.placement_cases t b with h | ⟨h, -⟩ | ⟨h, hmode, hctrl⟩ <;> rw [h]
  · exact s.placesOk_placeOnce b
  · exact s.placesOk_placeBoth b
  · exact State.placesOk_placeStandby hmode hctrl

/-- Unprotected, in Standby a data bundle, and in drain a data bundle goes once. -/
theorem State.length_placement_le (h : s.rd F.PROT_CFG_MODE 0 = 0 ∨ (s.rd F.PROT_CFG_MODE 0 = 2 ∧ b.ctrl = false) ∨ (s.on F.PROT_TUN_STATE_DRAIN t = true ∧ b.ctrl = false)) :
    (s.placement t b).ports.length ≤ 1 := by
  have hone : ∀ o : Option Nat, o.toList.length ≤ 1 := fun o => by cases o <;> simp
  rcases s.placement_cases t b with hp | ⟨-, hmode, hdata⟩ | ⟨hp, -⟩
  · rw [hp]; exact hone _
  · rcases h with h | ⟨h, hc⟩ | ⟨h, hc⟩
    · exact absurd h hmode
    · have := (hdata hc).1; omega
    · exact absurd (hdata hc).2 (by simp [h])
  · rw [hp]; exact hone _

/-! ### The next bundle is placed (R306, R321) -/

theorem State.place_of_ports_nil (h : (s.placement t b).ports = []) : s.place t b = (s, false) := by
  simp [State.place, h]

theorem State.place_snd_of_ports (h : (s.placement t b).ports ≠ []) : (s.place t b).2 = true := by
  simp [State.place, h]

theorem State.placeNext_of_none (hc : (s.protT t).ctrlQ = []) (h : s.placesData t = false ∨ ((s.protT t).resendQ = [] ∧ (s.protT t).sendQ = [])) :
    s.placeNext t = s := by
  unfold State.placeNext
  dsimp only
  rw [hc]
  rcases h with h | ⟨hr, hs⟩
  · rw [h]
  · rw [hr, hs]
    cases s.placesData t <;> rfl

theorem State.placeNext_of_ctrl {rest : List Bundle} (h : (s.protT t).ctrlQ = b :: rest) :
    s.placeNext t = if (s.place t b).2 then (s.place t b).1.setProt t { (s.place t b).1.protT t with ctrlQ := rest } else s := by
  unfold State.placeNext
  dsimp only
  rw [h]

theorem State.placeNext_of_resend {rest : List Bundle} (hc : (s.protT t).ctrlQ = []) (hd : s.placesData t = true) (h : (s.protT t).resendQ = b :: rest) :
    s.placeNext t = if (s.place t b).2 then (s.place t b).1.setProt t { (s.place t b).1.protT t with resendQ := rest } else s := by
  unfold State.placeNext
  dsimp only
  rw [hc, hd, h]

theorem State.placeNext_of_send {rest : List Bundle} (hc : (s.protT t).ctrlQ = []) (hd : s.placesData t = true) (hr : (s.protT t).resendQ = [])
    (h : (s.protT t).sendQ = b :: rest) :
    s.placeNext t = if (s.place t b).2 then ((s.place t b).1.setProt t { (s.place t b).1.protT t with sendQ := rest }).drainNext t else s := by
  unfold State.placeNext
  dsimp only
  rw [hc, hd, hr, h]

end Sys2Proof.Machine
end

section
/-!
PROOFS. The protection unit's commands (chapter 8): placing, the mode and the Standby switch, deadlines and spills of the merge, acknowledgement, resend waits,
ride-through and drain.
-/

namespace Sys2Proof.Machine

variable {s : State} {ag : Agent} {t : Fin 24} {v : W32} {seq first : W64} {path : Fin 2}

/-! ### Lists of fields that have changed -/

/-- What becomes of a state does not depend on the order in which its fields are listed. -/
theorem State.Becomes.perm {u : State} {l l' : List (Fld × Nat × Nat)} {ev : Bool} (h : s.Becomes u l ev) (hl : l.Perm l') : s.Becomes u l' ev := by
  obtain ⟨hread, hframe, hrest⟩ := h
  exact ⟨fun p hp => hread p (hl.mem_iff.2 hp), fun g j hk => hframe g j fun p hp => hk p (hl.mem_iff.1 hp), hrest⟩

/-! ### Placing (R301, R306) -/

theorem State.placesData_iff : s.placesData t = true ↔ s.txStateNow t = 2 ∧ s.service = true ∧ s.on F.PROT_TUN_STATE_RIDE t = false := by
  simp [State.placesData, State.txCarries, and_assoc]

theorem exec_bundlePlace_of_none (hc : (s.protT t).ctrlQ = [])
    (h : ¬ (s.txStateNow t = 2 ∧ s.service = true ∧ s.on F.PROT_TUN_STATE_RIDE t = false) ∨ ((s.protT t).resendQ = [] ∧ (s.protT t).sendQ = [])) :
    exec (.bundlePlace t) s = .next s := by
  rw [← State.placesData_iff, Bool.not_eq_true] at h
  exact congrArg _ (State.placeNext_of_none hc h)

/-- The bundle that is placed next: of the control bundles, else of the resent, else of the new ones. -/
def State.NextToPlace (s : State) (t : Fin 24) (b : Bundle) : Prop :=
  (s.protT t).ctrlQ.head? = some b ∨ ((s.protT t).ctrlQ = [] ∧ (s.txStateNow t = 2 ∧ s.service = true ∧ s.on F.PROT_TUN_STATE_RIDE t = false) ∧
    ((s.protT t).resendQ ++ (s.protT t).sendQ).head? = some b)

/-- The state after the next bundle was placed, without it in its queue. -/
def State.withPlaced (s : State) (t : Fin 24) (u : State) : State :=
  let p := s.protT t
  if p.ctrlQ ≠ [] then u.setProt t { u.protT t with ctrlQ := p.ctrlQ.drop 1 }
  else if p.resendQ ≠ [] then u.setProt t { u.protT t with resendQ := p.resendQ.drop 1 }
  else (u.setProt t { u.protT t with sendQ := p.sendQ.drop 1 }).drainNext t

theorem State.withPlaced_of_ctrl {u : State} (h : (s.protT t).ctrlQ ≠ []) :
    s.withPlaced t u = u.setProt t { u.protT t with ctrlQ := (s.protT t).ctrlQ.drop 1 } := if_pos h

theorem State.withPlaced_of_resend {u : State} (hc : (s.protT t).ctrlQ = []) (h : (s.protT t).resendQ ≠ []) :
    s.withPlaced t u = u.setProt t { u.protT t with resendQ := (s.protT t).resendQ.drop 1 } := (if_neg (not_not.2 hc)).trans (if_pos h)

theorem State.withPlaced_of_send {u : State} (hc : (s.protT t).ctrlQ = []) (h : (s.protT t).resendQ = []) :
    s.withPlaced t u = (u.setProt t { u.protT t with sendQ := (s.protT t).sendQ.drop 1 }).drainNext t :=
  (if_neg (not_not.2 hc)).trans (if_neg (not_not.2 h))

theorem State.placeNext_of_next {b : Bundle} (h : s.NextToPlace t b) : s.placeNext t = if (s.place t b).2 then s.withPlaced t (s.place t b).1 else s := by
  have cons : ∀ {l : List Bundle}, l.head? = some b → l = b :: l.drop 1 := fun {l} hl => by
    rw [List.drop_one]; exact (List.cons_head?_tail hl).symm
  rcases h with h | ⟨hc, hd, h⟩
  · rw [State.placeNext_of_ctrl (cons h), State.withPlaced_of_ctrl fun hnil => by simp [hnil] at h]
  · rw [← State.placesData_iff] at hd
    by_cases hr : (s.protT t).resendQ = []
    · rw [State.placeNext_of_send hc hd hr (cons (by simpa [hr] using h)), State.withPlaced_of_send hc hr]
    · have hb : (s.protT t).resendQ.head? = some b := by rwa [List.head?_append_of_ne_nil _ hr] at h
      rw [State.placeNext_of_resend hc hd (cons hb), State.withPlaced_of_resend hc hr]

theorem exec_bundlePlace_of_no_port {b : Bundle} (h : s.NextToPlace t b) (hp : (s.placement t b).ports = []) : exec (.bundlePlace t) s = .next s := by
  refine congrArg _ ((State.placeNext_of_next h).trans ?_)
  rw [State.place_of_ports_nil hp]
  rfl

theorem exec_bundlePlace_of_ports {b : Bundle} (h : s.NextToPlace t b) (hp : (s.placement t b).ports ≠ []) :
    exec (.bundlePlace t) s = .next (s.withPlaced t (s.place t b).1) := by
  refine congrArg _ ((State.placeNext_of_next h).trans ?_)
  rw [State.place_snd_of_ports hp, if_pos rfl]

/-! ### The mode (R300) -/

/-- The state whose charges are judged when the mode is written (R26, R300). -/
def State.withMode (s : State) (v : Nat) : State :=
  let m := F.PROT_CFG_MODE.of v
  let t := (s.wr F.PROT_CFG_PREFER 0 (F.PROT_CFG_PREFER.of v)).wr F.PROT_CFG_MODE 0 m
  if m = 2 then t else { t with switchReq := none }.put F.PROT_STATUS_SWITCH_PENDING 0 false

theorem State.protCfgWrite_eq {n : Nat} (h : F.PROT_CFG_MODE.of n ≠ 3) : s.protCfgWrite n = s.commit (s.withMode n).holdUpdate := by
  simp only [State.protCfgWrite, if_neg h, State.withMode]

/-- A register field cut out of a value fits its width. -/
theorem Fld.of_mod (f : Fld) (n : Nat) : f.of n % 2 ^ f.w = f.of n := Nat.mod_mod _ _

theorem State.becomes_withMode (s : State) (n : Nat) :
    let m := F.PROT_CFG_MODE.of n
    let set := [(F.PROT_CFG_PREFER, 0, F.PROT_CFG_PREFER.of n), (F.PROT_CFG_MODE, 0, m)]
    if m = 2 then s.Becomes (s.withMode n) set false
    else ({ s with switchReq := none } : State).Becomes (s.withMode n) ((F.PROT_STATUS_SWITCH_PENDING, 0, 0) :: set) false := by
  intro m set
  have hset : ∀ u : State, u.Becomes ((u.wr F.PROT_CFG_PREFER 0 (F.PROT_CFG_PREFER.of n)).wr F.PROT_CFG_MODE 0 m) set false := fun u => by
    have h := ((State.Becomes.refl u false).wr F.PROT_CFG_PREFER 0 (F.PROT_CFG_PREFER.of n) (by simp)).wr F.PROT_CFG_MODE 0 m (by simpa using Fld.key_ne_lo (by decide))
    rwa [Fld.of_mod, Fld.of_mod] at h
  unfold State.withMode
  dsimp only
  split
  · exact hset s
  · refine ((hset { s with switchReq := none }).put F.PROT_STATUS_SWITCH_PENDING 0 false (by decide) ?_).perm List.perm_append_comm
    simp only [set, List.forall_mem_cons, List.not_mem_nil, false_implies, implies_true, and_true]
    exact ⟨Fld.key_ne_reg (by decide), Fld.key_ne_reg (by decide)⟩

theorem exec_protModeWrite (h : s.Accepts ag .PROT_CFG 0 v.toNat) :
    exec (.protModeWrite ag v) s = .next (((s.protCfgWrite v.toNat).1.answer (s.protCfgWrite v.toNat).2 0).settle) :=
  congrArg _ (State.writing_of_accepts h _)

theorem State.settle_answer_of_accepts {r : Reg} {i n : Nat} (h : s.Accepts ag r i n) (st : Status) : (s.answer st 0).settle = s.answer st 0 := by
  obtain ⟨-, h1, h2⟩ := h
  exact State.settle_of_idle h1 h2

/-! ### The Standby switch (R304 to R306) -/

theorem exec_switchRequest_of_mode (h : s.Accepts ag .PROT_SWITCH_CTL 0 v.toNat) (hm : s.rd F.PROT_CFG_MODE 0 ≠ 2) :
    exec (.switchRequest ag v) s = .next (s.answer .refusedState 0) :=
  congrArg _ (State.writing_of_accepts_idle h (if_pos hm) rfl rfl)

/-- The fields of a request as written. -/
theorem State.becomes_switchFields (s : State) (n : Nat) :
    s.Becomes ((s.wr F.PROT_SWITCH_CTL_ACTIVE 0 (F.PROT_SWITCH_CTL_ACTIVE.of n)).wr F.PROT_SWITCH_CTL_WHEN_READY 0 (F.PROT_SWITCH_CTL_WHEN_READY.of n))
      [(F.PROT_SWITCH_CTL_ACTIVE, 0, F.PROT_SWITCH_CTL_ACTIVE.of n), (F.PROT_SWITCH_CTL_WHEN_READY, 0, F.PROT_SWITCH_CTL_WHEN_READY.of n)] false := by
  have h := ((State.Becomes.refl s false).wr F.PROT_SWITCH_CTL_ACTIVE 0 (F.PROT_SWITCH_CTL_ACTIVE.of n) (by simp)).wr F.PROT_SWITCH_CTL_WHEN_READY 0
    (F.PROT_SWITCH_CTL_WHEN_READY.of n) (by simpa using Fld.key_ne_lo (by decide))
  rwa [Fld.of_mod, Fld.of_mod] at h

theorem does_switchRequest_of_idle (h : s.Accepts ag .PROT_SWITCH_CTL 0 v.toNat) (hm : s.rd F.PROT_CFG_MODE 0 = 2) (hreq : s.switchReq = none)
    (hactive : s.rd F.PROT_STATUS_ACTIVE 0 = F.PROT_SWITCH_CTL_ACTIVE.of v.toNat) :
    Does (.switchRequest ag v) s fun u => (s.answer .ok 0).Becomes u
      [(F.PROT_SWITCH_CTL_ACTIVE, 0, F.PROT_SWITCH_CTL_ACTIVE.of v.toNat), (F.PROT_SWITCH_CTL_WHEN_READY, 0, F.PROT_SWITCH_CTL_WHEN_READY.of v.toNat)] false := by
  have hw : s.switchWrite v.toNat = (_, Status.ok) := (if_neg (not_not.2 hm)).trans (if_pos (by simp [hreq, hactive]))
  exact Does.of_eq rfl (State.writing_of_accepts_idle h hw rfl rfl) ((s.answer .ok 0).becomes_switchFields v.toNat)

/-- A switch is asked for as written. -/
def State.withRequest (s : State) (n : Nat) : State :=
  { s with switchReq := some ⟨F.PROT_SWITCH_CTL_ACTIVE.of n, decide (F.PROT_SWITCH_CTL_WHEN_READY.of n = 1), s.time⟩ }

theorem does_switchRequest_pending (h : s.Accepts ag .PROT_SWITCH_CTL 0 v.toNat) (hm : s.rd F.PROT_CFG_MODE 0 = 2)
    (hidle : ¬ (s.switchReq = none ∧ s.rd F.PROT_STATUS_ACTIVE 0 = F.PROT_SWITCH_CTL_ACTIVE.of v.toNat)) :
    Does (.switchRequest ag v) s fun u => ((s.withRequest v.toNat).answer .ok 0).Becomes u
      [(F.PROT_STATUS_SWITCH_PENDING, 0, 1), (F.PROT_SWITCH_CTL_ACTIVE, 0, F.PROT_SWITCH_CTL_ACTIVE.of v.toNat),
        (F.PROT_SWITCH_CTL_WHEN_READY, 0, F.PROT_SWITCH_CTL_WHEN_READY.of v.toNat)] false := by
  have hw : s.switchWrite v.toNat = (_, Status.ok) := (if_neg (not_not.2 hm)).trans (if_neg (by simpa using hidle))
  refine Does.of_eq rfl (State.writing_of_accepts_idle h hw rfl rfl)
    (((State.becomes_switchFields ((s.withRequest v.toNat).answer .ok 0) v.toNat).put F.PROT_STATUS_SWITCH_PENDING 0 true (by decide) ?_).perm List.perm_append_comm)
  simp only [List.forall_mem_cons, List.not_mem_nil, false_implies, implies_true, and_true]
  exact ⟨Fld.key_ne_reg (by decide), Fld.key_ne_reg (by decide)⟩

theorem State.switchTry_of_none (h : s.switchReq = none) : s.switchTry = s := by rw [State.switchTry, h]

theorem State.switchTry_of_some {q : SwitchReq} (h : s.switchReq = some q) :
    s.switchTry = if s.switchDue q then s.switchNow q.path (!q.whenReady) else s := by rw [State.switchTry, h]

theorem State.switchDue_iff {q : SwitchReq} :
    s.switchDue q = true ↔ q.whenReady = false ∨ (if q.path = 0 then s.rd F.PROT_STATUS_PATH_A_TX 0 else s.rd F.PROT_STATUS_PATH_B_TX 0) = 2 ∨
      (q.since + 2500000 ≤ s.time ∧ (if q.path = 0 then s.rd F.PROT_STATUS_PATH_A_TX 0 else s.rd F.PROT_STATUS_PATH_B_TX 0) = 1) := by
  simp [State.switchDue, or_assoc]

/-- The new path is named and nothing pends any more; then the retransmission copies are replayed and the switch is announced. -/
theorem State.switchNow_eq (s : State) (x : Nat) (wait : Bool) :
    ∃ w, ({ s with switchReq := none, switchWait := wait && (s.readyPorts x).isEmpty } : State).Becomes w
        [(F.PROT_STATUS_SWITCH_PENDING, 0, 0), (F.PROT_STATUS_ACTIVE, 0, x % 2 ^ F.PROT_STATUS_ACTIVE.w)] false ∧
      s.switchNow x wait = (if s.rd F.PROT_STATUS_ACTIVE 0 = x then w
        else (List.range 24).foldl (fun z k => z.replay k (s.rd F.PROT_STATUS_ACTIVE 0)) w).event F.PROT_EVENT_SWITCH 0 := by
  refine ⟨_, ((State.Becomes.refl _ false).put F.PROT_STATUS_SWITCH_PENDING 0 false (by decide) (by simp)).wr F.PROT_STATUS_ACTIVE 0 x
    (by simpa using Fld.key_ne_lo (by decide)), ?_⟩
  unfold State.switchNow
  split
  next h => simp [h]
  next h => simp [h]

/-! ### Deadlines (R314, R320) -/

theorem exec_mergeDeadline_early (h : ¬ ∃ a, (s.protT t).arrivalOf seq.toNat = some a ∧ a + s.deltaNow t ≤ s.time) : exec (.mergeDeadline t seq) s = .next s := by
  show Host.Outcome.next _ = _
  split
  next a ha => rw [if_neg fun hd => h ⟨a, ha, hd⟩]
  · rfl

theorem exec_mergeDeadline_past (h : ∃ a, (s.protT t).arrivalOf seq.toNat = some a ∧ a + s.deltaNow t ≤ s.time) :
    exec (.mergeDeadline t seq) s = .next (s.unlessReset ((s.voteRx t).voteSlots t 1) fun u => u.deadline t seq.toNat) := by
  obtain ⟨a, ha, hd⟩ := h
  show Host.Outcome.next _ = _
  rw [ha]
  exact congrArg _ (if_pos hd)

theorem State.unlessReset_of_eq {w : State} (h : w.resets = s.resets) (f : State → State) : s.unlessReset w f = f w := if_pos h
theorem State.unlessReset_of_ne {w : State} (h : w.resets ≠ s.resets) (f : State → State) : s.unlessReset w f = w := if_neg h

/-- Nothing of SEQ `n` has come or is being decrypted, and no resend run names it: what Lossless asks for again (R320). -/
abbrev State.Lacks (u : State) (t : Fin 24) (n : Nat) : Prop :=
  (u.protT t).copiesOf n = [] ∧ (u.protT t).decrypting.map Prod.fst ≠ some n ∧ u.lossless t = true ∧ u.inRun t n = false

theorem State.deadline_of_still {n : Nat} (h : (n ≤ s.rxD t ∨ n ∈ (s.protT t).expired) ∨ (s.Lacks t n ∧ 16 ≤ (s.protT t).runs.length)) : s.deadline t n = s := by
  unfold State.deadline
  dsimp only
  rcases h with h | ⟨⟨hcopies, hdec, hll, hrun⟩, hfull⟩
  · rw [if_pos (by simpa using h)]
  · split
    · rfl
    · rw [if_pos (by simp [hcopies, hdec, hll, hrun, hfull])]

theorem State.deadline_of_passes {n : Nat} (hold : ¬ (n ≤ s.rxD t ∨ n ∈ (s.protT t).expired)) (hgo : ¬ (s.Lacks t n ∧ 16 ≤ (s.protT t).runs.length)) :
    s.deadline t n = ((fun w : State => if s.Lacks t n ∧ (s.protT t).gapAt n = none then w.missRunStart t n else w)
      (s.setProt t { s.protT t with expired := (s.protT t).expired ++ [n] })).mergeGo t := by
  have hrun : (s.setProt t { s.protT t with expired := (s.protT t).expired ++ [n] }).inRun t n = s.inRun t n := by
    simp [State.inRun, State.protT_setProt_self]
  have hll : (s.setProt t { s.protT t with expired := (s.protT t).expired ++ [n] }).lossless t = s.lossless t := rfl
  unfold State.deadline
  dsimp only
  rw [if_neg (by simpa using hold), if_neg (by simpa [State.Lacks, and_assoc] using hgo), hrun, hll]
  congr 1
  exact if_congr (by simp [State.Lacks, and_assoc]) rfl rfl

theorem exec_mergeDeadline_still (h : ∃ a, (s.protT t).arrivalOf seq.toNat = some a ∧ a + s.deltaNow t ≤ s.time) {u : State} (hu : u = (s.voteRx t).voteSlots t 1)
    (hstill : u.resets ≠ s.resets ∨ (seq.toNat ≤ u.rxD t ∨ seq.toNat ∈ (u.protT t).expired) ∨ (u.Lacks t seq.toNat ∧ 16 ≤ (u.protT t).runs.length)) :
    exec (.mergeDeadline t seq) s = .next u := by
  rw [exec_mergeDeadline_past h, ← hu]
  by_cases hr : u.resets = s.resets
  · rw [State.unlessReset_of_eq hr, State.deadline_of_still (hstill.resolve_left (not_not.2 hr))]
  · rw [State.unlessReset_of_ne hr]

/-! ### Spills and read-back (R315) -/

/-- The copy of a SEQ from a path that stands in a place of the merge. -/
def State.copyAt (s : State) (t : Fin 24) (seq : W64) (path : Fin 2) (place : CopyPlace) : Option Copy :=
  (s.protT t).copies.find? fun c => c.seq = seq.toNat && c.path = path.val && c.place = place

theorem exec_alignmentReadback_of_none (h : s.copyAt t seq path .stored = none) : exec (.alignmentReadback t seq path) s = .next s := by
  show execAlignmentReadback t seq path s = _
  unfold execAlignmentReadback
  rw [show (s.protT t).copies.find? _ = none from h]

theorem exec_alignmentReadback_of_some {c : Copy} (h : s.copyAt t seq path .stored = some c) :
    exec (.alignmentReadback t seq path) s = .next (if (s.readBack t c).2 then (s.readBack t c).1.mergeGo t else (s.readBack t c).1) := by
  show execAlignmentReadback t seq path s = _
  unfold execAlignmentReadback
  rw [show (s.protT t).copies.find? _ = some c from h]

theorem exec_alignmentSpill_of_none (h : s.copyAt t seq path .buffer = none) : exec (.alignmentSpill t seq path) s = .next s := by
  show execAlignmentSpill t seq path s = _
  unfold execAlignmentSpill
  dsimp only
  rw [show (s.protT t).copies.find? _ = none from h]

/-- The copy is noted as stored. -/
def State.spilt (s : State) (t : Fin 24) (c : Copy) : State :=
  s.setProt t { s.protT t with copies := (s.protT t).copies.map fun d => if d.seq = c.seq ∧ d.path = c.path then { d with place := .stored } else d }

/-- A copy whose 20 µs have passed goes to the store, or counts as missing where a word of it is lost. -/
def State.spill (s : State) (t : Fin 24) (c : Copy) : State :=
  let x := s.bufferTake t c
  if x.2 then x.1.mergeGo t
  else match x.1.mapsScan.holdStore .align t c.seq c.path c.bundle false with
    | some w => w.spilt t c
    | none => x.1.mapsScan

theorem exec_alignmentSpill_of_some {c : Copy} (h : s.copyAt t seq path .buffer = some c) :
    exec (.alignmentSpill t seq path) s = .next (if s.aligned t = true ∧ c.arrival + 50000 ≤ s.time ∧ (s.protT t).decrypting ≠ some (c.seq, c.path)
      then s.spill t c else s) := by
  show execAlignmentSpill t seq path s = _
  unfold execAlignmentSpill
  dsimp only
  rw [show (s.protT t).copies.find? _ = some c from h]
  refine congrArg Host.Outcome.next (if_congr ?_ ?_ rfl)
  · simp only [Bool.and_eq_true, decide_eq_true_eq, and_assoc]
  · cases hs : (s.bufferTake t c).1.mapsScan.holdStore .align t c.seq c.path c.bundle false with
    | none => simp only [State.spill, hs]
    | some w => simp only [State.spill, State.spilt, hs]

theorem State.spill_of_missing {c : Copy} (h : (s.bufferTake t c).2 = true) : s.spill t c = (s.bufferTake t c).1.mergeGo t := by
  rw [State.spill, if_pos h]

theorem State.spill_of_full {c : Copy} (h : (s.bufferTake t c).2 = false)
    (hs : (s.bufferTake t c).1.mapsScan.holdStore .align t c.seq c.path c.bundle false = none) : s.spill t c = (s.bufferTake t c).1.mapsScan := by
  rw [State.spill, if_neg (by simp [h]), hs]

theorem State.spill_of_stored {c : Copy} {w : State} (h : (s.bufferTake t c).2 = false)
    (hs : (s.bufferTake t c).1.mapsScan.holdStore .align t c.seq c.path c.bundle false = some w) : s.spill t c = w.spilt t c := by
  rw [State.spill, if_neg (by simp [h]), hs]

/-- A copy in the merge buffer is whole where no word of region 2 has inverted bits and no row of it is withheld. -/
theorem State.bufferTake_of_sound {c : Copy} (hm : ∀ e ∈ s.marks, e.region ≠ 2) (hw : ∀ e ∈ s.withheld, e.region ≠ 2) : (s.bufferTake t c).2 = false := by
  have hpath := s.sameWords_dataPath 121
  obtain ⟨u, hu, hread⟩ := State.spanTake_of_sound (hpath.sound (State.sound_of_region (first := (c.span t).1) (count := (c.span t).2) hm hw))
  have hresets : u.resets = s.resets := (hpath.trans hread.sameWords).resets
  rw [State.bufferTake, hu]
  simp [hresets]

/-! ### Acknowledgement (R317, R319) -/

/-- The number whose bit `i` below `n` says whether `p i` holds. -/
theorem testBit_foldl_range (p : Nat → Bool) (n : Nat) :
    (List.range n).foldl (fun a i => if p i then a + 2 ^ i else a) 0 < 2 ^ n ∧
      ∀ i < n, ((List.range n).foldl (fun a i => if p i then a + 2 ^ i else a) 0).testBit i = p i := by
  induction n with
  | zero => simp
  | succ n ih =>
    obtain ⟨hlt, hbit⟩ := ih
    rw [List.range_succ, List.foldl_append, List.foldl_cons, List.foldl_nil]
    set a := (List.range n).foldl (fun a i => if p i then a + 2 ^ i else a) 0
    have htop : a.testBit n = false := Nat.testBit_lt_two_pow hlt
    cases hp : p n with
    | false =>
      refine ⟨by rw [if_neg (by simp), pow_succ]; omega, fun i hi => ?_⟩
      rw [if_neg (by simp)]
      rcases Nat.lt_succ_iff_lt_or_eq.1 hi with hi | rfl
      · exact hbit i hi
      · rw [htop, hp]
    | true =>
      refine ⟨by rw [if_pos rfl, pow_succ]; omega, fun i hi => ?_⟩
      rw [if_pos rfl, Nat.add_comm]
      rcases Nat.lt_succ_iff_lt_or_eq.1 hi with hi | rfl
      · rw [Nat.testBit_two_pow_add_gt hi, hbit i hi]
      · rw [Nat.testBit_two_pow_add_eq, htop, hp]; rfl

theorem State.testBit_ackMapOf (i : Fin 64) : (s.ackMapOf t).testBit i = true ↔ ∃ c ∈ (s.protT t).copies, c.seq = s.rxD t + 2 + i.val := by
  have h := (testBit_foldl_range (fun i => (s.protT t).copies.any fun c => c.seq = s.rxD t + 2 + i) 64).2 i i.isLt
  unfold State.ackMapOf
  dsimp only
  rw [h]
  simp

theorem exec_ackTimer_idle (h : s.lossless t = false ∨ s.rxStateNow t ≠ 2 ∨ ¬ (s.protT t).ackAt + max 8 (s.rd F.PROT_LL_CFG_ACK_INT 0) * 2500 ≤ s.time) :
    exec (.ackTimer t) s = .next s := by
  refine congrArg _ (if_pos ?_)
  rw [Bool.or_eq_true, Bool.or_eq_true]
  rcases h with h | h | h
  · exact .inl (.inl (by rw [h]; rfl))
  · exact .inl (.inr (decide_eq_true h))
  · exact .inr (decide_eq_true (Nat.not_le.1 h))

theorem exec_ackTimer_ended (hl : s.lossless t = true) (hr : s.rxStateNow t = 2) (he : (s.protT t).ackAt + max 8 (s.rd F.PROT_LL_CFG_ACK_INT 0) * 2500 ≤ s.time) :
    exec (.ackTimer t) s = .next (
      if (s.protT t).lastAck ≠ some (s.rxD t, s.ackMapOf t) ∨ 63 ≤ (s.protT t).ackAge then
        (s.setProt t { s.protT t with ackAt := s.time, lastAck := some (s.rxD t, s.ackMapOf t), ackAge := 0 }).sendCtrl t 0x01 1
          (bytesBe 8 (s.rxD t) ++ bytesBe 8 (s.ackMapOf t))
      else s.setProt t { s.protT t with ackAt := s.time, ackAge := (s.protT t).ackAge + 1 }) := by
  refine congrArg _ (if_neg ?_)
  rw [Bool.or_eq_true, Bool.or_eq_true, hl]
  rintro ((h | h) | h)
  · exact absurd h (by decide)
  · exact of_decide_eq_true h hr
  · exact absurd he (Nat.not_le.2 (of_decide_eq_true h))

/-! ### Resend waits (R320) -/

theorem exec_resendWaitExpiry_of_none (h : ((s.protT t).runs.find? fun r => r.first = first.toNat) = none) : exec (.resendWaitExpiry t first) s = .next s := by
  show execResendWaitExpiry t first s = _
  unfold execResendWaitExpiry
  simp only [h]

theorem exec_resendWaitExpiry_of_some {r : ResendRun} (h : ((s.protT t).runs.find? fun r => r.first = first.toNat) = some r) :
    exec (.resendWaitExpiry t first) s = .next (if r.sentAt + max 1 (s.rd F.PROT_RESEND_WAIT_WAIT 0) * 2500 ≤ s.time then s.runAgain t r else s) := by
  show execResendWaitExpiry t first s = _
  unfold execResendWaitExpiry
  simp only [h]

theorem State.runAgain_of_tries {r : ResendRun} (h : r.tries < max 1 (s.rd F.PROT_LL_CFG_TRIES 0)) :
    s.runAgain t r = (groups (s.runMissing t r)).foldl (fun u g => u.sendResend t g.1 g.2)
      (s.setProt t { s.protT t with runs := (s.protT t).runs.map fun q => if q.first = r.first then { q with tries := q.tries + 1, sentAt := s.time } else q }) :=
  if_neg (Nat.not_le.2 h)

theorem State.runAgain_exhausted {r : ResendRun} (h : max 1 (s.rd F.PROT_LL_CFG_TRIES 0) ≤ r.tries) :
    s.runAgain t r = (((s.setProt t { s.protT t with runs := (s.protT t).runs.filter fun q => q.first ≠ r.first
                                                     gaps := (s.protT t).gaps ++ (groups (s.runMissing t r)).map fun g => ⟨g.1, g.2, 7⟩ }).event
      F.PROT_EVENT_RESEND_EXHAUSTED 0).mergeStatus t).mergeGo t := if_pos h

/-- An event of the protection unit sets its bit. -/
theorem State.becomes_event (s : State) (f : Fld) (i : Nat) (hw : f.w ≠ 0) (hf : eventRegs f.reg = false) : s.Becomes (s.event f i) [(f, i, 1)] true :=
  (State.Becomes.refl s true).event f i hw hf (by simp) (by simp)

/-! ### Ride-through and drain (R325 to R327) -/

theorem State.protCtlWrite_ride (s : State) :
    s.protCtlWrite 1 = ((List.range 24).foldl (fun u k => if u.on F.PROT_TUN_CFG_RIDE_EN k then u.rideEnter k else u) s, .ok) := by
  unfold State.protCtlWrite
  dsimp only
  rw [if_neg (by decide), if_pos (by decide)]

theorem State.protCtlWrite_endRide (s : State) : s.protCtlWrite 2 = ((List.range 24).foldl (fun u k => u.drainStart k) s, .ok) := by
  unfold State.protCtlWrite
  dsimp only
  rw [if_neg (by decide), if_neg (by decide), if_pos (by decide)]

theorem exec_rideCmd (h : s.Accepts ag .PROT_CTL 0 1) : exec (.rideCmd ag) s =
    .next (((List.range 24).foldl (fun u k => if u.on F.PROT_TUN_CFG_RIDE_EN k then u.rideEnter k else u) s).answer .ok 0).settle := by
  show Host.Outcome.next (s.writing ag .PROT_CTL 0 1 fun t => t.protCtlWrite 1) = _
  rw [State.writing_of_accepts h, State.protCtlWrite_ride]

theorem exec_endRide (h : s.Accepts ag .PROT_CTL 0 2) : exec (.endRide ag) s =
    .next (((List.range 24).foldl (fun u k => u.drainStart k) s).answer .ok 0).settle := by
  show Host.Outcome.next (s.writing ag .PROT_CTL 0 2 fun t => t.protCtlWrite 2) = _
  rw [State.writing_of_accepts h, State.protCtlWrite_endRide]

theorem State.rideEnter_of_on (h : s.on F.PROT_TUN_STATE_RIDE t = true) : s.rideEnter t = s := if_pos h

theorem State.becomes_rideEnter (h : s.on F.PROT_TUN_STATE_RIDE t = false) : ∃ d, s.Becomes (s.rideEnter t)
    [(F.PROT_TUN_STATE_RIDE, t.val, 1), (F.PROT_TUN_STATE_DRAIN, t.val, 0), (F.PROT_STATUS_RIDE, 0, 1), (F.PROT_STATUS_DRAIN, 0, d), (F.PROT_EVENT_RIDE, 0, 1)] true := by
  have hput := ((State.Becomes.refl s true).put F.PROT_TUN_STATE_RIDE t true (by decide) (by simp)).put F.PROT_TUN_STATE_DRAIN t false (by decide)
    (by simpa using Fld.key_ne_lo (by decide))
  set w := (s.put F.PROT_TUN_STATE_RIDE t true).put F.PROT_TUN_STATE_DRAIN t false
  have hride : ((List.range 24).any fun k => w.on F.PROT_TUN_STATE_RIDE k) = true := by
    refine List.any_eq_true.2 ⟨t, List.mem_range.2 t.isLt, ?_⟩
    have hread := hput.1 (F.PROT_TUN_STATE_RIDE, t.val, 1) (by simp)
    exact decide_eq_true (ne_of_eq_of_ne hread Nat.one_ne_zero)
  have hne : ∀ {f g : Fld} {j : Nat}, g.reg ≠ f.reg → g.key j ≠ f.key 0 := Fld.key_ne_reg
  have hstatus := (hput.put F.PROT_STATUS_RIDE 0 true (by decide) (by
    simp only [List.nil_append, List.cons_append, List.forall_mem_cons, List.not_mem_nil, false_implies, implies_true, and_true]
    exact ⟨hne (by decide), hne (by decide)⟩)).put F.PROT_STATUS_DRAIN 0 ((List.range 24).any fun k => w.on F.PROT_TUN_STATE_DRAIN k) (by decide) (by
    simp only [List.nil_append, List.cons_append, List.forall_mem_cons, List.not_mem_nil, false_implies, implies_true, and_true]
    exact ⟨hne (by decide), hne (by decide), Fld.key_ne_lo (by decide)⟩)
  have hevent := hstatus.event F.PROT_EVENT_RIDE 0 (by decide) (by decide) (by
    simp only [List.nil_append, List.cons_append, List.forall_mem_cons, List.not_mem_nil, false_implies, implies_true, and_true]
    exact ⟨hne (by decide), hne (by decide), hne (by decide), hne (by decide)⟩) (by
    simp only [List.nil_append, List.cons_append, List.forall_mem_cons, List.not_mem_nil, false_implies, implies_true, and_true]
    exact ⟨by decide, by decide, by decide, by decide⟩)
  have hu : s.rideEnter t = ((w.put F.PROT_STATUS_RIDE 0 true).put F.PROT_STATUS_DRAIN 0
      ((List.range 24).any fun k => w.on F.PROT_TUN_STATE_DRAIN k)).event F.PROT_EVENT_RIDE 0 := by
    rw [State.rideEnter, if_neg (by simp [h]), State.rideStatus]
    show ((w.put F.PROT_STATUS_RIDE 0 ((List.range 24).any fun k => w.on F.PROT_TUN_STATE_RIDE k)).put _ _ _).event _ _ = _
    rw [hride]
  rw [hu]
  exact ⟨if ((List.range 24).any fun k => w.on F.PROT_TUN_STATE_DRAIN k) = true then 1 else 0, hevent⟩

theorem exec_drainStart_of_not (h : s.anyTx = false ∨ s.on F.PROT_TUN_STATE_RIDE t = false) : exec (.drainStart t) s = .next s := by
  show execDrainStart t s = _
  unfold execDrainStart
  rcases h with h | h
  · rw [h]; rfl
  · rw [State.drainStart, h]; exact congrArg _ (ite_self s)

theorem doesThen_drainStart (ha : s.anyTx = true) (h : s.on F.PROT_TUN_STATE_RIDE t = true) :
    DoesThen (.drainStart t) s (fun w => (w.rideStatus.event F.PROT_EVENT_RIDE 0).drainNext t) fun w =>
      (s.setProt t { s.protT t with fellAt := s.time }).Becomes w [(F.PROT_TUN_STATE_RIDE, t.val, 0), (F.PROT_TUN_STATE_DRAIN, t.val, 1)] false := by
  have hput := ((State.Becomes.refl (s.setProt t { s.protT t with fellAt := s.time }) false).put F.PROT_TUN_STATE_RIDE t false (by decide) (by simp)).put
    F.PROT_TUN_STATE_DRAIN t true (by decide) (by simpa using Fld.key_ne_lo (by decide))
  refine ⟨_, hput, ?_⟩
  show execDrainStart t s = _
  rw [execDrainStart, if_pos ha, State.drainStart, if_pos h]

/-- Drain reads the oldest SEQ of the backlog while its copy is not gone (R327). -/
theorem State.drainNext_of_copy {w : State} {n : Nat} {rest : List Nat} {h : Held} (hd : w.on F.PROT_TUN_STATE_DRAIN t = true)
    (hr : ∀ r ∈ w.heldReads, r.kind = .ride → r.tunnel ≠ t.val) (hq : (w.protT t).sendQ = []) (hb : (w.protT t).backlog = n :: rest)
    (hc : w.rideCopy t n = some h) (hl : w.copyLost h ≠ 2) : w.drainNext t = w.readCopy h := by
  have hgone : w.rideGone t n = false := by rw [State.rideGone, hc]; exact decide_eq_false hl
  have hnone : (w.heldReads.any fun r => r.kind = .ride && r.tunnel = t.val) = false := by simpa using hr
  unfold State.drainNext
  rw [if_neg (by rw [hd, hnone, hq]; decide), hb, List.takeWhile_cons, hgone]
  simp only [Bool.false_eq_true, if_false, List.isEmpty_nil, if_true, hb, hc]

theorem State.stalls_iff : (s.on F.PROT_TUN_STATE_DRAIN t && !(s.protT t).backlog.isEmpty && decide ((s.protT t).fellAt + 250000000 ≤ s.time)) = true ↔
    s.on F.PROT_TUN_STATE_DRAIN t = true ∧ (s.protT t).backlog ≠ [] ∧ (s.protT t).fellAt + 250000000 ≤ s.time := by
  rw [Bool.and_eq_true, Bool.and_eq_true, decide_eq_true_eq, Bool.not_eq_true', List.isEmpty_eq_false_iff, and_assoc]

theorem exec_drainStall_of_stalls (h : s.on F.PROT_TUN_STATE_DRAIN t = true ∧ (s.protT t).backlog ≠ [] ∧ (s.protT t).fellAt + 250000000 ≤ s.time) :
    exec (.drainStall t) s = .next (s.event F.PROT_EVENT_DRAIN_STALL 0) := congrArg _ (if_pos (State.stalls_iff.2 h))

theorem exec_drainStall_of_not (h : ¬ (s.on F.PROT_TUN_STATE_DRAIN t = true ∧ (s.protT t).backlog ≠ [] ∧ (s.protT t).fellAt + 250000000 ≤ s.time)) :
    exec (.drainStall t) s = .next s := congrArg _ (if_neg fun hs => h (State.stalls_iff.1 hs))

/-! ### A budget commit (R26) -/

theorem State.commit_of_fits {w : State} (h : w.budgetOk = true ∨ (w.holdCharge ≤ s.holdCharge ∧ w.budget = s.budget)) : s.commit w = (w, .ok) :=
  if_pos (by simpa using h)

theorem State.commit_of_not_fits {w : State} (h : ¬ (w.budgetOk = true ∨ (w.holdCharge ≤ s.holdCharge ∧ w.budget = s.budget))) : s.commit w = (s, .refusedBudget) :=
  if_neg (by simpa using h)

end Sys2Proof.Machine
end

section
/-!
PROOFS. O45: the protection unit's commands, put together.
-/

namespace Sys2Proof.Machine

variable {s : State} {ag : Agent} {t : Fin 24} {v : W32} {seq first : W64} {path : Fin 2}

/-- What a mode write does (R300). -/
theorem exec_protModeWrite_cases (h : s.Accepts ag .PROT_CFG 0 v.toNat) :
    let m := F.PROT_CFG_MODE.of v.toNat
    let w := (s.withMode v.toNat).holdUpdate
    let fits := w.budgetOk = true ∨ (w.holdCharge ≤ s.holdCharge ∧ w.budget = s.budget)
    (m = 3 → exec (.protModeWrite ag v) s = .next (s.answer .refusedState 0)) ∧
    (m ≠ 3 → (fits → exec (.protModeWrite ag v) s = .next ((w.answer .ok 0).settle)) ∧ (¬ fits → exec (.protModeWrite ag v) s = .next (s.answer .refusedBudget 0))) := by
  intro m w fits
  rw [exec_protModeWrite h]
  refine ⟨fun hm => ?_, fun hm => ⟨fun hf => ?_, fun hf => ?_⟩⟩
  · rw [show s.protCfgWrite v.toNat = (s, .refusedState) from if_pos hm, State.settle_answer_of_accepts h]
  · rw [State.protCfgWrite_eq hm, State.commit_of_fits hf]
  · rw [State.protCfgWrite_eq hm, State.commit_of_not_fits hf, State.settle_answer_of_accepts h]

/-- A pending switch takes effect when it may (R304 to R306). -/
theorem doesThen_switch {q : SwitchReq} (hq : s.switchReq = some q) (hdue : s.switchDue q = true) {c : Instr} (hc : exec c s = .next s.switchTry) :
    DoesThen c s
      (fun w => (if s.rd F.PROT_STATUS_ACTIVE 0 = q.path then w else (List.range 24).foldl (fun z k => z.replay k (s.rd F.PROT_STATUS_ACTIVE 0)) w).event F.PROT_EVENT_SWITCH 0)
      fun w => ({ s with switchReq := none, switchWait := !q.whenReady && (s.readyPorts q.path).isEmpty } : State).Becomes w
        [(F.PROT_STATUS_SWITCH_PENDING, 0, 0), (F.PROT_STATUS_ACTIVE, 0, q.path % 2 ^ F.PROT_STATUS_ACTIVE.w)] false := by
  obtain ⟨w, hw, hnow⟩ := s.switchNow_eq q.path (!q.whenReady)
  rw [State.switchTry_of_some hq, if_pos hdue, hnow] at hc
  exact ⟨w, hw, hc⟩

theorem exec_alignmentSpill_of_not_due {c : Copy} (h : s.copyAt t seq path .buffer = some c)
    (hd : ¬ (s.aligned t = true ∧ c.arrival + 50000 ≤ s.time ∧ (s.protT t).decrypting ≠ some (c.seq, c.path))) : exec (.alignmentSpill t seq path) s = .next s := by
  rw [exec_alignmentSpill_of_some h, if_neg hd]

theorem exec_alignmentSpill_of_due {c : Copy} (h : s.copyAt t seq path .buffer = some c)
    (hd : s.aligned t = true ∧ c.arrival + 50000 ≤ s.time ∧ (s.protT t).decrypting ≠ some (c.seq, c.path)) : exec (.alignmentSpill t seq path) s = .next (s.spill t c) := by
  rw [exec_alignmentSpill_of_some h, if_pos hd]

/-- Settles O45, command by command, each from its lemmas above. -/
theorem protectionAndMerge : Obligations.ProtectionAndMerge := by
  intro s ag t v seq first path p mode spot data
  refine ⟨fun hc h => exec_bundlePlace_of_none hc h, fun b hb => ⟨fun hp => exec_bundlePlace_of_no_port hb hp, fun hp => ?_⟩, fun b => ?_, fun hacc => ?_, fun hacc => ?_,
    fun hq => ?_, fun q hq => ?_, ?_, ?_, ?_, exec_rideCmd, exec_endRide, fun w => ?_, exec_drainStart_of_not, doesThen_drainStart,
    fun w n rest h hd hr hs hb hc hl => State.drainNext_of_copy hd hr hs hb hc hl, ?_, exec_drainStall_of_not⟩
  case refine_1 =>
    rw [exec_bundlePlace_of_ports hb hp]
    exact ⟨fun hc => by rw [State.withPlaced_of_ctrl hc], fun hc hr => by rw [State.withPlaced_of_resend hc hr], fun hc hr => by rw [State.withPlaced_of_send hc hr]⟩
  case refine_2 =>
    obtain ⟨htake, hroles, hbays⟩ := s.placesOk_placement t b
    exact ⟨htake, hroles, hbays, State.length_placement_le⟩
  case refine_3 =>
    obtain ⟨hbad, hgood⟩ := exec_protModeWrite_cases hacc
    exact ⟨hbad, fun hm => ⟨_, s.becomes_withMode v.toNat, hgood hm⟩⟩
  case refine_4 => exact ⟨exec_switchRequest_of_mode hacc, fun hm ⟨hq, ha⟩ => does_switchRequest_of_idle hacc hm hq ha, does_switchRequest_pending hacc⟩
  case refine_5 => exact ⟨congrArg _ (State.switchTry_of_none hq), congrArg _ (State.switchTry_of_none hq)⟩
  case refine_6 =>
    refine ⟨fun hmay => ?_, fun hnot => ?_⟩
    · exact ⟨doesThen_switch hq (State.switchDue_iff.2 hmay) rfl, doesThen_switch hq (State.switchDue_iff.2 hmay) rfl⟩
    · have hs : s.switchTry = s := by rw [State.switchTry_of_some hq, if_neg fun hd => hnot (State.switchDue_iff.1 hd)]
      exact ⟨congrArg _ hs, congrArg _ hs⟩
  case refine_7 =>
    refine ⟨exec_mergeDeadline_early, fun hpast h => exec_mergeDeadline_still hpast rfl h, fun hpast hr hold hgo => ⟨_, rfl, ?_⟩, exec_alignmentReadback_of_none,
      fun c hc => ⟨fun h => ?_, fun h => ?_⟩, exec_alignmentSpill_of_none, fun c hc => ⟨State.bufferTake_of_sound, exec_alignmentSpill_of_not_due hc, fun hd hx => ?_,
        fun hd hx hs => ?_, fun w hd hx hs => ?_⟩⟩
    · rw [exec_mergeDeadline_past hpast, State.unlessReset_of_eq hr, State.deadline_of_passes hold hgo]
    · rw [exec_alignmentReadback_of_some hc, if_pos h]
    · rw [exec_alignmentReadback_of_some hc, if_neg (by simp [h])]
    · rw [exec_alignmentSpill_of_due hc hd, State.spill_of_missing hx]
    · rw [exec_alignmentSpill_of_due hc hd, State.spill_of_full hx hs]
    · rw [exec_alignmentSpill_of_due hc hd, State.spill_of_stored hx hs]; rfl
  case refine_8 =>
    refine ⟨exec_ackTimer_idle, fun hl hr he => ⟨fun h => ?_, fun hsame hage => ?_, State.testBit_ackMapOf⟩⟩
    · rw [exec_ackTimer_ended hl hr he, if_pos h]
    · rw [exec_ackTimer_ended hl hr he, if_neg (not_or.2 ⟨not_not.2 hsame, Nat.not_le.2 hage⟩)]
  case refine_9 =>
    refine ⟨exec_resendWaitExpiry_of_none, fun r hr => ⟨fun hw => ?_, fun hw htries => ⟨_, rfl, ?_⟩, fun hw htries => ⟨_, State.becomes_event _ _ 0 (by decide) (by decide), ?_⟩⟩⟩
    · rw [exec_resendWaitExpiry_of_some hr, if_neg (Nat.not_le.2 hw)]
    · rw [exec_resendWaitExpiry_of_some hr, if_pos hw, State.runAgain_of_tries htries]
    · rw [exec_resendWaitExpiry_of_some hr, if_pos hw, State.runAgain_exhausted htries]
  case refine_10 =>
    refine ⟨fun h => ?_, State.rideEnter_of_on⟩
    obtain ⟨d, hread, -⟩ := State.becomes_rideEnter h
    exact ⟨hread (F.PROT_TUN_STATE_RIDE, t.val, 1) (by simp), hread (F.PROT_TUN_STATE_DRAIN, t.val, 0) (by simp), hread (F.PROT_STATUS_RIDE, 0, 1) (by simp)⟩
  case refine_11 => exact fun h => ⟨_, exec_drainStall_of_stalls h, State.becomes_event _ _ 0 (by decide) (by decide)⟩

end Sys2Proof.Machine
end

section
/-!
PROOFS. What works beside the key unit leaves of it (R248 to R254): descriptors, staged words and access mode stay unless a chip reset clears them, and, as is
asked, no key word or copy of a descriptor gets inverted bits, or the transmit queues stay.
-/

namespace Sys2Proof.Machine

variable {s t u : State} {words : Bool}

/-- The registers of the key unit and of the access mode. -/
def keyReg (r : Reg) : Bool :=
  match r with
  | .KEY_DESC | .KEY_STAGE | .SYS_ACCESS_MODE => true
  | _ => false

/-- `t` follows from `s` by work beside the key unit. With `words` the inverted bits of slots and of critical words are followed, else the transmit queues. -/
structure State.Quiet (words : Bool) (s t : State) : Prop where
  resets : s.resets ≤ t.resets
  kept : t.resets = s.resets → ∀ g j, keyReg g.reg = true → t.rd g j = s.rd g j
  state : ∀ k, t.rd F.KEY_DESC_STATE k = s.rd F.KEY_DESC_STATE k ∨ t.rd F.KEY_DESC_STATE k = 0
  armed : t.rd F.MEMP_STATUS_ARMED 0 = s.rd F.MEMP_STATUS_ARMED 0 ∨ t.rd F.MEMP_STATUS_ARMED 0 = 0
  withheld : ∀ a ∈ t.withheld, a ∈ s.withheld
  marks : words = true → ∀ m ∈ t.marks, m.region = 8 ∨ m.region = 10 → m ∈ s.marks
  tunTx : words = false → t.resets = s.resets → t.tunTx = s.tunTx

theorem State.Quiet.refl (s : State) : s.Quiet words s := ⟨le_rfl, fun _ _ _ _ => rfl, fun _ => .inl rfl, .inl rfl, fun _ h => h, fun _ _ h _ => h, fun _ _ => rfl⟩

theorem State.Quiet.trans (h : s.Quiet words t) (k : t.Quiet words u) : s.Quiet words u := by
  have mid : u.resets = s.resets → t.resets = s.resets ∧ u.resets = t.resets := fun e => by have := h.resets; have := k.resets; omega
  refine ⟨h.resets.trans k.resets, fun e g j hg => ?_, fun j => ?_, ?_, fun a ha => h.withheld a (k.withheld a ha),
    fun hw m hm hr => h.marks hw m (k.marks hw m hm hr) hr, fun hw e => ?_⟩
  · exact (k.kept (mid e).2 g j hg).trans (h.kept (mid e).1 g j hg)
  · exact (k.state j).elim (fun e => (h.state j).elim (fun e' => .inl (e.trans e')) fun e' => .inr (e.trans e')) .inr
  · exact k.armed.elim (fun e => h.armed.elim (fun e' => .inl (e.trans e')) fun e' => .inr (e.trans e')) .inr
  · exact (k.tunTx hw (mid e).2).trans (h.tunTx hw (mid e).1)

theorem State.Quiet.foldl {α : Type} {f : State → α → State} (hf : ∀ (t : State) x, t.Quiet words (f t x)) (l : List α) : s.Quiet words (l.foldl f s) :=
  List.foldlRecOn (motive := fun t => s.Quiet words t) l f (.refl s) fun t h x _ => h.trans (hf t x)

theorem State.Quiet.ite {c : Prop} {_ : Decidable c} (h : s.Quiet words t) (k : s.Quiet words u) : s.Quiet words (if c then t else u) := by
  split
  · exact h
  · exact k

/-! ### Single updates -/

/-- An update that leaves registers, inverted bits, withheld rows, the count of resets and the transmit queues. -/
theorem State.Quiet.of_fields (hr : t.regs = s.regs) (hm : t.marks = s.marks) (hw : t.withheld = s.withheld) (hn : t.resets = s.resets) (ht : t.tunTx = s.tunTx) :
    s.Quiet words t := by
  have hrd : ∀ g j, t.rd g j = s.rd g j := fun g j => by rw [State.rd, State.rd, hr]
  exact ⟨hn.ge, fun _ g j _ => hrd g j, fun k => .inl (hrd _ k), .inl (hrd _ 0), fun a h => hw ▸ h, fun _ m h _ => hm ▸ h, fun _ _ => ht⟩

theorem State.quiet_st (sp : Space) (i v : Nat) : s.Quiet words (s.st sp i v) := .of_fields rfl rfl rfl rfl rfl

/-- A field that is neither of the key unit nor the arming of an injection. -/
def Fld.beside (f : Fld) : Bool := !keyReg f.reg && (decide (f.reg ≠ .MEMP_STATUS) || decide (f.lo ≠ 0))

theorem State.Quiet.wr {f : Fld} (hf : f.beside = true) (i v : Nat) : s.Quiet words (s.wr f i v) := by
  rw [Fld.beside, Bool.and_eq_true, Bool.not_eq_true', Bool.or_eq_true, decide_eq_true_eq, decide_eq_true_eq] at hf
  obtain ⟨hkey, harm⟩ := hf
  have hne : ∀ g j, keyReg g.reg = true → (s.wr f i v).rd g j = s.rd g j := fun g j hg =>
    State.rd_wr_ne _ _ (Fld.key_ne_reg fun e => by rw [e, hkey] at hg; cases hg)
  have harmed : (s.wr f i v).rd F.MEMP_STATUS_ARMED 0 = s.rd F.MEMP_STATUS_ARMED 0 :=
    State.rd_wr_ne _ _ (harm.elim (fun h => Fld.key_ne_reg h.symm) fun h => Fld.key_ne_lo h.symm)
  exact ⟨le_rfl, fun _ => hne, fun k => .inl (hne F.KEY_DESC_STATE k rfl), .inl harmed, fun _ h => h, fun _ _ h _ => h, fun _ _ => rfl⟩

theorem State.Quiet.put {f : Fld} (hf : f.beside = true) (i : Nat) (b : Bool) : s.Quiet words (s.put f i b) := .wr hf i _
theorem State.Quiet.bump {f : Fld} (hf : f.beside = true) (i n : Nat) : s.Quiet words (s.bump f i n) := .wr hf i _

theorem keyReg_of_eventRegs {r : Reg} (h : keyReg r = true) : eventRegs r = false := by
  unfold keyReg at h
  split at h
  · rfl
  · rfl
  · rfl
  · cases h

theorem State.Counted.quiet (h : s.Counted t) : s.Quiet words t := by
  obtain ⟨⟨_, he⟩, hrd⟩ := h
  exact ⟨(congrArg State.resets he :).ge, fun _ g j hg => hrd g j (keyReg_of_eventRegs hg), fun k => .inl (hrd _ k rfl), .inl (hrd _ 0 rfl),
    fun a ha => (congrArg State.withheld he :) ▸ ha, fun _ m hm _ => (congrArg State.marks he :) ▸ hm, fun _ _ => (congrArg State.tunTx he :)⟩

theorem State.quiet_perf (ev k : Nat) : s.Quiet words (s.perf ev k) := (State.Counted.perf s ev k).quiet

theorem State.quiet_event {f : Fld} (hf : f.beside = true) (i : Nat) : s.Quiet words (s.event f i) :=
  (State.Quiet.put hf i true).trans (State.Counted.levelEdge ..).quiet

/-- A copy of a word takes inverted bits: with `words`, none, or in another region than those of slots and critical words. -/
theorem State.quiet_setMarkOn {region word copy dx cx base : Nat} (h : words = true → (dx = 0 ∧ cx = 0 ∧ base = 0) ∨ (region ≠ 8 ∧ region ≠ 10)) :
    s.Quiet words (s.setMarkOn region word copy dx cx base) := by
  refine ⟨le_rfl, fun _ _ _ _ => rfl, fun _ => .inl rfl, .inl rfl, fun _ h => h, fun hw m hm hr => ?_, fun _ _ => rfl⟩
  unfold State.setMarkOn at hm
  dsimp only at hm
  split at hm
  · exact List.mem_of_mem_filter hm
  · rcases List.mem_append.1 hm with hm | hm
    · exact List.mem_of_mem_filter hm
    · obtain rfl := List.mem_singleton.1 hm
      rcases h hw with h | ⟨h8, h10⟩
      · contradiction
      · exact absurd hr (not_or.2 ⟨h8, h10⟩)

/-! ### Corrections (R422 to R424) -/

theorem State.quiet_memLog (e : LogRec) : s.Quiet words (s.memLog e) := by
  unfold State.memLog
  split
  · exact .of_fields rfl rfl rfl rfl rfl
  · exact .bump rfl _ _

theorem State.quiet_takeSpare (region word : Nat) : s.Quiet words (s.takeSpare region word) :=
  (State.Quiet.wr (f := F.MEMP_REG_STATUS_SPARES_LEFT) rfl region (s.rd F.MEMP_REG_STATUS_SPARES_LEFT region - 1)).trans
    ⟨le_rfl, fun _ _ _ _ => rfl, fun _ => .inl rfl, .inl rfl, fun _ h => h, fun _ _ h _ => List.mem_of_mem_filter h, fun _ _ => rfl⟩

theorem State.quiet_hardError (region word copy bit : Nat) : s.Quiet words (s.hardError region word copy bit).1 := by
  unfold State.hardError
  dsimp only
  refine .trans ((State.Quiet.bump (f := F.MEMP_REG_CNT_HARD) rfl region 1).trans (State.quiet_memLog _)) (.ite ?_ (State.quiet_memLog _))
  exact (State.quiet_takeSpare region word).trans (State.quiet_memLog _)

theorem State.quiet_correctionCounted (region : Nat) :
    s.Quiet words (if region = 10 then s else (s.bump F.MEMP_REG_CNT_CORRECTED region 1).perf (0x240 + region) 1) :=
  .ite (.refl s) ((State.Quiet.bump (f := F.MEMP_REG_CNT_CORRECTED) rfl region 1).trans (State.quiet_perf _ _))

/-- With `words`, the word reads as it was written after the correction, or is of another region. -/
theorem State.quiet_correction {region word copy bit base : Nat} (h : words = true → base = 0 ∨ (region ≠ 8 ∧ region ≠ 10)) :
    s.Quiet words (s.correction region word copy bit base).1 := by
  have hmark : s.Quiet words ((s.setMarkOn region word copy 0 0 base).memLog ⟨word, 1, region, bit, copy⟩) :=
    (State.quiet_setMarkOn fun hw => (h hw).imp_left fun hb => ⟨rfl, rfl, hb⟩).trans (State.quiet_memLog _)
  have hcount := hmark.trans (State.quiet_correctionCounted region)
  unfold State.correction
  dsimp only
  refine hcount.trans ?_
  generalize (if region = 10 then (_ : State) else _) = counted
  split
  · refine .trans ?_ (State.quiet_hardError region word copy bit)
    exact .of_fields rfl rfl rfl rfl rfl
  · exact .of_fields rfl rfl rfl rfl rfl

theorem State.quiet_drawn : s.Quiet words s.drawn := .of_fields rfl rfl rfl rfl rfl

theorem State.quiet_miscorrection {region word copy v x : Nat} (h : words = true → Nat.xor v x = 0 ∨ (region ≠ 8 ∧ region ≠ 10)) :
    s.Quiet words (s.miscorrection region word copy v x).1 := State.quiet_drawn.trans (State.quiet_correction h)

theorem State.quiet_trackRead (region word : Nat) : s.Quiet words (s.trackRead region word) := .of_fields rfl rfl rfl rfl rfl

theorem State.quiet_rawCapture (region word copy v dx cx : Nat) : s.Quiet words (s.rawCapture region word copy v dx cx) := by
  unfold State.rawCapture
  dsimp only
  exact .ite ((State.Quiet.wr (f := F.MEMP_RAW_LO_DATA) rfl _ _).trans ((State.Quiet.wr (f := F.MEMP_RAW_HI_DATA) rfl _ _).trans (.wr rfl _ _))) (.refl s)

/-! ### Reads and writes of words (R418 to R429) -/

theorem State.quiet_uncorrectable {region word kind : Nat} (h : words = true → region ≠ 8 ∧ region ≠ 10) : s.Quiet words (s.uncorrectable region word kind).1 := by
  unfold State.uncorrectable State.setPoison
  dsimp only
  exact (State.quiet_setMarkOn fun hw => .inr (h hw)).trans ((State.Quiet.bump (f := F.MEMP_REG_CNT_UNCORRECTABLE) rfl _ _).trans ((State.quiet_memLog _).trans (State.quiet_perf _ _)))

theorem State.quiet_memReadL {region word : Nat} (h : words = true → region ≠ 8 ∧ region ≠ 10) (v : Nat) : s.Quiet words (s.memReadL region word v).1 := by
  unfold State.memReadL
  split
  · exact .refl s
  split
  · exact .refl s
  dsimp only
  have hread := (State.quiet_trackRead (s := s) (words := words) region word).trans
    (State.quiet_rawCapture region word 0 v (s.markOf region word 0).1 (s.markOf region word 0).2)
  split
  · exact hread
  · exact hread.trans (State.quiet_correction fun hw => .inr (h hw))
  · exact hread.trans (State.quiet_uncorrectable h)
  · dsimp only
    exact hread.trans ((State.quiet_memLog _).trans (State.quiet_perf _ _))
  · exact hread.trans (State.quiet_miscorrection fun hw => .inr (h hw))
  · exact hread

theorem State.quiet_spanWord {region word : Nat} (h : words = true → region ≠ 8 ∧ region ≠ 10) (value : Option Nat) :
    s.Quiet words (s.spanWord region word value).1 := by
  cases value with
  | some v => exact State.quiet_memReadL h v
  | none => exact State.quiet_drawn.trans (State.quiet_memReadL h _)

/-- A pass over words in which every step leaves the key unit. -/
theorem State.Quiet.foldlFst {α β : Type} {f : State × β → α → State × β} (hf : ∀ (a : State × β) x, a.1.Quiet words (f a x).1) (l : List α) (a : State × β) :
    a.1.Quiet words (l.foldl f a).1 :=
  List.foldlRecOn (motive := fun c => a.1.Quiet words c.1) l f (.refl a.1) fun c h x _ => h.trans (hf c x)

theorem State.quiet_spanRead {region first count : Nat} (h : words = true → region ≠ 8 ∧ region ≠ 10) (value : Nat → Option Nat) :
    s.Quiet words (s.spanRead region first count value).1 := by
  unfold State.spanRead
  dsimp only
  refine State.Quiet.foldlFst (fun a w => ?_) _ (s, false, [])
  exact State.quiet_spanWord h (value w)

/-- A write in another region leaves its word as written, or with the bits of an armed injection. -/
theorem State.quiet_writeMark {region word : Nat} (h : region ≠ 8 ∧ region ≠ 10) : s.Quiet words (s.writeMark region word) := by
  have hmark : ∀ {dx cx base copy}, s.Quiet words (s.setMarkOn region word copy dx cx base) := State.quiet_setMarkOn fun _ => .inr h
  have harm : ∀ u : State, u.Quiet words (u.put F.MEMP_STATUS_ARMED 0 false) := fun u => by
    have hrd : ∀ g j, g.key j ≠ F.MEMP_STATUS_ARMED.key 0 → (u.put F.MEMP_STATUS_ARMED 0 false).rd g j = u.rd g j := fun g j hk => State.rd_wr_ne _ _ hk
    refine ⟨le_rfl, fun _ g j hg => hrd g j (Fld.key_ne_reg fun e => by rw [e] at hg; cases hg), fun k => .inl (hrd _ k (Fld.key_ne_reg (by decide))),
      .inr (State.rd_wr_self ..), fun _ h => h, fun _ _ h _ => h, fun _ _ => rfl⟩
  unfold State.writeMark
  dsimp only
  split
  · refine .trans ?_ ((harm _).trans (.put (f := F.MEMP_INJECT_CTL_ARM) rfl 0 false))
    exact .ite hmark hmark
  · exact hmark

theorem State.quiet_spanWrite {region first count : Nat} (h : region ≠ 8 ∧ region ≠ 10) : s.Quiet words (s.spanWrite region first count) := by
  unfold State.spanWrite
  refine .trans (.ite ?_ (.refl s)) (.foldl (fun t w => .ite (.refl t) (State.quiet_writeMark h)) _)
  unfold State.wrote
  exact .ite (.refl s) (.of_fields rfl rfl rfl rfl rfl)

end Sys2Proof.Machine
end

section
/-!
PROOFS. Votes, error lines and chip resets beside the key unit (R428, R433 to R441, R518): a line whose source has no block reset leaves it, and a chip reset
clears it.
-/

namespace Sys2Proof.Machine

variable {s t u : State} {words : Bool}

/-! ### Votes of critical words (R428) -/

/-- A critical word that is no descriptor is stored beside the key unit. -/
theorem State.quiet_putWord {r : Reg} (h : r.fields.all Fld.beside = true) (i v : Nat) : s.Quiet words (s.putWord r i v) :=
  List.foldlRecOn (motive := fun t => s.Quiet words t) _ _ (.refl s) fun _ ht f hf => ht.trans (.wr (List.all_eq_true.1 h f hf) i _)

theorem State.quiet_tvStore {word : Nat} (h : word < 72 ∨ 200 ≤ word) (v : Nat) : s.Quiet words (s.tvStore word v) := by
  unfold State.tvStore
  split
  · exact (State.quiet_putWord (by decide) _ _).trans (State.quiet_putWord (by decide) _ _)
  split
  · exact .ite ((State.quiet_putWord (by decide) _ _).trans (State.quiet_putWord (by decide) _ _))
      ((State.quiet_putWord (by decide) _ _).trans (State.quiet_putWord (by decide) _ _))
  split
  · omega
  split
  · exact State.quiet_putWord (by decide) _ _
  split
  · exact State.quiet_putWord (by decide) _ _
  · have hptr : s.Quiet words { s with ptrBank := v % 2, ptrGen := v / 2 ^ 32 } := .of_fields rfl rfl rfl rfl rfl
    exact hptr.trans ((State.Quiet.wr (f := F.SYS_IMAGE_PTR_LO_BANK) rfl _ _).trans (.wr rfl _ _))

theorem State.quiet_setMark_clear (region word copy : Nat) : s.Quiet words (s.setMark region word copy 0 0) := State.quiet_setMarkOn fun _ => .inl ⟨rfl, rfl, rfl⟩

theorem State.quiet_tvCopy (s0 : State) (word c w : Nat) : s.Quiet words (s.tvCopy s0 word c w).1 := by
  unfold State.tvCopy
  dsimp only
  split
  · split
    · exact State.quiet_correction fun _ => .inl rfl
    · exact State.quiet_miscorrection fun _ => .inl rfl
    · exact .ite (.refl s) (State.quiet_setMark_clear 10 word c)
  · dsimp only
    exact (State.quiet_setMark_clear 10 word c).trans
      ((State.Quiet.bump (f := F.MEMP_REG_CNT_CORRECTED) rfl _ _).trans ((State.quiet_memLog _).trans (State.quiet_perf _ _)))

/-- The state in which a vote compares the copies of a word. -/
def State.voteRead (s : State) (word : Nat) : State := (s.tvRaw word).trackRead 10 word

theorem State.quiet_voteRead (word : Nat) : s.Quiet words (s.voteRead word) := (State.quiet_rawCapture ..).trans (State.quiet_trackRead 10 word)

/-- A vote stores the value the copies agree on and mends them, or applies the safe value. -/
theorem State.tvVoteL_cases (s : State) (word : Nat) (safe : State → State) :
    (∃ w, (s.voteRead word).tvVoted word = some w ∧
      (if w = (s.voteRead word).tvValue word then s.voteRead word else (s.voteRead word).tvStore word w).Quiet words (s.tvVoteL word safe).1) ∨
    (s.voteRead word).tvVoted word = none ∧ ∃ u, s.Quiet words u ∧ (s.tvVoteL word safe).1 = safe u := by
  cases hv : (s.voteRead word).tvVoted word with
  | some w =>
    have hL : s.tvVoteL word safe = [1, 2, 3].foldl (fun (a : State × List Line) c => let x := a.1.tvCopy (s.voteRead word) word c w; (x.1, a.2 ++ x.2))
        (if w = (s.voteRead word).tvValue word then s.voteRead word else (s.voteRead word).tvStore word w, []) := by
      unfold State.tvVoteL
      dsimp only
      rw [← State.voteRead, hv]
    rw [hL]
    refine .inl ⟨w, rfl, .foldlFst (fun a c => ?_) _ (_, [])⟩
    exact State.quiet_tvCopy (s.voteRead word) word c w
  | none =>
    have hL : (s.tvVoteL word safe).1 = safe ((((s.voteRead word).bump F.MEMP_REG_CNT_UNCORRECTABLE 10 1).memLog ⟨word, 9, 10, 0xFF, 0⟩).perf 0x25A 1) := by
      unfold State.tvVoteL
      dsimp only
      rw [← State.voteRead, hv]
    rw [hL]
    exact .inr ⟨rfl, _, (State.quiet_voteRead word).trans ((State.Quiet.bump (f := F.MEMP_REG_CNT_UNCORRECTABLE) rfl 10 1).trans
      ((State.quiet_memLog ⟨word, 9, 10, 0xFF, 0⟩).trans (State.quiet_perf 0x25A 1))), rfl⟩

theorem State.quiet_tvVoteL {word : Nat} (h : word < 72 ∨ 200 ≤ word) {safe : State → State} (hs : ∀ u : State, u.Quiet words (safe u)) :
    s.Quiet words (s.tvVoteL word safe).1 := by
  rcases s.tvVoteL_cases (words := words) word safe with ⟨w, -, hw⟩ | ⟨-, u, hu, he⟩
  · exact (State.quiet_voteRead word).trans (.trans (.ite (.refl _) (State.quiet_tvStore h w)) hw)
  · exact he ▸ hu.trans (hs u)

/-! ### The lines that reading words raises -/

/-- Lines of sources without a block reset. -/
structure MemLines (l : List Line) : Prop where
  noReset : ∀ e ∈ l, hasBlockReset e.1 = false

theorem MemLines.nil : MemLines [] := ⟨fun _ h => by cases h⟩
theorem MemLines.one {e : Line} (h : hasBlockReset e.1 = false) : MemLines [e] := ⟨fun _ hd => List.mem_singleton.1 hd ▸ h⟩
theorem MemLines.append {l k : List Line} (h : MemLines l) (hk : MemLines k) : MemLines (l ++ k) :=
  ⟨fun e he => (List.mem_append.1 he).elim (h.noReset e) (hk.noReset e)⟩

theorem memLines_correction (s : State) (region word copy bit base : Nat) : MemLines (s.correction region word copy bit base).2 := by
  unfold State.correction
  dsimp only
  generalize (if region = 10 then (_ : State) else _) = counted
  split
  · exact .one rfl
  · exact .nil

theorem memLines_memReadL (s : State) (region word v : Nat) : MemLines (s.memReadL region word v).2.2 := by
  unfold State.memReadL
  split
  · exact .nil
  split
  · exact .nil
  dsimp only
  split
  · exact .nil
  · exact memLines_correction ..
  · exact .one rfl
  · exact .nil
  · exact memLines_correction ..
  · exact .nil

theorem memLines_tvVoteL (s : State) (word : Nat) (safe : State → State) : MemLines (s.tvVoteL word safe).2 := by
  unfold State.tvVoteL
  dsimp only
  split
  · refine List.foldlRecOn (motive := fun (a : State × List Line) => MemLines a.2) _ _ .nil fun a ha c _ => ha.append ?_
    unfold State.tvCopy
    dsimp only
    split
    · split
      · exact memLines_correction ..
      · exact memLines_correction ..
      · exact .nil
    · exact .nil
  · exact .one rfl

theorem memLines_spanWord (s : State) (region word : Nat) (value : Option Nat) : MemLines (s.spanWord region word value).2.2 := by
  cases value with
  | some v => exact memLines_memReadL ..
  | none => exact memLines_memReadL ..

theorem memLines_spanRead (s : State) (region first count : Nat) (value : Nat → Option Nat) : MemLines (s.spanRead region first count value).2.2 := by
  unfold State.spanRead
  dsimp only
  refine List.foldlRecOn (motive := fun (a : State × Bool × List Line) => MemLines a.2.2) _ _ .nil fun a ha w _ => ha.append ?_
  exact memLines_spanWord ..

/-! ### The Peat store's words (R418, R531) -/

theorem State.quiet_peatTakeWord (word : Nat) : s.Quiet words (s.peatTakeWord word).1 := by
  have hread : s.Quiet words (s.spanWord 9 word none).1 := State.quiet_spanWord (fun _ => by decide) none
  unfold State.peatTakeWord
  dsimp only
  split
  · refine hread.trans ((State.Quiet.bump (f := F.PEAT_STATUS_UE_COUNT) rfl 0 1).trans ?_)
    exact .of_fields rfl rfl rfl rfl rfl
  · exact hread

theorem State.quiet_takeEpoch : s.Quiet words s.takeEpoch.1 := by
  have htake : s.Quiet words (s.peatTake (peatEpochWord / 8) 1).1 := by
    unfold State.peatTake
    refine State.Quiet.foldlFst (fun a w => ?_) _ (s, false, [])
    exact State.quiet_peatTakeWord w
  unfold State.takeEpoch
  dsimp only
  split
  · exact htake.trans (State.quiet_drawn.trans (.wr rfl _ _))
  · refine htake.trans (.trans ?_ (State.Quiet.wr (f := F.SYS_EPOCH_VALUE) rfl _ _))
    exact .of_fields rfl rfl rfl rfl rfl

/-! ### Latches and reactions (R434 to R441) -/

theorem State.quiet_latch (n inst cause : Nat) : s.Quiet words (s.latch n inst cause) := by
  have hchar : (charFld n).beside = true := by unfold charFld; split <;> rfl
  unfold State.latch
  dsimp only
  exact (State.Quiet.wr hchar _ _).trans ((State.Quiet.wr (f := F.FAULT_DETAIL_TIME) rfl _ _).trans
    ((State.Quiet.wr (f := F.FAULT_DETAIL_CAUSE) rfl _ _).trans ((State.Quiet.wr (f := F.FAULT_DETAIL_INSTANCE) rfl _ _).trans (State.quiet_st _ _ _))))

theorem State.quiet_aliveStop (cause : Nat) : s.Quiet words (s.aliveStop cause) := by
  unfold State.aliveStop
  refine .ite ?_ (.refl s)
  refine .trans ((State.Quiet.put (f := F.FAULT_ALIVE_RUNNING) rfl 0 false).trans (State.Quiet.wr (f := F.FAULT_ALIVE_CAUSE) rfl 0 cause)) ?_
  exact .of_fields rfl rfl rfl rfl rfl

theorem State.quiet_nmtArrive (b src : Nat) : s.Quiet words (s.nmtArrive b src) := by
  unfold State.nmtArrive
  dsimp only
  split
  · exact .of_fields rfl rfl rfl rfl rfl
  · exact .of_fields rfl rfl rfl rfl rfl

theorem State.quiet_irq (n : Nat) : s.Quiet words (s.irq n) := (State.Counted.irq s n).quiet

theorem State.quiet_reactFirst (up : Bool) (src word : Nat) : s.Quiet words (s.reactFirst up src word) := by
  unfold State.reactFirst
  dsimp only
  refine .trans ?_ (.ite (.ite (State.quiet_aliveStop _) (State.quiet_nmtArrive _ _)) (.refl _))
  exact .ite (State.quiet_irq 475) (.refl s)

theorem State.quiet_reactSafe (n : Nat) : s.Quiet words (s.reactSafe n) := by
  unfold State.reactSafe
  dsimp only
  refine .trans ?_ (.foldl (fun t c => State.quiet_setMark_clear 10 (tvReact n) c) [1, 2, 3])
  exact (State.Quiet.put (f := F.FAULT_REACT_IRQ) rfl n false).trans ((State.Quiet.put (f := F.FAULT_REACT_NMT) rfl n false).trans
    ((State.Quiet.put (f := F.FAULT_REACT_BLOCK_RESET) rfl n false).trans ((State.Quiet.put (f := F.FAULT_REACT_ALIVE_STOP) rfl n true).trans
      ((State.Quiet.put (f := F.FAULT_REACT_CHIP_RESET) rfl n false).trans (State.Quiet.wr (f := F.FAULT_REACT_NMT_BANK) rfl n 0)))))

/-- A reaction of a source without a block reset resets nothing. -/
theorem State.reactReset_of_not {src : Nat} (h : hasBlockReset src = false) (i : Nat) : s.reactReset src i = s := by
  rw [State.reactReset, blockInstance, h]
  rfl

theorem State.quiet_sourceRise {src : Nat} (h : hasBlockReset src = false) (won : Bool) (insts : List Nat) (inst cause : Nat) :
    s.Quiet words (s.sourceRise won src insts inst cause).1 := by
  unfold State.sourceRise
  dsimp only
  split
  · exact State.quiet_perf _ _
  · have hresets : ∀ v : State, insts.foldl (fun t i => t.reactReset src i) v = v := fun v =>
      List.foldlRecOn (motive := fun t => t = v) insts _ rfl fun t ht i _ => ht ▸ State.reactReset_of_not h i
    rw [hresets, ite_self]
    have hvote : (s.perf (0x200 + src) insts.length).Quiet words ((s.perf (0x200 + src) insts.length).reactVote src).1 :=
      State.quiet_tvVoteL (.inr (by unfold tvReact; omega)) fun u => State.quiet_reactSafe src
    exact (State.quiet_perf _ _).trans (hvote.trans ((State.quiet_latch src inst cause).trans ((State.quiet_reactFirst _ src _).trans
      (.ite (State.quiet_aliveStop src) (.refl _)))))

theorem memLines_sourceRise (s : State) (won : Bool) (src : Nat) (insts : List Nat) (inst cause : Nat) : MemLines (s.sourceRise won src insts inst cause).2.2 := by
  unfold State.sourceRise
  dsimp only
  split
  · exact .nil
  · exact memLines_tvVoteL ..

theorem State.quiet_raiseAll : ∀ (fuel : Nat) (s : State) (won : List Nat) (asked : Option Nat) {lines : List Line}, MemLines lines →
    s.Quiet words (State.raiseAll fuel s won asked lines).1
  | 0, s, _, _, _, _ => .refl s
  | fuel + 1, s, won, asked, lines, h => by
    unfold State.raiseAll
    split
    · exact .refl s
    next src hsrc =>
      split
      · exact .refl s
      next e more he =>
        dsimp only
        have hmem : e ∈ lines.filter fun d => d.1 = src := by rw [he]; exact List.mem_cons_self
        have hreset : hasBlockReset src = false := by
          obtain ⟨hin, hs⟩ := List.mem_filter.1 hmem
          exact of_decide_eq_true hs ▸ h.noReset e hin
        refine (State.quiet_sourceRise hreset _ _ _ _).trans (State.quiet_raiseAll fuel _ _ _ (.append ⟨fun d hd => ?_⟩ (memLines_sourceRise ..)))
        exact h.noReset d (List.mem_of_mem_filter hd)

/-! ### Chip resets (R518, Table 19-2) -/

/-- In a table from which entries are taken by their keys, a key that stays reads as before, another as unlisted. -/
theorem Amap.get_filter {κ α : Type} [DecidableEq κ] (p : κ → Bool) (d : α) (m : List (κ × α)) (k : κ) :
    Amap.get d (m.filter fun e => p e.1) k = if p k then Amap.get d m k else d := by
  have hfind : Amap.find (m.filter fun e => p e.1) k = if p k then Amap.find m k else none := by
    induction m with
    | nil => simp [Amap.find]
    | cons e m ih =>
      by_cases he : e.1 = k
      · cases hk : p k <;> simp_all [Amap.find]
      · cases hp : p e.1 <;> simp_all [Amap.find]
  rw [Amap.get, hfind]
  cases p k <;> rfl

/-- A chip reset clears every field that it does not keep. -/
theorem State.rd_cleared {g : Fld} {j : Nat} (h : keptField (g.key j) = false) : s.cleared.rd g j = g.reset j := by
  refine (Amap.get_filter keptField (g.reset j) s.regs (g.key j)).trans ?_
  rw [h]
  rfl

/-- A reset that is counted clears the key unit. -/
theorem State.quiet_of_cleared (hr : t.regs = s.cleared.regs) (hm : t.marks = s.cleared.marks) (hw : t.withheld = []) (hn : t.resets = s.resets + 1) :
    s.Quiet words t := by
  have hrd : ∀ g j, keptField (g.key j) = false → t.rd g j = g.reset j := fun g j h => by rw [State.rd, hr]; exact State.rd_cleared h
  have hne : t.resets ≠ s.resets := by omega
  refine ⟨by omega, fun e => absurd e hne, fun k => .inr (hrd _ k rfl), .inr (hrd _ 0 rfl), fun a ha => ?_, fun _ m h _ => ?_, fun _ e => absurd e hne⟩
  · rw [hw] at ha
    cases ha
  · rw [hm] at h
    exact List.mem_of_mem_filter h

theorem State.quiet_journalAdd (kind : Nat) (detail : List Nat) : s.Quiet words (s.journalAdd kind detail) := by
  unfold State.journalAdd
  exact .of_fields rfl rfl rfl rfl rfl

theorem State.quiet_released (cause : Nat) : s.Quiet words (s.released cause) := by
  unfold State.released
  dsimp only
  refine .trans ?_ (State.quiet_journalAdd _ _)
  refine .trans ?_ (.ite (State.quiet_irq 475) (.refl _))
  refine .trans ?_ (.foldl (fun t e => .ite (.refl t) (State.quiet_latch _ _ _)) _)
  refine .trans ?_ State.quiet_takeEpoch
  refine .trans ?_ ((State.Quiet.wr (f := F.SYS_IMAGE_PTR_LO_BANK) rfl 0 _).trans (State.Quiet.wr (f := F.SYS_IMAGE_PTR_HI_GEN) rfl 0 _))
  refine .trans ?_ (.ite (.wr (f := F.THERM_STATUS_STATE) rfl 0 5) (.refl _))
  exact .trans (.wr (f := F.SYS_RESET_CAUSE_CAUSE) rfl 0 cause) (.ite (.refl _) (.bump (f := F.SYS_RESET_CAUSE_COUNT) rfl 0 1))

theorem State.quiet_resetFor (cause : Nat) : s.Quiet words (s.resetFor cause) := by
  unfold State.resetFor
  have hclear : s.Quiet words { s.cleared with cutArmed := false, resets := s.resets + 1 } := State.quiet_of_cleared rfl rfl rfl rfl
  exact .ite (hclear.trans (State.quiet_released cause)) (State.quiet_of_cleared rfl rfl rfl rfl)

theorem State.quiet_errorLines {lines : List Line} (h : MemLines lines) : s.Quiet words (s.errorLines lines) := by
  have hraise : s.Quiet words (State.raiseAll (3 * lines.length + 9) s [] none lines).1 := State.quiet_raiseAll _ s [] none h
  unfold State.errorLines State.errorLinesWon
  dsimp only
  split
  · refine hraise.trans ((State.quiet_resetFor 2).trans ?_)
    exact (State.Quiet.put (f := F.FAULT_LAST_RESET_VALID) rfl 0 true).trans ((State.Quiet.bump (f := F.FAULT_LAST_RESET_COUNT) rfl 0 1).trans
      (State.Quiet.wr (f := F.FAULT_LAST_RESET_SOURCE) rfl 0 _))
  · exact hraise

end Sys2Proof.Machine
end

section
/-!
PROOFS. A tunnel's states follow its slots beside the key unit (R219): what is discarded on the way, billets freed and cached marks written, leaves it.
-/

namespace Sys2Proof.Machine

variable {s t u : State}

/-! ### The hold store's cached marks (R287, R420) -/

theorem State.quiet_spanTake {words : Bool} {region first count : Nat} (h : words = true → region ≠ 8 ∧ region ≠ 10) :
    s.Quiet words (s.spanTake region first count).1 := by
  unfold State.spanTake
  exact (State.quiet_spanRead h _).trans (State.quiet_errorLines (memLines_spanRead ..))

theorem State.quiet_cachePut (c l : Nat) : s.Quiet true (s.cachePut c l) := by
  unfold State.cachePut State.clinkerRead
  dsimp only
  refine .trans ?_ (State.quiet_spanWrite (by decide))
  refine .trans (State.quiet_spanTake fun _ => by decide) (.ite (State.quiet_spanWrite (by decide)) (.refl _))

theorem State.quiet_setHc {words : Bool} (c : Nat) (x : HCh) : s.Quiet words (s.setHc c x) := .of_fields rfl rfl rfl rfl rfl

/-- What is done unless a chip reset has come in between. -/
theorem State.Quiet.unlessReset {words : Bool} {f : State → State} (h : s.Quiet words t) (hf : ∀ v : State, v.Quiet words (f v)) : s.Quiet words (u.unlessReset t f) := by
  unfold State.unlessReset
  exact .ite (h.trans (hf t)) h

theorem State.quiet_freeBilletOf (unread : Bool) (b : Nat × Nat) : s.Quiet true (s.freeBilletOf unread b) := by
  unfold State.freeBilletOf
  dsimp only
  split
  · refine .trans (State.quiet_setHc b.1 _) (.ite (.bump (f := F.HOLD_CNT_LOST_UNUSED_V) rfl 0 1) (.refl _))
  split
  · refine .trans (State.quiet_setHc b.1 _) (.ite (.bump (f := F.HOLD_CNT_CLINKER_UNUSED_V) rfl 0 1) (.refl _))
  split
  · refine (State.quiet_cachePut b.1 b.2).unlessReset fun v => ?_
    exact (State.quiet_setHc b.1 _).trans ((State.Quiet.bump (f := F.HOLD_CNT_CLINKERS_V) rfl 0 1).trans (State.quiet_event rfl 0))
  · exact State.quiet_setHc b.1 _

theorem State.quiet_holdRelease (unread : Bool) (p : Held → Bool) : s.Quiet true (s.holdRelease unread p) := by
  unfold State.holdRelease
  dsimp only
  refine .ite (.refl s) (.unlessReset (.trans ?_ (.foldl (fun t b => State.quiet_freeBilletOf unread b) _)) fun v => ?_)
  · exact .of_fields rfl rfl rfl rfl rfl
  · exact .ite (.bump (f := F.HOLD_CNT_LOST_UNUSED_V) rfl 0 _) (.refl v)

/-! ### A direction leaves RUN (R219, R230) -/

theorem State.quiet_perfTun {words : Bool} (k n a : Nat) : s.Quiet words (s.perfTun k n a) := State.quiet_perf _ _

/-- With the inverted bits followed, the transmit queues may change. -/
theorem State.quiet_setTtx (n : Nat) (x : TunTx) : s.Quiet true (s.setTtx n x) :=
  ⟨le_rfl, fun _ _ _ _ => rfl, fun _ => .inl rfl, .inl rfl, fun _ h => h, fun _ _ h _ => h, fun h => by cases h⟩

theorem State.quiet_emit {words : Bool} (o : Out) : s.Quiet words (s.emit o) := .of_fields rfl rfl rfl rfl rfl

theorem State.quiet_pauseCheck (n : Nat) : s.Quiet true (s.pauseCheck n) := by
  unfold State.pauseCheck State.pauseEnd
  dsimp only
  refine .ite ?_ (.ite ?_ (.refl s))
  · exact (State.quiet_setTtx n _).trans (State.quiet_emit _)
  · exact (State.quiet_setTtx n _).trans (State.quiet_emit _)

theorem State.quiet_txBlock (n : Nat) : s.Quiet true (s.txBlock n) := by
  have hbump : ∀ (v : State) k, v.Quiet true ((v.bump F.TUN_CNT_DROP_BLOCKED_V n k).perfTun 14 n k) := fun v k =>
    (State.Quiet.bump (f := F.TUN_CNT_DROP_BLOCKED_V) rfl n k).trans (State.quiet_perfTun 14 n k)
  unfold State.txBlock
  dsimp only
  refine .trans ?_ (.ite (.refl _) (hbump _ _))
  exact (State.quiet_setTtx n _).trans (State.quiet_pauseCheck n)

theorem State.quiet_bundlesBlocked {words : Bool} (n k : Nat) : s.Quiet words (s.bundlesBlocked n k) :=
  .ite (.refl s) ((State.Quiet.bump (f := F.TUN_CNT_DROP_BLOCKED_V) rfl n k).trans (State.quiet_perfTun 14 n k))

theorem State.quiet_rxBlock (n : Nat) : s.Quiet true (s.rxBlock n) := by
  unfold State.rxBlock
  dsimp only
  refine .trans (.trans ?_ (State.quiet_holdRelease true _)) (State.quiet_bundlesBlocked n _)
  exact .of_fields rfl rfl rfl rfl rfl

theorem State.quiet_trackVal {words : Bool} {f ev : Fld} (hf : f.beside = true) (hev : ev.beside = true) (i v : Nat) : s.Quiet words (s.trackVal f ev i v) :=
  .ite (.refl s) ((State.Quiet.wr hf i v).trans (State.quiet_event hev i))

theorem State.quiet_tunState (n : Nat) : s.Quiet true (s.tunState n) := by
  unfold State.tunState
  dsimp only
  refine .trans ?_ (State.quiet_trackVal (f := F.TUN_STATUS_RX_STATE) (ev := F.TUN_EVENT_RX_STATE) rfl rfl n _)
  refine .trans ?_ (State.quiet_trackVal (f := F.TUN_STATUS_TX_STATE) (ev := F.TUN_EVENT_TX_STATE) rfl rfl n _)
  refine .trans ?_ ((State.Quiet.wr (f := F.TUN_STATUS_TX_PHASE) rfl n _).trans ((State.Quiet.wr (f := F.TUN_STATUS_RX_PHASE) rfl n _).trans
    (State.Quiet.wr (f := F.TUN_TX_USE_USE) rfl n _)))
  refine .trans ?_ (.ite (State.quiet_rxBlock n) (.refl _))
  exact .ite (State.quiet_txBlock n) (.refl s)

end Sys2Proof.Machine
end

section
/-!
PROOFS. Zeroised slots (R252, R253): what a write of protected words leaves, and what overwriting slots does and leaves.
-/

namespace Sys2Proof.Machine

variable {s t u : State} {region : Nat}

/-! ### Writes of words without an address of their own (R420, R429) -/

theorem State.mem_setMarkOn {word copy dx cx base : Nat} {m : Mark} : m ∈ (s.setMarkOn region word copy dx cx base).marks ↔
    (m ∈ s.marks ∧ ¬ (m.region = region ∧ m.word = word ∧ m.copy = copy)) ∨ (m = ⟨region, word, copy, dx, cx, base⟩ ∧ ¬ (dx = 0 ∧ cx = 0 ∧ base = 0)) := by
  unfold State.setMarkOn
  dsimp only
  split
  next h => simp [h, or_assoc, imp_iff_not_or]
  next h => simp [h, or_assoc, imp_iff_not_or]

theorem State.rd_setMark (s : State) (region word copy dx cx : Nat) (f : Fld) (i : Nat) : (s.setMark region word copy dx cx).rd f i = s.rd f i := rfl

/-- Words of one region are written: of everything else only the arming of an injection changes. -/
structure State.Injected (region : Nat) (s t : State) : Prop where
  eq : t = { s with regs := t.regs, marks := t.marks }
  rd : ∀ g j, g.reg ≠ .MEMP_STATUS → g.reg ≠ .MEMP_INJECT_CTL → t.rd g j = s.rd g j
  marks : ∀ m, m.region ≠ region → (m ∈ t.marks ↔ m ∈ s.marks)
  armed : t.rd F.MEMP_STATUS_ARMED 0 = s.rd F.MEMP_STATUS_ARMED 0 ∨ t.rd F.MEMP_STATUS_ARMED 0 = 0

theorem State.Injected.refl (s : State) : s.Injected region s := ⟨rfl, fun _ _ _ _ => rfl, fun _ _ => .rfl, .inl rfl⟩

theorem State.Injected.trans (h : s.Injected region t) (k : t.Injected region u) : s.Injected region u := by
  refine ⟨?_, fun g j h1 h2 => (k.rd g j h1 h2).trans (h.rd g j h1 h2), fun m hm => (k.marks m hm).trans (h.marks m hm), ?_⟩
  · rw [k.eq, h.eq]
  · exact k.armed.elim (fun e => h.armed.elim (fun e' => .inl (e.trans e')) fun e' => .inr (e.trans e')) .inr

theorem State.injected_setMarkOn (word copy dx cx base : Nat) : s.Injected region (s.setMarkOn region word copy dx cx base) := by
  refine ⟨rfl, fun _ _ _ _ => rfl, fun m hm => ?_, .inl rfl⟩
  rw [State.mem_setMarkOn]
  refine ⟨fun h => h.elim And.left fun ⟨e, _⟩ => absurd (congrArg Mark.region e) hm, fun h => .inl ⟨h, fun ⟨e, _⟩ => hm e⟩⟩

/-- An injection is used up. -/
theorem State.injected_disarm : s.Injected region ((s.put F.MEMP_STATUS_ARMED 0 false).put F.MEMP_INJECT_CTL_ARM 0 false) ∧
    ((s.put F.MEMP_STATUS_ARMED 0 false).put F.MEMP_INJECT_CTL_ARM 0 false).rd F.MEMP_STATUS_ARMED 0 = 0 := by
  have harm : ((s.put F.MEMP_STATUS_ARMED 0 false).put F.MEMP_INJECT_CTL_ARM 0 false).rd F.MEMP_STATUS_ARMED 0 = 0 :=
    (State.rd_wr_ne _ _ (Fld.key_ne_reg (by decide))).trans (State.rd_wr_self ..)
  exact ⟨⟨rfl, fun g j h1 h2 => (State.rd_wr_ne _ _ (Fld.key_ne_reg h2)).trans (State.rd_wr_ne _ _ (Fld.key_ne_reg h1)), fun _ _ => .rfl, .inr harm⟩, harm⟩

/-- A write of a word clears its inverted bits, or uses up the injection that is armed at it. -/
theorem State.writeMark_cases (s : State) (region word : Nat) :
    s.writeMark region word = s.setMark region word 0 0 0 ∨
    s.rd F.MEMP_STATUS_ARMED 0 ≠ 0 ∧ ∃ copy dx cx base, s.writeMark region word =
      ((s.setMarkOn region word copy dx cx base).put F.MEMP_STATUS_ARMED 0 false).put F.MEMP_INJECT_CTL_ARM 0 false := by
  unfold State.writeMark
  dsimp only
  split
  next h =>
    have harm : s.rd F.MEMP_STATUS_ARMED 0 ≠ 0 := by
      rw [Bool.and_eq_true, Bool.and_eq_true] at h
      exact of_decide_eq_true h.1.1
    refine .inr ⟨harm, ?_⟩
    split
    · exact ⟨_, _, _, _, rfl⟩
    · exact ⟨_, _, _, 0, rfl⟩
  next => exact .inl rfl

theorem State.injected_writeMark (word : Nat) : s.Injected region (s.writeMark region word) := by
  rcases s.writeMark_cases region word with h | ⟨-, copy, dx, cx, base, h⟩
  · exact h ▸ State.injected_setMarkOn word 0 0 0 0
  · exact h ▸ (State.injected_setMarkOn word copy dx cx base).trans State.injected_disarm.1

/-- A word that a write leaves with inverted bits had them, or takes those of the injection that is used up. -/
theorem State.mem_writeMark {word : Nat} {m : Mark} (h : m ∈ (s.writeMark region word).marks) :
    m ∈ s.marks ∨ (m.region = region ∧ m.word = word ∧ (s.writeMark region word).rd F.MEMP_STATUS_ARMED 0 = 0) := by
  rcases s.writeMark_cases region word with hc | ⟨-, copy, dx, cx, base, hc⟩
  · rw [hc] at h
    exact (State.mem_setMarkOn.1 h).elim (fun h => .inl h.1) fun h => absurd ⟨rfl, rfl, rfl⟩ h.2
  · rw [hc] at h ⊢
    exact (State.mem_setMarkOn.1 h).elim (fun h => .inl h.1) fun h => .inr ⟨congrArg Mark.region h.1, congrArg Mark.word h.1, State.injected_disarm (region := region).2⟩

/-- The words of a run are written. -/
theorem State.injected_spanWrite {first count : Nat} (h : ¬ (2 ≤ region ∧ region ≤ 4)) : s.Injected region (s.spanWrite region first count) := by
  unfold State.spanWrite
  rw [if_neg h]
  refine List.foldlRecOn (motive := fun t => s.Injected region t) _ _ (.refl s) fun t ht w _ => ht.trans ?_
  split
  · exact .refl t
  · exact State.injected_writeMark w

theorem State.mem_spanWrite {first count : Nat} (h : ¬ (2 ≤ region ∧ region ≤ 4)) {m : Mark} (hm : m ∈ (s.spanWrite region first count).marks) :
    m ∈ s.marks ∨ (first ≤ m.word ∧ m.word < first + count ∧ (s.spanWrite region first count).rd F.MEMP_STATUS_ARMED 0 = 0) := by
  suffices hall : ∀ m ∈ (s.spanWrite region first count).marks,
      m ∈ s.marks ∨ (first ≤ m.word ∧ m.word < first + count ∧ (s.spanWrite region first count).rd F.MEMP_STATUS_ARMED 0 = 0) from hall m hm
  clear hm m
  unfold State.spanWrite
  rw [if_neg h]
  refine List.foldlRecOn (motive := fun (t : State) => ∀ m ∈ t.marks, m ∈ s.marks ∨ (first ≤ m.word ∧ m.word < first + count ∧ t.rd F.MEMP_STATUS_ARMED 0 = 0)) _ _
    (fun m hm => .inl hm) fun t ht w hw m hm => ?_
  split at hm
  next hwh => rw [if_pos hwh]; exact ht m hm
  next hwh =>
    rw [if_neg hwh]
    rcases State.mem_writeMark hm with hm | ⟨-, rfl, harm⟩
    · refine (ht m hm).imp_right fun ⟨h1, h2, h3⟩ => ⟨h1, h2, ?_⟩
      exact (State.injected_writeMark (region := region) w).armed.elim (fun e => e.trans h3) id
    · obtain ⟨h1, h2⟩ := State.mem_spanWords hw
      exact .inr ⟨h1, h2, harm⟩

/-- All copies of a critical word are written. -/
theorem State.injected_tvWrite (word : Nat) : s.Injected 10 (s.tvWrite word) :=
  ((State.injected_setMarkOn word 1 0 0 0).trans ((State.injected_setMarkOn word 2 0 0 0).trans (State.injected_setMarkOn word 3 0 0 0))).trans
    (State.injected_writeMark word)

theorem State.rd_tvWrite (s : State) (word : Nat) (g : Fld) (j : Nat) (h1 : g.reg ≠ .MEMP_STATUS) (h2 : g.reg ≠ .MEMP_INJECT_CTL) :
    (s.tvWrite word).rd g j = s.rd g j := (State.injected_tvWrite word).rd g j h1 h2

/-- With no injection armed, the copies of a critical word have no inverted bits once it is written. -/
theorem State.mem_tvWrite_of_not_armed {word : Nat} {m : Mark} (ha : s.rd F.MEMP_STATUS_ARMED 0 = 0) (hm : m ∈ (s.tvWrite word).marks) :
    m ∈ s.marks ∧ ¬ (m.region = 10 ∧ m.word = word ∧ 1 ≤ m.copy ∧ m.copy ≤ 3) := by
  unfold State.tvWrite at hm
  dsimp only at hm
  have hclear : ∀ {v : State} {copy : Nat}, m ∈ (v.setMark 10 word copy 0 0).marks → m ∈ v.marks ∧ ¬ (m.region = 10 ∧ m.word = word ∧ m.copy = copy) := fun h =>
    (State.mem_setMarkOn.1 h).elim id fun h => absurd ⟨rfl, rfl, rfl⟩ h.2
  have hwm : m ∈ ((((s.setMark 10 word 1 0 0).setMark 10 word 2 0 0).setMark 10 word 3 0 0).setMark 10 word 0 0 0).marks := by
    rcases (((s.setMark 10 word 1 0 0).setMark 10 word 2 0 0).setMark 10 word 3 0 0).writeMark_cases 10 word with h | ⟨h, -⟩
    · rwa [h] at hm
    · rw [State.rd_setMark, State.rd_setMark, State.rd_setMark] at h
      exact absurd ha h
  obtain ⟨h3, -⟩ := hclear hwm
  obtain ⟨h2, hn3⟩ := hclear h3
  obtain ⟨h1, hn2⟩ := hclear h2
  obtain ⟨h0, hn1⟩ := hclear h1
  refine ⟨h0, fun ⟨hr, hw, hlo, hhi⟩ => ?_⟩
  have : m.copy = 1 ∨ m.copy = 2 ∨ m.copy = 3 := by omega
  rcases this with hc | hc | hc
  · exact hn1 ⟨hr, hw, hc⟩
  · exact hn2 ⟨hr, hw, hc⟩
  · exact hn3 ⟨hr, hw, hc⟩

/-! ### Slots overwritten (R252) -/

/-- The slots that satisfy `gone` are overwritten and EMPTY; nothing else has changed but an armed injection. -/
structure State.Wiped (s w : State) (gone : Nat → Prop) : Prop where
  empty : ∀ j, gone j → w.rd F.KEY_DESC_STATE j = 0 ∧ w.rd F.KEY_DESC_TUNNEL j = 0 ∧ ∀ i < 16, w.ld .keySlot (16 * j + i) = 0
  rd : ∀ g j, (g.reg = .KEY_DESC → ¬ gone j) → g.reg ≠ .MEMP_STATUS → g.reg ≠ .MEMP_INJECT_CTL → w.rd g j = s.rd g j
  ld : ∀ sp i, sp ≠ .keySlot ∨ ¬ gone (i / 16) → w.ld sp i = s.ld sp i
  unused : ∀ j, gone j → Amap.get 0 w.slotUse j = 0
  slotUse : ∀ j, ¬ gone j → Amap.get 0 w.slotUse j = Amap.get 0 s.slotUse j
  marks : ∀ m, m.region ≠ 10 → m.region ≠ 8 → (m ∈ w.marks ↔ m ∈ s.marks)
  eq : w = { s with regs := w.regs, mem := w.mem, marks := w.marks, slotUse := w.slotUse }

theorem State.Wiped.trans {g k : Nat → Prop} (h : s.Wiped t g) (h' : t.Wiped u k) : s.Wiped u fun j => g j ∨ k j := by
  refine ⟨fun j hj => ?_, fun f j hf h1 h2 => ?_, fun sp i hi => ?_, fun j hj => ?_, fun j hj => ?_, fun m h1 h2 => (h'.marks m h1 h2).trans (h.marks m h1 h2), ?_⟩
  · by_cases hk : k j
    · exact h'.empty j hk
    · obtain ⟨hst, htun, hld⟩ := h.empty j (hj.resolve_right hk)
      refine ⟨(h'.rd _ j (fun _ => hk) (by decide) (by decide)).trans hst, (h'.rd _ j (fun _ => hk) (by decide) (by decide)).trans htun, fun i hi => ?_⟩
      rw [h'.ld .keySlot _ (.inr (by rwa [show (16 * j + i) / 16 = j by omega])), hld i hi]
  · exact (h'.rd f j (fun e hk => hf e (.inr hk)) h1 h2).trans (h.rd f j (fun e hg => hf e (.inl hg)) h1 h2)
  · exact (h'.ld sp i (hi.imp_right fun hn hk => hn (.inr hk))).trans (h.ld sp i (hi.imp_right fun hn hg => hn (.inl hg)))
  · by_cases hk : k j
    · exact h'.unused j hk
    · exact (h'.slotUse j hk).trans (h.unused j (hj.resolve_right hk))
  · exact (h'.slotUse j fun hk => hj (.inr hk)).trans (h.slotUse j fun hg => hj (.inl hg))
  · rw [h'.eq, h.eq]

theorem State.Wiped.congr {g k : Nat → Prop} (h : s.Wiped t g) (hk : ∀ j, g j ↔ k j) : s.Wiped t k := (funext fun j => propext (hk j)) ▸ h

theorem State.Wiped.refl (s : State) : s.Wiped s fun _ => False :=
  ⟨fun _ h => h.elim, fun _ _ _ _ _ => rfl, fun _ _ _ => rfl, fun _ h => h.elim, fun _ _ => rfl, fun _ _ _ => .rfl, rfl⟩

/-- The slot is overwritten and its words are written. -/
theorem State.slotWipe_eq (s : State) (k : Nat) : ∃ a, (s.clearMem .keySlot fun i => i / 16 = k).Injected 8 a ∧
    a = (s.clearMem .keySlot fun i => i / 16 = k).slotWrote k ∧ s.slotWipe k = { a.setDesc k 0 0 0 0 with slotUse := Amap.erase s.slotUse k } :=
  ⟨_, State.injected_spanWrite (by decide), rfl, rfl⟩

/-- An EMPTY descriptor of no tunnel is written. -/
theorem State.rd_setDesc (s : State) (k : Nat) :
    (s.setDesc k 0 0 0 0).rd F.KEY_DESC_STATE k = 0 ∧ (s.setDesc k 0 0 0 0).rd F.KEY_DESC_TUNNEL k = 0 ∧
    ∀ g j, (g.reg = .KEY_DESC → j ≠ k) → g.reg ≠ .MEMP_STATUS → g.reg ≠ .MEMP_INJECT_CTL → (s.setDesc k 0 0 0 0).rd g j = s.rd g j := by
  have hinj := (((((s.wr F.KEY_DESC_TUNNEL k 0).wr F.KEY_DESC_DIR k 0).wr F.KEY_DESC_PHASE k 0).wr F.KEY_DESC_STATE k 0)).rd_tvWrite (tvKey k)
  unfold State.setDesc
  refine ⟨?_, ?_, fun g j hg h1 h2 => ?_⟩
  · rw [hinj _ _ (by decide) (by decide), State.rd_wr_self]
    rfl
  · rw [hinj _ _ (by decide) (by decide), State.rd_wr_ne _ _ (Fld.key_ne_lo (by decide)), State.rd_wr_ne _ _ (Fld.key_ne_lo (by decide)),
      State.rd_wr_ne _ _ (Fld.key_ne_lo (by decide)), State.rd_wr_self]
    rfl
  · have hkey : ∀ f : Fld, f.reg = .KEY_DESC → g.key j ≠ f.key k := fun f hf e => hg ((congrArg FKey.reg e).trans hf) (congrArg FKey.inst e)
    rw [hinj g j h1 h2, State.rd_wr_ne _ _ (hkey _ rfl), State.rd_wr_ne _ _ (hkey _ rfl), State.rd_wr_ne _ _ (hkey _ rfl), State.rd_wr_ne _ _ (hkey _ rfl)]

theorem State.mem_setDesc (s : State) (k : Nat) {m : Mark} (hm : m.region ≠ 10) : m ∈ (s.setDesc k 0 0 0 0).marks ↔ m ∈ s.marks :=
  (State.injected_tvWrite (tvKey k)).marks m hm

/-- Only registers and inverted bits have changed. -/
structure State.RegsMarks (s t : State) : Prop where
  eq : t = { s with regs := t.regs, marks := t.marks }

theorem State.RegsMarks.trans (h : s.RegsMarks t) (k : t.RegsMarks u) : s.RegsMarks u := ⟨by rw [k.eq, h.eq]⟩

theorem State.RegsMarks.exists (h : s.RegsMarks t) : ∃ r m, t = { s with regs := r, marks := m } := ⟨_, _, h.eq⟩

theorem State.regsMarks_wr (s : State) (f : Fld) (i v : Nat) : s.RegsMarks (s.wr f i v) := ⟨rfl⟩

/-- A descriptor is registers; its copies may take inverted bits. -/
theorem State.regsMarks_setDesc (s : State) (k : Nat) : s.RegsMarks (s.setDesc k 0 0 0 0) :=
  ((State.regsMarks_wr ..).trans ((State.regsMarks_wr ..).trans ((State.regsMarks_wr ..).trans (State.regsMarks_wr ..)))).trans ⟨(State.injected_tvWrite (tvKey k)).eq⟩

theorem State.ld_clearMem (s : State) (sp sq : Space) (p : Nat → Bool) (i : Nat) :
    (s.clearMem sp p).ld sq i = if sq = sp ∧ p i = true then sq.dflt i else s.ld sq i := by
  refine (Amap.get_filter (fun e : MKey => !(e.space = sp && p e.idx)) (sq.dflt i) s.mem ⟨sq, i⟩).trans ?_
  by_cases h : sq = sp ∧ p i = true
  · rw [if_pos h, if_neg (by simp [h])]
  · rw [if_neg h, if_pos (by simpa [imp_iff_not_or] using h)]
    rfl

theorem State.wiped_slotWipe (s : State) (k : Nat) : s.Wiped (s.slotWipe k) fun j => j = k := by
  obtain ⟨a, ha, -, he⟩ := s.slotWipe_eq k
  obtain ⟨r, m, hw⟩ := (State.RegsMarks.trans ⟨ha.eq⟩ (a.regsMarks_setDesc k)).exists
  obtain ⟨hstate, htunnel, hrd⟩ := a.rd_setDesc k
  have hmarks := fun (m : Mark) (hm : m.region ≠ 10) => a.mem_setDesc k hm
  generalize a.setDesc k 0 0 0 0 = x at *
  have hreads : ∀ g j, (s.slotWipe k).rd g j = x.rd g j := fun g j => by rw [he]; rfl
  have hld : ∀ sp i, (s.slotWipe k).ld sp i = (s.clearMem .keySlot fun i => i / 16 = k).ld sp i := fun sp i => by rw [he, hw]; rfl
  refine ⟨fun j hj => ?_, fun g j hg h1 h2 => ?_, fun sp i hi => ?_, fun j hj => ?_, fun j hj => ?_, fun m h10 h8 => ?_, ?_⟩
  · subst hj
    rw [hreads, hreads]
    refine ⟨hstate, htunnel, fun i hi => ?_⟩
    rw [hld, State.ld_clearMem, if_pos ⟨rfl, decide_eq_true (by omega)⟩]
    rfl
  · rw [hreads]
    exact (hrd g j hg h1 h2).trans (ha.rd g j h1 h2)
  · rw [hld, State.ld_clearMem, if_neg fun h => hi.elim (fun h' => h' h.1) fun h' => h' (of_decide_eq_true h.2)]
  · rw [he, hj, Amap.get, Amap.find_erase_self]
    rfl
  · rw [he, Amap.get, Amap.find_erase_ne _ hj, ← Amap.get]
  · rw [he]
    exact (hmarks m h10).trans (ha.marks m h8)
  · rw [he, hw]
    rfl

/-- Slots overwritten one after another. -/
theorem State.wiped_foldl (s : State) (l : List Nat) : s.Wiped (l.foldl (fun t k => t.slotWipe k) s) fun j => j ∈ l := by
  induction l generalizing s with
  | nil => exact (State.Wiped.refl s).congr fun j => by simp
  | cons k l ih =>
    have h := (s.wiped_slotWipe k).trans (ih (s.slotWipe k))
    rw [List.foldl_cons]
    exact h.congr fun j => List.mem_cons.symm

end Sys2Proof.Machine
end

section
/-!
PROOFS. The words of the slots that hold a key (R242, R254): only a slot that is overwritten, and EMPTY from then on, can take inverted bits while the key unit
votes its descriptors; nothing but a chip reset changes the staged words and the access mode on the way.
-/

namespace Sys2Proof.Machine

variable {s t u : State} {k : Nat}

/-- No slot's row is withheld, and a slot of which a word has inverted bits is EMPTY, with sound copies of its descriptor and no injection armed. -/
structure State.KeyWords (s : State) : Prop where
  withheld : ∀ a ∈ s.withheld, a.region ≠ 8
  empty : ∀ m ∈ s.marks, m.region = 8 → s.rd F.KEY_DESC_STATE (m.word / 8) = 0
  armed : ∀ m ∈ s.marks, m.region = 8 → s.rd F.MEMP_STATUS_ARMED 0 = 0
  copies : ∀ m ∈ s.marks, m.region = 8 → ∀ c ∈ s.marks, ¬ (c.region = 10 ∧ c.word = tvKey (m.word / 8) ∧ 1 ≤ c.copy ∧ c.copy ≤ 3)

theorem State.keyWords_of_region (hm : ∀ m ∈ s.marks, m.region ≠ 8) (hw : ∀ a ∈ s.withheld, a.region ≠ 8) : s.KeyWords :=
  ⟨hw, fun m h e => absurd e (hm m h), fun m h e => absurd e (hm m h), fun m h e => absurd e (hm m h)⟩

theorem State.Quiet.keyWords (h : s.Quiet true t) (hs : s.KeyWords) : t.KeyWords := by
  have hold : ∀ m ∈ t.marks, m.region = 8 → m ∈ s.marks := fun m hm hr => h.marks rfl m hm (.inl hr)
  refine ⟨fun a ha => hs.withheld a (h.withheld a ha), fun m hm hr => ?_, fun m hm hr => ?_, fun m hm hr c hc hkey => ?_⟩
  · exact (h.state _).elim (fun e => e.trans (hs.empty m (hold m hm hr) hr)) id
  · exact h.armed.elim (fun e => e.trans (hs.armed m (hold m hm hr) hr)) id
  · exact hs.copies m (hold m hm hr) hr c (h.marks rfl c hc (.inr hkey.1)) hkey

/-- A slot that is not EMPTY reads good. -/
theorem State.KeyWords.sound (h : s.KeyWords) (hk : s.rd F.KEY_DESC_STATE k ≠ 0) : s.Sound 8 (8 * k) 5 := by
  refine ⟨fun m hm hr hw => hk ?_, h.withheld⟩
  have hword : m.word / 8 = k := by omega
  exact hword ▸ h.empty m hm hr

/-! ### A slot is overwritten -/

theorem State.withheld_slotWipe (s : State) (k : Nat) : (s.slotWipe k).withheld = s.withheld := (congrArg State.withheld (s.wiped_slotWipe k).eq :)

/-- A slot's words are written with its descriptor. -/
theorem State.keyWords_slotWipe (hs : s.KeyWords) (k : Nat) : (s.slotWipe k).KeyWords := by
  have hwiped := s.wiped_slotWipe k
  obtain ⟨a, ha, hspan, he⟩ := s.slotWipe_eq k
  have hmarks : (s.slotWipe k).marks = (a.setDesc k 0 0 0 0).marks := by rw [he]
  have harmed : (s.slotWipe k).rd F.MEMP_STATUS_ARMED 0 = (a.setDesc k 0 0 0 0).rd F.MEMP_STATUS_ARMED 0 := by
    rw [he]
    generalize a.setDesc k 0 0 0 0 = x
    rfl
  set d := (((a.wr F.KEY_DESC_TUNNEL k 0).wr F.KEY_DESC_DIR k 0).wr F.KEY_DESC_PHASE k 0).wr F.KEY_DESC_STATE k 0
  have hdarm : d.rd F.MEMP_STATUS_ARMED 0 = a.rd F.MEMP_STATUS_ARMED 0 := by
    simp only [d, ne_eq, reduceCtorEq, not_false_eq_true, Fld.key_ne_reg, State.rd_wr_ne]
  have hdmarks : d.marks = a.marks := rfl
  have htv : d.Injected 10 (a.setDesc k 0 0 0 0) := State.injected_tvWrite (tvKey k)
  -- a marked word of a slot was marked before, or it is of this slot and took the injection
  have hold : ∀ m ∈ (s.slotWipe k).marks, m.region = 8 → a.rd F.MEMP_STATUS_ARMED 0 = 0 ∧ (m ∈ s.marks ∨ m.word / 8 = k) := fun m hm hr => by
    rw [hmarks, htv.marks m (by omega), hdmarks] at hm
    have hm' := hm
    rw [hspan] at hm'
    rcases State.mem_spanWrite (by decide) hm' with h | ⟨h1, h2, h3⟩
    · exact ⟨ha.armed.elim (fun e => e.trans (hs.armed m h hr)) id, .inl h⟩
    · exact ⟨by rw [hspan]; exact h3, .inr (by omega)⟩
  refine ⟨fun b hb => hs.withheld b (s.withheld_slotWipe k ▸ hb), fun m hm hr => ?_, fun m hm hr => ?_, fun m hm hr c hc hkey => ?_⟩
  · by_cases hk : m.word / 8 = k
    · exact (hwiped.empty _ hk).1
    · obtain ⟨-, hin | hin⟩ := hold m hm hr
      · exact (hwiped.rd _ _ (fun _ => hk) (by decide) (by decide)).trans (hs.empty m hin hr)
      · exact absurd hin hk
  · rw [harmed]
    exact htv.armed.elim (fun e => e.trans (hdarm.trans (hold m hm hr).1)) id
  · obtain ⟨harm, hin⟩ := hold m hm hr
    rw [hmarks] at hc
    obtain ⟨hcd, hnot⟩ := State.mem_tvWrite_of_not_armed (hdarm.trans harm) hc
    obtain ⟨h10, hword, hcopy⟩ := hkey
    rcases hin with hin | hin
    · refine hs.copies m hin hr c ?_ ⟨h10, hword, hcopy⟩
      rw [hdmarks] at hcd
      exact (ha.marks c (by omega)).1 hcd
    · exact hnot ⟨h10, hin ▸ hword, hcopy⟩

theorem State.keyWords_slotZero (hs : s.KeyWords) (k : Nat) : (s.slotZero k).KeyWords := by
  have hwipe := State.keyWords_slotWipe hs k
  unfold State.slotZero
  dsimp only
  split
  · exact (State.quiet_tunState _).keyWords hwipe
  · exact hwipe

/-! ### Votes (R254, R428) -/

theorem State.OnlyRead.marks (h : s.OnlyRead t) : t.marks = s.marks := h.sameWords.marks

theorem State.onlyRead_voteRead (s : State) (word : Nat) : s.OnlyRead (s.voteRead word) := (State.onlyRead_rawCapture ..).trans (State.onlyRead_trackRead ..)

/-- Copies without inverted bits agree on what is stored. -/
theorem State.tvVoted_of_clean {word : Nat} (h : ∀ c ∈ s.marks, ¬ (c.region = 10 ∧ c.word = word ∧ 1 ≤ c.copy ∧ c.copy ≤ 3)) : s.tvVoted word = some (s.tvValue word) := by
  have hnone : ∀ c, 1 ≤ c → c ≤ 3 → (s.marks.find? fun m => m.region = 10 && m.word = word && m.copy = c) = none := fun c h1 h3 => by
    simp only [List.find?_eq_none, Bool.and_eq_true, decide_eq_true_eq, not_and, and_imp]
    rintro m hm hr hw rfl
    exact h m hm ⟨hr, hw, h1, h3⟩
  have hcopy : ∀ c, 1 ≤ c → c ≤ 3 → s.tvCopyValue word c = some (s.tvValue word) := fun c h1 h3 => by
    simp [State.tvCopyValue, State.tvDec, State.markOf, State.baseOf, hnone c h1 h3, decodeWord_zero]
  simp [State.tvVoted, hcopy]

/-- A stored descriptor changes only the registers of its slot. -/
theorem State.tvStore_key (hk : k < 128) (v : Nat) : s.tvStore (tvKey k) v = s.putWord .KEY_DESC k v := by
  unfold State.tvStore tvKey
  rw [if_neg (by omega), if_neg (by omega), if_pos (by omega), Nat.add_sub_cancel_left]

theorem State.putWord_keyDesc (s : State) (k v : Nat) : (∃ r, s.putWord .KEY_DESC k v = { s with regs := r }) ∧
    ∀ g j, (g.reg = .KEY_DESC → j ≠ k) → (s.putWord .KEY_DESC k v).rd g j = s.rd g j := by
  refine List.foldlRecOn (motive := fun (t : State) => (∃ r, t = { s with regs := r }) ∧ ∀ g j, (g.reg = .KEY_DESC → j ≠ k) → t.rd g j = s.rd g j) _ _
    ⟨⟨_, rfl⟩, fun _ _ _ => rfl⟩ ?_
  rintro _ ⟨⟨r, rfl⟩, hrd⟩ f hf
  have hreg : f.reg = .KEY_DESC := by
    rcases List.mem_cons.1 hf with rfl | hf
    · rfl
    rcases List.mem_cons.1 hf with rfl | hf
    · rfl
    rcases List.mem_cons.1 hf with rfl | hf
    · rfl
    · obtain rfl := List.mem_singleton.1 hf
      rfl
  refine ⟨⟨_, rfl⟩, fun g j hg => (State.rd_wr_ne _ _ fun e => ?_).trans (hrd g j hg)⟩
  exact hg ((congrArg FKey.reg e).trans hreg) (congrArg FKey.inst e)

/-- A descriptor that is no slot's with inverted bits takes a value. -/
theorem State.keyWords_putWord (hs : s.KeyWords) (hk : ∀ m ∈ s.marks, m.region = 8 → m.word / 8 ≠ k) (v : Nat) : (s.putWord .KEY_DESC k v).KeyWords := by
  obtain ⟨⟨r, he⟩, hrd⟩ := s.putWord_keyDesc k v
  have hm : (s.putWord .KEY_DESC k v).marks = s.marks := by rw [he]
  have hw : (s.putWord .KEY_DESC k v).withheld = s.withheld := by rw [he]
  refine ⟨hw ▸ hs.withheld, fun m h hr => ?_, fun m h hr => ?_, fun m h hr => ?_⟩
  · rw [hm] at h
    exact (hrd _ _ fun _ => hk m h hr).trans (hs.empty m h hr)
  · rw [hm] at h
    exact (hrd _ _ fun e => by cases e).trans (hs.armed m h hr)
  · rw [hm] at h ⊢
    exact hs.copies m h hr

theorem State.keyWords_voteKey (hs : s.KeyWords) (k : Nat) : (s.voteKey k).KeyWords := by
  have hread := State.Quiet.keyWords (State.quiet_voteRead (tvKey k)) hs
  have hmarks : (s.voteRead (tvKey k)).marks = s.marks := (s.onlyRead_voteRead _).marks
  suffices hvote : (s.tvVoteL (tvKey k) fun t => t.slotZero k).1.KeyWords from
    (State.quiet_errorLines (memLines_tvVoteL ..)).keyWords hvote
  rcases s.tvVoteL_cases (words := true) (tvKey k) fun t => t.slotZero k with ⟨w, hw, hq⟩ | ⟨-, u, hu, he⟩
  · refine hq.keyWords ?_
    split
    next => exact hread
    next hne =>
      by_cases hk : k < 128
      · rw [State.tvStore_key hk]
        refine State.keyWords_putWord hread (fun m hm hr hword => hne ?_) w
        have hclean : (s.voteRead (tvKey k)).tvVoted (tvKey k) = _ := State.tvVoted_of_clean fun c hc => by
          have := hread.copies m hm hr c hc
          rwa [hword] at this
        exact Option.some.inj (hw.symm.trans hclean)
      · exact (State.quiet_tvStore (.inr (by unfold tvKey; omega)) w).keyWords hread
  · rw [he]
    exact State.keyWords_slotZero (hu.keyWords hs) k

theorem State.keyWords_voteSlots (hs : s.KeyWords) (n dir : Nat) : (s.voteSlots n dir).KeyWords :=
  List.foldlRecOn (motive := State.KeyWords) _ _ hs fun _ h k _ => State.keyWords_voteKey h k

theorem State.keyWords_voteTx (hs : s.KeyWords) {n : Nat} (hn : n < 24) : (s.voteTx n).KeyWords := by
  have hzero : ∀ v : State, v.KeyWords → (v.slotsZero n 0).KeyWords := fun v hv =>
    List.foldlRecOn (motive := State.KeyWords) _ _ hv fun _ h k _ => State.keyWords_slotZero h k
  unfold State.voteTx State.tvVote
  dsimp only
  refine (State.quiet_errorLines (memLines_tvVoteL ..)).keyWords ?_
  rcases s.tvVoteL_cases (words := true) (tvTx n) fun v => (v.slotsZero n 0).setTtx n { (v.slotsZero n 0).ttx n with tallyLost := true } with
    ⟨w, -, hq⟩ | ⟨-, u, hu, he⟩
  · refine hq.keyWords ((State.quiet_voteRead (tvTx n)).trans (.ite (.refl _) ?_) |>.keyWords hs)
    exact State.quiet_tvStore (.inl (by unfold tvTx; omega)) w
  · rw [he]
    exact (State.quiet_setTtx n _).keyWords (hzero u (hu.keyWords hs))

end Sys2Proof.Machine
end

section
/-!
PROOFS. A slot is read before it serves (R242, R418, R425): sound words read good, an upset word is lost.
-/

namespace Sys2Proof.Machine

variable {s t u : State} {k : Nat}

/-! ### Sound slots -/

/-- A mark that is cleared leaves a run sound. -/
theorem State.Sound.setMarkOn_clear {first count : Nat} (h : s.Sound 8 first count) (word copy : Nat) : (s.setMarkOn 8 word copy 0 0 0).Sound 8 first count := by
  obtain ⟨hm, hw⟩ := h
  refine ⟨fun m hmem => hm m ?_, hw⟩
  exact (State.mem_setMarkOn.1 hmem).elim And.left fun h => absurd ⟨rfl, rfl, rfl⟩ h.2

theorem State.Sound.of_words {region first count : Nat} (hm : t.marks = s.marks) (hw : t.withheld = s.withheld) (h : s.Sound region first count) :
    t.Sound region first count := by
  rw [State.Sound, hm, hw]
  exact h

/-- One word of a slot is read, and what it decodes to stays stored. -/
def State.slotReadStep (k : Nat) (a : State × Bool × List Line) (w : Nat) : State × Bool × List Line :=
  let r := a.1.memReadL 8 w (a.1.slotWord k (w - 8 * k))
  (match r.2.1 with
    | .good v => ((r.1.st .keySlot (2 * w) v).st .keySlot (2 * w + 1) (v / 2 ^ 32)).setMarkOn 8 w 0 (r.1.markOf 8 w 0).1 (r.1.markOf 8 w 0).2 0
    | .bad => r.1, a.2.1 || r.2.1 = .bad, a.2.2 ++ r.2.2)

theorem State.slotRead_eq (s : State) (k : Nat) : s.slotRead k =
    let x := (s.spanWords 8 (8 * k) 5).foldl (State.slotReadStep k) (s, false, [])
    (x.1, x.2.1 || s.spanWithheld 8 (8 * k) 5, x.2.2) := rfl

theorem State.slotRead_of_sound (h : s.Sound 8 (8 * k) 5) : (s.slotRead k).2.1 = false := by
  rw [State.slotRead_eq, h.spanWithheld]
  dsimp only
  rw [Bool.or_false]
  refine (List.foldlRecOn (motive := fun (a : State × Bool × List Line) => a.2.1 = false ∧ a.1.Sound 8 (8 * k) 5) _ _ ⟨rfl, h⟩ fun a ⟨hlost, ha⟩ w hw => ?_).1
  obtain ⟨t, v, hread, ht⟩ := State.memReadL_of_sound ha (State.mem_spanWords hw) (a.1.slotWord k (w - 8 * k))
  have hsound : t.Sound 8 (8 * k) 5 := ht.sameWords.sound ha
  simp only [State.slotReadStep, hread, hlost, Bool.false_or]
  refine ⟨rfl, ?_⟩
  rw [hsound.markOf (State.mem_spanWords hw)]
  exact (State.Sound.of_words (s := t) rfl rfl hsound).setMarkOn_clear w 0

theorem State.slotTake_of_sound (h : s.Sound 8 (8 * k) 5) : (s.slotTake k).2 = true := by
  unfold State.slotTake
  dsimp only
  rw [if_neg (by simp [State.slotRead_of_sound h])]

/-! ### What serving a slot leaves -/

theorem State.quiet_slotRead (k : Nat) : s.Quiet false (s.slotRead k).1 := by
  have hmark : ∀ {v : State} {w copy dx cx base}, v.Quiet false (v.setMarkOn 8 w copy dx cx base) := State.quiet_setMarkOn fun h => by cases h
  rw [State.slotRead_eq]
  refine State.Quiet.foldlFst (fun a w => ?_) _ (s, false, [])
  have hread : a.1.Quiet false (a.1.memReadL 8 w (a.1.slotWord k (w - 8 * k))).1 := State.quiet_memReadL (fun h => by cases h) _
  unfold State.slotReadStep
  dsimp only
  split
  · exact hread.trans (.trans ((State.quiet_st _ _ _).trans (State.quiet_st _ _ _)) hmark)
  · exact hread

theorem memLines_slotRead (s : State) (k : Nat) : MemLines (s.slotRead k).2.2 := by
  rw [State.slotRead_eq]
  exact List.foldlRecOn (motive := fun (a : State × Bool × List Line) => MemLines a.2.2) _ _ .nil fun a ha w _ => ha.append (memLines_memReadL ..)

/-- A slot that serves leaves the transmit queues. -/
theorem State.quiet_slotTake (h : (s.slotTake k).2 = true) : s.Quiet false (s.slotTake k).1 := by
  unfold State.slotTake at h ⊢
  dsimp only at h ⊢
  split at h
  · cases h
  next hlost =>
    rw [if_neg hlost]
    exact (State.quiet_slotRead k).trans (State.quiet_errorLines (memLines_slotRead s k))

/-! ### A slot with an upset word -/

/-- The copies of the words of slots other than one have the same inverted bits. -/
def State.SameBut (w : Nat) (s t : State) : Prop := ∀ v c, v ≠ w → t.markOf 8 v c = s.markOf 8 v c

theorem State.SameBut.of_marks {w : Nat} (h : t.marks = s.marks) : s.SameBut w t := fun v c _ => by rw [State.markOf, State.markOf, h]

theorem State.SameBut.trans {w : Nat} (h : s.SameBut w t) (h' : t.SameBut w u) : s.SameBut w u := fun v c hv => (h' v c hv).trans (h v c hv)

theorem State.sameBut_setMarkOn (w copy dx cx base : Nat) : s.SameBut w (s.setMarkOn 8 w copy dx cx base) := fun v c hv => by
  have hfilter : ((s.marks.filter fun m => !(m.region = 8 && m.word = w && m.copy = copy)).find? fun m => m.region = 8 && m.word = v && m.copy = c) =
      s.marks.find? fun m => m.region = 8 && m.word = v && m.copy = c := by
    rw [List.find?_filter]
    refine congrArg (List.find? · s.marks) (funext fun m => ?_)
    by_cases hm : m.word = v
    · simp [hm, hv]
    · simp [hm]
  have hfind : ((s.setMarkOn 8 w copy dx cx base).marks.find? fun m => m.region = 8 && m.word = v && m.copy = c) =
      s.marks.find? fun m => m.region = 8 && m.word = v && m.copy = c := by
    unfold State.setMarkOn
    dsimp only
    split
    next => exact hfilter
    next => rw [List.find?_append, hfilter, List.find?_singleton, if_neg (by simp [Ne.symm hv]), Option.or_none]
  rw [State.markOf, State.markOf, hfind]

theorem State.marks_memLog (s : State) (e : LogRec) : (s.memLog e).marks = s.marks := by
  unfold State.memLog
  split <;> rfl

theorem State.marks_perf (s : State) (ev n : Nat) : (s.perf ev n).marks = s.marks := (State.Counted.perf s ev n).sameWords.marks

/-- The slots have no spare rows: a hard error leaves their inverted bits (Table 13-1). -/
theorem State.marks_hardError (s : State) (w copy bit : Nat) : (s.hardError 8 w copy bit).1.marks = s.marks := by
  have hspare : ∀ v : State, v.spareLeft 8 w = false := fun v => by simp [State.spareLeft, spareRows]
  unfold State.hardError
  dsimp only
  rw [hspare, Bool.and_false, if_neg (by decide), State.marks_memLog, State.marks_memLog]
  rfl

theorem State.marks_correction (s : State) (w copy bit base : Nat) : (s.correction 8 w copy bit base).1.marks = (s.setMarkOn 8 w copy 0 0 base).marks := by
  have hcounted : ∀ v : State, (if 8 = 10 then v else (v.bump F.MEMP_REG_CNT_CORRECTED 8 1).perf (0x240 + 8) 1).marks = v.marks := fun v => by
    rw [if_neg (by decide), State.marks_perf]
    rfl
  have hlog := (hcounted ((s.setMarkOn 8 w copy 0 0 base).memLog ⟨w, 1, 8, bit, copy⟩)).trans (State.marks_memLog _ _)
  unfold State.correction
  dsimp only
  rw [← hlog]
  generalize (if 8 = 10 then (_ : State) else _) = counted
  split
  · rw [State.marks_hardError]
  · rfl

theorem State.sameBut_memReadL (w v : Nat) : s.SameBut w (s.memReadL 8 w v).1 := by
  have hcorrection : ∀ (x : State) bit base, x.SameBut w (x.correction 8 w 0 bit base).1 := fun x bit base =>
    (State.sameBut_setMarkOn w 0 0 0 base).trans (.of_marks (x.marks_correction w 0 bit base))
  have hlost : ∀ x : State, x.SameBut w (x.uncorrectable 8 w 5).1 := fun x => by
    refine State.SameBut.trans (x.sameBut_setMarkOn w 0 0 (poisonOf 8) (Nat.xor (x.baseOf 8 w 0) (x.markOf 8 w 0).1)) (.of_marks ?_)
    unfold State.uncorrectable
    dsimp only
    rw [State.marks_perf, State.marks_memLog]
    rfl
  have hwrong : ∀ (x : State) v y, x.SameBut w (x.miscorrection 8 w 0 v y).1 := fun x v y => by
    have hdrawn : x.SameBut w x.drawn := .of_marks rfl
    exact hdrawn.trans (hcorrection x.drawn _ _)
  unfold State.memReadL
  split
  · exact .of_marks rfl
  split
  · exact .of_marks rfl
  dsimp only
  have hread : s.SameBut w ((s.trackRead 8 w).rawCapture 8 w 0 v (s.markOf 8 w 0).1 (s.markOf 8 w 0).2) :=
    .of_marks ((s.onlyRead_trackRead 8 w).trans (State.onlyRead_rawCapture _ _ _ _ _ _ _)).marks
  refine hread.trans ?_
  split
  · exact .of_marks rfl
  · exact hcorrection _ _ _
  · exact hlost _
  · exact .of_marks ((State.marks_perf _ _ _).trans (State.marks_memLog _ _))
  · exact hwrong _ _ _
  · exact .of_marks rfl

/-- Two inverted bits lose a word. -/
theorem State.memReadL_of_two (h : s.markOf 8 (8 * k) 0 = (3, 0)) (v : Nat) : (s.memReadL 8 (8 * k) v).2.1 = .bad := by
  have hvalid : s.invalidWord 8 (8 * k) = false := by
    unfold State.invalidWord
    rw [if_neg (by omega), if_neg (by omega)]
  have hdec : decodeWord 8 3 0 = .uncorrectable := by decide
  unfold State.memReadL
  split
  · rfl
  · rw [hvalid, if_neg (by decide), h]
    dsimp only
    rw [hdec]

theorem State.mem_spanWords_of_markOf {region word first count : Nat} (h : s.markOf region word 0 ≠ (0, 0)) (hw : first ≤ word ∧ word < first + count) :
    word ∈ s.spanWords region first count := by
  obtain ⟨m, hm⟩ : ∃ m, (s.marks.find? fun m => m.region = region && m.word = word && m.copy = 0) = some m := by
    refine Option.ne_none_iff_exists'.1 fun hnone => h ?_
    rw [State.markOf, hnone]
  have hp := List.find?_some hm
  simp only [Bool.and_eq_true, decide_eq_true_eq] at hp
  obtain ⟨⟨hr, hmw⟩, -⟩ := hp
  simp only [State.spanWords, List.mem_eraseDups, List.mem_append, List.mem_map, List.mem_filter, Bool.and_eq_true, decide_eq_true_eq]
  exact .inl (.inl ⟨m, ⟨List.mem_of_find?_eq_some hm, hr, by omega⟩, hmw⟩)

theorem State.slotReadStep_sameBut (k : Nat) (a : State × Bool × List Line) (w : Nat) : a.1.SameBut w (State.slotReadStep k a w).1 := by
  have hread := a.1.sameBut_memReadL w (a.1.slotWord k (w - 8 * k))
  have hst : ∀ x : State, ∀ i v j y, x.SameBut w ((x.st .keySlot i v).st .keySlot j y) := fun x i v j y => .of_marks rfl
  unfold State.slotReadStep
  dsimp only
  split
  · exact hread.trans ((hst _ _ _ _ _).trans (State.sameBut_setMarkOn w 0 _ _ 0))
  · exact hread

theorem State.slotReadStep_lost (k : Nat) {a : State × Bool × List Line} (h : a.2.1 = true) (w : Nat) : (State.slotReadStep k a w).2.1 = true := by
  simp [State.slotReadStep, h]

/-- A slot with an upset word is lost. -/
theorem State.slotRead_of_two (h : s.markOf 8 (8 * k) 0 = (3, 0)) : (s.slotRead k).2.1 = true := by
  have hin : 8 * k ∈ s.spanWords 8 (8 * k) 5 := State.mem_spanWords_of_markOf (by rw [h]; decide) (by omega)
  obtain ⟨before, after, hsplit, hnot⟩ := List.eq_append_cons_of_mem hin
  have hbefore : (before.foldl (State.slotReadStep k) (s, false, [])).1.markOf 8 (8 * k) 0 = (3, 0) :=
    List.foldlRecOn (motive := fun (a : State × Bool × List Line) => a.1.markOf 8 (8 * k) 0 = (3, 0)) _ _ h fun a ha w hw =>
      (State.slotReadStep_sameBut k a w (8 * k) 0 fun e => hnot (e ▸ hw)).trans ha
  have hlost : (State.slotReadStep k (before.foldl (State.slotReadStep k) (s, false, [])) (8 * k)).2.1 = true := by
    simp [State.slotReadStep, State.memReadL_of_two hbefore]
  rw [State.slotRead_eq, hsplit, List.foldl_append, List.foldl_cons, Bool.or_eq_true]
  exact .inl (List.foldlRecOn (motive := fun (a : State × Bool × List Line) => a.2.1 = true) _ _ hlost fun a ha w _ => State.slotReadStep_lost k ha w)

theorem State.slotTake_of_upset (s : State) (k : Nat) : ((s.setMark 8 (8 * k) 0 3 0).slotTake k).2 = false := by
  have hmark : (s.setMark 8 (8 * k) 0 3 0).markOf 8 (8 * k) 0 = (3, 0) := by
    have hnone : ((s.marks.filter fun m => !(m.region = 8 && m.word = 8 * k && m.copy = 0)).find? fun m => m.region = 8 && m.word = 8 * k && m.copy = 0) = none := by
      rw [List.find?_eq_none]
      intro m hm
      simpa [imp_iff_not_or, or_assoc] using (List.mem_filter.1 hm).2
    simp only [State.markOf, State.setMark, State.setMarkOn, hnone, OfNat.ofNat_ne_zero, false_and, if_false, List.find?_append, List.find?_singleton, and_self, decide_true,
      Bool.and_self, if_true, Option.none_or]
  unfold State.slotTake
  dsimp only
  rw [if_pos (State.slotRead_of_two hmark)]

end Sys2Proof.Machine
end

section
/-!
PROOFS. Release into the pipelines, encryption, a failed pipeline (R221, R239 to R244).
-/

namespace Sys2Proof.Machine

variable {s : State} {t : Fin 24} {q : Fin 32}

/-! ### The transmit SEQ (R428) -/

theorem State.rd_setTxSeq_ne (w : State) (n v : Nat) {g : Fld} {j : Nat} (hlo : g.key j ≠ F.TUN_TX_SEQ_LO_SEQ.key n) (hhi : g.key j ≠ F.TUN_TX_SEQ_HI_SEQ.key n)
    (h1 : g.reg ≠ .MEMP_STATUS) (h2 : g.reg ≠ .MEMP_INJECT_CTL) : (w.setTxSeq n v).rd g j = w.rd g j := by
  rw [State.setTxSeq, State.rd_tvWrite _ _ _ _ h1 h2, State.rd_wr_ne _ _ hhi, State.rd_wr_ne _ _ hlo]

theorem State.txSeq_setTxSeq_self (w : State) (n : Nat) {v : Nat} (hv : v < 2 ^ 64) : (w.setTxSeq n v).txSeq n = v := by
  have hlo : (w.setTxSeq n v).rd F.TUN_TX_SEQ_LO_SEQ n = v % 2 ^ 32 := by
    rw [State.setTxSeq, State.rd_tvWrite _ _ _ _ (by decide) (by decide), State.rd_wr_ne _ _ (Fld.key_ne_reg (by decide)), State.rd_wr_self]
  have hhi : (w.setTxSeq n v).rd F.TUN_TX_SEQ_HI_SEQ n = v / 2 ^ 32 % 2 ^ 32 := by
    rw [State.setTxSeq, State.rd_tvWrite _ _ _ _ (by decide) (by decide), State.rd_wr_self]
  rw [State.txSeq, hlo, hhi]
  omega

theorem State.txSeq_setTxSeq_ne (w : State) {n m : Nat} (v : Nat) (h : m ≠ n) : (w.setTxSeq n v).txSeq m = w.txSeq m := by
  have hkey : ∀ {f g : Fld}, g.key m ≠ f.key n := Fld.key_ne_inst h
  rw [State.txSeq, State.txSeq, State.rd_setTxSeq_ne _ _ _ hkey hkey (by decide) (by decide), State.rd_setTxSeq_ne _ _ _ hkey hkey (by decide) (by decide)]

/-! ### Release (R221, R241) -/

/-- The bundle that a tunnel's oldest closed stretch becomes. -/
def State.releasedBundle (s : State) (t k : Nat) (c : Closed) : Bundle :=
  { ctrl := false, tunnel := t, phase := s.rd F.KEY_DESC_PHASE k, seq := s.txSeq t, first := c.first, body := c.plain, resent := false }

/-- The bundle has taken its tokens, its SEQ and pipeline `p`. -/
def State.intoPipe (s : State) (n p k : Nat) (c : Closed) (rest : List Closed) : State :=
  ((s.setTtx n { s.ttx n with closed := rest, tokens := s.tokensNow n - (c.plain.length + 32) * 20, tokAt := s.time
                              crypto := (s.ttx n).crypto ++ [(s.releasedBundle n k c, p, c.ends)] }).dataPath (54 + p)).setTxSeq n (s.txSeq n + 1)

theorem State.releaseBundle_of_some {n p k : Nat} {c : Closed} {rest : List Closed} (hc : (s.ttx n).closed = c :: rest) (hp : s.freePipe = some p)
    (hk : s.txSlotFor n (s.txSeq n) = some k) : s.releaseBundle n =
      if s.canRelease n = true ∧ (c.plain.length + 32) * 20 ≤ s.tokensNow n then
        (((s.intoPipe n p k c rest).drainIngress n (s.ttx n).ingress.length).pauseCheck n, true)
      else (s, false) := by
  unfold State.releaseBundle State.intoPipe State.releasedBundle
  simp only [hc, hp, hk, Bool.and_eq_true, decide_eq_true_eq]

theorem State.releaseBundle_of_none {n : Nat} (h : (s.ttx n).closed = [] ∨ s.freePipe = none ∨ s.txSlotFor n (s.txSeq n) = none) : s.releaseBundle n = (s, false) := by
  unfold State.releaseBundle
  dsimp only
  split
  next hc hp hk =>
    rcases h with h | h | h
    · cases hc.symm.trans h
    · cases hp.symm.trans h
    · cases hk.symm.trans h
  next => rfl

/-- The votes come first; a rollover is aborted where the next SEQ reaches C before the offer is accepted (R257). -/
theorem exec_bundleRelease {u : State} (hu : u = (s.voteTx t).voteSlots t 0) : exec (.bundleRelease t) s =
    .next (if (u.releaseBundle t).2 && decide ((u.releaseBundle t).1.rd F.TUN_STATUS_ROLL_TX t = 2) &&
        decide (((u.releaseBundle t).1.ttx t).rollC = some ((u.releaseBundle t).1.txSeq t)) then (u.releaseBundle t).1.rollAbort t 1 2 else (u.releaseBundle t).1) := by
  rw [hu]
  rfl

theorem exec_bundleRelease_of_stays {u : State} (hu : u = (s.voteTx t).voteSlots t 0) (h : u.releaseBundle t = (u, false)) : exec (.bundleRelease t) s = .next u := by
  rw [exec_bundleRelease hu, h]
  rfl

theorem exec_bundleRelease_of_goes {u w : State} (hu : u = (s.voteTx t).voteSlots t 0) (h : u.releaseBundle t = (w, true)) :
    exec (.bundleRelease t) s = .next (if w.rd F.TUN_STATUS_ROLL_TX t = 2 ∧ (w.ttx t).rollC = some (w.txSeq t) then w.rollAbort t 1 2 else w) := by
  rw [exec_bundleRelease hu, h]
  exact congrArg _ (if_congr (by rw [Bool.true_and, Bool.and_eq_true, decide_eq_true_eq, decide_eq_true_eq]) rfl rfl)

/-! ### Encryption (R219, R239, R241) -/

theorem State.slotOf_state {n dir st k : Nat} (h : s.slotOf n dir st = some k) : s.rd F.KEY_DESC_STATE k = st := by
  have hp := List.find?_some h
  rw [Bool.and_eq_true, Bool.and_eq_true] at hp
  exact of_decide_eq_true hp.1.1

/-- A slot that serves a KEY_PHASE holds a key. -/
theorem State.slotPhase_state {n dir phase k : Nat} (h : s.slotPhase n dir phase = some k) : s.rd F.KEY_DESC_STATE k ≠ 0 := by
  unfold State.slotPhase at h
  split at h
  next j hj =>
    split at h
    · rw [← Option.some.inj h, State.slotOf_state hj]
      decide
    · rw [State.slotOf_state h]
      decide
  next => cases h

theorem exec_encryptDone_of_none (up : Bool) (h : s.inPipeline q = none) : exec (.encryptDone q up) s = .next s := by
  show execEncryptDone q up s = _
  unfold execEncryptDone
  rw [h]

theorem exec_encryptDone_of_some (up : Bool) {b : Bundle} (h : s.inPipeline q = some (t.val, b)) :
    exec (.encryptDone q up) s = .next (((s.voteTx t).voteSlots t 0).encrypted t b up) := by
  show execEncryptDone q up s = _
  unfold execEncryptDone
  rw [h]

/-- The direction without the bundle of a SEQ in encryption. -/
def State.outOfPipe (s : State) (n seq : Nat) : State := s.setTtx n { s.ttx n with crypto := (s.ttx n).crypto.filter fun e => e.1.seq ≠ seq }

/-- The frames that end in the bundle of a SEQ in encryption. -/
def State.endsIn (s : State) (n seq : Nat) : Nat := (((s.ttx n).crypto.filter fun e => e.1.seq = seq).map fun e => e.2.2).sum

/-- The state whose slot is read to encrypt a bundle. -/
def State.beforeSlot (s : State) (k : Nat) (up : Bool) : State := if up then s.setMark 8 (8 * k) 0 3 0 else s

theorem State.encrypted_eq (s : State) (n : Nat) (b : Bundle) (up : Bool) : s.encrypted n b up =
    match (s.outOfPipe n b.seq).slotPhase n 0 b.phase with
    | none => (s.outOfPipe n b.seq).endsDropped n (s.endsIn n b.seq)
    | some k =>
      let y := ((s.outOfPipe n b.seq).beforeSlot k up).slotTake k
      if y.1.resets ≠ s.resets then y.1
      else if !y.2 then y.1.endsDropped n (s.endsIn n b.seq)
      else
        let v := y.1.setTtx n { y.1.ttx n with done := (y.1.ttx n).done ++ [y.1.seal k b] }
        (((v.bump F.TUN_CNT_BUNDLES_TX_V n 1).perfTun 2 n 1).releaseDone n ((v.ttx n).done.length)).keyUse n k := by
  rw [State.endsIn, List.sum_eq_foldl, List.foldl_map]
  rfl

/-- The frames of a dropped bundle are counted. -/
theorem State.endsDropped_zero (s : State) (n : Nat) : s.endsDropped n 0 = s := rfl

theorem State.becomes_endsDropped (s : State) (n : Nat) {k : Nat} (hk : k ≠ 0) : s.Becomes (s.endsDropped n k)
    [(F.TUN_CNT_DROP_BLOCKED_V, n, min (s.rd F.TUN_CNT_DROP_BLOCKED_V n + k) (2 ^ F.TUN_CNT_DROP_BLOCKED_V.w - 1))] true := by
  rw [State.endsDropped, if_neg hk]
  exact ((State.Becomes.refl s true).bump F.TUN_CNT_DROP_BLOCKED_V n k (by simp) fun _ => rfl).counted (State.Counted.perfTun ..) (by simp [eventRegs])

/-- A command that drops a bundle with its frames. -/
theorem drops_of_eq {c : Instr} {v : State} {n frames : Nat} (h : exec c s = .next (v.endsDropped n frames)) :
    if frames = 0 then exec c s = .next v else Does c s fun r => v.Becomes r
      [(F.TUN_CNT_DROP_BLOCKED_V, n, min (v.rd F.TUN_CNT_DROP_BLOCKED_V n + frames) (2 ^ F.TUN_CNT_DROP_BLOCKED_V.w - 1))] true := by
  split
  next h0 => rw [h, h0, State.endsDropped_zero]
  next h0 => exact ⟨_, h, v.becomes_endsDropped n h0⟩

theorem State.becomes_bundleCounted (s : State) (n : Nat) : s.Becomes ((s.bump F.TUN_CNT_BUNDLES_TX_V n 1).perfTun 2 n 1)
    [(F.TUN_CNT_BUNDLES_TX_V, n, min (s.rd F.TUN_CNT_BUNDLES_TX_V n + 1) (2 ^ F.TUN_CNT_BUNDLES_TX_V.w - 1))] true :=
  ((State.Becomes.refl s true).bump F.TUN_CNT_BUNDLES_TX_V n 1 (by simp) fun _ => rfl).counted (State.Counted.perfTun ..) (by simp [eventRegs])

/-! ### Whether the slot serves (R242) -/

theorem State.slotTake_upset_eq (s : State) (k : Nat) {up : Bool} (h : up = true) : ((s.beforeSlot k up).slotTake k).2 = false := by
  rw [State.beforeSlot, if_pos h]
  exact s.slotTake_of_upset k

/-- Without inverted bits in the slots before the votes the slot serves. -/
theorem State.slotTake_votes {u : State} (hu : u = (s.voteTx t).voteSlots t 0) (hm : ∀ m ∈ s.marks, m.region ≠ 8) (hw : ∀ a ∈ s.withheld, a.region ≠ 8)
    {seq phase k : Nat} (hk : (u.outOfPipe t seq).slotPhase t 0 phase = some k) {up : Bool} (hup : up = false) :
    (((u.outOfPipe t seq).beforeSlot k up).slotTake k).2 = true := by
  have hvotes : u.KeyWords := hu ▸ State.keyWords_voteSlots (State.keyWords_voteTx (State.keyWords_of_region hm hw) t.isLt) t 0
  have hout : (u.outOfPipe t seq).KeyWords := (State.quiet_setTtx _ _).keyWords hvotes
  rw [State.beforeSlot, if_neg (by simp [hup])]
  exact State.slotTake_of_sound (hout.sound (State.slotPhase_state hk))

/-- The bundles that wait for their turn are those from before the slot was read. -/
theorem State.done_of_slotTake {n seq k : Nat} {up : Bool} (h : (((s.outOfPipe n seq).beforeSlot k up).slotTake k).2 = true)
    (hr : (((s.outOfPipe n seq).beforeSlot k up).slotTake k).1.resets = s.resets) :
    ((((s.outOfPipe n seq).beforeSlot k up).slotTake k).1.ttx n).done = (s.ttx n).done := by
  have hbefore : ((s.outOfPipe n seq).beforeSlot k up).tunTx = (s.outOfPipe n seq).tunTx ∧ ((s.outOfPipe n seq).beforeSlot k up).resets = s.resets := by
    unfold State.beforeSlot
    split <;> exact ⟨rfl, rfl⟩
  have htx := (State.quiet_slotTake h).tunTx rfl (hr.trans hbefore.2.symm)
  rw [State.ttx, htx, hbefore.1]
  show ((s.outOfPipe n seq).ttx n).done = _
  rw [State.outOfPipe, State.ttx_setTtx_self]

/-! ### A failed pipeline (R32, R243, R244) -/

theorem exec_pipelineParityFail_of_not {tx : Bool} (h : s.inPipe (pipeMap tx) q = false) : exec (.pipelineParityFail tx q) s = .next s := by
  show Host.Outcome.next (if s.inPipe (pipeMap tx) q then _ else s) = _
  rw [h]
  rfl

theorem pipeMaps_apart (tx : Bool) : (pipeMap tx).key 0 ≠ (pipeFailMap tx).key 0 ∧ (pipeMap tx).w = 32 ∧ (pipeFailMap tx).w = 32 := by
  cases tx
  · exact ⟨by decide, rfl, rfl⟩
  · exact ⟨by decide, rfl, rfl⟩

/-- A pipeline that was active is no spare, so that excluding it leaves the lowest spare. -/
theorem State.spare_pipeExclude {tx : Bool} (h : s.inPipe (pipeMap tx) q = true) : (s.pipeExclude tx q).spare tx = s.spare tx := by
  obtain ⟨hkey, -, hw⟩ := pipeMaps_apart tx
  have hact : ∀ p, (s.pipeExclude tx q).inPipe (pipeMap tx) p = s.inPipe (pipeMap tx) p := fun p => by
    rw [State.inPipe, State.inPipe, State.pipeExclude, State.rd_wr_ne _ _ hkey]
  have hstate : ∀ j, (s.pipeExclude tx q).rd F.KILN_REG_STATE j = s.rd F.KILN_REG_STATE j := fun j =>
    State.rd_wr_ne _ _ (Fld.key_ne_reg (by cases tx <;> decide))
  refine List.find?_congr fun p hp => ?_
  rw [hact, hstate]
  by_cases hpq : p = q
  · rw [hpq, h, Bool.not_true, Bool.false_and, Bool.false_and]
    rfl
  · have hout : (s.pipeExclude tx q).inPipe (pipeFailMap tx) p = s.inPipe (pipeFailMap tx) p := by
      rw [State.inPipe, State.inPipe, State.pipeExclude, State.rd_wr_self, hw, Nat.testBit_mod_two_pow]
      have : (Nat.lor (s.rd (pipeFailMap tx) 0) (2 ^ q.val)).testBit p = (s.rd (pipeFailMap tx) 0).testBit p := by
        show (s.rd (pipeFailMap tx) 0 ||| 2 ^ q.val).testBit p = _
        rw [Nat.testBit_lor, Nat.testBit_two_pow_of_ne (Ne.symm hpq), Bool.or_false]
      rw [this, decide_eq_true (List.mem_range.1 hp), Bool.true_and]
    rw [hout]

/-- The maps once an active pipeline has failed and the lowest spare has joined. -/
def State.failedOut (s : State) (tx : Bool) (p : Nat) : State :=
  (s.pipeExclude tx p).wr (pipeMap tx) 0
    (match s.spare tx with | some r => Nat.lor (s.rd (pipeMap tx) 0 - 2 ^ p) (2 ^ r) | none => s.rd (pipeMap tx) 0 - 2 ^ p)

theorem State.becomes_failedOut (s : State) (tx : Bool) (p : Nat) : s.Becomes (s.failedOut tx p)
    [(pipeFailMap tx, 0, Nat.lor (s.rd (pipeFailMap tx) 0) (2 ^ p) % 2 ^ 32),
      (pipeMap tx, 0, (match s.spare tx with | some r => Nat.lor (s.rd (pipeMap tx) 0 - 2 ^ p) (2 ^ r) | none => s.rd (pipeMap tx) 0 - 2 ^ p) % 2 ^ 32)] false := by
  obtain ⟨hkey, hact, hfail⟩ := pipeMaps_apart tx
  have h := ((State.Becomes.refl s false).wr (pipeFailMap tx) 0 (Nat.lor (s.rd (pipeFailMap tx) 0) (2 ^ p)) (by simp)).wr (pipeMap tx) 0
    (match s.spare tx with | some r => Nat.lor (s.rd (pipeMap tx) 0 - 2 ^ p) (2 ^ r) | none => s.rd (pipeMap tx) 0 - 2 ^ p) (by simpa using Ne.symm hkey)
  rwa [hact, hfail] at h

/-- What follows from a failed pipeline in the units behind: Kiln, the bundles run again, the journal, source 488 and the error line. -/
def State.afterFailed (s : State) (tx : Bool) (p : Nat) (w : State) : State :=
  let z := match s.spare tx with | some r => w.dataPath ((if tx then 54 else 86) + r) | none => w
  let v := if tx then match z.rerunPipe with | some r => z.rerun p r | none => z else z
  ((if (s.spare tx).isNone then v.journalAdd 7 [3, bit tx, p] else v.faultNote s [3, bit tx, p]).irq 488).errorLine (if tx then 13 else 14) p 1

theorem exec_pipelineParityFail_of_active {tx : Bool} (h : s.inPipe (pipeMap tx) q = true) :
    exec (.pipelineParityFail tx q) s = .next (s.afterFailed tx q (s.failedOut tx q)) := by
  have hspare := State.spare_pipeExclude h
  have hlines : s.pipeFail tx q 1 = s.afterFailed tx q (s.failedOut tx q) := by
    unfold State.pipeFail State.pipeLines State.afterFailed State.failedOut
    dsimp only
    rw [if_pos h, hspare]
    cases s.spare tx <;> rfl
  show Host.Outcome.next (if s.inPipe (pipeMap tx) q then _ else s) = _
  rw [if_pos h, hlines]

end Sys2Proof.Machine
end

section
/-!
PROOFS. Loading and zeroising keys (R248 to R253).
-/

namespace Sys2Proof.Machine

variable {s t u : State} {ag : Agent}

/-! ### The staged words and the access mode during votes -/

/-- Without a chip reset in between, the staged words and the access mode are the same. -/
structure State.StageKept (s t : State) : Prop where
  resets : s.resets ≤ t.resets
  kept : t.resets = s.resets → ∀ g j, g.reg = .KEY_STAGE ∨ g.reg = .SYS_ACCESS_MODE → t.rd g j = s.rd g j

theorem State.StageKept.trans (h : s.StageKept t) (k : t.StageKept u) : s.StageKept u := by
  have h1 := h.resets
  have h2 := k.resets
  exact ⟨h1.trans h2, fun e g j hg => (k.kept (by omega) g j hg).trans (h.kept (by omega) g j hg)⟩

theorem State.Quiet.stageKept {words : Bool} (h : s.Quiet words t) : s.StageKept t :=
  ⟨h.resets, fun e g j hg => h.kept e g j (by rcases hg with e | e <;> rw [e] <;> rfl)⟩

theorem stageReg_ne {r : Reg} (h : r = .KEY_STAGE ∨ r = .SYS_ACCESS_MODE) : r ≠ .KEY_DESC ∧ r ≠ .MEMP_STATUS ∧ r ≠ .MEMP_INJECT_CTL := by
  rcases h with rfl | rfl
  · decide
  · decide

theorem State.stageKept_slotZero (s : State) (k : Nat) : s.StageKept (s.slotZero k) := by
  have hw := s.wiped_slotWipe k
  have hwipe : s.StageKept (s.slotWipe k) := by
    refine ⟨(congrArg State.resets hw.eq :).ge, fun _ g j hg => ?_⟩
    obtain ⟨hdesc, hstatus, hinject⟩ := stageReg_ne hg
    exact hw.rd g j (fun e => absurd e hdesc) hstatus hinject
  unfold State.slotZero
  dsimp only
  split
  · exact hwipe.trans (State.quiet_tunState _).stageKept
  · exact hwipe

theorem State.stageKept_tvStore (s : State) (k v : Nat) : s.StageKept (s.tvStore (tvKey k) v) := by
  by_cases hk : k < 128
  · rw [State.tvStore_key hk]
    obtain ⟨⟨r, he⟩, hrd⟩ := s.putWord_keyDesc k v
    exact ⟨by rw [he], fun _ g j hg => hrd g j fun e => absurd e (stageReg_ne hg).1⟩
  · exact (State.quiet_tvStore (words := true) (.inr (by unfold tvKey; omega)) v).stageKept

theorem State.stageKept_voteKey (s : State) (k : Nat) : s.StageKept (s.voteKey k) := by
  refine State.StageKept.trans ?_ (State.quiet_errorLines (words := true) (memLines_tvVoteL s (tvKey k) fun t => t.slotZero k)).stageKept
  rcases s.tvVoteL_cases (words := true) (tvKey k) fun t => t.slotZero k with ⟨w, -, hq⟩ | ⟨-, u, hu, he⟩
  · refine (State.quiet_voteRead (words := true) (tvKey k)).stageKept.trans (.trans ?_ hq.stageKept)
    split
    · exact (State.Quiet.refl (words := true) _).stageKept
    · exact State.stageKept_tvStore _ k w
  · rw [he]
    exact hu.stageKept.trans (u.stageKept_slotZero k)

theorem State.StageKept.service (h : s.StageKept t) (e : t.resets = s.resets) : t.service = s.service := by
  rw [State.service, State.service, State.on, State.on, h.kept e _ _ (.inr rfl)]

theorem State.StageKept.staged (h : s.StageKept t) (e : t.resets = s.resets) (n : Nat) : t.staged n = s.staged n := by
  have hword : (fun i => t.rd F.KEY_STAGE_DATA i) = fun i => s.rd F.KEY_STAGE_DATA i := funext fun i => h.kept e _ i (.inl rfl)
  rw [State.staged, State.staged, hword]

/-! ### Loading (R248 to R250) -/

/-- The descriptors that a load reads are voted. -/
def State.loadVoted (s : State) (kek k : Nat) : State := (s.voteKey k).voteKey kek

theorem State.stageKept_loadVoted (s : State) (kek k : Nat) : s.StageKept (s.loadVoted kek k) := (s.stageKept_voteKey k).trans (State.stageKept_voteKey _ kek)

theorem State.keyWords_loadVoted (h : s.KeyWords) (kek k : Nat) : (s.loadVoted kek k).KeyWords := State.keyWords_voteKey (State.keyWords_voteKey h k) kek

theorem keyLoadValue_fields {mode kek k : Nat} (hm : mode < 4) (hkek : kek < 128) (hk : k < 128) :
    F.KEY_LOAD_SLOT.of (keyLoadValue mode kek k) = k ∧ F.KEY_LOAD_KEK.of (keyLoadValue mode kek k) = kek ∧ F.KEY_LOAD_MODE.of (keyLoadValue mode kek k) = mode := by
  simp only [Fld.of, keyLoadValue]
  omega

/-- A wrapped key: it is unwrapped with the KEK, and loaded by its mode. -/
def State.loadWrapped (u : State) (mode kek k : Nat) : State × Status :=
  match kwUnwrap ((u.slotTake kek).1.slotKey kek) (u.staged 12) with
  | none => ((u.slotTake kek).1, .unitError)
  | some m => if mode = 0 then (u.slotTake kek).1.loadTunnelKey k m else (u.slotTake kek).1.loadKek k m

theorem State.loadWrapped_of_none {mode kek k : Nat} (h : kwUnwrap ((u.slotTake kek).1.slotKey kek) (u.staged 12) = none) :
    u.loadWrapped mode kek k = ((u.slotTake kek).1, .unitError) := by rw [State.loadWrapped, h]

theorem State.loadWrapped_of_some {mode kek k : Nat} {m : List Nat} (h : kwUnwrap ((u.slotTake kek).1.slotKey kek) (u.staged 12) = some m) :
    u.loadWrapped mode kek k = if mode = 0 then (u.slotTake kek).1.loadTunnelKey k m else (u.slotTake kek).1.loadKek k m := by rw [State.loadWrapped, h]

theorem State.keyLoad_eq {mode kek k : Nat} (hm : mode < 4) (hkek : kek < 128) (hk : k < 128) : s.keyLoad (keyLoadValue mode kek k) =
    if (s.loadVoted kek k).resets ≠ s.resets then (s.loadVoted kek k, .ok)
    else if mode = 3 ∨ (s.loadVoted kek k).rd F.KEY_DESC_STATE k ≠ 0 then (s.loadVoted kek k, .refusedState)
    else if mode = 2 then
      if (s.loadVoted kek k).service then (s.loadVoted kek k, .refusedState)
      else (((s.loadVoted kek k).keyStore k ((s.loadVoted kek k).staged 8) 0).setDesc k 0 0 0 4, .ok)
    else if (s.loadVoted kek k).rd F.KEY_DESC_STATE kek ≠ 4 then (s.loadVoted kek k, .refusedState)
    else if !((s.loadVoted kek k).slotTake kek).2 || ((s.loadVoted kek k).slotTake kek).1.resets ≠ (s.loadVoted kek k).resets then
      (((s.loadVoted kek k).slotTake kek).1, .refusedState)
    else (s.loadVoted kek k).loadWrapped mode kek k := by
  obtain ⟨h1, h2, h3⟩ := keyLoadValue_fields hm hkek hk
  unfold State.keyLoad
  dsimp only
  rw [h1, h2, h3, ← State.loadVoted]
  generalize s.loadVoted kek k = u
  refine if_congr Iff.rfl rfl (if_congr Iff.rfl rfl (if_congr Iff.rfl rfl (if_congr Iff.rfl rfl (if_congr Iff.rfl rfl ?_))))
  cases hkey : kwUnwrap ((u.slotTake kek).1.slotKey kek) (u.staged 12) with
  | none => exact (State.loadWrapped_of_none hkey).symm
  | some m => exact (State.loadWrapped_of_some hkey).symm

/-- The completion stands in LAST, and KEY_STAGE is cleared (R250). -/
def State.loadEnds (s w : State) (st : Status) : State := ((s.unlessReset w fun w => w.stageClear.wr F.KEY_STATUS_LAST 0 st.code).answer st 0).settle

theorem exec_keyLoad_of_eq {mode : BitVec 2} {kek slot : BitVec 7} {w : State} {st : Status} (h : s.Accepts ag .KEY_LOAD 0 (keyLoadValue mode.toNat kek.toNat slot.toNat))
    (he : s.keyLoad (keyLoadValue mode.toNat kek.toNat slot.toNat) = (w, st)) : exec (.keyLoad ag mode kek slot) s = .next (s.loadEnds w st) := by
  refine congrArg _ ((State.writing_of_accepts h _).trans ?_)
  rw [State.keyLoadWrite, he]
  rfl

theorem State.loadKek_of_bad {k : Nat} {m : List Nat} (h : ∃ b ∈ m.drop 32, b ≠ 0) : s.loadKek k m = (s, .unitError) := if_pos (by simpa using h)

theorem State.loadKek_of_good {k : Nat} {m : List Nat} (h : ∀ b ∈ m.drop 32, b = 0) : s.loadKek k m = ((s.keyStore k (m.take 32) 0).setDesc k 0 0 0 4, .ok) :=
  if_neg (by simpa using h)

/-- A wrapped tunnel key whose form is not that of R250. -/
abbrev BadForm (m : List Nat) : Prop := 24 ≤ m.getD 36 0 ∨ 4 ≤ m.getD 37 0 ∨ m.getD 38 0 ≠ 0 ∨ m.getD 39 0 ≠ 0

/-- The place of a tunnel key is taken, or a NEXT key has no CURRENT one (R248). -/
abbrev State.PlaceTaken (z : State) (n dir next : Nat) : Prop := (z.slotOf n dir (2 + next)).isSome = true ∨ (next = 1 ∧ z.slotOf n dir 2 = none)

/-- The key stands in its slot. -/
def State.tunnelKeyStored (z : State) (k : Nat) (m : List Nat) : State :=
  let tun := m.getD 36 0
  let dir := m.getD 37 0 % 2
  let next := m.getD 37 0 / 2 % 2
  let r := (z.keyStore k (m.take 32) (numBe ((m.drop 32).take 4))).setDesc k tun dir (if next = 1 then 1 - z.curPhase tun dir else 0) (2 + next)
  (if next = 1 then r else r.rekeyed tun dir).tunState tun

theorem State.loadTunnelKey_eq {z : State} {k : Nat} {m : List Nat} (hz : z = s.voteSlots (m.getD 36 0) (m.getD 37 0 % 2)) : s.loadTunnelKey k m =
    if z.resets ≠ s.resets then (z, .ok)
    else if BadForm m then (z, .unitError)
    else if z.PlaceTaken (m.getD 36 0) (m.getD 37 0 % 2) (m.getD 37 0 / 2 % 2) then (z, .refusedState)
    else (z.tunnelKeyStored k m, .ok) := by
  unfold State.loadTunnelKey
  dsimp only
  rw [← hz]
  refine if_congr Iff.rfl rfl (if_congr Iff.rfl rfl (if_congr ?_ rfl rfl))
  rw [Bool.or_eq_true, Bool.and_eq_true, decide_eq_true_eq, Option.isNone_iff_eq_none]

/-! ### Zeroising (R252, R253) -/

theorem State.rd_stageClear (s : State) : (∀ j < 12, s.stageClear.rd F.KEY_STAGE_DATA j = 0) ∧ (∀ g j, g.reg ≠ .KEY_STAGE → s.stageClear.rd g j = s.rd g j) ∧
    ∃ r, s.stageClear = { s with regs := r } := by
  have hall : ∀ (l : List Nat) (v : State), (∀ j, (j ∈ l ∨ v.rd F.KEY_STAGE_DATA j = 0) → (l.foldl (fun t i => t.wr F.KEY_STAGE_DATA i 0) v).rd F.KEY_STAGE_DATA j = 0) ∧
      (∀ g j, g.reg ≠ .KEY_STAGE → (l.foldl (fun t i => t.wr F.KEY_STAGE_DATA i 0) v).rd g j = v.rd g j) ∧
      ∃ r, l.foldl (fun t i => t.wr F.KEY_STAGE_DATA i 0) v = { v with regs := r } := fun l => by
    induction l with
    | nil => exact fun v => ⟨fun j h => h.resolve_left List.not_mem_nil, fun _ _ _ => rfl, _, rfl⟩
    | cons i l ih =>
      intro v
      obtain ⟨hzero, hrd, r, he⟩ := ih (v.wr F.KEY_STAGE_DATA i 0)
      refine ⟨fun j hj => hzero j ?_, fun g j hg => (hrd g j hg).trans (State.rd_wr_ne _ _ (Fld.key_ne_reg hg)), r, he⟩
      by_cases hij : j = i
      · exact .inr (hij ▸ State.rd_wr_self ..)
      · rw [State.rd_wr_ne _ _ (Fld.key_ne_inst hij)]
        exact hj.imp_left fun h => (List.mem_cons.1 h).resolve_left hij
  obtain ⟨hzero, hrest⟩ := hall (List.range 12) s
  exact ⟨fun j hj => hzero j (.inl (List.mem_range.2 hj)), hrest⟩

/-- What the obligation asks of overwritten slots, where KEY_STAGE may be cleared with them. -/
def State.WipedFacts (s w : State) (gone : Nat → Prop) : Prop :=
  (∀ j, gone j → w.rd F.KEY_DESC_STATE j = 0 ∧ w.rd F.KEY_DESC_TUNNEL j = 0 ∧ ∀ i < 16, w.ld .keySlot (16 * j + i) = 0) ∧
  (∀ g j, (g.reg = .KEY_DESC → ¬ gone j) → g.reg ≠ .KEY_STAGE → g.reg ≠ .MEMP_STATUS → g.reg ≠ .MEMP_INJECT_CTL → w.rd g j = s.rd g j) ∧
  (∀ sp i, sp ≠ .keySlot ∨ ¬ gone (i / 16) → w.ld sp i = s.ld sp i) ∧ (∀ j, gone j → Amap.get 0 w.slotUse j = 0) ∧
  (∀ j, ¬ gone j → Amap.get 0 w.slotUse j = Amap.get 0 s.slotUse j) ∧ (∀ m, m.region ≠ 10 → m.region ≠ 8 → (m ∈ w.marks ↔ m ∈ s.marks)) ∧
  w = { s with regs := w.regs, mem := w.mem, marks := w.marks, slotUse := w.slotUse, tamperLow := w.tamperLow }

theorem State.Wiped.facts {gone : Nat → Prop} (h : s.Wiped t gone) : s.WipedFacts t gone := by
  obtain ⟨hempty, hrd, hld, hunused, huse, hmarks, he⟩ := h
  have htamper : t.tamperLow = s.tamperLow := (congrArg State.tamperLow he :)
  refine ⟨hempty, fun g j hg _ h1 h2 => hrd g j hg h1 h2, hld, hunused, huse, hmarks, ?_⟩
  rw [htamper]
  exact he

/-- KEY_STAGE is cleared too. -/
theorem State.WipedFacts.stageClear {gone : Nat → Prop} (h : s.WipedFacts t gone) : s.WipedFacts t.stageClear gone := by
  obtain ⟨hempty, hrd, hld, hunused, huse, hmarks, he⟩ := h
  obtain ⟨-, hstage, r, hr⟩ := t.rd_stageClear
  have hdesc : ∀ f : Fld, f.reg = .KEY_DESC → ∀ j, t.stageClear.rd f j = t.rd f j := fun f hf j => hstage f j (by rw [hf]; decide)
  have hl : ∀ sp i, t.stageClear.ld sp i = t.ld sp i := fun sp i => by rw [hr]; rfl
  refine ⟨fun j hj => ?_, fun g j hg hg' h1 h2 => (hstage g j hg').trans (hrd g j hg hg' h1 h2), fun sp i hi => (hl sp i).trans (hld sp i hi), fun j hj => ?_, fun j hj => ?_,
    fun m h1 h2 => ?_, ?_⟩
  · rw [hdesc _ rfl, hdesc _ rfl]
    obtain ⟨h1, h2, h3⟩ := hempty j hj
    exact ⟨h1, h2, fun i hi => (hl _ _).trans (h3 i hi)⟩
  · rw [hr]; exact hunused j hj
  · rw [hr]; exact huse j hj
  · rw [hr]; exact hmarks m h1 h2
  · rw [hr, he]

theorem State.Wiped.stageClear {gone : Nat → Prop} (h : s.Wiped t gone) : s.WipedFacts t.stageClear gone ∧ t.stageClear.tamperLow = s.tamperLow ∧
    ∀ j < 12, t.stageClear.rd F.KEY_STAGE_DATA j = 0 := by
  obtain ⟨hzero, -, r, hr⟩ := t.rd_stageClear
  refine ⟨h.facts.stageClear, ?_, hzero⟩
  rw [hr]
  exact (congrArg State.tamperLow h.eq :)

/-- All slots are overwritten. -/
def State.slotsWiped (s : State) : State := (List.range 128).foldl (fun t k => t.slotWipe k) s

/-- All slots and KEY_STAGE are overwritten. -/
def State.allWiped (s : State) : State := s.slotsWiped.stageClear

theorem State.wiped_slotsWiped (s : State) : s.Wiped s.slotsWiped fun j => j < 128 := by
  unfold State.slotsWiped
  exact (s.wiped_foldl (List.range 128)).congr fun j => List.mem_range

theorem State.wipedFacts_allWiped (s : State) : s.WipedFacts s.allWiped (fun j => j < 128) ∧ s.allWiped.tamperLow = s.tamperLow ∧
    ∀ j < 12, s.allWiped.rd F.KEY_STAGE_DATA j = 0 := s.wiped_slotsWiped.stageClear

theorem exec_keyZeroiseSlot_of_accepts {slot : BitVec 7} (h : s.Accepts ag .KEY_ZEROISE 0 slot.toNat) :
    exec (.keyZeroiseSlot ag slot) s = .next (((s.slotZero slot.toNat).answer .ok 0).settle) := by
  have hlt := slot.isLt
  have hall : F.KEY_ZEROISE_ALL.of slot.toNat ≠ 1 := by
    simp only [Fld.of]
    omega
  have hslot : F.KEY_ZEROISE_SLOT.of slot.toNat = slot.toNat := by
    simp only [Fld.of]
    omega
  refine congrArg _ ((State.writing_of_accepts h _).trans ?_)
  rw [State.zeroiseWrite, if_neg hall, hslot]

/-- What follows once everything is overwritten: the tunnels block, a new epoch, beacons. -/
def State.afterWiped (s w : State) : State :=
  s.unlessReset (((List.range 24).foldl (fun v j => v.tunState j) w).event F.KEY_STATUS_ALL_ZERO 0).newEpoch State.flagBeacons

theorem State.zeroiseAll_eq (s : State) : s.zeroiseAll = s.afterWiped s.allWiped := rfl

theorem exec_keyZeroiseAll_of_accepts (h : s.Accepts ag .KEY_ZEROISE 0 256) :
    exec (.keyZeroiseAll ag) s = .next (((s.afterWiped s.allWiped).answer .ok 0).settle) := by
  show Host.Outcome.next (s.writing ag .KEY_ZEROISE 0 256 fun t => t.zeroiseWrite 256) = _
  rw [State.writing_of_accepts h, State.zeroiseWrite, if_pos (by decide), State.zeroiseAll_eq]

/-- The inputs that are low. -/
def State.withTamper (s : State) (lows : BitVec 4) : State := { s with tamperLow := (List.range 4).filter fun i => lows.toNat.testBit i }

theorem exec_tamperInput_of_low {lows : BitVec 4} (h : lows ≠ 0) : exec (.tamperInput lows) s =
    .next ((s.unlessReset (s.afterWiped (s.withTamper lows).allWiped) fun v => v.event F.KEY_STATUS_TAMPER 0).errorLine 41 (lowest4 lows.toNat) 0) := by
  show execTamperInput lows s = _
  unfold execTamperInput
  dsimp only
  rw [if_neg h, ← State.withTamper, State.zeroiseAll_eq]
  rfl

theorem State.wipedFacts_tamper (s : State) (lows : BitVec 4) : s.WipedFacts (s.withTamper lows).allWiped (fun j => j < 128) ∧
    (∀ j < 12, (s.withTamper lows).allWiped.rd F.KEY_STAGE_DATA j = 0) ∧ ∀ i : Fin 4, i.val ∈ (s.withTamper lows).allWiped.tamperLow ↔ lows.toNat.testBit i = true := by
  obtain ⟨⟨hempty, hrd, hld, hunused, huse, hmarks, he⟩, htamper, hstage⟩ := (s.withTamper lows).wipedFacts_allWiped
  refine ⟨⟨hempty, hrd, hld, hunused, huse, hmarks, he⟩, hstage, fun i => ?_⟩
  rw [htamper, State.withTamper, List.mem_filter, List.mem_range]
  exact and_iff_right i.isLt

end Sys2Proof.Machine
end

section
/-!
PROOFS. O40: encryption and keys, command by command.
-/

namespace Sys2Proof.Machine

variable {s : State} {ag : Agent} {t : Fin 24} {q : Fin 32}

/-! ### The clauses of one command -/

theorem bundleRelease_clause {u : State} (hu : u = (s.voteTx t).voteSlots t 0) {c : Closed} {rest : List Closed} {p k : Nat} (hc : (u.ttx t).closed = c :: rest)
    (hp : u.freePipe = some p) (hk : u.txSlotFor t (u.txSeq t) = some k) :
    (¬ (u.canRelease t = true ∧ (c.plain.length + 32) * 20 ≤ u.tokensNow t) → exec (.bundleRelease t) s = .next u) ∧
    (u.canRelease t = true ∧ (c.plain.length + 32) * 20 ≤ u.tokensNow t → DoesThen (.bundleRelease t) s (fun w =>
      let w := (w.drainIngress t (u.ttx t).ingress.length).pauseCheck t
      if w.rd F.TUN_STATUS_ROLL_TX t = 2 ∧ (w.ttx t).rollC = some (w.txSeq t) then w.rollAbort t 1 2 else w) fun w => w = u.intoPipe t p k c rest) := by
  have hrel := State.releaseBundle_of_some hc hp hk
  refine ⟨fun hno => exec_bundleRelease_of_stays hu (hrel.trans (if_neg hno)), fun hgo => ⟨_, rfl, ?_⟩⟩
  exact exec_bundleRelease_of_goes hu (hrel.trans (if_pos hgo))

theorem exec_encryptDone_of_no_slot {u : State} (hu : u = (s.voteTx t).voteSlots t 0) {b : Bundle} (hb : s.inPipeline q = some (t.val, b)) (up : Bool)
    (hk : (u.outOfPipe t b.seq).slotPhase t 0 b.phase = none) : exec (.encryptDone q up) s = .next ((u.outOfPipe t b.seq).endsDropped t (u.endsIn t b.seq)) := by
  have hexec := exec_encryptDone_of_some up hb
  rw [← hu, State.encrypted_eq, hk] at hexec
  exact hexec

/-- What an end of encryption does once the slot of the bundle is known. -/
theorem encryptDone_clause {u : State} (hu : u = (s.voteTx t).voteSlots t 0) {b : Bundle} (hb : s.inPipeline q = some (t.val, b)) (up : Bool) {k : Nat}
    (hk : (u.outOfPipe t b.seq).slotPhase t 0 b.phase = some k) {y : State × Bool} (hy : y = ((u.outOfPipe t b.seq).beforeSlot k up).slotTake k) :
    (y.1.resets ≠ u.resets → exec (.encryptDone q up) s = .next y.1) ∧
    (y.1.resets = u.resets → y.2 = false → exec (.encryptDone q up) s = .next (y.1.endsDropped t (u.endsIn t b.seq))) ∧
    (y.1.resets = u.resets → y.2 = true → DoesThen (.encryptDone q up) s (fun v => (v.releaseDone t ((u.ttx t).done.length + 1)).keyUse t k) fun v =>
      (y.1.setTtx t { y.1.ttx t with done := (u.ttx t).done ++ [y.1.seal k b] }).Becomes v
        [(F.TUN_CNT_BUNDLES_TX_V, t.val, min (y.1.rd F.TUN_CNT_BUNDLES_TX_V t + 1) (2 ^ F.TUN_CNT_BUNDLES_TX_V.w - 1))] true) := by
  have hexec := exec_encryptDone_of_some up hb
  rw [← hu, State.encrypted_eq, hk] at hexec
  dsimp only at hexec
  rw [← hy] at hexec
  refine ⟨fun hr => ?_, fun hr hlost => ?_, fun hr hgood => ?_⟩
  · rw [hexec, if_pos hr]
  · rw [hexec, if_neg (not_not.2 hr), if_pos (by simp [hlost])]
  · have hdone : (y.1.ttx t).done = (u.ttx t).done := by
      subst hy
      exact State.done_of_slotTake hgood hr
    rw [if_neg (not_not.2 hr), if_neg (by simp [hgood]), hdone] at hexec
    refine ⟨_, State.becomes_bundleCounted _ t, ?_⟩
    rw [hexec, State.ttx_setTtx_self, List.length_append, List.length_singleton]

theorem bitVec2_eq_three {mode : BitVec 2} : mode = 3 ↔ mode.toNat = 3 := by
  rw [← BitVec.toNat_inj]
  rfl

theorem bitVec2_eq_two {mode : BitVec 2} : mode = 2 ↔ mode.toNat = 2 := by
  rw [← BitVec.toNat_inj]
  rfl

/-- The branches of a load (R248 to R250). -/
theorem keyLoad_cases {m kek k : Nat} (hm : m < 4) (hkek : kek < 128) (hk : k < 128) {u : State} (hu : u = s.loadVoted kek k) {l : State × Status}
    (hl : s.keyLoad (keyLoadValue m kek k) = l) :
    (u.resets ≠ s.resets → l = (u, .ok)) ∧
    (u.resets = s.resets → m = 3 ∨ ¬ u.rd F.KEY_DESC_STATE k = 0 → l = (u, .refusedState)) ∧
    (u.resets = s.resets → m = 2 → u.rd F.KEY_DESC_STATE k = 0 → l = if u.service then (u, .refusedState) else ((u.keyStore k (u.staged 8) 0).setDesc k 0 0 0 4, .ok)) ∧
    (u.resets = s.resets → m < 2 → u.rd F.KEY_DESC_STATE k = 0 → u.rd F.KEY_DESC_STATE kek ≠ 4 → l = (u, .refusedState)) ∧
    (u.resets = s.resets → m < 2 → u.rd F.KEY_DESC_STATE k = 0 → u.rd F.KEY_DESC_STATE kek = 4 →
      ((u.slotTake kek).2 = false ∨ (u.slotTake kek).1.resets ≠ u.resets → l = ((u.slotTake kek).1, .refusedState)) ∧
      ((u.slotTake kek).2 = true → (u.slotTake kek).1.resets = u.resets → l = u.loadWrapped m kek k)) := by
  have heq := hl.symm.trans (State.keyLoad_eq hm hkek hk)
  rw [← hu] at heq
  refine ⟨fun hr => heq.trans (if_pos hr), fun hr h => ?_, fun hr h2 hfree => ?_, fun hr h2 hfree hno => ?_, fun hr h2 hfree h4 => ?_⟩ <;>
    rw [if_neg (not_not.2 hr)] at heq
  · rw [heq, if_pos h]
  · rw [heq, if_neg (not_or.2 ⟨by omega, not_not.2 hfree⟩), if_pos h2]
  · rw [heq, if_neg (not_or.2 ⟨by omega, not_not.2 hfree⟩), if_neg (by omega), if_pos hno]
  · rw [if_neg (not_or.2 ⟨by omega, not_not.2 hfree⟩), if_neg (by omega), if_neg (not_not.2 h4)] at heq
    refine ⟨fun h => heq.trans (if_pos ?_), fun hgood hres => heq.trans (if_neg ?_)⟩
    · rw [Bool.or_eq_true, Bool.not_eq_true', decide_eq_true_eq]
      exact h
    · rw [Bool.or_eq_true, Bool.not_eq_true', decide_eq_true_eq, hgood]
      rintro (h | h)
      · cases h
      · exact h hres

/-- A load of a tunnel key that was unwrapped (R248). -/
theorem tunnelKey_clause {v z : State} {k : Nat} {m : List Nat} (hz : z = v.voteSlots (m.getD 36 0) (m.getD 37 0 % 2)) {last : State → Status → Prop}
    (hlast : ∀ w st, v.loadTunnelKey k m = (w, st) → last w st) :
    (z.resets ≠ v.resets → last z .ok) ∧
    (z.resets = v.resets → (BadForm m → last z .unitError) ∧
      (¬ BadForm m → z.PlaceTaken (m.getD 36 0) (m.getD 37 0 % 2) (m.getD 37 0 / 2 % 2) → last z .refusedState) ∧
      (¬ BadForm m → ¬ z.PlaceTaken (m.getD 36 0) (m.getD 37 0 % 2) (m.getD 37 0 / 2 % 2) → last (z.tunnelKeyStored k m) .ok)) := by
  have heq := State.loadTunnelKey_eq (k := k) hz
  refine ⟨fun hr => hlast _ _ (heq.trans (if_pos hr)), fun hr => ?_⟩
  rw [if_neg (not_not.2 hr)] at heq
  refine ⟨fun hbad => hlast _ _ (heq.trans (if_pos hbad)), fun hform ht => hlast _ _ (heq.trans ?_), fun hform ht => hlast _ _ (heq.trans ?_)⟩
  · rw [if_neg hform, if_pos ht]
  · rw [if_neg hform, if_neg ht]

/-- Settles O40, command by command, each from its lemmas above. -/
theorem encryptionAndKeys : Obligations.EncryptionAndKeys := by
  intro s ag t q tx upset mode kek slot lows u x k
  refine ⟨fun c rest p' k' hc hp hk => bundleRelease_clause rfl hc hp hk, fun h => exec_bundleRelease_of_stays rfl (State.releaseBundle_of_none h),
    fun w v hv => ⟨w.txSeq_setTxSeq_self t hv, fun t' ht => w.txSeq_setTxSeq_ne v ht⟩, exec_encryptDone_of_none upset, fun b hb => ?_, ?_, fun hacc => ?_, ?_⟩
  case refine_1 =>
    intro w frames drops
    have hdrops : ∀ v : State, exec (.encryptDone q upset) s = .next (v.endsDropped t frames) → drops v := fun v h => by
      clear_value frames
      exact drops_of_eq h
    clear_value drops
    refine ⟨fun hk => hdrops w ?_, fun k' hk => ?_⟩
    · exact exec_encryptDone_of_no_slot (u := u) rfl hb upset hk
    · obtain ⟨hreset, hlost, hgood⟩ := encryptDone_clause (u := u) rfl hb upset hk rfl
      exact ⟨State.slotTake_upset_eq _ k', fun hup hm hw => State.slotTake_votes rfl hm hw hk hup, hreset, fun hr hl => hdrops _ (hlost hr hl), hgood⟩
  case refine_2 => exact ⟨exec_pipelineParityFail_of_not, fun h => ⟨_, s.becomes_failedOut tx q, exec_pipelineParityFail_of_active h⟩⟩
  case refine_3 =>
    intro u last free
    have hm := mode.isLt
    obtain ⟨hreset, hrefused, hplain, hnone, hkek⟩ := keyLoad_cases (s := s) (u := u) hm kek.isLt slot.isLt rfl rfl
    have hlast : ∀ {w st}, s.keyLoad (keyLoadValue mode.toNat kek.toNat k) = (w, st) → last w st := fun h => exec_keyLoad_of_eq hacc h
    have hkept : s.StageKept u := s.stageKept_loadVoted kek.toNat k
    clear_value last
    refine ⟨fun hr => hlast (hreset hr), fun hr h => hlast (hrefused hr (h.imp_left bitVec2_eq_three.1)), fun hr h2 hfree => ?_,
      fun hr h2 hfree h4 => hlast (hnone hr h2 hfree h4), fun hr h2 hfree h4 => ?_⟩
    · have hload := hplain hr (bitVec2_eq_two.1 h2) hfree
      rw [hkept.service hr, hkept.staged hr] at hload
      exact ⟨fun hs => hlast (hload.trans (if_pos hs)), fun hs => hlast (hload.trans (if_neg (by simp [hs])))⟩
    · intro y v m
      obtain ⟨hlost, hgood⟩ := hkek hr h2 hfree h4
      refine ⟨fun hmarks hheld => ?_, fun h => hlast (hlost h), fun hy hv => ?_⟩
      · have hwords : u.KeyWords := State.keyWords_loadVoted (State.keyWords_of_region hmarks hheld) kek.toNat k
        exact State.slotTake_of_sound (hwords.sound (by rw [h4]; decide))
      · have hload := hgood hy hv
        have hm : kwUnwrap ((u.slotTake kek.toNat).1.slotKey kek.toNat) (u.staged 12) = m := by rw [hkept.staged hr]
        refine ⟨fun h0 => hlast (hload.trans (State.loadWrapped_of_none (hm.trans h0))), fun w h1 hone => ?_, fun w h1 hzero => ?_⟩
        · have hkl := hload.trans ((State.loadWrapped_of_some (hm.trans h1)).trans (if_neg (by rw [hone]; decide)))
          exact ⟨fun hb => hlast (hkl.trans (State.loadKek_of_bad hb)), fun hb => hlast (hkl.trans (State.loadKek_of_good hb))⟩
        · have hkl := hload.trans ((State.loadWrapped_of_some (hm.trans h1)).trans (if_pos (by rw [hzero]; rfl)))
          exact tunnelKey_clause rfl fun w' st h => hlast (hkl.trans h)
  case refine_4 =>
    intro wiped all
    refine ⟨fun hacc => ⟨s.slotWipe k, ?_, exec_keyZeroiseSlot_of_accepts hacc⟩, fun hacc => ⟨s.allWiped, s.wipedFacts_allWiped, exec_keyZeroiseAll_of_accepts hacc⟩, rfl,
      fun hlow => ⟨(s.withTamper lows).allWiped, s.wipedFacts_tamper lows, exec_tamperInput_of_low hlow⟩⟩
    have hw := s.wiped_slotWipe k
    exact ⟨hw.facts, (congrArg State.tamperLow hw.eq :), fun j => hw.rd _ j (fun e => by cases e) (by decide) (by decide)⟩

end Sys2Proof.Machine
end

section
/-!
PROOFS. What becomes of a state over a chain of register writes, and the rules of a status bit with its event.
-/

namespace Sys2Proof.Machine

-- One proof at a time, here and in the sections below: short proofs that wait for each other in parallel hold a stack each.
set_option Elab.async false

variable {s t u : State} {l : List (Fld × Nat × Nat)} {ev : Bool}

/-- No listed field lies at the lowest bit of `f` in the register of `f`, whatever the instances. -/
def Fld.offList (f : Fld) (l : List (Fld × Nat × Nat)) : Bool := l.all fun p => p.1.reg != f.reg || p.1.lo != f.lo

theorem Fld.key_ne_of_offList {f : Fld} (h : f.offList l = true) (i : Nat) : ∀ p ∈ l, p.1.key p.2.1 ≠ f.key i := by
  intro p hp e
  have hpf := List.all_eq_true.1 h p hp
  simp [(Fld.key_inj.1 e).1, (Fld.key_inj.1 e).2.2] at hpf

/-- No listed field belongs to the registers that raising a source may touch. -/
def eventFree (l : List (Fld × Nat × Nat)) : Bool := l.all fun p => !eventRegs p.1.reg

theorem eventRegs_of_eventFree (h : eventFree l = true) : ∀ p ∈ l, eventRegs p.1.reg = false := fun p hp => by
  simpa using List.all_eq_true.1 h p hp

/-! ### Registers of the lanes -/

/-- A register of the lanes. -/
def laneReg (r : Reg) : Bool := decide (r.info.unit = .lane)

/-- The registers that raising a source may touch are none of the lanes. -/
theorem eventRegs_of_laneReg {r : Reg} (h : laneReg r = true) : eventRegs r = false := by
  unfold eventRegs
  split
  · cases h
  · cases h
  · rfl

/-! ### What `Becomes` says of the whole state -/

/-- `s` with other registers and other events on their way to the counters. -/
def State.withRegs (s : State) (regs : RegStore) (pipe : List (Nat × Nat × Nat)) : State := { s with regs := regs, perfPipe := pipe }

theorem State.becomes_iff : s.Becomes t l ev ↔ (∀ p ∈ l, t.rd p.1 p.2.1 = p.2.2) ∧
    (∀ g j, (∀ p ∈ l, g.key j ≠ p.1.key p.2.1) → (ev = true → eventRegs g.reg = false) → t.rd g j = s.rd g j) ∧
    ∃ more, t = s.withRegs t.regs (s.perfPipe ++ more) ∧ (ev = false → more = []) := Iff.rfl

theorem State.withRegs_trans {r r' : RegStore} {p p' : List (Nat × Nat × Nat)} (h : t = s.withRegs r p) (k : u = t.withRegs r' p') : u = s.withRegs r' p' := by
  rw [k, h]
  rfl

/-! ### Chains of writes -/

theorem State.Becomes.thenWr (h : s.Becomes t l ev) (f : Fld) (i v : Nat) (hv : v < 2 ^ f.w) (hf : f.offList l = true := by rfl) :
    s.Becomes (t.wr f i v) (l ++ [(f, i, v)]) ev := by
  have := h.wr f i v (Fld.key_ne_of_offList hf i)
  rwa [Nat.mod_eq_of_lt hv] at this

theorem State.Becomes.thenPut (h : s.Becomes t l ev) (f : Fld) (i : Nat) (b : Bool) (hw : f.w ≠ 0 := by decide) (hf : f.offList l = true := by rfl) :
    s.Becomes (t.put f i b) (l ++ [(f, i, if b then 1 else 0)]) ev :=
  h.put f i b hw (Fld.key_ne_of_offList hf i)

theorem State.Becomes.thenEvent (h : s.Becomes t l true) (f : Fld) (i : Nat) (hw : f.w ≠ 0 := by decide) (hf : f.offList l = true := by rfl)
    (he : eventFree ((f, i, 1) :: l) = true := by rfl) : s.Becomes (t.event f i) (l ++ [(f, i, 1)]) true := by
  have hl := eventRegs_of_eventFree he
  exact h.event f i hw (hl _ List.mem_cons_self) (Fld.key_ne_of_offList hf i) fun p hp => hl p (List.mem_cons_of_mem _ hp)

/-- A write of the last listed field again replaces its value. -/
theorem State.Becomes.rewrite {f : Fld} {i v : Nat} (h : s.Becomes t (l ++ [(f, i, v)]) ev) (w : Nat) (hw : w < 2 ^ f.w) (hf : f.offList l = true := by rfl) :
    s.Becomes (t.wr f i w) (l ++ [(f, i, w)]) ev := by
  obtain ⟨hread, hframe, more, ht, hmore⟩ := State.becomes_iff.1 h
  refine State.becomes_iff.2 ⟨fun p hp => ?_, fun g j hg he => ?_, more, congrArg (fun z : State => z.withRegs (t.wr f i w).regs z.perfPipe) ht, hmore⟩
  · rcases List.mem_append.1 hp with hp | hp
    · rw [State.rd_wr_ne _ _ (Fld.key_ne_of_offList hf i p hp)]
      exact hread p (List.mem_append_left _ hp)
    · obtain rfl := List.mem_singleton.1 hp
      exact (State.rd_wr_self ..).trans (Nat.mod_eq_of_lt hw)
  · rw [State.rd_wr_ne _ _ (hg (f, i, w) (by simp))]
    refine hframe g j (fun p hp => ?_) he
    rcases List.mem_append.1 hp with hp | hp
    · exact hg p (List.mem_append_left _ hp)
    · obtain rfl := List.mem_singleton.1 hp
      exact hg (f, i, w) (by simp)

/-! ### Status bits and their events -/

theorem State.track_of_ne {f ev : Fld} {i : Nat} {b : Bool} (h : s.on f i ≠ b) : s.track f ev i b = (s.put f i b).event ev i := if_neg h

theorem State.track_of_eq {f ev : Fld} {i : Nat} {b : Bool} (h : s.on f i = b) : s.track f ev i b = s := if_pos h

/-- A change of a status bit sets the bit and its event. -/
theorem State.becomes_track {f e : Fld} {i : Nat} {b : Bool} (h : s.on f i ≠ b) (hw : f.w ≠ 0 := by decide) (hwe : e.w ≠ 0 := by decide)
    (hf : e.offList [(f, i, if b then 1 else 0)] = true := by rfl) (he : eventFree [(e, i, 1), (f, i, if b then 1 else 0)] = true := by rfl) :
    s.Becomes (s.track f e i b) [(f, i, if b then 1 else 0), (e, i, 1)] true := by
  rw [State.track_of_ne h]
  exact ((State.Becomes.refl s true).thenPut f i b hw).thenEvent e i hwe hf he

theorem State.on_put_self (s : State) {f : Fld} (i : Nat) (b : Bool) (hw : f.w = 1 := by rfl) : (s.put f i b).on f i = b := by
  rw [State.on, State.put, State.rd_wr_self, hw]
  cases b <;> rfl

end Sys2Proof.Machine
end

section
/-!
PROOFS. Lane sensing (chapter 3): signal, open inputs, polarity, staleness, freeze release and the forced drop of an overflow.
-/

namespace Sys2Proof.Machine

set_option Elab.async false

variable {s t u : State} {n : Fin 48}

/-! ### Two fields of one key -/

/-- The tables list one field at a place. -/
theorem Fld.eq_of_listed {f g : Fld} (hf : f.listed = true) (hg : g.listed = true) (hr : f.reg = g.reg) (hl : f.lo = g.lo) : f = g := by
  rw [Fld.listed, decide_eq_true_eq] at hf hg
  rw [hr, hl, hg] at hf
  exact (Option.some.inj hf).symm

theorem Fld.key_ne_of_listed {f g : Fld} {i j : Nat} (hg : g.listed = true) (h : j = i → g ≠ f) (hf : f.listed = true := by rfl) : g.key j ≠ f.key i :=
  fun e => by
    obtain ⟨hr, hi, hl⟩ := Fld.key_inj.1 e
    exact h hi (Fld.eq_of_listed hg hf hr hl)

/-! ### Signal, polarity and staleness (R100, R131, R141) -/

theorem exec_signalLoss (hs : s.sensing n = true) (ho : s.on F.LANE_RX_STATUS_SIGNAL n = true) :
    exec (.signalLoss n) s = .next (((s.track F.LANE_RX_STATUS_SIGNAL F.LANE_RX_EVENT_LOS n false).freezeJudge n).laneMoved n) := by
  show execSignalLoss n s = _
  simp [execSignalLoss, hs, ho, State.laneBit]

/-- A field beside the status bit and its event reads as before. -/
theorem State.rd_track_of_ne {f e g : Fld} {i j : Nat} {b : Bool} (hf : g.key j ≠ f.key i) (he : g.key j ≠ e.key i) (hg : eventRegs g.reg = false) :
    (s.track f e i b).rd g j = s.rd g j := by
  unfold State.track State.event
  split
  · rfl
  · rw [(State.Counted.levelEdge ..).2 g j hg, State.put, State.rd_wr_ne _ _ he, State.put, State.rd_wr_ne _ _ hf]

theorem State.on_track_self {f e : Fld} {i : Nat} {b : Bool} (hw : f.w = 1) (hfe : f.key i ≠ e.key i) (hf : eventRegs f.reg = false) :
    (s.track f e i b).on f i = b := by
  unfold State.track State.event
  split
  case isTrue h => exact h
  case isFalse h =>
    rw [State.on, (State.Counted.levelEdge ..).2 f i hf, State.put, State.rd_wr_ne _ _ hfe]
    exact State.on_put_self s i b hw

/-- The event of a status bit is set where the bit changed. -/
theorem State.rd_track_event {f e : Fld} {i : Nat} {b : Bool} (hw : e.w = 1) (he : eventRegs e.reg = false) :
    (s.track f e i b).rd e i = if s.on f i = b then s.rd e i else 1 := by
  unfold State.track State.event
  split
  · rfl
  · rw [(State.Counted.levelEdge ..).2 e i he, State.put, State.rd_wr_self, hw]
    rfl

/-- `t` is `s` but for registers and for events that follow those already on their way to the counters. -/
def State.OnlyRegs (s t : State) : Prop := t = s.withRegs t.regs t.perfPipe ∧ s.perfPipe <+: t.perfPipe

theorem State.OnlyRegs.refl (s : State) : s.OnlyRegs s := ⟨rfl, List.prefix_refl _⟩

theorem State.OnlyRegs.trans (h : s.OnlyRegs t) (k : t.OnlyRegs u) : s.OnlyRegs u := ⟨State.withRegs_trans h.1 k.1, h.2.trans k.2⟩

theorem State.OnlyRegs.put (h : s.OnlyRegs t) (f : Fld) (i : Nat) (b : Bool) : s.OnlyRegs (t.put f i b) :=
  ⟨(congrArg (fun z : State => z.withRegs (t.put f i b).regs z.perfPipe) h.1 :), h.2⟩

theorem State.Counted.onlyRegs (h : s.Counted t) : s.OnlyRegs t := by
  obtain ⟨⟨more, ht⟩, -⟩ := h
  have hpipe : t.perfPipe = s.perfPipe ++ more := (congrArg State.perfPipe ht :)
  unfold State.OnlyRegs
  rw [hpipe]
  exact ⟨ht, List.prefix_append ..⟩

theorem State.onlyRegs_track (f e : Fld) (i : Nat) (b : Bool) : s.OnlyRegs (s.track f e i b) := by
  unfold State.track
  split
  · exact .refl s
  · exact (((State.OnlyRegs.refl s).put f i b).put e i true).trans (State.Counted.levelEdge ..).onlyRegs

theorem State.acqStep_track_signal (s : State) (n : Nat) (b : Bool) :
    (s.track F.LANE_RX_STATUS_SIGNAL F.LANE_RX_EVENT_LOS n b).rd F.LANE_RX_STATUS_ACQ_STEP n = s.rd F.LANE_RX_STATUS_ACQ_STEP n :=
  State.rd_track_of_ne (Fld.key_ne_lo (by decide)) (Fld.key_ne_reg (by decide)) rfl

theorem exec_signalReturn (hs : s.sensing n = true) (ho : s.on F.LANE_RX_STATUS_SIGNAL n = false) :
    let found := s.track F.LANE_RX_STATUS_SIGNAL F.LANE_RX_EVENT_LOS n true
    exec (.signalReturn n) s =
      .next (((if found.rd F.LANE_RX_STATUS_ACQ_STEP n = 2 then found.acqSeason n else found).freezeJudge n).laneMoved n) := by
  show execSignalReturn n s = _
  exact congrArg Host.Outcome.next (if_pos (by simp [hs, ho]))

/-! ### Open inputs (R101 to R103) -/

theorem exec_openInputCheck (p m : BitVec 12) (hs : s.sensing n = true) : exec (.openInputCheck n p m) s = .next (s.openCheck n p.toNat m.toNat) := by
  show execOpenInputCheck n p m s = _
  simp [execOpenInputCheck, hs]

theorem State.openCheck_eq (s : State) (n p m : Nat) :
    let near := fun x => decide (430 ≤ x ∧ x ≤ 470)
    let off := fun x => decide (x < 390 ∨ 510 < x)
    let dc := !s.on F.LANE_RX_CFG_AC_COUPLED n
    let both := near p && near m && !s.on F.LANE_RX_STATUS_SIGNAL n
    s.openCheck n p m = (s.track F.LANE_RX_STATUS_OPEN_P F.LANE_RX_EVENT_OPEN n (dc && (both || (near p && off m)))).track F.LANE_RX_STATUS_OPEN_N
      F.LANE_RX_EVENT_OPEN n (dc && (both || (near m && off p))) := rfl

/-- Both open bits take a value, and a change of either sets the event. -/
theorem State.openBits_spec (s : State) (n : Nat) (a b : Bool) :
    let t := (s.track F.LANE_RX_STATUS_OPEN_P F.LANE_RX_EVENT_OPEN n a).track F.LANE_RX_STATUS_OPEN_N F.LANE_RX_EVENT_OPEN n b
    t.on F.LANE_RX_STATUS_OPEN_P n = a ∧ t.on F.LANE_RX_STATUS_OPEN_N n = b ∧
    (t.rd F.LANE_RX_EVENT_OPEN n = if a ≠ s.on F.LANE_RX_STATUS_OPEN_P n ∨ b ≠ s.on F.LANE_RX_STATUS_OPEN_N n then 1 else s.rd F.LANE_RX_EVENT_OPEN n) ∧
    (∀ g j, (j = n → g ≠ F.LANE_RX_STATUS_OPEN_P ∧ g ≠ F.LANE_RX_STATUS_OPEN_N ∧ g ≠ F.LANE_RX_EVENT_OPEN) → g.listed = true →
      eventRegs g.reg = false → t.rd g j = s.rd g j) ∧
    t = s.withRegs t.regs t.perfPipe ∧ s.perfPipe <+: t.perfPipe := by
  intro t
  have hP : F.LANE_RX_STATUS_OPEN_P.key n ≠ F.LANE_RX_STATUS_OPEN_N.key n := Fld.key_ne_lo (by decide)
  have hPe : F.LANE_RX_STATUS_OPEN_P.key n ≠ F.LANE_RX_EVENT_OPEN.key n := Fld.key_ne_reg (by decide)
  have hNe : F.LANE_RX_STATUS_OPEN_N.key n ≠ F.LANE_RX_EVENT_OPEN.key n := Fld.key_ne_reg (by decide)
  have hon : (s.track F.LANE_RX_STATUS_OPEN_P F.LANE_RX_EVENT_OPEN n a).on F.LANE_RX_STATUS_OPEN_N n = s.on F.LANE_RX_STATUS_OPEN_N n := by
    rw [State.on, State.rd_track_of_ne hP.symm hNe rfl, State.on]
  refine ⟨?_, State.on_track_self rfl hNe rfl, ?_, fun g j hj hg he => ?_, (State.onlyRegs_track ..).trans (State.onlyRegs_track ..)⟩
  · exact (congrArg (fun x : Nat => decide (x ≠ 0)) (State.rd_track_of_ne hP hPe rfl)).trans (State.on_track_self rfl hPe rfl)
  · rw [State.rd_track_event rfl rfl, State.rd_track_event rfl rfl, hon]
    by_cases ha : s.on F.LANE_RX_STATUS_OPEN_P n = a <;> by_cases hb : s.on F.LANE_RX_STATUS_OPEN_N n = b <;> simp [ha, hb, Ne.symm]
  · have hne (f : Fld) (hf : f.listed = true) (h : j = n → g ≠ f) : g.key j ≠ f.key n := Fld.key_ne_of_listed hg h hf
    rw [State.rd_track_of_ne (hne _ rfl fun e => (hj e).2.1) (hne _ rfl fun e => (hj e).2.2) he,
      State.rd_track_of_ne (hne _ rfl fun e => (hj e).1) (hne _ rfl fun e => (hj e).2.2) he]

/-! ### The release of a freeze (R134) -/

theorem State.gainHeld_eq_false (h : s.on F.LANE_RX_STATUS_SIGNAL n = true) (hf : s.on F.LANE_RX_ADAPT_FREEZE_ALL n = false) : s.gainHeld n = false := by
  simp [State.gainHeld, h, hf]

theorem exec_freezeRelease_gain (h : s.gainHeld n = false) :
    exec (.freezeRelease n true) s = .next (s.setLane n { s.lane n with gainFrozen := false }) := by
  show execFreezeRelease n true s = _
  simp [execFreezeRelease, h, State.laneMod]

theorem exec_freezeRelease_all (ht : s.trainFreeze n = false) (hc : s.freezeCause n = 0) : exec (.freezeRelease n false) s =
    .next (((s.setLane n { s.lane n with trainHeld := false }).put F.LANE_RX_STATUS_FROZEN n false).wr F.LANE_RX_STATUS_FREEZE_CAUSE n 0) := by
  show execFreezeRelease n false s = _
  simp [execFreezeRelease, ht, hc, State.laneMod]

/-! ### Forced drops (R99, R139) -/

theorem State.cur_of_laneLit {n : Nat} (h : s.laneLit n = true) : s.rd F.LANE_STATE_CUR n = 2 := by
  simp only [State.laneLit, Bool.and_eq_true, decide_eq_true_eq] at h
  exact h.1

/-- A forced drop of a lane that is not Cold already requests Cold and goes there. -/
theorem State.laneForce_of_cur_ne {n cause : Nat} (h : s.rd F.LANE_STATE_CUR n ≠ 0) : s.laneForce n cause =
    ((((s.setLane n { s.lane n with forcedDrop := true }).wr F.LANE_STATE_REQ n 0).put F.LANE_STATE_FORCED n true).wr F.LANE_STATE_FORCE_CAUSE n cause).laneGo n := by
  simp only [State.laneForce, h, decide_false, Bool.false_and, Bool.false_eq_true, if_false]
  rfl

theorem exec_elasticQueueOverflow (h : s.rxOn n = true) :
    exec (.elasticQueueOverflow n) s = .next ((s.laneForce n 1).errorLine (n.val / 8) (n.val % 8) 1) := by
  show execElasticQueueOverflow n s = _
  simp [execElasticQueueOverflow, h, State.queueOver]

/-- Settles O30: a status bit that changes sets its event and nothing else, and each command is such a change followed by the judgement of the freeze and of the port. -/
theorem laneSensing : Obligations.LaneSensing := by
  unfold Obligations.LaneSensing
  intro s n l cur after
  refine ⟨fun hs ho => ⟨_, State.becomes_track (by simp [ho]), exec_signalLoss hs ho⟩, fun hs ho => ⟨fun hstep => ?_, fun hstep => ?_⟩, ?_, ?_, ?_, ?_, ?_, ?_, ?_⟩
  case refine_1 => 
    refine ⟨_, State.becomes_track (e := F.LANE_RX_EVENT_LOS) (b := true) (by simp [ho]), ?_⟩
    rw [exec_signalReturn hs ho, if_neg (by rwa [State.acqStep_track_signal])]
  case refine_2 => 
    refine ⟨_, State.becomes_track (e := F.LANE_RX_EVENT_LOS) (b := true) (by simp [ho]), ?_⟩
    rw [exec_signalReturn hs ho, if_pos (by rwa [State.acqStep_track_signal])]
  case refine_3 => 
    intro p m hs near off dc both openP openN
    exact ⟨_, exec_openInputCheck p m hs, s.openBits_spec n openP openN⟩
  case refine_4 => 
    intro pol hp
    exact ⟨_, rfl, State.becomes_track hp⟩
  case refine_5 => 
    intro hc hs
    refine ⟨_, ?_, ((State.Becomes.refl s true).thenPut F.LANE_RX_STATUS_WARM_STALE n true).thenEvent F.LANE_RX_EVENT_WARM_STALE n⟩
    show execWarmStale n s = _
    exact congrArg _ (if_pos ⟨hc, by simp [hs]⟩)
  case refine_6 => 
    intro hs hc
    refine ⟨_, ?_, (State.Becomes.refl s false).thenPut F.LANE_RX_STATUS_WARM_STALE n false⟩
    show execWarmStaleClear n s = _
    exact congrArg _ (if_pos (by simp [hs, hc]))
  case refine_7 => 
    intro hl hs ho hf ha
    have ht : s.trainFreeze n = false := by simp [State.trainFreeze, hl, hs, ha, show (s.lane n).ovrFreeze = false from ho]
    have hc : s.freezeCause n = 0 := by simp [State.freezeCause, hl, hs, ha, hf, show (s.lane n).ovrFreeze = false from ho]
    exact ⟨_, exec_freezeRelease_all ht hc, ((State.Becomes.refl _ false).thenPut F.LANE_RX_STATUS_FROZEN n false).thenWr F.LANE_RX_STATUS_FREEZE_CAUSE n 0 (by decide)⟩
  case refine_8 => exact fun hs ha => exec_freezeRelease_gain (State.gainHeld_eq_false hs ha)
  case refine_9 => 
    intro hl hr
    refine ⟨_, (((State.Becomes.refl (s.setLane n { s.lane n with forcedDrop := true }) false).thenWr F.LANE_STATE_REQ n 0 (by decide)).thenPut F.LANE_STATE_FORCED n true).thenWr
      F.LANE_STATE_FORCE_CAUSE n 1 (by decide), ?_⟩
    rw [exec_elasticQueueOverflow hr, State.laneForce_of_cur_ne (by simp [State.cur_of_laneLit hl])]

end Sys2Proof.Machine
end

section
/-!
PROOFS. What becomes of a state whose lane record is replaced, in two parts, and what values its fields hold.
-/

namespace Sys2Proof.Machine

set_option Elab.async false

variable {s t u : State} {l : List (Fld × Nat × Nat)} {ev : Bool}

/-! ### A lane's record -/

/-- Replacing a lane's record on both sides keeps what has become of the state. -/
theorem State.Becomes.setLane (h : s.Becomes t l ev) (n : Nat) (x : LaneS) : (s.setLane n x).Becomes (t.setLane n x) l ev := by
  obtain ⟨hread, hframe, more, ht, hmore⟩ := State.becomes_iff.1 h
  exact State.becomes_iff.2 ⟨hread, hframe, more, congrArg (fun z : State => z.setLane n x) ht, hmore⟩

/-- What becomes of a state in two parts, the second on other fields. -/
theorem State.Becomes.append {l' : List (Fld × Nat × Nat)} (h : s.Becomes t l ev) (k : t.Becomes u l' ev) (hoff : ∀ p ∈ l, p.1.offList l' = true)
    (hl : eventFree l = true) : s.Becomes u (l ++ l') ev := by
  obtain ⟨hread, hframe, more, ht, hmore⟩ := State.becomes_iff.1 h
  obtain ⟨kread, kframe, more', hu, kmore⟩ := State.becomes_iff.1 k
  refine State.becomes_iff.2 ⟨fun p hp => ?_, fun g j hg he => ?_, more ++ more', ?_, fun e => by rw [hmore e, kmore e]; rfl⟩
  · rcases List.mem_append.1 hp with hp | hp
    · rw [kframe _ _ (fun q hq e => Fld.key_ne_of_offList (hoff p hp) _ q hq e.symm) fun _ => eventRegs_of_eventFree hl p hp]
      exact hread p hp
    · exact kread p hp
  · exact (kframe g j (fun p hp => hg p (List.mem_append_right _ hp)) he).trans (hframe g j (fun p hp => hg p (List.mem_append_left _ hp)) he)
  · have hpipe : t.perfPipe = s.perfPipe ++ more := (congrArg State.perfPipe ht :)
    rw [← List.append_assoc, ← hpipe]
    exact State.withRegs_trans ht hu

theorem State.Becomes.lane (h : s.Becomes t l ev) (n : Nat) : t.lane n = s.lane n := by
  obtain ⟨-, -, more, ht, -⟩ := State.becomes_iff.1 h
  exact (congrArg (fun z : State => z.lane n) ht :)

/-- A field that lies beside every listed one, and is none of those that raising a source touches, reads as before. -/
theorem State.Becomes.rd_eq (h : s.Becomes t l ev) (g : Fld) (j : Nat) (hg : g.offList l = true := by rfl) (he : eventRegs g.reg = false := by rfl) :
    t.rd g j = s.rd g j :=
  h.2.1 g j (fun p hp e => Fld.key_ne_of_offList hg j p hp e.symm) fun _ => he

theorem State.Becomes.on_eq (h : s.Becomes t l ev) (g : Fld) (j : Nat) (hg : g.offList l = true := by rfl) (he : eventRegs g.reg = false := by rfl) :
    t.on g j = s.on g j := by rw [State.on, State.on, h.rd_eq g j hg he]

theorem State.laneMod_eq (s : State) (n : Nat) (f : LaneS → LaneS) : s.laneMod n f = s.setLane n (f (s.lane n)) := rfl

theorem State.setLane_wr (s : State) (n : Nat) (x : LaneS) (f : Fld) (i v : Nat) : (s.setLane n x).wr f i v = (s.wr f i v).setLane n x := rfl

/-! ### Field values of a canonical state -/

theorem Amap.mem_of_find {κ α : Type} [DecidableEq κ] {m : List (κ × α)} {k : κ} {v : α} (h : Amap.find m k = some v) : (k, v) ∈ m := by
  induction m with
  | nil => cases h
  | cons e m ih =>
    rw [Amap.find] at h
    split at h
    · rename_i hk
      cases h
      exact hk ▸ List.mem_cons_self
    · exact List.mem_cons_of_mem _ (ih h)

theorem State.rd_lt (h : s.Canonical) (f : Fld) (i : Nat) (hf : f.listed = true := by rfl) (hr : f.reset i < 2 ^ f.w := by exact of_decide_eq_true rfl) : s.rd f i < 2 ^ f.w := by
  have hall : ∀ e ∈ s.regs, RegStore.entryOk e = true := by
    have := h.1
    simp only [RegStore.wf, Bool.and_eq_true, List.all_eq_true] at this
    exact this.2
  show Amap.get (f.reset i) s.regs (f.key i) < _
  rw [Amap.get]
  cases hfind : Amap.find s.regs (f.key i) with
  | none => exact hr
  | some v =>
    have hok := hall _ (Amap.mem_of_find hfind)
    have hfld : (f.key i).fld = some f := of_decide_eq_true hf
    simp only [RegStore.entryOk, hfld, Bool.and_eq_true, decide_eq_true_eq] at hok
    exact hok.1

end Sys2Proof.Machine
end

section
/-!
PROOFS. The gain loop and the end of a window outside service (R107, R108, R110, R146).
-/

namespace Sys2Proof.Machine

set_option Elab.async false

variable {s t u : State} {n : Fin 48} {l : List (Fld × Nat × Nat)} {ev : Bool}

/-! ### What the writes of a loop leave alone -/

/-- The registers and the flags of a lane that say whether its loops are held. -/
structure State.SameHolds (s t : State) (n : Nat) : Prop where
  cur : t.rd F.LANE_STATE_CUR n = s.rd F.LANE_STATE_CUR n
  req : t.rd F.LANE_STATE_REQ n = s.rd F.LANE_STATE_REQ n
  changing : t.on F.LANE_STATE_CHANGING n = s.on F.LANE_STATE_CHANGING n
  signal : t.on F.LANE_RX_STATUS_SIGNAL n = s.on F.LANE_RX_STATUS_SIGNAL n
  frozen : t.on F.LANE_RX_STATUS_FROZEN n = s.on F.LANE_RX_STATUS_FROZEN n
  freezeAll : t.on F.LANE_RX_ADAPT_FREEZE_ALL n = s.on F.LANE_RX_ADAPT_FREEZE_ALL n

/-- The fields of `SameHolds` lie beside every field of a list. -/
def besideHolds (l : List (Fld × Nat × Nat)) : Bool :=
  [F.LANE_STATE_CUR, F.LANE_STATE_REQ, F.LANE_STATE_CHANGING, F.LANE_RX_STATUS_SIGNAL, F.LANE_RX_STATUS_FROZEN, F.LANE_RX_ADAPT_FREEZE_ALL].all
    fun g => g.offList l

theorem State.Becomes.sameHolds (h : s.Becomes t l ev) (n : Nat) (hl : besideHolds l = true := by rfl) : s.SameHolds t n := by
  simp only [besideHolds, List.all_cons, List.all_nil, Bool.and_true, Bool.and_eq_true] at hl
  obtain ⟨hcur, hreq, hchg, hsig, hfrz, hall⟩ := hl
  exact ⟨h.rd_eq _ n hcur, h.rd_eq _ n hreq, h.on_eq _ n hchg, h.on_eq _ n hsig, h.on_eq _ n hfrz, h.on_eq _ n hall⟩

theorem State.SameHolds.laneLit {n : Nat} (h : s.SameHolds t n) : t.laneLit n = s.laneLit n := by
  rw [State.laneLit, State.laneLit, h.cur, h.req, h.changing]

theorem State.SameHolds.laneActive {n : Nat} (h : s.SameHolds t n) : t.laneActive n = s.laneActive n := by
  rw [State.laneActive, State.laneActive, h.laneLit, h.frozen]

theorem State.SameHolds.gainHeld {n : Nat} (h : s.SameHolds t n) : t.gainHeld n = s.gainHeld n := by
  rw [State.gainHeld, State.gainHeld, h.signal, h.freezeAll]

theorem State.SameHolds.trainFreeze {n : Nat} (h : s.SameHolds t n) (hl : (t.lane n).ovrFreeze = (s.lane n).ovrFreeze) :
    t.trainFreeze n = s.trainFreeze n := by
  rw [State.trainFreeze, State.trainFreeze, h.laneLit, h.signal, hl, h.freezeAll]

/-! ### The gain loop (R107, R108) -/

/-- The frequency offset of an unfrozen Lit lane is reported. -/
def State.offsetTaken (s : State) (n : Nat) : State :=
  if s.laneActive n then s.wr F.LANE_RX_FREQ_OFFSET n (sfield 32 (s.lane n).rx.freq) else s

/-- What the report of the frequency offset writes. -/
def State.offsetList (s : State) (n : Nat) : List (Fld × Nat × Nat) :=
  if s.laneActive n then [(F.LANE_RX_FREQ_OFFSET, n, sfield 32 (s.lane n).rx.freq % 2 ^ F.LANE_RX_FREQ_OFFSET.w)] else []

theorem State.becomes_offsetTaken (s : State) (n : Nat) : s.Becomes (s.offsetTaken n) (s.offsetList n) false := by
  unfold State.offsetTaken State.offsetList
  split
  · exact (State.Becomes.refl s false).wr _ _ _ (by simp)
  · exact .refl s false

theorem State.offList_offsetList (s : State) (n : Nat) {f : Fld} (hf : f.offList [(F.LANE_RX_FREQ_OFFSET, n, 0)] = true) : f.offList (s.offsetList n) = true := by
  unfold State.offsetList
  split
  · exact hf
  · rfl

theorem State.sameHolds_offsetTaken (s : State) (n : Nat) : s.SameHolds (s.offsetTaken n) n :=
  (s.becomes_offsetTaken n).sameHolds n (by unfold State.offsetList; split <;> rfl)

theorem State.rd_offsetTaken (s : State) (n : Nat) (f : Fld) (hf : f.offList [(F.LANE_RX_FREQ_OFFSET, n, 0)] = true := by rfl)
    (he : eventRegs f.reg = false := by rfl) : (s.offsetTaken n).rd f n = s.rd f n :=
  (s.becomes_offsetTaken n).rd_eq f n (s.offList_offsetList n hf) he

theorem State.lane_offsetTaken (s : State) (n : Nat) : (s.offsetTaken n).lane n = s.lane n := (s.becomes_offsetTaken n).lane n

theorem State.gainRuns_offsetTaken (s : State) (n : Nat) : (s.offsetTaken n).gainRuns n = s.gainRuns n := by
  have h := s.sameHolds_offsetTaken n
  rw [State.gainRuns, State.gainRuns, h.laneLit, h.cur, h.gainHeld, s.lane_offsetTaken, State.on, s.rd_offsetTaken n F.LANE_RX_GAIN_AGC_EN, State.on]

/-- The samples of the interval ask for less gain. -/
def State.gainLoud (s : State) (n : Nat) : Prop :=
  let r := (s.lane n).rx
  let target := clampNat 16 96 (s.rd F.LANE_RX_GAIN_TARGET n)
  r.tenCount < r.tenOvers * 100000 ∨ target * target * r.tenCount < r.tenSquares

/-- They ask for more. -/
def State.gainQuiet (s : State) (n : Nat) : Prop :=
  let r := (s.lane n).rx
  let target := clampNat 16 96 (s.rd F.LANE_RX_GAIN_TARGET n)
  ¬ s.gainLoud n ∧ r.tenSquares < target * target * r.tenCount

theorem State.gainStep_of_idle {n : Nat} (h : s.gainRuns n = false ∨ (s.lane n).rx.tenCount = 0 ∨ (¬ s.gainLoud n ∧ ¬ s.gainQuiet n)) : s.gainStep n = s := by
  unfold State.gainStep
  by_cases hrun : (!s.gainRuns n || decide ((s.lane n).rx.tenCount = 0)) = true
  · exact if_pos hrun
  · have hneither : ¬ s.gainLoud n ∧ ¬ s.gainQuiet n := by
      rcases h with h | h | h
      · simp [h] at hrun
      · simp [h] at hrun
      · exact h
    exact (if_neg hrun).trans ((if_neg hneither.1).trans (if_neg fun hq => hneither.2 ⟨hneither.1, hq⟩))

theorem State.gainStep_of_runs {n : Nat} (hr : s.gainRuns n = true) (hc : 0 < (s.lane n).rx.tenCount) :
    (s.gainLoud n → s.gainStep n = s.gainDown n) ∧ (s.gainQuiet n → s.gainStep n = s.gainUp n) := by
  have hrun : ¬ (!s.gainRuns n || decide ((s.lane n).rx.tenCount = 0)) = true := by simp [hr]; omega
  unfold State.gainStep
  exact ⟨fun h => (if_neg hrun).trans (if_pos h), fun h => (if_neg hrun).trans ((if_neg h.1).trans (if_pos h.2))⟩

/-- The over-range freeze follows the interval's samples, and the next interval begins. -/
def LaneS.intervalTaken (r : RxS) (l : LaneS) : LaneS :=
  { l with ovrFreeze := decide (r.tenCount < r.tenOvers * 1000), rx := { l.rx with tenCount := 0, tenSquares := 0, tenOvers := 0 } }

theorem exec_gainLoopUpdate (h : 2 ≤ s.rd F.LANE_STATE_CUR n) :
    exec (.gainLoopUpdate n) s = .next ((((s.offsetTaken n).gainStep n).laneMod n (LaneS.intervalTaken (s.lane n).rx)).freezeJudge n) := by
  show execGainLoopUpdate n s = _
  exact congrArg Host.Outcome.next (if_pos h)

theorem exec_gainLoopUpdate_of_low (h : s.rd F.LANE_STATE_CUR n < 2) : exec (.gainLoopUpdate n) s = .next s := by
  show execGainLoopUpdate n s = _
  exact congrArg Host.Outcome.next (if_neg (by omega))

theorem State.becomes_offset_append {n : Nat} (h : (s.offsetTaken n).Becomes u l false) (hl : F.LANE_RX_FREQ_OFFSET.offList l = true := by rfl) :
    s.Becomes u (s.offsetList n ++ l) false := by
  refine (s.becomes_offsetTaken n).append h (fun p hp => ?_) ?_
  all_goals unfold State.offsetList at *; split at *
  · obtain rfl := List.mem_singleton.1 hp
    exact hl
  · cases hp
  · rfl
  · rfl

/-- A step of the gain loop that writes registers alone. -/
theorem doesThen_gainLoopUpdate (h2 : 2 ≤ s.rd F.LANE_STATE_CUR n) (hstep : (s.offsetTaken n).Becomes ((s.offsetTaken n).gainStep n) l false)
    (hl : F.LANE_RX_FREQ_OFFSET.offList l = true := by rfl) :
    DoesThen (.gainLoopUpdate n) s (·.freezeJudge n) fun u =>
      (s.setLane n (LaneS.intervalTaken (s.lane n).rx (s.lane n))).Becomes u (s.offsetList n ++ l) false := by
  refine ⟨_, ?_, exec_gainLoopUpdate h2⟩
  rw [State.laneMod_eq, hstep.lane, State.lane_offsetTaken]
  exact (State.becomes_offset_append hstep hl).setLane n _

/-- A step of the gain loop that is a gain change. -/
theorem doesThen_gainLoopUpdate_change (h2 : 2 ≤ s.rd F.LANE_STATE_CUR n) (heq : (s.offsetTaken n).gainStep n = u.gainChange n)
    (hstep : (s.offsetTaken n).Becomes u l false) (hl : F.LANE_RX_FREQ_OFFSET.offList l = true := by rfl) :
    DoesThen (.gainLoopUpdate n) s (fun u => ((u.gainChange n).setLane n (LaneS.intervalTaken (s.lane n).rx ((u.gainChange n).lane n))).freezeJudge n) fun u =>
      s.Becomes u (s.offsetList n ++ l) false :=
  ⟨u, State.becomes_offset_append hstep hl, by rw [exec_gainLoopUpdate h2, heq]; rfl⟩

theorem State.gainDown_of_fine {n : Nat} (h : 0 < s.rd F.LANE_RX_GAIN_FINE n) :
    s.gainDown n = s.wr F.LANE_RX_GAIN_FINE n (s.rd F.LANE_RX_GAIN_FINE n - 1) := if_pos h

theorem State.gainDown_of_atten {n : Nat} (h : s.rd F.LANE_RX_GAIN_FINE n = 0) (ha : s.rd F.LANE_RX_GAIN_ATTEN n < 7) :
    s.gainDown n = ((s.wr F.LANE_RX_GAIN_ATTEN n (s.rd F.LANE_RX_GAIN_ATTEN n + 1)).wr F.LANE_RX_GAIN_FINE n 24).gainChange n := by
  unfold State.gainDown
  simp only [h, ha, if_true]
  rfl

theorem State.gainUp_of_fine {n : Nat} (h : s.rd F.LANE_RX_GAIN_FINE n < 63) :
    s.gainUp n = s.wr F.LANE_RX_GAIN_FINE n (s.rd F.LANE_RX_GAIN_FINE n + 1) := if_pos h

theorem State.gainUp_of_atten {n : Nat} (h : s.rd F.LANE_RX_GAIN_FINE n = 63) (ha : 0 < s.rd F.LANE_RX_GAIN_ATTEN n) :
    s.gainUp n = ((s.wr F.LANE_RX_GAIN_ATTEN n (s.rd F.LANE_RX_GAIN_ATTEN n - 1)).wr F.LANE_RX_GAIN_FINE n 39).gainChange n := by
  unfold State.gainUp
  simp only [h, ha, if_true]
  rfl

/-! ### The end of a window (R110, R146) -/

/-- No freeze but the loss of FEC lock stands in the way of training. -/
theorem State.trainFreeze_iff {n : Nat} : s.trainFreeze n = true ↔
    (s.laneLit n = false ∨ s.on F.LANE_RX_STATUS_SIGNAL n = false ∨ (s.lane n).ovrFreeze = true ∨ s.on F.LANE_RX_ADAPT_FREEZE_ALL n = true) := by
  simp [State.trainFreeze, or_assoc]

theorem State.windowWhole_iff {n : Nat} : s.windowWhole n = true ↔ s.laneActive n = true ∧ (s.lane n).fomWhole = true := by
  simp [State.windowWhole]

theorem State.windowTrains_iff {n : Nat} : s.windowTrains n = true ↔
    1 ≤ s.rd F.LANE_RX_STATUS_ACQ_STEP n ∧ s.rd F.LANE_RX_STATUS_ACQ_STEP n ≤ 8 ∧ s.trainFreeze n = false ∧ (s.lane n).trainWhole = true := by
  simp [State.windowTrains, and_assoc]

/-- The step of acquisition that the end of a window takes. -/
def State.windowStep (s : State) (n snr : Nat) : State :=
  if s.rd F.LANE_RX_STATUS_ACQ_STEP n = 4 then s.sweepStep n snr else if 5 ≤ s.rd F.LANE_RX_STATUS_ACQ_STEP n then s.trainStep n else s

theorem exec_fomWindowEnd (s : State) (n : Fin 48) : exec (.fomWindowEnd n) s = .next (
    let step := s.rd F.LANE_RX_STATUS_ACQ_STEP n
    let s1 := if s.windowWhole n then s.figures n else s
    let s2 := if !s.windowTrains n then s1 else if step = 4 then s1.sweepStep n (s.windowSnr n) else if 5 ≤ step then s1.trainStep n else s1
    s2.windowNext n (if s.windowWhole n || s.windowTrains n then some (s.windowSnr n) else none)) := rfl

/-- The record with which the next window begins: `whole` and `trains` of the window that begins, `made` the estimates of the one that ends. -/
def LaneS.nextWindow (whole trains : Bool) (made : List Nat) (l : LaneS) : LaneS :=
  { l with fomWhole := whole, trainWhole := trains, rx := { l.rx with fom := SnrSum.init, margins := [], overs := 0, snrs := (made ++ l.rx.snrs).take 11 } }

/-- The next window begins on a state whose holds are those of `s`. -/
theorem State.windowNext_eq {n : Nat} (h : s.SameHolds t n) (hov : (t.lane n).ovrFreeze = (s.lane n).ovrFreeze) (hth : (t.lane n).trainHeld = (s.lane n).trainHeld)
    (made : Option Nat) : t.windowNext n made =
      t.setLane n ((t.lane n).nextWindow (s.laneActive n) (!s.trainFreeze n && !(s.lane n).trainHeld) made.toList) := by
  rw [State.windowNext, h.laneActive, h.trainFreeze hov, hth]
  rfl


/-- The estimate that the end of a window makes, where the lane was in service or in training throughout. -/
def State.windowMade (s : State) (n : Nat) : List Nat := if s.windowWhole n || s.windowTrains n then [s.windowSnr n] else []

/-- What a lane's record becomes at the end of a window, from what the window's own steps made of it. -/
def State.windowRecord (s : State) (n : Nat) (l : LaneS) : LaneS :=
  l.nextWindow (s.laneActive n) (!s.trainFreeze n && !(s.lane n).trainHeld) (s.windowMade n)

/-- `t` is `s` but for the lane's record and for what a list says. -/
def State.BecomesBeside (s t : State) (n : Nat) (l : List (Fld × Nat × Nat)) (ev : Bool) : Prop := ∀ x, (s.setLane n x).Becomes (t.setLane n x) l ev

theorem State.Becomes.beside (h : s.Becomes t l ev) (n : Nat) : s.BecomesBeside t n l ev := fun x => h.setLane n x

theorem State.Becomes.beside_of_setLane {n : Nat} {x : LaneS} (h : (s.setLane n x).Becomes t l ev) : s.BecomesBeside t n l ev := fun y => by
  have := h.setLane n y
  rwa [State.setLane_setLane] at this

theorem State.BecomesBeside.sameHolds {n : Nat} (h : s.BecomesBeside t n l ev) (hl : besideHolds l = true := by rfl) : s.SameHolds t n := by
  obtain ⟨hcur, hreq, hchg, hsig, hfrz, hall⟩ := (h LaneS.init).sameHolds n hl
  exact ⟨hcur, hreq, hchg, hsig, hfrz, hall⟩

/-- The next window begins on a state that is `s` but for the lane's record and a list of fields beside the holds. -/
theorem State.BecomesBeside.windowNext {n : Nat} {x : LaneS} {made : Option Nat} (h : s.BecomesBeside t n l ev) (hlane : t.lane n = x)
    (hmade : made.toList = s.windowMade n) (hov : x.ovrFreeze = (s.lane n).ovrFreeze := by rfl) (hth : x.trainHeld = (s.lane n).trainHeld := by rfl)
    (hl : besideHolds l = true := by rfl) : (s.setLane n (s.windowRecord n x)).Becomes (t.windowNext n made) l ev := by
  subst hlane
  rw [State.windowNext_eq (h.sameHolds hl) hov hth, hmade]
  exact h _

theorem State.windowMade_eq (s : State) (n : Nat) :
    (if s.windowWhole n || s.windowTrains n then some (s.windowSnr n) else none).toList = s.windowMade n := by
  unfold State.windowMade
  split <;> rfl

/-! ### A window outside service -/

theorem exec_fomWindowEnd_idle (hw : s.windowWhole n = false) (h : s.windowTrains n = false ∨ s.rd F.LANE_RX_STATUS_ACQ_STEP n < 4) :
    exec (.fomWindowEnd n) s = .next (s.windowNext n (if s.windowWhole n || s.windowTrains n then some (s.windowSnr n) else none)) := by
  rw [exec_fomWindowEnd]
  simp only [hw]
  rcases h with h | h
  · simp [h]
  · simp [show ¬ s.rd F.LANE_RX_STATUS_ACQ_STEP n = 4 by omega, show ¬ 5 ≤ s.rd F.LANE_RX_STATUS_ACQ_STEP n by omega]

theorem exec_fomWindowEnd_sweep (hw : s.windowWhole n = false) (ht : s.windowTrains n = true) (h : s.rd F.LANE_RX_STATUS_ACQ_STEP n = 4) :
    exec (.fomWindowEnd n) s = .next ((s.sweepStep n (s.windowSnr n)).windowNext n (some (s.windowSnr n))) := by
  rw [exec_fomWindowEnd]
  simp [hw, ht, h]

theorem exec_fomWindowEnd_train (hw : s.windowWhole n = false) (ht : s.windowTrains n = true) (h : 5 ≤ s.rd F.LANE_RX_STATUS_ACQ_STEP n) :
    exec (.fomWindowEnd n) s = .next ((s.trainStep n).windowNext n (some (s.windowSnr n))) := by
  rw [exec_fomWindowEnd]
  simp [hw, ht, h, show ¬ s.rd F.LANE_RX_STATUS_ACQ_STEP n = 4 by omega]

/-- The setting of the sweep that stands best once the running one is measured. -/
def LaneS.sweepBest (l : LaneS) (snr : Nat) : Nat × Nat := if l.swept = 0 ∨ l.best.1 < snr then (snr, l.swept) else l.best

theorem State.sweepStep_eq (s : State) (n snr : Nat) : s.sweepStep n snr =
    if 30 ≤ (s.lane n).swept then
      ((s.setLane n { s.lane n with best := (s.lane n).sweepBest snr, swept := 31 }).wr F.LANE_RX_CTLE_PEAK n ((s.lane n).sweepBest snr).2).acqFreq n
    else (s.setLane n { s.lane n with best := (s.lane n).sweepBest snr, swept := (s.lane n).swept + 1 }).wr F.LANE_RX_CTLE_PEAK n ((s.lane n).swept + 1) := rfl

theorem State.acqFreq_setLane (s : State) (n : Nat) (x : LaneS) :
    (s.setLane n x).acqFreq n = (s.wr F.LANE_RX_STATUS_ACQ_STEP n 5).setLane n { x with acqWindows := 0 } := by
  rw [State.acqFreq, State.setLane_wr, State.laneMod_eq, State.lane_setLane_self, State.setLane_setLane]

theorem State.trainStep_of_lock {n : Nat} (h : s.rd F.LANE_RX_STATUS_ACQ_STEP n = 5) :
    s.trainStep n = if s.on F.LANE_RX_STATUS_CDR_LOCK n then s.acqBlind n else s := if_pos h

theorem State.trainStep_of_train {n : Nat} (h : s.rd F.LANE_RX_STATUS_ACQ_STEP n ≠ 5) : s.trainStep n =
    (s.laneMod n fun l => { l with acqWindows := (s.lane n).acqWindows + 1 }).wr F.LANE_RX_STATUS_ACQ_STEP n
      (if (s.lane n).acqWindows + 1 < 250 then 6 else if (s.lane n).acqWindows + 1 < 400 then 7 else 8) := if_neg h

end Sys2Proof.Machine
end

section
/-!
PROOFS. The end of a window of service, and the branches of the gain loop and of the window together (R107, R110, R146).
-/

namespace Sys2Proof.Machine

set_option Elab.async false

variable {s t u : State} {n : Fin 48} {l : List (Fld × Nat × Nat)} {ev : Bool}

/-! ### A window of service: the figures, then the step of training -/

/-- The registers that report a window's figures. -/
def State.figuresList (s : State) (n : Nat) : List (Fld × Nat × Nat) :=
  let r := (s.lane n).rx
  [(F.LANE_RX_FOM_SNR, n, s.windowSnr n % 2 ^ F.LANE_RX_FOM_SNR.w), (F.LANE_RX_FOM_MARGIN, n, medianOf r.margins % 2 ^ F.LANE_RX_FOM_MARGIN.w),
    (F.LANE_RX_LOWMARGIN_COUNT, n, min (s.rd F.LANE_RX_LOWMARGIN_COUNT n + s.windowLow n) (2 ^ 32 - 1)),
    (F.LANE_RX_OVR_COUNT, n, min (s.rd F.LANE_RX_OVR_COUNT n + r.overs) (2 ^ 32 - 1))]

/-- The figures of the running window are in their registers and counted. -/
def State.figuresWritten (s : State) (n : Nat) : State :=
  let r := (s.lane n).rx
  let t := (s.wr F.LANE_RX_FOM_SNR n (s.windowSnr n)).wr F.LANE_RX_FOM_MARGIN n (medianOf r.margins)
  (((t.bump F.LANE_RX_LOWMARGIN_COUNT n (s.windowLow n)).bump F.LANE_RX_OVR_COUNT n r.overs).perfSpread (0x800 + n) r.overs).perfSpread (0x840 + n) (s.windowLow n)

theorem State.figures_eq (s : State) (n : Nat) : s.figures n = (s.figuresWritten n).reconverge n (s.windowSnr n) := rfl

theorem State.becomes_figuresWritten (s : State) (n : Nat) : s.Becomes (s.figuresWritten n) (s.figuresList n) true := by
  unfold State.figuresWritten State.figuresList
  have h := ((State.Becomes.refl s true).wr F.LANE_RX_FOM_SNR n (s.windowSnr n) (by simp)).wr F.LANE_RX_FOM_MARGIN n (medianOf (s.lane n).rx.margins)
    (Fld.key_ne_of_offList rfl n)
  have h := (h.bump F.LANE_RX_LOWMARGIN_COUNT n (s.windowLow n) (Fld.key_ne_of_offList rfl n) fun _ => rfl).bump F.LANE_RX_OVR_COUNT n (s.lane n).rx.overs
    (Fld.key_ne_of_offList rfl n) fun _ => rfl
  exact (h.counted (State.Counted.perfSpread ..) (eventRegs_of_eventFree rfl)).counted (State.Counted.perfSpread ..) (eventRegs_of_eventFree rfl)

theorem State.reconverge_of_off {n snr : Nat} (h : s.on F.LANE_RX_STATUS_RECONVERGING n = false) : s.reconverge n snr = s := by
  simp [State.reconverge, h]

/-- The window counts toward the end of RECONVERGING, or begins the count anew. -/
theorem State.reconverge_of_on {n snr : Nat} (h : s.on F.LANE_RX_STATUS_RECONVERGING n = true) :
    let k := if snrNear snr (s.lane n).recordSnr then (s.lane n).steadyWindows + 1 else 0
    s.reconverge n snr = if 3 ≤ k then (s.setLane n { s.lane n with steadyWindows := k }).put F.LANE_RX_STATUS_RECONVERGING n false
      else s.setLane n { s.lane n with steadyWindows := k } := by
  rw [State.reconverge, if_pos h]
  rfl

theorem snrNear_iff {a b : Nat} : snrNear a b = true ↔ a ≤ b + 5 ∧ b ≤ a + 5 := by simp [snrNear]

theorem State.reconverging_figuresWritten (s : State) (n : Nat) :
    (s.figuresWritten n).on F.LANE_RX_STATUS_RECONVERGING n = s.on F.LANE_RX_STATUS_RECONVERGING n := (s.becomes_figuresWritten n).on_eq _ n

/-- The figures of a lane in tracking. -/
theorem State.figures_of_tracking {n : Nat} (h : s.on F.LANE_RX_STATUS_RECONVERGING n = false) :
    s.BecomesBeside (s.figures n) n (s.figuresList n) true ∧ (s.figures n).lane n = s.lane n := by
  have heq : s.figures n = s.figuresWritten n := State.reconverge_of_off ((s.reconverging_figuresWritten n).trans h)
  rw [heq]
  exact ⟨(s.becomes_figuresWritten n).beside n, (s.becomes_figuresWritten n).lane n⟩

/-- The figures of a reconverging lane whose window leaves its count at `k`. -/
theorem State.figures_of_reconverging {n k : Nat} (h : s.on F.LANE_RX_STATUS_RECONVERGING n = true)
    (hk : (if snrNear (s.windowSnr n) (s.lane n).recordSnr then (s.lane n).steadyWindows + 1 else 0) = k) :
    s.BecomesBeside (s.figures n) n (s.figuresList n ++ if 3 ≤ k then [(F.LANE_RX_STATUS_RECONVERGING, n, 0)] else []) true ∧
      (s.figures n).lane n = { s.lane n with steadyWindows := k } := by
  have hb := s.becomes_figuresWritten n
  have heq := State.reconverge_of_on (snr := s.windowSnr n) ((s.reconverging_figuresWritten n).trans h)
  rw [hb.lane, hk, ← State.figures_eq] at heq
  rw [heq]
  split
  · exact ⟨fun x => by rw [State.put, State.setLane_wr, State.setLane_setLane]; exact (hb.thenPut F.LANE_RX_STATUS_RECONVERGING n false).setLane n x,
      State.lane_setLane_self ..⟩
  · exact ⟨fun x => by rw [State.setLane_setLane, List.append_nil]; exact hb.setLane n x, State.lane_setLane_self ..⟩

theorem State.setLane_setLane_lane (s : State) (n : Nat) (x : LaneS) : ((s.setLane n (s.lane n)).setLane n x) = s.setLane n x := State.setLane_setLane ..

/-- Writing a lane's own record back changes none of the steps a window's end takes after it. -/
theorem State.windowNext_setLane_lane (s : State) (n : Nat) (made : Option Nat) : (s.setLane n (s.lane n)).windowNext n made = s.windowNext n made := by
  have hlane := s.lane_setLane_self n (s.lane n)
  have h : s.SameHolds (s.setLane n (s.lane n)) n := ⟨rfl, rfl, rfl, rfl, rfl, rfl⟩
  rw [State.windowNext_eq h (by rw [hlane]) (by rw [hlane]), State.windowNext_eq (t := s) ⟨rfl, rfl, rfl, rfl, rfl, rfl⟩ rfl rfl, hlane, State.setLane_setLane]

theorem State.windowNext_trainStep_setLane (s : State) (n : Nat) (made : Option Nat) :
    ((s.setLane n (s.lane n)).trainStep n).windowNext n made = (s.trainStep n).windowNext n made := by
  have hlane := s.lane_setLane_self n (s.lane n)
  by_cases h5 : s.rd F.LANE_RX_STATUS_ACQ_STEP n = 5
  · rw [State.trainStep_of_lock h5, State.trainStep_of_lock (s := s.setLane n (s.lane n)) h5]
    by_cases hl : s.on F.LANE_RX_STATUS_CDR_LOCK n = true
    · rw [if_pos hl, if_pos (show (s.setLane n (s.lane n)).on F.LANE_RX_STATUS_CDR_LOCK n = true from hl), State.acqBlind, State.acqBlind, State.setLane_wr,
        State.laneMod_eq, State.lane_setLane_self, State.setLane_setLane]
      rfl
    · rw [if_neg hl, if_neg (show ¬ (s.setLane n (s.lane n)).on F.LANE_RX_STATUS_CDR_LOCK n = true from hl), State.windowNext_setLane_lane]
  · rw [State.trainStep_of_train h5, State.trainStep_of_train (s := s.setLane n (s.lane n)) h5, State.laneMod_eq, hlane, State.setLane_setLane]
    rfl

theorem State.sweepStep_setLane (s : State) (n snr : Nat) : (s.setLane n (s.lane n)).sweepStep n snr = s.sweepStep n snr := by
  simp only [State.sweepStep_eq, State.lane_setLane_self, State.setLane_setLane]

theorem exec_fomWindowEnd_figures (hw : s.windowWhole n = true) (h : s.windowTrains n = false ∨ s.rd F.LANE_RX_STATUS_ACQ_STEP n < 4) :
    exec (.fomWindowEnd n) s = .next ((s.figures n).windowNext n (some (s.windowSnr n))) := by
  rw [exec_fomWindowEnd]
  simp only [hw]
  rcases h with h | h
  · simp [h]
  · simp [show ¬ s.rd F.LANE_RX_STATUS_ACQ_STEP n = 4 by omega, show ¬ 5 ≤ s.rd F.LANE_RX_STATUS_ACQ_STEP n by omega]

theorem exec_fomWindowEnd_figuresTrain (hw : s.windowWhole n = true) (ht : s.windowTrains n = true) (h : 4 ≤ s.rd F.LANE_RX_STATUS_ACQ_STEP n) :
    exec (.fomWindowEnd n) s = .next (
      (if 4 < s.rd F.LANE_RX_STATUS_ACQ_STEP n then (s.figures n).trainStep n else (s.figures n).sweepStep n (s.windowSnr n)).windowNext n (some (s.windowSnr n))) := by
  rw [exec_fomWindowEnd]
  by_cases h4 : s.rd F.LANE_RX_STATUS_ACQ_STEP n = 4
  · simp [hw, ht, h4]
  · simp [hw, ht, h4, show 5 ≤ s.rd F.LANE_RX_STATUS_ACQ_STEP n by omega, show 4 < s.rd F.LANE_RX_STATUS_ACQ_STEP n by omega]

/-- What follows the figures of a window in training. -/
def State.afterFigures (step snr n : Nat) (u : State) : State := (if 4 < step then u.trainStep n else u.sweepStep n snr).windowNext n (some snr)

/-- A window of service ends: with the figures alone, or in training with its step after them. -/
theorem fomWindowEnd_of_whole {x : LaneS} (hw : s.windowWhole n = true) (hb : s.BecomesBeside (s.figures n) n l true) (hx : (s.figures n).lane n = x)
    (hov : x.ovrFreeze = (s.lane n).ovrFreeze := by rfl) (hth : x.trainHeld = (s.lane n).trainHeld := by rfl) (hl : besideHolds l = true := by rfl) :
    (s.windowTrains n = false ∨ s.rd F.LANE_RX_STATUS_ACQ_STEP n < 4 →
      Does (.fomWindowEnd n) s fun t => (s.setLane n (s.windowRecord n x)).Becomes t l true) ∧
    (s.windowTrains n = true → 4 ≤ s.rd F.LANE_RX_STATUS_ACQ_STEP n →
      DoesThen (.fomWindowEnd n) s (State.afterFigures (s.rd F.LANE_RX_STATUS_ACQ_STEP n) (s.windowSnr n) n) fun u => (s.setLane n x).Becomes u l true) := by
  have hmade : (some (s.windowSnr n)).toList = s.windowMade n := by simp [State.windowMade, hw]
  refine ⟨fun h => ⟨_, exec_fomWindowEnd_figures hw h, hb.windowNext hx hmade hov hth hl⟩, fun ht h4 => ⟨_, hb x, ?_⟩⟩
  rw [exec_fomWindowEnd_figuresTrain hw ht h4, ← hx]
  unfold State.afterFigures
  split
  · rw [State.windowNext_trainStep_setLane]
  · rw [State.sweepStep_setLane]


/-! ### The obligation -/

theorem exec_reconvSlow_of_on (h : s.on F.LANE_RX_STATUS_RECONVERGING n = true) :
    exec (.reconvSlow n) s = .next (s.event F.LANE_RX_EVENT_RECONV_SLOW n) := by
  show execReconvSlow n s = _
  rw [execReconvSlow, State.eventIf, if_pos h]

/-- The gain loop of a Lit or Warm lane. -/
theorem gainLoop_spec (s : State) (n : Fin 48) (hc : s.Canonical) (h2 : 2 ≤ s.rd F.LANE_STATE_CUR n) :
    let fine := s.rd F.LANE_RX_GAIN_FINE n
    let att := s.rd F.LANE_RX_GAIN_ATTEN n
    let taken := LaneS.intervalTaken (s.lane n).rx
    let steps := fun w : List (Fld × Nat × Nat) =>
      DoesThen (.gainLoopUpdate n) s (·.freezeJudge n) fun u => (s.setLane n (taken (s.lane n))).Becomes u (s.offsetList n ++ w) false
    let changes := fun w : List (Fld × Nat × Nat) => DoesThen (.gainLoopUpdate n) s
      (fun u => ((u.gainChange n).setLane n (taken ((u.gainChange n).lane n))).freezeJudge n) fun u => s.Becomes u (s.offsetList n ++ w) false
    (s.gainRuns n = false ∨ (s.lane n).rx.tenCount = 0 ∨ (¬ s.gainLoud n ∧ ¬ s.gainQuiet n) → steps []) ∧
    (s.gainRuns n = true → 0 < (s.lane n).rx.tenCount →
      (s.gainQuiet n → fine < 63 → steps [(F.LANE_RX_GAIN_FINE, n.val, fine + 1)]) ∧
      (s.gainQuiet n → fine = 63 → 0 < att → changes [(F.LANE_RX_GAIN_ATTEN, n.val, att - 1), (F.LANE_RX_GAIN_FINE, n.val, 39)]) ∧
      (s.gainLoud n → 0 < fine → steps [(F.LANE_RX_GAIN_FINE, n.val, fine - 1)]) ∧
      (s.gainLoud n → fine = 0 → att < 7 → changes [(F.LANE_RX_GAIN_ATTEN, n.val, att + 1), (F.LANE_RX_GAIN_FINE, n.val, 24)])) := by
  intro fine att taken steps changes
  have hlane := s.lane_offsetTaken n
  have hfine : (s.offsetTaken n).rd F.LANE_RX_GAIN_FINE n = fine := s.rd_offsetTaken n _
  have hatt : (s.offsetTaken n).rd F.LANE_RX_GAIN_ATTEN n = att := s.rd_offsetTaken n _
  have hfine64 : fine < 64 := s.rd_lt hc F.LANE_RX_GAIN_FINE n
  have hatt8 : att < 8 := s.rd_lt hc F.LANE_RX_GAIN_ATTEN n
  have hloud : (s.offsetTaken n).gainLoud n ↔ s.gainLoud n := by
    unfold State.gainLoud
    rw [hlane, s.rd_offsetTaken n F.LANE_RX_GAIN_TARGET]
  have hquiet : (s.offsetTaken n).gainQuiet n ↔ s.gainQuiet n := by
    unfold State.gainQuiet
    rw [hloud, hlane, s.rd_offsetTaken n F.LANE_RX_GAIN_TARGET]
  have hfresh := State.Becomes.refl (s.offsetTaken n) false
  refine ⟨fun hidle => ?_, fun hrun hcount => ?_⟩
  · have heq : (s.offsetTaken n).gainStep n = s.offsetTaken n := State.gainStep_of_idle (by rwa [s.gainRuns_offsetTaken, hlane, hloud, hquiet])
    exact doesThen_gainLoopUpdate h2 (by rw [heq]; exact hfresh)
  · obtain ⟨hdown, hup⟩ := State.gainStep_of_runs (s := s.offsetTaken n) ((s.gainRuns_offsetTaken n).trans hrun) (by rwa [hlane])
    refine ⟨fun hq hf => ?_, fun hq hf ha => ?_, fun hl hf => ?_, fun hl hf ha => ?_⟩
    · refine doesThen_gainLoopUpdate h2 ?_
      rw [hup (hquiet.2 hq), State.gainUp_of_fine (by rwa [hfine]), hfine]
      exact hfresh.thenWr F.LANE_RX_GAIN_FINE n (fine + 1) (by show fine + 1 < 64; omega)
    · refine doesThen_gainLoopUpdate_change h2 ((hup (hquiet.2 hq)).trans (State.gainUp_of_atten (by rw [hfine, hf]) (by rwa [hatt]))) ?_
      rw [hatt]
      exact (hfresh.thenWr F.LANE_RX_GAIN_ATTEN n (att - 1) (by show att - 1 < 8; omega)).thenWr F.LANE_RX_GAIN_FINE n 39 (by decide)
    · refine doesThen_gainLoopUpdate h2 ?_
      rw [hdown (hloud.2 hl), State.gainDown_of_fine (by rwa [hfine]), hfine]
      exact hfresh.thenWr F.LANE_RX_GAIN_FINE n (fine - 1) (by show fine - 1 < 64; omega)
    · refine doesThen_gainLoopUpdate_change h2 ((hdown (hloud.2 hl)).trans (State.gainDown_of_atten (by rw [hfine, hf]) (by rwa [hatt]))) ?_
      rw [hatt]
      exact (hfresh.thenWr F.LANE_RX_GAIN_ATTEN n (att + 1) (by show att + 1 < 8; omega)).thenWr F.LANE_RX_GAIN_FINE n 24 (by decide)

/-- A window of service, in tracking and while reconverging. -/
theorem windowOfService_spec (s : State) (n : Fin 48) (hw : s.windowWhole n = true) :
    let l := s.lane n
    let step := s.rd F.LANE_RX_STATUS_ACQ_STEP n
    let ends := fun (x : LaneS) (w : List (Fld × Nat × Nat)) =>
      (s.windowTrains n = false ∨ step < 4 → Does (.fomWindowEnd n) s fun t => (s.setLane n (s.windowRecord n x)).Becomes t w true) ∧
      (s.windowTrains n = true → 4 ≤ step → DoesThen (.fomWindowEnd n) s (State.afterFigures step (s.windowSnr n) n) fun u => (s.setLane n x).Becomes u w true)
    (s.on F.LANE_RX_STATUS_RECONVERGING n = false → ends l (s.figuresList n)) ∧
    (s.on F.LANE_RX_STATUS_RECONVERGING n = true →
      (snrNear (s.windowSnr n) l.recordSnr = false → ends { l with steadyWindows := 0 } (s.figuresList n)) ∧
      (snrNear (s.windowSnr n) l.recordSnr = true → l.steadyWindows < 2 → ends { l with steadyWindows := l.steadyWindows + 1 } (s.figuresList n)) ∧
      (snrNear (s.windowSnr n) l.recordSnr = true → 2 ≤ l.steadyWindows →
        ends { l with steadyWindows := l.steadyWindows + 1 } (s.figuresList n ++ [(F.LANE_RX_STATUS_RECONVERGING, n.val, 0)]))) := by
  intro l step ends
  refine ⟨fun h => ?_, fun h => ⟨fun hn => ?_, fun hn hk => ?_, fun hn hk => ?_⟩⟩
  · obtain ⟨hb, hx⟩ := State.figures_of_tracking h
    exact fomWindowEnd_of_whole hw hb hx
  · obtain ⟨hb, hx⟩ := State.figures_of_reconverging h (k := 0) (by rw [hn]; rfl)
    exact fomWindowEnd_of_whole hw hb hx
  · obtain ⟨hb, hx⟩ := State.figures_of_reconverging h (k := l.steadyWindows + 1) (by rw [hn]; rfl)
    rw [if_neg (by omega), List.append_nil] at hb
    exact fomWindowEnd_of_whole hw hb hx
  · obtain ⟨hb, hx⟩ := State.figures_of_reconverging h (k := l.steadyWindows + 1) (by rw [hn]; rfl)
    rw [if_pos (by omega)] at hb
    exact fomWindowEnd_of_whole hw hb hx

/-- A window outside service: nothing, or one setting of the sweep, or one of training. -/
theorem windowOutside_spec (s : State) (n : Fin 48) (hw : s.windowWhole n = false) :
    let l := s.lane n
    let step := s.rd F.LANE_RX_STATUS_ACQ_STEP n
    let snr := s.windowSnr n
    let ends := fun (x : LaneS) (w : List (Fld × Nat × Nat)) => Does (.fomWindowEnd n) s fun t => (s.setLane n (s.windowRecord n x)).Becomes t w false
    (s.windowTrains n = false ∨ step < 4 → ends l []) ∧
    (s.windowTrains n = true →
      (step = 4 → (l.swept < 30 → ends { l with best := l.sweepBest snr, swept := l.swept + 1 } [(F.LANE_RX_CTLE_PEAK, n.val, l.swept + 1)]) ∧
        (30 ≤ l.swept → ends { l with best := l.sweepBest snr, swept := 31, acqWindows := 0 }
          [(F.LANE_RX_CTLE_PEAK, n.val, (l.sweepBest snr).2 % 2 ^ F.LANE_RX_CTLE_PEAK.w), (F.LANE_RX_STATUS_ACQ_STEP, n.val, 5)])) ∧
      (step = 5 → (s.on F.LANE_RX_STATUS_CDR_LOCK n = false → ends l []) ∧
        (s.on F.LANE_RX_STATUS_CDR_LOCK n = true → ends { l with acqWindows := 0 } [(F.LANE_RX_STATUS_ACQ_STEP, n.val, 6)])) ∧
      (6 ≤ step → ends { l with acqWindows := l.acqWindows + 1 }
        [(F.LANE_RX_STATUS_ACQ_STEP, n.val, if l.acqWindows + 1 < 250 then 6 else if l.acqWindows + 1 < 400 then 7 else 8)])) := by
  intro l step snr ends
  have hmade (ht : s.windowTrains n = true) : (some snr).toList = s.windowMade n := by simp [State.windowMade, ht, snr]
  have hself := (State.Becomes.refl s false).beside n
  have hset (x : LaneS) := State.Becomes.refl (s.setLane n x) false
  refine ⟨fun h => ⟨_, exec_fomWindowEnd_idle hw h, hself.windowNext rfl (s.windowMade_eq n)⟩, fun ht => ⟨fun h4 => ?_, fun h5 => ⟨fun hl => ?_, fun hl => ?_⟩, fun h6 => ?_⟩⟩
  · have hsweep := s.sweepStep_eq n snr
    refine ⟨fun hs => ⟨_, exec_fomWindowEnd_sweep hw ht h4, ?_⟩, fun hs => ⟨_, exec_fomWindowEnd_sweep hw ht h4, ?_⟩⟩
    · rw [if_neg (show ¬ 30 ≤ (s.lane n).swept from Nat.not_le.2 hs)] at hsweep
      rw [hsweep]
      refine ((hset _).thenWr F.LANE_RX_CTLE_PEAK n (l.swept + 1) (by show l.swept + 1 < 32; omega)).beside_of_setLane.windowNext ?_ (hmade ht)
      exact State.lane_setLane_self ..
    · rw [if_pos hs, State.setLane_wr, State.acqFreq_setLane] at hsweep
      rw [hsweep]
      refine (((hset _).wr F.LANE_RX_CTLE_PEAK n _ (by simp)).thenWr F.LANE_RX_STATUS_ACQ_STEP n 5 (by decide)).beside_of_setLane.windowNext ?_ (hmade ht)
      exact State.lane_setLane_self ..
  · refine ⟨_, exec_fomWindowEnd_train hw ht h5.ge, ?_⟩
    rw [State.trainStep_of_lock h5, hl]
    exact hself.windowNext rfl (hmade ht)
  · refine ⟨_, exec_fomWindowEnd_train hw ht h5.ge, ?_⟩
    rw [State.trainStep_of_lock h5, hl]
    exact ((hset _).thenWr F.LANE_RX_STATUS_ACQ_STEP n 6 (by decide)).beside_of_setLane.windowNext (State.lane_setLane_self ..) (hmade ht)
  · refine ⟨_, exec_fomWindowEnd_train hw ht (by omega), ?_⟩
    rw [State.trainStep_of_train (by omega)]
    refine ((hset _).thenWr F.LANE_RX_STATUS_ACQ_STEP n _ (by show _ < 16; split <;> [omega; split <;> omega])).beside_of_setLane.windowNext ?_ (hmade ht)
    exact State.lane_setLane_self ..

end Sys2Proof.Machine
end

section
/-!
PROOFS. The gain loop and the windows of a lane: the obligation.
-/

namespace Sys2Proof.Machine

set_option Elab.async false

/-- Settles O31: the gain loop writes registers alone or ends in a gain change, and the end of a window is the figures or a step of training, on a state whose freezes
no write of the window has touched. -/
theorem laneGainAndWindows : Obligations.LaneGainAndWindows := by
  unfold Obligations.LaneGainAndWindows
  intro s n hc l r fine att target fr taken loud quiet steps changes
  refine ⟨fun h2 => gainLoop_spec s n hc h2, exec_gainLoopUpdate_of_low, fun h => ⟨_, exec_reconvSlow_of_on h, State.becomes_event _ _ _ (by decide) rfl⟩, ?_⟩
  intro snr low step frozen whole trains next ends
  have hwhole : whole ↔ s.windowWhole n = true := State.windowWhole_iff.symm
  have hfrozen : frozen ↔ s.trainFreeze n = true := State.trainFreeze_iff.symm
  have htrains : trains ↔ s.windowTrains n = true := by
    rw [State.windowTrains_iff]
    simp only [trains, hfrozen, Bool.not_eq_true, step, l]
  have hidle : (¬ trains ∨ step < 4) ↔ (s.windowTrains n = false ∨ s.rd F.LANE_RX_STATUS_ACQ_STEP n < 4) := by rw [htrains, Bool.not_eq_true]
  have hnext (x : LaneS) (hth : x.trainHeld = l.trainHeld) (hs : x.rx.snrs = r.snrs) : s.windowRecord n x = next x := by
    have htw : decide (¬ frozen ∧ x.trainHeld = false) = (!s.trainFreeze n && !(s.lane n).trainHeld) := by
      simp [hfrozen, hth, l]
    have hmade : (if whole ∨ trains then [snr] else []) = s.windowMade n := by simp [State.windowMade, hwhole, htrains]; rfl
    simp only [next, htw, hmade, ← hs]
    rfl
  have hends {x : LaneS} {w : List (Fld × Nat × Nat)} {ev : Bool} (hth : x.trainHeld = l.trainHeld) (hs : x.rx.snrs = r.snrs)
      (h : Does (.fomWindowEnd n) s fun t => (s.setLane n (s.windowRecord n x)).Becomes t w ev) : ends x w ev := by
    rwa [hnext x hth hs] at h
  refine ⟨fun hw => ?_, fun hw => ?_⟩
  · intro rec' steady after ends'
    have hsteady : steady ↔ snrNear (s.windowSnr n) l.recordSnr = true := snrNear_iff.symm
    obtain ⟨htrack, hreconv⟩ := windowOfService_spec s n (hwhole.1 hw)
    refine ⟨fun h => ⟨fun hi => hends rfl rfl ((htrack h).1 (hidle.1 hi)), fun ht => (htrack h).2 (htrains.1 ht)⟩, fun h => ?_⟩
    obtain ⟨hfar, hnear, hdone⟩ := hreconv h
    refine ⟨fun hn => ?_, fun hn hk => ?_, fun hn hk => ?_⟩
    · have hx := hfar (Bool.eq_false_iff.2 (hsteady.not.1 hn))
      exact ⟨fun hi => hends rfl rfl (hx.1 (hidle.1 hi)), fun ht => hx.2 (htrains.1 ht)⟩
    · have hx := hnear (hsteady.1 hn) hk
      exact ⟨fun hi => hends rfl rfl (hx.1 (hidle.1 hi)), fun ht => hx.2 (htrains.1 ht)⟩
    · have hx := hdone (hsteady.1 hn) hk
      exact ⟨fun hi => hends rfl rfl (hx.1 (hidle.1 hi)), fun ht => hx.2 (htrains.1 ht)⟩
  · obtain ⟨hnone, hsome⟩ := windowOutside_spec s n (Bool.eq_false_iff.2 (hwhole.not.1 hw))
    refine ⟨fun hi => hends rfl rfl (hnone (hidle.1 hi)), fun ht => ?_⟩
    obtain ⟨hsweep, hlock, htrain⟩ := hsome (htrains.1 ht)
    exact ⟨fun h4 => ⟨fun hs => hends rfl rfl ((hsweep h4).1 hs), fun hs => hends rfl rfl ((hsweep h4).2 hs)⟩,
      fun h5 => ⟨fun hl => hends rfl rfl ((hlock h5).1 hl), fun hl => hends rfl rfl ((hlock h5).2 hl)⟩, fun h6 => hends rfl rfl (htrain h6)⟩

end Sys2Proof.Machine
end

section
/-!
PROOFS. Answers, and writes of protected words: what they leave of registers and records.
-/

namespace Sys2Proof.Machine

set_option Elab.async false

variable {s t u : State} {l : List (Fld × Nat × Nat)} {ev : Bool}

/-! ### Answers -/

theorem State.Becomes.answer (h : s.Becomes t l ev) (st : Status) (v : Nat) : (s.answer st v).Becomes (t.answer st v) l ev := by
  obtain ⟨hread, hframe, more, ht, hmore⟩ := State.becomes_iff.1 h
  exact State.becomes_iff.2 ⟨hread, hframe, more, congrArg (fun z : State => z.answer st v) ht, hmore⟩

/-! ### Writes of protected words (R420, R426, R448) -/

/-- `s` with other registers, memory and inverted bits. -/
def State.withStore (s : State) (regs : RegStore) (mem : List (MKey × Nat)) (marks : List Mark) : State := { s with regs := regs, mem := mem, marks := marks }

/-- `t` is `s` but for memory, inverted bits and the registers of the fault injection. -/
structure State.StoreOnly (s t : State) : Prop where
  only : t = s.withStore t.regs t.mem t.marks
  rd : ∀ g j, g.reg ≠ .MEMP_STATUS → g.reg ≠ .MEMP_INJECT_CTL → t.rd g j = s.rd g j

theorem State.StoreOnly.refl (s : State) : s.StoreOnly s := ⟨rfl, fun _ _ _ _ => rfl⟩

theorem State.StoreOnly.trans (h : s.StoreOnly t) (k : t.StoreOnly u) : s.StoreOnly u := by
  refine ⟨?_, fun g j h1 h2 => (k.rd g j h1 h2).trans (h.rd g j h1 h2)⟩
  exact k.only.trans (congrArg (fun z : State => z.withStore u.regs u.mem u.marks) h.only :)

theorem State.StoreOnly.lane (h : s.StoreOnly t) (n : Nat) : t.lane n = s.lane n := (congrArg (fun z : State => z.lane n) h.only :)

theorem State.StoreOnly.retrainAfter (h : s.StoreOnly t) : t.retrainAfter = s.retrainAfter := (congrArg State.retrainAfter h.only :)

theorem State.StoreOnly.resetAfter (h : s.StoreOnly t) : t.resetAfter = s.resetAfter := (congrArg State.resetAfter h.only :)

theorem State.StoreOnly.on (h : s.StoreOnly t) {g : Fld} (j : Nat) (h1 : g.reg ≠ .MEMP_STATUS) (h2 : g.reg ≠ .MEMP_INJECT_CTL) : t.on g j = s.on g j := by
  rw [State.on, State.on, h.rd g j h1 h2]

theorem State.storeOnly_st (s : State) (sp : Space) (i v : Nat) : s.StoreOnly (s.st sp i v) := ⟨rfl, fun _ _ _ _ => rfl⟩

theorem State.storeOnly_writeMark (s : State) (region word : Nat) : s.StoreOnly (s.writeMark region word) := by
  rcases s.writeMark_cases region word with h | ⟨-, copy, dx, cx, base, h⟩
  · exact h ▸ ⟨rfl, fun _ _ _ _ => rfl⟩
  · exact h ▸ ⟨rfl, fun g j h1 h2 => (State.rd_wr_ne _ _ (Fld.key_ne_reg h2)).trans (State.rd_wr_ne _ _ (Fld.key_ne_reg h1))⟩

theorem State.storeOnly_memWrite (s : State) (region word : Nat) (sp : Space) (i v : Nat) : s.StoreOnly (s.memWrite region word sp i v) := by
  unfold State.memWrite
  split
  · exact .refl s
  · exact (s.storeOnly_st sp i v).trans (State.storeOnly_writeMark ..)

theorem State.storeOnly_rxStore (s : State) (n k v : Nat) : s.StoreOnly (s.rxStore n k v) := s.storeOnly_memWrite ..

theorem State.StoreOnly.foldl {α : Type} {f : State → α → State} (hf : ∀ (t : State) x, t.StoreOnly (f t x)) : ∀ (l : List α) (s : State), s.StoreOnly (l.foldl f s)
  | [], s => .refl s
  | x :: l, s => (hf s x).trans (State.StoreOnly.foldl hf l (f s x))

end Sys2Proof.Machine
end

section
/-!
PROOFS. Seasoning, the clock's lock and coefficient access of a lane (R114 to R125, R136).
-/

namespace Sys2Proof.Machine

set_option Elab.async false

variable {s t u : State} {ag : Agent} {n : Fin 48} {v : W32}

/-! ### The start of a pass (R114, R115) -/

theorem exec_seasonStart (h : s.Accepts ag .LANE_SEASON_CMD n v.toNat) {st : Status} (ht : s.seasonWrite n v.toNat = (t, st))
    (hretrain : t.retrainAfter = s.retrainAfter := by rfl) (hreset : t.resetAfter = s.resetAfter := by rfl) :
    exec (.seasonStart ag n v) s = .next (t.answer st 0) :=
  congrArg Host.Outcome.next (State.writing_of_accepts_idle h ht hretrain hreset)

/-- The lane's record at the start of a pass of `slots` slots. -/
def LaneS.seasonStarted (l : LaneS) (slots : Nat) : LaneS :=
  { l with seasonSlot := (l.seasonLast + 1) % slots, seasonLeft := slots + 1, seasonTries := 0, seasonAcq := false, seasonGone := false }

theorem State.becomes_seasonGo (s : State) (n : Nat) : (s.setLane n ((s.lane n).seasonStarted (s.slots n))).Becomes (s.seasonGo n false)
    [(F.LANE_SEASON_STATUS_BUSY, n, 1),
      (F.LANE_MON_STATUS_PAUSED, n, if s.on F.LANE_MON_STATUS_BUSY n = true ∧ s.rd F.LANE_MON_CTL_MODE n = 2 then 1 else 0)] false := by
  have hbusy : (s.put F.LANE_SEASON_STATUS_BUSY n true).on F.LANE_SEASON_STATUS_BUSY n = true := State.on_put_self s n true
  have hmon : (s.put F.LANE_SEASON_STATUS_BUSY n true).on F.LANE_MON_STATUS_BUSY n = s.on F.LANE_MON_STATUS_BUSY n :=
    ((State.Becomes.refl s false).thenPut F.LANE_SEASON_STATUS_BUSY n true).on_eq _ n
  have hmode : (s.put F.LANE_SEASON_STATUS_BUSY n true).rd F.LANE_MON_CTL_MODE n = s.rd F.LANE_MON_CTL_MODE n :=
    ((State.Becomes.refl s false).thenPut F.LANE_SEASON_STATUS_BUSY n true).rd_eq _ n
  have heq : s.seasonGo n false = ((s.setLane n ((s.lane n).seasonStarted (s.slots n))).put F.LANE_SEASON_STATUS_BUSY n true).put F.LANE_MON_STATUS_PAUSED n
      ((s.put F.LANE_SEASON_STATUS_BUSY n true).on F.LANE_MON_STATUS_BUSY n && decide ((s.put F.LANE_SEASON_STATUS_BUSY n true).rd F.LANE_MON_CTL_MODE n = 2) &&
        (s.put F.LANE_SEASON_STATUS_BUSY n true).on F.LANE_SEASON_STATUS_BUSY n) := rfl
  rw [heq, hbusy, hmon, hmode, Bool.and_true]
  have h := ((State.Becomes.refl (s.setLane n ((s.lane n).seasonStarted (s.slots n))) false).thenPut F.LANE_SEASON_STATUS_BUSY n true).thenPut
    F.LANE_MON_STATUS_PAUSED n (s.on F.LANE_MON_STATUS_BUSY n && decide (s.rd F.LANE_MON_CTL_MODE n = 2))
  simpa using h

/-! ### The steps of a pass (R115, R118, R120) -/

theorem exec_seasoningStep_waits (trim : W32) (within sat : Bool) (h : s.underSlice n = true) : exec (.seasoningStep n within trim sat) s = .next s := by
  show execSeasoningStep n within trim sat s = _
  simp [execSeasoningStep, h]

theorem exec_seasoningStep (trim : W32) (within sat : Bool) (hb : s.on F.LANE_SEASON_STATUS_BUSY n = true) (h : s.underSlice n = false) :
    exec (.seasoningStep n within trim sat) s = .next ((s.trimSolve n trim.toNat sat).seasonStep n within) := by
  show execSeasoningStep n within trim sat s = _
  simp [execSeasoningStep, hb, h]

theorem State.trimNote_cases (s : State) (n trim : Nat) (sat : Bool) :
    s.trimNote n trim sat = s ∨ s.trimNote n trim sat = s.put F.LANE_SEASON_STATUS_TRIM_LIMIT n true := by
  unfold State.trimNote
  split
  · exact .inr rfl
  · exact .inl rfl

/-- Noting a saturated trim leaves every field but the note itself. -/
theorem State.rd_trimNote (s : State) (n trim : Nat) (sat : Bool) (g : Fld) (j : Nat) (hg : g.offList [(F.LANE_SEASON_STATUS_TRIM_LIMIT, n, 1)] = true := by rfl) :
    (s.trimNote n trim sat).rd g j = s.rd g j := by
  rcases s.trimNote_cases n trim sat with h | h
  · rw [h]
  · rw [h]
    exact State.rd_wr_ne _ _ fun e => Fld.key_ne_of_offList hg j _ List.mem_cons_self e.symm

theorem State.trimNote_lane (s : State) (n trim : Nat) (sat : Bool) : (s.trimNote n trim sat).lane n = s.lane n := by
  rcases s.trimNote_cases n trim sat with h | h <;> rw [h]
  rfl

/-- Whether a lane is Lit depends on its LANE_STATE alone. -/
theorem State.laneLit_congr {n : Nat} (h : ∀ g : Fld, g.reg = .LANE_STATE → t.rd g n = s.rd g n) : t.laneLit n = s.laneLit n := by
  rw [State.laneLit, State.laneLit, State.on, State.on, h F.LANE_STATE_CUR rfl, h F.LANE_STATE_CHANGING rfl, h F.LANE_STATE_REQ rfl]

theorem State.laneLit_trimSolve (s : State) (n trim : Nat) (sat : Bool) : (s.trimSolve n trim sat).laneLit n = s.laneLit n := by
  have h (g : Fld) (hg : g.reg = .LANE_STATE) : (s.trimSolve n trim sat).rd g n = s.rd g n :=
    (State.rd_trimNote _ n trim sat g n (by simp [Fld.offList, hg])).trans ((s.storeOnly_rxStore ..).rd g n (by simp [hg]) (by simp [hg]))
  exact State.laneLit_congr h

theorem State.trimSolve_lane (s : State) (n trim : Nat) (sat : Bool) : (s.trimSolve n trim sat).lane n = s.lane n :=
  (State.trimNote_lane ..).trans ((s.storeOnly_rxStore ..).lane n)

theorem State.seasonStep_of_gone {n : Nat} (h : s.laneLit n = false ∨ (s.lane n).seasonGone = true) : s.seasonStep n false =
    ((s.setLane n { s.lane n with seasonTries := (s.lane n).seasonTries + 1 }).put F.LANE_SEASON_STATUS_ABANDONED n true).seasonStop n := by
  have hg : (!s.laneLit n || (s.lane n).seasonGone) = true := by simpa using h
  simp only [State.seasonStep, Bool.false_eq_true, if_false, hg, if_true, State.laneMod_eq]

theorem State.seasonStep_of_try {n : Nat} (hl : s.laneLit n = true) (hg : (s.lane n).seasonGone = false) (ht : (s.lane n).seasonTries < 3) :
    s.seasonStep n false = s.setLane n { s.lane n with seasonTries := (s.lane n).seasonTries + 1 } := by
  simp only [State.seasonStep, Bool.false_eq_true, if_false, hl, hg, Bool.not_true, Bool.or_self, State.laneMod_eq, State.lane_setLane_self]
  exact if_neg (by omega)

/-- The fourth try in vain ends the pass. -/
theorem State.seasonStep_of_fail {n : Nat} (hl : s.laneLit n = true) (hg : (s.lane n).seasonGone = false) (ht : 3 ≤ (s.lane n).seasonTries) :
    s.seasonStep n false = ((((s.setLane n { s.lane n with seasonTries := (s.lane n).seasonTries + 1 }).wr F.LANE_SEASON_STATUS_FAIL_SLICE n
      (s.rd F.LANE_SEASON_STATUS_SPARE_POS n)).put F.LANE_SEASON_STATUS_NO_SPARE n true).event F.LANE_RX_EVENT_SEASON_FAIL n).seasonStop n := by
  simp only [State.seasonStep, Bool.false_eq_true, if_false, hl, hg, Bool.not_true, Bool.or_self, State.laneMod_eq, State.lane_setLane_self]
  exact if_pos (by omega)

theorem State.seasonStep_of_swap {n : Nat} (hl : s.laneLit n = true) (hg : (s.lane n).seasonGone = false) (hleft : 2 ≤ (s.lane n).seasonLeft) :
    s.seasonStep n true = s.seasonSwap n := by
  have hlane : ((s.seasonSwap n).lane n).seasonLeft = (s.lane n).seasonLeft - 1 := by
    rw [State.seasonSwap, State.setLane_wr, State.lane_setLane_self]
  simp only [State.seasonStep, if_true, hl, hg, Bool.not_true, Bool.or_self, Bool.false_eq_true, if_false, hlane]
  exact if_neg (by omega)

/-! ### The clock (R121 to R125) -/

theorem exec_cdrLost (h : s.on F.LANE_RX_STATUS_CDR_LOCK n = true) :
    exec (.cdrLockChange n false) s = .next (((s.track F.LANE_RX_STATUS_CDR_LOCK F.LANE_RX_EVENT_CDR n false).convLost n).laneMoved n) := by
  show execCdrLockChange n false s = _
  exact congrArg Host.Outcome.next (if_neg (by simp [h]))

/-- The step of acquisition that the clock's lock ends. -/
def State.lockTaken (s : State) (n : Nat) : State :=
  if s.rd F.LANE_RX_STATUS_ACQ_STEP n ≠ 5 then s else if (s.lane n).wake = Wake.full then s.acqBlind n else s.wr F.LANE_RX_STATUS_ACQ_STEP n 9

theorem exec_cdrFound (h : s.on F.LANE_RX_STATUS_CDR_LOCK n = false) (hc : 2 ≤ s.rd F.LANE_STATE_CUR n) (hs : s.on F.LANE_RX_STATUS_SIGNAL n = true) :
    exec (.cdrLockChange n true) s = .next (((s.track F.LANE_RX_STATUS_CDR_LOCK F.LANE_RX_EVENT_CDR n true).lockTaken n).laneMoved n) := by
  show execCdrLockChange n true s = _
  exact congrArg Host.Outcome.next ((if_neg (by simp [h])).trans ((if_pos rfl).trans (if_pos ⟨hc, hs⟩)))

/-- The clock is acquired anew: unless FREEZE holds it, the estimate is given up. -/
def State.reacquired (s : State) (n : Nat) : State :=
  let s1 := (if s.laneLit n then s else s.drawn).laneMod n fun l =>
    { l with rx := { l.rx with freq := if s.laneLit n then 0 else ((s.freeVal % 60001 : Nat) : Int) - 30000 } }
  if s.laneLit n && decide (s.rd F.LANE_RX_STATUS_ACQ_STEP n = 9) then s1.wr F.LANE_RX_STATUS_ACQ_STEP n 5 else s1

theorem exec_cdrReacquire (hs : s.on F.LANE_RX_STATUS_SIGNAL n = true) (hl : s.on F.LANE_RX_STATUS_CDR_LOCK n = false) (hc : 2 ≤ s.rd F.LANE_STATE_CUR n) :
    exec (.cdrReacquire n) s = .next (if s.on F.LANE_RX_CDR_FREEZE n then s else s.reacquired n) := by
  show execCdrReacquire n s = _
  by_cases hf : s.on F.LANE_RX_CDR_FREEZE n = true
  · rw [if_pos hf]
    exact congrArg Host.Outcome.next (if_neg (by simp [hf]))
  · rw [if_neg hf]
    exact congrArg Host.Outcome.next (if_pos (by simp [hs, hl, hc, hf]))

/-! ### Coefficient access (R116, R136) -/

/-- INDEX of a lane's coefficient access. -/
def State.rxIndex (s : State) (n : Nat) : Nat := s.rd F.LANE_RX_COEF_ADDR_INDEX n

theorem State.becomes_rxIndexNext (s : State) (n : Nat) :
    s.Becomes (s.rxIndexNext n) [(F.LANE_RX_COEF_ADDR_INDEX, n, (s.rxIndex n + 1) % 2 ^ F.LANE_RX_COEF_ADDR_INDEX.w)] false :=
  (State.Becomes.refl s false).wr _ _ _ (by simp)

theorem State.rxIndex_rxStore (s : State) (n m k v : Nat) : (s.rxStore m k v).rxIndex n = s.rxIndex n := (s.storeOnly_rxStore ..).rd _ _ (by decide) (by decide)

theorem State.rxIndex_trimNote (s : State) (n m trim : Nat) (sat : Bool) : (s.trimNote m trim sat).rxIndex n = s.rxIndex n := s.rd_trimNote m trim sat _ n

theorem exec_laneRxCoefData_write (h : s.Accepts ag .LANE_RX_COEF_DATA n v.toNat) (ht : s.rxDataWrite n v.toNat = (t, .ok))
    (hretrain : t.retrainAfter = s.retrainAfter) (hreset : t.resetAfter = s.resetAfter) : exec (.laneRxCoefData ag n (some v)) s = .next (t.answer .ok 0) :=
  congrArg Host.Outcome.next (State.writing_of_accepts_idle h ht hretrain hreset)

theorem exec_laneRxCoefData_read (h : s.readCheck ag .LANE_RX_COEF_DATA n = none) :
    exec (.laneRxCoefData ag n none) s = .next (match (s.rxDataRead n).2 with
      | some v => (s.rxDataRead n).1.answer .ok v
      | none => (s.rxDataRead n).1.answer .poisoned 0) := by
  show Host.Outcome.next (s.readingMem ag .LANE_RX_COEF_DATA n fun t => t.rxDataRead n) = _
  rw [State.readingMem, h] <;> rfl

theorem State.rxDataRead_of_unlisted {n : Nat} (h : rxCoefWidth (s.rxIndex n) = 0) : s.rxDataRead n = (s.rxIndexNext n, some 0) := if_pos h

/-- The read of a listed coefficient. -/
theorem State.rxDataRead_of_listed {n : Nat} (h : rxCoefWidth (s.rxIndex n) ≠ 0) :
    let read := s.memReadL 6 (laneWord n (s.rxIndex n)) (s.rxCoef n (s.rxIndex n))
    s.rxDataRead n = ((read.1.rxIndexNext n).laneLines n (read.2.1 = .bad) read.2.2, read.2.1.value) := if_neg h


/-! ### The obligation -/

theorem seasonStart_spec (s : State) (ag : Agent) (n : Fin 48) (v : W32) (ha : s.Accepts ag .LANE_SEASON_CMD n v.toNat)
    (hstart : F.LANE_SEASON_CMD_START.of v.toNat = 1) :
    let step := s.rd F.LANE_RX_STATUS_ACQ_STEP n
    (s.on F.LANE_SEASON_STATUS_NO_SPARE n = true → exec (.seasonStart ag n v) s = .next (s.answer .unitError 0)) ∧
    (s.on F.LANE_SEASON_STATUS_NO_SPARE n = false → s.laneLit n = false ∨ (1 ≤ step ∧ step ≤ 8) ∨ s.on F.LANE_SEASON_STATUS_BUSY n = true →
      exec (.seasonStart ag n v) s = .next (s.answer .refusedState 0)) ∧
    (s.on F.LANE_SEASON_STATUS_NO_SPARE n = false → s.laneLit n = true → (step = 0 ∨ 9 ≤ step) → s.on F.LANE_SEASON_STATUS_BUSY n = false →
      exec (.seasonStart ag n v) s = .next ((s.seasonGo n false).answer .ok 0)) := by
  intro step
  have hwrite : s.seasonWrite n v.toNat = if s.on F.LANE_SEASON_STATUS_NO_SPARE n then (s, .unitError)
      else if !s.laneLit n || decide (1 ≤ step ∧ step ≤ 8) || s.on F.LANE_SEASON_STATUS_BUSY n then (s, .refusedState) else (s.seasonGo n false, .ok) :=
    if_neg (by rw [hstart]; decide)
  refine ⟨fun h => ?_, fun h hr => ?_, fun h hl hs hb => ?_⟩
  · exact exec_seasonStart ha (by rw [hwrite, if_pos h])
  · refine exec_seasonStart ha (by rw [hwrite, h, if_neg (by simp), if_pos]; simpa [or_assoc] using hr)
  · refine exec_seasonStart ha (by rw [hwrite, h, if_neg (by simp), if_neg]; simp [hl, hb]; omega)

/-- A clock that is found sets the lock, and ends the step of acquisition that waited for it. -/
theorem cdrFound_spec (s : State) (n : Fin 48) (h : s.on F.LANE_RX_STATUS_CDR_LOCK n = false) (hc : 2 ≤ s.rd F.LANE_STATE_CUR n)
    (hs : s.on F.LANE_RX_STATUS_SIGNAL n = true) :
    let step := s.rd F.LANE_RX_STATUS_ACQ_STEP n
    let locked := [(F.LANE_RX_STATUS_CDR_LOCK, n.val, 1), (F.LANE_RX_EVENT_CDR, n.val, 1)]
    (step ≠ 5 → DoesThen (.cdrLockChange n true) s (·.laneMoved n) fun u => s.Becomes u locked true) ∧
    (step = 5 → (s.lane n).wake ≠ .full → DoesThen (.cdrLockChange n true) s (·.laneMoved n) fun u =>
      s.Becomes u (locked ++ [(F.LANE_RX_STATUS_ACQ_STEP, n.val, 9)]) true) ∧
    (step = 5 → (s.lane n).wake = .full → DoesThen (.cdrLockChange n true) s (·.laneMoved n) fun u =>
      (s.setLane n { s.lane n with acqWindows := 0 }).Becomes u (locked ++ [(F.LANE_RX_STATUS_ACQ_STEP, n.val, 6)]) true) := by
  intro step locked
  have hb : s.Becomes (s.track F.LANE_RX_STATUS_CDR_LOCK F.LANE_RX_EVENT_CDR n true) locked true := State.becomes_track (by simp [h])
  have hstep := hb.rd_eq F.LANE_RX_STATUS_ACQ_STEP n
  refine ⟨fun h5 => ⟨_, ?_, exec_cdrFound h hc hs⟩, fun h5 hw => ⟨_, ?_, exec_cdrFound h hc hs⟩, fun h5 hw => ⟨_, ?_, exec_cdrFound h hc hs⟩⟩
  · rw [State.lockTaken, if_pos (by rwa [hstep])]
    exact hb
  · rw [State.lockTaken, if_neg (by rw [hstep]; exact not_not.2 h5), if_neg (by rwa [hb.lane])]
    exact hb.thenWr F.LANE_RX_STATUS_ACQ_STEP n 9 (by decide)
  · rw [State.lockTaken, if_neg (by rw [hstep]; exact not_not.2 h5), if_pos (by rwa [hb.lane]), State.acqBlind, State.laneMod_eq, State.lane_wr, hb.lane]
    exact (hb.thenWr F.LANE_RX_STATUS_ACQ_STEP n 6 (by decide)).setLane n _

theorem cdrReacquire_spec (s : State) (n : Fin 48) (hs : s.on F.LANE_RX_STATUS_SIGNAL n = true) (hl : s.on F.LANE_RX_STATUS_CDR_LOCK n = false)
    (hc : 2 ≤ s.rd F.LANE_STATE_CUR n) (hf : s.on F.LANE_RX_CDR_FREEZE n = false) :
    let l := s.lane n
    let anew := s.setLane n { l with rx := { l.rx with freq := 0 } }
    (s.laneLit n = true → s.rd F.LANE_RX_STATUS_ACQ_STEP n = 9 → Does (.cdrReacquire n) s fun t => anew.Becomes t [(F.LANE_RX_STATUS_ACQ_STEP, n, 5)] false) ∧
    (s.laneLit n = true → s.rd F.LANE_RX_STATUS_ACQ_STEP n ≠ 9 → exec (.cdrReacquire n) s = .next anew) ∧
    (s.laneLit n = false → ∃ f : Int, -30000 ≤ f ∧ f ≤ 30000 ∧
      exec (.cdrReacquire n) s = .next (s.drawn.setLane n { l with rx := { l.rx with freq := f } })) := by
  intro l anew
  have hexec := exec_cdrReacquire hs hl hc
  rw [hf] at hexec
  refine ⟨fun hlit h9 => ⟨_, hexec, ?_⟩, fun hlit h9 => hexec.trans ?_, fun hlit => ⟨((s.freeVal % 60001 : Nat) : Int) - 30000, ?_, ?_, hexec.trans ?_⟩⟩
  · have heq : s.reacquired n = anew.wr F.LANE_RX_STATUS_ACQ_STEP n 5 := by simp only [State.reacquired, hlit, h9]; rfl
    rw [if_neg (by simp), heq]
    exact (State.Becomes.refl anew false).thenWr F.LANE_RX_STATUS_ACQ_STEP n 5 (by decide)
  · simp only [State.reacquired, hlit, h9]
    rfl
  · omega
  · omega
  · simp only [State.reacquired, hlit]
    rfl

theorem rxCoefWrite_spec (s : State) (ag : Agent) (n : Fin 48) (v : W32) (ha : s.Accepts ag .LANE_RX_COEF_DATA n v.toNat) :
    let k := s.rxIndex n
    let next := [(F.LANE_RX_COEF_ADDR_INDEX, n.val, (k + 1) % 2 ^ F.LANE_RX_COEF_ADDR_INDEX.w)]
    let stored := s.rxStore n k (rxCoefValue k v.toNat)
    (rxCoefWidth k = 0 → Does (.laneRxCoefData ag n (some v)) s fun t => (s.answer .ok 0).Becomes t next false) ∧
    (rxCoefWidth k = 32 → Does (.laneRxCoefData ag n (some v)) s fun t => ((stored.trimNote n v.toNat false).answer .ok 0).Becomes t next false) ∧
    (rxCoefWidth k ≠ 0 → rxCoefWidth k ≠ 32 → Does (.laneRxCoefData ag n (some v)) s fun t => (stored.answer .ok 0).Becomes t next false) := by
  intro k next stored
  have hwrite : s.rxDataWrite n v.toNat =
      ((if rxCoefWidth k = 32 then (if rxCoefWidth k = 0 then s else stored).trimNote n v.toNat false else if rxCoefWidth k = 0 then s else stored).rxIndexNext n, .ok) := rfl
  have hstored : stored.rxIndex n = k := s.rxIndex_rxStore ..
  have hretrain : stored.retrainAfter = s.retrainAfter  := (s.storeOnly_rxStore ..).retrainAfter
  have hreset : stored.resetAfter = s.resetAfter := (s.storeOnly_rxStore ..).resetAfter
  refine ⟨fun h0 => ?_, fun h32 => ?_, fun h0 h32 => ?_⟩
  · rw [h0, if_neg (by decide), if_pos rfl] at hwrite
    exact ⟨_, exec_laneRxCoefData_write ha hwrite rfl rfl, (s.becomes_rxIndexNext n).answer .ok 0⟩
  · rw [h32, if_pos rfl, if_neg (by decide)] at hwrite
    have hk : (stored.trimNote n v.toNat false).rxIndex n = k := (State.rxIndex_trimNote ..).trans hstored
    have hb := ((stored.trimNote n v.toNat false).becomes_rxIndexNext n).answer .ok 0
    rw [hk] at hb
    refine ⟨_, exec_laneRxCoefData_write ha hwrite ?_ ?_, hb⟩
    · rcases stored.trimNote_cases n v.toNat false with h | h <;> rw [h] <;> exact hretrain
    · rcases stored.trimNote_cases n v.toNat false with h | h <;> rw [h] <;> exact hreset
  · rw [if_neg h32, if_neg h0] at hwrite
    have hb := (stored.becomes_rxIndexNext n).answer .ok 0
    rw [hstored] at hb
    exact ⟨_, exec_laneRxCoefData_write ha hwrite hretrain hreset, hb⟩

theorem rxCoefRead_spec (s : State) (ag : Agent) (n : Fin 48) (hr : s.readCheck ag .LANE_RX_COEF_DATA n = none) :
    let k := s.rxIndex n
    let read := s.memReadL 6 (laneWord n k) (s.rxCoef n k)
    let u := read.1
    let on' := [(F.LANE_RX_COEF_ADDR_INDEX, n.val, (u.rxIndex n + 1) % 2 ^ F.LANE_RX_COEF_ADDR_INDEX.w)]
    (rxCoefWidth k = 0 → exec (.laneRxCoefData ag n none) s = .next ((s.rxIndexNext n).answer .ok 0)) ∧
    (rxCoefWidth k ≠ 0 → (∀ x, read.2.1 = .good x → DoesThen (.laneRxCoefData ag n none) s (fun t => (t.errorLines read.2.2).answer .ok x) fun t => u.Becomes t on' false) ∧
      (read.2.1 = .bad → DoesThen (.laneRxCoefData ag n none) s
        (fun t => ((t.laneForce n 3).errorLines (read.2.2 ++ [(n.val / 8, n.val % 8, 3)])).answer .poisoned 0) fun t => u.Becomes t on' false)) := by
  intro k read u on'
  have hexec := exec_laneRxCoefData_read hr
  refine ⟨fun h0 => ?_, fun h0 => ?_⟩
  · rw [hexec, State.rxDataRead_of_unlisted h0]
  · have hread : s.rxDataRead n = ((u.rxIndexNext n).laneLines n (read.2.1 = .bad) read.2.2, read.2.1.value) := State.rxDataRead_of_listed h0
    rw [hread] at hexec
    refine ⟨fun x hx => ⟨_, u.becomes_rxIndexNext n, ?_⟩, fun hbad => ⟨_, u.becomes_rxIndexNext n, ?_⟩⟩
    · rw [hexec, hx]
      rfl
    · rw [hexec, hbad]
      rfl

/-- Settles O32: each step of a pass, of the clock's lock and of a coefficient access by the branch of the model that takes it. -/
theorem laneSeasoningAndClock : Obligations.LaneSeasoningAndClock := by
  unfold Obligations.LaneSeasoningAndClock
  intro s ag n v trim sat l step'
  refine ⟨fun ha hstart => ?_, fun _ hw => exec_seasoningStep_waits trim true sat hw, fun hb hw hg => ?_, fun hb hw hl hg => ?_, fun h => ?_,
    cdrFound_spec s n, fun hs hl hc => ⟨fun hf => ?_, cdrReacquire_spec s n hs hl hc⟩, rxCoefWrite_spec s ag n v, fun hr => ?_⟩
  · obtain ⟨hspare, hrefuse, hgo⟩ := seasonStart_spec s ag n v ha hstart
    exact ⟨hspare, hrefuse, fun h h1 h2 h3 => ⟨_, hgo h h1 h2 h3, (s.becomes_seasonGo n).answer .ok 0⟩⟩
  · intro s1
    refine ⟨_, (State.Becomes.refl _ false).thenPut F.LANE_SEASON_STATUS_ABANDONED n true, ?_⟩
    rw [exec_seasoningStep trim false sat hb hw, State.seasonStep_of_gone (by rwa [State.laneLit_trimSolve, State.trimSolve_lane])]
  · intro s1 l1
    refine ⟨fun hl1 hg1 ht => ⟨_, exec_seasoningStep trim false sat hb hw, State.seasonStep_of_try hl1 hg1 ht⟩, fun hl1 hg1 hleft => ?_, fun hl1 hg1 ht => ?_⟩
    · refine ⟨_, exec_seasoningStep trim true sat hb hw, ?_⟩
      rw [State.seasonStep_of_swap hl1 hg1 hleft]
      exact (State.Becomes.refl _ false).wr _ _ _ (by simp)
    · refine ⟨_, (((State.Becomes.refl _ true).wr F.LANE_SEASON_STATUS_FAIL_SLICE n _ (by simp)).thenPut F.LANE_SEASON_STATUS_NO_SPARE n true).thenEvent
        F.LANE_RX_EVENT_SEASON_FAIL n, ?_⟩
      rw [exec_seasoningStep trim false sat hb hw, State.seasonStep_of_fail hl1 hg1 ht]
  · exact ⟨_, State.becomes_track (by simp [h]), exec_cdrLost h⟩
  · rw [exec_cdrReacquire hs hl hc, if_pos hf]
  · obtain ⟨hunlisted, hlisted⟩ := rxCoefRead_spec s ag n hr
    exact ⟨fun h0 => ⟨_, hunlisted h0, (s.becomes_rxIndexNext n).answer .ok 0⟩, hlisted⟩

end Sys2Proof.Machine
end

section
/-!
PROOFS. Passes of writes, registers returned to their reset values, and the configuration of a bay (R181).
-/

namespace Sys2Proof.Machine

set_option Elab.async false

variable {s t u : State} {ag : Agent} {b : Fin 6} {p : Fin 48} {v : W32}

/-! ### Passes of writes over the fields of a register -/

/-- A pass of writes of fields with different keys, each within its width, is the list of its writes. -/
theorem State.becomes_writes : ∀ (l : List (Fld × Nat × Nat)) (s : State), (l.Pairwise fun a b => a.1.key a.2.1 ≠ b.1.key b.2.1) → (∀ a ∈ l, a.2.2 < 2 ^ a.1.w) →
    s.Becomes (l.foldl (fun t a => t.wr a.1 a.2.1 a.2.2) s) l false
  | [], s, _, _ => .refl s false
  | a :: l, s, hp, hv => by
    obtain ⟨ha, hp⟩ := List.pairwise_cons.1 hp
    obtain ⟨hread, hframe, more, ht, hmore⟩ := State.becomes_iff.1 (State.becomes_writes l (s.wr a.1 a.2.1 a.2.2) hp fun b hb => hv b (List.mem_cons_of_mem _ hb))
    obtain rfl := hmore rfl
    refine State.becomes_iff.2 ⟨fun q hq => ?_, fun g j hg he => ?_, [], ht, fun _ => rfl⟩
    · rcases List.mem_cons.1 hq with rfl | hq
      · refine (hframe _ _ ha fun e => by cases e).trans ((State.rd_wr_self ..).trans (Nat.mod_eq_of_lt (hv _ List.mem_cons_self)))
      · exact hread q hq
    · exact (hframe g j (fun q hq => hg q (List.mem_cons_of_mem _ hq)) he).trans (State.rd_wr_ne _ _ (hg a List.mem_cons_self))

theorem Fld.of_lt (f : Fld) (v : Nat) : f.of v < 2 ^ f.w := Nat.mod_lt _ (Nat.two_pow_pos _)

/-- The fields of a register all written with their parts of a value. -/
theorem State.becomes_writeFields (s : State) (r : Reg) (i v : Nat) :
    s.Becomes (r.fields.foldl (fun t g => t.wr g i (g.of v)) s) (r.fields.map fun g => (g, i, g.of v)) false := by
  have h := State.becomes_writes (r.fields.map fun g => (g, i, g.of v)) s ?_ ?_
  · rwa [List.foldl_map] at h
  · exact List.pairwise_map.2 (r.fields_pairwise_lo_ne.imp fun hlo => Fld.key_ne_lo hlo)
  · intro a ha
    obtain ⟨g, -, rfl⟩ := List.mem_map.1 ha
    exact g.of_lt v

theorem State.Becomes.emit {l : List (Fld × Nat × Nat)} {ev : Bool} (h : s.Becomes t l ev) (o : Out) : (s.emit o).Becomes (t.emit o) l ev := by
  obtain ⟨hread, hframe, more, ht, hmore⟩ := State.becomes_iff.1 h
  exact State.becomes_iff.2 ⟨hread, hframe, more, congrArg (fun z : State => z.emit o) ht, hmore⟩

/-! ### Registers returned to their reset values -/

/-- A field whose key is dropped from the store reads its reset value. -/
theorem RegStore.get_filter (m : RegStore) (keep : FKey → Bool) (g : Fld) (i : Nat) :
    RegStore.get (m.filter fun e => keep e.1) g i = if keep (g.key i) then m.get g i else g.reset i := Amap.get_filter keep _ m _

theorem State.rd_resetRegs (s : State) (q : Reg → Nat → Bool) (g : Fld) (i : Nat) :
    (s.resetRegs q).rd g i = if q g.reg i && !critical g.reg then g.reset i else s.rd g i := by
  have h := RegStore.get_filter s.regs (fun k => !(q k.reg k.inst && !critical k.reg)) g i
  rw [show (s.resetRegs q).rd g i = RegStore.get (s.regs.filter fun e => !(q e.1.reg e.1.inst && !critical e.1.reg)) g i from rfl, h]
  show (if (!(q g.reg i && !critical g.reg)) = true then _ else _) = _
  cases q g.reg i && !critical g.reg <;> rfl

theorem bay_or_not_critical (r : Reg) : (r.info.unit != .bay || r == .BAY_ROLE || !critical r) = true := by
  induction r <;> exact @rfl Bool true

/-- The port registers hold no critical word beside the role maps. -/
theorem not_critical_of_bay {r : Reg} (hu : r.info.unit = .bay) (hr : r ≠ .BAY_ROLE) : critical r = false := by
  simpa [hu, hr] using bay_or_not_critical r

/-! ### The configuration of a bay (R181) -/

/-- A register of the port blocks of bay `b`. -/
def inPortBlocks (b : Nat) (r : Reg) (i : Nat) : Bool :=
  decide (r.info.unit = .bay ∧ r ≠ .BAY_CFG ∧ r ≠ .BAY_ROLE ∧ i / r.info.innerCount / 8 = b)

/-- The ports of bay `b` without records and locks. -/
def State.portsCleared (s : State) (b : Nat) : State :=
  (List.range 8).foldl (fun t k => (t.setPort (8 * b + k) PortS.init).setLock (8 * b + k) LockS.init) s

/-- The port blocks of bay `b` are reset and its split is taken. -/
def State.baySplit (s : State) (b v : Nat) : State :=
  ((s.resetRegs (inPortBlocks b)).portsCleared b).wr F.BAY_CFG_SPLIT b (F.BAY_CFG_SPLIT.of v)

theorem State.bayCfgWrite_of_awake {b v : Nat} (h : ∃ k : Fin 8, s.laneCold (8 * b + k) = false) : s.bayCfgWrite b v = (s, .refusedState) := by
  obtain ⟨k, hk⟩ := h
  refine if_pos ?_
  simp only [Bool.not_eq_true', List.all_eq_false]
  exact ⟨8 * b + k, List.mem_map.2 ⟨k, List.mem_range.2 k.isLt, rfl⟩, by simp [hk]⟩

theorem State.bayCfgWrite_of_cold {b v : Nat} (h : ∀ k : Fin 8, s.laneCold (8 * b + k) = true) :
    s.bayCfgWrite b v = (((bayLanes b).foldl (fun t n => t.rippleCheck n) (s.baySplit b v)).protUpdate.mergeAll, .ok) := by
  have hall : (bayLanes b).all (fun n => s.laneCold n) = true := List.all_eq_true.2 fun n hn => by
    obtain ⟨k, hk, rfl⟩ := List.mem_map.1 hn
    exact h ⟨k, List.mem_range.1 hk⟩
  exact if_neg (by rw [hall]; decide)

theorem State.port_setPort (s : State) (p q : Nat) (x : PortS) : (s.setPort p x).port q = if p = q then x else s.port q := by
  split
  next h => exact h ▸ s.port_setPort_self p x
  next h => exact Amap.get_put_ne natLt PortS.init PortS.init s.ports x (Ne.symm h)

theorem State.lockOf_setLock (s : State) (p q : Nat) (x : LockS) : (s.setLock p x).lockOf q = if p = q then x else s.lockOf q := by
  split
  next h => exact h ▸ s.lockOf_setLock_self p x
  next h => exact Amap.get_put_ne natLt LockS.init LockS.init s.locks x (Ne.symm h)

/-- `s` with other registers, records of ports and locks. -/
def State.withPorts (s : State) (regs : RegStore) (ports : List (Nat × PortS)) (locks : List (Nat × LockS)) : State := { s with regs := regs, ports := ports, locks := locks }

/-- Clearing ports and locks at a list of places. -/
theorem State.clearAt_spec (f : Nat → Nat) : ∀ (l : List Nat) (s : State),
    let t := l.foldl (fun t k => (t.setPort (f k) PortS.init).setLock (f k) LockS.init) s
    t = s.withPorts s.regs t.ports t.locks ∧
      ∀ q, t.port q = (if ∃ k ∈ l, f k = q then PortS.init else s.port q) ∧ t.lockOf q = if ∃ k ∈ l, f k = q then LockS.init else s.lockOf q
  | [], s => ⟨rfl, fun q => by simp⟩
  | k :: l, s => by
    obtain ⟨heq, hq⟩ := State.clearAt_spec f l ((s.setPort (f k) PortS.init).setLock (f k) LockS.init)
    refine ⟨heq, fun q => ?_⟩
    have hport : ((s.setPort (f k) PortS.init).setLock (f k) LockS.init).port q = if f k = q then PortS.init else s.port q := by
      rw [State.port_setLock, State.port_setPort]
    have hlock : ((s.setPort (f k) PortS.init).setLock (f k) LockS.init).lockOf q = if f k = q then LockS.init else s.lockOf q :=
      State.lockOf_setLock ..
    obtain ⟨hp, hl⟩ := hq q
    rw [List.foldl_cons, hp, hl, hport, hlock]
    by_cases hk : f k = q <;> simp [hk]

theorem mem_bayPorts {b q : Nat} : (∃ k ∈ List.range 8, 8 * b + k = q) ↔ q / 8 = b := by
  simp only [List.mem_range]
  constructor
  · rintro ⟨k, hk, rfl⟩
    omega
  · intro h
    exact ⟨q % 8, by omega, by omega⟩

theorem State.portsCleared_spec (s : State) (b : Nat) :
    (∃ ports locks, s.portsCleared b = s.withPorts s.regs ports locks) ∧
      ∀ q, (s.portsCleared b).port q = (if q / 8 = b then PortS.init else s.port q) ∧
        (s.portsCleared b).lockOf q = if q / 8 = b then LockS.init else s.lockOf q := by
  obtain ⟨heq, hq⟩ := State.clearAt_spec (8 * b + ·) (List.range 8) s
  simp only [mem_bayPorts] at hq
  exact ⟨⟨_, _, heq⟩, hq⟩

/-- What a new split leaves of the registers, ports and locks. -/
theorem State.baySplit_spec (s : State) (b v : Nat) :
    let u := s.baySplit b v
    let block := fun (g : Fld) (i : Nat) => g.reg.info.unit = .bay ∧ g.reg ≠ .BAY_CFG ∧ g.reg ≠ .BAY_ROLE ∧ i / g.reg.info.innerCount / 8 = b
    u.rd F.BAY_CFG_SPLIT b = F.BAY_CFG_SPLIT.of v ∧ (∀ g i, block g i → u.rd g i = g.reset i) ∧
    (∀ g i, ¬ block g i → g.key i ≠ F.BAY_CFG_SPLIT.key b → u.rd g i = s.rd g i) ∧
    (∀ q, u.port q = (if q / 8 = b then PortS.init else s.port q) ∧ u.lockOf q = if q / 8 = b then LockS.init else s.lockOf q) ∧
    u = s.withPorts u.regs u.ports u.locks := by
  intro u block
  have hu : u = ((s.resetRegs (inPortBlocks b)).portsCleared b).wr F.BAY_CFG_SPLIT b (F.BAY_CFG_SPLIT.of v) := rfl
  clear_value u
  subst hu
  obtain ⟨⟨ports, locks, heq⟩, hq⟩ := (s.resetRegs (inPortBlocks b)).portsCleared_spec b
  have hrd (g : Fld) (i : Nat) : ((s.resetRegs (inPortBlocks b)).portsCleared b).rd g i = (s.resetRegs (inPortBlocks b)).rd g i :=
    (congrArg (fun z : State => z.rd g i) heq :)
  refine ⟨?_, fun g i hg => ?_, fun g i hg hk => ?_, hq, ?_⟩
  · rw [State.rd_wr_self, Fld.of_mod]
  · obtain ⟨hunit, hcfg, hrole, hb⟩ := hg
    rw [State.rd_wr_ne _ _ (Fld.key_ne_reg hcfg), hrd, State.rd_resetRegs, not_critical_of_bay hunit hrole, if_pos]
    simp [inPortBlocks, hunit, hcfg, hrole, hb]
  · rw [State.rd_wr_ne _ _ hk, hrd, State.rd_resetRegs, show inPortBlocks b g.reg i = false from decide_eq_false hg]
    rfl
  · generalize (s.resetRegs (inPortBlocks b)).portsCleared b = x at heq
    subst heq
    rfl

end Sys2Proof.Machine
end

section
/-!
PROOFS. Roles of a bay, lane states of a port and its configuration: what the writes do (R137, R138, R182, R185).
-/

namespace Sys2Proof.Machine

set_option Elab.async false

variable {s t u : State} {ag : Agent} {b : Fin 6} {p : Fin 48} {v : W32}

/-! ### Roles (R182) -/

/-- The ports of bay `b` that exist, by their place in the bay. -/
def State.bayPorts (s : State) (b : Nat) : List Nat := (List.range 8).filter fun i => s.portExists (8 * b + i)

/-- A role that would change on a port that has an awake lane. -/
def State.roleBlocked (s : State) (b v i : Nat) : Bool :=
  decide ((roleFld i).of v ≠ s.role (8 * b + i)) && !(s.portLanes (8 * b + i)).all fun n => s.laneCold n

theorem State.bayRoleWrite_eq (s : State) (b v : Nat) : s.bayRoleWrite b v =
    if (s.bayPorts b).any (s.roleBlocked b v) then (s, .refusedState)
    else (((s.bayPorts b).foldl (fun t i => t.portMoved (8 * b + i))
      ((bayLanes b).foldl (fun t n => t.rippleCheck n) (((s.bayPorts b).foldl (fun t i => t.wr (roleFld i) b ((roleFld i).of v)) s).tvWrite (tvRole b)))), .ok) := rfl

theorem State.roleBlocked_iff {b v : Nat} : (s.bayPorts b).any (s.roleBlocked b v) = true ↔
    ∃ i : Fin 8, s.portExists (8 * b + i) = true ∧ (roleFld i).of v ≠ s.role (8 * b + i) ∧ ∃ n ∈ s.portLanes (8 * b + i), s.laneCold n = false := by
  simp only [List.any_eq_true, State.bayPorts, List.mem_filter, List.mem_range, State.roleBlocked, Bool.and_eq_true, decide_eq_true_eq, Bool.not_eq_true',
    List.all_eq_false, Bool.not_eq_true]
  exact ⟨fun ⟨i, ⟨hi, hex⟩, hne, hn⟩ => ⟨⟨i, hi⟩, hex, hne, hn⟩, fun ⟨i, hex, hne, hn⟩ => ⟨i, ⟨i.isLt, hex⟩, hne, hn⟩⟩

theorem State.becomes_roles (s : State) (b v : Nat) : s.Becomes ((s.bayPorts b).foldl (fun t i => t.wr (roleFld i) b ((roleFld i).of v)) s)
    ((s.bayPorts b).map fun i => (roleFld i, b, (roleFld i).of v)) false := by
  have h := State.becomes_writes ((s.bayPorts b).map fun i => (roleFld i, b, (roleFld i).of v)) s ?_ ?_
  · rwa [List.foldl_map] at h
  · have hne : (s.bayPorts b).Pairwise (· ≠ ·) := List.nodup_range.filter _
    exact List.pairwise_map.2 (hne.imp fun hij => Fld.key_ne_lo fun e => hij (Nat.eq_of_mul_eq_mul_left (by decide : 0 < 2) e))
  · intro a ha
    obtain ⟨i, -, rfl⟩ := List.mem_map.1 ha
    exact Fld.of_lt ..

/-! ### Lane states of a port (R137, R138) -/

/-- Whether a lane refuses a request depends on the configuration of its bay, its ports, its rate and Kiln alone. -/
def refusalRegs (r : Reg) : Bool := [Reg.BAY_CFG, .BAY_ROLE, .PORT_CFG, .LANE_RX_CFG, .KILN_REG].contains r

theorem State.laneRefuses_congr (h : ∀ g j, refusalRegs g.reg = true → t.rd g j = s.rd g j) (n req : Nat) : t.laneRefuses n req = s.laneRefuses n req := by
  have hsplit (x : Nat) : t.rd F.BAY_CFG_SPLIT x = s.rd F.BAY_CFG_SPLIT x := h _ _ rfl
  have hrate (x : Nat) : t.rd F.LANE_RX_CFG_RATE x = s.rd F.LANE_RX_CFG_RATE x := h _ _ rfl
  have hformat (x : Nat) : t.rd F.PORT_CFG_FORMAT x = s.rd F.PORT_CFG_FORMAT x := h _ _ rfl
  have hkiln (x : Nat) : t.rd F.KILN_REG_STATE x = s.rd F.KILN_REG_STATE x := h _ _ rfl
  have hrole (k x : Nat) : t.rd (roleFld k) x = s.rd (roleFld k) x := h _ _ rfl
  have hlanes : t.lanesPerPort = s.lanesPerPort := by
    funext x
    rw [State.lanesPerPort, State.lanesPerPort, State.portsOf, State.portsOf, hsplit]
  have hroleOf (q : Nat) : t.role q = s.role q := by
    rw [State.role, State.role, State.portExists, State.portExists, State.portsOf, State.portsOf, hsplit, hrole]
  have hport : t.portOfLane n = s.portOfLane n := by rw [State.portOfLane, State.portOfLane, hlanes]
  have hmembers (q : Nat) : t.portLanes q = s.portLanes q := by rw [State.portLanes, State.portLanes, hlanes]
  simp only [State.laneRefuses, State.laneExcluded, State.notConfigured, hkiln, hport, hroleOf, hrate, hformat, hmembers]

theorem State.laneRefuses_put {f : Fld} (hf : refusalRegs f.reg = false) (i : Nat) (x : Bool) (n req : Nat) : (s.put f i x).laneRefuses n req = s.laneRefuses n req :=
  State.laneRefuses_congr (fun _ _ hg => State.rd_wr_ne _ _ (Fld.key_ne_reg fun e => by rw [e, hf] at hg; cases hg)) n req

/-- REFUSED of a port's lane states is cleared by 1. -/
def State.portAcked (s : State) (p v : Nat) : State := if F.PORT_LANE_STATE_REFUSED.of v = 1 then s.put F.PORT_LANE_STATE_REFUSED p false else s

theorem State.laneRefuses_portAcked (s : State) (p v n req : Nat) : (s.portAcked p v).laneRefuses n req = s.laneRefuses n req := by
  unfold State.portAcked
  split
  · exact State.laneRefuses_put rfl ..
  · rfl

/-- A request to every lane of a port. -/
def State.requestAll (s : State) (lanes : List Nat) (req : Nat) : State := lanes.foldl (fun t n => (t.laneRequest n req).1) s

theorem State.portStateWrite_of_forced {p v : Nat} (h : ∃ n ∈ s.portLanes p, (s.lane n).forcedDrop = true) : s.portStateWrite p v = (s, .waiting) :=
  if_pos (List.any_eq_true.2 h)

theorem State.portStateWrite_of_free {p v : Nat} (h : ∀ n ∈ s.portLanes p, (s.lane n).forcedDrop = false) :
    let req := F.PORT_LANE_STATE_REQ.of v
    let t := ((s.portAcked p v).wr F.PORT_LANE_STATE_REQ p req).requestAll (s.portLanes p) req
    s.portStateWrite p v = if (s.portLanes p).any fun n => s.laneRefuses n req then (t.put F.PORT_LANE_STATE_REFUSED p true, .refusedState) else (t, .ok) := by
  intro req t
  have hany : ((s.portLanes p).any fun n => (s.portAcked p v).laneRefuses n req) = (s.portLanes p).any fun n => s.laneRefuses n req := by
    simp only [State.laneRefuses_portAcked]
  rw [← hany]
  exact if_neg (by rw [List.any_eq_true]; rintro ⟨n, hn, hd⟩; rw [h n hn] at hd; cases hd)

theorem State.becomes_portAsked (s : State) (p v : Nat) : s.Becomes ((s.portAcked p v).wr F.PORT_LANE_STATE_REQ p (F.PORT_LANE_STATE_REQ.of v))
    ((F.PORT_LANE_STATE_REQ, p, F.PORT_LANE_STATE_REQ.of v) :: if F.PORT_LANE_STATE_REFUSED.of v = 1 then [(F.PORT_LANE_STATE_REFUSED, p, 0)] else []) false := by
  unfold State.portAcked
  split
  · exact (((State.Becomes.refl s false).thenPut F.PORT_LANE_STATE_REFUSED p false).thenWr F.PORT_LANE_STATE_REQ p _ (Fld.of_lt ..)).perm (List.Perm.swap ..)
  · exact (State.Becomes.refl s false).thenWr F.PORT_LANE_STATE_REQ p _ (Fld.of_lt ..)

/-! ### The configuration of a port (R185, R187) -/

/-- Some lane of the port is awake. -/
def State.portAwake (s : State) (p : Nat) : Prop := ∃ n ∈ s.portLanes p, 1 < s.rd F.LANE_STATE_CUR n ∨ s.on F.LANE_STATE_CHANGING n = true

/-- A FORMAT 1 port sends remote fault (R187). -/
def State.sendsFault (s : State) (p : Nat) : Bool := decide (s.rd F.PORT_CFG_FORMAT p = 1) && s.on F.PORT_CFG_SEND_RF p

/-- Remote fault starts or stops where it has changed since `s`. -/
def State.faultFollows (s t : State) (p : Nat) : State := if t.sendsFault p = s.sendsFault p then t else t.emit (.remoteFault p (t.sendsFault p))

/-- The fields of PORT_CFG are written; with the format changed the port's FEC counters and its block under assembly are gone. -/
def State.portConfigured (s : State) (p v : Nat) : State :=
  let s1 := (Reg.fields .PORT_CFG).foldl (fun t g => t.wr g p (g.of v)) s
  if decide (F.PORT_CFG_FORMAT.of v ≠ s.rd F.PORT_CFG_FORMAT p) then
    { s1.setPort p { s1.port p with rx := none } with
      regs := s1.regs.filter fun e => !(e.1.reg.info.unit = .bay && e.1.reg.info.innerCount = 8 && e.1.inst / 8 = p) }
  else s1

theorem State.portCfgWrite_of_refused {p v : Nat} (h : 4 ≤ F.PORT_CFG_FORMAT.of v ∨ (F.PORT_CFG_FORMAT.of v ≠ s.rd F.PORT_CFG_FORMAT p ∧ s.portAwake p)) :
    s.portCfgWrite p v = (s, .refusedState) := by
  unfold State.portCfgWrite
  by_cases h4 : 4 ≤ F.PORT_CFG_FORMAT.of v
  · exact if_pos h4
  · obtain ⟨hne, n, hn, hawake⟩ := h.resolve_left h4
    refine (if_neg h4).trans (if_pos ?_)
    have hnot : ¬ (decide (s.rd F.LANE_STATE_CUR n ≤ 1) && !s.on F.LANE_STATE_CHANGING n) = true := by
      rcases hawake with h | h <;> simp [h]
    rw [decide_eq_true hne, Bool.true_and, Bool.not_eq_true', List.all_eq_false]
    exact ⟨n, hn, hnot⟩

theorem State.portCfgWrite_of_accepted {p v : Nat} (h4 : F.PORT_CFG_FORMAT.of v < 4) (ha : F.PORT_CFG_FORMAT.of v = s.rd F.PORT_CFG_FORMAT p ∨ ¬ s.portAwake p) :
    let t := s.faultFollows (s.portConfigured p v) p
    s.portCfgWrite p v = ((if s.on F.PORT_CFG_TX_EN p = false ∧ t.on F.PORT_CFG_TX_EN p = true then t.dataPath (48 + p / 8) else t).portMoved p, .ok) := by
  intro t
  have hquiet : ¬ (decide (F.PORT_CFG_FORMAT.of v ≠ s.rd F.PORT_CFG_FORMAT p) &&
      !(s.portLanes p).all fun n => decide (s.rd F.LANE_STATE_CUR n ≤ 1) && !s.on F.LANE_STATE_CHANGING n) = true := by
    rcases ha with h | h
    · simp [h]
    · simp only [Bool.and_eq_true, not_and, Bool.not_eq_true', Bool.not_eq_false, List.all_eq_true, decide_eq_true_eq]
      intro _ n hn
      refine ⟨Nat.not_lt.1 fun hlt => h ⟨n, hn, .inl hlt⟩, ?_⟩
      rw [← Bool.not_eq_true]
      exact fun hc => h ⟨n, hn, .inr hc⟩
  exact (if_neg (Nat.not_le.2 h4)).trans (if_neg hquiet)

/-- The PORT_CFG fields after the write, with what else the write does to the registers and the port. -/
theorem State.portConfigured_of_same {p v : Nat} (h : F.PORT_CFG_FORMAT.of v = s.rd F.PORT_CFG_FORMAT p) :
    s.Becomes (s.portConfigured p v) ((Reg.fields .PORT_CFG).map fun g => (g, p, g.of v)) false := by
  have heq : s.portConfigured p v = (Reg.fields .PORT_CFG).foldl (fun t g => t.wr g p (g.of v)) s := if_neg (by simp [h])
  rw [heq]
  exact s.becomes_writeFields .PORT_CFG p v

/-- A register of the FEC counters of port `p`. -/
def inFecCounts (p : Nat) (k : FKey) : Bool := k.reg.info.unit = .bay && k.reg.info.innerCount = 8 && k.inst / 8 = p

theorem inFecCounts_iff {p : Nat} {g : Fld} {i : Nat} : inFecCounts p (g.key i) = true ↔ g.reg.info.unit = .bay ∧ g.reg.info.innerCount = 8 ∧ i / 8 = p := by
  rw [inFecCounts, Bool.and_eq_true, Bool.and_eq_true, decide_eq_true_eq, decide_eq_true_eq, decide_eq_true_eq]
  exact and_assoc

theorem State.portConfigured_of_change {p v : Nat} (h : F.PORT_CFG_FORMAT.of v ≠ s.rd F.PORT_CFG_FORMAT p) :
    let u := s.portConfigured p v
    (∀ g ∈ Reg.fields .PORT_CFG, u.rd g p = g.of v) ∧
    (∀ g i, inFecCounts p (g.key i) = true → u.rd g i = g.reset i) ∧
    (∀ g i, inFecCounts p (g.key i) = false → g.reg ≠ .PORT_CFG ∨ i ≠ p → u.rd g i = s.rd g i) ∧
    u = (s.setPort p { s.port p with rx := none }).withRegs u.regs s.perfPipe := by
  intro u
  obtain ⟨hread, hframe, more, hrest, hnone⟩ := State.becomes_iff.1 (s.becomes_writeFields .PORT_CFG p v)
  set w := (Reg.fields .PORT_CFG).foldl (fun t g => t.wr g p (g.of v)) s with hw
  rw [hnone rfl, List.append_nil] at hrest
  have hu : u = (w.setPort p { w.port p with rx := none }).withRegs (w.regs.filter fun e => !inFecCounts p e.1) s.perfPipe := by
    have hpipe : w.perfPipe = s.perfPipe := (congrArg State.perfPipe hrest :)
    rw [← hpipe]
    exact if_pos (by simpa using h)
  have hport : w.port p = s.port p := (congrArg (fun z : State => z.port p) hrest :)
  have hrd (g : Fld) (i : Nat) : u.rd g i = if inFecCounts p (g.key i) then g.reset i else w.rd g i := by
    rw [hu]
    refine (RegStore.get_filter w.regs (fun k => !inFecCounts p k) g i).trans ?_
    cases inFecCounts p (g.key i) <;> rfl
  refine ⟨fun g hg => ?_, fun g i hg => ?_, fun g i hg hne => ?_, ?_⟩
  · have hout : inFecCounts p (g.key p) = false := by
      rw [Fld.key, Reg.reg_of_mem_fields hg]
      rfl
    rw [hrd, hout]
    exact hread (g, p, g.of v) (List.mem_map.2 ⟨g, hg, rfl⟩)
  · rw [hrd, if_pos hg]
  · rw [hrd, hg]
    refine hframe g i (fun q hq => ?_) fun e => by cases e
    obtain ⟨f, hf, rfl⟩ := List.mem_map.1 hq
    exact hne.elim (fun hr => Fld.key_ne_reg (Reg.reg_of_mem_fields hf ▸ hr)) Fld.key_ne_inst
  · have hset : w.setPort p { w.port p with rx := none } = (s.setPort p { s.port p with rx := none }).withRegs w.regs s.perfPipe := by
      rw [hport]
      exact (congrArg (fun z : State => z.setPort p { s.port p with rx := none }) hrest :)
    have hregs : u.regs = w.regs.filter fun e => !inFecCounts p e.1 := (congrArg State.regs hu :)
    rw [hregs]
    exact State.withRegs_trans hset hu

end Sys2Proof.Machine
end

section
/-!
PROOFS. Configuration of bays and ports: the commands and the obligation.
-/

namespace Sys2Proof.Machine

set_option Elab.async false

variable {s t u : State} {ag : Agent} {b : Fin 6} {p : Fin 48} {v : W32}

/-! ### The commands -/

theorem exec_bayCfgWrite (h : s.Accepts ag .BAY_CFG b v.toNat) :
    exec (.bayCfgWrite ag b v) s = .next ((s.bayCfgWrite b v.toNat).1.answer (s.bayCfgWrite b v.toNat).2 0).settle :=
  congrArg Host.Outcome.next (State.writing_of_accepts h _)

theorem exec_bayRoleWrite (h : s.Accepts ag .BAY_ROLE b v.toNat) :
    exec (.bayRoleWrite ag b v) s = .next ((s.bayRoleWrite b v.toNat).1.answer (s.bayRoleWrite b v.toNat).2 0).settle :=
  congrArg Host.Outcome.next (State.writing_of_accepts h _)

theorem exec_portLaneState (h : s.Accepts ag .PORT_LANE_STATE p v.toNat) :
    exec (.portLaneState ag p v) s = .next ((s.portStateWrite p v.toNat).1.answer (s.portStateWrite p v.toNat).2 0).settle :=
  congrArg Host.Outcome.next (State.writing_of_accepts h _)

theorem exec_portCfgWrite (h : s.Accepts ag .PORT_CFG p v.toNat) :
    exec (.portCfgWrite ag p v) s = .next ((s.portCfgWrite p v.toNat).1.answer (s.portCfgWrite p v.toNat).2 0).settle :=
  congrArg Host.Outcome.next (State.writing_of_accepts h _)

/-! ### What follows a configuration of a port -/

theorem Fld.of_one {f : Fld} (hw : f.w = 1 := by rfl) (v : Nat) : decide (f.of v ≠ 0) = decide (f.of v = 1) := by
  have h := f.of_lt v
  rw [hw] at h
  rw [decide_eq_decide]
  omega

/-- Whether the port sends remote fault after the value `v` was written to PORT_CFG. -/
def faultWanted (v : Nat) : Bool := decide (F.PORT_CFG_FORMAT.of v = 1) && decide (F.PORT_CFG_SEND_RF.of v = 1)

theorem State.sendsFault_of_fields {p v : Nat} (h : ∀ g ∈ Reg.fields .PORT_CFG, u.rd g p = g.of v) : u.sendsFault p = faultWanted v := by
  rw [State.sendsFault, State.on, h F.PORT_CFG_FORMAT (by decide), h F.PORT_CFG_SEND_RF (by decide), Fld.of_one, faultWanted]

theorem State.txEn_of_fields {p v : Nat} (h : ∀ g ∈ Reg.fields .PORT_CFG, u.rd g p = g.of v) : u.on F.PORT_CFG_TX_EN p = true ↔ F.PORT_CFG_TX_EN.of v = 1 := by
  rw [State.on, h F.PORT_CFG_TX_EN (by decide), Fld.of_one, decide_eq_true_eq]

/-- Remote fault starts or stops on the state before the write, as `faultFollows` has it on the state after it. -/
def State.faultGiven (s : State) (p v : Nat) : State := if faultWanted v = s.sendsFault p then s else s.emit (.remoteFault p (faultWanted v))

theorem State.rd_faultFollows (s t : State) (p : Nat) (g : Fld) (i : Nat) : (s.faultFollows t p).rd g i = t.rd g i := by
  unfold State.faultFollows
  split <;> rfl

/-- The write is carried out and what follows from it in the units behind is done. -/
theorem doesThen_portCfgWrite (ha : s.Accepts ag .PORT_CFG p v.toNat) {P : State → Prop} (h4 : F.PORT_CFG_FORMAT.of v.toNat < 4)
    (hf : F.PORT_CFG_FORMAT.of v.toNat = s.rd F.PORT_CFG_FORMAT p ∨ ¬ s.portAwake p) (hfields : ∀ g ∈ Reg.fields .PORT_CFG, (s.portConfigured p v.toNat).rd g p = g.of v.toNat)
    (hP : P (s.faultFollows (s.portConfigured p v.toNat) p)) :
    DoesThen (.portCfgWrite ag p v) s (fun u =>
      (((if s.on F.PORT_CFG_TX_EN p = false ∧ F.PORT_CFG_TX_EN.of v.toNat = 1 then u.dataPath (48 + p / 8) else u).portMoved p).answer .ok 0).settle) P := by
  refine ⟨_, hP, ?_⟩
  have htx := State.txEn_of_fields (u := s.faultFollows (s.portConfigured p v.toNat) p) fun g hg => (State.rd_faultFollows ..).trans (hfields g hg)
  rw [exec_portCfgWrite ha, State.portCfgWrite_of_accepted h4 hf]
  simp only [htx]

theorem State.faultFollows_same {p v : Nat} (h : F.PORT_CFG_FORMAT.of v = s.rd F.PORT_CFG_FORMAT p) :
    (s.faultGiven p v).Becomes (s.faultFollows (s.portConfigured p v) p) ((Reg.fields .PORT_CFG).map fun g => (g, p, g.of v)) false := by
  have hb := State.portConfigured_of_same h
  have hfields : ∀ g ∈ Reg.fields .PORT_CFG, (s.portConfigured p v).rd g p = g.of v := fun g hg => hb.1 (g, p, g.of v) (List.mem_map.2 ⟨g, hg, rfl⟩)
  rw [State.faultFollows, State.faultGiven, State.sendsFault_of_fields hfields]
  split
  · exact hb
  · exact hb.emit _

theorem State.faultFollows_change {p v : Nat} (h : F.PORT_CFG_FORMAT.of v ≠ s.rd F.PORT_CFG_FORMAT p) :
    let u := s.faultFollows (s.portConfigured p v) p
    u = ((s.faultGiven p v).setPort p { s.port p with rx := none }).withRegs u.regs (s.faultGiven p v).perfPipe := by
  intro u
  obtain ⟨hfields, -, -, hrest⟩ := State.portConfigured_of_change h
  have hu : u = if faultWanted v = s.sendsFault p then s.portConfigured p v else (s.portConfigured p v).emit (.remoteFault p (faultWanted v)) := by
    rw [← State.sendsFault_of_fields hfields]
    rfl
  clear_value u
  unfold State.faultGiven
  split at hu
  next hsame =>
    subst hu
    rw [if_pos hsame]
    exact hrest
  next hother =>
    subst hu
    rw [if_neg hother]
    exact (congrArg (fun z : State => z.emit (.remoteFault p (faultWanted v))) hrest :)

/-- Settles O36: every accepted configuration is a pass of writes, and a refusal is judged before any of them. -/
theorem portConfiguration : Obligations.PortConfiguration := by
  unfold Obligations.PortConfiguration
  intro s ag b p v
  refine ⟨fun ha => ⟨fun h => ?_, fun h => ⟨_, s.baySplit_spec b v.toNat, ?_⟩⟩, fun ha => ?_, fun ha => ?_, fun ha => ?_⟩
  · rw [exec_bayCfgWrite ha, State.bayCfgWrite_of_awake h, State.settle_answer_of_accepts ha]
  · rw [exec_bayCfgWrite ha, State.bayCfgWrite_of_cold h]
  · intro bad
    have hexec := exec_bayRoleWrite ha
    rw [State.bayRoleWrite_eq] at hexec
    refine ⟨fun h => ?_, fun h => ⟨_, s.becomes_roles b v.toNat, ?_⟩⟩
    · rw [if_pos (State.roleBlocked_iff.2 h), State.settle_answer_of_accepts ha] at hexec
      exact hexec
    · rw [if_neg (State.roleBlocked_iff.not.2 h)] at hexec
      exact hexec
  · intro req all bad set
    refine ⟨fun h => ?_, fun h => ?_⟩
    · rw [exec_portLaneState ha, State.portStateWrite_of_forced h, State.settle_answer_of_accepts ha]
    · have hexec := exec_portLaneState ha
      rw [State.portStateWrite_of_free h] at hexec
      refine ⟨fun hb => ⟨_, s.becomes_portAsked p v.toNat, ?_⟩, fun hb => ⟨_, s.becomes_portAsked p v.toNat, ?_⟩⟩
      · rw [if_pos (List.any_eq_true.2 hb)] at hexec
        exact hexec
      · rw [if_neg (List.any_eq_true.not.2 hb)] at hexec
        exact hexec
  · intro f awake set begins moved rf s0
    have hs0 : s0 = s.faultGiven p v.toNat := rfl
    refine ⟨fun h => ?_, fun h4 hsame => ?_, fun h4 hne hawake => ?_⟩
    · rw [exec_portCfgWrite ha, State.portCfgWrite_of_refused h, State.settle_answer_of_accepts ha]
    · have hb := State.portConfigured_of_same (s := s) (p := p) hsame
      exact doesThen_portCfgWrite ha h4 (.inl hsame) (fun g hg => hb.1 (g, p.val, g.of v.toNat) (List.mem_map.2 ⟨g, hg, rfl⟩)) (State.faultFollows_same hsame)
    · obtain ⟨hfields, hreset, hframe, -⟩ := State.portConfigured_of_change (s := s) (p := p) hne
      refine doesThen_portCfgWrite ha h4 (.inr hawake) hfields ⟨fun g hg => ?_, fun g i hu hc hi => ?_, fun g i hb hk => ?_, State.faultFollows_change hne⟩
      · rw [State.rd_faultFollows, hfields g hg]
      · rw [State.rd_faultFollows, hreset g i (inFecCounts_iff.2 ⟨hu, hc, hi⟩)]
      · rw [State.rd_faultFollows, hframe g i (Bool.eq_false_iff.2 (inFecCounts_iff.not.2 hb)) hk]

end Sys2Proof.Machine
end

section
/-!
PROOFS. Work beside the lanes: ports, corrections, reads and votes of words, and data paths leave the registers and the records of the lanes.
-/

namespace Sys2Proof.Machine

set_option Elab.async false

variable {s t u : State}

/-- `t` follows from `s` by work beside the lanes: their registers and records stay, and no block is reset. -/
structure State.Beside (s t : State) : Prop where
  rd : ∀ g j, laneReg g.reg = true → t.rd g j = s.rd g j
  lanes : t.lanes = s.lanes
  blockResets : t.blockResets = s.blockResets

theorem State.Beside.refl (s : State) : s.Beside s := ⟨fun _ _ _ => rfl, rfl, rfl⟩

theorem State.Beside.trans (h : s.Beside t) (k : t.Beside u) : s.Beside u :=
  ⟨fun g j hg => (k.rd g j hg).trans (h.rd g j hg), k.lanes.trans h.lanes, k.blockResets.trans h.blockResets⟩

/-- An update that leaves registers, lanes and the block resets in progress. -/
theorem State.Beside.of_fields (hr : t.regs = s.regs := by rfl) (hl : t.lanes = s.lanes := by rfl) (hb : t.blockResets = s.blockResets := by rfl) : s.Beside t :=
  ⟨fun g j _ => by rw [State.rd, State.rd, hr], hl, hb⟩

theorem State.Beside.wr {f : Fld} (hf : laneReg f.reg = false) (i v : Nat) : s.Beside (s.wr f i v) :=
  ⟨fun _ _ hg => State.rd_wr_ne _ _ (Fld.key_ne_reg fun e => by rw [e, hf] at hg; cases hg), rfl, rfl⟩

theorem State.Beside.thenWr (h : s.Beside t) (f : Fld) (i v : Nat) (hf : laneReg f.reg = false := by rfl) : s.Beside (t.wr f i v) := h.trans (.wr hf i v)
theorem State.Beside.thenPut (h : s.Beside t) (f : Fld) (i : Nat) (b : Bool) (hf : laneReg f.reg = false := by rfl) : s.Beside (t.put f i b) := h.thenWr f i _ hf
theorem State.Beside.thenBump (h : s.Beside t) (f : Fld) (i k : Nat) (hf : laneReg f.reg = false := by rfl) : s.Beside (t.bump f i k) := h.thenWr f i _ hf

theorem State.Beside.ite {c : Prop} {_ : Decidable c} (h : s.Beside t) (k : s.Beside u) : s.Beside (if c then t else u) := by
  split
  · exact h
  · exact k

theorem State.Beside.foldl {α : Type} {f : State → α → State} (hf : ∀ (t : State) x, t.Beside (f t x)) (l : List α) : s.Beside (l.foldl f s) :=
  List.foldlRecOn (motive := fun t => s.Beside t) l f (.refl s) fun t h x _ => h.trans (hf t x)

/-- A pass in which every step works beside the lanes and gathers something. -/
theorem State.Beside.foldlFst {α β : Type} {f : State × β → α → State × β} (hf : ∀ (a : State × β) x, a.1.Beside (f a x).1) (l : List α) (a : State × β) :
    a.1.Beside (l.foldl f a).1 :=
  List.foldlRecOn (motive := fun c => a.1.Beside c.1) l f (.refl a.1) fun c h x _ => h.trans (hf c x)

theorem State.Counted.beside (h : s.Counted t) : s.Beside t := by
  obtain ⟨⟨_, he⟩, hrd⟩ := h
  exact ⟨fun g j hg => hrd g j (eventRegs_of_laneReg hg), (congrArg State.lanes he :), (congrArg State.blockResets he :)⟩

theorem State.Beside.thenEvent (h : s.Beside t) (f : Fld) (i : Nat) (hf : laneReg f.reg = false := by rfl) : s.Beside (t.event f i) :=
  (h.thenPut f i true hf).trans (State.Counted.levelEdge ..).beside

theorem State.beside_perf (ev k : Nat) : s.Beside (s.perf ev k) := (State.Counted.perf s ev k).beside
theorem State.beside_perfTun (k t a : Nat) : s.Beside (s.perfTun k t a) := State.beside_perf ..
theorem State.beside_irq (n : Nat) : s.Beside (s.irq n) := (State.Counted.irq s n).beside

theorem State.beside_eventIf (c : Bool) (f : Fld) (i : Nat) (hf : laneReg f.reg = false := by rfl) : s.Beside (s.eventIf c f i) :=
  .ite ((State.Beside.refl s).thenEvent f i hf) (.refl s)

theorem State.beside_track (f e : Fld) (i : Nat) (b : Bool) (hf : laneReg f.reg = false := by rfl) (he : laneReg e.reg = false := by rfl) :
    s.Beside (s.track f e i b) :=
  .ite (.refl s) (((State.Beside.refl s).thenPut f i b hf).thenEvent e i he)

theorem State.beside_trackVal (f e : Fld) (i v : Nat) (hf : laneReg f.reg = false := by rfl) (he : laneReg e.reg = false := by rfl) :
    s.Beside (s.trackVal f e i v) :=
  .ite (.refl s) (((State.Beside.refl s).thenWr f i v hf).thenEvent e i he)

/-! ### Ports and paths (R206, R207, R311, R325) -/

theorem State.beside_journalAdd (kind : Nat) (detail : List Nat) : s.Beside (s.journalAdd kind detail) := by
  unfold State.journalAdd
  exact .of_fields

theorem State.beside_faultNote (s₀ : State) (detail : List Nat) : s.Beside (s.faultNote s₀ detail) := .ite (State.beside_journalAdd ..) (.refl s)

theorem State.beside_portReady (p : Nat) : s.Beside (s.portReady p) := by
  unfold State.portReady
  dsimp only
  refine .trans ?_ (State.beside_track ..)
  refine .trans ?_ (State.beside_track ..)
  exact .ite .of_fields (.refl s)

theorem State.beside_pathTrack (x : Nat) (rx tx e : Fld) (hr : laneReg rx.reg = false := by rfl) (ht : laneReg tx.reg = false := by rfl)
    (he : laneReg e.reg = false := by rfl) : s.Beside (s.pathTrack x rx tx e) :=
  .ite (.refl s) ((((State.Beside.refl s).thenWr rx _ _ hr).thenWr tx _ _ ht).thenEvent e _ he)

theorem State.beside_rideEnter (t : Nat) : s.Beside (s.rideEnter t) :=
  .ite (.refl s) ((((((State.Beside.refl s).thenPut ..).thenPut ..).thenPut ..).thenPut ..).thenEvent ..)

theorem State.beside_protUpdate : s.Beside s.protUpdate := by
  unfold State.protUpdate State.pathsTrack State.lossNote State.switchArrive State.rideCheck
  refine .trans ?_ (.ite (.refl _) (.foldl (fun t k => .ite (State.beside_rideEnter k) (.refl t)) _))
  refine .trans ?_ (.ite .of_fields (.refl _))
  refine .trans ?_ (.foldl (fun t x => .ite (State.beside_faultNote ..) (.refl t)) _)
  exact (State.beside_pathTrack ..).trans (State.beside_pathTrack ..)

theorem State.beside_portUpdate (p : Nat) : s.Beside (s.portUpdate p) := by
  unfold State.portUpdate State.portNote
  refine .trans ?_ (.ite (State.beside_faultNote ..) (.refl _))
  exact (State.beside_portReady p).trans State.beside_protUpdate

/-! ### Corrections and reads of words (R418 to R429) -/

theorem State.beside_memLog (e : LogRec) : s.Beside (s.memLog e) := .ite .of_fields ((State.Beside.refl s).thenBump ..)

theorem State.beside_setMarkOn (region word copy dx cx base : Nat) : s.Beside (s.setMarkOn region word copy dx cx base) := .of_fields

theorem State.beside_setMark (region word copy dx cx : Nat) : s.Beside (s.setMark region word copy dx cx) := .of_fields

theorem State.beside_takeSpare (region word : Nat) : s.Beside (s.takeSpare region word) :=
  ((State.Beside.refl s).thenWr F.MEMP_REG_STATUS_SPARES_LEFT region (s.rd F.MEMP_REG_STATUS_SPARES_LEFT region - 1)).trans .of_fields

theorem State.beside_hardError (region word copy bit : Nat) : s.Beside (s.hardError region word copy bit).1 := by
  unfold State.hardError
  dsimp only
  refine .trans (((State.Beside.refl s).thenBump ..).trans (State.beside_memLog _)) (.ite ?_ (State.beside_memLog _))
  exact (State.beside_takeSpare region word).trans (State.beside_memLog _)

theorem State.beside_correction (region word copy bit base : Nat) : s.Beside (s.correction region word copy bit base).1 := by
  have hmark : s.Beside ((s.setMarkOn region word copy 0 0 base).memLog ⟨word, 1, region, bit, copy⟩) :=
    (State.beside_setMarkOn ..).trans (State.beside_memLog _)
  have hcount (t : State) : t.Beside (if region = 10 then t else (t.bump F.MEMP_REG_CNT_CORRECTED region 1).perf (0x240 + region) 1) :=
    .ite (.refl t) (((State.Beside.refl t).thenBump ..).trans (State.beside_perf ..))
  unfold State.correction
  dsimp only
  refine (hmark.trans (hcount _)).trans ?_
  generalize (if region = 10 then (_ : State) else _) = counted
  split
  · exact .trans .of_fields (State.beside_hardError region word copy bit)
  · exact .of_fields

theorem State.beside_drawn : s.Beside s.drawn := .of_fields

theorem State.beside_miscorrection (region word copy v x : Nat) : s.Beside (s.miscorrection region word copy v x).1 :=
  State.beside_drawn.trans (State.beside_correction ..)

theorem State.beside_trackRead (region word : Nat) : s.Beside (s.trackRead region word) := .of_fields

theorem State.beside_rawCapture (region word copy v dx cx : Nat) : s.Beside (s.rawCapture region word copy v dx cx) :=
  .ite ((((State.Beside.refl s).thenWr ..).thenWr ..).thenWr ..) (.refl s)

theorem State.beside_uncorrectable (region word kind : Nat) : s.Beside (s.uncorrectable region word kind).1 := by
  unfold State.uncorrectable State.setPoison
  dsimp only
  exact (((State.beside_setMarkOn ..).thenBump F.MEMP_REG_CNT_UNCORRECTABLE region 1).trans (State.beside_memLog _)).trans (State.beside_perf ..)

theorem State.beside_memReadL (region word v : Nat) : s.Beside (s.memReadL region word v).1 := by
  have hread := (State.beside_trackRead (s := s) region word).trans
    (State.beside_rawCapture region word 0 v (s.markOf region word 0).1 (s.markOf region word 0).2)
  unfold State.memReadL
  split
  · exact .refl s
  split
  · exact .refl s
  dsimp only
  split
  · exact hread
  · exact hread.trans (State.beside_correction ..)
  · exact hread.trans (State.beside_uncorrectable ..)
  · dsimp only
    exact hread.trans ((State.beside_memLog _).trans (State.beside_perf ..))
  · exact hread.trans (State.beside_miscorrection ..)
  · exact hread

theorem State.beside_spanWord (region word : Nat) (value : Option Nat) : s.Beside (s.spanWord region word value).1 := by
  cases value with
  | some v => exact State.beside_memReadL ..
  | none => exact State.beside_drawn.trans (State.beside_memReadL ..)

theorem State.beside_spanRead (region first count : Nat) (value : Nat → Option Nat) : s.Beside (s.spanRead region first count value).1 := by
  unfold State.spanRead
  dsimp only
  refine State.Beside.foldlFst (fun a w => ?_) _ (s, false, [])
  exact State.beside_spanWord region w (value w)

theorem State.beside_writeMark (region word : Nat) : s.Beside (s.writeMark region word) := by
  rcases s.writeMark_cases region word with h | ⟨-, copy, dx, cx, base, h⟩
  · exact h ▸ State.beside_setMark ..
  · exact h ▸ ((State.beside_setMarkOn ..).thenPut F.MEMP_STATUS_ARMED 0 false).thenPut F.MEMP_INJECT_CTL_ARM 0 false

theorem State.beside_wrote (region first count : Nat) : s.Beside (s.wrote region first count) := .ite (.refl s) .of_fields

theorem State.beside_spanWrite (region first count : Nat) : s.Beside (s.spanWrite region first count) := by
  unfold State.spanWrite
  refine .trans (.ite (State.beside_wrote ..) (.refl s)) (.foldl (fun t w => .ite (.refl t) (State.beside_writeMark ..)) _)

/-! ### Critical words (R428) -/

theorem State.beside_putWord {r : Reg} (h : laneReg r = false) (i v : Nat) : s.Beside (s.putWord r i v) :=
  List.foldlRecOn (motive := fun t => s.Beside t) _ _ (.refl s) fun _ ht _ hf => ht.trans (.wr (Reg.reg_of_mem_fields hf ▸ h) i _)

theorem State.beside_tvStore (word v : Nat) : s.Beside (s.tvStore word v) := by
  unfold State.tvStore
  refine .ite ((State.beside_putWord rfl _ _).trans (State.beside_putWord rfl _ _)) (.ite (.ite ?_ ?_) (.ite ?_ (.ite ?_ (.ite ?_ ?_))))
  · exact (State.beside_putWord rfl _ _).trans (State.beside_putWord rfl _ _)
  · exact (State.beside_putWord rfl _ _).trans (State.beside_putWord rfl _ _)
  · exact State.beside_putWord rfl _ _
  · exact State.beside_putWord rfl _ _
  · exact State.beside_putWord rfl _ _
  · have hptr : s.Beside { s with ptrBank := v % 2, ptrGen := v / 2 ^ 32 } := .of_fields
    exact (hptr.thenWr F.SYS_IMAGE_PTR_LO_BANK 0 v).thenWr F.SYS_IMAGE_PTR_HI_GEN 0 (v / 2 ^ 32)

theorem State.beside_tvWrite (word : Nat) : s.Beside (s.tvWrite word) :=
  ((State.beside_setMark ..).trans ((State.beside_setMark ..).trans (State.beside_setMark ..))).trans (State.beside_writeMark ..)

theorem State.beside_tvCopy (s0 : State) (word c w : Nat) : s.Beside (s.tvCopy s0 word c w).1 := by
  unfold State.tvCopy
  dsimp only
  split
  · split
    · exact State.beside_correction ..
    · exact State.beside_miscorrection ..
    · exact .ite (.refl s) (State.beside_setMark ..)
  · dsimp only
    exact (((State.beside_setMark ..).thenBump F.MEMP_REG_CNT_CORRECTED 10 1).trans (State.beside_memLog _)).trans (State.beside_perf ..)

/-- A vote works beside the lanes, up to the safe value it may apply. -/
theorem State.tvVoteL_beside (s : State) (word : Nat) (safe : State → State) :
    s.Beside (s.tvVoteL word safe).1 ∨ ∃ u, s.Beside u ∧ (s.tvVoteL word safe).1 = safe u := by
  have hread : s.Beside ((s.tvRaw word).trackRead 10 word) := (State.beside_rawCapture ..).trans (State.beside_trackRead ..)
  unfold State.tvVoteL
  dsimp only
  split
  · have hstored (w : Nat) : s.Beside (if w = ((s.tvRaw word).trackRead 10 word).tvValue word then (s.tvRaw word).trackRead 10 word
        else ((s.tvRaw word).trackRead 10 word).tvStore word w) := hread.trans (.ite (.refl _) (State.beside_tvStore ..))
    refine .inl ((hstored _).trans (State.Beside.foldlFst (fun a c => ?_) _ (_, [])))
    exact State.beside_tvCopy ..
  · exact .inr ⟨_, ((hread.thenBump F.MEMP_REG_CNT_UNCORRECTABLE 10 1).trans (State.beside_memLog _)).trans (State.beside_perf ..), rfl⟩

/-! ### Data paths (R454 to R456) -/

theorem State.beside_sliceIncomplete (result steps : Nat) : s.Beside (s.sliceIncomplete result steps) := by
  have h : s.Beside { s with sliceRegion := none } := .of_fields
  exact (((h.thenPut ..).thenWr ..).thenPut ..).thenWr ..

theorem State.beside_kilnAborted (n : Nat) : s.Beside (s.kilnAborted n) := by
  unfold State.kilnAborted
  dsimp only
  have h := ((State.Beside.refl s).thenWr F.KILN_REG_ABORTS n (min 8 (s.rd F.KILN_REG_ABORTS n + 1))).trans
    (u := { s.wr F.KILN_REG_ABORTS n (min 8 (s.rd F.KILN_REG_ABORTS n + 1)) with kilnWait := (s.kilnWait.filter fun e => e.1 ≠ n) ++ [(n, s.time)] }) .of_fields
  refine .ite ?_ h
  exact (((h.thenPut ..).thenBump ..).thenEvent ..).trans (.foldl (fun t b => State.beside_irq _) _)

theorem State.beside_sliceRedirect (l : List Nat) : s.Beside { s with sliceRedirect := l } := .of_fields

theorem State.beside_sliceAbort (n steps : Nat) : s.Beside (s.sliceAbort n steps) :=
  ((State.beside_sliceIncomplete 3 steps).trans (State.beside_sliceRedirect _)).trans (State.beside_kilnAborted n)

theorem State.beside_trafficAt (l : List (Nat × Nat)) : s.Beside { s with trafficAt := l } := .of_fields

theorem State.beside_dataPath (n : Nat) : s.Beside (s.dataPath n) :=
  .ite (((State.beside_trafficAt _).trans State.beside_drawn).trans (State.beside_sliceAbort n _)) (State.beside_trafficAt _)

end Sys2Proof.Machine
end

section
/-!
PROOFS. What error lines and resets leave of a lane (R139, R433 to R441, R518, R519): it stays as it is, or it is down.
-/

namespace Sys2Proof.Machine

set_option Elab.async false

variable {s t u : State} {n : Nat}

/-! ### What stays of a lane -/

/-- The registers that show the state of a lane, of its receiver and of its transmitter. -/
def laneStatusReg (r : Reg) : Bool := r == .LANE_STATE || r == .LANE_RX_STATUS || r == .LANE_TX_STATUS

theorem laneReg_of_laneStatusReg {r : Reg} (h : laneStatusReg r = true) : laneReg r = true := by
  simp only [laneStatusReg, Bool.or_eq_true, beq_iff_eq, or_assoc] at h
  rcases h with rfl | rfl | rfl <;> rfl

/-- Lane `n` shows the same state, and its receive path holds the same. -/
structure State.LaneSame (s : State) (n : Nat) (t : State) : Prop where
  rd : ∀ g, laneStatusReg g.reg = true → t.rd g n = s.rd g n
  rx : (t.lane n).rx = (s.lane n).rx

/-- What a reset leaves of lane `n`: Cold or on its way there, with nothing in its receive path and no source of symbols. -/
structure State.LaneDown (t : State) (n : Nat) : Prop where
  req : t.rd F.LANE_STATE_REQ n = 0
  cold : t.rd F.LANE_STATE_CUR n = 0 ∨ t.on F.LANE_STATE_CHANGING n = true
  frozen : t.on F.LANE_RX_STATUS_FROZEN n = true
  cause : t.rd F.LANE_RX_STATUS_FREEZE_CAUSE n = 4
  source : t.rd F.LANE_TX_STATUS_SOURCE n = 0
  driving : t.on F.LANE_TX_STATUS_DRIVING n = false
  rx : (t.lane n).rx = RxS.init

/-- Lane `n` is left as it stands, or a reset has met it. -/
def State.LaneKept (s : State) (n : Nat) (t : State) : Prop := s.LaneSame n t ∨ t.LaneDown n

theorem State.LaneSame.refl (s : State) (n : Nat) : s.LaneSame n s := ⟨fun _ _ => rfl, rfl⟩

theorem State.LaneSame.trans (h : s.LaneSame n t) (k : t.LaneSame n u) : s.LaneSame n u :=
  ⟨fun g hg => (k.rd g hg).trans (h.rd g hg), k.rx.trans h.rx⟩

theorem State.LaneSame.on (h : s.LaneSame n t) {g : Fld} (hg : laneStatusReg g.reg = true) : t.on g n = s.on g n :=
  congrArg (fun v => decide (v ≠ 0)) (h.rd g hg)

theorem State.LaneDown.same (h : s.LaneDown n) (k : s.LaneSame n t) : t.LaneDown n where
  req := (k.rd _ rfl).trans h.req
  cold := h.cold.imp (k.rd _ rfl).trans (k.on rfl).trans
  frozen := (k.on rfl).trans h.frozen
  cause := (k.rd _ rfl).trans h.cause
  source := (k.rd _ rfl).trans h.source
  driving := (k.on rfl).trans h.driving
  rx := k.rx.trans h.rx

theorem State.LaneKept.refl (s : State) (n : Nat) : s.LaneKept n s := .inl (.refl s n)

theorem State.LaneKept.trans (h : s.LaneKept n t) (k : t.LaneKept n u) : s.LaneKept n u := by
  rcases h with h | h
  · exact k.imp_left h.trans
  · exact .inr (k.elim h.same id)

theorem State.LaneKept.ite {c : Prop} {_ : Decidable c} (h : s.LaneKept n t) (k : s.LaneKept n u) : s.LaneKept n (if c then t else u) := by
  split
  · exact h
  · exact k

theorem State.LaneKept.foldl {α : Type} {f : State → α → State} (hf : ∀ (t : State) x, t.LaneKept n (f t x)) (l : List α) (s : State) :
    s.LaneKept n (l.foldl f s) :=
  List.foldlRecOn (motive := fun t => s.LaneKept n t) l f (.refl s n) fun t h x _ => h.trans (hf t x)

/-- A pass in which every step keeps the lane and gathers something. -/
theorem State.LaneKept.foldlFst {α β : Type} {f : State × β → α → State × β} (hf : ∀ (a : State × β) x, a.1.LaneKept n (f a x).1) (l : List α)
    (a : State × β) : a.1.LaneKept n (l.foldl f a).1 :=
  List.foldlRecOn (motive := fun c => a.1.LaneKept n c.1) l f (.refl a.1 n) fun c h x _ => h.trans (hf c x)

theorem State.LaneKept.unlessReset (h : s.LaneKept n t) {f : State → State} (hf : ∀ u : State, u.LaneKept n (f u)) : s.LaneKept n (s.unlessReset t f) :=
  .ite (h.trans (hf t)) h

theorem State.Beside.laneSame (h : s.Beside t) (n : Nat) : s.LaneSame n t :=
  ⟨fun g hg => h.rd g n (laneReg_of_laneStatusReg hg), by rw [State.lane, State.lane, h.lanes]⟩

theorem State.Beside.kept (h : s.Beside t) {n : Nat} : s.LaneKept n t := .inl (h.laneSame n)

theorem State.LaneKept.beside (h : s.LaneKept n t) (k : t.Beside u) : s.LaneKept n u := h.trans k.kept

/-- A write of a register that shows no lane's state. -/
theorem State.LaneSame.wr {f : Fld} (hf : laneStatusReg f.reg = false) (i v : Nat) : s.LaneSame n (s.wr f i v) :=
  ⟨fun _ hg => State.rd_wr_ne _ _ (Fld.key_ne_reg fun e => by rw [e, hf] at hg; cases hg), rfl⟩

/-- A change of a lane's record that leaves its receive path. -/
theorem State.LaneSame.laneMod {m : Nat} {f : LaneS → LaneS} (hf : (f (s.lane m)).rx = (s.lane m).rx) : s.LaneSame n (s.laneMod m f) := by
  refine ⟨fun _ _ => rfl, ?_⟩
  rw [State.laneMod_eq]
  rcases eq_or_ne n m with rfl | h
  · rw [State.lane_setLane_self, hf]
  · rw [State.lane_setLane_ne _ _ h]

theorem State.LaneSame.setLane_ne {m : Nat} (l : LaneS) (h : n ≠ m) : s.LaneSame n (s.setLane m l) := ⟨fun _ _ => rfl, congrArg LaneS.rx (State.lane_setLane_ne s l h)⟩

theorem State.LaneSame.setLane {m : Nat} {l : LaneS} (h : l.rx = (s.lane m).rx) : s.LaneSame n (s.setLane m l) := by
  refine ⟨fun _ _ => rfl, ?_⟩
  rcases eq_or_ne n m with rfl | h'
  · rw [State.lane_setLane_self, h]
  · rw [State.lane_setLane_ne _ _ h']

/-! ### Reset -/

theorem keptField_of_laneStatusReg {g : Fld} (h : laneStatusReg g.reg = true) (j : Nat) : keptField (g.key j) = false := by
  obtain ⟨r, lo, w, acc, rst⟩ := g
  simp only [laneStatusReg, Bool.or_eq_true, beq_iff_eq, or_assoc] at h
  rcases h with rfl | rfl | rfl <;> rfl

theorem State.cleared_laneDown (s : State) (n : Nat) : s.cleared.LaneDown n := by
  have hrd (g : Fld) (hg : laneStatusReg g.reg = true) : s.cleared.rd g n = g.reset n := State.rd_cleared (keptField_of_laneStatusReg hg n)
  have hon (g : Fld) (hg : laneStatusReg g.reg = true) : s.cleared.on g n = decide (g.reset n ≠ 0) := congrArg (fun v => decide (v ≠ 0)) (hrd g hg)
  exact ⟨hrd _ rfl, .inl (hrd _ rfl), hon _ rfl, hrd _ rfl, hrd _ rfl, hon _ rfl, rfl⟩

theorem State.LaneDown.beside (h : s.LaneDown n) (k : s.Beside t) : t.LaneDown n := h.same (k.laneSame n)

/-! ### What raising a source does beside the lanes (R434 to R441) -/

theorem State.beside_latch (src inst cause : Nat) : s.Beside (s.latch src inst cause) := by
  have hchar : laneReg (charFld src).reg = false := by
    unfold charFld
    split <;> rfl
  unfold State.latch
  dsimp only
  exact (((((State.Beside.refl s).thenWr _ _ _ hchar).thenWr F.FAULT_DETAIL_TIME _ _).thenWr F.FAULT_DETAIL_CAUSE _ _).thenWr
    F.FAULT_DETAIL_INSTANCE _ _).trans .of_fields

theorem State.beside_peatTakeWord (word : Nat) : s.Beside (s.peatTakeWord word).1 := by
  have hread : s.Beside (s.spanWord 9 word none).1 := State.beside_spanWord ..
  unfold State.peatTakeWord
  dsimp only
  split
  · exact (hread.thenBump F.PEAT_STATUS_UE_COUNT 0 1).trans (State.beside_journalAdd ..)
  · exact hread

theorem State.beside_peatTake (first count : Nat) : s.Beside (s.peatTake first count).1 :=
  State.Beside.foldlFst (fun a w => by exact State.beside_peatTakeWord (s := a.1) w) _ (s, false, [])

theorem State.beside_takeEpoch : s.Beside s.takeEpoch.1 := by
  have hread : s.Beside (s.peatTake (peatEpochWord / 8) 1).1 := State.beside_peatTake ..
  unfold State.takeEpoch
  dsimp only
  split
  · exact (hread.trans State.beside_drawn).thenWr F.SYS_EPOCH_VALUE _ _
  · exact (hread.trans .of_fields).thenWr F.SYS_EPOCH_VALUE _ _

theorem State.beside_released (cause : Nat) : s.Beside (s.released cause) := by
  have hcause : s.Beside (s.wr F.SYS_RESET_CAUSE_CAUSE 0 cause) := (State.Beside.refl s).thenWr _ _ _
  have hcount : s.Beside (if cause = 0 then s.wr F.SYS_RESET_CAUSE_CAUSE 0 cause else (s.wr F.SYS_RESET_CAUSE_CAUSE 0 cause).bump F.SYS_RESET_CAUSE_COUNT 0 1) :=
    .ite hcause (hcause.thenBump ..)
  unfold State.released
  dsimp only
  refine .trans (.trans (.trans (.trans ?_ State.beside_takeEpoch) (.foldl (fun t e => .ite (.refl t) (State.beside_latch ..)) _))
    (.ite (State.beside_irq _) (.refl _))) (State.beside_journalAdd ..)
  exact ((State.Beside.ite (hcount.thenWr F.THERM_STATUS_STATE 0 5) hcount).thenWr F.SYS_IMAGE_PTR_LO_BANK _ _).thenWr F.SYS_IMAGE_PTR_HI_GEN _ _

theorem State.beside_aliveStop (cause : Nat) : s.Beside (s.aliveStop cause) := by
  have hstop : s.Beside ((s.put F.FAULT_ALIVE_RUNNING 0 false).wr F.FAULT_ALIVE_CAUSE 0 cause) := ((State.Beside.refl s).thenPut ..).thenWr ..
  exact .ite (hstop.trans .of_fields) (.refl s)

theorem State.beside_nmtArrive (b src : Nat) : s.Beside (s.nmtArrive b src) := .ite .of_fields .of_fields

theorem State.beside_reactFirst (up : Bool) (src word : Nat) : s.Beside (s.reactFirst up src word) := by
  have hirq : s.Beside (if word.testBit 0 && !up then s.irq 475 else s) := .ite (State.beside_irq _) (.refl s)
  exact .ite (.ite (hirq.trans (State.beside_aliveStop _)) (hirq.trans (State.beside_nmtArrive ..))) hirq

theorem State.beside_reactSafe (src : Nat) : s.Beside (s.reactSafe src) := by
  have hput := ((((State.Beside.refl s).thenPut F.FAULT_REACT_IRQ src false).thenPut F.FAULT_REACT_NMT src false).thenPut
    F.FAULT_REACT_BLOCK_RESET src false).thenPut F.FAULT_REACT_ALIVE_STOP src true
  exact ((hput.thenPut F.FAULT_REACT_CHIP_RESET src false).thenWr F.FAULT_REACT_NMT_BANK src 0).trans (.foldl (fun t c => State.beside_setMark ..) _)

theorem State.beside_reactVote (src : Nat) : s.Beside (s.reactVote src).1 := by
  rcases s.tvVoteL_beside (tvReact src) fun t => t.reactSafe src with h | ⟨u, h, he⟩
  · exact h
  · rw [State.reactVote, he]
    exact h.trans (State.beside_reactSafe src)

/-! ### What a block reset does beside the lanes (R519) -/

theorem State.beside_sliceStopped (regions : List Nat) : s.Beside (s.sliceStopped regions) := by
  unfold State.sliceStopped
  split
  · exact .ite (State.beside_drawn.trans (State.beside_sliceIncomplete ..)) (.refl s)
  · exact .refl s

theorem State.beside_deliver (b tag : Nat) (st : Status) (v : Nat) : s.Beside (s.deliver b tag st v) := by
  have hlate : s.Beside (if st = .aborted then s else (s.bump F.STK_TAGS_LATE b 1).irq (32 * b + 17)) :=
    .ite (.refl s) (((State.Beside.refl s).thenBump F.STK_TAGS_LATE b 1).trans (State.beside_irq _))
  have hfail : s.Beside (if st = .ok then s else s.perfBank 2 b 1) := .ite (.refl s) (State.beside_perf ..)
  unfold State.deliver
  dsimp only
  split
  · exact .refl s
  · split
    · exact .ite (hlate.trans .of_fields) (hlate.trans .of_fields)
    · exact hfail.trans .of_fields

theorem State.beside_abortBank (p : Nat → Bool) (b : Nat) : s.Beside (s.abortBank p b) := by
  refine .foldl (fun t c => .ite ?_ (.refl t)) _
  split
  · exact State.beside_deliver ..
  · exact State.beside_deliver ..
  · exact .refl t

theorem State.beside_abortCmds (p : Nat → Bool) : s.Beside (s.abortCmds p) := .foldl (fun _ b => State.beside_abortBank p b) _

theorem State.beside_tunReset : s.Beside s.tunReset := .foldl (fun _ _ => .of_fields) _

theorem State.beside_mergeStatus (k : Nat) : s.Beside (s.mergeStatus k) := ((State.Beside.refl s).thenWr ..).thenPut ..

theorem State.beside_setProt (k : Nat) (x : ProtT) : s.Beside (s.setProt k x) := .of_fields

theorem State.beside_protReset : s.Beside s.protReset := by
  unfold State.protReset
  dsimp only
  refine .trans (.trans ?_ (.foldl (fun t k => (State.beside_setProt ..).trans (State.beside_mergeStatus k)) _)) State.beside_protUpdate
  exact .of_fields

theorem State.beside_portReset (p : Nat) : s.Beside (s.portReset p) := by
  have hlocks : s.Beside ((s.portLanes p).foldl (fun t n => t.setLock n LockS.init) s) := .foldl (fun _ _ => .of_fields) _
  exact (hlocks.trans .of_fields).trans State.beside_protUpdate

/-! ### Converters -/

theorem State.beside_setConv (c : Nat) (x : Conv) : s.Beside (s.setConv c x) := .of_fields

theorem State.beside_seqStart (c : Nat) (group : List Nat) : s.Beside (s.seqStart c group) := by
  refine .trans (.trans ((State.Beside.refl s).thenWr F.MCV_STATUS_ENTRY c 0) (.foldl (fun t k => ?_) _)) (State.beside_setConv ..)
  refine .wr ?_ _ _
  unfold resReady resFld
  split <;> rfl

theorem State.beside_convTrigger (c : Nat) : s.Beside (s.convTrigger c) :=
  .ite (State.beside_setConv ..) (.ite ((State.Beside.refl s).thenBump ..) (State.beside_seqStart ..))

theorem State.beside_capResume (c : Nat) : s.Beside (s.capResume c) := by
  have hset : s.Beside (s.setConv c { s.conv c with held := false, missed := [], last := (s.conv c).missed.getLast?.or (s.conv c).last }) := State.beside_setConv ..
  exact .ite (hset.trans (State.beside_convTrigger c)) hset

theorem State.beside_refSettle (p : Nat) : s.Beside (s.refSettle p) := .ite (.refl s) (((State.Beside.refl s).thenPut ..).thenPut ..)

theorem State.beside_setCap (p : Nat) (x : CapS) : s.Beside (s.setCap p x) := .of_fields

theorem State.beside_capAbandon (p : Nat) : s.Beside (s.capAbandon p) := by
  refine .ite ?_ (.refl s)
  unfold State.capEnd
  refine .trans ?_ (State.beside_refSettle p)
  have hcap (t : State) : t.Beside ((((t.setCap p CapS.init).capResume (2 * p))).capResume (2 * p + 1)) :=
    ((State.beside_setCap ..).trans (State.beside_capResume _)).trans (State.beside_capResume _)
  refine .trans ?_ (.trans (hcap _) (.ite (State.beside_irq _) (.refl _)))
  exact (((State.Beside.refl s).thenPut ..).thenPut ..).thenPut ..

/-! ### Locks and ports -/

theorem State.beside_setBit {f : Fld} (hf : laneReg f.reg = false) (i k : Nat) (b : Bool) : s.Beside (s.setBit f i k b) := .ite (.refl s) (.wr hf ..)

theorem State.beside_mapJudge (p : Nat) : s.Beside (s.mapJudge p) := by
  unfold State.mapJudge
  dsimp only
  have hmap : s.Beside ((s.portLanes p).foldl (fun t m => t.wr (logicalFld (t.laneIndex m)) p (if (t.lockOf m).lock = .locked then (t.lockOf m).logical else 0)) s) :=
    .foldl (fun t m => .wr rfl _ _) _
  exact ((hmap.thenPut ..).thenPut ..).trans (State.beside_eventIf ..)

/-- A lane that leaves its lock shows the same state; its polarity alone may be asked for anew. -/
theorem State.laneSame_lockLeave (m : Nat) (lk : Lock) : s.LaneSame n (s.lockLeave m lk) := by
  have hlock (x : LockS) : s.Beside (s.setLock m x) := .of_fields
  have hbits (t : State) (x : PortS) (p l : Nat) : t.Beside ((t.setBit F.PORT_STATUS_LOCKED p l false).setPort p x) :=
    (State.beside_setBit rfl ..).trans .of_fields
  have hpol (t : State) (c : Bool) (p l : Nat) : t.Beside ((t.setBit F.PORT_POL_INV p l false).eventIf c F.PORT_EVENT_POL p) :=
    (State.beside_setBit rfl ..).trans (State.beside_eventIf ..)
  unfold State.lockLeave
  dsimp only
  split
  · exact ((((hlock _).trans (hbits ..)).trans (hpol ..)).laneSame n).trans ((State.LaneSame.setLane (by rfl)).trans ((State.beside_mapJudge _).laneSame n))
  · exact (hlock _).laneSame n

/-! ### Block resets (R519) -/

theorem State.LaneSame.wr_ne {m : Nat} (h : n ≠ m) (f : Fld) (v : Nat) : s.LaneSame n (s.wr f m v) :=
  ⟨fun _ _ => State.rd_wr_ne _ _ (Fld.key_ne_inst h), rfl⟩

theorem State.laneSame_laneReset_ne (old : State) {m : Nat} (h : n ≠ m) : s.LaneSame n (s.laneReset old m) := by
  unfold State.laneReset
  dsimp only
  refine .trans (.trans (.trans (.trans ?_ (.trans (.wr_ne h ..) (.trans (.wr_ne h ..) (.wr_ne h ..)))) (.trans (.wr_ne h ..) (.wr_ne h ..)))
    (State.laneSame_lockLeave ..)) ((State.beside_portUpdate _).laneSame n)
  exact State.LaneSame.setLane_ne _ h

/-- A lane at its reset values whose state is put back is Cold or on its way there. -/
theorem State.laneDown_of_reset (hrd : ∀ g, laneStatusReg g.reg = true → s.rd g n = g.reset n) (hrx : (s.lane n).rx = RxS.init) (cur : Nat) :
    ((s.wr F.LANE_STATE_CUR n cur).put F.LANE_STATE_CHANGING n (decide (cur ≠ 0))).LaneDown n := by
  have hother (g : Fld) (hg : laneStatusReg g.reg = true) (h : g.reg ≠ .LANE_STATE ∨ g.lo = 0) :
      ((s.wr F.LANE_STATE_CUR n cur).put F.LANE_STATE_CHANGING n (decide (cur ≠ 0))).rd g n = g.reset n := by
    have hkey {f : Fld} (hf : f.reg = .LANE_STATE) (hlo : f.lo ≠ 0) : g.key n ≠ f.key n :=
      h.elim (fun h => Fld.key_ne_reg (hf ▸ h)) fun h => Fld.key_ne_lo (h ▸ hlo.symm)
    rw [State.put, State.rd_wr_ne _ _ (hkey rfl (by decide)), State.rd_wr_ne _ _ (hkey rfl (by decide)), hrd g hg]
  have hoff (g : Fld) (hg : laneStatusReg g.reg = true) (h : g.reg ≠ .LANE_STATE ∨ g.lo = 0) :
      ((s.wr F.LANE_STATE_CUR n cur).put F.LANE_STATE_CHANGING n (decide (cur ≠ 0))).on g n = decide (g.reset n ≠ 0) :=
    congrArg (fun v => decide (v ≠ 0)) (hother g hg h)
  refine ⟨hother _ rfl (.inr rfl), ?_, hoff _ rfl (.inl (by decide)), hother _ rfl (.inl (by decide)), hother _ rfl (.inl (by decide)),
    hoff _ rfl (.inl (by decide)), hrx⟩
  rcases eq_or_ne cur 0 with rfl | h
  · exact .inl (by rw [State.put, State.rd_wr_ne _ _ (Fld.key_ne_lo (by decide)), State.rd_wr_self]; rfl)
  · exact .inr (by rw [State.on_put_self _ _ _ rfl, decide_eq_true h])

theorem State.laneDown_laneReset (old : State) (hreset : ∀ g, laneStatusReg g.reg = true → s.rd g n = g.reset n) : (s.laneReset old n).LaneDown n := by
  have hkept (t : State) (c k : Nat) (b : Bool) : t.LaneSame n (((t.wr F.LANE_SEASON_STATUS_SPARE_POS n c).wr F.LANE_SEASON_STATUS_FAIL_SLICE n k).put
      F.LANE_SEASON_STATUS_NO_SPARE n b) := .trans (.wr rfl ..) (.trans (.wr rfl ..) (.wr rfl ..))
  refine .beside (.same (State.laneDown_of_reset ?_ ?_ _) (State.laneSame_lockLeave ..)) (State.beside_portUpdate _)
  · exact fun g hg => ((hkept _ _ _ _).rd g hg).trans (hreset g hg)
  · exact ((hkept _ _ _ _).rx).trans (congrArg LaneS.rx (State.lane_setLane_self ..))

theorem info_of_laneStatusReg {r : Reg} (h : laneStatusReg r = true) : r.info.unit = .lane ∧ r.info.innerCount = 1 := by
  simp only [laneStatusReg, Bool.or_eq_true, beq_iff_eq, or_assoc] at h
  rcases h with rfl | rfl | rfl <;> exact ⟨rfl, rfl⟩

/-- A block reset of a lane resets what that lane shows, and of no other lane. -/
theorem inBlock_lane {r : Reg} (h : laneStatusReg r = true) {src : Nat} (hsrc : src ≤ 5) (inst i : Nat) : inBlock src inst r i = decide (i = 8 * src + inst) := by
  obtain ⟨hunit, hcount⟩ := info_of_laneStatusReg h
  have hin : inBlock src inst r i = (decide (r.info.unit = .lane) && decide (i / r.info.innerCount = 8 * src + inst)) := if_pos hsrc
  rw [hin, hunit, hcount, Nat.div_one, decide_eq_true rfl, Bool.true_and]

/-- A block reset of another block than those of the lanes leaves what a lane shows. -/
theorem inBlock_of_laneStatusReg {r : Reg} (h : laneStatusReg r = true) {src : Nat} (hsrc : ¬ src ≤ 5) (inst i : Nat) : inBlock src inst r i = false := by
  simp only [laneStatusReg, Bool.or_eq_true, beq_iff_eq, or_assoc] at h
  have hout (c : Bool) : (if src ≤ 5 then c else if src ≤ 11 then false else if src = 12 then false else if src = 16 then false else
      if src = 33 then false else if src = 42 then false else if src = 43 then false else false) = false := by
    rw [if_neg hsrc]
    simp only [ite_self]
  rcases h with rfl | rfl | rfl <;> exact hout _

theorem critical_of_laneStatusReg {r : Reg} (h : laneStatusReg r = true) : critical r = false := by
  simp only [laneStatusReg, Bool.or_eq_true, beq_iff_eq, or_assoc] at h
  rcases h with rfl | rfl | rfl <;> rfl

theorem State.laneSame_resetRegs {src inst : Nat} (h : src ≤ 5 → n ≠ 8 * src + inst) : s.LaneSame n (s.resetRegs (inBlock src inst)) := by
  refine ⟨fun g hg => ?_, rfl⟩
  rw [State.rd_resetRegs]
  by_cases hsrc : src ≤ 5
  · simp [inBlock_lane hg hsrc, h hsrc]
  · simp [inBlock_of_laneStatusReg hg hsrc]

theorem State.beside_unwrite (region : Nat) : s.Beside (s.unwrite region) := .of_fields

theorem State.beside_blockUnit (old : State) {src : Nat} (hsrc : ¬ src ≤ 5) (inst : Nat) : s.Beside (s.blockUnit old src inst) := by
  rw [State.blockUnit, if_neg hsrc]
  refine .ite (State.beside_portReset _) (.ite ?_ (.ite ?_ (.ite ?_ (.ite ?_ (.ite .of_fields (.refl s))))))
  · exact State.beside_tunReset.trans (State.beside_unwrite 3)
  · exact (State.beside_protReset.trans (State.beside_unwrite 2)).trans (State.beside_unwrite 4)
  · have hfields (t : State) (h : s.Beside t) : s.Beside (if old.rd F.TINDER_STATUS_STATE 0 = 0 then t else t.irq 486) := .ite h (h.trans (State.beside_irq _))
    exact hfields _ .of_fields
  · exact (((State.beside_setConv inst Conv.init).thenPut F.MCV_STATUS_REF_ON ..)).trans (State.beside_capAbandon _)

theorem State.kept_blockReset (src inst : Nat) : s.LaneKept n (s.blockReset src inst) := by
  have hbefore : s.Beside ((s.sliceStopped (resetRegions src inst)).abortCmds (addrInBlock src inst)) := (State.beside_sliceStopped _).trans (State.beside_abortCmds _)
  have hnoted (t u : State) (l : List (Nat × Nat)) (h : t.LaneKept n u) : t.LaneKept n { u with blockResets := l } :=
    h.imp (fun k => ⟨k.rd, k.rx⟩) fun k => ⟨k.req, k.cold, k.frozen, k.cause, k.source, k.driving, k.rx⟩
  refine hbefore.kept.trans (hnoted _ _ _ ?_)
  generalize (s.sliceStopped _).abortCmds _ = t
  by_cases hsrc : src ≤ 5
  · rw [State.blockUnit, if_pos hsrc]
    by_cases hn : n = 8 * src + inst
    · subst hn
      refine .inr (State.laneDown_laneReset s fun g hg => ?_)
      rw [State.rd_resetRegs, inBlock_lane hg hsrc, critical_of_laneStatusReg hg]
      exact if_pos (by simp)
    · exact .inl ((State.laneSame_resetRegs fun _ => hn).trans (State.laneSame_laneReset_ne s hn))
  · exact .trans (.inl (State.laneSame_resetRegs fun h => absurd h hsrc)) (State.beside_blockUnit s hsrc inst).kept

/-! ### Error lines (R434 to R441) -/

theorem State.kept_reactReset (src i : Nat) : s.LaneKept n (s.reactReset src i) := by
  unfold State.reactReset
  split
  · have hnoted (t : State) (l : List (Nat × Nat)) : t.LaneKept n { t with reactResets := l } := .inl ⟨fun _ _ => rfl, rfl⟩
    exact (State.kept_blockReset ..).trans (hnoted ..)
  · exact .refl s n

theorem State.kept_sourceRise (won : Bool) (src : Nat) (insts : List Nat) (inst cause : Nat) : s.LaneKept n (s.sourceRise won src insts inst cause).1 := by
  have hperf : s.Beside (s.perf (0x200 + src) insts.length) := State.beside_perf ..
  unfold State.sourceRise
  dsimp only
  split
  · exact hperf.kept
  · have hreact (up : Bool) (word : Nat) := (hperf.trans (State.beside_reactVote src)).trans ((State.beside_latch src inst cause).trans (State.beside_reactFirst up src word))
    have hresets (t : State) (c : Bool) : t.LaneKept n (if c then insts.foldl (fun t i => t.reactReset src i) t else t) :=
      .ite (.foldl (fun t i => State.kept_reactReset src i) _ _) (.refl _ n)
    have hstop (t : State) (c : Bool) : t.LaneKept n (if c then t.aliveStop src else t) := .ite (State.beside_aliveStop _).kept (.refl _ n)
    exact ((hreact ..).kept.trans (hresets ..)).trans (hstop ..)

theorem State.kept_raiseAll (fuel : Nat) (won : List Nat) (asked : Option Nat) (lines : List Line) : s.LaneKept n (State.raiseAll fuel s won asked lines).1 := by
  induction fuel generalizing s won asked lines with
  | zero => exact .refl s n
  | succ fuel ih =>
    unfold State.raiseAll
    split
    · exact .refl s n
    · split
      · exact .refl s n
      · exact (State.kept_sourceRise ..).trans (ih ..)

theorem State.resetFor_laneDown (s : State) (cause n : Nat) : (s.resetFor cause).LaneDown n := by
  have hcleared (t : State) (h : s.cleared.LaneSame n t) : t.LaneDown n := (s.cleared_laneDown n).same h
  unfold State.resetFor
  split
  · have hbare : State.LaneDown { s.cleared with cutArmed := false, resets := s.resets + 1 } n := hcleared _ ⟨fun _ _ => rfl, rfl⟩
    exact hbare.beside (State.beside_released cause)
  · exact hcleared _ ⟨fun _ _ => rfl, rfl⟩

theorem State.kept_errorLines (lines : List Line) : s.LaneKept n (s.errorLines lines) := by
  unfold State.errorLines State.errorLinesWon
  dsimp only
  split
  · exact .inr ((State.resetFor_laneDown _ 2 n).beside ((((State.Beside.refl _).thenPut ..).thenBump ..).thenWr ..))
  · exact State.kept_raiseAll ..

end Sys2Proof.Machine
end

section
/-!
PROOFS. The merges leave what every lane shows, or a reset has met the lane (R311 to R325).
-/

namespace Sys2Proof.Machine

set_option Elab.async false

variable {s t u : State} {n : Nat}

/-- A step made or not. -/
theorem State.LaneKept.thenIf (h : s.LaneKept n t) {c : Prop} {_ : Decidable c} {f : State → State} (hf : ∀ u : State, u.LaneKept n (f u)) :
    s.LaneKept n (if c then f t else t) := .ite (h.trans (hf t)) h

theorem State.LaneKept.thenIfNot (h : s.LaneKept n t) {c : Prop} {_ : Decidable c} {f : State → State} (hf : ∀ u : State, u.LaneKept n (f u)) :
    s.LaneKept n (if c then t else f t) := .ite h (h.trans (hf t))

/-! ### Words and keys -/

theorem State.kept_spanTake (region first count : Nat) : s.LaneKept n (s.spanTake region first count).1 :=
  (State.beside_spanRead ..).kept.trans (State.kept_errorLines _)

/-- A vote that applies a safe value keeps the lane where the safe value does. -/
theorem State.kept_tvVote (word : Nat) {safe : State → State} (hsafe : ∀ u : State, u.LaneKept n (safe u)) : s.LaneKept n (s.tvVote word safe) := by
  refine .trans ?_ (State.kept_errorLines _)
  rcases s.tvVoteL_beside word safe with h | ⟨u, h, he⟩
  · exact h.kept
  · rw [he]
    exact h.kept.trans (hsafe u)

theorem State.beside_setDesc (k tunnel dir phase st : Nat) : s.Beside (s.setDesc k tunnel dir phase st) :=
  (((((State.Beside.refl s).thenWr ..).thenWr ..).thenWr ..).thenWr ..).trans (State.beside_tvWrite _)

theorem State.beside_slotWrote (k : Nat) : s.Beside (s.slotWrote k) := State.beside_spanWrite ..

theorem State.beside_slotUse (l : List (Nat × Nat)) : s.Beside { s with slotUse := l } := .of_fields

theorem State.beside_slotWipe (k : Nat) : s.Beside (s.slotWipe k) := by
  have hclear : s.Beside (s.clearMem .keySlot fun i => i / 16 = k) := .of_fields
  exact ((hclear.trans (State.beside_slotWrote k)).trans (State.beside_setDesc ..)).trans (State.beside_slotUse _)

theorem State.beside_slotRead (k : Nat) : s.Beside (s.slotRead k).1 := by
  unfold State.slotRead
  refine State.Beside.foldlFst (fun a w => ?_) _ (s, false, [])
  dsimp only
  split
  · exact (State.beside_memReadL ..).trans (.of_fields)
  · exact State.beside_memReadL ..

/-! ### Held billets -/

theorem State.kept_clinkerRead (c l : Nat) : s.LaneKept n (s.clinkerRead c l) := by
  have hread : s.LaneKept n (s.spanTake 5 (clinkerWord c l) 1).1 := State.kept_spanTake ..
  exact .ite (hread.beside (State.beside_spanWrite ..)) hread

theorem State.kept_cachePut (c l : Nat) : s.LaneKept n (s.cachePut c l) := (State.kept_clinkerRead ..).beside (State.beside_spanWrite ..)

theorem State.beside_setHc (c : Nat) (x : HCh) : s.Beside (s.setHc c x) := .of_fields

theorem State.kept_freeBilletOf (unread : Bool) (b : Nat × Nat) : s.LaneKept n (s.freeBilletOf unread b) := by
  have hcount (t u : State) (h : t.Beside u) (c : Bool) (f : Fld) (hf : laneReg f.reg = false) : t.Beside (if c then u.bump f 0 1 else u) :=
    .ite (h.thenBump f 0 1 hf) h
  unfold State.freeBilletOf
  dsimp only
  refine .ite (hcount _ _ (State.beside_setHc ..) _ _ rfl).kept (.ite (hcount _ _ (State.beside_setHc ..) _ _ rfl).kept (.ite ?_ (State.beside_setHc ..).kept))
  exact .unlessReset (State.kept_cachePut ..) fun u => (((State.beside_setHc ..).thenBump ..).thenEvent ..).kept

theorem State.beside_held (l : List Held) : s.Beside { s with held := l } := .of_fields

theorem State.beside_heldOpen (l : List HeldOpen) : s.Beside { s with heldOpen := l } := .of_fields

theorem State.kept_holdRelease (unread : Bool) (p : Held → Bool) : s.LaneKept n (s.holdRelease unread p) := by
  have hfree (t : State) (h : s.Beside t) (l : List (Nat × Nat)) (k : Nat) : s.LaneKept n (t.unlessReset (l.foldl (fun u b => u.freeBilletOf unread b) t) fun u =>
      if unread then u.bump F.HOLD_CNT_LOST_UNUSED_V 0 k else u) :=
    h.kept.trans (.unlessReset (.foldl (fun u b => State.kept_freeBilletOf ..) _ _) fun u => .ite ((State.Beside.refl u).thenBump ..).kept (.refl u n))
  unfold State.holdRelease
  dsimp only
  exact .ite (.refl s n) (hfree _ .of_fields _ _)

/-! ### Tunnels and keys -/

theorem State.beside_setTtx (k : Nat) (x : TunTx) : s.Beside (s.setTtx k x) := .of_fields
theorem State.beside_setTrx (k : Nat) (x : TunRx) : s.Beside (s.setTrx k x) := .of_fields
theorem State.beside_emit (o : Out) : s.Beside (s.emit o) := .of_fields

theorem State.beside_pauseCheck (k : Nat) : s.Beside (s.pauseCheck k) :=
  .ite ((State.beside_setTtx ..).trans (State.beside_emit _)) (.ite ((State.beside_setTtx ..).trans (State.beside_emit _)) (.refl s))

theorem State.beside_txBlock (k : Nat) : s.Beside (s.txBlock k) := by
  have hempty (x : TunTx) : s.Beside ((s.setTtx k x).pauseCheck k) := (State.beside_setTtx ..).trans (State.beside_pauseCheck k)
  unfold State.txBlock
  dsimp only
  exact .ite (hempty _) (((hempty _).thenBump F.TUN_CNT_DROP_BLOCKED_V _ _).trans (State.beside_perfTun ..))

theorem State.kept_rxBlock (k : Nat) : s.LaneKept n (s.rxBlock k) := by
  have hblocked (t : State) (c : Nat) : t.Beside (t.bundlesBlocked k c) := .ite (.refl t) (((State.Beside.refl t).thenBump ..).trans (State.beside_perfTun ..))
  have hdrop (t : State) : t.Beside (t.dropReads k rxKind) := .of_fields
  exact ((((State.beside_setProt ..).trans (hdrop _)).kept).trans (State.kept_holdRelease ..)).beside (hblocked ..)

theorem State.kept_tunState (k : Nat) : s.LaneKept n (s.tunState k) := by
  have htx (t : State) : t.LaneKept n (if t.txStateNow k ≠ 2 && t.rd F.TUN_STATUS_TX_STATE k = 2 then t.txBlock k else t) :=
    .ite (State.beside_txBlock k).kept (.refl t n)
  have hrx (t : State) : t.LaneKept n (if (t.slotOf k 1 2).isNone && !(t.protT k).copies.isEmpty then t.rxBlock k else t) :=
    .ite (State.kept_rxBlock k) (.refl t n)
  have hshow (t : State) (a b c d e : Nat) : t.Beside (((((t.wr F.TUN_STATUS_TX_PHASE k a).wr F.TUN_STATUS_RX_PHASE k b).wr F.TUN_TX_USE_USE k c).trackVal
      F.TUN_STATUS_TX_STATE F.TUN_EVENT_TX_STATE k d).trackVal F.TUN_STATUS_RX_STATE F.TUN_EVENT_RX_STATE k e) :=
    (((((State.Beside.refl t).thenWr ..).thenWr ..).thenWr ..).trans (State.beside_trackVal ..)).trans (State.beside_trackVal ..)
  exact ((htx s).trans (hrx _)).beside (hshow ..)

theorem State.kept_slotZero (k : Nat) : s.LaneKept n (s.slotZero k) := by
  have hwipe : s.LaneKept n (s.slotWipe k) := (State.beside_slotWipe k).kept
  exact .ite (hwipe.trans (State.kept_tunState _)) hwipe

theorem State.kept_slotTake (k : Nat) : s.LaneKept n (s.slotTake k).1 := by
  have hread : s.LaneKept n (s.slotRead k).1 := (State.beside_slotRead k).kept
  unfold State.slotTake
  dsimp only
  split
  · exact (hread.trans (State.kept_slotZero k)).trans (State.kept_errorLines _)
  · exact hread.trans (State.kept_errorLines _)

theorem State.kept_voteKey (k : Nat) : s.LaneKept n (s.voteKey k) := State.kept_tvVote _ fun _ => State.kept_slotZero k

theorem State.kept_voteSlots (k dir : Nat) : s.LaneKept n (s.voteSlots k dir) := .foldl (fun _ j => State.kept_voteKey j) _ s

theorem State.kept_keyUse (t k : Nat) : s.LaneKept n (s.keyUse t k) := by
  unfold State.keyUse
  dsimp only
  have hnear (c : Bool) (l : List (Nat × Nat)) : s.LaneKept n ({ s with slotUse := l }.eventIf c F.TUN_EVENT_KEY_NEAR t) :=
    ((State.beside_slotUse l).trans (State.beside_eventIf ..)).kept
  exact .ite ((hnear ..).trans (State.kept_slotZero k)) ((hnear ..).trans (State.kept_tunState t))

theorem State.kept_keyPromote (k dir : Nat) : s.LaneKept n (s.keyPromote k dir) := by
  have hwipe (t : State) (o : Option Nat) : t.LaneKept n (match o with | some j => t.slotWipe j | none => t) := by
    cases o with
    | some j => exact (State.beside_slotWipe j).kept
    | none => exact .refl t n
  have hnext (t : State) (o : Option Nat) : t.LaneKept n (match o with | some j => t.setDesc j k dir (t.rd F.KEY_DESC_PHASE j) 2 | none => t) := by
    cases o with
    | some j => exact (State.beside_setDesc ..).kept
    | none => exact .refl t n
  exact ((hwipe s _).trans (hnext _ _)).trans (State.kept_tunState k)

/-- A control bundle that tunnel `k` sends. -/
theorem State.kept_sendCtrl (k msg ref : Nat) (fields : List Nat) : s.LaneKept n (s.sendCtrl k msg ref fields) := by
  refine .unlessReset (State.kept_voteSlots k 0) fun u => ?_
  split
  · exact .refl u n
  · have htake (j : Nat) : u.LaneKept n (u.slotTake j).1 := State.kept_slotTake j
    have hsend (j : Nat) (x : TunTx) (p : ProtT) : u.LaneKept n ((((u.slotTake j).1.setTtx k x).setProt k p).keyUse k j) :=
      ((htake j).trans ((State.beside_setTtx ..).trans (State.beside_setProt ..)).kept).trans (State.kept_keyUse ..)
    exact .ite (.refl u n) (.ite (htake _) (hsend _ _ _))

/-! ### Retransmission and gaps -/

theorem State.kept_sendResend (k first count : Nat) : s.LaneKept n (s.sendResend k first count) :=
  (State.kept_sendCtrl ..).beside (((State.Beside.refl _).thenBump ..).trans (State.beside_perfTun ..))

theorem State.kept_missRunStart (k m : Nat) : s.LaneKept n (s.missRunStart k m) :=
  ((State.beside_setProt ..).kept.trans (State.kept_sendResend ..)).beside (State.beside_mergeStatus k)

theorem State.beside_runPrune (k : Nat) : s.Beside (s.runPrune k) := (State.beside_setProt ..).trans (State.beside_mergeStatus k)

theorem State.beside_setRxD (k v : Nat) : s.Beside (s.setRxD k v) := (((State.Beside.refl s).thenWr ..).thenWr ..).trans (State.beside_tvWrite _)

theorem State.beside_streamBreak (k m : Nat) : s.Beside (s.streamBreak k m) := by
  have hset (x : TunRx) := State.beside_setTrx (s := s) k x
  exact .ite (hset _) (.ite ((hset _).thenBump ..) (hset _))

theorem State.beside_gapNote (k lo m cause : Nat) : s.Beside (s.gapNote k lo m cause) := by
  have hcount := (((State.Beside.refl s).thenBump F.TUN_CNT_GAP_BUNDLES_V k m).trans (State.beside_perfTun 9 k m)).thenWr F.PROT_TUN_GAP_LO_FIRST k lo
  have hinfo := ((hcount.thenWr F.PROT_TUN_GAP_HI_FIRST k (lo / 2 ^ 32)).thenWr F.PROT_TUN_GAP_INFO_CAUSE k cause).thenWr F.PROT_TUN_GAP_INFO_COUNT k (min m 0xFFFFFFF)
  exact ((hinfo.thenEvent F.TUN_EVENT_GAP k).thenEvent F.PROT_EVENT_GAP 0).trans (State.beside_streamBreak k m)

theorem State.beside_declareGap (k first count cause : Nat) : s.Beside (s.declareGap k first count cause) :=
  .ite (.refl s) ((State.beside_setRxD ..).trans (State.beside_gapNote ..))

theorem State.kept_rollRetire (k : Nat) : s.LaneKept n (s.rollRetire k) := by
  unfold State.rollRetire
  dsimp only
  split
  · refine .ite ?_ (.refl s n)
    have hend (x : TunRx) : s.LaneKept n (((s.setTrx k x).wr F.TUN_STATUS_ROLL_RX k 0).keyPromote k 1) :=
      ((State.beside_setTrx ..).thenWr ..).kept.trans (State.kept_keyPromote k 1)
    exact ((hend _).beside (State.beside_trackVal ..)).trans (State.kept_sendCtrl ..)
  · exact .refl s n

theorem State.kept_advanced (k : Nat) : s.LaneKept n (s.advanced k) :=
  (((State.beside_setProt ..).kept.trans (State.kept_holdRelease ..)).beside (State.beside_runPrune k)).trans (State.kept_rollRetire k)

theorem State.kept_copyMissing (k : Nat) (c : Copy) : s.LaneKept n (s.copyMissing k c) :=
  ((State.beside_setProt ..).kept.trans (State.kept_holdRelease ..)).beside (State.beside_runPrune k)

/-! ### The merge (R311 to R325) -/

theorem State.kept_bufferTake (k : Nat) (c : Copy) : s.LaneKept n (s.bufferTake k c).1 := by
  have htake := (State.beside_dataPath (s := s) 121).kept.trans (State.kept_spanTake (n := n) 2 (c.span k).1 (c.span k).2)
  exact .ite (.unlessReset htake fun _ => State.kept_copyMissing k c) htake

theorem State.kept_readBack (k : Nat) (c : Copy) : s.LaneKept n (s.readBack k c).1 := by
  unfold State.readBack
  split
  · exact .refl s n
  · dsimp only
    have htake (w : Nat) := (State.beside_dataPath (s := s) 120).kept.trans (State.kept_spanTake (n := n) 4 w 1)
    split
    · exact .unlessReset (htake _) fun _ => State.kept_copyMissing k c
    · have hreads (t : State) (p : ProtT) (h : Held) : t.Beside ((t.setProt k p).readCopy h) := .of_fields
      exact .unlessReset (htake _) fun u => (hreads ..).kept

theorem State.beside_lateCount (k m : Nat) : s.Beside (s.lateCount k m) :=
  .ite (.refl s) (((State.beside_setProt ..).thenBump ..).trans (State.beside_perfTun ..))

theorem State.kept_offer (k : Nat) (c : Copy) (late : Bool) : s.LaneKept n (s.offer k c late).1 := by
  unfold State.offer
  split
  · dsimp only
    split
    · exact State.kept_bufferTake ..
    · exact (State.kept_bufferTake ..).trans ((State.beside_setProt ..).kept.thenIf fun _ => (State.beside_lateCount ..).kept)
  · exact State.kept_readBack ..
  · exact .refl s n

theorem State.kept_noCopy (k m : Nat) : s.LaneKept n (s.noCopy k m).1 := by
  unfold State.noCopy
  dsimp only
  split
  · exact (State.beside_declareGap ..).kept.trans (State.kept_advanced k)
  · split
    · exact .refl s n
    · split
      · exact (State.LaneKept.refl s n).thenIfNot fun _ => State.kept_missRunStart ..
      · exact ((State.LaneKept.refl s n).thenIf fun _ => (State.beside_lateCount ..).kept).trans ((State.beside_declareGap ..).kept.trans (State.kept_advanced k))

theorem State.kept_mergeTry (k fuel : Nat) : s.LaneKept n (s.mergeTry k fuel) := by
  induction fuel generalizing s with
  | zero => exact .refl s n
  | succ fuel ih =>
    unfold State.mergeTry
    dsimp only
    refine .ite (.refl s n) (.ite ?_ ?_)
    · split
      · exact (State.kept_offer ..).thenIf fun _ => ih
      · exact .refl s n
    · split
      · exact (State.kept_offer ..).thenIf fun _ => ih
      · exact .ite (.refl s n) ((State.kept_noCopy ..).thenIf fun _ => ih)

theorem State.kept_mergeAll : s.LaneKept n s.mergeAll := .foldl (fun _ k => State.kept_mergeTry k _) _ s

/-- What follows a change of a lane's state in its port and in the merges leaves every lane as it stands, or a reset has met it. -/
theorem State.kept_laneMoved (m : Nat) : s.LaneKept n (s.laneMoved m) := (State.beside_portUpdate _).kept.trans State.kept_mergeAll

end Sys2Proof.Machine
end

section
/-!
PROOFS. A data path at work does not depend on the states of lanes (R454 to R456).
-/

namespace Sys2Proof.Machine

set_option Elab.async false

variable {s t : State}

/-! ### What the state of a lane cannot change (R454 to R456) -/

/-- What a field reads at the key that was written depends on the value written alone. -/
theorem State.rd_wr_of_key (s t : State) {f g : Fld} {i j : Nat} (v : Nat) (hk : g.key j = f.key i) : (s.wr f i v).rd g j = (t.wr f i v).rd g j := by
  have hput (m : RegStore) : (m.set f i v).get g j = (if v % 2 ^ f.w = f.reset i then g.reset j else v % 2 ^ f.w) := by
    rw [RegStore.get, RegStore.set, Amap.get, Amap.put, hk]
    split
    · rw [Amap.find_erase_self]
      rfl
    · rw [Amap.find_ins_self _ _ _ _ (Amap.find_erase_self m (f.key i))]
      rfl
  exact (hput s.regs).trans (hput t.regs).symm

/-- `t` and `s` differ at most in what LANE_STATE shows. -/
structure State.LaneStateOnly (s t : State) : Prop where
  eq : t = s.withRegs t.regs s.perfPipe
  rd : ∀ g i, g.reg ≠ .LANE_STATE → t.rd g i = s.rd g i

variable (h : s.LaneStateOnly t)
include h

theorem State.LaneStateOnly.on {g : Fld} (hg : g.reg ≠ .LANE_STATE) (i : Nat) : t.on g i = s.on g i := congrArg (fun v => decide (v ≠ 0)) (h.rd g i hg)

theorem State.LaneStateOnly.wr (f : Fld) (i v : Nat) : (s.wr f i v).LaneStateOnly (t.wr f i v) := by
  refine ⟨(congrArg (fun x : State => x.withRegs (t.wr f i v).regs x.perfPipe) h.eq :), fun g j hg => ?_⟩
  by_cases hk : g.key j = f.key i
  · exact State.rd_wr_of_key t s v hk
  · rw [State.rd_wr_ne _ _ hk, State.rd_wr_ne _ _ hk, h.rd g j hg]

theorem State.LaneStateOnly.put (f : Fld) (i : Nat) (b : Bool) : (s.put f i b).LaneStateOnly (t.put f i b) := h.wr f i _

theorem State.LaneStateOnly.bump {f : Fld} (hf : f.reg ≠ .LANE_STATE) (i k : Nat) : (s.bump f i k).LaneStateOnly (t.bump f i k) := by
  have hrd := h.rd f i hf
  unfold State.bump
  rw [hrd]
  exact h.wr f i _

theorem State.LaneStateOnly.word {r : Reg} (hr : r ≠ .LANE_STATE) (i : Nat) : t.word r i = s.word r i :=
  List.foldl_ext _ _ _ fun a f hf => by rw [h.rd f i (Reg.reg_of_mem_fields hf ▸ hr)]

/-- A change of fields outside the registers that is the same on both. -/
theorem State.LaneStateOnly.change (F : State → State) (hF : ∀ (u : State) (r : RegStore), F (u.withRegs r u.perfPipe) = (F u).withRegs r (F u).perfPipe) : (F s).LaneStateOnly (F t) := by
  obtain ⟨heq, hrd⟩ := h
  have ht : F t = (F s).withRegs t.regs (F s).perfPipe := (congrArg F heq).trans (hF s t.regs)
  have hs : (F s).regs = s.regs := (congrArg State.regs (hF s s.regs) :)
  have hregs : (F t).regs = t.regs := (congrArg State.regs ht :)
  refine ⟨hregs ▸ ht, fun g i hg => ?_⟩
  rw [State.rd, State.rd, hs, hregs]
  exact hrd g i hg

theorem State.LaneStateOnly.perf (ev k : Nat) : (s.perf ev k).LaneStateOnly (t.perf ev k) :=
  h.change (·.perf ev k) fun u r => by
    unfold State.perf State.perfSpread
    split <;> rfl

theorem State.LaneStateOnly.ite {c d : Prop} {_ : Decidable c} {_ : Decidable d} (hcd : c ↔ d) {s' t' : State} (h' : s'.LaneStateOnly t') :
    (if c then s else s').LaneStateOnly (if d then t else t') := by
  by_cases hc : c
  · rw [if_pos hc, if_pos (hcd.1 hc)]
    exact h
  · rw [if_neg hc, if_neg fun hd => hc (hcd.2 hd)]
    exact h'

theorem State.LaneStateOnly.irqTake (n : Nat) : (s.irqTake n).LaneStateOnly (t.irqTake n) := by
  have hcount : t.rd F.IRQ_SRC_COUNT n = s.rd F.IRQ_SRC_COUNT n := h.rd _ _ (by decide)
  have hlevel : t.on F.IRQ_SRC_LEVEL n = s.on F.IRQ_SRC_LEVEL n := h.on (by decide) n
  have hactive : t.on F.IRQ_SRC_ACTIVE n = s.on F.IRQ_SRC_ACTIVE n := h.on (by decide) n
  unfold State.irqTake
  rw [hcount, hlevel, hactive]
  refine .ite h .rfl (.ite (.ite h .rfl (h.put ..)) .rfl (.ite (h.bump (by decide) ..) .rfl ((h.wr ..).put ..)))

theorem State.LaneStateOnly.irq (n : Nat) : (s.irq n).LaneStateOnly (t.irq n) := (h.perf ..).irqTake n

theorem State.LaneStateOnly.foldl {α : Type} {F : State → α → State} (hF : ∀ {u v : State}, u.LaneStateOnly v → ∀ x, (F u x).LaneStateOnly (F v x)) (l : List α) :
    (l.foldl F s).LaneStateOnly (l.foldl F t) := by
  induction l generalizing s t with
  | nil => exact h
  | cons x l ih => exact ih (hF h x)

theorem State.LaneStateOnly.unitLevel_kiln : t.unitLevel 485 = s.unitLevel 485 := by
  have hword (r : Reg) (hr : r ≠ .LANE_STATE) := h.word hr 0
  show decide (Nat.land (t.word .KILN_EVENT 0) (t.word .KILN_EVENT_EN 0) ≠ 0) = _
  rw [hword _ (by decide), hword _ (by decide)]
  rfl

/-- The event of the Kiln controller is raised the same. -/
theorem State.LaneStateOnly.kilnEvent : (s.event F.KILN_EVENT_UNTESTABLE 0).LaneStateOnly (t.event F.KILN_EVENT_UNTESTABLE 0) := by
  have hput := h.put F.KILN_EVENT_UNTESTABLE 0 true
  have hlevel := hput.unitLevel_kiln
  have hold := h.unitLevel_kiln
  exact State.LaneStateOnly.ite (c := ((s.put F.KILN_EVENT_UNTESTABLE 0 true).unitLevel 485 && !s.unitLevel 485) = true)
    (d := ((t.put F.KILN_EVENT_UNTESTABLE 0 true).unitLevel 485 && !t.unitLevel 485) = true) (hput.irq _) (by rw [hlevel, hold]) hput

theorem State.LaneStateOnly.sliceIncomplete (result steps : Nat) : (s.sliceIncomplete result steps).LaneStateOnly (t.sliceIncomplete result steps) :=
  (((((h.change (fun u => { u with sliceRegion := none }) fun _ _ => rfl).put ..).wr ..).put ..).wr ..)

theorem State.LaneStateOnly.kilnAborted (n : Nat) : (s.kilnAborted n).LaneStateOnly (t.kilnAborted n) := by
  have hcount : t.rd F.KILN_REG_ABORTS n = s.rd F.KILN_REG_ABORTS n := h.rd _ _ (by decide)
  have huntestable : t.on F.KILN_REG_UNTESTABLE n = s.on F.KILN_REG_UNTESTABLE n := h.on (by decide) n
  have hbanks : t.regionBanks n = s.regionBanks n := (congrArg (fun x : State => x.regionBanks n) h.eq :)
  have hwait : t.kilnWait = s.kilnWait := (congrArg State.kilnWait h.eq :)
  have htime : t.time = s.time := (congrArg State.time h.eq :)
  unfold State.kilnAborted
  dsimp only
  rw [hcount, huntestable, hbanks, hwait, htime]
  have hcounted (k : Nat) (l : List (Nat × Nat)) : LaneStateOnly { s.wr F.KILN_REG_ABORTS n k with kilnWait := l } { t.wr F.KILN_REG_ABORTS n k with kilnWait := l } :=
    (h.wr ..).change (fun u => { u with kilnWait := l }) fun _ _ => rfl
  have hmarked := (((hcounted (min 8 (s.rd F.KILN_REG_ABORTS n + 1)) ((s.kilnWait.filter fun e => e.1 ≠ n) ++ [(n, s.time)])).put
    F.KILN_REG_UNTESTABLE n true).bump (f := F.KILN_STATUS_UNTESTABLE_COUNT) (by decide) 0 1).kilnEvent
  exact (hmarked.foldl (F := fun u b => u.irq (32 * b + 19)) (fun hu b => hu.irq _) _).ite .rfl (hcounted ..)

theorem State.LaneStateOnly.sliceAbort (n steps : Nat) : (s.sliceAbort n steps).LaneStateOnly (t.sliceAbort n steps) := by
  have hmem : t.sliceMem = s.sliceMem := (congrArg State.sliceMem h.eq :)
  have hlist : (t.sliceIncomplete 3 steps).sliceRedirect = (s.sliceIncomplete 3 steps).sliceRedirect :=
    (congrArg State.sliceRedirect (h.sliceIncomplete 3 steps).eq :)
  have hended (l : List Nat) := (h.sliceIncomplete 3 steps).change (fun u => { u with sliceRedirect := l }) fun _ _ => rfl
  unfold State.sliceAbort
  dsimp only
  rw [hmem, hlist]
  exact (hended _).kilnAborted n

/-- What a data path at work does to a Kiln slice is the same. -/
theorem State.LaneStateOnly.dataPath (n : Nat) : (s.dataPath n).LaneStateOnly (t.dataPath n) := by
  have hexpected : t.rd F.KILN_LAST_LO_EXPECTED 0 = s.rd F.KILN_LAST_LO_EXPECTED 0 := h.rd _ _ (by decide)
  have hregion : t.sliceRegion = s.sliceRegion := (congrArg State.sliceRegion h.eq :)
  have hfree : t.freeVal = s.freeVal := (congrArg State.freeVal h.eq :)
  have hat := h.change (fun u => { u with trafficAt := Amap.ins natLt (Amap.erase u.trafficAt n) n u.time }) fun _ _ => rfl
  refine State.LaneStateOnly.ite ?_ (by rw [hregion]) hat
  rw [hfree, hexpected]
  exact (hat.change State.drawn fun _ _ => rfl).sliceAbort n _

end Sys2Proof.Machine
end

section
/-!
PROOFS. A lane starts from Cold or Banked, and a request is judged (R137 to R140, R170).
-/

namespace Sys2Proof.Machine

set_option Elab.async false

variable {s t u : State} {l : List (Fld × Nat × Nat)} {n : Nat}

/-! ### A transition from Cold or Banked (R137, R140, R170) -/

/-- A field that is not written may be named with what it reads. -/
theorem State.Becomes.same {ev : Bool} (h : s.Becomes t l ev) (f : Fld) (i : Nat) (hf : f.offList l = true := by rfl) (he : eventRegs f.reg = false := by rfl) :
    s.Becomes t (l ++ [(f, i, s.rd f i)]) ev := by
  obtain ⟨hread, hframe, more, ht, hmore⟩ := State.becomes_iff.1 h
  refine State.becomes_iff.2 ⟨fun p hp => ?_, fun g j hg => hframe g j fun p hp => hg p (List.mem_append_left _ hp), more, ht, hmore⟩
  rcases List.mem_append.1 hp with hp | hp
  · exact hread p hp
  · obtain rfl := List.mem_singleton.1 hp
    exact h.rd_eq f i hf he

/-- What a data path at work does to a Kiln slice is not changed by writes of a lane's state. -/
theorem State.Becomes.dataPath (h : s.Becomes t l false) (hl : ∀ p ∈ l, p.1.reg = .LANE_STATE) (m : Nat) : (s.dataPath m).Becomes (t.dataPath m) l false := by
  obtain ⟨hread, hframe, more, ht, hmore⟩ := State.becomes_iff.1 h
  rw [hmore rfl, List.append_nil] at ht
  have honly : s.LaneStateOnly t := ⟨ht, fun g i hg => hframe g i (fun p hp => Fld.key_ne_reg (hl p hp ▸ hg)) nofun⟩
  have hlane (g : Fld) (hg : g.reg = .LANE_STATE) : laneReg g.reg = true := hg ▸ rfl
  refine State.becomes_iff.2 ⟨fun p hp => ?_, fun g j hg _ => ?_, [], ?_, fun _ => rfl⟩
  · rw [(State.beside_dataPath m).rd _ _ (hlane _ (hl p hp)), hread p hp]
  · by_cases hr : g.reg = .LANE_STATE
    · rw [(State.beside_dataPath m).rd _ _ (hlane g hr), (State.beside_dataPath m).rd _ _ (hlane g hr), hframe g j hg nofun]
    · exact (honly.dataPath m).rd g j hr
  · rw [List.append_nil]
    exact (honly.dataPath m).eq

/-- The state a transition from Cold or Banked starts from: a wake from Banked makes the lane's data path work. -/
def State.wakePath (s : State) (n cur req : Nat) : State := if cur = 1 ∧ 2 ≤ req then s.dataPath n else s

theorem State.beside_wakePath (n cur req : Nat) : s.Beside (s.wakePath n cur req) := .ite (State.beside_dataPath n) (.refl s)

theorem State.Becomes.wakePath (h : s.Becomes t l false) (hl : ∀ p ∈ l, p.1.reg = .LANE_STATE) (m cur req : Nat) :
    (s.wakePath m cur req).Becomes (t.wakePath m cur req) l false := by
  unfold State.wakePath
  split
  · exact h.dataPath hl m
  · exact h

/-- What a lane keeps of its record when it starts from Cold or Banked. -/
def State.wakeLane (s : State) (n cur req : Nat) : LaneS :=
  { s.lane n with wake := if req = 2 then s.wakeKind n cur else .none, windows := 0, asBanked := decide (cur = 1 ∧ req = 2) }

theorem State.wakesAsBanked_of_low {cur : Nat} (hlow : cur ≤ 1) : s.wakesAsBanked n cur = decide (cur = 1) := by
  rw [State.wakesAsBanked, decide_eq_false (by omega : ¬ cur = 3), Bool.false_and, Bool.or_false]

theorem State.wakeKind_of_low {cur : Nat} (hlow : cur ≤ 1) (hkept : (t.lane n).coefKept = (s.lane n).coefKept) : t.wakeKind n cur = s.wakeKind n cur := by
  rw [State.wakeKind, State.wakeKind, hkept, State.wakesAsBanked_of_low hlow, State.wakesAsBanked_of_low hlow]

/-- A lane that goes from Cold or Banked calibrates its converter on the way up, and nowhere else. -/
theorem calibrates_of_low {cur req : Nat} (hlow : cur ≤ 1) (hne : cur ≠ req) :
    (decide (2 ≤ req) && decide (cur ≤ 1) || decide (req = 1) && decide (cur = 0) || decide (cur = 1 ∧ req = 2)) = decide (1 ≤ req) := by
  obtain rfl | rfl := Nat.le_one_iff_eq_zero_or_eq_one.1 hlow
  · rcases req with _ | _ | req
    · exact absurd rfl hne
    · rfl
    · rfl
  · rcases req with _ | _ | req
    · rfl
    · exact absurd rfl hne
    · rfl

/-- The lane on its way from Cold or Banked, before the freeze, the port and the merges are judged again. -/
def State.wakeStart (s : State) (n cur req : Nat) : State :=
  let s3 := (((s.wakePath n cur req).put F.LANE_STATE_CHANGING n true).put F.LANE_TX_STATUS_DAC_CAL n (decide (1 ≤ req))).setLane n (s.wakeLane n cur req)
  if req = 2 then (if cur = 0 then s3.wr F.LANE_RX_STATUS_ACQ_STEP n 1 else s3) else s3.wr F.LANE_RX_STATUS_ACQ_STEP n 0

/-- The lane starts from Cold or Banked, not redirected from a wake that has converged. -/
theorem State.laneGo_of_low {cur req : Nat} (hcur : s.rd F.LANE_STATE_CUR n = cur) (hreq : s.rd F.LANE_STATE_REQ n = req) (hlow : cur ≤ 1) (hne : cur ≠ req)
    (hconv : req = 2 ∨ s.on F.LANE_RX_STATUS_CONVERGED n = false) : s.laneGo n = ((s.wakeStart n cur req).freezeJudge n).laneMoved n := by
  have hpath : (if (cur = 3 ∧ req = 2) ∨ (cur = 1 ∧ 2 ≤ req) then s.dataPath n else s) = s.wakePath n cur req := if_congr (by omega) rfl rfl
  have hbeside : s.Beside (s.wakePath n cur req) := State.beside_wakePath ..
  generalize hs1 : (s.wakePath n cur req).put F.LANE_STATE_CHANGING n true = s1
  have hlane : s1.lane n = s.lane n := by
    subst hs1
    exact congrArg (fun m => Amap.get LaneS.init m n) hbeside.lanes
  have hstay : (req ≠ 2 && s1.on F.LANE_RX_STATUS_CONVERGED n) = false := by
    have hon : s1.on F.LANE_RX_STATUS_CONVERGED n = s.on F.LANE_RX_STATUS_CONVERGED n := by
      subst hs1
      rw [State.on, State.put, State.rd_wr_ne _ _ (Fld.key_ne_reg (by decide)), hbeside.rd _ _ rfl]
      rfl
    rw [hon]
    rcases hconv with rfl | h
    · rfl
    · rw [h, Bool.and_false]
  have hkind : s1.wakeKind n cur = s.wakeKind n cur := State.wakeKind_of_low hlow (by rw [hlane])
  have hbanked : (decide (req = 2) && s1.wakesAsBanked n cur) = decide (cur = 1 ∧ req = 2) := by
    rw [State.wakesAsBanked_of_low hlow, Bool.decide_and, Bool.and_comm]
  have hnotLit : ¬ (cur = 2 ∧ req ≠ 2) := fun h => absurd (h.1 ▸ hlow) (by decide)
  have hnotUp (w : Wake) (b : Bool) : ¬ (2 ≤ cur ∧ w = Wake.full ∧ b = false) := fun h => absurd (h.1.trans hlow) (by decide)
  unfold State.laneGo
  simp only [hcur, hreq, hpath, hs1, if_neg hnotLit, hstay, Bool.false_eq_true, if_false, hkind, hbanked, calibrates_of_low hlow hne, if_neg (hnotUp _ _), State.laneMod_eq]
  unfold State.wakeStart State.wakeLane
  have hlane' (b : Bool) : (s1.put F.LANE_TX_STATUS_DAC_CAL n b).lane n = s.lane n := hlane
  rw [hs1, hlane']

theorem State.becomes_wakeStart (s : State) (n cur req : Nat) : ((s.wakePath n cur req).setLane n (s.wakeLane n cur req)).Becomes (s.wakeStart n cur req)
    [(F.LANE_STATE_CHANGING, n, 1), (F.LANE_TX_STATUS_DAC_CAL, n, if 1 ≤ req then 1 else 0),
      (F.LANE_RX_STATUS_ACQ_STEP, n, if req = 2 then (if cur = 0 then 1 else s.rd F.LANE_RX_STATUS_ACQ_STEP n) else 0)] false := by
  have hbase := ((State.Becomes.refl ((s.wakePath n cur req).setLane n (s.wakeLane n cur req)) false).thenPut F.LANE_STATE_CHANGING n true).thenPut
    F.LANE_TX_STATUS_DAC_CAL n (decide (1 ≤ req))
  have hacq : ((s.wakePath n cur req).setLane n (s.wakeLane n cur req)).rd F.LANE_RX_STATUS_ACQ_STEP n = s.rd F.LANE_RX_STATUS_ACQ_STEP n :=
    (State.beside_wakePath n cur req).rd _ _ rfl
  simp only [decide_eq_true_eq] at hbase
  unfold State.wakeStart
  by_cases h2 : req = 2
  · rw [if_pos h2, if_pos h2]
    split
    · exact hbase.thenWr _ _ _ (by decide)
    · exact hacq ▸ hbase.same F.LANE_RX_STATUS_ACQ_STEP n
  · rw [if_neg h2, if_neg h2]
    exact hbase.thenWr _ _ _ (by decide)

/-! ### Requests (R137 to R139) -/

/-- The fields that clear with an accepted request for another state than Cold. -/
def unforced (n req : Nat) : List (Fld × Nat × Nat) := if req = 0 then [] else [(F.LANE_STATE_FORCED, n, 0), (F.LANE_STATE_FORCE_CAUSE, n, 0)]

/-- REQ with an accepted request. -/
def State.requested (s : State) (n req : Nat) : State :=
  if req ≠ 0 then ((s.wr F.LANE_STATE_REQ n req).put F.LANE_STATE_FORCED n false).wr F.LANE_STATE_FORCE_CAUSE n 0 else s.wr F.LANE_STATE_REQ n req

theorem State.becomes_requested (s : State) (n : Nat) {req : Nat} (hreq : req < 2 ^ F.LANE_STATE_REQ.w) :
    s.Becomes (s.requested n req) ([(F.LANE_STATE_REQ, n, req)] ++ unforced n req) false := by
  have hr := (State.Becomes.refl s false).thenWr F.LANE_STATE_REQ n req hreq
  unfold State.requested unforced
  by_cases h0 : req = 0
  · rw [if_neg (not_not.2 h0), if_pos h0]
    exact hr
  · rw [if_pos h0, if_neg h0]
    exact (hr.thenPut F.LANE_STATE_FORCED n false).thenWr F.LANE_STATE_FORCE_CAUSE n 0 (by decide)

theorem State.laneRequest_of_refused {req : Nat} (hforced : (s.lane n).forcedDrop = false) (h : s.laneRefuses n req = true) :
    s.laneRequest n req = (s.put F.LANE_STATE_REFUSED n true, .refusedState) := by
  rw [State.laneRequest, hforced, h]
  rfl

theorem State.laneRequest_of_same {req : Nat} (hforced : (s.lane n).forcedDrop = false) (h : s.laneRefuses n req = false)
    (hstill : s.on F.LANE_STATE_CHANGING n = false) (hcur : s.rd F.LANE_STATE_CUR n = req) : s.laneRequest n req = (s.requested n req, .ok) := by
  rw [State.laneRequest, hforced, h, hstill, hcur, decide_eq_true rfl]
  rfl

theorem State.laneRequest_of_other {req : Nat} (hforced : (s.lane n).forcedDrop = false) (h : s.laneRefuses n req = false)
    (hstill : s.on F.LANE_STATE_CHANGING n = false) (hcur : s.rd F.LANE_STATE_CUR n ≠ req) : s.laneRequest n req = ((s.requested n req).laneGo n, .ok) := by
  rw [State.laneRequest, hforced, h, hstill, decide_eq_false hcur]
  rfl

theorem State.laneStateWrite_of_plain {v : Nat} (hforced : (s.lane n).forcedDrop = false) (hv : F.LANE_STATE_REFUSED.of v = 0) :
    s.laneStateWrite n v = s.laneRequest n (F.LANE_STATE_REQ.of v) := by
  rw [State.laneStateWrite, hforced, hv]
  rfl

end Sys2Proof.Machine
end

section
/-!
PROOFS. Requests for a lane's state: the commands (R137 to R139).
-/

namespace Sys2Proof.Machine

set_option Elab.async false

variable {s : State} {n : Nat} {ag : Agent} {v : W32} {n' : Fin 48}

/-! ### Commands of a lane's state (R137 to R140) -/

/-- A write of LANE_STATE that is answered at once. -/
theorem exec_laneStateRequest (n : Fin 48) (h : s.Accepts ag .LANE_STATE n v.toNat) {t : State} {st : Status} (ht : s.laneStateWrite n v.toNat = (t, st))
    (hretrain : t.retrainAfter = s.retrainAfter) (hreset : t.resetAfter = s.resetAfter) : exec (.laneStateRequest ag n v) s = .next (t.answer st 0) :=
  congrArg Host.Outcome.next (State.writing_of_accepts_idle h ht hretrain hreset)

/-- A write of LANE_STATE on which the lane moves. -/
theorem exec_laneStateRequest_settled (n : Fin 48) (h : s.Accepts ag .LANE_STATE n v.toNat) {t : State} {st : Status} (ht : s.laneStateWrite n v.toNat = (t, st)) :
    exec (.laneStateRequest ag n v) s = .next (t.answer st 0).settle :=
  congrArg Host.Outcome.next ((State.writing_of_accepts h _).trans (by rw [ht]))

/-- A refused request sets REFUSED and nothing else, cleared in the same write or not. -/
theorem State.laneStateWrite_of_refused {v : Nat} (hforced : (s.lane n).forcedDrop = false) (h : s.laneRefuses n (F.LANE_STATE_REQ.of v) = true) :
    s.laneStateWrite n v = (s.put F.LANE_STATE_REFUSED n true, .refusedState) := by
  rw [State.laneStateWrite, hforced, if_neg Bool.false_ne_true]
  split
  · have hput : (s.put F.LANE_STATE_REFUSED n false).put F.LANE_STATE_REFUSED n true = s.put F.LANE_STATE_REFUSED n true := State.wr_wr ..
    rw [State.laneRequest_of_refused (s := s.put F.LANE_STATE_REFUSED n false) hforced ((State.laneRefuses_put rfl ..).trans h), hput]
  · exact State.laneRequest_of_refused hforced h

theorem laneStateRequest_refused (n : Fin 48) (h : s.Accepts ag .LANE_STATE n v.toNat) (hforced : (s.lane n).forcedDrop = false)
    (href : s.laneRefuses n (F.LANE_STATE_REQ.of v.toNat) = true) : Does (.laneStateRequest ag n v) s fun t =>
      (s.answer .refusedState 0).Becomes t [(F.LANE_STATE_REFUSED, n, 1)] false :=
  ⟨_, exec_laneStateRequest n h (State.laneStateWrite_of_refused hforced href) rfl rfl, ((State.Becomes.refl s false).thenPut F.LANE_STATE_REFUSED n true).answer ..⟩

theorem laneStateRequest_same (n : Fin 48) (h : s.Accepts ag .LANE_STATE n v.toNat) (hforced : (s.lane n).forcedDrop = false)
    (hok : s.laneRefuses n (F.LANE_STATE_REQ.of v.toNat) = false) (hv : F.LANE_STATE_REFUSED.of v.toNat = 0) (hstill : s.on F.LANE_STATE_CHANGING n = false)
    (hcur : s.rd F.LANE_STATE_CUR n = F.LANE_STATE_REQ.of v.toNat) : Does (.laneStateRequest ag n v) s fun t =>
      (s.answer .ok 0).Becomes t ([(F.LANE_STATE_REQ, n.val, F.LANE_STATE_REQ.of v.toNat)] ++ unforced n (F.LANE_STATE_REQ.of v.toNat)) false := by
  have hb := s.becomes_requested n (Fld.of_lt F.LANE_STATE_REQ v.toNat)
  have hw := (State.laneStateWrite_of_plain hforced hv).trans (State.laneRequest_of_same hforced hok hstill hcur)
  have hfields : (s.requested n (F.LANE_STATE_REQ.of v.toNat)).retrainAfter = s.retrainAfter ∧ (s.requested n (F.LANE_STATE_REQ.of v.toNat)).resetAfter = s.resetAfter := by
    obtain ⟨-, -, more, ht, -⟩ := State.becomes_iff.1 hb
    exact ⟨(congrArg State.retrainAfter ht :), (congrArg State.resetAfter ht :)⟩
  exact ⟨_, exec_laneStateRequest n h hw hfields.1 hfields.2, hb.answer ..⟩

theorem offList_unforced {f : Fld} {n req : Nat} (hreq : f.offList [(F.LANE_STATE_REQ, n, req)] = true)
    (hforced : f.offList [(F.LANE_STATE_FORCED, n, 0), (F.LANE_STATE_FORCE_CAUSE, n, 0)] = true) : f.offList ([(F.LANE_STATE_REQ, n, req)] ++ unforced n req) = true := by
  unfold unforced
  split
  · exact hreq
  · rw [Fld.offList, List.all_append, Bool.and_eq_true]
    exact ⟨hreq, hforced⟩

/-- What every field of an accepted request has. -/
theorem forall_requested {P : Fld → Prop} (hreq : P F.LANE_STATE_REQ) (hforced : P F.LANE_STATE_FORCED) (hcause : P F.LANE_STATE_FORCE_CAUSE) (n req : Nat) :
    ∀ p ∈ [(F.LANE_STATE_REQ, n, req)] ++ unforced n req, P p.1 := by
  intro p hp
  unfold unforced at hp
  split at hp
  · obtain rfl := List.mem_singleton.1 hp
    exact hreq
  · simp only [List.cons_append, List.nil_append, List.mem_cons, List.not_mem_nil, or_false] at hp
    rcases hp with rfl | rfl | rfl
    · exact hreq
    · exact hforced
    · exact hcause

/-- A request for another state from Cold or Banked. -/
theorem laneStateRequest_start (n : Fin 48) (h : s.Accepts ag .LANE_STATE n v.toNat) (hforced : (s.lane n).forcedDrop = false) {cur req : Nat}
    (hc : s.rd F.LANE_STATE_CUR n = cur) (hr : F.LANE_STATE_REQ.of v.toNat = req)
    (hok : s.laneRefuses n req = false) (hv : F.LANE_STATE_REFUSED.of v.toNat = 0) (hstill : s.on F.LANE_STATE_CHANGING n = false)
    (hne : cur ≠ req) (hlow : cur ≤ 1) (hconv : req = 2 ∨ s.on F.LANE_RX_STATUS_CONVERGED n = false) :
    DoesThen (.laneStateRequest ag n v) s (fun u => (((u.freezeJudge n).laneMoved n).answer .ok 0).settle) fun u =>
      ((s.wakePath n cur req).setLane n (s.wakeLane n cur req)).Becomes u ([(F.LANE_STATE_REQ, n.val, req)] ++ unforced n req ++
        [(F.LANE_STATE_CHANGING, n.val, 1), (F.LANE_TX_STATUS_DAC_CAL, n.val, if 1 ≤ req then 1 else 0),
          (F.LANE_RX_STATUS_ACQ_STEP, n.val, if req = 2 then (if cur = 0 then 1 else s.rd F.LANE_RX_STATUS_ACQ_STEP n) else 0)]) false := by
  have hb := s.becomes_requested n (hr ▸ Fld.of_lt F.LANE_STATE_REQ v.toNat : req < 2 ^ F.LANE_STATE_REQ.w)
  generalize ht : s.requested n req = t at hb
  have hoff := fun (f : Fld) (h1 : f.offList [(F.LANE_STATE_REQ, n.val, req)] = true) (h2 : f.offList [(F.LANE_STATE_FORCED, n.val, 0), (F.LANE_STATE_FORCE_CAUSE, n.val, 0)] = true) =>
    offList_unforced h1 h2
  have hc' : t.rd F.LANE_STATE_CUR n = cur := (hb.rd_eq _ _ (hoff _ rfl rfl)).trans hc
  have hr' : t.rd F.LANE_STATE_REQ n = req := hb.1 _ (List.mem_append_left _ (List.mem_singleton_self _))
  have hacq : t.rd F.LANE_RX_STATUS_ACQ_STEP n = s.rd F.LANE_RX_STATUS_ACQ_STEP n := hb.rd_eq _ _ (hoff _ rfl rfl)
  have hconv' : req = 2 ∨ t.on F.LANE_RX_STATUS_CONVERGED n = false := hconv.imp_right (hb.on_eq _ _ (hoff _ rfl rfl)).trans
  have hlane : t.wakeLane n cur req = s.wakeLane n cur req := by
    have hkind : t.wakeKind n cur = s.wakeKind n cur := State.wakeKind_of_low hlow (by rw [hb.lane])
    rw [State.wakeLane, State.wakeLane, hb.lane, hkind]
  have hgo := State.laneGo_of_low hc' hr' hlow hne hconv'
  have hw : s.laneStateWrite n v.toNat = ((s.requested n req).laneGo n, .ok) := by
    rw [State.laneStateWrite_of_plain hforced hv, hr]
    exact State.laneRequest_of_other hforced hok hstill (hc ▸ hne)
  refine ⟨t.wakeStart n cur req, ?_, ?_⟩
  · have hstart := t.becomes_wakeStart n cur req
    rw [hlane, hacq] at hstart
    have hpath := (hb.wakePath (forall_requested (P := fun f => f.reg = .LANE_STATE) rfl rfl rfl n req) n cur req).setLane n (s.wakeLane n cur req)
    refine hpath.append hstart (forall_requested (P := fun f => f.offList _ = true) ?_ ?_ ?_ n req)
      (List.all_eq_true.2 (forall_requested (P := fun f => (!eventRegs f.reg) = true) rfl rfl rfl n req))
    all_goals rfl
  · rw [exec_laneStateRequest_settled n h hw, ht, hgo]

end Sys2Proof.Machine
end

section
/-!
PROOFS. What leaves the source of a lane's symbols and its driver (R151, R175).
-/

namespace Sys2Proof.Machine

set_option Elab.async false

variable {s t u : State} {n : Nat}

/-! ### What a lane's source of symbols shows -/

/-- The source of a lane's symbols, and whether its driver is on, are the same. -/
structure State.SourceKept (s : State) (n : Nat) (t : State) : Prop where
  source : t.rd F.LANE_TX_STATUS_SOURCE n = s.rd F.LANE_TX_STATUS_SOURCE n
  driving : t.on F.LANE_TX_STATUS_DRIVING n = s.on F.LANE_TX_STATUS_DRIVING n

theorem State.SourceKept.refl (s : State) (n : Nat) : s.SourceKept n s := ⟨rfl, rfl⟩

theorem State.SourceKept.trans (h : s.SourceKept n t) (k : t.SourceKept n u) : s.SourceKept n u := ⟨k.source.trans h.source, k.driving.trans h.driving⟩

theorem State.SourceKept.ite {c : Prop} {_ : Decidable c} (h : s.SourceKept n t) (k : s.SourceKept n u) : s.SourceKept n (if c then t else u) := by
  split
  · exact h
  · exact k

/-- A field that is none of the two. -/
def besideSource (f : Fld) : Bool := f.reg != .LANE_TX_STATUS || (f.lo != F.LANE_TX_STATUS_SOURCE.lo && f.lo != F.LANE_TX_STATUS_DRIVING.lo)

theorem key_ne_of_besideSource {f g : Fld} (hf : besideSource f = true) (hr : g.reg = .LANE_TX_STATUS)
    (hlo : g.lo = F.LANE_TX_STATUS_SOURCE.lo ∨ g.lo = F.LANE_TX_STATUS_DRIVING.lo) (i j : Nat) : g.key j ≠ f.key i := by
  intro e
  obtain ⟨he, -, hl⟩ := Fld.key_inj.1 e
  rw [besideSource, ← he, ← hl, hr] at hf
  rcases hlo with h | h <;> rw [h] at hf <;> exact absurd hf (by decide)

theorem State.SourceKept.wr {f : Fld} (hf : besideSource f = true) (i v : Nat) : s.SourceKept n (s.wr f i v) := by
  have hrd : (s.wr f i v).rd F.LANE_TX_STATUS_SOURCE n = s.rd F.LANE_TX_STATUS_SOURCE n := State.rd_wr_ne _ _ (key_ne_of_besideSource hf rfl (.inl rfl) i n)
  have hdr : (s.wr f i v).rd F.LANE_TX_STATUS_DRIVING n = s.rd F.LANE_TX_STATUS_DRIVING n := State.rd_wr_ne _ _ (key_ne_of_besideSource hf rfl (.inr rfl) i n)
  exact ⟨hrd, congrArg (fun v => decide (v ≠ 0)) hdr⟩

theorem State.SourceKept.thenWr (h : s.SourceKept n t) (f : Fld) (i v : Nat) (hf : besideSource f = true := by rfl) : s.SourceKept n (t.wr f i v) := h.trans (.wr hf i v)
theorem State.SourceKept.thenPut (h : s.SourceKept n t) (f : Fld) (i : Nat) (b : Bool) (hf : besideSource f = true := by rfl) : s.SourceKept n (t.put f i b) := h.thenWr f i _ hf

theorem State.Beside.sourceKept (h : s.Beside t) : s.SourceKept n t := ⟨h.rd _ _ rfl, congrArg (fun v => decide (v ≠ 0)) (h.rd _ _ rfl)⟩

theorem State.SourceKept.of_regs (h : t.regs = s.regs := by rfl) : s.SourceKept n t := by
  have hrd (g : Fld) : t.rd g n = s.rd g n := by rw [State.rd, State.rd, h]
  exact ⟨hrd _, congrArg (fun v => decide (v ≠ 0)) (hrd _)⟩

theorem State.SourceKept.event {f : Fld} (hf : besideSource f = true) (i : Nat) : s.SourceKept n (s.event f i) :=
  (State.SourceKept.wr hf i _).trans (State.Counted.levelEdge ..).beside.sourceKept

theorem State.SourceKept.laneBit {f ev : Fld} (hf : besideSource f = true) (he : besideSource ev = true) (m : Nat) (b : Bool) : s.SourceKept n (s.laneBit m f ev b) :=
  .ite (.refl s n) ((State.SourceKept.wr hf m _).trans (.event he m))

/-! ### The end of a transition -/

theorem State.sourceKept_sensingStops : s.SourceKept n (s.sensingStops n) :=
  ((State.SourceKept.laneBit rfl rfl n false).trans (.laneBit rfl rfl n false)).trans ((State.SourceKept.laneBit rfl rfl n false).trans (.laneBit rfl rfl n false))

theorem besideSource_shortFld (k : Nat) : besideSource (shortFld k) = true := by
  unfold shortFld
  split <;> rfl

theorem State.sourceKept_laneMod (m : Nat) (f : LaneS → LaneS) : s.SourceKept n (s.laneMod m f) := .of_regs

theorem State.sourceKept_shortSet (k : Nat) (short atLimit : Bool) : s.SourceKept n (s.shortSet n k short atLimit) :=
  ((State.sourceKept_laneMod ..).thenPut F.LANE_TX_STATUS_LIMIT _ _).trans (.laneBit (besideSource_shortFld k) rfl n short)

theorem State.sourceKept_freezeJudge : s.SourceKept n (s.freezeJudge n) := by
  have hmod {c : Prop} {_ : Decidable c} (f : LaneS → LaneS) (t : State) : t.SourceKept n (if c then t.laneMod n f else t) :=
    .ite (State.sourceKept_laneMod ..) (.refl t n)
  have hmark (t : State) (b : Bool) (k : Nat) : t.SourceKept n ((t.put F.LANE_RX_STATUS_FROZEN n b).wr F.LANE_RX_STATUS_FREEZE_CAUSE n k) :=
    ((State.SourceKept.refl t n).thenPut ..).thenWr ..
  have hend (t : State) {c : Prop} {_ : Decidable c} (f : LaneS → LaneS) (k : State → Nat) : t.SourceKept n (if t.freezeCause n = 0 then t else
      ((if c then t.laneMod n f else t).put F.LANE_RX_STATUS_FROZEN n true).wr F.LANE_RX_STATUS_FREEZE_CAUSE n (k (if c then t.laneMod n f else t))) :=
    .ite (.refl t n) ((hmod f t).trans (hmark ..))
  exact (((hmod _ s).trans (hmod _ _)).trans (hmod _ _)).trans (hend _ _ fun u => u.freezeCause n)

theorem State.sourceKept_unsettle : s.SourceKept n (s.unsettle n) := .wr rfl ..

theorem State.sourceKept_decTrack : s.SourceKept n (s.decTrack n) := by
  have hrun (k : Nat) (b : Bool) : s.SourceKept n ((s.wr F.LANE_DEC_STATUS_INPUT n k).put F.LANE_DEC_STATUS_RUNNING n b) := ((State.SourceKept.refl s n).thenWr ..).thenPut ..
  exact .ite (.refl s n) (.ite ((hrun ..).trans State.sourceKept_unsettle) (.ite ((((hrun ..).thenPut ..).thenPut ..).thenPut ..) (hrun ..)))

theorem State.sourceKept_decStore (k v : Nat) : s.SourceKept n (s.decStore n k v) :=
  .ite (.refl s n) ((State.Beside.of_fields (t := s.st .decCoef (n * 0x1000 + k) v)).trans (State.beside_writeMark ..)).sourceKept

theorem State.SourceKept.foldl {α : Type} {f : State → α → State} (hf : ∀ (t : State) x, t.SourceKept n (f t x)) (l : List α) (s : State) : s.SourceKept n (l.foldl f s) :=
  List.foldlRecOn (motive := fun t => s.SourceKept n t) l f (.refl s n) fun t h x _ => h.trans (hf t x)

theorem State.sourceKept_xfadeEnd : s.SourceKept n (s.xfadeEnd n) := .ite ((((State.SourceKept.refl s n).thenPut ..).thenWr ..).thenWr ..) (.refl s n)

theorem State.sourceKept_smokeOwn : s.SourceKept n (s.smokeOwn n) := by
  have hcfg (inc p : Nat) : s.SourceKept n ((((s.put F.LANE_DEC_CFG_SMOKE_OWNED n true).put F.LANE_DEC_CFG_MIX_EN n true).wr F.LANE_DEC_NCO_INC n inc).wr
      F.LANE_DEC_CFG_PROFILE n p) := ((((State.SourceKept.refl s n).thenPut ..).thenPut ..).thenWr ..).thenWr ..
  exact (((hcfg ..).trans State.sourceKept_xfadeEnd).trans (.foldl (fun t k => State.sourceKept_decStore ..) _ _)).trans State.sourceKept_unsettle

theorem State.sourceKept_smokeRxEnd (last state : Nat) : s.SourceKept n (s.smokeRxEnd n last state) := by
  have hlast : s.SourceKept n (if 2 ≤ s.rd F.SMOKE_STATUS_RX_STATE n then s.wr F.SMOKE_STATUS_LAST_RX n last else s) := .ite (.wr rfl ..) (.refl s n)
  exact (hlast.thenWr F.SMOKE_STATUS_RX_STATE n state).trans .of_regs

theorem State.sourceKept_smokeTrack : s.SourceKept n (s.smokeTrack n) :=
  .ite (.ite ((State.SourceKept.wr rfl ..).trans State.sourceKept_smokeOwn) (.refl s n)) (.ite (.refl s n) ((State.sourceKept_smokeRxEnd 5 0).thenPut ..))

/-! ### Transitions on the way down (R175) -/

/-- The source of a lane's symbols is IDLE, and its driver is off. -/
def State.SourceIdle (t : State) (n : Nat) : Prop := t.rd F.LANE_TX_STATUS_SOURCE n = 0 ∧ t.on F.LANE_TX_STATUS_DRIVING n = false

theorem State.SourceIdle.keep (h : s.SourceIdle n) (k : s.SourceKept n t) : t.SourceIdle n := ⟨k.source.trans h.1, k.driving.trans h.2⟩

theorem State.SourceIdle.laneKept (h : s.SourceIdle n) (k : s.LaneKept n t) : t.SourceIdle n := by
  rcases k with k | k
  · exact ⟨(k.rd _ rfl).trans h.1, (k.on rfl).trans h.2⟩
  · exact ⟨k.source, k.driving⟩

theorem State.sourceIdle_txIdle (s : State) (n : Nat) : (s.txIdle n).SourceIdle n := by
  have hsource (t : State) (h : t.rd F.LANE_TX_STATUS_SOURCE n = 0) (f : LaneS → LaneS) :
      (((t.put F.LANE_TX_STATUS_DRIVING n false).put F.LANE_TX_STATUS_RIPPLE n false).laneMod n f).SourceIdle n := by
    refine ⟨?_, ?_⟩
    · show ((t.put F.LANE_TX_STATUS_DRIVING n false).put F.LANE_TX_STATUS_RIPPLE n false).rd F.LANE_TX_STATUS_SOURCE n = 0
      rw [State.put, State.put, State.rd_wr_ne _ _ (Fld.key_ne_lo (by decide)), State.rd_wr_ne _ _ (Fld.key_ne_lo (by decide)), h]
    · show ((t.put F.LANE_TX_STATUS_DRIVING n false).put F.LANE_TX_STATUS_RIPPLE n false).on F.LANE_TX_STATUS_DRIVING n = false
      rw [State.on, State.put, State.rd_wr_ne _ _ (Fld.key_ne_lo (by decide))]
      exact State.on_put_self t n false
  refine hsource _ ?_ _
  split
  · assumption
  · rw [State.event, (State.Counted.levelEdge ..).beside.rd _ _ rfl, State.put, State.rd_wr_ne _ _ (Fld.key_ne_reg (by decide)), State.rd_wr_self]
    rfl

end Sys2Proof.Machine
end

section
/-!
PROOFS. The end of a lane's transition (R140, R175).
-/

namespace Sys2Proof.Machine

set_option Elab.async false

variable {s : State} {n : Nat} {ag : Agent} {v : W32}

/-! ### A lane in its new state (R140, R175) -/

/-- The lane before it is in its new state: on its way down its source is IDLE. -/
def State.arriveFrom (s : State) (n : Nat) : State :=
  if s.rd F.LANE_STATE_REQ n ≤ 1 ∨ (s.rd F.LANE_STATE_REQ n = 3 ∧ 2 ≤ s.rd F.LANE_STATE_CUR n) then s.txIdle n else s

/-- The lane shows its new state. -/
def State.arriveAt (s : State) (n : Nat) : State :=
  (((s.arriveFrom n).wr F.LANE_STATE_CUR n (s.rd F.LANE_STATE_REQ n)).put F.LANE_STATE_CHANGING n false).laneMod n fun l => { l with forcedDrop := false }

/-- What a lane's new state brings about. -/
def State.arrived (s : State) (n : Nat) : State := (((s.freezeJudge n).decTrack n).smokeTrack n).laneMoved n

theorem State.becomes_arriveAt (h : s.rd F.LANE_STATE_REQ n < 4) :
    ((s.arriveFrom n).setLane n { (s.arriveFrom n).lane n with forcedDrop := false }).Becomes (s.arriveAt n)
      [(F.LANE_STATE_CUR, n, s.rd F.LANE_STATE_REQ n), (F.LANE_STATE_CHANGING, n, 0)] false :=
  (((State.Becomes.refl (s.arriveFrom n) false).thenWr F.LANE_STATE_CUR n _ h).thenPut F.LANE_STATE_CHANGING n false).setLane n _

theorem State.laneArrive_of_warm (h : s.rd F.LANE_STATE_REQ n = 3) : s.laneArrive n = (s.arriveAt n).arrived n := by
  unfold State.laneArrive State.arriveAt State.arriveFrom
  rw [h]
  rfl

theorem State.laneArrive_of_banked (h : s.rd F.LANE_STATE_REQ n = 1) : s.laneArrive n = (((s.arriveAt n).sensingStops n).shortSet n 2 false false).arrived n := by
  unfold State.laneArrive State.arriveAt State.arriveFrom
  rw [h]
  rfl

theorem State.arriveFrom_of_lit (h : s.rd F.LANE_STATE_REQ n = 2) : s.arriveFrom n = s := if_neg (by omega)

theorem State.laneArrive_of_lit (h : s.rd F.LANE_STATE_REQ n = 2) : s.laneArrive n =
    (if (s.lane n).wake = .full ∧ (s.rd F.LANE_STATE_CUR n ≤ 1 ∨ (s.lane n).asBanked) then (s.arriveAt n).acqBegin n else s.arriveAt n).arrived n := by
  have hlane : (s.arriveAt n).lane n = { s.lane n with forcedDrop := false } := by
    rw [State.arriveAt, State.arriveFrom_of_lit h, State.laneMod_eq, State.lane_setLane_self]
    rfl
  have hgo : s.laneArrive n = (if ((s.arriveAt n).lane n).wake = .full ∧ (s.rd F.LANE_STATE_CUR n ≤ 1 ∨ ((s.arriveAt n).lane n).asBanked) then
      (s.arriveAt n).acqBegin n else s.arriveAt n).arrived n := by
    unfold State.laneArrive State.arriveAt State.arriveFrom
    rw [h]
    rfl
  rw [hgo, hlane]

/-- The record of a lane that has become Cold: what it had adapted is gone. -/
def LaneS.becomeCold (l : LaneS) : LaneS := { l with coefKept := false, snapshot := false, acqGear := true, rx := RxS.init }

theorem State.laneArrive_of_cold (h : s.rd F.LANE_STATE_REQ n = 0) : ∃ u, (s.arriveAt n).SourceKept n u ∧ s.laneArrive n = u.arrived n := by
  have hlane : (s.arriveAt n).SourceKept n (((s.arriveAt n).sensingStops n).laneMod n LaneS.becomeCold) :=
    State.sourceKept_sensingStops.trans (State.sourceKept_laneMod ..)
  have hshort (t : State) : t.SourceKept n (((t.shortSet n 0 false false).shortSet n 1 false false).shortSet n 2 false false) :=
    ((State.sourceKept_shortSet ..).trans (State.sourceKept_shortSet ..)).trans (State.sourceKept_shortSet ..)
  refine ⟨_, ((hlane.trans (hshort _)).thenPut F.LANE_RX_STATUS_DIVERGED n false).thenPut F.LANE_RX_STATUS_RECONVERGING n false, ?_⟩
  unfold State.laneArrive State.arriveAt State.arriveFrom
  rw [h]
  rfl

theorem State.SourceIdle.arrived (h : s.SourceIdle n) : (s.arrived n).SourceIdle n :=
  (((h.keep State.sourceKept_freezeJudge).keep State.sourceKept_decTrack).keep State.sourceKept_smokeTrack).laneKept (State.kept_laneMoved n)

/-- On its way down a lane ends with its source IDLE. -/
theorem State.sourceIdle_laneArrive (h : s.rd F.LANE_STATE_REQ n ≤ 1 ∨ (s.rd F.LANE_STATE_REQ n = 3 ∧ 2 ≤ s.rd F.LANE_STATE_CUR n)) : (s.laneArrive n).SourceIdle n := by
  have hat : (s.arriveAt n).SourceIdle n := by
    have hfrom : s.arriveFrom n = s.txIdle n := if_pos h
    rw [State.arriveAt, hfrom]
    exact (s.sourceIdle_txIdle n).keep ((((State.SourceKept.refl _ n).thenWr ..).thenPut ..).trans (State.sourceKept_laneMod ..))
  rcases h with h | ⟨h, -⟩
  · rcases Nat.le_one_iff_eq_zero_or_eq_one.1 h with h | h
    · obtain ⟨u, hu, he⟩ := State.laneArrive_of_cold h
      rw [he]
      exact (hat.keep hu).arrived
    · rw [State.laneArrive_of_banked h]
      exact (hat.keep (State.sourceKept_sensingStops.trans (State.sourceKept_shortSet ..))).arrived
  · rw [State.laneArrive_of_warm h]
    exact hat.arrived

theorem exec_laneTransitionEnd (n : Fin 48) (hchanging : s.on F.LANE_STATE_CHANGING n = true) (hready : s.transitionReady n = true) :
    exec (.laneTransitionEnd n) s = .next (s.laneArrive n) := congrArg Host.Outcome.next (if_pos (by rw [hchanging, hready]; rfl))

end Sys2Proof.Machine
end

section
/-!
PROOFS. The configuration of a lane's receiver, and the obligation on lane states.
-/

namespace Sys2Proof.Machine

set_option Elab.async false

variable {s : State} {ag : Agent} {v : W32}

/-! ### The configuration of a lane's receiver (R97, R98, R131) -/

/-- The fields of polarity, which a write of LANE_RX_CFG takes in every state. -/
def State.polWritten (s : State) (n v : Nat) : State :=
  (s.wr F.LANE_RX_CFG_POL_INV n (F.LANE_RX_CFG_POL_INV.of v)).wr F.LANE_RX_CFG_POL_FORCE n (F.LANE_RX_CFG_POL_FORCE.of v)

theorem State.becomes_polWritten (s : State) (n v : Nat) : s.Becomes (s.polWritten n v)
    [(F.LANE_RX_CFG_POL_INV, n, F.LANE_RX_CFG_POL_INV.of v), (F.LANE_RX_CFG_POL_FORCE, n, F.LANE_RX_CFG_POL_FORCE.of v)] false :=
  ((State.Becomes.refl s false).thenWr _ n _ (Fld.of_lt ..)).thenWr _ n _ (Fld.of_lt ..)

/-- All fields of LANE_RX_CFG, and the estimator that goes with the rate. -/
def State.rxCfgWritten (s : State) (n v : Nat) : State :=
  ((((s.polWritten n v).wr F.LANE_RX_CFG_RATE n (F.LANE_RX_CFG_RATE.of v)).wr F.LANE_RX_CFG_LP_ADC n (F.LANE_RX_CFG_LP_ADC.of v)).wr
    F.LANE_RX_CFG_AC_COUPLED n (F.LANE_RX_CFG_AC_COUPLED.of v)).wr F.LANE_RX_ADAPT_MLSE n (defaultMlse (F.LANE_RX_CFG_RATE.of v))

theorem defaultMlse_eq (rate : Nat) : defaultMlse rate = if rate = 0 then 0 else if rate = 1 then 1 else 2 := by
  match rate with
  | 0 => rfl
  | 1 => rfl
  | _ + 2 => rfl

theorem State.becomes_rxCfgWritten (s : State) (n v : Nat) : s.Becomes (s.rxCfgWritten n v)
    [(F.LANE_RX_CFG_POL_INV, n, F.LANE_RX_CFG_POL_INV.of v), (F.LANE_RX_CFG_POL_FORCE, n, F.LANE_RX_CFG_POL_FORCE.of v),
      (F.LANE_RX_CFG_RATE, n, F.LANE_RX_CFG_RATE.of v), (F.LANE_RX_CFG_LP_ADC, n, F.LANE_RX_CFG_LP_ADC.of v),
      (F.LANE_RX_CFG_AC_COUPLED, n, F.LANE_RX_CFG_AC_COUPLED.of v),
      (F.LANE_RX_ADAPT_MLSE, n, if F.LANE_RX_CFG_RATE.of v = 0 then 0 else if F.LANE_RX_CFG_RATE.of v = 1 then 1 else 2)] false := by
  have hcfg := (((s.becomes_polWritten n v).thenWr F.LANE_RX_CFG_RATE n _ (Fld.of_lt _ v)).thenWr F.LANE_RX_CFG_LP_ADC n _ (Fld.of_lt _ v)).thenWr
    F.LANE_RX_CFG_AC_COUPLED n _ (Fld.of_lt _ v)
  rw [← defaultMlse_eq]
  refine hcfg.thenWr F.LANE_RX_ADAPT_MLSE n _ ?_
  rw [defaultMlse_eq]
  split_ifs <;> decide

theorem State.rxCfgWrite_of_cold {n v : Nat} (hcold : s.laneCold n = true) (h : F.LANE_RX_CFG_LP_ADC.of v = 0 ∨ F.LANE_RX_CFG_RATE.of v ≤ 1) :
    s.rxCfgWrite n v = ((s.rxCfgWritten n v).rippleCheck n, .ok) := by
  have hlp : ¬ (F.LANE_RX_CFG_LP_ADC.of v = 1 ∧ 2 ≤ F.LANE_RX_CFG_RATE.of v) := by omega
  rw [State.rxCfgWrite, hcold]
  exact if_neg hlp

theorem State.rxCfgWrite_of_lpAdc {n v : Nat} (hcold : s.laneCold n = true) (hlp : F.LANE_RX_CFG_LP_ADC.of v = 1) (hrate : 2 ≤ F.LANE_RX_CFG_RATE.of v) :
    s.rxCfgWrite n v = (s, .refusedState) := by
  rw [State.rxCfgWrite, hcold]
  exact if_pos (And.intro hlp hrate)

theorem State.rxCfgWrite_of_awake {n v : Nat} (hcold : s.laneCold n = false) : s.rxCfgWrite n v = (s.polWritten n v,
    if F.LANE_RX_CFG_RATE.of v = s.rd F.LANE_RX_CFG_RATE n ∧ F.LANE_RX_CFG_LP_ADC.of v = s.rd F.LANE_RX_CFG_LP_ADC n ∧
      F.LANE_RX_CFG_AC_COUPLED.of v = s.rd F.LANE_RX_CFG_AC_COUPLED n then .ok else .refusedState) := by
  rw [State.rxCfgWrite, hcold]
  simp only [decide_eq_true_eq]
  rfl

/-- A write of LANE_RX_CFG that reaches a lane which is not Cold. -/
theorem laneRxCfgWrite_of_awake (n : Fin 48) (h : s.Accepts ag .LANE_RX_CFG n v.toNat) (hcold : s.laneCold n = false) :
    ∃ st, Does (.laneRxCfgWrite ag n v) s fun t => (s.answer st 0).Becomes t
        [(F.LANE_RX_CFG_POL_INV, n, F.LANE_RX_CFG_POL_INV.of v.toNat), (F.LANE_RX_CFG_POL_FORCE, n, F.LANE_RX_CFG_POL_FORCE.of v.toNat)] false ∧
      (st = .ok ↔ F.LANE_RX_CFG_RATE.of v.toNat = s.rd F.LANE_RX_CFG_RATE n ∧ F.LANE_RX_CFG_LP_ADC.of v.toNat = s.rd F.LANE_RX_CFG_LP_ADC n ∧
        F.LANE_RX_CFG_AC_COUPLED.of v.toNat = s.rd F.LANE_RX_CFG_AC_COUPLED n) := by
  refine ⟨_, _, congrArg Host.Outcome.next (State.writing_of_accepts_idle h (State.rxCfgWrite_of_awake hcold) rfl rfl), (s.becomes_polWritten n v.toNat).answer .., ?_⟩
  split_ifs with hsame <;> simp [hsame]

/-- A transition from Cold to another state ends with the converter calibrated. -/
theorem State.calibrated_of_ready {n : Nat} (h : s.transitionReady n = true) (hcur : s.rd F.LANE_STATE_CUR n = 0) :
    s.rd F.LANE_TX_STATUS_DAC_CAL n = 0 ∨ s.rd F.LANE_STATE_REQ n = 0 := by
  rw [State.transitionReady, hcur] at h
  by_cases hreq : s.rd F.LANE_STATE_REQ n = 0
  · exact .inr hreq
  · have hcal : (!s.on F.LANE_TX_STATUS_DAC_CAL n) = true := by
      rwa [if_neg (by omega), if_neg (by omega)] at h
    rw [Bool.not_eq_true', State.on, decide_eq_false_iff_not, not_not] at hcal
    exact .inl hcal

/-! ### The whole obligation -/

/-- Settles O29, each command by the steps it takes: a request from Cold or Banked is the start of a transition, whose data path is the one of the state before;
what follows the end of a transition leaves the source of the lane IDLE, or a reset does. -/
theorem laneStates : Obligations.LaneStates := by
  unfold Obligations.LaneStates
  intro s ag n v
  dsimp only
  refine ⟨fun hacc hforced => ⟨laneStateRequest_refused n hacc hforced, fun hok hv hstill => ⟨laneStateRequest_same n hacc hforced hok hv hstill,
    fun hne hlow hconv => laneStateRequest_start n hacc hforced rfl rfl hok hv hstill hne hlow hconv⟩⟩, fun hchanging hready hto => ?_, fun hacc => ⟨?_, ?_, laneRxCfgWrite_of_awake n hacc⟩⟩
  · have hexec := exec_laneTransitionEnd n hchanging hready
    have hat := State.becomes_arriveAt (s := s) (n := n) hto
    refine ⟨fun hcur => ?_, fun hstay => ⟨s.arriveAt n, hat, ?_⟩, fun hto hwake hlow => ⟨s.arriveAt n, hat, ?_⟩, fun hto => ⟨s.arriveAt n, hat, ?_⟩,
      fun hdown => ⟨_, hexec, State.sourceIdle_laneArrive hdown⟩⟩
    · exact State.calibrated_of_ready hready hcur
    · rcases hstay with h | ⟨h, hno⟩
      · rw [hexec, State.laneArrive_of_warm h]
        rfl
      · rw [hexec, State.laneArrive_of_lit h, if_neg hno]
        rfl
    · rw [hexec, State.laneArrive_of_lit hto, if_pos ⟨hwake, hlow⟩]
      rfl
    · rw [hexec, State.laneArrive_of_banked hto]
      rfl
  · exact fun hcold hlp hrate => congrArg Host.Outcome.next (State.writing_of_accepts_idle hacc (State.rxCfgWrite_of_lpAdc hcold hlp hrate) rfl rfl)
  · exact fun hcold hrate => ⟨_, s.becomes_rxCfgWritten n v.toNat, congrArg Host.Outcome.next ((State.writing_of_accepts hacc _).trans (by
      rw [State.rxCfgWrite_of_cold hcold hrate]))⟩

end Sys2Proof.Machine
end

section
/-!
PROOFS. A lane that has been taken down stands still (R134, R139, R140).
-/

namespace Sys2Proof.Machine

set_option Elab.async false

variable {s t u : State} {n : Nat}

/-! ### What a forced drop leaves of a lane (R139, R140) -/

/-- The same state is shown for lane `n`, and the same decisions wait in its receive path. -/
structure State.StateKept (s : State) (n : Nat) (t : State) : Prop where
  rd : ∀ g, g.reg = .LANE_STATE → t.rd g n = s.rd g n
  decided : (t.lane n).rx.decided = (s.lane n).rx.decided

theorem State.StateKept.refl (s : State) (n : Nat) : s.StateKept n s := ⟨fun _ _ => rfl, rfl⟩

theorem State.StateKept.trans (h : s.StateKept n t) (k : t.StateKept n u) : s.StateKept n u := ⟨fun g hg => (k.rd g hg).trans (h.rd g hg), k.decided.trans h.decided⟩

theorem State.StateKept.ite {c : Prop} {_ : Decidable c} (h : s.StateKept n t) (k : s.StateKept n u) : s.StateKept n (if c then t else u) := by
  split
  · exact h
  · exact k

theorem State.LaneSame.stateKept (h : s.LaneSame n t) : s.StateKept n t := ⟨fun g hg => h.rd g (by rw [hg]; rfl), congrArg RxS.decided h.rx⟩

theorem State.StateKept.thenWr (h : s.StateKept n t) (f : Fld) (i v : Nat) (hf : f.reg ≠ .LANE_STATE := by decide) : s.StateKept n (t.wr f i v) :=
  h.trans ⟨fun _ hg => State.rd_wr_ne _ _ (Fld.key_ne_reg (hg ▸ hf.symm)), rfl⟩

theorem State.StateKept.thenPut (h : s.StateKept n t) (f : Fld) (i : Nat) (b : Bool) (hf : f.reg ≠ .LANE_STATE := by decide) : s.StateKept n (t.put f i b) :=
  h.thenWr f i _ hf

theorem State.stateKept_laneMod {f : LaneS → LaneS} (hf : (f (s.lane n)).rx.decided = (s.lane n).rx.decided) : s.StateKept n (s.laneMod n f) :=
  ⟨fun _ _ => rfl, by rw [State.laneMod_eq, State.lane_setLane_self, hf]⟩

theorem State.stateKept_freezeJudge : s.StateKept n (s.freezeJudge n) := by
  have hheld {c : Prop} {_ : Decidable c} (t : State) : t.StateKept n (if c then t.laneMod n fun l => { l with gainFrozen := true } else t) :=
    .ite (State.stateKept_laneMod rfl) (.refl t n)
  have hwindow {c : Prop} {_ : Decidable c} (t : State) : t.StateKept n (if c then t.laneMod n fun l => { l with rx := { l.rx with sq := [] } } else t) :=
    .ite (State.stateKept_laneMod rfl) (.refl t n)
  have htrain {c : Prop} {_ : Decidable c} (t : State) :
      t.StateKept n (if c then t.laneMod n fun l => { l with trainHeld := true, trainWhole := false } else t) := .ite (State.stateKept_laneMod rfl) (.refl t n)
  have hfom {c : Prop} {_ : Decidable c} (t : State) : t.StateKept n (if c then t.laneMod n fun l => { l with fomWhole := false } else t) :=
    .ite (State.stateKept_laneMod rfl) (.refl t n)
  exact (((hheld s).trans (hwindow _)).trans (htrain _)).trans (.ite (.refl _ n) (((hfom _).thenPut F.LANE_RX_STATUS_FROZEN n true).thenWr F.LANE_RX_STATUS_FREEZE_CAUSE n _))

theorem State.stateKept_convLost : s.StateKept n (s.convLost n) := by
  have hconv : s.StateKept n ((s.put F.LANE_RX_STATUS_CONVERGED n false).event F.LANE_RX_EVENT_CONVERGED n) :=
    (((State.StateKept.refl s n).thenPut F.LANE_RX_STATUS_CONVERGED n false).thenPut F.LANE_RX_EVENT_CONVERGED n true).trans
      ((State.Counted.levelEdge ..).beside.laneSame n).stateKept
  exact ((State.StateKept.ite (.refl s n) hconv).trans (State.laneSame_lockLeave ..).stateKept).trans State.stateKept_freezeJudge

theorem State.stateKept_monLeave : s.StateKept n (s.monLeave n) := .ite ((((State.StateKept.refl s n).thenPut ..).thenPut ..).thenPut ..) (.refl s n)

/-! ### A lane that is not Lit stands still -/

/-- A lane that has been taken down: on its way to Cold or there, frozen for its state, with nothing decided. -/
structure State.LaneStopped (t : State) (n : Nat) : Prop where
  req : t.rd F.LANE_STATE_REQ n = 0
  cold : t.rd F.LANE_STATE_CUR n = 0 ∨ t.on F.LANE_STATE_CHANGING n = true
  frozen : t.on F.LANE_RX_STATUS_FROZEN n = true
  cause : t.rd F.LANE_RX_STATUS_FREEZE_CAUSE n = 4
  decided : (t.lane n).rx.decided = []

theorem State.LaneDown.stopped (h : t.LaneDown n) : t.LaneStopped n := ⟨h.req, h.cold, h.frozen, h.cause, congrArg RxS.decided h.rx⟩

theorem State.LaneStopped.kept (h : s.LaneStopped n) (k : s.LaneKept n t) : t.LaneStopped n := by
  rcases k with k | k
  · exact ⟨(k.rd _ rfl).trans h.req, h.cold.imp (k.rd _ rfl).trans (k.on rfl).trans, (k.on rfl).trans h.frozen, (k.rd _ rfl).trans h.cause,
      (congrArg RxS.decided k.rx).trans h.decided⟩
  · exact k.stopped

theorem State.laneLit_eq_false (hreq : s.rd F.LANE_STATE_REQ n = 0) (hcold : s.rd F.LANE_STATE_CUR n = 0 ∨ s.on F.LANE_STATE_CHANGING n = true) : s.laneLit n = false := by
  rw [State.laneLit, hreq]
  rcases hcold with h | h <;> rw [h]
  · rfl
  · exact Bool.and_false _

theorem State.LaneStopped.laneLit (h : s.LaneStopped n) : s.laneLit n = false := State.laneLit_eq_false h.req h.cold

theorem State.LaneStopped.rxOn (h : s.LaneStopped n) : s.rxOn n = false := by
  rw [State.rxOn, h.laneLit, h.req]
  simp

theorem State.LaneStopped.loopsRun (h : s.LaneStopped n) : s.loopsRun n = false := by
  rw [State.loopsRun, State.laneActive, State.trainFreeze, h.laneLit]
  rfl

theorem State.LaneStopped.monFeed (h : s.LaneStopped n) : s.monFeed n = s := by
  have hblock : s.monBlock n = [] := by
    rw [State.monBlock, h.decided]
    rfl
  rw [State.monFeed, hblock]
  exact ite_self s

theorem State.LaneStopped.sqFeed (h : s.LaneStopped n) : s.sqFeed n = s :=
  if_pos (by rw [State.sqHeld, h.frozen, h.cause]; rfl)

end Sys2Proof.Machine
end

section
/-!
PROOFS. A Lit lane that is forced down is stopped, and a read of its words leaves it as it stands or stops it (R139, R418).
-/

namespace Sys2Proof.Machine

set_option Elab.async false

variable {s t u : State} {n : Nat}

/-! ### A Lit lane that is taken down (R139, R140) -/

theorem State.freezeCause_of_not_lit (h : s.laneLit n = false) : s.freezeCause n = 4 := if_pos (by rw [h]; rfl)

theorem State.laneLit_laneModIf {c : Prop} {_ : Decidable c} (f : LaneS → LaneS) : (if c then s.laneMod n f else s).laneLit n = s.laneLit n := by
  split <;> rfl

/-- The freeze of a lane that is not Lit. -/
theorem State.freezeJudge_of_not_lit (h : s.laneLit n = false) :
    ∃ x : State, s.freezeJudge n = (x.put F.LANE_RX_STATUS_FROZEN n true).wr F.LANE_RX_STATUS_FREEZE_CAUSE n 4 := by
  have hend (t : State) (h : t.laneLit n = false) {c : Prop} {_ : Decidable c} (f : LaneS → LaneS) : ∃ x : State, (if t.freezeCause n = 0 then t else
      ((if c then t.laneMod n f else t).put F.LANE_RX_STATUS_FROZEN n true).wr F.LANE_RX_STATUS_FREEZE_CAUSE n ((if c then t.laneMod n f else t).freezeCause n)) =
        (x.put F.LANE_RX_STATUS_FROZEN n true).wr F.LANE_RX_STATUS_FREEZE_CAUSE n 4 := by
    rw [if_neg (by rw [State.freezeCause_of_not_lit h]; decide), State.freezeCause_of_not_lit ((State.laneLit_laneModIf f).trans h)]
    exact ⟨_, rfl⟩
  exact hend _ (by rw [State.laneLit_laneModIf, State.laneLit_laneModIf, State.laneLit_laneModIf, h]) _

theorem State.laneStopped_of_judged (hreq : s.rd F.LANE_STATE_REQ n = 0) (hchanging : s.on F.LANE_STATE_CHANGING n = true) (hdecided : (s.lane n).rx.decided = []) :
    (s.freezeJudge n).LaneStopped n := by
  have hkept : s.StateKept n (s.freezeJudge n) := State.stateKept_freezeJudge
  obtain ⟨x, hx⟩ := State.freezeJudge_of_not_lit (State.laneLit_eq_false hreq (.inr hchanging))
  refine ⟨(hkept.rd _ rfl).trans hreq, .inr ?_, ?_, ?_, hkept.decided.trans hdecided⟩
  · rw [State.on, hkept.rd _ rfl]
    exact hchanging
  · rw [hx, State.on, State.rd_wr_ne _ _ (Fld.key_ne_lo (by decide))]
    exact State.on_put_self x n true
  · rw [hx, State.rd_wr_self]
    rfl

/-- What a lane leaves when it is no longer Lit. -/
theorem State.stateKept_leaveLit : ∃ l : LaneS, l.rx.decided = [] ∧ (s.setLane n l).StateKept n (s.leaveLit n) := by
  have hleave (t : State) : t.StateKept n (((t.convLost n).monLeave n).put F.LANE_MON_SQ_RLM_VALID n false) :=
    (State.stateKept_convLost.trans State.stateKept_monLeave).thenPut ..
  refine ⟨_, ?_, hleave _⟩
  rfl

theorem State.laneGo_of_lit (hcur : s.rd F.LANE_STATE_CUR n = 2) (hreq : s.rd F.LANE_STATE_REQ n = 0) : s.laneGo n =
    ((((((s.put F.LANE_STATE_CHANGING n true).leaveLit n).put F.LANE_TX_STATUS_DAC_CAL n false).laneMod n fun l =>
      { l with wake := .none, windows := 0, asBanked := false }).wr F.LANE_RX_STATUS_ACQ_STEP n 0).freezeJudge n).laneMoved n := by
  unfold State.laneGo
  rw [hcur, hreq]
  rfl

theorem State.laneStopped_laneGo (hcur : s.rd F.LANE_STATE_CUR n = 2) (hreq : s.rd F.LANE_STATE_REQ n = 0) : (s.laneGo n).LaneStopped n := by
  rw [State.laneGo_of_lit hcur hreq]
  obtain ⟨l, hl, hleave⟩ := State.stateKept_leaveLit (s := s.put F.LANE_STATE_CHANGING n true) (n := n)
  have hwake (t : State) : t.StateKept n (t.laneMod n fun l => { l with wake := .none, windows := 0, asBanked := false }) := State.stateKept_laneMod rfl
  have hend := ((hleave.thenPut F.LANE_TX_STATUS_DAC_CAL n false).trans (hwake _)).thenWr F.LANE_RX_STATUS_ACQ_STEP n 0
  refine (State.laneStopped_of_judged ?_ ?_ ?_).kept (State.kept_laneMoved n)
  · rw [hend.rd _ rfl, State.rd_setLane, State.put, State.rd_wr_ne _ _ (Fld.key_ne_lo (by decide)), hreq]
  · rw [State.on, hend.rd _ rfl]
    exact State.on_put_self s n true
  · rw [hend.decided, State.lane_setLane_self, hl]

/-- A forced drop of a Lit lane stops it. -/
theorem State.laneStopped_laneForce (hcur : s.rd F.LANE_STATE_CUR n = 2) (cause : Nat) : (s.laneForce n cause).LaneStopped n := by
  rw [State.laneForce_of_cur_ne (by rw [hcur]; decide)]
  apply State.laneStopped_laneGo
  · rw [State.rd_wr_ne _ _ (Fld.key_ne_lo (by decide)), State.put, State.rd_wr_ne _ _ (Fld.key_ne_lo (by decide)), State.rd_wr_ne _ _ (Fld.key_ne_lo (by decide))]
    exact hcur
  · rw [State.rd_wr_ne _ _ (Fld.key_ne_lo (by decide)), State.put, State.rd_wr_ne _ _ (Fld.key_ne_lo (by decide)), State.rd_wr_self]
    rfl

theorem State.laneStopped_queueOver (hcur : s.rd F.LANE_STATE_CUR n = 2) : (s.queueOver n).LaneStopped n :=
  (State.laneStopped_laneForce hcur 1).kept (State.kept_errorLines _)

/-- A read of a Lit lane's words leaves it as it stands, or stops it. -/
theorem State.laneScan_of_lit (h : s.laneLit n = true) (lo hi : Nat) : s.LaneSame n (s.laneScan n lo hi) ∨ (s.laneScan n lo hi).LaneStopped n := by
  have hread : s.Beside ((s.dataPath n).spanRead 6 (laneWord n lo) (hi - lo) fun w => some (s.laneStored w)).1 :=
    (State.beside_dataPath n).trans (State.beside_spanRead ..)
  have hcur := (hread.rd F.LANE_STATE_CUR n rfl).trans (State.cur_of_laneLit h)
  unfold State.laneScan State.laneLines State.laneMemBad
  dsimp only
  split
  · exact .inr ((State.laneStopped_laneForce hcur 3).kept (State.kept_errorLines _))
  · exact (hread.kept.trans (State.kept_errorLines _)).imp_right State.LaneDown.stopped

/-- A lane still Lit after its words were read is as it stood. -/
theorem State.laneSame_of_scanned {lo hi : Nat} (h : s.laneLit n = true) (hread : (s.laneScan n lo hi).laneLit n = true) : s.LaneSame n (s.laneScan n lo hi) :=
  (State.laneScan_of_lit h lo hi).resolve_right fun hstop => by rw [hstop.laneLit] at hread; cases hread

end Sys2Proof.Machine
end

section
/-!
PROOFS. The elastic queue of a lane and the blocks that pass it (R99, R129).
-/

namespace Sys2Proof.Machine

set_option Elab.async false

variable {s t u : State} {n : Nat}

/-! ### Samples leave the elastic queue alone -/

theorem RxCfg.queue_measure (c : RxCfg) (r : RxS) (d : List Nat) (diff : Nat) : (c.measure r d diff).queue = r.queue := by
  unfold RxCfg.measure
  dsimp only
  split <;> rfl

theorem RxCfg.queue_sample (c : RxCfg) (r : RxS) (x : Nat × Bool) : (c.sample r x).1.queue = r.queue := by
  unfold RxCfg.sample
  dsimp only
  split
  · rfl
  · exact c.queue_measure ..

theorem RxCfg.queue_samples (c : RxCfg) : ∀ (l : List (Nat × Bool)) (r : RxS), (c.samples r l).1.queue = r.queue
  | [], _ => rfl
  | x :: l, r => (c.queue_samples l (c.sample r x).1).trans (c.queue_sample r x)

/-! ### The elastic queue (R99) -/

/-- Lane `n` shows the same state, and the same samples wait in its elastic queue. -/
structure State.QueueKept (s : State) (n : Nat) (t : State) : Prop where
  rd : ∀ g, g.reg = .LANE_STATE → t.rd g n = s.rd g n
  queue : (t.lane n).rx.queue = (s.lane n).rx.queue

theorem State.QueueKept.refl (s : State) (n : Nat) : s.QueueKept n s := ⟨fun _ _ => rfl, rfl⟩

theorem State.QueueKept.trans (h : s.QueueKept n t) (k : t.QueueKept n u) : s.QueueKept n u := ⟨fun g hg => (k.rd g hg).trans (h.rd g hg), k.queue.trans h.queue⟩

theorem State.QueueKept.ite {c : Prop} {_ : Decidable c} (h : s.QueueKept n t) (k : s.QueueKept n u) : s.QueueKept n (if c then t else u) := by
  split
  · exact h
  · exact k

theorem State.LaneSame.queueKept (h : s.LaneSame n t) : s.QueueKept n t := ⟨fun g hg => h.rd g (by rw [hg]; rfl), congrArg RxS.queue h.rx⟩

theorem State.laneLit_congr_state (h : ∀ g, g.reg = .LANE_STATE → t.rd g n = s.rd g n) : t.laneLit n = s.laneLit n := by
  rw [State.laneLit, State.laneLit, State.on, State.on, h F.LANE_STATE_CUR rfl, h F.LANE_STATE_REQ rfl, h F.LANE_STATE_CHANGING rfl]

theorem State.queueKept_monSample (x : MonSample) : s.QueueKept n (s.monSample n x) := by
  have hbump (t : State) {f : Fld} (hf : laneStatusReg f.reg = false) (k : Nat) : t.QueueKept n (t.bump f n k) := (State.LaneSame.wr hf ..).queueKept
  have hst (a v : Nat) : s.QueueKept n (s.st .hist a v) := ⟨fun _ _ => rfl, rfl⟩
  exact .ite (.refl s n) (.ite (hbump s rfl 1) (.ite (.refl s n) ((hst ..).trans (hbump _ rfl 1))))

theorem State.queueKept_eyeFeed : s.QueueKept n (s.eyeFeed n) := by
  have heye (e : List (Nat × Nat × Bool)) : s.QueueKept n (s.laneMod n fun l => { l with rx := { l.rx with eye := e } }) :=
    ⟨fun _ _ => rfl, by rw [State.laneMod_eq, State.lane_setLane_self]⟩
  have hsamples (l : List (Nat × Nat × Bool)) (f : Nat × Nat × Bool → MonSample) (t : State) : t.QueueKept n (l.foldl (fun u e => u.monSample n (f e)) t) :=
    List.foldlRecOn (motive := fun u => t.QueueKept n u) l _ (.refl t n) fun u h e _ => h.trans (State.queueKept_monSample ..)
  exact .ite (.refl s n) ((heye _).trans (hsamples _ _ _))

theorem State.queueKept_laneDeliver (levels : List Nat) : s.QueueKept n (s.laneDeliver n levels) := by
  have hlock (x : LockS) : s.QueueKept n (s.setLock n x) := ⟨fun _ _ => rfl, rfl⟩
  exact .ite (.refl s n) (.ite (hlock _) (hlock _))

/-- A block that leaves the elastic queue. -/
theorem State.rxPass_spec : (∀ g, g.reg = .LANE_STATE → (s.rxPass n).rd g n = s.rd g n) ∧ ((s.rxPass n).lane n).rx.queue = (s.lane n).rx.queue.drop 160 := by
  unfold State.rxPass
  dsimp only
  generalize hx : (s.rxCfg n).samples _ _ = x
  have hqueue : x.1.queue = (s.lane n).rx.queue.drop 160 := by rw [← hx, RxCfg.queue_samples]
  have hfed : (s.laneMod n fun l => { l with rx := x.1.renormalise }).QueueKept n (((s.laneMod n fun l => { l with rx := x.1.renormalise }).eyeFeed n).laneDeliver n x.2) :=
    State.queueKept_eyeFeed.trans (State.queueKept_laneDeliver _)
  refine ⟨fun g hg => hfed.rd g hg, hfed.queue.trans ?_⟩
  rw [State.laneMod_eq, State.lane_setLane_self]
  exact hqueue

/-- What waits in the elastic queue after `q` has waited in it with at least a block or less. -/
def afterBlock (q : List (Nat × Bool)) : List (Nat × Bool) := if 160 ≤ q.length then q.drop 160 else q

theorem State.rxChunk_of_room {b : List (Nat × Bool)} (h : ((s.lane n).rx.queue ++ b).length ≤ 640) :
    (∀ g, g.reg = .LANE_STATE → (s.rxChunk n b).rd g n = s.rd g n) ∧ ((s.rxChunk n b).lane n).rx.queue = afterBlock ((s.lane n).rx.queue ++ b) := by
  set q := (s.lane n).rx.queue ++ b with hq
  have hin : ((s.laneMod n fun l => { l with rx := { (l.rx.count b) with queue := q } }).lane n).rx.queue = q := by
    rw [State.laneMod_eq, State.lane_setLane_self]
  unfold State.rxChunk afterBlock
  rw [← hq, if_neg (Nat.not_lt.2 h)]
  split
  · obtain ⟨hrd, hqueue⟩ := State.rxPass_spec (s := s.laneMod n fun l => { l with rx := { (l.rx.count b) with queue := q } }) (n := n)
    exact ⟨hrd, by rw [hqueue, hin]⟩
  · exact ⟨fun _ _ => rfl, hin⟩

/-- A Lit lane that takes samples is Lit after them, or its elastic queue has overflowed. -/
theorem State.rxChunk_of_lit (h : s.laneLit n = true) (b : List (Nat × Bool)) : (s.rxChunk n b).laneLit n = true ∨ (s.rxChunk n b).LaneStopped n := by
  by_cases hroom : ((s.lane n).rx.queue ++ b).length ≤ 640
  · exact .inl ((State.laneLit_congr_state (State.rxChunk_of_room hroom).1).trans h)
  · have hover : s.rxChunk n b = s.queueOver n := if_pos (Nat.not_le.1 hroom)
    rw [hover]
    exact .inr (State.laneStopped_queueOver (State.cur_of_laneLit h))

theorem State.rxOn_of_lit (h : s.laneLit n = true) : s.rxOn n = true := by
  rw [State.rxOn, h]
  rfl

/-- The samples of an update pass a Lit lane, which stays Lit or is stopped by an overflow. -/
theorem State.rxFeed_of_lit (h : s.laneLit n = true) (xs : List (Nat × Bool)) : (s.rxFeed n xs).laneLit n = true ∨ (s.rxFeed n xs).LaneStopped n := by
  refine List.foldlRecOn (motive := fun t : State => t.laneLit n = true ∨ t.LaneStopped n) _ _ (.inl h) fun t ht b _ => ?_
  rcases ht with ht | ht
  · rw [if_pos (State.rxOn_of_lit ht)]
    exact State.rxChunk_of_lit ht b
  · rw [ht.rxOn]
    exact .inr ht

/-- The samples left when all whole blocks have gone. -/
def lastBlock (q : List (Nat × Bool)) : List (Nat × Bool) := q.drop (160 * (q.length / 160))

theorem length_lastBlock (q : List (Nat × Bool)) : (lastBlock q).length = q.length % 160 := by
  rw [lastBlock, List.length_drop]
  omega

theorem reverse_lastBlock (q : List (Nat × Bool)) : (lastBlock q).reverse = q.reverse.take (lastBlock q).length := by
  rw [length_lastBlock, lastBlock, List.reverse_drop]
  congr 1
  omega

theorem lastBlock_of_short {q : List (Nat × Bool)} (h : q.length < 160) : lastBlock q = q := by
  rw [lastBlock, Nat.div_eq_of_lt h]
  rfl

theorem lastBlock_afterBlock {q r : List (Nat × Bool)} : lastBlock (afterBlock q ++ r) = lastBlock (q ++ r) := by
  unfold afterBlock
  split
  next h =>
    rw [lastBlock, lastBlock, ← List.drop_append_of_le_length h, List.drop_drop, List.length_drop]
    congr 1
    simp only [List.length_append]
    omega
  next => rfl

/-- All samples pass the elastic queue of a Lit lane when less than a block waits. -/
theorem State.queue_rxFeed : ∀ (k : Nat) (xs : List (Nat × Bool)) (s : State), xs.length ≤ k → s.laneLit n = true → (s.lane n).rx.queue.length < 160 →
    (((blocks160 k xs).foldl (fun t b => if t.rxOn n then t.rxChunk n b else t) s).lane n).rx.queue = lastBlock ((s.lane n).rx.queue ++ xs)
  | 0, xs, s, hk, _, hq => by
    obtain rfl := List.length_eq_zero_iff.1 (Nat.le_zero.1 hk)
    rw [List.append_nil, lastBlock_of_short hq]
    rfl
  | k + 1, [], s, _, _, hq => by
    rw [List.append_nil, lastBlock_of_short hq]
    rfl
  | k + 1, x :: xs, s, hk, hlit, hq => by
    set b := (x :: xs).take 160 with hb
    have hlen : b.length ≤ 160 := List.length_take_le ..
    obtain ⟨hrd, hqueue⟩ := State.rxChunk_of_room (s := s) (n := n) (b := b) (by rw [List.length_append]; omega)
    have hshort : ((s.rxChunk n b).lane n).rx.queue.length < 160 := by
      rw [hqueue, afterBlock]
      split
      · rw [List.length_drop, List.length_append]
        omega
      · omega
    have hrest := State.queue_rxFeed k ((x :: xs).drop 160) (s.rxChunk n b) (by simp only [List.length_drop, List.length_cons] at hk ⊢; omega)
      ((State.laneLit_congr_state hrd).trans hlit) hshort
    rw [blocks160, if_neg (by simp), List.foldl_cons, if_pos (State.rxOn_of_lit hlit), hrest, hqueue, lastBlock_afterBlock, List.append_assoc, hb,
      List.take_append_drop]

end Sys2Proof.Machine
end

section
/-!
PROOFS. The update of a lane and of one coefficient (R99, R132, R347).
-/

namespace Sys2Proof.Machine

set_option Elab.async false

variable {s t u : State} {n : Nat}

/-! ### One update of a loop (R132) -/

theorem State.storeOnly_adaptOne (s : State) (n : Nat) (c : RxCfg) (b : List GradSample) (k : Nat) : s.StoreOnly (s.adaptOne n c b k) := by
  unfold State.adaptOne
  dsimp only
  split
  · exact .refl s
  · split
    · exact .refl s
    · exact s.storeOnly_rxStore ..

theorem State.storeOnly_adapt (s : State) (n : Nat) : s.StoreOnly (s.adapt n) := .foldl (fun t _ => t.storeOnly_adaptOne ..) _ s

theorem State.StoreOnly.laneLit (h : s.StoreOnly t) (n : Nat) : t.laneLit n = s.laneLit n :=
  State.laneLit_congr_state fun g hg => h.rd g n (by rw [hg]; decide) (by rw [hg]; decide)

theorem rxCoefWidth_le (k : Nat) : rxCoefWidth k ≤ 32 := by
  unfold rxCoefWidth
  split_ifs <;> decide

theorem clampInt_mem {lo hi : Int} (h : lo ≤ hi) (z : Int) : lo ≤ clampInt lo hi z ∧ clampInt lo hi z ≤ hi := by
  unfold clampInt
  split_ifs <;> omega

/-- A value of 32 bits is read back from its field. -/
theorem sval_sfield {z : Int} (hlo : -(2 : Int) ^ 31 ≤ z) (hhi : z < 2 ^ 31) : sval 32 (sfield 32 z) = z := by
  unfold sval sfield
  dsimp only
  split_ifs <;> omega

theorem sval_mod (v : Nat) : sval 32 (v % 2 ^ Space.rxCoef.width) = sval 32 v := by
  rw [sval, sval, show Space.rxCoef.width = 32 from rfl, Nat.mod_mod]

/-- A value limited to a width is read back from 32 bits within the width. -/
theorem sval_sfield_clampInt {p : Int} (hlo : 1 ≤ p) (hhi : p ≤ 2 ^ 31) (z : Int) :
    -p ≤ sval 32 (sfield 32 (clampInt (-p) (p - 1) z)) ∧ sval 32 (sfield 32 (clampInt (-p) (p - 1) z)) < p := by
  obtain ⟨h1, h2⟩ := clampInt_mem (by omega : -p ≤ p - 1) z
  rw [sval_sfield (by omega) (by omega)]
  exact ⟨h1, by omega⟩

theorem State.ld_writeMark (s : State) (region word : Nat) (sp : Space) (i : Nat) : (s.writeMark region word).ld sp i = s.ld sp i := by
  rcases s.writeMark_cases region word with h | ⟨-, copy, dx, cx, base, h⟩ <;> rw [h] <;> rfl

/-- A word of a lane's memory that is written holds the value, or its row is withheld and it stays. -/
theorem State.ld_memWrite_self (s : State) (region word : Nat) {sp : Space} (hsp : sp ≠ .valid) (i v : Nat) :
    (s.memWrite region word sp i v).ld sp i = s.ld sp i ∨ (s.memWrite region word sp i v).ld sp i = v % 2 ^ sp.width := by
  unfold State.memWrite
  split
  · exact .inl rfl
  · rw [State.ld_writeMark, State.ld_st_self _ _ _ _ hsp]
    exact .inr rfl

/-- A coefficient stays, or takes a value of its width. -/
theorem State.rxCoef_adaptOne (s : State) (n : Nat) (c : RxCfg) (b : List GradSample) (k : Nat) : (s.adaptOne n c b k).rxCoef n k = s.rxCoef n k ∨
    (-(2 : Int) ^ (rxCoefWidth k - 1) ≤ sval 32 ((s.adaptOne n c b k).rxCoef n k) ∧ sval 32 ((s.adaptOne n c b k).rxCoef n k) < 2 ^ (rxCoefWidth k - 1)) := by
  unfold State.adaptOne
  dsimp only
  split
  · exact .inl rfl
  · split
    · exact .inl rfl
    · refine (s.ld_memWrite_self 6 (laneWord n k) (by decide : Space.rxCoef ≠ .valid) (n * 0x10000 + k) _).imp_right fun hld => ?_
      have hlo : (1 : Int) ≤ 2 ^ (rxCoefWidth k - 1) := one_le_pow₀ (by decide)
      have hhi : (2 : Int) ^ (rxCoefWidth k - 1) ≤ 2 ^ 31 := pow_le_pow_right₀ (by decide) (by have := rxCoefWidth_le k; omega)
      rw [State.rxCoef, State.rxStore, hld, sval_mod]
      exact sval_sfield_clampInt hlo hhi _

/-! ### The update of a lane (R99, R132, R347) -/

theorem exec_adaptationUpdate_of_off (n : Fin 48) (xs : List AdcIn) (ps : List (List AdcIn)) (h : s.lanesOff = true) :
    exec (.adaptationUpdate n xs ps) s = .next s := congrArg Host.Outcome.next (if_pos h)

/-- What follows once the samples of an update have passed. -/
def State.updated (s : State) (n : Nat) : State :=
  let s2 := if s.loopsRun n then s.adapt n else s
  if s2.laneLit n then (s2.monFeed n).sqFeed n else s2

theorem State.updated_of_lit (h : s.laneLit n = true) : s.updated n = ((if s.loopsRun n then s.adapt n else s).monFeed n).sqFeed n := by
  have hlit : (if s.loopsRun n then s.adapt n else s).laneLit n = true := by
    split
    · exact ((s.storeOnly_adapt n).laneLit n).trans h
    · exact h
  exact if_pos hlit

theorem State.updated_of_stopped (h : s.LaneStopped n) : s.updated n = ((if s.loopsRun n then s.adapt n else s).monFeed n).sqFeed n := by
  rw [State.updated, h.loopsRun, if_neg Bool.false_ne_true, h.laneLit, h.monFeed, h.sqFeed]
  rfl

theorem exec_adaptationUpdate_of_on (n : Fin 48) (xs : List AdcIn) (ps : List (List AdcIn)) (hoff : s.lanesOff = false) (hon : s.rxOn n = true) :
    exec (.adaptationUpdate n xs ps) s =
      .next (State.updated (((s.laneScan n 0 0x400).eyeTake n (ps.map (s.spareSample n))).rxFeed n (xs.map AdcIn.convert)) n) := by
  refine congrArg Host.Outcome.next ((if_neg (by rw [hoff]; exact Bool.false_ne_true)).trans ?_)
  exact congrArg (fun t : State => t.updated n) (if_pos hon)

theorem exec_adaptationUpdate_of_warm (n : Fin 48) (xs : List AdcIn) (ps : List (List AdcIn)) (hoff : s.lanesOff = false) (hon : s.rxOn n = false)
    (hcur : s.rd F.LANE_STATE_CUR n = 3) : exec (.adaptationUpdate n xs ps) s = .next (State.updated (s.warmFeed n (ps.map (s.spareSample n))) n) := by
  refine congrArg Host.Outcome.next ((if_neg (by rw [hoff]; exact Bool.false_ne_true)).trans ?_)
  exact congrArg (fun t : State => t.updated n) ((if_neg (by rw [hon]; exact Bool.false_ne_true)).trans (if_pos hcur))

theorem State.updated_of_warm (h : s.laneLit n = false) : s.updated n = s := by
  have hrun : s.loopsRun n = false := by
    rw [State.loopsRun, State.laneActive, State.trainFreeze, h]
    rfl
  rw [State.updated, hrun, if_neg Bool.false_ne_true, h]
  rfl

theorem State.queueKept_eyeTake (ps : List (Nat × Bool)) : s.QueueKept n (s.eyeTake n ps) := by
  have heye (e : List (Nat × Nat × Bool)) : s.QueueKept n (s.laneMod n fun l => { l with rx := { l.rx with eye := e } }) :=
    ⟨fun _ _ => rfl, by rw [State.laneMod_eq, State.lane_setLane_self]⟩
  exact .ite (.refl s n) (heye _)

/-- The update of a Lit lane whose words are there. -/
theorem adaptationUpdate_of_lit (n : Fin 48) (xs : List AdcIn) (ps : List (Nat × Bool)) (hlit : s.laneLit n = true) (hread : (s.laneScan n 0 0x400).laneLit n = true) :
    let fed := ((s.laneScan n 0 0x400).eyeTake n ps).rxFeed n (xs.map AdcIn.convert)
    ((s.lane n).rx.queue.length < 160 → (fed.lane n).rx.queue.length = ((s.lane n).rx.queue.length + xs.length) % 160 ∧
      (fed.lane n).rx.queue.reverse = (((s.lane n).rx.queue ++ xs.map AdcIn.convert).reverse).take ((fed.lane n).rx.queue.length)) ∧
    fed.updated n = ((if fed.loopsRun n then fed.adapt n else fed).monFeed n).sqFeed n := by
  have htaken := (State.laneSame_of_scanned hlit hread).queueKept.trans (State.queueKept_eyeTake ps)
  have hstill := (State.laneLit_congr_state htaken.rd).trans hlit
  refine ⟨fun hq => ?_, ?_⟩
  · have hqueue := State.queue_rxFeed (n := n) _ (xs.map AdcIn.convert) _ (Nat.le_refl _) hstill (by rw [htaken.queue]; exact hq)
    rw [htaken.queue] at hqueue
    refine ⟨?_, ?_⟩
    · rw [State.rxFeed, hqueue, length_lastBlock, List.length_append, List.length_map]
    · rw [State.rxFeed, hqueue]
      exact reverse_lastBlock _
  · exact (State.rxFeed_of_lit hstill _).elim State.updated_of_lit State.updated_of_stopped

end Sys2Proof.Machine
end

section
/-!
PROOFS. Snapshots of coefficients, and divergence (R133, R135).
-/

namespace Sys2Proof.Machine

set_option Elab.async false

variable {s t u : State} {n : Nat}

/-! ### Snapshots of coefficients (R135) -/

/-- The coefficients of lane `n` at the indices `l` copied into its snapshot. -/
def State.snapTaken (s : State) (n : Nat) (l : List Nat) : State := l.foldl (fun t k => t.st .rxSnap (n * 0x10000 + k) (t.rxCoef n k)) s

theorem State.snapTaken_cons (s : State) (n k : Nat) (l : List Nat) :
    s.snapTaken n (k :: l) = (s.st .rxSnap (n * 0x10000 + k) (s.rxCoef n k)).snapTaken n l := rfl

theorem State.ld_snapTaken_ne (n : Nat) {sp : Space} {j : Nat} (hsp : sp ≠ .valid) (l : List Nat) (s : State) (h : sp ≠ .rxSnap ∨ ∀ k ∈ l, j ≠ n * 0x10000 + k) :
    (s.snapTaken n l).ld sp j = s.ld sp j := by
  induction l generalizing s with
  | nil => rfl
  | cons k l ih =>
    rw [State.snapTaken_cons, ih _ (h.imp_right fun h i hi => h i (List.mem_cons_of_mem _ hi))]
    exact State.ld_st_ne s _ (h.imp_right fun h => h k List.mem_cons_self) hsp

theorem State.ld_snapTaken (n : Nat) (l : List Nat) (s : State) {k : Nat} (hk : k ∈ l) : (s.snapTaken n l).ld .rxSnap (n * 0x10000 + k) =
    s.rxCoef n k % 2 ^ Space.rxSnap.width := by
  induction l generalizing s with
  | nil => cases hk
  | cons i l ih =>
    have hkeep : (s.st .rxSnap (n * 0x10000 + i) (s.rxCoef n i)).rxCoef n k = s.rxCoef n k := State.ld_st_ne s _ (.inl (by decide)) (by decide)
    rw [State.snapTaken_cons]
    by_cases hmem : k ∈ l
    · rw [ih _ hmem, hkeep]
    · obtain rfl : k = i := (List.mem_cons.1 hk).resolve_right hmem
      rw [State.ld_snapTaken_ne n (by decide) l _ (.inr fun i hi e => hmem (by rwa [Nat.add_left_cancel e]))]
      exact State.ld_st_self _ _ _ _ (by decide)

theorem State.snapTaken_mem (n : Nat) (l : List Nat) (s : State) : ∃ m, s.snapTaken n l = { s with mem := m } := by
  induction l generalizing s with
  | nil => exact ⟨s.mem, rfl⟩
  | cons k l ih => exact ih (s.st .rxSnap (n * 0x10000 + k) (s.rxCoef n k))

theorem lt_of_mem_loopRange {k : Nat} (h : k ∈ loopRange) : k < 0x10000 := by
  rcases List.mem_append.1 h with h | h
  · exact (List.mem_range.1 h).trans (by decide)
  · obtain ⟨i, hi, rfl⟩ := List.mem_map.1 h
    have := List.mem_range.1 hi
    omega

/-- A snapshot of a lane whose SNR is not low. -/
theorem coefSnapshot_spec (n : Fin 48) (hactive : s.laneActive n = true) (hsnr : s.rd F.LANE_RX_FOM_THR_LOW_SNR n ≤ s.rd F.LANE_RX_FOM_SNR n) :
    Does (.coefSnapshot n) s fun t =>
      (∀ k, k ∈ loopRange → t.ld .rxSnap (n.val * 0x10000 + k) = s.ld .rxCoef (n.val * 0x10000 + k) % 2 ^ Space.rxSnap.width) ∧
      (∀ sp j, sp ≠ .valid → (sp ≠ .rxSnap ∨ j / 0x10000 ≠ n.val) → t.ld sp j = s.ld sp j) ∧
      t = { s.setLane n { s.lane n with snapshot := true } with mem := t.mem } := by
  obtain ⟨m, hm⟩ := State.snapTaken_mem n.val loopRange s
  have hlane : (s.snapTaken n loopRange).lane n = s.lane n := (congrArg (fun z : State => z.lane n) hm :)
  have hexec : exec (.coefSnapshot n) s = .next ((s.snapTaken n loopRange).laneMod n fun l => { l with snapshot := true }) :=
    congrArg Host.Outcome.next (if_pos (by rw [hactive, decide_eq_true hsnr]; rfl))
  rw [State.laneMod_eq, hlane] at hexec
  refine ⟨_, hexec, fun k hk => ?_, fun sp j hsp h => ?_, ?_⟩
  · rw [State.ld_setLane]
    exact State.ld_snapTaken n _ s hk
  · rw [State.ld_setLane]
    refine State.ld_snapTaken_ne n hsp _ s (h.imp_right fun h k hk e => h ?_)
    have := lt_of_mem_loopRange hk
    omega
  · generalize s.snapTaken n loopRange = x at hm
    subst hm
    rfl

/-! ### Divergence (R133, R135) -/

theorem exec_laneDiverged (n : Fin 48) (hactive : s.laneActive n = true) (hsnr : s.rd F.LANE_RX_FOM_SNR n < s.rd F.LANE_RX_FOM_THR_LOW_SNR n) :
    exec (.laneDiverged n) s = .next (if (s.lane n).snapshot then
      (((((loopRange.foldl (fun t k => t.rxStore n k (t.ld .rxSnap (n.val * 0x10000 + k))) s).laneMod n fun l => { l with acqGear := true }).event
        F.LANE_RX_EVENT_DIVERGED n).put F.LANE_RX_STATUS_DIVERGED n true).convLost n).laneMoved n
      else ((s.laneMod n fun l => { l with wake := .full }).acqFreq n).laneMoved n) :=
  congrArg Host.Outcome.next (if_pos (by rw [hactive, decide_eq_true hsnr]; rfl))

theorem laneDiverged_anew (n : Fin 48) (hactive : s.laneActive n = true) (hsnr : s.rd F.LANE_RX_FOM_SNR n < s.rd F.LANE_RX_FOM_THR_LOW_SNR n)
    (hsnap : (s.lane n).snapshot = false) : DoesThen (.laneDiverged n) s (·.laneMoved n) fun u =>
      (s.setLane n { s.lane n with wake := .full, acqWindows := 0 }).Becomes u [(F.LANE_RX_STATUS_ACQ_STEP, n, 5)] false := by
  refine ⟨_, ((State.Becomes.refl s false).thenWr F.LANE_RX_STATUS_ACQ_STEP n 5 (by decide)).setLane n _, ?_⟩
  rw [exec_laneDiverged n hactive hsnr, hsnap, if_neg Bool.false_ne_true, State.laneMod_eq, State.acqFreq_setLane]

theorem laneDiverged_restored (n : Fin 48) (hactive : s.laneActive n = true) (hsnr : s.rd F.LANE_RX_FOM_SNR n < s.rd F.LANE_RX_FOM_THR_LOW_SNR n)
    (hsnap : (s.lane n).snapshot = true) :
    let s1 := loopRange.foldl (fun t k => t.rxStore n k (t.ld .rxSnap (n.val * 0x10000 + k))) s
    DoesThen (.laneDiverged n) s (fun u => (u.convLost n).laneMoved n) fun u =>
      (s1.setLane n { s1.lane n with acqGear := true }).Becomes u [(F.LANE_RX_EVENT_DIVERGED, n, 1), (F.LANE_RX_STATUS_DIVERGED, n, 1)] true := by
  refine ⟨_, ((State.Becomes.refl _ true).thenEvent F.LANE_RX_EVENT_DIVERGED n).thenPut F.LANE_RX_STATUS_DIVERGED n true, ?_⟩
  rw [exec_laneDiverged n hactive hsnr, hsnap, if_pos rfl]
  rfl

end Sys2Proof.Machine
end

section
/-!
PROOFS. Wake windows, convergence and timeouts, and the obligation on convergence (R143 to R145).
-/

namespace Sys2Proof.Machine

set_option Elab.async false

variable {s t u : State} {n : Nat}

/-! ### Wake windows (R143) -/

/-- The wake check of R143 runs on a lane that has not converged. -/
def State.wakeRuns (s : State) (n : Nat) : Prop :=
  ((s.lane n).wake = .fromBanked ∧ s.rd F.LANE_STATE_CUR n = 2 ∧ s.on F.LANE_STATE_CHANGING n = false) ∨
    ((s.lane n).wake = .fromWarm ∧ s.rd F.LANE_STATE_CUR n = 3 ∧ s.rd F.LANE_STATE_REQ n = 2 ∧ s.on F.LANE_STATE_CHANGING n = true)

theorem State.wakeChecks_of_runs (h : s.wakeRuns n) (hconv : s.on F.LANE_RX_STATUS_CONVERGED n = false) : s.wakeChecks n = true := by
  rw [State.wakeChecks, hconv]
  rcases h with ⟨hw, hcur, hchg⟩ | ⟨hw, hcur, hreq, hchg⟩
  · rw [hw, hcur, hchg]
    rfl
  · rw [hw, State.rxOn, hcur, hreq, hchg]
    simp

theorem State.wakePass_iff : s.wakePass n = true ↔ 0 < (s.lane n).rx.wake.count ∧ s.on F.LANE_RX_STATUS_CDR_LOCK n = true ∧
    s.rd F.LANE_RX_FOM_THR_LOW_SNR n ≤ (s.lane n).rx.wake.snr ∧ (s.lane n).rx.wake.snr ≤ (s.lane n).keptSnr + 5 ∧ (s.lane n).keptSnr ≤ (s.lane n).rx.wake.snr + 5 := by
  simp only [State.wakePass, Bool.and_eq_true, decide_eq_true_eq, snrNear_iff, and_assoc]

/-- The lane with `k` passing wake windows behind it and a new one begun. -/
def State.wakeNext (s : State) (n k : Nat) : State := s.setLane n { s.lane n with windows := k, rx := { (s.lane n).rx with wake := SnrSum.init } }

theorem exec_wakeWindowEnd (n : Fin 48) {k : Nat} (h : s.wakeChecks n = true) (hk : (if s.wakePass n then (s.lane n).windows + 1 else 0) = k) :
    exec (.wakeWindowEnd n) s = .next (if 3 ≤ k then (s.wakeNext n k).convGot n else s.wakeNext n k) := by
  have hnext : (s.laneMod n fun l => { l with rx := { l.rx with wake := SnrSum.init } }).laneMod n (fun l => { l with windows := k }) = s.wakeNext n k := by
    rw [State.laneMod_eq, State.laneMod_eq, State.lane_setLane_self, State.setLane_setLane]
    rfl
  rw [← hnext, ← hk]
  exact congrArg Host.Outcome.next (if_pos h)

theorem wakeWindowEnd_spec (n : Fin 48) (hruns : s.wakeRuns n) (hconv : s.on F.LANE_RX_STATUS_CONVERGED n = false) :
    let pass := 0 < (s.lane n).rx.wake.count ∧ s.on F.LANE_RX_STATUS_CDR_LOCK n = true ∧ s.rd F.LANE_RX_FOM_THR_LOW_SNR n ≤ (s.lane n).rx.wake.snr ∧
      (s.lane n).rx.wake.snr ≤ (s.lane n).keptSnr + 5 ∧ (s.lane n).keptSnr ≤ (s.lane n).rx.wake.snr + 5
    (¬ pass → exec (.wakeWindowEnd n) s = .next (s.wakeNext n 0)) ∧
    (pass → (s.lane n).windows < 2 → exec (.wakeWindowEnd n) s = .next (s.wakeNext n ((s.lane n).windows + 1))) ∧
    (pass → 2 ≤ (s.lane n).windows → exec (.wakeWindowEnd n) s = .next ((s.wakeNext n ((s.lane n).windows + 1)).convGot n)) := by
  have hchecks := State.wakeChecks_of_runs hruns hconv
  refine ⟨fun hno => ?_, fun hpass hfew => ?_, fun hpass hmany => ?_⟩
  · rw [exec_wakeWindowEnd n hchecks (if_neg fun h => hno (State.wakePass_iff.1 h)), if_neg (by omega)]
  · rw [exec_wakeWindowEnd n hchecks (if_pos (State.wakePass_iff.2 hpass)), if_neg (by omega)]
  · rw [exec_wakeWindowEnd n hchecks (if_pos (State.wakePass_iff.2 hpass)), if_pos (by omega)]

/-! ### Convergence after acquisition (R143) -/

theorem State.snrSteady_of {a : Nat} {rest : List Nat} (hsnrs : (s.lane n).rx.snrs = a :: rest) (hlen : 10 ≤ rest.length)
    (hlow : s.rd F.LANE_RX_FOM_THR_LOW_SNR n ≤ a) (hnear : ∀ b ∈ rest.take 10, b < a + 2 ∧ a < b + 2) : s.snrSteady n = true := by
  rw [State.snrSteady, hsnrs]
  simp only [List.length_cons, List.headD_cons, List.take_succ_cons, List.all_cons, Bool.and_eq_true, List.all_eq_true]
  exact ⟨⟨decide_eq_true (by omega), decide_eq_true hlow⟩, decide_eq_true (by omega), fun b hb => decide_eq_true (hnear b hb)⟩

theorem exec_laneConverged (n : Fin 48) (hreq : s.rd F.LANE_STATE_REQ n = 2) (hlit : s.laneLit n = true) (hwake : (s.lane n).wake = .full ∨ (s.lane n).wake = .none)
    (hconv : s.on F.LANE_RX_STATUS_CONVERGED n = false) (hlock : s.on F.LANE_RX_STATUS_CDR_LOCK n = true) (hstep : 5 ≤ s.rd F.LANE_RX_STATUS_ACQ_STEP n)
    (hsteady : s.snrSteady n = true) : exec (.laneConverged n) s = .next (s.convGot n) := by
  have hfrom : (s.lane n).wake ≠ .fromBanked ∧ (s.lane n).wake ≠ .fromWarm := by
    rcases hwake with h | h <;> rw [h] <;> exact ⟨by decide, by decide⟩
  exact congrArg Host.Outcome.next (if_pos ⟨⟨hreq, .inl hlit⟩, hfrom.1, hfrom.2, by rw [hconv]; rfl, hlock, hstep, hsteady⟩)

theorem State.Becomes.setLock {l : List (Fld × Nat × Nat)} {ev : Bool} (h : s.Becomes t l ev) (m : Nat) (x : LockS) : (s.setLock m x).Becomes (t.setLock m x) l ev := by
  obtain ⟨hread, hframe, more, ht, hmore⟩ := State.becomes_iff.1 h
  exact State.becomes_iff.2 ⟨hread, hframe, more, congrArg (fun z : State => z.setLock m x) ht, hmore⟩

theorem State.Becomes.lockOf {l : List (Fld × Nat × Nat)} {ev : Bool} (h : s.Becomes t l ev) (m : Nat) : t.lockOf m = s.lockOf m := by
  obtain ⟨-, -, more, ht, -⟩ := State.becomes_iff.1 h
  exact (congrArg (fun z : State => z.lockOf m) ht :)

/-- The record of a lane that converges. -/
def LaneS.converge (l : LaneS) : LaneS := { l with wake := .none, windows := 0, acqGear := false, coefKept := true }

/-- What a lane that converges shows, before its lock is searched for. -/
def State.convShown (s : State) (n : Nat) : State :=
  (((s.laneBit n F.LANE_RX_STATUS_CONVERGED F.LANE_RX_EVENT_CONVERGED true).put F.LANE_RX_STATUS_DIVERGED n false).wr F.LANE_RX_STATUS_ACQ_STEP n 9).laneMod n
    LaneS.converge

theorem State.convGot_eq (s : State) (n : Nat) : s.convGot n =
    ((if ((s.convShown n).lockOf n).lock = .idle then (s.convShown n).setLock n { (s.convShown n).lockOf n with lock := .search }
      else s.convShown n).freezeJudge n).laneMoved n := rfl

theorem State.becomes_convShown (hconv : s.on F.LANE_RX_STATUS_CONVERGED n = false) : (s.setLane n (s.lane n).converge).Becomes (s.convShown n)
    [(F.LANE_RX_STATUS_CONVERGED, n, 1), (F.LANE_RX_EVENT_CONVERGED, n, 1), (F.LANE_RX_STATUS_DIVERGED, n, 0), (F.LANE_RX_STATUS_ACQ_STEP, n, 9)] true := by
  have hbit : s.Becomes (s.laneBit n F.LANE_RX_STATUS_CONVERGED F.LANE_RX_EVENT_CONVERGED true) [(F.LANE_RX_STATUS_CONVERGED, n, 1), (F.LANE_RX_EVENT_CONVERGED, n, 1)] true :=
    State.becomes_track (by rw [hconv]; decide)
  have hnow := (hbit.thenPut F.LANE_RX_STATUS_DIVERGED n false).thenWr F.LANE_RX_STATUS_ACQ_STEP n 9 (by decide)
  rw [State.convShown, State.laneMod_eq, hnow.lane]
  exact hnow.setLane n _

/-- A lane converges; its marker search starts where it was idle. -/
theorem State.convGot_spec (hconv : s.on F.LANE_RX_STATUS_CONVERGED n = false) :
    let got := s.setLane n (s.lane n).converge
    let now := [(F.LANE_RX_STATUS_CONVERGED, n, 1), (F.LANE_RX_EVENT_CONVERGED, n, 1), (F.LANE_RX_STATUS_DIVERGED, n, 0), (F.LANE_RX_STATUS_ACQ_STEP, n, 9)]
    ∃ x : State, s.convGot n = (x.freezeJudge n).laneMoved n ∧ ((s.lockOf n).lock ≠ .idle → got.Becomes x now true) ∧
      ((s.lockOf n).lock = .idle → (got.setLock n { s.lockOf n with lock := .search }).Becomes x now true) := by
  have hshown := State.becomes_convShown hconv
  have hlock : (s.convShown n).lockOf n = s.lockOf n := hshown.lockOf n
  refine ⟨_, s.convGot_eq n, fun h => ?_, fun h => ?_⟩
  · rw [hlock, if_neg h]
    exact hshown
  · rw [hlock, if_pos h]
    exact hshown.setLock n _

/-! ### Timeouts (R144, R145) -/

theorem acqTimeout_spec (n : Fin 48) (hwake : (s.lane n).wake = .full) (hreq : s.rd F.LANE_STATE_REQ n = 2) (hcur : 2 ≤ s.rd F.LANE_STATE_CUR n)
    (hconv : s.on F.LANE_RX_STATUS_CONVERGED n = false) (hstep : 3 ≤ s.rd F.LANE_RX_STATUS_ACQ_STEP n) :
    DoesThen (.acqTimeout n) s (·.acqSweep n) fun u => s.Becomes u [(F.LANE_RX_EVENT_ACQ_TIMEOUT, n, 1)] true :=
  ⟨_, (State.Becomes.refl s true).thenEvent F.LANE_RX_EVENT_ACQ_TIMEOUT n,
    congrArg Host.Outcome.next (if_pos ⟨hwake, hreq, hcur, by rw [hconv]; rfl, hstep⟩)⟩

theorem wakeFallback_spec (n : Fin 48) (hwake : (s.lane n).wake = .fromBanked ∨ (s.lane n).wake = .fromWarm) (hconv : s.on F.LANE_RX_STATUS_CONVERGED n = false)
    (hcur : 2 ≤ s.rd F.LANE_STATE_CUR n) : Does (.wakeFallback n) s fun t =>
      (s.setLane n { s.lane n with wake := .full, windows := 0, acqWindows := 0 }).Becomes t
        [(F.LANE_RX_EVENT_ACQ_TIMEOUT, n, 1), (F.LANE_RX_STATUS_ACQ_STEP, n, 5)] true := by
  have hexec : exec (.wakeFallback n) s = .next (((s.laneMod n fun l => { l with wake := .full, windows := 0 }).event F.LANE_RX_EVENT_ACQ_TIMEOUT n).acqFreq n) :=
    congrArg Host.Outcome.next (if_pos ⟨hwake, by rw [hconv]; rfl, hcur⟩)
  refine ⟨_, hexec, ?_⟩
  have hevent := ((State.Becomes.refl (s.laneMod n fun l => { l with wake := .full, windows := 0 }) true).thenEvent F.LANE_RX_EVENT_ACQ_TIMEOUT n).thenWr
    F.LANE_RX_STATUS_ACQ_STEP n 5 (by decide)
  have hfreq (t : State) : t.acqFreq n = (t.wr F.LANE_RX_STATUS_ACQ_STEP n 5).setLane n { (t.wr F.LANE_RX_STATUS_ACQ_STEP n 5).lane n with acqWindows := 0 } := rfl
  have hlane : (s.laneMod n fun l => { l with wake := .full, windows := 0 }).lane n = { s.lane n with wake := .full, windows := 0 } := by
    rw [State.laneMod_eq, State.lane_setLane_self]
  have hset := hevent.setLane n { s.lane n with wake := .full, windows := 0, acqWindows := 0 }
  rw [State.laneMod_eq s, State.setLane_setLane, ← State.laneMod_eq s n fun l => { l with wake := .full, windows := 0 }] at hset
  rw [hfreq, hevent.lane, hlane]
  exact hset

/-! ### The whole obligation -/

/-- Settles O33, command by command. The update of a Lit lane turns on two facts: a read of its words leaves it as it stands or stops it, and so does every block
of its samples; a stopped lane has nothing decided and is frozen for its state, so that nothing more reaches its loops, its monitor or its window. -/
theorem laneConvergence : Obligations.LaneConvergence := by
  unfold Obligations.LaneConvergence
  intro s n xs ps
  dsimp only
  refine ⟨exec_adaptationUpdate_of_off n xs ps, fun hoff hlit hread => ?_, fun c b k => s.rxCoef_adaptOne n c b k, fun hoff hon hcur => ?_, coefSnapshot_spec n,
    fun hactive hsnr => ⟨laneDiverged_anew n hactive hsnr, laneDiverged_restored n hactive hsnr⟩, wakeWindowEnd_spec n,
    fun hreq hlit hwake hconv hlock hstep a rest hsnrs hlen hlow hnear =>
      exec_laneConverged n hreq hlit hwake hconv hlock hstep (State.snrSteady_of hsnrs hlen hlow hnear), State.convGot_spec,
    acqTimeout_spec n, wakeFallback_spec n⟩
  · obtain ⟨hqueue, hupdated⟩ := adaptationUpdate_of_lit n xs (ps.map (s.spareSample n)) hlit hread
    refine ⟨hqueue, ?_⟩
    rw [exec_adaptationUpdate_of_on n xs ps hoff (State.rxOn_of_lit hlit), hupdated]
    rfl
  · have hlit : s.laneLit n = false := by
      rw [State.laneLit, hcur]
      rfl
    have hwarm : (s.warmFeed n (ps.map (s.spareSample n))).updated n = s.warmFeed n (ps.map (s.spareSample n)) := State.updated_of_warm hlit
    rw [exec_adaptationUpdate_of_warm n xs ps hoff hon hcur, hwarm]
    rfl

end Sys2Proof.Machine
end

section
/-!
PROOFS. A COMMIT that meets an uncorrectable word, with a chip reset that a merge asks for on the way to Cold (R139, R157, R428, R441): what the statement says of the drop fails.
-/

namespace Sys2Proof.Machine

set_option Elab.async false

variable {s t u : State} {n : Nat}

/-! ### What a forced drop shows while error lines rise (R139, R441) -/

/-- Lane `n` shows a forced drop, or a block reset is in progress. -/
def State.ForcedOrReset (s : State) (n : Nat) : Prop := s.on F.LANE_STATE_FORCED n = true ∨ s.blockResets ≠ []

theorem State.ForcedOrReset.beside (h : s.ForcedOrReset n) (k : s.Beside t) : t.ForcedOrReset n :=
  h.imp (((k.laneSame n).on rfl).trans ·) (k.blockResets ▸ ·)

theorem State.forcedOrReset_blockReset (s : State) (src inst n : Nat) : (s.blockReset src inst).ForcedOrReset n := .inr (List.concat_ne_nil _ _)

theorem State.ForcedOrReset.reactReset (h : s.ForcedOrReset n) (src i : Nat) : (s.reactReset src i).ForcedOrReset n := by
  unfold State.reactReset
  split
  · exact (State.forcedOrReset_blockReset ..).beside .of_fields
  · exact h

theorem State.ForcedOrReset.sourceRise (h : s.ForcedOrReset n) (won : Bool) (src : Nat) (insts : List Nat) (inst cause : Nat) :
    (s.sourceRise won src insts inst cause).1.ForcedOrReset n := by
  have hcount : (s.perf (0x200 + src) insts.length).ForcedOrReset n := h.beside (State.beside_perf ..)
  unfold State.sourceRise
  dsimp only
  split
  · exact hcount
  · have hreact (up : Bool) (word : Nat) := hcount.beside
      ((State.beside_reactVote src).trans ((State.beside_latch src inst cause).trans (State.beside_reactFirst up src word)))
    have hresets (t : State) (ht : t.ForcedOrReset n) (c : Bool) : State.ForcedOrReset (if c then insts.foldl (fun t i => t.reactReset src i) t else t) n := by
      split
      · exact List.foldlRecOn (motive := fun t : State => t.ForcedOrReset n) _ _ ht fun t ht i _ => ht.reactReset src i
      · exact ht
    exact (hresets _ (hreact ..) _).beside (.ite (State.beside_aliveStop _) (.refl _))

theorem State.ForcedOrReset.raiseAll (fuel : Nat) (h : s.ForcedOrReset n) (won : List Nat) (asked : Option Nat) (lines : List Line) :
    (State.raiseAll fuel s won asked lines).1.ForcedOrReset n := by
  induction fuel generalizing s won asked lines with
  | zero => exact h
  | succ fuel ih =>
    unfold State.raiseAll
    split
    · exact h
    · split
      · exact h
      · exact ih (h.sourceRise ..) ..

/-- A chip reset for `cause` is held, and nothing has been counted since. -/
structure State.HeldReset (t : State) (cause : Nat) : Prop where
  cause : t.resetCause = some cause
  counted : t.perfPipe = []
  retrain : t.retrainAfter = false

theorem State.journal_journalAdd (s : State) (kind : Nat) (detail : List Nat) : (s.journalAdd kind detail).journal ≠ [] := by
  unfold State.journalAdd
  rw [ne_eq, List.drop_eq_nil_iff, not_le]
  exact Nat.sub_lt (by simp) (Nat.succ_pos _)

theorem State.journal_released (s : State) (cause : Nat) : (s.released cause).journal ≠ [] := by
  unfold State.released
  exact State.journal_journalAdd _ _ _

/-- A chip reset is released, with its entry in the journal, or held (R516, R518, R534). -/
theorem State.resetFor_cases (s : State) (cause : Nat) : (s.resetFor cause).journal ≠ [] ∨ (s.resetFor cause).HeldReset cause := by
  unfold State.resetFor
  split
  · exact .inl (State.journal_released _ _)
  · exact .inr ⟨rfl, rfl, rfl⟩

theorem State.ForcedOrReset.errorLines (h : s.ForcedOrReset n) (lines : List Line) :
    (s.errorLines lines).ForcedOrReset n ∨ (s.errorLines lines).journal ≠ [] ∨ (s.errorLines lines).HeldReset 2 := by
  unfold State.errorLines State.errorLinesWon
  dsimp only
  split
  · exact .inr ((State.resetFor_cases _ 2).imp id fun k => ⟨k.cause, k.counted, k.retrain⟩)
  · exact .inl (h.raiseAll ..)

/-! ### What follows the answer (R390, R518) -/

theorem State.beside_linkState (st : Nat) : s.Beside (s.linkState st) := by
  have hmoved : s.Beside { s.wr F.TINDER_STATUS_STATE 0 st with linkAt := s.time, downAt := if s.linkActive then s.time else s.downAt } :=
    ((State.Beside.refl s).thenWr F.TINDER_STATUS_STATE 0 st).trans .of_fields
  exact .ite (.refl s) (hmoved.trans (State.beside_irq 486))

theorem State.beside_linkReset : s.Beside s.linkReset := by
  unfold State.linkReset
  dsimp only
  exact .trans (.ite ((State.Beside.refl s).thenBump F.TINDER_STATUS_RETRAINS 0 1) (.refl s)) ((State.beside_linkState 0).trans .of_fields)

theorem State.journal_linkState (s : State) (st : Nat) : (s.linkState st).journal = s.journal := by
  unfold State.linkState
  split
  · rfl
  · exact (congrArg State.journal (State.Counted.irq _ 486).onlyRegs.1 :)

theorem State.journal_linkReset (s : State) : s.linkReset.journal = s.journal := by
  unfold State.linkReset
  dsimp only
  rw [State.journal_linkState]
  split <;> rfl

/-- The retrain that an answer brings about. -/
def State.retrained (s : State) : State := if s.retrainAfter then { s with retrainAfter := false }.linkReset else s

theorem State.settle_eq (s : State) : s.settle = if s.retrained.resetAfter then { s.retrained with resetAfter := false }.resetFor 3 else s.retrained := rfl

theorem State.retrained_of_not (h : s.retrainAfter = false) : s.retrained = s := if_neg (by rw [h]; decide)

theorem State.beside_retrained : s.Beside s.retrained := .ite (.trans .of_fields State.beside_linkReset) (.refl s)

theorem State.journal_retrained (s : State) : s.retrained.journal = s.journal := by
  unfold State.retrained
  split
  · exact State.journal_linkReset _
  · rfl

/-- What an answer brings about is a chip reset, released or held, or the retrain alone. -/
theorem State.settle_cases (s : State) : s.settle.journal ≠ [] ∨ s.settle.HeldReset 3 ∨ s.settle = s.retrained := by
  rw [State.settle_eq]
  generalize s.retrained = r
  split
  · exact (State.resetFor_cases _ 3).imp id .inl
  · exact .inr (.inr rfl)

/-! ### The refutation -/

/-- A chip reset is held that took lane `n`'s forced drop with it, and something has been counted since. -/
structure State.HeldEarlier (t : State) (n : Nat) : Prop where
  forced : t.on F.LANE_STATE_FORCED n = false
  blocks : t.blockResets = []
  counted : t.perfPipe ≠ []
  journal : t.journal = []
  cause : t.resetCause = some 2

theorem State.HeldEarlier.not_forcedOrReset (h : t.HeldEarlier n) : ¬ t.ForcedOrReset n := by
  rintro (k | k)
  · rw [h.forced] at k
    cases k
  · exact k h.blocks

/-- A forced drop that stands when an error line rises is not what `HeldEarlier` says: a chip reset of that line comes after all that is counted. -/
theorem State.not_heldEarlier_settle (h : u.on F.LANE_STATE_FORCED n = true) (lines : List Line) (st : Status) (v : Nat) :
    ¬ (((u.errorLines lines).answer st v).settle).HeldEarlier n := by
  intro held
  generalize hw : (u.errorLines lines).answer st v = w at held
  have hcases : w.ForcedOrReset n ∨ w.journal ≠ [] ∨ w.HeldReset 2 := by
    subst hw
    exact (State.ForcedOrReset.errorLines (.inl h) lines).imp (·.beside .of_fields) (.imp id fun k => ⟨k.cause, k.counted, k.retrain⟩)
  rcases w.settle_cases with hreset | hreset | hretrain
  · exact hreset held.journal
  · have h23 : some 3 = some 2 := hreset.cause.symm.trans held.cause
    exact absurd h23 (by decide)
  · rw [hretrain] at held
    rcases hcases with hforced | hwritten | hheld
    · exact held.not_forcedOrReset (hforced.beside State.beside_retrained)
    · exact hwritten (w.journal_retrained.symm.trans held.journal)
    · rw [State.retrained_of_not hheld.retrain] at held
      exact held.counted hheld.counted

/-- Lane 47 is Banked, a row of its shadow bank withheld. SEQ 1 of the lossless tunnel 0 is missing past its deadline, so that a merge sends a RESEND, for which it reads the words of key
slot 0: two of three copies are lost, and source 28 is set to reset the chip, which TEST_EN holds (R314, R428, R441, R534). -/
def mergeResets : State :=
  let s := [(F.KILN_REG_STATE, 134), (F.KILN_REG_STATE, 47), (F.LANE_STATE_CUR, 47), (F.LANE_STATE_REQ, 47), (F.FAULT_REACT_CHIP_RESET, 28), (F.PROT_TUN_CFG_LOSSLESS, 0)].foldl
    (fun t (w : Fld × Nat) => t.wr w.1 w.2 1) (State.reset.wr F.KEY_DESC_STATE 0 2)
  { s.setProt 0 { ProtT.init with arrivals := [(1, 0, 0)], expired := [1] } with
    testEn := true
    withheld := [⟨6, 47 * 0x800 + 0x680, 1⟩]
    marks := [⟨10, tvKey 0, 1, 3, 0, 0⟩, ⟨10, tvKey 0, 2, 3, 0, 0⟩] }

/-- Whether an outcome is a next state as `HeldEarlier` says. -/
def heldEarlierAfter (n : Nat) : Host.Outcome State Fault Refusal → Bool
  | .next t => !t.on F.LANE_STATE_FORCED n && t.blockResets.isEmpty && !t.perfPipe.isEmpty && t.journal.isEmpty && decide (t.resetCause = some 2)
  | _ => false

theorem heldEarlierAfter_next (h : heldEarlierAfter n (.next t) = true) : t.HeldEarlier n := by
  simp only [heldEarlierAfter, Bool.and_eq_true, Bool.not_eq_true', List.isEmpty_iff, List.isEmpty_eq_false_iff, decide_eq_true_eq] at h
  obtain ⟨⟨⟨⟨hforced, hblocks⟩, hcounted⟩, hjournal⟩, hcause⟩ := h
  exact ⟨hforced, hblocks, hcounted, hjournal, hcause⟩

theorem heldEarlierAfter_txCommit : heldEarlierAfter 47 (exec (.txCommit .boot 47 1) mergeResets) = true := by decide +kernel

theorem mergeResets_accepts : mergeResets.Accepts .boot .LANE_TX_COMMIT 47 1 := by
  unfold State.Accepts
  decide +kernel

/-- Refutes O34: the drop to Cold of a COMMIT that meets an uncorrectable word has the merges judged again. One of them may raise a line whose reaction resets the
chip, and with it the lane's FORCED bit, before the lane's own line rises. -/
theorem not_laneTransmitBlocks : ¬ Obligations.LaneTransmitBlocks := by
  unfold Obligations.LaneTransmitBlocks
  intro h
  obtain ⟨-, hcommit, -⟩ := h mergeResets .boot 47 [] 1
  obtain ⟨-, -, hlost⟩ := hcommit mergeResets_accepts
  obtain ⟨u, ⟨-, hforced, -⟩, hexec⟩ := hlost (by decide +kernel) (by decide +kernel) (by decide +kernel) (by decide +kernel)
  have hheld := heldEarlierAfter_txCommit
  rw [hexec] at hheld
  exact State.not_heldEarlier_settle hforced _ _ _ (heldEarlierAfter_next hheld)

end Sys2Proof.Machine
end
